-- ==== Sys2Proof/Word.lean ====
section
/-!
DEFINITION. The words of the G48: 64-bit registers and addresses, bytes, the 4,096-bit vector register,
the 256-bit tile descriptor and predicate registers (04, R109 to R111).
-/
namespace Sys2Proof

/-- A 64-bit register or address (00, Register conventions). -/
abbrev Word := BitVec 64

/-- A byte of memory (00, Notation and units). -/
abbrev Byte := BitVec 8

/-- A vector register of 4,096 bits (04 R109). -/
abbrev VWord := BitVec 4096

/-- A tile descriptor register or a predicate register, 256 bits (04 R109, R111). -/
abbrev TWord := BitVec 256

end Sys2Proof
end

