-- ==== Sys2Proof/Syntax.lean ====
section
/-!
DEFINITION. The commands of the G48: one constructor for each row of the opcode table, with the row's
operands, and the types those operands have.
-/
namespace Sys2Proof

/-- A logical Bench number, 0 to 799 (00 R5). -/
abbrev BenchNo := Fin 800

/-- A Desk of a Bench (03 R94). -/
abbrev DeskNo := Fin 4

/-- A Tallboy or Sideboard number (01 R12). -/
abbrev Stack := Fin 16

/-- A Timir port (10 R292). -/
abbrev PortNo := Fin 36

/-- A mailbox number (15 R427). -/
abbrev MboxNo := Fin 32

/-- A byte string that a command carries. -/
abbrev Bytes := List Byte

/-- An issuing context of a Bench: thread F, thread B or the DWL context (04 R103). -/
inductive Ctx where
  | F | B | D
  deriving DecidableEq, Repr

/-- A hardware thread (04 R103). -/
inductive Thr where
  | F | B
  deriving DecidableEq, Repr

/-- The context that a thread is. -/
def Thr.ctx : Thr → Ctx
  | .F => .F
  | .B => .B

/-- The number of a context in register blocks: 0 F, 1 B, 2 DWL (04 R141, 06 R198). -/
def Ctx.idx : Ctx → Nat
  | .F => 0 | .B => 1 | .D => 2

/-- The code of a context in records: 1 F, 2 B, 3 DWL (03 R97, 06 R197). -/
def Ctx.code (c : Ctx) : Nat := c.idx + 1

/-- The context of a record's code. -/
def Ctx.ofCode : Nat → Option Ctx
  | 1 => some .F | 2 => some .B | 3 => some .D | _ => none

/-- The identity of whoever issues a synchronisation operation (11 R325, R340): its source kind
(10 R310), its Bench and context code where it is a context, and a number that tells its waits apart. -/
structure Who where
  kind : Nat
  bench : Nat
  ctx : Nat
  token : Nat
  deriving DecidableEq, Repr

/-- How a transaction reached this module (10 R298 to R302): the module that sent it, the module it is
for, its traffic class, the epoch and sequence number it carries, the port it came by and its hop count. A transaction of this
module's own requesters carries this module's number and enters no port (10 R287). -/
structure Via where
  src : Nat
  dest : Nat
  tc : Nat
  epoch : Nat
  seq : Nat
  port : Nat
  hops : Nat
  deriving DecidableEq, Repr

/-- The operands by which `VLD` takes its lanes: the predicate register and the format (04 R110, R140). -/
structure LaneSel where
  p : Fin 8
  fmt : Fin 16
  deriving DecidableEq, Repr

/-- The operands by which `VST` takes its lanes, and its function bits (04 R110, R140). -/
structure StoreSel where
  p : Fin 8
  fmt : Fin 16
  fn : BitVec 29
  deriving DecidableEq, Repr

/-- A failed check of a Desk (03 R88): a parity or a residue mismatch, of the pass row in hand or of row `drain` of the oldest
drain. -/
structure RowFail where
  parity : Bool
  drain : Option (Fin 256)
  deriving DecidableEq, Repr

/-- A sync-table entry and the module of the waiter or participant that has its record there (11 R325). -/
structure Homed where
  index : BitVec 16
  home : BitVec 14
  deriving DecidableEq, Repr

/-- A port, and the symbol of the pulse in which a message or a Mark passes it (14 R412). -/
structure PortAt where
  port : PortNo
  ph : Fin 80
  deriving DecidableEq, Repr

/-- The bytes that a read answers, and whether a poisoned line was read (10 R297; log 25). -/
structure ReadData where
  bytes : Bytes
  psn : Bool
  deriving DecidableEq, Repr

/-- The PCIe address of a request, and whether the request's ECRC is right (15 R421). -/
structure PcieAddr where
  addr : Nat
  good : Bool
  deriving DecidableEq, Repr

/-- The rate in GT/s at which a link has trained, and whether its partner supports FLIT mode there (15 R421). -/
structure LinkRate where
  rate : Nat
  flit : Bool
  deriving DecidableEq, Repr

/-- The status of a transaction (10 R297). -/
inductive Status where
  | ok | noroute | timeout | ue
  deriving DecidableEq, Repr

/-- The code of a status in records: 1 NOROUTE, 2 TIMEOUT, 3 UE (10 R316, R319). -/
def Status.code : Status → Nat
  | .ok => 0 | .noroute => 1 | .timeout => 2 | .ue => 3

/-- How a wait at a counter's home ended (11 R325, R328 to R331). -/
inductive WaitResult where
  | satisfied (v : Nat)
  | timeout (v : Nat)
  | discarded
  deriving DecidableEq, Repr

/-- The answer to a CANCEL (11 R333). -/
inductive CancelAns where
  | cancelled
  | satisfied (r : WaitResult)
  | unknown
  deriving DecidableEq, Repr

/-- The answer to a SYNC transaction (10 R295, 11). -/
inductive SyncAns where
  | done
  | value (v : Nat)
  | discarded
  | held
  | busy
  | opened (attempt : Nat)
  | outcome (w : Word)
  | cancel (a : CancelAns)
  deriving DecidableEq, Repr

/-- An operation that a SYNC transaction carries (10 R295; 11 R324, R328, R330, R333; 06 R186 to R191). -/
inductive SyncOp where
  | signal (inc : Nat)
  | wait (threshold : Nat) (consume : Bool) (tmo : Nat)
  | take (amount : Nat)
  | restore (amount : Nat)
  | openWord (ltag rung lad : Nat)
  | arrival (flags n attempt tmo : Nat)
  | abort (flags attempt : Nat) (trap : Bool)
  | outcome (w : Word)
  | cancel
  | notify (r : WaitResult) (threshold : Nat) (consume : Bool) (index : Nat)
  deriving DecidableEq, Repr

/-- What a transaction asks for (10 R295). -/
inductive Req where
  | rd (addr n : Nat)
  | wr (addr : Nat) (data : List Byte) (be : List Bool)
  | sync (index : Nat) (who : Who) (op : SyncOp)
  deriving DecidableEq, Repr

/-- What crosses the fabric (10 R295): a request, or the completion of one. The completion of a read tells whether a poisoned
line was read (05 R159, 06 R180; log 25). -/
inductive Fab where
  | req (r : Req)
  | rdc (status : Status) (data : List Byte) (psn : Bool)
  | wrc (status : Status)
  | syncc (status : Status) (a : SyncAns)
  deriving DecidableEq, Repr

/-- What the hardware does to a Drawer word before it is next read (03 R89): nothing, a single-bit error, or
a double-bit error. -/
inductive Upset where
  | none | single | double
  deriving DecidableEq, Repr

/-- What befalls a merge (03 R88, R89): the Drawer rows read that are upset, and the checks that fail, by row, with the kind. -/
structure MergeRows where
  us : List (Nat × Upset)
  fails : List (Nat × Bool)
  deriving DecidableEq, Repr

/-- A PTP portIdentity: clockIdentity and port number (14 R411). -/
structure PortId where
  clock : Nat
  port : Nat
  deriving DecidableEq, Repr

/-- What an Announce message says of a grandmaster (14 R411; IEEE 1588-2019). -/
structure Gm where
  prio1 : Nat
  cls : Nat
  acc : Nat
  var : Nat
  prio2 : Nat
  id : Nat
  deriving DecidableEq, Repr

/-- The body of a PTP message (14 R411). Timestamps are in ns, corrections in 2^-16 ns. -/
inductive PtpBody where
  | announce (gm : Gm) (steps : Nat)
  | sync (twoStep : Bool) (origin : Nat) (corr : Int)
  | followUp (precise : Nat) (corr : Int)
  | delayReq (corr : Int)
  | delayResp (recv : Nat) (corr : Int) (req : PortId)
  | signaling (tlv : Bytes)
  deriving DecidableEq, Repr

/-- A PTP message: domain, sending port, sequenceId and body (14 R411). -/
structure PtpMsg where
  domain : Nat
  sender : PortId
  seq : Nat
  body : PtpBody
  deriving DecidableEq, Repr

/-- What an overrun of a clock crossing displaces (14 R407): a transaction to another module, a scalar load, the far
side of a move at an address, an access of this module that is yet to be made by a requester class (09 R279) to a local
address (a store, an instruction fetch, an access of a Sideboard), a synchronisation operation on its way to this
module's own table, an answer on its way back from it, or nothing that the model holds. -/
inductive Victim where
  | txn (dest tc seq : Nat)
  | load (b : BenchNo) (c : Ctx) (rd : Fin 32)
  | move (b : BenchNo) (i : Nat) (addr : Nat)
  | access (cls : Fin 8) (addr : Nat)
  | sync (index : Nat) (who : Who) (op : SyncOp)
  | answer (k : Nat)
  | other
  deriving DecidableEq, Repr

/-- A write to the configuration space of the endpoint (15 R421; log 8): the command register (Memory Space and
Bus Master Enable), MSI-X enable and function mask, a base address, the maximum payload size (128 B times a power of
two), the power state, the generation and checking of ECRCs, ones to the status of uncorrectable errors, which clear them,
or any other field, which changes nothing that the model holds. -/
inductive CfgWrite where
  | command (mse bme : Bool)
  | msix (en fmask : Bool)
  | bar (bulk : Bool) (addr : Nat)
  | payload (n : Fin 3)
  | power (d3 : Bool)
  | ecrc (gen chk : Bool)
  | aerClear (bits : BitVec 32)
  | other
  deriving DecidableEq, Repr

/-- A message of a PLDM Type 5 update (15 R446; DSP0267, log 17): a request to update with an image's size, a
piece of the image, the end of the transfer, the activation, the cancellation. -/
inductive UpdateMsg where
  | request (size : Nat)
  | data (off : Nat) (piece : Bytes)
  | complete
  | activate
  | cancel
  deriving DecidableEq, Repr

/-- An MCTP control message (15 R445; DSP0236, log 17). -/
inductive MctpCtl where
  | setEid (eid : Nat)
  | getEid
  | getTypes
  | other (code : Nat)
  deriving DecidableEq, Repr

/-- A PLDM Type 0 message (15 R445; DSP0240, log 17). -/
inductive PldmBase where
  | setTid (tid : Nat)
  | getTid
  | getVersion (type : Nat)
  | getTypes
  | getCommands (type : Nat)
  deriving DecidableEq, Repr

/-- The commands: one constructor for each row of the opcode table, with the rule the table names. -/
inductive Instr where
  /-- `REGISTER_WRITE` (R6): A software write to a control register field that has no row of its own, applied according to its access code, size and alignment. -/
  | registerWrite (who : Who) (a n : Nat) (v : Word)
  /-- `NOP` (R138): no operation. -/
  | nop (b : BenchNo) (c : Ctx) (opc : Byte) (rsv : BitVec 56)
  /-- `YIELD` (R138): releases the named Desk leases and gives the other thread issue priority. -/
  | yield (b : BenchNo) (c : Ctx) (mask : Fin 16) (rsv : BitVec 52)
  /-- `DEFER` (R119): pushes a DWL entry image into the ring, waiting while the list is full. -/
  | defer (b : BenchNo) (c : Ctx) (rs : Fin 32) (rsv : BitVec 50)
  /-- `DEFER_PUSH` (R119): A waiting DEFER performs its push once an entry leaves the full list, writing SRC and STEP. -/
  | deferPush (b : BenchNo) (t : Thr)
  /-- `DEFER_FLUSH` (R119): the flush form of DEFER waits until the DWL is empty and no entry runs. -/
  | deferFlush (b : BenchNo) (c : Ctx) (rs : Fin 32) (rsv : BitVec 50)
  /-- `DEND` (R122): ends a DWL entry once all its Desk instructions and moves have completed. -/
  | dend (b : BenchNo) (c : Ctx) (rsv : BitVec 56)
  /-- `DWL_ENTRY_END` (R122): the completion of a waiting DEND returns borrowed Desks, clears LENT bits and removes the entry. -/
  | dwlEntryEnd (b : BenchNo)
  /-- `STOP` (R138): the thread stops with cause 0x01. -/
  | stop (b : BenchNo) (c : Ctx) (rsv : BitVec 56)
  /-- `ADD` (R139): scalar 64-bit wrapping addition. -/
  | add (b : BenchNo) (c : Ctx) (rd rs1 rs2 : Fin 32) (i : Bool) (imm : BitVec 32) (rsv : BitVec 8)
  /-- `SUB` (R139): scalar 64-bit wrapping subtraction. -/
  | sub (b : BenchNo) (c : Ctx) (rd rs1 rs2 : Fin 32) (i : Bool) (imm : BitVec 32) (rsv : BitVec 8)
  /-- `AND` (R139): scalar bitwise AND. -/
  | and (b : BenchNo) (c : Ctx) (rd rs1 rs2 : Fin 32) (i : Bool) (imm : BitVec 32) (rsv : BitVec 8)
  /-- `OR` (R139): scalar bitwise OR. -/
  | or (b : BenchNo) (c : Ctx) (rd rs1 rs2 : Fin 32) (i : Bool) (imm : BitVec 32) (rsv : BitVec 8)
  /-- `XOR` (R139): scalar bitwise XOR. -/
  | xor (b : BenchNo) (c : Ctx) (rd rs1 rs2 : Fin 32) (i : Bool) (imm : BitVec 32) (rsv : BitVec 8)
  /-- `SHL` (R139): scalar shift left by bits [5:0] of the amount. -/
  | shl (b : BenchNo) (c : Ctx) (rd rs1 rs2 : Fin 32) (i : Bool) (imm : BitVec 32) (rsv : BitVec 8)
  /-- `SHR` (R139): scalar logical shift right. -/
  | shr (b : BenchNo) (c : Ctx) (rd rs1 rs2 : Fin 32) (i : Bool) (imm : BitVec 32) (rsv : BitVec 8)
  /-- `SRA` (R139): scalar arithmetic shift right. -/
  | sra (b : BenchNo) (c : Ctx) (rd rs1 rs2 : Fin 32) (i : Bool) (imm : BitVec 32) (rsv : BitVec 8)
  /-- `MUL` (R139): scalar low product. -/
  | mul (b : BenchNo) (c : Ctx) (rd rs1 rs2 : Fin 32) (i : Bool) (imm : BitVec 32) (rsv : BitVec 8)
  /-- `MULH` (R139): scalar signed high product. -/
  | mulh (b : BenchNo) (c : Ctx) (rd rs1 rs2 : Fin 32) (i : Bool) (imm : BitVec 32) (rsv : BitVec 8)
  /-- `DIV` (R139): scalar signed quotient, all ones on division by zero; illegal in the DWL context. -/
  | div (b : BenchNo) (c : Ctx) (rd rs1 rs2 : Fin 32) (i : Bool) (imm : BitVec 32) (rsv : BitVec 8)
  /-- `REM` (R139): scalar signed remainder, the dividend on division by zero. -/
  | rem (b : BenchNo) (c : Ctx) (rd rs1 rs2 : Fin 32) (i : Bool) (imm : BitVec 32) (rsv : BitVec 8)
  /-- `SLT` (R139): signed set-less-than. -/
  | slt (b : BenchNo) (c : Ctx) (rd rs1 rs2 : Fin 32) (i : Bool) (imm : BitVec 32) (rsv : BitVec 8)
  /-- `SLTU` (R139): unsigned set-less-than. -/
  | sltu (b : BenchNo) (c : Ctx) (rd rs1 rs2 : Fin 32) (i : Bool) (imm : BitVec 32) (rsv : BitVec 8)
  /-- `MIN` (R139): signed scalar minimum. -/
  | min (b : BenchNo) (c : Ctx) (rd rs1 rs2 : Fin 32) (i : Bool) (imm : BitVec 32) (rsv : BitVec 8)
  /-- `MAX` (R139): signed scalar maximum. -/
  | max (b : BenchNo) (c : Ctx) (rd rs1 rs2 : Fin 32) (i : Bool) (imm : BitVec 32) (rsv : BitVec 8)
  /-- `LI` (R139): loads the sign-extended immediate. -/
  | li (b : BenchNo) (c : Ctx) (rd : Fin 32) (imm : BitVec 32) (rsv : BitVec 8)
  /-- `LIH` (R139): loads the immediate into bits [63:32], keeping the low half. -/
  | lih (b : BenchNo) (c : Ctx) (rd : Fin 32) (imm : BitVec 32) (rsv : BitVec 8)
  /-- `CTR` (R139): reads BENCH_CYC into a register. -/
  | ctr (b : BenchNo) (c : Ctx) (rd : Fin 32) (rsv : BitVec 8)
  /-- `BEQ` (R139): branch if equal. -/
  | beq (b : BenchNo) (c : Ctx) (rs1 rs2 : Fin 32) (imm : BitVec 32) (rsv : BitVec 8)
  /-- `BNE` (R139): branch if not equal. -/
  | bne (b : BenchNo) (c : Ctx) (rs1 rs2 : Fin 32) (imm : BitVec 32) (rsv : BitVec 8)
  /-- `BLT` (R139): branch if signed less than. -/
  | blt (b : BenchNo) (c : Ctx) (rs1 rs2 : Fin 32) (imm : BitVec 32) (rsv : BitVec 8)
  /-- `BGE` (R139): branch if signed greater or equal. -/
  | bge (b : BenchNo) (c : Ctx) (rs1 rs2 : Fin 32) (imm : BitVec 32) (rsv : BitVec 8)
  /-- `BLTU` (R139): branch if unsigned less than. -/
  | bltu (b : BenchNo) (c : Ctx) (rs1 rs2 : Fin 32) (imm : BitVec 32) (rsv : BitVec 8)
  /-- `BGEU` (R139): branch if unsigned greater or equal. -/
  | bgeu (b : BenchNo) (c : Ctx) (rs1 rs2 : Fin 32) (imm : BitVec 32) (rsv : BitVec 8)
  /-- `JAL` (R139): jump and link relative. -/
  | jal (b : BenchNo) (c : Ctx) (rd : Fin 32) (imm : BitVec 32) (rsv : BitVec 8)
  /-- `JALR` (R139): jump and link to register plus immediate. -/
  | jalr (b : BenchNo) (c : Ctx) (rd rs1 : Fin 32) (imm : BitVec 32) (rsv : BitVec 8)
  /-- `LD8` (R139): zero-extended 8-bit scalar load from a Timir address. -/
  | ld8 (b : BenchNo) (c : Ctx) (rd rs1 : Fin 32) (imm : BitVec 32) (rsv : BitVec 8)
  /-- `LD16` (R139): zero-extended 16-bit scalar load. -/
  | ld16 (b : BenchNo) (c : Ctx) (rd rs1 : Fin 32) (imm : BitVec 32) (rsv : BitVec 8)
  /-- `LD32` (R139): zero-extended 32-bit scalar load. -/
  | ld32 (b : BenchNo) (c : Ctx) (rd rs1 : Fin 32) (imm : BitVec 32) (rsv : BitVec 8)
  /-- `LD64` (R139): 64-bit scalar load. -/
  | ld64 (b : BenchNo) (c : Ctx) (rd rs1 : Fin 32) (imm : BitVec 32) (rsv : BitVec 8)
  /-- `SCALAR_LOAD_COMPLETE` (R106): A scalar load to memory outside the Bench's Shelf returns its data, or zero for failed bytes. -/
  | scalarLoadComplete (b : BenchNo) (c : Ctx) (rd : Fin 32)
  /-- `ST` (R139): scalar store of 1, 2, 4 or 8 bytes to a Timir address. -/
  | st (b : BenchNo) (c : Ctx) (rd rs1 : Fin 32) (imm : BitVec 32) (rsv : BitVec 8)
  /-- `TLD` (R139): loads a tile descriptor from Shelf into a t register. -/
  | tld (b : BenchNo) (c : Ctx) (t : Fin 16) (rs1 : Fin 32) (rsv : BitVec 8)
  /-- `TST` (R139): stores a tile descriptor from a t register to Shelf. -/
  | tst (b : BenchNo) (c : Ctx) (t : Fin 16) (rs1 : Fin 32) (rsv : BitVec 8)
  /-- `TBASE` (R139): sets BASE of a tile descriptor. -/
  | tbase (b : BenchNo) (c : Ctx) (t : Fin 16) (rs1 : Fin 32) (imm : BitVec 32) (rsv : BitVec 8)
  /-- `TORG` (R139): sets ORIGIN of a tile descriptor. -/
  | torg (b : BenchNo) (c : Ctx) (t : Fin 16) (rs1 : Fin 32) (imm : BitVec 32) (rsv : BitVec 8)
  /-- `VADD` (R140): vector addition under R38 and R41. -/
  | vadd (b : BenchNo) (c : Ctx) (vd va vb vc : Fin 32) (p : Fin 8) (fmt : Fin 16) (fn : BitVec 29)
  /-- `VSUB` (R140): vector subtraction. -/
  | vsub (b : BenchNo) (c : Ctx) (vd va vb vc : Fin 32) (p : Fin 8) (fmt : Fin 16) (fn : BitVec 29)
  /-- `VMUL` (R140): vector multiplication. -/
  | vmul (b : BenchNo) (c : Ctx) (vd va vb vc : Fin 32) (p : Fin 8) (fmt : Fin 16) (fn : BitVec 29)
  /-- `VFMA` (R140): vector fused multiply-add. -/
  | vfma (b : BenchNo) (c : Ctx) (vd va vb vc : Fin 32) (p : Fin 8) (fmt : Fin 16) (fn : BitVec 29)
  /-- `VMIN` (R140): vector minimum under R40. -/
  | vmin (b : BenchNo) (c : Ctx) (vd va vb vc : Fin 32) (p : Fin 8) (fmt : Fin 16) (fn : BitVec 29)
  /-- `VMAX` (R140): vector maximum under R40. -/
  | vmax (b : BenchNo) (c : Ctx) (vd va vb vc : Fin 32) (p : Fin 8) (fmt : Fin 16) (fn : BitVec 29)
  /-- `VDIV` (R140): vector division. -/
  | vdiv (b : BenchNo) (c : Ctx) (vd va vb vc : Fin 32) (p : Fin 8) (fmt : Fin 16) (fn : BitVec 29)
  /-- `VSQRT` (R140): vector square root. -/
  | vsqrt (b : BenchNo) (c : Ctx) (vd va vb vc : Fin 32) (p : Fin 8) (fmt : Fin 16) (fn : BitVec 29)
  /-- `VCMP` (R140): vector compare writing a predicate register. -/
  | vcmp (b : BenchNo) (c : Ctx) (vd va vb vc : Fin 32) (p : Fin 8) (fmt : Fin 16) (fn : BitVec 29)
  /-- `VSEL` (R140): vector select under a predicate. -/
  | vsel (b : BenchNo) (c : Ctx) (vd va vb vc : Fin 32) (p : Fin 8) (fmt : Fin 16) (fn : BitVec 29)
  /-- `VRED` (R140): sums the lanes by tree into lane 0. -/
  | vred (b : BenchNo) (c : Ctx) (vd va vb vc : Fin 32) (p : Fin 8) (fmt : Fin 16) (fn : BitVec 29)
  /-- `VBCAST` (R140): broadcasts scalar register bits to every lane. -/
  | vbcast (b : BenchNo) (c : Ctx) (vd va vb vc : Fin 32) (p : Fin 8) (fmt : Fin 16) (fn : BitVec 29)
  /-- `VCVT` (R140): converts vector lanes between formats with RNE or SR. -/
  | vcvt (b : BenchNo) (c : Ctx) (vd va vb vc : Fin 32) (p : Fin 8) (fmt : Fin 16) (fn : BitVec 29)
  /-- `VLD` (R140): loads 512 B of Shelf into a vector register. -/
  | vld (b : BenchNo) (c : Ctx) (vd : Fin 32) (x : LaneSel) (fn : BitVec 29)
  /-- `VST` (R140): stores a vector register to 512 B of Shelf. -/
  | vst (b : BenchNo) (c : Ctx) (vd : Fin 32) (x : StoreSel)
  /-- `PSET` (R140): loads a predicate register from 256 bits of Shelf. -/
  | pset (b : BenchNo) (c : Ctx) (p : Fin 8) (fn : BitVec 29)
  /-- `VEXP2` (R140): vector base-2 exponential. -/
  | vexp2 (b : BenchNo) (c : Ctx) (vd va vb vc : Fin 32) (p : Fin 8) (fmt : Fin 16) (fn : BitVec 29)
  /-- `VEXP` (R140): vector natural exponential. -/
  | vexp (b : BenchNo) (c : Ctx) (vd va vb vc : Fin 32) (p : Fin 8) (fmt : Fin 16) (fn : BitVec 29)
  /-- `VLOG2` (R140): vector base-2 logarithm. -/
  | vlog2 (b : BenchNo) (c : Ctx) (vd va vb vc : Fin 32) (p : Fin 8) (fmt : Fin 16) (fn : BitVec 29)
  /-- `VLOG` (R140): vector natural logarithm. -/
  | vlog (b : BenchNo) (c : Ctx) (vd va vb vc : Fin 32) (p : Fin 8) (fmt : Fin 16) (fn : BitVec 29)
  /-- `VRCP` (R140): vector reciprocal. -/
  | vrcp (b : BenchNo) (c : Ctx) (vd va vb vc : Fin 32) (p : Fin 8) (fmt : Fin 16) (fn : BitVec 29)
  /-- `VRSQ` (R140): vector reciprocal square root. -/
  | vrsq (b : BenchNo) (c : Ctx) (vd va vb vc : Fin 32) (p : Fin 8) (fmt : Fin 16) (fn : BitVec 29)
  /-- `VSIN` (R140): vector sine. -/
  | vsin (b : BenchNo) (c : Ctx) (vd va vb vc : Fin 32) (p : Fin 8) (fmt : Fin 16) (fn : BitVec 29)
  /-- `VCOS` (R140): vector cosine. -/
  | vcos (b : BenchNo) (c : Ctx) (vd va vb vc : Fin 32) (p : Fin 8) (fmt : Fin 16) (fn : BitVec 29)
  /-- `VTANH` (R140): vector hyperbolic tangent. -/
  | vtanh (b : BenchNo) (c : Ctx) (vd va vb vc : Fin 32) (p : Fin 8) (fmt : Fin 16) (fn : BitVec 29)
  /-- `VSIG` (R140): vector sigmoid. -/
  | vsig (b : BenchNo) (c : Ctx) (vd va vb vc : Fin 32) (p : Fin 8) (fmt : Fin 16) (fn : BitVec 29)
  /-- `DESK_B` (R127): queues a load of a Desk B slot from a tile descriptor. -/
  | deskB (b : BenchNo) (c : Ctx) (d : DeskNo) (sl : Fin 2) (t : Fin 16) (rsv : BitVec 49)
  /-- `DESK_A` (R128): queues one pass, or a broadcast pass, of A rows against a B slot into a Drawer set. -/
  | deskA (b : BenchNo) (c : Ctx) (mask : Fin 16) (sl : Fin 2) (set : Fin 16) (j n : Fin 256) (kp : Fin 128) (t : Fin 16) (rsv : BitVec 20)
  /-- `DESK_D_EPILOGUE` (R129): queues an epilogue drain of Drawer rows to Shelf. -/
  | deskDEpilogue (b : BenchNo) (c : Ctx) (d : DeskNo) (set : Fin 16) (j n : Fin 256) (t : Fin 16) (rsv : BitVec 28)
  /-- `DESK_D_RAW` (R129): queues a raw drain of Drawer images to Shelf. -/
  | deskDRaw (b : BenchNo) (c : Ctx) (d : DeskNo) (set : Fin 16) (j n : Fin 256) (t : Fin 16) (rsv : BitVec 28)
  /-- `DESK_D_MERGE` (R129): queues a merge of raw Drawer images from Shelf into a set. -/
  | deskDMerge (b : BenchNo) (c : Ctx) (d : DeskNo) (set : Fin 16) (j n : Fin 256) (t : Fin 16) (rsv : BitVec 28)
  /-- `DESK_D_DISCARD` (R129): queues the discard of a Drawer set. -/
  | deskDDiscard (b : BenchNo) (c : Ctx) (d : DeskNo) (set : Fin 16) (j n : Fin 256) (t : Fin 16) (rsv : BitVec 28)
  /-- `DESK_L` (R130): requests Desk leases, checking for lease deadlock. -/
  | deskL (b : BenchNo) (c : Ctx) (mask : Fin 16) (rsv : BitVec 52)
  /-- `DESK_LEASE_GRANT` (R117): the arbiter grants a waiting thread all its requested Desks once they are free in one cycle. -/
  | deskLeaseGrant (b : BenchNo)
  /-- `DESK_B_LOAD_START` (R74): A DESK.B at the head of the queue starts loading its slot once neither slot is busy or loading. -/
  | deskBLoadStart (b : BenchNo) (d : DeskNo)
  /-- `DESK_B_LOAD_COMPLETE` (R72): A B slot load completes, making the slot valid and releasing passes that wait on it. -/
  | deskBLoadComplete (b : BenchNo) (d : DeskNo)
  /-- `DESK_PASS_START` (R126): A pass at the head of the Desk queue starts reading A rows once its slot, set and the previous pass allow. -/
  | deskPassStart (b : BenchNo) (d : DeskNo)
  /-- `DESK_ROW_COMMIT` (R67): A checked A row's Drawer totals are promoted and written with ECC, flags recorded. -/
  | deskRowCommit (b : BenchNo) (d : DeskNo) (us : List (Nat × Upset))
  /-- `DESK_ROW_CHECK_FAIL` (R90): A row fails its residue or parity check and it and the rows behind it are replayed from the buffer. -/
  | deskRowCheckFail (b : BenchNo) (d : DeskNo) (x : RowFail)
  /-- `DESK_RATE_WINDOW_END` (R92): the 800,000-cycle replay window of a Desk ends and the replay count for the rate test restarts. -/
  | deskRateWindowEnd (b : BenchNo) (d : DeskNo)
  /-- `DESK_DRAIN_START` (R81): an epilogue or raw drain starts once earlier passes into its set have committed, moving the set to DRAINING. -/
  | deskDrainStart (b : BenchNo) (d : DeskNo)
  /-- `DESK_DRAIN_COMPLETE` (R76): the last drain row is written to Shelf and the set becomes FREE. -/
  | deskDrainComplete (b : BenchNo) (d : DeskNo) (us : List (Nat × Upset))
  /-- `DESK_MERGE_START` (R81): A merge starts reading raw images into a set, opening it if FREE. -/
  | deskMergeStart (b : BenchNo) (d : DeskNo) (x : MergeRows)
  /-- `DESK_DISCARD_EFFECT` (R77): A discard takes effect once earlier passes and merges have committed, freeing the set. -/
  | deskDiscardEffect (b : BenchNo) (d : DeskNo)
  /-- `DESK_CFG_WRITE` (R80): A write to DESK_CFG takes effect only if every set is FREE, otherwise sets CFG_REJ. -/
  | deskCfgWrite (b : BenchNo) (d : DeskNo) (v : Word)
  /-- `DESK_CLR_CNT` (R102): clears DESK_STALL, REPLAYS and DRAWER_CE. -/
  | deskClrCnt (b : BenchNo) (d : DeskNo)
  /-- `DESK_INJ_DRAWER_CE` (R102): flips one bit of the next Drawer word written. -/
  | deskInjDrawerCe (b : BenchNo) (d : DeskNo)
  /-- `DESK_INJ_PARITY` (R102): forces a parity mismatch on the next row checked. -/
  | deskInjParity (b : BenchNo) (d : DeskNo)
  /-- `DESK_INJ_RESIDUE` (R102): forces a residue mismatch on the next row checked. -/
  | deskInjResidue (b : BenchNo) (d : DeskNo)
  /-- `ICACHE_FILL_COMPLETE` (R515): A 64 B instruction line read returns and is entered in the cache, or the fetch fails. -/
  | icacheFillComplete (b : BenchNo) (line : Word)
  /-- `THREAD_START` (R142): setting START starts a STOPPED thread at its PC and invalidates the instruction cache. -/
  | threadStart (b : BenchNo) (t : Thr)
  /-- `THREAD_STOP_REQUEST` (R142): setting STOP stops the thread at the next instruction boundary under R105. -/
  | threadStopRequest (b : BenchNo) (t : Thr)
  /-- `BENCH_PC_WRITE` (R143): A PC write takes effect only while the thread is STOPPED. -/
  | benchPcWrite (b : BenchNo) (t : Thr) (v : Word)
  /-- `DWL_IDLE_EXPIRY` (R120): neither thread has issued for more than BENCH_DWL.IDLE cycles. -/
  | dwlIdleExpiry (b : BenchNo)
  /-- `DWL_ENTRY_START` (R121): the head DWL entry starts, loading registers, borrowing Desks, or faulting at start. -/
  | dwlEntryStart (b : BenchNo)
  /-- `DWL_RESUME` (R123): writing RESUME discards a faulted entry, returns its Desks and clears FAULTED. -/
  | dwlResume (b : BenchNo)
  /-- `MOVE_COPY` (R152): MOVE with OP 0 copies elements between Shelf and a far address. -/
  | moveCopy (b : BenchNo) (c : Ctx) (rs : Fin 32) (t : Fin 16) (dir : Fin 2) (sg : Bool) (cnt : BitVec 16) (rsv : BitVec 25)
  /-- `MOVE_CONVERT` (R153): MOVE with OP 1 converts elements between formats on the way. -/
  | moveConvert (b : BenchNo) (c : Ctx) (rs : Fin 32) (t : Fin 16) (dir : Fin 2) (sg : Bool) (cnt : BitVec 16) (rsv : BitVec 25)
  /-- `MOVE_TRANSPOSE` (R156): MOVE with OP 2 transposes and converts in 32 x 32 blocks. -/
  | moveTranspose (b : BenchNo) (c : Ctx) (rs : Fin 32) (t : Fin 16) (dir : Fin 2) (sg : Bool) (cnt : BitVec 16) (rsv : BitVec 25)
  /-- `MOVE_WIDEN` (R157): MOVE with OP 3 widens scaled GF8a or GF16b far data into Shelf. -/
  | moveWiden (b : BenchNo) (c : Ctx) (rs : Fin 32) (t : Fin 16) (dir : Fin 2) (sg : Bool) (cnt : BitVec 16) (rsv : BitVec 25)
  /-- `MOVE_EXPAND` (R166): MOVE with OP 4 decodes a compressed tensor into Shelf through the expander, marking lines pending.
  `rop` is OP - 4: any other than 0 is one of the reserved operations 5 to 15 (R131), which are illegal (R107). -/
  | moveExpand (b : BenchNo) (c : Ctx) (rs : Fin 32) (t : Fin 16) (dir : Fin 2) (sg : Bool) (cnt : BitVec 16) (rop : Fin 12) (rsv : BitVec 25)
  /-- `MOVE_COMPLETE` (R132): A move's last read and write are done; a counter is signalled if SG is set. -/
  | moveComplete (b : BenchNo) (i : Fin 48)
  /-- `EXPANDER_BLOCK_COMPLETE` (R168): the expander finishes a block, making its lines readable or poisoning it on error. -/
  | expanderBlockComplete (b : BenchNo)
  /-- `EXP_INJ_SHORT` (R176): makes the next decoded block end as a short block. -/
  | expInjShort (b : BenchNo)
  /-- `EXP_CLR_CNT` (R176): clears EXP_STALL, EXP_ERR.COUNT and MOVE_ERR.COUNT. -/
  | expClrCnt (b : BenchNo)
  /-- `SIG` (R133): sends a signal of INC to a counter and continues. -/
  | sig (b : BenchNo) (c : Ctx) (rs : Fin 32) (inc : BitVec 8) (rsv : BitVec 43)
  /-- `WAIT` (R134): waits for a counter to reach a threshold, optionally consuming, with a timeout. -/
  | wait (b : BenchNo) (c : Ctx) (rd rs rt : Fin 32) (consume : Bool) (tmo : BitVec 24) (rsv : BitVec 16)
  /-- `TAKE` (R134): subtracts an amount from a counter and returns its prior value. -/
  | take (b : BenchNo) (c : Ctx) (rd rs rt : Fin 32) (rsv : BitVec 41)
  /-- `FENCE_B` (R135): holds the context until its earlier accesses are complete in Bench scope. -/
  | fenceB (b : BenchNo) (c : Ctx) (rsv : BitVec 56)
  /-- `FENCE_M` (R135): holds the context until its earlier accesses are complete in module scope. -/
  | fenceM (b : BenchNo) (c : Ctx) (rsv : BitVec 56)
  /-- `FENCE_D` (R135): holds the context until its earlier accesses are complete in domain scope. -/
  | fenceD (b : BenchNo) (c : Ctx) (rsv : BitVec 56)
  /-- `FENCE_COMPLETE` (R135): the conditions of a pending fence are met and the context proceeds. -/
  | fenceComplete (b : BenchNo) (c : Ctx)
  /-- `LOPEN` (R186): sends an open request to a layer flag word and blocks for the answer. -/
  | lopen (b : BenchNo) (c : Ctx) (rs : Fin 32) (ltag : BitVec 16) (rung : Fin 4) (lad : Fin 2) (rsv : BitVec 32)
  /-- `LOPEN_ANSWER` (R186): the word's answer opens the layer, recording ATTEMPT and clearing LFLAGS. -/
  | lopenAnswer (v : Via) (attempt : BitVec 8)
  /-- `LOPEN_TIMEOUT` (R186): an unanswered open request times out and the layer opens with LOST and event 0x15. -/
  | lopenTimeout (b : BenchNo) (t : Thr)
  /-- `LCOMMIT` (R188): fences the context's outputs then sends an arrival and blocks for an outcome. -/
  | lcommit (b : BenchNo) (c : Ctx) (rd rs rt : Fin 32) (rsv : BitVec 41)
  /-- `LCOMMIT_ARRIVAL_SEND` (R188): once the LCOMMIT fence conditions hold, the arrival carrying LFLAGS, N and ATTEMPT is sent. -/
  | lcommitArrivalSend (b : BenchNo) (t : Thr)
  /-- `LCOMMIT_OUTCOME` (R193): an outcome word returns and is written to RD, clearing OPEN. -/
  | lcommitOutcome (v : Via) (i : BitVec 16) (who : Who) (o : Word)
  /-- `LCOMMIT_TIMEOUT` (R192): an LCOMMIT blocked past the default timeout closes the attempt with TIMEOUT. -/
  | lcommitTimeout (w : Homed) (who : Who)
  /-- `LAYER_ABORT_ARRIVAL` (R191): A stopped participant sends an abort arrival once its started work has completed. -/
  | layerAbortArrival (b : BenchNo) (t : Thr)
  /-- `LAYER_OPEN_REQUEST` (R187): at the word, an open request arms the word or joins the attempt and answers ATTEMPT. -/
  | layerOpenRequest (v : Via) (i : BitVec 16) (who : Who) (ltag : BitVec 16) (rung : Fin 4) (lad : Fin 2)
  /-- `LAYER_ARRIVAL` (R189): at the word, an arrival or abort arrival is counted, or answered STALE. -/
  | layerArrival (v : Via) (i : BitVec 16) (who : Who) (op : SyncOp)
  /-- `LAYER_ABORT_TIMEOUT` (R189): an attempt with an abort counted and EXPECT still 0 closes as ABORTED after the default timeout. -/
  | layerAbortTimeout (w : BitVec 16)
  /-- `FLAGR` (R137): reads a unit's sticky flags into a register. -/
  | flagr (b : BenchNo) (c : Ctx) (rd : Fin 32) (u : Fin 8) (rsv1 : BitVec 15) (rsv2 : BitVec 33)
  /-- `FLAGC` (R137): clears selected sticky flags of a unit. -/
  | flagc (b : BenchNo) (c : Ctx) (u : Fin 8) (clr : BitVec 4) (rsv1 : BitVec 20) (rsv2 : BitVec 29)
  /-- `SBD_RECORD_TAKE` (R226): A Sideboard takes an intake record whose 64 header bytes are written, checking and sorting it. -/
  | sbdRecordTake (t : Stack) (x : Fin 262144)
  /-- `SBD_STEPREC_POLL` (R235): every 10 µs the Sideboard rereads an absent step record. -/
  | sbdSteprecPoll (t : Stack) (step : BitVec 48)
  /-- `SBD_WAIT_TIMEOUT` (R235): A wait for a step record or global result exceeds GTMO and raises event 0x25 once. -/
  | sbdWaitTimeout (t : Stack) (global : Bool) (step : BitVec 48)
  /-- `SBD_UPDATE_START` (R241): A slot's update starts once intake is complete everywhere and the step record is latched. -/
  | sbdUpdateStart (l : Fin 4096)
  /-- `SBD_NORM_COLLECT` (R243): the collector's wait on CIDX completes; it sums, forms n_G and distributes the result. -/
  | sbdNormCollect
  /-- `SBD_NORM_RESULT` (R243): A module's wait on RIDX completes and it reads the global result line. -/
  | sbdNormResult
  /-- `SBD_PUBLISH` (R249): when the step's writes are visible, Sideboard 0 signals UCNT and intake moves on. -/
  | sbdPublish (l : Fin 4096)
  /-- `SBD_CHECK_FAIL` (R264): A Sideboard chunk or lane group fails its check and is repeated. -/
  | sbdCheckFail (t : Stack) (again : Bool)
  /-- `TBY_INIT_COMPLETE` (R267): tallboy initialisation after reset completes, INIT is set and held accesses proceed. -/
  | tbyInitComplete (t : Stack)
  /-- `TBY_ACCESS` (R269): A request to a Tallboy codeword is served, with read-merge-write, region checks and ECC decode. -/
  | tbyAccess (cls : Fin 8) (ia : Nat) (n : Nat) (wr : Option (Bytes × List Bool)) (flips : List (Nat × Nat × Nat))
  /-- `TBY_SCRUB_READ` (R274): the paced patrol scrub reads the next codeword and writes back corrections. -/
  | tbyScrubRead (t : Stack) (flips : List (Nat × Nat × Nat))
  /-- `TBY_ROW_SPARE_COMPLETE` (R275): the copy of a spared row completes. -/
  | tbyRowSpareComplete (t : Stack)
  /-- `TBY_REMAP_COMPLETE` (R276): the copy of a remapped layer completes and REMAP reads 2. -/
  | tbyRemapComplete (t : Stack)
  /-- `TBY_CLR_CNT` (R286): clears TBY_ECC. -/
  | tbyClrCnt (t : Stack)
  /-- `TBY_INJ_UE` (R286): makes the next read uncorrectable. -/
  | tbyInjUe (t : Stack)
  /-- `TBY_INJ_CE` (R286): flips one symbol of the next read. -/
  | tbyInjCe (t : Stack)
  /-- `TBY_STAGE_WRITE` (R281): A write to TBY_STAGE.OWNER claims, releases or is refused for the staging region. -/
  | tbyStageWrite (x : Fin 4)
  /-- `TBY_QOS_WRITE` (R284): new bandwidth weights take effect at the next round. -/
  | tbyQosWrite (t : Stack) (v : BitVec 24)
  /-- `PORT_TRAIN_COMPLETE` (R294): A port finishes training and enters UP4, UP3 or DOWN, recording its peer. -/
  | portTrainComplete (p : PortNo) (good : BitVec 4) (peer : Option (BitVec 14 × Bool))
  /-- `PORT_TRAIN_RETRY` (R294): A DOWN port with EN set tries to train again every 10 ms. -/
  | portTrainRetry (p : PortNo)
  /-- `PORT_RETRAIN` (R321): writing RETRAIN starts a retrain of the port. -/
  | portRetrain (p : PortNo)
  /-- `PORT_DISABLE` (R321): clearing EN takes the port to DOWN, discarding its queue and replay buffer. -/
  | portDisable (p : PortNo)
  /-- `LINK_LOST` (R294): A port loses its link and leaves the up states. -/
  | linkLost (p : PortNo)
  /-- `FLIT_RECEIVE` (R292): A flit arrives; a CRC failure triggers replay and repeated failure triggers retrain. -/
  | flitReceive (p : PortNo) (mine good : Bool) (n : BitVec 16)
  /-- `MARK_ARRIVAL` (R293): A Mark symbol arrives and its time is latched for oscillator trim. -/
  | markArrival (p : PortAt)
  /-- `TMR_RD` (R301): an RD transaction arrives, is forwarded in transit or performed at the destination. -/
  | tmrRd (v : Via) (addr n : Nat)
  /-- `TMR_WR` (R301): A WR transaction arrives, is forwarded or performed once and answered. -/
  | tmrWr (v : Via) (addr : Nat) (data : Bytes) (be : List Bool)
  /-- `TMR_RDC` (R297): A read completion arrives at the requester with status and data. -/
  | tmrRdc (v : Via) (st : Status) (data : ReadData)
  /-- `TMR_WRC` (R297): A write completion arrives at the requester. -/
  | tmrWrc (v : Via) (st : Status)
  /-- `SYNC_RESPONSE` (R334): A SYNCC answer to a SYNC transaction arrives at the issuer, completing or failing the operation. -/
  | syncResponse (v : Via) (st : Status) (a : SyncAns)
  /-- `TMR_RTO_EXPIRY` (R300): an unanswered transaction is resent, or fails with TIMEOUT after RETRY resends. -/
  | tmrRtoExpiry (dest : BitVec 14) (tc : Fin 8) (seq : BitVec 24)
  /-- `FLOW_IDLE_EXPIRY` (R495): A receive context idle for 1 s becomes unused. -/
  | flowIdleExpiry (m : BitVec 14) (tc : Fin 8)
  /-- `TMR_RT_WRITE` (R304): A word-1 write of a route entry applies it together with the held word 0 on both L-dies. -/
  | tmrRtWrite (m : BitVec 14) (v : Word)
  /-- `TMR_QUOTA_WRITE` (R312): A new class quota is applied, releasing waiting transactions in order when raised. -/
  | tmrQuotaWrite (tc : Fin 8) (q : BitVec 16)
  /-- `COUNTER_SIGNAL` (R324): A signal at the home adds to a counter and completes satisfied waiter records. -/
  | counterSignal (v : Via) (i : BitVec 16) (who : Who) (inc : BitVec 32)
  /-- `COUNTER_WAIT` (R325): A wait test at the home completes at once, creates a waiter record, or answers BUSY. -/
  | counterWait (v : Via) (i : BitVec 16) (who : Who) (threshold : BitVec 32) (consume : Bool) (tmo : BitVec 24)
  /-- `COUNTER_TAKE` (R324): A take at the home subtracts with saturation and returns the old value. -/
  | counterTake (v : Via) (i : BitVec 16) (who : Who) (amount : BitVec 32)
  /-- `COUNTER_RESTORE` (R324): A restore adds back a consumed threshold. -/
  | counterRestore (v : Via) (i : BitVec 16) (who : Who) (amount : BitVec 32)
  /-- `COUNTER_STORE` (R342): A store to a counter value is ordered with its operations and examines waiters if it raises v. -/
  | counterStore (i : BitVec 16) (x : BitVec 32) (who : Who)
  /-- `NOTIFY` (R328): A NOTIFY arrives at the waiter's module, completing the WAIT or being restored. -/
  | notify (v : Via) (i : BitVec 16) (who : Who) (r : WaitResult) (threshold : BitVec 32) (consume : Bool)
  /-- `WAIT_BUSY_RETRY` (R329): A wait answered BUSY is resent 2 µs later, or times out with reason 4. -/
  | waitBusyRetry (b : BenchNo) (t : Thr)
  /-- `WAIT_DEADLINE_EXPIRY` (R331): A waiter record's deadline expires; it is removed and a timeout NOTIFY sent. -/
  | waitDeadlineExpiry (r : Homed) (who : Who)
  /-- `WAIT_BACKSTOP_EXPIRY` (R333): no NOTIFY arrives by deadline plus 1 ms and the issuer sends CANCEL. -/
  | waitBackstopExpiry (b : BenchNo) (t : Thr)
  /-- `WAIT_CANCEL` (R333): at the home, a CANCEL removes the record or reports its result. -/
  | waitCancel (v : Via) (i : BitVec 16) (who : Who)
  /-- `CANCEL_ANSWER` (R333): the CANCEL answer arrives and the WAIT ends accordingly. -/
  | cancelAnswer (v : Via) (a : CancelAns)
  /-- `NOTIFY_RESULT_EXPIRY` (R330): A kept result of a failed NOTIFY is discarded after 10 ms. -/
  | notifyResultExpiry (r : Homed) (who : Who)
  /-- `LEND_START` (R338): after THRESH µs of waiting, a Bench gates its Desks and lends its power share. -/
  | lendStart (b : BenchNo)
  /-- `DESK_UNGATE` (R339): 64 cycles after lending ends the Desks become usable. -/
  | deskUngate (b : BenchNo)
  /-- `LEND_HALF_RATE_END` (R339): after 5 µs at half rate the Desks run at full rate. -/
  | lendHalfRateEnd (b : BenchNo)
  /-- `TRS_SNAPSHOT` (R348): A group's SNAPSHOT falls due, or an unfinished one is abandoned and the round skipped. -/
  | trsSnapshot (g : Fin 256)
  /-- `TRS_SEND` (R354): the SEND action reads, quantises, codes, encrypts and sends the group's differences and fingerprints. -/
  | trsSend (g : Fin 256)
  /-- `TRS_SEND_COMPLETE` (R365): the last own frame of the round is sent, setting t_s. -/
  | trsSendComplete (g : Fin 256)
  /-- `TRS_CLOSE` (R365): the group's round closes, fixing on-time contributions and resolving mismatches and reconciliation. -/
  | trsClose (g : Fin 256)
  /-- `TRS_APPLY` (R367): the APPLY starts, decoding contributions for the Sideboards' boundary actions. -/
  | trsApply (g : Fin 256) (unread : List (Nat × Nat))
  /-- `TRS_APPLY_COMPLETE` (R369): all slots have applied; CUR and LASTAPP advance, contributions are freed, fingerprints formed and log written. -/
  | trsApplyComplete (g : Fin 256)
  /-- `TRS_DATA_RECEIVE` (R360): A DATA frame is authenticated, range-checked and stored in staging, updating delay figures. -/
  | trsDataReceive (p : PortNo) (frame : Bytes)
  /-- `TRS_ACK_RECEIVE` (R361): an ACK frees the contribution's buffered frames. -/
  | trsAckReceive (p : PortNo) (frame : Bytes)
  /-- `TRS_NACK_RECEIVE` (R362): A NACK causes the listed frames to be resent. -/
  | trsNackReceive (p : PortNo) (frame : Bytes)
  /-- `TRS_NACK_TIMER` (R362): A gap persisting 1 ms, or the repeat interval, sends a NACK. -/
  | trsNackTimer (i : Fin 256) (g : Fin 256) (round : BitVec 32)
  /-- `TRS_LAST_RESEND_TIMER` (R363): no ACK by the deadline resends the LAST frame at doubling intervals. -/
  | trsLastResendTimer (i : Fin 256) (g : Fin 256) (round : BitVec 32)
  /-- `TRS_TXBUF_FULL_TIMER` (R372): the transmit buffer stays full for more than 1 s and event 0x65 is raised. -/
  | trsTxbufFullTimer
  /-- `TRS_FPRINT_RECEIVE` (R382): an FPRINT frame's records are compared as agreement, mismatch or set divergence. -/
  | trsFprintReceive (p : PortNo) (frame : Bytes)
  /-- `HELLO` (R375): A HELLO control frame arrives and the partner is heard, possibly starting a reunion. -/
  | hello (p : PortNo) (frame : Bytes)
  /-- `TRS_HELLO_TIMER` (R375): every ABSENT.MS/4 ms the Trestle sends HELLO to every valid partner. -/
  | trsHelloTimer
  /-- `TRS_PARTNER_SILENCE` (R376): A partner not heard for TRS_ABSENT.MS becomes ABSENT. -/
  | trsPartnerSilence (i : Fin 256)
  /-- `LINEAGE` (R390): A LINEAGE frame arrives; once complete the reunion is decided SAME, MERGE or ADOPT. -/
  | lineage (p : PortNo) (frame : Bytes)
  /-- `REQUEST_JOIN` (R395): A JOIN request arrives at the donor. -/
  | requestJoin (p : PortNo) (frame : Bytes)
  /-- `REQUEST_REPAIR` (R387): A REPAIR request arrives and the source sends BFP frames or END with code 1. -/
  | requestRepair (p : PortNo) (frame : Bytes)
  /-- `REQUEST_RECON` (R387): A RECON request arrives and the source sends BFP frames or END with code 1. -/
  | requestRecon (p : PortNo) (frame : Bytes)
  /-- `REQUEST_BLIST` (R387): A BLIST request arrives and the source sends ADELTA frames for the listed blocks. -/
  | requestBlist (p : PortNo) (frame : Bytes)
  /-- `BFP` (R387): block fingerprints arrive and differing blocks are requested. -/
  | bfp (p : PortNo) (frame : Bytes)
  /-- `ADELTA` (R386): an anchor delta block arrives and is kept in staging, or discarded if it fails to decode. -/
  | adelta (p : PortNo) (frame : Bytes)
  /-- `END` (R387): an END control frame closes a transfer phase, possibly completing a join install. -/
  | endXfer (p : PortNo) (frame : Bytes)
  /-- `READY` (R396): A joiner's READY schedules it to become PRESENT. -/
  | ready (p : PortNo) (frame : Bytes)
  /-- `TRS_REQUEST_RETRY` (R387): an unanswered REQUEST or BLIST is repeated at doubling intervals. -/
  | trsRequestRetry (slot : Fin 4096)
  /-- `TRS_ENABLE` (R360): setting TRS_CTL.EN claims staging and the alarm timer, or is refused. -/
  | trsEnable
  /-- `TRS_DISABLE` (R373): clearing EN stops all actions, discards frames and releases the staging claim. -/
  | trsDisable
  /-- `TRS_PART_WRITE` (R374): setting VALID on a partner entry while enabled adds it as JOINING. -/
  | trsPartWrite (i : Fin 256) (v : Word)
  /-- `TRS_PIPELINE_CHECK_FAIL` (R456): A Trestle pipeline check failure repeats the work, retiring the pipeline when repeated. -/
  | trsPipelineCheckFail (p : Fin 2) (again : Bool)
  /-- `CRYSTAL_FAILURE` (R400): A failed XA or XB switches its PLLs to the fast oscillator and raises event 0x71. -/
  | crystalFailure (xb : Bool)
  /-- `CLK_FREQ_WRITE` (R405): changing FAB or MEM starts a frequency change. -/
  | clkFreqWrite (v : Word)
  /-- `FREQ_CHANGE_COMPLETE` (R405): the PLL relocks and held traffic resumes. -/
  | freqChangeComplete
  /-- `CROSSING_OVERRUN` (R407): A clock-crossing FIFO overruns; the entry's transaction completes UE and event 0x70 is raised. -/
  | crossingOverrun (second : Bool) (cdie : Fin 8) (v : Victim)
  /-- `GT_NOW_LO_READ` (R410): A read of GT_NOW_LO latches the seconds for the requester. -/
  | gtNowLoRead (who : Nat)
  /-- `ANNOUNCE` (R411): A PTP Announce message is received and used by the best master clock algorithm. -/
  | announce (p : PortNo) (m : PtpMsg)
  /-- `SYNC` (R411): A PTP Sync message is received and timestamped. -/
  | sync (p : PortAt) (m : PtpMsg)
  /-- `FOLLOW_UP` (R411): A PTP Follow_Up message is received. -/
  | followUp (p : PortNo) (m : PtpMsg)
  /-- `DELAY_REQ` (R411): A PTP Delay_Req is received and answered. -/
  | delayReq (p : PortAt) (m : PtpMsg)
  /-- `DELAY_RESP` (R411): A PTP Delay_Resp completes a measurement for the servo. -/
  | delayResp (p : PortNo) (m : PtpMsg)
  /-- `SIGNALING` (R411): A PTP Signaling message with L1_SYNC TLV is received. -/
  | signaling (p : PortNo) (m : PtpMsg)
  /-- `PTP_MESSAGE_TIMER` (R411): the Sync, Delay_Req or Announce interval expires and the message is sent. -/
  | ptpMessageTimer (p : PortAt) (kind : Fin 4)
  /-- `PPS_IN_EDGE` (R413): A rising edge on PPS_IN gives a phase measurement. -/
  | ppsInEdge
  /-- `PPS_SEEN_EXPIRY` (R402): no PPS_IN edge for 1.5 s clears SEEN. -/
  | ppsSeenExpiry
  /-- `GT_MEASUREMENT_TIMEOUT` (R415): no measurement for the stated time moves GT to HOLDOVER or UNSET. -/
  | gtMeasurementTimeout
  /-- `MARK_OUT_PULSE` (R414): at each whole GT second MARK_OUT rises for 1 ms while held by PPS. -/
  | markOutPulse
  /-- `GT_SET` (R418): A write of GT_SETN steps GT, or is refused while the Trestle is enabled. -/
  | gtSet (v : Word)
  /-- `PCIE_MEM_WRITE` (R422): A posted host write to BAR0 or BAR2 is performed in arrival order. -/
  | pcieMemWrite (addr : PcieAddr) (data : Bytes) (be : List Bool)
  /-- `PCIE_MEM_READ` (R422): A host read of BAR0 or BAR2 is performed and completed. -/
  | pcieMemRead (tag : Nat) (addr : PcieAddr) (n : Nat)
  /-- `PCIE_CONFIG_WRITE` (R421): A configuration write, including Bus Master Enable and MSI-X masking, releasing held messages. -/
  | pcieConfigWrite (w : CfgWrite)
  /-- `MBX_SUBMIT` (R427): A submit moves mailboxes from IDLE to BUSY, or records a rejection. -/
  | mbxSubmit (mask : BitVec 32)
  /-- `MBX_ACK` (R427): an acknowledge moves mailboxes from DONE to IDLE. -/
  | mbxAck (mask : BitVec 32)
  /-- `MBX_TAKE` (R428): the firmware takes the next BUSY mailbox, runs its command and writes the response. -/
  | mbxTake
  /-- `MODULE_INFO` (R432): returns geometry, firmware version and serial number. -/
  | moduleInfo (i : MboxNo)
  /-- `MODULE_STATUS` (R432): returns job state, health and job ID. -/
  | moduleStatus (i : MboxNo)
  /-- `MODULE_RESET` (R432): responds and starts a core or system reset 1 ms later. -/
  | moduleReset (i : MboxNo)
  /-- `JOB_LOAD` (R434): checks and loads a job graph, writing registers and PCs, optionally starting. -/
  | jobLoad (i : MboxNo)
  /-- `JOB_START` (R434): starts every thread with a non-zero address and sets RUNNING. -/
  | jobStart (i : MboxNo)
  /-- `JOB_STOP` (R434): stops every running thread and becomes STOPPED when all are stopped. -/
  | jobStop (i : MboxNo)
  /-- `JOB_UNLOAD` (R432): returns a LOADED or STOPPED job to NONE. -/
  | jobUnload (i : MboxNo)
  /-- `MAP_MODULE` (R432): writes the module number after the epoch. -/
  | mapModule (i : MboxNo)
  /-- `MAP_ROUTES` (R432): copies route entries into the route table. -/
  | mapRoutes (i : MboxNo)
  /-- `MAP_SHARDS` (R315): computes the shard map from a job map. -/
  | mapShards (i : MboxNo)
  /-- `NUM_SET` (R432): writes NUM_SEED, NUM_MODE and NUM_LADDER. -/
  | numSet (i : MboxNo)
  /-- `NUM_ELOG` (R432): configures the escalation log. -/
  | numElog (i : MboxNo)
  /-- `SBD_ENABLE` (R432): writes EN and HALT of the masked Sideboards. -/
  | sbdEnable (i : MboxNo)
  /-- `SBD_EXPORT` (R432): configures the difference-stream export of all Sideboards. -/
  | sbdExport (i : MboxNo)
  /-- `FAR_ENABLE` (R432): claims staging and enables the Trestle. -/
  | farEnable (i : MboxNo)
  /-- `FAR_DISABLE` (R432): disables the Trestle. -/
  | farDisable (i : MboxNo)
  /-- `FAR_PARTNER` (R432): writes word 0 of a partner entry. -/
  | farPartner (i : MboxNo)
  /-- `TIME_SET` (R432): performs a software set of GT. -/
  | timeSet (i : MboxNo)
  /-- `TIME_SOURCE` (R432): selects the GT source and PPS settings. -/
  | timeSource (i : MboxNo)
  /-- `POWER_STATUS` (R479): returns draw, cap, throttles and pool. -/
  | powerStatus (i : MboxNo)
  /-- `POWER_CAP` (R478): sets the module power cap. -/
  | powerCap (i : MboxNo)
  /-- `SEC_CERT` (R480): writes the certificate chain. -/
  | secCert (i : MboxNo)
  /-- `SEC_KEYX` (R483): runs phase 1 or 2 of an SM2 key exchange for a Trestle pair key. -/
  | secKeyx (i : MboxNo)
  /-- `LOG_EVENTS` (R432): configures the event ring. -/
  | logEvents (i : MboxNo)
  /-- `LOG_ERRCOPY` (R462): copies the error log from boot flash. -/
  | logErrcopy (i : MboxNo)
  /-- `FW_STAGE` (R474): verifies and stores an image in the inactive bank. -/
  | fwStage (i : MboxNo)
  /-- `FW_ACTIVATE` (R474): marks the staged bank pending and triggers a system reset. -/
  | fwActivate (i : MboxNo)
  /-- `COMMAND_COMPLETE` (R430): an ACCEPTED command finishes and event 0x90 reports its final status. -/
  | commandComplete (op : BitVec 32)
  /-- `EVENT_ACCEPT` (R438): the event arbiter accepts an event, assigns SEQ and STAMP, writes ring and mirror and signals MSI-X. -/
  | eventAccept (n : Fin 257)
  /-- `MSIX_HOLDOFF_EXPIRY` (R441): A vector's hold-off ends and one merged message is sent. -/
  | msixHoldoffExpiry (v : Fin 64)
  /-- `MCTP_CONTROL` (R445): an MCTP control message, such as endpoint-ID assignment, is handled. -/
  | mctpControl (src : BitVec 8) (m : MctpCtl)
  /-- `GET_SENSOR_READING` (R446): A PLDM sensor reading is returned. -/
  | getSensorReading (src : BitVec 8) (sensor : Nat) (v : Int)
  /-- `PLDM_FW_UPDATE` (R446): A PLDM Type 5 firmware update message is handled. -/
  | pldmFwUpdate (src : BitVec 8) (m : UpdateMsg)
  /-- `MCTP_VENDOR_MAILBOX` (R447): A vendor message is placed in mailbox 31 and submitted, or answered BUSY. -/
  | mctpVendorMailbox (src : BitVec 8) (body : Bytes)
  /-- `GET_VERSION` (R482): SPDM GET_VERSION request. -/
  | getVersion (mctp : Bool) (src : BitVec 8) (req : Bytes)
  /-- `GET_CAPABILITIES` (R482): SPDM GET_CAPABILITIES request. -/
  | getCapabilities (mctp : Bool) (src : BitVec 8) (req : Bytes)
  /-- `NEGOTIATE_ALGORITHMS` (R482): SPDM NEGOTIATE_ALGORITHMS request. -/
  | negotiateAlgorithms (mctp : Bool) (src : BitVec 8) (req : Bytes)
  /-- `GET_DIGESTS` (R482): SPDM GET_DIGESTS request. -/
  | getDigests (mctp : Bool) (src : BitVec 8) (req : Bytes)
  /-- `GET_CERTIFICATE` (R482): SPDM GET_CERTIFICATE request. -/
  | getCertificate (mctp : Bool) (src : BitVec 8) (slot : BitVec 8) (off n : BitVec 16) (req : Bytes)
  /-- `CHALLENGE` (R482): SPDM CHALLENGE request. -/
  | challenge (mctp : Bool) (src : BitVec 8) (slot : BitVec 8) (req : Bytes)
  /-- `GET_MEASUREMENTS` (R482): SPDM GET_MEASUREMENTS request returning SEC_MEAS values. -/
  | getMeasurements (mctp : Bool) (src : BitVec 8) (idx : BitVec 8) (sign : Bool) (req : Bytes)
  /-- `SPDM_UNSUPPORTED_REQUEST` (R482): any other SPDM request is answered with UnsupportedRequest. -/
  | spdmUnsupportedRequest (mctp : Bool) (src : BitVec 8)
  /-- `TAKEOVER_START` (R451): at a layer boundary a hosted Bench begins takeover onto a free spare. -/
  | takeoverStart (b : BenchNo)
  /-- `TAKEOVER_WAIT_EXPIRY` (R450): no layer boundary within TKOWAIT ms and the Hutch forces one. -/
  | takeoverWaitExpiry (b : BenchNo)
  /-- `TAKEOVER_COMPLETE` (R451): state copy to the spare completes, the map is updated and contexts resume. -/
  | takeoverComplete (b : BenchNo)
  /-- `HUTCH_LOCKSTEP_MISMATCH` (R458): A Hutch pair mismatch restarts or retires the pair. -/
  | hutchLockstepMismatch (p : Fin 4)
  /-- `AVAIL_SAVE_TIMER` (R461): every 10 minutes the availability counters are stored to boot flash. -/
  | availSaveTimer
  /-- `POWER_ON_RESET` (R470): supply applied or a power-on request runs the full power-up and boot sequence. -/
  | powerOnReset (adc : Fin 1024) (xa : Bool)
  /-- `SYSTEM_RESET` (R465): A system reset returns the module to reset state and reboots from step 6. -/
  | systemReset (adc : Fin 1024)
  /-- `CORE_RESET` (R465): A core reset resets Benches, Desks, Sideboard machines and waiter records, keeping memory and links. -/
  | coreReset
  /-- `RST_BOOT_GO` (R473): writing GO starts verification of a host-written image. -/
  | rstBootGo
  /-- `BOOT_WATCHDOG_EXPIRY` (R474): A trial boot that has not reached READY in 10 s rolls back with a system reset. -/
  | bootWatchdogExpiry
  /-- `RESET_N_LOW_CORE` (R468): RESET_N observed low for 5,000 ticks puts the module in core reset. -/
  | resetNLowCore
  /-- `RESET_N_LOW_SYSTEM` (R468): RESET_N observed low for 60,000 ticks escalates to system reset. -/
  | resetNLowSystem
  /-- `RESET_N_RELEASE` (R468): RESET_N rises and the module leaves reset at the level reached. -/
  | resetNRelease (adc : Fin 1024)
  /-- `RESET_N_DRIVE_END` (R467): the module's own drive count of RESET_N expires and it releases the line. -/
  | resetNDriveEnd
  /-- `PERST_ASSERT` (R466): PERST# resets the endpoint, or the system while RST_CTL.PERST is set. -/
  | perstAssert
  /-- `PCIE_HOT_RESET` (R466): A hot reset or link down resets the endpoint, or the core while HOTRST is set. -/
  | pcieHotReset
  /-- `THERMAL_TRIP` (R466): A die above its trip limit turns the regulators off into power-on reset. -/
  | thermalTrip
  /-- `THERMAL_RECOVER` (R466): every die falls 10 °C below the limit and the module sequences up. -/
  | thermalRecover (adc : Fin 1024) (xa : Bool)
  /-- `BUSBAR_UNDERVOLTAGE` (R499): busbar below 38.0 V for 20 µs holds the module in power-on reset. -/
  | busbarUndervoltage
  /-- `BUSBAR_OVERVOLTAGE` (R499): busbar above 62.0 V for 20 µs holds the module in power-on reset. -/
  | busbarOvervoltage
  /-- `BUSBAR_VOLTAGE_RECOVER` (R499): the busbar returns inside the restart limits and power-up starts. -/
  | busbarVoltageRecover (adc : Fin 1024) (xa : Bool)
  /-- `BUSBAR_OVERCURRENT` (R500): current above 300 A for 1 ms turns off the hot-swap stage. -/
  | busbarOvercurrent
  /-- `HOTSWAP_RETRY` (R500): one second after a trip the hot-swap stage tries again. -/
  | hotswapRetry (adc : Fin 1024) (xa : Bool)
  /-- `PRESENT_N_BREAK` (R501): PRESENT_N breaks on unmating and the hot-swap stage turns off. -/
  | presentNBreak
  /-- `POWER_MANAGER_STEP` (R476): every 10 µs the power manager adjusts C-die allowances and throttles. -/
  | powerManagerStep (doms : List Nat) (busbar loss : Nat)
  /-- `PWR_CAP_WRITE` (R478): A write of the power cap takes effect at the next step. -/
  | pwrCapWrite (v : BitVec 16)
  /-- `PPS_OUT_CLAIM` (R488): A write of GT_PPS.OUTEN claims or releases MARK_OUT, or is refused. -/
  | ppsOutClaim (en : Bool)
  /-- `CAL_MARK_CLAIM` (R489): A write of CLK_MARK.CALEN claims or releases MARK_OUT, or is refused. -/
  | calMarkClaim (en : Bool)
  /-- `DBG_TRIGGER_CLAIM` (R489): A write of CLK_MARK.DBGEN claims or releases MARK_OUT, or is refused. -/
  | dbgTriggerClaim (en : Bool)
  /-- `ALARM_SWEEP_CLAIM` (R490): A write of CLK_ALARM.SWEEP claims or releases the alarm timer, or is refused. -/
  | alarmSweepClaim (en : Bool)
  /-- `ALARM_SWEEP` (R490): every sweep period the firmware records long-blocked contexts and raises event 0x54. -/
  | alarmSweep
  /-- `CLK_TRIM_SETTLED` (R402): the fast oscillator trim comes within ±1 ppm of its source, up to 10 s after a change of source, and CLK_TRIM.SETTLED is set. -/
  | clkTrimSettled
  /-- `GT_CORRECTION_SPENT` (R416): the pending GT correction is spent by slewing, SLEWING clears and GT returns to the estimated reference rate. -/
  | gtCorrectionSpent
  /-- `GT_UNCERTAINTY_LIMIT` (R417): the uncertainty U, growing by HOLD × t_h without measurements, passes UMAX, so VALID clears and event 0x72 is raised. -/
  | gtUncertaintyLimit
  /-- `TRS_ROUND_BEGIN` (R346): global time reaches T_n, TRS_ROUND.ROUND advances and the per-partner DMAX windows drop rounds that leave them. -/
  | trsRoundBegin
  /-- `WAIT_QUOTA_TIMEOUT` (R312): A WAIT held at its source by a traffic quota reaches its TMO before it is sent, ends by timeout with reason 4 and consumes nothing. -/
  | waitQuotaTimeout (b : BenchNo) (t : Thr)
  /-- `I3C_DYNAMIC_ADDRESS` (R445): the I3C bus controller assigns the module its dynamic address. -/
  | i3cDynamicAddress (a : BitVec 7)
  /-- `PLDM_DISCOVERY` (R445): A PLDM Type 0 discovery request over MCTP is answered. -/
  | pldmDiscovery (src : BitVec 8) (m : PldmBase)
  /-- `DOE_DISCOVERY` (R421): A DOE Discovery protocol request on the PCIe endpoint is answered. -/
  | doeDiscovery (idx : BitVec 8)
  /-- `ANNOUNCE_RECEIPT_TIMEOUT` (R411): no Announce arrives within the announce receipt timeout on a PTP port, and the best master clock algorithm re-decides the port states. -/
  | announceReceiptTimeout (p : PortNo)
  /-- `PCIE_LINK_UP` (R466): the PCIe link finishes training, at a negotiated rate and width, and the endpoint can exchange requests. -/
  | pcieLinkUp (rate : LinkRate) (width : Fin 5)
  /-- `SENSOR_THRESHOLD_CROSSING` (R512): A sensor crosses a warning or critical threshold and the crossing is reported through PLDM Type 2. -/
  | sensorThresholdCrossing (sensor die : Nat) (v : Int)
  deriving DecidableEq, Repr

end Sys2Proof
end

