-- ==== Sys2Proof/Machine/Bits.lean ====
section
/-!
DEFINITION. Bit fields, sign extension and byte order. Every field of a register or descriptor is
read and written here, so that a bit range of the spec, written [msb:lsb], is decided once.
-/
namespace Sys2Proof.Machine

/-- A bit range [hi:lo], both ends inclusive (00, Notation and units). -/
structure Fld where
  hi : Nat
  lo : Nat
  deriving DecidableEq, Repr

/-- The number of bits of a field. -/
def Fld.width (f : Fld) : Nat := f.hi + 1 - f.lo

/-- The value of bits [hi:lo] of a number. -/
def bits (v hi lo : Nat) : Nat := (v >>> lo) % 2 ^ (hi + 1 - lo)

/-- One bit of a number. -/
def bit (v i : Nat) : Bool := v.testBit i

/-- A number with bits [hi:lo] replaced by `x`, taken modulo the field's width. -/
def setBits (v hi lo x : Nat) : Nat :=
  (v >>> (hi + 1)) <<< (hi + 1) + (x % 2 ^ (hi + 1 - lo)) <<< lo + v % 2 ^ lo

/-- The value of a field of a 64-bit word. -/
def getFld (v : Word) (f : Fld) : Nat := bits v.toNat f.hi f.lo

/-- A 64-bit word with one field replaced. -/
def putFld (v : Word) (f : Fld) (x : Nat) : Word := BitVec.ofNat 64 (setBits v.toNat f.hi f.lo x)

/-- The mask of a field. -/
def Fld.mask (f : Fld) : Word := BitVec.ofNat 64 ((2 ^ f.width - 1) <<< f.lo)

/-- A number of `n` bits read as two's complement. -/
def sext (n v : Nat) : Int :=
  let m := v % 2 ^ n
  if m < 2 ^ (n - 1) then (m : Int) else (m : Int) - (2 ^ n : Nat)

/-- An integer as a two's complement number of `n` bits. -/
def toBits (n : Nat) (v : Int) : Nat := (v % ((2 ^ n : Nat) : Int)).toNat

/-- The lower of two limits, where the sum passes the upper: a saturating count (00, Notation). -/
def satAdd (v n max : Nat) : Nat := min (v + n) max

/-- `n` bytes of a number, least significant first (00, byte order). -/
def leBytes : Nat → Nat → List Byte
  | 0, _ => []
  | n + 1, v => BitVec.ofNat 8 v :: leBytes n (v / 256)

/-- The number whose bytes, least significant first, are given (00, byte order). -/
def ofLe : List Byte → Nat
  | [] => 0
  | b :: r => b.toNat + 256 * ofLe r

/-- The 64-bit word of the first eight bytes, least significant first. -/
def leWord (l : List Byte) : Word := BitVec.ofNat 64 (ofLe (l.take 8))

/-- A list cut into pieces of `k` elements, at most `n` of them. -/
def chunks {α : Type} (k : Nat) : Nat → List α → List (List α)
  | 0, _ => []
  | n + 1, l => if l.isEmpty then [] else l.take k :: chunks k n (l.drop k)

/-- The `i`-th piece of `w` bits of a number. -/
def lane (v w i : Nat) : Nat := (v >>> (w * i)) % 2 ^ w

/-- A number made of pieces of `w` bits, the first piece least significant. -/
def ofLanes (w : Nat) : List Nat → Nat
  | [] => 0
  | x :: r => x % 2 ^ w + 2 ^ w * ofLanes w r

/-- The first `n` pieces of `w` bits of a number. -/
def lanes (v w n : Nat) : List Nat := (List.range n).map (lane v w)

/-- Whether the serial number `a` is later than `b` at a width of `n` bits (RFC 1982; 18 R494). -/
def serialGt (n a b : Nat) : Bool :=
  let d := (a + 2 ^ n - b % 2 ^ n) % 2 ^ n
  d != 0 && d < 2 ^ (n - 1)

/-- A count of the elements for which a condition holds. -/
def countTrue {α : Type} (p : α → Bool) (l : List α) : Nat := (l.filter p).length

/-- The least number below `n` that has a property. -/
def firstNat (n : Nat) (p : Nat → Bool) : Option Nat := (List.range n).find? p

end Sys2Proof.Machine
end

