-- ==== Sys2Proof/Machine/Ecc.lean ====
section
/-!
DEFINITION. The Tallboy codeword: a shortened Reed-Solomon code over GF(2^16) with four check symbols, its
encoder and its decoder for up to two erroneous symbols (09 R270, R271).
-/
namespace Sys2Proof.Machine

/-- Multiplication by x modulo x^16 + x^12 + x^3 + x + 1 (09 R270). -/
def gfX (a : Nat) : Nat := if 2 * a ≥ 65536 then (2 * a) ^^^ 0x1100B else 2 * a

/-- The product of two elements of GF(2^16), the second taken bit by bit from bit `n - 1` down. -/
def gfMulAux (a b : Nat) : Nat → Nat
  | 0 => 0
  | n + 1 =>
    let r := gfX (gfMulAux a (b >>> 1) n)
    if b.testBit 0 then r ^^^ a else r

/-- The product of two elements of GF(2^16). -/
def gfMul (a b : Nat) : Nat := gfMulAux a b 16

/-- A power by squaring, for exponents below 2^16. -/
def gfPowAux (a e : Nat) : Nat → Nat
  | 0 => 1
  | n + 1 =>
    let r := gfPowAux (gfMul a a) (e >>> 1) n
    if e.testBit 0 then gfMul r a else r

/-- A power of an element. -/
def gfPow (a e : Nat) : Nat := gfPowAux a e 16

/-- The inverse of a non-zero element: its power 2^16 - 2. -/
def gfInv (a : Nat) : Nat := gfPow a 65534

/-- α^k (09 R270: α is x). -/
def gfAlpha (k : Nat) : Nat := gfPow 2 k

/-- The four coefficients of g(x) = (x - α⁰)(x - α¹)(x - α²)(x - α³) below x⁴, lowest first. -/
def rsGen : List Nat :=
  let step (g : List Nat) (r : Nat) : List Nat :=
    ((0 :: g).zip ((g.map (gfMul r)) ++ [0])).map (fun p => p.1 ^^^ p.2)
  (step (step (step (step [1] (gfAlpha 0)) (gfAlpha 1)) (gfAlpha 2)) (gfAlpha 3)).take 4

/-- One step of the division by g(x): the remainder `r`, lowest coefficient first, takes in the next
message symbol from the highest power down. -/
def rsStep (r : List Nat) (m : Nat) : List Nat :=
  let top := r.getD 3 0 ^^^ m
  ((0 :: r.take 3).zip rsGen).map (fun p => p.1 ^^^ gfMul top p.2)

/-- The check symbols p_0 to p_3 of 34 message symbols m_0 to m_33 (09 R270). -/
def rsCheck (m : List Nat) : List Nat := m.reverse.foldl rsStep [0, 0, 0, 0]

/-- The message symbols of 64 data bytes and a codeword index (09 R270). -/
def rsMessage (data : List Byte) (cw : Nat) : List Nat :=
  (List.range 32).map (fun i => ofLe ((data.drop (2 * i)).take 2)) ++ [cw % 65536, (cw >>> 16) % 65536]

/-- The power of x that symbol `i` multiplies: m_i for i below 34, p_(i-34) above (09 R270). -/
def rsPower (i : Nat) : Nat := if i < 34 then i + 4 else i - 34

/-- The four syndromes of an error pattern: (symbol, difference) pairs, symbols 34 to 37 the check symbols.
The codeword itself has syndrome zero. -/
def rsSyndrome (e : List (Nat × Nat)) : List Nat :=
  (List.range 4).map (fun k => e.foldl (fun a p => a ^^^ gfMul (p.2 % 65536) (gfAlpha (k * rsPower p.1))) 0)

/-- The single error that explains syndromes, at symbol `i`: the first syndrome is its difference. -/
def rsOne (s : List Nat) (i : Nat) : Bool :=
  (List.range 4).all (fun k => s.getD k 0 == gfMul (s.getD 0 0) (gfAlpha (k * rsPower i)))

/-- The two differences at symbols `i` and `j` that explain the first two syndromes, if they explain all
four and neither is zero. -/
def rsTwo (s : List Nat) (i j : Nat) : Option (Nat × Nat) :=
  let x := gfAlpha (rsPower i)
  let y := gfAlpha (rsPower j)
  let s0 := s.getD 0 0
  let b := gfMul (gfMul s0 x ^^^ s.getD 1 0) (gfInv (x ^^^ y))
  let a := s0 ^^^ b
  if a != 0 && b != 0 &&
      (List.range 4).all (fun k => s.getD k 0 ==
        gfMul a (gfAlpha (k * rsPower i)) ^^^ gfMul b (gfAlpha (k * rsPower j)))
  then some (a, b) else none

/-- What a decoder finds: a good codeword, the errors it corrects, or nothing it can decode. -/
inductive EccResult where
  | good
  | corrected (fix : List (Nat × Nat))
  | addressError
  | uncorrectable
  deriving DecidableEq, Repr

/-- The decoder of 09 R271 on an error pattern: one or two erroneous symbols are located from the
syndromes; an error located in m_32 or m_33, which are not stored, is an address error. -/
def rsDecode (e : List (Nat × Nat)) : EccResult :=
  let s := rsSyndrome e
  if s.all (· == 0) then .good
  else
    let judge (l : List (Nat × Nat)) : EccResult :=
      if l.any (fun p => p.1 == 32 || p.1 == 33) then .addressError else .corrected l
    match (List.range 38).find? (rsOne s) with
    | some i => judge [(i, s.getD 0 0)]
    | none =>
      let pairs := (List.range 38).flatMap (fun i => (List.range i).map (fun j => (j, i)))
      match pairs.findSome? (fun p => (rsTwo s p.1 p.2).map (fun ab => [(p.1, ab.1), (p.2, ab.2)])) with
      | some l => judge l
      | none => .uncorrectable

/-- 64 data bytes with symbol differences applied; differences of symbols that are no data change nothing
here. -/
def applyErrors (data : List Byte) (e : List (Nat × Nat)) : List Byte :=
  (List.range 64).map (fun i =>
    e.foldl (fun b p =>
      if p.1 == i / 2 && decide (p.1 < 32) then
        b ^^^ BitVec.ofNat 8 (if i % 2 = 0 then p.2 else p.2 >>> 8)
      else b) (data.getD i 0))

end Sys2Proof.Machine
end

