-- ==== Sys2Proof/Config.lean ====
section
/-!
DEFINITION. What an implementation fixes and what the spec leaves open. A constant without a body is a
free value: nothing can be proved of it, so a claim holds whatever it is.
-/
namespace Sys2Proof

/-- FREE VALUE (log 3). Which of the results within the error bound of 02 R42 a transcendental or activation function
returns for an input that 02 R39 does not list: RNRV fixes it (02 R42, 03 R85) and RNRV is not part of the spec.
Arguments: the function, the format, the input. -/
opaque Config.transcBits : Nat → Nat → Nat → Nat

/-- FREE VALUE (log 2). A value the spec leaves open, drawn with a counter of the state. -/
opaque Config.freeNat : Nat → Nat

/-- FREE VALUE (log 3). Where a Tallboy first holds a codeword: the layer (0 to 11), the pseudo-channel (0 to 31)
and the row of a pseudo-channel, as numbers before they are reduced to their ranges. The placement is internal to the
controller (09 R266). Arguments: the stack, the codeword index; the last argument selects layer (0), pseudo-channel (1)
or row (2). From 3 on it gives the pseudo-channel of a reserve row of a layer. -/
opaque Config.placement : Nat → Nat → Nat → Nat

/-- FREE VALUE (log 2). The free transmit credit of a port, which its peer grants (10 R306). Arguments: the
draw, the port. -/
opaque Config.credit : Nat → Nat → Nat

/-- FREE VALUE (log 5). The timestamp calibration of a port from the fuses, transmit or receive, in 2^-16 ns
(14 R412, 17 R475). -/
opaque Config.portCal : Nat → Bool → Int

/-- FREE VALUE (log 13). The contents of the L1_SYNC TLV that a port sends, which IEEE 1588-2019 and the profile give
(14 R411). Argument: the port. -/
opaque Config.l1Sync : Nat → List Byte

/-- FREE VALUE (log 3). The filtered offset of the time servo after a measurement (14 R415 to R417 use a
filter and do not give it). Arguments: the draw, the filtered offset before, the measured offset, in 2^-16
ns. -/
opaque Config.servoFilter : Nat → Int → Int → Int

/-- FREE VALUE (log 15). The module number of the owner of a rank (08 R243 speaks of every module; the job map
that lists the owners has no format in the spec). -/
opaque Config.ownerModule : Nat → Nat

/-- FREE VALUE (log 5). The module's SM2 private key, which never leaves the security engine (17 R480). -/
opaque Config.privateKey : Nat

/-- FREE VALUE (log 17). The parts of an image's header, whose layout the spec does not give (17 R472): 0 the magic
value holds (a first byte that is not zero), 1 the security version number, 2 the image length, 3 the digest, 4 the
signature. -/
opaque Config.imageField : Nat → List Byte → List Byte

/-- FREE VALUE (log 5). The firmware key whose hash the fuses hold (17 R472). -/
opaque Config.fwKey : List Byte

/-- FREE VALUE (log 5). The digest of the boot ROM and of the fuse configuration, by the security version number that the
fuses count (17 R481). -/
opaque Config.romDigest : Nat → List Byte

/-- FREE VALUE (log 5). The certificate chain in the form of SPDM (17 R480). -/
opaque Config.certChain : List Byte

/-- FREE VALUE (log 5). The firmware version that MODULE_INFO returns (15 R432). -/
opaque Config.fwVersion : Nat

/-- How a job map declares a tensor (10 R313): split, or whole, with its ID and 4 KiB blocks, or as units with their IDs and
the blocks of each. -/
inductive ShardDecl where
  | split (tid n : Nat)
  | whole (tid n : Nat)
  | units (ids : List Nat) (n : Nat)
  deriving DecidableEq, Repr

/-- A job map (10 R313): the numbers of the owner modules, and the tensors. -/
structure JobMap where
  owners : List Nat
  tensors : List ShardDecl
  deriving DecidableEq, Repr

/-- FREE VALUE (log 17). The job map that some bytes hold, whose format the spec does not give (10 R315); none where they
hold none. -/
opaque Config.jobMap : List Byte → Option JobMap

/-- FREE VALUE (log 17). The bytes in which MAP_SHARDS writes a map (10 R315), whose format the spec does not give: of each
shard the owner's module, the tensor ID, the first block and the blocks. -/
opaque Config.shardImage : List (Nat × Nat × Nat × Nat) → List Byte

/-- FREE VALUE (log 17). The final status of MAP_SHARDS for bytes that hold no job map, of those that report a failure. -/
opaque Config.shardStatus : List Byte → Nat

/-- FREE VALUE (log 17). The version of a PLDM type that the module supports (DSP0240). -/
opaque Config.pldmVersion : Nat → Nat

/-- FREE VALUE (log 17). The commands of a PLDM type that the module supports (DSP0240). -/
opaque Config.pldmCommands : Nat → List Nat

end Sys2Proof
end

