-- ==== Sys2Proof/Machine/Float.lean ====
section
/-!
DEFINITION. Number formats, exact arithmetic, rounding and conversion (02, R26 to R48): a value is
formed exactly and narrowed once to the destination, which gives the result and the flags together.
-/
namespace Sys2Proof.Machine

/-- The formats of 02 R26. -/
inductive Fmt where
  | gf8a | gf8b | gf16a | gf16b | b32 | int8 | gf24c | gf48 | int32
  deriving DecidableEq, Repr

/-- The format a code names (02 R26); the codes not listed are reserved. -/
def Fmt.ofCode : Nat → Option Fmt
  | 0 => some .gf8a | 1 => some .gf8b | 2 => some .gf16a | 3 => some .gf16b | 4 => some .b32
  | 5 => some .int8 | 8 => some .gf24c | 9 => some .gf48 | 10 => some .int32
  | _ => none

/-- The code of a format (02 R26). -/
def Fmt.code : Fmt → Nat
  | .gf8a => 0 | .gf8b => 1 | .gf16a => 2 | .gf16b => 3 | .b32 => 4 | .int8 => 5
  | .gf24c => 8 | .gf48 => 9 | .int32 => 10

/-- A storable format: one that a tensor element may have (02 R26). -/
def Fmt.storable : Fmt → Bool
  | .gf24c | .gf48 | .int32 => false
  | _ => true

/-- The storable format a code names (02 R26, R27). -/
def Fmt.ofElem (c : Nat) : Option Fmt := (Fmt.ofCode c).filter Fmt.storable

/-- The width in bits (02 R26). -/
def Fmt.width : Fmt → Nat
  | .gf8a | .gf8b | .int8 => 8
  | .gf16a | .gf16b => 16
  | .b32 | .int32 => 32
  | .gf24c => 24
  | .gf48 => 48

/-- The size of a stored element in bytes; a raw GF48 image takes eight (02 R28). -/
def Fmt.bytes : Fmt → Nat
  | .gf8a | .gf8b | .int8 => 1
  | .gf16a | .gf16b => 2
  | .b32 | .int32 => 4
  | .gf24c => 4
  | .gf48 => 8

/-- The integer formats (02 R31). -/
def Fmt.isInt : Fmt → Bool
  | .int8 | .int32 => true
  | _ => false

/-- The width of the fraction field (02 R29). -/
def Fmt.frac : Fmt → Nat
  | .gf8a => 3 | .gf8b => 2 | .gf16a => 10 | .gf16b => 7 | .b32 => 23 | .gf24c => 15 | .gf48 => 36
  | .int8 | .int32 => 0

/-- The width of the exponent field (02 R29). -/
def Fmt.expw : Fmt → Nat
  | .gf8a => 4 | .gf8b => 5 | .gf16a => 5 | .gf16b => 8 | .b32 => 8 | .gf24c => 8 | .gf48 => 11
  | .int8 | .int32 => 0

/-- The bias, which is also the greatest exponent (02 R29). -/
def Fmt.bias : Fmt → Nat
  | .gf8a => 7 | .gf8b => 15 | .gf16a => 15 | .gf16b => 127 | .b32 => 127 | .gf24c => 127 | .gf48 => 1023
  | .int8 | .int32 => 0

/-- The formats that flush subnormals (02 R33). -/
def Fmt.flushes : Fmt → Bool
  | .b32 | .gf24c | .gf48 => true
  | _ => false

/-- The all-ones exponent field, in place. -/
def Fmt.infBits (f : Fmt) : Nat := (2 ^ f.expw - 1) <<< f.frac

/-- The default quiet NaN, sign 0 (02 R34, and the table of reference encodings). -/
def Fmt.qnan (f : Fmt) : Nat := f.infBits + 2 ^ (f.frac - 1)

/-- The sign bit, in place. -/
def Fmt.signBits (f : Fmt) (neg : Bool) : Nat := if neg then 2 ^ (f.expw + f.frac) else 0

/-- The largest finite encoding, positive. -/
def Fmt.maxFinite (f : Fmt) : Nat := f.infBits - 1

/-- The four numeric flags (02 R37). -/
structure Flags where
  o : Bool := false
  u : Bool := false
  x : Bool := false
  i : Bool := false
  deriving DecidableEq, Repr

/-- No flag. -/
def Flags.none : Flags := ⟨false, false, false, false⟩

/-- The union of two sets of flags: flags are sticky (02 R37). -/
def Flags.or (a b : Flags) : Flags := ⟨a.o || b.o, a.u || b.u, a.x || b.x, a.i || b.i⟩

/-- The flags as bits [3:0] O, U, X, I (06 R199). -/
def Flags.bits (f : Flags) : Nat := f.o.toNat * 8 + f.u.toNat * 4 + f.x.toNat * 2 + f.i.toNat

/-- Flag I alone. -/
def Flags.invalid : Flags := ⟨false, false, false, true⟩

/-- A value: NaN, an infinity, a zero, or (-1)^neg × m × 2^e with m positive. -/
inductive FVal where
  | nan (signalling : Bool)
  | inf (neg : Bool)
  | zero (neg : Bool)
  | fin (neg : Bool) (m : Nat) (e : Int)
  deriving DecidableEq, Repr

/-- The value m × 2^e with a sign, zero where m is zero. -/
def FVal.mk (neg : Bool) (m : Nat) (e : Int) : FVal := if m = 0 then .zero neg else .fin neg m e

/-- The sign. -/
def FVal.neg : FVal → Bool
  | .nan _ => false
  | .inf n => n
  | .zero n => n
  | .fin n _ _ => n

/-- The value with its sign changed. -/
def FVal.negate : FVal → FVal
  | .nan s => .nan s
  | .inf n => .inf (!n)
  | .zero n => .zero (!n)
  | .fin n m e => .fin (!n) m e

/-- Whether the value is a NaN. -/
def FVal.isNan : FVal → Bool
  | .nan _ => true
  | _ => false

/-- Whether the value is a NaN or an infinity. -/
def FVal.nonFinite : FVal → Bool
  | .nan _ | .inf _ => true
  | _ => false

/-- The flag a signalling NaN input sets (02 R35). -/
def FVal.inFlags : FVal → Flags
  | .nan true => .invalid
  | _ => .none

/-- An integer as a value. -/
def FVal.ofInt (v : Int) : FVal := if v = 0 then .zero false else .fin (v < 0) v.natAbs 0

/-- The value of an encoding (02 R29 to R31; R33: a subnormal of a flushing format reads as zero). -/
def Fmt.decode (f : Fmt) (v : Nat) : FVal :=
  if f.isInt then .ofInt (sext f.width v)
  else
    let neg := v.testBit (f.expw + f.frac)
    let e := (v >>> f.frac) % 2 ^ f.expw
    let m := v % 2 ^ f.frac
    if e = 2 ^ f.expw - 1 then
      if m = 0 then .inf neg else .nan (!m.testBit (f.frac - 1))
    else if e = 0 then
      if f.flushes then .zero neg else .mk neg m (1 - (f.bias : Int) - f.frac)
    else .fin neg (m + 2 ^ f.frac) ((e : Int) - f.bias - f.frac)

/-- How a conversion rounds: to nearest even, or stochastically with a 16-bit draw (02 R44, R46, R47). -/
inductive Rnd where
  | rne
  | sr (draw : Nat)
  deriving DecidableEq, Repr

/-- A magnitude m cut by `sh` low bits and rounded: the retained bits, and whether bits were lost.
RNE takes the tie to even; SR adds the 16 bits after the last retained bit to the draw (02 R47). -/
def roundShift (r : Rnd) (m sh : Nat) : Nat × Bool :=
  let a := m >>> sh
  let rem := m % 2 ^ sh
  if rem = 0 then (a, false)
  else
    let up := match r with
      | .rne => decide (2 * rem > 2 ^ sh) || (decide (2 * rem = 2 ^ sh) && a.testBit 0)
      | .sr d =>
        let dd := if sh ≥ 16 then rem >>> (sh - 16) else rem <<< (16 - sh)
        decide (dd + d % 65536 ≥ 65536)
    (if up then a + 1 else a, true)

/-- The exponent of the leading bit of m × 2^e. -/
def leadExp (m : Nat) (e : Int) : Int := e + (Nat.log2 m : Int)

/-- A finite non-zero value rounded to a float format, with its flags (02 R33, R44, R45, R47).
`lost` says that the magnitude given is itself cut short of the exact one. -/
def Fmt.roundFin (f : Fmt) (r : Rnd) (neg : Bool) (m : Nat) (e : Int) (lost : Bool) : Nat × Flags :=
  let emin : Int := 1 - (f.bias : Int)
  let top := leadExp m e
  let q : Int := (if f.flushes then top else max top emin) - f.frac
  let (sig0, in0) := if q ≤ e then (m <<< (e - q).toNat, false) else roundShift r m (q - e).toNat
  let inexact := in0 || lost
  let (sig, q) := if sig0 = 2 ^ (f.frac + 1) then (2 ^ f.frac, q + 1) else (sig0, q)
  let s := f.signBits neg
  if sig ≥ 2 ^ f.frac ∧ q + f.frac > f.bias then (s + f.infBits, ⟨true, false, true, false⟩)
  else if sig < 2 ^ f.frac then
    (s + sig, ⟨false, inexact && sig != 0, inexact, false⟩)
  else if q + f.frac < emin then (s, ⟨false, true, true, false⟩)
  else
    (s + ((q + f.frac + f.bias).toNat <<< f.frac) + (sig - 2 ^ f.frac), ⟨false, false, inexact, false⟩)

/-- A finite value rounded to an integer of `n` bits, saturating: the result and whether it was inexact
and whether it was saturated (02 R44 point 4). -/
def roundInt (r : Rnd) (n : Nat) (neg : Bool) (m : Nat) (e : Int) : Int × Bool × Bool :=
  let (a, inexact) := if 0 ≤ e then (m <<< e.toNat, false) else roundShift r m (-e).toNat
  let v : Int := if neg then -(a : Int) else a
  let hi : Int := 2 ^ (n - 1) - 1
  let lo : Int := -(2 ^ (n - 1) : Int)
  if v > hi then (hi, true, true) else if v < lo then (lo, true, true) else (v, inexact, false)

/-- A value converted to a format: the encoding and the flags (02 R44). Flag I for a signalling NaN
input comes from R35. An INT32 Drawer saturates with O and X (02 R37). -/
def Fmt.convert (f : Fmt) (r : Rnd) (v : FVal) : Nat × Flags :=
  match f with
  | .int8 =>
    match v with
    | .nan _ => (0, .invalid)
    | .inf n => (if n then 128 else 127, ⟨false, false, true, true⟩)
    | .zero _ => (0, .none)
    | .fin n m e =>
      let (x, inexact, sat) := roundInt r 8 n m e
      (toBits 8 x, ⟨false, false, inexact, sat⟩)
  | .int32 =>
    match v with
    | .nan _ => (0, .invalid)
    | .inf n => (if n then 2 ^ 31 else 2 ^ 31 - 1, ⟨true, false, true, false⟩)
    | .zero _ => (0, .none)
    | .fin n m e =>
      let (x, inexact, sat) := roundInt r 32 n m e
      (toBits 32 x, ⟨sat, false, inexact, false⟩)
  | _ =>
    match v with
    | .nan s => (f.qnan, if s then .invalid else .none)
    | .inf n => (f.signBits n + f.infBits, .none)
    | .zero n => (f.signBits n, .none)
    | .fin n m e => f.roundFin r n m e false

/-- Conversion between two encodings (02 R44, R33): a source subnormal of a flushing format reads as
zero without a flag. -/
def cvt (src dst : Fmt) (r : Rnd) (v : Nat) : Nat × Flags := dst.convert r (src.decode v)

/-- The exact sum and the flag of an invalid sum (02 R38). A zero sum of values that cancel is +0. -/
def FVal.add (a b : FVal) : FVal × Flags :=
  match a, b with
  | .nan s, b => (.nan false, if s then .invalid else b.inFlags)
  | _, .nan s => (.nan false, if s then .invalid else .none)
  | .inf n, .inf k => if n = k then (.inf n, .none) else (.nan false, .invalid)
  | .inf n, _ => (.inf n, .none)
  | _, .inf n => (.inf n, .none)
  | .zero n, .zero k => (.zero (n && k), .none)
  | .zero _, b => (b, .none)
  | a, .zero _ => (a, .none)
  | .fin n m e, .fin k p g =>
    let lo := min e g
    let x : Int := (m <<< (e - lo).toNat : Nat)
    let y : Int := (p <<< (g - lo).toNat : Nat)
    let t := (if n then -x else x) + (if k then -y else y)
    if t = 0 then (.zero false, .none) else (.fin (t < 0) t.natAbs lo, .none)

/-- The exact product and the flag of an invalid product (02 R38). -/
def FVal.mul (a b : FVal) : FVal × Flags :=
  match a, b with
  | .nan s, b => (.nan false, if s then .invalid else b.inFlags)
  | _, .nan s => (.nan false, if s then .invalid else .none)
  | .inf _, .zero _ => (.nan false, .invalid)
  | .zero _, .inf _ => (.nan false, .invalid)
  | .inf n, b => (.inf (n != b.neg), .none)
  | a, .inf n => (.inf (a.neg != n), .none)
  | .zero n, b => (.zero (n != b.neg), .none)
  | a, .zero n => (.zero (a.neg != n), .none)
  | .fin n m e, .fin k p g => (.fin (n != k) (m * p) (e + g), .none)

/-- The exact fused product and sum (02 R38): zero times infinity is invalid whatever is added. -/
def FVal.fma (a b c : FVal) : FVal × Flags :=
  let (p, f) := a.mul b
  let (t, g) := p.add c
  (t, f.or g |>.or c.inFlags)

/-- An arithmetic result narrowed to its format to nearest even (02 R41). -/
def Fmt.narrow (f : Fmt) (p : FVal × Flags) : Nat × Flags :=
  let (v, g) := f.convert .rne p.1
  (v, p.2.or g)

/-- The quotient rounded to a format (02 R38, R41). -/
def Fmt.div (f : Fmt) (a b : FVal) : Nat × Flags :=
  let inv := (f.qnan, Flags.invalid)
  match a, b with
  | .nan s, b => (f.qnan, if s then .invalid else b.inFlags)
  | _, .nan s => (f.qnan, if s then .invalid else .none)
  | .inf _, .inf _ => inv
  | .zero _, .zero _ => inv
  | .inf n, b => (f.signBits (n != b.neg) + f.infBits, .none)
  | a, .inf n => (f.signBits (a.neg != n), .none)
  | .zero n, b => (f.signBits (n != b.neg), .none)
  | a, .zero n => (f.signBits (a.neg != n) + f.infBits, ⟨true, false, false, false⟩)
  | .fin n m e, .fin k p g =>
    let sh := p.log2 + f.frac + 4
    let q := (m <<< sh) / p
    let rem := (m <<< sh) % p
    f.roundFin .rne (n != k) (2 * q + (if rem = 0 then 0 else 1)) (e - g - sh - 1) false

/-- The integer square root of `n`, found bit by bit from 2^k down. -/
def isqrt (n : Nat) : Nat → Nat → Nat
  | 0, acc => acc
  | k + 1, acc =>
    let t := acc + 2 ^ k
    isqrt n k (if t * t ≤ n then t else acc)

/-- The square root rounded to a format (02 R38, R41). -/
def Fmt.sqrt (f : Fmt) (a : FVal) : Nat × Flags :=
  match a with
  | .nan s => (f.qnan, if s then .invalid else .none)
  | .zero n => (f.signBits n, .none)
  | .inf true => (f.qnan, .invalid)
  | .inf false => (f.infBits, .none)
  | .fin true _ _ => (f.qnan, .invalid)
  | .fin false m e =>
    let e0 := e - 2 * (f.frac + 4)
    let (m1, e1) : Nat × Int := if e0 % 2 = 0 then (m <<< (2 * (f.frac + 4)), e0) else (m <<< (2 * (f.frac + 4) + 1), e0 - 1)
    let k := m1.log2 / 2 + 1
    let r := isqrt m1 k 0
    f.roundFin .rne false (2 * r + (if r * r = m1 then 0 else 1)) (e1 / 2 - 1) false

/-- The order of two values that are no NaN; a zero has no sign here (02 R40). -/
def FVal.ltNum (a b : FVal) : Bool :=
  match a, b with
  | .nan _, _ | _, .nan _ => false
  | .inf n, .inf k => n && !k
  | .inf n, _ => n
  | _, .inf n => !n
  | .zero _, .zero _ => false
  | .zero _, .fin k _ _ => !k
  | .fin n _ _, .zero _ => n
  | .fin n m e, .fin k p g =>
    let lo := min e g
    let x : Int := (m <<< (e - lo).toNat : Nat)
    let y : Int := (p <<< (g - lo).toNat : Nat)
    decide ((if n then -x else x) < (if k then -y else y))

/-- Equality of two values that are no NaN; -0 and +0 are equal (02 R40). -/
def FVal.eqNum (a b : FVal) : Bool := !a.isNan && !b.isNan && !a.ltNum b && !b.ltNum a

/-- The minimum or maximum (02 R40): NaN where either is NaN, and -0 ordered below +0. -/
def FVal.minmax (wantMax : Bool) (a b : FVal) : FVal × Flags :=
  let fl := a.inFlags.or b.inFlags
  if a.isNan || b.isNan then (.nan false, fl)
  else
    let aLess := a.ltNum b || (a.eqNum b && a.neg && !b.neg)
    (if aLess != wantMax then a else b, fl)

/-- A block element multiplied exactly by its scale 2^(E - 127); E = 0xFF marks a NaN (02 R36). -/
def FVal.scaled (v : FVal) (e : Nat) : FVal :=
  if e = 255 then .nan false
  else match v with
    | .fin n m x => .fin n m (x + (e : Int) - 127)
    | v => v

/-- ReLU (02 R39). -/
def reluVal (v : FVal) : FVal × Flags :=
  match v with
  | .nan s => (.nan false, if s then .invalid else .none)
  | v => if v.neg then (.zero false, .none) else match v with
    | .zero _ => (.zero false, .none)
    | v => (v, .none)

/-- The counter hash's mixing function (02 R48). -/
def mix64 (z : Word) : Word :=
  let z := (z ^^^ (z >>> 31)) * 0x9B517E2C4AD3F86D
  let z := (z ^^^ (z >>> 29)) * 0xD3C80A6F1B97E543
  z ^^^ (z >>> 32)

/-- The 16-bit draw of the counter hash (02 R48). -/
def srDraw (seed : Word) (tid idx step : Nat) : Nat :=
  let h := mix64 (seed ^^^ 0x6A3D95C1E84F2B17)
  let h := mix64 (h ^^^ BitVec.ofNat 64 (((tid % 2 ^ 32) <<< 16) ||| ((step % 2 ^ 48) >>> 32)))
  let h := mix64 (h ^^^ BitVec.ofNat 64 (step % 2 ^ 32))
  let h := mix64 (h ^^^ BitVec.ofNat 64 idx)
  (h >>> 48).toNat

/-- The tree of 02 R56: neighbours are summed, an odd one is carried up, until one is left. -/
def treeRound {α : Type} (op : α → α → α) : List α → List α
  | a :: b :: r => op a b :: treeRound op r
  | l => l

/-- `tree` with at most `n` rounds; 32 rounds take any list shorter than 2^32 (02 R56). -/
def treeSum {α : Type} (op : α → α → α) : Nat → List α → List α
  | 0, l => l
  | n + 1, l => match l with
    | [] => []
    | [a] => [a]
    | l => treeSum op n (treeRound op l)

/-- The tree's value and the flags of all its additions, each rounded to a format (02 R56, R60). -/
def Fmt.tree (f : Fmt) (l : List (Nat × Flags)) : Nat × Flags :=
  match treeSum (fun a b =>
      let (v, g) := f.narrow ((f.decode a.1).add (f.decode b.1))
      (v, a.2.or b.2 |>.or g)) 32 l with
  | a :: _ => a
  | [] => (0, .none)

end Sys2Proof.Machine
end

