-- ==== Sys2Proof/Machine/FMap.lean ====
section
/-!
DEFINITION. A finite map from numbers as a list of pairs, and the machine's memory as a list of
(address, byte) pairs in one canonical form.
-/
namespace Sys2Proof.Machine

/-- A finite map: pairs of a key and a value, the keys rising. -/
abbrev FMap (α : Type) := List (Nat × α)

/-- The form that makes equal maps equal data: the keys rise. -/
abbrev FMap.wf {α : Type} (m : FMap α) : Prop := m.Pairwise (fun p q => p.1 < q.1)

/-- The value at a key. -/
def FMap.get? {α : Type} : FMap α → Nat → Option α
  | [], _ => none
  | p :: r, k => if k = p.1 then some p.2 else FMap.get? r k

/-- The value at a key, or a given one where the key is not listed. -/
def FMap.getD {α : Type} (m : FMap α) (k : Nat) (d : α) : α := (FMap.get? m k).getD d

/-- The map with the value at one key replaced or added in its place. -/
def FMap.set {α : Type} : FMap α → Nat → α → FMap α
  | [], k, v => [(k, v)]
  | p :: r, k, v =>
    if k < p.1 then (k, v) :: p :: r
    else if k = p.1 then (k, v) :: r
    else p :: FMap.set r k v

/-- The map without one key. -/
def FMap.del {α : Type} (m : FMap α) (k : Nat) : FMap α := m.filter (fun p => p.1 ≠ k)

/-- Whether a key is listed. -/
def FMap.has {α : Type} (m : FMap α) (k : Nat) : Bool := (FMap.get? m k).isSome

end Sys2Proof.Machine
end

