-- ==== Sys2Proof/Machine/Memory.lean ====
section
/-!
DEFINITION. The module's byte memory: Tallboy bytes keyed by their address in the interleaved view and
Shelf bytes keyed by their address in the Shelf window (01 R15, R17; 09 R268). A byte that is not listed
reads as zero: the Tallboys are written with zeros before any access (09 R267), and a Shelf reads as zero
after reset (17 R465).
-/
namespace Sys2Proof.Machine

/-- The memory: (address, byte) pairs, addresses strictly rising, no zero byte listed. -/
abbrev Memory := List Host.Cell

/-- The canonical form: addresses strictly rising and no entry equal to what an unlisted byte reads as. -/
abbrev Memory.wf (m : Memory) : Prop := m.Pairwise (fun c d => c.1 < d.1) ∧ ∀ c ∈ m, c.2 ≠ 0

/-- One byte. An unlisted byte reads as zero (09 R267, 17 R465). -/
def Memory.byte : Memory → Nat → Byte
  | [], _ => 0
  | c :: r, a => if a = c.1 then c.2 else Memory.byte r a

/-- The memory with one byte stored, the canonical form kept. -/
def Memory.put : Memory → Nat → Byte → Memory
  | [], a, b => if b = 0 then [] else [(a, b)]
  | c :: r, a, b =>
    if a < c.1 then (if b = 0 then c :: r else (a, b) :: c :: r)
    else if a = c.1 then (if b = 0 then r else (a, b) :: r)
    else c :: Memory.put r a b

/-- `n` bytes from an address upwards. -/
def Memory.read (m : Memory) (a n : Nat) : List Byte := (List.range n).map (fun i => m.byte (a + i))

/-- Bytes stored from an address upwards. -/
def Memory.write (m : Memory) (a : Nat) : List Byte → Memory
  | [] => m
  | b :: r => Memory.write (Memory.put m a b) (a + 1) r

/-- The memory with every byte below an address cleared (09 R267: a Tallboy is written with zeros). -/
def Memory.clearBelow (m : Memory) (a : Nat) : Memory := m.filter (fun c => a ≤ c.1)

/-- The memory with the bytes of one range cleared. -/
def Memory.clearRange (m : Memory) (a n : Nat) : Memory := m.filter (fun c => c.1 < a || a + n ≤ c.1)

end Sys2Proof.Machine
end

