-- ==== Sys2Proof/Machine/Regs.lean ====
section
/-!
DEFINITION. The control registers: the local address of each, its fields, and the access masks and reset
value of each, written from the register tables of the spec (00 R6 to R11; each register's own rule is
named at its address). Generated from those tables.
-/
namespace Sys2Proof.Machine

/-- The base of the control-register region (10 R288). -/
def regBase : Nat := 0x2000000000000

/-- The base of Bench `b`'s register block (10 R289). -/
def benchBase (b : Nat) : Nat := regBase + b * 0x10000

/-- One kind of register: where its copies lie, its reset value, and the masks of its access codes
(00 R6). `core` says that it returns to its reset value at core reset. -/
structure RegDesc where
  base : Nat
  stride : Nat
  count : Nat
  reset : Nat
  rw : Nat
  w1c : Nat
  w1s : Nat
  rwo : Nat
  wo : Nat
  ro : Nat
  core : Bool
  deriving DecidableEq, Repr

/-- `BENCH_ID` (R24). -/
def A.benchId (b : Nat) : Nat := benchBase b + 0x0
/-- `BENCH_THR` (R142). -/
def A.benchThr (b x : Nat) : Nat := benchBase b + 0x10 + x * 0x8
/-- `BENCH_PC` (R143). -/
def A.benchPc (b x : Nat) : Nat := benchBase b + 0x20 + x * 0x8
/-- `BENCH_FADDR` (R144). -/
def A.benchFaddr (b x : Nat) : Nat := benchBase b + 0x30 + x * 0x8
/-- `BENCH_LEASE` (R145). -/
def A.benchLease (b : Nat) : Nat := benchBase b + 0x50
/-- `BENCH_DWL` (R146). -/
def A.benchDwl (b : Nat) : Nat := benchBase b + 0x60
/-- `BENCH_DWL_STAT` (R147). -/
def A.benchDwlStat (b : Nat) : Nat := benchBase b + 0x68
/-- `BENCH_CYC` (R148). -/
def A.benchCyc (b : Nat) : Nat := benchBase b + 0x70
/-- `NUM_STEP` (R54). -/
def A.numStep (b x : Nat) : Nat := benchBase b + 0x400 + x * 0x8
/-- `NUM_CTL` (R199). -/
def A.numCtl (b : Nat) : Nat := benchBase b + 0x410
/-- `NUM_VFLAG` (R199). -/
def A.numVflag (b : Nat) : Nat := benchBase b + 0x418
/-- `NUM_LAYER` (R199). -/
def A.numLayer (b x : Nat) : Nat := benchBase b + 0x420 + x * 0x8
/-- `NUM_TRAP_STAT` (R200). -/
def A.numTrapStat (b x : Nat) : Nat := benchBase b + 0x440 + x * 0x20
/-- `NUM_TRAP_ADDR` (R200). -/
def A.numTrapAddr (b x : Nat) : Nat := benchBase b + 0x448 + x * 0x20
/-- `NUM_TRAP_POS` (R200). -/
def A.numTrapPos (b x : Nat) : Nat := benchBase b + 0x450 + x * 0x20
/-- `NUM_TRAP_IDX` (R200). -/
def A.numTrapIdx (b x : Nat) : Nat := benchBase b + 0x458 + x * 0x20
/-- `DESK_CFG` (R95). -/
def A.deskCfg (b d : Nat) : Nat := benchBase b + 0x800 + d * 0x80
/-- `DESK_STAT` (R96). -/
def A.deskStat (b d : Nat) : Nat := benchBase b + 0x808 + d * 0x80
/-- `DESK_OWN` (R97). -/
def A.deskOwn (b d : Nat) : Nat := benchBase b + 0x810 + d * 0x80
/-- `DESK_LATCH` (R98). -/
def A.deskLatch (b d : Nat) : Nat := benchBase b + 0x818 + d * 0x80
/-- `DESK_ROWS` (R99). -/
def A.deskRows (b d : Nat) : Nat := benchBase b + 0x820 + d * 0x80
/-- `DESK_STALL` (R100). -/
def A.deskStall (b d : Nat) : Nat := benchBase b + 0x828 + d * 0x80
/-- `DESK_RAS` (R101). -/
def A.deskRas (b d : Nat) : Nat := benchBase b + 0x830 + d * 0x80
/-- `DESK_CTL` (R102). -/
def A.deskCtl (b d : Nat) : Nat := benchBase b + 0x838 + d * 0x80
/-- `NUM_DFLAG` (R199). -/
def A.numDflag (b d : Nat) : Nat := benchBase b + 0x840 + d * 0x80
/-- `MOVE_STAT` (R173). -/
def A.moveStat (b : Nat) : Nat := benchBase b + 0xa00
/-- `MOVE_ERR` (R174). -/
def A.moveErr (b : Nat) : Nat := benchBase b + 0xa08
/-- `MOVE_ERR_ADDR` (R174). -/
def A.moveErrAddr (b : Nat) : Nat := benchBase b + 0xa10
/-- `MOVE_BYTES` (R174). -/
def A.moveBytes (b : Nat) : Nat := benchBase b + 0xa18
/-- `EXP_STAT` (R175). -/
def A.expStat (b : Nat) : Nat := benchBase b + 0xa40
/-- `EXP_STALL` (R175). -/
def A.expStall (b : Nat) : Nat := benchBase b + 0xa48
/-- `EXP_ERR` (R175). -/
def A.expErr (b : Nat) : Nat := benchBase b + 0xa50
/-- `EXP_ERR_TID` (R175). -/
def A.expErrTid (b : Nat) : Nat := benchBase b + 0xa58
/-- `EXP_CTL` (R176). -/
def A.expCtl (b : Nat) : Nat := benchBase b + 0xa60
/-- `TBY_STAT` (R286). -/
def A.tbyStat (t : Nat) : Nat := 0x2010000000000 + t * 0x1000000
/-- `TBY_ECC` (R286). -/
def A.tbyEcc (t : Nat) : Nat := 0x2010000000008 + t * 0x1000000
/-- `TBY_ERR` (R286). -/
def A.tbyErr (t : Nat) : Nat := 0x2010000000010 + t * 0x1000000
/-- `TBY_SCRUB` (R286). -/
def A.tbyScrub (t : Nat) : Nat := 0x2010000000020 + t * 0x1000000
/-- `TBY_SPARE` (R286). -/
def A.tbySpare (t : Nat) : Nat := 0x2010000000028 + t * 0x1000000
/-- `TBY_CTL` (R286). -/
def A.tbyCtl (t : Nat) : Nat := 0x2010000000038 + t * 0x1000000
/-- `TBY_ERR_ADDR` (R286). -/
def A.tbyErrAddr (t : Nat) : Nat := 0x2010000000018 + t * 0x1000000
/-- `TBY_QOS` (R286). -/
def A.tbyQos (t : Nat) : Nat := 0x2010000000030 + t * 0x1000000
/-- `TBY_RGN` (R286). -/
def A.tbyRgn (n : Nat) : Nat := 0x2010000000100 + n * 0x8
/-- `TBY_RGN_STAT` (R286). -/
def A.tbyRgnStat : Nat := 0x2010000000140
/-- `TBY_RGN_ADDR` (R286). -/
def A.tbyRgnAddr : Nat := 0x2010000000148
/-- `TBY_STAGE_BASE` (R286). -/
def A.tbyStageBase : Nat := 0x2010000000180
/-- `TBY_STAGE` (R286). -/
def A.tbyStage : Nat := 0x2010000000188
/-- `SBD_CTL` (R263). -/
def A.sbdCtl (t : Nat) : Nat := 0x2010000800000 + t * 0x1000000
/-- `SBD_STAT` (R263). -/
def A.sbdStat (t : Nat) : Nat := 0x2010000800008 + t * 0x1000000
/-- `SBD_LTAB` (R263). -/
def A.sbdLtab (t : Nat) : Nat := 0x2010000800010 + t * 0x1000000
/-- `SBD_STEPREC` (R263). -/
def A.sbdSteprec (t : Nat) : Nat := 0x2010000800018 + t * 0x1000000
/-- `SBD_INTAKE_BASE` (R263). -/
def A.sbdIntakeBase (t : Nat) : Nat := 0x2010000800020 + t * 0x1000000
/-- `SBD_INTAKE` (R263). -/
def A.sbdIntake (t : Nat) : Nat := 0x2010000800028 + t * 0x1000000
/-- `SBD_NORM` (R263). -/
def A.sbdNorm : Nat := 0x2010000800030
/-- `SBD_NORM_AREA` (R263). -/
def A.sbdNormArea : Nat := 0x2010000800038
/-- `SBD_WATCH` (R263). -/
def A.sbdWatch : Nat := 0x2010000800040
/-- `SBD_GLOG_BASE` (R263). -/
def A.sbdGlogBase : Nat := 0x2010000800048
/-- `SBD_GLOG_CTL` (R263). -/
def A.sbdGlogCtl : Nat := 0x2010000800050
/-- `SBD_GLOG_STAT` (R263). -/
def A.sbdGlogStat : Nat := 0x2010000800058
/-- `SBD_EXP_BASE` (R263). -/
def A.sbdExpBase (t : Nat) : Nat := 0x2010000800060 + t * 0x1000000
/-- `SBD_EXP_CTL` (R263). -/
def A.sbdExpCtl (t : Nat) : Nat := 0x2010000800068 + t * 0x1000000
/-- `SBD_EXP_TPTR` (R263). -/
def A.sbdExpTptr (t : Nat) : Nat := 0x2010000800070 + t * 0x1000000
/-- `SBD_EXP_HEAD` (R263). -/
def A.sbdExpHead (t : Nat) : Nat := 0x2010000800078 + t * 0x1000000
/-- `SBD_EXP_STAT` (R263). -/
def A.sbdExpStat (t : Nat) : Nat := 0x2010000800080 + t * 0x1000000
/-- `SBD_EXP_TAB` (R263). -/
def A.sbdExpTab (t : Nat) : Nat := 0x2010000800088 + t * 0x1000000
/-- `SBD_NF_STAT` (R202). -/
def A.sbdNfStat (t : Nat) : Nat := 0x2010000800090 + t * 0x1000000
/-- `SBD_NF_TID` (R202). -/
def A.sbdNfTid (t : Nat) : Nat := 0x2010000800098 + t * 0x1000000
/-- `SBD_NF_IDX` (R202). -/
def A.sbdNfIdx (t : Nat) : Nat := 0x20100008000a0 + t * 0x1000000
/-- `SBD_RAS` (R264). -/
def A.sbdRas (t : Nat) : Nat := 0x20100008000a8 + t * 0x1000000
/-- `TMR_ID` (R318). -/
def A.tmrId : Nat := 0x2020000000000
/-- `TMR_CTL` (R318). -/
def A.tmrCtl : Nat := 0x2020000000008
/-- `TMR_STAT` (R318). -/
def A.tmrStat : Nat := 0x2020000000010
/-- `TMR_ERR` (R319). -/
def A.tmrErr : Nat := 0x2020000000018
/-- `TMR_ERR_ADDR` (R319). -/
def A.tmrErrAddr : Nat := 0x2020000000020
/-- `TMR_TC` (R320). -/
def A.tmrTc (c : Nat) : Nat := 0x2020000000100 + c * 0x8
/-- `TMR_TCSEL` (R320). -/
def A.tmrTcsel (i : Nat) : Nat := 0x2020000000180 + i * 0x8
/-- `TMR_PORT_CTL` (R321). -/
def A.tmrPortCtl (p : Nat) : Nat := 0x2020000001000 + p * 0x40
/-- `TMR_PORT_STAT` (R321). -/
def A.tmrPortStat (p : Nat) : Nat := 0x2020000001008 + p * 0x40
/-- `TMR_PORT_CNT` (R321). -/
def A.tmrPortCnt (p : Nat) : Nat := 0x2020000001010 + p * 0x40
/-- `TMR_RT0` (R322). -/
def A.tmrRt0 (m : Nat) : Nat := 0x2020000100000 + m * 0x10
/-- `TMR_RT1` (R322). -/
def A.tmrRt1 (m : Nat) : Nat := 0x2020000100008 + m * 0x10
/-- `SYNC_CNT` (R342). -/
def A.syncCnt (i : Nat) : Nat := 0x2028000000000 + i * 0x8
/-- `SYNC_TMO` (R342). -/
def A.syncTmo : Nat := 0x2028000080000
/-- `SYNC_LEND` (R342). -/
def A.syncLend : Nat := 0x2028000080008
/-- `SYNC_STAT` (R342). -/
def A.syncStat : Nat := 0x2028000080010
/-- `SYNC_LENT` (R342). -/
def A.syncLent (n : Nat) : Nat := 0x2028000080100 + n * 0x8
/-- `TRS_CTL` (R373). -/
def A.trsCtl : Nat := 0x2030000000000
/-- `TRS_STAT` (R373). -/
def A.trsStat : Nat := 0x2030000000008
/-- `TRS_SITE` (R373). -/
def A.trsSite : Nat := 0x2030000000010
/-- `TRS_EPOCH` (R373). -/
def A.trsEpoch : Nat := 0x2030000000018
/-- `TRS_PERIOD` (R373). -/
def A.trsPeriod : Nat := 0x2030000000020
/-- `TRS_OUTER` (R373). -/
def A.trsOuter : Nat := 0x2030000000028
/-- `TRS_LATE` (R373). -/
def A.trsLate : Nat := 0x2030000000030
/-- `TRS_DELAY` (R373). -/
def A.trsDelay : Nat := 0x2030000000038
/-- `TRS_ABSENT` (R373). -/
def A.trsAbsent : Nat := 0x2030000000040
/-- `TRS_ROUND` (R373). -/
def A.trsRound : Nat := 0x2030000000048
/-- `TRS_GTAB` (R373). -/
def A.trsGtab : Nat := 0x2030000000050
/-- `TRS_GCFG` (R373). -/
def A.trsGcfg : Nat := 0x2030000000058
/-- `TRS_TAB` (R373). -/
def A.trsTab : Nat := 0x2030000000060
/-- `TRS_TXBUF` (R373). -/
def A.trsTxbuf : Nat := 0x2030000000068
/-- `TRS_ALOG_BASE` (R373). -/
def A.trsAlogBase : Nat := 0x2030000000070
/-- `TRS_ALOG_CTL` (R373). -/
def A.trsAlogCtl : Nat := 0x2030000000078
/-- `TRS_ALOG_STAT` (R373). -/
def A.trsAlogStat : Nat := 0x2030000000080
/-- `TRS_NF_STAT` (R202). -/
def A.trsNfStat : Nat := 0x2030000000088
/-- `TRS_NF_TID` (R202). -/
def A.trsNfTid : Nat := 0x2030000000090
/-- `TRS_NF_IDX` (R202). -/
def A.trsNfIdx : Nat := 0x2030000000098
/-- `TRS_CNT` (R373). -/
def A.trsCnt : Nat := 0x20300000000a0
/-- `TRS_DROP` (R373). -/
def A.trsDrop : Nat := 0x20300000000a8
/-- `TRS_LIN` (R398). -/
def A.trsLin : Nat := 0x20300000000b0
/-- `TRS_FPT` (R398). -/
def A.trsFpt : Nat := 0x20300000000b8
/-- `TRS_RECON` (R398). -/
def A.trsRecon : Nat := 0x20300000000c0
/-- `TRS_DONOR` (R398). -/
def A.trsDonor : Nat := 0x20300000000c8
/-- `TRS_CAL` (R373). -/
def A.trsCal (i : Nat) : Nat := 0x2030000001000 + i * 0x8
/-- `TRS_PART0` (R374). -/
def A.trsPart0 (i : Nat) : Nat := 0x2030000002000 + i * 0x20
/-- `TRS_PART1` (R374). -/
def A.trsPart1 (i : Nat) : Nat := 0x2030000002008 + i * 0x20
/-- `TRS_PART2` (R374). -/
def A.trsPart2 (i : Nat) : Nat := 0x2030000002010 + i * 0x20
/-- `TRS_PART3` (R374). -/
def A.trsPart3 (i : Nat) : Nat := 0x2030000002018 + i * 0x20
/-- `TRS_RSTAT` (R398). -/
def A.trsRstat (i : Nat) : Nat := 0x2030000004000 + i * 0x8
/-- `GEO_CFG0` (R3). -/
def A.geoCfg0 : Nat := 0x2040000001000
/-- `GEO_CFG1` (R3). -/
def A.geoCfg1 : Nat := 0x2040000001008
/-- `NUM_SEED` (R53). -/
def A.numSeed : Nat := 0x2040000001100
/-- `NUM_MODE` (R53). -/
def A.numMode : Nat := 0x2040000001108
/-- `NUM_LADDER` (R201). -/
def A.numLadder : Nat := 0x2040000001110
/-- `NUM_ELOG_BASE` (R201). -/
def A.numElogBase : Nat := 0x2040000001118
/-- `NUM_ELOG_CTL` (R201). -/
def A.numElogCtl : Nat := 0x2040000001120
/-- `NUM_ELOG_STAT` (R201). -/
def A.numElogStat : Nat := 0x2040000001128
/-- `MBX_OWN` (R443). -/
def A.mbxOwn : Nat := 0x2040000002000
/-- `MBX_SUBMIT` (R443). -/
def A.mbxSubmit : Nat := 0x2040000002008
/-- `MBX_ACK` (R443). -/
def A.mbxAck : Nat := 0x2040000002010
/-- `MBX_CTL` (R443). -/
def A.mbxCtl : Nat := 0x2040000002018
/-- `MBX_STAT` (R443). -/
def A.mbxStat : Nat := 0x2040000002020
/-- `MBX_RWIN` (R443). -/
def A.mbxRwin : Nat := 0x2040000002028
/-- `MBX_APER` (R443). -/
def A.mbxAper : Nat := 0x2040000002030
/-- `CLK_STAT` (R420). -/
def A.clkStat : Nat := 0x2050000000000
/-- `CLK_FREQ` (R420). -/
def A.clkFreq : Nat := 0x2050000000008
/-- `CLK_TRIM` (R420). -/
def A.clkTrim : Nat := 0x2050000000010
/-- `CLK_XOVR` (R420). -/
def A.clkXovr : Nat := 0x2050000000018
/-- `GT_NOW_LO` (R420). -/
def A.gtNowLo : Nat := 0x2050000000100
/-- `GT_NOW_HI` (R420). -/
def A.gtNowHi : Nat := 0x2050000000108
/-- `GT_CFG` (R420). -/
def A.gtCfg : Nat := 0x2050000000110
/-- `GT_STAT` (R420). -/
def A.gtStat : Nat := 0x2050000000118
/-- `GT_UNC` (R420). -/
def A.gtUnc : Nat := 0x2050000000120
/-- `GT_SETS` (R420). -/
def A.gtSets : Nat := 0x2050000000128
/-- `GT_SETN` (R420). -/
def A.gtSetn : Nat := 0x2050000000130
/-- `GT_PTP` (R420). -/
def A.gtPtp : Nat := 0x2050000000138
/-- `GT_PTP_ID` (R420). -/
def A.gtPtpId : Nat := 0x2050000000140
/-- `GT_PPS` (R420). -/
def A.gtPps : Nat := 0x2050000000148
/-- `GT_PCAL` (R420). -/
def A.gtPcal (p : Nat) : Nat := 0x2050000000200 + p * 0x8
/-- `RST_CAUSE` (R485). -/
def A.rstCause : Nat := 0x2050000000400
/-- `RST_CTL` (R485). -/
def A.rstCtl : Nat := 0x2050000000408
/-- `RST_STRAP` (R485). -/
def A.rstStrap : Nat := 0x2050000000410
/-- `RST_BOOT` (R485). -/
def A.rstBoot : Nat := 0x2050000000418
/-- `PWR_CAP` (R485). -/
def A.pwrCap : Nat := 0x2050000000500
/-- `PWR_STAT` (R485). -/
def A.pwrStat : Nat := 0x2050000000508
/-- `PWR_DOM` (R485). -/
def A.pwrDom (d : Nat) : Nat := 0x2050000000600 + d * 0x8
/-- `PWR_DOMU` (R485). -/
def A.pwrDomu (d : Nat) : Nat := 0x2050000000640 + d * 0x8
/-- `PWR_UCAL` (R485). -/
def A.pwrUcal (s : Nat) : Nat := 0x2050000000708 + s * 0x8
/-- `CLK_MARK` (R491). -/
def A.clkMark : Nat := 0x2050000000900
/-- `CLK_ALARM` (R491). -/
def A.clkAlarm : Nat := 0x2050000000908
/-- `CONFLICT` (R491). -/
def A.conflict : Nat := 0x2050000000910
/-- `SEC_STAT` (R485). -/
def A.secStat : Nat := 0x2060000000000
/-- `SEC_MEAS` (R485). -/
def A.secMeas (i : Nat) : Nat := 0x2060000000100 + i * 0x8
/-- `SEC_KEY` (R485). -/
def A.secKey (k : Nat) : Nat := 0x2060000001000 + k * 0x8
/-- `EVT_RING_BASE` (R442). -/
def A.evtRingBase : Nat := 0x2070000000000
/-- `EVT_RING_CTL` (R444). -/
def A.evtRingCtl : Nat := 0x2070000000008
/-- `EVT_SEQ` (R444). -/
def A.evtSeq : Nat := 0x2070000000010
/-- `EVT_STAT` (R444). -/
def A.evtStat : Nat := 0x2070000000018
/-- `EVT_MSIX` (R444). -/
def A.evtMsix : Nat := 0x2070000000020
/-- `EVT_HEALTH` (R464). -/
def A.evtHealth : Nat := 0x2070000000100
/-- `EVT_AVAIL_T` (R464). -/
def A.evtAvailT : Nat := 0x2070000000108
/-- `EVT_AVAIL_U` (R464). -/
def A.evtAvailU : Nat := 0x2070000000110
/-- `EVT_FLT_CTL` (R464). -/
def A.evtFltCtl : Nat := 0x2070000000118
/-- `EVT_SPARE` (R464). -/
def A.evtSpare (c : Nat) : Nat := 0x2070000000140 + c * 0x8

def F.benchId.DESK_LIVE : Fld := ⟨43, 40⟩
def F.benchId.TAKEOVERS : Fld := ⟨31, 24⟩
def F.benchId.ON_SPARE : Fld := ⟨20, 20⟩
def F.benchId.CDIE : Fld := ⟨18, 16⟩
def F.benchId.PHYS : Fld := ⟨9, 0⟩
def F.benchThr.CAUSE : Fld := ⟨31, 24⟩
def F.benchThr.STOP : Fld := ⟨9, 9⟩
def F.benchThr.START : Fld := ⟨8, 8⟩
def F.benchThr.STATE : Fld := ⟨1, 0⟩
def F.benchPc.PC : Fld := ⟨63, 3⟩
def F.benchFaddr.ADDR : Fld := ⟨63, 0⟩
def F.benchLease.WB : Fld := ⟨23, 20⟩
def F.benchLease.WF : Fld := ⟨19, 16⟩
def F.benchLease.LENT : Fld := ⟨11, 8⟩
def F.benchLease.HOLD : Fld := ⟨7, 0⟩
def F.benchDwl.RESUME : Fld := ⟨49, 49⟩
def F.benchDwl.HALT : Fld := ⟨48, 48⟩
def F.benchDwl.IDLE : Fld := ⟨47, 32⟩
def F.benchDwl.BASE : Fld := ⟨8, 0⟩
def F.benchDwlStat.DONE : Fld := ⟨63, 32⟩
def F.benchDwlStat.CAUSE : Fld := ⟨31, 24⟩
def F.benchDwlStat.FAULTED : Fld := ⟨23, 23⟩
def F.benchDwlStat.RUNNING : Fld := ⟨22, 22⟩
def F.benchDwlStat.COUNT : Fld := ⟨20, 14⟩
def F.benchDwlStat.TAIL : Fld := ⟨13, 8⟩
def F.benchDwlStat.HEAD : Fld := ⟨5, 0⟩
def F.benchCyc.CYC : Fld := ⟨63, 0⟩
def F.numStep.STEP : Fld := ⟨47, 0⟩
def F.numCtl.SUPP : Fld := ⟨4, 4⟩
def F.numCtl.TRAP : Fld := ⟨2, 0⟩
def F.numVflag.O : Fld := ⟨3, 3⟩
def F.numVflag.U : Fld := ⟨2, 2⟩
def F.numVflag.X : Fld := ⟨1, 1⟩
def F.numVflag.I : Fld := ⟨0, 0⟩
def F.numLayer.LTAG : Fld := ⟨63, 48⟩
def F.numLayer.ATTEMPT : Fld := ⟨47, 40⟩
def F.numLayer.RUNG : Fld := ⟨39, 38⟩
def F.numLayer.LAD : Fld := ⟨37, 37⟩
def F.numLayer.OPEN : Fld := ⟨36, 36⟩
def F.numLayer.LFLAGS : Fld := ⟨35, 32⟩
def F.numLayer.LOST : Fld := ⟨31, 31⟩
def F.numLayer.WORD : Fld := ⟨29, 0⟩
def F.numTrapStat.LTAG : Fld := ⟨63, 48⟩
def F.numTrapStat.SUPP : Fld := ⟨47, 40⟩
def F.numTrapStat.OPC : Fld := ⟨31, 24⟩
def F.numTrapStat.UNIT : Fld := ⟨23, 21⟩
def F.numTrapStat.KIND : Fld := ⟨20, 18⟩
def F.numTrapStat.OVERRUN : Fld := ⟨17, 17⟩
def F.numTrapStat.VALID : Fld := ⟨16, 16⟩
def F.numTrapStat.IDXV : Fld := ⟨15, 15⟩
def F.numTrapAddr.ADDR : Fld := ⟨63, 0⟩
def F.numTrapPos.SET : Fld := ⟨35, 32⟩
def F.numTrapPos.ROW : Fld := ⟨31, 16⟩
def F.numTrapPos.COL : Fld := ⟨15, 0⟩
def F.numTrapIdx.IDX : Fld := ⟨63, 0⟩
def F.deskCfg.M : Fld := ⟨9, 8⟩
def F.deskCfg.DFMT : Fld := ⟨5, 4⟩
def F.deskCfg.CHUNK : Fld := ⟨1, 0⟩
def F.deskStat.MAX_SETS : Fld := ⟨47, 43⟩
def F.deskStat.CFG_REJ : Fld := ⟨40, 40⟩
def F.deskStat.FAULT : Fld := ⟨39, 39⟩
def F.deskStat.DRAIN_BUSY : Fld := ⟨37, 37⟩
def F.deskStat.PASS_BUSY : Fld := ⟨36, 36⟩
def F.deskStat.SLOT_LOADING : Fld := ⟨35, 34⟩
def F.deskStat.SLOT_VALID : Fld := ⟨33, 32⟩
def F.deskStat.SET_POISON : Fld := ⟨31, 16⟩
def F.deskStat.SET_OPEN : Fld := ⟨15, 0⟩
def F.deskOwn.SLOT : Fld := ⟨35, 32⟩
def F.deskOwn.SET : Fld := ⟨31, 0⟩
def F.deskLatch.CHUNK : Fld := ⟨47, 16⟩
def F.deskLatch.REPRO : Fld := ⟨15, 0⟩
def F.deskRows.ROWS : Fld := ⟨47, 0⟩
def F.deskStall.BSLOT : Fld := ⟨63, 32⟩
def F.deskStall.SHELF : Fld := ⟨31, 0⟩
def F.deskRas.LAST_SET : Fld := ⟨51, 48⟩
def F.deskRas.DRAWER_UE : Fld := ⟨34, 34⟩
def F.deskRas.PARITY : Fld := ⟨33, 33⟩
def F.deskRas.RESIDUE : Fld := ⟨32, 32⟩
def F.deskRas.DRAWER_CE : Fld := ⟨31, 16⟩
def F.deskRas.REPLAYS : Fld := ⟨15, 0⟩
def F.deskCtl.CLR_CNT : Fld := ⟨35, 35⟩
def F.deskCtl.INJ_DRAWER_CE : Fld := ⟨34, 34⟩
def F.deskCtl.INJ_PARITY : Fld := ⟨33, 33⟩
def F.deskCtl.INJ_RESIDUE : Fld := ⟨32, 32⟩
def F.deskCtl.RATE : Fld := ⟨23, 8⟩
def F.deskCtl.RETRY : Fld := ⟨2, 0⟩
def F.numDflag.O : Fld := ⟨3, 3⟩
def F.numDflag.U : Fld := ⟨2, 2⟩
def F.numDflag.X : Fld := ⟨1, 1⟩
def F.numDflag.I : Fld := ⟨0, 0⟩
def F.moveStat.OUT_D : Fld := ⟨20, 16⟩
def F.moveStat.OUT_B : Fld := ⟨15, 11⟩
def F.moveStat.OUT_F : Fld := ⟨10, 6⟩
def F.moveStat.UNDERWAY : Fld := ⟨5, 0⟩
def F.moveErr.COUNT : Fld := ⟨39, 32⟩
def F.moveErr.VALID : Fld := ⟨16, 16⟩
def F.moveErr.CTX : Fld := ⟨13, 12⟩
def F.moveErr.DIR : Fld := ⟨11, 11⟩
def F.moveErr.OP : Fld := ⟨10, 7⟩
def F.moveErr.CAUSE : Fld := ⟨3, 0⟩
def F.moveErrAddr.ADDR : Fld := ⟨63, 0⟩
def F.moveBytes.BYTES : Fld := ⟨47, 0⟩
def F.expStat.BLOCKS : Fld := ⟨63, 32⟩
def F.expStat.PEND : Fld := ⟨1, 1⟩
def F.expStat.BUSY : Fld := ⟨0, 0⟩
def F.expStall.CYC : Fld := ⟨31, 0⟩
def F.expErr.COUNT : Fld := ⟨47, 32⟩
def F.expErr.VALID : Fld := ⟨8, 8⟩
def F.expErr.CAUSE : Fld := ⟨3, 0⟩
def F.expErrTid.TID : Fld := ⟨63, 32⟩
def F.expErrTid.BLOCK : Fld := ⟨31, 0⟩
def F.expCtl.INJ_SHORT : Fld := ⟨1, 1⟩
def F.expCtl.CLR_CNT : Fld := ⟨0, 0⟩
def F.tbyStat.ROWS : Fld := ⟨63, 32⟩
def F.tbyStat.RESERVE : Fld := ⟨31, 16⟩
def F.tbyStat.RLAYER : Fld := ⟨15, 12⟩
def F.tbyStat.REMAP : Fld := ⟨2, 1⟩
def F.tbyStat.INIT : Fld := ⟨0, 0⟩
def F.tbyEcc.CE : Fld := ⟨63, 32⟩
def F.tbyEcc.UE : Fld := ⟨31, 16⟩
def F.tbyEcc.AE : Fld := ⟨15, 0⟩
def F.tbyErr.CLASS : Fld := ⟨23, 21⟩
def F.tbyErr.PC : Fld := ⟨20, 16⟩
def F.tbyErr.LAYER : Fld := ⟨15, 12⟩
def F.tbyErr.VALID : Fld := ⟨8, 8⟩
def F.tbyErr.KIND : Fld := ⟨1, 0⟩
def F.tbyScrub.PASSES : Fld := ⟨63, 32⟩
def F.tbyScrub.EN : Fld := ⟨8, 8⟩
def F.tbyScrub.PERIOD : Fld := ⟨7, 0⟩
def F.tbySpare.DIETH : Fld := ⟨31, 16⟩
def F.tbySpare.ROWTH : Fld := ⟨3, 0⟩
def F.tbyCtl.CLR_CNT : Fld := ⟨2, 2⟩
def F.tbyCtl.INJ_UE : Fld := ⟨1, 1⟩
def F.tbyCtl.INJ_CE : Fld := ⟨0, 0⟩
def F.tbyErrAddr.ADDR : Fld := ⟨63, 0⟩
def F.tbyQos.W0 : Fld := ⟨3, 0⟩
def F.tbyQos.W1 : Fld := ⟨7, 4⟩
def F.tbyQos.W2 : Fld := ⟨11, 8⟩
def F.tbyQos.W3 : Fld := ⟨15, 12⟩
def F.tbyQos.W4 : Fld := ⟨19, 16⟩
def F.tbyQos.W5 : Fld := ⟨23, 20⟩
def F.tbyRgn.LIMIT : Fld := ⟨63, 35⟩
def F.tbyRgn.BASE : Fld := ⟨34, 6⟩
def F.tbyRgn.DENY : Fld := ⟨5, 0⟩
def F.tbyRgnStat.COUNT : Fld := ⟨63, 32⟩
def F.tbyRgnStat.CLASS : Fld := ⟨11, 9⟩
def F.tbyRgnStat.VALID : Fld := ⟨8, 8⟩
def F.tbyRgnAddr.ADDR : Fld := ⟨63, 0⟩
def F.tbyStageBase.LIMIT : Fld := ⟨63, 35⟩
def F.tbyStageBase.BASE : Fld := ⟨34, 6⟩
def F.tbyStage.OWNER : Fld := ⟨1, 0⟩
def F.sbdCtl.GTMO : Fld := ⟨63, 48⟩
def F.sbdCtl.RDP : Fld := ⟨39, 32⟩
def F.sbdCtl.HALT : Fld := ⟨1, 1⟩
def F.sbdCtl.EN : Fld := ⟨0, 0⟩
def F.sbdStat.INTR_SLOT : Fld := ⟨51, 40⟩
def F.sbdStat.INTR : Fld := ⟨39, 32⟩
def F.sbdStat.READY : Fld := ⟨19, 8⟩
def F.sbdStat.INTR_VALID : Fld := ⟨3, 3⟩
def F.sbdStat.GWAIT : Fld := ⟨2, 2⟩
def F.sbdStat.MATRIX : Fld := ⟨1, 1⟩
def F.sbdStat.BUSY : Fld := ⟨0, 0⟩
def F.sbdLtab.COUNT : Fld := ⟨63, 51⟩
def F.sbdLtab.BASE : Fld := ⟨49, 7⟩
def F.sbdSteprec.ADDR : Fld := ⟨49, 6⟩
def F.sbdIntakeBase.ADDR : Fld := ⟨49, 6⟩
def F.sbdIntake.TAKEN : Fld := ⟨63, 32⟩
def F.sbdIntake.Q : Fld := ⟨21, 16⟩
def F.sbdIntake.C : Fld := ⟨12, 0⟩
def F.sbdNorm.CIDX : Fld := ⟨63, 48⟩
def F.sbdNorm.COLL : Fld := ⟨45, 32⟩
def F.sbdNorm.RANK : Fld := ⟨29, 16⟩
def F.sbdNorm.GCNT : Fld := ⟨14, 0⟩
def F.sbdNormArea.RIDX : Fld := ⟨63, 48⟩
def F.sbdNormArea.BASE : Fld := ⟨43, 0⟩
def F.sbdWatch.ADDR : Fld := ⟨49, 6⟩
def F.sbdGlogBase.BASE : Fld := ⟨49, 5⟩
def F.sbdGlogCtl.EN : Fld := ⟨53, 53⟩
def F.sbdGlogCtl.SIZE : Fld := ⟨52, 48⟩
def F.sbdGlogCtl.TAIL : Fld := ⟨47, 24⟩
def F.sbdGlogCtl.HEAD : Fld := ⟨23, 0⟩
def F.sbdGlogStat.LOST : Fld := ⟨31, 0⟩
def F.sbdExpBase.ADDR : Fld := ⟨63, 0⟩
def F.sbdExpCtl.KEYP : Fld := ⟨31, 16⟩
def F.sbdExpCtl.SIZE : Fld := ⟨12, 8⟩
def F.sbdExpCtl.TGT : Fld := ⟨1, 1⟩
def F.sbdExpCtl.EN : Fld := ⟨0, 0⟩
def F.sbdExpTptr.ADDR : Fld := ⟨49, 3⟩
def F.sbdExpHead.HEAD : Fld := ⟨63, 0⟩
def F.sbdExpStat.RESYNC : Fld := ⟨63, 48⟩
def F.sbdExpStat.DROPS : Fld := ⟨47, 32⟩
def F.sbdExpStat.FRAMES : Fld := ⟨31, 0⟩
def F.sbdExpTab.ADDR : Fld := ⟨49, 3⟩
def F.sbdNfStat.COUNT : Fld := ⟨63, 32⟩
def F.sbdNfStat.VALID : Fld := ⟨16, 16⟩
def F.sbdNfTid.TID : Fld := ⟨31, 0⟩
def F.sbdNfIdx.IDX : Fld := ⟨63, 0⟩
def F.sbdRas.FAULT : Fld := ⟨33, 33⟩
def F.sbdRas.CHECK : Fld := ⟨32, 32⟩
def F.sbdRas.MISM : Fld := ⟨31, 16⟩
def F.sbdRas.RETRIES : Fld := ⟨15, 0⟩
def F.tmrId.EPOCH : Fld := ⟨63, 56⟩
def F.tmrId.ASSIGNED : Fld := ⟨16, 16⟩
def F.tmrId.MODNUM : Fld := ⟨13, 0⟩
def F.tmrCtl.RTO : Fld := ⟨31, 16⟩
def F.tmrCtl.RETRY : Fld := ⟨15, 12⟩
def F.tmrCtl.MAXHOP : Fld := ⟨10, 8⟩
def F.tmrCtl.DEFTC : Fld := ⟨2, 0⟩
def F.tmrStat.TDROP : Fld := ⟨63, 32⟩
def F.tmrStat.SPILL : Fld := ⟨31, 16⟩
def F.tmrStat.REGDENY : Fld := ⟨15, 0⟩
def F.tmrErr.COUNT : Fld := ⟨63, 48⟩
def F.tmrErr.STATUS : Fld := ⟨39, 38⟩
def F.tmrErr.TC : Fld := ⟨37, 35⟩
def F.tmrErr.KIND : Fld := ⟨34, 32⟩
def F.tmrErr.VALID : Fld := ⟨16, 16⟩
def F.tmrErr.MOD : Fld := ⟨13, 0⟩
def F.tmrErrAddr.ADDR : Fld := ⟨63, 0⟩
def F.tmrTc.USE : Fld := ⟨63, 48⟩
def F.tmrTc.QUOTA : Fld := ⟨47, 32⟩
def F.tmrTc.WT : Fld := ⟨11, 8⟩
def F.tmrTc.DCLS : Fld := ⟨1, 0⟩
def F.tmrTcsel.VALID : Fld := ⟨39, 39⟩
def F.tmrTcsel.TC : Fld := ⟨38, 36⟩
def F.tmrTcsel.KINDS : Fld := ⟨34, 28⟩
def F.tmrTcsel.HI : Fld := ⟨27, 14⟩
def F.tmrTcsel.LO : Fld := ⟨13, 0⟩
def F.tmrPortCtl.LRETRY : Fld := ⟨15, 12⟩
def F.tmrPortCtl.RETRAIN : Fld := ⟨9, 9⟩
def F.tmrPortCtl.EN : Fld := ⟨8, 8⟩
def F.tmrPortCtl.DCLS : Fld := ⟨1, 0⟩
def F.tmrPortStat.PEERV : Fld := ⟨47, 47⟩
def F.tmrPortStat.PEERGW : Fld := ⟨46, 46⟩
def F.tmrPortStat.PEER : Fld := ⟨45, 32⟩
def F.tmrPortStat.LANEBAD : Fld := ⟨11, 8⟩
def F.tmrPortStat.STATE : Fld := ⟨2, 0⟩
def F.tmrPortCnt.FLITS : Fld := ⟨63, 32⟩
def F.tmrPortCnt.REPLAY : Fld := ⟨31, 16⟩
def F.tmrPortCnt.RETRAINS : Fld := ⟨15, 0⟩
def F.tmrRt0.PRI : Fld := ⟨35, 0⟩
def F.tmrRt1.VALID : Fld := ⟨63, 63⟩
def F.tmrRt1.ALT : Fld := ⟨35, 0⟩
def F.syncCnt.UDF : Fld := ⟨33, 33⟩
def F.syncCnt.OVF : Fld := ⟨32, 32⟩
def F.syncCnt.VALUE : Fld := ⟨31, 0⟩
def F.syncTmo.DEFAULT : Fld := ⟨23, 0⟩
def F.syncLend.EN : Fld := ⟨16, 16⟩
def F.syncLend.THRESH : Fld := ⟨15, 0⟩
def F.syncStat.BUSY : Fld := ⟨63, 48⟩
def F.syncStat.SLOW : Fld := ⟨47, 16⟩
def F.syncStat.WAITERS : Fld := ⟨14, 0⟩
def F.syncLent.LENT : Fld := ⟨63, 0⟩
def F.trsCtl.D : Fld := ⟨19, 16⟩
def F.trsCtl.S : Fld := ⟨13, 12⟩
def F.trsCtl.NEST : Fld := ⟨8, 8⟩
def F.trsCtl.GAUTO : Fld := ⟨2, 2⟩
def F.trsCtl.HALT : Fld := ⟨1, 1⟩
def F.trsCtl.EN : Fld := ⟨0, 0⟩
def F.trsStat.OVERRUN : Fld := ⟨47, 32⟩
def F.trsStat.NOALARM : Fld := ⟨7, 7⟩
def F.trsStat.NOSTAGE : Fld := ⟨6, 6⟩
def F.trsStat.CALBAD : Fld := ⟨5, 5⟩
def F.trsStat.NOGW : Fld := ⟨4, 4⟩
def F.trsStat.TIMEINV : Fld := ⟨3, 3⟩
def F.trsStat.APPLYING : Fld := ⟨2, 2⟩
def F.trsStat.SENDING : Fld := ⟨1, 1⟩
def F.trsStat.RUN : Fld := ⟨0, 0⟩
def F.trsSite.WEIGHT : Fld := ⟨63, 32⟩
def F.trsSite.OWNER : Fld := ⟨29, 16⟩
def F.trsSite.SITE : Fld := ⟨15, 0⟩
def F.trsEpoch.SEC : Fld := ⟨47, 0⟩
def F.trsPeriod.P : Fld := ⟨63, 32⟩
def F.trsPeriod.NS : Fld := ⟨29, 0⟩
def F.trsOuter.MU : Fld := ⟨63, 32⟩
def F.trsOuter.ETA : Fld := ⟨31, 0⟩
def F.trsLate.LAMBDA : Fld := ⟨31, 0⟩
def F.trsDelay.DMAX : Fld := ⟨63, 32⟩
def F.trsDelay.STEP : Fld := ⟨31, 16⟩
def F.trsDelay.ASHIFT : Fld := ⟨7, 4⟩
def F.trsDelay.WIN : Fld := ⟨3, 0⟩
def F.trsAbsent.MS : Fld := ⟨31, 0⟩
def F.trsRound.VALID : Fld := ⟨32, 32⟩
def F.trsRound.ROUND : Fld := ⟨31, 0⟩
def F.trsGtab.ADDR : Fld := ⟨49, 6⟩
def F.trsGcfg.ADDR : Fld := ⟨49, 6⟩
def F.trsTab.ADDR : Fld := ⟨49, 6⟩
def F.trsTxbuf.SIZE : Fld := ⟨61, 56⟩
def F.trsTxbuf.BASE : Fld := ⟨49, 16⟩
def F.trsAlogBase.BASE : Fld := ⟨49, 5⟩
def F.trsAlogCtl.EN : Fld := ⟨53, 53⟩
def F.trsAlogCtl.SIZE : Fld := ⟨52, 48⟩
def F.trsAlogCtl.TAIL : Fld := ⟨47, 24⟩
def F.trsAlogCtl.HEAD : Fld := ⟨23, 0⟩
def F.trsAlogStat.LOST : Fld := ⟨31, 0⟩
def F.trsNfStat.COUNT : Fld := ⟨63, 32⟩
def F.trsNfStat.VALID : Fld := ⟨16, 16⟩
def F.trsNfTid.TID : Fld := ⟨31, 0⟩
def F.trsNfIdx.IDX : Fld := ⟨63, 0⟩
def F.trsCnt.RX : Fld := ⟨63, 32⟩
def F.trsCnt.TX : Fld := ⟨31, 0⟩
def F.trsDrop.ROOM : Fld := ⟨63, 48⟩
def F.trsDrop.RANGE : Fld := ⟨47, 32⟩
def F.trsDrop.ADDR : Fld := ⟨31, 16⟩
def F.trsDrop.AUTH : Fld := ⟨15, 0⟩
def F.trsLin.ADDR : Fld := ⟨49, 6⟩
def F.trsFpt.ADDR : Fld := ⟨49, 6⟩
def F.trsRecon.REPAIR : Fld := ⟨16, 16⟩
def F.trsRecon.K : Fld := ⟨15, 0⟩
def F.trsDonor.JOINED : Fld := ⟨17, 17⟩
def F.trsDonor.VALID : Fld := ⟨16, 16⟩
def F.trsDonor.SITE : Fld := ⟨15, 0⟩
def F.trsCal.VALID : Fld := ⟨63, 63⟩
def F.trsCal.ACTION : Fld := ⟨42, 40⟩
def F.trsCal.GROUP : Fld := ⟨39, 32⟩
def F.trsCal.OFFSET : Fld := ⟨31, 0⟩
def F.trsPart0.WEIGHT : Fld := ⟨63, 32⟩
def F.trsPart0.KEYSLOT : Fld := ⟨31, 24⟩
def F.trsPart0.VALID : Fld := ⟨16, 16⟩
def F.trsPart0.SITE : Fld := ⟨15, 0⟩
def F.trsPart1.DMAX : Fld := ⟨63, 32⟩
def F.trsPart1.DEWMA : Fld := ⟨31, 0⟩
def F.trsPart2.FRAMES : Fld := ⟨63, 32⟩
def F.trsPart2.NACKS : Fld := ⟨31, 16⟩
def F.trsPart2.STATE : Fld := ⟨1, 0⟩
def F.trsPart3.LASTRX : Fld := ⟨31, 0⟩
def F.trsRstat.RE : Fld := ⟨63, 32⟩
def F.trsRstat.ATTEMPTS : Fld := ⟨15, 8⟩
def F.trsRstat.DEC : Fld := ⟨7, 6⟩
def F.trsRstat.PHASE : Fld := ⟨2, 0⟩
def F.geoCfg0.SHELF_KIB : Fld := ⟨63, 48⟩
def F.geoCfg0.MEM_GIB : Fld := ⟨47, 32⟩
def F.geoCfg0.CDIES : Fld := ⟨31, 28⟩
def F.geoCfg0.DESKS : Fld := ⟨27, 24⟩
def F.geoCfg0.TALLBOYS : Fld := ⟨23, 16⟩
def F.geoCfg0.BENCHES : Fld := ⟨15, 0⟩
def F.geoCfg1.LDIES : Fld := ⟨47, 40⟩
def F.geoCfg1.LANES : Fld := ⟨39, 32⟩
def F.geoCfg1.PORTS : Fld := ⟨31, 24⟩
def F.geoCfg1.SPARES : Fld := ⟨23, 16⟩
def F.geoCfg1.PHYS_BENCHES : Fld := ⟨15, 0⟩
def F.numSeed.SEED : Fld := ⟨63, 0⟩
def F.numMode.REPRO : Fld := ⟨0, 0⟩
def F.numLadder.MODE : Fld := ⟨9, 8⟩
def F.numLadder.N : Fld := ⟨7, 0⟩
def F.numElogBase.BASE : Fld := ⟨49, 5⟩
def F.numElogCtl.EN : Fld := ⟨53, 53⟩
def F.numElogCtl.SIZE : Fld := ⟨52, 48⟩
def F.numElogCtl.TAIL : Fld := ⟨47, 24⟩
def F.numElogCtl.HEAD : Fld := ⟨23, 0⟩
def F.numElogStat.LOST : Fld := ⟨31, 0⟩
def F.mbxOwn.RSP : Fld := ⟨63, 32⟩
def F.mbxOwn.REQ : Fld := ⟨31, 0⟩
def F.mbxSubmit.MB : Fld := ⟨31, 0⟩
def F.mbxAck.MB : Fld := ⟨31, 0⟩
def F.mbxCtl.M31 : Fld := ⟨1, 1⟩
def F.mbxCtl.RWWR : Fld := ⟨0, 0⟩
def F.mbxStat.FWSTATE : Fld := ⟨63, 56⟩
def F.mbxStat.JOB : Fld := ⟨55, 48⟩
def F.mbxStat.BMDROP : Fld := ⟨47, 32⟩
def F.mbxStat.REJV : Fld := ⟨8, 8⟩
def F.mbxStat.REJMBX : Fld := ⟨4, 0⟩
def F.mbxRwin.BASE : Fld := ⟨49, 24⟩
def F.mbxAper.BASE : Fld := ⟨13, 0⟩
def F.clkStat.LOCK : Fld := ⟨37, 32⟩
def F.clkStat.FCHG : Fld := ⟨7, 7⟩
def F.clkStat.XB_FAIL : Fld := ⟨4, 4⟩
def F.clkStat.XA_FAIL : Fld := ⟨3, 3⟩
def F.clkFreq.ARITH : Fld := ⟨31, 20⟩
def F.clkFreq.MEM : Fld := ⟨17, 16⟩
def F.clkFreq.FAB : Fld := ⟨10, 0⟩
def F.clkTrim.ERR : Fld := ⟨47, 32⟩
def F.clkTrim.PORT : Fld := ⟨21, 16⟩
def F.clkTrim.SETTLED : Fld := ⟨3, 3⟩
def F.clkTrim.SRC : Fld := ⟨2, 0⟩
def F.clkXovr.COUNT : Fld := ⟨63, 32⟩
def F.clkXovr.LAST : Fld := ⟨1, 0⟩
def F.gtNowLo.NS : Fld := ⟨63, 32⟩
def F.gtNowLo.FRAC : Fld := ⟨31, 16⟩
def F.gtNowHi.SEC : Fld := ⟨47, 0⟩
def F.gtCfg.SLEW : Fld := ⟨63, 48⟩
def F.gtCfg.HOLD : Fld := ⟨47, 40⟩
def F.gtCfg.ASYM : Fld := ⟨39, 24⟩
def F.gtCfg.STEPTH : Fld := ⟨19, 4⟩
def F.gtCfg.SRC : Fld := ⟨1, 0⟩
def F.gtStat.OFFSET : Fld := ⟨63, 32⟩
def F.gtStat.PORT : Fld := ⟨21, 16⟩
def F.gtStat.SETREJ : Fld := ⟨7, 7⟩
def F.gtStat.STEP : Fld := ⟨6, 6⟩
def F.gtStat.SLEWING : Fld := ⟨5, 5⟩
def F.gtStat.EVER : Fld := ⟨4, 4⟩
def F.gtStat.VALID : Fld := ⟨3, 3⟩
def F.gtStat.STATE : Fld := ⟨2, 0⟩
def F.gtUnc.UMAX : Fld := ⟨63, 32⟩
def F.gtUnc.U : Fld := ⟨31, 0⟩
def F.gtSets.SEC : Fld := ⟨47, 0⟩
def F.gtSetn.NS : Fld := ⟨63, 32⟩
def F.gtSetn.FRAC : Fld := ⟨31, 16⟩
def F.gtPtp.DOMAIN : Fld := ⟨63, 56⟩
def F.gtPtp.PRIO1 : Fld := ⟨55, 48⟩
def F.gtPtp.PRIO2 : Fld := ⟨47, 40⟩
def F.gtPtp.CLASS : Fld := ⟨39, 32⟩
def F.gtPtp.LOGSYNC : Fld := ⟨27, 24⟩
def F.gtPtp.LOGDREQ : Fld := ⟨23, 20⟩
def F.gtPtp.LOGANN : Fld := ⟨19, 16⟩
def F.gtPtp.EN : Fld := ⟨0, 0⟩
def F.gtPtpId.ID : Fld := ⟨63, 0⟩
def F.gtPps.DELAY : Fld := ⟨63, 32⟩
def F.gtPps.OUTEN : Fld := ⟨1, 1⟩
def F.gtPps.SEEN : Fld := ⟨0, 0⟩
def F.gtPcal.TX : Fld := ⟨63, 32⟩
def F.gtPcal.RX : Fld := ⟨31, 0⟩
def F.rstCause.LEVEL : Fld := ⟨33, 32⟩
def F.rstCause.LINK : Fld := ⟨8, 8⟩
def F.rstCause.WDOG : Fld := ⟨7, 7⟩
def F.rstCause.THERM : Fld := ⟨6, 6⟩
def F.rstCause.HOT : Fld := ⟨5, 5⟩
def F.rstCause.PERST : Fld := ⟨4, 4⟩
def F.rstCause.CMD : Fld := ⟨3, 3⟩
def F.rstCause.EXT : Fld := ⟨2, 2⟩
def F.rstCause.POR : Fld := ⟨0, 0⟩
def F.rstCtl.HOTRST : Fld := ⟨1, 1⟩
def F.rstCtl.PERST : Fld := ⟨0, 0⟩
def F.rstStrap.ADC : Fld := ⟨13, 4⟩
def F.rstStrap.HOST : Fld := ⟨3, 3⟩
def F.rstStrap.POS : Fld := ⟨2, 0⟩
def F.rstBoot.GO : Fld := ⟨8, 8⟩
def F.rstBoot.TRIAL : Fld := ⟨5, 5⟩
def F.rstBoot.ALT : Fld := ⟨4, 4⟩
def F.rstBoot.BANK : Fld := ⟨3, 3⟩
def F.rstBoot.STATE : Fld := ⟨2, 0⟩
def F.pwrCap.CAP : Fld := ⟨15, 0⟩
def F.pwrStat.POOL : Fld := ⟨47, 32⟩
def F.pwrStat.THROT : Fld := ⟨17, 17⟩
def F.pwrStat.UNMET : Fld := ⟨16, 16⟩
def F.pwrStat.DRAW : Fld := ⟨15, 0⟩
def F.pwrDom.DRAW : Fld := ⟨63, 48⟩
def F.pwrDom.ALLOW : Fld := ⟨47, 32⟩
def F.pwrDom.BUD : Fld := ⟨31, 16⟩
def F.pwrDom.THR : Fld := ⟨6, 0⟩
def F.pwrDomu.DRAW : Fld := ⟨63, 48⟩
def F.pwrUcal.OFS : Fld := ⟨15, 0⟩
def F.clkMark.HOLDER : Fld := ⟨17, 16⟩
def F.clkMark.DBGEN : Fld := ⟨9, 9⟩
def F.clkMark.CALEN : Fld := ⟨8, 8⟩
def F.clkMark.GROUP : Fld := ⟨7, 0⟩
def F.clkAlarm.PERIOD : Fld := ⟨31, 16⟩
def F.clkAlarm.SWEEP : Fld := ⟨8, 8⟩
def F.clkAlarm.OWNER : Fld := ⟨1, 0⟩
def F.conflict.COUNT : Fld := ⟨63, 48⟩
def F.conflict.LASTRES : Fld := ⟨23, 20⟩
def F.conflict.LASTCLM : Fld := ⟨19, 16⟩
def F.conflict.ALARM : Fld := ⟨9, 8⟩
def F.conflict.STAGE : Fld := ⟨5, 4⟩
def F.conflict.MARK : Fld := ⟨2, 0⟩
def F.secStat.SVN : Fld := ⟨7, 0⟩
def F.secMeas.M : Fld := ⟨63, 0⟩
def F.secKey.TXEP : Fld := ⟨23, 16⟩
def F.secKey.EP1 : Fld := ⟨15, 8⟩
def F.secKey.EP0 : Fld := ⟨7, 0⟩
def F.secKey.V1 : Fld := ⟨25, 25⟩
def F.secKey.V0 : Fld := ⟨24, 24⟩
def F.evtRingBase.BASE : Fld := ⟨49, 5⟩
def F.evtRingCtl.TAIL : Fld := ⟨63, 32⟩
def F.evtRingCtl.EN : Fld := ⟨31, 31⟩
def F.evtRingCtl.SIZE : Fld := ⟨28, 24⟩
def F.evtSeq.SEQ : Fld := ⟨63, 0⟩
def F.evtStat.LOST : Fld := ⟨63, 32⟩
def F.evtStat.QLOST : Fld := ⟨31, 16⟩
def F.evtStat.QDEPTH : Fld := ⟨8, 0⟩
def F.evtMsix.HOLDOFF : Fld := ⟨47, 32⟩
def F.evtMsix.CMASK : Fld := ⟨10, 0⟩
def F.evtHealth.CAP : Fld := ⟨31, 16⟩
def F.evtHealth.STATE : Fld := ⟨1, 0⟩
def F.evtAvailT.US : Fld := ⟨63, 0⟩
def F.evtAvailU.US : Fld := ⟨63, 0⟩
def F.evtFltCtl.SUPPR : Fld := ⟨63, 32⟩
def F.evtFltCtl.TKOWAIT : Fld := ⟨15, 0⟩
def F.evtSpare.FAILED : Fld := ⟨31, 24⟩
def F.evtSpare.HOSTED : Fld := ⟨23, 16⟩
def F.evtSpare.RETIRED : Fld := ⟨15, 8⟩
def F.evtSpare.FREE : Fld := ⟨7, 0⟩

/-- The registers of a Bench block, by offset in the block, part 0. -/
def benchRegs0 : List RegDesc := [
  ⟨0x0, 0x8, 1, 0xf0000000000, 0x0, 0x0, 0x0, 0x0, 0x0, 0xf00ff1703ff, true⟩,
  ⟨0x10, 0x8, 2, 0x0, 0x0, 0x0, 0x300, 0x0, 0x0, 0xff000003, true⟩,
  ⟨0x20, 0x8, 2, 0x0, 0xfffffffffffffff8, 0x0, 0x0, 0x0, 0x0, 0x0, true⟩,
  ⟨0x30, 0x8, 3, 0x0, 0x0, 0x0, 0x0, 0x0, 0x0, 0xffffffffffffffff, true⟩,
  ⟨0x50, 0x8, 1, 0x110000, 0xff0000, 0x0, 0x0, 0x0, 0x0, 0xfff, true⟩,
  ⟨0x60, 0x8, 1, 0x400000017f, 0x1ffff000001ff, 0x0, 0x2000000000000, 0x0, 0x0, 0x0, true⟩,
  ⟨0x68, 0x8, 1, 0x0, 0x0, 0x0, 0x0, 0x0, 0x0, 0xffffffffffdfff3f, true⟩,
  ⟨0x70, 0x8, 1, 0x0, 0x0, 0x0, 0x0, 0x0, 0x0, 0xffffffffffffffff, true⟩,
  ⟨0x400, 0x8, 2, 0x0, 0xffffffffffff, 0x0, 0x0, 0x0, 0x0, 0x0, true⟩,
  ⟨0x410, 0x8, 1, 0x17, 0x17, 0x0, 0x0, 0x0, 0x0, 0x0, true⟩,
  ⟨0x418, 0x8, 1, 0x0, 0x0, 0xf, 0x0, 0x0, 0x0, 0x0, true⟩,
  ⟨0x420, 0x8, 2, 0x0, 0x0, 0x0, 0x0, 0x0, 0x0, 0xffffffffbfffffff, true⟩,
  ⟨0x440, 0x20, 3, 0x0, 0x0, 0x30000, 0x0, 0x0, 0x0, 0xffffff00fffc8000, true⟩,
  ⟨0x448, 0x20, 3, 0x0, 0x0, 0x0, 0x0, 0x0, 0x0, 0xffffffffffffffff, true⟩,
  ⟨0x450, 0x20, 3, 0x0, 0x0, 0x0, 0x0, 0x0, 0x0, 0xfffffffff, true⟩,
  ⟨0x458, 0x20, 3, 0x0, 0x0, 0x0, 0x0, 0x0, 0x0, 0xffffffffffffffff, true⟩,
  ⟨0x800, 0x80, 4, 0x200, 0x333, 0x0, 0x0, 0x0, 0x0, 0x0, true⟩,
  ⟨0x808, 0x80, 4, 0x200000000000, 0x0, 0x10000000000, 0x0, 0x0, 0x0, 0xf8bfffffffff, true⟩,
  ⟨0x810, 0x80, 4, 0x0, 0x0, 0x0, 0x0, 0x0, 0x0, 0xfffffffff, true⟩,
  ⟨0x818, 0x80, 4, 0x0, 0x0, 0x0, 0x0, 0x0, 0x0, 0xffffffffffff, true⟩,
  ⟨0x820, 0x80, 4, 0x0, 0x0, 0x0, 0x0, 0x0, 0x0, 0xffffffffffff, true⟩,
  ⟨0x828, 0x80, 4, 0x0, 0x0, 0x0, 0x0, 0x0, 0x0, 0xffffffffffffffff, true⟩,
  ⟨0x830, 0x80, 4, 0x0, 0x0, 0x700000000, 0x0, 0x0, 0x0, 0xf0000ffffffff, true⟩,
  ⟨0x838, 0x80, 4, 0x4003, 0xffff07, 0x0, 0x0, 0x0, 0xf00000000, 0x0, true⟩]
/-- The registers of a Bench block, by offset in the block, part 1. -/
def benchRegs1 : List RegDesc := [
  ⟨0x840, 0x80, 4, 0x0, 0x0, 0xf, 0x0, 0x0, 0x0, 0x0, true⟩,
  ⟨0xa00, 0x8, 1, 0x0, 0x0, 0x0, 0x0, 0x0, 0x0, 0x1fffff, true⟩,
  ⟨0xa08, 0x8, 1, 0x0, 0x0, 0x10000, 0x0, 0x0, 0x0, 0xff00003f8f, true⟩,
  ⟨0xa10, 0x8, 1, 0x0, 0x0, 0x0, 0x0, 0x0, 0x0, 0xffffffffffffffff, true⟩,
  ⟨0xa18, 0x8, 1, 0x0, 0x0, 0x0, 0x0, 0x0, 0x0, 0xffffffffffff, true⟩,
  ⟨0xa40, 0x8, 1, 0x0, 0x0, 0x0, 0x0, 0x0, 0x0, 0xffffffff00000003, true⟩,
  ⟨0xa48, 0x8, 1, 0x0, 0x0, 0x0, 0x0, 0x0, 0x0, 0xffffffff, true⟩,
  ⟨0xa50, 0x8, 1, 0x0, 0x0, 0x100, 0x0, 0x0, 0x0, 0xffff0000000f, true⟩,
  ⟨0xa58, 0x8, 1, 0x0, 0x0, 0x0, 0x0, 0x0, 0x0, 0xffffffffffffffff, true⟩,
  ⟨0xa60, 0x8, 1, 0x0, 0x0, 0x0, 0x0, 0x0, 0x3, 0x0, true⟩]
/-- The registers of a Bench block, by offset in the block. -/
def benchRegs : List RegDesc := benchRegs0 ++ benchRegs1

/-- The registers outside the Bench blocks, by local address, part 0. -/
def moduleRegs0 : List RegDesc := [
  ⟨0x2010000000000, 0x1000000, 16, 0x30000000, 0x0, 0x0, 0x0, 0x0, 0x0, 0xfffffffffffff007, false⟩,
  ⟨0x2010000000008, 0x1000000, 16, 0x0, 0x0, 0x0, 0x0, 0x0, 0x0, 0xffffffffffffffff, false⟩,
  ⟨0x2010000000010, 0x1000000, 16, 0x0, 0x0, 0x100, 0x0, 0x0, 0x0, 0xfff003, false⟩,
  ⟨0x2010000000020, 0x1000000, 16, 0x118, 0x1ff, 0x0, 0x0, 0x0, 0x0, 0xffffffff00000000, false⟩,
  ⟨0x2010000000028, 0x1000000, 16, 0x4000004, 0xffff000f, 0x0, 0x0, 0x0, 0x0, 0x0, false⟩,
  ⟨0x2010000000038, 0x1000000, 16, 0x0, 0x0, 0x0, 0x0, 0x0, 0x7, 0x0, false⟩,
  ⟨0x2010000000018, 0x1000000, 16, 0x0, 0x0, 0x0, 0x0, 0x0, 0x0, 0xffffffffffffffff, false⟩,
  ⟨0x2010000000030, 0x1000000, 16, 0x111111, 0xffffff, 0x0, 0x0, 0x0, 0x0, 0x0, false⟩,
  ⟨0x2010000000100, 0x8, 8, 0x0, 0xffffffffffffffff, 0x0, 0x0, 0x0, 0x0, 0x0, false⟩,
  ⟨0x2010000000140, 0x8, 1, 0x0, 0x0, 0x100, 0x0, 0x0, 0x0, 0xffffffff00000e00, false⟩,
  ⟨0x2010000000148, 0x8, 1, 0x0, 0x0, 0x0, 0x0, 0x0, 0x0, 0xffffffffffffffff, false⟩,
  ⟨0x2010000000180, 0x8, 1, 0x7ffffffc0, 0xffffffffffffffc0, 0x0, 0x0, 0x0, 0x0, 0x0, false⟩,
  ⟨0x2010000000188, 0x8, 1, 0x0, 0x3, 0x0, 0x0, 0x0, 0x0, 0x0, false⟩,
  ⟨0x2010000800000, 0x1000000, 16, 0x3e8000000000000, 0xffff00ff00000003, 0x0, 0x0, 0x0, 0x0, 0x0, false⟩,
  ⟨0x2010000800008, 0x1000000, 16, 0x0, 0x0, 0x8, 0x0, 0x0, 0x0, 0xfffff000fff07, true⟩,
  ⟨0x2010000800010, 0x1000000, 16, 0x0, 0xfffbffffffffff80, 0x0, 0x0, 0x0, 0x0, 0x0, false⟩,
  ⟨0x2010000800018, 0x1000000, 16, 0x0, 0x3ffffffffffc0, 0x0, 0x0, 0x0, 0x0, 0x0, false⟩,
  ⟨0x2010000800020, 0x1000000, 16, 0x0, 0x3ffffffffffc0, 0x0, 0x0, 0x0, 0x0, 0x0, false⟩,
  ⟨0x2010000800028, 0x1000000, 16, 0x10000, 0x3f1fff, 0x0, 0x0, 0x0, 0x0, 0xffffffff00000000, false⟩,
  ⟨0x2010000800030, 0x8, 1, 0x0, 0xffff3fff3fff7fff, 0x0, 0x0, 0x0, 0x0, 0x0, false⟩,
  ⟨0x2010000800038, 0x8, 1, 0x0, 0xffff0fffffffffff, 0x0, 0x0, 0x0, 0x0, 0x0, false⟩,
  ⟨0x2010000800040, 0x8, 1, 0x0, 0x3ffffffffffc0, 0x0, 0x0, 0x0, 0x0, 0x0, false⟩,
  ⟨0x2010000800048, 0x8, 1, 0x0, 0x3ffffffffffe0, 0x0, 0x0, 0x0, 0x0, 0x0, false⟩,
  ⟨0x2010000800050, 0x8, 1, 0xc000000000000, 0x3fffffff000000, 0x0, 0x0, 0x0, 0x0, 0xffffff, false⟩]
/-- The registers outside the Bench blocks, by local address, part 1. -/
def moduleRegs1 : List RegDesc := [
  ⟨0x2010000800058, 0x8, 1, 0x0, 0x0, 0x0, 0x0, 0x0, 0x0, 0xffffffff, true⟩,
  ⟨0x2010000800060, 0x1000000, 16, 0x0, 0xffffffffffffffff, 0x0, 0x0, 0x0, 0x0, 0x0, false⟩,
  ⟨0x2010000800068, 0x1000000, 16, 0x1400, 0xffff1f03, 0x0, 0x0, 0x0, 0x0, 0x0, false⟩,
  ⟨0x2010000800070, 0x1000000, 16, 0x0, 0x3fffffffffff8, 0x0, 0x0, 0x0, 0x0, 0x0, false⟩,
  ⟨0x2010000800078, 0x1000000, 16, 0x0, 0x0, 0x0, 0x0, 0x0, 0x0, 0xffffffffffffffff, true⟩,
  ⟨0x2010000800080, 0x1000000, 16, 0x0, 0x0, 0x0, 0x0, 0x0, 0x0, 0xffffffffffffffff, true⟩,
  ⟨0x2010000800088, 0x1000000, 16, 0x0, 0x3fffffffffff8, 0x0, 0x0, 0x0, 0x0, 0x0, false⟩,
  ⟨0x2010000800090, 0x1000000, 16, 0x0, 0x0, 0x10000, 0x0, 0x0, 0x0, 0xffffffff00000000, true⟩,
  ⟨0x2010000800098, 0x1000000, 16, 0x0, 0x0, 0x0, 0x0, 0x0, 0x0, 0xffffffff, true⟩,
  ⟨0x20100008000a0, 0x1000000, 16, 0x0, 0x0, 0x0, 0x0, 0x0, 0x0, 0xffffffffffffffff, true⟩,
  ⟨0x20100008000a8, 0x1000000, 16, 0x0, 0x0, 0x100000000, 0x0, 0x0, 0x0, 0x2ffffffff, true⟩,
  ⟨0x2020000000000, 0x8, 1, 0x3fff, 0x0, 0x0, 0x0, 0xff00000000003fff, 0x0, 0x10000, false⟩,
  ⟨0x2020000000008, 0x8, 1, 0x324600, 0xfffff707, 0x0, 0x0, 0x0, 0x0, 0x0, false⟩,
  ⟨0x2020000000010, 0x8, 1, 0x0, 0x0, 0x0, 0x0, 0x0, 0x0, 0xffffffffffffffff, false⟩,
  ⟨0x2020000000018, 0x8, 1, 0x0, 0x0, 0x10000, 0x0, 0x0, 0x0, 0xffff00ff00003fff, false⟩,
  ⟨0x2020000000020, 0x8, 1, 0x0, 0x0, 0x0, 0x0, 0x0, 0x0, 0xffffffffffffffff, false⟩,
  ⟨0x2020000000100, 0x8, 8, 0xffff00000100, 0xffff00000f03, 0x0, 0x0, 0x0, 0x0, 0xffff000000000000, false⟩,
  ⟨0x2020000000180, 0x8, 16, 0x0, 0xf7ffffffff, 0x0, 0x0, 0x0, 0x0, 0x0, false⟩,
  ⟨0x2020000001000, 0x40, 36, 0x8100, 0xf103, 0x0, 0x0, 0x0, 0x200, 0x0, false⟩,
  ⟨0x2020000001008, 0x40, 36, 0x0, 0x0, 0x0, 0x0, 0x0, 0x0, 0xffff00000f07, false⟩,
  ⟨0x2020000001010, 0x40, 36, 0x0, 0x0, 0x0, 0x0, 0x0, 0x0, 0xffffffffffffffff, false⟩,
  ⟨0x2020000100000, 0x10, 16384, 0x0, 0xfffffffff, 0x0, 0x0, 0x0, 0x0, 0x0, false⟩,
  ⟨0x2020000100008, 0x10, 16384, 0x0, 0x8000000fffffffff, 0x0, 0x0, 0x0, 0x0, 0x0, false⟩,
  ⟨0x2028000000000, 0x8, 65536, 0x0, 0xffffffff, 0x300000000, 0x0, 0x0, 0x0, 0x0, false⟩]
/-- The registers outside the Bench blocks, by local address, part 2. -/
def moduleRegs2 : List RegDesc := [
  ⟨0x2028000080000, 0x8, 1, 0xf4240, 0xffffff, 0x0, 0x0, 0x0, 0x0, 0x0, false⟩,
  ⟨0x2028000080008, 0x8, 1, 0x10010, 0x1ffff, 0x0, 0x0, 0x0, 0x0, 0x0, false⟩,
  ⟨0x2028000080010, 0x8, 1, 0x0, 0x0, 0x0, 0x0, 0x0, 0x0, 0xffffffffffff7fff, false⟩,
  ⟨0x2028000080100, 0x8, 13, 0x0, 0x0, 0x0, 0x0, 0x0, 0x0, 0xffffffffffffffff, false⟩,
  ⟨0x2030000000000, 0x8, 1, 0x10004, 0xf3107, 0x0, 0x0, 0x0, 0x0, 0x0, false⟩,
  ⟨0x2030000000008, 0x8, 1, 0x0, 0x0, 0xe0, 0x0, 0x0, 0x0, 0xffff0000001f, false⟩,
  ⟨0x2030000000010, 0x8, 1, 0x0, 0xffffffff3fffffff, 0x0, 0x0, 0x0, 0x0, 0x0, false⟩,
  ⟨0x2030000000018, 0x8, 1, 0x0, 0xffffffffffff, 0x0, 0x0, 0x0, 0x0, 0x0, false⟩,
  ⟨0x2030000000020, 0x8, 1, 0xea6000000000, 0xffffffff3fffffff, 0x0, 0x0, 0x0, 0x0, 0x0, false⟩,
  ⟨0x2030000000028, 0x8, 1, 0x3f800000, 0xffffffffffffffff, 0x0, 0x0, 0x0, 0x0, 0x0, false⟩,
  ⟨0x2030000000030, 0x8, 1, 0x3f000000, 0xffffffff, 0x0, 0x0, 0x0, 0x0, 0x0, false⟩,
  ⟨0x2030000000038, 0x8, 1, 0x3e80044, 0xffff00ff, 0x0, 0x0, 0x0, 0x0, 0xffffffff00000000, false⟩,
  ⟨0x2030000000040, 0x8, 1, 0x7530, 0xffffffff, 0x0, 0x0, 0x0, 0x0, 0x0, false⟩,
  ⟨0x2030000000048, 0x8, 1, 0x0, 0x0, 0x0, 0x0, 0x0, 0x0, 0x1ffffffff, false⟩,
  ⟨0x2030000000050, 0x8, 1, 0x0, 0x3ffffffffffc0, 0x0, 0x0, 0x0, 0x0, 0x0, false⟩,
  ⟨0x2030000000058, 0x8, 1, 0x0, 0x3ffffffffffc0, 0x0, 0x0, 0x0, 0x0, 0x0, false⟩,
  ⟨0x2030000000060, 0x8, 1, 0x0, 0x3ffffffffffc0, 0x0, 0x0, 0x0, 0x0, 0x0, false⟩,
  ⟨0x2030000000068, 0x8, 1, 0x1e00000000000000, 0x3f03ffffffff0000, 0x0, 0x0, 0x0, 0x0, 0x0, false⟩,
  ⟨0x2030000000070, 0x8, 1, 0x0, 0x3ffffffffffe0, 0x0, 0x0, 0x0, 0x0, 0x0, false⟩,
  ⟨0x2030000000078, 0x8, 1, 0xc000000000000, 0x3fffffff000000, 0x0, 0x0, 0x0, 0x0, 0xffffff, false⟩,
  ⟨0x2030000000080, 0x8, 1, 0x0, 0x0, 0x0, 0x0, 0x0, 0x0, 0xffffffff, false⟩,
  ⟨0x2030000000088, 0x8, 1, 0x0, 0x0, 0x10000, 0x0, 0x0, 0x0, 0xffffffff00000000, false⟩,
  ⟨0x2030000000090, 0x8, 1, 0x0, 0x0, 0x0, 0x0, 0x0, 0x0, 0xffffffff, false⟩,
  ⟨0x2030000000098, 0x8, 1, 0x0, 0x0, 0x0, 0x0, 0x0, 0x0, 0xffffffffffffffff, false⟩]
/-- The registers outside the Bench blocks, by local address, part 3. -/
def moduleRegs3 : List RegDesc := [
  ⟨0x20300000000a0, 0x8, 1, 0x0, 0x0, 0x0, 0x0, 0x0, 0x0, 0xffffffffffffffff, false⟩,
  ⟨0x20300000000a8, 0x8, 1, 0x0, 0x0, 0x0, 0x0, 0x0, 0x0, 0xffffffffffffffff, false⟩,
  ⟨0x20300000000b0, 0x8, 1, 0x0, 0x3ffffffffffc0, 0x0, 0x0, 0x0, 0x0, 0x0, false⟩,
  ⟨0x20300000000b8, 0x8, 1, 0x0, 0x3ffffffffffc0, 0x0, 0x0, 0x0, 0x0, 0x0, false⟩,
  ⟨0x20300000000c0, 0x8, 1, 0x10010, 0x1ffff, 0x0, 0x0, 0x0, 0x0, 0x0, false⟩,
  ⟨0x20300000000c8, 0x8, 1, 0x0, 0x1ffff, 0x0, 0x0, 0x0, 0x0, 0x20000, false⟩,
  ⟨0x2030000001000, 0x8, 256, 0x0, 0x800007ffffffffff, 0x0, 0x0, 0x0, 0x0, 0x0, false⟩,
  ⟨0x2030000002000, 0x20, 256, 0x0, 0xffffffffff01ffff, 0x0, 0x0, 0x0, 0x0, 0x0, false⟩,
  ⟨0x2030000002008, 0x20, 256, 0x0, 0x0, 0x0, 0x0, 0x0, 0x0, 0xffffffffffffffff, false⟩,
  ⟨0x2030000002010, 0x20, 256, 0x0, 0x0, 0x0, 0x0, 0x0, 0x0, 0xffffffffffff0003, false⟩,
  ⟨0x2030000002018, 0x20, 256, 0x0, 0x0, 0x0, 0x0, 0x0, 0x0, 0xffffffff, false⟩,
  ⟨0x2030000004000, 0x8, 256, 0x0, 0x0, 0x0, 0x0, 0x0, 0x0, 0xffffffff0000ffc7, false⟩,
  ⟨0x2040000001000, 0x8, 1, 0xc00060084100320, 0x0, 0x0, 0x0, 0x0, 0x0, 0xffffffffffffffff, false⟩,
  ⟨0x2040000001008, 0x8, 1, 0x20424040340, 0x0, 0x0, 0x0, 0x0, 0x0, 0xffffffffffff, false⟩,
  ⟨0x2040000001100, 0x8, 1, 0x0, 0xffffffffffffffff, 0x0, 0x0, 0x0, 0x0, 0x0, false⟩,
  ⟨0x2040000001108, 0x8, 1, 0x0, 0x1, 0x0, 0x0, 0x0, 0x0, 0x0, false⟩,
  ⟨0x2040000001110, 0x8, 1, 0x210, 0x3ff, 0x0, 0x0, 0x0, 0x0, 0x0, false⟩,
  ⟨0x2040000001118, 0x8, 1, 0x0, 0x3ffffffffffe0, 0x0, 0x0, 0x0, 0x0, 0x0, false⟩,
  ⟨0x2040000001120, 0x8, 1, 0xc000000000000, 0x3fffffff000000, 0x0, 0x0, 0x0, 0x0, 0xffffff, false⟩,
  ⟨0x2040000001128, 0x8, 1, 0x0, 0x0, 0x0, 0x0, 0x0, 0x0, 0xffffffff, false⟩,
  ⟨0x2040000002000, 0x8, 1, 0x0, 0x0, 0x0, 0x0, 0x0, 0x0, 0xffffffffffffffff, false⟩,
  ⟨0x2040000002008, 0x8, 1, 0x0, 0x0, 0x0, 0x0, 0x0, 0xffffffff, 0x0, false⟩,
  ⟨0x2040000002010, 0x8, 1, 0x0, 0x0, 0x0, 0x0, 0x0, 0xffffffff, 0x0, false⟩,
  ⟨0x2040000002018, 0x8, 1, 0x0, 0x3, 0x0, 0x0, 0x0, 0x0, 0x0, false⟩]
/-- The registers outside the Bench blocks, by local address, part 4. -/
def moduleRegs4 : List RegDesc := [
  ⟨0x2040000002020, 0x8, 1, 0x0, 0x0, 0x100, 0x0, 0x0, 0x0, 0xffffffff0000001f, false⟩,
  ⟨0x2040000002028, 0x8, 1, 0x2000000000000, 0x3ffffff000000, 0x0, 0x0, 0x0, 0x0, 0x0, false⟩,
  ⟨0x2040000002030, 0x8, 1, 0x0, 0x3fff, 0x0, 0x0, 0x0, 0x0, 0x0, false⟩,
  ⟨0x2050000000000, 0x8, 1, 0x0, 0x0, 0x0, 0x0, 0x0, 0x0, 0x3f00000098, false⟩,
  ⟨0x2050000000008, 0x8, 1, 0x320003e8, 0x307ff, 0x0, 0x0, 0x0, 0x0, 0xfff00000, false⟩,
  ⟨0x2050000000010, 0x8, 1, 0x0, 0x0, 0x0, 0x0, 0x0, 0x0, 0xffff003f000f, false⟩,
  ⟨0x2050000000018, 0x8, 1, 0x0, 0x0, 0x0, 0x0, 0x0, 0x0, 0xffffffff00000003, false⟩,
  ⟨0x2050000000100, 0x8, 1, 0x0, 0x0, 0x0, 0x0, 0x0, 0x0, 0xffffffffffff0000, false⟩,
  ⟨0x2050000000108, 0x8, 1, 0x0, 0x0, 0x0, 0x0, 0x0, 0x0, 0xffffffffffff, false⟩,
  ⟨0x2050000000110, 0x8, 1, 0x640a00c8003e80, 0xffffffffff0ffff3, 0x0, 0x0, 0x0, 0x0, 0x0, false⟩,
  ⟨0x2050000000118, 0x8, 1, 0x0, 0x0, 0xc0, 0x0, 0x0, 0x0, 0xffffffff003f003f, false⟩,
  ⟨0x2050000000120, 0x8, 1, 0xf4240ffffffff, 0xffffffff00000000, 0x0, 0x0, 0x0, 0x0, 0xffffffff, false⟩,
  ⟨0x2050000000128, 0x8, 1, 0x0, 0xffffffffffff, 0x0, 0x0, 0x0, 0x0, 0x0, false⟩,
  ⟨0x2050000000130, 0x8, 1, 0x0, 0x0, 0x0, 0x0, 0x0, 0xffffffffffff0000, 0x0, false⟩,
  ⟨0x2050000000138, 0x8, 1, 0xfffff80cc00001, 0xffffffff0fff0001, 0x0, 0x0, 0x0, 0x0, 0x0, false⟩,
  ⟨0x2050000000140, 0x8, 1, 0x0, 0x0, 0x0, 0x0, 0x0, 0x0, 0xffffffffffffffff, false⟩,
  ⟨0x2050000000148, 0x8, 1, 0x0, 0xffffffff00000002, 0x0, 0x0, 0x0, 0x0, 0x1, false⟩,
  ⟨0x2050000000200, 0x8, 36, 0x0, 0xffffffffffffffff, 0x0, 0x0, 0x0, 0x0, 0x0, false⟩,
  ⟨0x2050000000400, 0x8, 1, 0x300000001, 0x0, 0x1fd, 0x0, 0x0, 0x0, 0x300000000, false⟩,
  ⟨0x2050000000408, 0x8, 1, 0x1, 0x3, 0x0, 0x0, 0x0, 0x0, 0x0, false⟩,
  ⟨0x2050000000410, 0x8, 1, 0x0, 0x0, 0x0, 0x0, 0x0, 0x0, 0x3fff, false⟩,
  ⟨0x2050000000418, 0x8, 1, 0x0, 0x0, 0x0, 0x0, 0x0, 0x100, 0x3f, false⟩,
  ⟨0x2050000000500, 0x8, 1, 0x2904, 0xffff, 0x0, 0x0, 0x0, 0x0, 0x0, false⟩,
  ⟨0x2050000000508, 0x8, 1, 0x0, 0x0, 0x10000, 0x0, 0x0, 0x0, 0xffff0002ffff, false⟩]
/-- The registers outside the Bench blocks, by local address, part 5. -/
def moduleRegs5 : List RegDesc := [
  ⟨0x2050000000600, 0x8, 8, 0x34803480040, 0xffff0000, 0x0, 0x0, 0x0, 0x0, 0xffffffff0000007f, false⟩,
  ⟨0x2050000000640, 0x8, 19, 0x0, 0x0, 0x0, 0x0, 0x0, 0x0, 0xffff000000000000, false⟩,
  ⟨0x2050000000708, 0x8, 33, 0x0, 0xffff, 0x0, 0x0, 0x0, 0x0, 0x0, false⟩,
  ⟨0x2050000000900, 0x8, 1, 0x0, 0x3ff, 0x0, 0x0, 0x0, 0x0, 0x30000, false⟩,
  ⟨0x2050000000908, 0x8, 1, 0x3e80000, 0xffff0100, 0x0, 0x0, 0x0, 0x0, 0x3, false⟩,
  ⟨0x2050000000910, 0x8, 1, 0x0, 0x0, 0x337, 0x0, 0x0, 0x0, 0xffff000000ff0000, false⟩,
  ⟨0x2060000000000, 0x8, 1, 0x0, 0x0, 0x0, 0x0, 0x0, 0x0, 0xff, false⟩,
  ⟨0x2060000000100, 0x8, 20, 0x0, 0x0, 0x0, 0x0, 0x0, 0x0, 0xffffffffffffffff, false⟩,
  ⟨0x2060000001000, 0x8, 256, 0x0, 0xff0000, 0x0, 0x0, 0x0, 0x0, 0x300ffff, false⟩,
  ⟨0x2070000000000, 0x8, 1, 0x0, 0x3ffffffffffe0, 0x0, 0x0, 0x0, 0x0, 0x0, false⟩,
  ⟨0x2070000000008, 0x8, 1, 0xc000000, 0xffffffff9f000000, 0x0, 0x0, 0x0, 0x0, 0x0, false⟩,
  ⟨0x2070000000010, 0x8, 1, 0x0, 0x0, 0x0, 0x0, 0x0, 0x0, 0xffffffffffffffff, false⟩,
  ⟨0x2070000000018, 0x8, 1, 0x0, 0x0, 0x0, 0x0, 0x0, 0x0, 0xffffffffffff01ff, false⟩,
  ⟨0x2070000000020, 0x8, 1, 0x6400000000, 0xffff000007ff, 0x0, 0x0, 0x0, 0x0, 0x0, false⟩,
  ⟨0x2070000000100, 0x8, 1, 0xffff0000, 0x0, 0x0, 0x0, 0x0, 0x0, 0xffff0003, false⟩,
  ⟨0x2070000000108, 0x8, 1, 0x0, 0x0, 0x0, 0x0, 0x0, 0x0, 0xffffffffffffffff, false⟩,
  ⟨0x2070000000110, 0x8, 1, 0x0, 0x0, 0x0, 0x0, 0x0, 0x0, 0xffffffffffffffff, false⟩,
  ⟨0x2070000000118, 0x8, 1, 0x32, 0xffff, 0x0, 0x0, 0x0, 0x0, 0xffffffff00000000, false⟩,
  ⟨0x2070000000140, 0x8, 8, 0x0, 0x0, 0x0, 0x0, 0x0, 0x0, 0xffffffff, false⟩]
/-- The registers outside the Bench blocks, by local address. -/
def moduleRegs : List RegDesc := moduleRegs0 ++ moduleRegs1 ++ moduleRegs2 ++ moduleRegs3 ++ moduleRegs4 ++ moduleRegs5

/-- The kind of register at an offset of a list, if one is there. -/
def findReg : List RegDesc → Nat → Option RegDesc
  | [], _ => none
  | d :: r, o =>
    if d.base ≤ o && decide ((o - d.base) / d.stride < d.count) && (o - d.base) % d.stride == 0 then some d
    else findReg r o

/-- The kind of register at a local address (10 R289); none where the address is reserved (00 R11). -/
def regDesc (a : Nat) : Option RegDesc :=
  if a < regBase then none
  else if a < regBase + 800 * 0x10000 then findReg benchRegs ((a - regBase) % 0x10000)
  else findReg moduleRegs a

/-- The reset value of the register at a local address (00 R3; each register's own table). `DCLS` of
`TMR_TC_c` is floor(c / 2) (10 R320); `CDIE` and `PHYS` of `BENCH_ID` are those of a module without
defective Benches until the map of 01 R19 is built. -/
def regReset (a : Nat) : Word :=
  match regDesc a with
  | none => 0
  | some d =>
    if a < regBase + 800 * 0x10000 ∧ (a - regBase) % 0x10000 = 0 then
      let b := (a - regBase) / 0x10000
      BitVec.ofNat 64 (d.reset + (b / 100) * 0x10000 + (104 * (b / 100) + b % 100))
    else if A.tmrTc 0 ≤ a ∧ a ≤ A.tmrTc 7 then BitVec.ofNat 64 (d.reset + (a - A.tmrTc 0) / 16)
    else BitVec.ofNat 64 d.reset

end Sys2Proof.Machine
end

