-- ==== Sys2Proof/Machine/State.lean ====
section
/-!
DEFINITION. The state of one G48 module. Every register of the spec's tables is held in `regs`, keyed by
its local address (10 R288, R289); a register not listed holds its reset value (`regReset`). What is no
register of the spec is held in typed fields. Time is counted in periods of the arithmetic clock (`pulse`).
-/
namespace Sys2Proof.Machine

/-- Why a step stops. No fault stops the G48 itself: the one stop is of a command that its sender could not have sent. -/
inductive Fault where
  /-- Raised by a command whose operands describe no transaction that the spec has, such as a read of
  more than 256 B (10 R295). Safe: the hardware never receives it. -/
  | noSuchTransaction
  deriving DecidableEq, Repr

/-- Why a command has no meaning. -/
inductive Refusal where
  /-- Raised by the arm of a command that has no meaning yet. Safe. -/
  | notModelled (mnemonic : String)
  deriving DecidableEq, Repr

/-- A wait of a context at a counter, and how far it has come (11 R325 to R333). -/
inductive WaitPhase where
  | due        -- held at its source by a traffic quota, or between two BUSY answers
  | sent       -- the wait is on its way to its home, or its answer on the way back
  | busy       -- answered BUSY; sent again 2 µs later (11 R329)
  | held       -- answered HELD (11 R328)
  | cancelStop -- CANCEL sent because the context is being stopped (11 R333)
  | cancelBack -- CANCEL sent by the backstop (11 R333)
  deriving DecidableEq, Repr

/-- A `WAIT` of a context. `at` and `heldAt` are times of issue and of the last answer. -/
structure WaitSt where
  rd : Nat
  counter : Nat
  threshold : Nat
  consume : Bool
  tmo : Nat
  issuedAt : Nat
  phaseAt : Nat
  phase : WaitPhase
  deriving DecidableEq, Repr

/-- What a BLOCKED context waits for (04 R104). -/
inductive Blk where
  | issue                                              -- an instruction at issue that cannot issue yet
  | lease (mask : Nat) (since : Nat)                   -- `DESK.L` (04 R117), and when it issued
  | defer (image : Nat)                                -- `DEFER` on a full list (04 R119)
  | flush                                              -- the flush form of `DEFER` (04 R119)
  | dend                                               -- `DEND` (04 R122)
  | fence (scope : Nat)                                -- 0 Bench, 1 module, 2 domain (04 R135)
  | wait (w : WaitSt)
  | restore (counter : Nat)                            -- what a stopped `WAIT` consumed is given back (11 R333)
  | take (rd counter : Nat)
  | lopen (word ltag rung lad since : Nat)
  | lcommitFence (rd word n since : Nat)               -- step 1 of 06 R188
  | lcommit (rd word n since : Nat)                    -- the arrival is sent
  deriving DecidableEq, Repr

/-- A stop that has yet to take effect (04 R105, 11 R333). `back`: the scalar load to which a precise stop returns the PC
(06 R180). -/
structure StopReq where
  cause : Nat
  faddr : Option Nat
  back : Option Nat
  deriving DecidableEq, Repr

/-- An outstanding scalar load (04 R106): destination, width, address, the instruction's address, the
layer it was issued in. -/
structure Load where
  rd : Nat
  size : Nat
  addr : Nat
  pc : Nat
  lgen : Nat
  deriving DecidableEq, Repr

/-- An incomplete scalar store: the line of its location (10 R303) and whether it left the module. -/
structure StoreRec where
  line : Nat
  far : Bool
  deriving DecidableEq, Repr

/-- The registers and the control state of one context (04 R103 to R110). A register not listed reads
zero: its contents after reset are undefined in the spec (04 R110; log 1). `waitNo`, `lgen` number the
context's waits and opened layers; they are the model's own. `begun` holds the pulse of a start after which the context
has issued nothing (04 R143). -/
structure CtxSt where
  s : FMap Word
  v : FMap VWord
  t : FMap TWord
  p : FMap TWord
  pc : Nat
  blk : Option Blk
  stopping : Option StopReq
  loads : List Load
  stores : List StoreRec
  sigs : List Nat
  waitNo : Nat
  lgen : Nat
  abortDue : Option Bool
  begun : Option Nat
  deriving DecidableEq, Repr

/-- A running entry of the deferred list (04 R118, R121). -/
structure Entry where
  off : Nat
  mask : Nat
  src : Nat
  step : Nat
  deriving DecidableEq, Repr

/-- A move outstanding (05 R149, R150): what was captured at issue, the far bytes that have come with the
cause of failure of each (0 none), the far addresses asked for, how many of its transactions are unanswered,
whether its far writes have been sent, the next block of an expand move and whether the expander is done
with it, and the pieces of its far side in this module that a clock crossing has lost (14 R407). -/
structure Move where
  ctx : Ctx
  pc : Nat
  desc : Nat
  op : Nat
  dir : Nat
  sg : Bool
  cnt : Nat
  addr : Nat
  fstride : Nat
  ffmt : Nat
  fscl : Bool
  saddr : Nat
  sstride : Nat
  step : Nat
  seed : Word
  lgen : Nat
  far : FMap (Byte × Nat)
  asked : List Nat
  unanswered : Nat
  sent : Bool
  next : Nat
  expDone : Bool
  lost : List Nat
  deriving DecidableEq, Repr

/-- Lending of a Bench's Desk power (11 R338, R339): when a context or a Desk last came to rest, whether it
lends, when the Desks become usable again, until when and since when they run at half rate. -/
structure Lend where
  since : Nat
  lending : Bool
  ungateAt : Option Nat
  halfUntil : Option Nat
  halfSince : Nat
  deriving DecidableEq, Repr

/-- A takeover in progress (16 R450, R451). -/
structure Takeover where
  since : Nat
  forced : Bool
  spare : Option Nat
  deriving DecidableEq, Repr

/-- What a Bench holds beside its registers, its Desks and its Shelf. `poison` and `pend` list lines of 64 B
of the Shelf (05 R159, R167); `icache` the lines of the instruction cache and `ifail` the lines whose fetch
failed (04 R515); `expTabs` the four tables the expander holds with their addresses, most recent first (05 R168); `lastWon` the thread that
won the last contested grant of Desks, F as well before there was one (04 R117). -/
structure Bench where
  f : CtxSt
  b : CtxSt
  d : CtxSt
  entry : Option Entry
  gF : Nat
  gB : Nat
  lastWon : Thr
  turn : Thr
  lastIssue : Nat
  poison : List Nat
  pend : List Nat
  icache : List Nat
  ifail : List Nat
  moves : FMap Move
  moveNo : Nat
  expTabs : List (Nat × List Byte)
  injShort : Bool
  lend : Lend
  takeover : Option Takeover
  failed : Bool
  faultAt : Option Nat
  deriving DecidableEq, Repr

/-- A Desk instruction in a queue, with what it took at issue (03, 04 R126): the descriptor, the
instruction's address, the layer it was issued in, the step and seed of its conversions (02 R50, R52). A merge holds
the next row to commit: it stays at the head of the queue where its Desk fails in it (03 R92, 16 R449). -/
inductive DeskOp where
  | load (sl : Nat)
  | pass (mask sl set j n kp : Nat)
  | drain (raw : Bool) (set j n : Nat)
  | merge (set j n next : Nat)
  | discard (set j n : Nat)
  deriving DecidableEq, Repr

/-- An entry of a Desk's queue. -/
structure DeskEnt where
  op : DeskOp
  ctx : Ctx
  pc : Nat
  desc : Nat
  lgen : Nat
  step : Nat
  seed : Word
  deriving DecidableEq, Repr

/-- A B slot: the block's format code and its 128 rows of 96 encodings, rows from 0 (03 R72). A row that
is not listed is filled with +0. -/
structure Slot where
  fmt : Nat
  rows : FMap (List Nat)
  deriving DecidableEq, Repr

/-- A pass that has started: the instruction and the next row to commit (03 R67). -/
structure PassSt where
  ent : DeskEnt
  next : Nat
  deriving DecidableEq, Repr

/-- A pending test injection of a Desk (03 R102). -/
structure DeskInj where
  ce : Bool
  parity : Bool
  residue : Bool
  deriving DecidableEq, Repr

/-- What a Desk holds beside its registers (03): queue, B slots, the slot that is loading, Drawer totals by
256 × set + row (a row that is listed has its started bit set, R66), sets that are DRAINING, passes under
way, A rows of the replay buffer with the lowest poisoned element (R90), the failed attempts of the pass row in hand, and of a row of the
drain path with that row (R93), replays in the present window and the cycle it began in, drains under way, pending
injections, Drawer rows that hold an injected error, the Desk that hosts it (16 R449). -/
structure Desk where
  queue : List DeskEnt
  slots : FMap Slot
  wide : Bool
  load : Option (Nat × DeskEnt)
  tot : FMap (List Nat)
  draining : List Nat
  passes : List PassSt
  buf : FMap (List Nat × Option Nat)
  tries : Nat
  dtries : Nat × Nat
  winReplays : Nat
  winStart : Nat
  drains : List DeskEnt
  inj : DeskInj
  badRows : List Nat
  host : Option Nat
  deriving DecidableEq, Repr

/-- Who waits for a transaction's completion (10 R297). -/
inductive Owner where
  | load (bench : Nat) (ctx : Ctx)
  | store (bench : Nat) (ctx : Ctx) (line : Nat)
  | fetch (bench : Nat) (ctx : Ctx) (line : Nat)
  | moveRd (bench move : Nat)
  | moveWr (bench move : Nat)
  | sync (pc : Nat)
  | notify (index : Nat) (who : Who)
  | unit (id : Nat)
  deriving DecidableEq, Repr

/-- A transaction of this module's requesters to another module (10 R295, R299, R300). -/
structure Txn where
  dest : Nat
  req : Req
  kind : Nat
  bench : Nat
  ctx : Nat
  tc : Nat
  seq : Nat
  owner : Owner
  dueAt : Nat
  sentAt : Nat
  tries : Nat
  deriving DecidableEq, Repr

/-- A receive context (10 R301, R302, R495): epoch, highest sequence number, the results of the
transactions performed, time of the last reception. -/
structure RecvCtx where
  epoch : Nat
  high : Nat
  done : FMap SyncAns
  lastAt : Nat
  deriving DecidableEq, Repr

/-- Where a request of the host goes: an offset of BAR0 outside the register window, the local address that the window
names for it (none where it shows nothing), or the local address behind BAR2. The registers of the last two are those in
force as it arrived (15 R424, R425). -/
inductive HostPlace where
  | bar0 (off : Nat)
  | window (a : Option Nat)
  | bulk (a : Nat)
  deriving DecidableEq, Repr

/-- An access that is held until its memory accepts it (09 R267, 05 R167, 01 R23): a transaction of another
module, a read (with its tag) or write of the host, or one that waits behind such a one (15 R422), a write of a register of a
Bench that moves, or a request to a Tallboy. -/
inductive Held where
  | far (via : Via) (req : Req)
  | hostRd (tag : Nat) (place : HostPlace) (n : Nat)
  | hostWr (place : HostPlace) (data : List Byte) (be : List Bool)
  | regWr (who : Who) (a n v : Nat)
  | tby (cls ia n : Nat) (wr : Option (List Byte × List Bool))
  deriving DecidableEq, Repr

/-- The fabric's state that is no register: next sequence number of each send context, receive contexts,
unanswered transactions, transactions waiting at their source, held words of route entries (10 R304),
consecutive failures of the flit in hand of each port, latched arrivals of Marks (10 R293), the time of the
last transit event (10 R307), when each port entered its state, transactions that found no port in service (10 R305), accesses
held, and the ports that lost lanes and have not been retrained by software since (10 R294), and
the transactions that found no valid route when they were to be sent, which fail (10 R305, R308). -/
structure Tmr where
  seqs : FMap Nat
  recv : FMap RecvCtx
  outst : FMap Txn
  waitq : List Txn
  rtHold : FMap Word
  fails : FMap Nat
  marks : FMap Nat
  dropAt : Option Nat
  portAt : FMap Nat
  noPort : List Nat
  held : List Held
  narrow : List Nat
  dead : List Nat
  deriving DecidableEq, Repr

/-- A waiter record at the home (11 R325). -/
structure Waiter where
  index : Nat
  home : Nat
  who : Who
  threshold : Nat
  consume : Bool
  deadline : Option Nat
  deriving DecidableEq, Repr

/-- A result kept until its NOTIFY is answered OK (11 R330). -/
structure Kept where
  waiter : Waiter
  result : WaitResult
  failedAt : Option Nat
  deriving DecidableEq, Repr

/-- A participant whose `LCOMMIT` waits at a word (06 R188, R190). -/
structure LWait where
  word : Nat
  home : Nat
  who : Who
  deadline : Nat
  deriving DecidableEq, Repr

/-- The sync table's state beside the counters: waiter records in the order of creation, kept results,
operations of this module's own requesters on their way to the home, answers on their way back to them,
participants that wait for an outcome, time of the first abort arrival of each open attempt (06 R189), and the
layer flag words whose attempt is open (06 R184; log 25). -/
structure Sync where
  waiters : List Waiter
  kept : List Kept
  inbox : List (Nat × Who × SyncOp)
  answers : List (Nat × Who × SyncAns)
  lwait : List LWait
  abortAt : FMap Nat
  armedWords : List Nat
  deriving DecidableEq, Repr

/-- An event raised: code, source word and 16 B payload (15 R435). -/
structure Event where
  code : Nat
  source : Nat
  pay : List Byte
  deriving DecidableEq, Repr

/-- What has happened in the present cycle of the arithmetic clock, by register: `W1C` bits that hardware has set, `W1S`
bits that it has cleared, `W1S` bits that software has set while they read 1, and those whose action starts again when
the cycle ends (00 R7); the trap records filled, each with its event (06 R181); and the claims of shared resources made,
each with the claimant's code (18 R488). -/
structure SameCycle where
  set : FMap Word
  cleared : FMap Word
  wrote : FMap Word
  again : FMap Word
  traps : List (Nat × Ctx × Event)
  claims : List (Nat × Nat)
  deriving DecidableEq, Repr

/-- A cycle in which nothing has happened yet. -/
def SameCycle.none : SameCycle := ⟨[], [], [], [], [], []⟩

/-- An accepted event record (15 R435). -/
structure EvRec where
  seq : Nat
  word1 : Word
  pay : List Byte
  deriving DecidableEq, Repr

/-- The event arbiter (15 R438, R439): events raised and not yet accepted, accepted records not yet
written, the mirror, the run of records lost, and whether events are accepted yet. -/
structure Evt where
  raised : List Event
  queue : List EvRec
  mirror : FMap EvRec
  lost : Option (Nat × Nat)
  accepting : Bool
  deriving DecidableEq, Repr

/-- A spared row with the reserve row that replaces it, or a remapped layer, as recorded (09 R275, R276, R278). -/
structure SpareRec where
  layer : Nat
  row : Nat
  remap : Bool
  newLayer : Nat
  newRow : Nat
  deriving DecidableEq, Repr

/-- A Tallboy's state beside its registers (09): codewords found uncorrectable, the errors that stored codewords hold
(pairs of a symbol and its difference), pending injections, codewords with a corrected error in the present scrub pass,
the next codeword of the patrol scrub and when the last one was read (in 1/1,610,612,736 of a pulse), sparing records, rows
being copied with the codeword that led to it, the layer being copied with that codeword and the pseudo-channel that held
it, whether the events of kinds 5 and 6 have been raised, the deficits of the requester classes, and the units served
since the seventh class had one (R283). -/
structure Tby where
  ue : List Nat
  upsets : FMap (List (Nat × Nat))
  injUe : Bool
  injCe : Bool
  ceCw : List Nat
  scrub : Nat
  scrubAt : Nat
  spared : List SpareRec
  copying : List (Nat × SpareRec)
  remapBy : Option (Nat × Nat × Nat)
  noReserve : Bool
  noRemap : Bool
  deficit : FMap Nat
  units : Nat
  deriving DecidableEq, Repr

/-- Faults and continuity (16): retired pairs of management cores and the time of the last mismatch of a
pair, retired Trestle pipelines, positions of Sideboards that R454 leaves unusable (Sideboard, slot, tensor
block), C-dies that the map left with fewer than 100 good Benches, whether the module counts availability
time, up to when it has been counted, when it was last stored, and whether the trainings that the boot began still
run (log 4). -/
structure Flt where
  pairsDead : List Nat
  pairAt : FMap Nat
  pipesDead : List Nat
  badPos : List (Nat × Nat × Nat)
  shortDies : List Nat
  availAt : Nat
  counting : Bool
  savedAt : Nat
  settling : Bool
  deriving DecidableEq, Repr

/-- A PTP master heard on a port (14 R411): its grandmaster, stepsRemoved, the sending port, and when it
was last heard. -/
structure Master where
  gm : Gm
  steps : Nat
  sender : PortId
  heardAt : Nat
  deriving DecidableEq, Repr

/-- The PTP state of a port (14 R411): sequence numbers of its Sync, Delay_Req and Announce messages, when
each was last sent; of the Sync being assembled its number, receive time and correction, and its transmit
time once known; the number and transmit time of the Delay_Req whose answer is awaited, and the last L1_SYNC TLV
received. Times are in 2^-16 ns. -/
structure PtpPort where
  syncSeq : Nat
  dreqSeq : Nat
  annSeq : Nat
  syncAt : Nat
  dreqAt : Nat
  annAt : Nat
  t2 : Option (Nat × Int)
  t1 : Option Int
  t3 : Option (Nat × Int)
  l1 : List Byte
  deriving DecidableEq, Repr

/-- Global time (14 R408 to R418): the instant and the estimated increment of a tick in 2^-40 ns, the
filtered offset in 2^-16 ns, the pending correction and its share per tick in 2^-40 ns, the offsets held as
candidates in 2^-16 ns, how many consecutive filtered offsets lay within `STEPTH`, when the last measurement
was used and when the last one came, latched seconds by requester (R410), the last PPS_IN edge, the masters
heard by port, the port in slave state, the PTP ports, and the last whole-second offset that PTP gave for `SRC` 1 (R413). -/
structure Gt where
  now : Nat
  inc : Nat
  offset : Int
  corr : Int
  slew : Nat
  cand : List Int
  good : Nat
  measAt : Option Nat
  heardAt : Option Nat
  latch : FMap Nat
  ppsAt : Option Nat
  masters : FMap Master
  slave : Option Nat
  ports : FMap PtpPort
  ptpOff : Option Int
  deriving DecidableEq, Repr

/-- Clocks (14 R400 to R407; 18 R488 to R491): when the trim source last changed, the `CLK_FREQ` values that
wait for the change in progress in the order of their writes, which clocks are in one (bit 0 fabric, bit 1 memory), by when each
PLL that has lost lock has it again, the level of MARK_OUT and until when the pin stays high, the whole second
of the last PPS pulse, and when the timeout sweep last ran. -/
structure Clk where
  trimAt : Nat
  freqNext : List Word
  chg : Nat
  relockAt : FMap Nat
  mark : Bool
  markUntil : Nat
  markSec : Option Nat
  sweepAt : Nat
  deriving DecidableEq, Repr
/-- One update slot at one Sideboard (08): the intake step, the latched `REPRO` and descriptor, the
contributors whose END was taken, in reproducible mode the last block of each contributor and the intake slots
whose records are held, whether and when its intake became complete, whether its last update ended under HOLD,
its non-finite mark, and the RESYNC mark and frame number of its export. -/
structure SbdSlot where
  step : Option Nat
  repro : Bool
  desc : List Byte
  ends : List Nat
  last : FMap Nat
  recs : List Nat
  done : Bool
  doneAt : Nat
  held : Bool
  nf : Bool
  resync : Bool
  eseq : Nat
  deriving DecidableEq, Repr

/-- A step record that a Sideboard awaits or has found (08 R235): since when, when it was last read, whether
it is present, and whether event 0x25 has been raised. -/
structure StepPoll where
  since : Nat
  readAt : Nat
  present : Bool
  raised : Bool
  deriving DecidableEq, Repr

/-- A Sideboard (08): the header bytes written of each intake slot that is not free, taken records that wait
for a later step, the update slots, step records, slots keyed since export was enabled (R258), and the checks
failed (R264, 16 R453): attempts in a row and the times of the repeats of the last second. -/
structure SbdUnit where
  hdr : FMap Nat
  waiting : List Nat
  slots : FMap SbdSlot
  polls : FMap StepPoll
  keyed : List Nat
  tries : Nat
  repeats : List Nat
  deriving DecidableEq, Repr

/-- One write of an array of a position: Sideboard, position, array, the elements before. -/
structure Wrote where
  t : Nat
  p : Nat
  k : Nat
  old : List Nat
  deriving DecidableEq, Repr

/-- What the end of an update needs of its first seven steps (08 R241, R242, R251 to R254): the decision, whether there
was NO GRADIENT, f, n_L, n_G, ρ, δ, positions updated, the marks of the slot and of the global result, whether a later root was infinite
(R240), `GMODE`, the positions with the mark NF, the arrays written and the accumulators cleared as they were, and whether the boundary action of the slot's group was due at the
start, with the partners whose transfers were. -/
structure SbdFin where
  dec : Nat
  noGrad : Bool
  f : Nat
  nl : Nat
  ng : Nat
  rho : Nat
  delta : Nat
  n : Nat
  slotNf : Bool
  globalNf : Bool
  inf : Bool
  gmode : Bool
  nf : List (Nat × Nat)
  wr : List Wrote
  cleared : List Wrote
  due : Bool
  ready : List Nat
  deriving DecidableEq, Repr

/-- An update that has started and is not yet published (08 R241, R249): what its end needs, until that has been performed. -/
structure SbdRun where
  slot : Nat
  step : Nat
  held : Bool
  matrix : Bool
  ucnt : Nat
  fin : Option SbdFin
  deriving DecidableEq, Repr

/-- A wait of Sideboard 0 on a counter of the global norm (08 R243, 11 R325): none, answered BUSY and due again, held as a
waiter record, or completed. -/
inductive SbdWait where
  | idle
  | busy (since : Nat)
  | held
  | done
  deriving DecidableEq, Repr

/-- The global norm of a step (08 R243): the slots whose sums are in it, the exact sum in 2^-384, the mark,
whether the sum was written to the collector and since when its result is awaited, whether event 0x25 was
raised, whether the collector has summed it, and the result with its mark. -/
structure SbdNorm where
  step : Nat
  slots : List Nat
  sum : Nat
  mark : Bool
  sent : Option Nat
  raised : Bool
  collected : Bool
  result : Option (Nat × Bool)
  deriving DecidableEq, Repr

/-- The Sideboards of the module: the sixteen units, updates in progress, global norms, the mismatches
of each slot at its last re-derive check (08 R251, R254), and the waits on `CIDX` and on `RIDX` (08 R243). -/
structure Sbd where
  units : FMap SbdUnit
  runs : List SbdRun
  norms : List SbdNorm
  mism : FMap Nat
  sumWait : SbdWait
  resultWait : SbdWait
  deriving DecidableEq, Repr

/-- A contribution of a site to a round of a group (12 R358): the bodies of its DATA frames by `FIDX`, the
index of the frame with `LAST`, whether a frame carried NF, when it became complete, whether that was before
the close, when each index that is missing was first seen to be, when the last NACK was sent, and how many ACK and NACK frames were
sent. -/
structure Contrib where
  site : Nat
  round : Nat
  group : Nat
  bodies : FMap (List Byte)
  last : Option Nat
  nf : Bool
  doneAt : Option Nat
  onTime : Bool
  gaps : FMap Nat
  nackAt : Option Nat
  replies : Nat
  deriving DecidableEq, Repr

/-- A DATA frame in the transmit buffer (12 R361): partner entry, group, round, `FIDX`, whether it is the last,
its bytes as sent, for a last frame when it was last sent and the interval of the next resend (R363), and whether it waits to be sent
again. -/
structure TxFrame where
  part : Nat
  group : Nat
  round : Nat
  fidx : Nat
  last : Bool
  bytes : List Byte
  sentAt : Nat
  wait : Nat
  again : Bool
  deriving DecidableEq, Repr

/-- A far frame that waits to be sent (12 R345, R358): partner entry, the fields of its header, its body. A frame of another kind than
DATA, ACK or NACK takes its round and number when it is sent (13 R385). -/
structure OutFrame where
  part : Nat
  kind : Nat
  last : Bool
  nf : Bool
  round : Nat
  group : Nat
  fidx : Nat
  fnum : Nat
  body : List Byte
  deriving DecidableEq, Repr

/-- Where a group stands in its round (12 R348). -/
inductive GrpPhase where
  | idle | snapping | snapped | sending | sent | closed | applying
  deriving DecidableEq, Repr

/-- A contribution that an APPLY uses (12 R367): site, round, factor. -/
structure TrsUse where
  site : Nat
  round : Nat
  omega : Nat
  deriving DecidableEq, Repr

/-- What replaces the anchor in an APPLY of a reunion (13 R391, R392): the anchor slot of the common round
and the classes in order, each the partner entry whose ADELTA frames give its anchor or none for this site; or
the partner entry whose anchor this site adopts; or that a partner adopts this site's. -/
inductive Reunite where
  | merge (rc : Nat) (rcRound : Nat) (classes : List (Option Nat))
  | adopt (part : Nat)
  | adopted
  deriving DecidableEq, Repr

/-- The outer law that a group's APPLY works by (12 R369): μ_o, η_o, `NEST`, S. -/
structure OuterLaw where
  mu : Nat
  eta : Nat
  nest : Bool
  bound : Nat
  deriving DecidableEq, Repr

/-- A layer group of the Trestle (12): its phase, the round in hand (R360: of its last snapshot), when the last
action was completed in GT ns; t_s of R365; the last round whose snapshot was begun or skipped; slots whose
boundary action is due; the round of the apply, its contributions, whether an NF latch occurred, and what a reunion changes in
it; whether a joiner has yet to install it (13 R395); the outer law as its last APPLY took it. -/
structure Grp where
  phase : GrpPhase
  round : Option Nat
  doneAt : Nat
  ts : Nat
  seen : Option Nat
  todo : List Nat
  appRound : Nat
  uses : List TrsUse
  nf : Bool
  reunite : Option Reunite
  install : Bool
  law : Option OuterLaw
  deriving DecidableEq, Repr

/-- What the Trestle keeps of a partner entry beside its registers (12 R364, 13): when it was last heard, the
delay samples' greatest by round, its mean delay in 2^-16 µs, the frames sent to it in a round (R385), the
reunion: own r_h, the partner's r_h, the groups' LINEAGE records received, and the groups whose END came and
those that have applied, and r_c of the lowest group; the round from which a joiner is PRESENT; the groups yet to be sent to one that
asked to join, and the base of each slot that it has requested (R387). -/
structure Partner where
  heardAt : Nat
  delays : FMap Nat
  mean : Nat
  ctlRound : Nat
  ctlSent : Nat
  rh : Nat
  theirs : Option Nat
  lineage : FMap (List Byte)
  ended : FMap (List Byte)
  applied : List Nat
  rc : Nat
  joinAt : Option Nat
  joinDue : List Nat
  bases : FMap (List Byte)
  deriving DecidableEq, Repr

/-- An anchor block held in staging (13 R386, R388, R391, R395): sender's entry, array, slot, block, half,
round, the base digest, the 4,096 symbols. -/
structure Delta where
  part : Nat
  arr : Nat
  slot : Nat
  block : Nat
  half : Nat
  round : Nat
  base : List Byte
  syms : List Byte
  deriving DecidableEq, Repr

/-- A transfer that this site has requested (13 R383, R384, R387): kind (2 REPAIR, 3 RECON), group, slot, the
source's entry, its `LASTAPP`, the blocks to fetch, the first blocks of the BFP frames received and how many END says were sent,
whether the blocks have been listed and are all held, the digest of the END frame and the source's fingerprint, the number of voters
(R383), and when the last request was sent and the next interval. -/
structure Xfer where
  kind : Nat
  group : Nat
  slot : Nat
  part : Nat
  lastApp : Nat
  need : List Nat
  got : List Nat
  sent : Option Nat
  listed : Bool
  ready : Bool
  digest : List Byte
  fp : Option (Nat × Nat)
  voters : Nat
  askedAt : Nat
  wait : Nat
  deriving DecidableEq, Repr

/-- An FPRINT record received (13 R382): the partner's entry, group, round, slot, its fingerprint, its digest, and whether it was
compared and the digests were equal. -/
structure Voted where
  part : Nat
  group : Nat
  round : Nat
  slot : Nat
  fp : Nat × Nat
  digest : List Byte
  same : Bool
  deriving DecidableEq, Repr

/-- The Trestle's state beside its registers and tables (12, 13): groups, contributions, those freed whose frames may still come (R360), the
transmit buffer,
frames that wait for a gateway port, partners, anchor blocks held, transfers, FPRINT records, set divergences
reported, the time of the last 0x60 event of each reason, since when the buffer is full and whether that was
reported, when the Trestle was enabled in GT ns, when HELLO was last sent, and each pipeline's failed
attempts in a row with the times of its repeats. -/
structure Trs where
  groups : FMap Grp
  contribs : List Contrib
  past : List Contrib
  tx : List TxFrame
  wait : List OutFrame
  parts : FMap Partner
  deltas : List Delta
  xfers : List Xfer
  votes : List Voted
  diverged : List (Nat × Nat × Nat)
  dropAt : FMap Nat
  fullAt : Option Nat
  fullSaid : Bool
  enGt : Nat
  helloAt : Nat
  tries : FMap Nat
  repeats : FMap (List Nat)
  deriving DecidableEq, Repr

/-- The PCIe endpoint (15 R421, R426, R441; 17 R466): whether the link is up, its rate in GT/s and width, Memory
Space Enable, Bus Master Enable, MSI-X enable and function mask, D3hot, the maximum payload as a power of two times
128 B, whether FLIT mode is in use, whether ECRCs are generated and checked, the uncorrectable errors that AER shows (log 8), the
base addresses, the vector table (address, data, masked), the pending bits, when each vector last sent a
message and the vectors with a merged message due. -/
structure Pcie where
  up : Bool
  rate : Nat
  width : Nat
  mse : Bool
  bme : Bool
  msixEn : Bool
  fmask : Bool
  d3 : Bool
  mps : Nat
  flit : Bool
  ecrcGen : Bool
  ecrcChk : Bool
  aer : Nat
  bar0 : Nat
  bar2 : Nat
  table : FMap (Nat × Nat × Bool)
  pba : List Nat
  sentAt : FMap Nat
  merged : List Nat
  deriving DecidableEq, Repr

/-- The security engine's state beside its registers (17 R480 to R483): the pair keys, key `i` of slot `k` at
2 × k + i; the ephemeral private keys of slots in phase 1. -/
structure Sec where
  keys : FMap (List Byte)
  eph : FMap (List Byte)
  deriving DecidableEq, Repr


/-- A command that has answered ACCEPTED and whose completion event is to come (15 R430, R431): its operation
number, code, mailbox and tag, and the final status. -/
structure OpRec where
  opid : Nat
  code : Nat
  mbox : Nat
  tag : Nat
  status : Nat
  deriving DecidableEq, Repr

/-- The firmware of the Hutch beside its registers (15 R427 to R434, R446): BUSY mailboxes not yet taken in the
order of their submits, commands in progress, the number of the last operation, the job's ID and the threads with a
non-zero address, who holds the firmware update (0 none, 1 FW_STAGE, 2 PLDM Type 5), and the sender of the request in
mailbox 31 (R447). -/
structure Hut where
  order : List Nat
  ops : List OpRec
  opNo : Nat
  jobId : Nat
  threads : List (Nat × Thr)
  fwHold : Nat
  sender : Nat
  deriving DecidableEq, Repr

/-- An image in a bank of the boot flash (17 R471, R472): its security version number, the digest of its body, and
whether its signature and digest hold. -/
structure Img where
  svn : Nat
  digest : List Byte
  good : Bool
  deriving DecidableEq, Repr

/-- The boot flash (17 R471): the active bank, the pending one with its trial flag, a bank with a staged image, the
banks (0 A, 1 B), the retired physical Benches, the error log (oldest first) with the time of the last entry of each
code, the reset count, and the availability counters. The sparing records of the Tallboys are copied there as they
arise (09 R278) and stand in the Tallboys' own records. -/
structure Flash where
  active : Nat
  pending : Option Nat
  staged : Option Nat
  banks : FMap Img
  retired : List Nat
  errlog : List (List Byte)
  errAt : FMap Nat
  resets : Nat
  availT : Word
  availU : Word
  deriving DecidableEq, Repr

/-- The fuses (17 R472, R475; 01 R19): the count of the security version, the defective physical Benches, the serial
number. -/
structure Fuse where
  svn : Nat
  defects : List Nat
  serial : List Byte
  deriving DecidableEq, Repr

/-- Reset and power-up (17 R465 to R474; 19 R499 to R501). `on`: step 4 of R470 is complete, and PWRGD is released.
`why`: what holds the module in power-on reset: 0 no supply, 1 undervoltage, 2 overvoltage, 3 overcurrent, 4 unmated,
5 thermal trip. `level`: the reset that a low RESET_N has put the module into and that it has not left (0 none, 1
core, 2 system); `taken`: the highest level taken in the present low. `driving`: the module drives RESET_N low, until
`driveEnd` where its count runs. `due`: a reset requested, with its level, when it starts and the bits of `RST_CAUSE` it sets. `trial`: since when
a trial boot runs; `rolled`: a trial was rolled back and is to be reported. `trips`: the overcurrent trips; `retryAt`:
when the hot-swap stage tries again. `hostBoot`: the boot ROM waits for the host's image; `goWait`: `RST_BOOT.GO` was written, and
the ROM's reads are held. -/
structure Rst where
  on : Bool
  why : List Nat
  level : Nat
  taken : Nat
  driving : Bool
  driveEnd : Option Nat
  due : Option (Nat × Nat × Nat)
  trial : Option Nat
  rolled : Option (Nat × Nat)
  trips : List Nat
  retryAt : Option Nat
  hostBoot : Bool
  goWait : Bool
  deriving DecidableEq, Repr

/-- The power manager (17 R476 to R478): when it last acted, and whether the draw has yet to come down to a lower
cap. -/
structure Pwr where
  stepAt : Nat
  falling : Bool
  deriving DecidableEq, Repr

/-- A PLDM Type 5 update under way (15 R446): the image's size and the bytes received. -/
structure PldmUpd where
  size : Nat
  data : FMap Byte
  deriving DecidableEq, Repr

/-- Management over I3C and DOE (15 R445 to R447, 17 R482): dynamic address, endpoint ID, terminus ID, the SPDM
transcript of each transport (0 DOE, 1 MCTP) with how far its exchange has come, the PLDM update under way, and the
threshold each sensor has crossed (1 warning, 2 critical, 3 fatal). -/
structure Mgmt where
  i3c : Option Nat
  eid : Nat
  tid : Nat
  spdm : FMap (Nat × List Byte)
  upd : Option PldmUpd
  crossed : FMap Nat
  deriving DecidableEq, Repr


/-- An answer of the module's management responders (15 R445 to R447, 17 R482; log 17). -/
inductive MgmtAns where
  | eid (n : Nat)
  | types (l : List Nat)
  | done
  | unsupported
  | tid (n : Nat)
  | reading (sensor : Nat) (value : Int)
  | noSensor
  | crossing (sensor level : Nat) (value : Int)
  | update (code : Nat)
  | slot (body : List Byte)
  | version (major minor : Nat)
  | capabilities (cert chal meas : Bool)
  | algorithms
  | digests (slots : List Nat) (d : List Byte)
  | certificate (part : List Byte) (left : Nat)
  | challenge (slot : Nat) (cert : List Byte) (sig : List Byte)
  | measurements (blocks : List (Nat × List Byte)) (sig : List Byte)
  | spdmError (code : Nat)
  | protocol (vendor type next : Nat)
  deriving DecidableEq, Repr

/-- A message of the module to the outside. -/
inductive Msg where
  /-- A request or a completion sent on a port, none where no port is in service (10 R295, R306, R307). -/
  | fabric (port : Option Nat) (via : Via) (body : Fab)
  /-- A Tallboy answers a read: the stack, the address, the bytes, and whether they are good (09 R269). -/
  | tallboy (t ia : Nat) (data : List Byte) (good : Bool)
  /-- The completion of a host read: its tag, the data, and whether it is poisoned (15 R421). -/
  | completion (tag : Nat) (data : List Byte) (poisoned : Bool)
  /-- A host request completed as Unsupported Request (15 R421). -/
  | unsupported (tag : Nat)
  /-- A memory write of the endpoint towards the host (15 R426). -/
  | hostWrite (addr : Nat) (data : List Byte)
  /-- An MSI-X message of a vector, with its address and data (15 R441). -/
  | msix (vector addr data : Nat)
  /-- An answer of a management responder: over PCIe DOE (0) or MCTP (1), to an endpoint ID. -/
  | mgmt (transport eid : Nat) (a : MgmtAns)
  /-- The module drives RESET_N low, or releases it (17 R467). -/
  | resetN (low : Bool)
  /-- PWRGD is released, or driven low (19 R510). -/
  | pwrgd (released : Bool)
  /-- A time message sent on a port (14 R411). -/
  | ptp (port : Nat) (m : PtpMsg)
  /-- A far frame sent on a port (12 R345). -/
  | far (port tc : Nat) (frame : List Byte)
  /-- MARK_OUT changes level (14 R414, 18 R489). -/
  | markOut (high : Bool)
  deriving DecidableEq, Repr

/-- The registers and control state of a context after core reset (04 R104, R110). -/
def CtxSt.reset : CtxSt :=
  ⟨[], [], [], [], 0, none, none, [], [], [], 0, 0, none, none⟩

/-- A Bench after core reset. -/
def Bench.reset : Bench where
  f := CtxSt.reset
  b := CtxSt.reset
  d := CtxSt.reset
  entry := none
  gF := 0
  gB := 0
  lastWon := .F
  turn := .F
  lastIssue := 0
  poison := []
  pend := []
  icache := []
  ifail := []
  moves := []
  moveNo := 0
  expTabs := []
  injShort := false
  lend := ⟨0, false, none, none, 0⟩
  takeover := none
  failed := false
  faultAt := none

/-- A Desk after core reset (03 R94). -/
def Desk.reset : Desk where
  queue := []
  slots := []
  wide := false
  load := none
  tot := []
  draining := []
  passes := []
  buf := []
  tries := 0
  dtries := (0, 0)
  winReplays := 0
  winStart := 0
  drains := []
  inj := ⟨false, false, false⟩
  badRows := []
  host := none

/-- The fabric after power-on reset. -/
def Tmr.reset : Tmr := ⟨[], [], [], [], [], [], [], none, [], [], [], [], []⟩

/-- The sync table after power-on reset (11 R335). -/
def Sync.reset : Sync := ⟨[], [], [], [], [], [], []⟩

/-- The event arbiter after power-on reset (15 R438): it accepts no event yet. -/
def Evt.reset : Evt := ⟨[], [], [], none, false⟩

/-- A Tallboy after power-on reset. -/
def Tby.reset : Tby := ⟨[], [], false, false, [], 0, 0, [], [], none, false, false, [], 0⟩

/-- No fault after power-on reset. -/
def Flt.reset : Flt := ⟨[], [], [], [], [], 0, false, 0, true⟩

/-- Global time after power-on and system reset: zero, UNSET, at the nominal increment of 10 ns (14 R408,
R409). -/
def Gt.reset : Gt := ⟨0, 10 * 2 ^ 40, 0, 0, 0, [], 0, none, none, [], none, [], none, [], none⟩

/-- The clocks after power-on reset. -/
def Clk.reset : Clk := ⟨0, [], 0, [], false, 0, none, 0⟩

/-- The Sideboards after core reset (08 R263). -/
def Sbd.reset : Sbd := ⟨[], [], [], [], .idle, .idle⟩

/-- A Sideboard after core reset. -/
def SbdUnit.reset : SbdUnit := ⟨[], [], [], [], [], 0, []⟩

/-- An update slot after core reset: its intake step is undefined (08 R263). -/
def SbdSlot.reset : SbdSlot := ⟨none, false, [], [], [], [], false, 0, false, false, false, 0⟩

/-- The Trestle after the wider resets (12 R373). -/
def Trs.reset : Trs := ⟨[], [], [], [], [], [], [], [], [], [], [], none, false, 0, 0, [], []⟩

/-- A layer group before its first snapshot. -/
def Grp.reset : Grp := ⟨.idle, none, 0, 0, none, [], 0, [], false, none, false, none⟩

/-- A partner of which nothing is known. -/
def Partner.reset : Partner := ⟨0, [], 0, 0, 0, 0, none, [], [], [], 0, none, [], []⟩

/-- The endpoint after fundamental reset: no link, every vector masked, as the PCIe specification has it. -/
def Pcie.reset : Pcie := ⟨false, 0, 0, false, false, false, false, false, 0, false, false, false, 0, 0, 0, [], [], [], []⟩

/-- The security engine after the wider resets. -/
def Sec.reset : Sec := ⟨[], []⟩

/-- The firmware before it starts. -/
def Hut.reset : Hut := ⟨[], [], 0, 0, [], 0, 0⟩

/-- The boot flash as the factory leaves it (log 5): an image in bank A, nothing retired, nothing logged. -/
def Flash.new : Flash := ⟨0, none, none, [(0, ⟨0, [], true⟩)], [], [], [], 0, 0, 0⟩

/-- The fuses of a module without defects (log 5). -/
def Fuse.new : Fuse := ⟨0, [], []⟩

/-- The module has no supply yet (log 9). -/
def Rst.reset : Rst := ⟨false, [0], 0, 0, false, none, none, none, none, [], none, false, false⟩

/-- The power manager after the wider resets. -/
def Pwr.reset : Pwr := ⟨0, false⟩

/-- Management after the wider resets. -/
def Mgmt.reset : Mgmt := ⟨none, 0, 0, [], none, []⟩


/-- The state of the module. `fresh` counts the free values drawn (log 2); `out` lists what has left the
module, oldest first; `pending` is the queue of commands that wait, first in, first out. -/
structure State where
  /-- The control registers, by local address; one not listed holds its reset value. -/
  regs : FMap Word
  /-- The RWO fields written since the last wider reset, by address and field (00 R6, R8). -/
  rwo : List Nat
  /-- Tallboy and Shelf bytes. -/
  mem : Memory
  /-- The Benches; one not listed is as after a core reset. -/
  benches : FMap Bench
  /-- The Desks, Desk `d` of Bench `b` at 4 × b + d; one not listed is as after a core reset. -/
  desks : FMap Desk
  /-- The Bench map where it differs from that of a module without defects: logical to physical number (01 R19, R22). -/
  map : FMap Nat
  /-- The free spares of each C-die, by physical number, where they differ (01 R19). -/
  spares : FMap (List Nat)
  /-- The Tallboys. -/
  tby : FMap Tby
  /-- The Timir fabric. -/
  tmr : Tmr
  /-- The sync table. -/
  sync : Sync
  /-- The event arbiter. -/
  evt : Evt
  /-- Global time. -/
  gt : Gt
  /-- The clocks. -/
  clk : Clk
  /-- Faults and continuity. -/
  flt : Flt
  /-- The Sideboards. -/
  sbd : Sbd
  /-- The Trestle. -/
  trs : Trs
  /-- The PCIe endpoint. -/
  pcie : Pcie
  /-- The security engine. -/
  sec : Sec
  /-- The firmware of the Hutch. -/
  hut : Hut
  /-- The boot flash. -/
  flash : Flash
  /-- The fuses. -/
  fuse : Fuse
  /-- Reset and power-up. -/
  rst : Rst
  /-- The power manager. -/
  pwr : Pwr
  /-- Management over I3C and DOE. -/
  mgmt : Mgmt
  /-- The sequence number of the next entry of each log, by its control register (06 R196). -/
  logSeq : FMap Nat
  /-- Accesses of this module that a clock crossing has lost, by requester class and address, and that have yet to be made (14 R407). -/
  lost : List (Nat × Nat)
  /-- What has happened in the present cycle. -/
  cyc : SameCycle
  /-- Periods of the arithmetic clock since the model began: the model's time. -/
  pulse : Nat
  /-- The pulse at the last reset of any level, from which `BENCH_CYC` counts (04 R148). -/
  cycZero : Nat
  /-- The cycles that each C-die's arithmetic clock has skipped since then (17 R477). -/
  skipped : FMap Nat
  /-- How many free values have been drawn. -/
  fresh : Nat
  /-- What has left the module, oldest first. -/
  out : List Msg
  /-- The commands that wait. -/
  pending : List Instr
  deriving DecidableEq, Repr

/-- The state with `regs` replaced. -/
def State.putRegs (s : State) (x : FMap Word) : State := { s with regs := x }
/-- The state with `rwo` replaced. -/
def State.putRwo (s : State) (x : List Nat) : State := { s with rwo := x }
/-- The state with `mem` replaced. -/
def State.putMem (s : State) (x : Memory) : State := { s with mem := x }
/-- The state with `benches` replaced. -/
def State.putBenches (s : State) (x : FMap Bench) : State := { s with benches := x }
/-- The state with `desks` replaced. -/
def State.putDesks (s : State) (x : FMap Desk) : State := { s with desks := x }
/-- The state with `map` replaced. -/
def State.putMap (s : State) (x : FMap Nat) : State := { s with map := x }
/-- The state with `spares` replaced. -/
def State.putSpares (s : State) (x : FMap (List Nat)) : State := { s with spares := x }
/-- The state with `tby` replaced. -/
def State.putTby (s : State) (x : FMap Tby) : State := { s with tby := x }
/-- The state with `tmr` replaced. -/
def State.putTmr (s : State) (x : Tmr) : State := { s with tmr := x }
/-- The state with `sync` replaced. -/
def State.putSync (s : State) (x : Sync) : State := { s with sync := x }
/-- The state with `evt` replaced. -/
def State.putEvt (s : State) (x : Evt) : State := { s with evt := x }
/-- The state with `gt` replaced. -/
def State.putGt (s : State) (x : Gt) : State := { s with gt := x }
/-- The state with `clk` replaced. -/
def State.putClk (s : State) (x : Clk) : State := { s with clk := x }
/-- The state with `flt` replaced. -/
def State.putFlt (s : State) (x : Flt) : State := { s with flt := x }
/-- The state with `sbd` replaced. -/
def State.putSbd (s : State) (x : Sbd) : State := { s with sbd := x }
/-- The state with `trs` replaced. -/
def State.putTrs (s : State) (x : Trs) : State := { s with trs := x }
/-- The state with `pcie` replaced. -/
def State.putPcie (s : State) (x : Pcie) : State := { s with pcie := x }
/-- The state with `sec` replaced. -/
def State.putSec (s : State) (x : Sec) : State := { s with sec := x }
/-- The state with `hut` replaced. -/
def State.putHut (s : State) (x : Hut) : State := { s with hut := x }
/-- The state with `flash` replaced. -/
def State.putFlash (s : State) (x : Flash) : State := { s with flash := x }
/-- The state with `fuse` replaced. -/
def State.putFuse (s : State) (x : Fuse) : State := { s with fuse := x }
/-- The state with `rst` replaced. -/
def State.putRst (s : State) (x : Rst) : State := { s with rst := x }
/-- The state with `pwr` replaced. -/
def State.putPwr (s : State) (x : Pwr) : State := { s with pwr := x }
/-- The state with `mgmt` replaced. -/
def State.putMgmt (s : State) (x : Mgmt) : State := { s with mgmt := x }
/-- The state with `logSeq` replaced. -/
def State.putLogSeq (s : State) (x : FMap Nat) : State := { s with logSeq := x }
/-- The state with `lost` replaced. -/
def State.putLost (s : State) (x : List (Nat × Nat)) : State := { s with lost := x }
/-- The state with `cyc` replaced. -/
def State.putCyc (s : State) (x : SameCycle) : State := { s with cyc := x }
/-- The state with `pulse` replaced. -/
def State.putPulse (s : State) (x : Nat) : State := { s with pulse := x }
/-- The state with `cycZero` replaced. -/
def State.putCycZero (s : State) (x : Nat) : State := { s with cycZero := x }
/-- The state with `skipped` replaced. -/
def State.putSkipped (s : State) (x : FMap Nat) : State := { s with skipped := x }
/-- The state with `fresh` replaced. -/
def State.putFresh (s : State) (x : Nat) : State := { s with fresh := x }
/-- The state with `out` replaced. -/
def State.putOut (s : State) (x : List Msg) : State := { s with out := x }
/-- The state with `pending` replaced. -/
def State.putPending (s : State) (x : List Instr) : State := { s with pending := x }

/-- The module right after reset: it is held in power-on reset until the supply is applied (17 R470; log 9),
every register at its reset value, memory with nothing listed, nothing under way, no command waiting. -/
def State.reset : State where
  regs := []
  rwo := []
  mem := []
  benches := []
  desks := []
  map := []
  spares := []
  tby := []
  tmr := Tmr.reset
  sync := Sync.reset
  evt := Evt.reset
  gt := Gt.reset
  clk := Clk.reset
  flt := Flt.reset
  sbd := Sbd.reset
  trs := Trs.reset
  pcie := Pcie.reset
  sec := Sec.reset
  hut := Hut.reset
  flash := Flash.new
  fuse := Fuse.new
  rst := Rst.reset
  pwr := Pwr.reset
  mgmt := Mgmt.reset
  logSeq := []
  lost := []
  cyc := SameCycle.none
  pulse := 0
  cycZero := 0
  skipped := []
  fresh := 0
  out := []
  pending := []

end Sys2Proof.Machine
end

