-- ==== Sys2Proof/Machine/Ops.lean ====
section
/-!
DEFINITION. The named operations over the state that every family uses: registers and their fields, time,
events, free values, Bench, Desk and context records, what leaves the module.
-/
namespace Sys2Proof.Machine

/-- What a command answers. -/
abbrev Out := Host.Outcome State Fault Refusal

/-! ### Registers -/

/-- The stored value of a register; its reset value where nothing has changed it (00 R6). -/
def State.rd (s : State) (a : Nat) : Word := (FMap.get? s.regs a).getD (regReset a)

/-- The state with a register's stored value replaced. -/
def State.wr (s : State) (a : Nat) (v : Word) : State := s.putRegs (FMap.set s.regs a v)

/-- A field of a register. -/
def State.fld (s : State) (a : Nat) (f : Fld) : Nat := getFld (s.rd a) f

/-- A one-bit field of a register, set or clear. -/
def State.flag (s : State) (a : Nat) (f : Fld) : Bool := s.fld a f != 0

/-- One bit of a field of a register. -/
def State.fldBit (s : State) (a : Nat) (f : Fld) (i : Nat) : Bool := (s.fld a f).testBit i

/-- The state with a field of a register replaced. -/
def State.setFld (s : State) (a : Nat) (f : Fld) (x : Nat) : State := s.wr a (putFld (s.rd a) f x)

/-- The state with one bit of a field set or cleared. -/
def State.setBit (s : State) (a : Nat) (f : Fld) (i : Nat) (b : Bool) : State :=
  s.setFld a f (setBits (s.fld a f) i i b.toNat)

/-- The state with bits ORed into a field. -/
def State.orFld (s : State) (a : Nat) (f : Fld) (x : Nat) : State := s.setFld a f (s.fld a f ||| x)

/-- A counter field increased, saturating at its greatest value. -/
def State.incSat (s : State) (a : Nat) (f : Fld) (n : Nat) : State :=
  s.setFld a f (satAdd (s.fld a f) n (2 ^ f.width - 1))

/-- A counter field increased, wrapping at its width. -/
def State.incWrap (s : State) (a : Nat) (f : Fld) (n : Nat) : State := s.setFld a f (s.fld a f + n)

/-- Hardware sets a `W1C` field, which a software write of the same cycle does not clear (00 R6, R7). -/
def State.hwSet (s : State) (a : Nat) (f : Fld) : State :=
  let s := s.wr a (s.rd a ||| f.mask)
  s.putCyc { s.cyc with set := FMap.set s.cyc.set a (FMap.getD s.cyc.set a 0 ||| f.mask) }

/-- Hardware sets some bits of a `W1C` field (00 R6, R7). -/
def State.hwOr (s : State) (a : Nat) (f : Fld) (x : Nat) : State :=
  let m := putFld 0 f x
  let s := s.wr a (s.rd a ||| m)
  s.putCyc { s.cyc with set := FMap.set s.cyc.set a (FMap.getD s.cyc.set a 0 ||| m) }

/-- Software writes 1 to a `W1S` bit that reads 1, its action under way (00 R7). -/
def State.swWrote (s : State) (a : Nat) (f : Fld) : State :=
  s.putCyc { s.cyc with wrote := FMap.set s.cyc.wrote a (FMap.getD s.cyc.wrote a 0 ||| f.mask) }

/-- A `W1S` bit that software set and hardware cleared in one cycle reads 1, and its action starts again (00 R7). -/
def State.swAgain (s : State) (a : Nat) (f : Fld) : State :=
  let s := s.wr a (s.rd a ||| f.mask)
  s.putCyc { s.cyc with again := FMap.set s.cyc.again a (FMap.getD s.cyc.again a 0 ||| f.mask) }

/-- Whether hardware has cleared a `W1S` bit in this cycle. -/
def State.hwCleared (s : State) (a : Nat) (f : Fld) : Bool := FMap.getD s.cyc.cleared a 0 &&& f.mask != 0

/-- The action of a `W1S` bit is complete: hardware clears it, unless software has set it in the same cycle (00 R6, R7). -/
def State.hwDone (s : State) (a : Nat) (f : Fld) : State :=
  if FMap.getD s.cyc.wrote a 0 &&& f.mask != 0 then s.swAgain a f
  else
    let s := s.setFld a f 0
    s.putCyc { s.cyc with cleared := FMap.set s.cyc.cleared a (FMap.getD s.cyc.cleared a 0 ||| f.mask) }

/-- The state after a list of changes, made in order. -/
def State.foldOver {α : Type} (s : State) (l : List α) (f : State → α → State) : State := l.foldl f s

/-- A pair by its two halves, so that taking it apart needs nothing of how it was made. -/
def halves {α β : Type} (p : α × β) : α × β := (p.1, p.2)

/-- A triple by its three parts. -/
def thirds {α β γ : Type} (p : α × β × γ) : α × β × γ := (p.1, p.2.1, p.2.2)

/-! ### Time, in periods of the arithmetic clock (14 R399) -/

/-- Pulses in a microsecond. -/
def usPulses : Nat := 800

/-- Pulses in a millisecond. -/
def msPulses : Nat := 800000

/-- A time `n` microseconds after another has come. -/
def State.reached (s : State) (start us : Nat) : Bool := decide (start + us * usPulses ≤ s.pulse)

/-- `BENCH_CYC` of a Bench: cycles of its C-die since the last reset (04 R148). -/
def State.benchCyc (s : State) (b : Nat) : Nat :=
  s.pulse - s.cycZero - FMap.getD s.skipped (b / 100) 0

/-! ### Events, messages, free values -/

/-- The source word of an event: unit type and index (15 R435). -/
def evSource (type index : Nat) : Nat := type * 4096 + index % 4096

/-- An event raised (15 R438): before events are accepted it is lost. The payload is filled to 16 B. -/
def State.raise (s : State) (code source : Nat) (pay : List Byte) : State :=
  if s.evt.accepting then
    s.putEvt { s.evt with raised := s.evt.raised ++ [⟨code, source, (pay ++ leBytes 16 0).take 16⟩] }
  else s

/-- A message leaves the module. -/
def State.send (s : State) (m : Msg) : State := s.putOut (s.out ++ [m])

/-- The next free value of at most `n` (log 2), and the state that has drawn it. -/
def State.draw (s : State) (n : Nat) : Nat × State :=
  (Config.freeNat s.fresh % (n + 1), s.putFresh (s.fresh + 1))

/-! ### Bench, context and Desk records -/

/-- A Bench's record. -/
def State.bench (s : State) (b : Nat) : Bench := (FMap.get? s.benches b).getD Bench.reset

/-- The state with a Bench's record replaced. -/
def State.setBench (s : State) (b : Nat) (x : Bench) : State := s.putBenches (FMap.set s.benches b x)

/-- The state with a Bench's record changed. -/
def State.modBench (s : State) (b : Nat) (f : Bench → Bench) : State := s.setBench b (f (s.bench b))

/-- A context of a Bench. -/
def Bench.ctx (x : Bench) : Ctx → CtxSt
  | .F => x.f
  | .B => x.b
  | .D => x.d

/-- A Bench with one context replaced. -/
def Bench.setCtx (x : Bench) (c : Ctx) (y : CtxSt) : Bench :=
  match c with
  | .F => { x with f := y }
  | .B => { x with b := y }
  | .D => { x with d := y }

/-- A context. -/
def State.ctx (s : State) (b : Nat) (c : Ctx) : CtxSt := (s.bench b).ctx c

/-- The state with a context replaced. -/
def State.setCtx (s : State) (b : Nat) (c : Ctx) (x : CtxSt) : State :=
  s.setBench b ((s.bench b).setCtx c x)

/-- The state with a context changed. -/
def State.modCtx (s : State) (b : Nat) (c : Ctx) (f : CtxSt → CtxSt) : State := s.setCtx b c (f (s.ctx b c))

/-- A Desk's record. -/
def State.desk (s : State) (b d : Nat) : Desk := (FMap.get? s.desks (4 * b + d)).getD Desk.reset

/-- The state with a Desk's record replaced. -/
def State.setDesk (s : State) (b d : Nat) (x : Desk) : State := s.putDesks (FMap.set s.desks (4 * b + d) x)

/-- The state with a Desk's record changed. -/
def State.modDesk (s : State) (b d : Nat) (f : Desk → Desk) : State := s.setDesk b d (f (s.desk b d))

/-- A Tallboy's record. -/
def State.stack (s : State) (t : Nat) : Tby := (FMap.get? s.tby t).getD Tby.reset

/-- The state with a Tallboy's record changed. -/
def State.modStack (s : State) (t : Nat) (f : Tby → Tby) : State :=
  s.putTby (FMap.set s.tby t (f (s.stack t)))

/-! ### The state of a context (04 R104, R142, R147) -/

/-- Whether a context runs or is BLOCKED: `BENCH_THR.STATE` of a thread, `BENCH_DWL_STAT.RUNNING` of the
DWL context (04 R142, R147). -/
def State.live (s : State) (b : Nat) (c : Ctx) : Bool :=
  match c with
  | .D => s.flag (A.benchDwlStat b) F.benchDwlStat.RUNNING
  | _ => s.flag (A.benchThr b c.idx) F.benchThr.STATE

/-- The address of the next instruction of a context (04 R143). -/
def State.pc (s : State) (b : Nat) (c : Ctx) : Nat :=
  match c with
  | .D => (s.ctx b .D).pc
  | _ => s.fld (A.benchPc b c.idx) F.benchPc.PC * 8

/-- The state with a context's next instruction address replaced; addresses are 64-bit. -/
def State.setPc (s : State) (b : Nat) (c : Ctx) (a : Nat) : State :=
  match c with
  | .D => s.modCtx b .D (fun x => { x with pc := a % 2 ^ 64 })
  | _ => s.setFld (A.benchPc b c.idx) F.benchPc.PC (a % 2 ^ 64 / 8)

/-- The context becomes BLOCKED, waiting for something (04 R104). -/
def State.block (s : State) (b : Nat) (c : Ctx) (k : Blk) : State :=
  let s := s.modCtx b c (fun x => { x with blk := some k })
  match c with
  | .D => s
  | _ => s.setFld (A.benchThr b c.idx) F.benchThr.STATE 2

/-- The context runs again (04 R104). -/
def State.unblock (s : State) (b : Nat) (c : Ctx) : State :=
  let s := s.modCtx b c (fun x => { x with blk := none })
  match c with
  | .D => s
  | _ => s.setFld (A.benchThr b c.idx) F.benchThr.STATE 1

/-- The `NUM_STEP` value that a context's conversions use: the thread's register, or the entry's `STEP`
(02 R50, 04 R121). -/
def State.stepOf (s : State) (b : Nat) (c : Ctx) : Nat :=
  match c with
  | .D => match (s.bench b).entry with
    | some e => e.step
    | none => 0
  | _ => s.fld (A.numStep b c.idx) F.numStep.STEP

/-- The context word of events: Bench in [9:0], context in [11:10] (06 R197). -/
def whoBits (b : Nat) (c : Ctx) : Nat := b % 1024 + c.code * 1024

/-- This module's number (10 R291). -/
def State.modnum (s : State) : Nat := s.fld A.tmrId F.tmrId.MODNUM

/-- Whether an address names this module: module number 0x3FFF or its own (10 R287). -/
def State.isHere (s : State) (m : Nat) : Bool := m == 0x3FFF || m == s.modnum

/-- The module number of a Timir address (10 R287). -/
def modOf (a : Nat) : Nat := bits a 63 50

/-- The local part of a Timir address (10 R287). -/
def localOf (a : Nat) : Nat := a % 2 ^ 50

end Sys2Proof.Machine
end

