-- ==== Sys2Proof/Machine/Mem.lean ====
section
/-!
DEFINITION. Memory as the module's requesters see it: the local map (10 R288), the Shelf with its poison
bits (05 R159), the Tallboys with codewords, error correction, write regions and staging (09).
-/
namespace Sys2Proof.Machine

/-- The size of a Shelf in bytes (01 R17). -/
def shelfSize : Nat := 3 * 1024 * 1024

/-- The mapped capacity of the interleaved view, 1,536 GiB (10 R288). -/
def viewSize : Nat := 0x18000000000

/-- What a local address names (10 R288). -/
inductive Loc where
  | tby (ia : Nat)
  | shelf (b off : Nat)
  | reg (a : Nat)
  | none
  deriving DecidableEq, Repr

/-- The stack of an interleaved-view address (09 R268). -/
def stackOf (ia : Nat) : Nat := (ia >>> 12) % 16

/-- The stack offset of an interleaved-view address (09 R268). -/
def offsetOf (ia : Nat) : Nat := ((ia >>> 16) <<< 12) + ia % 4096

/-- The interleaved-view address of an offset of a stack (09 R268). -/
def viewOf (t o : Nat) : Nat := ((o >>> 12) <<< 16) + (t % 16) * 4096 + o % 4096

/-- The local map (10 R288; 01 R15 to R17): a direct-window address names the byte of the interleaved view. -/
def locOf (a : Nat) : Loc :=
  if a < viewSize then .tby a
  else if 0x100000000000 ≤ a ∧ a < 0x120000000000 then
    let x := a - 0x100000000000
    let o := x % 0x2000000000
    if o < 0x1800000000 then .tby (viewOf (x / 0x2000000000) o) else .none
  else if 0x1000000000000 ≤ a ∧ a < 0x1000000000000 + 800 * 0x400000 then
    let x := a - 0x1000000000000
    if x % 0x400000 < shelfSize then .shelf (x / 0x400000) (x % 0x400000) else .none
  else if regBase ≤ a then .reg a
  else .none

/-- The memory key of a Shelf byte: its Shelf window address (01 R17). -/
def shelfKey (b off : Nat) : Nat := 0x1000000000000 + b * 0x400000 + off

/-! ### The Shelf -/

/-- Bytes of a Shelf. -/
def State.shelfRead (s : State) (b off n : Nat) : List Byte := s.mem.read (shelfKey b off) n

/-- The lines that `n` bytes from an offset touch. -/
def linesOf (off n : Nat) : List Nat :=
  if n = 0 then [] else (List.range ((off + n - 1) / 64 + 1 - off / 64)).map (· + off / 64)

/-- The lowest poisoned line that a read touches (05 R159). -/
def State.poisoned (s : State) (b off n : Nat) : Option Nat :=
  (linesOf off n).find? (fun l => (s.bench b).poison.contains l)

/-- Whether an access touches a pending line, and so waits (05 R167). -/
def State.pendingAt (s : State) (b off n : Nat) : Bool :=
  (linesOf off n).any (fun l => (s.bench b).pend.contains l)

/-- Bytes stored into a Shelf; every line written loses its poison bit (05 R159). -/
def State.shelfWrite (s : State) (b off : Nat) (data : List Byte) : State :=
  let s := s.putMem (s.mem.write (shelfKey b off) data)
  if (s.bench b).poison.isEmpty then s
  else s.modBench b (fun x => { x with poison := x.poison.filter (fun l => !(linesOf off data.length).contains l) })

/-- The poison bits of the lines that a range touches are set (05 R158, R159, R171). -/
def State.shelfPoison (s : State) (b off n : Nat) : State :=
  s.modBench b (fun x => { x with poison := (linesOf off n).filter (fun l => !x.poison.contains l) ++ x.poison })

/-! ### The Tallboys -/

/-- The codeword of an interleaved-view address, named by its own view address (09 R268). -/
def cwOf (ia : Nat) : Nat := ia - ia % 64

/-- Mapped rows of 2 KiB in a layer: 8 GiB; further numbers are rows of its reserve (09 R275). -/
def mappedRows : Nat := 4194304

/-- Reserve rows of a layer: 1 GiB (09 R275, R286). -/
def layerReserve : Nat := 524288

/-- Where a stack first held a codeword: the layer and the row in it, whose lowest five bits are its pseudo-channel
(09 R266: free; log 3). -/
def basePlace (cw : Nat) : Nat × Nat :=
  let f := Config.placement (stackOf cw) (offsetOf cw / 64)
  (f 0 % 12, f 2 % 131072 * 32 + f 1 % 32)

/-- The layer that a row of a remapped layer has gone to: one of the other eleven (09 R276). Rows go to them in turn;
the layer of a codeword stays free, for its row is (log 3). -/
def remapLayer (gone row : Nat) : Nat := if row % 11 < gone then row % 11 else row % 11 + 1

/-- A place after one record: a spared row lies in its reserve row, a row of a remapped layer in another layer
(09 R275, R276). -/
def SpareRec.moves (r : SpareRec) (p : Nat × Nat) : Nat × Nat :=
  if p.1 != r.layer then p
  else if r.remap then (remapLayer r.layer p.2, 2 * mappedRows + p.2)
  else if p.2 = r.row then (r.newLayer, r.newRow) else p

/-- The layer and the row that hold a codeword: its first place, moved by the records in the order in which they arose
(09 R266, R275, R276, R278). -/
def State.placeOf (s : State) (cw : Nat) : Nat × Nat := (s.stack (stackOf cw)).spared.foldl (fun p r => r.moves p) (basePlace cw)

/-- The layer that holds a codeword (09 R266). -/
def State.layerOf (s : State) (cw : Nat) : Nat := (s.placeOf cw).1

/-- The row that holds a codeword, numbered within its layer. -/
def State.rowOf (s : State) (cw : Nat) : Nat := (s.placeOf cw).2

/-- The pseudo-channel that holds a codeword (09 R266). -/
def State.pcOf (s : State) (cw : Nat) : Nat := s.rowOf cw % 32

/-- A Tallboy event (09 R285). -/
def State.tbyEvent (s : State) (t ia kind layer pc cls : Nat) : State :=
  s.raise 0x30 (evSource 2 t)
    (leBytes 8 ia ++ [BitVec.ofNat 8 kind, BitVec.ofNat 8 t, BitVec.ofNat 8 layer, BitVec.ofNat 8 pc, BitVec.ofNat 8 cls])

/-- A Tallboy event that names the codeword's place. -/
def State.tbyEventAt (s : State) (ia kind cls : Nat) : State :=
  s.tbyEvent (stackOf ia) ia kind (s.layerOf (cwOf ia)) (s.pcOf (cwOf ia)) cls

/-- The layer that a stack has remapped, or is copying (09 R276). -/
def Tby.gone (x : Tby) : Option Nat := ((x.spared.find? (·.remap)).map (·.layer)).or (x.remapBy.map (·.1))

/-- Reserve rows taken in a layer by spared rows and by rows being copied. -/
def Tby.taken (x : Tby) (l : Nat) : Nat :=
  countTrue (fun r => !r.remap && r.newLayer == l) x.spared + countTrue (fun p => p.2.newLayer == l) x.copying

/-- Reserve rows left in a layer: none in one that is remapped, whose rows lie in the reserve of the others
(09 R275, R276). -/
def Tby.room (x : Tby) (l : Nat) : Nat :=
  match x.gone with
  | none => layerReserve - x.taken l
  | some g => if l = g then 0
    else layerReserve - (mappedRows + 10 - (if l < g then l else l - 1)) / 11 - x.taken l

/-- Reserve rows left in a stack (09 R275, R277). -/
def Tby.reserveRows (x : Tby) : Nat := ((List.range 12).map x.room).foldl (· + ·) 0

/-- The reserve row that replaces a row (09 R275): one of the same layer, or else of another that has one left; which
other is free (log 2), and so is its pseudo-channel (log 3). -/
def State.reserveFor (s : State) (t layer : Nat) : State × Option (Nat × Nat) :=
  let x := s.stack t
  let num (l : Nat) : Nat := mappedRows + x.taken l * 32 + Config.placement t (x.taken l) (3 + l) % 32
  if x.room layer ≠ 0 then (s, some (layer, num layer))
  else match (List.range 12).filter (fun l => x.room l != 0) with
    | [] => (s, none)
    | l :: r =>
      let (k, s) := s.draw r.length
      let m := (l :: r).getD k l
      (s, some (m, num m))

/-- The event of kind 5 is raised once, when no reserve row remains (09 R277). -/
def State.reserveCheck (s : State) (t layer pc cls : Nat) : State :=
  let x := s.stack t
  if x.noReserve || x.reserveRows != 0 then s
  else (s.modStack t (fun x => { x with noReserve := true })).tbyEvent t 0 5 layer pc cls

/-- A row starts being copied to a reserve row, while there is one (09 R275, R277). -/
def State.spareStart (s : State) (cw cls : Nat) : State :=
  let t := stackOf cw
  let (l, r) := s.placeOf cw
  if (s.stack t).copying.any (fun y => y.2.layer == l && y.2.row == r) then s
  else
    let (s, new) := s.reserveFor t l
    match new with
    | none => s
    | some (nl, nr) =>
      (s.modStack t (fun x => { x with copying := x.copying ++ [(cw, ⟨l, r, false, nl, nr⟩)] })).reserveCheck t l (r % 32) cls

/-- An uncorrectable read is counted, recorded and reported (09 R271, R273). `addressErr` says the decoder
located an error in m_32 or m_33. -/
def State.ueFound (s : State) (cw cls : Nat) (addressErr : Bool) : State :=
  let t := stackOf cw
  let s := s.incSat (A.tbyEcc t) F.tbyEcc.UE 1
  let s := if addressErr then s.incSat (A.tbyEcc t) F.tbyEcc.AE 1 else s
  let kind := if addressErr then 2 else 1
  let s :=
    if s.flag (A.tbyErr t) F.tbyErr.VALID then s
    else
      let s := s.setFld (A.tbyErr t) F.tbyErr.CLASS cls
      let s := s.setFld (A.tbyErr t) F.tbyErr.PC (s.pcOf cw)
      let s := s.setFld (A.tbyErr t) F.tbyErr.LAYER (s.layerOf cw)
      let s := s.setFld (A.tbyErr t) F.tbyErr.KIND kind
      let s := s.hwSet (A.tbyErr t) F.tbyErr.VALID
      s.setFld (A.tbyErrAddr t) F.tbyErrAddr.ADDR cw
  s.tbyEventAt cw kind cls

/-- A corrected error is counted; a row with more than `ROWTH` such codewords in this pass is spared
(09 R271, R275). -/
def State.ceFound (s : State) (cw cls : Nat) : State :=
  let t := stackOf cw
  let s := s.incSat (A.tbyEcc t) F.tbyEcc.CE 1
  let x := s.stack t
  let s := if x.ceCw.contains cw then s else s.modStack t (fun x => { x with ceCw := cw :: x.ceCw })
  let n := countTrue (fun c => s.placeOf c == s.placeOf cw) (s.stack t).ceCw
  if n > s.fld (A.tbySpare t) F.tbySpare.ROWTH then s.spareStart cw cls else s

/-- The errors that a stored codeword holds (09 R271). -/
def State.upsets (s : State) (cw : Nat) : List (Nat × Nat) := FMap.getD (s.stack (stackOf cw)).upsets cw []

/-- Errors strike stored codewords: each names a codeword, one of the 36 stored symbols, or one of the two of its
index (09 R270, R271), and a difference. They stay until a read corrects them or a write replaces the codeword. -/
def State.strike (s : State) (l : List (Nat × Nat × Nat)) : State :=
  l.foldl (fun s p =>
    let cw := cwOf p.1
    if cw < viewSize ∧ p.2.1 < 38 then
      s.modStack (stackOf cw) (fun x => { x with upsets := FMap.set x.upsets cw (FMap.getD x.upsets cw [] ++ [p.2]) })
    else s) s

/-- A codeword is stored whole and good. -/
def State.cwClean (s : State) (cw : Nat) : State :=
  s.modStack (stackOf cw) (fun x => { x with upsets := FMap.del x.upsets cw, ue := x.ue.filter (· != cw) })

/-- A codeword is read and decoded (09 R271): the state after it, and whether the data is good. A correction is
written back. Both injections are used up (R286): `INJ_UE` makes this read uncorrectable, and `INJ_CE` adds a
difference, free in place and value (log 2), to what is read. -/
def State.cwRead (s : State) (cw cls : Nat) : State × Bool :=
  let t := stackOf cw
  let x := s.stack t
  let s := if x.injUe || x.injCe then s.modStack t (fun x => { x with injUe := false, injCe := false }) else s
  let (k, s) := if x.injCe then s.draw (36 * 65535 - 1) else (0, s)
  let sym := if k % 36 < 32 then k % 36 else k % 36 + 2
  let flips := s.upsets cw ++ (if x.injCe then [(sym, k / 36 % 65535 + 1)] else [])
  if x.injUe then (s.ueFound cw cls false, false)
  else
    let stays := rsDecode (s.upsets cw)
    match rsDecode flips with
    | .addressError => (((s.modStack t (fun x => { x with ue := if x.ue.contains cw then x.ue else cw :: x.ue })).ueFound cw cls true).spareStart cw cls, false)
    | .uncorrectable =>
      let s := if stays = .uncorrectable ∧ !x.ue.contains cw then s.modStack t (fun x => { x with ue := cw :: x.ue }) else s
      ((s.ueFound cw cls false).spareStart cw cls, false)
    | r =>
      if x.ue.contains cw then ((s.ueFound cw cls false).spareStart cw cls, false)
      else match r with
        | .corrected fix =>
          let data := applyErrors (applyErrors (s.mem.read cw 64) flips) fix
          (((s.putMem (s.mem.write cw data)).cwClean cw).ceFound cw cls, true)
        | _ =>
          (if flips.isEmpty then s else (s.putMem (s.mem.write cw (applyErrors (s.mem.read cw 64) flips))).cwClean cw, true)

/-- The codewords that a range touches. -/
def cwsOf (ia n : Nat) : List Nat := (linesOf ia n).map (· * 64)

/-- A read of Tallboy bytes within 256 B (09 R269, R271): the state, the bytes, and whether all codewords
were good. Of a codeword that is not, the bytes read as zero (10 R297). -/
def State.tbyRead (s : State) (cls ia n : Nat) : State × List Byte × Bool :=
  let (s, bad) := (cwsOf ia n).foldl (fun (p : State × List Nat) cw =>
    let (s', ok) := p.1.cwRead cw cls
    (s', if ok then p.2 else cw :: p.2)) (s, [])
  let data := (List.range n).map (fun i => if bad.contains (cwOf (ia + i)) then 0 else s.mem.byte (ia + i))
  (s, data, bad.isEmpty)

/-- Whether a write to a block is permitted for a requester class (09 R279, R282). Class 7 is the Hutch
firmware, which is never denied. -/
def State.writePermitted (s : State) (cls ia : Nat) : Bool :=
  let blk := ia / 4096
  cls == 7 || (
    (List.range 8).all (fun i =>
      let a := A.tbyRgn i
      !(decide (s.fld a F.tbyRgn.BASE ≤ blk) && decide (blk ≤ s.fld a F.tbyRgn.LIMIT) && s.fldBit a F.tbyRgn.DENY cls)) &&
    (let a := A.tbyStageBase
     !(decide (s.fld a F.tbyStageBase.BASE ≤ blk) && decide (blk ≤ s.fld a F.tbyStageBase.LIMIT)) ||
       (match s.fld A.tbyStage F.tbyStage.OWNER with
        | 1 => cls == 0
        | 2 => cls == 4
        | _ => false)))

/-- A denied write is counted, and the first is recorded and reported (09 R280). -/
def State.writeDenied (s : State) (cls ia : Nat) : State :=
  let s := s.incSat A.tbyRgnStat F.tbyRgnStat.COUNT 1
  if s.flag A.tbyRgnStat F.tbyRgnStat.VALID then s
  else
    let s := s.setFld A.tbyRgnStat F.tbyRgnStat.CLASS cls
    let s := s.hwSet A.tbyRgnStat F.tbyRgnStat.VALID
    let s := s.setFld A.tbyRgnAddr F.tbyRgnAddr.ADDR ia
    s.tbyEventAt ia 4 cls

/-- The base of a stack's direct window (01 R15, 10 R288). -/
def dirBase (t : Nat) : Nat := 0x100000000000 + t * 0x2000000000

/-- The intake area of a Sideboard (08 R224): its stack offset, C and Q. An area outside the Sideboard's own
direct window makes C act as 0 (R263). -/
def State.intake (s : State) (t : Nat) : Nat × Nat × Nat :=
  let a := s.fld (A.sbdIntakeBase t) F.sbdIntakeBase.ADDR * 64
  (a - dirBase t,
    if dirBase t ≤ a ∧ a < dirBase t + 0x1800000000 then min 4096 (s.fld (A.sbdIntake t) F.sbdIntake.C) else 0,
    max 1 (s.fld (A.sbdIntake t) F.sbdIntake.Q))

/-- A Sideboard's record. -/
def State.unit (s : State) (t : Nat) : SbdUnit := FMap.getD s.sbd.units t SbdUnit.reset

/-- The state with a Sideboard's record changed. -/
def State.modUnit (s : State) (t : Nat) (f : SbdUnit → SbdUnit) : State :=
  s.putSbd { s.sbd with units := FMap.set s.sbd.units t (f (s.unit t)) }

/-- The Sideboard notes which header bytes of its intake slots are written (08 R226): bytes from a stack
offset on, with their enables. -/
def State.trackHeader (s : State) (t off : Nat) (be : List Bool) : State :=
  let (base, c, q) := s.intake t
  ((List.range be.length).zip be).foldl (fun s p =>
    let o := off + p.1
    let x := (o - base) / 8256
    let r := (o - base) % 8256
    if p.2 && decide (base ≤ o) && decide (x < c * q) && decide (r < 64) then
      s.modUnit t (fun u => { u with hdr := FMap.set u.hdr x (FMap.getD u.hdr x 0 ||| 2 ^ r) })
    else s) s

/-- One codeword of a write (09 R269, R272): bytes with their enables, `off` the offset of the first in the
codeword; answers whether it was performed. One that covers all 64 bytes makes the codeword good. Any other is a read,
merge and write: to an uncorrectable codeword it is discarded and reported with kind 3. -/
def State.cwWrite (s : State) (cls cw off : Nat) (data : List (Byte × Bool)) : State × Bool :=
  let t := stackOf cw
  let full := data.length == 64 && data.all (·.2)
  let (s, ok) := if full then (s.cwClean cw, true) else s.cwRead cw cls
  if !ok then (s.tbyEventAt cw 3 cls, false)
  else
    let old := s.mem.read (cw + off) data.length
    let s := s.putMem (s.mem.write (cw + off) ((data.zip old).map (fun p => if p.1.2 then p.1.1 else p.2)))
    (s.trackHeader t (offsetOf (cw + off)) (data.map (·.2)), true)

/-- A write of Tallboy bytes within one 4 KiB block, with byte enables (09 R269, R279, R280): the state, and whether it
is complete: a denied write is, one that finds an uncorrectable codeword is not. -/
def State.tbyWrite (s : State) (cls ia : Nat) (data : List (Byte × Bool)) : State × Bool :=
  if !s.writePermitted cls ia then (s.writeDenied cls ia, true)
  else (cwsOf ia data.length).foldl (fun (p : State × Bool) cw =>
    let lo := max cw ia
    let piece := (data.drop (lo - ia)).take (cw + 64 - lo)
    let (s, ok) := p.1.cwWrite cls cw (lo - cw) piece
    (s, p.2 && ok)) (s, true)

/-- Whether a Tallboy accepts accesses (09 R267): it is initialised, and its frequency is not being changed (14 R405). -/
def State.tbyReady (s : State) (t : Nat) : Bool := s.flag (A.tbyStat t) F.tbyStat.INIT && !s.clk.chg.testBit 1

/-- A range of addresses cut at 256 B boundaries (10 R296): address and length of each piece. -/
def pieces256 : Nat → Nat → Nat → List (Nat × Nat)
  | 0, _, _ => []
  | k + 1, a, n => if n = 0 then [] else
    let m := min n (256 - a % 256)
    (a, m) :: pieces256 k (a + m) (n - m)

/-- The pieces of `n` bytes at an address (10 R296). -/
def pieces (a n : Nat) : List (Nat × Nat) := pieces256 (n / 256 + 2) a n

/-- An access that a clock crossing has lost is made: answers whether it was lost (14 R407). -/
def State.takeLost (s : State) (cls a : Nat) : State × Bool :=
  if s.lost.contains (cls, a) then (s.putLost (s.lost.erase (cls, a)), true) else (s, false)

/-- A read of the module's own memory by a requester class (10 R287, R288): Tallboy bytes are decoded, Shelf
bytes are read with their poison noted, anything else reads as zero (00 R11). Answers the state, the bytes,
whether no byte was uncorrectable or lost (14 R407), and whether a poisoned Shelf line was read. -/
def State.memRead (s : State) (cls a n : Nat) : State × List Byte × Bool × Bool :=
  let r := (pieces a n).foldl (fun (p : State × List Byte × Bool × Bool) q =>
    let (s, acc, ok, psn) := p
    let (s, gone) := s.takeLost cls q.1
    if gone then (s, acc ++ leBytes q.2 0, false, psn)
    else match locOf q.1 with
      | .tby ia =>
        let (s', d, ok') := s.tbyRead cls ia q.2
        (s', acc ++ d, ok && ok', psn)
      | .shelf b off => (s, acc ++ s.shelfRead b off q.2, ok, psn || (s.poisoned b off q.2).isSome)
      | _ => (s, acc ++ leBytes q.2 0, ok, psn)) (s, [], true, false)
  (r.1, r.2.1, r.2.2.1, r.2.2.2)

/-- A write of the module's own memory by a requester class: to a Tallboy or a Shelf; to any other address
it is ignored (00 R11). Answers whether it is complete, which it is not where a codeword was uncorrectable (10 R297) or
a clock crossing lost it (14 R407). -/
def State.memWriteOk (s : State) (cls a : Nat) (data : List (Byte × Bool)) : State × Bool :=
  (pieces a data.length).foldl (fun (p : State × Bool) q =>
    let d := (data.drop (q.1 - a)).take q.2
    let (s, gone) := p.1.takeLost cls q.1
    if gone then (s, false)
    else match locOf q.1 with
      | .tby ia =>
        let (s', ok) := s.tbyWrite cls ia d
        (s', p.2 && ok)
      | .shelf b off =>
        let old := s.shelfRead b off d.length
        (s.shelfWrite b off ((d.zip old).map (fun p => if p.1.2 then p.1.1 else p.2)), p.2)
      | _ => (s, p.2)) (s, true)

/-- A write with byte enables, of which nothing waits for the completion. -/
def State.memWriteBe (s : State) (cls a : Nat) (data : List (Byte × Bool)) : State := (s.memWriteOk cls a data).1

/-- A write of whole bytes. -/
def State.memWrite (s : State) (cls a : Nat) (data : List Byte) : State :=
  s.memWriteBe cls a (data.map (fun b => (b, true)))

/-- Whether a Bench is being taken over, so that accesses to it are held (01 R23, 16 R451). -/
def Bench.copying (x : Bench) : Bool :=
  match x.takeover with
  | some t => t.spare.isSome
  | none => false

/-- Whether a range of local addresses accepts accesses: Tallboys once they are initialised (09 R267), the
Shelf and the registers of a Bench while it is not being taken over (01 R23); the moves of that Bench itself go on, for
the copy waits for them (18 R487). While the fabric's frequency changes, Tallboys and Benches are reached by nothing that
crosses the fabric (14 R405). -/
def State.memReadyFor (s : State) (own : Option Nat) (a n : Nat) : Bool :=
  let held (b : Nat) : Bool := (s.bench b).copying && own != some b
  let fab (b : Nat) : Bool := s.clk.chg.testBit 0 && own != some b
  (pieces a n).all (fun q => match locOf q.1 with
    | .tby ia => s.tbyReady (stackOf ia) && !s.clk.chg.testBit 0
    | .shelf b _ => !held b && !fab b
    | .reg r => decide (r ≥ regBase + 800 * 0x10000) || (!held ((r - regBase) / 0x10000) && !fab ((r - regBase) / 0x10000))
    | .none => true)

/-- Whether a range of local addresses accepts accesses from any requester. -/
def State.memReady (s : State) (a n : Nat) : Bool := s.memReadyFor none a n

/-- Whether an access to local addresses touches a pending Shelf line (05 R167). -/
def State.memPending (s : State) (a n : Nat) : Bool :=
  (pieces a n).any (fun q => match locOf q.1 with
    | .shelf b off => s.pendingAt b off q.2
    | _ => false)

end Sys2Proof.Machine
end

