-- ==== Sys2Proof/Machine/Fabric.lean ====
section
/-!
DEFINITION. Sending and receiving over Timir: traffic classes, the choice of a port, quotas, flows with
their sequence numbers and epochs, transit (10).
-/
namespace Sys2Proof.Machine

/-- The traffic class of a transaction of source kind `kind` to module `m` (10 R310). -/
def State.tcFor (s : State) (kind m : Nat) : Nat :=
  match firstNat 16 (fun i =>
      let a := A.tmrTcsel i
      s.flag a F.tmrTcsel.VALID && s.fldBit a F.tmrTcsel.KINDS kind &&
        decide (s.fld a F.tmrTcsel.LO ≤ m) && decide (m ≤ s.fld a F.tmrTcsel.HI)) with
  | some i => s.fld (A.tmrTcsel i) F.tmrTcsel.TC
  | none => s.fld A.tmrCtl F.tmrCtl.DEFTC

/-- Whether a port carries transactions (10 R294). -/
def State.portUp (s : State) (p : Nat) : Bool :=
  let st := s.fld (A.tmrPortStat p) F.tmrPortStat.STATE
  st == 2 || st == 3

/-- The ports of a mask that are in service, one excluded. -/
def State.portsOf (s : State) (mask : Nat) (not : Option Nat) : List Nat :=
  (List.range 36).filter (fun p => mask.testBit p && s.portUp p && not != some p)

/-- Of some ports, the one with the most free transmit credit, ties to the lowest (10 R306). The credit is
what peers have granted, which the spec leaves to the peers: a free value (log 2). -/
def bestCredit (fresh : Nat) : List Nat → Option Nat
  | [] => none
  | p :: r =>
    match bestCredit fresh r with
    | none => some p
    | some q => if Config.credit fresh q > Config.credit fresh p then some q else some p

/-- Whether this module has a valid route to module `m` (10 R305). -/
def State.hasRoute (s : State) (m : Nat) : Bool :=
  s.flag (A.tmrRt1 m) F.tmrRt1.VALID &&
    (s.fld (A.tmrRt0 m) F.tmrRt0.PRI != 0 || s.fld (A.tmrRt1 m) F.tmrRt1.ALT != 0)

/-- The port for a transaction of class `tc` to module `m`, not the one it arrived by, from the entry as it is now
(10 R306 to R308); the state counts a choice outside the distance class. -/
def State.choosePort (s : State) (tc m : Nat) (not : Option Nat) : State × Option Nat :=
  let pri := s.portsOf (s.fld (A.tmrRt0 m) F.tmrRt0.PRI) not
  let a := if pri.isEmpty then s.portsOf (s.fld (A.tmrRt1 m) F.tmrRt1.ALT) not else pri
  if a.isEmpty || !s.hasRoute m then (s, none)
  else
    let b := a.filter (fun p => s.fld (A.tmrPortCtl p) F.tmrPortCtl.DCLS == s.fld (A.tmrTc tc) F.tmrTc.DCLS)
    let s := if b.isEmpty then s.incSat A.tmrStat F.tmrStat.SPILL 1 else s
    (s.putFresh (s.fresh + 1), bestCredit s.fresh (if b.isEmpty then a else b))

/-- What is sent on a port: flits are counted (10 R321); how many flits a transaction fills is free (log 2). -/
def State.emit (s : State) (p : Option Nat) (v : Via) (b : Fab) : State :=
  let s := s.send (.fabric p v b)
  match p with
  | none => s
  | some p =>
    let (n, s) := s.draw 3
    s.incWrap (A.tmrPortCnt p) F.tmrPortCnt.FLITS (n + 1)

/-- A flow's number: remote module and class (10 R298). -/
def flowNo (m tc : Nat) : Nat := m * 8 + tc

/-- The key of an unanswered transaction: its flow and its sequence number. -/
def txnKey (m tc seq : Nat) : Nat := flowNo m tc * 2 ^ 24 + seq % 2 ^ 24

/-- How many transactions of a flow are unanswered (10 R299). -/
def State.unanswered (s : State) (m tc : Nat) : Nat :=
  countTrue (fun p => p.1 / 2 ^ 24 == flowNo m tc) s.tmr.outst

/-- Whether a new transaction may be sent now (10 R299, R312; while the fabric's frequency changes new traffic is held,
14 R405). -/
def State.maySend (s : State) (m tc : Nat) : Bool :=
  !s.clk.chg.testBit 0 && decide (s.fld (A.tmrTc tc) F.tmrTc.USE < s.fld (A.tmrTc tc) F.tmrTc.QUOTA) && decide (s.unanswered m tc < 4096)

/-- The request of a transaction goes out over the port chosen for it now (10 R300, R306); one whose entry is no longer
valid fails (R305, R308). -/
def State.transmit (s : State) (t : Txn) : State :=
  let k := txnKey t.dest t.tc t.seq
  if !s.hasRoute t.dest then s.putTmr { s.tmr with noPort := s.tmr.noPort.filter (· != k), dead := s.tmr.dead ++ [k] }
  else
  let (s, p) := s.choosePort t.tc t.dest none
  let rest := s.tmr.noPort.filter (· != k)
  let s := s.putTmr { s.tmr with noPort := if p.isNone then rest ++ [k] else rest }
  s.emit p ⟨s.modnum, t.dest, t.tc, s.fld A.tmrId F.tmrId.EPOCH, t.seq, 0, 0⟩ (.req t.req)

/-- A context whose wait was held at its source has sent it (10 R312, 11 R325). -/
def State.waitSent (s : State) (t : Txn) : State :=
  match t.req with
  | .sync _ who (.wait ..) =>
    match Ctx.ofCode who.ctx with
    | none => s
    | some c => s.modCtx who.bench c (fun x => match x.blk with
      | some (.wait w) => if w.phase == .due then { x with blk := some (.wait { w with phase := .sent, phaseAt := s.pulse }) } else x
      | _ => x)
  | _ => s

/-- A transaction takes its sequence number and is sent for the first time (10 R299). -/
def State.launch (s : State) (t : Txn) : State :=
  let seq := FMap.getD s.tmr.seqs (flowNo t.dest t.tc) 0
  let t := { t with seq := seq, sentAt := s.pulse, tries := 0 }
  let s := s.putTmr { s.tmr with
    seqs := FMap.set s.tmr.seqs (flowNo t.dest t.tc) ((seq + 1) % 2 ^ 24)
    outst := FMap.set s.tmr.outst (txnKey t.dest t.tc seq) t }
  let s := s.incSat (A.tmrTc t.tc) F.tmrTc.USE 1
  (s.waitSent t).transmit t

/-- A failed transaction is recorded (10 R319). -/
def State.recordFail (s : State) (t : Txn) (st : Status) : State :=
  let s := s.incSat A.tmrErr F.tmrErr.COUNT 1
  if s.flag A.tmrErr F.tmrErr.VALID then s
  else
    let s := s.setFld A.tmrErr F.tmrErr.STATUS st.code
    let s := s.setFld A.tmrErr F.tmrErr.TC t.tc
    let s := s.setFld A.tmrErr F.tmrErr.KIND t.kind
    let s := s.setFld A.tmrErr F.tmrErr.MOD t.dest
    let s := s.hwSet A.tmrErr F.tmrErr.VALID
    s.setFld A.tmrErrAddr F.tmrErrAddr.ADDR (t.dest * 2 ^ 50 + (match t.req with
      | .rd a _ => a
      | .wr a _ _ => a
      | .sync i _ _ => A.syncCnt i))

/-- A requester's transaction becomes due (10 R305, R312): it fails at once without a route (R291, R305), also to module
16,383, which no other module can address (R291); it waits at its source while its class's quota or its flow is full, or is sent. Answers whether it failed. -/
def State.submit (s : State) (dest kind bench ctx : Nat) (req : Req) (owner : Owner) : State × Bool :=
  let t : Txn := ⟨dest, req, kind, bench, ctx, s.tcFor kind dest, 0, owner, s.pulse, 0, 0⟩
  if !s.flag A.tmrId F.tmrId.ASSIGNED || dest == 0x3FFF || !s.hasRoute dest then (s.recordFail t .noroute, true)
  else if s.maySend dest t.tc && !s.tmr.waitq.any (fun w => w.tc == t.tc) then (s.launch t, false)
  else (s.putTmr { s.tmr with waitq := s.tmr.waitq ++ [t] }, false)

/-- Transactions that wait at their source are released in the order in which they became due, as far as
quotas and flows allow (10 R299, R312). -/
def State.release (s : State) : State :=
  let q := s.tmr.waitq
  let (s, kept, _) := q.foldl (fun (p : State × List Txn × List Nat) t =>
    let (s, kept, full) := p
    if !full.contains t.tc && s.maySend t.dest t.tc then (s.launch t, kept, full)
    else (s, kept ++ [t], t.tc :: full)) (s.putTmr { s.tmr with waitq := [] }, [], [])
  s.putTmr { s.tmr with waitq := kept }

/-- An answered or failed transaction leaves its flow, and those that wait for room are sent (10 R312). -/
def State.retire (s : State) (t : Txn) : State :=
  let s := s.putTmr { s.tmr with outst := FMap.del s.tmr.outst (txnKey t.dest t.tc t.seq) }
  let s := s.setFld (A.tmrTc t.tc) F.tmrTc.USE (s.fld (A.tmrTc t.tc) F.tmrTc.USE - 1)
  s.release

/-- The unanswered transaction that a completion belongs to: its epoch must be this module's present one
(10 R302), and its flow and sequence number those of a transaction sent. -/
def State.answered (s : State) (v : Via) : Option Txn :=
  if v.epoch == s.fld A.tmrId F.tmrId.EPOCH then FMap.get? s.tmr.outst (txnKey v.src v.tc v.seq) else none

/-- What a receive context says of an arriving transaction (10 R301, R302). -/
inductive Arrival where
  | fresh
  | again (ans : SyncAns)
  | stale
  deriving DecidableEq, Repr

/-- The receive context of an arriving transaction takes it in (10 R301, R302): a new epoch resets it. -/
def State.arrive (s : State) (v : Via) : State × Arrival :=
  let k := flowNo v.src v.tc
  let put (s : State) (r : RecvCtx) : State := s.putTmr { s.tmr with recv := FMap.set s.tmr.recv k r }
  let start := (put s ⟨v.epoch, v.seq, [], s.pulse⟩, Arrival.fresh)
  match FMap.get? s.tmr.recv k with
  | none => start
  | some r =>
    if r.epoch != v.epoch then start
    else if serialGt 24 v.seq r.high then
      (put s { r with
        high := v.seq
        done := r.done.filter (fun p => decide ((v.seq + 2 ^ 24 - p.1) % 2 ^ 24 < 4096))
        lastAt := s.pulse }, .fresh)
    else if (r.high + 2 ^ 24 - v.seq) % 2 ^ 24 < 4096 then
      let s := put s { r with lastAt := s.pulse }
      match FMap.get? r.done v.seq with
      | some a => (s, .again a)
      | none => (s, .fresh)
    else (s, .stale)

/-- A transaction has been performed: its result is kept in its receive context (10 R301). -/
def State.performed (s : State) (v : Via) (a : SyncAns) : State :=
  let k := flowNo v.src v.tc
  match FMap.get? s.tmr.recv k with
  | none => s
  | some r => s.putTmr { s.tmr with recv := FMap.set s.tmr.recv k { r with done := FMap.set r.done v.seq a } }

/-- A completion goes back to the module that issued the transaction, in the class of its request, with the
epoch it carried (10 R302, R310). -/
def State.reply (s : State) (v : Via) (b : Fab) : State :=
  let (s, p) := s.choosePort v.tc v.src none
  s.emit p ⟨s.modnum, v.src, v.tc, v.epoch, v.seq, 0, 0⟩ b

/-- What is for another module is forwarded, or discarded at the hop limit or without a way (10 R307). -/
def State.transit (s : State) (v : Via) (b : Fab) : State :=
  let drop (s : State) (reason : Nat) : State :=
    let s := s.incSat A.tmrStat F.tmrStat.TDROP 1
    let recent := match s.tmr.dropAt with
      | some t => !s.reached t 1000
      | none => false
    if recent then s
    else (s.putTmr { s.tmr with dropAt := some s.pulse }).raise 0x42 (evSource 3 0x3F)
      (leBytes 2 v.dest ++ [BitVec.ofNat 8 v.port, BitVec.ofNat 8 v.hops, BitVec.ofNat 8 reason])
  if v.hops ≥ s.fld A.tmrCtl F.tmrCtl.MAXHOP then drop s 1
  else if !s.hasRoute v.dest then drop s 2
  else
    let (s', p) := s.choosePort v.tc v.dest (some v.port)
    match p with
    | none => drop s 2
    | some _ => s'.emit p { v with hops := v.hops + 1 } b

/-- Whether a transaction of the synchronisation unit is one of this module's own requesters, which enters no port
(10 R287). Source 0x3FFF with another destination is the module of that number (R291). -/
def State.isOwn (s : State) (v : Via) : Bool :=
  (v.src == s.modnum && s.isHere v.dest) || (v.src == 0x3FFF && v.dest == 0x3FFF)

/-- Whether what arrives is for this module; without a number it takes nothing from the fabric (10 R291). -/
def State.forMe (s : State) (v : Via) : Bool :=
  s.flag A.tmrId F.tmrId.ASSIGNED && v.dest == s.modnum

end Sys2Proof.Machine
end

