-- ==== Sys2Proof/Machine/Counters.lean ====
section
/-!
DEFINITION. The sync table at the home of a counter: signal, wait test, take, restore, store, the waiter
records and the results they leave (11 R323 to R335; 06 R185).
-/
namespace Sys2Proof.Machine

/-- The value of a counter (11 R342). -/
def State.counter (s : State) (i : Nat) : Nat := s.fld (A.syncCnt i) F.syncCnt.VALUE

/-- The state with a counter's value replaced. -/
def State.setCounter (s : State) (i v : Nat) : State := s.setFld (A.syncCnt i) F.syncCnt.VALUE v

/-- The first entry of the layer flag word that an entry belongs to (06 R184). -/
def wordOf (i : Nat) : Nat := i - i % 4

/-- Whether an entry lies in an armed layer flag word (06 R184, R185). The sync table holds which words have an attempt
open: bit 31 of the first entry shows it, and a counter that is no layer flag word may hold that bit as part of its
value (11 R324; log 25). -/
def State.armed (s : State) (i : Nat) : Bool := s.sync.armedWords.contains (wordOf i)

/-- The identity of an issuer in events: Bench in [9:0], context in [11:10], source kind in [14:12]
(11 R340). -/
def whoWord (w : Who) : Nat := w.bench % 1024 + (w.ctx % 4) * 1024 + (w.kind % 8) * 4096

/-- An operation on an armed layer flag word is discarded with event 0x52 (06 R185, 11 R340). -/
def State.discard (s : State) (i m : Nat) (w : Who) (op : Nat) : State :=
  s.raise 0x52 (evSource 4 0) (leBytes 2 i ++ leBytes 2 m ++ leBytes 2 (whoWord w) ++ [BitVec.ofNat 8 op])

/-- OVF or UDF is set; event 0x53 when it was clear (11 R340). -/
def State.stick (s : State) (i m : Nat) (w : Who) (udf : Bool) : State :=
  let f := if udf then F.syncCnt.UDF else F.syncCnt.OVF
  if s.flag (A.syncCnt i) f then s
  else (s.hwSet (A.syncCnt i) f).raise 0x53 (evSource 4 0)
    (leBytes 2 i ++ leBytes 2 m ++ leBytes 2 (whoWord w) ++ [if udf then 2 else 1])

/-- `SYNC_STAT.WAITERS` shows the records held (11 R342). -/
def State.putWaiters (s : State) (l : List Waiter) : State :=
  (s.putSync { s.sync with waiters := l }).setFld A.syncStat F.syncStat.WAITERS l.length

/-- The counter that an address of the form of 04 R125 names: module and index. -/
def cntModule (a : Nat) : Nat := bits a 29 16

/-- The index of a counter address (04 R125). -/
def cntIndex (a : Nat) : Nat := bits a 15 0

/-- Event 0x50 or 0x51 of an issuer (11 R340). -/
def State.syncEvent (s : State) (code pc counter : Nat) (w : Who) (reason op : Nat) : State :=
  let m := if cntModule counter == 0x3FFF then s.modnum else cntModule counter
  s.raise code (evSource 4 0)
    (leBytes 8 pc ++ leBytes 2 m ++ leBytes 2 (cntIndex counter) ++ leBytes 2 (whoWord w) ++
      [BitVec.ofNat 8 reason, BitVec.ofNat 8 op])

/-- The number of an operation in events 0x50 to 0x52 (11 R340). -/
def syncOpCode : SyncOp → Nat
  | .signal _ => 1 | .wait .. => 2 | .take _ => 3 | .restore _ => 4 | .openWord .. => 6
  | .arrival .. => 7 | .abort .. => 7 | .outcome _ => 7 | .cancel => 2 | .notify .. => 2

/-- The waiters that the Sideboards' own waits of the global norm are (08 R243): on `CIDX`, on `RIDX`. -/
def sumWho : Who := ⟨3, 0, 0, 1⟩

/-- The wait of a module on `RIDX`. -/
def resultWho : Who := ⟨3, 0, 0, 2⟩

/-- A record completes: its result is kept until it is answered, and a NOTIFY carries it to the waiter's
module (11 R328, R330). Within this module the NOTIFY enters no port, and Sideboard 0 learns of its own wait's end at once. -/
def State.notify (s : State) (r : Waiter) (res : WaitResult) : State :=
  if r.home == s.modnum && r.who == sumWho then s.putSbd { s.sbd with sumWait := .done }
  else if r.home == s.modnum && r.who == resultWho then s.putSbd { s.sbd with resultWait := .done }
  else
  let s := s.putSync { s.sync with kept := s.sync.kept ++ [⟨r, res, none⟩] }
  if r.home == s.modnum then s
  else
    let (s, failed) := s.submit r.home 5 0 0 (.sync r.index r.who (.notify res r.threshold r.consume r.index)) (.notify r.index r.who)
    if failed then
      (s.putSync { s.sync with kept := s.sync.kept.map (fun k =>
        if k.waiter == r then { k with failedAt := some s.pulse } else k) }).syncEvent 0x51 0 (0x3FFF0000 + r.index) r.who 1 2
    else s

/-- The waiter records of a counter whose value has risen are examined in the order of their creation; each
one satisfied completes, a consuming one taking its threshold before the next is examined (11 R326). -/
def State.examine (s : State) (i : Nat) : State :=
  s.sync.waiters.foldl (fun s r =>
    if r.index == i && decide (s.counter i ≥ r.threshold) && !(r.consume && s.armed i) then
      let v := s.counter i
      let s := if r.consume then s.setCounter i (v - r.threshold) else s
      let s := s.putWaiters (s.sync.waiters.filter (· != r))
      s.notify r (.satisfied v)
    else s) s

/-- The value is raised with saturation: a signal, or a restore (11 R324). -/
def State.counterAdd (s : State) (i inc m : Nat) (w : Who) (op : Nat) : State :=
  if s.armed i then s.discard i m w op
  else
    let v := s.counter i + inc
    let s := s.setCounter i (min v 0xFFFFFFFF)
    let s := if v > 0xFFFFFFFF then s.stick i m w false else s
    if inc = 0 then s else s.examine i

/-- A signal at the home (11 R324). -/
def State.signalAt (s : State) (i inc m : Nat) (w : Who) : State := s.counterAdd i inc m w 1

/-- A restore at the home (11 R324). -/
def State.restoreAt (s : State) (i amount m : Nat) (w : Who) : State := s.counterAdd i amount m w 4

/-- A wait test at the home (11 R325, R329, R331): the state and the answer. -/
def State.waitAt (s : State) (i threshold : Nat) (consume : Bool) (tmo m : Nat) (w : Who) : State × SyncAns :=
  if consume && s.armed i then (s.discard i m w 2, .discarded)
  else
    let v := s.counter i
    if v ≥ threshold then ((if consume then s.setCounter i (v - threshold) else s), .value v)
    else if s.sync.waiters.length ≥ 16384 then (s.incSat A.syncStat F.syncStat.BUSY 1, .busy)
    else
      let dl := if w.ctx == 0 then none else some (s.pulse + tmo * usPulses)
      (s.putWaiters (s.sync.waiters ++ [⟨i, m, w, threshold, consume, dl⟩]), .held)

/-- A take at the home (11 R324): the state and the answer. -/
def State.takeAt (s : State) (i amount m : Nat) (w : Who) : State × SyncAns :=
  if s.armed i then (s.discard i m w 3, .discarded)
  else
    let v := s.counter i
    let s := s.setCounter i (v - amount)
    ((if amount > v then s.stick i m w true else s), .value v)

/-- A store to `VALUE` (11 R324, R342): an operation in the counter's order. -/
def State.storeAt (s : State) (i v m : Nat) (w : Who) : State :=
  if s.armed i then s.discard i m w 5
  else
    let old := s.counter i
    let s := s.setCounter i v
    if v % 2 ^ 32 > old then s.examine i else s

/-- A CANCEL at the home (11 R333): the state and the answer. -/
def State.cancelAt (s : State) (i m : Nat) (w : Who) : State × CancelAns :=
  if s.sync.waiters.any (fun r => r.index == i && r.who == w && r.home == m) then
    (s.putWaiters (s.sync.waiters.filter (fun r => !(r.index == i && r.who == w && r.home == m))), .cancelled)
  else match s.sync.kept.find? (fun k => k.waiter.index == i && k.waiter.who == w && k.waiter.home == m) with
    | some k => (s.putSync { s.sync with kept := s.sync.kept.filter (· != k) }, .satisfied k.result)
    | none => (s, .unknown)

/-- A synchronisation operation of this module's own requester sets out to a counter (11 R328): to this
module's table without entering a port, else as a SYNC transaction of kind 5. Answers whether it failed at
once. -/
def State.syncSend (s : State) (counter : Nat) (w : Who) (op : SyncOp) (pc : Nat) : State × Bool :=
  let m := cntModule counter
  let i := cntIndex counter
  if s.isHere m then (s.putSync { s.sync with inbox := s.sync.inbox ++ [(i, w, op)] }, false)
  else s.submit m 5 w.bench w.ctx (.sync i w op) (.sync pc)

/-- A signal of a unit of this module, not a context (move completion, Sideboard, Trestle, Hutch): at this
module's own table it is performed at once, at another module's it is sent (11 R324). A failure to send is
reported by event 0x51 (11 R334). -/
def State.unitSignal (s : State) (counter inc : Nat) (w : Who) (pc : Nat) : State :=
  let m := cntModule counter
  if s.isHere m then s.signalAt (cntIndex counter) inc s.modnum w
  else
    let (s, failed) := s.submit m 5 w.bench w.ctx (.sync (cntIndex counter) w (.signal inc)) (.sync pc)
    if failed then s.raise 0x51 (evSource 4 0)
      (leBytes 8 pc ++ leBytes 2 m ++ leBytes 2 (cntIndex counter) ++ leBytes 2 (whoWord w) ++ [1, 1]) else s

end Sys2Proof.Machine
end

