-- ==== Sys2Proof/Machine/Context.lean ====
section
/-!
DEFINITION. The contexts of a Bench: register files, flags and the NaN trap, stops, starts, lending, and
the issue of an instruction (04 R103 to R125, 06 R177 to R182, R191, 11 R338, R339).
-/
namespace Sys2Proof.Machine

/-! ### Register files (04 R109) -/

/-- A scalar register; s0 reads zero (04 R109). -/
def State.s (s : State) (b : Nat) (c : Ctx) (r : Nat) : Word :=
  if r = 0 then 0 else FMap.getD (s.ctx b c).s r 0

/-- A scalar register written; a write of s0 is ignored (04 R109). -/
def State.setS (s : State) (b : Nat) (c : Ctx) (r : Nat) (v : Word) : State :=
  if r = 0 then s else s.modCtx b c (fun x => { x with s := FMap.set x.s r v })

/-- A vector register. -/
def State.v (s : State) (b : Nat) (c : Ctx) (r : Nat) : VWord := FMap.getD (s.ctx b c).v r 0

/-- A vector register written. -/
def State.setV (s : State) (b : Nat) (c : Ctx) (r : Nat) (v : VWord) : State :=
  s.modCtx b c (fun x => { x with v := FMap.set x.v r v })

/-- A tile descriptor register (04 R111). -/
def State.t (s : State) (b : Nat) (c : Ctx) (r : Nat) : TWord := FMap.getD (s.ctx b c).t r 0

/-- A tile descriptor register written. -/
def State.setT (s : State) (b : Nat) (c : Ctx) (r : Nat) (v : TWord) : State :=
  s.modCtx b c (fun x => { x with t := FMap.set x.t r v })

/-- A predicate register; p0 reads all ones (04 R109). -/
def State.p (s : State) (b : Nat) (c : Ctx) (r : Nat) : TWord :=
  if r = 0 then BitVec.allOnes 256 else FMap.getD (s.ctx b c).p r 0

/-- A predicate register written; a write of p0 is ignored (04 R109). -/
def State.setP (s : State) (b : Nat) (c : Ctx) (r : Nat) (v : TWord) : State :=
  if r = 0 then s else s.modCtx b c (fun x => { x with p := FMap.set x.p r v })

/-! ### Lending of Desk power (11 R338, R339) -/

/-- A context or a Desk of the Bench has come to rest: the time before lending runs from here. -/
def State.rest (s : State) (b : Nat) : State :=
  s.modBench b (fun x => { x with lend := { x.lend with since := s.pulse } })

/-- The lending of a Bench ends (11 R339): its bit clears, and 64 cycles later the Desks are usable. -/
def State.lendEnd (s : State) (b : Nat) : State :=
  if (s.bench b).lend.lending then
    let s := s.modBench b (fun x => { x with lend := { x.lend with lending := false, ungateAt := some (s.benchCyc b + 64) } })
    s.setBit (A.syncLent (b / 64)) F.syncLent.LENT (b % 64) false
  else s

/-- Whether what a context waits for lets its Bench lend power (11 R338): `WAIT`, `LOPEN`, `LCOMMIT` or `TAKE`. -/
def CtxSt.rests (x : CtxSt) : Bool :=
  match x.blk with
  | some (.wait _) => true
  | some (.restore _) => true
  | some (.take ..) => true
  | some (.lopen ..) => true
  | some (.lcommitFence ..) => true
  | some (.lcommit ..) => true
  | _ => false

/-- A BLOCKED or STOPPED context goes on (04 R104), which ends lending (11 R339). -/
def State.wake (s : State) (b : Nat) (c : Ctx) : State := (s.unblock b c).lendEnd b

/-! ### Layers and flags (06 R177, R178) -/

/-- Whether a context has a layer open (06 R186); the DWL context never has. -/
def State.layerOpen (s : State) (b : Nat) (c : Ctx) : Bool :=
  c != .D && s.flag (A.numLayer b c.idx) F.numLayer.OPEN

/-- The number of the layer an operation belongs to: 0 outside a layer (06 R178). -/
def State.layerGen (s : State) (b : Nat) (c : Ctx) : Nat := if s.layerOpen b c then (s.ctx b c).lgen else 0

/-- The flag register of a unit: Desk 0 to 3, or the vector unit (06 R177, 04 R137). -/
def flagReg (b unit : Nat) : Nat := if unit < 4 then A.numDflag b unit else A.numVflag b

/-- Flags raised by an operation of a context in a unit: the unit's sticky flags, and the layer flags where
the operation was issued in the layer that is still open (06 R178). -/
def State.raiseFlags (s : State) (b : Nat) (c : Ctx) (unit : Nat) (fl : Flags) (lgen : Nat) : State :=
  if fl.bits = 0 then s
  else
    let s := s.hwOr (flagReg b unit) ⟨3, 0⟩ fl.bits
    if lgen != 0 && lgen == s.layerGen b c then s.orFld (A.numLayer b c.idx) F.numLayer.LFLAGS fl.bits else s

/-! ### Stopping (04 R105, R107, R108, R123; 06 R191; 11 R333) -/

/-- The instructions of a context that have not started leave the Desks' queues (04 R105). -/
def State.dropQueued (s : State) (b : Nat) (c : Ctx) : State :=
  (List.range 4).foldl (fun s d =>
    if (s.desk b d).queue.any (fun e => e.ctx == c) then
      s.modDesk b d (fun x => { x with queue := x.queue.filter (fun e => e.ctx != c) })
    else s) s

/-! ### The job (15 R434, 16 R461) -/

/-- Availability time up to now is added to its counters (16 R461): all of it to `EVT_AVAIL_T` while a job
is RUNNING or awaits the end of a reset, and to `EVT_AVAIL_U` while the health is FAILED, `CAP` is below
62,915, or the module is in such a reset. -/
def State.countAvail (s : State) : State :=
  let us := (s.pulse - s.flt.availAt) / usPulses
  let s' := s.putFlt { s.flt with availAt := s.flt.availAt + us * usPulses }
  let job := s.fld A.mbxStat F.mbxStat.JOB
  if s.flt.counting then
    let s' := s'.incWrap A.evtAvailT F.evtAvailT.US us
    if job != 2 || s.fld A.evtHealth F.evtHealth.STATE == 2 || decide (s.fld A.evtHealth F.evtHealth.CAP < 62915)
    then s'.incWrap A.evtAvailU F.evtAvailU.US us else s'
  else s'

/-- The job state changes (15 R434); availability time runs from RUNNING on, and in a reset that the host did not
request until the job is RUNNING again (16 R461). -/
def State.setJob (s : State) (j : Nat) : State :=
  let s := s.countAvail
  let old := s.fld A.mbxStat F.mbxStat.JOB
  let s := s.setFld A.mbxStat F.mbxStat.JOB j
  if j = 2 then s.putFlt { s.flt with counting := true }
  else if old = 2 then s.putFlt { s.flt with counting := false } else s

/-- Whether every thread is STOPPED (15 R434). -/
def State.allStopped (s : State) : Bool := s.benches.all (fun p => !s.live p.1 .F && !s.live p.1 .B)

/-- A stop of every thread makes a RUNNING job STOPPED (15 R434). -/
def State.jobCheck (s : State) : State :=
  if s.fld A.mbxStat F.mbxStat.JOB == 2 && s.allStopped then s.setJob 3 else s

/-- What a stopped thread does about its open layer (06 R191): a layer opened with LOST just closes, so does
one whose arrival has been sent; otherwise an abort arrival is due once its started work has completed. -/
def State.leaveLayer (s : State) (b : Nat) (c : Ctx) (arrived trap : Bool) : State :=
  if !s.layerOpen b c then s
  else if arrived || s.flag (A.numLayer b c.idx) F.numLayer.LOST then s.setFld (A.numLayer b c.idx) F.numLayer.OPEN 0
  else s.modCtx b c (fun x => { x with abortDue := some trap })

/-- The stop takes effect (04 R105, R107, R123): state, cause and address recorded, queued Desk instructions
discarded, the Bench error event of an illegal instruction raised. A context that rested for lending rests on (11 R338). -/
def State.stopNow (s : State) (b : Nat) (c : Ctx) (cause : Nat) (faddr : Option Nat) : State :=
  let arrived := match (s.ctx b c).blk with
    | some (.lcommit ..) => true
    | _ => false
  let rested := (s.ctx b c).rests
  let fa := faddr.getD (s.pc b c)
  let s := s.modCtx b c (fun x => { x with blk := none, stopping := none, begun := none })
  let s := s.dropQueued b c
  let s := if cause ≥ 0x10 then s.setFld (A.benchFaddr b c.idx) F.benchFaddr.ADDR fa else s
  let s := match c with
    | .D =>
      let s := s.setFld (A.benchDwlStat b) F.benchDwlStat.CAUSE cause
      let s := s.setFld (A.benchDwlStat b) F.benchDwlStat.FAULTED 1
      s.setFld (A.benchDwlStat b) F.benchDwlStat.RUNNING 0
    | _ =>
      let s := s.setFld (A.benchThr b c.idx) F.benchThr.STATE 0
      let s := s.setFld (A.benchThr b c.idx) F.benchThr.CAUSE cause
      s.hwDone (A.benchThr b c.idx) F.benchThr.STOP
  let s := if cause ≥ 0x10 && cause != 0x30 then
      s.raise 0x80 (evSource 1 b) (leBytes 8 fa ++ leBytes 2 (whoBits b c) ++ [BitVec.ofNat 8 cause])
    else s
  let s := s.leaveLayer b c arrived (cause == 0x30)
  (if rested then s else s.rest b).jobCheck

/-- The identity of a context's present wait. -/
def State.whoOf (s : State) (b : Nat) (c : Ctx) : Who := ⟨5, b, c.code, (s.ctx b c).waitNo⟩

/-- A stop at the next instruction boundary (04 R105): a context BLOCKED in a held `WAIT` sends CANCEL and
stops when it is answered; one in `TAKE`, in `LOPEN`, or in a `WAIT` not yet answered stops after the
answer (11 R333, 06 R191); any other stops at once. -/
def State.stop (s : State) (b : Nat) (c : Ctx) (cause : Nat) (faddr : Option Nat) : State :=
  let x := s.ctx b c
  if !s.live b c || x.stopping.isSome then s
  else
    let defer (s : State) : State := (s.modCtx b c (fun y => { y with stopping := some ⟨cause, faddr, none⟩ })).dropQueued b c
    match x.blk with
    | some (.wait w) =>
      match w.phase with
      | .held =>
        let (s, failed) := s.syncSend w.counter (s.whoOf b c) .cancel (s.pc b c - 8)
        if failed then (s.syncEvent 0x51 (s.pc b c - 8) w.counter (s.whoOf b c) 1 2).stopNow b c cause faddr
        else defer (s.modCtx b c (fun y => { y with blk := some (.wait { w with phase := .cancelStop, phaseAt := s.pulse }) }))
      | .sent => defer s
      | .cancelStop => s
      | .cancelBack => defer s
      | .due =>
        (s.putTmr { s.tmr with waitq := s.tmr.waitq.filter (fun t => match t.req with
          | .sync _ who _ => who != s.whoOf b c
          | _ => true) }).stopNow b c cause faddr
      | .busy => s.stopNow b c cause faddr
    | some (.take ..) => defer s
    | some (.lopen ..) => defer s
    | _ => s.stopNow b c cause faddr

/-- An instruction found illegal at issue (04 R107, R108): it reads and writes nothing; the context stops
with the address of the instruction. -/
def State.illegal (s : State) (b : Nat) (c : Ctx) (cause : Nat) : State := s.stop b c cause (some (s.pc b c))

/-- A STOPPED thread starts at its PC (04 R104, R142): its cause is cleared, `START` reads 0 again, and the instruction
cache is invalidated (04 R515). In reset no thread starts (17 R465). -/
def State.start (s : State) (b : Nat) (c : Ctx) : State :=
  if s.live b c || s.rst.level != 0 then s
  else
    let a := A.benchThr b c.idx
    let s := s.setFld a F.benchThr.CAUSE 0
    let s := s.modBench b (fun x => { x with icache := [], ifail := [] })
    let s := s.modCtx b c (fun x => { x with blk := none, begun := some s.pulse })
    ((s.setFld a F.benchThr.STATE 1).hwDone a F.benchThr.START).lendEnd b

/-! ### The NaN trap (06 R179 to R182) -/

/-- A trap event: its kind (1 invalid operation, 2 signalling NaN input, 3 poisoned line read; 06 R200), and
where it happened (06 R181). -/
structure TrapEv where
  kind : Nat
  unit : Nat
  row : Nat
  col : Nat
  set : Nat
  idx : Option Nat
  deriving DecidableEq, Repr

/-- Whether a trap event is suppressed (06 R182): the layer flags held O before this operation's own flags
are collected, and the rung is below the top of its ladder. -/
def State.suppressed (s : State) (b : Nat) (c : Ctx) : Bool :=
  let a := A.numLayer b c.idx
  s.flag (A.numCtl b) F.numCtl.SUPP && s.layerOpen b c && s.fldBit a F.numLayer.LFLAGS 3 &&
    decide (s.fld a F.numLayer.RUNG < if s.flag a F.numLayer.LAD then 2 else 3)

/-- Whether a trap event comes before another in the record (06 R181): the lower unit, then row, then column. -/
def TrapEv.before (x y : TrapEv) : Bool :=
  decide (x.unit < y.unit) || (x.unit == y.unit && (decide (x.row < y.row) || (x.row == y.row && decide (x.col < y.col))))

/-- The event that the record holds, of those of one cycle (06 R181). -/
def lowestEv : List TrapEv → Option TrapEv
  | [] => none
  | e :: l => some (l.foldl (fun x y => if y.before x then y else x) e)

/-- The `LTAG` of a trap of a context (06 R197, R200): that of its open layer. -/
def State.trapTag (s : State) (b : Nat) (c : Ctx) : Nat :=
  if s.layerOpen b c then s.fld (A.numLayer b c.idx) F.numLayer.LTAG else 0

/-- The numeric event of a trap (06 R197). -/
def State.trapEvent (s : State) (b : Nat) (c : Ctx) (ev : TrapEv) (pc : Nat) : Event :=
  ⟨0x01, evSource 1 b,
    leBytes 8 pc ++ leBytes 2 (whoBits b c + ev.unit * 4096) ++ leBytes 2 (s.trapTag b c) ++ leBytes 2 ev.row ++ leBytes 2 ev.col⟩

/-- The trap record of a context holds an event (06 R181, R200). -/
def State.trapRecord (s : State) (b : Nat) (c : Ctx) (ev : TrapEv) (pc opc : Nat) : State :=
  let a := A.numTrapStat b c.idx
  let s := s.setFld a F.numTrapStat.LTAG (s.trapTag b c)
  let s := s.setFld a F.numTrapStat.OPC opc
  let s := s.setFld a F.numTrapStat.UNIT ev.unit
  let s := s.setFld a F.numTrapStat.KIND ev.kind
  let s := s.setFld a F.numTrapStat.IDXV (if ev.idx.isSome then 1 else 0)
  let s := s.hwSet a F.numTrapStat.VALID
  let s := s.setFld (A.numTrapAddr b c.idx) F.numTrapAddr.ADDR pc
  let s := s.setFld (A.numTrapPos b c.idx) F.numTrapPos.SET ev.set
  let s := s.setFld (A.numTrapPos b c.idx) F.numTrapPos.ROW ev.row
  let s := s.setFld (A.numTrapPos b c.idx) F.numTrapPos.COL ev.col
  s.setFld (A.numTrapIdx b c.idx) F.numTrapIdx.IDX (ev.idx.getD 0)

/-- The event that the record of a context holds, where it was filled in this cycle, with its numeric event. -/
def State.trapNow (s : State) (b : Nat) (c : Ctx) : Option (TrapEv × Event) :=
  (s.cyc.traps.find? (fun p => p.1 == b && p.2.1 == c)).map (fun p =>
    let a := A.numTrapStat b c.idx
    let q := A.numTrapPos b c.idx
    (⟨s.fld a F.numTrapStat.KIND, s.fld a F.numTrapStat.UNIT, s.fld q F.numTrapPos.ROW, s.fld q F.numTrapPos.COL,
      s.fld q F.numTrapPos.SET, none⟩, p.2.2))

/-- A context stops by a trap (06 R180, R181): the event fills the record, or sets OVERRUN where it is held; event 0x01. -/
def State.trapStop (s : State) (b : Nat) (c : Ctx) (ev : TrapEv) (pc opc : Nat) : State :=
  let a := A.numTrapStat b c.idx
  let e := s.trapEvent b c ev pc
  let s :=
    if s.flag a F.numTrapStat.VALID then s.hwSet a F.numTrapStat.OVERRUN
    else
      let s := s.trapRecord b c ev pc opc
      s.putCyc { s.cyc with traps := (b, c, e) :: s.cyc.traps }
  (s.raise e.code e.source e.pay).stop b c 0x30 (some pc)

/-- The trap events of one cycle of an operation of a context (06 R180 to R182). Suppressed (`sup`, judged by the layer
flags before the cycle) they are counted. Otherwise the lowest stops the context with cause 0x30 while its trap is
enabled; where another unit has stopped it in this cycle, the record takes the lower event (R181). Answers whether
the context stops. -/
def State.trap (s : State) (b : Nat) (c : Ctx) (sup : Bool) (evs : List TrapEv) (pc opc : Nat) : State × Bool :=
  match lowestEv evs with
  | none => (s, false)
  | some ev =>
    if sup && (s.ctx b c).stopping.isNone then (s.incSat (A.numTrapStat b c.idx) F.numTrapStat.SUPP evs.length, false)
    else if s.fldBit (A.numCtl b) F.numCtl.TRAP c.idx && s.live b c && (s.ctx b c).stopping.isNone then
      (s.trapStop b c ev pc opc, true)
    else match s.trapNow b c with
      | none => (s, false)
      | some (old, e) =>
        if ev.before old then
          let e' := s.trapEvent b c ev pc
          let s := s.trapRecord b c ev pc opc
          let s := s.putEvt { s.evt with raised := s.evt.raised.map (fun x => if x == e then e' else x) }
          (s.putCyc { s.cyc with traps := (b, c, e') :: s.cyc.traps.filter (fun p => !(p.1 == b && p.2.1 == c)) }, false)
        else (s, false)

/-- Whether a pair of operands and flags makes a trap event, and of which kind (06 R179): a signalling NaN
input, or flag I where no input is a NaN. -/
def trapKind (ins : List FVal) (fl : Flags) : Option Nat :=
  if ins.any (fun v => v == .nan true) then some 2
  else if fl.i && !ins.any FVal.isNan then some 1
  else none

/-! ### Issue (04 R104, R106, R107, R122, R515) -/

/-- Whether a context can issue an instruction: it runs, or its instruction at issue is tried again; while its Bench is
taken over no context issues (16 R450, R451). -/
def State.canIssue (s : State) (b : Nat) (c : Ctx) : Bool :=
  s.live b c && (s.ctx b c).stopping.isNone && (s.bench b).takeover.isNone &&
    (match (s.ctx b c).blk with
     | none => true
     | some .issue => true
     | _ => false)

/-- What an instruction needs of the context that issues it: whether threads and the DWL context may issue it
(04 R122), the scalar and tile registers it names, the registers whose outstanding loads it waits for, and
its reserved bits. -/
structure Form where
  thread : Bool := true
  dwl : Bool := true
  sregs : List Nat := []
  tregs : List Nat := []
  rsv : Nat := 0
  deriving DecidableEq, Repr

/-- Whether a scalar register waits for a load (04 R106). -/
def State.loading (s : State) (b : Nat) (c : Ctx) (r : Nat) : Bool :=
  r != 0 && (s.ctx b c).loads.any (fun l => l.rd == r)

/-- The cause that makes an instruction illegal in its context or by its reserved bits (04 R107, R109, R122). -/
def formCause (c : Ctx) (f : Form) : Option Nat :=
  if c == .D && !f.dwl then some 0x14
  else if c != .D && !f.thread then some 0x14
  else if c == .D && (f.sregs.any (· ≥ 8) || f.tregs.any (· ≥ 8)) then some 0x12
  else if f.rsv != 0 then some 0x12
  else none

/-- A line of instructions that misses the cache is asked for (04 R515, 10 R310): of another module by a
read of its own, which can fail at once. -/
def State.fetchMiss (s : State) (b : Nat) (c : Ctx) (line : Nat) : State :=
  if s.isHere (modOf line) then s
  else if s.tmr.outst.any (fun p => p.2.owner == .fetch b c line) || s.tmr.waitq.any (fun t => t.owner == .fetch b c line) then s
  else
    let (s, failed) := s.submit (modOf line) c.idx b c.code (.rd (localOf line) 64) (.fetch b c line)
    if failed then s.modBench b (fun x => { x with ifail := line :: x.ifail }) else s

/-- The instruction at a context's PC issues. It does so only when the context can issue and its line is in
the instruction cache: a line whose fetch failed stops the context with cause 0x31, a missing one holds it
(04 R515); a register whose load is outstanding holds it (04 R106); then come the checks of its form, and
its own effect `k`. -/
def State.issue (s : State) (b : Nat) (c : Ctx) (f : Form) (k : State → State) : State :=
  let line := s.pc b c / 64 * 64
  if !s.canIssue b c then s
  else if (s.bench b).ifail.contains line then s.illegal b c 0x31
  else if !(s.bench b).icache.contains line then (s.fetchMiss b c line).block b c .issue
  else if f.sregs.any (s.loading b c) then s.block b c .issue
  else match formCause c f with
    | some cause => s.illegal b c cause
    | none => k s

/-- The other thread. -/
def otherThr : Ctx → Thr
  | .F => .B
  | _ => .F

/-- An instruction has issued (04 R106): a context held at issue runs again, and the turn passes to the other
thread where that could have issued too. -/
def State.issued (s : State) (b : Nat) (c : Ctx) : State :=
  let s := if (s.ctx b c).blk == some .issue then s.wake b c else s
  if c == .D then s
  else
    let both := s.canIssue b (otherThr c).ctx
    let s := s.modCtx b c (fun x => { x with begun := none })
    s.modBench b (fun x => { x with lastIssue := s.benchCyc b, turn := if both then otherThr c else x.turn })

/-- An instruction that issued goes on to the next word. -/
def State.done (s : State) (b : Nat) (c : Ctx) : State := (s.issued b c).setPc b c (s.pc b c + 8)

/-- An instruction that issued and blocks inside: the PC is that of the next instruction. -/
def State.doneBlock (s : State) (b : Nat) (c : Ctx) (k : Blk) : State := ((s.done b c).block b c k).rest b

end Sys2Proof.Machine
end

