-- ==== Sys2Proof/Machine/Claims.lean ====
section
/-!
DEFINITION. The shared resources: MARK_OUT, the staging region and the Hutch alarm timer, their claims and
refusals (18 R488 to R491; 09 R281).
-/
namespace Sys2Proof.Machine

/-- The field of `CONFLICT` that records refusals of a resource (18 R491). -/
def conflictFld (res : Nat) : Fld :=
  match res with
  | 1 => F.conflict.MARK
  | 2 => F.conflict.STAGE
  | _ => F.conflict.ALARM

/-- A refusal is counted and recorded; event 0xB5 where the claimant's bit was clear (18 R491). Resources: 1
MARK_OUT, 2 staging, 3 alarm timer. -/
def State.refuse (s : State) (res clm holder : Nat) : State :=
  let old := s.fldBit A.conflict (conflictFld res) (clm - 1)
  let s := s.incSat A.conflict F.conflict.COUNT 1
  let s := s.setFld A.conflict F.conflict.LASTRES res
  let s := s.setFld A.conflict F.conflict.LASTCLM clm
  let s := s.hwOr A.conflict (conflictFld res) (2 ^ (clm - 1))
  if old then s
  else s.raise 0xB5 (evSource 0 0) [BitVec.ofNat 8 res, BitVec.ofNat 8 clm, BitVec.ofNat 8 holder]

/-- A resource is claimed in this cycle (18 R488). -/
def State.claimed (s : State) (res clm : Nat) : State := s.putCyc { s.cyc with claims := (res, clm) :: s.cyc.claims }

/-- Whether a claim wins a resource against its holder: the holder claimed it in this very cycle, and the claimant has the
lower code (18 R488). -/
def State.outranks (s : State) (res clm holder : Nat) : Bool := s.cyc.claims.contains (res, holder) && decide (clm < holder)

/-- MARK_OUT is driven to a level. -/
def State.driveMark (s : State) (high : Bool) : State :=
  if s.clk.mark == high then s else (s.putClk { s.clk with mark := high }).send (.markOut high)

/-- The enable bit of a claimant of MARK_OUT (18 R489). -/
def State.setMarkEnable (s : State) (clm : Nat) (en : Bool) : State :=
  match clm with
  | 1 => s.setFld A.gtPps F.gtPps.OUTEN en.toNat
  | 2 => s.setFld A.clkMark F.clkMark.CALEN en.toNat
  | _ => s.setFld A.clkMark F.clkMark.DBGEN en.toNat

/-- A claimant's enable is written (18 R488, R489): 1 claims a free MARK_OUT or is refused while another
holds it, but for a holder that claimed it in this cycle with a higher code; 0 releases it, and the pin is driven low. -/
def State.markClaim (s : State) (clm : Nat) (en : Bool) : State :=
  let holder := s.fld A.clkMark F.clkMark.HOLDER
  if en then
    if holder = 0 then ((s.setMarkEnable clm true).setFld A.clkMark F.clkMark.HOLDER clm).claimed 1 clm
    else if holder = clm then s
    else if s.outranks 1 clm holder then
      let s := ((s.setMarkEnable holder false).setMarkEnable clm true).setFld A.clkMark F.clkMark.HOLDER clm
      ((s.driveMark false).claimed 1 clm).refuse 1 holder clm
    else s.refuse 1 clm holder
  else if holder = clm then
    let s := (s.setMarkEnable clm false).setFld A.clkMark F.clkMark.HOLDER 0
    s.driveMark false
  else s

/-- The alarm timer is claimed for the calendar (1) or the sweep (2), or the claim is refused (18 R490);
answers whether it is held. -/
def State.alarmTake (s : State) (clm : Nat) : State × Bool :=
  let owner := s.fld A.clkAlarm F.clkAlarm.OWNER
  if owner = 0 then ((s.setFld A.clkAlarm F.clkAlarm.OWNER clm).claimed 3 clm, true)
  else if owner = clm then (s, true)
  else if s.outranks 3 clm owner then
    let s := (s.setFld A.clkAlarm F.clkAlarm.SWEEP 0).setFld A.clkAlarm F.clkAlarm.OWNER clm
    ((s.claimed 3 clm).refuse 3 owner clm, true)
  else (s.refuse 3 clm owner, false)

/-- The alarm timer is released by its holder. -/
def State.alarmFree (s : State) (clm : Nat) : State :=
  if s.fld A.clkAlarm F.clkAlarm.OWNER = clm then s.setFld A.clkAlarm F.clkAlarm.OWNER 0 else s

/-- `CLK_ALARM.SWEEP` is written (18 R490). -/
def State.sweepClaim (s : State) (en : Bool) : State :=
  if en then
    let was := s.flag A.clkAlarm F.clkAlarm.SWEEP
    let (s, held) := s.alarmTake 2
    if held && !was then (s.setFld A.clkAlarm F.clkAlarm.SWEEP 1).putClk { s.clk with sweepAt := s.pulse } else s
  else if s.fld A.clkAlarm F.clkAlarm.OWNER = 2 then (s.alarmFree 2).setFld A.clkAlarm F.clkAlarm.SWEEP 0
  else s

/-- `TBY_STAGE.OWNER` is written (09 R281, 18 R488): a claim of the Trestle that `TRS_CTL.EN` has taken stands. -/
def State.stageClaim (s : State) (x : Nat) : State :=
  let owner := s.fld A.tbyStage F.tbyStage.OWNER
  match x with
  | 0 => if owner = 1 then s.setFld A.tbyStage F.tbyStage.OWNER 0 else s
  | 3 => s
  | x =>
    if owner = 0 then (s.setFld A.tbyStage F.tbyStage.OWNER x).claimed 2 x
    else if owner = x then s
    else if s.outranks 2 x owner && !s.flag A.trsCtl F.trsCtl.EN then
      ((s.setFld A.tbyStage F.tbyStage.OWNER x).claimed 2 x).refuse 2 owner x
    else s.refuse 2 x owner

/-- `PPS_OUT_CLAIM` (18 R488). -/
def execPpsOutClaim (en : Bool) (s : State) : Out := .next (s.markClaim 1 en)

/-- `CAL_MARK_CLAIM` (18 R489). -/
def execCalMarkClaim (en : Bool) (s : State) : Out := .next (s.markClaim 2 en)

/-- `DBG_TRIGGER_CLAIM` (18 R489). -/
def execDbgTriggerClaim (en : Bool) (s : State) : Out := .next (s.markClaim 3 en)

/-- `ALARM_SWEEP_CLAIM` (18 R490). -/
def execAlarmSweepClaim (en : Bool) (s : State) : Out := .next (s.sweepClaim en)

/-- The sweep's contexts that have been BLOCKED in `WAIT`, `LOPEN` or `LCOMMIT` for a whole period (18 R490),
lowest Bench first. -/
def State.longBlocked (s : State) : List (Nat × Ctx) :=
  let period := max 1 (s.fld A.clkAlarm F.clkAlarm.PERIOD) * 1000
  s.benches.foldr (fun p l =>
    ([Ctx.F, Ctx.B, Ctx.D].filter (fun c => match (s.ctx p.1 c).blk with
      | some (.wait w) => s.reached w.issuedAt period
      | some (.lopen _ _ _ _ since) => s.reached since period
      | some (.lcommitFence _ _ _ since) => s.reached since period
      | some (.lcommit _ _ _ since) => s.reached since period
      | _ => false)).map (fun c => (p.1, c)) ++ l) []

/-- `ALARM_SWEEP` (18 R490): while the sweep holds the timer, every period; event 0x54 where any context was
recorded. -/
def execAlarmSweep (s : State) : Out :=
  if s.flag A.clkAlarm F.clkAlarm.SWEEP &&
      s.reached s.clk.sweepAt (max 1 (s.fld A.clkAlarm F.clkAlarm.PERIOD) * 1000) then
    let l := s.longBlocked
    let s := s.putClk { s.clk with sweepAt := s.pulse }
    match l with
    | [] => .next s
    | p :: _ => .next (s.raise 0x54 (evSource 4 0) (leBytes 2 l.length ++ leBytes 2 (whoBits p.1 p.2)))
  else .next s

end Sys2Proof.Machine
end

