-- ==== Sys2Proof/Machine/Logs.lean ====
section
/-!
DEFINITION. Global time as it is read (14 R408, R410; 15 R435) and as the Trestle shows it (12 R346), and the logs in
Tallboy (06 R196).
-/
namespace Sys2Proof.Machine

/-- Units of 2^-40 ns in a second. -/
def gtSecond : Nat := 1000000000 * 2 ^ 40

/-- The seconds of global time (14 R408). -/
def State.gtSec (s : State) : Nat := s.gt.now / gtSecond % 2 ^ 48

/-- The nanoseconds of global time (14 R408). -/
def State.gtNs (s : State) : Nat := s.gt.now % gtSecond / 2 ^ 40

/-- The fraction of global time in 2^-16 ns (14 R408). -/
def State.gtFrac (s : State) : Nat := s.gt.now % 2 ^ 40 / 2 ^ 24

/-- `TIMEINV` and `TRS_ROUND.VALID` follow the validity of global time (12 R346, R373). -/
def State.showTime (s : State) : State :=
  let v := s.flag A.gtStat F.gtStat.VALID
  (s.setFld A.trsStat F.trsStat.TIMEINV (!v && s.flag A.trsCtl F.trsCtl.EN).toNat).setFld A.trsRound F.trsRound.VALID v.toNat

/-- The registers of a log (06 R196, R201; 08 R242; 12 R370), whose fields lie alike. -/
structure LogRegs where
  base : Nat
  ctl : Nat
  stat : Nat
  deriving DecidableEq, Repr

/-- The escalation log (06 R201). -/
def elog : LogRegs := ⟨A.numElogBase, A.numElogCtl, A.numElogStat⟩

/-- The gate log (08 R242). -/
def glog : LogRegs := ⟨A.sbdGlogBase, A.sbdGlogCtl, A.sbdGlogStat⟩

/-- The apply log (12 R370). -/
def alog : LogRegs := ⟨A.trsAlogBase, A.trsAlogCtl, A.trsAlogStat⟩

/-- The number of entries of a log, as a power of two: 6 to 20, other values act as 20 (06 R201). -/
def logSize (n : Nat) : Nat := if 6 ≤ n ∧ n ≤ 20 then n else 20

/-- An entry goes to a log (06 R196): word 0 is its sequence number. Without `EN` nothing happens; with a
full ring the entry is dropped, counted, and, where the log has an event for it, reported with its number. The
entries take `size` bytes. -/
def State.logPut (s : State) (l : LogRegs) (size cls : Nat) (body : List Byte) (code : Option Nat) (source : Nat) : State :=
  if !s.flag l.ctl F.numElogCtl.EN then s
  else
    let n := logSize (s.fld l.ctl F.numElogCtl.SIZE)
    let head := s.fld l.ctl F.numElogCtl.HEAD
    let used := (head + 2 ^ 24 - s.fld l.ctl F.numElogCtl.TAIL) % 2 ^ 24
    let seq := FMap.getD s.logSeq l.ctl 0
    let s := s.putLogSeq (FMap.set s.logSeq l.ctl ((seq + 1) % 2 ^ 64))
    if used = 2 ^ n then
      let s := s.incSat l.stat F.numElogStat.LOST 1
      match code with
      | some c => s.raise c source (leBytes 8 seq)
      | none => s
    else
      let a := s.fld l.base F.numElogBase.BASE * 32 + head % 2 ^ n * size
      let s := s.memWrite cls a (leBytes 8 seq ++ body)
      s.setFld l.ctl F.numElogCtl.HEAD (head + 1)

/-- A 32 B entry of the escalation log or the gate log. -/
def State.logEntry (s : State) (l : LogRegs) (cls : Nat) (body : List Byte) (code : Option Nat) (source : Nat) : State :=
  s.logPut l 32 cls body code source

/-- A 64 B record of the apply log (12 R370); a dropped one raises event 0x66. -/
def State.logEntry64 (s : State) (body : List Byte) : State := s.logPut alog 64 5 body (some 0x66) (evSource 5 0)

end Sys2Proof.Machine
end

