-- ==== Sys2Proof/Machine/GtServo.lean ====
section
/-!
DEFINITION. Global time: its uncertainty and validity, the servo's measurements, steps and corrections, and
the software set (14 R408 to R418).
-/
namespace Sys2Proof.Machine

/-- The correction that is pending in 2^-16 ns, a candidate that awaits confirmation included (14 R417). -/
def Gt.pendingCorr (g : Gt) : Int :=
  let c := g.corr / 2 ^ 24
  match g.cand.getLast? with
  | some x => c - (x - g.offset)
  | none => c

/-- The uncertainty U in ns (14 R417): 0xFFFF_FFFF before the first measurement. -/
def State.gtUnc (s : State) : Nat :=
  match s.gt.measAt with
  | none => 0xFFFFFFFF
  | some t =>
    let held := s.fld A.gtCfg F.gtCfg.HOLD * (s.pulse - t) / (1000000 * usPulses)
    min 0xFFFFFFFF ((s.gt.offset.natAbs + s.gt.pendingCorr.natAbs) / 65536 + s.fld A.gtCfg F.gtCfg.ASYM + held)

/-- Whether GT is valid in a state of the servo (14 R415). -/
def State.gtOk (s : State) (st : Nat) : Bool :=
  let umax := s.fld A.gtUnc F.gtUnc.UMAX
  (umax == 0 || decide (s.gtUnc ≤ umax)) && (st == 2 || st == 3 || (st == 1 && s.flag A.gtStat F.gtStat.EVER))

/-- The registers of global time follow the servo; a change of state or of `VALID` raises event 0x72
(14 R415, R419). -/
def State.gtShow (s : State) (st : Nat) : State :=
  let old := s.fld A.gtStat F.gtStat.STATE
  let ov := s.flag A.gtStat F.gtStat.VALID
  let u := s.gtUnc
  let v := s.gtOk st
  let off : Int := max (-2147483648) (min 2147483647 (s.gt.offset / 65536))
  let s := s.setFld A.gtStat F.gtStat.STATE st
  let s := s.setFld A.gtStat F.gtStat.VALID v.toNat
  let s := if v then s.setFld A.gtStat F.gtStat.EVER 1 else s
  let s := s.setFld A.gtStat F.gtStat.OFFSET (toBits 32 off)
  let s := s.setFld A.gtStat F.gtStat.SLEWING (if s.gt.corr = 0 then 0 else 1)
  let s := (s.setFld A.gtUnc F.gtUnc.U u).showTime
  if old = st && ov == v then s
  else s.raise 0x72 (evSource 6 0)
    ([BitVec.ofNat 8 old, BitVec.ofNat 8 st, if v then 1 else 0] ++ leBytes 5 0 ++ leBytes 4 u)

/-- The validity is judged afresh in the present state, as after a change of the limits. -/
def State.gtJudge (s : State) : State := s.gtShow (s.fld A.gtStat F.gtStat.STATE)

/-- The step threshold in 2^-16 ns (14 R420). -/
def State.stepTh (s : State) : Int := (s.fld A.gtCfg F.gtCfg.STEPTH : Int) * 65536

/-- The slew limit in ppm (14 R420). -/
def State.slewPpm (s : State) : Nat := max 1 (min 1000 (s.fld A.gtCfg F.gtCfg.SLEW))

/-- A measurement is used (14 R415 to R417): the filter's output and the servo's new estimate of the
reference rate are free (log 3), the rate within the 3 % by which a tick can differ from 10 ns at all (14, the table of
clock sources; log 11). -/
def State.servoUse (s : State) (x : Int) : State :=
  let off := Config.servoFilter s.fresh s.gt.offset x
  let (d, s) := s.draw (6 * 2 ^ 40 / 10)
  s.putGt { s.gt with
    offset := off
    inc := 97 * 2 ^ 40 / 10 + d
    cand := []
    measAt := some s.pulse
    good := if (off.natAbs : Int) ≤ s.stepTh then s.gt.good + 1 else 0 }

/-- A step is confirmed (14 R416): it becomes the pending correction, slewed by a share per tick that is free
within the limit of `SLEW` and not zero, so that it is spent (log 3). -/
def State.confirmStep (s : State) (x : Int) : State :=
  let step := x - s.gt.offset
  let (less, s) := s.draw (s.gt.inc * s.slewPpm / 1000000 - 1)
  let s := s.putGt { s.gt with
    corr := s.gt.corr - step * 2 ^ 24
    slew := less + 1
    cand := []
    measAt := some s.pulse }
  let s := s.hwSet A.gtStat F.gtStat.STEP
  s.raise 0x73 (evSource 6 0) (leBytes 8 (toBits 64 step))

/-- An offset that differs from the filtered one by more than `STEPTH` is held as a candidate; the fourth
that agrees with the others confirms it (14 R416). -/
def State.candidate (s : State) (x : Int) : State :=
  let th := s.stepTh
  let l := if s.gt.cand.all (fun y => decide (((x - y).natAbs : Int) ≤ th)) then s.gt.cand ++ [x] else [x]
  if l.length ≥ 4 then s.confirmStep x else s.putGt { s.gt with cand := l }

/-- GT is set by a step (14 R416, R418): the pending correction is cleared. -/
def State.gtStep (s : State) (now : Nat) : State :=
  s.putGt { s.gt with now := now, offset := 0, corr := 0, cand := [], good := 0, measAt := some s.pulse, ptpOff := none }

/-- A measurement of the offset of GT from its reference, in 2^-16 ns (14 R415, R416). What a pending
correction has yet to make up is no part of the error that the servo judges (log 11). -/
def State.measure (s : State) (m : Int) : State :=
  let st := s.fld A.gtStat F.gtStat.STATE
  let st := if st = 0 || st = 3 then 1 else st
  let s := s.putGt { s.gt with heardAt := some s.pulse, good := if s.fld A.gtStat F.gtStat.STATE = 1 then s.gt.good else 0 }
  let ever := s.flag A.gtStat F.gtStat.EVER
  if !ever && decide ((m.natAbs : Int) > s.stepTh) then
    (s.gtStep ((s.gt.now : Int) - m * 2 ^ 24).toNat).gtShow st
  else
    let x := m + s.gt.corr / 2 ^ 24
    if ever && decide (((x - s.gt.offset).natAbs : Int) > s.stepTh) then (s.candidate x).gtShow st
    else
      let s := s.servoUse x
      s.gtShow (if st = 1 && decide (s.gt.good ≥ 8) then 2 else st)

/-- A software set (14 R418): refused while the Trestle is enabled; answers whether it was performed.
Nanoseconds of 10^9 or more are no instant of GT: the nanoseconds are then free (log 3). -/
def State.gtSet (s : State) (ns frac : Nat) : State × Bool :=
  let sec := s.fld A.gtSets F.gtSets.SEC
  if s.flag A.trsCtl F.trsCtl.EN then
    ((s.hwSet A.gtStat F.gtStat.SETREJ).raise 0x74 (evSource 6 0) (leBytes 6 sec ++ [2]), false)
  else
    let (ns, s) := if ns < 1000000000 then (ns, s) else s.draw 999999999
    let s := s.gtStep (sec * gtSecond + ns * 2 ^ 40 + frac * 2 ^ 24)
    let st := s.fld A.gtStat F.gtStat.STATE
    let s := s.raise 0x74 (evSource 6 0) (leBytes 6 sec ++ [1])
    (s.gtShow (if st = 0 && s.fld A.gtCfg F.gtCfg.SRC == 3 then 3 else st), true)

/-- The instant of GT at a symbol of 15.625 ps of the present pulse, in 2^-40 ns (14 R412). -/
def State.instantAt (s : State) (ph : Nat) : Nat := s.gt.now + s.gt.inc * (s.pulse % 8 * 80 + ph) / 640

/-- The instant of GT at the present pulse. -/
def State.instant (s : State) : Nat := s.instantAt 0

/-- The timestamp of what port `p` receives at a symbol of the present pulse, in 2^-16 ns (14 R412): factory
calibration, then `GT_PCAL_p.RX` in ps. -/
def State.rxStamp (s : State) (p ph : Nat) : Int :=
  ((s.instantAt ph / 2 ^ 24 : Nat) : Int) + Config.portCal p false + sext 32 (s.fld (A.gtPcal p) F.gtPcal.RX) * 65536 / 1000

/-- The timestamp of what port `p` sends at a symbol of the present pulse, in 2^-16 ns (14 R412). -/
def State.txStamp (s : State) (p ph : Nat) : Int :=
  ((s.instantAt ph / 2 ^ 24 : Nat) : Int) + Config.portCal p true + sext 32 (s.fld (A.gtPcal p) F.gtPcal.TX) * 65536 / 1000

/-- One tick of the 100 MHz reference (14 R409, R416): GT advances by the increment and by the share of the
pending correction that is slewed. -/
def Gt.tick (g : Gt) : Gt :=
  let d : Int := if g.corr ≥ 0 then min g.corr (g.slew : Int) else -(min (-g.corr) (g.slew : Int))
  { g with now := ((g.now : Int) + (g.inc : Int) + d).toNat % (2 ^ 48 * gtSecond), corr := g.corr - d }

end Sys2Proof.Machine
end

