-- ==== Sys2Proof/Machine/Health.lean ====
section
/-!
DEFINITION. Health, capacity and availability of the module (16 R459 to R461), and the spares of its C-dies
(01 R19, R22; 16 R464).
-/
namespace Sys2Proof.Machine

/-- The free spares of a C-die, lowest first (01 R19): four where the map has not recorded fewer. -/
def State.spareList (s : State) (c : Nat) : List Nat :=
  FMap.getD s.spares c ((List.range 4).map (fun i => 104 * c + 100 + i))

/-- The free spares of a C-die to which no Bench is being moved, lowest first (01 R22). -/
def State.openSpares (s : State) (c : Nat) : List Nat :=
  (s.spareList c).filter (fun p => !s.benches.any (fun q => match q.2.takeover with
    | some t => t.spare == some p
    | none => false))

/-- How many Desks of a Bench are live (01 R24). -/
def State.liveDesks (s : State) (b : Nat) : Nat :=
  countTrue (fun d => s.fldBit (A.benchId b) F.benchId.DESK_LIVE d) (List.range 4)

/-- Whether a Bench that has not failed has a faulty Desk: one that another hosts, or that waits for the takeover where none
is live (16 R449, R452). -/
def State.hosted (s : State) (b : Nat) : Bool := !(s.bench b).failed && decide (s.liveDesks b < 4)

/-- Live Desks of the module (16 R460): a hosted Desk is not live, a Bench in takeover counts none. -/
def State.allDesks (s : State) : Nat :=
  3200 - (s.benches.map (fun p => if p.2.copying then 4 else 4 - s.liveDesks p.1)).foldl (· + ·) 0

/-- Lanes in use, of ports with `EN` set (16 R460; 10 R294). -/
def State.lanesUsed (s : State) : Nat :=
  ((List.range 36).map (fun p =>
    if !s.flag (A.tmrPortCtl p) F.tmrPortCtl.EN then 0
    else match s.fld (A.tmrPortStat p) F.tmrPortStat.STATE with
      | 2 => 4 | 3 => 3 | _ => 0)).foldl (· + ·) 0

/-- The capacity in units of 1/65,536, with 1.0 shown as 0xFFFF (16 R460, R464). The mapped capacity of the
Tallboys is always whole: a remap moves a layer into the reserve (09 R276). -/
def State.capacity (s : State) : Nat :=
  min 0xFFFF (min (s.allDesks * 65536 / 3200) (s.lanesUsed * 65536 / 144))

/-- The health (16 R459; 17 R472 where no image boots): 0 OK, 1 DEGRADED, 2 FAILED. -/
def State.healthNow (s : State) : Nat :=
  if s.benches.any (fun p => p.2.failed) || s.fld A.mbxStat F.mbxStat.FWSTATE == 3 || decide (s.flt.pairsDead.length ≥ 4) || decide (s.flt.pipesDead.length ≥ 2) ||
      !s.flt.shortDies.isEmpty then 2
  else if s.benches.any (fun p => s.hosted p.1) ||
      (List.range 8).any (fun c => (s.spareList c).isEmpty) ||
      (List.range 36).any (fun p =>
        let st := s.fld (A.tmrPortStat p) F.tmrPortStat.STATE
        st == 3 || (st == 0 && s.flag (A.tmrPortCtl p) F.tmrPortCtl.EN)) ||
      (List.range 16).any (fun t => s.fld (A.tbyStat t) F.tbyStat.REMAP != 0 || s.flag (A.sbdRas t) F.sbdRas.FAULT) ||
      !s.flt.pipesDead.isEmpty || !s.flt.pairsDead.isEmpty ||
      s.flag A.clkStat F.clkStat.XA_FAIL || s.flag A.clkStat F.clkStat.XB_FAIL ||
      !s.flt.badPos.isEmpty then 1
  else 0

/-- Whether a port trains. -/
def State.training (s : State) : Bool := (List.range 36).any (fun p => s.fld (A.tmrPortStat p) F.tmrPortStat.STATE == 1)

/-- The Hutch's firmware, where it runs, brings the health and the capacity up to date (16 R459, R460): event 0xAA at a
change of health, 0xAB at each crossing of 0.96 (R461). The capacity is first judged when the trainings that the boot
began have ended, which they do long before a module is READY (17 R470; log 4). -/
def State.health (s : State) : State :=
  let s := s.countAvail
  if s.fld A.mbxStat F.mbxStat.FWSTATE = 0 then s
  else
  let s := if s.flt.settling && !s.training then s.putFlt { s.flt with settling := false } else s
  let old := s.fld A.evtHealth F.evtHealth.STATE
  let oldCap := s.fld A.evtHealth F.evtHealth.CAP
  let new := s.healthNow
  let cap := if s.flt.settling then oldCap else s.capacity
  let s := s.setFld A.evtHealth F.evtHealth.STATE new
  let s := s.setFld A.evtHealth F.evtHealth.CAP cap
  let s := if old = new then s
    else s.raise 0xAA (evSource 0 0) ([BitVec.ofNat 8 old, BitVec.ofNat 8 new] ++ leBytes 2 cap)
  if decide (oldCap < 62915) = decide (cap < 62915) then s
  else s.raise 0xAB (evSource 0 0) ([if cap < 62915 then 1 else 2, 0] ++ leBytes 2 cap)

/-- `EVT_SPARE_c` shows the hosted and failed Benches and the free spares of a C-die (16 R464). -/
def State.showSpares (s : State) (c : Nat) : State :=
  let on (p : Nat × Bench) : Bool := p.1 / 100 == c
  let s := s.setFld (A.evtSpare c) F.evtSpare.HOSTED (countTrue (fun p => on p && s.hosted p.1) s.benches)
  let s := s.setFld (A.evtSpare c) F.evtSpare.FAILED (countTrue (fun p => on p && p.2.failed) s.benches)
  s.setFld (A.evtSpare c) F.evtSpare.FREE (s.spareList c).length

/-- The physical number of the Bench that carries logical Bench `b` (01 R19, R22). -/
def State.phys (s : State) (b : Nat) : Nat := FMap.getD s.map b (104 * (b / 100) + b % 100)

/-- The Desk that hosts Desk `d` (16 R449): the first live one in the order d + 1, d + 2, d + 3 modulo 4. -/
def State.hostFor (s : State) (b d : Nat) : Option Nat :=
  [(d + 1) % 4, (d + 2) % 4, (d + 3) % 4].find? (fun h => s.fldBit (A.benchId b) F.benchId.DESK_LIVE h)

/-- A Desk declares itself faulty (03 R92): it is hosted on a live one (16 R449), every Desk that the faulty
one hosted with it; without a live Desk and without a spare the Bench is failed (16 R452). -/
def State.deskFault (s : State) (b d set : Nat) : State :=
  let c := b / 100
  let s := s.setFld (A.deskStat b d) F.deskStat.FAULT 1
  let s := s.setBit (A.benchId b) F.benchId.DESK_LIVE d false
  let s := s.raise 0x83 (evSource 1 b)
    (leBytes 8 0 ++ leBytes 2 b ++ [BitVec.ofNat 8 d, 2, BitVec.ofNat 8 set])
  let s := s.modBench b (fun x => { x with faultAt := if x.faultAt.isSome then x.faultAt else some s.pulse })
  let s := (List.range 4).foldl (fun s q =>
    if q == d || (s.desk b q).host == some d then
      match s.hostFor b q with
      | some h => (s.modDesk b q (fun x => { x with host := some h, tries := 0, dtries := (0, 0) })).raise 0xA0 (evSource 1 b)
          (leBytes 8 0 ++ leBytes 2 b ++ [BitVec.ofNat 8 q, BitVec.ofNat 8 h])
      | none => s.modDesk b q (fun x => { x with host := none })
    else s) s
  let s :=
    if (s.spareList c).isEmpty then
      let live := s.liveDesks b
      let pay := leBytes 8 c ++ leBytes 2 b ++ [BitVec.ofNat 8 live]
      if live = 0 then (s.modBench b (fun x => { x with failed := true })).raise 0xA4 (evSource 1 b) pay
      else s.raise 0xA3 (evSource 1 b) pay
    else s
  (s.showSpares c).health

end Sys2Proof.Machine
end

