-- ==== Sys2Proof/Machine/RegRead.lean ====
section
/-!
DEFINITION. Reads of the control-register region (00 R6, R9 to R11): sizes and alignment, write-only fields,
the live views of time, the latch of `GT_NOW_HI` (14 R410), the mailbox slots and the event mirror (15 R442).
-/
namespace Sys2Proof.Machine

/-- The latch of a Bench context (14 R410). -/
def latchCtx (b : Nat) (c : Ctx) : Nat := 4 * b + c.code

/-- The latch of the host through BAR0. -/
def latchHost : Nat := 4000

/-- The latch of the Hutch. -/
def latchHutch : Nat := 4001

/-- The base of the mailbox slots (15 R442). -/
def slotBase : Nat := 0x2040000010000

/-- The base of the event mirror (15 R442). -/
def mirrorBase : Nat := 0x2070000010000

/-- The 32 bytes of an event record (15 R435). -/
def EvRec.bytes (r : EvRec) : List Byte := leBytes 8 r.seq ++ leBytes 8 r.word1.toNat ++ (r.pay ++ leBytes 16 0).take 16

/-- A 64-bit word of the event mirror, by its offset (15 R439): an entry not yet written reads as zero. -/
def State.mirrorWord (s : State) (off : Nat) : Word :=
  match FMap.get? s.evt.mirror (off / 32) with
  | none => 0
  | some r => leWord (r.bytes.drop (off % 32))

/-- The word that a 64-bit read of the region returns, but for the latch (00 R6, R9, R11): the stored value
with its write-only fields zero, or the live view. -/
def State.regWord (s : State) (a : Nat) : Word :=
  if slotBase ≤ a ∧ a < slotBase + 0x4000 then leWord (s.mem.read a 8)
  else if mirrorBase ≤ a ∧ a < mirrorBase + 0x2000 then s.mirrorWord (a - mirrorBase)
  else match regDesc a with
    | none => 0
    | some d =>
      if a = A.gtNowLo then BitVec.ofNat 64 (s.gtNs * 2 ^ 32 + s.gtFrac * 2 ^ 16)
      else if a = A.gtUnc then putFld (s.rd a) F.gtUnc.U s.gtUnc
      else if a < regBase + 800 * 0x10000 ∧ (a - regBase) % 0x10000 = 0x70 then
        BitVec.ofNat 64 (s.benchCyc ((a - regBase) / 0x10000))
      else s.rd a &&& ~~~BitVec.ofNat 64 d.wo

/-- Whether an address lies in a response slot that the firmware owns, whose reads are undefined (15 R427). -/
def State.slotHidden (s : State) (a : Nat) : Bool :=
  decide (slotBase ≤ a) && decide (a < slotBase + 0x4000) && decide (a % 512 ≥ 256) &&
    !s.fldBit A.mbxOwn F.mbxOwn.RSP ((a - slotBase) / 512)

/-- The word that a requester's read returns, and the state after it: `GT_NOW_LO` latches the seconds for the
requester, whose next read of `GT_NOW_HI` returns them (14 R410; zero before any latch, log 7). A response slot that
the firmware owns reads as a free value (15 R427; log 2). -/
def State.regRead64 (s : State) (who a : Nat) : State × Word :=
  if a = A.gtNowLo then
    (s.putGt { s.gt with latch := FMap.set s.gt.latch who s.gtSec }, s.regWord a)
  else if s.slotHidden a then
    let (v, s) := s.draw (2 ^ 64 - 1)
    (s, BitVec.ofNat 64 v)
  else if a = A.gtNowHi then (s, BitVec.ofNat 64 (FMap.getD s.gt.latch who 0))
  else if a = A.evtAvailT ∨ a = A.evtAvailU then
    let s := s.countAvail
    (s, s.regWord a)
  else (s, s.regWord a)

/-- A read of `n` bytes of the region (00 R10): aligned 64-bit and 32-bit reads return the word or its half,
any other reads as zero. -/
def State.regRead (s : State) (who a n : Nat) : State × List Byte :=
  if n = 8 ∧ a % 8 = 0 then
    let (s, w) := s.regRead64 who a
    (s, leBytes 8 w.toNat)
  else if n = 4 ∧ a % 4 = 0 then
    let (s, w) := s.regRead64 who (a - a % 8)
    (s, leBytes 4 (if a % 8 = 0 then w.toNat else w.toNat / 2 ^ 32))
  else (s, leBytes n 0)

/-- `GT_NOW_LO_READ` (14 R410): the read by a requester, whose result is that of its 64-bit load. -/
def execGtNowLoRead (who : Nat) (s : State) : Out := .next (s.regRead64 who A.gtNowLo).1

end Sys2Proof.Machine
end

