-- ==== Sys2Proof/Machine/Arbiter.lean ====
section
/-!
DEFINITION. The event arbiter, the MSI-X vectors and the error log (15 R426, R435 to R441; 16 R462).
-/
namespace Sys2Proof.Machine

/-! ### MSI-X (15 R426, R441) -/

/-- A vector's entry of the table: address, data, masked; every vector is masked after reset. -/
def State.vector (s : State) (v : Nat) : Nat × Nat × Bool := FMap.getD s.pcie.table v (0, 0, true)

/-- Whether a vector may send: Bus Master Enable and MSI-X are set, the function is in D0, neither the function nor
the vector is masked (15 R426, R441). -/
def State.vectorOpen (s : State) (v : Nat) : Bool :=
  s.pcie.up && s.pcie.bme && s.pcie.msixEn && !s.pcie.fmask && !s.pcie.d3 && !(s.vector v).2.2

/-- A vector sends its message, or its pending bit is set (15 R426). -/
def State.msixSend (s : State) (v : Nat) : State :=
  if s.vectorOpen v then
    let (a, d, _) := s.vector v
    (s.putPcie { s.pcie with sentAt := FMap.set s.pcie.sentAt v s.pulse, pba := s.pcie.pba.filter (· != v) }).send (.msix v a d)
  else s.putPcie { s.pcie with pba := v :: s.pcie.pba.filter (· != v) }

/-- Whether a vector is within its hold-off (15 R441). -/
def State.heldOff (s : State) (v : Nat) : Bool :=
  let h := s.fld A.evtMsix F.evtMsix.HOLDOFF
  h != 0 && (match FMap.get? s.pcie.sentAt v with
    | some t => !s.reached t h
    | none => false)

/-- A vector signals: within the hold-off its signals merge into one message (15 R441). -/
def State.vecSignal (s : State) (v : Nat) : State :=
  if s.heldOff v then s.putPcie { s.pcie with merged := v :: s.pcie.merged.filter (· != v) } else s.msixSend v

/-- The messages that are held are sent as far as they may now (15 R426). -/
def State.releaseVectors (s : State) : State :=
  (List.range 64).foldl (fun s v => if s.pcie.pba.contains v && s.vectorOpen v then s.msixSend v else s) s

/-- `MSIX_HOLDOFF_EXPIRY` (15 R441). -/
def execMsixHoldoffExpiry (v : Fin 64) (s : State) : Out :=
  .next (if s.pcie.merged.contains v.val && !s.heldOff v then
      (s.putPcie { s.pcie with merged := s.pcie.merged.filter (· != v.val) }).msixSend v
    else s)

/-! ### The error log (16 R462) -/

/-- The event code of a record. -/
def EvRec.code (r : EvRec) : Nat := bits r.word1.toNat 45 38

/-- Whether the error log takes a record (16 R462). -/
def EvRec.logged (r : EvRec) : Bool :=
  let b (i : Nat) : Nat := (r.pay.getD i 0).toNat
  let c := r.code
  decide (0xA0 ≤ c ∧ c ≤ 0xAF) || c == 0x83 || c == 0x71 ||
    (c == 0x30 && [1, 2, 5, 6, 8, 9].contains (b 8)) || (c == 0x40 && (b 2 == 0 || b 2 == 3))

/-- A record enters the error log, at most one of a code in each 10 ms (16 R462). -/
def State.errLog (s : State) (r : EvRec) : State :=
  if !r.logged then s
  else if (match FMap.get? s.flash.errAt r.code with
    | some t => !s.reached t 10000
    | none => false) then s.incSat A.evtFltCtl F.evtFltCtl.SUPPR 1
  else
    let l := s.flash.errlog ++ [leBytes 4 r.seq ++ leBytes 4 s.flash.resets ++ (r.bytes.drop 8)]
    s.putFlash { s.flash with errAt := FMap.set s.flash.errAt r.code s.pulse, errlog := l.drop (l.length - 16384) }

/-! ### The arbiter (15 R435 to R439) -/

/-- The class of an event code (15 R436). -/
def evClass (code : Nat) : Nat := if code < 0x20 then 0 else code / 16 - 1

/-- The entries of the event ring (15 R444). -/
def State.ringSize (s : State) : Nat :=
  let n := s.fld A.evtRingCtl F.evtRingCtl.SIZE
  2 ^ (if 6 ≤ n ∧ n ≤ 24 then n else 24)

/-- Whether the ring has room for a record (15 R439). -/
def State.ringRoom (s : State) (seq : Nat) : Bool :=
  decide ((seq % 2 ^ 32 + 2 ^ 32 - s.fld A.evtRingCtl F.evtRingCtl.TAIL) % 2 ^ 32 < s.ringSize)

/-- `EVT_STAT.QDEPTH` shows the queue. -/
def State.putEvQueue (s : State) (q : List EvRec) : State :=
  (s.putEvt { s.evt with queue := q }).setFld A.evtStat F.evtStat.QDEPTH q.length

/-- Word 1 of a record accepted now (15 R435). -/
def State.eventWord (s : State) (e : Event) : Word :=
  BitVec.ofNat 64 ((s.gtSec % 16384 * 1000000 + s.gtNs / 1000) % 2 ^ 34 + evClass e.code % 16 * 2 ^ 34 + e.code % 256 * 2 ^ 38 +
    e.source % 65536 * 2 ^ 46 + s.fld A.gtStat F.gtStat.VALID * 2 ^ 62)

/-- The arbiter accepts an event, or discards it at a full queue (15 R438). -/
def State.acceptOne (s : State) (e : Event) : State :=
  if s.evt.queue.length ≥ 256 then s.incSat A.evtStat F.evtStat.QLOST 1
  else
    let seq := s.fld A.evtSeq F.evtSeq.SEQ
    (s.putEvQueue (s.evt.queue ++ [⟨seq, s.eventWord e, e.pay⟩])).incWrap A.evtSeq F.evtSeq.SEQ 1

/-- An event is accepted; once the ring has room again, one event 0x91 for the records lost goes before it (15 R439;
log 18). -/
def State.accept (s : State) (e : Event) : State :=
  match s.evt.lost with
  | some (first, n) =>
    if s.flag A.evtRingCtl F.evtRingCtl.EN && s.ringRoom (s.fld A.evtSeq F.evtSeq.SEQ) && decide (s.evt.queue.length < 256) then
      ((s.putEvt { s.evt with lost := none }).acceptOne
        ⟨0x91, evSource 10 0, leBytes 8 first ++ leBytes 4 (min n 0xFFFFFFFF) ++ leBytes 4 0⟩).acceptOne e
    else s.acceptOne e
  | none => s.acceptOne e

/-- A record goes to the ring where it is enabled, as requester class 5, or is lost at a full ring (15 R439). -/
def State.ringPut (s : State) (r : EvRec) : State :=
  if !s.flag A.evtRingCtl F.evtRingCtl.EN then s
  else if s.ringRoom r.seq then
    s.memWrite 5 (s.fld A.evtRingBase F.evtRingBase.BASE * 32 + 32 * (r.seq % s.ringSize)) r.bytes
  else
    let (first, n) := s.evt.lost.getD (r.seq, 0)
    (s.incSat A.evtStat F.evtStat.LOST 1).putEvt { s.evt with lost := some (first, n + 1) }

/-- The record at the head of the queue goes to the ring, to the mirror, and signals its vector (15 R439, R441); the
firmware enters it in the error log once it runs (15 R438). -/
def State.writeRecord (s : State) : State :=
  match s.evt.queue with
  | [] => s
  | r :: rest =>
    let s := (s.putEvQueue rest).ringPut r
    let s := s.putEvt { s.evt with mirror := FMap.set s.evt.mirror (r.seq % 256) r }
    let cls := evClass r.code
    let s := if s.fldBit A.evtMsix F.evtMsix.CMASK cls then s else s.vecSignal (32 + cls)
    let fw := s.fld A.mbxStat F.mbxStat.FWSTATE
    if fw = 1 ∨ fw = 2 then s.errLog r else s

/-- The first `n` records of the queue are written. -/
def State.writeRecords (s : State) : Nat → State
  | 0 => s
  | n + 1 => s.writeRecord.writeRecords n

/-- `EVENT_ACCEPT` (15 R435 to R439): the first event raised is accepted, and `n` queued records are written; how
fast the arbiter writes them is timing (log 4). -/
def execEventAccept (n : Fin 257) (s : State) : Out :=
  .next (match s.evt.raised with
    | [] => s.writeRecords n
    | e :: rest => ((s.putEvt { s.evt with raised := rest }).accept e).writeRecords n)

end Sys2Proof.Machine
end

