-- ==== Sys2Proof/Machine/Transc.lean ====
section
/-!
DEFINITION. The transcendental functions of the vector unit and of the epilogue (02 R39, R42; 03 R85). Their exact values
are formed as fractions of 2^256, far finer than any result; which of the results within the error bound of 02 R42 the
hardware returns is a free value, for RNRV fixes the bits and is no part of the spec (log 3).
-/
namespace Sys2Proof.Machine

/-- The vector unit's and the epilogue's functions of one value (02 R39). -/
inductive TFun where
  | exp2 | exp | log2 | log | rcp | rsq | sin | cos | tanh | sig | gelu | silu
  deriving DecidableEq, Repr

/-- A number for each function, which the free results of 02 R42 are drawn by. -/
def TFun.code : TFun → Nat
  | .exp2 => 0 | .exp => 1 | .log2 => 2 | .log => 3 | .rcp => 4 | .rsq => 5 | .sin => 6 | .cos => 7
  | .tanh => 8 | .sig => 9 | .gelu => 10 | .silu => 11

/-- The fixed result of a function for its special inputs (02 R39), where it has one. -/
def TFun.special (t : TFun) (f : Fmt) (v : FVal) : Option (Nat × Flags) :=
  let ninf := f.signBits true + f.infBits
  let oflag : Flags := ⟨true, false, false, false⟩
  let one := f.bias <<< f.frac
  match t, v with
  | _, .nan s => some (f.qnan, if s then .invalid else .none)
  | .exp2, .inf n | .exp, .inf n => some (if n then 0 else f.infBits, .none)
  | .log2, .zero _ | .log, .zero _ => some (ninf, oflag)
  | .log2, .inf false | .log, .inf false => some (f.infBits, .none)
  | .log2, .inf true | .log, .inf true => some (f.qnan, .invalid)
  | .log2, .fin true _ _ | .log, .fin true _ _ => some (f.qnan, .invalid)
  | .rcp, .zero n => some (f.signBits n + f.infBits, oflag)
  | .rcp, .inf n => some (f.signBits n, .none)
  | .rsq, .zero n => some (f.signBits n + f.infBits, oflag)
  | .rsq, .inf false => some (0, .none)
  | .rsq, .inf true => some (f.qnan, .invalid)
  | .rsq, .fin true _ _ => some (f.qnan, .invalid)
  | .sin, .inf _ | .cos, .inf _ => some (f.qnan, .invalid)
  | .tanh, .inf n => some (f.signBits n + one, .none)
  | .tanh, .zero n => some (f.signBits n, .none)
  | .sig, .inf n => some (if n then 0 else one, .none)
  | .gelu, .inf n | .silu, .inf n => some (if n then f.signBits true else f.infBits, .none)
  | .gelu, .zero n | .silu, .zero n => some (f.signBits n, .none)
  | _, _ => none

/-! ### Exact values, as multiples of 2^-256 -/

/-- 1 as a fraction. -/
def fixOne : Nat := 2 ^ 256

/-- ln 2 as a fraction, cut short. -/
def fixLn2 : Nat := 0xb17217f7d1cf79abc9e3b39803f2f6af40f343267298b62d8a0d175b8baafa2b

/-- π/2 in units of 2^-512, cut short: an argument of up to 2^128 is reduced by it. -/
def halfPi512 : Nat :=
  0x1921fb54442d18469898cc51701b839a252049c1114cf98e804177d4c76273644a29410f31c6809bbdf2a33679a748636605614dbe4be286e9fc26adadaa3848b

/-- m × 2^e in units of 2^-k, cut short. -/
def toFix (k m : Nat) (e : Int) : Nat := if 0 ≤ e + k then m <<< (e + k).toNat else m >>> (-(e + k)).toNat

/-- The rest of a series: each term is the one before times `num`, divided by `den i`, and `coef i` divides what is
added; terms are added, or added and subtracted in turn. -/
def series (num : Nat) (den coef : Nat → Nat) (alternate : Bool) : Nat → Nat → Nat → Int
  | 0, _, _ => 0
  | n + 1, i, t =>
    let add : Int := (t / coef i : Nat)
    (if alternate && i % 2 == 1 then -add else add) + series num den coef alternate n (i + 1) (t * num / fixOne / den i)

/-- e^r for a fraction 0 ≤ r < 1. -/
def expSmall (r : Nat) : Nat := (series r (fun i => i + 1) (fun _ => 1) false 70 0 fixOne).toNat

/-- sin r and cos r for 0 ≤ r ≤ π/2. -/
def sinSmall (r : Nat) : Nat := (series (r * r / fixOne) (fun i => (2 * i + 2) * (2 * i + 3)) (fun _ => 1) true 50 0 r).toNat
def cosSmall (r : Nat) : Nat := (series (r * r / fixOne) (fun i => (2 * i + 1) * (2 * i + 2)) (fun _ => 1) true 50 0 fixOne).toNat

/-- ln g for a fraction 1 ≤ g < 2: twice the series of the inverse hyperbolic tangent of (g - 1) / (g + 1). -/
def lnSmall (g : Nat) : Nat :=
  let z := (g - fixOne) * fixOne / (g + fixOne)
  2 * (series (z * z / fixOne) (fun _ => 1) (fun i => 2 * i + 1) false 90 0 z).toNat

/-- The exponent of a power of two that no format reaches is cut to ±1,024: the result is the same. -/
def cutExp (n : Int) : Int := max (-1024) (min 1024 n)

/-- e^y of a fraction with a sign, as a fraction in [1, 2) and a power of two. -/
def expFix (y : Int) : Nat × Int :=
  let n := y / (fixLn2 : Int)
  (expSmall (y - n * fixLn2).toNat, cutExp n)

/-- e^y for y ≤ 0, as a fraction. -/
def expDown (y : Int) : Nat :=
  let (t, n) := expFix y
  t >>> (-n).toNat

/-- The sigmoid of a fraction, as a magnitude and a power of two: 1 / (1 + e^-y), or e^y / (1 + e^y). -/
def sigFix (y : Int) : Nat × Int :=
  if 0 ≤ y then (fixOne * fixOne / (fixOne + max 1 (expDown (-y))), -256)
  else
    let (t, n) := expFix y
    (t * fixOne / (fixOne + expDown y), n - 256)

/-- The argument of an angle: its quadrant and what remains, as a fraction. -/
def reduceAngle (m : Nat) (e : Int) : Nat × Nat :=
  let x := toFix 512 m e
  (x / halfPi512 % 4, (x % halfPi512) >>> 256)

/-- The logarithm to base 2 of the leading power and the natural logarithm of the rest. -/
def logParts (m : Nat) (e : Int) : Int × Nat := (leadExp m e, lnSmall (m <<< (256 - m.log2)))

/-- 2u of GELU, u = 0.797 884 56 × (x + 0.044 715 × x³) (03 R85), as a fraction. -/
def geluArg (x : Int) : Int :=
  let one : Int := fixOne
  let cube := x * x * x / (one * one)
  (x + cube * 44715 / 1000000) * (2 * 79788456) / 100000000

/-- A fraction with a sign as a value. -/
def fixVal (x : Int) : FVal := .mk (x < 0) x.natAbs (-256)

/-- The greatest magnitude, as a power of two, of an input so near 0 that the digits of `fixOne` do not tell sin, cos or tanh
from its limit. -/
def nearZero : Int := -80

/-- The exact value of a function for an input that 02 R39 does not list, cut short at 2^-256 or finer; a zero stands
for m = 0. Near 0, sin x and tanh x lie below x, and cos x below 1, by less than one part in 2^100. -/
def TFun.exact (t : TFun) (neg : Bool) (m : Nat) (e : Int) : FVal :=
  let mag : Int := toFix 256 m e
  let x := if neg then -mag else mag
  if m != 0 && decide (leadExp m e < nearZero) && (t == .sin || t == .tanh) then .mk neg (m * 2 ^ 100 - 1) (e - 100)
  else if m != 0 && decide (leadExp m e < nearZero) && t == .cos then .mk false (2 ^ 100 - 1) (-100)
  else
  match t with
  | .exp2 =>
    let n := x / (fixOne : Int)
    .mk false (expSmall ((x - n * fixOne).toNat * fixLn2 / fixOne)) (cutExp n - 256)
  | .exp =>
    let (p, n) := expFix x
    .mk false p (n - 256)
  | .log2 =>
    let (p, l) := logParts m e
    fixVal (p * fixOne + (l * fixOne / fixLn2 : Nat))
  | .log =>
    let (p, l) := logParts m e
    fixVal (p * fixLn2 + l)
  | .rcp => .mk neg (2 ^ 200 / m) (-200 - e)
  | .rsq =>
    let (m, e) : Nat × Int := if e % 2 = 0 then (m, e) else (2 * m, e - 1)
    .mk false (isqrt (2 ^ 400 / m) 201 0) (-200 - e / 2)
  | .sin =>
    let (q, r) := reduceAngle m e
    .mk (neg != decide (2 ≤ q)) (if q % 2 = 0 then sinSmall r else cosSmall r) (-256)
  | .cos =>
    let (q, r) := reduceAngle m e
    .mk (q == 1 || q == 2) (if q % 2 = 0 then cosSmall r else sinSmall r) (-256)
  | .tanh =>
    let w := max 1 (expDown (-(2 * mag)))
    .mk neg ((fixOne - w) * fixOne / (fixOne + w)) (-256)
  | .sig =>
    let (p, n) := sigFix x
    .mk false p n
  | .gelu =>
    let (p, n) := sigFix (geluArg x)
    .mk neg (p * m) (n + e)
  | .silu =>
    let (p, n) := sigFix x
    .mk neg (p * m) (n + e)

/-! ### Results -/

/-- Whether the exact value of a function is one that `TFun.exact` gives whole: of 0 always, of other inputs where it is
rational. -/
def TFun.whole (t : TFun) (m : Nat) (e : Int) : Bool :=
  let power := m == 2 ^ m.log2
  m == 0 || match t with
  | .exp2 => decide (0 ≤ e) || m % 2 ^ (-e).toNat == 0
  | .log2 => power
  | .log => power && leadExp m e == 0
  | .rcp => power
  | .rsq => power && leadExp m e % 2 == 0
  | _ => false

/-- The results within the error bound of 02 R42 of a magnitude, 2 units of the last place for binary32 and 1 for the others,
in halves of such a unit: below a power of two the results lie half as far apart. `n` is the magnitude in these halves cut
short, `lost` says that something was cut, `half` that results below `one`, the power of two, are of the format, `flush` that
they are flushed. -/
def ulpChoices (f : Fmt) (n one : Nat) (lost half flush : Bool) : List Nat :=
  let w := match f with | .b32 => 4 | _ => 2
  ((List.range (2 * w + 1)).map (fun i => n + i)).filterMap (fun c =>
    let r := c - w
    if decide (w ≤ c) && decide (n + lost.toNat ≤ c) && (r % 2 == 0 || (half && decide (r < one))) &&
        !(flush && decide (r < one)) then some r else none)

/-- The result that a free number selects among those within the bound of an exact value, with the flags O, U and X
computed from it (02 R37, R42). `lost` says that the magnitude given is cut short of the exact one. The sign of a zero is
the free number's. -/
def Fmt.within (f : Fmt) (v : FVal) (lost : Bool) (k : Nat) : Nat × Flags :=
  match v with
  | .fin neg m e =>
    let emin : Int := 1 - (f.bias : Int)
    let top := leadExp m e
    let q : Int := (if f.flushes then top else max top emin) - f.frac - 1
    let cut := (q - e).toNat
    let lost := lost || m % 2 ^ cut != 0
    let n := m <<< (e - q).toNat >>> cut
    let l := ulpChoices f n (2 ^ (f.frac + 1)) lost (decide (emin < top)) (f.flushes && top == emin)
    let r := l.getD (k % l.length) n
    f.roundFin .rne neg r q (lost || r != n)
  | _ => (f.signBits (k.testBit 0), .none)

/-- A function's result in a format: for an input of R39 the fixed one; for any other one within the error bound of 02
R42, which the free value selects: the same for the same input. -/
def TFun.apply (t : TFun) (f : Fmt) (v : FVal) (enc : Nat) : Nat × Flags :=
  match t.special f v with
  | some p => p
  | none =>
    let k := Config.transcBits t.code f.code enc
    match v with
    | .fin neg m e => f.within (t.exact neg m e) (!t.whole m e) k
    | _ => f.within (t.exact v.neg 0 0) false k

end Sys2Proof.Machine
end

