-- ==== Sys2Proof/Machine/Operands.lean ====
section
/-!
DEFINITION. The operand forms of the instruction set: immediates, addresses, tile descriptors and the
elements they name (04 R111 to R114, R139, R140).
-/
namespace Sys2Proof.Machine

/-- A sign-extended 32-bit immediate as a 64-bit word (04 R139). -/
def imm64 (i : BitVec 32) : Word := i.signExtend 64

/-- The second operand of a scalar ALU instruction: the immediate where `I` is set, else `RS2` (04 R139). -/
def State.src2 (s : State) (b : Nat) (c : Ctx) (rs2 : Nat) (i : Bool) (imm : BitVec 32) : Word :=
  if i then imm64 imm else s.s b c rs2

/-- The address of a scalar load: `RS1` + `IMM` (04 R139). -/
def State.effAddr (s : State) (b : Nat) (c : Ctx) (rs1 : Nat) (imm : BitVec 32) : Nat :=
  (s.s b c rs1 + imm64 imm).toNat

/-- The width of a store in bytes, from `IMM` bits [31:30] (04 R139). -/
def storeWidth (imm : BitVec 32) : Nat := 2 ^ bits imm.toNat 31 30

/-- The address of a scalar store: `RS1` + the sign-extended offset in `IMM` bits [29:0] (04 R139). -/
def State.storeAddr (s : State) (b : Nat) (c : Ctx) (rs1 : Nat) (imm : BitVec 32) : Nat :=
  (s.s b c rs1 + BitVec.ofInt 64 (sext 30 imm.toNat)).toNat

/-- The target of a branch: `IMM` × 8 from its own address (04 R139). -/
def branchTarget (pc : Nat) (imm : BitVec 32) : Nat :=
  (BitVec.ofNat 64 pc + imm64 imm * 8).toNat

/-- A tile descriptor (04 R111). -/
structure Tile where
  base : Nat
  fmt : Nat
  grad : Bool
  sr : Bool
  scl : Nat
  bias : Nat
  rows : Nat
  cols : Nat
  stride : Nat
  sptr : Nat
  act : Nat
  ltag : Nat
  tid : Nat
  tw : Nat
  origin : Nat
  deriving DecidableEq, Repr

/-- The fields of a descriptor's 256 bits (04 R111). -/
def tileOf (w : Nat) : Tile where
  base := bits w 21 0
  fmt := bits w 25 22
  grad := bit w 26
  sr := bit w 27
  scl := bits w 29 28
  bias := bits w 31 30
  rows := bits w 47 32
  cols := bits w 63 48
  stride := bits w 85 64
  sptr := bits w 107 86
  act := bits w 110 108
  ltag := bits w 127 112
  tid := bits w 159 128
  tw := bits w 191 160
  origin := bits w 255 192

/-- The format a descriptor names. -/
def Tile.format (t : Tile) : Fmt := (Fmt.ofCode t.fmt).getD .gf8a

/-- The element width in bytes (04 R112). -/
def Tile.width (t : Tile) : Nat := t.format.bytes

/-- The Shelf offset of element (r, c) (04 R112). -/
def Tile.elem (t : Tile) (r c : Nat) : Nat := t.base + r * t.stride + c * t.width

/-- The logical element index of element (r, c) (04 R113). -/
def Tile.index (t : Tile) (r c : Nat) : Nat :=
  (t.origin + r * (if t.tw = 0 then t.cols else t.tw) + c) % 2 ^ 64

/-- Whether every instruction can use the descriptor (04 R112): no empty tile, aligned base and stride, the
last byte below 3 MiB. -/
def Tile.usable (t : Tile) : Bool :=
  t.rows != 0 && t.cols != 0 && t.base % 64 == 0 && t.stride % t.width == 0 &&
    decide (t.base + (t.rows - 1) * t.stride + t.cols * t.width ≤ shelfSize)

/-- Whether an epilogue can use its options (04 R112): `SPTR` aligned, `BIAS` and `ACT` not reserved. DESIGN CHOICE
(log 30): a misaligned `SPTR` makes an epilogue `DESK.D` alone illegal, for no other instruction reads it (R112, last
bullet), though the rule's third bullet names no exception. -/
def Tile.epilogueUsable (t : Tile) : Bool := t.sptr % 4 == 0 && t.bias != 3 && decide (t.act ≤ 4)

/-- How many scale values an epilogue reads (04 R114). -/
def Tile.scaleCount (t : Tile) (m : Nat) : Nat :=
  match t.scl with
  | 0 => 0 | 1 => 1 | 2 => m | _ => 96

/-- How many bias values an epilogue reads (04 R114). -/
def Tile.biasCount (t : Tile) (m : Nat) : Nat :=
  match t.bias with
  | 0 => 0 | 1 => m | _ => 96

/-- Whether the scale and bias area lies below 3 MiB (04 R112). -/
def Tile.scaleAreaUsable (t : Tile) (m : Nat) : Bool :=
  (t.scaleCount m + t.biasCount m == 0) || decide (t.sptr + 4 * (t.scaleCount m + t.biasCount m) ≤ shelfSize)

/-- How a conversion into or by a tile rounds (02 R46 to R50): stochastically where the tile carries the
gradient tag or requests it, with the draw of its element. -/
def Tile.rnd (t : Tile) (seed : Word) (step r c : Nat) : Rnd :=
  if t.grad || t.sr then .sr (srDraw seed t.tid (t.index r c) step) else .rne

/-- The little-endian number at a Shelf offset. -/
def State.shelfNum (s : State) (b off n : Nat) : Nat := ofLe (s.shelfRead b off n)

/-- The seed of a conversion that issues now (02 R50, R52). -/
def State.seed (s : State) : Word := s.rd A.numSeed

/-- A counter address is legal: bits [63:30] are zero (04 R125). -/
def counterOk (a : Word) : Bool := a.toNat >>> 30 == 0

end Sys2Proof.Machine
end

