-- ==== Sys2Proof/Machine/Loads.lean ====
section
/-!
DEFINITION. Scalar loads (04 R106, R139; 05 R159; 10 R297, R303): from the Bench's own Shelf at issue, from
elsewhere when the data returns.
-/
namespace Sys2Proof.Machine

/-- The line of 64 B that an address names, by the location and not by the address used (10 R303). -/
def State.lineKey (s : State) (a : Nat) : Nat :=
  let loc := match locOf (localOf a) with
    | .tby ia => ia
    | .shelf b off => shelfKey b off
    | _ => localOf a
  (if s.isHere (modOf a) then s.modnum else modOf a) * 2 ^ 50 + loc / 64

/-- Whether a load or store of a line must wait for an earlier store of the context (10 R303). -/
def State.storeOpen (s : State) (b : Nat) (c : Ctx) (line : Nat) : Bool := (s.ctx b c).stores.any (fun r => r.line == line)

/-- Whether a store of a line must wait for an earlier load of the context, which is not to return the
store's value (10 R303). -/
def State.loadOpen (s : State) (b : Nat) (c : Ctx) (line : Nat) : Bool :=
  (s.ctx b c).loads.any (fun l => s.lineKey l.addr == line)

/-- Fabric event 0x41 of a scalar access (10 R297, R316). -/
def State.accessFailed (s : State) (b : Nat) (c : Ctx) (a : Nat) (st : Status) (tc : Nat) : State :=
  let m := if s.isHere (modOf a) then s.modnum else modOf a
  s.raise 0x41 (evSource 3 0x3F)
    (leBytes 8 a ++ leBytes 2 m ++ [BitVec.ofNat 8 st.code, BitVec.ofNat 8 c.idx, BitVec.ofNat 8 tc] ++ leBytes 2 b ++
      [BitVec.ofNat 8 c.code])

/-- The own-Shelf offset of an address, where all its bytes lie in the Bench's own Shelf. -/
def State.ownShelf (s : State) (b a n : Nat) : Option Nat :=
  if !s.isHere (modOf a) then none
  else match locOf (localOf a) with
    | .shelf b' off => if b' = b ∧ off + n ≤ shelfSize then some off else none
    | _ => none

/-- The trap event of a scalar load of a poisoned line (06 R180). -/
def loadTrap : TrapEv := ⟨3, 6, 0, 0, 0, none⟩

/-- A scalar load has read a poisoned line: I of the vector unit is raised (05 R159), and its trap event taken. The stop is
precise: where the context has gone on, its PC returns to the load (06 R180). Answers whether the context stops, so that the load
writes no register. -/
def State.loadPoison (s : State) (b : Nat) (c : Ctx) (pc n lgen : Nat) : State × Bool :=
  let (s, stopped) := s.trap b c (s.suppressed b c) [loadTrap] pc (0x38 + Nat.log2 n)
  let s := s.raiseFlags b c 4 .invalid lgen
  if !stopped then (s, false)
  else if !s.live b c then (s.setPc b c pc, true)
  else (s.modCtx b c (fun x => { x with stopping := x.stopping.map (fun r => { r with back := some pc }) }), true)

/-- A scalar load (04 R139): misaligned it is illegal with cause 0x13; it waits for an earlier store of the
line and for pending lines; from the own Shelf it returns at once, a poisoned line raising I of the vector
unit and a trap event (05 R159, 06 R180); from elsewhere `RD` waits for the data. DESIGN CHOICE (log 4): a load from
another module waits at issue for an earlier load of its line, so that it returns no older value (10 R303). -/
def State.scalarLoad (s : State) (b : Nat) (c : Ctx) (rd rs1 : Nat) (imm : BitVec 32) (rsv : BitVec 8) (n : Nat) : State :=
  s.issue b c { sregs := [rd, rs1], rsv := rsv.toNat } (fun s =>
    let a := s.effAddr b c rs1 imm
    if a % n != 0 then s.illegal b c 0x13
    else if s.storeOpen b c (s.lineKey a) then s.block b c .issue
    else match s.ownShelf b a n with
      | some off =>
        if s.pendingAt b off n then s.block b c .issue
        else
          let v := BitVec.ofNat 64 (ofLe (s.shelfRead b off n))
          if (s.poisoned b off n).isSome then
            let (s', stopped) := s.loadPoison b c (s.pc b c) n (s.layerGen b c)
            if stopped then s' else (s'.setS b c rd v).done b c
          else (s.setS b c rd v).done b c
      | none =>
        let ld : Load := ⟨rd, n, a, s.pc b c, s.layerGen b c⟩
        if s.isHere (modOf a) then (s.modCtx b c (fun x => { x with loads := x.loads ++ [ld] })).done b c
        else if s.loadOpen b c (s.lineKey a) then s.block b c .issue
        else
          let tc := s.tcFor c.idx (modOf a)
          let (s', failed) := s.submit (modOf a) c.idx b c.code (.rd (localOf a) n) (.load b c)
          if failed then ((s'.setS b c rd 0).accessFailed b c a .noroute tc).done b c
          else (s'.modCtx b c (fun x => { x with loads := x.loads ++ [ld] })).done b c)

/-- `LD8` (04 R139). -/
def execLd8 (b : BenchNo) (c : Ctx) (rd rs1 : Fin 32) (imm : BitVec 32) (rsv : BitVec 8) (s : State) : Out :=
  .next (s.scalarLoad b c rd rs1 imm rsv 1)

/-- `LD16` (04 R139). -/
def execLd16 (b : BenchNo) (c : Ctx) (rd rs1 : Fin 32) (imm : BitVec 32) (rsv : BitVec 8) (s : State) : Out :=
  .next (s.scalarLoad b c rd rs1 imm rsv 2)

/-- `LD32` (04 R139, 00 R10). -/
def execLd32 (b : BenchNo) (c : Ctx) (rd rs1 : Fin 32) (imm : BitVec 32) (rsv : BitVec 8) (s : State) : Out :=
  .next (s.scalarLoad b c rd rs1 imm rsv 4)

/-- `LD64` (04 R139, 00 R10). -/
def execLd64 (b : BenchNo) (c : Ctx) (rd rs1 : Fin 32) (imm : BitVec 32) (rsv : BitVec 8) (s : State) : Out :=
  .next (s.scalarLoad b c rd rs1 imm rsv 8)

/-- An outstanding load leaves its context, which goes on where it waited for it at issue (04 R106). -/
def State.loadGone (s : State) (b : Nat) (c : Ctx) (l : Load) : State :=
  s.modCtx b c (fun x => { x with loads := x.loads.erase l })

/-- The oldest load of a register in this module that no earlier load of its line holds back (10 R303). -/
def State.nearLoad (s : State) (b : Nat) (c : Ctx) (rd : Nat) : Option Load :=
  match (s.ctx b c).loads.find? (fun l => l.rd == rd && s.isHere (modOf l.addr)) with
  | none => none
  | some l =>
    let before := (s.ctx b c).loads.takeWhile (fun x => x != l)
    if before.any (fun x => s.lineKey x.addr == s.lineKey l.addr) then none else some l

/-- A load of this module's memory or registers returns (04 R106, R139; 10 R297): an uncorrectable codeword
reads as zero with event 0x41; a poisoned line of another Bench raises I and a trap event. -/
def State.loadNear (s : State) (b : Nat) (c : Ctx) (l : Load) : State :=
  let a := localOf l.addr
  let s := s.loadGone b c l
  let (s, data, good, psn) := match locOf a with
    | .reg r =>
      let (s, d) := s.regRead (latchCtx b c) r l.size
      (s, d, true, false)
    | _ => s.memRead 0 a l.size
  let s := if good then s else s.accessFailed b c l.addr .ue (s.tcFor c.idx s.modnum)
  let v := BitVec.ofNat 64 (ofLe data)
  if psn then
    let (s', stopped) := s.loadPoison b c l.pc l.size l.lgen
    if stopped then s' else s'.setS b c l.rd v
  else s.setS b c l.rd v

/-- `SCALAR_LOAD_COMPLETE` (04 R106): the data of a load from this module outside the Bench's own Shelf
returns, once the memory accepts the access (09 R267, 05 R167). -/
def execScalarLoadComplete (b : BenchNo) (c : Ctx) (rd : Fin 32) (s : State) : Out :=
  match s.nearLoad b c rd with
  | none => .next s
  | some l =>
    if !s.memReady (localOf l.addr) l.size || s.memPending (localOf l.addr) l.size then .next s
    else .next (s.loadNear b c l)

/-- A load of another module is answered (10 R297): a failure reads as zero with event 0x41; one that read a poisoned line
(`psn`) is as one of this module (05 R159, 06 R180; log 25). -/
def State.loadFar (s : State) (b : Nat) (c : Ctx) (t : Txn) (st : Status) (data : List Byte) (psn : Bool) : State :=
  match t.req with
  | .rd a n =>
    match (s.ctx b c).loads.find? (fun l => localOf l.addr == a && modOf l.addr == t.dest && l.size == n) with
    | none => s
    | some l =>
      let s := s.loadGone b c l
      if st = .ok then
        let v := BitVec.ofNat 64 (ofLe (data.take n))
        if psn then
          let (s', stopped) := s.loadPoison b c l.pc l.size l.lgen
          if stopped then s' else s'.setS b c l.rd v
        else s.setS b c l.rd v
      else (s.setS b c l.rd 0).accessFailed b c l.addr st t.tc
  | _ => s

/-- A store to another module is answered (10 R297): a failure is event 0x41. -/
def State.storeFar (s : State) (b : Nat) (c : Ctx) (line : Nat) (t : Txn) (st : Status) : State :=
  let s := s.modCtx b c (fun x => { x with stores := x.stores.erase ⟨line, true⟩ })
  if st = .ok then s
  else match t.req with
    | .wr a _ _ => s.accessFailed b c (t.dest * 2 ^ 50 + a) st t.tc
    | _ => s

end Sys2Proof.Machine
end

