-- ==== Sys2Proof/Machine/Flags.lean ====
section
/-!
DEFINITION. The flags of lane operations: the vector unit computes each lane exactly, rounds it once and ORs
the flags of the lanes that the predicate selects; the lanes with a trap event are found beside
(02 R37, R38, R40; 04 R110; 06 R179, R181).
-/
namespace Sys2Proof.Machine

/-- The outcome of one lane: its result bits, its flags, and the kind of trap event it makes. -/
structure LaneRes where
  bits : Nat
  fl : Flags
  trap : Option Nat
  deriving DecidableEq, Repr

/-- The lanes of the vector unit's arithmetic in a format: 128 of binary32, 256 of 16 bits (04 R110). -/
def laneCount (f : Fmt) : Nat := 4096 / f.width

/-- The arithmetic formats of the vector unit (02 R43, 04 R140). -/
def vecFmt (c : Nat) : Option Fmt :=
  match c with
  | 2 => some .gf16a | 3 => some .gf16b | 4 => some .b32 | _ => none

/-- The union of the flags of lanes. -/
def orFlags (l : List LaneRes) : Flags := l.foldl (fun f r => f.or r.fl) .none

/-- The trap events of the lanes of one row of results (06 R181). -/
def laneEvs (unit row set : Nat) (idx : Nat → Option Nat) (l : List LaneRes) : List TrapEv :=
  ((List.range l.length).zip l).filterMap (fun p => p.2.trap.map (fun k => ⟨k, unit, row, p.1, set, idx p.1⟩))

/-- A lane whose predicate bit is clear keeps its destination value and sets no flag (04 R110). -/
def guardLane (p : Nat) (i old : Nat) (r : LaneRes) : LaneRes := if p.testBit i then r else ⟨old, .none, none⟩

/-- An arithmetic lane from its inputs and its result. -/
def arithLane (ins : List FVal) (r : Nat × Flags) : LaneRes := ⟨r.1, r.2, trapKind ins r.2⟩

/-- The two-operand and three-operand operations of the vector unit (04 R140). -/
inductive VOp where
  | add | sub | mul | fma | min | max | div | sqrt
  deriving DecidableEq, Repr

/-- One lane of a vector operation (02 R38, R40, R41). -/
def VOp.lane (op : VOp) (f : Fmt) (a b c : Nat) : LaneRes :=
  let x := f.decode a
  let y := f.decode b
  let z := f.decode c
  match op with
  | .add => arithLane [x, y] (f.narrow (x.add y))
  | .sub => arithLane [x, y] (f.narrow (x.add y.negate))
  | .mul => arithLane [x, y] (f.narrow (x.mul y))
  | .fma => arithLane [x, y, z] (f.narrow (x.fma y z))
  | .min => arithLane [x, y] (f.narrow (x.minmax false y))
  | .max => arithLane [x, y] (f.narrow (x.minmax true y))
  | .div => arithLane [x, y] (f.div x y)
  | .sqrt => arithLane [x] (f.sqrt x)

/-- The conditions of `VCMP` in the order of their codes: EQ, NE, LT, LE, GT, GE (04 R140; 02 R40). -/
def cmpLane (cond : Nat) (f : Fmt) (a b : Nat) : Bool × Flags × Option Nat :=
  let x := f.decode a
  let y := f.decode b
  let r := match cond with
    | 0 => x.eqNum y
    | 1 => !x.eqNum y
    | 2 => x.ltNum y
    | 3 => x.ltNum y || x.eqNum y
    | 4 => y.ltNum x
    | _ => y.ltNum x || x.eqNum y
  let fl := x.inFlags.or y.inFlags
  (r, fl, trapKind [x, y] fl)

/-- The decoded source of a conversion and its trap kind: only a signalling NaN input is one, because a
conversion makes no NaN, and one to INT8 that saturates is no trap event (06 R179). Between equal formats it is a copy and
sets no flag: so says 05 R153 of a move, and DESIGN CHOICE (log 30): of a `VCVT` too, of which 04 R140 and 02 R44 say
neither. -/
def cvtLane (src dst : Fmt) (r : Rnd) (a : Nat) : LaneRes :=
  if src = dst then ⟨a % 2 ^ dst.width, .none, none⟩
  else
    let x := src.decode a
    let (v, fl) := dst.convert r x
    ⟨v, fl, if x = .nan true then some 2 else none⟩

end Sys2Proof.Machine
end

