-- ==== Sys2Proof/Machine/MoveEngine.lean ====
section
/-!
DEFINITION. The move engine (05 R149 to R159): the move descriptor and its checks, what a move reads and
writes, failures.
-/
namespace Sys2Proof.Machine

/-- The width in bytes of a far element (05 R151): that of `T.FMT` for a copy, else of `FFMT`. -/
def Move.farWidth (m : Move) : Nat :=
  let f := if m.op = 0 then (tileOf m.desc).fmt else m.ffmt
  ((Fmt.ofCode f).getD .gf8a).bytes

/-- The far format (05 R151). -/
def Move.farFormat (m : Move) : Fmt :=
  if m.op = 0 then (tileOf m.desc).format else (Fmt.ofCode m.ffmt).getD .gf8a

/-- The far address of Shelf element (r, c) (05 R152, R156), modulo 2^64. -/
def Move.farAddr (m : Move) (r c : Nat) : Nat :=
  if m.op = 2 then (m.addr + c * m.fstride + r * m.farWidth) % 2 ^ 64
  else (m.addr + r * m.fstride + c * m.farWidth) % 2 ^ 64

/-- The address of the scale byte of an element (05 R157). -/
def Move.scaleAddr (m : Move) (r c : Nat) : Nat := (m.saddr + r * m.sstride + c / 32) % 2 ^ 64

/-- A run of bytes, cut where addresses wrap at 2^64. -/
def wrapRun (a n : Nat) : List (Nat × Nat) :=
  let a := a % 2 ^ 64
  if a + n ≤ 2 ^ 64 then [(a, n)] else [(a, 2 ^ 64 - a), (0, a + n - 2 ^ 64)]

/-- The far rows of a move: address and bytes of each (05 R152, R156, R157). -/
def Move.runs (m : Move) : List (Nat × Nat) :=
  let t := tileOf m.desc
  let w := m.farWidth
  let rows := if m.op = 2 then (List.range t.cols).map (fun c => (m.farAddr 0 c, t.rows * w))
    else (List.range t.rows).map (fun r => (m.farAddr r 0, t.cols * w))
  let scales := if m.op = 3 && m.fscl then (List.range t.rows).map (fun r => (m.scaleAddr r 0, (t.cols + 31) / 32)) else []
  (rows ++ scales).flatMap (fun p => wrapRun p.1 p.2)

/-- The transactions of a move's far side: pieces of at most 256 B within a 256 B block (10 R295, R296). -/
def Move.pieces (m : Move) : List (Nat × Nat) := m.runs.flatMap (fun p => Sys2Proof.Machine.pieces p.1 p.2)

/-- The bytes that a move counts (05 R154, R156): each element on the wider of its two sides; a transposing
move 4,096 for each block of 32 × 32, whole or not. -/
def Move.count (m : Move) : Nat :=
  let t := tileOf m.desc
  match m.op with
  | 2 => ((t.rows + 31) / 32) * ((t.cols + 31) / 32) * 4096
  | 4 => 0
  | _ => t.rows * t.cols * max t.width m.farWidth

/-- The state with a move replaced. -/
def State.putMove (s : State) (b k : Nat) (m : Move) : State :=
  s.modBench b (fun x => { x with moves := FMap.set x.moves k m })

/-- `MOVE_STAT` shows the moves outstanding of each context and those under way (05 R173). -/
def State.showMoves (s : State) (b : Nat) : State :=
  let n (c : Ctx) : Nat := countTrue (fun p => p.2.ctx == c) (s.bench b).moves
  let a := A.moveStat b
  let s := s.setFld a F.moveStat.OUT_F (n .F)
  let s := s.setFld a F.moveStat.OUT_B (n .B)
  let s := s.setFld a F.moveStat.OUT_D (n .D)
  s.setFld a F.moveStat.UNDERWAY (n .F + n .B + n .D)

/-- The cause that makes a move illegal by its operation (05 R151). -/
def opCause (op dir : Nat) (t : Tile) (ffmt : Nat) (fscl : Bool) (addr : Nat) : Option Nat :=
  match op with
  | 0 => none
  | 1 => if (Fmt.ofElem ffmt).isSome then none else some 0x11
  | 2 => if !((t.fmt == 2 || t.fmt == 3) && decide (ffmt ≤ 3)) then some 0x12
         else if t.stride % 64 != 0 then some 0x13 else none
  | 3 => if dir == 0 && (t.fmt == 2 || t.fmt == 3 || t.fmt == 4) && ((ffmt == 0 && fscl) || (ffmt == 3 && !fscl))
         then none else some 0x12
  | _ => if dir != 0 then some 0x12 else if addr % 64 != 0 then some 0x13 else none

/-- The move descriptor at a Shelf offset, captured with the Shelf-side descriptor (05 R149, R150). -/
def State.moveOf (s : State) (b : Nat) (c : Ctx) (off t op dir : Nat) (sg : Bool) (cnt : Nat) : Move :=
  let w (i : Nat) : Nat := s.shelfNum b (off + 8 * i) 8
  { ctx := c, pc := s.pc b c, desc := (s.t b c t).toNat, op := op, dir := dir, sg := sg, cnt := cnt,
    addr := w 0, fstride := bits (w 1) 39 0, ffmt := bits (w 1) 43 40, fscl := bit (w 1) 44,
    saddr := w 2, sstride := bits (w 3) 39 0, step := s.stepOf b c, seed := s.seed, lgen := s.layerGen b c,
    far := [], asked := [], unanswered := 0, sent := false, next := 0, expDone := op != 4, lost := [] }

/-- What makes a `MOVE` illegal at issue (05 R149 to R151; 04 R112; 02 R27), in the order the model takes. -/
def State.moveCause (s : State) (b off : Nat) (m : Move) : Option Nat :=
  let t := tileOf m.desc
  let w (i : Nat) : Nat := s.shelfNum b (off + 8 * i) 8
  if (Fmt.ofElem t.fmt).isNone then some 0x11
  else if !t.usable then some 0x13
  else if bits (w 1) 63 45 != 0 || bits (w 3) 63 40 != 0 || (m.op == 4 && bits (w 2) 63 32 != 0) then some 0x12
  else match opCause m.op m.dir t m.ffmt m.fscl m.addr with
    | some k => some k
    | none =>
      if m.op != 4 && m.addr % m.farWidth != 0 then some 0x13
      else if s.isHere (modOf m.addr) && decide (localOf m.addr ≥ regBase) then some 0x13
      else none

/-- The Shelf lines that a tile covers (05 R167). -/
def Tile.lines (t : Tile) : List Nat :=
  ((List.range t.rows).flatMap (fun r => linesOf (t.elem r 0) (t.cols * t.width))).eraseDups

/-- `EXP_STAT` shows whether lines are pending and an expand move is under way, started and not complete (05 R173, R175). -/
def State.showExp (s : State) (b : Nat) : State :=
  let x := s.bench b
  let s := s.setFld (A.expStat b) F.expStat.PEND (!x.pend.isEmpty).toNat
  s.setFld (A.expStat b) F.expStat.BUSY (x.moves.any (fun p => p.2.op == 4)).toNat

/-- Whether the Shelf tile of a move touches a pending line. -/
def State.movePending (s : State) (b : Nat) (t : Tile) : Bool :=
  (List.range t.rows).any (fun r => s.pendingAt b (t.elem r 0) (t.cols * t.width))

/-- Far bytes noted in a move with the cause of their failure (0 none). -/
def Move.note (m : Move) (a : Nat) (data : List Byte) (cause : Nat) : Move :=
  { m with far := ((List.range data.length).zip data).foldl (fun f p => FMap.set f ((a + p.1) % 2 ^ 64) (p.2, cause)) m.far }

/-- The far reads of a move that go to other modules are sent (05 R149; 10 R295); those that fail at once are
noted. -/
def State.askFar (s : State) (b k : Nat) (l : List (Nat × Nat)) : State :=
  l.foldl (fun s p =>
    match FMap.get? (s.bench b).moves k with
    | none => s
    | some m =>
      if s.isHere (modOf p.1) || m.asked.contains p.1 then s
      else
        let (s, failed) := s.submit (modOf p.1) m.ctx.idx b m.ctx.code (.rd (localOf p.1) p.2) (.moveRd b k)
        if failed then s.putMove b k ({ m with asked := p.1 :: m.asked }.note p.1 (leBytes p.2 0) 1)
        else s.putMove b k { m with asked := p.1 :: m.asked, unanswered := m.unanswered + 1 }) s

/-- A read of a move to another module has been answered (10 R297; 05 R158). -/
def State.moveRdDone (s : State) (b k a n : Nat) (st : Status) (data : List Byte) : State :=
  match FMap.get? (s.bench b).moves k with
  | none => s
  | some m =>
    let d := (data ++ leBytes n 0).take n
    let cause := match st with
      | .ok => 0 | .ue => 2 | _ => 1
    s.putMove b k ({ m with unanswered := m.unanswered - 1 }.note a d cause)

/-- A write of a move to another module has been answered (10 R297; 05 R158). -/
def State.moveWrDone (s : State) (b k a n : Nat) (st : Status) : State :=
  match FMap.get? (s.bench b).moves k with
  | none => s
  | some m =>
    let m := { m with unanswered := m.unanswered - 1 }
    s.putMove b k (if st = .ok then m else m.note a (leBytes n 0) 3)

/-- The module's own far bytes of a move are read, codeword by codeword (05 R158; 09 R271). -/
def State.fetchNear (s : State) (b k : Nat) : State :=
  match FMap.get? (s.bench b).moves k with
  | none => s
  | some m =>
    m.pieces.foldl (fun s p =>
      if !s.isHere (modOf p.1) || m.lost.contains p.1 then s
      else (cwsOf p.1 p.2).foldl (fun s cw =>
        let lo := max cw p.1
        let n := min (cw + 64) (p.1 + p.2) - lo
        let (s, d, ok, _) := s.memRead 0 (localOf lo) n
        match FMap.get? (s.bench b).moves k with
        | some m => s.putMove b k (m.note lo d (if ok then 0 else 2))
        | none => s) s) s

/-- A piece of a move's far side in this module is lost at a clock crossing (14 R407): it fails with UE. Of an expand
move it is what the expander reads at that address next. -/
def State.moveLost (s : State) (b k a : Nat) : State :=
  match FMap.get? (s.bench b).moves k with
  | none => s
  | some m => if m.op = 4 then s.putMove b k { m with lost := a :: m.lost } else match m.pieces.find? (fun p => p.1 == a && s.isHere (modOf p.1) && !m.lost.contains a) with
    | none => s
    | some p => s.putMove b k ({ m with lost := a :: m.lost }.note a (leBytes p.2 0) (if m.dir = 0 then 2 else 3))

/-- The poison value of a Shelf format (05 R158): the default quiet NaN, or 0 for INT8. -/
def Fmt.poison (f : Fmt) : Nat := if f.isInt then 0 else f.qnan

/-- The first failure of a move, by its elements in row-major order: cause and far address (05 R158, R174). -/
def Move.failure (m : Move) : Option (Nat × Nat) :=
  let t := tileOf m.desc
  (List.range (t.rows * t.cols)).findSome? (fun i =>
    let r := i / t.cols
    let c := i % t.cols
    let at' (a n : Nat) : Option (Nat × Nat) := (List.range n).findSome? (fun j =>
      match FMap.get? m.far ((a + j) % 2 ^ 64) with
      | some (_, k) => if k = 0 then none else some (k, m.farAddr r c)
      | none => none)
    (at' (m.farAddr r c) m.farWidth).or (if m.op = 3 && m.fscl then at' (m.scaleAddr r c) 1 else none))

/-- An element of the far side, as a number, and whether its read failed. -/
def Move.farElem (m : Move) (r c : Nat) : Nat × Bool :=
  let l := (List.range m.farWidth).map (fun j => FMap.getD m.far ((m.farAddr r c + j) % 2 ^ 64) (0, 0))
  (ofLe (l.map (·.1)), l.any (fun p => p.2 != 0))

/-- An element on its way into the Shelf (05 R153, R156, R157): converted unless the formats are equal, a
scaled one decoded by its scale byte first. -/
def Move.inward (m : Move) (r c v : Nat) : LaneRes :=
  let t := tileOf m.desc
  let rnd := t.rnd m.seed m.step r c
  if m.op = 3 && m.fscl then
    let e := (FMap.getD m.far (m.scaleAddr r c) (0, 0)).1.toNat
    let x := m.farFormat.decode v
    let (y, fl) := t.format.convert rnd (x.scaled e)
    ⟨y, fl, if x == .nan true && e != 255 then some 2 else none⟩
  else cvtLane m.farFormat t.format rnd v

/-- Flags and trap events of a move: of its conversions, and of the first element that it read from a poisoned line, if
it did (05 R153, R159; 06 R178 to R181). -/
def State.moveFlags (s : State) (b : Nat) (m : Move) (psn : Option (Nat × Nat)) (res : List (Nat × Nat × LaneRes)) : State :=
  let t := tileOf m.desc
  let ev (kind r c : Nat) : TrapEv := ⟨kind, 5, r, c, 0, some (t.index r c)⟩
  let evs := psn.toList.map (fun p => ev 3 p.1 p.2) ++ res.filterMap (fun p => p.2.2.trap.map (fun k => ev k p.1 p.2.1))
  let s := (s.trap b m.ctx (s.suppressed b m.ctx) evs m.pc 0x88).1
  s.raiseFlags b m.ctx 4 ((orFlags (res.map (·.2.2))).or (if psn.isSome then .invalid else .none)) m.lgen

/-- The elements of a tile in row-major order. -/
def Tile.cells (t : Tile) : List (Nat × Nat) := (List.range (t.rows * t.cols)).map (fun i => (i / t.cols, i % t.cols))

/-- A move into the Shelf writes its elements (05 R152, R153, R158, R159): of a failed read the poison value,
with the poison bit of its line. -/
def State.moveIn (s : State) (b : Nat) (m : Move) : State :=
  let t := tileOf m.desc
  let res := t.cells.map (fun p =>
    let (v, bad0) := m.farElem p.1 p.2
    let bad := bad0 || (m.op = 3 && m.fscl && (FMap.getD m.far (m.scaleAddr p.1 p.2) (0, 0)).2 != 0)
    (p.1, p.2, bad, if bad then (⟨t.format.poison, .none, none⟩ : LaneRes) else m.inward p.1 p.2 v))
  let s := res.foldl (fun s p => s.shelfWrite b (t.elem p.1 p.2.1) (leBytes t.width p.2.2.2.bits)) s
  let s := (res.filter (fun p => p.2.2.1)).foldl (fun s p => s.shelfPoison b (t.elem p.1 p.2.1) t.width) s
  s.moveFlags b m none (res.map (fun p => (p.1, p.2.1, p.2.2.2)))

/-- The element of a Shelf on its way out (05 R153, R156). -/
def State.outward (s : State) (b : Nat) (m : Move) (r c : Nat) : LaneRes :=
  let t := tileOf m.desc
  cvtLane t.format m.farFormat (t.rnd m.seed m.step r c) (s.shelfNum b (t.elem r c) t.width)

/-- A move out of the Shelf reads its source and makes its writes (05 R152, R159): those to other modules are
sent, those to this module stored; one that finds its codeword uncorrectable fails (10 R297). -/
def State.moveOut (s : State) (b k : Nat) : State :=
  match FMap.get? (s.bench b).moves k with
  | none => s
  | some m =>
    let t := tileOf m.desc
    let res := t.cells.map (fun p => (p.1, p.2, s.outward b m p.1 p.2))
    let data := res.foldl (fun (f : FMap Byte) p =>
      ((List.range m.farWidth).zip (leBytes m.farWidth p.2.2.bits)).foldl
        (fun f q => FMap.set f ((m.farAddr p.1 p.2.1 + q.1) % 2 ^ 64) q.2) f) []
    let psn := t.cells.find? (fun p => (s.poisoned b (t.elem p.1 p.2) t.width).isSome)
    let s := s.moveFlags b m psn res
    let s := s.putMove b k { m with sent := true }
    m.pieces.foldl (fun s p =>
      let d := (List.range p.2).map (fun i => FMap.getD data (p.1 + i) 0)
      if s.isHere (modOf p.1) then
        if m.lost.contains p.1 then s
        else
          let (s, ok) := s.memWriteOk 0 (localOf p.1) (d.map (fun x => (x, true)))
          if ok then s
          else match FMap.get? (s.bench b).moves k with
            | none => s
            | some m => s.putMove b k (m.note p.1 (leBytes p.2 0) 3)
      else
        let (s, failed) := s.submit (modOf p.1) m.ctx.idx b m.ctx.code
          (.wr (localOf p.1) d (d.map (fun _ => true))) (.moveWr b k)
        match FMap.get? (s.bench b).moves k with
        | none => s
        | some m => s.putMove b k (if failed then m.note p.1 (leBytes p.2 0) 3
            else { m with unanswered := m.unanswered + 1 })) s

/-- Whether the far addresses of a move of Bench `b` in this module can be served now (09 R267, 05 R167, 01 R23). -/
def State.nearReady (s : State) (b : Nat) (m : Move) : Bool :=
  m.pieces.all (fun p => !s.isHere (modOf p.1) || (s.memReadyFor (some b) (localOf p.1) p.2 && !s.memPending (localOf p.1) p.2))

/-- A failed move is recorded and reported (05 R158, R174). -/
def State.moveFailed (s : State) (b : Nat) (m : Move) (cause far : Nat) : State :=
  let a := A.moveErr b
  let s := s.incSat a F.moveErr.COUNT 1
  let s :=
    if s.flag a F.moveErr.VALID then s
    else
      let s := s.setFld a F.moveErr.CTX m.ctx.code
      let s := s.setFld a F.moveErr.DIR m.dir
      let s := s.setFld a F.moveErr.OP m.op
      let s := s.setFld a F.moveErr.CAUSE cause
      let s := s.hwSet a F.moveErr.VALID
      s.wr (A.moveErrAddr b) (BitVec.ofNat 64 far)
  s.raise 0x81 (evSource 1 b)
    (leBytes 8 far ++ leBytes 2 (whoBits b m.ctx) ++ [BitVec.ofNat 8 m.op, BitVec.ofNat 8 m.dir, BitVec.ofNat 8 cause])

/-- A move is complete (04 R132): failures are recorded, its counter is signalled, the move leaves. -/
def State.moveEnd (s : State) (b k : Nat) (m : Move) : State :=
  let s := match (if m.op = 4 then none else m.failure) with
    | some (cause, far) => s.moveFailed b m cause far
    | none => s
  let s := s.incWrap (A.moveBytes b) F.moveBytes.BYTES m.count
  let s := s.modBench b (fun x => { x with moves := FMap.del x.moves k })
  let s := (s.showMoves b).showExp b
  if m.sg then s.unitSignal (0x3FFF0000 + m.cnt) 1 ⟨5, b, m.ctx.code, 0⟩ m.pc else s

/-- A move that can complete does so (04 R132): its transactions to other modules have been answered, the
lines it touches are readable. A move out of the Shelf that could not be sent at issue is sent first. -/
def State.moveTry (s : State) (b k : Nat) : State :=
  match FMap.get? (s.bench b).moves k with
  | none => s
  | some m =>
    let t := tileOf m.desc
    if m.op = 4 then (if m.expDone && m.unanswered = 0 then s.moveEnd b k m else s)
    else if m.unanswered ≠ 0 then s
    else if m.dir = 0 then
      if s.movePending b t || !s.nearReady b m then s
      else
        let s := s.fetchNear b k
        match FMap.get? (s.bench b).moves k with
        | none => s
        | some m => (s.moveIn b m).moveEnd b k m
    else if m.sent then s.moveEnd b k m
    else if s.movePending b t || !s.nearReady b m then s
    else
      let s := s.moveOut b k
      match FMap.get? (s.bench b).moves k with
      | none => s
      | some m => if m.unanswered = 0 then s.moveEnd b k m else s

end Sys2Proof.Machine
end

