-- ==== Sys2Proof/Machine/Ptp.lean ====
section
/-!
DEFINITION. The best master clock algorithm of PTP: masters heard, the port in slave state (14 R411).
-/
namespace Sys2Proof.Machine

/-- The PTP state of a port. -/
def State.ptp (s : State) (p : Nat) : PtpPort := (FMap.get? s.gt.ports p).getD ⟨0, 0, 0, 0, 0, 0, none, none, none, []⟩

/-- The state with the PTP state of a port replaced. -/
def State.setPtp (s : State) (p : Nat) (x : PtpPort) : State := s.putGt { s.gt with ports := FMap.set s.gt.ports p x }

/-- This module's clockIdentity (14 R411). -/
def State.ptpId (s : State) : Nat := s.fld A.gtPtpId F.gtPtpId.ID

/-- This module as a grandmaster (14 R411): accuracy unknown and the default variance (log 13). -/
def State.ownGm (s : State) : Gm :=
  ⟨s.fld A.gtPtp F.gtPtp.PRIO1, s.fld A.gtPtp F.gtPtp.CLASS, 0xFE, 0xFFFF, s.fld A.gtPtp F.gtPtp.PRIO2, s.ptpId⟩

/-- The lexical order of lists of numbers. -/
def lexLt : List Nat → List Nat → Bool
  | [], [] => false
  | [], _ => true
  | _, [] => false
  | x :: a, y :: b => if x = y then lexLt a b else decide (x < y)

/-- The data set comparison of IEEE 1588-2019 (14 R411; log 13): by the grandmaster's attributes, and for one
grandmaster by steps, sending port and receiving port. -/
def masterLt (a b : Nat × Master) : Bool :=
  let g (m : Master) : List Nat := [m.gm.prio1, m.gm.cls, m.gm.acc, m.gm.var, m.gm.prio2, m.gm.id]
  let t (x : Nat × Master) : List Nat := [x.2.steps, x.2.sender.clock, x.2.sender.port, x.1]
  if a.2.gm.id = b.2.gm.id then lexLt (t a) (t b) else lexLt (g a.2) (g b.2)

/-- Whether a port takes part in PTP (14 R411). -/
def State.ptpOn (s : State) (p : Nat) : Bool := s.flag A.gtPtp F.gtPtp.EN && s.portUp p

/-- The best master heard. -/
def State.bestMaster (s : State) : Option (Nat × Master) :=
  s.gt.masters.foldl (fun best m =>
    if !s.ptpOn m.1 then best
    else match best with
      | none => some m
      | some b => if masterLt m b then some m else best) none

/-- What this module would announce of itself, as a master heard. -/
def State.selfMaster (s : State) : Master := ⟨s.ownGm, 0, ⟨s.ptpId, 0⟩, 0⟩

/-- The port in slave state (14 R411): the best master's, where it is better than this module and this module
is no primary reference (clockClass of 128 or more). -/
def State.slavePort (s : State) : Option Nat :=
  match s.bestMaster with
  | none => none
  | some m => if s.ownGm.cls < 128 || masterLt (0, s.selfMaster) m then none else some m.1

/-- The best master clock algorithm decides afresh (14 R411); the exchanges of a new slave port begin
anew. -/
def State.bmca (s : State) : State :=
  let new := s.slavePort
  if new = s.gt.slave then s
  else
    let s := s.putGt { s.gt with slave := new }
    let s := s.setFld A.gtStat F.gtStat.PORT (new.getD 0)
    match new with
    | some p => s.setPtp p { s.ptp p with t2 := none, t1 := none, t3 := none }
    | none => s

end Sys2Proof.Machine
end

