-- ==== Sys2Proof/Machine/Ports.lean ====
section
/-!
DEFINITION. The Timir ports: training, retraining, loss, flits and Marks (10 R292 to R294, R321), and the
source that trims the fast oscillator (14 R402).
-/
namespace Sys2Proof.Machine

/-- The trim source of the fast oscillator and its port (14 R402): 1 XA, 2 the Marks of the lowest-numbered
port in UP4 or UP3, 3 PPS_IN, 0 none. -/
def State.trimSource (s : State) : Nat × Nat :=
  if !s.flag A.clkStat F.clkStat.XA_FAIL then (1, 0)
  else match firstNat 36 s.portUp with
    | some p => (2, p)
    | none => if s.flag A.gtPps F.gtPps.SEEN then (3, 0) else (0, 0)

/-- The trim follows its source (14 R402): after a change it is no longer settled, and its error against the
new source is free (log 3); with no source it holds its last value. -/
def State.retrim (s : State) : State :=
  let (src, port) := s.trimSource
  if s.fld A.clkTrim F.clkTrim.SRC = src ∧ s.fld A.clkTrim F.clkTrim.PORT = port then s
  else
    let s := s.setFld A.clkTrim F.clkTrim.SRC src
    let s := s.setFld A.clkTrim F.clkTrim.PORT port
    let s := s.setFld A.clkTrim F.clkTrim.SETTLED 0
    let s := s.putClk { s.clk with trimAt := s.pulse }
    if src = 0 then s
    else
      let (e, s) := s.draw 0xFFFF
      s.setFld A.clkTrim F.clkTrim.ERR e

/-- Transactions that found no port in service are sent when one comes up (10 R305). -/
def State.sendWaiting (s : State) : State :=
  s.tmr.noPort.foldl (fun s k => match FMap.get? s.tmr.outst k with
    | some t => s.transmit t
    | none => s.putTmr { s.tmr with noPort := s.tmr.noPort.filter (· != k) }) s

/-- The ports that went to UP3 for a lane and have not retrained since (10 R294), as one enters a state. -/
def Tmr.narrowed (x : Tmr) (p new : Nat) : List Nat :=
  if new = 3 then p :: x.narrow.filter (· != p) else if new = 1 then x.narrow else x.narrow.filter (· != p)

/-- A port enters a state (10 R294): event 0x40 at every change, and what follows for the trim, the health,
the capacity and the transactions that wait for a port. -/
def State.portEnter (s : State) (p new bad : Nat) : State :=
  let a := A.tmrPortStat p
  let old := s.fld a F.tmrPortStat.STATE
  let s := s.setFld a F.tmrPortStat.STATE new
  let s := s.setFld a F.tmrPortStat.LANEBAD bad
  let s := s.putTmr { s.tmr with
    portAt := FMap.set s.tmr.portAt p s.pulse
    fails := FMap.set s.tmr.fails p 0
    narrow := s.tmr.narrowed p new }
  if old = new then s
  else
    let s := s.raise 0x40 (evSource 3 p)
      ([BitVec.ofNat 8 p, BitVec.ofNat 8 old, BitVec.ofNat 8 new, BitVec.ofNat 8 bad] ++
        leBytes 2 (s.fld a F.tmrPortStat.PEER) ++ [BitVec.ofNat 8 (s.fld a F.tmrPortStat.PEERGW)])
    let s := if new = 2 ∨ new = 3 then s.sendWaiting else s
    s.bmca.retrim.health

/-- The port's present `LANEBAD`. -/
def State.laneBad (s : State) (p : Nat) : Nat := s.fld (A.tmrPortStat p) F.tmrPortStat.LANEBAD

/-- A port begins to train (10 R294). -/
def State.trainStart (s : State) (p : Nat) : State := s.portEnter p 1 (s.laneBad p)

/-- A retrain (10 R292, R294, R321): of a port with `EN` set; one that leaves an up state is counted. -/
def State.retrain (s : State) (p : Nat) : State :=
  if !s.flag (A.tmrPortCtl p) F.tmrPortCtl.EN || s.fld (A.tmrPortStat p) F.tmrPortStat.STATE == 1 then s
  else
    let s := if s.portUp p then s.incSat (A.tmrPortCnt p) F.tmrPortCnt.RETRAINS 1 else s
    s.trainStart p

/-- A retrain that software requests (10 R294, R321): the lane that had failed is tested with the others. -/
def State.retrainAll (s : State) (p : Nat) : State :=
  (s.putTmr { s.tmr with narrow := s.tmr.narrow.filter (· != p) }).retrain p

/-- A port goes DOWN (10 R294). It has no lane in use or out of use then, and `LANEBAD` shows 0 as it does of a DOWN port
after reset (R321; log 25). -/
def State.portDown (s : State) (p : Nat) : State :=
  let s := s.setFld (A.tmrPortStat p) F.tmrPortStat.PEERV 0
  s.portEnter p 0 0

/-- A write that clears `EN` (10 R321). -/
def State.portDisable (s : State) (p : Nat) : State :=
  (s.setFld (A.tmrPortCtl p) F.tmrPortCtl.EN 0).portDown p

/-- `PORT_TRAIN_COMPLETE` (10 R294): with four good lanes UP4, with three UP3, with fewer DOWN; a port that had come to
UP3 and that retrains for another reason than a request of software stays in UP3. The peer's number, and whether it is
a site gateway, where it was identified. -/
def execPortTrainComplete (p : PortNo) (good : BitVec 4) (peer : Option (BitVec 14 × Bool)) (s : State) : Out :=
  let a := A.tmrPortStat p
  .next (if s.fld a F.tmrPortStat.STATE != 1 then s
    else
      let n := countTrue (fun i => good.toNat.testBit i) (List.range 4)
      let bad := 15 - good.toNat
      let s := match peer with
        | some (m, gw) =>
          let s := s.setFld a F.tmrPortStat.PEERV 1
          let s := s.setFld a F.tmrPortStat.PEER m.toNat
          s.setFld a F.tmrPortStat.PEERGW gw.toNat
        | none => s.setFld a F.tmrPortStat.PEERV 0
      if n = 4 then (if s.tmr.narrow.contains p.val then s.portEnter p 3 (s.laneBad p) else s.portEnter p 2 0)
      else if n = 3 then s.portEnter p 3 bad
      else s.portEnter p 0 0)

/-- `PORT_TRAIN_RETRY` (10 R294): a DOWN port with `EN` set tries every 10 ms. -/
def execPortTrainRetry (p : PortNo) (s : State) : Out :=
  .next (if s.fld (A.tmrPortStat p) F.tmrPortStat.STATE == 0 && s.flag (A.tmrPortCtl p) F.tmrPortCtl.EN &&
      s.reached (FMap.getD s.tmr.portAt p 0) 10000 then s.trainStart p else s)

/-- `PORT_RETRAIN` (10 R321). -/
def execPortRetrain (p : PortNo) (s : State) : Out := .next (s.retrainAll p)

/-- `PORT_DISABLE` (10 R321). -/
def execPortDisable (p : PortNo) (s : State) : Out := .next (s.portDisable p)

/-- `LINK_LOST` (10 R294). -/
def execLinkLost (p : PortNo) (s : State) : Out :=
  .next (if s.fld (A.tmrPortStat p) F.tmrPortStat.STATE == 0 then s else s.portDown p)

/-- `FLIT_RECEIVE` (10 R292): of the flit that this module sent (`mine`), or of one that it received, the
CRC held or not. A received flit that fails is discarded, and the peer replays it. Of an own flit that failed
`n` flits are sent again and counted; after `LRETRY` + 1 failures in succession the port retrains. -/
def execFlitReceive (p : PortNo) (mine good : Bool) (n : BitVec 16) (s : State) : Out :=
  .next (if !mine || !s.portUp p then s
    else if good then s.putTmr { s.tmr with fails := FMap.set s.tmr.fails p 0 }
    else
      let s := s.incSat (A.tmrPortCnt p) F.tmrPortCnt.REPLAY n.toNat
      let s := s.incWrap (A.tmrPortCnt p) F.tmrPortCnt.FLITS n.toNat
      let f := FMap.getD s.tmr.fails p 0 + 1
      let s := s.putTmr { s.tmr with fails := FMap.set s.tmr.fails p f }
      if f > max 1 (s.fld (A.tmrPortCtl p) F.tmrPortCtl.LRETRY) then s.retrain p else s)

/-- `MARK_ARRIVAL` (10 R293; 14 R412): its time is latched. -/
def execMarkArrival (p : PortAt) (s : State) : Out :=
  .next (if s.portUp p.port then s.putTmr { s.tmr with marks := FMap.set s.tmr.marks p.port (s.rxStamp p.port p.ph).toNat } else s)

end Sys2Proof.Machine
end

