-- ==== Sys2Proof/Machine/Expander.lean ====
section
/-!
DEFINITION. The compressed tensor format and the expander (05 R160 to R171).
-/
namespace Sys2Proof.Machine

/-- A code table as the lengths of its symbols (05 R162). -/
abbrev CodeLens := List Nat

/-- The lengths in a table's 128 B (05 R162): an even symbol's in the low nibble. -/
def codeLens (l : List Byte) (n : Nat) : CodeLens :=
  (List.range n).map (fun k =>
    let v := (l.getD (k / 2) 0).toNat
    if k % 2 = 0 then v % 16 else v / 16)

/-- Whether a table is complete (05 R162): every length valid and the code full. -/
def lensOk (l : CodeLens) : Bool :=
  l.all (· ≤ 12) && (l.map (fun n => if n = 0 then 0 else 2 ^ (12 - n))).foldl (· + ·) 0 == 4096

/-- The first code of each length, lengths 1 to 12, from the counts of the lengths (05 R163). -/
def firstCodes (l : CodeLens) : List Nat :=
  (((List.range 12).map (· + 1)).foldl (fun (p : Nat × List Nat) n =>
    let before := if n = 1 then 0 else countTrue (· == n - 1) l
    let c := ((p.1 + before) * 2) % 65536
    (c, p.2 ++ [c])) (0, [])).2

/-- The canonical codes (05 R163): (length, code, symbol) of every symbol that has one. -/
def canon (l : CodeLens) : List (Nat × Nat × Nat) :=
  (((List.range l.length).zip l).foldl (fun (p : List Nat × List (Nat × Nat × Nat)) q =>
    if q.2 = 0 then p
    else
      let c := p.1.getD (q.2 - 1) 0
      (p.1.set (q.2 - 1) (c + 1), p.2 ++ [(q.2, c, q.1)])) (firstCodes l, [])).2

/-- The bit stream of a payload: bit i is bit (i mod 8) of byte floor(i / 8) (05 R163). -/
def bitStream (l : List Byte) : List Bool := l.flatMap (fun b => (List.range 8).map (fun i => b.toNat.testBit i))

/-- Symbols read from a bit stream, at most `n`, each begun with no bit read (05 R165): the symbols in
reverse, and the bits left over where all of them were found. -/
def readSyms (tab : List (Nat × Nat × Nat)) : List Bool → Nat → Nat → Nat → List Nat → List Nat × Option (List Bool)
  | rest, _, _, 0, acc => (acc, some rest)
  | [], _, _, _ + 1, acc => (acc, none)
  | b :: r, v, l, n + 1, acc =>
    let v := 2 * v + b.toNat
    let l := l + 1
    match tab.find? (fun e => e.1 == l && e.2.1 == v) with
    | some e => readSyms tab r 0 0 n (e.2.2 :: acc)
    | none => readSyms tab r v l (n + 1) acc

/-- The symbols of a coded block and the cause of its error, 0 for none (05 R165). -/
def decodeBlock (lens : CodeLens) (payload : List Byte) (n : Nat) : List Nat × Nat :=
  match readSyms (canon lens) (bitStream payload) 0 0 n [] with
  | (acc, none) => (acc.reverse, 3)
  | (acc, some rest) =>
    (acc.reverse, if rest.length > 31 then 1 else if rest.any (fun b => b) then 2 else 0)

/-- Bytes of a move's far side: not there yet, failed, or read. -/
inductive FarRes where
  | missing
  | failed
  | got (l : List Byte)
  deriving DecidableEq, Repr

/-- Bytes that the expander needs, at a far address (05 R166, R170): of this module they are read now, where no clock
crossing loses them (14 R407); of another module they are asked for once and used when they have come. -/
def State.expRead (s : State) (b k a n : Nat) : State × FarRes :=
  let ps := (wrapRun a n).flatMap (fun p => pieces p.1 p.2)
  if ps.any (fun p => s.isHere (modOf p.1) && (!s.memReadyFor (some b) (localOf p.1) p.2 || s.memPending (localOf p.1) p.2)) then (s, .missing)
  else
    let s := s.askFar b k ps
    let (far, lost) := match FMap.get? (s.bench b).moves k with
      | some m => (m.far, m.lost)
      | none => ([], [])
    if ps.any (fun p => !s.isHere (modOf p.1) && !(List.range p.2).all (fun i => FMap.has far (p.1 + i))) then (s, .missing)
    else
      let (s, l, ok) := ps.foldl (fun (q : State × List Byte × Bool) p =>
        if q.1.isHere (modOf p.1) then
          let (s, d, good, _) := q.1.memRead 0 (localOf p.1) p.2
          let gone := lost.contains p.1
          let s := if gone then
              match FMap.get? (s.bench b).moves k with
              | some m => s.putMove b k { m with lost := m.lost.erase p.1 }
              | none => s
            else s
          (s, q.2.1 ++ d, q.2.2 && good && !gone)
        else
          let d := (List.range p.2).map (fun i => FMap.getD far (p.1 + i) (0, 1))
          (q.1, q.2.1 ++ d.map (·.1), q.2.2 && d.all (fun x => x.2 == 0))) (s, [], true)
      (s, if ok then .got l else .failed)

/-- A number in a byte string. -/
def numAt (l : List Byte) (off n : Nat) : Nat := ofLe ((l.drop off).take n)

/-- The header of a compressed tensor (05 R160). -/
structure TensorHdr where
  efmt : Nat
  ntab : Nat
  nelem : Nat
  nblk : Nat
  taboff : Nat
  diroff : Nat
  deriving DecidableEq, Repr

/-- Symbols per element (05 R160). -/
def symsPer (efmt : Nat) : Nat := if efmt = 2 ∨ efmt = 3 then 2 else 1

/-- The header in 64 B, if it is valid (05 R160). -/
def tensorHdr (l : List Byte) : Option TensorHdr :=
  let w (i : Nat) : Nat := numAt l (8 * i) 8
  let h : TensorHdr := ⟨bits (w 0) 11 8, bits (w 0) 23 16, w 1, bits (w 2) 31 0, bits (w 3) 47 0, bits (w 4) 47 0⟩
  let n := h.nelem * symsPer h.efmt
  let ok := bits (w 0) 7 0 == 1 && [0, 1, 2, 3, 5].contains h.efmt && bits (w 0) 15 13 == 0 && bits (w 0) 63 24 == 0 &&
    h.ntab != 0 && bits (w 2) 63 32 == 0 && h.nblk == (n + 4095) / 4096 && bits (w 3) 63 48 == 0 &&
    bits (w 4) 63 48 == 0 && h.taboff % 8 == 0 && h.diroff % 8 == 0 && w 5 == 0 && w 6 == 0 && w 7 == 0
  if ok then some h else none

/-- Whether an expand move may write a format from the tensor's (05 R166): the same, or an exact widening. -/
def expandOk (efmt tfmt : Nat) : Bool :=
  efmt == tfmt || ((efmt == 0 || efmt == 1 || efmt == 5) && (tfmt == 2 || tfmt == 3 || tfmt == 4)) || (efmt == 2 && tfmt == 4)

/-- Symbols as elements (05 R165). -/
def elemsOf (efmt : Nat) (l : List Nat) : List Nat :=
  if symsPer efmt = 1 then l else (chunks 2 4096 l).map (fun p => p.getD 0 0 + 256 * p.getD 1 0)

/-- The lines of an expand move that still hold elements from number `n` on. -/
def Move.linesFrom (m : Move) (n : Nat) : List Nat :=
  let t := tileOf m.desc
  ((t.cells.drop n).flatMap (fun p => linesOf (t.elem p.1 p.2) t.width)).eraseDups

/-- The lines of an expand move whose last byte has been written become readable (05 R167): `before` and
`after` are the elements written before and now. -/
def State.unpend (s : State) (b : Nat) (m : Move) (before after : Nat) : State :=
  let still := m.linesFrom after
  let gone := (m.linesFrom before).filter (fun l => !still.contains l)
  (s.modBench b (fun x => { x with pend := gone.foldl (fun p l => p.erase l) x.pend })).showExp b

/-- Poison into the output positions `from` to `to` - 1 (05 R171, R158). -/
def State.expPoison (s : State) (b : Nat) (m : Move) (lo hi : Nat) : State :=
  let t := tileOf m.desc
  let cells := (t.cells.take hi).drop lo
  let s := cells.foldl (fun s p => s.shelfWrite b (t.elem p.1 p.2) (leBytes t.width t.format.poison)) s
  cells.foldl (fun s p => s.shelfPoison b (t.elem p.1 p.2) t.width) s

/-- An erroneous block is counted, recorded and reported (05 R171, R175). -/
def State.expError (s : State) (b : Nat) (m : Move) (block cause : Nat) : State :=
  let t := tileOf m.desc
  let a := A.expErr b
  let s := s.incSat a F.expErr.COUNT 1
  let s :=
    if s.flag a F.expErr.VALID then s
    else
      let s := s.setFld a F.expErr.CAUSE cause
      let s := s.hwSet a F.expErr.VALID
      let s := s.setFld (A.expErrTid b) F.expErrTid.TID t.tid
      s.setFld (A.expErrTid b) F.expErrTid.BLOCK block
  s.raise 0x82 (evSource 1 b)
    (leBytes 4 t.tid ++ leBytes 4 block ++ leBytes 2 (whoBits b m.ctx) ++ [BitVec.ofNat 8 cause])

/-- The whole move is erroneous (05 R170, causes 0x6 and 0x7 of the tensor header). -/
def State.expAbort (s : State) (b k : Nat) (m : Move) (cause : Nat) : State :=
  let t := tileOf m.desc
  let s := s.expPoison b m 0 (t.rows * t.cols)
  let s := s.expError b m (m.saddr % 2 ^ 32) cause
  let s := s.putMove b k { m with expDone := true }
  s.unpend b m 0 (t.rows * t.cols)

/-- A block is finished (05 R166, R171): its output positions are written, or poisoned, and its lines become
readable; the move's decoding ends with its last element. -/
def State.expBlock (s : State) (b k : Nat) (h : TensorHdr) (block inb : Nat) (elems : List Nat) (cause : Nat) : State :=
  match FMap.get? (s.bench b).moves k with
  | none => s
  | some m =>
    let t := tileOf m.desc
    let e := 4096 / symsPer h.efmt
    let total := t.rows * t.cols
    let lo := m.next * e
    let hi := min total (lo + e)
    let first := (m.saddr % 2 ^ 32) * e
    let src := (Fmt.ofCode h.efmt).getD .gf8a
    let s := if cause = 0 then
        ((List.range (hi - lo)).zip elems).foldl (fun s p =>
          let n := lo + p.1
          if first + n < h.nelem then
            let r := cvtLane src t.format .rne p.2
            s.shelfWrite b (t.elem (n / t.cols) (n % t.cols)) (leBytes t.width r.bits)
          else s) s
      else (s.expPoison b m lo hi).expError b m block cause
    let s := s.incWrap (A.expStat b) F.expStat.BLOCKS 1
    let s := s.incWrap (A.moveBytes b) F.moveBytes.BYTES inb
    let s := s.putMove b k { m with next := m.next + 1, expDone := decide (hi = total), far := [], asked := [] }
    s.unpend b m lo hi

/-- A block header breaks R164 (05). -/
def blockHdrBad (w ntab : Nat) : Bool :=
  let len := bits w 15 0
  let mode := bits w 23 16
  bits w 63 40 != 0 || (match mode with
    | 0 => decide (len > 6144) || decide (bits w 31 24 ≥ ntab)
    | 1 => len != 4096
    | 2 => len != 0
    | _ => true)

/-- A table that has been used is held, in place of the one used least recently of four (05 R168). -/
def State.holdTab (s : State) (b a : Nat) (tab : List Byte) : State :=
  s.modBench b (fun x => { x with expTabs := ((a, tab) :: x.expTabs.filter (fun p => p.1 != a)).take 4 })

/-- The bytes of a code table: of one that is held without a read, else from memory (05 R168). -/
def State.expTable (s : State) (b k a : Nat) : State × FarRes :=
  match (s.bench b).expTabs.find? (fun p => p.1 == a) with
  | some p => (s, .got p.2)
  | none => s.expRead b k a 136

/-- Whether a table is valid (05 R162): the expander takes only an alphabet of 256 symbols. -/
def tableOk (tab : List Byte) : Bool := numAt tab 0 8 == 0 && lensOk (codeLens (tab.drop 8) 256)

/-- The symbols of a block whose header and table are valid, and the cause of its error, 0 for none (05 R164, R165). -/
def blockSyms (w : Nat) (payload tab : List Byte) : List Nat × Nat :=
  match bits w 23 16 with
  | 1 => (payload.map (·.toNat), 0)
  | 2 => (List.replicate 4096 (bits w 39 32), 0)
  | _ => decodeBlock (codeLens (tab.drop 8) 256) payload 4096

/-- The block in hand is decoded as far as its bytes have come (05 R165, R168, R170). Its checks follow the order of R170:
whether everything can be read, then the header, the table, the payload. DESIGN CHOICE (log 24): of a header that breaks
R164 the payload is `LEN` bytes, and a table is read for `MODE` 0 and a `TAB` that the tensor has; a directory entry that
breaks R161 has cause 0x4. -/
def State.expDecode (s : State) (b k : Nat) (m : Move) (h : TensorHdr) : State :=
  let block := m.saddr % 2 ^ 32 + m.next
  let at' (off : Nat) : Nat := (m.addr + off) % 2 ^ 64
  let bad (s : State) (inb cause : Nat) : State := s.expBlock b k h block inb [] cause
  let (s, d) := s.expRead b k (at' (h.diroff + 8 * block)) 8
  match d with
  | .missing => s
  | .failed => bad s 0 7
  | .got dir =>
    let off := bits (numAt dir 0 8) 47 0
    if off % 8 != 0 || bits (numAt dir 0 8) 63 48 != 0 then bad s 16 4
    else
      let (s, hd) := s.expRead b k (at' off) 8
      match hd with
      | .missing => s
      | .failed => bad s 8 7
      | .got bh =>
        let w := numAt bh 0 8
        let len := bits w 15 0
        let inb := 16 + (len + 7) / 8 * 8
        let coded := bits w 23 16 == 0 && decide (bits w 31 24 < h.ntab)
        let ta := at' (h.taboff + 136 * bits w 31 24)
        let (s, pl) := if len = 0 then (s, FarRes.got []) else s.expRead b k (at' (off + 8)) len
        let (s, tb) := if coded then s.expTable b k ta else (s, FarRes.got [])
        match pl, tb with
        | .failed, _ => bad s inb 7
        | _, .failed => bad s inb 7
        | .got payload, .got tab =>
          let s := if coded then s.holdTab b ta tab else s
          if blockHdrBad w h.ntab then bad s inb 4
          else if coded && !tableOk tab then bad s inb 5
          else if (s.bench b).injShort then bad (s.modBench b (fun x => { x with injShort := false })) inb 3
          else
            let (syms, cause) := blockSyms w payload tab
            s.expBlock b k h block inb (elemsOf h.efmt syms) cause
        | _, _ => s

/-- The expander works on the oldest expand move (05 R166, R170): its header, then its next block. -/
def State.expStep (s : State) (b : Nat) : State :=
  match (s.bench b).moves.find? (fun p => p.2.op == 4 && !p.2.expDone) with
  | none => s
  | some (k, m) =>
    let t := tileOf m.desc
    let (s, hd) := s.expRead b k m.addr 64
    match hd with
    | .missing => s
    | .failed => s.expAbort b k m 7
    | .got l =>
      match tensorHdr l with
      | none => s.expAbort b k m 6
      | some h =>
        let e := 4096 / symsPer h.efmt
        if !expandOk h.efmt t.fmt || decide (m.saddr % 2 ^ 32 + (t.rows * t.cols + e - 1) / e > h.nblk) then s.expAbort b k m 6
        else match FMap.get? (s.bench b).moves k with
          | some m => s.expDecode b k m h
          | none => s

end Sys2Proof.Machine
end

