-- ==== Sys2Proof/Machine/Codec.lean ====
section
/-!
DEFINITION. Encoding blocks of symbols (05 R164; 08 R257; 12 R357; 13 R386) and decoding them.
-/
namespace Sys2Proof.Machine

/-- The lengths of a valid code table of 136 B with the alphabet given, 0 for 256 symbols and 1 for 16 (05
R162). -/
def tableOf (alpha : Nat) (l : List Byte) : Option CodeLens :=
  let lens := codeLens (l.drop 8) (if alpha = 0 then 256 else 16)
  if numAt l 0 8 = alpha ∧ lensOk lens then some lens else none

/-- The bits of a code, most significant first (05 R163). -/
def codeBits (len code : Nat) : List Bool := ((List.range len).map (fun i => code.testBit i)).reverse

/-- Bits packed into bytes, the first in bit 0 of the first byte (05 R163). -/
def packBits (l : List Bool) : List Byte :=
  (chunks 8 (l.length / 8 + 1) l).map (fun c => BitVec.ofNat 8 (ofLanes 1 (c.map Bool.toNat)))

/-- The payload of symbols under a table, if every symbol has a code (05 R163). -/
def codePayload (lens : CodeLens) (syms : List Nat) : Option (List Byte) :=
  let tab := canon lens
  (syms.mapM (fun x => (tab.find? (fun e => e.2.2 == x)).map (fun e => codeBits e.1 e.2.1))).map (fun l => packBits l.flatten)

/-- A block header (05 R164). -/
def blockHdr (len mode tab fill : Nat) : List Byte := leBytes 8 (len + mode * 2 ^ 16 + tab * 2 ^ 24 + fill * 2 ^ 32)

/-- A block in the first mode that applies (08 R257, 12 R357): fill, stored, coded. The tables offered are
numbered; the shortest payload wins, ties to the lowest number. -/
def encodeBlock (tabs : List (Nat × CodeLens)) (syms : List Nat) : List Byte :=
  let x := syms.headD 0
  if syms.all (· == x) then blockHdr 0 2 0 x
  else
    let best := tabs.foldl (fun (b : Option (Nat × List Byte)) t =>
      match codePayload t.2 syms with
      | none => b
      | some p => match b with
        | some (_, q) => if p.length < q.length then some (t.1, p) else b
        | none => some (t.1, p)) none
    match best with
    | some (t, p) => if p.length ≤ 4096 then blockHdr p.length 0 t 0 ++ p else blockHdr 4096 1 0 0 ++ syms.map (BitVec.ofNat 8)
    | none => blockHdr 4096 1 0 0 ++ syms.map (BitVec.ofNat 8)

/-- Bytes filled with zeros up to a multiple of `n`. -/
def padTo (n : Nat) (l : List Byte) : List Byte := l ++ List.replicate ((n - l.length % n) % n) 0

/-- The 4,096 symbols of a block of header and payload (05 R164, R165), none where it is erroneous. `tab`
gives the lengths of a numbered table that is valid. -/
def openBlock (tab : Nat → Option CodeLens) (l : List Byte) : Option (List Nat) :=
  let w := numAt l 0 8
  let len := bits w 15 0
  let p := (l.drop 8).take len
  if blockHdrBad w 256 || decide (p.length < len) then none
  else match bits w 23 16 with
    | 1 => some (p.map (·.toNat))
    | 2 => some (List.replicate 4096 (bits w 39 32))
    | _ => match tab (bits w 31 24) with
      | none => none
      | some lens =>
        match decodeBlock lens p 4096 with
        | (syms, 0) => some syms
        | _ => none

end Sys2Proof.Machine
end

