-- ==== Sys2Proof/Machine/Real32.lean ====
section
/-!
DEFINITION. Arithmetic on binary32 encodings as the Sideboards and the Trestle do it (08 R238, R240; 12
R353): every operation rounds once to nearest even, and sums of squares are exact.
-/
namespace Sys2Proof.Machine

/-- The value of a binary32 encoding; subnormals read as zero (02 R33). -/
def f32 (x : Nat) : FVal := Fmt.b32.decode x

/-- The sum of two encodings. -/
def f32add (a b : Nat) : Nat := (Fmt.b32.narrow ((f32 a).add (f32 b))).1

/-- The difference. -/
def f32sub (a b : Nat) : Nat := (Fmt.b32.narrow ((f32 a).add (f32 b).negate)).1

/-- The product. -/
def f32mul (a b : Nat) : Nat := (Fmt.b32.narrow ((f32 a).mul (f32 b))).1

/-- The fused product and sum a × b + c. -/
def f32fma (a b c : Nat) : Nat := (Fmt.b32.narrow ((f32 a).fma (f32 b) (f32 c))).1

/-- The fused -a × b + c. -/
def f32fnma (a b c : Nat) : Nat := (Fmt.b32.narrow ((f32 a).negate.fma (f32 b) (f32 c))).1

/-- The quotient. -/
def f32div (a b : Nat) : Nat := (Fmt.b32.div (f32 a) (f32 b)).1

/-- The square root. -/
def f32sqrt (a : Nat) : Nat := (Fmt.b32.sqrt (f32 a)).1

/-- One in binary32. -/
def f32one : Nat := 0x3F800000

/-- +∞ in binary32. -/
def f32inf : Nat := 0x7F800000

/-- Whether an encoding is greater than another; false where either is a NaN. -/
def f32gt (a b : Nat) : Bool := (f32 b).ltNum (f32 a)

/-- Whether an encoding is a NaN or an infinity. -/
def Fmt.odd (f : Fmt) (x : Nat) : Bool := (f.decode x).nonFinite

/-- An encoding of a format as binary32, subnormals flushed (08 R229, R238). -/
def toF32 (f : Fmt) (x : Nat) : Nat := (cvt f .b32 .rne x).1

/-- The magnitude of a finite value in units of 2^-192, signed; binary32 has no smaller unit than 2^-149. -/
def FVal.units : FVal → Int
  | .fin n m e => let x : Int := (m <<< (e + 192).toNat : Nat); if n then -x else x
  | _ => 0

/-- The square of a finite value in the exact accumulator's unit, 2^-384 (08 R240). -/
def FVal.sqUnits (v : FVal) : Nat := v.units.natAbs * v.units.natAbs

/-- The exact sum of squares of binary32 encodings (08 R240). -/
def sumSquares (l : List Nat) : Nat := l.foldl (fun a x => a + (f32 x).sqUnits) 0

/-- The square root of an exact value, rounded once to binary32 (08 R240). -/
def sqrtExact (n : Nat) : Nat := (Fmt.b32.sqrt (FVal.mk false n (-384))).1

/-- The quotient of two exact magnitudes, rounded once to binary32. -/
def ratioExact (a b : Nat) : Nat := (Fmt.b32.div (FVal.mk false a 0) (FVal.mk false b 0)).1

/-- A matrix as its rows. -/
abbrev Mat := List (List Nat)

/-- The transpose of a matrix of `c` columns. -/
def Mat.transpose (m : Mat) (c : Nat) : Mat := (List.range c).map (fun j => m.map (fun r => r.getD j 0))

/-- The inner product of two rows of GF16b encodings (08 R246): chunks of 256 products by the tree, their
sums added in ascending order. -/
def dotRow (a b : List Nat) : Nat :=
  let prods := (a.zip b).map (fun p => (Fmt.b32.narrow ((Fmt.gf16b.decode p.1).mul (Fmt.gf16b.decode p.2))).1)
  match (chunks 256 (prods.length / 256 + 1) prods).map (fun l => (Fmt.b32.tree (l.map (fun x => (x, Flags.none)))).1) with
  | [] => 0
  | x :: r => r.foldl f32add x

/-- The elements of a matrix rounded to GF16b. -/
def Mat.round16 (m : Mat) : Mat := m.map (·.map (fun x => (cvt .b32 .gf16b .rne x).1))

/-- `mm(a, transpose(b))` (08 R246): both operands are rounded to GF16b. -/
def mmT (a b : Mat) : Mat :=
  let b := b.round16
  a.round16.map (fun r => b.map (dotRow r))

/-- Two matrices combined element by element. -/
def Mat.zipW (f : Nat → Nat → Nat) (a b : Mat) : Mat := (a.zip b).map (fun p => (p.1.zip p.2).map (fun q => f q.1 q.2))

/-- The Newton–Schulz iterations on X (08 R246), with the parameters a, b, c; `c` columns. -/
def newton (a b c cols : Nat) : Nat → Mat → Mat
  | 0, x => x
  | k + 1, x =>
    let g := mmT x x
    let h := mmT g (g.transpose g.length)
    let bb := Mat.zipW (fun u v => f32add (f32mul b u) (f32mul c v)) g h
    let y := mmT bb (x.transpose cols)
    newton a b c cols k (Mat.zipW (fun u v => f32add (f32mul a u) v) x y)

/-- The square root of the exact sum of squares of values some of which may not be finite. -/
def normOf (l : List Nat) : Nat :=
  if l.any (fun x => (f32 x).isNan) then Fmt.b32.qnan
  else if l.any (Fmt.b32.odd ·) then f32inf
  else sqrtExact (sumSquares l)

/-- The matrix rule's X after normalisation and the iterations (08 R246), from the elements in row-major
order: P rows, Q columns, h3, the three parameters and KNS. -/
def orthogonal (p q h3 a b c kns : Nat) (xs : List Nat) : List Nat :=
  let d := f32add (normOf xs) h3
  let m : Mat := chunks q p (xs.map (fun x => f32div x d))
  let y := if p > q then (newton a b c p kns (m.transpose q)).transpose p else newton a b c q kns m
  y.flatten

end Sys2Proof.Machine
end

