-- ==== Sys2Proof/Machine/SbdDesc.lean ====
section
/-!
DEFINITION. The update descriptors and state arrays of the Sideboards (08 R221, R232 to R237), the
non-finite record (06 R183), and reading and writing positions with what 16 R454 says of unreadable ones.
-/
namespace Sys2Proof.Machine

/-- An update descriptor (08 R233). -/
structure UDesc where
  ltag : Nat
  rule : Nat
  wide : Bool
  dense : Bool
  decay : Bool
  nest : Bool
  outer : Bool
  g8 : Bool
  nfpol : Bool
  lpol : Nat
  kns : Nat
  expm : Nat
  tab : Nat
  tidb : Nat
  first : Nat
  nblk : Nat
  ucnt : Nat
  p : Nat
  q : Nat
  sbase : Nat
  nelem : Nat
  h : List Nat
  deriving DecidableEq, Repr

/-- The descriptor in 128 B (08 R233). -/
def udesc (l : List Byte) : UDesc :=
  let w (i : Nat) : Nat := numAt l (8 * i) 8
  { ltag := bits (w 0) 15 0, rule := bits (w 0) 18 16, wide := bit (w 0) 19, dense := bit (w 0) 20,
    decay := bit (w 0) 21, nest := bit (w 0) 22, outer := bit (w 0) 23, g8 := bit (w 0) 24,
    nfpol := bit (w 0) 25, lpol := bits (w 0) 27 26, kns := bits (w 0) 31 28, expm := bits (w 0) 43 32,
    tab := bits (w 0) 45 44, tidb := bits (w 1) 31 0, first := bits (w 1) 63 32, nblk := bits (w 2) 31 0,
    ucnt := bits (w 2) 47 32, p := bits (w 3) 31 0, q := bits (w 3) 63 32, sbase := bits (w 4) 39 0,
    nelem := bits (w 5) 47 0, h := (List.range 16).map (fun i => numAt l (48 + 4 * i) 4) }

/-- Parameter h_i (08 R233). -/
def UDesc.par (d : UDesc) (i : Nat) : Nat := d.h.getD i 0

/-- The format of an array's elements (08 R236); array 11 has a form of its own. -/
def UDesc.fmt (d : UDesc) (k : Nat) : Fmt :=
  match k with
  | 0 | 1 | 2 | 4 | 5 => if d.wide then .b32 else .gf16b
  | 3 => .gf16a
  | _ => .gf16b

/-- Whether an array is present (08 R236). -/
def UDesc.has (d : UDesc) (k : Nat) : Bool :=
  match k with
  | 0 | 4 => true
  | 1 => decide (1 ≤ d.rule) && decide (d.rule ≤ 3)
  | 2 => d.rule == 1
  | 3 => d.wide
  | 11 => d.g8
  | _ => d.outer && decide (k ≤ 10)

/-- The bytes of a position of an array (08 R237). -/
def UDesc.posBytes (d : UDesc) (k : Nat) : Nat := if k = 11 then 2112 else 2048 * (d.fmt k).bytes

/-- Positions of each array in a stack (08 R237). -/
def UDesc.nmax (d : UDesc) : Nat := (d.nblk + 15) / 16

/-- The offset of array `k` from `SBASE`; of the touched bitmap for 12 (08 R237). -/
def UDesc.off (d : UDesc) (k : Nat) : Nat :=
  (((List.range k).filter d.has).map (fun j => d.nmax * d.posBytes j)).foldl (· + ·) 0

/-- Whether a descriptor is valid (08 R234). -/
def udescOk (l : List Byte) : Bool :=
  let w (i : Nat) : Nat := numAt l (8 * i) 8
  let d := udesc l
  bits (w 0) 63 46 == 0 && bits (w 2) 63 48 == 0 && bits (w 4) 63 40 == 0 && bits (w 5) 63 48 == 0 &&
  d.par 15 == 0 && w 14 == 0 && w 15 == 0 &&
  decide (d.rule ≤ 3) && d.nblk != 0 && d.sbase % 64 == 0 &&
  decide (d.sbase + d.off 12 + (d.nmax + 511) / 512 * 64 ≤ 0x1800000000) &&
  (d.nelem == 0 || decide (d.first + d.nblk ≤ (d.nelem + 2047) / 2048)) &&
  (d.rule != 3 || (decide (1 ≤ d.kns) && decide (d.kns ≤ 8) && d.first == 0 &&
    d.nblk == (d.p * d.q + 2047) / 2048 && decide (min d.p d.q ≤ 16384) && (d.nelem == 0 || d.nelem == d.p * d.q)))

/-- The number of update slots (08 R263). -/
def State.sbdCount (s : State) : Nat := min 4096 (s.fld (A.sbdLtab 0) F.sbdLtab.COUNT)

/-- The descriptor of a slot is read from its table (08 R232). -/
def State.readDesc (s : State) (slot : Nat) : State × List Byte :=
  let (s, l, _) := s.memRead 3 (s.fld (A.sbdLtab 0) F.sbdLtab.BASE * 128 + 128 * slot) 128
  (s, l)

/-- Whether element `i` of tensor block `b` is padding (08 R221). -/
def UDesc.pad (d : UDesc) (b i : Nat) : Bool := d.nelem != 0 && decide (2048 * b + i ≥ d.nelem)

/-- The tensor block at position `p` of Sideboard `t` (08 R222). -/
def UDesc.block (d : UDesc) (t p : Nat) : Nat := d.first + 16 * p + t

/-- The positions that Sideboard `t` holds (08 R222). -/
def UDesc.positions (d : UDesc) (t : Nat) : List Nat := (List.range d.nmax).filter (fun p => decide (16 * p + t < d.nblk))

/-- All positions of a slot: Sideboard and position. -/
def UDesc.places (d : UDesc) : List (Nat × Nat) := (List.range 16).flatMap (fun t => (d.positions t).map (fun p => (t, p)))

/-- The address of position `p` of array `k` (08 R237). -/
def UDesc.addr (d : UDesc) (t k p : Nat) : Nat := dirBase t + d.sbase + d.off k + p * d.posBytes k

/-- Bytes as elements of `w` bytes. -/
def elemsIn (w : Nat) (l : List Byte) : List Nat := (chunks w (l.length / w + 1) l).map ofLe

/-- Elements as bytes of a width. -/
def elemsOut (w : Nat) (l : List Nat) : List Byte := l.flatMap (leBytes w)

/-- A position of an array is read: the state, its elements and whether it was readable. -/
def State.readPos (s : State) (d : UDesc) (t k p : Nat) : State × List Nat × Bool :=
  let (s, l, ok, _) := s.memRead 3 (d.addr t k p) (d.posBytes k)
  (s, elemsIn (d.fmt k).bytes l, ok)

/-- A position of an array is written. -/
def State.writePos (s : State) (d : UDesc) (t k p : Nat) (l : List Nat) : State :=
  s.memWrite 3 (d.addr t k p) (elemsOut (d.fmt k).bytes l)

/-- The address of the byte with the touched bit of a position (08 R237). -/
def UDesc.touchAddr (d : UDesc) (t p : Nat) : Nat := dirBase t + d.sbase + d.off 12 + p / 8

/-- Whether the touched bit of a position is set. -/
def State.touched (s : State) (d : UDesc) (t p : Nat) : Bool :=
  ((s.memRead 3 (d.touchAddr t p) 1).2.1.headD 0).toNat.testBit (p % 8)

/-- The touched bit of a position is set or cleared. -/
def State.touch (s : State) (d : UDesc) (t p : Nat) (on : Bool) : State :=
  let (s, l, _) := s.memRead 3 (d.touchAddr t p) 1
  s.memWrite 3 (d.touchAddr t p) [BitVec.ofNat 8 (setBits (l.headD 0).toNat (p % 8) (p % 8) on.toNat)]

/-- A non-finite value is met (06 R183): counted, and the first latched with a numeric event. `src` is the
Sideboard, or 0x80 for the Trestle. -/
def State.nonFinite (s : State) (src tid idx : Nat) : State :=
  let (st, ti, ix) := if src = 0x80 then (A.trsNfStat, A.trsNfTid, A.trsNfIdx) else (A.sbdNfStat src, A.sbdNfTid src, A.sbdNfIdx src)
  let s := s.incSat st F.sbdNfStat.COUNT 1
  if s.flag st F.sbdNfStat.VALID then s
  else
    let s := s.hwSet st F.sbdNfStat.VALID
    let s := s.setFld ti F.sbdNfTid.TID tid
    let s := s.setFld ix F.sbdNfIdx.IDX idx
    s.raise 0x03 (if src = 0x80 then evSource 5 0 else evSource 2 src) (leBytes 8 idx ++ leBytes 4 tid ++ [BitVec.ofNat 8 src])

/-- A position holds an unreadable codeword (16 R454): event 0xA7, and the health knows it. -/
def State.badPosition (s : State) (slot : Nat) (d : UDesc) (t k p : Nat) : State :=
  let b := d.block t p
  let s := s.raise 0xA7 (evSource 2 t) (leBytes 4 b ++ leBytes 2 slot ++ [BitVec.ofNat 8 k, BitVec.ofNat 8 t])
  if s.flt.badPos.contains (t, slot, b) then s
  else (s.putFlt { s.flt with badPos := (t, slot, b) :: s.flt.badPos }).health

/-- A position is readable again (16 R454). -/
def State.goodPosition (s : State) (slot : Nat) (d : UDesc) (t p : Nat) : State :=
  if s.flt.badPos.contains (t, slot, d.block t p) then
    (s.putFlt { s.flt with badPos := s.flt.badPos.filter (· != (t, slot, d.block t p)) }).health
  else s

/-- A binary32 value as an array's element (08 R238): wide arrays take it unchanged, GF16b by SR with the key of
R238, and the working copy by RNE. -/
def UDesc.store (d : UDesc) (seed : Word) (k b i step x : Nat) : Nat :=
  match d.fmt k with
  | .b32 => x
  | .gf16a => (cvt .b32 .gf16a .rne x).1
  | f => (cvt .b32 f (.sr (srDraw seed (d.tidb + k) (2048 * b + i) step)) x).1

end Sys2Proof.Machine
end

