-- ==== Sys2Proof/Machine/Sideboard.lean ====
section
/-!
DEFINITION. Gradient intake of the Sideboards (08 R224 to R231), step records (R235), the global norm
(R243), and the takeover of a faulty Sideboard (R264, 16 R453).
-/
namespace Sys2Proof.Machine

/-- The signals of Sideboards name no context (11 R340). -/
def sbdWho : Who := ⟨3, 0, 0, 0⟩

/-- A slot at a Sideboard. -/
def SbdUnit.slot (u : SbdUnit) (l : Nat) : SbdSlot := FMap.getD u.slots l SbdSlot.reset

/-- A slot at a Sideboard. -/
def State.sslot (s : State) (t l : Nat) : SbdSlot := (s.unit t).slot l

/-- The state with a slot at a Sideboard changed. -/
def State.modSlot (s : State) (t l : Nat) (f : SbdSlot → SbdSlot) : State :=
  s.modUnit t (fun u => { u with slots := FMap.set u.slots l (f (u.slot l)) })

/-- A Sideboard event (08 R265). -/
def State.sbdEvent (s : State) (code t : Nat) (pay : List Byte) : State := s.raise code (evSource 2 t) pay

/-- `READY` shows the slots whose intake is complete and whose update has not started; `BUSY` and `MATRIX`
the updates in progress (08 R263). -/
def State.showSbd (s : State) : State :=
  (List.range 16).foldl (fun s t =>
    let n := countTrue (fun p => p.2.done && !p.2.held && p.2.step.isSome && !s.sbd.runs.any (fun r => r.slot == p.1)) (s.unit t).slots
    let s := s.setFld (A.sbdStat t) F.sbdStat.READY n
    let s := s.setFld (A.sbdStat t) F.sbdStat.BUSY (!s.sbd.runs.isEmpty).toNat
    s.setFld (A.sbdStat t) F.sbdStat.MATRIX (s.sbd.runs.any (·.matrix)).toNat) s

/-- An intake record's header (08 R225). -/
structure Rec where
  tid : Nat
  fmt : Nat
  kind : Nat
  slot : Nat
  blk : Nat
  src : Nat
  step : Nat
  credit : Nat
  deriving DecidableEq, Repr

/-- The header in 64 B (08 R225). -/
def recOf (l : List Byte) : Rec :=
  let w (i : Nat) : Nat := numAt l (8 * i) 8
  ⟨bits (w 0) 31 0, bits (w 0) 35 32, bits (w 0) 37 36, bits (w 0) 51 40, bits (w 1) 31 0, bits (w 1) 43 32,
    bits (w 2) 47 0, bits (w 3) 29 0⟩

/-- The address of intake slot `x` of a Sideboard (08 R224). -/
def State.intakeAddr (s : State) (t x : Nat) : Nat := s.fld (A.sbdIntakeBase t) F.sbdIntakeBase.ADDR * 64 + x * 8256

/-- The header of an intake slot is read. -/
def State.readRec (s : State) (t x : Nat) : State × Rec :=
  let (s, l, _) := s.memRead 3 (s.intakeAddr t x) 64
  (s, recOf l)

/-- An intake slot is freed and its credit returned (08 R227). -/
def State.freeSlot (s : State) (t x credit : Nat) : State :=
  let s := s.modUnit t (fun u => { u with hdr := FMap.del u.hdr x, waiting := u.waiting.filter (· != x) })
  s.unitSignal credit 1 sbdWho 0

/-- A record is dropped with event 0x20 (08 R228, R265). -/
def State.dropRec (s : State) (t x : Nat) (r : Rec) (reason : Nat) : State :=
  let s := s.sbdEvent 0x20 t (leBytes 6 r.step ++ leBytes 2 r.slot ++ leBytes 4 r.blk ++ leBytes 2 r.src ++
    [BitVec.ofNat 8 reason, BitVec.ofNat 8 t])
  s.freeSlot t x r.credit

/-- The elements of a DATA record as binary32 (08 R225, R229): a value that is not finite counts as +0 and is
latched; so does padding, unlatched. Answers the state, the elements and whether one was latched. -/
def State.recValues (s : State) (t x : Nat) (d : UDesc) (r : Rec) : State × List Nat × Bool :=
  let f := (Fmt.ofCode r.fmt).getD .gf8b
  let (s, l, _) := s.memRead 3 (s.intakeAddr t x + 64) (2048 * f.bytes)
  ((List.range 2048).zip (elemsIn f.bytes l)).foldl (fun (q : State × List Nat × Bool) p =>
    let (s, acc, nf) := q
    let v := toF32 f p.2
    if d.pad r.blk p.1 then (s, acc ++ [0], nf)
    else if Fmt.b32.odd v then (s.nonFinite t r.tid (2048 * r.blk + p.1), acc ++ [0], true)
    else (s, acc ++ [v], nf)) (s, [], false)

/-- Contributions are added to the accumulator of a position (08 R229, R231): the exact sum converted by SR
with the key given; a sum that becomes infinite leaves the element and latches. The position is touched. An
accumulator that cannot be read is left alone (16 R454), and the position is touched all the same (R245). -/
def State.accumulate (s : State) (t : Nat) (d : UDesc) (r : Rec) (tid step : Nat) (xs : List Nat) : State :=
  let p := (r.blk - d.first) / 16
  let (s, acc, ok) := s.readPos d t 4 p
  if !ok then (s.badPosition r.slot d t 4 p).touch d t p true
  else
    let f := d.fmt 4
    let (s, out, nf) := ((List.range 2048).zip (acc.zip xs)).foldl (fun (q : State × List Nat × Bool) e =>
      let (s, out, nf) := q
      let (i, a, x) := e
      let sum := ((f.decode a).add (f32 x)).1
      let y := (f.convert (.sr (srDraw s.seed tid (2048 * r.blk + i) step)) sum).1
      if d.pad r.blk i then (s, out ++ [a], nf)
      else if Fmt.b32.odd x || f.odd y then (s.nonFinite t tid (2048 * r.blk + i), out ++ [a], true)
      else (s, out ++ [y], nf)) (s, [], false)
    let s := (s.writePos d t 4 p out).touch d t p true
    if nf then s.modSlot t r.slot (fun l => { l with nf := true }) else s

/-- The exact sum of squares of the accumulator over the module's shard (08 R241). -/
def State.slotSum (s : State) (d : UDesc) : State × Nat :=
  d.places.foldl (fun (q : State × Nat) tp =>
    let (s, l, ok) := q.1.readPos d tp.1 4 tp.2
    (s, if ok then q.2 + sumSquares (l.map (toF32 (d.fmt 4))) else q.2)) (s, 0)

/-- The slot norm |γ| × sqrt(S) (08 R241). -/
def UDesc.norm (d : UDesc) (sum : Nat) : Nat := f32mul (d.par 14 % 2 ^ 31) (sqrtExact sum)

/-- Whether intake of a step is complete at all Sideboards (08 R241). -/
def State.intakeDone (s : State) (l step : Nat) : Bool :=
  (List.range 16).all (fun t => let x := s.sslot t l; x.done && !x.held && x.step == some step)

/-- The record of a step's global norm. -/
def State.normOf (s : State) (step : Nat) : Option SbdNorm := s.sbd.norms.find? (fun n => n.step == step)

/-- The state with a step's global norm record replaced; records of steps long past go. -/
def State.putNorm (s : State) (n : SbdNorm) : State :=
  s.putSbd { s.sbd with norms := (s.sbd.norms.filter (fun m => m.step != n.step && !serialGt 48 n.step (m.step + 4))) ++ [n] }

/-- Bytes of a Sideboard for a Timir address (08 R243, R255): written here, or sent as WR transactions of
source kind 3 under an owner's number. -/
def State.sbdWriteFar (s : State) (m a : Nat) (data : List Byte) (id : Nat) : State :=
  if s.isHere m then s.memWrite 3 a data
  else (pieces a data.length).foldl (fun s q =>
    let d := (data.drop (q.1 - a)).take q.2
    (s.submit m 3 0 0 (.wr q.1 d (d.map (fun _ => true))) (.unit id)).1) s

/-- The number of the write that carries this module's sum to the collector. -/
def unitSum : Nat := 1

/-- The number of the write that carries a result line to a module. -/
def unitResult (m : Nat) : Nat := 0x10000 + m

/-- The number of a slot's export writes. -/
def unitExport (l : Nat) : Nat := 0x20000 + l

/-- The norm area's local address (08 R243). -/
def State.normArea (s : State) : Nat := s.fld A.sbdNormArea F.sbdNormArea.BASE * 64

/-- A write of the Sideboards to another module is complete (08 R243): the sum or the result line is followed
by its signal. -/
def State.unitDone (s : State) (id dest : Nat) : State :=
  if id = unitSum then s.unitSignal (dest * 2 ^ 16 + s.fld A.sbdNorm F.sbdNorm.CIDX) 1 sbdWho 0
  else if id = unitResult dest then s.unitSignal (dest * 2 ^ 16 + s.fld A.sbdNormArea F.sbdNormArea.RIDX) 1 sbdWho 0
  else s

/-- Whether transactions of a unit's number to a module are still under way. -/
def State.unitPending (s : State) (id : Nat) (p : Nat → Bool) : Bool :=
  s.tmr.outst.any (fun t => t.2.owner == .unit id && p t.2.dest) || s.tmr.waitq.any (fun t => t.owner == .unit id && p t.dest)

/-- The last of a unit's transactions to a module may be done. -/
def State.unitSettle (s : State) (id dest : Nat) : State := if s.unitPending id (· == dest) then s else s.unitDone id dest

/-- Sideboard 0's wait on a counter of this module, consuming `threshold` (08 R243, 11 R325): it is tested, or tested again 2 µs
after BUSY (R329). -/
def State.sbdAwait (s : State) (i threshold : Nat) (who : Who) (w : SbdWait) : State × SbdWait :=
  let due := match w with
    | .idle => true
    | .busy t => s.reached t 2
    | _ => false
  if due then
    let (s, a) := s.waitAt i threshold true 0 s.modnum who
    (s, match a with
      | .value _ => .done
      | .held => .held
      | _ => .busy s.pulse)
  else (s, w)

/-- The oldest step whose sum this module, the collector, has yet to collect. -/
def State.collectStep (s : State) : Option SbdNorm := s.sbd.norms.find? (fun n => n.sent.isSome && !n.collected)

/-- The collector's wait on `CIDX` (08 R243 step 3), where a step is to be collected. -/
def State.awaitSum (s : State) : State :=
  let g := s.fld A.sbdNorm F.sbdNorm.GCNT
  if g = 0 || !s.isHere (s.fld A.sbdNorm F.sbdNorm.COLL) || s.collectStep.isNone then s
  else
    let (s, w) := s.sbdAwait (s.fld A.sbdNorm F.sbdNorm.CIDX) g sumWho s.sbd.sumWait
    s.putSbd { s.sbd with sumWait := w }

/-- The wait of every module on `RIDX` (08 R243 step 5), where a result is to come. -/
def State.awaitResult (s : State) : State :=
  if s.fld A.sbdNorm F.sbdNorm.GCNT = 0 || !s.sbd.norms.any (fun n => n.sent.isSome && n.result.isNone) then s
  else
    let (s, w) := s.sbdAwait (s.fld A.sbdNormArea F.sbdNormArea.RIDX) 1 resultWho s.sbd.resultWait
    s.putSbd { s.sbd with resultWait := w }

/-- Sideboard 0 writes this module's sum into its collector slot and signals (08 R243 step 2); its waits begin. -/
def State.sendSum (s : State) (n : SbdNorm) : State :=
  let coll := s.fld A.sbdNorm F.sbdNorm.COLL
  let a := s.normArea + 64 + 128 * (2 * s.fld A.sbdNorm F.sbdNorm.RANK + n.step % 2)
  let s := s.putNorm { n with sent := some s.pulse }
  let s := s.sbdWriteFar coll a (leBytes 8 (n.step + n.mark.toNat * 2 ^ 48) ++ leBytes 96 n.sum) unitSum
  (s.unitSettle unitSum coll).awaitSum.awaitResult

/-- A slot's intake of a step is complete everywhere (08 R243 step 1): its sum and its mark enter the step's
global sum, which is sent once every slot with `RULE` 1 to 3 is in it (log 14). -/
def State.normAdd (s : State) (l step : Nat) (d : UDesc) (valid : Bool) : State :=
  if s.fld A.sbdNorm F.sbdNorm.GCNT = 0 || !valid || d.rule == 0 then s
  else
    let n := (s.normOf step).getD ⟨step, [], 0, false, none, false, false, none⟩
    if n.slots.contains l || n.sent.isSome then s
    else
      let (s, sum) := s.slotSum d
      let mark := (List.range 16).any (fun t => (s.sslot t l).nf) || Fmt.b32.odd (d.norm sum)
      let n := { n with slots := l :: n.slots, sum := n.sum + sum, mark := n.mark || mark }
      let s := s.putNorm n
      let (s, all) := (List.range s.sbdCount).foldl (fun (q : State × Bool) j =>
        if n.slots.contains j then q
        else
          let (s, b) := q.1.readDesc j
          (s, q.2 && !(udescOk b && (udesc b).rule != 0))) (s, true)
      if all then s.sendSum n else s

/-- The step record of a Sideboard for a step (08 R235): its words, where the ring lies in the module's own
Tallboys and the record is present. -/
def State.stepRec (s : State) (t step : Nat) : State × Option (List Byte) :=
  let a := s.fld (A.sbdSteprec t) F.sbdSteprec.ADDR * 64 + 64 * (step % 16)
  match locOf a with
  | .tby _ =>
    let (s, l, ok, _) := s.memRead 3 a 64
    (s, if ok && numAt l 0 6 == step then some l else none)
  | _ => (s, none)

/-- `GWAIT` shows whether a wait of the Sideboard has exceeded `GTMO` (08 R263). -/
def State.showWait (s : State) (t : Nat) : State :=
  let late := (s.unit t).polls.any (fun p => p.2.raised && !p.2.present) || (t == 0 && s.sbd.norms.any (fun n => n.raised && n.result.isNone))
  s.setFld (A.sbdStat t) F.sbdStat.GWAIT late.toNat

/-- A Sideboard reads the record of a step that it awaits (08 R235). -/
def State.poll (s : State) (t step : Nat) : State :=
  let q := FMap.getD (s.unit t).polls step ⟨s.pulse, s.pulse, false, false⟩
  if q.present then s
  else
    let (s, r) := s.stepRec t step
    (s.modUnit t (fun u => { u with polls := FMap.set u.polls step { q with readAt := s.pulse, present := r.isSome } })).showWait t

/-- Intake of a slot may have become complete at a Sideboard (08 R230, R231). When it is so at all of them, the
slot, unless it is never updated (R234), reaches step 1 of R241: the step record is looked for, and the slot's norm enters the
global sum. -/
def State.intakeCheck (s : State) (t l : Nat) : State :=
  let x := s.sslot t l
  let (_, c, _) := s.intake t
  match x.step with
  | none => s
  | some step =>
    if x.done || x.held || decide (x.ends.length < c) || !x.recs.isEmpty then s
    else
      let s := s.modSlot t l (fun x => { x with done := true, doneAt := s.pulse })
      let s := if s.intakeDone l step then
          let s := if udescOk x.desc && (udesc x.desc).rule != 0 then (List.range 16).foldl (fun s t => s.poll t step) s else s
          s.normAdd l step (udesc x.desc) (udescOk x.desc)
        else s
      s.showSbd

/-- In reproducible mode, whether a block is complete (08 R231 step 2). -/
def SbdSlot.blockDone (x : SbdSlot) (c b : Nat) : Bool :=
  (List.range c).all (fun r => x.ends.contains r || (match FMap.get? x.last r with
    | some m => decide (m ≥ b)
    | none => false))

/-- In reproducible mode, complete blocks are combined by the tree, added and their records freed, lowest
block first (08 R231). -/
def State.combine (s : State) (t l : Nat) : State :=
  let x := s.sslot t l
  let (_, c, q) := s.intake t
  let (s, held) := halves (x.recs.foldl (fun (a : State × List (Nat × Rec)) i =>
    let (s, r) := a.1.readRec t i
    (s, a.2 ++ [(i, r)])) (s, []))
  let blocks := ((held.map (·.2.blk)).eraseDups.filter (x.blockDone c)).mergeSort (fun a b => decide (a ≤ b))
  blocks.foldl (fun s b =>
    let d := udesc x.desc
    let mine := held.filter (fun p => p.2.blk == b)
    let (s, rows, nf) := thirds ((List.range c).foldl (fun (a : State × List (List Nat) × Bool) r =>
      match mine.find? (fun p => p.1 / q == r) with
      | some p =>
        let (s, v, nf) := a.1.recValues t p.1 d p.2
        (s, a.2.1 ++ [v], a.2.2 || nf)
      | none => (a.1, a.2.1 ++ [List.replicate 2048 0], a.2.2)) (s, [], false))
    let sums := (List.range 2048).map (fun i => (Fmt.b32.tree (rows.map (fun r => (r.getD i 0, Flags.none)))).1)
    let s := if nf then s.modSlot t l (fun y => { y with nf := true }) else s
    let s := match mine with
      | (_, r) :: _ => s.accumulate t d r (d.tidb + 4) (x.step.getD 0) sums
      | [] => s
    let s := s.modSlot t l (fun y => { y with recs := y.recs.filter (fun i => !mine.any (fun p => p.1 == i)) })
    mine.foldl (fun s p => s.freeSlot t p.1 p.2.credit) s) s

/-- A record of the slot's intake step is accepted (08 R229 to R231). -/
def State.acceptRec (s : State) (t x : Nat) (r : Rec) : State :=
  let sl := s.sslot t r.slot
  let (_, _, q) := s.intake t
  let src := x / q
  if r.kind = 1 then
    let s := s.modSlot t r.slot (fun y => { y with ends := y.ends ++ [src] })
    let s := s.freeSlot t x r.credit
    let s := if sl.repro then s.combine t r.slot else s
    s.intakeCheck t r.slot
  else if sl.repro then
    if (match FMap.get? sl.last src with
      | some b => decide (r.blk ≤ b)
      | none => false) then s.dropRec t x r 6
    else
      let s := s.modSlot t r.slot (fun y => { y with recs := y.recs ++ [x], last := FMap.set y.last src r.blk })
      (s.combine t r.slot).intakeCheck t r.slot
  else
    let d := udesc sl.desc
    let (s, v, nf) := s.recValues t x d r
    let s := if nf then s.modSlot t r.slot (fun y => { y with nf := true }) else s
    (s.accumulate t d r r.tid r.step v).freeSlot t x r.credit

/-- A slot's intake step is set (08 R228, R231, R232): `REPRO` and the descriptor are latched. -/
def State.setStep (s : State) (t l step : Nat) (desc : List Byte) : State :=
  s.modSlot t l (fun y => { y with
    step := some step
    repro := s.flag A.numMode F.numMode.REPRO
    desc := desc
    ends := []
    last := []
    done := false
    held := false
    nf := false })

/-- A taken record is checked and sorted by its step (08 R228). -/
def State.sortRec (s : State) (t x : Nat) : State :=
  let (s, r) := s.readRec t x
  if r.slot ≥ s.sbdCount then s.dropRec t x r 1
  else
    let sl := s.sslot t r.slot
    let (s, desc) := if sl.step.isSome && !sl.held then (s, sl.desc) else s.readDesc r.slot
    let d := udesc desc
    if !udescOk desc then s.dropRec t x r 2
    else if r.kind ≥ 2 || !(r.fmt == 1 || r.fmt == 3 || r.fmt == 4) then s.dropRec t x r 3
    else if r.kind == 0 && (decide (r.blk < d.first) || decide (r.blk ≥ d.first + d.nblk) || (r.blk - d.first) % 16 != t) then
      s.dropRec t x r 4
    else match sl.step with
      | none => (s.setStep t r.slot r.step desc).acceptRec t x r
      | some st =>
        if r.step = st then (if sl.done then s.dropRec t x r 5 else s.acceptRec t x r)
        else if serialGt 48 r.step st then
          if sl.held then (s.setStep t r.slot r.step desc).acceptRec t x r
          else s.modUnit t (fun u => { u with waiting := u.waiting.filter (· != x) ++ [x] })
        else s.dropRec t x r 5

/-- `SBD_RECORD_TAKE` (08 R226): a record whose 64 header bytes are written is taken while `EN` is set. -/
def execSbdRecordTake (t : Stack) (x : Fin 262144) (s : State) : Out :=
  let t := t.val
  let x := x.val
  let (_, c, q) := s.intake t
  let u := s.unit t
  let held := u.waiting.contains x || u.slots.any (fun p => p.2.recs.contains x)
  if s.rst.level == 0 && s.flag (A.sbdCtl t) F.sbdCtl.EN && decide (x < c * q) && FMap.getD u.hdr x 0 == 2 ^ 64 - 1 && !held then
    .next ((s.incWrap (A.sbdIntake t) F.sbdIntake.TAKEN 1).sortRec t x)
  else .next s

/-- `SBD_STEPREC_POLL` (08 R235): an absent step record is read again every 10 µs. -/
def execSbdSteprecPoll (t : Stack) (step : BitVec 48) (s : State) : Out :=
  .next (match FMap.get? (s.unit t.val).polls step.toNat with
    | some q => if !q.present && s.reached q.readAt 10 then s.poll t.val step.toNat else s
    | none => s)

/-- `GTMO` in µs (08 R263). -/
def State.gtmo (s : State) (t : Nat) : Nat := max 1 (s.fld (A.sbdCtl t) F.sbdCtl.GTMO) * 1000

/-- Event 0x25 (08 R265). -/
def State.waitLate (s : State) (t step what : Nat) : State :=
  (s.sbdEvent 0x25 t (leBytes 6 step ++ [BitVec.ofNat 8 what] ++ leBytes 8 0 ++ [BitVec.ofNat 8 t])).showWait t

/-- `SBD_WAIT_TIMEOUT` (08 R235, R243): a wait for a step record, or of Sideboard 0 for a global result,
exceeds `GTMO`; the event is raised once and the wait goes on. -/
def execSbdWaitTimeout (t : Stack) (global : Bool) (step : BitVec 48) (s : State) : Out :=
  let t := t.val
  let step := step.toNat
  if global then
    match s.normOf step with
    | some n => match n.sent with
      | some at' =>
        if t = 0 ∧ n.result.isNone ∧ !n.raised ∧ s.reached at' (s.gtmo 0) then
          .next ((s.putNorm { n with raised := true }).waitLate 0 step 2)
        else .next s
      | none => .next s
    | none => .next s
  else match FMap.get? (s.unit t).polls step with
    | some q =>
      if !q.present && !q.raised && s.reached q.since (s.gtmo t) then
        .next ((s.modUnit t (fun u => { u with polls := FMap.set u.polls step { q with raised := true } })).waitLate t step 1)
      else .next s
    | none => .next s

/-- The result line is written into a module and signalled (08 R243 step 4). -/
def State.sendResult (s : State) (m : Nat) (line : List Byte) : State :=
  (s.sbdWriteFar m s.normArea line (unitResult m)).unitSettle (unitResult m) m

/-- `SBD_NORM_COLLECT` (08 R243 steps 3 and 4): at the collector, the wait on `CIDX` for `GCNT` completes; the
slots of the step's parity are added, n_G is formed and the result goes to every owner module (log 15). -/
def execSbdNormCollect (s : State) : Out :=
  let g := s.fld A.sbdNorm F.sbdNorm.GCNT
  let s := s.awaitSum
  match s.collectStep with
  | none => .next s
  | some n =>
    if s.sbd.sumWait != .done then .next s
    else
      let s := s.putSbd { s.sbd with sumWait := .idle }
      let (s, sum, mark) := (List.range g).foldl (fun (q : State × Nat × Bool) r =>
        let (s, l, _) := q.1.memRead 3 (s.normArea + 64 + 128 * (2 * r + n.step % 2)) 104
        (s, q.2.1 + numAt l 8 96, q.2.2 || bit (numAt l 0 8) 48)) (s, 0, false)
      let ng := sqrtExact sum
      let mark := mark || Fmt.b32.odd ng
      let s := s.putNorm { n with collected := true }
      let line := leBytes 8 (n.step + mark.toNat * 2 ^ 48) ++ leBytes 8 ng
      .next ((List.range g).foldl (fun s r =>
        s.sendResult (if r = s.fld A.sbdNorm F.sbdNorm.RANK then s.modnum else Config.ownerModule r % 2 ^ 14) line) s).awaitSum

/-- `SBD_NORM_RESULT` (08 R243 step 5): the wait on `RIDX` completes and the result line is read. -/
def execSbdNormResult (s : State) : Out :=
  let s := s.awaitResult
  if s.sbd.resultWait != .done then .next s
  else
    let s := s.putSbd { s.sbd with resultWait := .idle }
    let (s, l, _) := s.memRead 3 s.normArea 16
    let step := numAt l 0 6
    match s.normOf step with
    | some n => .next ((s.putNorm { n with result := some (numAt l 8 4, bit (numAt l 0 8) 48) }).showWait 0).awaitResult
    | none => .next s.awaitResult

/-- The live Sideboard that does the work of a faulty one (16 R453). -/
def State.standIn (s : State) (t : Nat) : Option Nat :=
  let ok (n : Nat) : Bool := !s.flag (A.sbdRas n) F.sbdRas.FAULT
  if ok (t ^^^ 1) then some (t ^^^ 1) else firstNat 16 ok

/-- `SBD_CHECK_FAIL` (08 R264, 16 R453): a chunk or lane group fails its check and is repeated; `again` says
that it is the one that failed last. Four attempts in a row, or more than 64 repeats within a second, make the
Sideboard faulty, and another takes its work over. -/
def execSbdCheckFail (t : Stack) (again : Bool) (s : State) : Out :=
  let t := t.val
  if s.flag (A.sbdRas t) F.sbdRas.FAULT || s.rst.level != 0 then .next s
  else
    let s := (s.hwSet (A.sbdRas t) F.sbdRas.CHECK).incSat (A.sbdRas t) F.sbdRas.RETRIES 1
    let u := s.unit t
    let tries := if again then u.tries + 1 else 1
    let rep := (s.pulse :: u.repeats).filter (fun x => !s.reached x 1000000)
    let s := s.modUnit t (fun u => { u with tries := tries, repeats := rep })
    if tries ≥ 4 || rep.length > 64 then
      let s := s.setFld (A.sbdRas t) F.sbdRas.FAULT 1
      let s := s.raise 0xA6 (evSource 2 t) [BitVec.ofNat 8 t, BitVec.ofNat 8 ((s.standIn t).getD t)]
      .next s.health
    else .next s

end Sys2Proof.Machine
end

