-- ==== Sys2Proof/Machine/Layers.lean ====
section
/-!
DEFINITION. The layer flag word at its home (06 R184 to R193, R196): arming, arrivals, closing, outcomes.
-/
namespace Sys2Proof.Machine

/-- Fields of CTRL (06 R184). -/
def lwArmed : Fld := ⟨31, 31⟩
def lwDisagree : Fld := ⟨30, 30⟩
def lwAbort : Fld := ⟨29, 29⟩
def lwTrap : Fld := ⟨28, 28⟩
def lwFlags : Fld := ⟨27, 24⟩
def lwRung : Fld := ⟨23, 22⟩
def lwLad : Fld := ⟨21, 21⟩
def lwAttempt : Fld := ⟨15, 8⟩

/-- Fields of COUNT (06 R184). -/
def lwExpect : Fld := ⟨31, 16⟩
def lwArrived : Fld := ⟨15, 0⟩

/-- Fields of TAG (06 R184). -/
def lwLast : Fld := ⟨28, 26⟩
def lwClean : Fld := ⟨25, 18⟩
def lwBase : Fld := ⟨17, 16⟩
def lwLtag : Fld := ⟨15, 0⟩

/-- A field of an entry of a layer flag word: entry 0 CTRL, 1 COUNT, 2 TAG, 3 GEN. -/
def State.lw (s : State) (w e : Nat) (f : Fld) : Nat := bits (s.counter (w + e)) f.hi f.lo

/-- The state with a field of an entry of a layer flag word replaced. -/
def State.setLw (s : State) (w e : Nat) (f : Fld) (x : Nat) : State :=
  s.setCounter (w + e) (setBits (s.counter (w + e)) f.hi f.lo x)

/-- GEN of a word. -/
def State.lwGen (s : State) (w : Nat) : Nat := s.counter (w + 3)

/-- Waiters of a word's entries are examined after a change (11 R326). -/
def State.lwExamine (s : State) (w : Nat) : State := [0, 1, 2, 3].foldl (fun s e => s.examine (w + e)) s

/-- An open request at the word (06 R187): it arms the word or joins the attempt; the answer carries
`ATTEMPT`. -/
def State.openAt (s : State) (w ltag rung lad : Nat) : State × Nat :=
  if !s.armed w then
    let attempt := (s.lw w 0 lwAttempt + 1) % 256
    let ctrl := setBits (setBits (setBits (setBits 0 31 31 1) 23 22 rung) 21 21 lad) 15 8 attempt
    let s := s.setCounter w ctrl
    let s := s.setCounter (w + 1) 0
    let s :=
      if s.lw w 2 lwLtag = ltag % 65536 then s
      else
        let s := s.setLw w 2 lwLtag ltag
        let s := s.setLw w 2 lwBase rung
        let s := s.setLw w 2 lwClean 0
        s.setLw w 2 lwLast 0
    let s := s.putSync { s.sync with abortAt := FMap.del s.sync.abortAt w, armedWords := w :: s.sync.armedWords }
    (s.lwExamine w, attempt)
  else
    let differs := s.lw w 2 lwLtag != ltag % 65536 || s.lw w 0 lwRung != rung % 4 || s.lw w 0 lwLad != lad % 2
    let s := if differs then (s.setLw w 0 lwDisagree 1).lwExamine w else s
    (s, s.lw w 0 lwAttempt)

/-- The outcome word (06 R193). -/
def outcomeWord (out flags rung next ltag gen : Nat) : Word :=
  BitVec.ofNat 64 (out % 8 + (flags % 16) * 16 + (rung % 4) * 256 + (next % 4) * 1024 + (ltag % 65536) * 65536 +
    (gen % 2 ^ 32) * 2 ^ 32)

/-- Every `LCOMMIT` that waits at a word receives an outcome (06 R190): within this module directly, in
another by a SYNC transaction of the home. -/
def State.giveOutcome (s : State) (w : Nat) (o : Word) : State :=
  let l := s.sync.lwait.filter (fun x => x.word == w)
  let s := s.putSync { s.sync with lwait := s.sync.lwait.filter (fun x => x.word != w) }
  l.foldl (fun s x =>
    if x.home == s.modnum then s.putSync { s.sync with answers := s.sync.answers ++ [(w, x.who, .outcome o)] }
    else
      let (s, failed) := s.submit x.home 5 0 0 (.sync w x.who (.outcome o)) (.sync 0)
      if failed then s.syncEvent 0x51 0 (0x3FFF0000 + w) x.who 1 7 else s) s

/-- The escalation log entry of a closing, words 1 to 3 (06 R196). -/
def State.elogBody (s : State) (w out next : Nat) (descent : Bool) : List Byte :=
  let c := s.counter w
  let w1 := s.gtSec + (s.lw w 2 lwLtag) * 2 ^ 48
  let w2 := s.gtNs + (w % 65536) * 2 ^ 32 + (s.lw w 0 lwAttempt) * 2 ^ 48 + (out % 8) * 2 ^ 56 +
    (s.lw w 0 lwRung) * 2 ^ 59 + (next % 4) * 2 ^ 61 + (s.lw w 0 lwLad) * 2 ^ 63
  let w3 := s.lw w 1 lwExpect + (s.lw w 1 lwArrived) * 65536 + (s.lw w 0 lwFlags) * 2 ^ 32 +
    (bits c 30 30) * 2 ^ 36 + (bits c 29 29) * 2 ^ 37 + (bits c 28 28) * 2 ^ 38 + descent.toNat * 2 ^ 39
  leBytes 8 w1 ++ leBytes 8 w2 ++ leBytes 8 w3

/-- A closing is logged and reported (06 R196). -/
def State.elogClose (s : State) (w out next : Nat) (descent : Bool) : State :=
  let body := s.elogBody w out next descent
  let bad := out = 2 || out = 3 || out = 4 || out = 5
  let s := if bad then s.raise (0x10 + out - 2) (evSource 4 0) (body.drop 8) else s
  if out ≠ 0 || (s.lw w 0 lwFlags).testBit 0 || descent then s.logEntry elog 5 body (some 0x14) (evSource 4 0) else s

/-- The decision of a closing, other than a timeout (06 R190). -/
def State.verdict (s : State) (w : Nat) : Nat :=
  let top := if s.lw w 0 lwLad = 0 then 3 else 2
  if s.lw w 0 lwAbort = 1 then 3
  else if s.lw w 0 lwDisagree = 1 then 4
  else if (s.lw w 0 lwFlags).testBit 3 then (if s.lw w 0 lwRung = top then 2 else 1)
  else 0

/-- A publication counts in GEN; where GEN wraps to 0, OVF of its entry is set, with event 0x53 (06 R190; 18 R493). The
event names the home as issuer, for no one operation of a context wraps GEN (log 25). -/
def State.publish (s : State) (w : Nat) : State :=
  let gen := (s.lwGen w + 1) % 2 ^ 32
  let s := s.setCounter (w + 3) gen
  if gen = 0 then s.stick (w + 3) s.modnum ⟨0, 0, 0, 0⟩ false else s

/-- The attempt closes with an outcome (06 R190, R192): GEN is written before any outcome returns. -/
def State.closeWord (s : State) (w out : Nat) : State :=
  let mode := s.fld A.numLadder F.numLadder.MODE
  let nl := max 1 (s.fld A.numLadder F.numLadder.N)
  let rung := s.lw w 0 lwRung
  let base := s.lw w 2 lwBase
  let clean := if out = 0 then min 255 (s.lw w 2 lwClean + 1) else 0
  let descent := out == 0 && mode == 2 && decide (clean ≥ nl) && decide (rung > base)
  let next := if out = 1 then rung + 1
    else if out = 0 && (mode == 0 || descent) then base
    else rung
  let s := if out = 0 then s.publish w else s
  let s := s.setLw w 2 lwClean (if descent then 0 else clean)
  let s := s.setLw w 2 lwLast out
  let s := s.setLw w 0 lwArmed 0
  let o := outcomeWord out (s.lw w 0 lwFlags) rung next (s.lw w 2 lwLtag) (s.lwGen w)
  let s := s.elogClose w out next descent
  let s := s.putSync { s.sync with
    abortAt := FMap.del s.sync.abortAt w, armedWords := s.sync.armedWords.filter (fun x => x != w) }
  (s.giveOutcome w o).lwExamine w

/-- The attempt closes once `EXPECT` is known and all have arrived (06 R189). -/
def State.closeIfFull (s : State) (w : Nat) : State :=
  if s.lw w 1 lwExpect != 0 && decide (s.lw w 1 lwArrived ≥ s.lw w 1 lwExpect) then s.closeWord w (s.verdict w)
  else s.lwExamine w

/-- Whether an arrival belongs to the open attempt (06 R189). -/
def State.matches (s : State) (w attempt : Nat) : Bool :=
  s.armed w && s.lw w 0 lwAttempt == attempt % 256

/-- An arrival sent by `LCOMMIT`, at the word (06 R189): counted, and held until the attempt closes; any
other receives STALE, whose GEN is the word's (R193). The participant completes the other fields. -/
def State.arrivalAt (s : State) (w m : Nat) (who : Who) (flags n attempt tmo : Nat) : State × SyncAns :=
  if !s.matches w attempt then (s, .outcome (outcomeWord 6 0 0 0 0 (s.lwGen w)))
  else
    let s := s.setLw w 0 lwFlags (s.lw w 0 lwFlags ||| flags % 16)
    let s := s.setLw w 1 lwArrived (s.lw w 1 lwArrived + 1)
    let s :=
      if s.lw w 1 lwExpect = 0 then s.setLw w 1 lwExpect n
      else if s.lw w 1 lwExpect = n % 65536 then s
      else s.setLw w 0 lwDisagree 1
    let s := s.putSync { s.sync with lwait := s.sync.lwait ++ [⟨w, m, who, s.pulse + tmo * usPulses⟩] }
    (s.closeIfFull w, .held)

/-- An abort arrival at the word (06 R189, R191). -/
def State.abortAt (s : State) (w flags attempt : Nat) (trap : Bool) : State :=
  if !s.matches w attempt then s
  else
    let s := s.setLw w 0 lwFlags (s.lw w 0 lwFlags ||| flags % 16)
    let s := s.setLw w 1 lwArrived (s.lw w 1 lwArrived + 1)
    let s := s.setLw w 0 lwAbort 1
    let s := if trap then s.setLw w 0 lwTrap 1 else s
    let s := if FMap.has s.sync.abortAt w then s
      else s.putSync { s.sync with abortAt := FMap.set s.sync.abortAt w s.pulse }
    s.closeIfFull w

/-- The default timeout in µs (11 R331, R342). -/
def State.syncDefault (s : State) : Nat := max 1 (s.fld A.syncTmo F.syncTmo.DEFAULT)

end Sys2Proof.Machine
end

