-- ==== Sys2Proof/Machine/DeskUnit.lean ====
section
/-!
DEFINITION. The Desks: registers, sets and slots, passes, drains, merges, checking and replay (03 R64 to R102,
04 R126 to R130), and the operations of a Desk that the commands call.
-/
namespace Sys2Proof.Machine

/-! ### Registers of a Desk (03 R75, R95 to R98) -/

/-- The set height M (03 R95). -/
def State.deskM (s : State) (b d : Nat) : Nat := 32 * 2 ^ s.fld (A.deskCfg b d) F.deskCfg.M

/-- The Drawer format of a code of `DESK_CFG.DFMT` (03 R95). -/
def drawerFmt (c : Nat) : Fmt :=
  match c with
  | 1 => .gf48 | 2 => .int32 | _ => .b32

/-- The Drawer format of a Desk. -/
def State.deskFmt (s : State) (b d : Nat) : Fmt := drawerFmt (s.fld (A.deskCfg b d) F.deskCfg.DFMT)

/-- How many sets a height and a format leave (03 R75): the Drawer file holds 192 KiB. -/
def setsFor (m : Nat) (f : Fmt) : Nat := 196608 / (m * 96 * (if f = .gf48 then 6 else 4))

/-- `DESK_STAT.MAX_SETS`. -/
def State.maxSets (s : State) (b d : Nat) : Nat := s.fld (A.deskStat b d) F.deskStat.MAX_SETS

/-- Whether a set is OPEN or DRAINING (03 R76, R96). -/
def State.setUsed (s : State) (b d set : Nat) : Bool := s.fldBit (A.deskStat b d) F.deskStat.SET_OPEN set

/-- Whether a set is DRAINING (03 R77). -/
def State.setDraining (s : State) (b d set : Nat) : Bool := (s.desk b d).draining.contains set

/-- A 2-bit code of a field. -/
def State.code2 (s : State) (a : Nat) (f : Fld) (i : Nat) : Nat := bits (s.fld a f) (2 * i + 1) (2 * i)

/-- The state with a 2-bit code of a field replaced. -/
def State.setCode2 (s : State) (a : Nat) (f : Fld) (i x : Nat) : State :=
  s.setFld a f (setBits (s.fld a f) (2 * i + 1) (2 * i) x)

/-- The owner of a set: 0 none, 1 F, 2 B, 3 DWL (03 R97). -/
def State.setOwner (s : State) (b d set : Nat) : Nat := s.code2 (A.deskOwn b d) F.deskOwn.SET set

/-- The owner of a slot (03 R97). -/
def State.slotOwner (s : State) (b d sl : Nat) : Nat := s.code2 (A.deskOwn b d) F.deskOwn.SLOT sl

/-- The key of a Drawer row. -/
def rowKey (set row : Nat) : Nat := 256 * set + row

/-- A set takes an owner and its modes (03 R76, R78): owner, reproducible mode and chunk length recorded,
all started bits clear. -/
def State.openSet (s : State) (b d set : Nat) (c : Ctx) : State :=
  if s.setUsed b d set then s
  else
    let s := s.setBit (A.deskStat b d) F.deskStat.SET_OPEN set true
    let s := s.setCode2 (A.deskOwn b d) F.deskOwn.SET set c.code
    let s := s.setCode2 (A.deskLatch b d) F.deskLatch.CHUNK set (s.fld (A.deskCfg b d) F.deskCfg.CHUNK)
    let s := s.setBit (A.deskLatch b d) F.deskLatch.REPRO set (s.flag A.numMode F.numMode.REPRO)
    s.modDesk b d (fun x => { x with tot := x.tot.filter (fun p => p.1 / 256 != set) })

/-- A set becomes FREE (03 R76): contents, started bits, poison, owner and latched modes are discarded. -/
def State.freeSet (s : State) (b d set : Nat) : State :=
  let s := s.setBit (A.deskStat b d) F.deskStat.SET_OPEN set false
  let s := s.setBit (A.deskStat b d) F.deskStat.SET_POISON set false
  let s := s.setCode2 (A.deskOwn b d) F.deskOwn.SET set 0
  let s := s.setCode2 (A.deskLatch b d) F.deskLatch.CHUNK set 0
  let s := s.setBit (A.deskLatch b d) F.deskLatch.REPRO set false
  s.modDesk b d (fun x => { x with
    tot := x.tot.filter (fun p => p.1 / 256 != set)
    draining := x.draining.filter (· != set)
    badRows := x.badRows.filter (fun k => k / 256 != set) })

/-- The chunk length of a set (03 R78, R95; 02 R58): 128 in reproducible mode, else the latched code's. -/
def State.chunkLen (s : State) (b d set : Nat) : Nat :=
  if s.fldBit (A.deskLatch b d) F.deskLatch.REPRO set then 128
  else match s.code2 (A.deskLatch b d) F.deskLatch.CHUNK set with
    | 1 => 64 | 2 => 32 | _ => 128

/-! ### Service (03 R92; 04 R120; 11 R339; 16 R449, R451, R452) -/

/-- Whether a Desk is in service: sound, or hosted. -/
def State.inService (s : State) (b d : Nat) : Bool :=
  !s.flag (A.deskStat b d) F.deskStat.FAULT || (s.desk b d).host.isSome

/-- Whether a Desk can start and carry out work: its Bench is neither failed nor being copied, its power is
not lent, and it is in service. -/
def State.deskWorks (s : State) (b d : Nat) : Bool :=
  let x := s.bench b
  !x.failed && !x.copying && !x.lend.lending && x.lend.ungateAt.isNone && s.inService b d

/-- `DESK_STAT.PASS_BUSY` and `DRAIN_BUSY` show the passes and drains under way; a Desk that came to rest
starts the time before lending (11 R338). -/
def State.showBusy (s : State) (b d : Nat) : State :=
  let x := s.desk b d
  let s := s.setFld (A.deskStat b d) F.deskStat.PASS_BUSY (!x.passes.isEmpty).toNat
  (s.setFld (A.deskStat b d) F.deskStat.DRAIN_BUSY (!x.drains.isEmpty).toNat).rest b

/-- Whether a Desk is idle (04 R120). -/
def State.deskIdle (s : State) (b d : Nat) : Bool :=
  let a := A.deskStat b d
  (s.desk b d).queue.isEmpty && !s.flag a F.deskStat.PASS_BUSY && !s.flag a F.deskStat.DRAIN_BUSY &&
    s.fld a F.deskStat.SLOT_LOADING == 0 && s.inService b d

/-! ### Queues (04 R126) -/

/-- The Desks of a mask. -/
def maskDesks (m : Nat) : List Nat := (List.range 4).filter (fun d => m.testBit d)

/-- The Desks that an entry at the head of a queue involves (03 R86). -/
def DeskEnt.desks (e : DeskEnt) (d : Nat) : List Nat :=
  match e.op with
  | .pass m .. => maskDesks m
  | _ => [d]

/-- An entry leaves the queues in which it stands first. -/
def State.popEnt (s : State) (b : Nat) (ds : List Nat) (e : DeskEnt) : State :=
  ds.foldl (fun s d =>
    if (s.desk b d).queue.head? == some e then s.modDesk b d (fun x => { x with queue := x.queue.tail }) else s) s

/-- An entry found illegal at the head of its queue (04 R108): it is removed and reads and writes nothing;
its context stops at its next instruction boundary. -/
def State.headFault (s : State) (b : Nat) (ds : List Nat) (e : DeskEnt) (cause : Nat) : State :=
  ((s.popEnt b ds e).stop b e.ctx cause (some e.pc)).rest b

/-! ### Arithmetic (02 R55 to R57; 03 R65, R66) -/

/-- The chunk-sum format of an operand pair (02 R55, 03 R70); none for a pair that is not permitted. -/
def chunkFmt (a b : Fmt) : Option Fmt :=
  if a = .int8 ∧ b = .int8 then some .int32
  else if a = .int8 ∨ b = .int8 then none
  else if a = .b32 ∨ b = .b32 then some .b32
  else some .gf24c

/-- Whether an operand pair adds into a Drawer format (03 R70). -/
def pairOk (a b dr : Fmt) : Bool :=
  match chunkFmt a b with
  | none => false
  | some .int32 => dr = .int32
  | some _ => dr ≠ .int32

/-- A result with what its operands carried: flags are sticky, the first trap event is kept. -/
def LaneRes.after (r : LaneRes) (x y : LaneRes) : LaneRes :=
  ⟨r.bits, (x.fl.or y.fl).or r.fl, x.trap.or (y.trap.or r.trap)⟩

/-- One product, rounded to the chunk-sum format (02 R55). -/
def deskProduct (cf fa fb : Fmt) (a b : Nat) : LaneRes :=
  let x := fa.decode a
  let y := fb.decode b
  arithLane [x, y] (cf.narrow (x.mul y))

/-- One addition of a chunk tree (02 R56). -/
def deskAdd (cf : Fmt) (x y : LaneRes) : LaneRes :=
  let p := cf.decode x.bits
  let q := cf.decode y.bits
  (arithLane [p, q] (cf.narrow (p.add q))).after x y

/-- A chunk sum (02 R56). -/
def deskChunk (cf : Fmt) (l : List LaneRes) : LaneRes :=
  (treeSum (deskAdd cf) 8 l).headD ⟨0, .none, none⟩

/-- Promotion of a chunk sum, or of a raw image, into a Drawer total (02 R57, 03 R66): the first sets it. -/
def promote (df cf : Fmt) (tot : Option Nat) (x : LaneRes) : LaneRes :=
  let q := cf.decode x.bits
  match tot with
  | none => let (v, g) := df.convert .rne q; ⟨v, x.fl.or g, x.trap⟩
  | some t =>
    let p := df.decode t
    (arithLane [p, q] (df.narrow (p.add q))).after x ⟨0, .none, none⟩

/-- The Drawer total of one column after a row of A has been multiplied by the column of B (02 R55 to R57;
03 R65): the chunks that hold an element below K_p, in ascending order, are formed and promoted. -/
def deskColumn (df fa fb : Fmt) (len : Nat) (tot : Option Nat) (as bs : List Nat) : LaneRes :=
  let cf := (chunkFmt fa fb).getD .gf24c
  let prods := (as.zip bs).map (fun p => deskProduct cf fa fb p.1 p.2)
  let zero : LaneRes := ⟨0, .none, none⟩
  (chunks len 4 prods).foldl (fun (acc : LaneRes) ch =>
    let r := promote df cf (if acc.bits = 2 ^ 64 then none else some acc.bits)
      (deskChunk cf (ch ++ List.replicate (len - ch.length) zero))
    r.after acc ⟨0, .none, none⟩) ⟨tot.getD (2 ^ 64), .none, none⟩

/-- Element (k, c) of a B block (03 R72). -/
def Slot.elem (x : Slot) (k c : Nat) : Nat := (FMap.getD x.rows k []).getD c 0

/-- Column `c` of a B block, elements 0 to n - 1. -/
def Slot.column (x : Slot) (c n : Nat) : List Nat := (List.range n).map (fun k => x.elem k c)

/-- Elements of one row of a tile in a Shelf. -/
def State.tileRow (s : State) (b : Nat) (t : Tile) (r n : Nat) : List Nat :=
  (List.range n).map (fun c => s.shelfNum b (t.elem r c) t.width)

/-- The lowest element of a row of a tile that lies in a poisoned line (06 R181). -/
def State.rowPoison (s : State) (b : Nat) (t : Tile) (r n : Nat) : Option Nat :=
  (List.range n).find? (fun c => (s.poisoned b (t.elem r c) t.width).isSome)

/-! ### Errors of the Drawer file and checks (03 R88 to R92, R102) -/

/-- A Drawer row is read (03 R89, R102): an injected or a real single-bit error is corrected and counted; a
double-bit error poisons the set and is reported. -/
def State.drawerRead (s : State) (b d set row : Nat) (u : Upset) : State :=
  let a := A.deskRas b d
  let bad := (s.desk b d).badRows.contains (rowKey set row)
  let s := if bad then s.modDesk b d (fun x => { x with badRows := x.badRows.filter (· != rowKey set row) }) else s
  let n := (if bad then 1 else 0) + (if u = .single then 1 else 0)
  let s := if n = 0 then s else (s.incSat a F.deskRas.DRAWER_CE n).setFld a F.deskRas.LAST_SET set
  if u = .double then
    let s := s.hwSet a F.deskRas.DRAWER_UE
    let s := s.setFld a F.deskRas.LAST_SET set
    let s := s.setBit (A.deskStat b d) F.deskStat.SET_POISON set true
    s.raise 0x83 (evSource 1 b) (leBytes 8 0 ++ leBytes 2 b ++ [BitVec.ofNat 8 d, 1, BitVec.ofNat 8 set])
  else s

/-- A Drawer row is written: a pending injection flips one bit of it (03 R102). -/
def State.drawerWrite (s : State) (b d set row : Nat) (v : List Nat) : State :=
  s.modDesk b d (fun x => { x with
    tot := FMap.set x.tot (rowKey set row) v
    badRows := if x.inj.ce then rowKey set row :: x.badRows else x.badRows
    inj := { x.inj with ce := false } })

/-- A replay is counted and the mismatch recorded (03 R90, R101). -/
def State.replay (s : State) (b d set : Nat) (parity residue : Bool) : State :=
  let a := A.deskRas b d
  let s := s.incSat a F.deskRas.REPLAYS 1
  let s := if parity then s.hwSet a F.deskRas.PARITY else s
  let s := if residue then s.hwSet a F.deskRas.RESIDUE else s
  s.setFld a F.deskRas.LAST_SET set

/-- The check of a row in hand: a pending injection makes one attempt fail, which replays and gives the same
result (03 R91, R102). -/
def State.checkRow (s : State) (b d set : Nat) : State :=
  let j := (s.desk b d).inj
  if j.parity || j.residue then
    (s.replay b d set j.parity j.residue).modDesk b d (fun x => { x with inj := { x.inj with parity := false, residue := false } })
  else s

/-- What befell a row that is read, of those that a command names (03 R89). -/
def upsetOf (us : List (Nat × Upset)) (i : Nat) : Upset :=
  match us.find? (fun p => p.1 == i) with
  | some p => p.2
  | none => .none

/-- The present window of 800,000 cycles, counted from core reset: a new one begins without replays (03 R92). -/
def State.winRoll (s : State) (b d : Nat) : State :=
  let w := s.benchCyc b / 800000 * 800000
  if (s.desk b d).winStart = w then s else s.modDesk b d (fun x => { x with winReplays := 0, winStart := w })

/-- The trap event of a poisoned line that a row of results read, if it read one (06 R179, R181). -/
def psnEv (unit row set : Nat) (idx : Nat → Option Nat) (psn : Option Nat) : List TrapEv :=
  match psn with
  | some k => [⟨3, unit, row, k, set, idx k⟩]
  | none => []

/-- How many rows stand behind a failed row in the pipeline, itself counted (03 R67, R68, R90). -/
def inFlight (slow : Bool) : Nat := if slow then 2 else 6

/-- Whether a pass runs at the binary32 rate (03 R68, R86): some Desk of its mask pairs with binary32. -/
def State.slowPass (s : State) (b : Nat) (e : DeskEnt) (d : Nat) : Bool :=
  match e.op with
  | .pass _ sl .. => (tileOf e.desc).fmt == 4 || (e.desks d).any (fun q =>
      match FMap.get? (s.desk b q).slots sl with
      | some x => x.fmt == 4
      | none => false)
  | _ => false

/-! ### Loads (03 R72 to R74, R127) -/

/-- Whether a slot is busy with passes: while slot 0 holds a binary32 block, the two slots are one
(03 R73, R74). -/
def Desk.slotBusy (x : Desk) (sl : Nat) : Bool :=
  x.passes.any (fun p => match p.ent.op with
    | .pass _ q .. => q == sl || x.wide
    | _ => false)

/-- The Shelf bytes of a tile, row by row, touch a pending line (05 R167). -/
def State.tilePending (s : State) (b : Nat) (t : Tile) (rows cols : Nat) : Bool :=
  (List.range rows).any (fun r => s.pendingAt b (t.elem r 0) (cols * t.width))

/-- The load at the head of a Desk's queue starts if nothing holds it back (03 R73, R74). -/
def State.loadStart (s : State) (b d : Nat) : State :=
  let x := s.desk b d
  match x.queue with
  | [] => s
  | e :: _ =>
    match e.op with
    | .load sl =>
      let wide := (tileOf e.desc).fmt == 4
      if !s.deskWorks b d then s
      else if wide && sl == 1 then s.headFault b [d] e 0x22
      else if x.load.isSome || x.slotBusy sl || (wide && x.slotBusy 1) then s
      else
        let both := wide || x.wide
        let s := s.popEnt b [d] e
        let s := s.modDesk b d (fun y => { y with
          load := some (sl, e)
          slots := if both then [] else FMap.del y.slots sl
          wide := wide })
        let a := A.deskStat b d
        let s := s.setFld a F.deskStat.SLOT_VALID (if both then 0 else setBits (s.fld a F.deskStat.SLOT_VALID) sl sl 0)
        let s := s.setFld a F.deskStat.SLOT_LOADING (if wide then 3 else 2 ^ sl)
        let s := s.setCode2 (A.deskOwn b d) F.deskOwn.SLOT sl e.ctx.code
        if wide then s.setCode2 (A.deskOwn b d) F.deskOwn.SLOT 1 e.ctx.code else s
    | _ => s

/-- The load under way completes (03 R72): the block is in its slot, and a poisoned line that was read sets I
of the Desk and makes a trap event (05 R159, 06 R179, R181). DESIGN CHOICE (log 24): its rows are read at this instant,
for the spec gives the length of a load and no cycle in which a row is read. -/
def State.loadDone (s : State) (b d : Nat) : State :=
  match (s.desk b d).load with
  | none => s
  | some (sl, e) =>
    let t := tileOf e.desc
    if !s.deskWorks b d || s.tilePending b t t.rows t.cols then s
    else
      let rows := (List.range t.rows).map (fun k => (k, s.tileRow b t k t.cols))
      let bad := (List.range t.rows).findSome? (fun k => (s.rowPoison b t k t.cols).map (fun c => (k, c)))
      let s := match bad with
        | some (k, c) =>
          let (s', _) := s.trap b e.ctx (s.suppressed b e.ctx) [⟨3, d, k, c, 0, none⟩] e.pc 0x80
          s'.raiseFlags b e.ctx d .invalid e.lgen
        | none => s
      let s := s.modDesk b d (fun x => { x with load := none, slots := FMap.set x.slots sl ⟨t.fmt, rows⟩ })
      let a := A.deskStat b d
      let s := s.setFld a F.deskStat.SLOT_LOADING 0
      (s.setBit a F.deskStat.SLOT_VALID sl true).rest b

/-! ### Passes (03 R64 to R71, R86; 04 R128) -/

/-- The format code of the block that a slot holds or is loading, if either (03 R73). -/
def Desk.slotFmt (x : Desk) (sl : Nat) : Option Nat :=
  match FMap.get? x.slots sl with
  | some y => some y.fmt
  | none => match x.load with
    | some (k, e) => if k == sl then some (tileOf e.desc).fmt else none
    | none => none

/-- What makes a pass illegal on one Desk of its mask, in the order of the checks (04 R108; 03 R71, R73, R79):
the slot's contents before ownership. -/
def State.passCause (s : State) (b d : Nat) (e : DeskEnt) (sl set j n : Nat) : Option Nat :=
  let x := s.desk b d
  match x.slotFmt sl with
  | none => some 0x22
  | some bf =>
    if sl == 1 && x.wide then some 0x22
    else if set ≥ s.maxSets b d || j + n > s.deskM b d then some 0x22
    else if s.setUsed b d set && s.setOwner b d set != e.ctx.code then some 0x21
    else if s.slotOwner b d sl != e.ctx.code then some 0x21
    else if !pairOk (tileOf e.desc).format ((Fmt.ofCode bf).getD .gf8a) (s.deskFmt b d) then some 0x22
    else none

/-- How many rows of the passes under way have yet to commit. -/
def Desk.uncommitted (x : Desk) : Nat :=
  (x.passes.map (fun p => match p.ent.op with
    | .pass _ _ _ _ n _ => n - p.next
    | _ => 0)).foldl (· + ·) 0

/-- The pass at the head of a Desk's queue starts (03 R69, R73, R74, R77, R86): it stands first on every Desk
of its mask, each of which is checked, its slots are loaded, its sets are not DRAINING, and the previous
pass has read its last row. -/
def State.passStart (s : State) (b d : Nat) : State :=
  match (s.desk b d).queue with
  | [] => s
  | e :: _ =>
    match e.op with
    | .pass m sl set j n _ =>
      let ds := maskDesks m
      if !ds.all (fun q => (s.desk b q).queue.head? == some e && s.deskWorks b q) then s
      else match ds.findSome? (fun q => s.passCause b q e sl set j n) with
        | some cause => s.headFault b ds e cause
        | none =>
          if ds.any (fun q =>
              let x := s.desk b q
              (match x.load with
                | some (k, _) => k == sl || x.wide
                | none => false) || s.setDraining b q set ||
              decide (x.uncommitted > (match x.passes.getLast? with
                | some p => if s.slowPass b p.ent q then 1 else 7
                | none => 0))) then s
          else
            let s := s.popEnt b ds e
            ds.foldl (fun s q =>
              let s := s.openSet b q set e.ctx
              (s.modDesk b q (fun x => { x with passes := x.passes ++ [⟨e, 0⟩] })).setFld (A.deskStat b q) F.deskStat.PASS_BUSY 1) s
    | _ => s

/-- The A row of a pass in hand: from the replay buffer where an attempt has failed, else from the Shelf
(03 R90), with its lowest poisoned element. -/
def State.passRow (s : State) (b d : Nat) (t : Tile) (i kp : Nat) : List Nat × Option Nat :=
  match FMap.get? (s.desk b d).buf i with
  | some r => r
  | none => (s.tileRow b t i kp, s.rowPoison b t i kp)

/-- One Desk commits one row (03 R66, R67; 02 R55 to R57): its checks, the Drawer row read and written, flags
and trap events (06 R178 to R182), the row counted. `sup` says whether its trap events are suppressed. -/
def State.commitOn (s : State) (b d : Nat) (p : PassSt) (u : Upset) (sup : Bool) : State :=
  match p.ent.op with
  | .pass _ sl set j n kp =>
    let e := p.ent
    let t := tileOf e.desc
    let row := j + p.next
    let s := s.checkRow b d set
    let (as, psn) := s.passRow b d t p.next kp
    let s := s.drawerRead b d set row u
    let x := s.desk b d
    let blk := (FMap.get? x.slots sl).getD ⟨0, []⟩
    let df := s.deskFmt b d
    let len := s.chunkLen b d set
    let old := FMap.get? x.tot (rowKey set row)
    let res := (List.range 96).map (fun c =>
      deskColumn df t.format ((Fmt.ofCode blk.fmt).getD .gf8a) len (old.map (fun l => l.getD c 0)) as (blk.column c kp))
    let fl := (orFlags res).or (if psn.isSome then .invalid else .none)
    let s := (s.trap b e.ctx sup (psnEv d row set (fun _ => none) psn ++ laneEvs d row set (fun _ => none) res) e.pc 0x81).1
    let s := s.raiseFlags b e.ctx d fl e.lgen
    let s := s.drawerWrite b d set row (res.map (·.bits))
    let s := s.incWrap (A.deskRows b d) F.deskRows.ROWS 1
    let s := s.modDesk b d (fun x => { x with
      tries := 0
      buf := FMap.del x.buf p.next
      passes := if p.next + 1 = n then x.passes.tail else
        match x.passes with
        | q :: r => { q with next := q.next + 1 } :: r
        | [] => [] })
    if p.next + 1 = n then s.showBusy b d else s
  | _ => s

/-- The oldest row in flight of a Desk commits, on every Desk of its broadcast in step (03 R86). -/
def State.rowCommit (s : State) (b d : Nat) (us : List (Nat × Upset)) : State :=
  match (s.desk b d).passes with
  | [] => s
  | p :: _ =>
    match p.ent.op with
    | .pass _ _ _ _ _ kp =>
      let t := tileOf p.ent.desc
      let ds := p.ent.desks d
      if !ds.all (fun q => (s.desk b q).passes.head? == some p && s.deskWorks b q) then s
      else if (FMap.get? (s.desk b d).buf p.next).isNone && s.pendingAt b (t.elem p.next 0) (kp * t.width) then s
      else
        let sup := s.suppressed b p.ent.ctx
        ds.foldl (fun s q => s.commitOn b q p (upsetOf us q) sup) s
    | _ => s

/-- An attempt of a row fails its check (03 R90, R92, R93): `pass` says whether it is the pass row in hand, else `row` is
a row of the drain path. It is replayed; too many failed attempts of one row in succession, or too many replays in the
window, make the Desk faulty, which is answered. -/
def State.attemptFail (s : State) (b d set : Nat) (parity pass : Bool) (row : Nat) : State × Bool :=
  let s := (s.winRoll b d).replay b d set parity (!parity)
  let s := s.modDesk b d (fun x =>
    { (if pass then { x with tries := x.tries + 1 }
      else { x with dtries := if x.dtries.1 = row then (row, x.dtries.2 + 1) else (row, 1) }) with
      winReplays := x.winReplays + 1 })
  let y := s.desk b d
  let tries := if pass then y.tries else y.dtries.2
  let retry := max 1 (s.fld (A.deskCtl b d) F.deskCtl.RETRY)
  let rate := s.fld (A.deskCtl b d) F.deskCtl.RATE
  if tries ≥ retry + 1 || (rate != 0 && decide (y.winReplays > rate)) then
    ((s.modDesk b d (fun x => { x with tries := 0, dtries := (0, 0) })).deskFault b d set, true)
  else (s, false)

/-- The A rows that follow a failed row enter the replay buffer, as far as they have been read: up to the first that waits
for a pending line (03 R90, 05 R167). -/
def State.bufferRows (s : State) (b d : Nat) (p : PassSt) : State :=
  match p.ent.op with
  | .pass _ _ _ _ n kp =>
    let t := tileOf p.ent.desc
    let rows := (List.range (min (inFlight (s.slowPass b p.ent d)) (n - p.next))).map (· + p.next)
    let read := rows.takeWhile (fun i => FMap.has (s.desk b d).buf i || !s.pendingAt b (t.elem i 0) (kp * t.width))
    s.modDesk b d (fun x => { x with buf := read.foldl (fun m i =>
      if FMap.has m i then m else FMap.set m i (s.passRow b d t i kp)) x.buf })
  | _ => s

/-- A row fails its check: of the oldest pass the row in hand, where it has been read, or a row of the oldest drain, which
is replayed from the Drawer totals (03 R88, R90). Rows of a drain are checked in ascending order. -/
def State.checkFail (s : State) (b d : Nat) (parity : Bool) (drain : Option Nat) : State :=
  let x := s.desk b d
  if !s.deskWorks b d then s
  else match drain with
    | none => match x.passes with
      | p :: _ => match p.ent.op with
        | .pass _ _ set _ _ _ =>
          let s := s.bufferRows b d p
          if FMap.has (s.desk b d).buf p.next then (s.attemptFail b d set parity true 0).1 else s
        | _ => s
      | [] => s
    | some t => match x.drains with
      | e :: _ => match e.op with
        | .drain _ set _ n => if t < n ∧ x.dtries.1 ≤ t then (s.attemptFail b d set parity false t).1 else s
        | _ => s
      | [] => s

/-! ### Drains, merges and discards (03 R81 to R85; 04 R129) -/

/-- Whether an earlier pass into a set has rows that have not committed (03 R77). -/
def Desk.passInto (x : Desk) (set : Nat) : Bool :=
  x.passes.any (fun p => match p.ent.op with
    | .pass _ _ q .. => q == set
    | _ => false)

/-- What makes a `DESK.D` illegal at the head of its queue (03 R79, R81; 04 R112, R129). DESIGN CHOICE (log 24): the format
of a raw drain or a merge that is not the Desk's Drawer format is found here, with cause 0x22; R129 names no cause, and
the list of R108 leaves the check out. -/
def State.drainCause (s : State) (b d : Nat) (e : DeskEnt) : Option Nat :=
  let range (set j n : Nat) : Bool := decide (set ≥ s.maxSets b d) || decide (j + n > s.deskM b d)
  let other (set : Nat) : Bool := s.setUsed b d set && s.setOwner b d set != e.ctx.code
  let t := tileOf e.desc
  match e.op with
  | .drain raw set j n =>
    if range set j n then some 0x22
    else if other set then some 0x21
    else if raw then (if t.format = s.deskFmt b d then none else some 0x22)
    else if t.scaleAreaUsable (s.deskM b d) then none else some 0x13
  | .merge set j n _ =>
    if range set j n then some 0x22
    else if other set then some 0x21
    else if t.format = s.deskFmt b d then none else some 0x22
  | .discard set j n => if range set j n then some 0x22 else if other set then some 0x21 else none
  | _ => none

/-- The drain at the head of the queue starts once earlier passes into its set have committed (03 R76, R77):
the set is DRAINING; one that was FREE takes its owner with all started bits clear. -/
def State.drainStart (s : State) (b d : Nat) : State :=
  let x := s.desk b d
  match x.queue with
  | [] => s
  | e :: _ =>
    match e.op with
    | .drain _ set _ _ =>
      if !s.deskWorks b d then s
      else match s.drainCause b d e with
        | some cause => s.headFault b [d] e cause
        | none =>
          if x.passInto set || s.setDraining b d set then s
          else
            let s := s.popEnt b [d] e
            let s := s.openSet b d set e.ctx
            let s := s.modDesk b d (fun x => { x with draining := set :: x.draining, drains := x.drains ++ [e] })
            s.setFld (A.deskStat b d) F.deskStat.DRAIN_BUSY 1
    | _ => s

/-- The raw image of a poisoned total (03 R89). -/
def poisonImage (f : Fmt) : Nat :=
  match f with
  | .gf48 => 0x7FF800000000 | .int32 => 0 | _ => 0x7FC00000

/-- The activation of an epilogue on a binary32 value (03 R83, R85). -/
def activate (act : Nat) (v : Nat) : LaneRes :=
  let x := Fmt.b32.decode v
  match act with
  | 1 => let (y, f) := reluVal x; arithLane [x] (Fmt.b32.narrow (y, f))
  | 2 => arithLane [x] (TFun.apply .gelu .b32 x v)
  | 3 => arithLane [x] (TFun.apply .silu .b32 x v)
  | 4 => arithLane [x] (Fmt.b32.narrow (x.mul x))
  | _ => ⟨v, .none, none⟩

/-- The epilogue of one Drawer total (03 R84): the scale and bias values, where there are any, and the
rounding of its destination element. -/
def epilogue (df dst : Fmt) (act : Nat) (scale bias : Option Nat) (rnd : Rnd) (t : Nat) : LaneRes :=
  let v := df.decode t
  match scale, bias, act with
  | none, none, 0 => let (r, f) := dst.convert rnd v; ⟨r, f, none⟩
  | _, _, _ =>
    let (x0, f0) := Fmt.b32.convert .rne v
    let x := Fmt.b32.decode x0
    let mid : LaneRes := match scale, bias with
      | some a, some c =>
        let y := Fmt.b32.decode a
        let z := Fmt.b32.decode c
        arithLane [x, y, z] (Fmt.b32.narrow (x.fma y z))
      | some a, none => let y := Fmt.b32.decode a; arithLane [x, y] (Fmt.b32.narrow (x.mul y))
      | none, some c => let z := Fmt.b32.decode c; arithLane [x, z] (Fmt.b32.narrow (x.add z))
      | none, none => ⟨x0, .none, none⟩
    let y := (activate act mid.bits).after mid ⟨0, f0, none⟩
    let (r, g) := dst.convert rnd (Fmt.b32.decode y.bits)
    ⟨r, y.fl.or g, y.trap⟩

/-- The scale value of a Drawer row and column (04 R114). -/
def State.scaleOf (s : State) (b : Nat) (t : Tile) (row col : Nat) : Option Nat :=
  match t.scl with
  | 0 => none
  | 1 => some (s.shelfNum b t.sptr 4)
  | 2 => some (s.shelfNum b (t.sptr + 4 * row) 4)
  | _ => some (s.shelfNum b (t.sptr + 4 * col) 4)

/-- The bias value of a Drawer row and column (04 R114). -/
def State.biasOf (s : State) (b : Nat) (t : Tile) (m row col : Nat) : Option Nat :=
  let base := t.sptr + 4 * t.scaleCount m
  match t.bias with
  | 0 => none
  | 1 => some (s.shelfNum b (base + 4 * row) 4)
  | _ => some (s.shelfNum b (base + 4 * col) 4)

/-- The results of one drain row (03 R66, R84, R89; 04 R129). A row that was never started drains as +0 and
sets no flag; a poisoned set drains as NaN or 0 and sets I in an epilogue. -/
def State.drainRow (s : State) (b d : Nat) (e : DeskEnt) (raw : Bool) (set row t : Nat) : List LaneRes :=
  let tl := tileOf e.desc
  let df := s.deskFmt b d
  let dst := tl.format
  let m := s.deskM b d
  let poisoned := s.fldBit (A.deskStat b d) F.deskStat.SET_POISON set
  let tot := FMap.get? (s.desk b d).tot (rowKey set row)
  (List.range (if raw then 96 else tl.cols)).map (fun c =>
    if raw then ⟨if poisoned then poisonImage df else (tot.getD []).getD c 0, .none, none⟩
    else if poisoned then ⟨if dst = .int8 then 0 else dst.qnan, .invalid, none⟩
    else
      let r := epilogue df dst tl.act (s.scaleOf b tl row c) (s.biasOf b tl m row c)
        (tl.rnd e.seed e.step t c) ((tot.getD []).getD c 0)
      if tot.isSome then r else ⟨r.bits, .none, none⟩)

/-- The oldest drain of a Desk writes its rows and completes, and its set becomes FREE (03 R76, R82, R84). -/
def State.drainDone (s : State) (b d : Nat) (us : List (Nat × Upset)) : State :=
  match (s.desk b d).drains with
  | [] => s
  | e :: _ =>
    match e.op with
    | .drain raw set j n =>
      let tl := tileOf e.desc
      let cols := if raw then 96 else tl.cols
      let area := 4 * (tl.scaleCount (s.deskM b d) + tl.biasCount (s.deskM b d))
      if !s.deskWorks b d || s.tilePending b tl n cols || (!raw && s.pendingAt b tl.sptr area) then s
      else
        let s := s.checkRow b d set
        let s := (List.range n).foldl (fun s t =>
          let sup := s.suppressed b e.ctx
          let s := s.drawerRead b d set (j + t) (upsetOf us t)
          let res := s.drainRow b d e raw set (j + t) t
          let s := (s.trap b e.ctx sup (laneEvs d t set (fun c => some (tl.index t c)) res) e.pc 0x82).1
          let s := s.raiseFlags b e.ctx d (orFlags res) e.lgen
          s.shelfWrite b (tl.elem t 0) (res.flatMap (fun r => leBytes tl.width r.bits))) s
        let s := s.freeSet b d set
        (s.modDesk b d (fun x => { x with drains := x.drains.tail, dtries := (0, 0) })).showBusy b d
    | _ => s

/-- One row of a merge (03 R66, R81; 05 R159): the raw images are promoted by RNE in the Drawer format. -/
def State.mergeRow (s : State) (b d : Nat) (e : DeskEnt) (set row t : Nat) (u : Upset) : State :=
  let tl := tileOf e.desc
  let df := s.deskFmt b d
  let sup := s.suppressed b e.ctx
  let s := s.drawerRead b d set row u
  let old := FMap.get? (s.desk b d).tot (rowKey set row)
  let res := (List.range 96).map (fun c =>
    let img := s.shelfNum b (tl.elem t c) tl.width % 2 ^ df.width
    let v := df.decode img
    promote df df (old.map (fun l => l.getD c 0)) ⟨img, v.inFlags, if v == .nan true then some 2 else none⟩)
  let psn := s.rowPoison b tl t 96
  let s := (s.trap b e.ctx sup (psnEv d row set (fun _ => none) psn ++ laneEvs d row set (fun _ => none) res) e.pc 0x82).1
  let s := s.raiseFlags b e.ctx d ((orFlags res).or (if psn.isSome then .invalid else .none)) e.lgen
  s.drawerWrite b d set row (res.map (·.bits))

/-- The failed attempts of a row of a merge (03 R90, R92): answers whether the Desk became faulty by one. -/
def State.mergeFails (s : State) (b d set t : Nat) (fails : List (Nat × Bool)) : State × Bool :=
  (fails.filter (fun p => p.1 == t)).foldl (fun (q : State × Bool) p =>
    if q.2 then q else q.1.attemptFail b d set p.2 false t) (s, false)

/-- The rows of a merge from `t` on, `k` of them: `us` is what befell the Drawer rows that are read (03 R89), `fails` the
attempts that failed. Answers the row at which the Desk became faulty, if it did. -/
def State.mergeRows (b d : Nat) (e : DeskEnt) (set j : Nat) (us : List (Nat × Upset)) (fails : List (Nat × Bool)) :
    Nat → Nat → State → State × Option Nat
  | 0, _, s => (s, none)
  | k + 1, t, s =>
    let (s, bad) := s.mergeFails b d set t fails
    if bad then (s, some t) else State.mergeRows b d e set j us fails k (t + 1) (s.mergeRow b d e set (j + t) t (upsetOf us t))

/-- The merge at the head of the queue reads its raw images and promotes them (03 R76, R81; 05 R159), the set opened if
FREE. Where its Desk becomes faulty in it, the merge stays at the head of the queue, and goes on from that row once the
Desk is hosted (03 R92, 16 R449). DESIGN CHOICE (log 24): rows of earlier passes into the set need not have committed,
for R77 asks that of drains and discards alone, and the two sums commute (R81). -/
def State.mergeStart (s : State) (b d : Nat) (us : List (Nat × Upset)) (fails : List (Nat × Bool)) : State :=
  match (s.desk b d).queue with
  | [] => s
  | e :: _ =>
    match e.op with
    | .merge set j n next =>
      if !s.deskWorks b d then s
      else match s.drainCause b d e with
        | some cause => s.headFault b [d] e cause
        | none =>
          if s.setDraining b d set || s.tilePending b (tileOf e.desc) n 96 then s
          else
            let s := s.openSet b d set e.ctx
            let s := s.checkRow b d set
            let (s, at') := State.mergeRows b d e set j us fails (n - next) next s
            match at' with
            | some t => s.modDesk b d (fun x => { x with
                queue := x.queue.map (fun y => if y == e then { y with op := .merge set j n t } else y) })
            | none => ((s.modDesk b d (fun x => { x with dtries := (0, 0) })).popEnt b [d] e).rest b
    | _ => s

/-- The discard at the head of the queue takes effect (03 R76, R77): the set is FREE. -/
def State.discardNow (s : State) (b d : Nat) : State :=
  match (s.desk b d).queue with
  | [] => s
  | e :: _ =>
    match e.op with
    | .discard set _ _ =>
      if !s.deskWorks b d then s
      else match s.drainCause b d e with
        | some cause => s.headFault b [d] e cause
        | none =>
          if (s.desk b d).passInto set || s.setDraining b d set then s
          else
            let s := s.popEnt b [d] e
            (if s.setUsed b d set then s.freeSet b d set else s).rest b
    | _ => s

/-! ### Control registers of a Desk (03 R80, R95, R102) -/

/-- A write to `DESK_CFG` (03 R80, R95): it takes effect only if every set is FREE and `DFMT` is not 3. -/
def State.deskCfgWrite (s : State) (b d : Nat) (v : Word) : State :=
  if s.fld (A.deskStat b d) F.deskStat.SET_OPEN != 0 || getFld v F.deskCfg.DFMT == 3 then
    s.hwSet (A.deskStat b d) F.deskStat.CFG_REJ
  else
    let a := A.deskCfg b d
    let s := s.setFld a F.deskCfg.M (getFld v F.deskCfg.M)
    let s := s.setFld a F.deskCfg.DFMT (getFld v F.deskCfg.DFMT)
    let s := s.setFld a F.deskCfg.CHUNK (getFld v F.deskCfg.CHUNK)
    s.setFld (A.deskStat b d) F.deskStat.MAX_SETS (setsFor (s.deskM b d) (s.deskFmt b d))

/-- `DESK_CTL.CLR_CNT` (03 R102). -/
def State.deskClear (s : State) (b d : Nat) : State :=
  let s := s.wr (A.deskStall b d) 0
  let s := s.setFld (A.deskRas b d) F.deskRas.REPLAYS 0
  s.setFld (A.deskRas b d) F.deskRas.DRAWER_CE 0

/-- A test injection of a Desk becomes pending (03 R102). -/
def State.deskInject (s : State) (b d : Nat) (f : DeskInj → DeskInj) : State :=
  s.modDesk b d (fun x => { x with inj := f x.inj })

end Sys2Proof.Machine
end

