-- ==== Sys2Proof/Machine/Scalar.lean ====
section
/-!
DEFINITION. The scalar ALU, branch and descriptor instructions, and `NOP` (04 R138, R139).
-/
namespace Sys2Proof.Machine

/-- The answer of a command that always leaves a next state. -/
def ok (s : State) : Out := .next s

/-- The form of a scalar ALU instruction; `DIV` and `REM` are illegal in the DWL context (04 R122, R139). -/
def aluForm (dwl : Bool) (rd rs1 rs2 : Nat) (i : Bool) (rsv : BitVec 8) : Form where
  dwl := dwl
  sregs := [rd, rs1] ++ (if i then [] else [rs2])
  rsv := rsv.toNat

/-- A scalar ALU instruction (04 R139): the operation of `RS1` and the second operand goes to `RD`. -/
def State.alu (s : State) (b : Nat) (c : Ctx) (dwl : Bool) (rd rs1 rs2 : Nat) (i : Bool) (imm : BitVec 32)
    (rsv : BitVec 8) (op : Word → Word → Word) : State :=
  s.issue b c (aluForm dwl rd rs1 rs2 i rsv) (fun s =>
    (s.setS b c rd (op (s.s b c rs1) (s.src2 b c rs2 i imm))).done b c)

/-- Signed quotient; division by zero gives all ones; the one quotient that leaves the range wraps
(04 R139). DESIGN CHOICE (log 30): it is truncated toward zero; R139 does not say how a quotient is rounded. -/
def sdiv64 (x y : Word) : Word := if y = 0 then BitVec.allOnes 64 else BitVec.ofInt 64 (x.toInt.tdiv y.toInt)

/-- Signed remainder; division by zero gives the dividend (04 R139). DESIGN CHOICE (log 30): it takes the sign of the dividend,
as belongs to a truncated quotient. -/
def srem64 (x y : Word) : Word := if y = 0 then x else BitVec.ofInt 64 (x.toInt.tmod y.toInt)

/-- The signed high product (04 R139). -/
def mulh64 (x y : Word) : Word := BitVec.ofInt 64 ((x.toInt * y.toInt) / 2 ^ 64)

/-- The amount of a shift: bits [5:0] (04 R139). -/
def shamt (y : Word) : Nat := y.toNat % 64

/-- `ADD` (04 R139). -/
def execAdd (b : BenchNo) (c : Ctx) (rd rs1 rs2 : Fin 32) (i : Bool) (imm : BitVec 32) (rsv : BitVec 8) (s : State) : Out :=
  ok (s.alu b c true rd rs1 rs2 i imm rsv (· + ·))

/-- `SUB` (04 R139). -/
def execSub (b : BenchNo) (c : Ctx) (rd rs1 rs2 : Fin 32) (i : Bool) (imm : BitVec 32) (rsv : BitVec 8) (s : State) : Out :=
  ok (s.alu b c true rd rs1 rs2 i imm rsv (· - ·))

/-- `AND` (04 R139). -/
def execAnd (b : BenchNo) (c : Ctx) (rd rs1 rs2 : Fin 32) (i : Bool) (imm : BitVec 32) (rsv : BitVec 8) (s : State) : Out :=
  ok (s.alu b c true rd rs1 rs2 i imm rsv (· &&& ·))

/-- `OR` (04 R139). -/
def execOr (b : BenchNo) (c : Ctx) (rd rs1 rs2 : Fin 32) (i : Bool) (imm : BitVec 32) (rsv : BitVec 8) (s : State) : Out :=
  ok (s.alu b c true rd rs1 rs2 i imm rsv (· ||| ·))

/-- `XOR` (04 R139). -/
def execXor (b : BenchNo) (c : Ctx) (rd rs1 rs2 : Fin 32) (i : Bool) (imm : BitVec 32) (rsv : BitVec 8) (s : State) : Out :=
  ok (s.alu b c true rd rs1 rs2 i imm rsv (· ^^^ ·))

/-- `SHL` by bits [5:0] of the amount (04 R139). -/
def execShl (b : BenchNo) (c : Ctx) (rd rs1 rs2 : Fin 32) (i : Bool) (imm : BitVec 32) (rsv : BitVec 8) (s : State) : Out :=
  ok (s.alu b c true rd rs1 rs2 i imm rsv (fun x y => x <<< shamt y))

/-- `SHR` by bits [5:0] of the amount (04 R139). -/
def execShr (b : BenchNo) (c : Ctx) (rd rs1 rs2 : Fin 32) (i : Bool) (imm : BitVec 32) (rsv : BitVec 8) (s : State) : Out :=
  ok (s.alu b c true rd rs1 rs2 i imm rsv (fun x y => x >>> shamt y))

/-- `SRA` by bits [5:0] of the amount (04 R139). -/
def execSra (b : BenchNo) (c : Ctx) (rd rs1 rs2 : Fin 32) (i : Bool) (imm : BitVec 32) (rsv : BitVec 8) (s : State) : Out :=
  ok (s.alu b c true rd rs1 rs2 i imm rsv (fun x y => x.sshiftRight (shamt y)))

/-- `MUL`: the low product (04 R139). -/
def execMul (b : BenchNo) (c : Ctx) (rd rs1 rs2 : Fin 32) (i : Bool) (imm : BitVec 32) (rsv : BitVec 8) (s : State) : Out :=
  ok (s.alu b c true rd rs1 rs2 i imm rsv (· * ·))

/-- `MULH`: the signed high product (04 R139). -/
def execMulh (b : BenchNo) (c : Ctx) (rd rs1 rs2 : Fin 32) (i : Bool) (imm : BitVec 32) (rsv : BitVec 8) (s : State) : Out :=
  ok (s.alu b c true rd rs1 rs2 i imm rsv mulh64)

/-- `DIV`: the signed quotient; illegal in the DWL context with cause 0x14 (04 R122, R139). -/
def execDiv (b : BenchNo) (c : Ctx) (rd rs1 rs2 : Fin 32) (i : Bool) (imm : BitVec 32) (rsv : BitVec 8) (s : State) : Out :=
  ok (s.alu b c false rd rs1 rs2 i imm rsv sdiv64)

/-- `REM`: the signed remainder; illegal in the DWL context with cause 0x14 (04 R122, R139). -/
def execRem (b : BenchNo) (c : Ctx) (rd rs1 rs2 : Fin 32) (i : Bool) (imm : BitVec 32) (rsv : BitVec 8) (s : State) : Out :=
  ok (s.alu b c false rd rs1 rs2 i imm rsv srem64)

/-- `SLT` (04 R139). -/
def execSlt (b : BenchNo) (c : Ctx) (rd rs1 rs2 : Fin 32) (i : Bool) (imm : BitVec 32) (rsv : BitVec 8) (s : State) : Out :=
  ok (s.alu b c true rd rs1 rs2 i imm rsv (fun x y => if x.slt y then 1 else 0))

/-- `SLTU` (04 R139). -/
def execSltu (b : BenchNo) (c : Ctx) (rd rs1 rs2 : Fin 32) (i : Bool) (imm : BitVec 32) (rsv : BitVec 8) (s : State) : Out :=
  ok (s.alu b c true rd rs1 rs2 i imm rsv (fun x y => if x.ult y then 1 else 0))

/-- `MIN`, signed (04 R139). -/
def execMin (b : BenchNo) (c : Ctx) (rd rs1 rs2 : Fin 32) (i : Bool) (imm : BitVec 32) (rsv : BitVec 8) (s : State) : Out :=
  ok (s.alu b c true rd rs1 rs2 i imm rsv (fun x y => if x.slt y then x else y))

/-- `MAX`, signed (04 R139). -/
def execMax (b : BenchNo) (c : Ctx) (rd rs1 rs2 : Fin 32) (i : Bool) (imm : BitVec 32) (rsv : BitVec 8) (s : State) : Out :=
  ok (s.alu b c true rd rs1 rs2 i imm rsv (fun x y => if x.slt y then y else x))

/-- `LI`: the sign-extended immediate; the register fields other than `RD` are not read (04 R139). -/
def execLi (b : BenchNo) (c : Ctx) (rd : Fin 32) (imm : BitVec 32) (rsv : BitVec 8) (s : State) : Out :=
  ok (s.issue b c { sregs := [rd], rsv := rsv.toNat } (fun s => (s.setS b c rd (imm64 imm)).done b c))

/-- `LIH`: the immediate into bits [63:32], bits [31:0] kept (04 R139). -/
def execLih (b : BenchNo) (c : Ctx) (rd : Fin 32) (imm : BitVec 32) (rsv : BitVec 8) (s : State) : Out :=
  ok (s.issue b c { sregs := [rd], rsv := rsv.toNat } (fun s =>
    (s.setS b c rd (imm.zeroExtend 64 <<< 32 ||| (s.s b c rd &&& 0xFFFFFFFF))).done b c))

/-- `CTR`: reads `BENCH_CYC` (04 R139, R148). -/
def execCtr (b : BenchNo) (c : Ctx) (rd : Fin 32) (rsv : BitVec 8) (s : State) : Out :=
  ok (s.issue b c { sregs := [rd], rsv := rsv.toNat } (fun s =>
    (s.setS b c rd (BitVec.ofNat 64 (s.benchCyc b))).done b c))

/-- A conditional branch (04 R139). -/
def State.branch (s : State) (b : Nat) (c : Ctx) (rs1 rs2 : Nat) (imm : BitVec 32) (rsv : BitVec 8)
    (taken : Word → Word → Bool) : State :=
  s.issue b c { sregs := [rs1, rs2], rsv := rsv.toNat } (fun s =>
    if taken (s.s b c rs1) (s.s b c rs2) then (s.issued b c).setPc b c (branchTarget (s.pc b c) imm) else s.done b c)

/-- `BEQ` (04 R139). -/
def execBeq (b : BenchNo) (c : Ctx) (rs1 rs2 : Fin 32) (imm : BitVec 32) (rsv : BitVec 8) (s : State) : Out :=
  ok (s.branch b c rs1 rs2 imm rsv (fun x y => x == y))

/-- `BNE` (04 R139). -/
def execBne (b : BenchNo) (c : Ctx) (rs1 rs2 : Fin 32) (imm : BitVec 32) (rsv : BitVec 8) (s : State) : Out :=
  ok (s.branch b c rs1 rs2 imm rsv (fun x y => x != y))

/-- `BLT`, signed (04 R139). -/
def execBlt (b : BenchNo) (c : Ctx) (rs1 rs2 : Fin 32) (imm : BitVec 32) (rsv : BitVec 8) (s : State) : Out :=
  ok (s.branch b c rs1 rs2 imm rsv (fun x y => x.slt y))

/-- `BGE`, signed (04 R139). -/
def execBge (b : BenchNo) (c : Ctx) (rs1 rs2 : Fin 32) (imm : BitVec 32) (rsv : BitVec 8) (s : State) : Out :=
  ok (s.branch b c rs1 rs2 imm rsv (fun x y => !x.slt y))

/-- `BLTU` (04 R139). -/
def execBltu (b : BenchNo) (c : Ctx) (rs1 rs2 : Fin 32) (imm : BitVec 32) (rsv : BitVec 8) (s : State) : Out :=
  ok (s.branch b c rs1 rs2 imm rsv (fun x y => x.ult y))

/-- `BGEU` (04 R139). -/
def execBgeu (b : BenchNo) (c : Ctx) (rs1 rs2 : Fin 32) (imm : BitVec 32) (rsv : BitVec 8) (s : State) : Out :=
  ok (s.branch b c rs1 rs2 imm rsv (fun x y => !x.ult y))

/-- `JAL`: `RD` takes the address of the next instruction, and the jump is by `IMM` × 8 (04 R139). -/
def execJal (b : BenchNo) (c : Ctx) (rd : Fin 32) (imm : BitVec 32) (rsv : BitVec 8) (s : State) : Out :=
  ok (s.issue b c { sregs := [rd], rsv := rsv.toNat } (fun s =>
    let pc := s.pc b c
    ((s.setS b c rd (BitVec.ofNat 64 (pc + 8))).issued b c).setPc b c (branchTarget pc imm)))

/-- `JALR`: the jump is to `RS1` + `IMM` with bits [2:0] cleared (04 R139). -/
def execJalr (b : BenchNo) (c : Ctx) (rd rs1 : Fin 32) (imm : BitVec 32) (rsv : BitVec 8) (s : State) : Out :=
  ok (s.issue b c { sregs := [rd, rs1], rsv := rsv.toNat } (fun s =>
    let pc := s.pc b c
    let target := s.effAddr b c rs1 imm
    ((s.setS b c rd (BitVec.ofNat 64 (pc + 8))).issued b c).setPc b c (target / 8 * 8)))

/-- `TLD`: a descriptor from Shelf (04 R139): the offset a multiple of 32, all 32 B below 3 MiB, otherwise
illegal with cause 0x13; a pending line holds it (05 R167). -/
def execTld (b : BenchNo) (c : Ctx) (t : Fin 16) (rs1 : Fin 32) (rsv : BitVec 8) (s : State) : Out :=
  ok (s.issue b c { sregs := [rs1], tregs := [t], rsv := rsv.toNat } (fun s =>
    let off := (s.s b c rs1).toNat
    if off % 32 != 0 || decide (off + 32 > shelfSize) then s.illegal b c 0x13
    else if s.pendingAt b off 32 then s.block b c .issue
    else (s.setT b c t (BitVec.ofNat 256 (s.shelfNum b off 32))).done b c))

/-- `TST`: a descriptor to Shelf (04 R139), under the same conditions. -/
def execTst (b : BenchNo) (c : Ctx) (t : Fin 16) (rs1 : Fin 32) (rsv : BitVec 8) (s : State) : Out :=
  ok (s.issue b c { sregs := [rs1], tregs := [t], rsv := rsv.toNat } (fun s =>
    let off := (s.s b c rs1).toNat
    if off % 32 != 0 || decide (off + 32 > shelfSize) then s.illegal b c 0x13
    else if s.pendingAt b off 32 then s.block b c .issue
    else (s.shelfWrite b off (leBytes 32 (s.t b c t).toNat)).done b c))

/-- `TBASE`: `BASE` of a descriptor becomes `RS1` + `IMM`, cut to its width (04 R111, R139). -/
def execTbase (b : BenchNo) (c : Ctx) (t : Fin 16) (rs1 : Fin 32) (imm : BitVec 32) (rsv : BitVec 8) (s : State) : Out :=
  ok (s.issue b c { sregs := [rs1], tregs := [t], rsv := rsv.toNat } (fun s =>
    (s.setT b c t (BitVec.ofNat 256 (setBits (s.t b c t).toNat 21 0 (s.effAddr b c rs1 imm)))).done b c))

/-- `TORG`: `ORIGIN` of a descriptor becomes `RS1` + `IMM` (04 R111, R139). -/
def execTorg (b : BenchNo) (c : Ctx) (t : Fin 16) (rs1 : Fin 32) (imm : BitVec 32) (rsv : BitVec 8) (s : State) : Out :=
  ok (s.issue b c { sregs := [rs1], tregs := [t], rsv := rsv.toNat } (fun s =>
    (s.setT b c t (BitVec.ofNat 256 (setBits (s.t b c t).toNat 255 192 (s.effAddr b c rs1 imm)))).done b c))

/-- `NOP` (04 R138). An instruction word whose major opcode is reserved, 0x00 among them, is issued by this
command with that opcode: it is illegal with cause 0x10 (04 R107, R108, R124). -/
def execNop (b : BenchNo) (c : Ctx) (opc : Byte) (rsv : BitVec 56) (s : State) : Out :=
  ok (if opc = 0x01 then s.issue b c { rsv := rsv.toNat } (fun s => s.done b c)
      else s.issue b c {} (fun s => s.illegal b c 0x10))

end Sys2Proof.Machine
end

