-- ==== Sys2Proof/Machine/Desk.lean ====
section
/-!
DEFINITION. The Desk instructions, their progress, and the register writes of a Desk that are commands of
their own (03; 04 R116, R117, R126 to R130).
-/
namespace Sys2Proof.Machine

/-- The Desks that a context may use: its leases, or those the running entry borrows (04 R116, R121). -/
def State.mayUse (s : State) (b : Nat) (c : Ctx) (d : Nat) : Bool :=
  match c with
  | .D => match (s.bench b).entry with
    | some e => e.mask.testBit d
    | none => false
  | _ => s.code2 (A.benchLease b) F.benchLease.HOLD d == c.code

/-- Whether a Desk instruction cannot issue yet (04 R121, R126; 03 R92; 16 R452): a borrowed Desk, a full
queue, a Desk out of service. -/
def State.mustWait (s : State) (b : Nat) (c : Ctx) (d : Nat) : Bool :=
  (c != .D && s.fldBit (A.benchLease b) F.benchLease.LENT d) || decide ((s.desk b d).queue.length ≥ 16) ||
    (s.bench b).failed || !s.inService b d

/-- A Desk instruction (04 R126): checked, held while it cannot enter a queue, and queued on every Desk of
its mask with what it takes at issue (02 R52). -/
def State.deskIssue (s : State) (b : Nat) (c : Ctx) (mask t rsv : Nat) (op : DeskOp) (check : Tile → Option Nat) : State :=
  s.issue b c { tregs := [t], rsv := rsv } (fun s =>
    let desc := (s.t b c t).toNat
    match check (tileOf desc) with
    | some cause => s.illegal b c cause
    | none =>
      let ds := maskDesks mask
      if !ds.all (s.mayUse b c) then s.illegal b c 0x20
      else if ds.any (s.mustWait b c) then s.block b c .issue
      else
        let e : DeskEnt := ⟨op, c, s.pc b c, desc, s.layerGen b c, s.stepOf b c, s.seed⟩
        let s := ds.foldl (fun s d => s.modDesk b d (fun x => { x with queue := x.queue ++ [e] })) s
        (s.lendEnd b).done b c)

/-- The checks of a descriptor that must name a storable format and be usable (02 R27; 04 R112). -/
def storableCause (t : Tile) (rest : Option Nat) : Option Nat :=
  if (Fmt.ofElem t.fmt).isNone then some 0x11
  else if !t.usable then some 0x13
  else rest

/-- `DESK.B` (04 R127). -/
def execDeskB (b : BenchNo) (c : Ctx) (d : DeskNo) (sl : Fin 2) (t : Fin 16) (rsv : BitVec 49) (s : State) : Out :=
  .next (s.deskIssue b c (2 ^ d.val) t rsv.toNat (.load sl) (fun t =>
    storableCause t (if t.rows ≤ 128 ∧ t.cols ≤ 96 then none else some 0x12)))

/-- `DESK.A` (04 R128, 03 R86): `n` and `kp` are the fields, one less than the counts. -/
def execDeskA (b : BenchNo) (c : Ctx) (mask : Fin 16) (sl : Fin 2) (set : Fin 16) (j n : Fin 256) (kp : Fin 128)
    (t : Fin 16) (rsv : BitVec 20) (s : State) : Out :=
  .next (s.deskIssue b c mask t rsv.toNat (.pass mask sl set j (n + 1) (kp + 1)) (fun t =>
    if mask.val = 0 then some 0x12
    else storableCause t (if n.val + 1 ≤ t.rows ∧ kp.val + 1 ≤ t.cols then none else some 0x12)))

/-- `DESK.D` with form 0, the epilogue drain (04 R129; 04 R112). -/
def execDeskDEpilogue (b : BenchNo) (c : Ctx) (d : DeskNo) (set : Fin 16) (j n : Fin 256) (t : Fin 16)
    (rsv : BitVec 28) (s : State) : Out :=
  .next (s.deskIssue b c (2 ^ d.val) t rsv.toNat (.drain false set j (n + 1)) (fun t =>
    storableCause t (if !t.epilogueUsable then some 0x13
      else if t.cols ≤ 96 ∧ n.val + 1 ≤ t.rows then none else some 0x12)))

/-- The checks at issue of a raw drain or a merge (04 R129): a Drawer format, 96 columns, rows enough. DESIGN CHOICE
(log 24): a code that is no Drawer format is found here, with cause 0x12; one of another Drawer format than the Desk's is
found at the head of the queue with cause 0x22. R129 asks for the Desk's Drawer format and names neither time nor cause. -/
def rawCause (n : Nat) (t : Tile) : Option Nat :=
  if (Fmt.ofCode t.fmt).isNone then some 0x11
  else if !t.usable then some 0x13
  else if (t.fmt = 4 ∨ t.fmt = 9 ∨ t.fmt = 10) ∧ t.cols = 96 ∧ n ≤ t.rows then none
  else some 0x12

/-- `DESK.D` with form 1, the raw drain (04 R129). -/
def execDeskDRaw (b : BenchNo) (c : Ctx) (d : DeskNo) (set : Fin 16) (j n : Fin 256) (t : Fin 16)
    (rsv : BitVec 28) (s : State) : Out :=
  .next (s.deskIssue b c (2 ^ d.val) t rsv.toNat (.drain true set j (n + 1)) (rawCause (n + 1)))

/-- `DESK.D` with form 2, the merge (04 R129). -/
def execDeskDMerge (b : BenchNo) (c : Ctx) (d : DeskNo) (set : Fin 16) (j n : Fin 256) (t : Fin 16)
    (rsv : BitVec 28) (s : State) : Out :=
  .next (s.deskIssue b c (2 ^ d.val) t rsv.toNat (.merge set j (n + 1) 0) (rawCause (n + 1)))

/-- `DESK.D` with form 3, the discard, which ignores `T` (04 R129). DESIGN CHOICE (log 24): in the DWL context a `T` of 8 or
more is illegal with cause 0x12 (R109), as in every other form, though its register is not read. -/
def execDeskDDiscard (b : BenchNo) (c : Ctx) (d : DeskNo) (set : Fin 16) (j n : Fin 256) (t : Fin 16)
    (rsv : BitVec 28) (s : State) : Out :=
  .next (s.deskIssue b c (2 ^ d.val) t rsv.toNat (.discard set j (n + 1)) (fun _ => none))

/-! ### Leases (04 R116, R117, R130) -/

/-- The Desks that a context holds, as a mask. -/
def State.held (s : State) (b : Nat) (c : Ctx) : Nat :=
  ofLanes 1 ((List.range 4).map (fun d => (s.code2 (A.benchLease b) F.benchLease.HOLD d == c.code).toNat))

/-- The Desks of a mask that a context has yet to be granted. -/
def State.wanted (s : State) (b : Nat) (c : Ctx) (mask : Nat) : List Nat :=
  (maskDesks mask).filter (fun d => s.code2 (A.benchLease b) F.benchLease.HOLD d != c.code)

/-- The mask that a thread's `DESK.L` waits for, if it waits. -/
def State.leaseWait (s : State) (b : Nat) (c : Ctx) : Option Nat :=
  match (s.ctx b c).blk with
  | some (.lease m _) => some m
  | _ => none

/-- Whether a request could wait on what the other thread holds. -/
def State.waitsOn (s : State) (b : Nat) (c o : Ctx) (mask : Nat) : Bool :=
  (maskDesks mask).any (fun d => s.code2 (A.benchLease b) F.benchLease.HOLD d == o.code && o != c)

/-- Whether thread B's waiting `DESK.L` issued in this cycle. -/
def State.leaseNow (s : State) (b : Nat) : Bool :=
  match (s.ctx b .B).blk with
  | some (.lease _ t) => t == s.pulse
  | _ => false

/-- `DESK.L` (04 R117, R130): a thread that holds every Desk of the mask goes on; one that would close a
deadlock is illegal with cause 0x23, or thread B's request is, where that one issued in the same cycle; any other waits
for the arbiter. -/
def execDeskL (b : BenchNo) (c : Ctx) (mask : Fin 16) (rsv : BitVec 52) (s : State) : Out :=
  .next (s.issue b c { dwl := false, rsv := rsv.toNat } (fun s =>
    let o := (otherThr c).ctx
    if (s.wanted b c mask).isEmpty then s.done b c
    else
      let dead := match s.leaseWait b o with
        | some m => s.waitsOn b c o mask && s.waitsOn b o c m
        | none => false
      let wait (s : State) : State := s.doneBlock b c (.lease mask s.pulse)
      if !dead then wait s
      else if c == .F && s.leaseNow b then wait ((s.setPc b .B (s.pc b .B - 8)).illegal b .B 0x23)
      else s.illegal b c 0x23))

/-- A thread receives the Desks its `DESK.L` waits for and goes on (04 R117). -/
def State.grant (s : State) (b : Nat) (c : Ctx) (mask : Nat) : State :=
  ((maskDesks mask).foldl (fun s d => s.setCode2 (A.benchLease b) F.benchLease.HOLD d c.code) s).wake b c

/-- Whether a waiting request can be granted now: all its Desks are free in this cycle (04 R117). -/
def State.grantable (s : State) (b : Nat) (c : Ctx) (mask : Nat) : Bool :=
  (s.wanted b c mask).all (fun d => s.code2 (A.benchLease b) F.benchLease.HOLD d == 0)

/-- A contested grant (04 R117): it goes by the weights and the counts of contested grants won, which return
to zero together. -/
def State.contest (s : State) (b mf mb : Nat) : State :=
  let wf := max 1 (s.fld (A.benchLease b) F.benchLease.WF)
  let wb := max 1 (s.fld (A.benchLease b) F.benchLease.WB)
  let x := s.bench b
  let fWins := x.gF * wb < x.gB * wf || (x.gF * wb == x.gB * wf && x.lastWon == .B)
  let gf := x.gF + (if fWins then 1 else 0)
  let gb := x.gB + (if fWins then 0 else 1)
  let clear := gf ≥ wf && gb ≥ wb
  let s := s.modBench b (fun x => { x with
    gF := if clear then 0 else gf
    gB := if clear then 0 else gb
    lastWon := if fWins then .F else .B })
  if fWins then s.grant b .F mf else s.grant b .B mb

/-- The arbiter looks at the requests that wait (04 R117). -/
def State.arbitrate (s : State) (b : Nat) : State :=
  let f := (s.leaseWait b .F).filter (s.grantable b .F)
  let g := (s.leaseWait b .B).filter (s.grantable b .B)
  match f, g with
  | some m, none => s.grant b .F m
  | none, some m => s.grant b .B m
  | some m, some k =>
    if (s.wanted b .F m).any (fun d => (s.wanted b .B k).contains d) then s.contest b m k
    else (s.grant b .F m).grant b .B k
  | none, none => s

/-- `DESK_LEASE_GRANT` (04 R117). -/
def execDeskLeaseGrant (b : BenchNo) (s : State) : Out := .next (s.arbitrate b)

/-! ### Progress of the Desks -/

/-- `DESK_B_LOAD_START` (03 R72 to R74). -/
def execDeskBLoadStart (b : BenchNo) (d : DeskNo) (s : State) : Out := .next (s.loadStart b d)

/-- `DESK_B_LOAD_COMPLETE` (03 R72, R74). -/
def execDeskBLoadComplete (b : BenchNo) (d : DeskNo) (s : State) : Out := .next (s.loadDone b d)

/-- `DESK_PASS_START` (03 R69, R71, R73, R77, R79, R86). -/
def execDeskPassStart (b : BenchNo) (d : DeskNo) (s : State) : Out := .next (s.passStart b d)

/-- `DESK_ROW_COMMIT` (03 R66, R67, R86): `us` is what befell the Drawer row read on each Desk (03 R89). -/
def execDeskRowCommit (b : BenchNo) (d : DeskNo) (us : List (Nat × Upset)) (s : State) : Out := .next (s.rowCommit b d us)

/-- `DESK_ROW_CHECK_FAIL` (03 R88, R90, R92): a parity or a residue mismatch of a pass row or of a drain row. -/
def execDeskRowCheckFail (b : BenchNo) (d : DeskNo) (x : RowFail) (s : State) : Out :=
  .next (s.checkFail b d x.parity (x.drain.map (·.val)))

/-- `DESK_RATE_WINDOW_END` (03 R92): windows of 800,000 cycles counted from core reset. -/
def execDeskRateWindowEnd (b : BenchNo) (d : DeskNo) (s : State) : Out := .next (s.winRoll b d)

/-- `DESK_DRAIN_START` (03 R76, R77). -/
def execDeskDrainStart (b : BenchNo) (d : DeskNo) (s : State) : Out := .next (s.drainStart b d)

/-- `DESK_DRAIN_COMPLETE` (03 R76, R82, R84): `us` is what befell the Drawer rows that are read (03 R89). -/
def execDeskDrainComplete (b : BenchNo) (d : DeskNo) (us : List (Nat × Upset)) (s : State) : Out :=
  .next (s.drainDone b d us)

/-- `DESK_MERGE_START` (03 R76, R81), with what befalls it (03 R88, R89). -/
def execDeskMergeStart (b : BenchNo) (d : DeskNo) (x : MergeRows) (s : State) : Out :=
  .next (s.mergeStart b d x.us x.fails)

/-- `DESK_DISCARD_EFFECT` (03 R76, R77). -/
def execDeskDiscardEffect (b : BenchNo) (d : DeskNo) (s : State) : Out := .next (s.discardNow b d)

/-! ### Register writes -/

/-- `DESK_CFG_WRITE` (03 R80, R95). -/
def execDeskCfgWrite (b : BenchNo) (d : DeskNo) (v : Word) (s : State) : Out := .next (s.deskCfgWrite b d v)

/-- `DESK_CLR_CNT` (03 R102). -/
def execDeskClrCnt (b : BenchNo) (d : DeskNo) (s : State) : Out := .next (s.deskClear b d)

/-- `DESK_INJ_DRAWER_CE` (03 R102). -/
def execDeskInjDrawerCe (b : BenchNo) (d : DeskNo) (s : State) : Out :=
  .next (s.deskInject b d (fun j => { j with ce := true }))

/-- `DESK_INJ_PARITY` (03 R102). -/
def execDeskInjParity (b : BenchNo) (d : DeskNo) (s : State) : Out :=
  .next (s.deskInject b d (fun j => { j with parity := true }))

/-- `DESK_INJ_RESIDUE` (03 R102). -/
def execDeskInjResidue (b : BenchNo) (d : DeskNo) (s : State) : Out :=
  .next (s.deskInject b d (fun j => { j with residue := true }))

end Sys2Proof.Machine
end

