-- ==== Sys2Proof/Machine/Threads.lean ====
section
/-!
DEFINITION. Control of the threads and the deferred weight-gradient list (04 R104, R105, R118 to R123, R138,
R142, R143, R515).
-/
namespace Sys2Proof.Machine

/-! ### The deferred list (04 R118 to R123) -/

/-- The Shelf offset of a ring entry (04 R118, R146). -/
def State.dwlOff (s : State) (b i : Nat) : Nat :=
  min (s.fld (A.benchDwl b) F.benchDwl.BASE) 0x17F * 8192 + (i % 64) * 128

/-- Entries in the list (04 R147). -/
def State.dwlCount (s : State) (b : Nat) : Nat := s.fld (A.benchDwlStat b) F.benchDwlStat.COUNT

/-- An entry image is pushed at the tail with `SRC` and `STEP`, both taken now (04 R119). -/
def State.dwlPush (s : State) (b : Nat) (c : Ctx) (image : Nat) : State :=
  let a := A.benchDwlStat b
  let tail := s.fld a F.benchDwlStat.TAIL
  let d := s.shelfRead b image 128
  let w1 := ofLe ((d.drop 8).take 8)
  let w1 := setBits w1 4 4 c.idx
  let w1 := setBits w1 63 16 (s.stepOf b c)
  let s := s.shelfWrite b (s.dwlOff b tail) (d.take 8 ++ leBytes 8 w1 ++ d.drop 16)
  let s := s.setFld a F.benchDwlStat.TAIL (tail + 1)
  s.setFld a F.benchDwlStat.COUNT (s.dwlCount b + 1)

/-- Whether a push touches a pending line, of the image or of the ring entry that it writes (05 R167). -/
def State.pushPending (s : State) (b image : Nat) : Bool :=
  s.pendingAt b image 128 || s.pendingAt b (s.dwlOff b (s.fld (A.benchDwlStat b) F.benchDwlStat.TAIL)) 128

/-- Threads that wait in the flush form of `DEFER` go on once the list is empty and no entry runs
(04 R119). -/
def State.flushGo (s : State) (b : Nat) : State :=
  if s.dwlCount b = 0 && !s.flag (A.benchDwlStat b) F.benchDwlStat.RUNNING then
    [Ctx.F, Ctx.B].foldl (fun s c => if (s.ctx b c).blk == some .flush then s.wake b c else s) s
  else s

/-- The head entry leaves the list and its Desks return (04 R122, R123). -/
def State.dwlRemove (s : State) (b : Nat) : State :=
  let a := A.benchDwlStat b
  let s := s.setFld (A.benchLease b) F.benchLease.LENT 0
  let s := s.setFld a F.benchDwlStat.HEAD (s.fld a F.benchDwlStat.HEAD + 1)
  let s := s.setFld a F.benchDwlStat.COUNT (s.dwlCount b - 1)
  let s := s.setFld a F.benchDwlStat.RUNNING 0
  let s := s.modCtx b .D (fun x => { x with blk := none })
  let s := s.modBench b (fun x => { x with entry := none })
  (s.flushGo b).rest b

/-- Whether every Desk instruction and move of a context has completed (04 R122, 06 R191). With `queued`,
those that have not started count too. -/
def State.workDone (s : State) (b : Nat) (c : Ctx) : Bool :=
  (List.range 4).all (fun d =>
    let x := s.desk b d
    !x.queue.any (fun e => e.ctx == c) && !x.passes.any (fun p => p.ent.ctx == c) &&
      !x.drains.any (fun e => e.ctx == c) && !(match x.load with
        | some (_, e) => e.ctx == c
        | none => false)) &&
  !(s.bench b).moves.any (fun p => p.2.ctx == c)

/-- The running entry ends (04 R122). -/
def State.entryEnd (s : State) (b : Nat) : State :=
  (s.incWrap (A.benchDwlStat b) F.benchDwlStat.DONE 1).dwlRemove b

/-- Whether neither thread has issued for more than `IDLE` consecutive cycles (04 R120). -/
def State.dwlIdle (s : State) (b : Nat) : Bool :=
  decide (s.benchCyc b > (s.bench b).lastIssue + 1 + s.fld (A.benchDwl b) F.benchDwl.IDLE)

/-- Whether a thread waits in `DEFER`, on a full list or in the flush form (04 R120). -/
def State.dwlPressed (s : State) (b : Nat) : Bool :=
  [Ctx.F, Ctx.B].any (fun c => match (s.ctx b c).blk with
    | some (.defer _) => s.dwlCount b == 64
    | some .flush => true
    | _ => false)

/-- Whether the head entry may start (04 R120); its Bench must work, and its words and those of its tile table be readable
(05 R167). -/
def State.entryReady (s : State) (b : Nat) : Bool :=
  let a := A.benchDwlStat b
  let off := s.dwlOff b (s.fld a F.benchDwlStat.HEAD)
  let mask := bits (s.shelfNum b (off + 8) 8) 3 0
  let ttab := bits (s.shelfNum b (off + 72) 8) 21 0
  s.dwlCount b != 0 && !s.flag a F.benchDwlStat.RUNNING && !s.flag a F.benchDwlStat.FAULTED &&
    !s.flag (A.benchDwl b) F.benchDwl.HALT && (maskDesks mask).all (s.deskIdle b) &&
    !(s.bench b).takeover.isSome && !s.pendingAt b off 128 && !s.pendingAt b ttab 256 && s.rst.level == 0

/-- The head entry starts (04 R121): it borrows its Desks; an unusable `PROG` or `TTAB` stops the DWL context
with cause 0x13 before its first instruction. -/
def State.entryStart (s : State) (b : Nat) : State :=
  let a := A.benchDwlStat b
  let off := s.dwlOff b (s.fld a F.benchDwlStat.HEAD)
  let w (i : Nat) : Nat := s.shelfNum b (off + 8 * i) 8
  let prog := w 0
  let mask := bits (w 1) 3 0
  let ttab := bits (w 9) 21 0
  let bad := prog % 8 != 0 || ttab % 32 != 0 || decide (ttab + 256 > shelfSize)
  let regs := (List.range 7).map (fun i => (i + 1, BitVec.ofNat 64 (w (i + 2))))
  let tabs := if bad then [] else (List.range 8).map (fun i => (i, BitVec.ofNat 256 (s.shelfNum b (ttab + 32 * i) 32)))
  let s := s.modBench b (fun x => { x with entry := some ⟨off, mask, bits (w 1) 4 4, bits (w 1) 63 16⟩ })
  let s := s.modCtx b .D (fun x => { x with s := regs, t := tabs, pc := prog, blk := none, loads := [] })
  let s := s.setFld (A.benchLease b) F.benchLease.LENT mask
  let s := s.setFld a F.benchDwlStat.RUNNING 1
  let s := s.lendEnd b
  if bad then s.stopNow b .D 0x13 (some prog) else s

/-- The head entry starts if it may (04 R120). -/
def State.entryTry (s : State) (b : Nat) : State :=
  if s.entryReady b && (s.dwlIdle b || s.dwlPressed b) then s.entryStart b else s

/-- The checks of an entry image's offset: a multiple of 128 (04 R138). DESIGN CHOICE (log 24): one at or above 3 MiB,
where no Shelf byte lies, is refused in the same way, with cause 0x13. -/
def imageOk (off : Nat) : Bool := off % 128 == 0 && decide (off < shelfSize)

/-- `DEFER` (04 R119, R138): it pushes the image, or waits while the list holds 64 entries. -/
def execDefer (b : BenchNo) (c : Ctx) (rs : Fin 32) (rsv : BitVec 50) (s : State) : Out :=
  .next (s.issue b c { dwl := false, sregs := [rs.val], rsv := rsv.toNat } (fun s =>
    let image := (s.s b c rs).toNat
    if !imageOk image then s.illegal b c 0x13
    else if s.dwlCount b ≥ 64 then s.doneBlock b c (.defer image)
    else if s.pushPending b image then s.block b c .issue
    else (s.dwlPush b c image).done b c))

/-- `DEFER_PUSH`: a waiting `DEFER` performs its push (04 R119). -/
def execDeferPush (b : BenchNo) (t : Thr) (s : State) : Out :=
  .next (match (s.ctx b t.ctx).blk with
    | some (.defer image) =>
      if s.dwlCount b ≥ 64 || s.pushPending b image then s else (s.dwlPush b t.ctx image).wake b t.ctx
    | _ => s)

/-- The flush form of `DEFER` (04 R119): it waits until the list is empty and no entry runs. -/
def execDeferFlush (b : BenchNo) (c : Ctx) (rs : Fin 32) (rsv : BitVec 50) (s : State) : Out :=
  .next (s.issue b c { dwl := false, sregs := [rs.val], rsv := rsv.toNat } (fun s =>
    if s.dwlCount b = 0 && !s.flag (A.benchDwlStat b) F.benchDwlStat.RUNNING then s.done b c
    else s.doneBlock b c .flush))

/-- `DEND` (04 R122): the entry ends once all its Desk instructions and moves have completed. -/
def execDend (b : BenchNo) (c : Ctx) (rsv : BitVec 56) (s : State) : Out :=
  .next (s.issue b c { thread := false, rsv := rsv.toNat } (fun s =>
    if s.workDone b .D then (s.done b c).entryEnd b else s.doneBlock b c .dend))

/-- `DWL_ENTRY_END`: a waiting `DEND` completes (04 R122). -/
def execDwlEntryEnd (b : BenchNo) (s : State) : Out :=
  .next (if (s.ctx b .D).blk == some .dend && s.workDone b .D then s.entryEnd b else s)

/-- `DWL_IDLE_EXPIRY`: neither thread has issued for more than `IDLE` cycles, which lets the head entry start
(04 R120). -/
def execDwlIdleExpiry (b : BenchNo) (s : State) : Out :=
  .next (if s.dwlIdle b && s.entryReady b then s.entryStart b else s)

/-- `DWL_ENTRY_START` (04 R120, R121). -/
def execDwlEntryStart (b : BenchNo) (s : State) : Out := .next (s.entryTry b)

/-- The faulted entry is discarded (04 R123), and `RESUME` reads 0 again. -/
def State.dwlResume (s : State) (b : Nat) : State :=
  (if s.flag (A.benchDwlStat b) F.benchDwlStat.FAULTED then
    (s.setFld (A.benchDwlStat b) F.benchDwlStat.FAULTED 0).dwlRemove b
  else s).hwDone (A.benchDwl b) F.benchDwl.RESUME

/-- `RESUME` is set (04 R123, R146): once more in the cycle in which its action ended, it acts again (00 R7). -/
def State.setResume (s : State) (b : Nat) : State :=
  if s.hwCleared (A.benchDwl b) F.benchDwl.RESUME then s.swAgain (A.benchDwl b) F.benchDwl.RESUME else s.dwlResume b

/-- `DWL_RESUME` (04 R123). -/
def execDwlResume (b : BenchNo) (s : State) : Out := .next (s.setResume b)

/-! ### Threads -/

/-- `YIELD` (04 R116, R138): it releases the leases of the mask that the thread holds, and the other thread
has priority next. -/
def execYield (b : BenchNo) (c : Ctx) (mask : Fin 16) (rsv : BitVec 52) (s : State) : Out :=
  .next (s.issue b c { dwl := false, rsv := rsv.toNat } (fun s =>
    let s := (maskDesks mask).foldl (fun s d =>
      if s.code2 (A.benchLease b) F.benchLease.HOLD d == c.code then s.setCode2 (A.benchLease b) F.benchLease.HOLD d 0 else s) s
    (s.done b c).modBench b (fun x => { x with turn := otherThr c })))

/-- `STOP` (04 R105, R138): the thread stops with cause 0x01. -/
def execStop (b : BenchNo) (c : Ctx) (rsv : BitVec 56) (s : State) : Out :=
  .next (s.issue b c { dwl := false, rsv := rsv.toNat } (fun s => (s.done b c).stopNow b c 0x01 none))

/-- `START` is set (04 R104, R142): a STOPPED thread starts. In the cycle in which the thread left STOPPED the bit is set
again (00 R7). -/
def State.setStart (s : State) (b : Nat) (c : Ctx) : State :=
  let a := A.benchThr b c.idx
  if !s.live b c then s.start b c
  else if s.hwCleared a F.benchThr.START then s.swAgain a F.benchThr.START else s

/-- `THREAD_START`: `START` is set (04 R104, R142). -/
def execThreadStart (b : BenchNo) (t : Thr) (s : State) : Out := .next (s.setStart b t.ctx)

/-- A software stop (04 R105, R142): `STOP` reads 1 until the thread is STOPPED. -/
def State.stopRequest (s : State) (b : Nat) (c : Ctx) : State :=
  if s.live b c then (s.setFld (A.benchThr b c.idx) F.benchThr.STOP 1).stop b c 0x02 none else s

/-- `STOP` is set (04 R105, R142). While a stop is under way, or in the cycle in which the thread became STOPPED, the bit
set again reads 1 once the stop is complete, and acts again (00 R7). -/
def State.setStop (s : State) (b : Nat) (c : Ctx) : State :=
  let a := A.benchThr b c.idx
  if s.live b c then (if s.flag a F.benchThr.STOP then s.swWrote a F.benchThr.STOP else s.stopRequest b c)
  else if s.hwCleared a F.benchThr.STOP then s.swAgain a F.benchThr.STOP else s

/-- `THREAD_STOP_REQUEST`: `STOP` is set (04 R105, R142). -/
def execThreadStopRequest (b : BenchNo) (t : Thr) (s : State) : Out := .next (s.setStop b t.ctx)

/-- What software set again in a cycle, as hardware cleared it, acts again in the next (00 R7). -/
def State.runAgain (s : State) : State :=
  let l := s.cyc.again
  l.foldl (fun s p =>
    let b := (p.1 - regBase) / 0x10000
    let o := (p.1 - regBase) % 0x10000
    let s := s.wr p.1 (s.rd p.1 &&& ~~~p.2)
    if o = 0x60 then s.dwlResume b
    else
      let c : Ctx := if o = 0x10 then .F else .B
      let s := if p.2 &&& F.benchThr.STOP.mask != 0 then s.stopRequest b c else s
      if p.2 &&& F.benchThr.START.mask != 0 then s.start b c else s) (s.putCyc SameCycle.none)

/-- A write to a thread's PC takes effect only while it is STOPPED, or in the cycle of its start (04 R143). -/
def State.pcWrite (s : State) (b : Nat) (c : Ctx) (v : Word) : State :=
  if s.live b c && (s.ctx b c).begun != some s.pulse then s else s.setFld (A.benchPc b c.idx) F.benchPc.PC (v.toNat / 8)

/-- `BENCH_PC_WRITE` (04 R143). -/
def execBenchPcWrite (b : BenchNo) (t : Thr) (v : Word) (s : State) : Out := .next (s.pcWrite b t.ctx v)

/-- A line enters the instruction cache, which holds 1,024 lines of 64 B (04 R515), or its fetch failed. -/
def State.cacheFill (s : State) (b line : Nat) (good : Bool) : State :=
  s.modBench b (fun x =>
    if good then { x with icache := (line :: x.icache.filter (· != line)).take 1024, ifail := x.ifail.filter (· != line) }
    else { x with ifail := line :: x.ifail.filter (· != line) })

/-- Whether a context of the Bench waits for a line, or for the one before it (04 R515). -/
def State.lineWanted (s : State) (b line : Nat) : Bool :=
  [Ctx.F, Ctx.B, Ctx.D].any (fun c => s.live b c &&
    (let l := s.pc b c / 64 * 64
     l == line || l + 64 == line))

/-- `ICACHE_FILL_COMPLETE` (04 R515): the 64 B read of a line of this module returns. -/
def execIcacheFillComplete (b : BenchNo) (line : Word) (s : State) : Out :=
  let a := line.toNat / 64 * 64
  .next (if !s.isHere (modOf a) || !s.lineWanted b a || (s.bench b).icache.contains a || (s.bench b).ifail.contains a ||
      !s.memReady (localOf a) 64 || s.memPending (localOf a) 64 then s
    else
      let (s, _, ok, _) := s.memRead 0 (localOf a) 64
      s.cacheFill b a ok)

end Sys2Proof.Machine
end

