-- ==== Sys2Proof/Machine/SyncUnit.lean ====
section
/-!
DEFINITION. What a context of this module does with the sync table: fences, the ends of its waits, of its
layers, and the answers it receives (11 R325 to R334; 04 R134, R135; 06 R186 to R193).
-/
namespace Sys2Proof.Machine

/-! ### Fences (04 R135) -/

/-- Whether the Desks have performed what a fence waits for: every earlier load, A-row read and drain; a merge or a discard
is none of these (04 R135). -/
def State.desksQuiet (s : State) (b : Nat) (c : Ctx) : Bool :=
  (List.range 4).all (fun d =>
    let x := s.desk b d
    !x.passes.any (fun p => p.ent.ctx == c) && !x.drains.any (fun e => e.ctx == c) &&
      !(match x.load with
        | some (_, e) => e.ctx == c
        | none => false) &&
      !x.queue.any (fun e => e.ctx == c && (match e.op with
        | .discard .. => false
        | .merge .. => false
        | _ => true)))

/-- Whether every earlier merge of a context has committed its last row, which `LCOMMIT` waits for beside a fence's
conditions (06 R188). -/
def State.mergesDone (s : State) (b : Nat) (c : Ctx) : Bool :=
  (List.range 4).all (fun d => !(s.desk b d).queue.any (fun e => e.ctx == c && (match e.op with
    | .merge .. => true
    | _ => false)))

/-- Whether a move is complete as far as a scope is concerned (04 R135): into the Shelf wholly; out of it, in Bench and
module scope, once its source has been read and its writes within the module are made, and in domain scope once all its
writes are visible. -/
def moveQuiet (scope : Nat) (m : Move) : Bool := m.dir == 1 && decide (scope ≤ 1) && m.sent

/-- Whether the conditions of a fence of a scope hold: 0 Bench, 1 module, 2 domain (04 R135). A store to
another module concerns the domain scope alone, where it is visible once it has been answered. -/
def State.fenceMet (s : State) (b : Nat) (c : Ctx) (scope : Nat) : Bool :=
  let x := s.ctx b c
  x.loads.isEmpty && (scope != 2 || x.stores.isEmpty) && (s.bench b).moves.all (fun p => p.2.ctx != c || moveQuiet scope p.2) &&
    s.desksQuiet b c

/-! ### Waits and takes (04 R134; 11 R325 to R334) -/

/-- The number of a counter address with its module resolved, by which operations on one counter are told
(11 R327). -/
def State.cntKey (s : State) (a : Nat) : Nat :=
  (if s.isHere (cntModule a) then s.modnum else cntModule a) * 65536 + cntIndex a

/-- A `WAIT` ends in its context: `RD` is written and the context goes on; one that is being stopped stops
(04 R134; 11 R331, R333). -/
def State.endWait (s : State) (b : Nat) (c : Ctx) (rd : Nat) (v : Nat) : State := (s.setS b c rd (BitVec.ofNat 64 v)).wake b c

/-- A consumption is returned to its counter (11 R330, R333): at this module's table at once, at another's by
a SYNC transaction; a failure to send is event 0x51 with the address of the `WAIT`, or 0 where no context waits for it.
Answers whether the restore is on its way. -/
def State.giveBack (s : State) (m index amount : Nat) (who : Who) (pc : Nat) : State × Bool :=
  if s.isHere m then (s.restoreAt index amount s.modnum who, false)
  else
    let (s, failed) := s.submit m 5 who.bench who.ctx (.sync index who (.restore amount)) (.sync pc)
    if failed then (s.syncEvent 0x51 pc (m * 65536 + index) who 1 4, false) else (s, true)

/-- A stop that waited for an answer takes effect (04 R105, 11 R333; 06 R180). -/
def State.stopLate (s : State) (b : Nat) (c : Ctx) : State :=
  match (s.ctx b c).stopping with
  | some r => (match r.back with
      | some pc => s.setPc b c pc
      | none => s).stopNow b c r.cause r.faddr
  | none => s

/-- The result of a `WAIT` reaches its context (11 R325, R331, R333; 04 R134). A context that is being stopped first gives
back what its wait consumed: at another module's counter its stop completes when that restore is answered. -/
def State.waitResult (s : State) (b : Nat) (c : Ctx) (w : WaitSt) (r : WaitResult) : State :=
  if (s.ctx b c).stopping.isSome then
    let (s, away) := match r with
      | .satisfied _ =>
        if w.consume then s.giveBack (cntModule w.counter) (cntIndex w.counter) w.threshold (s.whoOf b c) (s.pc b c - 8)
        else (s, false)
      | _ => (s, false)
    if away then s.modCtx b c (fun x => { x with blk := some (.restore w.counter) }) else s.stopLate b c
  else match r with
    | .satisfied v => s.endWait b c w.rd v
    | .timeout v => (s.syncEvent 0x50 (s.pc b c - 8) w.counter (s.whoOf b c) 1 2).endWait b c w.rd (v + 2 ^ 32)
    | .discarded => s.endWait b c w.rd (2 ^ 32 + 2 ^ 33)

/-- A `WAIT` ends unsatisfied with zero (11 R333, R334). -/
def State.waitFailed (s : State) (b : Nat) (c : Ctx) (w : WaitSt) : State :=
  if (s.ctx b c).stopping.isSome then s.stopLate b c else s.endWait b c w.rd (2 ^ 32)

/-- The context and its `WAIT`, where an identity names one that waits on a counter, given by its key (11 R330). -/
def State.waiting (s : State) (key : Nat) (who : Who) : Option (Ctx × WaitSt) :=
  match Ctx.ofCode who.ctx with
  | none => none
  | some c =>
    if s.whoOf who.bench c == who then
      match (s.ctx who.bench c).blk with
      | some (.wait w) => if s.cntKey w.counter == key then some (c, w) else none
      | _ => none
    else none

/-- The context, where an identity names one as it is now. -/
def State.named (s : State) (who : Who) : Option Ctx :=
  match Ctx.ofCode who.ctx with
  | none => none
  | some c => if s.whoOf who.bench c == who then some c else none

/-- A wait's request is sent, for the first time or again after BUSY (11 R325, R329). -/
def State.sendWait (s : State) (b : Nat) (c : Ctx) (w : WaitSt) : State :=
  let who := s.whoOf b c
  let (s, failed) := s.syncSend w.counter who (.wait w.threshold w.consume w.tmo) (s.pc b c - 8)
  if failed then (s.syncEvent 0x51 (s.pc b c - 8) w.counter who 1 2).waitFailed b c w
  else
    let held := s.tmr.waitq.any (fun t => match t.req with
      | .sync _ x (.wait ..) => x == who
      | _ => false)
    s.modCtx b c (fun x => { x with blk := some (.wait { w with phase := if held then .due else .sent, phaseAt := s.pulse }) })

/-- A CANCEL is sent for a held wait (11 R333); one that fails at once counts as UNKNOWN. -/
def State.sendCancel (s : State) (b : Nat) (c : Ctx) (w : WaitSt) (back : Bool) : State :=
  let who := s.whoOf b c
  let (s, failed) := s.syncSend w.counter who .cancel (s.pc b c - 8)
  if failed then
    let s := s.syncEvent 0x51 (s.pc b c - 8) w.counter who 1 2
    if back then (s.syncEvent 0x50 (s.pc b c - 8) w.counter who 2 2).waitFailed b c w else s.stopLate b c
  else s.modCtx b c (fun x => { x with blk := some (.wait { w with phase := if back then .cancelBack else .cancelStop, phaseAt := s.pulse }) })

/-- A NOTIFY reaches the waiter's module (11 R328, R330): it completes the `WAIT` on that counter, or is discarded and a
consumption returned. While a stop's CANCEL is unanswered, it ends the stop in the same way. -/
def State.deliver (s : State) (home index : Nat) (who : Who) (r : WaitResult) (threshold : Nat) (consume : Bool) : State :=
  match s.waiting (s.cntKey (home * 65536 + index)) who with
  | some (c, w) => s.waitResult who.bench c w r
  | none =>
    match r with
    | .satisfied _ => if consume then (s.giveBack home index threshold who 0).1 else s
    | _ => s

/-- The answer to a wait's request (11 R325, R328, R329; 06 R185). -/
def State.waitAnswer (s : State) (key : Nat) (who : Who) (a : SyncAns) : State :=
  match s.waiting key who with
  | none => s
  | some (c, w) =>
    let b := who.bench
    if w.phase != .sent then s
    else match a with
      | .value v => s.waitResult b c w (.satisfied v)
      | .discarded => s.waitResult b c w .discarded
      | .held =>
        if (s.ctx b c).stopping.isSome then s.sendCancel b c w false
        else s.modCtx b c (fun x => { x with blk := some (.wait { w with phase := .held, phaseAt := s.pulse }) })
      | .busy =>
        if (s.ctx b c).stopping.isSome then s.stopLate b c
        else s.modCtx b c (fun x => { x with blk := some (.wait { w with phase := .busy, phaseAt := s.pulse }) })
      | _ => s

/-- The answer to a `TAKE` (04 R134; 06 R185; 11 R333): `RD` is written, and a stop that waited takes effect. -/
def State.takeAnswer (s : State) (who : Who) (a : SyncAns) : State :=
  match s.named who with
  | none => s
  | some c =>
    match (s.ctx who.bench c).blk with
    | some (.take rd _) =>
      let v := match a with
        | .value v => v
        | .discarded => 2 ^ 33
        | _ => 0
      ((s.setS who.bench c rd (BitVec.ofNat 64 v)).wake who.bench c).stopLate who.bench c
    | _ => s

/-- A signal has been answered (11 R327). -/
def State.sigAnswer (s : State) (who : Who) (key : Nat) : State :=
  match Ctx.ofCode who.ctx with
  | none => s
  | some c => s.modCtx who.bench c (fun x => { x with sigs := x.sigs.erase key })

/-- The answer to a CANCEL (11 R333). -/
def State.cancelAnswer (s : State) (key : Nat) (who : Who) (a : CancelAns) : State :=
  match s.waiting key who with
  | none => s
  | some (c, w) =>
    let b := who.bench
    match w.phase with
    | .cancelStop =>
      match a with
      | .satisfied r => s.waitResult b c w r
      | _ => s.stopLate b c
    | .cancelBack =>
      match a with
      | .satisfied r => s.waitResult b c w r
      | _ => (s.syncEvent 0x50 (s.pc b c - 8) w.counter who 2 2).waitFailed b c w
    | _ => s

/-- A restore that a stop waited for has been answered or has failed: the stop completes (11 R333, R334). -/
def State.restored (s : State) (who : Who) : State :=
  match s.named who with
  | none => s
  | some c => match (s.ctx who.bench c).blk with
    | some (.restore _) => s.stopLate who.bench c
    | _ => s

/-! ### Layers (06 R186 to R193) -/

/-- A layer opens (06 R186): its word, `LTAG`, `RUNG`, `LAD` and `ATTEMPT` are recorded, `LFLAGS` cleared. -/
def State.openLayer (s : State) (b : Nat) (c : Ctx) (word ltag rung lad attempt : Nat) (lost : Bool) : State :=
  let a := A.numLayer b c.idx
  let s := s.modCtx b c (fun x => { x with lgen := x.lgen + 1 })
  let s := s.setFld a F.numLayer.LTAG ltag
  let s := s.setFld a F.numLayer.ATTEMPT attempt
  let s := s.setFld a F.numLayer.RUNG rung
  let s := s.setFld a F.numLayer.LAD lad
  let s := s.setFld a F.numLayer.LFLAGS 0
  let s := s.setFld a F.numLayer.LOST lost.toNat
  let s := s.setFld a F.numLayer.WORD word
  (s.setFld a F.numLayer.OPEN 1).wake b c

/-- Event 0x15 (06 R197). -/
def State.lostEvent (s : State) (b : Nat) (c : Ctx) (word ltag : Nat) : State :=
  s.raise 0x15 (evSource 1 b) (leBytes 8 word ++ leBytes 2 (whoBits b c) ++ leBytes 2 ltag)

/-- The layer opens with `LOST` (06 R186), and a stop that waited takes effect (R191). -/
def State.openLost (s : State) (b : Nat) (c : Ctx) (word ltag rung lad : Nat) : State :=
  ((s.openLayer b c word ltag rung lad 0 true).lostEvent b c word ltag).stopLate b c

/-- The answer to an open request (06 R186, R191). -/
def State.openAnswer (s : State) (who : Who) (attempt : Nat) : State :=
  match s.named who with
  | none => s
  | some c =>
    match (s.ctx who.bench c).blk with
    | some (.lopen word ltag rung lad _) => (s.openLayer who.bench c word ltag rung lad attempt false).stopLate who.bench c
    | _ => s

/-- A participant's own TIMEOUT or STALE, with the fields of its open layer (06 R193). -/
def State.ownOutcome (s : State) (b : Nat) (c : Ctx) (out gen : Nat) : Word :=
  let a := A.numLayer b c.idx
  let r := s.fld a F.numLayer.RUNG
  outcomeWord out 0 r r (s.fld a F.numLayer.LTAG) gen

/-- `LCOMMIT` ends with an outcome word: `RD` is written, the layer closed, the context goes on (06 R188). -/
def State.endCommit (s : State) (b : Nat) (c : Ctx) (rd : Nat) (o : Word) : State :=
  let s := (s.setS b c rd o).setFld (A.numLayer b c.idx) F.numLayer.OPEN 0
  s.wake b c

/-- An outcome returns to a waiting `LCOMMIT` (06 R188, R193): STALE takes its fields from the participant. -/
def State.commitOutcome (s : State) (who : Who) (o : Word) : State :=
  match s.named who with
  | none => s
  | some c =>
    match (s.ctx who.bench c).blk with
    | some (.lcommit rd _ _ _) =>
      let o := if bits o.toNat 2 0 = 6 then s.ownOutcome who.bench c 6 (o.toNat / 2 ^ 32) else o
      s.endCommit who.bench c rd o
    | _ => s

/-- The arrival of an `LCOMMIT` is sent (06 R188). -/
def State.sendArrival (s : State) (b : Nat) (c : Ctx) (rd word n : Nat) : State :=
  let a := A.numLayer b c.idx
  let who := s.whoOf b c
  let (s, failed) := s.syncSend word who
    (.arrival (s.fld a F.numLayer.LFLAGS) n (s.fld a F.numLayer.ATTEMPT) s.syncDefault) (s.pc b c - 8)
  if failed then (s.syncEvent 0x51 (s.pc b c - 8) word who 1 7).endCommit b c rd (s.ownOutcome b c 5 0)
  else s.modCtx b c (fun x => { x with blk := some (.lcommit rd word n s.pulse) })

/-- A SYNC transaction of this module's requesters failed (11 R334): event 0x51, and the operation ends as
the rule says. `op` is the operation it carried. -/
def State.syncFailed (s : State) (pc counter : Nat) (who : Who) (op : SyncOp) (st : Status) : State :=
  let s := s.syncEvent 0x51 pc counter who st.code (syncOpCode op)
  match op with
  | .signal _ => s.sigAnswer who (s.cntKey counter)
  | .wait .. => match s.waiting (s.cntKey counter) who with
    | some (c, w) => s.waitFailed who.bench c w
    | none => s
  | .take _ => s.takeAnswer who .done
  | .restore _ => s.restored who
  | .cancel => s.cancelAnswer (s.cntKey counter) who .unknown
  | .openWord ltag rung lad => match s.named who with
    | some c => match (s.ctx who.bench c).blk with
      | some (.lopen word ..) => s.openLost who.bench c word ltag rung lad
      | _ => s
    | none => s
  | .arrival .. => match s.named who with
    | some c => match (s.ctx who.bench c).blk with
      | some (.lcommit rd ..) => s.endCommit who.bench c rd (s.ownOutcome who.bench c 5 0)
      | _ => s
    | none => s
  | _ => s

/-- A SYNC operation of this module's requesters has been answered. -/
def State.syncAnswered (s : State) (counter : Nat) (who : Who) (op : SyncOp) (a : SyncAns) : State :=
  match op with
  | .signal _ => s.sigAnswer who (s.cntKey counter)
  | .wait .. => s.waitAnswer (s.cntKey counter) who a
  | .take _ => s.takeAnswer who a
  | .restore _ => s.restored who
  | .cancel => match a with
    | .cancel r => s.cancelAnswer (s.cntKey counter) who r
    | _ => s
  | .openWord .. => match a with
    | .opened n => s.openAnswer who n
    | _ => s
  | .arrival .. => match a with
    | .outcome o => s.commitOutcome who o
    | _ => s
  | _ => s

/-- The address in event 0x51 of an operation of an identity (11 R340): that of the instruction which the context waits
in, and 0 for a unit. -/
def State.syncPc (s : State) (who : Who) : Nat :=
  match Ctx.ofCode who.ctx with
  | some c => s.pc who.bench c - 8
  | none => 0

/-- A clock crossing loses an answer of this module's own table on its way back: the operation fails with UE
(14 R407, 11 R334). -/
def State.answerLost (s : State) (index : Nat) (who : Who) (a : SyncAns) : State :=
  let blocked := match s.named who with
    | some c => (s.ctx who.bench c).blk
    | none => none
  let op : SyncOp := match a, blocked with
    | .cancel _, _ => .cancel
    | .opened _, _ => .openWord 0 0 0
    | .outcome _, _ => .arrival 0 0 0 0
    | .done, _ => .signal 0
    | _, some (.take ..) => .take 0
    | _, _ => .wait 0 false 0
  s.syncFailed (s.syncPc who) (s.modnum * 65536 + index) who op .ue

/-- A result kept for a NOTIFY that has been answered OK is dropped; of one that failed it is kept 10 ms
longer (11 R330). -/
def State.notified (s : State) (index home : Nat) (who : Who) (okay : Bool) : State :=
  let same (k : Kept) : Bool := k.waiter.index == index && k.waiter.home == home && k.waiter.who == who
  if okay then s.putSync { s.sync with kept := s.sync.kept.filter (fun k => !same k) }
  else s.putSync { s.sync with kept := s.sync.kept.map (fun k =>
    if same k then { k with failedAt := some s.pulse } else k) }

/-- A SYNCC arrives for an unanswered transaction (10 R297; 11 R328, R334). -/
def State.syncComplete (s : State) (t : Txn) (st : Status) (a : SyncAns) : State :=
  let s := s.retire t
  let s := if st = .ok then s else s.recordFail t st
  match t.req, t.owner with
  | .sync i who op, .sync pc =>
    let counter := match op with
      | .outcome _ => 0x3FFF0000 + i
      | _ => t.dest % 2 ^ 14 * 65536 + i
    if st = .ok then s.syncAnswered counter who op a else s.syncFailed pc counter who op st
  | .sync i who _, .notify _ _ =>
    let s := s.notified i t.dest who (st = .ok)
    if st = .ok then s else s.syncEvent 0x51 0 (0x3FFF0000 + i) who st.code 2
  | _, _ => s

end Sys2Proof.Machine
end

