-- ==== Sys2Proof/Machine/SyncInstr.lean ====
section
/-!
DEFINITION. The synchronisation, fence and numeric instructions, and what happens to them afterwards
(04 R133 to R137; 06 R186 to R192; 11 R327 to R339).
-/
namespace Sys2Proof.Machine

/-! ### Instructions -/

/-- `SIG` (04 R133; 11 R324, R327): it sends a signal and goes on; it waits at issue while an earlier operation
of the context on the same counter is unanswered. -/
def execSig (b : BenchNo) (c : Ctx) (rs : Fin 32) (inc : BitVec 8) (rsv : BitVec 43) (s : State) : Out :=
  .next (s.issue b c { sregs := [rs.val], rsv := rsv.toNat } (fun s =>
    let a := s.s b c rs
    if inc = 0 || !counterOk a then s.illegal b c 0x12
    else if (s.ctx b c).sigs.contains (s.cntKey a.toNat) then s.block b c .issue
    else
      let (s, failed) := s.syncSend a.toNat (s.whoOf b c) (.signal inc.toNat) (s.pc b c)
      let s := if failed then s.syncEvent 0x51 (s.pc b c) a.toNat (s.whoOf b c) 1 1
        else s.modCtx b c (fun x => { x with sigs := s.cntKey a.toNat :: x.sigs })
      s.done b c))

/-- `WAIT` (04 R133, R134; 11 R325 to R331). -/
def execWait (b : BenchNo) (c : Ctx) (rd rs rt : Fin 32) (consume : Bool) (tmo : BitVec 24) (rsv : BitVec 16)
    (s : State) : Out :=
  .next (s.issue b c { dwl := false, sregs := [rd.val, rs.val, rt.val], rsv := rsv.toNat } (fun s =>
    let a := s.s b c rs
    if !counterOk a then s.illegal b c 0x12
    else if (s.ctx b c).sigs.contains (s.cntKey a.toNat) then s.block b c .issue
    else
      let t := if tmo = 0 then s.syncDefault else tmo.toNat
      let s := s.modCtx b c (fun x => { x with waitNo := x.waitNo + 1 })
      let w : WaitSt := ⟨rd, a.toNat, (s.s b c rt).toNat % 2 ^ 32, consume, t, s.pulse, s.pulse, .due⟩
      (s.doneBlock b c (.wait w)).sendWait b c w))

/-- `TAKE` (04 R133, R134; 11 R324). -/
def execTake (b : BenchNo) (c : Ctx) (rd rs rt : Fin 32) (rsv : BitVec 41) (s : State) : Out :=
  .next (s.issue b c { dwl := false, sregs := [rd.val, rs.val, rt.val], rsv := rsv.toNat } (fun s =>
    let a := s.s b c rs
    if !counterOk a then s.illegal b c 0x12
    else if (s.ctx b c).sigs.contains (s.cntKey a.toNat) then s.block b c .issue
    else
      let s := s.modCtx b c (fun x => { x with waitNo := x.waitNo + 1 })
      let amount := (s.s b c rt).toNat % 2 ^ 32
      let pc := s.pc b c
      let s := s.doneBlock b c (.take rd a.toNat)
      let (s, failed) := s.syncSend a.toNat (s.whoOf b c) (.take amount) pc
      if failed then (s.syncEvent 0x51 pc a.toNat (s.whoOf b c) 1 3).takeAnswer (s.whoOf b c) .done else s))

/-- A fence of a scope (04 R135): it holds the context until its conditions hold. -/
def State.fenceIssue (s : State) (b : Nat) (c : Ctx) (scope rsv : Nat) : State :=
  s.issue b c { rsv := rsv } (fun s =>
    if s.fenceMet b c scope then s.done b c else s.doneBlock b c (.fence scope))

/-- `FENCE.B` (04 R135). -/
def execFenceB (b : BenchNo) (c : Ctx) (rsv : BitVec 56) (s : State) : Out := .next (s.fenceIssue b c 0 rsv.toNat)

/-- `FENCE.M` (04 R135). -/
def execFenceM (b : BenchNo) (c : Ctx) (rsv : BitVec 56) (s : State) : Out := .next (s.fenceIssue b c 1 rsv.toNat)

/-- `FENCE.D` (04 R135). -/
def execFenceD (b : BenchNo) (c : Ctx) (rsv : BitVec 56) (s : State) : Out := .next (s.fenceIssue b c 2 rsv.toNat)

/-- `FENCE_COMPLETE` (04 R135). -/
def execFenceComplete (b : BenchNo) (c : Ctx) (s : State) : Out :=
  .next (match (s.ctx b c).blk with
    | some (.fence scope) => if s.fenceMet b c scope then s.wake b c else s
    | _ => s)

/-- `LOPEN` (04 R136, R137; 06 R186). -/
def execLopen (b : BenchNo) (c : Ctx) (rs : Fin 32) (ltag : BitVec 16) (rung : Fin 4) (lad : Fin 2) (rsv : BitVec 32)
    (s : State) : Out :=
  .next (s.issue b c { dwl := false, sregs := [rs.val], rsv := rsv.toNat } (fun s =>
    let a := s.s b c rs
    if s.layerOpen b c then s.illegal b c 0x14
    else if !counterOk a || a.toNat % 4 != 0 || (lad.val == 1 && decide (rung.val > 2)) then s.illegal b c 0x12
    else
      let s := s.modCtx b c (fun x => { x with waitNo := x.waitNo + 1 })
      let pc := s.pc b c
      let s := s.doneBlock b c (.lopen a.toNat ltag.toNat rung lad s.pulse)
      let (s, failed) := s.syncSend a.toNat (s.whoOf b c) (.openWord ltag.toNat rung lad) pc
      if failed then (s.syncEvent 0x51 pc a.toNat (s.whoOf b c) 1 6).openLost b c a.toNat ltag.toNat rung lad else s))

/-- `LCOMMIT` (04 R136; 06 R188). -/
def execLcommit (b : BenchNo) (c : Ctx) (rd rs rt : Fin 32) (rsv : BitVec 41) (s : State) : Out :=
  .next (s.issue b c { dwl := false, sregs := [rd.val, rs.val, rt.val], rsv := rsv.toNat } (fun s =>
    let a := s.s b c rs
    let n := (s.s b c rt).toNat % 65536
    if n = 0 || !counterOk a then s.illegal b c 0x12
    else if !s.layerOpen b c then (s.setS b c rd (outcomeWord 7 0 0 0 0 0)).done b c
    else if s.flag (A.numLayer b c.idx) F.numLayer.LOST then
      ((s.setS b c rd (s.ownOutcome b c 5 0)).setFld (A.numLayer b c.idx) F.numLayer.OPEN 0).done b c
    else
      let s := s.modCtx b c (fun x => { x with waitNo := x.waitNo + 1 })
      s.doneBlock b c (.lcommitFence rd a.toNat n s.pulse)))

/-- `LCOMMIT_ARRIVAL_SEND` (06 R188): the domain fence holds and every pass and merge has committed. -/
def execLcommitArrivalSend (b : BenchNo) (t : Thr) (s : State) : Out :=
  .next (match (s.ctx b t.ctx).blk with
    | some (.lcommitFence rd word n _) =>
      if s.fenceMet b t.ctx 2 && s.mergesDone b t.ctx then s.sendArrival b t.ctx rd word n else s
    | _ => s)

/-- `FLAGR` (04 R136, R137). -/
def execFlagr (b : BenchNo) (c : Ctx) (rd : Fin 32) (u : Fin 8) (rsv1 : BitVec 15) (rsv2 : BitVec 33) (s : State) : Out :=
  .next (s.issue b c { dwl := false, sregs := [rd.val], rsv := rsv1.toNat + rsv2.toNat } (fun s =>
    if u.val ≥ 5 then s.illegal b c 0x12
    else (s.setS b c rd (s.rd (flagReg b u) &&& 15)).done b c))

/-- `FLAGC` (04 R136, R137; 06 R177): it clears the flags it names, but those that are raised in the same cycle (00 R7). -/
def execFlagc (b : BenchNo) (c : Ctx) (u : Fin 8) (clr : BitVec 4) (rsv1 : BitVec 20) (rsv2 : BitVec 29) (s : State) : Out :=
  .next (s.issue b c { dwl := false, rsv := rsv1.toNat + rsv2.toNat } (fun s =>
    if u.val ≥ 5 then s.illegal b c 0x12
    else (s.wr (flagReg b u) (s.rd (flagReg b u) &&& ~~~(clr.setWidth 64 &&& ~~~(FMap.getD s.cyc.set (flagReg b u) 0)))).done b c))

/-! ### Timeouts of a participant and of a waiter -/

/-- `LOPEN_TIMEOUT` (06 R186). -/
def execLopenTimeout (b : BenchNo) (t : Thr) (s : State) : Out :=
  .next (match (s.ctx b t.ctx).blk with
    | some (.lopen word ltag rung lad since) =>
      if s.reached since s.syncDefault then s.openLost b t.ctx word ltag rung lad else s
    | _ => s)

/-- `LCOMMIT_TIMEOUT` (06 R192, R193): an `LCOMMIT` that has waited at a word of this module longer than the
default timeout closes its attempt with TIMEOUT. One of this module whose word does not know it, because its
module was reset, ends by itself one millisecond later. -/
def execLcommitTimeout (w : Homed) (who : Who) (s : State) : Out :=
  .next (match s.sync.lwait.find? (fun x => x.word == w.index.toNat && x.home == w.home.toNat && x.who == who) with
    | some x => if x.deadline ≤ s.pulse then s.closeWord w.index.toNat 5 else s
    | none =>
      match s.named who with
      | none => s
      | some c => match (s.ctx who.bench c).blk with
        | some (.lcommit rd _ _ since) =>
          if s.reached since (s.syncDefault + 1000) then s.endCommit who.bench c rd (s.ownOutcome who.bench c 5 0) else s
        | _ => s)

/-- `LAYER_ABORT_ARRIVAL` (06 R191): once the thread's started work has completed. -/
def execLayerAbortArrival (b : BenchNo) (t : Thr) (s : State) : Out :=
  let c := t.ctx
  let a := A.numLayer b c.idx
  .next (match (s.ctx b c).abortDue with
    | none => s
    | some trap =>
      if !s.workDone b c then s
      else
        let word := s.fld a F.numLayer.WORD
        let who := s.whoOf b c
        let (s, failed) := s.syncSend word who (.abort (s.fld a F.numLayer.LFLAGS) (s.fld a F.numLayer.ATTEMPT) trap) (s.pc b c)
        let s := if failed then s.syncEvent 0x51 (s.pc b c) word who 1 7 else s
        (s.modCtx b c (fun x => { x with abortDue := none })).setFld a F.numLayer.OPEN 0)

/-- `LAYER_ABORT_TIMEOUT` (06 R189): an abort was counted, `EXPECT` is still 0, and the default timeout has
passed since. -/
def execLayerAbortTimeout (w : BitVec 16) (s : State) : Out :=
  let w := wordOf w.toNat
  .next (match FMap.get? s.sync.abortAt w with
    | some t => if s.armed w && s.lw w 1 lwExpect = 0 && s.reached t s.syncDefault then s.closeWord w 3 else s
    | none => s)

/-- `WAIT_BUSY_RETRY` (11 R329): a wait answered BUSY is sent again 2 µs later, until its timeout has passed
since issue; then it ends by timeout with reason 4. -/
def execWaitBusyRetry (b : BenchNo) (t : Thr) (s : State) : Out :=
  let c := t.ctx
  .next (match (s.ctx b c).blk with
    | some (.wait w) =>
      if w.phase != .busy then s
      else if s.reached w.issuedAt w.tmo then
        (s.syncEvent 0x50 (s.pc b c - 8) w.counter (s.whoOf b c) 4 2).waitFailed b c w
      else if s.reached w.phaseAt 2 then s.sendWait b c w else s
    | _ => s)

/-- `WAIT_QUOTA_TIMEOUT` (10 R312, 11 R331): a wait held at its source reaches its timeout before it is sent;
it ends with reason 4. -/
def execWaitQuotaTimeout (b : BenchNo) (t : Thr) (s : State) : Out :=
  let c := t.ctx
  .next (match (s.ctx b c).blk with
    | some (.wait w) =>
      if w.phase == .due && s.reached w.issuedAt w.tmo then
        let who := s.whoOf b c
        let s := s.putTmr { s.tmr with waitq := s.tmr.waitq.filter (fun t => match t.req with
          | .sync _ x (.wait ..) => x != who
          | _ => true) }
        (s.syncEvent 0x50 (s.pc b c - 8) w.counter who 4 2).waitFailed b c w
      else s
    | _ => s)

/-- `WAIT_BACKSTOP_EXPIRY` (11 R333): no NOTIFY by the deadline plus 1 ms. -/
def execWaitBackstopExpiry (b : BenchNo) (t : Thr) (s : State) : Out :=
  let c := t.ctx
  .next (match (s.ctx b c).blk with
    | some (.wait w) =>
      if w.phase == .held && s.reached w.phaseAt (w.tmo + 1000) then s.sendCancel b c w true else s
    | _ => s)

/-! ### The home of a counter -/

/-- A NOTIFY for a Bench that is moving to a spare is held (11 R328, 01 R23). -/
def State.syncHeld (s : State) (who : Who) (op : SyncOp) : Bool :=
  match op with
  | .notify .. => (s.bench who.bench).copying
  | _ => false

/-- A SYNC operation reaches the home of its counter (10 R299 to R302; 11 R328): one of this module's own
requesters from the list of those on their way; one of another module on a port in service (10 R294), once, its result
kept and sent again to a repetition; one for another module goes on (10 R291, R307). -/
def State.atHome (s : State) (v : Via) (index : Nat) (who : Who) (op : SyncOp) (perform : State → Nat → State × SyncAns) : State :=
  if s.isOwn v then
    if s.sync.inbox.contains (index, who, op) then
      let s := s.putSync { s.sync with inbox := s.sync.inbox.erase (index, who, op) }
      let (s, a) := perform s s.modnum
      s.putSync { s.sync with answers := s.sync.answers ++ [(index, who, a)] }
    else s
  else if !s.portUp v.port then s
  else if !s.forMe v then s.transit v (.req (.sync index who op))
  else
    let (s, r) := s.arrive v
    match r with
    | .stale => s
    | .again a => s.reply v (.syncc .ok a)
    | .fresh =>
      if s.syncHeld who op then s.putTmr { s.tmr with held := s.tmr.held ++ [.far v (.sync index who op)] }
      else
        let (s, a) := perform s v.src
        (s.performed v a).reply v (.syncc .ok a)

/-- A NOTIFY that was held reaches its Bench, once (11 R328, 10 R301). -/
def State.heldNotify (s : State) (v : Via) (index : Nat) (who : Who) (op : SyncOp) : State :=
  let done := match FMap.get? s.tmr.recv (flowNo v.src v.tc) with
    | some r => r.epoch == v.epoch && FMap.has r.done v.seq
    | none => false
  match op with
  | .notify r threshold consume _ =>
    let s := if done then s else (s.deliver v.src index who r threshold consume).performed v .done
    s.reply v (.syncc .ok .done)
  | _ => s

/-- `COUNTER_SIGNAL` (11 R324). -/
def execCounterSignal (v : Via) (i : BitVec 16) (who : Who) (inc : BitVec 32) (s : State) : Out :=
  .next (s.atHome v i.toNat who (.signal inc.toNat) (fun s m => (s.signalAt i.toNat inc.toNat m who, .done)))

/-- `COUNTER_WAIT` (11 R325, R328, R329). -/
def execCounterWait (v : Via) (i : BitVec 16) (who : Who) (threshold : BitVec 32) (consume : Bool) (tmo : BitVec 24)
    (s : State) : Out :=
  .next (s.atHome v i.toNat who (.wait threshold.toNat consume tmo.toNat)
    (fun s m => s.waitAt i.toNat threshold.toNat consume tmo.toNat m who))

/-- `COUNTER_TAKE` (11 R324). -/
def execCounterTake (v : Via) (i : BitVec 16) (who : Who) (amount : BitVec 32) (s : State) : Out :=
  .next (s.atHome v i.toNat who (.take amount.toNat) (fun s m => s.takeAt i.toNat amount.toNat m who))

/-- `COUNTER_RESTORE` (11 R324, R330, R333). -/
def execCounterRestore (v : Via) (i : BitVec 16) (who : Who) (amount : BitVec 32) (s : State) : Out :=
  .next (s.atHome v i.toNat who (.restore amount.toNat) (fun s m => (s.restoreAt i.toNat amount.toNat m who, .done)))

/-- `COUNTER_STORE` (11 R324, R342): a store of this module to a counter's value. -/
def execCounterStore (i : BitVec 16) (x : BitVec 32) (who : Who) (s : State) : Out :=
  .next (s.storeAt i.toNat x.toNat s.modnum who)

/-- `WAIT_CANCEL` (11 R333). -/
def execWaitCancel (v : Via) (i : BitVec 16) (who : Who) (s : State) : Out :=
  .next (s.atHome v i.toNat who .cancel (fun s m =>
    let (s, a) := s.cancelAt i.toNat m who
    (s, .cancel a)))

/-- `LAYER_OPEN_REQUEST` (06 R187). -/
def execLayerOpenRequest (v : Via) (i : BitVec 16) (who : Who) (ltag : BitVec 16) (rung : Fin 4) (lad : Fin 2) (s : State) : Out :=
  .next (s.atHome v i.toNat who (.openWord ltag.toNat rung lad) (fun s _ =>
    let (s, n) := s.openAt (wordOf i.toNat) ltag.toNat rung lad
    (s, .opened n)))

/-- `LAYER_ARRIVAL` (06 R189, R191): an arrival, or an abort arrival with or without the trap mark. -/
def execLayerArrival (v : Via) (i : BitVec 16) (who : Who) (op : SyncOp) (s : State) : Out :=
  .next (match op with
    | .arrival flags n attempt tmo => s.atHome v i.toNat who op (fun s m => s.arrivalAt (wordOf i.toNat) m who flags n attempt tmo)
    | .abort flags attempt trap => s.atHome v i.toNat who op (fun s _ => (s.abortAt (wordOf i.toNat) flags attempt trap, .done))
    | _ => s)

/-- `WAIT_DEADLINE_EXPIRY` (11 R331): the record of a waiter is removed, nothing is consumed, and a NOTIFY
carries the timeout and the value at expiry. -/
def execWaitDeadlineExpiry (r : Homed) (who : Who) (s : State) : Out :=
  .next (match s.sync.waiters.find? (fun x => x.index == r.index.toNat && x.home == r.home.toNat && x.who == who) with
    | some x => match x.deadline with
      | some d =>
        if d ≤ s.pulse then (s.putWaiters (s.sync.waiters.filter (· != x))).notify x (.timeout (s.counter r.index.toNat)) else s
      | none => s
    | none => s)

/-- `NOTIFY_RESULT_EXPIRY` (11 R330): the result kept for a waiter. -/
def execNotifyResultExpiry (r : Homed) (who : Who) (s : State) : Out :=
  .next (s.putSync { s.sync with kept := s.sync.kept.filter (fun k =>
    !(k.waiter.index == r.index.toNat && k.waiter.home == r.home.toNat && k.waiter.who == who && (match k.failedAt with
      | some t => s.reached t 10000
      | none => false))) })

/-! ### Answers -/

/-- An answer on its way from this module's own sync table reaches its issuer. -/
def State.localAnswer (s : State) (index : Nat) (who : Who) (a : SyncAns) : State :=
  let key := s.modnum * 65536 + index
  match a with
  | .opened n => s.openAnswer who n
  | .outcome o => s.commitOutcome who o
  | .cancel r => s.cancelAnswer key who r
  | .held => s.waitAnswer key who a
  | .busy => s.waitAnswer key who a
  | .done => s.sigAnswer who key
  | _ => if (s.waiting key who).isSome then s.waitAnswer key who a else s.takeAnswer who a

/-- A SYNCC arrives (10 R297, R302): from this module's own table the answer at position `seq` of those on
their way; from another module, on a port in service, the answer to an unanswered transaction; for another module it
goes on. -/
def State.syncResponse (s : State) (v : Via) (st : Status) (a : SyncAns) : State :=
  if s.isOwn v then
    match s.sync.answers[v.seq]? with
    | some (i, who, x) =>
      if x == a then (s.putSync { s.sync with answers := s.sync.answers.eraseIdx v.seq }).localAnswer i who a else s
    | none => s
  else if !s.portUp v.port then s
  else if !s.forMe v then s.transit v (.syncc st a)
  else match s.answered v with
    | some t => s.syncComplete t st a
    | none => s

/-- `SYNC_RESPONSE` (10 R297; 11 R325 to R334). -/
def execSyncResponse (v : Via) (st : Status) (a : SyncAns) (s : State) : Out := .next (s.syncResponse v st a)

/-- `LOPEN_ANSWER` (06 R186). -/
def execLopenAnswer (v : Via) (attempt : BitVec 8) (s : State) : Out := .next (s.syncResponse v .ok (.opened attempt.toNat))

/-- `CANCEL_ANSWER` (11 R333). -/
def execCancelAnswer (v : Via) (a : CancelAns) (s : State) : Out := .next (s.syncResponse v .ok (.cancel a))

/-- `LCOMMIT_OUTCOME` (06 R188, R190): the outcome word that the home of a layer flag word sends. -/
def execLcommitOutcome (v : Via) (i : BitVec 16) (who : Who) (o : Word) (s : State) : Out :=
  .next (if s.isOwn v then
      if s.sync.answers.contains (i.toNat, who, .outcome o) then
        (s.putSync { s.sync with answers := s.sync.answers.erase (i.toNat, who, .outcome o) }).commitOutcome who o
      else s
    else s.atHome v i.toNat who (.outcome o) (fun s _ => (s.commitOutcome who o, .done)))

/-- `NOTIFY` (11 R328, R330): the result of a completed record reaches the waiter's module. Within this module it stays
kept while the waiter's Bench moves to a spare (01 R23). -/
def execNotify (v : Via) (i : BitVec 16) (who : Who) (r : WaitResult) (threshold : BitVec 32) (consume : Bool) (s : State) : Out :=
  .next (if s.isOwn v then
      match s.sync.kept.find? (fun k => k.waiter.index == i.toNat && k.waiter.who == who && k.waiter.home == s.modnum &&
          k.result == r && !(s.bench who.bench).copying) with
      | some k => (s.putSync { s.sync with kept := s.sync.kept.erase k }).deliver s.modnum i.toNat who r k.waiter.threshold k.waiter.consume
      | none => s
    else s.atHome v i.toNat who (.notify r threshold.toNat consume i.toNat)
      (fun s m => (s.deliver m i.toNat who r threshold.toNat consume, .done)))

/-! ### Power lending (11 R338, R339) -/

/-- Whether a context rests for lending: STOPPED, or BLOCKED in `WAIT`, `LOPEN`, `LCOMMIT` or `TAKE`. -/
def State.resting (s : State) (b : Nat) (c : Ctx) : Bool := !s.live b c || (s.ctx b c).rests

/-- Whether the condition of R338 holds now. -/
def State.mayLend (s : State) (b : Nat) : Bool :=
  [Ctx.F, Ctx.B, Ctx.D].all (s.resting b) && !s.flag (A.benchDwlStat b) F.benchDwlStat.RUNNING &&
    !(s.entryReady b && (s.dwlIdle b || s.dwlPressed b)) && (List.range 4).all (s.deskIdle b)

/-- The Desks of a Bench run at full rate again, where they did not; the cycles at half rate, of at most 5 µs, are counted
(11 R339). -/
def State.lendFull (s : State) (b : Nat) : State :=
  let l := (s.bench b).lend
  if l.halfUntil.isNone then s
  else
    (s.incSat A.syncStat F.syncStat.SLOW (min (5 * usPulses) (s.benchCyc b - l.halfSince))).modBench b
      (fun x => { x with lend := { x.lend with halfUntil := none } })

/-- `LEND_START` (11 R338): the Desks are gated and the share goes to the pool; a Bench that is being taken over has no
Desks to lend (16 R451). -/
def execLendStart (b : BenchNo) (s : State) : Out :=
  let x := s.bench b
  .next (if s.flag A.syncLend F.syncLend.EN && !x.lend.lending && x.lend.ungateAt.isNone && x.takeover.isNone && s.mayLend b &&
      s.reached (max x.lend.since s.cycZero) (max 1 (s.fld A.syncLend F.syncLend.THRESH)) then
    ((s.lendFull b).modBench b (fun x => { x with lend := { x.lend with lending := true } })).setBit
      (A.syncLent (b / 64)) F.syncLent.LENT (b % 64) true
    else s)

/-- `DESK_UNGATE` (11 R339): 64 cycles after lending ends the Desks are usable; whether the pool can return
the full share at once is free, but that it cannot while the draw lies above a new cap (17 R478); where it cannot they
run at half rate for 5 µs. -/
def execDeskUngate (b : BenchNo) (s : State) : Out :=
  .next (match (s.bench b).lend.ungateAt with
    | some t =>
      if t ≤ s.benchCyc b then
        let (n, s) := s.draw 1
        let n := if s.pwr.falling then 1 else n
        s.modBench b (fun x => { x with lend := { x.lend with
          ungateAt := none
          halfUntil := if n = 1 then some (s.pulse + 5 * usPulses) else none
          halfSince := s.benchCyc b } })
      else s
    | none => s)

/-- `LEND_HALF_RATE_END` (11 R339): after 5 µs the Desks run at full rate. -/
def execLendHalfRateEnd (b : BenchNo) (s : State) : Out :=
  .next (match (s.bench b).lend.halfUntil with
    | some t => if t ≤ s.pulse then s.lendFull b else s
    | none => s)

end Sys2Proof.Machine
end

