-- ==== Sys2Proof/Machine/Timir.lean ====
section
/-!
DEFINITION. RD and WR transactions and their completions, resends and timeouts, flows, the route table and
the quotas (10 R295 to R312, R322).
-/
namespace Sys2Proof.Machine

/-- Whether a request describes a transaction (10 R295, R296): 1 to 256 bytes within one 256 B block. -/
def reqLegal : Req → Bool
  | .rd a n => decide (1 ≤ n) && decide (a % 256 + n ≤ 256) && decide (a < 2 ^ 50)
  | .wr a d be => decide (1 ≤ d.length) && decide (a % 256 + d.length ≤ 256) && decide (a < 2 ^ 50) && be.length == d.length
  | .sync .. => true

/-- A RD of another module is performed and answered (10 R290, R297), with whether a poisoned line was read (05 R159;
log 25). -/
def State.rdHere (s : State) (v : Via) (a n : Nat) : State :=
  match locOf a with
  | .reg _ => (s.incSat A.tmrStat F.tmrStat.REGDENY 1).reply v (.rdc .ok (leBytes n 0) false)
  | _ =>
    let (s, d, good, psn) := s.memRead 1 a n
    s.reply v (.rdc (if good then .ok else .ue) d psn)

/-- Whether a transaction has been performed already, by its receive context (10 R301). -/
def State.wasDone (s : State) (v : Via) : Bool :=
  match FMap.get? s.tmr.recv (flowNo v.src v.tc) with
  | some r => r.epoch == v.epoch && FMap.has r.done v.seq
  | none => false

/-- A WR of another module is performed, at most once, and answered (10 R290, R297, R301): with UE where it finds a
codeword uncorrectable (09 R272). -/
def State.wrHere (s : State) (v : Via) (a : Nat) (d : List Byte) (be : List Bool) : State :=
  if s.wasDone v then s.reply v (.wrc .ok)
  else
    let (s, ok) := match locOf a with
      | .reg _ => (s.incSat A.tmrStat F.tmrStat.REGDENY 1, true)
      | _ => s.memWriteOk 1 a (d.zip be)
    (s.performed v .done).reply v (.wrc (if ok then .ok else .ue))

/-- Whether the memory that a request names accepts it now (09 R267, 05 R167, 01 R23). -/
def State.accepts (s : State) (a n : Nat) : Bool := s.memReady a n && !s.memPending a n

/-- A transaction of another module is served, or held until its memory accepts it. -/
def State.serve (s : State) (v : Via) (q : Req) : State :=
  match q with
  | .rd a n => if s.accepts a n then s.rdHere v a n else s.putTmr { s.tmr with held := s.tmr.held ++ [.far v q] }
  | .wr a d be => if s.accepts a d.length then s.wrHere v a d be else s.putTmr { s.tmr with held := s.tmr.held ++ [.far v q] }
  | .sync i who op => if s.syncHeld who op then s.putTmr { s.tmr with held := s.tmr.held ++ [.far v q] } else s.heldNotify v i who op

/-- A RD or WR arrives (10 R291, R301, R302, R307): on a port in service; for another module it is forwarded;
for this one its receive context says whether it is performed, answered again, or discarded. -/
def State.requestIn (s : State) (v : Via) (q : Req) : State :=
  if !s.portUp v.port then s
  else if !s.forMe v then s.transit v (.req q)
  else
    let (s, how) := s.arrive v
    match how with
    | .stale => s
    | .fresh => s.serve v q
    | .again _ => match q with
      | .rd .. => s.serve v q
      | .wr .. => s.reply v (.wrc .ok)
      | .sync .. => s

/-- `TMR_RD` (10 R301). -/
def execTmrRd (v : Via) (addr n : Nat) (s : State) : Out :=
  if reqLegal (.rd addr n) then .next (s.requestIn v (.rd addr n)) else .fault .noSuchTransaction

/-- `TMR_WR` (10 R301). -/
def execTmrWr (v : Via) (addr : Nat) (data : Bytes) (be : List Bool) (s : State) : Out :=
  if reqLegal (.wr addr data be) then .next (s.requestIn v (.wr addr data be)) else .fault .noSuchTransaction

/-- A transaction of this module's requesters has completed or failed (10 R297, R312, R319): it leaves its
flow, a failure is recorded, and its requester goes on. -/
def State.txnEnd (s : State) (t : Txn) (st : Status) (data : List Byte) (psn : Bool) : State :=
  match t.owner with
  | .sync _ => s.syncComplete t st .done
  | .notify _ _ => s.syncComplete t st .done
  | _ =>
    let s := s.retire t
    let s := if st = .ok then s else s.recordFail t st
    let addr (q : Req) : Nat × Nat := match q with
      | .rd a n => (t.dest * 2 ^ 50 + a, n)
      | .wr a d _ => (t.dest * 2 ^ 50 + a, d.length)
      | .sync i _ _ => (i, 0)
    let (a, n) := addr t.req
    match t.owner with
    | .load b c => s.loadFar b c t st data psn
    | .store b c line => s.storeFar b c line t st
    | .fetch b _ line => s.cacheFill b line (st = .ok)
    | .moveRd b k => s.moveRdDone b k a n st data
    | .moveWr b k => s.moveWrDone b k a n st
    | .unit id => s.unitSettle id t.dest
    | _ => s

/-- A completion arrives (10 R297, R300, R302): for another module it is forwarded; one that answers no
transaction of this module, or one already failed, is discarded. -/
def State.completionIn (s : State) (v : Via) (body : Fab) (write : Bool) (st : Status) (data : List Byte)
    (psn : Bool) : State :=
  if !s.portUp v.port then s
  else if !s.forMe v then s.transit v body
  else match s.answered v with
    | none => s
    | some t => match t.req with
      | .rd .. => if write then s else s.txnEnd t st data psn
      | .wr .. => if write then s.txnEnd t st data psn else s
      | .sync .. => s

/-- `TMR_RDC` (10 R297). -/
def execTmrRdc (v : Via) (st : Status) (data : ReadData) (s : State) : Out :=
  .next (s.completionIn v (.rdc st data.bytes data.psn) false st data.bytes data.psn)

/-- `TMR_WRC` (10 R297). -/
def execTmrWrc (v : Via) (st : Status) (s : State) : Out := .next (s.completionIn v (.wrc st) true st [] false)

/-- Transactions that found no valid route when they were to be sent fail with NOROUTE (10 R305, R308). -/
def State.failDead (s : State) : State :=
  let l := s.tmr.dead
  if l.isEmpty then s
  else l.foldl (fun s k => match FMap.get? s.tmr.outst k with
    | some t => s.txnEnd t .noroute [] false
    | none => s) (s.putTmr { s.tmr with dead := [] })

/-- `TMR_RTO_EXPIRY` (10 R300): a transaction that has waited `RTO` µs since it was last sent is sent again
over a port chosen afresh, and after `RETRY` resends fails with TIMEOUT. One whose route is no longer valid fails with
NOROUTE (R305, R308). -/
def execTmrRtoExpiry (dest : BitVec 14) (tc : Fin 8) (seq : BitVec 24) (s : State) : Out :=
  .next (match FMap.get? s.tmr.outst (txnKey dest.toNat tc seq.toNat) with
    | none => s
    | some t =>
      if !s.reached t.sentAt (max 1 (s.fld A.tmrCtl F.tmrCtl.RTO)) then s
      else if t.tries < s.fld A.tmrCtl F.tmrCtl.RETRY then
        let t := { t with tries := t.tries + 1, sentAt := s.pulse }
        ((s.putTmr { s.tmr with outst := FMap.set s.tmr.outst (txnKey t.dest t.tc t.seq) t }).transmit t).failDead
      else
        (s.putTmr { s.tmr with noPort := s.tmr.noPort.filter (· != txnKey t.dest t.tc t.seq) }).txnEnd t .timeout [] false)

/-- `FLOW_IDLE_EXPIRY` (18 R495): a receive context that has received nothing for 1 s is unused. -/
def execFlowIdleExpiry (m : BitVec 14) (tc : Fin 8) (s : State) : Out :=
  .next (match FMap.get? s.tmr.recv (flowNo m.toNat tc) with
    | none => s
    | some r =>
      if s.reached r.lastAt 1000000 then s.putTmr { s.tmr with recv := FMap.del s.tmr.recv (flowNo m.toNat tc) } else s)

/-- Word 0 of a route entry is written: it is held (10 R304). -/
def State.rtWrite0 (s : State) (m : Nat) (v : Word) : State :=
  s.putTmr { s.tmr with rtHold := FMap.set s.tmr.rtHold m (v &&& F.tmrRt0.PRI.mask) }

/-- Word 1 of a route entry is written: it takes effect with the word 0 that is held (10 R304). -/
def State.rtWrite1 (s : State) (m : Nat) (v : Word) : State :=
  let s := match FMap.get? s.tmr.rtHold m with
    | some w => (s.wr (A.tmrRt0 m) w).putTmr { s.tmr with rtHold := FMap.del s.tmr.rtHold m }
    | none => s
  s.wr (A.tmrRt1 m) (v &&& (F.tmrRt1.VALID.mask ||| F.tmrRt1.ALT.mask))

/-- `TMR_RT_WRITE` (10 R304). -/
def execTmrRtWrite (m : BitVec 14) (v : Word) (s : State) : Out := .next (s.rtWrite1 m.toNat v)

/-- A quota is written (10 R312): transactions that wait are released as far as it allows. -/
def State.quotaWrite (s : State) (tc q : Nat) : State := (s.setFld (A.tmrTc tc) F.tmrTc.QUOTA q).release

/-- `TMR_QUOTA_WRITE` (10 R312). -/
def execTmrQuotaWrite (tc : Fin 8) (q : BitVec 16) (s : State) : Out := .next (s.quotaWrite tc q.toNat)

end Sys2Proof.Machine
end

