-- ==== Sys2Proof/Machine/Tallboy.lean ====
section
/-!
DEFINITION. The commands of the Tallboys: initialisation, accesses to a codeword, patrol scrub, row sparing
and layer remap, injections and settings (09).
-/
namespace Sys2Proof.Machine

/-- The codewords of a stack (09 R268, R274). -/
def stackCodewords : Nat := 1610612736

/-- The register block of a stack shows its sparing records (09 R275, R276, R286). The reserve in MiB is
rounded up to whole MiB (log 12). -/
def State.showSpared (s : State) (t : Nat) : State :=
  let x := s.stack t
  let s := s.setFld (A.tbyStat t) F.tbyStat.ROWS (min 0xFFFFFFFF (countTrue (fun r => !r.remap) x.spared))
  s.setFld (A.tbyStat t) F.tbyStat.RESERVE ((x.reserveRows + 511) / 512)

/-- A request to a codeword is served (09 R268 to R272, R279, R280). At or above 1,536 GiB, where no codeword lies, a read
answers zero and a write is ignored (R268, 00 R11). -/
def State.tbyServe (s : State) (cls ia n : Nat) (wr : Option (List Byte × List Bool)) : State :=
  match wr with
  | some (d, be) => if ia < viewSize then (s.tbyWrite cls ia (d.zip be)).1 else s
  | none =>
    if ia < viewSize then
      let (s, good) := s.cwRead (cwOf ia) cls
      s.send (.tallboy (stackOf ia) ia (if good then s.mem.read ia n else leBytes n 0) good)
    else s.send (.tallboy (stackOf ia) ia (leBytes n 0) true)

/-! ### Bandwidth shares (09 R283, R284) -/

/-- A request that waits for a controller: its stack, requester class and length in units of 64 B; none for a request that
waits for something else. The host's requests keep an order of their own (15 R422). -/
def tbyWaits : Held → Option (Nat × Nat × Nat)
  | .tby cls ia n _ => some (stackOf ia, cls, (cwsOf ia n).length)
  | .far _ (.rd a n) => match locOf a with
    | .tby ia => some (stackOf ia, 1, (cwsOf ia n).length)
    | _ => none
  | .far _ (.wr a d _) => match locOf a with
    | .tby ia => some (stackOf ia, 1, (cwsOf ia d.length).length)
    | _ => none
  | _ => none

/-- The class of a request that waits for a controller. -/
def waitClass (h : Held) : Nat := match tbyWaits h with
  | some (_, c, _) => c
  | none => 8

/-- The length of a request that waits for a controller. -/
def waitUnits (h : Held) : Nat := match tbyWaits h with
  | some (_, _, n) => n
  | none => 0

/-- The weight of a requester class at a stack (09 R286). -/
def State.qosWeight (s : State) (t c : Nat) : Nat := bits (s.rd (A.tbyQos t)).toNat (4 * c + 3) (4 * c)

/-- A round begins: each of the six classes that waits is given 16 units times its weight beside what it carries
(09 R283, R284). DESIGN CHOICE (log 4): a class that has nothing waiting carries nothing. -/
def State.qosRound (s : State) (t : Nat) (q : List Held) : State :=
  s.modStack t (fun x => { x with deficit := (List.range 6).foldl (fun m c =>
    if q.any (fun h => waitClass h == c) then FMap.set m c (FMap.getD m c 0 + 16 * s.qosWeight t c) else FMap.del m c) x.deficit })

/-- The request that a controller serves next, if the round lets it serve one (09 R283): the Hutch firmware has no class
and waits for none (R279); the seventh class, scrub and copies, has one unit in every 64; of the six classes the lowest
whose deficit covers its oldest request; one of weight 0 where no other waits. -/
def State.qosNext (s : State) (t : Nat) (q : List Held) : Option Held :=
  let x := s.stack t
  let first (c : Nat) : Option Held := q.find? (fun h => waitClass h == c)
  let fair := (List.range 6).findSome? (fun c => (first c).filter (fun h => decide (waitUnits h ≤ FMap.getD x.deficit c 0)))
  let lone := q.find? (fun h => decide (waitClass h < 6))
  let share := fair.or (if q.any (fun h => decide (waitClass h < 6) && s.qosWeight t (waitClass h) != 0) then none else lone)
  match first 7, first 6 with
  | some h, _ => some h
  | none, some h => if x.units ≥ 63 || lone.isNone then some h else share
  | none, none => share

/-- A request is charged to its class. -/
def State.qosCharge (s : State) (t : Nat) (h : Held) : State :=
  s.modStack t (fun x =>
    if waitClass h = 6 then { x with units := 0 }
    else { x with
      units := min 63 (x.units + waitUnits h)
      deficit := if waitClass h < 6 then FMap.set x.deficit (waitClass h) (FMap.getD x.deficit (waitClass h) 0 - waitUnits h) else x.deficit })

/-- A request that was held is served, or held again. -/
def State.serveOne (s : State) (h : Held) : State :=
  let keep (s : State) : State := s.putTmr { s.tmr with held := s.tmr.held ++ [h] }
  match h with
  | .far v r => s.serve v r
  | .hostRd .. => keep s
  | .hostWr .. => keep s
  | .regWr .. => keep s
  | .tby cls ia n wr => if s.tbyReady (stackOf ia) then s.tbyServe cls ia n wr else keep s

/-- A controller serves the requests that wait for it by deficit round robin (09 R283): each step serves one, or begins a
round, which lets one be served. -/
def State.qosServe (t : Nat) : Nat → List Held → State → State
  | 0, q, s => q.foldl State.serveOne s
  | _ + 1, [], s => s
  | k + 1, q, s =>
    match s.qosNext t q with
    | some h => State.qosServe t k (q.erase h) ((s.qosCharge t h).serveOne h)
    | none => State.qosServe t k q (s.qosRound t q)

/-- Whether a request waits for a controller that accepts it now. -/
def State.qosReady (s : State) (h : Held) : Bool :=
  match h with
  | .far _ (.rd a n) => s.accepts a n
  | .far _ (.wr a d _) => s.accepts a d.length
  | .tby _ ia _ _ => s.tbyReady (stackOf ia)
  | _ => false

/-- The accesses that were held and that their memory accepts now are performed: those that wait for a Tallboy in the order
of its controller (09 R267, R283), the others in the order of their arrival (05 R167, 01 R23); those of the host keep an
order of their own (15 R422) and stay, and so do writes of registers. -/
def State.serveHeld (s : State) : State :=
  let q := s.tmr.held
  if q.isEmpty then s
  else
    let (ready, rest) := q.partition (fun h => (tbyWaits h).isSome && s.qosReady h)
    let s := rest.foldl State.serveOne (s.putTmr { s.tmr with held := [] })
    (List.range 16).foldl (fun s t =>
      let l := ready.filter (fun h => (tbyWaits h).any (fun p => p.1 == t))
      State.qosServe t (2 * l.length) l s) s

/-! ### Initialisation, accesses and scrub -/

/-- The time of the scrub: `pulse` in 1/1,610,612,736 of a pulse. -/
def State.scrubNow (s : State) : Nat := s.pulse * stackCodewords

/-- The interval between two scrub reads (09 R274): `PERIOD` hours, of which 0 acts as 1, over all codewords. -/
def State.scrubStep (s : State) (t : Nat) : Nat := max 1 (s.fld (A.tbyScrub t) F.tbyScrub.PERIOD) * 3600 * 1000 * msPulses

/-- `TBY_INIT_COMPLETE` (09 R267): every codeword holds zeros and valid check symbols, and the accesses that
were held proceed. -/
def execTbyInitComplete (t : Stack) (s : State) : Out :=
  .next (if s.flag (A.tbyStat t) F.tbyStat.INIT then s
    else
      let s := s.putMem (s.mem.filter (fun c => decide (viewSize ≤ c.1) || stackOf c.1 != t.val))
      let s := s.modStack t (fun x => { x with ue := [], upsets := [], scrubAt := s.scrubNow })
      (s.setFld (A.tbyStat t) F.tbyStat.INIT 1).serveHeld)

/-- `TBY_ACCESS` (09 R269 to R272, R279, R280): a read or a write of bytes of one codeword by a requester
class. `flips` are the errors that have struck stored codewords since (log 12). Until the stack accepts accesses they are
held (R267). -/
def execTbyAccess (cls : Fin 8) (ia : Nat) (n : Nat) (wr : Option (Bytes × List Bool)) (flips : List (Nat × Nat × Nat)) (s : State) : Out :=
  if n = 0 || ia % 64 + n > 64 ||
      (match wr with
       | some (d, be) => d.length != n || be.length != n
       | none => false) then .fault .noSuchTransaction
  else
    let s := s.strike flips
    if decide (ia < viewSize) && !s.tbyReady (stackOf ia) then .next (s.putTmr { s.tmr with held := s.tmr.held ++ [.tby cls ia n wr] })
    else .next (s.tbyServe cls ia n wr)

/-- `TBY_SCRUB_READ` (09 R274): the next codeword in ascending index, once its time in the period has come; a pass that
ends is counted, and the counts of corrected codewords by row begin again. -/
def execTbyScrubRead (t : Stack) (flips : List (Nat × Nat × Nat)) (s : State) : Out :=
  let s := s.strike flips
  let due := (s.stack t).scrubAt + s.scrubStep t
  .next (if !s.flag (A.tbyScrub t) F.tbyScrub.EN || !s.tbyReady t || decide (s.scrubNow < due) then s
    else
      let i := (s.stack t).scrub
      let (s, _) := s.cwRead (viewOf t (i * 64)) 6
      let s := s.modStack t (fun x => { x with scrubAt := if s.scrubNow < due + s.scrubStep t then due else s.scrubNow })
      if i + 1 < stackCodewords then s.modStack t (fun x => { x with scrub := i + 1 })
      else (s.modStack t (fun x => { x with scrub := 0, ceCw := [] })).incWrap (A.tbyScrub t) F.tbyScrub.PASSES 1)

/-! ### Row sparing and layer remap -/

/-- The reads of a copy (09 R275, R276), of class 6: of the codewords at places that are copied, those that hold an error, or
were found uncorrectable, are decoded and reported, and so is the one that led to the copy; the others read good, which
changes nothing. -/
def State.copyReads (s : State) (t cw : Nat) (at' : Nat × Nat → Bool) : State :=
  let x := s.stack t
  let l := (cw :: (x.upsets.map (·.1) ++ x.ue)).eraseDups.filter (fun cw => at' (s.placeOf cw))
  l.foldl (fun s cw => (s.cwRead cw 6).1) s

/-- A layer whose spared rows exceed `DIETH` is remapped, once in a stack; a second such layer is reported
with kind 6 (09 R276). `pc` is the pseudo-channel that held the codeword. -/
def State.remapCheck (s : State) (t cw layer pc : Nat) : State :=
  let x := s.stack t
  let n := countTrue (fun r => !r.remap && r.layer == layer) x.spared
  if n ≤ s.fld (A.tbySpare t) F.tbySpare.DIETH then s
  else if s.fld (A.tbyStat t) F.tbyStat.REMAP = 0 then
    let s := s.setFld (A.tbyStat t) F.tbyStat.REMAP 1
    let s := s.setFld (A.tbyStat t) F.tbyStat.RLAYER layer
    let s := s.modStack t (fun x => { x with remapBy := some (layer, cw, pc) })
    (s.tbyEvent t cw 8 layer pc 6).reserveCheck t layer pc 6
  else if s.fld (A.tbyStat t) F.tbyStat.RLAYER = layer || x.noRemap then s
  else (s.modStack t (fun x => { x with noRemap := true })).tbyEvent t 0 6 layer pc 6

/-- `TBY_ROW_SPARE_COMPLETE` (09 R275): the row has been copied; its record is kept, also in the retirement record (R278);
event of kind 7, with the place that held the codeword (R266). -/
def execTbyRowSpareComplete (t : Stack) (s : State) : Out :=
  .next (match (s.stack t).copying with
    | [] => s
    | (cw, r) :: _ =>
      let old : Nat × Nat := (r.layer, r.row)
      let s := s.copyReads t cw (fun p => p == old)
      let s := s.tbyEvent t cw 7 r.layer (r.row % 32) 6
      let s := s.modStack t (fun x => { x with
        copying := x.copying.erase (cw, r)
        ceCw := x.ceCw.filter (fun c => s.placeOf c != old)
        spared := x.spared ++ [r] })
      ((s.showSpared t).remapCheck t cw r.layer (r.row % 32)).health)

/-- `TBY_REMAP_COMPLETE` (09 R276, R278): the layer has been copied; `REMAP` reads 2; event of kind 9. -/
def execTbyRemapComplete (t : Stack) (s : State) : Out :=
  .next (match (s.stack t).remapBy with
    | none => s
    | some (layer, cw, pc) =>
      let s := s.copyReads t cw (fun p => p.1 == layer)
      let s := s.setFld (A.tbyStat t) F.tbyStat.REMAP 2
      let s := s.modStack t (fun x => { x with remapBy := none, spared := x.spared ++ [⟨layer, 0, true, 0, 0⟩] })
      (((s.showSpared t).tbyEvent t cw 9 layer pc 6).reserveCheck t layer pc 6).health)

/-- `TBY_CTL.CLR_CNT` (09 R286). -/
def State.tbyClear (s : State) (t : Nat) : State := s.wr (A.tbyEcc t) 0

/-- `TBY_CLR_CNT` (09 R286). -/
def execTbyClrCnt (t : Stack) (s : State) : Out := .next (s.tbyClear t)

/-- `TBY_INJ_UE` (09 R286). -/
def execTbyInjUe (t : Stack) (s : State) : Out := .next (s.modStack t (fun x => { x with injUe := true }))

/-- `TBY_INJ_CE` (09 R286). -/
def execTbyInjCe (t : Stack) (s : State) : Out := .next (s.modStack t (fun x => { x with injCe := true }))

/-- `TBY_STAGE_WRITE` (09 R281). -/
def execTbyStageWrite (x : Fin 4) (s : State) : Out := .next (s.stageClaim x)

/-- `TBY_QOS_WRITE` (09 R284): the weights, which the next round reads; deficits are kept. -/
def execTbyQosWrite (t : Stack) (v : BitVec 24) (s : State) : Out := .next (s.wr (A.tbyQos t) (v.setWidth 64))

end Sys2Proof.Machine
end

