-- ==== Sys2Proof/Machine/Clock.lean ====
section
/-!
DEFINITION. The commands of the clocks and of global time: crystals, trim, frequency changes, PTP, PPS, the
servo's timers and the software set (14).
-/
namespace Sys2Proof.Machine

/-! ### Clocks (14 R400 to R407) -/

/-- The PLLs that a crystal feeds, by their bits of `CLK_STAT.LOCK` (14 R420): XB feeds PCIE, XA the others. -/
def pllsOf (xb : Bool) : List Nat := if xb then [4] else [0, 1, 2, 3, 5]

/-- A PLL loses lock, and has it again within 100 µs (14 R400); when is free (log 2). -/
def State.relock (s : State) (n : Nat) : State :=
  let (k, s) := s.draw (100 * usPulses)
  (s.setBit A.clkStat F.clkStat.LOCK n false).putClk { s.clk with relockAt := FMap.set s.clk.relockAt n (s.pulse + k) }

/-- `CRYSTAL_FAILURE` (14 R400): XA or XB failed; its PLLs switch to the fast oscillator and relock; event 0x71. -/
def execCrystalFailure (xb : Bool) (s : State) : Out :=
  let f := if xb then F.clkStat.XB_FAIL else F.clkStat.XA_FAIL
  .next (if s.flag A.clkStat f then s
    else
      let s := (pllsOf xb).foldl (fun s n => s.relock n) (s.setFld A.clkStat f 1).retrim
      let s := s.raise 0x71 (evSource 6 0) [if xb then 2 else 1, BitVec.ofNat 8 (s.fld A.clkTrim F.clkTrim.SRC)]
      s.health)

/-- `CLK_TRIM_SETTLED` (14 R402): the error lies within ±1 ppm of the source; its value is free (log 3). -/
def execClkTrimSettled (s : State) : Out :=
  .next (if s.fld A.clkTrim F.clkTrim.SRC = 0 || s.flag A.clkTrim F.clkTrim.SETTLED then s
    else
      let (e, s) := s.draw 200
      let s := s.setFld A.clkTrim F.clkTrim.ERR (toBits 16 ((e : Int) - 100))
      s.setFld A.clkTrim F.clkTrim.SETTLED 1)

/-- FAB as it is taken (14 R420): the nearest step of 50 MHz below, within 500 to 1,000. -/
def fabTaken (f : Nat) : Nat := max 500 (min 1000 (f / 50 * 50))

/-- A write of `CLK_FREQ` (14 R405): a change starts where FAB or MEM changes, and its PLL loses lock; during a change the
write waits. A MEM of 3 is ignored. -/
def State.freqWrite (s : State) (v : Word) : State :=
  if s.flag A.clkStat F.clkStat.FCHG then s.putClk { s.clk with freqNext := s.clk.freqNext ++ [v] }
  else
    let fab := fabTaken (getFld v F.clkFreq.FAB)
    let m := getFld v F.clkFreq.MEM
    let mem := if m = 3 then s.fld A.clkFreq F.clkFreq.MEM else m
    if s.fld A.clkFreq F.clkFreq.FAB = fab ∧ s.fld A.clkFreq F.clkFreq.MEM = mem then s
    else
      let df := s.fld A.clkFreq F.clkFreq.FAB != fab
      let dm := s.fld A.clkFreq F.clkFreq.MEM != mem
      let s := s.setFld A.clkFreq F.clkFreq.FAB fab
      let s := s.setFld A.clkFreq F.clkFreq.MEM mem
      let s := s.putClk { s.clk with chg := df.toNat + 2 * dm.toNat }
      let s := if df then s.setBit A.clkStat F.clkStat.LOCK 1 false else s
      let s := if dm then s.setBit A.clkStat F.clkStat.LOCK 2 false else s
      s.setFld A.clkStat F.clkStat.FCHG 1

/-- `CLK_FREQ_WRITE` (14 R405). -/
def execClkFreqWrite (v : Word) (s : State) : Out := .next (s.freqWrite v)

/-- `FREQ_CHANGE_COMPLETE` (14 R405): the PLLs have relocked and the traffic held resumes; the writes that waited are
applied in their order, up to one that starts a change of its own. -/
def execFreqChangeComplete (s : State) : Out :=
  .next (if !s.flag A.clkStat F.clkStat.FCHG then s
    else
      let s := s.setFld A.clkStat F.clkStat.FCHG 0
      let s := if s.clk.chg.testBit 0 then s.setBit A.clkStat F.clkStat.LOCK 1 true else s
      let s := if s.clk.chg.testBit 1 then s.setBit A.clkStat F.clkStat.LOCK 2 true else s
      let l := s.clk.freqNext
      let s := (s.putClk { s.clk with chg := 0, freqNext := [] }).release.serveHeld
      l.foldl (fun s v => s.freqWrite v) s)

/-- MEM in MHz (14 R420). -/
def State.memMhz (s : State) : Nat :=
  match s.fld A.clkFreq F.clkFreq.MEM with
  | 0 => 1500 | 1 => 1250 | _ => 1000

/-- Whether a setting lies outside the ratio limits of a crossing, 1 or 2 (14 R406). -/
def State.ratioBad (s : State) (x : Nat) : Bool :=
  let fab := s.fld A.clkFreq F.clkFreq.FAB
  if x = 1 then decide (fab < 800) || decide (fab * 2 > 800 * 3)
  else decide (s.memMhz < fab) || decide (s.memMhz > 2 * fab)

/-- The access that an overrun displaced completes with status UE (14 R407). -/
def State.overrun (s : State) (v : Victim) : State :=
  match v with
  | .txn d tc seq => match FMap.get? s.tmr.outst (txnKey d tc seq) with
    | some t => s.txnEnd t .ue [] false
    | none => s
  | .load b c rd => match s.nearLoad b c rd with
    | some l => ((s.loadGone b c l).setS b c rd 0).accessFailed b c l.addr .ue (s.tcFor c.idx s.modnum)
    | none => s
  | .move b i a => s.moveLost b i a
  | .access cls a => s.putLost (s.lost ++ [(cls.val, a)])
  | .sync i who op => if s.sync.inbox.contains (i, who, op) then
      (s.putSync { s.sync with inbox := s.sync.inbox.erase (i, who, op) }).syncFailed
        (s.syncPc who) (s.modnum * 65536 + i) who op .ue
    else s
  | .answer k => match s.sync.answers[k]? with
    | some (i, who, x) => (s.putSync { s.sync with answers := s.sync.answers.eraseIdx k }).answerLost i who x
    | none => s
  | .other => s

/-- `CROSSING_OVERRUN` (14 R407): only a setting outside the limits overruns. -/
def execCrossingOverrun (second : Bool) (cdie : Fin 8) (v : Victim) (s : State) : Out :=
  let x := if second then 2 else 1
  .next (if !s.ratioBad x then s
    else
      let s := s.overrun v
      let s := s.incSat A.clkXovr F.clkXovr.COUNT 1
      let s := s.setFld A.clkXovr F.clkXovr.LAST x
      s.raise 0x70 (evSource 6 0) [BitVec.ofNat 8 x, BitVec.ofNat 8 cdie])

/-! ### PTP (14 R411, R412) -/

/-- What this module announces: its grandmaster and the steps to it (14 R411). -/
def State.announced (s : State) : Gm × Nat :=
  match s.gt.slave.bind (FMap.get? s.gt.masters) with
  | some m => (m.gm, m.steps + 1)
  | none => (s.ownGm, 0)

/-- Whether a port is in master state (14 R411): it takes part, is not the slave port, and hears no better
master than this module announces. -/
def State.ptpMaster (s : State) (p : Nat) : Bool :=
  s.ptpOn p && s.gt.slave != some p &&
    (match FMap.get? s.gt.masters p with
     | none => true
     | some m =>
       let (g, n) := s.announced
       masterLt (p, ⟨g, n, ⟨s.ptpId, p + 1⟩, 0⟩) (p, m))

/-- Whether a message is taken on a port: PTP is enabled, the port is up and the domain is this module's. -/
def State.ptpTakes (s : State) (p : Nat) (m : PtpMsg) : Bool :=
  s.ptpOn p && m.domain == s.fld A.gtPtp F.gtPtp.DOMAIN

/-- Whether a message comes from the master that the slave port follows. -/
def State.fromParent (s : State) (p : Nat) (m : PtpMsg) : Bool :=
  s.ptpTakes p m && s.gt.slave == some p &&
    (match FMap.get? s.gt.masters p with
     | some x => x.sender == m.sender
     | none => false)

/-- `ANNOUNCE` (14 R411). -/
def execAnnounce (p : PortNo) (m : PtpMsg) (s : State) : Out :=
  .next (match m.body with
    | .announce gm steps =>
      if !s.ptpTakes p m || m.sender.clock == s.ptpId || decide (steps ≥ 255) then s
      else
        let new : Master := ⟨gm, steps, m.sender, s.pulse⟩
        let keep := match FMap.get? s.gt.masters p with
          | none => true
          | some old => old.sender == m.sender || masterLt (p, new) (p, old)
        (if keep then s.putGt { s.gt with masters := FMap.set s.gt.masters p new } else s).bmca
    | _ => s)

/-- `SYNC` (14 R411, R412): it is timestamped on the slave port; a one-step Sync carries its own time. -/
def execSync (p : PortAt) (m : PtpMsg) (s : State) : Out :=
  .next (match m.body with
    | .sync two origin corr =>
      if !s.fromParent p.port m then s
      else s.setPtp p.port { s.ptp p.port with
        t2 := some (m.seq, s.rxStamp p.port p.ph - corr)
        t1 := if two then none else some ((origin : Int) * 65536) }
    | _ => s)

/-- `FOLLOW_UP` (14 R411): the transmit time of the Sync with the same number. -/
def execFollowUp (p : PortNo) (m : PtpMsg) (s : State) : Out :=
  .next (match m.body with
    | .followUp t corr =>
      if s.fromParent p m && ((s.ptp p).t2.map (·.1)) == some m.seq
      then s.setPtp p { s.ptp p with t1 := some ((t : Int) * 65536 + corr) } else s
    | _ => s)

/-- A time message is sent on a port (14 R411). -/
def State.ptpSend (s : State) (p seq : Nat) (b : PtpBody) : State :=
  s.send (.ptp p ⟨s.fld A.gtPtp F.gtPtp.DOMAIN, ⟨s.ptpId, p + 1⟩, seq, b⟩)

/-- `DELAY_REQ` (14 R411): a port in master state answers with the time of its arrival, the fraction of a
nanosecond in the correction. -/
def execDelayReq (p : PortAt) (m : PtpMsg) (s : State) : Out :=
  .next (match m.body with
    | .delayReq corr =>
      if s.ptpTakes p.port m && s.ptpMaster p.port then
        let t := s.rxStamp p.port p.ph
        s.ptpSend p.port m.seq (.delayResp (t / 65536).toNat (corr - t % 65536) m.sender)
      else s
    | _ => s)

/-- `DELAY_RESP` (14 R411, R413, R416): it completes a measurement of offset = ((t2 − t1) − (t4 − t3)) / 2.
With `SRC` 1 the phase comes from PPS_IN, and the offset that PTP measured gives the seconds of its edges (log 11). -/
def execDelayResp (p : PortNo) (m : PtpMsg) (s : State) : Out :=
  .next (match m.body with
    | .delayResp recv corr req =>
      let x := s.ptp p
      match x.t1, x.t2, x.t3 with
      | some t1, some (_, t2), some (seq, t3) =>
        if !s.fromParent p m || req != ⟨s.ptpId, p + 1⟩ || seq != m.seq then s
        else
          let t4 := (recv : Int) * 65536 - corr
          let off := ((t2 - t1) - (t4 - t3)) / 2
          let s := s.setPtp p { x with t3 := none }
          match s.fld A.gtCfg F.gtCfg.SRC with
          | 0 => s.measure off
          | 1 => s.putGt { s.gt with ptpOff := some off }
          | _ => s
      | _, _, _ => s
    | _ => s)

/-- `SIGNALING` (14 R411): the L1_SYNC TLV is taken; the spec gives it no further effect. -/
def execSignaling (p : PortNo) (m : PtpMsg) (s : State) : Out :=
  .next (match m.body with
    | .signaling tlv => if s.ptpTakes p m then s.setPtp p { s.ptp p with l1 := tlv } else s
    | _ => s)

/-- The pulses of an interval of 2^`log` seconds, `log` signed in four bits and taken to its range
(14 R420). -/
def intervalPulses (log lo hi : Int) : Nat :=
  let k := max lo (min hi (sext 4 log.toNat))
  if k ≥ 0 then 800000000 * 2 ^ k.toNat else 800000000 / 2 ^ (-k).toNat

/-- The Sync interval (14 R420). -/
def State.syncInterval (s : State) : Nat := intervalPulses (s.fld A.gtPtp F.gtPtp.LOGSYNC) (-7) 0

/-- The Announce interval (14 R420). -/
def State.annInterval (s : State) : Nat := intervalPulses (s.fld A.gtPtp F.gtPtp.LOGANN) (-3) 3

/-- The Delay_Req interval (14 R420). -/
def State.dreqInterval (s : State) : Nat := intervalPulses (s.fld A.gtPtp F.gtPtp.LOGDREQ) (-7) 0

/-- `PTP_MESSAGE_TIMER` (14 R411): a port in master state sends Announce (0), and Sync in two steps (1); the
slave port sends Delay_Req (2), each at its interval. A port that takes part sends Signaling messages with the L1_SYNC
TLV (3), whose contents and interval belong to the profile (log 13). A message is sent in a symbol of the pulse (R412). -/
def execPtpMessageTimer (p : PortAt) (kind : Fin 4) (s : State) : Out :=
  let x := s.ptp p.port
  .next (match kind with
    | 0 =>
      if s.ptpMaster p.port && decide (x.annAt + s.annInterval ≤ s.pulse) then
        let (g, n) := s.announced
        (s.setPtp p.port { x with annAt := s.pulse, annSeq := (x.annSeq + 1) % 65536 }).ptpSend p.port x.annSeq (.announce g n)
      else s
    | 1 =>
      if s.ptpMaster p.port && decide (x.syncAt + s.syncInterval ≤ s.pulse) then
        let t := s.txStamp p.port p.ph
        let s := s.setPtp p.port { x with syncAt := s.pulse, syncSeq := (x.syncSeq + 1) % 65536 }
        let s := s.ptpSend p.port x.syncSeq (.sync true 0 0)
        s.ptpSend p.port x.syncSeq (.followUp (t / 65536).toNat (t % 65536))
      else s
    | 3 => if s.ptpOn p.port then s.ptpSend p.port 0 (.signaling (Config.l1Sync p.port)) else s
    | _ =>
      if s.ptpOn p.port && s.gt.slave == some p.port.val && decide (x.dreqAt + s.dreqInterval ≤ s.pulse) then
        let s := s.setPtp p.port { x with
          dreqAt := s.pulse, dreqSeq := (x.dreqSeq + 1) % 65536, t3 := some (x.dreqSeq, s.txStamp p.port p.ph) }
        s.ptpSend p.port x.dreqSeq (.delayReq 0)
      else s)

/-- `ANNOUNCE_RECEIPT_TIMEOUT` (14 R411): a master that has sent no Announce for three intervals (log 13), or
whose port is out of service, is forgotten. -/
def execAnnounceReceiptTimeout (p : PortNo) (s : State) : Out :=
  .next (match FMap.get? s.gt.masters p with
    | none => s
    | some m =>
      if s.ptpOn p && decide (s.pulse < m.heardAt + 3 * s.annInterval) then s
      else (s.putGt { s.gt with masters := FMap.del s.gt.masters p }).bmca)

/-! ### PPS, MARK_OUT and the servo's timers (14 R413 to R418) -/

/-- `PPS_IN_EDGE` (14 R402, R413): a measurement while the phase comes from PPS_IN: the fraction of a second
of GT, less `DELAY`, from −0.5 s to +0.5 s. With `SRC` 1 the whole seconds are those that bring it nearest to the offset
that PTP measured last. -/
def execPpsInEdge (s : State) : Out :=
  let s := s.putGt { s.gt with ppsAt := some s.pulse }
  let s := (s.setFld A.gtPps F.gtPps.SEEN 1).retrim
  let src := s.fld A.gtCfg F.gtCfg.SRC
  .next (if src = 1 || src = 2 then
      let second : Int := 1000000000 * 65536
      let x := ((s.instant % gtSecond / 2 ^ 24 : Nat) : Int) - sext 32 (s.fld A.gtPps F.gtPps.DELAY) * 65536
      let y := (x + second / 2) % second - second / 2
      match (if src = 1 then s.gt.ptpOff else none) with
      | some o => s.measure (y + (o - y + second / 2) / second * second)
      | none => s.measure y
    else s)

/-- `PPS_SEEN_EXPIRY` (14 R402, R420). -/
def execPpsSeenExpiry (s : State) : Out :=
  .next (match s.gt.ppsAt with
    | some t => if s.flag A.gtPps F.gtPps.SEEN && s.reached t 1500000 then (s.setFld A.gtPps F.gtPps.SEEN 0).retrim else s
    | none => s)

/-- `GT_MEASUREMENT_TIMEOUT` (14 R415): no measurement for four Sync intervals, or 2 s under PPS. On a return
to UNSET U reads 0xFFFF_FFFF until the next measurement. -/
def execGtMeasurementTimeout (s : State) : Out :=
  let src := s.fld A.gtCfg F.gtCfg.SRC
  let limit := if src = 0 then 4 * s.syncInterval else 2000000 * usPulses
  let late := match s.gt.heardAt with
    | some t => decide (t + limit ≤ s.pulse)
    | none => true
  .next (if !late then s
    else match s.fld A.gtStat F.gtStat.STATE with
      | 1 =>
        if s.flag A.gtStat F.gtStat.EVER then s.gtShow 3
        else (s.putGt { s.gt with measAt := none, good := 0, cand := [] }).gtShow 0
      | 2 => s.gtShow 3
      | _ => s)

/-- `GT_CORRECTION_SPENT` (14 R416). -/
def execGtCorrectionSpent (s : State) : Out :=
  .next (if s.gt.corr = 0 && s.flag A.gtStat F.gtStat.SLEWING then (s.putGt { s.gt with slew := 0 }).gtJudge else s)

/-- `GT_UNCERTAINTY_LIMIT` (14 R415, R417): U has passed `UMAX`, from below or from above. -/
def execGtUncertaintyLimit (s : State) : Out :=
  .next (if s.flag A.gtStat F.gtStat.VALID != s.gtOk (s.fld A.gtStat F.gtStat.STATE) then s.gtJudge else s)

/-- `GT_SET` (14 R418): the write of `GT_SETN`. -/
def execGtSet (v : Word) (s : State) : Out := .next (s.gtSet (getFld v F.gtSetn.NS) (getFld v F.gtSetn.FRAC)).1

/-- `MARK_OUT_PULSE` (14 R414): while PPS holds the pin, it rises within 2 ns of each whole second of GT, before it or
after it, for 1 ms: in a pulse of which a symbol lies so near. -/
def execMarkOutPulse (s : State) : Out :=
  let near := 2 * 2 ^ 40
  let last := s.instantAt 79 + near
  .next (if s.fld A.clkMark F.clkMark.HOLDER == 1 && s.clk.markSec != some (last / gtSecond % 2 ^ 48) &&
        decide (last % gtSecond ≤ 2 * near + (s.instantAt 79 - s.instant)) then
      let s := s.putClk { s.clk with markSec := some (last / gtSecond % 2 ^ 48), markUntil := s.pulse + msPulses }
      s.driveMark true
    else s)

end Sys2Proof.Machine
end

