-- ==== Sys2Proof/Machine/Power.lean ====
section
/-!
DEFINITION. The power manager (17 R476 to R479; 01 R25; 14 R404; 11 R339).
-/
namespace Sys2Proof.Machine

/-- The module cap in force (17 R478): from 3,000 W to 10,500 W. -/
def State.capNow (s : State) : Nat := max 3000 (min 10500 (s.fld A.pwrCap F.pwrCap.CAP))

/-- The C-dies, whose domains alone are controlled (17 R476). -/
def cdies : List Nat := List.range 8

/-- The sum of a value over some numbers. -/
def sumOver (l : List Nat) (f : Nat → Nat) : Nat := (l.map f).foldl (· + ·) 0

/-- The allowance of a C-die. -/
def State.allow (s : State) (c : Nat) : Nat := s.fld (A.pwrDom c) F.pwrDom.ALLOW

/-- The budget of a C-die. -/
def State.budget (s : State) (c : Nat) : Nat := s.fld (A.pwrDom c) F.pwrDom.BUD

/-- The pulses that a C-die's throttle keeps in each 64. -/
def State.throttle (s : State) (c : Nat) : Nat := s.fld (A.pwrDom c) F.pwrDom.THR

/-- The cap is written (17 R478): it takes effect at the next step. -/
def State.capWrite (s : State) (v : Nat) : State :=
  let s := s.setFld A.pwrCap F.pwrCap.CAP v
  s.putPwr { s.pwr with falling := decide (s.capNow < s.fld A.pwrStat F.pwrStat.DRAW) }

/-- `PWR_CAP_WRITE` (17 R478). -/
def execPwrCapWrite (v : BitVec 16) (s : State) : Out := .next (s.capWrite v.toNat)

/-- The measured draws are shown (17 R476, R485): of the domains in their order, and of the busbar. -/
def State.showDraws (s : State) (doms : List Nat) (busbar : Nat) : State :=
  let s := ((List.range 27).zip doms).foldl (fun s p =>
    s.setFld (if p.1 < 8 then A.pwrDom p.1 else A.pwrDomu (p.1 - 8)) F.pwrDom.DRAW (min 0xFFFF p.2)) s
  s.setFld A.pwrStat F.pwrStat.DRAW (min 0xFFFF busbar)

/-- Whether a C-die has a cycle in this period (14 R404, 17 R477): its throttle keeps that many of each 64 pulses, which
lie first among them (log 10). -/
def State.dieRuns (s : State) (c : Nat) : Bool := decide (s.pulse % 64 < s.throttle c)

/-- The pulses that the throttles have removed are no cycles (14 R404, 04 R148). -/
def State.countSkipped (s : State) : State :=
  cdies.foldl (fun s c =>
    if s.dieRuns c then s else s.putSkipped (FMap.set s.skipped c (FMap.getD s.skipped c 0 + 1))) s

/-- The allowances are lowered by at least `need` in all, in proportion to the budgets (17 R476). While the draw
exceeds the cap, how much more they fall is free (log 2). -/
def State.lowerAllow (s : State) (need : Nat) (above : Bool) : State :=
  let (e, s) := s.draw (if above then sumOver cdies s.allow else 0)
  let total := need + e
  let sum := max 1 (sumOver cdies s.budget)
  cdies.foldl (fun s c => s.setFld (A.pwrDom c) F.pwrDom.ALLOW (s.allow c - (total * s.budget c + sum - 1) / sum)) s

/-- A C-die releases what it has in excess to the module pool, or takes from it (17 R476 step 2). While the draw has
yet to fall below a new cap no allowance rises (R478). -/
def State.balance (s : State) (c draw : Nat) : State :=
  let a := s.allow c
  let b := s.budget c
  let pool := s.fld A.pwrStat F.pwrStat.POOL
  if draw + b / 20 < a then
    let s := s.setFld (A.pwrDom c) F.pwrDom.ALLOW (draw + b / 20)
    s.setFld A.pwrStat F.pwrStat.POOL (min 0xFFFF (pool + (a - (draw + b / 20))))
  else if decide (draw * 100 ≥ a * 98) && !s.pwr.falling then
    let take := min pool (b * 5 / 4 - a)
    let s := s.setFld (A.pwrDom c) F.pwrDom.ALLOW (a + take)
    s.setFld A.pwrStat F.pwrStat.POOL (pool - take)
  else s

/-- A C-die is throttled while its draw exceeds its allowance (17 R477). By how many 1/64 is free (log 2); the floor
is 8 pulses. -/
def State.throttleDie (s : State) (c draw : Nat) : State :=
  let t := s.throttle c
  if draw > s.allow c then
    let (e, s) := s.draw (t - 9)
    s.setFld (A.pwrDom c) F.pwrDom.THR (if t ≤ 8 then 8 else 8 + e)
  else
    let (e, s) := s.draw (64 - t)
    s.setFld (A.pwrDom c) F.pwrDom.THR (t + e)

/-- `POWER_MANAGER_STEP` (17 R476 to R478; 11 R339): every 10 µs, with the averages measured: the draw of each
domain, of the busbar, and the conversion loss, in W. -/
def execPowerManagerStep (doms : List Nat) (busbar loss : Nat) (s : State) : Out :=
  .next (if !s.rst.on || !s.reached s.pwr.stepAt 10 then s
    else
      let s := (s.putPwr { s.pwr with stepAt := s.pulse }).showDraws doms busbar
      let cap := s.capNow
      let above := decide (busbar > cap)
      let s := s.putPwr { s.pwr with falling := s.pwr.falling && above }
      let draw (c : Nat) : Nat := doms.getD c 0
      let s := if above then s.lowerAllow (busbar - cap) true else cdies.foldl (fun s c => s.balance c (draw c)) s
      let others := sumOver ((List.range 19).map (· + 8)) draw
      let excess := sumOver cdies s.allow + others + loss - cap
      let s := if excess = 0 then s else s.lowerAllow excess false
      let floor := cdies.all (fun c => s.throttle c ≤ 8)
      let s := if above && floor && !s.flag A.pwrStat F.pwrStat.UNMET then
          (s.hwSet A.pwrStat F.pwrStat.UNMET).raise 0xB2 (evSource 7 0) (leBytes 4 busbar ++ leBytes 4 cap)
        else s
      let s := cdies.foldl (fun s c => s.throttleDie c (draw c)) s
      let was := s.flag A.pwrStat F.pwrStat.THROT
      let now := cdies.any (fun c => s.throttle c < 64)
      let s := s.setFld A.pwrStat F.pwrStat.THROT now.toNat
      let s := if was == now then s
        else s.raise 0xB1 (evSource 7 0) ([if now then 1 else 2, 0, 0, 0] ++ leBytes 4 cap)
      if s.pwr.falling then s
      else s.benches.foldl (fun s p =>
        if p.2.lend.halfUntil.isSome then
          let (back, s) := s.draw 1
          if back = 1 then s.lendFull p.1 else s
        else s) s)

end Sys2Proof.Machine
end

