-- ==== Sys2Proof/Machine/Mailbox.lean ====
section
/-!
DEFINITION. The mailboxes: ownership, submits, acknowledges, slots, and the answers of the firmware (15 R427 to
R431, R447).
-/
namespace Sys2Proof.Machine

/-- Whether a mailbox is BUSY (15 R427). -/
def State.mbxBusy (s : State) (i : Nat) : Bool := s.fldBit A.mbxOwn F.mbxOwn.REQ i

/-- Whether a mailbox is DONE (15 R427). -/
def State.mbxDone (s : State) (i : Nat) : Bool := s.fldBit A.mbxOwn F.mbxOwn.RSP i

/-- Whether mailbox 31 belongs to the MCTP path (15 R447). -/
def State.mctpOwns (s : State) (i : Nat) : Bool := i == 31 && s.flag A.mbxCtl F.mbxCtl.M31

/-- Both ownership bits of a mailbox are written (15 R427). -/
def State.setOwn (s : State) (i : Nat) (req rsp : Bool) : State :=
  (s.setBit A.mbxOwn F.mbxOwn.REQ i req).setBit A.mbxOwn F.mbxOwn.RSP i rsp

/-- A submit or acknowledge that finds the mailbox in another state is recorded (15 R427). -/
def State.mbxReject (s : State) (i : Nat) : State :=
  if s.flag A.mbxStat F.mbxStat.REJV then s
  else (s.setFld A.mbxStat F.mbxStat.REJMBX i).hwSet A.mbxStat F.mbxStat.REJV

/-- A mailbox is submitted: from IDLE to BUSY (15 R427). -/
def State.submitOne (s : State) (i : Nat) : State :=
  if s.mbxBusy i || s.mbxDone i then s.mbxReject i
  else (s.setOwn i true false).putHut { s.hut with order := s.hut.order ++ [i] }

/-- A mailbox is acknowledged: from DONE to IDLE (15 R427). -/
def State.ackOne (s : State) (i : Nat) : State := if s.mbxDone i then s.setOwn i false false else s.mbxReject i

/-- The mailboxes of a mask, in ascending number (15 R428), but for one of the MCTP path (15 R447). -/
def State.maskMbx (s : State) (mask : Nat) : List Nat := (List.range 32).filter (fun i => mask.testBit i && !s.mctpOwns i)

/-- A write of `MBX_SUBMIT` (15 R427, R428). -/
def State.mbxSubmit (s : State) (mask : Nat) : State := (s.maskMbx mask).foldl State.submitOne s

/-- A write of `MBX_ACK` (15 R427). -/
def State.mbxAck (s : State) (mask : Nat) : State := (s.maskMbx mask).foldl State.ackOne s

/-- `MBX_SUBMIT` (15 R427). -/
def execMbxSubmit (mask : BitVec 32) (s : State) : Out := .next (s.mbxSubmit mask.toNat)

/-- `MBX_ACK` (15 R427). -/
def execMbxAck (mask : BitVec 32) (s : State) : Out := .next (s.mbxAck mask.toNat)

/-- Bytes written to the mailbox slots by the host: to a request slot that the firmware does not own (15 R427,
R447); `off` is from the base of the slots. -/
def State.slotWrite (s : State) (off : Nat) (data : List (Byte × Bool)) : State :=
  let i := off / 512
  if off % 512 ≥ 256 || s.mbxBusy i || s.mctpOwns i then s
  else
    let old := s.mem.read (slotBase + off) data.length
    s.putMem (s.mem.write (slotBase + off) ((data.zip old).map (fun p => if p.1.2 then p.1.1 else p.2)))

/-- The bytes of a mailbox's request slot (15 R429). -/
def State.request (s : State) (i : Nat) : List Byte := s.mem.read (slotBase + 512 * i) 256

/-- The little-endian number of `n` bytes at an offset of some bytes. -/
def field (l : List Byte) (off n : Nat) : Nat := ofLe ((l.drop off).take n)

/-- The command code of a request (15 R429). -/
def State.mbxCode (s : State) (i : Nat) : Nat := field (s.request i) 0 2

/-- The family of a command code (15 R432). -/
def family (code : Nat) : Nat := code / 256

/-- Whether the firmware takes commands (15 R428): once it is READY, and while an update goes on (R446). -/
def State.fwTakes (s : State) : Bool :=
  let f := s.fld A.mbxStat F.mbxStat.FWSTATE
  f == 1 || f == 2

/-- Whether a local address of data lies outside the 50 bits of one (10 R287). -/
def addrBad (a n : Nat) : Bool := decide (2 ^ 50 < a + n)

/-- The memory that the command of a mailbox reads and writes, by its code and its payload (15 R432). -/
def State.cmdRanges (s : State) (i : Nat) : List (Nat × Nat) :=
  let p := (s.request i).drop 16
  let a := field p 0 8
  match s.mbxCode i with
  | 0x0200 => [(a, field p 8 8)]
  | 0x0301 => [(a, 16 * field p 10 2)]
  | 0x0302 => [(a, field p 8 8), (field p 16 8, 64)]
  | 0x0900 => [(a, Config.certChain.length)]
  | 0x0901 => [(field p 1 8, 256)]
  | 0x0A01 => [(a, 64 + s.flash.errlog.flatten.length)]
  | 0x0B00 => if field p 8 8 > 32 * 1024 * 1024 + 256 then [] else [(a, field p 8 8)]
  | _ => []

/-- Whether the firmware reaches the memory of a command now: until then its accesses are held (09 R267, 05 R167, 01 R23).
MAP_SHARDS, whose map's length is known only once it is made, waits for every Tallboy. -/
def State.cmdReaches (s : State) (i : Nat) : Bool :=
  (s.cmdRanges i).all (fun r => addrBad r.1 r.2 || (s.memReady r.1 r.2 && !s.memPending r.1 r.2)) &&
    (s.mbxCode i != 0x0302 || (List.range 16).all s.tbyReady)

/-- Whether the command of a mailbox may run now (15 R428, R431): the firmware takes commands, no command of its
family is in progress, none of its family was submitted before it, and the memory it uses accepts accesses. -/
def State.runnable (s : State) (i : Nat) : Bool :=
  let fam := family (s.mbxCode i)
  s.cmdReaches i && s.fwTakes && s.hut.order.contains i && s.mbxBusy i && !s.hut.ops.any (fun o => family o.code == fam) &&
    !(s.hut.order.takeWhile (· != i)).any (fun j => family (s.mbxCode j) == fam)

/-- What a command answers (15 R429, R430): status, detail and payload; for ACCEPTED the final status that its
completion reports. -/
structure Reply where
  status : Nat
  detail : Nat := 0
  pay : List Byte := []
  final : Nat := 0
  deriving DecidableEq, Repr

/-- OK, with a payload. -/
def Reply.ok (pay : List Byte) : Reply := { status := 0, pay := pay }

/-- A status other than OK and ACCEPTED. -/
def Reply.bad (status detail : Nat) : Reply := { status := status, detail := detail }

/-- ACCEPTED, with the final status. -/
def Reply.accepted (final : Nat) : Reply := { status := 1, final := final }

/-- The firmware answers a mailbox (15 R427 to R431): response slot, ownership, then vector i; mailbox 31 of the
MCTP path returns its slot in a message (R447). An ACCEPTED command gets the next operation number and stays in
progress. -/
def State.respond (s : State) (i code tag : Nat) (r : Reply) : State :=
  let s := s.putHut { s.hut with order := s.hut.order.filter (· != i) }
  let s := if r.status = 1 then
      let n := (s.hut.opNo + 1) % 2 ^ 32
      s.putHut { s.hut with opNo := n, ops := s.hut.ops ++ [⟨n, code, i, tag, r.final⟩] }
    else s
  let opid := if r.status = 1 then s.hut.opNo else 0
  let slot := leBytes 2 code ++ leBytes 2 r.pay.length ++ leBytes 4 tag ++ leBytes 2 r.status ++ leBytes 2 r.detail ++
    leBytes 4 opid ++ r.pay
  let s := s.putMem (s.mem.write (slotBase + 512 * i + 256) slot)
  if s.mctpOwns i then (s.setOwn i false false).send (.mgmt 1 s.hut.sender (.slot slot))
  else (s.setOwn i false true).vecSignal i

/-- The command of a mailbox runs (15 R430, R431): a wrong `LEN` is BAD_LEN; else `k` answers from the payload. -/
def State.command (s : State) (i len : Nat) (k : State → List Byte → State × Reply) : State :=
  let q := s.request i
  let code := field q 0 2
  let tag := field q 4 4
  if field q 2 2 != len then s.respond i code tag (.bad 0x11 0)
  else
    let (s, r) := k s ((q.drop 16).take len)
    s.respond i code tag r

/-- A command row: mailbox `i` holds a request with this code that may run now. -/
def State.takes (s : State) (i code : Nat) : Bool := s.mbxCode i == code && s.runnable i

end Sys2Proof.Machine
end

