-- ==== Sys2Proof/Machine/Cipher.lean ====
section
/-!
DEFINITION. The ciphers that the spec names by their standards (12 R359; 13 R378; 17 R480 to R483): the hash SM3 (GB/T 32905), the
block cipher SM4 (GB/T 32907), and Galois/Counter Mode (NIST SP 800-38D). PRESUMED (log 16): the spec does not contain the standards.
-/
namespace Sys2Proof.Machine

/-- A 32-bit word rotated left. -/
def rotl32 (x n : Nat) : Nat := (x <<< (n % 32) ||| x >>> (32 - n % 32)) % 2 ^ 32

/-- A 32-bit word complemented. -/
def not32 (x : Nat) : Nat := 2 ^ 32 - 1 - x % 2 ^ 32

/-- Bytes as a number, the first byte most significant. -/
def ofBe (l : List Byte) : Nat := l.foldl (fun a b => a * 256 + b.toNat) 0

/-- A number as `n` bytes, the most significant first. -/
def beBytes (n x : Nat) : List Byte := (leBytes n x).reverse

/-- Bytes cut into big-endian words of `w` bytes. -/
def beWords (w : Nat) (l : List Byte) : List Nat := (chunks w (l.length / w + 1) l).map ofBe

/-! ### SM3 -/

/-- The initial value of SM3. -/
def sm3Iv : List Nat :=
  [0x7380166F, 0x4914B2B9, 0x172442D7, 0xDA8A0600, 0xA96F30BC, 0x163138AA, 0xE38DEE4D, 0xB0FB0E4E]

/-- The permutation P0 of SM3. -/
def sm3P0 (x : Nat) : Nat := x ^^^ rotl32 x 9 ^^^ rotl32 x 17

/-- The permutation P1 of SM3. -/
def sm3P1 (x : Nat) : Nat := x ^^^ rotl32 x 15 ^^^ rotl32 x 23

/-- The expanded words of a block, newest first: `k` more. -/
def sm3Expand : Nat → List Nat → List Nat
  | 0, l => l
  | k + 1, l =>
    let w (i : Nat) : Nat := l.getD (i - 1) 0
    sm3Expand k ((sm3P1 (w 16 ^^^ w 9 ^^^ rotl32 (w 3) 15) ^^^ rotl32 (w 13) 7 ^^^ w 6) :: l)

/-- One round of SM3 on the eight words, with W and W'. -/
def sm3Round (v : List Nat) (q : Nat × Nat × Nat) : List Nat :=
  let (j, w, w') := q
  match v with
  | [a, b, c, d, e, f, g, h] =>
    let ss1 := rotl32 ((rotl32 a 12 + e + rotl32 (if j < 16 then 0x79CC4519 else 0x7A879D8A) j) % 2 ^ 32) 7
    let ss2 := ss1 ^^^ rotl32 a 12
    let ff := if j < 16 then a ^^^ b ^^^ c else (a &&& b) ||| (a &&& c) ||| (b &&& c)
    let gg := if j < 16 then e ^^^ f ^^^ g else (e &&& f) ||| (not32 e &&& g)
    let tt1 := (ff + d + ss2 + w') % 2 ^ 32
    let tt2 := (gg + h + ss1 + w) % 2 ^ 32
    [tt1, a, rotl32 b 9, c, sm3P0 tt2, e, rotl32 f 19, g]
  | _ => v

/-- SM3's compression of one block of sixteen words. -/
def sm3Block (v : List Nat) (block : List Nat) : List Nat :=
  let w := (sm3Expand 52 block.reverse).reverse
  let rows := (List.range 64).zip (w.zip ((w.zip (w.drop 4)).map (fun p => p.1 ^^^ p.2)))
  (v.zip (rows.foldl sm3Round v)).map (fun p => p.1 ^^^ p.2)

/-- SM3 of bytes: 32 bytes. -/
def sm3 (l : List Byte) : List Byte :=
  let n := l.length
  let m := l ++ [0x80] ++ List.replicate ((119 - n % 64) % 64) 0 ++ beBytes 8 (8 * n)
  ((chunks 64 (m.length / 64 + 1) m).foldl (fun v c => sm3Block v (beWords 4 c)) sm3Iv).flatMap (beBytes 4)

/-! ### SM4 -/

/-- The S-box of SM4, one row of sixteen entries to a number, the first entry least significant. -/
def sm4Box : List Nat := [
  0x052CFB28C214B616B73DE1CCFEE990D6,
  0x99068649261344AAC304BE2A769A672B,
  0x62ACCFED430B54337A98EF91F450429C,
  0xA63F8F75FA94DF8095E808C9A91CB3E4,
  0xA84F85E6193C5983BA1773F3FCA70747,
  0x359D56704B0FEBF88BDA6471B2816B68,
  0x877821013B7C2225A2D158635E0E241E,
  0x9EC8C4A0E702364C5227D39F574600D4,
  0xA11561F9CEF2F7A3B538C740D28ABFEA,
  0xE3B18CF5303293AD551A349BA45DAEE0,
  0x6F4E530DAB2329C060CA66822EE2F61D,
  0x515B6C6D726AFF032F8EFDDE4537DBD5,
  0xD85A101F415CD9117FBCDDBB92AF1B8D,
  0xB0B4E5B812D0742DBD7BCDA58831C10A,
  0x84C66EC509F1B9657E77960C4A976989,
  0x4839CBD73E5FEE79204DDC3AEC7DF018]

/-- SM4's substitution of a word's four bytes. -/
def sm4Sub (x : Nat) : Nat :=
  let s (i : Nat) : Nat :=
    let b := x >>> (8 * i) % 256
    sm4Box.getD (b / 16) 0 >>> (8 * (b % 16)) % 256
  s 0 + s 1 * 2 ^ 8 + s 2 * 2 ^ 16 + s 3 * 2 ^ 24

/-- The mixing of SM4's rounds. -/
def sm4Mix (x : Nat) : Nat :=
  let b := sm4Sub x
  b ^^^ rotl32 b 2 ^^^ rotl32 b 10 ^^^ rotl32 b 18 ^^^ rotl32 b 24

/-- The mixing of SM4's key schedule. -/
def sm4KeyMix (x : Nat) : Nat :=
  let b := sm4Sub x
  b ^^^ rotl32 b 13 ^^^ rotl32 b 23

/-- One step of SM4 on four words, in the rounds and in the key schedule alike. -/
def sm4Step (mix : Nat → Nat) (x : List Nat) (k : Nat) : List Nat :=
  match x with
  | [a, b, c, d] => [b, c, d, a ^^^ mix (b ^^^ c ^^^ d ^^^ k)]
  | _ => x

/-- The constant of a step of SM4's key schedule. -/
def sm4Const (i : Nat) : Nat := (List.range 4).foldl (fun a j => a * 256 + (4 * i + j) * 7 % 256) 0

/-- The 32 round keys of an SM4 key. -/
def sm4Keys (key : List Byte) : List Nat :=
  let k := ((beWords 4 key).zip [0xA3B1BAC6, 0x56AA3350, 0x677D9197, 0xB27022DC]).map (fun p => p.1 ^^^ p.2)
  ((List.range 32).foldl (fun (q : List Nat × List Nat) i =>
    let x := sm4Step sm4KeyMix q.1 (sm4Const i)
    (x, q.2 ++ [x.getD 3 0])) (k, [])).2

/-- SM4 of one block of 16 bytes, under round keys. -/
def sm4Block (keys : List Nat) (l : List Byte) : List Byte := (keys.foldl (sm4Step sm4Mix) (beWords 4 l)).reverse.flatMap (beBytes 4)

/-! ### Galois/Counter Mode -/

/-- The product in GF(2^128) of GCM; bit 127 of a number is the first bit of a block. -/
def gcmMul (x y : Nat) : Nat :=
  ((List.range 128).foldl (fun (q : Nat × Nat) i =>
    (if x.testBit (127 - i) then q.1 ^^^ q.2 else q.1,
     if q.2.testBit 0 then q.2 >>> 1 ^^^ 0xE1 <<< 120 else q.2 >>> 1)) (0, y)).1

/-- GHASH of whole blocks. -/
def ghash (h : Nat) (l : List Byte) : Nat := (beWords 16 l).foldl (fun y x => gcmMul (y ^^^ x) h) 0

/-- Text XORed with the counter blocks of a nonce from counter 2 on. -/
def gcmCrypt (keys : List Nat) (nonce : Nat) (l : List Byte) : List Byte :=
  let stream := (List.range (l.length / 16 + 1)).flatMap (fun i => sm4Block keys (beBytes 16 (nonce * 2 ^ 32 + (i + 2) % 2 ^ 32)))
  (l.zip stream).map (fun p => p.1 ^^^ p.2)

/-- The tag of additional data and ciphertext. -/
def gcmTag (keys : List Nat) (nonce : Nat) (aad ct : List Byte) : List Byte :=
  let h := ofBe (sm4Block keys (List.replicate 16 0))
  let s := ghash h (padTo 16 aad ++ padTo 16 ct ++ beBytes 8 (8 * aad.length) ++ beBytes 8 (8 * ct.length))
  ((beBytes 16 s).zip (sm4Block keys (beBytes 16 (nonce * 2 ^ 32 + 1)))).map (fun p => p.1 ^^^ p.2)

/-- SM4-GCM (12 R359): key, nonce of 96 bits, additional data and text to ciphertext and tag. -/
def gcmSeal (key : List Byte) (nonce : Nat) (aad text : List Byte) : List Byte × List Byte :=
  let keys := sm4Keys key
  let ct := gcmCrypt keys nonce text
  (ct, gcmTag keys nonce aad ct)

/-- SM4-GCM opened: key, nonce, additional data, ciphertext and tag to the text, none where the tag fails. -/
def gcmOpen (key : List Byte) (nonce : Nat) (aad ct tag : List Byte) : Option (List Byte) :=
  let keys := sm4Keys key
  if gcmTag keys nonce aad ct = tag then some (gcmCrypt keys nonce ct) else none

/-! ### SM2 -/

/-- The prime of the recommended curve. -/
def sm2P : Nat := 0xFFFFFFFEFFFFFFFFFFFFFFFFFFFFFFFFFFFFFFFF00000000FFFFFFFFFFFFFFFF

/-- The coefficient a. -/
def sm2A : Nat := sm2P - 3

/-- The coefficient b. -/
def sm2B : Nat := 0x28E9FA9E9D9F5E344D5A9E4BCF6509A7F39789F515AB8F92DDBCBD414D940E93

/-- The order of the base point. -/
def sm2N : Nat := 0xFFFFFFFEFFFFFFFFFFFFFFFFFFFFFFFF7203DF6B21C6052B53BBF40939D54123

/-- A point of the curve; none is the point at infinity. -/
abbrev Pt := Option (Nat × Nat)

/-- The base point. -/
def sm2G : Pt :=
  some (0x32C4AE2C1F1981195F9904466A39C9948FE30BBFF2660BE1715A4589334C74C7,
    0xBC3736A2F4F6779C59BDCEE36B692153D0A9877CC62A474002DF32E52139F0A0)

/-- A power modulo `m` by the lowest `k` bits of the exponent. -/
def powMod (m : Nat) : Nat → Nat → Nat → Nat
  | 0, _, _ => 1
  | k + 1, x, e => (if e.testBit 0 then x else 1) * powMod m k (x * x % m) (e / 2) % m

/-- The inverse modulo a prime of 256 bits. -/
def invMod (m x : Nat) : Nat := powMod m 256 (x % m) (m - 2)

/-- The point on the line of slope `l` through two points that is their sum. -/
def onLine (l x1 y1 x2 : Nat) : Pt :=
  let x := (l * l + 2 * sm2P - x1 - x2) % sm2P
  some (x, (l * (x1 + sm2P - x) + sm2P - y1) % sm2P)

/-- The sum of two points. -/
def ptAdd (a b : Pt) : Pt :=
  match a, b with
  | none, _ => b
  | _, none => a
  | some (x1, y1), some (x2, y2) =>
    if x1 ≠ x2 then onLine ((y2 + sm2P - y1) * invMod sm2P (x2 + sm2P - x1) % sm2P) x1 y1 x2
    else if (y1 + y2) % sm2P = 0 then none
    else onLine ((3 * x1 * x1 + sm2A) * invMod sm2P (2 * y1) % sm2P) x1 y1 x2

/-- A multiple of a point, by the lowest `k` bits of the factor. -/
def ptMul : Nat → Nat → Pt → Pt
  | 0, _, _ => none
  | k + 1, n, a => ptAdd (if n.testBit 0 then a else none) (ptMul k (n / 2) (ptAdd a a))

/-- A point as x ‖ y, 32 bytes each (17 R480). -/
def ptBytes : Pt → List Byte
  | none => leBytes 64 0
  | some (x, y) => beBytes 32 x ++ beBytes 32 y

/-- The point that 64 bytes give, none where they give no point of the curve. -/
def ptOf (l : List Byte) : Pt :=
  let x := ofBe (l.take 32)
  let y := ofBe ((l.drop 32).take 32)
  if x < sm2P ∧ y < sm2P ∧ y * y % sm2P = (x * x * x + sm2A * x + sm2B) % sm2P then some (x, y) else none

/-- The hash Z of an identity and its public key (GB/T 32918). -/
def sm2Z (ident : List Byte) (pub : List Byte) : List Byte :=
  sm3 (beBytes 2 (8 * ident.length) ++ ident ++ beBytes 32 sm2A ++ beBytes 32 sm2B ++ ptBytes sm2G ++ pub)

/-- The user ID of signatures, 1234567812345678 (17 R480). -/
def sm2User : List Byte := [0x31, 0x32, 0x33, 0x34, 0x35, 0x36, 0x37, 0x38, 0x31, 0x32, 0x33, 0x34, 0x35, 0x36, 0x37, 0x38]

/-- The public key of a private one. -/
def sm2Pub (d : Nat) : List Byte := ptBytes (ptMul 256 d sm2G)

/-- The number that a signature is formed from. -/
def sm2Hash (pub msg : List Byte) : Nat := ofBe (sm3 (sm2Z sm2User pub ++ msg))

/-- A signature r ‖ s by a private key, with the random number `k` (GB/T 32918.2). -/
def sm2Sign (d k : Nat) (msg : List Byte) : List Byte :=
  let x := match ptMul 256 k sm2G with
    | some p => p.1
    | none => 0
  let r := (sm2Hash (sm2Pub d) msg + x) % sm2N
  let s := invMod sm2N (1 + d) * ((k + r * (sm2N - d % sm2N)) % sm2N) % sm2N
  beBytes 32 r ++ beBytes 32 s

/-- Whether a signature of a message is good under a public key (GB/T 32918.2). -/
def sm2Verify (pub msg sig : List Byte) : Bool :=
  let r := ofBe (sig.take 32)
  let s := ofBe ((sig.drop 32).take 32)
  let t := (r + s) % sm2N
  r != 0 && s != 0 && decide (r < sm2N) && decide (s < sm2N) && t != 0 && (ptOf pub).isSome &&
    (match ptAdd (ptMul 256 s sm2G) (ptMul 256 t (ptOf pub)) with
      | some p => decide ((sm2Hash pub msg + p.1) % sm2N = r)
      | none => false)

/-- What a key exchange has of one side: identity, public static key, public ephemeral key. -/
structure KeySide where
  ident : List Byte
  pub : List Byte
  eph : List Byte
  deriving DecidableEq, Repr

/-- The reduced coordinate of an ephemeral key (GB/T 32918.3). -/
def sm2Bar (eph : List Byte) : Nat := 2 ^ 127 + ofBe (eph.take 32) % 2 ^ 127

/-- The key of 128 bits and this side's confirmation value S of a key exchange (GB/T 32918.3): private static and ephemeral keys, this
side, the other, and whether this side is the responder. None where the keys give no point. -/
def sm2Exchange (d e : Nat) (own other : KeySide) (responder : Bool) : Option (List Byte × List Byte) :=
  let t := (d + sm2Bar own.eph * e) % sm2N
  (ptMul 256 t (ptAdd (ptOf other.pub) (ptMul 256 (sm2Bar other.eph) (ptOf other.eph)))).map (fun v =>
    let (a, b) := if responder then (other, own) else (own, other)
    let zs := sm2Z a.ident a.pub ++ sm2Z b.ident b.pub
    let key := (sm3 (beBytes 32 v.1 ++ beBytes 32 v.2 ++ zs ++ beBytes 4 1)).take 16
    let inner := sm3 (beBytes 32 v.1 ++ zs ++ a.eph ++ b.eph)
    (key, sm3 ((if responder then 2 else 3) :: beBytes 32 v.2 ++ inner)))

end Sys2Proof.Machine
end

