-- ==== Sys2Proof/Machine/FarMath.lean ====
section
/-!
DEFINITION. The arithmetic of the outer rounds (12 R350, R353 to R358, R367 to R369; 13 R388, R391, R392):
tables in memory, difference blocks, contributions, and what a boundary action computes for an element.
-/
namespace Sys2Proof.Machine

/-- The group of a slot and its coding class (12 R350); group 0xFF: not exchanged. -/
def State.slotGroup (s : State) (slot : Nat) : Nat × Nat :=
  let v := numAt (s.memRead 4 (s.fld A.trsGtab F.trsGtab.ADDR * 64 + 2 * slot) 2).2.1 0 2
  (bits v 7 0, bits v 11 8)

/-- A group's configuration record's address (12 R350). -/
def State.gcfg (s : State) (g : Nat) : Nat := s.fld A.trsGcfg F.trsGcfg.ADDR * 64 + 16 * g

/-- Words 0 and 1 of a group's configuration record (12 R350). -/
def State.gcfgWord (s : State) (g i : Nat) : Nat := numAt (s.memRead 4 (s.gcfg g + 8 * i) 8).2.1 0 8

/-- The anchor slot now current (12 R350). -/
def State.cur (s : State) (g : Nat) : Nat := bits (s.gcfgWord g 0) 33 32

/-- The anchor depth D (12 R373). -/
def State.depth (s : State) : Nat := max 1 (min 4 (s.fld A.trsCtl F.trsCtl.D))

/-- The exchanged slots of a group in ascending order, with their descriptors (12 R350). -/
def State.groupSlots (s : State) (g : Nat) : List (Nat × UDesc) :=
  (List.range s.sbdCount).filterMap (fun l =>
    let (_, b) := s.readDesc l
    if (s.slotGroup l).1 = g ∧ g ≠ 0xFF ∧ udescOk b ∧ (udesc b).outer then some (l, udesc b) else none)

/-- The valid difference-coding tables of a class, numbered (12 R357). -/
def State.diffTables (s : State) (c : Nat) : List (Nat × CodeLens) :=
  (List.range 16).filterMap (fun t =>
    let (_, l, ok, _) := s.memRead 4 (s.fld A.trsTab F.trsTab.ADDR * 64 + 136 * (16 * c + t)) 136
    if ok then (tableOf 1 l).map (fun x => (t, x)) else none)

/-- A difference of 4 bits as the decoded value k × 2^(E - 127) in binary32 (12 R356). -/
def diffValue (e k : Nat) : Nat :=
  match FVal.ofInt (sext 4 k) with
  | .fin n m x => (Fmt.b32.convert .rne (.fin n m (x + (e : Int) - 127))).1
  | _ => 0

/-- The slot and the pair index of a DATA body (12 R358). -/
def bodyKey (l : List Byte) : Nat × Nat := (bits (numAt l 0 8) 11 0, bits (numAt l 0 8) 43 12)

/-- The 4,096 decoded differences of a DATA body (12 R356, R358), none where it fails to decode. -/
def State.bodyValues (s : State) (l : List Byte) : Option (List Nat) :=
  let tabs := s.diffTables (s.slotGroup (bodyKey l).1).2
  (openBlock (fun t => (tabs.find? (fun p => p.1 == t)).map (·.2)) (l.drop 136)).map (fun syms =>
    ((List.range 4096).zip syms).map (fun p => diffValue (l.getD (8 + p.1 / 32) 0).toNat p.2))

/-- Whether every block of a contribution decodes, in order (12 R368); its one body may be empty (R358). -/
def State.decodes (s : State) (c : Contrib) : Bool :=
  let slots := s.groupSlots c.group
  let bodies := c.bodies.filter (fun p => !p.2.isEmpty)
  let keys := bodies.map (fun p => bodyKey p.2)
  bodies.all (fun p => (s.bodyValues p.2).isSome &&
    (match slots.find? (fun q => q.1 == (bodyKey p.2).1) with
      | some q => decide ((bodyKey p.2).2 < (q.2.nblk + 1) / 2)
      | none => false)) &&
  (keys.zip (keys.drop 1)).all (fun p => decide (p.1.1 < p.2.1) || (p.1.1 == p.2.1 && decide (p.1.2 < p.2.2)))

/-- The decoded differences of a contribution for local block `j` of a slot: +0 where it sent none. -/
def State.contribBlock (s : State) (site round g slot j : Nat) : List Nat :=
  match s.trs.contribs.find? (fun c => c.site == site && c.round == round && c.group == g) with
  | none => List.replicate 2048 0
  | some c => match c.bodies.find? (fun p => !p.2.isEmpty && bodyKey p.2 == (slot, j / 2)) with
    | none => List.replicate 2048 0
    | some p => (((s.bodyValues p.2).getD (List.replicate 4096 0)).drop (2048 * (j % 2))).take 2048

/-- A group of the Trestle. -/
def State.grp (s : State) (g : Nat) : Grp := FMap.getD s.trs.groups g Grp.reset

/-- The state with a group changed. -/
def State.modGrp (s : State) (g : Nat) (f : Grp → Grp) : State :=
  s.putTrs { s.trs with groups := FMap.set s.trs.groups g (f (s.grp g)) }

/-- The outer law as the registers give it (12 R369, R373). -/
def State.outerLaw (s : State) : OuterLaw :=
  ⟨s.fld A.trsOuter F.trsOuter.MU, s.fld A.trsOuter F.trsOuter.ETA, s.flag A.trsCtl F.trsCtl.NEST, s.fld A.trsCtl F.trsCtl.S⟩

/-- The outer law of a group: changes take effect at its next APPLY (12 R369). -/
def State.law (s : State) (g : Nat) : OuterLaw := (s.grp g).law.getD s.outerLaw

/-- Global time in ns. -/
def State.gtAbs (s : State) : Nat := s.gt.now / 2 ^ 40

/-- A slot of a group has performed its boundary action (12 R352); with the last one a snapshot is complete. -/
def State.groupStep (s : State) (g slot : Nat) : State :=
  s.modGrp g (fun x =>
    let todo := x.todo.filter (· != slot)
    if todo.isEmpty ∧ x.phase = .snapping then { x with todo := [], phase := .snapped, doneAt := s.gtAbs } else { x with todo := todo })

/-- This site's number. -/
def State.site (s : State) : Nat := s.fld A.trsSite F.trsSite.SITE

/-- The sum D of a block (12 R367): the uses in order, a value that is not finite replaced by +0. Answers the
values and the elements replaced. -/
def State.diffSum (s : State) (g slot j : Nat) (uses : List TrsUse) : List Nat × List Nat :=
  let d := uses.foldl (fun acc u => ((s.contribBlock u.site u.round g slot j).zip acc).map (fun p => f32fma u.omega p.1 p.2))
    (List.replicate 2048 0)
  (d.map (fun x => if Fmt.b32.odd x then 0 else x), (List.range 2048).filter (fun i => Fmt.b32.odd (d.getD i 0)))

/-- An anchor block of a partner, from its ADELTA frames of this round (13 R386, R391, R392): the base XOR the
symbols. -/
def State.deltaBlock (s : State) (part slot block arr : Nat) (w : Nat) (base : List Byte) : Option (List Nat) :=
  let half (h : Nat) : Option (List Byte) := (s.trs.deltas.find? (fun x =>
    x.part == part && x.slot == slot && x.block == block && x.arr == arr && x.half == h)).map (·.syms)
  let all : Option (List Byte) := if w = 2 then half 0 else match half 0, half 1 with
    | some a, some b => some (a ++ b)
    | _, _ => none
  all.map (fun l => elemsIn w ((l.zip base).map (fun p => p.1 ^^^ p.2)))

/-- What the snapshot computes for an element (12 R353): array 0 and array 6. -/
def snapElem (a w e : Nat) : List (Nat × Nat) := [(0, f32sub w e), (6, f32add (f32sub a w) e)]

/-- What the apply computes for an element (12 R369; 13 R391, R392): `base` is the anchor that A1 is formed
from; the anchor stored is given back by `keep`. -/
def applyElem (nest : Bool) (mu eta dst : Nat) (keep : Nat → Nat) (sum own m a base w e : Nat) : List (Nat × Nat) :=
  let m1 := f32fma mu m sum
  let u := if nest then f32fma mu m1 sum else m1
  let a1 := f32fnma eta u base
  let t := f32sub (keep a1) a
  [(0, f32add w (f32add t (f32add own e))), (5, m1), (dst, a1)]

/-! ### Lineage and fingerprints (13 R378 to R380) -/

/-- A lineage record (13 R379). -/
structure LinRec where
  round : Nat
  count : Nat
  valid : Bool
  digest : List Byte
  deriving DecidableEq, Repr

/-- The address of the lineage record of an anchor slot (13 R379). -/
def State.linAddr (s : State) (g j : Nat) : Nat := s.fld A.trsLin F.trsLin.ADDR * 64 + 128 * g + 32 * j

/-- The lineage record of an anchor slot. -/
def State.lin (s : State) (g j : Nat) : LinRec :=
  let l := (s.memRead 4 (s.linAddr g j) 32).2.1
  ⟨numAt l 0 4, numAt l 4 2, bit (numAt l 0 8) 48, (l.drop 8).take 16⟩

/-- A lineage record is written. -/
def State.putLin (s : State) (g j : Nat) (r : LinRec) : State :=
  s.memWrite 4 (s.linAddr g j) (leBytes 8 (r.round + r.count * 2 ^ 32 + r.valid.toNat * 2 ^ 48) ++ r.digest ++ leBytes 8 0)

/-- The anchor slot whose valid record has a digest; none for a zero base, all ones (13 R385, R387). -/
def State.anchorWith (s : State) (g : Nat) (digest : List Byte) : Option Nat :=
  if digest = List.replicate 16 0xFF then none
  else firstNat s.depth (fun j => (s.lin g j).valid && (s.lin g j).digest == digest)

/-- The modulus of fingerprints, 2^61 - 1 (13 R380). -/
def fpMod : Nat := 2 ^ 61 - 1

/-- The multiplier z_j of fingerprints (13 R380). -/
def State.fpMul (s : State) (j : Nat) : Nat := 2 + (mix64 (s.seed ^^^ BitVec.ofNat 64 (0x46505200 + j))).toNat % (fpMod - 2)

/-- One of the two values of a fingerprint of encodings in ascending order (13 R380). -/
def fpOf (z : Nat) (l : List Nat) : Nat := l.foldl (fun h x => (h * z + (x + 1)) % fpMod) 0

/-- An anchor block as the Trestle reads it for a fingerprint: 0xFFFF for what is unreadable (16 R457). -/
def State.anchorBlock (s : State) (d : UDesc) (j b : Nat) : List Nat :=
  let x := b - d.first
  (List.range 64).flatMap (fun c =>
    let (_, l, ok, _) := s.memRead 4 (d.addr (x % 16) (7 + j) (x / 16) + 64 * c) 64
    if ok then elemsIn 2 l else List.replicate 32 0xFFFF)

/-- The fingerprint of an anchor shard (13 R380). -/
def State.fprint (s : State) (d : UDesc) (j : Nat) : Nat × Nat :=
  let l := (List.range d.nblk).flatMap (fun i => s.anchorBlock d j (d.first + i))
  (fpOf (s.fpMul 0) l, fpOf (s.fpMul 1) l)

/-- The fingerprint of a block (13 R380). -/
def State.blockPrint (s : State) (d : UDesc) (j b : Nat) : Nat := fpOf (s.fpMul 0) (s.anchorBlock d j b)

/-- The address of a slot's fingerprint of an anchor slot (13 R380). -/
def State.fptAddr (s : State) (slot j : Nat) : Nat := s.fld A.trsFpt F.trsFpt.ADDR * 64 + 64 * slot + 16 * j

/-- A slot's fingerprint is formed and stored (13 R380). -/
def State.storePrint (s : State) (slot : Nat) (d : UDesc) (j : Nat) : State :=
  let (a, b) := s.fprint d j
  s.memWrite 4 (s.fptAddr slot j) (leBytes 8 a ++ leBytes 8 b)

/-- The stored fingerprint of a slot. -/
def State.loadPrint (s : State) (slot j : Nat) : Nat × Nat :=
  let l := (s.memRead 4 (s.fptAddr slot j) 16).2.1
  (numAt l 0 8, numAt l 8 8)

/-- A Trestle event (12 R372, 13 R397). -/
def State.trsEvent (s : State) (code : Nat) (pay : List Byte) : State := s.raise code (evSource 5 0) pay

/-- The site of a partner entry. -/
def State.partSite (s : State) (i : Nat) : Nat := s.fld (A.trsPart0 i) F.trsPart0.SITE

/-- Event 0x68 or 0x69 of a transfer (13 R388, R397): byte 3 says 2 done or 3 failed. -/
def State.xferEvent (s : State) (x : Xfer) (how : Nat) : State :=
  if x.kind = 2 then s.trsEvent 0x68 (leBytes 2 x.slot ++ [BitVec.ofNat 8 x.group, BitVec.ofNat 8 how] ++ leBytes 4 x.lastApp ++
    leBytes 2 (s.partSite x.part) ++ leBytes 2 x.voters)
  else s.trsEvent 0x69 (leBytes 2 (s.partSite x.part) ++ [BitVec.ofNat 8 x.group, BitVec.ofNat 8 how] ++ leBytes 4 x.lastApp ++
    leBytes 2 (s.partSite x.part))

/-- A transfer leaves, with the blocks held for it. -/
def State.dropXfer (s : State) (x : Xfer) : State :=
  s.putTrs { s.trs with
    xfers := s.trs.xfers.filter (· != x)
    deltas := s.trs.deltas.filter (fun e => !(e.part == x.part && e.slot == x.slot)) }

/-- A transfer's blocks are installed (13 R388): for RECON the current lineage record takes the END frame's
digest; the fingerprints of the group's slots are formed again (R380), and the slot's decides between done and failed. -/
def State.xferDone (s : State) (x : Xfer) : State :=
  let cur := s.cur x.group
  let s := if x.kind = 3 then s.putLin x.group cur { s.lin x.group cur with digest := x.digest, valid := true } else s
  let s := (s.groupSlots x.group).foldl (fun s q => s.storePrint q.1 q.2 cur) s
  let ok := match x.fp with
    | some f => f == s.loadPrint x.slot cur
    | none => false
  (s.xferEvent x (if ok then 2 else 3)).dropXfer x

end Sys2Proof.Machine
end

