-- ==== Sys2Proof/Machine/SbdExport.lean ====
section
/-!
DEFINITION. The difference-stream export of the Sideboards (08 R255 to R260) and the endpoint's writes
towards the host (15 R426).
-/
namespace Sys2Proof.Machine

/-- Data cut at the multiples of the maximum payload size (15 R421), each piece with its address (log 8). -/
def payloads (mps : Nat) : Nat → Nat → List Byte → List (Nat × List Byte)
  | 0, _, _ => []
  | k + 1, a, data =>
    let n := mps - a % mps
    if data.isEmpty then [] else (a, data.take n) :: payloads mps k (a + n) (data.drop n)

/-- A memory write of the endpoint towards the host (15 R421, R426): one for each payload, discarded and counted while Bus
Master Enable is clear. -/
def State.hostWrite (s : State) (a : Nat) (data : List Byte) : State :=
  (payloads (128 * 2 ^ s.pcie.mps) (data.length / 128 + 2) a data).foldl (fun s p =>
    if s.pcie.bme then s.send (.hostWrite p.1 p.2) else s.incSat A.mbxStat F.mbxStat.BMDROP 1) s

/-- Bytes of the export ring of a Sideboard are written (08 R255). -/
def State.expWrite (s : State) (t slot off : Nat) (data : List Byte) : State :=
  let a := (s.fld (A.sbdExpBase t) F.sbdExpBase.ADDR / 64 * 64 + off) % 2 ^ 64
  if s.flag (A.sbdExpCtl t) F.sbdExpCtl.TGT then s.hostWrite a data
  else s.sbdWriteFar (modOf a) (localOf a) data (unitExport slot)

/-- The size of the frame area (08 R263). -/
def State.expSize (s : State) (t : Nat) : Nat :=
  let n := s.fld (A.sbdExpCtl t) F.sbdExpCtl.SIZE
  2 ^ (if 16 ≤ n ∧ n ≤ 31 then n else 31)

/-- The fields of a frame's header that differ from frame to frame (08 R256). -/
structure FrameHdr where
  kind : Nat
  arr : Nat
  tid : Nat
  blk : Nat
  dec : Nat
  nf : Bool
  full : Bool
  deriving DecidableEq, Repr

/-- The 64 B header of a frame (08 R256). -/
def State.frameHdr (s : State) (t slot step : Nat) (d : UDesc) (h : FrameHdr) (eseq flen : Nat) : List Byte :=
  leBytes 8 (1 + h.kind * 2 ^ 8 + h.arr * 2 ^ 10 + d.ltag * 2 ^ 16 + h.tid % 2 ^ 32 * 2 ^ 32) ++
  leBytes 8 (h.blk + s.modnum * 2 ^ 32 + t * 2 ^ 46 + slot * 2 ^ 50) ++
  leBytes 8 (step + h.dec * 2 ^ 48 + h.nf.toNat * 2 ^ 51 + h.full.toNat * 2 ^ 52) ++
  leBytes 8 (eseq + flen * 2 ^ 32) ++ leBytes 32 0

/-- `RESYNC` shows the slots with the mark set (08 R263). -/
def State.showResync (s : State) (t : Nat) : State :=
  s.setFld (A.sbdExpStat t) F.sbdExpStat.RESYNC (countTrue (fun p => p.2.resync) (s.unit t).slots)

/-- A frame is written if it fits with its PAD frame, or dropped (08 R256, R259, R260): payload, header, then
the count in the control line. Answers whether it was written. -/
def State.putFrame (s : State) (t slot step : Nat) (d : UDesc) (h : FrameHdr) (payload : List Byte) : State × Bool :=
  let body := padTo 64 payload
  let flen := 64 + body.length
  let size := s.expSize t
  let head := s.fld (A.sbdExpHead t) F.sbdExpHead.HEAD
  let (s, tw, _) := s.memRead 3 (s.fld (A.sbdExpTptr t) F.sbdExpTptr.ADDR * 8) 8
  let free := (size + 2 ^ 64 - (head + 2 ^ 64 - numAt tw 0 8) % 2 ^ 64) % 2 ^ 64
  let room := size - head % size
  let pad := if flen > room then room else 0
  let eseq := (s.sslot t slot).eseq
  let s := s.modSlot t slot (fun x => { x with eseq := (eseq + 1) % 2 ^ 32 })
  if pad + flen ≤ free then
    let s := if pad = 0 then s else
      let s := s.expWrite t slot (64 + head % size + 64) (List.replicate (pad - 64) 0)
      let s := s.expWrite t slot (64 + head % size) (leBytes 8 (1 + 3 * 2 ^ 8) ++
        leBytes 8 (s.modnum * 2 ^ 32 + t * 2 ^ 46) ++ leBytes 8 0 ++ leBytes 8 (pad * 2 ^ 32) ++ leBytes 32 0)
      let s := s.incWrap (A.sbdExpStat t) F.sbdExpStat.FRAMES 1
      let s := s.setFld (A.sbdExpHead t) F.sbdExpHead.HEAD (head + pad)
      s.expWrite t slot 0 (leBytes 8 (head + pad))
    let at' := 64 + (head + pad) % size
    let s := if body.isEmpty then s else s.expWrite t slot (at' + 64) body
    let s := s.expWrite t slot at' (s.frameHdr t slot step d h eseq flen)
    let s := s.incWrap (A.sbdExpStat t) F.sbdExpStat.FRAMES 1
    let s := s.setFld (A.sbdExpHead t) F.sbdExpHead.HEAD (head + pad + flen)
    (s.expWrite t slot 0 (leBytes 8 (head + pad + flen)), true)
  else
    let first := !(s.sslot t slot).resync
    let s := s.incSat (A.sbdExpStat t) F.sbdExpStat.DROPS 1
    let s := s.modSlot t slot (fun x => { x with resync := true })
    let s := if first then s.sbdEvent 0x26 t (leBytes 6 step ++ leBytes 2 slot ++ leBytes 4 eseq ++ leBytes 3 0 ++ [BitVec.ofNat 8 t]) else s
    (s.showResync t, false)

/-- The coded blocks of a position's bytes (08 R256, R257): 4,096 symbols each, padded to 8 B. -/
def codedBlocks (tabs : List (Nat × CodeLens)) (l : List Byte) : List Byte :=
  (chunks 4096 (l.length / 4096 + 1) l).flatMap (fun c => padTo 8 (encodeBlock tabs (c.map (·.toNat))))

/-- The export table of a slot (08 R255, R257), where it is valid. -/
def State.exportTable (s : State) (t : Nat) (d : UDesc) : List (Nat × CodeLens) :=
  match tableOf 0 (s.memRead 3 (s.fld (A.sbdExpTab t) F.sbdExpTab.ADDR * 8 + 136 * d.tab) 136).2.1 with
  | some l => [(d.tab, l)]
  | none => []

/-- The arrays that a slot exports (08 R233). -/
def UDesc.exports (d : UDesc) (k : Nat) : Bool := d.has k && bit d.expm k && k != 3 && k != 4 && k != 11

/-- A coded block of an array goes into a frame. -/
def exportPut (tabs : List (Nat × CodeLens)) (t slot step : Nat) (d : UDesc) (nfPos : List (Nat × Nat)) (kind p k : Nat) (l : List Byte)
    (q : State × Bool) : State × Bool :=
  let (s, ok) := q.1.putFrame t slot step d ⟨kind, k, d.tidb + k, d.block t p, 0, nfPos.contains (t, p), false⟩ (codedBlocks tabs l)
  (s, q.2 && ok)

/-- An array of a position goes into a KEY frame, padding as +0 (08 R221). -/
def exportKey (t : Nat) (d : UDesc) (put : Nat → Nat → Nat → List Byte → State × Bool → State × Bool) (p : Nat) (q : State × Bool)
    (k : Nat) : State × Bool :=
  let (s, l, _) := q.1.readPos d t k p
  let l := ((List.range 2048).zip l).map (fun x => if d.pad (d.block t p) x.1 then 0 else x.2)
  put 1 p k (elemsOut (d.fmt k).bytes l) (s, q.2)

/-- What an array of a position changed by goes into a DELTA frame. -/
def exportDelta (t slot : Nat) (d : UDesc) (put : Nat → Nat → Nat → List Byte → State × Bool → State × Bool) (q : State × Bool)
    (w : Wrote) : State × Bool :=
  if (q.1.sslot t slot).resync then q
  else
    let (s, l, _) := q.1.memRead 3 (d.addr t w.k w.p) (d.posBytes w.k)
    let old := elemsOut (d.fmt w.k).bytes w.old
    put 0 w.p w.k ((l.zip old).map (fun x => x.1 ^^^ x.2)) (s, q.2)

/-- The KEY frames of every position, or the DELTA frames of what changed; whether none was lost (08 R255 to R258). -/
def State.exportBlocks (s : State) (tabs : List (Nat × CodeLens)) (t slot step : Nat) (d : UDesc) (nfPos : List (Nat × Nat))
    (full : Bool) (wr : List Wrote) : State × Bool :=
  if full then
    (d.positions t).foldl (fun q p =>
      ((List.range 11).filter d.exports).foldl (exportKey t d (exportPut tabs t slot step d nfPos) p) q) (s, true)
  else (wr.filter (fun w => w.t == t && d.exports w.k)).foldl (exportDelta t slot d (exportPut tabs t slot step d nfPos)) (s, true)

/-- The frames of a slot and step at one Sideboard (08 R258): KEY frames of everything, or DELTA frames of what
was written, then STEPEND. `FULL` is set where every KEY frame of the export was written. -/
def State.exportAt (s : State) (t slot step : Nat) (d : UDesc) (dec : Nat) (nfPos : List (Nat × Nat)) (wr : List Wrote) : State :=
  if !s.flag (A.sbdExpCtl t) F.sbdExpCtl.EN then s
  else
    let keyp := s.fld (A.sbdExpCtl t) F.sbdExpCtl.KEYP
    let full := !(s.unit t).keyed.contains slot || (keyp != 0 && step % keyp == 0) || (s.sslot t slot).resync
    let s := s.modUnit t (fun u => { u with keyed := if u.keyed.contains slot then u.keyed else slot :: u.keyed })
    let tabs := s.exportTable t d
    let r := s.exportBlocks tabs t slot step d nfPos full wr
    let done := full && r.2
    let e := r.1.putFrame t slot step d ⟨2, 0, d.tidb, 0, dec, nfPos.any (fun q => q.1 == t), done⟩ []
    if done && e.2 then (e.1.modSlot t slot (fun x => { x with resync := false })).showResync t else e.1

end Sys2Proof.Machine
end

