-- ==== Sys2Proof/Machine/SbdUpdate.lean ====
section
/-!
DEFINITION. The update of a slot (08 R238 to R254): the gate, the rules, the boundary actions (12 R352, R353,
R369; 13 R388, R391), the watch entry, the gate log, publication.
-/
namespace Sys2Proof.Machine

/-- An update under way: the state, positions with a non-finite or unreadable element, positions updated, the
exact sums of the ratio and the drift (08 R252, R253), the arrays written and the accumulators cleared as they were, unreadable
positions, whether a root of the matrix rule was infinite (R240). -/
structure Upd where
  s : State
  nf : List (Nat × Nat)
  n : Nat
  sd : Nat
  sw : Nat
  dn : Int
  dd : Nat
  wr : List Wrote
  cleared : List Wrote
  bad : List (Nat × Nat)
  inf : Bool
  deriving DecidableEq, Repr

/-- The results of one element as stored (08 R238): array, binary32 value, encoding; the working copy goes
with the master (R248). -/
def UDesc.stored (d : UDesc) (seed : Word) (b i step : Nat) (l : List (Nat × Nat)) : List (Nat × Nat × Nat) :=
  l.flatMap (fun q =>
    let x := (q.1, q.2, d.store seed q.1 b i step q.2)
    if q.1 = 0 ∧ d.wide then [x, (3, q.2, d.store seed 3 b i step q.2)] else [x])

/-- Arrays are noted as they were, where a position's first write of the update is made. -/
def Upd.note (u : Upd) (t p : Nat) (olds : FMap (List Nat)) : Upd :=
  { u with wr := u.wr ++ (olds.filter (fun o => !u.wr.any (fun w => w.t == t && w.p == p && w.k == o.1))).map (fun o => ⟨t, p, o.1, o.2⟩) }

/-- Elements of a position are written as stored (08 R221, R239): padding never is, and an element with a result that is
not finite keeps all its arrays. `olds` lists the arrays written, as they are; `elem` gives an element's
results: array, binary32 value, encoding. Answers with the binary32 value of array 0 of each element written. -/
def Upd.putStored (u : Upd) (d : UDesc) (t p : Nat) (olds : FMap (List Nat)) (elem : Nat → List (Nat × Nat × Nat)) :
    Upd × List (Option Nat) :=
  let b := d.block t p
  let rows := (List.range 2048).map (fun i => (i, if d.pad b i then [] else elem i))
  let odd (q : Nat × Nat × Nat) : Bool := (d.fmt q.1).odd q.2.2
  let s := rows.foldl (fun s r => ((List.range 12).flatMap (fun k => r.2.filter (fun q => q.1 == k && odd q))).foldl (fun s q =>
    s.nonFinite t (d.tidb + q.1) (2048 * b + r.1)) s) u.s
  let good := rows.map (fun r => if r.2.any odd then [] else r.2)
  let s := olds.foldl (fun s o => s.writePos d t o.1 p ((good.zip o.2).map (fun x =>
    match x.1.find? (fun q => q.1 == o.1) with
    | some q => q.2.2
    | none => x.2))) s
  let u := u.note t p olds
  ({ u with
      s := s
      nf := if rows.any (fun r => r.2.any odd) then (t, p) :: u.nf else u.nf },
    good.map (fun l => (l.find? (fun q => q.1 == 0)).map (·.2.1)))

/-- Elements of a position are written from binary32 results (08 R238). -/
def Upd.put (u : Upd) (d : UDesc) (t p step : Nat) (olds : FMap (List Nat)) (elem : Nat → List (Nat × Nat)) : Upd × List (Option Nat) :=
  u.putStored d t p olds (fun i => d.stored u.s.seed (d.block t p) i step (elem i))

/-- Arrays of a position are read; the lowest one that cannot be makes the position unusable (16 R454). -/
def Upd.read (u : Upd) (slot : Nat) (d : UDesc) (t p : Nat) (ks : List Nat) : Upd × Option (FMap (List Nat)) :=
  let (s, l, bad) := ks.foldl (fun (q : State × FMap (List Nat) × Option Nat) k =>
    let (s, x, ok) := q.1.readPos d t k p
    (s, FMap.set q.2.1 k x, if ok then q.2.2 else some (q.2.2.getD k))) (u.s, [], none)
  halves (match bad with
  | some k => ({ u with s := s.badPosition slot d t k p, nf := (t, p) :: u.nf, bad := (t, p) :: u.bad }, none)
  | none => ({ u with s := s.goodPosition slot d t p }, some l))

/-- An array of a position as it is, readable or not. -/
def Upd.peek (u : Upd) (d : UDesc) (t p k : Nat) : List Nat := (u.s.readPos d t k p).2.1

/-- The elements of an array that was read, as binary32. -/
def UDesc.vals (d : UDesc) (m : FMap (List Nat)) (k : Nat) : Array Nat := ((FMap.getD m k []).map (toF32 (d.fmt k))).toArray

/-- The exact sums of the ratio and the drift over a position updated (08 R252, R253). -/
def Upd.measure (u : Upd) (d : UDesc) (t p : Nat) (old : List Nat) (res : List (Option Nat)) : Upd :=
  let new := u.peek d t p 0
  let v (x : Nat) : Int := ((d.fmt 0).decode x).units
  ((old.zip new).zip res).foldl (fun u q =>
    let (o, w) := (v q.1.1, v q.1.2)
    let u := { u with sd := u.sd + (w - o).natAbs * (w - o).natAbs, sw := u.sw + w.natAbs * w.natAbs }
    match q.2 with
    | some t32 =>
      let x := (f32 t32).units
      { u with dn := u.dn + (w - x), dd := u.dd + (x - o).natAbs }
    | none => u) { u with n := u.n + 1 }

/-- The constants of an update (08 R244): lr, q, 1 - h1, 1 - h2, C1, C2. -/
structure Consts where
  lr : Nat
  q : Nat
  k1 : Nat
  k2 : Nat
  c1 : Nat
  c2 : Nat
  deriving DecidableEq, Repr

/-- The AdamW family (08 R244). -/
def adamw (d : UDesc) (c : Consts) (g w m v : Nat) : List (Nat × Nat) :=
  let h := d.par
  let g := f32mul g c.q
  let g := if d.decay then f32fma (h 4) w g else g
  let m := f32fma (h 1) m (f32mul c.k1 g)
  let v := f32fma (h 2) v (f32mul c.k2 (f32mul g g))
  let r := f32div (f32mul m c.c1) (f32add (f32sqrt (f32mul v c.c2)) (h 3))
  let r := if d.decay then r else f32fma (h 4) w r
  [(0, f32fnma c.lr r w), (1, m), (2, v)]

/-- The sign of a value: ±1, +0 for a zero; a NaN stays one (08 R244). -/
def f32sign (x : Nat) : Nat :=
  match f32 x with
  | .nan _ => Fmt.b32.qnan
  | .zero _ => 0
  | v => if v.neg then 0xBF800000 else f32one

/-- Sign momentum (08 R244). -/
def signmom (d : UDesc) (c : Consts) (g w m : Nat) : List (Nat × Nat) :=
  let h := d.par
  let g := f32mul g c.q
  let r := f32fma (h 4) w (f32sign (f32fma (h 1) m (f32mul c.k1 g)))
  [(0, f32fnma c.lr r w), (1, f32fma (h 2) m (f32mul c.k2 g))]

/-- The arrays that a rule writes, as they are: those read, and the working copy. -/
def Upd.olds (u : Upd) (d : UDesc) (t p : Nat) (m : FMap (List Nat)) (ks : List Nat) : FMap (List Nat) :=
  let l : FMap (List Nat) := ks.map (fun k => (k, (FMap.get? m k).getD (u.peek d t p k)))
  if d.wide ∧ ks.contains 0 then FMap.set l 3 (u.peek d t p 3) else l

/-- The elementwise rules on one position (08 R244, R245). -/
def Upd.elementwise (u : Upd) (slot : Nat) (d : UDesc) (step : Nat) (c : Consts) (t p : Nat) : Upd :=
  let ks := if d.rule = 1 then [0, 1, 2] else [0, 1]
  let (u, r) := u.read slot d t p (ks ++ [4])
  match r with
  | none => u
  | some m =>
    let (w, m1, v, g) := (d.vals m 0, d.vals m 1, d.vals m 2, d.vals m 4)
    let (u, res) := u.put d t p step (u.olds d t p m ks) (fun i =>
      if d.rule = 1 then adamw d c (g.getD i 0) (w.getD i 0) (m1.getD i 0) (v.getD i 0)
      else signmom d c (g.getD i 0) (w.getD i 0) (m1.getD i 0))
    u.measure d t p (FMap.getD m 0 []) res

/-- The matrix rule on the whole tensor (08 R246): elements beyond `P` × `Q` are not written. -/
def Upd.matrix (u : Upd) (slot : Nat) (d : UDesc) (step : Nat) (c : Consts) : Upd :=
  let places := (List.range d.nblk).map (fun b => (b % 16, b / 16))
  let (u, data) := places.foldl (fun (q : Upd × List (Option (FMap (List Nat)))) tp =>
    let (u, r) := q.1.read slot d tp.1 tp.2 [0, 1, 4]
    (u, q.2 ++ [r])) (u, [])
  let all (k : Nat) : Array Nat := (data.flatMap (fun r => match r with
    | some m => (FMap.getD m k []).map (toF32 (d.fmt k))
    | none => List.replicate 2048 0)).toArray
  let (w, m, g) := (all 0, all 1, all 4)
  let n := d.p * d.q
  let gs := (List.range n).map (fun e => f32mul (g.getD e 0) c.q)
  let ms := ((List.range n).zip gs).map (fun x => f32fma (d.par 5) (m.getD x.1 0) x.2)
  let xs := if d.nest then (ms.zip gs).map (fun x => f32fma (d.par 5) x.1 x.2) else ms
  let u := { u with inf := u.inf || normOf xs == f32inf }
  let o := (orthogonal d.p d.q (d.par 3) (d.par 6) (d.par 7) (d.par 8) d.kns xs).toArray
  let ma := ms.toArray
  (places.zip data).foldl (fun u x =>
    match x.2 with
    | none => u
    | some r =>
      let (t, p) := x.1
      let b := d.block t p
      let (u, res) := u.put d t p step (u.olds d t p r [0, 1]) (fun i =>
        let e := 2048 * b + i
        if e < n then
          [(0, f32fnma c.lr (f32fma (d.par 4) (w.getD e 0) (f32mul (d.par 9) (o.getD e 0))) (w.getD e 0)), (1, ma.getD e 0)]
        else [])
      u.measure d t p (FMap.getD r 0 []) res) u

/-- The gather copy of a run of 32 elements (08 R248; 07 R216 rules 2 and 3, RNE): scale byte and data. -/
def gatherRun (f : Fmt) (l : List Nat) : Nat × List Nat :=
  let vs := l.map (fun x => f.decode x)
  let amax : Nat := vs.foldl (fun (a : Nat) (v : FVal) => max a v.units.natAbs) 0
  if amax = 0 then (0, l.map (fun _ => 0))
  else
    let e := (List.range 400).find? (fun i => decide (amax * 2 ^ 200 ≤ 240 * 2 ^ 192 * 2 ^ i))
    let e : Int := (e.getD 0 : Int) - 200
    let sc := (max 0 (e + 127)).toNat
    (sc, vs.map (fun v =>
      let y := match v with
        | .fin n m x => FVal.fin n m (x + 127 - sc)
        | v => v
      (Fmt.gf8a.convert .rne (f.decode (f.convert .rne y).1)).1))

/-- Gather copies of the positions whose array 0 was written (08 R248). -/
def Upd.gather (u : Upd) (d : UDesc) : Upd :=
  if !d.g8 then u
  else (u.wr.filter (fun w => w.k == 0)).foldl (fun u w =>
    let runs := (chunks 32 64 (u.peek d w.t w.p 0)).map (gatherRun (d.fmt 0))
    let l := runs.flatMap (fun r => r.2.map (BitVec.ofNat 8)) ++ runs.map (fun r => BitVec.ofNat 8 r.1)
    let (s, old, _) := u.s.memRead 3 (d.addr w.t 11 w.p) 2112
    { u.note w.t w.p [(11, old.map (·.toNat))] with s := s.memWrite 3 (d.addr w.t 11 w.p) l }) u

/-- A snapshot's boundary action on one position (12 R353). -/
def Upd.snapPos (u : Upd) (slot : Nat) (d : UDesc) (cur round t p : Nat) : Upd :=
  let (u, r) := u.read slot d t p [0, 6, 7 + cur]
  match r with
  | none => u
  | some m =>
    let (w, e, a) := (d.vals m 0, d.vals m 6, d.vals m (7 + cur))
    (u.put d t p (0xC00000000000 + round) (u.olds d t p m [0, 6]) (fun i => snapElem (a.getD i 0) (w.getD i 0) (e.getD i 0))).1

/-- An anchor block of a partner in reunion, decoded against the anchor slot whose digest its frame gives as base (13 R386, R391). -/
def Upd.partnerAnchor (u : Upd) (d : UDesc) (g slot t p part : Nat) : Option (List Nat) :=
  let b := d.block t p
  let base := match u.s.trs.deltas.find? (fun e => e.part == part && e.slot == slot && e.block == b && e.arr == 0) with
    | some e => e.base
    | none => List.replicate 16 0xFF
  u.s.deltaBlock part slot b 0 2 (match u.s.anchorWith g base with
    | some j => elemsOut 2 (u.peek d t p (7 + j))
    | none => List.replicate 4096 0)

/-- The anchor that the A1 of an apply is formed from (13 R391, R392), by element. -/
def Upd.base (u : Upd) (slot : Nat) (d : UDesc) (g : Grp) (t p : Nat) (own : Array Nat) : Array Nat :=
  match g.reunite with
  | none => own
  | some .adopted => own
  | some (.adopt part) =>
    match u.partnerAnchor d (u.s.slotGroup slot).1 slot t p part with
    | some l => (l.map (toF32 .gf16b)).toArray
    | none => own
  | some (.merge rc _ classes) =>
    let ac := u.peek d t p (7 + rc)
    let a0 := ac.map (toF32 .gf16b)
    (classes.foldl (fun acc c =>
      let cls := match c with
        | none => own.toList
        | some part => match u.partnerAnchor d (u.s.slotGroup slot).1 slot t p part with
          | some l => l.map (toF32 .gf16b)
          | none => a0
      (acc.zip (cls.zip a0)).map (fun x => f32add x.1 (f32sub x.2.1 x.2.2))) a0).toArray

/-- A latch in a boundary action marks the group's apply record (12 R370). -/
def Upd.marked (gi : Nat) (old new : Upd) : Upd :=
  if new.nf.length > old.nf.length then { new with s := new.s.modGrp gi (fun x => { x with nf := true }) } else new

/-- An apply's boundary action on one position (12 R367, R369). -/
def Upd.applyPos (u : Upd) (slot gi : Nat) (d : UDesc) (cur t p : Nat) : Upd :=
  let g := u.s.grp gi
  let dst := 7 + (cur + 1) % u.s.depth
  let (u, r) := u.read slot d t p [0, 5, 6, 7 + cur]
  match r with
  | none => u
  | some m =>
    let b := d.block t p
    let (w, m5, e, a) := (d.vals m 0, d.vals m 5, d.vals m 6, d.vals m (7 + cur))
    let (sum, lost) := u.s.diffSum gi slot (16 * p + t) g.uses
    let lost := lost.filter (fun i => !d.pad b i)
    let s := lost.foldl (fun s i => s.nonFinite 0x80 (d.tidb + 12) (2048 * b + i)) u.s
    let s := if lost.isEmpty then s else s.modGrp gi (fun x => { x with nf := true })
    let u := { u with s := s }
    let sum := sum.toArray
    let own := (u.s.contribBlock u.s.site g.appRound gi slot (16 * p + t)).toArray
    let base := u.base slot d g t p a
    let step := 0x800000000000 + g.appRound
    let law := u.s.law gi
    let seed := u.s.seed
    Upd.marked gi u (u.put d t p step (u.olds d t p m [0, 5, dst]) (fun i =>
      applyElem law.nest law.mu law.eta dst (fun x => toF32 .gf16b (d.store seed dst b i step x)) (sum.getD i 0) (own.getD i 0)
        (if g.reunite.isSome then 0 else m5.getD i 0) (a.getD i 0) (base.getD i 0) (w.getD i 0) (e.getD i 0))).1

/-- A transfer's blocks are installed in the anchor at one position (13 R388): for RECON the weights move with
it. Padding is not written (08 R221), nor an element with a value that is not finite (06 R183). -/
def Upd.patchPos (u : Upd) (x : Xfer) (d : UDesc) (cur t p : Nat) : Upd :=
  let b := d.block t p
  if !x.need.contains b then u
  else
    let (u, r) := u.read x.slot d t p [0, 7 + cur]
    match r with
    | none => u
    | some m =>
      let old := FMap.getD m (7 + cur) []
      match u.partnerAnchor d (u.s.slotGroup x.slot).1 x.slot t p x.part with
      | none => u
      | some new =>
        let (w, n, o) := (d.vals m 0, new.toArray, old.toArray)
        let v (l : Array Nat) (i : Nat) : Nat := toF32 .gf16b (l.getD i 0)
        let step := 0xA00000000000 + u.s.gcfgWord (u.s.slotGroup x.slot).1 1 % 2 ^ 32
        (u.putStored d t p (u.olds d t p m (if x.kind = 2 then [7 + cur] else [0, 7 + cur])) (fun i =>
          (7 + cur, v n i, n.getD i 0) ::
            (if x.kind = 2 then [] else d.stored u.s.seed b i step [(0, f32add (w.getD i 0) (f32sub (v n i) (v o i)))]))).1

/-- The boundary actions of a slot that were due when its update started (12 R352; 13 R388): its group's, and those of the
transfers from the partners in `ready`. -/
def Upd.boundary (u : Upd) (slot : Nat) (d : UDesc) (due : Bool) (ready : List Nat) : Upd :=
  let gi := (u.s.slotGroup slot).1
  let g := u.s.grp gi
  let cur := u.s.cur gi
  let atAll (u : Upd) (f : Upd → Nat → Nat → Upd) : Upd := d.places.foldl (fun u q => f u q.1 q.2) u
  let u := if due && g.todo.contains slot then
      let u := if g.phase = .snapping then atAll u (fun u t p => u.snapPos slot d cur (g.round.getD 0) t p)
        else if g.phase = .applying then atAll u (fun u t p => u.applyPos slot gi d cur t p)
        else u
      { u with s := u.s.groupStep gi slot }
    else u
  (u.s.trs.xfers.filter (fun x => x.slot == slot && x.ready && ready.contains x.part)).foldl (fun u x =>
    let u := atAll u (fun u t p => u.patchPos x d cur t p)
    { u with s := u.s.xferDone x }) u

/-- The decision of the gate (08 R242): 0 UPDATE, 1 CLIP, 2 SKIP, 3 HOLD, with the factor f. -/
def gate (d : UDesc) (gpol gb nl ng : Nat) (slotNf globalNf : Bool) : Nat × Nat :=
  let v (pol a b : Nat) : Nat × Nat := if pol = 1 then (2, 0) else if pol = 3 then (3, 0) else (1, f32div a b)
  let one (c : Bool) (x : Nat × Nat) : List (Nat × Nat) := if c then [x] else []
  let l :=
    one (slotNf && !d.nfpol) (2, 0) ++
    one (gpol != 0 && globalNf) (if gpol = 3 then 3 else 2, 0) ++
    one (gpol != 0 && f32gt gb 0 && f32gt ng gb) (v gpol gb ng) ++
    one (d.lpol != 0 && f32gt (d.par 10) 0 && f32gt nl (d.par 10)) (v d.lpol (d.par 10) nl)
  if l.any (fun x => x.1 == 2) then (2, 0)
  else if l.any (fun x => x.1 == 3) then (3, 0)
  else match l with
    | [] => (0, f32one)
    | x :: r => (1, r.foldl (fun f y => f32mul f y.2) x.2)

/-- The gradient of a touched position is cleared with its touched bit. -/
def Upd.clearAt (slot : Nat) (d : UDesc) (u : Upd) (q : Nat × Nat) : Upd :=
  if !u.s.touched d q.1 q.2 || u.bad.contains q then u
  else
    let (u, r) := u.read slot d q.1 q.2 [4]
    match r with
    | none => u
    | some m => { u with
        s := (u.s.writePos d q.1 4 q.2 (List.replicate 2048 0)).touch d q.1 q.2 false
        cleared := u.cleared ++ [⟨q.1, q.2, 4, FMap.getD m 4 []⟩] }

/-- The accumulator and the touched bits of a slot are cleared at the touched positions (08 R241 step 7); an
unreadable position keeps both (16 R454). -/
def Upd.clear (u : Upd) (slot : Nat) (d : UDesc) : Upd := d.places.foldl (Upd.clearAt slot d) u

/-- What a position's working copy of weights is to be by its master, and how many of its elements differ (08 R254). -/
def rederived (m : FMap (List Nat)) : List Nat × Nat :=
  let want := (FMap.getD m 0 []).map (fun x => (cvt .b32 .gf16a .rne x).1)
  (want, countTrue (fun x : Nat × Nat => x.1 != x.2) (want.zip (FMap.getD m 3 [])))

/-- A position's working copy, where it and its master could be read, is mended (08 R254); the mismatches are counted. -/
def Upd.mend (d : UDesc) (t p n : Nat) : Upd × Option (FMap (List Nat)) → Upd × Nat
  | (u, none) => (u, n)
  | (u, some m) =>
    let (want, k) := rederived m
    ({ u with s := if k = 0 then u.s else u.s.writePos d t 3 p want }, n + k)

/-- The re-derive check of a position of a wide slot (08 R254): the mismatches found and mended. A position that cannot be read
is left as 16 R454 says. -/
def Upd.rederiveAt (slot : Nat) (d : UDesc) (t : Nat) (q : Upd × Nat) (p : Nat) : Upd × Nat :=
  Upd.mend d t p q.2 (q.1.read slot d t p [0, 3])

/-- The re-derive check of a wide slot at one Sideboard (08 R254), with its mismatches in `SBD_RAS.MISM` and event 0x24. -/
def Upd.rederive (slot step : Nat) (d : UDesc) (q : Upd × Nat) (t : Nat) : Upd × Nat :=
  let (u, n) := (d.positions t).foldl (Upd.rederiveAt slot d t) (q.1, 0)
  if n = 0 then (u, q.2)
  else
    let s := u.s.incSat (A.sbdRas t) F.sbdRas.MISM n
    ({ u with s := s.sbdEvent 0x24 t (leBytes 6 step ++ leBytes 2 slot ++ leBytes 4 n ++ leBytes 3 0 ++ [BitVec.ofNat 8 t]) }, q.2 + n)

/-- Whether a Sideboard checks wide slots after a step's updates (08 R254). -/
def State.rederives (s : State) (step t : Nat) : Bool :=
  let n := s.fld (A.sbdCtl t) F.sbdCtl.RDP
  n != 0 && step % n == 0

/-- The Sideboard with the duties of Sideboard 0 (16 R453). -/
def State.leader (s : State) : Nat := if s.flag (A.sbdRas 0) F.sbdRas.FAULT then (s.standIn 0).getD 0 else 0

/-- Words of the step record (08 R235). -/
def recWord (l : List Byte) (i hi lo : Nat) : Nat := bits (numAt l (8 * i) 8) hi lo

/-- An infinite root makes the slot non-finite for the step (08 R240): those of the ratio. -/
def rootsInfinite (sd sw : Nat) : Bool := sqrtExact sd == f32inf || sqrtExact sw == f32inf

/-- The processing of a slot's step up to the clearing of the accumulator, with the check that follows it (08 R241 steps 2 to 7,
R254), `recs` being the step records latched by the sixteen Sideboards, `ng` and `gnf` the global norm used and its mark. -/
def State.update (s : State) (slot step : Nat) (d : UDesc) (recs : Nat → List Byte) (ng : Nat) (gnf : Bool) : State × SbdFin :=
  let (s, sum) := s.slotSum d
  let nl := d.norm sum
  let slotNf := (List.range 16).any (fun t => (s.sslot t slot).nf) || Fmt.b32.odd nl
  let lead := recs 0
  let (dec, f) := gate d (recWord lead 3 1 0) (recWord lead 1 63 32) nl ng slotNf gnf
  let (f, s) := if dec ≥ 2 then s.draw (2 ^ 32 - 1) else (f, s)
  let anyTouched := d.places.any (fun q => s.touched d q.1 q.2)
  let noGrad := decide (dec < 2) && d.rule == 3 && !anyTouched
  let consts (t : Nat) : Consts :=
    let r := recs t
    ⟨f32mul (d.par 0) (recWord r 1 31 0), f32mul (d.par 14) f, f32sub f32one (d.par 1), f32sub f32one (d.par 2),
      recWord r 2 31 0, recWord r 2 63 32⟩
  let u : Upd := ⟨s, [], 0, 0, 0, 0, 0, [], [], [], false⟩
  let u := if dec ≥ 2 || noGrad then u
    else if d.rule = 3 then u.matrix slot d step (consts 0)
    else d.places.foldl (fun u q =>
      if d.dense || u.s.touched d q.1 q.2 then u.elementwise slot d step (consts q.1) q.1 q.2 else u) u
  let u := u.gather d
  let u := if dec = 3 then u else u.clear slot d
  let (rho, delta) :=
    (if u.sd = 0 ∧ u.sw = 0 then 0 else if u.sw = 0 then f32inf else f32div (sqrtExact u.sd) (sqrtExact u.sw),
     if d.wide || u.dd = 0 then 0 else ratioExact u.dn.natAbs u.dd)
  let check := (List.range 16).filter (s.rederives step)
  let u := if d.wide && !check.isEmpty then
      let (u, n) := check.foldl (Upd.rederive slot step d) (u, 0)
      { u with s := u.s.putSbd { u.s.sbd with mism := FMap.set u.s.sbd.mism slot n } }
    else u
  let gi := (u.s.slotGroup slot).1
  (u.s,
    { dec := dec, noGrad := noGrad, f := f, nl := nl, ng := ng, rho := rho, delta := delta, n := u.n, slotNf := slotNf, globalNf := gnf
      inf := u.inf || rootsInfinite u.sd u.sw
      gmode := recWord lead 3 2 2 == 1
      nf := u.nf, wr := u.wr, cleared := u.cleared
      due := (u.s.grp gi).todo.contains slot
      ready := (u.s.trs.xfers.filter (fun x => x.slot == slot && x.ready)).map (·.part) })

/-- The decision as the watch entry and STEPEND show it (08 R251): 4 for NO GRADIENT. -/
def SbdFin.shown (e : SbdFin) : Nat := if e.noGrad then 4 else e.dec

/-- Sideboard 0 writes the watch entry and a gate-log entry, and raises the slot's events (08 R241 step 8, R242, R251 to R253). -/
def State.record (s : State) (slot step : Nat) (d : UDesc) (e : SbdFin) : State :=
  let ld := s.leader
  let ev (s : State) (code x : Nat) : State :=
    s.sbdEvent code ld (leBytes 6 step ++ leBytes 2 slot ++ leBytes 4 x ++ leBytes 3 0 ++ [BitVec.ofNat 8 ld])
  let ratioBad := (f32gt (d.par 11) 0 && f32gt (d.par 11) e.rho) || (f32gt (d.par 12) 0 && f32gt e.rho (d.par 12))
  let driftBad := f32gt (d.par 13) 0 && f32gt e.delta (d.par 13)
  let s := if ratioBad then ev s 0x22 e.rho else s
  let s := if driftBad then ev s 0x23 e.delta else s
  let nf := (List.range 16).any (fun t => (s.sslot t slot).nf) || !e.nf.isEmpty || e.inf
  let s := s.memWrite 3 (s.fld A.sbdWatch F.sbdWatch.ADDR * 64 + 64 * slot)
    (leBytes 8 (step + e.shown * 2 ^ 48 + nf.toNat * 2 ^ 51 + ratioBad.toNat * 2 ^ 52 + driftBad.toNat * 2 ^ 53) ++
      leBytes 4 e.nl ++ leBytes 4 e.ng ++ leBytes 4 e.f ++ leBytes 4 e.rho ++ leBytes 4 e.delta ++
      leBytes 4 (FMap.getD s.sbd.mism slot 0) ++ leBytes 8 e.n ++ leBytes 24 0)
  if e.dec = 0 then s
  else
    let w23 := leBytes 4 e.nl ++ leBytes 4 e.ng ++ leBytes 8 (e.f + e.dec * 2 ^ 32 + (e.slotNf || e.inf).toNat * 2 ^ 35 +
      e.globalNf.toNat * 2 ^ 36 + e.gmode.toNat * 2 ^ 37 + slot * 2 ^ 38)
    (s.logEntry glog 5 (leBytes 8 (step + d.ltag * 2 ^ 48) ++ w23) (some 0x14) (evSource 2 ld)).sbdEvent 0x21 ld w23

/-- The end of a slot's processing (08 R241 step 8; 12 R352): the records, then the boundary actions with the copies of R248, and
the export frames of what was written. -/
def State.finish (s : State) (slot step : Nat) (e : SbdFin) : State :=
  let d := udesc (s.sslot 0 slot).desc
  let s := s.record slot step d e
  let u : Upd := ⟨s, e.nf, 0, 0, 0, 0, 0, e.wr, [], [], false⟩
  let u := (u.boundary slot d e.due e.ready).gather d
  (List.range 16).foldl (fun s t => s.exportAt t slot step d e.shown u.nf u.wr) u.s

/-- A reset finds an update under way (08 R263): some of its positions are left as they were, freely chosen. While the rule was being
applied (`draw` 1) no accumulator was yet cleared; else all positions were updated and some accumulators are cleared. -/
def State.rollBack (s : State) (r : SbdRun) : State :=
  match r.fin with
  | none => s
  | some e =>
    let d := udesc (s.sslot 0 r.slot).desc
    let (early, s) := s.draw 1
    let places := ((e.wr ++ e.cleared).map (fun w => (w.t, w.p))).eraseDups
    places.foldl (fun s q =>
      let at' (l : List Wrote) : List Wrote := l.filter (fun w => (w.t, w.p) == q)
      let (keep, s) := s.draw 1
      let back (s : State) (w : Wrote) : State :=
        if w.k = 11 then s.memWrite 3 (d.addr w.t 11 w.p) (w.old.map (BitVec.ofNat 8)) else s.writePos d w.t w.k w.p w.old
      let s := if early = 1 ∧ keep = 0 then (at' e.wr).foldl back s else s
      if early = 1 ∨ keep = 0 then (at' e.cleared).foldl (fun s w => (back s w).touch d w.t w.p true) s else s) s

/-- The slots whose intake of a step is complete everywhere and whose update has not started (08 R247). -/
def State.readySlots (s : State) (step : Nat) : List Nat :=
  ((s.unit 0).slots.filter (fun p => s.intakeDone p.1 step && !s.sbd.runs.any (fun r => r.slot == p.1))).map (·.1)

/-- When the intake of a slot became complete everywhere. -/
def State.doneTime (s : State) (l : Nat) : Nat := ((List.range 16).map (fun t => (s.sslot t l).doneAt)).foldl max 0

/-- Whether a slot is the next of its step to be processed (08 R247). -/
def State.isNext (s : State) (l step : Nat) : Bool :=
  (s.readySlots step).all (fun j => j == l || decide (s.doneTime l < s.doneTime j) || (decide (s.doneTime l = s.doneTime j) && decide (l < j)))

/-- The step of a slot ends (08 R228): s_L becomes undefined, or is kept under HOLD, and the records that
waited for it are sorted again. -/
def State.endStep (s : State) (l : Nat) (held : Bool) : State :=
  let s := (List.range 16).foldl (fun s t => s.modSlot t l (fun x => { x with step := if held then x.step else none, held := held, done := held })) s
  ((List.range 16).foldl (fun s t => (s.unit t).waiting.foldl (fun s x =>
    if (s.readRec t x).2.slot == l then (s.modUnit t (fun u => { u with waiting := u.waiting.filter (· != x) })).sortRec t x else s) s) s).showSbd

/-- The global result that a step's updates use (08 R241 step 3): none while it is awaited. -/
def State.globalFor (s : State) (step : Nat) (lagged : Bool) : Option (Nat × Bool) :=
  if s.fld A.sbdNorm F.sbdNorm.GCNT = 0 then some (0, false)
  else if lagged then
    match s.normOf ((step + 2 ^ 48 - 1) % 2 ^ 48) with
    | some n => n.result
    | none => some (0, false)
  else (s.normOf step).bind (·.result)

/-- `SBD_UPDATE_START` (08 R241): the slot's update starts when intake of its step is complete at all
Sideboards, it is the next of its step (R247), every Sideboard is enabled and not halted, the step record is
present and the global result it needs has come. A slot with `RULE` 0 only clears its intake (R234). -/
def execSbdUpdateStart (l : Fin 4096) (s : State) : Out :=
  let l := l.val
  let ready := s.rst.level == 0 && (List.range 16).all (fun t => s.flag (A.sbdCtl t) F.sbdCtl.EN && !s.flag (A.sbdCtl t) F.sbdCtl.HALT) &&
    (List.range 16).any (fun t => !s.flag (A.sbdRas t) F.sbdRas.FAULT)
  match (s.sslot 0 l).step with
  | none => .next s
  | some step =>
    if !ready || !s.intakeDone l step || !s.isNext l step || s.sbd.runs.any (fun r => r.slot == l) then .next s
    else
      let (s1, desc) := s.readDesc l
      let d := udesc desc
      if !udescOk desc then .next s
      else if d.rule = 0 then
        let u : Upd := ⟨s1, [], 0, 0, 0, 0, 0, [], [], [], false⟩
        .next ((u.clear l d).s.endStep l false)
      else if s.sbd.runs.any (fun r => r.matrix == (d.rule == 3)) then .next s
      else if !(List.range 16).all (fun t => (FMap.getD (s.unit t).polls step ⟨0, 0, false, false⟩).present) then .next s
      else
        let (s2, recs) := (List.range 16).foldl (fun (q : State × List (Option (List Byte))) t =>
          let (s, r) := q.1.stepRec t step
          (s, q.2 ++ [r])) (s1, [])
        if recs.any (·.isNone) then .next s
        else
          let rec0 := (recs.getD 0 none).getD []
          match s.globalFor step (recWord rec0 3 2 2 == 1) with
          | none => .next s
          | some (ng, gnf) =>
            let s3 := (List.range 16).foldl (fun s t =>
              (s.modUnit t (fun u => { u with polls := if (s.readySlots step).length ≤ 1 then FMap.del u.polls step else u.polls, tries := 0 })).modSlot t l (fun x => { x with desc := desc })) s2
            let (s4, e) := s3.update l step d (fun t => (recs.getD t none).getD []) ng gnf
            .next (s4.putSbd { s4.sbd with runs := s4.sbd.runs ++ [⟨l, step, e.dec == 3, d.rule == 3, d.ucnt, some e⟩] }).showSbd

/-- The end of an update's processing is performed, once (08 R241 step 8). -/
def State.finishRun (s : State) (r : SbdRun) : State :=
  match r.fin with
  | none => s
  | some e =>
    let s := s.finish r.slot r.step e
    s.putSbd { s.sbd with runs := s.sbd.runs.map (fun x => if x.slot == r.slot then { x with fin := none } else x) }

/-- `SBD_PUBLISH` (08 R241 steps 8 and 9, R249): the slot's processing of the step comes to its end; when every write of the step is
visible, Sideboard 0 adds 1 to `UCNT`, the update ends and intake moves on. -/
def execSbdPublish (l : Fin 4096) (s : State) : Out :=
  .next (match s.sbd.runs.find? (fun r => r.slot == l.val) with
    | none => s
    | some r =>
      let s := s.finishRun r
      if s.unitPending (unitExport r.slot) (fun _ => true) then s
      else
        let s := s.putSbd { s.sbd with runs := s.sbd.runs.filter (fun x => x.slot != r.slot) }
        (s.unitSignal (0x3FFF * 2 ^ 16 + r.ucnt) 1 sbdWho 0).endStep r.slot r.held)

end Sys2Proof.Machine
end

