-- ==== Sys2Proof/Machine/Trestle.lean ====
section
/-!
DEFINITION. The Trestle's far frames: sealing, sending and the transmit buffer, reception, delays, presence
of partners, the calendar (12 R344 to R350, R358 to R364; 13 R375 to R377, R385).
-/
namespace Sys2Proof.Machine

/-- The module's private key (17 R480). -/
def ownKey : Nat := 1 + Config.privateKey % (sm2N - 2)

/-- The frame key of a group (12 R359). -/
def frameKey (key : List Byte) (g : Nat) : List Byte := (sm3 (key ++ [0x47, BitVec.ofNat 8 g])).take 16

/-- The key held in a key slot under an epoch (17 R483). -/
def State.keyOf (s : State) (k ep : Nat) : Option (List Byte) :=
  let a := A.secKey k
  if s.flag a F.secKey.V0 && s.fld a F.secKey.EP0 == ep then FMap.get? s.sec.keys (2 * k)
  else if s.flag a F.secKey.V1 && s.fld a F.secKey.EP1 == ep then FMap.get? s.sec.keys (2 * k + 1)
  else none

/-- Whether a partner entry is in use. -/
def State.partOn (s : State) (i : Nat) : Bool := s.flag (A.trsPart0 i) F.trsPart0.VALID

/-- The state of a partner: 0 UNUSED, 1 PRESENT, 2 ABSENT, 3 JOINING (12 R374). -/
def State.partState (s : State) (i : Nat) : Nat := s.fld (A.trsPart2 i) F.trsPart2.STATE

/-- The partner entries in use. -/
def State.partners (s : State) : List Nat := (List.range 256).filter s.partOn

/-- A partner's record. -/
def State.part (s : State) (i : Nat) : Partner := FMap.getD s.trs.parts i Partner.reset

/-- The state with a partner's record changed. -/
def State.modPart (s : State) (i : Nat) (f : Partner → Partner) : State :=
  s.putTrs { s.trs with parts := FMap.set s.trs.parts i (f (s.part i)) }

/-- The key slot of a partner. -/
def State.partKey (s : State) (i : Nat) : Nat := s.fld (A.trsPart0 i) F.trsPart0.KEYSLOT

/-- The nonce of a frame (12 R359). -/
def nonceOf (src owner round fnum : Nat) : Nat :=
  src % 2 ^ 16 * 2 ^ 80 + owner % 2 ^ 14 * 2 ^ 66 + round % 2 ^ 32 * 2 ^ 32 + fnum % 2 ^ 32

/-- The 64 B header of a frame sent now (12 R358). -/
def State.farHdr (s : State) (f : OutFrame) (kepoch : Nat) : List Byte :=
  leBytes 8 (1 + f.kind * 2 ^ 8 + f.last.toNat * 2 ^ 12 + f.nf.toNat * 2 ^ 13 + s.site * 2 ^ 16 + s.partSite f.part * 2 ^ 32 +
    s.fld A.trsSite F.trsSite.OWNER * 2 ^ 48) ++
  leBytes 8 (f.round % 2 ^ 32 + f.group * 2 ^ 32 + kepoch * 2 ^ 40) ++
  leBytes 8 (f.fidx + f.fnum % 2 ^ 32 * 2 ^ 32) ++
  leBytes 8 (s.gt.now / gtSecond % 2 ^ 48) ++ leBytes 8 (s.gt.now % gtSecond / 2 ^ 40 + f.body.length * 2 ^ 32) ++ leBytes 24 0

/-- The ports to a gateway that carry traffic (12 R345). -/
def State.gatePorts (s : State) : List Nat :=
  (List.range 36).filter (fun p => s.portUp p && s.flag (A.tmrPortStat p) F.tmrPortStat.PEERGW)

/-- A frame goes out on a port in the traffic class that the selector gives the Trestle (12 R345, 10 R310). -/
def State.sendBytes (s : State) (p : Nat) (l : List Byte) : State :=
  let s := (s.send (.far p (s.tcFor 4 0x3FFF) l)).incWrap A.trsCnt F.trsCnt.TX 1
  let (n, s) := s.draw 63
  s.incWrap (A.tmrPortCnt p) F.tmrPortCnt.FLITS (n + 1)

/-- Bytes held in the transmit buffer (12 R361). -/
def State.txUsed (s : State) : Nat := (s.trs.tx.map (fun f => f.bytes.length)).foldl (· + ·) 0

/-- The size of the transmit buffer (12 R373). -/
def State.txSize (s : State) : Nat :=
  let n := s.fld A.trsTxbuf F.trsTxbuf.SIZE
  2 ^ (if 24 ≤ n ∧ n ≤ 40 then n else 40)

/-- Whether a reunion with a partner executes at the APPLY of a round (13 R391). -/
def State.reuniting (s : State) (i round : Nat) : Bool :=
  s.fld (A.trsRstat i) F.trsRstat.PHASE == 2 && s.fld (A.trsRstat i) F.trsRstat.RE == round

/-- Whether DATA of a group's round goes to a partner and comes from it (12 R361; 13 R377, R391): it is PRESENT, or the SNAPSHOT of
the round in which a reunion with it executes has come. -/
def State.trades (s : State) (i g round : Nat) : Bool :=
  s.partState i == 1 || (s.reuniting i round && (s.grp g).round == some round)

/-- The round number `TRS_ROUND` (12 R346). -/
def State.roundNow (s : State) : Nat := s.fld A.trsRound F.trsRound.ROUND

/-- Whether a frame is of the kinds numbered as they are sent: FPRINT and CONTROL (13 R385). -/
def OutFrame.control (f : OutFrame) : Bool := decide (3 ≤ f.kind)

/-- The CONTROL and FPRINT frames already sent to a partner in the round now (13 R385). -/
def State.ctlCount (s : State) (i : Nat) : Nat := if (s.part i).ctlRound = s.roundNow then (s.part i).ctlSent else 0

/-- The frame as it would go out now: a CONTROL or FPRINT frame takes the round and the number of such frames already sent to the
partner with it, none once the count is exhausted (13 R385). -/
def State.numbered (s : State) (f : OutFrame) : Option OutFrame :=
  if !f.control then some f
  else if s.ctlCount f.part ≥ 2 ^ 30 then none
  else some { f with round := s.roundNow, fnum := 2 ^ 30 + s.ctlCount f.part }

/-- The bytes of a frame sealed under a key (12 R358, R359). -/
def State.sealFrame (s : State) (f : OutFrame) (ep : Nat) (key : List Byte) : List Byte :=
  let hdr := s.farHdr f ep
  let (ct, tag) := gcmSeal (frameKey key f.group) (nonceOf s.site (s.fld A.trsSite F.trsSite.OWNER) f.round f.fnum) hdr f.body
  hdr ++ ct ++ tag

/-- A frame that has been sent is kept, if it is DATA (12 R361), or counted (13 R385). -/
def State.noteSent (s : State) (f : OutFrame) (bytes : List Byte) : State :=
  if f.kind = 0 then
    let wait := 2 * s.fld (A.trsPart1 f.part) F.trsPart1.DEWMA + 2000
    s.putTrs { s.trs with tx := s.trs.tx ++ [⟨f.part, f.group, f.round, f.fidx, f.last, bytes, s.pulse, wait, false⟩] }
  else if f.control then
    let n := s.ctlCount f.part
    s.modPart f.part (fun x => { x with ctlRound := s.roundNow, ctlSent := n + 1 })
  else s

/-- A frame that waits is sent if a gateway port qualifies, its partner's slot has a key to send with, a CONTROL or FPRINT frame has a
number, and a DATA frame finds room in the transmit buffer, where it is kept (12 R345, R361; 13 R385; 17 R483). -/
def State.trySend (s : State) (f : OutFrame) : State × Bool :=
  let k := s.partKey f.part
  let ep := s.fld (A.secKey k) F.secKey.TXEP
  match bestCredit s.fresh s.gatePorts, s.keyOf k ep, s.numbered f with
  | some p, some key, some f =>
    let bytes := s.sealFrame f ep key
    if f.kind = 0 ∧ s.txUsed + bytes.length > s.txSize then
      (s.putTrs { s.trs with fullAt := if s.trs.fullAt.isSome then s.trs.fullAt else some s.pulse }, false)
    else (((s.putFresh (s.fresh + 1)).sendBytes p bytes).noteSent f bytes, true)
  | _, _, _ => (s, false)

/-- Buffered frames that are to go out again do, byte for byte, as long as a gateway port qualifies and their partner is sent DATA
(12 R345, R359, R362; 13 R377). -/
def State.sendAgain (s : State) : State :=
  s.trs.tx.foldl (fun s f =>
    if !f.again then s
    else match bestCredit s.fresh s.gatePorts with
      | none => s
      | some p =>
        let s := if s.trades f.part f.group f.round then (s.putFresh (s.fresh + 1)).sendBytes p f.bytes else s
        s.putTrs { s.trs with tx := s.trs.tx.map (fun x => if x == f then { x with again := false } else x) }) s

/-- `NOGW` shows whether no gateway port qualifies; event 0x65 when it comes up (12 R345, R372). -/
def State.showGate (s : State) : State :=
  let no := s.gatePorts.isEmpty && s.flag A.trsCtl F.trsCtl.EN
  if s.flag A.trsStat F.trsStat.NOGW == no then s
  else
    let s := s.setFld A.trsStat F.trsStat.NOGW no.toNat
    if no then s.trsEvent 0x65 [1] else s

/-- The frames that wait are sent in order, as far as they can be (12 R345, R361): a partner's CONTROL and FPRINT frames in their own
order. -/
def State.flushFar (s : State) : State :=
  let s := s.showGate.sendAgain
  let q := s.trs.wait
  let full := s.trs.fullAt
  let s := s.putTrs { s.trs with wait := [], fullAt := none }
  let (s, kept) := q.foldl (fun (a : State × List OutFrame) f =>
    let (s, ok) := if a.2.any (fun g => g.part == f.part && g.control == f.control) then (a.1, false) else a.1.trySend f
    (s, if ok then a.2 else a.2 ++ [f])) (s, [])
  let s := s.putTrs { s.trs with wait := kept }
  if full.isSome && s.trs.fullAt.isSome then s.putTrs { s.trs with fullAt := full }
  else if s.trs.fullAt.isSome then s else s.putTrs { s.trs with fullSaid := false }

/-- Frames are made ready to be sent, behind those that wait. -/
def State.sendFrames (s : State) (l : List OutFrame) : State :=
  (s.putTrs { s.trs with wait := s.trs.wait ++ l }).flushFar

/-- A CONTROL frame (kind 4) or an FPRINT frame (kind 3) to a partner (13 R385). -/
def State.control (s : State) (i kind g : Nat) (body : List Byte) : State :=
  s.sendFrames [⟨i, kind, false, false, s.roundNow, g, 0, 0, body⟩]

/-! ### The calendar (12 R346 to R349) -/

/-- The period in ns. -/
def State.period (s : State) : Nat := max 1000 (min 3600000 (s.fld A.trsPeriod F.trsPeriod.P)) * 1000000

/-- The epoch in ns. -/
def State.epoch (s : State) : Nat := s.fld A.trsEpoch F.trsEpoch.SEC * 1000000000 + min 999999999 (s.fld A.trsPeriod F.trsPeriod.NS)

/-- The round of an instant, not reduced (12 R346). -/
def State.roundOf (s : State) (t : Nat) : Int := ((t : Int) - s.epoch) / s.period

/-- T_n in ns. -/
def State.roundStart (s : State) (n : Int) : Int := s.epoch + n * s.period

/-- A round number modulo 2^32. -/
def round32 (n : Int) : Nat := toBits 32 n

/-- The calendar entry of an action of a group: the lowest-numbered one in use whose offset lies within the period (12 R347).
Actions: 1 SNAPSHOT, 2 SEND, 3 CLOSE, 4 APPLY. -/
def State.calIndex (s : State) (g action : Nat) : Option Nat :=
  firstNat 256 (fun i =>
    let a := A.trsCal i
    s.flag a F.trsCal.VALID && s.fld a F.trsCal.ACTION == action && s.fld a F.trsCal.GROUP == g &&
      decide (s.fld a F.trsCal.OFFSET * 1000 < s.period))

/-- The offset in ns of an action of a group (12 R347). -/
def State.calEntry (s : State) (g action : Nat) : Option Nat :=
  (s.calIndex g action).map (fun i => s.fld (A.trsCal i) F.trsCal.OFFSET * 1000)

/-- Whether a group takes part in the exchange (12 R347). -/
def State.takesPart (s : State) (g : Nat) : Bool :=
  (s.calEntry g 1).isSome && (s.calEntry g 2).isSome && (s.calEntry g 4).isSome &&
    (s.flag A.trsCtl F.trsCtl.GAUTO || (s.calEntry g 3).isSome)

/-- The participating groups in ascending order. -/
def State.groups (s : State) : List Nat := (List.range 256).filter s.takesPart

/-- `CALBAD` is set where an entry is ignored or a group lacks one (12 R347). -/
def State.checkCal (s : State) : State :=
  let used := (List.range 256).filter (fun i =>
    let a := A.trsCal i
    s.flag a F.trsCal.VALID && decide (1 ≤ s.fld a F.trsCal.ACTION) && decide (s.fld a F.trsCal.ACTION ≤ 4))
  let key (i : Nat) : Nat := s.fld (A.trsCal i) F.trsCal.GROUP * 8 + s.fld (A.trsCal i) F.trsCal.ACTION
  let bad := used.any (fun i => decide (s.fld (A.trsCal i) F.trsCal.OFFSET * 1000 ≥ s.period) ||
    used.any (fun j => decide (j < i) && key i == key j) || !s.takesPart (s.fld (A.trsCal i) F.trsCal.GROUP))
  if bad then s.hwSet A.trsStat F.trsStat.CALBAD else s

/-- The first instant of the form T_m + offset at or after a time (12 R348). -/
def State.nextInstant (s : State) (t off : Nat) : Int :=
  let n := s.roundOf t
  let x := s.roundStart n + off
  if x ≥ t then x else x + s.period

/-- Whether calendar actions may start now (12 R346, R349; 16 R456). -/
def State.mayAct (s : State) : Bool :=
  s.flag A.trsCtl F.trsCtl.EN && !s.flag A.trsCtl F.trsCtl.HALT && s.flag A.gtStat F.gtStat.VALID && decide (s.flt.pipesDead.length < 2)

/-- The rounds of a group whose snapshot time has passed and whose snapshot was neither begun nor skipped: the
latest, and how many came before it (12 R348, R349). -/
def State.dueRounds (s : State) (g off : Nat) : Option (Int × Nat) :=
  if s.gtAbs < off then none
  else
    let n := s.roundOf (s.gtAbs - off)
    if s.roundStart n + off < (s.trs.enGt : Int) then none
    else match (s.grp g).seen with
      | none =>
        let first := s.roundOf s.trs.enGt + (if s.roundStart (s.roundOf s.trs.enGt) + off < (s.trs.enGt : Int) then 1 else 0)
        some (n, (n - first).toNat)
      | some r =>
        let d := (round32 n + 2 ^ 32 - r) % 2 ^ 32
        if d = 0 ∨ d ≥ 2 ^ 31 then none else some (n, d - 1)

/-- Whether some group is in a phase. -/
def State.anyPhase (s : State) (p : GrpPhase) : Bool := s.trs.groups.any (fun q => q.2.phase == p)

/-- The calendar instant of an action of a group that may start now (12 R348, R349, R365): none where it is not due, or waits. -/
def State.actionDue (s : State) (g action : Nat) : Option Int :=
  let x := s.grp g
  if !s.mayAct then none
  else (s.calEntry g action).bind (fun off =>
    let due (t : Nat) : Option Int := if decide ((s.gtAbs : Int) < s.nextInstant t off) then none else some (s.nextInstant t off)
    match action with
    | 1 => if !s.takesPart g || x.install || !(x.phase == .idle || x.phase == .snapping) then none
      else (s.dueRounds g off).map (fun n => s.roundStart n.1 + off)
    | 2 => if x.phase != .snapped || s.anyPhase .sending then none else due x.doneAt
    | 3 => if x.phase != .sent || s.flag A.trsCtl F.trsCtl.GAUTO then none else due x.ts
    | 4 => if x.phase != .closed || s.anyPhase .applying then none else due x.doneAt
    | _ => none)

/-- Whether it is an action's turn: of the entries that fall due together, those of lower index start first (12 R349). -/
def State.turn (s : State) (g action : Nat) : Bool :=
  match s.calIndex g action, s.actionDue g action with
  | some i, some d => (List.range i).all (fun j =>
      let a := A.trsCal j
      !s.flag a F.trsCal.VALID || s.actionDue (s.fld a F.trsCal.GROUP) (s.fld a F.trsCal.ACTION) != some d ||
        s.calIndex (s.fld a F.trsCal.GROUP) (s.fld a F.trsCal.ACTION) == some i)
  | _, _ => true

/-- The calendar marker (18 R489): MARK_OUT goes high for 10 µs at the start of an action of its group. -/
def State.calMark (s : State) (g : Nat) : State :=
  if s.fld A.clkMark F.clkMark.HOLDER = 2 ∧ s.fld A.clkMark F.clkMark.GROUP = g then
    (s.putClk { s.clk with markUntil := s.pulse + 10 * usPulses }).driveMark true
  else s

/-- An action that starts more than a period after its instant is counted and reported (12 R349). -/
def State.lateStart (s : State) (g action : Nat) (due : Int) : State :=
  let s := s.calMark g
  let late := (s.gtAbs : Int) - due
  if late > s.period then
    (s.incSat A.trsStat F.trsStat.OVERRUN 1).trsEvent 0x63
      ([BitVec.ofNat 8 g, BitVec.ofNat 8 action, 1, 0] ++ leBytes 4 ((s.grp g).round.getD 0) ++ leBytes 8 (late / 1000).toNat)
  else s

/-- An apply-log record (12 R370): kind 0 APPLY, 1 LATE, 2 DROP, 3 SKIP; the partner entries concerned. -/
def State.applyLog (s : State) (g kind m r count : Nat) (nf : Bool) (parts : List Nat) : State :=
  let mask := parts.foldl (fun x i => x ||| 2 ^ i) 0
  s.logEntry64 (leBytes 8 (s.gt.now / gtSecond % 2 ^ 48) ++ leBytes 4 (s.gt.now % gtSecond / 2 ^ 40) ++ leBytes 4 m ++
    leBytes 8 (g + kind * 2 ^ 8 + nf.toNat * 2 ^ 10 + count % 2 ^ 16 * 2 ^ 16 + r % 2 ^ 32 * 2 ^ 32) ++ leBytes 32 mask)

/-- A round is skipped (12 R349). -/
def State.skipRound (s : State) (g n : Nat) (due : Int) : State :=
  let s := (s.incSat A.trsStat F.trsStat.OVERRUN 1).trsEvent 0x63
    ([BitVec.ofNat 8 g, 1, 2, 0] ++ leBytes 4 n ++ leBytes 8 (((s.gtAbs : Int) - due) / 1000).toNat)
  s.applyLog g 3 n n 0 false []

/-! ### Partners (12 R364, 13 R375, R376) -/

/-- A partner changes state, with event 0x67 (13 R376, R397). Causes: 1 silence, 2 reunion, 3 join, 4
abandoned. -/
def State.partEnter (s : State) (i new cause : Nat) : State :=
  let old := s.partState i
  if old = new then s
  else (s.setFld (A.trsPart2 i) F.trsPart2.STATE new).trsEvent 0x67
    (leBytes 2 (s.partSite i) ++ [BitVec.ofNat 8 old, BitVec.ofNat 8 new] ++ leBytes 4 s.roundNow ++ [BitVec.ofNat 8 cause])

/-- `TRS_DELAY.DMAX`: the greatest over PRESENT partners (12 R364). -/
def State.showDelay (s : State) : State :=
  s.setFld A.trsDelay F.trsDelay.DMAX
    (((s.partners.filter (fun i => s.partState i == 1)).map (fun i => s.fld (A.trsPart1 i) F.trsPart1.DMAX)).foldl max 0)

/-- The delays of rounds outside the window leave it (12 R364). -/
def State.dropDelays (s : State) (i : Nat) : State :=
  let win := max 1 (s.fld A.trsDelay F.trsDelay.WIN)
  let keep := (s.part i).delays.filter (fun p => decide ((s.roundNow + 2 ^ 32 - p.1) % 2 ^ 32 < win) || serialGt 32 p.1 s.roundNow)
  let s := s.modPart i (fun x => { x with delays := keep })
  s.setFld (A.trsPart1 i) F.trsPart1.DMAX (min (2 ^ 32 - 1) ((keep.map (·.2)).foldl max 0))

/-- A delay sample of a partner's DATA frame of a round, in ns (12 R364). -/
def State.sample (s : State) (i round d : Nat) : State :=
  let x := s.part i
  let us := d / 1000
  let old := s.fld (A.trsPart1 i) F.trsPart1.DMAX
  let d16 : Int := (d * 65536 / 1000 : Nat)
  let mean := ((x.mean : Int) + (d16 - x.mean) / 2 ^ s.fld A.trsDelay F.trsDelay.ASHIFT).toNat
  let s := s.modPart i (fun x => { x with mean := mean, delays := FMap.set x.delays round (max us (FMap.getD x.delays round 0)) })
  let s := s.setFld (A.trsPart1 i) F.trsPart1.DEWMA (min (2 ^ 32 - 1) (mean / 65536))
  let s := s.dropDelays i
  let new := s.fld (A.trsPart1 i) F.trsPart1.DMAX
  let s := if new > old + s.fld A.trsDelay F.trsDelay.STEP then
      s.trsEvent 0x64 (leBytes 2 (s.partSite i) ++ leBytes 2 0 ++ leBytes 4 old ++ leBytes 4 new)
    else s
  s.showDelay

/-! ### The start of a reunion (13 R389) -/

/-- A lineage record as LINEAGE frames carry it (13 R385). -/
def State.lineageRec (s : State) (g : Nat) : List Byte :=
  [BitVec.ofNat 8 g, BitVec.ofNat 8 s.depth] ++ leBytes 2 (s.lin g (s.cur g)).count ++ leBytes 4 (s.gcfgWord g 1) ++
    (List.range 4).flatMap (fun j =>
      let r := s.lin g j
      let r : LinRec := if j < s.depth then r else ⟨0, 0, false, List.replicate 16 0⟩
      leBytes 4 r.round ++ [BitVec.ofNat 8 r.valid.toNat] ++ leBytes 3 0 ++ r.digest)

/-- LINEAGE frames of every participating group go to a partner, at most 40 records each (13 R385, R389). -/
def State.sendLineage (s : State) (i : Nat) : State :=
  let recs := s.groups.map s.lineageRec
  (chunks 40 (recs.length / 40 + 1) recs).foldl (fun s c =>
    s.control i 4 (s.groups.headD 0) ([2, 0, 0, 0] ++ leBytes 4 (s.part i).rh ++ leBytes 2 c.length ++ leBytes 6 0 ++ c.flatten)) s

/-- An ABSENT partner is heard: a reunion starts unless one is under way (13 R389). -/
def State.startReunion (s : State) (i : Nat) : State :=
  let a := A.trsRstat i
  let ph := s.fld a F.trsRstat.PHASE
  if s.partState i = 2 ∧ (ph = 0 ∨ ph = 3 ∨ ph = 4) then
    let s := (s.setFld a F.trsRstat.PHASE 1).incSat a F.trsRstat.ATTEMPTS 1
    let s := s.modPart i (fun x => { x with rh := s.roundNow, theirs := none, lineage := [], ended := [], applied := [], rc := 0 })
    s.sendLineage i
  else s

/-! ### Reception (12 R345, R360) -/

/-- The header of a received frame (12 R358). -/
structure FarHdr where
  kind : Nat
  last : Bool
  nf : Bool
  src : Nat
  dst : Nat
  owner : Nat
  round : Nat
  group : Nat
  kepoch : Nat
  fidx : Nat
  fnum : Nat
  gts : Nat
  blen : Nat
  deriving DecidableEq, Repr

/-- The header in the first 64 B of a frame. -/
def farHdrOf (l : List Byte) : FarHdr :=
  let w (i : Nat) : Nat := numAt l (8 * i) 8
  ⟨bits (w 0) 11 8, bit (w 0) 12, bit (w 0) 13, bits (w 0) 31 16, bits (w 0) 47 32, bits (w 0) 61 48, bits (w 1) 31 0,
    bits (w 1) 39 32, bits (w 1) 47 40, bits (w 2) 31 0, bits (w 2) 63 32, bits (w 3) 47 0 * 1000000000 + bits (w 4) 31 0,
    bits (w 4) 63 32⟩

/-- A received frame is discarded and counted, with event 0x60 for the first of a reason in a second (12 R360).
Reasons: 1 AUTH, 2 ADDR, 3 RANGE, 4 ROOM. -/
def State.dropFrame (s : State) (reason port : Nat) (h : FarHdr) : State :=
  let f := match reason with
    | 1 => F.trsDrop.AUTH
    | 2 => F.trsDrop.ADDR
    | 3 => F.trsDrop.RANGE
    | _ => F.trsDrop.ROOM
  let s := s.incSat A.trsDrop f 1
  let sec := s.gtAbs / 1000000000
  if FMap.get? s.trs.dropAt reason = some sec then s
  else (s.putTrs { s.trs with dropAt := FMap.set s.trs.dropAt reason sec }).trsEvent 0x60
    (leBytes 2 h.src ++ [BitVec.ofNat 8 reason, BitVec.ofNat 8 h.group] ++ leBytes 4 h.round ++ leBytes 2 port)

/-- The partner entry of a site. -/
def State.partOf (s : State) (site : Nat) : Option Nat := s.partners.find? (fun i => s.partSite i == site)

/-- Whether a round lies in the range accepted for a group: c - S to c + 1 (12 R360, 13 R385). -/
def State.inRange (s : State) (g round : Nat) : Bool :=
  let c := (s.grp g).round.getD s.roundNow
  let n := (s.law g).bound
  decide ((round + 2 ^ 32 + n - c) % 2 ^ 32 ≤ n + 1)

/-- A contribution being received. -/
def State.contrib (s : State) (site round g : Nat) : Option Contrib :=
  s.trs.contribs.find? (fun c => c.site == site && c.round == round && c.group == g)

/-- A contribution that was applied or dropped, whose frames may still come (12 R360, R362). -/
def State.pastContrib (s : State) (site round g : Nat) : Option Contrib :=
  s.trs.past.find? (fun c => c.site == site && c.round == round && c.group == g)

/-- Whether a DATA frame was received before, or its contribution is past (12 R360): it is discarded without count. -/
def State.repeated (s : State) (h : FarHdr) : Bool :=
  h.kind == 0 && ((s.pastContrib h.src h.round h.group).isSome || (match s.contrib h.src h.round h.group with
    | some c => FMap.has c.bodies h.fidx
    | none => false))

/-- What a frame's body takes of the staging region (12 R360; 13 R388): of DATA its length, of an anchor block its symbols. -/
def stageNeed (h : FarHdr) (body : List Byte) : Nat :=
  if h.kind = 0 then h.blen else if h.kind = 4 ∧ body.head? = some 5 then 4096 else 0

/-- Bytes of bodies and blocks held in the staging region (12 R360). -/
def State.staged (s : State) : Nat :=
  ((s.trs.contribs.filter (fun c => c.site != s.site)).map (fun c => (c.bodies.map (fun p => p.2.length)).foldl (· + ·) 0)).foldl (· + ·) 0 +
    (s.trs.deltas.map (fun d => d.syms.length)).foldl (· + ·) 0

/-- The size of the staging region. -/
def State.stageSize (s : State) : Nat :=
  (s.fld A.tbyStageBase F.tbyStageBase.LIMIT + 1 - s.fld A.tbyStageBase F.tbyStageBase.BASE) * 4096

/-- A frame is received on a port (12 R345, R360): the partner's entry, the header and the body where it is
accepted, or repeats DATA. The partner is heard where the ADDR and AUTH tests pass (13 R375). -/
def State.recvFrame (s : State) (port : Nat) (l : List Byte) : State × Option (Nat × FarHdr × List Byte) :=
  let h := farHdrOf l
  if !s.portUp port then (s, none)
  else if !s.flag (A.tmrPortStat port) F.tmrPortStat.PEERGW then (s.incSat A.trsDrop F.trsDrop.ADDR 1, none)
  else if !s.flag A.trsCtl F.trsCtl.EN then (s, none)
  else match s.partOf h.src with
    | none => (s.dropFrame 2 port h, none)
    | some i =>
      if h.dst != s.site || h.owner != s.fld A.trsSite F.trsSite.OWNER then (s.dropFrame 2 port h, none)
      else
        let ct := (l.drop 64).take h.blen
        let tag := (l.drop (64 + h.blen)).take 16
        match (s.keyOf (s.partKey i) h.kepoch).bind (fun key =>
            gcmOpen (frameKey key h.group) (nonceOf h.src h.owner h.round h.fnum) (l.take 64) ct tag) with
        | none => (s.dropFrame 1 port h, none)
        | some body =>
          let s := (s.modPart i (fun x => { x with heardAt := s.pulse })).startReunion i
          let absent := s.partState i == 2 && (h.kind == 0 && !s.trades i h.group h.round || h.kind == 3)
          if !s.takesPart h.group || !s.inRange h.group h.round || absent then (s.dropFrame 3 port h, none)
          else if s.repeated h then (s, some (i, h, body))
          else if s.staged + stageNeed h body > s.stageSize ∧ stageNeed h body ≠ 0 then (s.dropFrame 4 port h, none)
          else
            let s := s.incWrap A.trsCnt F.trsCnt.RX 1
            (s.incWrap (A.trsPart2 i) F.trsPart2.FRAMES 1, some (i, h, body))

end Sys2Proof.Machine
end

