-- ==== Sys2Proof/Machine/Reset.lean ====
section
/-!
DEFINITION. The three reset levels, RESET_N, power-up and boot (17 R465 to R474, R481; 01 R19; 19 R499 to R501).
-/
namespace Sys2Proof.Machine

/-! ### RESET_N (17 R467, R468) -/

/-- The module begins to drive RESET_N low, or releases it. -/
def State.driveReset (s : State) (low : Bool) : State :=
  let s := if s.rst.driving == low then s else s.send (.resetN low)
  s.putRst { s.rst with driving := low, driveEnd := if low then s.rst.driveEnd else none }

/-- RESET_N is driven low for a count of the slow oscillator, whose tick is a microsecond within 5 % (17 R467): its
length is free within the tolerance (log 2). A longer count that runs already stands. -/
def State.driveFor (s : State) (ticks : Nat) : State :=
  let (e, s) := s.draw (ticks / 10)
  let t := s.pulse + (ticks * 95 / 100 + e) * usPulses
  let s := s.driveReset true
  s.putRst { s.rst with driveEnd := some (max t (s.rst.driveEnd.getD 0)) }

/-- A reset is requested (17 R466): level, from when, and the bits of `RST_CAUSE` it sets. Requests that meet take the
higher level. -/
def State.requestReset (s : State) (level at_ cause : Nat) : State :=
  let (l, t, c) := s.rst.due.getD (level, at_, 0)
  s.putRst { s.rst with due := some (max l level, min t at_, c ||| cause) }

/-- The bits of `RST_CAUSE` (17 R485). -/
def State.addCause (s : State) (cause : Nat) : State := s.hwOr A.rstCause ⟨63, 0⟩ cause

/-- The bit of a field. -/
def Fld.one (f : Fld) : Nat := 2 ^ f.lo

/-- Whether a reset with these causes was requested by the host (16 R461): by a command, PERST# or the PCIe link. -/
def hostCause (c : Nat) : Bool :=
  c &&& (F.rstCause.CMD.one ||| F.rstCause.PERST.one ||| F.rstCause.HOT.one) != 0

/-! ### Events of this chapter (17 R484) -/

/-- The bank booted as event 0xB0 reports it: 0 A, 1 B, 2 host. -/
def State.bankCode (s : State) : Nat := if s.flag A.rstStrap F.rstStrap.HOST then 2 else s.fld A.rstBoot F.rstBoot.BANK

/-- The strap code (17 R469). -/
def State.strapCode (s : State) : Nat := s.fld A.rstStrap F.rstStrap.HOST * 8 + s.fld A.rstStrap F.rstStrap.POS

/-- Event 0xB0: the module has left a reset (17 R470, R484). -/
def State.ready0 (s : State) (level : Nat) : State :=
  s.raise 0xB0 (evSource 0 0)
    ([BitVec.ofNat 8 level] ++ leBytes 3 0 ++ leBytes 4 (s.rd A.rstCause).toNat ++
      [BitVec.ofNat 8 s.strapCode, BitVec.ofNat 8 s.bankCode])

/-- Event 0xB3 (17 R474, R484). -/
def State.fwEvent (s : State) (outcome svn bank : Nat) : State :=
  s.raise 0xB3 (evSource 0 0) [BitVec.ofNat 8 outcome, BitVec.ofNat 8 svn, BitVec.ofNat 8 bank]

/-! ### Core reset (17 R465; 08 R263; 11 R335; 06 R192) -/

/-- The registers that core reset does not touch. What `BENCH_ID` says of the map is kept (01 R19, R24). -/
def State.coreRegs (s : State) : FMap Word :=
  s.regs.filter (fun p => match regDesc p.1 with
    | some d => !d.core
    | none => true)

/-- `BENCH_ID` of a Bench after a core reset: every Desk is live again, but for those of a failed Bench, which only a
system reset mends (16 R452; log 19). -/
def State.idAfter (s : State) (b : Nat) (old : Word) : State :=
  s.wr (A.benchId b) (if (s.bench b).failed then old else putFld old F.benchId.DESK_LIVE 15)

/-- A Sideboard records the updates that a core reset interrupted (08 R263). -/
def State.interrupted (s : State) (runs : List SbdRun) : State :=
  match runs with
  | [] => s
  | r :: _ => (List.range 16).foldl (fun s t =>
      let s := s.setFld (A.sbdStat t) F.sbdStat.INTR (min 255 runs.length)
      let s := s.setFld (A.sbdStat t) F.sbdStat.INTR_SLOT r.slot
      s.hwSet (A.sbdStat t) F.sbdStat.INTR_VALID) s

/-- Whether a transaction belongs to a requester that core reset resets; the sync table's NOTIFYs are the home's. -/
def Txn.coreOwned (t : Txn) : Bool :=
  match t.owner with
  | .notify .. => false
  | _ => true

/-- A Bench after a reset. The numbers of its waits go on, so that what its module receives for a wait of before the reset
names none of after it (11 R330, R335; log 26). -/
def Bench.renewed (x : Bench) : Bench :=
  let wait (y : CtxSt) : CtxSt := { CtxSt.reset with waitNo := y.waitNo }
  { Bench.reset with f := wait x.f, b := wait x.b, d := wait x.d }

/-- What core reset returns to reset state (17 R465). Transactions that were sent stay in their flows, and nobody
waits for them (10 R302); those not yet sent go with their requesters. -/
def State.coreClear (s : State) : State :=
  let runs := s.sbd.runs
  let ids := (List.range 800).map (fun b => (b, s.rd (A.benchId b)))
  let s := runs.foldl State.rollBack s
  let s := s.putRegs s.coreRegs
  let s := s.putBenches (s.benches.map (fun p => (p.1, { p.2.renewed with
    failed := p.2.failed
    lend := if p.2.lend.lending then { Bench.reset.lend with since := s.pulse, lending := true } else Bench.reset.lend })))
  let s := (s.putCyc SameCycle.none).putLost []
  let s := s.putDesks []
  let s := ids.foldl (fun s p => s.idAfter p.1 p.2) s
  let s := s.putMem (s.mem.clearRange 0x1000000000000 (800 * 0x400000))
  let s := s.putTmr { s.tmr with
    outst := s.tmr.outst.map (fun p => (p.1, if p.2.coreOwned then { p.2 with owner := .unit 0 } else p.2))
    waitq := s.tmr.waitq.filter (fun t => !t.coreOwned) }
  let s := s.sync.armedWords.foldl (fun s w => s.setBit (A.syncCnt w) F.syncCnt.VALUE 31 false) s
  let s := s.putSync { s.sync with
    waiters := [], kept := [], inbox := [], answers := [], abortAt := [], armedWords := [], lwait := [] }
  let s := s.setFld A.syncStat F.syncStat.WAITERS 0
  let s := (s.putSbd Sbd.reset).interrupted runs
  let s := if s.fld A.mbxStat F.mbxStat.JOB = 2 then s.setJob 3 else s
  let s := s.putFlash { s.flash with staged := if s.hut.ops.any (fun o => o.code == 0x0B00) then none else s.flash.staged }
  let s := (s.putCycZero s.pulse).putSkipped []
  let s := s.setFld A.rstCause F.rstCause.LEVEL 1
  ((List.range 8).foldl State.showSpares s).health

/-! ### The wider resets (17 R465) -/

/-- Sparing records survive in the retirement record (09 R278). -/
def State.keptTby (s : State) : FMap Tby := s.tby.filterMap (fun p =>
  if p.2.spared.isEmpty then none else some (p.1, { Tby.reset with spared := p.2.spared }))

/-- The availability counters are stored in boot flash (16 R461). -/
def State.saveAvail (s : State) : State :=
  let s := s.countAvail
  let s := s.putFlt { s.flt with savedAt := s.pulse }
  s.putFlash { s.flash with availT := s.rd A.evtAvailT, availU := s.rd A.evtAvailU }

/-- Everything returns to reset state but boot flash, fuses, the model's own counters and what is named (17 R465,
R467). `debug` keeps a debug-trigger claim of MARK_OUT (18 R489). -/
def State.wideClear (s : State) (debug : Bool) : State :=
  let s := s.countAvail
  let dbg := debug && s.fld A.clkMark F.clkMark.HOLDER == 3
  let s := if dbg then s else s.driveMark false
  let cause := s.rd A.rstCause
  let running := s.fld A.mbxStat F.mbxStat.JOB == 2 || s.flt.counting
  let n := { State.reset with
    benches := s.benches.map (fun p => (p.1, p.2.renewed))
    tby := s.keptTby
    clk := { Clk.reset with mark := s.clk.mark }
    flt := { Flt.reset with availAt := s.flt.availAt, counting := running, savedAt := s.pulse }
    flash := { s.flash with staged := if s.hut.ops.any (fun o => o.code == 0x0B00) then none else s.flash.staged }
    fuse := s.fuse
    rst := { s.rst with level := 0, trial := none, hostBoot := false, goWait := false }
    pulse := s.pulse
    cycZero := s.pulse
    fresh := s.fresh
    out := s.out
    pending := s.pending }
  let n := if dbg then (n.setFld A.clkMark F.clkMark.HOLDER 3).setFld A.clkMark F.clkMark.DBGEN 1 else n
  if debug then n.wr A.rstCause (putFld cause F.rstCause.LEVEL 2) else n

/-! ### Boot (17 R469 to R474, R481; 01 R19) -/

/-- The 32 bytes of a measurement register (17 R481, R485). -/
def State.meas (s : State) (i : Nat) : List Byte :=
  (List.range 4).flatMap (fun w => leBytes 8 (s.rd (A.secMeas (4 * i + w))).toNat)

/-- A measurement is extended with a digest (17 R481). -/
def State.extend (s : State) (i : Nat) (d : List Byte) : State :=
  let m := sm3 (s.meas i ++ d)
  (List.range 4).foldl (fun s w => s.wr (A.secMeas (4 * i + w)) (leWord (m.drop (8 * w)))) s

/-- The Bench map of a C-die is built (01 R19): without defective and retired Benches, the first hundred carry the
logical numbers and the rest are spares. A die with fewer leaves its last numbers without a Bench: they are failed
(16 R452; log 19). -/
def State.mapDie (s : State) (c : Nat) : State :=
  let bad := (s.fuse.defects ++ s.flash.retired).filter (fun p => p / 104 == c)
  let s := s.setFld (A.evtSpare c) F.evtSpare.RETIRED (countTrue (fun p => p / 104 == c) s.flash.retired)
  let s := if bad.isEmpty then s
    else
      let good := ((List.range 104).map (· + 104 * c)).filter (fun p => !bad.contains p)
      let s := ((List.range 100).zip good).foldl (fun s q =>
        (s.putMap (FMap.set s.map (100 * c + q.1) q.2)).setFld (A.benchId (100 * c + q.1)) F.benchId.PHYS q.2) s
      let s := s.putSpares (FMap.set s.spares c (good.drop 100))
      if good.length < 100 then
        let s := s.putFlt { s.flt with shortDies := s.flt.shortDies ++ [c] }
        ((List.range 100).drop good.length).foldl (fun s j => s.modBench (100 * c + j) (fun x => { x with failed := true })) s
      else s
  s.showSpares c

/-- The event records still in the mirror, oldest first. -/
def State.mirrorRecs (s : State) : List EvRec :=
  let l := s.evt.mirror.map (·.2)
  let n := s.fld A.evtSeq F.evtSeq.SEQ
  (List.range 256).filterMap (fun k => l.find? (fun r => r.seq + 256 == n + k))

/-- The firmware starts and reaches READY (17 R470 steps 8 and 9): reset count and `EPOCH` (10 R302), the Bench maps,
the availability counters, the error-log entries of events accepted before (15 R438), a trial's end (R474), event
0xB0. -/
def State.fwReady (s : State) (level : Nat) : State :=
  let n := (s.flash.resets + 1) % 2 ^ 32
  let s := s.putFlash { s.flash with resets := n }
  let s := s.setFld A.tmrId F.tmrId.EPOCH n
  let s := s.putRwo ((A.tmrId * 64 + 56) :: s.rwo)
  let s := (List.range 8).foldl State.mapDie s
  let s := s.wr A.evtAvailT (s.flash.availT + s.rd A.evtAvailT)
  let s := s.wr A.evtAvailU (s.flash.availU + s.rd A.evtAvailU)
  let s := s.mirrorRecs.foldl State.errLog s
  let s := if s.rst.hostBoot then
      let s := s.setFld A.mbxCtl F.mbxCtl.RWWR 0
      (s.wr A.mbxRwin (regReset A.mbxRwin)).putRst { s.rst with hostBoot := false }
    else s
  let s := s.setFld A.mbxStat F.mbxStat.FWSTATE 1
  let bank := s.fld A.rstBoot F.rstBoot.BANK
  let s := if s.flag A.rstBoot F.rstBoot.TRIAL then
      let svn := ((FMap.get? s.flash.banks bank).map Img.svn).getD 0
      let s := s.putFlash { s.flash with active := bank, pending := none }
      let s := s.putFuse { s.fuse with svn := max s.fuse.svn svn }
      let s := s.setFld A.secStat F.secStat.SVN s.fuse.svn
      (s.putRst { s.rst with trial := none }).fwEvent 1 svn bank
    else s
  let s := match s.rst.rolled with
    | some (svn, b) => (s.putRst { s.rst with rolled := none }).fwEvent 2 svn b
    | none => s
  s.health.ready0 level

/-- An image starts (17 R470 step 7, R481): measurements 1 and 2 are extended. In a trial the watchdog runs, and
whether the firmware reaches READY is the image's (free, log 2). -/
def State.startImage (s : State) (digest : List Byte) (trial : Bool) : State :=
  let s := s.setFld A.rstBoot F.rstBoot.STATE 3
  let s := s.setFld A.rstBoot F.rstBoot.TRIAL trial.toNat
  let s := s.extend 1 digest
  let level := s.fld A.rstCause F.rstCause.LEVEL
  let s := s.extend 2 (sm3 (leBytes 8 (s.rd A.rstStrap).toNat ++ leBytes 8 (s.rd A.rstBoot).toNat ++ [BitVec.ofNat 8 level]))
  if trial then
    let (up, s) := s.draw 1
    if up = 0 then s.putRst { s.rst with trial := some s.pulse } else s.fwReady level
  else s.fwReady level

/-- Whether the boot ROM accepts the image of a bank (17 R472). -/
def State.bankGood (s : State) (b : Nat) : Option Img :=
  match FMap.get? s.flash.banks b with
  | some i => if i.good && decide (s.fuse.svn ≤ i.svn) then some i else none
  | none => none

/-- The boot ROM loads an image from flash (17 R472, R474): the pending bank in a trial, else the active one; if it
fails, the other; if both fail, the module has FAILED. -/
def State.bootFlash (s : State) : State :=
  let b := s.flash.pending.getD s.flash.active
  match s.bankGood b with
  | some i => (s.setFld A.rstBoot F.rstBoot.BANK b).startImage i.digest s.flash.pending.isSome
  | none =>
    let s := s.setFld A.rstBoot F.rstBoot.ALT 1
    match s.bankGood (1 - b) with
    | some i => (s.setFld A.rstBoot F.rstBoot.BANK (1 - b)).startImage i.digest false
    | none =>
      let s := s.setFld A.rstBoot F.rstBoot.STATE 4
      (s.setFld A.mbxStat F.mbxStat.FWSTATE 3).health

/-- The boot ROM waits for the host's image (17 R473). -/
def State.bootHost (s : State) : State :=
  let s := s.setFld A.mbxRwin F.mbxRwin.BASE (0x2050000000000 / 2 ^ 24)
  let s := s.setFld A.mbxCtl F.mbxCtl.RWWR 1
  (s.setFld A.rstBoot F.rstBoot.STATE 1).putRst { s.rst with hostBoot := true }

/-- The sequence of R470 from step 5 on (17 R469, R470, R481; 10 R294; 09 R278; 14 R400): events are accepted, cycles count, the PLLs have locked, ports with `EN`
train, the strap is read as `adc`, the fuses are read, and the image is loaded. -/
def State.boot (s : State) (adc : Nat) : State :=
  let s := s.putEvt { s.evt with accepting := true }
  let s := (s.putCycZero s.pulse).putSkipped []
  let s := s.setFld A.clkStat F.clkStat.LOCK 0x3F
  let s := (List.range 36).foldl (fun s p => if s.flag (A.tmrPortCtl p) F.tmrPortCtl.EN then s.trainStart p else s) s
  let k := adc / 64
  let s := s.setFld A.rstStrap F.rstStrap.ADC adc
  let s := s.setFld A.rstStrap F.rstStrap.HOST (k / 8)
  let s := s.setFld A.rstStrap F.rstStrap.POS (k % 8)
  let s := s.setFld A.secStat F.secStat.SVN s.fuse.svn
  let s := s.extend 0 (Config.romDigest s.fuse.svn)
  let s := s.tby.foldl (fun s p => match p.2.spared.find? (·.remap) with
    | some r => ((s.showSpared p.1).setFld (A.tbyStat p.1) F.tbyStat.REMAP 2).setFld (A.tbyStat p.1) F.tbyStat.RLAYER r.layer
    | none => s.showSpared p.1) s
  if k ≥ 8 then s.bootHost else s.bootFlash

/-! ### Images (17 R472, R474) -/

/-- The number that some bytes are. -/
def imageNum (k : Nat) (hdr : List Byte) : Nat := ofLe (Config.imageField k hdr)

/-- An image is verified (17 R472; log 17): none where it is refused. -/
def State.verifyImage (s : State) (hdr body : List Byte) : Option Img :=
  let svn := imageNum 1 hdr
  let digest := Config.imageField 3 hdr
  let sigOk := sm2Verify Config.fwKey (hdr.take 128) (Config.imageField 4 hdr)
  if imageNum 0 hdr != 0 && decide (svn ≤ 64) && decide (imageNum 2 hdr ≤ 32 * 1024 * 1024) && body.length == imageNum 2 hdr &&
      sigOk && sm3 body == digest && decide (s.fuse.svn ≤ svn) then some ⟨svn, digest, true⟩ else none

/-- Bytes of the module's memory as the firmware reads them, none where a codeword is uncorrectable (16 R458). -/
def State.fwRead (s : State) (a n : Nat) : State × Option (List Byte) :=
  let (s, l, ok, _) := s.memRead 7 a n
  (s, if ok then some l else none)

/-- The image at a local address is read and verified. -/
def State.readImage (s : State) (a : Nat) : State × Option Img :=
  let (s, h) := s.fwRead a 256
  match h with
  | none => (s, none)
  | some h =>
    if imageNum 2 h > 32 * 1024 * 1024 then (s, none)
    else
      let (s, b) := s.fwRead (a + 256) (imageNum 2 h)
      (s, b.bind (s.verifyImage h))

/-- Whether the image at a local address can be read now: until then its reads are held (09 R267). -/
def State.imageReady (s : State) (a : Nat) : Bool :=
  let n := imageNum 2 (s.mem.read a 256)
  s.memReady a 256 && (decide (n > 32 * 1024 * 1024) || s.memReady (a + 256) n)

/-- `RST_BOOT.GO` is written (17 R473): the ROM that waits verifies the host's image at local address 0, once it can read
it. -/
def State.bootGo (s : State) : State :=
  if s.fld A.rstBoot F.rstBoot.STATE != 1 then s
  else if !s.imageReady 0 then s.putRst { s.rst with goWait := true }
  else
    let s := s.putRst { s.rst with goWait := false }
    let (s, i) := s.readImage 0
    match i with
    | some i => s.startImage i.digest false
    | none => s.setFld A.rstBoot F.rstBoot.ALT 1

/-- `RST_BOOT_GO` (17 R473). -/
def execRstBootGo (s : State) : Out := .next s.bootGo

/-! ### The commands -/

/-- A system reset (17 R465, R466): with the causes given. A host's request stores the availability counters first
(16 R461). -/
def State.systemClear (s : State) (cause : Nat) : State :=
  let host := hostCause cause
  let s := if host then s.saveAvail else s
  let s := (s.wideClear true).addCause cause
  if host then s.putFlt { s.flt with counting := false } else s

/-- `CORE_RESET` (17 R465 to R468): a core reset that was requested takes place: RESET_N is driven low, and the
module leaves the reset with event 0xB0. A request whose time has not come holds it (15 R432). One that the host
requested stores the availability counters first (16 R461). -/
def execCoreReset (s : State) : Out :=
  let (l, t, c) := s.rst.due.getD (1, 0, 0)
  .next (if !s.rst.on || s.rst.level != 0 || decide (t > s.pulse) then s
    else
      let s := if l = 1 then s.putRst { s.rst with due := none } else s
      let s := if hostCause c then s.saveAvail else s
      let s := s.driveFor 22000
      let s := (s.coreClear.addCause (if l = 1 then c else 0))
      (s.putRst { s.rst with taken := max 1 s.rst.taken }).ready0 1)

/-- `SYSTEM_RESET` (17 R465 to R474): a system reset that was requested takes place; RESET_N is driven low, and the
module boots from step 6 of R470 on. `adc` is the strap's reading. -/
def execSystemReset (adc : Fin 1024) (s : State) : Out :=
  let (l, t, c) := s.rst.due.getD (2, 0, 0)
  .next (if !s.rst.on || decide (t > s.pulse) then s
    else
      let s := s.putRst { s.rst with due := none }
      let s := s.driveFor 105000
      let s := s.systemClear (if l = 2 then c else 0)
      (s.putRst { s.rst with taken := 2 }).boot adc)

/-- The module goes to power-on reset and stays there for a reason (19 R499 to R501; 17 R466). With a supply it
drives RESET_N and PWRGD low; without one it drives nothing (19 R510, R511). -/
def State.powerOff (s : State) (reason : Nat) : State :=
  let supply := reason = 1 || reason = 2 || reason = 5
  let s := if s.rst.on then s.send (.pwrgd false) else s
  let s := s.wideClear false
  let s := s.putRst { s.rst with on := false, why := reason :: s.rst.why.filter (· != reason), due := none, rolled := none, driveEnd := none, taken := 2 }
  s.driveReset supply

/-- Power-up (17 R470): once nothing holds the module in power-on reset and XA is good, steps 1 to 9. -/
def State.powerUp (s : State) (adc : Nat) (xa : Bool) (cause : Nat) : State :=
  if !s.rst.why.isEmpty then s
  else if !xa then s.driveReset true
  else
    let s := s.putRst { s.rst with on := true, taken := 2 }
    let s := (s.send (.pwrgd true)).driveFor 105000
    (s.addCause cause).boot adc

/-- A reason for power-on reset ends. -/
def State.relieve (s : State) (l : List Nat) : State :=
  s.putRst { s.rst with why := s.rst.why.filter (fun r => !l.contains r) }

/-- `POWER_ON_RESET` (17 R465, R470): the supply is applied; a hot-swap stage that had stayed off conducts again
(19 R500, R501). `adc` is the strap's reading; without a good XA the sequence waits at step 3. -/
def execPowerOnReset (adc : Fin 1024) (xa : Bool) (s : State) : Out :=
  let s := if s.rst.on then s.powerOff 0 else s.wideClear false
  let s := s.putRst { s.rst with trips := [], retryAt := none }
  .next ((s.relieve [0, 3, 4]).powerUp adc xa 0)

/-- `BOOT_WATCHDOG_EXPIRY` (17 R474): a trial boot that has not reached READY in 10 s is rolled back. -/
def execBootWatchdogExpiry (s : State) : Out :=
  .next (match s.rst.trial with
    | some t =>
      if s.reached t 10000000 then
        let b := s.fld A.rstBoot F.rstBoot.BANK
        let svn := ((FMap.get? s.flash.banks b).map Img.svn).getD 0
        let s := s.putFlash { s.flash with pending := none }
        (s.putRst { s.rst with trial := none, rolled := some (svn, b) }).requestReset 2 s.pulse F.rstCause.WDOG.one
      else s
    | none => s)

/-- `RESET_N_LOW_CORE` (17 R468): RESET_N has been low for 5,000 ticks; `EXT` is set where another device drives
it. -/
def execResetNLowCore (s : State) : Out :=
  .next (if !s.rst.on || s.rst.taken ≥ 1 then s
    else
      let s := s.coreClear.addCause (if s.rst.driving then 0 else F.rstCause.EXT.one)
      s.putRst { s.rst with level := 1, taken := 1 })

/-- `RESET_N_LOW_SYSTEM` (17 R468): RESET_N has been low for 60,000 ticks. -/
def execResetNLowSystem (s : State) : Out :=
  .next (if !s.rst.on || s.rst.taken ≥ 2 then s
    else
      let s := s.systemClear (if s.rst.driving then 0 else F.rstCause.EXT.one)
      s.putRst { s.rst with level := 2, taken := 2 })

/-- `RESET_N_RELEASE` (17 R468): the line has risen, which it does not while this module drives it; the module leaves
the reset at the level reached. `adc` is the strap's reading. -/
def execResetNRelease (adc : Fin 1024) (s : State) : Out :=
  .next (if s.rst.driving then s
    else
      let l := s.rst.level
      let s := s.putRst { s.rst with level := 0, taken := 0 }
      if l = 1 then ((s.putCycZero s.pulse).putSkipped []).ready0 1 else if l = 2 then s.boot adc else s)

/-- `RESET_N_DRIVE_END` (17 R467): the module's own count ends, and it releases the line. -/
def execResetNDriveEnd (s : State) : Out :=
  .next (match s.rst.driveEnd with
    | some t => if t ≤ s.pulse then s.driveReset false else s
    | none => s)

/-- Whether an access that is held is the host's. -/
def Held.host : Held → Bool
  | .hostRd .. => true
  | .hostWr .. => true
  | _ => false

/-- The endpoint and its link alone are reset (17 R466): the requests that wait there are lost. -/
def State.linkReset (s : State) : State :=
  (s.putPcie Pcie.reset).putTmr { s.tmr with held := s.tmr.held.filter (fun h => !h.host) }

/-- `PERST_ASSERT` (17 R466): the endpoint is reset, and a system reset requested while `RST_CTL.PERST` is set. -/
def execPerstAssert (s : State) : Out :=
  .next (if !s.rst.on then s
    else
      let s := s.linkReset
      if s.flag A.rstCtl F.rstCtl.PERST then s.requestReset 2 s.pulse F.rstCause.PERST.one
      else s.addCause F.rstCause.LINK.one)

/-- `PCIE_HOT_RESET` (17 R466): a hot reset or link down; a core reset is requested while `RST_CTL.HOTRST` is set. -/
def execPcieHotReset (s : State) : Out :=
  .next (if !s.rst.on then s
    else
      let s := s.linkReset
      if s.flag A.rstCtl F.rstCtl.HOTRST then s.requestReset 1 s.pulse F.rstCause.HOT.one
      else s.addCause F.rstCause.LINK.one)

/-- `PCIE_LINK_UP` (15 R421): the link has trained at a rate in GT/s and a width; FLIT mode is in use at 64 and 128 GT/s, and
below where the link partner supports it. -/
def execPcieLinkUp (rate : LinkRate) (width : Fin 5) (s : State) : Out :=
  .next (if s.rst.on && [2, 5, 8, 16, 32, 64, 128].contains rate.rate && [1, 2, 4].contains width.val then
      s.putPcie { s.pcie with up := true, rate := rate.rate, width := width, flit := rate.flit || decide (rate.rate ≥ 64) }
    else s)

/-- `THERMAL_TRIP` (17 R466): the regulators turn off. -/
def execThermalTrip (s : State) : Out := .next (s.powerOff 5)

/-- `THERMAL_RECOVER` (17 R466): every die is 10 °C below its limit, and the module sequences up with `THERM`. -/
def execThermalRecover (adc : Fin 1024) (xa : Bool) (s : State) : Out :=
  .next (if s.rst.why.contains 5 then (s.relieve [5]).powerUp adc xa F.rstCause.THERM.one else s)

/-- `BUSBAR_UNDERVOLTAGE` (19 R499). -/
def execBusbarUndervoltage (s : State) : Out := .next (s.powerOff 1)

/-- `BUSBAR_OVERVOLTAGE` (19 R499). -/
def execBusbarOvervoltage (s : State) : Out := .next (s.powerOff 2)

/-- `BUSBAR_VOLTAGE_RECOVER` (19 R499): the voltage lies above 39.5 V and below 61.0 V again. -/
def execBusbarVoltageRecover (adc : Fin 1024) (xa : Bool) (s : State) : Out :=
  .next (if s.rst.why.contains 1 || s.rst.why.contains 2 then (s.relieve [1, 2]).powerUp adc xa 0 else s)

/-- `BUSBAR_OVERCURRENT` (19 R500): the hot-swap stage turns off; it tries again after 1 s, but not after three trips
within 60 s. -/
def execBusbarOvercurrent (s : State) : Out :=
  let trips := s.pulse :: s.rst.trips.filter (fun t => !s.reached t 60000000)
  let s := s.powerOff 3
  .next (s.putRst { s.rst with trips := trips, retryAt := if trips.length ≥ 3 then none else some (s.pulse + 1000 * msPulses) })

/-- `HOTSWAP_RETRY` (19 R500). -/
def execHotswapRetry (adc : Fin 1024) (xa : Bool) (s : State) : Out :=
  .next (match s.rst.retryAt with
    | some t => if t ≤ s.pulse then ((s.putRst { s.rst with retryAt := none }).relieve [3]).powerUp adc xa 0 else s
    | none => s)

/-- `PRESENT_N_BREAK` (19 R501): the hot-swap stage turns off. -/
def execPresentNBreak (s : State) : Out := .next (s.powerOff 4)

end Sys2Proof.Machine
end

