-- ==== Sys2Proof/Machine/Continuity.lean ====
section
/-!
DEFINITION. Takeover of a hosted Bench, the pairs of the Hutch, and the availability counters (16 R449 to R452, R458
to R461; 01 R22 to R24).
-/
namespace Sys2Proof.Machine

/-- Whether every Desk of a Bench is at rest (16 R450): empty queues, no pass, load, drain or merge. -/
def State.desksStill (s : State) (b : Nat) : Bool :=
  (List.range 4).all (fun d =>
    let x := s.desk b d
    x.queue.isEmpty && x.passes.isEmpty && x.load.isNone && x.drains.isEmpty)

/-- A layer boundary of a Bench (16 R450). -/
def State.layerBoundary (s : State) (b : Nat) : Bool := !s.layerOpen b .F && !s.layerOpen b .B && s.desksStill b

/-- Events 0xA1 and 0xA2 (16 R463). -/
def State.takeEvent (s : State) (code b old new : Nat) (forced : Bool) : State :=
  s.raise code (evSource 1 b) (leBytes 2 old ++ leBytes 2 new ++ leBytes 4 0 ++ leBytes 2 b ++ [if forced then 2 else 1])

/-- A takeover begins (16 R451 steps 1 to 3): the contexts issue nothing, accesses to the Bench are held, and its
state is being copied to the lowest free spare (01 R22). Lending ends (18 R487). -/
def State.takeStart (s : State) (b spare : Nat) (forced : Bool) : State :=
  let s := s.takeEvent 0xA1 b (s.phys b) spare forced
  let s := s.lendEnd b
  let s := s.modBench b (fun x => { x with takeover := some ⟨s.pulse, forced, some spare⟩ })
  s.health

/-- `TAKEOVER_START` (16 R450, R451; 01 R22, to the lowest free spare that no other Bench moves to): a hosted Bench at a layer boundary, or one that the Hutch has forced once its
Desks are still. -/
def execTakeoverStart (b : BenchNo) (s : State) : Out :=
  let x := s.bench b
  let forced := match x.takeover with
    | some t => t.forced
    | none => false
  .next (match s.openSpares (b / 100) with
    | [] => s
    | spare :: _ =>
      if s.rst.level = 0 && s.hosted b && !x.copying && (if forced then s.desksStill b else s.layerBoundary b)
      then s.takeStart b spare forced else s)

/-- `TAKEOVER_WAIT_EXPIRY` (16 R450): without a boundary for `TKOWAIT` ms the contexts stop issuing. -/
def execTakeoverWaitExpiry (b : BenchNo) (s : State) : Out :=
  let x := s.bench b
  .next (match x.faultAt with
    | some t =>
      if s.hosted b && x.takeover.isNone && !(s.openSpares (b / 100)).isEmpty &&
          s.reached t (max 1 (s.fld A.evtFltCtl F.evtFltCtl.TKOWAIT) * 1000) then
        s.modBench b (fun x => { x with takeover := some ⟨s.pulse, true, none⟩ })
      else s
    | none => s)

/-- A hosted Bench of a die whose last spare is gone stays hosted, or is failed without a live Desk (16 R452). -/
def State.spareless (s : State) (b : Nat) : State :=
  let live := s.liveDesks b
  let pay := leBytes 8 (b / 100) ++ leBytes 2 b ++ [BitVec.ofNat 8 live]
  if live = 0 then (s.modBench b (fun x => { x with failed := true })).raise 0xA4 (evSource 1 b) pay
  else s.raise 0xA3 (evSource 1 b) pay

/-- The takeover of a Bench ends (16 R451 steps 4 to 6; 01 R22, R24): map, `BENCH_ID`, Desks, retirement record; the
accesses held proceed. The spare's instruction cache is empty (log 19). -/
def State.takeEnd (s : State) (b spare : Nat) (forced : Bool) : State :=
  let c := b / 100
  let old := s.phys b
  let s := (s.putMap (FMap.set s.map b spare)).putSpares (FMap.set s.spares c ((s.spareList c).filter (· != spare)))
  let a := A.benchId b
  let s := s.setFld a F.benchId.PHYS spare
  let s := s.setFld a F.benchId.ON_SPARE 1
  let s := s.incSat a F.benchId.TAKEOVERS 1
  let s := s.setFld a F.benchId.DESK_LIVE 15
  let s := (List.range 4).foldl (fun s d =>
    let s := s.setFld (A.deskStat b d) F.deskStat.FAULT 0
    let s := s.wr (A.deskRas b d) (regReset (A.deskRas b d))
    s.modDesk b d (fun x => { x with host := none, tries := 0, dtries := (0, 0), winReplays := 0 })) s
  let s := s.modBench b (fun x => { x with
    takeover := none, faultAt := none, icache := [], ifail := [], lend := { x.lend with since := s.pulse } })
  let s := s.takeEvent 0xA2 b old spare forced
  let s := s.putFlash { s.flash with retired := s.flash.retired ++ [old] }
  let s := s.incSat (A.evtSpare c) F.evtSpare.RETIRED 1
  let s := if (s.spareList c).isEmpty then
      s.benches.foldl (fun s p => if p.1 / 100 == c && s.hosted p.1 then s.spareless p.1 else s) s
    else s
  ((s.showSpares c).health).serveHeld

/-- `TAKEOVER_COMPLETE` (16 R451): every move of the Bench has completed (18 R487), and the copy is done. -/
def execTakeoverComplete (b : BenchNo) (s : State) : Out :=
  .next (match (s.bench b).takeover with
    | some ⟨_, forced, some spare⟩ => if (s.bench b).moves.isEmpty then s.takeEnd b spare forced else s
    | _ => s)

/-- `HUTCH_LOCKSTEP_MISMATCH` (16 R458): the pair restarts; one that mismatches again within 1 s is retired, and
without a pair the firmware has FAILED. -/
def execHutchLockstepMismatch (p : Fin 4) (s : State) : Out :=
  .next (if s.flt.pairsDead.contains p.val || !s.rst.on then s
    else
      let again := match FMap.get? s.flt.pairAt p with
        | some t => !s.reached t 1000000
        | none => false
      let s := s.putFlt { s.flt with
        pairAt := FMap.set s.flt.pairAt p s.pulse
        pairsDead := if again then p.val :: s.flt.pairsDead else s.flt.pairsDead }
      let left := 4 - s.flt.pairsDead.length
      let s := if left = 0 then s.setFld A.mbxStat F.mbxStat.FWSTATE 3 else s
      (s.raise 0xA5 (evSource 0 0) [BitVec.ofNat 8 p.val, if again then 2 else 1, BitVec.ofNat 8 left]).health)

/-- `AVAIL_SAVE_TIMER` (16 R461): every ten minutes the counters are stored in boot flash. -/
def execAvailSaveTimer (s : State) : Out :=
  .next (if s.reached s.flt.savedAt 600000000 then s.saveAvail else s)

end Sys2Proof.Machine
end

