-- ==== Sys2Proof/Machine/Moves.lean ====
section
/-!
DEFINITION. The `MOVE` instruction by its operations, the completion of moves and of blocks, and the writes of
`EXP_CTL` (04 R131, R132; 05).
-/
namespace Sys2Proof.Machine

/-- A `MOVE` of one operation (04 R131, R132; 05 R149 to R151): checked at issue, held while sixteen are
outstanding, captured; its far reads are asked for, its far writes sent as soon as its source is readable,
and the lines an expand move covers are marked pending (05 R167). -/
def State.moveIssue (s : State) (b : Nat) (c : Ctx) (op rs t dir : Nat) (sg : Bool) (cnt rsv : Nat) : State :=
  s.issue b c { sregs := [rs], tregs := [t], rsv := rsv } (fun s =>
    let off := (s.s b c rs).toNat
    if off % 32 != 0 || off ≥ shelfSize then s.illegal b c 0x13
    else if s.pendingAt b off 32 then s.block b c .issue
    else
      let m := s.moveOf b c off t op dir sg cnt
      match s.moveCause b off m with
      | some cause => s.illegal b c cause
      | none =>
        if countTrue (fun p => p.2.ctx == c) (s.bench b).moves ≥ 16 then s.block b c .issue
        else
          let tl := tileOf m.desc
          let k := (s.bench b).moveNo
          let s := (s.lendEnd b).modBench b (fun x => { x with
            moveNo := k + 1
            moves := x.moves ++ [(k, m)]
            pend := if op = 4 then tl.lines ++ x.pend else x.pend })
          let s := (s.showMoves b).showExp b
          let s := if op = 4 then s
            else if dir = 0 then s.askFar b k m.pieces
            else if s.movePending b tl || !s.nearReady b m then s
            else s.moveOut b k
          s.done b c)

/-- `MOVE` with `OP` 0, copy (05 R151, R152). -/
def execMoveCopy (b : BenchNo) (c : Ctx) (rs : Fin 32) (t : Fin 16) (dir : Fin 2) (sg : Bool) (cnt : BitVec 16)
    (rsv : BitVec 25) (s : State) : Out := .next (s.moveIssue b c 0 rs t dir sg cnt.toNat rsv.toNat)

/-- `MOVE` with `OP` 1, convert (05 R151 to R153). -/
def execMoveConvert (b : BenchNo) (c : Ctx) (rs : Fin 32) (t : Fin 16) (dir : Fin 2) (sg : Bool) (cnt : BitVec 16)
    (rsv : BitVec 25) (s : State) : Out := .next (s.moveIssue b c 1 rs t dir sg cnt.toNat rsv.toNat)

/-- `MOVE` with `OP` 2, transpose (05 R156). -/
def execMoveTranspose (b : BenchNo) (c : Ctx) (rs : Fin 32) (t : Fin 16) (dir : Fin 2) (sg : Bool) (cnt : BitVec 16)
    (rsv : BitVec 25) (s : State) : Out := .next (s.moveIssue b c 2 rs t dir sg cnt.toNat rsv.toNat)

/-- `MOVE` with `OP` 3, widen on arrival (05 R157). -/
def execMoveWiden (b : BenchNo) (c : Ctx) (rs : Fin 32) (t : Fin 16) (dir : Fin 2) (sg : Bool) (cnt : BitVec 16)
    (rsv : BitVec 25) (s : State) : Out := .next (s.moveIssue b c 3 rs t dir sg cnt.toNat rsv.toNat)

/-- `MOVE` with `OP` 4, expand (05 R166, R167). `rop` is `OP` - 4: a reserved operation, 5 to 15, is illegal with cause
0x12 as a reserved field that is not zero is (04 R107, R108, R131). -/
def execMoveExpand (b : BenchNo) (c : Ctx) (rs : Fin 32) (t : Fin 16) (dir : Fin 2) (sg : Bool) (cnt : BitVec 16)
    (rop : Fin 12) (rsv : BitVec 25) (s : State) : Out :=
  .next (s.moveIssue b c 4 rs t dir sg cnt.toNat (rop * 2 ^ 25 + rsv.toNat))

/-- `MOVE_COMPLETE` (04 R132): the `i`-th outstanding move of the Bench, in the order of issue, completes if
it can. -/
def execMoveComplete (b : BenchNo) (i : Fin 48) (s : State) : Out :=
  .next (match (s.bench b).moves[i.val]? with
    | some (k, _) => s.moveTry b k
    | none => s)

/-- `EXPANDER_BLOCK_COMPLETE` (05 R166 to R171). -/
def execExpanderBlockComplete (b : BenchNo) (s : State) : Out := .next (s.expStep b)

/-- `EXP_INJ_SHORT` (05 R176). -/
def execExpInjShort (b : BenchNo) (s : State) : Out := .next (s.modBench b (fun x => { x with injShort := true }))

/-- `EXP_CTL.CLR_CNT` (05 R176). -/
def State.expClear (s : State) (b : Nat) : State :=
  let s := s.wr (A.expStall b) 0
  let s := s.setFld (A.expErr b) F.expErr.COUNT 0
  s.setFld (A.moveErr b) F.moveErr.COUNT 0

/-- `EXP_CLR_CNT` (05 R176). -/
def execExpClrCnt (b : BenchNo) (s : State) : Out := .next (s.expClear b)

end Sys2Proof.Machine
end

