-- ==== Sys2Proof/Machine/TrsRound.lean ====
section
/-!
DEFINITION. The calendar actions of the Trestle: round begin, SNAPSHOT, SEND, CLOSE, APPLY (12 R346 to R357,
R365 to R370), with what 13 R381 to R384 and R389 to R396 attach to them.
-/
namespace Sys2Proof.Machine

/-! ### Round begin and SNAPSHOT -/

/-- `TRS_ROUND_BEGIN` (12 R346, R364): global time has reached T_n. -/
def execTrsRoundBegin (s : State) : Out :=
  let n := round32 (s.roundOf s.gtAbs)
  if n = s.roundNow then .next s
  else
    let s := s.setFld A.trsRound F.trsRound.ROUND n
    .next (((List.range 256).filter (fun i => FMap.has s.trs.parts i)).foldl (fun s i => s.dropDelays i) s).showDelay

/-- A reunion is abandoned (13 R393, R394, R397). -/
def State.abandon (s : State) (i : Nat) : State :=
  let a := A.trsRstat i
  let s := s.setFld a F.trsRstat.PHASE 4
  let s := s.trsEvent 0x6A (leBytes 2 (s.partSite i) ++ [BitVec.ofNat 8 (s.fld a F.trsRstat.DEC), 4] ++ leBytes 4 (s.part i).rh ++
    leBytes 4 (s.fld a F.trsRstat.RE) ++ leBytes 4 (s.part i).rc)
  let s := s.modPart i (fun x => { x with lineage := [], ended := [], applied := [], theirs := none })
  s.putTrs { s.trs with deltas := s.trs.deltas.filter (fun d => d.part != i) }

/-- What every SNAPSHOT of a round does to partners (13 R376, R393, R396): a joiner whose round has come is
PRESENT; a reunion still without its lineage at r_e is abandoned. -/
def State.snapPartners (s : State) (n : Nat) : State :=
  s.partners.foldl (fun s i =>
    let s := match (s.part i).joinAt with
      | some j =>
        if s.partState i = 3 ∧ (j = n ∨ serialGt 32 n j) then
          (s.modPart i (fun x => { x with joinAt := none })).partEnter i 1 3
        else s
      | none => s
    let ph := s.fld (A.trsRstat i) F.trsRstat.PHASE
    if ph = 1 ∧ s.fld (A.trsRstat i) F.trsRstat.RE = n ∧ (s.part i).theirs.isSome then s.abandon i else s) s |>.showDelay

/-- The snapshot of a round begins (12 R348, R352): every exchanged slot has the action due. -/
def State.beginSnap (s : State) (g n : Nat) : State :=
  let slots := (s.groupSlots g).map (·.1)
  let s := s.snapPartners n
  let s := s.modGrp g (fun x => { x with
    phase := if slots.isEmpty then .snapped else .snapping
    round := some n
    seen := some n
    todo := slots
    nf := false
    doneAt := s.gtAbs })
  s.putTrs { s.trs with past := s.trs.past.filter (fun c => c.group != g || s.inRange g c.round) }

/-- A JOIN request (13 R395). -/
def State.askJoin (s : State) (i : Nat) : State :=
  s.control i 4 (s.groups.headD 0) ([3, 1] ++ leBytes 14 0)

/-- The donor's entry, while this site joins (13 R395). -/
def State.donor (s : State) : Option Nat :=
  if s.flag A.trsDonor F.trsDonor.VALID && !s.flag A.trsDonor F.trsDonor.JOINED then s.partOf (s.fld A.trsDonor F.trsDonor.SITE) else none

/-- What a joiner holds of a group is discarded, and the group requested again (13 R395). -/
def State.joinAgain (s : State) (i g : Nat) : State :=
  let slots := (s.groupSlots g).map (·.1)
  let s := s.putTrs { s.trs with deltas := s.trs.deltas.filter (fun d => !(d.part == i && slots.contains d.slot)) }
  (s.modPart i (fun x => { x with ended := x.ended.filter (fun p => !slots.any (fun q => p.1 == 256 + q)) })).askJoin i

/-- The round r_g of what a joiner holds of a group, of one block of it (13 R395). -/
def State.joinRound (s : State) (i g : Nat) : Option Nat :=
  (s.trs.deltas.find? (fun d => d.part == i && (s.groupSlots g).any (fun q => q.1 == d.slot))).map (·.round)

/-- The SNAPSHOT of r_g + 1 finds a group of a joiner not installed (13 R395). -/
def State.joinLate (s : State) (g off : Nat) : State :=
  match s.donor with
  | none => s
  | some i => match s.joinRound i g with
    | none => s
    | some r =>
      if s.gtAbs ≥ off ∧ serialGt 32 (round32 (s.roundOf (s.gtAbs - off))) r then s.joinAgain i g else s

/-- `TRS_SNAPSHOT` (12 R348, R349): the group's SNAPSHOT falls due. A snapshot that is not complete by the
next one's time is abandoned and its round skipped; so are rounds whose snapshot still waited then. With both
pipelines retired every round is skipped (16 R456). A group that a joiner has yet to install starts nothing (13 R395). -/
def execTrsSnapshot (g : Fin 256) (s : State) : Out :=
  let g := g.val
  let off := (s.calEntry g 1).getD 0
  let x := s.grp g
  let dead := decide (s.flt.pipesDead.length ≥ 2) && s.flag A.trsCtl F.trsCtl.EN && s.flag A.gtStat F.gtStat.VALID
  if !s.takesPart g || !(s.mayAct || dead) || !s.turn g 1 then .next s
  else if x.install then .next (s.joinLate g off)
  else match s.dueRounds g off with
    | none => .next s
    | some (n, before) =>
      let due := s.roundStart n + off
      let s := if x.phase = .snapping then (s.skipRound g (x.round.getD 0) due).modGrp g (fun x => { x with phase := .idle, todo := [] }) else s
      let s := (List.range before).foldl (fun (s : State) (k : Nat) =>
        let r : Int := n - (before : Int) + (k : Int)
        (s.skipRound g (round32 r) due).modGrp g (fun x => { x with seen := some (round32 r) })) s
      if dead then .next ((s.skipRound g (round32 n) due).modGrp g (fun x => { x with seen := some (round32 n) }))
      else if (s.grp g).phase != .idle then .next s
      else .next ((s.lateStart g 1 due).beginSnap g (round32 n))

/-! ### SEND -/

/-- The least t with amax × 2^(-t) ≤ 7, as the scale E (12 R356); amax in units of 2^-192. -/
def scaleOf (amax : Nat) : Nat :=
  if amax = 0 then 0
  else
    let t := (List.range 400).find? (fun i => decide (amax * 2 ^ 200 ≤ 7 * 2 ^ 192 * 2 ^ i))
    (((t.getD 0 : Nat) : Int) - 200 + 127).toNat

/-- A run of 32 differences quantised (12 R356): E, the symbols, the residuals as GF16b. `i0` is the index of the
first element. -/
def quantRun (seed : Word) (tidb step i0 : Nat) (xs : List Nat) : Nat × List Nat × List Nat :=
  let vs := xs.map (fun x => Fmt.gf16b.decode x)
  let e := scaleOf (vs.foldl (fun (a : Nat) (v : FVal) => max a v.units.natAbs) 0)
  let ks := ((List.range xs.length).zip vs).map (fun p => match p.2 with
    | .fin n m x => (roundInt (.sr (srDraw seed (tidb + 12) (i0 + p.1) step)) 8 n m (x + 127 - e)).1
    | _ => 0)
  let res := ((List.range xs.length).zip (xs.zip ks)).map (fun p =>
    let y := f32sub (toF32 .gf16b p.2.1) (diffValue e (toBits 4 p.2.2))
    (cvt .b32 .gf16b (.sr (srDraw seed (tidb + 6) (i0 + p.1) step)) y).1)
  (e, ks.map (toBits 4), res)

/-- One element of a difference read: a non-finite one is counted and reads as zero (06 R183). -/
def readDiffElem (d : UDesc) (b c a : Nat) (q : State × List Nat × Bool) (x : Nat × Nat) : State × List Nat × Bool :=
  if Fmt.gf16b.odd x.2 then
    let s := q.1.nonFinite 0x80 (d.tidb + 12) (2048 * b + 32 * c + x.1)
    (s.memWrite 4 (a + 2 * x.1) [0, 0], q.2.1 ++ [0], true)
  else (q.1, q.2.1 ++ [x.2], q.2.2)

/-- One codeword of a difference read. -/
def readDiffWord (d : UDesc) (b base : Nat) (q : State × List Nat × Bool) (c : Nat) : State × List Nat × Bool :=
  let a := base + 64 * c
  let (s, l, ok, _) := q.1.memRead 4 a 64
  if !ok then
    let s := (s.memWrite 4 a (List.replicate 64 0)).raise 0xA9 (evSource 5 0)
      (leBytes 8 (match locOf a with
        | .tby ia => ia
        | _ => a))
    (s, q.2.1 ++ List.replicate 32 0, q.2.2)
  else ((List.range 32).zip (elemsIn 2 l)).foldl (readDiffElem d b c a) (s, q.2.1, q.2.2)

/-- The differences of a block as the Trestle reads them (12 R354; 16 R457): unreadable codewords and values that
are not finite become +0 in array 6 too. Answers the state, the elements, and whether a value was replaced. -/
def State.readDiff (s : State) (d : UDesc) (b : Nat) : State × List Nat × Bool :=
  let j := b - d.first
  let (t, p) := (j % 16, j / 16)
  if j ≥ d.nblk then (s, List.replicate 2048 0, false)
  else thirds ((List.range 64).foldl (readDiffWord d b (d.addr t 6 p)) (s, [], false))

/-- A difference block is quantised and coded into the body of a DATA frame, array 6 keeping the residuals; none
where it is sparse (12 R354 to R358). Answers also whether a value was replaced. -/
def State.diffBlock (s : State) (slot cls tau step : Nat) (d : UDesc) (pair : Nat) : State × Option (List Byte) × Bool :=
  let b := d.first + 2 * pair
  let (s, x0, n0) := s.readDiff d b
  let (s, x1, n1) := s.readDiff d (b + 1)
  let xs := x0 ++ x1
  let norm := sqrtExact (sumSquares (xs.map (toF32 .gf16b)))
  if f32gt tau 0 && f32gt tau norm then (s, none, n0 || n1)
  else
    let runs := ((List.range 128).zip (chunks 32 128 xs)).map (fun r => quantRun s.seed d.tidb step (2048 * b + 32 * r.1) r.2)
    let res := runs.flatMap (fun r => r.2.2)
    let put (s : State) (k : Nat) (l : List Nat) : State :=
      let j := 2 * pair + k
      if j < d.nblk then s.memWrite 4 (d.addr (j % 16) 6 (j / 16)) (elemsOut 2 l) else s
    let s := put (put s 0 (res.take 2048)) 1 (res.drop 2048)
    let body := leBytes 8 (slot + pair * 2 ^ 12) ++ runs.map (fun r => BitVec.ofNat 8 r.1) ++
      encodeBlock (s.diffTables cls) (runs.flatMap (fun r => r.2.1))
    (s, some (padTo 8 body), n0 || n1)

/-- The anchor slot of a group with a valid record of a round (13 R382). -/
def State.anchorOf (s : State) (g round : Nat) : Option Nat :=
  firstNat s.depth (fun j => (s.lin g j).valid && (s.lin g j).round == round)

/-- FPRINT frames of a round of a group to every PRESENT partner (13 R381). -/
def State.sendPrints (s : State) (g round : Nat) : State :=
  match s.anchorOf g round with
  | none => s
  | some j =>
    let recs := (s.groupSlots g).map (fun q =>
      let (a, b) := s.loadPrint q.1 j
      leBytes 8 q.1 ++ leBytes 8 a ++ leBytes 8 b)
    let bodies := (chunks 175 (recs.length / 175 + 1) recs).map (fun c =>
      leBytes 4 round ++ leBytes 2 c.length ++ leBytes 2 0 ++ (s.lin g j).digest ++ c.flatten)
    (s.partners.filter (fun i => s.partState i == 1)).foldl (fun s i => bodies.foldl (fun s b => s.control i 3 g b) s) s

/-- The frame of a pair of blocks of a slot joins the others, unless it is sparse (12 R354); a value replaced marks the group's
record (R370). -/
def ownFrame (tau n slot g : Nat) (d : UDesc) (a : State × List (List Byte × Bool)) (p : Nat) : State × List (List Byte × Bool) :=
  let (s, r, nf) := a.1.diffBlock slot (a.1.slotGroup slot).2 tau (0x800000000000 + n) d p
  (if nf then s.modGrp g (fun x => { x with nf := true }) else s,
   match r with
    | some f => a.2 ++ [(f, nf)]
    | none => a.2)

/-- The bodies of the frames of a group's own difference (12 R353 to R359), each with its mark. -/
def State.ownFrames (s : State) (g tau n : Nat) : State × List (List Byte × Bool) :=
  (s.groupSlots g).foldl (fun a q => (List.range ((q.2.nblk + 1) / 2)).foldl (ownFrame tau n q.1 g q.2) a) (s, [])

/-- `TRS_SEND` (12 R354 to R358; 13 R381): at its instant after the snapshot, one SEND at a time. -/
def execTrsSend (g : Fin 256) (s : State) : Out :=
  let g := g.val
  let x := s.grp g
  match s.calEntry g 2 with
  | none => .next s
  | some off =>
    let due := s.nextInstant x.doneAt off
    if !s.mayAct || x.phase != .snapped || decide ((s.gtAbs : Int) < due) || s.anyPhase .sending || !s.turn g 2 then .next s
    else
      let n := x.round.getD 0
      let s := (s.lateStart g 2 due).setFld A.trsStat F.trsStat.SENDING 1
      let s := s.sendPrints g ((n + 2 ^ 32 - 1) % 2 ^ 32)
      let tau := s.gcfgWord g 0 % 2 ^ 32
      let (s, frames) := halves (s.ownFrames g tau n)
      let frames := if frames.isEmpty then [([], false)] else frames
      let ix := List.range frames.length
      let own : Contrib := ⟨s.site, n, g, (ix.zip frames).map (fun p => (p.1, p.2.1)), some (frames.length - 1),
        frames.any (·.2), some s.pulse, true, [], none, 0⟩
      let s := (s.putTrs { s.trs with contribs := s.trs.contribs ++ [own] }).modGrp g (fun y => { y with phase := .sending })
      let out := (ix.zip frames).flatMap (fun p => (s.partners.filter (fun i => s.trades i g n)).map (fun i =>
        (⟨i, 0, p.1 + 1 == frames.length, p.2.2, n, g, p.1, p.1, p.2.1⟩ : OutFrame)))
      .next (s.sendFrames out)

/-- `TRS_SEND_COMPLETE` (12 R365): the last own frame of the round has been sent, at t_s. -/
def execTrsSendComplete (g : Fin 256) (s : State) : Out :=
  let x := s.grp g.val
  if x.phase != .sending || s.trs.wait.any (fun f => f.kind == 0 && f.group == g.val && some f.round == x.round) then .next s
  else .next ((s.modGrp g.val (fun x => { x with phase := .sent, ts := s.gtAbs, doneAt := s.gtAbs })).setFld A.trsStat F.trsStat.SENDING 0)

/-! ### CLOSE -/

/-- A REQUEST of a transfer is sent (13 R387): kind, slot, the round expected, the digests offered. -/
def State.askXfer (s : State) (x : Xfer) : State :=
  let cur := s.cur x.group
  let offers := (((List.range s.depth).filter (fun j => j != cur && (s.lin x.group j).valid)).mergeSort
    (fun a b => !serialGt 32 (s.lin x.group b).round (s.lin x.group a).round)).map (fun j => (s.lin x.group j).digest)
  s.control x.part 4 x.group ([3, BitVec.ofNat 8 x.kind] ++ leBytes 2 x.slot ++ leBytes 4 x.lastApp ++ leBytes 2 offers.length ++
    leBytes 6 0 ++ (offers.take 3).flatten)

/-- A transfer begins (13 R387). -/
def State.startXfer (s : State) (kind g slot part : Nat) (fp : Option (Nat × Nat)) (voters : Nat) : State :=
  if s.trs.xfers.any (fun x => x.slot == slot) then s
  else
    let x : Xfer := ⟨kind, g, slot, part, s.gcfgWord g 1 % 2 ^ 32, [], [], none, false, false, [], fp, voters, s.pulse,
      2 * s.fld (A.trsPart1 part) F.trsPart1.DEWMA + 2000⟩
    (s.putTrs { s.trs with xfers := s.trs.xfers ++ [x] }).askXfer x

/-- The mismatches of a round of a group are decided (13 R383), ABSENT partners having no vote (R377). -/
def State.decideVotes (s : State) (g m : Nat) : State :=
  match s.anchorOf g m with
  | none => s
  | some j => (s.groupSlots g).foldl (fun s q =>
    let own := s.loadPrint q.1 j
    let votes := s.trs.votes.filter (fun v => v.group == g && v.round == m && v.slot == q.1 && v.same && s.partState v.part != 2)
    if votes.all (fun v => v.fp == own) then s
    else
      let voters : List (Nat × (Nat × Nat)) := (s.site, own) :: votes.map (fun v => (s.partSite v.part, v.fp))
      let score (f : Nat × Nat) : Nat := countTrue (fun v => v.2 == f) voters
      let low (f : Nat × Nat) : Nat := ((voters.filter (fun v => v.2 == f)).map (·.1)).foldl min 0xFFFF
      let best := voters.foldl (fun (b : Nat × Nat) v =>
        if score v.2 > score b ∨ (score v.2 = score b ∧ low v.2 < low b) then v.2 else b) own
      if best = own then s
      else
        let s := s.trsEvent 0x68 (leBytes 2 q.1 ++ [BitVec.ofNat 8 g, 1] ++ leBytes 4 m ++ leBytes 2 (low best) ++ leBytes 2 voters.length)
        match s.partOf (low best) with
        | some i => if s.flag A.trsRecon F.trsRecon.REPAIR then s.startXfer 2 g q.1 i (some best) voters.length else s
        | none => s) s

/-- The reference site of a slot for a reconciliation round (13 R384). -/
def State.reference (s : State) (slot m k : Nat) : Nat :=
  let l := (s.site :: s.partners.map s.partSite).mergeSort (fun a b => decide (a ≤ b))
  l.getD ((slot + m / k) % l.length) 0

/-- Whether a partner's FPRINT of a round of a group gave a digest other than that of this site's record, or this site holds no
record of the round (13 R384). -/
def State.differs (s : State) (i g m : Nat) : Bool :=
  match s.anchorOf g m with
  | none => true
  | some j => s.trs.votes.any (fun v => v.part == i && v.group == g && v.round == m && v.digest != (s.lin g j).digest)

/-- Reconciliation at the close of the round after `m` (13 R384). -/
def State.reconcile (s : State) (g m : Nat) : State :=
  let k := s.fld A.trsRecon F.trsRecon.K
  if k = 0 || m % k != 0 then s
  else (s.groupSlots g).foldl (fun s q =>
    match s.partOf (s.reference q.1 m k) with
    | none => s
    | some i =>
      if s.partState i = 1 ∧ s.differs i g m then
        s.startXfer 3 g q.1 i ((s.trs.votes.find? (fun v => v.part == i && v.group == g && v.round == m && v.slot == q.1)).map (·.fp)) 0
      else s) s

/-- `TRS_CLOSE` (12 R365; 13 R383, R384). -/
def execTrsClose (g : Fin 256) (s : State) : Out :=
  let g := g.val
  let x := s.grp g
  let auto := s.flag A.trsCtl F.trsCtl.GAUTO
  let due : Int := if auto then (x.ts + s.fld A.trsDelay F.trsDelay.DMAX * 1500 + 2000000 : Nat)
    else s.nextInstant x.ts ((s.calEntry g 3).getD 0)
  if !s.mayAct || x.phase != .sent || decide ((s.gtAbs : Int) < due) || !s.turn g 3 then .next s
  else
    let n := x.round.getD 0
    let s := if auto then s.calMark g else s.lateStart g 3 due
    let s := s.putTrs { s.trs with contribs := s.trs.contribs.map (fun c =>
      if c.group == g && c.round == n && c.doneAt.isSome then { c with onTime := true } else c) }
    let m := (n + 2 ^ 32 - 1) % 2 ^ 32
    let s := (s.decideVotes g m).reconcile g m
    let s := s.putTrs { s.trs with votes := s.trs.votes.filter (fun v => !(v.group == g && (v.round == m || serialGt 32 m v.round))) }
    .next (s.modGrp g (fun x => { x with phase := .closed, doneAt := s.gtAbs }))

/-! ### APPLY -/

/-- λ^j with j - 1 products (12 R367). -/
def lamPow (l : Nat) : Nat → Nat
  | 0 => f32one
  | 1 => l
  | j + 1 => f32mul (lamPow l j) l

/-- The weight of a site (12 R344). -/
def State.weightOf (s : State) (site : Nat) : Nat :=
  if site = s.site then s.fld A.trsSite F.trsSite.WEIGHT
  else match s.partOf site with
    | some i => s.fld (A.trsPart0 i) F.trsPart0.WEIGHT
    | none => 0

/-- The age of a contribution at the apply of a round. -/
def age (m r : Nat) : Nat := (m + 2 ^ 32 - r) % 2 ^ 32

/-- A contribution is freed, but for which frames of it came (12 R360, R369). -/
def State.freeContrib (s : State) (c : Contrib) : State :=
  s.putTrs { s.trs with
    contribs := s.trs.contribs.filter (· != c)
    past := s.trs.past ++ [{ c with bodies := c.bodies.map (fun p => (p.1, [])), gaps := [] }] }

/-- A contribution is dropped (12 R366): event 0x62, a DROP record. Reasons: 1 stale, 2 decode. -/
def State.dropContrib (s : State) (c : Contrib) (m reason : Nat) : State :=
  let s := s.freeContrib c
  let s := s.trsEvent 0x62 (leBytes 2 c.site ++ [BitVec.ofNat 8 c.group, BitVec.ofNat 8 reason] ++ leBytes 4 c.round ++ leBytes 4 m)
  s.applyLog c.group 2 m c.round 0 c.nf ((s.partOf c.site).toList)

/-- The newest common round of this site and a partner for a group (13 R390): anchor slot and round. -/
def State.common (s : State) (g : Nat) (rec : List Byte) : Option (Nat × Nat) :=
  let theirs := (List.range 4).filterMap (fun j =>
    if ((rec.drop (8 + 24 * j + 4)).headD 0) = 0 then none else some ((rec.drop (8 + 24 * j + 8)).take 16))
  let ours := (List.range s.depth).filter (fun j => (s.lin g j).valid && theirs.contains (s.lin g j).digest)
  (ours.foldl (fun (b : Option Nat) j => match b with
    | none => some j
    | some k => if serialGt 32 (s.lin g j).round (s.lin g k).round then some j else b) none).map (fun j => (j, (s.lin g j).round))

/-- Whether a group holds every ADELTA block and the END of a partner (13 R393). -/
def State.transferHeld (s : State) (i g : Nat) : Bool :=
  FMap.has (s.part i).ended g && (s.groupSlots g).all (fun q => (List.range q.2.nblk).all (fun j =>
    s.trs.deltas.any (fun d => d.part == i && d.slot == q.1 && d.arr == 0 && d.block == q.2.first + j)))

/-- What the reunions of a round change in an APPLY of a group (13 R391 to R393): those that lack a frame are
abandoned first. -/
def State.reunions (s : State) (g m : Nat) : State × Option Reunite :=
  let mine := s.partners.filter (fun i => s.reuniting i m)
  let dec (i : Nat) : Nat := s.fld (A.trsRstat i) F.trsRstat.DEC
  let lost := mine.filter (fun i => dec i != 3 && !s.transferHeld i g)
  let s := lost.foldl (fun s i => s.abandon i) s
  let s := lost.foldl (fun s i =>
    (s.trs.contribs.filter (fun c => c.group == g && c.round == m && c.site == s.partSite i)).foldl (fun s c => s.dropContrib c m 1) s) s
  let mine := mine.filter (fun i => !lost.contains i)
  match mine.find? (fun i => dec i == 2) with
  | some i => (s, some (.adopt i))
  | none =>
    if mine.any (fun i => dec i == 3) then (s, some .adopted)
    else
      let merging := mine.filter (fun i => dec i == 1)
      let ownD := (s.lin g (s.cur g)).digest
      let other := merging.filter (fun i => FMap.getD (s.part i).ended g [] != ownD)
      match merging.head?, other with
      | some i, _ :: _ =>
        match s.common g (FMap.getD (s.part i).lineage g []) with
        | none => (s, none)
        | some (rc, rr) =>
          let digest (i : Nat) : List Byte := FMap.getD (s.part i).ended g []
          let rep (d : List Byte) : List Nat := (merging.filter (fun i => digest i == d)).map s.partSite
          let ownRep := (s.site :: rep ownD).foldl min 0xFFFF
          let reps := (other.map (fun i => (((rep (digest i)).foldl min 0xFFFF), digest i))).eraseDups
          let classes := ((ownRep, (none : Option Nat)) :: reps.map (fun r => (r.1, s.partOf r.1))).mergeSort (fun a b => decide (a.1 ≤ b.1))
          (s, some (.merge rc rr (classes.map (·.2))))
      | _, _ => (s, none)

/-- `TRS_APPLY` (12 R366 to R369; 13 R391, R392): the outer law is taken and the contributions are fixed, those that do not decode
dropped, transfers of the group abandoned, and every slot has the action due. A contribution that became complete after its close is late
from the APPLY of the next round on (log 27). `unread` names sites whose contribution
holds an unreadable codeword of the staging region (16 R457). -/
def execTrsApply (g : Fin 256) (unread : List (Nat × Nat)) (s : State) : Out :=
  let g := g.val
  let x := s.grp g
  match s.calEntry g 4 with
  | none => .next s
  | some off =>
    let due := s.nextInstant x.doneAt off
    if !s.mayAct || x.phase != .closed || decide ((s.gtAbs : Int) < due) || s.anyPhase .applying || !s.turn g 4 then .next s
    else
      let m := x.round.getD 0
      let law := s.outerLaw
      let s := (s.lateStart g 4 due).setFld A.trsStat F.trsStat.APPLYING 1
      let s := (s.trs.xfers.filter (fun y => y.group == g)).foldl (fun s y => s.dropXfer y) s
      let (s, re) := halves (s.reunions g m)
      let fit (s : State) (c : Contrib) : Bool := c.group == g && c.doneAt.isSome &&
        ((c.round == m && c.onTime) ||
          (decide (1 ≤ age m c.round) && decide (age m c.round ≤ law.bound) && re.isNone && c.site != s.site && !c.onTime))
      let s := (s.trs.contribs.filter (fit s)).foldl (fun s c =>
        if c.site != s.site && (unread.contains (c.site, c.round) || !s.decodes c) then s.dropContrib c m 2 else s) s
      let lam := s.fld A.trsLate F.trsLate.LAMBDA
      let uses := ((s.trs.contribs.filter (fit s)).map (fun c =>
        (⟨c.site, c.round, f32mul (s.weightOf c.site) (lamPow lam (age m c.round))⟩ : TrsUse))).mergeSort
          (fun a b => decide (a.site < b.site) || (a.site == b.site && !serialGt 32 a.round b.round))
      let nf := (s.trs.contribs.filter (fit s)).any (·.nf)
      .next (s.modGrp g (fun y => { y with
        phase := .applying
        todo := (s.groupSlots g).map (·.1)
        appRound := m
        uses := uses
        reunite := re
        law := some law
        nf := y.nf || nf }))

/-- The lineage digest after an apply (13 R378, R391, R392). -/
def State.newDigest (s : State) (g m : Nat) (uses : List TrsUse) (re : Option Reunite) : List Byte :=
  let own := (s.lin g (s.cur g)).digest
  let l := match re with
    | some (.merge _ rr classes) =>
      (sm3 ([0x4D] ++ leBytes 4 rr ++ [BitVec.ofNat 8 g] ++ leBytes 2 classes.length ++ classes.flatMap (fun c => match c with
        | none => own
        | some i => FMap.getD (s.part i).ended g []))).take 16
    | some (.adopt i) => FMap.getD (s.part i).ended g []
    | _ => own
  (sm3 (l ++ leBytes 4 m ++ [BitVec.ofNat 8 g] ++ leBytes 2 uses.length ++ uses.flatMap (fun u => leBytes 2 u.site ++ leBytes 4 u.round))).take 16

/-- ADELTA frames of an array of every block of a group's slots to a partner (13 R386, R391, R395): the symbols
are XORed with the base anchor's, or with nothing. -/
def State.sendDeltas (s : State) (i g arr round : Nat) (q : Nat × UDesc) (base : Option (Nat × List Byte)) (blocks : List Nat) : State :=
  let cur := s.cur g
  let k := if arr = 0 then 7 + cur else 5
  let tabs := (List.range 4).filterMap (fun t =>
    let (_, l, ok, _) := s.memRead 4 (s.fld A.trsTab F.trsTab.ADDR * 64 + 136 * (256 + t)) 136
    if ok then (tableOf 0 l).map (fun x => (t, x)) else none)
  blocks.foldl (fun s b =>
    let j := b - q.2.first
    let rd (k : Nat) : List Byte := (s.memRead 4 (q.2.addr (j % 16) k (j / 16)) (q.2.posBytes k)).2.1
    let bytes := match base with
      | some (bj, _) => ((rd k).zip (rd (7 + bj))).map (fun p => p.1 ^^^ p.2)
      | none => rd k
    ((List.range 2).zip (chunks 4096 2 bytes)).foldl (fun s h =>
      s.control i 4 g ([5, BitVec.ofNat 8 arr] ++ leBytes 2 q.1 ++ leBytes 4 round ++ leBytes 4 b ++ [BitVec.ofNat 8 h.1] ++ leBytes 3 0 ++
        (match base with
          | some (_, d) => d
          | none => List.replicate 16 0xFF) ++ padTo 8 (encodeBlock tabs (h.2.map (·.toNat))))) s) s

/-- An END frame (13 R385). -/
def State.sendEnd (s : State) (i g kind slot code sent : Nat) : State :=
  s.control i 4 g ([6, BitVec.ofNat 8 kind] ++ leBytes 2 slot ++ leBytes 4 (s.gcfgWord g 1) ++ [BitVec.ofNat 8 code] ++ leBytes 3 0 ++
    leBytes 4 sent ++ (s.lin g (s.cur g)).digest)

/-- The blocks of a slot. -/
def UDesc.blocks (d : UDesc) : List Nat := (List.range d.nblk).map (· + d.first)

/-- A site's anchors of a group go to a partner in reunion, once its apply before r_e has completed (13 R391,
R392). -/
def State.sendReunion (s : State) (i g : Nat) : State :=
  let dec := s.fld (A.trsRstat i) F.trsRstat.DEC
  let re := s.fld (A.trsRstat i) F.trsRstat.RE
  let last := s.gcfgWord g 1 % 2 ^ 32
  if s.fld (A.trsRstat i) F.trsRstat.PHASE != 2 || !(dec == 1 || dec == 3) || (last + 1) % 2 ^ 32 != re then s
  else
    let base := if dec = 1 then (s.common g (FMap.getD (s.part i).lineage g [])).map (fun c => (c.1, (s.lin g c.1).digest)) else none
    let s := (s.groupSlots g).foldl (fun s q => s.sendDeltas i g 0 last q base q.2.blocks) s
    s.sendEnd i g 0 0 0 (((s.groupSlots g).map (fun q => q.2.nblk)).foldl (· + ·) 0)

/-- A group's anchors and momenta go to a joiner that has asked (13 R395). -/
def State.sendJoin (s : State) (i g : Nat) : State :=
  if !(s.part i).joinDue.contains g then s
  else
    let s := s.modPart i (fun x => { x with joinDue := x.joinDue.filter (· != g) })
    let last := s.gcfgWord g 1 % 2 ^ 32
    (s.groupSlots g).foldl (fun s q =>
      let s := s.sendDeltas i g 0 last q none q.2.blocks
      let s := s.sendDeltas i g 5 last q none q.2.blocks
      s.sendEnd i g 1 q.1 0 ((1 + (q.2.fmt 5).bytes / 2) * q.2.nblk)) s

/-- The reunions of a round have been executed for a group (13 R394). -/
def State.reunited (s : State) (g m : Nat) : State :=
  (s.partners.filter (fun i => s.reuniting i m)).foldl (fun s i =>
    let s := s.modPart i (fun x => { x with applied := g :: x.applied })
    if s.groups.all (fun j => (s.part i).applied.contains j) then
      let a := A.trsRstat i
      let s := s.setFld a F.trsRstat.PHASE 3
      let s := s.trsEvent 0x6A (leBytes 2 (s.partSite i) ++ [BitVec.ofNat 8 (s.fld a F.trsRstat.DEC), 3] ++ leBytes 4 (s.part i).rh ++
        leBytes 4 (s.fld a F.trsRstat.RE) ++ leBytes 4 (s.part i).rc)
      let s := s.modPart i (fun x => { x with lineage := [], ended := [], applied := [], theirs := none })
      ((s.putTrs { s.trs with deltas := s.trs.deltas.filter (fun d => d.part != i) }).partEnter i 1 2).showDelay
    else s) s

/-- `TRS_APPLY_COMPLETE` (12 R369, R370; 13 R378 to R380, R391 to R395). -/
def execTrsApplyComplete (g : Fin 256) (s : State) : Out :=
  let g := g.val
  let x := s.grp g
  if x.phase != .applying || !x.todo.isEmpty then .next s
  else
    let m := x.appRound
    let sBound := (s.law g).bound
    let next := (s.cur g + 1) % s.depth
    let digest := s.newDigest g m x.uses x.reunite
    let s := match x.reunite with
      | some (.adopt _) => (List.range s.depth).foldl (fun (s : State) (j : Nat) => s.putLin g j { s.lin g j with valid := false }) s
      | _ => s
    let s := s.memWrite 4 (s.gcfg g) (leBytes 8 (s.gcfgWord g 0 % 2 ^ 32 + next * 2 ^ 32) ++ leBytes 8 (m + 2 ^ 32))
    let s := s.putLin g next ⟨m, x.uses.length, true, digest⟩
    let s := (s.groupSlots g).foldl (fun (s : State) q => s.storePrint q.1 q.2 next) s
    let onTime := (x.uses.filter (fun u => u.round == m)).filterMap (fun u => s.partOf u.site)
    let s := s.applyLog g 0 m m x.uses.length x.nf onTime
    let s := (x.uses.filter (fun u => u.round != m)).foldl (fun s u =>
      (s.trsEvent 0x61 (leBytes 2 u.site ++ [BitVec.ofNat 8 g, 0] ++ leBytes 4 u.round ++ leBytes 4 m)).applyLog g 1 m u.round 0
        (s.trs.contribs.any (fun c => c.group == g && c.site == u.site && c.round == u.round && c.nf)) ((s.partOf u.site).toList)) s
    let used (c : Contrib) : Bool := x.uses.any (fun u => u.site == c.site && u.round == c.round)
    let s := (s.trs.contribs.filter (fun c => c.group == g && used c && c.site != s.site)).foldl State.freeContrib s
    let s := s.putTrs { s.trs with contribs := s.trs.contribs.filter (fun c => !(c.group == g && c.site == s.site)) }
    let stale (c : Contrib) : Bool := c.group == g && !serialGt 32 c.round m && (decide (age m c.round ≥ sBound) || x.reunite.isSome)
    let s := (s.trs.contribs.filter stale).foldl (fun (s : State) c => s.dropContrib c m 1) s
    let s := s.putTrs { s.trs with tx := s.trs.tx.filter (fun f => !(f.group == g && !serialGt 32 f.round m && decide (age m f.round ≥ sBound))) }
    let s := (s.modGrp g (fun y => { y with phase := .idle, uses := [], reunite := none, nf := false, doneAt := s.gtAbs })).setFld A.trsStat F.trsStat.APPLYING 0
    let s := s.reunited g m
    let s := s.partners.foldl (fun (s : State) i => (s.sendReunion i g).sendJoin i g) s
    .next s.flushFar

end Sys2Proof.Machine
end

