-- ==== Sys2Proof/Machine/TrsPeer.lean ====
section
/-!
DEFINITION. Frames from partners and the Trestle's timers: DATA, ACK, NACK (12 R360 to R363), fingerprints,
control frames, anchor transfer, reunions and joiners (13), enabling and disabling (12 R373), the pipelines (16
R456).
-/
namespace Sys2Proof.Machine

/-! ### DATA, ACK, NACK -/

/-- The state with a contribution replaced. -/
def State.putContrib (s : State) (c : Contrib) : State :=
  s.putTrs { s.trs with contribs := s.trs.contribs.filter (fun x => !(x.site == c.site && x.round == c.round && x.group == c.group)) ++ [c] }

/-- The indices missing below the highest one received (12 R362). -/
def Contrib.gone (c : Contrib) : List Nat :=
  (List.range ((c.bodies.map (·.1)).foldl max 0)).filter (fun i => !FMap.has c.bodies i)

/-- The missing ranges of a contribution, at most 255 (12 R358, R362). -/
def Contrib.missing (c : Contrib) : List (Nat × Nat) :=
  (c.gone.foldl (fun (l : List (Nat × Nat)) i => match l.getLast? with
    | some (a, b) => if b + 1 = i then l.dropLast ++ [(a, i)] else l ++ [(i, i)]
    | none => [(i, i)]) []).take 255

/-- An ACK or a NACK of a contribution goes to its sender (12 R358, R359, R362). -/
def State.answerContrib (s : State) (i : Nat) (c : Contrib) (kind : Nat) (body : List Byte) : State :=
  let c' := { c with replies := c.replies + 1, nackAt := if kind = 1 then some s.pulse else c.nackAt }
  let s := if s.trs.past.contains c then s.putTrs { s.trs with past := s.trs.past.map (fun x => if x == c then c' else x) } else s.putContrib c'
  s.sendFrames [⟨i, kind, false, false, c.round, c.group, 0, 2 ^ 31 + c.replies % 2 ^ 31, body⟩]

/-- An ACK (12 R362). -/
def State.ack (s : State) (i : Nat) (c : Contrib) : State := s.answerContrib i c 2 (leBytes 8 c.bodies.length)

/-- A NACK of the missing ranges (12 R362). -/
def State.nack (s : State) (i : Nat) (c : Contrib) : State :=
  let l := c.missing
  s.answerContrib i c 1 (leBytes 2 l.length ++ l.flatMap (fun r => leBytes 4 r.1 ++ leBytes 4 r.2))

/-- The gaps of a contribution after a frame of it has come: those that remain keep their time, and NACKs of gaps that have all closed are
done with (12 R362). -/
def Contrib.watchGaps (c : Contrib) (now : Nat) : Contrib :=
  let gaps := c.gone.map (fun k => (k, FMap.getD c.gaps k now))
  { c with gaps := gaps, nackAt := if gaps.isEmpty then none else c.nackAt }

/-- A DATA frame that was received before (12 R360, R362, R363): it is discarded; a complete contribution is acknowledged again, and a
repeated last frame of one that is not is answered by a NACK. -/
def State.repeatData (s : State) (i : Nat) (h : FarHdr) : State :=
  match s.pastContrib h.src h.round h.group with
  | some c => if c.doneAt.isSome then s.ack i c else s
  | none => match s.contrib h.src h.round h.group with
    | none => s
    | some c => if c.doneAt.isSome then s.ack i c else if h.last then s.nack i c else s

/-- A DATA frame is accepted (12 R360 to R364). -/
def State.takeData (s : State) (i : Nat) (h : FarHdr) (body : List Byte) : State :=
  let s := s.sample i h.round (s.gtAbs - h.gts)
  let c := (s.contrib h.src h.round h.group).getD ⟨h.src, h.round, h.group, [], none, false, none, false, [], none, 0⟩
  let c := { c with
    bodies := FMap.set c.bodies h.fidx body
    last := if h.last then some h.fidx else c.last
    nf := c.nf || h.nf }
  let c := c.watchGaps s.pulse
  if c.last.any (fun l => c.bodies.length == l + 1) then
    (s.setFld (A.trsPart3 i) F.trsPart3.LASTRX h.round).ack i { c with doneAt := some s.pulse }
  else s.putContrib c

/-- `TRS_DATA_RECEIVE` (12 R360 to R364). -/
def execTrsDataReceive (p : PortNo) (frame : Bytes) (s : State) : Out :=
  if (farHdrOf frame).kind != 0 then .next s
  else
    let (s, r) := s.recvFrame p.val frame
    .next (match r with
      | none => s
      | some (i, h, body) => if s.repeated h then s.repeatData i h else s.takeData i h body)

/-- `TRS_ACK_RECEIVE` (12 R361). -/
def execTrsAckReceive (p : PortNo) (frame : Bytes) (s : State) : Out :=
  if (farHdrOf frame).kind != 2 then .next s
  else
    let (s, r) := s.recvFrame p.val frame
    .next (match r with
      | none => s
      | some (i, h, _) =>
        (s.putTrs { s.trs with tx := s.trs.tx.filter (fun f => !(f.part == i && f.group == h.group && f.round == h.round)) }).flushFar)

/-- Buffered frames are sent again byte for byte, as soon as a gateway port qualifies (12 R345, R359, R362). -/
def State.resend (s : State) (pick : TxFrame → Bool) : State :=
  (s.putTrs { s.trs with tx := s.trs.tx.map (fun f => if pick f then { f with again := true } else f) }).sendAgain

/-- `TRS_NACK_RECEIVE` (12 R362). -/
def execTrsNackReceive (p : PortNo) (frame : Bytes) (s : State) : Out :=
  if (farHdrOf frame).kind != 1 then .next s
  else
    let (s, r) := s.recvFrame p.val frame
    .next (match r with
      | none => s
      | some (i, h, body) =>
        let s := s.incSat (A.trsPart2 i) F.trsPart2.NACKS 1
        let ranges := (List.range (min 255 (numAt body 0 2))).map (fun k => (numAt body (2 + 8 * k) 4, numAt body (6 + 8 * k) 4))
        s.resend (fun f => f.part == i && f.group == h.group && f.round == h.round &&
          ranges.any (fun r => decide (r.1 ≤ f.fidx) && decide (f.fidx ≤ r.2))))

/-- `TRS_NACK_TIMER` (12 R362): a gap has lasted 1 ms since the last NACK, or the repeat interval has passed since then. -/
def execTrsNackTimer (i : Fin 256) (g : Fin 256) (round : BitVec 32) (s : State) : Out :=
  let i := i.val
  .next (match s.contrib (s.partSite i) round.toNat g.val with
    | none => s
    | some c =>
      let fresh := c.gaps.any (fun q => s.reached q.2 1000 && c.nackAt.all (fun n => decide (q.2 + 1000 * usPulses > n)))
      let again := !c.gaps.isEmpty && c.nackAt.any (fun n => s.reached n (2 * s.fld (A.trsPart1 i) F.trsPart1.DEWMA + 2000))
      if s.partOn i && (fresh || again) && s.flag A.trsCtl F.trsCtl.EN then s.nack i c else s)

/-- `TRS_LAST_RESEND_TIMER` (12 R363): a LAST frame without an ACK is sent again, at doubling intervals. -/
def execTrsLastResendTimer (i : Fin 256) (g : Fin 256) (round : BitVec 32) (s : State) : Out :=
  let mine (f : TxFrame) : Bool := f.part == i.val && f.group == g.val && f.round == round.toNat && f.last
  .next (match s.trs.tx.find? mine with
    | none => s
    | some f =>
      if s.reached f.sentAt f.wait then
        let s := s.resend mine
        s.putTrs { s.trs with tx := s.trs.tx.map (fun x => if mine x then { x with sentAt := s.pulse, wait := 2 * x.wait } else x) }
      else s)

/-- `TRS_TXBUF_FULL_TIMER` (12 R372): event 0x65, once for each time the buffer is full. -/
def execTrsTxbufFullTimer (s : State) : Out :=
  .next (match s.trs.fullAt with
    | none => s
    | some at' =>
      if s.reached at' 1000000 && !s.trs.fullSaid then (s.putTrs { s.trs with fullSaid := true }).trsEvent 0x65 [2] else s)

/-! ### Fingerprints -/

/-- `TRS_FPRINT_RECEIVE` (13 R382). -/
def execTrsFprintReceive (p : PortNo) (frame : Bytes) (s : State) : Out :=
  if (farHdrOf frame).kind != 3 then .next s
  else
    let (s, r) := s.recvFrame p.val frame
    .next (match r with
      | none => s
      | some (i, h, body) =>
        let m := numAt body 0 4
        let g := h.group
        let k := s.fld A.trsRecon F.trsRecon.K
        let digest := (body.drop 8).take 16
        let own := s.anchorOf g m
        let same := match own with
          | some j => (s.lin g j).digest == digest
          | none => false
        let recs := (List.range (min 175 (numAt body 4 2))).map (fun k =>
          (⟨i, g, m, numAt body (24 + 24 * k) 2, (numAt body (32 + 24 * k) 8, numAt body (40 + 24 * k) 8), digest, same⟩ : Voted))
        let s := s.putTrs { s.trs with votes := s.trs.votes.filter (fun v => !recs.any (fun r => r.part == v.part && r.group == v.group && r.round == v.round && r.slot == v.slot)) ++ recs }
        if same || own.isNone || s.trs.diverged.contains (i, g, m) then s
        else
          let ref := if k = 0 ∨ m % k ≠ 0 then 0 else s.reference (numAt body 24 2) m k
          (s.putTrs { s.trs with diverged := s.trs.diverged ++ [(i, g, m)] }).trsEvent 0x69
            (leBytes 2 (s.partSite i) ++ [BitVec.ofNat 8 g, 1] ++ leBytes 4 m ++ leBytes 2 ref))

/-! ### Control frames -/

/-- A CONTROL frame of a subtype, received: the partner, the header and the body (13 R385). -/
def State.recvControl (s : State) (p sub : Nat) (frame : List Byte) (more : List Byte → Bool) : State × Option (Nat × FarHdr × List Byte) :=
  if (farHdrOf frame).kind != 4 then (s, none)
  else
    let (s', r) := s.recvFrame p frame
    match r with
    | none => (s', none)
    | some (i, h, body) => if (body.headD 0).toNat = sub ∧ more body then (s', some (i, h, body)) else (s, none)

/-- `HELLO` (13 R375, R389): the partner is heard. -/
def execHello (p : PortNo) (frame : Bytes) (s : State) : Out :=
  .next (s.recvControl p.val 1 frame (fun _ => true)).1

/-- The groups that a joiner has yet to install (13 R395). -/
def State.toInstall (s : State) : List Nat := s.groups.filter (fun g => (s.grp g).install)

/-- A HELLO to a partner (13 R375). -/
def State.sendHello (s : State) (i : Nat) : State :=
  s.control i 4 (s.groups.headD 0) ([1, 0, 0, 0] ++ leBytes 4 s.roundNow ++ leBytes 8 0)

/-- `TRS_HELLO_TIMER` (13 R375, R389, R395): HELLO to every partner; LINEAGE while a reunion gathers it; JOIN to
the donor until its first ADELTA frame. -/
def execTrsHelloTimer (s : State) : Out :=
  if !s.flag A.trsCtl F.trsCtl.EN || !s.reached s.trs.helloAt (s.fld A.trsAbsent F.trsAbsent.MS * 250) then .next s
  else
    let s := s.putTrs { s.trs with helloAt := s.pulse }
    let s := s.partners.foldl (fun s i =>
      let s := s.sendHello i
      if s.fld (A.trsRstat i) F.trsRstat.PHASE = 1 then s.sendLineage i else s) s
    .next (match s.donor with
      | some i => if s.toInstall = s.groups ∧ !s.trs.deltas.any (fun d => d.part == i) then s.askJoin i else s
      | none => s)

/-- `TRS_PARTNER_SILENCE` (13 R376, R377). -/
def execTrsPartnerSilence (i : Fin 256) (s : State) : Out :=
  let i := i.val
  if s.flag A.trsCtl F.trsCtl.EN && s.partOn i && (s.partState i == 1 || s.partState i == 3) &&
      s.reached (s.part i).heardAt (s.fld A.trsAbsent F.trsAbsent.MS * 1000) then
    let s := (s.partEnter i 2 1).showDelay
    .next (s.putTrs { s.trs with wait := s.trs.wait.filter (fun f => !(f.part == i && (f.kind == 0 || f.kind == 3))) }).flushFar
  else .next s

/-- The digest that a LINEAGE record gives as current: of its newest valid anchor record (13 R379, R385), which before the first APPLY is
the one of the initial anchor. -/
def theirDigest (rec : List Byte) : Option (List Byte) :=
  let round (j : Nat) : Nat := numAt rec (8 + 24 * j) 4
  (((List.range 4).filter (fun j => (rec.drop (12 + 24 * j)).headD 0 != 0)).foldl (fun (b : Option Nat) j => match b with
    | none => some j
    | some k => if serialGt 32 (round j) (round k) then some j else b) none).map (fun j => (rec.drop (16 + 24 * j)).take 16)

/-- The decision of a reunion (13 R390): 0 SAME, 1 MERGE, 2 this site adopts, 3 the partner adopts. -/
def State.decide3 (s : State) (i re : Nat) : Nat :=
  let rec' (g : Nat) : List Byte := FMap.getD (s.part i).lineage g []
  if s.groups.all (fun g => theirDigest (rec' g) == some (s.lin g (s.cur g)).digest) then 0
  else if s.groups.all (fun g => match s.common g (rec' g) with
      | some (_, rc) => decide ((re + 2 ^ 32 - 1 - rc) % 2 ^ 32 ≤ s.depth - 1)
      | none => false) then 1
  else
    let g := s.groups.headD 0
    let ours := (s.lin g (s.cur g)).count
    let theirs := numAt (rec' g) 2 2
    if ours > theirs ∨ (ours = theirs ∧ s.site < s.partSite i) then 3 else 2

/-- r_e = max(r_h, p's r_h) + 1 (13 R389). -/
def reunionRound (ours theirs : Nat) : Nat := ((if serialGt 32 theirs ours then theirs else ours) + 1) % 2 ^ 32

/-- A reunion is decided (13 R390, R394). -/
def State.decideReunion (s : State) (i re : Nat) : State :=
  let x := s.part i
  let dec := s.decide3 i re
  let a := A.trsRstat i
  let s := s.setFld a F.trsRstat.DEC dec
  let ph := if dec = 0 then 3 else 2
  let s := s.setFld a F.trsRstat.PHASE ph
  let rc := ((s.groups.head?.bind (fun g => s.common g (FMap.getD x.lineage g []))).map (·.2)).getD 0
  let s := s.modPart i (fun x => { x with rc := rc })
  let s := s.trsEvent 0x6A (leBytes 2 (s.partSite i) ++ [BitVec.ofNat 8 dec, BitVec.ofNat 8 ph] ++ leBytes 4 x.rh ++ leBytes 4 re ++
    leBytes 4 rc)
  if dec = 0 then ((s.modPart i (fun x => { x with lineage := [], theirs := none })).partEnter i 1 2).showDelay
  else s.groups.foldl (fun s g => s.sendReunion i g) s

/-- Lineage of a partner in reunion has come: r_e is known with the partner's r_h, and once every group's record is here the reunion is
decided (13 R389), or abandoned where the SNAPSHOT of r_e has passed (R393). -/
def State.lineageCome (s : State) (i : Nat) : State :=
  match (s.part i).theirs with
  | none => s
  | some th =>
    let re := reunionRound (s.part i).rh th
    let s := s.setFld (A.trsRstat i) F.trsRstat.RE re
    if s.groups.any (fun g => (s.grp g).seen.any (fun n => n == re || serialGt 32 n re)) then s.abandon i
    else if s.groups.any (fun g => !FMap.has (s.part i).lineage g) then s
    else s.decideReunion i re

/-- `LINEAGE` (13 R389, R390). -/
def execLineage (p : PortNo) (frame : Bytes) (s : State) : Out :=
  let (s, r) := s.recvControl p.val 2 frame (fun _ => true)
  .next (match r with
    | none => s
    | some (i, _, body) =>
      if s.fld (A.trsRstat i) F.trsRstat.PHASE != 1 then s
      else
        let recs := (List.range (min 40 (numAt body 8 2))).map (fun k => (body.drop (16 + 104 * k)).take 104)
        let s := s.modPart i (fun x => { x with
          theirs := some (numAt body 4 4)
          lineage := recs.foldl (fun m l => FMap.set m (l.headD 0).toNat l) x.lineage })
        s.lineageCome i)

/-- `REQUEST_JOIN` (13 R395): the donor sends each group after its next APPLY. -/
def execRequestJoin (p : PortNo) (frame : Bytes) (s : State) : Out :=
  let (s, r) := s.recvControl p.val 3 frame (fun b => (b.getD 1 0) == 1)
  .next (match r with
    | none => s
    | some (i, _, _) => s.modPart i (fun x => { x with joinDue := s.groups }))

/-- A REPAIR or RECON request is served (13 R387): END with code 1 where the rounds differ, else the block
fingerprints and END; the base for the blocks is chosen from the digests offered. -/
def State.serveXfer (s : State) (i g kind : Nat) (body : List Byte) : State :=
  let slot := numAt body 2 2
  let last := s.gcfgWord g 1 % 2 ^ 32
  match (s.groupSlots g).find? (fun q => q.1 == slot) with
  | none => s
  | some q =>
    if numAt body 4 4 != last then s.sendEnd i g kind slot 1 0
    else
      let offers := (List.range (min 3 (numAt body 8 2))).map (fun k => (body.drop (16 + 16 * k)).take 16)
      let base := (offers.find? (fun d => (s.anchorWith g d).isSome)).getD (List.replicate 16 0xFF)
      let s := s.modPart i (fun x => { x with bases := FMap.set x.bases slot base })
      let cur := s.cur g
      let groups := chunks 527 (q.2.nblk / 527 + 1) q.2.blocks
      let s := groups.foldl (fun s c => s.control i 4 g ([4, 0] ++ leBytes 2 slot ++ leBytes 4 last ++ leBytes 4 (c.headD 0) ++
        leBytes 2 c.length ++ leBytes 2 0 ++ c.flatMap (fun b => leBytes 8 (s.blockPrint q.2 cur b)))) s
      s.sendEnd i g kind slot 0 groups.length

/-- `REQUEST_REPAIR` (13 R387). -/
def execRequestRepair (p : PortNo) (frame : Bytes) (s : State) : Out :=
  let (s, r) := s.recvControl p.val 3 frame (fun b => (b.getD 1 0) == 2)
  .next (match r with
    | none => s
    | some (i, h, body) => s.serveXfer i h.group 2 body)

/-- `REQUEST_RECON` (13 R387). -/
def execRequestRecon (p : PortNo) (frame : Bytes) (s : State) : Out :=
  let (s, r) := s.recvControl p.val 3 frame (fun b => (b.getD 1 0) == 3)
  .next (match r with
    | none => s
    | some (i, h, body) => s.serveXfer i h.group 3 body)

/-- `REQUEST_BLIST` (13 R387): the source sends the blocks listed, then END. -/
def execRequestBlist (p : PortNo) (frame : Bytes) (s : State) : Out :=
  let (s, r) := s.recvControl p.val 3 frame (fun b => (b.getD 1 0) == 4)
  .next (match r with
    | none => s
    | some (i, h, body) =>
      let slot := numAt body 2 2
      let g := h.group
      let last := s.gcfgWord g 1 % 2 ^ 32
      match (s.groupSlots g).find? (fun q => q.1 == slot) with
      | none => s
      | some q =>
        if numAt body 4 4 != last then s.sendEnd i g 4 slot 1 0
        else
          let ranges := (List.range (min 255 (numAt body 8 2))).map (fun k => (numAt body (16 + 8 * k) 4, numAt body (20 + 8 * k) 4))
          let blocks := q.2.blocks.filter (fun b => ranges.any (fun r => decide (r.1 ≤ b) && decide (b ≤ r.2)))
          let base := (FMap.get? (s.part i).bases slot).bind (fun d => (s.anchorWith g d).map (fun j => (j, d)))
          (s.sendDeltas i g 0 last q base blocks).sendEnd i g 4 slot 0 blocks.length)

/-- The state with a transfer replaced. -/
def State.putXfer (s : State) (x : Xfer) : State :=
  s.putTrs { s.trs with xfers := s.trs.xfers.map (fun y => if y.slot == x.slot then x else y) }

/-- Whether the blocks of a transfer are all held. -/
def State.xferHeld (s : State) (x : Xfer) : Bool :=
  x.need.all (fun b => s.trs.deltas.any (fun d => d.part == x.part && d.slot == x.slot && d.block == b && d.arr == 0))

/-- The BLIST requests of a transfer for the blocks not yet held (13 R387). -/
def State.askBlocks (s : State) (x : Xfer) : State :=
  let want := x.need.filter (fun b => !s.trs.deltas.any (fun d => d.part == x.part && d.slot == x.slot && d.block == b && d.arr == 0))
  (chunks 255 (want.length / 255 + 1) want).foldl (fun s c =>
    s.control x.part 4 x.group ([3, 4] ++ leBytes 2 x.slot ++ leBytes 4 x.lastApp ++ leBytes 2 c.length ++ leBytes 6 0 ++
      c.flatMap (fun b => leBytes 4 b ++ leBytes 4 b))) s

/-- A REQUEST is answered once END has come and as many BFP frames as it says were sent (13 R387): the blocks that differ are asked for, or
there are none. -/
def State.listBlocks (s : State) (x : Xfer) : State :=
  if x.listed || x.sent != some x.got.length then s.putXfer x
  else
    let x := { x with listed := true, askedAt := s.pulse, wait := 2 * s.fld (A.trsPart1 x.part) F.trsPart1.DEWMA + 2000, ready := x.need.isEmpty }
    let s := s.putXfer x
    if x.need.isEmpty then s else s.askBlocks x

/-- `BFP` (13 R387): block fingerprints of the source; blocks that differ are to be fetched. -/
def execBfp (p : PortNo) (frame : Bytes) (s : State) : Out :=
  let (s, r) := s.recvControl p.val 4 frame (fun _ => true)
  .next (match r with
    | none => s
    | some (i, h, body) =>
      match s.trs.xfers.find? (fun x => x.part == i && x.slot == numAt body 2 2 && x.lastApp == numAt body 4 4 && !x.listed) with
      | none => s
      | some x =>
        match (s.groupSlots h.group).find? (fun q => q.1 == x.slot) with
        | none => s
        | some q =>
          let cur := s.cur h.group
          let first := numAt body 8 4
          let bad := (List.range (min 527 (numAt body 12 2))).filter (fun k =>
            q.2.blocks.contains (first + k) && s.blockPrint q.2 cur (first + k) != numAt body (16 + 8 * k) 8)
          s.listBlocks { x with need := (x.need ++ bad.map (· + first)).eraseDups, got := (x.got ++ [first]).eraseDups })

/-- What a joiner writes of one element (13 R395 point 4): arrays 0, 5 and 7 from the anchor and the momentum. Padding and an element with
a value that is not finite keep theirs (08 R221; 06 R183; log 28). -/
def installElem (d : UDesc) (b : Nat) (k : Nat) (q : Nat × Nat × Nat × Nat) : Nat :=
  let (i, old, a, m) := q
  if d.pad b i || Fmt.gf16b.odd a || (d.fmt 5).odd m then old
  else match k with
    | 0 => (cvt .gf16b (d.fmt 0) .rne a).1
    | 5 => m
    | _ => a

/-- One block of a group is installed at a joiner (13 R395 point 4); what is not finite is latched (06 R183). -/
def State.installBlock (s : State) (i slot : Nat) (d : UDesc) (b : Nat) : State :=
  let j := b - d.first
  let (t, p) := (j % 16, j / 16)
  let zero (w : Nat) : List Byte := List.replicate (2048 * w) 0
  let anchor := (s.deltaBlock i slot b 0 2 (zero 2)).getD []
  let mom := (s.deltaBlock i slot b 5 (d.fmt 5).bytes (zero (d.fmt 5).bytes)).getD []
  let rows := (List.range 2048).zip (anchor.zip mom)
  let s := rows.foldl (fun s r =>
    if d.pad b r.1 || !(Fmt.gf16b.odd r.2.1 || (d.fmt 5).odd r.2.2) then s
    else s.nonFinite 0x80 (d.tidb + (if Fmt.gf16b.odd r.2.1 then 0 else 5)) (2048 * b + r.1)) s
  let put (s : State) (k : Nat) : State :=
    let old := (s.memRead 4 (d.addr t k p) (d.posBytes k)).2.1
    s.memWrite 4 (d.addr t k p) (elemsOut (d.fmt k).bytes ((rows.zip (elemsIn (d.fmt k).bytes old)).map (fun q =>
      installElem d b k (q.1.1, q.2, q.1.2.1, q.1.2.2))))
  ([0, 5, 7].foldl put s).memWrite 4 (d.addr t 6 p) (zero 2)

/-- A group is installed at a joiner (13 R395 point 4): arrays, anchor, lineage and the group record. -/
def State.installGroup (s : State) (i g round : Nat) (digest : List Byte) : State :=
  let s := (s.groupSlots g).foldl (fun s q => q.2.blocks.foldl (fun s b => s.installBlock i q.1 q.2 b) s) s
  let s := s.putLin g 0 ⟨round, 0, true, digest⟩
  let s := s.memWrite 4 (s.gcfg g) (leBytes 8 (s.gcfgWord g 0 % 2 ^ 32) ++ leBytes 8 (round + 2 ^ 32))
  let s := (s.groupSlots g).foldl (fun s q => s.storePrint q.1 q.2 0) s
  let s := s.putTrs { s.trs with deltas := s.trs.deltas.filter (fun d => !(d.part == i && (s.groupSlots g).any (fun q => q.1 == d.slot))) }
  s.modGrp g (fun x => { x with install := false, seen := some round })

/-- Whether a joiner holds every block of a group at round r_g, of the anchors and of the momenta (13 R395). -/
def State.joinHeld (s : State) (i g round : Nat) : Bool :=
  (s.groupSlots g).all (fun q => q.2.blocks.all (fun b =>
    let held (arr half : Nat) : Bool := s.trs.deltas.any (fun d =>
      d.part == i && d.slot == q.1 && d.block == b && d.arr == arr && d.half == half && d.round == round)
    held 0 0 && held 5 0 && ((q.2.fmt 5).bytes == 2 || held 5 1)))

/-- A group that a joiner holds completely, with END frames of its round for every slot, is installed, or discarded where its time has
passed (13 R395); the first one sends READY; with the last one the site has joined. -/
def State.joinCheck (s : State) (i g round : Nat) (digest : List Byte) : State :=
  let slots := s.groupSlots g
  if !(s.grp g).install || !slots.all (fun q => (FMap.getD (s.part i).ended (256 + q.1) []).drop 16 == leBytes 4 round) ||
      !s.joinHeld i g round then s
  else
    let snap := (s.calEntry g 1).getD 0
    if s.gtAbs ≥ snap ∧ serialGt 32 (round32 (s.roundOf (s.gtAbs - snap))) round then s.joinAgain i g
    else
      let first := decide (s.toInstall = s.groups)
      let s := s.installGroup i g round digest
      let j := (round + 1) % 2 ^ 32
      let s := if first then s.partners.foldl (fun s k =>
          (s.modPart k (fun x => { x with joinAt := some j })).control k 4 (s.groups.headD 0) ([7, 0, 0, 0] ++ leBytes 4 j ++ leBytes 8 0)) s
        else s
      if s.toInstall.isEmpty then s.setFld A.trsDonor F.trsDonor.JOINED 1 else s

/-- An END of the donor (13 R395). -/
def State.joinEnd (s : State) (i g slot round : Nat) (digest : List Byte) : State :=
  (s.modPart i (fun x => { x with ended := FMap.set x.ended (256 + slot) (digest ++ leBytes 4 round) })).joinCheck i g round digest

/-- `ADELTA` (13 R386, R388, R395): the block is decoded and kept in staging, or discarded; a transfer whose listed blocks are all held is
ready, and a joiner's group may be complete. -/
def execAdelta (p : PortNo) (frame : Bytes) (s : State) : Out :=
  let (s, r) := s.recvControl p.val 5 frame (fun _ => true)
  .next (match r with
    | none => s
    | some (i, h, body) =>
      let wanted := s.reuniting i (s.fld (A.trsRstat i) F.trsRstat.RE) || s.donor == some i ||
        s.trs.xfers.any (fun x => x.part == i && x.slot == numAt body 2 2)
      let tab (t : Nat) : Option CodeLens := tableOf 0 (s.memRead 4 (s.fld A.trsTab F.trsTab.ADDR * 64 + 136 * (256 + t)) 136).2.1
      let tab (t : Nat) : Option CodeLens := if t < 4 then tab t else none
      match openBlock tab (body.drop 32) with
      | none => s
      | some syms =>
        if !wanted || h.kind != 4 then s
        else
          let d : Delta := ⟨i, numAt body 1 1, numAt body 2 2, numAt body 8 4, numAt body 12 1, numAt body 4 4, (body.drop 16).take 16,
            syms.map (BitVec.ofNat 8)⟩
          let s := s.putTrs { s.trs with deltas := s.trs.deltas.filter (fun e => !(e.part == d.part && e.arr == d.arr && e.slot == d.slot && e.block == d.block && e.half == d.half)) ++ [d] }
          let s := s.putTrs { s.trs with xfers := s.trs.xfers.map (fun x =>
            if x.part == i && x.slot == d.slot && x.listed && s.xferHeld x then { x with ready := true } else x) }
          if s.donor = some i then s.joinCheck i h.group d.round ((FMap.getD (s.part i).ended (256 + d.slot) []).take 16) else s)

/-- `END` (13 R387, R388, R391, R395). -/
def execEnd (p : PortNo) (frame : Bytes) (s : State) : Out :=
  let (s, r) := s.recvControl p.val 6 frame (fun _ => true)
  .next (match r with
    | none => s
    | some (i, h, body) =>
      let kind := numAt body 1 1
      let slot := numAt body 2 2
      let digest := (body.drop 16).take 16
      if kind = 0 then
        if s.fld (A.trsRstat i) F.trsRstat.PHASE = 2 then s.modPart i (fun x => { x with ended := FMap.set x.ended h.group digest }) else s
      else if kind = 1 then
        if s.donor = some i then s.joinEnd i h.group slot (numAt body 4 4) digest else s
      else match s.trs.xfers.find? (fun x => x.part == i && x.slot == slot) with
        | none => s
        | some x =>
          if numAt body 8 1 != 0 then s.dropXfer x
          else if kind = 4 then s
          else if x.listed then s
          else s.listBlocks { x with sent := some (numAt body 12 4), digest := digest })

/-- `READY` (13 R396). -/
def execReady (p : PortNo) (frame : Bytes) (s : State) : Out :=
  let (s, r) := s.recvControl p.val 7 frame (fun _ => true)
  .next (match r with
    | none => s
    | some (i, _, body) => if s.partState i = 3 then s.modPart i (fun x => { x with joinAt := some (numAt body 4 4) }) else s)

/-- `TRS_REQUEST_RETRY` (13 R387): an unanswered REQUEST or BLIST is repeated, at doubling intervals. -/
def execTrsRequestRetry (slot : Fin 4096) (s : State) : Out :=
  .next (match s.trs.xfers.find? (fun x => x.slot == slot.val) with
    | none => s
    | some x =>
      if x.ready || !s.reached x.askedAt x.wait then s
      else
        let x' := { x with askedAt := s.pulse, wait := 2 * x.wait }
        let s := s.putXfer x'
        if x.listed then s.askBlocks x' else s.askXfer x')

/-! ### Enabling, disabling, partner entries, pipelines -/

/-- A write sets `TRS_CTL.EN` (12 R360, R373; 13 R379, R395): staging and the alarm timer are claimed, or the write
is ignored with `NOSTAGE` (1) or `NOALARM` (2). Answers the refusal. -/
def State.trsEnable (s : State) : State × Nat :=
  if s.flag A.trsCtl F.trsCtl.EN then (s, 0)
  else
    let was := s.fld A.tbyStage F.tbyStage.OWNER
    let s := s.stageClaim 2
    if s.fld A.tbyStage F.tbyStage.OWNER != 2 then (s.hwSet A.trsStat F.trsStat.NOSTAGE, 1)
    else
      let (s, ok) := s.alarmTake 1
      if !ok then ((s.setFld A.tbyStage F.tbyStage.OWNER was).hwSet A.trsStat F.trsStat.NOALARM, 2)
      else
        let joining := s.flag A.trsDonor F.trsDonor.VALID
        let s := s.setFld A.trsCtl F.trsCtl.EN 1
        let s := (s.setFld A.trsStat F.trsStat.RUN 1).showTime
        let s := s.putTrs { s.trs with enGt := s.gtAbs, helloAt := s.pulse }
        let s := s.setFld A.trsRound F.trsRound.ROUND (round32 (s.roundOf s.gtAbs))
        let s := s.checkCal
        let s := s.partners.foldl (fun s i =>
          (s.setFld (A.trsPart2 i) F.trsPart2.STATE (if joining then 3 else 1)).modPart i (fun x => { x with heardAt := s.pulse })) s
        let s := s.groups.foldl (fun s g =>
          if joining then s.modGrp g (fun x => { x with install := true })
          else if bit (s.gcfgWord g 1) 32 then s
          else s.putLin g 0 ⟨(s.roundNow + 2 ^ 32 - 1) % 2 ^ 32, 0, true, List.replicate 16 0⟩) s
        (s.showDelay.showGate, 0)

/-- A write clears `TRS_CTL.EN` (12 R373). -/
def State.trsDisable (s : State) : State :=
  if !s.flag A.trsCtl F.trsCtl.EN then s
  else
    let s := s.setFld A.trsCtl F.trsCtl.EN 0
    let sent := s.trs.parts.map (fun p => (p.1, { Partner.reset with ctlRound := p.2.ctlRound, ctlSent := p.2.ctlSent }))
    let s := s.putTrs { Trs.reset with tries := s.trs.tries, repeats := s.trs.repeats, parts := sent }
    let s := s.setFld A.tbyStage F.tbyStage.OWNER 0
    let s := s.alarmFree 1
    [F.trsStat.RUN, F.trsStat.SENDING, F.trsStat.APPLYING, F.trsStat.NOGW, F.trsStat.TIMEINV].foldl (fun s f => s.setFld A.trsStat f 0) s

/-- `TRS_ENABLE` (12 R360, R373). -/
def execTrsEnable (s : State) : Out := .next s.trsEnable.1

/-- `TRS_DISABLE` (12 R373). -/
def execTrsDisable (s : State) : Out := .next s.trsDisable

/-- What is known of a partner is forgotten, but for the frames sent to it (13 R385). -/
def State.forgetPart (s : State) (i : Nat) : State :=
  s.modPart i (fun x => { Partner.reset with heardAt := s.pulse, ctlRound := x.ctlRound, ctlSent := x.ctlSent })

/-- Word 0 of a partner entry is written (12 R373, R374; 13 R376): ignored where the entry is valid and the
Trestle enabled. An entry that ceases to be valid becomes NOT MEMBER under the site it had (13 R397). -/
def State.partWrite (s : State) (i : Nat) (v : Word) : State :=
  let en := s.flag A.trsCtl F.trsCtl.EN
  let was := s.partOn i
  let v := v &&& (F.trsPart0.WEIGHT.mask ||| F.trsPart0.KEYSLOT.mask ||| F.trsPart0.VALID.mask ||| F.trsPart0.SITE.mask)
  let now := getFld v F.trsPart0.VALID != 0
  if en && was then s
  else
    let s := if was && !now then s.partEnter i 0 0 else s
    let s := s.wr (A.trsPart0 i) v
    (if en && now then (s.setFld (A.trsPart2 i) F.trsPart2.STATE 3).forgetPart i
    else if was && !now then s.forgetPart i
    else s).showDelay

/-- `TRS_PART_WRITE` (12 R374). -/
def execTrsPartWrite (i : Fin 256) (v : Word) (s : State) : Out := .next (s.partWrite i.val v)

/-- `TRS_PIPELINE_CHECK_FAIL` (16 R456): the attempt is repeated; four in a row (`again`: the one that failed last)
or more than 64 repeats within a second retire the pipeline. -/
def execTrsPipelineCheckFail (p : Fin 2) (again : Bool) (s : State) : Out :=
  let p := p.val
  if s.flt.pipesDead.contains p || !s.flag A.trsCtl F.trsCtl.EN then .next s
  else
    let tries := if again then FMap.getD s.trs.tries p 0 + 1 else 1
    let rep := (s.pulse :: FMap.getD s.trs.repeats p []).filter (fun x => !s.reached x 1000000)
    let s := s.putTrs { s.trs with tries := FMap.set s.trs.tries p tries, repeats := FMap.set s.trs.repeats p rep }
    if tries ≥ 4 || rep.length > 64 then
      let s := s.putFlt { s.flt with pipesDead := p :: s.flt.pipesDead }
      .next ((s.raise 0xA8 (evSource 5 0) [BitVec.ofNat 8 p, BitVec.ofNat 8 (2 - s.flt.pipesDead.length)]).health)
    else .next s

end Sys2Proof.Machine
end

