-- ==== Sys2Proof/Machine/RegWrite.lean ====
section
/-!
DEFINITION. Software writes of the control-register region (00 R6 to R11): sizes and alignment, access codes,
and for each register whose write does more than that, the action its rule gives it. The rows of the table
that name one such write call the same actions.
-/
namespace Sys2Proof.Machine

/-- A write to a register: the bits it covers and their values (00 R10). -/
structure RegWr where
  v : Word
  m : Word
  deriving DecidableEq, Repr

/-- Whether the write covers a field. -/
def RegWr.covers (w : RegWr) (f : Fld) : Bool := w.m &&& f.mask == f.mask

/-- The value written to a field. -/
def RegWr.fld (w : RegWr) (f : Fld) : Nat := getFld w.v f

/-- Whether the write puts a one into a one-bit field. -/
def RegWr.one (w : RegWr) (f : Fld) : Bool := w.covers f && w.fld f == 1

/-- Whether the write covers the low half of the register. -/
def RegWr.low (w : RegWr) : Bool := w.m.getLsbD 0

/-- The register's value with the covered bits replaced. -/
def State.merged (s : State) (a : Nat) (w : RegWr) : Word := (s.rd a &&& ~~~w.m) ||| (w.v &&& w.m)

/-- A write applied by the access codes of the register's fields (00 R6): `RW` fields take the value, `W1C` bits
are cleared by a one, unless hardware has set them in the same cycle (R7); `RO`, `WO` and reserved fields are left (R9).
The fields of `keep` are left as well. -/
def State.store (s : State) (a : Nat) (w : RegWr) (keep : Word) : State :=
  match regDesc a with
  | none => s
  | some d =>
    let rw := BitVec.ofNat 64 d.rw &&& w.m &&& ~~~keep
    let v := (s.rd a &&& ~~~rw) ||| (w.v &&& rw)
    s.wr a (v &&& ~~~(w.v &&& w.m &&& BitVec.ofNat 64 d.w1c &&& ~~~(FMap.getD s.cyc.set a 0)))

/-- Fields of a register that a write leaves as they are while a condition holds. -/
def State.storeUnless (s : State) (a : Nat) (w : RegWr) (lock : Bool) (keep : Word) : State :=
  s.store a w (if lock then keep else 0)

/-- A write of `BENCH_THR` (04 R142): of a STOPPED thread `START` acts, of another `STOP` does. -/
def State.thrWrite (s : State) (b : Nat) (c : Ctx) (w : RegWr) : State :=
  let start := w.one F.benchThr.START
  let stop := w.one F.benchThr.STOP
  if start && (!stop || !s.live b c) then s.setStart b c
  else if stop then s.setStop b c else s

/-- A write of `BENCH_DWL` (04 R146): a change of `BASE` is ignored while the list is not empty. -/
def State.dwlWrite (s : State) (b : Nat) (w : RegWr) : State :=
  let a := A.benchDwl b
  let s := s.storeUnless a w (s.dwlCount b != 0) F.benchDwl.BASE.mask
  if w.one F.benchDwl.RESUME then s.setResume b else s

/-- A write of `NUM_TRAP_STAT` (06 R200): clearing `VALID` clears the count of suppressed traps. -/
def State.trapStatWrite (s : State) (a : Nat) (w : RegWr) : State :=
  let s := s.store a w 0
  if w.one F.numTrapStat.VALID && !s.flag a F.numTrapStat.VALID then s.setFld a F.numTrapStat.SUPP 0 else s

/-- A write of `DESK_CTL` (03 R102). -/
def State.deskCtlWrite (s : State) (b d : Nat) (w : RegWr) : State :=
  let s := s.store (A.deskCtl b d) w 0
  let s := if w.one F.deskCtl.CLR_CNT then s.deskClear b d else s
  let s := if w.one F.deskCtl.INJ_DRAWER_CE then s.deskInject b d (fun i => { i with ce := true }) else s
  let s := if w.one F.deskCtl.INJ_PARITY then s.deskInject b d (fun i => { i with parity := true }) else s
  if w.one F.deskCtl.INJ_RESIDUE then s.deskInject b d (fun i => { i with residue := true }) else s

/-- A write of `EXP_CTL` (05 R176). -/
def State.expCtlWrite (s : State) (b : Nat) (w : RegWr) : State :=
  let s := if w.one F.expCtl.CLR_CNT then s.expClear b else s
  if w.one F.expCtl.INJ_SHORT then s.modBench b (fun x => { x with injShort := true }) else s

/-- A write to a register of a Bench's block, at an offset of the block. -/
def State.benchWrite (s : State) (b o : Nat) (w : RegWr) : State :=
  let a := benchBase b + o
  if o = 0x10 then s.thrWrite b .F w
  else if o = 0x18 then s.thrWrite b .B w
  else if o = 0x20 then s.pcWrite b .F (s.merged a w)
  else if o = 0x28 then s.pcWrite b .B (s.merged a w)
  else if o = 0x60 then s.dwlWrite b w
  else if o = 0x440 ∨ o = 0x460 ∨ o = 0x480 then s.trapStatWrite a w
  else if o = 0xa60 then s.expCtlWrite b w
  else if 0x800 ≤ o ∧ o < 0xa00 ∧ o % 0x80 = 0 then
    if w.low then s.deskCfgWrite b ((o - 0x800) / 0x80) w.v else s
  else if 0x800 ≤ o ∧ o < 0xa00 ∧ o % 0x80 = 0x38 then s.deskCtlWrite b ((o - 0x800) / 0x80) w
  else s.store a w 0

/-- A write of `TBY_CTL` (09 R286). -/
def State.tbyCtlWrite (s : State) (t : Nat) (w : RegWr) : State :=
  let s := if w.one F.tbyCtl.CLR_CNT then s.tbyClear t else s
  let s := if w.one F.tbyCtl.INJ_UE then s.modStack t (fun x => { x with injUe := true }) else s
  if w.one F.tbyCtl.INJ_CE then s.modStack t (fun x => { x with injCe := true }) else s

/-- A write of `SBD_INTAKE` (08 R263): a write that changes `C` or `Q` while records are held is ignored; one that
changes them lays the intake area out afresh. -/
def State.intakeWrite (s : State) (t : Nat) (w : RegWr) : State :=
  let a := A.sbdIntake t
  let new := s.store a w 0
  if new.rd a = s.rd a then s
  else
    let u := s.unit t
    if !u.waiting.isEmpty || u.slots.any (fun p => !p.2.recs.isEmpty) then s
    else new.modUnit t (fun u => { u with hdr := [] })

/-- A write of `SBD_EXP_CTL` (08 R263): a write that changes `SIZE` or `TGT` is ignored while `EN` is set; setting
`EN` makes every slot's next export a full one (R258). -/
def State.expCtl8Write (s : State) (t : Nat) (w : RegWr) : State :=
  let a := A.sbdExpCtl t
  let was := s.flag a F.sbdExpCtl.EN
  let new := s.store a w 0
  let changes := new.fld a F.sbdExpCtl.SIZE != s.fld a F.sbdExpCtl.SIZE || new.fld a F.sbdExpCtl.TGT != s.fld a F.sbdExpCtl.TGT
  if was && changes then s
  else if !was && new.flag a F.sbdExpCtl.EN then new.modUnit t (fun u => { u with keyed := [] })
  else new

/-- A write to a register of a Tallboy or a Sideboard: stack, offset in its block. -/
def State.stackWrite (s : State) (t o : Nat) (w : RegWr) : State :=
  let a := A.tbyStat t + o
  if o = 0x38 then s.tbyCtlWrite t w
  else if o = 0x180 ∧ t = 0 then
    if s.fld A.tbyStage F.tbyStage.OWNER != 0 then s else s.store a w 0
  else if o = 0x188 ∧ t = 0 then
    if w.covers F.tbyStage.OWNER then s.stageClaim (w.fld F.tbyStage.OWNER) else s
  else if o = 0x800028 then s.intakeWrite t w
  else if o = 0x800060 then
    if s.flag (A.sbdExpCtl t) F.sbdExpCtl.EN then s else s.store a w 0
  else if o = 0x800068 then s.expCtl8Write t w
  else if o = 0x800048 ∧ t = 0 then
    if s.flag A.sbdGlogCtl F.sbdGlogCtl.EN then s else s.store a w 0
  else if o = 0x800050 ∧ t = 0 then
    s.storeUnless a w (s.flag a F.sbdGlogCtl.EN) F.sbdGlogCtl.SIZE.mask
  else s.store a w 0

/-- A write of the `RWO` fields of `TMR_ID` (00 R6, R8; 10 R318): the first write of each after reset counts, and one
to `MODNUM` sets `ASSIGNED`. -/
def State.tmrIdWrite (s : State) (w : RegWr) : State :=
  let once (s : State) (f : Fld) (k : State → State) : State :=
    let key := A.tmrId * 64 + f.lo
    if w.covers f && !s.rwo.contains key then
      k ((s.setFld A.tmrId f (w.fld f)).putRwo (key :: s.rwo))
    else s
  let s := once s F.tmrId.EPOCH id
  once s F.tmrId.MODNUM (fun s => s.setFld A.tmrId F.tmrId.ASSIGNED 1)

/-- A write of `TMR_PORT_CTL` (10 R294, R321). -/
def State.portCtlWrite (s : State) (p : Nat) (w : RegWr) : State :=
  let a := A.tmrPortCtl p
  let was := s.flag a F.tmrPortCtl.EN
  let s := s.store a w 0
  if was && !s.flag a F.tmrPortCtl.EN then s.portDisable p
  else if w.one F.tmrPortCtl.RETRAIN then s.retrainAll p
  else s

/-- A write to a register of the fabric. -/
def State.fabricWrite (s : State) (a : Nat) (w : RegWr) : State :=
  let o := a - A.tmrId
  if o = 0 then s.tmrIdWrite w
  else if 0x100 ≤ o ∧ o < 0x140 then
    (s.store a w 0).quotaWrite ((o - 0x100) / 8) ((s.store a w 0).fld a F.tmrTc.QUOTA)
  else if 0x1000 ≤ o ∧ o < 0x1000 + 36 * 0x40 ∧ o % 0x40 = 0 then s.portCtlWrite ((o - 0x1000) / 0x40) w
  else if 0x100000 ≤ o ∧ o < 0x140000 then
    let m := (o - 0x100000) / 16
    if o % 16 = 0 then
      s.rtWrite0 m (((FMap.get? s.tmr.rtHold m).getD (s.rd a) &&& ~~~w.m) ||| (w.v &&& w.m))
    else s.rtWrite1 m (s.merged a w)
  else s.store a w 0

/-- A write to a register of the sync table (11 R341, R342): one to an entry of an armed layer flag is ignored whole, with
event 0x52. -/
def State.syncWrite (s : State) (who : Who) (a : Nat) (w : RegWr) : State :=
  let o := a - A.syncCnt 0
  if o < 0x80000 then
    if s.armed (o / 8) then s.storeAt (o / 8) (w.fld F.syncCnt.VALUE) s.modnum who
    else
      let s := s.store a w F.syncCnt.VALUE.mask
      if w.low then s.storeAt (o / 8) (w.fld F.syncCnt.VALUE) s.modnum who else s
  else s.store a w 0

/-- The Trestle registers that ignore writes while `TRS_CTL.EN` is set (12 R373, 13 R398). -/
def trsLocked (a : Nat) : Bool :=
  [A.trsSite, A.trsEpoch, A.trsPeriod, A.trsGtab, A.trsGcfg, A.trsTab, A.trsTxbuf, A.trsLin, A.trsFpt, A.trsDonor].contains a ||
    (decide (A.trsCal 0 ≤ a) && decide (a ≤ A.trsCal 255))

/-- A write of `TRS_CTL` (12 R373): one that would set `EN` and is refused is ignored whole. -/
def State.trsCtlWrite (s : State) (w : RegWr) : State :=
  let a := A.trsCtl
  let was := s.flag a F.trsCtl.EN
  let s' := s.storeUnless a w was (F.trsCtl.D.mask ||| F.trsCtl.EN.mask)
  let s' := if was then s' else s'.setFld a F.trsCtl.EN 0
  if !w.covers F.trsCtl.EN || (w.fld F.trsCtl.EN == 1) == was then
    if was && s'.flag a F.trsCtl.GAUTO != s.flag a F.trsCtl.GAUTO then s'.checkCal else s'
  else if was then s'.trsDisable
  else
    let (t, r) := s'.trsEnable
    if r = 0 then t else t.wr a (s.rd a)

/-- A write to a register of the Trestle. -/
def State.trsWrite (s : State) (a : Nat) (w : RegWr) : State :=
  let en := s.flag A.trsCtl F.trsCtl.EN
  let o := a - A.trsCtl
  if o = 0 then s.trsCtlWrite w
  else if en && trsLocked a then s
  else if a = A.trsAlogBase then
    if s.flag A.trsAlogCtl F.trsAlogCtl.EN then s else s.store a w 0
  else if a = A.trsAlogCtl then s.storeUnless a w (s.flag a F.trsAlogCtl.EN) F.trsAlogCtl.SIZE.mask
  else if 0x2000 ≤ o ∧ o < 0x4000 ∧ o % 0x20 = 0 then s.partWrite ((o - 0x2000) / 0x20) (s.merged a w)
  else s.store a w 0

/-- A write to a register of the Hutch. -/
def State.hutchWrite (s : State) (a : Nat) (w : RegWr) : State :=
  if slotBase ≤ a ∧ a < slotBase + 0x4000 then
    s.slotWrite (a - slotBase) ((leBytes 8 w.v.toNat).zip ((leBytes 8 w.m.toNat).map (· != 0)))
  else if a = A.mbxSubmit then (if w.low then s.mbxSubmit (w.fld F.mbxSubmit.MB) else s)
  else if a = A.mbxAck then (if w.low then s.mbxAck (w.fld F.mbxAck.MB) else s)
  else if a = A.numElogBase then
    if s.flag A.numElogCtl F.numElogCtl.EN then s else s.store a w 0
  else if a = A.numElogCtl then s.storeUnless a w (s.flag a F.numElogCtl.EN) F.numElogCtl.SIZE.mask
  else s.store a w 0

/-- `CLK_MARK` is written (18 R489): the group, then the enables of its two claimants in the order of their
codes (log 18). -/
def State.markWrite (s : State) (w : RegWr) : State :=
  if !w.low then s
  else
    let s := s.store A.clkMark w (F.clkMark.CALEN.mask ||| F.clkMark.DBGEN.mask)
    let s := s.markClaim 2 (w.fld F.clkMark.CALEN == 1)
    s.markClaim 3 (w.fld F.clkMark.DBGEN == 1)

/-- A write to a register of the clock, time, reset and power block. -/
def State.clockWrite (s : State) (a : Nat) (w : RegWr) : State :=
  if a = A.clkFreq then (if w.low then s.freqWrite w.v else s)
  else if a = A.gtSetn then
    -- DESIGN CHOICE (log 22): a write of the half with `NS` alone takes `FRAC` as 0; one of the half with `FRAC` alone sets nothing.
    if w.covers F.gtSetn.NS then (s.gtSet (w.fld F.gtSetn.NS) (if w.low then w.fld F.gtSetn.FRAC else 0)).1
    else s
  else if a = A.gtCfg ∨ a = A.gtUnc then (s.store a w 0).gtJudge
  else if a = A.gtPtp then (s.store a w 0).bmca
  else if a = A.gtPps then
    let s := s.store a w F.gtPps.OUTEN.mask
    if w.covers F.gtPps.OUTEN then s.markClaim 1 (w.fld F.gtPps.OUTEN == 1) else s
  else if a = A.rstBoot then (if w.one F.rstBoot.GO then s.bootGo else s)
  else if a = A.pwrCap then (if w.low then s.capWrite (w.fld F.pwrCap.CAP) else s)
  else if a = A.clkMark then s.markWrite w
  else if a = A.clkAlarm then
    let s := s.store a w F.clkAlarm.SWEEP.mask
    if w.low then s.sweepClaim (w.fld F.clkAlarm.SWEEP == 1) else s
  else s.store a w 0

/-- A write to a register of the event arbiter (15 R444): `EVT_RING_BASE` and `SIZE` are ignored while `EN` is set. -/
def State.arbiterWrite (s : State) (a : Nat) (w : RegWr) : State :=
  let en := s.flag A.evtRingCtl F.evtRingCtl.EN
  if a = A.evtRingBase then (if en then s else s.store a w 0)
  else s.storeUnless a w (en && a == A.evtRingCtl) F.evtRingCtl.SIZE.mask

/-- A write to the register at an aligned local address, by the block it lies in (10 R289). -/
def State.regApply (s : State) (who : Who) (a : Nat) (w : RegWr) : State :=
  if a < regBase + 800 * 0x10000 then s.benchWrite ((a - regBase) / 0x10000) ((a - regBase) % 0x10000) w
  else if a < A.tmrId then
    let t := (a - A.tbyStat 0) / 0x1000000
    s.stackWrite t ((a - A.tbyStat 0) % 0x1000000) w
  else if a < A.syncCnt 0 then s.fabricWrite a w
  else if a < A.trsCtl then s.syncWrite who a w
  else if a < 0x2040000000000 then s.trsWrite a w
  else if a < A.clkStat then s.hutchWrite a w
  else if a < A.secStat then s.clockWrite a w
  else if a < A.evtRingBase then (s.store a w 0).flushFar
  else s.arbiterWrite a w

/-- What a write of `n` bytes of the control-register region reaches (00 R10, R11): an aligned 64-bit or 32-bit write the
register at its address, if one is there; any other nothing. -/
def regWrOf (a n v : Nat) : Option (Nat × RegWr) :=
  let w := a - a % 8
  if (regDesc w).isNone && !(decide (slotBase ≤ a) && decide (a < slotBase + 0x4000)) then none
  else if n = 8 ∧ a % 8 = 0 then some (w, ⟨BitVec.ofNat 64 v, BitVec.allOnes 64⟩)
  else if n = 4 ∧ a % 4 = 0 then
    let k := a % 8 * 8
    some (w, ⟨BitVec.ofNat 64 (v % 2 ^ 32) <<< k, BitVec.ofNat 64 (2 ^ 32 - 1) <<< k⟩)
  else none

/-- A write of `n` bytes of the control-register region by a requester of the module (00 R10, R11). -/
def State.regWrite (s : State) (who : Who) (a n v : Nat) : State :=
  if !s.rst.on then s
  else match regWrOf a n v with
    | some (w, x) => s.regApply who w x
    | none => s

/-- Writes of the registers of a Bench that moved, which were held, are performed in the order of their arrival (01
R23). -/
def State.regDrain (s : State) : State :=
  s.tmr.held.foldl (fun s h => match h with
    | .regWr who a n v =>
      if s.memReady a n then (s.putTmr { s.tmr with held := s.tmr.held.erase h }).regWrite who a n v else s
    | _ => s) s

/-- The source of a store that the Hutch or the host makes (10 R310). -/
def hutchWho : Who := ⟨6, 0, 0, 0⟩

/-- The source of a scalar store of a context (10 R310). -/
def storeWho (b : Nat) (c : Ctx) : Who := ⟨c.idx, b, c.code, 0⟩

/-- `REGISTER_WRITE` (00 R6): a software write of 4 or 8 bytes at a local address of the region; one to a Bench that moves is
held (01 R23). -/
def execRegisterWrite (who : Who) (a n : Nat) (v : Word) (s : State) : Out :=
  .next (if s.memReady a n then s.regWrite who a n v.toNat
    else s.putTmr { s.tmr with held := s.tmr.held ++ [.regWr who a n v.toNat] })

end Sys2Proof.Machine
end

