-- ==== Sys2Proof/Machine/Pcie.lean ====
section
/-!
DEFINITION. The PCIe endpoint as the host drives it: memory requests to BAR0 and BAR2 and writes to the
configuration space (15 R421 to R426, R441).
-/
namespace Sys2Proof.Machine

/-- Where a memory request goes (15 R421): BAR2 (`bulk`) or BAR0, and the offset; none outside both. -/
def State.barOf (s : State) (addr : Nat) : Option (Bool × Nat) :=
  if !s.pcie.up || !s.pcie.mse || s.pcie.d3 then none
  else if s.pcie.bar0 ≤ addr ∧ addr < s.pcie.bar0 + 0x4000000 then some (false, addr - s.pcie.bar0)
  else if s.pcie.bar2 ≤ addr ∧ addr < s.pcie.bar2 + 0x1000000000 then some (true, addr - s.pcie.bar2)
  else none

/-- The registers of the status window, by word (15 R423). -/
def statusReg (i : Nat) : Nat :=
  [A.mbxStat, A.geoCfg0, A.geoCfg1, A.tmrId, A.evtSeq, A.gtNowLo, A.gtNowHi, A.mbxOwn].getD i 0

/-- The local address that an offset of the register window names from a base; none where the window shows nothing (15
R424). -/
def windowAddr (base off : Nat) : Option Nat :=
  let a := base * 2 ^ 24 + (off - 0x1000000)
  if a < regBase ∨ (0x2060000000000 ≤ a ∧ a < 0x2070000000000) then none else some a

/-- The local address of an offset of BAR2 from a base (15 R425). -/
def apertureAddr (base off : Nat) : Nat := (base * 2 ^ 36 + off) % 2 ^ 50

/-- The register, if any, that a waiting write of the host reaches, and the write. -/
def State.hostWaits (s : State) : Held → Option (Nat × RegWr)
  | .hostWr (.bar0 off) d be =>
    if 0x8000 ≤ off ∧ off + d.length ≤ 0x9000 ∧ be.all id then regWrOf (0x2040000002000 + (off - 0x8000)) d.length (ofLe d) else none
  | .hostWr (.window (some a)) d be =>
    if s.flag A.mbxCtl F.mbxCtl.RWWR && be.all id then regWrOf a d.length (ofLe d) else none
  | _ => none

/-- A register as it is for the next request of the host: behind the writes of the host that wait (15 R422). -/
def State.hostSees (s : State) (a : Nat) : Word :=
  s.tmr.held.foldl (fun v h => match s.hostWaits h with
    | some (b, w) =>
      let m := if b = a then w.m &&& BitVec.ofNat 64 ((regDesc a).map (·.rw) |>.getD 0) else 0
      (v &&& ~~~m) ||| (w.v &&& m)
    | none => v) (s.rd a)

/-- Where a request goes that arrives now (15 R424, R425). -/
def State.hostPlace (s : State) (bulk : Bool) (off n : Nat) : HostPlace :=
  if bulk then .bulk (apertureAddr (getFld (s.hostSees A.mbxAper) F.mbxAper.BASE) off)
  else if 0x1000000 ≤ off ∧ off + n ≤ 0x2000000 then .window (windowAddr (getFld (s.hostSees A.mbxRwin) F.mbxRwin.BASE) off)
  else .bar0 off

/-- The 16 bytes of an entry of the MSI-X table, as the PCIe specification lays it out (log 8). -/
def State.vectorBytes (s : State) (v : Nat) : List Byte :=
  let (a, d, m) := s.vector v
  leBytes 8 a ++ leBytes 4 d ++ leBytes 4 m.toNat

/-- One byte of the MSI-X table is written. -/
def State.vectorWrite (s : State) (off : Nat) (b : Byte) : State :=
  let v := off / 16
  let l := (s.vectorBytes v).set (off % 16) b
  let e := (ofLe (l.take 8), ofLe ((l.drop 8).take 4), (ofLe (l.drop 12)).testBit 0)
  s.putPcie { s.pcie with table := FMap.set s.pcie.table v e }

/-- One byte of the pending bit array. -/
def State.pbaByte (s : State) (i : Nat) : Byte :=
  BitVec.ofNat 8 (ofLanes 1 ((List.range 8).map (fun k => (s.pcie.pba.contains (8 * i + k)).toNat)))

/-- One byte of the mailbox slots as the host reads it: one of a response slot that the firmware owns is undefined
(15 R427; log 2). -/
def State.slotByte (s : State) (off : Nat) : State × Byte :=
  if s.slotHidden (slotBase + off) then
    let (v, s) := s.draw 255
    (s, BitVec.ofNat 8 v)
  else (s, s.mem.byte (slotBase + off))

/-- Bytes of the mailbox slots. -/
def State.slotBytes (s : State) (off : Nat) : Nat → State × List Byte
  | 0 => (s, [])
  | n + 1 =>
    let (s, b) := s.slotByte off
    let (s, l) := s.slotBytes (off + 1) n
    (s, b :: l)

/-- A read of BAR0 outside the register window (15 R423): its slots, mirror and table byte by byte, its registers under 00 R10 with the host's
latch, zero elsewhere (00 R11). -/
def State.bar0Read (s : State) (off n : Nat) : State × List Byte :=
  let at_ (f : Nat → Byte) : List Byte := (List.range n).map f
  if off + n ≤ 0x4000 then s.slotBytes off n
  else if 0x8000 ≤ off ∧ off + n ≤ 0x9000 then s.regRead latchHost (0x2040000002000 + (off - 0x8000)) n
  else if 0x10000 ≤ off ∧ off + n ≤ 0x12000 then
    (s, at_ (fun i =>
      let o := off - 0x10000 + i
      BitVec.ofNat 8 ((s.mirrorWord (o - o % 8)).toNat >>> (8 * (o % 8)))))
  else if 0x18000 ≤ off ∧ off + n ≤ 0x18040 then
    s.regRead latchHost (statusReg ((off - 0x18000) / 8) + off % 8) n
  else if 0x20000 ≤ off ∧ off + n ≤ 0x20400 then
    (s, at_ (fun i => (s.vectorBytes ((off - 0x20000 + i) / 16)).getD ((off + i) % 16) 0))
  else if 0x21000 ≤ off ∧ off + n ≤ 0x21008 then (s, at_ (fun i => s.pbaByte (off - 0x21000 + i)))
  else (s, leBytes n 0)

/-- A write of whole bytes to a register that BAR0 shows. -/
def State.hostReg (s : State) (a : Nat) (data : List Byte) (be : List Bool) : State :=
  if be.all id then s.regWrite hutchWho a data.length (ofLe data) else s

/-- A write to BAR0 outside the register window (15 R423, R427): its slots and table byte by byte, its registers under 00
R10. -/
def State.bar0Write (s : State) (off : Nat) (data : List Byte) (be : List Bool) : State :=
  let n := data.length
  let bytes := (List.range n).zip (data.zip be)
  if off + n ≤ 0x4000 then bytes.foldl (fun s p => s.slotWrite (off + p.1) [p.2]) s
  else if 0x8000 ≤ off ∧ off + n ≤ 0x9000 then s.hostReg (0x2040000002000 + (off - 0x8000)) data be
  else if 0x20000 ≤ off ∧ off + n ≤ 0x20400 then
    (bytes.foldl (fun s p => if p.2.2 then s.vectorWrite (off - 0x20000 + p.1) p.2.1 else s) s).releaseVectors
  else s

/-- Whether a request of the host may be performed now (09 R267, 05 R167, 01 R23). -/
def State.hostReady (s : State) (p : HostPlace) (n : Nat) : Bool :=
  match p with
  | .bar0 _ => true
  | .window none => true
  | .window (some a) => s.memReady a n
  | .bulk a => s.accepts a n

/-- A host write is performed: through the register window only while `RWWR` is set (15 R424), through BAR2 as requester
class 2 (09 R279), where the control-register region ignores it (15 R425). -/
def State.hostStore (s : State) (p : HostPlace) (data : List Byte) (be : List Bool) : State :=
  match p with
  | .bar0 off => s.bar0Write off data be
  | .window none => s
  | .window (some a) => if s.flag A.mbxCtl F.mbxCtl.RWWR then s.hostReg a data be else s
  | .bulk a => s.memWriteBe 2 a (data.zip be)

/-- The data of a host read, and whether it is uncorrectable. -/
def State.hostRead (s : State) (p : HostPlace) (n : Nat) : State × List Byte × Bool :=
  match p with
  | .bar0 off => ((s.bar0Read off n).1, (s.bar0Read off n).2, false)
  | .window none => (s, leBytes n 0, false)
  | .window (some a) => ((s.regRead latchHost a n).1, (s.regRead latchHost a n).2, false)
  | .bulk a =>
    let (s, d, good, _) := s.memRead 2 a n
    (s, d, !good)

/-- A host read is performed and completed; data that is uncorrectable is poisoned (15 R421). -/
def State.hostLoad (s : State) (tag : Nat) (p : HostPlace) (n : Nat) : State :=
  let (s, d, bad) := s.hostRead p n
  s.send (.completion tag d bad)

/-- The first of the host's requests that wait is performed if it may be; answers whether it was. -/
def State.hostServe (s : State) : State × Bool :=
  match s.tmr.held.find? Held.host with
  | some (.hostRd tag p n) =>
    if s.hostReady p n then
      ((s.putTmr { s.tmr with held := s.tmr.held.erase (.hostRd tag p n) }).hostLoad tag p n, true)
    else (s, false)
  | some (.hostWr p d be) =>
    if s.hostReady p d.length then
      ((s.putTmr { s.tmr with held := s.tmr.held.erase (.hostWr p d be) }).hostStore p d be, true)
    else (s, false)
  | _ => (s, false)

/-- Requests of the host that wait are performed in the order of their arrival, as far as they may be (15 R422). -/
def State.hostDrain (s : State) : Nat → State
  | 0 => s
  | n + 1 =>
    let (s, more) := s.hostServe
    if more then s.hostDrain n else s

/-- A request of the host takes its place behind those that wait (15 R422). -/
def State.hostQueue (s : State) (h : Held) : State :=
  let s := s.putTmr { s.tmr with held := s.tmr.held ++ [h] }
  s.hostDrain (s.tmr.held.length)

/-- The bit of AER's uncorrectable errors for an ECRC error (log 8). -/
def aerEcrc : Nat := 2 ^ 19

/-- The bit of AER's uncorrectable errors for an Unsupported Request (log 8). -/
def aerUnsupported : Nat := 2 ^ 20

/-- An uncorrectable error is shown by AER (15 R421). -/
def State.aerSet (s : State) (m : Nat) : State := s.putPcie { s.pcie with aer := s.pcie.aer ||| m }

/-- A tag as a request carries it (15 R421): 14 bits in FLIT mode, 10 bits otherwise. -/
def State.tagOf (s : State) (tag : Nat) : Nat := if s.pcie.flit then tag % 2 ^ 14 else tag % 2 ^ 10

/-- `PCIE_MEM_WRITE` (15 R421, R422): a posted write of the host at a PCIe address, one flag a byte. Where
ECRCs are checked, a wrong one loses the request. -/
def execPcieMemWrite (addr : PcieAddr) (data : Bytes) (be : List Bool) (s : State) : Out :=
  if s.pcie.up && s.pcie.ecrcChk && !addr.good then .next (s.aerSet aerEcrc)
  else match s.barOf addr.addr with
  | none => .next (if s.pcie.up then s.aerSet aerUnsupported else s)
  | some (bulk, off) =>
    .next (s.hostQueue (.hostWr (s.hostPlace bulk off data.length) data (be ++ List.replicate (data.length - be.length) false)))

/-- `PCIE_MEM_READ` (15 R421, R422): outside both BARs it is completed as Unsupported Request. -/
def execPcieMemRead (tag : Nat) (addr : PcieAddr) (n : Nat) (s : State) : Out :=
  if !s.pcie.up then .next s
  else if s.pcie.ecrcChk && !addr.good then .next (s.aerSet aerEcrc)
  else match s.barOf addr.addr with
  | none => .next ((s.aerSet aerUnsupported).send (.unsupported (s.tagOf tag)))
  | some (bulk, off) => .next (s.hostQueue (.hostRd (s.tagOf tag) (s.hostPlace bulk off n) n))

/-- `PCIE_CONFIG_WRITE` (15 R421, R426): messages that were held are sent once nothing masks them. D3hot to D0
resets nothing (17 R466). -/
def execPcieConfigWrite (w : CfgWrite) (s : State) : Out :=
  if !s.pcie.up then .next s
  else
    let p := s.pcie
    let p := match w with
      | .command mse bme => { p with mse := mse, bme := bme }
      | .msix en fmask => { p with msixEn := en, fmask := fmask }
      | .bar bulk addr =>
        if bulk then { p with bar2 := addr % 2 ^ 64 / 0x1000000000 * 0x1000000000 }
        else { p with bar0 := addr % 2 ^ 64 / 0x4000000 * 0x4000000 }
      | .payload n => { p with mps := n.val }
      | .power d3 => { p with d3 := d3 }
      | .ecrc gen chk => { p with ecrcGen := gen, ecrcChk := chk }
      | .aerClear bits => { p with aer := ((BitVec.ofNat 32 p.aer) &&& ~~~bits).toNat }
      | .other => p
    .next (s.putPcie p).releaseVectors

end Sys2Proof.Machine
end

