-- ==== Sys2Proof/Machine/Shards.lean ====
section
/-!
DEFINITION. The placement of a job's sharded state on its owner modules (10 R313 to R315).
-/
namespace Sys2Proof

/-- The blocks of a tensor that one owner holds (10 R313): its module, the tensor, the first block and how many. -/
structure Shard where
  owner : Nat
  tid : Nat
  first : Nat
  blocks : Nat
  deriving DecidableEq, Repr

/-- The first block that owner index `k` of `g` holds of a SPLIT tensor of `n` blocks (10 R313). -/
def splitFirst (n g k : Nat) : Nat := k * n / g

/-- The blocks that owner index `k` of `g` holds of a SPLIT tensor of `n` blocks (10 R313). -/
def splitBlocks (n g k : Nat) : Nat := splitFirst n g (k + 1) - splitFirst n g k

/-- The tensors of a declaration that are placed whole, with their IDs and blocks: a WHOLE tensor, or the units that do not
divide evenly (10 R313). -/
def ShardDecl.wholes (g : Nat) : ShardDecl → List (Nat × Nat)
  | .split .. => []
  | .whole tid n => [(tid, n)]
  | .units ids n => if ids.length % g = 0 then [] else ids.map (fun i => (i, n))

/-- What owner index `k` holds of a declaration that does not place whole tensors (10 R313): its part of a SPLIT tensor, or
its share of units that divide evenly. -/
def ShardDecl.part (g owner k : Nat) : ShardDecl → List Shard
  | .split tid n => if splitBlocks n g k = 0 then [] else [⟨owner, tid, splitFirst n g k, splitBlocks n g k⟩]
  | .whole .. => []
  | .units ids n =>
    if ids.length % g = 0 then ((ids.drop (k * ids.length / g)).take (ids.length / g)).map (fun i => ⟨owner, i, 0, n⟩) else []

/-- Whether a tensor is placed before another (10 R314): by more blocks, then by lower ID. -/
def placedBefore (x y : Nat × Nat) : Bool := decide (y.2 < x.2) || (x.2 == y.2 && decide (x.1 ≤ y.1))

/-- A tensor is put in its place of the order. -/
def placeInsert (x : Nat × Nat) : List (Nat × Nat) → List (Nat × Nat)
  | [] => [x]
  | y :: l => if placedBefore x y then x :: y :: l else y :: placeInsert x l

/-- The tensors placed whole in the order of 10 R314. -/
def placeSort (l : List (Nat × Nat)) : List (Nat × Nat) := l.foldr placeInsert []

/-- The index with least load, the lowest of several (10 R314). -/
def leastLoad (load : List Nat) : Nat :=
  (List.range load.length).foldl (fun k j => if load.getD j 0 < load.getD k 0 then j else k) 0

/-- Tensors are placed whole, each where the load is least (10 R314): the tensor, its blocks and the owner index. -/
def placeWhole : List Nat → List (Nat × Nat) → List (Nat × Nat × Nat)
  | _, [] => []
  | load, x :: l =>
    let k := leastLoad load
    (x.1, x.2, k) :: placeWhole (load.set k (load.getD k 0 + x.2)) l

/-- The map of a job (10 R313 to R315): what each owner holds, in the order of the owners; the whole tensors of each after
its parts. -/
def JobMap.place (j : JobMap) : List Shard :=
  let g := j.owners.length
  let part (k : Nat) : List Shard := j.tensors.flatMap (ShardDecl.part g (j.owners.getD k 0) k)
  let load := (List.range g).map (fun k => ((part k).map Shard.blocks).foldl (· + ·) 0)
  let whole := placeWhole load (placeSort (j.tensors.flatMap (ShardDecl.wholes g)))
  (List.range g).flatMap (fun k => part k ++
    (whole.filter (fun x => x.2.2 == k)).map (fun x => ⟨j.owners.getD k 0, x.1, 0, x.2.1⟩))

/-- Whether the owners of a job are listed in strictly ascending order, at least one (10 R313). -/
def JobMap.ordered (j : JobMap) : Bool :=
  !j.owners.isEmpty && (j.owners.zip (j.owners.drop 1)).all (fun p => decide (p.1 < p.2))

end Sys2Proof
end

