-- ==== Sys2Proof/Machine/Commands.lean ====
section
/-!
DEFINITION. The mailbox commands of the Hutch firmware (15 R428 to R434, R446; 16 R462; 17 R474, R479 to R483).
Each answers from its payload; its mailbox row runs it where the request of the mailbox has its code. A field
that holds an excluded value answers BAD_FIELD with its index (R430; log 21).
-/
namespace Sys2Proof.Machine

/-! ### Status codes (15 R430) -/

/-- BAD_FIELD. -/
def badField (i : Nat) : Reply := .bad 0x12 i

/-- BAD_STATE. -/
def badState : Reply := .bad 0x13 0

/-- OK without a payload. -/
def okay : Reply := .ok []

/-- ACCEPTED, to end with OK. -/
def accepted : Reply := .accepted 0

/-- The firmware stores bytes (09 R279: never denied). -/
def State.fwWrite (s : State) (a : Nat) (l : List Byte) : State := s.memWrite 7 a l

/-- The firmware writes a register. -/
def State.fwReg (s : State) (a v : Nat) : State := s.regWrite hutchWho a 8 v

/-- The job state (15 R443). -/
def State.job (s : State) : Nat := s.fld A.mbxStat F.mbxStat.JOB

/-! ### MODULE (15 R432) -/

/-- MODULE_INFO. -/
def State.cmdInfo (s : State) (_ : List Byte) : State × Reply :=
  (s, .ok (leBytes 8 (s.rd A.geoCfg0).toNat ++ leBytes 8 (s.rd A.geoCfg1).toNat ++ leBytes 8 Config.fwVersion ++
    (s.fuse.serial ++ leBytes 16 0).take 16))

/-- MODULE_STATUS. -/
def State.cmdStatus (s : State) (_ : List Byte) : State × Reply :=
  (s, .ok ([BitVec.ofNat 8 s.job, BitVec.ofNat 8 (s.fld A.evtHealth F.evtHealth.STATE)] ++ leBytes 4 s.hut.jobId))

/-- MODULE_RESET: the reset starts 1 ms after the response. -/
def State.cmdReset (s : State) (p : List Byte) : State × Reply :=
  let level := field p 0 1
  if level = 1 ∨ level = 2 then (s.requestReset level (s.pulse + msPulses) F.rstCause.CMD.one, okay)
  else (s, badField 0)

/-! ### JOB (15 R433, R434) -/

/-- Whether a register list may write an address: an aligned register of a Bench, Tallboy, Sideboard, sync-table,
Trestle or L-die block, other than `TMR_ID` and `TMR_RT_m` (15 R434). -/
def listable (a : Nat) : Bool :=
  a % 8 == 0 && (regDesc a).isSome && decide (a < 0x2040000000000) && a != A.tmrId &&
    !(decide (A.tmrRt0 0 ≤ a) && decide (a < A.tmrRt0 16384))

/-- The entries of 16 B of a table. -/
def pairsOf (l : List Byte) (n : Nat) : List (Nat × Nat) := (List.range n).map (fun i => (field l (16 * i) 8, field l (16 * i + 8) 8))

/-- Whether the header of a job graph holds an excluded value (15 R433). -/
def graphBad (h : List Byte) : Bool :=
  field h 0 1 != 1 || field h 1 3 != 0 || field h 8 8 ≥ 2 ^ 48 || field h 8 8 % 16 != 0 || field h 16 8 ≥ 2 ^ 48 ||
    field h 16 8 % 16 != 0 || field h 24 8 > 65536 || field h 40 8 &&& 0x3FF0001 != field h 40 8 || field h 48 16 != 0

/-- Whether every table of a graph lies within its length (15 R434). -/
def graphFits (h : List Byte) (n : Nat) : Bool :=
  decide (field h 8 8 + 800 * 16 ≤ n) && decide (field h 16 8 + 16 * field h 24 8 ≤ n)

/-- Every thread with a non-zero address starts, in ascending order, F before B; the job is RUNNING (15 R434). -/
def State.jobStart (s : State) : State :=
  (s.hut.threads.foldl (fun s t => s.start t.1 t.2.ctx) s).setJob 2

/-- Steps 2 to 6 of JOB_LOAD (15 R434). -/
def State.jobGo (s : State) (h : List Byte) (benches regs : List (Nat × Nat)) (start : Bool) : State :=
  let s := s.fwReg A.numSeed (field h 32 8)
  let s := s.fwReg A.numMode (field h 40 1 % 2)
  let s := s.fwReg A.numLadder (field h 42 2 % 1024)
  let s := regs.foldl (fun s r => s.fwReg r.1 r.2) s
  let tab := (List.range 800).zip benches
  let s := tab.foldl (fun (s : State) r => (s.fwReg (A.benchPc r.1 0) r.2.1).fwReg (A.benchPc r.1 1) r.2.2) s
  let pick (b a : Nat) (t : Thr) : List (Nat × Thr) := if a = 0 then [] else [(b, t)]
  let s := s.putHut { s.hut with
    jobId := field h 4 4, threads := tab.flatMap (fun r => pick r.1 r.2.1 .F ++ pick r.1 r.2.2 .B) }
  let s := s.setJob 1
  if start then s.jobStart else s

/-- JOB_LOAD (15 R434, 17 R481): the whole graph is checked first. -/
def State.cmdLoad (s : State) (p : List Byte) : State × Reply :=
  let a := field p 0 8
  let n := field p 8 8
  let flags := field p 16 8
  if s.job != 0 then (s, badState)
  else if flags > 1 then (s, badField 2)
  else if a % 64 != 0 || addrBad a 0 then (s, badField 0)
  else if n < 64 ∨ addrBad a n then (s, badField 1)
  else
    let (s', g) := s.fwRead a n
    match g with
    | none => (s', .bad 0x30 0)
    | some g =>
      if graphBad g then (s', badField 0)
      else if !graphFits g n then (s', badField 1)
      else
        let benches := pairsOf (g.drop (field g 8 8)) 800
        let regs := pairsOf (g.drop (field g 16 8)) (field g 24 8)
        match benches.findIdx? (fun e => e.1 % 8 != 0 || e.2 % 8 != 0) with
        | some i => (s', .bad 0x20 i)
        | none => match regs.findIdx? (fun e => !listable e.1) with
          | some i => (s', .bad 0x20 i)
          | none => ((s'.extend 3 (sm3 g)).jobGo g benches regs (flags == 1), accepted)

/-- JOB_START. -/
def State.cmdStart (s : State) (_ : List Byte) : State × Reply :=
  if s.job = 1 ∨ s.job = 3 then (s.jobStart, okay) else (s, badState)

/-- JOB_STOP: `STOP` is set for every running thread; the job is STOPPED once all are. -/
def State.cmdStop (s : State) (_ : List Byte) : State × Reply :=
  if s.job != 2 then (s, badState)
  else
    let s := s.benches.foldl (fun s p => [Ctx.F, Ctx.B].foldl (fun s c => s.stopRequest p.1 c) s) s
    (s.jobCheck, accepted)

/-- JOB_UNLOAD. -/
def State.cmdUnload (s : State) (_ : List Byte) : State × Reply :=
  if s.job = 1 ∨ s.job = 3 then ((s.putHut { s.hut with threads := [] }).setJob 0, okay) else (s, badState)

/-! ### MAP (10 R291, R302, R304, R313 to R315) -/

/-- MAP_MODULE. -/
def State.cmdMapModule (s : State) (p : List Byte) : State × Reply :=
  let m := field p 0 2
  if s.flag A.tmrId F.tmrId.ASSIGNED then (s, badState)
  else if m > 0x3FFF then (s, badField 0)
  else (s.regWrite hutchWho A.tmrId 4 m, okay)

/-- MAP_ROUTES: entries of 16 B are copied, word 0 then word 1. -/
def State.cmdMapRoutes (s : State) (p : List Byte) : State × Reply :=
  let a := field p 0 8
  let first := field p 8 2
  let n := field p 10 2
  if addrBad a (16 * n) then (s, badField 0)
  else if first > 0x3FFF then (s, badField 1)
  else if first + n > 16384 then (s, badField 2)
  else
    let (s', l) := s.fwRead a (16 * n)
    match l with
    | none => (s', .bad 0x30 0)
    | some l =>
      (((List.range n).zip (pairsOf l n)).foldl (fun (s : State) e =>
        (s.fwReg (A.tmrRt0 (first + e.1)) e.2.1).fwReg (A.tmrRt1 (first + e.1)) e.2.2) s', okay)

/-- The final status of a MAP_SHARDS whose bytes hold no job map (log 17): one of 15 R430 that reports a failure. -/
def shardFailure (l : List Byte) : Nat :=
  [0x12, 0x13, 0x14, 0x15, 0x16, 0x20, 0x30].getD (Config.shardStatus l % 7) 0x20

/-- MAP_SHARDS: the map of 10 R313 to R315 is computed from the job map and written (their formats are not the spec's,
log 17). -/
def State.cmdMapShards (s : State) (p : List Byte) : State × Reply :=
  let a := field p 0 8
  let n := field p 8 8
  let o := field p 16 8
  if s.job = 2 then (s, badState)
  else if addrBad a 0 then (s, badField 0)
  else if addrBad a n then (s, badField 1)
  else if addrBad o 0 then (s, badField 2)
  else
    let (s', l) := s.fwRead a n
    match l with
    | none => (s', .bad 0x30 0)
    | some l =>
      match Config.jobMap l with
      | some j =>
        if j.ordered then
          (s'.fwWrite o (Config.shardImage (j.place.map (fun x => (x.owner, x.tid, x.first, x.blocks)))), .accepted 0)
        else (s', .accepted (shardFailure l))
      | none => (s', .accepted (shardFailure l))

/-! ### NUM, SBD (06 R201, 08 R263) -/

/-- NUM_SET. -/
def State.cmdNumSet (s : State) (p : List Byte) : State × Reply :=
  if s.job = 2 then (s, badState)
  else if field p 8 1 > 1 then (s, badField 1)
  else if field p 9 2 ≥ 1024 then (s, badField 2)
  else (((s.fwReg A.numSeed (field p 0 8)).fwReg A.numMode (field p 8 1)).fwReg A.numLadder (field p 9 2), okay)

/-- What is wrong with the fields of a log's base, size and enable. -/
def logFields (p : List Byte) : Option Nat :=
  if field p 0 8 % 32 != 0 || decide (2 ^ 50 ≤ field p 0 8) then some 0
  else if field p 8 1 > 31 then some 1
  else if field p 9 1 > 1 then some 2
  else none

/-- NUM_ELOG: `NUM_ELOG_BASE`, then `NUM_ELOG_CTL`, whose `TAIL` stays. -/
def State.cmdNumElog (s : State) (p : List Byte) : State × Reply :=
  match logFields p with
  | some i => (s, badField i)
  | none =>
    let s := s.fwReg A.numElogBase (field p 0 8)
    (s.fwReg A.numElogCtl (field p 9 1 * 2 ^ 53 + field p 8 1 * 2 ^ 48 + s.fld A.numElogCtl F.numElogCtl.TAIL * 2 ^ 24), okay)

/-- SBD_ENABLE. -/
def State.cmdSbdEnable (s : State) (p : List Byte) : State × Reply :=
  let en := field p 2 1
  let halt := field p 3 1
  if en > 1 then (s, badField 1)
  else if halt > 1 then (s, badField 2)
  else
    (((List.range 16).filter (fun t => (field p 0 2).testBit t)).foldl (fun (s : State) t =>
      s.fwReg (A.sbdCtl t) (setBits (setBits (s.rd (A.sbdCtl t)).toNat 0 0 en) 1 1 halt)) s, okay)

/-- SBD_EXPORT. -/
def State.cmdSbdExport (s : State) (p : List Byte) : State × Reply :=
  let tgt := field p 0 1
  let base := field p 1 8
  let size := field p 9 1
  let keyp := field p 10 2
  let en := field p 12 1
  if tgt > 1 then (s, badField 0)
  else if base % 64 != 0 then (s, badField 1)
  else if size > 31 then (s, badField 2)
  else if en > 1 then (s, badField 4)
  else
    ((List.range 16).foldl (fun (s : State) t =>
      (s.fwReg (A.sbdExpBase t) base).fwReg (A.sbdExpCtl t) (keyp * 2 ^ 16 + size * 2 ^ 8 + tgt * 2 + en)) s, okay)

/-! ### FAR (12 R360, R373, R374) -/

/-- FAR_ENABLE: refused with detail 1 (`NOSTAGE`) or 2 (`NOALARM`). -/
def State.cmdFarEnable (s : State) (_ : List Byte) : State × Reply :=
  let (s, r) := s.trsEnable
  (s, if r = 0 then okay else .bad 0x13 r)

/-- FAR_DISABLE. -/
def State.cmdFarDisable (s : State) (_ : List Byte) : State × Reply :=
  (if s.flag A.trsCtl F.trsCtl.EN then s.trsDisable else s, okay)

/-- FAR_PARTNER. -/
def State.cmdFarPartner (s : State) (p : List Byte) : State × Reply :=
  let valid := field p 8 1
  if valid > 1 then (s, badField 4)
  else
    (s.partWrite (field p 0 1)
      (BitVec.ofNat 64 (field p 1 2 + valid * 2 ^ 16 + field p 7 1 * 2 ^ 24 + field p 3 4 * 2 ^ 32)), okay)

/-! ### TIME, POWER (14 R418; 17 R478, R479) -/

/-- TIME_SET: a set under 14 R418, whose refusal is recorded there (log 21). -/
def State.cmdTimeSet (s : State) (p : List Byte) : State × Reply :=
  let sec := field p 0 8
  let ns := field p 8 4
  if sec ≥ 2 ^ 48 then (s, badField 0)
  else if ns ≥ 1000000000 then (s, badField 1)
  else
    let refused := s.flag A.trsCtl F.trsCtl.EN
    ((s.fwReg A.gtSets sec).fwReg A.gtSetn (ns * 2 ^ 32), if refused then badState else okay)

/-- TIME_SOURCE. -/
def State.cmdTimeSource (s : State) (p : List Byte) : State × Reply :=
  let src := field p 0 1
  let outen := field p 5 1
  if src > 3 then (s, badField 0)
  else if outen > 1 then (s, badField 2)
  else
    let s := s.fwReg A.gtCfg (setBits (s.rd A.gtCfg).toNat 1 0 src)
    (s.fwReg A.gtPps (field p 1 4 * 2 ^ 32 + outen * 2), okay)

/-- POWER_STATUS (17 R479). -/
def State.cmdPowerStatus (s : State) (_ : List Byte) : State × Reply :=
  (s, .ok (leBytes 4 (s.fld A.pwrStat F.pwrStat.DRAW) ++ leBytes 4 (s.fld A.pwrCap F.pwrCap.CAP) ++
    (List.range 8).map (fun c => BitVec.ofNat 8 (s.throttle c)) ++ leBytes 4 (s.fld A.pwrStat F.pwrStat.POOL) ++
    [BitVec.ofNat 8 (s.fld A.pwrStat F.pwrStat.UNMET + 2 * s.fld A.pwrStat F.pwrStat.THROT)] ++ leBytes 3 0))

/-- POWER_CAP (17 R478): a cap in W. -/
def State.cmdPowerCap (s : State) (p : List Byte) : State × Reply := (s.capWrite (min (field p 0 4) 0xFFFF), okay)

/-! ### SEC (17 R480, R483) -/

/-- SEC_CERT. -/
def State.cmdCert (s : State) (p : List Byte) : State × Reply :=
  let a := field p 0 8
  if addrBad a 0 then (s, badField 0) else (s.fwWrite a Config.certChain, accepted)

/-- The key of a slot that an installation fills: a free one, else one that `TXEP` does not name; none where both are
needed (17 R483). -/
def State.keyPlace (s : State) (k : Nat) : Option Nat :=
  let a := A.secKey k
  let tx := s.fld a F.secKey.TXEP
  if !s.flag a F.secKey.V0 then some 0
  else if !s.flag a F.secKey.V1 then some 1
  else if s.fld a F.secKey.EP0 != tx then some 0
  else if s.fld a F.secKey.EP1 != tx then some 1
  else none

/-- A key is installed under its `KEPOCH` (17 R483). -/
def State.keyInstall (s : State) (k i ep : Nat) (key : List Byte) : State :=
  let s := s.setFld (A.secKey k) (if i = 0 then F.secKey.EP0 else F.secKey.EP1) ep
  let s := s.setFld (A.secKey k) (if i = 0 then F.secKey.V0 else F.secKey.V1) 1
  s.putSec { s.sec with keys := FMap.set s.sec.keys (2 * k + i) key }

/-- Phase 2 of a key exchange (17 R483): the status and the bytes 216 to 247 of the record. -/
def State.keyPhase2 (s : State) (k : Nat) (r : List Byte) : State × Nat × List Byte :=
  match FMap.get? s.sec.eph k with
  | none => (s, 3, leBytes 32 0)
  | some l =>
    let e := ofLe l
    let own : KeySide := ⟨s.fuse.serial, sm2Pub ownKey, sm2Pub e⟩
    let other : KeySide := ⟨(r.drop 8).take 16, (r.drop 24).take 64, (r.drop 88).take 64⟩
    match sm2Exchange ownKey e own other (field r 1 1 == 1) with
    | none => (s, 1, leBytes 32 0)
    | some (key, v) =>
      if (ptOf other.pub).isNone || (ptOf other.eph).isNone then (s, 1, leBytes 32 0)
      else match s.keyPlace k with
      | none => (s, 2, leBytes 32 0)
      | some i =>
        let s := s.putSec { s.sec with eph := FMap.del s.sec.eph k }
        ((s.keyInstall k i (field r 2 1) key).flushFar, 0, v)

/-- SEC_KEYX (17 R483, R484): a record with another phase or role, or with reserved bytes set, is BAD_FIELD. -/
def State.cmdKeyx (s : State) (p : List Byte) : State × Reply :=
  let k := field p 0 1
  let a := field p 1 8
  if addrBad a 256 then (s, badField 1)
  else
    let (s', r) := s.fwRead a 256
    match r with
    | none => (s', .bad 0x30 0)
    | some r =>
      let phase := field r 0 1
      if (phase != 1 && phase != 2) || field r 1 1 > 1 || field r 3 5 != 0 then (s', badField 1)
      else if phase = 1 then
        let (n, s') := s'.draw (sm2N - 2)
        let e := leBytes 32 (n + 1)
        let s' := s'.putSec { s'.sec with eph := FMap.set s'.sec.eph k e }
        ((s'.fwWrite (a + 152) (sm2Pub (n + 1))).fwWrite (a + 248) (leBytes 8 0), accepted)
      else
        let (s', st, v) := s'.keyPhase2 k r
        let s' := (s'.fwWrite (a + 216) v).fwWrite (a + 248) (leBytes 8 st)
        (s'.raise 0xB4 (evSource 8 0) [BitVec.ofNat 8 k, BitVec.ofNat 8 (field r 2 1), BitVec.ofNat 8 st], accepted)

/-! ### LOG, FW (15 R439; 16 R462; 17 R474) -/

/-- LOG_EVENTS: `EVT_RING_BASE`, then `EVT_RING_CTL`, whose `TAIL` stays. -/
def State.cmdLogEvents (s : State) (p : List Byte) : State × Reply :=
  match logFields p with
  | some i => (s, badField i)
  | none =>
    let s := s.fwReg A.evtRingBase (field p 0 8)
    (s.fwReg A.evtRingCtl (s.fld A.evtRingCtl F.evtRingCtl.TAIL * 2 ^ 32 + field p 9 1 * 2 ^ 31 + field p 8 1 * 2 ^ 24), okay)

/-- LOG_ERRCOPY (16 R462). -/
def State.cmdErrcopy (s : State) (p : List Byte) : State × Reply :=
  let a := field p 0 8
  if addrBad a 0 then (s, badField 0)
  else
    let l := s.flash.errlog
    (s.fwWrite a (leBytes 8 l.length ++ leBytes 8 (s.fld A.evtFltCtl F.evtFltCtl.SUPPR) ++ leBytes 48 0 ++ l.flatten), accepted)

/-- An update holds the firmware, or lets it go (15 R446). -/
def State.holdFw (s : State) (who : Nat) : State :=
  (s.putHut { s.hut with fwHold := who }).setFld A.mbxStat F.mbxStat.FWSTATE (if who = 0 then 1 else 2)

/-- A verified image is written into the inactive bank (17 R474, R481): measurement 4, event 0xB3. -/
def State.stageImage (s : State) (i : Img) : State :=
  let b := 1 - s.flash.active
  let s := s.extend 4 i.digest
  let s := s.putFlash { s.flash with banks := FMap.set s.flash.banks b i, staged := some b }
  s.fwEvent 3 i.svn b

/-- FW_STAGE: BUSY during a PLDM update (15 R432, R446). -/
def State.cmdStage (s : State) (p : List Byte) : State × Reply :=
  let a := field p 0 8
  let n := field p 8 8
  if s.hut.fwHold = 2 then (s, .bad 0x15 0)
  else if addrBad a 0 then (s, badField 0)
  else if n < 256 ∨ n > 32 * 1024 * 1024 + 256 ∨ addrBad a n then (s, badField 1)
  else
    let (s', l) := s.fwRead a n
    match l with
    | none => (s', .bad 0x30 0)
    | some l => match s'.verifyImage (l.take 256) (l.drop 256) with
      | none => (s'.holdFw 1, .accepted 0x20)
      | some i => ((s'.stageImage i).holdFw 1, accepted)

/-- A staged image is activated (17 R473, R474): its bank is pending, and a system reset follows 1 ms later; answers
whether it may be. -/
def State.activate (s : State) : State × Bool :=
  match s.flash.staged with
  | none => (s, false)
  | some b =>
    if s.flag A.rstStrap F.rstStrap.HOST || (s.job != 0 && s.job != 3) then (s, false)
    else
      ((s.putFlash { s.flash with pending := some b, staged := none }).requestReset 2 (s.pulse + msPulses) F.rstCause.CMD.one, true)

/-- FW_ACTIVATE: BUSY during an update. -/
def State.cmdActivate (s : State) (_ : List Byte) : State × Reply :=
  if s.hut.fwHold != 0 then (s, .bad 0x15 0)
  else
    let (s, ok) := s.activate
    (s, if ok then okay else badState)

/-! ### The commands by code -/

/-- A command of the table of 15 R432: its code, its payload's size and what it does. -/
structure Cmd where
  code : Nat
  len : Nat
  run : State → List Byte → State × Reply

/-- The table of 15 R432. -/
def commands : List Cmd := [
  ⟨0x0100, 0, State.cmdInfo⟩, ⟨0x0101, 0, State.cmdStatus⟩, ⟨0x0102, 1, State.cmdReset⟩,
  ⟨0x0200, 24, State.cmdLoad⟩, ⟨0x0201, 0, State.cmdStart⟩, ⟨0x0202, 0, State.cmdStop⟩, ⟨0x0203, 0, State.cmdUnload⟩,
  ⟨0x0300, 2, State.cmdMapModule⟩, ⟨0x0301, 12, State.cmdMapRoutes⟩, ⟨0x0302, 24, State.cmdMapShards⟩,
  ⟨0x0400, 11, State.cmdNumSet⟩, ⟨0x0401, 10, State.cmdNumElog⟩,
  ⟨0x0500, 4, State.cmdSbdEnable⟩, ⟨0x0501, 13, State.cmdSbdExport⟩,
  ⟨0x0600, 0, State.cmdFarEnable⟩, ⟨0x0601, 0, State.cmdFarDisable⟩, ⟨0x0602, 9, State.cmdFarPartner⟩,
  ⟨0x0700, 12, State.cmdTimeSet⟩, ⟨0x0701, 6, State.cmdTimeSource⟩,
  ⟨0x0800, 0, State.cmdPowerStatus⟩, ⟨0x0801, 4, State.cmdPowerCap⟩,
  ⟨0x0900, 8, State.cmdCert⟩, ⟨0x0901, 9, State.cmdKeyx⟩,
  ⟨0x0A00, 10, State.cmdLogEvents⟩, ⟨0x0A01, 8, State.cmdErrcopy⟩,
  ⟨0x0B00, 16, State.cmdStage⟩, ⟨0x0B01, 0, State.cmdActivate⟩]

/-- The command of mailbox `i` runs by its code; an unknown code is BAD_CODE (15 R430). -/
def State.take (s : State) (i : Nat) : State :=
  match commands.find? (fun c => c.code == s.mbxCode i) with
  | some c => s.command i c.len c.run
  | none => s.respond i (s.mbxCode i) (field (s.request i) 4 4) (.bad 0x10 0)

/-- `MBX_TAKE` (15 R428, R431): the firmware takes the first mailbox in the order of their submits whose command may
run. -/
def execMbxTake (s : State) : Out :=
  match s.hut.order.find? s.runnable with
  | some i => .next (s.take i)
  | none => .next s

/-- A row of one command: mailbox `i` is taken, if its request has the code and may run. -/
def State.takeAs (s : State) (i code len : Nat) (k : State → List Byte → State × Reply) : Out :=
  .next (if s.takes i code then s.command i len k else s)

/-- `MODULE_INFO` (15 R432). -/
def execModuleInfo (i : MboxNo) (s : State) : Out := s.takeAs i.val 0x0100 0 State.cmdInfo

/-- `MODULE_STATUS` (15 R432). -/
def execModuleStatus (i : MboxNo) (s : State) : Out := s.takeAs i.val 0x0101 0 State.cmdStatus

/-- `MODULE_RESET` (15 R432). -/
def execModuleReset (i : MboxNo) (s : State) : Out := s.takeAs i.val 0x0102 1 State.cmdReset

/-- `JOB_LOAD` (15 R434). -/
def execJobLoad (i : MboxNo) (s : State) : Out := s.takeAs i.val 0x0200 24 State.cmdLoad

/-- `JOB_START` (15 R434). -/
def execJobStart (i : MboxNo) (s : State) : Out := s.takeAs i.val 0x0201 0 State.cmdStart

/-- `JOB_STOP` (15 R434). -/
def execJobStop (i : MboxNo) (s : State) : Out := s.takeAs i.val 0x0202 0 State.cmdStop

/-- `JOB_UNLOAD` (15 R432). -/
def execJobUnload (i : MboxNo) (s : State) : Out := s.takeAs i.val 0x0203 0 State.cmdUnload

/-- `MAP_MODULE` (15 R432). -/
def execMapModule (i : MboxNo) (s : State) : Out := s.takeAs i.val 0x0300 2 State.cmdMapModule

/-- `MAP_ROUTES` (15 R432). -/
def execMapRoutes (i : MboxNo) (s : State) : Out := s.takeAs i.val 0x0301 12 State.cmdMapRoutes

/-- `MAP_SHARDS` (15 R432). -/
def execMapShards (i : MboxNo) (s : State) : Out := s.takeAs i.val 0x0302 24 State.cmdMapShards

/-- `NUM_SET` (15 R432). -/
def execNumSet (i : MboxNo) (s : State) : Out := s.takeAs i.val 0x0400 11 State.cmdNumSet

/-- `NUM_ELOG` (15 R432). -/
def execNumElog (i : MboxNo) (s : State) : Out := s.takeAs i.val 0x0401 10 State.cmdNumElog

/-- `SBD_ENABLE` (15 R432). -/
def execSbdEnable (i : MboxNo) (s : State) : Out := s.takeAs i.val 0x0500 4 State.cmdSbdEnable

/-- `SBD_EXPORT` (15 R432). -/
def execSbdExport (i : MboxNo) (s : State) : Out := s.takeAs i.val 0x0501 13 State.cmdSbdExport

/-- `FAR_ENABLE` (15 R432). -/
def execFarEnable (i : MboxNo) (s : State) : Out := s.takeAs i.val 0x0600 0 State.cmdFarEnable

/-- `FAR_DISABLE` (15 R432). -/
def execFarDisable (i : MboxNo) (s : State) : Out := s.takeAs i.val 0x0601 0 State.cmdFarDisable

/-- `FAR_PARTNER` (15 R432). -/
def execFarPartner (i : MboxNo) (s : State) : Out := s.takeAs i.val 0x0602 9 State.cmdFarPartner

/-- `TIME_SET` (15 R432). -/
def execTimeSet (i : MboxNo) (s : State) : Out := s.takeAs i.val 0x0700 12 State.cmdTimeSet

/-- `TIME_SOURCE` (15 R432). -/
def execTimeSource (i : MboxNo) (s : State) : Out := s.takeAs i.val 0x0701 6 State.cmdTimeSource

/-- `POWER_STATUS` (17 R479). -/
def execPowerStatus (i : MboxNo) (s : State) : Out := s.takeAs i.val 0x0800 0 State.cmdPowerStatus

/-- `POWER_CAP` (17 R478). -/
def execPowerCap (i : MboxNo) (s : State) : Out := s.takeAs i.val 0x0801 4 State.cmdPowerCap

/-- `SEC_CERT` (17 R480). -/
def execSecCert (i : MboxNo) (s : State) : Out := s.takeAs i.val 0x0900 8 State.cmdCert

/-- `SEC_KEYX` (17 R483). -/
def execSecKeyx (i : MboxNo) (s : State) : Out := s.takeAs i.val 0x0901 9 State.cmdKeyx

/-- `LOG_EVENTS` (15 R432). -/
def execLogEvents (i : MboxNo) (s : State) : Out := s.takeAs i.val 0x0A00 10 State.cmdLogEvents

/-- `LOG_ERRCOPY` (16 R462). -/
def execLogErrcopy (i : MboxNo) (s : State) : Out := s.takeAs i.val 0x0A01 8 State.cmdErrcopy

/-- `FW_STAGE` (17 R474). -/
def execFwStage (i : MboxNo) (s : State) : Out := s.takeAs i.val 0x0B00 16 State.cmdStage

/-- `FW_ACTIVATE` (17 R474). -/
def execFwActivate (i : MboxNo) (s : State) : Out := s.takeAs i.val 0x0B01 0 State.cmdActivate

/-- `COMMAND_COMPLETE` (15 R430, R431, R437): a command that answered ACCEPTED ends, JOB_STOP once its threads are
STOPPED: event 0x90, and its family is free. -/
def execCommandComplete (op : BitVec 32) (s : State) : Out :=
  match s.hut.ops.find? (fun o => o.opid == op.toNat) with
  | none => .next s
  | some o =>
    if o.code = 0x0202 ∧ s.job = 2 then .next s
    else
      let s := s.putHut { s.hut with ops := s.hut.ops.filter (fun x => x != o) }
      let s := if o.code = 0x0B00 then s.holdFw 0 else s
      .next (s.raise 0x90 (evSource 10 o.mbox)
        (leBytes 4 o.tag ++ leBytes 2 o.code ++ leBytes 2 o.status ++ leBytes 4 o.opid ++ [BitVec.ofNat 8 o.mbox]))

end Sys2Proof.Machine
end

