-- ==== Sys2Proof/Machine/Management.lean ====
section
/-!
DEFINITION. Management over I3C and DOE: MCTP control, PLDM discovery, sensors and firmware update, the vendor
message of mailbox 31, and the SPDM responder (15 R421, R445 to R447; 17 R475, R482; 19 R512). The forms of the
messages are those of the DMTF specifications the spec names (log 17).
-/
namespace Sys2Proof.Machine

/-- An MCTP message reaches the module: it is powered and has its dynamic address (15 R445). -/
def State.onBus (s : State) : Bool := s.rst.on && s.mgmt.i3c.isSome

/-- An answer over MCTP. -/
def State.answerMctp (s : State) (eid : BitVec 8) (a : MgmtAns) : State := s.send (.mgmt 1 eid.toNat a)

/-- `I3C_DYNAMIC_ADDRESS` (15 R445). -/
def execI3cDynamicAddress (a : BitVec 7) (s : State) : Out :=
  if !s.rst.on then .next s else .next (s.putMgmt { s.mgmt with i3c := some a.toNat })

/-- The answer to an MCTP control message (15 R445): an endpoint ID that DSP0236 reserves is not taken. -/
def State.mctpControl (s : State) (m : MctpCtl) : State × MgmtAns :=
  match m with
  | .setEid e => if 8 ≤ e ∧ e ≤ 0xFE then (s.putMgmt { s.mgmt with eid := e }, .eid e) else (s, .unsupported)
  | .getEid => (s, .eid s.mgmt.eid)
  | .getTypes => (s, .types [0x00, 0x01, 0x05, 0x7E])
  | .other _ => (s, .unsupported)

/-- `MCTP_CONTROL` (15 R445). -/
def execMctpControl (src : BitVec 8) (m : MctpCtl) (s : State) : Out :=
  if !s.onBus then .next s
  else
    let (s, a) := s.mctpControl m
    .next (s.answerMctp src a)

/-- The PLDM types supported (15 R445). -/
def pldmTypes : List Nat := [0, 2, 5]

/-- The answer to a PLDM Type 0 message (15 R445). -/
def State.pldmBase (s : State) (m : PldmBase) : State × MgmtAns :=
  match m with
  | .setTid t => (s.putMgmt { s.mgmt with tid := t % 256 }, .done)
  | .getTid => (s, .tid s.mgmt.tid)
  | .getVersion t => (s, if pldmTypes.contains t then .version (Config.pldmVersion t) 0 else .unsupported)
  | .getTypes => (s, .types pldmTypes)
  | .getCommands t => (s, if pldmTypes.contains t then .types (Config.pldmCommands t) else .unsupported)

/-- `PLDM_DISCOVERY` (15 R445). -/
def execPldmDiscovery (src : BitVec 8) (m : PldmBase) (s : State) : Out :=
  if !s.onBus then .next s
  else
    let (s, a) := s.pldmBase m
    .next (s.answerMctp src a)

/-! ### Sensors (15 R446, 17 R475, 19 R512). Values are in 1/256 of the sensor's unit. -/

/-- What a sensor reports (15 R446, 17 R475): the factory-corrected value plus the user's offset; health and GT state
from the module. -/
def State.reading (s : State) (sensor : Nat) (v : Int) : MgmtAns :=
  if 1 ≤ sensor ∧ sensor ≤ 33 then
    .reading sensor (v + sext 16 (s.fld (A.pwrUcal (sensor - 1)) F.pwrUcal.OFS))
  else if sensor = 100 then .reading 100 (s.fld A.evtHealth F.evtHealth.STATE + 1 : Nat)
  else if sensor = 101 then .reading 101 (s.fld A.gtStat F.gtStat.STATE + 1 : Nat)
  else .noSensor

/-- `GET_SENSOR_READING` (15 R446): `v` is the factory-corrected value of the quantity. -/
def execGetSensorReading (src : BitVec 8) (sensor : Nat) (v : Int) (s : State) : Out :=
  if !s.onBus then .next s else .next (s.answerMctp src (s.reading sensor v))

/-- The warning, critical and fatal levels of a sensor that only rises, none where the table has none (19 R512). -/
def risingLimits (sensor : Nat) : List Int :=
  if sensor = 1 then [10000 * 256, 10500 * 256]
  else if sensor = 3 then [250 * 256, 67200, 300 * 256]
  else if sensor = 4 then [38 * 256, 40 * 256]
  else if sensor = 5 then [56 * 256, 60 * 256]
  else if 15 ≤ sensor ∧ sensor ≤ 30 then [85 * 256, 90 * 256, 95 * 256]
  else if 7 ≤ sensor ∧ sensor ≤ 33 then [95 * 256, 105 * 256, 110 * 256]
  else []

/-- The level that a value has reached: 0 none, 1 warning, 2 critical, 3 fatal (19 R512). The hottest die is judged
as the die concerned, `die` (a sensor of a die). -/
def sensorLevel (sensor die : Nat) (v : Int) : Nat :=
  if sensor = 2 then
    countTrue (fun l => decide (v < l.1) || decide (l.2 < v)) [(41 * 256, 59 * 256), (40 * 256, 60 * 256), (38 * 256, 62 * 256)]
  else countTrue (fun l => decide (l ≤ v)) (risingLimits (if sensor = 6 then die else sensor))

/-- `SENSOR_THRESHOLD_CROSSING` (19 R512): a crossing of a warning or critical threshold is reported and changes
nothing in the module. -/
def execSensorThresholdCrossing (sensor die : Nat) (v : Int) (s : State) : Out :=
  let new := sensorLevel sensor die v
  let old := FMap.getD s.mgmt.crossed sensor 0
  if !s.rst.on || old = new then .next s
  else
    let s := s.putMgmt { s.mgmt with crossed := FMap.set s.mgmt.crossed sensor new }
    .next (if min old 2 = min new 2 || s.mgmt.i3c.isNone then s else s.answerMctp 0 (.crossing sensor new v))

/-! ### Firmware update (15 R446, 17 R474) -/

/-- The image received so far. -/
def PldmUpd.image (u : PldmUpd) : List Byte := (List.range u.size).map (fun i => FMap.getD u.data i 0)

/-- The update ends. -/
def State.updateEnd (s : State) : State := (s.putMgmt { s.mgmt with upd := none }).holdFw 0

/-- The answer to a message of a PLDM Type 5 update (15 R446): completion codes of DSP0267: 0 success, 0x80 not in
update mode, 0x81 already in update mode, 1 an image that is refused. -/
def State.pldmUpdate (s : State) (m : UpdateMsg) : State × Nat :=
  match s.mgmt.upd, m with
  | none, .request size =>
    if s.hut.fwHold != 0 then (s, 0x81)
    else if s.fld A.mbxStat F.mbxStat.FWSTATE != 1 then (s, 1)
    else ((s.putMgmt { s.mgmt with upd := some ⟨size, []⟩ }).holdFw 2, 0)
  | some _, .request _ => (s, 0x81)
  | none, _ => (s, 0x80)
  | some u, .data off piece =>
    let put (d : FMap Byte) (q : Nat × Byte) : FMap Byte := if off + q.1 < u.size then FMap.set d (off + q.1) q.2 else d
    let d := ((List.range piece.length).zip piece).foldl put u.data
    (s.putMgmt { s.mgmt with upd := some { u with data := d } }, 0)
  | some u, .complete =>
    if u.size < 256 ∨ u.size > 32 * 1024 * 1024 + 256 then (s.updateEnd, 1)
    else match s.verifyImage (u.image.take 256) (u.image.drop 256) with
      | some i => (s.stageImage i, 0)
      | none => (s.updateEnd, 1)
  | some _, .activate =>
    let (s', ok) := s.activate
    if ok then (s'.updateEnd, 0) else (s, 1)
  | some _, .cancel => (s.updateEnd, 0)

/-- `PLDM_FW_UPDATE` (15 R446). -/
def execPldmFwUpdate (src : BitVec 8) (m : UpdateMsg) (s : State) : Out :=
  if !s.onBus then .next s
  else
    let (s, c) := s.pldmUpdate m
    .next (s.answerMctp src (.update c))

/-! ### Mailbox 31 (15 R447) -/

/-- `MCTP_VENDOR_MAILBOX` (15 R447): the request slot is placed in mailbox 31 and submitted; while it is BUSY the
answer is BUSY. -/
def execMctpVendorMailbox (src : BitVec 8) (body : Bytes) (s : State) : Out :=
  if !s.onBus || !s.flag A.mbxCtl F.mbxCtl.M31 then .next s
  else
    let q := (body ++ leBytes 256 0).take 256
    if s.mbxBusy 31 then
      .next (s.answerMctp src (.slot (q.take 2 ++ leBytes 2 0 ++ (q.drop 4).take 4 ++ leBytes 2 0x15 ++ leBytes 6 0)))
    else
      let s := s.putMem (s.mem.write (slotBase + 512 * 31) q)
      let s := s.putHut { s.hut with sender := src.toNat }
      .next ((s.setOwn 31 false false).submitOne 31)

/-! ### SPDM and DOE (17 R482) -/

/-- Whether a request of a transport reaches the responder: DOE (0) over the PCIe link, MCTP (1) over I3C. -/
def State.spdmOpen (s : State) (mctp : Bool) : Bool := if mctp then s.onBus else s.rst.on && s.pcie.up

/-- An answer of the responder on its transport. -/
def State.answerSpdm (s : State) (mctp : Bool) (src : BitVec 8) (a : MgmtAns) : State :=
  s.send (.mgmt mctp.toNat (if mctp then src.toNat else 0) a)

/-- A transport's transcript, with how far its exchange has come: 0 nothing, 1 version, 2 capabilities, 3 algorithms. -/
def State.transcript (s : State) (mctp : Bool) : Nat × List Byte := FMap.getD s.mgmt.spdm mctp.toNat (0, [])

/-- A transport's transcript replaced. -/
def State.setTranscript (s : State) (mctp : Bool) (t : Nat × List Byte) : State :=
  s.putMgmt { s.mgmt with spdm := FMap.set s.mgmt.spdm mctp.toNat t }

/-- The hash of the certificate chain. -/
def certHash : List Byte := sm3 Config.certChain

/-- A request of the exchange, which may come once the exchange has come to `need`; else it is an unexpected request
(SPDM 1.2, error 4). The request and what the answer carries join the transcript. -/
def State.spdmStep (s : State) (mctp : Bool) (src : BitVec 8) (need next : Nat) (req : List Byte)
    (k : State → List Byte → State × MgmtAns × List Byte) : Out :=
  if !s.spdmOpen mctp then .next s
  else
    let (n, t) := s.transcript mctp
    if n < need then .next (s.answerSpdm mctp src (.spdmError 4))
    else
      let (s, a, more) := k s (t ++ req)
      let s := s.setTranscript mctp (max n next, t ++ req ++ more)
      .next (s.answerSpdm mctp src a)

/-- `GET_VERSION` (17 R482): the exchange begins anew. -/
def execGetVersion (mctp : Bool) (src : BitVec 8) (req : Bytes) (s : State) : Out :=
  if !s.spdmOpen mctp then .next s
  else .next ((s.setTranscript mctp (1, req)).answerSpdm mctp src (.version 1 2))

/-- `GET_CAPABILITIES` (17 R482): CERT_CAP, CHAL_CAP, MEAS_CAP with signature. -/
def execGetCapabilities (mctp : Bool) (src : BitVec 8) (req : Bytes) (s : State) : Out :=
  s.spdmStep mctp src 1 2 req (fun s _ => (s, .capabilities true true true, []))

/-- `NEGOTIATE_ALGORITHMS` (17 R482): SM2 and SM3. -/
def execNegotiateAlgorithms (mctp : Bool) (src : BitVec 8) (req : Bytes) (s : State) : Out :=
  s.spdmStep mctp src 2 3 req (fun s _ => (s, .algorithms, []))

/-- `GET_DIGESTS` (17 R482): slot 0. -/
def execGetDigests (mctp : Bool) (src : BitVec 8) (req : Bytes) (s : State) : Out :=
  s.spdmStep mctp src 3 3 req (fun s _ => (s, .digests [0] certHash, certHash))

/-- `GET_CERTIFICATE` (17 R482): a piece of the chain of slot 0; another slot is an invalid request (error 1). -/
def execGetCertificate (mctp : Bool) (src : BitVec 8) (slot : BitVec 8) (off n : BitVec 16) (req : Bytes) (s : State) : Out :=
  s.spdmStep mctp src 3 3 req (fun s _ =>
    if slot ≠ 0 ∨ Config.certChain.length < off.toNat then (s, .spdmError 1, [])
    else
      let part := (Config.certChain.drop off.toNat).take n.toNat
      (s, .certificate part (Config.certChain.length - off.toNat - part.length), part))

/-- A signature of the security engine over a transcript and a fresh nonce (17 R480). -/
def State.sign (s : State) (t : List Byte) : State × List Byte :=
  let (n, s) := s.draw (2 ^ 256 - 1)
  let (k, s) := s.draw (sm2N - 2)
  let nonce := leBytes 32 n
  (s, nonce ++ sm2Sign ownKey (k + 1) (t ++ nonce))

/-- `CHALLENGE` (17 R482). -/
def execChallenge (mctp : Bool) (src : BitVec 8) (slot : BitVec 8) (req : Bytes) (s : State) : Out :=
  s.spdmStep mctp src 3 3 req (fun s t =>
    if slot ≠ 0 then (s, .spdmError 1, [])
    else
      let (s, sig) := s.sign (t ++ certHash)
      (s, .challenge 0 certHash sig, sig))

/-- Measurement block i + 1 holds `SEC_MEAS_i` (17 R482). -/
def State.measBlocks (s : State) (l : List Nat) : List (Nat × List Byte) := l.map (fun i => (i + 1, s.meas i))

/-- `GET_MEASUREMENTS` (17 R482): index 0 asks how many blocks there are, 0xFF for all of them, else for one; another
index is an invalid request. A signature covers the transcript where it is asked for. -/
def execGetMeasurements (mctp : Bool) (src : BitVec 8) (idx : BitVec 8) (sign : Bool) (req : Bytes) (s : State) : Out :=
  s.spdmStep mctp src 3 3 req (fun s t =>
    let l := s.measBlocks (if idx = 0xFF then List.range 5 else if idx = 0 then [] else [idx.toNat - 1])
    if idx.toNat > 5 ∧ idx ≠ 0xFF then (s, .spdmError 1, [])
    else
      let body := l.flatMap (fun b => BitVec.ofNat 8 b.1 :: b.2)
      let (s, sig) := if sign then s.sign (t ++ body) else (s, [])
      (s, .measurements l sig, body ++ sig))

/-- `SPDM_UNSUPPORTED_REQUEST` (17 R482): the ERROR code UnsupportedRequest (7 in SPDM 1.2). -/
def execSpdmUnsupportedRequest (mctp : Bool) (src : BitVec 8) (s : State) : Out :=
  if !s.spdmOpen mctp then .next s else .next (s.answerSpdm mctp src (.spdmError 7))

/-- `DOE_DISCOVERY` (15 R421): the Discovery protocol and CMA/SPDM, of the PCI-SIG. -/
def execDoeDiscovery (idx : BitVec 8) (s : State) : Out :=
  if !s.rst.on || !s.pcie.up then .next s
  else .next (s.send (.mgmt 0 0 (match idx.toNat with
    | 0 => .protocol 1 0 1
    | 1 => .protocol 1 1 0
    | _ => .protocol 0xFFFF 0 0)))

end Sys2Proof.Machine
end

