-- ==== Sys2Proof/Machine/Store.lean ====
section
/-!
DEFINITION. Scalar stores (04 R106, R139; 10 R297, R303): to this module's memory and registers at issue, to
another module by a write transaction.
-/
namespace Sys2Proof.Machine

/-- A store to a location of this module (10 R288): memory as requester class 0 (09 R279), a register under
00 R10, nothing at an unmapped address (00 R11). One that finds its codeword uncorrectable (09 R272), or that a clock
crossing loses (14 R407), ends with UE: event 0x41 (10 R297). -/
def State.storeNear (s : State) (b : Nat) (c : Ctx) (a n v : Nat) : State :=
  let (s, ok) := match locOf a with
    | .reg r =>
      let (s, gone) := s.takeLost 0 a
      if gone then (s, false) else (s.regWrite (storeWho b c) r n v, true)
    | _ => s.memWriteOk 0 a ((leBytes n v).map (fun x => (x, true)))
  if ok then s else s.accessFailed b c a .ue (s.tcFor c.idx s.modnum)

/-- A store to another module (10 R295, R297): incomplete until it is answered; one that fails at once raises
event 0x41. -/
def State.storeSend (s : State) (b : Nat) (c : Ctx) (a n v : Nat) : State :=
  let line := s.lineKey a
  let tc := s.tcFor c.idx (modOf a)
  let (s, failed) := s.submit (modOf a) c.idx b c.code (.wr (localOf a) (leBytes n v) (List.replicate n true)) (.store b c line)
  if failed then s.accessFailed b c a .noroute tc
  else s.modCtx b c (fun x => { x with stores := x.stores ++ [⟨line, true⟩] })

/-- `ST` (04 R139), the data in `RD`: misaligned it is illegal with cause 0x13; it waits at issue for an earlier load or store of its
line (10 R303), for memory that does not accept it yet (09 R267) and for pending lines (05 R167; log 4); the next
instruction follows at once. -/
def execSt (b : BenchNo) (c : Ctx) (rd rs1 : Fin 32) (imm : BitVec 32) (rsv : BitVec 8) (s : State) : Out :=
  .next (s.issue b c { sregs := [rd, rs1], rsv := rsv.toNat } (fun s =>
    let n := storeWidth imm
    let a := s.storeAddr b c rs1 imm
    let v := (s.s b c rd).toNat
    let near := s.isHere (modOf a)
    if a % n != 0 then s.illegal b c 0x13
    else if s.loadOpen b c (s.lineKey a) || s.storeOpen b c (s.lineKey a) then s.block b c .issue
    else if near && (!s.memReady (localOf a) n || s.memPending (localOf a) n) then s.block b c .issue
    else if near then (s.done b c).storeNear b c (localOf a) n v
    else (s.done b c).storeSend b c a n v))

end Sys2Proof.Machine
end

