-- ==== Sys2Proof/Machine/Vector.lean ====
section
/-!
DEFINITION. The vector and transcendental instructions (04 R110, R140; 02 R38 to R48, R60). DESIGN CHOICE (log 30): of the
fields `VA`, `VB`, `VC` and the function bits [28:0], those that an instruction does not use are ignored (`_va`, `_vb`, `_vc`, `_fn`), for
R140 does not call them reserved.
-/
namespace Sys2Proof.Machine

/-- The form of a vector instruction: none is permitted in the DWL context (04 R109, R122). -/
def vecForm (sregs : List Nat) : Form := { dwl := false, sregs := sregs }

/-- What a vector instruction's lanes leave: flags to the vector unit, and for trap events the stop. For a
precise stop the destination is not written (06 R180); `write` stores the result. -/
def State.vecEnd (s : State) (b : Nat) (c : Ctx) (fl : Flags) (evs : List TrapEv) (opc : Nat) (precise : Bool)
    (write : State → State) : State :=
  let pc := s.pc b c
  let lg := s.layerGen b c
  let sup := s.suppressed b c
  if precise then
    let (s', stopped) := s.trap b c sup evs pc opc
    if stopped then s'.raiseFlags b c 4 fl lg else ((write s').raiseFlags b c 4 fl lg).done b c
  else (((write s).done b c).trap b c sup evs pc opc).1.raiseFlags b c 4 fl lg

/-- Lanes of a register. -/
def vlanes (f : Fmt) (v : VWord) : List Nat := lanes v.toNat f.width (laneCount f)

/-- A register made of lanes. -/
def ofVlanes (f : Fmt) (l : List Nat) : VWord := BitVec.ofNat 4096 (ofLanes f.width l)

/-- A lane-wise instruction (04 R110, R140): each lane of `VD` from the lanes of `VA`, `VB` and `VC`, where
the predicate's bit is set. -/
def State.vecLanes (s : State) (b : Nat) (c : Ctx) (vd va vb vc p fmt opc : Nat) (precise : Bool)
    (lane : Fmt → Nat → Nat → Nat → LaneRes) : State :=
  s.issue b c (vecForm []) (fun s =>
    match vecFmt fmt with
    | none => s.illegal b c 0x11
    | some f =>
      let pr := (s.p b c p).toNat
      let x := s.v b c va
      let y := s.v b c vb
      let z := s.v b c vc
      let d := s.v b c vd
      let res := (List.range (laneCount f)).map (fun i =>
        guardLane pr i (Sys2Proof.Machine.lane d.toNat f.width i)
          (lane f (Sys2Proof.Machine.lane x.toNat f.width i) (Sys2Proof.Machine.lane y.toNat f.width i)
            (Sys2Proof.Machine.lane z.toNat f.width i)))
      s.vecEnd b c (orFlags res) (laneEvs 4 0 0 (fun _ => none) res) opc precise
        (fun s => s.setV b c vd (ofVlanes f (res.map (·.bits)))))

/-- `VADD` (02 R38, R41). -/
def execVadd (b : BenchNo) (c : Ctx) (vd va vb vc : Fin 32) (p : Fin 8) (fmt : Fin 16) (_fn : BitVec 29) (s : State) : Out :=
  ok (s.vecLanes b c vd va vb vc p fmt 0x40 true (VOp.lane .add))

/-- `VSUB`: addition with the second operand negated (02 R38, R41). -/
def execVsub (b : BenchNo) (c : Ctx) (vd va vb vc : Fin 32) (p : Fin 8) (fmt : Fin 16) (_fn : BitVec 29) (s : State) : Out :=
  ok (s.vecLanes b c vd va vb vc p fmt 0x41 true (VOp.lane .sub))

/-- `VMUL` (02 R38, R41). -/
def execVmul (b : BenchNo) (c : Ctx) (vd va vb vc : Fin 32) (p : Fin 8) (fmt : Fin 16) (_fn : BitVec 29) (s : State) : Out :=
  ok (s.vecLanes b c vd va vb vc p fmt 0x42 true (VOp.lane .mul))

/-- `VFMA`: VA × VB + VC with one rounding (02 R38, R41). -/
def execVfma (b : BenchNo) (c : Ctx) (vd va vb vc : Fin 32) (p : Fin 8) (fmt : Fin 16) (_fn : BitVec 29) (s : State) : Out :=
  ok (s.vecLanes b c vd va vb vc p fmt 0x43 true (VOp.lane .fma))

/-- `VMIN` (02 R40). -/
def execVmin (b : BenchNo) (c : Ctx) (vd va vb vc : Fin 32) (p : Fin 8) (fmt : Fin 16) (_fn : BitVec 29) (s : State) : Out :=
  ok (s.vecLanes b c vd va vb vc p fmt 0x44 true (VOp.lane .min))

/-- `VMAX` (02 R40). -/
def execVmax (b : BenchNo) (c : Ctx) (vd va vb vc : Fin 32) (p : Fin 8) (fmt : Fin 16) (_fn : BitVec 29) (s : State) : Out :=
  ok (s.vecLanes b c vd va vb vc p fmt 0x45 true (VOp.lane .max))

/-- `VDIV` (02 R38, R41). -/
def execVdiv (b : BenchNo) (c : Ctx) (vd va vb vc : Fin 32) (p : Fin 8) (fmt : Fin 16) (_fn : BitVec 29) (s : State) : Out :=
  ok (s.vecLanes b c vd va vb vc p fmt 0x46 true (VOp.lane .div))

/-- `VSQRT` (02 R38, R41). -/
def execVsqrt (b : BenchNo) (c : Ctx) (vd va vb vc : Fin 32) (p : Fin 8) (fmt : Fin 16) (_fn : BitVec 29) (s : State) : Out :=
  ok (s.vecLanes b c vd va vb vc p fmt 0x47 true (VOp.lane .sqrt))

/-- A transcendental instruction (02 R39, R42): its trap is imprecise (06 R180). -/
def State.vecTrans (s : State) (b : Nat) (c : Ctx) (vd va p fmt opc : Nat) (t : TFun) : State :=
  s.vecLanes b c vd va va va p fmt opc false (fun f x _ _ => arithLane [f.decode x] (t.apply f (f.decode x) x))

/-- `VEXP2` (02 R39, R42). -/
def execVexp2 (b : BenchNo) (c : Ctx) (vd va _vb _vc : Fin 32) (p : Fin 8) (fmt : Fin 16) (_fn : BitVec 29) (s : State) : Out :=
  ok (s.vecTrans b c vd va p fmt 0x70 .exp2)

/-- `VEXP` (02 R39, R42). -/
def execVexp (b : BenchNo) (c : Ctx) (vd va _vb _vc : Fin 32) (p : Fin 8) (fmt : Fin 16) (_fn : BitVec 29) (s : State) : Out :=
  ok (s.vecTrans b c vd va p fmt 0x71 .exp)

/-- `VLOG2` (02 R39, R42). -/
def execVlog2 (b : BenchNo) (c : Ctx) (vd va _vb _vc : Fin 32) (p : Fin 8) (fmt : Fin 16) (_fn : BitVec 29) (s : State) : Out :=
  ok (s.vecTrans b c vd va p fmt 0x72 .log2)

/-- `VLOG` (02 R39, R42). -/
def execVlog (b : BenchNo) (c : Ctx) (vd va _vb _vc : Fin 32) (p : Fin 8) (fmt : Fin 16) (_fn : BitVec 29) (s : State) : Out :=
  ok (s.vecTrans b c vd va p fmt 0x73 .log)

/-- `VRCP` (02 R39, R42). -/
def execVrcp (b : BenchNo) (c : Ctx) (vd va _vb _vc : Fin 32) (p : Fin 8) (fmt : Fin 16) (_fn : BitVec 29) (s : State) : Out :=
  ok (s.vecTrans b c vd va p fmt 0x74 .rcp)

/-- `VRSQ` (02 R39, R42). -/
def execVrsq (b : BenchNo) (c : Ctx) (vd va _vb _vc : Fin 32) (p : Fin 8) (fmt : Fin 16) (_fn : BitVec 29) (s : State) : Out :=
  ok (s.vecTrans b c vd va p fmt 0x75 .rsq)

/-- `VSIN` (02 R39, R42). -/
def execVsin (b : BenchNo) (c : Ctx) (vd va _vb _vc : Fin 32) (p : Fin 8) (fmt : Fin 16) (_fn : BitVec 29) (s : State) : Out :=
  ok (s.vecTrans b c vd va p fmt 0x76 .sin)

/-- `VCOS` (02 R39, R42). -/
def execVcos (b : BenchNo) (c : Ctx) (vd va _vb _vc : Fin 32) (p : Fin 8) (fmt : Fin 16) (_fn : BitVec 29) (s : State) : Out :=
  ok (s.vecTrans b c vd va p fmt 0x77 .cos)

/-- `VTANH` (02 R39, R42). -/
def execVtanh (b : BenchNo) (c : Ctx) (vd va _vb _vc : Fin 32) (p : Fin 8) (fmt : Fin 16) (_fn : BitVec 29) (s : State) : Out :=
  ok (s.vecTrans b c vd va p fmt 0x78 .tanh)

/-- `VSIG` (02 R39, R42). -/
def execVsig (b : BenchNo) (c : Ctx) (vd va _vb _vc : Fin 32) (p : Fin 8) (fmt : Fin 16) (_fn : BitVec 29) (s : State) : Out :=
  ok (s.vecTrans b c vd va p fmt 0x79 .sig)

/-- `VCMP` (04 R140, 02 R40): the predicate register that `P` names takes one bit a lane; a condition code
of 6 or 7 is illegal with cause 0x12. Bits above the lanes are kept. -/
def execVcmp (b : BenchNo) (c : Ctx) (_vd va vb _vc : Fin 32) (p : Fin 8) (fmt : Fin 16) (fn : BitVec 29) (s : State) : Out :=
  ok (s.issue b c (vecForm []) (fun s =>
    match vecFmt fmt with
    | none => s.illegal b c 0x11
    | some f =>
      let cond := bits fn.toNat 2 0
      if cond > 5 then s.illegal b c 0x12
      else
        let n := laneCount f
        let x := (s.v b c va).toNat
        let y := (s.v b c vb).toNat
        let res := (List.range n).map (fun i => cmpLane cond f (lane x f.width i) (lane y f.width i))
        let ls := res.map (fun r => (⟨0, r.2.1, r.2.2⟩ : LaneRes))
        let old := (s.p b c p).toNat
        let new := (old >>> n) <<< n + ofLanes 1 (res.map (fun r => r.1.toNat))
        s.vecEnd b c (orFlags ls) (laneEvs 4 0 0 (fun _ => none) ls) 0x48 true
          (fun s => s.setP b c p (BitVec.ofNat 256 new))))

/-- `VSEL` (04 R140): a lane of `VA` where the predicate that `VC` names is set, else of `VB`; a `VC` of 8 or
more is illegal with cause 0x12. -/
def execVsel (b : BenchNo) (c : Ctx) (vd va vb vc : Fin 32) (p : Fin 8) (fmt : Fin 16) (_fn : BitVec 29) (s : State) : Out :=
  ok (s.issue b c (vecForm []) (fun s =>
    match vecFmt fmt with
    | none => s.illegal b c 0x11
    | some f =>
      if vc.val > 7 then s.illegal b c 0x12
      else
        let pr := (s.p b c p).toNat
        let sel := (s.p b c vc).toNat
        let x := (s.v b c va).toNat
        let y := (s.v b c vb).toNat
        let d := (s.v b c vd).toNat
        let res := (List.range (laneCount f)).map (fun i =>
          if pr.testBit i then (if sel.testBit i then lane x f.width i else lane y f.width i) else lane d f.width i)
        (s.setV b c vd (ofVlanes f res)).done b c))

/-- A partial sum of `VRED`'s tree: value, flags, first lane, and the trap events with their lanes. -/
structure RedSum where
  val : Nat
  fl : Flags
  lane : Nat
  evs : List (Nat × Nat)
  deriving DecidableEq, Repr

/-- One addition of `VRED`'s tree. -/
def redAdd (f : Fmt) (a b : RedSum) : RedSum :=
  let x := f.decode a.val
  let y := f.decode b.val
  let (v, g) := f.narrow (x.add y)
  let here := (trapKind [x, y] g).map (fun k => (if x == .nan true || y != .nan true then a.lane else b.lane, k))
  ⟨v, (a.fl.or b.fl).or g, a.lane, a.evs ++ b.evs ++ here.toList⟩

/-- `VRED` (04 R140, 02 R60): the lanes of `VA` summed by `tree` into lane 0 of `VD`; a lane whose predicate
bit is clear enters as +0 without a flag; the other lanes of `VD` are kept. -/
def execVred (b : BenchNo) (c : Ctx) (vd va _vb _vc : Fin 32) (p : Fin 8) (fmt : Fin 16) (_fn : BitVec 29) (s : State) : Out :=
  ok (s.issue b c (vecForm []) (fun s =>
    match vecFmt fmt with
    | none => s.illegal b c 0x11
    | some f =>
      let pr := (s.p b c p).toNat
      let x := (s.v b c va).toNat
      let l := (List.range (laneCount f)).map (fun i => (⟨if pr.testBit i then lane x f.width i else 0, .none, i, []⟩ : RedSum))
      let sum := (treeSum (redAdd f) 9 l).headD ⟨0, .none, 0, []⟩
      let d := (s.v b c vd).toNat
      s.vecEnd b c sum.fl (sum.evs.map (fun q => ⟨q.2, 4, 0, q.1, 0, none⟩)) 0x4A true
        (fun s => s.setV b c vd (BitVec.ofNat 4096 (setBits d (f.width - 1) 0 sum.val)))))

/-- `VBCAST` (04 R140): the low bits of a scalar register to every lane selected. DESIGN CHOICE (log 30): `VA` names the
register, for R140 says only 'scalar register bits'. -/
def execVbcast (b : BenchNo) (c : Ctx) (vd va _vb _vc : Fin 32) (p : Fin 8) (fmt : Fin 16) (_fn : BitVec 29) (s : State) : Out :=
  ok (s.issue b c (vecForm [va]) (fun s =>
    match vecFmt fmt with
    | none => s.illegal b c 0x11
    | some f =>
      let pr := (s.p b c p).toNat
      let x := (s.s b c va).toNat
      let d := (s.v b c vd).toNat
      let res := (List.range (laneCount f)).map (fun i => if pr.testBit i then x % 2 ^ f.width else lane d f.width i)
      (s.setV b c vd (ofVlanes f res)).done b c))

/-- `VCVT` (04 R140, 02 R44): lanes of `VA` in `FMT` to the format in bits [3:0]; the descriptor in bits [7:4]
gives rounding and draws, and the s register in bits [12:8] the offset of lane 0's element. -/
def execVcvt (b : BenchNo) (c : Ctx) (vd va _vb _vc : Fin 32) (p : Fin 8) (fmt : Fin 16) (fn : BitVec 29) (s : State) : Out :=
  let rs := bits fn.toNat 12 8
  ok (s.issue b c (vecForm [rs]) (fun s =>
    match Fmt.ofElem fmt, Fmt.ofElem (bits fn.toNat 3 0) with
    | some src, some dst =>
      let t := tileOf (s.t b c (bits fn.toNat 7 4)).toNat
      if (Fmt.ofElem t.fmt).isNone then s.illegal b c 0x11
      else if !t.usable then s.illegal b c 0x13
      else
        let e := (s.s b c rs).toNat
        let n := min 256 (4096 / max src.width dst.width)
        let pr := (s.p b c p).toNat
        let x := (s.v b c va).toNat
        let d := (s.v b c vd).toNat
        let res := (List.range n).map (fun i =>
          guardLane pr i (lane d dst.width i)
            (cvtLane src dst (t.rnd s.seed (s.stepOf b c) ((e + i) / t.cols) ((e + i) % t.cols)) (lane x src.width i)))
        s.vecEnd b c (orFlags res)
          (laneEvs 4 0 0 (fun i => some (t.index ((e + i) / t.cols) ((e + i) % t.cols))) res) 0x4C true
          (fun s => s.setV b c vd (BitVec.ofNat 4096 (ofLanes dst.width (res.map (·.bits)))))
    | _, _ => s.illegal b c 0x11))

/-- The Shelf access of `VLD`, `VST` and `PSET` (04 R140): a reserved format is illegal with cause 0x11 (02 R27), a
misaligned offset, or bytes beyond 3 MiB, with cause 0x13; a pending line holds the instruction (05 R167). -/
def State.vecMem (s : State) (b : Nat) (c : Ctx) (fmt rs n align : Nat) (k : Nat → State → State) : State :=
  s.issue b c (vecForm [rs]) (fun s =>
    let off := (s.s b c rs).toNat
    if (Fmt.ofCode fmt).isNone then s.illegal b c 0x11
    else if off % align != 0 || decide (off + n > shelfSize) then s.illegal b c 0x13
    else if s.pendingAt b off n then s.block b c .issue
    else k off s)

/-- The trap event of a vector read of poisoned lines (06 R179, R181): that of the lowest of `n` units of `w` bytes from an
offset which is selected and lies in one; `col` numbers the unit in the record. -/
def State.vecPoison (s : State) (b off n w : Nat) (sel : Nat → Bool) (col : Nat → Nat) : List TrapEv :=
  match (List.range n).find? (fun i => sel i && (s.poisoned b (off + i * w) w).isSome) with
  | some i => [⟨3, 4, 0, col i, 0, none⟩]
  | none => []

/-- Lanes of `VLD` and `VST` in bytes (04 R110; 06 R181). -/
def memLane (fmt : Nat) : Nat := if fmt = 4 then 4 else 2

/-- `VLD` (04 R140): 512 B of Shelf to `VD`, in the lanes of `FMT` that the predicate selects (R110). A selected lane in a
poisoned line sets I of the vector unit (05 R159). A reserved `FMT` is illegal with cause 0x11 (02 R27). -/
def execVld (b : BenchNo) (c : Ctx) (vd : Fin 32) (x : LaneSel) (fn : BitVec 29) (s : State) : Out :=
  ok (s.vecMem b c x.fmt (bits fn.toNat 12 8) 512 64 (fun off s =>
    let w := memLane x.fmt
    let pr := (s.p b c x.p).toNat
    let old := (s.v b c vd).toNat
    let new := s.shelfNum b off 512
    let evs := s.vecPoison b off (512 / w) w pr.testBit id
    s.vecEnd b c (if evs.isEmpty then .none else .invalid) evs 0x4D true (fun s => s.setV b c vd (BitVec.ofNat 4096
      (ofLanes (8 * w) ((List.range (512 / w)).map (fun i => lane (if pr.testBit i then new else old) (8 * w) i)))))))

/-- `VST` (04 R140): the lanes of `VD` that the predicate selects (R110) to 512 B of Shelf; a line of which no lane is selected
is not written. A reserved `FMT` is illegal with cause 0x11 (02 R27). -/
def execVst (b : BenchNo) (c : Ctx) (vd : Fin 32) (x : StoreSel) (s : State) : Out :=
  ok (s.vecMem b c x.fmt (bits x.fn.toNat 12 8) 512 64 (fun off s =>
    let w := memLane x.fmt
    let pr := (s.p b c x.p).toNat
    let data := leBytes 512 (s.v b c vd).toNat
    let old := s.shelfRead b off 512
    let sel (i : Nat) : Bool := pr.testBit (i / w)
    (((List.range 8).filter (fun l => (List.range 64).any (fun i => sel (64 * l + i)))).foldl (fun s l =>
      s.shelfWrite b (off + 64 * l) ((List.range 64).map (fun i =>
        if sel (64 * l + i) then data.getD (64 * l + i) 0 else old.getD (64 * l + i) 0))) s).done b c))

/-- `PSET` (04 R140): a predicate from 256 bits of Shelf. -/
def execPset (b : BenchNo) (c : Ctx) (p : Fin 8) (fn : BitVec 29) (s : State) : Out :=
  ok (s.vecMem b c 0 (bits fn.toNat 12 8) 32 32 (fun off s =>
    let evs := s.vecPoison b off 32 1 (fun _ => true) (fun i => 8 * i)
    s.vecEnd b c (if evs.isEmpty then .none else .invalid) evs 0x4E true
      (fun s => s.setP b c p (BitVec.ofNat 256 (s.shelfNum b off 32)))))

end Sys2Proof.Machine
end

