-- ==== Sys2Proof/Machine/Dispatch.lean ====
section
/-!
DEFINITION. Which meaning each command has: one arm for each constructor of `Instr`.
-/
namespace Sys2Proof.Machine

/-- The effect of a command on everything but the queue. -/
def exec (i : Instr) (s : State) : Host.Outcome State Fault Refusal :=
  match i with
  | .registerWrite who a n v => Sys2Proof.Machine.execRegisterWrite who a n v s
  | .nop b c opc rsv => Sys2Proof.Machine.execNop b c opc rsv s
  | .yield b c mask rsv => Sys2Proof.Machine.execYield b c mask rsv s
  | .defer b c rs rsv => Sys2Proof.Machine.execDefer b c rs rsv s
  | .deferPush b t => Sys2Proof.Machine.execDeferPush b t s
  | .deferFlush b c rs rsv => Sys2Proof.Machine.execDeferFlush b c rs rsv s
  | .dend b c rsv => Sys2Proof.Machine.execDend b c rsv s
  | .dwlEntryEnd b => Sys2Proof.Machine.execDwlEntryEnd b s
  | .stop b c rsv => Sys2Proof.Machine.execStop b c rsv s
  | .add b c rd rs1 rs2 iv imm rsv => Sys2Proof.Machine.execAdd b c rd rs1 rs2 iv imm rsv s
  | .sub b c rd rs1 rs2 iv imm rsv => Sys2Proof.Machine.execSub b c rd rs1 rs2 iv imm rsv s
  | .and b c rd rs1 rs2 iv imm rsv => Sys2Proof.Machine.execAnd b c rd rs1 rs2 iv imm rsv s
  | .or b c rd rs1 rs2 iv imm rsv => Sys2Proof.Machine.execOr b c rd rs1 rs2 iv imm rsv s
  | .xor b c rd rs1 rs2 iv imm rsv => Sys2Proof.Machine.execXor b c rd rs1 rs2 iv imm rsv s
  | .shl b c rd rs1 rs2 iv imm rsv => Sys2Proof.Machine.execShl b c rd rs1 rs2 iv imm rsv s
  | .shr b c rd rs1 rs2 iv imm rsv => Sys2Proof.Machine.execShr b c rd rs1 rs2 iv imm rsv s
  | .sra b c rd rs1 rs2 iv imm rsv => Sys2Proof.Machine.execSra b c rd rs1 rs2 iv imm rsv s
  | .mul b c rd rs1 rs2 iv imm rsv => Sys2Proof.Machine.execMul b c rd rs1 rs2 iv imm rsv s
  | .mulh b c rd rs1 rs2 iv imm rsv => Sys2Proof.Machine.execMulh b c rd rs1 rs2 iv imm rsv s
  | .div b c rd rs1 rs2 iv imm rsv => Sys2Proof.Machine.execDiv b c rd rs1 rs2 iv imm rsv s
  | .rem b c rd rs1 rs2 iv imm rsv => Sys2Proof.Machine.execRem b c rd rs1 rs2 iv imm rsv s
  | .slt b c rd rs1 rs2 iv imm rsv => Sys2Proof.Machine.execSlt b c rd rs1 rs2 iv imm rsv s
  | .sltu b c rd rs1 rs2 iv imm rsv => Sys2Proof.Machine.execSltu b c rd rs1 rs2 iv imm rsv s
  | .min b c rd rs1 rs2 iv imm rsv => Sys2Proof.Machine.execMin b c rd rs1 rs2 iv imm rsv s
  | .max b c rd rs1 rs2 iv imm rsv => Sys2Proof.Machine.execMax b c rd rs1 rs2 iv imm rsv s
  | .li b c rd imm rsv => Sys2Proof.Machine.execLi b c rd imm rsv s
  | .lih b c rd imm rsv => Sys2Proof.Machine.execLih b c rd imm rsv s
  | .ctr b c rd rsv => Sys2Proof.Machine.execCtr b c rd rsv s
  | .beq b c rs1 rs2 imm rsv => Sys2Proof.Machine.execBeq b c rs1 rs2 imm rsv s
  | .bne b c rs1 rs2 imm rsv => Sys2Proof.Machine.execBne b c rs1 rs2 imm rsv s
  | .blt b c rs1 rs2 imm rsv => Sys2Proof.Machine.execBlt b c rs1 rs2 imm rsv s
  | .bge b c rs1 rs2 imm rsv => Sys2Proof.Machine.execBge b c rs1 rs2 imm rsv s
  | .bltu b c rs1 rs2 imm rsv => Sys2Proof.Machine.execBltu b c rs1 rs2 imm rsv s
  | .bgeu b c rs1 rs2 imm rsv => Sys2Proof.Machine.execBgeu b c rs1 rs2 imm rsv s
  | .jal b c rd imm rsv => Sys2Proof.Machine.execJal b c rd imm rsv s
  | .jalr b c rd rs1 imm rsv => Sys2Proof.Machine.execJalr b c rd rs1 imm rsv s
  | .ld8 b c rd rs1 imm rsv => Sys2Proof.Machine.execLd8 b c rd rs1 imm rsv s
  | .ld16 b c rd rs1 imm rsv => Sys2Proof.Machine.execLd16 b c rd rs1 imm rsv s
  | .ld32 b c rd rs1 imm rsv => Sys2Proof.Machine.execLd32 b c rd rs1 imm rsv s
  | .ld64 b c rd rs1 imm rsv => Sys2Proof.Machine.execLd64 b c rd rs1 imm rsv s
  | .scalarLoadComplete b c rd => Sys2Proof.Machine.execScalarLoadComplete b c rd s
  | .st b c rd rs1 imm rsv => Sys2Proof.Machine.execSt b c rd rs1 imm rsv s
  | .tld b c t rs1 rsv => Sys2Proof.Machine.execTld b c t rs1 rsv s
  | .tst b c t rs1 rsv => Sys2Proof.Machine.execTst b c t rs1 rsv s
  | .tbase b c t rs1 imm rsv => Sys2Proof.Machine.execTbase b c t rs1 imm rsv s
  | .torg b c t rs1 imm rsv => Sys2Proof.Machine.execTorg b c t rs1 imm rsv s
  | .vadd b c vd va vb vc p fmt fn => Sys2Proof.Machine.execVadd b c vd va vb vc p fmt fn s
  | .vsub b c vd va vb vc p fmt fn => Sys2Proof.Machine.execVsub b c vd va vb vc p fmt fn s
  | .vmul b c vd va vb vc p fmt fn => Sys2Proof.Machine.execVmul b c vd va vb vc p fmt fn s
  | .vfma b c vd va vb vc p fmt fn => Sys2Proof.Machine.execVfma b c vd va vb vc p fmt fn s
  | .vmin b c vd va vb vc p fmt fn => Sys2Proof.Machine.execVmin b c vd va vb vc p fmt fn s
  | .vmax b c vd va vb vc p fmt fn => Sys2Proof.Machine.execVmax b c vd va vb vc p fmt fn s
  | .vdiv b c vd va vb vc p fmt fn => Sys2Proof.Machine.execVdiv b c vd va vb vc p fmt fn s
  | .vsqrt b c vd va vb vc p fmt fn => Sys2Proof.Machine.execVsqrt b c vd va vb vc p fmt fn s
  | .vcmp b c vd va vb vc p fmt fn => Sys2Proof.Machine.execVcmp b c vd va vb vc p fmt fn s
  | .vsel b c vd va vb vc p fmt fn => Sys2Proof.Machine.execVsel b c vd va vb vc p fmt fn s
  | .vred b c vd va vb vc p fmt fn => Sys2Proof.Machine.execVred b c vd va vb vc p fmt fn s
  | .vbcast b c vd va vb vc p fmt fn => Sys2Proof.Machine.execVbcast b c vd va vb vc p fmt fn s
  | .vcvt b c vd va vb vc p fmt fn => Sys2Proof.Machine.execVcvt b c vd va vb vc p fmt fn s
  | .vld b c vd x fn => Sys2Proof.Machine.execVld b c vd x fn s
  | .vst b c vd x => Sys2Proof.Machine.execVst b c vd x s
  | .pset b c p fn => Sys2Proof.Machine.execPset b c p fn s
  | .vexp2 b c vd va vb vc p fmt fn => Sys2Proof.Machine.execVexp2 b c vd va vb vc p fmt fn s
  | .vexp b c vd va vb vc p fmt fn => Sys2Proof.Machine.execVexp b c vd va vb vc p fmt fn s
  | .vlog2 b c vd va vb vc p fmt fn => Sys2Proof.Machine.execVlog2 b c vd va vb vc p fmt fn s
  | .vlog b c vd va vb vc p fmt fn => Sys2Proof.Machine.execVlog b c vd va vb vc p fmt fn s
  | .vrcp b c vd va vb vc p fmt fn => Sys2Proof.Machine.execVrcp b c vd va vb vc p fmt fn s
  | .vrsq b c vd va vb vc p fmt fn => Sys2Proof.Machine.execVrsq b c vd va vb vc p fmt fn s
  | .vsin b c vd va vb vc p fmt fn => Sys2Proof.Machine.execVsin b c vd va vb vc p fmt fn s
  | .vcos b c vd va vb vc p fmt fn => Sys2Proof.Machine.execVcos b c vd va vb vc p fmt fn s
  | .vtanh b c vd va vb vc p fmt fn => Sys2Proof.Machine.execVtanh b c vd va vb vc p fmt fn s
  | .vsig b c vd va vb vc p fmt fn => Sys2Proof.Machine.execVsig b c vd va vb vc p fmt fn s
  | .deskB b c d sl t rsv => Sys2Proof.Machine.execDeskB b c d sl t rsv s
  | .deskA b c mask sl set j n kp t rsv => Sys2Proof.Machine.execDeskA b c mask sl set j n kp t rsv s
  | .deskDEpilogue b c d set j n t rsv => Sys2Proof.Machine.execDeskDEpilogue b c d set j n t rsv s
  | .deskDRaw b c d set j n t rsv => Sys2Proof.Machine.execDeskDRaw b c d set j n t rsv s
  | .deskDMerge b c d set j n t rsv => Sys2Proof.Machine.execDeskDMerge b c d set j n t rsv s
  | .deskDDiscard b c d set j n t rsv => Sys2Proof.Machine.execDeskDDiscard b c d set j n t rsv s
  | .deskL b c mask rsv => Sys2Proof.Machine.execDeskL b c mask rsv s
  | .deskLeaseGrant b => Sys2Proof.Machine.execDeskLeaseGrant b s
  | .deskBLoadStart b d => Sys2Proof.Machine.execDeskBLoadStart b d s
  | .deskBLoadComplete b d => Sys2Proof.Machine.execDeskBLoadComplete b d s
  | .deskPassStart b d => Sys2Proof.Machine.execDeskPassStart b d s
  | .deskRowCommit b d u => Sys2Proof.Machine.execDeskRowCommit b d u s
  | .deskRowCheckFail b d x => Sys2Proof.Machine.execDeskRowCheckFail b d x s
  | .deskRateWindowEnd b d => Sys2Proof.Machine.execDeskRateWindowEnd b d s
  | .deskDrainStart b d => Sys2Proof.Machine.execDeskDrainStart b d s
  | .deskDrainComplete b d u => Sys2Proof.Machine.execDeskDrainComplete b d u s
  | .deskMergeStart b d x => Sys2Proof.Machine.execDeskMergeStart b d x s
  | .deskDiscardEffect b d => Sys2Proof.Machine.execDeskDiscardEffect b d s
  | .deskCfgWrite b d v => Sys2Proof.Machine.execDeskCfgWrite b d v s
  | .deskClrCnt b d => Sys2Proof.Machine.execDeskClrCnt b d s
  | .deskInjDrawerCe b d => Sys2Proof.Machine.execDeskInjDrawerCe b d s
  | .deskInjParity b d => Sys2Proof.Machine.execDeskInjParity b d s
  | .deskInjResidue b d => Sys2Proof.Machine.execDeskInjResidue b d s
  | .icacheFillComplete b line => Sys2Proof.Machine.execIcacheFillComplete b line s
  | .threadStart b t => Sys2Proof.Machine.execThreadStart b t s
  | .threadStopRequest b t => Sys2Proof.Machine.execThreadStopRequest b t s
  | .benchPcWrite b t v => Sys2Proof.Machine.execBenchPcWrite b t v s
  | .dwlIdleExpiry b => Sys2Proof.Machine.execDwlIdleExpiry b s
  | .dwlEntryStart b => Sys2Proof.Machine.execDwlEntryStart b s
  | .dwlResume b => Sys2Proof.Machine.execDwlResume b s
  | .moveCopy b c rs t dir sg cnt rsv => Sys2Proof.Machine.execMoveCopy b c rs t dir sg cnt rsv s
  | .moveConvert b c rs t dir sg cnt rsv => Sys2Proof.Machine.execMoveConvert b c rs t dir sg cnt rsv s
  | .moveTranspose b c rs t dir sg cnt rsv => Sys2Proof.Machine.execMoveTranspose b c rs t dir sg cnt rsv s
  | .moveWiden b c rs t dir sg cnt rsv => Sys2Proof.Machine.execMoveWiden b c rs t dir sg cnt rsv s
  | .moveExpand b c rs t dir sg cnt rop rsv => Sys2Proof.Machine.execMoveExpand b c rs t dir sg cnt rop rsv s
  | .moveComplete b iv => Sys2Proof.Machine.execMoveComplete b iv s
  | .expanderBlockComplete b => Sys2Proof.Machine.execExpanderBlockComplete b s
  | .expInjShort b => Sys2Proof.Machine.execExpInjShort b s
  | .expClrCnt b => Sys2Proof.Machine.execExpClrCnt b s
  | .sig b c rs inc rsv => Sys2Proof.Machine.execSig b c rs inc rsv s
  | .wait b c rd rs rt consume tmo rsv => Sys2Proof.Machine.execWait b c rd rs rt consume tmo rsv s
  | .take b c rd rs rt rsv => Sys2Proof.Machine.execTake b c rd rs rt rsv s
  | .fenceB b c rsv => Sys2Proof.Machine.execFenceB b c rsv s
  | .fenceM b c rsv => Sys2Proof.Machine.execFenceM b c rsv s
  | .fenceD b c rsv => Sys2Proof.Machine.execFenceD b c rsv s
  | .fenceComplete b c => Sys2Proof.Machine.execFenceComplete b c s
  | .lopen b c rs ltag rung lad rsv => Sys2Proof.Machine.execLopen b c rs ltag rung lad rsv s
  | .lopenAnswer v attempt => Sys2Proof.Machine.execLopenAnswer v attempt s
  | .lopenTimeout b t => Sys2Proof.Machine.execLopenTimeout b t s
  | .lcommit b c rd rs rt rsv => Sys2Proof.Machine.execLcommit b c rd rs rt rsv s
  | .lcommitArrivalSend b t => Sys2Proof.Machine.execLcommitArrivalSend b t s
  | .lcommitOutcome v iv who o => Sys2Proof.Machine.execLcommitOutcome v iv who o s
  | .lcommitTimeout w who => Sys2Proof.Machine.execLcommitTimeout w who s
  | .layerAbortArrival b t => Sys2Proof.Machine.execLayerAbortArrival b t s
  | .layerOpenRequest v iv who ltag rung lad => Sys2Proof.Machine.execLayerOpenRequest v iv who ltag rung lad s
  | .layerArrival v iv who op => Sys2Proof.Machine.execLayerArrival v iv who op s
  | .layerAbortTimeout w => Sys2Proof.Machine.execLayerAbortTimeout w s
  | .flagr b c rd u rsv1 rsv2 => Sys2Proof.Machine.execFlagr b c rd u rsv1 rsv2 s
  | .flagc b c u clr rsv1 rsv2 => Sys2Proof.Machine.execFlagc b c u clr rsv1 rsv2 s
  | .sbdRecordTake t x => Sys2Proof.Machine.execSbdRecordTake t x s
  | .sbdSteprecPoll t step => Sys2Proof.Machine.execSbdSteprecPoll t step s
  | .sbdWaitTimeout t global step => Sys2Proof.Machine.execSbdWaitTimeout t global step s
  | .sbdUpdateStart l => Sys2Proof.Machine.execSbdUpdateStart l s
  | .sbdNormCollect => Sys2Proof.Machine.execSbdNormCollect s
  | .sbdNormResult => Sys2Proof.Machine.execSbdNormResult s
  | .sbdPublish l => Sys2Proof.Machine.execSbdPublish l s
  | .sbdCheckFail t again => Sys2Proof.Machine.execSbdCheckFail t again s
  | .tbyInitComplete t => Sys2Proof.Machine.execTbyInitComplete t s
  | .tbyAccess cls ia n wr flips => Sys2Proof.Machine.execTbyAccess cls ia n wr flips s
  | .tbyScrubRead t flips => Sys2Proof.Machine.execTbyScrubRead t flips s
  | .tbyRowSpareComplete t => Sys2Proof.Machine.execTbyRowSpareComplete t s
  | .tbyRemapComplete t => Sys2Proof.Machine.execTbyRemapComplete t s
  | .tbyClrCnt t => Sys2Proof.Machine.execTbyClrCnt t s
  | .tbyInjUe t => Sys2Proof.Machine.execTbyInjUe t s
  | .tbyInjCe t => Sys2Proof.Machine.execTbyInjCe t s
  | .tbyStageWrite x => Sys2Proof.Machine.execTbyStageWrite x s
  | .tbyQosWrite t v => Sys2Proof.Machine.execTbyQosWrite t v s
  | .portTrainComplete p good peer => Sys2Proof.Machine.execPortTrainComplete p good peer s
  | .portTrainRetry p => Sys2Proof.Machine.execPortTrainRetry p s
  | .portRetrain p => Sys2Proof.Machine.execPortRetrain p s
  | .portDisable p => Sys2Proof.Machine.execPortDisable p s
  | .linkLost p => Sys2Proof.Machine.execLinkLost p s
  | .flitReceive p mine good n => Sys2Proof.Machine.execFlitReceive p mine good n s
  | .markArrival p => Sys2Proof.Machine.execMarkArrival p s
  | .tmrRd v addr n => Sys2Proof.Machine.execTmrRd v addr n s
  | .tmrWr v addr data be => Sys2Proof.Machine.execTmrWr v addr data be s
  | .tmrRdc v st data => Sys2Proof.Machine.execTmrRdc v st data s
  | .tmrWrc v st => Sys2Proof.Machine.execTmrWrc v st s
  | .syncResponse v st a => Sys2Proof.Machine.execSyncResponse v st a s
  | .tmrRtoExpiry dest tc seq => Sys2Proof.Machine.execTmrRtoExpiry dest tc seq s
  | .flowIdleExpiry m tc => Sys2Proof.Machine.execFlowIdleExpiry m tc s
  | .tmrRtWrite m v => Sys2Proof.Machine.execTmrRtWrite m v s
  | .tmrQuotaWrite tc q => Sys2Proof.Machine.execTmrQuotaWrite tc q s
  | .counterSignal v iv who inc => Sys2Proof.Machine.execCounterSignal v iv who inc s
  | .counterWait v iv who threshold consume tmo => Sys2Proof.Machine.execCounterWait v iv who threshold consume tmo s
  | .counterTake v iv who amount => Sys2Proof.Machine.execCounterTake v iv who amount s
  | .counterRestore v iv who amount => Sys2Proof.Machine.execCounterRestore v iv who amount s
  | .counterStore iv x who => Sys2Proof.Machine.execCounterStore iv x who s
  | .notify v iv who r threshold consume => Sys2Proof.Machine.execNotify v iv who r threshold consume s
  | .waitBusyRetry b t => Sys2Proof.Machine.execWaitBusyRetry b t s
  | .waitDeadlineExpiry x who => Sys2Proof.Machine.execWaitDeadlineExpiry x who s
  | .waitBackstopExpiry b t => Sys2Proof.Machine.execWaitBackstopExpiry b t s
  | .waitCancel v iv who => Sys2Proof.Machine.execWaitCancel v iv who s
  | .cancelAnswer v a => Sys2Proof.Machine.execCancelAnswer v a s
  | .notifyResultExpiry x who => Sys2Proof.Machine.execNotifyResultExpiry x who s
  | .lendStart b => Sys2Proof.Machine.execLendStart b s
  | .deskUngate b => Sys2Proof.Machine.execDeskUngate b s
  | .lendHalfRateEnd b => Sys2Proof.Machine.execLendHalfRateEnd b s
  | .trsSnapshot g => Sys2Proof.Machine.execTrsSnapshot g s
  | .trsSend g => Sys2Proof.Machine.execTrsSend g s
  | .trsSendComplete g => Sys2Proof.Machine.execTrsSendComplete g s
  | .trsClose g => Sys2Proof.Machine.execTrsClose g s
  | .trsApply g unread => Sys2Proof.Machine.execTrsApply g unread s
  | .trsApplyComplete g => Sys2Proof.Machine.execTrsApplyComplete g s
  | .trsDataReceive p frame => Sys2Proof.Machine.execTrsDataReceive p frame s
  | .trsAckReceive p frame => Sys2Proof.Machine.execTrsAckReceive p frame s
  | .trsNackReceive p frame => Sys2Proof.Machine.execTrsNackReceive p frame s
  | .trsNackTimer iv g round => Sys2Proof.Machine.execTrsNackTimer iv g round s
  | .trsLastResendTimer iv g round => Sys2Proof.Machine.execTrsLastResendTimer iv g round s
  | .trsTxbufFullTimer => Sys2Proof.Machine.execTrsTxbufFullTimer s
  | .trsFprintReceive p frame => Sys2Proof.Machine.execTrsFprintReceive p frame s
  | .hello p frame => Sys2Proof.Machine.execHello p frame s
  | .trsHelloTimer => Sys2Proof.Machine.execTrsHelloTimer s
  | .trsPartnerSilence iv => Sys2Proof.Machine.execTrsPartnerSilence iv s
  | .lineage p frame => Sys2Proof.Machine.execLineage p frame s
  | .requestJoin p frame => Sys2Proof.Machine.execRequestJoin p frame s
  | .requestRepair p frame => Sys2Proof.Machine.execRequestRepair p frame s
  | .requestRecon p frame => Sys2Proof.Machine.execRequestRecon p frame s
  | .requestBlist p frame => Sys2Proof.Machine.execRequestBlist p frame s
  | .bfp p frame => Sys2Proof.Machine.execBfp p frame s
  | .adelta p frame => Sys2Proof.Machine.execAdelta p frame s
  | .endXfer p frame => Sys2Proof.Machine.execEnd p frame s
  | .ready p frame => Sys2Proof.Machine.execReady p frame s
  | .trsRequestRetry slot => Sys2Proof.Machine.execTrsRequestRetry slot s
  | .trsEnable => Sys2Proof.Machine.execTrsEnable s
  | .trsDisable => Sys2Proof.Machine.execTrsDisable s
  | .trsPartWrite iv v => Sys2Proof.Machine.execTrsPartWrite iv v s
  | .trsPipelineCheckFail p again => Sys2Proof.Machine.execTrsPipelineCheckFail p again s
  | .crystalFailure xb => Sys2Proof.Machine.execCrystalFailure xb s
  | .clkFreqWrite v => Sys2Proof.Machine.execClkFreqWrite v s
  | .freqChangeComplete => Sys2Proof.Machine.execFreqChangeComplete s
  | .crossingOverrun second cdie v => Sys2Proof.Machine.execCrossingOverrun second cdie v s
  | .gtNowLoRead who => Sys2Proof.Machine.execGtNowLoRead who s
  | .announce p m => Sys2Proof.Machine.execAnnounce p m s
  | .sync p m => Sys2Proof.Machine.execSync p m s
  | .followUp p m => Sys2Proof.Machine.execFollowUp p m s
  | .delayReq p m => Sys2Proof.Machine.execDelayReq p m s
  | .delayResp p m => Sys2Proof.Machine.execDelayResp p m s
  | .signaling p m => Sys2Proof.Machine.execSignaling p m s
  | .ptpMessageTimer p kind => Sys2Proof.Machine.execPtpMessageTimer p kind s
  | .ppsInEdge => Sys2Proof.Machine.execPpsInEdge s
  | .ppsSeenExpiry => Sys2Proof.Machine.execPpsSeenExpiry s
  | .gtMeasurementTimeout => Sys2Proof.Machine.execGtMeasurementTimeout s
  | .markOutPulse => Sys2Proof.Machine.execMarkOutPulse s
  | .gtSet v => Sys2Proof.Machine.execGtSet v s
  | .pcieMemWrite addr data be => Sys2Proof.Machine.execPcieMemWrite addr data be s
  | .pcieMemRead tag addr n => Sys2Proof.Machine.execPcieMemRead tag addr n s
  | .pcieConfigWrite w => Sys2Proof.Machine.execPcieConfigWrite w s
  | .mbxSubmit mask => Sys2Proof.Machine.execMbxSubmit mask s
  | .mbxAck mask => Sys2Proof.Machine.execMbxAck mask s
  | .mbxTake => Sys2Proof.Machine.execMbxTake s
  | .moduleInfo iv => Sys2Proof.Machine.execModuleInfo iv s
  | .moduleStatus iv => Sys2Proof.Machine.execModuleStatus iv s
  | .moduleReset iv => Sys2Proof.Machine.execModuleReset iv s
  | .jobLoad iv => Sys2Proof.Machine.execJobLoad iv s
  | .jobStart iv => Sys2Proof.Machine.execJobStart iv s
  | .jobStop iv => Sys2Proof.Machine.execJobStop iv s
  | .jobUnload iv => Sys2Proof.Machine.execJobUnload iv s
  | .mapModule iv => Sys2Proof.Machine.execMapModule iv s
  | .mapRoutes iv => Sys2Proof.Machine.execMapRoutes iv s
  | .mapShards iv => Sys2Proof.Machine.execMapShards iv s
  | .numSet iv => Sys2Proof.Machine.execNumSet iv s
  | .numElog iv => Sys2Proof.Machine.execNumElog iv s
  | .sbdEnable iv => Sys2Proof.Machine.execSbdEnable iv s
  | .sbdExport iv => Sys2Proof.Machine.execSbdExport iv s
  | .farEnable iv => Sys2Proof.Machine.execFarEnable iv s
  | .farDisable iv => Sys2Proof.Machine.execFarDisable iv s
  | .farPartner iv => Sys2Proof.Machine.execFarPartner iv s
  | .timeSet iv => Sys2Proof.Machine.execTimeSet iv s
  | .timeSource iv => Sys2Proof.Machine.execTimeSource iv s
  | .powerStatus iv => Sys2Proof.Machine.execPowerStatus iv s
  | .powerCap iv => Sys2Proof.Machine.execPowerCap iv s
  | .secCert iv => Sys2Proof.Machine.execSecCert iv s
  | .secKeyx iv => Sys2Proof.Machine.execSecKeyx iv s
  | .logEvents iv => Sys2Proof.Machine.execLogEvents iv s
  | .logErrcopy iv => Sys2Proof.Machine.execLogErrcopy iv s
  | .fwStage iv => Sys2Proof.Machine.execFwStage iv s
  | .fwActivate iv => Sys2Proof.Machine.execFwActivate iv s
  | .commandComplete op => Sys2Proof.Machine.execCommandComplete op s
  | .eventAccept n => Sys2Proof.Machine.execEventAccept n s
  | .msixHoldoffExpiry v => Sys2Proof.Machine.execMsixHoldoffExpiry v s
  | .mctpControl src m => Sys2Proof.Machine.execMctpControl src m s
  | .getSensorReading src sensor v => Sys2Proof.Machine.execGetSensorReading src sensor v s
  | .pldmFwUpdate src m => Sys2Proof.Machine.execPldmFwUpdate src m s
  | .mctpVendorMailbox src body => Sys2Proof.Machine.execMctpVendorMailbox src body s
  | .getVersion mctp src req => Sys2Proof.Machine.execGetVersion mctp src req s
  | .getCapabilities mctp src req => Sys2Proof.Machine.execGetCapabilities mctp src req s
  | .negotiateAlgorithms mctp src req => Sys2Proof.Machine.execNegotiateAlgorithms mctp src req s
  | .getDigests mctp src req => Sys2Proof.Machine.execGetDigests mctp src req s
  | .getCertificate mctp src slot off n req => Sys2Proof.Machine.execGetCertificate mctp src slot off n req s
  | .challenge mctp src slot req => Sys2Proof.Machine.execChallenge mctp src slot req s
  | .getMeasurements mctp src idx sign req => Sys2Proof.Machine.execGetMeasurements mctp src idx sign req s
  | .spdmUnsupportedRequest mctp src => Sys2Proof.Machine.execSpdmUnsupportedRequest mctp src s
  | .takeoverStart b => Sys2Proof.Machine.execTakeoverStart b s
  | .takeoverWaitExpiry b => Sys2Proof.Machine.execTakeoverWaitExpiry b s
  | .takeoverComplete b => Sys2Proof.Machine.execTakeoverComplete b s
  | .hutchLockstepMismatch p => Sys2Proof.Machine.execHutchLockstepMismatch p s
  | .availSaveTimer => Sys2Proof.Machine.execAvailSaveTimer s
  | .powerOnReset adc xa => Sys2Proof.Machine.execPowerOnReset adc xa s
  | .systemReset adc => Sys2Proof.Machine.execSystemReset adc s
  | .coreReset => Sys2Proof.Machine.execCoreReset s
  | .rstBootGo => Sys2Proof.Machine.execRstBootGo s
  | .bootWatchdogExpiry => Sys2Proof.Machine.execBootWatchdogExpiry s
  | .resetNLowCore => Sys2Proof.Machine.execResetNLowCore s
  | .resetNLowSystem => Sys2Proof.Machine.execResetNLowSystem s
  | .resetNRelease adc => Sys2Proof.Machine.execResetNRelease adc s
  | .resetNDriveEnd => Sys2Proof.Machine.execResetNDriveEnd s
  | .perstAssert => Sys2Proof.Machine.execPerstAssert s
  | .pcieHotReset => Sys2Proof.Machine.execPcieHotReset s
  | .thermalTrip => Sys2Proof.Machine.execThermalTrip s
  | .thermalRecover adc xa => Sys2Proof.Machine.execThermalRecover adc xa s
  | .busbarUndervoltage => Sys2Proof.Machine.execBusbarUndervoltage s
  | .busbarOvervoltage => Sys2Proof.Machine.execBusbarOvervoltage s
  | .busbarVoltageRecover adc xa => Sys2Proof.Machine.execBusbarVoltageRecover adc xa s
  | .busbarOvercurrent => Sys2Proof.Machine.execBusbarOvercurrent s
  | .hotswapRetry adc xa => Sys2Proof.Machine.execHotswapRetry adc xa s
  | .presentNBreak => Sys2Proof.Machine.execPresentNBreak s
  | .powerManagerStep doms busbar loss => Sys2Proof.Machine.execPowerManagerStep doms busbar loss s
  | .pwrCapWrite v => Sys2Proof.Machine.execPwrCapWrite v s
  | .ppsOutClaim en => Sys2Proof.Machine.execPpsOutClaim en s
  | .calMarkClaim en => Sys2Proof.Machine.execCalMarkClaim en s
  | .dbgTriggerClaim en => Sys2Proof.Machine.execDbgTriggerClaim en s
  | .alarmSweepClaim en => Sys2Proof.Machine.execAlarmSweepClaim en s
  | .alarmSweep => Sys2Proof.Machine.execAlarmSweep s
  | .clkTrimSettled => Sys2Proof.Machine.execClkTrimSettled s
  | .gtCorrectionSpent => Sys2Proof.Machine.execGtCorrectionSpent s
  | .gtUncertaintyLimit => Sys2Proof.Machine.execGtUncertaintyLimit s
  | .trsRoundBegin => Sys2Proof.Machine.execTrsRoundBegin s
  | .waitQuotaTimeout b t => Sys2Proof.Machine.execWaitQuotaTimeout b t s
  | .i3cDynamicAddress a => Sys2Proof.Machine.execI3cDynamicAddress a s
  | .pldmDiscovery src m => Sys2Proof.Machine.execPldmDiscovery src m s
  | .doeDiscovery idx => Sys2Proof.Machine.execDoeDiscovery idx s
  | .announceReceiptTimeout p => Sys2Proof.Machine.execAnnounceReceiptTimeout p s
  | .pcieLinkUp rate width => Sys2Proof.Machine.execPcieLinkUp rate width s
  | .sensorThresholdCrossing sensor die v => Sys2Proof.Machine.execSensorThresholdCrossing sensor die v s

end Sys2Proof.Machine
end

