-- ==== Sys2Proof/Machine/Tick.lean ====
section
/-!
DEFINITION. What happens when no command waits: one period of the arithmetic clock passes (log 10). Counters of
stalled cycles count (03 R74, R77, R87, R100; 05 R167), global time advances with the 100 MHz reference (14 R409),
MARK_OUT falls (14 R414), and what was held is served.
-/
namespace Sys2Proof.Machine

/-- Whether the head of a Desk's queue waits for a B slot or for a set that drains (03 R74, R77). -/
def State.slotWait (s : State) (b d : Nat) : Bool :=
  let x := s.desk b d
  match x.queue with
  | [] => false
  | e :: _ => match e.op with
    | .pass _ sl set _ _ _ => (match x.load with
        | some (k, _) => k == sl || x.wide
        | none => false) || s.setDraining b d set
    | .load sl => x.load.isSome || x.slotBusy sl || ((tileOf e.desc).fmt == 4 && x.slotBusy 1)
    | _ => false

/-- Whether a pass of a Desk waits for an A row that is not readable (03 R87, 05 R167). -/
def State.rowWait (s : State) (b d : Nat) : Bool :=
  let x := s.desk b d
  match x.passes with
  | [] => false
  | p :: _ => match p.ent.op with
    | .pass _ _ _ _ _ kp =>
      let t := tileOf p.ent.desc
      (FMap.get? x.buf p.next).isNone && s.pendingAt b (t.elem p.next 0) (kp * t.width)
    | _ => false

/-- Whether a Desk has no A row streaming because its next pass waits on a pending line, directly or through the load
of its slot (05 R167). -/
def State.lineWait (s : State) (b d : Nat) : Bool :=
  let x := s.desk b d
  s.rowWait b d || (x.passes.isEmpty && (match x.queue, x.load with
    | e :: _, some (sl, l) => (match e.op with
      | .pass _ k _ _ _ _ => (k == sl || x.wide) && s.tilePending b (tileOf l.desc) (tileOf l.desc).rows (tileOf l.desc).cols
      | _ => false)
    | _, _ => false))

/-- The counters of stalled cycles count one cycle, of the Benches whose C-die has one (14 R404). -/
def State.countStalls (s : State) : State :=
  let s := s.desks.foldl (fun s p =>
    let b := p.1 / 4
    let d := p.1 % 4
    if !s.dieRuns (b / 100) then s
    else
    let s := if s.slotWait b d then s.incSat (A.deskStall b d) F.deskStall.BSLOT 1 else s
    if s.rowWait b d then s.incSat (A.deskStall b d) F.deskStall.SHELF 1 else s) s
  s.benches.foldl (fun s p =>
    if s.dieRuns (p.1 / 100) && !p.2.pend.isEmpty && (List.range 4).any (s.lineWait p.1) then s.incSat (A.expStall p.1) F.expStall.CYC 1 else s) s

/-- Global time advances at every tick of the 100 MHz reference (14 R399, R409); while a correction is slewed its
uncertainty falls, and its validity is judged afresh (R415). -/
def State.gtAdvance (s : State) : State :=
  if s.pulse % 8 != 0 then s
  else if s.gt.corr = 0 then s.putGt s.gt.tick
  else (s.putGt s.gt.tick).gtJudge

/-- PLLs that had lost lock have it again (14 R400, R420). -/
def State.relockAll (s : State) : State :=
  s.clk.relockAt.foldl (fun s p =>
    if p.2 ≤ s.pulse then
      (s.setBit A.clkStat F.clkStat.LOCK p.1 true).putClk { s.clk with relockAt := FMap.del s.clk.relockAt p.1 }
    else s) s

/-- The time for which a Bench could have lent begins afresh where its condition does not hold (11 R338). -/
def State.lendWatch (s : State) : State :=
  s.benches.foldl (fun s p =>
    if p.2.lend.lending || s.mayLend p.1 then s
    else s.modBench p.1 (fun x => { x with lend := { x.lend with since := s.pulse } })) s

/-- MARK_OUT falls at the end of its pulse (14 R414, 12 R350); the debug trigger's level is its own (18 R489). -/
def State.markFall (s : State) : State :=
  if s.clk.mark && s.fld A.clkMark F.clkMark.HOLDER != 3 && decide (s.clk.markUntil ≤ s.pulse) then s.driveMark false else s

/-- What waited is served as far as it may be: transactions without a route fail, and accesses held by their memory, writes of
registers, the boot ROM's reads, the host's requests and far frames go on. -/
def State.serveAll (s : State) : State :=
  let s := s.failDead.serveHeld.regDrain
  let s := if s.rst.goWait then s.bootGo else s
  let s := s.hostDrain s.tmr.held.length
  if s.trs.wait.isEmpty then s else s.flushFar

/-- One period of the arithmetic clock. What software had set again in the last cycle acts first (00 R7). -/
def State.tick (s : State) : State :=
  let s := s.putPulse (s.pulse + 1)
  if !s.rst.on then s
  else s.runAgain.countSkipped.gtAdvance.relockAll.markFall.countStalls.lendWatch.serveAll

end Sys2Proof.Machine
end

