-- ==== Sys2Proof/Safety.lean ====
section
/-!
DEFINITION. What counts as a safe run, in the terms the claims use.
-/
namespace Sys2Proof.Machine

/-- A step that completed: it answered a next state. -/
def completes (o : Out) : Prop := ∃ t, o = .next t

/-- A step that stopped with the sender's fault: its command describes no transaction that the spec has. -/
def senderFault (o : Out) : Prop := o = .fault .noSuchTransaction

/-- The memory is in its canonical form: what every statement about memory as data rests on. -/
abbrev State.memOk (s : State) : Prop := Memory.wf s.mem

/-- The memory and the register map are in their canonical forms, so that equal contents are equal data. -/
abbrev State.canonical (s : State) : Prop := s.memOk ∧ FMap.wf s.regs

/-- The pieces of the state but the queue: one for each field. -/
inductive Part where
  /-- The control registers, by local address. -/
  | regs
  /-- The RWO fields written since the last wider reset, by address and field (00 R6, R8). -/
  | rwo
  /-- Tallboy and Shelf bytes. -/
  | mem
  /-- The Benches. -/
  | benches
  /-- The Desks, Desk `d` of Bench `b` at 4 × b + d. -/
  | desks
  /-- The Bench map where it differs from that of a module without defects: logical to physical number (01 R19, R22). -/
  | map
  /-- The free spares of each C-die, by physical number, where they differ (01 R19). -/
  | spares
  /-- The Tallboys. -/
  | tby
  /-- The Timir fabric. -/
  | tmr
  /-- The sync table. -/
  | sync
  /-- The event arbiter. -/
  | evt
  /-- Global time. -/
  | gt
  /-- The clocks. -/
  | clk
  /-- Faults and continuity. -/
  | flt
  /-- The Sideboards. -/
  | sbd
  /-- The Trestle. -/
  | trs
  /-- The PCIe endpoint. -/
  | pcie
  /-- The security engine. -/
  | sec
  /-- The firmware of the Hutch. -/
  | hut
  /-- The boot flash. -/
  | flash
  /-- The fuses. -/
  | fuse
  /-- Reset and power-up. -/
  | rst
  /-- The power manager. -/
  | pwr
  /-- Management over I3C and DOE. -/
  | mgmt
  /-- The sequence number of the next entry of each log, by its control register (06 R196). -/
  | logSeq
  /-- Accesses of this module that a clock crossing has lost (14 R407). -/
  | lost
  /-- What has happened in the present cycle (00 R7). -/
  | cyc
  /-- Periods of the arithmetic clock since the model began: the model's time. -/
  | pulse
  /-- The pulse at the last reset of any level, from which `BENCH_CYC` counts (04 R148). -/
  | cycZero
  /-- The cycles that each C-die's arithmetic clock has skipped since then (17 R477). -/
  | skipped
  /-- How many free values have been drawn. -/
  | fresh
  /-- What has left the module, oldest first. -/
  | out
  deriving DecidableEq, Repr

/-- The number of a piece, its bit in a mask of pieces. -/
def Part.idx : Part → Nat
  | .regs => 0
  | .rwo => 1
  | .mem => 2
  | .benches => 3
  | .desks => 4
  | .map => 5
  | .spares => 6
  | .tby => 7
  | .tmr => 8
  | .sync => 9
  | .evt => 10
  | .gt => 11
  | .clk => 12
  | .flt => 13
  | .sbd => 14
  | .trs => 15
  | .pcie => 16
  | .sec => 17
  | .hut => 18
  | .flash => 19
  | .fuse => 20
  | .rst => 21
  | .pwr => 22
  | .mgmt => 23
  | .logSeq => 24
  | .lost => 25
  | .cyc => 26
  | .pulse => 27
  | .cycZero => 28
  | .skipped => 29
  | .fresh => 30
  | .out => 31

/-- A piece of the state is the same in two states. -/
def State.sameAt (o s : State) : Part → Prop
  | .regs => s.regs = o.regs
  | .rwo => s.rwo = o.rwo
  | .mem => s.mem = o.mem
  | .benches => s.benches = o.benches
  | .desks => s.desks = o.desks
  | .map => s.map = o.map
  | .spares => s.spares = o.spares
  | .tby => s.tby = o.tby
  | .tmr => s.tmr = o.tmr
  | .sync => s.sync = o.sync
  | .evt => s.evt = o.evt
  | .gt => s.gt = o.gt
  | .clk => s.clk = o.clk
  | .flt => s.flt = o.flt
  | .sbd => s.sbd = o.sbd
  | .trs => s.trs = o.trs
  | .pcie => s.pcie = o.pcie
  | .sec => s.sec = o.sec
  | .hut => s.hut = o.hut
  | .flash => s.flash = o.flash
  | .fuse => s.fuse = o.fuse
  | .rst => s.rst = o.rst
  | .pwr => s.pwr = o.pwr
  | .mgmt => s.mgmt = o.mgmt
  | .logSeq => s.logSeq = o.logSeq
  | .lost => s.lost = o.lost
  | .cyc => s.cyc = o.cyc
  | .pulse => s.pulse = o.pulse
  | .cycZero => s.cycZero = o.cycZero
  | .skipped => s.skipped = o.skipped
  | .fresh => s.fresh = o.fresh
  | .out => s.out = o.out

/-- Two states differ at most in the pieces listed; the queue is the same as well. -/
def State.onlyIn (l : List Part) (o s : State) : Prop := s.pending = o.pending ∧ ∀ p, p ∉ l → o.sameAt s p

/-- The pieces of the state that a command can write; it leaves every other alone. -/
def touches : Instr → List Part
  | .registerWrite .. | .st ..
    => [.regs, .rwo, .mem, .benches, .desks, .map, .spares, .tby, .tmr, .sync, .evt, .gt, .clk, .flt, .sbd, .trs,
    .hut, .flash, .fuse, .rst, .pwr, .lost, .cyc, .fresh, .out]
  | .nop .. | .yield .. | .deferFlush .. | .dend .. | .stop .. | .add .. | .sub .. | .and .. | .or .. | .xor ..
  | .shl .. | .shr .. | .sra .. | .mul .. | .mulh .. | .div .. | .rem .. | .slt .. | .sltu .. | .min .. | .max ..
  | .li .. | .lih .. | .ctr .. | .beq .. | .bne .. | .blt .. | .bge .. | .bltu .. | .bgeu .. | .jal .. | .jalr ..
  | .ld8 .. | .ld16 .. | .ld32 .. | .ld64 .. | .tld .. | .tbase .. | .torg .. | .vadd .. | .vsub .. | .vmul ..
  | .vfma .. | .vmin .. | .vmax .. | .vdiv .. | .vsqrt .. | .vcmp .. | .vsel .. | .vred .. | .vbcast .. | .vcvt ..
  | .vld .. | .pset .. | .vexp2 .. | .vexp .. | .vlog2 .. | .vlog .. | .vrcp .. | .vrsq .. | .vsin .. | .vcos ..
  | .vtanh .. | .vsig .. | .deskB .. | .deskA .. | .deskDEpilogue .. | .deskDRaw .. | .deskDMerge ..
  | .deskDDiscard .. | .deskL .. | .deskBLoadStart .. | .deskBLoadComplete .. | .deskPassStart .. | .deskRowCommit ..
  | .deskDrainStart .. | .deskMergeStart .. | .deskDiscardEffect .. | .threadStopRequest .. | .sig .. | .wait ..
  | .take .. | .fenceB .. | .fenceM .. | .fenceD .. | .lopen .. | .lcommit .. | .flagr .. | .flagc ..
  | .waitBusyRetry .. | .waitBackstopExpiry ..
    => [.regs, .benches, .desks, .tmr, .sync, .evt, .flt, .cyc, .fresh, .out]
  | .defer .. | .tst .. | .vst .. | .deskDrainComplete ..
    => [.regs, .mem, .benches, .desks, .tmr, .sync, .evt, .flt, .cyc, .fresh, .out]
  | .deferPush ..
    => [.regs, .mem, .benches]
  | .dwlEntryEnd .. | .deskLeaseGrant .. | .fenceComplete .. | .lendStart .. | .lendHalfRateEnd ..
    => [.regs, .benches]
  | .scalarLoadComplete ..
    => [.regs, .mem, .benches, .desks, .tby, .tmr, .sync, .evt, .gt, .flt, .lost, .cyc, .fresh, .out]
  | .deskRowCheckFail .. | .dwlIdleExpiry .. | .dwlEntryStart .. | .lopenTimeout ..
    => [.regs, .benches, .desks, .evt, .flt, .cyc]
  | .deskRateWindowEnd .. | .deskInjDrawerCe .. | .deskInjParity .. | .deskInjResidue ..
    => [.desks]
  | .deskCfgWrite .. | .mbxAck ..
    => [.regs, .cyc]
  | .deskClrCnt .. | .benchPcWrite .. | .expClrCnt .. | .tbyClrCnt .. | .tbyQosWrite ..
    => [.regs]
  | .icacheFillComplete ..
    => [.regs, .mem, .benches, .tby, .evt, .lost, .cyc, .fresh]
  | .threadStart .. | .dwlResume ..
    => [.regs, .benches, .cyc]
  | .moveCopy .. | .moveConvert .. | .moveTranspose .. | .moveWiden .. | .moveExpand .. | .moveComplete ..
  | .tbyInitComplete .. | .tmrRd .. | .tmrWr ..
    => [.regs, .mem, .benches, .desks, .tby, .tmr, .sync, .evt, .flt, .sbd, .lost, .cyc, .fresh, .out]
  | .expanderBlockComplete ..
    => [.regs, .mem, .benches, .tby, .tmr, .evt, .lost, .cyc, .fresh, .out]
  | .expInjShort .. | .takeoverWaitExpiry ..
    => [.benches]
  | .lopenAnswer .. | .tmrRdc .. | .tmrWrc .. | .syncResponse .. | .tmrRtoExpiry .. | .notify .. | .cancelAnswer ..
    => [.regs, .benches, .desks, .tmr, .sync, .evt, .flt, .sbd, .cyc, .fresh, .out]
  | .lcommitArrivalSend .. | .layerAbortArrival ..
    => [.regs, .benches, .tmr, .sync, .evt, .cyc, .fresh, .out]
  | .lcommitOutcome ..
    => [.regs, .benches, .tmr, .sync, .evt, .fresh, .out]
  | .lcommitTimeout .. | .layerArrival .. | .layerAbortTimeout ..
    => [.regs, .mem, .benches, .tby, .tmr, .sync, .evt, .sbd, .logSeq, .lost, .cyc, .fresh, .out]
  | .layerOpenRequest .. | .counterSignal .. | .counterRestore .. | .counterStore .. | .waitDeadlineExpiry ..
    => [.regs, .benches, .tmr, .sync, .evt, .sbd, .cyc, .fresh, .out]
  | .sbdRecordTake .. | .sbdUpdateStart ..
    => [.regs, .mem, .benches, .tby, .tmr, .sync, .evt, .flt, .sbd, .lost, .cyc, .fresh, .out]
  | .sbdSteprecPoll ..
    => [.regs, .mem, .tby, .evt, .sbd, .lost, .cyc, .fresh]
  | .sbdWaitTimeout ..
    => [.regs, .evt, .sbd]
  | .sbdNormCollect
    => [.regs, .mem, .benches, .tby, .tmr, .sync, .evt, .sbd, .lost, .cyc, .fresh, .out]
  | .sbdNormResult
    => [.regs, .mem, .tby, .sync, .evt, .sbd, .lost, .cyc, .fresh]
  | .sbdPublish ..
    => [.regs, .mem, .benches, .tby, .tmr, .sync, .evt, .flt, .sbd, .trs, .logSeq, .lost, .cyc, .fresh, .out]
  | .sbdCheckFail ..
    => [.regs, .evt, .flt, .sbd, .cyc]
  | .tbyAccess ..
    => [.regs, .mem, .tby, .tmr, .evt, .sbd, .cyc, .fresh, .out]
  | .tbyScrubRead ..
    => [.regs, .mem, .tby, .evt, .cyc, .fresh]
  | .tbyRowSpareComplete .. | .tbyRemapComplete ..
    => [.regs, .mem, .tby, .evt, .flt, .cyc, .fresh]
  | .tbyInjUe .. | .tbyInjCe ..
    => [.tby]
  | .tbyStageWrite ..
    => [.regs, .evt, .cyc]
  | .portTrainComplete .. | .portTrainRetry .. | .portRetrain .. | .portDisable .. | .linkLost .. | .flitReceive ..
    => [.regs, .tmr, .evt, .gt, .clk, .flt, .fresh, .out]
  | .markArrival .. | .flowIdleExpiry ..
    => [.tmr]
  | .tmrRtWrite ..
    => [.regs, .tmr]
  | .tmrQuotaWrite ..
    => [.regs, .benches, .tmr, .fresh, .out]
  | .counterWait .. | .waitCancel ..
    => [.regs, .tmr, .sync, .evt, .fresh, .out]
  | .counterTake ..
    => [.regs, .tmr, .sync, .evt, .cyc, .fresh, .out]
  | .notifyResultExpiry ..
    => [.sync]
  | .deskUngate ..
    => [.benches, .fresh]
  | .trsSnapshot .. | .trsApply ..
    => [.regs, .mem, .benches, .tby, .evt, .clk, .sbd, .trs, .logSeq, .lost, .cyc, .fresh, .out]
  | .trsSend ..
    => [.regs, .mem, .benches, .tby, .evt, .clk, .sbd, .trs, .lost, .cyc, .fresh, .out]
  | .trsSendComplete .. | .trsDisable | .trsRoundBegin
    => [.regs, .trs]
  | .trsClose ..
    => [.regs, .evt, .clk, .trs, .fresh, .out]
  | .trsApplyComplete ..
    => [.regs, .mem, .benches, .tby, .evt, .sbd, .trs, .logSeq, .lost, .cyc, .fresh, .out]
  | .trsDataReceive .. | .trsAckReceive .. | .trsNackReceive .. | .trsNackTimer .. | .trsFprintReceive .. | .hello ..
  | .trsHelloTimer | .trsPartnerSilence .. | .requestJoin .. | .requestRepair .. | .requestRecon .. | .bfp ..
  | .ready .. | .trsRequestRetry ..
    => [.regs, .evt, .trs, .fresh, .out]
  | .trsLastResendTimer ..
    => [.regs, .trs, .fresh, .out]
  | .trsTxbufFullTimer
    => [.evt, .trs]
  | .lineage .. | .requestBlist ..
    => [.regs, .mem, .tby, .evt, .trs, .lost, .cyc, .fresh, .out]
  | .adelta .. | .endXfer ..
    => [.regs, .mem, .benches, .tby, .evt, .sbd, .trs, .lost, .cyc, .fresh, .out]
  | .trsEnable
    => [.regs, .mem, .benches, .tby, .evt, .sbd, .trs, .lost, .cyc, .fresh]
  | .trsPartWrite ..
    => [.regs, .evt, .trs]
  | .trsPipelineCheckFail ..
    => [.regs, .evt, .flt, .trs]
  | .crystalFailure ..
    => [.regs, .evt, .clk, .flt, .fresh]
  | .clkFreqWrite ..
    => [.regs, .clk]
  | .freqChangeComplete
    => [.regs, .mem, .benches, .desks, .tby, .tmr, .sync, .evt, .clk, .flt, .sbd, .lost, .cyc, .fresh, .out]
  | .crossingOverrun ..
    => [.regs, .benches, .desks, .tmr, .sync, .evt, .flt, .sbd, .lost, .cyc, .fresh, .out]
  | .gtNowLoRead ..
    => [.regs, .gt, .flt, .fresh]
  | .announce .. | .announceReceiptTimeout ..
    => [.regs, .gt]
  | .sync .. | .followUp .. | .signaling ..
    => [.gt]
  | .delayReq .. | .getSensorReading .. | .spdmUnsupportedRequest .. | .doeDiscovery ..
    => [.out]
  | .delayResp .. | .gtSet ..
    => [.regs, .evt, .gt, .cyc, .fresh]
  | .ptpMessageTimer ..
    => [.gt, .out]
  | .ppsInEdge
    => [.regs, .evt, .gt, .clk, .cyc, .fresh]
  | .ppsSeenExpiry
    => [.regs, .clk, .fresh]
  | .gtMeasurementTimeout | .gtCorrectionSpent
    => [.regs, .evt, .gt]
  | .markOutPulse ..
    => [.clk, .out]
  | .pcieMemWrite .. | .pcieMemRead .. | .jobLoad .. | .mapModule .. | .mapRoutes .. | .numSet .. | .numElog ..
  | .sbdEnable .. | .sbdExport .. | .timeSet .. | .timeSource .. | .logEvents ..
    => [.regs, .rwo, .mem, .benches, .desks, .map, .spares, .tby, .tmr, .sync, .evt, .gt, .clk, .flt, .sbd, .trs,
    .pcie, .hut, .flash, .fuse, .rst, .pwr, .lost, .cyc, .fresh, .out]
  | .pcieConfigWrite .. | .msixHoldoffExpiry ..
    => [.pcie, .out]
  | .mbxSubmit ..
    => [.regs, .hut, .cyc]
  | .mbxTake
    => [.regs, .rwo, .mem, .benches, .desks, .map, .spares, .tby, .tmr, .sync, .evt, .gt, .clk, .flt, .sbd, .trs,
    .pcie, .sec, .hut, .flash, .fuse, .rst, .pwr, .lost, .cyc, .fresh, .out]
  | .moduleInfo .. | .moduleStatus .. | .powerStatus ..
    => [.regs, .mem, .pcie, .hut, .out]
  | .moduleReset ..
    => [.regs, .mem, .pcie, .hut, .rst, .out]
  | .jobStart ..
    => [.regs, .mem, .benches, .flt, .pcie, .hut, .cyc, .out]
  | .jobStop ..
    => [.regs, .mem, .benches, .desks, .tmr, .sync, .evt, .flt, .pcie, .hut, .cyc, .fresh, .out]
  | .jobUnload ..
    => [.regs, .mem, .flt, .pcie, .hut, .out]
  | .mapShards .. | .secCert .. | .logErrcopy ..
    => [.regs, .mem, .benches, .tby, .evt, .sbd, .pcie, .hut, .lost, .cyc, .fresh, .out]
  | .farEnable ..
    => [.regs, .mem, .benches, .tby, .evt, .sbd, .trs, .pcie, .hut, .lost, .cyc, .fresh, .out]
  | .farDisable ..
    => [.regs, .mem, .trs, .pcie, .hut, .out]
  | .farPartner ..
    => [.regs, .mem, .evt, .trs, .pcie, .hut, .out]
  | .powerCap ..
    => [.regs, .mem, .pcie, .hut, .pwr, .out]
  | .secKeyx ..
    => [.regs, .mem, .benches, .tby, .evt, .sbd, .trs, .pcie, .sec, .hut, .lost, .cyc, .fresh, .out]
  | .fwStage ..
    => [.regs, .mem, .tby, .evt, .pcie, .hut, .flash, .lost, .cyc, .fresh, .out]
  | .fwActivate ..
    => [.regs, .mem, .pcie, .hut, .flash, .rst, .out]
  | .commandComplete ..
    => [.regs, .evt, .hut]
  | .eventAccept ..
    => [.regs, .mem, .benches, .tby, .evt, .sbd, .pcie, .flash, .lost, .cyc, .fresh, .out]
  | .mctpControl .. | .getVersion .. | .getCapabilities .. | .negotiateAlgorithms .. | .getDigests ..
  | .getCertificate .. | .pldmDiscovery .. | .sensorThresholdCrossing ..
    => [.mgmt, .out]
  | .pldmFwUpdate ..
    => [.regs, .evt, .hut, .flash, .rst, .mgmt, .out]
  | .mctpVendorMailbox ..
    => [.regs, .mem, .hut, .cyc, .out]
  | .challenge .. | .getMeasurements ..
    => [.mgmt, .fresh, .out]
  | .takeoverStart ..
    => [.regs, .benches, .evt, .flt]
  | .takeoverComplete ..
    => [.regs, .mem, .benches, .desks, .map, .spares, .tby, .tmr, .sync, .evt, .flt, .sbd, .flash, .lost, .cyc,
    .fresh, .out]
  | .hutchLockstepMismatch ..
    => [.regs, .evt, .flt]
  | .availSaveTimer
    => [.regs, .flt, .flash]
  | .powerOnReset .. | .systemReset .. | .resetNLowSystem | .thermalTrip | .busbarUndervoltage | .busbarOvervoltage
  | .busbarOvercurrent | .presentNBreak
    => [.regs, .rwo, .mem, .benches, .desks, .map, .spares, .tby, .tmr, .sync, .evt, .gt, .clk, .flt, .sbd, .trs,
    .pcie, .sec, .hut, .flash, .fuse, .rst, .pwr, .mgmt, .logSeq, .lost, .cyc, .pulse, .cycZero, .skipped, .fresh,
    .out]
  | .coreReset
    => [.regs, .mem, .benches, .desks, .tby, .tmr, .sync, .evt, .flt, .sbd, .flash, .rst, .lost, .cyc, .cycZero,
    .skipped, .fresh, .out]
  | .rstBootGo
    => [.regs, .rwo, .mem, .benches, .map, .spares, .tby, .evt, .flt, .flash, .fuse, .rst, .lost, .cyc, .fresh]
  | .bootWatchdogExpiry
    => [.flash, .rst]
  | .resetNLowCore
    => [.regs, .mem, .benches, .desks, .tby, .tmr, .sync, .evt, .flt, .sbd, .flash, .rst, .lost, .cyc, .cycZero,
    .skipped, .fresh]
  | .resetNRelease ..
    => [.regs, .rwo, .benches, .map, .spares, .tmr, .evt, .gt, .clk, .flt, .flash, .fuse, .rst, .cycZero, .skipped,
    .fresh, .out]
  | .resetNDriveEnd
    => [.rst, .out]
  | .perstAssert | .pcieHotReset
    => [.regs, .tmr, .pcie, .rst, .cyc]
  | .thermalRecover .. | .busbarVoltageRecover .. | .hotswapRetry ..
    => [.regs, .rwo, .benches, .map, .spares, .tmr, .evt, .gt, .clk, .flt, .flash, .fuse, .rst, .cyc, .cycZero,
    .skipped, .fresh, .out]
  | .powerManagerStep ..
    => [.regs, .benches, .evt, .pwr, .cyc, .fresh]
  | .pwrCapWrite ..
    => [.regs, .pwr]
  | .ppsOutClaim .. | .calMarkClaim .. | .dbgTriggerClaim ..
    => [.regs, .evt, .clk, .cyc, .out]
  | .alarmSweepClaim ..
    => [.regs, .evt, .clk, .cyc]
  | .alarmSweep
    => [.evt, .clk]
  | .clkTrimSettled
    => [.regs, .fresh]
  | .gtUncertaintyLimit
    => [.regs, .evt]
  | .waitQuotaTimeout ..
    => [.regs, .benches, .desks, .tmr, .evt, .flt, .cyc]
  | .i3cDynamicAddress ..
    => [.mgmt]
  | .pcieLinkUp ..
    => [.pcie]

/-! ### A context and its instruction -/

/-- An instruction of form `f` issues now (04 R104, R106, R107, R109, R122, R515): its context can issue, its line is in
the instruction cache and its fetch did not fail, no scalar register it names waits for a load, and its context and its
reserved bits make it legal. -/
def State.issues (s : State) (b : Nat) (c : Ctx) (f : Form) : Bool :=
  s.canIssue b c && !(s.bench b).ifail.contains (s.pc b c / 64 * 64) && (s.bench b).icache.contains (s.pc b c / 64 * 64) &&
    !f.sregs.any (s.loading b c) && (formCause c f).isNone

/-- The registers that the issue of an instruction can write beside those of its own effect: the context's PC and state, and
the bit that says whether its Bench lends (04 R142, R143; 11 R339). -/
def issueRegs (b : Nat) (c : Ctx) : List Nat :=
  A.syncLent (b / 64) :: (if c = .D then [] else [A.benchPc b c.idx, A.benchThr b c.idx])

/-- From `s` to `t` nothing changed but context `c` of Bench `b` and what its issue writes: memory, the Desks, every other
register, every other Bench and the Bench's other contexts are the same, and nothing left the module. -/
structure State.ownCtx (s t : State) (b : Nat) (c : Ctx) : Prop where
  pieces : s.onlyIn [.regs, .benches] t
  regs : ∀ a, a ∉ issueRegs b c → t.rd a = s.rd a
  benches : ∀ b', b' ≠ b → t.bench b' = s.bench b'
  contexts : ∀ c', c' ≠ c → t.ctx b c' = s.ctx b c'

/-- The register files of a context but its scalar registers are the same. -/
def State.sameFiles (s t : State) (b : Nat) (c : Ctx) : Prop :=
  (∀ r, t.v b c r = s.v b c r) ∧ (∀ r, t.t b c r = s.t b c r) ∧ (∀ r, t.p b c r = s.p b c r)

/-- The scalar registers of a context are the same but for `rd`, which holds `v`; `s0` reads zero (04 R109). -/
def State.scalarIs (s t : State) (b : Nat) (c : Ctx) (rd : Nat) (v : Word) : Prop :=
  ∀ r, t.s b c r = if r = rd ∧ r ≠ 0 then v else s.s b c r

/-- The address of the next instruction word (04 R143). -/
def State.nextPc (s : State) (b : Nat) (c : Ctx) : Nat := (s.pc b c + 8) % 2 ^ 64

/-- What no command undoes, from a state `o` to a state `s`: the queue behind the command stands as it was; memory and
registers stay canonical; the model's time and its count of free values never run back; what has left the module has
left it; the security version of the fuses never falls (17 R474) and the other fuses never change. `msk` masks pieces
that stay the same besides. -/
structure State.Keeps (msk : Nat) (o s : State) : Prop where
  pending : s.pending = o.pending
  mem : s.memOk
  regs : FMap.wf s.regs
  pulse : o.pulse ≤ s.pulse
  fresh : o.fresh ≤ s.fresh
  out : o.out <+: s.out
  svn : o.fuse.svn ≤ s.fuse.svn
  defects : s.fuse.defects = o.fuse.defects
  serial : s.fuse.serial = o.fuse.serial
  same : ∀ p : Part, msk.testBit p.idx = true → o.sameAt s p

/-- An outcome keeps what no command undoes: its next state does, where it has one. -/
def outKeeps (msk : Nat) (o : State) (r : Out) : Prop := ∀ t, r = .next t → o.Keeps msk t

/-! ### Effects of instructions -/

/-- An instruction that issued went to the next word; its context's registers are as they were, and so is everything
else. -/
def State.wentOn (s t : State) (b : Nat) (c : Ctx) : Prop :=
  s.scalarIs t b c 0 0 ∧ s.sameFiles t b c ∧ t.pc b c = s.nextPc b c ∧ s.ownCtx t b c

/-- An instruction that issued wrote `v` to scalar register `rd`, went to the next word, and changed nothing else. -/
def State.wroteS (s t : State) (b : Nat) (c : Ctx) (rd : Nat) (v : Word) : Prop :=
  s.scalarIs t b c rd v ∧ s.sameFiles t b c ∧ t.pc b c = s.nextPc b c ∧ s.ownCtx t b c

/-- An instruction that issued jumped to `a`, and changed nothing else but scalar register `rd`, which holds `v`. -/
def State.jumped (s t : State) (b : Nat) (c : Ctx) (rd : Nat) (v : Word) (a : Int) : Prop :=
  s.scalarIs t b c rd v ∧ s.sameFiles t b c ∧ (t.pc b c : Int) = a ∧ s.ownCtx t b c

/-- An instruction that issued wrote `v` to descriptor register `r`, went to the next word, and changed nothing else. -/
def State.wroteT (s t : State) (b : Nat) (c : Ctx) (r : Nat) (v : TWord) : Prop :=
  (∀ x, t.t b c x = if x = r then v else s.t b c x) ∧ (∀ x, t.s b c x = s.s b c x) ∧ (∀ x, t.v b c x = s.v b c x) ∧
    (∀ x, t.p b c x = s.p b c x) ∧ t.pc b c = s.nextPc b c ∧ s.ownCtx t b c

/-- An instruction that issued wrote `v` to vector register `r`, went to the next word, and changed nothing else. -/
def State.wroteV (s t : State) (b : Nat) (c : Ctx) (r : Nat) (v : VWord) : Prop :=
  (∀ x, t.v b c x = if x = r then v else s.v b c x) ∧ (∀ x, t.s b c x = s.s b c x) ∧ (∀ x, t.t b c x = s.t b c x) ∧
    (∀ x, t.p b c x = s.p b c x) ∧ t.pc b c = s.nextPc b c ∧ s.ownCtx t b c

/-- An instruction that issued wrote `v` to predicate register `r`, went to the next word, and changed nothing else; `p0`
reads all ones (04 R109). -/
def State.wroteP (s t : State) (b : Nat) (c : Ctx) (r : Nat) (v : TWord) : Prop :=
  (∀ x, t.p b c x = if x = r ∧ x ≠ 0 then v else s.p b c x) ∧ (∀ x, t.s b c x = s.s b c x) ∧ (∀ x, t.t b c x = s.t b c x) ∧
    (∀ x, t.v b c x = s.v b c x) ∧ t.pc b c = s.nextPc b c ∧ s.ownCtx t b c

/-- An instruction at a context's PC comes to its checks: its context can issue, its line is in the instruction cache and
its fetch did not fail. -/
def State.atIssue (s : State) (b : Nat) (c : Ctx) : Bool :=
  s.canIssue b c && !(s.bench b).ifail.contains (s.pc b c / 64 * 64) && (s.bench b).icache.contains (s.pc b c / 64 * 64)

/-- A context stopped on an illegal instruction (04 R107, R108, R123): its state and cause say so, its fault address is
that of the instruction, its registers and memory are as they were, and the Bench error event of the stop was raised. -/
def State.stoppedAt (s t : State) (b : Nat) (c : Ctx) (cause : Nat) : Prop :=
  (match c with
   | .D => t.fld (A.benchDwlStat b) F.benchDwlStat.RUNNING = 0 ∧ t.fld (A.benchDwlStat b) F.benchDwlStat.FAULTED = 1 ∧
      t.fld (A.benchDwlStat b) F.benchDwlStat.CAUSE = cause
   | _ => t.fld (A.benchThr b c.idx) F.benchThr.STATE = 0 ∧ t.fld (A.benchThr b c.idx) F.benchThr.CAUSE = cause) ∧
    t.fld (A.benchFaddr b c.idx) F.benchFaddr.ADDR = s.pc b c % 2 ^ F.benchFaddr.ADDR.width ∧
    t.pc b c = s.pc b c ∧ s.scalarIs t b c 0 0 ∧ s.sameFiles t b c ∧ t.mem = s.mem ∧
    t.evt.raised = if s.evt.accepting
      then s.evt.raised ++ [⟨0x80, evSource 1 b,
        leBytes 8 (s.pc b c) ++ leBytes 2 (whoBits b c) ++ [BitVec.ofNat 8 cause] ++ leBytes 5 0⟩]
      else s.evt.raised

/-- The lanes of a vector instruction (04 R110): lane `i` of `vd` holds the result `r i` where the predicate's bit is set
and is kept elsewhere, the vector unit's flags have taken those of the selected lanes (02 R37), and the context went to
the next word; its other registers and memory are as they were. -/
def State.tookLanes (s t : State) (b : Nat) (c : Ctx) (f : Fmt) (vd p : Nat) (r : Nat → Nat × Flags) : Prop :=
  (∀ i < laneCount f, lane (t.v b c vd).toNat f.width i =
    if (s.p b c p).getLsbD i then (r i).1 % 2 ^ f.width else lane (s.v b c vd).toNat f.width i) ∧
  (∀ x, x ≠ vd → t.v b c x = s.v b c x) ∧ s.scalarIs t b c 0 0 ∧ (∀ x, t.t b c x = s.t b c x) ∧
  (∀ x, t.p b c x = s.p b c x) ∧ t.pc b c = s.nextPc b c ∧ t.mem = s.mem ∧
  ∀ k < 4, (t.rd (A.numVflag b)).getLsbD k = ((s.rd (A.numVflag b)).getLsbD k ||
    (List.range (laneCount f)).any (fun i => (s.p b c p).getLsbD i && (r i).2.bits.testBit k))

/-- The NaN trap of a context is off (06 R180, R199), so no trap event stops it. -/
def State.untrapped (s : State) (b : Nat) (c : Ctx) : Prop := s.fldBit (A.numCtl b) F.numCtl.TRAP c.idx = false

/-- The codewords of some Tallboy bytes read good: they hold no error, none has been found uncorrectable, and no injection
waits at their stack (09 R271, R286). -/
def State.soundAt (s : State) (ia n : Nat) : Prop :=
  ∀ cw ∈ cwsOf ia n, s.upsets cw = [] ∧ (s.stack (stackOf cw)).ue.contains cw = false ∧
    (s.stack (stackOf cw)).injUe = false ∧ (s.stack (stackOf cw)).injCe = false

/-- A context became BLOCKED in its instruction, for `k`: a thread's state says so, its PC is that of the next word, and its
registers and memory are as they were (04 R104). -/
def State.blockedFor (s t : State) (b : Nat) (c : Ctx) (k : Blk) : Prop :=
  (t.ctx b c).blk = some k ∧ (c ≠ .D → t.fld (A.benchThr b c.idx) F.benchThr.STATE = 2) ∧ t.pc b c = s.nextPc b c ∧
    s.scalarIs t b c 0 0 ∧ s.sameFiles t b c ∧ t.mem = s.mem

/-- The entry image at an offset stands at the tail of the deferred list, with the identity and the step of the thread that
pushed it (04 R119). -/
def State.pushedImage (s t : State) (b : Nat) (c : Ctx) (img : Nat) : Prop :=
  let st := A.benchDwlStat b
  let slot := s.dwlOff b (s.fld st F.benchDwlStat.TAIL)
  t.dwlCount b = s.dwlCount b + 1 ∧ t.fld st F.benchDwlStat.TAIL = (s.fld st F.benchDwlStat.TAIL + 1) % 64 ∧
    t.fld st F.benchDwlStat.HEAD = s.fld st F.benchDwlStat.HEAD ∧
    (∀ i < 128, i < 8 ∨ 16 ≤ i → t.mem.byte (shelfKey b (slot + i)) = s.mem.byte (shelfKey b (img + i))) ∧
    bits (t.shelfNum b (slot + 8) 8) 4 4 = c.idx ∧ bits (t.shelfNum b (slot + 8) 8) 63 16 = s.stepOf b c % 2 ^ 48 ∧
    ∀ a, a < shelfKey b slot ∨ shelfKey b slot + 128 ≤ a → t.mem.byte a = s.mem.byte a

/-- The running entry of the deferred list has ended (04 R122): it is counted and has left the list, and its Desks have
returned. -/
def State.endedEntry (s t : State) (b : Nat) : Prop :=
  let st := A.benchDwlStat b
  t.fld st F.benchDwlStat.RUNNING = 0 ∧ t.dwlCount b = s.dwlCount b - 1 ∧
    t.fld st F.benchDwlStat.DONE = (s.fld st F.benchDwlStat.DONE + 1) % 2 ^ 32 ∧
    t.fld st F.benchDwlStat.HEAD = (s.fld st F.benchDwlStat.HEAD + 1) % 64 ∧
    t.fld (A.benchLease b) F.benchLease.LENT = 0 ∧ (t.bench b).entry = none ∧ t.mem = s.mem

/-- The head entry of the deferred list has started (04 R121): it has borrowed the Desks of its mask, and runs at its PROG with
its scalars and its tile table; where either cannot be used the context has stopped with cause 0x13. -/
def State.beganEntry (s t : State) (b : Nat) : Prop :=
  let st := A.benchDwlStat b
  let off := s.dwlOff b (s.fld st F.benchDwlStat.HEAD)
  let ttab := bits (s.shelfNum b (off + 72) 8) 21 0
  t.mem = s.mem ∧
    if s.shelfNum b off 8 % 8 = 0 ∧ ttab % 32 = 0 ∧ ttab + 256 ≤ 3 * 2 ^ 20 then
      t.flag st F.benchDwlStat.RUNNING = true ∧ t.pc b .D = s.shelfNum b off 8 ∧
        t.fld (A.benchLease b) F.benchLease.LENT = bits (s.shelfNum b (off + 8) 8) 3 0 ∧
        (∀ r, 1 ≤ r → r ≤ 7 → (t.s b .D r).toNat = s.shelfNum b (off + 8 * (r + 1)) 8) ∧
        ∀ k < 8, (t.t b .D k).toNat = s.shelfNum b (ttab + 32 * k) 32
    else t.fld st F.benchDwlStat.RUNNING = 0 ∧ t.fld st F.benchDwlStat.FAULTED = 1 ∧ t.fld st F.benchDwlStat.CAUSE = 0x13

/-- Everything that holds the first entry of a Desk's queue back is out of the way: the Desk works (03 R92; 11 R339;
16 R451), and the entry is the given one. -/
def State.atHead (s : State) (b d : Nat) (e : DeskEnt) : Prop :=
  (s.desk b d).queue.head? = some e ∧ s.deskWorks b d = true

/-- A failed check of a Desk was replayed (03 R90, R91, R101): it is counted, its set and kind recorded, and no total, register
file or byte of memory has changed. -/
def State.replayedOnce (s t : State) (b d set : Nat) (parity : Bool) : Prop :=
  t.fld (A.deskRas b d) F.deskRas.REPLAYS = min (s.fld (A.deskRas b d) F.deskRas.REPLAYS + 1) (2 ^ F.deskRas.REPLAYS.width - 1) ∧
    t.fld (A.deskRas b d) F.deskRas.LAST_SET = set % 2 ^ F.deskRas.LAST_SET.width ∧
    t.fld (A.deskRas b d) (if parity then F.deskRas.PARITY else F.deskRas.RESIDUE) = 1 ∧
    (t.desk b d).tot = (s.desk b d).tot ∧ t.benches = s.benches ∧ t.mem = s.mem

/-- The rows of a tile do not overlap: no element of it shares a byte with another. -/
def Tile.apart (t : Tile) : Prop := t.rows = 1 ∨ t.cols * t.width ≤ t.stride

/-- The expander reads bytes of a move's far side now, and no more happens: they lie in this module's Shelves, or have
come. -/
def State.farGot (s : State) (b k a n : Nat) (l : List Byte) : Prop := s.expRead b k a n = (s, .got l)

/-- A synchronisation operation reaches the home of its counter (10 R301; 11 R328), `m` the module it comes from: it is on
its way within this module, or it comes over the fabric for this module and for the first time. -/
def State.reaches (s : State) (v : Via) (i : Nat) (w : Who) (op : SyncOp) (m : Nat) : Prop :=
  (s.isOwn v = true ∧ (i, w, op) ∈ s.sync.inbox ∧ m = s.modnum) ∨
    (s.isOwn v = false ∧ s.portUp v.port = true ∧ s.forMe v = true ∧ (s.arrive v).2 = .fresh ∧ m = v.src)

/-- No transaction that waits at its source is a wait of this identity (10 R312). -/
def State.noWait (s : State) (w : Who) : Prop := ∀ t ∈ s.tmr.waitq, ∀ i x op, t.req = .sync i x op → x ≠ w

/-- A context that waited runs again: nothing blocks it, and a thread's state says so (04 R104). -/
def State.runsAgain (t : State) (b : Nat) (c : Ctx) : Prop :=
  (t.ctx b c).blk = none ∧ (c ≠ .D → t.fld (A.benchThr b c.idx) F.benchThr.STATE = 1)

/-- The answer of a local operation is on its way to its issuer (11 R328). -/
def State.answersWith (s t : State) (v : Via) (i : Nat) (w : Who) (a : SyncAns) : Prop :=
  s.isOwn v = true → t.sync.answers = s.sync.answers ++ [(i, w, a)]

/-! ### Registers, events and memory -/

/-- Among the events that a command raised is one with a code, a source and a payload, where events are accepted
(15 R435, R438); its payload is filled with zeros to 16 B. -/
def State.raises (s t : State) (code source : Nat) (pay : List Byte) : Prop :=
  s.evt.accepting = true → ⟨code, source, (pay ++ leBytes 16 0).take 16⟩ ∈ t.evt.raised.drop s.evt.raised.length

/-- One register holds a value, and every other register what it held. -/
def State.regIs (s t : State) (a : Nat) (v : Word) : Prop := ∀ x, t.rd x = if x = a then v else s.rd x

/-- Registers without an action of their own, of every block: a write does what their access codes say and nothing
else. -/
def plainRegs (b : BenchNo) (d : DeskNo) (k : Stack) (i : Fin 8) : List Nat :=
  [A.numStep b 0, A.numStep b 1, A.numCtl b, A.numVflag b, A.benchLease b, A.deskStat b d, A.deskRas b d, A.numDflag b d,
    A.moveErr b, A.expErr b, A.tbyErr k, A.tbyScrub k, A.tbySpare k, A.tbyRgn i, A.tbyRgnStat, A.sbdCtl k, A.sbdLtab k,
    A.sbdNorm, A.sbdRas k, A.tmrCtl, A.tmrErr, A.tmrTcsel i, A.syncTmo, A.syncLend, A.trsStat, A.trsOuter, A.trsRecon,
    A.numSeed, A.numMode, A.numLadder, A.mbxCtl, A.mbxRwin, A.mbxAper, A.gtSets, A.rstCause, A.rstCtl, A.pwrStat, A.pwrDom i,
    A.conflict, A.evtMsix, A.evtFltCtl]

/-- Bytes of memory at an address, and every other byte as it was. -/
def State.bytesAre (s t : State) (a : Nat) (l : List Byte) : Prop :=
  ∀ x, t.mem.byte x = if a ≤ x ∧ x < a + l.length then l.getD (x - a) 0 else s.mem.byte x

/-- A claim was refused (18 R491): it is counted and recorded, the claimant's bit is set, and event 0xB5 reports it where
the bit was clear. -/
def State.refusedTo (s t : State) (res clm holder : Nat) : Prop :=
  t.fld A.conflict F.conflict.COUNT = min (s.fld A.conflict F.conflict.COUNT + 1) 0xFFFF ∧
    t.fld A.conflict F.conflict.LASTRES = res ∧ t.fld A.conflict F.conflict.LASTCLM = clm ∧
    t.fldBit A.conflict (conflictFld res) (clm - 1) = true ∧ (∀ a, a ≠ A.conflict → t.rd a = s.rd a) ∧
    (s.fldBit A.conflict (conflictFld res) (clm - 1) = false →
      s.raises t 0xB5 (evSource 0 0) [BitVec.ofNat 8 res, BitVec.ofNat 8 clm, BitVec.ofNat 8 holder])

/-! ### Mailboxes and the host -/

/-- Mailbox `i` holds a request with this code and payload whose command may run now, and it is not of the MCTP path
(15 R428, R429, R431, R447). -/
def State.asks (s : State) (i code : Nat) (p : List Byte) : Prop :=
  s.rst.on = true ∧ s.takes i code = true ∧ s.mctpOwns i = false ∧ field (s.request i) 2 2 = p.length ∧
    ((s.request i).drop 16).take p.length = p

/-- The firmware answered mailbox `i` (15 R427, R429, R430): it is DONE and its response slot holds the echoed code and
tag, the status, the detail, the operation number of an ACCEPTED command, and the payload. -/
def State.gaveAnswer (s t : State) (i code status detail : Nat) (pay : List Byte) : Prop :=
  t.mbxDone i = true ∧ t.mbxBusy i = false ∧ i ∉ t.hut.order ∧
    t.mem.read (slotBase + 512 * i + 256) (16 + pay.length) = leBytes 2 code ++ leBytes 2 pay.length ++
      leBytes 4 (field (s.request i) 4 4) ++ leBytes 2 status ++ leBytes 2 detail ++
      leBytes 4 (if status = 1 then (s.hut.opNo + 1) % 2 ^ 32 else 0) ++ pay

/-- The firmware answered ACCEPTED (15 R430, R431): the command is in progress under the next operation number, and its
completion will report `final`. -/
def State.acceptedFor (s t : State) (i code final : Nat) : Prop :=
  s.gaveAnswer t i code 1 0 [] ∧ t.hut.opNo = (s.hut.opNo + 1) % 2 ^ 32 ∧
    ⟨t.hut.opNo, code, i, field (s.request i) 4 4, final⟩ ∈ t.hut.ops

/-- The row of a mailbox command, by its code (15 R432). -/
def commandRow (i : MboxNo) (code : Nat) (c : Instr) : Prop :=
  (code, c) ∈ [(0x0100, .moduleInfo i), (0x0101, .moduleStatus i), (0x0102, .moduleReset i), (0x0200, .jobLoad i),
    (0x0201, .jobStart i), (0x0202, .jobStop i), (0x0203, .jobUnload i), (0x0300, .mapModule i), (0x0301, .mapRoutes i),
    (0x0302, .mapShards i), (0x0400, .numSet i), (0x0401, .numElog i), (0x0500, .sbdEnable i), (0x0501, .sbdExport i),
    (0x0600, .farEnable i), (0x0601, .farDisable i), (0x0602, .farPartner i), (0x0700, .timeSet i), (0x0701, .timeSource i),
    (0x0800, .powerStatus i), (0x0801, .powerCap i), (0x0900, .secCert i), (0x0901, .secKeyx i), (0x0A00, .logEvents i),
    (0x0A01, .logErrcopy i), (0x0B00, .fwStage i), (0x0B01, .fwActivate i)]

/-- From `u` to `t` nothing changed but what the answer of mailbox `i` writes: its ownership bits, its response slot
of `n` bytes, the firmware's and the endpoint's records, and what is sent. -/
def State.replied (u t : State) (i n : Nat) : Prop :=
  u.onlyIn [.regs, .mem, .pcie, .hut, .out] t ∧ (∀ a, a ≠ A.mbxOwn → t.rd a = u.rd a) ∧
    ∀ x, ¬ (slotBase + 512 * i + 256 ≤ x ∧ x < slotBase + 512 * i + 256 + n) → t.mem.byte x = u.mem.byte x

/-- A command answered a status without a payload and had no other effect. -/
def State.onlyAnswered (s t : State) (i code status detail : Nat) : Prop :=
  s.gaveAnswer t i code status detail [] ∧ s.replied t i 16

/-- The firmware writes registers in order, 8 B each. -/
def State.writes (s : State) (l : List (Nat × Nat)) : State := l.foldl (fun s r => s.regWrite hutchWho r.1 8 r.2) s

/-! ### Sideboards -/

/-- The step record of a step lies where Sideboard `j` looks for it (08 R235), in a codeword without an error. -/
def State.recordAt (s : State) (j step : Nat) : Prop :=
  ∃ ia, locOf (s.fld (A.sbdSteprec j) F.sbdSteprec.ADDR * 64 + 64 * (step % 16)) = .tby ia ∧
    numAt (s.mem.read ia 64) 0 6 = step ∧ s.soundAt ia 64 ∧ s.lost = []

/-- A control frame to a partner can go out at once (12 R345; 13 R385; 17 R483): a gateway port qualifies, none of its frames waits, its
slot has a key to send with, and the round has a number left. -/
def State.canTell (s : State) (i : Nat) : Prop :=
  s.gatePorts ≠ [] ∧ (∀ f ∈ s.trs.wait, f.part ≠ i) ∧ s.ctlCount i < 2 ^ 30 ∧
    (s.keyOf (s.partKey i) (s.fld (A.secKey (s.partKey i)) F.secKey.TXEP)).isSome = true

/-- The reference site that event 0x69 names for an FPRINT frame's first slot (13 R382, R397): none outside a reconciliation round. -/
def State.namedSite (s : State) (body : List Byte) : Nat :=
  let m := numAt body 0 4
  let k := s.fld A.trsRecon F.trsRecon.K
  if k = 0 ∨ m % k ≠ 0 then 0 else s.reference (numAt body 24 2) m k

/-- One control or fingerprint frame was sent to a partner (13 R385). -/
def State.toldOnce (s t : State) (i : Nat) : Prop :=
  (t.part i).ctlRound = s.roundNow ∧
    (t.part i).ctlSent = (if (s.part i).ctlRound = s.roundNow then (s.part i).ctlSent else 0) + 1

/-! ### Resets -/

/-- The `RWO` fields are as after a wide reset (00 R8): `MODNUM` holds its reset value and a write of a module that is on
sets it; so is `EPOCH` until the firmware has written its reset count there (10 R302). -/
def State.onceFresh (t : State) : Prop :=
  t.fld A.tmrId F.tmrId.MODNUM = 0x3FFF ∧
    (∀ v, t.rst.on = true → (t.regWrite hutchWho A.tmrId 8 v).fld A.tmrId F.tmrId.MODNUM = v % 2 ^ 14) ∧
    (A.tmrId * 64 + F.tmrId.EPOCH.lo ∈ t.rwo → t.fld A.tmrId F.tmrId.EPOCH = t.flash.resets % 256) ∧
    (A.tmrId * 64 + F.tmrId.EPOCH.lo ∉ t.rwo → t.fld A.tmrId F.tmrId.EPOCH = 0 ∧
      ∀ v, t.rst.on = true → (t.regWrite hutchWho A.tmrId 8 v).fld A.tmrId F.tmrId.EPOCH = v / 2 ^ 56 % 256)

end Sys2Proof.Machine
end

