-- ==== Sys2Proof/Certificates/Slice0/Obligations.lean ====
section
/-!
DEFINITION. The statements for the provers. Those about one family say of each of its commands where it completes with its own
effect, and what that effect is.
-/

open Sys2Proof Sys2Proof.Machine

/-- A step with a command at the front of the queue is that command's meaning on the state with the queue's rest (the
queue of commands is the model's own form of what the module receives). -/
def Obligations.StepTakesFront : Prop :=
  ∀ (c : Instr) (r : List Instr) (s : State), s.pending = c :: r → step s = exec c (s.putPending r)

/-- The model's choice (log 10): a step on an empty queue is one period of the arithmetic clock, and answers a next
state whose queue is empty; BENCH_CYC of a Bench counts it unless the throttle of its C-die removes the pulse (04
R148; 14 R404; which pulses of 64 a throttle removes is the model's choice, log 10); while the module is off nothing
else changes. -/
def Obligations.EmptyQueueTicks : Prop :=
  ∀ s : State, s.canonical → s.pending = [] →
    ∃ t, step s = .next t ∧ t.pulse = s.pulse + 1 ∧ t.pending = [] ∧
      (s.rst.on = true → s.cyc = SameCycle.none → ∀ b : BenchNo, t.benchCyc b = s.pulse + 1 - s.cycZero -
        (FMap.getD s.skipped (b.val / 100) 0 + (if (s.pulse + 1) % 64 < s.throttle (b.val / 100) then 0 else 1))) ∧
      (s.rst.on = false → t = s.putPulse (s.pulse + 1))

/-- The state after reset lists no memory byte and no register, so it is in the canonical form that CanonicalKept says
every step keeps; its queue is empty, no thread and no DWL context runs, and no event is accepted. -/
def Obligations.ResetCanonical : Prop :=
  State.reset.canonical ∧ State.reset.pending = [] ∧ (∀ (b : BenchNo) (c : Ctx), State.reset.live b c = false) ∧
    State.reset.evt.accepting = false

/-- Right after reset the registers of every kind hold the values that their tables give: geometry, Bench, Desk,
Tallboy, Sideboard, fabric, synchronisation, Trestle, clock, time, reset, power and event registers. -/
def Obligations.ResetValues : Prop :=
  State.reset.fld A.geoCfg0 F.geoCfg0.BENCHES = 800 ∧ State.reset.fld A.geoCfg0 F.geoCfg0.TALLBOYS = 16 ∧
  State.reset.fld A.geoCfg0 F.geoCfg0.DESKS = 4 ∧ State.reset.fld A.geoCfg0 F.geoCfg0.CDIES = 8 ∧
  State.reset.fld A.geoCfg0 F.geoCfg0.MEM_GIB = 1536 ∧ State.reset.fld A.geoCfg0 F.geoCfg0.SHELF_KIB = 3072 ∧
  (∀ b : BenchNo, State.reset.rd (A.benchThr b 0) = 0 ∧ State.reset.rd (A.benchThr b 1) = 0 ∧
    State.reset.fld (A.benchDwl b) F.benchDwl.IDLE = 0x40 ∧ State.reset.fld (A.benchDwl b) F.benchDwl.BASE = 0x17F ∧
    State.reset.fld (A.benchLease b) F.benchLease.WF = 1 ∧ State.reset.fld (A.benchLease b) F.benchLease.WB = 1) ∧
  (∀ (b : BenchNo) (d : Fin 4), State.reset.rd (A.deskCfg b d) = 0x200 ∧
    State.reset.fld (A.deskCtl b d) F.deskCtl.RATE = 64 ∧
    State.reset.fld (A.deskCtl b d) F.deskCtl.RETRY = 3) ∧
  (∀ t : Fin 16, State.reset.fld (A.tbyStat t) F.tbyStat.INIT = 0) ∧
  (∀ c : Fin 8, State.reset.fld (A.tmrTc c) F.tmrTc.DCLS = c.val / 2) ∧
  State.reset.fld A.tmrId F.tmrId.MODNUM = 0x3FFF ∧ State.reset.fld A.syncTmo F.syncTmo.DEFAULT = 1000000 ∧
  State.reset.fld A.trsCtl F.trsCtl.EN = 0 ∧ State.reset.fld A.clkFreq F.clkFreq.FAB = 1000 ∧
  State.reset.fld A.gtStat F.gtStat.STATE = 0 ∧ State.reset.fld A.rstCause F.rstCause.POR = 1 ∧
  State.reset.fld A.pwrCap F.pwrCap.CAP = 10500 ∧ State.reset.fld A.evtHealth F.evtHealth.CAP = 0xFFFF

/-- In every state whose memory and register map are canonical (addresses rising, no zero byte listed), a step that
answers a next state leaves them canonical, whatever command runs, so equal contents stay equal data. -/
def Obligations.CanonicalKept : Prop :=
  ∀ s t : State, s.canonical → step s = .next t → t.canonical

/-- In every canonical state a step that answers a next state takes at most the front command from the queue and adds
none, never turns the model's time or its count of free values back, takes back nothing that has left the module,
never lowers the security version of the fuses (17 R474), and leaves the factory fuses (defective Benches, serial
number) as they are. -/
def Obligations.NothingUndone : Prop :=
  ∀ s t : State, s.canonical → step s = .next t →
    t.pending = s.pending.tail ∧ s.pulse ≤ t.pulse ∧ s.fresh ≤ t.fresh ∧ s.out <+: t.out ∧ s.fuse.svn ≤ t.fuse.svn ∧
      t.fuse.defects = s.fuse.defects ∧ t.fuse.serial = s.fuse.serial

/-- No command is refused in any state, and each answers a next state, a fabric read or write and a Tallboy access
whenever their operands describe a transaction of the spec (10 R295, 09 R269). One whose operands describe none (no
byte, bytes beyond its 256 B block or its codeword, an address beyond 2^50, enables that do not fit the data) ends in
the sender's fault and in nothing else. -/
def Obligations.CommandsComplete : Prop :=
  ∀ (c : Instr) (s : State),
    ((∀ v a n, c = .tmrRd v a n → 0 < n ∧ a % 256 + n ≤ 256 ∧ a < 2 ^ 50) →
      (∀ v a d be, c = .tmrWr v a d be → d ≠ [] ∧ a % 256 + d.length ≤ 256 ∧ a < 2 ^ 50 ∧ be.length = d.length) →
      (∀ cls ia n wr fl, c = .tbyAccess cls ia n wr fl → 0 < n ∧ ia % 64 + n ≤ 64 ∧
        ∀ d be, wr = some (d, be) → d.length = n ∧ be.length = n) → ∃ t, exec c s = .next t) ∧
    (∀ v a n, c = .tmrRd v a n → n = 0 ∨ 256 < a % 256 + n ∨ 2 ^ 50 ≤ a → senderFault (exec c s)) ∧
    (∀ v a d be, c = .tmrWr v a d be → d = [] ∨ 256 < a % 256 + d.length ∨ 2 ^ 50 ≤ a ∨ be.length ≠ d.length →
      senderFault (exec c s)) ∧
    ∀ cls ia n wr fl, c = .tbyAccess cls ia n wr fl →
      n = 0 ∨ 64 < ia % 64 + n ∨ (∃ d be, wr = some (d, be) ∧ (d.length ≠ n ∨ be.length ≠ n)) → senderFault (exec c s)

/-- In every canonical state, a command that answers a next state leaves every piece of the state alone but those
listed for it (`touches`), and the rest of the queue as it is: a Desk injection touches only the Desks, a
synchronisation answer no memory, a management request no register of the arithmetic, and so on for all 317 commands.
-/
def Obligations.CommandPieces : Prop :=
  ∀ (c : Instr) (s t : State), s.canonical → exec c s = .next t → s.onlyIn (touches c) t

/-- Where an instruction of the scalar ALU issues (04 R106, R107, R122, R139), it completes: RD takes the operation of
RS1 and the second operand, which is RS2 or the sign-extended immediate; s0 stays zero (R109); the PC goes to the next
word (R143); every other register, context, Bench and all of memory stay as they are. Division by zero gives all ones,
a remainder by zero the dividend, and shifts use bits [5:0]. That a signed quotient is truncated toward zero and a
remainder takes the dividend's sign is the model's choice (log 30). -/
def Obligations.ScalarAlu : Prop :=
  ∀ (b : BenchNo) (c : Ctx) (rd rs1 rs2 : Fin 32) (iv : Bool) (imm : BitVec 32) (rsv : BitVec 8) (s : State) (x y : Word),
    x = s.s b c rs1 → y = (if iv then imm.signExtend 64 else s.s b c rs2) →
    (s.issues b c (aluForm true rd rs1 rs2 iv rsv) = true →
      ∀ p ∈ [(Instr.add b c rd rs1 rs2 iv imm rsv, x + y),
          (Instr.sub b c rd rs1 rs2 iv imm rsv, x - y),
          (Instr.and b c rd rs1 rs2 iv imm rsv, x &&& y),
          (Instr.or b c rd rs1 rs2 iv imm rsv, x ||| y),
          (Instr.xor b c rd rs1 rs2 iv imm rsv, x ^^^ y),
          (Instr.shl b c rd rs1 rs2 iv imm rsv, x <<< (y.toNat % 64)),
          (Instr.shr b c rd rs1 rs2 iv imm rsv, x >>> (y.toNat % 64)),
          (Instr.sra b c rd rs1 rs2 iv imm rsv, x.sshiftRight (y.toNat % 64)),
          (Instr.mul b c rd rs1 rs2 iv imm rsv, x * y),
          (Instr.mulh b c rd rs1 rs2 iv imm rsv, (x.signExtend 128 * y.signExtend 128).extractLsb' 64 64),
          (Instr.slt b c rd rs1 rs2 iv imm rsv, if x.toInt < y.toInt then 1 else 0),
          (Instr.sltu b c rd rs1 rs2 iv imm rsv, if x.toNat < y.toNat then 1 else 0),
          (Instr.min b c rd rs1 rs2 iv imm rsv, if x.toInt ≤ y.toInt then x else y),
          (Instr.max b c rd rs1 rs2 iv imm rsv, if x.toInt ≤ y.toInt then y else x)],
        ∃ t, exec p.1 s = .next t ∧ s.wroteS t b c rd p.2) ∧
    (s.issues b c (aluForm false rd rs1 rs2 iv rsv) = true →
      ∀ p ∈ [(Instr.div b c rd rs1 rs2 iv imm rsv, if y = 0 then BitVec.allOnes 64 else x.sdiv y),
          (Instr.rem b c rd rs1 rs2 iv imm rsv, x.srem y)],
        ∃ t, exec p.1 s = .next t ∧ s.wroteS t b c rd p.2)

/-- Where they issue (04 R106, R107, R138, R139): LI writes the sign-extended immediate; LIH writes the immediate to
bits [63:32] and keeps bits [31:0]; CTR writes BENCH_CYC (R148); NOP only goes on. Nothing else changes. That NOP
carries its opcode byte is the model's (log 23). -/
def Obligations.ScalarMoves : Prop :=
  ∀ (b : BenchNo) (c : Ctx) (rd : Fin 32) (imm : BitVec 32) (rsv : BitVec 8) (s : State),
    (s.issues b c { sregs := [rd], rsv := rsv.toNat } = true →
      (∃ t, exec (.li b c rd imm rsv) s = .next t ∧ s.wroteS t b c rd (imm.signExtend 64)) ∧
      (∃ t, exec (.lih b c rd imm rsv) s = .next t ∧ s.wroteS t b c rd (imm ++ (s.s b c rd).truncate 32)) ∧
      ∃ t, exec (.ctr b c rd rsv) s = .next t ∧
        s.wroteS t b c rd (BitVec.ofNat 64 (s.pulse - s.cycZero - FMap.getD s.skipped (b.val / 100) 0))) ∧
    (s.issues b c {} = true → ∃ t, exec (.nop b c 0x01 0) s = .next t ∧ s.wentOn t b c)

/-- Where it issues, a conditional branch whose condition holds goes to its own address plus 8 times the signed
immediate, modulo 2^64, and otherwise to the next word; JAL also writes the address of the next word to RD; JALR goes
to RS1 plus the sign-extended immediate with bits [2:0] cleared (04 R139). No other register, no memory and no other
context changes. -/
def Obligations.Branches : Prop :=
  ∀ (b : BenchNo) (c : Ctx) (rd rs1 rs2 : Fin 32) (imm : BitVec 32) (rsv : BitVec 8) (s : State) (x y : Word) (far : Int),
    x = s.s b c rs1 → y = s.s b c rs2 → far = ((s.pc b c : Int) + 8 * imm.toInt) % 2 ^ 64 →
    (s.issues b c { sregs := [rs1, rs2], rsv := rsv.toNat } = true →
      ∀ p ∈ [(Instr.beq b c rs1 rs2 imm rsv, decide (x = y)),
          (Instr.bne b c rs1 rs2 imm rsv, decide (x ≠ y)),
          (Instr.blt b c rs1 rs2 imm rsv, decide (x.toInt < y.toInt)),
          (Instr.bge b c rs1 rs2 imm rsv, decide (y.toInt ≤ x.toInt)),
          (Instr.bltu b c rs1 rs2 imm rsv, decide (x.toNat < y.toNat)),
          (Instr.bgeu b c rs1 rs2 imm rsv, decide (y.toNat ≤ x.toNat))],
        ∃ t, exec p.1 s = .next t ∧ s.jumped t b c 0 0 (if p.2 then far else s.nextPc b c)) ∧
    (s.issues b c { sregs := [rd], rsv := rsv.toNat } = true →
      ∃ t, exec (.jal b c rd imm rsv) s = .next t ∧ s.jumped t b c rd (BitVec.ofNat 64 (s.pc b c + 8)) far) ∧
    (s.issues b c { sregs := [rd, rs1], rsv := rsv.toNat } = true →
      ∃ t, exec (.jalr b c rd rs1 imm rsv) s = .next t ∧
        s.jumped t b c rd (BitVec.ofNat 64 (s.pc b c + 8)) ((x + imm.signExtend 64 &&& ~~~7#64).toNat : Int))

/-- Where they issue: TBASE puts RS1 plus the sign-extended immediate into bits [21:0] of the descriptor and TORG into
bits [255:192], every other bit kept (04 R111, R139); with the offset in RS1 a multiple of 32, its 32 B below 3 MiB
and no pending line there, TLD loads the descriptor from those Shelf bytes, and TST stores it there, every other byte
of memory kept. The context goes to the next word. -/
def Obligations.Descriptors : Prop :=
  ∀ (b : BenchNo) (c : Ctx) (td : Fin 16) (rs1 : Fin 32) (imm : BitVec 32) (rsv : BitVec 8) (s : State) (off : Nat),
    s.issues b c { sregs := [rs1], tregs := [td], rsv := rsv.toNat } = true → off = (s.s b c rs1).toNat →
    (∃ t v, exec (.tbase b c td rs1 imm rsv) s = .next t ∧ s.wroteT t b c td v ∧
      v.extractLsb' 0 22 = (s.s b c rs1 + imm.signExtend 64).truncate 22 ∧
      v.extractLsb' 22 234 = (s.t b c td).extractLsb' 22 234) ∧
    (∃ t v, exec (.torg b c td rs1 imm rsv) s = .next t ∧ s.wroteT t b c td v ∧
      v.extractLsb' 192 64 = s.s b c rs1 + imm.signExtend 64 ∧ v.extractLsb' 0 192 = (s.t b c td).extractLsb' 0 192) ∧
    (off % 32 = 0 → off + 32 ≤ 3 * 2 ^ 20 → s.pendingAt b off 32 = false →
      (∃ t v, exec (.tld b c td rs1 rsv) s = .next t ∧ s.wroteT t b c td v ∧
        ∀ i < 32, v.extractLsb' (8 * i) 8 = s.mem.byte (shelfKey b (off + i))) ∧
      ∃ t, exec (.tst b c td rs1 rsv) s = .next t ∧ t.pc b c = s.nextPc b c ∧ s.scalarIs t b c 0 0 ∧ s.sameFiles t b c ∧
        (∀ i < 32, t.mem.byte (shelfKey b (off + i)) = (s.t b c td).extractLsb' (8 * i) 8) ∧
        ∀ a, a < shelfKey b off ∨ shelfKey b off + 32 ≤ a → t.mem.byte a = s.mem.byte a)

/-- An instruction that comes to its checks stops its context, with its cause, its address and the Bench error event
recorded and nothing else read or written (04 R107, R108, R123): a reserved major opcode with cause 0x10; a reserved
bit set with 0x12; a register above s7 in the DWL context with 0x12; DIV or REM in the DWL context with 0x14; a
misaligned load, store or descriptor access with 0x13. -/
def Obligations.IllegalStops : Prop :=
  ∀ (b : BenchNo) (c : Ctx) (rd rs1 rs2 : Fin 32) (td : Fin 16) (iv : Bool) (imm : BitVec 32) (rsv : BitVec 8) (opc : Byte)
    (s : State), s.atIssue b c = true → [rd.val, rs1.val, rs2.val].any (s.loading b c) = false →
    (opc ≠ 0x01 → ∃ t, exec (.nop b c opc 0) s = .next t ∧ s.stoppedAt t b c 0x10) ∧
    (c ≠ .D → rsv ≠ 0 → ∀ i ∈ [Instr.add b c rd rs1 rs2 iv imm rsv, Instr.li b c rd imm rsv, Instr.beq b c rs1 rs2 imm rsv,
        Instr.jal b c rd imm rsv, Instr.ld64 b c rd rs1 imm rsv, Instr.st b c rd rs1 imm rsv, Instr.tbase b c td rs1 imm rsv],
      ∃ t, exec i s = .next t ∧ s.stoppedAt t b c 0x12) ∧
    (c = .D → 8 ≤ rd.val → ∀ i ∈ [Instr.add b c rd rs1 rs2 iv imm 0, Instr.li b c rd imm 0, Instr.ld64 b c rd rs1 imm 0],
      ∃ t, exec i s = .next t ∧ s.stoppedAt t b c 0x12) ∧
    (c = .D → ∀ i ∈ [Instr.div b c rd rs1 rs2 iv imm rsv, Instr.rem b c rd rs1 rs2 iv imm rsv],
      ∃ t, exec i s = .next t ∧ s.stoppedAt t b c 0x14) ∧
    (c ≠ .D → s.effAddr b c rs1 imm % 8 ≠ 0 →
      ∃ t, exec (.ld64 b c rd rs1 imm 0) s = .next t ∧ s.stoppedAt t b c 0x13) ∧
    (c ≠ .D → s.storeAddr b c rs1 imm % storeWidth imm ≠ 0 →
      ∃ t, exec (.st b c rd rs1 imm 0) s = .next t ∧ s.stoppedAt t b c 0x13) ∧
    (c ≠ .D → (s.s b c rs1).toNat % 32 ≠ 0 → ∀ i ∈ [Instr.tld b c td rs1 0, Instr.tst b c td rs1 0],
      ∃ t, exec i s = .next t ∧ s.stoppedAt t b c 0x13)

/-- Where it issues, aligned, with no earlier store of its line unanswered: a load of the Bench's own Shelf, no line
of it pending, writes the little-endian bytes, zero-extended, to RD (04 R106, R139, 00), a poisoned line raising I
besides (05 R159); one elsewhere in this module leaves RD waiting for its data; one of another module sends a read, or
reads zero where that fails at once (10 R297). SCALAR_LOAD_COMPLETE writes RD from Shelf, Tallboy, register or
unmapped address (zero, 00 R11). A store with no earlier access of its line open writes the low bytes of RD to the
Shelf or the Tallboy and changes no other byte, or writes a register under 00 R10, or changes nothing at an unmapped
address; one to another module changes nothing here. The next instruction follows. -/
def Obligations.LoadsAndStores : Prop :=
  ∀ (b : BenchNo) (c : Ctx) (rd rs1 : Fin 32) (imm : BitVec 32) (rsv : BitVec 8) (s : State),
    (s.issues b c { sregs := [rd, rs1], rsv := rsv.toNat } = true →
      ∀ p ∈ [(Instr.ld8 b c rd rs1 imm rsv, 1), (Instr.ld16 b c rd rs1 imm rsv, 2), (Instr.ld32 b c rd rs1 imm rsv, 4),
          (Instr.ld64 b c rd rs1 imm rsv, 8)],
        ∀ a, a = s.effAddr b c rs1 imm → a % p.2 = 0 → s.storeOpen b c (s.lineKey a) = false →
          (∀ off, s.ownShelf b a p.2 = some off → s.pendingAt b off p.2 = false →
            (s.poisoned b off p.2 = none → ∃ t v, exec p.1 s = .next t ∧ s.wroteS t b c rd v ∧ v.toNat < 2 ^ (8 * p.2) ∧
              ∀ i < p.2, v.extractLsb' (8 * i) 8 = s.mem.byte (shelfKey b (off + i))) ∧
            (s.untrapped b c → ∃ t v, exec p.1 s = .next t ∧ t.pc b c = s.nextPc b c ∧ s.scalarIs t b c rd v ∧
              s.sameFiles t b c ∧ t.mem = s.mem ∧ v.toNat < 2 ^ (8 * p.2) ∧
              (∀ i < p.2, v.extractLsb' (8 * i) 8 = s.mem.byte (shelfKey b (off + i))) ∧
              ((s.poisoned b off p.2).isSome = true →
                t.fld (A.numVflag b) ⟨3, 0⟩ &&& Flags.invalid.bits = Flags.invalid.bits))) ∧
          (s.ownShelf b a p.2 = none → s.isHere (modOf a) = true →
            ∃ t, exec p.1 s = .next t ∧ s.wentOn t b c ∧
              (t.ctx b c).loads = (s.ctx b c).loads ++ [⟨rd, p.2, a, s.pc b c, s.layerGen b c⟩]) ∧
          (s.isHere (modOf a) = false → s.loadOpen b c (s.lineKey a) = false →
            ∃ t, exec p.1 s = .next t ∧ t.pc b c = s.nextPc b c ∧ s.sameFiles t b c ∧ t.mem = s.mem ∧
              (s.scalarIs t b c 0 0 ∧ (t.ctx b c).loads = (s.ctx b c).loads ++ [⟨rd, p.2, a, s.pc b c, s.layerGen b c⟩] ∨
                s.scalarIs t b c rd 0 ∧ (t.ctx b c).loads = (s.ctx b c).loads))) ∧
    (s.issues b c { sregs := [rd, rs1], rsv := rsv.toNat } = true → ∀ a n, a = s.storeAddr b c rs1 imm → n = storeWidth imm →
      a % n = 0 → s.loadOpen b c (s.lineKey a) = false → s.storeOpen b c (s.lineKey a) = false →
      (s.isHere (modOf a) = true → s.memReady (localOf a) n = true → s.memPending (localOf a) n = false →
        s.lost.contains (0, localOf a) = false →
        (∀ k, (∃ b' off, locOf (localOf a) = .shelf b' off ∧ k = shelfKey b' off) ∨
            locOf (localOf a) = .tby k ∧ s.writePermitted 0 k = true ∧ s.soundAt k n →
          ∃ t, exec (.st b c rd rs1 imm rsv) s = .next t ∧ t.pc b c = s.nextPc b c ∧ s.scalarIs t b c 0 0 ∧
            s.sameFiles t b c ∧ (∀ i < n, t.mem.byte (k + i) = (s.s b c rd).extractLsb' (8 * i) 8) ∧
            ∀ x, x < k ∨ k + n ≤ x → t.mem.byte x = s.mem.byte x) ∧
        (∀ r, locOf (localOf a) = .reg r → ∃ u, exec (.nop b c 0x01 0) s = .next u ∧
          exec (.st b c rd rs1 imm rsv) s = .next (u.regWrite (storeWho b c) r n (s.s b c rd).toNat)) ∧
        (locOf (localOf a) = .none → ∃ t, exec (.st b c rd rs1 imm rsv) s = .next t ∧ s.wentOn t b c)) ∧
      (s.isHere (modOf a) = false → ∃ t, exec (.st b c rd rs1 imm rsv) s = .next t ∧ t.pc b c = s.nextPc b c ∧
        s.scalarIs t b c 0 0 ∧ s.sameFiles t b c ∧ t.mem = s.mem)) ∧
    ∀ l, s.nearLoad b c rd = some l → l.size ∈ [1, 2, 4, 8] → l.addr % l.size = 0 →
      s.memReady (localOf l.addr) l.size = true → s.memPending (localOf l.addr) l.size = false →
      s.lost.contains (0, localOf l.addr) = false →
      (∀ k, (∃ b' off, locOf (localOf l.addr) = .shelf b' off ∧ k = shelfKey b' off ∧
            (s.poisoned b' off l.size = none ∨ s.untrapped b c)) ∨ locOf (localOf l.addr) = .tby k ∧ s.soundAt k l.size →
        ∃ t v, exec (.scalarLoadComplete b c rd) s = .next t ∧ s.scalarIs t b c rd v ∧ s.sameFiles t b c ∧
          (t.ctx b c).loads = (s.ctx b c).loads.erase l ∧ t.mem = s.mem ∧
          ∀ i < l.size, v.extractLsb' (8 * i) 8 = s.mem.byte (k + i)) ∧
      (∀ r, locOf (localOf l.addr) = .reg r → ∃ t, exec (.scalarLoadComplete b c rd) s = .next t ∧ s.sameFiles t b c ∧
        s.scalarIs t b c rd (BitVec.ofNat 64 (ofLe ((s.loadGone b c l).regRead (latchCtx b c) r l.size).2)) ∧
        (t.ctx b c).loads = (s.ctx b c).loads.erase l ∧ t.mem = s.mem) ∧
      (locOf (localOf l.addr) = .none → ∃ t, exec (.scalarLoadComplete b c rd) s = .next t ∧ s.scalarIs t b c rd 0 ∧
        s.sameFiles t b c ∧ (t.ctx b c).loads = (s.ctx b c).loads.erase l ∧ t.mem = s.mem)

/-- Where a lane-wise instruction of the vector unit issues in binary32, GF16a or GF16b with the context's NaN trap
off (04 R110, R122, R140; 02 R38, R40, R41), each lane whose predicate bit is set takes the exact result rounded once,
every other lane is kept and sets no flag, the unit's flags take those of the selected lanes (02 R37), and nothing
else of the context or of memory changes. A transcendental instruction does the same with its function, whose values
inside the range of 02 R42 are free in this model (log 3). -/
def Obligations.VectorArithmetic : Prop :=
  ∀ (b : BenchNo) (c : Ctx) (vd va vb vc : Fin 32) (p : Fin 8) (fmt : Fin 16) (fn : BitVec 29) (s : State) (f : Fmt),
    s.issues b c (vecForm []) = true → vecFmt fmt = some f → s.untrapped b c →
    ∀ x y z : Nat → FVal,
      x = (fun i => f.decode (lane (s.v b c va).toNat f.width i)) →
      y = (fun i => f.decode (lane (s.v b c vb).toNat f.width i)) →
      z = (fun i => f.decode (lane (s.v b c vc).toNat f.width i)) →
    (∀ q ∈ [(Instr.vadd b c vd va vb vc p fmt fn, fun i => f.narrow ((x i).add (y i))),
        (Instr.vsub b c vd va vb vc p fmt fn, fun i => f.narrow ((x i).add (y i).negate)),
        (Instr.vmul b c vd va vb vc p fmt fn, fun i => f.narrow ((x i).mul (y i))),
        (Instr.vfma b c vd va vb vc p fmt fn, fun i => f.narrow ((x i).fma (y i) (z i))),
        (Instr.vmin b c vd va vb vc p fmt fn, fun i => f.narrow ((x i).minmax false (y i))),
        (Instr.vmax b c vd va vb vc p fmt fn, fun i => f.narrow ((x i).minmax true (y i))),
        (Instr.vdiv b c vd va vb vc p fmt fn, fun i => f.div (x i) (y i)),
        (Instr.vsqrt b c vd va vb vc p fmt fn, fun i => f.sqrt (x i))],
      ∃ t, exec q.1 s = .next t ∧ s.tookLanes t b c f vd p q.2) ∧
    ∀ q ∈ [(Instr.vexp2 b c vd va vb vc p fmt fn, TFun.exp2), (Instr.vexp b c vd va vb vc p fmt fn, TFun.exp),
        (Instr.vlog2 b c vd va vb vc p fmt fn, TFun.log2), (Instr.vlog b c vd va vb vc p fmt fn, TFun.log),
        (Instr.vrcp b c vd va vb vc p fmt fn, TFun.rcp), (Instr.vrsq b c vd va vb vc p fmt fn, TFun.rsq),
        (Instr.vsin b c vd va vb vc p fmt fn, TFun.sin), (Instr.vcos b c vd va vb vc p fmt fn, TFun.cos),
        (Instr.vtanh b c vd va vb vc p fmt fn, TFun.tanh), (Instr.vsig b c vd va vb vc p fmt fn, TFun.sig)],
      ∃ t, exec q.1 s = .next t ∧
        s.tookLanes t b c f vd p (fun i => q.2.apply f (x i) (lane (s.v b c va).toNat f.width i))

/-- Where they issue in a vector format with the NaN trap off (04 R110, R140): VCMP writes to predicate P one bit a
lane, in the order EQ, NE, LT, LE, GT, GE with NaN unordered (02 R40), the bits above the lanes kept (the model's
reading, log 23); VSEL takes each selected lane from VA where the predicate that VC names is set and from VB
elsewhere; VBCAST takes the low bits of a scalar register; VRED puts the tree sum of 02 R60 in lane 0 and keeps the
other lanes; VCVT converts the selected lanes to the format in bits [3:0] with the rounding its descriptor asks for
(02 R44, R46). That VA names VBCAST's scalar register, that fields which a row of R140 does not name are ignored, and
that a conversion between equal formats copies the bits are the model's choices (log 30). -/
def Obligations.VectorMoves : Prop :=
  ∀ (b : BenchNo) (c : Ctx) (vd va vb vc : Fin 32) (p : Fin 8) (fmt : Fin 16) (fn : BitVec 29) (s : State), s.untrapped b c →
    (∀ (f : Fmt) (x y : Nat → FVal), vecFmt fmt = some f → s.issues b c (vecForm []) = true →
      x = (fun i => f.decode (lane (s.v b c va).toNat f.width i)) →
      y = (fun i => f.decode (lane (s.v b c vb).toNat f.width i)) →
      (∀ q ∈ [(0, fun i => (x i).eqNum (y i)), (1, fun i => !(x i).eqNum (y i)), (2, fun i => (x i).ltNum (y i)),
          (3, fun i => (x i).ltNum (y i) || (x i).eqNum (y i)), (4, fun i => (y i).ltNum (x i)),
          (5, fun i => (y i).ltNum (x i) || (x i).eqNum (y i))],
        fn.toNat % 8 = q.1 → ∃ t, exec (.vcmp b c vd va vb vc p fmt fn) s = .next t ∧
          (p.val ≠ 0 → ∀ i < 256, (t.p b c p).getLsbD i = if i < laneCount f then q.2 i else (s.p b c p).getLsbD i) ∧
          (∀ r, r ≠ p.val → t.p b c r = s.p b c r) ∧ s.scalarIs t b c 0 0 ∧ (∀ r, t.v b c r = s.v b c r) ∧
          t.pc b c = s.nextPc b c ∧ t.mem = s.mem) ∧
      (vc.val < 8 → ∃ t, exec (.vsel b c vd va vb vc p fmt fn) s = .next t ∧
        s.tookLanes t b c f vd p (fun i => (lane (s.v b c (if (s.p b c vc).getLsbD i then va else vb)).toNat f.width i, .none))) ∧
      ∃ t, exec (.vred b c vd va vb vc p fmt fn) s = .next t ∧ t.pc b c = s.nextPc b c ∧ t.mem = s.mem ∧
        (∀ i < laneCount f, lane (t.v b c vd).toNat f.width i =
          if i = 0 then (f.tree ((List.range (laneCount f)).map (fun k =>
            (if (s.p b c p).getLsbD k then lane (s.v b c va).toNat f.width k else 0, Flags.none)))).1 % 2 ^ f.width
          else lane (s.v b c vd).toNat f.width i) ∧
        (∀ r, r ≠ vd.val → t.v b c r = s.v b c r) ∧ s.scalarIs t b c 0 0) ∧
    (∀ f : Fmt, vecFmt fmt = some f → s.issues b c (vecForm [va]) = true →
      ∃ t, exec (.vbcast b c vd va vb vc p fmt fn) s = .next t ∧
        s.tookLanes t b c f vd p (fun _ => ((s.s b c va).toNat, .none))) ∧
    (∀ (src dst : Fmt) (rs : Nat) (tl : Tile), rs = fn.toNat / 256 % 32 → s.issues b c (vecForm [rs]) = true →
      Fmt.ofElem fmt = some src → Fmt.ofElem (fn.toNat % 16) = some dst → tl = tileOf (s.t b c (fn.toNat / 16 % 16)).toNat →
      (Fmt.ofElem tl.fmt).isSome = true → tl.usable = true →
      ∃ t, exec (.vcvt b c vd va vb vc p fmt fn) s = .next t ∧ t.pc b c = s.nextPc b c ∧ t.mem = s.mem ∧
        (∀ i < min 256 (4096 / max src.width dst.width), lane (t.v b c vd).toNat dst.width i =
          if (s.p b c p).getLsbD i
          then (cvtLane src dst (tl.rnd s.seed (s.stepOf b c) (((s.s b c rs).toNat + i) / tl.cols) (((s.s b c rs).toNat + i) % tl.cols))
            (lane (s.v b c va).toNat src.width i)).bits % 2 ^ dst.width
          else lane (s.v b c vd).toNat dst.width i) ∧
        (∀ r, r ≠ vd.val → t.v b c r = s.v b c r) ∧ s.scalarIs t b c 0 0)

/-- Where they issue in a format that is not reserved, aligned, below 3 MiB and away from pending lines (02 R27; 04
R140; 05 R167): VLD takes from the 512 Shelf bytes at the offset in the s register that bits [12:8] name the lanes of
VD that the predicate selects, of 4 B in binary32 and of 2 B otherwise, and keeps the others; VST stores the selected
lanes of VD there and changes no other byte of memory (04 R110); PSET fills a predicate register from 32 Shelf bytes.
A load of a poisoned line completes so where the NaN trap is off (05 R159). -/
def Obligations.VectorMemory : Prop :=
  ∀ (b : BenchNo) (c : Ctx) (vd : Fin 32) (p : Fin 8) (fmt : Fin 16) (fn : BitVec 29) (s : State) (rs off w : Nat),
    rs = fn.toNat / 256 % 32 → off = (s.s b c rs).toNat → s.issues b c (vecForm [rs]) = true → w = (if fmt.val = 4 then 4 else 2) →
    ((Fmt.ofCode fmt).isSome = true → off % 64 = 0 → off + 512 ≤ 3 * 2 ^ 20 → s.pendingAt b off 512 = false →
      (s.untrapped b c ∨ s.poisoned b off 512 = none →
        ∃ t, exec (.vld b c vd ⟨p, fmt⟩ fn) s = .next t ∧ t.pc b c = s.nextPc b c ∧ s.scalarIs t b c 0 0 ∧ t.mem = s.mem ∧
          (∀ x, x ≠ vd.val → t.v b c x = s.v b c x) ∧ (∀ x, t.t b c x = s.t b c x) ∧ (∀ x, t.p b c x = s.p b c x) ∧
          ∀ i < 512, (t.v b c vd).extractLsb' (8 * i) 8 = if (s.p b c p).getLsbD (i / w) then s.mem.byte (shelfKey b (off + i))
            else (s.v b c vd).extractLsb' (8 * i) 8) ∧
      ∃ t, exec (.vst b c vd ⟨p, fmt, fn⟩) s = .next t ∧ t.pc b c = s.nextPc b c ∧ s.scalarIs t b c 0 0 ∧ s.sameFiles t b c ∧
        (∀ i < 512, t.mem.byte (shelfKey b (off + i)) = if (s.p b c p).getLsbD (i / w) then (s.v b c vd).extractLsb' (8 * i) 8
          else s.mem.byte (shelfKey b (off + i))) ∧
        ∀ a, a < shelfKey b off ∨ shelfKey b off + 512 ≤ a → t.mem.byte a = s.mem.byte a) ∧
    (off % 32 = 0 → off + 32 ≤ 3 * 2 ^ 20 → s.pendingAt b off 32 = false → s.untrapped b c ∨ s.poisoned b off 32 = none →
      ∃ t v, exec (.pset b c p fn) s = .next t ∧ t.pc b c = s.nextPc b c ∧ s.scalarIs t b c 0 0 ∧ t.mem = s.mem ∧
        (∀ x, t.p b c x = if x = p.val ∧ x ≠ 0 then v else s.p b c x) ∧ (∀ x, t.v b c x = s.v b c x) ∧
        (∀ x, t.t b c x = s.t b c x) ∧ ∀ i < 32, v.extractLsb' (8 * i) 8 = s.mem.byte (shelfKey b (off + i)))

/-- THREAD_START starts a STOPPED thread outside reset with its cause cleared and the instruction cache empty (04
R104, R142, R515); THREAD_STOP_REQUEST stops a running thread with cause 0x02, and STOP one with cause 0x01 and its PC
at the next word (R105, R108); BENCH_PC_WRITE writes the PC of a STOPPED thread, or of one that starts in the same
cycle and has issued nothing, and nothing of one that runs (R143); YIELD releases the leases of its mask that the
thread holds and no other (R116); ICACHE_FILL_COMPLETE puts a line of this module wanted by a context into the cache
(R515). -/
def Obligations.ThreadControl : Prop :=
  ∀ (b : BenchNo) (th : Thr) (v : Word) (mask : Fin 16) (s : State) (c : Ctx), c = th.ctx →
    (s.live b c = false → s.rst.level = 0 →
      ∃ t, exec (.threadStart b th) s = .next t ∧ t.fld (A.benchThr b c.idx) F.benchThr.STATE = 1 ∧
        t.fld (A.benchThr b c.idx) F.benchThr.CAUSE = 0 ∧ (t.bench b).icache = [] ∧ t.pc b c = s.pc b c ∧
        s.scalarIs t b c 0 0 ∧ s.sameFiles t b c ∧ t.mem = s.mem) ∧
    (s.live b c = true → (s.ctx b c).blk = none → (s.ctx b c).stopping = none →
      s.flag (A.benchThr b c.idx) F.benchThr.STOP = false → FMap.getD s.cyc.wrote (A.benchThr b c.idx) 0 = 0 →
      ∃ t, exec (.threadStopRequest b th) s = .next t ∧ t.fld (A.benchThr b c.idx) F.benchThr.STATE = 0 ∧
        t.fld (A.benchThr b c.idx) F.benchThr.CAUSE = 2 ∧ t.fld (A.benchThr b c.idx) F.benchThr.STOP = 0 ∧
        t.pc b c = s.pc b c ∧ s.scalarIs t b c 0 0 ∧ s.sameFiles t b c ∧ t.mem = s.mem) ∧
    (s.issues b c { dwl := false } = true →
      (∃ t, exec (.stop b c 0) s = .next t ∧ t.fld (A.benchThr b c.idx) F.benchThr.STATE = 0 ∧
        t.fld (A.benchThr b c.idx) F.benchThr.CAUSE = 1 ∧ t.pc b c = s.nextPc b c ∧ s.scalarIs t b c 0 0 ∧
        s.sameFiles t b c ∧ t.mem = s.mem ∧ t.rd (A.benchFaddr b c.idx) = s.rd (A.benchFaddr b c.idx)) ∧
      ∃ t, exec (.yield b c mask 0) s = .next t ∧ t.pc b c = s.nextPc b c ∧ s.scalarIs t b c 0 0 ∧ t.mem = s.mem ∧
        ∀ d < 4, t.code2 (A.benchLease b) F.benchLease.HOLD d =
          if mask.val.testBit d ∧ s.code2 (A.benchLease b) F.benchLease.HOLD d = c.code then 0
          else s.code2 (A.benchLease b) F.benchLease.HOLD d) ∧
    (∃ t, exec (.benchPcWrite b th v) s = .next t ∧
      if s.live b c = true ∧ (s.ctx b c).begun ≠ some s.pulse then t = s
      else t.pc b c = v.toNat / 8 * 8 ∧ ∀ a, a ≠ A.benchPc b c.idx → t.rd a = s.rd a) ∧
    ∀ a : Nat, a = v.toNat / 64 * 64 → s.isHere (modOf a) = true → s.lineWanted b a = true →
      (s.bench b).icache.contains a = false → (s.bench b).ifail.contains a = false → s.memReady (localOf a) 64 = true →
      s.memPending (localOf a) 64 = false → s.lost.contains (0, localOf a) = false →
      (∀ k, locOf (localOf a) = .tby k → s.soundAt k 64) →
      ∃ t, exec (.icacheFillComplete b v) s = .next t ∧ (t.bench b).icache.head? = some a ∧ t.mem = s.mem ∧ t.regs = s.regs

/-- DEFER pushes the image at its offset, with the thread and its step filled in, at the tail, where no line of it or
of the ring slot is pending (04 R119; 05 R167), and waits while the list holds 64 entries, when DEFER_PUSH performs
the push later; its flush form goes on when the list is empty and no entry runs, and waits otherwise; DWL_ENTRY_START,
once the threads are idle or one of them waits on the list, and DWL_IDLE_EXPIRY start a ready head entry, which
borrows the Desks of its mask and runs at its PROG, or stops with cause 0x13 where its PROG or tile table cannot be
used (R120, R121); DEND, at once or after a wait that DWL_ENTRY_END ends, takes the entry from the list with DONE
counted and its Desks returned (R122); DWL_RESUME discards a faulted entry (R123). -/
def Obligations.DeferredList : Prop :=
  ∀ (b : BenchNo) (c : Ctx) (rs : Fin 32) (th : Thr) (s : State) (img st : Nat), st = A.benchDwlStat b →
    (s.issues b c { dwl := false, sregs := [rs.val] } = true → img = (s.s b c rs).toNat → img % 128 = 0 → img < 3 * 2 ^ 20 →
      (s.dwlCount b < 64 → s.pushPending b img = false → ∃ t, exec (.defer b c rs 0) s = .next t ∧
        t.pc b c = s.nextPc b c ∧ s.scalarIs t b c 0 0 ∧ s.sameFiles t b c ∧ s.pushedImage t b c img) ∧
      (64 ≤ s.dwlCount b → ∃ t, exec (.defer b c rs 0) s = .next t ∧ s.blockedFor t b c (.defer img))) ∧
    (s.issues b c { dwl := false, sregs := [rs.val] } = true →
      (s.dwlCount b = 0 ∧ s.flag st F.benchDwlStat.RUNNING = false → ∃ t, exec (.deferFlush b c rs 0) s = .next t ∧ s.wentOn t b c) ∧
      (s.dwlCount b ≠ 0 ∨ s.flag st F.benchDwlStat.RUNNING = true →
        ∃ t, exec (.deferFlush b c rs 0) s = .next t ∧ s.blockedFor t b c .flush)) ∧
    ((s.ctx b th.ctx).blk = some (.defer img) → s.dwlCount b < 64 → s.pushPending b img = false →
      ∃ t, exec (.deferPush b th) s = .next t ∧ t.runsAgain b th.ctx ∧ t.pc b th.ctx = s.pc b th.ctx ∧
        s.scalarIs t b th.ctx 0 0 ∧ s.pushedImage t b th.ctx img) ∧
    (s.issues b .D { thread := false } = true →
      (s.workDone b .D = true → ∃ t, exec (.dend b .D 0) s = .next t ∧ s.endedEntry t b) ∧
      (s.workDone b .D = false → ∃ t, exec (.dend b .D 0) s = .next t ∧ s.blockedFor t b .D .dend)) ∧
    ((s.ctx b .D).blk = some .dend → s.workDone b .D = true → ∃ t, exec (.dwlEntryEnd b) s = .next t ∧ s.endedEntry t b) ∧
    (s.entryReady b = true →
      (s.dwlIdle b = true ∨ s.dwlPressed b = true → ∃ t, exec (.dwlEntryStart b) s = .next t ∧ s.beganEntry t b) ∧
      (s.dwlIdle b = true → ∃ t, exec (.dwlIdleExpiry b) s = .next t ∧ s.beganEntry t b)) ∧
    (s.flag st F.benchDwlStat.FAULTED = true → s.hwCleared (A.benchDwl b) F.benchDwl.RESUME = false →
      ∃ t, exec (.dwlResume b) s = .next t ∧ t.fld st F.benchDwlStat.FAULTED = 0 ∧ t.fld st F.benchDwlStat.RUNNING = 0 ∧
        t.dwlCount b = s.dwlCount b - 1 ∧ t.fld st F.benchDwlStat.HEAD = (s.fld st F.benchDwlStat.HEAD + 1) % 64 ∧
        t.fld (A.benchLease b) F.benchLease.LENT = 0 ∧ t.mem = s.mem)

/-- A Desk instruction that issues, is legal at issue (04 R127 to R129, R112), names only Desks that its context may
use and finds room in every queue stands last in the queue of each Desk of its mask, with its descriptor, address,
layer, step and seed of this moment (04 R126, 02 R52); the context goes on. DESK.L by a thread that holds its Desks
goes on at once and otherwise waits (R117, R130); DESK_LEASE_GRANT gives the one request whose Desks are all free
those Desks, and its thread goes on. -/
def Obligations.DeskInstructions : Prop :=
  ∀ (b : BenchNo) (c : Ctx) (d : DeskNo) (mask set : Fin 16) (sl : Fin 2) (j n : Fin 256) (kp : Fin 128) (td : Fin 16)
    (s : State) (tl : Tile), tl = tileOf (s.t b c td).toNat →
    (s.issues b c { tregs := [td] } = true →
      ∀ q ∈ [(Instr.deskB b c d sl td 0, 2 ^ d.val, DeskOp.load sl,
            decide ((Fmt.ofElem tl.fmt).isSome ∧ tl.usable ∧ tl.rows ≤ 128 ∧ tl.cols ≤ 96)),
          (Instr.deskA b c mask sl set j n kp td 0, mask.val, DeskOp.pass mask sl set j (n + 1) (kp + 1),
            decide (mask.val ≠ 0 ∧ (Fmt.ofElem tl.fmt).isSome ∧ tl.usable ∧ n.val + 1 ≤ tl.rows ∧ kp.val + 1 ≤ tl.cols)),
          (Instr.deskDEpilogue b c d set j n td 0, 2 ^ d.val, DeskOp.drain false set j (n + 1),
            decide ((Fmt.ofElem tl.fmt).isSome ∧ tl.usable ∧ tl.epilogueUsable ∧ tl.cols ≤ 96 ∧ n.val + 1 ≤ tl.rows)),
          (Instr.deskDRaw b c d set j n td 0, 2 ^ d.val, DeskOp.drain true set j (n + 1),
            decide (tl.usable ∧ (tl.fmt = 4 ∨ tl.fmt = 9 ∨ tl.fmt = 10) ∧ tl.cols = 96 ∧ n.val + 1 ≤ tl.rows)),
          (Instr.deskDMerge b c d set j n td 0, 2 ^ d.val, DeskOp.merge set j (n + 1) 0,
            decide (tl.usable ∧ (tl.fmt = 4 ∨ tl.fmt = 9 ∨ tl.fmt = 10) ∧ tl.cols = 96 ∧ n.val + 1 ≤ tl.rows)),
          (Instr.deskDDiscard b c d set j n td 0, 2 ^ d.val, DeskOp.discard set j (n + 1), true)],
        q.2.2.2 = true →
        (∀ k < 4, q.2.1.testBit k = true → s.mayUse b c k = true ∧ s.mustWait b c k = false) →
        ∃ t, exec q.1 s = .next t ∧ t.pc b c = s.nextPc b c ∧ s.scalarIs t b c 0 0 ∧ s.sameFiles t b c ∧ t.mem = s.mem ∧
          ∀ k < 4, (t.desk b k).queue = if q.2.1.testBit k
            then (s.desk b k).queue ++ [⟨q.2.2.1, c, s.pc b c, (s.t b c td).toNat, s.layerGen b c, s.stepOf b c, s.seed⟩]
            else (s.desk b k).queue) ∧
    (s.issues b c { dwl := false } = true →
      ((∀ k < 4, mask.val.testBit k → s.code2 (A.benchLease b) F.benchLease.HOLD k = c.code) →
        ∃ t, exec (.deskL b c mask 0) s = .next t ∧ s.wentOn t b c) ∧
      ((∃ k, k < 4 ∧ mask.val.testBit k ∧ s.code2 (A.benchLease b) F.benchLease.HOLD k ≠ c.code) →
        s.leaseWait b (otherThr c).ctx = none →
        ∃ t, exec (.deskL b c mask 0) s = .next t ∧ s.blockedFor t b c (.lease mask s.pulse))) ∧
    (c ≠ .D → s.leaseWait b c = some mask.val → s.leaseWait b (otherThr c).ctx = none → s.grantable b c mask = true →
      ∃ t, exec (.deskLeaseGrant b) s = .next t ∧ (t.ctx b c).blk = none ∧
        t.fld (A.benchThr b c.idx) F.benchThr.STATE = 1 ∧ t.mem = s.mem ∧
        ∀ k < 4, t.code2 (A.benchLease b) F.benchLease.HOLD k =
          if mask.val.testBit k then c.code else s.code2 (A.benchLease b) F.benchLease.HOLD k)

/-- DESK_B_LOAD_START takes a load from the head of its queue into an idle slot, which its context then owns and which
reads as loading (03 R72 to R74, R97); DESK_B_LOAD_COMPLETE fills the slot with the tile's elements and makes it
valid; DESK_PASS_START starts a legal pass that stands first on every Desk of its mask, its set opened for the context
(R76, R86); DESK_ROW_COMMIT of a pass on one Desk puts the totals of 02 R55 to R57 into the row of the Drawer, from A
elements that have been read, and counts it, whatever errors the Drawer row held; DESK_ROW_CHECK_FAIL of a pass row or
of a row of a drain, below the limits of R92, counts a replay, records its kind, and changes no total (R90, R91). That
the rows of a load are read when it completes is the model's choice, and that an A row is read at its commit its
reading (log 24). -/
def Obligations.DeskLoadsAndPasses : Prop :=
  ∀ (b : BenchNo) (d : DeskNo) (s : State) (e : DeskEnt) (tl : Tile), tl = tileOf e.desc →
    (∀ sl, sl < 2 → e.op = .load sl → s.atHead b d e → (tl.fmt = 4 → sl = 0) → (s.desk b d).load = none →
      (s.desk b d).slotBusy sl = false → (s.desk b d).slotBusy 1 = false →
      ∃ t, exec (.deskBLoadStart b d) s = .next t ∧ (t.desk b d).load = some (sl, e) ∧
        (t.desk b d).queue = (s.desk b d).queue.tail ∧ (t.desk b d).slotFmt sl = some tl.fmt ∧ t.slotOwner b d sl = e.ctx.code ∧
        t.fld (A.deskStat b d) F.deskStat.SLOT_LOADING = (if tl.fmt = 4 then 3 else 2 ^ sl) ∧
        t.fldBit (A.deskStat b d) F.deskStat.SLOT_VALID sl = false ∧ t.mem = s.mem) ∧
    (∀ sl, sl < 2 → (s.desk b d).load = some (sl, e) → s.deskWorks b d = true →
      s.tilePending b tl tl.rows tl.cols = false →
      ∃ t y, exec (.deskBLoadComplete b d) s = .next t ∧ (t.desk b d).load = none ∧
        FMap.get? (t.desk b d).slots sl = some y ∧ y.fmt = tl.fmt ∧
        (∀ r < tl.rows, ∀ k < tl.cols, y.elem r k = s.shelfNum b (tl.elem r k) tl.width) ∧
        t.fldBit (A.deskStat b d) F.deskStat.SLOT_VALID sl = true ∧ t.fld (A.deskStat b d) F.deskStat.SLOT_LOADING = 0 ∧
        t.mem = s.mem) ∧
    (∀ m sl set j n kp, e.op = .pass m sl set j n kp → m.testBit d = true → set < 16 →
      (∀ q < 4, m.testBit q → s.atHead b q e ∧ s.passCause b q e sl set j n = none ∧ (s.desk b q).load = none ∧
        (s.desk b q).draining = [] ∧ (s.desk b q).passes = []) →
      ∃ t, exec (.deskPassStart b d) s = .next t ∧ t.mem = s.mem ∧
        ∀ q < 4, m.testBit q → (t.desk b q).passes = [⟨e, 0⟩] ∧ (t.desk b q).queue = (s.desk b q).queue.tail ∧
          t.setUsed b q set = true ∧ t.fld (A.deskStat b q) F.deskStat.PASS_BUSY = 1 ∧
          (s.setUsed b q set = false → t.setOwner b q set = e.ctx.code)) ∧
    (∀ sl set j n kp i rest, e.op = .pass (2 ^ d.val) sl set j n kp → (s.desk b d).passes = ⟨e, i⟩ :: rest → i < n →
      s.deskWorks b d = true → s.pendingAt b (tl.elem i 0) (kp * tl.width) = false → FMap.get? (s.desk b d).buf i = none →
      ∀ us, ∃ t, exec (.deskRowCommit b d us) s = .next t ∧ t.mem = s.mem ∧
        t.fld (A.deskRows b d) F.deskRows.ROWS = (s.fld (A.deskRows b d) F.deskRows.ROWS + 1) % 2 ^ F.deskRows.ROWS.width ∧
        (t.desk b d).passes = (if i + 1 = n then rest else ⟨e, i + 1⟩ :: rest) ∧
        (∀ k, k ≠ rowKey set (j + i) → FMap.get? (t.desk b d).tot k = FMap.get? (s.desk b d).tot k) ∧
        FMap.get? (t.desk b d).tot (rowKey set (j + i)) = some ((List.range 96).map (fun col =>
          (deskColumn (s.deskFmt b d) tl.format ((Fmt.ofCode ((FMap.get? (s.desk b d).slots sl).getD ⟨0, []⟩).fmt).getD .gf8a)
            (s.chunkLen b d set) ((FMap.get? (s.desk b d).tot (rowKey set (j + i))).map (fun l => l.getD col 0))
            (s.tileRow b tl i kp) (((FMap.get? (s.desk b d).slots sl).getD ⟨0, []⟩).column col kp)).bits))) ∧
    (∀ (parity : Bool) m sl set j n kp i rest, e.op = .pass m sl set j n kp → (s.desk b d).passes = ⟨e, i⟩ :: rest → i < n →
      s.pendingAt b (tl.elem i 0) (kp * tl.width) = false → s.deskWorks b d = true →
      (s.desk b d).tries + 1 ≤ max 1 (s.fld (A.deskCtl b d) F.deskCtl.RETRY) → s.fld (A.deskCtl b d) F.deskCtl.RATE = 0 →
      ∃ t, exec (.deskRowCheckFail b d ⟨parity, none⟩) s = .next t ∧ (t.desk b d).passes = (s.desk b d).passes ∧
        (t.desk b d).tries = (s.desk b d).tries + 1 ∧ s.replayedOnce t b d set parity) ∧
    (∀ (parity raw : Bool) set j n (i : Fin 256) rest, e.op = .drain raw set j n → (s.desk b d).drains = e :: rest → i.val < n →
      (s.desk b d).dtries.1 ≤ i.val → s.deskWorks b d = true →
      (if (s.desk b d).dtries.1 = i.val then (s.desk b d).dtries.2 else 0) + 1 ≤
        max 1 (s.fld (A.deskCtl b d) F.deskCtl.RETRY) → s.fld (A.deskCtl b d) F.deskCtl.RATE = 0 →
      ∃ t, exec (.deskRowCheckFail b d ⟨parity, some i⟩) s = .next t ∧ (t.desk b d).drains = (s.desk b d).drains ∧
        s.replayedOnce t b d set parity)

/-- DESK_DRAIN_START takes a legal drain from the head of its queue, its set DRAINING (03 R76, R77);
DESK_DRAIN_COMPLETE, whatever errors the Drawer rows held, changes no byte outside the rows of its tile and frees the
set, its owner and started rows gone (R76, R82), and the one row of a drain of one row that held none takes its
results (R84); DESK_MERGE_START promotes its raw images into the totals of its set, opened for the context (R81);
DESK_DISCARD_EFFECT frees the set (R76). That a merge does not wait for rows of earlier passes is the model's choice
(log 24). -/
def Obligations.DeskDrains : Prop :=
  ∀ (b : BenchNo) (d : DeskNo) (s : State) (e : DeskEnt) (tl : Tile) (set j : Nat), tl = tileOf e.desc → set < 16 →
    (∀ raw n, e.op = .drain raw set j n → s.atHead b d e → s.drainCause b d e = none → (s.desk b d).passInto set = false →
      s.setDraining b d set = false →
      ∃ t, exec (.deskDrainStart b d) s = .next t ∧ (t.desk b d).queue = (s.desk b d).queue.tail ∧
        (t.desk b d).drains = (s.desk b d).drains ++ [e] ∧ t.setDraining b d set = true ∧ t.setUsed b d set = true ∧
        t.fld (A.deskStat b d) F.deskStat.DRAIN_BUSY = 1 ∧ t.mem = s.mem) ∧
    (∀ raw n rest cols, e.op = .drain raw set j n → (s.desk b d).drains = e :: rest → s.deskWorks b d = true →
      cols = (if raw then 96 else tl.cols) → s.tilePending b tl n cols = false →
      (raw = false → s.pendingAt b tl.sptr (4 * (tl.scaleCount (s.deskM b d) + tl.biasCount (s.deskM b d))) = false) →
      (∀ us, ∃ t, exec (.deskDrainComplete b d us) s = .next t ∧ (t.desk b d).drains = rest ∧ t.setUsed b d set = false ∧
        t.setOwner b d set = 0 ∧ t.setDraining b d set = false ∧
        (∀ r < 256, FMap.get? (t.desk b d).tot (rowKey set r) = none) ∧
        ∀ a, (∀ r < n, a < shelfKey b (tl.elem r 0) ∨ shelfKey b (tl.elem r 0) + cols * tl.width ≤ a) →
          t.mem.byte a = s.mem.byte a) ∧
      (n = 1 → ∃ t, exec (.deskDrainComplete b d []) s = .next t ∧
        t.shelfRead b tl.base (cols * tl.width) = (s.drainRow b d e raw set j 0).flatMap (fun r => leBytes tl.width r.bits))) ∧
    (∀ n us, e.op = .merge set j n 0 → s.atHead b d e → s.drainCause b d e = none → s.setDraining b d set = false →
      s.tilePending b tl n 96 = false → s.untrapped b e.ctx →
      ∃ t, exec (.deskMergeStart b d ⟨us, []⟩) s = .next t ∧ (t.desk b d).queue = (s.desk b d).queue.tail ∧ t.mem = s.mem ∧
        t.setUsed b d set = true ∧
        ∀ r < n, FMap.get? (t.desk b d).tot (rowKey set (j + r)) = some ((List.range 96).map (fun col =>
          (promote (s.deskFmt b d) (s.deskFmt b d)
            ((if s.setUsed b d set then FMap.get? (s.desk b d).tot (rowKey set (j + r)) else none).map (fun l => l.getD col 0))
            ⟨s.shelfNum b (tl.elem r col) tl.width % 2 ^ (s.deskFmt b d).width, .none, none⟩).bits))) ∧
    (∀ n, e.op = .discard set j n → s.atHead b d e → s.drainCause b d e = none → (s.desk b d).passInto set = false →
      s.setDraining b d set = false →
      ∃ t, exec (.deskDiscardEffect b d) s = .next t ∧ (t.desk b d).queue = (s.desk b d).queue.tail ∧ t.setUsed b d set = false ∧
        t.mem = s.mem)

/-- A write to DESK_CFG takes effect when every set of the Desk is FREE (and the Drawer format is not the reserved
code 3, R95): the three fields read as written and MAX_SETS follows from them; otherwise the whole write is ignored
and DESK_STAT.CFG_REJ is set. An open and a write are two commands here, so an open of the same cycle that comes first
leaves a set that is not FREE. -/
def Obligations.DeskConfigured : Prop :=
  ∀ (b : BenchNo) (d : DeskNo) (v : Word) (s : State),
    (s.fld (A.deskStat b d) F.deskStat.SET_OPEN = 0 → getFld v F.deskCfg.DFMT ≠ 3 →
      ∃ t, exec (.deskCfgWrite b d v) s = .next t ∧ t.fld (A.deskCfg b d) F.deskCfg.M = getFld v F.deskCfg.M ∧
        t.fld (A.deskCfg b d) F.deskCfg.DFMT = getFld v F.deskCfg.DFMT ∧
        t.fld (A.deskCfg b d) F.deskCfg.CHUNK = getFld v F.deskCfg.CHUNK ∧
        t.maxSets b d = 196608 / (32 * 2 ^ getFld v F.deskCfg.M * 96 * (if getFld v F.deskCfg.DFMT = 1 then 6 else 4)) %
          2 ^ F.deskStat.MAX_SETS.width ∧
        t.fld (A.deskStat b d) F.deskStat.CFG_REJ = s.fld (A.deskStat b d) F.deskStat.CFG_REJ) ∧
    (s.fld (A.deskStat b d) F.deskStat.SET_OPEN ≠ 0 ∨ getFld v F.deskCfg.DFMT = 3 →
      ∃ t, exec (.deskCfgWrite b d v) s = .next t ∧ t.rd (A.deskCfg b d) = s.rd (A.deskCfg b d) ∧
        t.fld (A.deskStat b d) F.deskStat.CFG_REJ = 1 ∧ t.maxSets b d = s.maxSets b d)

/-- DESK_CLR_CNT clears the stall counters, REPLAYS and DRAWER_CE and leaves every other field and register (03 R102);
each injection becomes pending beside those that wait; DESK_RATE_WINDOW_END, once the 800,000 cycles of the window
have passed, starts the present window, of those counted from core reset, with no replay counted (R92). -/
def Obligations.DeskTestControls : Prop :=
  ∀ (b : BenchNo) (d : DeskNo) (s : State),
    (∃ t, exec (.deskClrCnt b d) s = .next t ∧ t.rd (A.deskStall b d) = 0 ∧
      t.fld (A.deskRas b d) F.deskRas.REPLAYS = 0 ∧ t.fld (A.deskRas b d) F.deskRas.DRAWER_CE = 0 ∧
      t.fld (A.deskRas b d) F.deskRas.DRAWER_UE = s.fld (A.deskRas b d) F.deskRas.DRAWER_UE ∧
      t.fld (A.deskRas b d) F.deskRas.LAST_SET = s.fld (A.deskRas b d) F.deskRas.LAST_SET ∧
      ∀ a, a ≠ A.deskStall b d → a ≠ A.deskRas b d → t.rd a = s.rd a) ∧
    (∀ q ∈ [(Instr.deskInjDrawerCe b d, { (s.desk b d).inj with ce := true }),
        (Instr.deskInjParity b d, { (s.desk b d).inj with parity := true }),
        (Instr.deskInjResidue b d, { (s.desk b d).inj with residue := true })],
      ∃ t, exec q.1 s = .next t ∧ (t.desk b d).inj = q.2 ∧ (t.desk b d).queue = (s.desk b d).queue ∧ t.regs = s.regs ∧
        ∀ b' d', (b', d') ≠ (b.val, d.val) → d' < 4 → t.desk b' d' = s.desk b' d') ∧
    ((s.desk b d).winStart % 800000 = 0 → (s.desk b d).winStart + 800000 ≤ s.benchCyc b →
      ∃ t, exec (.deskRateWindowEnd b d) s = .next t ∧ (t.desk b d).winReplays = 0 ∧
        (t.desk b d).winStart = s.benchCyc b / 800000 * 800000 ∧ (t.desk b d).tot = (s.desk b d).tot ∧ t.regs = s.regs)

/-- A legal MOVE that issues while fewer than sixteen of its context's are outstanding is captured with the
descriptors of this moment and counted in MOVE_STAT, and its context goes on (04 R131, R132; 05 R149 to R151, R173).
One into the Shelf, or one out of it that cannot read its source or reach its far side yet, changes no memory at
issue, and an expand move marks the lines it covers pending (R167). Any other out of the Shelf, with the NaN trap off,
is sent; a copy of one row to another Shelf of this module puts those bytes there and changes no other byte. -/
def Obligations.MovesIssue : Prop :=
  ∀ (b : BenchNo) (c : Ctx) (rs : Fin 32) (td : Fin 16) (dir : Fin 2) (sg : Bool) (cnt : BitVec 16) (s : State) (off k : Nat),
    off = (s.s b c rs).toNat → k = (s.bench b).moveNo → s.issues b c { sregs := [rs.val], tregs := [td.val] } = true →
    off % 32 = 0 → off < 3 * 2 ^ 20 → s.pendingAt b off 32 = false →
    countTrue (fun p => p.2.ctx == c) (s.bench b).moves < 16 → (∀ p ∈ (s.bench b).moves, p.1 < k) →
    ∀ q ∈ [(Instr.moveCopy b c rs td dir sg cnt 0, 0), (Instr.moveConvert b c rs td dir sg cnt 0, 1),
        (Instr.moveTranspose b c rs td dir sg cnt 0, 2), (Instr.moveWiden b c rs td dir sg cnt 0, 3),
        (Instr.moveExpand b c rs td dir sg cnt 0 0, 4)],
      ∀ m tl, m = s.moveOf b c off td q.2 dir sg cnt.toNat → tl = tileOf m.desc → s.moveCause b off m = none →
        (dir = 0 ∨ s.movePending b tl = true ∨ s.nearReady b m = false →
          ∃ t m', exec q.1 s = .next t ∧ t.pc b c = s.nextPc b c ∧ s.scalarIs t b c 0 0 ∧ s.sameFiles t b c ∧ t.mem = s.mem ∧
            FMap.get? (t.bench b).moves k = some m' ∧
            m' = { m with far := m'.far, asked := m'.asked, unanswered := m'.unanswered } ∧ (t.bench b).moveNo = k + 1 ∧
            (t.bench b).pend = (if q.2 = 4 then tl.lines ++ (s.bench b).pend else (s.bench b).pend) ∧
            t.fld (A.moveStat b) F.moveStat.UNDERWAY =
              (countTrue (fun p => p.2.ctx == .F) (t.bench b).moves + countTrue (fun p => p.2.ctx == .B) (t.bench b).moves +
                countTrue (fun p => p.2.ctx == .D) (t.bench b).moves) % 2 ^ F.moveStat.UNDERWAY.width) ∧
        (dir = 1 → s.movePending b tl = false → s.nearReady b m = true → s.untrapped b c →
          (∃ t m', exec q.1 s = .next t ∧ t.pc b c = s.nextPc b c ∧ s.scalarIs t b c 0 0 ∧ s.sameFiles t b c ∧
            FMap.get? (t.bench b).moves k = some m' ∧ m'.sent = true ∧ (t.bench b).moveNo = k + 1) ∧
          (q.2 = 0 → tl.rows = 1 → s.isHere (modOf m.addr) = true → s.lost = [] → m.addr % 256 + tl.cols * tl.width ≤ 256 →
            ∀ b' o', locOf (localOf m.addr) = .shelf b' o' →
              ∃ t, exec q.1 s = .next t ∧ FMap.get? (t.bench b).moves k = some { m with sent := true } ∧
                t.shelfRead b' o' (tl.cols * tl.width) = s.shelfRead b tl.base (tl.cols * tl.width) ∧
                ∀ x, x < shelfKey b' o' ∨ shelfKey b' o' + tl.cols * tl.width ≤ x → t.mem.byte x = s.mem.byte x))

/-- MOVE_COMPLETE of a move into the Shelf whose far bytes have all come from other modules, none failed, writes each
element of its tile converted as its operation says (05 R152, R153, R156, R157) and changes no byte outside the
Bench's Shelf; a copy of one row from a Shelf or a Tallboy of this module writes those bytes; a move out of the Shelf
that has been sent and answered, and an expand move whose blocks are done, change no memory. Each counts its bytes
(R154), leaves the moves outstanding, and then signals its counter where SG asks for it (04 R132). -/
def Obligations.MovesComplete : Prop :=
  ∀ (b : BenchNo) (i : Fin 48) (s : State) (k : Nat) (m : Move) (tl : Tile), tl = tileOf m.desc →
    (s.bench b).moves[i.val]? = some (k, m) → FMap.get? (s.bench b).moves k = some m → m.unanswered = 0 →
    ∀ sig : State → State,
    sig = (fun u => if m.sg then u.unitSignal (0x3FFF0000 + m.cnt) 1 ⟨5, b, m.ctx.code, 0⟩ m.pc else u) →
    (m.op < 4 → m.dir = 0 → s.untrapped b m.ctx → s.movePending b tl = false → (∀ p ∈ m.pieces, s.isHere (modOf p.1) = false) →
      m.failure = none → tl.apart → tl.usable = true →
      ∃ t, exec (.moveComplete b i) s = .next (sig t) ∧ FMap.get? (t.bench b).moves k = none ∧
        (∀ r < tl.rows, ∀ c < tl.cols,
          t.shelfNum b (tl.elem r c) tl.width = (m.inward r c (m.farElem r c).1).bits % 2 ^ (8 * tl.width)) ∧
        (∀ x, x < shelfKey b 0 ∨ shelfKey b shelfSize ≤ x → t.mem.byte x = s.mem.byte x) ∧
        t.fld (A.moveBytes b) F.moveBytes.BYTES =
          (s.fld (A.moveBytes b) F.moveBytes.BYTES + m.count) % 2 ^ F.moveBytes.BYTES.width) ∧
    (m.op = 0 → m.dir = 0 → tl.rows = 1 → tl.cols * tl.width ≤ 64 → localOf m.addr % 64 + tl.cols * tl.width ≤ 64 →
      s.isHere (modOf m.addr) = true → m.addr < 2 ^ 64 → m.lost = [] → m.far = [] → s.lost = [] → s.movePending b tl = false →
      s.nearReady b m = true → tl.usable = true →
      ∀ a, (∃ b' o', locOf (localOf m.addr) = .shelf b' o' ∧ a = shelfKey b' o') ∨
          locOf (localOf m.addr) = .tby a ∧ s.soundAt a (tl.cols * tl.width) →
        ∃ t, exec (.moveComplete b i) s = .next (sig t) ∧ FMap.get? (t.bench b).moves k = none ∧
          t.shelfRead b tl.base (tl.cols * tl.width) = s.mem.read a (tl.cols * tl.width)) ∧
    ((m.op < 4 ∧ m.dir ≠ 0 ∧ m.sent = true ∨ m.op = 4 ∧ m.expDone = true) →
      ∃ t, exec (.moveComplete b i) s = .next (sig t) ∧ FMap.get? (t.bench b).moves k = none ∧ t.mem = s.mem ∧
        t.fld (A.moveBytes b) F.moveBytes.BYTES =
          (s.fld (A.moveBytes b) F.moveBytes.BYTES + m.count) % 2 ^ F.moveBytes.BYTES.width)

/-- EXPANDER_BLOCK_COMPLETE on the oldest expand move, whose header is valid and whose directory entry, block header,
payload and, for a coded block, complete table can be read (or the table is held, R168), writes the elements that the
block spells (stored, fill or coded: 05 R160 to R165) to the block's output positions (R166), counts the block in
EXP_STAT and goes on to the next; a header that breaks R160 ends the move with cause 0x6 in EXP_ERR (R170, R175).
EXP_INJ_SHORT makes the next block short, and EXP_CLR_CNT clears the stall counter and both error counts (R176). -/
def Obligations.ExpanderBlocks : Prop :=
  ∀ (b : BenchNo) (s : State),
    (∀ (k : Nat) (m : Move) (tl : Tile) (hd dir bh : List Byte) (h : TensorHdr) (w blk e : Nat) (syms : List Nat),
      (s.bench b).moves.find? (fun p => p.2.op == 4 && !p.2.expDone) = some (k, m) →
      FMap.get? (s.bench b).moves k = some m → tl = tileOf m.desc → tl.apart → tl.usable = true →
      s.farGot b k m.addr 64 hd → tensorHdr hd = some h → expandOk h.efmt tl.fmt = true → e = 4096 / symsPer h.efmt →
      m.saddr % 2 ^ 32 + (tl.rows * tl.cols + e - 1) / e ≤ h.nblk → blk = m.saddr % 2 ^ 32 + m.next →
      m.next * e < tl.rows * tl.cols → (s.bench b).injShort = false →
      s.farGot b k ((m.addr + (h.diroff + 8 * blk)) % 2 ^ 64) 8 dir → bits (numAt dir 0 8) 47 0 % 8 = 0 →
      bits (numAt dir 0 8) 63 48 = 0 → s.farGot b k ((m.addr + bits (numAt dir 0 8) 47 0) % 2 ^ 64) 8 bh → w = numAt bh 0 8 →
      blockHdrBad w h.ntab = false →
      ((bits w 23 16 = 2 ∧ syms = List.replicate 4096 (bits w 39 32)) ∨
        ∃ pl, s.farGot b k ((m.addr + (bits (numAt dir 0 8) 47 0 + 8)) % 2 ^ 64) (bits w 15 0) pl ∧ bits w 15 0 ≠ 0 ∧
          ((bits w 23 16 = 1 ∧ syms = pl.map (·.toNat)) ∨
            bits w 23 16 = 0 ∧ ∃ tab, s.expTable b k ((m.addr + (h.taboff + 136 * bits w 31 24)) % 2 ^ 64) = (s, .got tab) ∧
              tableOk tab = true ∧
              decodeBlock (codeLens (tab.drop 8) 256) pl 4096 = (syms, 0))) →
      ∃ t, exec (.expanderBlockComplete b) s = .next t ∧
        t.fld (A.expStat b) F.expStat.BLOCKS = (s.fld (A.expStat b) F.expStat.BLOCKS + 1) % 2 ^ F.expStat.BLOCKS.width ∧
        (∃ m', FMap.get? (t.bench b).moves k = some m' ∧ m'.next = m.next + 1 ∧
          m'.expDone = decide (tl.rows * tl.cols ≤ (m.next + 1) * e)) ∧
        ∀ n v, m.next * e ≤ n → n < tl.rows * tl.cols → (m.saddr % 2 ^ 32) * e + n < h.nelem →
          (elemsOf h.efmt syms)[n - m.next * e]? = some v →
          t.shelfNum b (tl.elem (n / tl.cols) (n % tl.cols)) tl.width =
            (cvtLane ((Fmt.ofCode h.efmt).getD .gf8a) tl.format .rne v).bits % 2 ^ (8 * tl.width)) ∧
    (∀ (k : Nat) (m : Move) (hd : List Byte), (s.bench b).moves.find? (fun p => p.2.op == 4 && !p.2.expDone) = some (k, m) →
      s.farGot b k m.addr 64 hd → tensorHdr hd = none → s.flag (A.expErr b) F.expErr.VALID = false →
      ∃ t, exec (.expanderBlockComplete b) s = .next t ∧ t.fld (A.expErr b) F.expErr.CAUSE = 6 ∧
        t.fld (A.expErr b) F.expErr.VALID = 1 ∧ ∃ m', FMap.get? (t.bench b).moves k = some m' ∧ m'.expDone = true) ∧
    (∃ t, exec (.expInjShort b) s = .next t ∧ (t.bench b).injShort = true ∧ t.regs = s.regs ∧ t.mem = s.mem) ∧
    ∃ t, exec (.expClrCnt b) s = .next t ∧ t.rd (A.expStall b) = 0 ∧ t.fld (A.expErr b) F.expErr.COUNT = 0 ∧
      t.fld (A.moveErr b) F.moveErr.COUNT = 0 ∧ t.fld (A.expErr b) F.expErr.VALID = s.fld (A.expErr b) F.expErr.VALID ∧
      t.fld (A.moveErr b) F.moveErr.VALID = s.fld (A.moveErr b) F.moveErr.VALID

/-- Where no earlier signal of the context to the same counter is unanswered (11 R327): SIG on a counter of this
module sends its increment on its way and goes on, and so it does on one of another module; WAIT and TAKE on one of
this module block their thread, with a new operation number, and send their request (04 R133, R134; 11 R324, R325),
and on one of another module they block, or end at once with 2^32 or 0 where it cannot be sent (R334). A fence goes on
when its scope's conditions hold and blocks otherwise, until FENCE_COMPLETE finds them held (04 R135). FLAGR reads the
flags of a unit and FLAGC clears those it names that are not raised in the same cycle (04 R136, R137; 06 R177; 00 R7).
-/
def Obligations.SyncInstructions : Prop :=
  ∀ (b : BenchNo) (c : Ctx) (rd rs rt : Fin 32) (inc : BitVec 8) (consume : Bool) (tmo : BitVec 24) (u : Fin 8) (clr : BitVec 4)
    (s : State) (a : Word) (next : Who), a = s.s b c rs → next = ⟨5, b, c.code, (s.ctx b c).waitNo + 1⟩ →
    (s.issues b c { sregs := [rs.val] } = true → inc ≠ 0 → a.toNat < 2 ^ 30 →
      (s.ctx b c).sigs.contains (s.cntKey a.toNat) = false →
      (s.isHere (cntModule a.toNat) = true → ∃ t, exec (.sig b c rs inc 0) s = .next t ∧ t.pc b c = s.nextPc b c ∧
        s.scalarIs t b c 0 0 ∧ s.sameFiles t b c ∧ t.mem = s.mem ∧
        t.sync.inbox = s.sync.inbox ++ [(cntIndex a.toNat, s.whoOf b c, .signal inc.toNat)] ∧
        (t.ctx b c).sigs = s.cntKey a.toNat :: (s.ctx b c).sigs) ∧
      (s.isHere (cntModule a.toNat) = false → ∃ t, exec (.sig b c rs inc 0) s = .next t ∧ t.pc b c = s.nextPc b c ∧
        s.scalarIs t b c 0 0 ∧ s.sameFiles t b c ∧ t.mem = s.mem)) ∧
    (s.issues b c { dwl := false, sregs := [rd.val, rs.val, rt.val] } = true → a.toNat < 2 ^ 30 →
      (s.ctx b c).sigs.contains (s.cntKey a.toNat) = false →
      (s.isHere (cntModule a.toNat) = true → s.noWait next →
        (∀ us, us = (if tmo = 0 then s.syncDefault else tmo.toNat) → ∃ t, exec (.wait b c rd rs rt consume tmo 0) s = .next t ∧
          s.blockedFor t b c (.wait ⟨rd, a.toNat, (s.s b c rt).toNat % 2 ^ 32, consume, us, s.pulse, s.pulse, .sent⟩) ∧
          t.whoOf b c = next ∧
          t.sync.inbox = s.sync.inbox ++ [(cntIndex a.toNat, next, .wait ((s.s b c rt).toNat % 2 ^ 32) consume us)]) ∧
        ∃ t, exec (.take b c rd rs rt 0) s = .next t ∧ s.blockedFor t b c (.take rd a.toNat) ∧ t.whoOf b c = next ∧
          t.sync.inbox = s.sync.inbox ++ [(cntIndex a.toNat, next, .take ((s.s b c rt).toNat % 2 ^ 32))]) ∧
      (s.isHere (cntModule a.toNat) = false →
        (∃ t, exec (.wait b c rd rs rt consume tmo 0) s = .next t ∧ t.pc b c = s.nextPc b c ∧ t.mem = s.mem ∧
          (s.scalarIs t b c 0 0 ∧ (∃ w, (t.ctx b c).blk = some (.wait w)) ∨
            s.scalarIs t b c rd (BitVec.ofNat 64 (2 ^ 32)) ∧ t.runsAgain b c)) ∧
        ∃ t, exec (.take b c rd rs rt 0) s = .next t ∧ t.pc b c = s.nextPc b c ∧ t.mem = s.mem ∧
          (s.scalarIs t b c 0 0 ∧ (t.ctx b c).blk = some (.take rd a.toNat) ∨ s.scalarIs t b c rd 0 ∧ t.runsAgain b c))) ∧
    (s.issues b c {} = true → ∀ q ∈ [(Instr.fenceB b c 0, 0), (Instr.fenceM b c 0, 1), (Instr.fenceD b c 0, 2)],
      (s.fenceMet b c q.2 = true → ∃ t, exec q.1 s = .next t ∧ s.wentOn t b c) ∧
      (s.fenceMet b c q.2 = false → ∃ t, exec q.1 s = .next t ∧ s.blockedFor t b c (.fence q.2))) ∧
    (∀ scope, (s.ctx b c).blk = some (.fence scope) → s.fenceMet b c scope = true →
      ∃ t, exec (.fenceComplete b c) s = .next t ∧ t.runsAgain b c ∧ t.pc b c = s.pc b c ∧ s.scalarIs t b c 0 0 ∧ t.mem = s.mem) ∧
    (s.issues b c { dwl := false, sregs := [rd.val] } = true → u.val < 5 →
      ∃ t, exec (.flagr b c rd u 0 0) s = .next t ∧ s.wroteS t b c rd (s.rd (flagReg b u) &&& 15)) ∧
    (s.issues b c { dwl := false } = true → u.val < 5 →
      ∃ t, exec (.flagc b c u clr 0 0) s = .next t ∧ t.pc b c = s.nextPc b c ∧ s.scalarIs t b c 0 0 ∧ s.sameFiles t b c ∧ t.mem = s.mem ∧
        ∀ k < 64, (t.rd (flagReg b u)).getLsbD k = ((s.rd (flagReg b u)).getLsbD k &&
          !(clr.getLsbD k && !(FMap.getD s.cyc.set (flagReg b u) 0).getLsbD k)))

/-- LOPEN with no layer open sends its open request to a word of this module and blocks; to one of another module it
blocks, or opens the layer with LOST where the request cannot be sent (06 R186; 11 R334); LOPEN_TIMEOUT opens the
layer with LOST after the default timeout. LCOMMIT outside a layer answers outcome 7, with LOST its own TIMEOUT, and
otherwise blocks until its fence holds and every merge has committed, when LCOMMIT_ARRIVAL_SEND sends the arrival with
the layer's flags and attempt (R188, R193). LAYER_ABORT_ARRIVAL of a stopped thread whose work is done sends the abort
arrival and closes the layer (R191). -/
def Obligations.LayerInstructions : Prop :=
  ∀ (b : BenchNo) (c : Ctx) (th : Thr) (rd rs rt : Fin 32) (ltag : BitVec 16) (rung : Fin 4) (lad : Fin 2) (s : State)
    (a : Word) (n l : Nat), a = s.s b c rs → n = (s.s b c rt).toNat % 65536 → l = A.numLayer b c.idx →
    (s.issues b c { dwl := false, sregs := [rs.val] } = true → s.layerOpen b c = false → a.toNat < 2 ^ 30 → a.toNat % 4 = 0 →
      (lad = 1 → rung.val ≤ 2) →
      (s.isHere (cntModule a.toNat) = true → ∃ t, exec (.lopen b c rs ltag rung lad 0) s = .next t ∧
        s.blockedFor t b c (.lopen a.toNat ltag.toNat rung lad s.pulse) ∧
        t.sync.inbox = s.sync.inbox ++ [(cntIndex a.toNat, t.whoOf b c, .openWord ltag.toNat rung lad)]) ∧
      (s.isHere (cntModule a.toNat) = false → ∃ t, exec (.lopen b c rs ltag rung lad 0) s = .next t ∧
        t.pc b c = s.nextPc b c ∧ s.scalarIs t b c 0 0 ∧ s.sameFiles t b c ∧ t.mem = s.mem ∧
        ((t.ctx b c).blk = some (.lopen a.toNat ltag.toNat rung lad s.pulse) ∨
          t.runsAgain b c ∧ t.layerOpen b c = true ∧ t.flag l F.numLayer.LOST = true))) ∧
    (s.issues b c { dwl := false, sregs := [rd.val, rs.val, rt.val] } = true → n ≠ 0 → a.toNat < 2 ^ 30 →
      (s.layerOpen b c = false → ∃ t, exec (.lcommit b c rd rs rt 0) s = .next t ∧ s.wroteS t b c rd 7) ∧
      (s.layerOpen b c = true → s.flag l F.numLayer.LOST = true →
        ∃ t, exec (.lcommit b c rd rs rt 0) s = .next t ∧ s.scalarIs t b c rd (s.ownOutcome b c 5 0) ∧
          t.pc b c = s.nextPc b c ∧ t.layerOpen b c = false) ∧
      (s.layerOpen b c = true → s.flag l F.numLayer.LOST = false →
        ∃ t, exec (.lcommit b c rd rs rt 0) s = .next t ∧ s.blockedFor t b c (.lcommitFence rd a.toNat n s.pulse))) ∧
    (c = th.ctx → ∀ word k since, (s.ctx b c).blk = some (.lcommitFence rd word k since) → s.fenceMet b c 2 = true →
      s.mergesDone b c = true → s.isHere (cntModule word) = true → ∃ t, exec (.lcommitArrivalSend b th) s = .next t ∧
        (t.ctx b c).blk = some (.lcommit rd word k s.pulse) ∧ s.scalarIs t b c 0 0 ∧ t.mem = s.mem ∧
        t.sync.inbox = s.sync.inbox ++ [(cntIndex word, s.whoOf b c,
          .arrival (s.fld l F.numLayer.LFLAGS) k (s.fld l F.numLayer.ATTEMPT) s.syncDefault)]) ∧
    (c = th.ctx → ∀ word tag r ld since, (s.ctx b c).blk = some (.lopen word tag r ld since) → (s.ctx b c).stopping = none →
      s.reached since s.syncDefault = true → ∃ t, exec (.lopenTimeout b th) s = .next t ∧ t.runsAgain b c ∧
        t.layerOpen b c = true ∧ t.flag l F.numLayer.LOST = true ∧ t.fld l F.numLayer.LTAG = tag % 65536 ∧
        t.fld l F.numLayer.RUNG = r % 4 ∧ t.fld l F.numLayer.LFLAGS = 0 ∧ t.mem = s.mem) ∧
    (c = th.ctx → ∀ trap, (s.ctx b c).abortDue = some trap → s.workDone b c = true →
      s.isHere (cntModule (s.fld l F.numLayer.WORD)) = true → ∃ t, exec (.layerAbortArrival b th) s = .next t ∧
        (t.ctx b c).abortDue = none ∧ t.layerOpen b c = false ∧ t.mem = s.mem ∧
        t.sync.inbox = s.sync.inbox ++ [(cntIndex (s.fld l F.numLayer.WORD), s.whoOf b c,
          .abort (s.fld l F.numLayer.LFLAGS) (s.fld l F.numLayer.ATTEMPT) trap)])

/-- An operation that reaches the home of an unarmed counter with no waiter record there: SIGNAL and RESTORE add and
saturate at 2^32 - 1 with OVF, TAKE subtracts and stops at 0 with UDF and answers the value before, WAIT answers the
value, consuming its threshold where it asks to, or leaves a waiter record with its deadline (11 R324, R325, R331),
and a store sets the value. CANCEL removes the record of its wait (R333). An operation on an armed layer flag word
changes nothing (06 R185). No other counter changes. -/
def Obligations.CountersAtHome : Prop :=
  ∀ (v : Via) (i : BitVec 16) (who : Who) (x : BitVec 32) (k : Nat) (m : Nat) (s : State), k = s.counter i.toNat →
    (s.armed i.toNat = false → (∀ r ∈ s.sync.waiters, r.index ≠ i.toNat) →
      (∀ q ∈ [(Instr.counterSignal v i who x, SyncOp.signal x.toNat), (Instr.counterRestore v i who x, SyncOp.restore x.toNat)],
        s.reaches v i.toNat who q.2 m →
        ∃ t, exec q.1 s = .next t ∧ t.counter i.toNat = min (k + x.toNat) (2 ^ 32 - 1) ∧
          t.flag (A.syncCnt i.toNat) F.syncCnt.OVF = (s.flag (A.syncCnt i.toNat) F.syncCnt.OVF || decide (2 ^ 32 ≤ k + x.toNat)) ∧
          s.answersWith t v i.toNat who .done ∧ t.mem = s.mem ∧ ∀ j < 65536, j ≠ i.toNat → t.counter j = s.counter j) ∧
      (s.reaches v i.toNat who (.take x.toNat) m → ∃ t, exec (.counterTake v i who x) s = .next t ∧
        t.counter i.toNat = k - x.toNat ∧ s.answersWith t v i.toNat who (.value k) ∧
        t.flag (A.syncCnt i.toNat) F.syncCnt.UDF = (s.flag (A.syncCnt i.toNat) F.syncCnt.UDF || decide (k < x.toNat)) ∧
        ∀ j < 65536, j ≠ i.toNat → t.counter j = s.counter j) ∧
      (∀ (consume : Bool) (tmo : BitVec 24), s.reaches v i.toNat who (.wait x.toNat consume tmo.toNat) m →
        (x.toNat ≤ k → ∃ t, exec (.counterWait v i who x consume tmo) s = .next t ∧ s.answersWith t v i.toNat who (.value k) ∧
          t.counter i.toNat = (if consume then k - x.toNat else k) ∧ t.sync.waiters = s.sync.waiters) ∧
        (k < x.toNat → s.sync.waiters.length < 16384 → ∃ t, exec (.counterWait v i who x consume tmo) s = .next t ∧
          s.answersWith t v i.toNat who .held ∧ t.counter i.toNat = k ∧
          t.sync.waiters = s.sync.waiters ++ [⟨i.toNat, m, who, x.toNat, consume,
            if who.ctx = 0 then none else some (s.pulse + tmo.toNat * usPulses)⟩])) ∧
      ∃ t, exec (.counterStore i x who) s = .next t ∧ t.counter i.toNat = x.toNat ∧
        ∀ j < 65536, j ≠ i.toNat → t.counter j = s.counter j) ∧
    (s.armed i.toNat = true →
      ∀ q ∈ [(Instr.counterSignal v i who x, SyncOp.signal x.toNat), (Instr.counterRestore v i who x, SyncOp.restore x.toNat),
          (Instr.counterTake v i who x, SyncOp.take x.toNat)],
        s.reaches v i.toNat who q.2 m → ∃ t, exec q.1 s = .next t ∧ ∀ j < 65536, t.counter j = s.counter j) ∧
    (s.reaches v i.toNat who .cancel m → (∃ r ∈ s.sync.waiters, r.index = i.toNat ∧ r.who = who ∧ r.home = m) →
      ∃ t, exec (.waitCancel v i who) s = .next t ∧ (∀ r ∈ t.sync.waiters, ¬(r.index = i.toNat ∧ r.who = who ∧ r.home = m)) ∧
        s.answersWith t v i.toNat who (.cancel .cancelled) ∧ ∀ j < 65536, t.counter j = s.counter j)

/-- A signal that lifts an unarmed counter of this module to the threshold of its only waiter record, held for this
module, completes it (11 R326): a consuming one takes its threshold, the record is gone, and its result is kept for
the NOTIFY (R328, R330), or ends the Sideboards' own wait for a global norm (08 R243). WAIT_DEADLINE_EXPIRY completes
a record at its deadline as a timeout with the present value, nothing consumed (R331); NOTIFY_RESULT_EXPIRY drops a
result whose NOTIFY failed 10 ms ago. -/
def Obligations.WaitersAreServed : Prop :=
  ∀ (v : Via) (i : BitVec 16) (home : BitVec 14) (who : Who) (x : BitVec 32) (m : Nat) (r : Waiter) (s : State),
    r.index = i.toNat → r.home = home.toNat →
    (s.sync.waiters = [r] → r.home = s.modnum →
      (s.armed i.toNat = false → s.reaches v i.toNat who (.signal x.toNat) m → s.counter i.toNat + x.toNat < 2 ^ 32 → x ≠ 0 →
        r.threshold ≤ s.counter i.toNat + x.toNat →
        ∃ t, exec (.counterSignal v i who x) s = .next t ∧ t.sync.waiters = [] ∧
          t.counter i.toNat = s.counter i.toNat + x.toNat - (if r.consume then r.threshold else 0) ∧
          (if r.who = sumWho then t.sbd.sumWait = .done
            else if r.who = resultWho then t.sbd.resultWait = .done
            else t.sync.kept = s.sync.kept ++ [⟨r, .satisfied (s.counter i.toNat + x.toNat), none⟩])) ∧
      ∀ d, r.deadline = some d → d ≤ s.pulse → r.who ≠ sumWho → r.who ≠ resultWho →
        ∃ t, exec (.waitDeadlineExpiry ⟨i, home⟩ r.who) s = .next t ∧ t.sync.waiters = [] ∧
          t.counter i.toNat = s.counter i.toNat ∧ t.sync.kept = s.sync.kept ++ [⟨r, .timeout (s.counter i.toNat), none⟩]) ∧
    ∀ t0 res, s.sync.kept = [⟨r, res, some t0⟩] → s.reached t0 10000 = true →
      ∃ t, exec (.notifyResultExpiry ⟨i, home⟩ r.who) s = .next t ∧ t.sync.kept = [] ∧ t.regs = s.regs

/-- An answer of this module's own table to a WAIT on its counter, or to a TAKE, writes RD and its context goes on (04
R134; 11 R325); a NOTIFY does the same with the result kept for it (R328); an answer to LOPEN opens the layer with its
attempt (06 R186), an outcome closes it and goes to RD (R188). A BUSY wait is sent again after 2 µs (R329), a held one
sends CANCEL 1 ms after its timeout (R333), and one not sent by its timeout ends with 2^32 and event 0x50 (10 R312).
-/
def Obligations.SyncAnswers : Prop :=
  ∀ (b : BenchNo) (th : Thr) (c : Ctx) (v : Via) (i : BitVec 16) (who : Who) (s : State), c = th.ctx → who = s.whoOf b c →
    (s.ctx b c).stopping = none →
    (∀ w k st, (s.ctx b c).blk = some (.wait w) → w.phase = .sent → s.cntKey w.counter = s.modnum * 65536 + i.toNat →
      s.isOwn v = true → s.sync.answers[v.seq]? = some (i.toNat, who, .value k) →
      ∃ t, exec (.syncResponse v st (.value k)) s = .next t ∧ t.runsAgain b c ∧ s.scalarIs t b c w.rd (BitVec.ofNat 64 k) ∧
        t.mem = s.mem) ∧
    (∀ rd a k st, (s.ctx b c).blk = some (.take rd a) → s.isOwn v = true →
      s.sync.answers[v.seq]? = some (i.toNat, who, .value k) →
      ∃ t, exec (.syncResponse v st (.value k)) s = .next t ∧ t.runsAgain b c ∧ s.scalarIs t b c rd (BitVec.ofNat 64 k) ∧
        t.mem = s.mem) ∧
    (∀ w k keep x consume, (s.ctx b c).blk = some (.wait w) → s.cntKey w.counter = s.modnum * 65536 + i.toNat →
      s.isOwn v = true → s.sync.kept = [keep] → keep.waiter.index = i.toNat → keep.waiter.who = who →
      keep.waiter.home = s.modnum → keep.result = .satisfied k → (s.bench b).copying = false →
      ∃ t, exec (.notify v i who (.satisfied k) x consume) s = .next t ∧ t.runsAgain b c ∧ t.sync.kept = [] ∧
        s.scalarIs t b c w.rd (BitVec.ofNat 64 k) ∧ t.mem = s.mem) ∧
    (∀ word tag r ld since (n : BitVec 8), (s.ctx b c).blk = some (.lopen word tag r ld since) → s.isOwn v = true →
      s.sync.answers[v.seq]? = some (i.toNat, who, .opened n.toNat) →
      ∃ t, exec (.lopenAnswer v n) s = .next t ∧ t.runsAgain b c ∧ t.layerOpen b c = true ∧
        t.fld (A.numLayer b c.idx) F.numLayer.ATTEMPT = n.toNat ∧ t.fld (A.numLayer b c.idx) F.numLayer.LTAG = tag % 65536 ∧
        t.flag (A.numLayer b c.idx) F.numLayer.LOST = false ∧ t.mem = s.mem) ∧
    (∀ rd word k since (o : Word), (s.ctx b c).blk = some (.lcommit rd word k since) → s.isOwn v = true →
      o.toNat % 8 ≠ 6 → (i.toNat, who, .outcome o) ∈ s.sync.answers →
      ∃ t, exec (.lcommitOutcome v i who o) s = .next t ∧ t.runsAgain b c ∧ s.scalarIs t b c rd o ∧
        t.layerOpen b c = false ∧ t.mem = s.mem) ∧
    (∀ w, (s.ctx b c).blk = some (.wait w) → w.phase = .busy → s.reached w.issuedAt w.tmo = false → s.reached w.phaseAt 2 = true →
      s.isHere (cntModule w.counter) = true → s.noWait who →
      ∃ t, exec (.waitBusyRetry b th) s = .next t ∧ (t.ctx b c).blk = some (.wait { w with phase := .sent, phaseAt := s.pulse }) ∧
        t.sync.inbox = s.sync.inbox ++ [(cntIndex w.counter, who, .wait w.threshold w.consume w.tmo)] ∧ t.mem = s.mem) ∧
    (∀ w, (s.ctx b c).blk = some (.wait w) → w.phase = .held → s.reached w.phaseAt (w.tmo + 1000) = true →
      s.isHere (cntModule w.counter) = true →
      ∃ t, exec (.waitBackstopExpiry b th) s = .next t ∧
        (t.ctx b c).blk = some (.wait { w with phase := .cancelBack, phaseAt := s.pulse }) ∧
        t.sync.inbox = s.sync.inbox ++ [(cntIndex w.counter, who, .cancel)] ∧ t.mem = s.mem) ∧
    (∀ w, (s.ctx b c).blk = some (.wait w) → w.phase = .due → s.reached w.issuedAt w.tmo = true →
      ∃ t, exec (.waitQuotaTimeout b th) s = .next t ∧ t.runsAgain b c ∧ s.scalarIs t b c w.rd (BitVec.ofNat 64 (2 ^ 32)) ∧
        (s.evt.accepting = true → ∃ p, t.evt.raised = s.evt.raised ++ [⟨0x50, evSource 4 0, p⟩]) ∧ t.mem = s.mem)

/-- A thread that is being stopped while its WAIT is held has sent CANCEL; the answer CANCELLED, from this module's
own table, stops it with the cause of the stop (04 R105; 11 R333). -/
def Obligations.CancelStops : Prop :=
  ∀ (b : BenchNo) (th : Thr) (c : Ctx) (v : Via) (i : Nat) (w : WaitSt) (cause : Nat) (s : State), c = th.ctx → cause < 0x10 →
    (s.ctx b c).stopping = some ⟨cause, none, none⟩ → (s.ctx b c).blk = some (.wait w) → w.phase = .cancelStop →
    s.cntKey w.counter = s.modnum * 65536 + i → s.isOwn v = true →
    s.sync.answers[v.seq]? = some (i, s.whoOf b c, .cancel .cancelled) →
    ∃ t, exec (.cancelAnswer v .cancelled) s = .next t ∧ t.fld (A.benchThr b c.idx) F.benchThr.STATE = 0 ∧
      t.fld (A.benchThr b c.idx) F.benchThr.CAUSE = cause ∧ (t.ctx b c).stopping = none ∧ s.scalarIs t b c 0 0 ∧ t.mem = s.mem

/-- At the word of a layer with no waiter record on it: an open request on an unarmed word arms it with a new attempt,
its rung and ladder, and no arrival counted (06 R187); the arrival of the only participant, clean and of the open
attempt, publishes, GEN counted and the word unarmed (R189, R190); an abort arrival of the open attempt, alone and
with EXPECT unknown, is counted and marked; LAYER_ABORT_TIMEOUT closes such a word with outcome 3, and LCOMMIT_TIMEOUT
one with an overdue arrival with outcome 5 (R189, R192). -/
def Obligations.LayersAtHome : Prop :=
  ∀ (v : Via) (i : BitVec 16) (home : BitVec 14) (who : Who) (w m : Nat) (s : State), w = wordOf i.toNat →
    (∀ r ∈ s.sync.waiters, wordOf r.index ≠ w) →
    (∀ (ltag : BitVec 16) (rung : Fin 4) (lad : Fin 2), s.reaches v i.toNat who (.openWord ltag.toNat rung lad) m →
      s.armed w = false →
      ∃ t, exec (.layerOpenRequest v i who ltag rung lad) s = .next t ∧ t.armed w = true ∧ t.lw w 0 lwArmed = 1 ∧ t.lw w 0 lwRung = rung ∧
        t.lw w 0 lwLad = lad ∧ t.lw w 0 lwAttempt = (s.lw w 0 lwAttempt + 1) % 256 ∧ t.lw w 0 lwFlags = 0 ∧
        t.lw w 0 lwAbort = 0 ∧ t.counter (w + 1) = 0 ∧ t.lw w 2 lwLtag = ltag.toNat ∧ t.lwGen w = s.lwGen w ∧
        s.answersWith t v i.toNat who (.opened ((s.lw w 0 lwAttempt + 1) % 256))) ∧
    (∀ flags attempt tmo, s.reaches v i.toNat who (.arrival flags 1 attempt tmo) m → s.matches w attempt = true →
      s.lw w 1 lwExpect = 0 → s.lw w 1 lwArrived = 0 → s.lw w 0 lwAbort = 0 → s.lw w 0 lwDisagree = 0 →
      (s.lw w 0 lwFlags).testBit 3 = false → flags.testBit 3 = false →
      ∃ t, exec (.layerArrival v i who (.arrival flags 1 attempt tmo)) s = .next t ∧ t.armed w = false ∧ t.lw w 0 lwArmed = 0 ∧
        t.lwGen w = (s.lwGen w + 1) % 2 ^ 32 ∧ t.lw w 2 lwLast = 0) ∧
    (∀ flags attempt trap, s.reaches v i.toNat who (.abort flags attempt trap) m → s.matches w attempt = true →
      s.lw w 1 lwExpect = 0 → s.lw w 1 lwArrived = 0 →
      ∃ t, exec (.layerArrival v i who (.abort flags attempt trap)) s = .next t ∧ t.lw w 0 lwAbort = 1 ∧
        t.lw w 1 lwArrived = 1 ∧ t.armed w = true ∧ FMap.has t.sync.abortAt w = true ∧ t.lwGen w = s.lwGen w) ∧
    (∀ t0, FMap.get? s.sync.abortAt w = some t0 → s.armed w = true → s.lw w 1 lwExpect = 0 →
      s.reached t0 s.syncDefault = true →
      ∃ t, exec (.layerAbortTimeout i) s = .next t ∧ t.armed w = false ∧ t.lw w 0 lwArmed = 0 ∧ t.lw w 2 lwLast = 3 ∧ t.lwGen w = s.lwGen w) ∧
    (∀ x, s.sync.lwait = [x] → x.word = i.toNat → i.toNat = w → x.who = who → x.home = home.toNat → x.deadline ≤ s.pulse →
      ∃ t, exec (.lcommitTimeout ⟨i, home⟩ who) s = .next t ∧ t.armed w = false ∧ t.lw w 0 lwArmed = 0 ∧ t.lw w 2 lwLast = 5 ∧ t.lwGen w = s.lwGen w ∧
        t.sync.lwait = [])

/-- LEND_START of a Bench that has rested as long as SYNC_LEND asks, and is not being taken over (16 R451), sets its
LENT bit and gates its Desks (11 R338); DESK_UNGATE, 64 cycles of its clock after lending has ended, makes the Desks
usable, at half rate for 5 µs where the pool cannot return the share at once (whether it can is free in this model,
log 2, but it cannot while the draw lies above a new cap, 17 R478); LEND_HALF_RATE_END ends the half rate with its
cycles, at most 5 µs, counted (R339). -/
def Obligations.PowerLending : Prop :=
  ∀ (b : BenchNo) (s : State),
    (s.flag A.syncLend F.syncLend.EN = true → (s.bench b).lend.lending = false → (s.bench b).lend.ungateAt = none →
      (s.bench b).takeover = none → s.mayLend b = true →
      s.reached (max (s.bench b).lend.since s.cycZero) (max 1 (s.fld A.syncLend F.syncLend.THRESH)) = true →
      ∃ t, exec (.lendStart b) s = .next t ∧ (t.bench b).lend.lending = true ∧ (∀ d, t.deskWorks b d = false) ∧
        (t.fld (A.syncLent (b / 64)) F.syncLent.LENT).testBit (b % 64) = true ∧
        (∀ k < 64, k ≠ b.val % 64 → (t.fld (A.syncLent (b / 64)) F.syncLent.LENT).testBit k =
          (s.fld (A.syncLent (b / 64)) F.syncLent.LENT).testBit k) ∧ t.mem = s.mem) ∧
    (∀ t0, (s.bench b).lend.ungateAt = some t0 → t0 ≤ s.benchCyc b →
      ∃ t, exec (.deskUngate b) s = .next t ∧ (t.bench b).lend.ungateAt = none ∧
        ((t.bench b).lend.halfUntil = none ∧ s.pwr.falling = false ∨ (t.bench b).lend.halfUntil = some (s.pulse + 4000)) ∧
        t.regs = s.regs) ∧
    ∀ t0, (s.bench b).lend.halfUntil = some t0 → t0 ≤ s.pulse →
      ∃ t, exec (.lendHalfRateEnd b) s = .next t ∧ (t.bench b).lend.halfUntil = none ∧
        t.fld A.syncStat F.syncStat.SLOW =
          min (s.fld A.syncStat F.syncStat.SLOW + min 4000 (s.benchCyc b - (s.bench b).lend.halfSince)) (2 ^ F.syncStat.SLOW.width - 1)

/-- A write to a Bench that moves is held (01 R23). A read or write of the region of any other size or alignment, or
of an address without a register, reads as zero and changes nothing (00 R10, R11). A write of a register that has no
action of its own gives each RW field its value, clears each W1C bit to which a one is written unless hardware has set
it in the same cycle (R7), leaves the rest, and leaves every other register (R6, R9); a 32-bit write does so to the
bits it covers, and a read returns the value or its half. -/
def Obligations.RegisterAccess : Prop :=
  ∀ (who : Who) (q : Nat) (b : BenchNo) (d : DeskNo) (k : Stack) (i : Fin 8) (v : Word) (s : State),
    (∀ a n, s.memReady a n = false → ∃ t, exec (.registerWrite who a n v) s = .next t ∧ s.onlyIn [.tmr] t ∧
      t.tmr.held = s.tmr.held ++ [Held.regWr who a n v.toNat]) ∧
    (∀ a n, s.memReady a n = true → s.rst.on = false ∨ (n ≠ 8 ∧ n ≠ 4) ∨ a % n ≠ 0 ∨
        (regDesc (a - a % 8) = none ∧ (a < slotBase ∨ slotBase + 0x4000 ≤ a)) →
      exec (.registerWrite who a n v) s = .next s) ∧
    (∀ a n, (n ≠ 8 ∧ n ≠ 4) ∨ a % n ≠ 0 ∨ (regDesc (a - a % 8) = none ∧ (a < slotBase ∨ slotBase + 0x4000 ≤ a) ∧
        (a < mirrorBase ∨ mirrorBase + 0x2000 ≤ a)) → s.regRead q a n = (s, leBytes n 0)) ∧
    ∀ a ∈ plainRegs b d k i, ∃ r, regDesc a = some r ∧ s.regRead q a 8 = (s, leBytes 8 (s.rd a).toNat) ∧
      s.regRead q a 4 = (s, leBytes 4 (s.rd a).toNat) ∧ s.regRead q (a + 4) 4 = (s, leBytes 4 ((s.rd a).toNat / 2 ^ 32)) ∧
      (s.rst.on = true → s.memReady a 8 = true →
        (∃ t, exec (.registerWrite who a 8 v) s = .next t ∧ s.onlyIn [.regs] t ∧ (∀ x, x ≠ a → t.rd x = s.rd x) ∧
          ∀ j < 64, (t.rd a).getLsbD j =
            if r.rw.testBit j then v.getLsbD j
            else if r.w1c.testBit j && v.getLsbD j then (s.rd a).getLsbD j && (FMap.getD s.cyc.set a 0).getLsbD j
            else (s.rd a).getLsbD j) ∧
        ∀ h < 2, ∃ t, exec (.registerWrite who (a + 4 * h) 4 v) s = .next t ∧ s.onlyIn [.regs] t ∧ (∀ x, x ≠ a → t.rd x = s.rd x) ∧
          ∀ j < 64, (t.rd a).getLsbD j =
            if j / 32 ≠ h then (s.rd a).getLsbD j
            else if r.rw.testBit j then v.getLsbD (j % 32)
            else if r.w1c.testBit j && v.getLsbD (j % 32) then (s.rd a).getLsbD j && (FMap.getD s.cyc.set a 0).getLsbD j
            else (s.rd a).getLsbD j)

/-- An access to a codeword of an initialised stack: a permitted write stores the enabled bytes and changes no other,
a partial one where the codeword reads good, a whole one always, after which the codeword is good (09 R269, R272); a
partial one to an uncorrectable codeword is discarded with kind 3 (R272); a denied write changes no memory, is
counted, and the first is recorded with kind 4 (R280). A read of a good codeword returns its bytes and changes
nothing; of one whose errors the decoder corrects (R270, R271), the corrected bytes, written back and counted in CE;
of an uncorrectable one, zeros marked bad, counted in UE, recorded and reported, of kind 2 for an address error (R271,
R273); an injection is used up by one read (R286). An access before initialisation is held (R267); at or above 1,536
GiB a read answers zeros and a write is ignored (R268; 00 R11). -/
def Obligations.TallboyAccess : Prop :=
  ∀ (cls : Fin 8) (ia n : Nat) (d : Bytes) (be : List Bool) (s : State) (k cw : Nat), k = stackOf ia → cw = cwOf ia →
    n ≠ 0 → ia % 64 + n ≤ 64 → d.length = n → be.length = n →
    (ia < viewSize → s.tbyReady k = false → ∀ wr flips, (wr = none ∨ wr = some (d, be)) →
      ∃ t, exec (.tbyAccess cls ia n wr flips) s = .next t ∧ s.onlyIn [.tmr, .tby] t ∧
        t.tmr.held = s.tmr.held ++ [Held.tby cls ia n wr]) ∧
    (viewSize ≤ ia → exec (.tbyAccess cls ia n (some (d, be)) []) s = .next s ∧
      ∃ t, exec (.tbyAccess cls ia n none []) s = .next t ∧ s.onlyIn [.out] t ∧
        t.out = s.out ++ [Msg.tallboy k ia (leBytes n 0) true]) ∧
    (ia < viewSize → s.tbyReady k = true →
      (s.writePermitted cls ia = true →
        (s.soundAt ia n ∨ (n = 64 ∧ be = List.replicate 64 true) →
          ∃ t, exec (.tbyAccess cls ia n (some (d, be)) []) s = .next t ∧ (t.stack k).ue.contains cw = false ∧ t.upsets cw = [] ∧
            t.regs = s.regs ∧
            ∀ x, t.mem.byte x = if ia ≤ x ∧ x < ia + n ∧ be.getD (x - ia) false = true then d.getD (x - ia) 0 else s.mem.byte x) ∧
        ((s.stack k).ue.contains cw = true → be.all id = false ∨ n < 64 →
          ∃ t, exec (.tbyAccess cls ia n (some (d, be)) []) s = .next t ∧ t.mem = s.mem ∧
            t.fld (A.tbyEcc k) F.tbyEcc.UE = min (s.fld (A.tbyEcc k) F.tbyEcc.UE + 1) (2 ^ 16 - 1) ∧
            s.raises t 0x30 (evSource 2 k) (leBytes 8 cw ++ [3, BitVec.ofNat 8 k, BitVec.ofNat 8 (s.layerOf cw),
              BitVec.ofNat 8 (s.pcOf cw), BitVec.ofNat 8 cls]))) ∧
      (s.writePermitted cls ia = false → ∃ t, exec (.tbyAccess cls ia n (some (d, be)) []) s = .next t ∧ t.mem = s.mem ∧
        t.fld A.tbyRgnStat F.tbyRgnStat.COUNT = min (s.fld A.tbyRgnStat F.tbyRgnStat.COUNT + 1) (2 ^ 32 - 1) ∧
        (s.flag A.tbyRgnStat F.tbyRgnStat.VALID = true →
          t.fld A.tbyRgnStat F.tbyRgnStat.CLASS = s.fld A.tbyRgnStat F.tbyRgnStat.CLASS ∧ t.rd A.tbyRgnAddr = s.rd A.tbyRgnAddr ∧
            t.evt = s.evt) ∧
        (s.flag A.tbyRgnStat F.tbyRgnStat.VALID = false → t.flag A.tbyRgnStat F.tbyRgnStat.VALID = true ∧
          t.fld A.tbyRgnStat F.tbyRgnStat.CLASS = cls ∧ t.fld A.tbyRgnAddr F.tbyRgnAddr.ADDR = ia ∧
          s.raises t 0x30 (evSource 2 k) (leBytes 8 ia ++ [4, BitVec.ofNat 8 k, BitVec.ofNat 8 (s.layerOf cw),
            BitVec.ofNat 8 (s.pcOf cw), BitVec.ofNat 8 cls]))) ∧
      (s.soundAt ia n → ∃ t, exec (.tbyAccess cls ia n none []) s = .next t ∧ s.onlyIn [.out] t ∧
        t.out = s.out ++ [Msg.tallboy k ia (s.mem.read ia n) true]) ∧
      (∃ t, exec (.tbyAccess cls ia n none []) s = .next t ∧ (t.stack k).injUe = false ∧ (t.stack k).injCe = false) ∧
      (∀ flips u, u = (s.strike flips).upsets cw →
        (∀ fix, (s.stack k).injUe = false → (s.stack k).injCe = false → (s.stack k).ue.contains cw = false →
          rsDecode u = .corrected fix → applyErrors (applyErrors (s.mem.read cw 64) u) fix = s.mem.read cw 64 →
          ∃ t, exec (.tbyAccess cls ia n none flips) s = .next t ∧ (∀ x, t.mem.byte x = s.mem.byte x) ∧ t.upsets cw = [] ∧
            t.fld (A.tbyEcc k) F.tbyEcc.CE = min (s.fld (A.tbyEcc k) F.tbyEcc.CE + 1) (2 ^ 32 - 1) ∧
            t.out = s.out ++ [Msg.tallboy k ia (s.mem.read ia n) true]) ∧
        ∀ kind, (kind = 1 ∧ ((s.stack k).injUe = true ∨ ((s.stack k).injCe = false ∧
              (rsDecode u = .uncorrectable ∨ (u = [] ∧ (s.stack k).ue.contains cw = true))))) ∨
            (kind = 2 ∧ (s.stack k).injUe = false ∧ (s.stack k).injCe = false ∧ rsDecode u = .addressError) →
          ∃ t, exec (.tbyAccess cls ia n none flips) s = .next t ∧ t.mem = s.mem ∧
            t.fld (A.tbyEcc k) F.tbyEcc.UE = min (s.fld (A.tbyEcc k) F.tbyEcc.UE + 1) (2 ^ 16 - 1) ∧
            t.out = s.out ++ [Msg.tallboy k ia (leBytes n 0) false] ∧
            (s.flag (A.tbyErr k) F.tbyErr.VALID = false → t.flag (A.tbyErr k) F.tbyErr.VALID = true ∧
              t.fld (A.tbyErr k) F.tbyErr.KIND = kind ∧ t.fld (A.tbyErr k) F.tbyErr.CLASS = cls ∧
              t.fld (A.tbyErrAddr k) F.tbyErrAddr.ADDR = cw) ∧
            s.raises t 0x30 (evSource 2 k) (leBytes 8 cw ++ [BitVec.ofNat 8 kind, BitVec.ofNat 8 k, BitVec.ofNat 8 (s.layerOf cw),
              BitVec.ofNat 8 (s.pcOf cw), BitVec.ofNat 8 cls])))

/-- TBY_INIT_COMPLETE of a stack on which no access waits zeroes its bytes and sets INIT, once (09 R267). A scrub read
that is due goes on from a good codeword to the next, and past the last counts a pass; one that is not due, or not
enabled, does nothing (R274). A finished row copy leaves the copies and stands in the records that ROWS counts, with
an event of kind 7 (R275); a finished remap sets REMAP to 2, with one of kind 9 (R276); neither does anything where
nothing is copied. TBY_CLR_CNT clears TBY_ECC, INJ_UE and INJ_CE arm the next read, and TBY_QOS takes its weights
(R284, R286). Bytes of other stacks never change. -/
def Obligations.TallboyUpkeep : Prop :=
  ∀ (k : Stack) (v : BitVec 24) (s : State),
    (s.flag (A.tbyStat k) F.tbyStat.INIT = true → exec (.tbyInitComplete k) s = .next s) ∧
    (s.flag (A.tbyStat k) F.tbyStat.INIT = false → s.tmr.held = [] → ∃ t, exec (.tbyInitComplete k) s = .next t ∧
      t.flag (A.tbyStat k) F.tbyStat.INIT = true ∧ (t.stack k).ue = [] ∧ (t.stack k).upsets = [] ∧
      ∀ x, t.mem.byte x = if x < viewSize ∧ stackOf x = k then 0 else s.mem.byte x) ∧
    (s.flag (A.tbyScrub k) F.tbyScrub.EN = false ∨ s.tbyReady k = false ∨
        s.scrubNow < (s.stack k).scrubAt + s.scrubStep k → exec (.tbyScrubRead k []) s = .next s) ∧
    (s.flag (A.tbyScrub k) F.tbyScrub.EN = true → s.tbyReady k = true → (s.stack k).scrubAt + s.scrubStep k ≤ s.scrubNow →
      s.soundAt (viewOf k ((s.stack k).scrub * 64)) 64 →
      ∃ t, exec (.tbyScrubRead k []) s = .next t ∧ t.mem = s.mem ∧
        ((s.stack k).scrub + 1 < stackCodewords → (t.stack k).scrub = (s.stack k).scrub + 1 ∧ t.regs = s.regs) ∧
        (stackCodewords ≤ (s.stack k).scrub + 1 → (t.stack k).scrub = 0 ∧ (t.stack k).ceCw = [] ∧
          t.fld (A.tbyScrub k) F.tbyScrub.PASSES = (s.fld (A.tbyScrub k) F.tbyScrub.PASSES + 1) % 2 ^ 32)) ∧
    ((s.stack k).copying = [] → exec (.tbyRowSpareComplete k) s = .next s) ∧
    (∀ cw r rest, (s.stack k).copying = (cw, r) :: rest →
      ∃ t, exec (.tbyRowSpareComplete k) s = .next t ∧ (t.stack k).copying = rest ∧
        (t.stack k).spared = (s.stack k).spared ++ [r] ∧
        t.fld (A.tbyStat k) F.tbyStat.ROWS = min (2 ^ 32 - 1) (countTrue (fun r => !r.remap) (t.stack k).spared) ∧
        ((∀ j, (s.stack j).upsets = [] ∧ (s.stack j).injCe = false) → t.mem = s.mem) ∧
        s.raises t 0x30 (evSource 2 k) (leBytes 8 cw ++ [7, BitVec.ofNat 8 k, BitVec.ofNat 8 r.layer,
          BitVec.ofNat 8 (r.row % 32), 6])) ∧
    ((s.stack k).remapBy = none → exec (.tbyRemapComplete k) s = .next s) ∧
    (∀ layer cw pc, (s.stack k).remapBy = some (layer, cw, pc) → ∃ t, exec (.tbyRemapComplete k) s = .next t ∧
      t.fld (A.tbyStat k) F.tbyStat.REMAP = 2 ∧ (t.stack k).remapBy = none ∧
      (t.stack k).spared = (s.stack k).spared ++ [⟨layer, 0, true, 0, 0⟩] ∧
      s.raises t 0x30 (evSource 2 k) (leBytes 8 cw ++ [9, BitVec.ofNat 8 k, BitVec.ofNat 8 layer, BitVec.ofNat 8 pc, 6])) ∧
    (∃ t, exec (.tbyClrCnt k) s = .next t ∧ s.regIs t (A.tbyEcc k) 0 ∧ s.onlyIn [.regs] t) ∧
    (∃ t, exec (.tbyInjUe k) s = .next t ∧ (∀ j, t.stack j = if j = k.val then { s.stack k with injUe := true } else s.stack j) ∧
      s.onlyIn [.tby] t) ∧
    (∃ t, exec (.tbyInjCe k) s = .next t ∧ (∀ j, t.stack j = if j = k.val then { s.stack k with injCe := true } else s.stack j) ∧
      s.onlyIn [.tby] t) ∧
    ∃ t, exec (.tbyQosWrite k v) s = .next t ∧ s.regIs t (A.tbyQos k) (v.setWidth 64) ∧ s.onlyIn [.regs] t

/-- A claim of a free resource holds it, a claim by the holder changes nothing, a claim while another holds it is
refused under 18 R491, and a release by the holder frees it, MARK_OUT driven low; a release by another changes nothing
(R488 to R490; 09 R281: a write of 0 while the Trestle holds the staging region has no effect). Of two claims of one
cycle the one with the lower code holds the resource, and the other is refused (R488). ALARM_SWEEP at the end of a
period begins the next and reports the contexts that were BLOCKED for the whole of it. -/
def Obligations.Claims : Prop :=
  ∀ (s : State) (h o : Nat), h = s.fld A.clkMark F.clkMark.HOLDER → o = s.fld A.tbyStage F.tbyStage.OWNER →
    (∀ q ∈ [(Instr.ppsOutClaim, 1, A.gtPps, F.gtPps.OUTEN), (Instr.calMarkClaim, 2, A.clkMark, F.clkMark.CALEN),
        (Instr.dbgTriggerClaim, 3, A.clkMark, F.clkMark.DBGEN)],
      (h = 0 → ∃ t, exec (q.1 true) s = .next t ∧ t.fld A.clkMark F.clkMark.HOLDER = q.2.1 ∧ t.fld q.2.2.1 q.2.2.2 = 1 ∧
        s.onlyIn [.regs, .cyc] t) ∧
      (h = q.2.1 → exec (q.1 true) s = .next s ∧ ∃ t, exec (q.1 false) s = .next t ∧ t.fld A.clkMark F.clkMark.HOLDER = 0 ∧
        t.fld q.2.2.1 q.2.2.2 = 0 ∧ t.clk.mark = false ∧ t.out = if s.clk.mark then s.out ++ [Msg.markOut false] else s.out) ∧
      (h ≠ 0 → h ≠ q.2.1 → exec (q.1 false) s = .next s ∧
        (s.outranks 1 q.2.1 h = false → ∃ t, exec (q.1 true) s = .next t ∧ s.refusedTo t 1 q.2.1 h) ∧
        (s.outranks 1 q.2.1 h = true → ∃ t, exec (q.1 true) s = .next t ∧ t.fld A.clkMark F.clkMark.HOLDER = q.2.1 ∧
          t.fld q.2.2.1 q.2.2.2 = 1 ∧ t.fld A.conflict F.conflict.LASTRES = 1 ∧ t.fld A.conflict F.conflict.LASTCLM = h))) ∧
    (∀ x : Fin 4, exec (.tbyStageWrite 3) s = .next s ∧ (o = 2 → exec (.tbyStageWrite 0) s = .next s) ∧
      (o = 1 → ∃ t, exec (.tbyStageWrite 0) s = .next t ∧ t.fld A.tbyStage F.tbyStage.OWNER = 0 ∧ t.mem = s.mem) ∧
      (x = 1 ∨ x = 2 →
        (o = 0 → ∃ t, exec (.tbyStageWrite x) s = .next t ∧ t.fld A.tbyStage F.tbyStage.OWNER = x ∧ t.mem = s.mem) ∧
        (o = x → exec (.tbyStageWrite x) s = .next s) ∧
        (o ≠ 0 → o ≠ x →
          (s.outranks 2 x o = false ∨ s.flag A.trsCtl F.trsCtl.EN = true →
            ∃ t, exec (.tbyStageWrite x) s = .next t ∧ s.refusedTo t 2 x o) ∧
          (s.outranks 2 x o = true → s.flag A.trsCtl F.trsCtl.EN = false →
            ∃ t, exec (.tbyStageWrite x) s = .next t ∧ t.fld A.tbyStage F.tbyStage.OWNER = x ∧
              t.fld A.conflict F.conflict.LASTRES = 2 ∧ t.fld A.conflict F.conflict.LASTCLM = o)))) ∧
    (s.fld A.clkAlarm F.clkAlarm.OWNER = 0 → s.flag A.clkAlarm F.clkAlarm.SWEEP = false →
      ∃ t, exec (.alarmSweepClaim true) s = .next t ∧ t.fld A.clkAlarm F.clkAlarm.OWNER = 2 ∧
        t.flag A.clkAlarm F.clkAlarm.SWEEP = true ∧ t.clk.sweepAt = s.pulse) ∧
    (s.fld A.clkAlarm F.clkAlarm.OWNER = 1 → ∃ t, exec (.alarmSweepClaim true) s = .next t ∧ s.refusedTo t 3 2 1) ∧
    (s.fld A.clkAlarm F.clkAlarm.OWNER = 2 → ∃ t, exec (.alarmSweepClaim false) s = .next t ∧
      t.fld A.clkAlarm F.clkAlarm.OWNER = 0 ∧ t.flag A.clkAlarm F.clkAlarm.SWEEP = false) ∧
    (s.fld A.clkAlarm F.clkAlarm.OWNER ≠ 2 → exec (.alarmSweepClaim false) s = .next s) ∧
    (s.flag A.clkAlarm F.clkAlarm.SWEEP = false ∨
      s.reached s.clk.sweepAt (max 1 (s.fld A.clkAlarm F.clkAlarm.PERIOD) * 1000) = false → exec .alarmSweep s = .next s) ∧
    (s.flag A.clkAlarm F.clkAlarm.SWEEP = true →
      s.reached s.clk.sweepAt (max 1 (s.fld A.clkAlarm F.clkAlarm.PERIOD) * 1000) = true →
      ∃ t, exec .alarmSweep s = .next t ∧ t.clk.sweepAt = s.pulse ∧ t.regs = s.regs ∧
        (s.longBlocked = [] → t.evt = s.evt) ∧
        ∀ p l, s.longBlocked = p :: l → s.raises t 0x54 (evSource 4 0) (leBytes 2 (l.length + 1) ++ leBytes 2 (whoBits p.1 p.2)))

/-- A training that ends with four good lanes enters UP4, or UP3 where a lane had failed before and software has not
asked for the retrain; with three UP3, with fewer DOWN, with the bad lane and the peer recorded and event 0x40 (10
R294). A DOWN port with EN tries again every 10 ms; RETRAIN trains a port with EN and is counted where the port was
up, clearing EN and a lost link take it DOWN (R294, R321). A failed own flit is replayed and counted, and after LRETRY
+ 1 failures in succession the port retrains (R292); a Mark's time is latched (R293). Where its condition does not
hold, a command changes nothing. -/
def Obligations.Ports : Prop :=
  ∀ (p : PortNo) (good : BitVec 4) (peer : Option (BitVec 14 × Bool)) (n : BitVec 16) (ph : Fin 80) (s : State) (a k st f : Nat),
    a = A.tmrPortStat p → k = countTrue (fun i => good.toNat.testBit i) (List.range 4) → st = s.fld a F.tmrPortStat.STATE →
    f = FMap.getD s.tmr.fails p 0 + 1 →
    (st = 1 → ∃ t, exec (.portTrainComplete p good peer) s = .next t ∧
      t.fld a F.tmrPortStat.STATE = (if k = 4 then (if s.tmr.narrow.contains p.val then 3 else 2) else if k = 3 then 3 else 0) ∧
      t.fld a F.tmrPortStat.LANEBAD = (if k = 4 then (if s.tmr.narrow.contains p.val then s.laneBad p else 0)
        else if k = 3 then 15 - good.toNat else 0) ∧
      t.flag a F.tmrPortStat.PEERV = peer.isSome ∧
      (∀ m g, peer = some (m, g) → t.fld a F.tmrPortStat.PEER = m.toNat ∧ t.flag a F.tmrPortStat.PEERGW = g) ∧
      s.raises t 0x40 (evSource 3 p) ([BitVec.ofNat 8 p, 1, BitVec.ofNat 8 (t.fld a F.tmrPortStat.STATE),
        BitVec.ofNat 8 (t.fld a F.tmrPortStat.LANEBAD)] ++ leBytes 2 (t.fld a F.tmrPortStat.PEER) ++
        [BitVec.ofNat 8 (t.fld a F.tmrPortStat.PEERGW)]) ∧ t.mem = s.mem) ∧
    (st ≠ 1 → exec (.portTrainComplete p good peer) s = .next s) ∧
    (st = 0 → s.flag (A.tmrPortCtl p) F.tmrPortCtl.EN = true → s.reached (FMap.getD s.tmr.portAt p 0) 10000 = true →
      ∃ t, exec (.portTrainRetry p) s = .next t ∧ t.fld a F.tmrPortStat.STATE = 1 ∧ t.mem = s.mem) ∧
    (st ≠ 0 ∨ s.flag (A.tmrPortCtl p) F.tmrPortCtl.EN = false ∨ s.reached (FMap.getD s.tmr.portAt p 0) 10000 = false →
      exec (.portTrainRetry p) s = .next s) ∧
    (s.flag (A.tmrPortCtl p) F.tmrPortCtl.EN = true → st ≠ 1 →
      ∃ t, exec (.portRetrain p) s = .next t ∧ t.fld a F.tmrPortStat.STATE = 1 ∧ t.mem = s.mem ∧
        t.tmr.narrow.contains p.val = false ∧
        t.fld (A.tmrPortCnt p) F.tmrPortCnt.RETRAINS = if s.portUp p
          then min (s.fld (A.tmrPortCnt p) F.tmrPortCnt.RETRAINS + 1) 0xFFFF else s.fld (A.tmrPortCnt p) F.tmrPortCnt.RETRAINS) ∧
    (s.flag (A.tmrPortCtl p) F.tmrPortCtl.EN = false ∨ st = 1 → ∃ t, exec (.portRetrain p) s = .next t ∧ s.onlyIn [.tmr] t) ∧
    (∃ t, exec (.portDisable p) s = .next t ∧ t.flag (A.tmrPortCtl p) F.tmrPortCtl.EN = false ∧
      t.fld a F.tmrPortStat.STATE = 0 ∧ t.fld a F.tmrPortStat.LANEBAD = 0 ∧ t.flag a F.tmrPortStat.PEERV = false ∧ t.mem = s.mem) ∧
    (st = 0 → exec (.linkLost p) s = .next s) ∧
    (st ≠ 0 → ∃ t, exec (.linkLost p) s = .next t ∧ t.fld a F.tmrPortStat.STATE = 0 ∧ t.mem = s.mem ∧
      s.raises t 0x40 (evSource 3 p) [BitVec.ofNat 8 p, BitVec.ofNat 8 st, 0, 0,
        BitVec.ofNat 8 (s.fld a F.tmrPortStat.PEER), BitVec.ofNat 8 (s.fld a F.tmrPortStat.PEER / 256),
        BitVec.ofNat 8 (s.fld a F.tmrPortStat.PEERGW)]) ∧
    (∀ mine ok, mine = false ∨ s.portUp p = false → exec (.flitReceive p mine ok n) s = .next s) ∧
    (s.portUp p = false → exec (.markArrival ⟨p, ph⟩) s = .next s) ∧
    (s.portUp p = true →
      (∃ t, exec (.flitReceive p true true n) s = .next t ∧ FMap.getD t.tmr.fails p 0 = 0 ∧ s.onlyIn [.tmr] t) ∧
      (f ≤ max 1 (s.fld (A.tmrPortCtl p) F.tmrPortCtl.LRETRY) →
        ∃ t, exec (.flitReceive p true false n) s = .next t ∧ FMap.getD t.tmr.fails p 0 = f ∧ t.rd a = s.rd a ∧
          t.fld (A.tmrPortCnt p) F.tmrPortCnt.REPLAY = min (s.fld (A.tmrPortCnt p) F.tmrPortCnt.REPLAY + n.toNat) 0xFFFF) ∧
      (max 1 (s.fld (A.tmrPortCtl p) F.tmrPortCtl.LRETRY) < f →
        ∃ t, exec (.flitReceive p true false n) s = .next t ∧
          t.fld a F.tmrPortStat.STATE = (if s.flag (A.tmrPortCtl p) F.tmrPortCtl.EN then 1 else st) ∧
          t.fld (A.tmrPortCnt p) F.tmrPortCnt.REPLAY = min (s.fld (A.tmrPortCnt p) F.tmrPortCnt.REPLAY + n.toNat) 0xFFFF) ∧
      ∃ t, exec (.markArrival ⟨p, ph⟩) s = .next t ∧ FMap.get? t.tmr.marks p = some (s.rxStamp p ph).toNat ∧ s.onlyIn [.tmr] t)

/-- A RD for this module that its Shelf or Tallboy serves now is answered with the bytes, one of a control register
with zeros and REGDENY counted, one of an unmapped address with zeros (10 R290, R297); a WR stores its enabled bytes
and is answered with OK, and one performed before is only answered (R301), while one behind the window is discarded
(R302); one whose memory does not accept it yet is held. What is for another module goes on over the port chosen, one
hop older (R307), or is discarded and counted at the hop limit or without a way; on a port that is not up nothing is
carried (R294). -/
def Obligations.FabricRequests : Prop :=
  ∀ (v : Via) (a n : Nat) (d : Bytes) (be : List Bool) (st : Status) (psn : Bool) (s : State) (back : Via),
    back = ⟨s.modnum, v.src, v.tc, v.epoch, v.seq, 0, 0⟩ →
    1 ≤ n → a % 256 + n ≤ 256 → a < 2 ^ 50 → d.length = n → be.length = n →
    (s.portUp v.port = false → ∀ c ∈ [Instr.tmrRd v a n, .tmrWr v a d be, .tmrRdc v st ⟨d, psn⟩, .tmrWrc v st], exec c s = .next s) ∧
    (s.portUp v.port = true → s.forMe v = true →
      ((s.arrive v).2 = .fresh → s.wasDone v = false → s.lost = [] → s.accepts a n = true →
        (∀ k, (∃ b off, locOf a = .shelf b off ∧ k = shelfKey b off) ∨ locOf a = .tby k ∧ s.soundAt k n →
          (∃ t p q, exec (.tmrRd v a n) s = .next t ∧ t.out = s.out ++ [Msg.fabric p back (.rdc .ok (s.mem.read k n) q)] ∧
            t.mem = s.mem ∧ ∀ b off, locOf a = .shelf b off → q = (s.poisoned b off n).isSome) ∧
          ((∀ ia, locOf a = .tby ia → s.writePermitted 1 ia = true) →
            ∃ t p, exec (.tmrWr v a d be) s = .next t ∧ t.out = s.out ++ [Msg.fabric p back (.wrc .ok)] ∧
              ∀ x, t.mem.byte x = if k ≤ x ∧ x < k + n ∧ be.getD (x - k) false = true then d.getD (x - k) 0 else s.mem.byte x)) ∧
        (∀ r, locOf a = .reg r →
          (∃ t p, exec (.tmrRd v a n) s = .next t ∧ t.out = s.out ++ [Msg.fabric p back (.rdc .ok (leBytes n 0) false)] ∧
            t.mem = s.mem ∧ t.fld A.tmrStat F.tmrStat.REGDENY = min (s.fld A.tmrStat F.tmrStat.REGDENY + 1) 0xFFFF) ∧
          ∃ t p, exec (.tmrWr v a d be) s = .next t ∧ t.out = s.out ++ [Msg.fabric p back (.wrc .ok)] ∧ t.mem = s.mem ∧
            t.fld A.tmrStat F.tmrStat.REGDENY = min (s.fld A.tmrStat F.tmrStat.REGDENY + 1) 0xFFFF) ∧
        (locOf a = .none →
          (∃ t p, exec (.tmrRd v a n) s = .next t ∧ t.out = s.out ++ [Msg.fabric p back (.rdc .ok (leBytes n 0) false)] ∧
            t.mem = s.mem) ∧
          ∃ t p, exec (.tmrWr v a d be) s = .next t ∧ t.out = s.out ++ [Msg.fabric p back (.wrc .ok)] ∧ t.mem = s.mem)) ∧
      ((s.arrive v).2 = .fresh → s.accepts a n = false →
        ∀ q ∈ [(Instr.tmrRd v a n, Req.rd a n), (Instr.tmrWr v a d be, Req.wr a d be)],
          ∃ t, exec q.1 s = .next t ∧ s.onlyIn [.tmr] t ∧ t.tmr.held = s.tmr.held ++ [Held.far v q.2]) ∧
      (∀ ans, (s.arrive v).2 = .again ans →
        ∃ t p, exec (.tmrWr v a d be) s = .next t ∧ t.out = s.out ++ [Msg.fabric p back (.wrc .ok)] ∧ t.mem = s.mem) ∧
      ((s.arrive v).2 = .stale → exec (.tmrRd v a n) s = .next s ∧ exec (.tmrWr v a d be) s = .next s)) ∧
    (s.portUp v.port = true → s.forMe v = false →
      ∀ q ∈ [(Instr.tmrRd v a n, Fab.req (.rd a n)), (Instr.tmrWr v a d be, Fab.req (.wr a d be)),
          (Instr.tmrRdc v st ⟨d, psn⟩, Fab.rdc st d psn), (Instr.tmrWrc v st, Fab.wrc st)],
        (v.hops < s.fld A.tmrCtl F.tmrCtl.MAXHOP → s.hasRoute v.dest = true →
          ∀ p, (s.choosePort v.tc v.dest (some v.port)).2 = some p →
            ∃ t, exec q.1 s = .next t ∧ t.out = s.out ++ [Msg.fabric (some p) { v with hops := v.hops + 1 } q.2] ∧ t.mem = s.mem) ∧
        (s.fld A.tmrCtl F.tmrCtl.MAXHOP ≤ v.hops ∨ s.hasRoute v.dest = false ∨
            (s.choosePort v.tc v.dest (some v.port)).2 = none →
          ∃ t, exec q.1 s = .next t ∧ t.out = s.out ∧ t.mem = s.mem ∧
            t.fld A.tmrStat F.tmrStat.TDROP = min (s.fld A.tmrStat F.tmrStat.TDROP + 1) (2 ^ 32 - 1)))

/-- With no transaction waiting at its source, a RDC that answers a scalar load writes its register and ends the
transaction, one with another status writes zero and reports the failure with event 0x41 (10 R297, R316); a WRC ends a
store; one that answers nothing changes nothing (R302). A transaction unanswered for RTO microseconds is sent again,
with its sequence number, while it has resends left, and then fails with TIMEOUT (R300); where its route is no longer
valid it fails with NOROUTE (R305). A receive context idle for 1 s is unused (18 R495). Word 1 of a route takes effect
with the word 0 held for it (R304), and a quota with its write (R312). -/
def Obligations.FabricCompletions : Prop :=
  ∀ (v : Via) (b : BenchNo) (c : Ctx) (dest : BitVec 14) (tc : Fin 8) (seq : BitVec 24) (s : State) (x : Txn) (key : Nat),
    s.tmr.waitq = [] → key = txnKey dest.toNat tc seq.toNat → x.dest = dest.toNat → x.tc = tc → x.seq = seq.toNat →
    (∀ st (data : Bytes) psn, s.portUp v.port = true → s.forMe v = true → s.answered v = none →
      exec (.tmrRdc v st ⟨data, psn⟩) s = .next s ∧ exec (.tmrWrc v st) s = .next s) ∧
    (∀ l, x.owner = .load b c → x.req = .rd (localOf l.addr) l.size → (s.ctx b c).loads = [l] → modOf l.addr = x.dest →
      (∀ st (data : Bytes) psn, s.portUp v.port = true → s.forMe v = true → s.answered v = some x → psn = false ∨ s.untrapped b c →
        ∃ t, exec (.tmrRdc v st ⟨data, psn⟩) s = .next t ∧ (t.ctx b c).loads = [] ∧ FMap.get? t.tmr.outst key = none ∧ t.mem = s.mem ∧
          s.scalarIs t b c l.rd (if st = .ok then BitVec.ofNat 64 (ofLe (data.take l.size)) else 0) ∧
          (st ≠ .ok → s.raises t 0x41 (evSource 3 0x3F) (leBytes 8 l.addr ++ leBytes 2 (if s.isHere x.dest then s.modnum else x.dest) ++
            [BitVec.ofNat 8 st.code, BitVec.ofNat 8 c.idx, BitVec.ofNat 8 x.tc] ++ leBytes 2 b ++ [BitVec.ofNat 8 c.code]))) ∧
      (FMap.get? s.tmr.outst key = some x → s.reached x.sentAt (max 1 (s.fld A.tmrCtl F.tmrCtl.RTO)) = true →
        s.fld A.tmrCtl F.tmrCtl.RETRY ≤ x.tries ∨ (s.hasRoute x.dest = false ∧ s.tmr.dead = []) →
        ∃ t, exec (.tmrRtoExpiry dest tc seq) s = .next t ∧ (t.ctx b c).loads = [] ∧ FMap.get? t.tmr.outst key = none ∧
          s.scalarIs t b c l.rd 0 ∧ t.mem = s.mem ∧
          t.fld A.tmrErr F.tmrErr.COUNT = min (s.fld A.tmrErr F.tmrErr.COUNT + 1) 0xFFFF)) ∧
    (∀ line a (d : Bytes) be st, x.owner = .store b c line → x.req = .wr a d be → s.portUp v.port = true → s.forMe v = true →
      s.answered v = some x → ∃ t, exec (.tmrWrc v st) s = .next t ∧ FMap.get? t.tmr.outst key = none ∧ t.mem = s.mem ∧
        (t.ctx b c).stores = (s.ctx b c).stores.erase ⟨line, true⟩ ∧ s.scalarIs t b c 0 0) ∧
    (FMap.get? s.tmr.outst key = none → exec (.tmrRtoExpiry dest tc seq) s = .next s) ∧
    (FMap.get? s.tmr.outst key = some x →
      (s.reached x.sentAt (max 1 (s.fld A.tmrCtl F.tmrCtl.RTO)) = false → exec (.tmrRtoExpiry dest tc seq) s = .next s) ∧
      (s.reached x.sentAt (max 1 (s.fld A.tmrCtl F.tmrCtl.RTO)) = true → x.tries < s.fld A.tmrCtl F.tmrCtl.RETRY →
        s.hasRoute x.dest = true → s.tmr.dead = [] →
        ∃ t p, exec (.tmrRtoExpiry dest tc seq) s = .next t ∧ t.mem = s.mem ∧
          FMap.get? t.tmr.outst key = some { x with tries := x.tries + 1, sentAt := s.pulse } ∧
          t.out = s.out ++ [Msg.fabric p ⟨s.modnum, x.dest, x.tc, s.fld A.tmrId F.tmrId.EPOCH, x.seq, 0, 0⟩ (.req x.req)])) ∧
    (FMap.get? s.tmr.recv (flowNo dest.toNat tc) = none → exec (.flowIdleExpiry dest tc) s = .next s) ∧
    (∀ r, FMap.get? s.tmr.recv (flowNo dest.toNat tc) = some r →
      (s.reached r.lastAt 1000000 = true →
        ∃ t, exec (.flowIdleExpiry dest tc) s = .next t ∧ FMap.get? t.tmr.recv (flowNo dest.toNat tc) = none ∧ s.onlyIn [.tmr] t) ∧
      (s.reached r.lastAt 1000000 = false → exec (.flowIdleExpiry dest tc) s = .next s)) ∧
    (∀ w : Word, ∃ t, exec (.tmrRtWrite dest w) s = .next t ∧ s.onlyIn [.regs, .tmr] t ∧
      t.rd (A.tmrRt1 dest.toNat) = w &&& (F.tmrRt1.VALID.mask ||| F.tmrRt1.ALT.mask) ∧
      t.rd (A.tmrRt0 dest.toNat) = (FMap.get? s.tmr.rtHold dest.toNat).getD (s.rd (A.tmrRt0 dest.toNat)) ∧
      FMap.get? t.tmr.rtHold dest.toNat = none) ∧
    ∀ q : BitVec 16, ∃ t, exec (.tmrQuotaWrite tc q) s = .next t ∧ t.fld (A.tmrTc tc) F.tmrTc.QUOTA = q.toNat ∧
      ∀ y, y ≠ A.tmrTc tc → t.rd y = s.rd y

/-- A crystal that fails is marked with event 0x71, once, its PLLs lose lock, and with XA gone the oscillator follows
the first source left (14 R400, R402); the trim settles within 1 ppm. CLK_FREQ takes FAB and MEM and starts a change
where either differs, whose PLL loses lock; a write during a change waits for its end, and the writes that wait are
applied in their order (R405). An overrun of a crossing outside its limits is counted with event 0x70, and the load
that it displaced reads zero; within the limits there is none (R406, R407). GT_NOW_LO latches the seconds for its
requester (R410). -/
def Obligations.Clocks : Prop :=
  ∀ (xb second : Bool) (v : Word) (cd : Fin 8) (b : BenchNo) (c : Ctx) (rd : Fin 32) (who : Nat) (s : State) (f : Fld) (fab mem x : Nat),
    f = (if xb then F.clkStat.XB_FAIL else F.clkStat.XA_FAIL) → fab = fabTaken (getFld v F.clkFreq.FAB) →
    mem = (if getFld v F.clkFreq.MEM = 3 then s.fld A.clkFreq F.clkFreq.MEM else getFld v F.clkFreq.MEM) → x = (if second then 2 else 1) →
    (s.flag A.clkStat f = true → exec (.crystalFailure xb) s = .next s) ∧
    (s.flag A.clkStat f = false → ∃ t, exec (.crystalFailure xb) s = .next t ∧ t.flag A.clkStat f = true ∧ t.mem = s.mem ∧
      (∀ n ∈ pllsOf xb, t.fldBit A.clkStat F.clkStat.LOCK n = false) ∧
      (xb = false → t.fld A.clkTrim F.clkTrim.SRC =
        if (List.range 36).any s.portUp then 2 else if s.flag A.gtPps F.gtPps.SEEN then 3 else 0) ∧
      s.raises t 0x71 (evSource 6 0) [if xb then 2 else 1, BitVec.ofNat 8 (t.fld A.clkTrim F.clkTrim.SRC)]) ∧
    (s.fld A.clkTrim F.clkTrim.SRC = 0 ∨ s.flag A.clkTrim F.clkTrim.SETTLED = true → exec .clkTrimSettled s = .next s) ∧
    (s.fld A.clkTrim F.clkTrim.SRC ≠ 0 → s.flag A.clkTrim F.clkTrim.SETTLED = false →
      ∃ t, exec .clkTrimSettled s = .next t ∧ t.flag A.clkTrim F.clkTrim.SETTLED = true ∧
        -100 ≤ sext 16 (t.fld A.clkTrim F.clkTrim.ERR) ∧ sext 16 (t.fld A.clkTrim F.clkTrim.ERR) ≤ 100 ∧
        t.fld A.clkTrim F.clkTrim.SRC = s.fld A.clkTrim F.clkTrim.SRC) ∧
    (s.flag A.clkStat F.clkStat.FCHG = false →
      (s.fld A.clkFreq F.clkFreq.FAB = fab → s.fld A.clkFreq F.clkFreq.MEM = mem → exec (.clkFreqWrite v) s = .next s) ∧
      (s.fld A.clkFreq F.clkFreq.FAB ≠ fab ∨ s.fld A.clkFreq F.clkFreq.MEM ≠ mem →
        ∃ t, exec (.clkFreqWrite v) s = .next t ∧ t.fld A.clkFreq F.clkFreq.FAB = fab ∧ t.fld A.clkFreq F.clkFreq.MEM = mem ∧
          t.flag A.clkStat F.clkStat.FCHG = true ∧
          (s.fld A.clkFreq F.clkFreq.FAB ≠ fab → t.fldBit A.clkStat F.clkStat.LOCK 1 = false) ∧
          (s.fld A.clkFreq F.clkFreq.MEM ≠ mem → t.fldBit A.clkStat F.clkStat.LOCK 2 = false) ∧ s.onlyIn [.regs, .clk] t) ∧
      exec .freqChangeComplete s = .next s) ∧
    (s.flag A.clkStat F.clkStat.FCHG = true →
      (∃ t, exec (.clkFreqWrite v) s = .next t ∧ t.clk.freqNext = s.clk.freqNext ++ [v] ∧ s.onlyIn [.clk] t) ∧
      (s.tmr.held = [] → s.tmr.waitq = [] →
        (s.clk.freqNext = [] → ∃ t, exec .freqChangeComplete s = .next t ∧ t.flag A.clkStat F.clkStat.FCHG = false ∧
          t.rd A.clkFreq = s.rd A.clkFreq ∧ t.clk.chg = 0 ∧
          (s.clk.chg.testBit 0 = true → t.fldBit A.clkStat F.clkStat.LOCK 1 = true) ∧
          (s.clk.chg.testBit 1 = true → t.fldBit A.clkStat F.clkStat.LOCK 2 = true)) ∧
        (s.clk.freqNext = [v] → ∃ t, exec .freqChangeComplete s = .next t ∧ t.clk.freqNext = [] ∧
          t.fld A.clkFreq F.clkFreq.FAB = fab ∧ t.fld A.clkFreq F.clkFreq.MEM = mem))) ∧
    (s.ratioBad x = false → ∀ w, exec (.crossingOverrun second cd w) s = .next s) ∧
    (s.ratioBad x = true → ∀ w, w = .other ∨ (w = .load b c rd ∧ (s.nearLoad b c rd).isSome) ∨ (∃ q a, w = .access q a) →
      ∃ t, exec (.crossingOverrun second cd w) s = .next t ∧ t.fld A.clkXovr F.clkXovr.LAST = x ∧ t.mem = s.mem ∧
        t.fld A.clkXovr F.clkXovr.COUNT = min (s.fld A.clkXovr F.clkXovr.COUNT + 1) (2 ^ 32 - 1) ∧
        (w = .load b c rd → s.scalarIs t b c rd 0) ∧ (∀ q a, w = .access q a → t.lost = s.lost ++ [(q.val, a)]) ∧
        s.raises t 0x70 (evSource 6 0) [BitVec.ofNat 8 x, BitVec.ofNat 8 cd]) ∧
    ∃ t, exec (.gtNowLoRead who) s = .next t ∧ (t.regRead64 who A.gtNowHi).2 = BitVec.ofNat 64 s.gtSec ∧ s.onlyIn [.gt] t

/-- GT_SETS takes the seconds. The write of GT_SETN, as a register write or as GT_SET, steps GT to those seconds and
its own nanoseconds and fraction, clears the pending correction, makes U equal to ASYM and raises event 0x74; while
TRS_CTL.EN is set it leaves GT as it is, sets GT_STAT.SETREJ and raises event 0x74 with the refusal flagged (14 R418).
Of nanoseconds of 10^9 or more, which the spec does not give an instant, the instant is free (log 3). -/
def Obligations.SoftwareSetOfTime : Prop :=
  ∀ (who : Who) (v w : Word) (s : State), s.rst.on = true →
    (∃ t, exec (.registerWrite who A.gtSets 8 w) s = .next t ∧ t.fld A.gtSets F.gtSets.SEC = w.toNat % 2 ^ 48 ∧ t.gt = s.gt) ∧
    ∀ q ∈ [Instr.gtSet v, Instr.registerWrite who A.gtSetn 8 v],
      (s.flag A.trsCtl F.trsCtl.EN = false → ∃ t, exec q s = .next t ∧
        (getFld v F.gtSetn.NS < 10 ^ 9 →
          t.gt.now = s.fld A.gtSets F.gtSets.SEC * gtSecond + getFld v F.gtSetn.NS * 2 ^ 40 + getFld v F.gtSetn.FRAC * 2 ^ 24) ∧
        t.gt.corr = 0 ∧ t.gt.pendingCorr = 0 ∧ t.gtUnc = s.fld A.gtCfg F.gtCfg.ASYM ∧
        t.fld A.gtUnc F.gtUnc.U = s.fld A.gtCfg F.gtCfg.ASYM ∧
        s.raises t 0x74 (evSource 6 0) (leBytes 6 (s.fld A.gtSets F.gtSets.SEC) ++ [1])) ∧
      (s.flag A.trsCtl F.trsCtl.EN = true → ∃ t, exec q s = .next t ∧ t.gt = s.gt ∧ t.flag A.gtStat F.gtStat.SETREJ = true ∧
        s.raises t 0x74 (evSource 6 0) (leBytes 6 (s.fld A.gtSets F.gtSets.SEC) ++ [2]))

/-- An Announce is kept for its port and the best master decided afresh; the slave port's Sync is timestamped,
completed by its Follow_Up, and a Delay_Resp completes the measurement of the offset, which a first step applies; a
port in master state answers Delay_Req and sends Announce and Sync at their intervals, the slave port Delay_Req, a
port that takes part Signaling; a master not heard for three intervals is forgotten (14 R411 to R413, R416). A message
that is not taken, and a timer that is not due, change nothing. The details of IEEE 1588 that the spec does not state
are the model's (log 13), and so is the reading of the servo (log 11). -/
def Obligations.TimeMessages : Prop :=
  ∀ (p : PortNo) (ph : Fin 80) (m : PtpMsg) (s : State) (x : PtpPort), x = s.ptp p →
    (s.ptpTakes p m = false → ∀ c ∈ [Instr.announce p m, .sync ⟨p, ph⟩ m, .followUp p m, .delayReq ⟨p, ph⟩ m, .delayResp p m,
      .signaling p m], exec c s = .next s) ∧
    (∀ gm n, m.body = .announce gm n → s.ptpTakes p m = true → m.sender.clock ≠ s.ptpId → n < 255 →
      FMap.get? s.gt.masters p = none ∨ (FMap.get? s.gt.masters p).map (·.sender) = some m.sender →
      ∃ t, exec (.announce p m) s = .next t ∧ FMap.get? t.gt.masters p = some ⟨gm, n, m.sender, s.pulse⟩ ∧
        t.gt.slave = t.slavePort ∧ t.gt.now = s.gt.now) ∧
    (s.fromParent p m = true →
      (∀ two o k, m.body = .sync two o k → ∃ t, exec (.sync ⟨p, ph⟩ m) s = .next t ∧
        t.ptp p = { x with t2 := some (m.seq, s.rxStamp p ph - k), t1 := if two then none else some ((o : Int) * 65536) } ∧
        s.onlyIn [.gt] t) ∧
      (∀ o k r, m.body = .followUp o k → x.t2 = some (m.seq, r) → ∃ t, exec (.followUp p m) s = .next t ∧
        t.ptp p = { x with t1 := some ((o : Int) * 65536 + k) } ∧ s.onlyIn [.gt] t) ∧
      (∀ o k n t1 t2 t3, m.body = .delayResp o k ⟨s.ptpId, p + 1⟩ → x.t1 = some t1 → x.t2 = some (n, t2) → x.t3 = some (m.seq, t3) →
        ∀ off, off = ((t2 - t1) - ((o : Int) * 65536 - k - t3)) / 2 →
          ∃ t, exec (.delayResp p m) s = .next t ∧ (t.ptp p).t3 = none ∧
            (s.fld A.gtCfg F.gtCfg.SRC = 0 → t.gt.heardAt = some s.pulse ∧
              (s.flag A.gtStat F.gtStat.EVER = false → s.stepTh < off.natAbs →
                t.gt.now = ((s.gt.now : Int) - off * 2 ^ 24).toNat ∧ t.gt.corr = 0)) ∧
            (s.fld A.gtCfg F.gtCfg.SRC = 1 → t.gt.ptpOff = some off ∧ t.gt.now = s.gt.now))) ∧
    (s.ptpTakes p m = true →
      (∀ k r, m.body = .delayReq k → r = s.rxStamp p ph →
        (s.ptpMaster p = true → ∃ t, exec (.delayReq ⟨p, ph⟩ m) s = .next t ∧ s.onlyIn [.out] t ∧ t.out = s.out ++ [Msg.ptp p
          ⟨s.fld A.gtPtp F.gtPtp.DOMAIN, ⟨s.ptpId, p + 1⟩, m.seq, .delayResp (r / 65536).toNat (k - r % 65536) m.sender⟩]) ∧
        (s.ptpMaster p = false → exec (.delayReq ⟨p, ph⟩ m) s = .next s)) ∧
      ∀ tlv, m.body = .signaling tlv → ∃ t, exec (.signaling p m) s = .next t ∧ t.ptp p = { x with l1 := tlv } ∧ s.onlyIn [.gt] t) ∧
    (∀ me r, me = ⟨s.ptpId, p + 1⟩ → r = s.txStamp p ph →
      (s.ptpMaster p = true → x.annAt + s.annInterval ≤ s.pulse → ∃ t, exec (.ptpMessageTimer ⟨p, ph⟩ 0) s = .next t ∧
        t.out = s.out ++ [Msg.ptp p ⟨s.fld A.gtPtp F.gtPtp.DOMAIN, me, x.annSeq, .announce s.announced.1 s.announced.2⟩] ∧
        t.ptp p = { x with annAt := s.pulse, annSeq := (x.annSeq + 1) % 65536 }) ∧
      (s.ptpMaster p = true → x.syncAt + s.syncInterval ≤ s.pulse → ∃ t, exec (.ptpMessageTimer ⟨p, ph⟩ 1) s = .next t ∧
        t.out = s.out ++ [Msg.ptp p ⟨s.fld A.gtPtp F.gtPtp.DOMAIN, me, x.syncSeq, .sync true 0 0⟩,
          .ptp p ⟨s.fld A.gtPtp F.gtPtp.DOMAIN, me, x.syncSeq, .followUp (r / 65536).toNat (r % 65536)⟩]) ∧
      (s.ptpOn p = true → s.gt.slave = some p.val → x.dreqAt + s.dreqInterval ≤ s.pulse → ∃ t, exec (.ptpMessageTimer ⟨p, ph⟩ 2) s = .next t ∧
        t.out = s.out ++ [Msg.ptp p ⟨s.fld A.gtPtp F.gtPtp.DOMAIN, me, x.dreqSeq, .delayReq 0⟩] ∧ (t.ptp p).t3 = some (x.dreqSeq, r)) ∧
      (s.ptpOn p = true → ∃ t, exec (.ptpMessageTimer ⟨p, ph⟩ 3) s = .next t ∧ s.onlyIn [.out] t ∧
        t.out = s.out ++ [Msg.ptp p ⟨s.fld A.gtPtp F.gtPtp.DOMAIN, me, 0, .signaling (Config.l1Sync p)⟩]) ∧
      (s.ptpOn p = false → ∀ k, exec (.ptpMessageTimer ⟨p, ph⟩ k) s = .next s) ∧
      (s.pulse < x.annAt + s.annInterval → exec (.ptpMessageTimer ⟨p, ph⟩ 0) s = .next s) ∧
      (s.pulse < x.syncAt + s.syncInterval → exec (.ptpMessageTimer ⟨p, ph⟩ 1) s = .next s) ∧
      (s.pulse < x.dreqAt + s.dreqInterval → exec (.ptpMessageTimer ⟨p, ph⟩ 2) s = .next s)) ∧
    (FMap.get? s.gt.masters p = none → exec (.announceReceiptTimeout p) s = .next s) ∧
    ∀ g, FMap.get? s.gt.masters p = some g →
      (s.ptpOn p = true → s.pulse < g.heardAt + 3 * s.annInterval → exec (.announceReceiptTimeout p) s = .next s) ∧
      (s.ptpOn p = false ∨ g.heardAt + 3 * s.annInterval ≤ s.pulse →
        ∃ t, exec (.announceReceiptTimeout p) s = .next t ∧ FMap.get? t.gt.masters p = none ∧ t.gt.slave = t.slavePort)

/-- An edge of PPS_IN sets SEEN and is a measurement while the source is PPS; without one for 1.5 s SEEN clears (14
R402, R413). Without a measurement for four Sync intervals, or 2 s under PPS, GT goes from LOCKED to HOLDOVER, and
from ACQUIRE to HOLDOVER or, before it was ever valid, to UNSET with U all ones (R415). A spent correction ends
SLEWING (R416), U beyond UMAX clears VALID with event 0x72, and U within it sets VALID again (R415, R417); while PPS
holds MARK_OUT it rises, for 1 ms, in a pulse of which a symbol lies within 2 ns of a whole second (R414). A timer
that is not due changes nothing. -/
def Obligations.TimeServo : Prop :=
  ∀ (s : State) (st src limit : Nat), st = s.fld A.gtStat F.gtStat.STATE → src = s.fld A.gtCfg F.gtCfg.SRC →
    limit = (if src = 0 then 4 * s.syncInterval else 2000000 * usPulses) →
    (∃ t, exec .ppsInEdge s = .next t ∧ t.flag A.gtPps F.gtPps.SEEN = true ∧ t.gt.ppsAt = some s.pulse ∧ t.mem = s.mem ∧
      (src = 1 ∨ src = 2 → t.gt.heardAt = some s.pulse) ∧ (src = 0 ∨ src = 3 → t.gt.now = s.gt.now ∧ t.gt.heardAt = s.gt.heardAt)) ∧
    (s.gt.ppsAt = none ∨ s.flag A.gtPps F.gtPps.SEEN = false → exec .ppsSeenExpiry s = .next s) ∧
    (∀ t0, s.gt.ppsAt = some t0 → s.flag A.gtPps F.gtPps.SEEN = true →
      (s.reached t0 1500000 = true → ∃ t, exec .ppsSeenExpiry s = .next t ∧ t.flag A.gtPps F.gtPps.SEEN = false ∧ t.gt = s.gt) ∧
      (s.reached t0 1500000 = false → exec .ppsSeenExpiry s = .next s)) ∧
    (∀ t0, s.gt.heardAt = some t0 → s.pulse < t0 + limit → exec .gtMeasurementTimeout s = .next s) ∧
    (st ≠ 1 → st ≠ 2 → exec .gtMeasurementTimeout s = .next s) ∧
    ((∀ t0, s.gt.heardAt = some t0 → t0 + limit ≤ s.pulse) →
      (st = 2 ∨ (st = 1 ∧ s.flag A.gtStat F.gtStat.EVER = true) →
        ∃ t, exec .gtMeasurementTimeout s = .next t ∧ t.fld A.gtStat F.gtStat.STATE = 3 ∧ t.gt = s.gt) ∧
      (st = 1 → s.flag A.gtStat F.gtStat.EVER = false →
        ∃ t, exec .gtMeasurementTimeout s = .next t ∧ t.fld A.gtStat F.gtStat.STATE = 0 ∧ t.fld A.gtUnc F.gtUnc.U = 0xFFFFFFFF ∧
          t.flag A.gtStat F.gtStat.VALID = false ∧ t.gt.now = s.gt.now)) ∧
    (s.gt.corr ≠ 0 ∨ s.flag A.gtStat F.gtStat.SLEWING = false → exec .gtCorrectionSpent s = .next s) ∧
    (s.gt.corr = 0 → s.flag A.gtStat F.gtStat.SLEWING = true → ∃ t, exec .gtCorrectionSpent s = .next t ∧
      t.flag A.gtStat F.gtStat.SLEWING = false ∧ t.gt.slew = 0 ∧ t.gt.now = s.gt.now ∧ t.fld A.gtStat F.gtStat.STATE = st) ∧
    (s.flag A.gtStat F.gtStat.VALID = s.gtOk st → exec .gtUncertaintyLimit s = .next s) ∧
    (s.flag A.gtStat F.gtStat.VALID ≠ s.gtOk st → ∃ t, exec .gtUncertaintyLimit s = .next t ∧
      t.flag A.gtStat F.gtStat.VALID = s.gtOk st ∧ t.fld A.gtStat F.gtStat.STATE = st ∧ t.gt = s.gt ∧
      s.raises t 0x72 (evSource 6 0) ([BitVec.ofNat 8 st, BitVec.ofNat 8 st, if s.gtOk st then 1 else 0] ++ leBytes 5 0 ++
        leBytes 4 s.gtUnc)) ∧
    ∀ last near sec, last = s.instantAt 79 + 2 * 2 ^ 40 → near = 4 * 2 ^ 40 + (s.instantAt 79 - s.instantAt 0) →
      sec = last / gtSecond % 2 ^ 48 →
      (s.fld A.clkMark F.clkMark.HOLDER ≠ 1 ∨ s.clk.markSec = some sec ∨ near < last % gtSecond →
        exec .markOutPulse s = .next s) ∧
      (s.fld A.clkMark F.clkMark.HOLDER = 1 → s.clk.markSec ≠ some sec → last % gtSecond ≤ near →
        ∃ t, exec .markOutPulse s = .next t ∧ t.clk.mark = true ∧ t.clk.markUntil = s.pulse + msPulses ∧ t.regs = s.regs ∧
          t.out = if s.clk.mark then s.out else s.out ++ [Msg.markOut true])

/-- A submit makes each IDLE mailbox of its mask BUSY, in ascending number, an acknowledge each DONE one IDLE; one
that finds another state is recorded once (15 R427), and mailbox 31 of the MCTP path is left (R447). The firmware
takes the first mailbox whose command may run (R428, R431), and its command does what its row says; a wrong LEN
answers BAD_LEN and an unknown code BAD_CODE, with no other effect (R430). A command row of a mailbox whose command
may not run changes nothing. A command that was ACCEPTED ends with event 0x90 and frees its family, JOB_STOP once its
threads are STOPPED. -/
def Obligations.Mailboxes : Prop :=
  ∀ (mask op : BitVec 32) (i : MboxNo) (s : State) (o : OpRec) (l : List Nat) (idle : Nat → Bool), l = s.maskMbx mask.toNat →
    idle = (fun j => !s.mbxBusy j && !s.mbxDone j) →
    (∃ t, exec (.mbxSubmit mask) s = .next t ∧ t.hut.order = s.hut.order ++ l.filter idle ∧
      t.mbxBusy i = (s.mbxBusy i || (l.contains i.val && idle i)) ∧ t.mbxDone i = s.mbxDone i ∧
      ∀ j, s.flag A.mbxStat F.mbxStat.REJV = false → l.find? (fun j => !idle j) = some j →
        t.flag A.mbxStat F.mbxStat.REJV = true ∧ t.fld A.mbxStat F.mbxStat.REJMBX = j) ∧
    (∃ t, exec (.mbxAck mask) s = .next t ∧ t.mbxDone i = (s.mbxDone i && !l.contains i.val) ∧
      t.mbxBusy i = (s.mbxBusy i && !(l.contains i.val && s.mbxDone i)) ∧
      ∀ j, s.flag A.mbxStat F.mbxStat.REJV = false → l.find? (fun j => !s.mbxDone j) = some j →
        t.flag A.mbxStat F.mbxStat.REJV = true ∧ t.fld A.mbxStat F.mbxStat.REJMBX = j) ∧
    (s.hut.order.find? s.runnable = none → exec .mbxTake s = .next s) ∧
    (s.hut.order.find? s.runnable = some i.val →
      (∀ c, commandRow i (s.mbxCode i) c → ∃ t, exec .mbxTake s = .next t ∧ exec c s = .next t) ∧
      (s.mctpOwns i = false →
        (∀ c ∈ commands, s.mbxCode i = c.code → field (s.request i) 2 2 ≠ c.len →
          ∃ t, exec .mbxTake s = .next t ∧ s.gaveAnswer t i c.code 0x11 0 [] ∧ s.onlyIn [.regs, .mem, .pcie, .hut, .out] t) ∧
        ((∀ c ∈ commands, s.mbxCode i ≠ c.code) →
          ∃ t, exec .mbxTake s = .next t ∧ s.gaveAnswer t i (s.mbxCode i) 0x10 0 [] ∧ s.onlyIn [.regs, .mem, .pcie, .hut, .out] t))) ∧
    (∀ code c, commandRow i code c → s.takes i code = false → exec c s = .next s) ∧
    (s.hut.ops.find? (fun x => x.opid == op.toNat) = none → exec (.commandComplete op) s = .next s) ∧
    (s.hut.ops.find? (fun x => x.opid == op.toNat) = some o →
      (o.code = 0x0202 → s.job = 2 → exec (.commandComplete op) s = .next s) ∧
      (o.code ≠ 0x0202 ∨ s.job ≠ 2 → ∃ t, exec (.commandComplete op) s = .next t ∧ o ∉ t.hut.ops ∧ t.job = s.job ∧
        (o.code = 0x0B00 → t.fld A.mbxStat F.mbxStat.FWSTATE = 1 ∧ t.hut.fwHold = 0) ∧
        s.raises t 0x90 (evSource 10 o.mbox)
          (leBytes 4 o.tag ++ leBytes 2 o.code ++ leBytes 2 o.status ++ leBytes 4 o.opid ++ [BitVec.ofNat 8 o.mbox])))

/-- A request outside both BARs is completed as Unsupported Request, one whose checked ECRC is wrong is lost, and AER
shows either; with the link down nothing is taken (15 R421). Where none of the host's waits before it, a BAR2 request
to a Shelf or a Tallboy that accepts it is performed at the aperture's address and a read completed with the bytes,
one to a register writes nothing and reads zero (R425), one that its memory does not accept waits (R422). BAR0 (R423,
R424, R427): a write of the slots takes the enabled bytes of request slots the firmware does not own, the status
window reads its registers, and the register window writes while RWWR is set and is ignored without. A configuration
write takes its fields and sends the messages then open (R426), a trained link is up with its rate and width. The
tag's width follows FLIT mode (R421). That partial byte enables leave a register alone is the model's choice (log 22),
and so are the bits of AER (log 8). -/
def Obligations.HostRequests : Prop :=
  ∀ (addr tag n off : Nat) (d : Bytes) (be : List Bool) (good : Bool) (s : State) (a : Nat),
    (s.pcie.up = false → exec (.pcieMemWrite ⟨addr, good⟩ d be) s = .next s ∧ exec (.pcieMemRead tag ⟨addr, good⟩ n) s = .next s ∧
      ∀ w, exec (.pcieConfigWrite w) s = .next s) ∧
    (s.pcie.up = true → s.pcie.ecrcChk = true → good = false →
      ∀ c ∈ [Instr.pcieMemWrite ⟨addr, good⟩ d be, .pcieMemRead tag ⟨addr, good⟩ n],
        ∃ t, exec c s = .next t ∧ s.onlyIn [.pcie] t ∧ t.pcie.aer = s.pcie.aer ||| aerEcrc) ∧
    (s.pcie.up = true → s.pcie.ecrcChk = false ∨ good = true → s.barOf addr = none →
      (∃ t, exec (.pcieMemWrite ⟨addr, good⟩ d be) s = .next t ∧ s.onlyIn [.pcie] t ∧ t.pcie.aer = s.pcie.aer ||| aerUnsupported) ∧
      ∃ t, exec (.pcieMemRead tag ⟨addr, good⟩ n) s = .next t ∧ s.onlyIn [.pcie, .out] t ∧
        t.pcie.aer = s.pcie.aer ||| aerUnsupported ∧ t.out = s.out ++ [Msg.unsupported (s.tagOf tag)]) ∧
    (s.tmr.held.find? Held.host = none → be.length = d.length → s.pcie.ecrcChk = false ∨ good = true → s.lost = [] →
      (s.barOf addr = some (true, off) → a = apertureAddr (s.fld A.mbxAper F.mbxAper.BASE) off →
        (∀ k, (∃ b o, locOf a = .shelf b o ∧ k = shelfKey b o) ∨ locOf a = .tby k →
          (a % 256 + d.length ≤ 256 → s.accepts a d.length = true →
            (∀ ia, locOf a = .tby ia → s.writePermitted 2 ia = true ∧ s.soundAt ia d.length) →
            ∃ t, exec (.pcieMemWrite ⟨addr, good⟩ d be) s = .next t ∧ t.tmr.held = s.tmr.held ∧ t.regs = s.regs ∧
              ∀ x, t.mem.byte x = if k ≤ x ∧ x < k + d.length ∧ be.getD (x - k) false = true
                then d.getD (x - k) 0 else s.mem.byte x) ∧
          (a % 256 + n ≤ 256 → s.accepts a n = true → (∀ ia, locOf a = .tby ia → s.soundAt ia n) →
            ∃ t, exec (.pcieMemRead tag ⟨addr, good⟩ n) s = .next t ∧ s.onlyIn [.out] t ∧
              t.out = s.out ++ [Msg.completion (s.tagOf tag) (s.mem.read k n) false])) ∧
        ((∃ r, locOf a = .reg r) ∨ locOf a = .none → a % 256 + d.length ≤ 256 → a % 256 + n ≤ 256 →
          (s.accepts a d.length = true → ∃ t, exec (.pcieMemWrite ⟨addr, good⟩ d be) s = .next t ∧ s.onlyIn [.tmr] t ∧
            t.tmr.held = s.tmr.held) ∧
          (s.accepts a n = true → ∃ t, exec (.pcieMemRead tag ⟨addr, good⟩ n) s = .next t ∧ s.onlyIn [.out] t ∧
            t.out = s.out ++ [Msg.completion (s.tagOf tag) (leBytes n 0) false])) ∧
        (s.accepts a d.length = false → ∃ t, exec (.pcieMemWrite ⟨addr, good⟩ d be) s = .next t ∧ s.onlyIn [.tmr] t ∧
          t.tmr.held = s.tmr.held ++ [Held.hostWr (.bulk a) d be]) ∧
        (s.accepts a n = false → ∃ t, exec (.pcieMemRead tag ⟨addr, good⟩ n) s = .next t ∧ s.onlyIn [.tmr] t ∧
          t.tmr.held = s.tmr.held ++ [Held.hostRd (s.tagOf tag) (.bulk a) n])) ∧
      (s.barOf addr = some (false, off) →
        (off + d.length ≤ 0x4000 → ∃ t, exec (.pcieMemWrite ⟨addr, good⟩ d be) s = .next t ∧ s.onlyIn [.mem] t ∧
          ∀ x, t.mem.byte x = if slotBase + off ≤ x ∧ x < slotBase + off + d.length ∧ be.getD (x - (slotBase + off)) false = true ∧
              x % 512 < 256 ∧ s.mbxBusy ((x - slotBase) / 512) = false ∧ s.mctpOwns ((x - slotBase) / 512) = false
            then d.getD (x - (slotBase + off)) 0 else s.mem.byte x) ∧
        (∀ k < 8, k ≠ 6 → off = 0x18000 + 8 * k → ∃ t, exec (.pcieMemRead tag ⟨addr, good⟩ 8) s = .next t ∧ t.mem = s.mem ∧
          t.out = s.out ++ [Msg.completion (s.tagOf tag) (leBytes 8 (s.regWord (statusReg k)).toNat) false]) ∧
        (0x1000000 ≤ off → off + 8 ≤ 0x2000000 → windowAddr (s.fld A.mbxRwin F.mbxRwin.BASE) off = some a → d.length = 8 →
          be.all id = true → s.memReady a 8 = true →
          (s.flag A.mbxCtl F.mbxCtl.RWWR = false → exec (.pcieMemWrite ⟨addr, good⟩ d be) s = .next s) ∧
          ∀ (b : BenchNo) (q : DeskNo) (k : Stack) (i : Fin 8), a ∈ plainRegs b q k i → s.flag A.mbxCtl F.mbxCtl.RWWR = true →
            ∃ t, exec (.pcieMemWrite ⟨addr, good⟩ d be) s = .next t ∧
              exec (.registerWrite hutchWho a 8 (BitVec.ofNat 64 (ofLe d))) s = .next t))) ∧
    (s.pcie.up = true →
      (∀ w, ∃ t, exec (.pcieConfigWrite w) s = .next t ∧ t.pcie.table = s.pcie.table ∧
        (∀ v < 64, v ∈ s.pcie.pba → t.vectorOpen v = true →
          v ∉ t.pcie.pba ∧ Msg.msix v (t.vector v).1 (t.vector v).2.1 ∈ t.out.drop s.out.length) ∧
        (match w with
         | .command mse bme => t.pcie.mse = mse ∧ t.pcie.bme = bme
         | .msix en fmask => t.pcie.msixEn = en ∧ t.pcie.fmask = fmask
         | .bar bulk x => (if bulk then t.pcie.bar2 else t.pcie.bar0) = x % 2 ^ 64 / (if bulk then 2 ^ 36 else 2 ^ 26) * (if bulk then 2 ^ 36 else 2 ^ 26)
         | .payload k => t.pcie.mps = k.val
         | .power d3 => t.pcie.d3 = d3
         | .ecrc gen chk => t.pcie.ecrcGen = gen ∧ t.pcie.ecrcChk = chk
         | .aerClear bits => BitVec.ofNat 32 t.pcie.aer = BitVec.ofNat 32 s.pcie.aer &&& ~~~bits
         | .other => t.pcie.bar0 = s.pcie.bar0 ∧ t.pcie.bar2 = s.pcie.bar2))) ∧
    ∀ (rate : Nat) (w : Fin 5) (flit : Bool),
      (s.rst.on = false ∨ rate ∉ [2, 5, 8, 16, 32, 64, 128] ∨ w.val ∉ [1, 2, 4] → exec (.pcieLinkUp ⟨rate, flit⟩ w) s = .next s) ∧
      (s.rst.on = true → rate ∈ [2, 5, 8, 16, 32, 64, 128] → w.val ∈ [1, 2, 4] →
        ∃ t, exec (.pcieLinkUp ⟨rate, flit⟩ w) s = .next t ∧ t.pcie.up = true ∧ t.pcie.rate = rate ∧ t.pcie.width = w.val ∧
          t.pcie.flit = (flit || decide (64 ≤ rate)) ∧ s.onlyIn [.pcie] t)

/-- An event that finds room is queued with the next SEQ and its word 1 (15 R435, R438), one that finds the queue full
is counted and takes no SEQ. A record goes to the ring while it is enabled and has room, as requester class 5, and is
counted as lost without (R439); it always goes to the mirror and signals the vector of its class unless that is
masked: the message is sent at once, pends while the vector may not send, and is merged within its hold-off, whose end
sends it (R441). With nothing raised and nothing to write, nothing happens. How many records one command writes is the
model's (log 4), and so is event 0x91 at the next acceptance (log 18). -/
def Obligations.EventRecords : Prop :=
  ∀ (s : State) (v : Fin 64) (q : Nat), q = s.fld A.evtSeq F.evtSeq.SEQ →
    (s.evt.raised = [] → exec (.eventAccept 0) s = .next s ∧ (s.evt.queue = [] → ∀ n, exec (.eventAccept n) s = .next s)) ∧
    (∀ e l, s.evt.raised = e :: l → s.evt.lost = none →
      (s.evt.queue.length < 256 → ∃ t, exec (.eventAccept 0) s = .next t ∧ t.evt.raised = l ∧
        t.evt.queue = s.evt.queue ++ [⟨q, s.eventWord e, e.pay⟩] ∧ t.fld A.evtSeq F.evtSeq.SEQ = (q + 1) % 2 ^ 64 ∧
        t.fld A.evtStat F.evtStat.QDEPTH = s.evt.queue.length + 1 ∧ t.mem = s.mem) ∧
      (256 ≤ s.evt.queue.length → ∃ t, exec (.eventAccept 0) s = .next t ∧ t.evt.raised = l ∧ t.evt.queue = s.evt.queue ∧
        t.fld A.evtSeq F.evtSeq.SEQ = q ∧ t.fld A.evtStat F.evtStat.QLOST = min (s.fld A.evtStat F.evtStat.QLOST + 1) 0xFFFF ∧
        t.mem = s.mem)) ∧
    (∀ r l a c, s.evt.raised = [] → s.evt.queue = r :: l → c = evClass r.code →
      a = s.fld A.evtRingBase F.evtRingBase.BASE * 32 + 32 * (r.seq % s.ringSize) →
      ∃ t, exec (.eventAccept 1) s = .next t ∧ t.evt.queue = l ∧ t.fld A.evtStat F.evtStat.QDEPTH = l.length % 512 ∧
        FMap.get? t.evt.mirror (r.seq % 256) = some r ∧
        (s.flag A.evtRingCtl F.evtRingCtl.EN = false → t.mem = s.mem) ∧
        (s.flag A.evtRingCtl F.evtRingCtl.EN = true → s.ringRoom r.seq = false → t.mem = s.mem ∧
          t.fld A.evtStat F.evtStat.LOST = min (s.fld A.evtStat F.evtStat.LOST + 1) 0xFFFFFFFF) ∧
        (∀ ia, s.flag A.evtRingCtl F.evtRingCtl.EN = true → s.ringRoom r.seq = true → locOf a = .tby ia →
          s.writePermitted 5 ia = true → s.soundAt ia 32 → s.lost.contains (5, a) = false → s.bytesAre t ia r.bytes) ∧
        (s.fldBit A.evtMsix F.evtMsix.CMASK c = true → t.pcie = s.pcie ∧ t.out = s.out) ∧
        (s.fldBit A.evtMsix F.evtMsix.CMASK c = false →
          (s.heldOff (32 + c) = true → 32 + c ∈ t.pcie.merged ∧ t.out = s.out) ∧
          (s.heldOff (32 + c) = false → s.vectorOpen (32 + c) = true →
            t.out = s.out ++ [Msg.msix (32 + c) (s.vector (32 + c)).1 (s.vector (32 + c)).2.1]) ∧
          (s.heldOff (32 + c) = false → s.vectorOpen (32 + c) = false → 32 + c ∈ t.pcie.pba ∧ t.out = s.out))) ∧
    (v.val ∈ s.pcie.merged → s.heldOff v = false → ∃ t, exec (.msixHoldoffExpiry v) s = .next t ∧ v.val ∉ t.pcie.merged ∧
      (s.vectorOpen v = true → t.out = s.out ++ [Msg.msix v (s.vector v).1 (s.vector v).2.1]) ∧
      (s.vectorOpen v = false → v.val ∈ t.pcie.pba ∧ t.out = s.out)) ∧
    (v.val ∉ s.pcie.merged ∨ s.heldOff v = true → exec (.msixHoldoffExpiry v) s = .next s)

/-- POWER_STATUS answers OK with 24 B: the busbar draw, PWR_CAP.CAP, THR of C-dies 0 to 7, the module pool, UNMET and
throttling, and zeros (17 R479); it changes nothing but its mailbox. -/
def Obligations.PowerStatus : Prop :=
  ∀ (i : MboxNo) (s : State) (pay : List Byte), s.asks i 0x0800 [] →
    pay = leBytes 4 (s.fld A.pwrStat F.pwrStat.DRAW) ++ leBytes 4 (s.fld A.pwrCap F.pwrCap.CAP) ++
      (List.range 8).map (fun c => BitVec.ofNat 8 (s.fld (A.pwrDom c) F.pwrDom.THR)) ++ leBytes 4 (s.fld A.pwrStat F.pwrStat.POOL) ++
      [BitVec.ofNat 8 (s.fld A.pwrStat F.pwrStat.UNMET + 2 * s.fld A.pwrStat F.pwrStat.THROT), 0, 0, 0] →
    pay.length = 24 ∧ ∃ t, exec (.powerStatus i) s = .next t ∧ s.gaveAnswer t i 0x0800 0 0 pay ∧ s.replied t i 40

/-- MODULE_INFO and MODULE_STATUS answer their payloads, MODULE_RESET asks for a core or system reset 1 ms later (15
R432). JOB_LOAD checks the whole graph, writes the registers and PCs and leaves the job LOADED, or RUNNING with START;
JOB_START makes it RUNNING, JOB_STOP stops every running thread, JOB_UNLOAD ends it (R433, R434). MAP_MODULE gives the
module its number, MAP_ROUTES writes the route words, MAP_SHARDS computes the map of 10 R313 to R315, whose owners are
the job's and which gives owner h of g the blocks of a SPLIT tensor of k from h·k/g up to (h+1)·k/g, or ends with a
failure. In a wrong job state, or with the module assigned, they answer BAD_STATE (R430). The order in which fields
are checked (log 21) and the formats of the job map and of the shard map (log 17) are the model's. -/
def Obligations.ModuleCommands : Prop :=
  ∀ (i : MboxNo) (s s' : State) (a n fl m : Nat) (g : List Byte) (lv : Byte),
    (s.asks i 0x0100 [] → ∃ t, exec (.moduleInfo i) s = .next t ∧ s.replied t i 56 ∧
      s.gaveAnswer t i 0x0100 0 0 (leBytes 8 (s.rd A.geoCfg0).toNat ++ leBytes 8 (s.rd A.geoCfg1).toNat ++
        leBytes 8 Config.fwVersion ++ (s.fuse.serial ++ leBytes 16 0).take 16)) ∧
    (s.asks i 0x0101 [] → ∃ t, exec (.moduleStatus i) s = .next t ∧ s.replied t i 22 ∧
      s.gaveAnswer t i 0x0101 0 0 ([BitVec.ofNat 8 (s.fld A.mbxStat F.mbxStat.JOB),
        BitVec.ofNat 8 (s.fld A.evtHealth F.evtHealth.STATE)] ++ leBytes 4 s.hut.jobId)) ∧
    (s.asks i 0x0102 [lv] →
      (lv = 1 ∨ lv = 2 → s.rst.due = none → ∃ t, exec (.moduleReset i) s = .next t ∧ s.gaveAnswer t i 0x0102 0 0 [] ∧
        t.rst = { s.rst with due := some (lv.toNat, s.pulse + 800000, F.rstCause.CMD.one) } ∧ t.pulse = s.pulse) ∧
      (lv ≠ 1 → lv ≠ 2 → ∃ t, exec (.moduleReset i) s = .next t ∧ s.onlyAnswered t i 0x0102 0x12 0)) ∧
    (s.asks i 0x0200 (leBytes 8 a ++ leBytes 8 n ++ leBytes 8 fl) → a < 2 ^ 64 → n < 2 ^ 64 → fl < 2 ^ 64 →
      (s.job ≠ 0 → ∃ t, exec (.jobLoad i) s = .next t ∧ s.onlyAnswered t i 0x0200 0x13 0) ∧
      (s.job = 0 → 1 < fl → ∃ t, exec (.jobLoad i) s = .next t ∧ s.onlyAnswered t i 0x0200 0x12 2) ∧
      (s.job = 0 → fl ≤ 1 → a % 64 = 0 → 64 ≤ n → a + n ≤ 2 ^ 50 → s.fwRead a n = (s', some g) → graphBad g = false →
        graphFits g n = true → ∀ bs rs, bs = pairsOf (g.drop (field g 8 8)) 800 → rs = pairsOf (g.drop (field g 16 8)) (field g 24 8) →
        (∀ e ∈ bs, e.1 % 8 = 0 ∧ e.2 % 8 = 0) →
        ((∀ e ∈ rs, listable e.1 = true) → ∃ t, exec (.jobLoad i) s = .next t ∧ s.acceptedFor t i 0x0200 0 ∧
          t.job = (if fl = 1 then 2 else 1) ∧ t.hut.jobId = field g 4 4 ∧
          ∀ b (c : Thr), (b, c) ∈ t.hut.threads ↔ b < 800 ∧ (if c = .F then (bs.getD b (0, 0)).1 else (bs.getD b (0, 0)).2) ≠ 0) ∧
        (∀ k, rs.findIdx? (fun e => !listable e.1) = some k →
          ∃ t, exec (.jobLoad i) s = .next t ∧ s.gaveAnswer t i 0x0200 0x20 k [] ∧ s'.replied t i 16))) ∧
    (s.asks i 0x0201 [] →
      (s.job = 1 ∨ s.job = 3 → ∃ t, exec (.jobStart i) s = .next t ∧ s.gaveAnswer t i 0x0201 0 0 [] ∧ t.job = 2 ∧
        (s.rst.level = 0 → ∀ q ∈ s.hut.threads, q.1 < 800 → t.live q.1 q.2.ctx = true)) ∧
      (s.job ≠ 1 → s.job ≠ 3 → ∃ t, exec (.jobStart i) s = .next t ∧ s.onlyAnswered t i 0x0201 0x13 0)) ∧
    (s.asks i 0x0202 [] →
      (s.job = 2 → ∃ t, exec (.jobStop i) s = .next t ∧ s.acceptedFor t i 0x0202 0 ∧
        ∀ b (c : Thr), b < 800 → FMap.has s.benches b = true → s.live b c.ctx = true →
          t.live b c.ctx = false ∨ t.fld (A.benchThr b c.ctx.idx) F.benchThr.STOP = 1) ∧
      (s.job ≠ 2 → ∃ t, exec (.jobStop i) s = .next t ∧ s.onlyAnswered t i 0x0202 0x13 0)) ∧
    (s.asks i 0x0203 [] →
      (s.job = 1 ∨ s.job = 3 → ∃ t, exec (.jobUnload i) s = .next t ∧ s.gaveAnswer t i 0x0203 0 0 [] ∧ t.job = 0 ∧ t.hut.threads = []) ∧
      (s.job ≠ 1 → s.job ≠ 3 → ∃ t, exec (.jobUnload i) s = .next t ∧ s.onlyAnswered t i 0x0203 0x13 0)) ∧
    (s.asks i 0x0300 (leBytes 2 m) → m < 65536 →
      (s.flag A.tmrId F.tmrId.ASSIGNED = false → m ≤ 0x3FFF → A.tmrId * 64 + F.tmrId.MODNUM.lo ∉ s.rwo →
        ∃ t, exec (.mapModule i) s = .next t ∧ s.gaveAnswer t i 0x0300 0 0 [] ∧ t.modnum = m ∧ t.flag A.tmrId F.tmrId.ASSIGNED = true) ∧
      (s.flag A.tmrId F.tmrId.ASSIGNED = true → ∃ t, exec (.mapModule i) s = .next t ∧ s.onlyAnswered t i 0x0300 0x13 0)) ∧
    (s.asks i 0x0301 (leBytes 8 a ++ leBytes 2 m ++ leBytes 2 n) → a + 16 * n ≤ 2 ^ 50 → m + n ≤ 16384 → m ≤ 0x3FFF →
      s.fwRead a (16 * n) = (s', some g) → ∃ t, exec (.mapRoutes i) s = .next t ∧ s.gaveAnswer t i 0x0301 0 0 [] ∧
        ∀ k < n, t.rd (A.tmrRt0 (m + k)) = BitVec.ofNat 64 (field g (16 * k) 8) &&& F.tmrRt0.PRI.mask ∧
          t.rd (A.tmrRt1 (m + k)) = BitVec.ofNat 64 (field g (16 * k + 8) 8) &&& (F.tmrRt1.VALID.mask ||| F.tmrRt1.ALT.mask)) ∧
    (s.asks i 0x0302 (leBytes 8 a ++ leBytes 8 n ++ leBytes 8 m) → a < 2 ^ 64 → n < 2 ^ 64 → m ≤ 2 ^ 50 →
      (s.job = 2 → ∃ t, exec (.mapShards i) s = .next t ∧ s.onlyAnswered t i 0x0302 0x13 0) ∧
      (s.job ≠ 2 → a + n ≤ 2 ^ 50 → s.fwRead a n = (s', some g) →
        (∀ j, Config.jobMap g = some j → j.ordered = true → ∃ t, exec (.mapShards i) s = .next t ∧ s.acceptedFor t i 0x0302 0 ∧
          (s'.memWrite 7 m (Config.shardImage (j.place.map (fun x => (x.owner, x.tid, x.first, x.blocks))))).replied t i 16) ∧
        ((∀ j, Config.jobMap g = some j → j.ordered = false) → ∃ t, exec (.mapShards i) s = .next t ∧
          s.acceptedFor t i 0x0302 (shardFailure g) ∧ shardFailure g ∈ [0x12, 0x13, 0x14, 0x15, 0x16, 0x20, 0x30] ∧
          s'.replied t i 16))) ∧
    (∀ j : JobMap, (∀ x ∈ j.place, x.owner ∈ j.owners) ∧
      ∀ tid k, .split tid k ∈ j.tensors → ∀ h < j.owners.length, splitFirst k j.owners.length h < splitFirst k j.owners.length (h + 1) →
        ⟨j.owners.getD h 0, tid, h * k / j.owners.length, (h + 1) * k / j.owners.length - h * k / j.owners.length⟩ ∈ j.place)

/-- NUM, SBD, TIME, POWER_CAP and LOG_EVENTS commands write the registers of their fields, in order (15 R432); FAR
commands act as the writes of TRS_CTL and of the partner's entry; SEC_CERT and LOG_ERRCOPY write their bytes, SEC_KEYX
draws an ephemeral key and then installs the session key with event 0xB4 (17 R480, R483; 16 R462), FW_STAGE verifies
the image and stages it in the inactive bank, FW_ACTIVATE makes it pending and asks for a system reset (17 R474).
Wrong fields, states and holders answer BAD_FIELD, BAD_STATE and BUSY (R430). The order of checks is the model's (log
21), and so are SM2, from its standard, and the image's layout (logs 16, 17). -/
def Obligations.UnitCommands : Prop :=
  ∀ (i : MboxNo) (s s' : State) (a n x y z : Nat) (e k0 k1 : Byte) (l : List Byte),
    a < 2 ^ 64 → n < 2 ^ 64 → x < 2 ^ 16 → y < 2 ^ 32 → z < 2 ^ 16 →
    (s.asks i 0x0400 (leBytes 8 a ++ [e] ++ leBytes 2 x) →
      (s.job ≠ 2 → e.toNat ≤ 1 → x < 1024 → ∃ t, exec (.numSet i) s = .next t ∧ s.gaveAnswer t i 0x0400 0 0 [] ∧
        (s.writes [(A.numSeed, a), (A.numMode, e.toNat), (A.numLadder, x)]).replied t i 16) ∧
      (s.job = 2 → ∃ t, exec (.numSet i) s = .next t ∧ s.onlyAnswered t i 0x0400 0x13 0)) ∧
    (a % 32 = 0 → a < 2 ^ 50 → k0.toNat ≤ 31 → e.toNat ≤ 1 →
      (s.asks i 0x0401 (leBytes 8 a ++ [k0, e]) → ∃ t, exec (.numElog i) s = .next t ∧ s.gaveAnswer t i 0x0401 0 0 [] ∧
        (s.writes [(A.numElogBase, a),
          (A.numElogCtl, e.toNat * 2 ^ 53 + k0.toNat * 2 ^ 48 + s.fld A.numElogCtl F.numElogCtl.TAIL * 2 ^ 24)]).replied t i 16) ∧
      (s.asks i 0x0A00 (leBytes 8 a ++ [k0, e]) → ∃ t, exec (.logEvents i) s = .next t ∧ s.gaveAnswer t i 0x0A00 0 0 [] ∧
        (s.writes [(A.evtRingBase, a),
          (A.evtRingCtl, s.fld A.evtRingCtl F.evtRingCtl.TAIL * 2 ^ 32 + e.toNat * 2 ^ 31 + k0.toNat * 2 ^ 24)]).replied t i 16)) ∧
    (s.asks i 0x0500 (leBytes 2 x ++ [e, k0]) → e.toNat ≤ 1 → k0.toNat ≤ 1 →
      ∃ t, exec (.sbdEnable i) s = .next t ∧ s.gaveAnswer t i 0x0500 0 0 [] ∧ s.replied { t with regs := s.regs } i 16 ∧
        ∀ q < 16, t.fld (A.sbdCtl q) F.sbdCtl.EN = (if x.testBit q then e.toNat else s.fld (A.sbdCtl q) F.sbdCtl.EN) ∧
          t.fld (A.sbdCtl q) F.sbdCtl.HALT = (if x.testBit q then k0.toNat else s.fld (A.sbdCtl q) F.sbdCtl.HALT)) ∧
    (s.asks i 0x0501 ([k0] ++ leBytes 8 a ++ [k1] ++ leBytes 2 x ++ [e]) → k0.toNat ≤ 1 → a % 64 = 0 → k1.toNat ≤ 31 → e.toNat ≤ 1 →
      ∃ t, exec (.sbdExport i) s = .next t ∧ s.gaveAnswer t i 0x0501 0 0 [] ∧
        (s.writes ((List.range 16).flatMap (fun q => [(A.sbdExpBase q, a),
          (A.sbdExpCtl q, x * 2 ^ 16 + k1.toNat * 2 ^ 8 + k0.toNat * 2 + e.toNat)]))).replied t i 16) ∧
    (s.asks i 0x0600 [] → ∃ t u d, exec (.farEnable i) s = .next t ∧ exec .trsEnable s = .next u ∧ u.replied t i 16 ∧
      s.gaveAnswer t i 0x0600 (if d = 0 then 0 else 0x13) d [] ∧ (d = 0 ↔ u.flag A.trsCtl F.trsCtl.EN = true) ∧
      (d ≠ 0 → s.fld A.tbyStage F.tbyStage.OWNER ≠ 3 → d = if s.fld A.tbyStage F.tbyStage.OWNER = 0 ∨ s.fld A.tbyStage F.tbyStage.OWNER = 2 then 2 else 1)) ∧
    (s.asks i 0x0601 [] → ∃ t u, exec (.farDisable i) s = .next t ∧ exec .trsDisable s = .next u ∧ u.replied t i 16 ∧
      s.gaveAnswer t i 0x0601 0 0 []) ∧
    (s.asks i 0x0602 ([e] ++ leBytes 2 x ++ leBytes 4 y ++ [k0, k1]) → k1.toNat ≤ 1 →
      ∃ t u, exec (.farPartner i) s = .next t ∧ s.gaveAnswer t i 0x0602 0 0 [] ∧ u.replied t i 16 ∧
        exec (.trsPartWrite ⟨e.toNat, e.isLt⟩ (BitVec.ofNat 64 (x + k1.toNat * 2 ^ 16 + k0.toNat * 2 ^ 24 + y * 2 ^ 32))) s = .next u) ∧
    (s.asks i 0x0700 (leBytes 8 a ++ leBytes 4 y) → a < 2 ^ 48 → y < 10 ^ 9 → ∃ t, exec (.timeSet i) s = .next t ∧
      s.gaveAnswer t i 0x0700 (if s.flag A.trsCtl F.trsCtl.EN then 0x13 else 0) 0 [] ∧
      (s.writes [(A.gtSets, a), (A.gtSetn, y * 2 ^ 32)]).replied t i 16) ∧
    (s.asks i 0x0701 ([k0] ++ leBytes 4 y ++ [e]) → k0.toNat ≤ 3 → e.toNat ≤ 1 → ∃ t, exec (.timeSource i) s = .next t ∧
      s.gaveAnswer t i 0x0701 0 0 [] ∧ t.fld A.gtCfg F.gtCfg.SRC = k0.toNat ∧ t.fld A.gtPps F.gtPps.DELAY = y ∧ t.gt = s.gt) ∧
    (s.asks i 0x0801 (leBytes 4 y) → ∃ t u, exec (.powerCap i) s = .next t ∧ s.gaveAnswer t i 0x0801 0 0 [] ∧ u.replied t i 16 ∧
      exec (.pwrCapWrite (BitVec.ofNat 16 (min y 65535))) s = .next u) ∧
    (a ≤ 2 ^ 50 →
      (s.asks i 0x0900 (leBytes 8 a) → ∃ t, exec (.secCert i) s = .next t ∧ s.acceptedFor t i 0x0900 0 ∧
        (s.memWrite 7 a Config.certChain).replied t i 16) ∧
      (s.asks i 0x0A01 (leBytes 8 a) → ∃ t, exec (.logErrcopy i) s = .next t ∧ s.acceptedFor t i 0x0A01 0 ∧
        (s.memWrite 7 a (leBytes 8 s.flash.errlog.length ++ leBytes 8 (s.fld A.evtFltCtl F.evtFltCtl.SUPPR) ++ leBytes 48 0 ++
          s.flash.errlog.flatten)).replied t i 16)) ∧
    (s.asks i 0x0901 ([e] ++ leBytes 8 a) → a + 256 ≤ 2 ^ 50 → s.fwRead a 256 = (s', some l) → field l 1 1 ≤ 1 → field l 3 5 = 0 →
      (field l 0 1 = 1 → ∃ t, exec (.secKeyx i) s = .next t ∧ s.acceptedFor t i 0x0901 0 ∧ (FMap.get? t.sec.eph e.toNat).isSome = true) ∧
      (field l 0 1 = 2 → FMap.get? s'.sec.eph e.toNat = none → ∃ t, exec (.secKeyx i) s = .next t ∧ s.acceptedFor t i 0x0901 0 ∧
        t.sec = s'.sec ∧ s'.raises t 0xB4 (evSource 8 0) [e, BitVec.ofNat 8 (field l 2 1), 3]) ∧
      (field l 0 1 = 2 → ∀ v j own other key conf, FMap.get? s'.sec.eph e.toNat = some v →
        own = ⟨s'.fuse.serial, sm2Pub ownKey, sm2Pub (ofLe v)⟩ →
        other = ⟨(l.drop 8).take 16, (l.drop 24).take 64, (l.drop 88).take 64⟩ →
        sm2Exchange ownKey (ofLe v) own other (field l 1 1 == 1) = some (key, conf) →
        (ptOf other.pub).isSome = true → (ptOf other.eph).isSome = true →
        s'.keyPlace e.toNat = some j → ∃ t, exec (.secKeyx i) s = .next t ∧ s.acceptedFor t i 0x0901 0 ∧
          FMap.get? t.sec.eph e.toNat = none ∧ FMap.get? t.sec.keys (2 * e.toNat + j) = some key ∧
          t.fld (A.secKey e.toNat) (if j = 0 then F.secKey.EP0 else F.secKey.EP1) = field l 2 1 ∧
          t.flag (A.secKey e.toNat) (if j = 0 then F.secKey.V0 else F.secKey.V1) = true ∧
          s'.raises t 0xB4 (evSource 8 0) [e, BitVec.ofNat 8 (field l 2 1), 0])) ∧
    (s.asks i 0x0B00 (leBytes 8 a ++ leBytes 8 n) →
      (s.hut.fwHold = 2 → ∃ t, exec (.fwStage i) s = .next t ∧ s.onlyAnswered t i 0x0B00 0x15 0) ∧
      (s.hut.fwHold ≠ 2 → a + n ≤ 2 ^ 50 → 256 ≤ n → n ≤ 32 * 1024 * 1024 + 256 → s.fwRead a n = (s', some l) →
        (∀ img b, s'.verifyImage (l.take 256) (l.drop 256) = some img → b = 1 - s.flash.active →
          ∃ t, exec (.fwStage i) s = .next t ∧ s.acceptedFor t i 0x0B00 0 ∧ FMap.get? t.flash.banks b = some img ∧
            t.flash.staged = some b ∧ t.flash.pending = s.flash.pending ∧ t.hut.fwHold = 1 ∧ t.fld A.mbxStat F.mbxStat.FWSTATE = 2 ∧
            s'.raises t 0xB3 (evSource 0 0) [3, BitVec.ofNat 8 img.svn, BitVec.ofNat 8 b]) ∧
        (s'.verifyImage (l.take 256) (l.drop 256) = none → ∃ t, exec (.fwStage i) s = .next t ∧ s.acceptedFor t i 0x0B00 0x20 ∧
          t.flash = s.flash ∧ t.fld A.mbxStat F.mbxStat.FWSTATE = 2))) ∧
    (s.asks i 0x0B01 [] →
      (s.hut.fwHold ≠ 0 → ∃ t, exec (.fwActivate i) s = .next t ∧ s.onlyAnswered t i 0x0B01 0x15 0) ∧
      (∀ b, s.hut.fwHold = 0 → s.flash.staged = some b → s.flag A.rstStrap F.rstStrap.HOST = false → s.job = 0 ∨ s.job = 3 →
        s.rst.due = none → ∃ t, exec (.fwActivate i) s = .next t ∧ s.gaveAnswer t i 0x0B01 0 0 [] ∧ t.flash.pending = some b ∧
          t.flash.staged = none ∧ t.rst.due = some (2, s.pulse + 800000, F.rstCause.CMD.one)) ∧
      (s.hut.fwHold = 0 → s.flash.staged = none ∨ s.flag A.rstStrap F.rstStrap.HOST = true ∨ (s.job ≠ 0 ∧ s.job ≠ 3) →
        ∃ t, exec (.fwActivate i) s = .next t ∧ s.onlyAnswered t i 0x0B01 0x13 0))

/-- On the bus the module answers MCTP control and PLDM discovery, a sensor reading with the user's offset, and the
messages of a firmware update (15 R445, R446; 17 R475); a vendor message of mailbox 31 submits its slot or is answered
BUSY (R447); a crossing of a warning or critical threshold is reported once (19 R512). The responder answers
GET_VERSION to GET_MEASUREMENTS in their order, and anything else with an error (17 R482); DOE discovery names its two
protocols. Without power, an address or a link nothing answers. The forms of all these messages are the model's, from
the DMTF specifications (log 17). -/
def Obligations.Management : Prop :=
  ∀ (s : State) (src : BitVec 8) (mctp : Bool) (req : Bytes) (n : Nat) (q : List Byte),
    (s.rst.on = false → (∀ a, exec (.i3cDynamicAddress a) s = .next s) ∧ ∀ die v, exec (.sensorThresholdCrossing n die v) s = .next s) ∧
    (s.rst.on = false ∨ s.mgmt.i3c = none → ∀ (m : MctpCtl) (p : PldmBase) (v : Int) (u : UpdateMsg),
      ∀ c ∈ [Instr.mctpControl src m, .pldmDiscovery src p, .getSensorReading src n v, .pldmFwUpdate src u, .mctpVendorMailbox src req],
        exec c s = .next s) ∧
    (s.spdmOpen mctp = false → ∀ (slot idx : BitVec 8) (off len : BitVec 16) (sign : Bool),
      ∀ c ∈ [Instr.getVersion mctp src req, .getCapabilities mctp src req, .negotiateAlgorithms mctp src req, .getDigests mctp src req,
          .getCertificate mctp src slot off len req, .challenge mctp src slot req, .getMeasurements mctp src idx sign req,
          .spdmUnsupportedRequest mctp src], exec c s = .next s) ∧
    (∀ a, s.rst.on = true → ∃ t : State, exec (.i3cDynamicAddress a) s = .next t ∧ t.mgmt.i3c = some a.toNat ∧ s.onlyIn [.mgmt] t) ∧
    (s.rst.on = true → s.mgmt.i3c.isSome = true →
      (∀ (m : MctpCtl) (a : MgmtAns), (m, a) ∈ [(MctpCtl.getEid, MgmtAns.eid s.mgmt.eid), (.getTypes, .types [0, 1, 5, 0x7E]), (.other n, .unsupported)] →
        ∃ t : State, exec (.mctpControl src m) s = .next t ∧ s.onlyIn [.out] t ∧ t.out = s.out ++ [Msg.mgmt 1 src.toNat a]) ∧
      (8 ≤ n → n ≤ 0xFE → ∃ t : State, exec (.mctpControl src (.setEid n)) s = .next t ∧ t.mgmt.eid = n ∧
        t.out = s.out ++ [Msg.mgmt 1 src.toNat (.eid n)]) ∧
      (∀ (m : PldmBase) (a : MgmtAns), (m, a) ∈ [(PldmBase.getTid, MgmtAns.tid s.mgmt.tid), (.getTypes, .types [0, 2, 5]),
          (.getVersion 2, .version (Config.pldmVersion 2) 0), (.getCommands 5, .types (Config.pldmCommands 5)), (.getVersion 3, .unsupported)] →
        ∃ t : State, exec (.pldmDiscovery src m) s = .next t ∧ s.onlyIn [.out] t ∧ t.out = s.out ++ [Msg.mgmt 1 src.toNat a]) ∧
      (∀ v : Int, 1 ≤ n → n ≤ 33 → ∃ t : State, exec (.getSensorReading src n v) s = .next t ∧ s.onlyIn [.out] t ∧
        t.out = s.out ++ [Msg.mgmt 1 src.toNat (.reading n (v + sext 16 (s.fld (A.pwrUcal (n - 1)) F.pwrUcal.OFS)))]) ∧
      (∃ t : State, exec (.getSensorReading src 100 0) s = .next t ∧
        t.out = s.out ++ [Msg.mgmt 1 src.toNat (.reading 100 ((s.fld A.evtHealth F.evtHealth.STATE + 1 : Nat) : Int))]) ∧
      (∀ u : PldmUpd, (s.mgmt.upd = none → s.hut.fwHold = 0 → s.fld A.mbxStat F.mbxStat.FWSTATE = 1 →
          ∃ t : State, exec (.pldmFwUpdate src (.request n)) s = .next t ∧ t.mgmt.upd = some ⟨n, []⟩ ∧ t.hut.fwHold = 2 ∧
            t.fld A.mbxStat F.mbxStat.FWSTATE = 2 ∧ t.out = s.out ++ [Msg.mgmt 1 src.toNat (.update 0)]) ∧
        (s.mgmt.upd = some u → ∃ t : State, exec (.pldmFwUpdate src .cancel) s = .next t ∧ t.mgmt.upd = none ∧ t.hut.fwHold = 0 ∧
          t.fld A.mbxStat F.mbxStat.FWSTATE = 1 ∧ t.out = s.out ++ [Msg.mgmt 1 src.toNat (.update 0)]) ∧
        (s.mgmt.upd = none → ∃ t : State, exec (.pldmFwUpdate src .complete) s = .next t ∧ t.out = s.out ++ [Msg.mgmt 1 src.toNat (.update 0x80)] ∧
          t.flash = s.flash) ∧
        (s.mgmt.upd = some u → 256 ≤ u.size → u.size ≤ 32 * 1024 * 1024 + 256 →
          ∀ i : Img, s.verifyImage (u.image.take 256) (u.image.drop 256) = some i → ∃ t : State, exec (.pldmFwUpdate src .complete) s = .next t ∧
            t.flash.staged = some (1 - s.flash.active) ∧ FMap.get? t.flash.banks (1 - s.flash.active) = some i ∧
            t.out = s.out ++ [Msg.mgmt 1 src.toNat (.update 0)])) ∧
      (s.flag A.mbxCtl F.mbxCtl.M31 = true → q = (req ++ leBytes 256 0).take 256 →
        (s.mbxBusy 31 = false → ∃ t : State, exec (.mctpVendorMailbox src req) s = .next t ∧ t.mbxBusy 31 = true ∧ t.mbxDone 31 = false ∧
          t.request 31 = q ∧ t.hut.order = s.hut.order ++ [31] ∧ t.hut.sender = src.toNat ∧ t.out = s.out) ∧
        (s.mbxBusy 31 = true → ∃ t : State, exec (.mctpVendorMailbox src req) s = .next t ∧ s.onlyIn [.out] t ∧ t.out = s.out ++
          [Msg.mgmt 1 src.toNat (.slot (q.take 2 ++ [0, 0] ++ (q.drop 4).take 4 ++ [0x15, 0] ++ leBytes 6 0))]))) ∧
    (∀ die v new old, s.rst.on = true → new = sensorLevel n die v → old = FMap.getD s.mgmt.crossed n 0 → new ≠ old →
      ∃ t : State, exec (.sensorThresholdCrossing n die v) s = .next t ∧ FMap.getD t.mgmt.crossed n 0 = new ∧ t.regs = s.regs ∧
        t.out = if min old 2 = min new 2 ∨ s.mgmt.i3c = none then s.out else s.out ++ [Msg.mgmt 1 0 (.crossing n new v)]) ∧
    (s.spdmOpen mctp = true → ∀ (dest at' lv : Nat) (tr : List Byte), dest = (if mctp then src.toNat else 0) → at' = mctp.toNat → (lv, tr) = s.transcript mctp →
      (∃ t : State, exec (.getVersion mctp src req) s = .next t ∧ t.transcript mctp = (1, req) ∧ t.transcript (!mctp) = s.transcript (!mctp) ∧
        t.out = s.out ++ [Msg.mgmt at' dest (.version 1 2)]) ∧
      (∀ (c : Instr) (need next : Nat) (a : MgmtAns) (more : List Byte), (c, need, next, a, more) ∈
          [(Instr.getCapabilities mctp src req, 1, 2, MgmtAns.capabilities true true true, []),
            (.negotiateAlgorithms mctp src req, 2, 3, .algorithms, []), (.getDigests mctp src req, 3, 3, .digests [0] certHash, certHash)] →
        (lv < need → ∃ t : State, exec c s = .next t ∧ s.onlyIn [.out] t ∧ t.out = s.out ++ [Msg.mgmt at' dest (.spdmError 4)]) ∧
        (need ≤ lv → ∃ t : State, exec c s = .next t ∧ t.transcript mctp = (max lv next, tr ++ req ++ more) ∧ t.out = s.out ++ [Msg.mgmt at' dest a])) ∧
      (lv < 3 → ∀ (slot idx : BitVec 8) (off len : BitVec 16) (sign : Bool),
        ∀ c ∈ [Instr.getCertificate mctp src slot off len req, .challenge mctp src slot req, .getMeasurements mctp src idx sign req],
          ∃ t : State, exec c s = .next t ∧ s.onlyIn [.out] t ∧ t.out = s.out ++ [Msg.mgmt at' dest (.spdmError 4)]) ∧
      (3 ≤ lv →
        (∀ off len : BitVec 16, off.toNat ≤ Config.certChain.length → ∃ t : State, exec (.getCertificate mctp src 0 off len req) s = .next t ∧
          t.out = s.out ++ [Msg.mgmt at' dest (.certificate ((Config.certChain.drop off.toNat).take len.toNat)
            (Config.certChain.length - off.toNat - ((Config.certChain.drop off.toNat).take len.toNat).length))]) ∧
        (∃ (t : State) (g nonce : List Byte) (k : Nat), exec (.challenge mctp src 0 req) s = .next t ∧ nonce.length = 32 ∧
          g = nonce ++ sm2Sign ownKey (k + 1) (tr ++ req ++ certHash ++ nonce) ∧
          t.out = s.out ++ [Msg.mgmt at' dest (.challenge 0 certHash g)]) ∧
        (∀ slot off len : BitVec 16, slot.setWidth 8 ≠ (0 : BitVec 8) →
          ∀ c ∈ [Instr.getCertificate mctp src (slot.setWidth 8) off len req, .challenge mctp src (slot.setWidth 8) req],
            ∃ t : State, exec c s = .next t ∧ t.out = s.out ++ [Msg.mgmt at' dest (.spdmError 1)]) ∧
        (∃ t : State, exec (.getMeasurements mctp src 0xFF false req) s = .next t ∧
          t.out = s.out ++ [Msg.mgmt at' dest (.measurements ((List.range 5).map (fun i => (i + 1, s.meas i))) [])]) ∧
        ∃ t : State, exec (.getMeasurements mctp src 6 false req) s = .next t ∧ t.out = s.out ++ [Msg.mgmt at' dest (.spdmError 1)]) ∧
      ∃ t : State, exec (.spdmUnsupportedRequest mctp src) s = .next t ∧ s.onlyIn [.out] t ∧ t.out = s.out ++ [Msg.mgmt at' dest (.spdmError 7)]) ∧
    (s.rst.on = true → s.pcie.up = true → ∀ (idx : BitVec 8) (a : MgmtAns), (idx, a) ∈ [((0 : BitVec 8), MgmtAns.protocol 1 0 1), (1, .protocol 1 1 0)] →
      ∃ t : State, exec (.doeDiscovery idx) s = .next t ∧ s.onlyIn [.out] t ∧ t.out = s.out ++ [Msg.mgmt 0 0 a])

/-- A hosted Bench at a layer boundary, or one whose time is up, starts its takeover by the lowest spare that is free
and to which no other Bench moves, with event 0xA1 (16 R450, R451; 01 R22); at its end the map names the spare,
BENCH_ID shows it, its Desks are live, the old one is retired and event 0xA2 raised. Without a boundary for TKOWAIT ms
the takeover is forced (R450). A pair of the Hutch that mismatches restarts with event 0xA5, twice within a second it
is retired, and without a pair the firmware has FAILED (R458). Every ten minutes the availability counters are stored
(R461). Where its condition does not hold, a command changes nothing. What a takeover does to the instruction cache is
the model's (log 19). -/
def Obligations.Takeover : Prop :=
  ∀ (b : BenchNo) (p : Fin 4) (s : State) (x : Bench) (c : Nat), x = s.bench b → c = b.val / 100 →
    (∀ sp l, s.openSpares c = sp :: l → s.rst.level = 0 → s.hosted b = true → x.copying = false →
      (x.takeover = none ∧ s.layerBoundary b = true) ∨ (x.takeover.map (·.forced) = some true ∧ s.desksStill b = true) →
      ∃ t, exec (.takeoverStart b) s = .next t ∧ (t.bench b).takeover = some ⟨s.pulse, x.takeover.isSome, some sp⟩ ∧ t.mem = s.mem ∧
        s.raises t 0xA1 (evSource 1 b) (leBytes 2 (s.phys b) ++ leBytes 2 sp ++ leBytes 4 0 ++ leBytes 2 b ++
          [if x.takeover.isSome then 2 else 1])) ∧
    (s.openSpares c = [] ∨ s.rst.level ≠ 0 ∨ s.hosted b = false ∨ x.copying = true ∨ s.desksStill b = false →
      exec (.takeoverStart b) s = .next s) ∧
    (x.faultAt = none ∨ s.hosted b = false ∨ x.takeover.isSome = true ∨ s.openSpares c = [] →
      exec (.takeoverWaitExpiry b) s = .next s) ∧
    (∀ t0, x.faultAt = some t0 → s.hosted b = true → x.takeover = none → s.openSpares c ≠ [] →
      (s.reached t0 (max 1 (s.fld A.evtFltCtl F.evtFltCtl.TKOWAIT) * 1000) = true →
        ∃ t, exec (.takeoverWaitExpiry b) s = .next t ∧ t.bench b = { x with takeover := some ⟨s.pulse, true, none⟩ } ∧
          s.onlyIn [.benches] t) ∧
      (s.reached t0 (max 1 (s.fld A.evtFltCtl F.evtFltCtl.TKOWAIT) * 1000) = false → exec (.takeoverWaitExpiry b) s = .next s)) ∧
    (∀ t0 f sp, x.takeover = some ⟨t0, f, some sp⟩ → x.moves = [] → s.tmr.held = [] →
      ∃ t, exec (.takeoverComplete b) s = .next t ∧ t.phys b = sp ∧
        t.fld (A.benchId b) F.benchId.PHYS = sp % 2 ^ F.benchId.PHYS.width ∧ t.flag (A.benchId b) F.benchId.ON_SPARE = true ∧
        t.fld (A.benchId b) F.benchId.DESK_LIVE = 15 ∧ t.spareList c = (s.spareList c).filter (· != sp) ∧
        t.flash.retired = s.flash.retired ++ [s.phys b] ∧ (∀ d < 4, (t.desk b d).host = none) ∧ (t.bench b).takeover = none ∧
        s.raises t 0xA2 (evSource 1 b) (leBytes 2 (s.phys b) ++ leBytes 2 sp ++ leBytes 4 0 ++ leBytes 2 b ++ [if f then 2 else 1])) ∧
    (x.moves ≠ [] ∨ x.copying = false → exec (.takeoverComplete b) s = .next s) ∧
    (s.flt.pairsDead.contains p.val = true ∨ s.rst.on = false → exec (.hutchLockstepMismatch p) s = .next s) ∧
    (s.flt.pairsDead.contains p.val = false → s.rst.on = true → ∀ again, again = (FMap.get? s.flt.pairAt p).any (fun t0 => !s.reached t0 1000000) →
      ∃ t, exec (.hutchLockstepMismatch p) s = .next t ∧ FMap.get? t.flt.pairAt p = some s.pulse ∧
        t.flt.pairsDead = (if again then p.val :: s.flt.pairsDead else s.flt.pairsDead) ∧
        t.fld A.mbxStat F.mbxStat.FWSTATE = (if 4 ≤ t.flt.pairsDead.length then 3 else s.fld A.mbxStat F.mbxStat.FWSTATE) ∧
        s.raises t 0xA5 (evSource 0 0) [BitVec.ofNat 8 p, if again then 2 else 1, BitVec.ofNat 8 (4 - t.flt.pairsDead.length)]) ∧
    (s.reached s.flt.savedAt 600000000 = true → ∃ t, exec .availSaveTimer s = .next t ∧ t.flash.availT = t.rd A.evtAvailT ∧
      t.flash.availU = t.rd A.evtAvailU ∧ t.flt.savedAt = s.pulse ∧ t.mem = s.mem) ∧
    (s.reached s.flt.savedAt 600000000 = false → exec .availSaveTimer s = .next s)

/-- After POWER_ON_RESET, SYSTEM_RESET, RESET_N_LOW_SYSTEM and each row that turns the module off, MODNUM holds its
reset value and a write sets it again; EPOCH holds its reset value too, and is writable, until the firmware of the
same boot writes its number (10 R302). CORE_RESET and RESET_N_LOW_CORE keep both fields and what was written once.
MODNUM and EPOCH of TMR_ID are the spec's only RWO fields. -/
def Obligations.WriteOnceReturns : Prop :=
  ∀ (adc : Fin 1024) (xa : Bool) (s : State),
    (∃ t, exec (.powerOnReset adc xa) s = .next t ∧ t.onceFresh) ∧
    (s.rst.on = true → (∀ q, s.rst.due = some q → q.2.1 ≤ s.pulse) → ∃ t, exec (.systemReset adc) s = .next t ∧ t.onceFresh) ∧
    (s.rst.on = true → s.rst.taken < 2 → ∃ t, exec .resetNLowSystem s = .next t ∧ t.onceFresh ∧ t.rwo = []) ∧
    (∀ c ∈ [Instr.thermalTrip, .busbarUndervoltage, .busbarOvervoltage, .busbarOvercurrent, .presentNBreak],
      ∃ t, exec c s = .next t ∧ t.onceFresh ∧ t.rwo = []) ∧
    (∀ c ∈ [Instr.coreReset, .resetNLowCore], ∃ t, exec c s = .next t ∧ t.rd A.tmrId = s.rd A.tmrId ∧ t.rwo = s.rwo)

/-- A core, system or power-on reset takes place when due, with LEVEL, its cause bits, RESET_N driven and what it
clears (17 R465 to R468); RESET_N_LOW and RELEASE act at the level reached; GO verifies the host's image, once its
memory can be read (R473); the watchdog rolls a trial back (R474); PERST and a hot reset reset the endpoint and ask
for a reset as RST_CTL says (R466); a trip, a voltage, a current or the connector turns the module off and its end
brings it up again (19 R499 to R501); the power manager shows the draws, throttles each C-die above its allowance and
reports THROT (17 R476, R477), and a cap written takes effect at its next step (R478). Where its condition does not
hold, a row changes nothing. That one row takes a boot whole is the model's (log 4). -/
def Obligations.ResetsAndPower : Prop :=
  ∀ (adc : Fin 1024) (xa : Bool) (s : State) (at_ c t0 : Nat),
    (∃ t, exec (.powerOnReset adc xa) s = .next t ∧ t.mem = State.reset.mem ∧ t.rd A.rstCause = regReset A.rstCause ∧
      t.flash.banks = s.flash.banks ∧ (t.rst.on = true ↔ xa = true ∧ ∀ r ∈ s.rst.why, r ∈ [0, 3, 4])) ∧
    (s.rst.on = true → s.rst.due = some (2, at_, c) → at_ ≤ s.pulse → ∃ t, exec (.systemReset adc) s = .next t ∧
      t.rst.due = none ∧ t.rst.driving = true ∧ t.mem = State.reset.mem ∧ t.fld A.rstStrap F.rstStrap.ADC = adc ∧
      t.rd A.rstCause = (putFld (s.rd A.rstCause) F.rstCause.LEVEL 2 ||| BitVec.ofNat 64 c)) ∧
    (s.rst.on = true → s.rst.level = 0 → s.rst.due = some (1, at_, c) → at_ ≤ s.pulse → ∃ t, exec .coreReset s = .next t ∧
      t.rst.due = none ∧ t.rst.driving = true ∧ (∀ b < 800, ∀ k : Ctx, t.live b k = false) ∧ t.desks = [] ∧
      t.rd A.rstCause = (putFld (s.rd A.rstCause) F.rstCause.LEVEL 1 ||| BitVec.ofNat 64 c) ∧
      s.raises t 0xB0 (evSource 0 0) ([1, 0, 0, 0] ++ leBytes 4 (t.rd A.rstCause).toNat ++
        [BitVec.ofNat 8 s.strapCode, BitVec.ofNat 8 s.bankCode]) ∧
      (s.sbd.runs = [] →
        ∀ x, t.mem.byte x = if 0x1000000000000 ≤ x ∧ x < 0x1000000000000 + 800 * 0x400000 then 0 else s.mem.byte x)) ∧
    (s.rst.on = false ∨ (∃ q, s.rst.due = some q ∧ s.pulse < q.2.1) → exec (.systemReset adc) s = .next s ∧ exec .coreReset s = .next s) ∧
    ((s.fld A.rstBoot F.rstBoot.STATE ≠ 1 → exec .rstBootGo s = .next s) ∧
      (s.fld A.rstBoot F.rstBoot.STATE = 1 → s.imageReady 0 = false → ∃ t, exec .rstBootGo s = .next t ∧ s.onlyIn [.rst] t ∧
        t.rst = { s.rst with goWait := true }) ∧
      ∀ u s', s.fld A.rstBoot F.rstBoot.STATE = 1 → s.imageReady 0 = true → u = s.putRst { s.rst with goWait := false } →
        (u.readImage 0 = (s', none) → ∃ t, exec .rstBootGo s = .next t ∧
          t.fld A.rstBoot F.rstBoot.ALT = 1 ∧ t.fld A.rstBoot F.rstBoot.STATE = s'.fld A.rstBoot F.rstBoot.STATE) ∧
        ∀ img, u.readImage 0 = (s', some img) → ∃ t, exec .rstBootGo s = .next t ∧
          t.fld A.rstBoot F.rstBoot.STATE = 3 ∧ t.fld A.mbxStat F.mbxStat.FWSTATE = 1 ∧ t.rst.hostBoot = false) ∧
    (s.rst.trial = none → exec .bootWatchdogExpiry s = .next s) ∧
    (s.rst.trial = some t0 → s.reached t0 10000000 = true → s.rst.due = none → ∃ t, exec .bootWatchdogExpiry s = .next t ∧
      t.flash = { s.flash with pending := none } ∧ t.rst.trial = none ∧
      (∃ v, t.rst.rolled = some (v, s.fld A.rstBoot F.rstBoot.BANK)) ∧ t.rst.due = some (2, s.pulse, F.rstCause.WDOG.one)) ∧
    (s.rst.on = false → ∀ q ∈ [Instr.resetNLowCore, .resetNLowSystem, .perstAssert, .pcieHotReset], exec q s = .next s) ∧
    (1 ≤ s.rst.taken → exec .resetNLowCore s = .next s) ∧ (2 ≤ s.rst.taken → exec .resetNLowSystem s = .next s) ∧
    (s.rst.on = true → s.rst.taken = 0 → ∃ t, exec .resetNLowCore s = .next t ∧ t.rst.level = 1 ∧ t.rst.taken = 1 ∧
      t.fld A.rstCause F.rstCause.LEVEL = 1 ∧ (s.rst.driving = false → t.flag A.rstCause F.rstCause.EXT = true) ∧ t.desks = []) ∧
    (s.rst.on = true → s.rst.taken < 2 → ∃ t, exec .resetNLowSystem s = .next t ∧ t.rst.level = 2 ∧ t.rst.taken = 2 ∧
      t.fld A.rstCause F.rstCause.LEVEL = 2 ∧ (s.rst.driving = false → t.flag A.rstCause F.rstCause.EXT = true) ∧
      t.mem = State.reset.mem) ∧
    ((s.rst.driving = true → exec (.resetNRelease adc) s = .next s) ∧
      (s.rst.driving = false → ∃ t, exec (.resetNRelease adc) s = .next t ∧ t.rst.level = 0 ∧ t.rst.taken = 0 ∧
        (s.rst.level = 2 → t.fld A.rstStrap F.rstStrap.ADC = adc) ∧
        (s.rst.level = 1 → s.raises t 0xB0 (evSource 0 0) ([1, 0, 0, 0] ++ leBytes 4 (s.rd A.rstCause).toNat ++
          [BitVec.ofNat 8 s.strapCode, BitVec.ofNat 8 s.bankCode])))) ∧
    (s.rst.driveEnd = none → exec .resetNDriveEnd s = .next s) ∧
    (s.rst.driveEnd = some t0 → t0 ≤ s.pulse → ∃ t, exec .resetNDriveEnd s = .next t ∧ t.rst.driving = false ∧
      t.rst.driveEnd = none ∧ t.rst.level = s.rst.level ∧ t.regs = s.regs ∧ t.mem = s.mem) ∧
    (s.rst.on = true → s.rst.due = none → (∃ t, exec .perstAssert s = .next t ∧ t.pcie = Pcie.reset ∧ t.mem = s.mem ∧
      (s.flag A.rstCtl F.rstCtl.PERST = true → t.rst.due = some (2, s.pulse, F.rstCause.PERST.one)) ∧
      (s.flag A.rstCtl F.rstCtl.PERST = false → t.rst.due = none ∧ t.flag A.rstCause F.rstCause.LINK = true)) ∧
      ∃ t, exec .pcieHotReset s = .next t ∧ t.pcie = Pcie.reset ∧ t.mem = s.mem ∧
      (s.flag A.rstCtl F.rstCtl.HOTRST = true → t.rst.due = some (1, s.pulse, F.rstCause.HOT.one)) ∧
      (s.flag A.rstCtl F.rstCtl.HOTRST = false → t.rst.due = none ∧ t.flag A.rstCause F.rstCause.LINK = true)) ∧
    (∀ q ∈ [(5, true, Instr.thermalTrip), (1, true, .busbarUndervoltage), (2, true, .busbarOvervoltage),
        (3, false, .busbarOvercurrent), (4, false, .presentNBreak)],
      ∃ t, exec q.2.2 s = .next t ∧ t.rst.on = false ∧ (∀ r, r ∈ t.rst.why ↔ r = q.1 ∨ r ∈ s.rst.why) ∧
        t.rst.driving = q.2.1 ∧ t.mem = State.reset.mem ∧ t.flash.banks = s.flash.banks) ∧
    (∃ t, exec .busbarOvercurrent s = .next t ∧ t.rst.retryAt =
      if (s.rst.trips.filter (fun a => !s.reached a 60000000)).length ≥ 2 then none else some (s.pulse + 800000000)) ∧
    (5 ∉ s.rst.why → exec (.thermalRecover adc xa) s = .next s) ∧
    (1 ∉ s.rst.why → 2 ∉ s.rst.why → exec (.busbarVoltageRecover adc xa) s = .next s) ∧
    (s.rst.retryAt = none ∨ (s.rst.retryAt = some t0 ∧ s.pulse < t0) → exec (.hotswapRetry adc xa) s = .next s) ∧
    (s.rst.why = [5] → ∃ t, exec (.thermalRecover adc xa) s = .next t ∧ t.rst.why = [] ∧
      (xa = true → t.rst.on = true ∧ t.flag A.rstCause F.rstCause.THERM = true ∧ t.fld A.rstStrap F.rstStrap.ADC = adc)) ∧
    (s.rst.why = [1] ∨ s.rst.why = [2] → ∃ t, exec (.busbarVoltageRecover adc xa) s = .next t ∧ t.rst.why = [] ∧
      (xa = true → t.rst.on = true ∧ t.fld A.rstStrap F.rstStrap.ADC = adc)) ∧
    (s.rst.retryAt = some t0 → t0 ≤ s.pulse → s.rst.why = [3] → ∃ t, exec (.hotswapRetry adc xa) s = .next t ∧
      t.rst.why = [] ∧ t.rst.retryAt = none ∧ (xa = true → t.rst.on = true ∧ t.fld A.rstStrap F.rstStrap.ADC = adc)) ∧
    (∀ doms busbar loss, s.rst.on = false ∨ s.reached s.pwr.stepAt 10 = false → exec (.powerManagerStep doms busbar loss) s = .next s) ∧
    (∀ doms busbar loss, s.rst.on = true → s.reached s.pwr.stepAt 10 = true → (∀ k < 8, s.throttle k ≤ 64) →
      ∃ t, exec (.powerManagerStep doms busbar loss) s = .next t ∧ t.pwr.stepAt = s.pulse ∧ t.mem = s.mem ∧
        t.fld A.pwrStat F.pwrStat.DRAW = min 0xFFFF busbar ∧ t.fld A.pwrCap F.pwrCap.CAP = s.fld A.pwrCap F.pwrCap.CAP ∧
        (∀ k < 8, (t.allow k < doms.getD k 0 → t.throttle k < s.throttle k ∨ t.throttle k = 8) ∧
          (doms.getD k 0 ≤ t.allow k → s.throttle k ≤ t.throttle k ∧ t.throttle k ≤ 64)) ∧
        (t.flag A.pwrStat F.pwrStat.THROT = true ↔ ∃ k < 8, t.throttle k < 64) ∧
        (t.flag A.pwrStat F.pwrStat.THROT ≠ s.flag A.pwrStat F.pwrStat.THROT → s.raises t 0xB1 (evSource 7 0)
          ([if t.flag A.pwrStat F.pwrStat.THROT then 1 else 2, 0, 0, 0] ++ leBytes 4 s.capNow))) ∧
    ∀ v : BitVec 16, ∃ t, exec (.pwrCapWrite v) s = .next t ∧ t.fld A.pwrCap F.pwrCap.CAP = v.toNat ∧
      (t.pwr.falling = true ↔ t.capNow < s.fld A.pwrStat F.pwrStat.DRAW) ∧ ∀ a, a ≠ A.pwrCap → t.rd a = s.rd a

/-- An LCOMMIT arrival that is the attempt's last, of a word whose attempt publishes, leaves GEN 0 where GEN was
0xFFFF_FFFF; OVF of entry 4k + 3 is set, event 0x53 is raised where OVF was clear, and every waiter at GEN that does
not consume and whose threshold exceeds 0 stays held (18 R493). R493's last sentence binds software alone. The issuer
that the event names is the model's choice (log 25). -/
def Obligations.GenWraps : Prop :=
  ∀ (v : Via) (i : BitVec 16) (who : Who) (w m n flags attempt tmo : Nat) (s : State), w = wordOf i.toNat →
    s.reaches v i.toNat who (.arrival flags n attempt tmo) m → s.matches w attempt = true →
    0 < n → n < 65536 → s.lw w 1 lwArrived + 1 < 65536 → n ≤ s.lw w 1 lwArrived + 1 →
    (s.lw w 1 lwExpect = 0 ∨ s.lw w 1 lwExpect = n) → s.lw w 0 lwAbort = 0 → s.lw w 0 lwDisagree = 0 →
    (s.lw w 0 lwFlags).testBit 3 = false → flags.testBit 3 = false → s.lwGen w = 2 ^ 32 - 1 →
    ∃ t, exec (.layerArrival v i who (.arrival flags n attempt tmo)) s = .next t ∧ t.lwGen w = 0 ∧
      t.flag (A.syncCnt (w + 3)) F.syncCnt.OVF = true ∧
      (s.flag (A.syncCnt (w + 3)) F.syncCnt.OVF = false → ∃ (src : Nat) (x : Who),
        s.raises t 0x53 (evSource 4 0) (leBytes 2 (w + 3) ++ leBytes 2 src ++ leBytes 2 (whoWord x) ++ [1])) ∧
      ∀ r ∈ s.sync.waiters, r.index = w + 3 → r.consume = false → 0 < r.threshold → r ∈ t.sync.waiters

/-- A record whose header is written is taken and counted; one of no slot is dropped with event 0x20 and its slot
freed, an END record of the step marks its contributor (08 R226 to R230). An absent step record is read again after 10
µs, and a wait beyond GTMO raises event 0x25 once (R235, R263). An update starts once everything R241 asks for is
there, its end is performed once and it is published with UCNT signalled when its exports are done (R249). Once its
wait is completed the collector adds the sums and writes the result line (R243), and once theirs is every module reads
the result. A failed check is repeated and counted, the fourth in a row makes the Sideboard faulty with event 0xA6
(R264; 16 R453). Where nothing of this is due the commands change nothing. That an update is performed in two commands
is the model's (log 14), and so is the form of the global sum (log 15). That event 0x25 belongs to each Sideboard's
own wait is the model's reading (log 26). -/
def Obligations.SideboardCommands : Prop :=
  ∀ (k : Stack) (x : Fin 262144) (l : Fin 4096) (step : BitVec 48) (s : State) (u : SbdUnit) (st : Nat), u = s.unit k → st = step.toNat →
    (∀ o c q r, s.intake k = (o, c, q) → r = (s.readRec k x).2 → s.rst.level = 0 → s.flag (A.sbdCtl k) F.sbdCtl.EN = true →
      x.val < c * q → FMap.getD u.hdr x 0 = 2 ^ 64 - 1 → u.waiting.contains x.val = false → (∀ p ∈ u.slots, p.2.recs.contains x.val = false) →
      ∃ t, exec (.sbdRecordTake k x) s = .next t ∧
        t.fld (A.sbdIntake k) F.sbdIntake.TAKEN = (s.fld (A.sbdIntake k) F.sbdIntake.TAKEN + 1) % 2 ^ 32 ∧
        (s.sbdCount ≤ r.slot → FMap.get? (t.unit k).hdr x = none ∧ (t.unit k).slots = u.slots ∧ t.mem = (s.readRec k x).1.mem ∧
          s.raises t 0x20 (evSource 2 k) (leBytes 6 r.step ++ leBytes 2 r.slot ++ leBytes 4 r.blk ++ leBytes 2 r.src ++
            [1, BitVec.ofNat 8 k])) ∧
        (r.slot < s.sbdCount → r.kind = 1 → r.fmt ∈ [1, 3, 4] → udescOk (u.slot r.slot).desc = true → (u.slot r.slot).step = some r.step →
          (u.slot r.slot).held = false → (u.slot r.slot).done = false → (u.slot r.slot).repro = false →
          x.val / q ∈ (t.sslot k r.slot).ends)) ∧
    (s.flag (A.sbdCtl k) F.sbdCtl.EN = false ∨ s.rst.level ≠ 0 ∨ FMap.getD u.hdr x 0 ≠ 2 ^ 64 - 1 ∨ u.waiting.contains x.val = true →
      exec (.sbdRecordTake k x) s = .next s) ∧
    (∀ p, FMap.get? u.polls st = some p → p.present = false → s.reached p.readAt 10 = true →
      ∃ t, exec (.sbdSteprecPoll k step) s = .next t ∧
        FMap.get? (t.unit k).polls st = some { p with readAt := s.pulse, present := (s.stepRec k st).2.isSome }) ∧
    (FMap.get? u.polls st = none → exec (.sbdSteprecPoll k step) s = .next s ∧ exec (.sbdWaitTimeout k false step) s = .next s) ∧
    (∀ p, FMap.get? u.polls st = some p → p.present = true → exec (.sbdSteprecPoll k step) s = .next s ∧
      exec (.sbdWaitTimeout k false step) s = .next s) ∧
    (∀ p, FMap.get? u.polls st = some p → p.present = false → p.raised = false → s.reached p.since (s.gtmo k) = true →
      ∃ t, exec (.sbdWaitTimeout k false step) s = .next t ∧ FMap.get? (t.unit k).polls st = some { p with raised := true } ∧
        t.flag (A.sbdStat k) F.sbdStat.GWAIT = true ∧ t.mem = s.mem ∧
        s.raises t 0x25 (evSource 2 k) (leBytes 6 st ++ [1] ++ leBytes 8 0 ++ [BitVec.ofNat 8 k])) ∧
    (∀ n t0, s.normOf st = some n → n.sent = some t0 → n.result = none → n.raised = false → k.val = 0 → s.reached t0 (s.gtmo 0) = true →
      ∃ t, exec (.sbdWaitTimeout k true step) s = .next t ∧ t.normOf st = some { n with raised := true } ∧ t.mem = s.mem ∧
        s.raises t 0x25 (evSource 2 0) (leBytes 6 st ++ [2] ++ leBytes 8 0 ++ [0])) ∧
    (s.normOf st = none → exec (.sbdWaitTimeout k true step) s = .next s) ∧
    (∀ d, s.readDesc l = (s, d) → (s.sslot 0 l).step = some st → s.rst.level = 0 →
      (∀ j < 16, s.flag (A.sbdCtl j) F.sbdCtl.EN = true ∧ s.flag (A.sbdCtl j) F.sbdCtl.HALT = false ∧ (s.unit j).waiting = []) →
      (∃ j < 16, s.flag (A.sbdRas j) F.sbdRas.FAULT = false) →
      s.intakeDone l st = true → s.isNext l st = true → (∀ r ∈ s.sbd.runs, r.slot ≠ l) → udescOk d = true →
      ((udesc d).rule = 0 → ∃ t, exec (.sbdUpdateStart l) s = .next t ∧ t.sbd.runs = s.sbd.runs ∧
        ∀ j < 16, (t.sslot j l).step = none) ∧
      ((udesc d).rule ≠ 0 → (∀ r ∈ s.sbd.runs, r.matrix ≠ ((udesc d).rule == 3)) → s.fld A.sbdNorm F.sbdNorm.GCNT = 0 →
        (∀ j < 16, (FMap.getD (s.unit j).polls st ⟨0, 0, false, false⟩).present = true ∧ s.recordAt j st) →
        ∃ t h e, exec (.sbdUpdateStart l) s = .next t ∧ t.flag (A.sbdStat 0) F.sbdStat.BUSY = true ∧
          t.sbd.runs = s.sbd.runs ++ [⟨l, st, h, (udesc d).rule == 3, (udesc d).ucnt, some e⟩])) ∧
    ((s.sslot 0 l).step = none ∨ (∃ r ∈ s.sbd.runs, r.slot = l) → exec (.sbdUpdateStart l) s = .next s) ∧
    (∀ n, s.collectStep = some n → s.isHere (s.fld A.sbdNorm F.sbdNorm.COLL) = true → s.fld A.sbdNorm F.sbdNorm.GCNT ≠ 0 →
      s.sbd.sumWait = .done ∨ (s.sbd.sumWait = .idle ∧ s.fld A.sbdNorm F.sbdNorm.GCNT ≤ s.counter (s.fld A.sbdNorm F.sbdNorm.CIDX) ∧
        s.armed (s.fld A.sbdNorm F.sbdNorm.CIDX) = false) →
      ∃ t, exec .sbdNormCollect s = .next t ∧ (t.normOf n.step).map (·.collected) = some true ∧
        ∀ ia area, area = s.normArea → s.fld A.sbdNorm F.sbdNorm.GCNT = 1 → s.fld A.sbdNorm F.sbdNorm.RANK = 0 → locOf area = .tby ia →
          s.writePermitted 3 ia = true → s.soundAt ia 320 → s.lost = [] → s.sync.waiters = [] →
          t.mem.read (ia + 8) 4 = leBytes 4 (sqrtExact (numAt (s.mem.read (ia + 64 + 128 * (n.step % 2)) 104) 8 96))) ∧
    (s.collectStep = none → exec .sbdNormCollect s = .next s) ∧
    (∀ c n v, c = s.fld A.sbdNormArea F.sbdNormArea.RIDX → s.fld A.sbdNorm F.sbdNorm.GCNT ≠ 0 →
      (∃ m ∈ s.sbd.norms, m.sent.isSome = true ∧ m.result = none) →
      s.sbd.resultWait = .done ∨ (s.sbd.resultWait = .idle ∧ s.counter c = 1 ∧ s.armed c = false) →
      v = (s.memRead 3 s.normArea 16).2.1 → s.normOf (numAt v 0 6) = some n →
      ∃ t, exec .sbdNormResult s = .next t ∧ t.normOf n.step = some { n with result := some (numAt v 8 4, bit (numAt v 0 8) 48) } ∧
        (s.sbd.resultWait = .idle → t.counter c = 0)) ∧
    (s.fld A.sbdNorm F.sbdNorm.GCNT = 0 → s.sbd.resultWait ≠ .done → exec .sbdNormResult s = .next s) ∧
    (∀ r, s.sbd.runs.find? (fun r => r.slot == l.val) = some r → ∃ t, exec (.sbdPublish l) s = .next t ∧
      (∀ y ∈ t.sbd.runs, y.slot = l.val → y.fin = none) ∧
      ((∀ j < 16, (s.unit j).waiting = []) → r.fin = none → s.unitPending (unitExport l) (fun _ => true) = false →
        r.ucnt < 65536 → s.armed r.ucnt = false → s.sync.waiters = [] →
        t.sbd.runs = s.sbd.runs.filter (fun y => y.slot != l.val) ∧
        t.counter r.ucnt = min (s.counter r.ucnt + 1) (2 ^ 32 - 1) ∧
        ∀ j < 16, (t.sslot j l).held = r.held ∧ (t.sslot j l).step = if r.held then (s.sslot j l).step else none)) ∧
    (s.sbd.runs.find? (fun r => r.slot == l.val) = none → exec (.sbdPublish l) s = .next s) ∧
    (s.flag (A.sbdRas k) F.sbdRas.FAULT = true → ∀ again, exec (.sbdCheckFail k again) s = .next s) ∧
    (s.flag (A.sbdRas k) F.sbdRas.FAULT = false → s.rst.level = 0 → ∀ again n,
      n = (if again then u.tries + 1 else 1) → ∃ t, exec (.sbdCheckFail k again) s = .next t ∧ (t.unit k).tries = n ∧ t.mem = s.mem ∧
        t.flag (A.sbdRas k) F.sbdRas.CHECK = true ∧
        t.fld (A.sbdRas k) F.sbdRas.RETRIES = min (s.fld (A.sbdRas k) F.sbdRas.RETRIES + 1) 0xFFFF ∧
        (4 ≤ n → t.flag (A.sbdRas k) F.sbdRas.FAULT = true ∧ ∃ h, s.raises t 0xA6 (evSource 2 k) [BitVec.ofNat 8 k, BitVec.ofNat 8 h]) ∧
        (n < 4 → u.repeats.length < 64 → t.flag (A.sbdRas k) F.sbdRas.FAULT = false))

/-- TRS_ROUND follows the calendar (12 R346). Enabling claims the staging region and the alarm timer and takes the
partners as PRESENT, or JOINING at a joiner, or is refused with NOSTAGE; disabling frees both and discards what was
under way (R360, R373). SNAPSHOT, SEND, CLOSE and APPLY start at their instants and in the order of their entries
(R349) once their group has come to them, and put every exchanged slot's boundary action due (R348, R354, R365 to
R368); they complete when the last slot or frame is done (R369). A failed check of a pipeline is repeated, the fourth
in a row retires it (16 R456). With both retired rounds are skipped. An entry of a partner is taken, joins or leaves
(R374). Where nothing is due the commands change nothing. What the order of these is within a command is the model's
(log 27). -/
def Obligations.TrestleRounds : Prop :=
  ∀ (g : Fin 256) (i : Fin 256) (v : Word) (p : Fin 2) (s : State) (x : Grp) (n : Nat), x = s.grp g →
    (n = round32 (s.roundOf s.gtAbs) →
      (n = s.roundNow → exec .trsRoundBegin s = .next s) ∧
      (n ≠ s.roundNow → ∃ t, exec .trsRoundBegin s = .next t ∧ t.roundNow = n ∧ t.mem = s.mem)) ∧
    (s.flag A.trsCtl F.trsCtl.EN = true → exec .trsEnable s = .next s) ∧
    (s.flag A.trsCtl F.trsCtl.EN = false →
      (s.fld A.tbyStage F.tbyStage.OWNER = 0 ∨ s.fld A.tbyStage F.tbyStage.OWNER = 2 →
        s.fld A.clkAlarm F.clkAlarm.OWNER = 0 ∨ s.fld A.clkAlarm F.clkAlarm.OWNER = 1 ∨ s.outranks 3 1 (s.fld A.clkAlarm F.clkAlarm.OWNER) = true →
        ∃ t, exec .trsEnable s = .next t ∧ t.flag A.trsCtl F.trsCtl.EN = true ∧ t.flag A.trsStat F.trsStat.RUN = true ∧
          t.fld A.tbyStage F.tbyStage.OWNER = 2 ∧ t.fld A.clkAlarm F.clkAlarm.OWNER = 1 ∧
          t.roundNow = round32 (s.roundOf s.gtAbs) ∧ t.trs.enGt = s.gtAbs ∧
          ∀ k < 256, s.partOn k = true → t.partState k = if s.flag A.trsDonor F.trsDonor.VALID then 3 else 1) ∧
      (s.fld A.tbyStage F.tbyStage.OWNER = 1 → ∃ t, exec .trsEnable s = .next t ∧ t.flag A.trsCtl F.trsCtl.EN = false ∧
        t.flag A.trsStat F.trsStat.NOSTAGE = true ∧ t.mem = s.mem ∧ t.trs = s.trs) ∧
      (s.fld A.tbyStage F.tbyStage.OWNER = 0 ∨ s.fld A.tbyStage F.tbyStage.OWNER = 2 → s.fld A.clkAlarm F.clkAlarm.OWNER ∉ [0, 1] →
        s.outranks 3 1 (s.fld A.clkAlarm F.clkAlarm.OWNER) = false → ∃ t, exec .trsEnable s = .next t ∧ t.flag A.trsCtl F.trsCtl.EN = false ∧
          t.flag A.trsStat F.trsStat.NOALARM = true ∧ t.fld A.tbyStage F.tbyStage.OWNER = s.fld A.tbyStage F.tbyStage.OWNER ∧
          t.mem = s.mem ∧ t.trs = s.trs) ∧
      exec .trsDisable s = .next s) ∧
    (s.flag A.trsCtl F.trsCtl.EN = true → ∃ t, exec .trsDisable s = .next t ∧ t.flag A.trsCtl F.trsCtl.EN = false ∧
      t.flag A.trsStat F.trsStat.RUN = false ∧ t.fld A.tbyStage F.tbyStage.OWNER = 0 ∧ t.fld A.clkAlarm F.clkAlarm.OWNER ≠ 1 ∧
      t.trs = { Trs.reset with tries := s.trs.tries, repeats := s.trs.repeats, parts := t.trs.parts } ∧ t.mem = s.mem ∧
      ∀ k, (t.part k).theirs = none ∧ (t.part k).delays = [] ∧ (t.part k).ctlRound = (s.part k).ctlRound ∧
        (t.part k).ctlSent = (s.part k).ctlSent) ∧
    (s.takesPart g = false → exec (.trsSnapshot g) s = .next s) ∧
    (s.takesPart g = true → x.install = false → s.flag A.trsCtl F.trsCtl.EN = true → s.flag A.gtStat F.gtStat.VALID = true →
      2 ≤ s.flt.pipesDead.length → ∀ r, s.dueRounds g ((s.calEntry g 1).getD 0) = some (r, 0) → x.phase ≠ .snapping →
        ∃ t, exec (.trsSnapshot g) s = .next t ∧ (t.grp g).seen = some (round32 r) ∧ (t.grp g).round = x.round ∧
          t.fld A.trsStat F.trsStat.OVERRUN = min (s.fld A.trsStat F.trsStat.OVERRUN + 1) 0xFFFF) ∧
    (s.takesPart g = true → x.install = false → s.mayAct = true → s.turn g 1 = true →
      (s.dueRounds g ((s.calEntry g 1).getD 0) = none → exec (.trsSnapshot g) s = .next s) ∧
      (∀ r, s.dueRounds g ((s.calEntry g 1).getD 0) = some (r, 0) → x.phase = .idle → ∃ t, exec (.trsSnapshot g) s = .next t ∧
        (t.grp g).round = some (round32 r) ∧ (t.grp g).seen = some (round32 r) ∧ (t.grp g).todo = (s.groupSlots g).map (·.1) ∧
        (t.grp g).phase = (if (s.groupSlots g).isEmpty then .snapped else .snapping) ∧ t.mem = s.mem)) ∧
    (s.calEntry g 2 = none ∨ s.mayAct = false ∨ x.phase ≠ .snapped → exec (.trsSend g) s = .next s) ∧
    (∀ off, s.calEntry g 2 = some off → s.mayAct = true → s.turn g 2 = true → x.phase = .snapped → s.nextInstant x.doneAt off ≤ s.gtAbs →
      (∀ y ∈ s.trs.groups, y.2.phase ≠ .sending) → ∃ t, exec (.trsSend g) s = .next t ∧ (t.grp g).phase = .sending ∧
        t.flag A.trsStat F.trsStat.SENDING = true ∧
        ∃ c ∈ t.trs.contribs, c.site = s.site ∧ c.group = g ∧ c.round = x.round.getD 0 ∧ c.doneAt.isSome = true ∧ c.onTime = true) ∧
    (x.phase = .sending → (∀ f ∈ s.trs.wait, ¬(f.kind = 0 ∧ f.group = g ∧ some f.round = x.round)) →
      ∃ t, exec (.trsSendComplete g) s = .next t ∧ t.grp g = { x with phase := .sent, ts := s.gtAbs, doneAt := s.gtAbs } ∧
        t.flag A.trsStat F.trsStat.SENDING = false ∧ t.mem = s.mem) ∧
    (x.phase ≠ .sending → exec (.trsSendComplete g) s = .next s) ∧
    (s.mayAct = false ∨ x.phase ≠ .sent → exec (.trsClose g) s = .next s) ∧
    (s.mayAct = true → x.phase = .sent →
      (s.flag A.trsCtl F.trsCtl.GAUTO = true ∧ x.ts + s.fld A.trsDelay F.trsDelay.DMAX * 1500 + 2000000 ≤ s.gtAbs) ∨
        (s.flag A.trsCtl F.trsCtl.GAUTO = false ∧ s.turn g 3 = true ∧ s.nextInstant x.ts ((s.calEntry g 3).getD 0) ≤ s.gtAbs) → ∃ t, exec (.trsClose g) s = .next t ∧
        (t.grp g).phase = .closed ∧ (t.grp g).doneAt = s.gtAbs ∧ t.mem = s.mem ∧
        ∀ c ∈ s.trs.contribs, c.group = g → c.round = x.round.getD 0 → c.doneAt.isSome = true → { c with onTime := true } ∈ t.trs.contribs) ∧
    (∀ l, s.calEntry g 4 = none ∨ s.mayAct = false ∨ x.phase ≠ .closed → exec (.trsApply g l) s = .next s) ∧
    (∀ off l, s.calEntry g 4 = some off → s.mayAct = true → s.turn g 4 = true → x.phase = .closed → s.nextInstant x.doneAt off ≤ s.gtAbs →
      (∀ y ∈ s.trs.groups, y.2.phase ≠ .applying) → ∃ t, exec (.trsApply g l) s = .next t ∧ (t.grp g).phase = .applying ∧
        t.flag A.trsStat F.trsStat.APPLYING = true ∧ (t.grp g).appRound = x.round.getD 0 ∧
        (∀ y ∈ t.trs.xfers, y.group ≠ g) ∧ (t.grp g).law = some s.outerLaw ∧
        ∀ u ∈ (t.grp g).uses, ∃ c ∈ s.trs.contribs, c.site = u.site ∧ c.round = u.round ∧ c.group = g ∧ c.doneAt.isSome = true) ∧
    (x.phase = .applying → x.todo = [] → ∃ t, exec (.trsApplyComplete g) s = .next t ∧ (t.grp g).phase = .idle ∧ (t.grp g).uses = [] ∧
      t.flag A.trsStat F.trsStat.APPLYING = false ∧ ∀ c ∈ t.trs.contribs, c.group = g → c.site ≠ s.site) ∧
    (x.phase ≠ .applying ∨ x.todo ≠ [] → exec (.trsApplyComplete g) s = .next s) ∧
    (s.flag A.trsCtl F.trsCtl.EN = true → s.partOn i = false → getFld v F.trsPart0.VALID = 1 →
      ∃ t, exec (.trsPartWrite i v) s = .next t ∧ t.partOn i = true ∧ t.partState i = 3 ∧ t.partSite i = getFld v F.trsPart0.SITE ∧
        (t.part i).heardAt = s.pulse) ∧
    (s.flag A.trsCtl F.trsCtl.EN = false → ∃ t, exec (.trsPartWrite i v) s = .next t ∧ t.partSite i = getFld v F.trsPart0.SITE ∧
      t.partOn i = decide (getFld v F.trsPart0.VALID = 1) ∧ t.mem = s.mem) ∧
    (s.flag A.trsCtl F.trsCtl.EN = false → s.partOn i = true → getFld v F.trsPart0.VALID = 0 → s.partState i ≠ 0 → ∃ t, exec (.trsPartWrite i v) s = .next t ∧
      t.partOn i = false ∧ t.partState i = 0 ∧
      t.part i = { Partner.reset with heardAt := s.pulse, ctlRound := (s.part i).ctlRound, ctlSent := (s.part i).ctlSent } ∧
      s.raises t 0x67 (evSource 5 0) (leBytes 2 (s.partSite i) ++ [BitVec.ofNat 8 (s.partState i), 0] ++ leBytes 4 s.roundNow ++ [0])) ∧
    (s.flag A.trsCtl F.trsCtl.EN = true → s.partOn i = true → exec (.trsPartWrite i v) s = .next s) ∧
    (s.flt.pipesDead.contains p.val = true ∨ s.flag A.trsCtl F.trsCtl.EN = false → ∀ again, exec (.trsPipelineCheckFail p again) s = .next s) ∧
    (s.flt.pipesDead.contains p.val = false → s.flag A.trsCtl F.trsCtl.EN = true → ∀ again k,
      k = (if again then FMap.getD s.trs.tries p 0 + 1 else 1) → ∃ t, exec (.trsPipelineCheckFail p again) s = .next t ∧
        FMap.get? t.trs.tries p = some k ∧ t.mem = s.mem ∧
        (4 ≤ k → t.flt.pipesDead = p.val :: s.flt.pipesDead ∧
          s.raises t 0xA8 (evSource 5 0) [BitVec.ofNat 8 p, BitVec.ofNat 8 (1 - s.flt.pipesDead.length)]) ∧
        (k < 4 → (FMap.getD s.trs.repeats p []).length < 64 → t.flt.pipesDead = s.flt.pipesDead))

/-- A frame that reception discards has no further effect (12 R360), and so has a control frame of another subtype.
DATA is kept and, complete, acknowledged; ACK frees the buffered frames, NACK repeats the listed ones and is counted;
the timers repeat NACK, LAST and HELLO and report a full buffer (R361 to R363, R372). A partner's silence makes it
ABSENT (13 R376); fingerprints of another lineage are recorded as a divergence with event 0x69 (R382); LINEAGE is
kept, JOIN noted, a request served with a frame, differing blocks noted, a delta kept, END and READY ends what they
end (R385 to R396). The staging region is held by frame (log 27). -/
def Obligations.TrestleFrames : Prop :=
  ∀ (p : PortNo) (frame : Bytes) (s s1 : State) (i : Nat) (h : FarHdr) (body : List Byte) (k : Nat),
    k = (farHdrOf frame).kind →
    (s.recvFrame p frame = (s1, none) →
      ∀ c d, (c, d) ∈ [(Instr.trsDataReceive p frame, 0), (.trsNackReceive p frame, 1), (.trsAckReceive p frame, 2),
          (.trsFprintReceive p frame, 3), (.hello p frame, 4), (.lineage p frame, 4), (.requestJoin p frame, 4), (.requestRepair p frame, 4),
          (.requestRecon p frame, 4), (.requestBlist p frame, 4), (.bfp p frame, 4), (.adelta p frame, 4), (.endXfer p frame, 4),
          (.ready p frame, 4)] → exec c s = .next (if k = d then s1 else s)) ∧
    (s.recvFrame p frame = (s1, some (i, h, body)) →
      (k = 0 → s1.repeated h = true → ∃ t, exec (.trsDataReceive p frame) s = .next t ∧
        (∀ c, s1.pastContrib h.src h.round h.group = some c → c.doneAt = none → t = s1)) ∧
      (k = 0 → s1.repeated h = false →
        ∃ t c, exec (.trsDataReceive p frame) s = .next t ∧ t.contrib h.src h.round h.group = some c ∧ FMap.get? c.bodies h.fidx = some body) ∧
      (k = 2 → s1.trs.wait = [] → (∀ f ∈ s1.trs.tx, f.again = false) → ∃ t, exec (.trsAckReceive p frame) s = .next t ∧
        t.trs.tx = s1.trs.tx.filter (fun f => !(f.part == i && f.group == h.group && f.round == h.round))) ∧
      (k = 1 → ∃ t, exec (.trsNackReceive p frame) s = .next t ∧ t.trs.tx.map (·.bytes) = s1.trs.tx.map (·.bytes) ∧
        t.fld (A.trsPart2 i) F.trsPart2.NACKS = min (s1.fld (A.trsPart2 i) F.trsPart2.NACKS + 1) 0xFFFF) ∧
      (k = 3 → s1.trs.diverged.contains (i, h.group, numAt body 0 4) = false → ∀ j, s1.anchorOf h.group (numAt body 0 4) = some j →
        ((s1.lin h.group j).digest ≠ (body.drop 8).take 16 → ∃ t, exec (.trsFprintReceive p frame) s = .next t ∧
          t.trs.diverged = s1.trs.diverged ++ [(i, h.group, numAt body 0 4)] ∧
          s1.raises t 0x69 (evSource 5 0) (leBytes 2 (s1.partSite i) ++ [BitVec.ofNat 8 h.group, 1] ++ leBytes 4 (numAt body 0 4) ++ leBytes 2 (s1.namedSite body))) ∧
        ((s1.lin h.group j).digest = (body.drop 8).take 16 → ∃ t, exec (.trsFprintReceive p frame) s = .next t ∧
          t.trs.diverged = s1.trs.diverged ∧ t.evt = s1.evt)) ∧
      (k = 3 → s1.anchorOf h.group (numAt body 0 4) = none → ∃ t, exec (.trsFprintReceive p frame) s = .next t ∧
        t.trs.diverged = s1.trs.diverged ∧ t.evt = s1.evt) ∧
      (k = 4 → ∀ sub kind, sub = (body.headD 0).toNat → kind = (body.getD 1 0).toNat →
        (∀ c d e, (c, d, e) ∈ [(Instr.hello p frame, 1, kind), (.lineage p frame, 2, kind), (.requestJoin p frame, 3, 1),
            (.requestRepair p frame, 3, 2), (.requestRecon p frame, 3, 3), (.requestBlist p frame, 3, 4), (.bfp p frame, 4, kind),
            (.adelta p frame, 5, kind), (.endXfer p frame, 6, kind), (.ready p frame, 7, kind)] → d ≠ sub ∨ e ≠ kind → exec c s = .next s) ∧
        (sub = 1 → exec (.hello p frame) s = .next s1) ∧
        (sub = 2 → s1.fld (A.trsRstat i) F.trsRstat.PHASE ≠ 1 → exec (.lineage p frame) s = .next s1) ∧
        (sub = 2 → s1.fld (A.trsRstat i) F.trsRstat.PHASE = 1 → numAt body 8 2 = 0 →
          ∀ re, re = reunionRound (s1.part i).rh (numAt body 4 4) → ∃ t, exec (.lineage p frame) s = .next t ∧
            t.fld (A.trsRstat i) F.trsRstat.RE = re ∧
            ((∃ g ∈ s1.groups, (s1.grp g).seen.any (fun n => n == re || serialGt 32 n re) = true) →
              t.fld (A.trsRstat i) F.trsRstat.PHASE = 4 ∧ (t.part i).theirs = none) ∧
            ((∀ g ∈ s1.groups, (s1.grp g).seen.any (fun n => n == re || serialGt 32 n re) = false) →
              (∃ g ∈ s1.groups, FMap.has (s1.part i).lineage g = false) → t.fld (A.trsRstat i) F.trsRstat.PHASE = 1 ∧
                t.part i = { s1.part i with theirs := some (numAt body 4 4) })) ∧
        (sub = 3 → kind = 1 → ∃ t, exec (.requestJoin p frame) s = .next t ∧ t.part i = { s1.part i with joinDue := s1.groups } ∧
          t.regs = s1.regs) ∧
        (∀ c e, (c, e) ∈ [(Instr.requestRepair p frame, 2), (.requestRecon p frame, 3), (.requestBlist p frame, 4)] → sub = 3 → kind = e →
          ((s1.groupSlots h.group).find? (fun q => q.1 == numAt body 2 2) = none → exec c s = .next s1) ∧
          (∀ q, (s1.groupSlots h.group).find? (fun q => q.1 == numAt body 2 2) = some q →
            ∃ t, exec c s = .next t ∧ (numAt body 4 4 ≠ s1.gcfgWord h.group 1 % 2 ^ 32 →
              (s1.canTell i → s1.toldOnce t i) ∧
                (s1.trs.wait = [] → s1.keyOf (s1.partKey i) (s1.fld (A.secKey (s1.partKey i)) F.secKey.TXEP) = none →
                  ∃ b, b.headD 0 = 6 ∧ numAt b 8 1 = 1 ∧ t.trs.wait = [⟨i, 4, false, false, s1.roundNow, h.group, 0, 0, b⟩])))) ∧
        (∀ x q, sub = 4 → s1.trs.xfers.find? (fun x => x.part == i && x.slot == numAt body 2 2 && x.lastApp == numAt body 4 4 && !x.listed) = some x → x.sent = none →
          (s1.groupSlots h.group).find? (fun q => q.1 == x.slot) = some q → ∃ t, exec (.bfp p frame) s = .next t ∧ t.regs = s1.regs ∧
            ∀ y ∈ t.trs.xfers, y.slot = x.slot → ∀ j < min 527 (numAt body 12 2), q.2.blocks.contains (numAt body 8 4 + j) = true →
              s1.blockPrint q.2 (s1.cur h.group) (numAt body 8 4 + j) ≠ numAt body (16 + 8 * j) 8 → numAt body 8 4 + j ∈ y.need) ∧
        (sub = 4 → s1.trs.xfers.find? (fun x => x.part == i && x.slot == numAt body 2 2 && x.lastApp == numAt body 4 4 && !x.listed) = none →
          exec (.bfp p frame) s = .next s1) ∧
        (sub = 5 → s1.donor ≠ some i → ∃ t, exec (.adelta p frame) s = .next t ∧ t.regs = s1.regs ∧ t.mem = s1.mem ∧
          (t = s1 ∨ ∃ d ∈ t.trs.deltas, d.part = i ∧ d.arr = kind ∧ d.slot = numAt body 2 2 ∧ d.block = numAt body 8 4 ∧ d.half = numAt body 12 1)) ∧
        (sub = 6 → kind = 0 → s1.fld (A.trsRstat i) F.trsRstat.PHASE = 2 → ∃ t, exec (.endXfer p frame) s = .next t ∧
          FMap.get? (t.part i).ended h.group = some ((body.drop 16).take 16) ∧ t.regs = s1.regs) ∧
        (sub = 6 → kind = 1 → s1.donor ≠ some i → exec (.endXfer p frame) s = .next s1) ∧
        (sub = 6 → 2 ≤ kind → s1.trs.xfers.find? (fun x => x.part == i && x.slot == numAt body 2 2) = none →
          exec (.endXfer p frame) s = .next s1) ∧
        (∀ x, sub = 6 → 2 ≤ kind → s1.trs.xfers.find? (fun x => x.part == i && x.slot == numAt body 2 2) = some x → numAt body 8 1 ≠ 0 →
          ∃ t, exec (.endXfer p frame) s = .next t ∧ x ∉ t.trs.xfers ∧ t.regs = s1.regs) ∧
        (∀ x, sub = 6 → 2 ≤ kind → kind ≠ 4 → s1.trs.xfers.find? (fun x => x.part == i && x.slot == numAt body 2 2) = some x → numAt body 8 1 = 0 →
          x.listed = false → x.need = [] → numAt body 12 4 = x.got.length → ∃ t, exec (.endXfer p frame) s = .next t ∧ t.regs = s1.regs ∧
            ∀ y ∈ t.trs.xfers, y.slot = x.slot → y.listed = true ∧ y.ready = true ∧ y.digest = (body.drop 16).take 16) ∧
        (sub = 7 → s1.partState i = 3 → ∃ t, exec (.ready p frame) s = .next t ∧ t.regs = s1.regs ∧
          t.part i = { s1.part i with joinAt := some (numAt body 4 4) }) ∧
        (sub = 7 → s1.partState i ≠ 3 → exec (.ready p frame) s = .next s1))) ∧
    (∀ (j g : Fin 256) (r : BitVec 32),
      (s.contrib (s.partSite j) r.toNat g = none → exec (.trsNackTimer j g r) s = .next s) ∧
      (∀ c q, s.contrib (s.partSite j) r.toNat g = some c → q ∈ c.gaps → s.partOn j = true → s.flag A.trsCtl F.trsCtl.EN = true →
        (c.nackAt = none → s.reached q.2 1000 = true) → s.trs.past.contains c = false →
        (∀ m, c.nackAt = some m → s.reached m (2 * s.fld (A.trsPart1 j) F.trsPart1.DEWMA + 2000) = true) →
        ∃ t, exec (.trsNackTimer j g r) s = .next t ∧
          t.contrib (s.partSite j) r.toNat g = some { c with replies := c.replies + 1, nackAt := some s.pulse }) ∧
      (∀ f mine, mine = (fun f : TxFrame => f.part == j.val && f.group == g.val && f.round == r.toNat && f.last) → s.trs.tx.find? mine = some f →
        s.reached f.sentAt f.wait = true → ∃ t, exec (.trsLastResendTimer j g r) s = .next t ∧
          t.trs.tx.map (fun y => { y with again := false }) =
            s.trs.tx.map (fun y => if mine y then { y with sentAt := s.pulse, wait := 2 * y.wait, again := false } else { y with again := false })) ∧
      (s.trs.tx.find? (fun f : TxFrame => f.part == j.val && f.group == g.val && f.round == r.toNat && f.last) = none →
        exec (.trsLastResendTimer j g r) s = .next s) ∧
      (s.partOn j = false → exec (.trsPartnerSilence j) s = .next s) ∧
      (s.flag A.trsCtl F.trsCtl.EN = true → s.partOn j = true → s.partState j = 1 ∨ s.partState j = 3 →
        s.reached (s.part j).heardAt (s.fld A.trsAbsent F.trsAbsent.MS * 1000) = true → ∃ t, exec (.trsPartnerSilence j) s = .next t ∧
          t.partState j = 2 ∧ s.raises t 0x67 (evSource 5 0)
            (leBytes 2 (s.partSite j) ++ [BitVec.ofNat 8 (s.partState j), 2] ++ leBytes 4 s.roundNow ++ [1]))) ∧
    (s.trs.fullAt = none → exec .trsTxbufFullTimer s = .next s) ∧
    (s.flag A.trsCtl F.trsCtl.EN = false → exec .trsHelloTimer s = .next s) ∧
    (∀ t0, s.trs.fullAt = some t0 → s.trs.fullSaid = false → s.reached t0 1000000 = true → ∃ t, exec .trsTxbufFullTimer s = .next t ∧
      t.trs = { s.trs with fullSaid := true } ∧ t.regs = s.regs ∧ s.raises t 0x65 (evSource 5 0) [2]) ∧
    (s.flag A.trsCtl F.trsCtl.EN = true → s.reached s.trs.helloAt (s.fld A.trsAbsent F.trsAbsent.MS * 250) = true →
      ∃ t, exec .trsHelloTimer s = .next t ∧ t.trs.helloAt = s.pulse ∧
        ∀ j < 256, s.partOn j = true → s.canTell j → (t.part j).ctlRound = s.roundNow ∧ 1 ≤ (t.part j).ctlSent) ∧
    (∀ sl : Fin 4096, s.trs.xfers.find? (fun x => x.slot == sl.val) = none → exec (.trsRequestRetry sl) s = .next s) ∧
    (∀ (sl : Fin 4096) x, s.trs.xfers.find? (fun x => x.slot == sl.val) = some x → x.ready = false → s.reached x.askedAt x.wait = true →
      ∃ t, exec (.trsRequestRetry sl) s = .next t ∧
        ∀ y ∈ t.trs.xfers, y.slot = sl.val → y.askedAt = s.pulse ∧ y.wait = 2 * x.wait ∧ y.need = x.need)
end

