-- ==== Sys2Proof/Laws/Cipher.lean ====
section
/-!
SUPPORT. What the ciphers do: their lengths, and that SM4-GCM opens what it sealed (12 R359).
-/
namespace Sys2Proof.Machine

@[simp] theorem leBytes_length (n x : Nat) : (leBytes n x).length = n := by
  induction n generalizing x with
  | zero => rfl
  | succ n ih => simp [leBytes, ih]

@[simp] theorem beBytes_length (n x : Nat) : (beBytes n x).length = n := by simp [beBytes]

/-- A list of `m` whole pieces is cut into `m`. -/
theorem chunks_length {α : Type} {k : Nat} (hk : 0 < k) : ∀ (m n : Nat) (l : List α), l.length = k * m → m ≤ n → (chunks k n l).length = m := by
  intro m
  induction m with
  | zero =>
    intro n l hl _
    obtain rfl : l = [] := List.length_eq_zero_iff.1 (by simpa using hl)
    cases n <;> rfl
  | succ m ih =>
    intro n l hl hn
    obtain ⟨n, rfl⟩ : ∃ i, n = i + 1 := ⟨n - 1, by omega⟩
    have h : l.isEmpty = false := by
      cases l with
      | nil => simp at hl; omega
      | cons a l => rfl
    have hd : (l.drop k).length = k * m := by rw [List.length_drop, hl, Nat.mul_succ, Nat.add_sub_cancel]
    simp [chunks, h, ih n _ hd (by omega)]

theorem beWords_length {w m : Nat} (hw : 0 < w) {l : List Byte} (h : l.length = w * m) : (beWords w l).length = m := by
  rw [beWords, List.length_map, chunks_length hw m _ _ h]
  rw [h, Nat.mul_div_cancel_left _ hw]
  exact Nat.le_succ m

theorem sm4Step_length (mix : Nat → Nat) (x : List Nat) (k : Nat) (h : x.length = 4) : (sm4Step mix x k).length = 4 := by
  unfold sm4Step
  split
  · rfl
  · exact h

theorem sm4Fold_length (keys : List Nat) : ∀ x : List Nat, x.length = 4 → (keys.foldl (sm4Step sm4Mix) x).length = 4 := by
  induction keys with
  | nil => intro x h; exact h
  | cons k l ih => intro x h; exact ih _ (sm4Step_length _ _ _ h)

/-- SM4 gives a block for a block. -/
theorem sm4Block_length (keys : List Nat) {l : List Byte} (h : l.length = 16) : (sm4Block keys l).length = 16 := by
  have h4 := sm4Fold_length keys (beWords 4 l) (beWords_length (by decide) (m := 4) h)
  simp [sm4Block, List.length_flatMap, List.map_const', h4]

theorem zip_xor_twice : ∀ l st : List Byte, l.length ≤ st.length →
    ((((l.zip st).map (fun p => p.1 ^^^ p.2)).zip st).map (fun p => p.1 ^^^ p.2)) = l := by
  intro l
  induction l with
  | nil => intro st _; rfl
  | cons a l ih =>
    intro st h
    cases st with
    | nil => simp at h
    | cons b st => simp [ih st (by simpa using h)]

/-- The counter blocks cover a text. -/
theorem gcmStream_length (keys : List Nat) (nonce n : Nat) :
    n ≤ ((List.range (n / 16 + 1)).flatMap (fun i => sm4Block keys (beBytes 16 (nonce * 2 ^ 32 + (i + 2) % 2 ^ 32)))).length := by
  simp only [List.length_flatMap, sm4Block_length _ (beBytes_length 16 _), List.map_const', List.sum_replicate, List.length_range, smul_eq_mul]
  omega

@[simp] theorem gcmCrypt_length (keys : List Nat) (nonce : Nat) (l : List Byte) : (gcmCrypt keys nonce l).length = l.length := by
  simp only [gcmCrypt, List.length_map, List.length_zip]
  exact Nat.min_eq_left (gcmStream_length keys nonce l.length)

theorem gcmCrypt_twice (keys : List Nat) (nonce : Nat) (l : List Byte) : gcmCrypt keys nonce (gcmCrypt keys nonce l) = l := by
  have h := gcmCrypt_length keys nonce l
  rw [gcmCrypt, h]
  exact zip_xor_twice l _ (gcmStream_length keys nonce l.length)

@[simp] theorem gcmTag_length (keys : List Nat) (nonce : Nat) (aad ct : List Byte) : (gcmTag keys nonce aad ct).length = 16 := by
  simp [gcmTag, sm4Block_length keys (beBytes_length 16 _)]

/-- What was sealed opens to the text under the same key, nonce and additional data (12 R359). -/
theorem gcmOpen_gcmSeal (key : List Byte) (nonce : Nat) (aad text : List Byte) :
    gcmOpen key nonce aad (gcmSeal key nonce aad text).1 (gcmSeal key nonce aad text).2 = some text := by
  simp [gcmOpen, gcmSeal, gcmCrypt_twice]

end Sys2Proof.Machine
end

