-- ==== Sys2Proof/Laws/Memory.lean ====
section
/-! SUPPORT. Laws of finite maps and of the memory: a read after a write, and the canonical forms. -/
namespace Sys2Proof.Machine

/-! ### Finite maps -/

/-- A key reads as the value set last. -/
theorem FMap.get?_set_same {α : Type} (m : FMap α) (k : Nat) (v : α) :
    FMap.get? (FMap.set m k v) k = some v := by
  induction m with
  | nil => simp [FMap.set, FMap.get?]
  | cons p r ih =>
    unfold FMap.set
    split
    · simp [FMap.get?]
    · split
      · simp [FMap.get?]
      · simp [FMap.get?, *]

/-- Setting one key leaves every other key alone. -/
theorem FMap.get?_set_ne {α : Type} (m : FMap α) {k j : Nat} (v : α) (h : j ≠ k) :
    FMap.get? (FMap.set m k v) j = FMap.get? m j := by
  induction m with
  | nil => simp [FMap.set, FMap.get?, h]
  | cons p r ih =>
    unfold FMap.set
    split
    · simp [FMap.get?, h]
    · split
      · next hk => subst hk; simp [FMap.get?, h]
      · simp only [FMap.get?, ih]

/-- What setting a key can list. -/
theorem FMap.mem_set {α : Type} {m : FMap α} {k : Nat} {v : α} {p : Nat × α} (h : p ∈ FMap.set m k v) :
    p ∈ m ∨ p = (k, v) := by
  induction m with
  | nil => simpa [FMap.set] using h
  | cons d r ih =>
    simp only [FMap.set] at h
    split at h
    · simp only [List.mem_cons] at h ⊢; tauto
    · split at h
      · simp only [List.mem_cons] at h ⊢; tauto
      · rcases List.mem_cons.1 h with h | h
        · simp [h]
        · rcases ih h with h | h <;> simp [h]

/-- Setting a key keeps the keys rising. -/
theorem FMap.wf_set {α : Type} {m : FMap α} (h : FMap.wf m) (k : Nat) (v : α) : FMap.wf (FMap.set m k v) := by
  induction m with
  | nil => simp [FMap.set]
  | cons d r ih =>
    have hd := (List.pairwise_cons.1 h).1
    simp only [FMap.set]
    split
    · refine List.pairwise_cons.2 ⟨fun c hc => ?_, h⟩
      rcases List.mem_cons.1 hc with hc | hc
      · subst hc; assumption
      · have := hd c hc; show k < c.1; omega
    · split
      · next hk => exact List.pairwise_cons.2 ⟨fun c hc => by have := hd c hc; show k < c.1; omega, (List.pairwise_cons.1 h).2⟩
      · refine List.pairwise_cons.2 ⟨fun c hc => ?_, ih (List.pairwise_cons.1 h).2⟩
        rcases FMap.mem_set hc with hc | hc
        · exact hd c hc
        · rw [hc]; show d.1 < k; omega

/-! ### The memory -/

/-- What a store of one byte can list. -/
theorem Memory.mem_put {m : Memory} {a : Nat} {b : Byte} {c : Host.Cell} (h : c ∈ Memory.put m a b) :
    c ∈ m ∨ (c = (a, b) ∧ b ≠ 0) := by
  induction m with
  | nil => simp only [Memory.put] at h; split at h <;> simp_all
  | cons d r ih =>
    simp only [Memory.put] at h
    split at h
    · split at h <;> simp_all; tauto
    · split at h
      · split at h <;> simp_all
        rcases h with h | h <;> simp_all
      · rcases List.mem_cons.1 h with h | h
        · simp [h]
        · rcases ih h with h | h <;> simp_all

/-- A store of one byte keeps the canonical form. -/
theorem Memory.wf_put {m : Memory} (h : Memory.wf m) (a : Nat) (b : Byte) : Memory.wf (Memory.put m a b) := by
  refine ⟨?_, fun c hc => ?_⟩
  · induction m with
    | nil => simp only [Memory.put]; split <;> simp
    | cons d r ih =>
      have hr : Memory.wf r := ⟨(List.pairwise_cons.1 h.1).2, fun c hc => h.2 c (List.mem_cons_of_mem _ hc)⟩
      have hd := (List.pairwise_cons.1 h.1).1
      simp only [Memory.put]
      split
      · split
        · exact h.1
        · refine List.pairwise_cons.2 ⟨fun c hc => ?_, h.1⟩
          rcases List.mem_cons.1 hc with hc | hc
          · subst hc; assumption
          · have := hd c hc; show a < c.1; omega
      · split
        · split
          · exact hr.1
          · refine List.pairwise_cons.2 ⟨fun c hc => ?_, hr.1⟩
            have := hd c hc; show a < c.1; omega
        · refine List.pairwise_cons.2 ⟨fun c hc => ?_, ih hr⟩
          rcases Memory.mem_put hc with hc | hc
          · exact hd c hc
          · rw [hc.1]; show d.1 < a; omega
  · rcases Memory.mem_put hc with hc | hc
    · exact h.2 c hc
    · rw [hc.1]; exact hc.2

/-- A store of bytes keeps the canonical form. -/
theorem Memory.wf_write {m : Memory} (h : Memory.wf m) (a : Nat) (l : List Byte) : Memory.wf (Memory.write m a l) := by
  induction l generalizing m a with
  | nil => exact h
  | cons b r ih => exact ih (Memory.wf_put h a b) (a + 1)

/-- Clearing any cells keeps the canonical form. -/
theorem Memory.wf_filter {m : Memory} (h : Memory.wf m) (p : Host.Cell → Bool) : Memory.wf (m.filter p) :=
  ⟨h.1.filter p, fun c hc => h.2 c (List.mem_filter.1 hc).1⟩

theorem Memory.wf_clearBelow {m : Memory} (h : Memory.wf m) (a : Nat) : Memory.wf (Memory.clearBelow m a) := Memory.wf_filter h _

theorem Memory.wf_clearRange {m : Memory} (h : Memory.wf m) (a n : Nat) : Memory.wf (Memory.clearRange m a n) := Memory.wf_filter h _

/-- A byte that a canonical tail lists above an address reads as zero there. -/
theorem Memory.byte_above {m : Memory} {a : Nat} (h : ∀ c ∈ m, a < c.1) : Memory.byte m a = 0 := by
  induction m with
  | nil => rfl
  | cons d r ih =>
    have hd := h d (List.mem_cons_self ..)
    simp only [Memory.byte]
    rw [if_neg (by omega)]
    exact ih (fun c hc => h c (List.mem_cons_of_mem _ hc))

/-- A byte reads as the value stored last. -/
theorem Memory.byte_put_same {m : Memory} (h : Memory.wf m) (a : Nat) (b : Byte) : Memory.byte (Memory.put m a b) a = b := by
  induction m with
  | nil => simp only [Memory.put]; split <;> simp_all [Memory.byte]
  | cons d r ih =>
    have hr : Memory.wf r := ⟨(List.pairwise_cons.1 h.1).2, fun c hc => h.2 c (List.mem_cons_of_mem _ hc)⟩
    have hd := (List.pairwise_cons.1 h.1).1
    simp only [Memory.put]
    split
    · split
      · rename_i h1 h2
        rw [h2]
        refine Memory.byte_above (fun c hc => ?_)
        rcases List.mem_cons.1 hc with hc | hc
        · subst hc; assumption
        · have := hd c hc; omega
      · simp [Memory.byte]
    · split
      · split
        · rename_i h1 h2 h3
          rw [h3]; exact Memory.byte_above (fun c hc => by have := hd c hc; omega)
        · simp [Memory.byte]
      · rename_i h1 h2
        simp only [Memory.byte, if_neg h2]
        exact ih hr

/-- A store of one byte leaves every other byte alone. -/
theorem Memory.byte_put_ne (m : Memory) {a c : Nat} (b : Byte) (h : c ≠ a) :
    Memory.byte (Memory.put m a b) c = Memory.byte m c := by
  induction m with
  | nil => simp only [Memory.put]; split <;> simp [Memory.byte, h]
  | cons d r ih =>
    simp only [Memory.put]
    split
    · split <;> simp [Memory.byte, h]
    · split
      · rename_i h1 h2
        subst h2
        split <;> simp [Memory.byte, h]
      · simp only [Memory.byte, ih]

/-- A store leaves every byte outside the stored ones alone. -/
theorem Memory.byte_write_out (m : Memory) (a : Nat) (l : List Byte) {c : Nat} (h : c < a ∨ a + l.length ≤ c) :
    Memory.byte (Memory.write m a l) c = Memory.byte m c := by
  induction l generalizing m a with
  | nil => rfl
  | cons b r ih =>
    simp only [List.length_cons] at h
    rw [Memory.write, ih _ _ (by omega), Memory.byte_put_ne _ _ (by omega)]

/-- A stored byte reads as it was stored. -/
theorem Memory.byte_write_in {m : Memory} (hm : Memory.wf m) (a : Nat) (l : List Byte) (i : Nat) (h : i < l.length) :
    Memory.byte (Memory.write m a l) (a + i) = l[i] := by
  induction l generalizing m a i with
  | nil => simp at h
  | cons b r ih =>
    rw [Memory.write]
    cases i with
    | zero => rw [Memory.byte_write_out _ _ _ (by omega)]; exact Memory.byte_put_same hm a b
    | succ i =>
      have := ih (Memory.wf_put hm a b) (a + 1) i (by simpa using h)
      rw [Nat.add_right_comm, Nat.add_assoc] at this
      simpa using this

/-! ### What no command undoes: the general laws -/

theorem State.Keeps.start {s : State} (msk : Nat) (h : s.canonical) : s.Keeps msk s :=
  ⟨rfl, h.1, h.2, le_refl _, le_refl _, List.prefix_refl _, le_refl _, rfl, rfl, fun p _ => by cases p <;> rfl⟩

/-- Fewer pieces written are free where more are. -/
theorem free_mono {m v w : Nat} (h : m &&& w = 0) (hv : v &&& w = v) : m &&& v = 0 := by
  rw [← hv, Nat.and_comm v w, ← Nat.and_assoc, h, Nat.zero_and]

/-- A piece whose bit is free is not among those that stay the same. -/
theorem free_bit {m i : Nat} (h : m &&& 2 ^ i = 0) : m.testBit i ≠ true := by
  intro hb
  have := congrArg (fun x => Nat.testBit x i) h
  simp [Nat.testBit_and, hb] at this

variable {msk : Nat} {was : State}

/-- A state in which one piece was replaced keeps the others the same. -/
theorem State.Keeps.but {s t : State} (q : Part) (hs : was.Keeps msk s) (hf : msk &&& 2 ^ q.idx = 0)
    (h : ∀ p, p ≠ q → was.sameAt s p → was.sameAt t p) : ∀ p : Part, msk.testBit p.idx = true → was.sameAt t p := by
  intro p hp
  by_cases e : p = q
  · exact absurd (e ▸ hp) (free_bit hf)
  · exact h p e (hs.same p hp)

theorem next_keeps {s : State} (h : was.Keeps msk s) : outKeeps msk was (.next s) := fun t e => by cases e; exact h
theorem fault_keeps (f : Fault) : outKeeps msk was (.fault f) := fun t e => by cases e

theorem foldl_keeps {α : Type} (l : List α) (f : State → α → State) (s : State)
    (hf : ∀ s x, was.Keeps msk s → was.Keeps msk (f s x)) (hs : was.Keeps msk s) : was.Keeps msk (l.foldl f s) := by
  induction l generalizing s with
  | nil => exact hs
  | cons x r ih => exact ih _ (hf s x hs)

theorem foldlFst_keeps {α β : Type} (l : List α) (f : State × β → α → State × β) (p : State × β)
    (hf : ∀ p x, was.Keeps msk p.1 → was.Keeps msk (f p x).1) (hp : was.Keeps msk p.1) : was.Keeps msk (l.foldl f p).1 := by
  induction l generalizing p with
  | nil => exact hp
  | cons x r ih => exact ih _ (hf p x hp)

theorem foldlSnd_keeps {α β : Type} (l : List α) (f : β × State → α → β × State) (p : β × State)
    (hf : ∀ p x, was.Keeps msk p.2 → was.Keeps msk (f p x).2) (hp : was.Keeps msk p.2) : was.Keeps msk (l.foldl f p).2 := by
  induction l generalizing p with
  | nil => exact hp
  | cons x r ih => exact ih _ (hf p x hp)

theorem foldlUpd_keeps {α : Type} (l : List α) (f : Upd → α → Upd) (u : Upd)
    (hf : ∀ u x, was.Keeps msk u.s → was.Keeps msk (f u x).s) (hu : was.Keeps msk u.s) : was.Keeps msk (l.foldl f u).s := by
  induction l generalizing u with
  | nil => exact hu
  | cons x r ih => exact ih _ (hf u x hu)

theorem fst_keeps {β : Type} {p : State × β} {t : State} {e : β} (hp : was.Keeps msk p.1) (he : p = (t, e)) : was.Keeps msk t := by
  rwa [he] at hp

theorem snd_keeps {β : Type} {p : β × State} {t : State} {e : β} (hp : was.Keeps msk p.2) (he : p = (e, t)) : was.Keeps msk t := by
  rwa [he] at hp

theorem updFst_keeps {β : Type} {p : Upd × β} {t : Upd} {e : β} (hp : was.Keeps msk p.1.s) (he : p = (t, e)) : was.Keeps msk t.s := by
  rwa [he] at hp

theorem foldlUpdFst_keeps {α β : Type} (l : List α) (f : Upd × β → α → Upd × β) (p : Upd × β)
    (hf : ∀ p x, was.Keeps msk p.1.s → was.Keeps msk (f p x).1.s) (hp : was.Keeps msk p.1.s) : was.Keeps msk (l.foldl f p).1.s := by
  induction l generalizing p with
  | nil => exact hp
  | cons x r ih => exact ih _ (hf p x hp)

theorem halvesUpd_keeps {β : Type} {p : Upd × β} (hp : was.Keeps msk p.1.s) : was.Keeps msk (halves p).1.s := hp

theorem State.wr_keeps (hfree : msk &&& 1 = 0) (s : State) (a : Nat) (v : Word) (hs : was.Keeps msk s) : was.Keeps msk (s.wr a v) :=
  ⟨hs.1, hs.2, FMap.wf_set hs.3 a v, hs.4, hs.5, hs.6, hs.7, hs.8, hs.9, hs.but .regs hfree (fun p hp h => by cases p <;> first | exact h | exact absurd rfl hp)⟩

theorem State.nextFresh_keeps (hfree : msk &&& 1073741824 = 0) (s : State) (hs : was.Keeps msk s) : was.Keeps msk (s.putFresh (s.fresh + 1)) :=
  ⟨hs.1, hs.2, hs.3, hs.4, Nat.le_succ_of_le hs.5, hs.6, hs.7, hs.8, hs.9, hs.but .fresh hfree (fun p hp h => by cases p <;> first | exact h | exact absurd rfl hp)⟩

theorem State.nextPulse_keeps (hfree : msk &&& 134217728 = 0) (s : State) (hs : was.Keeps msk s) : was.Keeps msk (s.putPulse (s.pulse + 1)) :=
  ⟨hs.1, hs.2, hs.3, Nat.le_succ_of_le hs.4, hs.5, hs.6, hs.7, hs.8, hs.9, hs.but .pulse hfree (fun p hp h => by cases p <;> first | exact h | exact absurd rfl hp)⟩

theorem State.send_keeps (hfree : msk &&& 2147483648 = 0) (s : State) (m : Msg) (hs : was.Keeps msk s) : was.Keeps msk (s.send m) :=
  ⟨hs.1, hs.2, hs.3, hs.4, hs.5, hs.6.trans (List.prefix_append _ _), hs.7, hs.8, hs.9, hs.but .out hfree (fun p hp h => by cases p <;> first | exact h | exact absurd rfl hp)⟩

theorem State.putMem_keeps (hfree : msk &&& 4 = 0) (s : State) (m : Memory) (hm : Memory.wf m) (hs : was.Keeps msk s) :
    was.Keeps msk (s.putMem m) := ⟨hs.1, hm, hs.3, hs.4, hs.5, hs.6, hs.7, hs.8, hs.9, hs.but .mem hfree (fun p hp h => by cases p <;> first | exact h | exact absurd rfl hp)⟩

theorem State.memStore_keeps (hfree : msk &&& 4 = 0) (s : State) (a : Nat) (l : List Byte) (hs : was.Keeps msk s) :
    was.Keeps msk (s.putMem (s.mem.write a l)) := State.putMem_keeps hfree _ _ (Memory.wf_write hs.2 a l) hs

theorem State.memFilter_keeps (hfree : msk &&& 4 = 0) (s : State) (p : Host.Cell → Bool) (hs : was.Keeps msk s) :
    was.Keeps msk (s.putMem (s.mem.filter p)) := State.putMem_keeps hfree _ _ (Memory.wf_filter hs.2 p) hs

theorem State.memClear_keeps (hfree : msk &&& 4 = 0) (s : State) (a n : Nat) (hs : was.Keeps msk s) :
    was.Keeps msk (s.putMem (s.mem.clearRange a n)) := State.putMem_keeps hfree _ _ (Memory.wf_clearRange hs.2 a n) hs

theorem State.dropCore_keeps (hfree : msk &&& 1 = 0) (s : State) (hs : was.Keeps msk s) : was.Keeps msk (s.putRegs s.coreRegs) :=
  ⟨hs.1, hs.2, List.Pairwise.filter _ hs.3, hs.4, hs.5, hs.6, hs.7, hs.8, hs.9, hs.but .regs hfree (fun p hp h => by cases p <;> first | exact h | exact absurd rfl hp)⟩

theorem State.raiseSvn_keeps (hfree : msk &&& 1048576 = 0) (s : State) (n : Nat) (hs : was.Keeps msk s) :
    was.Keeps msk (s.putFuse { s.fuse with svn := max s.fuse.svn n }) :=
  ⟨hs.1, hs.2, hs.3, hs.4, hs.5, hs.6, le_trans hs.7 (Nat.le_max_left _ _), hs.8, hs.9, hs.but .fuse hfree (fun p hp h => by cases p <;> first | exact h | exact absurd rfl hp)⟩

theorem halves_keeps {β : Type} {p : State × β} (hp : was.Keeps msk p.1) : was.Keeps msk (halves p).1 := hp

theorem thirds_keeps {β γ : Type} {p : State × β × γ} (hp : was.Keeps msk p.1) : was.Keeps msk (thirds p).1 := hp

end Sys2Proof.Machine
end

