-- ==== Sys2Proof/Laws/State.lean ====
section
/-!
SUPPORT. One lemma for each field of the state under each replacement of a field.
-/
namespace Sys2Proof.Machine

@[simp] theorem State.putRegs_regs (s : State) (x) : (s.putRegs x).regs = x := rfl
@[simp] theorem State.putRegs_rwo (s : State) (x) : (s.putRegs x).rwo = s.rwo := rfl
@[simp] theorem State.putRegs_mem (s : State) (x) : (s.putRegs x).mem = s.mem := rfl
@[simp] theorem State.putRegs_benches (s : State) (x) : (s.putRegs x).benches = s.benches := rfl
@[simp] theorem State.putRegs_desks (s : State) (x) : (s.putRegs x).desks = s.desks := rfl
@[simp] theorem State.putRegs_map (s : State) (x) : (s.putRegs x).map = s.map := rfl
@[simp] theorem State.putRegs_spares (s : State) (x) : (s.putRegs x).spares = s.spares := rfl
@[simp] theorem State.putRegs_tby (s : State) (x) : (s.putRegs x).tby = s.tby := rfl
@[simp] theorem State.putRegs_tmr (s : State) (x) : (s.putRegs x).tmr = s.tmr := rfl
@[simp] theorem State.putRegs_sync (s : State) (x) : (s.putRegs x).sync = s.sync := rfl
@[simp] theorem State.putRegs_evt (s : State) (x) : (s.putRegs x).evt = s.evt := rfl
@[simp] theorem State.putRegs_gt (s : State) (x) : (s.putRegs x).gt = s.gt := rfl
@[simp] theorem State.putRegs_clk (s : State) (x) : (s.putRegs x).clk = s.clk := rfl
@[simp] theorem State.putRegs_flt (s : State) (x) : (s.putRegs x).flt = s.flt := rfl
@[simp] theorem State.putRegs_sbd (s : State) (x) : (s.putRegs x).sbd = s.sbd := rfl
@[simp] theorem State.putRegs_trs (s : State) (x) : (s.putRegs x).trs = s.trs := rfl
@[simp] theorem State.putRegs_pcie (s : State) (x) : (s.putRegs x).pcie = s.pcie := rfl
@[simp] theorem State.putRegs_sec (s : State) (x) : (s.putRegs x).sec = s.sec := rfl
@[simp] theorem State.putRegs_hut (s : State) (x) : (s.putRegs x).hut = s.hut := rfl
@[simp] theorem State.putRegs_flash (s : State) (x) : (s.putRegs x).flash = s.flash := rfl
@[simp] theorem State.putRegs_fuse (s : State) (x) : (s.putRegs x).fuse = s.fuse := rfl
@[simp] theorem State.putRegs_rst (s : State) (x) : (s.putRegs x).rst = s.rst := rfl
@[simp] theorem State.putRegs_pwr (s : State) (x) : (s.putRegs x).pwr = s.pwr := rfl
@[simp] theorem State.putRegs_mgmt (s : State) (x) : (s.putRegs x).mgmt = s.mgmt := rfl
@[simp] theorem State.putRegs_logSeq (s : State) (x) : (s.putRegs x).logSeq = s.logSeq := rfl
@[simp] theorem State.putRegs_lost (s : State) (x) : (s.putRegs x).lost = s.lost := rfl
@[simp] theorem State.putRegs_cyc (s : State) (x) : (s.putRegs x).cyc = s.cyc := rfl
@[simp] theorem State.putRegs_pulse (s : State) (x) : (s.putRegs x).pulse = s.pulse := rfl
@[simp] theorem State.putRegs_cycZero (s : State) (x) : (s.putRegs x).cycZero = s.cycZero := rfl
@[simp] theorem State.putRegs_skipped (s : State) (x) : (s.putRegs x).skipped = s.skipped := rfl
@[simp] theorem State.putRegs_fresh (s : State) (x) : (s.putRegs x).fresh = s.fresh := rfl
@[simp] theorem State.putRegs_out (s : State) (x) : (s.putRegs x).out = s.out := rfl
@[simp] theorem State.putRegs_pending (s : State) (x) : (s.putRegs x).pending = s.pending := rfl
@[simp] theorem State.putRwo_regs (s : State) (x) : (s.putRwo x).regs = s.regs := rfl
@[simp] theorem State.putRwo_rwo (s : State) (x) : (s.putRwo x).rwo = x := rfl
@[simp] theorem State.putRwo_mem (s : State) (x) : (s.putRwo x).mem = s.mem := rfl
@[simp] theorem State.putRwo_benches (s : State) (x) : (s.putRwo x).benches = s.benches := rfl
@[simp] theorem State.putRwo_desks (s : State) (x) : (s.putRwo x).desks = s.desks := rfl
@[simp] theorem State.putRwo_map (s : State) (x) : (s.putRwo x).map = s.map := rfl
@[simp] theorem State.putRwo_spares (s : State) (x) : (s.putRwo x).spares = s.spares := rfl
@[simp] theorem State.putRwo_tby (s : State) (x) : (s.putRwo x).tby = s.tby := rfl
@[simp] theorem State.putRwo_tmr (s : State) (x) : (s.putRwo x).tmr = s.tmr := rfl
@[simp] theorem State.putRwo_sync (s : State) (x) : (s.putRwo x).sync = s.sync := rfl
@[simp] theorem State.putRwo_evt (s : State) (x) : (s.putRwo x).evt = s.evt := rfl
@[simp] theorem State.putRwo_gt (s : State) (x) : (s.putRwo x).gt = s.gt := rfl
@[simp] theorem State.putRwo_clk (s : State) (x) : (s.putRwo x).clk = s.clk := rfl
@[simp] theorem State.putRwo_flt (s : State) (x) : (s.putRwo x).flt = s.flt := rfl
@[simp] theorem State.putRwo_sbd (s : State) (x) : (s.putRwo x).sbd = s.sbd := rfl
@[simp] theorem State.putRwo_trs (s : State) (x) : (s.putRwo x).trs = s.trs := rfl
@[simp] theorem State.putRwo_pcie (s : State) (x) : (s.putRwo x).pcie = s.pcie := rfl
@[simp] theorem State.putRwo_sec (s : State) (x) : (s.putRwo x).sec = s.sec := rfl
@[simp] theorem State.putRwo_hut (s : State) (x) : (s.putRwo x).hut = s.hut := rfl
@[simp] theorem State.putRwo_flash (s : State) (x) : (s.putRwo x).flash = s.flash := rfl
@[simp] theorem State.putRwo_fuse (s : State) (x) : (s.putRwo x).fuse = s.fuse := rfl
@[simp] theorem State.putRwo_rst (s : State) (x) : (s.putRwo x).rst = s.rst := rfl
@[simp] theorem State.putRwo_pwr (s : State) (x) : (s.putRwo x).pwr = s.pwr := rfl
@[simp] theorem State.putRwo_mgmt (s : State) (x) : (s.putRwo x).mgmt = s.mgmt := rfl
@[simp] theorem State.putRwo_logSeq (s : State) (x) : (s.putRwo x).logSeq = s.logSeq := rfl
@[simp] theorem State.putRwo_lost (s : State) (x) : (s.putRwo x).lost = s.lost := rfl
@[simp] theorem State.putRwo_cyc (s : State) (x) : (s.putRwo x).cyc = s.cyc := rfl
@[simp] theorem State.putRwo_pulse (s : State) (x) : (s.putRwo x).pulse = s.pulse := rfl
@[simp] theorem State.putRwo_cycZero (s : State) (x) : (s.putRwo x).cycZero = s.cycZero := rfl
@[simp] theorem State.putRwo_skipped (s : State) (x) : (s.putRwo x).skipped = s.skipped := rfl
@[simp] theorem State.putRwo_fresh (s : State) (x) : (s.putRwo x).fresh = s.fresh := rfl
@[simp] theorem State.putRwo_out (s : State) (x) : (s.putRwo x).out = s.out := rfl
@[simp] theorem State.putRwo_pending (s : State) (x) : (s.putRwo x).pending = s.pending := rfl
@[simp] theorem State.putMem_regs (s : State) (x) : (s.putMem x).regs = s.regs := rfl
@[simp] theorem State.putMem_rwo (s : State) (x) : (s.putMem x).rwo = s.rwo := rfl
@[simp] theorem State.putMem_mem (s : State) (x) : (s.putMem x).mem = x := rfl
@[simp] theorem State.putMem_benches (s : State) (x) : (s.putMem x).benches = s.benches := rfl
@[simp] theorem State.putMem_desks (s : State) (x) : (s.putMem x).desks = s.desks := rfl
@[simp] theorem State.putMem_map (s : State) (x) : (s.putMem x).map = s.map := rfl
@[simp] theorem State.putMem_spares (s : State) (x) : (s.putMem x).spares = s.spares := rfl
@[simp] theorem State.putMem_tby (s : State) (x) : (s.putMem x).tby = s.tby := rfl
@[simp] theorem State.putMem_tmr (s : State) (x) : (s.putMem x).tmr = s.tmr := rfl
@[simp] theorem State.putMem_sync (s : State) (x) : (s.putMem x).sync = s.sync := rfl
@[simp] theorem State.putMem_evt (s : State) (x) : (s.putMem x).evt = s.evt := rfl
@[simp] theorem State.putMem_gt (s : State) (x) : (s.putMem x).gt = s.gt := rfl
@[simp] theorem State.putMem_clk (s : State) (x) : (s.putMem x).clk = s.clk := rfl
@[simp] theorem State.putMem_flt (s : State) (x) : (s.putMem x).flt = s.flt := rfl
@[simp] theorem State.putMem_sbd (s : State) (x) : (s.putMem x).sbd = s.sbd := rfl
@[simp] theorem State.putMem_trs (s : State) (x) : (s.putMem x).trs = s.trs := rfl
@[simp] theorem State.putMem_pcie (s : State) (x) : (s.putMem x).pcie = s.pcie := rfl
@[simp] theorem State.putMem_sec (s : State) (x) : (s.putMem x).sec = s.sec := rfl
@[simp] theorem State.putMem_hut (s : State) (x) : (s.putMem x).hut = s.hut := rfl
@[simp] theorem State.putMem_flash (s : State) (x) : (s.putMem x).flash = s.flash := rfl
@[simp] theorem State.putMem_fuse (s : State) (x) : (s.putMem x).fuse = s.fuse := rfl
@[simp] theorem State.putMem_rst (s : State) (x) : (s.putMem x).rst = s.rst := rfl
@[simp] theorem State.putMem_pwr (s : State) (x) : (s.putMem x).pwr = s.pwr := rfl
@[simp] theorem State.putMem_mgmt (s : State) (x) : (s.putMem x).mgmt = s.mgmt := rfl
@[simp] theorem State.putMem_logSeq (s : State) (x) : (s.putMem x).logSeq = s.logSeq := rfl
@[simp] theorem State.putMem_lost (s : State) (x) : (s.putMem x).lost = s.lost := rfl
@[simp] theorem State.putMem_cyc (s : State) (x) : (s.putMem x).cyc = s.cyc := rfl
@[simp] theorem State.putMem_pulse (s : State) (x) : (s.putMem x).pulse = s.pulse := rfl
@[simp] theorem State.putMem_cycZero (s : State) (x) : (s.putMem x).cycZero = s.cycZero := rfl
@[simp] theorem State.putMem_skipped (s : State) (x) : (s.putMem x).skipped = s.skipped := rfl
@[simp] theorem State.putMem_fresh (s : State) (x) : (s.putMem x).fresh = s.fresh := rfl
@[simp] theorem State.putMem_out (s : State) (x) : (s.putMem x).out = s.out := rfl
@[simp] theorem State.putMem_pending (s : State) (x) : (s.putMem x).pending = s.pending := rfl
@[simp] theorem State.putBenches_regs (s : State) (x) : (s.putBenches x).regs = s.regs := rfl
@[simp] theorem State.putBenches_rwo (s : State) (x) : (s.putBenches x).rwo = s.rwo := rfl
@[simp] theorem State.putBenches_mem (s : State) (x) : (s.putBenches x).mem = s.mem := rfl
@[simp] theorem State.putBenches_benches (s : State) (x) : (s.putBenches x).benches = x := rfl
@[simp] theorem State.putBenches_desks (s : State) (x) : (s.putBenches x).desks = s.desks := rfl
@[simp] theorem State.putBenches_map (s : State) (x) : (s.putBenches x).map = s.map := rfl
@[simp] theorem State.putBenches_spares (s : State) (x) : (s.putBenches x).spares = s.spares := rfl
@[simp] theorem State.putBenches_tby (s : State) (x) : (s.putBenches x).tby = s.tby := rfl
@[simp] theorem State.putBenches_tmr (s : State) (x) : (s.putBenches x).tmr = s.tmr := rfl
@[simp] theorem State.putBenches_sync (s : State) (x) : (s.putBenches x).sync = s.sync := rfl
@[simp] theorem State.putBenches_evt (s : State) (x) : (s.putBenches x).evt = s.evt := rfl
@[simp] theorem State.putBenches_gt (s : State) (x) : (s.putBenches x).gt = s.gt := rfl
@[simp] theorem State.putBenches_clk (s : State) (x) : (s.putBenches x).clk = s.clk := rfl
@[simp] theorem State.putBenches_flt (s : State) (x) : (s.putBenches x).flt = s.flt := rfl
@[simp] theorem State.putBenches_sbd (s : State) (x) : (s.putBenches x).sbd = s.sbd := rfl
@[simp] theorem State.putBenches_trs (s : State) (x) : (s.putBenches x).trs = s.trs := rfl
@[simp] theorem State.putBenches_pcie (s : State) (x) : (s.putBenches x).pcie = s.pcie := rfl
@[simp] theorem State.putBenches_sec (s : State) (x) : (s.putBenches x).sec = s.sec := rfl
@[simp] theorem State.putBenches_hut (s : State) (x) : (s.putBenches x).hut = s.hut := rfl
@[simp] theorem State.putBenches_flash (s : State) (x) : (s.putBenches x).flash = s.flash := rfl
@[simp] theorem State.putBenches_fuse (s : State) (x) : (s.putBenches x).fuse = s.fuse := rfl
@[simp] theorem State.putBenches_rst (s : State) (x) : (s.putBenches x).rst = s.rst := rfl
@[simp] theorem State.putBenches_pwr (s : State) (x) : (s.putBenches x).pwr = s.pwr := rfl
@[simp] theorem State.putBenches_mgmt (s : State) (x) : (s.putBenches x).mgmt = s.mgmt := rfl
@[simp] theorem State.putBenches_logSeq (s : State) (x) : (s.putBenches x).logSeq = s.logSeq := rfl
@[simp] theorem State.putBenches_lost (s : State) (x) : (s.putBenches x).lost = s.lost := rfl
@[simp] theorem State.putBenches_cyc (s : State) (x) : (s.putBenches x).cyc = s.cyc := rfl
@[simp] theorem State.putBenches_pulse (s : State) (x) : (s.putBenches x).pulse = s.pulse := rfl
@[simp] theorem State.putBenches_cycZero (s : State) (x) : (s.putBenches x).cycZero = s.cycZero := rfl
@[simp] theorem State.putBenches_skipped (s : State) (x) : (s.putBenches x).skipped = s.skipped := rfl
@[simp] theorem State.putBenches_fresh (s : State) (x) : (s.putBenches x).fresh = s.fresh := rfl
@[simp] theorem State.putBenches_out (s : State) (x) : (s.putBenches x).out = s.out := rfl
@[simp] theorem State.putBenches_pending (s : State) (x) : (s.putBenches x).pending = s.pending := rfl
@[simp] theorem State.putDesks_regs (s : State) (x) : (s.putDesks x).regs = s.regs := rfl
@[simp] theorem State.putDesks_rwo (s : State) (x) : (s.putDesks x).rwo = s.rwo := rfl
@[simp] theorem State.putDesks_mem (s : State) (x) : (s.putDesks x).mem = s.mem := rfl
@[simp] theorem State.putDesks_benches (s : State) (x) : (s.putDesks x).benches = s.benches := rfl
@[simp] theorem State.putDesks_desks (s : State) (x) : (s.putDesks x).desks = x := rfl
@[simp] theorem State.putDesks_map (s : State) (x) : (s.putDesks x).map = s.map := rfl
@[simp] theorem State.putDesks_spares (s : State) (x) : (s.putDesks x).spares = s.spares := rfl
@[simp] theorem State.putDesks_tby (s : State) (x) : (s.putDesks x).tby = s.tby := rfl
@[simp] theorem State.putDesks_tmr (s : State) (x) : (s.putDesks x).tmr = s.tmr := rfl
@[simp] theorem State.putDesks_sync (s : State) (x) : (s.putDesks x).sync = s.sync := rfl
@[simp] theorem State.putDesks_evt (s : State) (x) : (s.putDesks x).evt = s.evt := rfl
@[simp] theorem State.putDesks_gt (s : State) (x) : (s.putDesks x).gt = s.gt := rfl
@[simp] theorem State.putDesks_clk (s : State) (x) : (s.putDesks x).clk = s.clk := rfl
@[simp] theorem State.putDesks_flt (s : State) (x) : (s.putDesks x).flt = s.flt := rfl
@[simp] theorem State.putDesks_sbd (s : State) (x) : (s.putDesks x).sbd = s.sbd := rfl
@[simp] theorem State.putDesks_trs (s : State) (x) : (s.putDesks x).trs = s.trs := rfl
@[simp] theorem State.putDesks_pcie (s : State) (x) : (s.putDesks x).pcie = s.pcie := rfl
@[simp] theorem State.putDesks_sec (s : State) (x) : (s.putDesks x).sec = s.sec := rfl
@[simp] theorem State.putDesks_hut (s : State) (x) : (s.putDesks x).hut = s.hut := rfl
@[simp] theorem State.putDesks_flash (s : State) (x) : (s.putDesks x).flash = s.flash := rfl
@[simp] theorem State.putDesks_fuse (s : State) (x) : (s.putDesks x).fuse = s.fuse := rfl
@[simp] theorem State.putDesks_rst (s : State) (x) : (s.putDesks x).rst = s.rst := rfl
@[simp] theorem State.putDesks_pwr (s : State) (x) : (s.putDesks x).pwr = s.pwr := rfl
@[simp] theorem State.putDesks_mgmt (s : State) (x) : (s.putDesks x).mgmt = s.mgmt := rfl
@[simp] theorem State.putDesks_logSeq (s : State) (x) : (s.putDesks x).logSeq = s.logSeq := rfl
@[simp] theorem State.putDesks_lost (s : State) (x) : (s.putDesks x).lost = s.lost := rfl
@[simp] theorem State.putDesks_cyc (s : State) (x) : (s.putDesks x).cyc = s.cyc := rfl
@[simp] theorem State.putDesks_pulse (s : State) (x) : (s.putDesks x).pulse = s.pulse := rfl
@[simp] theorem State.putDesks_cycZero (s : State) (x) : (s.putDesks x).cycZero = s.cycZero := rfl
@[simp] theorem State.putDesks_skipped (s : State) (x) : (s.putDesks x).skipped = s.skipped := rfl
@[simp] theorem State.putDesks_fresh (s : State) (x) : (s.putDesks x).fresh = s.fresh := rfl
@[simp] theorem State.putDesks_out (s : State) (x) : (s.putDesks x).out = s.out := rfl
@[simp] theorem State.putDesks_pending (s : State) (x) : (s.putDesks x).pending = s.pending := rfl
@[simp] theorem State.putMap_regs (s : State) (x) : (s.putMap x).regs = s.regs := rfl
@[simp] theorem State.putMap_rwo (s : State) (x) : (s.putMap x).rwo = s.rwo := rfl
@[simp] theorem State.putMap_mem (s : State) (x) : (s.putMap x).mem = s.mem := rfl
@[simp] theorem State.putMap_benches (s : State) (x) : (s.putMap x).benches = s.benches := rfl
@[simp] theorem State.putMap_desks (s : State) (x) : (s.putMap x).desks = s.desks := rfl
@[simp] theorem State.putMap_map (s : State) (x) : (s.putMap x).map = x := rfl
@[simp] theorem State.putMap_spares (s : State) (x) : (s.putMap x).spares = s.spares := rfl
@[simp] theorem State.putMap_tby (s : State) (x) : (s.putMap x).tby = s.tby := rfl
@[simp] theorem State.putMap_tmr (s : State) (x) : (s.putMap x).tmr = s.tmr := rfl
@[simp] theorem State.putMap_sync (s : State) (x) : (s.putMap x).sync = s.sync := rfl
@[simp] theorem State.putMap_evt (s : State) (x) : (s.putMap x).evt = s.evt := rfl
@[simp] theorem State.putMap_gt (s : State) (x) : (s.putMap x).gt = s.gt := rfl
@[simp] theorem State.putMap_clk (s : State) (x) : (s.putMap x).clk = s.clk := rfl
@[simp] theorem State.putMap_flt (s : State) (x) : (s.putMap x).flt = s.flt := rfl
@[simp] theorem State.putMap_sbd (s : State) (x) : (s.putMap x).sbd = s.sbd := rfl
@[simp] theorem State.putMap_trs (s : State) (x) : (s.putMap x).trs = s.trs := rfl
@[simp] theorem State.putMap_pcie (s : State) (x) : (s.putMap x).pcie = s.pcie := rfl
@[simp] theorem State.putMap_sec (s : State) (x) : (s.putMap x).sec = s.sec := rfl
@[simp] theorem State.putMap_hut (s : State) (x) : (s.putMap x).hut = s.hut := rfl
@[simp] theorem State.putMap_flash (s : State) (x) : (s.putMap x).flash = s.flash := rfl
@[simp] theorem State.putMap_fuse (s : State) (x) : (s.putMap x).fuse = s.fuse := rfl
@[simp] theorem State.putMap_rst (s : State) (x) : (s.putMap x).rst = s.rst := rfl
@[simp] theorem State.putMap_pwr (s : State) (x) : (s.putMap x).pwr = s.pwr := rfl
@[simp] theorem State.putMap_mgmt (s : State) (x) : (s.putMap x).mgmt = s.mgmt := rfl
@[simp] theorem State.putMap_logSeq (s : State) (x) : (s.putMap x).logSeq = s.logSeq := rfl
@[simp] theorem State.putMap_lost (s : State) (x) : (s.putMap x).lost = s.lost := rfl
@[simp] theorem State.putMap_cyc (s : State) (x) : (s.putMap x).cyc = s.cyc := rfl
@[simp] theorem State.putMap_pulse (s : State) (x) : (s.putMap x).pulse = s.pulse := rfl
@[simp] theorem State.putMap_cycZero (s : State) (x) : (s.putMap x).cycZero = s.cycZero := rfl
@[simp] theorem State.putMap_skipped (s : State) (x) : (s.putMap x).skipped = s.skipped := rfl
@[simp] theorem State.putMap_fresh (s : State) (x) : (s.putMap x).fresh = s.fresh := rfl
@[simp] theorem State.putMap_out (s : State) (x) : (s.putMap x).out = s.out := rfl
@[simp] theorem State.putMap_pending (s : State) (x) : (s.putMap x).pending = s.pending := rfl
@[simp] theorem State.putSpares_regs (s : State) (x) : (s.putSpares x).regs = s.regs := rfl
@[simp] theorem State.putSpares_rwo (s : State) (x) : (s.putSpares x).rwo = s.rwo := rfl
@[simp] theorem State.putSpares_mem (s : State) (x) : (s.putSpares x).mem = s.mem := rfl
@[simp] theorem State.putSpares_benches (s : State) (x) : (s.putSpares x).benches = s.benches := rfl
@[simp] theorem State.putSpares_desks (s : State) (x) : (s.putSpares x).desks = s.desks := rfl
@[simp] theorem State.putSpares_map (s : State) (x) : (s.putSpares x).map = s.map := rfl
@[simp] theorem State.putSpares_spares (s : State) (x) : (s.putSpares x).spares = x := rfl
@[simp] theorem State.putSpares_tby (s : State) (x) : (s.putSpares x).tby = s.tby := rfl
@[simp] theorem State.putSpares_tmr (s : State) (x) : (s.putSpares x).tmr = s.tmr := rfl
@[simp] theorem State.putSpares_sync (s : State) (x) : (s.putSpares x).sync = s.sync := rfl
@[simp] theorem State.putSpares_evt (s : State) (x) : (s.putSpares x).evt = s.evt := rfl
@[simp] theorem State.putSpares_gt (s : State) (x) : (s.putSpares x).gt = s.gt := rfl
@[simp] theorem State.putSpares_clk (s : State) (x) : (s.putSpares x).clk = s.clk := rfl
@[simp] theorem State.putSpares_flt (s : State) (x) : (s.putSpares x).flt = s.flt := rfl
@[simp] theorem State.putSpares_sbd (s : State) (x) : (s.putSpares x).sbd = s.sbd := rfl
@[simp] theorem State.putSpares_trs (s : State) (x) : (s.putSpares x).trs = s.trs := rfl
@[simp] theorem State.putSpares_pcie (s : State) (x) : (s.putSpares x).pcie = s.pcie := rfl
@[simp] theorem State.putSpares_sec (s : State) (x) : (s.putSpares x).sec = s.sec := rfl
@[simp] theorem State.putSpares_hut (s : State) (x) : (s.putSpares x).hut = s.hut := rfl
@[simp] theorem State.putSpares_flash (s : State) (x) : (s.putSpares x).flash = s.flash := rfl
@[simp] theorem State.putSpares_fuse (s : State) (x) : (s.putSpares x).fuse = s.fuse := rfl
@[simp] theorem State.putSpares_rst (s : State) (x) : (s.putSpares x).rst = s.rst := rfl
@[simp] theorem State.putSpares_pwr (s : State) (x) : (s.putSpares x).pwr = s.pwr := rfl
@[simp] theorem State.putSpares_mgmt (s : State) (x) : (s.putSpares x).mgmt = s.mgmt := rfl
@[simp] theorem State.putSpares_logSeq (s : State) (x) : (s.putSpares x).logSeq = s.logSeq := rfl
@[simp] theorem State.putSpares_lost (s : State) (x) : (s.putSpares x).lost = s.lost := rfl
@[simp] theorem State.putSpares_cyc (s : State) (x) : (s.putSpares x).cyc = s.cyc := rfl
@[simp] theorem State.putSpares_pulse (s : State) (x) : (s.putSpares x).pulse = s.pulse := rfl
@[simp] theorem State.putSpares_cycZero (s : State) (x) : (s.putSpares x).cycZero = s.cycZero := rfl
@[simp] theorem State.putSpares_skipped (s : State) (x) : (s.putSpares x).skipped = s.skipped := rfl
@[simp] theorem State.putSpares_fresh (s : State) (x) : (s.putSpares x).fresh = s.fresh := rfl
@[simp] theorem State.putSpares_out (s : State) (x) : (s.putSpares x).out = s.out := rfl
@[simp] theorem State.putSpares_pending (s : State) (x) : (s.putSpares x).pending = s.pending := rfl
@[simp] theorem State.putTby_regs (s : State) (x) : (s.putTby x).regs = s.regs := rfl
@[simp] theorem State.putTby_rwo (s : State) (x) : (s.putTby x).rwo = s.rwo := rfl
@[simp] theorem State.putTby_mem (s : State) (x) : (s.putTby x).mem = s.mem := rfl
@[simp] theorem State.putTby_benches (s : State) (x) : (s.putTby x).benches = s.benches := rfl
@[simp] theorem State.putTby_desks (s : State) (x) : (s.putTby x).desks = s.desks := rfl
@[simp] theorem State.putTby_map (s : State) (x) : (s.putTby x).map = s.map := rfl
@[simp] theorem State.putTby_spares (s : State) (x) : (s.putTby x).spares = s.spares := rfl
@[simp] theorem State.putTby_tby (s : State) (x) : (s.putTby x).tby = x := rfl
@[simp] theorem State.putTby_tmr (s : State) (x) : (s.putTby x).tmr = s.tmr := rfl
@[simp] theorem State.putTby_sync (s : State) (x) : (s.putTby x).sync = s.sync := rfl
@[simp] theorem State.putTby_evt (s : State) (x) : (s.putTby x).evt = s.evt := rfl
@[simp] theorem State.putTby_gt (s : State) (x) : (s.putTby x).gt = s.gt := rfl
@[simp] theorem State.putTby_clk (s : State) (x) : (s.putTby x).clk = s.clk := rfl
@[simp] theorem State.putTby_flt (s : State) (x) : (s.putTby x).flt = s.flt := rfl
@[simp] theorem State.putTby_sbd (s : State) (x) : (s.putTby x).sbd = s.sbd := rfl
@[simp] theorem State.putTby_trs (s : State) (x) : (s.putTby x).trs = s.trs := rfl
@[simp] theorem State.putTby_pcie (s : State) (x) : (s.putTby x).pcie = s.pcie := rfl
@[simp] theorem State.putTby_sec (s : State) (x) : (s.putTby x).sec = s.sec := rfl
@[simp] theorem State.putTby_hut (s : State) (x) : (s.putTby x).hut = s.hut := rfl
@[simp] theorem State.putTby_flash (s : State) (x) : (s.putTby x).flash = s.flash := rfl
@[simp] theorem State.putTby_fuse (s : State) (x) : (s.putTby x).fuse = s.fuse := rfl
@[simp] theorem State.putTby_rst (s : State) (x) : (s.putTby x).rst = s.rst := rfl
@[simp] theorem State.putTby_pwr (s : State) (x) : (s.putTby x).pwr = s.pwr := rfl
@[simp] theorem State.putTby_mgmt (s : State) (x) : (s.putTby x).mgmt = s.mgmt := rfl
@[simp] theorem State.putTby_logSeq (s : State) (x) : (s.putTby x).logSeq = s.logSeq := rfl
@[simp] theorem State.putTby_lost (s : State) (x) : (s.putTby x).lost = s.lost := rfl
@[simp] theorem State.putTby_cyc (s : State) (x) : (s.putTby x).cyc = s.cyc := rfl
@[simp] theorem State.putTby_pulse (s : State) (x) : (s.putTby x).pulse = s.pulse := rfl
@[simp] theorem State.putTby_cycZero (s : State) (x) : (s.putTby x).cycZero = s.cycZero := rfl
@[simp] theorem State.putTby_skipped (s : State) (x) : (s.putTby x).skipped = s.skipped := rfl
@[simp] theorem State.putTby_fresh (s : State) (x) : (s.putTby x).fresh = s.fresh := rfl
@[simp] theorem State.putTby_out (s : State) (x) : (s.putTby x).out = s.out := rfl
@[simp] theorem State.putTby_pending (s : State) (x) : (s.putTby x).pending = s.pending := rfl
@[simp] theorem State.putTmr_regs (s : State) (x) : (s.putTmr x).regs = s.regs := rfl
@[simp] theorem State.putTmr_rwo (s : State) (x) : (s.putTmr x).rwo = s.rwo := rfl
@[simp] theorem State.putTmr_mem (s : State) (x) : (s.putTmr x).mem = s.mem := rfl
@[simp] theorem State.putTmr_benches (s : State) (x) : (s.putTmr x).benches = s.benches := rfl
@[simp] theorem State.putTmr_desks (s : State) (x) : (s.putTmr x).desks = s.desks := rfl
@[simp] theorem State.putTmr_map (s : State) (x) : (s.putTmr x).map = s.map := rfl
@[simp] theorem State.putTmr_spares (s : State) (x) : (s.putTmr x).spares = s.spares := rfl
@[simp] theorem State.putTmr_tby (s : State) (x) : (s.putTmr x).tby = s.tby := rfl
@[simp] theorem State.putTmr_tmr (s : State) (x) : (s.putTmr x).tmr = x := rfl
@[simp] theorem State.putTmr_sync (s : State) (x) : (s.putTmr x).sync = s.sync := rfl
@[simp] theorem State.putTmr_evt (s : State) (x) : (s.putTmr x).evt = s.evt := rfl
@[simp] theorem State.putTmr_gt (s : State) (x) : (s.putTmr x).gt = s.gt := rfl
@[simp] theorem State.putTmr_clk (s : State) (x) : (s.putTmr x).clk = s.clk := rfl
@[simp] theorem State.putTmr_flt (s : State) (x) : (s.putTmr x).flt = s.flt := rfl
@[simp] theorem State.putTmr_sbd (s : State) (x) : (s.putTmr x).sbd = s.sbd := rfl
@[simp] theorem State.putTmr_trs (s : State) (x) : (s.putTmr x).trs = s.trs := rfl
@[simp] theorem State.putTmr_pcie (s : State) (x) : (s.putTmr x).pcie = s.pcie := rfl
@[simp] theorem State.putTmr_sec (s : State) (x) : (s.putTmr x).sec = s.sec := rfl
@[simp] theorem State.putTmr_hut (s : State) (x) : (s.putTmr x).hut = s.hut := rfl
@[simp] theorem State.putTmr_flash (s : State) (x) : (s.putTmr x).flash = s.flash := rfl
@[simp] theorem State.putTmr_fuse (s : State) (x) : (s.putTmr x).fuse = s.fuse := rfl
@[simp] theorem State.putTmr_rst (s : State) (x) : (s.putTmr x).rst = s.rst := rfl
@[simp] theorem State.putTmr_pwr (s : State) (x) : (s.putTmr x).pwr = s.pwr := rfl
@[simp] theorem State.putTmr_mgmt (s : State) (x) : (s.putTmr x).mgmt = s.mgmt := rfl
@[simp] theorem State.putTmr_logSeq (s : State) (x) : (s.putTmr x).logSeq = s.logSeq := rfl
@[simp] theorem State.putTmr_lost (s : State) (x) : (s.putTmr x).lost = s.lost := rfl
@[simp] theorem State.putTmr_cyc (s : State) (x) : (s.putTmr x).cyc = s.cyc := rfl
@[simp] theorem State.putTmr_pulse (s : State) (x) : (s.putTmr x).pulse = s.pulse := rfl
@[simp] theorem State.putTmr_cycZero (s : State) (x) : (s.putTmr x).cycZero = s.cycZero := rfl
@[simp] theorem State.putTmr_skipped (s : State) (x) : (s.putTmr x).skipped = s.skipped := rfl
@[simp] theorem State.putTmr_fresh (s : State) (x) : (s.putTmr x).fresh = s.fresh := rfl
@[simp] theorem State.putTmr_out (s : State) (x) : (s.putTmr x).out = s.out := rfl
@[simp] theorem State.putTmr_pending (s : State) (x) : (s.putTmr x).pending = s.pending := rfl
@[simp] theorem State.putSync_regs (s : State) (x) : (s.putSync x).regs = s.regs := rfl
@[simp] theorem State.putSync_rwo (s : State) (x) : (s.putSync x).rwo = s.rwo := rfl
@[simp] theorem State.putSync_mem (s : State) (x) : (s.putSync x).mem = s.mem := rfl
@[simp] theorem State.putSync_benches (s : State) (x) : (s.putSync x).benches = s.benches := rfl
@[simp] theorem State.putSync_desks (s : State) (x) : (s.putSync x).desks = s.desks := rfl
@[simp] theorem State.putSync_map (s : State) (x) : (s.putSync x).map = s.map := rfl
@[simp] theorem State.putSync_spares (s : State) (x) : (s.putSync x).spares = s.spares := rfl
@[simp] theorem State.putSync_tby (s : State) (x) : (s.putSync x).tby = s.tby := rfl
@[simp] theorem State.putSync_tmr (s : State) (x) : (s.putSync x).tmr = s.tmr := rfl
@[simp] theorem State.putSync_sync (s : State) (x) : (s.putSync x).sync = x := rfl
@[simp] theorem State.putSync_evt (s : State) (x) : (s.putSync x).evt = s.evt := rfl
@[simp] theorem State.putSync_gt (s : State) (x) : (s.putSync x).gt = s.gt := rfl
@[simp] theorem State.putSync_clk (s : State) (x) : (s.putSync x).clk = s.clk := rfl
@[simp] theorem State.putSync_flt (s : State) (x) : (s.putSync x).flt = s.flt := rfl
@[simp] theorem State.putSync_sbd (s : State) (x) : (s.putSync x).sbd = s.sbd := rfl
@[simp] theorem State.putSync_trs (s : State) (x) : (s.putSync x).trs = s.trs := rfl
@[simp] theorem State.putSync_pcie (s : State) (x) : (s.putSync x).pcie = s.pcie := rfl
@[simp] theorem State.putSync_sec (s : State) (x) : (s.putSync x).sec = s.sec := rfl
@[simp] theorem State.putSync_hut (s : State) (x) : (s.putSync x).hut = s.hut := rfl
@[simp] theorem State.putSync_flash (s : State) (x) : (s.putSync x).flash = s.flash := rfl
@[simp] theorem State.putSync_fuse (s : State) (x) : (s.putSync x).fuse = s.fuse := rfl
@[simp] theorem State.putSync_rst (s : State) (x) : (s.putSync x).rst = s.rst := rfl
@[simp] theorem State.putSync_pwr (s : State) (x) : (s.putSync x).pwr = s.pwr := rfl
@[simp] theorem State.putSync_mgmt (s : State) (x) : (s.putSync x).mgmt = s.mgmt := rfl
@[simp] theorem State.putSync_logSeq (s : State) (x) : (s.putSync x).logSeq = s.logSeq := rfl
@[simp] theorem State.putSync_lost (s : State) (x) : (s.putSync x).lost = s.lost := rfl
@[simp] theorem State.putSync_cyc (s : State) (x) : (s.putSync x).cyc = s.cyc := rfl
@[simp] theorem State.putSync_pulse (s : State) (x) : (s.putSync x).pulse = s.pulse := rfl
@[simp] theorem State.putSync_cycZero (s : State) (x) : (s.putSync x).cycZero = s.cycZero := rfl
@[simp] theorem State.putSync_skipped (s : State) (x) : (s.putSync x).skipped = s.skipped := rfl
@[simp] theorem State.putSync_fresh (s : State) (x) : (s.putSync x).fresh = s.fresh := rfl
@[simp] theorem State.putSync_out (s : State) (x) : (s.putSync x).out = s.out := rfl
@[simp] theorem State.putSync_pending (s : State) (x) : (s.putSync x).pending = s.pending := rfl
@[simp] theorem State.putEvt_regs (s : State) (x) : (s.putEvt x).regs = s.regs := rfl
@[simp] theorem State.putEvt_rwo (s : State) (x) : (s.putEvt x).rwo = s.rwo := rfl
@[simp] theorem State.putEvt_mem (s : State) (x) : (s.putEvt x).mem = s.mem := rfl
@[simp] theorem State.putEvt_benches (s : State) (x) : (s.putEvt x).benches = s.benches := rfl
@[simp] theorem State.putEvt_desks (s : State) (x) : (s.putEvt x).desks = s.desks := rfl
@[simp] theorem State.putEvt_map (s : State) (x) : (s.putEvt x).map = s.map := rfl
@[simp] theorem State.putEvt_spares (s : State) (x) : (s.putEvt x).spares = s.spares := rfl
@[simp] theorem State.putEvt_tby (s : State) (x) : (s.putEvt x).tby = s.tby := rfl
@[simp] theorem State.putEvt_tmr (s : State) (x) : (s.putEvt x).tmr = s.tmr := rfl
@[simp] theorem State.putEvt_sync (s : State) (x) : (s.putEvt x).sync = s.sync := rfl
@[simp] theorem State.putEvt_evt (s : State) (x) : (s.putEvt x).evt = x := rfl
@[simp] theorem State.putEvt_gt (s : State) (x) : (s.putEvt x).gt = s.gt := rfl
@[simp] theorem State.putEvt_clk (s : State) (x) : (s.putEvt x).clk = s.clk := rfl
@[simp] theorem State.putEvt_flt (s : State) (x) : (s.putEvt x).flt = s.flt := rfl
@[simp] theorem State.putEvt_sbd (s : State) (x) : (s.putEvt x).sbd = s.sbd := rfl
@[simp] theorem State.putEvt_trs (s : State) (x) : (s.putEvt x).trs = s.trs := rfl
@[simp] theorem State.putEvt_pcie (s : State) (x) : (s.putEvt x).pcie = s.pcie := rfl
@[simp] theorem State.putEvt_sec (s : State) (x) : (s.putEvt x).sec = s.sec := rfl
@[simp] theorem State.putEvt_hut (s : State) (x) : (s.putEvt x).hut = s.hut := rfl
@[simp] theorem State.putEvt_flash (s : State) (x) : (s.putEvt x).flash = s.flash := rfl
@[simp] theorem State.putEvt_fuse (s : State) (x) : (s.putEvt x).fuse = s.fuse := rfl
@[simp] theorem State.putEvt_rst (s : State) (x) : (s.putEvt x).rst = s.rst := rfl
@[simp] theorem State.putEvt_pwr (s : State) (x) : (s.putEvt x).pwr = s.pwr := rfl
@[simp] theorem State.putEvt_mgmt (s : State) (x) : (s.putEvt x).mgmt = s.mgmt := rfl
@[simp] theorem State.putEvt_logSeq (s : State) (x) : (s.putEvt x).logSeq = s.logSeq := rfl
@[simp] theorem State.putEvt_lost (s : State) (x) : (s.putEvt x).lost = s.lost := rfl
@[simp] theorem State.putEvt_cyc (s : State) (x) : (s.putEvt x).cyc = s.cyc := rfl
@[simp] theorem State.putEvt_pulse (s : State) (x) : (s.putEvt x).pulse = s.pulse := rfl
@[simp] theorem State.putEvt_cycZero (s : State) (x) : (s.putEvt x).cycZero = s.cycZero := rfl
@[simp] theorem State.putEvt_skipped (s : State) (x) : (s.putEvt x).skipped = s.skipped := rfl
@[simp] theorem State.putEvt_fresh (s : State) (x) : (s.putEvt x).fresh = s.fresh := rfl
@[simp] theorem State.putEvt_out (s : State) (x) : (s.putEvt x).out = s.out := rfl
@[simp] theorem State.putEvt_pending (s : State) (x) : (s.putEvt x).pending = s.pending := rfl
@[simp] theorem State.putGt_regs (s : State) (x) : (s.putGt x).regs = s.regs := rfl
@[simp] theorem State.putGt_rwo (s : State) (x) : (s.putGt x).rwo = s.rwo := rfl
@[simp] theorem State.putGt_mem (s : State) (x) : (s.putGt x).mem = s.mem := rfl
@[simp] theorem State.putGt_benches (s : State) (x) : (s.putGt x).benches = s.benches := rfl
@[simp] theorem State.putGt_desks (s : State) (x) : (s.putGt x).desks = s.desks := rfl
@[simp] theorem State.putGt_map (s : State) (x) : (s.putGt x).map = s.map := rfl
@[simp] theorem State.putGt_spares (s : State) (x) : (s.putGt x).spares = s.spares := rfl
@[simp] theorem State.putGt_tby (s : State) (x) : (s.putGt x).tby = s.tby := rfl
@[simp] theorem State.putGt_tmr (s : State) (x) : (s.putGt x).tmr = s.tmr := rfl
@[simp] theorem State.putGt_sync (s : State) (x) : (s.putGt x).sync = s.sync := rfl
@[simp] theorem State.putGt_evt (s : State) (x) : (s.putGt x).evt = s.evt := rfl
@[simp] theorem State.putGt_gt (s : State) (x) : (s.putGt x).gt = x := rfl
@[simp] theorem State.putGt_clk (s : State) (x) : (s.putGt x).clk = s.clk := rfl
@[simp] theorem State.putGt_flt (s : State) (x) : (s.putGt x).flt = s.flt := rfl
@[simp] theorem State.putGt_sbd (s : State) (x) : (s.putGt x).sbd = s.sbd := rfl
@[simp] theorem State.putGt_trs (s : State) (x) : (s.putGt x).trs = s.trs := rfl
@[simp] theorem State.putGt_pcie (s : State) (x) : (s.putGt x).pcie = s.pcie := rfl
@[simp] theorem State.putGt_sec (s : State) (x) : (s.putGt x).sec = s.sec := rfl
@[simp] theorem State.putGt_hut (s : State) (x) : (s.putGt x).hut = s.hut := rfl
@[simp] theorem State.putGt_flash (s : State) (x) : (s.putGt x).flash = s.flash := rfl
@[simp] theorem State.putGt_fuse (s : State) (x) : (s.putGt x).fuse = s.fuse := rfl
@[simp] theorem State.putGt_rst (s : State) (x) : (s.putGt x).rst = s.rst := rfl
@[simp] theorem State.putGt_pwr (s : State) (x) : (s.putGt x).pwr = s.pwr := rfl
@[simp] theorem State.putGt_mgmt (s : State) (x) : (s.putGt x).mgmt = s.mgmt := rfl
@[simp] theorem State.putGt_logSeq (s : State) (x) : (s.putGt x).logSeq = s.logSeq := rfl
@[simp] theorem State.putGt_lost (s : State) (x) : (s.putGt x).lost = s.lost := rfl
@[simp] theorem State.putGt_cyc (s : State) (x) : (s.putGt x).cyc = s.cyc := rfl
@[simp] theorem State.putGt_pulse (s : State) (x) : (s.putGt x).pulse = s.pulse := rfl
@[simp] theorem State.putGt_cycZero (s : State) (x) : (s.putGt x).cycZero = s.cycZero := rfl
@[simp] theorem State.putGt_skipped (s : State) (x) : (s.putGt x).skipped = s.skipped := rfl
@[simp] theorem State.putGt_fresh (s : State) (x) : (s.putGt x).fresh = s.fresh := rfl
@[simp] theorem State.putGt_out (s : State) (x) : (s.putGt x).out = s.out := rfl
@[simp] theorem State.putGt_pending (s : State) (x) : (s.putGt x).pending = s.pending := rfl
@[simp] theorem State.putClk_regs (s : State) (x) : (s.putClk x).regs = s.regs := rfl
@[simp] theorem State.putClk_rwo (s : State) (x) : (s.putClk x).rwo = s.rwo := rfl
@[simp] theorem State.putClk_mem (s : State) (x) : (s.putClk x).mem = s.mem := rfl
@[simp] theorem State.putClk_benches (s : State) (x) : (s.putClk x).benches = s.benches := rfl
@[simp] theorem State.putClk_desks (s : State) (x) : (s.putClk x).desks = s.desks := rfl
@[simp] theorem State.putClk_map (s : State) (x) : (s.putClk x).map = s.map := rfl
@[simp] theorem State.putClk_spares (s : State) (x) : (s.putClk x).spares = s.spares := rfl
@[simp] theorem State.putClk_tby (s : State) (x) : (s.putClk x).tby = s.tby := rfl
@[simp] theorem State.putClk_tmr (s : State) (x) : (s.putClk x).tmr = s.tmr := rfl
@[simp] theorem State.putClk_sync (s : State) (x) : (s.putClk x).sync = s.sync := rfl
@[simp] theorem State.putClk_evt (s : State) (x) : (s.putClk x).evt = s.evt := rfl
@[simp] theorem State.putClk_gt (s : State) (x) : (s.putClk x).gt = s.gt := rfl
@[simp] theorem State.putClk_clk (s : State) (x) : (s.putClk x).clk = x := rfl
@[simp] theorem State.putClk_flt (s : State) (x) : (s.putClk x).flt = s.flt := rfl
@[simp] theorem State.putClk_sbd (s : State) (x) : (s.putClk x).sbd = s.sbd := rfl
@[simp] theorem State.putClk_trs (s : State) (x) : (s.putClk x).trs = s.trs := rfl
@[simp] theorem State.putClk_pcie (s : State) (x) : (s.putClk x).pcie = s.pcie := rfl
@[simp] theorem State.putClk_sec (s : State) (x) : (s.putClk x).sec = s.sec := rfl
@[simp] theorem State.putClk_hut (s : State) (x) : (s.putClk x).hut = s.hut := rfl
@[simp] theorem State.putClk_flash (s : State) (x) : (s.putClk x).flash = s.flash := rfl
@[simp] theorem State.putClk_fuse (s : State) (x) : (s.putClk x).fuse = s.fuse := rfl
@[simp] theorem State.putClk_rst (s : State) (x) : (s.putClk x).rst = s.rst := rfl
@[simp] theorem State.putClk_pwr (s : State) (x) : (s.putClk x).pwr = s.pwr := rfl
@[simp] theorem State.putClk_mgmt (s : State) (x) : (s.putClk x).mgmt = s.mgmt := rfl
@[simp] theorem State.putClk_logSeq (s : State) (x) : (s.putClk x).logSeq = s.logSeq := rfl
@[simp] theorem State.putClk_lost (s : State) (x) : (s.putClk x).lost = s.lost := rfl
@[simp] theorem State.putClk_cyc (s : State) (x) : (s.putClk x).cyc = s.cyc := rfl
@[simp] theorem State.putClk_pulse (s : State) (x) : (s.putClk x).pulse = s.pulse := rfl
@[simp] theorem State.putClk_cycZero (s : State) (x) : (s.putClk x).cycZero = s.cycZero := rfl
@[simp] theorem State.putClk_skipped (s : State) (x) : (s.putClk x).skipped = s.skipped := rfl
@[simp] theorem State.putClk_fresh (s : State) (x) : (s.putClk x).fresh = s.fresh := rfl
@[simp] theorem State.putClk_out (s : State) (x) : (s.putClk x).out = s.out := rfl
@[simp] theorem State.putClk_pending (s : State) (x) : (s.putClk x).pending = s.pending := rfl
@[simp] theorem State.putFlt_regs (s : State) (x) : (s.putFlt x).regs = s.regs := rfl
@[simp] theorem State.putFlt_rwo (s : State) (x) : (s.putFlt x).rwo = s.rwo := rfl
@[simp] theorem State.putFlt_mem (s : State) (x) : (s.putFlt x).mem = s.mem := rfl
@[simp] theorem State.putFlt_benches (s : State) (x) : (s.putFlt x).benches = s.benches := rfl
@[simp] theorem State.putFlt_desks (s : State) (x) : (s.putFlt x).desks = s.desks := rfl
@[simp] theorem State.putFlt_map (s : State) (x) : (s.putFlt x).map = s.map := rfl
@[simp] theorem State.putFlt_spares (s : State) (x) : (s.putFlt x).spares = s.spares := rfl
@[simp] theorem State.putFlt_tby (s : State) (x) : (s.putFlt x).tby = s.tby := rfl
@[simp] theorem State.putFlt_tmr (s : State) (x) : (s.putFlt x).tmr = s.tmr := rfl
@[simp] theorem State.putFlt_sync (s : State) (x) : (s.putFlt x).sync = s.sync := rfl
@[simp] theorem State.putFlt_evt (s : State) (x) : (s.putFlt x).evt = s.evt := rfl
@[simp] theorem State.putFlt_gt (s : State) (x) : (s.putFlt x).gt = s.gt := rfl
@[simp] theorem State.putFlt_clk (s : State) (x) : (s.putFlt x).clk = s.clk := rfl
@[simp] theorem State.putFlt_flt (s : State) (x) : (s.putFlt x).flt = x := rfl
@[simp] theorem State.putFlt_sbd (s : State) (x) : (s.putFlt x).sbd = s.sbd := rfl
@[simp] theorem State.putFlt_trs (s : State) (x) : (s.putFlt x).trs = s.trs := rfl
@[simp] theorem State.putFlt_pcie (s : State) (x) : (s.putFlt x).pcie = s.pcie := rfl
@[simp] theorem State.putFlt_sec (s : State) (x) : (s.putFlt x).sec = s.sec := rfl
@[simp] theorem State.putFlt_hut (s : State) (x) : (s.putFlt x).hut = s.hut := rfl
@[simp] theorem State.putFlt_flash (s : State) (x) : (s.putFlt x).flash = s.flash := rfl
@[simp] theorem State.putFlt_fuse (s : State) (x) : (s.putFlt x).fuse = s.fuse := rfl
@[simp] theorem State.putFlt_rst (s : State) (x) : (s.putFlt x).rst = s.rst := rfl
@[simp] theorem State.putFlt_pwr (s : State) (x) : (s.putFlt x).pwr = s.pwr := rfl
@[simp] theorem State.putFlt_mgmt (s : State) (x) : (s.putFlt x).mgmt = s.mgmt := rfl
@[simp] theorem State.putFlt_logSeq (s : State) (x) : (s.putFlt x).logSeq = s.logSeq := rfl
@[simp] theorem State.putFlt_lost (s : State) (x) : (s.putFlt x).lost = s.lost := rfl
@[simp] theorem State.putFlt_cyc (s : State) (x) : (s.putFlt x).cyc = s.cyc := rfl
@[simp] theorem State.putFlt_pulse (s : State) (x) : (s.putFlt x).pulse = s.pulse := rfl
@[simp] theorem State.putFlt_cycZero (s : State) (x) : (s.putFlt x).cycZero = s.cycZero := rfl
@[simp] theorem State.putFlt_skipped (s : State) (x) : (s.putFlt x).skipped = s.skipped := rfl
@[simp] theorem State.putFlt_fresh (s : State) (x) : (s.putFlt x).fresh = s.fresh := rfl
@[simp] theorem State.putFlt_out (s : State) (x) : (s.putFlt x).out = s.out := rfl
@[simp] theorem State.putFlt_pending (s : State) (x) : (s.putFlt x).pending = s.pending := rfl
@[simp] theorem State.putSbd_regs (s : State) (x) : (s.putSbd x).regs = s.regs := rfl
@[simp] theorem State.putSbd_rwo (s : State) (x) : (s.putSbd x).rwo = s.rwo := rfl
@[simp] theorem State.putSbd_mem (s : State) (x) : (s.putSbd x).mem = s.mem := rfl
@[simp] theorem State.putSbd_benches (s : State) (x) : (s.putSbd x).benches = s.benches := rfl
@[simp] theorem State.putSbd_desks (s : State) (x) : (s.putSbd x).desks = s.desks := rfl
@[simp] theorem State.putSbd_map (s : State) (x) : (s.putSbd x).map = s.map := rfl
@[simp] theorem State.putSbd_spares (s : State) (x) : (s.putSbd x).spares = s.spares := rfl
@[simp] theorem State.putSbd_tby (s : State) (x) : (s.putSbd x).tby = s.tby := rfl
@[simp] theorem State.putSbd_tmr (s : State) (x) : (s.putSbd x).tmr = s.tmr := rfl
@[simp] theorem State.putSbd_sync (s : State) (x) : (s.putSbd x).sync = s.sync := rfl
@[simp] theorem State.putSbd_evt (s : State) (x) : (s.putSbd x).evt = s.evt := rfl
@[simp] theorem State.putSbd_gt (s : State) (x) : (s.putSbd x).gt = s.gt := rfl
@[simp] theorem State.putSbd_clk (s : State) (x) : (s.putSbd x).clk = s.clk := rfl
@[simp] theorem State.putSbd_flt (s : State) (x) : (s.putSbd x).flt = s.flt := rfl
@[simp] theorem State.putSbd_sbd (s : State) (x) : (s.putSbd x).sbd = x := rfl
@[simp] theorem State.putSbd_trs (s : State) (x) : (s.putSbd x).trs = s.trs := rfl
@[simp] theorem State.putSbd_pcie (s : State) (x) : (s.putSbd x).pcie = s.pcie := rfl
@[simp] theorem State.putSbd_sec (s : State) (x) : (s.putSbd x).sec = s.sec := rfl
@[simp] theorem State.putSbd_hut (s : State) (x) : (s.putSbd x).hut = s.hut := rfl
@[simp] theorem State.putSbd_flash (s : State) (x) : (s.putSbd x).flash = s.flash := rfl
@[simp] theorem State.putSbd_fuse (s : State) (x) : (s.putSbd x).fuse = s.fuse := rfl
@[simp] theorem State.putSbd_rst (s : State) (x) : (s.putSbd x).rst = s.rst := rfl
@[simp] theorem State.putSbd_pwr (s : State) (x) : (s.putSbd x).pwr = s.pwr := rfl
@[simp] theorem State.putSbd_mgmt (s : State) (x) : (s.putSbd x).mgmt = s.mgmt := rfl
@[simp] theorem State.putSbd_logSeq (s : State) (x) : (s.putSbd x).logSeq = s.logSeq := rfl
@[simp] theorem State.putSbd_lost (s : State) (x) : (s.putSbd x).lost = s.lost := rfl
@[simp] theorem State.putSbd_cyc (s : State) (x) : (s.putSbd x).cyc = s.cyc := rfl
@[simp] theorem State.putSbd_pulse (s : State) (x) : (s.putSbd x).pulse = s.pulse := rfl
@[simp] theorem State.putSbd_cycZero (s : State) (x) : (s.putSbd x).cycZero = s.cycZero := rfl
@[simp] theorem State.putSbd_skipped (s : State) (x) : (s.putSbd x).skipped = s.skipped := rfl
@[simp] theorem State.putSbd_fresh (s : State) (x) : (s.putSbd x).fresh = s.fresh := rfl
@[simp] theorem State.putSbd_out (s : State) (x) : (s.putSbd x).out = s.out := rfl
@[simp] theorem State.putSbd_pending (s : State) (x) : (s.putSbd x).pending = s.pending := rfl
@[simp] theorem State.putTrs_regs (s : State) (x) : (s.putTrs x).regs = s.regs := rfl
@[simp] theorem State.putTrs_rwo (s : State) (x) : (s.putTrs x).rwo = s.rwo := rfl
@[simp] theorem State.putTrs_mem (s : State) (x) : (s.putTrs x).mem = s.mem := rfl
@[simp] theorem State.putTrs_benches (s : State) (x) : (s.putTrs x).benches = s.benches := rfl
@[simp] theorem State.putTrs_desks (s : State) (x) : (s.putTrs x).desks = s.desks := rfl
@[simp] theorem State.putTrs_map (s : State) (x) : (s.putTrs x).map = s.map := rfl
@[simp] theorem State.putTrs_spares (s : State) (x) : (s.putTrs x).spares = s.spares := rfl
@[simp] theorem State.putTrs_tby (s : State) (x) : (s.putTrs x).tby = s.tby := rfl
@[simp] theorem State.putTrs_tmr (s : State) (x) : (s.putTrs x).tmr = s.tmr := rfl
@[simp] theorem State.putTrs_sync (s : State) (x) : (s.putTrs x).sync = s.sync := rfl
@[simp] theorem State.putTrs_evt (s : State) (x) : (s.putTrs x).evt = s.evt := rfl
@[simp] theorem State.putTrs_gt (s : State) (x) : (s.putTrs x).gt = s.gt := rfl
@[simp] theorem State.putTrs_clk (s : State) (x) : (s.putTrs x).clk = s.clk := rfl
@[simp] theorem State.putTrs_flt (s : State) (x) : (s.putTrs x).flt = s.flt := rfl
@[simp] theorem State.putTrs_sbd (s : State) (x) : (s.putTrs x).sbd = s.sbd := rfl
@[simp] theorem State.putTrs_trs (s : State) (x) : (s.putTrs x).trs = x := rfl
@[simp] theorem State.putTrs_pcie (s : State) (x) : (s.putTrs x).pcie = s.pcie := rfl
@[simp] theorem State.putTrs_sec (s : State) (x) : (s.putTrs x).sec = s.sec := rfl
@[simp] theorem State.putTrs_hut (s : State) (x) : (s.putTrs x).hut = s.hut := rfl
@[simp] theorem State.putTrs_flash (s : State) (x) : (s.putTrs x).flash = s.flash := rfl
@[simp] theorem State.putTrs_fuse (s : State) (x) : (s.putTrs x).fuse = s.fuse := rfl
@[simp] theorem State.putTrs_rst (s : State) (x) : (s.putTrs x).rst = s.rst := rfl
@[simp] theorem State.putTrs_pwr (s : State) (x) : (s.putTrs x).pwr = s.pwr := rfl
@[simp] theorem State.putTrs_mgmt (s : State) (x) : (s.putTrs x).mgmt = s.mgmt := rfl
@[simp] theorem State.putTrs_logSeq (s : State) (x) : (s.putTrs x).logSeq = s.logSeq := rfl
@[simp] theorem State.putTrs_lost (s : State) (x) : (s.putTrs x).lost = s.lost := rfl
@[simp] theorem State.putTrs_cyc (s : State) (x) : (s.putTrs x).cyc = s.cyc := rfl
@[simp] theorem State.putTrs_pulse (s : State) (x) : (s.putTrs x).pulse = s.pulse := rfl
@[simp] theorem State.putTrs_cycZero (s : State) (x) : (s.putTrs x).cycZero = s.cycZero := rfl
@[simp] theorem State.putTrs_skipped (s : State) (x) : (s.putTrs x).skipped = s.skipped := rfl
@[simp] theorem State.putTrs_fresh (s : State) (x) : (s.putTrs x).fresh = s.fresh := rfl
@[simp] theorem State.putTrs_out (s : State) (x) : (s.putTrs x).out = s.out := rfl
@[simp] theorem State.putTrs_pending (s : State) (x) : (s.putTrs x).pending = s.pending := rfl
@[simp] theorem State.putPcie_regs (s : State) (x) : (s.putPcie x).regs = s.regs := rfl
@[simp] theorem State.putPcie_rwo (s : State) (x) : (s.putPcie x).rwo = s.rwo := rfl
@[simp] theorem State.putPcie_mem (s : State) (x) : (s.putPcie x).mem = s.mem := rfl
@[simp] theorem State.putPcie_benches (s : State) (x) : (s.putPcie x).benches = s.benches := rfl
@[simp] theorem State.putPcie_desks (s : State) (x) : (s.putPcie x).desks = s.desks := rfl
@[simp] theorem State.putPcie_map (s : State) (x) : (s.putPcie x).map = s.map := rfl
@[simp] theorem State.putPcie_spares (s : State) (x) : (s.putPcie x).spares = s.spares := rfl
@[simp] theorem State.putPcie_tby (s : State) (x) : (s.putPcie x).tby = s.tby := rfl
@[simp] theorem State.putPcie_tmr (s : State) (x) : (s.putPcie x).tmr = s.tmr := rfl
@[simp] theorem State.putPcie_sync (s : State) (x) : (s.putPcie x).sync = s.sync := rfl
@[simp] theorem State.putPcie_evt (s : State) (x) : (s.putPcie x).evt = s.evt := rfl
@[simp] theorem State.putPcie_gt (s : State) (x) : (s.putPcie x).gt = s.gt := rfl
@[simp] theorem State.putPcie_clk (s : State) (x) : (s.putPcie x).clk = s.clk := rfl
@[simp] theorem State.putPcie_flt (s : State) (x) : (s.putPcie x).flt = s.flt := rfl
@[simp] theorem State.putPcie_sbd (s : State) (x) : (s.putPcie x).sbd = s.sbd := rfl
@[simp] theorem State.putPcie_trs (s : State) (x) : (s.putPcie x).trs = s.trs := rfl
@[simp] theorem State.putPcie_pcie (s : State) (x) : (s.putPcie x).pcie = x := rfl
@[simp] theorem State.putPcie_sec (s : State) (x) : (s.putPcie x).sec = s.sec := rfl
@[simp] theorem State.putPcie_hut (s : State) (x) : (s.putPcie x).hut = s.hut := rfl
@[simp] theorem State.putPcie_flash (s : State) (x) : (s.putPcie x).flash = s.flash := rfl
@[simp] theorem State.putPcie_fuse (s : State) (x) : (s.putPcie x).fuse = s.fuse := rfl
@[simp] theorem State.putPcie_rst (s : State) (x) : (s.putPcie x).rst = s.rst := rfl
@[simp] theorem State.putPcie_pwr (s : State) (x) : (s.putPcie x).pwr = s.pwr := rfl
@[simp] theorem State.putPcie_mgmt (s : State) (x) : (s.putPcie x).mgmt = s.mgmt := rfl
@[simp] theorem State.putPcie_logSeq (s : State) (x) : (s.putPcie x).logSeq = s.logSeq := rfl
@[simp] theorem State.putPcie_lost (s : State) (x) : (s.putPcie x).lost = s.lost := rfl
@[simp] theorem State.putPcie_cyc (s : State) (x) : (s.putPcie x).cyc = s.cyc := rfl
@[simp] theorem State.putPcie_pulse (s : State) (x) : (s.putPcie x).pulse = s.pulse := rfl
@[simp] theorem State.putPcie_cycZero (s : State) (x) : (s.putPcie x).cycZero = s.cycZero := rfl
@[simp] theorem State.putPcie_skipped (s : State) (x) : (s.putPcie x).skipped = s.skipped := rfl
@[simp] theorem State.putPcie_fresh (s : State) (x) : (s.putPcie x).fresh = s.fresh := rfl
@[simp] theorem State.putPcie_out (s : State) (x) : (s.putPcie x).out = s.out := rfl
@[simp] theorem State.putPcie_pending (s : State) (x) : (s.putPcie x).pending = s.pending := rfl
@[simp] theorem State.putSec_regs (s : State) (x) : (s.putSec x).regs = s.regs := rfl
@[simp] theorem State.putSec_rwo (s : State) (x) : (s.putSec x).rwo = s.rwo := rfl
@[simp] theorem State.putSec_mem (s : State) (x) : (s.putSec x).mem = s.mem := rfl
@[simp] theorem State.putSec_benches (s : State) (x) : (s.putSec x).benches = s.benches := rfl
@[simp] theorem State.putSec_desks (s : State) (x) : (s.putSec x).desks = s.desks := rfl
@[simp] theorem State.putSec_map (s : State) (x) : (s.putSec x).map = s.map := rfl
@[simp] theorem State.putSec_spares (s : State) (x) : (s.putSec x).spares = s.spares := rfl
@[simp] theorem State.putSec_tby (s : State) (x) : (s.putSec x).tby = s.tby := rfl
@[simp] theorem State.putSec_tmr (s : State) (x) : (s.putSec x).tmr = s.tmr := rfl
@[simp] theorem State.putSec_sync (s : State) (x) : (s.putSec x).sync = s.sync := rfl
@[simp] theorem State.putSec_evt (s : State) (x) : (s.putSec x).evt = s.evt := rfl
@[simp] theorem State.putSec_gt (s : State) (x) : (s.putSec x).gt = s.gt := rfl
@[simp] theorem State.putSec_clk (s : State) (x) : (s.putSec x).clk = s.clk := rfl
@[simp] theorem State.putSec_flt (s : State) (x) : (s.putSec x).flt = s.flt := rfl
@[simp] theorem State.putSec_sbd (s : State) (x) : (s.putSec x).sbd = s.sbd := rfl
@[simp] theorem State.putSec_trs (s : State) (x) : (s.putSec x).trs = s.trs := rfl
@[simp] theorem State.putSec_pcie (s : State) (x) : (s.putSec x).pcie = s.pcie := rfl
@[simp] theorem State.putSec_sec (s : State) (x) : (s.putSec x).sec = x := rfl
@[simp] theorem State.putSec_hut (s : State) (x) : (s.putSec x).hut = s.hut := rfl
@[simp] theorem State.putSec_flash (s : State) (x) : (s.putSec x).flash = s.flash := rfl
@[simp] theorem State.putSec_fuse (s : State) (x) : (s.putSec x).fuse = s.fuse := rfl
@[simp] theorem State.putSec_rst (s : State) (x) : (s.putSec x).rst = s.rst := rfl
@[simp] theorem State.putSec_pwr (s : State) (x) : (s.putSec x).pwr = s.pwr := rfl
@[simp] theorem State.putSec_mgmt (s : State) (x) : (s.putSec x).mgmt = s.mgmt := rfl
@[simp] theorem State.putSec_logSeq (s : State) (x) : (s.putSec x).logSeq = s.logSeq := rfl
@[simp] theorem State.putSec_lost (s : State) (x) : (s.putSec x).lost = s.lost := rfl
@[simp] theorem State.putSec_cyc (s : State) (x) : (s.putSec x).cyc = s.cyc := rfl
@[simp] theorem State.putSec_pulse (s : State) (x) : (s.putSec x).pulse = s.pulse := rfl
@[simp] theorem State.putSec_cycZero (s : State) (x) : (s.putSec x).cycZero = s.cycZero := rfl
@[simp] theorem State.putSec_skipped (s : State) (x) : (s.putSec x).skipped = s.skipped := rfl
@[simp] theorem State.putSec_fresh (s : State) (x) : (s.putSec x).fresh = s.fresh := rfl
@[simp] theorem State.putSec_out (s : State) (x) : (s.putSec x).out = s.out := rfl
@[simp] theorem State.putSec_pending (s : State) (x) : (s.putSec x).pending = s.pending := rfl
@[simp] theorem State.putHut_regs (s : State) (x) : (s.putHut x).regs = s.regs := rfl
@[simp] theorem State.putHut_rwo (s : State) (x) : (s.putHut x).rwo = s.rwo := rfl
@[simp] theorem State.putHut_mem (s : State) (x) : (s.putHut x).mem = s.mem := rfl
@[simp] theorem State.putHut_benches (s : State) (x) : (s.putHut x).benches = s.benches := rfl
@[simp] theorem State.putHut_desks (s : State) (x) : (s.putHut x).desks = s.desks := rfl
@[simp] theorem State.putHut_map (s : State) (x) : (s.putHut x).map = s.map := rfl
@[simp] theorem State.putHut_spares (s : State) (x) : (s.putHut x).spares = s.spares := rfl
@[simp] theorem State.putHut_tby (s : State) (x) : (s.putHut x).tby = s.tby := rfl
@[simp] theorem State.putHut_tmr (s : State) (x) : (s.putHut x).tmr = s.tmr := rfl
@[simp] theorem State.putHut_sync (s : State) (x) : (s.putHut x).sync = s.sync := rfl
@[simp] theorem State.putHut_evt (s : State) (x) : (s.putHut x).evt = s.evt := rfl
@[simp] theorem State.putHut_gt (s : State) (x) : (s.putHut x).gt = s.gt := rfl
@[simp] theorem State.putHut_clk (s : State) (x) : (s.putHut x).clk = s.clk := rfl
@[simp] theorem State.putHut_flt (s : State) (x) : (s.putHut x).flt = s.flt := rfl
@[simp] theorem State.putHut_sbd (s : State) (x) : (s.putHut x).sbd = s.sbd := rfl
@[simp] theorem State.putHut_trs (s : State) (x) : (s.putHut x).trs = s.trs := rfl
@[simp] theorem State.putHut_pcie (s : State) (x) : (s.putHut x).pcie = s.pcie := rfl
@[simp] theorem State.putHut_sec (s : State) (x) : (s.putHut x).sec = s.sec := rfl
@[simp] theorem State.putHut_hut (s : State) (x) : (s.putHut x).hut = x := rfl
@[simp] theorem State.putHut_flash (s : State) (x) : (s.putHut x).flash = s.flash := rfl
@[simp] theorem State.putHut_fuse (s : State) (x) : (s.putHut x).fuse = s.fuse := rfl
@[simp] theorem State.putHut_rst (s : State) (x) : (s.putHut x).rst = s.rst := rfl
@[simp] theorem State.putHut_pwr (s : State) (x) : (s.putHut x).pwr = s.pwr := rfl
@[simp] theorem State.putHut_mgmt (s : State) (x) : (s.putHut x).mgmt = s.mgmt := rfl
@[simp] theorem State.putHut_logSeq (s : State) (x) : (s.putHut x).logSeq = s.logSeq := rfl
@[simp] theorem State.putHut_lost (s : State) (x) : (s.putHut x).lost = s.lost := rfl
@[simp] theorem State.putHut_cyc (s : State) (x) : (s.putHut x).cyc = s.cyc := rfl
@[simp] theorem State.putHut_pulse (s : State) (x) : (s.putHut x).pulse = s.pulse := rfl
@[simp] theorem State.putHut_cycZero (s : State) (x) : (s.putHut x).cycZero = s.cycZero := rfl
@[simp] theorem State.putHut_skipped (s : State) (x) : (s.putHut x).skipped = s.skipped := rfl
@[simp] theorem State.putHut_fresh (s : State) (x) : (s.putHut x).fresh = s.fresh := rfl
@[simp] theorem State.putHut_out (s : State) (x) : (s.putHut x).out = s.out := rfl
@[simp] theorem State.putHut_pending (s : State) (x) : (s.putHut x).pending = s.pending := rfl
@[simp] theorem State.putFlash_regs (s : State) (x) : (s.putFlash x).regs = s.regs := rfl
@[simp] theorem State.putFlash_rwo (s : State) (x) : (s.putFlash x).rwo = s.rwo := rfl
@[simp] theorem State.putFlash_mem (s : State) (x) : (s.putFlash x).mem = s.mem := rfl
@[simp] theorem State.putFlash_benches (s : State) (x) : (s.putFlash x).benches = s.benches := rfl
@[simp] theorem State.putFlash_desks (s : State) (x) : (s.putFlash x).desks = s.desks := rfl
@[simp] theorem State.putFlash_map (s : State) (x) : (s.putFlash x).map = s.map := rfl
@[simp] theorem State.putFlash_spares (s : State) (x) : (s.putFlash x).spares = s.spares := rfl
@[simp] theorem State.putFlash_tby (s : State) (x) : (s.putFlash x).tby = s.tby := rfl
@[simp] theorem State.putFlash_tmr (s : State) (x) : (s.putFlash x).tmr = s.tmr := rfl
@[simp] theorem State.putFlash_sync (s : State) (x) : (s.putFlash x).sync = s.sync := rfl
@[simp] theorem State.putFlash_evt (s : State) (x) : (s.putFlash x).evt = s.evt := rfl
@[simp] theorem State.putFlash_gt (s : State) (x) : (s.putFlash x).gt = s.gt := rfl
@[simp] theorem State.putFlash_clk (s : State) (x) : (s.putFlash x).clk = s.clk := rfl
@[simp] theorem State.putFlash_flt (s : State) (x) : (s.putFlash x).flt = s.flt := rfl
@[simp] theorem State.putFlash_sbd (s : State) (x) : (s.putFlash x).sbd = s.sbd := rfl
@[simp] theorem State.putFlash_trs (s : State) (x) : (s.putFlash x).trs = s.trs := rfl
@[simp] theorem State.putFlash_pcie (s : State) (x) : (s.putFlash x).pcie = s.pcie := rfl
@[simp] theorem State.putFlash_sec (s : State) (x) : (s.putFlash x).sec = s.sec := rfl
@[simp] theorem State.putFlash_hut (s : State) (x) : (s.putFlash x).hut = s.hut := rfl
@[simp] theorem State.putFlash_flash (s : State) (x) : (s.putFlash x).flash = x := rfl
@[simp] theorem State.putFlash_fuse (s : State) (x) : (s.putFlash x).fuse = s.fuse := rfl
@[simp] theorem State.putFlash_rst (s : State) (x) : (s.putFlash x).rst = s.rst := rfl
@[simp] theorem State.putFlash_pwr (s : State) (x) : (s.putFlash x).pwr = s.pwr := rfl
@[simp] theorem State.putFlash_mgmt (s : State) (x) : (s.putFlash x).mgmt = s.mgmt := rfl
@[simp] theorem State.putFlash_logSeq (s : State) (x) : (s.putFlash x).logSeq = s.logSeq := rfl
@[simp] theorem State.putFlash_lost (s : State) (x) : (s.putFlash x).lost = s.lost := rfl
@[simp] theorem State.putFlash_cyc (s : State) (x) : (s.putFlash x).cyc = s.cyc := rfl
@[simp] theorem State.putFlash_pulse (s : State) (x) : (s.putFlash x).pulse = s.pulse := rfl
@[simp] theorem State.putFlash_cycZero (s : State) (x) : (s.putFlash x).cycZero = s.cycZero := rfl
@[simp] theorem State.putFlash_skipped (s : State) (x) : (s.putFlash x).skipped = s.skipped := rfl
@[simp] theorem State.putFlash_fresh (s : State) (x) : (s.putFlash x).fresh = s.fresh := rfl
@[simp] theorem State.putFlash_out (s : State) (x) : (s.putFlash x).out = s.out := rfl
@[simp] theorem State.putFlash_pending (s : State) (x) : (s.putFlash x).pending = s.pending := rfl
@[simp] theorem State.putFuse_regs (s : State) (x) : (s.putFuse x).regs = s.regs := rfl
@[simp] theorem State.putFuse_rwo (s : State) (x) : (s.putFuse x).rwo = s.rwo := rfl
@[simp] theorem State.putFuse_mem (s : State) (x) : (s.putFuse x).mem = s.mem := rfl
@[simp] theorem State.putFuse_benches (s : State) (x) : (s.putFuse x).benches = s.benches := rfl
@[simp] theorem State.putFuse_desks (s : State) (x) : (s.putFuse x).desks = s.desks := rfl
@[simp] theorem State.putFuse_map (s : State) (x) : (s.putFuse x).map = s.map := rfl
@[simp] theorem State.putFuse_spares (s : State) (x) : (s.putFuse x).spares = s.spares := rfl
@[simp] theorem State.putFuse_tby (s : State) (x) : (s.putFuse x).tby = s.tby := rfl
@[simp] theorem State.putFuse_tmr (s : State) (x) : (s.putFuse x).tmr = s.tmr := rfl
@[simp] theorem State.putFuse_sync (s : State) (x) : (s.putFuse x).sync = s.sync := rfl
@[simp] theorem State.putFuse_evt (s : State) (x) : (s.putFuse x).evt = s.evt := rfl
@[simp] theorem State.putFuse_gt (s : State) (x) : (s.putFuse x).gt = s.gt := rfl
@[simp] theorem State.putFuse_clk (s : State) (x) : (s.putFuse x).clk = s.clk := rfl
@[simp] theorem State.putFuse_flt (s : State) (x) : (s.putFuse x).flt = s.flt := rfl
@[simp] theorem State.putFuse_sbd (s : State) (x) : (s.putFuse x).sbd = s.sbd := rfl
@[simp] theorem State.putFuse_trs (s : State) (x) : (s.putFuse x).trs = s.trs := rfl
@[simp] theorem State.putFuse_pcie (s : State) (x) : (s.putFuse x).pcie = s.pcie := rfl
@[simp] theorem State.putFuse_sec (s : State) (x) : (s.putFuse x).sec = s.sec := rfl
@[simp] theorem State.putFuse_hut (s : State) (x) : (s.putFuse x).hut = s.hut := rfl
@[simp] theorem State.putFuse_flash (s : State) (x) : (s.putFuse x).flash = s.flash := rfl
@[simp] theorem State.putFuse_fuse (s : State) (x) : (s.putFuse x).fuse = x := rfl
@[simp] theorem State.putFuse_rst (s : State) (x) : (s.putFuse x).rst = s.rst := rfl
@[simp] theorem State.putFuse_pwr (s : State) (x) : (s.putFuse x).pwr = s.pwr := rfl
@[simp] theorem State.putFuse_mgmt (s : State) (x) : (s.putFuse x).mgmt = s.mgmt := rfl
@[simp] theorem State.putFuse_logSeq (s : State) (x) : (s.putFuse x).logSeq = s.logSeq := rfl
@[simp] theorem State.putFuse_lost (s : State) (x) : (s.putFuse x).lost = s.lost := rfl
@[simp] theorem State.putFuse_cyc (s : State) (x) : (s.putFuse x).cyc = s.cyc := rfl
@[simp] theorem State.putFuse_pulse (s : State) (x) : (s.putFuse x).pulse = s.pulse := rfl
@[simp] theorem State.putFuse_cycZero (s : State) (x) : (s.putFuse x).cycZero = s.cycZero := rfl
@[simp] theorem State.putFuse_skipped (s : State) (x) : (s.putFuse x).skipped = s.skipped := rfl
@[simp] theorem State.putFuse_fresh (s : State) (x) : (s.putFuse x).fresh = s.fresh := rfl
@[simp] theorem State.putFuse_out (s : State) (x) : (s.putFuse x).out = s.out := rfl
@[simp] theorem State.putFuse_pending (s : State) (x) : (s.putFuse x).pending = s.pending := rfl
@[simp] theorem State.putRst_regs (s : State) (x) : (s.putRst x).regs = s.regs := rfl
@[simp] theorem State.putRst_rwo (s : State) (x) : (s.putRst x).rwo = s.rwo := rfl
@[simp] theorem State.putRst_mem (s : State) (x) : (s.putRst x).mem = s.mem := rfl
@[simp] theorem State.putRst_benches (s : State) (x) : (s.putRst x).benches = s.benches := rfl
@[simp] theorem State.putRst_desks (s : State) (x) : (s.putRst x).desks = s.desks := rfl
@[simp] theorem State.putRst_map (s : State) (x) : (s.putRst x).map = s.map := rfl
@[simp] theorem State.putRst_spares (s : State) (x) : (s.putRst x).spares = s.spares := rfl
@[simp] theorem State.putRst_tby (s : State) (x) : (s.putRst x).tby = s.tby := rfl
@[simp] theorem State.putRst_tmr (s : State) (x) : (s.putRst x).tmr = s.tmr := rfl
@[simp] theorem State.putRst_sync (s : State) (x) : (s.putRst x).sync = s.sync := rfl
@[simp] theorem State.putRst_evt (s : State) (x) : (s.putRst x).evt = s.evt := rfl
@[simp] theorem State.putRst_gt (s : State) (x) : (s.putRst x).gt = s.gt := rfl
@[simp] theorem State.putRst_clk (s : State) (x) : (s.putRst x).clk = s.clk := rfl
@[simp] theorem State.putRst_flt (s : State) (x) : (s.putRst x).flt = s.flt := rfl
@[simp] theorem State.putRst_sbd (s : State) (x) : (s.putRst x).sbd = s.sbd := rfl
@[simp] theorem State.putRst_trs (s : State) (x) : (s.putRst x).trs = s.trs := rfl
@[simp] theorem State.putRst_pcie (s : State) (x) : (s.putRst x).pcie = s.pcie := rfl
@[simp] theorem State.putRst_sec (s : State) (x) : (s.putRst x).sec = s.sec := rfl
@[simp] theorem State.putRst_hut (s : State) (x) : (s.putRst x).hut = s.hut := rfl
@[simp] theorem State.putRst_flash (s : State) (x) : (s.putRst x).flash = s.flash := rfl
@[simp] theorem State.putRst_fuse (s : State) (x) : (s.putRst x).fuse = s.fuse := rfl
@[simp] theorem State.putRst_rst (s : State) (x) : (s.putRst x).rst = x := rfl
@[simp] theorem State.putRst_pwr (s : State) (x) : (s.putRst x).pwr = s.pwr := rfl
@[simp] theorem State.putRst_mgmt (s : State) (x) : (s.putRst x).mgmt = s.mgmt := rfl
@[simp] theorem State.putRst_logSeq (s : State) (x) : (s.putRst x).logSeq = s.logSeq := rfl
@[simp] theorem State.putRst_lost (s : State) (x) : (s.putRst x).lost = s.lost := rfl
@[simp] theorem State.putRst_cyc (s : State) (x) : (s.putRst x).cyc = s.cyc := rfl
@[simp] theorem State.putRst_pulse (s : State) (x) : (s.putRst x).pulse = s.pulse := rfl
@[simp] theorem State.putRst_cycZero (s : State) (x) : (s.putRst x).cycZero = s.cycZero := rfl
@[simp] theorem State.putRst_skipped (s : State) (x) : (s.putRst x).skipped = s.skipped := rfl
@[simp] theorem State.putRst_fresh (s : State) (x) : (s.putRst x).fresh = s.fresh := rfl
@[simp] theorem State.putRst_out (s : State) (x) : (s.putRst x).out = s.out := rfl
@[simp] theorem State.putRst_pending (s : State) (x) : (s.putRst x).pending = s.pending := rfl
@[simp] theorem State.putPwr_regs (s : State) (x) : (s.putPwr x).regs = s.regs := rfl
@[simp] theorem State.putPwr_rwo (s : State) (x) : (s.putPwr x).rwo = s.rwo := rfl
@[simp] theorem State.putPwr_mem (s : State) (x) : (s.putPwr x).mem = s.mem := rfl
@[simp] theorem State.putPwr_benches (s : State) (x) : (s.putPwr x).benches = s.benches := rfl
@[simp] theorem State.putPwr_desks (s : State) (x) : (s.putPwr x).desks = s.desks := rfl
@[simp] theorem State.putPwr_map (s : State) (x) : (s.putPwr x).map = s.map := rfl
@[simp] theorem State.putPwr_spares (s : State) (x) : (s.putPwr x).spares = s.spares := rfl
@[simp] theorem State.putPwr_tby (s : State) (x) : (s.putPwr x).tby = s.tby := rfl
@[simp] theorem State.putPwr_tmr (s : State) (x) : (s.putPwr x).tmr = s.tmr := rfl
@[simp] theorem State.putPwr_sync (s : State) (x) : (s.putPwr x).sync = s.sync := rfl
@[simp] theorem State.putPwr_evt (s : State) (x) : (s.putPwr x).evt = s.evt := rfl
@[simp] theorem State.putPwr_gt (s : State) (x) : (s.putPwr x).gt = s.gt := rfl
@[simp] theorem State.putPwr_clk (s : State) (x) : (s.putPwr x).clk = s.clk := rfl
@[simp] theorem State.putPwr_flt (s : State) (x) : (s.putPwr x).flt = s.flt := rfl
@[simp] theorem State.putPwr_sbd (s : State) (x) : (s.putPwr x).sbd = s.sbd := rfl
@[simp] theorem State.putPwr_trs (s : State) (x) : (s.putPwr x).trs = s.trs := rfl
@[simp] theorem State.putPwr_pcie (s : State) (x) : (s.putPwr x).pcie = s.pcie := rfl
@[simp] theorem State.putPwr_sec (s : State) (x) : (s.putPwr x).sec = s.sec := rfl
@[simp] theorem State.putPwr_hut (s : State) (x) : (s.putPwr x).hut = s.hut := rfl
@[simp] theorem State.putPwr_flash (s : State) (x) : (s.putPwr x).flash = s.flash := rfl
@[simp] theorem State.putPwr_fuse (s : State) (x) : (s.putPwr x).fuse = s.fuse := rfl
@[simp] theorem State.putPwr_rst (s : State) (x) : (s.putPwr x).rst = s.rst := rfl
@[simp] theorem State.putPwr_pwr (s : State) (x) : (s.putPwr x).pwr = x := rfl
@[simp] theorem State.putPwr_mgmt (s : State) (x) : (s.putPwr x).mgmt = s.mgmt := rfl
@[simp] theorem State.putPwr_logSeq (s : State) (x) : (s.putPwr x).logSeq = s.logSeq := rfl
@[simp] theorem State.putPwr_lost (s : State) (x) : (s.putPwr x).lost = s.lost := rfl
@[simp] theorem State.putPwr_cyc (s : State) (x) : (s.putPwr x).cyc = s.cyc := rfl
@[simp] theorem State.putPwr_pulse (s : State) (x) : (s.putPwr x).pulse = s.pulse := rfl
@[simp] theorem State.putPwr_cycZero (s : State) (x) : (s.putPwr x).cycZero = s.cycZero := rfl
@[simp] theorem State.putPwr_skipped (s : State) (x) : (s.putPwr x).skipped = s.skipped := rfl
@[simp] theorem State.putPwr_fresh (s : State) (x) : (s.putPwr x).fresh = s.fresh := rfl
@[simp] theorem State.putPwr_out (s : State) (x) : (s.putPwr x).out = s.out := rfl
@[simp] theorem State.putPwr_pending (s : State) (x) : (s.putPwr x).pending = s.pending := rfl
@[simp] theorem State.putMgmt_regs (s : State) (x) : (s.putMgmt x).regs = s.regs := rfl
@[simp] theorem State.putMgmt_rwo (s : State) (x) : (s.putMgmt x).rwo = s.rwo := rfl
@[simp] theorem State.putMgmt_mem (s : State) (x) : (s.putMgmt x).mem = s.mem := rfl
@[simp] theorem State.putMgmt_benches (s : State) (x) : (s.putMgmt x).benches = s.benches := rfl
@[simp] theorem State.putMgmt_desks (s : State) (x) : (s.putMgmt x).desks = s.desks := rfl
@[simp] theorem State.putMgmt_map (s : State) (x) : (s.putMgmt x).map = s.map := rfl
@[simp] theorem State.putMgmt_spares (s : State) (x) : (s.putMgmt x).spares = s.spares := rfl
@[simp] theorem State.putMgmt_tby (s : State) (x) : (s.putMgmt x).tby = s.tby := rfl
@[simp] theorem State.putMgmt_tmr (s : State) (x) : (s.putMgmt x).tmr = s.tmr := rfl
@[simp] theorem State.putMgmt_sync (s : State) (x) : (s.putMgmt x).sync = s.sync := rfl
@[simp] theorem State.putMgmt_evt (s : State) (x) : (s.putMgmt x).evt = s.evt := rfl
@[simp] theorem State.putMgmt_gt (s : State) (x) : (s.putMgmt x).gt = s.gt := rfl
@[simp] theorem State.putMgmt_clk (s : State) (x) : (s.putMgmt x).clk = s.clk := rfl
@[simp] theorem State.putMgmt_flt (s : State) (x) : (s.putMgmt x).flt = s.flt := rfl
@[simp] theorem State.putMgmt_sbd (s : State) (x) : (s.putMgmt x).sbd = s.sbd := rfl
@[simp] theorem State.putMgmt_trs (s : State) (x) : (s.putMgmt x).trs = s.trs := rfl
@[simp] theorem State.putMgmt_pcie (s : State) (x) : (s.putMgmt x).pcie = s.pcie := rfl
@[simp] theorem State.putMgmt_sec (s : State) (x) : (s.putMgmt x).sec = s.sec := rfl
@[simp] theorem State.putMgmt_hut (s : State) (x) : (s.putMgmt x).hut = s.hut := rfl
@[simp] theorem State.putMgmt_flash (s : State) (x) : (s.putMgmt x).flash = s.flash := rfl
@[simp] theorem State.putMgmt_fuse (s : State) (x) : (s.putMgmt x).fuse = s.fuse := rfl
@[simp] theorem State.putMgmt_rst (s : State) (x) : (s.putMgmt x).rst = s.rst := rfl
@[simp] theorem State.putMgmt_pwr (s : State) (x) : (s.putMgmt x).pwr = s.pwr := rfl
@[simp] theorem State.putMgmt_mgmt (s : State) (x) : (s.putMgmt x).mgmt = x := rfl
@[simp] theorem State.putMgmt_logSeq (s : State) (x) : (s.putMgmt x).logSeq = s.logSeq := rfl
@[simp] theorem State.putMgmt_lost (s : State) (x) : (s.putMgmt x).lost = s.lost := rfl
@[simp] theorem State.putMgmt_cyc (s : State) (x) : (s.putMgmt x).cyc = s.cyc := rfl
@[simp] theorem State.putMgmt_pulse (s : State) (x) : (s.putMgmt x).pulse = s.pulse := rfl
@[simp] theorem State.putMgmt_cycZero (s : State) (x) : (s.putMgmt x).cycZero = s.cycZero := rfl
@[simp] theorem State.putMgmt_skipped (s : State) (x) : (s.putMgmt x).skipped = s.skipped := rfl
@[simp] theorem State.putMgmt_fresh (s : State) (x) : (s.putMgmt x).fresh = s.fresh := rfl
@[simp] theorem State.putMgmt_out (s : State) (x) : (s.putMgmt x).out = s.out := rfl
@[simp] theorem State.putMgmt_pending (s : State) (x) : (s.putMgmt x).pending = s.pending := rfl
@[simp] theorem State.putLogSeq_regs (s : State) (x) : (s.putLogSeq x).regs = s.regs := rfl
@[simp] theorem State.putLogSeq_rwo (s : State) (x) : (s.putLogSeq x).rwo = s.rwo := rfl
@[simp] theorem State.putLogSeq_mem (s : State) (x) : (s.putLogSeq x).mem = s.mem := rfl
@[simp] theorem State.putLogSeq_benches (s : State) (x) : (s.putLogSeq x).benches = s.benches := rfl
@[simp] theorem State.putLogSeq_desks (s : State) (x) : (s.putLogSeq x).desks = s.desks := rfl
@[simp] theorem State.putLogSeq_map (s : State) (x) : (s.putLogSeq x).map = s.map := rfl
@[simp] theorem State.putLogSeq_spares (s : State) (x) : (s.putLogSeq x).spares = s.spares := rfl
@[simp] theorem State.putLogSeq_tby (s : State) (x) : (s.putLogSeq x).tby = s.tby := rfl
@[simp] theorem State.putLogSeq_tmr (s : State) (x) : (s.putLogSeq x).tmr = s.tmr := rfl
@[simp] theorem State.putLogSeq_sync (s : State) (x) : (s.putLogSeq x).sync = s.sync := rfl
@[simp] theorem State.putLogSeq_evt (s : State) (x) : (s.putLogSeq x).evt = s.evt := rfl
@[simp] theorem State.putLogSeq_gt (s : State) (x) : (s.putLogSeq x).gt = s.gt := rfl
@[simp] theorem State.putLogSeq_clk (s : State) (x) : (s.putLogSeq x).clk = s.clk := rfl
@[simp] theorem State.putLogSeq_flt (s : State) (x) : (s.putLogSeq x).flt = s.flt := rfl
@[simp] theorem State.putLogSeq_sbd (s : State) (x) : (s.putLogSeq x).sbd = s.sbd := rfl
@[simp] theorem State.putLogSeq_trs (s : State) (x) : (s.putLogSeq x).trs = s.trs := rfl
@[simp] theorem State.putLogSeq_pcie (s : State) (x) : (s.putLogSeq x).pcie = s.pcie := rfl
@[simp] theorem State.putLogSeq_sec (s : State) (x) : (s.putLogSeq x).sec = s.sec := rfl
@[simp] theorem State.putLogSeq_hut (s : State) (x) : (s.putLogSeq x).hut = s.hut := rfl
@[simp] theorem State.putLogSeq_flash (s : State) (x) : (s.putLogSeq x).flash = s.flash := rfl
@[simp] theorem State.putLogSeq_fuse (s : State) (x) : (s.putLogSeq x).fuse = s.fuse := rfl
@[simp] theorem State.putLogSeq_rst (s : State) (x) : (s.putLogSeq x).rst = s.rst := rfl
@[simp] theorem State.putLogSeq_pwr (s : State) (x) : (s.putLogSeq x).pwr = s.pwr := rfl
@[simp] theorem State.putLogSeq_mgmt (s : State) (x) : (s.putLogSeq x).mgmt = s.mgmt := rfl
@[simp] theorem State.putLogSeq_logSeq (s : State) (x) : (s.putLogSeq x).logSeq = x := rfl
@[simp] theorem State.putLogSeq_lost (s : State) (x) : (s.putLogSeq x).lost = s.lost := rfl
@[simp] theorem State.putLogSeq_cyc (s : State) (x) : (s.putLogSeq x).cyc = s.cyc := rfl
@[simp] theorem State.putLogSeq_pulse (s : State) (x) : (s.putLogSeq x).pulse = s.pulse := rfl
@[simp] theorem State.putLogSeq_cycZero (s : State) (x) : (s.putLogSeq x).cycZero = s.cycZero := rfl
@[simp] theorem State.putLogSeq_skipped (s : State) (x) : (s.putLogSeq x).skipped = s.skipped := rfl
@[simp] theorem State.putLogSeq_fresh (s : State) (x) : (s.putLogSeq x).fresh = s.fresh := rfl
@[simp] theorem State.putLogSeq_out (s : State) (x) : (s.putLogSeq x).out = s.out := rfl
@[simp] theorem State.putLogSeq_pending (s : State) (x) : (s.putLogSeq x).pending = s.pending := rfl
@[simp] theorem State.putLost_regs (s : State) (x) : (s.putLost x).regs = s.regs := rfl
@[simp] theorem State.putLost_rwo (s : State) (x) : (s.putLost x).rwo = s.rwo := rfl
@[simp] theorem State.putLost_mem (s : State) (x) : (s.putLost x).mem = s.mem := rfl
@[simp] theorem State.putLost_benches (s : State) (x) : (s.putLost x).benches = s.benches := rfl
@[simp] theorem State.putLost_desks (s : State) (x) : (s.putLost x).desks = s.desks := rfl
@[simp] theorem State.putLost_map (s : State) (x) : (s.putLost x).map = s.map := rfl
@[simp] theorem State.putLost_spares (s : State) (x) : (s.putLost x).spares = s.spares := rfl
@[simp] theorem State.putLost_tby (s : State) (x) : (s.putLost x).tby = s.tby := rfl
@[simp] theorem State.putLost_tmr (s : State) (x) : (s.putLost x).tmr = s.tmr := rfl
@[simp] theorem State.putLost_sync (s : State) (x) : (s.putLost x).sync = s.sync := rfl
@[simp] theorem State.putLost_evt (s : State) (x) : (s.putLost x).evt = s.evt := rfl
@[simp] theorem State.putLost_gt (s : State) (x) : (s.putLost x).gt = s.gt := rfl
@[simp] theorem State.putLost_clk (s : State) (x) : (s.putLost x).clk = s.clk := rfl
@[simp] theorem State.putLost_flt (s : State) (x) : (s.putLost x).flt = s.flt := rfl
@[simp] theorem State.putLost_sbd (s : State) (x) : (s.putLost x).sbd = s.sbd := rfl
@[simp] theorem State.putLost_trs (s : State) (x) : (s.putLost x).trs = s.trs := rfl
@[simp] theorem State.putLost_pcie (s : State) (x) : (s.putLost x).pcie = s.pcie := rfl
@[simp] theorem State.putLost_sec (s : State) (x) : (s.putLost x).sec = s.sec := rfl
@[simp] theorem State.putLost_hut (s : State) (x) : (s.putLost x).hut = s.hut := rfl
@[simp] theorem State.putLost_flash (s : State) (x) : (s.putLost x).flash = s.flash := rfl
@[simp] theorem State.putLost_fuse (s : State) (x) : (s.putLost x).fuse = s.fuse := rfl
@[simp] theorem State.putLost_rst (s : State) (x) : (s.putLost x).rst = s.rst := rfl
@[simp] theorem State.putLost_pwr (s : State) (x) : (s.putLost x).pwr = s.pwr := rfl
@[simp] theorem State.putLost_mgmt (s : State) (x) : (s.putLost x).mgmt = s.mgmt := rfl
@[simp] theorem State.putLost_logSeq (s : State) (x) : (s.putLost x).logSeq = s.logSeq := rfl
@[simp] theorem State.putLost_lost (s : State) (x) : (s.putLost x).lost = x := rfl
@[simp] theorem State.putLost_cyc (s : State) (x) : (s.putLost x).cyc = s.cyc := rfl
@[simp] theorem State.putLost_pulse (s : State) (x) : (s.putLost x).pulse = s.pulse := rfl
@[simp] theorem State.putLost_cycZero (s : State) (x) : (s.putLost x).cycZero = s.cycZero := rfl
@[simp] theorem State.putLost_skipped (s : State) (x) : (s.putLost x).skipped = s.skipped := rfl
@[simp] theorem State.putLost_fresh (s : State) (x) : (s.putLost x).fresh = s.fresh := rfl
@[simp] theorem State.putLost_out (s : State) (x) : (s.putLost x).out = s.out := rfl
@[simp] theorem State.putLost_pending (s : State) (x) : (s.putLost x).pending = s.pending := rfl
@[simp] theorem State.putCyc_regs (s : State) (x) : (s.putCyc x).regs = s.regs := rfl
@[simp] theorem State.putCyc_rwo (s : State) (x) : (s.putCyc x).rwo = s.rwo := rfl
@[simp] theorem State.putCyc_mem (s : State) (x) : (s.putCyc x).mem = s.mem := rfl
@[simp] theorem State.putCyc_benches (s : State) (x) : (s.putCyc x).benches = s.benches := rfl
@[simp] theorem State.putCyc_desks (s : State) (x) : (s.putCyc x).desks = s.desks := rfl
@[simp] theorem State.putCyc_map (s : State) (x) : (s.putCyc x).map = s.map := rfl
@[simp] theorem State.putCyc_spares (s : State) (x) : (s.putCyc x).spares = s.spares := rfl
@[simp] theorem State.putCyc_tby (s : State) (x) : (s.putCyc x).tby = s.tby := rfl
@[simp] theorem State.putCyc_tmr (s : State) (x) : (s.putCyc x).tmr = s.tmr := rfl
@[simp] theorem State.putCyc_sync (s : State) (x) : (s.putCyc x).sync = s.sync := rfl
@[simp] theorem State.putCyc_evt (s : State) (x) : (s.putCyc x).evt = s.evt := rfl
@[simp] theorem State.putCyc_gt (s : State) (x) : (s.putCyc x).gt = s.gt := rfl
@[simp] theorem State.putCyc_clk (s : State) (x) : (s.putCyc x).clk = s.clk := rfl
@[simp] theorem State.putCyc_flt (s : State) (x) : (s.putCyc x).flt = s.flt := rfl
@[simp] theorem State.putCyc_sbd (s : State) (x) : (s.putCyc x).sbd = s.sbd := rfl
@[simp] theorem State.putCyc_trs (s : State) (x) : (s.putCyc x).trs = s.trs := rfl
@[simp] theorem State.putCyc_pcie (s : State) (x) : (s.putCyc x).pcie = s.pcie := rfl
@[simp] theorem State.putCyc_sec (s : State) (x) : (s.putCyc x).sec = s.sec := rfl
@[simp] theorem State.putCyc_hut (s : State) (x) : (s.putCyc x).hut = s.hut := rfl
@[simp] theorem State.putCyc_flash (s : State) (x) : (s.putCyc x).flash = s.flash := rfl
@[simp] theorem State.putCyc_fuse (s : State) (x) : (s.putCyc x).fuse = s.fuse := rfl
@[simp] theorem State.putCyc_rst (s : State) (x) : (s.putCyc x).rst = s.rst := rfl
@[simp] theorem State.putCyc_pwr (s : State) (x) : (s.putCyc x).pwr = s.pwr := rfl
@[simp] theorem State.putCyc_mgmt (s : State) (x) : (s.putCyc x).mgmt = s.mgmt := rfl
@[simp] theorem State.putCyc_logSeq (s : State) (x) : (s.putCyc x).logSeq = s.logSeq := rfl
@[simp] theorem State.putCyc_lost (s : State) (x) : (s.putCyc x).lost = s.lost := rfl
@[simp] theorem State.putCyc_cyc (s : State) (x) : (s.putCyc x).cyc = x := rfl
@[simp] theorem State.putCyc_pulse (s : State) (x) : (s.putCyc x).pulse = s.pulse := rfl
@[simp] theorem State.putCyc_cycZero (s : State) (x) : (s.putCyc x).cycZero = s.cycZero := rfl
@[simp] theorem State.putCyc_skipped (s : State) (x) : (s.putCyc x).skipped = s.skipped := rfl
@[simp] theorem State.putCyc_fresh (s : State) (x) : (s.putCyc x).fresh = s.fresh := rfl
@[simp] theorem State.putCyc_out (s : State) (x) : (s.putCyc x).out = s.out := rfl
@[simp] theorem State.putCyc_pending (s : State) (x) : (s.putCyc x).pending = s.pending := rfl
@[simp] theorem State.putPulse_regs (s : State) (x) : (s.putPulse x).regs = s.regs := rfl
@[simp] theorem State.putPulse_rwo (s : State) (x) : (s.putPulse x).rwo = s.rwo := rfl
@[simp] theorem State.putPulse_mem (s : State) (x) : (s.putPulse x).mem = s.mem := rfl
@[simp] theorem State.putPulse_benches (s : State) (x) : (s.putPulse x).benches = s.benches := rfl
@[simp] theorem State.putPulse_desks (s : State) (x) : (s.putPulse x).desks = s.desks := rfl
@[simp] theorem State.putPulse_map (s : State) (x) : (s.putPulse x).map = s.map := rfl
@[simp] theorem State.putPulse_spares (s : State) (x) : (s.putPulse x).spares = s.spares := rfl
@[simp] theorem State.putPulse_tby (s : State) (x) : (s.putPulse x).tby = s.tby := rfl
@[simp] theorem State.putPulse_tmr (s : State) (x) : (s.putPulse x).tmr = s.tmr := rfl
@[simp] theorem State.putPulse_sync (s : State) (x) : (s.putPulse x).sync = s.sync := rfl
@[simp] theorem State.putPulse_evt (s : State) (x) : (s.putPulse x).evt = s.evt := rfl
@[simp] theorem State.putPulse_gt (s : State) (x) : (s.putPulse x).gt = s.gt := rfl
@[simp] theorem State.putPulse_clk (s : State) (x) : (s.putPulse x).clk = s.clk := rfl
@[simp] theorem State.putPulse_flt (s : State) (x) : (s.putPulse x).flt = s.flt := rfl
@[simp] theorem State.putPulse_sbd (s : State) (x) : (s.putPulse x).sbd = s.sbd := rfl
@[simp] theorem State.putPulse_trs (s : State) (x) : (s.putPulse x).trs = s.trs := rfl
@[simp] theorem State.putPulse_pcie (s : State) (x) : (s.putPulse x).pcie = s.pcie := rfl
@[simp] theorem State.putPulse_sec (s : State) (x) : (s.putPulse x).sec = s.sec := rfl
@[simp] theorem State.putPulse_hut (s : State) (x) : (s.putPulse x).hut = s.hut := rfl
@[simp] theorem State.putPulse_flash (s : State) (x) : (s.putPulse x).flash = s.flash := rfl
@[simp] theorem State.putPulse_fuse (s : State) (x) : (s.putPulse x).fuse = s.fuse := rfl
@[simp] theorem State.putPulse_rst (s : State) (x) : (s.putPulse x).rst = s.rst := rfl
@[simp] theorem State.putPulse_pwr (s : State) (x) : (s.putPulse x).pwr = s.pwr := rfl
@[simp] theorem State.putPulse_mgmt (s : State) (x) : (s.putPulse x).mgmt = s.mgmt := rfl
@[simp] theorem State.putPulse_logSeq (s : State) (x) : (s.putPulse x).logSeq = s.logSeq := rfl
@[simp] theorem State.putPulse_lost (s : State) (x) : (s.putPulse x).lost = s.lost := rfl
@[simp] theorem State.putPulse_cyc (s : State) (x) : (s.putPulse x).cyc = s.cyc := rfl
@[simp] theorem State.putPulse_pulse (s : State) (x) : (s.putPulse x).pulse = x := rfl
@[simp] theorem State.putPulse_cycZero (s : State) (x) : (s.putPulse x).cycZero = s.cycZero := rfl
@[simp] theorem State.putPulse_skipped (s : State) (x) : (s.putPulse x).skipped = s.skipped := rfl
@[simp] theorem State.putPulse_fresh (s : State) (x) : (s.putPulse x).fresh = s.fresh := rfl
@[simp] theorem State.putPulse_out (s : State) (x) : (s.putPulse x).out = s.out := rfl
@[simp] theorem State.putPulse_pending (s : State) (x) : (s.putPulse x).pending = s.pending := rfl
@[simp] theorem State.putCycZero_regs (s : State) (x) : (s.putCycZero x).regs = s.regs := rfl
@[simp] theorem State.putCycZero_rwo (s : State) (x) : (s.putCycZero x).rwo = s.rwo := rfl
@[simp] theorem State.putCycZero_mem (s : State) (x) : (s.putCycZero x).mem = s.mem := rfl
@[simp] theorem State.putCycZero_benches (s : State) (x) : (s.putCycZero x).benches = s.benches := rfl
@[simp] theorem State.putCycZero_desks (s : State) (x) : (s.putCycZero x).desks = s.desks := rfl
@[simp] theorem State.putCycZero_map (s : State) (x) : (s.putCycZero x).map = s.map := rfl
@[simp] theorem State.putCycZero_spares (s : State) (x) : (s.putCycZero x).spares = s.spares := rfl
@[simp] theorem State.putCycZero_tby (s : State) (x) : (s.putCycZero x).tby = s.tby := rfl
@[simp] theorem State.putCycZero_tmr (s : State) (x) : (s.putCycZero x).tmr = s.tmr := rfl
@[simp] theorem State.putCycZero_sync (s : State) (x) : (s.putCycZero x).sync = s.sync := rfl
@[simp] theorem State.putCycZero_evt (s : State) (x) : (s.putCycZero x).evt = s.evt := rfl
@[simp] theorem State.putCycZero_gt (s : State) (x) : (s.putCycZero x).gt = s.gt := rfl
@[simp] theorem State.putCycZero_clk (s : State) (x) : (s.putCycZero x).clk = s.clk := rfl
@[simp] theorem State.putCycZero_flt (s : State) (x) : (s.putCycZero x).flt = s.flt := rfl
@[simp] theorem State.putCycZero_sbd (s : State) (x) : (s.putCycZero x).sbd = s.sbd := rfl
@[simp] theorem State.putCycZero_trs (s : State) (x) : (s.putCycZero x).trs = s.trs := rfl
@[simp] theorem State.putCycZero_pcie (s : State) (x) : (s.putCycZero x).pcie = s.pcie := rfl
@[simp] theorem State.putCycZero_sec (s : State) (x) : (s.putCycZero x).sec = s.sec := rfl
@[simp] theorem State.putCycZero_hut (s : State) (x) : (s.putCycZero x).hut = s.hut := rfl
@[simp] theorem State.putCycZero_flash (s : State) (x) : (s.putCycZero x).flash = s.flash := rfl
@[simp] theorem State.putCycZero_fuse (s : State) (x) : (s.putCycZero x).fuse = s.fuse := rfl
@[simp] theorem State.putCycZero_rst (s : State) (x) : (s.putCycZero x).rst = s.rst := rfl
@[simp] theorem State.putCycZero_pwr (s : State) (x) : (s.putCycZero x).pwr = s.pwr := rfl
@[simp] theorem State.putCycZero_mgmt (s : State) (x) : (s.putCycZero x).mgmt = s.mgmt := rfl
@[simp] theorem State.putCycZero_logSeq (s : State) (x) : (s.putCycZero x).logSeq = s.logSeq := rfl
@[simp] theorem State.putCycZero_lost (s : State) (x) : (s.putCycZero x).lost = s.lost := rfl
@[simp] theorem State.putCycZero_cyc (s : State) (x) : (s.putCycZero x).cyc = s.cyc := rfl
@[simp] theorem State.putCycZero_pulse (s : State) (x) : (s.putCycZero x).pulse = s.pulse := rfl
@[simp] theorem State.putCycZero_cycZero (s : State) (x) : (s.putCycZero x).cycZero = x := rfl
@[simp] theorem State.putCycZero_skipped (s : State) (x) : (s.putCycZero x).skipped = s.skipped := rfl
@[simp] theorem State.putCycZero_fresh (s : State) (x) : (s.putCycZero x).fresh = s.fresh := rfl
@[simp] theorem State.putCycZero_out (s : State) (x) : (s.putCycZero x).out = s.out := rfl
@[simp] theorem State.putCycZero_pending (s : State) (x) : (s.putCycZero x).pending = s.pending := rfl
@[simp] theorem State.putSkipped_regs (s : State) (x) : (s.putSkipped x).regs = s.regs := rfl
@[simp] theorem State.putSkipped_rwo (s : State) (x) : (s.putSkipped x).rwo = s.rwo := rfl
@[simp] theorem State.putSkipped_mem (s : State) (x) : (s.putSkipped x).mem = s.mem := rfl
@[simp] theorem State.putSkipped_benches (s : State) (x) : (s.putSkipped x).benches = s.benches := rfl
@[simp] theorem State.putSkipped_desks (s : State) (x) : (s.putSkipped x).desks = s.desks := rfl
@[simp] theorem State.putSkipped_map (s : State) (x) : (s.putSkipped x).map = s.map := rfl
@[simp] theorem State.putSkipped_spares (s : State) (x) : (s.putSkipped x).spares = s.spares := rfl
@[simp] theorem State.putSkipped_tby (s : State) (x) : (s.putSkipped x).tby = s.tby := rfl
@[simp] theorem State.putSkipped_tmr (s : State) (x) : (s.putSkipped x).tmr = s.tmr := rfl
@[simp] theorem State.putSkipped_sync (s : State) (x) : (s.putSkipped x).sync = s.sync := rfl
@[simp] theorem State.putSkipped_evt (s : State) (x) : (s.putSkipped x).evt = s.evt := rfl
@[simp] theorem State.putSkipped_gt (s : State) (x) : (s.putSkipped x).gt = s.gt := rfl
@[simp] theorem State.putSkipped_clk (s : State) (x) : (s.putSkipped x).clk = s.clk := rfl
@[simp] theorem State.putSkipped_flt (s : State) (x) : (s.putSkipped x).flt = s.flt := rfl
@[simp] theorem State.putSkipped_sbd (s : State) (x) : (s.putSkipped x).sbd = s.sbd := rfl
@[simp] theorem State.putSkipped_trs (s : State) (x) : (s.putSkipped x).trs = s.trs := rfl
@[simp] theorem State.putSkipped_pcie (s : State) (x) : (s.putSkipped x).pcie = s.pcie := rfl
@[simp] theorem State.putSkipped_sec (s : State) (x) : (s.putSkipped x).sec = s.sec := rfl
@[simp] theorem State.putSkipped_hut (s : State) (x) : (s.putSkipped x).hut = s.hut := rfl
@[simp] theorem State.putSkipped_flash (s : State) (x) : (s.putSkipped x).flash = s.flash := rfl
@[simp] theorem State.putSkipped_fuse (s : State) (x) : (s.putSkipped x).fuse = s.fuse := rfl
@[simp] theorem State.putSkipped_rst (s : State) (x) : (s.putSkipped x).rst = s.rst := rfl
@[simp] theorem State.putSkipped_pwr (s : State) (x) : (s.putSkipped x).pwr = s.pwr := rfl
@[simp] theorem State.putSkipped_mgmt (s : State) (x) : (s.putSkipped x).mgmt = s.mgmt := rfl
@[simp] theorem State.putSkipped_logSeq (s : State) (x) : (s.putSkipped x).logSeq = s.logSeq := rfl
@[simp] theorem State.putSkipped_lost (s : State) (x) : (s.putSkipped x).lost = s.lost := rfl
@[simp] theorem State.putSkipped_cyc (s : State) (x) : (s.putSkipped x).cyc = s.cyc := rfl
@[simp] theorem State.putSkipped_pulse (s : State) (x) : (s.putSkipped x).pulse = s.pulse := rfl
@[simp] theorem State.putSkipped_cycZero (s : State) (x) : (s.putSkipped x).cycZero = s.cycZero := rfl
@[simp] theorem State.putSkipped_skipped (s : State) (x) : (s.putSkipped x).skipped = x := rfl
@[simp] theorem State.putSkipped_fresh (s : State) (x) : (s.putSkipped x).fresh = s.fresh := rfl
@[simp] theorem State.putSkipped_out (s : State) (x) : (s.putSkipped x).out = s.out := rfl
@[simp] theorem State.putSkipped_pending (s : State) (x) : (s.putSkipped x).pending = s.pending := rfl
@[simp] theorem State.putFresh_regs (s : State) (x) : (s.putFresh x).regs = s.regs := rfl
@[simp] theorem State.putFresh_rwo (s : State) (x) : (s.putFresh x).rwo = s.rwo := rfl
@[simp] theorem State.putFresh_mem (s : State) (x) : (s.putFresh x).mem = s.mem := rfl
@[simp] theorem State.putFresh_benches (s : State) (x) : (s.putFresh x).benches = s.benches := rfl
@[simp] theorem State.putFresh_desks (s : State) (x) : (s.putFresh x).desks = s.desks := rfl
@[simp] theorem State.putFresh_map (s : State) (x) : (s.putFresh x).map = s.map := rfl
@[simp] theorem State.putFresh_spares (s : State) (x) : (s.putFresh x).spares = s.spares := rfl
@[simp] theorem State.putFresh_tby (s : State) (x) : (s.putFresh x).tby = s.tby := rfl
@[simp] theorem State.putFresh_tmr (s : State) (x) : (s.putFresh x).tmr = s.tmr := rfl
@[simp] theorem State.putFresh_sync (s : State) (x) : (s.putFresh x).sync = s.sync := rfl
@[simp] theorem State.putFresh_evt (s : State) (x) : (s.putFresh x).evt = s.evt := rfl
@[simp] theorem State.putFresh_gt (s : State) (x) : (s.putFresh x).gt = s.gt := rfl
@[simp] theorem State.putFresh_clk (s : State) (x) : (s.putFresh x).clk = s.clk := rfl
@[simp] theorem State.putFresh_flt (s : State) (x) : (s.putFresh x).flt = s.flt := rfl
@[simp] theorem State.putFresh_sbd (s : State) (x) : (s.putFresh x).sbd = s.sbd := rfl
@[simp] theorem State.putFresh_trs (s : State) (x) : (s.putFresh x).trs = s.trs := rfl
@[simp] theorem State.putFresh_pcie (s : State) (x) : (s.putFresh x).pcie = s.pcie := rfl
@[simp] theorem State.putFresh_sec (s : State) (x) : (s.putFresh x).sec = s.sec := rfl
@[simp] theorem State.putFresh_hut (s : State) (x) : (s.putFresh x).hut = s.hut := rfl
@[simp] theorem State.putFresh_flash (s : State) (x) : (s.putFresh x).flash = s.flash := rfl
@[simp] theorem State.putFresh_fuse (s : State) (x) : (s.putFresh x).fuse = s.fuse := rfl
@[simp] theorem State.putFresh_rst (s : State) (x) : (s.putFresh x).rst = s.rst := rfl
@[simp] theorem State.putFresh_pwr (s : State) (x) : (s.putFresh x).pwr = s.pwr := rfl
@[simp] theorem State.putFresh_mgmt (s : State) (x) : (s.putFresh x).mgmt = s.mgmt := rfl
@[simp] theorem State.putFresh_logSeq (s : State) (x) : (s.putFresh x).logSeq = s.logSeq := rfl
@[simp] theorem State.putFresh_lost (s : State) (x) : (s.putFresh x).lost = s.lost := rfl
@[simp] theorem State.putFresh_cyc (s : State) (x) : (s.putFresh x).cyc = s.cyc := rfl
@[simp] theorem State.putFresh_pulse (s : State) (x) : (s.putFresh x).pulse = s.pulse := rfl
@[simp] theorem State.putFresh_cycZero (s : State) (x) : (s.putFresh x).cycZero = s.cycZero := rfl
@[simp] theorem State.putFresh_skipped (s : State) (x) : (s.putFresh x).skipped = s.skipped := rfl
@[simp] theorem State.putFresh_fresh (s : State) (x) : (s.putFresh x).fresh = x := rfl
@[simp] theorem State.putFresh_out (s : State) (x) : (s.putFresh x).out = s.out := rfl
@[simp] theorem State.putFresh_pending (s : State) (x) : (s.putFresh x).pending = s.pending := rfl
@[simp] theorem State.putOut_regs (s : State) (x) : (s.putOut x).regs = s.regs := rfl
@[simp] theorem State.putOut_rwo (s : State) (x) : (s.putOut x).rwo = s.rwo := rfl
@[simp] theorem State.putOut_mem (s : State) (x) : (s.putOut x).mem = s.mem := rfl
@[simp] theorem State.putOut_benches (s : State) (x) : (s.putOut x).benches = s.benches := rfl
@[simp] theorem State.putOut_desks (s : State) (x) : (s.putOut x).desks = s.desks := rfl
@[simp] theorem State.putOut_map (s : State) (x) : (s.putOut x).map = s.map := rfl
@[simp] theorem State.putOut_spares (s : State) (x) : (s.putOut x).spares = s.spares := rfl
@[simp] theorem State.putOut_tby (s : State) (x) : (s.putOut x).tby = s.tby := rfl
@[simp] theorem State.putOut_tmr (s : State) (x) : (s.putOut x).tmr = s.tmr := rfl
@[simp] theorem State.putOut_sync (s : State) (x) : (s.putOut x).sync = s.sync := rfl
@[simp] theorem State.putOut_evt (s : State) (x) : (s.putOut x).evt = s.evt := rfl
@[simp] theorem State.putOut_gt (s : State) (x) : (s.putOut x).gt = s.gt := rfl
@[simp] theorem State.putOut_clk (s : State) (x) : (s.putOut x).clk = s.clk := rfl
@[simp] theorem State.putOut_flt (s : State) (x) : (s.putOut x).flt = s.flt := rfl
@[simp] theorem State.putOut_sbd (s : State) (x) : (s.putOut x).sbd = s.sbd := rfl
@[simp] theorem State.putOut_trs (s : State) (x) : (s.putOut x).trs = s.trs := rfl
@[simp] theorem State.putOut_pcie (s : State) (x) : (s.putOut x).pcie = s.pcie := rfl
@[simp] theorem State.putOut_sec (s : State) (x) : (s.putOut x).sec = s.sec := rfl
@[simp] theorem State.putOut_hut (s : State) (x) : (s.putOut x).hut = s.hut := rfl
@[simp] theorem State.putOut_flash (s : State) (x) : (s.putOut x).flash = s.flash := rfl
@[simp] theorem State.putOut_fuse (s : State) (x) : (s.putOut x).fuse = s.fuse := rfl
@[simp] theorem State.putOut_rst (s : State) (x) : (s.putOut x).rst = s.rst := rfl
@[simp] theorem State.putOut_pwr (s : State) (x) : (s.putOut x).pwr = s.pwr := rfl
@[simp] theorem State.putOut_mgmt (s : State) (x) : (s.putOut x).mgmt = s.mgmt := rfl
@[simp] theorem State.putOut_logSeq (s : State) (x) : (s.putOut x).logSeq = s.logSeq := rfl
@[simp] theorem State.putOut_lost (s : State) (x) : (s.putOut x).lost = s.lost := rfl
@[simp] theorem State.putOut_cyc (s : State) (x) : (s.putOut x).cyc = s.cyc := rfl
@[simp] theorem State.putOut_pulse (s : State) (x) : (s.putOut x).pulse = s.pulse := rfl
@[simp] theorem State.putOut_cycZero (s : State) (x) : (s.putOut x).cycZero = s.cycZero := rfl
@[simp] theorem State.putOut_skipped (s : State) (x) : (s.putOut x).skipped = s.skipped := rfl
@[simp] theorem State.putOut_fresh (s : State) (x) : (s.putOut x).fresh = s.fresh := rfl
@[simp] theorem State.putOut_out (s : State) (x) : (s.putOut x).out = x := rfl
@[simp] theorem State.putOut_pending (s : State) (x) : (s.putOut x).pending = s.pending := rfl
@[simp] theorem State.putPending_regs (s : State) (x) : (s.putPending x).regs = s.regs := rfl
@[simp] theorem State.putPending_rwo (s : State) (x) : (s.putPending x).rwo = s.rwo := rfl
@[simp] theorem State.putPending_mem (s : State) (x) : (s.putPending x).mem = s.mem := rfl
@[simp] theorem State.putPending_benches (s : State) (x) : (s.putPending x).benches = s.benches := rfl
@[simp] theorem State.putPending_desks (s : State) (x) : (s.putPending x).desks = s.desks := rfl
@[simp] theorem State.putPending_map (s : State) (x) : (s.putPending x).map = s.map := rfl
@[simp] theorem State.putPending_spares (s : State) (x) : (s.putPending x).spares = s.spares := rfl
@[simp] theorem State.putPending_tby (s : State) (x) : (s.putPending x).tby = s.tby := rfl
@[simp] theorem State.putPending_tmr (s : State) (x) : (s.putPending x).tmr = s.tmr := rfl
@[simp] theorem State.putPending_sync (s : State) (x) : (s.putPending x).sync = s.sync := rfl
@[simp] theorem State.putPending_evt (s : State) (x) : (s.putPending x).evt = s.evt := rfl
@[simp] theorem State.putPending_gt (s : State) (x) : (s.putPending x).gt = s.gt := rfl
@[simp] theorem State.putPending_clk (s : State) (x) : (s.putPending x).clk = s.clk := rfl
@[simp] theorem State.putPending_flt (s : State) (x) : (s.putPending x).flt = s.flt := rfl
@[simp] theorem State.putPending_sbd (s : State) (x) : (s.putPending x).sbd = s.sbd := rfl
@[simp] theorem State.putPending_trs (s : State) (x) : (s.putPending x).trs = s.trs := rfl
@[simp] theorem State.putPending_pcie (s : State) (x) : (s.putPending x).pcie = s.pcie := rfl
@[simp] theorem State.putPending_sec (s : State) (x) : (s.putPending x).sec = s.sec := rfl
@[simp] theorem State.putPending_hut (s : State) (x) : (s.putPending x).hut = s.hut := rfl
@[simp] theorem State.putPending_flash (s : State) (x) : (s.putPending x).flash = s.flash := rfl
@[simp] theorem State.putPending_fuse (s : State) (x) : (s.putPending x).fuse = s.fuse := rfl
@[simp] theorem State.putPending_rst (s : State) (x) : (s.putPending x).rst = s.rst := rfl
@[simp] theorem State.putPending_pwr (s : State) (x) : (s.putPending x).pwr = s.pwr := rfl
@[simp] theorem State.putPending_mgmt (s : State) (x) : (s.putPending x).mgmt = s.mgmt := rfl
@[simp] theorem State.putPending_logSeq (s : State) (x) : (s.putPending x).logSeq = s.logSeq := rfl
@[simp] theorem State.putPending_lost (s : State) (x) : (s.putPending x).lost = s.lost := rfl
@[simp] theorem State.putPending_cyc (s : State) (x) : (s.putPending x).cyc = s.cyc := rfl
@[simp] theorem State.putPending_pulse (s : State) (x) : (s.putPending x).pulse = s.pulse := rfl
@[simp] theorem State.putPending_cycZero (s : State) (x) : (s.putPending x).cycZero = s.cycZero := rfl
@[simp] theorem State.putPending_skipped (s : State) (x) : (s.putPending x).skipped = s.skipped := rfl
@[simp] theorem State.putPending_fresh (s : State) (x) : (s.putPending x).fresh = s.fresh := rfl
@[simp] theorem State.putPending_out (s : State) (x) : (s.putPending x).out = s.out := rfl
@[simp] theorem State.putPending_pending (s : State) (x) : (s.putPending x).pending = x := rfl

end Sys2Proof.Machine
end

