-- ==== Sys2Proof/Laws/Ops.lean ====
section
/-!
SUPPORT. Laws of the named operations: bit fields, registers and their fields, Benches, contexts and their register
files, and the pieces of the state that an operation leaves alone.
-/
namespace Sys2Proof.Machine

/-! ### Bit fields -/

/-- A field reads as it was put, cut to its width. -/
theorem bits_setBits_same (v hi lo x : Nat) (h : lo ≤ hi) : bits (setBits v hi lo x) hi lo = x % 2 ^ (hi + 1 - lo) := by
  unfold bits setBits
  have h1 : v % 2 ^ lo < 2 ^ lo := Nat.mod_lt _ (Nat.two_pow_pos lo)
  have e : 2 ^ (hi + 1) = 2 ^ (hi + 1 - lo) * 2 ^ lo := by rw [← Nat.pow_add]; congr 1; omega
  rw [Nat.shiftLeft_eq, Nat.shiftLeft_eq, Nat.shiftRight_eq_div_pow, e]
  have : v >>> (hi + 1) * (2 ^ (hi + 1 - lo) * 2 ^ lo) + x % 2 ^ (hi + 1 - lo) * 2 ^ lo + v % 2 ^ lo =
      2 ^ lo * (2 ^ (hi + 1 - lo) * (v >>> (hi + 1)) + x % 2 ^ (hi + 1 - lo)) + v % 2 ^ lo := by ring
  rw [this, Nat.mul_add_div (Nat.two_pow_pos lo), Nat.div_eq_of_lt h1, Nat.add_zero, Nat.mul_add_mod]
  exact Nat.mod_mod _ _

/-- The bit of a number with a field replaced. -/
theorem testBit_setBits (v hi lo x i : Nat) (h : lo ≤ hi) :
    (setBits v hi lo x).testBit i = if lo ≤ i ∧ i ≤ hi then x.testBit (i - lo) else v.testBit i := by
  have e : setBits v hi lo x = (v >>> (hi + 1)) <<< (hi + 1) ||| ((x % 2 ^ (hi + 1 - lo)) <<< lo ||| v % 2 ^ lo) := by
    have hx : x % 2 ^ (hi + 1 - lo) < 2 ^ (hi + 1 - lo) := Nat.mod_lt _ (Nat.two_pow_pos _)
    have hv : v % 2 ^ lo < 2 ^ lo := Nat.mod_lt _ (Nat.two_pow_pos lo)
    have a : (x % 2 ^ (hi + 1 - lo)) <<< lo ||| v % 2 ^ lo = (x % 2 ^ (hi + 1 - lo)) <<< lo + v % 2 ^ lo :=
      (Nat.shiftLeft_add_eq_or_of_lt hv _).symm
    have b : (x % 2 ^ (hi + 1 - lo)) <<< lo + v % 2 ^ lo < 2 ^ (hi + 1) := by
      rw [Nat.shiftLeft_eq]
      have : 2 ^ (hi + 1) = 2 ^ (hi + 1 - lo) * 2 ^ lo := by rw [← Nat.pow_add]; congr 1; omega
      rw [this]
      calc x % 2 ^ (hi + 1 - lo) * 2 ^ lo + v % 2 ^ lo < x % 2 ^ (hi + 1 - lo) * 2 ^ lo + 2 ^ lo := by omega
        _ = (x % 2 ^ (hi + 1 - lo) + 1) * 2 ^ lo := by ring
        _ ≤ _ := Nat.mul_le_mul_right _ hx
    rw [a, ← Nat.shiftLeft_add_eq_or_of_lt b]
    unfold setBits; omega
  rw [e]
  simp only [Nat.testBit_or, Nat.testBit_shiftLeft, Nat.testBit_shiftRight, Nat.testBit_mod_two_pow]
  by_cases h1 : i < lo
  · have : ¬ hi + 1 ≤ i := by omega
    have : ¬ lo ≤ i := by omega
    simp [*]
  · by_cases h2 : i ≤ hi
    · have h3 : ¬ hi + 1 ≤ i := by omega
      have h4 : i - lo < hi + 1 - lo := by omega
      have h5 : lo ≤ i := by omega
      simp [*]
    · have h3 : hi + 1 ≤ i := by omega
      have h4 : ¬ i - lo < hi + 1 - lo := by omega
      have h5 : hi + 1 + (i - (hi + 1)) = i := by omega
      simp [*]

/-- A field reads as it did where a field apart from it was put. -/
theorem bits_setBits_ne (v hi lo x hi' lo' : Nat) (h : lo ≤ hi) (h' : lo' ≤ hi') (hd : hi' < lo ∨ hi < lo') :
    bits (setBits v hi lo x) hi' lo' = bits v hi' lo' := by
  apply Nat.eq_of_testBit_eq
  intro i
  simp only [bits, Nat.testBit_mod_two_pow, Nat.testBit_shiftRight, testBit_setBits _ _ _ _ _ h]
  by_cases hi2 : i < hi' + 1 - lo'
  · rw [if_neg (by omega)]
  · simp [hi2]

theorem setBits_lt (v hi lo x : Nat) (h : lo ≤ hi) (hh : hi < 64) (hv : v < 2 ^ 64) : setBits v hi lo x < 2 ^ 64 := by
  apply Nat.lt_of_testBit 64
  · by_contra hb
    simp only [Bool.not_eq_false, testBit_setBits _ _ _ _ _ h] at hb
    rw [if_neg (by omega)] at hb
    rw [Nat.testBit_lt_two_pow hv] at hb
    cases hb
  · exact Nat.testBit_two_pow_self
  · intro j hj
    rw [testBit_setBits _ _ _ _ _ h, if_neg (by omega), Nat.testBit_lt_two_pow (lt_of_lt_of_le hv (Nat.pow_le_pow_right (by omega) hj.le)),
      Nat.testBit_two_pow_of_ne (by omega)]

/-- A field that lies within a register. -/
abbrev Fld.ok (f : Fld) : Prop := f.lo ≤ f.hi ∧ f.hi < 64

theorem getFld_putFld_same (v : Word) (f : Fld) (x : Nat) (hf : f.ok) : getFld (putFld v f x) f = x % 2 ^ f.width := by
  unfold getFld putFld
  rw [BitVec.toNat_ofNat, Nat.mod_eq_of_lt (setBits_lt _ _ _ _ hf.1 hf.2 v.isLt)]
  exact bits_setBits_same _ _ _ _ hf.1

theorem getFld_putFld_ne (v : Word) (f g : Fld) (x : Nat) (hf : f.ok) (hg : g.ok) (hd : g.hi < f.lo ∨ f.hi < g.lo) :
    getFld (putFld v f x) g = getFld v g := by
  unfold getFld putFld
  rw [BitVec.toNat_ofNat, Nat.mod_eq_of_lt (setBits_lt _ _ _ _ hf.1 hf.2 v.isLt)]
  exact bits_setBits_ne _ _ _ _ _ _ hf.1 hg.1 hd

/-! ### Registers -/

@[simp] theorem State.rd_wr_same (s : State) (a : Nat) (v : Word) : (s.wr a v).rd a = v := by
  simp [State.rd, State.wr, State.putRegs, FMap.get?_set_same]

theorem State.rd_wr_ne (s : State) {a b : Nat} (v : Word) (h : b ≠ a) : (s.wr a v).rd b = s.rd b := by
  simp [State.rd, State.wr, State.putRegs, FMap.get?_set_ne _ _ h]

/-- A register not written reads as it did. -/
theorem State.rd_setFld_ne (s : State) {a b : Nat} (f : Fld) (x : Nat) (h : b ≠ a) : (s.setFld a f x).rd b = s.rd b :=
  s.rd_wr_ne _ h

theorem State.fld_setFld_ne (s : State) {a b : Nat} (f g : Fld) (x : Nat) (h : b ≠ a) :
    (s.setFld a f x).fld b g = s.fld b g := by
  simp only [State.fld, State.rd_setFld_ne _ _ _ h]

/-- A field reads as it was set, cut to its width. -/
theorem State.fld_setFld_same (s : State) (a : Nat) (f : Fld) (x : Nat) (hf : f.ok) :
    (s.setFld a f x).fld a f = x % 2 ^ f.width := by
  simp only [State.fld, State.setFld, State.rd_wr_same, getFld_putFld_same _ _ _ hf]

/-- A field of a register reads as it did where another field of it was set. -/
theorem State.fld_setFld_field (s : State) (a : Nat) (f g : Fld) (x : Nat) (hf : f.ok) (hg : g.ok)
    (hd : g.hi < f.lo ∨ f.hi < g.lo) : (s.setFld a f x).fld a g = s.fld a g := by
  simp only [State.fld, State.setFld, State.rd_wr_same, getFld_putFld_ne _ _ _ _ hf hg hd]

/-! ### Pieces -/

/-- Every piece of the state. -/
def Part.all : List Part := [.regs, .rwo, .mem, .benches, .desks, .map, .spares, .tby, .tmr, .sync, .evt, .gt, .clk, .flt, .sbd, .trs,
  .pcie, .sec, .hut, .flash, .fuse, .rst, .pwr, .mgmt, .logSeq, .lost, .cyc, .pulse, .cycZero, .skipped, .fresh, .out]

/-- The mask of the pieces that a list leaves out. -/
def maskBut (l : List Part) : Nat := Part.all.foldr (fun p m => if p ∈ l then m else 2 ^ p.idx ||| m) 0

theorem maskBut_testBit {l : List Part} {p : Part} (h : p ∉ l) : (maskBut l).testBit p.idx = true := by
  have key : ∀ r : List Part, p ∈ r → (r.foldr (fun p m => if p ∈ l then m else 2 ^ p.idx ||| m) 0).testBit p.idx = true := by
    intro r
    induction r with
    | nil => intro hp; cases hp
    | cons q r ih =>
      intro hp
      simp only [List.foldr_cons]
      rcases List.mem_cons.1 hp with rfl | hp
      · rw [if_neg h]; simp
      · split
        · exact ih hp
        · simp [ih hp]
  exact key _ (by cases p <;> decide)

/-- What keeps every piece that a list leaves out differs at most in the pieces listed. -/
theorem State.Keeps.onlyIn {l : List Part} {o s : State} (h : o.Keeps (maskBut l) s) : o.onlyIn l s :=
  ⟨h.pending, fun _ hp => h.same _ (maskBut_testBit hp)⟩

end Sys2Proof.Machine
end

