-- ==== Sys2Proof/Laws/Contexts.lean ====
section
/-!
SUPPORT. Laws of contexts: their records and register files under the operations of issue, and what the issue of an
instruction leaves alone.
-/
namespace Sys2Proof.Machine

/-! ### Records -/

@[simp] theorem State.bench_setBench_same (s : State) (b : Nat) (x : Bench) : (s.setBench b x).bench b = x := by
  simp [State.bench, State.setBench, State.putBenches, FMap.get?_set_same]

theorem State.bench_setBench_ne (s : State) {b b' : Nat} (x : Bench) (h : b' ≠ b) :
    (s.setBench b x).bench b' = s.bench b' := by
  simp [State.bench, State.setBench, State.putBenches, FMap.get?_set_ne _ _ h]

@[simp] theorem Bench.ctx_setCtx_same (x : Bench) (c : Ctx) (y : CtxSt) : (x.setCtx c y).ctx c = y := by
  cases c <;> rfl

theorem Bench.ctx_setCtx_ne (x : Bench) {c c' : Ctx} (y : CtxSt) (h : c' ≠ c) : (x.setCtx c y).ctx c' = x.ctx c' := by
  cases c <;> cases c' <;> first | rfl | exact absurd rfl h

@[simp] theorem State.ctx_modCtx_same (s : State) (b : Nat) (c : Ctx) (f : CtxSt → CtxSt) :
    (s.modCtx b c f).ctx b c = f (s.ctx b c) := by
  simp [State.modCtx, State.setCtx, State.ctx]

theorem State.ctx_modCtx_ne (s : State) (b : Nat) {c c' : Ctx} (f : CtxSt → CtxSt) (h : c' ≠ c) :
    (s.modCtx b c f).ctx b c' = s.ctx b c' := by
  simp [State.modCtx, State.setCtx, State.ctx, Bench.ctx_setCtx_ne _ _ h]

@[simp] theorem State.rd_modBench (s : State) (b : Nat) (f : Bench → Bench) (a : Nat) : (s.modBench b f).rd a = s.rd a := rfl

@[simp] theorem State.rd_modCtx (s : State) (b : Nat) (c : Ctx) (f : CtxSt → CtxSt) (a : Nat) :
    (s.modCtx b c f).rd a = s.rd a := rfl

@[simp] theorem State.fld_modBench (s : State) (b : Nat) (f : Bench → Bench) (a : Nat) (g : Fld) :
    (s.modBench b f).fld a g = s.fld a g := rfl

@[simp] theorem State.fld_modCtx (s : State) (b : Nat) (c : Ctx) (f : CtxSt → CtxSt) (a : Nat) (g : Fld) :
    (s.modCtx b c f).fld a g = s.fld a g := rfl

@[simp] theorem State.bench_setFld (s : State) (a : Nat) (f : Fld) (x b : Nat) : (s.setFld a f x).bench b = s.bench b := rfl

@[simp] theorem State.bench_setBit (s : State) (a : Nat) (f : Fld) (i : Nat) (x : Bool) (b : Nat) :
    (s.setBit a f i x).bench b = s.bench b := rfl

@[simp] theorem State.ctx_setFld (s : State) (a : Nat) (f : Fld) (x b : Nat) (c : Ctx) :
    (s.setFld a f x).ctx b c = s.ctx b c := rfl

@[simp] theorem State.ctx_setBit (s : State) (a : Nat) (f : Fld) (i : Nat) (x : Bool) (b : Nat) (c : Ctx) :
    (s.setBit a f i x).ctx b c = s.ctx b c := rfl

/-- A change of a Bench that touches no context leaves the contexts of every Bench alone. -/
theorem State.ctx_modBench (s : State) (b : Nat) (f : Bench → Bench) (hf : ∀ x c, (f x).ctx c = x.ctx c) (b' : Nat) (c : Ctx) :
    (s.modBench b f).ctx b' c = s.ctx b' c := by
  by_cases h : b' = b
  · subst h; simp [State.modBench, State.ctx, hf]
  · simp [State.modBench, State.ctx, State.bench_setBench_ne _ _ h]

/-! ### What the issue of an instruction leaves alone -/

theorem State.onlyIn_refl (l : List Part) (s : State) : s.onlyIn l s := ⟨rfl, fun p _ => by cases p <;> rfl⟩

theorem State.onlyIn_trans {l : List Part} {s t u : State} (h : s.onlyIn l t) (k : t.onlyIn l u) : s.onlyIn l u :=
  ⟨k.1.trans h.1, fun p hp => by
    have h1 := h.2 p hp
    have k1 := k.2 p hp
    cases p <;> exact Eq.trans k1 h1⟩

theorem State.ownCtx_refl (s : State) (b : Nat) (c : Ctx) : s.ownCtx s b c :=
  ⟨State.onlyIn_refl _ s, fun _ _ => rfl, fun _ _ => rfl, fun _ _ => rfl⟩

theorem State.ownCtx_trans {s t u : State} {b : Nat} {c : Ctx} (h : s.ownCtx t b c) (k : t.ownCtx u b c) : s.ownCtx u b c :=
  ⟨State.onlyIn_trans h.pieces k.pieces, fun a ha => (k.regs a ha).trans (h.regs a ha),
    fun b' hb => (k.benches b' hb).trans (h.benches b' hb), fun c' hc => (k.contexts c' hc).trans (h.contexts c' hc)⟩

/-- A change of a context is its own. -/
theorem State.ownCtx_modCtx (s : State) (b : Nat) (c : Ctx) (f : CtxSt → CtxSt) : s.ownCtx (s.modCtx b c f) b c :=
  ⟨⟨rfl, fun p hp => by cases p <;> first | rfl | exact absurd (by decide) hp⟩, fun _ _ => rfl,
    fun _ hb => State.bench_setBench_ne _ _ hb, fun _ hc => State.ctx_modCtx_ne _ _ _ hc⟩

/-- A change of its Bench that touches no context is its own. -/
theorem State.ownCtx_modBench (s : State) (b : Nat) (c : Ctx) (f : Bench → Bench) (hf : ∀ x c, (f x).ctx c = x.ctx c) :
    s.ownCtx (s.modBench b f) b c :=
  ⟨⟨rfl, fun p hp => by cases p <;> first | rfl | exact absurd (by decide) hp⟩, fun _ _ => rfl,
    fun _ hb => State.bench_setBench_ne _ _ hb, fun _ _ => State.ctx_modBench _ _ _ hf _ _⟩

/-- A write of one of its issue's registers is its own. -/
theorem State.ownCtx_setFld (s : State) (b : Nat) (c : Ctx) {a : Nat} (f : Fld) (x : Nat) (ha : a ∈ issueRegs b c) :
    s.ownCtx (s.setFld a f x) b c :=
  ⟨⟨rfl, fun p hp => by cases p <;> first | rfl | exact absurd (by decide) hp⟩,
    fun _ h => State.rd_setFld_ne _ _ _ (fun e => h (e ▸ ha)), fun _ _ => rfl, fun _ _ => rfl⟩

theorem mem_issueRegs_lent (b : Nat) (c : Ctx) : A.syncLent (b / 64) ∈ issueRegs b c := List.mem_cons_self

theorem mem_issueRegs_pc (b : Nat) {c : Ctx} (h : c ≠ .D) : A.benchPc b c.idx ∈ issueRegs b c := by simp [issueRegs, h]

theorem mem_issueRegs_thr (b : Nat) {c : Ctx} (h : c ≠ .D) : A.benchThr b c.idx ∈ issueRegs b c := by simp [issueRegs, h]

theorem State.ownCtx_lendEnd (s : State) (b : Nat) (c : Ctx) : s.ownCtx (s.lendEnd b) b c := by
  unfold State.lendEnd
  split
  · exact State.ownCtx_trans (State.ownCtx_modBench _ _ _ _ (fun x c => by cases c <;> rfl))
      (State.ownCtx_setFld _ _ _ _ _ (mem_issueRegs_lent b c))
  · exact State.ownCtx_refl _ _ _

theorem State.ownCtx_unblock (s : State) (b : Nat) (c : Ctx) : s.ownCtx (s.unblock b c) b c := by
  unfold State.unblock
  cases c
  · exact State.ownCtx_trans (State.ownCtx_modCtx _ _ _ _) (State.ownCtx_setFld _ _ _ _ _ (mem_issueRegs_thr b (by decide)))
  · exact State.ownCtx_trans (State.ownCtx_modCtx _ _ _ _) (State.ownCtx_setFld _ _ _ _ _ (mem_issueRegs_thr b (by decide)))
  · exact State.ownCtx_modCtx _ _ _ _

theorem State.ownCtx_wake (s : State) (b : Nat) (c : Ctx) : s.ownCtx (s.wake b c) b c :=
  State.ownCtx_trans (State.ownCtx_unblock s b c) (State.ownCtx_lendEnd _ b c)

theorem State.ownCtx_issued (s : State) (b : Nat) (c : Ctx) : s.ownCtx (s.issued b c) b c := by
  have h : s.ownCtx (if (s.ctx b c).blk == some .issue then s.wake b c else s) b c := by
    split
    · exact State.ownCtx_wake _ _ _
    · exact State.ownCtx_refl _ _ _
  simp only [State.issued]
  generalize (if (s.ctx b c).blk == some .issue then s.wake b c else s) = w at h ⊢
  split
  · exact h
  · exact State.ownCtx_trans h (State.ownCtx_trans (State.ownCtx_modCtx w b c _)
      (State.ownCtx_modBench _ b c _ (fun x c => by cases c <;> rfl)))

theorem State.ownCtx_setPc (s : State) (b : Nat) (c : Ctx) (a : Nat) : s.ownCtx (s.setPc b c a) b c := by
  unfold State.setPc
  cases c
  · exact State.ownCtx_setFld _ _ _ _ _ (mem_issueRegs_pc b (by decide))
  · exact State.ownCtx_setFld _ _ _ _ _ (mem_issueRegs_pc b (by decide))
  · exact State.ownCtx_modCtx _ _ _ _

theorem State.ownCtx_block (s : State) (b : Nat) (c : Ctx) (k : Blk) : s.ownCtx (s.block b c k) b c := by
  unfold State.block
  cases c
  · exact State.ownCtx_trans (State.ownCtx_modCtx _ _ _ _) (State.ownCtx_setFld _ _ _ _ _ (mem_issueRegs_thr b (by decide)))
  · exact State.ownCtx_trans (State.ownCtx_modCtx _ _ _ _) (State.ownCtx_setFld _ _ _ _ _ (mem_issueRegs_thr b (by decide)))
  · exact State.ownCtx_modCtx _ _ _ _

/-- An instruction that issued and goes on changes nothing but its context and what its issue writes. -/
theorem State.ownCtx_done (s : State) (b : Nat) (c : Ctx) : s.ownCtx (s.done b c) b c :=
  State.ownCtx_trans (State.ownCtx_issued s b c) (State.ownCtx_setPc _ b c _)

theorem State.ownCtx_setS (s : State) (b : Nat) (c : Ctx) (r : Nat) (v : Word) : s.ownCtx (s.setS b c r v) b c := by
  unfold State.setS
  split
  · exact State.ownCtx_refl _ _ _
  · exact State.ownCtx_modCtx _ _ _ _

theorem State.ownCtx_setT (s : State) (b : Nat) (c : Ctx) (r : Nat) (v : TWord) : s.ownCtx (s.setT b c r v) b c :=
  State.ownCtx_modCtx _ _ _ _

theorem State.ownCtx_setV (s : State) (b : Nat) (c : Ctx) (r : Nat) (v : VWord) : s.ownCtx (s.setV b c r v) b c :=
  State.ownCtx_modCtx _ _ _ _

theorem State.ownCtx_setP (s : State) (b : Nat) (c : Ctx) (r : Nat) (v : TWord) : s.ownCtx (s.setP b c r v) b c := by
  unfold State.setP
  split
  · exact State.ownCtx_refl _ _ _
  · exact State.ownCtx_modCtx _ _ _ _

/-! ### Issue -/

/-- An instruction that issues has its own effect. -/
theorem State.issue_of_issues {s : State} {b : Nat} {c : Ctx} {f : Form} (h : s.issues b c f = true) (k : State → State) :
    s.issue b c f k = k s := by
  simp only [State.issues, Bool.and_eq_true, Bool.not_eq_true', Option.isNone_iff_eq_none] at h
  obtain ⟨⟨⟨⟨h1, h2⟩, h3⟩, h4⟩, h5⟩ := h
  simp only [State.issue, h1, h2, h3, h4, h5]
  rfl

/-- A part of a context's record that neither its blocking, its PC nor its last start belongs to. -/
structure Apart {α : Type} (g : CtxSt → α) : Prop where
  blk : ∀ x k, g { x with blk := k } = g x
  pc : ∀ x a, g { x with pc := a } = g x
  begun : ∀ x k, g { x with begun := k } = g x

theorem State.ctx_lendEnd (s : State) (b b' : Nat) (c : Ctx) : (s.lendEnd b).ctx b' c = s.ctx b' c := by
  unfold State.lendEnd
  split
  · simp only [State.ctx_setBit]; exact State.ctx_modBench _ _ _ (fun x c => by cases c <;> rfl) _ _
  · rfl

theorem State.ctx_wake (s : State) (b : Nat) (c : Ctx) : (s.wake b c).ctx b c = { s.ctx b c with blk := none } := by
  rw [State.wake, State.ctx_lendEnd]
  unfold State.unblock
  cases c <;> simp only [State.ctx_setFld, State.ctx_modCtx_same]

theorem State.apart_issued {α : Type} {g : CtxSt → α} (hg : Apart g) (s : State) (b : Nat) (c : Ctx) :
    g ((s.issued b c).ctx b c) = g (s.ctx b c) := by
  have h : g ((if (s.ctx b c).blk == some .issue then s.wake b c else s).ctx b c) = g (s.ctx b c) := by
    split
    · rw [State.ctx_wake, hg.blk]
    · rfl
  simp only [State.issued]
  generalize (if (s.ctx b c).blk == some .issue then s.wake b c else s) = w at h ⊢
  split
  · exact h
  · rw [State.ctx_modBench _ b _ (fun x c => by cases c <;> rfl), State.ctx_modCtx_same, hg.begun]; exact h

theorem State.apart_setPc {α : Type} {g : CtxSt → α} (hg : Apart g) (s : State) (b : Nat) (c : Ctx) (a : Nat) :
    g ((s.setPc b c a).ctx b c) = g (s.ctx b c) := by
  unfold State.setPc
  cases c <;> simp [hg.pc]

theorem State.apart_done {α : Type} {g : CtxSt → α} (hg : Apart g) (s : State) (b : Nat) (c : Ctx) :
    g ((s.done b c).ctx b c) = g (s.ctx b c) := by
  rw [State.done, State.apart_setPc hg, State.apart_issued hg]

theorem apart_s : Apart CtxSt.s := ⟨fun _ _ => rfl, fun _ _ => rfl, fun _ _ => rfl⟩
theorem apart_v : Apart CtxSt.v := ⟨fun _ _ => rfl, fun _ _ => rfl, fun _ _ => rfl⟩
theorem apart_t : Apart CtxSt.t := ⟨fun _ _ => rfl, fun _ _ => rfl, fun _ _ => rfl⟩
theorem apart_p : Apart CtxSt.p := ⟨fun _ _ => rfl, fun _ _ => rfl, fun _ _ => rfl⟩

/-- A scalar register after an instruction has issued. -/
theorem State.s_issued (s : State) (b : Nat) (c : Ctx) (r : Nat) : (s.issued b c).s b c r = s.s b c r := by
  simp only [State.s, State.apart_issued apart_s]

theorem State.s_setPc (s : State) (b : Nat) (c : Ctx) (a r : Nat) : (s.setPc b c a).s b c r = s.s b c r := by
  simp only [State.s, State.apart_setPc apart_s]

theorem State.s_done (s : State) (b : Nat) (c : Ctx) (r : Nat) : (s.done b c).s b c r = s.s b c r := by
  simp only [State.s, State.apart_done apart_s]

/-- A scalar register reads as it was written; `s0` reads zero (04 R109). -/
theorem State.s_setS (s : State) (b : Nat) (c : Ctx) (rd : Nat) (v : Word) (r : Nat) :
    (s.setS b c rd v).s b c r = if r = rd ∧ r ≠ 0 then v else s.s b c r := by
  unfold State.setS State.s
  by_cases h : rd = 0
  · subst h; by_cases h2 : r = 0 <;> simp [h2]
  · rw [if_neg h]
    by_cases h2 : r = 0
    · simp [h2]
    · by_cases h3 : r = rd
      · subst h3; simp [h2, FMap.getD, FMap.get?_set_same]
      · simp [h2, h3, FMap.getD, FMap.get?_set_ne _ _ h3]

theorem State.sameFiles_refl (s : State) (b : Nat) (c : Ctx) : s.sameFiles s b c := ⟨fun _ => rfl, fun _ => rfl, fun _ => rfl⟩

theorem State.sameFiles_trans {s t u : State} {b : Nat} {c : Ctx} (h : s.sameFiles t b c) (k : t.sameFiles u b c) :
    s.sameFiles u b c :=
  ⟨fun r => (k.1 r).trans (h.1 r), fun r => (k.2.1 r).trans (h.2.1 r), fun r => (k.2.2 r).trans (h.2.2 r)⟩

theorem State.sameFiles_setS (s : State) (b : Nat) (c : Ctx) (r : Nat) (v : Word) : s.sameFiles (s.setS b c r v) b c := by
  unfold State.setS
  split
  · exact State.sameFiles_refl _ _ _
  · exact ⟨fun _ => by simp [State.v], fun _ => by simp [State.t], fun _ => by simp [State.p]⟩

theorem State.sameFiles_issued (s : State) (b : Nat) (c : Ctx) : s.sameFiles (s.issued b c) b c :=
  ⟨fun _ => by simp only [State.v, State.apart_issued apart_v], fun _ => by simp only [State.t, State.apart_issued apart_t],
    fun _ => by simp only [State.p, State.apart_issued apart_p]⟩

theorem State.sameFiles_setPc (s : State) (b : Nat) (c : Ctx) (a : Nat) : s.sameFiles (s.setPc b c a) b c :=
  ⟨fun _ => by simp only [State.v, State.apart_setPc apart_v], fun _ => by simp only [State.t, State.apart_setPc apart_t],
    fun _ => by simp only [State.p, State.apart_setPc apart_p]⟩

theorem State.sameFiles_done (s : State) (b : Nat) (c : Ctx) : s.sameFiles (s.done b c) b c :=
  State.sameFiles_trans (State.sameFiles_issued s b c) (State.sameFiles_setPc _ b c _)

/-- The PC reads as it was set, its low three bits clear in a thread (04 R143). -/
theorem State.pc_setPc (s : State) (b : Nat) (c : Ctx) (a : Nat) (h : a % 8 = 0) : (s.setPc b c a).pc b c = a % 2 ^ 64 := by
  have key : ∀ i, (s.setFld (A.benchPc b i) F.benchPc.PC (a % 2 ^ 64 / 8)).fld (A.benchPc b i) F.benchPc.PC * 8 = a % 2 ^ 64 := by
    intro i
    rw [State.fld_setFld_same _ _ _ _ (by decide)]
    have : F.benchPc.PC.width = 61 := by decide
    rw [this]; omega
  cases c
  · exact key _
  · exact key _
  · simp [State.setPc, State.pc]

theorem State.pc_setS (s : State) (b : Nat) (c : Ctx) (r : Nat) (v : Word) : (s.setS b c r v).pc b c = s.pc b c := by
  unfold State.setS
  split
  · rfl
  · cases c <;> simp [State.pc]

theorem State.pc_setT (s : State) (b : Nat) (c : Ctx) (r : Nat) (v : TWord) : (s.setT b c r v).pc b c = s.pc b c := by
  cases c <;> simp [State.pc, State.setT]

/-- A register of a Bench's threads is none of the synchronisation unit's. -/
theorem bench_ne_lent {b : Nat} (hb : b < 800) (i n : Nat) (hi : i < 8) : benchBase b + i * 8 + 0x10 ≠ A.syncLent n := by
  unfold benchBase A.syncLent regBase; omega

theorem State.fld_lendEnd (s : State) (b a : Nat) (f : Fld) (h : a ≠ A.syncLent (b / 64)) : (s.lendEnd b).fld a f = s.fld a f := by
  unfold State.lendEnd
  split
  · exact State.fld_setFld_ne _ _ _ _ h
  · rfl

theorem State.pc_lendEnd (s : State) {b : Nat} (hb : b < 800) (c : Ctx) : (s.lendEnd b).pc b c = s.pc b c := by
  cases c
  · exact congrArg (· * 8) (State.fld_lendEnd s b _ _ (bench_ne_lent hb 2 _ (by omega)))
  · exact congrArg (· * 8) (State.fld_lendEnd s b _ _ (bench_ne_lent hb 3 _ (by omega)))
  · simp only [State.pc, State.ctx_lendEnd]

theorem State.pc_unblock (s : State) (b : Nat) (c : Ctx) : (s.unblock b c).pc b c = s.pc b c := by
  have h : ∀ i j, i < 2 → j < 2 → A.benchPc b i ≠ A.benchThr b j := by
    intro i j hi hj; unfold A.benchPc A.benchThr; omega
  cases c
  · exact congrArg (· * 8) (State.fld_setFld_ne _ _ _ _ (h 0 0 (by omega) (by omega)))
  · exact congrArg (· * 8) (State.fld_setFld_ne _ _ _ _ (h 1 1 (by omega) (by omega)))
  · simp [State.pc, State.unblock]

theorem State.pc_issued (s : State) {b : Nat} (hb : b < 800) (c : Ctx) : (s.issued b c).pc b c = s.pc b c := by
  have h : (if (s.ctx b c).blk == some .issue then s.wake b c else s).pc b c = s.pc b c := by
    split
    · rw [State.wake, State.pc_lendEnd _ hb, State.pc_unblock]
    · rfl
  simp only [State.issued]
  generalize (if (s.ctx b c).blk == some .issue then s.wake b c else s) = w at h ⊢
  split
  · exact h
  · rw [← h]
    cases c
    · rfl
    · rfl
    · next hn => exact absurd rfl hn

/-- A thread's PC is a multiple of 8 (04 R143). -/
theorem State.pc_mod (s : State) (b : Nat) {c : Ctx} (h : c ≠ .D) : s.pc b c % 8 = 0 := by
  cases c <;> simp_all [State.pc]

theorem State.pc_done (s : State) (b : Nat) (c : Ctx) : (s.done b c).pc b c = s.nextPc b c := by
  unfold State.done State.nextPc
  by_cases h : c = .D
  · subst h; simp [State.setPc, State.pc]
  · rw [State.pc_setPc]
    have := s.pc_mod b h
    omega

end Sys2Proof.Machine
end

