-- ==== Sys2Proof/Laws/KeepsState.lean ====
section
/-!
SUPPORT. What no command undoes (`State.Keeps`): one lemma for each function that answers a state, here for
operations over the state, memory, counters, the fabric, contexts and the arbiter.
-/
namespace Sys2Proof.Machine

variable {msk : Nat} {was : State}

theorem State.putCyc_keeps (hfree : msk &&& 67108864 = 0) (s x) (hs : was.Keeps msk s) : was.Keeps msk (s.putCyc x) :=
  ⟨hs.1, hs.2, hs.3, hs.4, hs.5, hs.6, hs.7, hs.8, hs.9,
    hs.but .cyc hfree (fun p hp h => by cases p <;> first | exact h | exact absurd rfl hp)⟩

theorem State.swAgain_keeps (hfree : msk &&& 67108865 = 0) (s a f) (hs : was.Keeps msk s) : was.Keeps msk (s.swAgain a f) := by
  unfold State.swAgain
  conv => zeta
  with_reducible repeat' first
    | assumption | exact free_mono hfree rfl | apply State.wr_keeps | apply State.putCyc_keeps | split | dsimp only

theorem State.setFld_keeps (hfree : msk &&& 1 = 0) (s a f x) (hs : was.Keeps msk s) : was.Keeps msk (s.setFld a f x) := by
  unfold State.setFld
  with_reducible repeat' first | assumption | exact free_mono hfree rfl | apply State.wr_keeps

theorem State.hwDone_keeps (hfree : msk &&& 67108865 = 0) (s a f) (hs : was.Keeps msk s) : was.Keeps msk (s.hwDone a f) := by
  unfold State.hwDone
  conv => zeta
  with_reducible repeat' first
    | assumption | exact free_mono hfree rfl | apply State.swAgain_keeps | apply State.setFld_keeps | apply State.putCyc_keeps | split
    | dsimp only

theorem State.putBenches_keeps (hfree : msk &&& 8 = 0) (s x) (hs : was.Keeps msk s) : was.Keeps msk (s.putBenches x) :=
  ⟨hs.1, hs.2, hs.3, hs.4, hs.5, hs.6, hs.7, hs.8, hs.9,
    hs.but .benches hfree (fun p hp h => by cases p <;> first | exact h | exact absurd rfl hp)⟩

theorem State.setBench_keeps (hfree : msk &&& 8 = 0) (s b x) (hs : was.Keeps msk s) : was.Keeps msk (s.setBench b x) := by
  unfold State.setBench
  with_reducible repeat' first | assumption | exact free_mono hfree rfl | apply State.putBenches_keeps

theorem State.setCtx_keeps (hfree : msk &&& 8 = 0) (s b c x) (hs : was.Keeps msk s) : was.Keeps msk (s.setCtx b c x) := by
  unfold State.setCtx
  with_reducible repeat' first | assumption | exact free_mono hfree rfl | apply State.setBench_keeps

theorem State.modCtx_keeps (hfree : msk &&& 8 = 0) (s b c) (f) (hs : was.Keeps msk s) : was.Keeps msk (s.modCtx b c f) := by
  unfold State.modCtx
  with_reducible repeat' first | assumption | exact free_mono hfree rfl | apply State.setCtx_keeps

theorem State.modBench_keeps (hfree : msk &&& 8 = 0) (s b) (f) (hs : was.Keeps msk s) : was.Keeps msk (s.modBench b f) := by
  unfold State.modBench
  with_reducible repeat' first | assumption | exact free_mono hfree rfl | apply State.setBench_keeps

theorem State.rest_keeps (hfree : msk &&& 8 = 0) (s b) (hs : was.Keeps msk s) : was.Keeps msk (s.rest b) := by
  unfold State.rest
  conv => zeta
  with_reducible repeat' first | assumption | exact free_mono hfree rfl | apply State.modBench_keeps

theorem State.setBit_keeps (hfree : msk &&& 1 = 0) (s a f i b) (hs : was.Keeps msk s) : was.Keeps msk (s.setBit a f i b) := by
  unfold State.setBit
  with_reducible repeat' first | assumption | exact free_mono hfree rfl | apply State.setFld_keeps

theorem State.lendEnd_keeps (hfree : msk &&& 9 = 0) (s b) (hs : was.Keeps msk s) : was.Keeps msk (s.lendEnd b) := by
  unfold State.lendEnd
  conv => zeta
  with_reducible repeat' first | assumption | exact free_mono hfree rfl | apply State.modBench_keeps | apply State.setBit_keeps | split

theorem State.unblock_keeps (hfree : msk &&& 9 = 0) (s b c) (hs : was.Keeps msk s) : was.Keeps msk (s.unblock b c) := by
  unfold State.unblock
  conv => zeta
  with_reducible repeat' first | assumption | exact free_mono hfree rfl | apply State.modCtx_keeps | apply State.setFld_keeps | split

theorem State.wake_keeps (hfree : msk &&& 9 = 0) (s b c) (hs : was.Keeps msk s) : was.Keeps msk (s.wake b c) := by
  unfold State.wake
  with_reducible repeat' first | assumption | exact free_mono hfree rfl | apply State.lendEnd_keeps | apply State.unblock_keeps

theorem State.putDesks_keeps (hfree : msk &&& 16 = 0) (s x) (hs : was.Keeps msk s) : was.Keeps msk (s.putDesks x) :=
  ⟨hs.1, hs.2, hs.3, hs.4, hs.5, hs.6, hs.7, hs.8, hs.9,
    hs.but .desks hfree (fun p hp h => by cases p <;> first | exact h | exact absurd rfl hp)⟩

theorem State.setDesk_keeps (hfree : msk &&& 16 = 0) (s b d x) (hs : was.Keeps msk s) : was.Keeps msk (s.setDesk b d x) := by
  unfold State.setDesk
  with_reducible repeat' first | assumption | exact free_mono hfree rfl | apply State.putDesks_keeps

theorem State.modDesk_keeps (hfree : msk &&& 16 = 0) (s b d) (f) (hs : was.Keeps msk s) : was.Keeps msk (s.modDesk b d f) := by
  unfold State.modDesk
  with_reducible repeat' first | assumption | exact free_mono hfree rfl | apply State.setDesk_keeps

theorem State.putCycZero_keeps (hfree : msk &&& 268435456 = 0) (s x) (hs : was.Keeps msk s) : was.Keeps msk (s.putCycZero x) :=
  ⟨hs.1, hs.2, hs.3, hs.4, hs.5, hs.6, hs.7, hs.8, hs.9,
    hs.but .cycZero hfree (fun p hp h => by cases p <;> first | exact h | exact absurd rfl hp)⟩

theorem State.putFlt_keeps (hfree : msk &&& 8192 = 0) (s x) (hs : was.Keeps msk s) : was.Keeps msk (s.putFlt x) :=
  ⟨hs.1, hs.2, hs.3, hs.4, hs.5, hs.6, hs.7, hs.8, hs.9,
    hs.but .flt hfree (fun p hp h => by cases p <;> first | exact h | exact absurd rfl hp)⟩

theorem State.incWrap_keeps (hfree : msk &&& 1 = 0) (s a f n) (hs : was.Keeps msk s) : was.Keeps msk (s.incWrap a f n) := by
  unfold State.incWrap
  with_reducible repeat' first | assumption | exact free_mono hfree rfl | apply State.setFld_keeps

theorem State.countAvail_keeps (hfree : msk &&& 8193 = 0) (s) (hs : was.Keeps msk s) : was.Keeps msk (s.countAvail) := by
  unfold State.countAvail
  conv => zeta
  with_reducible repeat' first | assumption | exact free_mono hfree rfl | apply State.putFlt_keeps | apply State.incWrap_keeps | split

theorem State.putClk_keeps (hfree : msk &&& 4096 = 0) (s x) (hs : was.Keeps msk s) : was.Keeps msk (s.putClk x) :=
  ⟨hs.1, hs.2, hs.3, hs.4, hs.5, hs.6, hs.7, hs.8, hs.9,
    hs.but .clk hfree (fun p hp h => by cases p <;> first | exact h | exact absurd rfl hp)⟩

theorem State.driveMark_keeps (hfree : msk &&& 2147487744 = 0) (s high) (hs : was.Keeps msk s) : was.Keeps msk (s.driveMark high) := by
  unfold State.driveMark
  conv => zeta
  with_reducible repeat' first | assumption | exact free_mono hfree rfl | apply State.send_keeps | apply State.putClk_keeps | split

theorem State.putRst_keeps (hfree : msk &&& 2097152 = 0) (s x) (hs : was.Keeps msk s) : was.Keeps msk (s.putRst x) :=
  ⟨hs.1, hs.2, hs.3, hs.4, hs.5, hs.6, hs.7, hs.8, hs.9,
    hs.but .rst hfree (fun p hp h => by cases p <;> first | exact h | exact absurd rfl hp)⟩

theorem State.putTmr_keeps (hfree : msk &&& 256 = 0) (s x) (hs : was.Keeps msk s) : was.Keeps msk (s.putTmr x) :=
  ⟨hs.1, hs.2, hs.3, hs.4, hs.5, hs.6, hs.7, hs.8, hs.9,
    hs.but .tmr hfree (fun p hp h => by cases p <;> first | exact h | exact absurd rfl hp)⟩

theorem State.incSat_keeps (hfree : msk &&& 1 = 0) (s a f n) (hs : was.Keeps msk s) : was.Keeps msk (s.incSat a f n) := by
  unfold State.incSat
  with_reducible repeat' first | assumption | exact free_mono hfree rfl | apply State.setFld_keeps

theorem State.choosePort_keeps (hfree : msk &&& 1073741825 = 0) (s tc m not) (hs : was.Keeps msk s) :
    was.Keeps msk (s.choosePort tc m not).1 := by
  unfold State.choosePort
  conv => zeta
  with_reducible repeat' first
    | assumption | exact free_mono hfree rfl | apply State.incSat_keeps | apply State.nextFresh_keeps
    | refine fst_keeps ?_ (by assumption) | refine snd_keeps ?_ (by assumption) | split

theorem State.draw_keeps (hfree : msk &&& 1073741824 = 0) (s n) (hs : was.Keeps msk s) : was.Keeps msk (s.draw n).2 := by
  unfold State.draw
  with_reducible repeat' first | assumption | exact free_mono hfree rfl | apply State.nextFresh_keeps

theorem State.emit_keeps (hfree : msk &&& 3221225473 = 0) (s p v b) (hs : was.Keeps msk s) : was.Keeps msk (s.emit p v b) := by
  unfold State.emit
  conv => zeta
  with_reducible repeat' first
    | assumption | exact free_mono hfree rfl | apply State.send_keeps | apply State.draw_keeps | apply State.incWrap_keeps
    | refine fst_keeps ?_ (by assumption) | refine snd_keeps ?_ (by assumption) | split

theorem State.reply_keeps (hfree : msk &&& 3221225473 = 0) (s v b) (hs : was.Keeps msk s) : was.Keeps msk (s.reply v b) := by
  unfold State.reply
  with_reducible repeat' first | assumption | exact free_mono hfree rfl | apply State.choosePort_keeps | apply State.emit_keeps

theorem State.putLost_keeps (hfree : msk &&& 33554432 = 0) (s x) (hs : was.Keeps msk s) : was.Keeps msk (s.putLost x) :=
  ⟨hs.1, hs.2, hs.3, hs.4, hs.5, hs.6, hs.7, hs.8, hs.9,
    hs.but .lost hfree (fun p hp h => by cases p <;> first | exact h | exact absurd rfl hp)⟩

theorem State.takeLost_keeps (hfree : msk &&& 33554432 = 0) (s cls a) (hs : was.Keeps msk s) : was.Keeps msk (s.takeLost cls a).1 := by
  unfold State.takeLost
  conv => zeta
  with_reducible repeat' first
    | assumption | exact free_mono hfree rfl | apply State.putLost_keeps | refine fst_keeps ?_ (by assumption)
    | refine snd_keeps ?_ (by assumption) | split | dsimp only

theorem State.putTby_keeps (hfree : msk &&& 128 = 0) (s x) (hs : was.Keeps msk s) : was.Keeps msk (s.putTby x) :=
  ⟨hs.1, hs.2, hs.3, hs.4, hs.5, hs.6, hs.7, hs.8, hs.9,
    hs.but .tby hfree (fun p hp h => by cases p <;> first | exact h | exact absurd rfl hp)⟩

theorem State.modStack_keeps (hfree : msk &&& 128 = 0) (s t) (f) (hs : was.Keeps msk s) : was.Keeps msk (s.modStack t f) := by
  unfold State.modStack
  with_reducible repeat' first | assumption | exact free_mono hfree rfl | apply State.putTby_keeps

theorem State.hwSet_keeps (hfree : msk &&& 67108865 = 0) (s a f) (hs : was.Keeps msk s) : was.Keeps msk (s.hwSet a f) := by
  unfold State.hwSet
  conv => zeta
  with_reducible repeat' first
    | assumption | exact free_mono hfree rfl | apply State.wr_keeps | apply State.putCyc_keeps | split | dsimp only

theorem State.putEvt_keeps (hfree : msk &&& 1024 = 0) (s x) (hs : was.Keeps msk s) : was.Keeps msk (s.putEvt x) :=
  ⟨hs.1, hs.2, hs.3, hs.4, hs.5, hs.6, hs.7, hs.8, hs.9,
    hs.but .evt hfree (fun p hp h => by cases p <;> first | exact h | exact absurd rfl hp)⟩

theorem State.raise_keeps (hfree : msk &&& 1024 = 0) (s code source pay) (hs : was.Keeps msk s) :
    was.Keeps msk (s.raise code source pay) := by
  unfold State.raise
  conv => zeta
  with_reducible repeat' first | assumption | exact free_mono hfree rfl | apply State.putEvt_keeps | split

theorem State.tbyEvent_keeps (hfree : msk &&& 1024 = 0) (s t ia kind layer pc cls) (hs : was.Keeps msk s) :
    was.Keeps msk (s.tbyEvent t ia kind layer pc cls) := by
  unfold State.tbyEvent
  with_reducible repeat' first | assumption | exact free_mono hfree rfl | apply State.raise_keeps

theorem State.tbyEventAt_keeps (hfree : msk &&& 1024 = 0) (s ia kind cls) (hs : was.Keeps msk s) :
    was.Keeps msk (s.tbyEventAt ia kind cls) := by
  unfold State.tbyEventAt
  with_reducible repeat' first | assumption | exact free_mono hfree rfl | apply State.tbyEvent_keeps

theorem State.ueFound_keeps (hfree : msk &&& 67109889 = 0) (s cw cls addressErr) (hs : was.Keeps msk s) :
    was.Keeps msk (s.ueFound cw cls addressErr) := by
  unfold State.ueFound
  conv => zeta
  with_reducible repeat' first
    | assumption | exact free_mono hfree rfl | apply State.incSat_keeps | apply State.setFld_keeps | apply State.hwSet_keeps
    | apply State.tbyEventAt_keeps | split

theorem State.reserveFor_keeps (hfree : msk &&& 1073741824 = 0) (s t layer) (hs : was.Keeps msk s) :
    was.Keeps msk (s.reserveFor t layer).1 := by
  unfold State.reserveFor
  conv => zeta
  with_reducible repeat' first
    | assumption | exact free_mono hfree rfl | apply State.draw_keeps | refine fst_keeps ?_ (by assumption)
    | refine snd_keeps ?_ (by assumption) | split | dsimp only

theorem State.reserveCheck_keeps (hfree : msk &&& 1152 = 0) (s t layer pc cls) (hs : was.Keeps msk s) :
    was.Keeps msk (s.reserveCheck t layer pc cls) := by
  unfold State.reserveCheck
  conv => zeta
  with_reducible repeat' first
    | assumption | exact free_mono hfree rfl | apply State.tbyEvent_keeps | apply State.modStack_keeps | split | dsimp only

theorem State.spareStart_keeps (hfree : msk &&& 1073742976 = 0) (s cw cls) (hs : was.Keeps msk s) :
    was.Keeps msk (s.spareStart cw cls) := by
  unfold State.spareStart
  conv => zeta
  with_reducible repeat' first
    | assumption | exact free_mono hfree rfl | apply State.reserveFor_keeps | apply State.reserveCheck_keeps | apply State.modStack_keeps
    | refine fst_keeps ?_ (by assumption) | refine snd_keeps ?_ (by assumption) | split

theorem State.ceFound_keeps (hfree : msk &&& 1073742977 = 0) (s cw cls) (hs : was.Keeps msk s) : was.Keeps msk (s.ceFound cw cls) := by
  unfold State.ceFound
  conv => zeta
  with_reducible repeat' first
    | assumption | exact free_mono hfree rfl | apply State.incSat_keeps | apply State.modStack_keeps | apply State.spareStart_keeps
    | split

theorem State.cwClean_keeps (hfree : msk &&& 128 = 0) (s cw) (hs : was.Keeps msk s) : was.Keeps msk (s.cwClean cw) := by
  unfold State.cwClean
  conv => zeta
  with_reducible repeat' first | assumption | exact free_mono hfree rfl | apply State.modStack_keeps | split | dsimp only

theorem State.cwRead_keeps (hfree : msk &&& 1140851845 = 0) (s cw cls) (hs : was.Keeps msk s) : was.Keeps msk (s.cwRead cw cls).1 := by
  unfold State.cwRead
  conv => zeta
  with_reducible repeat' first
    | assumption | exact free_mono hfree rfl | apply State.modStack_keeps | apply State.draw_keeps | apply State.ueFound_keeps
    | apply State.spareStart_keeps | apply State.ceFound_keeps | apply State.cwClean_keeps | apply State.memStore_keeps
    | apply State.memFilter_keeps | apply State.memClear_keeps | refine fst_keeps ?_ (by assumption) | refine snd_keeps ?_ (by assumption)
    | split

theorem State.tbyRead_keeps (hfree : msk &&& 1140851845 = 0) (s cls ia n) (hs : was.Keeps msk s) :
    was.Keeps msk (s.tbyRead cls ia n).1 := by
  unfold State.tbyRead
  conv => zeta
  with_reducible repeat' first
    | assumption | exact free_mono hfree rfl | apply State.cwRead_keeps | refine foldl_keeps _ _ _ (fun _ _ _ => ?_) ?_
    | refine foldlFst_keeps _ _ _ (fun _ _ _ => ?_) ?_

theorem State.memRead_keeps (hfree : msk &&& 1174406277 = 0) (s cls a n) (hs : was.Keeps msk s) : was.Keeps msk (s.memRead cls a n).1 := by
  unfold State.memRead
  conv => zeta
  with_reducible repeat' first
    | assumption | exact free_mono hfree rfl | apply State.takeLost_keeps | apply State.tbyRead_keeps
    | refine foldl_keeps _ _ _ (fun _ _ _ => ?_) ?_ | refine foldlFst_keeps _ _ _ (fun _ _ _ => ?_) ?_
    | refine foldlSnd_keeps _ _ _ (fun _ _ _ => ?_) ?_ | refine fst_keeps ?_ (by assumption) | refine snd_keeps ?_ (by assumption) | split

theorem State.writeDenied_keeps (hfree : msk &&& 67109889 = 0) (s cls ia) (hs : was.Keeps msk s) :
    was.Keeps msk (s.writeDenied cls ia) := by
  unfold State.writeDenied
  conv => zeta
  with_reducible repeat' first
    | assumption | exact free_mono hfree rfl | apply State.incSat_keeps | apply State.setFld_keeps | apply State.hwSet_keeps
    | apply State.tbyEventAt_keeps | split

theorem State.putSbd_keeps (hfree : msk &&& 16384 = 0) (s x) (hs : was.Keeps msk s) : was.Keeps msk (s.putSbd x) :=
  ⟨hs.1, hs.2, hs.3, hs.4, hs.5, hs.6, hs.7, hs.8, hs.9,
    hs.but .sbd hfree (fun p hp h => by cases p <;> first | exact h | exact absurd rfl hp)⟩

theorem State.modUnit_keeps (hfree : msk &&& 16384 = 0) (s t) (f) (hs : was.Keeps msk s) : was.Keeps msk (s.modUnit t f) := by
  unfold State.modUnit
  conv => zeta
  with_reducible repeat' first | assumption | exact free_mono hfree rfl | apply State.putSbd_keeps

theorem State.trackHeader_keeps (hfree : msk &&& 16384 = 0) (s t off be) (hs : was.Keeps msk s) :
    was.Keeps msk (s.trackHeader t off be) := by
  unfold State.trackHeader
  conv => zeta
  with_reducible repeat' first
    | assumption | exact free_mono hfree rfl | apply State.modUnit_keeps | refine foldl_keeps _ _ _ (fun _ _ _ => ?_) ?_
    | refine foldlFst_keeps _ _ _ (fun _ _ _ => ?_) ?_ | refine foldlSnd_keeps _ _ _ (fun _ _ _ => ?_) ?_
    | refine fst_keeps ?_ (by assumption) | refine snd_keeps ?_ (by assumption) | split

theorem State.cwWrite_keeps (hfree : msk &&& 1140868229 = 0) (s cls cw off data) (hs : was.Keeps msk s) :
    was.Keeps msk (s.cwWrite cls cw off data).1 := by
  unfold State.cwWrite
  conv => zeta
  with_reducible repeat' first
    | assumption | exact free_mono hfree rfl | apply State.cwClean_keeps | apply State.cwRead_keeps | apply State.tbyEventAt_keeps
    | apply State.memStore_keeps | apply State.memFilter_keeps | apply State.memClear_keeps | apply State.trackHeader_keeps
    | refine fst_keeps ?_ (by assumption) | refine snd_keeps ?_ (by assumption) | split

theorem State.tbyWrite_keeps (hfree : msk &&& 1140868229 = 0) (s cls ia data) (hs : was.Keeps msk s) :
    was.Keeps msk (s.tbyWrite cls ia data).1 := by
  unfold State.tbyWrite
  conv => zeta
  with_reducible repeat' first
    | assumption | exact free_mono hfree rfl | apply State.writeDenied_keeps | apply State.cwWrite_keeps
    | refine foldl_keeps _ _ _ (fun _ _ _ => ?_) ?_ | refine foldlFst_keeps _ _ _ (fun _ _ _ => ?_) ?_
    | refine foldlSnd_keeps _ _ _ (fun _ _ _ => ?_) ?_ | refine fst_keeps ?_ (by assumption) | refine snd_keeps ?_ (by assumption) | split

theorem State.shelfWrite_keeps (hfree : msk &&& 12 = 0) (s b off data) (hs : was.Keeps msk s) :
    was.Keeps msk (s.shelfWrite b off data) := by
  unfold State.shelfWrite
  conv => zeta
  with_reducible repeat' first
    | assumption | exact free_mono hfree rfl | apply State.memStore_keeps | apply State.memFilter_keeps | apply State.memClear_keeps
    | apply State.modBench_keeps | split

theorem State.memWriteOk_keeps (hfree : msk &&& 1174422669 = 0) (s cls a data) (hs : was.Keeps msk s) :
    was.Keeps msk (s.memWriteOk cls a data).1 := by
  unfold State.memWriteOk
  conv => zeta
  with_reducible repeat' first
    | assumption | exact free_mono hfree rfl | apply State.takeLost_keeps | apply State.tbyWrite_keeps | apply State.shelfWrite_keeps
    | refine foldl_keeps _ _ _ (fun _ _ _ => ?_) ?_ | refine foldlFst_keeps _ _ _ (fun _ _ _ => ?_) ?_
    | refine foldlSnd_keeps _ _ _ (fun _ _ _ => ?_) ?_ | refine fst_keeps ?_ (by assumption) | refine snd_keeps ?_ (by assumption) | split
    | dsimp only

theorem State.performed_keeps (hfree : msk &&& 256 = 0) (s v a) (hs : was.Keeps msk s) : was.Keeps msk (s.performed v a) := by
  unfold State.performed
  conv => zeta
  with_reducible repeat' first | assumption | exact free_mono hfree rfl | apply State.putTmr_keeps | split

theorem State.discard_keeps (hfree : msk &&& 1024 = 0) (s i m w op) (hs : was.Keeps msk s) : was.Keeps msk (s.discard i m w op) := by
  unfold State.discard
  with_reducible repeat' first | assumption | exact free_mono hfree rfl | apply State.raise_keeps

theorem State.setCounter_keeps (hfree : msk &&& 1 = 0) (s i v) (hs : was.Keeps msk s) : was.Keeps msk (s.setCounter i v) := by
  unfold State.setCounter
  with_reducible repeat' first | assumption | exact free_mono hfree rfl | apply State.setFld_keeps

theorem State.stick_keeps (hfree : msk &&& 67109889 = 0) (s i m w udf) (hs : was.Keeps msk s) : was.Keeps msk (s.stick i m w udf) := by
  unfold State.stick
  conv => zeta
  with_reducible repeat' first | assumption | exact free_mono hfree rfl | apply State.raise_keeps | apply State.hwSet_keeps | split

theorem State.putSync_keeps (hfree : msk &&& 512 = 0) (s x) (hs : was.Keeps msk s) : was.Keeps msk (s.putSync x) :=
  ⟨hs.1, hs.2, hs.3, hs.4, hs.5, hs.6, hs.7, hs.8, hs.9,
    hs.but .sync hfree (fun p hp h => by cases p <;> first | exact h | exact absurd rfl hp)⟩

theorem State.putWaiters_keeps (hfree : msk &&& 513 = 0) (s l) (hs : was.Keeps msk s) : was.Keeps msk (s.putWaiters l) := by
  unfold State.putWaiters
  conv => zeta
  with_reducible repeat' first | assumption | exact free_mono hfree rfl | apply State.setFld_keeps | apply State.putSync_keeps

theorem State.recordFail_keeps (hfree : msk &&& 67108865 = 0) (s t st) (hs : was.Keeps msk s) : was.Keeps msk (s.recordFail t st) := by
  unfold State.recordFail
  conv => zeta
  with_reducible repeat' first
    | assumption | exact free_mono hfree rfl | apply State.incSat_keeps | apply State.setFld_keeps | apply State.hwSet_keeps | split

theorem State.transmit_keeps (hfree : msk &&& 3221225729 = 0) (s t) (hs : was.Keeps msk s) : was.Keeps msk (s.transmit t) := by
  unfold State.transmit
  conv => zeta
  with_reducible repeat' first
    | assumption | exact free_mono hfree rfl | apply State.putTmr_keeps | apply State.choosePort_keeps | apply State.emit_keeps
    | refine fst_keeps ?_ (by assumption) | refine snd_keeps ?_ (by assumption) | split | dsimp only

theorem State.waitSent_keeps (hfree : msk &&& 8 = 0) (s t) (hs : was.Keeps msk s) : was.Keeps msk (s.waitSent t) := by
  unfold State.waitSent
  with_reducible repeat' first | assumption | exact free_mono hfree rfl | apply State.modCtx_keeps | split

theorem State.launch_keeps (hfree : msk &&& 3221225737 = 0) (s t) (hs : was.Keeps msk s) : was.Keeps msk (s.launch t) := by
  unfold State.launch
  conv => zeta
  with_reducible repeat' first
    | assumption | exact free_mono hfree rfl | apply State.putTmr_keeps | apply State.incSat_keeps | apply State.transmit_keeps
    | apply State.waitSent_keeps

theorem State.submit_keeps (hfree : msk &&& 3288334601 = 0) (s dest kind bench ctx req owner) (hs : was.Keeps msk s) :
    was.Keeps msk (s.submit dest kind bench ctx req owner).1 := by
  unfold State.submit
  conv => zeta
  with_reducible repeat' first
    | assumption | exact free_mono hfree rfl | apply State.recordFail_keeps | apply State.launch_keeps | apply State.putTmr_keeps
    | refine fst_keeps ?_ (by assumption) | refine snd_keeps ?_ (by assumption) | split

theorem State.syncEvent_keeps (hfree : msk &&& 1024 = 0) (s code pc counter w reason op) (hs : was.Keeps msk s) :
    was.Keeps msk (s.syncEvent code pc counter w reason op) := by
  unfold State.syncEvent
  conv => zeta
  with_reducible repeat' first | assumption | exact free_mono hfree rfl | apply State.raise_keeps

theorem State.notify_keeps (hfree : msk &&& 3288352521 = 0) (s r res) (hs : was.Keeps msk s) : was.Keeps msk (s.notify r res) := by
  unfold State.notify
  conv => zeta
  with_reducible repeat' first
    | assumption | exact free_mono hfree rfl | apply State.putSbd_keeps | apply State.putSync_keeps | apply State.submit_keeps
    | apply State.syncEvent_keeps | refine fst_keeps ?_ (by assumption) | refine snd_keeps ?_ (by assumption) | split

theorem State.examine_keeps (hfree : msk &&& 3288352521 = 0) (s i) (hs : was.Keeps msk s) : was.Keeps msk (s.examine i) := by
  unfold State.examine
  conv => zeta
  with_reducible repeat' first
    | assumption | exact free_mono hfree rfl | apply State.setCounter_keeps | apply State.putWaiters_keeps | apply State.notify_keeps
    | refine foldl_keeps _ _ _ (fun _ _ _ => ?_) ?_ | refine foldlFst_keeps _ _ _ (fun _ _ _ => ?_) ?_
    | refine foldlSnd_keeps _ _ _ (fun _ _ _ => ?_) ?_ | refine fst_keeps ?_ (by assumption) | refine snd_keeps ?_ (by assumption) | split

theorem State.counterAdd_keeps (hfree : msk &&& 3288352521 = 0) (s i inc m w op) (hs : was.Keeps msk s) :
    was.Keeps msk (s.counterAdd i inc m w op) := by
  unfold State.counterAdd
  conv => zeta
  with_reducible repeat' first
    | assumption | exact free_mono hfree rfl | apply State.discard_keeps | apply State.setCounter_keeps | apply State.stick_keeps
    | apply State.examine_keeps | split

theorem State.restoreAt_keeps (hfree : msk &&& 3288352521 = 0) (s i amount m w) (hs : was.Keeps msk s) :
    was.Keeps msk (s.restoreAt i amount m w) := by
  unfold State.restoreAt
  with_reducible repeat' first | assumption | exact free_mono hfree rfl | apply State.counterAdd_keeps

theorem State.dropQueued_keeps (hfree : msk &&& 16 = 0) (s b c) (hs : was.Keeps msk s) : was.Keeps msk (s.dropQueued b c) := by
  unfold State.dropQueued
  with_reducible repeat' first
    | assumption | exact free_mono hfree rfl | apply State.modDesk_keeps | refine foldl_keeps _ _ _ (fun _ _ _ => ?_) ?_
    | refine foldlFst_keeps _ _ _ (fun _ _ _ => ?_) ?_ | refine foldlSnd_keeps _ _ _ (fun _ _ _ => ?_) ?_
    | refine fst_keeps ?_ (by assumption) | refine snd_keeps ?_ (by assumption) | split

theorem State.leaveLayer_keeps (hfree : msk &&& 9 = 0) (s b c arrived trap) (hs : was.Keeps msk s) :
    was.Keeps msk (s.leaveLayer b c arrived trap) := by
  unfold State.leaveLayer
  with_reducible repeat' first | assumption | exact free_mono hfree rfl | apply State.setFld_keeps | apply State.modCtx_keeps | split

theorem State.setJob_keeps (hfree : msk &&& 8193 = 0) (s j) (hs : was.Keeps msk s) : was.Keeps msk (s.setJob j) := by
  unfold State.setJob
  conv => zeta
  with_reducible repeat' first
    | assumption | exact free_mono hfree rfl | apply State.countAvail_keeps | apply State.setFld_keeps | apply State.putFlt_keeps | split

theorem State.jobCheck_keeps (hfree : msk &&& 8193 = 0) (s) (hs : was.Keeps msk s) : was.Keeps msk (s.jobCheck) := by
  unfold State.jobCheck
  with_reducible repeat' first | assumption | exact free_mono hfree rfl | apply State.setJob_keeps | split

theorem State.stopNow_keeps (hfree : msk &&& 67118105 = 0) (s b c cause faddr) (hs : was.Keeps msk s) :
    was.Keeps msk (s.stopNow b c cause faddr) := by
  unfold State.stopNow
  conv => zeta
  with_reducible repeat' first
    | assumption | exact free_mono hfree rfl | apply State.modCtx_keeps | apply State.dropQueued_keeps | apply State.setFld_keeps
    | apply State.hwDone_keeps | apply State.raise_keeps | apply State.leaveLayer_keeps | apply State.jobCheck_keeps
    | apply State.rest_keeps | split

theorem State.setPc_keeps (hfree : msk &&& 9 = 0) (s b c a) (hs : was.Keeps msk s) : was.Keeps msk (s.setPc b c a) := by
  unfold State.setPc
  with_reducible repeat' first | assumption | exact free_mono hfree rfl | apply State.modCtx_keeps | apply State.setFld_keeps | split

theorem State.setS_keeps (hfree : msk &&& 8 = 0) (s b c r v) (hs : was.Keeps msk s) : was.Keeps msk (s.setS b c r v) := by
  unfold State.setS
  with_reducible repeat' first | assumption | exact free_mono hfree rfl | apply State.modCtx_keeps | split

theorem State.trapRecord_keeps (hfree : msk &&& 67108865 = 0) (s b c ev pc opc) (hs : was.Keeps msk s) :
    was.Keeps msk (s.trapRecord b c ev pc opc) := by
  unfold State.trapRecord
  conv => zeta
  with_reducible repeat' first
    | assumption | exact free_mono hfree rfl | apply State.setFld_keeps | apply State.hwSet_keeps | split | dsimp only

theorem State.syncSend_keeps (hfree : msk &&& 3288335113 = 0) (s counter w op pc) (hs : was.Keeps msk s) :
    was.Keeps msk (s.syncSend counter w op pc).1 := by
  unfold State.syncSend
  conv => zeta
  with_reducible repeat' first
    | assumption | exact free_mono hfree rfl | apply State.putSync_keeps | apply State.submit_keeps | refine fst_keeps ?_ (by assumption)
    | refine snd_keeps ?_ (by assumption) | split

theorem State.stop_keeps (hfree : msk &&& 3288344345 = 0) (s b c cause faddr) (hs : was.Keeps msk s) :
    was.Keeps msk (s.stop b c cause faddr) := by
  unfold State.stop
  conv => zeta
  with_reducible repeat' first
    | assumption | exact free_mono hfree rfl | apply State.dropQueued_keeps | apply State.modCtx_keeps | apply State.syncSend_keeps
    | apply State.stopNow_keeps | apply State.syncEvent_keeps | apply State.putTmr_keeps | refine fst_keeps ?_ (by assumption)
    | refine snd_keeps ?_ (by assumption) | split

theorem State.trapStop_keeps (hfree : msk &&& 3288344345 = 0) (s b c ev pc opc) (hs : was.Keeps msk s) :
    was.Keeps msk (s.trapStop b c ev pc opc) := by
  unfold State.trapStop
  conv => zeta
  with_reducible repeat' first
    | assumption | exact free_mono hfree rfl | apply State.hwSet_keeps | apply State.trapRecord_keeps | apply State.putCyc_keeps
    | apply State.stop_keeps | apply State.raise_keeps | split | dsimp only

theorem State.trap_keeps (hfree : msk &&& 3288344345 = 0) (s b c sup evs pc opc) (hs : was.Keeps msk s) :
    was.Keeps msk (s.trap b c sup evs pc opc).1 := by
  unfold State.trap
  conv => zeta
  with_reducible repeat' first
    | assumption | exact free_mono hfree rfl | apply State.incSat_keeps | apply State.trapStop_keeps | apply State.trapRecord_keeps
    | apply State.putEvt_keeps | apply State.putCyc_keeps | refine fst_keeps ?_ (by assumption) | refine snd_keeps ?_ (by assumption)
    | split

theorem State.hwOr_keeps (hfree : msk &&& 67108865 = 0) (s a f x) (hs : was.Keeps msk s) : was.Keeps msk (s.hwOr a f x) := by
  unfold State.hwOr
  conv => zeta
  with_reducible repeat' first
    | assumption | exact free_mono hfree rfl | apply State.wr_keeps | apply State.putCyc_keeps | split | dsimp only

theorem State.orFld_keeps (hfree : msk &&& 1 = 0) (s a f x) (hs : was.Keeps msk s) : was.Keeps msk (s.orFld a f x) := by
  unfold State.orFld
  with_reducible repeat' first | assumption | exact free_mono hfree rfl | apply State.setFld_keeps

theorem State.raiseFlags_keeps (hfree : msk &&& 67108865 = 0) (s b c unit fl lgen) (hs : was.Keeps msk s) :
    was.Keeps msk (s.raiseFlags b c unit fl lgen) := by
  unfold State.raiseFlags
  conv => zeta
  with_reducible repeat' first | assumption | exact free_mono hfree rfl | apply State.hwOr_keeps | apply State.orFld_keeps | split

theorem State.putTrs_keeps (hfree : msk &&& 32768 = 0) (s x) (hs : was.Keeps msk s) : was.Keeps msk (s.putTrs x) :=
  ⟨hs.1, hs.2, hs.3, hs.4, hs.5, hs.6, hs.7, hs.8, hs.9,
    hs.but .trs hfree (fun p hp h => by cases p <;> first | exact h | exact absurd rfl hp)⟩

theorem State.putLogSeq_keeps (hfree : msk &&& 16777216 = 0) (s x) (hs : was.Keeps msk s) : was.Keeps msk (s.putLogSeq x) :=
  ⟨hs.1, hs.2, hs.3, hs.4, hs.5, hs.6, hs.7, hs.8, hs.9,
    hs.but .logSeq hfree (fun p hp h => by cases p <;> first | exact h | exact absurd rfl hp)⟩

theorem State.memWriteBe_keeps (hfree : msk &&& 1174422669 = 0) (s cls a data) (hs : was.Keeps msk s) :
    was.Keeps msk (s.memWriteBe cls a data) := by
  unfold State.memWriteBe
  conv => zeta
  with_reducible repeat' first
    | assumption | exact free_mono hfree rfl | apply State.memWriteOk_keeps | refine fst_keeps ?_ (by assumption)
    | refine snd_keeps ?_ (by assumption) | split

theorem State.memWrite_keeps (hfree : msk &&& 1174422669 = 0) (s cls a data) (hs : was.Keeps msk s) :
    was.Keeps msk (s.memWrite cls a data) := by
  unfold State.memWrite
  with_reducible repeat' first | assumption | exact free_mono hfree rfl | apply State.memWriteBe_keeps

theorem State.logPut_keeps (hfree : msk &&& 1191199885 = 0) (s l size cls body code source) (hs : was.Keeps msk s) :
    was.Keeps msk (s.logPut l size cls body code source) := by
  unfold State.logPut
  conv => zeta
  with_reducible repeat' first
    | assumption | exact free_mono hfree rfl | apply State.putLogSeq_keeps | apply State.incSat_keeps | apply State.raise_keeps
    | apply State.memWrite_keeps | apply State.setFld_keeps | split

theorem State.logEntry64_keeps (hfree : msk &&& 1191199885 = 0) (s body) (hs : was.Keeps msk s) : was.Keeps msk (s.logEntry64 body) := by
  unfold State.logEntry64
  with_reducible repeat' first | assumption | exact free_mono hfree rfl | apply State.logPut_keeps

theorem State.putPcie_keeps (hfree : msk &&& 65536 = 0) (s x) (hs : was.Keeps msk s) : was.Keeps msk (s.putPcie x) :=
  ⟨hs.1, hs.2, hs.3, hs.4, hs.5, hs.6, hs.7, hs.8, hs.9,
    hs.but .pcie hfree (fun p hp h => by cases p <;> first | exact h | exact absurd rfl hp)⟩

theorem State.storeAt_keeps (hfree : msk &&& 3288352521 = 0) (s i v m w) (hs : was.Keeps msk s) : was.Keeps msk (s.storeAt i v m w) := by
  unfold State.storeAt
  conv => zeta
  with_reducible repeat' first
    | assumption | exact free_mono hfree rfl | apply State.discard_keeps | apply State.setCounter_keeps | apply State.examine_keeps
    | split

theorem State.putMgmt_keeps (hfree : msk &&& 8388608 = 0) (s x) (hs : was.Keeps msk s) : was.Keeps msk (s.putMgmt x) :=
  ⟨hs.1, hs.2, hs.3, hs.4, hs.5, hs.6, hs.7, hs.8, hs.9,
    hs.but .mgmt hfree (fun p hp h => by cases p <;> first | exact h | exact absurd rfl hp)⟩

theorem State.health_keeps (hfree : msk &&& 9217 = 0) (s) (hs : was.Keeps msk s) : was.Keeps msk (s.health) := by
  unfold State.health
  conv => zeta
  with_reducible repeat' first
    | assumption | exact free_mono hfree rfl | apply State.countAvail_keeps | apply State.putFlt_keeps | apply State.setFld_keeps
    | apply State.raise_keeps | split

theorem State.illegal_keeps (hfree : msk &&& 3288344345 = 0) (s b c cause) (hs : was.Keeps msk s) :
    was.Keeps msk (s.illegal b c cause) := by
  unfold State.illegal
  with_reducible repeat' first | assumption | exact free_mono hfree rfl | apply State.stop_keeps

theorem State.block_keeps (hfree : msk &&& 9 = 0) (s b c k) (hs : was.Keeps msk s) : was.Keeps msk (s.block b c k) := by
  unfold State.block
  conv => zeta
  with_reducible repeat' first | assumption | exact free_mono hfree rfl | apply State.modCtx_keeps | apply State.setFld_keeps | split

theorem State.fetchMiss_keeps (hfree : msk &&& 3288334601 = 0) (s b c line) (hs : was.Keeps msk s) :
    was.Keeps msk (s.fetchMiss b c line) := by
  unfold State.fetchMiss
  with_reducible repeat' first
    | assumption | exact free_mono hfree rfl | apply State.submit_keeps | apply State.modBench_keeps | refine fst_keeps ?_ (by assumption)
    | refine snd_keeps ?_ (by assumption) | split

theorem State.issue_keeps (hfree : msk &&& 3288344345 = 0) (s b c f k) (hs : was.Keeps msk s) (hk : ∀ x0, was.Keeps msk x0 → was.Keeps msk (k x0)) :
    was.Keeps msk (s.issue b c f k) := by
  unfold State.issue
  conv => zeta
  with_reducible repeat' first
    | assumption | exact free_mono hfree rfl | apply hk | apply State.illegal_keeps | apply State.block_keeps
    | apply State.fetchMiss_keeps | split

theorem State.issued_keeps (hfree : msk &&& 9 = 0) (s b c) (hs : was.Keeps msk s) : was.Keeps msk (s.issued b c) := by
  unfold State.issued
  conv => zeta
  with_reducible repeat' first
    | assumption | exact free_mono hfree rfl | apply State.wake_keeps | apply State.modCtx_keeps | apply State.modBench_keeps | split

theorem State.done_keeps (hfree : msk &&& 9 = 0) (s b c) (hs : was.Keeps msk s) : was.Keeps msk (s.done b c) := by
  unfold State.done
  with_reducible repeat' first | assumption | exact free_mono hfree rfl | apply State.setPc_keeps | apply State.issued_keeps

theorem State.setV_keeps (hfree : msk &&& 8 = 0) (s b c r v) (hs : was.Keeps msk s) : was.Keeps msk (s.setV b c r v) := by
  unfold State.setV
  with_reducible repeat' first | assumption | exact free_mono hfree rfl | apply State.modCtx_keeps

theorem State.putSec_keeps (hfree : msk &&& 131072 = 0) (s x) (hs : was.Keeps msk s) : was.Keeps msk (s.putSec x) :=
  ⟨hs.1, hs.2, hs.3, hs.4, hs.5, hs.6, hs.7, hs.8, hs.9,
    hs.but .sec hfree (fun p hp h => by cases p <;> first | exact h | exact absurd rfl hp)⟩

theorem State.start_keeps (hfree : msk &&& 67108873 = 0) (s b c) (hs : was.Keeps msk s) : was.Keeps msk (s.start b c) := by
  unfold State.start
  conv => zeta
  with_reducible repeat' first
    | assumption | exact free_mono hfree rfl | apply State.setFld_keeps | apply State.modBench_keeps | apply State.modCtx_keeps
    | apply State.lendEnd_keeps | apply State.hwDone_keeps | split

theorem State.swWrote_keeps (hfree : msk &&& 67108864 = 0) (s a f) (hs : was.Keeps msk s) : was.Keeps msk (s.swWrote a f) := by
  unfold State.swWrote
  conv => zeta
  with_reducible repeat' first | assumption | exact free_mono hfree rfl | apply State.putCyc_keeps | split | dsimp only

theorem State.claimed_keeps (hfree : msk &&& 67108864 = 0) (s res clm) (hs : was.Keeps msk s) : was.Keeps msk (s.claimed res clm) := by
  unfold State.claimed
  conv => zeta
  with_reducible repeat' first | assumption | exact free_mono hfree rfl | apply State.putCyc_keeps | split | dsimp only

theorem State.refuse_keeps (hfree : msk &&& 67109889 = 0) (s res clm holder) (hs : was.Keeps msk s) :
    was.Keeps msk (s.refuse res clm holder) := by
  unfold State.refuse
  conv => zeta
  with_reducible repeat' first
    | assumption | exact free_mono hfree rfl | apply State.incSat_keeps | apply State.setFld_keeps | apply State.hwOr_keeps
    | apply State.raise_keeps | split

theorem State.stageClaim_keeps (hfree : msk &&& 67109889 = 0) (s x) (hs : was.Keeps msk s) : was.Keeps msk (s.stageClaim x) := by
  unfold State.stageClaim
  conv => zeta
  with_reducible repeat' first
    | assumption | exact free_mono hfree rfl | apply State.setFld_keeps | apply State.claimed_keeps | apply State.refuse_keeps | split

theorem State.putRwo_keeps (hfree : msk &&& 2 = 0) (s x) (hs : was.Keeps msk s) : was.Keeps msk (s.putRwo x) :=
  ⟨hs.1, hs.2, hs.3, hs.4, hs.5, hs.6, hs.7, hs.8, hs.9,
    hs.but .rwo hfree (fun p hp h => by cases p <;> first | exact h | exact absurd rfl hp)⟩

theorem State.release_keeps (hfree : msk &&& 3221225737 = 0) (s) (hs : was.Keeps msk s) : was.Keeps msk (s.release) := by
  unfold State.release
  conv => zeta
  with_reducible repeat' first
    | assumption | exact free_mono hfree rfl | apply State.launch_keeps | apply State.putTmr_keeps
    | refine foldl_keeps _ _ _ (fun _ _ _ => ?_) ?_ | refine foldlFst_keeps _ _ _ (fun _ _ _ => ?_) ?_
    | refine foldlSnd_keeps _ _ _ (fun _ _ _ => ?_) ?_ | refine fst_keeps ?_ (by assumption) | refine snd_keeps ?_ (by assumption) | split

theorem State.sendWaiting_keeps (hfree : msk &&& 3221225729 = 0) (s) (hs : was.Keeps msk s) : was.Keeps msk (s.sendWaiting) := by
  unfold State.sendWaiting
  conv => zeta
  with_reducible repeat' first
    | assumption | exact free_mono hfree rfl | apply State.transmit_keeps | apply State.putTmr_keeps
    | refine foldl_keeps _ _ _ (fun _ _ _ => ?_) ?_ | refine foldlFst_keeps _ _ _ (fun _ _ _ => ?_) ?_
    | refine foldlSnd_keeps _ _ _ (fun _ _ _ => ?_) ?_ | refine fst_keeps ?_ (by assumption) | refine snd_keeps ?_ (by assumption) | split

theorem State.retrim_keeps (hfree : msk &&& 1073745921 = 0) (s) (hs : was.Keeps msk s) : was.Keeps msk (s.retrim) := by
  unfold State.retrim
  conv => zeta
  with_reducible repeat' first
    | assumption | exact free_mono hfree rfl | apply State.setFld_keeps | apply State.putClk_keeps | apply State.draw_keeps
    | refine fst_keeps ?_ (by assumption) | refine snd_keeps ?_ (by assumption) | split

theorem State.putGt_keeps (hfree : msk &&& 2048 = 0) (s x) (hs : was.Keeps msk s) : was.Keeps msk (s.putGt x) :=
  ⟨hs.1, hs.2, hs.3, hs.4, hs.5, hs.6, hs.7, hs.8, hs.9,
    hs.but .gt hfree (fun p hp h => by cases p <;> first | exact h | exact absurd rfl hp)⟩

theorem State.setPtp_keeps (hfree : msk &&& 2048 = 0) (s p x) (hs : was.Keeps msk s) : was.Keeps msk (s.setPtp p x) := by
  unfold State.setPtp
  conv => zeta
  with_reducible repeat' first | assumption | exact free_mono hfree rfl | apply State.putGt_keeps

theorem State.bmca_keeps (hfree : msk &&& 2049 = 0) (s) (hs : was.Keeps msk s) : was.Keeps msk (s.bmca) := by
  unfold State.bmca
  conv => zeta
  with_reducible repeat' first
    | assumption | exact free_mono hfree rfl | apply State.putGt_keeps | apply State.setFld_keeps | apply State.setPtp_keeps | split

theorem State.portEnter_keeps (hfree : msk &&& 3221241089 = 0) (s p new bad) (hs : was.Keeps msk s) :
    was.Keeps msk (s.portEnter p new bad) := by
  unfold State.portEnter
  conv => zeta
  with_reducible repeat' first
    | assumption | exact free_mono hfree rfl | apply State.setFld_keeps | apply State.putTmr_keeps | apply State.raise_keeps
    | apply State.sendWaiting_keeps | apply State.health_keeps | apply State.retrim_keeps | apply State.bmca_keeps | split | dsimp only

theorem State.portDown_keeps (hfree : msk &&& 3221241089 = 0) (s p) (hs : was.Keeps msk s) : was.Keeps msk (s.portDown p) := by
  unfold State.portDown
  conv => zeta
  with_reducible repeat' first | assumption | exact free_mono hfree rfl | apply State.setFld_keeps | apply State.portEnter_keeps

theorem State.portDisable_keeps (hfree : msk &&& 3221241089 = 0) (s p) (hs : was.Keeps msk s) : was.Keeps msk (s.portDisable p) := by
  unfold State.portDisable
  with_reducible repeat' first | assumption | exact free_mono hfree rfl | apply State.portDown_keeps | apply State.setFld_keeps

theorem State.trainStart_keeps (hfree : msk &&& 3221241089 = 0) (s p) (hs : was.Keeps msk s) : was.Keeps msk (s.trainStart p) := by
  unfold State.trainStart
  with_reducible repeat' first | assumption | exact free_mono hfree rfl | apply State.portEnter_keeps

theorem State.retrain_keeps (hfree : msk &&& 3221241089 = 0) (s p) (hs : was.Keeps msk s) : was.Keeps msk (s.retrain p) := by
  unfold State.retrain
  conv => zeta
  with_reducible repeat' first | assumption | exact free_mono hfree rfl | apply State.incSat_keeps | apply State.trainStart_keeps | split

theorem State.retrainAll_keeps (hfree : msk &&& 3221241089 = 0) (s p) (hs : was.Keeps msk s) : was.Keeps msk (s.retrainAll p) := by
  unfold State.retrainAll
  conv => zeta
  with_reducible repeat' first
    | assumption | exact free_mono hfree rfl | apply State.retrain_keeps | apply State.putTmr_keeps | split | dsimp only

theorem State.alarmFree_keeps (hfree : msk &&& 1 = 0) (s clm) (hs : was.Keeps msk s) : was.Keeps msk (s.alarmFree clm) := by
  unfold State.alarmFree
  with_reducible repeat' first | assumption | exact free_mono hfree rfl | apply State.setFld_keeps | split

theorem State.alarmTake_keeps (hfree : msk &&& 67109889 = 0) (s clm) (hs : was.Keeps msk s) : was.Keeps msk (s.alarmTake clm).1 := by
  unfold State.alarmTake
  conv => zeta
  with_reducible repeat' first
    | assumption | exact free_mono hfree rfl | apply State.claimed_keeps | apply State.setFld_keeps | apply State.refuse_keeps
    | refine fst_keeps ?_ (by assumption) | refine snd_keeps ?_ (by assumption) | split

theorem State.showTime_keeps (hfree : msk &&& 1 = 0) (s) (hs : was.Keeps msk s) : was.Keeps msk (s.showTime) := by
  unfold State.showTime
  conv => zeta
  with_reducible repeat' first | assumption | exact free_mono hfree rfl | apply State.setFld_keeps

theorem State.putHut_keeps (hfree : msk &&& 262144 = 0) (s x) (hs : was.Keeps msk s) : was.Keeps msk (s.putHut x) :=
  ⟨hs.1, hs.2, hs.3, hs.4, hs.5, hs.6, hs.7, hs.8, hs.9,
    hs.but .hut hfree (fun p hp h => by cases p <;> first | exact h | exact absurd rfl hp)⟩

theorem State.gtStep_keeps (hfree : msk &&& 2048 = 0) (s now) (hs : was.Keeps msk s) : was.Keeps msk (s.gtStep now) := by
  unfold State.gtStep
  conv => zeta
  with_reducible repeat' first | assumption | exact free_mono hfree rfl | apply State.putGt_keeps

theorem State.gtShow_keeps (hfree : msk &&& 1025 = 0) (s st) (hs : was.Keeps msk s) : was.Keeps msk (s.gtShow st) := by
  unfold State.gtShow
  conv => zeta
  with_reducible repeat' first
    | assumption | exact free_mono hfree rfl | apply State.setFld_keeps | apply State.showTime_keeps | apply State.raise_keeps | split

theorem State.gtSet_keeps (hfree : msk &&& 1140853761 = 0) (s ns frac) (hs : was.Keeps msk s) : was.Keeps msk (s.gtSet ns frac).1 := by
  unfold State.gtSet
  conv => zeta
  with_reducible repeat' first
    | assumption | exact free_mono hfree rfl | apply State.raise_keeps | apply State.hwSet_keeps | apply State.draw_keeps
    | apply State.gtStep_keeps | apply State.gtShow_keeps | refine fst_keeps ?_ (by assumption) | refine snd_keeps ?_ (by assumption)
    | split

theorem State.gtJudge_keeps (hfree : msk &&& 1025 = 0) (s) (hs : was.Keeps msk s) : was.Keeps msk (s.gtJudge) := by
  unfold State.gtJudge
  with_reducible repeat' first | assumption | exact free_mono hfree rfl | apply State.gtShow_keeps

theorem State.setMarkEnable_keeps (hfree : msk &&& 1 = 0) (s clm en) (hs : was.Keeps msk s) : was.Keeps msk (s.setMarkEnable clm en) := by
  unfold State.setMarkEnable
  with_reducible repeat' first | assumption | exact free_mono hfree rfl | apply State.setFld_keeps | split

theorem State.markClaim_keeps (hfree : msk &&& 2214597633 = 0) (s clm en) (hs : was.Keeps msk s) : was.Keeps msk (s.markClaim clm en) := by
  unfold State.markClaim
  conv => zeta
  with_reducible repeat' first
    | assumption | exact free_mono hfree rfl | apply State.claimed_keeps | apply State.setFld_keeps | apply State.setMarkEnable_keeps
    | apply State.refuse_keeps | apply State.driveMark_keeps | split

theorem State.putFlash_keeps (hfree : msk &&& 524288 = 0) (s x) (hs : was.Keeps msk s) : was.Keeps msk (s.putFlash x) :=
  ⟨hs.1, hs.2, hs.3, hs.4, hs.5, hs.6, hs.7, hs.8, hs.9,
    hs.but .flash hfree (fun p hp h => by cases p <;> first | exact h | exact absurd rfl hp)⟩

theorem State.putMap_keeps (hfree : msk &&& 32 = 0) (s x) (hs : was.Keeps msk s) : was.Keeps msk (s.putMap x) :=
  ⟨hs.1, hs.2, hs.3, hs.4, hs.5, hs.6, hs.7, hs.8, hs.9,
    hs.but .map hfree (fun p hp h => by cases p <;> first | exact h | exact absurd rfl hp)⟩

theorem State.putSpares_keeps (hfree : msk &&& 64 = 0) (s x) (hs : was.Keeps msk s) : was.Keeps msk (s.putSpares x) :=
  ⟨hs.1, hs.2, hs.3, hs.4, hs.5, hs.6, hs.7, hs.8, hs.9,
    hs.but .spares hfree (fun p hp h => by cases p <;> first | exact h | exact absurd rfl hp)⟩

theorem State.showSpares_keeps (hfree : msk &&& 1 = 0) (s c) (hs : was.Keeps msk s) : was.Keeps msk (s.showSpares c) := by
  unfold State.showSpares
  conv => zeta
  with_reducible repeat' first | assumption | exact free_mono hfree rfl | apply State.setFld_keeps

theorem State.errLog_keeps (hfree : msk &&& 524289 = 0) (s r) (hs : was.Keeps msk s) : was.Keeps msk (s.errLog r) := by
  unfold State.errLog
  conv => zeta
  with_reducible repeat' first | assumption | exact free_mono hfree rfl | apply State.incSat_keeps | apply State.putFlash_keeps | split

theorem State.putPwr_keeps (hfree : msk &&& 4194304 = 0) (s x) (hs : was.Keeps msk s) : was.Keeps msk (s.putPwr x) :=
  ⟨hs.1, hs.2, hs.3, hs.4, hs.5, hs.6, hs.7, hs.8, hs.9,
    hs.but .pwr hfree (fun p hp h => by cases p <;> first | exact h | exact absurd rfl hp)⟩

theorem State.sweepClaim_keeps (hfree : msk &&& 67113985 = 0) (s en) (hs : was.Keeps msk s) : was.Keeps msk (s.sweepClaim en) := by
  unfold State.sweepClaim
  conv => zeta
  with_reducible repeat' first
    | assumption | exact free_mono hfree rfl | apply State.alarmTake_keeps | apply State.putClk_keeps | apply State.setFld_keeps
    | apply State.alarmFree_keeps | refine fst_keeps ?_ (by assumption) | refine snd_keeps ?_ (by assumption) | split

theorem State.retire_keeps (hfree : msk &&& 3221225737 = 0) (s t) (hs : was.Keeps msk s) : was.Keeps msk (s.retire t) := by
  unfold State.retire
  conv => zeta
  with_reducible repeat' first
    | assumption | exact free_mono hfree rfl | apply State.putTmr_keeps | apply State.setFld_keeps | apply State.release_keeps

theorem State.signalAt_keeps (hfree : msk &&& 3288352521 = 0) (s i inc m w) (hs : was.Keeps msk s) :
    was.Keeps msk (s.signalAt i inc m w) := by
  unfold State.signalAt
  with_reducible repeat' first | assumption | exact free_mono hfree rfl | apply State.counterAdd_keeps

theorem State.unitSignal_keeps (hfree : msk &&& 3288352521 = 0) (s counter inc w pc) (hs : was.Keeps msk s) :
    was.Keeps msk (s.unitSignal counter inc w pc) := by
  unfold State.unitSignal
  conv => zeta
  with_reducible repeat' first
    | assumption | exact free_mono hfree rfl | apply State.signalAt_keeps | apply State.submit_keeps | apply State.raise_keeps
    | refine fst_keeps ?_ (by assumption) | refine snd_keeps ?_ (by assumption) | split

theorem State.msixSend_keeps (hfree : msk &&& 2147549184 = 0) (s v) (hs : was.Keeps msk s) : was.Keeps msk (s.msixSend v) := by
  unfold State.msixSend
  conv => zeta
  with_reducible repeat' first | assumption | exact free_mono hfree rfl | apply State.send_keeps | apply State.putPcie_keeps | split

theorem State.transit_keeps (hfree : msk &&& 3221226753 = 0) (s v b) (hs : was.Keeps msk s) : was.Keeps msk (s.transit v b) := by
  unfold State.transit
  conv => zeta
  with_reducible repeat' first
    | assumption | exact free_mono hfree rfl | apply State.incSat_keeps | apply State.raise_keeps | apply State.putTmr_keeps
    | apply State.choosePort_keeps | apply State.emit_keeps | refine fst_keeps ?_ (by assumption) | refine snd_keeps ?_ (by assumption)
    | split

theorem State.arrive_keeps (hfree : msk &&& 256 = 0) (s v) (hs : was.Keeps msk s) : was.Keeps msk (s.arrive v).1 := by
  unfold State.arrive
  conv => zeta
  with_reducible repeat' first
    | assumption | exact free_mono hfree rfl | apply State.putTmr_keeps | refine fst_keeps ?_ (by assumption)
    | refine snd_keeps ?_ (by assumption) | split

theorem State.releaseVectors_keeps (hfree : msk &&& 2147549184 = 0) (s) (hs : was.Keeps msk s) : was.Keeps msk (s.releaseVectors) := by
  unfold State.releaseVectors
  with_reducible repeat' first
    | assumption | exact free_mono hfree rfl | apply State.msixSend_keeps | refine foldl_keeps _ _ _ (fun _ _ _ => ?_) ?_
    | refine foldlFst_keeps _ _ _ (fun _ _ _ => ?_) ?_ | refine foldlSnd_keeps _ _ _ (fun _ _ _ => ?_) ?_
    | refine fst_keeps ?_ (by assumption) | refine snd_keeps ?_ (by assumption) | split

theorem State.shelfPoison_keeps (hfree : msk &&& 8 = 0) (s b off n) (hs : was.Keeps msk s) : was.Keeps msk (s.shelfPoison b off n) := by
  unfold State.shelfPoison
  with_reducible repeat' first | assumption | exact free_mono hfree rfl | apply State.modBench_keeps

theorem State.doneBlock_keeps (hfree : msk &&& 9 = 0) (s b c k) (hs : was.Keeps msk s) : was.Keeps msk (s.doneBlock b c k) := by
  unfold State.doneBlock
  with_reducible repeat' first
    | assumption | exact free_mono hfree rfl | apply State.rest_keeps | apply State.block_keeps | apply State.done_keeps

theorem State.vecSignal_keeps (hfree : msk &&& 2147549184 = 0) (s v) (hs : was.Keeps msk s) : was.Keeps msk (s.vecSignal v) := by
  unfold State.vecSignal
  conv => zeta
  with_reducible repeat' first | assumption | exact free_mono hfree rfl | apply State.putPcie_keeps | apply State.msixSend_keeps | split

theorem State.setP_keeps (hfree : msk &&& 8 = 0) (s b c r v) (hs : was.Keeps msk s) : was.Keeps msk (s.setP b c r v) := by
  unfold State.setP
  with_reducible repeat' first | assumption | exact free_mono hfree rfl | apply State.modCtx_keeps | split

theorem State.logEntry_keeps (hfree : msk &&& 1191199885 = 0) (s l cls body code source) (hs : was.Keeps msk s) :
    was.Keeps msk (s.logEntry l cls body code source) := by
  unfold State.logEntry
  with_reducible repeat' first | assumption | exact free_mono hfree rfl | apply State.logPut_keeps

theorem State.putSkipped_keeps (hfree : msk &&& 536870912 = 0) (s x) (hs : was.Keeps msk s) : was.Keeps msk (s.putSkipped x) :=
  ⟨hs.1, hs.2, hs.3, hs.4, hs.5, hs.6, hs.7, hs.8, hs.9,
    hs.but .skipped hfree (fun p hp h => by cases p <;> first | exact h | exact absurd rfl hp)⟩

theorem State.setT_keeps (hfree : msk &&& 8 = 0) (s b c r v) (hs : was.Keeps msk s) : was.Keeps msk (s.setT b c r v) := by
  unfold State.setT
  with_reducible repeat' first | assumption | exact free_mono hfree rfl | apply State.modCtx_keeps

theorem State.putEvQueue_keeps (hfree : msk &&& 1025 = 0) (s q) (hs : was.Keeps msk s) : was.Keeps msk (s.putEvQueue q) := by
  unfold State.putEvQueue
  conv => zeta
  with_reducible repeat' first | assumption | exact free_mono hfree rfl | apply State.setFld_keeps | apply State.putEvt_keeps

theorem State.acceptOne_keeps (hfree : msk &&& 1025 = 0) (s e) (hs : was.Keeps msk s) : was.Keeps msk (s.acceptOne e) := by
  unfold State.acceptOne
  conv => zeta
  with_reducible repeat' first
    | assumption | exact free_mono hfree rfl | apply State.incSat_keeps | apply State.incWrap_keeps | apply State.putEvQueue_keeps | split

theorem State.deskFault_keeps (hfree : msk &&& 9241 = 0) (s b d set) (hs : was.Keeps msk s) : was.Keeps msk (s.deskFault b d set) := by
  unfold State.deskFault
  conv => zeta
  with_reducible repeat' first
    | assumption | exact free_mono hfree rfl | apply State.setFld_keeps | apply State.setBit_keeps | apply State.raise_keeps
    | apply State.modBench_keeps | apply State.modDesk_keeps | apply State.health_keeps | apply State.showSpares_keeps
    | refine foldl_keeps _ _ _ (fun _ _ _ => ?_) ?_ | refine foldlFst_keeps _ _ _ (fun _ _ _ => ?_) ?_
    | refine foldlSnd_keeps _ _ _ (fun _ _ _ => ?_) ?_ | refine fst_keeps ?_ (by assumption) | refine snd_keeps ?_ (by assumption) | split

theorem State.regRead64_keeps (hfree : msk &&& 1073752065 = 0) (s who a) (hs : was.Keeps msk s) : was.Keeps msk (s.regRead64 who a).1 := by
  unfold State.regRead64
  conv => zeta
  with_reducible repeat' first
    | assumption | exact free_mono hfree rfl | apply State.putGt_keeps | apply State.draw_keeps | apply State.countAvail_keeps
    | refine fst_keeps ?_ (by assumption) | refine snd_keeps ?_ (by assumption) | split

theorem State.regRead_keeps (hfree : msk &&& 1073752065 = 0) (s who a n) (hs : was.Keeps msk s) : was.Keeps msk (s.regRead who a n).1 := by
  unfold State.regRead
  with_reducible repeat' first
    | assumption | exact free_mono hfree rfl | apply State.regRead64_keeps | refine fst_keeps ?_ (by assumption)
    | refine snd_keeps ?_ (by assumption) | split

theorem State.waitAt_keeps (hfree : msk &&& 1537 = 0) (s i threshold consume tmo m w) (hs : was.Keeps msk s) :
    was.Keeps msk (s.waitAt i threshold consume tmo m w).1 := by
  unfold State.waitAt
  conv => zeta
  with_reducible repeat' first
    | assumption | exact free_mono hfree rfl | apply State.discard_keeps | apply State.setCounter_keeps | apply State.incSat_keeps
    | apply State.putWaiters_keeps | refine fst_keeps ?_ (by assumption) | refine snd_keeps ?_ (by assumption) | split

theorem State.takeAt_keeps (hfree : msk &&& 67109889 = 0) (s i amount m w) (hs : was.Keeps msk s) :
    was.Keeps msk (s.takeAt i amount m w).1 := by
  unfold State.takeAt
  conv => zeta
  with_reducible repeat' first
    | assumption | exact free_mono hfree rfl | apply State.discard_keeps | apply State.setCounter_keeps | apply State.stick_keeps
    | refine fst_keeps ?_ (by assumption) | refine snd_keeps ?_ (by assumption) | split

theorem State.confirmStep_keeps (hfree : msk &&& 1140853761 = 0) (s x) (hs : was.Keeps msk s) : was.Keeps msk (s.confirmStep x) := by
  unfold State.confirmStep
  conv => zeta
  with_reducible repeat' first
    | assumption | exact free_mono hfree rfl | apply State.draw_keeps | apply State.putGt_keeps | apply State.hwSet_keeps
    | apply State.raise_keeps

theorem State.candidate_keeps (hfree : msk &&& 1140853761 = 0) (s x) (hs : was.Keeps msk s) : was.Keeps msk (s.candidate x) := by
  unfold State.candidate
  conv => zeta
  with_reducible repeat' first | assumption | exact free_mono hfree rfl | apply State.confirmStep_keeps | apply State.putGt_keeps | split

theorem State.servoUse_keeps (hfree : msk &&& 1073743872 = 0) (s x) (hs : was.Keeps msk s) : was.Keeps msk (s.servoUse x) := by
  unfold State.servoUse
  conv => zeta
  with_reducible repeat' first | assumption | exact free_mono hfree rfl | apply State.draw_keeps | apply State.putGt_keeps

theorem State.measure_keeps (hfree : msk &&& 1140853761 = 0) (s m) (hs : was.Keeps msk s) : was.Keeps msk (s.measure m) := by
  unfold State.measure
  conv => zeta
  with_reducible repeat' first
    | assumption | exact free_mono hfree rfl | apply State.putGt_keeps | apply State.gtShow_keeps | apply State.gtStep_keeps
    | apply State.candidate_keeps | apply State.servoUse_keeps | split

theorem State.ringPut_keeps (hfree : msk &&& 1174422669 = 0) (s r) (hs : was.Keeps msk s) : was.Keeps msk (s.ringPut r) := by
  unfold State.ringPut
  conv => zeta
  with_reducible repeat' first
    | assumption | exact free_mono hfree rfl | apply State.memWrite_keeps | apply State.putEvt_keeps | apply State.incSat_keeps | split

theorem State.writeRecord_keeps (hfree : msk &&& 3322496141 = 0) (s) (hs : was.Keeps msk s) : was.Keeps msk (s.writeRecord) := by
  unfold State.writeRecord
  conv => zeta
  with_reducible repeat' first
    | assumption | exact free_mono hfree rfl | apply State.ringPut_keeps | apply State.putEvQueue_keeps | apply State.putEvt_keeps
    | apply State.vecSignal_keeps | apply State.errLog_keeps | split

theorem State.writeRecords_keeps (hfree : msk &&& 3322496141 = 0) (s a1) (hs : was.Keeps msk s) : was.Keeps msk (s.writeRecords a1) := by
  induction a1 generalizing s with
  | zero => exact hs
  | succ n ih => exact ih _ (State.writeRecord_keeps (free_mono hfree rfl) _ hs)

theorem State.accept_keeps (hfree : msk &&& 1025 = 0) (s e) (hs : was.Keeps msk s) : was.Keeps msk (s.accept e) := by
  unfold State.accept
  conv => zeta
  with_reducible repeat' first | assumption | exact free_mono hfree rfl | apply State.acceptOne_keeps | apply State.putEvt_keeps | split

theorem State.strike_keeps (hfree : msk &&& 128 = 0) (s l) (hs : was.Keeps msk s) : was.Keeps msk (s.strike l) := by
  unfold State.strike
  conv => zeta
  with_reducible repeat' first
    | assumption | exact free_mono hfree rfl | apply State.modStack_keeps | refine foldl_keeps _ _ _ (fun _ _ _ => ?_) ?_
    | refine foldlFst_keeps _ _ _ (fun _ _ _ => ?_) ?_ | refine foldlSnd_keeps _ _ _ (fun _ _ _ => ?_) ?_
    | refine fst_keeps ?_ (by assumption) | refine snd_keeps ?_ (by assumption) | split | dsimp only

theorem State.cancelAt_keeps (hfree : msk &&& 513 = 0) (s i m w) (hs : was.Keeps msk s) : was.Keeps msk (s.cancelAt i m w).1 := by
  unfold State.cancelAt
  conv => zeta
  with_reducible repeat' first
    | assumption | exact free_mono hfree rfl | apply State.putWaiters_keeps | apply State.putSync_keeps
    | refine fst_keeps ?_ (by assumption) | refine snd_keeps ?_ (by assumption) | split

end Sys2Proof.Machine
end

