-- ==== Sys2Proof/Laws/KeepsUnits.lean ====
section
/-!
SUPPORT. What no command undoes (`State.Keeps`): one lemma for each function that answers a state, here for
the Desks, moves, loads and the synchronisation of contexts.
-/
namespace Sys2Proof.Machine

variable {msk : Nat} {was : State}

theorem State.flushGo_keeps (hfree : msk &&& 9 = 0) (s b) (hs : was.Keeps msk s) : was.Keeps msk (s.flushGo b) := by
  unfold State.flushGo
  with_reducible repeat' first
    | assumption | exact free_mono hfree rfl | apply State.wake_keeps | refine foldl_keeps _ _ _ (fun _ _ _ => ?_) ?_
    | refine foldlFst_keeps _ _ _ (fun _ _ _ => ?_) ?_ | refine foldlSnd_keeps _ _ _ (fun _ _ _ => ?_) ?_
    | refine fst_keeps ?_ (by assumption) | refine snd_keeps ?_ (by assumption) | split

theorem State.dwlRemove_keeps (hfree : msk &&& 9 = 0) (s b) (hs : was.Keeps msk s) : was.Keeps msk (s.dwlRemove b) := by
  unfold State.dwlRemove
  conv => zeta
  with_reducible repeat' first
    | assumption | exact free_mono hfree rfl | apply State.setFld_keeps | apply State.modCtx_keeps | apply State.modBench_keeps
    | apply State.rest_keeps | apply State.flushGo_keeps

theorem State.dwlResume_keeps (hfree : msk &&& 67108873 = 0) (s b) (hs : was.Keeps msk s) : was.Keeps msk (s.dwlResume b) := by
  unfold State.dwlResume
  with_reducible repeat' first
    | assumption | exact free_mono hfree rfl | apply State.hwDone_keeps | apply State.dwlRemove_keeps | apply State.setFld_keeps | split

theorem State.setResume_keeps (hfree : msk &&& 67108873 = 0) (s b) (hs : was.Keeps msk s) : was.Keeps msk (s.setResume b) := by
  unfold State.setResume
  conv => zeta
  with_reducible repeat' first
    | assumption | exact free_mono hfree rfl | apply State.swAgain_keeps | apply State.dwlResume_keeps | split | dsimp only

theorem State.deskInject_keeps (hfree : msk &&& 16 = 0) (s b d) (f) (hs : was.Keeps msk s) : was.Keeps msk (s.deskInject b d f) := by
  unfold State.deskInject
  with_reducible repeat' first | assumption | exact free_mono hfree rfl | apply State.modDesk_keeps

theorem State.giveBack_keeps (hfree : msk &&& 3288352521 = 0) (s m index amount who pc) (hs : was.Keeps msk s) :
    was.Keeps msk (s.giveBack m index amount who pc).1 := by
  unfold State.giveBack
  with_reducible repeat' first
    | assumption | exact free_mono hfree rfl | apply State.restoreAt_keeps | apply State.submit_keeps | apply State.syncEvent_keeps
    | refine fst_keeps ?_ (by assumption) | refine snd_keeps ?_ (by assumption) | split

theorem State.stopLate_keeps (hfree : msk &&& 67118105 = 0) (s b c) (hs : was.Keeps msk s) : was.Keeps msk (s.stopLate b c) := by
  unfold State.stopLate
  with_reducible repeat' first | assumption | exact free_mono hfree rfl | apply State.stopNow_keeps | apply State.setPc_keeps | split

theorem State.endWait_keeps (hfree : msk &&& 9 = 0) (s b c rd v) (hs : was.Keeps msk s) : was.Keeps msk (s.endWait b c rd v) := by
  unfold State.endWait
  with_reducible repeat' first | assumption | exact free_mono hfree rfl | apply State.wake_keeps | apply State.setS_keeps

theorem State.waitResult_keeps (hfree : msk &&& 3288360729 = 0) (s b c w r) (hs : was.Keeps msk s) :
    was.Keeps msk (s.waitResult b c w r) := by
  unfold State.waitResult
  conv => zeta
  with_reducible repeat' first
    | assumption | exact free_mono hfree rfl | apply State.giveBack_keeps | apply State.modCtx_keeps | apply State.stopLate_keeps
    | apply State.endWait_keeps | apply State.syncEvent_keeps | refine fst_keeps ?_ (by assumption) | refine snd_keeps ?_ (by assumption)
    | split

theorem State.deliver_keeps (hfree : msk &&& 3288360729 = 0) (s home index who r threshold consume) (hs : was.Keeps msk s) :
    was.Keeps msk (s.deliver home index who r threshold consume) := by
  unfold State.deliver
  with_reducible repeat' first
    | assumption | exact free_mono hfree rfl | apply State.waitResult_keeps | apply State.giveBack_keeps
    | refine fst_keeps ?_ (by assumption) | refine snd_keeps ?_ (by assumption) | split

theorem State.heldNotify_keeps (hfree : msk &&& 3288360729 = 0) (s v index who op) (hs : was.Keeps msk s) :
    was.Keeps msk (s.heldNotify v index who op) := by
  unfold State.heldNotify
  conv => zeta
  with_reducible repeat' first
    | assumption | exact free_mono hfree rfl | apply State.performed_keeps | apply State.deliver_keeps | apply State.reply_keeps | split
    | dsimp only

theorem State.loadDone_keeps (hfree : msk &&& 3288344345 = 0) (s b d) (hs : was.Keeps msk s) : was.Keeps msk (s.loadDone b d) := by
  unfold State.loadDone
  conv => zeta
  with_reducible repeat' first
    | assumption | exact free_mono hfree rfl | apply State.trap_keeps | apply State.raiseFlags_keeps | apply State.modDesk_keeps
    | apply State.setFld_keeps | apply State.rest_keeps | apply State.setBit_keeps | refine fst_keeps ?_ (by assumption)
    | refine snd_keeps ?_ (by assumption) | split

theorem State.holdTab_keeps (hfree : msk &&& 8 = 0) (s b a tab) (hs : was.Keeps msk s) : was.Keeps msk (s.holdTab b a tab) := by
  unfold State.holdTab
  with_reducible repeat' first | assumption | exact free_mono hfree rfl | apply State.modBench_keeps

theorem ok_keeps (s) (hs : was.Keeps msk s) : outKeeps msk was (ok s) := by
  unfold ok
  with_reducible repeat' first | assumption | apply next_keeps

theorem State.vecEnd_keeps (hfree : msk &&& 3288344345 = 0) (s b c fl evs opc precise write) (hs : was.Keeps msk s) (hwrite : ∀ x0, was.Keeps msk x0 → was.Keeps msk (write x0)) :
    was.Keeps msk (s.vecEnd b c fl evs opc precise write) := by
  unfold State.vecEnd
  conv => zeta
  with_reducible repeat' first
    | assumption | exact free_mono hfree rfl | apply hwrite | apply State.trap_keeps | apply State.raiseFlags_keeps
    | apply State.done_keeps | refine fst_keeps ?_ (by assumption) | refine snd_keeps ?_ (by assumption) | split

theorem State.vecLanes_keeps (hfree : msk &&& 3288344345 = 0) (s b c vd va vb vc p fmt opc precise) (lane) (hs : was.Keeps msk s) :
    was.Keeps msk (s.vecLanes b c vd va vb vc p fmt opc precise lane) := by
  unfold State.vecLanes
  conv => zeta
  with_reducible repeat' first
    | assumption | exact free_mono hfree rfl | apply State.issue_keeps | apply State.illegal_keeps | apply State.vecEnd_keeps
    | apply State.setV_keeps | (intro _; intros; try beta_reduce) | split

theorem State.vecTrans_keeps (hfree : msk &&& 3288344345 = 0) (s b c vd va p fmt opc t) (hs : was.Keeps msk s) :
    was.Keeps msk (s.vecTrans b c vd va p fmt opc t) := by
  unfold State.vecTrans
  with_reducible repeat' first | assumption | exact free_mono hfree rfl | apply State.vecLanes_keeps

theorem State.setStart_keeps (hfree : msk &&& 67108873 = 0) (s b c) (hs : was.Keeps msk s) : was.Keeps msk (s.setStart b c) := by
  unfold State.setStart
  conv => zeta
  with_reducible repeat' first
    | assumption | exact free_mono hfree rfl | apply State.start_keeps | apply State.swAgain_keeps | split | dsimp only

theorem State.stopRequest_keeps (hfree : msk &&& 3288344345 = 0) (s b c) (hs : was.Keeps msk s) : was.Keeps msk (s.stopRequest b c) := by
  unfold State.stopRequest
  with_reducible repeat' first | assumption | exact free_mono hfree rfl | apply State.stop_keeps | apply State.setFld_keeps | split

theorem State.setStop_keeps (hfree : msk &&& 3288344345 = 0) (s b c) (hs : was.Keeps msk s) : was.Keeps msk (s.setStop b c) := by
  unfold State.setStop
  conv => zeta
  with_reducible repeat' first
    | assumption | exact free_mono hfree rfl | apply State.swWrote_keeps | apply State.stopRequest_keeps | apply State.swAgain_keeps
    | split | dsimp only

theorem State.pcWrite_keeps (hfree : msk &&& 1 = 0) (s b c v) (hs : was.Keeps msk s) : was.Keeps msk (s.pcWrite b c v) := by
  unfold State.pcWrite
  with_reducible repeat' first | assumption | exact free_mono hfree rfl | apply State.setFld_keeps | split

theorem State.expClear_keeps (hfree : msk &&& 1 = 0) (s b) (hs : was.Keeps msk s) : was.Keeps msk (s.expClear b) := by
  unfold State.expClear
  conv => zeta
  with_reducible repeat' first | assumption | exact free_mono hfree rfl | apply State.wr_keeps | apply State.setFld_keeps

theorem State.deskCfgWrite_keeps (hfree : msk &&& 67108865 = 0) (s b d v) (hs : was.Keeps msk s) :
    was.Keeps msk (s.deskCfgWrite b d v) := by
  unfold State.deskCfgWrite
  conv => zeta
  with_reducible repeat' first | assumption | exact free_mono hfree rfl | apply State.hwSet_keeps | apply State.setFld_keeps | split

theorem State.deskClear_keeps (hfree : msk &&& 1 = 0) (s b d) (hs : was.Keeps msk s) : was.Keeps msk (s.deskClear b d) := by
  unfold State.deskClear
  conv => zeta
  with_reducible repeat' first | assumption | exact free_mono hfree rfl | apply State.wr_keeps | apply State.setFld_keeps

theorem State.drawerWrite_keeps (hfree : msk &&& 16 = 0) (s b d set row v) (hs : was.Keeps msk s) :
    was.Keeps msk (s.drawerWrite b d set row v) := by
  unfold State.drawerWrite
  conv => zeta
  with_reducible repeat' first | assumption | exact free_mono hfree rfl | apply State.modDesk_keeps

theorem State.sigAnswer_keeps (hfree : msk &&& 8 = 0) (s who key) (hs : was.Keeps msk s) : was.Keeps msk (s.sigAnswer who key) := by
  unfold State.sigAnswer
  with_reducible repeat' first | assumption | exact free_mono hfree rfl | apply State.modCtx_keeps | split

theorem State.waitFailed_keeps (hfree : msk &&& 67118105 = 0) (s b c w) (hs : was.Keeps msk s) : was.Keeps msk (s.waitFailed b c w) := by
  unfold State.waitFailed
  with_reducible repeat' first | assumption | exact free_mono hfree rfl | apply State.stopLate_keeps | apply State.endWait_keeps | split

theorem State.sendCancel_keeps (hfree : msk &&& 3288344345 = 0) (s b c w back) (hs : was.Keeps msk s) :
    was.Keeps msk (s.sendCancel b c w back) := by
  unfold State.sendCancel
  conv => zeta
  with_reducible repeat' first
    | assumption | exact free_mono hfree rfl | apply State.syncSend_keeps | apply State.syncEvent_keeps | apply State.waitFailed_keeps
    | apply State.stopLate_keeps | apply State.modCtx_keeps | refine fst_keeps ?_ (by assumption) | refine snd_keeps ?_ (by assumption)
    | split

theorem State.waitAnswer_keeps (hfree : msk &&& 3288360729 = 0) (s key who a) (hs : was.Keeps msk s) :
    was.Keeps msk (s.waitAnswer key who a) := by
  unfold State.waitAnswer
  conv => zeta
  with_reducible repeat' first
    | assumption | exact free_mono hfree rfl | apply State.waitResult_keeps | apply State.sendCancel_keeps | apply State.modCtx_keeps
    | apply State.stopLate_keeps | split

theorem State.takeAnswer_keeps (hfree : msk &&& 67118105 = 0) (s who a) (hs : was.Keeps msk s) : was.Keeps msk (s.takeAnswer who a) := by
  unfold State.takeAnswer
  conv => zeta
  with_reducible repeat' first
    | assumption | exact free_mono hfree rfl | apply State.stopLate_keeps | apply State.wake_keeps | apply State.setS_keeps | split

theorem State.restored_keeps (hfree : msk &&& 67118105 = 0) (s who) (hs : was.Keeps msk s) : was.Keeps msk (s.restored who) := by
  unfold State.restored
  conv => zeta
  with_reducible repeat' first | assumption | exact free_mono hfree rfl | apply State.stopLate_keeps | split | dsimp only

theorem State.cancelAnswer_keeps (hfree : msk &&& 3288360729 = 0) (s key who a) (hs : was.Keeps msk s) :
    was.Keeps msk (s.cancelAnswer key who a) := by
  unfold State.cancelAnswer
  conv => zeta
  with_reducible repeat' first
    | assumption | exact free_mono hfree rfl | apply State.waitResult_keeps | apply State.stopLate_keeps | apply State.waitFailed_keeps
    | apply State.syncEvent_keeps | split

theorem State.openLayer_keeps (hfree : msk &&& 9 = 0) (s b c word ltag rung lad attempt lost) (hs : was.Keeps msk s) :
    was.Keeps msk (s.openLayer b c word ltag rung lad attempt lost) := by
  unfold State.openLayer
  conv => zeta
  with_reducible repeat' first
    | assumption | exact free_mono hfree rfl | apply State.modCtx_keeps | apply State.setFld_keeps | apply State.wake_keeps

theorem State.openAnswer_keeps (hfree : msk &&& 67118105 = 0) (s who attempt) (hs : was.Keeps msk s) :
    was.Keeps msk (s.openAnswer who attempt) := by
  unfold State.openAnswer
  with_reducible repeat' first | assumption | exact free_mono hfree rfl | apply State.stopLate_keeps | apply State.openLayer_keeps | split

theorem State.endCommit_keeps (hfree : msk &&& 9 = 0) (s b c rd o) (hs : was.Keeps msk s) : was.Keeps msk (s.endCommit b c rd o) := by
  unfold State.endCommit
  conv => zeta
  with_reducible repeat' first
    | assumption | exact free_mono hfree rfl | apply State.setFld_keeps | apply State.setS_keeps | apply State.wake_keeps

theorem State.commitOutcome_keeps (hfree : msk &&& 9 = 0) (s who o) (hs : was.Keeps msk s) : was.Keeps msk (s.commitOutcome who o) := by
  unfold State.commitOutcome
  conv => zeta
  with_reducible repeat' first | assumption | exact free_mono hfree rfl | apply State.endCommit_keeps | split

theorem State.syncAnswered_keeps (hfree : msk &&& 3288360729 = 0) (s counter who op a) (hs : was.Keeps msk s) :
    was.Keeps msk (s.syncAnswered counter who op a) := by
  unfold State.syncAnswered
  with_reducible repeat' first
    | assumption | exact free_mono hfree rfl | apply State.sigAnswer_keeps | apply State.waitAnswer_keeps | apply State.takeAnswer_keeps
    | apply State.restored_keeps | apply State.cancelAnswer_keeps | apply State.openAnswer_keeps | apply State.commitOutcome_keeps | split

theorem State.lostEvent_keeps (hfree : msk &&& 1024 = 0) (s b c word ltag) (hs : was.Keeps msk s) :
    was.Keeps msk (s.lostEvent b c word ltag) := by
  unfold State.lostEvent
  with_reducible repeat' first | assumption | exact free_mono hfree rfl | apply State.raise_keeps

theorem State.openLost_keeps (hfree : msk &&& 67118105 = 0) (s b c word ltag rung lad) (hs : was.Keeps msk s) :
    was.Keeps msk (s.openLost b c word ltag rung lad) := by
  unfold State.openLost
  with_reducible repeat' first
    | assumption | exact free_mono hfree rfl | apply State.stopLate_keeps | apply State.lostEvent_keeps | apply State.openLayer_keeps

theorem State.syncFailed_keeps (hfree : msk &&& 3288360729 = 0) (s pc counter who op st) (hs : was.Keeps msk s) :
    was.Keeps msk (s.syncFailed pc counter who op st) := by
  unfold State.syncFailed
  conv => zeta
  with_reducible repeat' first
    | assumption | exact free_mono hfree rfl | apply State.syncEvent_keeps | apply State.sigAnswer_keeps | apply State.waitFailed_keeps
    | apply State.takeAnswer_keeps | apply State.restored_keeps | apply State.cancelAnswer_keeps | apply State.openLost_keeps
    | apply State.endCommit_keeps | split

theorem State.notified_keeps (hfree : msk &&& 512 = 0) (s index home who okay) (hs : was.Keeps msk s) :
    was.Keeps msk (s.notified index home who okay) := by
  unfold State.notified
  conv => zeta
  with_reducible repeat' first | assumption | exact free_mono hfree rfl | apply State.putSync_keeps | split

theorem State.syncComplete_keeps (hfree : msk &&& 3288360729 = 0) (s t st a) (hs : was.Keeps msk s) :
    was.Keeps msk (s.syncComplete t st a) := by
  unfold State.syncComplete
  conv => zeta
  with_reducible repeat' first
    | assumption | exact free_mono hfree rfl | apply State.retire_keeps | apply State.recordFail_keeps | apply State.syncAnswered_keeps
    | apply State.syncFailed_keeps | apply State.notified_keeps | apply State.syncEvent_keeps | split

theorem State.loadGone_keeps (hfree : msk &&& 8 = 0) (s b c l) (hs : was.Keeps msk s) : was.Keeps msk (s.loadGone b c l) := by
  unfold State.loadGone
  with_reducible repeat' first | assumption | exact free_mono hfree rfl | apply State.modCtx_keeps

theorem State.loadPoison_keeps (hfree : msk &&& 3288344345 = 0) (s b c pc n lgen) (hs : was.Keeps msk s) :
    was.Keeps msk (s.loadPoison b c pc n lgen).1 := by
  unfold State.loadPoison
  conv => zeta
  with_reducible repeat' first
    | assumption | exact free_mono hfree rfl | apply State.trap_keeps | apply State.raiseFlags_keeps | apply State.setPc_keeps
    | apply State.modCtx_keeps | refine fst_keeps ?_ (by assumption) | refine snd_keeps ?_ (by assumption) | split | dsimp only

theorem State.accessFailed_keeps (hfree : msk &&& 1024 = 0) (s b c a st tc) (hs : was.Keeps msk s) :
    was.Keeps msk (s.accessFailed b c a st tc) := by
  unfold State.accessFailed
  conv => zeta
  with_reducible repeat' first | assumption | exact free_mono hfree rfl | apply State.raise_keeps

theorem State.loadFar_keeps (hfree : msk &&& 3288344345 = 0) (s b c t st data psn) (hs : was.Keeps msk s) :
    was.Keeps msk (s.loadFar b c t st data psn) := by
  unfold State.loadFar
  conv => zeta
  with_reducible repeat' first
    | assumption | exact free_mono hfree rfl | apply State.loadGone_keeps | apply State.loadPoison_keeps | apply State.setS_keeps
    | apply State.accessFailed_keeps | refine fst_keeps ?_ (by assumption) | refine snd_keeps ?_ (by assumption) | split

theorem State.storeFar_keeps (hfree : msk &&& 1032 = 0) (s b c line t st) (hs : was.Keeps msk s) :
    was.Keeps msk (s.storeFar b c line t st) := by
  unfold State.storeFar
  conv => zeta
  with_reducible repeat' first | assumption | exact free_mono hfree rfl | apply State.modCtx_keeps | apply State.accessFailed_keeps | split

theorem State.cacheFill_keeps (hfree : msk &&& 8 = 0) (s b line good) (hs : was.Keeps msk s) : was.Keeps msk (s.cacheFill b line good) := by
  unfold State.cacheFill
  with_reducible repeat' first | assumption | exact free_mono hfree rfl | apply State.modBench_keeps

theorem State.putMove_keeps (hfree : msk &&& 8 = 0) (s b k m) (hs : was.Keeps msk s) : was.Keeps msk (s.putMove b k m) := by
  unfold State.putMove
  with_reducible repeat' first | assumption | exact free_mono hfree rfl | apply State.modBench_keeps

theorem State.moveRdDone_keeps (hfree : msk &&& 8 = 0) (s b k a n st data) (hs : was.Keeps msk s) :
    was.Keeps msk (s.moveRdDone b k a n st data) := by
  unfold State.moveRdDone
  conv => zeta
  with_reducible repeat' first | assumption | exact free_mono hfree rfl | apply State.putMove_keeps | split

theorem State.moveWrDone_keeps (hfree : msk &&& 8 = 0) (s b k a n st) (hs : was.Keeps msk s) : was.Keeps msk (s.moveWrDone b k a n st) := by
  unfold State.moveWrDone
  conv => zeta
  with_reducible repeat' first | assumption | exact free_mono hfree rfl | apply State.putMove_keeps | split

theorem State.alu_keeps (hfree : msk &&& 3288344345 = 0) (s b c dwl rd rs1 rs2 i imm rsv) (op) (hs : was.Keeps msk s) :
    was.Keeps msk (s.alu b c dwl rd rs1 rs2 i imm rsv op) := by
  unfold State.alu
  with_reducible repeat' first
    | assumption | exact free_mono hfree rfl | apply State.issue_keeps | apply State.done_keeps | apply State.setS_keeps
    | (intro _; intros; try beta_reduce)

theorem State.sendWait_keeps (hfree : msk &&& 3288344345 = 0) (s b c w) (hs : was.Keeps msk s) : was.Keeps msk (s.sendWait b c w) := by
  unfold State.sendWait
  conv => zeta
  with_reducible repeat' first
    | assumption | exact free_mono hfree rfl | apply State.syncSend_keeps | apply State.waitFailed_keeps | apply State.syncEvent_keeps
    | apply State.modCtx_keeps | refine fst_keeps ?_ (by assumption) | refine snd_keeps ?_ (by assumption) | split

theorem State.showExp_keeps (hfree : msk &&& 1 = 0) (s b) (hs : was.Keeps msk s) : was.Keeps msk (s.showExp b) := by
  unfold State.showExp
  conv => zeta
  with_reducible repeat' first | assumption | exact free_mono hfree rfl | apply State.setFld_keeps

theorem State.showMoves_keeps (hfree : msk &&& 1 = 0) (s b) (hs : was.Keeps msk s) : was.Keeps msk (s.showMoves b) := by
  unfold State.showMoves
  conv => zeta
  with_reducible repeat' first | assumption | exact free_mono hfree rfl | apply State.setFld_keeps

theorem State.askFar_keeps (hfree : msk &&& 3288334601 = 0) (s b k l) (hs : was.Keeps msk s) : was.Keeps msk (s.askFar b k l) := by
  unfold State.askFar
  with_reducible repeat' first
    | assumption | exact free_mono hfree rfl | apply State.submit_keeps | apply State.putMove_keeps
    | refine foldl_keeps _ _ _ (fun _ _ _ => ?_) ?_ | refine foldlFst_keeps _ _ _ (fun _ _ _ => ?_) ?_
    | refine foldlSnd_keeps _ _ _ (fun _ _ _ => ?_) ?_ | refine fst_keeps ?_ (by assumption) | refine snd_keeps ?_ (by assumption) | split

theorem State.moveFlags_keeps (hfree : msk &&& 3288344345 = 0) (s b m psn res) (hs : was.Keeps msk s) :
    was.Keeps msk (s.moveFlags b m psn res) := by
  unfold State.moveFlags
  conv => zeta
  with_reducible repeat' first
    | assumption | exact free_mono hfree rfl | apply State.trap_keeps | apply State.raiseFlags_keeps | refine fst_keeps ?_ (by assumption)
    | refine snd_keeps ?_ (by assumption) | split

theorem State.moveOut_keeps (hfree : msk &&& 3321915293 = 0) (s b k) (hs : was.Keeps msk s) : was.Keeps msk (s.moveOut b k) := by
  unfold State.moveOut
  conv => zeta
  with_reducible repeat' first
    | assumption | exact free_mono hfree rfl | apply State.moveFlags_keeps | apply State.putMove_keeps | apply State.memWriteOk_keeps
    | apply State.submit_keeps | refine foldl_keeps _ _ _ (fun _ _ _ => ?_) ?_ | refine foldlFst_keeps _ _ _ (fun _ _ _ => ?_) ?_
    | refine foldlSnd_keeps _ _ _ (fun _ _ _ => ?_) ?_ | refine fst_keeps ?_ (by assumption) | refine snd_keeps ?_ (by assumption) | split

theorem State.moveIssue_keeps (hfree : msk &&& 3321915293 = 0) (s b c op rs t dir sg cnt rsv) (hs : was.Keeps msk s) :
    was.Keeps msk (s.moveIssue b c op rs t dir sg cnt rsv) := by
  unfold State.moveIssue
  conv => zeta
  with_reducible repeat' first
    | assumption | exact free_mono hfree rfl | apply State.issue_keeps | apply State.illegal_keeps | apply State.block_keeps
    | apply State.modBench_keeps | apply State.lendEnd_keeps | apply State.showExp_keeps | apply State.showMoves_keeps
    | apply State.askFar_keeps | apply State.moveOut_keeps | apply State.done_keeps | (intro _; intros; try beta_reduce) | split

theorem State.lwExamine_keeps (hfree : msk &&& 3288352521 = 0) (s w) (hs : was.Keeps msk s) : was.Keeps msk (s.lwExamine w) := by
  unfold State.lwExamine
  with_reducible repeat' first
    | assumption | exact free_mono hfree rfl | apply State.examine_keeps | refine foldl_keeps _ _ _ (fun _ _ _ => ?_) ?_

theorem State.expPoison_keeps (hfree : msk &&& 12 = 0) (s b m lo hi) (hs : was.Keeps msk s) : was.Keeps msk (s.expPoison b m lo hi) := by
  unfold State.expPoison
  conv => zeta
  with_reducible repeat' first
    | assumption | exact free_mono hfree rfl | apply State.shelfWrite_keeps | apply State.shelfPoison_keeps
    | refine foldl_keeps _ _ _ (fun _ _ _ => ?_) ?_

theorem State.scalarLoad_keeps (hfree : msk &&& 3288344345 = 0) (s b c rd rs1 imm rsv n) (hs : was.Keeps msk s) :
    was.Keeps msk (s.scalarLoad b c rd rs1 imm rsv n) := by
  unfold State.scalarLoad
  conv => zeta
  with_reducible repeat' first
    | assumption | exact free_mono hfree rfl | apply State.issue_keeps | apply State.illegal_keeps | apply State.block_keeps
    | apply State.loadPoison_keeps | apply State.done_keeps | apply State.setS_keeps | apply State.modCtx_keeps | apply State.submit_keeps
    | apply State.accessFailed_keeps | (intro _; intros; try beta_reduce) | refine fst_keeps ?_ (by assumption)
    | refine snd_keeps ?_ (by assumption) | split

theorem State.entryEnd_keeps (hfree : msk &&& 9 = 0) (s b) (hs : was.Keeps msk s) : was.Keeps msk (s.entryEnd b) := by
  unfold State.entryEnd
  with_reducible repeat' first | assumption | exact free_mono hfree rfl | apply State.dwlRemove_keeps | apply State.incWrap_keeps

theorem State.branch_keeps (hfree : msk &&& 3288344345 = 0) (s b c rs1 rs2 imm rsv) (taken) (hs : was.Keeps msk s) :
    was.Keeps msk (s.branch b c rs1 rs2 imm rsv taken) := by
  unfold State.branch
  with_reducible repeat' first
    | assumption | exact free_mono hfree rfl | apply State.issue_keeps | apply State.setPc_keeps | apply State.issued_keeps
    | apply State.done_keeps | (intro _; intros; try beta_reduce) | split

theorem State.publish_keeps (hfree : msk &&& 67109889 = 0) (s w) (hs : was.Keeps msk s) : was.Keeps msk (s.publish w) := by
  unfold State.publish
  conv => zeta
  with_reducible repeat' first | assumption | exact free_mono hfree rfl | apply State.setCounter_keeps | apply State.stick_keeps | split

theorem State.setLw_keeps (hfree : msk &&& 1 = 0) (s w e f x) (hs : was.Keeps msk s) : was.Keeps msk (s.setLw w e f x) := by
  unfold State.setLw
  with_reducible repeat' first | assumption | exact free_mono hfree rfl | apply State.setCounter_keeps

theorem State.elogClose_keeps (hfree : msk &&& 1191199885 = 0) (s w out next descent) (hs : was.Keeps msk s) :
    was.Keeps msk (s.elogClose w out next descent) := by
  unfold State.elogClose
  conv => zeta
  with_reducible repeat' first | assumption | exact free_mono hfree rfl | apply State.raise_keeps | apply State.logEntry_keeps | split

theorem State.giveOutcome_keeps (hfree : msk &&& 3288336137 = 0) (s w o) (hs : was.Keeps msk s) : was.Keeps msk (s.giveOutcome w o) := by
  unfold State.giveOutcome
  conv => zeta
  with_reducible repeat' first
    | assumption | exact free_mono hfree rfl | apply State.putSync_keeps | apply State.submit_keeps | apply State.syncEvent_keeps
    | refine foldl_keeps _ _ _ (fun _ _ _ => ?_) ?_ | refine foldlFst_keeps _ _ _ (fun _ _ _ => ?_) ?_
    | refine foldlSnd_keeps _ _ _ (fun _ _ _ => ?_) ?_ | refine fst_keeps ?_ (by assumption) | refine snd_keeps ?_ (by assumption) | split

theorem State.closeWord_keeps (hfree : msk &&& 3338684301 = 0) (s w out) (hs : was.Keeps msk s) : was.Keeps msk (s.closeWord w out) := by
  unfold State.closeWord
  conv => zeta
  with_reducible repeat' first
    | assumption | exact free_mono hfree rfl | apply State.publish_keeps | apply State.setLw_keeps | apply State.elogClose_keeps
    | apply State.putSync_keeps | apply State.lwExamine_keeps | apply State.giveOutcome_keeps | split

theorem State.closeIfFull_keeps (hfree : msk &&& 3338684301 = 0) (s w) (hs : was.Keeps msk s) : was.Keeps msk (s.closeIfFull w) := by
  unfold State.closeIfFull
  with_reducible repeat' first | assumption | exact free_mono hfree rfl | apply State.closeWord_keeps | apply State.lwExamine_keeps | split

theorem State.expError_keeps (hfree : msk &&& 67109889 = 0) (s b m block cause) (hs : was.Keeps msk s) :
    was.Keeps msk (s.expError b m block cause) := by
  unfold State.expError
  conv => zeta
  with_reducible repeat' first
    | assumption | exact free_mono hfree rfl | apply State.incSat_keeps | apply State.setFld_keeps | apply State.hwSet_keeps
    | apply State.raise_keeps | split

theorem State.replay_keeps (hfree : msk &&& 67108865 = 0) (s b d set parity residue) (hs : was.Keeps msk s) :
    was.Keeps msk (s.replay b d set parity residue) := by
  unfold State.replay
  conv => zeta
  with_reducible repeat' first
    | assumption | exact free_mono hfree rfl | apply State.incSat_keeps | apply State.hwSet_keeps | apply State.setFld_keeps | split

theorem State.checkRow_keeps (hfree : msk &&& 67108881 = 0) (s b d set) (hs : was.Keeps msk s) : was.Keeps msk (s.checkRow b d set) := by
  unfold State.checkRow
  conv => zeta
  with_reducible repeat' first | assumption | exact free_mono hfree rfl | apply State.modDesk_keeps | apply State.replay_keeps | split

theorem State.drawerRead_keeps (hfree : msk &&& 67109905 = 0) (s b d set row u) (hs : was.Keeps msk s) :
    was.Keeps msk (s.drawerRead b d set row u) := by
  unfold State.drawerRead
  conv => zeta
  with_reducible repeat' first
    | assumption | exact free_mono hfree rfl | apply State.modDesk_keeps | apply State.setFld_keeps | apply State.incSat_keeps
    | apply State.hwSet_keeps | apply State.setBit_keeps | apply State.raise_keeps | split

theorem State.showBusy_keeps (hfree : msk &&& 9 = 0) (s b d) (hs : was.Keeps msk s) : was.Keeps msk (s.showBusy b d) := by
  unfold State.showBusy
  conv => zeta
  with_reducible repeat' first | assumption | exact free_mono hfree rfl | apply State.setFld_keeps | apply State.rest_keeps

theorem State.commitOn_keeps (hfree : msk &&& 3288344345 = 0) (s b d p u sup) (hs : was.Keeps msk s) :
    was.Keeps msk (s.commitOn b d p u sup) := by
  unfold State.commitOn
  conv => zeta
  with_reducible repeat' first
    | assumption | exact free_mono hfree rfl | apply State.checkRow_keeps | apply State.drawerRead_keeps | apply State.trap_keeps
    | apply State.raiseFlags_keeps | apply State.drawerWrite_keeps | apply State.incWrap_keeps | apply State.modDesk_keeps
    | apply State.showBusy_keeps | refine fst_keeps ?_ (by assumption) | refine snd_keeps ?_ (by assumption) | split

theorem State.setCode2_keeps (hfree : msk &&& 1 = 0) (s a f i x) (hs : was.Keeps msk s) : was.Keeps msk (s.setCode2 a f i x) := by
  unfold State.setCode2
  with_reducible repeat' first | assumption | exact free_mono hfree rfl | apply State.setFld_keeps

theorem State.openSet_keeps (hfree : msk &&& 17 = 0) (s b d set c) (hs : was.Keeps msk s) : was.Keeps msk (s.openSet b d set c) := by
  unfold State.openSet
  conv => zeta
  with_reducible repeat' first
    | assumption | exact free_mono hfree rfl | apply State.setBit_keeps | apply State.setCode2_keeps | apply State.modDesk_keeps | split

theorem State.grant_keeps (hfree : msk &&& 9 = 0) (s b c mask) (hs : was.Keeps msk s) : was.Keeps msk (s.grant b c mask) := by
  unfold State.grant
  with_reducible repeat' first
    | assumption | exact free_mono hfree rfl | apply State.wake_keeps | apply State.setCode2_keeps
    | refine foldl_keeps _ _ _ (fun _ _ _ => ?_) ?_

theorem State.contest_keeps (hfree : msk &&& 9 = 0) (s b mf mb) (hs : was.Keeps msk s) : was.Keeps msk (s.contest b mf mb) := by
  unfold State.contest
  conv => zeta
  with_reducible repeat' first | assumption | exact free_mono hfree rfl | apply State.modBench_keeps | apply State.grant_keeps | split

theorem State.arbitrate_keeps (hfree : msk &&& 9 = 0) (s b) (hs : was.Keeps msk s) : was.Keeps msk (s.arbitrate b) := by
  unfold State.arbitrate
  conv => zeta
  with_reducible repeat' first | assumption | exact free_mono hfree rfl | apply State.grant_keeps | apply State.contest_keeps | split

theorem State.answerLost_keeps (hfree : msk &&& 3288360729 = 0) (s index who a) (hs : was.Keeps msk s) :
    was.Keeps msk (s.answerLost index who a) := by
  unfold State.answerLost
  conv => zeta
  with_reducible repeat' first | assumption | exact free_mono hfree rfl | apply State.syncFailed_keeps | split | dsimp only

theorem State.moveLost_keeps (hfree : msk &&& 8 = 0) (s b k a) (hs : was.Keeps msk s) : was.Keeps msk (s.moveLost b k a) := by
  unfold State.moveLost
  with_reducible repeat' first | assumption | exact free_mono hfree rfl | apply State.putMove_keeps | split

theorem State.moveFailed_keeps (hfree : msk &&& 67109889 = 0) (s b m cause far) (hs : was.Keeps msk s) :
    was.Keeps msk (s.moveFailed b m cause far) := by
  unfold State.moveFailed
  conv => zeta
  with_reducible repeat' first
    | assumption | exact free_mono hfree rfl | apply State.incSat_keeps | apply State.setFld_keeps | apply State.hwSet_keeps
    | apply State.wr_keeps | apply State.raise_keeps | split

theorem State.moveEnd_keeps (hfree : msk &&& 3288352521 = 0) (s b k m) (hs : was.Keeps msk s) : was.Keeps msk (s.moveEnd b k m) := by
  unfold State.moveEnd
  conv => zeta
  with_reducible repeat' first
    | assumption | exact free_mono hfree rfl | apply State.moveFailed_keeps | apply State.incWrap_keeps | apply State.modBench_keeps
    | apply State.showExp_keeps | apply State.showMoves_keeps | apply State.unitSignal_keeps | split

theorem State.fetchNear_keeps (hfree : msk &&& 1174406285 = 0) (s b k) (hs : was.Keeps msk s) : was.Keeps msk (s.fetchNear b k) := by
  unfold State.fetchNear
  conv => zeta
  with_reducible repeat' first
    | assumption | exact free_mono hfree rfl | apply State.memRead_keeps | apply State.putMove_keeps
    | refine foldl_keeps _ _ _ (fun _ _ _ => ?_) ?_ | refine foldlFst_keeps _ _ _ (fun _ _ _ => ?_) ?_
    | refine foldlSnd_keeps _ _ _ (fun _ _ _ => ?_) ?_ | refine fst_keeps ?_ (by assumption) | refine snd_keeps ?_ (by assumption) | split

theorem State.moveIn_keeps (hfree : msk &&& 3288344349 = 0) (s b m) (hs : was.Keeps msk s) : was.Keeps msk (s.moveIn b m) := by
  unfold State.moveIn
  conv => zeta
  with_reducible repeat' first
    | assumption | exact free_mono hfree rfl | apply State.shelfWrite_keeps | apply State.shelfPoison_keeps | apply State.moveFlags_keeps
    | refine foldl_keeps _ _ _ (fun _ _ _ => ?_) ?_

theorem State.moveTry_keeps (hfree : msk &&& 3321915293 = 0) (s b k) (hs : was.Keeps msk s) : was.Keeps msk (s.moveTry b k) := by
  unfold State.moveTry
  conv => zeta
  with_reducible repeat' first
    | assumption | exact free_mono hfree rfl | apply State.moveEnd_keeps | apply State.fetchNear_keeps | apply State.moveIn_keeps
    | apply State.moveOut_keeps | split

theorem State.atHome_keeps (hfree : msk &&& 3221227265 = 0) (s v index who op perform) (hs : was.Keeps msk s) (hperform : ∀ x0 x1, was.Keeps msk x0 → was.Keeps msk (perform x0 x1).1) :
    was.Keeps msk (s.atHome v index who op perform) := by
  unfold State.atHome
  conv => zeta
  with_reducible repeat' first
    | assumption | exact free_mono hfree rfl | apply hperform | apply State.putSync_keeps | apply State.transit_keeps
    | apply State.arrive_keeps | apply State.reply_keeps | apply State.putTmr_keeps | apply State.performed_keeps
    | refine fst_keeps ?_ (by assumption) | refine snd_keeps ?_ (by assumption) | split

theorem State.freeSet_keeps (hfree : msk &&& 17 = 0) (s b d set) (hs : was.Keeps msk s) : was.Keeps msk (s.freeSet b d set) := by
  unfold State.freeSet
  conv => zeta
  with_reducible repeat' first
    | assumption | exact free_mono hfree rfl | apply State.setBit_keeps | apply State.setCode2_keeps | apply State.modDesk_keeps

theorem State.drainDone_keeps (hfree : msk &&& 3288344349 = 0) (s b d us) (hs : was.Keeps msk s) : was.Keeps msk (s.drainDone b d us) := by
  unfold State.drainDone
  conv => zeta
  with_reducible repeat' first
    | assumption | exact free_mono hfree rfl | apply State.checkRow_keeps | apply State.drawerRead_keeps | apply State.trap_keeps
    | apply State.raiseFlags_keeps | apply State.shelfWrite_keeps | apply State.freeSet_keeps | apply State.showBusy_keeps
    | apply State.modDesk_keeps | refine foldl_keeps _ _ _ (fun _ _ _ => ?_) ?_ | refine foldlFst_keeps _ _ _ (fun _ _ _ => ?_) ?_
    | refine foldlSnd_keeps _ _ _ (fun _ _ _ => ?_) ?_ | refine fst_keeps ?_ (by assumption) | refine snd_keeps ?_ (by assumption) | split

theorem State.unpend_keeps (hfree : msk &&& 9 = 0) (s b m before after) (hs : was.Keeps msk s) :
    was.Keeps msk (s.unpend b m before after) := by
  unfold State.unpend
  conv => zeta
  with_reducible repeat' first | assumption | exact free_mono hfree rfl | apply State.showExp_keeps | apply State.modBench_keeps

theorem State.entryStart_keeps (hfree : msk &&& 67118105 = 0) (s b) (hs : was.Keeps msk s) : was.Keeps msk (s.entryStart b) := by
  unfold State.entryStart
  conv => zeta
  with_reducible repeat' first
    | assumption | exact free_mono hfree rfl | apply State.modBench_keeps | apply State.modCtx_keeps | apply State.setFld_keeps
    | apply State.lendEnd_keeps | apply State.stopNow_keeps | split

theorem State.deskIssue_keeps (hfree : msk &&& 3288344345 = 0) (s b c mask t rsv op) (check) (hs : was.Keeps msk s) :
    was.Keeps msk (s.deskIssue b c mask t rsv op check) := by
  unfold State.deskIssue
  conv => zeta
  with_reducible repeat' first
    | assumption | exact free_mono hfree rfl | apply State.issue_keeps | apply State.illegal_keeps | apply State.block_keeps
    | apply State.modDesk_keeps | apply State.done_keeps | apply State.lendEnd_keeps | refine foldl_keeps _ _ _ (fun _ _ _ => ?_) ?_
    | refine foldlFst_keeps _ _ _ (fun _ _ _ => ?_) ?_ | refine foldlSnd_keeps _ _ _ (fun _ _ _ => ?_) ?_
    | (intro _; intros; try beta_reduce) | refine fst_keeps ?_ (by assumption) | refine snd_keeps ?_ (by assumption) | split

theorem State.winRoll_keeps (hfree : msk &&& 16 = 0) (s b d) (hs : was.Keeps msk s) : was.Keeps msk (s.winRoll b d) := by
  unfold State.winRoll
  conv => zeta
  with_reducible repeat' first | assumption | exact free_mono hfree rfl | apply State.modDesk_keeps | split | dsimp only

theorem State.attemptFail_keeps (hfree : msk &&& 67118105 = 0) (s b d set parity pass row) (hs : was.Keeps msk s) :
    was.Keeps msk (s.attemptFail b d set parity pass row).1 := by
  unfold State.attemptFail
  conv => zeta
  with_reducible repeat' first
    | assumption | exact free_mono hfree rfl | apply State.replay_keeps | apply State.winRoll_keeps | apply State.modDesk_keeps
    | apply State.deskFault_keeps | refine fst_keeps ?_ (by assumption) | refine snd_keeps ?_ (by assumption) | split | dsimp only

theorem State.dwlPush_keeps (hfree : msk &&& 13 = 0) (s b c image) (hs : was.Keeps msk s) : was.Keeps msk (s.dwlPush b c image) := by
  unfold State.dwlPush
  conv => zeta
  with_reducible repeat' first | assumption | exact free_mono hfree rfl | apply State.shelfWrite_keeps | apply State.setFld_keeps

theorem State.lendFull_keeps (hfree : msk &&& 9 = 0) (s b) (hs : was.Keeps msk s) : was.Keeps msk (s.lendFull b) := by
  unfold State.lendFull
  conv => zeta
  with_reducible repeat' first
    | assumption | exact free_mono hfree rfl | apply State.modBench_keeps | apply State.incSat_keeps | split | dsimp only

theorem State.localAnswer_keeps (hfree : msk &&& 3288360729 = 0) (s index who a) (hs : was.Keeps msk s) :
    was.Keeps msk (s.localAnswer index who a) := by
  unfold State.localAnswer
  cases a <;> dsimp only <;>
    with_reducible repeat' first
    | assumption | exact free_mono hfree rfl | apply State.openAnswer_keeps (free_mono hfree rfl)
    | apply State.commitOutcome_keeps (free_mono hfree rfl) | apply State.cancelAnswer_keeps (free_mono hfree rfl)
    | apply State.sigAnswer_keeps (free_mono hfree rfl) | apply State.waitAnswer_keeps (free_mono hfree rfl)
    | apply State.takeAnswer_keeps (free_mono hfree rfl) | split

theorem State.syncResponse_keeps (hfree : msk &&& 3288360729 = 0) (s v st a) (hs : was.Keeps msk s) :
    was.Keeps msk (s.syncResponse v st a) := by
  unfold State.syncResponse
  conv => zeta
  with_reducible repeat' first
    | assumption | exact free_mono hfree rfl | apply State.localAnswer_keeps | apply State.putSync_keeps | apply State.transit_keeps
    | apply State.syncComplete_keeps | split

theorem State.vecMem_keeps (hfree : msk &&& 3288344345 = 0) (s b c fmt rs n align) (k) (hs : was.Keeps msk s) (hk : ∀ n x, was.Keeps msk x → was.Keeps msk (k n x)) :
    was.Keeps msk (s.vecMem b c fmt rs n align k) := by
  unfold State.vecMem
  conv => zeta
  with_reducible repeat' first
    | assumption | exact free_mono hfree rfl | apply hk | apply State.issue_keeps | apply State.illegal_keeps | apply State.block_keeps
    | (intro _; intros; try beta_reduce) | split

theorem State.entryTry_keeps (hfree : msk &&& 67118105 = 0) (s b) (hs : was.Keeps msk s) : was.Keeps msk (s.entryTry b) := by
  unfold State.entryTry
  with_reducible repeat' first | assumption | exact free_mono hfree rfl | apply State.entryStart_keeps | split

theorem State.mergeFails_keeps (hfree : msk &&& 67118105 = 0) (s b d set t fails) (hs : was.Keeps msk s) :
    was.Keeps msk (s.mergeFails b d set t fails).1 := by
  unfold State.mergeFails
  conv => zeta
  with_reducible repeat' first
    | assumption | exact free_mono hfree rfl | apply State.attemptFail_keeps | refine foldl_keeps _ _ _ (fun _ _ _ => ?_) ?_
    | refine foldlFst_keeps _ _ _ (fun _ _ _ => ?_) ?_ | refine foldlSnd_keeps _ _ _ (fun _ _ _ => ?_) ?_
    | refine fst_keeps ?_ (by assumption) | refine snd_keeps ?_ (by assumption) | split | dsimp only

theorem State.mergeRow_keeps (hfree : msk &&& 3288344345 = 0) (s b d e set row t u) (hs : was.Keeps msk s) :
    was.Keeps msk (s.mergeRow b d e set row t u) := by
  unfold State.mergeRow
  conv => zeta
  with_reducible repeat' first
    | assumption | exact free_mono hfree rfl | apply State.drawerRead_keeps | apply State.trap_keeps | apply State.raiseFlags_keeps
    | apply State.drawerWrite_keeps | refine fst_keeps ?_ (by assumption) | refine snd_keeps ?_ (by assumption) | split | dsimp only

theorem State.mergeRows_keeps (hfree : msk &&& 3288344345 = 0) (b d e set j us fails a7 a8 a9) (ha9 : was.Keeps msk a9) :
    was.Keeps msk (State.mergeRows b d e set j us fails a7 a8 a9).1 := by
  induction a7 generalizing a8 a9 with
  | zero => exact ha9
  | succ n ih =>
    simp only [State.mergeRows]
    have h' := State.mergeFails_keeps (free_mono hfree rfl) a9 b d set a8 fails ha9
    split
    · exact h'
    · exact ih _ _ (State.mergeRow_keeps (free_mono hfree rfl) _ _ _ _ _ _ _ _ h')

theorem State.popEnt_keeps (hfree : msk &&& 16 = 0) (s b ds e) (hs : was.Keeps msk s) : was.Keeps msk (s.popEnt b ds e) := by
  unfold State.popEnt
  with_reducible repeat' first
    | assumption | exact free_mono hfree rfl | apply State.modDesk_keeps | refine foldl_keeps _ _ _ (fun _ _ _ => ?_) ?_
    | refine foldlFst_keeps _ _ _ (fun _ _ _ => ?_) ?_ | refine foldlSnd_keeps _ _ _ (fun _ _ _ => ?_) ?_
    | refine fst_keeps ?_ (by assumption) | refine snd_keeps ?_ (by assumption) | split

theorem State.headFault_keeps (hfree : msk &&& 3288344345 = 0) (s b ds e cause) (hs : was.Keeps msk s) :
    was.Keeps msk (s.headFault b ds e cause) := by
  unfold State.headFault
  with_reducible repeat' first
    | assumption | exact free_mono hfree rfl | apply State.rest_keeps | apply State.stop_keeps | apply State.popEnt_keeps

theorem State.drainStart_keeps (hfree : msk &&& 3288344345 = 0) (s b d) (hs : was.Keeps msk s) : was.Keeps msk (s.drainStart b d) := by
  unfold State.drainStart
  conv => zeta
  with_reducible repeat' first
    | assumption | exact free_mono hfree rfl | apply State.headFault_keeps | apply State.popEnt_keeps | apply State.openSet_keeps
    | apply State.modDesk_keeps | apply State.setFld_keeps | split

theorem State.discardNow_keeps (hfree : msk &&& 3288344345 = 0) (s b d) (hs : was.Keeps msk s) : was.Keeps msk (s.discardNow b d) := by
  unfold State.discardNow
  conv => zeta
  with_reducible repeat' first
    | assumption | exact free_mono hfree rfl | apply State.headFault_keeps | apply State.popEnt_keeps | apply State.rest_keeps
    | apply State.freeSet_keeps | split

theorem State.runAgain_keeps (hfree : msk &&& 3288344345 = 0) (s) (hs : was.Keeps msk s) : was.Keeps msk (s.runAgain) := by
  unfold State.runAgain
  conv => zeta
  with_reducible repeat' first
    | assumption | exact free_mono hfree rfl | apply State.wr_keeps | apply State.dwlResume_keeps | apply State.stopRequest_keeps
    | apply State.start_keeps | apply State.putCyc_keeps | refine foldl_keeps _ _ _ (fun _ _ _ => ?_) ?_
    | refine foldlFst_keeps _ _ _ (fun _ _ _ => ?_) ?_ | refine foldlSnd_keeps _ _ _ (fun _ _ _ => ?_) ?_
    | refine fst_keeps ?_ (by assumption) | refine snd_keeps ?_ (by assumption) | split | dsimp only

theorem State.loadNear_keeps (hfree : msk &&& 3321900957 = 0) (s b c l) (hs : was.Keeps msk s) : was.Keeps msk (s.loadNear b c l) := by
  unfold State.loadNear
  conv => zeta
  with_reducible repeat' first
    | assumption | exact free_mono hfree rfl | apply State.loadGone_keeps | apply State.regRead_keeps | apply State.memRead_keeps
    | apply State.accessFailed_keeps | apply State.loadPoison_keeps | apply State.setS_keeps | refine fst_keeps ?_ (by assumption)
    | refine snd_keeps ?_ (by assumption) | split

theorem State.mergeStart_keeps (hfree : msk &&& 3288344345 = 0) (s b d us fails) (hs : was.Keeps msk s) :
    was.Keeps msk (s.mergeStart b d us fails) := by
  unfold State.mergeStart
  conv => zeta
  with_reducible repeat' first
    | assumption | exact free_mono hfree rfl | apply State.headFault_keeps | apply State.openSet_keeps | apply State.checkRow_keeps
    | apply State.mergeRows_keeps | apply State.modDesk_keeps | apply State.rest_keeps | apply State.popEnt_keeps
    | refine fst_keeps ?_ (by assumption) | refine snd_keeps ?_ (by assumption) | split

theorem State.expRead_keeps (hfree : msk &&& 3321890189 = 0) (s b k a n) (hs : was.Keeps msk s) : was.Keeps msk (s.expRead b k a n).1 := by
  unfold State.expRead
  conv => zeta
  with_reducible repeat' first
    | assumption | exact free_mono hfree rfl | apply State.askFar_keeps | apply State.memRead_keeps | apply State.putMove_keeps
    | refine foldl_keeps _ _ _ (fun _ _ _ => ?_) ?_ | refine foldlFst_keeps _ _ _ (fun _ _ _ => ?_) ?_
    | refine foldlSnd_keeps _ _ _ (fun _ _ _ => ?_) ?_ | refine fst_keeps ?_ (by assumption) | refine snd_keeps ?_ (by assumption) | split

theorem State.sendArrival_keeps (hfree : msk &&& 3288336137 = 0) (s b c rd word n) (hs : was.Keeps msk s) :
    was.Keeps msk (s.sendArrival b c rd word n) := by
  unfold State.sendArrival
  conv => zeta
  with_reducible repeat' first
    | assumption | exact free_mono hfree rfl | apply State.syncSend_keeps | apply State.endCommit_keeps | apply State.syncEvent_keeps
    | apply State.modCtx_keeps | refine fst_keeps ?_ (by assumption) | refine snd_keeps ?_ (by assumption) | split

theorem State.loadStart_keeps (hfree : msk &&& 3288344345 = 0) (s b d) (hs : was.Keeps msk s) : was.Keeps msk (s.loadStart b d) := by
  unfold State.loadStart
  conv => zeta
  with_reducible repeat' first
    | assumption | exact free_mono hfree rfl | apply State.headFault_keeps | apply State.popEnt_keeps | apply State.modDesk_keeps
    | apply State.setFld_keeps | apply State.setCode2_keeps | split

theorem State.expBlock_keeps (hfree : msk &&& 67109901 = 0) (s b k h block inb elems cause) (hs : was.Keeps msk s) :
    was.Keeps msk (s.expBlock b k h block inb elems cause) := by
  unfold State.expBlock
  conv => zeta
  with_reducible repeat' first
    | assumption | exact free_mono hfree rfl | apply State.shelfWrite_keeps | apply State.expError_keeps | apply State.expPoison_keeps
    | apply State.incWrap_keeps | apply State.putMove_keeps | apply State.unpend_keeps | refine foldl_keeps _ _ _ (fun _ _ _ => ?_) ?_
    | refine foldlFst_keeps _ _ _ (fun _ _ _ => ?_) ?_ | refine foldlSnd_keeps _ _ _ (fun _ _ _ => ?_) ?_
    | refine fst_keeps ?_ (by assumption) | refine snd_keeps ?_ (by assumption) | split

theorem State.expAbort_keeps (hfree : msk &&& 67109901 = 0) (s b k m cause) (hs : was.Keeps msk s) :
    was.Keeps msk (s.expAbort b k m cause) := by
  unfold State.expAbort
  conv => zeta
  with_reducible repeat' first
    | assumption | exact free_mono hfree rfl | apply State.expPoison_keeps | apply State.expError_keeps | apply State.putMove_keeps
    | apply State.unpend_keeps

theorem State.passStart_keeps (hfree : msk &&& 3288344345 = 0) (s b d) (hs : was.Keeps msk s) : was.Keeps msk (s.passStart b d) := by
  unfold State.passStart
  conv => zeta
  with_reducible repeat' first
    | assumption | exact free_mono hfree rfl | apply State.headFault_keeps | apply State.popEnt_keeps | apply State.openSet_keeps
    | apply State.setFld_keeps | apply State.modDesk_keeps | refine foldl_keeps _ _ _ (fun _ _ _ => ?_) ?_
    | refine foldlFst_keeps _ _ _ (fun _ _ _ => ?_) ?_ | refine foldlSnd_keeps _ _ _ (fun _ _ _ => ?_) ?_
    | refine fst_keeps ?_ (by assumption) | refine snd_keeps ?_ (by assumption) | split

theorem State.rowCommit_keeps (hfree : msk &&& 3288344345 = 0) (s b d us) (hs : was.Keeps msk s) : was.Keeps msk (s.rowCommit b d us) := by
  unfold State.rowCommit
  conv => zeta
  with_reducible repeat' first
    | assumption | exact free_mono hfree rfl | apply State.commitOn_keeps | refine foldl_keeps _ _ _ (fun _ _ _ => ?_) ?_
    | refine foldlFst_keeps _ _ _ (fun _ _ _ => ?_) ?_ | refine foldlSnd_keeps _ _ _ (fun _ _ _ => ?_) ?_
    | refine fst_keeps ?_ (by assumption) | refine snd_keeps ?_ (by assumption) | split

theorem State.fenceIssue_keeps (hfree : msk &&& 3288344345 = 0) (s b c scope rsv) (hs : was.Keeps msk s) :
    was.Keeps msk (s.fenceIssue b c scope rsv) := by
  unfold State.fenceIssue
  with_reducible repeat' first
    | assumption | exact free_mono hfree rfl | apply State.issue_keeps | apply State.done_keeps | apply State.doneBlock_keeps
    | (intro _; intros; try beta_reduce) | split

theorem State.arrivalAt_keeps (hfree : msk &&& 3338684301 = 0) (s w m who flags n attempt tmo) (hs : was.Keeps msk s) :
    was.Keeps msk (s.arrivalAt w m who flags n attempt tmo).1 := by
  unfold State.arrivalAt
  conv => zeta
  with_reducible repeat' first
    | assumption | exact free_mono hfree rfl | apply State.setLw_keeps | apply State.putSync_keeps | apply State.closeIfFull_keeps
    | refine fst_keeps ?_ (by assumption) | refine snd_keeps ?_ (by assumption) | split

theorem State.abortAt_keeps (hfree : msk &&& 3338684301 = 0) (s w flags attempt trap) (hs : was.Keeps msk s) :
    was.Keeps msk (s.abortAt w flags attempt trap) := by
  unfold State.abortAt
  conv => zeta
  with_reducible repeat' first
    | assumption | exact free_mono hfree rfl | apply State.setLw_keeps | apply State.putSync_keeps | apply State.closeIfFull_keeps | split

theorem State.bufferRows_keeps (hfree : msk &&& 16 = 0) (s b d p) (hs : was.Keeps msk s) : was.Keeps msk (s.bufferRows b d p) := by
  unfold State.bufferRows
  conv => zeta
  with_reducible repeat' first
    | assumption | exact free_mono hfree rfl | apply State.modDesk_keeps | refine foldl_keeps _ _ _ (fun _ _ _ => ?_) ?_
    | refine foldlFst_keeps _ _ _ (fun _ _ _ => ?_) ?_ | refine foldlSnd_keeps _ _ _ (fun _ _ _ => ?_) ?_
    | refine fst_keeps ?_ (by assumption) | refine snd_keeps ?_ (by assumption) | split | dsimp only

theorem State.checkFail_keeps (hfree : msk &&& 67118105 = 0) (s b d parity drain) (hs : was.Keeps msk s) :
    was.Keeps msk (s.checkFail b d parity drain) := by
  unfold State.checkFail
  conv => zeta
  with_reducible repeat' first
    | assumption | exact free_mono hfree rfl | apply State.bufferRows_keeps | apply State.attemptFail_keeps
    | refine fst_keeps ?_ (by assumption) | refine snd_keeps ?_ (by assumption) | split

theorem State.openAt_keeps (hfree : msk &&& 3288352521 = 0) (s w ltag rung lad) (hs : was.Keeps msk s) :
    was.Keeps msk (s.openAt w ltag rung lad).1 := by
  unfold State.openAt
  conv => zeta
  with_reducible repeat' first
    | assumption | exact free_mono hfree rfl | apply State.setCounter_keeps | apply State.setLw_keeps | apply State.putSync_keeps
    | apply State.lwExamine_keeps | refine fst_keeps ?_ (by assumption) | refine snd_keeps ?_ (by assumption) | split

theorem State.expTable_keeps (hfree : msk &&& 3321890189 = 0) (s b k a) (hs : was.Keeps msk s) : was.Keeps msk (s.expTable b k a).1 := by
  unfold State.expTable
  conv => zeta
  with_reducible repeat' first
    | assumption | exact free_mono hfree rfl | apply State.expRead_keeps | refine fst_keeps ?_ (by assumption)
    | refine snd_keeps ?_ (by assumption) | split | dsimp only

theorem State.expDecode_keeps (hfree : msk &&& 3321890189 = 0) (s b k m h) (hs : was.Keeps msk s) :
    was.Keeps msk (s.expDecode b k m h) := by
  unfold State.expDecode
  conv => zeta
  with_reducible repeat' first
    | assumption | exact free_mono hfree rfl | apply State.expBlock_keeps | apply State.expRead_keeps | apply State.expTable_keeps
    | apply State.holdTab_keeps | apply State.modBench_keeps | refine fst_keeps ?_ (by assumption) | refine snd_keeps ?_ (by assumption)
    | split

theorem State.expStep_keeps (hfree : msk &&& 3321890189 = 0) (s b) (hs : was.Keeps msk s) : was.Keeps msk (s.expStep b) := by
  unfold State.expStep
  conv => zeta
  with_reducible repeat' first
    | assumption | exact free_mono hfree rfl | apply State.expRead_keeps | apply State.expAbort_keeps | apply State.expDecode_keeps
    | refine fst_keeps ?_ (by assumption) | refine snd_keeps ?_ (by assumption) | split

end Sys2Proof.Machine
end

