-- ==== Sys2Proof/Laws/KeepsFar.lean ====
section
/-!
SUPPORT. What no command undoes (`State.Keeps`): one lemma for each function that answers a state, here for
the Tallboys, the Sideboards, the Trestle and the ports.
-/
namespace Sys2Proof.Machine

variable {msk : Nat} {was : State}

theorem State.rdHere_keeps (hfree : msk &&& 3321889925 = 0) (s v a n) (hs : was.Keeps msk s) : was.Keeps msk (s.rdHere v a n) := by
  unfold State.rdHere
  with_reducible repeat' first
    | assumption | exact free_mono hfree rfl | apply State.reply_keeps | apply State.incSat_keeps | apply State.memRead_keeps
    | refine fst_keeps ?_ (by assumption) | refine snd_keeps ?_ (by assumption) | split

theorem State.wrHere_keeps (hfree : msk &&& 3321906573 = 0) (s v a d be) (hs : was.Keeps msk s) : was.Keeps msk (s.wrHere v a d be) := by
  unfold State.wrHere
  conv => zeta
  with_reducible repeat' first
    | assumption | exact free_mono hfree rfl | apply State.reply_keeps | apply State.incSat_keeps | apply State.memWriteOk_keeps
    | apply State.performed_keeps | refine fst_keeps ?_ (by assumption) | refine snd_keeps ?_ (by assumption) | split

theorem State.serve_keeps (hfree : msk &&& 3321915293 = 0) (s v q) (hs : was.Keeps msk s) : was.Keeps msk (s.serve v q) := by
  unfold State.serve
  conv => zeta
  with_reducible repeat' first
    | assumption | exact free_mono hfree rfl | apply State.rdHere_keeps | apply State.putTmr_keeps | apply State.wrHere_keeps
    | apply State.heldNotify_keeps | split

theorem State.tbyServe_keeps (hfree : msk &&& 3288351877 = 0) (s cls ia n wr) (hs : was.Keeps msk s) :
    was.Keeps msk (s.tbyServe cls ia n wr) := by
  unfold State.tbyServe
  with_reducible repeat' first
    | assumption | exact free_mono hfree rfl | apply State.tbyWrite_keeps | apply State.cwRead_keeps | apply State.send_keeps
    | refine fst_keeps ?_ (by assumption) | refine snd_keeps ?_ (by assumption) | split

theorem State.serveOne_keeps (hfree : msk &&& 3321915293 = 0) (s h) (hs : was.Keeps msk s) : was.Keeps msk (s.serveOne h) := by
  unfold State.serveOne
  conv => zeta
  with_reducible repeat' first
    | assumption | exact free_mono hfree rfl | apply State.putTmr_keeps | apply State.serve_keeps | apply State.tbyServe_keeps | split
    | dsimp only

theorem State.qosCharge_keeps (hfree : msk &&& 128 = 0) (s t h) (hs : was.Keeps msk s) : was.Keeps msk (s.qosCharge t h) := by
  unfold State.qosCharge
  conv => zeta
  with_reducible repeat' first | assumption | exact free_mono hfree rfl | apply State.modStack_keeps | split | dsimp only

theorem State.qosRound_keeps (hfree : msk &&& 128 = 0) (s t q) (hs : was.Keeps msk s) : was.Keeps msk (s.qosRound t q) := by
  unfold State.qosRound
  conv => zeta
  with_reducible repeat' first
    | assumption | exact free_mono hfree rfl | apply State.modStack_keeps | refine foldl_keeps _ _ _ (fun _ _ _ => ?_) ?_
    | refine foldlFst_keeps _ _ _ (fun _ _ _ => ?_) ?_ | refine foldlSnd_keeps _ _ _ (fun _ _ _ => ?_) ?_
    | refine fst_keeps ?_ (by assumption) | refine snd_keeps ?_ (by assumption) | split | dsimp only

theorem State.qosServe_keeps (hfree : msk &&& 3321915293 = 0) (t a1 a2 a3) (ha3 : was.Keeps msk a3) :
    was.Keeps msk (State.qosServe t a1 a2 a3) := by
  induction a1 generalizing a2 a3 with
  | zero => exact foldl_keeps _ _ _ (fun _ _ h => State.serveOne_keeps (free_mono hfree rfl) _ _ h) ha3
  | succ k ih =>
    cases a2 with
    | nil => exact ha3
    | cons x r =>
      simp only [State.qosServe]
      split
      · exact ih _ _ (State.serveOne_keeps (free_mono hfree rfl) _ _ (State.qosCharge_keeps (free_mono hfree rfl) _ _ _ ha3))
      · exact ih _ _ (State.qosRound_keeps (free_mono hfree rfl) _ _ _ ha3)

theorem State.trsEvent_keeps (hfree : msk &&& 1024 = 0) (s code pay) (hs : was.Keeps msk s) : was.Keeps msk (s.trsEvent code pay) := by
  unfold State.trsEvent
  with_reducible repeat' first | assumption | exact free_mono hfree rfl | apply State.raise_keeps

theorem State.modPart_keeps (hfree : msk &&& 32768 = 0) (s i) (f) (hs : was.Keeps msk s) : was.Keeps msk (s.modPart i f) := by
  unfold State.modPart
  conv => zeta
  with_reducible repeat' first | assumption | exact free_mono hfree rfl | apply State.putTrs_keeps

theorem State.abandon_keeps (hfree : msk &&& 33793 = 0) (s i) (hs : was.Keeps msk s) : was.Keeps msk (s.abandon i) := by
  unfold State.abandon
  conv => zeta
  with_reducible repeat' first
    | assumption | exact free_mono hfree rfl | apply State.setFld_keeps | apply State.trsEvent_keeps | apply State.modPart_keeps
    | apply State.putTrs_keeps

theorem State.freeContrib_keeps (hfree : msk &&& 32768 = 0) (s c) (hs : was.Keeps msk s) : was.Keeps msk (s.freeContrib c) := by
  unfold State.freeContrib
  conv => zeta
  with_reducible repeat' first | assumption | exact free_mono hfree rfl | apply State.putTrs_keeps | split | dsimp only

theorem State.applyLog_keeps (hfree : msk &&& 1191199885 = 0) (s g kind m r count nf parts) (hs : was.Keeps msk s) :
    was.Keeps msk (s.applyLog g kind m r count nf parts) := by
  unfold State.applyLog
  conv => zeta
  with_reducible repeat' first | assumption | exact free_mono hfree rfl | apply State.logEntry64_keeps

theorem State.dropContrib_keeps (hfree : msk &&& 1191232653 = 0) (s c m reason) (hs : was.Keeps msk s) :
    was.Keeps msk (s.dropContrib c m reason) := by
  unfold State.dropContrib
  conv => zeta
  with_reducible repeat' first
    | assumption | exact free_mono hfree rfl | apply State.freeContrib_keeps | apply State.trsEvent_keeps | apply State.applyLog_keeps

theorem State.reunions_keeps (hfree : msk &&& 1191232653 = 0) (s g m) (hs : was.Keeps msk s) : was.Keeps msk (s.reunions g m).1 := by
  unfold State.reunions
  conv => zeta
  with_reducible repeat' first
    | assumption | exact free_mono hfree rfl | apply State.abandon_keeps | apply State.dropContrib_keeps
    | refine foldl_keeps _ _ _ (fun _ _ _ => ?_) ?_ | refine foldlFst_keeps _ _ _ (fun _ _ _ => ?_) ?_
    | refine foldlSnd_keeps _ _ _ (fun _ _ _ => ?_) ?_ | refine fst_keeps ?_ (by assumption) | refine snd_keeps ?_ (by assumption) | split

theorem State.storePrint_keeps (hfree : msk &&& 1174422669 = 0) (s slot d j) (hs : was.Keeps msk s) :
    was.Keeps msk (s.storePrint slot d j) := by
  unfold State.storePrint
  with_reducible repeat' first | assumption | exact free_mono hfree rfl | apply State.memWrite_keeps

theorem State.readPos_keeps (hfree : msk &&& 1174406277 = 0) (s d t k p) (hs : was.Keeps msk s) : was.Keeps msk (s.readPos d t k p).1 := by
  unfold State.readPos
  with_reducible repeat' first | assumption | exact free_mono hfree rfl | apply State.memRead_keeps

theorem State.badPosition_keeps (hfree : msk &&& 9217 = 0) (s slot d t k p) (hs : was.Keeps msk s) :
    was.Keeps msk (s.badPosition slot d t k p) := by
  unfold State.badPosition
  conv => zeta
  with_reducible repeat' first
    | assumption | exact free_mono hfree rfl | apply State.raise_keeps | apply State.health_keeps | apply State.putFlt_keeps | split

theorem State.goodPosition_keeps (hfree : msk &&& 9217 = 0) (s slot d t p) (hs : was.Keeps msk s) :
    was.Keeps msk (s.goodPosition slot d t p) := by
  unfold State.goodPosition
  conv => zeta
  with_reducible repeat' first | assumption | exact free_mono hfree rfl | apply State.health_keeps | apply State.putFlt_keeps | split

theorem Upd.read_keeps (hfree : msk &&& 1174414469 = 0) (u slot d t p ks) (hu : was.Keeps msk u.s) :
    was.Keeps msk (Upd.read u slot d t p ks).1.s := by
  unfold Upd.read
  with_reducible repeat' first
    | assumption | exact free_mono hfree rfl | apply State.readPos_keeps | apply State.badPosition_keeps | apply State.goodPosition_keeps
    | refine foldl_keeps _ _ _ (fun _ _ _ => ?_) ?_ | refine foldlFst_keeps _ _ _ (fun _ _ _ => ?_) ?_
    | refine foldlSnd_keeps _ _ _ (fun _ _ _ => ?_) ?_ | refine foldlUpd_keeps _ _ _ (fun _ _ _ => ?_) ?_
    | refine foldlUpdFst_keeps _ _ _ (fun _ _ _ => ?_) ?_ | apply halves_keeps | apply halvesUpd_keeps
    | refine fst_keeps ?_ (by assumption) | refine snd_keeps ?_ (by assumption) | refine updFst_keeps ?_ (by assumption) | split

theorem State.nonFinite_keeps (hfree : msk &&& 67109889 = 0) (s src tid idx) (hs : was.Keeps msk s) :
    was.Keeps msk (s.nonFinite src tid idx) := by
  unfold State.nonFinite
  conv => zeta
  with_reducible repeat' first
    | assumption | exact free_mono hfree rfl | apply State.incSat_keeps | apply State.hwSet_keeps | apply State.setFld_keeps
    | apply State.raise_keeps | split

theorem State.writePos_keeps (hfree : msk &&& 1174422669 = 0) (s d t k p l) (hs : was.Keeps msk s) :
    was.Keeps msk (s.writePos d t k p l) := by
  unfold State.writePos
  with_reducible repeat' first | assumption | exact free_mono hfree rfl | apply State.memWrite_keeps

theorem Upd.note_keeps (u t p olds) (hu : was.Keeps msk u.s) : was.Keeps msk (Upd.note u t p olds).s := by
  unfold Upd.note
  conv => zeta
  with_reducible repeat' first | assumption | refine updFst_keeps ?_ (by assumption) | split | dsimp only

theorem Upd.putStored_keeps (hfree : msk &&& 1174422669 = 0) (u d t p olds) (elem) (hu : was.Keeps msk u.s) :
    was.Keeps msk (Upd.putStored u d t p olds elem).1.s := by
  unfold Upd.putStored
  conv => zeta
  with_reducible repeat' first
    | assumption | exact free_mono hfree rfl | apply State.nonFinite_keeps | apply State.writePos_keeps | apply Upd.note_keeps
    | refine foldl_keeps _ _ _ (fun _ _ _ => ?_) ?_ | refine foldlFst_keeps _ _ _ (fun _ _ _ => ?_) ?_
    | refine foldlSnd_keeps _ _ _ (fun _ _ _ => ?_) ?_ | refine foldlUpd_keeps _ _ _ (fun _ _ _ => ?_) ?_
    | refine foldlUpdFst_keeps _ _ _ (fun _ _ _ => ?_) ?_ | refine fst_keeps ?_ (by assumption) | refine snd_keeps ?_ (by assumption)
    | refine updFst_keeps ?_ (by assumption) | split | dsimp only

theorem Upd.put_keeps (hfree : msk &&& 1174422669 = 0) (u d t p step olds) (elem) (hu : was.Keeps msk u.s) :
    was.Keeps msk (Upd.put u d t p step olds elem).1.s := by
  unfold Upd.put
  conv => zeta
  with_reducible repeat' first | assumption | exact free_mono hfree rfl | apply Upd.putStored_keeps

theorem Upd.measure_keeps (u d t p old res) (hu : was.Keeps msk u.s) : was.Keeps msk (Upd.measure u d t p old res).s := by
  unfold Upd.measure
  conv => zeta
  with_reducible repeat' first
    | assumption | refine foldl_keeps _ _ _ (fun _ _ _ => ?_) ?_ | refine foldlFst_keeps _ _ _ (fun _ _ _ => ?_) ?_
    | refine foldlSnd_keeps _ _ _ (fun _ _ _ => ?_) ?_ | refine foldlUpd_keeps _ _ _ (fun _ _ _ => ?_) ?_
    | refine foldlUpdFst_keeps _ _ _ (fun _ _ _ => ?_) ?_ | refine fst_keeps ?_ (by assumption) | refine snd_keeps ?_ (by assumption)
    | refine updFst_keeps ?_ (by assumption) | split

theorem Upd.matrix_keeps (hfree : msk &&& 1174430861 = 0) (u slot d step c) (hu : was.Keeps msk u.s) :
    was.Keeps msk (Upd.matrix u slot d step c).s := by
  unfold Upd.matrix
  conv => zeta
  with_reducible repeat' first
    | assumption | exact free_mono hfree rfl | apply Upd.read_keeps | apply Upd.put_keeps | apply Upd.measure_keeps
    | refine foldl_keeps _ _ _ (fun _ _ _ => ?_) ?_ | refine foldlFst_keeps _ _ _ (fun _ _ _ => ?_) ?_
    | refine foldlSnd_keeps _ _ _ (fun _ _ _ => ?_) ?_ | refine foldlUpd_keeps _ _ _ (fun _ _ _ => ?_) ?_
    | refine foldlUpdFst_keeps _ _ _ (fun _ _ _ => ?_) ?_ | refine fst_keeps ?_ (by assumption) | refine snd_keeps ?_ (by assumption)
    | refine updFst_keeps ?_ (by assumption) | split

theorem State.tbyClear_keeps (hfree : msk &&& 1 = 0) (s t) (hs : was.Keeps msk s) : was.Keeps msk (s.tbyClear t) := by
  unfold State.tbyClear
  with_reducible repeat' first | assumption | exact free_mono hfree rfl | apply State.wr_keeps

theorem State.quotaWrite_keeps (hfree : msk &&& 3221225737 = 0) (s tc q) (hs : was.Keeps msk s) : was.Keeps msk (s.quotaWrite tc q) := by
  unfold State.quotaWrite
  with_reducible repeat' first | assumption | exact free_mono hfree rfl | apply State.release_keeps | apply State.setFld_keeps

theorem State.rtWrite0_keeps (hfree : msk &&& 256 = 0) (s m v) (hs : was.Keeps msk s) : was.Keeps msk (s.rtWrite0 m v) := by
  unfold State.rtWrite0
  conv => zeta
  with_reducible repeat' first | assumption | exact free_mono hfree rfl | apply State.putTmr_keeps

theorem State.rtWrite1_keeps (hfree : msk &&& 257 = 0) (s m v) (hs : was.Keeps msk s) : was.Keeps msk (s.rtWrite1 m v) := by
  unfold State.rtWrite1
  conv => zeta
  with_reducible repeat' first | assumption | exact free_mono hfree rfl | apply State.putTmr_keeps | apply State.wr_keeps | split

theorem State.checkCal_keeps (hfree : msk &&& 67108865 = 0) (s) (hs : was.Keeps msk s) : was.Keeps msk (s.checkCal) := by
  unfold State.checkCal
  conv => zeta
  with_reducible repeat' first | assumption | exact free_mono hfree rfl | apply State.hwSet_keeps | split

theorem State.trsDisable_keeps (hfree : msk &&& 32769 = 0) (s) (hs : was.Keeps msk s) : was.Keeps msk (s.trsDisable) := by
  unfold State.trsDisable
  conv => zeta
  with_reducible repeat' first
    | assumption | exact free_mono hfree rfl | apply State.setFld_keeps | apply State.putTrs_keeps | apply State.alarmFree_keeps
    | refine foldl_keeps _ _ _ (fun _ _ _ => ?_) ?_ | refine foldlFst_keeps _ _ _ (fun _ _ _ => ?_) ?_
    | refine foldlSnd_keeps _ _ _ (fun _ _ _ => ?_) ?_ | refine fst_keeps ?_ (by assumption) | refine snd_keeps ?_ (by assumption) | split

theorem State.modGrp_keeps (hfree : msk &&& 32768 = 0) (s g) (f) (hs : was.Keeps msk s) : was.Keeps msk (s.modGrp g f) := by
  unfold State.modGrp
  conv => zeta
  with_reducible repeat' first | assumption | exact free_mono hfree rfl | apply State.putTrs_keeps

theorem State.putLin_keeps (hfree : msk &&& 1174422669 = 0) (s g j r) (hs : was.Keeps msk s) : was.Keeps msk (s.putLin g j r) := by
  unfold State.putLin
  with_reducible repeat' first | assumption | exact free_mono hfree rfl | apply State.memWrite_keeps

theorem State.showGate_keeps (hfree : msk &&& 1025 = 0) (s) (hs : was.Keeps msk s) : was.Keeps msk (s.showGate) := by
  unfold State.showGate
  conv => zeta
  with_reducible repeat' first | assumption | exact free_mono hfree rfl | apply State.setFld_keeps | apply State.trsEvent_keeps | split

theorem State.showDelay_keeps (hfree : msk &&& 1 = 0) (s) (hs : was.Keeps msk s) : was.Keeps msk (s.showDelay) := by
  unfold State.showDelay
  with_reducible repeat' first | assumption | exact free_mono hfree rfl | apply State.setFld_keeps

theorem State.trsEnable_keeps (hfree : msk &&& 1174455437 = 0) (s) (hs : was.Keeps msk s) : was.Keeps msk (s.trsEnable).1 := by
  unfold State.trsEnable
  conv => zeta
  with_reducible repeat' first
    | assumption | exact free_mono hfree rfl | apply State.stageClaim_keeps | apply State.hwSet_keeps | apply State.alarmTake_keeps
    | apply State.setFld_keeps | apply State.showTime_keeps | apply State.putTrs_keeps | apply State.checkCal_keeps
    | apply State.modPart_keeps | apply State.modGrp_keeps | apply State.putLin_keeps | apply State.showGate_keeps
    | apply State.showDelay_keeps | refine foldl_keeps _ _ _ (fun _ _ _ => ?_) ?_ | refine foldlFst_keeps _ _ _ (fun _ _ _ => ?_) ?_
    | refine foldlSnd_keeps _ _ _ (fun _ _ _ => ?_) ?_ | refine fst_keeps ?_ (by assumption) | refine snd_keeps ?_ (by assumption) | split

theorem State.forgetPart_keeps (hfree : msk &&& 32768 = 0) (s i) (hs : was.Keeps msk s) : was.Keeps msk (s.forgetPart i) := by
  unfold State.forgetPart
  conv => zeta
  with_reducible repeat' first | assumption | exact free_mono hfree rfl | apply State.modPart_keeps | split | dsimp only

theorem State.partEnter_keeps (hfree : msk &&& 1025 = 0) (s i new cause) (hs : was.Keeps msk s) :
    was.Keeps msk (s.partEnter i new cause) := by
  unfold State.partEnter
  conv => zeta
  with_reducible repeat' first | assumption | exact free_mono hfree rfl | apply State.trsEvent_keeps | apply State.setFld_keeps | split

theorem State.partWrite_keeps (hfree : msk &&& 33793 = 0) (s i v) (hs : was.Keeps msk s) : was.Keeps msk (s.partWrite i v) := by
  unfold State.partWrite
  conv => zeta
  with_reducible repeat' first
    | assumption | exact free_mono hfree rfl | apply State.wr_keeps | apply State.showDelay_keeps | apply State.forgetPart_keeps
    | apply State.setFld_keeps | apply State.partEnter_keeps | split

theorem State.sendBytes_keeps (hfree : msk &&& 3221225473 = 0) (s p l) (hs : was.Keeps msk s) : was.Keeps msk (s.sendBytes p l) := by
  unfold State.sendBytes
  conv => zeta
  with_reducible repeat' first
    | assumption | exact free_mono hfree rfl | apply State.incWrap_keeps | apply State.send_keeps | apply State.draw_keeps

theorem State.sendAgain_keeps (hfree : msk &&& 3221258241 = 0) (s) (hs : was.Keeps msk s) : was.Keeps msk (s.sendAgain) := by
  unfold State.sendAgain
  conv => zeta
  with_reducible repeat' first
    | assumption | exact free_mono hfree rfl | apply State.sendBytes_keeps | apply State.nextFresh_keeps | apply State.putTrs_keeps
    | refine foldl_keeps _ _ _ (fun _ _ _ => ?_) ?_ | refine foldlFst_keeps _ _ _ (fun _ _ _ => ?_) ?_
    | refine foldlSnd_keeps _ _ _ (fun _ _ _ => ?_) ?_ | refine fst_keeps ?_ (by assumption) | refine snd_keeps ?_ (by assumption) | split
    | dsimp only

theorem State.noteSent_keeps (hfree : msk &&& 32768 = 0) (s f bytes) (hs : was.Keeps msk s) : was.Keeps msk (s.noteSent f bytes) := by
  unfold State.noteSent
  conv => zeta
  with_reducible repeat' first
    | assumption | exact free_mono hfree rfl | apply State.putTrs_keeps | apply State.modPart_keeps | split | dsimp only

theorem State.trySend_keeps (hfree : msk &&& 3221258241 = 0) (s f) (hs : was.Keeps msk s) : was.Keeps msk (s.trySend f).1 := by
  unfold State.trySend
  conv => zeta
  with_reducible repeat' first
    | assumption | exact free_mono hfree rfl | apply State.putTrs_keeps | apply State.noteSent_keeps | apply State.sendBytes_keeps
    | apply State.nextFresh_keeps | refine fst_keeps ?_ (by assumption) | refine snd_keeps ?_ (by assumption) | split

theorem State.flushFar_keeps (hfree : msk &&& 3221259265 = 0) (s) (hs : was.Keeps msk s) : was.Keeps msk (s.flushFar) := by
  unfold State.flushFar
  conv => zeta
  with_reducible repeat' first
    | assumption | exact free_mono hfree rfl | apply State.sendAgain_keeps | apply State.showGate_keeps | apply State.putTrs_keeps
    | apply State.trySend_keeps | refine foldl_keeps _ _ _ (fun _ _ _ => ?_) ?_ | refine foldlFst_keeps _ _ _ (fun _ _ _ => ?_) ?_
    | refine foldlSnd_keeps _ _ _ (fun _ _ _ => ?_) ?_ | refine fst_keeps ?_ (by assumption) | refine snd_keeps ?_ (by assumption) | split

theorem State.unitDone_keeps (hfree : msk &&& 3288352521 = 0) (s id dest) (hs : was.Keeps msk s) : was.Keeps msk (s.unitDone id dest) := by
  unfold State.unitDone
  with_reducible repeat' first | assumption | exact free_mono hfree rfl | apply State.unitSignal_keeps | split

theorem State.unitSettle_keeps (hfree : msk &&& 3288352521 = 0) (s id dest) (hs : was.Keeps msk s) :
    was.Keeps msk (s.unitSettle id dest) := by
  unfold State.unitSettle
  with_reducible repeat' first | assumption | exact free_mono hfree rfl | apply State.unitDone_keeps | split

theorem State.txnEnd_keeps (hfree : msk &&& 3288360729 = 0) (s t st data psn) (hs : was.Keeps msk s) :
    was.Keeps msk (s.txnEnd t st data psn) := by
  unfold State.txnEnd
  conv => zeta
  with_reducible repeat' first
    | assumption | exact free_mono hfree rfl | apply State.syncComplete_keeps | apply State.retire_keeps | apply State.recordFail_keeps
    | apply State.loadFar_keeps | apply State.storeFar_keeps | apply State.cacheFill_keeps | apply State.moveRdDone_keeps
    | apply State.moveWrDone_keeps | apply State.unitSettle_keeps | split

theorem State.failDead_keeps (hfree : msk &&& 3288360729 = 0) (s) (hs : was.Keeps msk s) : was.Keeps msk (s.failDead) := by
  unfold State.failDead
  conv => zeta
  with_reducible repeat' first
    | assumption | exact free_mono hfree rfl | apply State.txnEnd_keeps | apply State.putTmr_keeps
    | refine foldl_keeps _ _ _ (fun _ _ _ => ?_) ?_ | refine foldlFst_keeps _ _ _ (fun _ _ _ => ?_) ?_
    | refine foldlSnd_keeps _ _ _ (fun _ _ _ => ?_) ?_ | refine fst_keeps ?_ (by assumption) | refine snd_keeps ?_ (by assumption) | split
    | dsimp only

theorem State.hostWrite_keeps (hfree : msk &&& 2147483649 = 0) (s a data) (hs : was.Keeps msk s) : was.Keeps msk (s.hostWrite a data) := by
  unfold State.hostWrite
  with_reducible repeat' first
    | assumption | exact free_mono hfree rfl | apply State.send_keeps | apply State.incSat_keeps
    | refine foldl_keeps _ _ _ (fun _ _ _ => ?_) ?_ | refine foldlFst_keeps _ _ _ (fun _ _ _ => ?_) ?_
    | refine foldlSnd_keeps _ _ _ (fun _ _ _ => ?_) ?_ | refine fst_keeps ?_ (by assumption) | refine snd_keeps ?_ (by assumption) | split

theorem State.sbdWriteFar_keeps (hfree : msk &&& 3321906573 = 0) (s m a data id) (hs : was.Keeps msk s) :
    was.Keeps msk (s.sbdWriteFar m a data id) := by
  unfold State.sbdWriteFar
  conv => zeta
  with_reducible repeat' first
    | assumption | exact free_mono hfree rfl | apply State.memWrite_keeps | apply State.submit_keeps
    | refine foldl_keeps _ _ _ (fun _ _ _ => ?_) ?_ | refine foldlFst_keeps _ _ _ (fun _ _ _ => ?_) ?_
    | refine foldlSnd_keeps _ _ _ (fun _ _ _ => ?_) ?_ | refine fst_keeps ?_ (by assumption) | refine snd_keeps ?_ (by assumption) | split

theorem State.expWrite_keeps (hfree : msk &&& 3321906573 = 0) (s t slot off data) (hs : was.Keeps msk s) :
    was.Keeps msk (s.expWrite t slot off data) := by
  unfold State.expWrite
  conv => zeta
  with_reducible repeat' first
    | assumption | exact free_mono hfree rfl | apply State.hostWrite_keeps | apply State.sbdWriteFar_keeps | split

theorem State.serveHeld_keeps (hfree : msk &&& 3321915293 = 0) (s) (hs : was.Keeps msk s) : was.Keeps msk (s.serveHeld) := by
  unfold State.serveHeld
  conv => zeta
  with_reducible repeat' first
    | assumption | exact free_mono hfree rfl | apply State.serveOne_keeps | apply State.putTmr_keeps | apply State.qosServe_keeps
    | refine foldl_keeps _ _ _ (fun _ _ _ => ?_) ?_ | refine foldlFst_keeps _ _ _ (fun _ _ _ => ?_) ?_
    | refine foldlSnd_keeps _ _ _ (fun _ _ _ => ?_) ?_ | refine fst_keeps ?_ (by assumption) | refine snd_keeps ?_ (by assumption) | split

theorem State.requestIn_keeps (hfree : msk &&& 3321915293 = 0) (s v q) (hs : was.Keeps msk s) : was.Keeps msk (s.requestIn v q) := by
  unfold State.requestIn
  with_reducible repeat' first
    | assumption | exact free_mono hfree rfl | apply State.transit_keeps | apply State.arrive_keeps | apply State.serve_keeps
    | apply State.reply_keeps | refine fst_keeps ?_ (by assumption) | refine snd_keeps ?_ (by assumption) | split

theorem Upd.gather_keeps (hfree : msk &&& 1174422669 = 0) (u d) (hu : was.Keeps msk u.s) : was.Keeps msk (Upd.gather u d).s := by
  unfold Upd.gather
  split
  · exact hu
  · refine foldlUpd_keeps _ _ _ (fun v w hv => ?_) hu
    rcases he : v.s.memRead 3 (d.addr w.t 11 w.p) 2112 with ⟨s, old, x⟩
    have h := fun l => State.memWrite_keeps (free_mono hfree rfl) s 3 (d.addr w.t 11 w.p) l (fst_keeps (State.memRead_keeps (free_mono hfree rfl) _ _ _ _ hv) he)
    simp only
    exact h _

theorem State.dropFrame_keeps (hfree : msk &&& 33793 = 0) (s reason port h) (hs : was.Keeps msk s) :
    was.Keeps msk (s.dropFrame reason port h) := by
  unfold State.dropFrame
  conv => zeta
  with_reducible repeat' first
    | assumption | exact free_mono hfree rfl | apply State.incSat_keeps | apply State.trsEvent_keeps | apply State.putTrs_keeps | split

theorem State.sendFrames_keeps (hfree : msk &&& 3221259265 = 0) (s l) (hs : was.Keeps msk s) : was.Keeps msk (s.sendFrames l) := by
  unfold State.sendFrames
  conv => zeta
  with_reducible repeat' first | assumption | exact free_mono hfree rfl | apply State.flushFar_keeps | apply State.putTrs_keeps

theorem State.control_keeps (hfree : msk &&& 3221259265 = 0) (s i kind g body) (hs : was.Keeps msk s) :
    was.Keeps msk (s.control i kind g body) := by
  unfold State.control
  conv => zeta
  with_reducible repeat' first | assumption | exact free_mono hfree rfl | apply State.sendFrames_keeps

theorem State.sendLineage_keeps (hfree : msk &&& 3221259265 = 0) (s i) (hs : was.Keeps msk s) : was.Keeps msk (s.sendLineage i) := by
  unfold State.sendLineage
  conv => zeta
  with_reducible repeat' first
    | assumption | exact free_mono hfree rfl | apply State.control_keeps | refine foldl_keeps _ _ _ (fun _ _ _ => ?_) ?_

theorem State.startReunion_keeps (hfree : msk &&& 3221259265 = 0) (s i) (hs : was.Keeps msk s) : was.Keeps msk (s.startReunion i) := by
  unfold State.startReunion
  conv => zeta
  with_reducible repeat' first
    | assumption | exact free_mono hfree rfl | apply State.incSat_keeps | apply State.setFld_keeps | apply State.modPart_keeps
    | apply State.sendLineage_keeps | split

theorem State.recvFrame_keeps (hfree : msk &&& 3221259265 = 0) (s port l) (hs : was.Keeps msk s) :
    was.Keeps msk (s.recvFrame port l).1 := by
  unfold State.recvFrame
  conv => zeta
  with_reducible repeat' first
    | assumption | exact free_mono hfree rfl | apply State.incSat_keeps | apply State.dropFrame_keeps | apply State.startReunion_keeps
    | apply State.modPart_keeps | apply State.incWrap_keeps | refine fst_keeps ?_ (by assumption) | refine snd_keeps ?_ (by assumption)
    | split

theorem State.putContrib_keeps (hfree : msk &&& 32768 = 0) (s c) (hs : was.Keeps msk s) : was.Keeps msk (s.putContrib c) := by
  unfold State.putContrib
  conv => zeta
  with_reducible repeat' first | assumption | exact free_mono hfree rfl | apply State.putTrs_keeps

theorem State.answerContrib_keeps (hfree : msk &&& 3221259265 = 0) (s i c kind body) (hs : was.Keeps msk s) :
    was.Keeps msk (s.answerContrib i c kind body) := by
  unfold State.answerContrib
  conv => zeta
  with_reducible repeat' first
    | assumption | exact free_mono hfree rfl | apply State.putTrs_keeps | apply State.putContrib_keeps | apply State.sendFrames_keeps
    | split | dsimp only

theorem State.ack_keeps (hfree : msk &&& 3221259265 = 0) (s i c) (hs : was.Keeps msk s) : was.Keeps msk (s.ack i c) := by
  unfold State.ack
  with_reducible repeat' first | assumption | exact free_mono hfree rfl | apply State.answerContrib_keeps

theorem State.nack_keeps (hfree : msk &&& 3221259265 = 0) (s i c) (hs : was.Keeps msk s) : was.Keeps msk (s.nack i c) := by
  unfold State.nack
  conv => zeta
  with_reducible repeat' first | assumption | exact free_mono hfree rfl | apply State.answerContrib_keeps

theorem State.repeatData_keeps (hfree : msk &&& 3221259265 = 0) (s i h) (hs : was.Keeps msk s) : was.Keeps msk (s.repeatData i h) := by
  unfold State.repeatData
  conv => zeta
  with_reducible repeat' first
    | assumption | exact free_mono hfree rfl | apply State.ack_keeps | apply State.nack_keeps | split | dsimp only

theorem State.dropDelays_keeps (hfree : msk &&& 32769 = 0) (s i) (hs : was.Keeps msk s) : was.Keeps msk (s.dropDelays i) := by
  unfold State.dropDelays
  conv => zeta
  with_reducible repeat' first | assumption | exact free_mono hfree rfl | apply State.modPart_keeps | apply State.setFld_keeps

theorem State.sample_keeps (hfree : msk &&& 33793 = 0) (s i round d) (hs : was.Keeps msk s) : was.Keeps msk (s.sample i round d) := by
  unfold State.sample
  conv => zeta
  with_reducible repeat' first
    | assumption | exact free_mono hfree rfl | apply State.modPart_keeps | apply State.setFld_keeps | apply State.dropDelays_keeps
    | apply State.trsEvent_keeps | apply State.showDelay_keeps | split

theorem State.takeData_keeps (hfree : msk &&& 3221259265 = 0) (s i h body) (hs : was.Keeps msk s) :
    was.Keeps msk (s.takeData i h body) := by
  unfold State.takeData
  conv => zeta
  with_reducible repeat' first
    | assumption | exact free_mono hfree rfl | apply State.sample_keeps | apply State.ack_keeps | apply State.setFld_keeps
    | apply State.putContrib_keeps | split | dsimp only

theorem State.slotSum_keeps (hfree : msk &&& 1174406277 = 0) (s d) (hs : was.Keeps msk s) : was.Keeps msk (s.slotSum d).1 := by
  unfold State.slotSum
  with_reducible repeat' first
    | assumption | exact free_mono hfree rfl | apply State.readPos_keeps | refine foldl_keeps _ _ _ (fun _ _ _ => ?_) ?_
    | refine foldlFst_keeps _ _ _ (fun _ _ _ => ?_) ?_

theorem State.recvControl_keeps (hfree : msk &&& 3221259265 = 0) (s p sub frame) (more) (hs : was.Keeps msk s) :
    was.Keeps msk (s.recvControl p sub frame more).1 := by
  unfold State.recvControl
  with_reducible repeat' first
    | assumption | exact free_mono hfree rfl | apply State.recvFrame_keeps | refine fst_keeps ?_ (by assumption)
    | refine snd_keeps ?_ (by assumption) | split

theorem State.putXfer_keeps (hfree : msk &&& 32768 = 0) (s x) (hs : was.Keeps msk s) : was.Keeps msk (s.putXfer x) := by
  unfold State.putXfer
  conv => zeta
  with_reducible repeat' first | assumption | exact free_mono hfree rfl | apply State.putTrs_keeps

theorem State.askBlocks_keeps (hfree : msk &&& 3221259265 = 0) (s x) (hs : was.Keeps msk s) : was.Keeps msk (s.askBlocks x) := by
  unfold State.askBlocks
  conv => zeta
  with_reducible repeat' first
    | assumption | exact free_mono hfree rfl | apply State.control_keeps | refine foldl_keeps _ _ _ (fun _ _ _ => ?_) ?_

theorem State.listBlocks_keeps (hfree : msk &&& 3221259265 = 0) (s x) (hs : was.Keeps msk s) : was.Keeps msk (s.listBlocks x) := by
  unfold State.listBlocks
  conv => zeta
  with_reducible repeat' first
    | assumption | exact free_mono hfree rfl | apply State.putXfer_keeps | apply State.askBlocks_keeps | split | dsimp only

theorem exportKey_keeps (hfree : msk &&& 1174406277 = 0) (t d put p q k) (hp : ∀ a b c l q, was.Keeps msk q.1 → was.Keeps msk (put a b c l q).1) (hq : was.Keeps msk q.1) :
    was.Keeps msk (exportKey t d put p q k).1 := by
  unfold exportKey
  split
  next he => exact hp _ _ _ _ _ (fst_keeps (State.readPos_keeps (free_mono hfree rfl) _ _ _ _ _ hq) he)

theorem State.modSlot_keeps (hfree : msk &&& 16384 = 0) (s t l) (f) (hs : was.Keeps msk s) : was.Keeps msk (s.modSlot t l f) := by
  unfold State.modSlot
  with_reducible repeat' first | assumption | exact free_mono hfree rfl | apply State.modUnit_keeps

theorem State.sbdEvent_keeps (hfree : msk &&& 1024 = 0) (s code t pay) (hs : was.Keeps msk s) : was.Keeps msk (s.sbdEvent code t pay) := by
  unfold State.sbdEvent
  with_reducible repeat' first | assumption | exact free_mono hfree rfl | apply State.raise_keeps

theorem State.showResync_keeps (hfree : msk &&& 1 = 0) (s t) (hs : was.Keeps msk s) : was.Keeps msk (s.showResync t) := by
  unfold State.showResync
  with_reducible repeat' first | assumption | exact free_mono hfree rfl | apply State.setFld_keeps

theorem State.putFrame_keeps (hfree : msk &&& 3321906573 = 0) (s t slot step d h payload) (hs : was.Keeps msk s) :
    was.Keeps msk (s.putFrame t slot step d h payload).1 := by
  unfold State.putFrame
  conv => zeta
  with_reducible repeat' first
    | assumption | exact free_mono hfree rfl | apply State.memRead_keeps | apply State.modSlot_keeps | apply State.expWrite_keeps
    | apply State.incWrap_keeps | apply State.setFld_keeps | apply State.incSat_keeps | apply State.sbdEvent_keeps
    | apply State.showResync_keeps | refine fst_keeps ?_ (by assumption) | refine snd_keeps ?_ (by assumption) | split

theorem exportPut_keeps (hfree : msk &&& 3321906573 = 0) (tabs t slot step d nfPos kind p k l q) (hq : was.Keeps msk q.1) :
    was.Keeps msk (exportPut tabs t slot step d nfPos kind p k l q).1 := by
  unfold exportPut
  with_reducible repeat' first | assumption | exact free_mono hfree rfl | apply State.putFrame_keeps

theorem exportDelta_keeps (hfree : msk &&& 1174406277 = 0) (t slot d put q w) (hp : ∀ a b c l q, was.Keeps msk q.1 → was.Keeps msk (put a b c l q).1) (hq : was.Keeps msk q.1) :
    was.Keeps msk (exportDelta t slot d put q w).1 := by
  unfold exportDelta
  split
  · exact hq
  · split
    next he => exact hp _ _ _ _ _ (fst_keeps (State.memRead_keeps (free_mono hfree rfl) _ _ _ _ hq) he)

theorem State.exportBlocks_keeps (hfree : msk &&& 3321906573 = 0) (s tabs t slot step d nfPos full wr) (hs : was.Keeps msk s) :
    was.Keeps msk (s.exportBlocks tabs t slot step d nfPos full wr).1 := by
  unfold State.exportBlocks
  split
  · exact foldlFst_keeps _ _ _ (fun a q ha => foldlFst_keeps _ _ _ (fun b k hb =>
      exportKey_keeps (free_mono hfree rfl) _ _ _ _ _ _ (fun _ _ _ _ _ h => exportPut_keeps (free_mono hfree rfl) _ _ _ _ _ _ _ _ _ _ _ h) hb) ha) hs
  · exact foldlFst_keeps _ _ _ (fun a w ha =>
      exportDelta_keeps (free_mono hfree rfl) _ _ _ _ _ _ (fun _ _ _ _ _ h => exportPut_keeps (free_mono hfree rfl) _ _ _ _ _ _ _ _ _ _ _ h) ha) hs

theorem State.exportAt_keeps (hfree : msk &&& 3321906573 = 0) (s t slot step d dec nfPos wr) (hs : was.Keeps msk s) :
    was.Keeps msk (s.exportAt t slot step d dec nfPos wr) := by
  unfold State.exportAt
  split
  · exact hs
  · extract_lets keyp full s1 tabs r done e
    have h1 : was.Keeps msk s1 := State.modUnit_keeps (free_mono hfree rfl) _ _ _ hs
    have hr : was.Keeps msk r.1 := State.exportBlocks_keeps (free_mono hfree rfl) _ _ _ _ _ _ _ _ _ h1
    clear_value r
    have he : was.Keeps msk e.1 := State.putFrame_keeps (free_mono hfree rfl) _ _ _ _ _ _ _ hr
    clear_value e
    split
    · exact State.showResync_keeps (free_mono hfree rfl) _ _ (State.modSlot_keeps (free_mono hfree rfl) _ _ _ _ he)
    · exact he

theorem Upd.elementwise_keeps (hfree : msk &&& 1174430861 = 0) (u slot d step c t p) (hu : was.Keeps msk u.s) :
    was.Keeps msk (Upd.elementwise u slot d step c t p).s := by
  unfold Upd.elementwise
  conv => zeta
  with_reducible repeat' first
    | assumption | exact free_mono hfree rfl | apply Upd.read_keeps | apply Upd.put_keeps | apply Upd.measure_keeps
    | refine fst_keeps ?_ (by assumption) | refine snd_keeps ?_ (by assumption) | refine updFst_keeps ?_ (by assumption) | split

theorem State.sendHello_keeps (hfree : msk &&& 3221259265 = 0) (s i) (hs : was.Keeps msk s) : was.Keeps msk (s.sendHello i) := by
  unfold State.sendHello
  with_reducible repeat' first | assumption | exact free_mono hfree rfl | apply State.control_keeps

theorem State.askJoin_keeps (hfree : msk &&& 3221259265 = 0) (s i) (hs : was.Keeps msk s) : was.Keeps msk (s.askJoin i) := by
  unfold State.askJoin
  with_reducible repeat' first | assumption | exact free_mono hfree rfl | apply State.control_keeps

theorem State.joinAgain_keeps (hfree : msk &&& 3221259265 = 0) (s i g) (hs : was.Keeps msk s) : was.Keeps msk (s.joinAgain i g) := by
  unfold State.joinAgain
  conv => zeta
  with_reducible repeat' first
    | assumption | exact free_mono hfree rfl | apply State.putTrs_keeps | apply State.askJoin_keeps | apply State.modPart_keeps | split
    | dsimp only

theorem State.joinLate_keeps (hfree : msk &&& 3221259265 = 0) (s g off) (hs : was.Keeps msk s) : was.Keeps msk (s.joinLate g off) := by
  unfold State.joinLate
  conv => zeta
  with_reducible repeat' first | assumption | exact free_mono hfree rfl | apply State.joinAgain_keeps | split | dsimp only

theorem State.skipRound_keeps (hfree : msk &&& 1191199885 = 0) (s g n due) (hs : was.Keeps msk s) :
    was.Keeps msk (s.skipRound g n due) := by
  unfold State.skipRound
  conv => zeta
  with_reducible repeat' first
    | assumption | exact free_mono hfree rfl | apply State.trsEvent_keeps | apply State.incSat_keeps | apply State.applyLog_keeps

theorem State.snapPartners_keeps (hfree : msk &&& 33793 = 0) (s n) (hs : was.Keeps msk s) : was.Keeps msk (s.snapPartners n) := by
  unfold State.snapPartners
  conv => zeta
  with_reducible repeat' first
    | assumption | exact free_mono hfree rfl | apply State.showDelay_keeps | apply State.partEnter_keeps | apply State.modPart_keeps
    | apply State.abandon_keeps | refine foldl_keeps _ _ _ (fun _ _ _ => ?_) ?_ | refine foldlFst_keeps _ _ _ (fun _ _ _ => ?_) ?_
    | refine foldlSnd_keeps _ _ _ (fun _ _ _ => ?_) ?_ | refine fst_keeps ?_ (by assumption) | refine snd_keeps ?_ (by assumption) | split

theorem State.beginSnap_keeps (hfree : msk &&& 33793 = 0) (s g n) (hs : was.Keeps msk s) : was.Keeps msk (s.beginSnap g n) := by
  unfold State.beginSnap
  conv => zeta
  with_reducible repeat' first
    | assumption | exact free_mono hfree rfl | apply State.snapPartners_keeps | apply State.modGrp_keeps | apply State.putTrs_keeps

theorem State.calMark_keeps (hfree : msk &&& 2147487744 = 0) (s g) (hs : was.Keeps msk s) : was.Keeps msk (s.calMark g) := by
  unfold State.calMark
  conv => zeta
  with_reducible repeat' first | assumption | exact free_mono hfree rfl | apply State.driveMark_keeps | apply State.putClk_keeps | split

theorem State.lateStart_keeps (hfree : msk &&& 2147488769 = 0) (s g action due) (hs : was.Keeps msk s) :
    was.Keeps msk (s.lateStart g action due) := by
  unfold State.lateStart
  conv => zeta
  with_reducible repeat' first
    | assumption | exact free_mono hfree rfl | apply State.calMark_keeps | apply State.trsEvent_keeps | apply State.incSat_keeps | split

theorem State.showSpared_keeps (hfree : msk &&& 1 = 0) (s t) (hs : was.Keeps msk s) : was.Keeps msk (s.showSpared t) := by
  unfold State.showSpared
  conv => zeta
  with_reducible repeat' first | assumption | exact free_mono hfree rfl | apply State.setFld_keeps

theorem State.showWait_keeps (hfree : msk &&& 1 = 0) (s t) (hs : was.Keeps msk s) : was.Keeps msk (s.showWait t) := by
  unfold State.showWait
  conv => zeta
  with_reducible repeat' first | assumption | exact free_mono hfree rfl | apply State.setFld_keeps

theorem Upd.marked_keeps (hfree : msk &&& 32768 = 0) (gi old new) (hold : was.Keeps msk old.s) (hnew : was.Keeps msk new.s) :
    was.Keeps msk (Upd.marked gi old new).s := by
  unfold Upd.marked
  conv => zeta
  with_reducible repeat' first
    | assumption | exact free_mono hfree rfl | apply State.modGrp_keeps | refine updFst_keeps ?_ (by assumption) | split | dsimp only

theorem Upd.applyPos_keeps (hfree : msk &&& 1174463629 = 0) (u slot gi d cur t p) (hu : was.Keeps msk u.s) :
    was.Keeps msk (Upd.applyPos u slot gi d cur t p).s := by
  unfold Upd.applyPos
  conv => zeta
  with_reducible repeat' first
    | assumption | exact free_mono hfree rfl | apply Upd.read_keeps | apply State.nonFinite_keeps | apply State.modGrp_keeps
    | apply Upd.marked_keeps | apply Upd.put_keeps | refine foldl_keeps _ _ _ (fun _ _ _ => ?_) ?_
    | refine foldlFst_keeps _ _ _ (fun _ _ _ => ?_) ?_ | refine foldlSnd_keeps _ _ _ (fun _ _ _ => ?_) ?_
    | refine foldlUpd_keeps _ _ _ (fun _ _ _ => ?_) ?_ | refine foldlUpdFst_keeps _ _ _ (fun _ _ _ => ?_) ?_
    | refine fst_keeps ?_ (by assumption) | refine snd_keeps ?_ (by assumption) | refine updFst_keeps ?_ (by assumption) | split

theorem readDiffElem_keeps (hfree : msk &&& 1174422669 = 0) (d b c a q x) (hq : was.Keeps msk q.1) :
    was.Keeps msk (readDiffElem d b c a q x).1 := by
  unfold readDiffElem
  conv => zeta
  with_reducible repeat' first
    | assumption | exact free_mono hfree rfl | apply State.nonFinite_keeps | apply State.memWrite_keeps
    | refine fst_keeps ?_ (by assumption) | refine snd_keeps ?_ (by assumption) | split

theorem readDiffWord_keeps (hfree : msk &&& 1174422669 = 0) (d b base q c) (hq : was.Keeps msk q.1) :
    was.Keeps msk (readDiffWord d b base q c).1 := by
  unfold readDiffWord
  extract_lets a
  split
  next s' l ok psn he =>
  have h' := fst_keeps (State.memRead_keeps (free_mono hfree rfl) _ _ _ _ hq) he
  split
  · exact State.raise_keeps (free_mono hfree rfl) _ _ _ _ (State.memWrite_keeps (free_mono hfree rfl) _ _ _ _ h')
  · exact foldlFst_keeps _ _ _ (fun q x hq => readDiffElem_keeps (free_mono hfree rfl) _ _ _ _ _ _ hq) h'

theorem State.readDiff_keeps (hfree : msk &&& 1174422669 = 0) (s d b) (hs : was.Keeps msk s) : was.Keeps msk (s.readDiff d b).1 := by
  unfold State.readDiff
  extract_lets j
  split
  split
  · exact hs
  · exact thirds_keeps (foldlFst_keeps _ _ _ (fun p c hp => readDiffWord_keeps (free_mono hfree rfl) _ _ _ _ _ hp) hs)

theorem State.touch_keeps (hfree : msk &&& 1174422669 = 0) (s d t p on) (hs : was.Keeps msk s) : was.Keeps msk (s.touch d t p on) := by
  unfold State.touch
  with_reducible repeat' first
    | assumption | split | exact free_mono hfree rfl | apply State.memRead_keeps | apply State.memWrite_keeps
    | refine fst_keeps ?_ (by assumption)

theorem Upd.clearAt_keeps (hfree : msk &&& 1174430861 = 0) (slot d u q) (hu : was.Keeps msk u.s) :
    was.Keeps msk (Upd.clearAt slot d u q).s := by
  unfold Upd.clearAt
  with_reducible repeat' first
    | assumption | exact free_mono hfree rfl | apply Upd.read_keeps | apply State.touch_keeps | apply State.writePos_keeps
    | refine fst_keeps ?_ (by assumption) | refine snd_keeps ?_ (by assumption) | refine updFst_keeps ?_ (by assumption) | split

theorem Upd.clear_keeps (hfree : msk &&& 1174430861 = 0) (u slot d) (hu : was.Keeps msk u.s) : was.Keeps msk (Upd.clear u slot d).s := by
  unfold Upd.clear
  exact foldlUpd_keeps _ _ _ (fun v p hv => Upd.clearAt_keeps (free_mono hfree rfl) _ _ _ _ hv) hu

theorem Upd.mend_keeps (hfree : msk &&& 1174422669 = 0) (d t p n a4) (ha4 : was.Keeps msk a4.1.s) :
    was.Keeps msk (Upd.mend d t p n a4).1.s := by
  unfold Upd.mend
  conv => zeta
  with_reducible repeat' first
    | assumption | exact free_mono hfree rfl | apply State.writePos_keeps | refine fst_keeps ?_ (by assumption)
    | refine snd_keeps ?_ (by assumption) | refine updFst_keeps ?_ (by assumption) | split | dsimp only

theorem Upd.rederiveAt_keeps (hfree : msk &&& 1174430861 = 0) (slot d t q p) (hq : was.Keeps msk q.1.s) :
    was.Keeps msk (Upd.rederiveAt slot d t q p).1.s := by
  unfold Upd.rederiveAt
  conv => zeta
  with_reducible repeat' first
    | assumption | exact free_mono hfree rfl | apply Upd.mend_keeps | apply Upd.read_keeps | refine fst_keeps ?_ (by assumption)
    | refine snd_keeps ?_ (by assumption) | refine updFst_keeps ?_ (by assumption) | split | dsimp only

theorem Upd.rederive_keeps (hfree : msk &&& 1174430861 = 0) (slot step d q t) (hq : was.Keeps msk q.1.s) :
    was.Keeps msk (Upd.rederive slot step d q t).1.s := by
  unfold Upd.rederive
  conv => zeta
  with_reducible repeat' first
    | assumption | exact free_mono hfree rfl | apply Upd.rederiveAt_keeps | apply State.incSat_keeps | apply State.sbdEvent_keeps
    | refine foldl_keeps _ _ _ (fun _ _ _ => ?_) ?_ | refine foldlFst_keeps _ _ _ (fun _ _ _ => ?_) ?_
    | refine foldlSnd_keeps _ _ _ (fun _ _ _ => ?_) ?_ | refine foldlUpd_keeps _ _ _ (fun _ _ _ => ?_) ?_
    | refine foldlUpdFst_keeps _ _ _ (fun _ _ _ => ?_) ?_ | refine fst_keeps ?_ (by assumption) | refine snd_keeps ?_ (by assumption)
    | refine updFst_keeps ?_ (by assumption) | split | dsimp only

theorem State.update_keeps (hfree : msk &&& 1174430861 = 0) (s slot step d) (recs) (ng gnf) (hs : was.Keeps msk s) :
    was.Keeps msk (s.update slot step d recs ng gnf).1 := by
  unfold State.update
  split
  next s1 sum he1 =>
  have h1 := fst_keeps (State.slotSum_keeps (free_mono hfree rfl) _ _ hs) he1
  extract_lets nl slotNf lead
  split
  next dec f hg =>
  split
  next f' s2 he2 =>
  have h2 : was.Keeps msk s2 := by
    refine snd_keeps ?_ he2
    split
    · exact State.draw_keeps (free_mono hfree rfl) _ _ h1
    · exact h1
  extract_lets anyTouched noGrad consts u0 u1 u2 u3 check u4 gi
  have hu1 : was.Keeps msk u1.s := by
    show was.Keeps msk (Upd.s (if _ then _ else if _ then _ else _))
    split
    · exact h2
    · split
      · exact Upd.matrix_keeps (free_mono hfree rfl) _ _ _ _ _ h2
      · refine foldlUpd_keeps _ _ _ (fun v q hv => ?_) h2
        split
        · exact Upd.elementwise_keeps (free_mono hfree rfl) _ _ _ _ _ _ _ hv
        · exact hv
  have hu2 : was.Keeps msk u2.s := Upd.gather_keeps (free_mono hfree rfl) _ _ hu1
  clear_value u2
  have hu3 : was.Keeps msk u3.s := by
    show was.Keeps msk (Upd.s (if _ then _ else _))
    split
    · exact hu2
    · exact Upd.clear_keeps (free_mono hfree rfl) _ _ _ hu2
  clear_value u3
  split
  next rho delta hrd =>
  show was.Keeps msk (Upd.s (if _ then _ else _))
  split
  · split
    next u5 n he =>
    exact State.putSbd_keeps (free_mono hfree rfl) _ _ (updFst_keeps (foldlUpdFst_keeps _ _ _ (fun q t hq => Upd.rederive_keeps (free_mono hfree rfl) _ _ _ _ _ hq) hu3) he)
  · exact hu3

theorem State.freeSlot_keeps (hfree : msk &&& 3288352521 = 0) (s t x credit) (hs : was.Keeps msk s) :
    was.Keeps msk (s.freeSlot t x credit) := by
  unfold State.freeSlot
  conv => zeta
  with_reducible repeat' first | assumption | exact free_mono hfree rfl | apply State.modUnit_keeps | apply State.unitSignal_keeps

theorem State.dropRec_keeps (hfree : msk &&& 3288352521 = 0) (s t x r reason) (hs : was.Keeps msk s) :
    was.Keeps msk (s.dropRec t x r reason) := by
  unfold State.dropRec
  conv => zeta
  with_reducible repeat' first | assumption | exact free_mono hfree rfl | apply State.sbdEvent_keeps | apply State.freeSlot_keeps

theorem State.askXfer_keeps (hfree : msk &&& 3221259265 = 0) (s x) (hs : was.Keeps msk s) : was.Keeps msk (s.askXfer x) := by
  unfold State.askXfer
  conv => zeta
  with_reducible repeat' first | assumption | exact free_mono hfree rfl | apply State.control_keeps

theorem State.startXfer_keeps (hfree : msk &&& 3221259265 = 0) (s kind g slot part fp voters) (hs : was.Keeps msk s) :
    was.Keeps msk (s.startXfer kind g slot part fp voters) := by
  unfold State.startXfer
  conv => zeta
  with_reducible repeat' first | assumption | exact free_mono hfree rfl | apply State.askXfer_keeps | apply State.putTrs_keeps | split

theorem State.decideVotes_keeps (hfree : msk &&& 3221259265 = 0) (s g m) (hs : was.Keeps msk s) : was.Keeps msk (s.decideVotes g m) := by
  unfold State.decideVotes
  conv => zeta
  with_reducible repeat' first
    | assumption | exact free_mono hfree rfl | apply State.trsEvent_keeps | apply State.startXfer_keeps
    | refine foldl_keeps _ _ _ (fun _ _ _ => ?_) ?_ | refine foldlFst_keeps _ _ _ (fun _ _ _ => ?_) ?_
    | refine foldlSnd_keeps _ _ _ (fun _ _ _ => ?_) ?_ | refine fst_keeps ?_ (by assumption) | refine snd_keeps ?_ (by assumption) | split

theorem State.rollBack_keeps (hfree : msk &&& 1174422669 = 0) (s r) (hs : was.Keeps msk s) : was.Keeps msk (s.rollBack r) := by
  unfold State.rollBack
  conv => zeta
  with_reducible repeat' first
    | assumption | exact free_mono hfree rfl | apply State.draw_keeps | apply State.memWrite_keeps | apply State.writePos_keeps
    | apply State.touch_keeps | refine foldl_keeps _ _ _ (fun _ _ _ => ?_) ?_ | refine foldlFst_keeps _ _ _ (fun _ _ _ => ?_) ?_
    | refine foldlSnd_keeps _ _ _ (fun _ _ _ => ?_) ?_ | refine fst_keeps ?_ (by assumption) | refine snd_keeps ?_ (by assumption) | split
    | dsimp only

theorem Upd.snapPos_keeps (hfree : msk &&& 1174430861 = 0) (u slot d cur round t p) (hu : was.Keeps msk u.s) :
    was.Keeps msk (Upd.snapPos u slot d cur round t p).s := by
  unfold Upd.snapPos
  with_reducible repeat' first
    | assumption | exact free_mono hfree rfl | apply Upd.read_keeps | apply Upd.put_keeps | refine fst_keeps ?_ (by assumption)
    | refine snd_keeps ?_ (by assumption) | refine updFst_keeps ?_ (by assumption) | split

theorem State.remapCheck_keeps (hfree : msk &&& 1153 = 0) (s t cw layer pc) (hs : was.Keeps msk s) :
    was.Keeps msk (s.remapCheck t cw layer pc) := by
  unfold State.remapCheck
  conv => zeta
  with_reducible repeat' first
    | assumption | exact free_mono hfree rfl | apply State.setFld_keeps | apply State.modStack_keeps | apply State.reserveCheck_keeps
    | apply State.tbyEvent_keeps | split

theorem State.installBlock_keeps (hfree : msk &&& 1174422669 = 0) (s i slot d b) (hs : was.Keeps msk s) :
    was.Keeps msk (s.installBlock i slot d b) := by
  unfold State.installBlock
  conv => zeta
  with_reducible repeat' first
    | assumption | exact free_mono hfree rfl | apply State.nonFinite_keeps | apply State.memRead_keeps | apply State.memWrite_keeps
    | refine foldl_keeps _ _ _ (fun _ _ _ => ?_) ?_ | refine foldlFst_keeps _ _ _ (fun _ _ _ => ?_) ?_
    | refine foldlSnd_keeps _ _ _ (fun _ _ _ => ?_) ?_ | refine fst_keeps ?_ (by assumption) | refine snd_keeps ?_ (by assumption) | split
    | dsimp only

theorem State.installGroup_keeps (hfree : msk &&& 1174455437 = 0) (s i g round digest) (hs : was.Keeps msk s) :
    was.Keeps msk (s.installGroup i g round digest) := by
  unfold State.installGroup
  conv => zeta
  with_reducible repeat' first
    | assumption | exact free_mono hfree rfl | apply State.installBlock_keeps | apply State.putLin_keeps | apply State.memWrite_keeps
    | apply State.storePrint_keeps | apply State.putTrs_keeps | apply State.modGrp_keeps | refine foldl_keeps _ _ _ (fun _ _ _ => ?_) ?_

theorem State.stepRec_keeps (hfree : msk &&& 1174406277 = 0) (s t step) (hs : was.Keeps msk s) : was.Keeps msk (s.stepRec t step).1 := by
  unfold State.stepRec
  conv => zeta
  with_reducible repeat' first
    | assumption | exact free_mono hfree rfl | apply State.memRead_keeps | refine fst_keeps ?_ (by assumption)
    | refine snd_keeps ?_ (by assumption) | split

theorem State.readRec_keeps (hfree : msk &&& 1174406277 = 0) (s t x) (hs : was.Keeps msk s) : was.Keeps msk (s.readRec t x).1 := by
  unfold State.readRec
  with_reducible repeat' first | assumption | exact free_mono hfree rfl | apply State.memRead_keeps

theorem State.readDesc_keeps (hfree : msk &&& 1174406277 = 0) (s slot) (hs : was.Keeps msk s) : was.Keeps msk (s.readDesc slot).1 := by
  unfold State.readDesc
  with_reducible repeat' first | assumption | exact free_mono hfree rfl | apply State.memRead_keeps

theorem State.recValues_keeps (hfree : msk &&& 1174406277 = 0) (s t x d r) (hs : was.Keeps msk s) :
    was.Keeps msk (s.recValues t x d r).1 := by
  unfold State.recValues
  conv => zeta
  with_reducible repeat' first
    | assumption | exact free_mono hfree rfl | apply State.memRead_keeps | apply State.nonFinite_keeps
    | refine foldl_keeps _ _ _ (fun _ _ _ => ?_) ?_ | refine foldlFst_keeps _ _ _ (fun _ _ _ => ?_) ?_
    | refine foldlSnd_keeps _ _ _ (fun _ _ _ => ?_) ?_ | refine fst_keeps ?_ (by assumption) | refine snd_keeps ?_ (by assumption) | split

theorem State.accumulate_keeps (hfree : msk &&& 1174430861 = 0) (s t d r tid step xs) (hs : was.Keeps msk s) :
    was.Keeps msk (s.accumulate t d r tid step xs) := by
  unfold State.accumulate
  conv => zeta
  with_reducible repeat' first
    | assumption | exact free_mono hfree rfl | apply State.readPos_keeps | apply State.touch_keeps | apply State.badPosition_keeps
    | apply State.nonFinite_keeps | apply State.writePos_keeps | apply State.modSlot_keeps | refine foldl_keeps _ _ _ (fun _ _ _ => ?_) ?_
    | refine foldlFst_keeps _ _ _ (fun _ _ _ => ?_) ?_ | refine foldlSnd_keeps _ _ _ (fun _ _ _ => ?_) ?_
    | refine fst_keeps ?_ (by assumption) | refine snd_keeps ?_ (by assumption) | split

theorem State.combine_keeps (hfree : msk &&& 3321915277 = 0) (s t l) (hs : was.Keeps msk s) : was.Keeps msk (s.combine t l) := by
  unfold State.combine
  conv => zeta
  with_reducible repeat' first
    | assumption | split | exact free_mono hfree rfl | apply State.readRec_keeps | apply State.recValues_keeps | apply State.modSlot_keeps
    | apply State.accumulate_keeps | apply State.freeSlot_keeps | refine foldl_keeps _ _ _ (fun _ _ _ => ?_) ?_
    | refine foldlFst_keeps _ _ _ (fun _ _ _ => ?_) ?_ | refine foldlSnd_keeps _ _ _ (fun _ _ _ => ?_) ?_ | apply halves_keeps
    | apply thirds_keeps | refine fst_keeps ?_ (by assumption)

theorem State.poll_keeps (hfree : msk &&& 1174422661 = 0) (s t step) (hs : was.Keeps msk s) : was.Keeps msk (s.poll t step) := by
  unfold State.poll
  conv => zeta
  with_reducible repeat' first
    | assumption | exact free_mono hfree rfl | apply State.stepRec_keeps | apply State.showWait_keeps | apply State.modUnit_keeps
    | refine fst_keeps ?_ (by assumption) | refine snd_keeps ?_ (by assumption) | split

theorem State.putNorm_keeps (hfree : msk &&& 16384 = 0) (s n) (hs : was.Keeps msk s) : was.Keeps msk (s.putNorm n) := by
  unfold State.putNorm
  conv => zeta
  with_reducible repeat' first | assumption | exact free_mono hfree rfl | apply State.putSbd_keeps

theorem State.sbdAwait_keeps (hfree : msk &&& 1537 = 0) (s i threshold who w) (hs : was.Keeps msk s) :
    was.Keeps msk (s.sbdAwait i threshold who w).1 := by
  unfold State.sbdAwait
  conv => zeta
  with_reducible repeat' first
    | assumption | exact free_mono hfree rfl | apply State.waitAt_keeps | refine fst_keeps ?_ (by assumption)
    | refine snd_keeps ?_ (by assumption) | split | dsimp only

theorem State.awaitResult_keeps (hfree : msk &&& 17921 = 0) (s) (hs : was.Keeps msk s) : was.Keeps msk (s.awaitResult) := by
  unfold State.awaitResult
  conv => zeta
  with_reducible repeat' first
    | assumption | exact free_mono hfree rfl | apply State.sbdAwait_keeps | apply State.putSbd_keeps | refine fst_keeps ?_ (by assumption)
    | refine snd_keeps ?_ (by assumption) | split | dsimp only

theorem State.awaitSum_keeps (hfree : msk &&& 17921 = 0) (s) (hs : was.Keeps msk s) : was.Keeps msk (s.awaitSum) := by
  unfold State.awaitSum
  conv => zeta
  with_reducible repeat' first
    | assumption | exact free_mono hfree rfl | apply State.sbdAwait_keeps | apply State.putSbd_keeps | refine fst_keeps ?_ (by assumption)
    | refine snd_keeps ?_ (by assumption) | split | dsimp only

theorem State.sendSum_keeps (hfree : msk &&& 3321907085 = 0) (s n) (hs : was.Keeps msk s) : was.Keeps msk (s.sendSum n) := by
  unfold State.sendSum
  conv => zeta
  with_reducible repeat' first
    | assumption | exact free_mono hfree rfl | apply State.putNorm_keeps | apply State.sbdWriteFar_keeps | apply State.awaitResult_keeps
    | apply State.awaitSum_keeps | apply State.unitSettle_keeps

theorem State.normAdd_keeps (hfree : msk &&& 3321907085 = 0) (s l step d valid) (hs : was.Keeps msk s) :
    was.Keeps msk (s.normAdd l step d valid) := by
  unfold State.normAdd
  conv => zeta
  with_reducible repeat' first
    | assumption | exact free_mono hfree rfl | apply State.slotSum_keeps | apply State.putNorm_keeps | apply State.readDesc_keeps
    | apply State.sendSum_keeps | refine foldl_keeps _ _ _ (fun _ _ _ => ?_) ?_ | refine foldlFst_keeps _ _ _ (fun _ _ _ => ?_) ?_
    | refine foldlSnd_keeps _ _ _ (fun _ _ _ => ?_) ?_ | refine fst_keeps ?_ (by assumption) | refine snd_keeps ?_ (by assumption) | split

theorem State.showSbd_keeps (hfree : msk &&& 1 = 0) (s) (hs : was.Keeps msk s) : was.Keeps msk (s.showSbd) := by
  unfold State.showSbd
  conv => zeta
  with_reducible repeat' first
    | assumption | exact free_mono hfree rfl | apply State.setFld_keeps | refine foldl_keeps _ _ _ (fun _ _ _ => ?_) ?_

theorem State.intakeCheck_keeps (hfree : msk &&& 3321907085 = 0) (s t l) (hs : was.Keeps msk s) : was.Keeps msk (s.intakeCheck t l) := by
  unfold State.intakeCheck
  conv => zeta
  with_reducible repeat' first
    | assumption | exact free_mono hfree rfl | apply State.modSlot_keeps | apply State.poll_keeps | apply State.normAdd_keeps
    | apply State.showSbd_keeps | refine foldl_keeps _ _ _ (fun _ _ _ => ?_) ?_ | refine foldlFst_keeps _ _ _ (fun _ _ _ => ?_) ?_
    | refine foldlSnd_keeps _ _ _ (fun _ _ _ => ?_) ?_ | refine fst_keeps ?_ (by assumption) | refine snd_keeps ?_ (by assumption) | split

theorem State.acceptRec_keeps (hfree : msk &&& 3321915277 = 0) (s t x r) (hs : was.Keeps msk s) : was.Keeps msk (s.acceptRec t x r) := by
  unfold State.acceptRec
  conv => zeta
  with_reducible repeat' first
    | assumption | exact free_mono hfree rfl | apply State.modSlot_keeps | apply State.freeSlot_keeps | apply State.combine_keeps
    | apply State.intakeCheck_keeps | apply State.dropRec_keeps | apply State.recValues_keeps | apply State.accumulate_keeps
    | refine fst_keeps ?_ (by assumption) | refine snd_keeps ?_ (by assumption) | split

theorem State.setStep_keeps (hfree : msk &&& 16384 = 0) (s t l step desc) (hs : was.Keeps msk s) :
    was.Keeps msk (s.setStep t l step desc) := by
  unfold State.setStep
  with_reducible repeat' first | assumption | exact free_mono hfree rfl | apply State.modSlot_keeps

theorem State.sortRec_keeps (hfree : msk &&& 3321915277 = 0) (s t x) (hs : was.Keeps msk s) : was.Keeps msk (s.sortRec t x) := by
  unfold State.sortRec
  conv => zeta
  with_reducible repeat' first
    | assumption | exact free_mono hfree rfl | apply State.readRec_keeps | apply State.dropRec_keeps | apply State.readDesc_keeps
    | apply State.acceptRec_keeps | apply State.setStep_keeps | apply State.modUnit_keeps | refine fst_keeps ?_ (by assumption)
    | refine snd_keeps ?_ (by assumption) | split

theorem State.sendEnd_keeps (hfree : msk &&& 3221259265 = 0) (s i g kind slot code sent) (hs : was.Keeps msk s) :
    was.Keeps msk (s.sendEnd i g kind slot code sent) := by
  unfold State.sendEnd
  with_reducible repeat' first | assumption | exact free_mono hfree rfl | apply State.control_keeps

theorem State.serveXfer_keeps (hfree : msk &&& 3221259265 = 0) (s i g kind body) (hs : was.Keeps msk s) :
    was.Keeps msk (s.serveXfer i g kind body) := by
  unfold State.serveXfer
  conv => zeta
  with_reducible repeat' first
    | assumption | exact free_mono hfree rfl | apply State.sendEnd_keeps | apply State.modPart_keeps | apply State.control_keeps
    | refine foldl_keeps _ _ _ (fun _ _ _ => ?_) ?_ | refine foldlFst_keeps _ _ _ (fun _ _ _ => ?_) ?_
    | refine foldlSnd_keeps _ _ _ (fun _ _ _ => ?_) ?_ | refine fst_keeps ?_ (by assumption) | refine snd_keeps ?_ (by assumption) | split

theorem State.dropXfer_keeps (hfree : msk &&& 32768 = 0) (s x) (hs : was.Keeps msk s) : was.Keeps msk (s.dropXfer x) := by
  unfold State.dropXfer
  conv => zeta
  with_reducible repeat' first | assumption | exact free_mono hfree rfl | apply State.putTrs_keeps

theorem State.diffBlock_keeps (hfree : msk &&& 1174422669 = 0) (s slot cls tau step d pair) (hs : was.Keeps msk s) :
    was.Keeps msk (s.diffBlock slot cls tau step d pair).1 := by
  unfold State.diffBlock
  conv => zeta
  with_reducible repeat' first
    | assumption | exact free_mono hfree rfl | apply State.readDiff_keeps | apply State.memWrite_keeps
    | refine fst_keeps ?_ (by assumption) | refine snd_keeps ?_ (by assumption) | split

theorem ownFrame_keeps (hfree : msk &&& 1174455437 = 0) (tau n slot g d a p) (ha : was.Keeps msk a.1) :
    was.Keeps msk (ownFrame tau n slot g d a p).1 := by
  unfold ownFrame
  split
  next he =>
  have h := fst_keeps (State.diffBlock_keeps (free_mono hfree rfl) _ _ _ _ _ _ _ ha) he
  dsimp only
  split
  · exact State.modGrp_keeps (free_mono hfree rfl) _ _ _ h
  · exact h

theorem State.ownFrames_keeps (hfree : msk &&& 1174455437 = 0) (s g tau n) (hs : was.Keeps msk s) :
    was.Keeps msk (s.ownFrames g tau n).1 := by
  unfold State.ownFrames
  exact foldlFst_keeps _ _ _ (fun a q ha => foldlFst_keeps _ _ _ (fun b k hb => ownFrame_keeps (free_mono hfree rfl) _ _ _ _ _ _ _ hb) ha) hs

theorem State.record_keeps (hfree : msk &&& 1191199885 = 0) (s slot step d e) (hs : was.Keeps msk s) :
    was.Keeps msk (s.record slot step d e) := by
  unfold State.record
  conv => zeta
  with_reducible repeat' first
    | assumption | exact free_mono hfree rfl | apply State.sbdEvent_keeps | apply State.memWrite_keeps | apply State.logEntry_keeps
    | split | dsimp only

theorem State.groupStep_keeps (hfree : msk &&& 32768 = 0) (s g slot) (hs : was.Keeps msk s) : was.Keeps msk (s.groupStep g slot) := by
  unfold State.groupStep
  conv => zeta
  with_reducible repeat' first | assumption | exact free_mono hfree rfl | apply State.modGrp_keeps

theorem Upd.patchPos_keeps (hfree : msk &&& 1174430861 = 0) (u x d cur t p) (hu : was.Keeps msk u.s) :
    was.Keeps msk (Upd.patchPos u x d cur t p).s := by
  unfold Upd.patchPos
  conv => zeta
  with_reducible repeat' first
    | assumption | exact free_mono hfree rfl | apply Upd.read_keeps | apply Upd.putStored_keeps | refine fst_keeps ?_ (by assumption)
    | refine snd_keeps ?_ (by assumption) | refine updFst_keeps ?_ (by assumption) | split

theorem State.xferEvent_keeps (hfree : msk &&& 1024 = 0) (s x how) (hs : was.Keeps msk s) : was.Keeps msk (s.xferEvent x how) := by
  unfold State.xferEvent
  with_reducible repeat' first | assumption | exact free_mono hfree rfl | apply State.trsEvent_keeps | split

theorem State.xferDone_keeps (hfree : msk &&& 1174455437 = 0) (s x) (hs : was.Keeps msk s) : was.Keeps msk (s.xferDone x) := by
  unfold State.xferDone
  conv => zeta
  with_reducible repeat' first
    | assumption | exact free_mono hfree rfl | apply State.putLin_keeps | apply State.storePrint_keeps | apply State.dropXfer_keeps
    | apply State.xferEvent_keeps | refine foldl_keeps _ _ _ (fun _ _ _ => ?_) ?_ | refine foldlFst_keeps _ _ _ (fun _ _ _ => ?_) ?_
    | refine foldlSnd_keeps _ _ _ (fun _ _ _ => ?_) ?_ | refine fst_keeps ?_ (by assumption) | refine snd_keeps ?_ (by assumption) | split

theorem Upd.boundary_keeps (hfree : msk &&& 1174463629 = 0) (u slot d due ready) (hu : was.Keeps msk u.s) :
    was.Keeps msk (Upd.boundary u slot d due ready).s := by
  unfold Upd.boundary
  conv => zeta
  with_reducible repeat' first
    | assumption | exact free_mono hfree rfl | apply Upd.snapPos_keeps | apply Upd.applyPos_keeps | apply State.groupStep_keeps
    | apply Upd.patchPos_keeps | apply State.xferDone_keeps | refine foldl_keeps _ _ _ (fun _ _ _ => ?_) ?_
    | refine foldlFst_keeps _ _ _ (fun _ _ _ => ?_) ?_ | refine foldlSnd_keeps _ _ _ (fun _ _ _ => ?_) ?_
    | refine foldlUpd_keeps _ _ _ (fun _ _ _ => ?_) ?_ | refine foldlUpdFst_keeps _ _ _ (fun _ _ _ => ?_) ?_
    | refine fst_keeps ?_ (by assumption) | refine snd_keeps ?_ (by assumption) | refine updFst_keeps ?_ (by assumption) | split

theorem State.finish_keeps (hfree : msk &&& 3338724749 = 0) (s slot step e) (hs : was.Keeps msk s) :
    was.Keeps msk (s.finish slot step e) := by
  unfold State.finish
  conv => zeta
  with_reducible repeat' first
    | assumption | exact free_mono hfree rfl | apply State.record_keeps | apply Upd.gather_keeps | apply Upd.boundary_keeps
    | apply State.exportAt_keeps | refine foldl_keeps _ _ _ (fun _ _ _ => ?_) ?_ | refine foldlFst_keeps _ _ _ (fun _ _ _ => ?_) ?_
    | refine foldlSnd_keeps _ _ _ (fun _ _ _ => ?_) ?_ | refine foldlUpd_keeps _ _ _ (fun _ _ _ => ?_) ?_
    | refine foldlUpdFst_keeps _ _ _ (fun _ _ _ => ?_) ?_ | refine fst_keeps ?_ (by assumption) | refine snd_keeps ?_ (by assumption)
    | refine updFst_keeps ?_ (by assumption) | split | dsimp only

theorem State.finishRun_keeps (hfree : msk &&& 3338724749 = 0) (s r) (hs : was.Keeps msk s) : was.Keeps msk (s.finishRun r) := by
  unfold State.finishRun
  conv => zeta
  with_reducible repeat' first
    | assumption | exact free_mono hfree rfl | apply State.finish_keeps | apply State.putSbd_keeps | split | dsimp only

theorem State.sendDeltas_keeps (hfree : msk &&& 3321922693 = 0) (s i g arr round q base blocks) (hs : was.Keeps msk s) :
    was.Keeps msk (s.sendDeltas i g arr round q base blocks) := by
  unfold State.sendDeltas
  conv => zeta
  with_reducible repeat' first
    | assumption | exact free_mono hfree rfl | apply State.memRead_keeps | apply State.control_keeps
    | refine foldl_keeps _ _ _ (fun _ _ _ => ?_) ?_

theorem State.sendReunion_keeps (hfree : msk &&& 3321922693 = 0) (s i g) (hs : was.Keeps msk s) : was.Keeps msk (s.sendReunion i g) := by
  unfold State.sendReunion
  conv => zeta
  with_reducible repeat' first
    | assumption | exact free_mono hfree rfl | apply State.sendDeltas_keeps | apply State.sendEnd_keeps
    | refine foldl_keeps _ _ _ (fun _ _ _ => ?_) ?_ | refine foldlFst_keeps _ _ _ (fun _ _ _ => ?_) ?_
    | refine foldlSnd_keeps _ _ _ (fun _ _ _ => ?_) ?_ | refine fst_keeps ?_ (by assumption) | refine snd_keeps ?_ (by assumption) | split

theorem State.completionIn_keeps (hfree : msk &&& 3288360729 = 0) (s v body write st data psn) (hs : was.Keeps msk s) :
    was.Keeps msk (s.completionIn v body write st data psn) := by
  unfold State.completionIn
  with_reducible repeat' first | assumption | exact free_mono hfree rfl | apply State.transit_keeps | apply State.txnEnd_keeps | split

theorem State.sendResult_keeps (hfree : msk &&& 3321907085 = 0) (s m line) (hs : was.Keeps msk s) :
    was.Keeps msk (s.sendResult m line) := by
  unfold State.sendResult
  with_reducible repeat' first | assumption | exact free_mono hfree rfl | apply State.unitSettle_keeps | apply State.sbdWriteFar_keeps

theorem State.joinCheck_keeps (hfree : msk &&& 3321939085 = 0) (s i g round digest) (hs : was.Keeps msk s) :
    was.Keeps msk (s.joinCheck i g round digest) := by
  unfold State.joinCheck
  conv => zeta
  with_reducible repeat' first
    | assumption | exact free_mono hfree rfl | apply State.joinAgain_keeps | apply State.installGroup_keeps | apply State.control_keeps
    | apply State.modPart_keeps | apply State.setFld_keeps | refine foldl_keeps _ _ _ (fun _ _ _ => ?_) ?_
    | refine foldlFst_keeps _ _ _ (fun _ _ _ => ?_) ?_ | refine foldlSnd_keeps _ _ _ (fun _ _ _ => ?_) ?_
    | refine fst_keeps ?_ (by assumption) | refine snd_keeps ?_ (by assumption) | split | dsimp only

theorem State.joinEnd_keeps (hfree : msk &&& 3321939085 = 0) (s i g slot round digest) (hs : was.Keeps msk s) :
    was.Keeps msk (s.joinEnd i g slot round digest) := by
  unfold State.joinEnd
  conv => zeta
  with_reducible repeat' first
    | assumption | exact free_mono hfree rfl | apply State.joinCheck_keeps | apply State.modPart_keeps | split | dsimp only

theorem State.copyReads_keeps (hfree : msk &&& 1140851845 = 0) (s t cw) (at') (hs : was.Keeps msk s) :
    was.Keeps msk (s.copyReads t cw at') := by
  unfold State.copyReads
  conv => zeta
  with_reducible repeat' first
    | assumption | exact free_mono hfree rfl | apply State.cwRead_keeps | refine foldl_keeps _ _ _ (fun _ _ _ => ?_) ?_
    | refine foldlFst_keeps _ _ _ (fun _ _ _ => ?_) ?_ | refine foldlSnd_keeps _ _ _ (fun _ _ _ => ?_) ?_
    | refine fst_keeps ?_ (by assumption) | refine snd_keeps ?_ (by assumption) | split | dsimp only

theorem State.resend_keeps (hfree : msk &&& 3221258241 = 0) (s) (pick) (hs : was.Keeps msk s) : was.Keeps msk (s.resend pick) := by
  unfold State.resend
  with_reducible repeat' first | assumption | exact free_mono hfree rfl | apply State.sendAgain_keeps | apply State.putTrs_keeps | split

theorem State.endStep_keeps (hfree : msk &&& 3321915277 = 0) (s l held) (hs : was.Keeps msk s) : was.Keeps msk (s.endStep l held) := by
  unfold State.endStep
  conv => zeta
  with_reducible repeat' first
    | assumption | exact free_mono hfree rfl | apply State.modSlot_keeps | apply State.showSbd_keeps | apply State.readRec_keeps
    | apply State.sortRec_keeps | apply State.modUnit_keeps | refine foldl_keeps _ _ _ (fun _ _ _ => ?_) ?_
    | refine foldlFst_keeps _ _ _ (fun _ _ _ => ?_) ?_ | refine foldlSnd_keeps _ _ _ (fun _ _ _ => ?_) ?_
    | refine fst_keeps ?_ (by assumption) | refine snd_keeps ?_ (by assumption) | split

theorem State.decideReunion_keeps (hfree : msk &&& 3321922693 = 0) (s i re) (hs : was.Keeps msk s) :
    was.Keeps msk (s.decideReunion i re) := by
  unfold State.decideReunion
  conv => zeta
  with_reducible repeat' first
    | assumption | exact free_mono hfree rfl | apply State.setFld_keeps | apply State.modPart_keeps | apply State.trsEvent_keeps
    | apply State.showDelay_keeps | apply State.partEnter_keeps | apply State.sendReunion_keeps
    | refine foldl_keeps _ _ _ (fun _ _ _ => ?_) ?_ | refine foldlFst_keeps _ _ _ (fun _ _ _ => ?_) ?_
    | refine foldlSnd_keeps _ _ _ (fun _ _ _ => ?_) ?_ | refine fst_keeps ?_ (by assumption) | refine snd_keeps ?_ (by assumption) | split

theorem State.reconcile_keeps (hfree : msk &&& 3221259265 = 0) (s g m) (hs : was.Keeps msk s) : was.Keeps msk (s.reconcile g m) := by
  unfold State.reconcile
  conv => zeta
  with_reducible repeat' first
    | assumption | exact free_mono hfree rfl | apply State.startXfer_keeps | refine foldl_keeps _ _ _ (fun _ _ _ => ?_) ?_
    | refine foldlFst_keeps _ _ _ (fun _ _ _ => ?_) ?_ | refine foldlSnd_keeps _ _ _ (fun _ _ _ => ?_) ?_
    | refine fst_keeps ?_ (by assumption) | refine snd_keeps ?_ (by assumption) | split

theorem State.lineageCome_keeps (hfree : msk &&& 3321922693 = 0) (s i) (hs : was.Keeps msk s) : was.Keeps msk (s.lineageCome i) := by
  unfold State.lineageCome
  conv => zeta
  with_reducible repeat' first
    | assumption | exact free_mono hfree rfl | apply State.setFld_keeps | apply State.abandon_keeps | apply State.decideReunion_keeps
    | split | dsimp only

theorem State.waitLate_keeps (hfree : msk &&& 1025 = 0) (s t step what) (hs : was.Keeps msk s) :
    was.Keeps msk (s.waitLate t step what) := by
  unfold State.waitLate
  with_reducible repeat' first | assumption | exact free_mono hfree rfl | apply State.showWait_keeps | apply State.sbdEvent_keeps

theorem State.reunited_keeps (hfree : msk &&& 33793 = 0) (s g m) (hs : was.Keeps msk s) : was.Keeps msk (s.reunited g m) := by
  unfold State.reunited
  conv => zeta
  with_reducible repeat' first
    | assumption | exact free_mono hfree rfl | apply State.modPart_keeps | apply State.setFld_keeps | apply State.trsEvent_keeps
    | apply State.showDelay_keeps | apply State.partEnter_keeps | apply State.putTrs_keeps | refine foldl_keeps _ _ _ (fun _ _ _ => ?_) ?_
    | refine foldlFst_keeps _ _ _ (fun _ _ _ => ?_) ?_ | refine foldlSnd_keeps _ _ _ (fun _ _ _ => ?_) ?_
    | refine fst_keeps ?_ (by assumption) | refine snd_keeps ?_ (by assumption) | split

theorem State.sendJoin_keeps (hfree : msk &&& 3321922693 = 0) (s i g) (hs : was.Keeps msk s) : was.Keeps msk (s.sendJoin i g) := by
  unfold State.sendJoin
  conv => zeta
  with_reducible repeat' first
    | assumption | exact free_mono hfree rfl | apply State.modPart_keeps | apply State.sendDeltas_keeps | apply State.sendEnd_keeps
    | refine foldl_keeps _ _ _ (fun _ _ _ => ?_) ?_ | refine foldlFst_keeps _ _ _ (fun _ _ _ => ?_) ?_
    | refine foldlSnd_keeps _ _ _ (fun _ _ _ => ?_) ?_ | refine fst_keeps ?_ (by assumption) | refine snd_keeps ?_ (by assumption) | split

theorem State.sendPrints_keeps (hfree : msk &&& 3221259265 = 0) (s g round) (hs : was.Keeps msk s) :
    was.Keeps msk (s.sendPrints g round) := by
  unfold State.sendPrints
  conv => zeta
  with_reducible repeat' first
    | assumption | exact free_mono hfree rfl | apply State.control_keeps | refine foldl_keeps _ _ _ (fun _ _ _ => ?_) ?_
    | refine foldlFst_keeps _ _ _ (fun _ _ _ => ?_) ?_ | refine foldlSnd_keeps _ _ _ (fun _ _ _ => ?_) ?_
    | refine fst_keeps ?_ (by assumption) | refine snd_keeps ?_ (by assumption) | split

end Sys2Proof.Machine
end

