-- ==== Sys2Proof/Laws/KeepsHutch.lean ====
section
/-!
SUPPORT. What no command undoes (`State.Keeps`): one lemma for each function that answers a state, here for
clocks, resets, power, register writes, the mailboxes, management and PCIe.
-/
namespace Sys2Proof.Machine

variable {msk : Nat} {was : State}

theorem State.store_keeps (hfree : msk &&& 1 = 0) (s a w keep) (hs : was.Keeps msk s) : was.Keeps msk (s.store a w keep) := by
  unfold State.store
  conv => zeta
  with_reducible repeat' first | assumption | exact free_mono hfree rfl | apply State.wr_keeps | split

theorem State.storeUnless_keeps (hfree : msk &&& 1 = 0) (s a w lock keep) (hs : was.Keeps msk s) :
    was.Keeps msk (s.storeUnless a w lock keep) := by
  unfold State.storeUnless
  with_reducible repeat' first | assumption | exact free_mono hfree rfl | apply State.store_keeps

theorem State.dwlWrite_keeps (hfree : msk &&& 67108873 = 0) (s b w) (hs : was.Keeps msk s) : was.Keeps msk (s.dwlWrite b w) := by
  unfold State.dwlWrite
  conv => zeta
  with_reducible repeat' first
    | assumption | exact free_mono hfree rfl | apply State.storeUnless_keeps | apply State.setResume_keeps | split

theorem State.wideClear_keeps (hfree : msk &&& 4294967295 = 0) (s debug) (hs : was.Keeps msk s) : was.Keeps msk (s.wideClear debug) := by
  unfold State.wideClear
  extract_lets s1 dbg s2 cause running r0 r1 r2 r3 r4 n n2
  have h2 : was.Keeps msk s2 := by
    show was.Keeps msk (if _ then _ else _)
    split
    · exact State.countAvail_keeps (free_mono hfree rfl) _ hs
    · exact State.driveMark_keeps (free_mono hfree rfl) _ _ (State.countAvail_keeps (free_mono hfree rfl) _ hs)
  have hn : was.Keeps msk n := ⟨h2.1, ⟨.nil, by simp [n, r0, State.reset]⟩, .nil, h2.4, h2.5, h2.6, h2.7, h2.8, h2.9,
    fun p hp => absurd hp (free_bit (by cases p <;> exact free_mono hfree rfl))⟩
  have hn2 : was.Keeps msk n2 := by
    show was.Keeps msk (if _ then _ else _)
    split
    · exact State.setFld_keeps (free_mono hfree rfl) _ _ _ _ (State.setFld_keeps (free_mono hfree rfl) _ _ _ _ hn)
    · exact hn
  split
  · exact State.wr_keeps (free_mono hfree rfl) _ _ _ hn2
  · exact hn2

theorem State.driveReset_keeps (hfree : msk &&& 2149580800 = 0) (s low) (hs : was.Keeps msk s) : was.Keeps msk (s.driveReset low) := by
  unfold State.driveReset
  conv => zeta
  with_reducible repeat' first | assumption | exact free_mono hfree rfl | apply State.send_keeps | apply State.putRst_keeps | split

theorem State.powerOff_keeps (hfree : msk &&& 4294967295 = 0) (s reason) (hs : was.Keeps msk s) : was.Keeps msk (s.powerOff reason) := by
  unfold State.powerOff
  conv => zeta
  with_reducible repeat' first
    | assumption | exact free_mono hfree rfl | apply State.send_keeps | apply State.wideClear_keeps | apply State.putRst_keeps
    | apply State.driveReset_keeps | split

theorem State.vectorWrite_keeps (hfree : msk &&& 65536 = 0) (s off b) (hs : was.Keeps msk s) : was.Keeps msk (s.vectorWrite off b) := by
  unfold State.vectorWrite
  conv => zeta
  with_reducible repeat' first | assumption | exact free_mono hfree rfl | apply State.putPcie_keeps

theorem State.syncWrite_keeps (hfree : msk &&& 3288352521 = 0) (s who a w) (hs : was.Keeps msk s) :
    was.Keeps msk (s.syncWrite who a w) := by
  unfold State.syncWrite
  conv => zeta
  with_reducible repeat' first | assumption | exact free_mono hfree rfl | apply State.storeAt_keeps | apply State.store_keeps | split

theorem State.pldmBase_keeps (hfree : msk &&& 8388608 = 0) (s m) (hs : was.Keeps msk s) : was.Keeps msk (s.pldmBase m).1 := by
  unfold State.pldmBase
  conv => zeta
  with_reducible repeat' first
    | assumption | exact free_mono hfree rfl | apply State.putMgmt_keeps | refine fst_keeps ?_ (by assumption)
    | refine snd_keeps ?_ (by assumption) | split

theorem State.answerMctp_keeps (hfree : msk &&& 2147483648 = 0) (s eid a) (hs : was.Keeps msk s) : was.Keeps msk (s.answerMctp eid a) := by
  unfold State.answerMctp
  with_reducible repeat' first | assumption | exact free_mono hfree rfl | apply State.send_keeps

theorem State.thrWrite_keeps (hfree : msk &&& 3288344345 = 0) (s b c w) (hs : was.Keeps msk s) : was.Keeps msk (s.thrWrite b c w) := by
  unfold State.thrWrite
  conv => zeta
  with_reducible repeat' first | assumption | exact free_mono hfree rfl | apply State.setStart_keeps | apply State.setStop_keeps | split

theorem State.trapStatWrite_keeps (hfree : msk &&& 1 = 0) (s a w) (hs : was.Keeps msk s) : was.Keeps msk (s.trapStatWrite a w) := by
  unfold State.trapStatWrite
  conv => zeta
  with_reducible repeat' first | assumption | exact free_mono hfree rfl | apply State.store_keeps | apply State.setFld_keeps | split

theorem State.expCtlWrite_keeps (hfree : msk &&& 9 = 0) (s b w) (hs : was.Keeps msk s) : was.Keeps msk (s.expCtlWrite b w) := by
  unfold State.expCtlWrite
  conv => zeta
  with_reducible repeat' first | assumption | exact free_mono hfree rfl | apply State.expClear_keeps | apply State.modBench_keeps | split

theorem State.deskCtlWrite_keeps (hfree : msk &&& 17 = 0) (s b d w) (hs : was.Keeps msk s) : was.Keeps msk (s.deskCtlWrite b d w) := by
  unfold State.deskCtlWrite
  conv => zeta
  with_reducible repeat' first
    | assumption | exact free_mono hfree rfl | apply State.store_keeps | apply State.deskClear_keeps | apply State.deskInject_keeps
    | split

theorem State.benchWrite_keeps (hfree : msk &&& 3288344345 = 0) (s b o w) (hs : was.Keeps msk s) : was.Keeps msk (s.benchWrite b o w) := by
  unfold State.benchWrite
  conv => zeta
  with_reducible repeat' first
    | assumption | exact free_mono hfree rfl | apply State.thrWrite_keeps | apply State.pcWrite_keeps | apply State.dwlWrite_keeps
    | apply State.trapStatWrite_keeps | apply State.expCtlWrite_keeps | apply State.deskCfgWrite_keeps | apply State.deskCtlWrite_keeps
    | apply State.store_keeps | split

theorem State.tbyCtlWrite_keeps (hfree : msk &&& 129 = 0) (s t w) (hs : was.Keeps msk s) : was.Keeps msk (s.tbyCtlWrite t w) := by
  unfold State.tbyCtlWrite
  conv => zeta
  with_reducible repeat' first | assumption | exact free_mono hfree rfl | apply State.tbyClear_keeps | apply State.modStack_keeps | split

theorem State.intakeWrite_keeps (hfree : msk &&& 16385 = 0) (s t w) (hs : was.Keeps msk s) : was.Keeps msk (s.intakeWrite t w) := by
  unfold State.intakeWrite
  conv => zeta
  with_reducible repeat' first | assumption | exact free_mono hfree rfl | apply State.store_keeps | apply State.modUnit_keeps | split

theorem State.expCtl8Write_keeps (hfree : msk &&& 16385 = 0) (s t w) (hs : was.Keeps msk s) : was.Keeps msk (s.expCtl8Write t w) := by
  unfold State.expCtl8Write
  conv => zeta
  with_reducible repeat' first | assumption | exact free_mono hfree rfl | apply State.store_keeps | apply State.modUnit_keeps | split

theorem State.stackWrite_keeps (hfree : msk &&& 67126401 = 0) (s t o w) (hs : was.Keeps msk s) : was.Keeps msk (s.stackWrite t o w) := by
  unfold State.stackWrite
  conv => zeta
  with_reducible repeat' first
    | assumption | exact free_mono hfree rfl | apply State.tbyCtlWrite_keeps | apply State.store_keeps | apply State.stageClaim_keeps
    | apply State.intakeWrite_keeps | apply State.expCtl8Write_keeps | apply State.storeUnless_keeps | split

theorem State.tmrIdWrite_keeps (hfree : msk &&& 3 = 0) (s w) (hs : was.Keeps msk s) : was.Keeps msk (s.tmrIdWrite w) := by
  unfold State.tmrIdWrite
  dsimp only [id]
  with_reducible repeat' first
    | assumption | exact free_mono hfree rfl | apply State.putRwo_keeps (free_mono hfree rfl)
    | apply State.setFld_keeps (free_mono hfree rfl) | split

theorem State.portCtlWrite_keeps (hfree : msk &&& 3221241089 = 0) (s p w) (hs : was.Keeps msk s) : was.Keeps msk (s.portCtlWrite p w) := by
  unfold State.portCtlWrite
  conv => zeta
  with_reducible repeat' first
    | assumption | exact free_mono hfree rfl | apply State.store_keeps | apply State.portDisable_keeps | apply State.retrainAll_keeps
    | split

theorem State.fabricWrite_keeps (hfree : msk &&& 3221241099 = 0) (s a w) (hs : was.Keeps msk s) : was.Keeps msk (s.fabricWrite a w) := by
  unfold State.fabricWrite
  conv => zeta
  with_reducible repeat' first
    | assumption | exact free_mono hfree rfl | apply State.tmrIdWrite_keeps | apply State.quotaWrite_keeps | apply State.store_keeps
    | apply State.portCtlWrite_keeps | apply State.rtWrite0_keeps | apply State.rtWrite1_keeps | split

theorem State.trsCtlWrite_keeps (hfree : msk &&& 1174455437 = 0) (s w) (hs : was.Keeps msk s) : was.Keeps msk (s.trsCtlWrite w) := by
  unfold State.trsCtlWrite
  conv => zeta
  with_reducible repeat' first
    | assumption | exact free_mono hfree rfl | apply State.storeUnless_keeps | apply State.setFld_keeps | apply State.checkCal_keeps
    | apply State.trsDisable_keeps | apply State.trsEnable_keeps | apply State.wr_keeps | refine fst_keeps ?_ (by assumption)
    | refine snd_keeps ?_ (by assumption) | split

theorem State.trsWrite_keeps (hfree : msk &&& 1174455437 = 0) (s a w) (hs : was.Keeps msk s) : was.Keeps msk (s.trsWrite a w) := by
  unfold State.trsWrite
  conv => zeta
  with_reducible repeat' first
    | assumption | exact free_mono hfree rfl | apply State.trsCtlWrite_keeps | apply State.store_keeps | apply State.storeUnless_keeps
    | apply State.partWrite_keeps | split

theorem State.slotWrite_keeps (hfree : msk &&& 4 = 0) (s off data) (hs : was.Keeps msk s) : was.Keeps msk (s.slotWrite off data) := by
  unfold State.slotWrite
  conv => zeta
  with_reducible repeat' first
    | assumption | exact free_mono hfree rfl | apply State.memStore_keeps | apply State.memFilter_keeps | apply State.memClear_keeps
    | split

theorem State.mbxReject_keeps (hfree : msk &&& 67108865 = 0) (s i) (hs : was.Keeps msk s) : was.Keeps msk (s.mbxReject i) := by
  unfold State.mbxReject
  with_reducible repeat' first | assumption | exact free_mono hfree rfl | apply State.hwSet_keeps | apply State.setFld_keeps | split

theorem State.setOwn_keeps (hfree : msk &&& 1 = 0) (s i req rsp) (hs : was.Keeps msk s) : was.Keeps msk (s.setOwn i req rsp) := by
  unfold State.setOwn
  with_reducible repeat' first | assumption | exact free_mono hfree rfl | apply State.setBit_keeps

theorem State.submitOne_keeps (hfree : msk &&& 67371009 = 0) (s i) (hs : was.Keeps msk s) : was.Keeps msk (s.submitOne i) := by
  unfold State.submitOne
  conv => zeta
  with_reducible repeat' first
    | assumption | exact free_mono hfree rfl | apply State.mbxReject_keeps | apply State.putHut_keeps | apply State.setOwn_keeps | split

theorem State.mbxSubmit_keeps (hfree : msk &&& 67371009 = 0) (s mask) (hs : was.Keeps msk s) : was.Keeps msk (s.mbxSubmit mask) := by
  unfold State.mbxSubmit
  with_reducible repeat' first
    | assumption | exact free_mono hfree rfl | apply State.submitOne_keeps | refine foldl_keeps _ _ _ (fun _ _ _ => ?_) ?_

theorem State.ackOne_keeps (hfree : msk &&& 67108865 = 0) (s i) (hs : was.Keeps msk s) : was.Keeps msk (s.ackOne i) := by
  unfold State.ackOne
  with_reducible repeat' first | assumption | exact free_mono hfree rfl | apply State.setOwn_keeps | apply State.mbxReject_keeps | split

theorem State.mbxAck_keeps (hfree : msk &&& 67108865 = 0) (s mask) (hs : was.Keeps msk s) : was.Keeps msk (s.mbxAck mask) := by
  unfold State.mbxAck
  with_reducible repeat' first
    | assumption | exact free_mono hfree rfl | apply State.ackOne_keeps | refine foldl_keeps _ _ _ (fun _ _ _ => ?_) ?_

theorem State.hutchWrite_keeps (hfree : msk &&& 67371013 = 0) (s a w) (hs : was.Keeps msk s) : was.Keeps msk (s.hutchWrite a w) := by
  unfold State.hutchWrite
  with_reducible repeat' first
    | assumption | exact free_mono hfree rfl | apply State.slotWrite_keeps | apply State.mbxSubmit_keeps | apply State.mbxAck_keeps
    | apply State.store_keeps | apply State.storeUnless_keeps | split

theorem State.freqWrite_keeps (hfree : msk &&& 4097 = 0) (s v) (hs : was.Keeps msk s) : was.Keeps msk (s.freqWrite v) := by
  unfold State.freqWrite
  conv => zeta
  with_reducible repeat' first
    | assumption | exact free_mono hfree rfl | apply State.putClk_keeps | apply State.setFld_keeps | apply State.setBit_keeps | split

theorem State.fwRead_keeps (hfree : msk &&& 1174406277 = 0) (s a n) (hs : was.Keeps msk s) : was.Keeps msk (s.fwRead a n).1 := by
  unfold State.fwRead
  with_reducible repeat' first | assumption | exact free_mono hfree rfl | apply State.memRead_keeps

theorem State.readImage_keeps (hfree : msk &&& 1174406277 = 0) (s a) (hs : was.Keeps msk s) : was.Keeps msk (s.readImage a).1 := by
  unfold State.readImage
  with_reducible repeat' first
    | assumption | exact free_mono hfree rfl | apply State.fwRead_keeps | refine fst_keeps ?_ (by assumption)
    | refine snd_keeps ?_ (by assumption) | split

theorem State.extend_keeps (hfree : msk &&& 1 = 0) (s i d) (hs : was.Keeps msk s) : was.Keeps msk (s.extend i d) := by
  unfold State.extend
  conv => zeta
  with_reducible repeat' first
    | assumption | exact free_mono hfree rfl | apply State.wr_keeps | refine foldl_keeps _ _ _ (fun _ _ _ => ?_) ?_

theorem State.mapDie_keeps (hfree : msk &&& 8297 = 0) (s c) (hs : was.Keeps msk s) : was.Keeps msk (s.mapDie c) := by
  unfold State.mapDie
  conv => zeta
  with_reducible repeat' first
    | assumption | exact free_mono hfree rfl | apply State.setFld_keeps | apply State.putMap_keeps | apply State.putSpares_keeps
    | apply State.putFlt_keeps | apply State.modBench_keeps | apply State.showSpares_keeps | refine foldl_keeps _ _ _ (fun _ _ _ => ?_) ?_
    | refine foldlFst_keeps _ _ _ (fun _ _ _ => ?_) ?_ | refine foldlSnd_keeps _ _ _ (fun _ _ _ => ?_) ?_
    | refine fst_keeps ?_ (by assumption) | refine snd_keeps ?_ (by assumption) | split

theorem State.fwEvent_keeps (hfree : msk &&& 1024 = 0) (s outcome svn bank) (hs : was.Keeps msk s) :
    was.Keeps msk (s.fwEvent outcome svn bank) := by
  unfold State.fwEvent
  with_reducible repeat' first | assumption | exact free_mono hfree rfl | apply State.raise_keeps

theorem State.ready0_keeps (hfree : msk &&& 1024 = 0) (s level) (hs : was.Keeps msk s) : was.Keeps msk (s.ready0 level) := by
  unfold State.ready0
  with_reducible repeat' first | assumption | exact free_mono hfree rfl | apply State.raise_keeps

theorem State.fwReady_keeps (hfree : msk &&& 3679339 = 0) (s level) (hs : was.Keeps msk s) : was.Keeps msk (s.fwReady level) := by
  unfold State.fwReady
  conv => zeta
  with_reducible repeat' first
    | assumption | exact free_mono hfree rfl | apply State.putFlash_keeps | apply State.setFld_keeps | apply State.putRwo_keeps
    | apply State.mapDie_keeps | apply State.wr_keeps | apply State.errLog_keeps | apply State.putRst_keeps | apply State.raiseSvn_keeps
    | apply State.fwEvent_keeps | apply State.ready0_keeps | apply State.health_keeps | refine foldl_keeps _ _ _ (fun _ _ _ => ?_) ?_
    | refine foldlFst_keeps _ _ _ (fun _ _ _ => ?_) ?_ | refine foldlSnd_keeps _ _ _ (fun _ _ _ => ?_) ?_
    | refine fst_keeps ?_ (by assumption) | refine snd_keeps ?_ (by assumption) | split

theorem State.startImage_keeps (hfree : msk &&& 1077421163 = 0) (s digest trial) (hs : was.Keeps msk s) :
    was.Keeps msk (s.startImage digest trial) := by
  unfold State.startImage
  conv => zeta
  with_reducible repeat' first
    | assumption | exact free_mono hfree rfl | apply State.setFld_keeps | apply State.extend_keeps | apply State.draw_keeps
    | apply State.putRst_keeps | apply State.fwReady_keeps | refine fst_keeps ?_ (by assumption) | refine snd_keeps ?_ (by assumption)
    | split

theorem State.bootGo_keeps (hfree : msk &&& 1178084591 = 0) (s) (hs : was.Keeps msk s) : was.Keeps msk (s.bootGo) := by
  unfold State.bootGo
  conv => zeta
  with_reducible repeat' first
    | assumption | exact free_mono hfree rfl | apply State.putRst_keeps | apply State.readImage_keeps | apply State.startImage_keeps
    | apply State.setFld_keeps | refine fst_keeps ?_ (by assumption) | refine snd_keeps ?_ (by assumption) | split | dsimp only

theorem State.capWrite_keeps (hfree : msk &&& 4194305 = 0) (s v) (hs : was.Keeps msk s) : was.Keeps msk (s.capWrite v) := by
  unfold State.capWrite
  conv => zeta
  with_reducible repeat' first | assumption | exact free_mono hfree rfl | apply State.setFld_keeps | apply State.putPwr_keeps

theorem State.markWrite_keeps (hfree : msk &&& 2214597633 = 0) (s w) (hs : was.Keeps msk s) : was.Keeps msk (s.markWrite w) := by
  unfold State.markWrite
  conv => zeta
  with_reducible repeat' first | assumption | exact free_mono hfree rfl | apply State.store_keeps | apply State.markClaim_keeps | split

theorem State.clockWrite_keeps (hfree : msk &&& 3329768687 = 0) (s a w) (hs : was.Keeps msk s) : was.Keeps msk (s.clockWrite a w) := by
  unfold State.clockWrite
  conv => zeta
  with_reducible repeat' first
    | assumption | exact free_mono hfree rfl | apply State.freqWrite_keeps | apply State.gtSet_keeps | apply State.gtJudge_keeps
    | apply State.store_keeps | apply State.bmca_keeps | apply State.markClaim_keeps | apply State.bootGo_keeps
    | apply State.capWrite_keeps | apply State.markWrite_keeps | apply State.sweepClaim_keeps | refine fst_keeps ?_ (by assumption)
    | refine snd_keeps ?_ (by assumption) | split

theorem State.arbiterWrite_keeps (hfree : msk &&& 1 = 0) (s a w) (hs : was.Keeps msk s) : was.Keeps msk (s.arbiterWrite a w) := by
  unfold State.arbiterWrite
  conv => zeta
  with_reducible repeat' first | assumption | exact free_mono hfree rfl | apply State.store_keeps | apply State.storeUnless_keeps | split

theorem State.regApply_keeps (hfree : msk &&& 3330080767 = 0) (s who a w) (hs : was.Keeps msk s) : was.Keeps msk (s.regApply who a w) := by
  unfold State.regApply
  conv => zeta
  with_reducible repeat' first
    | assumption | exact free_mono hfree rfl | apply State.benchWrite_keeps | apply State.stackWrite_keeps | apply State.fabricWrite_keeps
    | apply State.syncWrite_keeps | apply State.trsWrite_keeps | apply State.hutchWrite_keeps | apply State.clockWrite_keeps
    | apply State.flushFar_keeps | apply State.store_keeps | apply State.arbiterWrite_keeps | split

theorem State.regWrite_keeps (hfree : msk &&& 3330080767 = 0) (s who a n v) (hs : was.Keeps msk s) :
    was.Keeps msk (s.regWrite who a n v) := by
  unfold State.regWrite
  conv => zeta
  with_reducible repeat' first | assumption | exact free_mono hfree rfl | apply State.regApply_keeps | split

theorem State.cmdMapModule_keeps (hfree : msk &&& 3330080767 = 0) (s p) (hs : was.Keeps msk s) : was.Keeps msk (s.cmdMapModule p).1 := by
  unfold State.cmdMapModule
  conv => zeta
  with_reducible repeat' first
    | assumption | exact free_mono hfree rfl | apply State.regWrite_keeps | refine fst_keeps ?_ (by assumption)
    | refine snd_keeps ?_ (by assumption) | split

theorem State.takeEvent_keeps (hfree : msk &&& 1024 = 0) (s code b old new forced) (hs : was.Keeps msk s) :
    was.Keeps msk (s.takeEvent code b old new forced) := by
  unfold State.takeEvent
  with_reducible repeat' first | assumption | exact free_mono hfree rfl | apply State.raise_keeps

theorem State.spareless_keeps (hfree : msk &&& 1032 = 0) (s b) (hs : was.Keeps msk s) : was.Keeps msk (s.spareless b) := by
  unfold State.spareless
  conv => zeta
  with_reducible repeat' first | assumption | exact free_mono hfree rfl | apply State.raise_keeps | apply State.modBench_keeps | split

theorem State.takeEnd_keeps (hfree : msk &&& 3322439677 = 0) (s b spare forced) (hs : was.Keeps msk s) :
    was.Keeps msk (s.takeEnd b spare forced) := by
  unfold State.takeEnd
  conv => zeta
  with_reducible repeat' first
    | assumption | exact free_mono hfree rfl | apply State.putSpares_keeps | apply State.putMap_keeps | apply State.setFld_keeps
    | apply State.incSat_keeps | apply State.wr_keeps | apply State.modDesk_keeps | apply State.modBench_keeps
    | apply State.takeEvent_keeps | apply State.putFlash_keeps | apply State.spareless_keeps | apply State.serveHeld_keeps
    | apply State.health_keeps | apply State.showSpares_keeps | refine foldl_keeps _ _ _ (fun _ _ _ => ?_) ?_
    | refine foldlFst_keeps _ _ _ (fun _ _ _ => ?_) ?_ | refine foldlSnd_keeps _ _ _ (fun _ _ _ => ?_) ?_
    | refine fst_keeps ?_ (by assumption) | refine snd_keeps ?_ (by assumption) | split

theorem State.showDraws_keeps (hfree : msk &&& 1 = 0) (s doms busbar) (hs : was.Keeps msk s) : was.Keeps msk (s.showDraws doms busbar) := by
  unfold State.showDraws
  conv => zeta
  with_reducible repeat' first
    | assumption | exact free_mono hfree rfl | apply State.setFld_keeps | refine foldl_keeps _ _ _ (fun _ _ _ => ?_) ?_

theorem State.hostReg_keeps (hfree : msk &&& 3330080767 = 0) (s a data be) (hs : was.Keeps msk s) :
    was.Keeps msk (s.hostReg a data be) := by
  unfold State.hostReg
  with_reducible repeat' first | assumption | exact free_mono hfree rfl | apply State.regWrite_keeps | split

theorem State.bar0Write_keeps (hfree : msk &&& 3330146303 = 0) (s off data be) (hs : was.Keeps msk s) :
    was.Keeps msk (s.bar0Write off data be) := by
  unfold State.bar0Write
  conv => zeta
  with_reducible repeat' first
    | assumption | exact free_mono hfree rfl | apply State.slotWrite_keeps | apply State.hostReg_keeps | apply State.releaseVectors_keeps
    | apply State.vectorWrite_keeps | refine foldl_keeps _ _ _ (fun _ _ _ => ?_) ?_ | refine foldlFst_keeps _ _ _ (fun _ _ _ => ?_) ?_
    | refine foldlSnd_keeps _ _ _ (fun _ _ _ => ?_) ?_ | refine fst_keeps ?_ (by assumption) | refine snd_keeps ?_ (by assumption) | split

theorem State.bootHost_keeps (hfree : msk &&& 2097153 = 0) (s) (hs : was.Keeps msk s) : was.Keeps msk (s.bootHost) := by
  unfold State.bootHost
  conv => zeta
  with_reducible repeat' first | assumption | exact free_mono hfree rfl | apply State.setFld_keeps | apply State.putRst_keeps

theorem State.requestReset_keeps (hfree : msk &&& 2097152 = 0) (s level at_ cause) (hs : was.Keeps msk s) :
    was.Keeps msk (s.requestReset level at_ cause) := by
  unfold State.requestReset
  conv => zeta
  with_reducible repeat' first | assumption | exact free_mono hfree rfl | apply State.putRst_keeps

theorem State.cmdFarEnable_keeps (hfree : msk &&& 1174455437 = 0) (s a1) (hs : was.Keeps msk s) : was.Keeps msk (s.cmdFarEnable a1).1 := by
  unfold State.cmdFarEnable
  with_reducible repeat' first | assumption | exact free_mono hfree rfl | apply State.trsEnable_keeps

theorem State.activate_keeps (hfree : msk &&& 2621440 = 0) (s) (hs : was.Keeps msk s) : was.Keeps msk (s.activate).1 := by
  unfold State.activate
  conv => zeta
  with_reducible repeat' first
    | assumption | exact free_mono hfree rfl | apply State.requestReset_keeps | apply State.putFlash_keeps
    | refine fst_keeps ?_ (by assumption) | refine snd_keeps ?_ (by assumption) | split

theorem State.respond_keeps (hfree : msk &&& 2147811333 = 0) (s i code tag r) (hs : was.Keeps msk s) :
    was.Keeps msk (s.respond i code tag r) := by
  unfold State.respond
  conv => zeta
  with_reducible repeat' first
    | assumption | exact free_mono hfree rfl | apply State.putHut_keeps | apply State.memStore_keeps | apply State.memFilter_keeps
    | apply State.memClear_keeps | apply State.send_keeps | apply State.setOwn_keeps | apply State.vecSignal_keeps | split

theorem State.command_keeps (hfree : msk &&& 2147811333 = 0) (s i len k) (hs : was.Keeps msk s) (hk : ∀ x0 x1, was.Keeps msk x0 → was.Keeps msk (k x0 x1).1) :
    was.Keeps msk (s.command i len k) := by
  unfold State.command
  conv => zeta
  with_reducible repeat' first | assumption | exact free_mono hfree rfl | apply hk | apply State.respond_keeps | split

theorem State.takeAs_keeps (hfree : msk &&& 2147811333 = 0) (s i code len k) (hs :
    was.Keeps msk s) (hk : ∀ x0 x1, was.Keeps msk x0 → was.Keeps msk (k x0 x1).1) : outKeeps msk was (s.takeAs i code len k) := by
  unfold State.takeAs
  with_reducible repeat' first
    | assumption | exact free_mono hfree rfl | apply next_keeps | apply fault_keeps | apply hk | apply State.command_keeps | split

theorem State.fwReg_keeps (hfree : msk &&& 3330080767 = 0) (s a v) (hs : was.Keeps msk s) : was.Keeps msk (s.fwReg a v) := by
  unfold State.fwReg
  with_reducible repeat' first | assumption | exact free_mono hfree rfl | apply State.regWrite_keeps

theorem State.cmdSbdExport_keeps (hfree : msk &&& 3330080767 = 0) (s p) (hs : was.Keeps msk s) : was.Keeps msk (s.cmdSbdExport p).1 := by
  unfold State.cmdSbdExport
  conv => zeta
  with_reducible repeat' first
    | assumption | exact free_mono hfree rfl | apply State.fwReg_keeps | refine foldl_keeps _ _ _ (fun _ _ _ => ?_) ?_
    | refine foldlFst_keeps _ _ _ (fun _ _ _ => ?_) ?_ | refine foldlSnd_keeps _ _ _ (fun _ _ _ => ?_) ?_
    | refine fst_keeps ?_ (by assumption) | refine snd_keeps ?_ (by assumption) | split

theorem State.ptpSend_keeps (hfree : msk &&& 2147483648 = 0) (s p seq b) (hs : was.Keeps msk s) : was.Keeps msk (s.ptpSend p seq b) := by
  unfold State.ptpSend
  with_reducible repeat' first | assumption | exact free_mono hfree rfl | apply State.send_keeps

theorem State.answerSpdm_keeps (hfree : msk &&& 2147483648 = 0) (s mctp src a) (hs : was.Keeps msk s) :
    was.Keeps msk (s.answerSpdm mctp src a) := by
  unfold State.answerSpdm
  with_reducible repeat' first | assumption | exact free_mono hfree rfl | apply State.send_keeps

theorem State.setTranscript_keeps (hfree : msk &&& 8388608 = 0) (s mctp t) (hs : was.Keeps msk s) :
    was.Keeps msk (s.setTranscript mctp t) := by
  unfold State.setTranscript
  conv => zeta
  with_reducible repeat' first | assumption | exact free_mono hfree rfl | apply State.putMgmt_keeps

theorem State.spdmStep_keeps (hfree : msk &&& 2155872256 = 0) (s mctp src need next req k) (hs :
    was.Keeps msk s) (hk : ∀ x0 x1, was.Keeps msk x0 → was.Keeps msk (k x0 x1).1) : outKeeps msk was (s.spdmStep mctp src need next req k) := by
  unfold State.spdmStep
  conv => zeta
  with_reducible repeat' first
    | assumption | exact free_mono hfree rfl | apply next_keeps | apply fault_keeps | apply hk | apply State.answerSpdm_keeps
    | apply State.setTranscript_keeps | split

theorem State.cmdFarPartner_keeps (hfree : msk &&& 33793 = 0) (s p) (hs : was.Keeps msk s) : was.Keeps msk (s.cmdFarPartner p).1 := by
  unfold State.cmdFarPartner
  conv => zeta
  with_reducible repeat' first
    | assumption | exact free_mono hfree rfl | apply State.partWrite_keeps | refine fst_keeps ?_ (by assumption)
    | refine snd_keeps ?_ (by assumption) | split

theorem State.sign_keeps (hfree : msk &&& 1073741824 = 0) (s t) (hs : was.Keeps msk s) : was.Keeps msk (s.sign t).1 := by
  unfold State.sign
  conv => zeta
  with_reducible repeat' first | assumption | exact free_mono hfree rfl | apply State.draw_keeps

theorem State.driveFor_keeps (hfree : msk &&& 3223322624 = 0) (s ticks) (hs : was.Keeps msk s) : was.Keeps msk (s.driveFor ticks) := by
  unfold State.driveFor
  conv => zeta
  with_reducible repeat' first
    | assumption | exact free_mono hfree rfl | apply State.draw_keeps | apply State.driveReset_keeps | apply State.putRst_keeps

theorem State.bootFlash_keeps (hfree : msk &&& 1077421163 = 0) (s) (hs : was.Keeps msk s) : was.Keeps msk (s.bootFlash) := by
  unfold State.bootFlash
  conv => zeta
  with_reducible repeat' first
    | assumption | exact free_mono hfree rfl | apply State.startImage_keeps | apply State.setFld_keeps | apply State.health_keeps | split

theorem State.boot_keeps (hfree : msk &&& 4030217579 = 0) (s adc) (hs : was.Keeps msk s) : was.Keeps msk (s.boot adc) := by
  unfold State.boot
  conv => zeta
  with_reducible repeat' first
    | assumption | exact free_mono hfree rfl | apply State.putEvt_keeps | apply State.putSkipped_keeps | apply State.putCycZero_keeps
    | apply State.setFld_keeps | apply State.trainStart_keeps | apply State.extend_keeps | apply State.showSpared_keeps
    | apply State.bootHost_keeps | apply State.bootFlash_keeps | refine foldl_keeps _ _ _ (fun _ _ _ => ?_) ?_
    | refine foldlFst_keeps _ _ _ (fun _ _ _ => ?_) ?_ | refine foldlSnd_keeps _ _ _ (fun _ _ _ => ?_) ?_
    | refine fst_keeps ?_ (by assumption) | refine snd_keeps ?_ (by assumption) | split

theorem State.addCause_keeps (hfree : msk &&& 67108865 = 0) (s cause) (hs : was.Keeps msk s) : was.Keeps msk (s.addCause cause) := by
  unfold State.addCause
  with_reducible repeat' first | assumption | exact free_mono hfree rfl | apply State.hwOr_keeps

theorem State.powerUp_keeps (hfree : msk &&& 4097326443 = 0) (s adc xa cause) (hs : was.Keeps msk s) :
    was.Keeps msk (s.powerUp adc xa cause) := by
  unfold State.powerUp
  conv => zeta
  with_reducible repeat' first
    | assumption | exact free_mono hfree rfl | apply State.driveReset_keeps | apply State.putRst_keeps | apply State.driveFor_keeps
    | apply State.send_keeps | apply State.boot_keeps | apply State.addCause_keeps | split

theorem State.cmdTimeSource_keeps (hfree : msk &&& 3330080767 = 0) (s p) (hs : was.Keeps msk s) : was.Keeps msk (s.cmdTimeSource p).1 := by
  unfold State.cmdTimeSource
  conv => zeta
  with_reducible repeat' first
    | assumption | exact free_mono hfree rfl | apply State.fwReg_keeps | refine fst_keeps ?_ (by assumption)
    | refine snd_keeps ?_ (by assumption) | split

theorem State.linkReset_keeps (hfree : msk &&& 65792 = 0) (s) (hs : was.Keeps msk s) : was.Keeps msk (s.linkReset) := by
  unfold State.linkReset
  conv => zeta
  with_reducible repeat' first | assumption | exact free_mono hfree rfl | apply State.putTmr_keeps | apply State.putPcie_keeps

theorem State.cmdPowerCap_keeps (hfree : msk &&& 4194305 = 0) (s p) (hs : was.Keeps msk s) : was.Keeps msk (s.cmdPowerCap p).1 := by
  unfold State.cmdPowerCap
  with_reducible repeat' first | assumption | exact free_mono hfree rfl | apply State.capWrite_keeps

theorem State.cmdTimeSet_keeps (hfree : msk &&& 3330080767 = 0) (s p) (hs : was.Keeps msk s) : was.Keeps msk (s.cmdTimeSet p).1 := by
  unfold State.cmdTimeSet
  conv => zeta
  with_reducible repeat' first
    | assumption | exact free_mono hfree rfl | apply State.fwReg_keeps | refine fst_keeps ?_ (by assumption)
    | refine snd_keeps ?_ (by assumption) | split

theorem State.overrun_keeps (hfree : msk &&& 3321915161 = 0) (s v) (hs : was.Keeps msk s) : was.Keeps msk (s.overrun v) := by
  unfold State.overrun
  with_reducible repeat' first
    | assumption | exact free_mono hfree rfl | apply State.txnEnd_keeps | apply State.accessFailed_keeps | apply State.setS_keeps
    | apply State.loadGone_keeps | apply State.moveLost_keeps | apply State.putLost_keeps | apply State.syncFailed_keeps
    | apply State.putSync_keeps | apply State.answerLost_keeps | split

theorem State.relieve_keeps (hfree : msk &&& 2097152 = 0) (s l) (hs : was.Keeps msk s) : was.Keeps msk (s.relieve l) := by
  unfold State.relieve
  conv => zeta
  with_reducible repeat' first | assumption | exact free_mono hfree rfl | apply State.putRst_keeps

theorem State.relockAll_keeps (hfree : msk &&& 4097 = 0) (s) (hs : was.Keeps msk s) : was.Keeps msk (s.relockAll) := by
  unfold State.relockAll
  conv => zeta
  with_reducible repeat' first
    | assumption | exact free_mono hfree rfl | apply State.putClk_keeps | apply State.setBit_keeps
    | refine foldl_keeps _ _ _ (fun _ _ _ => ?_) ?_ | refine foldlFst_keeps _ _ _ (fun _ _ _ => ?_) ?_
    | refine foldlSnd_keeps _ _ _ (fun _ _ _ => ?_) ?_ | refine fst_keeps ?_ (by assumption) | refine snd_keeps ?_ (by assumption) | split
    | dsimp only

theorem State.fwWrite_keeps (hfree : msk &&& 1174422669 = 0) (s a l) (hs : was.Keeps msk s) : was.Keeps msk (s.fwWrite a l) := by
  unfold State.fwWrite
  with_reducible repeat' first | assumption | exact free_mono hfree rfl | apply State.memWrite_keeps

theorem State.cmdMapShards_keeps (hfree : msk &&& 1174422669 = 0) (s p) (hs : was.Keeps msk s) : was.Keeps msk (s.cmdMapShards p).1 := by
  unfold State.cmdMapShards
  conv => zeta
  with_reducible repeat' first
    | assumption | exact free_mono hfree rfl | apply State.fwRead_keeps | apply State.fwWrite_keeps | refine fst_keeps ?_ (by assumption)
    | refine snd_keeps ?_ (by assumption) | split

theorem State.idAfter_keeps (hfree : msk &&& 1 = 0) (s b old) (hs : was.Keeps msk s) : was.Keeps msk (s.idAfter b old) := by
  unfold State.idAfter
  with_reducible repeat' first | assumption | exact free_mono hfree rfl | apply State.wr_keeps

theorem State.interrupted_keeps (hfree : msk &&& 67108865 = 0) (s runs) (hs : was.Keeps msk s) : was.Keeps msk (s.interrupted runs) := by
  unfold State.interrupted
  conv => zeta
  with_reducible repeat' first
    | assumption | exact free_mono hfree rfl | apply State.setFld_keeps | apply State.hwSet_keeps
    | refine foldl_keeps _ _ _ (fun _ _ _ => ?_) ?_ | refine foldlFst_keeps _ _ _ (fun _ _ _ => ?_) ?_
    | refine foldlSnd_keeps _ _ _ (fun _ _ _ => ?_) ?_ | refine fst_keeps ?_ (by assumption) | refine snd_keeps ?_ (by assumption) | split

theorem State.coreClear_keeps (hfree : msk &&& 1980262301 = 0) (s) (hs : was.Keeps msk s) : was.Keeps msk (s.coreClear) := by
  unfold State.coreClear
  conv => zeta
  with_reducible repeat' first
    | assumption | exact free_mono hfree rfl | apply State.rollBack_keeps | apply State.dropCore_keeps | apply State.putBenches_keeps
    | apply State.putLost_keeps | apply State.putCyc_keeps | apply State.putDesks_keeps | apply State.idAfter_keeps
    | apply State.memStore_keeps | apply State.memFilter_keeps | apply State.memClear_keeps | apply State.putTmr_keeps
    | apply State.setBit_keeps | apply State.putSync_keeps | apply State.setFld_keeps | apply State.interrupted_keeps
    | apply State.putSbd_keeps | apply State.setJob_keeps | apply State.putFlash_keeps | apply State.putSkipped_keeps
    | apply State.putCycZero_keeps | apply State.health_keeps | apply State.showSpares_keeps
    | refine foldl_keeps _ _ _ (fun _ _ _ => ?_) ?_ | refine foldlFst_keeps _ _ _ (fun _ _ _ => ?_) ?_
    | refine foldlSnd_keeps _ _ _ (fun _ _ _ => ?_) ?_ | refine fst_keeps ?_ (by assumption) | refine snd_keeps ?_ (by assumption) | split

theorem State.cmdCert_keeps (hfree : msk &&& 1174422669 = 0) (s p) (hs : was.Keeps msk s) : was.Keeps msk (s.cmdCert p).1 := by
  unfold State.cmdCert
  conv => zeta
  with_reducible repeat' first
    | assumption | exact free_mono hfree rfl | apply State.fwWrite_keeps | refine fst_keeps ?_ (by assumption)
    | refine snd_keeps ?_ (by assumption) | split

theorem State.cmdPowerStatus_keeps (s a1) (hs : was.Keeps msk s) : was.Keeps msk (s.cmdPowerStatus a1).1 := by
  unfold State.cmdPowerStatus
  with_reducible repeat' assumption

theorem State.slotByte_keeps (hfree : msk &&& 1073741824 = 0) (s off) (hs : was.Keeps msk s) : was.Keeps msk (s.slotByte off).1 := by
  unfold State.slotByte
  with_reducible repeat' first
    | assumption | exact free_mono hfree rfl | apply State.draw_keeps | refine fst_keeps ?_ (by assumption)
    | refine snd_keeps ?_ (by assumption) | split

theorem State.slotBytes_keeps (hfree : msk &&& 1073741824 = 0) (s off a2) (hs : was.Keeps msk s) :
    was.Keeps msk (s.slotBytes off a2).1 := by
  induction a2 generalizing s off with
  | zero => exact hs
  | succ n ih => exact ih _ _ (State.slotByte_keeps (free_mono hfree rfl) _ _ hs)

theorem State.cmdInfo_keeps (s a1) (hs : was.Keeps msk s) : was.Keeps msk (s.cmdInfo a1).1 := by
  unfold State.cmdInfo
  with_reducible repeat' assumption

theorem State.regDrain_keeps (hfree : msk &&& 3330080767 = 0) (s) (hs : was.Keeps msk s) : was.Keeps msk (s.regDrain) := by
  unfold State.regDrain
  conv => zeta
  with_reducible repeat' first
    | assumption | exact free_mono hfree rfl | apply State.regWrite_keeps | apply State.putTmr_keeps
    | refine foldl_keeps _ _ _ (fun _ _ _ => ?_) ?_ | refine foldlFst_keeps _ _ _ (fun _ _ _ => ?_) ?_
    | refine foldlSnd_keeps _ _ _ (fun _ _ _ => ?_) ?_ | refine fst_keeps ?_ (by assumption) | refine snd_keeps ?_ (by assumption) | split
    | dsimp only

theorem State.bar0Read_keeps (hfree : msk &&& 1073752065 = 0) (s off n) (hs : was.Keeps msk s) : was.Keeps msk (s.bar0Read off n).1 := by
  unfold State.bar0Read
  conv => zeta
  with_reducible repeat' first
    | assumption | exact free_mono hfree rfl | apply State.slotBytes_keeps | apply State.regRead_keeps
    | refine fst_keeps ?_ (by assumption) | refine snd_keeps ?_ (by assumption) | split

theorem State.hostRead_keeps (hfree : msk &&& 1174416517 = 0) (s p n) (hs : was.Keeps msk s) : was.Keeps msk (s.hostRead p n).1 := by
  unfold State.hostRead
  conv => zeta
  with_reducible repeat' first
    | assumption | exact free_mono hfree rfl | apply State.bar0Read_keeps | apply State.regRead_keeps | apply State.memRead_keeps
    | refine fst_keeps ?_ (by assumption) | refine snd_keeps ?_ (by assumption) | split | dsimp only

theorem State.hostLoad_keeps (hfree : msk &&& 3321900165 = 0) (s tag p n) (hs : was.Keeps msk s) : was.Keeps msk (s.hostLoad tag p n) := by
  unfold State.hostLoad
  with_reducible repeat' first
    | assumption | exact free_mono hfree rfl | apply State.hostRead_keeps | apply State.send_keeps | refine fst_keeps ?_ (by assumption)
    | refine snd_keeps ?_ (by assumption) | split

theorem State.hostStore_keeps (hfree : msk &&& 3330146303 = 0) (s p data be) (hs : was.Keeps msk s) :
    was.Keeps msk (s.hostStore p data be) := by
  unfold State.hostStore
  with_reducible repeat' first
    | assumption | exact free_mono hfree rfl | apply State.bar0Write_keeps | apply State.hostReg_keeps | apply State.memWriteBe_keeps
    | split

theorem State.hostServe_keeps (hfree : msk &&& 3330146303 = 0) (s) (hs : was.Keeps msk s) : was.Keeps msk (s.hostServe).1 := by
  unfold State.hostServe
  conv => zeta
  with_reducible repeat' first
    | assumption | exact free_mono hfree rfl | apply State.hostLoad_keeps | apply State.putTmr_keeps | apply State.hostStore_keeps
    | refine fst_keeps ?_ (by assumption) | refine snd_keeps ?_ (by assumption) | split

theorem State.hostDrain_keeps (hfree : msk &&& 3330146303 = 0) (s a1) (hs : was.Keeps msk s) : was.Keeps msk (s.hostDrain a1) := by
  induction a1 generalizing s with
  | zero => exact hs
  | succ n ih =>
    unfold State.hostDrain
    split
    next s' more h =>
    have h' := fst_keeps (State.hostServe_keeps (free_mono hfree rfl) _ hs) h
    split
    · exact ih _ h'
    · exact h'

theorem State.serveAll_keeps (hfree : msk &&& 3330146303 = 0) (s) (hs : was.Keeps msk s) : was.Keeps msk (s.serveAll) := by
  unfold State.serveAll
  conv => zeta
  with_reducible repeat' first
    | assumption | exact free_mono hfree rfl | apply State.regDrain_keeps | apply State.serveHeld_keeps | apply State.failDead_keeps
    | apply State.bootGo_keeps | apply State.hostDrain_keeps | apply State.flushFar_keeps | split

theorem State.cmdActivate_keeps (hfree : msk &&& 2621440 = 0) (s a1) (hs : was.Keeps msk s) : was.Keeps msk (s.cmdActivate a1).1 := by
  unfold State.cmdActivate
  with_reducible repeat' first
    | assumption | exact free_mono hfree rfl | apply State.activate_keeps | refine fst_keeps ?_ (by assumption)
    | refine snd_keeps ?_ (by assumption) | split

theorem State.lowerAllow_keeps (hfree : msk &&& 1073741825 = 0) (s need above) (hs : was.Keeps msk s) :
    was.Keeps msk (s.lowerAllow need above) := by
  unfold State.lowerAllow
  conv => zeta
  with_reducible repeat' first
    | assumption | exact free_mono hfree rfl | apply State.draw_keeps | apply State.setFld_keeps
    | refine foldl_keeps _ _ _ (fun _ _ _ => ?_) ?_

theorem State.cmdUnload_keeps (hfree : msk &&& 270337 = 0) (s a1) (hs : was.Keeps msk s) : was.Keeps msk (s.cmdUnload a1).1 := by
  unfold State.cmdUnload
  conv => zeta
  with_reducible repeat' first
    | assumption | exact free_mono hfree rfl | apply State.setJob_keeps | apply State.putHut_keeps | refine fst_keeps ?_ (by assumption)
    | refine snd_keeps ?_ (by assumption) | split

theorem State.holdFw_keeps (hfree : msk &&& 262145 = 0) (s who) (hs : was.Keeps msk s) : was.Keeps msk (s.holdFw who) := by
  unfold State.holdFw
  conv => zeta
  with_reducible repeat' first | assumption | exact free_mono hfree rfl | apply State.setFld_keeps | apply State.putHut_keeps

theorem State.updateEnd_keeps (hfree : msk &&& 8650753 = 0) (s) (hs : was.Keeps msk s) : was.Keeps msk (s.updateEnd) := by
  unfold State.updateEnd
  conv => zeta
  with_reducible repeat' first | assumption | exact free_mono hfree rfl | apply State.holdFw_keeps | apply State.putMgmt_keeps

theorem State.gtAdvance_keeps (hfree : msk &&& 3073 = 0) (s) (hs : was.Keeps msk s) : was.Keeps msk (s.gtAdvance) := by
  unfold State.gtAdvance
  with_reducible repeat' first | assumption | exact free_mono hfree rfl | apply State.putGt_keeps | apply State.gtJudge_keeps | split

theorem State.stageImage_keeps (hfree : msk &&& 525313 = 0) (s i) (hs : was.Keeps msk s) : was.Keeps msk (s.stageImage i) := by
  unfold State.stageImage
  conv => zeta
  with_reducible repeat' first
    | assumption | exact free_mono hfree rfl | apply State.extend_keeps | apply State.putFlash_keeps | apply State.fwEvent_keeps

theorem State.cmdStage_keeps (hfree : msk &&& 1175192709 = 0) (s p) (hs : was.Keeps msk s) : was.Keeps msk (s.cmdStage p).1 := by
  unfold State.cmdStage
  conv => zeta
  with_reducible repeat' first
    | assumption | exact free_mono hfree rfl | apply State.fwRead_keeps | apply State.holdFw_keeps | apply State.stageImage_keeps
    | refine fst_keeps ?_ (by assumption) | refine snd_keeps ?_ (by assumption) | split

theorem State.hostQueue_keeps (hfree : msk &&& 3330146303 = 0) (s h) (hs : was.Keeps msk s) : was.Keeps msk (s.hostQueue h) := by
  unfold State.hostQueue
  conv => zeta
  with_reducible repeat' first | assumption | exact free_mono hfree rfl | apply State.putTmr_keeps | apply State.hostDrain_keeps

theorem State.pldmUpdate_keeps (hfree : msk &&& 11273217 = 0) (s m) (hs : was.Keeps msk s) : was.Keeps msk (s.pldmUpdate m).1 := by
  unfold State.pldmUpdate
  conv => zeta
  with_reducible repeat' first
    | assumption | exact free_mono hfree rfl | apply State.holdFw_keeps | apply State.putMgmt_keeps | apply State.updateEnd_keeps
    | apply State.stageImage_keeps | apply State.activate_keeps | refine foldl_keeps _ _ _ (fun _ _ _ => ?_) ?_
    | refine foldlFst_keeps _ _ _ (fun _ _ _ => ?_) ?_ | refine foldlSnd_keeps _ _ _ (fun _ _ _ => ?_) ?_
    | refine fst_keeps ?_ (by assumption) | refine snd_keeps ?_ (by assumption) | split

theorem State.cmdReset_keeps (hfree : msk &&& 2097152 = 0) (s p) (hs : was.Keeps msk s) : was.Keeps msk (s.cmdReset p).1 := by
  unfold State.cmdReset
  conv => zeta
  with_reducible repeat' first
    | assumption | exact free_mono hfree rfl | apply State.requestReset_keeps | refine fst_keeps ?_ (by assumption)
    | refine snd_keeps ?_ (by assumption) | split

theorem State.cmdNumElog_keeps (hfree : msk &&& 3330080767 = 0) (s p) (hs : was.Keeps msk s) : was.Keeps msk (s.cmdNumElog p).1 := by
  unfold State.cmdNumElog
  conv => zeta
  with_reducible repeat' first
    | assumption | exact free_mono hfree rfl | apply State.fwReg_keeps | refine fst_keeps ?_ (by assumption)
    | refine snd_keeps ?_ (by assumption) | split

theorem State.jobStart_keeps (hfree : msk &&& 67117065 = 0) (s) (hs : was.Keeps msk s) : was.Keeps msk (s.jobStart) := by
  unfold State.jobStart
  with_reducible repeat' first
    | assumption | exact free_mono hfree rfl | apply State.setJob_keeps | apply State.start_keeps
    | refine foldl_keeps _ _ _ (fun _ _ _ => ?_) ?_

theorem State.cmdSbdEnable_keeps (hfree : msk &&& 3330080767 = 0) (s p) (hs : was.Keeps msk s) : was.Keeps msk (s.cmdSbdEnable p).1 := by
  unfold State.cmdSbdEnable
  conv => zeta
  with_reducible repeat' first
    | assumption | exact free_mono hfree rfl | apply State.fwReg_keeps | refine foldl_keeps _ _ _ (fun _ _ _ => ?_) ?_
    | refine foldlFst_keeps _ _ _ (fun _ _ _ => ?_) ?_ | refine foldlSnd_keeps _ _ _ (fun _ _ _ => ?_) ?_
    | refine fst_keeps ?_ (by assumption) | refine snd_keeps ?_ (by assumption) | split

theorem State.mctpControl_keeps (hfree : msk &&& 8388608 = 0) (s m) (hs : was.Keeps msk s) : was.Keeps msk (s.mctpControl m).1 := by
  unfold State.mctpControl
  conv => zeta
  with_reducible repeat' first
    | assumption | exact free_mono hfree rfl | apply State.putMgmt_keeps | refine fst_keeps ?_ (by assumption)
    | refine snd_keeps ?_ (by assumption) | split

theorem State.relock_keeps (hfree : msk &&& 1073745921 = 0) (s n) (hs : was.Keeps msk s) : was.Keeps msk (s.relock n) := by
  unfold State.relock
  conv => zeta
  with_reducible repeat' first
    | assumption | exact free_mono hfree rfl | apply State.draw_keeps | apply State.putClk_keeps | apply State.setBit_keeps
    | refine fst_keeps ?_ (by assumption) | refine snd_keeps ?_ (by assumption) | split | dsimp only

theorem State.keyInstall_keeps (hfree : msk &&& 131073 = 0) (s k i ep key) (hs : was.Keeps msk s) :
    was.Keeps msk (s.keyInstall k i ep key) := by
  unfold State.keyInstall
  conv => zeta
  with_reducible repeat' first | assumption | exact free_mono hfree rfl | apply State.setFld_keeps | apply State.putSec_keeps

theorem State.cmdStatus_keeps (s a1) (hs : was.Keeps msk s) : was.Keeps msk (s.cmdStatus a1).1 := by
  unfold State.cmdStatus
  with_reducible repeat' assumption

theorem State.jobGo_keeps (hfree : msk &&& 3330080767 = 0) (s h benches regs start) (hs : was.Keeps msk s) :
    was.Keeps msk (s.jobGo h benches regs start) := by
  unfold State.jobGo
  conv => zeta
  with_reducible repeat' first
    | assumption | exact free_mono hfree rfl | apply State.fwReg_keeps | apply State.putHut_keeps | apply State.setJob_keeps
    | apply State.jobStart_keeps | refine foldl_keeps _ _ _ (fun _ _ _ => ?_) ?_ | refine foldlFst_keeps _ _ _ (fun _ _ _ => ?_) ?_
    | refine foldlSnd_keeps _ _ _ (fun _ _ _ => ?_) ?_ | refine fst_keeps ?_ (by assumption) | refine snd_keeps ?_ (by assumption) | split

theorem State.keyPhase2_keeps (hfree : msk &&& 3221390337 = 0) (s k r) (hs : was.Keeps msk s) : was.Keeps msk (s.keyPhase2 k r).1 := by
  unfold State.keyPhase2
  conv => zeta
  with_reducible repeat' first
    | assumption | exact free_mono hfree rfl | apply State.putSec_keeps | apply State.flushFar_keeps | apply State.keyInstall_keeps
    | refine fst_keeps ?_ (by assumption) | refine snd_keeps ?_ (by assumption) | split

theorem State.cmdMapRoutes_keeps (hfree : msk &&& 3330080767 = 0) (s p) (hs : was.Keeps msk s) : was.Keeps msk (s.cmdMapRoutes p).1 := by
  unfold State.cmdMapRoutes
  conv => zeta
  with_reducible repeat' first
    | assumption | exact free_mono hfree rfl | apply State.fwRead_keeps | apply State.fwReg_keeps
    | refine foldl_keeps _ _ _ (fun _ _ _ => ?_) ?_ | refine foldlFst_keeps _ _ _ (fun _ _ _ => ?_) ?_
    | refine foldlSnd_keeps _ _ _ (fun _ _ _ => ?_) ?_ | refine fst_keeps ?_ (by assumption) | refine snd_keeps ?_ (by assumption) | split

theorem State.saveAvail_keeps (hfree : msk &&& 532481 = 0) (s) (hs : was.Keeps msk s) : was.Keeps msk (s.saveAvail) := by
  unfold State.saveAvail
  conv => zeta
  with_reducible repeat' first
    | assumption | exact free_mono hfree rfl | apply State.countAvail_keeps | apply State.putFlt_keeps | apply State.putFlash_keeps

theorem State.systemClear_keeps (hfree : msk &&& 4294967295 = 0) (s cause) (hs : was.Keeps msk s) :
    was.Keeps msk (s.systemClear cause) := by
  unfold State.systemClear
  conv => zeta
  with_reducible repeat' first
    | assumption | exact free_mono hfree rfl | apply State.saveAvail_keeps | apply State.addCause_keeps | apply State.wideClear_keeps
    | apply State.putFlt_keeps | split

theorem State.cmdErrcopy_keeps (hfree : msk &&& 1174422669 = 0) (s p) (hs : was.Keeps msk s) : was.Keeps msk (s.cmdErrcopy p).1 := by
  unfold State.cmdErrcopy
  conv => zeta
  with_reducible repeat' first
    | assumption | exact free_mono hfree rfl | apply State.fwWrite_keeps | refine fst_keeps ?_ (by assumption)
    | refine snd_keeps ?_ (by assumption) | split

theorem State.cmdLoad_keeps (hfree : msk &&& 3330080767 = 0) (s p) (hs : was.Keeps msk s) : was.Keeps msk (s.cmdLoad p).1 := by
  unfold State.cmdLoad
  conv => zeta
  with_reducible repeat' first
    | assumption | exact free_mono hfree rfl | apply State.fwRead_keeps | apply State.jobGo_keeps | apply State.extend_keeps
    | refine fst_keeps ?_ (by assumption) | refine snd_keeps ?_ (by assumption) | split

theorem State.takeStart_keeps (hfree : msk &&& 9225 = 0) (s b spare forced) (hs : was.Keeps msk s) :
    was.Keeps msk (s.takeStart b spare forced) := by
  unfold State.takeStart
  conv => zeta
  with_reducible repeat' first
    | assumption | exact free_mono hfree rfl | apply State.takeEvent_keeps | apply State.lendEnd_keeps | apply State.modBench_keeps
    | apply State.health_keeps

theorem State.storeNear_keeps (hfree : msk &&& 3330080767 = 0) (s b c a n v) (hs : was.Keeps msk s) :
    was.Keeps msk (s.storeNear b c a n v) := by
  unfold State.storeNear
  with_reducible repeat' first
    | assumption | exact free_mono hfree rfl | apply State.takeLost_keeps | apply State.regWrite_keeps | apply State.memWriteOk_keeps
    | apply State.accessFailed_keeps | refine fst_keeps ?_ (by assumption) | refine snd_keeps ?_ (by assumption) | split

theorem State.cmdLogEvents_keeps (hfree : msk &&& 3330080767 = 0) (s p) (hs : was.Keeps msk s) : was.Keeps msk (s.cmdLogEvents p).1 := by
  unfold State.cmdLogEvents
  conv => zeta
  with_reducible repeat' first
    | assumption | exact free_mono hfree rfl | apply State.fwReg_keeps | refine fst_keeps ?_ (by assumption)
    | refine snd_keeps ?_ (by assumption) | split

theorem State.aerSet_keeps (hfree : msk &&& 65536 = 0) (s m) (hs : was.Keeps msk s) : was.Keeps msk (s.aerSet m) := by
  unfold State.aerSet
  conv => zeta
  with_reducible repeat' first | assumption | exact free_mono hfree rfl | apply State.putPcie_keeps | split | dsimp only

theorem State.cmdStop_keeps (hfree : msk &&& 3288344345 = 0) (s a1) (hs : was.Keeps msk s) : was.Keeps msk (s.cmdStop a1).1 := by
  unfold State.cmdStop
  conv => zeta
  with_reducible repeat' first
    | assumption | exact free_mono hfree rfl | apply State.stopRequest_keeps | apply State.jobCheck_keeps
    | refine foldl_keeps _ _ _ (fun _ _ _ => ?_) ?_ | refine foldlFst_keeps _ _ _ (fun _ _ _ => ?_) ?_
    | refine foldlSnd_keeps _ _ _ (fun _ _ _ => ?_) ?_ | refine fst_keeps ?_ (by assumption) | refine snd_keeps ?_ (by assumption) | split

theorem State.storeSend_keeps (hfree : msk &&& 3288335625 = 0) (s b c a n v) (hs : was.Keeps msk s) :
    was.Keeps msk (s.storeSend b c a n v) := by
  unfold State.storeSend
  conv => zeta
  with_reducible repeat' first
    | assumption | exact free_mono hfree rfl | apply State.submit_keeps | apply State.accessFailed_keeps | apply State.modCtx_keeps
    | refine fst_keeps ?_ (by assumption) | refine snd_keeps ?_ (by assumption) | split

theorem State.cmdNumSet_keeps (hfree : msk &&& 3330080767 = 0) (s p) (hs : was.Keeps msk s) : was.Keeps msk (s.cmdNumSet p).1 := by
  unfold State.cmdNumSet
  with_reducible repeat' first
    | assumption | exact free_mono hfree rfl | apply State.fwReg_keeps | refine fst_keeps ?_ (by assumption)
    | refine snd_keeps ?_ (by assumption) | split

theorem State.throttleDie_keeps (hfree : msk &&& 1073741825 = 0) (s c draw) (hs : was.Keeps msk s) :
    was.Keeps msk (s.throttleDie c draw) := by
  unfold State.throttleDie
  conv => zeta
  with_reducible repeat' first
    | assumption | exact free_mono hfree rfl | apply State.draw_keeps | apply State.setFld_keeps | refine fst_keeps ?_ (by assumption)
    | refine snd_keeps ?_ (by assumption) | split

theorem State.lendWatch_keeps (hfree : msk &&& 8 = 0) (s) (hs : was.Keeps msk s) : was.Keeps msk (s.lendWatch) := by
  unfold State.lendWatch
  conv => zeta
  with_reducible repeat' first
    | assumption | exact free_mono hfree rfl | apply State.modBench_keeps | refine foldl_keeps _ _ _ (fun _ _ _ => ?_) ?_
    | refine foldlFst_keeps _ _ _ (fun _ _ _ => ?_) ?_ | refine foldlSnd_keeps _ _ _ (fun _ _ _ => ?_) ?_
    | refine fst_keeps ?_ (by assumption) | refine snd_keeps ?_ (by assumption) | split | dsimp only

theorem State.countStalls_keeps (hfree : msk &&& 1 = 0) (s) (hs : was.Keeps msk s) : was.Keeps msk (s.countStalls) := by
  unfold State.countStalls
  conv => zeta
  with_reducible repeat' first
    | assumption | exact free_mono hfree rfl | apply State.incSat_keeps | refine foldl_keeps _ _ _ (fun _ _ _ => ?_) ?_
    | refine foldlFst_keeps _ _ _ (fun _ _ _ => ?_) ?_ | refine foldlSnd_keeps _ _ _ (fun _ _ _ => ?_) ?_
    | refine fst_keeps ?_ (by assumption) | refine snd_keeps ?_ (by assumption) | split

theorem State.markFall_keeps (hfree : msk &&& 2147487744 = 0) (s) (hs : was.Keeps msk s) : was.Keeps msk (s.markFall) := by
  unfold State.markFall
  with_reducible repeat' first | assumption | exact free_mono hfree rfl | apply State.driveMark_keeps | split

theorem State.countSkipped_keeps (hfree : msk &&& 536870912 = 0) (s) (hs : was.Keeps msk s) : was.Keeps msk (s.countSkipped) := by
  unfold State.countSkipped
  conv => zeta
  with_reducible repeat' first
    | assumption | exact free_mono hfree rfl | apply State.putSkipped_keeps | refine foldl_keeps _ _ _ (fun _ _ _ => ?_) ?_
    | refine foldlFst_keeps _ _ _ (fun _ _ _ => ?_) ?_ | refine foldlSnd_keeps _ _ _ (fun _ _ _ => ?_) ?_
    | refine fst_keeps ?_ (by assumption) | refine snd_keeps ?_ (by assumption) | split

theorem State.tick_keeps (hfree : msk &&& 4001234943 = 0) (s) (hs : was.Keeps msk s) : was.Keeps msk (s.tick) := by
  unfold State.tick
  conv => zeta
  with_reducible repeat' first
    | assumption | exact free_mono hfree rfl | apply State.nextPulse_keeps | apply State.serveAll_keeps | apply State.lendWatch_keeps
    | apply State.countStalls_keeps | apply State.markFall_keeps | apply State.relockAll_keeps | apply State.gtAdvance_keeps
    | apply State.countSkipped_keeps | apply State.runAgain_keeps | split

theorem State.cmdKeyx_keeps (hfree : msk &&& 3322070157 = 0) (s p) (hs : was.Keeps msk s) : was.Keeps msk (s.cmdKeyx p).1 := by
  unfold State.cmdKeyx
  conv => zeta
  with_reducible repeat' first
    | assumption | exact free_mono hfree rfl | apply State.fwRead_keeps | apply State.draw_keeps | apply State.putSec_keeps
    | apply State.fwWrite_keeps | apply State.keyPhase2_keeps | apply State.raise_keeps | refine fst_keeps ?_ (by assumption)
    | refine snd_keeps ?_ (by assumption) | split

theorem State.balance_keeps (hfree : msk &&& 1 = 0) (s c draw) (hs : was.Keeps msk s) : was.Keeps msk (s.balance c draw) := by
  unfold State.balance
  conv => zeta
  with_reducible repeat' first | assumption | exact free_mono hfree rfl | apply State.setFld_keeps | split

theorem State.cmdFarDisable_keeps (hfree : msk &&& 32769 = 0) (s a1) (hs : was.Keeps msk s) : was.Keeps msk (s.cmdFarDisable a1).1 := by
  unfold State.cmdFarDisable
  with_reducible repeat' first
    | assumption | exact free_mono hfree rfl | apply State.trsDisable_keeps | refine fst_keeps ?_ (by assumption)
    | refine snd_keeps ?_ (by assumption) | split

theorem State.cmdStart_keeps (hfree : msk &&& 67117065 = 0) (s a1) (hs : was.Keeps msk s) : was.Keeps msk (s.cmdStart a1).1 := by
  unfold State.cmdStart
  with_reducible repeat' first
    | assumption | exact free_mono hfree rfl | apply State.jobStart_keeps | refine fst_keeps ?_ (by assumption)
    | refine snd_keeps ?_ (by assumption) | split

theorem State.take_keeps (hfree : msk &&& 3330277375 = 0) (s i) (hs : was.Keeps msk s) : was.Keeps msk (s.take i) := by
  unfold State.take
  split
  · next c hc =>
    have hm := List.mem_of_find?_eq_some hc
    have hk : ∀ t l, was.Keeps msk t → was.Keeps msk (c.run t l).1 := by
     intro t l ht
     clear hc
     revert hm
     simp only [commands, List.mem_cons, List.not_mem_nil, or_false]
     rintro (rfl
    | rfl | rfl | rfl | rfl | rfl | rfl | rfl | rfl | rfl | rfl | rfl | rfl | rfl | rfl | rfl | rfl | rfl | rfl | rfl | rfl | rfl | rfl
    | rfl | rfl | rfl | rfl)
     exacts [State.cmdInfo_keeps t l ht, State.cmdStatus_keeps t l ht, State.cmdReset_keeps (free_mono hfree rfl) t l ht,
      State.cmdLoad_keeps (free_mono hfree rfl) t l ht, State.cmdStart_keeps (free_mono hfree rfl) t l ht,
      State.cmdStop_keeps (free_mono hfree rfl) t l ht, State.cmdUnload_keeps (free_mono hfree rfl) t l ht,
      State.cmdMapModule_keeps (free_mono hfree rfl) t l ht, State.cmdMapRoutes_keeps (free_mono hfree rfl) t l ht,
      State.cmdMapShards_keeps (free_mono hfree rfl) t l ht, State.cmdNumSet_keeps (free_mono hfree rfl) t l ht,
      State.cmdNumElog_keeps (free_mono hfree rfl) t l ht, State.cmdSbdEnable_keeps (free_mono hfree rfl) t l ht,
      State.cmdSbdExport_keeps (free_mono hfree rfl) t l ht, State.cmdFarEnable_keeps (free_mono hfree rfl) t l ht,
      State.cmdFarDisable_keeps (free_mono hfree rfl) t l ht, State.cmdFarPartner_keeps (free_mono hfree rfl) t l ht,
      State.cmdTimeSet_keeps (free_mono hfree rfl) t l ht, State.cmdTimeSource_keeps (free_mono hfree rfl) t l ht,
      State.cmdPowerStatus_keeps t l ht, State.cmdPowerCap_keeps (free_mono hfree rfl) t l ht,
      State.cmdCert_keeps (free_mono hfree rfl) t l ht, State.cmdKeyx_keeps (free_mono hfree rfl) t l ht,
      State.cmdLogEvents_keeps (free_mono hfree rfl) t l ht, State.cmdErrcopy_keeps (free_mono hfree rfl) t l ht,
      State.cmdStage_keeps (free_mono hfree rfl) t l ht, State.cmdActivate_keeps (free_mono hfree rfl) t l ht]
    exact State.command_keeps (free_mono hfree rfl) _ _ _ _ hs hk
  · exact State.respond_keeps (free_mono hfree rfl) _ _ _ _ _ hs

end Sys2Proof.Machine
end

