-- ==== Sys2Proof/Laws/KeepsExec.lean ====
section
/-!
SUPPORT. What no command undoes (`State.Keeps`): one lemma for each function that answers a state, here for
the commands.
-/
namespace Sys2Proof.Machine

variable {msk : Nat} {was : State}

theorem execDeskInjParity_keeps (hfree : msk &&& 16 = 0) (b d s) (hs : was.Keeps msk s) : outKeeps msk was (execDeskInjParity b d s) := by
  unfold execDeskInjParity
  with_reducible repeat' first
    | assumption | exact free_mono hfree rfl | apply next_keeps | apply fault_keeps | apply State.deskInject_keeps

theorem execThermalTrip_keeps (hfree : msk &&& 4294967295 = 0) (s) (hs : was.Keeps msk s) : outKeeps msk was (execThermalTrip s) := by
  unfold execThermalTrip
  with_reducible repeat' first | assumption | exact free_mono hfree rfl | apply next_keeps | apply fault_keeps | apply State.powerOff_keeps

theorem execDeskBLoadComplete_keeps (hfree : msk &&& 3288344345 = 0) (b d s) (hs :
    was.Keeps msk s) : outKeeps msk was (execDeskBLoadComplete b d s) := by
  unfold execDeskBLoadComplete
  with_reducible repeat' first | assumption | exact free_mono hfree rfl | apply next_keeps | apply fault_keeps | apply State.loadDone_keeps

theorem execPldmDiscovery_keeps (hfree : msk &&& 2155872256 = 0) (src m s) (hs :
    was.Keeps msk s) : outKeeps msk was (execPldmDiscovery src m s) := by
  unfold execPldmDiscovery
  with_reducible repeat' first
    | assumption | exact free_mono hfree rfl | apply next_keeps | apply fault_keeps | apply State.pldmBase_keeps
    | apply State.answerMctp_keeps | refine fst_keeps ?_ (by assumption) | refine snd_keeps ?_ (by assumption) | split

theorem execVcos_keeps (hfree : msk &&& 3288344345 = 0) (b c vd va _vb _vc p fmt _fn s) (hs :
    was.Keeps msk s) : outKeeps msk was (execVcos b c vd va _vb _vc p fmt _fn s) := by
  unfold execVcos
  with_reducible repeat' first
    | assumption | exact free_mono hfree rfl | apply next_keeps | apply fault_keeps | apply ok_keeps | apply State.vecTrans_keeps

theorem execTmrRtoExpiry_keeps (hfree : msk &&& 3288360729 = 0) (dest tc seq s) (hs :
    was.Keeps msk s) : outKeeps msk was (execTmrRtoExpiry dest tc seq s) := by
  unfold execTmrRtoExpiry
  conv => zeta
  with_reducible repeat' first
    | assumption | exact free_mono hfree rfl | apply next_keeps | apply fault_keeps | apply State.failDead_keeps
    | apply State.transmit_keeps | apply State.putTmr_keeps | apply State.txnEnd_keeps | split

theorem execSltu_keeps (hfree : msk &&& 3288344345 = 0) (b c rd rs1 rs2 i imm rsv s) (hs :
    was.Keeps msk s) : outKeeps msk was (execSltu b c rd rs1 rs2 i imm rsv s) := by
  unfold execSltu
  with_reducible repeat' first
    | assumption | exact free_mono hfree rfl | apply next_keeps | apply fault_keeps | apply ok_keeps | apply State.alu_keeps

theorem execWaitBusyRetry_keeps (hfree : msk &&& 3288344345 = 0) (b t s) (hs :
    was.Keeps msk s) : outKeeps msk was (execWaitBusyRetry b t s) := by
  unfold execWaitBusyRetry
  conv => zeta
  with_reducible repeat' first
    | assumption | exact free_mono hfree rfl | apply next_keeps | apply fault_keeps | apply State.waitFailed_keeps
    | apply State.syncEvent_keeps | apply State.sendWait_keeps | split

theorem execMsixHoldoffExpiry_keeps (hfree : msk &&& 2147549184 = 0) (v s) (hs :
    was.Keeps msk s) : outKeeps msk was (execMsixHoldoffExpiry v s) := by
  unfold execMsixHoldoffExpiry
  conv => zeta
  with_reducible repeat' first
    | assumption | exact free_mono hfree rfl | apply next_keeps | apply fault_keeps | apply State.msixSend_keeps
    | apply State.putPcie_keeps | split

theorem execMoveConvert_keeps (hfree : msk &&& 3321915293 = 0) (b c rs t dir sg cnt rsv s) (hs :
    was.Keeps msk s) : outKeeps msk was (execMoveConvert b c rs t dir sg cnt rsv s) := by
  unfold execMoveConvert
  with_reducible repeat' first | assumption | exact free_mono hfree rfl | apply next_keeps | apply fault_keeps | apply State.moveIssue_keeps

theorem execMoveTranspose_keeps (hfree : msk &&& 3321915293 = 0) (b c rs t dir sg cnt rsv s) (hs :
    was.Keeps msk s) : outKeeps msk was (execMoveTranspose b c rs t dir sg cnt rsv s) := by
  unfold execMoveTranspose
  with_reducible repeat' first | assumption | exact free_mono hfree rfl | apply next_keeps | apply fault_keeps | apply State.moveIssue_keeps

theorem execSensorThresholdCrossing_keeps (hfree : msk &&& 2155872256 = 0) (sensor die v s) (hs :
    was.Keeps msk s) : outKeeps msk was (execSensorThresholdCrossing sensor die v s) := by
  unfold execSensorThresholdCrossing
  conv => zeta
  with_reducible repeat' first
    | assumption | exact free_mono hfree rfl | apply next_keeps | apply fault_keeps | apply State.putMgmt_keeps
    | apply State.answerMctp_keeps | split

theorem execGtSet_keeps (hfree : msk &&& 1140853761 = 0) (v s) (hs : was.Keeps msk s) : outKeeps msk was (execGtSet v s) := by
  unfold execGtSet
  with_reducible repeat' first | assumption | exact free_mono hfree rfl | apply next_keeps | apply fault_keeps | apply State.gtSet_keeps

theorem execTrsDataReceive_keeps (hfree : msk &&& 3221259265 = 0) (p frame s) (hs :
    was.Keeps msk s) : outKeeps msk was (execTrsDataReceive p frame s) := by
  unfold execTrsDataReceive
  conv => zeta
  with_reducible repeat' first
    | assumption | exact free_mono hfree rfl | apply next_keeps | apply fault_keeps | apply State.recvFrame_keeps
    | apply State.repeatData_keeps | apply State.takeData_keeps | refine fst_keeps ?_ (by assumption)
    | refine snd_keeps ?_ (by assumption) | split

theorem execBootWatchdogExpiry_keeps (hfree : msk &&& 2621440 = 0) (s) (hs :
    was.Keeps msk s) : outKeeps msk was (execBootWatchdogExpiry s) := by
  unfold execBootWatchdogExpiry
  conv => zeta
  with_reducible repeat' first
    | assumption | exact free_mono hfree rfl | apply next_keeps | apply fault_keeps | apply State.putFlash_keeps
    | apply State.requestReset_keeps | apply State.putRst_keeps | split

theorem execLcommit_keeps (hfree : msk &&& 3288344345 = 0) (b c rd rs rt rsv s) (hs :
    was.Keeps msk s) : outKeeps msk was (execLcommit b c rd rs rt rsv s) := by
  unfold execLcommit
  conv => zeta
  with_reducible repeat' first
    | assumption | exact free_mono hfree rfl | apply next_keeps | apply fault_keeps | apply State.issue_keeps | apply State.illegal_keeps
    | apply State.done_keeps | apply State.setS_keeps | apply State.setFld_keeps | apply State.modCtx_keeps | apply State.doneBlock_keeps
    | (intro _; intros; try beta_reduce) | split

theorem execLd64_keeps (hfree : msk &&& 3288344345 = 0) (b c rd rs1 imm rsv s) (hs :
    was.Keeps msk s) : outKeeps msk was (execLd64 b c rd rs1 imm rsv s) := by
  unfold execLd64
  with_reducible repeat' first
    | assumption | exact free_mono hfree rfl | apply next_keeps | apply fault_keeps | apply State.scalarLoad_keeps

theorem execPortRetrain_keeps (hfree : msk &&& 3221241089 = 0) (p s) (hs : was.Keeps msk s) : outKeeps msk was (execPortRetrain p s) := by
  unfold execPortRetrain
  with_reducible repeat' first
    | assumption | exact free_mono hfree rfl | apply next_keeps | apply fault_keeps | apply State.retrainAll_keeps

theorem execMapModule_keeps (hfree : msk &&& 3330146303 = 0) (i s) (hs : was.Keeps msk s) : outKeeps msk was (execMapModule i s) := by
  unfold execMapModule
  with_reducible repeat' first
    | assumption | exact free_mono hfree rfl | apply next_keeps | apply fault_keeps | apply State.takeAs_keeps
    | apply State.cmdMapModule_keeps

theorem execVmax_keeps (hfree : msk &&& 3288344345 = 0) (b c vd va vb vc p fmt _fn s) (hs :
    was.Keeps msk s) : outKeeps msk was (execVmax b c vd va vb vc p fmt _fn s) := by
  unfold execVmax
  with_reducible repeat' first
    | assumption | exact free_mono hfree rfl | apply next_keeps | apply fault_keeps | apply ok_keeps | apply State.vecLanes_keeps

theorem execBusbarOvervoltage_keeps (hfree : msk &&& 4294967295 = 0) (s) (hs :
    was.Keeps msk s) : outKeeps msk was (execBusbarOvervoltage s) := by
  unfold execBusbarOvervoltage
  with_reducible repeat' first | assumption | exact free_mono hfree rfl | apply next_keeps | apply fault_keeps | apply State.powerOff_keeps

theorem execVred_keeps (hfree : msk &&& 3288344345 = 0) (b c vd va _vb _vc p fmt _fn s) (hs :
    was.Keeps msk s) : outKeeps msk was (execVred b c vd va _vb _vc p fmt _fn s) := by
  unfold execVred
  conv => zeta
  with_reducible repeat' first
    | assumption | exact free_mono hfree rfl | apply next_keeps | apply fault_keeps | apply ok_keeps | apply State.issue_keeps
    | apply State.illegal_keeps | apply State.vecEnd_keeps | apply State.setV_keeps | (intro _; intros; try beta_reduce) | split

theorem execDeskCfgWrite_keeps (hfree : msk &&& 67108865 = 0) (b d v s) (hs :
    was.Keeps msk s) : outKeeps msk was (execDeskCfgWrite b d v s) := by
  unfold execDeskCfgWrite
  with_reducible repeat' first
    | assumption | exact free_mono hfree rfl | apply next_keeps | apply fault_keeps | apply State.deskCfgWrite_keeps

theorem execFarPartner_keeps (hfree : msk &&& 2147845125 = 0) (i s) (hs : was.Keeps msk s) : outKeeps msk was (execFarPartner i s) := by
  unfold execFarPartner
  with_reducible repeat' first
    | assumption | exact free_mono hfree rfl | apply next_keeps | apply fault_keeps | apply State.takeAs_keeps
    | apply State.cmdFarPartner_keeps

theorem execChallenge_keeps (hfree : msk &&& 3229614080 = 0) (mctp src slot req s) (hs :
    was.Keeps msk s) : outKeeps msk was (execChallenge mctp src slot req s) := by
  unfold execChallenge
  with_reducible repeat' first
    | assumption | exact free_mono hfree rfl | apply next_keeps | apply fault_keeps | apply State.spdmStep_keeps | apply State.sign_keeps
    | (intro _; intros; try beta_reduce) | refine fst_keeps ?_ (by assumption) | refine snd_keeps ?_ (by assumption) | split

theorem execBne_keeps (hfree : msk &&& 3288344345 = 0) (b c rs1 rs2 imm rsv s) (hs :
    was.Keeps msk s) : outKeeps msk was (execBne b c rs1 rs2 imm rsv s) := by
  unfold execBne
  with_reducible repeat' first
    | assumption | exact free_mono hfree rfl | apply next_keeps | apply fault_keeps | apply ok_keeps | apply State.branch_keeps

theorem execFlagc_keeps (hfree : msk &&& 3288344345 = 0) (b c u clr rsv1 rsv2 s) (hs :
    was.Keeps msk s) : outKeeps msk was (execFlagc b c u clr rsv1 rsv2 s) := by
  unfold execFlagc
  with_reducible repeat' first
    | assumption | exact free_mono hfree rfl | apply next_keeps | apply fault_keeps | apply State.issue_keeps | apply State.illegal_keeps
    | apply State.done_keeps | apply State.wr_keeps | (intro _; intros; try beta_reduce) | split

theorem execTrsSnapshot_keeps (hfree : msk &&& 3338720397 = 0) (g s) (hs : was.Keeps msk s) : outKeeps msk was (execTrsSnapshot g s) := by
  unfold execTrsSnapshot
  conv => zeta
  with_reducible repeat' first
    | assumption | exact free_mono hfree rfl | apply next_keeps | apply fault_keeps | apply State.joinLate_keeps
    | apply State.modGrp_keeps | apply State.skipRound_keeps | apply State.beginSnap_keeps | apply State.lateStart_keeps
    | refine foldl_keeps _ _ _ (fun _ _ _ => ?_) ?_ | refine foldlFst_keeps _ _ _ (fun _ _ _ => ?_) ?_
    | refine foldlSnd_keeps _ _ _ (fun _ _ _ => ?_) ?_ | refine fst_keeps ?_ (by assumption) | refine snd_keeps ?_ (by assumption) | split

theorem execVrsq_keeps (hfree : msk &&& 3288344345 = 0) (b c vd va _vb _vc p fmt _fn s) (hs :
    was.Keeps msk s) : outKeeps msk was (execVrsq b c vd va _vb _vc p fmt _fn s) := by
  unfold execVrsq
  with_reducible repeat' first
    | assumption | exact free_mono hfree rfl | apply next_keeps | apply fault_keeps | apply ok_keeps | apply State.vecTrans_keeps

theorem execTimeSource_keeps (hfree : msk &&& 3330146303 = 0) (i s) (hs : was.Keeps msk s) : outKeeps msk was (execTimeSource i s) := by
  unfold execTimeSource
  with_reducible repeat' first
    | assumption | exact free_mono hfree rfl | apply next_keeps | apply fault_keeps | apply State.takeAs_keeps
    | apply State.cmdTimeSource_keeps

theorem execFlowIdleExpiry_keeps (hfree : msk &&& 256 = 0) (m tc s) (hs :
    was.Keeps msk s) : outKeeps msk was (execFlowIdleExpiry m tc s) := by
  unfold execFlowIdleExpiry
  conv => zeta
  with_reducible repeat' first
    | assumption | exact free_mono hfree rfl | apply next_keeps | apply fault_keeps | apply State.putTmr_keeps | split

theorem execPerstAssert_keeps (hfree : msk &&& 69271809 = 0) (s) (hs : was.Keeps msk s) : outKeeps msk was (execPerstAssert s) := by
  unfold execPerstAssert
  conv => zeta
  with_reducible repeat' first
    | assumption | exact free_mono hfree rfl | apply next_keeps | apply fault_keeps | apply State.linkReset_keeps
    | apply State.requestReset_keeps | apply State.addCause_keeps | split

theorem execTorg_keeps (hfree : msk &&& 3288344345 = 0) (b c t rs1 imm rsv s) (hs :
    was.Keeps msk s) : outKeeps msk was (execTorg b c t rs1 imm rsv s) := by
  unfold execTorg
  with_reducible repeat' first
    | assumption | exact free_mono hfree rfl | apply next_keeps | apply fault_keeps | apply ok_keeps | apply State.issue_keeps
    | apply State.done_keeps | apply State.setT_keeps | (intro _; intros; try beta_reduce)

theorem execDwlEntryEnd_keeps (hfree : msk &&& 9 = 0) (b s) (hs : was.Keeps msk s) : outKeeps msk was (execDwlEntryEnd b s) := by
  unfold execDwlEntryEnd
  with_reducible repeat' first
    | assumption | exact free_mono hfree rfl | apply next_keeps | apply fault_keeps | apply State.entryEnd_keeps | split

theorem execDeskLeaseGrant_keeps (hfree : msk &&& 9 = 0) (b s) (hs : was.Keeps msk s) : outKeeps msk was (execDeskLeaseGrant b s) := by
  unfold execDeskLeaseGrant
  with_reducible repeat' first | assumption | exact free_mono hfree rfl | apply next_keeps | apply fault_keeps | apply State.arbitrate_keeps

theorem execTimeSet_keeps (hfree : msk &&& 3330146303 = 0) (i s) (hs : was.Keeps msk s) : outKeeps msk was (execTimeSet i s) := by
  unfold execTimeSet
  with_reducible repeat' first
    | assumption | exact free_mono hfree rfl | apply next_keeps | apply fault_keeps | apply State.takeAs_keeps
    | apply State.cmdTimeSet_keeps

theorem execGetDigests_keeps (hfree : msk &&& 2155872256 = 0) (mctp src req s) (hs :
    was.Keeps msk s) : outKeeps msk was (execGetDigests mctp src req s) := by
  unfold execGetDigests
  with_reducible repeat' first
    | assumption | exact free_mono hfree rfl | apply next_keeps | apply fault_keeps | apply State.spdmStep_keeps
    | (intro _; intros; try beta_reduce)

theorem execMoveComplete_keeps (hfree : msk &&& 3321915293 = 0) (b i s) (hs :
    was.Keeps msk s) : outKeeps msk was (execMoveComplete b i s) := by
  unfold execMoveComplete
  with_reducible repeat' first
    | assumption | exact free_mono hfree rfl | apply next_keeps | apply fault_keeps | apply State.moveTry_keeps | split

theorem execHello_keeps (hfree : msk &&& 3221259265 = 0) (p frame s) (hs : was.Keeps msk s) : outKeeps msk was (execHello p frame s) := by
  unfold execHello
  with_reducible repeat' first
    | assumption | exact free_mono hfree rfl | apply next_keeps | apply fault_keeps | apply State.recvControl_keeps

theorem execThreadStopRequest_keeps (hfree : msk &&& 3288344345 = 0) (b t s) (hs :
    was.Keeps msk s) : outKeeps msk was (execThreadStopRequest b t s) := by
  unfold execThreadStopRequest
  with_reducible repeat' first | assumption | exact free_mono hfree rfl | apply next_keeps | apply fault_keeps | apply State.setStop_keeps

theorem execFollowUp_keeps (hfree : msk &&& 2048 = 0) (p m s) (hs : was.Keeps msk s) : outKeeps msk was (execFollowUp p m s) := by
  unfold execFollowUp
  conv => zeta
  with_reducible repeat' first
    | assumption | exact free_mono hfree rfl | apply next_keeps | apply fault_keeps | apply State.setPtp_keeps | split

theorem execThermalRecover_keeps (hfree : msk &&& 4097326443 = 0) (adc xa s) (hs :
    was.Keeps msk s) : outKeeps msk was (execThermalRecover adc xa s) := by
  unfold execThermalRecover
  with_reducible repeat' first
    | assumption | exact free_mono hfree rfl | apply next_keeps | apply fault_keeps | apply State.powerUp_keeps
    | apply State.relieve_keeps | split

theorem execDeskDrainComplete_keeps (hfree : msk &&& 3288344349 = 0) (b d us s) (hs :
    was.Keeps msk s) : outKeeps msk was (execDeskDrainComplete b d us s) := by
  unfold execDeskDrainComplete
  with_reducible repeat' first | assumption | exact free_mono hfree rfl | apply next_keeps | apply fault_keeps | apply State.drainDone_keeps

theorem execTrsSendComplete_keeps (hfree : msk &&& 32769 = 0) (g s) (hs :
    was.Keeps msk s) : outKeeps msk was (execTrsSendComplete g s) := by
  unfold execTrsSendComplete
  conv => zeta
  with_reducible repeat' first
    | assumption | exact free_mono hfree rfl | apply next_keeps | apply fault_keeps | apply State.setFld_keeps | apply State.modGrp_keeps
    | split

theorem execMapShards_keeps (hfree : msk &&& 3322233997 = 0) (i s) (hs : was.Keeps msk s) : outKeeps msk was (execMapShards i s) := by
  unfold execMapShards
  with_reducible repeat' first
    | assumption | exact free_mono hfree rfl | apply next_keeps | apply fault_keeps | apply State.takeAs_keeps
    | apply State.cmdMapShards_keeps

theorem execDwlIdleExpiry_keeps (hfree : msk &&& 67118105 = 0) (b s) (hs : was.Keeps msk s) : outKeeps msk was (execDwlIdleExpiry b s) := by
  unfold execDwlIdleExpiry
  with_reducible repeat' first
    | assumption | exact free_mono hfree rfl | apply next_keeps | apply fault_keeps | apply State.entryStart_keeps | split

theorem execDeskB_keeps (hfree : msk &&& 3288344345 = 0) (b c d sl t rsv s) (hs :
    was.Keeps msk s) : outKeeps msk was (execDeskB b c d sl t rsv s) := by
  unfold execDeskB
  with_reducible repeat' first | assumption | exact free_mono hfree rfl | apply next_keeps | apply fault_keeps | apply State.deskIssue_keeps

theorem execGetCapabilities_keeps (hfree : msk &&& 2155872256 = 0) (mctp src req s) (hs :
    was.Keeps msk s) : outKeeps msk was (execGetCapabilities mctp src req s) := by
  unfold execGetCapabilities
  with_reducible repeat' first
    | assumption | exact free_mono hfree rfl | apply next_keeps | apply fault_keeps | apply State.spdmStep_keeps
    | (intro _; intros; try beta_reduce)

theorem execOr_keeps (hfree : msk &&& 3288344345 = 0) (b c rd rs1 rs2 i imm rsv s) (hs :
    was.Keeps msk s) : outKeeps msk was (execOr b c rd rs1 rs2 i imm rsv s) := by
  unfold execOr
  with_reducible repeat' first
    | assumption | exact free_mono hfree rfl | apply next_keeps | apply fault_keeps | apply ok_keeps | apply State.alu_keeps

theorem execTbyInjCe_keeps (hfree : msk &&& 128 = 0) (t s) (hs : was.Keeps msk s) : outKeeps msk was (execTbyInjCe t s) := by
  unfold execTbyInjCe
  with_reducible repeat' first | assumption | exact free_mono hfree rfl | apply next_keeps | apply fault_keeps | apply State.modStack_keeps

theorem execYield_keeps (hfree : msk &&& 3288344345 = 0) (b c mask rsv s) (hs :
    was.Keeps msk s) : outKeeps msk was (execYield b c mask rsv s) := by
  unfold execYield
  conv => zeta
  with_reducible repeat' first
    | assumption | exact free_mono hfree rfl | apply next_keeps | apply fault_keeps | apply State.issue_keeps | apply State.setCode2_keeps
    | apply State.modBench_keeps | apply State.done_keeps | refine foldl_keeps _ _ _ (fun _ _ _ => ?_) ?_
    | refine foldlFst_keeps _ _ _ (fun _ _ _ => ?_) ?_ | refine foldlSnd_keeps _ _ _ (fun _ _ _ => ?_) ?_
    | (intro _; intros; try beta_reduce) | refine fst_keeps ?_ (by assumption) | refine snd_keeps ?_ (by assumption) | split

theorem execShl_keeps (hfree : msk &&& 3288344345 = 0) (b c rd rs1 rs2 i imm rsv s) (hs :
    was.Keeps msk s) : outKeeps msk was (execShl b c rd rs1 rs2 i imm rsv s) := by
  unfold execShl
  with_reducible repeat' first
    | assumption | exact free_mono hfree rfl | apply next_keeps | apply fault_keeps | apply ok_keeps | apply State.alu_keeps

theorem execRstBootGo_keeps (hfree : msk &&& 1178084591 = 0) (s) (hs : was.Keeps msk s) : outKeeps msk was (execRstBootGo s) := by
  unfold execRstBootGo
  with_reducible repeat' first | assumption | exact free_mono hfree rfl | apply next_keeps | apply fault_keeps | apply State.bootGo_keeps

theorem execSecCert_keeps (hfree : msk &&& 3322233997 = 0) (i s) (hs : was.Keeps msk s) : outKeeps msk was (execSecCert i s) := by
  unfold execSecCert
  with_reducible repeat' first
    | assumption | exact free_mono hfree rfl | apply next_keeps | apply fault_keeps | apply State.takeAs_keeps | apply State.cmdCert_keeps

theorem execTbyInitComplete_keeps (hfree : msk &&& 3321915293 = 0) (t s) (hs :
    was.Keeps msk s) : outKeeps msk was (execTbyInitComplete t s) := by
  unfold execTbyInitComplete
  conv => zeta
  with_reducible repeat' first
    | assumption | exact free_mono hfree rfl | apply next_keeps | apply fault_keeps | apply State.memStore_keeps
    | apply State.memFilter_keeps | apply State.memClear_keeps | apply State.modStack_keeps | apply State.serveHeld_keeps
    | apply State.setFld_keeps | split

theorem execVadd_keeps (hfree : msk &&& 3288344345 = 0) (b c vd va vb vc p fmt _fn s) (hs :
    was.Keeps msk s) : outKeeps msk was (execVadd b c vd va vb vc p fmt _fn s) := by
  unfold execVadd
  with_reducible repeat' first
    | assumption | exact free_mono hfree rfl | apply next_keeps | apply fault_keeps | apply ok_keeps | apply State.vecLanes_keeps

theorem execRem_keeps (hfree : msk &&& 3288344345 = 0) (b c rd rs1 rs2 i imm rsv s) (hs :
    was.Keeps msk s) : outKeeps msk was (execRem b c rd rs1 rs2 i imm rsv s) := by
  unfold execRem
  with_reducible repeat' first
    | assumption | exact free_mono hfree rfl | apply next_keeps | apply fault_keeps | apply ok_keeps | apply State.alu_keeps

theorem execVcvt_keeps (hfree : msk &&& 3288344345 = 0) (b c vd va _vb _vc p fmt fn s) (hs :
    was.Keeps msk s) : outKeeps msk was (execVcvt b c vd va _vb _vc p fmt fn s) := by
  unfold execVcvt
  conv => zeta
  with_reducible repeat' first
    | assumption | exact free_mono hfree rfl | apply next_keeps | apply fault_keeps | apply ok_keeps | apply State.issue_keeps
    | apply State.illegal_keeps | apply State.vecEnd_keeps | apply State.setV_keeps | (intro _; intros; try beta_reduce) | split

theorem execVsel_keeps (hfree : msk &&& 3288344345 = 0) (b c vd va vb vc p fmt _fn s) (hs :
    was.Keeps msk s) : outKeeps msk was (execVsel b c vd va vb vc p fmt _fn s) := by
  unfold execVsel
  conv => zeta
  with_reducible repeat' first
    | assumption | exact free_mono hfree rfl | apply next_keeps | apply fault_keeps | apply ok_keeps | apply State.issue_keeps
    | apply State.illegal_keeps | apply State.done_keeps | apply State.setV_keeps | (intro _; intros; try beta_reduce) | split

theorem execPowerStatus_keeps (hfree : msk &&& 2147811333 = 0) (i s) (hs : was.Keeps msk s) : outKeeps msk was (execPowerStatus i s) := by
  unfold execPowerStatus
  with_reducible repeat' first
    | assumption | exact free_mono hfree rfl | apply next_keeps | apply fault_keeps | apply State.takeAs_keeps
    | apply State.cmdPowerStatus_keeps

theorem execBgeu_keeps (hfree : msk &&& 3288344345 = 0) (b c rs1 rs2 imm rsv s) (hs :
    was.Keeps msk s) : outKeeps msk was (execBgeu b c rs1 rs2 imm rsv s) := by
  unfold execBgeu
  with_reducible repeat' first
    | assumption | exact free_mono hfree rfl | apply next_keeps | apply fault_keeps | apply ok_keeps | apply State.branch_keeps

theorem execModuleInfo_keeps (hfree : msk &&& 2147811333 = 0) (i s) (hs : was.Keeps msk s) : outKeeps msk was (execModuleInfo i s) := by
  unfold execModuleInfo
  with_reducible repeat' first
    | assumption | exact free_mono hfree rfl | apply next_keeps | apply fault_keeps | apply State.takeAs_keeps | apply State.cmdInfo_keeps

theorem execWait_keeps (hfree : msk &&& 3288344345 = 0) (b c rd rs rt consume tmo rsv s) (hs :
    was.Keeps msk s) : outKeeps msk was (execWait b c rd rs rt consume tmo rsv s) := by
  unfold execWait
  conv => zeta
  with_reducible repeat' first
    | assumption | exact free_mono hfree rfl | apply next_keeps | apply fault_keeps | apply State.issue_keeps | apply State.illegal_keeps
    | apply State.block_keeps | apply State.modCtx_keeps | apply State.sendWait_keeps | apply State.doneBlock_keeps
    | (intro _; intros; try beta_reduce) | split

theorem execFwActivate_keeps (hfree : msk &&& 2150432773 = 0) (i s) (hs : was.Keeps msk s) : outKeeps msk was (execFwActivate i s) := by
  unfold execFwActivate
  with_reducible repeat' first
    | assumption | exact free_mono hfree rfl | apply next_keeps | apply fault_keeps | apply State.takeAs_keeps
    | apply State.cmdActivate_keeps

theorem execVsig_keeps (hfree : msk &&& 3288344345 = 0) (b c vd va _vb _vc p fmt _fn s) (hs :
    was.Keeps msk s) : outKeeps msk was (execVsig b c vd va _vb _vc p fmt _fn s) := by
  unfold execVsig
  with_reducible repeat' first
    | assumption | exact free_mono hfree rfl | apply next_keeps | apply fault_keeps | apply ok_keeps | apply State.vecTrans_keeps

theorem execSbdCheckFail_keeps (hfree : msk &&& 67134465 = 0) (t again s) (hs :
    was.Keeps msk s) : outKeeps msk was (execSbdCheckFail t again s) := by
  unfold execSbdCheckFail
  conv => zeta
  with_reducible repeat' first
    | assumption | exact free_mono hfree rfl | apply next_keeps | apply fault_keeps | apply State.incSat_keeps | apply State.hwSet_keeps
    | apply State.modUnit_keeps | apply State.setFld_keeps | apply State.raise_keeps | apply State.health_keeps | split

theorem execJobUnload_keeps (hfree : msk &&& 2147819525 = 0) (i s) (hs : was.Keeps msk s) : outKeeps msk was (execJobUnload i s) := by
  unfold execJobUnload
  with_reducible repeat' first
    | assumption | exact free_mono hfree rfl | apply next_keeps | apply fault_keeps | apply State.takeAs_keeps
    | apply State.cmdUnload_keeps

theorem execMbxAck_keeps (hfree : msk &&& 67108865 = 0) (mask s) (hs : was.Keeps msk s) : outKeeps msk was (execMbxAck mask s) := by
  unfold execMbxAck
  with_reducible repeat' first | assumption | exact free_mono hfree rfl | apply next_keeps | apply fault_keeps | apply State.mbxAck_keeps

theorem execFwStage_keeps (hfree : msk &&& 3322741893 = 0) (i s) (hs : was.Keeps msk s) : outKeeps msk was (execFwStage i s) := by
  unfold execFwStage
  with_reducible repeat' first
    | assumption | exact free_mono hfree rfl | apply next_keeps | apply fault_keeps | apply State.takeAs_keeps
    | apply State.cmdStage_keeps

theorem execTrsEnable_keeps (hfree : msk &&& 1174455437 = 0) (s) (hs : was.Keeps msk s) : outKeeps msk was (execTrsEnable s) := by
  unfold execTrsEnable
  with_reducible repeat' first | assumption | exact free_mono hfree rfl | apply next_keeps | apply fault_keeps | apply State.trsEnable_keeps

theorem execSbdNormResult_keeps (hfree : msk &&& 1174423173 = 0) (s) (hs : was.Keeps msk s) : outKeeps msk was (execSbdNormResult s) := by
  unfold execSbdNormResult
  conv => zeta
  with_reducible repeat' first
    | assumption | exact free_mono hfree rfl | apply next_keeps | apply fault_keeps | apply State.awaitResult_keeps
    | apply State.putSbd_keeps | apply State.memRead_keeps | apply State.showWait_keeps | apply State.putNorm_keeps
    | refine fst_keeps ?_ (by assumption) | refine snd_keeps ?_ (by assumption) | split

theorem execVrcp_keeps (hfree : msk &&& 3288344345 = 0) (b c vd va _vb _vc p fmt _fn s) (hs :
    was.Keeps msk s) : outKeeps msk was (execVrcp b c vd va _vb _vc p fmt _fn s) := by
  unfold execVrcp
  with_reducible repeat' first
    | assumption | exact free_mono hfree rfl | apply next_keeps | apply fault_keeps | apply ok_keeps | apply State.vecTrans_keeps

theorem execRequestRecon_keeps (hfree : msk &&& 3221259265 = 0) (p frame s) (hs :
    was.Keeps msk s) : outKeeps msk was (execRequestRecon p frame s) := by
  unfold execRequestRecon
  with_reducible repeat' first
    | assumption | exact free_mono hfree rfl | apply next_keeps | apply fault_keeps | apply State.recvControl_keeps
    | apply State.serveXfer_keeps | refine fst_keeps ?_ (by assumption) | refine snd_keeps ?_ (by assumption) | split

theorem execTrsApply_keeps (hfree : msk &&& 3338720397 = 0) (g unread s) (hs :
    was.Keeps msk s) : outKeeps msk was (execTrsApply g unread s) := by
  unfold execTrsApply
  conv => zeta
  with_reducible repeat' first
    | assumption | split | exact free_mono hfree rfl | apply next_keeps | apply fault_keeps | apply State.setFld_keeps
    | apply State.lateStart_keeps | apply State.dropXfer_keeps | apply State.reunions_keeps | apply State.dropContrib_keeps
    | apply State.modGrp_keeps | refine foldl_keeps _ _ _ (fun _ _ _ => ?_) ?_ | refine foldlFst_keeps _ _ _ (fun _ _ _ => ?_) ?_
    | refine foldlSnd_keeps _ _ _ (fun _ _ _ => ?_) ?_ | apply halves_keeps | refine fst_keeps ?_ (by assumption)

theorem execVexp2_keeps (hfree : msk &&& 3288344345 = 0) (b c vd va _vb _vc p fmt _fn s) (hs :
    was.Keeps msk s) : outKeeps msk was (execVexp2 b c vd va _vb _vc p fmt _fn s) := by
  unfold execVexp2
  with_reducible repeat' first
    | assumption | exact free_mono hfree rfl | apply next_keeps | apply fault_keeps | apply ok_keeps | apply State.vecTrans_keeps

theorem execVlog2_keeps (hfree : msk &&& 3288344345 = 0) (b c vd va _vb _vc p fmt _fn s) (hs :
    was.Keeps msk s) : outKeeps msk was (execVlog2 b c vd va _vb _vc p fmt _fn s) := by
  unfold execVlog2
  with_reducible repeat' first
    | assumption | exact free_mono hfree rfl | apply next_keeps | apply fault_keeps | apply ok_keeps | apply State.vecTrans_keeps

theorem execSpdmUnsupportedRequest_keeps (hfree : msk &&& 2147483648 = 0) (mctp src s) (hs :
    was.Keeps msk s) : outKeeps msk was (execSpdmUnsupportedRequest mctp src s) := by
  unfold execSpdmUnsupportedRequest
  with_reducible repeat' first
    | assumption | exact free_mono hfree rfl | apply next_keeps | apply fault_keeps | apply State.answerSpdm_keeps | split

theorem execFreqChangeComplete_keeps (hfree : msk &&& 3321919389 = 0) (s) (hs :
    was.Keeps msk s) : outKeeps msk was (execFreqChangeComplete s) := by
  unfold execFreqChangeComplete
  conv => zeta
  with_reducible repeat' first
    | assumption | exact free_mono hfree rfl | apply next_keeps | apply fault_keeps | apply State.setFld_keeps | apply State.setBit_keeps
    | apply State.serveHeld_keeps | apply State.release_keeps | apply State.putClk_keeps | apply State.freqWrite_keeps
    | refine foldl_keeps _ _ _ (fun _ _ _ => ?_) ?_ | refine foldlFst_keeps _ _ _ (fun _ _ _ => ?_) ?_
    | refine foldlSnd_keeps _ _ _ (fun _ _ _ => ?_) ?_ | refine fst_keeps ?_ (by assumption) | refine snd_keeps ?_ (by assumption) | split

theorem execLopenTimeout_keeps (hfree : msk &&& 67118105 = 0) (b t s) (hs :
    was.Keeps msk s) : outKeeps msk was (execLopenTimeout b t s) := by
  unfold execLopenTimeout
  with_reducible repeat' first
    | assumption | exact free_mono hfree rfl | apply next_keeps | apply fault_keeps | apply State.openLost_keeps | split

theorem execDeferPush_keeps (hfree : msk &&& 13 = 0) (b t s) (hs : was.Keeps msk s) : outKeeps msk was (execDeferPush b t s) := by
  unfold execDeferPush
  with_reducible repeat' first
    | assumption | exact free_mono hfree rfl | apply next_keeps | apply fault_keeps | apply State.wake_keeps | apply State.dwlPush_keeps
    | split

theorem execDefer_keeps (hfree : msk &&& 3288344349 = 0) (b c rs rsv s) (hs :
    was.Keeps msk s) : outKeeps msk was (execDefer b c rs rsv s) := by
  unfold execDefer
  conv => zeta
  with_reducible repeat' first
    | assumption | exact free_mono hfree rfl | apply next_keeps | apply fault_keeps | apply State.issue_keeps | apply State.illegal_keeps
    | apply State.doneBlock_keeps | apply State.block_keeps | apply State.done_keeps | apply State.dwlPush_keeps
    | (intro _; intros; try beta_reduce) | split

theorem execClkFreqWrite_keeps (hfree : msk &&& 4097 = 0) (v s) (hs : was.Keeps msk s) : outKeeps msk was (execClkFreqWrite v s) := by
  unfold execClkFreqWrite
  with_reducible repeat' first | assumption | exact free_mono hfree rfl | apply next_keeps | apply fault_keeps | apply State.freqWrite_keeps

theorem execTmrWr_keeps (hfree : msk &&& 3321915293 = 0) (v addr data be s) (hs :
    was.Keeps msk s) : outKeeps msk was (execTmrWr v addr data be s) := by
  unfold execTmrWr
  with_reducible repeat' first
    | assumption | exact free_mono hfree rfl | apply next_keeps | apply fault_keeps | apply State.requestIn_keeps | split

theorem execDeskL_keeps (hfree : msk &&& 3288344345 = 0) (b c mask rsv s) (hs :
    was.Keeps msk s) : outKeeps msk was (execDeskL b c mask rsv s) := by
  unfold execDeskL
  conv => zeta
  with_reducible repeat' first
    | assumption | exact free_mono hfree rfl | apply next_keeps | apply fault_keeps | apply State.issue_keeps | apply State.done_keeps
    | apply State.doneBlock_keeps | apply State.illegal_keeps | apply State.setPc_keeps | (intro _; intros; try beta_reduce) | split

theorem execGtMeasurementTimeout_keeps (hfree : msk &&& 3073 = 0) (s) (hs :
    was.Keeps msk s) : outKeeps msk was (execGtMeasurementTimeout s) := by
  unfold execGtMeasurementTimeout
  conv => zeta
  with_reducible repeat' first
    | assumption | exact free_mono hfree rfl | apply next_keeps | apply fault_keeps | apply State.gtShow_keeps | apply State.putGt_keeps
    | split

theorem execLendStart_keeps (hfree : msk &&& 9 = 0) (b s) (hs : was.Keeps msk s) : outKeeps msk was (execLendStart b s) := by
  unfold execLendStart
  conv => zeta
  with_reducible repeat' first
    | assumption | exact free_mono hfree rfl | apply next_keeps | apply fault_keeps | apply State.setBit_keeps
    | apply State.modBench_keeps | apply State.lendFull_keeps | split

theorem execPpsInEdge_keeps (hfree : msk &&& 1140857857 = 0) (s) (hs : was.Keeps msk s) : outKeeps msk was (execPpsInEdge s) := by
  unfold execPpsInEdge
  conv => zeta
  with_reducible repeat' first
    | assumption | exact free_mono hfree rfl | apply next_keeps | apply fault_keeps | apply State.putGt_keeps | apply State.retrim_keeps
    | apply State.setFld_keeps | apply State.measure_keeps | split

theorem execPldmFwUpdate_keeps (hfree : msk &&& 2158756865 = 0) (src m s) (hs :
    was.Keeps msk s) : outKeeps msk was (execPldmFwUpdate src m s) := by
  unfold execPldmFwUpdate
  with_reducible repeat' first
    | assumption | exact free_mono hfree rfl | apply next_keeps | apply fault_keeps | apply State.pldmUpdate_keeps
    | apply State.answerMctp_keeps | refine fst_keeps ?_ (by assumption) | refine snd_keeps ?_ (by assumption) | split

theorem execLd8_keeps (hfree : msk &&& 3288344345 = 0) (b c rd rs1 imm rsv s) (hs :
    was.Keeps msk s) : outKeeps msk was (execLd8 b c rd rs1 imm rsv s) := by
  unfold execLd8
  with_reducible repeat' first
    | assumption | exact free_mono hfree rfl | apply next_keeps | apply fault_keeps | apply State.scalarLoad_keeps

theorem execLi_keeps (hfree : msk &&& 3288344345 = 0) (b c rd imm rsv s) (hs :
    was.Keeps msk s) : outKeeps msk was (execLi b c rd imm rsv s) := by
  unfold execLi
  with_reducible repeat' first
    | assumption | exact free_mono hfree rfl | apply next_keeps | apply fault_keeps | apply ok_keeps | apply State.issue_keeps
    | apply State.done_keeps | apply State.setS_keeps | (intro _; intros; try beta_reduce)

theorem execTrsRoundBegin_keeps (hfree : msk &&& 32769 = 0) (s) (hs : was.Keeps msk s) : outKeeps msk was (execTrsRoundBegin s) := by
  unfold execTrsRoundBegin
  conv => zeta
  with_reducible repeat' first
    | assumption | exact free_mono hfree rfl | apply next_keeps | apply fault_keeps | apply State.setFld_keeps
    | apply State.showDelay_keeps | apply State.dropDelays_keeps | refine foldl_keeps _ _ _ (fun _ _ _ => ?_) ?_
    | refine foldlFst_keeps _ _ _ (fun _ _ _ => ?_) ?_ | refine foldlSnd_keeps _ _ _ (fun _ _ _ => ?_) ?_
    | refine fst_keeps ?_ (by assumption) | refine snd_keeps ?_ (by assumption) | split

theorem execHutchLockstepMismatch_keeps (hfree : msk &&& 9217 = 0) (p s) (hs :
    was.Keeps msk s) : outKeeps msk was (execHutchLockstepMismatch p s) := by
  unfold execHutchLockstepMismatch
  conv => zeta
  with_reducible repeat' first
    | assumption | exact free_mono hfree rfl | apply next_keeps | apply fault_keeps | apply State.putFlt_keeps | apply State.setFld_keeps
    | apply State.health_keeps | apply State.raise_keeps | split

theorem execSyncResponse_keeps (hfree : msk &&& 3288360729 = 0) (v st a s) (hs :
    was.Keeps msk s) : outKeeps msk was (execSyncResponse v st a s) := by
  unfold execSyncResponse
  with_reducible repeat' first
    | assumption | exact free_mono hfree rfl | apply next_keeps | apply fault_keeps | apply State.syncResponse_keeps

theorem execVst_keeps (hfree : msk &&& 3288344349 = 0) (b c vd x s) (hs :
    was.Keeps msk s) : outKeeps msk was (execVst b c vd x s) := by
  unfold execVst
  with_reducible repeat' first
    | assumption | exact free_mono hfree rfl | apply next_keeps | apply fault_keeps | apply ok_keeps | apply State.vecMem_keeps
    | apply State.done_keeps | apply State.shelfWrite_keeps | refine foldl_keeps _ _ _ (fun _ _ _ => ?_) ?_
    | refine foldlFst_keeps _ _ _ (fun _ _ _ => ?_) ?_ | refine foldlSnd_keeps _ _ _ (fun _ _ _ => ?_) ?_
    | (intro _; intros; try beta_reduce) | refine fst_keeps ?_ (by assumption) | refine snd_keeps ?_ (by assumption)

theorem execDwlEntryStart_keeps (hfree : msk &&& 67118105 = 0) (b s) (hs : was.Keeps msk s) : outKeeps msk was (execDwlEntryStart b s) := by
  unfold execDwlEntryStart
  with_reducible repeat' first | assumption | exact free_mono hfree rfl | apply next_keeps | apply fault_keeps | apply State.entryTry_keeps

theorem execModuleReset_keeps (hfree : msk &&& 2149908485 = 0) (i s) (hs : was.Keeps msk s) : outKeeps msk was (execModuleReset i s) := by
  unfold execModuleReset
  with_reducible repeat' first
    | assumption | exact free_mono hfree rfl | apply next_keeps | apply fault_keeps | apply State.takeAs_keeps
    | apply State.cmdReset_keeps

theorem execTrsHelloTimer_keeps (hfree : msk &&& 3221259265 = 0) (s) (hs : was.Keeps msk s) : outKeeps msk was (execTrsHelloTimer s) := by
  unfold execTrsHelloTimer
  conv => zeta
  with_reducible repeat' first
    | assumption | exact free_mono hfree rfl | apply next_keeps | apply fault_keeps | apply State.putTrs_keeps
    | apply State.sendHello_keeps | apply State.sendLineage_keeps | apply State.askJoin_keeps
    | refine foldl_keeps _ _ _ (fun _ _ _ => ?_) ?_ | refine foldlFst_keeps _ _ _ (fun _ _ _ => ?_) ?_
    | refine foldlSnd_keeps _ _ _ (fun _ _ _ => ?_) ?_ | refine fst_keeps ?_ (by assumption) | refine snd_keeps ?_ (by assumption) | split

theorem execNotifyResultExpiry_keeps (hfree : msk &&& 512 = 0) (r who s) (hs :
    was.Keeps msk s) : outKeeps msk was (execNotifyResultExpiry r who s) := by
  unfold execNotifyResultExpiry
  conv => zeta
  with_reducible repeat' first | assumption | exact free_mono hfree rfl | apply next_keeps | apply fault_keeps | apply State.putSync_keeps

theorem execTmrQuotaWrite_keeps (hfree : msk &&& 3221225737 = 0) (tc q s) (hs :
    was.Keeps msk s) : outKeeps msk was (execTmrQuotaWrite tc q s) := by
  unfold execTmrQuotaWrite
  with_reducible repeat' first
    | assumption | exact free_mono hfree rfl | apply next_keeps | apply fault_keeps | apply State.quotaWrite_keeps

theorem execWaitQuotaTimeout_keeps (hfree : msk &&& 67118361 = 0) (b t s) (hs :
    was.Keeps msk s) : outKeeps msk was (execWaitQuotaTimeout b t s) := by
  unfold execWaitQuotaTimeout
  conv => zeta
  with_reducible repeat' first
    | assumption | exact free_mono hfree rfl | apply next_keeps | apply fault_keeps | apply State.putTmr_keeps
    | apply State.waitFailed_keeps | apply State.syncEvent_keeps | split

theorem execDeskInjDrawerCe_keeps (hfree : msk &&& 16 = 0) (b d s) (hs :
    was.Keeps msk s) : outKeeps msk was (execDeskInjDrawerCe b d s) := by
  unfold execDeskInjDrawerCe
  with_reducible repeat' first
    | assumption | exact free_mono hfree rfl | apply next_keeps | apply fault_keeps | apply State.deskInject_keeps

theorem execVsqrt_keeps (hfree : msk &&& 3288344345 = 0) (b c vd va vb vc p fmt _fn s) (hs :
    was.Keeps msk s) : outKeeps msk was (execVsqrt b c vd va vb vc p fmt _fn s) := by
  unfold execVsqrt
  with_reducible repeat' first
    | assumption | exact free_mono hfree rfl | apply next_keeps | apply fault_keeps | apply ok_keeps | apply State.vecLanes_keeps

theorem execNumElog_keeps (hfree : msk &&& 3330146303 = 0) (i s) (hs : was.Keeps msk s) : outKeeps msk was (execNumElog i s) := by
  unfold execNumElog
  with_reducible repeat' first
    | assumption | exact free_mono hfree rfl | apply next_keeps | apply fault_keeps | apply State.takeAs_keeps
    | apply State.cmdNumElog_keeps

theorem execMul_keeps (hfree : msk &&& 3288344345 = 0) (b c rd rs1 rs2 i imm rsv s) (hs :
    was.Keeps msk s) : outKeeps msk was (execMul b c rd rs1 rs2 i imm rsv s) := by
  unfold execMul
  with_reducible repeat' first
    | assumption | exact free_mono hfree rfl | apply next_keeps | apply fault_keeps | apply ok_keeps | apply State.alu_keeps

theorem execWaitDeadlineExpiry_keeps (hfree : msk &&& 3288352521 = 0) (r who s) (hs :
    was.Keeps msk s) : outKeeps msk was (execWaitDeadlineExpiry r who s) := by
  unfold execWaitDeadlineExpiry
  with_reducible repeat' first
    | assumption | exact free_mono hfree rfl | apply next_keeps | apply fault_keeps | apply State.notify_keeps
    | apply State.putWaiters_keeps | split

theorem execDeskDrainStart_keeps (hfree : msk &&& 3288344345 = 0) (b d s) (hs :
    was.Keeps msk s) : outKeeps msk was (execDeskDrainStart b d s) := by
  unfold execDeskDrainStart
  with_reducible repeat' first
    | assumption | exact free_mono hfree rfl | apply next_keeps | apply fault_keeps | apply State.drainStart_keeps

theorem execTbyRemapComplete_keeps (hfree : msk &&& 1140860037 = 0) (t s) (hs :
    was.Keeps msk s) : outKeeps msk was (execTbyRemapComplete t s) := by
  unfold execTbyRemapComplete
  conv => zeta
  with_reducible repeat' first
    | assumption | exact free_mono hfree rfl | apply next_keeps | apply fault_keeps | apply State.copyReads_keeps
    | apply State.setFld_keeps | apply State.modStack_keeps | apply State.health_keeps | apply State.reserveCheck_keeps
    | apply State.tbyEvent_keeps | apply State.showSpared_keeps | split

theorem execTakeoverWaitExpiry_keeps (hfree : msk &&& 8 = 0) (b s) (hs :
    was.Keeps msk s) : outKeeps msk was (execTakeoverWaitExpiry b s) := by
  unfold execTakeoverWaitExpiry
  conv => zeta
  with_reducible repeat' first
    | assumption | exact free_mono hfree rfl | apply next_keeps | apply fault_keeps | apply State.modBench_keeps | split

theorem execShr_keeps (hfree : msk &&& 3288344345 = 0) (b c rd rs1 rs2 i imm rsv s) (hs :
    was.Keeps msk s) : outKeeps msk was (execShr b c rd rs1 rs2 i imm rsv s) := by
  unfold execShr
  with_reducible repeat' first
    | assumption | exact free_mono hfree rfl | apply next_keeps | apply fault_keeps | apply ok_keeps | apply State.alu_keeps

theorem execDiv_keeps (hfree : msk &&& 3288344345 = 0) (b c rd rs1 rs2 i imm rsv s) (hs :
    was.Keeps msk s) : outKeeps msk was (execDiv b c rd rs1 rs2 i imm rsv s) := by
  unfold execDiv
  with_reducible repeat' first
    | assumption | exact free_mono hfree rfl | apply next_keeps | apply fault_keeps | apply ok_keeps | apply State.alu_keeps

theorem execEventAccept_keeps (hfree : msk &&& 3322496141 = 0) (n s) (hs : was.Keeps msk s) : outKeeps msk was (execEventAccept n s) := by
  unfold execEventAccept
  conv => zeta
  with_reducible repeat' first
    | assumption | exact free_mono hfree rfl | apply next_keeps | apply fault_keeps | apply State.writeRecords_keeps
    | apply State.accept_keeps | apply State.putEvt_keeps | split

theorem execPortDisable_keeps (hfree : msk &&& 3221241089 = 0) (p s) (hs : was.Keeps msk s) : outKeeps msk was (execPortDisable p s) := by
  unfold execPortDisable
  with_reducible repeat' first
    | assumption | exact free_mono hfree rfl | apply next_keeps | apply fault_keeps | apply State.portDisable_keeps

theorem execAdelta_keeps (hfree : msk &&& 3321939085 = 0) (p frame s) (hs : was.Keeps msk s) : outKeeps msk was (execAdelta p frame s) := by
  unfold execAdelta
  conv => zeta
  with_reducible repeat' first
    | assumption | exact free_mono hfree rfl | apply next_keeps | apply fault_keeps | apply State.recvControl_keeps
    | apply State.memRead_keeps | apply State.putTrs_keeps | apply State.joinCheck_keeps | refine fst_keeps ?_ (by assumption)
    | refine snd_keeps ?_ (by assumption) | split

theorem execPwrCapWrite_keeps (hfree : msk &&& 4194305 = 0) (v s) (hs : was.Keeps msk s) : outKeeps msk was (execPwrCapWrite v s) := by
  unfold execPwrCapWrite
  with_reducible repeat' first | assumption | exact free_mono hfree rfl | apply next_keeps | apply fault_keeps | apply State.capWrite_keeps

theorem execMbxSubmit_keeps (hfree : msk &&& 67371009 = 0) (mask s) (hs : was.Keeps msk s) : outKeeps msk was (execMbxSubmit mask s) := by
  unfold execMbxSubmit
  with_reducible repeat' first | assumption | exact free_mono hfree rfl | apply next_keeps | apply fault_keeps | apply State.mbxSubmit_keeps

theorem execTrsDisable_keeps (hfree : msk &&& 32769 = 0) (s) (hs : was.Keeps msk s) : outKeeps msk was (execTrsDisable s) := by
  unfold execTrsDisable
  with_reducible repeat' first
    | assumption | exact free_mono hfree rfl | apply next_keeps | apply fault_keeps | apply State.trsDisable_keeps

theorem execDeskDRaw_keeps (hfree : msk &&& 3288344345 = 0) (b c d set j n t rsv s) (hs :
    was.Keeps msk s) : outKeeps msk was (execDeskDRaw b c d set j n t rsv s) := by
  unfold execDeskDRaw
  with_reducible repeat' first | assumption | exact free_mono hfree rfl | apply next_keeps | apply fault_keeps | apply State.deskIssue_keeps

theorem execModuleStatus_keeps (hfree : msk &&& 2147811333 = 0) (i s) (hs : was.Keeps msk s) : outKeeps msk was (execModuleStatus i s) := by
  unfold execModuleStatus
  with_reducible repeat' first
    | assumption | exact free_mono hfree rfl | apply next_keeps | apply fault_keeps | apply State.takeAs_keeps
    | apply State.cmdStatus_keeps

theorem execTbyQosWrite_keeps (hfree : msk &&& 1 = 0) (t v s) (hs : was.Keeps msk s) : outKeeps msk was (execTbyQosWrite t v s) := by
  unfold execTbyQosWrite
  with_reducible repeat' first | assumption | exact free_mono hfree rfl | apply next_keeps | apply fault_keeps | apply State.wr_keeps

theorem execVlog_keeps (hfree : msk &&& 3288344345 = 0) (b c vd va _vb _vc p fmt _fn s) (hs :
    was.Keeps msk s) : outKeeps msk was (execVlog b c vd va _vb _vc p fmt _fn s) := by
  unfold execVlog
  with_reducible repeat' first
    | assumption | exact free_mono hfree rfl | apply next_keeps | apply fault_keeps | apply ok_keeps | apply State.vecTrans_keeps

theorem execTbyAccess_keeps (hfree : msk &&& 3288352133 = 0) (cls ia n wr flips s) (hs :
    was.Keeps msk s) : outKeeps msk was (execTbyAccess cls ia n wr flips s) := by
  unfold execTbyAccess
  conv => zeta
  with_reducible repeat' first
    | assumption | exact free_mono hfree rfl | apply next_keeps | apply fault_keeps | apply State.strike_keeps | apply State.putTmr_keeps
    | apply State.tbyServe_keeps | split

theorem execVmul_keeps (hfree : msk &&& 3288344345 = 0) (b c vd va vb vc p fmt _fn s) (hs :
    was.Keeps msk s) : outKeeps msk was (execVmul b c vd va vb vc p fmt _fn s) := by
  unfold execVmul
  with_reducible repeat' first
    | assumption | exact free_mono hfree rfl | apply next_keeps | apply fault_keeps | apply ok_keeps | apply State.vecLanes_keeps

theorem execTbyStageWrite_keeps (hfree : msk &&& 67109889 = 0) (x s) (hs : was.Keeps msk s) : outKeeps msk was (execTbyStageWrite x s) := by
  unfold execTbyStageWrite
  with_reducible repeat' first
    | assumption | exact free_mono hfree rfl | apply next_keeps | apply fault_keeps | apply State.stageClaim_keeps

theorem execLcommitOutcome_keeps (hfree : msk &&& 3221227273 = 0) (v i who o s) (hs :
    was.Keeps msk s) : outKeeps msk was (execLcommitOutcome v i who o s) := by
  unfold execLcommitOutcome
  conv => zeta
  with_reducible repeat' first
    | assumption | exact free_mono hfree rfl | apply next_keeps | apply fault_keeps | apply State.commitOutcome_keeps
    | apply State.putSync_keeps | apply State.atHome_keeps | (intro _; intros; try beta_reduce) | split

theorem execBfp_keeps (hfree : msk &&& 3221259265 = 0) (p frame s) (hs : was.Keeps msk s) : outKeeps msk was (execBfp p frame s) := by
  unfold execBfp
  conv => zeta
  with_reducible repeat' first
    | assumption | exact free_mono hfree rfl | apply next_keeps | apply fault_keeps | apply State.recvControl_keeps
    | apply State.listBlocks_keeps | refine fst_keeps ?_ (by assumption) | refine snd_keeps ?_ (by assumption) | split

theorem execBusbarVoltageRecover_keeps (hfree : msk &&& 4097326443 = 0) (adc xa s) (hs :
    was.Keeps msk s) : outKeeps msk was (execBusbarVoltageRecover adc xa s) := by
  unfold execBusbarVoltageRecover
  with_reducible repeat' first
    | assumption | exact free_mono hfree rfl | apply next_keeps | apply fault_keeps | apply State.powerUp_keeps
    | apply State.relieve_keeps | split

theorem execDeskDiscardEffect_keeps (hfree : msk &&& 3288344345 = 0) (b d s) (hs :
    was.Keeps msk s) : outKeeps msk was (execDeskDiscardEffect b d s) := by
  unfold execDeskDiscardEffect
  with_reducible repeat' first
    | assumption | exact free_mono hfree rfl | apply next_keeps | apply fault_keeps | apply State.discardNow_keeps

theorem execGetCertificate_keeps (hfree : msk &&& 2155872256 = 0) (mctp src slot off n req s) (hs :
    was.Keeps msk s) : outKeeps msk was (execGetCertificate mctp src slot off n req s) := by
  unfold execGetCertificate
  conv => zeta
  with_reducible repeat' first
    | assumption | exact free_mono hfree rfl | apply next_keeps | apply fault_keeps | apply State.spdmStep_keeps
    | (intro _; intros; try beta_reduce) | split

theorem execRequestRepair_keeps (hfree : msk &&& 3221259265 = 0) (p frame s) (hs :
    was.Keeps msk s) : outKeeps msk was (execRequestRepair p frame s) := by
  unfold execRequestRepair
  with_reducible repeat' first
    | assumption | exact free_mono hfree rfl | apply next_keeps | apply fault_keeps | apply State.recvControl_keeps
    | apply State.serveXfer_keeps | refine fst_keeps ?_ (by assumption) | refine snd_keeps ?_ (by assumption) | split

theorem execDeskDMerge_keeps (hfree : msk &&& 3288344345 = 0) (b c d set j n t rsv s) (hs :
    was.Keeps msk s) : outKeeps msk was (execDeskDMerge b c d set j n t rsv s) := by
  unfold execDeskDMerge
  with_reducible repeat' first | assumption | exact free_mono hfree rfl | apply next_keeps | apply fault_keeps | apply State.deskIssue_keeps

theorem execDeskA_keeps (hfree : msk &&& 3288344345 = 0) (b c mask sl set j n kp t rsv s) (hs :
    was.Keeps msk s) : outKeeps msk was (execDeskA b c mask sl set j n kp t rsv s) := by
  unfold execDeskA
  with_reducible repeat' first | assumption | exact free_mono hfree rfl | apply next_keeps | apply fault_keeps | apply State.deskIssue_keeps

theorem execExpInjShort_keeps (hfree : msk &&& 8 = 0) (b s) (hs : was.Keeps msk s) : outKeeps msk was (execExpInjShort b s) := by
  unfold execExpInjShort
  with_reducible repeat' first | assumption | exact free_mono hfree rfl | apply next_keeps | apply fault_keeps | apply State.modBench_keeps

theorem execPresentNBreak_keeps (hfree : msk &&& 4294967295 = 0) (s) (hs : was.Keeps msk s) : outKeeps msk was (execPresentNBreak s) := by
  unfold execPresentNBreak
  with_reducible repeat' first | assumption | exact free_mono hfree rfl | apply next_keeps | apply fault_keeps | apply State.powerOff_keeps

theorem execFlitReceive_keeps (hfree : msk &&& 3221241089 = 0) (p mine good n s) (hs :
    was.Keeps msk s) : outKeeps msk was (execFlitReceive p mine good n s) := by
  unfold execFlitReceive
  conv => zeta
  with_reducible repeat' first
    | assumption | exact free_mono hfree rfl | apply next_keeps | apply fault_keeps | apply State.putTmr_keeps | apply State.incSat_keeps
    | apply State.incWrap_keeps | apply State.retrain_keeps | split

theorem execLogErrcopy_keeps (hfree : msk &&& 3322233997 = 0) (i s) (hs : was.Keeps msk s) : outKeeps msk was (execLogErrcopy i s) := by
  unfold execLogErrcopy
  with_reducible repeat' first
    | assumption | exact free_mono hfree rfl | apply next_keeps | apply fault_keeps | apply State.takeAs_keeps
    | apply State.cmdErrcopy_keeps

theorem execPpsSeenExpiry_keeps (hfree : msk &&& 1073745921 = 0) (s) (hs : was.Keeps msk s) : outKeeps msk was (execPpsSeenExpiry s) := by
  unfold execPpsSeenExpiry
  with_reducible repeat' first
    | assumption | exact free_mono hfree rfl | apply next_keeps | apply fault_keeps | apply State.retrim_keeps | apply State.setFld_keeps
    | split

theorem execTrsPipelineCheckFail_keeps (hfree : msk &&& 41985 = 0) (p again s) (hs :
    was.Keeps msk s) : outKeeps msk was (execTrsPipelineCheckFail p again s) := by
  unfold execTrsPipelineCheckFail
  conv => zeta
  with_reducible repeat' first
    | assumption | exact free_mono hfree rfl | apply next_keeps | apply fault_keeps | apply State.putTrs_keeps | apply State.putFlt_keeps
    | apply State.health_keeps | apply State.raise_keeps | split

theorem execCounterWait_keeps (hfree : msk &&& 3221227265 = 0) (v i who threshold consume tmo s) (hs :
    was.Keeps msk s) : outKeeps msk was (execCounterWait v i who threshold consume tmo s) := by
  unfold execCounterWait
  with_reducible repeat' first
    | assumption | exact free_mono hfree rfl | apply next_keeps | apply fault_keeps | apply State.atHome_keeps | apply State.waitAt_keeps
    | (intro _; intros; try beta_reduce)

theorem execStop_keeps (hfree : msk &&& 3288344345 = 0) (b c rsv s) (hs : was.Keeps msk s) : outKeeps msk was (execStop b c rsv s) := by
  unfold execStop
  with_reducible repeat' first
    | assumption | exact free_mono hfree rfl | apply next_keeps | apply fault_keeps | apply State.issue_keeps | apply State.stopNow_keeps
    | apply State.done_keeps | (intro _; intros; try beta_reduce)

theorem execTakeoverStart_keeps (hfree : msk &&& 9225 = 0) (b s) (hs : was.Keeps msk s) : outKeeps msk was (execTakeoverStart b s) := by
  unfold execTakeoverStart
  conv => zeta
  with_reducible repeat' first
    | assumption | exact free_mono hfree rfl | apply next_keeps | apply fault_keeps | apply State.takeStart_keeps | split

theorem execTmrWrc_keeps (hfree : msk &&& 3288360729 = 0) (v st s) (hs : was.Keeps msk s) : outKeeps msk was (execTmrWrc v st s) := by
  unfold execTmrWrc
  with_reducible repeat' first
    | assumption | exact free_mono hfree rfl | apply next_keeps | apply fault_keeps | apply State.completionIn_keeps

theorem execTrsClose_keeps (hfree : msk &&& 3221263361 = 0) (g s) (hs : was.Keeps msk s) : outKeeps msk was (execTrsClose g s) := by
  unfold execTrsClose
  conv => zeta
  with_reducible repeat' first
    | assumption | exact free_mono hfree rfl | apply next_keeps | apply fault_keeps | apply State.calMark_keeps
    | apply State.lateStart_keeps | apply State.putTrs_keeps | apply State.reconcile_keeps | apply State.decideVotes_keeps
    | apply State.modGrp_keeps | split

theorem execTrsFprintReceive_keeps (hfree : msk &&& 3221259265 = 0) (p frame s) (hs :
    was.Keeps msk s) : outKeeps msk was (execTrsFprintReceive p frame s) := by
  unfold execTrsFprintReceive
  conv => zeta
  with_reducible repeat' first
    | assumption | exact free_mono hfree rfl | apply next_keeps | apply fault_keeps | apply State.recvFrame_keeps
    | apply State.putTrs_keeps | apply State.trsEvent_keeps | refine fst_keeps ?_ (by assumption) | refine snd_keeps ?_ (by assumption)
    | split

theorem execTld_keeps (hfree : msk &&& 3288344345 = 0) (b c t rs1 rsv s) (hs :
    was.Keeps msk s) : outKeeps msk was (execTld b c t rs1 rsv s) := by
  unfold execTld
  conv => zeta
  with_reducible repeat' first
    | assumption | exact free_mono hfree rfl | apply next_keeps | apply fault_keeps | apply ok_keeps | apply State.issue_keeps
    | apply State.illegal_keeps | apply State.block_keeps | apply State.done_keeps | apply State.setT_keeps
    | (intro _; intros; try beta_reduce) | split

theorem execLinkLost_keeps (hfree : msk &&& 3221241089 = 0) (p s) (hs : was.Keeps msk s) : outKeeps msk was (execLinkLost p s) := by
  unfold execLinkLost
  with_reducible repeat' first
    | assumption | exact free_mono hfree rfl | apply next_keeps | apply fault_keeps | apply State.portDown_keeps | split

theorem execVcmp_keeps (hfree : msk &&& 3288344345 = 0) (b c _vd va vb _vc p fmt fn s) (hs :
    was.Keeps msk s) : outKeeps msk was (execVcmp b c _vd va vb _vc p fmt fn s) := by
  unfold execVcmp
  conv => zeta
  with_reducible repeat' first
    | assumption | exact free_mono hfree rfl | apply next_keeps | apply fault_keeps | apply ok_keeps | apply State.issue_keeps
    | apply State.illegal_keeps | apply State.vecEnd_keeps | apply State.setP_keeps | (intro _; intros; try beta_reduce) | split

theorem execLcommitArrivalSend_keeps (hfree : msk &&& 3288336137 = 0) (b t s) (hs :
    was.Keeps msk s) : outKeeps msk was (execLcommitArrivalSend b t s) := by
  unfold execLcommitArrivalSend
  with_reducible repeat' first
    | assumption | exact free_mono hfree rfl | apply next_keeps | apply fault_keeps | apply State.sendArrival_keeps | split

theorem execGetSensorReading_keeps (hfree : msk &&& 2147483648 = 0) (src sensor v s) (hs :
    was.Keeps msk s) : outKeeps msk was (execGetSensorReading src sensor v s) := by
  unfold execGetSensorReading
  with_reducible repeat' first
    | assumption | exact free_mono hfree rfl | apply next_keeps | apply fault_keeps | apply State.answerMctp_keeps | split

theorem execJobLoad_keeps (hfree : msk &&& 3330146303 = 0) (i s) (hs : was.Keeps msk s) : outKeeps msk was (execJobLoad i s) := by
  unfold execJobLoad
  with_reducible repeat' first
    | assumption | exact free_mono hfree rfl | apply next_keeps | apply fault_keeps | apply State.takeAs_keeps | apply State.cmdLoad_keeps

theorem execDeskPassStart_keeps (hfree : msk &&& 3288344345 = 0) (b d s) (hs :
    was.Keeps msk s) : outKeeps msk was (execDeskPassStart b d s) := by
  unfold execDeskPassStart
  with_reducible repeat' first | assumption | exact free_mono hfree rfl | apply next_keeps | apply fault_keeps | apply State.passStart_keeps

theorem execHotswapRetry_keeps (hfree : msk &&& 4097326443 = 0) (adc xa s) (hs :
    was.Keeps msk s) : outKeeps msk was (execHotswapRetry adc xa s) := by
  unfold execHotswapRetry
  conv => zeta
  with_reducible repeat' first
    | assumption | exact free_mono hfree rfl | apply next_keeps | apply fault_keeps | apply State.powerUp_keeps
    | apply State.relieve_keeps | apply State.putRst_keeps | split

theorem execIcacheFillComplete_keeps (hfree : msk &&& 1174406285 = 0) (b line s) (hs :
    was.Keeps msk s) : outKeeps msk was (execIcacheFillComplete b line s) := by
  unfold execIcacheFillComplete
  conv => zeta
  with_reducible repeat' first
    | assumption | exact free_mono hfree rfl | apply next_keeps | apply fault_keeps | apply State.memRead_keeps
    | apply State.cacheFill_keeps | refine fst_keeps ?_ (by assumption) | refine snd_keeps ?_ (by assumption) | split

theorem execPortTrainComplete_keeps (hfree : msk &&& 3221241089 = 0) (p good peer s) (hs :
    was.Keeps msk s) : outKeeps msk was (execPortTrainComplete p good peer s) := by
  unfold execPortTrainComplete
  conv => zeta
  with_reducible repeat' first
    | assumption | exact free_mono hfree rfl | apply next_keeps | apply fault_keeps | apply State.setFld_keeps
    | apply State.portEnter_keeps | split

theorem execAdd_keeps (hfree : msk &&& 3288344345 = 0) (b c rd rs1 rs2 i imm rsv s) (hs :
    was.Keeps msk s) : outKeeps msk was (execAdd b c rd rs1 rs2 i imm rsv s) := by
  unfold execAdd
  with_reducible repeat' first
    | assumption | exact free_mono hfree rfl | apply next_keeps | apply fault_keeps | apply ok_keeps | apply State.alu_keeps

theorem execSlt_keeps (hfree : msk &&& 3288344345 = 0) (b c rd rs1 rs2 i imm rsv s) (hs :
    was.Keeps msk s) : outKeeps msk was (execSlt b c rd rs1 rs2 i imm rsv s) := by
  unfold execSlt
  with_reducible repeat' first
    | assumption | exact free_mono hfree rfl | apply next_keeps | apply fault_keeps | apply ok_keeps | apply State.alu_keeps

theorem execVsub_keeps (hfree : msk &&& 3288344345 = 0) (b c vd va vb vc p fmt _fn s) (hs :
    was.Keeps msk s) : outKeeps msk was (execVsub b c vd va vb vc p fmt _fn s) := by
  unfold execVsub
  with_reducible repeat' first
    | assumption | exact free_mono hfree rfl | apply next_keeps | apply fault_keeps | apply ok_keeps | apply State.vecLanes_keeps

theorem execSignaling_keeps (hfree : msk &&& 2048 = 0) (p m s) (hs : was.Keeps msk s) : outKeeps msk was (execSignaling p m s) := by
  unfold execSignaling
  conv => zeta
  with_reducible repeat' first
    | assumption | exact free_mono hfree rfl | apply next_keeps | apply fault_keeps | apply State.setPtp_keeps | split

theorem execCalMarkClaim_keeps (hfree : msk &&& 2214597633 = 0) (en s) (hs :
    was.Keeps msk s) : outKeeps msk was (execCalMarkClaim en s) := by
  unfold execCalMarkClaim
  with_reducible repeat' first | assumption | exact free_mono hfree rfl | apply next_keeps | apply fault_keeps | apply State.markClaim_keeps

theorem execRequestJoin_keeps (hfree : msk &&& 3221259265 = 0) (p frame s) (hs :
    was.Keeps msk s) : outKeeps msk was (execRequestJoin p frame s) := by
  unfold execRequestJoin
  with_reducible repeat' first
    | assumption | exact free_mono hfree rfl | apply next_keeps | apply fault_keeps | apply State.recvControl_keeps
    | apply State.modPart_keeps | refine fst_keeps ?_ (by assumption) | refine snd_keeps ?_ (by assumption) | split

theorem execCounterSignal_keeps (hfree : msk &&& 3288352521 = 0) (v i who inc s) (hs :
    was.Keeps msk s) : outKeeps msk was (execCounterSignal v i who inc s) := by
  unfold execCounterSignal
  with_reducible repeat' first
    | assumption | exact free_mono hfree rfl | apply next_keeps | apply fault_keeps | apply State.atHome_keeps
    | apply State.signalAt_keeps | (intro _; intros; try beta_reduce)

theorem execRequestBlist_keeps (hfree : msk &&& 3321922693 = 0) (p frame s) (hs :
    was.Keeps msk s) : outKeeps msk was (execRequestBlist p frame s) := by
  unfold execRequestBlist
  conv => zeta
  with_reducible repeat' first
    | assumption | exact free_mono hfree rfl | apply next_keeps | apply fault_keeps | apply State.recvControl_keeps
    | apply State.sendEnd_keeps | apply State.sendDeltas_keeps | refine fst_keeps ?_ (by assumption) | refine snd_keeps ?_ (by assumption)
    | split

theorem execSbdUpdateStart_keeps (hfree : msk &&& 3321915277 = 0) (l s) (hs :
    was.Keeps msk s) : outKeeps msk was (execSbdUpdateStart l s) := by
  unfold execSbdUpdateStart
  conv => zeta
  with_reducible repeat' first
    | assumption | exact free_mono hfree rfl | apply next_keeps | apply fault_keeps | apply State.readDesc_keeps
    | apply State.endStep_keeps | apply Upd.clear_keeps | apply State.stepRec_keeps | apply State.modSlot_keeps
    | apply State.modUnit_keeps | apply State.update_keeps | apply State.showSbd_keeps | apply State.putSbd_keeps
    | refine foldl_keeps _ _ _ (fun _ _ _ => ?_) ?_ | refine foldlFst_keeps _ _ _ (fun _ _ _ => ?_) ?_
    | refine foldlSnd_keeps _ _ _ (fun _ _ _ => ?_) ?_ | refine foldlUpd_keeps _ _ _ (fun _ _ _ => ?_) ?_
    | refine foldlUpdFst_keeps _ _ _ (fun _ _ _ => ?_) ?_ | refine fst_keeps ?_ (by assumption) | refine snd_keeps ?_ (by assumption)
    | refine updFst_keeps ?_ (by assumption) | split

theorem execCommandComplete_keeps (hfree : msk &&& 263169 = 0) (op s) (hs :
    was.Keeps msk s) : outKeeps msk was (execCommandComplete op s) := by
  unfold execCommandComplete
  conv => zeta
  with_reducible repeat' first
    | assumption | exact free_mono hfree rfl | apply next_keeps | apply fault_keeps | apply State.putHut_keeps | apply State.holdFw_keeps
    | apply State.raise_keeps | split

theorem execPtpMessageTimer_keeps (hfree : msk &&& 2147485696 = 0) (p kind s) (hs :
    was.Keeps msk s) : outKeeps msk was (execPtpMessageTimer p kind s) := by
  unfold execPtpMessageTimer
  conv => zeta
  with_reducible repeat' first
    | assumption | exact free_mono hfree rfl | apply next_keeps | apply fault_keeps | apply State.ptpSend_keeps | apply State.setPtp_keeps
    | split

theorem execDeskInjResidue_keeps (hfree : msk &&& 16 = 0) (b d s) (hs : was.Keeps msk s) : outKeeps msk was (execDeskInjResidue b d s) := by
  unfold execDeskInjResidue
  with_reducible repeat' first
    | assumption | exact free_mono hfree rfl | apply next_keeps | apply fault_keeps | apply State.deskInject_keeps

theorem execLendHalfRateEnd_keeps (hfree : msk &&& 9 = 0) (b s) (hs : was.Keeps msk s) : outKeeps msk was (execLendHalfRateEnd b s) := by
  unfold execLendHalfRateEnd
  with_reducible repeat' first
    | assumption | exact free_mono hfree rfl | apply next_keeps | apply fault_keeps | apply State.lendFull_keeps | split

theorem execVtanh_keeps (hfree : msk &&& 3288344345 = 0) (b c vd va _vb _vc p fmt _fn s) (hs :
    was.Keeps msk s) : outKeeps msk was (execVtanh b c vd va _vb _vc p fmt _fn s) := by
  unfold execVtanh
  with_reducible repeat' first
    | assumption | exact free_mono hfree rfl | apply next_keeps | apply fault_keeps | apply ok_keeps | apply State.vecTrans_keeps

theorem execTbyScrubRead_keeps (hfree : msk &&& 1140851845 = 0) (t flips s) (hs :
    was.Keeps msk s) : outKeeps msk was (execTbyScrubRead t flips s) := by
  unfold execTbyScrubRead
  conv => zeta
  with_reducible repeat' first
    | assumption | exact free_mono hfree rfl | apply next_keeps | apply fault_keeps | apply State.strike_keeps | apply State.cwRead_keeps
    | apply State.modStack_keeps | apply State.incWrap_keeps | refine fst_keeps ?_ (by assumption) | refine snd_keeps ?_ (by assumption)
    | split

theorem execCounterStore_keeps (hfree : msk &&& 3288352521 = 0) (i x who s) (hs :
    was.Keeps msk s) : outKeeps msk was (execCounterStore i x who s) := by
  unfold execCounterStore
  with_reducible repeat' first | assumption | exact free_mono hfree rfl | apply next_keeps | apply fault_keeps | apply State.storeAt_keeps

theorem execSub_keeps (hfree : msk &&& 3288344345 = 0) (b c rd rs1 rs2 i imm rsv s) (hs :
    was.Keeps msk s) : outKeeps msk was (execSub b c rd rs1 rs2 i imm rsv s) := by
  unfold execSub
  with_reducible repeat' first
    | assumption | exact free_mono hfree rfl | apply next_keeps | apply fault_keeps | apply ok_keeps | apply State.alu_keeps

theorem execFenceD_keeps (hfree : msk &&& 3288344345 = 0) (b c rsv s) (hs : was.Keeps msk s) : outKeeps msk was (execFenceD b c rsv s) := by
  unfold execFenceD
  with_reducible repeat' first
    | assumption | exact free_mono hfree rfl | apply next_keeps | apply fault_keeps | apply State.fenceIssue_keeps

theorem execTrsTxbufFullTimer_keeps (hfree : msk &&& 33792 = 0) (s) (hs :
    was.Keeps msk s) : outKeeps msk was (execTrsTxbufFullTimer s) := by
  unfold execTrsTxbufFullTimer
  conv => zeta
  with_reducible repeat' first
    | assumption | exact free_mono hfree rfl | apply next_keeps | apply fault_keeps | apply State.trsEvent_keeps
    | apply State.putTrs_keeps | split

theorem execLih_keeps (hfree : msk &&& 3288344345 = 0) (b c rd imm rsv s) (hs :
    was.Keeps msk s) : outKeeps msk was (execLih b c rd imm rsv s) := by
  unfold execLih
  with_reducible repeat' first
    | assumption | exact free_mono hfree rfl | apply next_keeps | apply fault_keeps | apply ok_keeps | apply State.issue_keeps
    | apply State.done_keeps | apply State.setS_keeps | (intro _; intros; try beta_reduce)

theorem execResetNDriveEnd_keeps (hfree : msk &&& 2149580800 = 0) (s) (hs : was.Keeps msk s) : outKeeps msk was (execResetNDriveEnd s) := by
  unfold execResetNDriveEnd
  with_reducible repeat' first
    | assumption | exact free_mono hfree rfl | apply next_keeps | apply fault_keeps | apply State.driveReset_keeps | split

theorem execI3cDynamicAddress_keeps (hfree : msk &&& 8388608 = 0) (a s) (hs :
    was.Keeps msk s) : outKeeps msk was (execI3cDynamicAddress a s) := by
  unfold execI3cDynamicAddress
  conv => zeta
  with_reducible repeat' first
    | assumption | exact free_mono hfree rfl | apply next_keeps | apply fault_keeps | apply State.putMgmt_keeps | split

theorem execNotify_keeps (hfree : msk &&& 3288360729 = 0) (v i who r threshold consume s) (hs :
    was.Keeps msk s) : outKeeps msk was (execNotify v i who r threshold consume s) := by
  unfold execNotify
  conv => zeta
  with_reducible repeat' first
    | assumption | exact free_mono hfree rfl | apply next_keeps | apply fault_keeps | apply State.deliver_keeps
    | apply State.putSync_keeps | apply State.atHome_keeps | (intro _; intros; try beta_reduce) | split

theorem execGtCorrectionSpent_keeps (hfree : msk &&& 3073 = 0) (s) (hs : was.Keeps msk s) : outKeeps msk was (execGtCorrectionSpent s) := by
  unfold execGtCorrectionSpent
  conv => zeta
  with_reducible repeat' first
    | assumption | exact free_mono hfree rfl | apply next_keeps | apply fault_keeps | apply State.gtJudge_keeps | apply State.putGt_keeps
    | split

theorem execSig_keeps (hfree : msk &&& 3288344345 = 0) (b c rs inc rsv s) (hs :
    was.Keeps msk s) : outKeeps msk was (execSig b c rs inc rsv s) := by
  unfold execSig
  conv => zeta
  with_reducible repeat' first
    | assumption | exact free_mono hfree rfl | apply next_keeps | apply fault_keeps | apply State.issue_keeps | apply State.illegal_keeps
    | apply State.block_keeps | apply State.syncSend_keeps | apply State.syncEvent_keeps | apply State.modCtx_keeps
    | apply State.done_keeps | (intro _; intros; try beta_reduce) | refine fst_keeps ?_ (by assumption)
    | refine snd_keeps ?_ (by assumption) | split

theorem execSystemReset_keeps (hfree : msk &&& 4294967295 = 0) (adc s) (hs :
    was.Keeps msk s) : outKeeps msk was (execSystemReset adc s) := by
  unfold execSystemReset
  conv => zeta
  with_reducible repeat' first
    | assumption | exact free_mono hfree rfl | apply next_keeps | apply fault_keeps | apply State.putRst_keeps
    | apply State.driveFor_keeps | apply State.systemClear_keeps | apply State.boot_keeps | split

theorem execLineage_keeps (hfree : msk &&& 3321922693 = 0) (p frame s) (hs :
    was.Keeps msk s) : outKeeps msk was (execLineage p frame s) := by
  unfold execLineage
  conv => zeta
  with_reducible repeat' first
    | assumption | exact free_mono hfree rfl | apply next_keeps | apply fault_keeps | apply State.recvControl_keeps
    | apply State.modPart_keeps | apply State.lineageCome_keeps | refine foldl_keeps _ _ _ (fun _ _ _ => ?_) ?_
    | refine foldlFst_keeps _ _ _ (fun _ _ _ => ?_) ?_ | refine foldlSnd_keeps _ _ _ (fun _ _ _ => ?_) ?_
    | refine fst_keeps ?_ (by assumption) | refine snd_keeps ?_ (by assumption) | split

theorem execWaitBackstopExpiry_keeps (hfree : msk &&& 3288344345 = 0) (b t s) (hs :
    was.Keeps msk s) : outKeeps msk was (execWaitBackstopExpiry b t s) := by
  unfold execWaitBackstopExpiry
  conv => zeta
  with_reducible repeat' first
    | assumption | exact free_mono hfree rfl | apply next_keeps | apply fault_keeps | apply State.sendCancel_keeps | split

theorem execNumSet_keeps (hfree : msk &&& 3330146303 = 0) (i s) (hs : was.Keeps msk s) : outKeeps msk was (execNumSet i s) := by
  unfold execNumSet
  with_reducible repeat' first
    | assumption | exact free_mono hfree rfl | apply next_keeps | apply fault_keeps | apply State.takeAs_keeps
    | apply State.cmdNumSet_keeps

theorem execResetNRelease_keeps (hfree : msk &&& 4030217579 = 0) (adc s) (hs :
    was.Keeps msk s) : outKeeps msk was (execResetNRelease adc s) := by
  unfold execResetNRelease
  conv => zeta
  with_reducible repeat' first
    | assumption | exact free_mono hfree rfl | apply next_keeps | apply fault_keeps | apply State.putRst_keeps | apply State.ready0_keeps
    | apply State.putSkipped_keeps | apply State.putCycZero_keeps | apply State.boot_keeps | split

theorem execCrossingOverrun_keeps (hfree : msk &&& 3321915161 = 0) (second cdie v s) (hs :
    was.Keeps msk s) : outKeeps msk was (execCrossingOverrun second cdie v s) := by
  unfold execCrossingOverrun
  conv => zeta
  with_reducible repeat' first
    | assumption | exact free_mono hfree rfl | apply next_keeps | apply fault_keeps | apply State.overrun_keeps | apply State.incSat_keeps
    | apply State.setFld_keeps | apply State.raise_keeps | split

theorem execPcieMemRead_keeps (hfree : msk &&& 3330146303 = 0) (tag addr n s) (hs :
    was.Keeps msk s) : outKeeps msk was (execPcieMemRead tag addr n s) := by
  unfold execPcieMemRead
  with_reducible repeat' first
    | assumption | exact free_mono hfree rfl | apply next_keeps | apply fault_keeps | apply State.aerSet_keeps | apply State.send_keeps
    | apply State.hostQueue_keeps | split

theorem execTbyRowSpareComplete_keeps (hfree : msk &&& 1140860037 = 0) (t s) (hs :
    was.Keeps msk s) : outKeeps msk was (execTbyRowSpareComplete t s) := by
  unfold execTbyRowSpareComplete
  conv => zeta
  with_reducible repeat' first
    | assumption | exact free_mono hfree rfl | apply next_keeps | apply fault_keeps | apply State.copyReads_keeps
    | apply State.tbyEvent_keeps | apply State.modStack_keeps | apply State.health_keeps | apply State.remapCheck_keeps
    | apply State.showSpared_keeps | split

theorem execPcieConfigWrite_keeps (hfree : msk &&& 2147549184 = 0) (w s) (hs :
    was.Keeps msk s) : outKeeps msk was (execPcieConfigWrite w s) := by
  unfold execPcieConfigWrite
  conv => zeta
  with_reducible repeat' first
    | assumption | exact free_mono hfree rfl | apply next_keeps | apply fault_keeps | apply State.releaseVectors_keeps
    | apply State.putPcie_keeps | split

theorem execCtr_keeps (hfree : msk &&& 3288344345 = 0) (b c rd rsv s) (hs : was.Keeps msk s) : outKeeps msk was (execCtr b c rd rsv s) := by
  unfold execCtr
  with_reducible repeat' first
    | assumption | exact free_mono hfree rfl | apply next_keeps | apply fault_keeps | apply ok_keeps | apply State.issue_keeps
    | apply State.done_keeps | apply State.setS_keeps | (intro _; intros; try beta_reduce)

theorem execLcommitTimeout_keeps (hfree : msk &&& 3338684301 = 0) (w who s) (hs :
    was.Keeps msk s) : outKeeps msk was (execLcommitTimeout w who s) := by
  unfold execLcommitTimeout
  with_reducible repeat' first
    | assumption | exact free_mono hfree rfl | apply next_keeps | apply fault_keeps | apply State.closeWord_keeps
    | apply State.endCommit_keeps | split

theorem execBusbarUndervoltage_keeps (hfree : msk &&& 4294967295 = 0) (s) (hs :
    was.Keeps msk s) : outKeeps msk was (execBusbarUndervoltage s) := by
  unfold execBusbarUndervoltage
  with_reducible repeat' first | assumption | exact free_mono hfree rfl | apply next_keeps | apply fault_keeps | apply State.powerOff_keeps

theorem execLayerArrival_keeps (hfree : msk &&& 3338684301 = 0) (v i who op s) (hs :
    was.Keeps msk s) : outKeeps msk was (execLayerArrival v i who op s) := by
  unfold execLayerArrival
  with_reducible repeat' first
    | assumption | exact free_mono hfree rfl | apply next_keeps | apply fault_keeps | apply State.atHome_keeps
    | apply State.arrivalAt_keeps | apply State.abortAt_keeps | (intro _; intros; try beta_reduce) | refine fst_keeps ?_ (by assumption)
    | refine snd_keeps ?_ (by assumption) | split

theorem execDeskClrCnt_keeps (hfree : msk &&& 1 = 0) (b d s) (hs : was.Keeps msk s) : outKeeps msk was (execDeskClrCnt b d s) := by
  unfold execDeskClrCnt
  with_reducible repeat' first | assumption | exact free_mono hfree rfl | apply next_keeps | apply fault_keeps | apply State.deskClear_keeps

theorem execPowerCap_keeps (hfree : msk &&& 2152005637 = 0) (i s) (hs : was.Keeps msk s) : outKeeps msk was (execPowerCap i s) := by
  unfold execPowerCap
  with_reducible repeat' first
    | assumption | exact free_mono hfree rfl | apply next_keeps | apply fault_keeps | apply State.takeAs_keeps
    | apply State.cmdPowerCap_keeps

theorem execDeskRowCheckFail_keeps (hfree : msk &&& 67118105 = 0) (b d x s) (hs :
    was.Keeps msk s) : outKeeps msk was (execDeskRowCheckFail b d x s) := by
  unfold execDeskRowCheckFail
  with_reducible repeat' first | assumption | exact free_mono hfree rfl | apply next_keeps | apply fault_keeps | apply State.checkFail_keeps

theorem execSecKeyx_keeps (hfree : msk &&& 3322397837 = 0) (i s) (hs : was.Keeps msk s) : outKeeps msk was (execSecKeyx i s) := by
  unfold execSecKeyx
  with_reducible repeat' first
    | assumption | exact free_mono hfree rfl | apply next_keeps | apply fault_keeps | apply State.takeAs_keeps | apply State.cmdKeyx_keeps

theorem execLayerOpenRequest_keeps (hfree : msk &&& 3288352521 = 0) (v i who ltag rung lad s) (hs :
    was.Keeps msk s) : outKeeps msk was (execLayerOpenRequest v i who ltag rung lad s) := by
  unfold execLayerOpenRequest
  with_reducible repeat' first
    | assumption | exact free_mono hfree rfl | apply next_keeps | apply fault_keeps | apply State.atHome_keeps | apply State.openAt_keeps
    | (intro _; intros; try beta_reduce)

theorem execMctpControl_keeps (hfree : msk &&& 2155872256 = 0) (src m s) (hs :
    was.Keeps msk s) : outKeeps msk was (execMctpControl src m s) := by
  unfold execMctpControl
  with_reducible repeat' first
    | assumption | exact free_mono hfree rfl | apply next_keeps | apply fault_keeps | apply State.mctpControl_keeps
    | apply State.answerMctp_keeps | refine fst_keeps ?_ (by assumption) | refine snd_keeps ?_ (by assumption) | split

theorem execPcieHotReset_keeps (hfree : msk &&& 69271809 = 0) (s) (hs : was.Keeps msk s) : outKeeps msk was (execPcieHotReset s) := by
  unfold execPcieHotReset
  conv => zeta
  with_reducible repeat' first
    | assumption | exact free_mono hfree rfl | apply next_keeps | apply fault_keeps | apply State.linkReset_keeps
    | apply State.requestReset_keeps | apply State.addCause_keeps | split

theorem execPcieMemWrite_keeps (hfree : msk &&& 3330146303 = 0) (addr data be s) (hs :
    was.Keeps msk s) : outKeeps msk was (execPcieMemWrite addr data be s) := by
  unfold execPcieMemWrite
  with_reducible repeat' first
    | assumption | exact free_mono hfree rfl | apply next_keeps | apply fault_keeps | apply State.aerSet_keeps
    | apply State.hostQueue_keeps | split

theorem execDend_keeps (hfree : msk &&& 3288344345 = 0) (b c rsv s) (hs : was.Keeps msk s) : outKeeps msk was (execDend b c rsv s) := by
  unfold execDend
  with_reducible repeat' first
    | assumption | exact free_mono hfree rfl | apply next_keeps | apply fault_keeps | apply State.issue_keeps | apply State.entryEnd_keeps
    | apply State.done_keeps | apply State.doneBlock_keeps | (intro _; intros; try beta_reduce) | split

theorem execPowerManagerStep_keeps (hfree : msk &&& 1145046025 = 0) (doms busbar loss s) (hs :
    was.Keeps msk s) : outKeeps msk was (execPowerManagerStep doms busbar loss s) := by
  unfold execPowerManagerStep
  refine next_keeps ?_
  split
  · exact hs
  · extract_lets r1 s1 cap above r0 s2 draw s3 others excess s4 floor s5 s6 had now s7 s8
    have h1 : was.Keeps msk s1 := State.showDraws_keeps (free_mono hfree rfl) _ _ _ (State.putPwr_keeps (free_mono hfree rfl) _ _ hs)
    have h3 : was.Keeps msk s3 := by
      show was.Keeps msk (if _ then _ else _)
      split
      · exact State.lowerAllow_keeps (free_mono hfree rfl) _ _ _ (State.putPwr_keeps (free_mono hfree rfl) _ _ h1)
      · exact foldl_keeps _ _ _ (fun _ _ h => State.balance_keeps (free_mono hfree rfl) _ _ _ h) (State.putPwr_keeps (free_mono hfree rfl) _ _ h1)
    have h4 : was.Keeps msk s4 := by
      show was.Keeps msk (if _ then _ else _)
      split
      · exact h3
      · exact State.lowerAllow_keeps (free_mono hfree rfl) _ _ _ h3
    have h5 : was.Keeps msk s5 := by
      show was.Keeps msk (if _ then _ else _)
      split
      · exact State.raise_keeps (free_mono hfree rfl) _ _ _ _ (State.hwSet_keeps (free_mono hfree rfl) _ _ _ h4)
      · exact h4
    have h7 : was.Keeps msk s7 :=
      State.setFld_keeps (free_mono hfree rfl) _ _ _ _ (foldl_keeps _ _ _ (fun _ _ h => State.throttleDie_keeps (free_mono hfree rfl) _ _ _ h) h5)
    have h8 : was.Keeps msk s8 := by
      show was.Keeps msk (if _ then _ else _)
      split
      · exact h7
      · exact State.raise_keeps (free_mono hfree rfl) _ _ _ _ h7
    split
    · exact h8
    · refine foldl_keeps _ _ _ (fun s p h => ?_) h8
      split
      · split
        next e s' he =>
        have h' := snd_keeps (State.draw_keeps (free_mono hfree rfl) _ _ h) he
        split
        · exact State.lendFull_keeps (free_mono hfree rfl) _ _ h'
        · exact h'
      · exact h

theorem execDelayReq_keeps (hfree : msk &&& 2147483648 = 0) (p m s) (hs :
    was.Keeps msk s) : outKeeps msk was (execDelayReq p m s) := by
  unfold execDelayReq
  conv => zeta
  with_reducible repeat' first
    | assumption | exact free_mono hfree rfl | apply next_keeps | apply fault_keeps | apply State.ptpSend_keeps | split

theorem execMapRoutes_keeps (hfree : msk &&& 3330146303 = 0) (i s) (hs : was.Keeps msk s) : outKeeps msk was (execMapRoutes i s) := by
  unfold execMapRoutes
  with_reducible repeat' first
    | assumption | exact free_mono hfree rfl | apply next_keeps | apply fault_keeps | apply State.takeAs_keeps
    | apply State.cmdMapRoutes_keeps

theorem execVdiv_keeps (hfree : msk &&& 3288344345 = 0) (b c vd va vb vc p fmt _fn s) (hs :
    was.Keeps msk s) : outKeeps msk was (execVdiv b c vd va vb vc p fmt _fn s) := by
  unfold execVdiv
  with_reducible repeat' first
    | assumption | exact free_mono hfree rfl | apply next_keeps | apply fault_keeps | apply ok_keeps | apply State.vecLanes_keeps

theorem execTrsAckReceive_keeps (hfree : msk &&& 3221259265 = 0) (p frame s) (hs :
    was.Keeps msk s) : outKeeps msk was (execTrsAckReceive p frame s) := by
  unfold execTrsAckReceive
  conv => zeta
  with_reducible repeat' first
    | assumption | exact free_mono hfree rfl | apply next_keeps | apply fault_keeps | apply State.recvFrame_keeps
    | apply State.flushFar_keeps | apply State.putTrs_keeps | refine fst_keeps ?_ (by assumption) | refine snd_keeps ?_ (by assumption)
    | split

theorem execVmin_keeps (hfree : msk &&& 3288344345 = 0) (b c vd va vb vc p fmt _fn s) (hs :
    was.Keeps msk s) : outKeeps msk was (execVmin b c vd va vb vc p fmt _fn s) := by
  unfold execVmin
  with_reducible repeat' first
    | assumption | exact free_mono hfree rfl | apply next_keeps | apply fault_keeps | apply ok_keeps | apply State.vecLanes_keeps

theorem execTrsPartnerSilence_keeps (hfree : msk &&& 3221259265 = 0) (i s) (hs :
    was.Keeps msk s) : outKeeps msk was (execTrsPartnerSilence i s) := by
  unfold execTrsPartnerSilence
  conv => zeta
  with_reducible repeat' first
    | assumption | exact free_mono hfree rfl | apply next_keeps | apply fault_keeps | apply State.showDelay_keeps
    | apply State.partEnter_keeps | apply State.flushFar_keeps | apply State.putTrs_keeps | split

theorem execDeskRateWindowEnd_keeps (hfree : msk &&& 16 = 0) (b d s) (hs :
    was.Keeps msk s) : outKeeps msk was (execDeskRateWindowEnd b d s) := by
  unfold execDeskRateWindowEnd
  with_reducible repeat' first
    | assumption | exact free_mono hfree rfl | apply next_keeps | apply fault_keeps | apply State.winRoll_keeps | split

theorem execGtUncertaintyLimit_keeps (hfree : msk &&& 1025 = 0) (s) (hs :
    was.Keeps msk s) : outKeeps msk was (execGtUncertaintyLimit s) := by
  unfold execGtUncertaintyLimit
  with_reducible repeat' first
    | assumption | exact free_mono hfree rfl | apply next_keeps | apply fault_keeps | apply State.gtJudge_keeps | split

theorem execFarEnable_keeps (hfree : msk &&& 3322266765 = 0) (i s) (hs : was.Keeps msk s) : outKeeps msk was (execFarEnable i s) := by
  unfold execFarEnable
  with_reducible repeat' first
    | assumption | exact free_mono hfree rfl | apply next_keeps | apply fault_keeps | apply State.takeAs_keeps
    | apply State.cmdFarEnable_keeps

theorem execLd16_keeps (hfree : msk &&& 3288344345 = 0) (b c rd rs1 imm rsv s) (hs :
    was.Keeps msk s) : outKeeps msk was (execLd16 b c rd rs1 imm rsv s) := by
  unfold execLd16
  with_reducible repeat' first
    | assumption | exact free_mono hfree rfl | apply next_keeps | apply fault_keeps | apply State.scalarLoad_keeps

theorem execJal_keeps (hfree : msk &&& 3288344345 = 0) (b c rd imm rsv s) (hs :
    was.Keeps msk s) : outKeeps msk was (execJal b c rd imm rsv s) := by
  unfold execJal
  conv => zeta
  with_reducible repeat' first
    | assumption | exact free_mono hfree rfl | apply next_keeps | apply fault_keeps | apply ok_keeps | apply State.issue_keeps
    | apply State.setPc_keeps | apply State.issued_keeps | apply State.setS_keeps | (intro _; intros; try beta_reduce)

theorem execLd32_keeps (hfree : msk &&& 3288344345 = 0) (b c rd rs1 imm rsv s) (hs :
    was.Keeps msk s) : outKeeps msk was (execLd32 b c rd rs1 imm rsv s) := by
  unfold execLd32
  with_reducible repeat' first
    | assumption | exact free_mono hfree rfl | apply next_keeps | apply fault_keeps | apply State.scalarLoad_keeps

theorem execMoveWiden_keeps (hfree : msk &&& 3321915293 = 0) (b c rs t dir sg cnt rsv s) (hs :
    was.Keeps msk s) : outKeeps msk was (execMoveWiden b c rs t dir sg cnt rsv s) := by
  unfold execMoveWiden
  with_reducible repeat' first | assumption | exact free_mono hfree rfl | apply next_keeps | apply fault_keeps | apply State.moveIssue_keeps

theorem execTrsPartWrite_keeps (hfree : msk &&& 33793 = 0) (i v s) (hs : was.Keeps msk s) : outKeeps msk was (execTrsPartWrite i v s) := by
  unfold execTrsPartWrite
  with_reducible repeat' first | assumption | exact free_mono hfree rfl | apply next_keeps | apply fault_keeps | apply State.partWrite_keeps

theorem execPset_keeps (hfree : msk &&& 3288344345 = 0) (b c p fn s) (hs : was.Keeps msk s) : outKeeps msk was (execPset b c p fn s) := by
  unfold execPset
  conv => zeta
  with_reducible repeat' first
    | assumption | exact free_mono hfree rfl | apply next_keeps | apply fault_keeps | apply ok_keeps | apply State.vecMem_keeps
    | apply State.vecEnd_keeps | apply State.setP_keeps | (intro _; intros; try beta_reduce)

theorem execXor_keeps (hfree : msk &&& 3288344345 = 0) (b c rd rs1 rs2 i imm rsv s) (hs :
    was.Keeps msk s) : outKeeps msk was (execXor b c rd rs1 rs2 i imm rsv s) := by
  unfold execXor
  with_reducible repeat' first
    | assumption | exact free_mono hfree rfl | apply next_keeps | apply fault_keeps | apply ok_keeps | apply State.alu_keeps

theorem execFarDisable_keeps (hfree : msk &&& 2147844101 = 0) (i s) (hs : was.Keeps msk s) : outKeeps msk was (execFarDisable i s) := by
  unfold execFarDisable
  with_reducible repeat' first
    | assumption | exact free_mono hfree rfl | apply next_keeps | apply fault_keeps | apply State.takeAs_keeps
    | apply State.cmdFarDisable_keeps

theorem execMarkArrival_keeps (hfree : msk &&& 256 = 0) (p s) (hs : was.Keeps msk s) : outKeeps msk was (execMarkArrival p s) := by
  unfold execMarkArrival
  conv => zeta
  with_reducible repeat' first
    | assumption | exact free_mono hfree rfl | apply next_keeps | apply fault_keeps | apply State.putTmr_keeps | split

theorem execDeskBLoadStart_keeps (hfree : msk &&& 3288344345 = 0) (b d s) (hs :
    was.Keeps msk s) : outKeeps msk was (execDeskBLoadStart b d s) := by
  unfold execDeskBLoadStart
  with_reducible repeat' first | assumption | exact free_mono hfree rfl | apply next_keeps | apply fault_keeps | apply State.loadStart_keeps

theorem execNop_keeps (hfree : msk &&& 3288344345 = 0) (b c opc rsv s) (hs :
    was.Keeps msk s) : outKeeps msk was (execNop b c opc rsv s) := by
  unfold execNop
  with_reducible repeat' first
    | assumption | exact free_mono hfree rfl | apply next_keeps | apply fault_keeps | apply ok_keeps | apply State.issue_keeps
    | apply State.done_keeps | apply State.illegal_keeps | (intro _; intros; try beta_reduce) | split

theorem execFenceB_keeps (hfree : msk &&& 3288344345 = 0) (b c rsv s) (hs : was.Keeps msk s) : outKeeps msk was (execFenceB b c rsv s) := by
  unfold execFenceB
  with_reducible repeat' first
    | assumption | exact free_mono hfree rfl | apply next_keeps | apply fault_keeps | apply State.fenceIssue_keeps

theorem execMoveCopy_keeps (hfree : msk &&& 3321915293 = 0) (b c rs t dir sg cnt rsv s) (hs :
    was.Keeps msk s) : outKeeps msk was (execMoveCopy b c rs t dir sg cnt rsv s) := by
  unfold execMoveCopy
  with_reducible repeat' first | assumption | exact free_mono hfree rfl | apply next_keeps | apply fault_keeps | apply State.moveIssue_keeps

theorem execVld_keeps (hfree : msk &&& 3288344345 = 0) (b c vd x fn s) (hs :
    was.Keeps msk s) : outKeeps msk was (execVld b c vd x fn s) := by
  unfold execVld
  conv => zeta
  with_reducible repeat' first
    | assumption | exact free_mono hfree rfl | apply next_keeps | apply fault_keeps | apply ok_keeps | apply State.vecMem_keeps
    | apply State.vecEnd_keeps | apply State.setV_keeps | (intro _; intros; try beta_reduce)

theorem execCrystalFailure_keeps (hfree : msk &&& 1073755137 = 0) (xb s) (hs :
    was.Keeps msk s) : outKeeps msk was (execCrystalFailure xb s) := by
  unfold execCrystalFailure
  conv => zeta
  with_reducible repeat' first
    | assumption | exact free_mono hfree rfl | apply next_keeps | apply fault_keeps | apply State.relock_keeps | apply State.retrim_keeps
    | apply State.setFld_keeps | apply State.raise_keeps | apply State.health_keeps | refine foldl_keeps _ _ _ (fun _ _ _ => ?_) ?_
    | refine foldlFst_keeps _ _ _ (fun _ _ _ => ?_) ?_ | refine foldlSnd_keeps _ _ _ (fun _ _ _ => ?_) ?_
    | refine fst_keeps ?_ (by assumption) | refine snd_keeps ?_ (by assumption) | split

theorem execFlagr_keeps (hfree : msk &&& 3288344345 = 0) (b c rd u rsv1 rsv2 s) (hs :
    was.Keeps msk s) : outKeeps msk was (execFlagr b c rd u rsv1 rsv2 s) := by
  unfold execFlagr
  with_reducible repeat' first
    | assumption | exact free_mono hfree rfl | apply next_keeps | apply fault_keeps | apply State.issue_keeps | apply State.illegal_keeps
    | apply State.done_keeps | apply State.setS_keeps | (intro _; intros; try beta_reduce) | split

theorem execPpsOutClaim_keeps (hfree : msk &&& 2214597633 = 0) (en s) (hs : was.Keeps msk s) : outKeeps msk was (execPpsOutClaim en s) := by
  unfold execPpsOutClaim
  with_reducible repeat' first | assumption | exact free_mono hfree rfl | apply next_keeps | apply fault_keeps | apply State.markClaim_keeps

theorem execAlarmSweepClaim_keeps (hfree : msk &&& 67113985 = 0) (en s) (hs :
    was.Keeps msk s) : outKeeps msk was (execAlarmSweepClaim en s) := by
  unfold execAlarmSweepClaim
  with_reducible repeat' first
    | assumption | exact free_mono hfree rfl | apply next_keeps | apply fault_keeps | apply State.sweepClaim_keeps

theorem execSbdRecordTake_keeps (hfree : msk &&& 3321915277 = 0) (t x s) (hs :
    was.Keeps msk s) : outKeeps msk was (execSbdRecordTake t x s) := by
  unfold execSbdRecordTake
  conv => zeta
  with_reducible repeat' first
    | assumption | exact free_mono hfree rfl | apply next_keeps | apply fault_keeps | apply State.sortRec_keeps
    | apply State.incWrap_keeps | split

theorem execDbgTriggerClaim_keeps (hfree : msk &&& 2214597633 = 0) (en s) (hs :
    was.Keeps msk s) : outKeeps msk was (execDbgTriggerClaim en s) := by
  unfold execDbgTriggerClaim
  with_reducible repeat' first | assumption | exact free_mono hfree rfl | apply next_keeps | apply fault_keeps | apply State.markClaim_keeps

theorem execPcieLinkUp_keeps (hfree : msk &&& 65536 = 0) (rate width s) (hs :
    was.Keeps msk s) : outKeeps msk was (execPcieLinkUp rate width s) := by
  unfold execPcieLinkUp
  conv => zeta
  with_reducible repeat' first
    | assumption | exact free_mono hfree rfl | apply next_keeps | apply fault_keeps | apply State.putPcie_keeps | split

theorem execGetMeasurements_keeps (hfree : msk &&& 3229614080 = 0) (mctp src idx sign req s) (hs :
    was.Keeps msk s) : outKeeps msk was (execGetMeasurements mctp src idx sign req s) := by
  unfold execGetMeasurements
  conv => zeta
  with_reducible repeat' first
    | assumption | exact free_mono hfree rfl | apply next_keeps | apply fault_keeps | apply State.spdmStep_keeps | apply State.sign_keeps
    | (intro _; intros; try beta_reduce) | refine fst_keeps ?_ (by assumption) | refine snd_keeps ?_ (by assumption) | split

theorem execLopen_keeps (hfree : msk &&& 3288344345 = 0) (b c rs ltag rung lad rsv s) (hs :
    was.Keeps msk s) : outKeeps msk was (execLopen b c rs ltag rung lad rsv s) := by
  unfold execLopen
  conv => zeta
  with_reducible repeat' first
    | assumption | exact free_mono hfree rfl | apply next_keeps | apply fault_keeps | apply State.issue_keeps | apply State.illegal_keeps
    | apply State.modCtx_keeps | apply State.doneBlock_keeps | apply State.syncSend_keeps | apply State.openLost_keeps
    | apply State.syncEvent_keeps | (intro _; intros; try beta_reduce) | refine fst_keeps ?_ (by assumption)
    | refine snd_keeps ?_ (by assumption) | split

theorem execMax_keeps (hfree : msk &&& 3288344345 = 0) (b c rd rs1 rs2 i imm rsv s) (hs :
    was.Keeps msk s) : outKeeps msk was (execMax b c rd rs1 rs2 i imm rsv s) := by
  unfold execMax
  with_reducible repeat' first
    | assumption | exact free_mono hfree rfl | apply next_keeps | apply fault_keeps | apply ok_keeps | apply State.alu_keeps

theorem execDeskDEpilogue_keeps (hfree : msk &&& 3288344345 = 0) (b c d set j n t rsv s) (hs :
    was.Keeps msk s) : outKeeps msk was (execDeskDEpilogue b c d set j n t rsv s) := by
  unfold execDeskDEpilogue
  with_reducible repeat' first | assumption | exact free_mono hfree rfl | apply next_keeps | apply fault_keeps | apply State.deskIssue_keeps

theorem execTrsApplyComplete_keeps (hfree : msk &&& 3338716301 = 0) (g s) (hs :
    was.Keeps msk s) : outKeeps msk was (execTrsApplyComplete g s) := by
  unfold execTrsApplyComplete
  conv => zeta
  with_reducible repeat' first
    | assumption | exact free_mono hfree rfl | apply next_keeps | apply fault_keeps | apply State.putLin_keeps
    | apply State.memWrite_keeps | apply State.storePrint_keeps | apply State.applyLog_keeps | apply State.trsEvent_keeps
    | apply State.freeContrib_keeps | apply State.putTrs_keeps | apply State.dropContrib_keeps | apply State.setFld_keeps
    | apply State.modGrp_keeps | apply State.reunited_keeps | apply State.sendJoin_keeps | apply State.sendReunion_keeps
    | apply State.flushFar_keeps | refine foldl_keeps _ _ _ (fun _ _ _ => ?_) ?_ | refine foldlFst_keeps _ _ _ (fun _ _ _ => ?_) ?_
    | refine foldlSnd_keeps _ _ _ (fun _ _ _ => ?_) ?_ | refine fst_keeps ?_ (by assumption) | refine snd_keeps ?_ (by assumption) | split

theorem execSbdEnable_keeps (hfree : msk &&& 3330146303 = 0) (i s) (hs : was.Keeps msk s) : outKeeps msk was (execSbdEnable i s) := by
  unfold execSbdEnable
  with_reducible repeat' first
    | assumption | exact free_mono hfree rfl | apply next_keeps | apply fault_keeps | apply State.takeAs_keeps
    | apply State.cmdSbdEnable_keeps

theorem execSbdNormCollect_keeps (hfree : msk &&& 3321907085 = 0) (s) (hs : was.Keeps msk s) : outKeeps msk was (execSbdNormCollect s) := by
  unfold execSbdNormCollect
  conv => zeta
  with_reducible repeat' first
    | assumption | exact free_mono hfree rfl | apply next_keeps | apply fault_keeps | apply State.awaitSum_keeps
    | apply State.putSbd_keeps | apply State.memRead_keeps | apply State.putNorm_keeps | apply State.sendResult_keeps
    | refine foldl_keeps _ _ _ (fun _ _ _ => ?_) ?_ | refine foldlFst_keeps _ _ _ (fun _ _ _ => ?_) ?_
    | refine foldlSnd_keeps _ _ _ (fun _ _ _ => ?_) ?_ | refine fst_keeps ?_ (by assumption) | refine snd_keeps ?_ (by assumption) | split

theorem execGtNowLoRead_keeps (hfree : msk &&& 1073752065 = 0) (who s) (hs :
    was.Keeps msk s) : outKeeps msk was (execGtNowLoRead who s) := by
  unfold execGtNowLoRead
  with_reducible repeat' first | assumption | exact free_mono hfree rfl | apply next_keeps | apply fault_keeps | apply State.regRead64_keeps

theorem execFenceComplete_keeps (hfree : msk &&& 9 = 0) (b c s) (hs : was.Keeps msk s) : outKeeps msk was (execFenceComplete b c s) := by
  unfold execFenceComplete
  with_reducible repeat' first
    | assumption | exact free_mono hfree rfl | apply next_keeps | apply fault_keeps | apply State.wake_keeps | split

theorem execResetNLowSystem_keeps (hfree : msk &&& 4294967295 = 0) (s) (hs :
    was.Keeps msk s) : outKeeps msk was (execResetNLowSystem s) := by
  unfold execResetNLowSystem
  conv => zeta
  with_reducible repeat' first
    | assumption | exact free_mono hfree rfl | apply next_keeps | apply fault_keeps | apply State.systemClear_keeps
    | apply State.putRst_keeps | split

theorem execTbyClrCnt_keeps (hfree : msk &&& 1 = 0) (t s) (hs : was.Keeps msk s) : outKeeps msk was (execTbyClrCnt t s) := by
  unfold execTbyClrCnt
  with_reducible repeat' first | assumption | exact free_mono hfree rfl | apply next_keeps | apply fault_keeps | apply State.tbyClear_keeps

theorem execNegotiateAlgorithms_keeps (hfree : msk &&& 2155872256 = 0) (mctp src req s) (hs :
    was.Keeps msk s) : outKeeps msk was (execNegotiateAlgorithms mctp src req s) := by
  unfold execNegotiateAlgorithms
  with_reducible repeat' first
    | assumption | exact free_mono hfree rfl | apply next_keeps | apply fault_keeps | apply State.spdmStep_keeps
    | (intro _; intros; try beta_reduce)

theorem execVbcast_keeps (hfree : msk &&& 3288344345 = 0) (b c vd va _vb _vc p fmt _fn s) (hs :
    was.Keeps msk s) : outKeeps msk was (execVbcast b c vd va _vb _vc p fmt _fn s) := by
  unfold execVbcast
  conv => zeta
  with_reducible repeat' first
    | assumption | exact free_mono hfree rfl | apply next_keeps | apply fault_keeps | apply ok_keeps | apply State.issue_keeps
    | apply State.illegal_keeps | apply State.done_keeps | apply State.setV_keeps | (intro _; intros; try beta_reduce) | split

theorem execCancelAnswer_keeps (hfree : msk &&& 3288360729 = 0) (v a s) (hs :
    was.Keeps msk s) : outKeeps msk was (execCancelAnswer v a s) := by
  unfold execCancelAnswer
  with_reducible repeat' first
    | assumption | exact free_mono hfree rfl | apply next_keeps | apply fault_keeps | apply State.syncResponse_keeps

theorem execWaitCancel_keeps (hfree : msk &&& 3221227265 = 0) (v i who s) (hs :
    was.Keeps msk s) : outKeeps msk was (execWaitCancel v i who s) := by
  unfold execWaitCancel
  with_reducible repeat' first
    | assumption | exact free_mono hfree rfl | apply next_keeps | apply fault_keeps | apply State.atHome_keeps
    | apply State.cancelAt_keeps | (intro _; intros; try beta_reduce)

theorem execBltu_keeps (hfree : msk &&& 3288344345 = 0) (b c rs1 rs2 imm rsv s) (hs :
    was.Keeps msk s) : outKeeps msk was (execBltu b c rs1 rs2 imm rsv s) := by
  unfold execBltu
  with_reducible repeat' first
    | assumption | exact free_mono hfree rfl | apply next_keeps | apply fault_keeps | apply ok_keeps | apply State.branch_keeps

theorem execMulh_keeps (hfree : msk &&& 3288344345 = 0) (b c rd rs1 rs2 i imm rsv s) (hs :
    was.Keeps msk s) : outKeeps msk was (execMulh b c rd rs1 rs2 i imm rsv s) := by
  unfold execMulh
  with_reducible repeat' first
    | assumption | exact free_mono hfree rfl | apply next_keeps | apply fault_keeps | apply ok_keeps | apply State.alu_keeps

theorem execClkTrimSettled_keeps (hfree : msk &&& 1073741825 = 0) (s) (hs : was.Keeps msk s) : outKeeps msk was (execClkTrimSettled s) := by
  unfold execClkTrimSettled
  conv => zeta
  with_reducible repeat' first
    | assumption | exact free_mono hfree rfl | apply next_keeps | apply fault_keeps | apply State.draw_keeps | apply State.setFld_keeps
    | refine fst_keeps ?_ (by assumption) | refine snd_keeps ?_ (by assumption) | split

theorem execDeskUngate_keeps (hfree : msk &&& 1073741832 = 0) (b s) (hs : was.Keeps msk s) : outKeeps msk was (execDeskUngate b s) := by
  unfold execDeskUngate
  conv => zeta
  with_reducible repeat' first
    | assumption | exact free_mono hfree rfl | apply next_keeps | apply fault_keeps | apply State.draw_keeps | apply State.modBench_keeps
    | refine fst_keeps ?_ (by assumption) | refine snd_keeps ?_ (by assumption) | split

theorem execSbdSteprecPoll_keeps (hfree : msk &&& 1174422661 = 0) (t step s) (hs :
    was.Keeps msk s) : outKeeps msk was (execSbdSteprecPoll t step s) := by
  unfold execSbdSteprecPoll
  with_reducible repeat' first
    | assumption | exact free_mono hfree rfl | apply next_keeps | apply fault_keeps | apply State.poll_keeps | split

theorem execDeskRowCommit_keeps (hfree : msk &&& 3288344345 = 0) (b d us s) (hs :
    was.Keeps msk s) : outKeeps msk was (execDeskRowCommit b d us s) := by
  unfold execDeskRowCommit
  with_reducible repeat' first | assumption | exact free_mono hfree rfl | apply next_keeps | apply fault_keeps | apply State.rowCommit_keeps

theorem execSbdExport_keeps (hfree : msk &&& 3330146303 = 0) (i s) (hs : was.Keeps msk s) : outKeeps msk was (execSbdExport i s) := by
  unfold execSbdExport
  with_reducible repeat' first
    | assumption | exact free_mono hfree rfl | apply next_keeps | apply fault_keeps | apply State.takeAs_keeps
    | apply State.cmdSbdExport_keeps

theorem execTmrRdc_keeps (hfree : msk &&& 3288360729 = 0) (v st data s) (hs :
    was.Keeps msk s) : outKeeps msk was (execTmrRdc v st data s) := by
  unfold execTmrRdc
  with_reducible repeat' first
    | assumption | exact free_mono hfree rfl | apply next_keeps | apply fault_keeps | apply State.completionIn_keeps

theorem execSync_keeps (hfree : msk &&& 2048 = 0) (p m s) (hs : was.Keeps msk s) : outKeeps msk was (execSync p m s) := by
  unfold execSync
  conv => zeta
  with_reducible repeat' first
    | assumption | exact free_mono hfree rfl | apply next_keeps | apply fault_keeps | apply State.setPtp_keeps | split

theorem execVexp_keeps (hfree : msk &&& 3288344345 = 0) (b c vd va _vb _vc p fmt _fn s) (hs :
    was.Keeps msk s) : outKeeps msk was (execVexp b c vd va _vb _vc p fmt _fn s) := by
  unfold execVexp
  with_reducible repeat' first
    | assumption | exact free_mono hfree rfl | apply next_keeps | apply fault_keeps | apply ok_keeps | apply State.vecTrans_keeps

theorem execFenceM_keeps (hfree : msk &&& 3288344345 = 0) (b c rsv s) (hs : was.Keeps msk s) : outKeeps msk was (execFenceM b c rsv s) := by
  unfold execFenceM
  with_reducible repeat' first
    | assumption | exact free_mono hfree rfl | apply next_keeps | apply fault_keeps | apply State.fenceIssue_keeps

theorem execJobStop_keeps (hfree : msk &&& 3288672029 = 0) (i s) (hs : was.Keeps msk s) : outKeeps msk was (execJobStop i s) := by
  unfold execJobStop
  with_reducible repeat' first
    | assumption | exact free_mono hfree rfl | apply next_keeps | apply fault_keeps | apply State.takeAs_keeps | apply State.cmdStop_keeps

theorem execCounterTake_keeps (hfree : msk &&& 3288336129 = 0) (v i who amount s) (hs :
    was.Keeps msk s) : outKeeps msk was (execCounterTake v i who amount s) := by
  unfold execCounterTake
  with_reducible repeat' first
    | assumption | exact free_mono hfree rfl | apply next_keeps | apply fault_keeps | apply State.atHome_keeps | apply State.takeAt_keeps
    | (intro _; intros; try beta_reduce)

theorem execAnd_keeps (hfree : msk &&& 3288344345 = 0) (b c rd rs1 rs2 i imm rsv s) (hs :
    was.Keeps msk s) : outKeeps msk was (execAnd b c rd rs1 rs2 i imm rsv s) := by
  unfold execAnd
  with_reducible repeat' first
    | assumption | exact free_mono hfree rfl | apply next_keeps | apply fault_keeps | apply ok_keeps | apply State.alu_keeps

theorem execTrsLastResendTimer_keeps (hfree : msk &&& 3221258241 = 0) (i g round s) (hs :
    was.Keeps msk s) : outKeeps msk was (execTrsLastResendTimer i g round s) := by
  unfold execTrsLastResendTimer
  conv => zeta
  with_reducible repeat' first
    | assumption | exact free_mono hfree rfl | apply next_keeps | apply fault_keeps | apply State.resend_keeps | apply State.putTrs_keeps
    | split

theorem execCoreReset_keeps (hfree : msk &&& 4129843101 = 0) (s) (hs : was.Keeps msk s) : outKeeps msk was (execCoreReset s) := by
  unfold execCoreReset
  conv => zeta
  with_reducible repeat' first
    | assumption | exact free_mono hfree rfl | apply next_keeps | apply fault_keeps | apply State.putRst_keeps
    | apply State.saveAvail_keeps | apply State.driveFor_keeps | apply State.addCause_keeps | apply State.coreClear_keeps
    | apply State.ready0_keeps | split

theorem execReady_keeps (hfree : msk &&& 3221259265 = 0) (p frame s) (hs : was.Keeps msk s) : outKeeps msk was (execReady p frame s) := by
  unfold execReady
  with_reducible repeat' first
    | assumption | exact free_mono hfree rfl | apply next_keeps | apply fault_keeps | apply State.recvControl_keeps
    | apply State.modPart_keeps | refine fst_keeps ?_ (by assumption) | refine snd_keeps ?_ (by assumption) | split

theorem execJalr_keeps (hfree : msk &&& 3288344345 = 0) (b c rd rs1 imm rsv s) (hs :
    was.Keeps msk s) : outKeeps msk was (execJalr b c rd rs1 imm rsv s) := by
  unfold execJalr
  conv => zeta
  with_reducible repeat' first
    | assumption | exact free_mono hfree rfl | apply next_keeps | apply fault_keeps | apply ok_keeps | apply State.issue_keeps
    | apply State.setPc_keeps | apply State.issued_keeps | apply State.setS_keeps | (intro _; intros; try beta_reduce)

theorem execBge_keeps (hfree : msk &&& 3288344345 = 0) (b c rs1 rs2 imm rsv s) (hs :
    was.Keeps msk s) : outKeeps msk was (execBge b c rs1 rs2 imm rsv s) := by
  unfold execBge
  with_reducible repeat' first
    | assumption | exact free_mono hfree rfl | apply next_keeps | apply fault_keeps | apply ok_keeps | apply State.branch_keeps

theorem execAnnounce_keeps (hfree : msk &&& 2049 = 0) (p m s) (hs : was.Keeps msk s) : outKeeps msk was (execAnnounce p m s) := by
  unfold execAnnounce
  conv => zeta
  with_reducible repeat' first
    | assumption | exact free_mono hfree rfl | apply next_keeps | apply fault_keeps | apply State.bmca_keeps | apply State.putGt_keeps
    | split

theorem execSbdWaitTimeout_keeps (hfree : msk &&& 17409 = 0) (t global step s) (hs :
    was.Keeps msk s) : outKeeps msk was (execSbdWaitTimeout t global step s) := by
  unfold execSbdWaitTimeout
  conv => zeta
  with_reducible repeat' first
    | assumption | exact free_mono hfree rfl | apply next_keeps | apply fault_keeps | apply State.waitLate_keeps
    | apply State.putNorm_keeps | apply State.modUnit_keeps | split

theorem execDwlResume_keeps (hfree : msk &&& 67108873 = 0) (b s) (hs : was.Keeps msk s) : outKeeps msk was (execDwlResume b s) := by
  unfold execDwlResume
  with_reducible repeat' first | assumption | exact free_mono hfree rfl | apply next_keeps | apply fault_keeps | apply State.setResume_keeps

theorem execLopenAnswer_keeps (hfree : msk &&& 3288360729 = 0) (v attempt s) (hs :
    was.Keeps msk s) : outKeeps msk was (execLopenAnswer v attempt s) := by
  unfold execLopenAnswer
  with_reducible repeat' first
    | assumption | exact free_mono hfree rfl | apply next_keeps | apply fault_keeps | apply State.syncResponse_keeps

theorem execCounterRestore_keeps (hfree : msk &&& 3288352521 = 0) (v i who amount s) (hs :
    was.Keeps msk s) : outKeeps msk was (execCounterRestore v i who amount s) := by
  unfold execCounterRestore
  with_reducible repeat' first
    | assumption | exact free_mono hfree rfl | apply next_keeps | apply fault_keeps | apply State.atHome_keeps
    | apply State.restoreAt_keeps | (intro _; intros; try beta_reduce)

theorem execSbdPublish_keeps (hfree : msk &&& 3338725261 = 0) (l s) (hs : was.Keeps msk s) : outKeeps msk was (execSbdPublish l s) := by
  unfold execSbdPublish
  conv => zeta
  with_reducible repeat' first
    | assumption | exact free_mono hfree rfl | apply next_keeps | apply fault_keeps | apply State.finishRun_keeps
    | apply State.putSbd_keeps | apply State.endStep_keeps | apply State.unitSignal_keeps | split

theorem execTrsRequestRetry_keeps (hfree : msk &&& 3221259265 = 0) (slot s) (hs :
    was.Keeps msk s) : outKeeps msk was (execTrsRequestRetry slot s) := by
  unfold execTrsRequestRetry
  conv => zeta
  with_reducible repeat' first
    | assumption | exact free_mono hfree rfl | apply next_keeps | apply fault_keeps | apply State.putXfer_keeps
    | apply State.askBlocks_keeps | apply State.askXfer_keeps | split

theorem execScalarLoadComplete_keeps (hfree : msk &&& 3321900957 = 0) (b c rd s) (hs :
    was.Keeps msk s) : outKeeps msk was (execScalarLoadComplete b c rd s) := by
  unfold execScalarLoadComplete
  with_reducible repeat' first
    | assumption | exact free_mono hfree rfl | apply next_keeps | apply fault_keeps | apply State.loadNear_keeps | split

theorem execTake_keeps (hfree : msk &&& 3288344345 = 0) (b c rd rs rt rsv s) (hs :
    was.Keeps msk s) : outKeeps msk was (execTake b c rd rs rt rsv s) := by
  unfold execTake
  conv => zeta
  with_reducible repeat' first
    | assumption | exact free_mono hfree rfl | apply next_keeps | apply fault_keeps | apply State.issue_keeps | apply State.illegal_keeps
    | apply State.block_keeps | apply State.modCtx_keeps | apply State.doneBlock_keeps | apply State.syncSend_keeps
    | apply State.takeAnswer_keeps | apply State.syncEvent_keeps | (intro _; intros; try beta_reduce)
    | refine fst_keeps ?_ (by assumption) | refine snd_keeps ?_ (by assumption) | split

theorem execBusbarOvercurrent_keeps (hfree : msk &&& 4294967295 = 0) (s) (hs :
    was.Keeps msk s) : outKeeps msk was (execBusbarOvercurrent s) := by
  unfold execBusbarOvercurrent
  conv => zeta
  with_reducible repeat' first
    | assumption | exact free_mono hfree rfl | apply next_keeps | apply fault_keeps | apply State.powerOff_keeps
    | apply State.putRst_keeps

theorem execMarkOutPulse_keeps (hfree : msk &&& 2147487744 = 0) (s) (hs :
    was.Keeps msk s) : outKeeps msk was (execMarkOutPulse s) := by
  unfold execMarkOutPulse
  conv => zeta
  with_reducible repeat' first
    | assumption | exact free_mono hfree rfl | apply next_keeps | apply fault_keeps | apply State.putClk_keeps
    | apply State.driveMark_keeps | split

theorem execMbxTake_keeps (hfree : msk &&& 3330277375 = 0) (s) (hs : was.Keeps msk s) : outKeeps msk was (execMbxTake s) := by
  unfold execMbxTake
  with_reducible repeat' first
    | assumption | exact free_mono hfree rfl | apply next_keeps | apply fault_keeps | apply State.take_keeps | split

theorem execAlarmSweep_keeps (hfree : msk &&& 5120 = 0) (s) (hs : was.Keeps msk s) : outKeeps msk was (execAlarmSweep s) := by
  unfold execAlarmSweep
  conv => zeta
  with_reducible repeat' first
    | assumption | exact free_mono hfree rfl | apply next_keeps | apply fault_keeps | apply State.putClk_keeps | apply State.raise_keeps
    | split

theorem execMctpVendorMailbox_keeps (hfree : msk &&& 2214854661 = 0) (src body s) (hs :
    was.Keeps msk s) : outKeeps msk was (execMctpVendorMailbox src body s) := by
  unfold execMctpVendorMailbox
  conv => zeta
  with_reducible repeat' first
    | assumption | exact free_mono hfree rfl | apply next_keeps | apply fault_keeps | apply State.answerMctp_keeps
    | apply State.memStore_keeps | apply State.memFilter_keeps | apply State.memClear_keeps | apply State.putHut_keeps
    | apply State.submitOne_keeps | apply State.setOwn_keeps | split

theorem execTrsSend_keeps (hfree : msk &&& 3321943181 = 0) (g s) (hs : was.Keeps msk s) : outKeeps msk was (execTrsSend g s) := by
  unfold execTrsSend
  extract_lets i x n
  split
  · exact next_keeps hs
  · extract_lets due s1 s2 tau
    split
    · exact next_keeps hs
    · have h2 : was.Keeps msk s2 := State.sendPrints_keeps (free_mono hfree rfl) _ _ _ (State.setFld_keeps (free_mono hfree rfl) _ _ _ _ (State.lateStart_keeps (free_mono hfree rfl) _ _ _ _ hs))
      clear_value s2
      split
      next s3 frames he =>
      have h3 : was.Keeps msk s3 := fst_keeps (halves_keeps (State.ownFrames_keeps (free_mono hfree rfl) _ _ _ _ h2)) he
      exact next_keeps (State.sendFrames_keeps (free_mono hfree rfl) _ _ (State.modGrp_keeps (free_mono hfree rfl) _ _ _ (State.putTrs_keeps (free_mono hfree rfl) _ _ h3)))

theorem execDeferFlush_keeps (hfree : msk &&& 3288344345 = 0) (b c rs rsv s) (hs :
    was.Keeps msk s) : outKeeps msk was (execDeferFlush b c rs rsv s) := by
  unfold execDeferFlush
  with_reducible repeat' first
    | assumption | exact free_mono hfree rfl | apply next_keeps | apply fault_keeps | apply State.issue_keeps | apply State.done_keeps
    | apply State.doneBlock_keeps | (intro _; intros; try beta_reduce) | split

theorem execTst_keeps (hfree : msk &&& 3288344349 = 0) (b c t rs1 rsv s) (hs :
    was.Keeps msk s) : outKeeps msk was (execTst b c t rs1 rsv s) := by
  unfold execTst
  conv => zeta
  with_reducible repeat' first
    | assumption | exact free_mono hfree rfl | apply next_keeps | apply fault_keeps | apply ok_keeps | apply State.issue_keeps
    | apply State.illegal_keeps | apply State.block_keeps | apply State.done_keeps | apply State.shelfWrite_keeps
    | (intro _; intros; try beta_reduce) | split

theorem execVsin_keeps (hfree : msk &&& 3288344345 = 0) (b c vd va _vb _vc p fmt _fn s) (hs :
    was.Keeps msk s) : outKeeps msk was (execVsin b c vd va _vb _vc p fmt _fn s) := by
  unfold execVsin
  with_reducible repeat' first
    | assumption | exact free_mono hfree rfl | apply next_keeps | apply fault_keeps | apply ok_keeps | apply State.vecTrans_keeps

theorem execBlt_keeps (hfree : msk &&& 3288344345 = 0) (b c rs1 rs2 imm rsv s) (hs :
    was.Keeps msk s) : outKeeps msk was (execBlt b c rs1 rs2 imm rsv s) := by
  unfold execBlt
  with_reducible repeat' first
    | assumption | exact free_mono hfree rfl | apply next_keeps | apply fault_keeps | apply ok_keeps | apply State.branch_keeps

theorem execTmrRtWrite_keeps (hfree : msk &&& 257 = 0) (m v s) (hs : was.Keeps msk s) : outKeeps msk was (execTmrRtWrite m v s) := by
  unfold execTmrRtWrite
  with_reducible repeat' first | assumption | exact free_mono hfree rfl | apply next_keeps | apply fault_keeps | apply State.rtWrite1_keeps

theorem execRegisterWrite_keeps (hfree : msk &&& 3330080767 = 0) (who a n v s) (hs :
    was.Keeps msk s) : outKeeps msk was (execRegisterWrite who a n v s) := by
  unfold execRegisterWrite
  conv => zeta
  with_reducible repeat' first
    | assumption | exact free_mono hfree rfl | apply next_keeps | apply fault_keeps | apply State.regWrite_keeps
    | apply State.putTmr_keeps | split | dsimp only

theorem execAvailSaveTimer_keeps (hfree : msk &&& 532481 = 0) (s) (hs : was.Keeps msk s) : outKeeps msk was (execAvailSaveTimer s) := by
  unfold execAvailSaveTimer
  with_reducible repeat' first
    | assumption | exact free_mono hfree rfl | apply next_keeps | apply fault_keeps | apply State.saveAvail_keeps | split

theorem execDelayResp_keeps (hfree : msk &&& 1140853761 = 0) (p m s) (hs : was.Keeps msk s) : outKeeps msk was (execDelayResp p m s) := by
  unfold execDelayResp
  conv => zeta
  with_reducible repeat' first
    | assumption | exact free_mono hfree rfl | apply next_keeps | apply fault_keeps | apply State.setPtp_keeps | apply State.measure_keeps
    | apply State.putGt_keeps | split

theorem execPortTrainRetry_keeps (hfree : msk &&& 3221241089 = 0) (p s) (hs :
    was.Keeps msk s) : outKeeps msk was (execPortTrainRetry p s) := by
  unfold execPortTrainRetry
  with_reducible repeat' first
    | assumption | exact free_mono hfree rfl | apply next_keeps | apply fault_keeps | apply State.trainStart_keeps | split

theorem execTakeoverComplete_keeps (hfree : msk &&& 3322439677 = 0) (b s) (hs :
    was.Keeps msk s) : outKeeps msk was (execTakeoverComplete b s) := by
  unfold execTakeoverComplete
  with_reducible repeat' first
    | assumption | exact free_mono hfree rfl | apply next_keeps | apply fault_keeps | apply State.takeEnd_keeps | split

theorem execPowerOnReset_keeps (hfree : msk &&& 4294967295 = 0) (adc xa s) (hs :
    was.Keeps msk s) : outKeeps msk was (execPowerOnReset adc xa s) := by
  unfold execPowerOnReset
  conv => zeta
  with_reducible repeat' first
    | assumption | exact free_mono hfree rfl | apply next_keeps | apply fault_keeps | apply State.powerOff_keeps
    | apply State.wideClear_keeps | apply State.putRst_keeps | apply State.powerUp_keeps | apply State.relieve_keeps | split

theorem execTbyInjUe_keeps (hfree : msk &&& 128 = 0) (t s) (hs : was.Keeps msk s) : outKeeps msk was (execTbyInjUe t s) := by
  unfold execTbyInjUe
  with_reducible repeat' first | assumption | exact free_mono hfree rfl | apply next_keeps | apply fault_keeps | apply State.modStack_keeps

theorem execExpClrCnt_keeps (hfree : msk &&& 1 = 0) (b s) (hs : was.Keeps msk s) : outKeeps msk was (execExpClrCnt b s) := by
  unfold execExpClrCnt
  with_reducible repeat' first | assumption | exact free_mono hfree rfl | apply next_keeps | apply fault_keeps | apply State.expClear_keeps

theorem execLogEvents_keeps (hfree : msk &&& 3330146303 = 0) (i s) (hs : was.Keeps msk s) : outKeeps msk was (execLogEvents i s) := by
  unfold execLogEvents
  with_reducible repeat' first
    | assumption | exact free_mono hfree rfl | apply next_keeps | apply fault_keeps | apply State.takeAs_keeps
    | apply State.cmdLogEvents_keeps

theorem execTrsNackReceive_keeps (hfree : msk &&& 3221259265 = 0) (p frame s) (hs :
    was.Keeps msk s) : outKeeps msk was (execTrsNackReceive p frame s) := by
  unfold execTrsNackReceive
  conv => zeta
  with_reducible repeat' first
    | assumption | exact free_mono hfree rfl | apply next_keeps | apply fault_keeps | apply State.recvFrame_keeps
    | apply State.incSat_keeps | apply State.resend_keeps | refine fst_keeps ?_ (by assumption) | refine snd_keeps ?_ (by assumption)
    | split

theorem execResetNLowCore_keeps (hfree : msk &&& 1982359453 = 0) (s) (hs : was.Keeps msk s) : outKeeps msk was (execResetNLowCore s) := by
  unfold execResetNLowCore
  conv => zeta
  with_reducible repeat' first
    | assumption | exact free_mono hfree rfl | apply next_keeps | apply fault_keeps | apply State.addCause_keeps
    | apply State.coreClear_keeps | apply State.putRst_keeps | split

theorem execJobStart_keeps (hfree : msk &&& 2214928397 = 0) (i s) (hs : was.Keeps msk s) : outKeeps msk was (execJobStart i s) := by
  unfold execJobStart
  with_reducible repeat' first
    | assumption | exact free_mono hfree rfl | apply next_keeps | apply fault_keeps | apply State.takeAs_keeps
    | apply State.cmdStart_keeps

theorem execBenchPcWrite_keeps (hfree : msk &&& 1 = 0) (b t v s) (hs : was.Keeps msk s) : outKeeps msk was (execBenchPcWrite b t v s) := by
  unfold execBenchPcWrite
  with_reducible repeat' first | assumption | exact free_mono hfree rfl | apply next_keeps | apply fault_keeps | apply State.pcWrite_keeps

theorem execMoveExpand_keeps (hfree : msk &&& 3321915293 = 0) (b c rs t dir sg cnt rop rsv s) (hs :
    was.Keeps msk s) : outKeeps msk was (execMoveExpand b c rs t dir sg cnt rop rsv s) := by
  unfold execMoveExpand
  with_reducible repeat' first | assumption | exact free_mono hfree rfl | apply next_keeps | apply fault_keeps | apply State.moveIssue_keeps

theorem execDoeDiscovery_keeps (hfree : msk &&& 2147483648 = 0) (idx s) (hs :
    was.Keeps msk s) : outKeeps msk was (execDoeDiscovery idx s) := by
  unfold execDoeDiscovery
  with_reducible repeat' first
    | assumption | exact free_mono hfree rfl | apply next_keeps | apply fault_keeps | apply State.send_keeps | split

theorem execMin_keeps (hfree : msk &&& 3288344345 = 0) (b c rd rs1 rs2 i imm rsv s) (hs :
    was.Keeps msk s) : outKeeps msk was (execMin b c rd rs1 rs2 i imm rsv s) := by
  unfold execMin
  with_reducible repeat' first
    | assumption | exact free_mono hfree rfl | apply next_keeps | apply fault_keeps | apply ok_keeps | apply State.alu_keeps

theorem execTbase_keeps (hfree : msk &&& 3288344345 = 0) (b c t rs1 imm rsv s) (hs :
    was.Keeps msk s) : outKeeps msk was (execTbase b c t rs1 imm rsv s) := by
  unfold execTbase
  with_reducible repeat' first
    | assumption | exact free_mono hfree rfl | apply next_keeps | apply fault_keeps | apply ok_keeps | apply State.issue_keeps
    | apply State.done_keeps | apply State.setT_keeps | (intro _; intros; try beta_reduce)

theorem execThreadStart_keeps (hfree : msk &&& 67108873 = 0) (b t s) (hs : was.Keeps msk s) : outKeeps msk was (execThreadStart b t s) := by
  unfold execThreadStart
  with_reducible repeat' first | assumption | exact free_mono hfree rfl | apply next_keeps | apply fault_keeps | apply State.setStart_keeps

theorem execVfma_keeps (hfree : msk &&& 3288344345 = 0) (b c vd va vb vc p fmt _fn s) (hs :
    was.Keeps msk s) : outKeeps msk was (execVfma b c vd va vb vc p fmt _fn s) := by
  unfold execVfma
  with_reducible repeat' first
    | assumption | exact free_mono hfree rfl | apply next_keeps | apply fault_keeps | apply ok_keeps | apply State.vecLanes_keeps

theorem execDeskDDiscard_keeps (hfree : msk &&& 3288344345 = 0) (b c d set j n t rsv s) (hs :
    was.Keeps msk s) : outKeeps msk was (execDeskDDiscard b c d set j n t rsv s) := by
  unfold execDeskDDiscard
  with_reducible repeat' first | assumption | exact free_mono hfree rfl | apply next_keeps | apply fault_keeps | apply State.deskIssue_keeps

theorem execBeq_keeps (hfree : msk &&& 3288344345 = 0) (b c rs1 rs2 imm rsv s) (hs :
    was.Keeps msk s) : outKeeps msk was (execBeq b c rs1 rs2 imm rsv s) := by
  unfold execBeq
  with_reducible repeat' first
    | assumption | exact free_mono hfree rfl | apply next_keeps | apply fault_keeps | apply ok_keeps | apply State.branch_keeps

theorem execLayerAbortArrival_keeps (hfree : msk &&& 3288336137 = 0) (b t s) (hs :
    was.Keeps msk s) : outKeeps msk was (execLayerAbortArrival b t s) := by
  unfold execLayerAbortArrival
  conv => zeta
  with_reducible repeat' first
    | assumption | exact free_mono hfree rfl | apply next_keeps | apply fault_keeps | apply State.syncSend_keeps
    | apply State.syncEvent_keeps | apply State.setFld_keeps | apply State.modCtx_keeps | refine fst_keeps ?_ (by assumption)
    | refine snd_keeps ?_ (by assumption) | split

theorem execTrsNackTimer_keeps (hfree : msk &&& 3221259265 = 0) (i g round s) (hs :
    was.Keeps msk s) : outKeeps msk was (execTrsNackTimer i g round s) := by
  unfold execTrsNackTimer
  conv => zeta
  with_reducible repeat' first
    | assumption | exact free_mono hfree rfl | apply next_keeps | apply fault_keeps | apply State.nack_keeps | split

theorem execAnnounceReceiptTimeout_keeps (hfree : msk &&& 2049 = 0) (p s) (hs :
    was.Keeps msk s) : outKeeps msk was (execAnnounceReceiptTimeout p s) := by
  unfold execAnnounceReceiptTimeout
  conv => zeta
  with_reducible repeat' first
    | assumption | exact free_mono hfree rfl | apply next_keeps | apply fault_keeps | apply State.bmca_keeps | apply State.putGt_keeps
    | split

theorem execGetVersion_keeps (hfree : msk &&& 2155872256 = 0) (mctp src req s) (hs :
    was.Keeps msk s) : outKeeps msk was (execGetVersion mctp src req s) := by
  unfold execGetVersion
  with_reducible repeat' first
    | assumption | exact free_mono hfree rfl | apply next_keeps | apply fault_keeps | apply State.answerSpdm_keeps
    | apply State.setTranscript_keeps | split

theorem execExpanderBlockComplete_keeps (hfree : msk &&& 3321890189 = 0) (b s) (hs :
    was.Keeps msk s) : outKeeps msk was (execExpanderBlockComplete b s) := by
  unfold execExpanderBlockComplete
  with_reducible repeat' first | assumption | exact free_mono hfree rfl | apply next_keeps | apply fault_keeps | apply State.expStep_keeps

theorem execTmrRd_keeps (hfree : msk &&& 3321915293 = 0) (v addr n s) (hs : was.Keeps msk s) : outKeeps msk was (execTmrRd v addr n s) := by
  unfold execTmrRd
  with_reducible repeat' first
    | assumption | exact free_mono hfree rfl | apply next_keeps | apply fault_keeps | apply State.requestIn_keeps | split

theorem execSt_keeps (hfree : msk &&& 3330080767 = 0) (b c rd rs1 imm rsv s) (hs :
    was.Keeps msk s) : outKeeps msk was (execSt b c rd rs1 imm rsv s) := by
  unfold execSt
  conv => zeta
  with_reducible repeat' first
    | assumption | exact free_mono hfree rfl | apply next_keeps | apply fault_keeps | apply State.issue_keeps | apply State.illegal_keeps
    | apply State.block_keeps | apply State.storeNear_keeps | apply State.done_keeps | apply State.storeSend_keeps
    | (intro _; intros; try beta_reduce) | split

theorem execLayerAbortTimeout_keeps (hfree : msk &&& 3338684301 = 0) (w s) (hs :
    was.Keeps msk s) : outKeeps msk was (execLayerAbortTimeout w s) := by
  unfold execLayerAbortTimeout
  conv => zeta
  with_reducible repeat' first
    | assumption | exact free_mono hfree rfl | apply next_keeps | apply fault_keeps | apply State.closeWord_keeps | split

theorem execDeskMergeStart_keeps (hfree : msk &&& 3288344345 = 0) (b d x s) (hs :
    was.Keeps msk s) : outKeeps msk was (execDeskMergeStart b d x s) := by
  unfold execDeskMergeStart
  with_reducible repeat' first
    | assumption | exact free_mono hfree rfl | apply next_keeps | apply fault_keeps | apply State.mergeStart_keeps

theorem execSra_keeps (hfree : msk &&& 3288344345 = 0) (b c rd rs1 rs2 i imm rsv s) (hs :
    was.Keeps msk s) : outKeeps msk was (execSra b c rd rs1 rs2 i imm rsv s) := by
  unfold execSra
  with_reducible repeat' first
    | assumption | exact free_mono hfree rfl | apply next_keeps | apply fault_keeps | apply ok_keeps | apply State.alu_keeps

theorem execEnd_keeps (hfree : msk &&& 3321939085 = 0) (p frame s) (hs : was.Keeps msk s) : outKeeps msk was (execEnd p frame s) := by
  unfold execEnd
  conv => zeta
  with_reducible repeat' first
    | assumption | exact free_mono hfree rfl | apply next_keeps | apply fault_keeps | apply State.recvControl_keeps
    | apply State.modPart_keeps | apply State.joinEnd_keeps | apply State.dropXfer_keeps | apply State.listBlocks_keeps
    | refine fst_keeps ?_ (by assumption) | refine snd_keeps ?_ (by assumption) | split

end Sys2Proof.Machine
end

