-- ==== Sys2Proof/WellFormed.lean ====
section
/-!
DEFINITION. Which commands can come: operands within the ranges that the spec gives the quantities they stand for.
-/
namespace Sys2Proof

/-- The fields of a transaction's header have their widths (10 R287, R298, R302). -/
def Via.wf (v : Via) : Bool :=
  decide (v.src < 2 ^ 14) && decide (v.dest < 2 ^ 14) && decide (v.tc < 8) && decide (v.epoch < 256) &&
    decide (v.seq < 2 ^ 24) && decide (v.port < 36) && decide (v.hops < 16)

/-- The fields of a requester's identity have their ranges (10 R310, 11 R340). -/
def Who.wf (w : Who) : Bool := decide (w.kind < 8) && decide (w.bench < 800) && decide (w.ctx < 4)

/-- A local address has 50 bits (10 R287). -/
def localWf (a : Nat) : Bool := decide (a < 2 ^ 50)

/-- A transaction carries 1 to 256 bytes of one 256 B block (10 R295). -/
def sizeWf (a n : Nat) : Bool := decide (1 ≤ n) && decide (a % 256 + n ≤ 256)

/-- Errors that strike codewords: the codeword's first byte lies in the Tallboys or their alternate view, the symbol is among
the 38 of a codeword, and it changes by a 16-bit value (09 R268, R270). -/
def flipsWf (l : List (Nat × Nat × Nat)) : Bool :=
  l.all (fun p => decide (p.1 < 0x18000000000) && decide (p.2.1 < 38) && decide (p.2.2 < 2 ^ 16))

/-- A far frame has 64 bytes of header, a body and 16 of tag, in at most 4,320 (12 R358). -/
def frameWf (f : Bytes) : Bool := decide (80 ≤ f.length) && decide (f.length ≤ 4320)

/-- A time message's domain and sequence number have their widths (14 R411). -/
def PtpMsg.wf (m : PtpMsg) : Bool := decide (m.domain < 256) && decide (m.seq < 2 ^ 16)

/-- The operands of a command lie within their ranges. -/
def Instr.wf : Instr → Bool
  | .registerWrite who a n _ => who.wf && localWf a && decide (n ≤ 8)
  | .nop _ _ _ _ => true
  | .yield _ _ _ _ => true
  | .defer _ _ _ _ => true
  | .deferPush _ _ => true
  | .deferFlush _ _ _ _ => true
  | .dend _ _ _ => true
  | .dwlEntryEnd _ => true
  | .stop _ _ _ => true
  | .add _ _ _ _ _ _ _ _ => true
  | .sub _ _ _ _ _ _ _ _ => true
  | .and _ _ _ _ _ _ _ _ => true
  | .or _ _ _ _ _ _ _ _ => true
  | .xor _ _ _ _ _ _ _ _ => true
  | .shl _ _ _ _ _ _ _ _ => true
  | .shr _ _ _ _ _ _ _ _ => true
  | .sra _ _ _ _ _ _ _ _ => true
  | .mul _ _ _ _ _ _ _ _ => true
  | .mulh _ _ _ _ _ _ _ _ => true
  | .div _ _ _ _ _ _ _ _ => true
  | .rem _ _ _ _ _ _ _ _ => true
  | .slt _ _ _ _ _ _ _ _ => true
  | .sltu _ _ _ _ _ _ _ _ => true
  | .min _ _ _ _ _ _ _ _ => true
  | .max _ _ _ _ _ _ _ _ => true
  | .li _ _ _ _ _ => true
  | .lih _ _ _ _ _ => true
  | .ctr _ _ _ _ => true
  | .beq _ _ _ _ _ _ => true
  | .bne _ _ _ _ _ _ => true
  | .blt _ _ _ _ _ _ => true
  | .bge _ _ _ _ _ _ => true
  | .bltu _ _ _ _ _ _ => true
  | .bgeu _ _ _ _ _ _ => true
  | .jal _ _ _ _ _ => true
  | .jalr _ _ _ _ _ _ => true
  | .ld8 _ _ _ _ _ _ => true
  | .ld16 _ _ _ _ _ _ => true
  | .ld32 _ _ _ _ _ _ => true
  | .ld64 _ _ _ _ _ _ => true
  | .scalarLoadComplete _ _ _ => true
  | .st _ _ _ _ _ _ => true
  | .tld _ _ _ _ _ => true
  | .tst _ _ _ _ _ => true
  | .tbase _ _ _ _ _ _ => true
  | .torg _ _ _ _ _ _ => true
  | .vadd _ _ _ _ _ _ _ _ _ => true
  | .vsub _ _ _ _ _ _ _ _ _ => true
  | .vmul _ _ _ _ _ _ _ _ _ => true
  | .vfma _ _ _ _ _ _ _ _ _ => true
  | .vmin _ _ _ _ _ _ _ _ _ => true
  | .vmax _ _ _ _ _ _ _ _ _ => true
  | .vdiv _ _ _ _ _ _ _ _ _ => true
  | .vsqrt _ _ _ _ _ _ _ _ _ => true
  | .vcmp _ _ _ _ _ _ _ _ _ => true
  | .vsel _ _ _ _ _ _ _ _ _ => true
  | .vred _ _ _ _ _ _ _ _ _ => true
  | .vbcast _ _ _ _ _ _ _ _ _ => true
  | .vcvt _ _ _ _ _ _ _ _ _ => true
  | .vld _ _ _ _ _ => true
  | .vst _ _ _ _ => true
  | .pset _ _ _ _ => true
  | .vexp2 _ _ _ _ _ _ _ _ _ => true
  | .vexp _ _ _ _ _ _ _ _ _ => true
  | .vlog2 _ _ _ _ _ _ _ _ _ => true
  | .vlog _ _ _ _ _ _ _ _ _ => true
  | .vrcp _ _ _ _ _ _ _ _ _ => true
  | .vrsq _ _ _ _ _ _ _ _ _ => true
  | .vsin _ _ _ _ _ _ _ _ _ => true
  | .vcos _ _ _ _ _ _ _ _ _ => true
  | .vtanh _ _ _ _ _ _ _ _ _ => true
  | .vsig _ _ _ _ _ _ _ _ _ => true
  | .deskB _ _ _ _ _ _ => true
  | .deskA _ _ _ _ _ _ _ _ _ _ => true
  | .deskDEpilogue _ _ _ _ _ _ _ _ => true
  | .deskDRaw _ _ _ _ _ _ _ _ => true
  | .deskDMerge _ _ _ _ _ _ _ _ => true
  | .deskDDiscard _ _ _ _ _ _ _ _ => true
  | .deskL _ _ _ _ => true
  | .deskLeaseGrant _ => true
  | .deskBLoadStart _ _ => true
  | .deskBLoadComplete _ _ => true
  | .deskPassStart _ _ => true
  | .deskRowCommit _ _ _ => true
  | .deskRowCheckFail _ _ _ => true
  | .deskRateWindowEnd _ _ => true
  | .deskDrainStart _ _ => true
  | .deskDrainComplete _ _ _ => true
  | .deskMergeStart _ _ _ => true
  | .deskDiscardEffect _ _ => true
  | .deskCfgWrite _ _ _ => true
  | .deskClrCnt _ _ => true
  | .deskInjDrawerCe _ _ => true
  | .deskInjParity _ _ => true
  | .deskInjResidue _ _ => true
  | .icacheFillComplete _ _ => true
  | .threadStart _ _ => true
  | .threadStopRequest _ _ => true
  | .benchPcWrite _ _ _ => true
  | .dwlIdleExpiry _ => true
  | .dwlEntryStart _ => true
  | .dwlResume _ => true
  | .moveCopy _ _ _ _ _ _ _ _ => true
  | .moveConvert _ _ _ _ _ _ _ _ => true
  | .moveTranspose _ _ _ _ _ _ _ _ => true
  | .moveWiden _ _ _ _ _ _ _ _ => true
  | .moveExpand _ _ _ _ _ _ _ _ _ => true
  | .moveComplete _ _ => true
  | .expanderBlockComplete _ => true
  | .expInjShort _ => true
  | .expClrCnt _ => true
  | .sig _ _ _ _ _ => true
  | .wait _ _ _ _ _ _ _ _ => true
  | .take _ _ _ _ _ _ => true
  | .fenceB _ _ _ => true
  | .fenceM _ _ _ => true
  | .fenceD _ _ _ => true
  | .fenceComplete _ _ => true
  | .lopen _ _ _ _ _ _ _ => true
  | .lopenAnswer v _ => v.wf
  | .lopenTimeout _ _ => true
  | .lcommit _ _ _ _ _ _ => true
  | .lcommitArrivalSend _ _ => true
  | .lcommitOutcome v _ who _ => v.wf && who.wf
  | .lcommitTimeout _ who => who.wf
  | .layerAbortArrival _ _ => true
  | .layerOpenRequest v _ who _ _ _ => v.wf && who.wf
  | .layerArrival v _ who _ => v.wf && who.wf
  | .layerAbortTimeout _ => true
  | .flagr _ _ _ _ _ _ => true
  | .flagc _ _ _ _ _ _ => true
  | .sbdRecordTake _ _ => true
  | .sbdSteprecPoll _ _ => true
  | .sbdWaitTimeout _ _ _ => true
  | .sbdUpdateStart _ => true
  | .sbdNormCollect => true
  | .sbdNormResult => true
  | .sbdPublish _ => true
  | .sbdCheckFail _ _ => true
  | .tbyInitComplete _ => true
  | .tbyAccess _ ia n wr flips => decide (ia < 0x100000000000) && decide (1 ≤ n) && decide (ia % 64 + n ≤ 64) && flipsWf flips && (match wr with | none => true | some w => w.1.length == n && w.2.length == n)
  | .tbyScrubRead _ flips => flipsWf flips
  | .tbyRowSpareComplete _ => true
  | .tbyRemapComplete _ => true
  | .tbyClrCnt _ => true
  | .tbyInjUe _ => true
  | .tbyInjCe _ => true
  | .tbyStageWrite _ => true
  | .tbyQosWrite _ _ => true
  | .portTrainComplete _ _ _ => true
  | .portTrainRetry _ => true
  | .portRetrain _ => true
  | .portDisable _ => true
  | .linkLost _ => true
  | .flitReceive _ _ _ _ => true
  | .markArrival _ => true
  | .tmrRd v addr n => v.wf && localWf addr && sizeWf addr n
  | .tmrWr v addr data be => v.wf && localWf addr && sizeWf addr data.length && be.length == data.length
  | .tmrRdc v _ data => v.wf && decide (data.bytes.length ≤ 256)
  | .tmrWrc v _ => v.wf
  | .syncResponse v _ _ => v.wf
  | .tmrRtoExpiry _ _ _ => true
  | .flowIdleExpiry _ _ => true
  | .tmrRtWrite _ _ => true
  | .tmrQuotaWrite _ _ => true
  | .counterSignal v _ who _ => v.wf && who.wf
  | .counterWait v _ who _ _ _ => v.wf && who.wf
  | .counterTake v _ who _ => v.wf && who.wf
  | .counterRestore v _ who _ => v.wf && who.wf
  | .counterStore _ _ who => who.wf
  | .notify v _ who _ _ _ => v.wf && who.wf
  | .waitBusyRetry _ _ => true
  | .waitDeadlineExpiry _ who => who.wf
  | .waitBackstopExpiry _ _ => true
  | .waitCancel v _ who => v.wf && who.wf
  | .cancelAnswer v _ => v.wf
  | .notifyResultExpiry _ who => who.wf
  | .lendStart _ => true
  | .deskUngate _ => true
  | .lendHalfRateEnd _ => true
  | .trsSnapshot _ => true
  | .trsSend _ => true
  | .trsSendComplete _ => true
  | .trsClose _ => true
  | .trsApply _ _ => true
  | .trsApplyComplete _ => true
  | .trsDataReceive _ frame => frameWf frame
  | .trsAckReceive _ frame => frameWf frame
  | .trsNackReceive _ frame => frameWf frame
  | .trsNackTimer _ _ _ => true
  | .trsLastResendTimer _ _ _ => true
  | .trsTxbufFullTimer => true
  | .trsFprintReceive _ frame => frameWf frame
  | .hello _ frame => frameWf frame
  | .trsHelloTimer => true
  | .trsPartnerSilence _ => true
  | .lineage _ frame => frameWf frame
  | .requestJoin _ frame => frameWf frame
  | .requestRepair _ frame => frameWf frame
  | .requestRecon _ frame => frameWf frame
  | .requestBlist _ frame => frameWf frame
  | .bfp _ frame => frameWf frame
  | .adelta _ frame => frameWf frame
  | .endXfer _ frame => frameWf frame
  | .ready _ frame => frameWf frame
  | .trsRequestRetry _ => true
  | .trsEnable => true
  | .trsDisable => true
  | .trsPartWrite _ _ => true
  | .trsPipelineCheckFail _ _ => true
  | .crystalFailure _ => true
  | .clkFreqWrite _ => true
  | .freqChangeComplete => true
  | .crossingOverrun _ _ _ => true
  | .gtNowLoRead who => decide (who < 4002)
  | .announce _ m => m.wf
  | .sync _ m => m.wf
  | .followUp _ m => m.wf
  | .delayReq _ m => m.wf
  | .delayResp _ m => m.wf
  | .signaling _ m => m.wf
  | .ptpMessageTimer _ _ => true
  | .ppsInEdge => true
  | .ppsSeenExpiry => true
  | .gtMeasurementTimeout => true
  | .markOutPulse => true
  | .gtSet _ => true
  | .pcieMemWrite addr data be => decide (addr.addr < 2 ^ 64) && decide (data.length ≤ 512) && be.length == data.length
  | .pcieMemRead tag addr n => decide (tag < 2 ^ 14) && decide (addr.addr < 2 ^ 64) && decide (1 ≤ n) && decide (n ≤ 4096)
  | .pcieConfigWrite _ => true
  | .mbxSubmit _ => true
  | .mbxAck _ => true
  | .mbxTake => true
  | .moduleInfo _ => true
  | .moduleStatus _ => true
  | .moduleReset _ => true
  | .jobLoad _ => true
  | .jobStart _ => true
  | .jobStop _ => true
  | .jobUnload _ => true
  | .mapModule _ => true
  | .mapRoutes _ => true
  | .mapShards _ => true
  | .numSet _ => true
  | .numElog _ => true
  | .sbdEnable _ => true
  | .sbdExport _ => true
  | .farEnable _ => true
  | .farDisable _ => true
  | .farPartner _ => true
  | .timeSet _ => true
  | .timeSource _ => true
  | .powerStatus _ => true
  | .powerCap _ => true
  | .secCert _ => true
  | .secKeyx _ => true
  | .logEvents _ => true
  | .logErrcopy _ => true
  | .fwStage _ => true
  | .fwActivate _ => true
  | .commandComplete _ => true
  | .eventAccept _ => true
  | .msixHoldoffExpiry _ => true
  | .mctpControl _ _ => true
  | .getSensorReading _ sensor _ => decide (sensor < 2 ^ 16)
  | .pldmFwUpdate _ _ => true
  | .mctpVendorMailbox _ body => decide (body.length ≤ 256)
  | .getVersion _ _ _ => true
  | .getCapabilities _ _ _ => true
  | .negotiateAlgorithms _ _ _ => true
  | .getDigests _ _ _ => true
  | .getCertificate _ _ _ _ _ _ => true
  | .challenge _ _ _ _ => true
  | .getMeasurements _ _ _ _ _ => true
  | .spdmUnsupportedRequest _ _ => true
  | .takeoverStart _ => true
  | .takeoverWaitExpiry _ => true
  | .takeoverComplete _ => true
  | .hutchLockstepMismatch _ => true
  | .availSaveTimer => true
  | .powerOnReset _ _ => true
  | .systemReset _ => true
  | .coreReset => true
  | .rstBootGo => true
  | .bootWatchdogExpiry => true
  | .resetNLowCore => true
  | .resetNLowSystem => true
  | .resetNRelease _ => true
  | .resetNDriveEnd => true
  | .perstAssert => true
  | .pcieHotReset => true
  | .thermalTrip => true
  | .thermalRecover _ _ => true
  | .busbarUndervoltage => true
  | .busbarOvervoltage => true
  | .busbarVoltageRecover _ _ => true
  | .busbarOvercurrent => true
  | .hotswapRetry _ _ => true
  | .presentNBreak => true
  | .powerManagerStep doms _ _ => doms.length == 27
  | .pwrCapWrite _ => true
  | .ppsOutClaim _ => true
  | .calMarkClaim _ => true
  | .dbgTriggerClaim _ => true
  | .alarmSweepClaim _ => true
  | .alarmSweep => true
  | .clkTrimSettled => true
  | .gtCorrectionSpent => true
  | .gtUncertaintyLimit => true
  | .trsRoundBegin => true
  | .waitQuotaTimeout _ _ => true
  | .i3cDynamicAddress _ => true
  | .pldmDiscovery _ _ => true
  | .doeDiscovery _ => true
  | .announceReceiptTimeout _ => true
  | .pcieLinkUp rate width => [2, 5, 8, 16, 32, 64, 128].contains rate.rate && [1, 2, 4].contains width.val
  | .sensorThresholdCrossing sensor die _ => decide (1 ≤ sensor) && decide (sensor ≤ 33) && decide (7 ≤ die) && decide (die ≤ 33)

end Sys2Proof
end

