-- ==== Sys2Proof/Tests/Slice0.lean ====
section
/-!
SUPPORT. The model's own tests: states and operands that meet the hypotheses of the statements, ill-formed commands, and
single steps whose results are worked by hand from the spec.
-/
namespace Sys2Proof.Tests
open Sys2Proof.Machine

set_option Elab.async false

/-! ### What a read of the Shelf of Bench 0 gives -/

theorem read_add (m : Memory) (a x y : Nat) : m.read a (x + y) = m.read a x ++ m.read (a + x) y := by
  simp only [Memory.read, List.range_add, List.map_append, List.map_map]
  congr 1
  apply List.map_congr_left
  intro i _
  simp [Nat.add_assoc]

theorem pieces_read (m : Memory) : ∀ (k a n : Nat), a % 256 = 0 → n ≤ 256 * k →
    (pieces256 k a n).flatMap (fun q => m.read q.1 q.2) = m.read a n ∧ ∀ q ∈ pieces256 k a n, a ≤ q.1 ∧ q.1 < a + n := by
  intro k
  induction k with
  | zero =>
    intro a n _ hn
    obtain rfl : n = 0 := by omega
    simp [pieces256, Memory.read]
  | succ k ih =>
    intro a n ha hn
    unfold pieces256
    by_cases h0 : n = 0
    · subst h0; simp [Memory.read]
    · simp only [h0, if_false, ha]
      by_cases h : n ≤ 256
      · have hm : min n (256 - 0) = n := by omega
        have hp : pieces256 k (a + n) (n - n) = [] := by cases k <;> simp [pieces256]
        simp only [hm, hp, List.flatMap_cons, List.flatMap_nil, List.append_nil, List.mem_singleton]
        refine ⟨trivial, ?_⟩
        rintro q rfl
        constructor <;> simp only <;> omega
      · have hm : min n (256 - 0) = 256 := by omega
        obtain ⟨h1, h2⟩ := ih (a + 256) (n - 256) (by omega) (by omega)
        have e : n = 256 + (n - 256) := by omega
        simp only [hm, List.flatMap_cons, h1]
        refine ⟨by conv_rhs => rw [e, read_add], ?_⟩
        intro q hq
        rcases List.mem_cons.1 hq with rfl | hq
        · constructor <;> simp only <;> omega
        · have := h2 q hq; omega

theorem fold_reads {s : State} {f : State × List Byte × Bool × Bool → Nat × Nat → State × List Byte × Bool × Bool} {l : List (Nat × Nat)}
    (hf : ∀ q ∈ l, ∀ acc psn, ∃ psn', f (s, acc, true, psn) q = (s, acc ++ s.mem.read q.1 q.2, true, psn')) :
    ∀ acc psn, ∃ psn', l.foldl f (s, acc, true, psn) = (s, acc ++ l.flatMap (fun q => s.mem.read q.1 q.2), true, psn') := by
  induction l with
  | nil => intro acc psn; exact ⟨psn, by simp⟩
  | cons q l ih =>
    intro acc psn
    obtain ⟨p1, h1⟩ := hf q List.mem_cons_self acc psn
    obtain ⟨p2, h2⟩ := ih (fun x hx => hf x (List.mem_cons_of_mem _ hx)) (acc ++ s.mem.read q.1 q.2) p1
    exact ⟨p2, by rw [List.foldl_cons, h1, h2, List.flatMap_cons, List.append_assoc]⟩

theorem fold_all {s : State} {f : State × List Byte × Bool × Bool → Nat × Nat → State × List Byte × Bool × Bool} {l : List (Nat × Nat)}
    {g : List Byte} (hg : l.flatMap (fun q => s.mem.read q.1 q.2) = g)
    (hf : ∀ q ∈ l, ∀ acc psn, ∃ psn', f (s, acc, true, psn) q = (s, acc ++ s.mem.read q.1 q.2, true, psn')) :
    ∃ psn, (let r := l.foldl f (s, [], true, false); (r.1, r.2.1, r.2.2.1, r.2.2.2)) = (s, g, true, psn) := by
  obtain ⟨p, h⟩ := fold_reads hf [] false
  exact ⟨p, by simp only [h, List.nil_append, hg]⟩

theorem shelf_loc {a : Nat} (h : 0x1000000000000 ≤ a) (h' : a < 0x1000000300000) : locOf a = .shelf 0 (a - 0x1000000000000) := by
  have a1 : ¬ a < viewSize := by simp only [viewSize]; omega
  have a2 : ¬ (0x100000000000 ≤ a ∧ a < 0x120000000000) := by omega
  have a3 : 0x1000000000000 ≤ a ∧ a < 0x1000000000000 + 800 * 0x400000 := by omega
  have a4 : (a - 0x1000000000000) % 0x400000 < shelfSize := by simp only [shelfSize]; omega
  have a5 : (a - 0x1000000000000) / 0x400000 = 0 := by omega
  have a6 : (a - 0x1000000000000) % 0x400000 = a - 0x1000000000000 := by omega
  simp only [a6] at a4
  simp only [locOf, a1, a2, a3, a4, a5, a6, if_true, if_false, and_self]

theorem shelf_read (s : State) (n : Nat) (hn : n ≤ 0x300000) (hl : s.lost = []) :
    s.fwRead 0x1000000000000 n = (s, some (s.mem.read 0x1000000000000 n)) := by
  obtain ⟨h1, h2⟩ := pieces_read s.mem (n / 256 + 2) 0x1000000000000 n (by decide) (by omega)
  have h : ∃ psn, s.memRead 7 0x1000000000000 n = (s, s.mem.read 0x1000000000000 n, true, psn) := by
    unfold State.memRead
    apply fold_all h1
    intro q hq acc psn
    have hq := h2 q hq
    have hk : shelfKey 0 (q.1 - 0x1000000000000) = q.1 := by simp only [shelfKey]; omega
    refine ⟨psn || (s.poisoned 0 (q.1 - 0x1000000000000) q.2).isSome, ?_⟩
    simp [State.takeLost, hl, shelf_loc hq.1 (by omega), State.shelfRead, hk]
  obtain ⟨psn, h⟩ := h
  unfold State.fwRead
  rw [h]
  rfl

theorem byte_zero {m : Memory} {x : Nat} (h : ∀ c ∈ m, c.1 ≠ x) : m.byte x = 0 := by
  induction m with
  | nil => rfl
  | cons c r ih =>
    rw [Memory.byte, if_neg (Ne.symm (h c List.mem_cons_self)), ih (fun d hd => h d (List.mem_cons_of_mem _ hd))]

theorem read_zeros {m : Memory} {a n : Nat} (h : ∀ c ∈ m, c.1 < a ∨ a + n ≤ c.1) : m.read a n = List.replicate n 0 := by
  apply List.ext_getElem (by simp [Memory.read])
  intro i h1 h2
  have hi : i < n := by simpa [Memory.read] using h1
  have hb : m.byte (a + i) = 0 := byte_zero (fun c hc => by have := h c hc; omega)
  simp [Memory.read, hb]

theorem zeros_le (n : Nat) : ofLe (List.replicate n 0) = 0 := by
  induction n with
  | zero => rfl
  | succ n ih => rw [List.replicate_succ]; simp only [ofLe, ih]; rfl

theorem zeros_field (n i k : Nat) : field (List.replicate n 0) i k = 0 := by
  rw [field, List.drop_replicate, List.take_replicate, zeros_le]

/-! ### Small states -/

/-- The module on (17 R470), with nothing done yet. -/
def on : State := State.reset.putRst { Rst.reset with on := true, why := [] }

/-- Context `c` of Bench 3 runs: a thread, or the DWL context with an entry that borrows Desks 0 and 1; the line of address 0 is in the instruction cache. -/
def running (c : Ctx) : State :=
  let s := on.modBench 3 (fun x => { x with icache := [0] })
  match c with
  | .D => (s.setFld (A.benchDwlStat 3) F.benchDwlStat.RUNNING 1).modBench 3 (fun x => { x with entry := some ⟨0x2FE000, 3, 0, 0⟩ })
  | _ => s.setFld (A.benchThr 3 c.idx) F.benchThr.STATE 1

/-- Thread F of Bench 3 runs with two scalar registers set. -/
def regs2 (x y : Word) : State := ((running .F).setS 3 .F 5 x).setS 3 .F 6 y

/-- What a completed command leaves of a state. -/
def after {α : Type} (o : Out) (f : State → α) : Option α :=
  match o with
  | .next t => some (f t)
  | _ => none

/-- The descriptor of a tile: offset, format, rows, columns, stride in bytes. -/
def desc (base fmt rows cols stride : Nat) : Nat := base + fmt * 2 ^ 22 + rows * 2 ^ 32 + cols * 2 ^ 48 + stride * 2 ^ 64

/-! ### The machine and its canonical form -/

theorem witness_stepTakesFront : (on.putPending [.coreReset, .trsDisable]).pending = .coreReset :: [.trsDisable] := by decide

theorem witness_emptyQueueTicks : on.canonical ∧ on.pending = [] ∧ State.reset.rst.on = false ∧ State.reset.canonical := by decide

theorem witness_steps : (on.putPending [.trsDisable]).canonical ∧ completes (step (on.putPending [.trsDisable])) :=
  ⟨by decide, _, rfl⟩

theorem witness_commandPieces : on.canonical ∧ completes (exec .trsDisable on) := ⟨by decide, _, rfl⟩

/-! ### Scalar instructions -/

theorem witness_scalarAlu :
    (running .F).issues 3 .F (aluForm true 31 5 6 false 0) = true ∧ (running .D).issues 3 .D (aluForm true 7 0 1 true 0) = true ∧
      (running .B).issues 3 .B (aluForm false 0 31 31 false 0) = true := by decide

theorem witness_scalarMoves :
    (running .F).issues 3 .F { sregs := [31], rsv := (0 : BitVec 8).toNat } = true ∧ (running .D).issues 3 .D {} = true := by decide

theorem witness_branches :
    (running .B).issues 3 .B { sregs := [5, 6], rsv := (0 : BitVec 8).toNat } = true ∧
      (running .D).issues 3 .D { sregs := [7], rsv := (0 : BitVec 8).toNat } = true ∧
      (running .F).issues 3 .F { sregs := [0, 31], rsv := (0 : BitVec 8).toNat } = true := by decide

/-- At the last 32 B of the Shelf. -/
theorem witness_descriptors : (regs2 0x2FFFE0 0).issues 3 .F { sregs := [5], tregs := [15], rsv := (0 : BitVec 8).toNat } = true ∧
    (0x2FFFE0 : Nat) = ((regs2 0x2FFFE0 0).s 3 .F 5).toNat ∧ 0x2FFFE0 % 32 = 0 ∧ 0x2FFFE0 + 32 ≤ 3 * 2 ^ 20 ∧
    (regs2 0x2FFFE0 0).pendingAt 3 0x2FFFE0 32 = false := by decide

theorem witness_illegalStops :
    (regs2 1 0x1F).atIssue 3 .F = true ∧ [4, 5, 6].any ((regs2 1 0x1F).loading 3 .F) = false ∧ (0xFF : Byte) ≠ 0x01 ∧ Ctx.F ≠ .D ∧
      (0x80 : BitVec 8) ≠ 0 ∧ (regs2 1 0x1F).effAddr 3 .F 5 0 % 8 ≠ 0 ∧
      (regs2 1 0x1F).storeAddr 3 .F 5 0x40000000 % storeWidth 0x40000000 ≠ 0 ∧ ((regs2 1 0x1F).s 3 .F 6).toNat % 32 ≠ 0 ∧
      (running .D).atIssue 3 .D = true ∧ [8, 0, 7].any ((running .D).loading 3 .D) = false ∧ 8 ≤ (8 : Fin 32).val := by decide

/-- The last 8 B of the Bench's own Shelf; a byte of the next Bench's Shelf; a store of 8 B to it. -/
def ownEnd : Word := 0xFFFC000000000000 + 0x1000000000000 + 3 * 0x400000 + 0x2FFFF8
def nextShelf : Word := 0xFFFC000000000000 + 0x1000000000000 + 4 * 0x400000

theorem witness_loadsAndStores_loads : ∀ s ∈ [regs2 ownEnd nextShelf],
    s.issues 3 .F { sregs := [7, 5], rsv := (0 : BitVec 8).toNat } = true ∧ s.effAddr 3 .F 5 0 % 8 = 0 ∧
      s.storeOpen 3 .F (s.lineKey (s.effAddr 3 .F 5 0)) = false ∧ s.ownShelf 3 (s.effAddr 3 .F 5 0) 8 = some 0x2FFFF8 ∧
      s.pendingAt 3 0x2FFFF8 8 = false ∧ s.poisoned 3 0x2FFFF8 8 = none ∧
      s.storeOpen 3 .F (s.lineKey (s.effAddr 3 .F 6 0)) = false ∧ s.ownShelf 3 (s.effAddr 3 .F 6 0) 1 = none ∧
      s.isHere (modOf (s.effAddr 3 .F 6 0)) = true := by decide

/-- An address of module 5. -/
def inFive : Word := 0x0014000000000000

theorem witness_loadsAndStores_poisoned : ∀ s ∈ [((regs2 ownEnd nextShelf).modBench 3 (fun x => { x with poison := [0x2FFFC0 / 64] })).setFld
    (A.numCtl 3) F.numCtl.TRAP 0], s.issues 3 .F { sregs := [7, 5], rsv := (0 : BitVec 8).toNat } = true ∧
      (s.poisoned 3 0x2FFFF8 8).isSome = true ∧ s.fldBit (A.numCtl 3) F.numCtl.TRAP Ctx.F.idx = false := by decide

theorem witness_loadsAndStores_far : ∀ s ∈ [regs2 inFive 0], s.issues 3 .F { sregs := [7, 5], rsv := (0 : BitVec 8).toNat } = true ∧
    s.isHere (modOf (s.effAddr 3 .F 5 0)) = false ∧ s.storeOpen 3 .F (s.lineKey (s.effAddr 3 .F 5 0)) = false ∧
    s.loadOpen 3 .F (s.lineKey (s.effAddr 3 .F 5 0)) = false ∧ s.isHere (modOf (s.storeAddr 3 .F 5 0)) = false := by decide

theorem witness_loadsAndStores_stores : ∀ s ∈ [regs2 ownEnd nextShelf],
    s.issues 3 .F { sregs := [7, 6], rsv := (0 : BitVec 8).toNat } = true ∧ storeWidth 0xC0000000 = 8 ∧
      s.storeAddr 3 .F 6 0xC0000000 % 8 = 0 ∧ s.loadOpen 3 .F (s.lineKey (s.storeAddr 3 .F 6 0xC0000000)) = false ∧
      s.isHere (modOf (s.storeAddr 3 .F 6 0xC0000000)) = true ∧ s.memReady (localOf (s.storeAddr 3 .F 6 0xC0000000)) 8 = true ∧
      s.memPending (localOf (s.storeAddr 3 .F 6 0xC0000000)) 8 = false ∧
      locOf (localOf (s.storeAddr 3 .F 6 0xC0000000)) = .shelf 4 0 ∧ s.lost = [] ∧
      s.storeOpen 3 .F (s.lineKey (s.storeAddr 3 .F 6 0xC0000000)) = false := by decide

/-- The module with its Tallboys initialised. -/
def tbyAll : State := (List.range 16).foldl (fun s k => s.setFld (A.tbyStat k) F.tbyStat.INIT 1) (regs2 0xFFFC000000000040 0xFFFD010000000000)

/-- Stores to a Tallboy, to a register (`GEO_CFG0`) and to an unmapped address. -/
theorem witness_loadsAndStores_elsewhere : ∀ s ∈ [tbyAll], s.issues 3 .F { sregs := [7, 5], rsv := (0 : BitVec 8).toNat } = true ∧
    s.storeAddr 3 .F 5 0 % 1 = 0 ∧ s.memReady (localOf (s.storeAddr 3 .F 5 0)) 1 = true ∧
      locOf (localOf (s.storeAddr 3 .F 5 0)) = .tby 64 ∧ s.writePermitted 0 64 = true ∧ s.soundAt 64 1 ∧
      locOf 0x2000000000000 = .reg 0x2000000000000 ∧ locOf 0x200000000000 = .none := by unfold State.soundAt; decide

/-- A load of the next Bench's Shelf is outstanding. -/
def loadOut : State := (regs2 ownEnd nextShelf).modCtx 3 .F (fun x => { x with loads := [⟨7, 8, nextShelf.toNat, 0, 0⟩] })

theorem witness_loadsAndStores_returns :
    loadOut.nearLoad 3 .F 7 = some ⟨7, 8, nextShelf.toNat, 0, 0⟩ ∧ 8 ∈ [1, 2, 4, 8] ∧ nextShelf.toNat % 8 = 0 ∧
      locOf (localOf nextShelf.toNat) = .shelf 4 0 ∧ loadOut.memReady (localOf nextShelf.toNat) 8 = true ∧
      loadOut.memPending (localOf nextShelf.toNat) 8 = false ∧ loadOut.poisoned 4 0 8 = none ∧ loadOut.lost = [] := by decide

/-! Values of 04 R139, worked by hand. -/

theorem test_add_wraps :
    after (exec (.add 3 .F 7 5 6 false 0 0) (regs2 0xFFFFFFFFFFFFFFFF 2)) (fun t => (t.s 3 .F 7, t.pc 3 .F)) = some (1, 8) := by decide

theorem test_sub_immediate :
    after (exec (.sub 3 .F 5 5 0 true 0xFFFFFFFF 0) (regs2 0 0)) (fun t => t.s 3 .F 5) = some 1 := by decide

theorem test_shift_uses_low_bits :
    after (exec (.shl 3 .F 7 5 6 false 0 0) (regs2 1 0x43)) (fun t => t.s 3 .F 7) = some 8 ∧
      after (exec (.sra 3 .F 7 5 6 false 0 0) (regs2 0x8000000000000000 63)) (fun t => t.s 3 .F 7) = some 0xFFFFFFFFFFFFFFFF := by
  decide

theorem test_division_by_zero :
    after (exec (.div 3 .F 7 5 6 false 0 0) (regs2 9 0)) (fun t => t.s 3 .F 7) = some 0xFFFFFFFFFFFFFFFF ∧
      after (exec (.rem 3 .F 7 5 6 false 0 0) (regs2 9 0)) (fun t => t.s 3 .F 7) = some 9 ∧
      after (exec (.div 3 .F 7 5 6 false 0 0) (regs2 0xFFFFFFFFFFFFFFF9 2)) (fun t => t.s 3 .F 7) = some 0xFFFFFFFFFFFFFFFD := by
  decide

theorem test_mulh : after (exec (.mulh 3 .F 7 5 6 false 0 0) (regs2 0xFFFFFFFFFFFFFFFF 1)) (fun t => t.s 3 .F 7) =
    some 0xFFFFFFFFFFFFFFFF := by decide

theorem test_s0_stays_zero : after (exec (.li 3 .F 0 5 0) (running .F)) (fun t => t.s 3 .F 0) = some 0 := by decide

theorem test_lih : after (exec (.lih 3 .F 5 0x12345678 0) (regs2 0xFFFFFFFF00000001 0)) (fun t => t.s 3 .F 5) =
    some 0x1234567800000001 := by decide

theorem test_branch_back :
    after (exec (.bne 3 .F 5 6 0xFFFFFFFF 0) ((regs2 1 2).setFld (A.benchPc 3 0) F.benchPc.PC 2)) (fun t => t.pc 3 .F) = some 8 := by
  decide

theorem test_jalr_clears_low_bits :
    after (exec (.jalr 3 .F 7 5 3 0) (regs2 0x104 0)) (fun t => (t.s 3 .F 7, t.pc 3 .F)) = some (8, 0x100) := by decide

theorem test_store_then_load :
    after (exec (.st 3 .F 5 6 0x40000002 0) (regs2 0xABCD (ownEnd - 8))) (fun t => t.shelfRead 3 0x2FFFF0 4) =
      some [0, 0, 0xCD, 0xAB] := by decide

theorem test_dwl_context_register : after (exec (.li 3 .D 8 1 0) (running .D)) (fun t =>
    (t.fld (A.benchDwlStat 3) F.benchDwlStat.RUNNING, t.fld (A.benchDwlStat 3) F.benchDwlStat.CAUSE)) = some (0, 0x12) := by decide

/-! ### Vector instructions, threads and the deferred list -/

/-- Thread F of Bench 3 with two vector registers, a predicate over lanes 0 and 1, and `s5` for offsets. -/
def vregs (x y : VWord) (off : Word) : State :=
  (((((running .F).setFld (A.numCtl 3) F.numCtl.TRAP 0).setV 3 .F 1 x).setV 3 .F 2 y).setP 3 .F 1 3).setS 3 .F 5 off

theorem witness_vectorArithmetic : (vregs 0 0 0).issues 3 .F (vecForm []) = true ∧ vecFmt 2 = some .gf16a ∧ vecFmt 4 = some .b32 ∧
    (vregs 0 0 0).fldBit (A.numCtl 3) F.numCtl.TRAP Ctx.F.idx = false := by decide

/-- The conversion's tile: GF16a, rounding to nearest. -/
def cvtState : State := (vregs 0 0 0).setT 3 .F 2 (BitVec.ofNat 256 (desc 0 2 1 1 64))

theorem witness_vectorMoves : cvtState.fldBit (A.numCtl 3) F.numCtl.TRAP Ctx.F.idx = false ∧
    cvtState.issues 3 .F (vecForm [5]) = true ∧ Fmt.ofElem 4 = some .b32 ∧ Fmt.ofElem ((0x522 : Nat) % 16) = some .gf16a ∧
    (0x522 : Nat) / 256 % 32 = 5 ∧ (0x522 : Nat) / 16 % 16 = 2 ∧ tileOf (cvtState.t 3 .F 2).toNat = tileOf (desc 0 2 1 1 64) ∧
    (Fmt.ofElem (tileOf (desc 0 2 1 1 64)).fmt).isSome = true ∧ (tileOf (desc 0 2 1 1 64)).usable = true ∧
    (0xFFFFFFFD : Nat) % 8 = 5 ∧ vecFmt 3 = some .gf16b := by decide

/-- At the last 512 B, and the last 32 B, of the Shelf. -/
theorem witness_vectorMemory : ∀ p ∈ [(0x2FFE00, 512, 64), (0x2FFFE0, 32, 32)],
    (0x500 : Nat) / 256 % 32 = 5 ∧ ((vregs 0 0 (BitVec.ofNat 64 p.1)).s 3 .F 5).toNat = p.1 ∧
      (vregs 0 0 (BitVec.ofNat 64 p.1)).issues 3 .F (vecForm [5]) = true ∧ p.1 % p.2.2 = 0 ∧ p.1 + p.2.1 ≤ 3 * 2 ^ 20 ∧
      (Fmt.ofCode 2).isSome = true ∧ (vregs 0 0 (BitVec.ofNat 64 p.1)).pendingAt 3 p.1 p.2.1 = false ∧
      (vregs 0 0 0).fldBit (A.numCtl 3) F.numCtl.TRAP Ctx.F.idx = false ∧
      (vregs 0 0 (BitVec.ofNat 64 p.1)).poisoned 3 p.1 p.2.1 = none := by decide

theorem witness_threadControl : on.live 3 .F = false ∧ on.rst.level = 0 ∧ (running .B).live 3 .B = true ∧
    ((running .B).ctx 3 .B).blk = none ∧ ((running .B).ctx 3 .B).stopping = none ∧ (running .B).flag (A.benchThr 3 1) F.benchThr.STOP = false ∧
    FMap.getD (running .B).cyc.wrote (A.benchThr 3 1) 0 = 0 ∧ (running .F).issues 3 .F { dwl := false } = true := by
  decide

/-- Thread F of Bench 3 is at the first line of the Shelf of Bench 4. -/
def atShelf : State := ((running .F).setFld (A.benchPc 3 0) F.benchPc.PC (nextShelf.toNat / 8)).putRst { Rst.reset with on := true }

theorem witness_threadControl_fill : atShelf.isHere (modOf nextShelf.toNat) = true ∧ atShelf.lineWanted 3 nextShelf.toNat = true ∧
    nextShelf.toNat / 64 * 64 = nextShelf.toNat ∧
    (atShelf.bench 3).icache.contains nextShelf.toNat = false ∧ (atShelf.bench 3).ifail.contains nextShelf.toNat = false ∧
    atShelf.memReady (localOf nextShelf.toNat) 64 = true ∧ atShelf.memPending (localOf nextShelf.toNat) 64 = false ∧
    locOf (localOf nextShelf.toNat) = .shelf 4 0 ∧ atShelf.lost = [] := by decide

/-- Thread F of Bench 3 names an entry image at the last 128 B of the Shelf; the list holds `n` entries. -/
def deferring (n : Nat) : State := (regs2 0x2FFF80 0).setFld (A.benchDwlStat 3) F.benchDwlStat.COUNT n

theorem witness_deferredList_defer : ∀ n ∈ [0, 63, 64],
    (deferring n).issues 3 .F { dwl := false, sregs := [5] } = true ∧ ((deferring n).s 3 .F 5).toNat = 0x2FFF80 ∧
      0x2FFF80 % 128 = 0 ∧ 0x2FFF80 < 3 * 2 ^ 20 ∧ (deferring n).dwlCount 3 = n ∧ (deferring n).pushPending 3 0x2FFF80 = false ∧
      (deferring n).flag (A.benchDwlStat 3) F.benchDwlStat.RUNNING = false := by decide

/-- The thread waits in `DEFER`. -/
def pushing : State := (deferring 63).block 3 .F (.defer 0x2FFF80)

theorem witness_deferredList_push : (pushing.ctx 3 Thr.F.ctx).blk = some (.defer (pushing.s 3 .F 5).toNat) ∧ pushing.dwlCount 3 < 64 ∧
    pushing.pushPending 3 0x2FFF80 = false := by decide

/-- The DWL context of Bench 3 runs the one entry of the list. -/
def entryRuns : State := (running .D).setFld (A.benchDwlStat 3) F.benchDwlStat.COUNT 1

theorem witness_deferredList_end : entryRuns.workDone 3 .D = true ∧ entryRuns.dwlCount 3 ≠ 0 ∧
    entryRuns.issues 3 .D { thread := false } = true ∧ ((entryRuns.block 3 .D .dend).ctx 3 .D).blk = some .dend ∧
    (entryRuns.block 3 .D .dend).workDone 3 .D = true ∧ (entryRuns.block 3 .D .dend).dwlCount 3 ≠ 0 := by decide

theorem witness_deferredList_endWaits : ∀ s ∈ [entryRuns.modDesk 3 0 (fun x => { x with queue := [⟨.load 1, .D, 0, 0, 0, 0, 0⟩] })],
    s.issues 3 .D { thread := false } = true ∧ s.workDone 3 .D = false := by decide

/-- One entry waits, of zeros but for its program's address, after the idle time. -/
def entryWaits : State :=
  ((on.setFld (A.benchDwlStat 3) F.benchDwlStat.COUNT 1).putPulse 66).shelfWrite 3 (on.dwlOff 3 0) (leBytes 8 0x1000)

theorem witness_deferredList_start : entryWaits.dwlOff 3 (entryWaits.fld (A.benchDwlStat 3) F.benchDwlStat.HEAD) = 0x2FE000 ∧
    entryWaits.entryReady 3 = true ∧ entryWaits.dwlIdle 3 = true ∧ entryWaits.shelfNum 3 0x2FE000 8 % 8 = 0 ∧
    bits (entryWaits.shelfNum 3 (0x2FE000 + 72) 8) 21 0 % 32 = 0 ∧
    bits (entryWaits.shelfNum 3 (0x2FE000 + 72) 8) 21 0 + 256 ≤ 3 * 2 ^ 20 := by decide

theorem witness_deferredList_pressed : (entryWaits.block 3 .F .flush).dwlPressed 3 = true ∧
    (entryWaits.block 3 .F .flush).entryReady 3 = true := by decide

theorem witness_deferredList_resume : ((deferring 1).setFld (A.benchDwlStat 3) F.benchDwlStat.FAULTED 1).flag (A.benchDwlStat 3)
    F.benchDwlStat.FAULTED = true ∧ ((deferring 1).setFld (A.benchDwlStat 3) F.benchDwlStat.FAULTED 1).dwlCount 3 ≠ 0 := by decide

set_option exponentiation.threshold 5000 in
set_option maxRecDepth 40000 in
/-- 1 + 1 = 2 in binary32, in lanes 0 and 1 only (04 R110). -/
theorem test_vadd : after (exec (.vadd 3 .F 3 1 2 0 1 4 0) (vregs 0x3F8000003F8000003F800000 0x3F8000003F8000003F800000 0))
    (fun t => t.v 3 .F 3) = some 0x4000000040000000 := by decide

set_option exponentiation.threshold 5000 in
set_option maxRecDepth 40000 in
/-- 1 / 0 in binary32 is +infinity and sets O, not X (02). -/
theorem test_vdiv_by_zero : after (exec (.vdiv 3 .F 3 1 2 0 1 4 0) (vregs 0x3F8000003F800000 0 0))
    (fun t => (t.v 3 .F 3, t.rd (A.numVflag 3))) = some (0x7F8000007F800000, 8) := by decide

set_option exponentiation.threshold 5000 in
set_option maxRecDepth 40000 in
theorem test_vcmp_lt : after (exec (.vcmp 3 .F 0 1 2 0 2 4 2) (vregs 0x3F800000 0x4000000040000000 0))
    (fun t => (t.p 3 .F 2).getLsbD 0 && (t.p 3 .F 2).getLsbD 1 && !(t.p 3 .F 2).getLsbD 2) = some true := by decide

/-- `VST` at an offset that is no multiple of 64 is illegal (04 R140). -/
theorem test_vst_misaligned : after (exec (.vst 3 .F 1 ⟨0, 4, 0x500⟩) (vregs 0 0 32)) (fun t => t.fld (A.benchThr 3 0) F.benchThr.CAUSE) =
    some 0x13 := by decide

theorem test_stop : after (exec (.stop 3 .F 0) (running .F)) (fun t =>
    (t.fld (A.benchThr 3 0) F.benchThr.STATE, t.fld (A.benchThr 3 0) F.benchThr.CAUSE, t.pc 3 .F)) = some (0, 1, 8) := by decide

theorem test_pc_write_while_running : after (exec (.benchPcWrite 3 .F 0x40) (running .F)) (fun t => t.pc 3 .F) = some 0 := by decide

/-! ### Desks -/

/-- Thread F of Bench 3 holds Desk 0; its tile registers 1 and 2 hold a GF16a tile of 128 × 96 and a binary32 tile of 128 × 96. -/
def leased : State :=
  (((running .F).setCode2 (A.benchLease 3) F.benchLease.HOLD 0 1).setT 3 .F 1 (BitVec.ofNat 256 (desc 0 2 128 96 192))).setT 3 .F 2
    (BitVec.ofNat 256 (desc 0x10000 4 128 96 384))

theorem witness_deskInstructions : leased.issues 3 .F { tregs := [1] } = true ∧ leased.issues 3 .F { tregs := [2] } = true ∧
    tileOf (leased.t 3 .F 1).toNat = tileOf (desc 0 2 128 96 192) ∧
    decide ((Fmt.ofElem (tileOf (desc 0 2 128 96 192)).fmt).isSome ∧ (tileOf (desc 0 2 128 96 192)).usable ∧
      (tileOf (desc 0 2 128 96 192)).epilogueUsable ∧ 127 + 1 ≤ (tileOf (desc 0 2 128 96 192)).rows ∧
      95 + 1 ≤ (tileOf (desc 0 2 128 96 192)).cols) = true ∧
    decide ((tileOf (desc 0x10000 4 128 96 384)).usable ∧ (tileOf (desc 0x10000 4 128 96 384)).fmt = 4 ∧
      (tileOf (desc 0x10000 4 128 96 384)).cols = 96 ∧ 127 + 1 ≤ (tileOf (desc 0x10000 4 128 96 384)).rows) = true ∧
    leased.mayUse 3 .F 0 = true ∧ leased.mustWait 3 .F 0 = false := by decide

theorem witness_deskInstructions_lease : leased.issues 3 .F { dwl := false } = true ∧
    leased.code2 (A.benchLease 3) F.benchLease.HOLD 0 = Ctx.F.code ∧ leased.code2 (A.benchLease 3) F.benchLease.HOLD 3 ≠ Ctx.F.code ∧
    leased.leaseWait 3 (otherThr .F).ctx = none ∧ (leased.block 3 .F (.lease 9 0)).leaseWait 3 .F = some 9 ∧
    (leased.block 3 .F (.lease 9 0)).leaseWait 3 (otherThr .F).ctx = none ∧ (leased.block 3 .F (.lease 9 0)).grantable 3 .F 9 = true := by
  decide

/-- A Desk instruction of thread F on a descriptor. -/
def ent (op : DeskOp) (d : Nat) : DeskEnt := ⟨op, .F, 0, d, 0, 0, 0⟩

def loadE : DeskEnt := ent (.load 1) (desc 0 2 128 96 192)
def passE : DeskEnt := ent (.pass 1 0 0 31 1 96) (desc 0 2 128 96 192)
def drainE : DeskEnt := ent (.drain true 0 31 1) (desc 0x10000 4 1 96 384)
def epilogueE : DeskEnt := ent (.drain false 0 31 1) (desc 0x10000 2 1 95 192)
def mergeE : DeskEnt := ent (.merge 0 31 1 0) (desc 0x10000 4 1 96 384)
def discardE : DeskEnt := ent (.discard 0 0 32) 0

/-- The module with its Desks sized (03 R75), and an instruction at the head of the queue of Desk 0 of Bench 3. -/
def atDesk (e : DeskEnt) : State := (on.setFld (A.deskStat 3 0) F.deskStat.MAX_SETS 16).modDesk 3 0 (fun x => { x with queue := [e] })

theorem witness_deskLoad : loadE.op = .load 1 ∧ (atDesk loadE).atHead 3 0 loadE ∧ (tileOf loadE.desc).fmt ≠ 4 ∧
    ((atDesk loadE).desk 3 0).load = none ∧ ((atDesk loadE).desk 3 0).slotBusy 1 = false := by
  unfold State.atHead; decide

/-- Slot 1 of the Desk is loading. -/
def slotLoads : State := on.modDesk 3 0 (fun x => { x with load := some (1, loadE) })

theorem witness_deskLoad_complete : (slotLoads.desk 3 0).load = some (1, loadE) ∧ slotLoads.deskWorks 3 0 = true ∧
    slotLoads.tilePending 3 (tileOf loadE.desc) 128 96 = false ∧
    (∀ r < 128, slotLoads.rowPoison 3 (tileOf loadE.desc) r 96 = none) := by
  refine ⟨by decide, by decide, by decide, ?_⟩
  intro r _
  have h : (slotLoads.bench 3).poison = [] := by decide
  simp [State.rowPoison, State.poisoned, h]

/-- Slot 0 holds a GF16a block of thread F. -/
def slotHeld (s : State) : State :=
  (s.modDesk 3 0 (fun x => { x with slots := [(0, ⟨2, []⟩)] })).setCode2 (A.deskOwn 3 0) F.deskOwn.SLOT 0 1

theorem witness_deskPass : passE.op = .pass 1 0 0 31 1 96 ∧ (slotHeld (atDesk passE)).atHead 3 0 passE ∧
    (slotHeld (atDesk passE)).passCause 3 0 passE 0 0 31 1 = none ∧ ((slotHeld (atDesk passE)).desk 3 0).load = none ∧
    ((slotHeld (atDesk passE)).desk 3 0).draining = [] ∧ ((slotHeld (atDesk passE)).desk 3 0).passes = [] ∧
    (1 : Nat).testBit 0 = true ∧ ∀ q < 4, q ≠ 0 → (1 : Nat).testBit q = false := by
  unfold State.atHead; decide

/-- The pass has started. -/
def passing : State := ((slotHeld on).modDesk 3 0 (fun x => { x with passes := [⟨passE, 0⟩] })).setFld (A.numCtl 3) F.numCtl.TRAP 0

theorem witness_deskRow : passE.op = .pass (2 ^ (0 : DeskNo).val) 0 0 31 1 96 ∧ (passing.desk 3 0).passes = ⟨passE, 0⟩ :: [] ∧
    passing.deskWorks 3 0 = true ∧ passing.pendingAt 3 ((tileOf passE.desc).elem 0 0) (96 * (tileOf passE.desc).width) = false ∧
    passing.rowPoison 3 (tileOf passE.desc) 0 96 = none ∧ (passing.desk 3 0).inj = ⟨false, false, false⟩ ∧
    (passing.desk 3 0).badRows = [] ∧ (passing.desk 3 0).buf = [] ∧ passing.fldBit (A.numCtl 3) F.numCtl.TRAP Ctx.F.idx = false ∧
    (passing.desk 3 0).tries + 1 ≤ max 1 (passing.fld (A.deskCtl 3 0) F.deskCtl.RETRY) ∧
    (passing.setFld (A.deskCtl 3 0) F.deskCtl.RATE 0).fld (A.deskCtl 3 0) F.deskCtl.RATE = 0 ∧
    passing.fld (A.deskRas 3 0) F.deskRas.REPLAYS + 1 < 2 ^ F.deskRas.REPLAYS.width := by decide

/-- The second of two rows of a drain has failed twice. -/
def drainFails : State := on.modDesk 3 0 (fun x => { x with drains := [ent (.drain true 0 31 2) 0], dtries := (1, 1) })

theorem witness_deskRow_drain : (ent (.drain true 0 31 2) 0).op = .drain true 0 31 2 ∧
    (drainFails.desk 3 0).drains = ent (.drain true 0 31 2) 0 :: [] ∧ (drainFails.desk 3 0).dtries.1 ≤ (1 : Fin 256).val ∧
    drainFails.deskWorks 3 0 = true ∧ (if (drainFails.desk 3 0).dtries.1 = (1 : Fin 256).val then (drainFails.desk 3 0).dtries.2 else 0) + 1 ≤
      max 1 (drainFails.fld (A.deskCtl 3 0) F.deskCtl.RETRY) ∧ (drainFails.setFld (A.deskCtl 3 0) F.deskCtl.RATE 0).fld (A.deskCtl 3 0) F.deskCtl.RATE = 0 := by
  decide

theorem witness_deskDrains_start : ∀ e ∈ [drainE, epilogueE, discardE], (atDesk e).atHead 3 0 e ∧
    (atDesk e).drainCause 3 0 e = none ∧ ((atDesk e).desk 3 0).passInto 0 = false ∧ (atDesk e).setDraining 3 0 0 = false := by
  unfold State.atHead; decide

/-- A drain is under way. -/
def draining (e : DeskEnt) : State :=
  ((on.setFld (A.deskStat 3 0) F.deskStat.SET_OPEN 1).modDesk 3 0 (fun x => { x with drains := [e], draining := [0] })).setFld
    (A.numCtl 3) F.numCtl.TRAP 0

theorem witness_deskDrains_complete : ∀ p ∈ [(drainE, 96), (epilogueE, 95)],
    ((draining p.1).desk 3 0).drains = p.1 :: [] ∧ (draining p.1).deskWorks 3 0 = true ∧
      (draining p.1).tilePending 3 (tileOf p.1.desc) 1 p.2 = false ∧ (draining p.1).pendingAt 3 (tileOf p.1.desc).sptr
        (4 * ((tileOf p.1.desc).scaleCount ((draining p.1).deskM 3 0) + (tileOf p.1.desc).biasCount ((draining p.1).deskM 3 0))) = false ∧ ((draining p.1).desk 3 0).inj = ⟨false, false, false⟩ ∧
      ((draining p.1).desk 3 0).badRows = [] ∧ (draining p.1).fldBit (A.numCtl 3) F.numCtl.TRAP Ctx.F.idx = false := by decide

theorem witness_deskDrains_merge : mergeE.op = .merge 0 31 1 0 ∧ (atDesk mergeE).atHead 3 0 mergeE ∧
    (atDesk mergeE).drainCause 3 0 mergeE = none ∧ (atDesk mergeE).setDraining 3 0 0 = false ∧
    (atDesk mergeE).tilePending 3 (tileOf mergeE.desc) 1 96 = false ∧ (atDesk mergeE).rowPoison 3 (tileOf mergeE.desc) 0 96 = none ∧
    ((atDesk mergeE).desk 3 0).inj = ⟨false, false, false⟩ ∧ ((atDesk mergeE).desk 3 0).badRows = [] ∧
    ((atDesk mergeE).setFld (A.numCtl 3) F.numCtl.TRAP 0).fldBit (A.numCtl 3) F.numCtl.TRAP mergeE.ctx.idx = false := by
  unfold State.atHead; decide

theorem witness_deskConfigured : on.fld (A.deskStat 3 0) F.deskStat.SET_OPEN = 0 ∧ getFld 0x003 F.deskCfg.DFMT ≠ 3 ∧
    (draining drainE).fld (A.deskStat 3 0) F.deskStat.SET_OPEN ≠ 0 := by decide

theorem witness_deskTestControls : ((on.putPulse 800000).desk 3 0).winStart % 800000 = 0 ∧
    ((on.putPulse 800000).desk 3 0).winStart + 800000 ≤ (on.putPulse 800000).benchCyc 3 := by decide

theorem test_deskConfig : after (exec (.deskCfgWrite 3 0 0) (draining drainE)) (fun t =>
    (t.rd (A.deskCfg 3 0), t.fld (A.deskStat 3 0) F.deskStat.CFG_REJ)) = some (0x200, 1) := by decide

/-- `M` = 32 in binary32 leaves 16 sets, in GF48 10 (03 R75, R95). -/
theorem test_maxSets : (∀ s ∈ [on.wr (A.deskCfg 3 0) 0], setsFor (s.deskM 3 0) .b32 = 16 ∧ setsFor (s.deskM 3 0) .gf48 = 10) := by
  decide

/-- An instruction on a Desk the thread does not hold is illegal with cause 0x20 (04 R126). -/
theorem test_desk_not_held : after (exec (.deskB 3 .F 1 0 1 0) leased) (fun t => t.fld (A.benchThr 3 0) F.benchThr.CAUSE) =
    some 0x20 := by decide

/-! ### Moves and the expander -/

/-- Bytes stored into a Shelf, for the tests. -/
def withShelf (s : State) (b off : Nat) (l : List Byte) : State := s.putMem (s.mem.write (shelfKey b off) l)

/-- A far descriptor of a move (05 R151): address, stride, format. -/
def farDesc (a stride fmt : Nat) : List Byte := leBytes 8 a ++ leBytes 8 (stride + fmt * 2 ^ 40) ++ leBytes 16 0

/-- Thread F of Bench 3 names a far descriptor at the last 32 B of its Shelf, and a tile of one row of 32 elements in format `fmt`. -/
def moving (fmt : Nat) (l : List Byte) : State :=
  (withShelf (regs2 0x2FFFE0 0) 3 0x2FFFE0 l).setT 3 .F 1 (BitVec.ofNat 256 (desc 0 fmt 1 32 64))

def toNext : Nat := nextShelf.toNat

theorem witness_movesIssue : ∀ q ∈ [(moving 2 (farDesc toNext 64 0), 0, 0), (moving 2 (farDesc toNext 64 0), 0, 1), (moving 2 (farDesc toNext 64 4), 1, 0),
      (moving 2 (farDesc toNext 64 2), 2, 0), (moving 4 (farDesc toNext 64 3), 3, 0), (moving 2 (farDesc toNext 0 0), 4, 0)],
    q.1.issues 3 .F { sregs := [5], tregs := [1] } = true ∧ (q.1.s 3 .F 5).toNat = 0x2FFFE0 ∧ 0x2FFFE0 % 32 = 0 ∧
      0x2FFFE0 < 3 * 2 ^ 20 ∧ q.1.pendingAt 3 0x2FFFE0 32 = false ∧ countTrue (fun p => p.2.ctx == .F) (q.1.bench 3).moves < 16 ∧
      q.1.moveCause 3 0x2FFFE0 (q.1.moveOf 3 .F 0x2FFFE0 1 q.2.1 q.2.2 false 0) = none ∧
      (∀ p ∈ (q.1.moveOf 3 .F 0x2FFFE0 1 q.2.1 q.2.2 false 0).pieces, q.1.isHere (modOf p.1) = true) := by decide

theorem witness_movesIssue_out : ∀ s ∈ [moving 2 (farDesc toNext 64 0)], ∀ m ∈ [s.moveOf 3 .F 0x2FFFE0 1 0 1 false 0],
    (tileOf m.desc).rows = 1 ∧ s.movePending 3 (tileOf m.desc) = false ∧ s.nearReady 3 m = true ∧
      (∀ p ∈ (s.bench 3).moves, p.1 < (s.bench 3).moveNo) ∧
      s.poisoned 3 (tileOf m.desc).base ((tileOf m.desc).cols * (tileOf m.desc).width) = none ∧
      m.addr % 256 + (tileOf m.desc).cols * (tileOf m.desc).width ≤ 256 ∧ s.isHere (modOf m.addr) = true ∧ s.lost = [] ∧
      locOf (localOf m.addr) = .shelf 4 0 := by decide

theorem witness_movesIssue_pending : (((moving 2 (farDesc toNext 64 0)).modBench 3 (fun x => { x with pend := [0] })).movePending 3
    (tileOf (desc 0 2 1 32 64))) = true := by decide

/-- A move of thread F. -/
def mv (op dir d a ffmt : Nat) : Move :=
  { ctx := .F, pc := 0, desc := d, op := op, dir := dir, sg := true, cnt := 9, addr := a, fstride := 64, ffmt := ffmt, fscl := false,
    saddr := 0, sstride := 0, step := 0, seed := 0, lgen := 0, far := [], asked := [], unanswered := 0, sent := dir == 1, next := 0,
    expDone := op != 4, lost := [] }

/-- A move of Bench 3 is outstanding. -/
def moveOut (m : Move) : State :=
  (on.modBench 3 (fun x => { x with moves := [(0, m)], moveNo := 1 })).setFld (A.numCtl 3) F.numCtl.TRAP 0

/-- The 64 B of the far side came from module 5. -/
def farCame : Move := (mv 0 0 (desc 0 2 1 32 64) (5 * 2 ^ 50) 0).note (5 * 2 ^ 50) (leBytes 64 0x1234) 0

theorem witness_movesComplete_far : ∀ s ∈ [moveOut farCame], (s.bench 3).moves[0]? = some (0, farCame) ∧
    FMap.get? (s.bench 3).moves 0 = some farCame ∧ farCame.op < 4 ∧ farCame.unanswered = 0 ∧
    s.fldBit (A.numCtl 3) F.numCtl.TRAP farCame.ctx.idx = false ∧ farCame.dir = 0 ∧ s.movePending 3 (tileOf farCame.desc) = false ∧
    (∀ p ∈ farCame.pieces, s.isHere (modOf p.1) = false) ∧ farCame.failure = none ∧ (tileOf farCame.desc).rows = 1 ∧
    (tileOf farCame.desc).usable = true := by decide

theorem witness_movesComplete_near : ∀ m ∈ [mv 0 0 (desc 0 2 1 32 64) toNext 0], ∀ s ∈ [moveOut m],
    (s.bench 3).moves[0]? = some (0, m) ∧ FMap.get? (s.bench 3).moves 0 = some m ∧ m.op = 0 ∧ m.dir = 0 ∧ (tileOf m.desc).rows = 1 ∧
      (tileOf m.desc).cols * (tileOf m.desc).width ≤ 64 ∧
      localOf m.addr % 64 + (tileOf m.desc).cols * (tileOf m.desc).width ≤ 64 ∧ s.isHere (modOf m.addr) = true ∧ m.addr < 2 ^ 64 ∧
      m.lost = [] ∧ m.far = [] ∧ m.unanswered = 0 ∧ s.movePending 3 (tileOf m.desc) = false ∧ s.nearReady 3 m = true ∧
      (tileOf m.desc).usable = true ∧ locOf (localOf m.addr) = .shelf 4 0 ∧ s.fldBit (A.numCtl 3) F.numCtl.TRAP m.ctx.idx = false := by
  decide

theorem witness_movesComplete_out : ∀ m ∈ [mv 1 1 (desc 0 2 1 32 64) toNext 4], ∀ s ∈ [moveOut m],
    (s.bench 3).moves[0]? = some (0, m) ∧ FMap.get? (s.bench 3).moves 0 = some m ∧ m.op < 4 ∧ m.unanswered = 0 ∧ m.dir ≠ 0 ∧
      m.sent = true ∧ s.fldBit (A.numCtl 3) F.numCtl.TRAP m.ctx.idx = false := by decide

/-- A compressed tensor of 64 GF8a elements (05 R160 to R164): one table with two symbols of one bit, one directory entry that names
offset 208, and at 208 a block's header and payload. -/
def tensor (hdr : Nat) (pay : List Byte) : List Byte :=
  leBytes 8 0x010001 ++ leBytes 8 64 ++ leBytes 8 1 ++ leBytes 8 64 ++ leBytes 8 200 ++ leBytes 24 0 ++
    leBytes 8 0 ++ (0x11 : Byte) :: leBytes 127 0 ++ leBytes 8 208 ++ leBytes 8 hdr ++ pay

/-- An expand move of Bench 3 into a tile of 64 elements, from the Shelf of Bench 4. -/
def expandM : Move := mv 4 0 (desc 0 0 1 64 64) toNext 0
def expanding (l : List Byte) : State := withShelf (moveOut expandM) 4 0 l

def fillT : List Byte := tensor 0x5A00020000 []
/-- Payloads of zeros. -/
def storedT : List Byte := tensor 0x011000 []
def codedT : List Byte := tensor 0x000200 []

/-- What the clauses on a block ask of its header, directory and place. -/
theorem witness_expander_header : ∀ l ∈ [fillT], ∀ s ∈ [expanding l],
    (s.bench 3).moves.find? (fun p => p.2.op == 4 && !p.2.expDone) = some (0, expandM) ∧
      FMap.get? (s.bench 3).moves 0 = some expandM ∧ (tileOf expandM.desc).rows = 1 ∧ (tileOf expandM.desc).usable = true ∧
      tensorHdr (l.take 64) = some ⟨0, 1, 64, 1, 64, 200⟩ ∧ expandOk 0 (tileOf expandM.desc).fmt = true ∧ 4096 / symsPer 0 = 4096 ∧
      expandM.saddr % 2 ^ 32 + ((tileOf expandM.desc).rows * (tileOf expandM.desc).cols + 4096 - 1) / 4096 ≤ 1 ∧
      expandM.next * 4096 < (tileOf expandM.desc).rows * (tileOf expandM.desc).cols ∧ (s.bench 3).injShort = false ∧
      bits (numAt (leBytes 8 208) 0 8) 47 0 = 208 ∧ bits (numAt (leBytes 8 208) 0 8) 63 48 = 0 := by decide

theorem witness_expander_fill : ∀ s ∈ [expanding fillT], s.expRead 3 0 toNext 64 = (s, .got (fillT.take 64)) ∧
    s.expRead 3 0 (toNext + 200) 8 = (s, .got (leBytes 8 208)) ∧ s.expRead 3 0 (toNext + 208) 8 = (s, .got (leBytes 8 0x5A00020000)) ∧
    blockHdrBad 0x5A00020000 1 = false ∧ bits 0x5A00020000 23 16 = 2 := by
  decide +kernel

set_option maxRecDepth 100000 in
theorem witness_expander_stored : ∀ s ∈ [expanding storedT],
    s.expRead 3 0 (toNext + 216) 4096 = (s, .got (List.replicate 4096 0)) ∧ blockHdrBad 0x011000 1 = false ∧
    bits 0x011000 23 16 = 1 ∧ bits 0x011000 15 0 = 4096 := by decide +kernel

set_option maxRecDepth 100000 in
theorem witness_expander_coded : ∀ s ∈ [expanding codedT], s.expRead 3 0 (toNext + 216) 512 = (s, .got (List.replicate 512 0)) ∧
    s.expRead 3 0 (toNext + 64) 136 = (s, .got (leBytes 8 0 ++ (0x11 : Byte) :: leBytes 127 0)) ∧
    blockHdrBad 0x000200 1 = false ∧ bits 0x000200 23 16 = 0 ∧ bits 0x000200 15 0 = 512 ∧
    lensOk (codeLens ((0x11 : Byte) :: leBytes 127 0) 256) = true := by decide +kernel

set_option maxRecDepth 100000 in
theorem witness_expander_code : decodeBlock (codeLens ((0x11 : Byte) :: leBytes 127 0) 256) (List.replicate 512 0) 4096 =
    (List.replicate 4096 0, 0) := by decide +kernel

/-- Symbols 1, 2, 0 of codes 10, 11, 0, each from its highest bit (05 R163). -/
theorem test_decodeBlock : decodeBlock [1, 2, 2] [0x0D] 3 = ([1, 2, 0], 0) := by decide

theorem witness_expander_badHeader : ∀ s ∈ [expanding (leBytes 64 2)],
    (s.bench 3).moves.find? (fun p => p.2.op == 4 && !p.2.expDone) = some (0, expandM) ∧
      s.expRead 3 0 toNext 64 = (s, .got (leBytes 64 2)) ∧ tensorHdr (leBytes 64 2) = none ∧
      s.flag (A.expErr 3) F.expErr.VALID = false := by
  decide +kernel

/-- A code that is not complete is refused (05 R162). -/
theorem test_incomplete_code : lensOk [1, 0, 2] = false ∧ lensOk [1, 2, 2] = true ∧ lensOk [13] = false := by decide

/-! ### Synchronisation -/

/-- A transaction of this module, answer 0; one of module 5 for module 7, and the module with number 7. -/
def vHere : Via := ⟨0x3FFF, 0x3FFF, 0, 0, 0, 0, 0⟩
def vFar : Via := ⟨5, 7, 0, 0, 0, 0, 0⟩
def seven : State :=
  ((on.setFld A.tmrId F.tmrId.MODNUM 7).setFld A.tmrId F.tmrId.ASSIGNED 1).setFld (A.tmrPortStat 0) F.tmrPortStat.STATE 2

/-- The identity of thread F of Bench 3. -/
def whoF : Who := ⟨5, 3, 1, 0⟩

/-- Thread F of Bench 3 with the last counter address of this module in `s5`. -/
def atCounter : State := regs2 0x3FFFFFFC 5

theorem witness_syncInstructions : atCounter.issues 3 .F { sregs := [5] } = true ∧ (0xFF : BitVec 8) ≠ 0 ∧
    (atCounter.s 3 .F 5).toNat < 2 ^ 30 ∧ atCounter.isHere (cntModule (atCounter.s 3 .F 5).toNat) = true ∧
    (atCounter.ctx 3 .F).sigs.contains (atCounter.cntKey (atCounter.s 3 .F 5).toNat) = false ∧
    atCounter.issues 3 .F { dwl := false, sregs := [7, 5, 6] } = true ∧ atCounter.tmr.waitq = [] ∧
    atCounter.issues 3 .F { dwl := false, sregs := [7] } = true ∧ atCounter.issues 3 .F { dwl := false } = true := by decide

theorem witness_syncInstructions_far : ∀ s ∈ [regs2 0x00050005 3], s.issues 3 .F { sregs := [5] } = true ∧
    s.issues 3 .F { dwl := false, sregs := [7, 5, 6] } = true ∧ (s.s 3 .F 5).toNat < 2 ^ 30 ∧
    s.isHere (cntModule (s.s 3 .F 5).toNat) = false ∧ (s.ctx 3 .F).sigs.contains (s.cntKey (s.s 3 .F 5).toNat) = false := by decide

theorem witness_syncInstructions_fences : ∀ scope ∈ [0, 1, 2], (running .F).issues 3 .F {} = true ∧
    (running .F).fenceMet 3 .F scope = true ∧
    ((running .F).modBench 3 (fun x => { x with moves := [(0, mv 0 0 (desc 0 2 1 32 64) 0 0)] })).fenceMet 3 .F scope = false ∧
    (((running .F).block 3 .F (.fence scope)).ctx 3 .F).blk = some (.fence scope) ∧
    ((running .F).block 3 .F (.fence scope)).fenceMet 3 .F scope = true := by decide

/-- Thread F of Bench 3 in a layer at word 0x3FFF0000, with and without LOST. -/
def inLayer (lost : Nat) : State :=
  (((regs2 0x3FFF0000 1).setFld (A.numLayer 3 0) F.numLayer.OPEN 1).setFld (A.numLayer 3 0) F.numLayer.LOST lost).setFld (A.numLayer 3 0)
    F.numLayer.WORD 0x3FFF0000

theorem witness_layerInstructions : (regs2 0x3FFF0000 1).issues 3 .F { dwl := false, sregs := [5] } = true ∧
    (regs2 0x3FFF0000 1).layerOpen 3 .F = false ∧ ((regs2 0x3FFF0000 1).s 3 .F 5).toNat < 2 ^ 30 ∧
    ((regs2 0x3FFF0000 1).s 3 .F 5).toNat % 4 = 0 ∧ (regs2 0x3FFF0000 1).isHere (cntModule 0x3FFF0000) = true ∧
    (∀ l ∈ [0, 1], (inLayer l).issues 3 .F { dwl := false, sregs := [7, 5, 6] } = true ∧ ((inLayer l).s 3 .F 6).toNat % 65536 ≠ 0 ∧
      (inLayer l).layerOpen 3 .F = true ∧ (inLayer l).flag (A.numLayer 3 0) F.numLayer.LOST = (l == 1)) ∧
    (regs2 0x3FFF0000 1).issues 3 .F { dwl := false, sregs := [7, 5, 6] } = true := by decide

theorem witness_layerInstructions_far : ∀ s ∈ [regs2 0x00050000 1], s.issues 3 .F { dwl := false, sregs := [5] } = true ∧
    s.layerOpen 3 .F = false ∧ (s.s 3 .F 5).toNat < 2 ^ 30 ∧ (s.s 3 .F 5).toNat % 4 = 0 ∧ s.isHere (cntModule (s.s 3 .F 5).toNat) = false := by
  decide

theorem witness_layerInstructions_blocked :
    (((inLayer 0).block 3 .F (.lcommitFence 7 0x3FFF0000 1 0)).ctx 3 Thr.F.ctx).blk = some (.lcommitFence 7 0x3FFF0000 1 0) ∧
    ((inLayer 0).block 3 .F (.lcommitFence 7 0x3FFF0000 1 0)).fenceMet 3 .F 2 = true ∧
    ((inLayer 0).block 3 .F (.lcommitFence 7 0x3FFF0000 1 0)).mergesDone 3 .F = true ∧
    (∀ s ∈ [((running .F).block 3 .F (.lopen 0x3FFF0000 5 3 0 0)).putPulse 800000000], (s.ctx 3 Thr.F.ctx).blk = some (.lopen 0x3FFF0000 5 3 0 0) ∧
      (s.ctx 3 .F).stopping = none ∧ s.reached 0 s.syncDefault = true) ∧
    (∀ s ∈ [((inLayer 0).setFld (A.benchThr 3 0) F.benchThr.STATE 0).modCtx 3 .F (fun x => { x with abortDue := some true })],
      (s.ctx 3 Thr.F.ctx).abortDue = some true ∧ s.workDone 3 .F = true ∧
        s.isHere (cntModule (s.fld (A.numLayer 3 0) F.numLayer.WORD)) = true) := by decide

/-- Operations on their way to counters 5 and 65535 of this module, whose value is 2^32 - 2. -/
def counterOps (l : List SyncOp) : State :=
  ((on.setCounter 5 0xFFFFFFFE).setCounter 65535 0xFFFFFFFE).putSync
    { Sync.reset with inbox := l.flatMap (fun o => [(5, whoF, o), (65535, whoF, o)]) }

theorem witness_countersAtHome : ∀ i ∈ [(5 : BitVec 16), 65535],
    ∀ s ∈ [counterOps [.signal 1, .signal 2, .restore 2, .take 0xFFFFFFFF, .wait 0xFFFFFFFE true 0, .wait 0xFFFFFFFF false 5]],
    s.armed i.toNat = false ∧ (∀ r ∈ s.sync.waiters, r.index ≠ i.toNat) ∧
      (∀ op ∈ [SyncOp.signal (1 : BitVec 32).toNat, .signal (2 : BitVec 32).toNat, .restore (2 : BitVec 32).toNat,
        .take (0xFFFFFFFF : BitVec 32).toNat, .wait (0xFFFFFFFE : BitVec 32).toNat true (0 : BitVec 24).toNat,
        .wait (0xFFFFFFFF : BitVec 32).toNat false (5 : BitVec 24).toNat], s.reaches vHere i.toNat whoF op s.modnum) ∧
      (0xFFFFFFFE : BitVec 32).toNat ≤ s.counter i.toNat ∧ s.counter i.toNat < (0xFFFFFFFF : BitVec 32).toNat ∧
      s.sync.waiters.length < 16384 := by
  unfold State.reaches; decide

theorem witness_countersAtHome_far : seven.reaches vFar 5 whoF (.signal 1) 5 := by
  unfold State.reaches; decide

/-- A word with an open attempt. -/
def armedAt (l : List SyncOp) : State :=
  (((on.putSync { Sync.reset with inbox := l.map (fun o => (8, whoF, o)), armedWords := [8] }).setLw 8 0 lwArmed 1).setLw 8 0 lwAttempt 1)

theorem witness_countersAtHome_armed : (armedAt [.signal 1, .restore 1, .take 1]).armed (8 : BitVec 16).toNat = true ∧
    ∀ op ∈ [SyncOp.signal (1 : BitVec 32).toNat, .restore (1 : BitVec 32).toNat, .take (1 : BitVec 32).toNat],
      (armedAt [.signal 1, .restore 1, .take 1]).reaches vHere (8 : BitVec 16).toNat whoF op 0x3FFF := by
  unfold State.reaches; decide

/-- One waiter record at counter 5, of this module. -/
def waiterRec : Waiter := ⟨5, 0x3FFF, whoF, 3, true, some 800⟩
def oneWaiter : State := on.putSync { Sync.reset with waiters := [waiterRec], inbox := [(5, whoF, .cancel), (5, whoF, .signal 3)] }

theorem witness_countersAtHome_cancel : oneWaiter.reaches vHere (5 : BitVec 16).toNat whoF .cancel 0x3FFF ∧
    ∃ r ∈ oneWaiter.sync.waiters, r.index = (5 : BitVec 16).toNat ∧ r.who = whoF ∧ r.home = 0x3FFF := by
  unfold State.reaches; decide

theorem witness_waitersAreServed : oneWaiter.sync.waiters = [waiterRec] ∧ waiterRec.index = (5 : BitVec 16).toNat ∧
    waiterRec.home = oneWaiter.modnum ∧ waiterRec.who ≠ sumWho ∧ waiterRec.who ≠ resultWho ∧ oneWaiter.armed (5 : BitVec 16).toNat = false ∧
    oneWaiter.reaches vHere (5 : BitVec 16).toNat whoF (.signal (3 : BitVec 32).toNat) 0x3FFF ∧
    oneWaiter.counter (5 : BitVec 16).toNat + (3 : BitVec 32).toNat < 2 ^ 32 ∧ (3 : BitVec 32) ≠ 0 ∧
    waiterRec.threshold ≤ oneWaiter.counter (5 : BitVec 16).toNat + (3 : BitVec 32).toNat ∧
    waiterRec.deadline = some 800 ∧ 800 ≤ (oneWaiter.putPulse 800).pulse := by
  unfold State.reaches; decide

theorem witness_waitersAreServed_expired : ∀ s ∈ [(oneWaiter.putSync { oneWaiter.sync with kept := [⟨waiterRec, .timeout 0, some 0⟩] }).putPulse
    (10000 * 800)], s.sync.waiters = [waiterRec] ∧ s.sync.kept = [⟨waiterRec, .timeout 0, some 0⟩] ∧ s.reached 0 10000 = true := by
  decide

/-- Thread F of Bench 3 waits, for `k`, and an answer to it stands in the table of answers. -/
def waitingF (k : Blk) (a : SyncAns) : State :=
  ((running .F).block 3 .F k).putSync { Sync.reset with answers := [(5, whoF, a)] }

def waitS (p : WaitPhase) : WaitSt := ⟨7, 0x3FFF0005, 3, true, 10, 0, 0, p⟩

theorem witness_syncAnswers : ∀ p ∈ [(Blk.wait (waitS .sent), SyncAns.value 9), (.take 7 0x3FFF0005, .value 9), (.lopen 0x3FFF0008 1 1 0 0, .opened 255),
    (.lcommit 7 0x3FFF0008 1 0, .outcome 0x100)],
    ((waitingF p.1 p.2).ctx 3 .F).blk = some p.1 ∧ whoF = (waitingF p.1 p.2).whoOf 3 .F ∧ ((waitingF p.1 p.2).ctx 3 .F).stopping = none ∧
      (waitingF p.1 p.2).isOwn vHere = true ∧ (waitingF p.1 p.2).cntKey 0x3FFF0005 = (waitingF p.1 p.2).modnum * 65536 + (5 : BitVec 16).toNat ∧
      (waitingF p.1 p.2).sync.answers[vHere.seq]? = some ((5 : BitVec 16).toNat, whoF, p.2) := by decide

theorem witness_syncAnswers_outcome : (0x100 : Word).toNat % 8 ≠ 6 ∧ (waitS .sent).phase = .sent := by decide

theorem witness_syncAnswers_notify : ∀ s ∈ [((running .F).block 3 .F (.wait (waitS .held))).putSync
    { Sync.reset with kept := [⟨waiterRec, .satisfied 3, none⟩] }],
    (s.ctx 3 .F).blk = some (.wait (waitS .held)) ∧ s.sync.kept = [⟨waiterRec, .satisfied 3, none⟩] ∧
      waiterRec.index = (5 : BitVec 16).toNat ∧ waiterRec.who = s.whoOf 3 .F ∧ waiterRec.home = s.modnum ∧ (s.bench 3).copying = false := by decide

/-- At the first moment each time has passed. -/
theorem witness_syncAnswers_times :
    (∀ s ∈ [((running .F).block 3 .F (.wait (waitS .busy))).putPulse 1600], (s.ctx 3 .F).blk = some (.wait (waitS .busy)) ∧
      s.reached (waitS .busy).issuedAt (waitS .busy).tmo = false ∧ s.reached (waitS .busy).phaseAt 2 = true ∧
      s.isHere (cntModule (waitS .busy).counter) = true ∧ s.tmr.waitq = []) ∧
    (∀ s ∈ [((running .F).block 3 .F (.wait (waitS .held))).putPulse 808000], (s.ctx 3 .F).blk = some (.wait (waitS .held)) ∧
      s.reached (waitS .held).phaseAt ((waitS .held).tmo + 1000) = true ∧ s.isHere (cntModule (waitS .held).counter) = true) ∧
    (∀ s ∈ [((running .F).block 3 .F (.wait (waitS .due))).putPulse 8000], (s.ctx 3 .F).blk = some (.wait (waitS .due)) ∧
      s.reached (waitS .due).issuedAt (waitS .due).tmo = true) := by decide

theorem witness_cancelStops : ∀ s ∈ [(waitingF (.wait (waitS .cancelStop)) (.cancel .cancelled)).modCtx 3 .F
    (fun x => { x with stopping := some ⟨2, none, none⟩ })], (2 : Nat) < 0x10 ∧ (s.ctx 3 .F).stopping = some ⟨2, none, none⟩ ∧
      (s.ctx 3 .F).blk = some (.wait (waitS .cancelStop)) ∧ (waitS .cancelStop).phase = .cancelStop ∧ s.isOwn vHere = true ∧
      s.sync.answers[vHere.seq]? = some (5, s.whoOf 3 .F, .cancel .cancelled) := by decide

theorem witness_layersAtHome_open : ∀ s ∈ [(armedAt [.openWord 5 3 1]).putSync { (armedAt [.openWord 5 3 1]).sync with armedWords := [] }],
    s.reaches vHere (8 : BitVec 16).toNat whoF (.openWord (5 : BitVec 16).toNat (3 : Fin 4) (1 : Fin 2)) 0x3FFF ∧ s.armed 8 = false ∧
      (8 : Nat) = wordOf (8 : BitVec 16).toNat ∧ ∀ r ∈ s.sync.waiters, wordOf r.index ≠ 8 := by
  unfold State.reaches; decide

theorem witness_layersAtHome_arrivals : ∀ s ∈ [armedAt [.arrival 1 1 1 10, .abort 0 1 true]],
    s.reaches vHere (8 : BitVec 16).toNat whoF (.arrival 1 1 1 10) 0x3FFF ∧ s.reaches vHere (8 : BitVec 16).toNat whoF (.abort 0 1 true) 0x3FFF ∧
      s.matches 8 1 = true ∧ s.lw 8 1 lwExpect = 0 ∧ s.lw 8 1 lwArrived = 0 ∧ s.lw 8 0 lwAbort = 0 ∧ s.lw 8 0 lwDisagree = 0 ∧
      (s.lw 8 0 lwFlags).testBit 3 = false ∧ (1 : Nat).testBit 3 = false ∧ s.isHere 0x3FFF = true := by
  unfold State.reaches; decide

theorem witness_layersAtHome_timeouts :
    (∀ s ∈ [((armedAt []).putSync { (armedAt []).sync with abortAt := [(8, 0)] }).putPulse 800000000],
      FMap.get? s.sync.abortAt 8 = some 0 ∧ s.armed 8 = true ∧ s.lw 8 1 lwExpect = 0 ∧ s.reached 0 s.syncDefault = true ∧ s.sync.lwait = []) ∧
    (∀ s ∈ [((armedAt []).putSync { (armedAt []).sync with lwait := [⟨8, 0x3FFF, whoF, 800⟩] }).putPulse 800],
      s.sync.lwait = [⟨8, 0x3FFF, whoF, 800⟩] ∧ (800 : Nat) ≤ s.pulse ∧ s.isHere 0x3FFF = true) := by decide

/-- Lending is on, and Bench 3 has rested for its 5 µs. -/
def resting : State := (on.setFld A.syncLend F.syncLend.EN 1).putPulse 4000000000

theorem witness_powerLending : resting.flag A.syncLend F.syncLend.EN = true ∧ (resting.bench 3).lend.lending = false ∧
    (resting.bench 3).lend.ungateAt = none ∧ (resting.bench 3).takeover = none ∧ resting.mayLend 3 = true ∧
    resting.reached (max (resting.bench 3).lend.since resting.cycZero) (max 1 (resting.fld A.syncLend F.syncLend.THRESH)) = true ∧
    (∀ s ∈ [(on.modBench 3 (fun x => { x with lend := { x.lend with ungateAt := some 64, halfUntil := some 64 } })).putPulse 64],
      (s.bench 3).lend.ungateAt = some 64 ∧ 64 ≤ s.benchCyc 3 ∧ 64 ≤ s.pulse ∧ (s.bench 3).lend.halfUntil = some 64) := by decide

theorem test_signal_saturates : after (exec (.counterSignal vHere 65535 whoF 2) (counterOps [.signal 2])) (fun t =>
    (t.counter 65535, t.flag (A.syncCnt 65535) F.syncCnt.OVF, t.counter 5)) = some (0xFFFFFFFF, true, 0xFFFFFFFE) := by decide

theorem test_take_underflows : after (exec (.counterTake vHere 5 whoF 0xFFFFFFFF) (counterOps [.take 0xFFFFFFFF])) (fun t =>
    (t.counter 5, t.flag (A.syncCnt 5) F.syncCnt.UDF)) = some (0, true) := by decide

theorem test_publish : after (exec (.layerArrival vHere 8 whoF (.arrival 1 1 1 10)) (armedAt [.arrival 1 1 1 10])) (fun t =>
    (t.lwGen 8, t.lw 8 0 lwArmed, t.armed 8)) = some (1, 0, false) := by decide

/-! ### Registers, Tallboys and claims -/

theorem witness_registerAccess : ((5 : Nat) ≠ 8 ∧ (5 : Nat) ≠ 4) ∧ (A.numCtl 3 + 4) % 8 ≠ 0 ∧ regDesc (2 ^ 50 - 8) = none ∧
    mirrorBase + 0x2000 ≤ 2 ^ 50 - 8 ∧ slotBase + 0x4000 ≤ 2 ^ 50 - 8 ∧ A.numCtl 799 ∈ plainRegs 799 3 15 7 ∧ on.rst.on = true ∧ on.memReady (A.numCtl 799) 8 = true ∧
    (on.modBench 799 (fun x => { x with takeover := some ⟨0, false, some 1⟩ })).memReady (A.numCtl 799) 8 = false := by decide

/-- `NUM_CTL.TRAP` takes a 32-bit write; a misaligned one changes nothing (00 R10, R11). -/
theorem test_register_write : after (exec (.registerWrite ⟨7, 0, 0, 0⟩ (A.numSeed + 4) 4 0x55) (on.wr A.numSeed 0x1122334455667788))
    (fun t => t.rd A.numSeed) = some 0x0000005555667788 ∧
    after (exec (.registerWrite ⟨7, 0, 0, 0⟩ (A.numSeed + 2) 4 0x55) (on.wr A.numSeed 1)) (fun t => t.rd A.numSeed) = some 1 := by decide

/-- An initialised stack 0, and one whose first codeword is uncorrectable. -/
def tbyOn : State := on.setFld (A.tbyStat 0) F.tbyStat.INIT 1
def tbyBad : State := tbyOn.modStack 0 (fun x => { x with ue := [0] })

/-- The first and the last byte of a codeword. -/
theorem witness_tallboyAccess : stackOf 63 = 0 ∧ cwOf 63 = 0 ∧ 63 < viewSize ∧ 63 % 64 + 1 ≤ 64 ∧ on.tbyReady 0 = false ∧
    tbyOn.tbyReady 0 = true ∧ tbyOn.writePermitted 7 63 = true ∧ tbyOn.writePermitted 0 63 = true ∧
    (tbyOn.stack 0).ue.contains 0 = false ∧ (tbyBad.stack 0).ue.contains 0 = true ∧ [true].all id = true ∧ (1 : Nat) < 64 ∧
    tbyBad.tbyReady 0 = true ∧ tbyBad.writePermitted 0 0 = true ∧ tbyOn.soundAt 63 1 ∧ viewSize ≤ viewSize := by
  unfold State.soundAt; decide

/-- Region 0 denies class 2 the first block. -/
def denying : State := (tbyOn.setFld (A.tbyRgn 0) F.tbyRgn.DENY 4).setFld (A.tbyRgn 0) F.tbyRgn.LIMIT 0

theorem witness_tallboyAccess_denied : denying.writePermitted 2 63 = false ∧ denying.tbyReady 0 = true ∧
    denying.flag A.tbyRgnStat F.tbyRgnStat.VALID = false ∧
    (denying.setFld A.tbyRgnStat F.tbyRgnStat.VALID 1).flag A.tbyRgnStat F.tbyRgnStat.VALID = true := by decide

theorem witness_tallboyAccess_errors : ((tbyOn.modStack 0 (fun x => { x with injCe := true })).stack 0).injCe = true ∧
    ((tbyOn.modStack 0 (fun x => { x with injUe := true })).stack 0).injUe = true ∧
    tbyOn.flag (A.tbyErr 0) F.tbyErr.VALID = false := by decide

theorem gfMul_zero (b : Nat) : gfMul 0 b = 0 := by
  have h : ∀ n b, gfMulAux 0 b n = 0 := by
    intro n
    induction n with
    | zero => intro b; rfl
    | succ n ih => intro b; simp [gfMulAux, ih, gfX]
  exact h 16 b

theorem rsTwo_zeros (x y i j : Nat) : rsTwo [0, 0, x, y] i j = none := by simp [rsTwo, gfMul_zero]

theorem rsDecode_none {e : List (Nat × Nat)} {x y : Nat} (hs : rsSyndrome e = [0, 0, x, y]) (hx : 0 < x) :
    rsDecode e = .uncorrectable := by
  have h1 : (List.range 38).find? (rsOne [0, 0, x, y]) = none := by
    rw [List.find?_eq_none]
    intro i _
    have : x ≠ 0 := by omega
    simp [rsOne, gfMul_zero, List.range_succ, this]
  have h2 : ∀ l : List (Nat × Nat),
      l.findSome? (fun p => (rsTwo [0, 0, x, y] p.1 p.2).map (fun ab => [(p.1, ab.1), (p.2, ab.2)])) = none := by
    intro l
    rw [List.findSome?_eq_none_iff]
    intro p _
    rw [rsTwo_zeros]
    rfl
  have h3 : ¬ ([0, 0, x, y].all (· == 0)) = true := by simp; omega
  unfold rsDecode
  simp only [hs, h1, h2]
  rw [if_neg h3]

/-- Three wrong symbols whose first two syndromes are zero: neither one error nor two explain them (09 R271). -/
theorem three_wrong : rsDecode [(0, 2), (1, 3), (2, 1)] = .uncorrectable :=
  rsDecode_none (show rsSyndrome [(0, 2), (1, 3), (2, 1)] = [0, 0, 7680, 61479] by decide +kernel) (by decide)

/-- Three wrong symbols of a codeword, and one of the two symbols of its index (09 R270, R271). -/
theorem witness_tallboyAccess_uncorrectable : (tbyOn.strike [(63, 0, 2), (0, 1, 3), (1, 2, 1)]).upsets 0 = [(0, 2), (1, 3), (2, 1)] ∧
    (tbyOn.strike [(63, 32, 1)]).upsets 0 = [(32, 1)] ∧
    rsDecode [(32, 1)] = .addressError ∧ (tbyOn.strike [(63, 5, 0x8001)]).upsets 0 = [(5, 0x8001)] := by decide +kernel

/-- One wrong symbol is found (09 R270, R271). -/
theorem witness_tallboyAccess_corrected : rsDecode [(5, 0x8001)] = .corrected [(5, 0x8001)] ∧
    applyErrors (applyErrors (tbyOn.mem.read 0 64) [(5, 0x8001)]) [(5, 0x8001)] = tbyOn.mem.read 0 64 := by decide +kernel

theorem witness_tallboyUpkeep : on.flag (A.tbyStat 0) F.tbyStat.INIT = false ∧ tbyOn.flag (A.tbyStat 0) F.tbyStat.INIT = true ∧
    (on.setFld (A.tbyScrub 0) F.tbyScrub.EN 0).flag (A.tbyScrub 0) F.tbyScrub.EN = false ∧ on.tmr.held = [] ∧
    (∀ n ∈ [0, stackCodewords - 2, stackCodewords - 1],
      ∀ s ∈ [((tbyOn.setFld (A.tbyScrub 0) F.tbyScrub.EN 1).modStack 0 (fun x => { x with scrub := n })).putPulse 800000000000],
      s.flag (A.tbyScrub 0) F.tbyScrub.EN = true ∧ s.tbyReady 0 = true ∧ (s.stack 0).scrubAt + s.scrubStep 0 ≤ s.scrubNow ∧
        s.soundAt (viewOf 0 ((s.stack 0).scrub * 64)) 64 ∧ (s.stack 0).scrub = n) ∧
    ((tbyOn.modStack 0 (fun x => { x with copying := [(0, ⟨1, 2, false, 1, 9⟩)] })).stack 0).copying = (0, ⟨1, 2, false, 1, 9⟩) :: [] ∧
    ((tbyOn.modStack 0 (fun x => { x with remapBy := some (1, 64, 5) })).stack 0).remapBy = some (1, 64, 5) ∧
    (tbyOn.stack 0).copying = [] ∧ (tbyOn.stack 0).remapBy = none ∧ ∀ j < 16, (tbyOn.stack j).upsets = [] ∧ (tbyOn.stack j).injCe = false := by
  unfold State.soundAt; decide +kernel

/-- MARK_OUT held by claimant `h`, the staging region by `o`, the alarm timer by `w`. -/
def holding (h o w : Nat) : State :=
  (((on.setFld A.clkMark F.clkMark.HOLDER h).setFld A.tbyStage F.tbyStage.OWNER o).setFld A.clkAlarm F.clkAlarm.OWNER w).setFld A.clkAlarm
    F.clkAlarm.SWEEP (w / 2)

theorem witness_claims : (∀ h < 4, (holding h 0 0).fld A.clkMark F.clkMark.HOLDER = h) ∧
    (∀ o < 3, (holding 0 o 0).fld A.tbyStage F.tbyStage.OWNER = o) ∧
    (∀ w < 3, (holding 0 0 w).fld A.clkAlarm F.clkAlarm.OWNER = w ∧
      (holding 0 0 w).flag A.clkAlarm F.clkAlarm.SWEEP = decide (w = 2)) ∧
    ∀ s ∈ [(holding 0 0 2).putPulse 8000000000], s.flag A.clkAlarm F.clkAlarm.SWEEP = true ∧
      s.reached s.clk.sweepAt (max 1 (s.fld A.clkAlarm F.clkAlarm.PERIOD) * 1000) = true ∧ s.longBlocked = [] := by decide

/-- Claims of the same cycle by the holder: one with a lower code wins. -/
theorem witness_claims_sameCycle : ∀ s ∈ [(holding 3 2 0).putCyc { SameCycle.none with claims := [(1, 3), (2, 2)] }],
    s.outranks 1 1 3 = true ∧ s.outranks 1 1 2 = false ∧ s.outranks 2 1 2 = true ∧ s.flag A.trsCtl F.trsCtl.EN = false := by decide

theorem witness_claims_blocked : (((running .F).block 3 .F (.wait (waitS .held))).putPulse 8000000000).longBlocked = [(3, .F)] := by decide

theorem test_second_claim : after (exec (.dbgTriggerClaim true) (holding 1 0 0)) (fun t =>
    (t.fld A.clkMark F.clkMark.HOLDER, t.fld A.conflict F.conflict.COUNT, t.fld A.conflict F.conflict.LASTCLM)) = some (1, 1, 3) := by
  decide

/-- A whole write of an uncorrectable codeword is stored, and the codeword good again (09 R272). -/
theorem test_write_of_bad_codeword : after (exec (.tbyAccess 0 0 64 (some (7 :: List.replicate 63 0, List.replicate 64 true)) []) tbyBad)
      (fun t => (t.mem, (t.stack 0).ue)) = some ([(0, 7)], []) := by decide

/-! ### The fabric -/

/-- Port `p` in a state, enabled. -/
def port (p st : Nat) (s : State) : State :=
  (s.setFld (A.tmrPortStat p) F.tmrPortStat.STATE st).setFld (A.tmrPortCtl p) F.tmrPortCtl.EN 1

theorem witness_ports : (∀ st < 4, (port 35 st on).fld (A.tmrPortStat 35) F.tmrPortStat.STATE = st ∧
      (port 35 st on).flag (A.tmrPortCtl 35) F.tmrPortCtl.EN = true ∧ (port 35 st on).portUp 35 = decide (2 ≤ st)) ∧
    (on.setFld (A.tmrPortCtl 35) F.tmrPortCtl.EN 0).flag (A.tmrPortCtl 35) F.tmrPortCtl.EN = false ∧
    ((port 35 0 on).putPulse 8000000).reached (FMap.getD (port 35 0 on).tmr.portAt 35 0) 10000 = true ∧
    (∀ n ∈ [0, max 1 (on.fld (A.tmrPortCtl 35) F.tmrPortCtl.LRETRY) - 1, max 1 (on.fld (A.tmrPortCtl 35) F.tmrPortCtl.LRETRY)],
      FMap.getD ((port 35 2 on).putTmr { Tmr.reset with fails := [(35, n)] }).tmr.fails 35 0 = n) ∧
    ((port 35 1 on).putTmr { Tmr.reset with narrow := [35] }).tmr.narrow.contains 35 = true := by decide

/-- With three good lanes of four the port is UP3 and names the bad one; with two it is DOWN (10 R294). -/
theorem test_training : after (exec (.portTrainComplete 35 0xB (some (9, true))) (port 35 1 on)) (fun t =>
      (t.fld (A.tmrPortStat 35) F.tmrPortStat.STATE, t.fld (A.tmrPortStat 35) F.tmrPortStat.LANEBAD,
        t.fld (A.tmrPortStat 35) F.tmrPortStat.PEER)) = some (3, 4, 9) ∧
    after (exec (.portTrainComplete 35 0x3 none) (port 35 1 on)) (fun t => t.fld (A.tmrPortStat 35) F.tmrPortStat.STATE) = some 0 := by
  decide

/-- Module 7, with ports 0 and 35 up and a route to module 9 over port 35. -/
def linked : State :=
  ((port 35 2 (port 0 2 seven)).setFld (A.tmrRt0 9) F.tmrRt0.PRI (2 ^ 35)).setFld (A.tmrRt1 9) F.tmrRt1.VALID 1

/-- The receive context of class 0 of module 5 stands at sequence number 5,000, performed with an answer. -/
def received : State := linked.putTmr { Tmr.reset with recv := [(flowNo 5 0, ⟨0, 5000, [(5000, .done)], 0⟩)] }

def nine : Via := { vFar with dest := 9 }

theorem witness_fabricRequests : linked.portUp vFar.port = true ∧ linked.forMe vFar = true ∧ (linked.arrive vFar).2 = .fresh ∧
    linked.wasDone vFar = false ∧ locOf (0x1000000000000 + 799 * 0x400000 + 0x2FFFFF) = .shelf 799 0x2FFFFF ∧
    linked.accepts (0x1000000000000 + 799 * 0x400000 + 0x2FFFFF) 1 = true ∧ (0x1000000000000 + 799 * 0x400000 + 0x2FFFFF) % 256 + 1 ≤ 256 ∧
    locOf (A.numSeed) = .reg A.numSeed ∧ A.numSeed < 2 ^ 50 ∧
    (received.arrive { vFar with seq := 5000 }).2 = .again .done ∧ (received.arrive { vFar with seq := 904 }).2 = .stale ∧
    (received.arrive { vFar with seq := 5001 }).2 = .fresh ∧ linked.lost = [] ∧ locOf 0x200000000000 = .none ∧
    locOf 64 = .tby 64 ∧ linked.accepts 64 1 = false := by decide

theorem witness_fabricRequests_tallboy : ∀ s ∈ [linked.setFld (A.tbyStat 0) F.tbyStat.INIT 1], locOf 64 = .tby 64 ∧ s.accepts 64 1 = true ∧
    s.soundAt 64 1 ∧ s.writePermitted 1 64 = true := by unfold State.soundAt; decide

theorem witness_fabricRequests_forward : linked.forMe nine = false ∧ nine.hops < linked.fld A.tmrCtl F.tmrCtl.MAXHOP ∧
    linked.hasRoute nine.dest = true ∧ (linked.choosePort nine.tc nine.dest (some nine.port)).2 = some 35 ∧
    linked.fld A.tmrCtl F.tmrCtl.MAXHOP ≤ { nine with hops := 15 }.hops ∧ linked.hasRoute 10 = false := by decide

/-- A transaction of module 7 to module 9, class 0, sequence number 0, unanswered. -/
def txnOf (r : Req) (o : Owner) : Txn := ⟨9, r, 0, 3, 1, 0, 0, o, 0, 0, 0⟩
def sentTxn (x : Txn) : State := linked.putTmr { Tmr.reset with outst := [(txnKey 9 0 0, x)] }
def farAddr : Nat := 9 * 2 ^ 50 + 0x40
def loadTxn : Txn := txnOf (.rd 0x40 8) (.load 3 .F)
def storeTxn : Txn := txnOf (.wr 0x40 [1] [true]) (.store 3 .F 0x40)
def loadSent : State := (sentTxn loadTxn).modCtx 3 .F (fun x => { x with loads := [⟨7, 8, farAddr, 0, 0⟩] })
def backVia : Via := ⟨9, 7, 0, 0, 0, 0, 0⟩

theorem witness_fabricCompletions : loadSent.tmr.waitq = [] ∧ loadTxn.req = .rd (localOf farAddr) 8 ∧
    (loadSent.ctx 3 .F).loads = [⟨7, 8, farAddr, 0, 0⟩] ∧ modOf farAddr = loadTxn.dest ∧ loadSent.portUp backVia.port = true ∧
    loadSent.forMe backVia = true ∧ loadSent.answered backVia = some loadTxn ∧
    FMap.get? loadSent.tmr.outst (txnKey (9 : BitVec 14).toNat (0 : Fin 8) (0 : BitVec 24).toNat) = some loadTxn ∧
    (sentTxn storeTxn).answered backVia = some storeTxn := by decide

theorem witness_fabricCompletions_timeout : ∀ s ∈ [loadSent.putPulse (max 1 (on.fld A.tmrCtl F.tmrCtl.RTO) * 800)],
    s.reached loadTxn.sentAt (max 1 (s.fld A.tmrCtl F.tmrCtl.RTO)) = true ∧ loadTxn.tries < s.fld A.tmrCtl F.tmrCtl.RETRY ∧ s.hasRoute loadTxn.dest = true ∧ s.tmr.dead = [] ∧
      (s.setFld (A.tmrRt1 9) F.tmrRt1.VALID 0).hasRoute loadTxn.dest = false ∧
      (s.setFld A.tmrCtl F.tmrCtl.RETRY 0).fld A.tmrCtl F.tmrCtl.RETRY ≤ loadTxn.tries ∧
      loadSent.reached loadTxn.sentAt (max 1 (loadSent.fld A.tmrCtl F.tmrCtl.RTO)) = false := by decide

theorem witness_fabricCompletions_idle : ∀ s ∈ [received.putPulse 800000000],
    FMap.get? s.tmr.recv (flowNo (5 : BitVec 14).toNat (0 : Fin 8)) = some ⟨0, 5000, [(5000, .done)], 0⟩ ∧ s.reached 0 1000000 = true := by
  decide

/-! ### Clocks and time -/

theorem witness_clocks : on.flag A.clkStat F.clkStat.XA_FAIL = false ∧ on.flag A.clkStat F.clkStat.XB_FAIL = false ∧
    ((on.setFld A.clkTrim F.clkTrim.SRC 2).setFld A.clkTrim F.clkTrim.SETTLED 0).fld A.clkTrim F.clkTrim.SRC ≠ 0 ∧
    ((on.setFld A.clkTrim F.clkTrim.SRC 2).setFld A.clkTrim F.clkTrim.SETTLED 0).flag A.clkTrim F.clkTrim.SETTLED = false ∧
    on.flag A.clkStat F.clkStat.FCHG = false ∧ on.fld A.clkFreq F.clkFreq.FAB ≠ fabTaken 549 ∧ fabTaken 549 = 500 ∧
    on.fld A.clkFreq F.clkFreq.MEM ≠ (if getFld (2 * 2 ^ F.clkFreq.MEM.lo : BitVec 64) F.clkFreq.MEM = 3 then 0 else 2) ∧
    ((on.setFld A.clkFreq F.clkFreq.FAB 500).fld A.clkFreq F.clkFreq.FAB = fabTaken 549) ∧
    (∀ l ∈ [[], [(800 : Word)]], ∀ s ∈ [(on.setFld A.clkStat F.clkStat.FCHG 1).putClk { Clk.reset with freqNext := l, chg := 3 }],
      s.flag A.clkStat F.clkStat.FCHG = true ∧ s.clk.freqNext = l ∧ s.clk.chg.testBit 0 = true ∧ s.clk.chg.testBit 1 = true ∧
        s.tmr.held = [] ∧ s.tmr.waitq = []) := by decide

/-- The fabric clock at 800 and at 750 MHz stands on the two sides of the limit to the arithmetic clock (14 R406). -/
theorem witness_clocks_crossing : (on.setFld A.clkFreq F.clkFreq.FAB 800).ratioBad 1 = false ∧
    (on.setFld A.clkFreq F.clkFreq.FAB 750).ratioBad 1 = true ∧ on.ratioBad 2 = false ∧ (loadOut.setFld A.clkFreq F.clkFreq.FAB 750).ratioBad 1 = true ∧
    ((loadOut.setFld A.clkFreq F.clkFreq.FAB 750).nearLoad 3 .F 7).isSome = true := by decide

/-- At the last nanosecond of a second. -/
theorem witness_softwareSetOfTime : on.rst.on = true ∧ on.flag A.trsCtl F.trsCtl.EN = false ∧
    getFld (on.wr A.gtSetn (BitVec.ofNat 64 (999999999 * 2 ^ F.gtSetn.NS.lo)) |>.rd A.gtSetn) F.gtSetn.NS < 10 ^ 9 ∧
    (on.setFld A.trsCtl F.trsCtl.EN 1).flag A.trsCtl F.trsCtl.EN = true := by decide

/-- Port 35 of module 7 up with PTP enabled; a master 1 step away, and the port that follows it. -/
def ptpOn35 : State := port 35 2 (seven.setFld A.gtPtp F.gtPtp.EN 1)
def gm1 : Gm := ⟨1, 6, 0x20, 0, 1, 99⟩
def slave35 : State := ptpOn35.putGt { Gt.reset with masters := [(35, ⟨gm1, 1, ⟨99, 1⟩, 0⟩)], slave := some 35 }
def timeMsg (b : PtpBody) : PtpMsg := ⟨on.fld A.gtPtp F.gtPtp.DOMAIN, ⟨99, 1⟩, 4, b⟩

theorem witness_timeMessages : ptpOn35.ptpTakes 35 (timeMsg (.announce gm1 254)) = true ∧
    (timeMsg (.announce gm1 254)).sender.clock ≠ ptpOn35.ptpId ∧ (254 : Nat) < 255 ∧ FMap.get? ptpOn35.gt.masters 35 = none ∧
    (∀ b ∈ [PtpBody.sync true 0 0, .followUp 1 2, .delayResp 3 4 ⟨slave35.ptpId, 36⟩], slave35.fromParent 35 (timeMsg b) = true) ∧
    ptpOn35.ptpTakes 35 (timeMsg (.delayReq 0)) = true ∧ ptpOn35.ptpMaster 35 = true ∧
    slave35.ptpMaster 35 = false ∧ ptpOn35.ptpTakes 35 (timeMsg (.signaling [1, 2, 3, 4])) = true ∧ on.ptpTakes 35 (timeMsg (.delayReq 0)) = false ∧
    (FMap.get? slave35.gt.masters 35).map (·.sender) = some (timeMsg (.announce gm1 254)).sender := by decide

/-- The slave port has sent Delay_Req 4 after Sync 4 and its Follow_Up. -/
theorem witness_timeMessages_exchange : ∀ s ∈ [slave35.setPtp 35 { slave35.ptp 35 with t2 := some (4, 5000000 * 65536), t1 := some 0, t3 := some (4, 9) }],
    (s.ptp 35).t2 = some ((timeMsg (.followUp 1 2)).seq, 5000000 * 65536) ∧ (s.ptp 35).t1 = some 0 ∧
      (s.ptp 35).t3 = some ((timeMsg (.delayResp 3 4 ⟨s.ptpId, 36⟩)).seq, 9) ∧ s.fld A.gtCfg F.gtCfg.SRC = 0 ∧
      s.flag A.gtStat F.gtStat.EVER = false ∧ s.stepTh < (((5000000 * 65536 : Int) - 0 - ((3 : Int) * 65536 - 4 - 9)) / 2).natAbs ∧
      (s.setFld A.gtCfg F.gtCfg.SRC 1).fld A.gtCfg F.gtCfg.SRC = 1 := by
  decide

theorem witness_timeMessages_timers : (∀ s ∈ [ptpOn35.putPulse (10 ^ 11)], s.ptpMaster 35 = true ∧ (s.ptp 35).annAt + s.annInterval ≤ s.pulse ∧
      (s.ptp 35).syncAt + s.syncInterval ≤ s.pulse) ∧
    (∀ s ∈ [slave35.putPulse (10 ^ 11)], s.ptpOn 35 = true ∧ s.gt.slave = some 35 ∧ (s.ptp 35).dreqAt + s.dreqInterval ≤ s.pulse ∧
      FMap.get? s.gt.masters 35 = some ⟨gm1, 1, ⟨99, 1⟩, 0⟩ ∧ 0 + 3 * s.annInterval ≤ s.pulse) ∧
    on.ptpOn 35 = false ∧ ptpOn35.pulse < (ptpOn35.ptp 35).annAt + ptpOn35.annInterval ∧
    ptpOn35.pulse < (ptpOn35.ptp 35).syncAt + ptpOn35.syncInterval ∧ ptpOn35.pulse < (ptpOn35.ptp 35).dreqAt + ptpOn35.dreqInterval ∧
    slave35.pulse < 0 + 3 * slave35.annInterval ∧ FMap.get? ptpOn35.gt.masters 35 = none := by decide

/-- The servo in a state, with a measurement at 0, one second later and later still. -/
def servo (st ever : Nat) : State :=
  (((on.setFld A.gtStat F.gtStat.STATE st).setFld A.gtStat F.gtStat.EVER ever).setFld A.gtStat F.gtStat.VALID 1).putGt
    { Gt.reset with heardAt := some 0, measAt := some 0, ppsAt := some 0 }

theorem witness_timeServo : (∀ r < 4, (on.setFld A.gtCfg F.gtCfg.SRC r).fld A.gtCfg F.gtCfg.SRC = r) ∧
    (∀ s ∈ [((servo 2 1).setFld A.gtPps F.gtPps.SEEN 1).putPulse (1500000 * 800)], s.gt.ppsAt = some 0 ∧
      s.flag A.gtPps F.gtPps.SEEN = true ∧ s.reached 0 1500000 = true ∧ (s.putPulse (1500000 * 800 - 1)).reached 0 1500000 = false) ∧
    (∀ p ∈ [(1, 0), (1, 1), (2, 1)], ∀ s ∈ [(servo p.1 p.2).putPulse (4 * (servo 2 1).syncInterval)], s.gt.heardAt = some 0 ∧
      0 + 4 * s.syncInterval ≤ s.pulse ∧ s.fld A.gtCfg F.gtCfg.SRC = 0 ∧ s.fld A.gtStat F.gtStat.STATE = p.1 ∧
      s.flag A.gtStat F.gtStat.EVER = decide (p.2 = 1)) ∧
    ((servo 2 1).setFld A.gtStat F.gtStat.SLEWING 1).flag A.gtStat F.gtStat.SLEWING = true ∧ (servo 2 1).gt.corr = 0 ∧ (servo 2 1).flag A.gtStat F.gtStat.SLEWING = false ∧ on.gt.ppsAt = none ∧ on.gt.heardAt = none ∧
    (servo 2 1).pulse < 0 + 4 * (servo 2 1).syncInterval ∧ (servo 0 0).fld A.gtStat F.gtStat.STATE = 0 := by decide

/-- UMAX is 1 ns and the filtered offset 2 ns, and nothing of it is left; MARK_OUT belongs to PPS and a second begins. -/
theorem witness_timeServo_limit : (∀ s ∈ [((servo 2 1).setFld A.gtUnc F.gtUnc.UMAX 1).putGt { (servo 2 1).gt with offset := 131072 }],
      s.flag A.gtStat F.gtStat.VALID = true ∧ s.gtOk 2 = false ∧ (s.setFld A.gtStat F.gtStat.VALID 0).gtOk 2 = false) ∧
    (∀ s ∈ [(servo 2 1).setFld A.gtStat F.gtStat.VALID 0], s.flag A.gtStat F.gtStat.VALID = false ∧ s.gtOk 2 = true) ∧
    (∀ s ∈ [holding 1 0 0], ∀ last ∈ [s.instantAt 79 + 2 * 2 ^ 40], s.fld A.clkMark F.clkMark.HOLDER = 1 ∧
      s.clk.markSec ≠ some (last / gtSecond % 2 ^ 48) ∧ last % gtSecond ≤ 4 * 2 ^ 40 + (s.instantAt 79 - s.instantAt 0)) ∧
    (∀ s ∈ [(holding 1 0 0).putGt { (holding 1 0 0).gt with now := gtSecond / 2 }],
      4 * 2 ^ 40 + (s.instantAt 79 - s.instantAt 0) < (s.instantAt 79 + 2 * 2 ^ 40) % gtSecond) ∧
    on.fld A.clkMark F.clkMark.HOLDER ≠ 1 := by decide +kernel

theorem test_set_of_time : after (exec (.gtSet 5) ((on.setFld A.gtSets F.gtSets.SEC 7).setFld A.trsCtl F.trsCtl.EN 1)) (fun t =>
    (t.gt.now, t.flag A.gtStat F.gtStat.SETREJ)) = some (0, true) := by decide

/-! ### Mailboxes and the host -/

/-- Mailbox `i` holds a request with a code, a length and a payload, submitted to a firmware that is READY. -/
def asking (i code len : Nat) (p : List Byte) : State :=
  let s := (on.setFld A.mbxStat F.mbxStat.FWSTATE 1).setOwn i true false
  (s.putHut { Hut.reset with order := [i] }).putMem (s.mem.write (slotBase + 512 * i)
    (leBytes 2 code ++ leBytes 2 len ++ leBytes 4 0xABCD ++ leBytes 8 0 ++ p))

theorem witness_mailboxes : on.flag A.mbxStat F.mbxStat.REJV = false ∧
    (on.maskMbx (0x80000001 : BitVec 32).toNat).find? (fun j => !on.mbxDone j) = some 0 ∧
    ((on.setOwn 31 true false).maskMbx 0x80000000).find? (fun j => !(!(on.setOwn 31 true false).mbxBusy j && !(on.setOwn 31 true false).mbxDone j)) =
      some 31 ∧
    on.hut.order.find? on.runnable = none ∧ on.takes (31 : MboxNo) 0x0100 = false ∧ on.hut.ops.find? (fun x => x.opid == 1) = none := by decide

set_option maxRecDepth 100000 in
theorem witness_mailboxes_take : ∀ i ∈ [(0 : MboxNo), 31], (asking i 0x0100 0 []).hut.order.find? (asking i 0x0100 0 []).runnable = some i.val ∧
    (asking i 0x0100 0 []).mbxCode i = 0x0100 ∧ (asking i 0x0100 0 []).mctpOwns i = false ∧
    (∃ c ∈ commands, (asking i 0x0100 5 []).mbxCode i = c.code ∧ field ((asking i 0x0100 5 []).request i) 2 2 ≠ c.len) ∧
    (∀ c ∈ commands, (asking i 0x0C00 0 []).mbxCode i ≠ c.code) := by decide +kernel

theorem witness_commandRow : commandRow 0 0x0100 (.moduleInfo 0) := by
  unfold commandRow; decide

/-- A command is in progress, and the job is STOPPING or not. -/
def inProgress (code job : Nat) : State :=
  (on.setFld A.mbxStat F.mbxStat.JOB job).putHut { Hut.reset with ops := [⟨1, code, 0, 2, 0⟩], opNo := 1 }

theorem witness_mailboxes_complete : ∀ p ∈ [(0x0202, 2), (0x0202, 1), (0x0B00, 0)],
    (inProgress p.1 p.2).hut.ops.find? (fun x => x.opid == (1 : BitVec 32).toNat) = some ⟨1, p.1, 0, 2, 0⟩ ∧ (inProgress p.1 p.2).job = p.2 := by
  decide

/-- The link is up, with BAR0 at 2^40 and BAR2 at 2^41, whose aperture stands at the Shelves. -/
def hosted : State :=
  ((on.putPcie { Pcie.reset with up := true, mse := true, bar0 := 2 ^ 40, bar2 := 2 ^ 41 }).setFld A.mbxAper F.mbxAper.BASE 0x1000).setFld
    A.mbxRwin F.mbxRwin.BASE (A.numSeed / 2 ^ 24)

theorem witness_hostRequests : hosted.barOf (2 ^ 40 - 1) = none ∧ hosted.pcie.up = true ∧ hosted.tmr.held.find? Held.host = none ∧
    on.pcie.up = false ∧ ([1] : Bytes).length = [true].length ∧ hosted.lost = [] ∧ hosted.pcie.ecrcChk = false ∧
    (hosted.putPcie { hosted.pcie with ecrcChk := true }).pcie.ecrcChk = true ∧
    hosted.barOf (2 ^ 41) = some (true, 0) ∧ hosted.barOf (2 ^ 41 + 0xFFFFFFFFF) = some (true, 0xFFFFFFFFF) ∧
    apertureAddr (hosted.fld A.mbxAper F.mbxAper.BASE) 0x2FFFFF = 0x10000002FFFFF ∧ locOf 0x10000002FFFFF = .shelf 0 0x2FFFFF ∧
    (0x10000002FFFFF : Nat) = shelfKey 0 0x2FFFFF ∧ 0x10000002FFFFF % 256 + 1 ≤ 256 ∧ hosted.accepts 0x10000002FFFFF 1 = true ∧
    locOf 0x300000 = .tby 0x300000 ∧ hosted.accepts 0x300000 1 = false := by decide

/-- The aperture at the first Tallboy codeword, at a register and at an address that holds nothing. -/
theorem witness_hostRequests_bulk : ∀ s ∈ [(hosted.setFld A.mbxAper F.mbxAper.BASE 0).setFld (A.tbyStat 0) F.tbyStat.INIT 1],
    apertureAddr (s.fld A.mbxAper F.mbxAper.BASE) 63 = 63 ∧ locOf 63 = .tby 63 ∧ 63 % 256 + 1 ≤ 256 ∧ s.accepts 63 1 = true ∧
    s.writePermitted 2 63 = true ∧ s.soundAt 63 1 ∧ locOf A.numSeed = .reg A.numSeed ∧ s.accepts A.numSeed 8 = true ∧
    A.numSeed % 256 + 8 ≤ 256 ∧ locOf 0x200000000000 = .none ∧ s.accepts 0x200000000000 8 = true := by
  unfold State.soundAt; decide

theorem witness_hostRequests_bar0 : hosted.barOf (2 ^ 40 + 0x3FFF) = some (false, 0x3FFF) ∧ 0x3FFF + 1 ≤ 0x4000 ∧
    hosted.barOf (2 ^ 40 + 0x18038) = some (false, 0x18000 + 8 * 7) ∧
    hosted.barOf (2 ^ 40 + 0x1000000 + A.numSeed % 2 ^ 24) = some (false, 0x1000000 + A.numSeed % 2 ^ 24) ∧
    0x1000000 + A.numSeed % 2 ^ 24 + 8 ≤ 0x2000000 ∧
    windowAddr (hosted.fld A.mbxRwin F.mbxRwin.BASE) (0x1000000 + A.numSeed % 2 ^ 24) = some A.numSeed ∧
    A.numSeed ∈ plainRegs 0 0 0 0 ∧ hosted.memReady A.numSeed 8 = true ∧ hosted.flag A.mbxCtl F.mbxCtl.RWWR = false ∧
    (hosted.setFld A.mbxCtl F.mbxCtl.RWWR 1).flag A.mbxCtl F.mbxCtl.RWWR = true ∧ hosted.rst.on = true ∧ State.reset.rst.on = false := by decide

/-- The endpoint may send, and vector `v` has an open entry. -/
def msixOn (v : Nat) : State :=
  hosted.putPcie { hosted.pcie with bme := true, msixEn := true, table := [(v, (0x100, 5, false))], pba := [v], merged := [v] }

theorem witness_msix : (63 : Nat) ∈ (msixOn 63).pcie.pba ∧ (msixOn 63).vectorOpen 63 = true ∧ (63 : Nat) ∈ (msixOn 63).pcie.merged ∧
    (msixOn 63).heldOff 63 = false ∧ hosted.vectorOpen 63 = false ∧ (63 : Nat) ∉ hosted.pcie.merged := by decide

/-- An event is raised, with `n` accepted ones waiting. -/
def raised (n : Nat) : State := on.putEvt { Evt.reset with raised := [⟨0x80, evSource 1 3, leBytes 16 0⟩], queue := List.replicate n ⟨0, 0, []⟩, accepting := true }

theorem witness_eventRecords : ∀ n ∈ [0, 255, 256], (raised n).evt.raised = ⟨0x80, evSource 1 3, leBytes 16 0⟩ :: [] ∧ (raised n).evt.lost = none ∧
    (raised n).evt.queue.length = n ∧ on.evt.raised = [] ∧ on.evt.queue = [] := by decide +kernel

/-- A record of class 7 waits; the ring of 64 entries stands at the start of stack 0, empty or full. -/
def recorded (tail : Nat) : State :=
  ((((tbyOn.putPcie (msixOn 39).pcie).putEvt { Evt.reset with queue := [⟨64, BitVec.ofNat 64 (0x80 * 2 ^ 38), leBytes 16 9⟩] }).setFld A.evtRingCtl
    F.evtRingCtl.EN 1).setFld A.evtRingCtl F.evtRingCtl.SIZE 6).setFld A.evtRingCtl F.evtRingCtl.TAIL tail

theorem witness_eventRecords_write : ∀ p ∈ [(0, false), (1, true)], ∀ s ∈ [recorded p.1], s.evt.raised = [] ∧
    s.evt.queue = ⟨64, BitVec.ofNat 64 (0x80 * 2 ^ 38), leBytes 16 9⟩ :: [] ∧ s.flag A.evtRingCtl F.evtRingCtl.EN = true ∧
    s.ringRoom 64 = p.2 ∧ s.fld A.evtRingBase F.evtRingBase.BASE * 32 + 32 * (64 % s.ringSize) = 0 ∧ locOf 0 = .tby 0 ∧
    s.writePermitted 5 0 = true ∧ s.soundAt 0 32 ∧ s.lost.contains (5, 0) = false ∧ evClass 0x80 = 7 ∧
    s.fldBit A.evtMsix F.evtMsix.CMASK 7 = false ∧ s.heldOff 39 = false ∧ s.vectorOpen 39 = true := by
  unfold State.soundAt; decide

theorem witness_eventRecords_masked : ((recorded 1).setFld A.evtMsix F.evtMsix.CMASK 0x80).fldBit A.evtMsix F.evtMsix.CMASK 7 = true ∧
    (∀ s ∈ [((recorded 1).setFld A.evtMsix F.evtMsix.HOLDOFF 1).putPcie { (recorded 1).pcie with sentAt := [(39, 0)] }],
      s.heldOff 39 = true) ∧
    (on.flag A.evtRingCtl F.evtRingCtl.EN = false) ∧ (on.vectorOpen 39 = false) := by decide

theorem test_unknown_code : after (exec .mbxTake (asking 3 0x0C00 0 [])) (fun t =>
    (t.mbxDone 3, t.mem.read (slotBase + 512 * 3 + 256) 10)) = some (true, leBytes 2 0x0C00 ++ leBytes 2 0 ++ leBytes 4 0xABCD ++ leBytes 2 0x10) := by
  decide

/-! ### The commands of the mailboxes -/

/-- Mailbox 31 asks for a command of the right length. -/
def asks (code : Nat) (p : List Byte) : State := asking 31 code p.length p

/-- A mailbox command meets what every clause on it asks, each with an admissible payload. -/
theorem witness_asks : ∀ q ∈ [(0x0800, []), (0x0100, []), (0x0101, []), (0x0102, [1]), (0x0102, [2]), (0x0102, [3]),
      (0x0200, leBytes 8 (2 ^ 49) ++ leBytes 8 64 ++ leBytes 8 2), (0x0201, []), (0x0202, []), (0x0203, []),
      (0x0300, leBytes 2 0x3FFF)], (asks q.1 q.2).asks 31 q.1 q.2 := by
  unfold State.asks; decide +kernel

theorem witness_asks_units : ∀ q ∈ [(0x0400, leBytes 8 5 ++ [(1 : Byte)] ++ leBytes 2 1023), (0x0401, leBytes 8 (2 ^ 50 - 32) ++ [31, 1]),
      (0x0A00, leBytes 8 (2 ^ 50 - 32) ++ [31, 1]), (0x0500, leBytes 2 0x8001 ++ [1, 0]),
      (0x0501, [(1 : Byte)] ++ leBytes 8 64 ++ [31] ++ leBytes 2 0xFFFF ++ [1]), (0x0600, []), (0x0601, []),
      (0x0602, [(255 : Byte)] ++ leBytes 2 5 ++ leBytes 4 1 ++ [7, 1]), (0x0700, leBytes 8 (2 ^ 48 - 1) ++ leBytes 4 999999999),
      (0x0701, [(3 : Byte)] ++ leBytes 4 0xFFFFFFFF ++ [1]), (0x0801, leBytes 4 70000),
      (0x0A01, leBytes 8 (2 ^ 50)), (0x0B01, [])], (asks q.1 q.2).asks 31 q.1 q.2 := by
  unfold State.asks; decide +kernel

theorem beyond (s : State) (n : Nat) : (addrBad (2 ^ 50) n || (s.memReady (2 ^ 50) n && !s.memPending (2 ^ 50) n)) = true := by
  cases n with
  | zero => rfl
  | succ n =>
    have : addrBad (2 ^ 50) (n + 1) = true := by unfold addrBad; exact decide_eq_true (by omega)
    rw [this, Bool.true_or]

theorem cert_reaches {s : State} {i : Nat} (hc : s.mbxCode i = 0x0900) (ha : field ((s.request i).drop 16) 0 8 = 2 ^ 50) : s.cmdReaches i = true := by
  have hr : s.cmdRanges i = [(2 ^ 50, Config.certChain.length)] := by
    unfold State.cmdRanges
    rw [hc, ← ha]
    rfl
  unfold State.cmdReaches
  rw [hr, hc, List.all_cons, beyond]
  rfl

theorem asks_of_reaches {s : State} {i code : Nat} {p : List Byte} (hr : s.cmdReaches i = true) (h1 : s.rst.on = true)
    (h2 : s.mbxCode i = code) (h3 : s.mctpOwns i = false) (h4 : field (s.request i) 2 2 = p.length)
    (h5 : ((s.request i).drop 16).take p.length = p) (h6 : s.fwTakes = true) (h7 : s.hut.order = [i]) (h8 : s.mbxBusy i = true)
    (h9 : s.hut.ops = []) : s.asks i code p := by
  refine ⟨h1, ?_, h3, h4, h5⟩
  simp [State.takes, State.runnable, hr, h2, h6, h7, h8, h9]

/-- The certificate's length is the board's: at the end of the address space the range is wrong or empty (log 17). -/
theorem witness_asks_cert : (asks 0x0900 (leBytes 8 (2 ^ 50))).asks 31 0x0900 (leBytes 8 (2 ^ 50)) :=
  asks_of_reaches (cert_reaches (by decide +kernel) (by decide +kernel)) (by decide +kernel) (by decide +kernel) (by decide +kernel)
    (by decide +kernel) (by decide +kernel) (by decide +kernel) (by decide +kernel) (by decide +kernel) (by decide +kernel)

/-- The command's memory operand lies in the Shelf of Bench 0. -/
def shelf0 : Nat := 0x1000000000000
def asksOf (code : Nat) (p l : List Byte) : State := withShelf (asks code p) 0 0 l

/-- A job graph (15 R433): header, one register entry and 800 entries of no thread. -/
def graphHead (reg : Nat) : List Byte :=
  leBytes 4 1 ++ leBytes 4 77 ++ leBytes 8 80 ++ leBytes 8 64 ++ leBytes 8 1 ++ leBytes 32 0 ++ leBytes 8 reg ++ leBytes 8 3
def graph (reg : Nat) : List Byte := graphHead reg ++ List.replicate 12800 0

def loading (reg : Nat) : State := asksOf 0x0200 (leBytes 8 shelf0 ++ leBytes 8 12880 ++ leBytes 8 1) (graphHead reg)

theorem witness_jobLoad : ∀ r ∈ [A.numStep 3 0, A.tmrId], (loading r).asks 31 0x0200 (leBytes 8 shelf0 ++ leBytes 8 12880 ++ leBytes 8 1) ∧
    (loading r).job = 0 ∧ shelf0 % 64 = 0 ∧ 64 ≤ 12880 ∧ shelf0 + 12880 ≤ 2 ^ 50 := by
  unfold State.asks; decide +kernel

theorem witness_jobLoad_graph : ∀ r ∈ [A.numStep 3 0, A.tmrId], (loading r).fwRead shelf0 12880 = (loading r, some (graph r)) := by
  intro r hr
  have hl : ∀ r ∈ [A.numStep 3 0, A.tmrId], (loading r).lost = [] := by decide +kernel
  rw [shelf0, shelf_read _ _ (by decide) (hl r hr)]
  have h0 : ∀ r ∈ [A.numStep 3 0, A.tmrId], (loading r).mem.read 0x1000000000000 80 = graphHead r := by decide +kernel
  have h1 : ∀ r ∈ [A.numStep 3 0, A.tmrId], ∀ c ∈ (loading r).mem, c.1 < 0x1000000000000 + 80 ∨ 0x1000000000000 + 80 + 12800 ≤ c.1 := by
    decide +kernel
  rw [show (12880 : Nat) = 80 + 12800 from rfl, read_add, h0 r hr, read_zeros (h1 r hr), graph]

theorem witness_jobLoad_checks : ∀ r ∈ [A.numStep 3 0, A.tmrId], graphBad (graph r) = false ∧ graphFits (graph r) 12880 = true ∧
    field (graph r) 8 8 = 80 ∧ field (graph r) 16 8 = 64 ∧ field (graph r) 24 8 = 1 ∧ pairsOf ((graph r).drop 64) 1 = [(r, 3)] := by
  decide +kernel

theorem witness_jobLoad_lists : listable (A.numStep 3 0) = true ∧ listable A.tmrId = false ∧
    [(A.tmrId, 3)].findIdx? (fun e => !listable e.1) = some 0 := by decide

theorem witness_jobLoad_benches : ∀ r ∈ [A.numStep 3 0, A.tmrId], ∀ e ∈ pairsOf ((graph r).drop 80) 800, e.1 % 8 = 0 ∧ e.2 % 8 = 0 := by
  intro r _ e h
  have hd : (graph r).drop 80 = List.replicate 12800 0 := List.drop_left' (by simp [graphHead, leBytes])
  rw [hd, pairsOf, List.mem_map] at h
  obtain ⟨i, -, rfl⟩ := h
  simp only [zeros_field]
  decide

/-- Every state of the job that a clause names, and the start of the threads of a LOADED one. -/
theorem witness_jobs : ∀ j < 4, ((asks 0x0201 []).setFld A.mbxStat F.mbxStat.JOB j).job = j ∧
    ((asks 0x0201 []).setFld A.mbxStat F.mbxStat.JOB j).rst.level = 0 ∧ ((asks 0x0201 []).setFld A.mbxStat F.mbxStat.JOB j).rst.due = none := by
  decide

theorem witness_jobStop : FMap.has (running .F).benches 3 = true ∧ (running .F).live 3 Thr.F.ctx = true := by decide

theorem witness_maps : (asks 0x0300 (leBytes 2 0x3FFF)).flag A.tmrId F.tmrId.ASSIGNED = false ∧
    A.tmrId * 64 + F.tmrId.MODNUM.lo ∉ (asks 0x0300 (leBytes 2 0x3FFF)).rwo ∧
    (seven.flag A.tmrId F.tmrId.ASSIGNED = true) ∧
    (∀ s ∈ [asksOf 0x0301 (leBytes 8 shelf0 ++ leBytes 2 0x3FFF ++ leBytes 2 1) (leBytes 8 6 ++ leBytes 8 1)],
      s.asks 31 0x0301 (leBytes 8 shelf0 ++ leBytes 2 0x3FFF ++ leBytes 2 1) ∧ shelf0 + 16 ≤ 2 ^ 50 ∧ 0x3FFF + 1 ≤ 16384 ∧
        s.fwRead shelf0 16 = (s, some (leBytes 8 6 ++ leBytes 8 1))) ∧
    (∀ s ∈ [(List.range 16).foldl (fun s k => s.setFld (A.tbyStat k) F.tbyStat.INIT 1)
        (asksOf 0x0302 (leBytes 8 shelf0 ++ leBytes 8 4 ++ leBytes 8 (2 ^ 50)) [1, 2, 3, 4])],
      s.asks 31 0x0302 (leBytes 8 shelf0 ++ leBytes 8 4 ++ leBytes 8 (2 ^ 50)) ∧ s.job ≠ 2 ∧
        s.fwRead shelf0 4 = (s, some [1, 2, 3, 4])) := by
  unfold State.asks; decide +kernel

/-- Two owners and three tensors (10 R313, R314): blocks 0 and 1 of five go to owner 0, the rest to owner 1; the whole tensors follow. -/
theorem witness_maps_shards : ∀ j ∈ [JobMap.mk [3, 9] [.split 7 5, .whole 8 1, .units [10, 11] 4]], j.ordered = true ∧
    (JobMap.mk [9, 3] []).ordered = false ∧ ShardDecl.split 7 5 ∈ j.tensors ∧
    j.place = [⟨3, 7, 0, 2⟩, ⟨3, 10, 0, 4⟩, ⟨3, 8, 0, 1⟩, ⟨9, 7, 2, 3⟩, ⟨9, 11, 0, 4⟩] ∧
    ∀ h < 2, splitFirst 5 2 h < splitFirst 5 2 (h + 1) := by decide

/-- The example of 10 R315: what modules 40 and 42 hold. -/
theorem test_shards : ∀ l ∈ [(JobMap.mk [40, 41, 42, 43] [.split 0x100 10, .split 0x101 7, .whole 0x200 8, .whole 0x201 8,
      .units [0x300, 0x301, 0x302, 0x303, 0x304] 3]).place],
    l.filter (·.owner == 40) = [⟨40, 0x100, 0, 2⟩, ⟨40, 0x101, 0, 1⟩, ⟨40, 0x200, 0, 8⟩, ⟨40, 0x304, 0, 3⟩] ∧
      l.filter (·.owner == 42) = [⟨42, 0x100, 5, 2⟩, ⟨42, 0x101, 3, 2⟩, ⟨42, 0x201, 0, 8⟩] := by decide

/-- The record of a key exchange in phase 1 and 2 (17 R483), with the base point as the other side's keys; in phase 2 the engine
holds a private key. -/
def keyRecord (phase : Nat) : List Byte := leBytes 24 phase ++ ptBytes sm2G ++ ptBytes sm2G ++ leBytes 104 0
def keying (phase : Nat) : State := (asksOf 0x0901 ([(4 : Byte)] ++ leBytes 8 shelf0) (keyRecord phase)).putSec { Sec.reset with eph := [(4, [1])] }

theorem witness_keyx : ∀ n ∈ [1, 2], (keying n).asks 31 0x0901 ([(4 : Byte)] ++ leBytes 8 shelf0) ∧ shelf0 + 256 ≤ 2 ^ 50 ∧
    (keying n).fwRead shelf0 256 = (keying n, some (keyRecord n)) ∧ field (keyRecord n) 1 1 ≤ 1 ∧ field (keyRecord n) 3 5 = 0 ∧
    field (keyRecord n) 0 1 = n ∧ FMap.get? (keying n).sec.eph (4 : Byte).toNat = some [1] ∧ (keying n).keyPlace (4 : Byte).toNat = some 0 ∧
    FMap.get? ((keying n).putSec Sec.reset).sec.eph (4 : Byte).toNat = none := by
  unfold State.asks; decide +kernel

/-- Whose keys they are, and that they are points; the key itself is a function of the module's private key, which is free (log 5). -/
theorem witness_keyx_points : (ptOf (((keyRecord 2).drop 24).take 64)).isSome = true ∧ (ptOf (((keyRecord 2).drop 88).take 64)).isSome = true := by
  decide +kernel

/-- An image of a header alone. -/
def stagingFw : State := asksOf 0x0B00 (leBytes 8 shelf0 ++ leBytes 8 256) [1]

theorem witness_fwStage : stagingFw.asks 31 0x0B00 (leBytes 8 shelf0 ++ leBytes 8 256) ∧ stagingFw.hut.fwHold ≠ 2 ∧ 256 ≤ 256 ∧
    256 ≤ 32 * 1024 * 1024 + 256 ∧ stagingFw.fwRead shelf0 256 = (stagingFw, some ((1 : Byte) :: leBytes 255 0)) ∧
    (stagingFw.putHut { stagingFw.hut with fwHold := 2 }).hut.fwHold = 2 := by
  unfold State.asks; decide +kernel

/-- What the image's header says, and whether its signature holds, are free values (log 17): where they say so, the image is good. -/
theorem witness_fwStage_good (hdr : List Byte) (h0 : imageNum 0 hdr = 1) (h1 : imageNum 1 hdr = 64) (h2 : imageNum 2 hdr = 0)
    (h4 : sm2Verify Config.fwKey (hdr.take 128) (Config.imageField 4 hdr) = true)
    (h3 : sm3 [] = Config.imageField 3 hdr) : stagingFw.verifyImage hdr [] = some ⟨64, Config.imageField 3 hdr, true⟩ := by
  have hs : stagingFw.fuse.svn = 0 := by decide
  simp only [State.verifyImage, h0, h1, h2, h3, h4, hs]
  simp

/-- Where the magic value is wrong, it is not. -/
theorem witness_fwStage_bad (hdr : List Byte) (h0 : imageNum 0 hdr = 0) : stagingFw.verifyImage hdr [] = none := by
  simp [State.verifyImage, h0]

theorem witness_fwActivate : ∀ s ∈ [(asks 0x0B01 []).putFlash { Flash.new with staged := some 1 }],
    s.hut.fwHold = 0 ∧ s.flash.staged = some 1 ∧ s.flag A.rstStrap F.rstStrap.HOST = false ∧ s.job = 0 ∧ s.rst.due = none ∧
      (s.putHut { s.hut with fwHold := 1 }).hut.fwHold ≠ 0 ∧ (asks 0x0B01 []).flash.staged = none := by decide

theorem test_powerStatus : after (exec (.powerStatus 0) (asking 0 0x0800 0 [])) (fun t => t.mem.read (slotBase + 256 + 16) 8) =
    some (leBytes 4 0 ++ leBytes 4 10500) := by decide

/-! ### Management, takeover and resets -/

/-- The module on the management bus. -/
def onBus : State := on.putMgmt { Mgmt.reset with i3c := some 8 }

theorem witness_management : onBus.rst.on = true ∧ onBus.mgmt.i3c.isSome = true ∧ onBus.mgmt.upd = none ∧ onBus.hut.fwHold = 0 ∧
    (onBus.setFld A.mbxStat F.mbxStat.FWSTATE 1).fld A.mbxStat F.mbxStat.FWSTATE = 1 ∧
    (onBus.setFld A.mbxCtl F.mbxCtl.M31 1).flag A.mbxCtl F.mbxCtl.M31 = true ∧ onBus.mbxBusy 31 = false ∧
    (onBus.setOwn 31 true false).mbxBusy 31 = true ∧ onBus.spdmOpen true = true ∧ hosted.spdmOpen false = true ∧
    onBus.transcript true = (0, []) ∧ hosted.rst.on = true ∧ hosted.pcie.up = true ∧ 0 ≤ Config.certChain.length := by
  simp; decide

theorem witness_management_late : ∀ n < 4, (onBus.setTranscript true (n, [])).transcript true = (n, []) := by decide

theorem witness_management_update : ∀ s ∈ [onBus.putMgmt { onBus.mgmt with upd := some ⟨256, [(0, 1)]⟩ }],
    s.mgmt.upd = some ⟨256, [(0, 1)]⟩ ∧ 256 ≤ (⟨256, [(0, 1)]⟩ : PldmUpd).size := by decide

/-- A temperature between the limits and one beyond the first. -/
theorem witness_management_sensor : sensorLevel 2 0 (59 * 256) = 0 ∧ sensorLevel 2 0 (59 * 256 + 1) = 1 ∧
    FMap.getD onBus.mgmt.crossed 2 0 = 0 := by decide

/-- Desk 1 of Bench 3 is hosted on Desk 2; a takeover has begun, or is being copied. -/
def hostedDesk : State := (on.modDesk 3 1 (fun x => { x with host := some 2 })).setFld (A.benchId 3) F.benchId.DESK_LIVE 13
def takingOver (forced : Bool) (sp : Option Nat) : State := hostedDesk.modBench 3 (fun x => { x with takeover := some ⟨0, forced, sp⟩ })

theorem witness_takeover : hostedDesk.openSpares 0 = 100 :: [101, 102, 103] ∧ hostedDesk.rst.level = 0 ∧ hostedDesk.hosted 3 = true ∧
    (hostedDesk.bench 3).copying = false ∧ (hostedDesk.bench 3).takeover = none ∧ hostedDesk.layerBoundary 3 = true ∧
    (takingOver true none).hosted 3 = true ∧ ((takingOver true none).bench 3).copying = false ∧
    (((takingOver true none).bench 3).takeover.map (·.forced)) = some true ∧ (takingOver true none).desksStill 3 = true ∧
    (on.putSpares [(0, [])]).openSpares 0 = [] ∧ on.hosted 3 = false ∧ (on.bench 3).faultAt = none ∧
    (takingOver false (some 100)).tmr.held = [] ∧ (∀ s ∈ [takingOver false (some 100)], s.openSpares 0 = [101, 102, 103]) ∧
    ((takingOver false (some 100)).bench 3).takeover = some ⟨0, false, some 100⟩ ∧ ((takingOver false (some 100)).bench 3).moves = [] ∧
    ((moveOut farCame).bench 3).moves ≠ [] := by decide

theorem witness_takeover_wait : ∀ s ∈ [(hostedDesk.modBench 3 (fun x => { x with faultAt := some 0 })).putPulse
    (max 1 (on.fld A.evtFltCtl F.evtFltCtl.TKOWAIT) * 1000 * 800)],
    (s.bench 3).faultAt = some 0 ∧ s.hosted 3 = true ∧ (s.bench 3).takeover = none ∧ s.openSpares 0 ≠ [] ∧
      s.reached 0 (max 1 (s.fld A.evtFltCtl F.evtFltCtl.TKOWAIT) * 1000) = true := by decide

theorem witness_takeover_rest : on.flt.pairsDead.contains 3 = false ∧ (on.putPulse 480000000000).reached on.flt.savedAt 600000000 = true ∧
    (on.putPulse 479999999999).reached on.flt.savedAt 600000000 = false := by decide

theorem test_second_mismatch : after (exec (.hutchLockstepMismatch 2) (on.putFlt { Flt.reset with pairAt := [(2, 0)] })) (fun t => t.flt.pairsDead) =
    some [2] := by decide

/-- A reset requested, with its level. -/
def resetDue (n : Nat) : State := on.putRst { on.rst with due := some (n, 5, 8), trial := some 0 }

theorem witness_writeOnceReturns : on.rst.on = true ∧ on.rst.due = none ∧ on.rst.taken < 2 ∧
    ((resetDue 2).putPulse 5).rst.due = some (2, 5, 8) ∧ 5 ≤ ((resetDue 2).putPulse 5).pulse := by decide

theorem witness_resets : (resetDue 2).rst.on = true ∧ (resetDue 1).rst.level = 0 ∧ (resetDue 1).rst.due = some (1, 5, 8) ∧
    (on.setFld A.rstBoot F.rstBoot.STATE 1).fld A.rstBoot F.rstBoot.STATE = 1 ∧ (on.setFld A.rstBoot F.rstBoot.STATE 2).fld A.rstBoot F.rstBoot.STATE ≠ 1 ∧
    ((on.putRst { on.rst with trial := some 0 }).putPulse 8000000000).reached 0 10000000 = true ∧ on.rst.taken = 0 ∧
    on.rst.driving = false ∧ (on.putRst { on.rst with driving := true, driveEnd := some 5 }).rst.driving = true ∧
    (on.putRst { on.rst with level := 1 }).rst.level = 1 ∧ (on.putRst { on.rst with level := 2 }).rst.level = 2 ∧
    on.flag A.rstCtl F.rstCtl.PERST = true ∧ (on.wr A.rstCtl 0).flag A.rstCtl F.rstCtl.PERST = false ∧
    (on.setFld A.rstCtl F.rstCtl.HOTRST 1).flag A.rstCtl F.rstCtl.HOTRST = true ∧ (on.wr A.rstCtl 0).flag A.rstCtl F.rstCtl.HOTRST = false := by
  decide

theorem witness_resets_supply : (∀ r ∈ [1, 2, 3, 5], ({ Rst.reset with why := [r] } : Rst).why = [r]) ∧
    ({ Rst.reset with retryAt := some 5 } : Rst).retryAt = some 5 ∧ (on.putPulse 8000).reached on.pwr.stepAt 10 = true ∧
    (∀ k < 8, on.throttle k ≤ 64) := by decide

/-- The ROM waits for the host's image: it cannot be read where a crossing lost the read (14 R407), and is good where the free
values of its header say so (log 17). -/
def waitingImage (l : List (Nat × Nat)) : State := (tbyAll.setFld A.rstBoot F.rstBoot.STATE 1).putLost l

theorem witness_resets_image (h2 : imageNum 2 ((waitingImage [(7, 0)]).mem.read 0 256) = 0) :
    (waitingImage [(7, 0)]).imageReady 0 = true ∧ ((waitingImage [(7, 0)]).readImage 0).2 = none ∧
      (waitingImage []).fld A.rstBoot F.rstBoot.STATE = 1 ∧ (on.setFld A.rstBoot F.rstBoot.STATE 1).imageReady 0 = false := by
  refine ⟨?_, ?_, by decide, ?_⟩
  · simp only [State.imageReady, h2]
    decide +kernel
  · have h : ((waitingImage [(7, 0)]).fwRead 0 256).2 = none := by decide +kernel
    simp only [State.readImage, h]
  · have h : (on.setFld A.rstBoot F.rstBoot.STATE 1).memReady 0 256 = false := by decide +kernel
    simp only [State.imageReady, h, Bool.false_and]

theorem witness_resets_image_good (h0 : imageNum 0 (leBytes 256 0) = 1) (h1 : imageNum 1 (leBytes 256 0) = 64)
    (h2 : imageNum 2 (leBytes 256 0) = 0) (h4 : sm2Verify Config.fwKey ((leBytes 256 0).take 128) (Config.imageField 4 (leBytes 256 0)) = true)
    (h3 : sm3 [] = Config.imageField 3 (leBytes 256 0)) :
    ((waitingImage []).readImage 0).2 = some ⟨64, Config.imageField 3 (leBytes 256 0), true⟩ := by
  have hr : (waitingImage []).fwRead 0 256 = (waitingImage [], some (leBytes 256 0)) := by decide +kernel
  have hb : (waitingImage []).fwRead 256 0 = (waitingImage [], some []) := by decide +kernel
  have hs : (waitingImage []).fuse.svn = 0 := by decide
  simp only [State.readImage, hr, h2, hb, State.verifyImage, h0, h1, h3, h4, hs, Option.bind]
  simp

/-- An attempt whose last arrival is on its way, at the last GEN. -/
def lastGen : State := ((armedAt [.arrival 0 2 1 10]).setCounter 11 0xFFFFFFFF).setLw 8 1 lwArrived 1

theorem witness_genWraps : (8 : Nat) = wordOf (9 : BitVec 16).toNat ∧ lastGen.matches 8 1 = true ∧ lastGen.lw 8 1 lwArrived + 1 < 65536 ∧
    2 ≤ lastGen.lw 8 1 lwArrived + 1 ∧ lastGen.lw 8 1 lwExpect = 0 ∧ lastGen.lw 8 0 lwAbort = 0 ∧ lastGen.lw 8 0 lwDisagree = 0 ∧
    (lastGen.lw 8 0 lwFlags).testBit 3 = false ∧ (0 : Nat).testBit 3 = false ∧ lastGen.lwGen 8 = 2 ^ 32 - 1 ∧
    lastGen.reaches vHere (8 : BitVec 16).toNat whoF (.arrival 0 2 1 10) 0x3FFF := by
  unfold State.reaches; decide

/-! ### Sideboards -/

/-- Every stack is initialised and every Sideboard enabled; slot 0 has the descriptor at 0x10000, intake slot 5 of Sideboard 0 the
record at byte 5 × 8,256 of the stack, 0xA0140 of the interleaved view, and step 7 a record at 0x20000 + 64 × 7. Sideboard 0 has six intake slots from the start of its stack. -/
def sbdOn (d r : List Byte) : State :=
  let s := (List.range 16).foldl (fun s t => ((s.setFld (A.tbyStat t) F.tbyStat.INIT 1).setFld (A.sbdCtl t) F.sbdCtl.EN 1).setFld (A.sbdSteprec t)
    F.sbdSteprec.ADDR 0x800) on
  let s := (s.setFld (A.sbdLtab 0) F.sbdLtab.BASE 0x200).setFld (A.sbdLtab 0) F.sbdLtab.COUNT 1
  let s := (s.setFld (A.sbdIntakeBase 0) F.sbdIntakeBase.ADDR 0x4000000000).setFld (A.sbdIntake 0) F.sbdIntake.C 6
  s.putMem (((s.mem.write 0xA0140 r).write 0x10000 d).write (0x20000 + 64 * 7) (leBytes 6 7))

/-- A descriptor of one tensor block under a rule (08 R233), and an END record of slot `l` (08 R225). -/
def descOf (rule : Nat) : List Byte := leBytes 8 (rule * 2 ^ 16) ++ leBytes 8 0 ++ leBytes 8 1 ++ leBytes 104 0
def endRec (l step : Nat) : List Byte := leBytes 8 (4 * 2 ^ 32 + 2 ^ 36 + l * 2 ^ 40) ++ leBytes 8 0 ++ leBytes 8 step

/-- The slot takes step 7 at every Sideboard, its intake done or not. -/
def stepping (s : State) (done : Bool) : State :=
  s.putSbd { Sbd.reset with units := (List.range 16).map (fun j => (j, { SbdUnit.reset with
    hdr := if j = 0 then [(5, 2 ^ 64 - 1)] else [], slots := [(0, { SbdSlot.reset with step := some 7, desc := descOf 1, done := done })],
    polls := [(7, ⟨0, 0, done, false⟩)] })) }

/-- The record of a slot of the table, and one of none. -/
theorem witness_sideboard_record : ∀ l ∈ [0, 1], ∀ s ∈ [(stepping (sbdOn (descOf 1) (endRec l 7)) false)],
    s.rst.level = 0 ∧ s.flag (A.sbdCtl 0) F.sbdCtl.EN = true ∧ FMap.getD (s.unit 0).hdr 5 0 = 2 ^ 64 - 1 ∧
      (s.unit 0).waiting.contains 5 = false ∧ (∀ p ∈ (s.unit 0).slots, p.2.recs.contains 5 = false) ∧ s.sbdCount = 1 ∧
      (s.readRec 0 5).2.slot = l ∧ (s.readRec 0 5).2.kind = 1 ∧ (s.readRec 0 5).2.fmt = 4 ∧ (s.readRec 0 5).2.step = 7 ∧
      udescOk ((s.unit 0).slot 0).desc = true ∧ ((s.unit 0).slot 0).step = some 7 ∧ ((s.unit 0).slot 0).held = false ∧
      ((s.unit 0).slot 0).done = false ∧ ((s.unit 0).slot 0).repro = false ∧ FMap.getD (s.unit 0).hdr 4 0 ≠ 2 ^ 64 - 1 ∧
      on.flag (A.sbdCtl 0) F.sbdCtl.EN = false := by decide +kernel

theorem witness_sideboard_intake : ∀ s ∈ [(sbdOn (descOf 1) (endRec 0 7))], s.intake 0 = (0, 6, 1) ∧ 5 < 6 * 1 := by
  decide +kernel

theorem witness_sideboard_polls : ∀ s ∈ [(stepping (sbdOn (descOf 1) (endRec 0 7)) false).putPulse 800000000000],
    FMap.get? (s.unit 0).polls (7 : BitVec 48).toNat = some ⟨0, 0, false, false⟩ ∧ s.reached 0 10 = true ∧ s.reached 0 (s.gtmo 0) = true ∧
      FMap.get? (s.unit 0).polls 8 = none ∧
      FMap.get? ((stepping s true).unit 0).polls (7 : BitVec 48).toNat = some ⟨0, 0, true, false⟩ := by
  decide +kernel

/-- A norm of step 7 was sent, and its result is awaited; the collector's area is at 0x30000 of stack 0. -/
def normWaits : State :=
  let s := (sbdOn (descOf 1) (endRec 0 7)).putSbd { Sbd.reset with norms := [⟨7, [0], 4, false, some 0, false, false, none⟩] }
  let s := ((s.setFld A.sbdNorm F.sbdNorm.GCNT 1).setFld A.sbdNorm F.sbdNorm.COLL 0x3FFF).setFld A.sbdNormArea F.sbdNormArea.BASE 0xC00
  ((s.setFld A.sbdNorm F.sbdNorm.CIDX 20).setFld A.sbdNormArea F.sbdNormArea.RIDX 21).putPulse 800000000000

theorem witness_sideboard_norm : normWaits.normOf (7 : BitVec 48).toNat = some ⟨7, [0], 4, false, some 0, false, false, none⟩ ∧
    normWaits.reached 0 (normWaits.gtmo 0) = true ∧ normWaits.collectStep = some ⟨7, [0], 4, false, some 0, false, false, none⟩ ∧
    normWaits.isHere (normWaits.fld A.sbdNorm F.sbdNorm.COLL) = true ∧ normWaits.fld A.sbdNorm F.sbdNorm.GCNT = 1 ∧
    normWaits.fld A.sbdNorm F.sbdNorm.RANK = 0 ∧ normWaits.armed (normWaits.fld A.sbdNorm F.sbdNorm.CIDX) = false ∧
    1 ≤ (normWaits.setCounter 20 1).counter ((normWaits.setCounter 20 1).fld A.sbdNorm F.sbdNorm.CIDX) ∧
    locOf normWaits.normArea = .tby 0x30000 ∧ normWaits.normArea % 64 = 0 ∧ normWaits.writePermitted 3 0x30000 = true ∧
    normWaits.sbd.sumWait = .idle ∧ normWaits.lost = [] ∧ normWaits.sync.waiters = [] ∧ on.collectStep = none ∧ on.normOf 7 = none ∧
    (normWaits.putSbd { normWaits.sbd with sumWait := .done }).sbd.sumWait = .done ∧ on.fld A.sbdNorm F.sbdNorm.GCNT = 0 ∧
    on.sbd.resultWait ≠ .done := by decide +kernel

theorem witness_sideboard_norm_sound : normWaits.soundAt 0x30000 320 := by unfold State.soundAt; decide +kernel

/-- The result line of step 7 has come. -/
theorem witness_sideboard_result : ∀ s ∈ [(normWaits.setCounter 21 1).putMem (normWaits.mem.write 0x30000 (leBytes 8 7 ++ leBytes 4 0x40000000))],
    s.fld A.sbdNorm F.sbdNorm.GCNT ≠ 0 ∧ s.counter (s.fld A.sbdNormArea F.sbdNormArea.RIDX) = 1 ∧ s.sbd.resultWait = .idle ∧
      (∃ m ∈ s.sbd.norms, m.sent.isSome = true ∧ m.result = none) ∧
      s.armed (s.fld A.sbdNormArea F.sbdNormArea.RIDX) = false ∧
      numAt (s.memRead 3 s.normArea 16).2.1 0 6 = 7 ∧ s.normOf 7 = some ⟨7, [0], 4, false, some 0, false, false, none⟩ := by decide +kernel

/-- An update of a rule is due. -/
theorem witness_sideboard_update : ∀ rule ∈ [0, 1], ∀ s ∈ [stepping (sbdOn (descOf rule) (endRec 0 7)) true],
    (s.readDesc 0).2 = descOf rule ∧ (s.sslot 0 0).step = some 7 ∧ s.rst.level = 0 ∧
      (∀ j < 16, s.flag (A.sbdCtl j) F.sbdCtl.EN = true ∧ s.flag (A.sbdCtl j) F.sbdCtl.HALT = false ∧
        s.flag (A.sbdRas j) F.sbdRas.FAULT = false ∧ (s.unit j).waiting = []) ∧ (∀ r ∈ s.sbd.runs, r.slot ≠ 0) ∧
      (on.sslot 0 0).step = none ∧
      s.intakeDone 0 7 = true ∧ s.isNext 0 7 = true ∧ s.sbd.runs = [] ∧ udescOk (descOf rule) = true ∧ (udesc (descOf rule)).rule = rule ∧
      s.fld A.sbdNorm F.sbdNorm.GCNT = 0 ∧ (∀ j < 16, (FMap.getD (s.unit j).polls 7 ⟨0, 0, false, false⟩).present = true) := by
  decide +kernel

theorem witness_sideboard_desc : ∀ rule ∈ [0, 1], (stepping (sbdOn (descOf rule) (endRec 0 7)) true).readDesc 0 =
    (stepping (sbdOn (descOf rule) (endRec 0 7)) true, descOf rule) := by decide +kernel

theorem witness_sideboard_recordAt : ∀ j < 16, (stepping (sbdOn (descOf 1) (endRec 0 7)) true).recordAt j 7 := by
  intro j hj
  have h : ∀ j < 16, ∀ s ∈ [stepping (sbdOn (descOf 1) (endRec 0 7)) true],
      locOf (s.fld (A.sbdSteprec j) F.sbdSteprec.ADDR * 64 + 64 * (7 % 16)) = .tby (0x20000 + 64 * 7) ∧
      numAt (s.mem.read (0x20000 + 64 * 7) 64) 0 6 = 7 ∧ s.soundAt (0x20000 + 64 * 7) 64 ∧ s.lost = [] := by
    unfold State.soundAt; decide +kernel
  exact ⟨_, h j hj _ List.mem_cons_self⟩

/-- An update of slot 0 runs. -/
def updating : State :=
  ((stepping (sbdOn (descOf 1) (endRec 0 7)) true).putSbd { (stepping (sbdOn (descOf 1) (endRec 0 7)) true).sbd with runs := [⟨0, 7, false, false, 30, none⟩] }).setFld
    (A.sbdStat 0) F.sbdStat.BUSY 1

theorem witness_sideboard_publish : updating.sbd.runs.find? (fun r => r.slot == 0) = some ⟨0, 7, false, false, 30, none⟩ ∧
    (∀ j < 16, (updating.unit j).waiting = []) ∧ updating.unitPending (unitExport 0) (fun _ => true) = false ∧ (30 : Nat) < 65536 ∧
    updating.armed 30 = false ∧ updating.sync.waiters = [] ∧ updating.sbd.runs.find? (fun r => r.slot == 4095) = none ∧
    updating.flag (A.sbdRas 0) F.sbdRas.FAULT = false ∧ updating.flag (A.sbdStat 0) F.sbdStat.BUSY = true ∧
    (updating.unit 0).repeats.length < 64 ∧ updating.rst.level = 0 ∧ (updating.unit 0).tries + 1 < 4 ∧
    4 ≤ ((updating.modUnit 0 (fun u => { u with tries := 3 })).unit 0).tries + 1 ∧
    (updating.setFld (A.sbdRas 0) F.sbdRas.FAULT 1).flag (A.sbdRas 0) F.sbdRas.FAULT = true ∧ (∃ r ∈ updating.sbd.runs, r.slot = 0) := by
  decide +kernel

/-! ### The Trestle -/

/-- Group 7 exchanges slot 0: it has SNAPSHOT at 0, SEND at 1 ms and APPLY at 2 ms of a round of a second, no CLOSE but `GAUTO`; global time
is valid, at 5.5 s, and the Trestle was enabled at 5 s. Partner entry 2 is site 9 with key slot 3, PRESENT, and heard by gateway port 35. -/
def trsOn : State :=
  let s := sbdOn (leBytes 8 (2 ^ 16 + 2 ^ 23) ++ leBytes 8 0 ++ leBytes 8 1 ++ leBytes 104 0) []
  let s := (((s.setFld A.trsPeriod F.trsPeriod.P 1000).setFld A.trsCtl F.trsCtl.EN 1).setFld A.trsCtl F.trsCtl.GAUTO 1).setFld A.gtStat F.gtStat.VALID 1
  let s := [(0, 1, 0), (1, 2, 1000), (2, 4, 2000)].foldl (fun (s : State) c =>
    (((s.setFld (A.trsCal c.1) F.trsCal.VALID 1).setFld (A.trsCal c.1) F.trsCal.ACTION c.2.1).setFld (A.trsCal c.1) F.trsCal.GROUP 7).setFld
      (A.trsCal c.1) F.trsCal.OFFSET c.2.2) s
  let s := ((s.setFld A.trsGtab F.trsGtab.ADDR 0x1000).setFld A.trsLin F.trsLin.ADDR 0x1400).setFld A.trsGcfg F.trsGcfg.ADDR 0x1800
  let s := ((((s.setFld (A.trsPart0 2) F.trsPart0.VALID 1).setFld (A.trsPart0 2) F.trsPart0.SITE 9).setFld (A.trsPart0 2) F.trsPart0.KEYSLOT 3).setFld
    (A.trsPart2 2) F.trsPart2.STATE 1)
  let s := (port 35 3 s).setFld (A.tmrPortStat 35) F.tmrPortStat.PEERGW 1
  let s := (((s.setFld A.tbyStageBase F.tbyStageBase.BASE 0).setFld (A.secKey 3) F.secKey.V0 1).putSec { s.sec with keys := [(6, List.replicate 16 1)] }).setFld A.tbyStageBase F.tbyStageBase.LIMIT 99
  ((s.putGt { s.gt with now := 5500000000 * 2 ^ 40 }).putTrs { Trs.reset with enGt := 5000000000 }).putMem
    ((s.mem.write 0x40000 [7, 0]).write (0x50000 + 128 * 7) (leBytes 4 5 ++ leBytes 4 (2 ^ 16) ++ leBytes 16 77))

/-- Group 7 stands in a phase of round 5. -/
def inPhase (ph : GrpPhase) : State := trsOn.modGrp 7 (fun x => { x with phase := ph, round := some 5, seen := some 5, doneAt := 5000000000 })

theorem witness_trestle_begin : ∀ s ∈ [trsOn], 5 = round32 (s.roundOf s.gtAbs) ∧ 5 ≠ s.roundNow ∧ (s.setFld A.trsRound F.trsRound.ROUND 5).roundNow = 5 ∧
    s.flag A.trsCtl F.trsCtl.EN = true ∧ s.takesPart 7 = true ∧ s.takesPart 8 = false ∧ (s.grp 7).install = false ∧ s.mayAct = true ∧
    (s.grp 7).phase = .idle ∧ s.turn 7 1 = true ∧ s.dueRounds 7 ((s.calEntry 7 1).getD 0) = some (5, 0) ∧
    (inPhase .snapped).dueRounds 7 ((s.calEntry 7 1).getD 0) = none ∧ (inPhase .snapped).turn 7 1 = true ∧ s.groupSlots 7 ≠ [] ∧
    s.flag A.gtStat F.gtStat.VALID = true ∧ 2 ≤ (s.putFlt { s.flt with pipesDead := [1, 0] }).flt.pipesDead.length := by decide +kernel

theorem witness_trestle_enable : (∀ n ∈ [0, 1, 2], ∀ w ∈ [0, 1, 2], ∀ s ∈ [((trsOn.setFld A.trsCtl F.trsCtl.EN 0).setFld A.tbyStage F.tbyStage.OWNER n).setFld
      A.clkAlarm F.clkAlarm.OWNER w],
    s.flag A.trsCtl F.trsCtl.EN = false ∧ s.fld A.tbyStage F.tbyStage.OWNER = n ∧ s.fld A.clkAlarm F.clkAlarm.OWNER = w ∧ s.partOn 2 = true ∧
      s.outranks 3 1 w = false ∧ s.flag A.trsDonor F.trsDonor.VALID = false) ∧
    (on.putCyc { SameCycle.none with claims := [(3, 2)] }).outranks 3 1 2 = true ∧
    ((trsOn.setFld A.trsDonor F.trsDonor.VALID 1).flag A.trsDonor F.trsDonor.VALID = true) := by
  decide +kernel

theorem witness_trestle_actions : (inPhase .snapped).calEntry 7 2 = some 1000000 ∧ (inPhase .closed).calEntry 7 4 = some 2000000 ∧
    (∀ ph ∈ [GrpPhase.snapped, .sending, .sent, .closed, .applying], ∀ s ∈ [inPhase ph], s.mayAct = true ∧ (s.grp 7).phase = ph ∧
      s.nextInstant (s.grp 7).doneAt 1000000 ≤ s.gtAbs ∧ s.nextInstant (s.grp 7).doneAt 2000000 ≤ s.gtAbs ∧ s.trs.wait = [] ∧
      s.turn 7 2 = true ∧ s.turn 7 4 = true ∧ (ph ≠ .sending → ∀ y ∈ s.trs.groups, y.2.phase ≠ .sending) ∧
      (ph ≠ .applying → ∀ y ∈ s.trs.groups, y.2.phase ≠ .applying) ∧
      s.flag A.trsCtl F.trsCtl.GAUTO = true ∧ (s.grp 7).ts + s.fld A.trsDelay F.trsDelay.DMAX * 1500 + 2000000 ≤ s.gtAbs ∧ (s.grp 7).todo = [] ∧
      ((s.modGrp 7 (fun x => { x with todo := [0] })).grp 7).todo ≠ []) ∧
    trsOn.calEntry 8 2 = none ∧ trsOn.calEntry 8 4 = none ∧ on.mayAct = false := by
  decide +kernel

/-- Entry 3 closes group 7 at 1.5 ms of a round where `GAUTO` is clear. -/
def closing : State := ((((((inPhase .sent).setFld A.trsCtl F.trsCtl.GAUTO 0).setFld (A.trsCal 3) F.trsCal.VALID 1).setFld (A.trsCal 3) F.trsCal.ACTION
  3).setFld (A.trsCal 3) F.trsCal.GROUP 7).setFld (A.trsCal 3) F.trsCal.OFFSET 1500).modGrp 7 (fun x => { x with ts := 5000000000 })

theorem witness_trestle_close : ∀ s ∈ [closing], s.mayAct = true ∧ (s.grp 7).phase = .sent ∧ s.flag A.trsCtl F.trsCtl.GAUTO = false ∧ s.turn 7 3 = true ∧
    s.nextInstant (s.grp 7).ts ((s.calEntry 7 3).getD 0) ≤ s.gtAbs := by decide +kernel

theorem witness_trestle_entries : trsOn.partOn 4 = false ∧ getFld (BitVec.ofNat 64 (2 ^ 16 + 11)) F.trsPart0.VALID = 1 ∧ trsOn.partOn 2 = true ∧
    getFld (0 : Word) F.trsPart0.VALID = 0 ∧ trsOn.partState 2 ≠ 0 ∧ on.flag A.trsCtl F.trsCtl.EN = false ∧
    ∀ n ∈ [2, 3], ∀ s ∈ [trsOn.putTrs { trsOn.trs with tries := [((0 : Fin 2).val, n)] }], s.flt.pipesDead.contains (0 : Fin 2).val = false ∧
      FMap.getD s.trs.tries (0 : Fin 2) 0 + 1 = n + 1 ∧ (FMap.getD s.trs.repeats (0 : Fin 2) []).length < 64 ∧
      (s.putFlt { s.flt with pipesDead := [0] }).flt.pipesDead.contains (0 : Fin 2).val = true := by decide +kernel

/-- The header of a frame from partner entry 2 with 32 B of body, for group 7 and round 0, of a kind; and the frame that the partner seals
from it with a body. -/
def farHead (k : Nat) : Bytes :=
  leBytes 8 (1 + k * 2 ^ 8 + 9 * 2 ^ 16) ++ leBytes 8 (7 * 2 ^ 32) ++ leBytes 16 0 ++ leBytes 8 (32 * 2 ^ 32) ++ leBytes 24 0
def sealedBy (k : Nat) (body : Bytes) : Bytes × Bytes :=
  gcmSeal (frameKey (List.replicate 16 1) (farHdrOf (farHead k)).group) (nonceOf (farHdrOf (farHead k)).src (farHdrOf (farHead k)).owner
    (farHdrOf (farHead k)).round (farHdrOf (farHead k)).fnum) (farHead k) body
def farFrame (k : Nat) (body : Bytes) : Bytes := farHead k ++ ((sealedBy k body).1 ++ (sealedBy k body).2)

theorem witness_frames_discarded : ∀ k < 5, on.recvFrame 35 (farHead k) = (on, none) ∧ k = (farHdrOf (farHead k)).kind :=
  fun k hk => ⟨rfl, by revert k; decide +kernel⟩

theorem numAt_front {l r : List Byte} {o n : Nat} (h : o + n ≤ l.length) : numAt (l ++ r) o n = numAt l o n := by
  unfold numAt
  rw [List.drop_append_of_le_length (by omega), List.take_append_of_le_length (by rw [List.length_drop]; omega)]

theorem farHdr_front {l r : List Byte} (h : l.length = 64) : farHdrOf (l ++ r) = farHdrOf l := by
  simp [farHdrOf, numAt_front, h]

/-- The module when the partner is heard, and when its frame is accepted. -/
def heard (s : State) : State := (s.modPart 2 (fun x => { x with heardAt := s.pulse })).startReunion 2
def counted (s : State) : State := (s.incWrap A.trsCnt F.trsCnt.RX 1).incWrap (A.trsPart2 2) F.trsPart2.FRAMES 1

/-- Whether a frame that the partner seals passes every check of reception before the count. -/
def acceptable (s : State) (k : Nat) (body : Bytes) : Bool :=
  let h := farHdrOf (farHead k)
  let t := heard s
  s.portUp 35 && s.flag (A.tmrPortStat 35) F.tmrPortStat.PEERGW && s.flag A.trsCtl F.trsCtl.EN && s.partOf h.src == some 2 &&
    h.dst == s.site && h.owner == s.fld A.trsSite F.trsSite.OWNER && s.keyOf (s.partKey 2) h.kepoch == some (List.replicate 16 1) &&
    t.takesPart h.group && t.inRange h.group h.round && t.partState 2 != 2 &&
    (t.repeated h || decide (t.staged + stageNeed h body ≤ t.stageSize)) && body.length == 32 && h.blen == 32

/-- The frame opens to the body that the partner sealed, and is answered with it (12 R359, R360). -/
theorem frame_taken {s : State} {k : Nat} {body : Bytes} (ha : acceptable s k body = true) : s.recvFrame 35 (farFrame k body) =
    (if (heard s).repeated (farHdrOf (farHead k)) then heard s else counted (heard s), some (2, farHdrOf (farHead k), body)) := by
  simp only [acceptable, Bool.and_eq_true, beq_iff_eq, bne_iff_ne] at ha
  obtain ⟨⟨⟨⟨⟨⟨⟨⟨⟨⟨⟨⟨h1, h2⟩, h3⟩, h4⟩, h5⟩, h6⟩, h7⟩, h8⟩, h9⟩, h10⟩, h11⟩, h12⟩, h13⟩ := ha
  have hl : (farHead k).length = 64 := by simp [farHead]
  have hh : farHdrOf (farFrame k body) = farHdrOf (farHead k) := farHdr_front hl
  have hc : (sealedBy k body).1.length = 32 := by simp [sealedBy, gcmSeal, h12]
  have ht : (sealedBy k body).2.length = 16 := by simp [sealedBy, gcmSeal]
  have e1 : (farFrame k body).take 64 = farHead k := by rw [farFrame, ← hl, List.take_left]
  have e2 : ((farFrame k body).drop 64).take 32 = (sealedBy k body).1 := by rw [farFrame, ← hl, List.drop_left, ← hc, List.take_left]
  have e3 : ((farFrame k body).drop (64 + 32)).take 16 = (sealedBy k body).2 := by
    rw [← List.drop_drop, farFrame, ← hl, List.drop_left, ← hc, List.drop_left, ← ht, List.take_length]
  have ho : gcmOpen (frameKey (List.replicate 16 1) (farHdrOf (farHead k)).group) (nonceOf (farHdrOf (farHead k)).src (farHdrOf (farHead k)).owner
      (farHdrOf (farHead k)).round (farHdrOf (farHead k)).fnum) (farHead k) (sealedBy k body).1 (sealedBy k body).2 = some body :=
    gcmOpen_gcmSeal _ _ _ _
  unfold State.recvFrame
  simp only [hh, h13, e1, e2, e3]
  simp only [h1, h2, h3, h4, h5, ← h6, h7, Option.bind_some, ho, bne_self_eq_false, Bool.or_self, Bool.not_true, Bool.false_eq_true, if_false]
  unfold heard at *
  simp only [h8, h9, beq_eq_false_iff_ne.2 h10, Bool.not_true, Bool.false_and, Bool.or_self, Bool.false_eq_true, if_false]
  by_cases hr : ((s.modPart 2 (fun x => { x with heardAt := s.pulse })).startReunion 2).repeated (farHdrOf (farHead k)) = true
  · simp [hr]
  · simp only [hr]
    have hs : ¬ (((s.modPart 2 (fun x => { x with heardAt := s.pulse })).startReunion 2).stageSize <
        ((s.modPart 2 (fun x => { x with heardAt := s.pulse })).startReunion 2).staged + stageNeed (farHdrOf (farHead k)) body ∧
        stageNeed (farHdrOf (farHead k)) body ≠ 0) := by
      simp only [hr, Bool.false_or, decide_eq_true_eq] at h11
      omega
    rw [if_neg hs]
    rfl

/-- Bodies of a frame of kind 3 for round 5 with the anchor's digest and another, or for a round without a record, and of CONTROL frames of a
subtype and kind. -/
def printBody (m d : Nat) : List Byte := leBytes 8 m ++ leBytes 16 d ++ leBytes 8 0
def ctlBody (sub kind : Nat) : List Byte := [BitVec.ofNat 8 sub, BitVec.ofNat 8 kind] ++ leBytes 30 (2 ^ 16)

/-- Group 7 of round 0 of site 9 holds a frame. -/
def known : State := trsOn.putTrs { trsOn.trs with contribs := [⟨9, 0, 7, [(0, [1])], none, false, none, false, [], none, 0⟩] }

/-- The state after a frame of a kind was accepted. -/
def taken (s : State) : State := counted (heard s)

theorem witness_frames_accepted : (∀ k < 3, acceptable trsOn k (leBytes 32 3) = true) ∧ acceptable known 0 (leBytes 32 3) = true ∧
    (∀ d ∈ [77, 78], acceptable trsOn 3 (printBody 5 d) = true) ∧ acceptable trsOn 3 (printBody 6 77) = true ∧
    (∀ sub < 8, ∀ kind < 5, acceptable trsOn 4 (ctlBody sub kind) = true) ∧
    (∀ k < 5, (heard trsOn).repeated (farHdrOf (farHead k)) = false) ∧ (heard known).repeated (farHdrOf (farHead 0)) = true ∧
    (∀ k < 5, k = (farHdrOf (farHead k)).kind) := by decide +kernel

theorem witness_frames_first : ∀ s ∈ [taken trsOn], s.repeated (farHdrOf (farHead 0)) = false ∧ s.contrib 9 0 7 = none ∧ s.trs.wait = [] ∧ s.trs.tx = [] ∧
    s.trs.diverged = [] ∧ s.anchorOf 7 (numAt (printBody 5 77) 0 4) = some 0 ∧ s.anchorOf 7 (numAt (printBody 6 77) 0 4) = none ∧
    (s.lin 7 0).digest = ((printBody 5 77).drop 8).take 16 ∧ (s.lin 7 0).digest ≠ ((printBody 5 78).drop 8).take 16 := by decide +kernel

theorem witness_frames_past : ∀ s ∈ [(heard trsOn).putTrs { (heard trsOn).trs with past := [⟨9, 0, 7, [], none, false, none, false, [], none, 0⟩] }],
    s.repeated (farHdrOf (farHead 0)) = true ∧ (s.pastContrib 9 0 7).map (·.doneAt) = some none := by decide +kernel

/-- The partner is being reunited with, from round 0, in a phase. -/
def reuniting (ph : Nat) : State := taken (trsOn.setFld (A.trsRstat 2) F.trsRstat.PHASE ph)

theorem witness_frames_control : ∀ s ∈ [taken trsOn], s.fld (A.trsRstat 2) F.trsRstat.PHASE ≠ 1 ∧
    ((ctlBody 2 1).headD 0).toNat = 2 ∧ ((ctlBody 2 1).getD 1 0).toNat = 1 ∧ numAt (ctlBody 2 1) 8 2 = 0 ∧
    (reuniting 1).fld (A.trsRstat 2) F.trsRstat.PHASE = 1 ∧ (reuniting 2).fld (A.trsRstat 2) F.trsRstat.PHASE = 2 ∧
    7 ∈ s.groups ∧ FMap.has (s.part 2).lineage 7 = false ∧ ((s.groupSlots 7).find? (fun q => q.1 == 0)).isSome = true ∧
    (s.groupSlots 7).find? (fun q => q.1 == 1) = none ∧ numAt (leBytes 32 (3 + 2 ^ 32)) 4 4 ≠ s.gcfgWord 7 1 % 2 ^ 32 ∧ s.trs.xfers = [] ∧
    s.donor ≠ some 2 ∧ s.partState 2 ≠ 3 ∧ (taken (trsOn.setFld (A.trsPart2 2) F.trsPart2.STATE 3)).partState 2 = 3 ∧
    s.gatePorts ≠ [] ∧ (∀ f ∈ s.trs.wait, f.part ≠ 2) ∧ s.ctlCount 2 < 2 ^ 30 ∧
    (s.keyOf (s.partKey 2) (s.fld (A.secKey (s.partKey 2)) F.secKey.TXEP)).isSome = true ∧
    (∀ t ∈ [s.setFld (A.secKey 3) F.secKey.TXEP 9], t.trs.wait = [] ∧ t.keyOf (t.partKey 2) (t.fld (A.secKey (t.partKey 2)) F.secKey.TXEP) = none) := by
  decide +kernel

/-- The agreed round has been reached by a group, or by none. -/
theorem witness_frames_reunion : ∀ q ∈ [(5, true), (1, false)], ∀ re ∈ [reunionRound ((reuniting 1).part 2).rh (numAt (ctlBody 2 1) 4 4)],
    ∀ s ∈ [(reuniting 1).modGrp 7 (fun x => { x with seen := if q.2 then some re else none })],
      (s.groups.any fun g => (s.grp g).seen.any (fun n => n == re || serialGt 32 n re)) = q.2 := by decide +kernel

/-- A transfer of slot 0 from entry 2 that has nothing to fetch. -/
def xfer0 : Xfer := ⟨2, 7, 0, 2, 0, [], [], none, false, false, [], none, 0, 0, 100⟩

theorem witness_frames_transfers : ∀ s ∈ [taken (trsOn.putTrs { trsOn.trs with xfers := [xfer0] })],
    s.trs.xfers.find? (fun x => x.part == 2 && x.slot == 0 && x.lastApp == 0 && !x.listed) = some xfer0 ∧ xfer0.sent = none ∧
      s.trs.xfers.find? (fun x => x.part == 2 && x.slot == 0) = some xfer0 ∧ xfer0.listed = false ∧ xfer0.need = [] ∧ xfer0.ready = false ∧
      (s.putPulse 800000000).reached xfer0.askedAt xfer0.wait = true ∧ s.trs.xfers.find? (fun x => x.slot == (9 : Fin 4096).val) = none ∧
      numAt (leBytes 32 0) 12 4 = xfer0.got.length ∧ numAt (leBytes 8 0 ++ leBytes 24 1) 8 1 ≠ 0 := by decide +kernel

/-- A contribution of site 9 with a gap, a last frame to resend, a long silence and a full buffer. -/
def late : Contrib := ⟨9, 5, 7, [], none, false, none, false, [(0, 0)], none, 0⟩
def lastSent : TxFrame := ⟨2, 7, 5, 0, true, [], 0, 1000, false⟩
def overdue : State := (trsOn.putTrs { trsOn.trs with contribs := [late], tx := [lastSent], fullAt := some 0 }).putPulse (10 ^ 15)

theorem witness_frames_timers : ∀ s ∈ [overdue], s.contrib (s.partSite 2) (5 : BitVec 32).toNat 7 = some late ∧ (0, 0) ∈ late.gaps ∧
    s.partOn 2 = true ∧ s.flag A.trsCtl F.trsCtl.EN = true ∧ s.reached 0 1000 = true ∧ s.reached 0 (2 * s.fld (A.trsPart1 2) F.trsPart1.DEWMA + 2000) = true ∧
    s.trs.past.contains late = false ∧ late.nackAt = none ∧ ({ late with nackAt := some 0 } : Contrib).nackAt = some 0 ∧
    s.trs.tx.find? (fun f : TxFrame => f.part == 2 && f.group == 7 && f.round == (5 : BitVec 32).toNat && f.last) = some lastSent ∧
    s.reached lastSent.sentAt lastSent.wait = true ∧ on.contrib (on.partSite 2) 5 7 = none ∧ on.partOn 2 = false ∧
    on.trs.tx.find? (fun f : TxFrame => f.part == 2 && f.group == 7 && f.round == 5 && f.last) = none ∧
    s.partState 2 = 1 ∧ s.reached (s.part 2).heardAt (s.fld A.trsAbsent F.trsAbsent.MS * 1000) = true ∧ s.trs.fullAt = some 0 ∧
    s.trs.fullSaid = false ∧ s.reached 0 1000000 = true ∧ s.reached s.trs.helloAt (s.fld A.trsAbsent F.trsAbsent.MS * 250) = true ∧
    on.trs.fullAt = none := by decide +kernel

/-! ### The ciphers, by the examples of their standards -/

/-- SM3 of "abc" (GB/T 32905, example 1). -/
theorem test_sm3 : sm3 [0x61, 0x62, 0x63] = beBytes 32 0x66C7F0F462EEEDD9D1F2D46BDC10E4E24167C4875CF2F7A2297DA02B8F4BA8E0 := by decide +kernel

/-- SM4 of one block (GB/T 32907, example 1). -/
theorem test_sm4 : sm4Block (sm4Keys (beBytes 16 0x0123456789ABCDEFFEDCBA9876543210)) (beBytes 16 0x0123456789ABCDEFFEDCBA9876543210) =
    beBytes 16 0x681EDF34D206965E86B3E94F536E4246 := by decide +kernel

/-- SM4-GCM (RFC 8998, A.1). -/
theorem test_gcm : gcmSeal (beBytes 16 0x0123456789ABCDEFFEDCBA9876543210) 0x00001234567800000000ABCD
    (beBytes 20 0xFEEDFACEDEADBEEFFEEDFACEDEADBEEFABADDAD2)
    (beBytes 64 0xAAAAAAAAAAAAAAAABBBBBBBBBBBBBBBBCCCCCCCCCCCCCCCCDDDDDDDDDDDDDDDDEEEEEEEEEEEEEEEEFFFFFFFFFFFFFFFFEEEEEEEEEEEEEEEEAAAAAAAAAAAAAAAA) =
    (beBytes 64 0x17F399F08C67D5EE19D0DC9969C4BB7D5FD46FD3756489069157B282BB200735D82710CA5C22F0CCFA7CBF93D496AC15A56834CBCF98C397B4024A2691233B8D,
      beBytes 16 0x83DE3541E4C2B58177E065A9BF7B62EC) := by decide +kernel

/-! ### Ill-formed commands -/

/-- Fields of a transaction's header beyond their widths. -/
theorem test_wf_via : (∀ v ∈ [{ vFar with src := 2 ^ 14 }, { vFar with dest := 2 ^ 14 }, { vFar with tc := 8 }, { vFar with epoch := 256 },
      { vFar with seq := 2 ^ 24 }, { vFar with port := 36 }, { vFar with hops := 16 }],
    ∀ c ∈ [Instr.lopenAnswer v 0, .lcommitOutcome v 0 whoF 0, .layerArrival v 0 whoF (.outcome 0), .tmrRd v 0 1, .tmrWr v 0 [0] [true], .tmrRdc v .ok ⟨[], false⟩,
      .tmrWrc v .ok, .counterSignal v 0 whoF 1, .counterRestore v 0 whoF 1, .waitCancel v 0 whoF, .cancelAnswer v .unknown], c.wf = false) ∧
    (Instr.counterSignal ⟨2 ^ 14 - 1, 2 ^ 14 - 1, 7, 255, 2 ^ 24 - 1, 35, 15⟩ 0 whoF 1).wf = true := by decide

/-- A requester's identity out of range. -/
theorem test_wf_who : (∀ w ∈ [{ whoF with kind := 8 }, { whoF with bench := 800 }, { whoF with ctx := 4 }],
    ∀ c ∈ [Instr.registerWrite w 0 8 0, .lcommitOutcome vFar 0 w 0, .lcommitTimeout ⟨0, 0⟩ w, .layerArrival vFar 0 w (.outcome 0), .counterSignal vFar 0 w 1,
      .counterRestore vFar 0 w 1, .counterStore 0 1 w, .waitDeadlineExpiry ⟨0, 0⟩ w, .waitCancel vFar 0 w, .notifyResultExpiry ⟨0, 0⟩ w], c.wf = false) ∧
    (Instr.registerWrite ⟨7, 799, 3, 0⟩ (2 ^ 50 - 1) 8 0).wf = true := by decide

/-- Addresses and sizes out of range, and byte enables that do not match. -/
theorem test_wf_accesses : ∀ c ∈ [Instr.registerWrite whoF (2 ^ 50) 8 0, .registerWrite whoF 0 9 0, .tmrRd vFar (2 ^ 50) 1, .tmrRd vFar 0 0,
    .tmrRd vFar 0 257, .tmrRd vFar 1 256, .tmrWr vFar (2 ^ 50) [0] [true], .tmrWr vFar 0 [] [], .tmrWr vFar 0 [0] [], .tmrRdc vFar .ok ⟨List.replicate 257 0, false⟩,
    .tbyAccess 0 0x100000000000 1 none [], .tbyAccess 0 0 0 none [], .tbyAccess 0 0 65 none [], .tbyAccess 0 0 1 (some ([], [true])) [],
    .tbyAccess 0 0 1 (some ([0], [])) [], .pcieMemWrite ⟨2 ^ 64, true⟩ [] [], .pcieMemWrite ⟨0, true⟩ [0] [], .pcieMemWrite ⟨0, true⟩ (List.replicate 513 0) (List.replicate 513 true),
    .pcieMemRead (2 ^ 14) ⟨0, true⟩ 1, .pcieMemRead 0 ⟨2 ^ 64, true⟩ 1, .pcieMemRead 0 ⟨0, true⟩ 0, .pcieMemRead 0 ⟨0, true⟩ 4097], c.wf = false := by decide +kernel

/-- Flipped symbols out of a codeword, frames too short or long, time messages and platform messages out of range. -/
theorem test_wf_others : ∀ c ∈ [Instr.tbyAccess 0 0 1 none [(0, 38, 1)], .tbyScrubRead 0 [(0, 0, 2 ^ 16)], .tbyScrubRead 0 [(0x18000000000, 0, 1)], .trsDataReceive 0 (List.replicate 79 0),
    .ready 0 (List.replicate 4321 0), .announce 0 ⟨256, ⟨99, 1⟩, 4, .delayReq 0⟩, .sync ⟨0, 0⟩ ⟨0, ⟨99, 1⟩, 2 ^ 16, .delayReq 0⟩, .gtNowLoRead 4002,
    .getSensorReading 8 (2 ^ 16) 0, .mctpVendorMailbox 8 (List.replicate 257 0), .powerManagerStep (List.replicate 26 0) 0 0, .pcieLinkUp ⟨3, false⟩ 4,
    .pcieLinkUp ⟨32, false⟩ 3, .sensorThresholdCrossing 0 7 0, .sensorThresholdCrossing 34 7 0, .sensorThresholdCrossing 1 6 0, .sensorThresholdCrossing 1 34 0],
    c.wf = false := by decide +kernel

theorem test_wf_good : ∀ c ∈ [Instr.tbyAccess 7 0xFFFFFFFFFFF 1 (some ([0], [true])) [(0x17FFFFFFFFF, 37, 2 ^ 16 - 1)], .tmrRd vFar (2 ^ 50 - 256) 256,
    .tmrWr vFar 0 [0] [true], .trsDataReceive 35 (List.replicate 80 0), .ready 0 (List.replicate 4320 0), .delayReq ⟨35, 79⟩ ⟨255, ⟨99, 1⟩, 2 ^ 16 - 1, .delayReq 0⟩,
    .pcieMemRead (2 ^ 14 - 1) ⟨2 ^ 64 - 1, true⟩ 4096, .pcieLinkUp ⟨128, false⟩ 1, .sensorThresholdCrossing 33 33 0, .gtNowLoRead 4001,
    .powerManagerStep (List.replicate 27 0) 0 0], c.wf = true := by decide +kernel
end Sys2Proof.Tests
end

section
/-!
PROOF. WriteOnceReturns (00 R8) fails: its states may list a Tallboy that no module has. The register block of a Tallboy
65,536 would begin at `TMR_ID`, and the boot shows the sparing of every listed Tallboy in that Tallboy's block.
-/
namespace Sys2Proof.Machine

/-! ### What a boot shows of the Tallboys -/

/-- What `State.boot` shows of one Tallboy of the retirement record: its spared rows, and its remapped layer. -/
def State.showRetired (s : State) (p : Nat × Tby) : State :=
  match p.2.spared.find? (·.remap) with
  | some r => ((s.showSpared p.1).setFld (A.tbyStat p.1) F.tbyStat.REMAP 2).setFld (A.tbyStat p.1) F.tbyStat.RLAYER r.layer
  | none => s.showSpared p.1

/-- A Tallboy with a remapped layer shows `REMAP` as 2 after it. -/
theorem State.showRetired_remap (s : State) (t : Nat) (x : Tby) (r : SpareRec) (hr : x.spared.find? (·.remap) = some r) :
    (s.showRetired (t, x)).fld (A.tbyStat t) F.tbyStat.REMAP = 2 := by
  have hfields : F.tbyStat.REMAP.hi < F.tbyStat.RLAYER.lo := by decide
  simp only [State.showRetired, hr]
  rw [State.fld_setFld_field _ _ _ _ _ (by decide) (by decide) (.inl hfields), State.fld_setFld_same _ _ _ _ (by decide)]
  rfl

/-- Waiting for the host's image leaves `TMR_ID` alone. -/
theorem State.bootHost_fld_tmrId (s : State) (f : Fld) : s.bootHost.fld A.tmrId f = s.fld A.tmrId f := by
  have hwin : A.tmrId ≠ A.mbxRwin := by decide
  have hctl : A.tmrId ≠ A.mbxCtl := by decide
  have hboot : A.tmrId ≠ A.rstBoot := by decide
  have hrst : ∀ (x : State) (r : Rst), (x.putRst r).fld A.tmrId f = x.fld A.tmrId f := fun _ _ => rfl
  simp only [State.bootHost, hrst, State.fld_setFld_ne _ _ _ _ hboot, State.fld_setFld_ne _ _ _ _ hctl,
    State.fld_setFld_ne _ _ _ _ hwin]

/-- The mask that holds the Tallboys' records the same. -/
def tbyMask : Nat := 2 ^ Part.tby.idx

/-- A strap with the host bit makes the boot show the Tallboys' sparing last, before it waits for the host's image. -/
theorem State.boot_of_hostStrap (s : State) (adc : Nat) (hc : s.canonical) (hadc : 8 ≤ adc / 64) :
    ∃ u : State, u.tby = s.tby ∧ s.boot adc = (s.tby.foldl State.showRetired u).bootHost := by
  unfold State.boot
  extract_lets _ accepting counting locked trained k adcShown hostShown posShown svnShown measured shown
  rw [if_pos (show k ≥ 8 from hadc)]
  have hlocked : s.Keeps tbyMask locked := State.setFld_keeps rfl _ _ _ _ (State.putSkipped_keeps rfl _ _
    (State.putCycZero_keeps rfl _ _ (State.putEvt_keeps rfl _ _ (.start _ hc))))
  have htrained : s.Keeps tbyMask trained := by
    refine foldl_keeps _ _ _ (fun x p hx => ?_) hlocked
    split
    · exact State.trainStart_keeps rfl _ _ hx
    · exact hx
  have hmeasured : s.Keeps tbyMask measured := State.extend_keeps rfl _ _ _
    (State.setFld_keeps rfl _ _ _ _ (State.setFld_keeps rfl _ _ _ _ (State.setFld_keeps rfl _ _ _ _
      (State.setFld_keeps rfl _ _ _ _ htrained))))
  have htby : measured.tby = s.tby := hmeasured.same .tby rfl
  exact ⟨measured, htby, by rw [← htby]; rfl⟩

/-- With nothing left that holds the module off and a good XA, powering up ends in the boot, the Tallboys' records as
they were. -/
theorem State.powerUp_boots (s : State) (adc cause : Nat) (hc : s.canonical) (hwhy : s.rst.why = []) :
    ∃ v : State, v.canonical ∧ v.tby = s.tby ∧ s.powerUp adc true cause = v.boot adc := by
  unfold State.powerUp
  rw [if_neg (by simp [hwhy]), if_neg (by simp)]
  have hv := State.addCause_keeps (msk := tbyMask) rfl _ cause (State.driveFor_keeps rfl _ 105000
    (State.send_keeps rfl _ (.pwrgd true) (State.putRst_keeps rfl _ { s.rst with on := true, taken := 2 } (.start _ hc))))
  exact ⟨_, ⟨hv.mem, hv.regs⟩, hv.same .tby rfl, rfl⟩

/-! ### Tallboy 65,536 -/

/-- A Tallboy of which the retirement record lists one remapped layer. -/
def remappedTallboy : Tby := { Tby.reset with spared := [⟨0, 0, true, 0, 0⟩] }

/-- A module without supply that lists such a Tallboy under the number 65,536. -/
def strayTallboy : State := State.reset.putTby [(65536, remappedTallboy)]

/-- Its block would begin at `TMR_ID`. -/
theorem tbyStat_strayTallboy : A.tbyStat 65536 = A.tmrId := rfl

/-- `REMAP` of `TBY_STAT` stands where `MODNUM` of `TMR_ID` does, of whose reset value it takes two ones. -/
theorem remap_of_modnum_reset {v : Word} (h : getFld v F.tmrId.MODNUM = 0x3FFF) : getFld v F.tbyStat.REMAP = 3 := by
  simp only [getFld, bits, F.tmrId.MODNUM, F.tbyStat.REMAP, Nat.shiftRight_eq_div_pow] at *
  omega

theorem strayTallboy_canonical : strayTallboy.canonical := ⟨⟨.nil, by simp [strayTallboy, State.reset]⟩, .nil⟩

/-- `POWER_ON_RESET` boots this module, the stray record kept as every sparing record is (09 R278). -/
theorem powerOnReset_strayTallboy : ∃ v : State, v.canonical ∧ v.tby = strayTallboy.tby ∧
    exec (.powerOnReset 512 true) strayTallboy = .next (v.boot 512) := by
  generalize hw : strayTallboy.wideClear false = w
  have hclear : strayTallboy.Keeps 0 w := hw ▸ State.wideClear_keeps rfl _ _ (.start _ strayTallboy_canonical)
  have hwhy : w.rst.why = [0] := by rw [← hw]; rfl
  have hwtby : w.tby = strayTallboy.tby := by rw [← hw]; rfl
  obtain ⟨v, hc, htby, hup⟩ := State.powerUp_boots ((w.putRst { w.rst with trips := [], retryAt := none }).relieve [0, 3, 4]) 512 0
    ⟨hclear.mem, hclear.regs⟩ (by simp [State.relieve, hwhy])
  refine ⟨v, hc, htby.trans hwtby, ?_⟩
  rw [← hup, ← hw]
  rfl

/-- After the boot `TMR_ID.MODNUM` does not hold its reset value: the bits that `REMAP` 2 covers are not both ones. -/
theorem boot_strayTallboy_modnum (v : State) (hc : v.canonical) (htby : v.tby = strayTallboy.tby) :
    (v.boot 512).fld A.tmrId F.tmrId.MODNUM ≠ 0x3FFF := by
  intro hmod
  obtain ⟨u, -, hboot⟩ := v.boot_of_hostStrap 512 hc (by decide)
  have htwo : (u.showRetired (65536, remappedTallboy)).fld A.tmrId F.tbyStat.REMAP = 2 := by
    rw [← tbyStat_strayTallboy]
    exact u.showRetired_remap 65536 remappedTallboy ⟨0, 0, true, 0, 0⟩ rfl
  rw [hboot, State.bootHost_fld_tmrId, htby] at hmod
  exact absurd (htwo.symm.trans (remap_of_modnum_reset hmod)) (by decide)

end Sys2Proof.Machine

open Sys2Proof Sys2Proof.Machine

/-- Refutes O55: in the state `strayTallboy`, which lists a Tallboy that no module has, the boot of `POWER_ON_RESET` writes
`TBY_STAT` of that Tallboy over `TMR_ID`, so `MODNUM` does not hold its reset value. The statement has no premise that keeps
the Tallboys' numbers below 16. -/
theorem not_writeOnceReturns : ¬ Obligations.WriteOnceReturns := by
  unfold Obligations.WriteOnceReturns
  intro h
  obtain ⟨⟨t, ht, hmod, -⟩, -⟩ := h 512 true strayTallboy
  obtain ⟨v, hc, htby, hv⟩ := powerOnReset_strayTallboy
  cases ht.symm.trans hv
  exact boot_strayTallboy_modnum v hc htby hmod
end

section
/-!
PROOF. SoftwareSetOfTime (14 R418) holds: `GT_SETS` is a plain register, a whole write of `GT_SETN` and `GT_SET` are one
function, `State.gtSet`, and what the registers of global time show afterwards leaves the instant and the events raised.
-/
namespace Sys2Proof.Machine

/-! ### The bits of fields -/

theorem testBit_getFld (v : Word) (f : Fld) (i : Nat) :
    (getFld v f).testBit i = (decide (i < f.width) && v.getLsbD (f.lo + i)) := by
  simp only [getFld, bits, Fld.width, Nat.testBit_mod_two_pow, Nat.testBit_shiftRight]
  rfl

theorem getFld_lt (v : Word) (f : Fld) : getFld v f < 2 ^ f.width := Nat.mod_lt _ (Nat.two_pow_pos _)

/-- Words that agree on the bits of a field agree on the field. -/
theorem getFld_congr {v w : Word} {f : Fld} (h : ∀ i < f.width, v.getLsbD (f.lo + i) = w.getLsbD (f.lo + i)) :
    getFld v f = getFld w f := by
  refine Nat.eq_of_testBit_eq fun i => ?_
  rw [testBit_getFld, testBit_getFld]
  by_cases hi : i < f.width
  · rw [h i hi]
  · simp [hi]

theorem getLsbD_mask {f : Fld} (hf : f.ok) {i : Nat} (hi : i < f.width) : f.mask.getLsbD (f.lo + i) = true := by
  obtain ⟨hlo, hhi⟩ := hf
  have hin : f.lo + i < 64 := by simp only [Fld.width] at hi; omega
  simp [Fld.mask, BitVec.getLsbD_ofNat, Nat.testBit_shiftLeft, Nat.testBit_two_pow_sub_one, hi, hin]

/-! ### Writes of registers -/

theorem RegWr.covers_whole (v : Word) (f : Fld) : RegWr.covers ⟨v, BitVec.allOnes 64⟩ f = true := by
  simp [RegWr.covers, -BitVec.reduceAllOnes]

theorem RegWr.low_whole (v : Word) : RegWr.low ⟨v, BitVec.allOnes 64⟩ = true := by
  simp [RegWr.low]

/-- A flag that hardware sets reads 1. -/
theorem State.flag_hwSet_same (s : State) (a : Nat) {f : Fld} (hf : f.ok) : (s.hwSet a f).flag a f = true := by
  have hw : 0 < f.width := by have := hf.1; simp only [Fld.width]; omega
  have hbit : ((s.hwSet a f).fld a f).testBit 0 = true := by
    rw [State.fld, testBit_getFld]
    change (_ && ((s.wr a (s.rd a ||| f.mask)).rd a).getLsbD _) = true
    simpa [hw] using .inr (getLsbD_mask hf hw)
  rw [State.flag, bne_iff_ne]
  intro h0
  simp [h0] at hbit

/-- After a write of a whole register a field whose bits are all `RW` reads as it was written (00 R6). -/
theorem State.fld_store_rw (s : State) {a : Nat} {d : RegDesc} {f : Fld} (v : Word) (hd : regDesc a = some d) (hf : f.ok)
    (hrw : BitVec.ofNat 64 d.rw &&& f.mask = f.mask) (hw1c : BitVec.ofNat 64 d.w1c &&& f.mask = 0#64) :
    (s.store a ⟨v, BitVec.allOnes 64⟩ 0).fld a f = getFld v f := by
  simp only [State.store, hd, State.fld, State.rd_wr_same]
  generalize FMap.getD s.cyc.set a 0 = hwSets
  refine getFld_congr fun i hi => ?_
  have hmask := getLsbD_mask hf hi
  have hbound := BitVec.lt_of_getLsbD hmask
  have hone : (BitVec.ofNat 64 d.rw).getLsbD (f.lo + i) = true := by
    simpa only [BitVec.getLsbD_and, hmask, Bool.and_true] using congrArg (·.getLsbD (f.lo + i)) hrw
  have hzero : (BitVec.ofNat 64 d.w1c).getLsbD (f.lo + i) = false := by
    simpa only [BitVec.getLsbD_and, hmask, Bool.and_true, BitVec.getLsbD_zero] using congrArg (·.getLsbD (f.lo + i)) hw1c
  simp only [BitVec.getLsbD_and, BitVec.getLsbD_or, BitVec.getLsbD_not, BitVec.getLsbD_allOnes, hbound, hone, hzero]
  simp

theorem State.gt_store (s : State) (a : Nat) (w : RegWr) (keep : Word) : (s.store a w keep).gt = s.gt := by
  unfold State.store
  split <;> rfl

/-- The registers outside the Benches' blocks accept accesses at any time. -/
theorem State.memReady_moduleReg (s : State) {a : Nat} (ha : regBase + 800 * 0x10000 ≤ a) (h8 : a % 8 = 0) :
    s.memReady a 8 = true := by
  have hpieces : pieces a 8 = [(a, 8)] := by
    simp only [pieces, pieces256]
    rw [if_neg (by decide), show min 8 (256 - a % 256) = 8 by omega]
    rfl
  have hloc : locOf a = .reg a := by
    have past {b : Nat} (hb : b ≤ regBase + 800 * 0x10000) : ¬ a < b := Nat.not_lt.2 (hb.trans ha)
    rw [locOf, if_neg (past (by decide)), if_neg (fun h => past (by decide) h.2), if_neg (fun h => past (by decide) h.2),
      if_pos (Nat.le_trans (by decide) ha)]
  simp [State.memReady, State.memReadyFor, hpieces, hloc, ha]

/-- A 64-bit write of a register outside the Benches' blocks performs what the register's block does (00 R10). -/
theorem exec_registerWrite_moduleReg (s : State) (who : Who) (v : Word) {a : Nat} (hon : s.rst.on = true)
    (ha : regBase + 800 * 0x10000 ≤ a) (h8 : a % 8 = 0) (hd : (regDesc a).isSome = true) :
    exec (.registerWrite who a 8 v) s = .next (s.regApply who a ⟨v, BitVec.allOnes 64⟩) := by
  have hnone : (regDesc a).isNone = false := by simpa using hd
  have hwr : regWrOf a 8 v.toNat = some (a, ⟨v, BitVec.allOnes 64⟩) := by
    simp [regWrOf, h8, hnone]
  change execRegisterWrite who a 8 v s = _
  simp [execRegisterWrite, s.memReady_moduleReg ha h8, State.regWrite, hon, hwr]

/-- The block of the clocks and of global time lies apart from every other (10 R289). -/
theorem State.regApply_clockBlock (s : State) (who : Who) (w : RegWr) {a : Nat} (hlo : A.clkStat ≤ a) (hhi : a < A.secStat) :
    s.regApply who a w = s.clockWrite a w := by
  have past {b : Nat} (hb : b ≤ A.clkStat) : ¬ a < b := Nat.not_lt.2 (hb.trans hlo)
  rw [State.regApply, if_neg (past (by decide)), if_neg (past (by decide)), if_neg (past (by decide)),
    if_neg (past (by decide)), if_neg (past (by decide)), if_neg (past (by decide)), if_pos hhi]

/-! ### Events -/

@[simp] theorem State.raise_gt (s : State) (code source : Nat) (pay : List Byte) : (s.raise code source pay).gt = s.gt := by
  unfold State.raise
  split <;> rfl

@[simp] theorem State.raise_pulse (s : State) (code source : Nat) (pay : List Byte) :
    (s.raise code source pay).pulse = s.pulse := by
  unfold State.raise
  split <;> rfl

@[simp] theorem State.raise_rd (s : State) (code source : Nat) (pay : List Byte) (a : Nat) :
    (s.raise code source pay).rd a = s.rd a := by
  unfold State.raise
  split <;> rfl

/-- Events raised are kept when another is raised. -/
theorem State.raised_prefix_raise (s : State) (code source : Nat) (pay : List Byte) :
    s.evt.raised <+: (s.raise code source pay).evt.raised := by
  unfold State.raise
  split
  · exact List.prefix_append _ _
  · exact List.prefix_rfl

/-- A command has raised an event where it is raised in a state with the events of the first, and kept after. -/
theorem State.raises_of_raise {s u t : State} {code source : Nat} {pay : List Byte} (hevt : u.evt = s.evt)
    (hkept : (u.raise code source pay).evt.raised <+: t.evt.raised) : s.raises t code source pay := by
  intro hacc
  obtain ⟨later, hlater⟩ := hkept
  simp [← hlater, State.raise, hevt, hacc]

/-! ### What the registers of global time show -/

/-- The registers that `State.gtShow` writes (14 R415, R417, R419; 12 R346). -/
def gtShownRegs : List Nat := [A.gtStat, A.gtUnc, A.trsStat, A.trsRound]

/-- From `s` to `t` the registers of global time follow the servo: `U` is shown, and global time, the time, every other
register and the events raised stay. -/
structure State.GtShown (s t : State) : Prop where
  gt : t.gt = s.gt
  pulse : t.pulse = s.pulse
  rd : ∀ a, a ∉ gtShownRegs → t.rd a = s.rd a
  unc : t.fld A.gtUnc F.gtUnc.U = s.gtUnc
  raised : s.evt.raised <+: t.evt.raised

theorem State.GtShown.raise {s t : State} (h : s.GtShown t) (code source : Nat) (pay : List Byte) :
    s.GtShown (t.raise code source pay) where
  gt := (t.raise_gt ..).trans h.gt
  pulse := (t.raise_pulse ..).trans h.pulse
  rd a ha := (t.raise_rd ..).trans (h.rd a ha)
  unc := by simpa only [State.fld, State.raise_rd] using h.unc
  raised := h.raised.trans (t.raised_prefix_raise ..)

theorem State.gtUnc_lt (s : State) : s.gtUnc < 2 ^ 32 := by
  unfold State.gtUnc
  split
  · decide
  · exact Nat.lt_of_le_of_lt (Nat.min_le_left _ _) (by decide)

/-- Showing the validity leaves `U`. -/
theorem State.fld_gtUnc_showTime (s : State) (f : Fld) : s.showTime.fld A.gtUnc f = s.fld A.gtUnc f := by
  simp only [State.showTime]
  rw [State.fld_setFld_ne _ _ _ _ (by decide), State.fld_setFld_ne _ _ _ _ (by decide)]

theorem State.gtShow_shown (s : State) (st : Nat) : s.GtShown (s.gtShow st) := by
  unfold State.gtShow
  extract_lets old ov u v off s1 s2 s3 s4 s5 s6
  have h3 : s3 = s2 ∨ s3 = s2.setFld A.gtStat F.gtStat.EVER 1 := by
    by_cases hv : v = true
    · exact .inr (if_pos hv)
    · exact .inl (if_neg hv)
  have h3same : s3.gt = s.gt ∧ s3.pulse = s.pulse ∧ s3.evt = s.evt := by
    obtain h | h := h3 <;> rw [h] <;> exact ⟨rfl, rfl, rfl⟩
  obtain ⟨h3gt, h3pulse, h3evt⟩ := h3same
  have hshown : s.GtShown s6 := by
    refine ⟨?gt, ?pulse, ?rd, ?unc, ?raised⟩
    case gt => exact h3gt
    case pulse => exact h3pulse
    case rd =>
      intro a ha
      simp only [gtShownRegs, List.mem_cons, List.not_mem_nil, or_false, not_or] at ha
      obtain ⟨hstat, hunc, htrs, hround⟩ := ha
      have hs2 : s2.rd a = s.rd a := by simp only [s2, s1, State.rd_setFld_ne _ _ _ hstat]
      have hs3 : s3.rd a = s2.rd a := by obtain h | h := h3 <;> simp only [h, State.rd_setFld_ne _ _ _ hstat]
      simp only [s6, s5, s4, State.showTime, State.rd_setFld_ne _ _ _ hround, State.rd_setFld_ne _ _ _ htrs,
        State.rd_setFld_ne _ _ _ hunc, State.rd_setFld_ne _ _ _ hstat, hs3, hs2]
    case unc =>
      simp only [s6, State.fld_gtUnc_showTime, State.fld_setFld_same _ A.gtUnc F.gtUnc.U _ (by decide)]
      exact Nat.mod_eq_of_lt s.gtUnc_lt
    case raised =>
      have hevt : s6.evt = s.evt := h3evt
      rw [hevt]
  split
  · exact hshown
  · exact hshown.raise _ _ _

/-! ### The uncertainty -/

/-- The uncertainty depends on global time, the time and `GT_CFG` alone. -/
theorem State.gtUnc_congr {s t : State} (hgt : t.gt = s.gt) (hpulse : t.pulse = s.pulse) (hcfg : t.rd A.gtCfg = s.rd A.gtCfg) :
    t.gtUnc = s.gtUnc := by
  simp only [State.gtUnc, State.fld, hgt, hpulse, hcfg]

theorem State.gtStep_now (s : State) (now : Nat) : (s.gtStep now).gt.now = now := rfl

theorem State.gtStep_evt (s : State) (now : Nat) : (s.gtStep now).evt = s.evt := rfl

theorem State.gtStep_corr (s : State) (now : Nat) : (s.gtStep now).gt.corr = 0 := rfl

theorem State.gtStep_pendingCorr (s : State) (now : Nat) : (s.gtStep now).gt.pendingCorr = 0 := by
  simp [State.gtStep, Gt.pendingCorr]

/-- A step leaves of the uncertainty the asymmetry alone (14 R417, R418). -/
theorem State.gtUnc_gtStep (s : State) (now : Nat) : (s.gtStep now).gtUnc = s.fld A.gtCfg F.gtCfg.ASYM := by
  have hasym : s.fld A.gtCfg F.gtCfg.ASYM < 2 ^ 16 := getFld_lt _ _
  have hmeas : (s.gtStep now).gt.measAt = some (s.gtStep now).pulse := rfl
  have hoff : (s.gtStep now).gt.offset = 0 := rfl
  have hfld : (s.gtStep now).fld A.gtCfg F.gtCfg.ASYM = s.fld A.gtCfg F.gtCfg.ASYM := rfl
  simp only [State.gtUnc, hmeas, hoff, State.gtStep_pendingCorr, hfld, Nat.sub_self, Nat.mul_zero, Nat.zero_div,
    Int.natAbs_zero, Nat.add_zero, Nat.zero_add]
  omega

/-! ### The software set -/

/-- While the Trestle is enabled a software set is refused (14 R418). -/
theorem State.gtSet_refused (s : State) (ns frac : Nat) (hen : s.flag A.trsCtl F.trsCtl.EN = true) :
    (s.gtSet ns frac).1 = (s.hwSet A.gtStat F.gtStat.SETREJ).raise 0x74 (evSource 6 0)
      (leBytes 6 (s.fld A.gtSets F.gtSets.SEC) ++ [2]) := by
  simp [State.gtSet, hen]

/-- Otherwise it steps global time, raises event 0x74 and shows the registers; the nanoseconds are those given where they
make an instant, and `u` is the state that has drawn free ones where they do not (14 R418; log 3). -/
theorem State.gtSet_performed (s : State) (ns frac : Nat) (hen : s.flag A.trsCtl F.trsCtl.EN = false) :
    ∃ (u : State) (n st : Nat), u.evt = s.evt ∧ u.regs = s.regs ∧ (ns < 10 ^ 9 → n = ns) ∧
      (s.gtSet ns frac).1 = ((u.gtStep (s.fld A.gtSets F.gtSets.SEC * gtSecond + n * 2 ^ 40 + frac * 2 ^ 24)).raise 0x74
        (evSource 6 0) (leBytes 6 (s.fld A.gtSets F.gtSets.SEC) ++ [1])).gtShow st := by
  simp only [State.gtSet, hen, Bool.false_eq_true, if_false]
  by_cases hns : ns < 1000000000
  · simp only [hns, if_true]
    exact ⟨s, ns, _, rfl, rfl, fun _ => rfl, rfl⟩
  · simp only [hns, if_false]
    exact ⟨(s.draw 999999999).2, (s.draw 999999999).1, _, rfl, rfl, fun h => absurd h (by omega), rfl⟩

/-- The effect of a software set that is performed (14 R418). -/
theorem State.gtSet_steps {s t : State} {ns frac : Nat} (hen : s.flag A.trsCtl F.trsCtl.EN = false)
    (ht : (s.gtSet ns frac).1 = t) :
    (ns < 10 ^ 9 → t.gt.now = s.fld A.gtSets F.gtSets.SEC * gtSecond + ns * 2 ^ 40 + frac * 2 ^ 24) ∧
    t.gt.corr = 0 ∧ t.gt.pendingCorr = 0 ∧ t.gtUnc = s.fld A.gtCfg F.gtCfg.ASYM ∧
    t.fld A.gtUnc F.gtUnc.U = s.fld A.gtCfg F.gtCfg.ASYM ∧
    s.raises t 0x74 (evSource 6 0) (leBytes 6 (s.fld A.gtSets F.gtSets.SEC) ++ [1]) := by
  obtain ⟨u, n, st, hevt, hregs, hn, hset⟩ := s.gtSet_performed ns frac hen
  rw [ht] at hset
  generalize hstep : u.gtStep (s.fld A.gtSets F.gtSets.SEC * gtSecond + n * 2 ^ 40 + frac * 2 ^ 24) = x at hset
  generalize hraise : x.raise 0x74 (evSource 6 0) (leBytes 6 (s.fld A.gtSets F.gtSets.SEC) ++ [1]) = y at hset
  have hshown : y.GtShown t := hset ▸ y.gtShow_shown st
  have hgt : t.gt = x.gt := by rw [hshown.gt, ← hraise, State.raise_gt]
  have hunc : y.gtUnc = s.fld A.gtCfg F.gtCfg.ASYM := by
    have hasym : u.fld A.gtCfg F.gtCfg.ASYM = s.fld A.gtCfg F.gtCfg.ASYM := by simp only [State.fld, State.rd, hregs]
    rw [← hraise, State.gtUnc_congr (x.raise_gt ..) (x.raise_pulse ..) (x.raise_rd ..), ← hstep, State.gtUnc_gtStep, hasym]
  refine ⟨fun hns => ?_, ?_, ?_, ?_, hshown.unc.trans hunc, ?_⟩
  · rw [hgt, ← hstep, State.gtStep_now, hn hns]
  · rw [hgt, ← hstep, State.gtStep_corr]
  · rw [hgt, ← hstep, State.gtStep_pendingCorr]
  · rw [State.gtUnc_congr hshown.gt hshown.pulse (hshown.rd _ (by decide)), hunc]
  · have hxevt : x.evt = s.evt := by rw [← hstep, State.gtStep_evt, hevt]
    exact State.raises_of_raise hxevt (hraise ▸ hshown.raised)

/-- The effect of a software set that is refused (14 R418). -/
theorem State.gtSet_rejects {s t : State} {ns frac : Nat} (hen : s.flag A.trsCtl F.trsCtl.EN = true)
    (ht : (s.gtSet ns frac).1 = t) :
    t.gt = s.gt ∧ t.flag A.gtStat F.gtStat.SETREJ = true ∧
      s.raises t 0x74 (evSource 6 0) (leBytes 6 (s.fld A.gtSets F.gtSets.SEC) ++ [2]) := by
  rw [← ht, s.gtSet_refused ns frac hen]
  refine ⟨State.raise_gt .., ?_, ?_⟩
  · simpa only [State.flag, State.fld, State.raise_rd] using s.flag_hwSet_same A.gtStat (f := F.gtStat.SETREJ) (by decide)
  · exact State.raises_of_raise (u := s.hwSet A.gtStat F.gtStat.SETREJ) rfl List.prefix_rfl

/-- A whole write of `GT_SETN` is a software set of its nanoseconds and fraction (14 R418; log 22). -/
theorem exec_registerWrite_gtSetn (s : State) (who : Who) (v : Word) (hon : s.rst.on = true) :
    exec (.registerWrite who A.gtSetn 8 v) s = .next (s.gtSet (getFld v F.gtSetn.NS) (getFld v F.gtSetn.FRAC)).1 := by
  rw [exec_registerWrite_moduleReg s who v hon (by decide) (by decide) (by decide),
    s.regApply_clockBlock who _ (by decide) (by decide), State.clockWrite, if_neg (by decide), if_pos rfl,
    if_pos (RegWr.covers_whole v _), if_pos (RegWr.low_whole v)]
  rfl

/-- A write of `GT_SETS` is a plain one. -/
theorem exec_registerWrite_gtSets (s : State) (who : Who) (w : Word) (hon : s.rst.on = true) :
    exec (.registerWrite who A.gtSets 8 w) s = .next (s.store A.gtSets ⟨w, BitVec.allOnes 64⟩ 0) := by
  rw [exec_registerWrite_moduleReg s who w hon (by decide) (by decide) (by decide),
    s.regApply_clockBlock who _ (by decide) (by decide)]
  rfl

theorem State.fld_store_gtSets (s : State) (w : Word) :
    (s.store A.gtSets ⟨w, BitVec.allOnes 64⟩ 0).fld A.gtSets F.gtSets.SEC = w.toNat % 2 ^ 48 := by
  rw [s.fld_store_rw (d := ⟨A.gtSets, 0x8, 1, 0x0, 0xffffffffffff, 0x0, 0x0, 0x0, 0x0, 0x0, false⟩) w (by decide) (by decide)
    (by decide) (by decide)]
  rfl

end Sys2Proof.Machine

open Sys2Proof Sys2Proof.Machine

/-- Settles O44: `GT_SET` and the write of `GT_SETN` both are `State.gtSet`, which steps or refuses as `TRS_CTL.EN` says. -/
theorem softwareSetOfTime : Obligations.SoftwareSetOfTime := by
  unfold Obligations.SoftwareSetOfTime
  intro who v w s hon
  refine ⟨⟨_, exec_registerWrite_gtSets s who w hon, s.fld_store_gtSets w, s.gt_store _ _ _⟩, fun q hq => ?_⟩
  have hexec : exec q s = .next (s.gtSet (getFld v F.gtSetn.NS) (getFld v F.gtSetn.FRAC)).1 := by
    simp only [List.mem_cons, List.not_mem_nil, or_false] at hq
    obtain rfl | rfl := hq
    · rfl
    · exact exec_registerWrite_gtSetn s who v hon
  exact ⟨fun hen => ⟨_, hexec, State.gtSet_steps hen rfl⟩, fun hen => ⟨_, hexec, State.gtSet_rejects hen rfl⟩⟩
end

section
/-!
PROOF. GenWraps (18 R493) holds: the last arrival of an attempt that publishes closes its word, the publication leaves GEN
0 with OVF set, and nothing that the closing does after it (the log, the outcomes, the examination of the waiters and the
answer) writes GEN's entry other than with 0 or takes a waiter at GEN that 0 does not satisfy.
-/
namespace Sys2Proof.Machine

/-! ### Ports and classes that Timir chooses -/

/-- The credit rule chooses among the ports given (10 R306). -/
theorem mem_of_bestCredit {fresh p : Nat} {l : List Nat} (h : bestCredit fresh l = some p) : p ∈ l := by
  induction l with
  | nil => cases h
  | cons q l ih =>
    unfold bestCredit at h
    split at h
    · cases h
      exact List.mem_cons_self
    next r hr =>
      split at h
      · cases h
        exact List.mem_cons_of_mem _ (ih hr)
      · cases h
        exact List.mem_cons_self

theorem State.lt_of_mem_portsOf {s : State} {mask p : Nat} {not : Option Nat} (h : p ∈ s.portsOf mask not) : p < 36 :=
  List.mem_range.1 (List.mem_filter.1 h).1

/-- A port chosen is one of the 36 (10 R306). -/
theorem State.choosePort_lt {s : State} {tc m p : Nat} {not : Option Nat} (h : (s.choosePort tc m not).2 = some p) : p < 36 := by
  unfold State.choosePort at h
  extract_lets pri a b at h
  split at h
  · cases h
  · have ha : p ∈ a := by
      have hmem := mem_of_bestCredit h
      split at hmem
      · exact hmem
      · exact (List.mem_filter.1 hmem).1
    simp only [a] at ha
    split at ha
    · exact State.lt_of_mem_portsOf ha
    · exact State.lt_of_mem_portsOf ha

/-- There are eight traffic classes (10 R310). -/
theorem State.tcFor_lt (s : State) (kind m : Nat) : s.tcFor kind m < 8 := by
  unfold State.tcFor
  split
  · exact getFld_lt _ F.tmrTcsel.TC
  · exact getFld_lt _ F.tmrCtl.DEFTC

/-! ### What leaves the sync table alone -/

/-- A register outside the table's entries (11 R342). -/
abbrev besideTable (a : Nat) : Prop := a < A.syncCnt 0 ∨ A.syncTmo ≤ a

/-- The block of a stack lies below the sync table (09 R286; 11 R342). -/
theorem besideTable_stack (cw off : Nat) (hoff : off < 2 ^ 24) :
    besideTable (0x2010000000000 + off + stackOf cw * 0x1000000) := by
  have hstack : stackOf cw < 16 := Nat.mod_lt _ (by decide)
  left
  simp only [A.syncCnt]
  omega

theorem besideTable_tbyEcc (cw : Nat) : besideTable (A.tbyEcc (stackOf cw)) := besideTable_stack cw 0x8 (by decide)
theorem besideTable_tbyErr (cw : Nat) : besideTable (A.tbyErr (stackOf cw)) := besideTable_stack cw 0x10 (by decide)
theorem besideTable_tbyErrAddr (cw : Nat) : besideTable (A.tbyErrAddr (stackOf cw)) := besideTable_stack cw 0x18 (by decide)

/-- The entry of GEN is one of the table. -/
theorem not_besideTable_gen {w : Nat} (hw : w + 3 < 65536) : ¬ besideTable (A.syncCnt (w + 3)) := by
  simp only [besideTable, A.syncCnt, A.syncTmo]
  omega

/-- From `o` to `s` the registers of the sync table's entries and the waiter records stay as they are, and no event raised
is taken back. -/
structure State.TableKept (o s : State) : Prop where
  rd : ∀ a, ¬ besideTable a → s.rd a = o.rd a
  waiters : s.sync.waiters = o.sync.waiters
  raised : o.evt.raised <+: s.evt.raised

namespace State.TableKept

theorem refl (s : State) : s.TableKept s := ⟨fun _ _ => rfl, rfl, List.prefix_rfl⟩

variable {o s t : State}

/-- Replacing pieces other than registers, waiters and events keeps the table. -/
theorem put (h : o.TableKept s) (hregs : t.regs = s.regs) (hwaiters : t.sync.waiters = s.sync.waiters) (hevt : t.evt = s.evt) :
    o.TableKept t where
  rd a ha := by rw [State.rd, hregs]; exact h.rd a ha
  waiters := hwaiters.trans h.waiters
  raised := hevt ▸ h.raised

theorem ite {c : Prop} [Decidable c] (ht : o.TableKept s) (he : o.TableKept t) : o.TableKept (if c then s else t) := by
  split
  · exact ht
  · exact he

theorem wr (h : o.TableKept s) {a : Nat} (v : Word) (ha : besideTable a) : o.TableKept (s.wr a v) where
  rd b hb := (s.rd_wr_ne v (fun e : b = a => hb (e ▸ ha))).trans (h.rd b hb)
  waiters := h.waiters
  raised := h.raised

theorem setFld (h : o.TableKept s) {a : Nat} (f : Fld) (x : Nat) (ha : besideTable a) : o.TableKept (s.setFld a f x) :=
  h.wr _ ha

theorem incSat (h : o.TableKept s) {a : Nat} (f : Fld) (n : Nat) (ha : besideTable a) : o.TableKept (s.incSat a f n) :=
  h.wr _ ha

theorem incWrap (h : o.TableKept s) {a : Nat} (f : Fld) (n : Nat) (ha : besideTable a) : o.TableKept (s.incWrap a f n) :=
  h.wr _ ha

theorem hwSet (h : o.TableKept s) {a : Nat} (f : Fld) (ha : besideTable a) : o.TableKept (s.hwSet a f) :=
  (h.wr (s.rd a ||| f.mask) ha).put rfl rfl rfl

theorem raise (h : o.TableKept s) (code source : Nat) (pay : List Byte) : o.TableKept (s.raise code source pay) where
  rd a ha := (s.raise_rd code source pay a).trans (h.rd a ha)
  waiters := by
    rw [← h.waiters, State.raise]
    split <;> rfl
  raised := h.raised.trans (s.raised_prefix_raise code source pay)

theorem foldl {α : Type} {l : List α} {f : State → α → State} (h : o.TableKept s)
    (hf : ∀ x a, o.TableKept x → o.TableKept (f x a)) : o.TableKept (l.foldl f s) :=
  List.foldlRecOn l f (motive := fun x => o.TableKept x) h (fun x hx a _ => hf x a hx)

theorem foldlFst {α β : Type} {l : List α} {f : State × β → α → State × β} {p : State × β} (h : o.TableKept p.1)
    (hf : ∀ x a, o.TableKept x.1 → o.TableKept (f x a).1) : o.TableKept (l.foldl f p).1 :=
  List.foldlRecOn l f (motive := fun x => o.TableKept x.1) h (fun x hx a _ => hf x a hx)

/-- The state of a pair. -/
theorem fst {β : Type} {p : State × β} {b : β} (h : o.TableKept p.1) (hp : p = (s, b)) : o.TableKept s := by
  rwa [hp] at h

theorem snd {β : Type} {p : β × State} {b : β} (h : o.TableKept p.2) (hp : p = (b, s)) : o.TableKept s := by
  rwa [hp] at h

/-! #### The Tallboys' bytes -/

theorem reserveFor (h : o.TableKept s) (t layer : Nat) : o.TableKept (s.reserveFor t layer).1 := by
  unfold State.reserveFor
  dsimp only
  split
  · exact h
  · split
    · exact h
    · exact h.put rfl rfl rfl

theorem tbyEvent (h : o.TableKept s) (t ia kind layer pc cls : Nat) : o.TableKept (s.tbyEvent t ia kind layer pc cls) :=
  h.raise ..

theorem tbyEventAt (h : o.TableKept s) (ia kind cls : Nat) : o.TableKept (s.tbyEventAt ia kind cls) := h.raise ..

theorem modStack (h : o.TableKept s) (t : Nat) (f : Tby → Tby) : o.TableKept (s.modStack t f) := h.put rfl rfl rfl

theorem reserveCheck (h : o.TableKept s) (t layer pc cls : Nat) : o.TableKept (s.reserveCheck t layer pc cls) :=
  h.ite (.tbyEvent (h.modStack ..) ..)

theorem spareStart (h : o.TableKept s) (cw cls : Nat) : o.TableKept (s.spareStart cw cls) := by
  unfold State.spareStart
  dsimp only
  refine h.ite ?_
  have hfor := h.reserveFor (stackOf cw) (s.placeOf cw).1
  split
  · exact hfor
  · exact .reserveCheck (hfor.modStack ..) ..

theorem ueFound (h : o.TableKept s) (cw cls : Nat) (addressErr : Bool) : o.TableKept (s.ueFound cw cls addressErr) := by
  have hecc := besideTable_tbyEcc cw
  have herr := besideTable_tbyErr cw
  unfold State.ueFound
  extract_lets t s1 s2 kind sc sp sl sk sv s3
  have h2 : o.TableKept s2 := .ite (.incSat (.incSat h _ _ hecc) _ _ hecc) (.incSat h _ _ hecc)
  have hv : o.TableKept sv := ((((h2.setFld _ _ herr).setFld _ _ herr).setFld _ _ herr).setFld _ _ herr).hwSet _ herr
  have h3 : o.TableKept s3 := h2.ite (hv.setFld _ _ (besideTable_tbyErrAddr cw))
  exact h3.raise ..

theorem ceFound (h : o.TableKept s) (cw cls : Nat) : o.TableKept (s.ceFound cw cls) := by
  have hce := h.incSat F.tbyEcc.CE 1 (besideTable_tbyEcc cw)
  unfold State.ceFound
  extract_lets t s1 x s2 n
  have h2 : o.TableKept s2 := hce.ite (hce.modStack ..)
  exact .ite (h2.spareStart ..) h2

theorem putMem (h : o.TableKept s) (m : Memory) : o.TableKept (s.putMem m) := h.put rfl rfl rfl

theorem cwClean (h : o.TableKept s) (cw : Nat) : o.TableKept (s.cwClean cw) := h.modStack ..

theorem cwRead (h : o.TableKept s) (cw cls : Nat) : o.TableKept (s.cwRead cw cls).1 := by
  unfold State.cwRead
  extract_lets t x s1
  have h1 : o.TableKept s1 := .ite (h.modStack ..) h
  clear_value s1
  split
  next k s2 hdraw =>
    have h2 : o.TableKept s2 := .snd (by split; exacts [h1.put rfl rfl rfl, h1]) hdraw
    extract_lets sym flips stays
    split
    · exact h2.ueFound ..
    · split
      · exact .spareStart (.ueFound (h2.modStack ..) ..) ..
      · exact .spareStart (.ueFound (.ite (h2.modStack ..) h2) ..) ..
      · split
        · exact .spareStart (h2.ueFound ..) ..
        · split
          · exact .ceFound (.cwClean (h2.putMem _) _) ..
          · exact .ite h2 (.cwClean (h2.putMem _) _)

theorem modUnit (h : o.TableKept s) (t : Nat) (f : SbdUnit → SbdUnit) : o.TableKept (s.modUnit t f) := h.put rfl rfl rfl

theorem trackHeader (h : o.TableKept s) (t off : Nat) (be : List Bool) : o.TableKept (s.trackHeader t off be) :=
  h.foldl fun _ _ hx => .ite (hx.modUnit ..) hx

theorem cwWrite (h : o.TableKept s) (cls cw off : Nat) (data : List (Byte × Bool)) :
    o.TableKept (s.cwWrite cls cw off data).1 := by
  unfold State.cwWrite
  extract_lets t full
  split
  next s1 ok hread =>
    have h1 : o.TableKept s1 := .fst (by split; exacts [h.cwClean _, h.cwRead ..]) hread
    split
    · exact h1.tbyEventAt ..
    · exact .trackHeader (h1.putMem _) ..

theorem writeDenied (h : o.TableKept s) (cls ia : Nat) : o.TableKept (s.writeDenied cls ia) := by
  have hstat : besideTable A.tbyRgnStat := by decide
  have h1 := h.incSat F.tbyRgnStat.COUNT 1 hstat
  exact h1.ite (.tbyEventAt (.setFld (.hwSet (h1.setFld _ _ hstat) _ hstat) _ _ (by decide)) ..)

theorem tbyWrite (h : o.TableKept s) (cls ia : Nat) (data : List (Byte × Bool)) : o.TableKept (s.tbyWrite cls ia data).1 := by
  unfold State.tbyWrite
  split
  · exact h.writeDenied ..
  · exact .foldlFst h fun x cw hx => hx.cwWrite ..

theorem shelfWrite (h : o.TableKept s) (b off : Nat) (data : List Byte) : o.TableKept (s.shelfWrite b off data) :=
  .ite (h.putMem _) (h.put rfl rfl rfl)

theorem takeLost (h : o.TableKept s) (cls a : Nat) : o.TableKept (s.takeLost cls a).1 := by
  unfold State.takeLost
  split
  · exact h.put rfl rfl rfl
  · exact h

theorem memWriteOk (h : o.TableKept s) (cls a : Nat) (data : List (Byte × Bool)) : o.TableKept (s.memWriteOk cls a data).1 := by
  refine .foldlFst h fun x q hx => ?_
  split
  next s1 gone hlost =>
    have h1 : o.TableKept s1 := .fst (hx.takeLost ..) hlost
    split
    · exact h1
    · split
      · exact h1.tbyWrite ..
      · exact h1.shelfWrite ..
      · exact h1

theorem memWrite (h : o.TableKept s) (cls a : Nat) (data : List Byte) : o.TableKept (s.memWrite cls a data) :=
  h.memWriteOk ..

theorem logEntry (h : o.TableKept s) {l : LogRegs} (cls : Nat) (body : List Byte) (code : Option Nat) (source : Nat)
    (hctl : besideTable l.ctl) (hstat : besideTable l.stat) : o.TableKept (s.logEntry l cls body code source) := by
  unfold State.logEntry State.logPut
  split
  · exact h
  · extract_lets n head used seq s1 s2 a s3
    have h1 : o.TableKept s1 := h.put rfl rfl rfl
    have h2 : o.TableKept s2 := h1.incSat _ _ hstat
    split
    · split
      · exact h2.raise ..
      · exact h2
    · exact .setFld (h1.memWrite ..) _ _ hctl

theorem elogClose (h : o.TableKept s) (w out next : Nat) (descent : Bool) : o.TableKept (s.elogClose w out next descent) := by
  unfold State.elogClose
  extract_lets body bad s1
  have h1 : o.TableKept s1 := .ite (h.raise ..) h
  exact .ite (h1.logEntry _ _ _ _ (by decide) (by decide)) h1

/-! #### Timir -/

theorem putTmr (h : o.TableKept s) (x : Tmr) : o.TableKept (s.putTmr x) := h.put rfl rfl rfl

theorem choosePort (h : o.TableKept s) (tc m : Nat) (not : Option Nat) : o.TableKept (s.choosePort tc m not).1 := by
  unfold State.choosePort
  extract_lets pri a b s1
  split
  · exact h
  · have h1 : o.TableKept s1 := .ite (h.incSat _ _ (by decide)) h
    exact h1.put rfl rfl rfl

theorem emit (h : o.TableKept s) {p : Option Nat} (v : Via) (b : Fab) (hp : ∀ q, p = some q → q < 36) :
    o.TableKept (s.emit p v b) := by
  have hsend : o.TableKept (s.send (.fabric p v b)) := h.put rfl rfl rfl
  cases p with
  | none => exact hsend
  | some q =>
    have hq := hp q rfl
    have hport : besideTable (A.tmrPortCnt q) := by
      left
      simp only [A.tmrPortCnt, A.syncCnt]
      omega
    have hdraw : o.TableKept ((s.send (.fabric (some q) v b)).draw 3).2 := hsend.put rfl rfl rfl
    exact hdraw.incWrap _ _ hport

theorem reply (h : o.TableKept s) (v : Via) (b : Fab) : o.TableKept (s.reply v b) :=
  (h.choosePort ..).emit _ _ fun _ hq => State.choosePort_lt hq

theorem performed (h : o.TableKept s) (v : Via) (a : SyncAns) : o.TableKept (s.performed v a) := by
  unfold State.performed
  dsimp only
  split
  · exact h
  · exact h.putTmr _

theorem waitSent (h : o.TableKept s) (t : Txn) : o.TableKept (s.waitSent t) := by
  unfold State.waitSent
  split
  · split
    · exact h
    · exact h.put rfl rfl rfl
  · exact h

theorem transmit (h : o.TableKept s) (t : Txn) : o.TableKept (s.transmit t) := by
  unfold State.transmit
  dsimp only
  split
  · exact h.putTmr _
  · exact .emit (.putTmr (h.choosePort ..) _) _ _ fun _ hq => State.choosePort_lt hq

theorem launch (h : o.TableKept s) {t : Txn} (htc : t.tc < 8) : o.TableKept (s.launch t) := by
  have hreg : besideTable (A.tmrTc t.tc) := by
    left
    simp only [A.tmrTc, A.syncCnt]
    omega
  exact .transmit (.waitSent (.incSat (h.putTmr _) _ _ hreg) _) _

theorem recordFail (h : o.TableKept s) (t : Txn) (st : Status) : o.TableKept (s.recordFail t st) := by
  have herr : besideTable A.tmrErr := by decide
  have hcount := h.incSat F.tmrErr.COUNT 1 herr
  exact hcount.ite ((((((hcount.setFld _ _ herr).setFld _ _ herr).setFld _ _ herr).setFld _ _ herr).hwSet _ herr).setFld _ _
    (by decide))

theorem submit (h : o.TableKept s) (dest kind bench ctx : Nat) (req : Req) (owner : Owner) :
    o.TableKept (s.submit dest kind bench ctx req owner).1 := by
  unfold State.submit
  extract_lets t
  split
  · exact h.recordFail ..
  · split
    · exact h.launch (s.tcFor_lt kind dest)
    · exact h.putTmr _

/-! #### Operations of the table's home -/

theorem putSync (h : o.TableKept s) {x : Sync} (hx : x.waiters = s.sync.waiters) : o.TableKept (s.putSync x) :=
  h.put rfl hx rfl

theorem syncEvent (h : o.TableKept s) (code pc counter : Nat) (w : Who) (reason op : Nat) :
    o.TableKept (s.syncEvent code pc counter w reason op) := h.raise ..

/-- A NOTIFY sets out; the record that it tells of has left before (11 R328). -/
theorem notify (h : o.TableKept s) (r : Waiter) (res : WaitResult) : o.TableKept (s.notify r res) := by
  unfold State.notify
  split
  · exact h.put rfl rfl rfl
  · split
    · exact h.put rfl rfl rfl
    · extract_lets old s1
      have h1 : o.TableKept s1 := h.putSync rfl
      split
      · exact h1
      · dsimp only
        split
        · refine .syncEvent (.putSync (h1.submit ..) ?_) ..
          rfl
        · exact h1.submit ..

theorem giveOutcome (h : o.TableKept s) (w : Nat) (out : Word) : o.TableKept (s.giveOutcome w out) := by
  unfold State.giveOutcome
  extract_lets l old s1
  have h1 : o.TableKept s1 := h.putSync rfl
  refine h1.foldl fun x y hx => ?_
  split
  · exact hx.putSync rfl
  · have hsent := hx.submit y.home 5 0 0 (.sync w y.who (.outcome out)) (.sync 0)
    exact .ite (hsent.syncEvent ..) hsent

end State.TableKept

/-! ### Counters and fields of a layer flag word -/

theorem A.syncCnt_inj {i j : Nat} : A.syncCnt i = A.syncCnt j ↔ i = j := by
  simp only [A.syncCnt]
  omega

theorem State.counter_setCounter_same (s : State) (i v : Nat) : (s.setCounter i v).counter i = v % 2 ^ 32 :=
  s.fld_setFld_same _ _ _ (by decide)

theorem State.counter_setCounter_ne (s : State) {i j : Nat} (v : Nat) (h : j ≠ i) :
    (s.setCounter i v).counter j = s.counter j :=
  s.fld_setFld_ne _ _ _ (mt A.syncCnt_inj.1 h)

theorem State.rd_setCounter_ne (s : State) {i j : Nat} (v : Nat) (h : j ≠ i) :
    (s.setCounter i v).rd (A.syncCnt j) = s.rd (A.syncCnt j) := s.rd_setFld_ne _ _ (mt A.syncCnt_inj.1 h)

/-- A counter's value and its OVF are apart (11 R342). -/
theorem State.ovf_setCounter (s : State) (i j v : Nat) :
    (s.setCounter i v).flag (A.syncCnt j) F.syncCnt.OVF = s.flag (A.syncCnt j) F.syncCnt.OVF := by
  have hfld : (s.setCounter i v).fld (A.syncCnt j) F.syncCnt.OVF = s.fld (A.syncCnt j) F.syncCnt.OVF := by
    by_cases h : j = i
    · subst h
      exact s.fld_setFld_field _ _ _ _ (by decide) (by decide) (.inr (by decide))
    · exact s.fld_setFld_ne _ _ _ (mt A.syncCnt_inj.1 h)
  simp only [State.flag, hfld]

theorem bits_mod_two_pow (v k hi lo : Nat) (h : hi < k) : bits (v % 2 ^ k) hi lo = bits v hi lo := by
  refine Nat.eq_of_testBit_eq fun i => ?_
  simp only [bits, Nat.testBit_mod_two_pow, Nat.testBit_shiftRight]
  by_cases hi' : i < hi + 1 - lo
  · have : lo + i < k := by omega
    simp [this]
  · simp [hi']

/-- A field of an entry reads as it was set, cut to its width. -/
theorem State.lw_setLw_same (s : State) (w e : Nat) (f : Fld) (x : Nat) (hlo : f.lo ≤ f.hi) (hhi : f.hi < 32) :
    (s.setLw w e f x).lw w e f = x % 2 ^ f.width := by
  rw [State.lw, State.setLw, State.counter_setCounter_same, bits_mod_two_pow _ _ _ _ hhi, bits_setBits_same _ _ _ _ hlo]
  rfl

/-- Setting a field of an entry leaves the fields apart from it. -/
theorem State.lw_setLw_field (s : State) (w e : Nat) (f g : Fld) (x : Nat) (hf : f.lo ≤ f.hi) (hg : g.lo ≤ g.hi)
    (hhi : g.hi < 32) (hd : g.hi < f.lo ∨ f.hi < g.lo) : (s.setLw w e f x).lw w e g = s.lw w e g := by
  rw [State.lw, State.setLw, State.counter_setCounter_same, bits_mod_two_pow _ _ _ _ hhi, bits_setBits_ne _ _ _ _ _ _ hf hg hd]
  rfl

/-- Setting a field of an entry leaves the word's other entries. -/
theorem State.lw_setLw_entry (s : State) (w : Nat) {d e : Nat} (f g : Fld) (x : Nat) (h : e ≠ d) :
    (s.setLw w d f x).lw w e g = s.lw w e g := by
  rw [State.lw, State.setLw, State.counter_setCounter_ne _ _ (by omega)]
  rfl

/-- GEN is an entry of its own. -/
theorem State.rd_gen_setLw (s : State) (w : Nat) {e : Nat} (f : Fld) (x : Nat) (h : e ≠ 3) :
    (s.setLw w e f x).rd (A.syncCnt (w + 3)) = s.rd (A.syncCnt (w + 3)) := s.rd_setCounter_ne _ (by omega)

/-! ### After a publication that wraps GEN -/

/-- A waiter at an entry that does not consume and that 0 does not satisfy (11 R325). -/
structure Waiter.above0 (i : Nat) (r : Waiter) : Prop where
  index : r.index = i
  consume : r.consume = false
  threshold : 0 < r.threshold

/-- GEN of the word has wrapped: it is 0 with OVF set, the events given are still among those raised, and of the waiters
given those above 0 at GEN are held. -/
structure State.Wrapped (w : Nat) (ws : List Waiter) (evs : List Event) (t : State) : Prop where
  gen : t.lwGen w = 0
  ovf : t.flag (A.syncCnt (w + 3)) F.syncCnt.OVF = true
  raised : evs <+: t.evt.raised
  held : ∀ r ∈ ws, r.above0 (w + 3) → r ∈ t.sync.waiters

namespace State.Wrapped

variable {w : Nat} {ws : List Waiter} {evs : List Event} {s t : State}

theorem tableKept (h : s.Wrapped w ws evs) (hw : w + 3 < 65536) (ht : s.TableKept t) : t.Wrapped w ws evs := by
  have hrd := ht.rd _ (not_besideTable_gen hw)
  refine ⟨?_, ?_, h.raised.trans ht.raised, ht.waiters ▸ h.held⟩
  · simpa only [State.lwGen, State.counter, State.fld, hrd] using h.gen
  · simpa only [State.flag, State.fld, hrd] using h.ovf

theorem setCounter (h : s.Wrapped w ws evs) {i v : Nat} (hv : i = w + 3 → v = 0) : (s.setCounter i v).Wrapped w ws evs where
  gen := by
    by_cases hi : i = w + 3
    · rw [State.lwGen, ← hi, State.counter_setCounter_same, hv hi]
      rfl
    · rw [State.lwGen, State.counter_setCounter_ne _ _ (Ne.symm hi)]
      exact h.gen
  ovf := (s.ovf_setCounter ..).trans h.ovf
  raised := h.raised
  held := h.held

theorem setLw (h : s.Wrapped w ws evs) {e : Nat} (f : Fld) (x : Nat) (he : e ≠ 3) : (s.setLw w e f x).Wrapped w ws evs :=
  h.setCounter (fun heq => absurd heq (by omega))

/-- Records of other waiters may leave. -/
theorem putWaiters (h : s.Wrapped w ws evs) (hw : w + 3 < 65536) {l : List Waiter}
    (hl : ∀ r ∈ s.sync.waiters, r.above0 (w + 3) → r ∈ l) : (s.putWaiters l).Wrapped w ws evs := by
  have hput : (s.putSync { s.sync with waiters := l }).Wrapped w ws evs :=
    ⟨h.gen, h.ovf, h.raised, fun r hr h0 => hl r (h.held r hr h0) h0⟩
  exact hput.tableKept hw ((TableKept.refl _).setFld _ _ (by decide))

/-- An examination completes no waiter above 0 at GEN, and one at GEN that consumes takes 0 (11 R326). -/
theorem examine (h : s.Wrapped w ws evs) (hw : w + 3 < 65536) (i : Nat) : (s.examine i).Wrapped w ws evs := by
  refine List.foldlRecOn s.sync.waiters _ (motive := State.Wrapped w ws evs) h fun x hx r _ => ?_
  split
  next hc =>
    simp only [Bool.and_eq_true, beq_iff_eq, decide_eq_true_eq] at hc
    obtain ⟨⟨hindex, hreached⟩, -⟩ := hc
    have hgen : i = w + 3 → x.counter i = 0 := fun hi => hi ▸ hx.gen
    have hstays : ∀ q : Waiter, q.above0 (w + 3) → q ≠ r := by
      rintro q ⟨hq, -, hpos⟩ rfl
      have := hgen (hindex.symm.trans hq)
      omega
    extract_lets v s1 s2
    have h1 : s1.Wrapped w ws evs := by
      unfold s1
      split
      · exact hx.setCounter fun hi => by simp only [v, hgen hi, Nat.zero_sub]
      · exact hx
    have h2 : s2.Wrapped w ws evs := h1.putWaiters hw fun q hq h0 => List.mem_filter.2 ⟨hq, by simpa using hstays q h0⟩
    exact h2.tableKept hw ((TableKept.refl _).notify ..)
  next => exact hx

theorem lwExamine (h : s.Wrapped w ws evs) (hw : w + 3 < 65536) : (s.lwExamine w).Wrapped w ws evs :=
  List.foldlRecOn _ _ (motive := State.Wrapped w ws evs) h fun _ hx _ _ => hx.examine hw _

end State.Wrapped

/-! ### Publication and closing -/

/-- Where GEN is at its end, the publication sets it 0, and its OVF sticks; the home is named as issuer (18 R493; log 25). -/
theorem State.publish_wraps {s : State} {w : Nat} (hgen : s.lwGen w = 2 ^ 32 - 1) :
    s.publish w = (s.setCounter (w + 3) 0).stick (w + 3) (s.setCounter (w + 3) 0).modnum ⟨0, 0, 0, 0⟩ false := by
  simp only [State.publish, hgen]
  rfl

/-- OVF sticks, with event 0x53 where it was clear (11 R340). -/
theorem State.stick_overflow (s : State) (i m : Nat) (who : Who) : s.stick i m who false =
    if s.flag (A.syncCnt i) F.syncCnt.OVF then s
    else (s.hwSet (A.syncCnt i) F.syncCnt.OVF).raise 0x53 (evSource 4 0)
      (leBytes 2 i ++ leBytes 2 m ++ leBytes 2 (whoWord who) ++ [1]) := rfl

theorem State.ovf_stick (s : State) (i m : Nat) (who : Who) :
    (s.stick i m who false).flag (A.syncCnt i) F.syncCnt.OVF = true := by
  rw [State.stick_overflow]
  split
  next hset => exact hset
  next =>
    simpa only [State.flag, State.fld, State.raise_rd] using s.flag_hwSet_same (A.syncCnt i) (f := F.syncCnt.OVF) (by decide)

theorem State.waiters_stick (s : State) (i m : Nat) (who : Who) : (s.stick i m who false).sync.waiters = s.sync.waiters := by
  rw [State.stick_overflow]
  split
  · rfl
  · exact ((TableKept.refl _).raise ..).waiters

/-- Setting a flag leaves the fields below it. -/
theorem State.fld_hwSet_field (s : State) (a : Nat) {f g : Fld} (hd : g.hi < f.lo) : (s.hwSet a f).fld a g = s.fld a g := by
  have hrd : (s.hwSet a f).rd a = s.rd a ||| f.mask := s.rd_wr_same a _
  rw [State.fld, hrd]
  refine getFld_congr fun i hi => ?_
  have hlow : g.lo + i < f.lo := by
    simp only [Fld.width] at hi
    omega
  have hmask : f.mask.getLsbD (g.lo + i) = false := by
    simp [Fld.mask, BitVec.getLsbD_ofNat, Nat.testBit_shiftLeft, hlow]
  rw [BitVec.getLsbD_or, hmask, Bool.or_false]

/-- OVF is no part of the value. -/
theorem State.counter_stick (s : State) (i m : Nat) (who : Who) : (s.stick i m who false).counter i = s.counter i := by
  rw [State.stick_overflow]
  split
  · rfl
  · simp only [State.counter, State.fld, State.raise_rd]
    exact s.fld_hwSet_field _ (by decide)

theorem State.publish_wrapped {s : State} {w : Nat} (hgen : s.lwGen w = 2 ^ 32 - 1) :
    (s.publish w).Wrapped w s.sync.waiters (s.publish w).evt.raised := by
  refine ⟨?_, ?_, List.prefix_rfl, ?_⟩
  · rw [State.publish_wraps hgen, State.lwGen, State.counter_stick, State.counter_setCounter_same]
    rfl
  · rw [State.publish_wraps hgen]
    exact State.ovf_stick ..
  · rw [State.publish_wraps hgen, State.waiters_stick]
    exact fun _ hr _ => hr

/-- Where OVF was clear the publication raises event 0x53 (18 R493). -/
theorem State.publish_raises {s t : State} {w : Nat} (hgen : s.lwGen w = 2 ^ 32 - 1)
    (hovf : s.flag (A.syncCnt (w + 3)) F.syncCnt.OVF = false) (hkept : (s.publish w).evt.raised <+: t.evt.raised) :
    s.raises t 0x53 (evSource 4 0)
      (leBytes 2 (w + 3) ++ leBytes 2 (s.setCounter (w + 3) 0).modnum ++ leBytes 2 (whoWord ⟨0, 0, 0, 0⟩) ++ [1]) := by
  have hclear : (s.setCounter (w + 3) 0).flag (A.syncCnt (w + 3)) F.syncCnt.OVF = false := (s.ovf_setCounter ..).trans hovf
  rw [State.publish_wraps hgen, State.stick_overflow, if_neg (by simp [hclear])] at hkept
  exact State.raises_of_raise (u := (s.setCounter (w + 3) 0).hwSet (A.syncCnt (w + 3)) F.syncCnt.OVF) rfl hkept

/-- What an attempt's closing does after it has published leaves the wrapped GEN (06 R190; 18 R493). -/
theorem State.closeWord_wrapped {s : State} {w : Nat} (hw : w + 3 < 65536) (hgen : s.lwGen w = 2 ^ 32 - 1) :
    (s.closeWord w 0).Wrapped w s.sync.waiters (s.publish w).evt.raised := by
  unfold State.closeWord
  extract_lets mode nl rung base clean descent next s1 s2 s3 s4 o s5 old s6
  have h1 : s1.Wrapped w s.sync.waiters (s.publish w).evt.raised := State.publish_wrapped hgen
  have h4 : s4.Wrapped w s.sync.waiters (s.publish w).evt.raised :=
    ((h1.setLw _ _ (by decide)).setLw _ _ (by decide)).setLw _ _ (by decide)
  have h5 : s4.TableKept s5 := (TableKept.refl s4).elogClose ..
  have h6 : s4.TableKept s6 := h5.putSync rfl
  exact (h4.tableKept hw (h6.giveOutcome ..)).lwExamine hw

/-! ### The last arrival -/

/-- From `s` to `t` the word's `EXPECT` is known to be `n` (06 R189); ARRIVED, the fields of CTRL, GEN's
entry, the waiter records and the events stay. -/
structure State.ExpectKnown (s t : State) (w n : Nat) : Prop where
  expect : t.lw w 1 lwExpect = n
  arrived : t.lw w 1 lwArrived = s.lw w 1 lwArrived
  ctrl : ∀ f, t.lw w 0 f = s.lw w 0 f
  gen : t.rd (A.syncCnt (w + 3)) = s.rd (A.syncCnt (w + 3))
  waiters : t.sync.waiters = s.sync.waiters
  evt : t.evt = s.evt

theorem State.expectKnown_refl {s : State} {w n : Nat} (h : s.lw w 1 lwExpect = n) : s.ExpectKnown s w n :=
  ⟨h, rfl, fun _ => rfl, rfl, rfl, rfl⟩

theorem State.expectKnown_setLw (s : State) (w : Nat) {n : Nat} (hn : n < 65536) :
    s.ExpectKnown (s.setLw w 1 lwExpect n) w n where
  expect := (State.lw_setLw_same _ _ _ _ _ (by decide) (by decide)).trans (Nat.mod_eq_of_lt hn)
  arrived := State.lw_setLw_field _ _ _ _ _ _ (by decide) (by decide) (by decide) (.inl (by decide))
  ctrl _ := State.lw_setLw_entry _ _ _ _ _ (by decide)
  gen := State.rd_gen_setLw _ _ _ _ (by decide)
  waiters := rfl
  evt := rfl

/-- From `s` to `t` an arrival with these flags is counted at the word, whose `EXPECT` is `n` from then on (06 R189); GEN's
entry, the waiter records and the events stay. -/
structure State.Counted (s t : State) (w n flags : Nat) : Prop where
  expect : t.lw w 1 lwExpect = n
  arrived : t.lw w 1 lwArrived = (s.lw w 1 lwArrived + 1) % 65536
  flags : t.lw w 0 lwFlags = (s.lw w 0 lwFlags ||| flags % 16) % 16
  abort : t.lw w 0 lwAbort = s.lw w 0 lwAbort
  disagree : t.lw w 0 lwDisagree = s.lw w 0 lwDisagree
  gen : t.rd (A.syncCnt (w + 3)) = s.rd (A.syncCnt (w + 3))
  waiters : t.sync.waiters = s.sync.waiters
  evt : t.evt = s.evt

section
variable {s t : State} {w m n flags attempt tmo : Nat} {who : Who}

/-- An arrival of the open attempt is counted, and its `LCOMMIT` is held unless the attempt closes with it (06 R189). -/
theorem State.arrivalAt_counted (hmatches : s.matches w attempt = true) (hn : n < 65536)
    (hexpect : s.lw w 1 lwExpect = 0 ∨ s.lw w 1 lwExpect = n) :
    ∃ t, (s.arrivalAt w m who flags n attempt tmo).1 = t.closeIfFull w ∧ s.Counted t w n flags := by
  unfold State.arrivalAt
  rw [if_neg (by simp [hmatches])]
  extract_lets s1 s2 s3 old s4
  have h1ctrl : ∀ f : Fld, f.lo ≤ f.hi → f.hi < 32 → lwFlags.hi < f.lo → s1.lw w 0 f = s.lw w 0 f := fun f hf hhi hd =>
    State.lw_setLw_field _ _ _ _ _ _ (by decide) hf hhi (.inr hd)
  have h1count : ∀ f, s1.lw w 1 f = s.lw w 1 f := fun f => State.lw_setLw_entry _ _ _ _ _ (by decide)
  have h1gen : s1.rd (A.syncCnt (w + 3)) = s.rd (A.syncCnt (w + 3)) := State.rd_gen_setLw _ _ _ _ (by decide)
  have h2ctrl : ∀ f, s2.lw w 0 f = s1.lw w 0 f := fun f => State.lw_setLw_entry _ _ _ _ _ (by decide)
  have h2arrived : s2.lw w 1 lwArrived = (s1.lw w 1 lwArrived + 1) % 65536 :=
    State.lw_setLw_same _ _ _ _ _ (by decide) (by decide)
  have h2expect : s2.lw w 1 lwExpect = s1.lw w 1 lwExpect :=
    State.lw_setLw_field _ _ _ _ _ _ (by decide) (by decide) (by decide) (.inr (by decide))
  have h2gen : s2.rd (A.syncCnt (w + 3)) = s1.rd (A.syncCnt (w + 3)) := State.rd_gen_setLw _ _ _ _ (by decide)
  have h3 : s2.ExpectKnown s3 w n := by
    unfold s3
    split
    · exact s2.expectKnown_setLw w hn
    next hknown =>
      rw [h2expect, h1count] at hknown ⊢
      have hsame := hexpect.resolve_left hknown
      rw [if_pos (hsame.trans (Nat.mod_eq_of_lt hn).symm)]
      exact State.expectKnown_refl (by rw [h2expect, h1count, hsame])
  refine ⟨s4, rfl, ?_⟩
  exact {
    expect := h3.expect
    arrived := by rw [← h1count, ← h2arrived]; exact h3.arrived
    flags := ((h3.ctrl lwFlags).trans (h2ctrl lwFlags)).trans (State.lw_setLw_same _ _ _ _ _ (by decide) (by decide))
    abort := ((h3.ctrl lwAbort).trans (h2ctrl lwAbort)).trans (h1ctrl lwAbort (by decide) (by decide) (by decide))
    disagree := ((h3.ctrl lwDisagree).trans (h2ctrl lwDisagree)).trans (h1ctrl lwDisagree (by decide) (by decide) (by decide))
    gen := (h3.gen.trans h2gen).trans h1gen
    waiters := h3.waiters
    evt := h3.evt }

/-- With the last arrival the attempt closes; without abort, disagreement or an overflow it publishes (06 R189, R190). -/
theorem State.Counted.closes (h : s.Counted t w n flags) (hpos : 0 < n) (hroom : s.lw w 1 lwArrived + 1 < 65536)
    (hlast : n ≤ s.lw w 1 lwArrived + 1) (habort : s.lw w 0 lwAbort = 0) (hdisagree : s.lw w 0 lwDisagree = 0)
    (hclean : (s.lw w 0 lwFlags).testBit 3 = false) (hclean' : flags.testBit 3 = false) : t.closeIfFull w = t.closeWord w 0 := by
  have hflag : (t.lw w 0 lwFlags).testBit 3 = false := by
    rw [h.flags, show 16 = 2 ^ 4 from rfl, Nat.testBit_mod_two_pow, Nat.testBit_or, Nat.testBit_mod_two_pow, hclean, hclean']
    rfl
  have hverdict : t.verdict w = 0 := by
    simp [State.verdict, h.abort, habort, h.disagree, hdisagree, hflag]
  have hfull : (t.lw w 1 lwExpect != 0 && decide (t.lw w 1 lwArrived ≥ t.lw w 1 lwExpect)) = true := by
    simp only [h.expect, h.arrived, Nat.mod_eq_of_lt hroom, Bool.and_eq_true, bne_iff_ne, decide_eq_true_eq]
    omega
  rw [State.closeIfFull, if_pos hfull, hverdict]

end

/-! ### The way to the home -/

/-- A transaction for the table has been taken in: off the list of those on their way, or by its receive context. -/
def State.tookIn (s : State) (inbox : List (Nat × Who × SyncOp)) (tmr : Tmr) : State :=
  (s.putSync { s.sync with inbox := inbox }).putTmr tmr

/-- What arrives changes Timir's record alone (10 R301). -/
theorem State.arrive_putTmr (s : State) (v : Via) : ∃ tmr, (s.arrive v).1 = s.putTmr tmr := by
  unfold State.arrive
  dsimp only
  split
  · exact ⟨_, rfl⟩
  · split
    · exact ⟨_, rfl⟩
    · split
      · exact ⟨_, rfl⟩
      · split
        · split <;> exact ⟨_, rfl⟩
        · exact ⟨s.tmr, rfl⟩

/-- An arrival that reaches the home of its word is performed, and its answer leaves the table alone (10 R301; 11 R328). -/
theorem State.atHome_arrival {s : State} {v : Via} {i flags n attempt tmo m : Nat} {who : Who}
    (h : s.reaches v i who (.arrival flags n attempt tmo) m) (perform : State → Nat → State × SyncAns) :
    ∃ inbox tmr, (perform (s.tookIn inbox tmr) m).1.TableKept (s.atHome v i who (.arrival flags n attempt tmo) perform) := by
  unfold State.atHome
  obtain ⟨hown, hinbox, rfl⟩ | ⟨hown, hup, hme, hfresh, rfl⟩ := h
  · rw [if_pos hown, if_pos (List.contains_iff_mem.2 hinbox)]
    refine ⟨s.sync.inbox.erase (i, who, .arrival flags n attempt tmo), s.tmr, ?_⟩
    exact (TableKept.refl _).put rfl rfl rfl
  · obtain ⟨tmr, htmr⟩ := s.arrive_putTmr v
    rw [if_neg (by simp [hown]), if_neg (by simp [hup]), if_neg (by simp [hme])]
    dsimp only
    rw [hfresh, htmr]
    exact ⟨s.sync.inbox, tmr, ((TableKept.refl _).performed ..).reply ..⟩

theorem exec_layerArrival_arrival (s : State) (v : Via) (i : BitVec 16) (who : Who) (flags n attempt tmo : Nat) :
    exec (.layerArrival v i who (.arrival flags n attempt tmo)) s = .next (s.atHome v i.toNat who (.arrival flags n attempt tmo)
      fun s m => s.arrivalAt (wordOf i.toNat) m who flags n attempt tmo) := rfl

end Sys2Proof.Machine

open Sys2Proof Sys2Proof.Machine

/-- Settles O57: the last arrival closes the word, whose publication wraps GEN, and what the closing and the answer do after
it keeps `State.Wrapped`. -/
theorem genWraps : Obligations.GenWraps := by
  unfold Obligations.GenWraps
  intro v i who w m n flags attempt tmo s hword hreach hmatches hpos hn hroom hlast hexpect habort hdisagree hclean hclean' hgen
  have hw : w + 3 < 65536 := by
    have := i.isLt
    simp only [hword, wordOf]
    omega
  rw [exec_layerArrival_arrival, ← hword]
  obtain ⟨inbox, tmr, hkept⟩ := State.atHome_arrival hreach fun s m => s.arrivalAt w m who flags n attempt tmo
  obtain ⟨x, hperform, hx⟩ := State.arrivalAt_counted (s := s.tookIn inbox tmr) (m := m) (who := who) (flags := flags) (tmo := tmo)
    hmatches hn hexpect
  rw [hperform, hx.closes hpos hroom hlast habort hdisagree hclean hclean'] at hkept
  have hxgen : x.lwGen w = 2 ^ 32 - 1 := by
    rw [← hgen, State.lwGen, State.counter, State.fld, hx.gen]
    rfl
  have hxovf : x.flag (A.syncCnt (w + 3)) F.syncCnt.OVF = s.flag (A.syncCnt (w + 3)) F.syncCnt.OVF := by
    rw [State.flag, State.fld, hx.gen]
    rfl
  have hwrapped := (State.closeWord_wrapped hw hxgen).tableKept hw hkept
  refine ⟨_, rfl, hwrapped.gen, hwrapped.ovf, fun hclear => ?_, fun r hr hindex hconsume hthreshold => ?_⟩
  · have hraises := State.publish_raises hxgen (hxovf.trans hclear) hwrapped.raised
    rw [State.raises, hx.evt] at hraises
    exact ⟨_, _, hraises⟩
  · exact hwrapped.held r (hx.waiters ▸ hr) ⟨hindex, hconsume, hthreshold⟩
end

section
/-!
PROOF. CanonicalKept, NothingUndone and CommandPieces: what no command undoes (`State.Keeps`), with the mask of the pieces
that the command does not touch, assembled from the lemma of each command and that of the clock's period.
-/
namespace Sys2Proof.Machine

/-- A command keeps what no command undoes, and besides every piece that is not listed for it. -/
theorem exec_keeps (c : Instr) {s : State} (h : s.canonical) : outKeeps (maskBut (touches c)) s (exec c s) := by
  have hs := State.Keeps.start (maskBut (touches c)) h
  cases c with
  | registerWrite who a n v => exact execRegisterWrite_keeps (by simp only [touches]; decide +kernel) who a n v s hs
  | nop b c opc rsv => exact execNop_keeps (by simp only [touches]; decide +kernel) b c opc rsv s hs
  | yield b c mask rsv => exact execYield_keeps (by simp only [touches]; decide +kernel) b c mask rsv s hs
  | defer b c rs rsv => exact execDefer_keeps (by simp only [touches]; decide +kernel) b c rs rsv s hs
  | deferPush b t => exact execDeferPush_keeps (by simp only [touches]; decide +kernel) b t s hs
  | deferFlush b c rs rsv => exact execDeferFlush_keeps (by simp only [touches]; decide +kernel) b c rs rsv s hs
  | dend b c rsv => exact execDend_keeps (by simp only [touches]; decide +kernel) b c rsv s hs
  | dwlEntryEnd b => exact execDwlEntryEnd_keeps (by simp only [touches]; decide +kernel) b s hs
  | stop b c rsv => exact execStop_keeps (by simp only [touches]; decide +kernel) b c rsv s hs
  | add b c rd rs1 rs2 iv imm rsv => exact execAdd_keeps (by simp only [touches]; decide +kernel) b c rd rs1 rs2 iv imm rsv s hs
  | sub b c rd rs1 rs2 iv imm rsv => exact execSub_keeps (by simp only [touches]; decide +kernel) b c rd rs1 rs2 iv imm rsv s hs
  | and b c rd rs1 rs2 iv imm rsv => exact execAnd_keeps (by simp only [touches]; decide +kernel) b c rd rs1 rs2 iv imm rsv s hs
  | or b c rd rs1 rs2 iv imm rsv => exact execOr_keeps (by simp only [touches]; decide +kernel) b c rd rs1 rs2 iv imm rsv s hs
  | xor b c rd rs1 rs2 iv imm rsv => exact execXor_keeps (by simp only [touches]; decide +kernel) b c rd rs1 rs2 iv imm rsv s hs
  | shl b c rd rs1 rs2 iv imm rsv => exact execShl_keeps (by simp only [touches]; decide +kernel) b c rd rs1 rs2 iv imm rsv s hs
  | shr b c rd rs1 rs2 iv imm rsv => exact execShr_keeps (by simp only [touches]; decide +kernel) b c rd rs1 rs2 iv imm rsv s hs
  | sra b c rd rs1 rs2 iv imm rsv => exact execSra_keeps (by simp only [touches]; decide +kernel) b c rd rs1 rs2 iv imm rsv s hs
  | mul b c rd rs1 rs2 iv imm rsv => exact execMul_keeps (by simp only [touches]; decide +kernel) b c rd rs1 rs2 iv imm rsv s hs
  | mulh b c rd rs1 rs2 iv imm rsv => exact execMulh_keeps (by simp only [touches]; decide +kernel) b c rd rs1 rs2 iv imm rsv s hs
  | div b c rd rs1 rs2 iv imm rsv => exact execDiv_keeps (by simp only [touches]; decide +kernel) b c rd rs1 rs2 iv imm rsv s hs
  | rem b c rd rs1 rs2 iv imm rsv => exact execRem_keeps (by simp only [touches]; decide +kernel) b c rd rs1 rs2 iv imm rsv s hs
  | slt b c rd rs1 rs2 iv imm rsv => exact execSlt_keeps (by simp only [touches]; decide +kernel) b c rd rs1 rs2 iv imm rsv s hs
  | sltu b c rd rs1 rs2 iv imm rsv => exact execSltu_keeps (by simp only [touches]; decide +kernel) b c rd rs1 rs2 iv imm rsv s hs
  | min b c rd rs1 rs2 iv imm rsv => exact execMin_keeps (by simp only [touches]; decide +kernel) b c rd rs1 rs2 iv imm rsv s hs
  | max b c rd rs1 rs2 iv imm rsv => exact execMax_keeps (by simp only [touches]; decide +kernel) b c rd rs1 rs2 iv imm rsv s hs
  | li b c rd imm rsv => exact execLi_keeps (by simp only [touches]; decide +kernel) b c rd imm rsv s hs
  | lih b c rd imm rsv => exact execLih_keeps (by simp only [touches]; decide +kernel) b c rd imm rsv s hs
  | ctr b c rd rsv => exact execCtr_keeps (by simp only [touches]; decide +kernel) b c rd rsv s hs
  | beq b c rs1 rs2 imm rsv => exact execBeq_keeps (by simp only [touches]; decide +kernel) b c rs1 rs2 imm rsv s hs
  | bne b c rs1 rs2 imm rsv => exact execBne_keeps (by simp only [touches]; decide +kernel) b c rs1 rs2 imm rsv s hs
  | blt b c rs1 rs2 imm rsv => exact execBlt_keeps (by simp only [touches]; decide +kernel) b c rs1 rs2 imm rsv s hs
  | bge b c rs1 rs2 imm rsv => exact execBge_keeps (by simp only [touches]; decide +kernel) b c rs1 rs2 imm rsv s hs
  | bltu b c rs1 rs2 imm rsv => exact execBltu_keeps (by simp only [touches]; decide +kernel) b c rs1 rs2 imm rsv s hs
  | bgeu b c rs1 rs2 imm rsv => exact execBgeu_keeps (by simp only [touches]; decide +kernel) b c rs1 rs2 imm rsv s hs
  | jal b c rd imm rsv => exact execJal_keeps (by simp only [touches]; decide +kernel) b c rd imm rsv s hs
  | jalr b c rd rs1 imm rsv => exact execJalr_keeps (by simp only [touches]; decide +kernel) b c rd rs1 imm rsv s hs
  | ld8 b c rd rs1 imm rsv => exact execLd8_keeps (by simp only [touches]; decide +kernel) b c rd rs1 imm rsv s hs
  | ld16 b c rd rs1 imm rsv => exact execLd16_keeps (by simp only [touches]; decide +kernel) b c rd rs1 imm rsv s hs
  | ld32 b c rd rs1 imm rsv => exact execLd32_keeps (by simp only [touches]; decide +kernel) b c rd rs1 imm rsv s hs
  | ld64 b c rd rs1 imm rsv => exact execLd64_keeps (by simp only [touches]; decide +kernel) b c rd rs1 imm rsv s hs
  | scalarLoadComplete b c rd => exact execScalarLoadComplete_keeps (by simp only [touches]; decide +kernel) b c rd s hs
  | st b c rd rs1 imm rsv => exact execSt_keeps (by simp only [touches]; decide +kernel) b c rd rs1 imm rsv s hs
  | tld b c t rs1 rsv => exact execTld_keeps (by simp only [touches]; decide +kernel) b c t rs1 rsv s hs
  | tst b c t rs1 rsv => exact execTst_keeps (by simp only [touches]; decide +kernel) b c t rs1 rsv s hs
  | tbase b c t rs1 imm rsv => exact execTbase_keeps (by simp only [touches]; decide +kernel) b c t rs1 imm rsv s hs
  | torg b c t rs1 imm rsv => exact execTorg_keeps (by simp only [touches]; decide +kernel) b c t rs1 imm rsv s hs
  | vadd b c vd va vb vc p fmt fn => exact execVadd_keeps (by simp only [touches]; decide +kernel) b c vd va vb vc p fmt fn s hs
  | vsub b c vd va vb vc p fmt fn => exact execVsub_keeps (by simp only [touches]; decide +kernel) b c vd va vb vc p fmt fn s hs
  | vmul b c vd va vb vc p fmt fn => exact execVmul_keeps (by simp only [touches]; decide +kernel) b c vd va vb vc p fmt fn s hs
  | vfma b c vd va vb vc p fmt fn => exact execVfma_keeps (by simp only [touches]; decide +kernel) b c vd va vb vc p fmt fn s hs
  | vmin b c vd va vb vc p fmt fn => exact execVmin_keeps (by simp only [touches]; decide +kernel) b c vd va vb vc p fmt fn s hs
  | vmax b c vd va vb vc p fmt fn => exact execVmax_keeps (by simp only [touches]; decide +kernel) b c vd va vb vc p fmt fn s hs
  | vdiv b c vd va vb vc p fmt fn => exact execVdiv_keeps (by simp only [touches]; decide +kernel) b c vd va vb vc p fmt fn s hs
  | vsqrt b c vd va vb vc p fmt fn => exact execVsqrt_keeps (by simp only [touches]; decide +kernel) b c vd va vb vc p fmt fn s hs
  | vcmp b c vd va vb vc p fmt fn => exact execVcmp_keeps (by simp only [touches]; decide +kernel) b c vd va vb vc p fmt fn s hs
  | vsel b c vd va vb vc p fmt fn => exact execVsel_keeps (by simp only [touches]; decide +kernel) b c vd va vb vc p fmt fn s hs
  | vred b c vd va vb vc p fmt fn => exact execVred_keeps (by simp only [touches]; decide +kernel) b c vd va vb vc p fmt fn s hs
  | vbcast b c vd va vb vc p fmt fn => exact execVbcast_keeps (by simp only [touches]; decide +kernel) b c vd va vb vc p fmt fn s hs
  | vcvt b c vd va vb vc p fmt fn => exact execVcvt_keeps (by simp only [touches]; decide +kernel) b c vd va vb vc p fmt fn s hs
  | vld b c vd x fn => exact execVld_keeps (by simp only [touches]; decide +kernel) b c vd x fn s hs
  | vst b c vd x => exact execVst_keeps (by simp only [touches]; decide +kernel) b c vd x s hs
  | pset b c p fn => exact execPset_keeps (by simp only [touches]; decide +kernel) b c p fn s hs
  | vexp2 b c vd va vb vc p fmt fn => exact execVexp2_keeps (by simp only [touches]; decide +kernel) b c vd va vb vc p fmt fn s hs
  | vexp b c vd va vb vc p fmt fn => exact execVexp_keeps (by simp only [touches]; decide +kernel) b c vd va vb vc p fmt fn s hs
  | vlog2 b c vd va vb vc p fmt fn => exact execVlog2_keeps (by simp only [touches]; decide +kernel) b c vd va vb vc p fmt fn s hs
  | vlog b c vd va vb vc p fmt fn => exact execVlog_keeps (by simp only [touches]; decide +kernel) b c vd va vb vc p fmt fn s hs
  | vrcp b c vd va vb vc p fmt fn => exact execVrcp_keeps (by simp only [touches]; decide +kernel) b c vd va vb vc p fmt fn s hs
  | vrsq b c vd va vb vc p fmt fn => exact execVrsq_keeps (by simp only [touches]; decide +kernel) b c vd va vb vc p fmt fn s hs
  | vsin b c vd va vb vc p fmt fn => exact execVsin_keeps (by simp only [touches]; decide +kernel) b c vd va vb vc p fmt fn s hs
  | vcos b c vd va vb vc p fmt fn => exact execVcos_keeps (by simp only [touches]; decide +kernel) b c vd va vb vc p fmt fn s hs
  | vtanh b c vd va vb vc p fmt fn => exact execVtanh_keeps (by simp only [touches]; decide +kernel) b c vd va vb vc p fmt fn s hs
  | vsig b c vd va vb vc p fmt fn => exact execVsig_keeps (by simp only [touches]; decide +kernel) b c vd va vb vc p fmt fn s hs
  | deskB b c d sl t rsv => exact execDeskB_keeps (by simp only [touches]; decide +kernel) b c d sl t rsv s hs
  | deskA b c mask sl set j n kp t rsv =>
    exact execDeskA_keeps (by simp only [touches]; decide +kernel) b c mask sl set j n kp t rsv s hs
  | deskDEpilogue b c d set j n t rsv =>
    exact execDeskDEpilogue_keeps (by simp only [touches]; decide +kernel) b c d set j n t rsv s hs
  | deskDRaw b c d set j n t rsv => exact execDeskDRaw_keeps (by simp only [touches]; decide +kernel) b c d set j n t rsv s hs
  | deskDMerge b c d set j n t rsv => exact execDeskDMerge_keeps (by simp only [touches]; decide +kernel) b c d set j n t rsv s hs
  | deskDDiscard b c d set j n t rsv => exact execDeskDDiscard_keeps (by simp only [touches]; decide +kernel) b c d set j n t rsv s hs
  | deskL b c mask rsv => exact execDeskL_keeps (by simp only [touches]; decide +kernel) b c mask rsv s hs
  | deskLeaseGrant b => exact execDeskLeaseGrant_keeps (by simp only [touches]; decide +kernel) b s hs
  | deskBLoadStart b d => exact execDeskBLoadStart_keeps (by simp only [touches]; decide +kernel) b d s hs
  | deskBLoadComplete b d => exact execDeskBLoadComplete_keeps (by simp only [touches]; decide +kernel) b d s hs
  | deskPassStart b d => exact execDeskPassStart_keeps (by simp only [touches]; decide +kernel) b d s hs
  | deskRowCommit b d u => exact execDeskRowCommit_keeps (by simp only [touches]; decide +kernel) b d u s hs
  | deskRowCheckFail b d x => exact execDeskRowCheckFail_keeps (by simp only [touches]; decide +kernel) b d x s hs
  | deskRateWindowEnd b d => exact execDeskRateWindowEnd_keeps (by simp only [touches]; decide +kernel) b d s hs
  | deskDrainStart b d => exact execDeskDrainStart_keeps (by simp only [touches]; decide +kernel) b d s hs
  | deskDrainComplete b d u => exact execDeskDrainComplete_keeps (by simp only [touches]; decide +kernel) b d u s hs
  | deskMergeStart b d x => exact execDeskMergeStart_keeps (by simp only [touches]; decide +kernel) b d x s hs
  | deskDiscardEffect b d => exact execDeskDiscardEffect_keeps (by simp only [touches]; decide +kernel) b d s hs
  | deskCfgWrite b d v => exact execDeskCfgWrite_keeps (by simp only [touches]; decide +kernel) b d v s hs
  | deskClrCnt b d => exact execDeskClrCnt_keeps (by simp only [touches]; decide +kernel) b d s hs
  | deskInjDrawerCe b d => exact execDeskInjDrawerCe_keeps (by simp only [touches]; decide +kernel) b d s hs
  | deskInjParity b d => exact execDeskInjParity_keeps (by simp only [touches]; decide +kernel) b d s hs
  | deskInjResidue b d => exact execDeskInjResidue_keeps (by simp only [touches]; decide +kernel) b d s hs
  | icacheFillComplete b line => exact execIcacheFillComplete_keeps (by simp only [touches]; decide +kernel) b line s hs
  | threadStart b t => exact execThreadStart_keeps (by simp only [touches]; decide +kernel) b t s hs
  | threadStopRequest b t => exact execThreadStopRequest_keeps (by simp only [touches]; decide +kernel) b t s hs
  | benchPcWrite b t v => exact execBenchPcWrite_keeps (by simp only [touches]; decide +kernel) b t v s hs
  | dwlIdleExpiry b => exact execDwlIdleExpiry_keeps (by simp only [touches]; decide +kernel) b s hs
  | dwlEntryStart b => exact execDwlEntryStart_keeps (by simp only [touches]; decide +kernel) b s hs
  | dwlResume b => exact execDwlResume_keeps (by simp only [touches]; decide +kernel) b s hs
  | moveCopy b c rs t dir sg cnt rsv => exact execMoveCopy_keeps (by simp only [touches]; decide +kernel) b c rs t dir sg cnt rsv s hs
  | moveConvert b c rs t dir sg cnt rsv =>
    exact execMoveConvert_keeps (by simp only [touches]; decide +kernel) b c rs t dir sg cnt rsv s hs
  | moveTranspose b c rs t dir sg cnt rsv =>
    exact execMoveTranspose_keeps (by simp only [touches]; decide +kernel) b c rs t dir sg cnt rsv s hs
  | moveWiden b c rs t dir sg cnt rsv =>
    exact execMoveWiden_keeps (by simp only [touches]; decide +kernel) b c rs t dir sg cnt rsv s hs
  | moveExpand b c rs t dir sg cnt rop rsv =>
    exact execMoveExpand_keeps (by simp only [touches]; decide +kernel) b c rs t dir sg cnt rop rsv s hs
  | moveComplete b iv => exact execMoveComplete_keeps (by simp only [touches]; decide +kernel) b iv s hs
  | expanderBlockComplete b => exact execExpanderBlockComplete_keeps (by simp only [touches]; decide +kernel) b s hs
  | expInjShort b => exact execExpInjShort_keeps (by simp only [touches]; decide +kernel) b s hs
  | expClrCnt b => exact execExpClrCnt_keeps (by simp only [touches]; decide +kernel) b s hs
  | sig b c rs inc rsv => exact execSig_keeps (by simp only [touches]; decide +kernel) b c rs inc rsv s hs
  | wait b c rd rs rt consume tmo rsv =>
    exact execWait_keeps (by simp only [touches]; decide +kernel) b c rd rs rt consume tmo rsv s hs
  | take b c rd rs rt rsv => exact execTake_keeps (by simp only [touches]; decide +kernel) b c rd rs rt rsv s hs
  | fenceB b c rsv => exact execFenceB_keeps (by simp only [touches]; decide +kernel) b c rsv s hs
  | fenceM b c rsv => exact execFenceM_keeps (by simp only [touches]; decide +kernel) b c rsv s hs
  | fenceD b c rsv => exact execFenceD_keeps (by simp only [touches]; decide +kernel) b c rsv s hs
  | fenceComplete b c => exact execFenceComplete_keeps (by simp only [touches]; decide +kernel) b c s hs
  | lopen b c rs ltag rung lad rsv => exact execLopen_keeps (by simp only [touches]; decide +kernel) b c rs ltag rung lad rsv s hs
  | lopenAnswer v attempt => exact execLopenAnswer_keeps (by simp only [touches]; decide +kernel) v attempt s hs
  | lopenTimeout b t => exact execLopenTimeout_keeps (by simp only [touches]; decide +kernel) b t s hs
  | lcommit b c rd rs rt rsv => exact execLcommit_keeps (by simp only [touches]; decide +kernel) b c rd rs rt rsv s hs
  | lcommitArrivalSend b t => exact execLcommitArrivalSend_keeps (by simp only [touches]; decide +kernel) b t s hs
  | lcommitOutcome v iv who o => exact execLcommitOutcome_keeps (by simp only [touches]; decide +kernel) v iv who o s hs
  | lcommitTimeout w who => exact execLcommitTimeout_keeps (by simp only [touches]; decide +kernel) w who s hs
  | layerAbortArrival b t => exact execLayerAbortArrival_keeps (by simp only [touches]; decide +kernel) b t s hs
  | layerOpenRequest v iv who ltag rung lad =>
    exact execLayerOpenRequest_keeps (by simp only [touches]; decide +kernel) v iv who ltag rung lad s hs
  | layerArrival v iv who op => exact execLayerArrival_keeps (by simp only [touches]; decide +kernel) v iv who op s hs
  | layerAbortTimeout w => exact execLayerAbortTimeout_keeps (by simp only [touches]; decide +kernel) w s hs
  | flagr b c rd u rsv1 rsv2 => exact execFlagr_keeps (by simp only [touches]; decide +kernel) b c rd u rsv1 rsv2 s hs
  | flagc b c u clr rsv1 rsv2 => exact execFlagc_keeps (by simp only [touches]; decide +kernel) b c u clr rsv1 rsv2 s hs
  | sbdRecordTake t x => exact execSbdRecordTake_keeps (by simp only [touches]; decide +kernel) t x s hs
  | sbdSteprecPoll t step => exact execSbdSteprecPoll_keeps (by simp only [touches]; decide +kernel) t step s hs
  | sbdWaitTimeout t global step => exact execSbdWaitTimeout_keeps (by simp only [touches]; decide +kernel) t global step s hs
  | sbdUpdateStart l => exact execSbdUpdateStart_keeps (by simp only [touches]; decide +kernel) l s hs
  | sbdNormCollect => exact execSbdNormCollect_keeps (by simp only [touches]; decide +kernel) s hs
  | sbdNormResult => exact execSbdNormResult_keeps (by simp only [touches]; decide +kernel) s hs
  | sbdPublish l => exact execSbdPublish_keeps (by simp only [touches]; decide +kernel) l s hs
  | sbdCheckFail t again => exact execSbdCheckFail_keeps (by simp only [touches]; decide +kernel) t again s hs
  | tbyInitComplete t => exact execTbyInitComplete_keeps (by simp only [touches]; decide +kernel) t s hs
  | tbyAccess cls ia n wr flips => exact execTbyAccess_keeps (by simp only [touches]; decide +kernel) cls ia n wr flips s hs
  | tbyScrubRead t flips => exact execTbyScrubRead_keeps (by simp only [touches]; decide +kernel) t flips s hs
  | tbyRowSpareComplete t => exact execTbyRowSpareComplete_keeps (by simp only [touches]; decide +kernel) t s hs
  | tbyRemapComplete t => exact execTbyRemapComplete_keeps (by simp only [touches]; decide +kernel) t s hs
  | tbyClrCnt t => exact execTbyClrCnt_keeps (by simp only [touches]; decide +kernel) t s hs
  | tbyInjUe t => exact execTbyInjUe_keeps (by simp only [touches]; decide +kernel) t s hs
  | tbyInjCe t => exact execTbyInjCe_keeps (by simp only [touches]; decide +kernel) t s hs
  | tbyStageWrite x => exact execTbyStageWrite_keeps (by simp only [touches]; decide +kernel) x s hs
  | tbyQosWrite t v => exact execTbyQosWrite_keeps (by simp only [touches]; decide +kernel) t v s hs
  | portTrainComplete p good peer => exact execPortTrainComplete_keeps (by simp only [touches]; decide +kernel) p good peer s hs
  | portTrainRetry p => exact execPortTrainRetry_keeps (by simp only [touches]; decide +kernel) p s hs
  | portRetrain p => exact execPortRetrain_keeps (by simp only [touches]; decide +kernel) p s hs
  | portDisable p => exact execPortDisable_keeps (by simp only [touches]; decide +kernel) p s hs
  | linkLost p => exact execLinkLost_keeps (by simp only [touches]; decide +kernel) p s hs
  | flitReceive p mine good n => exact execFlitReceive_keeps (by simp only [touches]; decide +kernel) p mine good n s hs
  | markArrival p => exact execMarkArrival_keeps (by simp only [touches]; decide +kernel) p s hs
  | tmrRd v addr n => exact execTmrRd_keeps (by simp only [touches]; decide +kernel) v addr n s hs
  | tmrWr v addr data be => exact execTmrWr_keeps (by simp only [touches]; decide +kernel) v addr data be s hs
  | tmrRdc v st data => exact execTmrRdc_keeps (by simp only [touches]; decide +kernel) v st data s hs
  | tmrWrc v st => exact execTmrWrc_keeps (by simp only [touches]; decide +kernel) v st s hs
  | syncResponse v st a => exact execSyncResponse_keeps (by simp only [touches]; decide +kernel) v st a s hs
  | tmrRtoExpiry dest tc seq => exact execTmrRtoExpiry_keeps (by simp only [touches]; decide +kernel) dest tc seq s hs
  | flowIdleExpiry m tc => exact execFlowIdleExpiry_keeps (by simp only [touches]; decide +kernel) m tc s hs
  | tmrRtWrite m v => exact execTmrRtWrite_keeps (by simp only [touches]; decide +kernel) m v s hs
  | tmrQuotaWrite tc q => exact execTmrQuotaWrite_keeps (by simp only [touches]; decide +kernel) tc q s hs
  | counterSignal v iv who inc => exact execCounterSignal_keeps (by simp only [touches]; decide +kernel) v iv who inc s hs
  | counterWait v iv who threshold consume tmo =>
    exact execCounterWait_keeps (by simp only [touches]; decide +kernel) v iv who threshold consume tmo s hs
  | counterTake v iv who amount => exact execCounterTake_keeps (by simp only [touches]; decide +kernel) v iv who amount s hs
  | counterRestore v iv who amount => exact execCounterRestore_keeps (by simp only [touches]; decide +kernel) v iv who amount s hs
  | counterStore iv x who => exact execCounterStore_keeps (by simp only [touches]; decide +kernel) iv x who s hs
  | notify v iv who r threshold consume =>
    exact execNotify_keeps (by simp only [touches]; decide +kernel) v iv who r threshold consume s hs
  | waitBusyRetry b t => exact execWaitBusyRetry_keeps (by simp only [touches]; decide +kernel) b t s hs
  | waitDeadlineExpiry x who => exact execWaitDeadlineExpiry_keeps (by simp only [touches]; decide +kernel) x who s hs
  | waitBackstopExpiry b t => exact execWaitBackstopExpiry_keeps (by simp only [touches]; decide +kernel) b t s hs
  | waitCancel v iv who => exact execWaitCancel_keeps (by simp only [touches]; decide +kernel) v iv who s hs
  | cancelAnswer v a => exact execCancelAnswer_keeps (by simp only [touches]; decide +kernel) v a s hs
  | notifyResultExpiry x who => exact execNotifyResultExpiry_keeps (by simp only [touches]; decide +kernel) x who s hs
  | lendStart b => exact execLendStart_keeps (by simp only [touches]; decide +kernel) b s hs
  | deskUngate b => exact execDeskUngate_keeps (by simp only [touches]; decide +kernel) b s hs
  | lendHalfRateEnd b => exact execLendHalfRateEnd_keeps (by simp only [touches]; decide +kernel) b s hs
  | trsSnapshot g => exact execTrsSnapshot_keeps (by simp only [touches]; decide +kernel) g s hs
  | trsSend g => exact execTrsSend_keeps (by simp only [touches]; decide +kernel) g s hs
  | trsSendComplete g => exact execTrsSendComplete_keeps (by simp only [touches]; decide +kernel) g s hs
  | trsClose g => exact execTrsClose_keeps (by simp only [touches]; decide +kernel) g s hs
  | trsApply g unread => exact execTrsApply_keeps (by simp only [touches]; decide +kernel) g unread s hs
  | trsApplyComplete g => exact execTrsApplyComplete_keeps (by simp only [touches]; decide +kernel) g s hs
  | trsDataReceive p frame => exact execTrsDataReceive_keeps (by simp only [touches]; decide +kernel) p frame s hs
  | trsAckReceive p frame => exact execTrsAckReceive_keeps (by simp only [touches]; decide +kernel) p frame s hs
  | trsNackReceive p frame => exact execTrsNackReceive_keeps (by simp only [touches]; decide +kernel) p frame s hs
  | trsNackTimer iv g round => exact execTrsNackTimer_keeps (by simp only [touches]; decide +kernel) iv g round s hs
  | trsLastResendTimer iv g round => exact execTrsLastResendTimer_keeps (by simp only [touches]; decide +kernel) iv g round s hs
  | trsTxbufFullTimer => exact execTrsTxbufFullTimer_keeps (by simp only [touches]; decide +kernel) s hs
  | trsFprintReceive p frame => exact execTrsFprintReceive_keeps (by simp only [touches]; decide +kernel) p frame s hs
  | hello p frame => exact execHello_keeps (by simp only [touches]; decide +kernel) p frame s hs
  | trsHelloTimer => exact execTrsHelloTimer_keeps (by simp only [touches]; decide +kernel) s hs
  | trsPartnerSilence iv => exact execTrsPartnerSilence_keeps (by simp only [touches]; decide +kernel) iv s hs
  | lineage p frame => exact execLineage_keeps (by simp only [touches]; decide +kernel) p frame s hs
  | requestJoin p frame => exact execRequestJoin_keeps (by simp only [touches]; decide +kernel) p frame s hs
  | requestRepair p frame => exact execRequestRepair_keeps (by simp only [touches]; decide +kernel) p frame s hs
  | requestRecon p frame => exact execRequestRecon_keeps (by simp only [touches]; decide +kernel) p frame s hs
  | requestBlist p frame => exact execRequestBlist_keeps (by simp only [touches]; decide +kernel) p frame s hs
  | bfp p frame => exact execBfp_keeps (by simp only [touches]; decide +kernel) p frame s hs
  | adelta p frame => exact execAdelta_keeps (by simp only [touches]; decide +kernel) p frame s hs
  | endXfer p frame => exact execEnd_keeps (by simp only [touches]; decide +kernel) p frame s hs
  | ready p frame => exact execReady_keeps (by simp only [touches]; decide +kernel) p frame s hs
  | trsRequestRetry slot => exact execTrsRequestRetry_keeps (by simp only [touches]; decide +kernel) slot s hs
  | trsEnable => exact execTrsEnable_keeps (by simp only [touches]; decide +kernel) s hs
  | trsDisable => exact execTrsDisable_keeps (by simp only [touches]; decide +kernel) s hs
  | trsPartWrite iv v => exact execTrsPartWrite_keeps (by simp only [touches]; decide +kernel) iv v s hs
  | trsPipelineCheckFail p again => exact execTrsPipelineCheckFail_keeps (by simp only [touches]; decide +kernel) p again s hs
  | crystalFailure xb => exact execCrystalFailure_keeps (by simp only [touches]; decide +kernel) xb s hs
  | clkFreqWrite v => exact execClkFreqWrite_keeps (by simp only [touches]; decide +kernel) v s hs
  | freqChangeComplete => exact execFreqChangeComplete_keeps (by simp only [touches]; decide +kernel) s hs
  | crossingOverrun second cdie v => exact execCrossingOverrun_keeps (by simp only [touches]; decide +kernel) second cdie v s hs
  | gtNowLoRead who => exact execGtNowLoRead_keeps (by simp only [touches]; decide +kernel) who s hs
  | announce p m => exact execAnnounce_keeps (by simp only [touches]; decide +kernel) p m s hs
  | sync p m => exact execSync_keeps (by simp only [touches]; decide +kernel) p m s hs
  | followUp p m => exact execFollowUp_keeps (by simp only [touches]; decide +kernel) p m s hs
  | delayReq p m => exact execDelayReq_keeps (by simp only [touches]; decide +kernel) p m s hs
  | delayResp p m => exact execDelayResp_keeps (by simp only [touches]; decide +kernel) p m s hs
  | signaling p m => exact execSignaling_keeps (by simp only [touches]; decide +kernel) p m s hs
  | ptpMessageTimer p kind => exact execPtpMessageTimer_keeps (by simp only [touches]; decide +kernel) p kind s hs
  | ppsInEdge => exact execPpsInEdge_keeps (by simp only [touches]; decide +kernel) s hs
  | ppsSeenExpiry => exact execPpsSeenExpiry_keeps (by simp only [touches]; decide +kernel) s hs
  | gtMeasurementTimeout => exact execGtMeasurementTimeout_keeps (by simp only [touches]; decide +kernel) s hs
  | markOutPulse => exact execMarkOutPulse_keeps (by simp only [touches]; decide +kernel) s hs
  | gtSet v => exact execGtSet_keeps (by simp only [touches]; decide +kernel) v s hs
  | pcieMemWrite addr data be => exact execPcieMemWrite_keeps (by simp only [touches]; decide +kernel) addr data be s hs
  | pcieMemRead tag addr n => exact execPcieMemRead_keeps (by simp only [touches]; decide +kernel) tag addr n s hs
  | pcieConfigWrite w => exact execPcieConfigWrite_keeps (by simp only [touches]; decide +kernel) w s hs
  | mbxSubmit mask => exact execMbxSubmit_keeps (by simp only [touches]; decide +kernel) mask s hs
  | mbxAck mask => exact execMbxAck_keeps (by simp only [touches]; decide +kernel) mask s hs
  | mbxTake => exact execMbxTake_keeps (by simp only [touches]; decide +kernel) s hs
  | moduleInfo iv => exact execModuleInfo_keeps (by simp only [touches]; decide +kernel) iv s hs
  | moduleStatus iv => exact execModuleStatus_keeps (by simp only [touches]; decide +kernel) iv s hs
  | moduleReset iv => exact execModuleReset_keeps (by simp only [touches]; decide +kernel) iv s hs
  | jobLoad iv => exact execJobLoad_keeps (by simp only [touches]; decide +kernel) iv s hs
  | jobStart iv => exact execJobStart_keeps (by simp only [touches]; decide +kernel) iv s hs
  | jobStop iv => exact execJobStop_keeps (by simp only [touches]; decide +kernel) iv s hs
  | jobUnload iv => exact execJobUnload_keeps (by simp only [touches]; decide +kernel) iv s hs
  | mapModule iv => exact execMapModule_keeps (by simp only [touches]; decide +kernel) iv s hs
  | mapRoutes iv => exact execMapRoutes_keeps (by simp only [touches]; decide +kernel) iv s hs
  | mapShards iv => exact execMapShards_keeps (by simp only [touches]; decide +kernel) iv s hs
  | numSet iv => exact execNumSet_keeps (by simp only [touches]; decide +kernel) iv s hs
  | numElog iv => exact execNumElog_keeps (by simp only [touches]; decide +kernel) iv s hs
  | sbdEnable iv => exact execSbdEnable_keeps (by simp only [touches]; decide +kernel) iv s hs
  | sbdExport iv => exact execSbdExport_keeps (by simp only [touches]; decide +kernel) iv s hs
  | farEnable iv => exact execFarEnable_keeps (by simp only [touches]; decide +kernel) iv s hs
  | farDisable iv => exact execFarDisable_keeps (by simp only [touches]; decide +kernel) iv s hs
  | farPartner iv => exact execFarPartner_keeps (by simp only [touches]; decide +kernel) iv s hs
  | timeSet iv => exact execTimeSet_keeps (by simp only [touches]; decide +kernel) iv s hs
  | timeSource iv => exact execTimeSource_keeps (by simp only [touches]; decide +kernel) iv s hs
  | powerStatus iv => exact execPowerStatus_keeps (by simp only [touches]; decide +kernel) iv s hs
  | powerCap iv => exact execPowerCap_keeps (by simp only [touches]; decide +kernel) iv s hs
  | secCert iv => exact execSecCert_keeps (by simp only [touches]; decide +kernel) iv s hs
  | secKeyx iv => exact execSecKeyx_keeps (by simp only [touches]; decide +kernel) iv s hs
  | logEvents iv => exact execLogEvents_keeps (by simp only [touches]; decide +kernel) iv s hs
  | logErrcopy iv => exact execLogErrcopy_keeps (by simp only [touches]; decide +kernel) iv s hs
  | fwStage iv => exact execFwStage_keeps (by simp only [touches]; decide +kernel) iv s hs
  | fwActivate iv => exact execFwActivate_keeps (by simp only [touches]; decide +kernel) iv s hs
  | commandComplete op => exact execCommandComplete_keeps (by simp only [touches]; decide +kernel) op s hs
  | eventAccept n => exact execEventAccept_keeps (by simp only [touches]; decide +kernel) n s hs
  | msixHoldoffExpiry v => exact execMsixHoldoffExpiry_keeps (by simp only [touches]; decide +kernel) v s hs
  | mctpControl src m => exact execMctpControl_keeps (by simp only [touches]; decide +kernel) src m s hs
  | getSensorReading src sensor v => exact execGetSensorReading_keeps (by simp only [touches]; decide +kernel) src sensor v s hs
  | pldmFwUpdate src m => exact execPldmFwUpdate_keeps (by simp only [touches]; decide +kernel) src m s hs
  | mctpVendorMailbox src body => exact execMctpVendorMailbox_keeps (by simp only [touches]; decide +kernel) src body s hs
  | getVersion mctp src req => exact execGetVersion_keeps (by simp only [touches]; decide +kernel) mctp src req s hs
  | getCapabilities mctp src req => exact execGetCapabilities_keeps (by simp only [touches]; decide +kernel) mctp src req s hs
  | negotiateAlgorithms mctp src req => exact execNegotiateAlgorithms_keeps (by simp only [touches]; decide +kernel) mctp src req s hs
  | getDigests mctp src req => exact execGetDigests_keeps (by simp only [touches]; decide +kernel) mctp src req s hs
  | getCertificate mctp src slot off n req =>
    exact execGetCertificate_keeps (by simp only [touches]; decide +kernel) mctp src slot off n req s hs
  | challenge mctp src slot req => exact execChallenge_keeps (by simp only [touches]; decide +kernel) mctp src slot req s hs
  | getMeasurements mctp src idx sign req =>
    exact execGetMeasurements_keeps (by simp only [touches]; decide +kernel) mctp src idx sign req s hs
  | spdmUnsupportedRequest mctp src => exact execSpdmUnsupportedRequest_keeps (by simp only [touches]; decide +kernel) mctp src s hs
  | takeoverStart b => exact execTakeoverStart_keeps (by simp only [touches]; decide +kernel) b s hs
  | takeoverWaitExpiry b => exact execTakeoverWaitExpiry_keeps (by simp only [touches]; decide +kernel) b s hs
  | takeoverComplete b => exact execTakeoverComplete_keeps (by simp only [touches]; decide +kernel) b s hs
  | hutchLockstepMismatch p => exact execHutchLockstepMismatch_keeps (by simp only [touches]; decide +kernel) p s hs
  | availSaveTimer => exact execAvailSaveTimer_keeps (by simp only [touches]; decide +kernel) s hs
  | powerOnReset adc xa => exact execPowerOnReset_keeps (by simp only [touches]; decide +kernel) adc xa s hs
  | systemReset adc => exact execSystemReset_keeps (by simp only [touches]; decide +kernel) adc s hs
  | coreReset => exact execCoreReset_keeps (by simp only [touches]; decide +kernel) s hs
  | rstBootGo => exact execRstBootGo_keeps (by simp only [touches]; decide +kernel) s hs
  | bootWatchdogExpiry => exact execBootWatchdogExpiry_keeps (by simp only [touches]; decide +kernel) s hs
  | resetNLowCore => exact execResetNLowCore_keeps (by simp only [touches]; decide +kernel) s hs
  | resetNLowSystem => exact execResetNLowSystem_keeps (by simp only [touches]; decide +kernel) s hs
  | resetNRelease adc => exact execResetNRelease_keeps (by simp only [touches]; decide +kernel) adc s hs
  | resetNDriveEnd => exact execResetNDriveEnd_keeps (by simp only [touches]; decide +kernel) s hs
  | perstAssert => exact execPerstAssert_keeps (by simp only [touches]; decide +kernel) s hs
  | pcieHotReset => exact execPcieHotReset_keeps (by simp only [touches]; decide +kernel) s hs
  | thermalTrip => exact execThermalTrip_keeps (by simp only [touches]; decide +kernel) s hs
  | thermalRecover adc xa => exact execThermalRecover_keeps (by simp only [touches]; decide +kernel) adc xa s hs
  | busbarUndervoltage => exact execBusbarUndervoltage_keeps (by simp only [touches]; decide +kernel) s hs
  | busbarOvervoltage => exact execBusbarOvervoltage_keeps (by simp only [touches]; decide +kernel) s hs
  | busbarVoltageRecover adc xa => exact execBusbarVoltageRecover_keeps (by simp only [touches]; decide +kernel) adc xa s hs
  | busbarOvercurrent => exact execBusbarOvercurrent_keeps (by simp only [touches]; decide +kernel) s hs
  | hotswapRetry adc xa => exact execHotswapRetry_keeps (by simp only [touches]; decide +kernel) adc xa s hs
  | presentNBreak => exact execPresentNBreak_keeps (by simp only [touches]; decide +kernel) s hs
  | powerManagerStep doms busbar loss =>
    exact execPowerManagerStep_keeps (by simp only [touches]; decide +kernel) doms busbar loss s hs
  | pwrCapWrite v => exact execPwrCapWrite_keeps (by simp only [touches]; decide +kernel) v s hs
  | ppsOutClaim en => exact execPpsOutClaim_keeps (by simp only [touches]; decide +kernel) en s hs
  | calMarkClaim en => exact execCalMarkClaim_keeps (by simp only [touches]; decide +kernel) en s hs
  | dbgTriggerClaim en => exact execDbgTriggerClaim_keeps (by simp only [touches]; decide +kernel) en s hs
  | alarmSweepClaim en => exact execAlarmSweepClaim_keeps (by simp only [touches]; decide +kernel) en s hs
  | alarmSweep => exact execAlarmSweep_keeps (by simp only [touches]; decide +kernel) s hs
  | clkTrimSettled => exact execClkTrimSettled_keeps (by simp only [touches]; decide +kernel) s hs
  | gtCorrectionSpent => exact execGtCorrectionSpent_keeps (by simp only [touches]; decide +kernel) s hs
  | gtUncertaintyLimit => exact execGtUncertaintyLimit_keeps (by simp only [touches]; decide +kernel) s hs
  | trsRoundBegin => exact execTrsRoundBegin_keeps (by simp only [touches]; decide +kernel) s hs
  | waitQuotaTimeout b t => exact execWaitQuotaTimeout_keeps (by simp only [touches]; decide +kernel) b t s hs
  | i3cDynamicAddress a => exact execI3cDynamicAddress_keeps (by simp only [touches]; decide +kernel) a s hs
  | pldmDiscovery src m => exact execPldmDiscovery_keeps (by simp only [touches]; decide +kernel) src m s hs
  | doeDiscovery idx => exact execDoeDiscovery_keeps (by simp only [touches]; decide +kernel) idx s hs
  | announceReceiptTimeout p => exact execAnnounceReceiptTimeout_keeps (by simp only [touches]; decide +kernel) p s hs
  | pcieLinkUp rate width => exact execPcieLinkUp_keeps (by simp only [touches]; decide +kernel) rate width s hs
  | sensorThresholdCrossing sensor die v =>
    exact execSensorThresholdCrossing_keeps (by simp only [touches]; decide +kernel) sensor die v s hs

/-- What a command keeps whatever pieces it writes. -/
theorem State.Keeps.weaken {msk : Nat} {o s : State} (h : o.Keeps msk s) : o.Keeps 0 s :=
  { h with same := fun p hp => by simp at hp }

/-- A step keeps what no command undoes: of the queue it takes the front command, where there is one. -/
theorem step_keeps {s t : State} (h : s.canonical) (ht : step s = .next t) : (s.putPending s.pending.tail).Keeps 0 t := by
  unfold step at ht
  cases hp : s.pending with
  | nil =>
    rw [hp] at ht
    cases ht
    have hsame : s.putPending [] = s := by rw [← hp]; rfl
    rw [List.tail_nil, hsame]
    exact State.tick_keeps rfl s (.start 0 h)
  | cons c r =>
    rw [hp] at ht
    exact (exec_keeps c (s := s.putPending r) h t ht).weaken

end Sys2Proof.Machine

open Sys2Proof Sys2Proof.Machine

/-- Settles O5: memory and registers are among what a step keeps. -/
theorem canonicalKept : Obligations.CanonicalKept := by
  unfold Obligations.CanonicalKept
  intro s t hs ht
  have hkept := step_keeps hs ht
  exact ⟨hkept.mem, hkept.regs⟩

/-- Settles O6: the parts of `State.Keeps` that hold of any step. -/
theorem nothingUndone : Obligations.NothingUndone := by
  unfold Obligations.NothingUndone
  intro s t hs ht
  have hkept := step_keeps hs ht
  exact ⟨hkept.pending, hkept.pulse, hkept.fresh, hkept.out, hkept.svn, hkept.defects, hkept.serial⟩

/-- Settles O8: every piece whose bit stands in the mask of `touches` stays the same. -/
theorem commandPieces : Obligations.CommandPieces := by
  unfold Obligations.CommandPieces
  intro c s t hs ht
  exact (exec_keeps c hs t ht).onlyIn
end

section
/-!
PROOF. ScalarAlu, ScalarMoves and Branches: an instruction that issues writes its register and goes on, or jumps.
-/
namespace Sys2Proof.Machine

/-! ### What an instruction that issued leaves -/

/-- An instruction that issued and writes a scalar register has no other effect. -/
theorem State.wroteS_done (s : State) (b : Nat) (c : Ctx) (rd : Nat) (v : Word) :
    s.wroteS ((s.setS b c rd v).done b c) b c rd v := by
  refine ⟨fun r => ?_, State.sameFiles_trans (State.sameFiles_setS ..) (State.sameFiles_done ..), ?_,
    State.ownCtx_trans (State.ownCtx_setS ..) (State.ownCtx_done ..)⟩
  · rw [State.s_done, State.s_setS]
  · rw [State.pc_done, State.nextPc, State.pc_setS, State.nextPc]

/-- An instruction that issued and only goes on changes nothing else. -/
theorem State.wentOn_done (s : State) (b : Nat) (c : Ctx) : s.wentOn (s.done b c) b c := by
  refine ⟨fun r => ?_, State.sameFiles_done .., State.pc_done .., State.ownCtx_done ..⟩
  rw [State.s_done, if_neg (by omega)]

/-- An instruction that issued and jumps to a word writes its register and the PC. -/
theorem State.jumped_setPc (s : State) {b : Nat} (c : Ctx) (rd : Nat) (v : Word) {a : Nat} {z : Int}
    (ha : c ≠ .D → a % 8 = 0) (hz : ((a % 2 ^ 64 : Nat) : Int) = z) :
    s.jumped (((s.setS b c rd v).issued b c).setPc b c a) b c rd v z := by
  refine ⟨fun r => ?_, State.sameFiles_trans (State.sameFiles_setS ..)
    (State.sameFiles_trans (State.sameFiles_issued ..) (State.sameFiles_setPc ..)), ?_,
    State.ownCtx_trans (State.ownCtx_setS ..) (State.ownCtx_trans (State.ownCtx_issued ..) (State.ownCtx_setPc ..))⟩
  · rw [State.s_setPc, State.s_issued, State.s_setS]
  · rw [← hz]
    by_cases hc : c = .D
    · subst hc
      simp [State.pc, State.setPc]
    · rw [State.pc_setPc _ _ _ _ (ha hc)]

theorem State.setS_zero (s : State) (b : Nat) (c : Ctx) (v : Word) : s.setS b c 0 v = s := if_pos rfl

/-! ### The operations of the scalar ALU (04 R139) -/

theorem mulh64_eq (x y : Word) : mulh64 x y = (x.signExtend 128 * y.signExtend 128).extractLsb' 64 64 := by
  have hprod : x.signExtend 128 * y.signExtend 128 = BitVec.ofInt 128 (x.toInt * y.toInt) := by
    rw [BitVec.signExtend, BitVec.signExtend, BitVec.ofInt_mul]
  apply BitVec.eq_of_toNat_eq
  rw [mulh64, hprod, BitVec.extractLsb'_toNat, BitVec.toNat_ofInt, BitVec.toNat_ofInt, Nat.shiftRight_eq_div_pow]
  generalize x.toInt * y.toInt = p
  omega

theorem sdiv64_eq (x y : Word) : sdiv64 x y = if y = 0 then BitVec.allOnes 64 else x.sdiv y := by
  unfold sdiv64
  by_cases hy : y = 0
  · rw [if_pos hy, if_pos hy]
  · rw [if_neg hy, if_neg hy]
    apply BitVec.eq_of_toInt_eq
    rw [BitVec.toInt_ofInt, BitVec.toInt_sdiv]

theorem srem64_eq (x y : Word) : srem64 x y = x.srem y := by
  unfold srem64
  by_cases hy : y = 0
  · rw [if_pos hy, hy]
    simp
  · rw [if_neg hy, ← BitVec.toInt_srem, BitVec.ofInt_toInt]

theorem ite_slt (x y : Word) : (if x.slt y then x else y) = if x.toInt ≤ y.toInt then x else y := by
  rw [BitVec.slt_eq_decide]
  by_cases hlt : x.toInt < y.toInt
  · rw [if_pos (by simpa using hlt), if_pos hlt.le]
  · rw [if_neg (by simpa using hlt)]
    split
    · next hle => exact (BitVec.eq_of_toInt_eq (le_antisymm hle (not_lt.1 hlt))).symm
    · rfl

theorem ite_slt_swap (x y : Word) : (if x.slt y then y else x) = if x.toInt ≤ y.toInt then y else x := by
  rw [BitVec.slt_eq_decide]
  by_cases hlt : x.toInt < y.toInt
  · rw [if_pos (by simpa using hlt), if_pos hlt.le]
  · rw [if_neg (by simpa using hlt)]
    split
    · next hle => exact BitVec.eq_of_toInt_eq (le_antisymm hle (not_lt.1 hlt))
    · rfl

/-- A scalar ALU instruction that issues writes its result. -/
theorem State.alu_wroteS {s : State} {b : Nat} {c : Ctx} {dwl : Bool} {rd rs1 rs2 : Nat} {i : Bool} {imm : BitVec 32}
    {rsv : BitVec 8} (h : s.issues b c (aluForm dwl rd rs1 rs2 i rsv) = true) (op : Word → Word → Word) {v : Word}
    (hv : op (s.s b c rs1) (s.src2 b c rs2 i imm) = v) :
    ∃ t, ok (s.alu b c dwl rd rs1 rs2 i imm rsv op) = .next t ∧ s.wroteS t b c rd v := by
  refine ⟨_, rfl, ?_⟩
  rw [State.alu, State.issue_of_issues h, hv]
  exact s.wroteS_done b c rd v

/-- The immediate in the upper half of a word, its lower half kept. -/
theorem lih_eq (imm : BitVec 32) (v : Word) :
    imm ++ v.truncate 32 = imm.zeroExtend 64 <<< 32 ||| (v &&& 0xFFFFFFFF) := by
  refine BitVec.eq_of_getLsbD_eq fun i hi => ?_
  have hmask : (0xFFFFFFFF : Word).getLsbD i = decide (i < 32) := by
    rw [show (0xFFFFFFFF : Word) = BitVec.ofNat 64 (2 ^ 32 - 1) from rfl, BitVec.getLsbD_ofNat, decide_eq_true hi, Bool.true_and]
    exact Nat.testBit_two_pow_sub_one 32 i
  rw [BitVec.getLsbD_append, BitVec.getLsbD_or, BitVec.getLsbD_and, hmask, BitVec.getLsbD_shiftLeft]
  by_cases h32 : i < 32
  · simp [h32]
  · simp [h32, hi, show i - 32 < 64 by omega]

/-! ### Branches (04 R139) -/

theorem branchTarget_eq (pc : Nat) (imm : BitVec 32) :
    (branchTarget pc imm : Int) = ((pc : Int) + 8 * imm.toInt) % 2 ^ 64 := by
  have hsum : BitVec.ofNat 64 pc + imm64 imm * 8 = BitVec.ofInt 64 ((pc : Int) + 8 * imm.toInt) := by
    rw [BitVec.ofInt_add, BitVec.ofInt_mul, imm64, BitVec.signExtend, mul_comm]
    rfl
  rw [branchTarget, hsum, BitVec.toNat_ofInt]
  omega

theorem branchTarget_lt (pc : Nat) (imm : BitVec 32) : branchTarget pc imm < 2 ^ 64 := BitVec.isLt _

/-- A branch of a thread goes to a word. -/
theorem State.branchTarget_word (s : State) (b : Nat) {c : Ctx} (imm : BitVec 32) (hc : c ≠ .D) :
    branchTarget (s.pc b c) imm % 8 = 0 := by
  have hpc := s.pc_mod b hc
  have htarget := branchTarget_eq (s.pc b c) imm
  omega

/-- A branch that issues goes to its target or to the next word. -/
theorem State.branch_jumped {s : State} {b : Nat} {c : Ctx} {rs1 rs2 : Nat} {imm : BitVec 32} {rsv : BitVec 8}
    (h : s.issues b c { sregs := [rs1, rs2], rsv := rsv.toNat } = true) (taken : Word → Word → Bool) {q : Bool}
    (hq : taken (s.s b c rs1) (s.s b c rs2) = q) :
    ∃ t, ok (s.branch b c rs1 rs2 imm rsv taken) = .next t ∧
      s.jumped t b c 0 0 (if q then ((s.pc b c : Int) + 8 * imm.toInt) % 2 ^ 64 else s.nextPc b c) := by
  refine ⟨_, rfl, ?_⟩
  rw [State.branch, State.issue_of_issues h, hq]
  cases q with
  | true =>
    have hjump := s.jumped_setPc (b := b) c 0 0 (fun hc => s.branchTarget_word b imm hc)
      (by rw [Nat.mod_eq_of_lt (branchTarget_lt _ _), branchTarget_eq])
    rw [State.setS_zero] at hjump
    exact hjump
  | false =>
    obtain ⟨hscalar, hfiles, hpc, hown⟩ := s.wentOn_done b c
    exact ⟨hscalar, hfiles, congrArg _ hpc, hown⟩

/-- Clearing the low three bits of a word rounds it down to a multiple of 8. -/
theorem toNat_and_not_seven (z : Word) : (z &&& ~~~7#64).toNat = z.toNat / 8 * 8 := by
  have hshift : z &&& ~~~7#64 = (z >>> 3) <<< 3 := by
    refine BitVec.eq_of_getLsbD_eq fun i hi => ?_
    have hseven : (7#64).getLsbD i = decide (i < 3) := by
      rw [BitVec.getLsbD_ofNat, decide_eq_true hi, Bool.true_and]
      exact Nat.testBit_two_pow_sub_one 3 i
    rw [BitVec.getLsbD_and, BitVec.getLsbD_not, BitVec.getLsbD_shiftLeft, BitVec.getLsbD_ushiftRight, hseven]
    by_cases h3 : i < 3
    · simp [h3]
    · simp [h3, hi, Nat.add_sub_cancel' (Nat.not_lt.1 h3)]
  have := z.isLt
  rw [hshift, BitVec.toNat_shiftLeft, BitVec.toNat_ushiftRight, Nat.shiftLeft_eq, Nat.shiftRight_eq_div_pow]
  omega

end Sys2Proof.Machine

open Sys2Proof Sys2Proof.Machine

/-- Settles O9: each operation is that of `State.alu`. -/
theorem scalarAlu : Obligations.ScalarAlu := by
  unfold Obligations.ScalarAlu
  intro b c rd rs1 rs2 iv imm rsv s x y hx hy
  have hsrc : s.src2 b c rs2 iv imm = y := hy.symm
  subst hx
  refine ⟨fun h p hp => ?_, fun h p hp => ?_⟩ <;> simp only [List.mem_cons, List.not_mem_nil, or_false] at hp
  · obtain rfl | rfl | rfl | rfl | rfl | rfl | rfl | rfl | rfl | rfl | rfl | rfl | rfl | rfl := hp
    · exact State.alu_wroteS h (· + ·) (by rw [hsrc])
    · exact State.alu_wroteS h (· - ·) (by rw [hsrc])
    · exact State.alu_wroteS h (· &&& ·) (by rw [hsrc])
    · exact State.alu_wroteS h (· ||| ·) (by rw [hsrc])
    · exact State.alu_wroteS h (· ^^^ ·) (by rw [hsrc])
    · exact State.alu_wroteS h (fun x y => x <<< shamt y) (by rw [hsrc, shamt])
    · exact State.alu_wroteS h (fun x y => x >>> shamt y) (by rw [hsrc, shamt])
    · exact State.alu_wroteS h (fun x y => x.sshiftRight (shamt y)) (by rw [hsrc, shamt])
    · exact State.alu_wroteS h (· * ·) (by rw [hsrc])
    · exact State.alu_wroteS h mulh64 (by rw [hsrc, mulh64_eq])
    · exact State.alu_wroteS h (fun x y => if x.slt y then 1 else 0) (by simp [hsrc, BitVec.slt_eq_decide])
    · exact State.alu_wroteS h (fun x y => if x.ult y then 1 else 0) (by simp [hsrc, BitVec.ult_eq_decide])
    · exact State.alu_wroteS h (fun x y => if x.slt y then x else y) (by rw [hsrc, ite_slt])
    · exact State.alu_wroteS h (fun x y => if x.slt y then y else x) (by rw [hsrc, ite_slt_swap])
  · obtain rfl | rfl := hp
    · exact State.alu_wroteS h sdiv64 (by rw [hsrc, sdiv64_eq])
    · exact State.alu_wroteS h srem64 (by rw [hsrc, srem64_eq])

/-- Settles O10: each is a write of its result by an instruction that goes on. -/
theorem scalarMoves : Obligations.ScalarMoves := by
  unfold Obligations.ScalarMoves
  intro b c rd imm rsv s
  refine ⟨fun h => ⟨?li, ?lih, ?ctr⟩, fun h => ⟨_, rfl, ?nop⟩⟩
  case li => exact ⟨_, rfl, by rw [State.issue_of_issues h]; exact s.wroteS_done ..⟩
  case lih =>
    refine ⟨_, rfl, ?_⟩
    rw [State.issue_of_issues h, ← lih_eq]
    exact s.wroteS_done ..
  case ctr => exact ⟨_, rfl, by rw [State.issue_of_issues h]; exact s.wroteS_done ..⟩
  case nop =>
    rw [if_pos rfl]
    exact (State.issue_of_issues h _).symm ▸ s.wentOn_done b c

/-- Settles O11: a branch is `State.branch`; JAL and JALR write the address of the next word and jump. -/
theorem branches : Obligations.Branches := by
  unfold Obligations.Branches
  intro b c rd rs1 rs2 imm rsv s x y far hx hy hfar
  subst hx hy hfar
  refine ⟨fun h p hp => ?_, fun h => ?jal, fun h => ?jalr⟩
  · simp only [List.mem_cons, List.not_mem_nil, or_false] at hp
    obtain rfl | rfl | rfl | rfl | rfl | rfl := hp
    · exact State.branch_jumped h (fun x y => x == y) (Bool.eq_iff_iff.2 (by simp))
    · exact State.branch_jumped h (fun x y => x != y) (by simp only [bne, Bool.beq_eq_decide_eq, decide_not])
    · exact State.branch_jumped h (fun x y => x.slt y) (BitVec.slt_eq_decide ..)
    · exact State.branch_jumped h (fun x y => !x.slt y) (by simp [BitVec.slt_eq_decide, ← decide_not])
    · exact State.branch_jumped h (fun x y => x.ult y) (BitVec.ult_eq_decide ..)
    · exact State.branch_jumped h (fun x y => !x.ult y) (by simp [BitVec.ult_eq_decide, ← decide_not])
  case jal =>
    refine ⟨_, rfl, ?_⟩
    rw [State.issue_of_issues h]
    exact s.jumped_setPc c _ _ (fun hc => s.branchTarget_word b imm hc)
      (by rw [Nat.mod_eq_of_lt (branchTarget_lt _ _), branchTarget_eq])
  case jalr =>
    refine ⟨_, rfl, ?_⟩
    rw [State.issue_of_issues h]
    have hlt : s.effAddr b c rs1 imm < 2 ^ 64 := BitVec.isLt _
    refine s.jumped_setPc c _ _ (fun _ => Nat.mul_mod_left _ _) ?_
    rw [toNat_and_not_seven, Nat.mod_eq_of_lt (by omega)]
    rfl
end

section
/-!
PROOF. CommandsComplete: the three transactions ask for operands of the spec; every other command answers a next state on
every branch.
-/
namespace Sys2Proof.Machine

theorem completes_next (s : State) : completes (.next s) := ⟨s, rfl⟩

/-- A request of the security protocol is answered, whatever the step needs. -/
theorem State.spdmStep_completes (s : State) (mctp : Bool) (src : BitVec 8) (need next : Nat) (req : List Byte)
    (k : State → List Byte → State × MgmtAns × List Byte) : completes (s.spdmStep mctp src need next req k) := by
  unfold State.spdmStep
  split
  · exact completes_next _
  · dsimp only
    split <;> exact completes_next _

/-! ### Transactions (10 R295, 09 R269) -/

theorem reqLegal_rd {a n : Nat} : reqLegal (.rd a n) = true ↔ 0 < n ∧ a % 256 + n ≤ 256 ∧ a < 2 ^ 50 := by
  simp [reqLegal, and_assoc, Nat.succ_le_iff]

theorem reqLegal_wr {a : Nat} {d : Bytes} {be : List Bool} :
    reqLegal (.wr a d be) = true ↔ d ≠ [] ∧ a % 256 + d.length ≤ 256 ∧ a < 2 ^ 50 ∧ be.length = d.length := by
  simp [reqLegal, and_assoc, Nat.succ_le_iff, List.length_pos_iff]

theorem execTmrRd_completes {v : Via} {a n : Nat} (s : State) (h : reqLegal (.rd a n) = true) :
    completes (execTmrRd v a n s) := by
  rw [execTmrRd, if_pos h]
  exact completes_next _

theorem execTmrWr_completes {v : Via} {a : Nat} {d : Bytes} {be : List Bool} (s : State) (h : reqLegal (.wr a d be) = true) :
    completes (execTmrWr v a d be s) := by
  rw [execTmrWr, if_pos h]
  exact completes_next _

theorem execTmrRd_fault {v : Via} {a n : Nat} (s : State) (h : reqLegal (.rd a n) ≠ true) :
    senderFault (execTmrRd v a n s) := if_neg h

theorem execTmrWr_fault {v : Via} {a : Nat} {d : Bytes} {be : List Bool} (s : State) (h : reqLegal (.wr a d be) ≠ true) :
    senderFault (execTmrWr v a d be s) := if_neg h

/-- An access to a Tallboy describes one of the spec where it has bytes, within its codeword, with enables that fit. -/
def tbyLegal (ia n : Nat) (wr : Option (Bytes × List Bool)) : Prop :=
  0 < n ∧ ia % 64 + n ≤ 64 ∧ ∀ d be, wr = some (d, be) → d.length = n ∧ be.length = n

theorem execTbyAccess_completes {cls : Fin 8} {ia n : Nat} {wr : Option (Bytes × List Bool)}
    (flips : List (Nat × Nat × Nat)) (s : State) (h : tbyLegal ia n wr) : completes (execTbyAccess cls ia n wr flips s) := by
  obtain ⟨hpos, hword, hfit⟩ := h
  have hsome : n ≠ 0 := by omega
  unfold execTbyAccess
  obtain _ | ⟨d, be⟩ := wr
  · rw [if_neg (by simp [hsome, hword])]
    dsimp only
    split <;> exact completes_next _
  · obtain ⟨hd, hbe⟩ := hfit d be rfl
    rw [if_neg (by simp [hsome, hword, hd, hbe])]
    dsimp only
    split <;> exact completes_next _

theorem execTbyAccess_fault {cls : Fin 8} {ia n : Nat} {wr : Option (Bytes × List Bool)}
    (flips : List (Nat × Nat × Nat)) (s : State) (h : ¬ tbyLegal ia n wr) : senderFault (execTbyAccess cls ia n wr flips s) := by
  unfold execTbyAccess
  refine if_pos ?_
  by_contra hgood
  refine h ?_
  obtain _ | ⟨d, be⟩ := wr
  · simp at hgood
    exact ⟨by omega, by omega, fun d be hwr => nomatch hwr⟩
  · simp at hgood
    obtain ⟨⟨hpos, hword⟩, hd, hbe⟩ := hgood
    exact ⟨by omega, by omega, fun d' be' hwr => by cases hwr; exact ⟨hd, hbe⟩⟩

/-! ### Commands with a choice -/

theorem execAlarmSweep_completes (s : State) : completes (execAlarmSweep s) := by
  unfold execAlarmSweep
  conv => zeta
  repeat' first | exact completes_next _ | split

theorem execScalarLoadComplete_completes (b : BenchNo) (c : Ctx) (rd : Fin 32) (s : State) :
    completes (execScalarLoadComplete b c rd s) := by
  unfold execScalarLoadComplete
  repeat' first | exact completes_next _ | split

theorem execSbdRecordTake_completes (t : Stack) (x : Fin 262144) (s : State) : completes (execSbdRecordTake t x s) := by
  unfold execSbdRecordTake
  conv => zeta
  repeat' first | exact completes_next _ | split

theorem execSbdWaitTimeout_completes (t : Stack) (global : Bool) (step : BitVec 48) (s : State) :
    completes (execSbdWaitTimeout t global step s) := by
  unfold execSbdWaitTimeout
  conv => zeta
  repeat' first | exact completes_next _ | split

theorem execSbdNormCollect_completes (s : State) : completes (execSbdNormCollect s) := by
  unfold execSbdNormCollect
  conv => zeta
  repeat' first | exact completes_next _ | split

theorem execSbdNormResult_completes (s : State) : completes (execSbdNormResult s) := by
  unfold execSbdNormResult
  conv => zeta
  repeat' first | exact completes_next _ | split

theorem execSbdCheckFail_completes (t : Stack) (again : Bool) (s : State) : completes (execSbdCheckFail t again s) := by
  unfold execSbdCheckFail
  conv => zeta
  repeat' first | exact completes_next _ | split

theorem execGtMeasurementTimeout_completes (s : State) : completes (execGtMeasurementTimeout s) := by
  unfold execGtMeasurementTimeout
  conv => zeta
  exact completes_next _

theorem execSbdUpdateStart_completes (l : Fin 4096) (s : State) : completes (execSbdUpdateStart l s) := by
  unfold execSbdUpdateStart
  repeat' first | exact completes_next _ | split | extract_lets

theorem execTakeoverStart_completes (b : BenchNo) (s : State) : completes (execTakeoverStart b s) := by
  unfold execTakeoverStart
  conv => zeta
  exact completes_next _

theorem execTrsRoundBegin_completes (s : State) : completes (execTrsRoundBegin s) := by
  unfold execTrsRoundBegin
  conv => zeta
  repeat' first | exact completes_next _ | split

theorem execTrsSnapshot_completes (g : Fin 256) (s : State) : completes (execTrsSnapshot g s) := by
  unfold execTrsSnapshot
  conv => zeta
  repeat' first | exact completes_next _ | split

theorem execTrsSend_completes (g : Fin 256) (s : State) : completes (execTrsSend g s) := by
  unfold execTrsSend
  conv => zeta
  repeat' first | exact completes_next _ | split

theorem execTrsSendComplete_completes (g : Fin 256) (s : State) : completes (execTrsSendComplete g s) := by
  unfold execTrsSendComplete
  conv => zeta
  repeat' first | exact completes_next _ | split

theorem execTrsClose_completes (g : Fin 256) (s : State) : completes (execTrsClose g s) := by
  unfold execTrsClose
  conv => zeta
  repeat' first | exact completes_next _ | split

theorem execTrsApply_completes (g : Fin 256) (unread : List (Nat × Nat)) (s : State) : completes (execTrsApply g unread s) := by
  unfold execTrsApply
  conv => zeta
  repeat' first | exact completes_next _ | split

theorem execTrsApplyComplete_completes (g : Fin 256) (s : State) : completes (execTrsApplyComplete g s) := by
  unfold execTrsApplyComplete
  conv => zeta
  repeat' first | exact completes_next _ | split

theorem execTrsDataReceive_completes (p : PortNo) (frame : Bytes) (s : State) : completes (execTrsDataReceive p frame s) := by
  unfold execTrsDataReceive
  repeat' first | exact completes_next _ | split

theorem execTrsAckReceive_completes (p : PortNo) (frame : Bytes) (s : State) : completes (execTrsAckReceive p frame s) := by
  unfold execTrsAckReceive
  conv => zeta
  repeat' first | exact completes_next _ | split

theorem execTrsNackReceive_completes (p : PortNo) (frame : Bytes) (s : State) : completes (execTrsNackReceive p frame s) := by
  unfold execTrsNackReceive
  conv => zeta
  repeat' first | exact completes_next _ | split

theorem execTrsFprintReceive_completes (p : PortNo) (frame : Bytes) (s : State) : completes (execTrsFprintReceive p frame s) := by
  unfold execTrsFprintReceive
  conv => zeta
  repeat' first | exact completes_next _ | split

theorem execTrsHelloTimer_completes (s : State) : completes (execTrsHelloTimer s) := by
  unfold execTrsHelloTimer
  conv => zeta
  repeat' first | exact completes_next _ | split

theorem execTrsPartnerSilence_completes (i : Fin 256) (s : State) : completes (execTrsPartnerSilence i s) := by
  unfold execTrsPartnerSilence
  conv => zeta
  repeat' first | exact completes_next _ | split

theorem execTrsPipelineCheckFail_completes (p : Fin 2) (again : Bool) (s : State) :
    completes (execTrsPipelineCheckFail p again s) := by
  unfold execTrsPipelineCheckFail
  conv => zeta
  repeat' first | exact completes_next _ | split

theorem execPcieMemWrite_completes (addr : PcieAddr) (data : Bytes) (be : List Bool) (s : State) :
    completes (execPcieMemWrite addr data be s) := by
  unfold execPcieMemWrite
  repeat' first | exact completes_next _ | split

theorem execPcieMemRead_completes (tag : Nat) (addr : PcieAddr) (n : Nat) (s : State) : completes (execPcieMemRead tag addr n s) := by
  unfold execPcieMemRead
  repeat' first | exact completes_next _ | split

theorem execPcieConfigWrite_completes (w : CfgWrite) (s : State) : completes (execPcieConfigWrite w s) := by
  unfold execPcieConfigWrite
  conv => zeta
  repeat' first | exact completes_next _ | split

theorem execMbxTake_completes (s : State) : completes (execMbxTake s) := by
  unfold execMbxTake
  repeat' first | exact completes_next _ | split

theorem execCommandComplete_completes (op : BitVec 32) (s : State) : completes (execCommandComplete op s) := by
  unfold execCommandComplete
  conv => zeta
  repeat' first | exact completes_next _ | split

theorem execI3cDynamicAddress_completes (a : BitVec 7) (s : State) : completes (execI3cDynamicAddress a s) := by
  unfold execI3cDynamicAddress
  repeat' first | exact completes_next _ | split

theorem execMctpControl_completes (src : BitVec 8) (m : MctpCtl) (s : State) : completes (execMctpControl src m s) := by
  unfold execMctpControl
  repeat' first | exact completes_next _ | split

theorem execPldmDiscovery_completes (src : BitVec 8) (m : PldmBase) (s : State) : completes (execPldmDiscovery src m s) := by
  unfold execPldmDiscovery
  repeat' first | exact completes_next _ | split

theorem execGetSensorReading_completes (src : BitVec 8) (sensor : Nat) (v : Int) (s : State) :
    completes (execGetSensorReading src sensor v s) := by
  unfold execGetSensorReading
  repeat' first | exact completes_next _ | split

theorem execSensorThresholdCrossing_completes (sensor die : Nat) (v : Int) (s : State) :
    completes (execSensorThresholdCrossing sensor die v s) := by
  unfold execSensorThresholdCrossing
  conv => zeta
  repeat' first | exact completes_next _ | split

theorem execPldmFwUpdate_completes (src : BitVec 8) (m : UpdateMsg) (s : State) : completes (execPldmFwUpdate src m s) := by
  unfold execPldmFwUpdate
  repeat' first | exact completes_next _ | split

theorem execMctpVendorMailbox_completes (src : BitVec 8) (body : Bytes) (s : State) :
    completes (execMctpVendorMailbox src body s) := by
  unfold execMctpVendorMailbox
  conv => zeta
  repeat' first | exact completes_next _ | split

theorem execGetVersion_completes (mctp : Bool) (src : BitVec 8) (req : Bytes) (s : State) :
    completes (execGetVersion mctp src req s) := by
  unfold execGetVersion
  repeat' first | exact completes_next _ | split

theorem execSpdmUnsupportedRequest_completes (mctp : Bool) (src : BitVec 8) (s : State) :
    completes (execSpdmUnsupportedRequest mctp src s) := by
  unfold execSpdmUnsupportedRequest
  repeat' first | exact completes_next _ | split

theorem execDoeDiscovery_completes (idx : BitVec 8) (s : State) : completes (execDoeDiscovery idx s) := by
  unfold execDoeDiscovery
  repeat' first | exact completes_next _ | split

theorem execGetCapabilities_completes (mctp : Bool) (src : BitVec 8) (req : Bytes) (s : State) :
    completes (execGetCapabilities mctp src req s) :=
  s.spdmStep_completes mctp src 1 2 req _

theorem execNegotiateAlgorithms_completes (mctp : Bool) (src : BitVec 8) (req : Bytes) (s : State) :
    completes (execNegotiateAlgorithms mctp src req s) :=
  s.spdmStep_completes mctp src 2 3 req _

theorem execGetDigests_completes (mctp : Bool) (src : BitVec 8) (req : Bytes) (s : State) :
    completes (execGetDigests mctp src req s) :=
  s.spdmStep_completes mctp src 3 3 req _

theorem execGetCertificate_completes (mctp : Bool) (src : BitVec 8) (slot : BitVec 8) (off n : BitVec 16) (req : Bytes) (s : State) :
    completes (execGetCertificate mctp src slot off n req s) :=
  s.spdmStep_completes mctp src 3 3 req _

theorem execChallenge_completes (mctp : Bool) (src : BitVec 8) (slot : BitVec 8) (req : Bytes) (s : State) :
    completes (execChallenge mctp src slot req s) :=
  s.spdmStep_completes mctp src 3 3 req _

theorem execGetMeasurements_completes (mctp : Bool) (src : BitVec 8) (idx : BitVec 8) (sign : Bool) (req : Bytes) (s : State) :
    completes (execGetMeasurements mctp src idx sign req s) :=
  s.spdmStep_completes mctp src 3 3 req _

/-! ### All commands -/

/-- Every command answers a next state, the three transactions where their operands describe one. -/
theorem exec_completes (c : Instr) (s : State) (hrd : ∀ v a n, c = .tmrRd v a n → reqLegal (.rd a n) = true)
    (hwr : ∀ v a d be, c = .tmrWr v a d be → reqLegal (.wr a d be) = true)
    (htby : ∀ cls ia n wr fl, c = .tbyAccess cls ia n wr fl → tbyLegal ia n wr) : completes (exec c s) := by
  cases c
  case tmrRd => exact execTmrRd_completes s (hrd _ _ _ rfl)
  case tmrWr => exact execTmrWr_completes s (hwr _ _ _ _ rfl)
  case tbyAccess => exact execTbyAccess_completes _ s (htby _ _ _ _ _ rfl)
  case alarmSweep => exact execAlarmSweep_completes ..
  case scalarLoadComplete => exact execScalarLoadComplete_completes ..
  case sbdRecordTake => exact execSbdRecordTake_completes ..
  case sbdWaitTimeout => exact execSbdWaitTimeout_completes ..
  case sbdNormCollect => exact execSbdNormCollect_completes ..
  case sbdNormResult => exact execSbdNormResult_completes ..
  case sbdCheckFail => exact execSbdCheckFail_completes ..
  case gtMeasurementTimeout => exact execGtMeasurementTimeout_completes ..
  case sbdUpdateStart => exact execSbdUpdateStart_completes ..
  case takeoverStart => exact execTakeoverStart_completes ..
  case trsRoundBegin => exact execTrsRoundBegin_completes ..
  case trsSnapshot => exact execTrsSnapshot_completes ..
  case trsSend => exact execTrsSend_completes ..
  case trsSendComplete => exact execTrsSendComplete_completes ..
  case trsClose => exact execTrsClose_completes ..
  case trsApply => exact execTrsApply_completes ..
  case trsApplyComplete => exact execTrsApplyComplete_completes ..
  case trsDataReceive => exact execTrsDataReceive_completes ..
  case trsAckReceive => exact execTrsAckReceive_completes ..
  case trsNackReceive => exact execTrsNackReceive_completes ..
  case trsFprintReceive => exact execTrsFprintReceive_completes ..
  case trsHelloTimer => exact execTrsHelloTimer_completes ..
  case trsPartnerSilence => exact execTrsPartnerSilence_completes ..
  case trsPipelineCheckFail => exact execTrsPipelineCheckFail_completes ..
  case pcieMemWrite => exact execPcieMemWrite_completes ..
  case pcieMemRead => exact execPcieMemRead_completes ..
  case pcieConfigWrite => exact execPcieConfigWrite_completes ..
  case mbxTake => exact execMbxTake_completes ..
  case commandComplete => exact execCommandComplete_completes ..
  case i3cDynamicAddress => exact execI3cDynamicAddress_completes ..
  case mctpControl => exact execMctpControl_completes ..
  case pldmDiscovery => exact execPldmDiscovery_completes ..
  case getSensorReading => exact execGetSensorReading_completes ..
  case sensorThresholdCrossing => exact execSensorThresholdCrossing_completes ..
  case pldmFwUpdate => exact execPldmFwUpdate_completes ..
  case mctpVendorMailbox => exact execMctpVendorMailbox_completes ..
  case getVersion => exact execGetVersion_completes ..
  case spdmUnsupportedRequest => exact execSpdmUnsupportedRequest_completes ..
  case doeDiscovery => exact execDoeDiscovery_completes ..
  case getCapabilities => exact execGetCapabilities_completes ..
  case negotiateAlgorithms => exact execNegotiateAlgorithms_completes ..
  case getDigests => exact execGetDigests_completes ..
  case getCertificate => exact execGetCertificate_completes ..
  case challenge => exact execChallenge_completes ..
  case getMeasurements => exact execGetMeasurements_completes ..
  all_goals exact completes_next _

end Sys2Proof.Machine

open Sys2Proof Sys2Proof.Machine

/-- Settles O7: the conditions on the operands are the checks that the three transactions make. -/
theorem commandsComplete : Obligations.CommandsComplete := by
  unfold Obligations.CommandsComplete
  intro c s
  refine ⟨fun hrd hwr htby => ?_, fun v a n hc h => ?_, fun v a d be hc h => ?_, fun cls ia n wr fl hc h => ?_⟩
  · exact exec_completes c s (fun v a n hc => reqLegal_rd.2 (hrd v a n hc)) (fun v a d be hc => reqLegal_wr.2 (hwr v a d be hc)) htby
  · subst hc
    refine execTmrRd_fault s fun hlegal => ?_
    obtain ⟨hpos, hblock, hspace⟩ := reqLegal_rd.1 hlegal
    omega
  · subst hc
    refine execTmrWr_fault s fun hlegal => ?_
    obtain ⟨hsome, hblock, hspace, henables⟩ := reqLegal_wr.1 hlegal
    obtain hnone | hlong | hfar | hbe := h
    · exact hsome hnone
    · omega
    · omega
    · exact hbe henables
  · subst hc
    refine execTbyAccess_fault fl s fun ⟨hpos, hword, hfit⟩ => ?_
    obtain hnone | hlong | ⟨d, be, hwr, hbad⟩ := h
    · omega
    · omega
    · obtain ⟨hd, hbe⟩ := hfit d be hwr
      exact hbad.elim (fun h => h hd) (fun h => h hbe)
end

section
/-!
SUPPORT. The pieces that an operation leaves alone, in every state (`State.Same`): one lemma for each function that answers a
state, as `State.Keeps` has it for the canonical ones.
-/
namespace Sys2Proof.Machine

/-- From a state `o` to a state `s` the queue and the pieces of a mask stay the same. -/
structure State.Same (msk : Nat) (o s : State) : Prop where
  pending : s.pending = o.pending
  same : ∀ p : Part, msk.testBit p.idx = true → o.sameAt s p

theorem State.Same.refl {msk : Nat} (s : State) : s.Same msk s := ⟨rfl, fun p _ => by cases p <;> rfl⟩

theorem State.Same.trans {msk : Nat} {s t u : State} (h : s.Same msk t) (k : t.Same msk u) : s.Same msk u :=
  ⟨k.pending.trans h.pending, fun p hp => by
    have hst := h.same p hp
    have htu := k.same p hp
    cases p <;> exact Eq.trans htu hst⟩

/-- What leaves every piece that a list leaves out differs at most in the pieces listed. -/
theorem State.Same.onlyIn {l : List Part} {o s : State} (h : o.Same (maskBut l) s) : o.onlyIn l s :=
  ⟨h.pending, fun _ hp => h.same _ (maskBut_testBit hp)⟩

variable {msk : Nat} {was : State}

/-- A state in which one piece was replaced leaves the others. -/
theorem State.Same.but {s t : State} (q : Part) (hs : was.Same msk s) (hf : msk &&& 2 ^ q.idx = 0)
    (hq : t.pending = s.pending) (h : ∀ p, p ≠ q → was.sameAt s p → was.sameAt t p) : was.Same msk t :=
  ⟨hq.trans hs.pending, fun p hp => by
    by_cases e : p = q
    · exact absurd (e ▸ hp) (free_bit hf)
    · exact h p e (hs.same p hp)⟩

theorem fst_same {β : Type} {p : State × β} {t : State} {e : β} (hp : was.Same msk p.1) (he : p = (t, e)) : was.Same msk t := by
  rwa [he] at hp

theorem snd_same {β : Type} {p : β × State} {t : State} {e : β} (hp : was.Same msk p.2) (he : p = (e, t)) : was.Same msk t := by
  rwa [he] at hp

theorem foldl_same {α : Type} (l : List α) (f : State → α → State) (s : State)
    (hf : ∀ s x, was.Same msk s → was.Same msk (f s x)) (hs : was.Same msk s) : was.Same msk (l.foldl f s) := by
  induction l generalizing s with
  | nil => exact hs
  | cons x r ih => exact ih _ (hf s x hs)

theorem foldlFst_same {α β : Type} (l : List α) (f : State × β → α → State × β) (p : State × β)
    (hf : ∀ p x, was.Same msk p.1 → was.Same msk (f p x).1) (hp : was.Same msk p.1) : was.Same msk (l.foldl f p).1 := by
  induction l generalizing p with
  | nil => exact hp
  | cons x r ih => exact ih _ (hf p x hp)

theorem foldlSnd_same {α β : Type} (l : List α) (f : β × State → α → β × State) (p : β × State)
    (hf : ∀ p x, was.Same msk p.2 → was.Same msk (f p x).2) (hp : was.Same msk p.2) : was.Same msk (l.foldl f p).2 := by
  induction l generalizing p with
  | nil => exact hp
  | cons x r ih => exact ih _ (hf p x hp)

theorem halves_same {β : Type} {p : State × β} (hp : was.Same msk p.1) : was.Same msk (halves p).1 := hp

theorem thirds_same {β γ : Type} {p : State × β × γ} (hp : was.Same msk p.1) : was.Same msk (thirds p).1 := hp

theorem State.wr_same (hfree : msk &&& 1 = 0) (s : State) (a : Nat) (v : Word) (hs : was.Same msk s) : was.Same msk (s.wr a v) :=
  hs.but .regs hfree rfl (fun p hp h => by cases p <;> first | exact h | exact absurd rfl hp)

theorem State.nextFresh_same (hfree : msk &&& 1073741824 = 0) (s : State) (hs : was.Same msk s) : was.Same msk (s.putFresh (s.fresh + 1)) :=
  hs.but .fresh hfree rfl (fun p hp h => by cases p <;> first | exact h | exact absurd rfl hp)

theorem State.send_same (hfree : msk &&& 2147483648 = 0) (s : State) (m : Msg) (hs : was.Same msk s) : was.Same msk (s.send m) :=
  hs.but .out hfree rfl (fun p hp h => by cases p <;> first | exact h | exact absurd rfl hp)

theorem State.putMem_same (hfree : msk &&& 4 = 0) (s : State) (m : Memory) (hs : was.Same msk s) : was.Same msk (s.putMem m) :=
  hs.but .mem hfree rfl (fun p hp h => by cases p <;> first | exact h | exact absurd rfl hp)

theorem State.memStore_same (hfree : msk &&& 4 = 0) (s : State) (a : Nat) (l : List Byte) (hs : was.Same msk s) :
    was.Same msk (s.putMem (s.mem.write a l)) := State.putMem_same hfree _ _ hs

theorem State.memFilter_same (hfree : msk &&& 4 = 0) (s : State) (p : Host.Cell → Bool) (hs : was.Same msk s) :
    was.Same msk (s.putMem (s.mem.filter p)) := State.putMem_same hfree _ _ hs

theorem State.memClear_same (hfree : msk &&& 4 = 0) (s : State) (a n : Nat) (hs : was.Same msk s) :
    was.Same msk (s.putMem (s.mem.clearRange a n)) := State.putMem_same hfree _ _ hs

theorem State.putCyc_same (hfree : msk &&& 67108864 = 0) (s x) (hs : was.Same msk s) : was.Same msk (s.putCyc x) :=
  hs.but .cyc hfree rfl (fun p hp h => by cases p <;> first | exact h | exact absurd rfl hp)

theorem State.swAgain_same (hfree : msk &&& 67108865 = 0) (s a f) (hs : was.Same msk s) : was.Same msk (s.swAgain a f) := by
  unfold State.swAgain
  conv => zeta
  with_reducible repeat' first
    | assumption | exact free_mono hfree rfl | apply State.wr_same | apply State.putCyc_same | split | dsimp only

theorem State.setFld_same (hfree : msk &&& 1 = 0) (s a f x) (hs : was.Same msk s) : was.Same msk (s.setFld a f x) := by
  unfold State.setFld
  with_reducible repeat' first | assumption | exact free_mono hfree rfl | apply State.wr_same

theorem State.hwDone_same (hfree : msk &&& 67108865 = 0) (s a f) (hs : was.Same msk s) : was.Same msk (s.hwDone a f) := by
  unfold State.hwDone
  conv => zeta
  with_reducible repeat' first
    | assumption | exact free_mono hfree rfl | apply State.swAgain_same | apply State.setFld_same | apply State.putCyc_same | split
    | dsimp only

theorem State.putBenches_same (hfree : msk &&& 8 = 0) (s x) (hs : was.Same msk s) : was.Same msk (s.putBenches x) :=
  hs.but .benches hfree rfl (fun p hp h => by cases p <;> first | exact h | exact absurd rfl hp)

theorem State.setBench_same (hfree : msk &&& 8 = 0) (s b x) (hs : was.Same msk s) : was.Same msk (s.setBench b x) := by
  unfold State.setBench
  with_reducible repeat' first | assumption | exact free_mono hfree rfl | apply State.putBenches_same

theorem State.setCtx_same (hfree : msk &&& 8 = 0) (s b c x) (hs : was.Same msk s) : was.Same msk (s.setCtx b c x) := by
  unfold State.setCtx
  with_reducible repeat' first | assumption | exact free_mono hfree rfl | apply State.setBench_same

theorem State.modCtx_same (hfree : msk &&& 8 = 0) (s b c) (f) (hs : was.Same msk s) : was.Same msk (s.modCtx b c f) := by
  unfold State.modCtx
  with_reducible repeat' first | assumption | exact free_mono hfree rfl | apply State.setCtx_same

theorem State.modBench_same (hfree : msk &&& 8 = 0) (s b) (f) (hs : was.Same msk s) : was.Same msk (s.modBench b f) := by
  unfold State.modBench
  with_reducible repeat' first | assumption | exact free_mono hfree rfl | apply State.setBench_same

theorem State.rest_same (hfree : msk &&& 8 = 0) (s b) (hs : was.Same msk s) : was.Same msk (s.rest b) := by
  unfold State.rest
  conv => zeta
  with_reducible repeat' first | assumption | exact free_mono hfree rfl | apply State.modBench_same

theorem State.setBit_same (hfree : msk &&& 1 = 0) (s a f i b) (hs : was.Same msk s) : was.Same msk (s.setBit a f i b) := by
  unfold State.setBit
  with_reducible repeat' first | assumption | exact free_mono hfree rfl | apply State.setFld_same

theorem State.lendEnd_same (hfree : msk &&& 9 = 0) (s b) (hs : was.Same msk s) : was.Same msk (s.lendEnd b) := by
  unfold State.lendEnd
  conv => zeta
  with_reducible repeat' first | assumption | exact free_mono hfree rfl | apply State.modBench_same | apply State.setBit_same | split

theorem State.unblock_same (hfree : msk &&& 9 = 0) (s b c) (hs : was.Same msk s) : was.Same msk (s.unblock b c) := by
  unfold State.unblock
  conv => zeta
  with_reducible repeat' first | assumption | exact free_mono hfree rfl | apply State.modCtx_same | apply State.setFld_same | split

theorem State.wake_same (hfree : msk &&& 9 = 0) (s b c) (hs : was.Same msk s) : was.Same msk (s.wake b c) := by
  unfold State.wake
  with_reducible repeat' first | assumption | exact free_mono hfree rfl | apply State.lendEnd_same | apply State.unblock_same

theorem State.putDesks_same (hfree : msk &&& 16 = 0) (s x) (hs : was.Same msk s) : was.Same msk (s.putDesks x) :=
  hs.but .desks hfree rfl (fun p hp h => by cases p <;> first | exact h | exact absurd rfl hp)

theorem State.setDesk_same (hfree : msk &&& 16 = 0) (s b d x) (hs : was.Same msk s) : was.Same msk (s.setDesk b d x) := by
  unfold State.setDesk
  with_reducible repeat' first | assumption | exact free_mono hfree rfl | apply State.putDesks_same

theorem State.modDesk_same (hfree : msk &&& 16 = 0) (s b d) (f) (hs : was.Same msk s) : was.Same msk (s.modDesk b d f) := by
  unfold State.modDesk
  with_reducible repeat' first | assumption | exact free_mono hfree rfl | apply State.setDesk_same

theorem State.putFlt_same (hfree : msk &&& 8192 = 0) (s x) (hs : was.Same msk s) : was.Same msk (s.putFlt x) :=
  hs.but .flt hfree rfl (fun p hp h => by cases p <;> first | exact h | exact absurd rfl hp)

theorem State.incWrap_same (hfree : msk &&& 1 = 0) (s a f n) (hs : was.Same msk s) : was.Same msk (s.incWrap a f n) := by
  unfold State.incWrap
  with_reducible repeat' first | assumption | exact free_mono hfree rfl | apply State.setFld_same

theorem State.countAvail_same (hfree : msk &&& 8193 = 0) (s) (hs : was.Same msk s) : was.Same msk (s.countAvail) := by
  unfold State.countAvail
  conv => zeta
  with_reducible repeat' first | assumption | exact free_mono hfree rfl | apply State.putFlt_same | apply State.incWrap_same | split

theorem State.putClk_same (hfree : msk &&& 4096 = 0) (s x) (hs : was.Same msk s) : was.Same msk (s.putClk x) :=
  hs.but .clk hfree rfl (fun p hp h => by cases p <;> first | exact h | exact absurd rfl hp)

theorem State.putRst_same (hfree : msk &&& 2097152 = 0) (s x) (hs : was.Same msk s) : was.Same msk (s.putRst x) :=
  hs.but .rst hfree rfl (fun p hp h => by cases p <;> first | exact h | exact absurd rfl hp)

theorem State.putTmr_same (hfree : msk &&& 256 = 0) (s x) (hs : was.Same msk s) : was.Same msk (s.putTmr x) :=
  hs.but .tmr hfree rfl (fun p hp h => by cases p <;> first | exact h | exact absurd rfl hp)

theorem State.incSat_same (hfree : msk &&& 1 = 0) (s a f n) (hs : was.Same msk s) : was.Same msk (s.incSat a f n) := by
  unfold State.incSat
  with_reducible repeat' first | assumption | exact free_mono hfree rfl | apply State.setFld_same

theorem State.putLost_same (hfree : msk &&& 33554432 = 0) (s x) (hs : was.Same msk s) : was.Same msk (s.putLost x) :=
  hs.but .lost hfree rfl (fun p hp h => by cases p <;> first | exact h | exact absurd rfl hp)

theorem State.putTby_same (hfree : msk &&& 128 = 0) (s x) (hs : was.Same msk s) : was.Same msk (s.putTby x) :=
  hs.but .tby hfree rfl (fun p hp h => by cases p <;> first | exact h | exact absurd rfl hp)

theorem State.modStack_same (hfree : msk &&& 128 = 0) (s t) (f) (hs : was.Same msk s) : was.Same msk (s.modStack t f) := by
  unfold State.modStack
  with_reducible repeat' first | assumption | exact free_mono hfree rfl | apply State.putTby_same

theorem State.hwSet_same (hfree : msk &&& 67108865 = 0) (s a f) (hs : was.Same msk s) : was.Same msk (s.hwSet a f) := by
  unfold State.hwSet
  conv => zeta
  with_reducible repeat' first
    | assumption | exact free_mono hfree rfl | apply State.wr_same | apply State.putCyc_same | split | dsimp only

theorem State.putEvt_same (hfree : msk &&& 1024 = 0) (s x) (hs : was.Same msk s) : was.Same msk (s.putEvt x) :=
  hs.but .evt hfree rfl (fun p hp h => by cases p <;> first | exact h | exact absurd rfl hp)

theorem State.raise_same (hfree : msk &&& 1024 = 0) (s code source pay) (hs : was.Same msk s) :
    was.Same msk (s.raise code source pay) := by
  unfold State.raise
  conv => zeta
  with_reducible repeat' first | assumption | exact free_mono hfree rfl | apply State.putEvt_same | split

theorem State.putSbd_same (hfree : msk &&& 16384 = 0) (s x) (hs : was.Same msk s) : was.Same msk (s.putSbd x) :=
  hs.but .sbd hfree rfl (fun p hp h => by cases p <;> first | exact h | exact absurd rfl hp)

theorem State.putSync_same (hfree : msk &&& 512 = 0) (s x) (hs : was.Same msk s) : was.Same msk (s.putSync x) :=
  hs.but .sync hfree rfl (fun p hp h => by cases p <;> first | exact h | exact absurd rfl hp)

theorem State.dropQueued_same (hfree : msk &&& 16 = 0) (s b c) (hs : was.Same msk s) : was.Same msk (s.dropQueued b c) := by
  unfold State.dropQueued
  with_reducible repeat' first
    | assumption | exact free_mono hfree rfl | apply State.modDesk_same | refine foldl_same _ _ _ (fun _ _ _ => ?_) ?_
    | refine foldlFst_same _ _ _ (fun _ _ _ => ?_) ?_ | refine foldlSnd_same _ _ _ (fun _ _ _ => ?_) ?_
    | refine fst_same ?_ (by assumption) | refine snd_same ?_ (by assumption) | split

theorem State.leaveLayer_same (hfree : msk &&& 9 = 0) (s b c arrived trap) (hs : was.Same msk s) :
    was.Same msk (s.leaveLayer b c arrived trap) := by
  unfold State.leaveLayer
  with_reducible repeat' first | assumption | exact free_mono hfree rfl | apply State.setFld_same | apply State.modCtx_same | split

theorem State.setJob_same (hfree : msk &&& 8193 = 0) (s j) (hs : was.Same msk s) : was.Same msk (s.setJob j) := by
  unfold State.setJob
  conv => zeta
  with_reducible repeat' first
    | assumption | exact free_mono hfree rfl | apply State.countAvail_same | apply State.setFld_same | apply State.putFlt_same | split

theorem State.jobCheck_same (hfree : msk &&& 8193 = 0) (s) (hs : was.Same msk s) : was.Same msk (s.jobCheck) := by
  unfold State.jobCheck
  with_reducible repeat' first | assumption | exact free_mono hfree rfl | apply State.setJob_same | split

theorem State.stopNow_same (hfree : msk &&& 67118105 = 0) (s b c cause faddr) (hs : was.Same msk s) :
    was.Same msk (s.stopNow b c cause faddr) := by
  unfold State.stopNow
  conv => zeta
  with_reducible repeat' first
    | assumption | exact free_mono hfree rfl | apply State.modCtx_same | apply State.dropQueued_same | apply State.setFld_same
    | apply State.hwDone_same | apply State.raise_same | apply State.leaveLayer_same | apply State.jobCheck_same
    | apply State.rest_same | split

theorem State.setPc_same (hfree : msk &&& 9 = 0) (s b c a) (hs : was.Same msk s) : was.Same msk (s.setPc b c a) := by
  unfold State.setPc
  with_reducible repeat' first | assumption | exact free_mono hfree rfl | apply State.modCtx_same | apply State.setFld_same | split

theorem State.hwOr_same (hfree : msk &&& 67108865 = 0) (s a f x) (hs : was.Same msk s) : was.Same msk (s.hwOr a f x) := by
  unfold State.hwOr
  conv => zeta
  with_reducible repeat' first
    | assumption | exact free_mono hfree rfl | apply State.wr_same | apply State.putCyc_same | split | dsimp only

theorem State.orFld_same (hfree : msk &&& 1 = 0) (s a f x) (hs : was.Same msk s) : was.Same msk (s.orFld a f x) := by
  unfold State.orFld
  with_reducible repeat' first | assumption | exact free_mono hfree rfl | apply State.setFld_same

theorem State.raiseFlags_same (hfree : msk &&& 67108865 = 0) (s b c unit fl lgen) (hs : was.Same msk s) :
    was.Same msk (s.raiseFlags b c unit fl lgen) := by
  unfold State.raiseFlags
  conv => zeta
  with_reducible repeat' first | assumption | exact free_mono hfree rfl | apply State.hwOr_same | apply State.orFld_same | split

theorem State.putTrs_same (hfree : msk &&& 32768 = 0) (s x) (hs : was.Same msk s) : was.Same msk (s.putTrs x) :=
  hs.but .trs hfree rfl (fun p hp h => by cases p <;> first | exact h | exact absurd rfl hp)

theorem State.putPcie_same (hfree : msk &&& 65536 = 0) (s x) (hs : was.Same msk s) : was.Same msk (s.putPcie x) :=
  hs.but .pcie hfree rfl (fun p hp h => by cases p <;> first | exact h | exact absurd rfl hp)

theorem State.putMgmt_same (hfree : msk &&& 8388608 = 0) (s x) (hs : was.Same msk s) : was.Same msk (s.putMgmt x) :=
  hs.but .mgmt hfree rfl (fun p hp h => by cases p <;> first | exact h | exact absurd rfl hp)

theorem State.block_same (hfree : msk &&& 9 = 0) (s b c k) (hs : was.Same msk s) : was.Same msk (s.block b c k) := by
  unfold State.block
  conv => zeta
  with_reducible repeat' first | assumption | exact free_mono hfree rfl | apply State.modCtx_same | apply State.setFld_same | split

theorem State.issued_same (hfree : msk &&& 9 = 0) (s b c) (hs : was.Same msk s) : was.Same msk (s.issued b c) := by
  unfold State.issued
  conv => zeta
  with_reducible repeat' first
    | assumption | exact free_mono hfree rfl | apply State.wake_same | apply State.modCtx_same | apply State.modBench_same | split

theorem State.done_same (hfree : msk &&& 9 = 0) (s b c) (hs : was.Same msk s) : was.Same msk (s.done b c) := by
  unfold State.done
  with_reducible repeat' first | assumption | exact free_mono hfree rfl | apply State.setPc_same | apply State.issued_same

theorem State.start_same (hfree : msk &&& 67108873 = 0) (s b c) (hs : was.Same msk s) : was.Same msk (s.start b c) := by
  unfold State.start
  conv => zeta
  with_reducible repeat' first
    | assumption | exact free_mono hfree rfl | apply State.setFld_same | apply State.modBench_same | apply State.modCtx_same
    | apply State.lendEnd_same | apply State.hwDone_same | split

theorem State.putGt_same (hfree : msk &&& 2048 = 0) (s x) (hs : was.Same msk s) : was.Same msk (s.putGt x) :=
  hs.but .gt hfree rfl (fun p hp h => by cases p <;> first | exact h | exact absurd rfl hp)

theorem State.putHut_same (hfree : msk &&& 262144 = 0) (s x) (hs : was.Same msk s) : was.Same msk (s.putHut x) :=
  hs.but .hut hfree rfl (fun p hp h => by cases p <;> first | exact h | exact absurd rfl hp)

theorem State.putFlash_same (hfree : msk &&& 524288 = 0) (s x) (hs : was.Same msk s) : was.Same msk (s.putFlash x) :=
  hs.but .flash hfree rfl (fun p hp h => by cases p <;> first | exact h | exact absurd rfl hp)

theorem State.putPwr_same (hfree : msk &&& 4194304 = 0) (s x) (hs : was.Same msk s) : was.Same msk (s.putPwr x) :=
  hs.but .pwr hfree rfl (fun p hp h => by cases p <;> first | exact h | exact absurd rfl hp)

theorem State.doneBlock_same (hfree : msk &&& 9 = 0) (s b c k) (hs : was.Same msk s) : was.Same msk (s.doneBlock b c k) := by
  unfold State.doneBlock
  with_reducible repeat' first
    | assumption | exact free_mono hfree rfl | apply State.rest_same | apply State.block_same | apply State.done_same

end Sys2Proof.Machine
end

section
/-!
SUPPORT. Registers, contexts and events under the shared operations, and what the stop of a context does (04 R105, R107, R108).
-/
namespace Sys2Proof.Machine

/-! ### Registers -/

theorem State.fld_of_rd {s t : State} {a : Nat} (h : t.rd a = s.rd a) (f : Fld) : t.fld a f = s.fld a f := by
  rw [State.fld, h, State.fld]

theorem State.rd_of_regs {s t : State} (h : t.regs = s.regs) (a : Nat) : t.rd a = s.rd a := by
  rw [State.rd, h, State.rd]

theorem State.rd_setBit_ne (s : State) {a b : Nat} (f : Fld) (i : Nat) (x : Bool) (h : b ≠ a) :
    (s.setBit a f i x).rd b = s.rd b := s.rd_setFld_ne _ _ h

theorem State.rd_orFld_ne (s : State) {a b : Nat} (f : Fld) (x : Nat) (h : b ≠ a) : (s.orFld a f x).rd b = s.rd b :=
  s.rd_setFld_ne _ _ h

theorem State.rd_incSat_ne (s : State) {a b : Nat} (f : Fld) (n : Nat) (h : b ≠ a) : (s.incSat a f n).rd b = s.rd b :=
  s.rd_setFld_ne _ _ h

theorem State.rd_incWrap_ne (s : State) {a b : Nat} (f : Fld) (n : Nat) (h : b ≠ a) : (s.incWrap a f n).rd b = s.rd b :=
  s.rd_setFld_ne _ _ h

theorem State.rd_hwSet_ne (s : State) {a b : Nat} (f : Fld) (h : b ≠ a) : (s.hwSet a f).rd b = s.rd b := s.rd_wr_ne _ h

theorem State.rd_hwOr_ne (s : State) {a b : Nat} (f : Fld) (x : Nat) (h : b ≠ a) : (s.hwOr a f x).rd b = s.rd b := s.rd_wr_ne _ h

theorem State.rd_hwDone_ne (s : State) {a b : Nat} (f : Fld) (h : b ≠ a) : (s.hwDone a f).rd b = s.rd b := by
  unfold State.hwDone
  split
  · exact s.rd_wr_ne _ h
  · exact s.rd_setFld_ne _ _ h

/-- The bits of a field's mask are those of the field. -/
theorem getLsbD_mask_iff {f : Fld} (hf : f.ok) {i : Nat} (hi : i < 64) : f.mask.getLsbD i = decide (f.lo ≤ i ∧ i ≤ f.hi) := by
  have hwidth : f.lo + f.width = f.hi + 1 := by
    have := hf.1
    unfold Fld.width
    omega
  rw [Fld.mask, BitVec.getLsbD_ofNat, decide_eq_true hi, Bool.true_and, Nat.testBit_shiftLeft, Nat.testBit_two_pow_sub_one,
    ← Bool.decide_and]
  exact decide_eq_decide.2 (by omega)

/-- Bits ORed into a field leave every field apart from it. -/
theorem getFld_or_mask (v : Word) {f g : Fld} (hf : f.ok) (hg : g.ok) (hd : g.hi < f.lo ∨ f.hi < g.lo) :
    getFld (v ||| f.mask) g = getFld v g := by
  refine getFld_congr fun i hi => ?_
  have hlast : g.lo + i ≤ g.hi := by
    have := hg.1
    unfold Fld.width at hi
    omega
  have hlt : g.lo + i < 64 := Nat.lt_of_le_of_lt hlast hg.2
  rw [BitVec.getLsbD_or, getLsbD_mask_iff hf hlt, decide_eq_false (by omega), Bool.or_false]

/-- A field of a register reads as it did where hardware has completed the action of another. -/
theorem State.fld_hwDone_field (s : State) (a : Nat) {f g : Fld} (hf : f.ok) (hg : g.ok) (hd : g.hi < f.lo ∨ f.hi < g.lo) :
    (s.hwDone a f).fld a g = s.fld a g := by
  unfold State.hwDone
  split
  · show getFld ((s.wr a (s.rd a ||| f.mask)).rd a) g = _
    rw [State.rd_wr_same, getFld_or_mask _ hf hg hd, State.fld]
  · exact s.fld_setFld_field a f g 0 hf hg hd

/-- The bit of an action that hardware completes reads zero where software has not set it in the same cycle (00 R7). -/
theorem State.fld_hwDone_same (s : State) (a : Nat) {f : Fld} (hf : f.ok) (h : FMap.getD s.cyc.wrote a 0 = 0) :
    (s.hwDone a f).fld a f = 0 := by
  unfold State.hwDone
  rw [h, if_neg (by simp)]
  exact (s.fld_setFld_same a f 0 hf).trans (Nat.zero_mod _)

/-! ### Contexts and their register files -/

theorem State.ctx_of_benches {s t : State} (h : t.benches = s.benches) (b : Nat) (c : Ctx) : t.ctx b c = s.ctx b c := by
  rw [State.ctx, State.bench, h, State.ctx, State.bench]

/-- The register files of a context's record. -/
def CtxSt.files (x : CtxSt) : FMap Word × FMap VWord × FMap TWord × FMap TWord := (x.s, x.v, x.t, x.p)

/-- The register files of a context are the same, its scalar registers among them. -/
def State.filesKept (s t : State) (b : Nat) (c : Ctx) : Prop := (t.ctx b c).files = (s.ctx b c).files

theorem State.filesKept.refl (s : State) (b : Nat) (c : Ctx) : s.filesKept s b c := rfl

theorem State.filesKept.scalars {s t : State} {b : Nat} {c : Ctx} (h : s.filesKept t b c) : s.scalarIs t b c 0 0 := by
  intro r
  have hs : (t.ctx b c).s = (s.ctx b c).s := congrArg (·.1) h
  rw [if_neg (by omega), State.s, hs, State.s]

theorem State.filesKept.files {s t : State} {b : Nat} {c : Ctx} (h : s.filesKept t b c) : s.sameFiles t b c := by
  have hv : (t.ctx b c).v = (s.ctx b c).v := congrArg (·.2.1) h
  have ht : (t.ctx b c).t = (s.ctx b c).t := congrArg (·.2.2.1) h
  have hp : (t.ctx b c).p = (s.ctx b c).p := congrArg (·.2.2.2) h
  exact ⟨fun r => by rw [State.v, hv, State.v], fun r => by rw [State.t, ht, State.t], fun r => by rw [State.p, hp, State.p]⟩

theorem State.filesKept.of_benches {s t u : State} {b : Nat} {c : Ctx} (h : s.filesKept t b c) (hu : u.benches = t.benches) :
    s.filesKept u b c := by
  rw [State.filesKept, State.ctx_of_benches hu]
  exact h

theorem State.filesKept.modCtx {s t : State} {b : Nat} {c : Ctx} (h : s.filesKept t b c) (f : CtxSt → CtxSt)
    (hf : ∀ x, (f x).files = x.files) : s.filesKept (t.modCtx b c f) b c := by
  rw [State.filesKept, State.ctx_modCtx_same, hf]
  exact h

theorem State.filesKept.modBench {s t : State} {b : Nat} {c : Ctx} (h : s.filesKept t b c) (b' : Nat) (f : Bench → Bench)
    (hf : ∀ x c, (f x).ctx c = x.ctx c) : s.filesKept (t.modBench b' f) b c := by
  rw [State.filesKept, State.ctx_modBench _ _ _ hf]
  exact h

/-- A context's PC depends on its register and its record's. -/
theorem State.pc_congr {s t : State} {b : Nat} {c : Ctx} (hreg : t.rd (A.benchPc b c.idx) = s.rd (A.benchPc b c.idx))
    (hctx : (t.ctx b c).pc = (s.ctx b c).pc) : t.pc b c = s.pc b c := by
  cases c with
  | F => exact congrArg (getFld · F.benchPc.PC * 8) hreg
  | B => exact congrArg (getFld · F.benchPc.PC * 8) hreg
  | D => exact hctx

/-! ### Events -/

/-- What is raised where events are accepted stands last (15 R438). -/
theorem State.raised_raise (s : State) (code source : Nat) (pay : List Byte) :
    (s.raise code source pay).evt.raised = if s.evt.accepting
      then s.evt.raised ++ [⟨code, source, (pay ++ leBytes 16 0).take 16⟩] else s.evt.raised := by
  unfold State.raise
  split <;> rfl

@[simp] theorem State.raise_regs (s : State) (code source : Nat) (pay : List Byte) : (s.raise code source pay).regs = s.regs := by
  unfold State.raise
  split <;> rfl

@[simp] theorem State.raise_mem (s : State) (code source : Nat) (pay : List Byte) : (s.raise code source pay).mem = s.mem := by
  unfold State.raise
  split <;> rfl

@[simp] theorem State.raise_benches (s : State) (code source : Nat) (pay : List Byte) :
    (s.raise code source pay).benches = s.benches := by
  unfold State.raise
  split <;> rfl

/-! ### Stops (04 R105) -/

/-- The registers that the count of availability and the job's state write (15 R434; 16 R461). -/
def jobRegs : List Nat := [A.mbxStat, A.evtAvailT, A.evtAvailU]

theorem State.rd_countAvail (s : State) {a : Nat} (ha : a ∉ jobRegs) : s.countAvail.rd a = s.rd a := by
  simp only [jobRegs, List.mem_cons, List.not_mem_nil, or_false, not_or] at ha
  obtain ⟨-, ht, hu⟩ := ha
  unfold State.countAvail
  dsimp only
  split
  · split
    · exact (State.rd_incWrap_ne _ _ _ hu).trans (State.rd_incWrap_ne _ _ _ ht)
    · exact State.rd_incWrap_ne _ _ _ ht
  · rfl

theorem State.rd_setJob (s : State) (j : Nat) {a : Nat} (ha : a ∉ jobRegs) : (s.setJob j).rd a = s.rd a := by
  have hstat : a ≠ A.mbxStat := fun e => ha (by simp [e, jobRegs])
  have hset : (s.countAvail.setFld A.mbxStat F.mbxStat.JOB j).rd a = s.rd a :=
    (State.rd_setFld_ne _ _ _ hstat).trans (s.rd_countAvail ha)
  unfold State.setJob
  dsimp only
  split
  · exact hset
  · split <;> exact hset

theorem State.rd_jobCheck (s : State) {a : Nat} (ha : a ∉ jobRegs) : s.jobCheck.rd a = s.rd a := by
  unfold State.jobCheck
  split
  · exact s.rd_setJob 3 ha
  · rfl

theorem State.rd_leaveLayer (s : State) (b : Nat) (c : Ctx) (arrived trap : Bool) {a : Nat} (ha : a ≠ A.numLayer b c.idx) :
    (s.leaveLayer b c arrived trap).rd a = s.rd a := by
  unfold State.leaveLayer
  split
  · rfl
  · split
    · exact State.rd_setFld_ne _ _ _ ha
    · rfl

/-- The part of a context's record that the leaving of its layer does not write. -/
theorem State.leaveLayer_apart {α : Type} (g : CtxSt → α) (hg : ∀ x d, g { x with abortDue := d } = g x) (s : State) (b : Nat)
    (c : Ctx) (arrived trap : Bool) : g ((s.leaveLayer b c arrived trap).ctx b c) = g (s.ctx b c) := by
  unfold State.leaveLayer
  split
  · rfl
  · split
    · rfl
    · rw [State.ctx_modCtx_same, hg]

theorem State.dropQueued_regs (s : State) (b : Nat) (c : Ctx) : (s.dropQueued b c).regs = s.regs :=
  (State.dropQueued_same (msk := 2 ^ Part.regs.idx) rfl s b c (.refl s)).same .regs rfl

theorem State.dropQueued_benches (s : State) (b : Nat) (c : Ctx) : (s.dropQueued b c).benches = s.benches :=
  (State.dropQueued_same (msk := 2 ^ Part.benches.idx) rfl s b c (.refl s)).same .benches rfl

theorem State.hwDone_benches (s : State) (a : Nat) (f : Fld) : (s.hwDone a f).benches = s.benches :=
  (State.hwDone_same (msk := 2 ^ Part.benches.idx) rfl s a f (.refl s)).same .benches rfl

theorem State.jobCheck_benches (s : State) : s.jobCheck.benches = s.benches :=
  (State.jobCheck_same (msk := 2 ^ Part.benches.idx) rfl s (.refl s)).same .benches rfl

/-- What a stop does first: the context waits for nothing, and its queued Desk instructions are gone (04 R105). -/
def State.stopCleared (s : State) (b : Nat) (c : Ctx) : State :=
  (s.modCtx b c (fun x => { x with blk := none, stopping := none, begun := none })).dropQueued b c

/-- The address of an illegal instruction is recorded (04 R108). -/
def State.stopAddressed (s : State) (b : Nat) (c : Ctx) (cause fa : Nat) : State :=
  if cause ≥ 0x10 then s.setFld (A.benchFaddr b c.idx) F.benchFaddr.ADDR fa else s

/-- The state and the cause of a stop are recorded (04 R105, R123). -/
def State.stopMarked (s : State) (b : Nat) (c : Ctx) (cause : Nat) : State :=
  match c with
  | .D => ((s.setFld (A.benchDwlStat b) F.benchDwlStat.CAUSE cause).setFld (A.benchDwlStat b) F.benchDwlStat.FAULTED 1).setFld
      (A.benchDwlStat b) F.benchDwlStat.RUNNING 0
  | _ => ((s.setFld (A.benchThr b c.idx) F.benchThr.STATE 0).setFld (A.benchThr b c.idx) F.benchThr.CAUSE cause).hwDone
      (A.benchThr b c.idx) F.benchThr.STOP

/-- The state in which a stop is recorded: what `State.stopNow` makes before it reports and leaves the layer. -/
def State.stopRecorded (s : State) (b : Nat) (c : Ctx) (cause : Nat) (faddr : Option Nat) : State :=
  ((s.stopCleared b c).stopAddressed b c cause (faddr.getD (s.pc b c))).stopMarked b c cause

/-- The state in which a recorded stop has been reported (04 R108). -/
def State.stopReported (u : State) (b : Nat) (c : Ctx) (cause fa : Nat) : State :=
  if cause ≥ 0x10 && cause != 0x30 then
    u.raise 0x80 (evSource 1 b) (leBytes 8 fa ++ leBytes 2 (whoBits b c) ++ [BitVec.ofNat 8 cause])
  else u

/-- The registers that the stop of a context writes. -/
def stopRegs (b : Nat) (c : Ctx) : List Nat :=
  [A.benchFaddr b c.idx, A.benchThr b c.idx, A.benchDwlStat b, A.numLayer b c.idx] ++ jobRegs

/-- A context `c` of Bench `b` has stopped with a cause: its state and cause say so, its record waits for nothing, and its
registers, its PC, memory and every register beside those of its stop are as they were. -/
structure State.Stopped (s t : State) (b : Nat) (c : Ctx) (cause : Nat) (faddr : Option Nat) : Prop where
  thread : c ≠ .D → t.fld (A.benchThr b c.idx) F.benchThr.STATE = 0 ∧ t.fld (A.benchThr b c.idx) F.benchThr.CAUSE = cause % 256 ∧
    (FMap.getD s.cyc.wrote (A.benchThr b c.idx) 0 = 0 → t.fld (A.benchThr b c.idx) F.benchThr.STOP = 0)
  dwl : c = .D → t.fld (A.benchDwlStat b) F.benchDwlStat.RUNNING = 0 ∧ t.fld (A.benchDwlStat b) F.benchDwlStat.FAULTED = 1 ∧
    t.fld (A.benchDwlStat b) F.benchDwlStat.CAUSE = cause % 256
  addr : 0x10 ≤ cause → t.fld (A.benchFaddr b c.idx) F.benchFaddr.ADDR = faddr.getD (s.pc b c) % 2 ^ F.benchFaddr.ADDR.width
  noAddr : cause < 0x10 → t.rd (A.benchFaddr b c.idx) = s.rd (A.benchFaddr b c.idx)
  regs : ∀ a, a ∉ stopRegs b c → t.rd a = s.rd a
  files : s.filesKept t b c
  pc : t.pc b c = s.pc b c
  mem : t.mem = s.mem
  blk : (t.ctx b c).blk = none
  stopping : (t.ctx b c).stopping = none
  raised : t.evt.raised = if s.evt.accepting && decide (0x10 ≤ cause) && cause != 0x30
    then s.evt.raised ++ [⟨0x80, evSource 1 b, leBytes 8 (faddr.getD (s.pc b c)) ++ leBytes 2 (whoBits b c) ++ [BitVec.ofNat 8 cause] ++
      leBytes 5 0⟩]
    else s.evt.raised

/-- A thread's, a Bench's and a module's registers of a stop are apart. -/
theorem stopRegs_apart {b : Nat} (hb : b < 800) (c : Ctx) :
    A.benchThr b c.idx ∉ A.numLayer b c.idx :: jobRegs ∧ A.benchDwlStat b ∉ A.numLayer b c.idx :: jobRegs ∧
    A.benchFaddr b c.idx ∉ A.numLayer b c.idx :: jobRegs ∧ A.benchPc b c.idx ∉ stopRegs b c ∧
    A.benchFaddr b c.idx ≠ A.benchThr b c.idx ∧ A.benchFaddr b c.idx ≠ A.benchDwlStat b := by
  have hidx : c.idx < 3 := by cases c <;> decide
  simp only [stopRegs, jobRegs, List.mem_cons, List.mem_append, List.not_mem_nil, or_false, A.benchThr, A.benchDwlStat, A.benchFaddr,
    A.benchPc, A.numLayer, benchBase, regBase, A.mbxStat, A.evtAvailT, A.evtAvailU]
  omega

theorem State.stopCleared_same {msk : Nat} (hfree : msk &&& 24 = 0) (s : State) (b : Nat) (c : Ctx) :
    s.Same msk (s.stopCleared b c) :=
  State.dropQueued_same (free_mono hfree rfl) _ _ _ (State.modCtx_same (free_mono hfree rfl) _ _ _ _ (.refl s))

theorem State.stopAddressed_same {msk : Nat} (hfree : msk &&& 1 = 0) (s : State) (b : Nat) (c : Ctx) (cause fa : Nat) :
    s.Same msk (s.stopAddressed b c cause fa) := by
  unfold State.stopAddressed
  split
  · exact State.setFld_same hfree _ _ _ _ (.refl s)
  · exact .refl s

theorem State.stopMarked_same {msk : Nat} (hfree : msk &&& 67108865 = 0) (s : State) (b : Nat) (c : Ctx) (cause : Nat) :
    s.Same msk (s.stopMarked b c cause) := by
  have hregs : msk &&& 1 = 0 := free_mono hfree rfl
  cases c with
  | D => exact State.setFld_same hregs _ _ _ _ (State.setFld_same hregs _ _ _ _ (State.setFld_same hregs _ _ _ _ (.refl s)))
  | _ => exact State.hwDone_same hfree _ _ _ (State.setFld_same hregs _ _ _ _ (State.setFld_same hregs _ _ _ _ (.refl s)))

theorem State.stopRecorded_same {msk : Nat} (hfree : msk &&& 67108889 = 0) (s : State) (b : Nat) (c : Ctx) (cause : Nat)
    (faddr : Option Nat) : s.Same msk (s.stopRecorded b c cause faddr) :=
  (State.stopCleared_same (free_mono hfree rfl) s b c).trans ((State.stopAddressed_same (free_mono hfree rfl) _ b c cause _).trans
    (State.stopMarked_same (free_mono hfree rfl) _ b c cause))

/-- A recorded stop leaves nothing in the context's record to wait for. -/
theorem State.stopRecorded_ctx (s : State) (b : Nat) (c : Ctx) (cause : Nat) (faddr : Option Nat) :
    (s.stopRecorded b c cause faddr).ctx b c = { s.ctx b c with blk := none, stopping := none, begun := none } := by
  have hmarked := (State.stopMarked_same (msk := 2 ^ Part.benches.idx) rfl
    ((s.stopCleared b c).stopAddressed b c cause (faddr.getD (s.pc b c))) b c cause).same .benches rfl
  have haddressed := (State.stopAddressed_same (msk := 2 ^ Part.benches.idx) rfl (s.stopCleared b c) b c cause
    (faddr.getD (s.pc b c))).same .benches rfl
  rw [State.stopRecorded, State.ctx_of_benches hmarked, State.ctx_of_benches haddressed, State.stopCleared,
    State.ctx_of_benches (State.dropQueued_benches ..), State.ctx_modCtx_same]

theorem State.stopCleared_rd (s : State) (b : Nat) (c : Ctx) (a : Nat) : (s.stopCleared b c).rd a = s.rd a :=
  State.rd_of_regs (State.dropQueued_regs ..) a

theorem State.stopAddressed_rd_ne (s : State) (b : Nat) (c : Ctx) (cause fa : Nat) {a : Nat} (ha : a ≠ A.benchFaddr b c.idx) :
    (s.stopAddressed b c cause fa).rd a = s.rd a := by
  unfold State.stopAddressed
  split
  · exact State.rd_setFld_ne _ _ _ ha
  · rfl

theorem State.stopMarked_rd_ne (s : State) (b : Nat) (c : Ctx) (cause : Nat) {a : Nat} (hthr : a ≠ A.benchThr b c.idx)
    (hdwl : a ≠ A.benchDwlStat b) : (s.stopMarked b c cause).rd a = s.rd a := by
  cases c with
  | D => exact (State.rd_setFld_ne _ _ _ hdwl).trans ((State.rd_setFld_ne _ _ _ hdwl).trans (State.rd_setFld_ne _ _ _ hdwl))
  | _ => exact (State.rd_hwDone_ne _ _ hthr).trans ((State.rd_setFld_ne _ _ _ hthr).trans (State.rd_setFld_ne _ _ _ hthr))

theorem State.stopRecorded_rd_ne (s : State) (b : Nat) (c : Ctx) (cause : Nat) (faddr : Option Nat) {a : Nat}
    (hfaddr : a ≠ A.benchFaddr b c.idx) (hthr : a ≠ A.benchThr b c.idx) (hdwl : a ≠ A.benchDwlStat b) :
    (s.stopRecorded b c cause faddr).rd a = s.rd a :=
  (State.stopMarked_rd_ne _ b c cause hthr hdwl).trans ((State.stopAddressed_rd_ne _ b c cause _ hfaddr).trans
    (s.stopCleared_rd b c a))

/-- The address of an illegal instruction is recorded. -/
theorem State.stopRecorded_faddr (s : State) {b : Nat} (hb : b < 800) (c : Ctx) {cause : Nat} (faddr : Option Nat)
    (hcause : 0x10 ≤ cause) : (s.stopRecorded b c cause faddr).fld (A.benchFaddr b c.idx) F.benchFaddr.ADDR =
      faddr.getD (s.pc b c) % 2 ^ F.benchFaddr.ADDR.width := by
  obtain ⟨-, -, -, -, hthr, hdwl⟩ := stopRegs_apart hb c
  rw [State.stopRecorded, State.fld_of_rd (State.stopMarked_rd_ne _ b c cause hthr hdwl), State.stopAddressed, if_pos hcause,
    State.fld_setFld_same _ _ _ _ (by decide)]

/-- A stop of another cause leaves the register of the address. -/
theorem State.stopRecorded_noAddr (s : State) {b : Nat} (hb : b < 800) (c : Ctx) {cause : Nat} (faddr : Option Nat)
    (hcause : cause < 0x10) : (s.stopRecorded b c cause faddr).rd (A.benchFaddr b c.idx) = s.rd (A.benchFaddr b c.idx) := by
  obtain ⟨-, -, -, -, hthr, hdwl⟩ := stopRegs_apart hb c
  rw [State.stopRecorded, State.stopMarked_rd_ne _ b c cause hthr hdwl, State.stopAddressed, if_neg (by omega), State.stopCleared_rd]

/-- The register of a thread that is marked as stopped. -/
theorem State.stopMarked_thread (s : State) (b : Nat) {c : Ctx} (cause : Nat) (hc : c ≠ .D) :
    (s.stopMarked b c cause).fld (A.benchThr b c.idx) F.benchThr.STATE = 0 ∧
    (s.stopMarked b c cause).fld (A.benchThr b c.idx) F.benchThr.CAUSE = cause % 256 ∧
    (FMap.getD s.cyc.wrote (A.benchThr b c.idx) 0 = 0 → (s.stopMarked b c cause).fld (A.benchThr b c.idx) F.benchThr.STOP = 0) := by
  have hmarked : s.stopMarked b c cause =
      ((s.setFld (A.benchThr b c.idx) F.benchThr.STATE 0).setFld (A.benchThr b c.idx) F.benchThr.CAUSE cause).hwDone
        (A.benchThr b c.idx) F.benchThr.STOP := by
    cases c with
    | D => exact absurd rfl hc
    | _ => rfl
  rw [hmarked]
  refine ⟨?_, ?_, fun hw => State.fld_hwDone_same _ _ (by decide) hw⟩
  · rw [State.fld_hwDone_field _ _ (by decide) (by decide) (by decide), State.fld_setFld_field _ _ _ _ _ (by decide) (by decide) (by decide),
      State.fld_setFld_same _ _ _ _ (by decide), Nat.zero_mod]
  · rw [State.fld_hwDone_field _ _ (by decide) (by decide) (by decide), State.fld_setFld_same _ _ _ _ (by decide)]
    rfl

/-- The register of a DWL context that is marked as stopped. -/
theorem State.stopMarked_dwl (s : State) (b cause : Nat) :
    (s.stopMarked b .D cause).fld (A.benchDwlStat b) F.benchDwlStat.RUNNING = 0 ∧
    (s.stopMarked b .D cause).fld (A.benchDwlStat b) F.benchDwlStat.FAULTED = 1 ∧
    (s.stopMarked b .D cause).fld (A.benchDwlStat b) F.benchDwlStat.CAUSE = cause % 256 := by
  unfold State.stopMarked
  refine ⟨?_, ?_, ?_⟩
  · rw [State.fld_setFld_same _ _ _ _ (by decide), Nat.zero_mod]
  · rw [State.fld_setFld_field _ _ _ _ _ (by decide) (by decide) (by decide), State.fld_setFld_same _ _ _ _ (by decide)]
    rfl
  · rw [State.fld_setFld_field _ _ _ _ _ (by decide) (by decide) (by decide),
      State.fld_setFld_field _ _ _ _ _ (by decide) (by decide) (by decide), State.fld_setFld_same _ _ _ _ (by decide)]
    rfl

theorem State.stopReported_same {msk : Nat} (hfree : msk &&& 1024 = 0) (u : State) (b : Nat) (c : Ctx) (cause fa : Nat) :
    u.Same msk (u.stopReported b c cause fa) := by
  unfold State.stopReported
  split
  · exact State.raise_same hfree _ _ _ _ (.refl u)
  · exact .refl u

/-- The payload of a Bench error event is filled to 16 B (04 R108). -/
theorem stopPayload_filled (fa who : Nat) (cause : Byte) :
    (leBytes 8 fa ++ leBytes 2 who ++ [cause] ++ leBytes 16 0).take 16 = leBytes 8 fa ++ leBytes 2 who ++ [cause] ++ leBytes 5 0 := by
  rw [List.take_append, List.take_of_length_le (by simp [leBytes_length])]
  simp [leBytes]

theorem State.stopReported_raised (u : State) (b : Nat) (c : Ctx) (cause fa : Nat) :
    (u.stopReported b c cause fa).evt.raised = if u.evt.accepting && decide (0x10 ≤ cause) && cause != 0x30
      then u.evt.raised ++ [⟨0x80, evSource 1 b, leBytes 8 fa ++ leBytes 2 (whoBits b c) ++ [BitVec.ofNat 8 cause] ++ leBytes 5 0⟩]
      else u.evt.raised := by
  unfold State.stopReported
  rw [Bool.and_assoc]
  by_cases h : (decide (0x10 ≤ cause) && cause != 0x30) = true
  · rw [if_pos h, State.raised_raise, stopPayload_filled, h, Bool.and_true]
  · rw [if_neg h, Bool.eq_false_of_not_eq_true h, Bool.and_false, if_neg (by decide)]

/-- What follows a recorded stop: the layer, the lending and the job (06 R191; 11 R338; 15 R434). -/
def State.stopFollowed (u : State) (b : Nat) (c : Ctx) (arrived trap rested : Bool) : State :=
  (if rested then u.leaveLayer b c arrived trap else (u.leaveLayer b c arrived trap).rest b).jobCheck

theorem State.stopFollowed_same {msk : Nat} (hfree : msk &&& 8201 = 0) (u : State) (b : Nat) (c : Ctx) (arrived trap rested : Bool) :
    u.Same msk (u.stopFollowed b c arrived trap rested) := by
  have hlayer : u.Same msk (u.leaveLayer b c arrived trap) := State.leaveLayer_same (free_mono hfree rfl) _ _ _ _ _ (.refl u)
  cases rested with
  | true => exact State.jobCheck_same (free_mono hfree rfl) _ hlayer
  | false => exact State.jobCheck_same (free_mono hfree rfl) _ (State.rest_same (free_mono hfree rfl) _ _ hlayer)

theorem State.stopFollowed_rd (u : State) (b : Nat) (c : Ctx) (arrived trap rested : Bool) {a : Nat}
    (ha : a ∉ A.numLayer b c.idx :: jobRegs) : (u.stopFollowed b c arrived trap rested).rd a = u.rd a := by
  obtain ⟨hlayer, hjob⟩ : a ≠ A.numLayer b c.idx ∧ a ∉ jobRegs := by simpa using ha
  refine (State.rd_jobCheck _ hjob).trans ?_
  cases rested with
  | true => exact State.rd_leaveLayer _ _ _ _ _ hlayer
  | false => exact State.rd_leaveLayer _ _ _ _ _ hlayer

theorem State.stopFollowed_ctx {α : Type} (g : CtxSt → α) (hg : ∀ x d, g { x with abortDue := d } = g x) (u : State) (b : Nat)
    (c : Ctx) (arrived trap rested : Bool) : g ((u.stopFollowed b c arrived trap rested).ctx b c) = g (u.ctx b c) := by
  rw [State.stopFollowed, State.ctx_of_benches (State.jobCheck_benches _)]
  cases rested with
  | true => exact State.leaveLayer_apart g hg u b c arrived trap
  | false =>
    show g (((u.leaveLayer b c arrived trap).rest b).ctx b c) = _
    rw [State.rest, State.ctx_modBench _ _ _ (fun x d => by cases d <;> rfl)]
    exact State.leaveLayer_apart g hg u b c arrived trap

/-- A context whose stop takes effect has stopped, whatever follows its record. -/
theorem State.stopped_of_recorded (s : State) {b : Nat} (hb : b < 800) (c : Ctx) (cause : Nat) (faddr : Option Nat)
    (arrived trap rested : Bool) :
    s.Stopped (((s.stopRecorded b c cause faddr).stopReported b c cause (faddr.getD (s.pc b c))).stopFollowed b c arrived trap rested)
      b c cause faddr := by
  obtain ⟨hthr, hdwl, hfa, hpc, -, -⟩ := stopRegs_apart hb c
  have hrecorded := State.stopRecorded_same (msk := 2 ^ Part.mem.idx + 2 ^ Part.evt.idx) rfl s b c cause faddr
  have hreported := State.stopReported_same (msk := maskBut [.evt]) (by decide) (s.stopRecorded b c cause faddr) b c cause
    (faddr.getD (s.pc b c))
  have hraised := State.stopReported_raised (s.stopRecorded b c cause faddr) b c cause (faddr.getD (s.pc b c))
  have hctx := s.stopRecorded_ctx b c cause faddr
  have hmarked := fun hc => State.stopMarked_thread ((s.stopCleared b c).stopAddressed b c cause (faddr.getD (s.pc b c))) b cause
    (c := c) hc
  have hcyc := ((State.stopCleared_same (msk := 2 ^ Part.cyc.idx) rfl s b c).trans
    (State.stopAddressed_same rfl (s.stopCleared b c) b c cause (faddr.getD (s.pc b c)))).same .cyc rfl
  generalize hu : (s.stopRecorded b c cause faddr).stopReported b c cause (faddr.getD (s.pc b c)) = u at *
  have hreg : u.regs = (s.stopRecorded b c cause faddr).regs := hreported.same .regs (by decide)
  have hben : u.benches = (s.stopRecorded b c cause faddr).benches := hreported.same .benches (by decide)
  have hrd : ∀ a, a ∉ A.numLayer b c.idx :: jobRegs →
      (u.stopFollowed b c arrived trap rested).rd a = (s.stopRecorded b c cause faddr).rd a := fun a ha =>
    (State.stopFollowed_rd u b c arrived trap rested ha).trans (State.rd_of_regs hreg a)
  have hpart : ∀ {α : Type} (g : CtxSt → α), (∀ x d, g { x with abortDue := d } = g x) →
      g ((u.stopFollowed b c arrived trap rested).ctx b c) = g { s.ctx b c with blk := none, stopping := none, begun := none } :=
    fun g hg => by rw [State.stopFollowed_ctx g hg, State.ctx_of_benches hben, hctx]
  have hrdKept : ∀ a, a ∉ stopRegs b c → (u.stopFollowed b c arrived trap rested).rd a = s.rd a := by
    intro a ha
    simp only [stopRegs, List.mem_append, List.mem_cons, List.not_mem_nil, or_false, not_or] at ha
    obtain ⟨⟨haddr, hthread, hdwlStat, hlayer⟩, hjob⟩ := ha
    rw [hrd a (by simp [hlayer, hjob]), State.stopRecorded_rd_ne _ _ _ _ _ haddr hthread hdwlStat]
  have hevt : (u.stopFollowed b c arrived trap rested).evt = u.evt :=
    (State.stopFollowed_same (msk := 2 ^ Part.evt.idx) rfl u b c arrived trap rested).same .evt rfl
  refine ⟨fun hc => ?_, fun hc => ?_, fun hcause => ?_, fun hcause => ?_, hrdKept, hpart CtxSt.files fun _ _ => rfl, ?_, ?_,
    hpart CtxSt.blk fun _ _ => rfl, hpart CtxSt.stopping fun _ _ => rfl, ?_⟩
  · rw [State.fld_of_rd (hrd _ hthr), State.fld_of_rd (hrd _ hthr), State.fld_of_rd (hrd _ hthr)]
    rw [hcyc] at hmarked
    exact hmarked hc
  · subst hc
    rw [State.fld_of_rd (hrd _ hdwl), State.fld_of_rd (hrd _ hdwl), State.fld_of_rd (hrd _ hdwl)]
    exact State.stopMarked_dwl ..
  · rw [State.fld_of_rd (hrd _ hfa), s.stopRecorded_faddr hb c faddr hcause]
  · rw [hrd _ hfa, s.stopRecorded_noAddr hb c faddr hcause]
  · exact State.pc_congr (hrdKept _ hpc) (hpart CtxSt.pc fun _ _ => rfl)
  · rw [(State.stopFollowed_same (msk := 2 ^ Part.mem.idx) rfl u b c arrived trap rested).same .mem rfl]
    exact (hreported.same .mem (by decide)).trans (hrecorded.same .mem rfl)
  · rw [hevt, hraised, hrecorded.same .evt rfl]

theorem State.stopNow_eq (s : State) (b : Nat) (c : Ctx) (cause : Nat) (faddr : Option Nat) : ∃ arrived rested : Bool,
    s.stopNow b c cause faddr = ((s.stopRecorded b c cause faddr).stopReported b c cause (faddr.getD (s.pc b c))).stopFollowed b c
      arrived (cause == 0x30) rested := by
  cases c <;> exact ⟨_, _, rfl⟩

theorem State.stopNow_stopped (s : State) {b : Nat} (hb : b < 800) (c : Ctx) (cause : Nat) (faddr : Option Nat) :
    s.Stopped (s.stopNow b c cause faddr) b c cause faddr := by
  obtain ⟨arrived, rested, heq⟩ := s.stopNow_eq b c cause faddr
  rw [heq]
  exact s.stopped_of_recorded hb c cause faddr arrived _ rested

end Sys2Proof.Machine
end

section
/-!
PROOF. An illegal instruction stops its context (04 R107, R108, R123).
-/
namespace Sys2Proof.Machine

/-- The stop of a context that can issue takes effect at once (04 R105). -/
theorem State.stop_of_canIssue {s : State} {b : Nat} {c : Ctx} (h : s.canIssue b c = true) (cause : Nat) (faddr : Option Nat) :
    s.stop b c cause faddr = s.stopNow b c cause faddr := by
  simp only [State.canIssue, Bool.and_eq_true, Option.isNone_iff_eq_none] at h
  obtain ⟨⟨⟨hlive, hstopping⟩, -⟩, hblk⟩ := h
  have hrun : (!s.live b c || (s.ctx b c).stopping.isSome) = false := by rw [hlive, hstopping]; rfl
  rcases hwait : (s.ctx b c).blk with _ | k
  · simp only [State.stop, hrun, hwait]
    rfl
  · rw [hwait] at hblk
    cases k with
    | issue =>
      simp only [State.stop, hrun, hwait]
      rfl
    | _ => cases hblk

theorem State.canIssue_of_atIssue {s : State} {b : Nat} {c : Ctx} (h : s.atIssue b c = true) : s.canIssue b c = true := by
  simp only [State.atIssue, Bool.and_eq_true] at h
  exact h.1.1

/-- An instruction that comes to its checks goes through them. -/
theorem State.issue_of_atIssue {s : State} {b : Nat} {c : Ctx} {f : Form} (h : s.atIssue b c = true)
    (hload : f.sregs.any (s.loading b c) = false) (k : State → State) :
    s.issue b c f k = (formCause c f).elim (k s) (s.illegal b c) := by
  simp only [State.atIssue, Bool.and_eq_true, Bool.not_eq_true'] at h
  obtain ⟨⟨hcan, hfail⟩, hline⟩ := h
  simp only [State.issue, hcan, hfail, hline, hload]
  cases formCause c f <;> rfl

/-- A context stopped with the address of its instruction is stopped on an illegal instruction. -/
theorem State.illegal_stoppedAt {s : State} {b : Nat} (hb : b < 800) {c : Ctx} (h : s.atIssue b c = true) {cause : Nat}
    (hlow : 0x10 ≤ cause) (hhigh : cause < 0x30) : s.stoppedAt (s.illegal b c cause) b c cause := by
  rw [State.illegal, State.stop_of_canIssue (State.canIssue_of_atIssue h)]
  have hstop := s.stopNow_stopped hb c cause (some (s.pc b c))
  have hmod : cause % 256 = cause := Nat.mod_eq_of_lt (by omega)
  refine ⟨?_, hstop.addr hlow, hstop.pc, hstop.files.scalars, hstop.files.files, hstop.mem, ?_⟩
  · cases c with
    | D =>
      obtain ⟨hrun, hfault, hcause⟩ := hstop.dwl rfl
      exact ⟨hrun, hfault, hcause.trans hmod⟩
    | _ =>
      obtain ⟨hstate, hcause, -⟩ := hstop.thread (by decide)
      exact ⟨hstate, hcause.trans hmod⟩
  · rw [hstop.raised, decide_eq_true hlow, (bne_iff_ne (b := 0x30)).2 (by omega), Bool.and_true, Bool.and_true]
    rfl

/-- An instruction whose form is illegal in its context stops it. -/
theorem State.issue_stoppedAt {s : State} {b : Nat} (hb : b < 800) {c : Ctx} {f : Form} {cause : Nat} (h : s.atIssue b c = true)
    (hload : f.sregs.any (s.loading b c) = false) (hcause : formCause c f = some cause) (hlow : 0x10 ≤ cause) (hhigh : cause < 0x30)
    (k : State → State) : s.stoppedAt (s.issue b c f k) b c cause := by
  rw [State.issue_of_atIssue h hload, hcause]
  exact State.illegal_stoppedAt hb h hlow hhigh

/-- An instruction that finds its operands illegal stops its context. -/
theorem State.issue_stoppedAt_of_effect {s : State} {b : Nat} (hb : b < 800) {c : Ctx} {f : Form} {cause : Nat}
    (h : s.atIssue b c = true) (hload : f.sregs.any (s.loading b c) = false) (hcause : formCause c f = none) (hlow : 0x10 ≤ cause)
    (hhigh : cause < 0x30) {k : State → State} (hk : k s = s.illegal b c cause) : s.stoppedAt (s.issue b c f k) b c cause := by
  rw [State.issue_of_atIssue h hload, hcause]
  show s.stoppedAt (k s) b c cause
  rw [hk]
  exact State.illegal_stoppedAt hb h hlow hhigh

/-- A reserved bit is illegal in a thread (04 R107). -/
theorem formCause_reserved {c : Ctx} {f : Form} (hc : c ≠ .D) (hthread : f.thread = true) (hrsv : f.rsv ≠ 0) :
    formCause c f = some 0x12 := by
  cases c <;> simp_all [formCause]

/-- A scalar register above `s7` is illegal in the DWL context (04 R109). -/
theorem formCause_highRegister {f : Form} (hdwl : f.dwl = true) (h : f.sregs.any (· ≥ 8) = true) : formCause .D f = some 0x12 := by
  simp [formCause, hdwl, h]

/-- A form with no reserved bit is legal in a thread that may issue it. -/
theorem formCause_thread {c : Ctx} {f : Form} (hc : c ≠ .D) (hthread : f.thread = true) (hrsv : f.rsv = 0) : formCause c f = none := by
  cases c <;> simp_all [formCause]

/-- A form with no register and no reserved bit is legal everywhere. -/
theorem formCause_empty (c : Ctx) : formCause c {} = none := by cases c <;> rfl

/-- The scalar registers of an ALU instruction are those that it names. -/
theorem aluForm_loading {s : State} {b : Nat} {c : Ctx} {rd rs1 rs2 : Nat} (h : [rd, rs1, rs2].any (s.loading b c) = false)
    (dwl iv : Bool) (rsv : BitVec 8) : (aluForm dwl rd rs1 rs2 iv rsv).sregs.any (s.loading b c) = false := by
  cases iv <;> simp_all [aluForm]

end Sys2Proof.Machine

open Sys2Proof Sys2Proof.Machine

/-- Settles O13: each form fails its own check, and the stop takes effect at once. -/
theorem illegalStops : Obligations.IllegalStops := by
  unfold Obligations.IllegalStops
  intro b c rd rs1 rs2 td iv imm rsv opc s h hload
  have hb : b.val < 800 := b.isLt
  have halu := aluForm_loading hload
  have hregs : s.loading b c rd = false ∧ s.loading b c rs1 = false ∧ s.loading b c rs2 = false := by simpa using hload
  obtain ⟨hrd, hrs1, hrs2⟩ := hregs
  have hone : ∀ r : Nat, s.loading b c r = false → [r].any (s.loading b c) = false := fun r hr => by simp [hr]
  have htwo : ∀ r q : Nat, s.loading b c r = false → s.loading b c q = false → [r, q].any (s.loading b c) = false :=
    fun r q hr hq => by simp [hr, hq]
  refine ⟨fun hopc => ⟨_, rfl, ?opcode⟩, fun hc hrsv i hi => ?reserved, fun hc hhigh i hi => ?register, fun hc i hi => ?dwl,
    fun hc hmis => ⟨_, rfl, ?load⟩, fun hc hmis => ⟨_, rfl, ?store⟩, fun hc hmis i hi => ?descriptor⟩
  case opcode =>
    rw [if_neg hopc]
    exact State.issue_stoppedAt_of_effect hb h rfl (formCause_empty c) (by decide) (by decide) rfl
  case reserved =>
    have hrsv' : rsv.toNat ≠ 0 := fun e => hrsv (BitVec.eq_of_toNat_eq e)
    have hstop : ∀ (f : Form) (k : State → State), f.thread = true → f.rsv = rsv.toNat → f.sregs.any (s.loading b c) = false →
        s.stoppedAt (s.issue b c f k) b c 0x12 := fun f k hthread hf hl =>
      State.issue_stoppedAt hb h hl (formCause_reserved hc hthread (hf ▸ hrsv')) (by decide) (by decide) k
    simp only [List.mem_cons, List.not_mem_nil, or_false] at hi
    obtain rfl | rfl | rfl | rfl | rfl | rfl | rfl := hi
    · exact ⟨_, rfl, hstop _ _ rfl rfl (halu _ _ _)⟩
    · exact ⟨_, rfl, hstop _ _ rfl rfl (hone rd hrd)⟩
    · exact ⟨_, rfl, hstop _ _ rfl rfl (htwo rs1 rs2 hrs1 hrs2)⟩
    · exact ⟨_, rfl, hstop _ _ rfl rfl (hone rd hrd)⟩
    · exact ⟨_, rfl, hstop _ _ rfl rfl (htwo rd rs1 hrd hrs1)⟩
    · exact ⟨_, rfl, hstop _ _ rfl rfl (htwo rd rs1 hrd hrs1)⟩
    · exact ⟨_, rfl, hstop _ _ rfl rfl (hone rs1 hrs1)⟩
  case register =>
    subst hc
    have hstop : ∀ (f : Form) (k : State → State), f.dwl = true → f.sregs.any (· ≥ 8) = true →
        f.sregs.any (s.loading b .D) = false → s.stoppedAt (s.issue b .D f k) b .D 0x12 := fun f k hdwl hf hl =>
      State.issue_stoppedAt hb h hl (formCause_highRegister hdwl hf) (by decide) (by decide) k
    simp only [List.mem_cons, List.not_mem_nil, or_false] at hi
    obtain rfl | rfl | rfl := hi
    · exact ⟨_, rfl, hstop _ _ rfl (by simp [aluForm, hhigh]) (halu _ _ _)⟩
    · exact ⟨_, rfl, hstop _ _ rfl (by simp [hhigh]) (hone rd hrd)⟩
    · exact ⟨_, rfl, hstop _ _ rfl (by simp [hhigh]) (htwo rd rs1 hrd hrs1)⟩
  case dwl =>
    subst hc
    simp only [List.mem_cons, List.not_mem_nil, or_false] at hi
    obtain rfl | rfl := hi <;>
      exact ⟨_, rfl, State.issue_stoppedAt hb h (halu _ _ _) rfl (by decide) (by decide) _⟩
  case load =>
    refine State.issue_stoppedAt_of_effect hb h (htwo rd rs1 hrd hrs1) (formCause_thread hc rfl rfl) (by decide) (by decide) ?_
    exact if_pos ((bne_iff_ne).2 hmis)
  case store =>
    refine State.issue_stoppedAt_of_effect hb h (htwo rd rs1 hrd hrs1) (formCause_thread hc rfl rfl) (by decide) (by decide) ?_
    exact if_pos ((bne_iff_ne).2 hmis)
  case descriptor =>
    have hbad : ∀ x : Bool, (((s.s b c rs1).toNat % 32 != 0) || x) = true := fun x => by simp [hmis]
    have hstop : ∀ (f : Form) (k : State → State), f.thread = true → f.rsv = 0 → f.sregs = [rs1.val] →
        k s = s.illegal b c 0x13 → s.stoppedAt (s.issue b c f k) b c 0x13 := fun f k hthread hf hregs hk =>
      State.issue_stoppedAt_of_effect hb h (hregs ▸ hone rs1 hrs1) (formCause_thread hc hthread hf) (by decide) (by decide) hk
    simp only [List.mem_cons, List.not_mem_nil, or_false] at hi
    obtain rfl | rfl := hi <;> exact ⟨_, rfl, hstop _ _ rfl rfl rfl (if_pos (hbad _))⟩
end

section
/-!
SUPPORT. Sound reads of the Tallboy (09 R269), what an instruction that issued leaves, and the 2-bit codes of the Desks.
-/
namespace Sys2Proof.Machine

/-! ### Sound reads -/

/-- A codeword without an error, of a stack without an injection, reads good and changes nothing (09 R269). -/
theorem State.cwRead_sound {s : State} {cw : Nat} (hups : s.upsets cw = []) (hue : (s.stack (stackOf cw)).ue.contains cw = false)
    (hinjUe : (s.stack (stackOf cw)).injUe = false) (hinjCe : (s.stack (stackOf cw)).injCe = false) (cls : Nat) :
    s.cwRead cw cls = (s, true) := by
  have hgood : rsDecode [] = .good := by decide
  have hclean : cw ∉ (s.stack (stackOf cw)).ue := by simpa using hue
  simp [State.cwRead, hups, hclean, hinjUe, hinjCe, hgood]

/-- Codewords that are sound read good one after another. -/
theorem State.cwRead_foldl_sound {s : State} (cls : Nat) (bad : List Nat) (l : List Nat)
    (h : ∀ cw ∈ l, s.upsets cw = [] ∧ (s.stack (stackOf cw)).ue.contains cw = false ∧ (s.stack (stackOf cw)).injUe = false ∧
      (s.stack (stackOf cw)).injCe = false) :
    l.foldl (fun (p : State × List Nat) cw => ((p.1.cwRead cw cls).1, if (p.1.cwRead cw cls).2 then p.2 else cw :: p.2)) (s, bad) =
      (s, bad) := by
  induction l with
  | nil => rfl
  | cons cw l ih =>
    obtain ⟨hups, hue, hinjUe, hinjCe⟩ := h cw (List.mem_cons_self ..)
    rw [List.foldl_cons, State.cwRead_sound hups hue hinjUe hinjCe]
    exact ih fun x hx => h x (List.mem_cons_of_mem _ hx)

/-- Sound bytes of the Tallboy read as they are stored and change nothing. -/
theorem State.tbyRead_sound {s : State} {ia n : Nat} (h : s.soundAt ia n) (cls : Nat) :
    s.tbyRead cls ia n = (s, s.mem.read ia n, true) := by
  have hfold := State.cwRead_foldl_sound cls [] (cwsOf ia n) h
  unfold State.tbyRead
  rw [hfold]
  rfl

/-- An access within one 256 B block is one piece (10 R296). -/
theorem pieces_one {a n : Nat} (hn : n ≠ 0) (h : a % 256 + n ≤ 256) : pieces a n = [(a, n)] := by
  have hmin : min n (256 - a % 256) = n := by omega
  simp only [pieces, pieces256, if_neg hn, hmin, Nat.sub_self, if_true]

/-- A read of sound memory within one 256 B block that no crossing has lost changes nothing and is good. -/
theorem State.memRead_sound {s : State} {cls a n : Nat} (hn : n ≠ 0) (h : a % 256 + n ≤ 256) (hlost : s.lost.contains (cls, a) = false)
    (hsound : ∀ k, locOf a = .tby k → s.soundAt k n) : (s.memRead cls a n).1 = s ∧ (s.memRead cls a n).2.2.1 = true := by
  have hkept : s.takeLost cls a = (s, false) := by rw [State.takeLost, hlost]; rfl
  unfold State.memRead
  rw [pieces_one hn h]
  simp only [List.foldl_cons, List.foldl_nil, hkept]
  rcases hloc : locOf a with ia | _ | _ | _
  · simp only [State.tbyRead_sound (hsound ia hloc)]
    exact ⟨rfl, rfl⟩
  all_goals exact ⟨rfl, rfl⟩

/-! ### What an instruction that issued leaves -/

@[simp] theorem State.done_mem (s : State) (b : Nat) (c : Ctx) : (s.done b c).mem = s.mem :=
  (State.done_same (msk := 2 ^ Part.mem.idx) rfl s b c (.refl s)).same .mem rfl

/-- The registers that an instruction which goes on may write: its PC, and the lending of its Bench, which ends (04 R143; 11 R339). -/
theorem State.rd_lendEnd_ne (s : State) {b a : Nat} (h : a ≠ A.syncLent (b / 64)) : (s.lendEnd b).rd a = s.rd a := by
  unfold State.lendEnd
  split
  · exact State.rd_setBit_ne _ _ _ _ h
  · rfl

theorem State.rd_setPc_ne (s : State) {b : Nat} {c : Ctx} (x : Nat) {a : Nat} (h : a ≠ A.benchPc b c.idx) :
    (s.setPc b c x).rd a = s.rd a := by
  cases c with
  | D => rfl
  | _ => exact State.rd_setFld_ne _ _ _ h

theorem State.rd_wake_ne (s : State) {b : Nat} {c : Ctx} {a : Nat} (hthr : a ≠ A.benchThr b c.idx) (hlent : a ≠ A.syncLent (b / 64)) :
    (s.wake b c).rd a = s.rd a := by
  have hstate : (s.unblock b c).rd a = s.rd a := by
    cases c with
    | D => rfl
    | _ => exact State.rd_setFld_ne _ _ _ hthr
  exact ((s.unblock b c).rd_lendEnd_ne hlent).trans hstate

theorem State.rd_issued_ne (s : State) {b : Nat} {c : Ctx} {a : Nat} (hthr : a ≠ A.benchThr b c.idx)
    (hlent : a ≠ A.syncLent (b / 64)) : (s.issued b c).rd a = s.rd a := by
  have hwake : (if (s.ctx b c).blk == some .issue then s.wake b c else s).rd a = s.rd a := by
    split
    · exact s.rd_wake_ne hthr hlent
    · rfl
  cases c <;> exact hwake

theorem State.rd_done_ne (s : State) {b : Nat} {c : Ctx} {a : Nat} (hpc : a ≠ A.benchPc b c.idx) (hthr : a ≠ A.benchThr b c.idx)
    (hlent : a ≠ A.syncLent (b / 64)) : (s.done b c).rd a = s.rd a :=
  (State.rd_setPc_ne _ _ hpc).trans (s.rd_issued_ne hthr hlent)

/-! ### The 2-bit codes of Desks, sets and slots -/

/-- The code of an entry, and of every other, after it is set. -/
theorem State.code2_setCode2 (s : State) (a : Nat) (f : Fld) (hf : f.ok) (i x k : Nat) (hk : 2 * k + 1 < f.width) :
    (s.setCode2 a f i x).code2 a f k = if k = i then x % 4 else s.code2 a f k := by
  rw [State.code2, State.setCode2, State.fld_setFld_same _ _ _ _ hf, bits_mod_two_pow _ _ _ _ hk]
  split
  next hki =>
    rw [hki, bits_setBits_same _ _ _ _ (by omega)]
    congr 1
    rw [show 2 * i + 1 + 1 - 2 * i = 2 by omega, show 2 ^ 2 = 4 from rfl]
  next hki => rw [bits_setBits_ne _ _ _ _ _ _ (by omega) (by omega) (by omega), State.code2]

theorem State.rd_setCode2_ne (s : State) {a r : Nat} (f : Fld) (i x : Nat) (h : r ≠ a) : (s.setCode2 a f i x).rd r = s.rd r :=
  State.rd_setFld_ne _ _ _ h

/-- The codes that `l` lists take a value where they satisfy a condition. -/
def State.setCodesWhere (s : State) (a : Nat) (f : Fld) (x : Nat) (p : Nat → Bool) (l : List Nat) : State :=
  l.foldl (fun s d => if p (s.code2 a f d) then s.setCode2 a f d x else s) s

theorem State.code2_setCodesWhere (s : State) (a : Nat) {f : Fld} (hf : f.ok) {x : Nat} (hx : x < 4) (p : Nat → Bool) (l : List Nat)
    {k : Nat} (hk : 2 * k + 1 < f.width) :
    (s.setCodesWhere a f x p l).code2 a f k = if k ∈ l ∧ p (s.code2 a f k) = true then x else s.code2 a f k := by
  induction l generalizing s with
  | nil => rw [if_neg (fun h => List.not_mem_nil h.1)]; rfl
  | cons d l ih =>
    have hstep : (if p (s.code2 a f d) then s.setCode2 a f d x else s).code2 a f k =
        if k = d ∧ p (s.code2 a f k) = true then x else s.code2 a f k := by
      by_cases hd : k = d
      · subst hd
        by_cases hp : p (s.code2 a f k) = true
        · rw [if_pos hp, State.code2_setCode2 _ _ _ hf _ _ _ hk, if_pos rfl, if_pos ⟨rfl, hp⟩, Nat.mod_eq_of_lt hx]
        · rw [if_neg hp, if_neg (c := k = k ∧ _) fun h => hp h.2]
      · rw [if_neg (c := k = d ∧ _) fun h => hd h.1]
        split
        · rw [State.code2_setCode2 _ _ _ hf _ _ _ hk, if_neg hd]
        · rfl
    show (State.setCodesWhere _ a f x p l).code2 a f k = _
    rw [ih, hstep]
    by_cases hd : k = d
    · subst hd
      by_cases hp : p (s.code2 a f k) = true <;> simp [hp]
    · simp [hd]

theorem State.setCodesWhere_same {msk : Nat} (hfree : msk &&& 1 = 0) (s : State) (a : Nat) (f : Fld) (x : Nat) (p : Nat → Bool)
    (l : List Nat) : s.Same msk (s.setCodesWhere a f x p l) := by
  refine foldl_same l _ s (fun t d ht => ?_) (.refl s)
  split
  · exact State.setFld_same hfree _ _ _ _ ht
  · exact ht

theorem State.rd_setCodesWhere_ne (s : State) {a r : Nat} (f : Fld) (x : Nat) (p : Nat → Bool) (l : List Nat) (h : r ≠ a) :
    (s.setCodesWhere a f x p l).rd r = s.rd r := by
  induction l generalizing s with
  | nil => rfl
  | cons d l ih =>
    refine (ih _).trans ?_
    dsimp only
    split
    · exact State.rd_setCode2_ne _ _ _ _ h
    · rfl

theorem mem_maskDesks {m d : Nat} : d ∈ maskDesks m ↔ d < 4 ∧ m.testBit d = true := by
  simp [maskDesks]

end Sys2Proof.Machine
end

section
/-!
PROOF. ThreadControl (04 R104, R105, R116, R142, R143, R515).
-/
namespace Sys2Proof.Machine

theorem thread_ne_dwl (th : Thr) : th.ctx ≠ .D := by cases th <;> decide

theorem State.pc_thread {s : State} {b : Nat} {c : Ctx} (hc : c ≠ .D) : s.pc b c = s.fld (A.benchPc b c.idx) F.benchPc.PC * 8 := by
  cases c with
  | D => exact absurd rfl hc
  | _ => rfl

theorem State.live_thread {s : State} {b : Nat} {c : Ctx} (hc : c ≠ .D) :
    s.live b c = s.flag (A.benchThr b c.idx) F.benchThr.STATE := by
  cases c with
  | D => exact absurd rfl hc
  | _ => rfl

/-- A thread's registers and those of its Bench and its lending are apart. -/
theorem threadRegs_apart {b : Nat} (_ : b < 800) {c : Ctx} :
    A.benchThr b c.idx ≠ A.syncLent (b / 64) ∧ A.benchPc b c.idx ≠ A.syncLent (b / 64) ∧ A.benchPc b c.idx ≠ A.benchThr b c.idx ∧
    A.benchFaddr b c.idx ≠ A.benchPc b c.idx ∧ A.benchFaddr b c.idx ≠ A.benchThr b c.idx ∧
    A.benchFaddr b c.idx ≠ A.syncLent (b / 64) ∧ A.benchLease b ≠ A.benchPc b c.idx ∧ A.benchLease b ≠ A.benchThr b c.idx ∧
    A.benchLease b ≠ A.syncLent (b / 64) := by
  have hidx : c.idx < 3 := by cases c <;> decide
  simp only [A.benchThr, A.benchPc, A.benchFaddr, A.benchLease, A.syncLent, benchBase, regBase]
  omega

/-! ### A thread starts (04 R142) -/

/-- The registers and records that a thread starts with, before its Bench's lending ends. -/
def State.started (s : State) (b : Nat) (c : Ctx) : State :=
  ((((s.setFld (A.benchThr b c.idx) F.benchThr.CAUSE 0).modBench b (fun x => { x with icache := [], ifail := [] })).modCtx b c
    (fun x => { x with blk := none, begun := some s.pulse })).setFld (A.benchThr b c.idx) F.benchThr.STATE 1).hwDone
      (A.benchThr b c.idx) F.benchThr.START

theorem State.start_eq {s : State} {b : Nat} {c : Ctx} (hlive : s.live b c = false) (hlevel : s.rst.level = 0) :
    s.start b c = (s.started b c).lendEnd b := by
  have hruns : (s.live b c || s.rst.level != 0) = false := by rw [hlive, hlevel]; rfl
  simp only [State.start, hruns]
  rfl

theorem State.started_rd_ne (s : State) (b : Nat) (c : Ctx) {a : Nat} (ha : a ≠ A.benchThr b c.idx) :
    (s.started b c).rd a = s.rd a :=
  (State.rd_hwDone_ne _ _ ha).trans ((State.rd_setFld_ne _ _ _ ha).trans (State.rd_setFld_ne _ _ _ ha))

theorem State.started_thread (s : State) (b : Nat) (c : Ctx) : (s.started b c).fld (A.benchThr b c.idx) F.benchThr.STATE = 1 ∧
    (s.started b c).fld (A.benchThr b c.idx) F.benchThr.CAUSE = 0 := by
  unfold State.started
  constructor
  · rw [State.fld_hwDone_field _ _ (by decide) (by decide) (by decide), State.fld_setFld_same _ _ _ _ (by decide)]
    rfl
  · rw [State.fld_hwDone_field _ _ (by decide) (by decide) (by decide),
      State.fld_setFld_field _ _ _ _ _ (by decide) (by decide) (by decide)]
    exact (State.fld_setFld_same _ _ _ _ (by decide)).trans (Nat.zero_mod _)

theorem Bench.icache_setCtx (x : Bench) (c : Ctx) (y : CtxSt) : (x.setCtx c y).icache = x.icache := by cases c <;> rfl

theorem State.icache_lendEnd (s : State) (b : Nat) : ((s.lendEnd b).bench b).icache = (s.bench b).icache := by
  unfold State.lendEnd
  split
  · rw [State.bench_setBit, State.modBench, State.bench_setBench_same]
  · rfl

theorem State.started_bench (s : State) (b : Nat) (c : Ctx) : (s.started b c).bench b =
    { s.bench b with icache := [], ifail := [] }.setCtx c { s.ctx b c with blk := none, begun := some s.pulse } := by
  rw [State.started, State.bench, State.hwDone_benches, ← State.bench, State.bench_setFld, State.modCtx, State.setCtx,
    State.bench_setBench_same, State.modBench, State.bench_setBench_same, State.ctx, State.bench_setBench_same]
  cases c <;> rfl

theorem State.started_ctx (s : State) (b : Nat) (c : Ctx) :
    (s.started b c).ctx b c = { s.ctx b c with blk := none, begun := some s.pulse } := by
  rw [State.ctx, State.started_bench, Bench.ctx_setCtx_same]

/-- A thread that starts runs at its PC, with its cause cleared and an empty instruction cache. -/
theorem State.start_runs {s : State} {b : Nat} (hb : b < 800) {c : Ctx} (hlive : s.live b c = false) (hlevel : s.rst.level = 0) :
    (s.start b c).fld (A.benchThr b c.idx) F.benchThr.STATE = 1 ∧ (s.start b c).fld (A.benchThr b c.idx) F.benchThr.CAUSE = 0 ∧
    ((s.start b c).bench b).icache = [] ∧ (s.start b c).pc b c = s.pc b c ∧ s.filesKept (s.start b c) b c ∧
    (s.start b c).mem = s.mem := by
  obtain ⟨hthr, hpc, hpcThr, -⟩ := threadRegs_apart hb (c := c)
  obtain ⟨hstate, hcause⟩ := s.started_thread b c
  have hctx : (s.start b c).ctx b c = { s.ctx b c with blk := none, begun := some s.pulse } := by
    rw [State.start_eq hlive hlevel, State.ctx_lendEnd, State.started_ctx]
  refine ⟨?_, ?_, ?_, State.pc_congr ?_ (by rw [hctx]), by rw [State.filesKept, hctx]; rfl,
    (State.start_same (msk := 2 ^ Part.mem.idx) rfl s b c (.refl s)).same .mem rfl⟩ <;> rw [State.start_eq hlive hlevel]
  · rw [State.fld_lendEnd _ _ _ _ hthr, hstate]
  · rw [State.fld_lendEnd _ _ _ _ hthr, hcause]
  · rw [State.icache_lendEnd, State.started_bench, Bench.icache_setCtx]
  · rw [State.rd_lendEnd_ne _ hpc, State.started_rd_ne _ _ _ hpcThr]

/-! ### A thread stops (04 R105) -/

/-- A thread that waits for nothing stops at once. -/
theorem State.stop_of_unblocked {s : State} {b : Nat} {c : Ctx} (hlive : s.live b c = true) (hblk : (s.ctx b c).blk = none)
    (hstopping : (s.ctx b c).stopping = none) (cause : Nat) (faddr : Option Nat) :
    s.stop b c cause faddr = s.stopNow b c cause faddr := by
  have hrun : (!s.live b c || (s.ctx b c).stopping.isSome) = false := by rw [hlive, hstopping]; rfl
  simp only [State.stop, hrun, hblk]
  rfl

/-- A stop leaves a state what another leaves that it was before, where that had the same registers, PC and memory. -/
theorem State.filesKept.trans {s t u : State} {b : Nat} {c : Ctx} (h : s.filesKept t b c) (k : t.filesKept u b c) : s.filesKept u b c :=
  Eq.trans k h

theorem State.filesKept_done (s : State) (b : Nat) (c : Ctx) : s.filesKept (s.done b c) b c :=
  State.apart_done ⟨fun _ _ => rfl, fun _ _ => rfl, fun _ _ => rfl⟩ s b c

/-- A request to stop is its register's bit, and the stop. -/
theorem State.setStop_eq {s : State} {b : Nat} {c : Ctx} (hc : c ≠ .D) (hlive : s.live b c = true)
    (hstop : s.flag (A.benchThr b c.idx) F.benchThr.STOP = false) (hblk : (s.ctx b c).blk = none)
    (hstopping : (s.ctx b c).stopping = none) :
    s.setStop b c = (s.setFld (A.benchThr b c.idx) F.benchThr.STOP 1).stopNow b c 0x02 none := by
  have hstays : (s.setFld (A.benchThr b c.idx) F.benchThr.STOP 1).live b c = true := by
    have hstate : (s.setFld (A.benchThr b c.idx) F.benchThr.STOP 1).fld (A.benchThr b c.idx) F.benchThr.STATE =
        s.fld (A.benchThr b c.idx) F.benchThr.STATE := State.fld_setFld_field _ _ _ _ _ (by decide) (by decide) (by decide)
    rw [State.live_thread hc, State.flag] at hlive ⊢
    rw [hstate, hlive]
  rw [State.setStop, if_pos hlive, if_neg (by rw [hstop]; decide), State.stopRequest, if_pos hlive]
  exact State.stop_of_unblocked hstays hblk hstopping _ _

end Sys2Proof.Machine

open Sys2Proof Sys2Proof.Machine

/-- Settles O18. -/
theorem threadControl : Obligations.ThreadControl := by
  unfold Obligations.ThreadControl
  intro b th v mask s c hc
  have hb : b.val < 800 := b.isLt
  have hne : c ≠ .D := hc ▸ thread_ne_dwl th
  obtain ⟨hthrLent, hpcLent, hpcThr, hfaPc, hfaThr, hfaLent, hlsPc, hlsThr, hlsLent⟩ := threadRegs_apart hb (c := c)
  refine ⟨fun hlive hlevel => ⟨_, rfl, ?start⟩, fun hlive hblk hstopping hstop hwrote => ⟨_, rfl, ?stopRequest⟩,
    fun hissues => ⟨⟨_, rfl, ?stop⟩, ⟨_, rfl, ?yield⟩⟩, ⟨_, rfl, ?pcWrite⟩,
    fun a ha hhere hwanted hcached hfailed hready hpend hlost hsound => ⟨_, rfl, ?fill⟩⟩
  case start =>
    obtain ⟨hstate, hcause, hcache, hpc, hfiles, hmem⟩ := State.start_runs hb hlive hlevel
    rw [State.setStart, ← hc, if_pos (by rw [hlive]; rfl)]
    exact ⟨hstate, hcause, hcache, hpc, hfiles.scalars, hfiles.files, hmem⟩
  case stopRequest =>
    have h := (s.setFld (A.benchThr b c.idx) F.benchThr.STOP 1).stopNow_stopped hb c 0x02 none
    obtain ⟨hstate, hcause, hclear⟩ := h.thread hne
    have hfiles : s.filesKept ((s.setFld (A.benchThr b c.idx) F.benchThr.STOP 1).stopNow b c 0x02 none) b c := h.files
    rw [← hc, State.setStop_eq hne hlive hstop hblk hstopping]
    exact ⟨hstate, hcause, hclear hwrote, h.pc.trans (State.pc_congr (State.rd_setFld_ne _ _ _ hpcThr) rfl), hfiles.scalars,
      hfiles.files, h.mem⟩
  case stop =>
    rw [show ∀ k, s.issue b c { dwl := false, rsv := (0 : BitVec 56).toNat } k = k s from State.issue_of_issues hissues]
    have h := (s.done b c).stopNow_stopped hb c 0x01 none
    obtain ⟨hstate, hcause, -⟩ := h.thread hne
    have hfiles := (s.filesKept_done b c).trans h.files
    exact ⟨hstate, hcause, h.pc.trans (s.pc_done b c), hfiles.scalars, hfiles.files, h.mem.trans (s.done_mem b c),
      (h.noAddr (by decide)).trans (s.rd_done_ne hfaPc hfaThr hfaLent)⟩
  case yield =>
    rw [show ∀ k, s.issue b c { dwl := false, rsv := (0 : BitVec 52).toNat } k = k s from State.issue_of_issues hissues]
    set u := s.setCodesWhere (A.benchLease b) F.benchLease.HOLD 0 (· == c.code) (maskDesks mask) with hu
    have hsame : s.Same (2 ^ Part.benches.idx + 2 ^ Part.mem.idx) u := State.setCodesWhere_same rfl ..
    have hpc : u.pc b c = s.pc b c :=
      State.pc_congr (State.rd_setCodesWhere_ne _ _ _ _ _ hlsPc.symm) (by rw [State.ctx_of_benches (hsame.same .benches rfl)])
    have hfiles : s.filesKept (u.done b c) b c :=
      ((State.filesKept.refl s b c).of_benches (hsame.same .benches rfl)).trans (u.filesKept_done b c)
    have hturned : s.filesKept ((u.done b c).modBench b (fun x => { x with turn := otherThr c })) b c :=
      hfiles.modBench _ _ fun x d => by cases d <;> rfl
    have hnext : ((u.done b c).modBench b (fun x => { x with turn := otherThr c })).pc b c = s.nextPc b c := by
      have hctx := congrArg CtxSt.pc (State.ctx_modBench (u.done b c) b (fun x => { x with turn := otherThr c })
        (fun x d => by cases d <;> rfl) b c)
      rw [State.pc_congr (State.rd_modBench ..) hctx, u.pc_done, State.nextPc, hpc, State.nextPc]
    refine ⟨hnext, hturned.scalars, (u.done_mem b c).trans (hsame.same .mem rfl), fun d hd => ?_⟩
    have hrd : (u.done b c).rd (A.benchLease b) = u.rd (A.benchLease b) := u.rd_done_ne hlsPc hlsThr hlsLent
    have hcode : (u.done b c).code2 (A.benchLease b) F.benchLease.HOLD d = u.code2 (A.benchLease b) F.benchLease.HOLD d :=
      congrArg (bits · _ _) (State.fld_of_rd hrd _)
    refine hcode.trans ?_
    rw [hu, State.code2_setCodesWhere _ _ (by decide) (by decide) _ _ (by simp [F.benchLease.HOLD, Fld.width]; omega)]
    simp [mem_maskDesks, hd]
  case pcWrite =>
    rw [← hc, State.pcWrite]
    by_cases hruns : s.live b c = true ∧ (s.ctx b c).begun ≠ some s.pulse
    · rw [if_pos hruns, if_pos (by simpa using hruns)]
    · rw [if_neg hruns, if_neg (by simpa using hruns)]
      refine ⟨?_, fun a ha => State.rd_setFld_ne _ _ _ ha⟩
      rw [State.pc_thread hne, State.fld_setFld_same _ _ _ _ (by decide), Nat.mod_eq_of_lt]
      have := v.isLt
      simp only [F.benchPc.PC, Fld.width]
      omega
  case fill =>
    have hread := State.memRead_sound (s := s) (cls := 0) (a := localOf a) (n := 64) (by decide) (by subst ha; unfold localOf; omega) hlost
      hsound
    have hgo : (!s.isHere (modOf a) || !s.lineWanted b a || (s.bench b).icache.contains a || (s.bench b).ifail.contains a ||
        !s.memReady (localOf a) 64 || s.memPending (localOf a) 64) = false := by
      rw [hhere, hwanted, hcached, hfailed, hready, hpend]; rfl
    rw [← ha, hgo, if_neg (by decide)]
    rcases hr : s.memRead 0 (localOf a) 64 with ⟨u, data, good, poisoned⟩
    rw [hr] at hread
    obtain ⟨rfl, rfl⟩ : u = s ∧ good = true := hread
    refine ⟨?_, rfl, rfl⟩
    show ((u.modBench b _).bench b).icache.head? = some a
    rw [State.modBench, State.bench_setBench_same]
    rfl
end

section
/-!
PROOF. DeskConfigured, DeskTestControls and PowerLending (03 R92, R95, R102; 11 R338, R339).
-/
namespace Sys2Proof.Machine

/-! ### Bits that hardware sets -/

/-- A field keeps its value where hardware sets the bits of another. -/
theorem State.fld_hwSet_apart (s : State) (a : Nat) {f g : Fld} (hf : f.ok) (hg : g.ok) (hd : g.hi < f.lo ∨ f.hi < g.lo) :
    (s.hwSet a f).fld a g = s.fld a g := by
  have hrd : (s.hwSet a f).rd a = s.rd a ||| f.mask := s.rd_wr_same a _
  rw [State.fld, hrd, getFld_or_mask _ hf hg hd, State.fld]

/-- A field of one bit that hardware sets reads one. -/
theorem State.fld_hwSet_bit (s : State) (a : Nat) {f : Fld} (hf : f.ok) (hw : f.width = 1) : (s.hwSet a f).fld a f = 1 := by
  have hset := s.flag_hwSet_same a hf
  have hlt : (s.hwSet a f).fld a f < 2 ^ f.width := getFld_lt ..
  rw [hw] at hlt
  simp only [State.flag, bne_iff_ne] at hset
  omega

/-- A bit of a field reads as it was written, every other as before. -/
theorem State.testBit_setBit (s : State) (a : Nat) {f : Fld} (hf : f.ok) (i : Nat) (x : Bool) {k : Nat} (hk : k < f.width) :
    ((s.setBit a f i x).fld a f).testBit k = if k = i then x else (s.fld a f).testBit k := by
  rw [State.setBit, State.fld_setFld_same _ _ _ _ hf, Nat.testBit_mod_two_pow, decide_eq_true hk, Bool.true_and,
    testBit_setBits _ _ _ _ _ (Nat.le_refl i)]
  by_cases hki : k = i
  · subst hki
    cases x <;> simp
  · rw [if_neg hki, if_neg (by omega)]

/-! ### Desks -/

@[simp] theorem State.desk_modDesk_same (s : State) (b d : Nat) (f : Desk → Desk) : (s.modDesk b d f).desk b d = f (s.desk b d) := by
  simp [State.modDesk, State.setDesk, State.desk, FMap.get?_set_same]

/-- Two Desks with numbers below 4 have keys apart. -/
theorem State.desk_modDesk_ne (s : State) {b d b' d' : Nat} (f : Desk → Desk) (h : (b', d') ≠ (b, d)) (hd : d < 4) (hd' : d' < 4) :
    (s.modDesk b d f).desk b' d' = s.desk b' d' := by
  have hkey : 4 * b' + d' ≠ 4 * b + d := fun e => h (Prod.ext (by show b' = b; omega) (by show d' = d; omega))
  simp [State.modDesk, State.setDesk, State.desk, FMap.get?_set_ne _ _ hkey]

theorem State.deskInject_pending (s : State) (b d : Nat) (hd : d < 4) (f : DeskInj → DeskInj) :
    ((s.deskInject b d f).desk b d).inj = f (s.desk b d).inj ∧ ((s.deskInject b d f).desk b d).queue = (s.desk b d).queue ∧
    (s.deskInject b d f).regs = s.regs ∧
    ∀ b' d', (b', d') ≠ (b, d) → d' < 4 → (s.deskInject b d f).desk b' d' = s.desk b' d' := by
  refine ⟨?_, ?_, rfl, fun b' d' h hd' => s.desk_modDesk_ne _ h hd hd'⟩ <;> rw [State.deskInject, State.desk_modDesk_same]

/-- A window that has passed gives way to the present one. -/
theorem State.winRoll_passed {s : State} {b d : Nat} (hgrid : (s.desk b d).winStart % 800000 = 0)
    (hpast : (s.desk b d).winStart + 800000 ≤ s.benchCyc b) :
    s.winRoll b d = s.modDesk b d (fun x => { x with winReplays := 0, winStart := s.benchCyc b / 800000 * 800000 }) := by
  rw [State.winRoll, if_neg (by omega)]

/-- The configuration and the status of a Desk are two registers. -/
theorem deskCfg_ne_deskStat (b d : Nat) : A.deskCfg b d ≠ A.deskStat b d := by
  simp only [A.deskCfg, A.deskStat]
  omega

theorem deskStall_ne_deskRas (b d : Nat) : A.deskStall b d ≠ A.deskRas b d := by
  simp only [A.deskStall, A.deskRas]
  omega

/-- The sets that a height and a format leave, by the codes of DESK_CFG (03 R75, R95). -/
theorem setsFor_drawerFmt (m c : Nat) : setsFor m (drawerFmt c) = 196608 / (m * 96 * (if c = 1 then 6 else 4)) := by
  unfold setsFor drawerFmt
  split
  · rfl
  · rfl
  next h1 _ => rw [if_neg h1, if_neg (by decide)]

/-! ### Lending (11 R338, R339) -/

@[simp] theorem State.draw_regs (s : State) (n : Nat) : (s.draw n).2.regs = s.regs := rfl

/-- The end of a half rate counts its cycles, saturating, and no more than 5 µs of them. -/
theorem State.lendFull_half {s : State} {b t0 : Nat} (h : (s.bench b).lend.halfUntil = some t0) :
    ((s.lendFull b).bench b).lend.halfUntil = none ∧ (s.lendFull b).fld A.syncStat F.syncStat.SLOW =
      min (s.fld A.syncStat F.syncStat.SLOW + min 4000 (s.benchCyc b - (s.bench b).lend.halfSince)) (2 ^ F.syncStat.SLOW.width - 1) := by
  rw [State.lendFull, h, if_neg (by simp)]
  refine ⟨?_, ?_⟩
  · rw [State.modBench, State.bench_setBench_same]
  · rw [State.fld_modBench, State.incSat, State.fld_setFld_same _ _ _ _ (by decide), satAdd]
    exact Nat.mod_eq_of_lt (Nat.lt_of_le_of_lt (Nat.min_le_right ..) (by decide))

theorem State.lendFull_same {msk : Nat} (hfree : msk &&& 9 = 0) (s : State) (b : Nat) : s.Same msk (s.lendFull b) := by
  unfold State.lendFull
  dsimp only
  split
  · exact .refl s
  · exact State.modBench_same (free_mono hfree rfl) _ _ _ (State.incSat_same (free_mono hfree rfl) _ _ _ _ (.refl s))

theorem State.rd_lendFull_ne (s : State) (b : Nat) {a : Nat} (ha : a ≠ A.syncStat) : (s.lendFull b).rd a = s.rd a := by
  unfold State.lendFull
  dsimp only
  split
  · rfl
  · exact State.rd_incSat_ne _ _ _ ha

theorem syncLent_ne_syncStat (n : Nat) : A.syncLent n ≠ A.syncStat := by
  simp only [A.syncLent, A.syncStat]
  omega

end Sys2Proof.Machine

open Sys2Proof Sys2Proof.Machine

/-- Settles O23: a write that takes effect sets the three fields and MAX_SETS; a rejected one only CFG_REJ. -/
theorem deskConfigured : Obligations.DeskConfigured := by
  unfold Obligations.DeskConfigured
  intro b d v s
  have hne := deskCfg_ne_deskStat b d
  refine ⟨fun hfree hfmt => ⟨_, rfl, ?_⟩, fun hbad => ⟨_, rfl, ?_⟩⟩
  · rw [State.deskCfgWrite, if_neg (by simp [hfree, hfmt])]
    set w := (((s.setFld (A.deskCfg b d) F.deskCfg.M (getFld v F.deskCfg.M)).setFld (A.deskCfg b d) F.deskCfg.DFMT
      (getFld v F.deskCfg.DFMT)).setFld (A.deskCfg b d) F.deskCfg.CHUNK (getFld v F.deskCfg.CHUNK)) with hw
    have hM : w.fld (A.deskCfg b d) F.deskCfg.M = getFld v F.deskCfg.M := by
      rw [hw, State.fld_setFld_field _ _ _ _ _ (by decide) (by decide) (by decide),
        State.fld_setFld_field _ _ _ _ _ (by decide) (by decide) (by decide), State.fld_setFld_same _ _ _ _ (by decide),
        Nat.mod_eq_of_lt (getFld_lt ..)]
    have hD : w.fld (A.deskCfg b d) F.deskCfg.DFMT = getFld v F.deskCfg.DFMT := by
      rw [hw, State.fld_setFld_field _ _ _ _ _ (by decide) (by decide) (by decide), State.fld_setFld_same _ _ _ _ (by decide),
        Nat.mod_eq_of_lt (getFld_lt ..)]
    have hC : w.fld (A.deskCfg b d) F.deskCfg.CHUNK = getFld v F.deskCfg.CHUNK := by
      rw [hw, State.fld_setFld_same _ _ _ _ (by decide), Nat.mod_eq_of_lt (getFld_lt ..)]
    refine ⟨?_, ?_, ?_, ?_, ?_⟩
    · rw [State.fld_setFld_ne _ _ _ _ hne, hM]
    · rw [State.fld_setFld_ne _ _ _ _ hne, hD]
    · rw [State.fld_setFld_ne _ _ _ _ hne, hC]
    · rw [State.maxSets, State.fld_setFld_same _ _ _ _ (by decide), State.deskFmt, State.deskM, setsFor_drawerFmt, hM, hD]
    · rw [State.fld_setFld_field _ _ _ _ _ (by decide) (by decide) (by decide)]
      exact State.fld_of_rd ((State.rd_setFld_ne _ _ _ hne.symm).trans ((State.rd_setFld_ne _ _ _ hne.symm).trans
        (State.rd_setFld_ne _ _ _ hne.symm))) _
  · rw [State.deskCfgWrite, if_pos (by simpa using hbad)]
    refine ⟨State.rd_hwSet_ne _ _ hne, ?_, ?_⟩
    · exact State.fld_hwSet_bit _ _ (by decide) (by decide)
    · exact State.fld_hwSet_apart _ _ (by decide) (by decide) (by decide)

/-- Settles O24. -/
theorem deskTestControls : Obligations.DeskTestControls := by
  unfold Obligations.DeskTestControls
  intro b d s
  have hne := deskStall_ne_deskRas b d
  refine ⟨⟨_, rfl, ?clear⟩, fun q hq => ?inject, fun hgrid hpast => ⟨_, rfl, ?window⟩⟩
  case clear =>
    unfold State.deskClear
    refine ⟨?_, ?_, ?_, ?_, ?_, fun a hstall hras => ?_⟩
    · rw [State.rd_setFld_ne _ _ _ hne, State.rd_setFld_ne _ _ _ hne, State.rd_wr_same]
    · rw [State.fld_setFld_field _ _ _ _ _ (by decide) (by decide) (by decide), State.fld_setFld_same _ _ _ _ (by decide), Nat.zero_mod]
    · rw [State.fld_setFld_same _ _ _ _ (by decide), Nat.zero_mod]
    · rw [State.fld_setFld_field _ _ _ _ _ (by decide) (by decide) (by decide),
        State.fld_setFld_field _ _ _ _ _ (by decide) (by decide) (by decide), State.fld_of_rd (State.rd_wr_ne _ _ hne.symm)]
    · rw [State.fld_setFld_field _ _ _ _ _ (by decide) (by decide) (by decide),
        State.fld_setFld_field _ _ _ _ _ (by decide) (by decide) (by decide), State.fld_of_rd (State.rd_wr_ne _ _ hne.symm)]
    · rw [State.rd_setFld_ne _ _ _ hras, State.rd_setFld_ne _ _ _ hras, State.rd_wr_ne _ _ hstall]
  case inject =>
    simp only [List.mem_cons, List.not_mem_nil, or_false] at hq
    obtain rfl | rfl | rfl := hq <;> exact ⟨_, rfl, s.deskInject_pending b d d.isLt _⟩
  case window =>
    rw [State.winRoll_passed hgrid hpast]
    refine ⟨?_, ?_, ?_, rfl⟩ <;> rw [State.desk_modDesk_same]

/-- Settles O35. -/
theorem powerLending : Obligations.PowerLending := by
  unfold Obligations.PowerLending
  intro b s
  refine ⟨fun hen hlending hungate htakeover hmay hreached => ⟨_, rfl, ?start⟩, fun t0 hungate hdue => ⟨_, rfl, ?ungate⟩,
    fun t0 hhalf hdue => ⟨_, rfl, ?halfEnd⟩⟩
  case start =>
    have hgo : (s.flag A.syncLend F.syncLend.EN && !(s.bench b).lend.lending && (s.bench b).lend.ungateAt.isNone &&
        (s.bench b).takeover.isNone && s.mayLend b && s.reached (max (s.bench b).lend.since s.cycZero)
          (max 1 (s.fld A.syncLend F.syncLend.THRESH))) = true := by
      rw [hen, hlending, hungate, htakeover, hmay, hreached]; rfl
    rw [hgo, if_pos rfl]
    set u := (s.lendFull b).modBench b (fun x => { x with lend := { x.lend with lending := true } }) with hu
    have hlent : ∀ k < 64, (u.fld (A.syncLent (b / 64)) F.syncLent.LENT).testBit k =
        (s.fld (A.syncLent (b / 64)) F.syncLent.LENT).testBit k := fun k _ => by
      rw [hu, State.fld_modBench, State.fld_of_rd (s.rd_lendFull_ne b (syncLent_ne_syncStat _))]
    have hlends : ((u.setBit (A.syncLent (b / 64)) F.syncLent.LENT (b % 64) true).bench b).lend.lending = true := by
      rw [State.bench_setBit, hu, State.modBench, State.bench_setBench_same]
    have hwidth : ∀ k, k < 64 → k < F.syncLent.LENT.width := fun k hk => hk
    refine ⟨hlends, fun d => ?_, ?_, fun k hk hne => ?_, ?_⟩
    · simp only [State.deskWorks, hlends]
      simp
    · rw [State.testBit_setBit _ _ (by decide) _ _ (hwidth _ (by omega)), if_pos rfl]
    · rw [State.testBit_setBit _ _ (by decide) _ _ (hwidth k hk), if_neg hne, hlent k hk]
    · exact (State.lendFull_same (msk := 2 ^ Part.mem.idx) rfl s b).same .mem rfl
  case ungate =>
    rw [hungate]
    dsimp only
    rw [if_pos hdue, State.modBench, State.bench_setBench_same]
    refine ⟨rfl, ?_, rfl⟩
    dsimp only
    by_cases hn : (if (s.draw 1).2.pwr.falling = true then 1 else (s.draw 1).1) = 1
    · exact .inr (by rw [if_pos hn]; rfl)
    · refine .inl ⟨by rw [if_neg hn], Bool.eq_false_of_not_eq_true fun hfalling => hn (if_pos hfalling)⟩
  case halfEnd =>
    rw [hhalf]
    dsimp only
    rw [if_pos hdue]
    exact State.lendFull_half hhalf
end

section
/-!
SUPPORT. Contexts that wait and go on again: identities, wakes and answers of this module's own table (04 R134; 11 R325 to R334).
-/
namespace Sys2Proof.Machine

/-! ### Contexts that go on -/

theorem State.filesKept_wake (s : State) (b : Nat) (c : Ctx) : s.filesKept (s.wake b c) b c := by
  rw [State.filesKept, State.ctx_wake]
  rfl

@[simp] theorem State.wake_mem (s : State) (b : Nat) (c : Ctx) : (s.wake b c).mem = s.mem :=
  (State.wake_same (msk := 2 ^ Part.mem.idx) rfl s b c (.refl s)).same .mem rfl

theorem State.pc_wake (s : State) {b : Nat} (hb : b < 800) (c : Ctx) : (s.wake b c).pc b c = s.pc b c := by
  obtain ⟨-, hpcLent, hpcThr, -⟩ := threadRegs_apart hb (c := c)
  exact State.pc_congr (s.rd_wake_ne hpcThr hpcLent) (by rw [State.ctx_wake])

/-- A context that is woken runs (04 R104). -/
theorem State.wake_runsAgain (s : State) {b : Nat} (hb : b < 800) (c : Ctx) : (s.wake b c).runsAgain b c := by
  obtain ⟨hthrLent, -⟩ := threadRegs_apart hb (c := c)
  refine ⟨by rw [State.ctx_wake], fun hc => ?_⟩
  have hstate : (s.unblock b c).fld (A.benchThr b c.idx) F.benchThr.STATE = 1 := by
    cases c with
    | D => exact absurd rfl hc
    | _ => exact State.fld_setFld_same _ _ _ _ (by decide)
  rw [State.wake, State.fld_lendEnd _ _ _ _ hthrLent, hstate]

/-- A scalar register that a context's record holds after a write and what keeps its registers. -/
theorem State.scalarIs_setS {s t : State} {b : Nat} {c : Ctx} {rd : Nat} {v : Word} (h : (s.setS b c rd v).filesKept t b c) :
    s.scalarIs t b c rd v := by
  intro r
  have hkept := h.scalars r
  rw [if_neg (by omega)] at hkept
  rw [hkept, State.s_setS]

theorem State.setS_same {msk : Nat} {was : State} (hfree : msk &&& 8 = 0) (s : State) (b : Nat) (c : Ctx) (rd : Nat) (v : Word)
    (hs : was.Same msk s) : was.Same msk (s.setS b c rd v) := by
  unfold State.setS
  split
  · exact hs
  · exact State.modCtx_same hfree _ _ _ _ hs

/-- A part of a context's record beside its scalar registers is kept by a write of one. -/
theorem State.ctx_setS {α : Type} (g : CtxSt → α) (hg : ∀ x f, g { x with s := f } = g x) (s : State) (b : Nat) (c : Ctx) (rd : Nat)
    (v : Word) : g ((s.setS b c rd v).ctx b c) = g (s.ctx b c) := by
  unfold State.setS
  split
  · rfl
  · rw [State.ctx_modCtx_same, hg]

/-- The end of a wait writes its result and the context goes on. -/
theorem State.endWait_runs (s : State) {b : Nat} (hb : b < 800) (c : Ctx) (rd v : Nat) :
    (s.endWait b c rd v).runsAgain b c ∧ s.scalarIs (s.endWait b c rd v) b c rd (BitVec.ofNat 64 v) ∧
    (s.endWait b c rd v).mem = s.mem :=
  ⟨State.wake_runsAgain _ hb c, State.scalarIs_setS (State.filesKept_wake ..),
    (State.wake_mem ..).trans ((State.setS_same (msk := 2 ^ Part.mem.idx) rfl s b c rd _ (.refl s)).same .mem rfl)⟩

theorem State.stopLate_of_running {s : State} {b : Nat} {c : Ctx} (h : (s.ctx b c).stopping = none) : s.stopLate b c = s := by
  rw [State.stopLate, h]

/-! ### Identities (11 R330) -/

theorem ofCode_code (c : Ctx) : Ctx.ofCode c.code = some c := by cases c <;> rfl

theorem State.named_whoOf (s : State) (b : Nat) (c : Ctx) : s.named (s.whoOf b c) = some c := by
  have hcode : Ctx.ofCode (s.whoOf b c).ctx = some c := ofCode_code c
  rw [State.named, hcode]
  exact if_pos (beq_self_eq_true _)

theorem State.waiting_whoOf {s : State} {b : Nat} {c : Ctx} {w : WaitSt} {key : Nat} (hblk : (s.ctx b c).blk = some (.wait w))
    (hkey : s.cntKey w.counter = key) : s.waiting key (s.whoOf b c) = some (c, w) := by
  have hcode : Ctx.ofCode (s.whoOf b c).ctx = some c := ofCode_code c
  have hself : (s.whoOf (s.whoOf b c).bench c == s.whoOf b c) = true := beq_self_eq_true _
  have hblk' : (s.ctx (s.whoOf b c).bench c).blk = some (.wait w) := hblk
  simp only [State.waiting, hcode, hself, hblk', hkey, beq_self_eq_true, if_true]

/-- A context that does not wait on a counter is told as such. -/
theorem State.waiting_none {s : State} {b : Nat} {c : Ctx} {k : Blk} (hblk : (s.ctx b c).blk = some k) (hk : ∀ w, k ≠ .wait w) (key : Nat) :
    s.waiting key (s.whoOf b c) = none := by
  have hcode : Ctx.ofCode (s.whoOf b c).ctx = some c := ofCode_code c
  have hself : (s.whoOf (s.whoOf b c).bench c == s.whoOf b c) = true := beq_self_eq_true _
  have hblk' : (s.ctx (s.whoOf b c).bench c).blk = some k := hblk
  simp only [State.waiting, hcode, hself, hblk', if_true]
  split
  next w he => exact absurd (Option.some.inj he) (hk w)
  next => rfl

/-- An answer of this module's own table is taken from the list of those on their way. -/
theorem State.syncResponse_own {s : State} {v : Via} {i : Nat} {who : Who} {a : SyncAns} (hown : s.isOwn v = true)
    (hanswer : s.sync.answers[v.seq]? = some (i, who, a)) (st : Status) :
    s.syncResponse v st a = (s.putSync { s.sync with answers := s.sync.answers.eraseIdx v.seq }).localAnswer i who a := by
  simp only [State.syncResponse, hown, hanswer, beq_self_eq_true, if_true]

end Sys2Proof.Machine

open Sys2Proof Sys2Proof.Machine

/-- Settles O33: the answer is that of the held wait, and the stop takes effect. -/
theorem cancelStops : Obligations.CancelStops := by
  unfold Obligations.CancelStops
  intro b th c v i w cause s hc hcause hstopping hblk hphase hkey hown hanswer
  refine ⟨_, rfl, ?_⟩
  rw [State.syncResponse_own hown hanswer]
  set u := s.putSync { s.sync with answers := s.sync.answers.eraseIdx v.seq }
  have hwaiting : u.waiting (s.modnum * 65536 + i) (s.whoOf b c) = some (c, w) := State.waiting_whoOf (s := u) hblk hkey
  have hstop : u.localAnswer i (s.whoOf b c) (.cancel .cancelled) = u.stopNow b c cause none := by
    show u.cancelAnswer (s.modnum * 65536 + i) (s.whoOf b c) .cancelled = _
    simp only [State.cancelAnswer, hwaiting, hphase]
    show u.stopLate b c = _
    have hpending : (u.ctx b c).stopping = some ⟨cause, none, none⟩ := hstopping
    rw [State.stopLate, hpending]
  have hne : c ≠ .D := hc ▸ thread_ne_dwl th
  have h := u.stopNow_stopped b.isLt c cause none
  obtain ⟨hstate, hcode, -⟩ := h.thread hne
  rw [hstop]
  exact ⟨hstate, hcode.trans (Nat.mod_eq_of_lt (by omega)), h.stopping, State.filesKept.scalars h.files, h.mem⟩
end

section
/-!
PROOF. SyncAnswers: the ends of waits, takes, opens and commits (04 R134; 06 R186, R188; 11 R325 to R333).
-/
namespace Sys2Proof.Machine

/-- A module number and a counter index are those of the address that they make. -/
theorem State.cntKey_here (s : State) {i : Nat} (hi : i < 65536) :
    s.cntKey (s.modnum * 65536 + i) = s.modnum * 65536 + i := by
  have hmod : s.modnum < 2 ^ 14 := getFld_lt ..
  have hmodule : cntModule (s.modnum * 65536 + i) = s.modnum := by
    unfold cntModule bits
    rw [Nat.shiftRight_eq_div_pow]
    omega
  have hindex : cntIndex (s.modnum * 65536 + i) = i := by
    unfold cntIndex bits
    rw [Nat.shiftRight_eq_div_pow]
    omega
  rw [State.cntKey, hmodule, hindex]
  split <;> rfl

/-! ### Operations that are sent to this module's own table -/

theorem State.syncSend_here {s : State} {counter : Nat} (h : s.isHere (cntModule counter) = true) (w : Who) (op : SyncOp) (pc : Nat) :
    s.syncSend counter w op pc = (s.putSync { s.sync with inbox := s.sync.inbox ++ [(cntIndex counter, w, op)] }, false) := by
  simp only [State.syncSend, h, if_true]

/-- The request of a wait at a counter of this module is on its way, where none of its identity is held at its source. -/
theorem State.sendWait_here {s : State} {w : WaitSt} (h : s.isHere (cntModule w.counter) = true) {b : Nat} {c : Ctx}
    (hquiet : s.noWait (s.whoOf b c)) : s.sendWait b c w =
      (s.putSync { s.sync with inbox := s.sync.inbox ++ [(cntIndex w.counter, s.whoOf b c, .wait w.threshold w.consume w.tmo)] }).modCtx
        b c (fun x => { x with blk := some (.wait { w with phase := .sent, phaseAt := s.pulse }) }) := by
  simp only [State.sendWait, State.syncSend_here h]
  generalize hheld : List.any _ _ = held
  have hnone : held = false := by
    rw [← hheld, List.any_eq_false]
    intro t ht
    split
    next i x _ _ _ he => simpa using hquiet t ht i x _ he
    next => decide
  rw [hnone]
  rfl

/-- The CANCEL of a wait at a counter of this module is on its way (11 R333). -/
theorem State.sendCancel_here {s : State} {w : WaitSt} (h : s.isHere (cntModule w.counter) = true) (b : Nat) (c : Ctx) (back : Bool) :
    s.sendCancel b c w back = (s.putSync { s.sync with inbox := s.sync.inbox ++ [(cntIndex w.counter, s.whoOf b c, .cancel)] }).modCtx
        b c (fun x => { x with blk := some (.wait { w with phase := if back then .cancelBack else .cancelStop, phaseAt := s.pulse }) }) := by
  simp only [State.sendCancel, State.syncSend_here h]
  rfl

/-! ### Results -/

/-- The result of a wait that is not being stopped ends it. -/
theorem State.waitResult_satisfied {s : State} {b : Nat} {c : Ctx} (h : (s.ctx b c).stopping = none) (w : WaitSt) (k : Nat) :
    s.waitResult b c w (.satisfied k) = s.endWait b c w.rd k := by
  have hrun : ¬ (s.ctx b c).stopping.isSome = true := by rw [h]; decide
  rw [State.waitResult, if_neg hrun]

theorem State.waitFailed_running {s : State} {b : Nat} {c : Ctx} (h : (s.ctx b c).stopping = none) (w : WaitSt) :
    s.waitFailed b c w = s.endWait b c w.rd (2 ^ 32) := by
  have hrun : ¬ (s.ctx b c).stopping.isSome = true := by rw [h]; decide
  rw [State.waitFailed, if_neg hrun]

theorem State.endWait_same {msk : Nat} {was : State} (hfree : msk &&& 9 = 0) (s : State) (b : Nat) (c : Ctx) (rd v : Nat)
    (hs : was.Same msk s) : was.Same msk (s.endWait b c rd v) :=
  State.wake_same hfree _ _ _ (State.setS_same (free_mono hfree rfl) _ _ _ _ _ hs)

/-! ### Layers -/

/-- The register of a layer is apart from those of its thread and of its Bench's lending. -/
theorem numLayer_apart {b : Nat} (_ : b < 800) {c : Ctx} : A.numLayer b c.idx ≠ A.benchThr b c.idx ∧
    A.numLayer b c.idx ≠ A.syncLent (b / 64) ∧ A.numLayer b c.idx ≠ A.benchPc b c.idx := by
  have hidx : c.idx < 3 := by cases c <;> decide
  simp only [A.numLayer, A.benchThr, A.benchPc, A.syncLent, benchBase, regBase]
  omega

theorem State.layerOpen_of_fld {s : State} {b : Nat} {c : Ctx} (hc : c ≠ .D) (h : s.fld (A.numLayer b c.idx) F.numLayer.OPEN = 1) :
    s.layerOpen b c = true := by
  cases c <;> simp_all [State.layerOpen, State.flag]

theorem State.layerOpen_of_closed {s : State} {b : Nat} {c : Ctx} (h : s.fld (A.numLayer b c.idx) F.numLayer.OPEN = 0) :
    s.layerOpen b c = false := by
  simp [State.layerOpen, State.flag, h]

/-- The register of a layer that opens (06 R186). -/
def State.layerSet (s : State) (a word ltag rung lad attempt : Nat) (lost : Bool) : State :=
  (((((((s.setFld a F.numLayer.LTAG ltag).setFld a F.numLayer.ATTEMPT attempt).setFld a F.numLayer.RUNG rung).setFld a
    F.numLayer.LAD lad).setFld a F.numLayer.LFLAGS 0).setFld a F.numLayer.LOST lost.toNat).setFld a F.numLayer.WORD word).setFld a
      F.numLayer.OPEN 1

theorem State.openLayer_eq (s : State) (b : Nat) (c : Ctx) (word ltag rung lad attempt : Nat) (lost : Bool) :
    s.openLayer b c word ltag rung lad attempt lost =
      ((s.modCtx b c (fun x => { x with lgen := x.lgen + 1 })).layerSet (A.numLayer b c.idx) word ltag rung lad attempt lost).wake b c :=
  rfl

theorem State.layerSet_shown (s : State) (a word ltag rung lad attempt : Nat) (lost : Bool) :
    (s.layerSet a word ltag rung lad attempt lost).fld a F.numLayer.OPEN = 1 ∧
    (s.layerSet a word ltag rung lad attempt lost).fld a F.numLayer.LTAG = ltag % 65536 ∧
    (s.layerSet a word ltag rung lad attempt lost).fld a F.numLayer.ATTEMPT = attempt % 256 ∧
    (s.layerSet a word ltag rung lad attempt lost).fld a F.numLayer.RUNG = rung % 4 ∧
    (s.layerSet a word ltag rung lad attempt lost).fld a F.numLayer.LFLAGS = 0 ∧
    (s.layerSet a word ltag rung lad attempt lost).fld a F.numLayer.LOST = lost.toNat := by
  have hne : ∀ (t : State) {f g : Fld} (x : Nat), f.ok → g.ok → (g.hi < f.lo ∨ f.hi < g.lo) → (t.setFld a f x).fld a g = t.fld a g :=
    fun t f g x hf hg hd => t.fld_setFld_field a f g x hf hg hd
  unfold State.layerSet
  refine ⟨?_, ?_, ?_, ?_, ?_, ?_⟩
  · exact State.fld_setFld_same _ _ _ _ (by decide)
  · iterate 7 rw [hne _ _ (by decide) (by decide) (by decide)]
    exact State.fld_setFld_same _ _ _ _ (by decide)
  · iterate 6 rw [hne _ _ (by decide) (by decide) (by decide)]
    exact State.fld_setFld_same _ _ _ _ (by decide)
  · iterate 5 rw [hne _ _ (by decide) (by decide) (by decide)]
    exact State.fld_setFld_same _ _ _ _ (by decide)
  · iterate 3 rw [hne _ _ (by decide) (by decide) (by decide)]
    exact State.fld_setFld_same _ _ _ _ (by decide)
  · iterate 2 rw [hne _ _ (by decide) (by decide) (by decide)]
    rw [State.fld_setFld_same _ _ _ _ (by decide)]
    cases lost <;> rfl

/-- A layer that opens shows its tag, its attempt and its rung, and its thread goes on. -/
theorem State.openLayer_shown (s : State) {b : Nat} (hb : b < 800) {c : Ctx} (hc : c ≠ .D) (word ltag rung lad attempt : Nat) (lost : Bool) :
    let t := s.openLayer b c word ltag rung lad attempt lost
    t.runsAgain b c ∧ t.layerOpen b c = true ∧ t.fld (A.numLayer b c.idx) F.numLayer.LTAG = ltag % 65536 ∧
    t.fld (A.numLayer b c.idx) F.numLayer.ATTEMPT = attempt % 256 ∧ t.fld (A.numLayer b c.idx) F.numLayer.RUNG = rung % 4 ∧
    t.fld (A.numLayer b c.idx) F.numLayer.LFLAGS = 0 ∧ t.flag (A.numLayer b c.idx) F.numLayer.LOST = lost ∧ t.mem = s.mem ∧
    s.filesKept t b c ∧ (t.ctx b c).stopping = (s.ctx b c).stopping := by
  obtain ⟨hthr, hlent, hpc⟩ := numLayer_apart hb (c := c)
  intro t
  set u := (s.modCtx b c (fun x => { x with lgen := x.lgen + 1 })).layerSet (A.numLayer b c.idx) word ltag rung lad attempt lost with hu
  obtain ⟨hopen, hltag, hattempt, hrung, hlflags, hlost⟩ :=
    (s.modCtx b c (fun x => { x with lgen := x.lgen + 1 })).layerSet_shown (A.numLayer b c.idx) word ltag rung lad attempt lost
  have hrd : t.rd (A.numLayer b c.idx) = u.rd (A.numLayer b c.idx) := u.rd_wake_ne hthr hlent
  have hctx : u.ctx b c = { s.ctx b c with lgen := (s.ctx b c).lgen + 1 } :=
    s.ctx_modCtx_same b c (fun x => { x with lgen := x.lgen + 1 })
  have hwoken : t.ctx b c = { u.ctx b c with blk := none } := u.ctx_wake b c
  refine ⟨u.wake_runsAgain hb c, State.layerOpen_of_fld hc ?_, ?_, ?_, ?_, ?_, ?_, u.wake_mem b c, ?_, ?_⟩
  · rw [State.fld_of_rd hrd, hopen]
  · rw [State.fld_of_rd hrd, hltag]
  · rw [State.fld_of_rd hrd, hattempt]
  · rw [State.fld_of_rd hrd, hrung]
  · rw [State.fld_of_rd hrd, hlflags]
  · rw [State.flag, State.fld_of_rd hrd, hlost]
    cases lost <;> rfl
  · rw [State.filesKept, hwoken, hctx]
    rfl
  · rw [hwoken, hctx]

/-- An outcome closes the layer and goes to its register (06 R188). -/
theorem State.endCommit_shown (s : State) {b : Nat} (hb : b < 800) (c : Ctx) (rd : Nat) (o : Word) :
    (s.endCommit b c rd o).runsAgain b c ∧ s.scalarIs (s.endCommit b c rd o) b c rd o ∧
    (s.endCommit b c rd o).layerOpen b c = false ∧ (s.endCommit b c rd o).mem = s.mem := by
  obtain ⟨hthr, hlent, -⟩ := numLayer_apart hb (c := c)
  refine ⟨State.wake_runsAgain _ hb c, State.scalarIs_setS (State.filesKept_wake _ b c), State.layerOpen_of_closed ?_, ?_⟩
  · rw [State.endCommit, State.fld_of_rd (State.rd_wake_ne _ hthr hlent), State.fld_setFld_same _ _ _ _ (by decide), Nat.zero_mod]
  · exact (State.wake_mem ..).trans ((State.setS_same (msk := 2 ^ Part.mem.idx) rfl s b c rd _ (.refl s)).same .mem rfl)

end Sys2Proof.Machine

open Sys2Proof Sys2Proof.Machine

/-- Settles O32. -/
theorem syncAnswers : Obligations.SyncAnswers := by
  unfold Obligations.SyncAnswers
  intro b th c v i who s hc hwho hrunning
  have hb : b.val < 800 := b.isLt
  have hne : c ≠ .D := hc ▸ thread_ne_dwl th
  have hi : i.toNat < 65536 := i.isLt
  subst hwho
  refine ⟨fun w k st hblk hphase hkey hown hanswer => ⟨_, rfl, ?value⟩, fun rd a k st hblk hown hanswer => ⟨_, rfl, ?take⟩,
    fun w k keep x consume hblk hkey hown hkept hindex hname hhome hresult hcopy => ⟨_, rfl, ?notify⟩,
    fun word tag r ld since n hblk hown hanswer => ⟨_, rfl, ?opened⟩,
    fun rd word k since o hblk hown hpublished hanswer => ⟨_, rfl, ?outcome⟩,
    fun w hblk hphase htime hretry hhere hquiet => ⟨_, rfl, ?busy⟩,
    fun w hblk hphase htime hhere => ⟨_, rfl, ?backstop⟩, fun w hblk hphase htime => ⟨_, rfl, ?quota⟩⟩
  case value =>
    rw [State.syncResponse_own hown hanswer]
    set u := s.putSync { s.sync with answers := s.sync.answers.eraseIdx v.seq }
    have hwaiting : u.waiting (s.modnum * 65536 + i.toNat) (s.whoOf b c) = some (c, w) := State.waiting_whoOf (s := u) hblk hkey
    have hend : u.localAnswer i.toNat (s.whoOf b c) (.value k) = u.endWait b c w.rd k := by
      have hsome : (u.waiting (u.modnum * 65536 + i.toNat) (s.whoOf b c)).isSome = true := by
        rw [show u.modnum = s.modnum from rfl, hwaiting]; rfl
      show (if (u.waiting (u.modnum * 65536 + i.toNat) (s.whoOf b c)).isSome then _ else _) = _
      rw [if_pos hsome]
      show u.waitAnswer (s.modnum * 65536 + i.toNat) (s.whoOf b c) (.value k) = _
      simp only [State.waitAnswer, hwaiting, hphase]
      rw [if_neg (by decide)]
      exact State.waitResult_satisfied (s := u) hrunning w k
    rw [hend]
    exact u.endWait_runs hb c w.rd k
  case take =>
    rw [State.syncResponse_own hown hanswer]
    set u := s.putSync { s.sync with answers := s.sync.answers.eraseIdx v.seq }
    have hend : u.localAnswer i.toNat (s.whoOf b c) (.value k) = u.endWait b c rd k := by
      have hnone : u.waiting (u.modnum * 65536 + i.toNat) (s.whoOf b c) = none :=
        State.waiting_none (s := u) hblk (fun w h => by cases h) _
      show (if (u.waiting (u.modnum * 65536 + i.toNat) (s.whoOf b c)).isSome then _ else _) = _
      rw [hnone, if_neg (by decide)]
      have hname : u.named (s.whoOf b c) = some c := u.named_whoOf b c
      have hblk' : (u.ctx (s.whoOf b c).bench c).blk = some (.take rd a) := hblk
      simp only [State.takeAnswer, hname, hblk']
      refine State.stopLate_of_running ?_
      show (((u.setS b c rd (BitVec.ofNat 64 k)).wake b c).ctx b c).stopping = none
      rw [State.ctx_wake]
      exact (State.ctx_setS CtxSt.stopping (fun _ _ => rfl) u b c rd _).trans hrunning
    rw [hend]
    exact u.endWait_runs hb c rd k
  case notify =>
    have hfind : s.sync.kept.find? (fun k' => k'.waiter.index == i.toNat && k'.waiter.who == s.whoOf b c &&
        k'.waiter.home == s.modnum && k'.result == .satisfied k && !(s.bench (s.whoOf b c).bench).copying) = some keep := by
      have hstill : (s.bench (s.whoOf b c).bench).copying = false := hcopy
      simp [hkept, hindex, hname, hhome, hresult, hstill]
    rw [if_pos hown, hfind]
    dsimp only
    set u := s.putSync { s.sync with kept := s.sync.kept.erase keep }
    have hwaiting : u.waiting (u.cntKey (s.modnum * 65536 + i.toNat)) (s.whoOf b c) = some (c, w) :=
      State.waiting_whoOf (s := u) hblk (hkey.trans (s.cntKey_here hi).symm)
    have hend : u.deliver s.modnum i.toNat (s.whoOf b c) (.satisfied k) keep.waiter.threshold keep.waiter.consume =
        u.endWait b c w.rd k := by
      simp only [State.deliver, hwaiting]
      exact State.waitResult_satisfied (s := u) hrunning w k
    obtain ⟨hruns, hscalar, hmem⟩ := u.endWait_runs hb c w.rd k
    have hsync : (u.endWait b c w.rd k).sync = u.sync :=
      (State.endWait_same (msk := 2 ^ Part.sync.idx) rfl u b c w.rd k (.refl u)).same .sync rfl
    rw [hend]
    refine ⟨hruns, ?_, hscalar, hmem⟩
    rw [hsync]
    show s.sync.kept.erase keep = []
    rw [hkept, List.erase_cons_head]
  case opened =>
    rw [State.syncResponse_own hown hanswer]
    set u := s.putSync { s.sync with answers := s.sync.answers.eraseIdx v.seq }
    obtain ⟨hruns, hopen, hltag, hattempt, -, -, hlost, hmem, -, hstop⟩ :=
      u.openLayer_shown hb hne word tag r ld n.toNat false
    have hend : u.localAnswer i.toNat (s.whoOf b c) (.opened n.toNat) = u.openLayer b c word tag r ld n.toNat false := by
      have hname : u.named (s.whoOf b c) = some c := u.named_whoOf b c
      have hblk' : (u.ctx (s.whoOf b c).bench c).blk = some (.lopen word tag r ld since) := hblk
      show u.openAnswer (s.whoOf b c) n.toNat = _
      simp only [State.openAnswer, hname, hblk']
      exact State.stopLate_of_running (hstop.trans hrunning)
    rw [hend]
    exact ⟨hruns, hopen, hattempt.trans (Nat.mod_eq_of_lt n.isLt), hltag, hlost, hmem⟩
  case outcome =>
    rw [if_pos hown, if_pos (by simpa using hanswer)]
    set u := s.putSync { s.sync with answers := s.sync.answers.erase (i.toNat, s.whoOf b c, .outcome o) }
    have hend : u.commitOutcome (s.whoOf b c) o = u.endCommit b c rd o := by
      have hname : u.named (s.whoOf b c) = some c := u.named_whoOf b c
      have hblk' : (u.ctx (s.whoOf b c).bench c).blk = some (.lcommit rd word k since) := hblk
      have hout : bits o.toNat 2 0 ≠ 6 := fun h => hpublished (by simpa [bits] using h)
      simp only [State.commitOutcome, hname, hblk', if_neg hout]
      rfl
    rw [hend]
    exact u.endCommit_shown hb c rd o
  case busy =>
    subst hc
    simp only [hblk, hphase, htime, hretry]
    rw [if_neg (by decide), if_neg (by decide), if_pos trivial, State.sendWait_here hhere hquiet]
    exact ⟨by rw [State.ctx_modCtx_same], rfl, rfl⟩
  case backstop =>
    subst hc
    simp only [hblk, hphase, htime]
    rw [if_pos (by decide), State.sendCancel_here hhere]
    exact ⟨by rw [State.ctx_modCtx_same]; rfl, rfl, rfl⟩
  case quota =>
    subst hc
    simp only [hblk, hphase, htime]
    rw [if_pos (by decide)]
    generalize hq : List.filter _ s.tmr.waitq = q
    set u := s.putTmr { s.tmr with waitq := q }
    set y := u.syncEvent 0x50 (u.pc b th.ctx - 8) w.counter (s.whoOf b th.ctx) 4 2 with hy
    have hbenches : y.benches = s.benches := State.raise_benches ..
    have hstopping : (y.ctx b th.ctx).stopping = none := by rw [State.ctx_of_benches hbenches]; exact hrunning
    rw [State.waitFailed_running hstopping]
    obtain ⟨hruns, hscalar, hmem⟩ := y.endWait_runs hb th.ctx w.rd (2 ^ 32)
    have hevt : (y.endWait b th.ctx w.rd (2 ^ 32)).evt = y.evt :=
      (State.endWait_same (msk := 2 ^ Part.evt.idx) rfl y b th.ctx w.rd _ (.refl y)).same .evt rfl
    refine ⟨hruns, fun r => ?_, fun haccept => ?_, hmem.trans (State.raise_mem ..)⟩
    · rw [hscalar r, State.s, State.ctx_of_benches hbenches, ← State.s]
    · rw [hevt, hy, State.syncEvent, State.raised_raise]
      exact ⟨_, if_pos haccept⟩
end

section
/-!
SUPPORT. What sending over Timir leaves alone (10 R297 to R312), and how a context waits inside an instruction.
-/
namespace Sys2Proof.Machine

section
variable {msk : Nat} {was : State}

theorem State.choosePort_same (hfree : msk &&& 1073741825 = 0) (s tc m not) (hs : was.Same msk s) :
    was.Same msk (s.choosePort tc m not).1 := by
  unfold State.choosePort
  conv => zeta
  with_reducible repeat' first
    | assumption | exact free_mono hfree rfl | apply State.incSat_same | apply State.nextFresh_same
    | refine fst_same ?_ (by assumption) | refine snd_same ?_ (by assumption) | split

theorem State.draw_same (hfree : msk &&& 1073741824 = 0) (s n) (hs : was.Same msk s) : was.Same msk (s.draw n).2 := by
  unfold State.draw
  with_reducible repeat' first | assumption | exact free_mono hfree rfl | apply State.nextFresh_same

theorem State.emit_same (hfree : msk &&& 3221225473 = 0) (s p v b) (hs : was.Same msk s) : was.Same msk (s.emit p v b) := by
  unfold State.emit
  conv => zeta
  with_reducible repeat' first
    | assumption | exact free_mono hfree rfl | apply State.send_same | apply State.draw_same | apply State.incWrap_same
    | refine fst_same ?_ (by assumption) | refine snd_same ?_ (by assumption) | split

theorem State.recordFail_same (hfree : msk &&& 67108865 = 0) (s t st) (hs : was.Same msk s) : was.Same msk (s.recordFail t st) := by
  unfold State.recordFail
  conv => zeta
  with_reducible repeat' first
    | assumption | exact free_mono hfree rfl | apply State.incSat_same | apply State.setFld_same | apply State.hwSet_same | split

theorem State.transmit_same (hfree : msk &&& 3221225729 = 0) (s t) (hs : was.Same msk s) : was.Same msk (s.transmit t) := by
  unfold State.transmit
  conv => zeta
  with_reducible repeat' first
    | assumption | exact free_mono hfree rfl | apply State.putTmr_same | apply State.choosePort_same | apply State.emit_same
    | refine fst_same ?_ (by assumption) | refine snd_same ?_ (by assumption) | split

theorem State.waitSent_same (hfree : msk &&& 8 = 0) (s t) (hs : was.Same msk s) : was.Same msk (s.waitSent t) := by
  unfold State.waitSent
  with_reducible repeat' first | assumption | exact free_mono hfree rfl | apply State.modCtx_same | split

theorem State.launch_same (hfree : msk &&& 3221225737 = 0) (s t) (hs : was.Same msk s) : was.Same msk (s.launch t) := by
  unfold State.launch
  conv => zeta
  with_reducible repeat' first
    | assumption | exact free_mono hfree rfl | apply State.putTmr_same | apply State.incSat_same | apply State.transmit_same
    | apply State.waitSent_same

theorem State.submit_same (hfree : msk &&& 3288334601 = 0) (s dest kind bench ctx req owner) (hs : was.Same msk s) :
    was.Same msk (s.submit dest kind bench ctx req owner).1 := by
  unfold State.submit
  conv => zeta
  with_reducible repeat' first
    | assumption | exact free_mono hfree rfl | apply State.recordFail_same | apply State.launch_same | apply State.putTmr_same
    | refine fst_same ?_ (by assumption) | refine snd_same ?_ (by assumption) | split


end

/-! ### Registers below those of Timir -/

/-- The registers below those of Timir, among them all of the Benches, are the same. -/
def State.belowKept (s t : State) : Prop := ∀ a < A.tmrId, t.rd a = s.rd a

theorem State.belowKept.refl (s : State) : s.belowKept s := fun _ _ => rfl

theorem State.belowKept.trans {s t u : State} (h : s.belowKept t) (k : t.belowKept u) : s.belowKept u :=
  fun a ha => (k a ha).trans (h a ha)

theorem State.belowKept.setFld {s t : State} (h : s.belowKept t) {a : Nat} (f : Fld) (x : Nat) (ha : A.tmrId ≤ a) :
    s.belowKept (t.setFld a f x) :=
  fun b hb => (t.rd_setFld_ne f x (by omega)).trans (h b hb)

theorem State.belowKept.hwSet {s t : State} (h : s.belowKept t) {a : Nat} (f : Fld) (ha : A.tmrId ≤ a) : s.belowKept (t.hwSet a f) :=
  fun b hb => (t.rd_hwSet_ne f (by omega)).trans (h b hb)

theorem tmrTc_above (c : Nat) : A.tmrId ≤ A.tmrTc c := by simp only [A.tmrId, A.tmrTc]; omega

theorem tmrPortCnt_above (p : Nat) : A.tmrId ≤ A.tmrPortCnt p := by simp only [A.tmrId, A.tmrPortCnt]; omega

theorem State.choosePort_below (s : State) (tc m : Nat) (not : Option Nat) : s.belowKept (s.choosePort tc m not).1 := by
  unfold State.choosePort
  extract_lets pri a
  split
  · exact .refl s
  · rename_i ofClass counted _
    show s.belowKept counted
    unfold counted
    split
    · exact (State.belowKept.refl s).setFld (a := A.tmrStat) _ _ (by decide)
    · exact .refl s

theorem State.emit_below (s : State) (p : Option Nat) (v : Via) (x : Fab) : s.belowKept (s.emit p v x) := by
  unfold State.emit
  cases p with
  | none => exact .refl s
  | some p => exact (State.belowKept.refl s).setFld _ _ (tmrPortCnt_above p)

theorem State.transmit_below (s : State) (t : Txn) : s.belowKept (s.transmit t) := by
  unfold State.transmit
  dsimp only
  split
  · exact .refl s
  · exact (s.choosePort_below t.tc t.dest none).trans (State.emit_below _ _ _ _)

theorem State.waitSent_below (s : State) (t : Txn) : s.belowKept (s.waitSent t) :=
  fun a _ => State.rd_of_regs ((State.waitSent_same (msk := 2 ^ Part.regs.idx) rfl s t (.refl s)).same .regs rfl) a

theorem State.launch_below (s : State) (t : Txn) : s.belowKept (s.launch t) := by
  unfold State.launch
  dsimp only
  refine State.belowKept.trans ?_ (State.transmit_below _ _)
  refine State.belowKept.trans ?_ (State.waitSent_below _ _)
  exact (State.belowKept.refl s).setFld (a := A.tmrTc t.tc) _ _ (tmrTc_above _)

theorem State.recordFail_below (s : State) (t : Txn) (st : Status) : s.belowKept (s.recordFail t st) := by
  have herr : A.tmrId ≤ A.tmrErr := by decide
  have haddr : A.tmrId ≤ A.tmrErrAddr := by decide
  have hcount : s.belowKept (s.incSat A.tmrErr F.tmrErr.COUNT 1) := (State.belowKept.refl s).setFld _ _ herr
  unfold State.recordFail
  dsimp only
  split
  · exact hcount
  · exact (((((hcount.setFld _ _ herr).setFld _ _ herr).setFld _ _ herr).setFld _ _ herr).hwSet _ herr).setFld _ _ haddr

theorem State.submit_below (s : State) (dest kind bench ctx : Nat) (req : Req) (owner : Owner) :
    s.belowKept (s.submit dest kind bench ctx req owner).1 := by
  unfold State.submit
  dsimp only
  split
  · exact State.recordFail_below _ _ _
  · split
    · exact State.launch_below _ _
    · exact .refl s

/-! ### Records of contexts under a submission -/

/-- Only what a context waits in can change where a transaction becomes due. -/
theorem State.waitSent_apart {α : Type} (g : CtxSt → α) (hg : ∀ x k, g { x with blk := k } = g x) (s : State) (t : Txn) (b : Nat)
    (c : Ctx) : g ((s.waitSent t).ctx b c) = g (s.ctx b c) := by
  unfold State.waitSent
  split
  next who _ _ _ _ =>
    split
    · rfl
    next c' _ =>
      by_cases hb : b = who.bench
      · subst hb
        by_cases hc : c = c'
        · subst hc
          rw [State.ctx_modCtx_same]
          split
          · split
            · exact hg _ _
            · rfl
          · rfl
        · rw [State.ctx_modCtx_ne _ _ _ hc]
      · rw [State.modCtx, State.setCtx, State.ctx, State.bench_setBench_ne _ _ hb, State.ctx]
  · rfl

theorem State.launch_apart {α : Type} (g : CtxSt → α) (hg : ∀ x k, g { x with blk := k } = g x) (s : State) (t : Txn) (b : Nat)
    (c : Ctx) : g ((s.launch t).ctx b c) = g (s.ctx b c) := by
  unfold State.launch
  dsimp only
  rw [State.ctx_of_benches ((State.transmit_same (msk := 2 ^ Part.benches.idx) rfl _ _ (.refl _)).same .benches rfl),
    State.waitSent_apart g hg]
  rfl

theorem State.submit_apart {α : Type} (g : CtxSt → α) (hg : ∀ x k, g { x with blk := k } = g x) (s : State)
    (dest kind bench ctx : Nat) (req : Req) (owner : Owner) (b : Nat) (c : Ctx) :
    g ((s.submit dest kind bench ctx req owner).1.ctx b c) = g (s.ctx b c) := by
  unfold State.submit
  dsimp only
  split
  · rw [State.ctx_of_benches ((State.recordFail_same (msk := 2 ^ Part.benches.idx) rfl _ _ _ (.refl _)).same .benches rfl)]
  · split
    · exact State.launch_apart g hg _ _ b c
    · rfl

/-- A request that is no wait changes no record of a context. -/
theorem State.submit_benches (s : State) (dest kind bench ctx : Nat) {req : Req} (hreq : ∀ i w th consume tmo, req ≠ .sync i w (.wait th consume tmo))
    (owner : Owner) : (s.submit dest kind bench ctx req owner).1.benches = s.benches := by
  have hsent : ∀ (u : State) (t : Txn), t.req = req → u.waitSent t = u := by
    intro u t ht
    unfold State.waitSent
    split
    next he => exact absurd (ht.symm.trans he) (hreq _ _ _ _ _)
    · rfl
  unfold State.submit
  dsimp only
  split
  · exact (State.recordFail_same (msk := 2 ^ Part.benches.idx) rfl _ _ _ (.refl _)).same .benches rfl
  · split
    · unfold State.launch
      dsimp only
      rw [(State.transmit_same (msk := 2 ^ Part.benches.idx) rfl _ _ (.refl _)).same .benches rfl, hsent _ _ rfl]
      rfl
    · rfl

/-- A submission that fails changes no record of a context. -/
theorem State.submit_failed_benches {s : State} {dest kind bench ctx : Nat} {req : Req} {owner : Owner}
    (h : (s.submit dest kind bench ctx req owner).2 = true) : (s.submit dest kind bench ctx req owner).1.benches = s.benches := by
  revert h
  unfold State.submit
  dsimp only
  split
  · exact fun _ => (State.recordFail_same (msk := 2 ^ Part.benches.idx) rfl _ _ _ (.refl _)).same .benches rfl
  · split <;> exact fun h => absurd h Bool.false_ne_true

/-! ### Contexts that run on or wait inside an instruction -/

/-- A context's registers, its PC and memory are the same. -/
structure State.sameRun (s t : State) (b : Nat) (c : Ctx) : Prop where
  files : s.filesKept t b c
  pc : t.pc b c = s.pc b c
  mem : t.mem = s.mem

theorem State.sameRun.refl (s : State) (b : Nat) (c : Ctx) : s.sameRun s b c := ⟨.refl s b c, rfl, rfl⟩

theorem State.sameRun.trans {s t u : State} {b : Nat} {c : Ctx} (h : s.sameRun t b c) (k : t.sameRun u b c) : s.sameRun u b c :=
  ⟨h.files.trans k.files, k.pc.trans h.pc, k.mem.trans h.mem⟩

theorem State.sameRun.modCtx {s t : State} {b : Nat} {c : Ctx} (h : s.sameRun t b c) (f : CtxSt → CtxSt)
    (hf : ∀ x, (f x).files = x.files) (hpc : ∀ x, (f x).pc = x.pc) : s.sameRun (t.modCtx b c f) b c :=
  h.trans ⟨(State.filesKept.refl t b c).modCtx f hf, State.pc_congr rfl (by rw [State.ctx_modCtx_same, hpc]), rfl⟩

theorem State.sameRun.of_regs {s t : State} {b : Nat} {c : Ctx} (hpc : t.rd (A.benchPc b c.idx) = s.rd (A.benchPc b c.idx))
    (hbenches : t.benches = s.benches) (hmem : t.mem = s.mem) : s.sameRun t b c :=
  ⟨(State.filesKept.refl s b c).of_benches hbenches, State.pc_congr hpc (by rw [State.ctx_of_benches hbenches]), hmem⟩

/-- An instruction that issued after changes of nothing else has gone on, and changed nothing else. -/
theorem State.sameRun.done {s t : State} {b : Nat} {c : Ctx} (h : s.sameRun t b c) : (t.done b c).pc b c = s.nextPc b c ∧
    s.filesKept (t.done b c) b c ∧ (t.done b c).mem = s.mem :=
  ⟨by rw [State.pc_done, State.nextPc, h.pc, State.nextPc], h.files.trans (t.filesKept_done b c), (t.done_mem b c).trans h.mem⟩

theorem benchPc_below {b : Nat} (_ : b < 800) {c : Ctx} : A.benchPc b c.idx < A.tmrId ∧ A.benchThr b c.idx < A.tmrId ∧
    A.numLayer b c.idx < A.tmrId := by
  have hidx : c.idx < 3 := by cases c <;> decide
  simp only [A.benchPc, A.benchThr, A.numLayer, A.tmrId, benchBase, regBase]
  omega

theorem State.submit_mem (s : State) (dest kind bench ctx : Nat) (req : Req) (owner : Owner) :
    (s.submit dest kind bench ctx req owner).1.mem = s.mem :=
  (State.submit_same (msk := 2 ^ Part.mem.idx) rfl s dest kind bench ctx req owner (.refl s)).same .mem rfl

theorem State.sameRun_submit (s : State) {b : Nat} (hb : b < 800) (c : Ctx) (dest kind bench ctx : Nat) (req : Req) (owner : Owner) :
    s.sameRun (s.submit dest kind bench ctx req owner).1 b c :=
  ⟨State.submit_apart CtxSt.files (fun _ _ => rfl) .., State.pc_congr (State.submit_below _ _ _ _ _ _ _ _ (benchPc_below hb).1)
    (State.submit_apart CtxSt.pc (fun _ _ => rfl) ..), State.submit_mem ..⟩

theorem State.sameRun_raise (s : State) (b : Nat) (c : Ctx) (code source : Nat) (pay : List Byte) :
    s.sameRun (s.raise code source pay) b c :=
  .of_regs (State.rd_of_regs (State.raise_regs ..) _) (State.raise_benches ..) (State.raise_mem ..)

/-- An instruction that issued and blocks inside leaves the context blocked at the next word. -/
theorem State.sameRun.doneBlock {s t : State} {b : Nat} (hb : b < 800) {c : Ctx} (h : s.sameRun t b c) (k : Blk) :
    s.blockedFor (t.doneBlock b c k) b c k := by
  obtain ⟨hpc, hfiles, hmem⟩ := h.done
  obtain ⟨-, -, hpcThr, -⟩ := threadRegs_apart hb (c := c)
  have hctx : (t.doneBlock b c k).ctx b c = { (t.done b c).ctx b c with blk := some k } := by
    have hblk := (t.done b c).ctx_modCtx_same b c (fun x => { x with blk := some k })
    rw [State.doneBlock, State.rest, State.ctx_modBench _ _ _ (fun x d => by cases d <;> rfl)]
    cases c <;> exact hblk
  have hkept : s.filesKept (t.doneBlock b c k) b c := by
    rw [State.filesKept, hctx]
    exact hfiles
  refine ⟨by rw [hctx], fun hc => ?_, ?_, hkept.scalars, hkept.files, ?_⟩
  · cases c with
    | D => exact absurd rfl hc
    | _ => exact State.fld_setFld_same _ _ _ _ (by decide)
  · refine (State.pc_congr ?_ (by rw [hctx])).trans hpc
    cases c with
    | D => rfl
    | _ => exact State.rd_setFld_ne _ _ _ hpcThr
  · exact ((State.doneBlock_same (msk := 2 ^ Part.mem.idx) rfl t b c k (.refl t)).same .mem rfl).trans h.mem

theorem State.ctx_doneBlock {α : Type} {g : CtxSt → α} (hg : Apart g) (s : State) (b : Nat) (c : Ctx) (k : Blk) :
    g ((s.doneBlock b c k).ctx b c) = g (s.ctx b c) := by
  rw [State.doneBlock, State.rest, State.ctx_modBench _ _ _ (fun x d => by cases d <;> rfl)]
  have hblk : g (((s.done b c).modCtx b c (fun x => { x with blk := some k })).ctx b c) = g (s.ctx b c) := by
    rw [State.ctx_modCtx_same, hg.blk, State.apart_done hg]
  cases c <;> exact hblk

/-- What a blocked context waits in can be told apart later. -/
theorem State.blockedFor.modBlk {s t : State} {b : Nat} {c : Ctx} {k : Blk} (h : s.blockedFor t b c k) (k' : Blk) :
    s.blockedFor (t.modCtx b c (fun x => { x with blk := some k' })) b c k' := by
  obtain ⟨-, hstate, hpc, hscalars, ⟨hv, ht, hp⟩, hmem⟩ := h
  have hctx := t.ctx_modCtx_same b c (fun x => { x with blk := some k' })
  refine ⟨by rw [hctx], hstate, (State.pc_congr (State.rd_modCtx ..) (by rw [hctx])).trans hpc, fun r => ?_, ⟨fun r => ?_, fun r => ?_, fun r => ?_⟩, hmem⟩
  · rw [State.s, hctx]; exact hscalars r
  · rw [State.v, hctx]; exact hv r
  · rw [State.t, hctx]; exact ht r
  · rw [State.p, hctx]; exact hp r

end Sys2Proof.Machine
end

section
/-!
PROOF. SyncInstructions (04 R133 to R137; 06 R177; 11 R324 to R334).
-/
namespace Sys2Proof.Machine

theorem counterOk_of_lt {a : Word} (h : a.toNat < 2 ^ 30) : counterOk a = true := by
  simp only [counterOk, Nat.shiftRight_eq_div_pow, Nat.div_eq_of_lt h, beq_self_eq_true]

theorem State.stopping_of_issues {s : State} {b : Nat} {c : Ctx} {f : Form} (h : s.issues b c f = true) :
    (s.ctx b c).stopping = none := by
  simp only [State.issues, State.canIssue, Bool.and_eq_true, Option.isNone_iff_eq_none] at h
  exact h.1.1.1.1.1.1.2

/-- What only threads may issue, a thread has issued (04 R122). -/
theorem State.thread_of_issues {s : State} {b : Nat} {c : Ctx} {f : Form} (h : s.issues b c f = true) (hf : f.dwl = false) : c ≠ .D := by
  rintro rfl
  have hcause : formCause .D f = some 0x14 := by simp [formCause, hf]
  simp [State.issues, hcause] at h

/-- The parts of a context's record that belong to its operations. -/
theorem apart_sigs : Apart CtxSt.sigs := ⟨fun _ _ => rfl, fun _ _ => rfl, fun _ _ => rfl⟩

theorem apart_waitNo : Apart CtxSt.waitNo := ⟨fun _ _ => rfl, fun _ _ => rfl, fun _ _ => rfl⟩

theorem apart_stopping : Apart CtxSt.stopping := ⟨fun _ _ => rfl, fun _ _ => rfl, fun _ _ => rfl⟩

/-- A context that blocks inside an instruction, with its next operation number (11 R330). -/
def State.blockNext (s : State) (b : Nat) (c : Ctx) (k : Blk) : State :=
  (s.modCtx b c (fun x => { x with waitNo := x.waitNo + 1 })).doneBlock b c k

theorem State.blockNext_blocked (s : State) {b : Nat} (hb : b < 800) (c : Ctx) (k : Blk) : s.blockedFor (s.blockNext b c k) b c k :=
  ((State.sameRun.refl s b c).modCtx (fun x => { x with waitNo := x.waitNo + 1 }) (fun _ => rfl) (fun _ => rfl)).doneBlock hb k

theorem State.blockNext_same {msk : Nat} (hfree : msk &&& 9 = 0) (s : State) (b : Nat) (c : Ctx) (k : Blk) :
    s.Same msk (s.blockNext b c k) :=
  State.doneBlock_same hfree _ _ _ _ (State.modCtx_same (free_mono hfree rfl) _ _ _ _ (.refl s))

theorem State.blockNext_part {α : Type} {g : CtxSt → α} (hg : Apart g) (s : State) (b : Nat) (c : Ctx) (k : Blk) :
    g ((s.blockNext b c k).ctx b c) = g { s.ctx b c with waitNo := (s.ctx b c).waitNo + 1 } := by
  rw [State.blockNext, State.ctx_doneBlock hg, State.ctx_modCtx_same]

theorem State.blockNext_who (s : State) (b : Nat) (c : Ctx) (k : Blk) :
    (s.blockNext b c k).whoOf b c = ⟨5, b, c.code, (s.ctx b c).waitNo + 1⟩ := by
  rw [State.whoOf, State.blockNext_part apart_waitNo]

theorem State.blockNext_running {s : State} {b : Nat} {c : Ctx} (h : (s.ctx b c).stopping = none) (k : Blk) :
    ((s.blockNext b c k).ctx b c).stopping = none := (State.blockNext_part apart_stopping s b c k).trans h

/-- The registers that an instruction which blocks inside writes are its own and those of its Bench's lending. -/
theorem State.rd_blockNext_ne (s : State) {b : Nat} {c : Ctx} (k : Blk) {a : Nat} (hpc : a ≠ A.benchPc b c.idx)
    (hthr : a ≠ A.benchThr b c.idx) (hlent : a ≠ A.syncLent (b / 64)) : (s.blockNext b c k).rd a = s.rd a := by
  have hblock : ∀ t : State, (t.block b c k).rd a = t.rd a := fun t => by
    cases c with
    | D => rfl
    | _ => exact State.rd_setFld_ne _ _ _ hthr
  exact (hblock _).trans (State.rd_done_ne _ hpc hthr hlent)

theorem State.isHere_blockNext (s : State) {b : Nat} (hb : b < 800) (c : Ctx) (k : Blk) (m : Nat) :
    (s.blockNext b c k).isHere m = s.isHere m := by
  obtain ⟨hpc, hthr, -⟩ := benchPc_below hb (c := c)
  have hlent : A.tmrId ≠ A.syncLent (b / 64) := by simp only [A.tmrId, A.syncLent]; omega
  rw [State.isHere, State.modnum, State.fld_of_rd (s.rd_blockNext_ne k (Nat.ne_of_gt hpc) (Nat.ne_of_gt hthr) hlent),
    State.isHere, State.modnum]

/-- A blocked context has its registers and memory, at the next word. -/
theorem State.blockedFor.goesOn {s t u : State} {b : Nat} {c : Ctx} {k : Blk} (h : s.blockedFor t b c k) (hu : t.sameRun u b c) :
    u.pc b c = s.nextPc b c ∧ u.mem = s.mem ∧ s.scalarIs u b c 0 0 ∧ s.sameFiles u b c := by
  obtain ⟨-, -, hpc, hscalars, hfiles, hmem⟩ := h
  refine ⟨hu.pc.trans hpc, hu.mem.trans hmem, fun r => ?_, State.sameFiles_trans hfiles hu.files.files⟩
  have hr := hu.files.scalars r
  rw [if_neg (by omega)] at hr
  exact hr.trans (hscalars r)

/-- A wait that ends at once has gone on with its result. -/
theorem State.blockedFor.ended {s t u : State} {b : Nat} (hb : b < 800) {c : Ctx} {k : Blk} (h : s.blockedFor t b c k)
    (hu : t.sameRun u b c) (rd v : Nat) : (u.endWait b c rd v).pc b c = s.nextPc b c ∧ (u.endWait b c rd v).mem = s.mem ∧
    s.scalarIs (u.endWait b c rd v) b c rd (BitVec.ofNat 64 v) ∧ (u.endWait b c rd v).runsAgain b c := by
  obtain ⟨hpc, hmem, hscalars, -⟩ := h.goesOn hu
  obtain ⟨hruns, hresult, hkept⟩ := u.endWait_runs hb c rd v
  refine ⟨?_, hkept.trans hmem, fun r => ?_, hruns⟩
  · rw [State.endWait, State.pc_wake _ hb, State.pc_setS, hpc]
  · have hr := hscalars r
    rw [if_neg (by omega)] at hr
    rw [hresult r, hr]

/-- The flags of a unit are none of the registers that an instruction which goes on writes. -/
theorem flagReg_apart {b : Nat} (_ : b < 800) {u : Nat} (_ : u < 5) {c : Ctx} : flagReg b u ≠ A.benchPc b c.idx ∧
    flagReg b u ≠ A.benchThr b c.idx ∧ flagReg b u ≠ A.syncLent (b / 64) := by
  have hidx : c.idx < 3 := by cases c <;> decide
  unfold flagReg
  split <;> simp only [A.numDflag, A.numVflag, A.benchPc, A.benchThr, A.syncLent, benchBase, regBase] <;> omega

theorem State.fenceIssue_met {s : State} {b : Nat} {c : Ctx} {scope : Nat} (h : s.issues b c {} = true)
    (hmet : s.fenceMet b c scope = true) : s.fenceIssue b c scope 0 = s.done b c := by
  have hgo : s.fenceIssue b c scope 0 = if s.fenceMet b c scope then s.done b c else s.doneBlock b c (.fence scope) :=
    State.issue_of_issues h _
  rw [hgo, if_pos hmet]

theorem State.fenceIssue_unmet {s : State} {b : Nat} {c : Ctx} {scope : Nat} (h : s.issues b c {} = true)
    (hmet : s.fenceMet b c scope = false) : s.fenceIssue b c scope 0 = s.doneBlock b c (.fence scope) := by
  have hgo : s.fenceIssue b c scope 0 = if s.fenceMet b c scope then s.done b c else s.doneBlock b c (.fence scope) :=
    State.issue_of_issues h _
  rw [hgo, if_neg (by simp [hmet])]

/-- A TAKE that cannot be sent ends with zero (11 R334). -/
theorem State.takeAnswer_done {s : State} {b : Nat} {c : Ctx} {rd a : Nat} (hblk : (s.ctx b c).blk = some (.take rd a))
    (hrunning : (s.ctx b c).stopping = none) : s.takeAnswer (s.whoOf b c) .done = s.endWait b c rd 0 := by
  have hname : s.named (s.whoOf b c) = some c := s.named_whoOf b c
  have hblk' : (s.ctx (s.whoOf b c).bench c).blk = some (.take rd a) := hblk
  simp only [State.takeAnswer, hname, hblk']
  refine State.stopLate_of_running ?_
  show (((s.setS b c rd (BitVec.ofNat 64 0)).wake b c).ctx b c).stopping = none
  rw [State.ctx_wake]
  exact (State.ctx_setS CtxSt.stopping (fun _ _ => rfl) s b c rd _).trans hrunning

theorem State.sameRun_syncSend (s : State) {b : Nat} (hb : b < 800) (c : Ctx) (counter : Nat) (w : Who) (op : SyncOp) (pc : Nat) :
    s.sameRun (s.syncSend counter w op pc).1 b c := by
  unfold State.syncSend
  dsimp only
  split
  · exact .of_regs rfl rfl rfl
  · exact s.sameRun_submit hb c _ _ _ _ _ _

/-- The state in which a signal that was sent, or failed to be, is noted (11 R327, R334). -/
def State.sigNoted (x : State × Bool) (b : Nat) (c : Ctx) (a : Nat) : State :=
  if x.2 then x.1.syncEvent 0x51 (x.1.pc b c) a (x.1.whoOf b c) 1 1
  else x.1.modCtx b c (fun y => { y with sigs := x.1.cntKey a :: y.sigs })

theorem execSig_sends {s : State} {b : BenchNo} {c : Ctx} {rs : Fin 32} (h : s.issues b c { sregs := [rs.val] } = true)
    {inc : BitVec 8} (hinc : inc ≠ 0) (hlow : (s.s b c rs).toNat < 2 ^ 30)
    (hfree : (s.ctx b c).sigs.contains (s.cntKey (s.s b c rs).toNat) = false) :
    execSig b c rs inc 0 s = .next ((State.sigNoted (s.syncSend (s.s b c rs).toNat (s.whoOf b c) (.signal inc.toNat) (s.pc b c)) b c
      (s.s b c rs).toNat).done b c) := by
  have hgo : ∀ k, s.issue b c { sregs := [rs.val], rsv := (0 : BitVec 43).toNat } k = k s := State.issue_of_issues h
  have hlegal : ¬ (decide (inc = 0) || !counterOk (s.s b c rs)) = true := by
    simpa [counterOk_of_lt hlow] using hinc
  rw [execSig, hgo]
  simp only [hfree]
  rw [if_neg hlegal]
  rfl

theorem State.sigNoted_sameRun {s : State} {x : State × Bool} {b : Nat} {c : Ctx} (h : s.sameRun x.1 b c) (a : Nat) :
    s.sameRun (State.sigNoted x b c a) b c := by
  unfold State.sigNoted
  split
  · exact h.trans (State.sameRun_raise ..)
  · exact h.modCtx _ (fun _ => rfl) (fun _ => rfl)

/-- What a `WAIT` waits for (11 R325). -/
def State.waitOf (s : State) (b : Nat) (c : Ctx) (rd rs rt : Nat) (consume : Bool) (tmo : BitVec 24) : WaitSt :=
  ⟨rd, (s.s b c rs).toNat, (s.s b c rt).toNat % 2 ^ 32, consume, if tmo = 0 then s.syncDefault else tmo.toNat, s.pulse, s.pulse, .due⟩

theorem State.s_waitNo (s : State) (b : Nat) (c : Ctx) (r : Nat) :
    (s.modCtx b c (fun x => { x with waitNo := x.waitNo + 1 })).s b c r = s.s b c r := by
  rw [State.s, State.ctx_modCtx_same, State.s]

theorem execWait_sends {s : State} {b : BenchNo} {c : Ctx} {rd rs rt : Fin 32}
    (h : s.issues b c { dwl := false, sregs := [rd.val, rs.val, rt.val] } = true) (hlow : (s.s b c rs).toNat < 2 ^ 30)
    (hfree : (s.ctx b c).sigs.contains (s.cntKey (s.s b c rs).toNat) = false) (consume : Bool) (tmo : BitVec 24) :
    execWait b c rd rs rt consume tmo 0 s = .next ((s.blockNext b c (.wait (s.waitOf b c rd rs rt consume tmo))).sendWait b c
      (s.waitOf b c rd rs rt consume tmo)) := by
  have hgo : ∀ k, s.issue b c { dwl := false, sregs := [rd.val, rs.val, rt.val], rsv := (0 : BitVec 16).toNat } k = k s :=
    State.issue_of_issues h
  rw [execWait, hgo]
  simp only [counterOk_of_lt hlow, hfree, s.s_waitNo]
  rfl

theorem execTake_sends {s : State} {b : BenchNo} {c : Ctx} {rd rs rt : Fin 32}
    (h : s.issues b c { dwl := false, sregs := [rd.val, rs.val, rt.val] } = true) (hlow : (s.s b c rs).toNat < 2 ^ 30)
    (hfree : (s.ctx b c).sigs.contains (s.cntKey (s.s b c rs).toNat) = false) :
    execTake b c rd rs rt 0 s = .next (
      let d := s.blockNext b c (.take rd (s.s b c rs).toNat)
      let x := d.syncSend (s.s b c rs).toNat (d.whoOf b c) (.take ((s.s b c rt).toNat % 2 ^ 32)) (s.pc b c)
      if x.2 then (x.1.syncEvent 0x51 (s.pc b c) (s.s b c rs).toNat (x.1.whoOf b c) 1 3).takeAnswer (x.1.whoOf b c) .done else x.1) := by
  have hgo : ∀ k, s.issue b c { dwl := false, sregs := [rd.val, rs.val, rt.val], rsv := (0 : BitVec 41).toNat } k = k s :=
    State.issue_of_issues h
  have hpc : (s.modCtx b c (fun x => { x with waitNo := x.waitNo + 1 })).pc b c = s.pc b c :=
    State.pc_congr (State.rd_modCtx ..) (by rw [State.ctx_modCtx_same])
  rw [execTake, hgo]
  simp only [counterOk_of_lt hlow, hfree, s.s_waitNo, hpc]
  rfl

/-- What fails to be sent has changed no record of a context. -/
theorem State.syncSend_failed_benches {s : State} {counter : Nat} {w : Who} {op : SyncOp} {pc : Nat}
    (h : (s.syncSend counter w op pc).2 = true) : (s.syncSend counter w op pc).1.benches = s.benches := by
  revert h
  unfold State.syncSend
  dsimp only
  split
  · exact fun _ => rfl
  · exact fun h => State.submit_failed_benches h

theorem State.syncSend_far_benches (s : State) (counter : Nat) (w : Who) {op : SyncOp} (hop : ∀ th consume tmo, op ≠ .wait th consume tmo)
    (pc : Nat) : (s.syncSend counter w op pc).1.benches = s.benches := by
  unfold State.syncSend
  dsimp only
  split
  · rfl
  · exact s.submit_benches _ _ _ _ (fun i w' th consume tmo h => hop th consume tmo (by injection h)) _

/-- A wait's request is sent or held at its source, or fails at once (11 R325, R334). -/
theorem State.sendWait_ends (s : State) {b : Nat} (hb : b < 800) (c : Ctx) (w : WaitSt) : ∃ x, s.sameRun x b c ∧
    ((∃ w', s.sendWait b c w = x.modCtx b c (fun y => { y with blk := some (.wait w') })) ∨
      x.benches = s.benches ∧ s.sendWait b c w = x.waitFailed b c w) := by
  have hrun := s.sameRun_syncSend hb c w.counter (s.whoOf b c) (.wait w.threshold w.consume w.tmo) (s.pc b c - 8)
  have hbenches := State.syncSend_failed_benches (s := s) (counter := w.counter) (w := s.whoOf b c)
    (op := .wait w.threshold w.consume w.tmo) (pc := s.pc b c - 8)
  unfold State.sendWait
  dsimp only
  generalize s.syncSend w.counter (s.whoOf b c) (.wait w.threshold w.consume w.tmo) (s.pc b c - 8) = p at hrun hbenches ⊢
  obtain ⟨x, failed⟩ := p
  cases failed with
  | true => exact ⟨x.syncEvent 0x51 (x.pc b c - 8) w.counter (s.whoOf b c) 1 2, hrun.trans (State.sameRun_raise ..), .inr ⟨(State.raise_benches ..).trans (hbenches rfl), rfl⟩⟩
  | false => exact ⟨x, hrun, .inl ⟨_, rfl⟩⟩

end Sys2Proof.Machine

open Sys2Proof Sys2Proof.Machine

/-- Settles O28. -/
theorem syncInstructions : Obligations.SyncInstructions := by
  unfold Obligations.SyncInstructions
  intro b c rd rs rt inc consume tmo u clr s a next ha hnext
  have hb : b.val < 800 := b.isLt
  refine ⟨fun h hinc hlow hfree => ⟨fun hhere => ?sigHere, fun hfar => ?sigFar⟩,
    fun h hlow hfree => ⟨fun hhere hquiet => ⟨fun us hus => ?waitHere, ?takeHere⟩, fun hfar => ⟨?waitFar, ?takeFar⟩⟩,
    fun h q hq => ⟨fun hmet => ?fenceMet, fun hmet => ?fenceUnmet⟩, fun scope hblk hmet => ⟨_, rfl, ?fenceComplete⟩,
    fun h hu => ⟨_, rfl, ?flagr⟩, fun h hu => ⟨_, rfl, ?flagc⟩⟩
  case sigHere =>
    subst ha
    have hsend := State.syncSend_here hhere (s.whoOf b c) (.signal inc.toNat) (s.pc b c)
    have hrun := State.sigNoted_sameRun (s.sameRun_syncSend hb c (s.s b c rs).toNat (s.whoOf b c) (.signal inc.toNat) (s.pc b c))
      (s.s b c rs).toNat
    obtain ⟨hpc, hfiles, hmem⟩ := hrun.done
    refine ⟨_, execSig_sends h hinc hlow hfree, hpc, hfiles.scalars, hfiles.files, hmem, ?_, ?_⟩
    · rw [(State.done_same (msk := 2 ^ Part.sync.idx) rfl _ b c (.refl _)).same .sync rfl, hsend]
      rfl
    · rw [State.apart_done apart_sigs, hsend]
      rw [State.sigNoted, if_neg Bool.false_ne_true, State.ctx_modCtx_same]
      rfl
  case sigFar =>
    subst ha
    obtain ⟨hpc, hfiles, hmem⟩ := (State.sigNoted_sameRun (s.sameRun_syncSend hb c (s.s b c rs).toNat (s.whoOf b c)
      (.signal inc.toNat) (s.pc b c)) (s.s b c rs).toNat).done
    exact ⟨_, execSig_sends h hinc hlow hfree, hpc, hfiles.scalars, hfiles.files, hmem⟩
  case waitHere =>
    subst ha hnext hus
    have hblocked := s.blockNext_blocked hb c (.wait (s.waitOf b c rd rs rt consume tmo))
    have hwho := s.blockNext_who b c (.wait (s.waitOf b c rd rs rt consume tmo))
    have hsame := s.blockNext_same (msk := 2 ^ Part.tmr.idx + 2 ^ Part.sync.idx + 2 ^ Part.pulse.idx) rfl b c
      (.wait (s.waitOf b c rd rs rt consume tmo))
    have hsend := State.sendWait_here (s := s.blockNext b c (.wait (s.waitOf b c rd rs rt consume tmo))) (b := b) (c := c)
      (w := s.waitOf b c rd rs rt consume tmo) ((s.isHere_blockNext hb c _ _).trans hhere) (by
        rw [hwho, State.noWait, hsame.same .tmr rfl]
        exact hquiet)
    rw [hwho, hsame.same .sync rfl, hsame.same .pulse rfl] at hsend
    refine ⟨_, execWait_sends h hlow hfree consume tmo, ?_⟩
    rw [hsend]
    exact ⟨hblocked.modBlk _, by rw [State.whoOf, State.ctx_modCtx_same]; exact hwho, rfl⟩
  case takeHere =>
    subst ha hnext
    have hblocked := s.blockNext_blocked hb c (.take rd (s.s b c rs).toNat)
    have hwho := s.blockNext_who b c (.take rd (s.s b c rs).toNat)
    have hsame := s.blockNext_same (msk := 2 ^ Part.sync.idx) rfl b c (.take rd (s.s b c rs).toNat)
    refine ⟨_, execTake_sends h hlow hfree, ?_⟩
    dsimp only
    rw [State.syncSend_here ((s.isHere_blockNext hb c _ _).trans hhere), hwho, hsame.same .sync rfl, if_neg Bool.false_ne_true]
    exact ⟨hblocked, hwho, rfl⟩
  case waitFar =>
    subst ha
    refine ⟨_, execWait_sends h hlow hfree consume tmo, ?_⟩
    set w := s.waitOf b c rd rs rt consume tmo
    have hblocked := s.blockNext_blocked hb c (.wait w)
    obtain ⟨x, hrun, ⟨w', hsent⟩ | ⟨hbenches, hfailed⟩⟩ := (s.blockNext b c (.wait w)).sendWait_ends hb c w
    · rw [hsent]
      obtain ⟨hpc, hmem, hscalars, -⟩ := hblocked.goesOn (hrun.modCtx (fun y => { y with blk := some (.wait w') }) (fun _ => rfl)
        (fun _ => rfl))
      exact ⟨hpc, hmem, .inl ⟨hscalars, w', by rw [State.ctx_modCtx_same]⟩⟩
    · have hrunning : (x.ctx b c).stopping = none := by
        rw [State.ctx_of_benches hbenches]
        exact State.blockNext_running (State.stopping_of_issues h) _
      rw [hfailed, State.waitFailed_running hrunning]
      obtain ⟨hpc, hmem, hresult, hruns⟩ := hblocked.ended hb hrun w.rd (2 ^ 32)
      exact ⟨hpc, hmem, .inr ⟨hresult, hruns⟩⟩
  case takeFar =>
    subst ha
    refine ⟨_, execTake_sends h hlow hfree, ?_⟩
    dsimp only
    set d := s.blockNext b c (.take rd (s.s b c rs).toNat) with hd
    have hblocked : s.blockedFor d b c (.take rd (s.s b c rs).toNat) := s.blockNext_blocked hb c _
    have hblk : (d.ctx b c).blk = some (.take rd (s.s b c rs).toNat) := hblocked.1
    have hrunning : (d.ctx b c).stopping = none := State.blockNext_running (State.stopping_of_issues h) _
    have hrun := d.sameRun_syncSend hb c (s.s b c rs).toNat (d.whoOf b c) (.take ((s.s b c rt).toNat % 2 ^ 32)) (s.pc b c)
    have hbenches := d.syncSend_far_benches (s.s b c rs).toNat (d.whoOf b c) (op := .take ((s.s b c rt).toNat % 2 ^ 32))
      (by simp) (s.pc b c)
    generalize d.syncSend (s.s b c rs).toNat (d.whoOf b c) (.take ((s.s b c rt).toNat % 2 ^ 32)) (s.pc b c) = p at hrun hbenches ⊢
    obtain ⟨x, failed⟩ := p
    cases failed with
    | true =>
      set y := x.syncEvent 0x51 (s.pc b c) (s.s b c rs).toNat (x.whoOf b c) 1 3
      have hraised : y.benches = x.benches := State.raise_benches ..
      have hctx : y.ctx b c = d.ctx b c := State.ctx_of_benches (hraised.trans hbenches) b c
      have hwho : x.whoOf b c = y.whoOf b c := by rw [State.whoOf, State.whoOf, State.ctx_of_benches hraised]
      rw [if_pos rfl, hwho, State.takeAnswer_done (hctx ▸ hblk) (hctx ▸ hrunning)]
      obtain ⟨hpc, hmem, hresult, hruns⟩ := hblocked.ended hb (hrun.trans (State.sameRun_raise ..)) rd 0
      exact ⟨hpc, hmem, .inr ⟨hresult, hruns⟩⟩
    | false =>
      rw [if_neg Bool.false_ne_true]
      obtain ⟨hpc, hmem, hscalars, -⟩ := hblocked.goesOn hrun
      exact ⟨hpc, hmem, .inl ⟨hscalars, by rw [State.ctx_of_benches hbenches, hblk]⟩⟩
  case fenceMet =>
    simp only [List.mem_cons, List.not_mem_nil, or_false] at hq
    obtain rfl | rfl | rfl := hq <;> exact ⟨_, rfl, (State.fenceIssue_met h hmet).symm ▸ s.wentOn_done b c⟩
  case fenceUnmet =>
    simp only [List.mem_cons, List.not_mem_nil, or_false] at hq
    obtain rfl | rfl | rfl := hq <;>
      exact ⟨_, rfl, (State.fenceIssue_unmet h hmet).symm ▸ (State.sameRun.refl s b c).doneBlock hb _⟩
  case fenceComplete =>
    simp only [hblk, hmet, if_true]
    exact ⟨s.wake_runsAgain hb c, s.pc_wake hb c, (s.filesKept_wake b c).scalars, s.wake_mem b c⟩
  case flagr =>
    have hgo : ∀ k, s.issue b c { dwl := false, sregs := [rd.val], rsv := (0 : BitVec 15).toNat + (0 : BitVec 33).toNat } k = k s :=
      State.issue_of_issues h
    rw [hgo, if_neg (by omega)]
    exact s.wroteS_done ..
  case flagc =>
    have hgo : ∀ k, s.issue b c { dwl := false, rsv := (0 : BitVec 20).toNat + (0 : BitVec 29).toNat } k = k s :=
      State.issue_of_issues h
    obtain ⟨hflagPc, hflagThr, hflagLent⟩ := flagReg_apart hb hu (c := c)
    rw [hgo, if_neg (by omega)]
    generalize hv : s.rd (flagReg b u) &&& ~~~(clr.setWidth 64 &&& ~~~(FMap.getD s.cyc.set (flagReg b u) 0)) = v
    have hrun : s.sameRun (s.wr (flagReg b u) v) b c := .of_regs (s.rd_wr_ne _ hflagPc.symm) rfl rfl
    obtain ⟨hpc, hfiles, hmem⟩ := hrun.done
    refine ⟨hpc, hfiles.scalars, hfiles.files, hmem, fun k hk => ?_⟩
    rw [State.rd_done_ne _ hflagPc hflagThr hflagLent, State.rd_wr_same, ← hv]
    simp [hk]
end

section
/-!
PROOF. LayerInstructions (06 R186, R188, R191, R193; 11 R334).
-/
namespace Sys2Proof.Machine

/-- A layer that opens changes no register of its thread, and not its PC. -/
theorem State.openLayer_sameRun (s : State) {b : Nat} (hb : b < 800) {c : Ctx} (hc : c ≠ .D) (word ltag rung lad attempt : Nat) (lost : Bool) :
    s.sameRun (s.openLayer b c word ltag rung lad attempt lost) b c := by
  obtain ⟨-, -, -, -, -, -, -, hmem, hfiles, -⟩ := s.openLayer_shown hb hc word ltag rung lad attempt lost
  obtain ⟨-, -, hlayerPc⟩ := numLayer_apart hb (c := c)
  refine ⟨hfiles, ?_, hmem⟩
  rw [State.openLayer_eq, State.pc_wake _ hb, State.pc_thread hc, State.pc_thread hc]
  refine State.fld_of_rd ?_ _ ▸ rfl
  unfold State.layerSet
  iterate 8 rw [State.rd_setFld_ne _ _ _ hlayerPc.symm]
  rfl

/-- A layer that opens without its word is LOST, with its event raised, and its thread goes on (06 R186). -/
theorem State.openLost_eq {s : State} {b : Nat} (hb : b < 800) {c : Ctx} (hc : c ≠ .D) (h : (s.ctx b c).stopping = none)
    (word ltag rung lad : Nat) : s.openLost b c word ltag rung lad = (s.openLayer b c word ltag rung lad 0 true).lostEvent b c word ltag := by
  obtain ⟨-, -, -, -, -, -, -, -, -, hstop⟩ := s.openLayer_shown hb hc word ltag rung lad 0 true
  have hraised : ((s.openLayer b c word ltag rung lad 0 true).lostEvent b c word ltag).benches =
      (s.openLayer b c word ltag rung lad 0 true).benches := State.raise_benches ..
  exact State.stopLate_of_running (by rw [State.ctx_of_benches hraised, hstop, h])

/-- A layer that opens without its word shows its tag and its rung, LOST and no flag. -/
theorem State.openLost_shown {s : State} {b : Nat} (hb : b < 800) {c : Ctx} (hc : c ≠ .D) (h : (s.ctx b c).stopping = none)
    (word ltag rung lad : Nat) : let t := s.openLost b c word ltag rung lad
    t.runsAgain b c ∧ t.layerOpen b c = true ∧ t.flag (A.numLayer b c.idx) F.numLayer.LOST = true ∧
    t.fld (A.numLayer b c.idx) F.numLayer.LTAG = ltag % 65536 ∧ t.fld (A.numLayer b c.idx) F.numLayer.RUNG = rung % 4 ∧
    t.fld (A.numLayer b c.idx) F.numLayer.LFLAGS = 0 ∧ s.sameRun t b c := by
  obtain ⟨⟨hblk, hstate⟩, hopen, hltag, -, hrung, hlflags, hlost, -, -, -⟩ := s.openLayer_shown hb hc word ltag rung lad 0 true
  have hrun := s.openLayer_sameRun hb hc word ltag rung lad 0 true
  rw [State.openLost_eq hb hc h]
  set u := s.openLayer b c word ltag rung lad 0 true
  intro t
  have hbenches : t.benches = u.benches := State.raise_benches ..
  have hrd : ∀ a, t.rd a = u.rd a := State.rd_of_regs (State.raise_regs ..)
  have hfld : ∀ a f, t.fld a f = u.fld a f := fun a f => State.fld_of_rd (hrd a) f
  refine ⟨⟨by rw [State.ctx_of_benches hbenches, hblk], fun hc => (hfld _ _).trans (hstate hc)⟩, ?_, ?_, (hfld _ _).trans hltag,
    (hfld _ _).trans hrung, (hfld _ _).trans hlflags, hrun.trans (State.sameRun_raise ..)⟩
  · rw [State.layerOpen, State.flag, hfld]
    exact hopen
  · rw [State.flag, hfld]
    exact hlost

theorem execLopen_sends {s : State} {b : BenchNo} {c : Ctx} {rs : Fin 32} {ltag : BitVec 16} {rung : Fin 4} {lad : Fin 2}
    (h : s.issues b c { dwl := false, sregs := [rs.val] } = true) (hclosed : s.layerOpen b c = false)
    (hlow : (s.s b c rs).toNat < 2 ^ 30) (hword : (s.s b c rs).toNat % 4 = 0) (hlad : lad = 1 → rung.val ≤ 2) :
    execLopen b c rs ltag rung lad 0 s = .next (
      let d := s.blockNext b c (.lopen (s.s b c rs).toNat ltag.toNat rung lad s.pulse)
      let x := d.syncSend (s.s b c rs).toNat (d.whoOf b c) (.openWord ltag.toNat rung lad) (s.pc b c)
      if x.2 then (x.1.syncEvent 0x51 (s.pc b c) (s.s b c rs).toNat (x.1.whoOf b c) 1 6).openLost b c (s.s b c rs).toNat ltag.toNat rung lad
      else x.1) := by
  have hgo : ∀ k, s.issue b c { dwl := false, sregs := [rs.val], rsv := (0 : BitVec 32).toNat } k = k s := State.issue_of_issues h
  have hpc : (s.modCtx b c (fun x => { x with waitNo := x.waitNo + 1 })).pc b c = s.pc b c :=
    State.pc_congr (State.rd_modCtx ..) (by rw [State.ctx_modCtx_same])
  have hlegal : (!counterOk (s.s b c rs) || (s.s b c rs).toNat % 4 != 0 || (lad.val == 1 && decide (rung.val > 2))) = false := by
    have hrung : (lad.val == 1 && decide (rung.val > 2)) = false := by
      by_cases hl : lad = 1
      · have := hlad hl
        simp [Nat.not_lt.2 this]
      · have hne : lad.val ≠ 1 := fun e => hl (Fin.ext e)
        simp [hne]
    rw [counterOk_of_lt hlow, hword, hrung]
    rfl
  rw [execLopen, hgo]
  simp only [hclosed, hlegal, hpc]
  rfl

/-- An LCOMMIT that issues on a legal word acts by the layer of its thread (06 R188). -/
theorem execLcommit_acts {s : State} {b : BenchNo} {c : Ctx} {rd rs rt : Fin 32}
    (h : s.issues b c { dwl := false, sregs := [rd.val, rs.val, rt.val] } = true) (hlow : (s.s b c rs).toNat < 2 ^ 30)
    (hn : (s.s b c rt).toNat % 65536 ≠ 0) : execLcommit b c rd rs rt 0 s = .next (
      if s.layerOpen b c = false then (s.setS b c rd (outcomeWord 7 0 0 0 0 0)).done b c
      else if s.flag (A.numLayer b c.idx) F.numLayer.LOST = true then
        ((s.setS b c rd (s.ownOutcome b c 5 0)).setFld (A.numLayer b c.idx) F.numLayer.OPEN 0).done b c
      else s.blockNext b c (.lcommitFence rd (s.s b c rs).toNat ((s.s b c rt).toNat % 65536) s.pulse)) := by
  have hgo : ∀ k, s.issue b c { dwl := false, sregs := [rd.val, rs.val, rt.val], rsv := (0 : BitVec 41).toNat } k = k s :=
    State.issue_of_issues h
  have hlegal : ¬ (decide ((s.s b c rt).toNat % 65536 = 0) || !counterOk (s.s b c rs)) = true := by
    simpa [counterOk_of_lt hlow] using hn
  rw [execLcommit, hgo]
  dsimp only
  rw [if_neg hlegal]
  cases s.layerOpen b c <;> rfl

end Sys2Proof.Machine

open Sys2Proof Sys2Proof.Machine

/-- Settles O29. -/
theorem layerInstructions : Obligations.LayerInstructions := by
  unfold Obligations.LayerInstructions
  intro b c th rd rs rt ltag rung lad s a n l ha hn hl
  have hb : b.val < 800 := b.isLt
  obtain ⟨hlayerThr, hlayerLent, hlayerPc⟩ := numLayer_apart hb (c := c)
  subst ha hn hl
  refine ⟨fun h hclosed hlow hword hlad => ⟨fun hhere => ⟨_, execLopen_sends h hclosed hlow hword hlad, ?openHere⟩,
      fun hfar => ⟨_, execLopen_sends h hclosed hlow hword hlad, ?openFar⟩⟩,
    fun h hn hlow => ⟨fun hclosed => ⟨_, execLcommit_acts h hlow hn, ?commitOutside⟩,
      fun hopen hlost => ⟨_, execLcommit_acts h hlow hn, ?commitLost⟩, fun hopen hlost => ⟨_, execLcommit_acts h hlow hn, ?commitBlocks⟩⟩,
    fun hc word k since hblk hfence hmerges hhere => ⟨_, rfl, ?arrivalSend⟩,
    fun hc word tag r ld since hblk hrunning htime => ⟨_, rfl, ?timeout⟩, fun hc trap habort hwork hhere => ⟨_, rfl, ?abort⟩⟩
  case openHere =>
    have hblocked := s.blockNext_blocked hb c (.lopen (s.s b c rs).toNat ltag.toNat rung lad s.pulse)
    have hsame := s.blockNext_same (msk := 2 ^ Part.sync.idx) rfl b c (.lopen (s.s b c rs).toNat ltag.toNat rung lad s.pulse)
    dsimp only
    rw [State.syncSend_here ((s.isHere_blockNext hb c _ _).trans hhere), hsame.same .sync rfl, if_neg Bool.false_ne_true]
    exact ⟨hblocked, rfl⟩
  case openFar =>
    dsimp only
    set d := s.blockNext b c (.lopen (s.s b c rs).toNat ltag.toNat rung lad s.pulse) with hd
    have hblocked : s.blockedFor d b c (.lopen (s.s b c rs).toNat ltag.toNat rung lad s.pulse) := s.blockNext_blocked hb c _
    have hrunning : (d.ctx b c).stopping = none := State.blockNext_running (State.stopping_of_issues h) _
    have hrun := d.sameRun_syncSend hb c (s.s b c rs).toNat (d.whoOf b c) (.openWord ltag.toNat rung lad) (s.pc b c)
    have hbenches := d.syncSend_far_benches (s.s b c rs).toNat (d.whoOf b c) (op := .openWord ltag.toNat rung lad) (by simp) (s.pc b c)
    generalize d.syncSend (s.s b c rs).toNat (d.whoOf b c) (.openWord ltag.toNat rung lad) (s.pc b c) = p at hrun hbenches ⊢
    obtain ⟨x, failed⟩ := p
    cases failed with
    | true =>
      set y := x.syncEvent 0x51 (s.pc b c) (s.s b c rs).toNat (x.whoOf b c) 1 6
      have hraised : y.benches = x.benches := State.raise_benches ..
      have hstopping : (y.ctx b c).stopping = none := by rw [State.ctx_of_benches (hraised.trans hbenches), hrunning]
      obtain ⟨hruns, hopen, hlost, -, -, -, hafter⟩ := State.openLost_shown hb (State.thread_of_issues h rfl) hstopping
        (s.s b c rs).toNat ltag.toNat rung lad
      obtain ⟨hpc, hmem, hscalars, hfiles⟩ := hblocked.goesOn ((hrun.trans (State.sameRun_raise ..)).trans hafter)
      exact ⟨hpc, hscalars, hfiles, hmem, .inr ⟨hruns, hopen, hlost⟩⟩
    | false =>
      obtain ⟨hpc, hmem, hscalars, hfiles⟩ := hblocked.goesOn hrun
      exact ⟨hpc, hscalars, hfiles, hmem, .inl (by rw [if_neg Bool.false_ne_true, State.ctx_of_benches hbenches]; exact hblocked.1)⟩
  case commitOutside =>
    rw [if_pos hclosed]
    exact s.wroteS_done b c rd 7
  case commitLost =>
    rw [if_neg (by rw [hopen]; decide), if_pos hlost]
    set u := (s.setS b c rd (s.ownOutcome b c 5 0)).setFld (A.numLayer b c.idx) F.numLayer.OPEN 0
    refine ⟨State.scalarIs_setS (u.filesKept_done b c), ?_, State.layerOpen_of_closed ?_⟩
    · have hpc : u.pc b c = s.pc b c := by
        rw [← s.pc_setS b c rd (s.ownOutcome b c 5 0)]
        exact State.pc_congr (State.rd_setFld_ne _ _ _ hlayerPc.symm) rfl
      rw [u.pc_done, State.nextPc, hpc, State.nextPc]
    · rw [State.fld_of_rd (u.rd_done_ne hlayerPc hlayerThr hlayerLent), State.fld_setFld_same _ _ _ _ (by decide), Nat.zero_mod]
  case commitBlocks =>
    rw [if_neg (by rw [hopen]; decide), if_neg (by rw [hlost]; decide)]
    exact s.blockNext_blocked hb c _
  case arrivalSend =>
    subst hc
    simp only [hblk, hfence, hmerges, Bool.and_self, if_true, State.sendArrival, State.syncSend_here hhere]
    rw [if_neg Bool.false_ne_true]
    refine ⟨by rw [State.ctx_modCtx_same]; rfl, State.filesKept.scalars ?_, rfl, rfl⟩
    rw [State.filesKept, State.ctx_modCtx_same]
    rfl
  case timeout =>
    subst hc
    simp only [hblk, htime, if_true]
    obtain ⟨hruns, hopen, hlost, hltag, hrung, hlflags, hrun⟩ := State.openLost_shown hb (thread_ne_dwl th) hrunning word tag r ld
    exact ⟨hruns, hopen, hlost, hltag, hrung, hlflags, hrun.mem⟩
  case abort =>
    subst hc
    simp only [habort, hwork, State.syncSend_here hhere]
    rw [if_neg (by decide), if_neg Bool.false_ne_true]
    refine ⟨?_, State.layerOpen_of_closed ?_, rfl, rfl⟩
    · rw [State.ctx_setFld, State.ctx_modCtx_same]
    · exact (State.fld_setFld_same _ _ _ _ (by decide)).trans (Nat.zero_mod _)
end

section
/-!
PROOF. CountersAtHome and WaitersAreServed (11 R324 to R333; 06 R185).
-/
namespace Sys2Proof.Machine

section
variable {msk : Nat} {was : State}

theorem State.reply_same (hfree : msk &&& 3221225473 = 0) (s v b) (hs : was.Same msk s) : was.Same msk (s.reply v b) := by
  unfold State.reply
  with_reducible repeat' first | assumption | exact free_mono hfree rfl | apply State.choosePort_same | apply State.emit_same

theorem State.performed_same (hfree : msk &&& 256 = 0) (s v a) (hs : was.Same msk s) : was.Same msk (s.performed v a) := by
  unfold State.performed
  conv => zeta
  with_reducible repeat' first | assumption | exact free_mono hfree rfl | apply State.putTmr_same | split


end

/-! ### The way to the home and back (10 R299 to R302) -/

/-- From `o` to `t` the table, memory and the Sideboards stay as they are, and of the sync table's record at most the answers on
their way change. -/
structure State.HomeKept (o t : State) : Prop where
  table : o.TableKept t
  mem : t.mem = o.mem
  sbd : t.sbd = o.sbd
  sync : ∃ answers, t.sync = { o.sync with answers := answers }

/-- The entries of the table are none of the registers beside it. -/
theorem not_besideTable {j : Nat} (hj : j < 65536) : ¬ besideTable (A.syncCnt j) := by
  simp only [besideTable, A.syncCnt, A.syncTmo]
  omega

theorem State.HomeKept.counter {o t : State} (h : o.HomeKept t) {j : Nat} (hj : j < 65536) : t.counter j = o.counter j :=
  State.fld_of_rd (h.table.rd _ (not_besideTable hj)) _

theorem State.HomeKept.flag {o t : State} (h : o.HomeKept t) {j : Nat} (hj : j < 65536) (f : Fld) :
    t.flag (A.syncCnt j) f = o.flag (A.syncCnt j) f := by
  rw [State.flag, State.fld_of_rd (h.table.rd _ (not_besideTable hj)), State.flag]

/-- An answer to another module changes neither the table nor memory nor the Sideboards. -/
theorem State.answered_homeKept (s : State) (v : Via) (a : SyncAns) : s.HomeKept ((s.performed v a).reply v (.syncc .ok a)) := by
  have hsame : s.Same (2 ^ Part.mem.idx + 2 ^ Part.sbd.idx + 2 ^ Part.sync.idx) ((s.performed v a).reply v (.syncc .ok a)) :=
    State.reply_same rfl _ _ _ (State.performed_same rfl _ _ _ (.refl s))
  exact ⟨((TableKept.refl s).performed ..).reply .., hsame.same .mem rfl, hsame.same .sbd rfl,
    s.sync.answers, hsame.same .sync rfl⟩

/-- An operation that reaches its home is performed, and its answer sets out (10 R301; 11 R328). -/
theorem State.atHome_performed {s : State} {v : Via} {i m : Nat} {who : Who} {op : SyncOp} (h : s.reaches v i who op m)
    (hop : ∀ u : State, u.syncHeld who op = false) (perform : State → Nat → State × SyncAns) :
    ∃ inbox tmr, (perform (s.tookIn inbox tmr) m).1.HomeKept (s.atHome v i who op perform) ∧
      (s.isOwn v = true → (s.atHome v i who op perform).sync.answers =
        (perform (s.tookIn inbox tmr) m).1.sync.answers ++ [(i, who, (perform (s.tookIn inbox tmr) m).2)]) := by
  unfold State.atHome
  obtain ⟨hown, hinbox, rfl⟩ | ⟨hown, hup, hme, hfresh, rfl⟩ := h
  · rw [if_pos hown, if_pos (List.contains_iff_mem.2 hinbox)]
    exact ⟨s.sync.inbox.erase (i, who, op), s.tmr, ⟨(TableKept.refl _).put rfl rfl rfl, rfl, rfl, _, rfl⟩, fun _ => rfl⟩
  · obtain ⟨tmr, htmr⟩ := s.arrive_putTmr v
    rw [if_neg (by simp [hown]), if_neg (by simp [hup]), if_neg (by simp [hme])]
    dsimp only
    rw [hfresh, htmr]
    dsimp only
    rw [hop, if_neg Bool.false_ne_true]
    exact ⟨s.sync.inbox, tmr, State.answered_homeKept _ _ _, fun h => absurd h (by simp [hown])⟩

/-! ### Operations on an unarmed counter -/

theorem State.flag_setCounter_ne (s : State) (i v j : Nat) {f : Fld} (hf : f.ok) (hlow : 31 < f.lo) :
    (s.setCounter i v).flag (A.syncCnt j) f = s.flag (A.syncCnt j) f := by
  have hfld : (s.setCounter i v).fld (A.syncCnt j) f = s.fld (A.syncCnt j) f := by
    by_cases h : j = i
    · subst h
      exact s.fld_setFld_field _ _ _ _ (by decide) hf (.inr hlow)
    · exact s.fld_setFld_ne _ _ _ (mt A.syncCnt_inj.1 h)
  simp only [State.flag, hfld]

/-- The flag that sticks, by the direction that the value left its range in (11 R324). -/
def stickFld (udf : Bool) : Fld := if udf then F.syncCnt.UDF else F.syncCnt.OVF

theorem stickFld_ok (udf : Bool) : (stickFld udf).ok ∧ 31 < (stickFld udf).lo := by cases udf <;> decide

theorem State.stick_eq (s : State) (i m : Nat) (w : Who) (udf : Bool) : s.stick i m w udf =
    if s.flag (A.syncCnt i) (stickFld udf) then s
    else (s.hwSet (A.syncCnt i) (stickFld udf)).raise 0x53 (evSource 4 0)
      (leBytes 2 i ++ leBytes 2 m ++ leBytes 2 (whoWord w) ++ [if udf then 2 else 1]) := by
  cases udf <;> rfl

/-- A flag sticks at its counter, and no value changes. -/
theorem State.stick_shown (s : State) (i m : Nat) (w : Who) (udf : Bool) :
    (s.stick i m w udf).flag (A.syncCnt i) (stickFld udf) = true ∧ (∀ j, (s.stick i m w udf).counter j = s.counter j) ∧
    (s.stick i m w udf).sync = s.sync ∧ (s.stick i m w udf).mem = s.mem ∧ (s.stick i m w udf).sbd = s.sbd := by
  obtain ⟨hok, hlow⟩ := stickFld_ok udf
  rw [State.stick_eq]
  split
  next hset => exact ⟨hset, fun _ => rfl, rfl, rfl, rfl⟩
  next =>
    have hsame := State.raise_same (msk := 2 ^ Part.sync.idx + 2 ^ Part.mem.idx + 2 ^ Part.sbd.idx) rfl
      (s.hwSet (A.syncCnt i) (stickFld udf)) 0x53 (evSource 4 0)
      (leBytes 2 i ++ leBytes 2 m ++ leBytes 2 (whoWord w) ++ [if udf then 2 else 1]) (.refl _)
    refine ⟨?_, fun j => ?_, hsame.same .sync rfl, hsame.same .mem rfl, hsame.same .sbd rfl⟩
    · rw [State.flag, State.fld_of_rd (State.rd_of_regs (State.raise_regs ..) _)]
      exact s.flag_hwSet_same _ hok
    · rw [State.counter, State.fld_of_rd (State.rd_of_regs (State.raise_regs ..) _)]
      by_cases hj : j = i
      · subst hj
        exact s.fld_hwSet_field _ hlow
      · exact State.fld_of_rd (s.rd_hwSet_ne _ (mt A.syncCnt_inj.1 hj)) _

/-- Where no waiter record is of a counter, none is examined (11 R326). -/
theorem State.examine_none {s : State} {i : Nat} (h : ∀ r ∈ s.sync.waiters, r.index ≠ i) : s.examine i = s := by
  unfold State.examine
  generalize s.sync.waiters = l at h
  induction l with
  | nil => rfl
  | cons r l ih =>
    have hr : r.index ≠ i := h r (List.mem_cons_self ..)
    rw [List.foldl_cons, if_neg (by simp [hr])]
    exact ih fun x hx => h x (List.mem_cons_of_mem _ hx)

/-- The counter with the value raised, and OVF where it saturates (11 R324). -/
def State.raised (s : State) (i inc m : Nat) (w : Who) : State :=
  if s.counter i + inc > 0xFFFFFFFF then (s.setCounter i (min (s.counter i + inc) 0xFFFFFFFF)).stick i m w false
  else s.setCounter i (min (s.counter i + inc) 0xFFFFFFFF)

theorem State.counterAdd_unarmed {s : State} {i : Nat} (h : s.armed i = false) (inc m : Nat) (w : Who) (op : Nat) :
    s.counterAdd i inc m w op = if inc = 0 then s.raised i inc m w else (s.raised i inc m w).examine i := by
  rw [State.counterAdd, if_neg (by simp [h])]
  rfl

theorem State.raised_shown (s : State) (i inc m : Nat) (w : Who) :
    (s.raised i inc m w).counter i = min (s.counter i + inc) (2 ^ 32 - 1) ∧
    (s.raised i inc m w).flag (A.syncCnt i) F.syncCnt.OVF =
      (s.flag (A.syncCnt i) F.syncCnt.OVF || decide (2 ^ 32 ≤ s.counter i + inc)) ∧
    (∀ j, j ≠ i → (s.raised i inc m w).counter j = s.counter j) ∧ (s.raised i inc m w).sync = s.sync ∧
    (s.raised i inc m w).mem = s.mem ∧ (s.raised i inc m w).sbd = s.sbd := by
  have hvalue : min (s.counter i + inc) 0xFFFFFFFF % 2 ^ 32 = min (s.counter i + inc) (2 ^ 32 - 1) :=
    Nat.mod_eq_of_lt (Nat.lt_of_le_of_lt (Nat.min_le_right ..) (by decide))
  unfold State.raised
  split
  next hover =>
    obtain ⟨hovf, hcounter, hsync, hmem, hsbd⟩ := (s.setCounter i (min (s.counter i + inc) 0xFFFFFFFF)).stick_shown i m w false
    refine ⟨?_, ?_, fun j hj => ?_, hsync, hmem, hsbd⟩
    · rw [hcounter, State.counter_setCounter_same, hvalue]
    · rw [decide_eq_true (by omega), Bool.or_true]
      exact hovf
    · rw [hcounter, State.counter_setCounter_ne _ _ hj]
  next hfits =>
    refine ⟨by rw [State.counter_setCounter_same, hvalue], ?_, fun j hj => State.counter_setCounter_ne _ _ hj, rfl, rfl, rfl⟩
    rw [State.ovf_setCounter, decide_eq_false (by omega), Bool.or_false]

theorem State.rd_raised_ne (s : State) (i inc m : Nat) (w : Who) {a : Nat} (ha : a ≠ A.syncCnt i) :
    (s.raised i inc m w).rd a = s.rd a := by
  unfold State.raised
  split
  · rw [State.stick_eq]
    split
    · exact State.rd_setFld_ne _ _ _ ha
    · rw [State.rd_of_regs (State.raise_regs ..), State.rd_hwSet_ne _ _ ha]
      exact State.rd_setFld_ne _ _ _ ha
  · exact State.rd_setFld_ne _ _ _ ha

/-- A counter that no waiter record is of takes a signal or a restore (11 R324). -/
theorem State.counterAdd_alone {s : State} {i : Nat} (h : s.armed i = false) (hw : ∀ r ∈ s.sync.waiters, r.index ≠ i)
    (inc m : Nat) (w : Who) (op : Nat) : s.counterAdd i inc m w op = s.raised i inc m w := by
  rw [State.counterAdd_unarmed h]
  split
  · rfl
  · obtain ⟨-, -, -, hsync, -⟩ := s.raised_shown i inc m w
    exact State.examine_none (by rw [hsync]; exact hw)

/-- The counter with an amount taken, and UDF where it had less (11 R324). -/
def State.lowered (s : State) (i amount m : Nat) (w : Who) : State :=
  if amount > s.counter i then (s.setCounter i (s.counter i - amount)).stick i m w true else s.setCounter i (s.counter i - amount)

theorem State.counter_lt (s : State) (i : Nat) : s.counter i < 2 ^ 32 := getFld_lt ..

theorem State.lowered_shown (s : State) (i amount m : Nat) (w : Who) :
    (s.lowered i amount m w).counter i = s.counter i - amount ∧
    (s.lowered i amount m w).flag (A.syncCnt i) F.syncCnt.UDF =
      (s.flag (A.syncCnt i) F.syncCnt.UDF || decide (s.counter i < amount)) ∧
    (∀ j, j ≠ i → (s.lowered i amount m w).counter j = s.counter j) ∧ (s.lowered i amount m w).sync = s.sync := by
  have hvalue : (s.counter i - amount) % 2 ^ 32 = s.counter i - amount := Nat.mod_eq_of_lt (by have := s.counter_lt i; omega)
  unfold State.lowered
  split
  next hunder =>
    obtain ⟨hudf, hcounter, hsync, -, -⟩ := (s.setCounter i (s.counter i - amount)).stick_shown i m w true
    refine ⟨?_, ?_, fun j hj => ?_, hsync⟩
    · rw [hcounter, State.counter_setCounter_same, hvalue]
    · rw [decide_eq_true hunder, Bool.or_true]
      exact hudf
    · rw [hcounter, State.counter_setCounter_ne _ _ hj]
  next henough =>
    refine ⟨by rw [State.counter_setCounter_same, hvalue], ?_, fun j hj => State.counter_setCounter_ne _ _ hj, rfl⟩
    rw [State.flag_setCounter_ne _ _ _ _ (by decide) (by decide), decide_eq_false henough, Bool.or_false]

theorem State.takeAt_unarmed {s : State} {i : Nat} (h : s.armed i = false) (amount m : Nat) (w : Who) :
    s.takeAt i amount m w = (s.lowered i amount m w, .value (s.counter i)) := by
  rw [State.takeAt, if_neg (by simp [h])]
  rfl

/-- What is discarded changes no counter (06 R185). -/
theorem State.counter_discard (s : State) (i m : Nat) (w : Who) (op j : Nat) : (s.discard i m w op).counter j = s.counter j :=
  State.fld_of_rd (State.rd_of_regs (State.raise_regs ..) _) _

theorem State.counter_putWaiters (s : State) (l : List Waiter) {j : Nat} (hj : j < 65536) :
    (s.putWaiters l).counter j = s.counter j := by
  refine State.fld_setFld_ne _ _ _ _ ?_
  simp only [A.syncCnt, A.syncStat]
  omega

/-- A wait that is satisfied at its home, and one that is held there (11 R325, R331). -/
theorem State.waitAt_satisfied {s : State} {i : Nat} (h : s.armed i = false) {threshold : Nat} (hmet : threshold ≤ s.counter i)
    (consume : Bool) (tmo m : Nat) (w : Who) : s.waitAt i threshold consume tmo m w =
      ((if consume then s.setCounter i (s.counter i - threshold) else s), .value (s.counter i)) := by
  rw [State.waitAt, if_neg (by simp [h])]
  exact if_pos hmet

theorem State.waitAt_held {s : State} {i : Nat} (h : s.armed i = false) {threshold : Nat} (hunmet : s.counter i < threshold)
    (hroom : s.sync.waiters.length < 16384) (consume : Bool) (tmo m : Nat) (w : Who) : s.waitAt i threshold consume tmo m w =
      (s.putWaiters (s.sync.waiters ++ [⟨i, m, w, threshold, consume, if w.ctx = 0 then none else some (s.pulse + tmo * usPulses)⟩]),
        .held) := by
  rw [State.waitAt, if_neg (by simp [h])]
  dsimp only
  rw [if_neg (by omega), if_neg (by omega)]
  simp

/-! ### Waiter records that complete (11 R326, R328, R331) -/

/-- What the end of a record of this module's own leaves: the Sideboards' wait done, or its result kept for the NOTIFY. -/
def State.recordEnded (s : State) (r : Waiter) (res : WaitResult) : State :=
  if r.who = sumWho then s.putSbd { s.sbd with sumWait := .done }
  else if r.who = resultWho then s.putSbd { s.sbd with resultWait := .done }
  else s.putSync { s.sync with kept := s.sync.kept ++ [⟨r, res, none⟩] }

theorem State.notify_here {s : State} {r : Waiter} (h : r.home = s.modnum) (res : WaitResult) : s.notify r res = s.recordEnded r res := by
  have hhome : (r.home == s.modnum) = true := by simp [h]
  unfold State.notify State.recordEnded
  by_cases hsum : r.who = sumWho
  · simp [hhome, hsum]
  · by_cases hres : r.who = resultWho
    · have hne : ¬ resultWho = sumWho := by decide
      simp [hhome, hres, hne]
    · simp only [hsum, hres, hhome, beq_iff_eq, if_false, Bool.true_and]
      exact if_pos h

/-- A record that the value satisfies completes, and a consuming one takes its threshold (11 R326). -/
theorem State.examine_single {s : State} {i : Nat} {r : Waiter} (hw : s.sync.waiters = [r]) (hindex : r.index = i)
    (hmet : r.threshold ≤ s.counter i) (hunarmed : s.armed i = false) (hhome : r.home = s.modnum) :
    s.examine i = ((if r.consume then s.setCounter i (s.counter i - r.threshold) else s).putWaiters []).recordEnded r
      (.satisfied (s.counter i)) := by
  have hgo : (r.index == i && decide (s.counter i ≥ r.threshold) && !(r.consume && s.armed i)) = true := by
    simp [hindex, hmet, hunarmed]
  have hrest : ∀ u : State, u.sync = s.sync → u.sync.waiters.filter (· != r) = [] := fun u hu => by
    rw [hu, hw]
    simp
  have hmodnum : ∀ u : State, u.rd A.tmrId = s.rd A.tmrId → (u.putWaiters []).modnum = s.modnum := fun u hu => by
    refine State.fld_of_rd ?_ _
    exact (State.rd_setFld_ne _ _ _ (by decide)).trans hu
  unfold State.examine
  rw [hw, List.foldl_cons, List.foldl_nil, if_pos hgo]
  dsimp only
  cases r.consume with
  | true =>
    have hne : A.tmrId ≠ A.syncCnt i := by simp only [A.tmrId, A.syncCnt]; omega
    rw [if_pos rfl, hrest (s.setCounter i (s.counter i - r.threshold)) rfl]
    exact State.notify_here (hhome.trans (hmodnum _ (State.rd_setFld_ne _ _ _ hne)).symm) _
  | false =>
    rw [if_neg Bool.false_ne_true, hrest s rfl]
    exact State.notify_here (hhome.trans (hmodnum s rfl).symm) _

/-- What the end of a record leaves alone, and what it shows (11 R328). -/
theorem State.recordEnded_shown (s : State) (r : Waiter) (res : WaitResult) : (s.recordEnded r res).regs = s.regs ∧
    (s.recordEnded r res).sync.waiters = s.sync.waiters ∧
    (if r.who = sumWho then (s.recordEnded r res).sbd.sumWait = .done
      else if r.who = resultWho then (s.recordEnded r res).sbd.resultWait = .done
      else (s.recordEnded r res).sync.kept = s.sync.kept ++ [⟨r, res, none⟩]) := by
  unfold State.recordEnded
  split
  · exact ⟨rfl, rfl, rfl⟩
  · split <;> exact ⟨rfl, rfl, rfl⟩

end Sys2Proof.Machine

open Sys2Proof Sys2Proof.Machine

/-- Settles O30: each operation is performed at its home as it says, and its answer leaves the table alone. -/
theorem countersAtHome : Obligations.CountersAtHome := by
  unfold Obligations.CountersAtHome
  intro v i who x k m s hk
  have hi : i.toNat < 65536 := i.isLt
  subst hk
  refine ⟨fun hunarmed halone => ⟨fun q hq hreach => ?add, fun hreach => ⟨_, rfl, ?take⟩,
    fun consume tmo hreach => ⟨fun hmet => ⟨_, rfl, ?satisfied⟩, fun hunmet hroom => ⟨_, rfl, ?held⟩⟩, ⟨_, rfl, ?store⟩⟩,
    fun harmed q hq hreach => ?discard, fun hreach hrecord => ⟨_, rfl, ?cancel⟩⟩
  case add =>
    have hadd : ∀ (op : SyncOp) (code : Nat), s.reaches v i.toNat who op m → (∀ u : State, u.syncHeld who op = false) →
        ∀ t, t = s.atHome v i.toNat who op (fun s m => (s.counterAdd i.toNat x.toNat m who code, .done)) →
        t.counter i.toNat = min (s.counter i.toNat + x.toNat) (2 ^ 32 - 1) ∧
        t.flag (A.syncCnt i.toNat) F.syncCnt.OVF =
          (s.flag (A.syncCnt i.toNat) F.syncCnt.OVF || decide (2 ^ 32 ≤ s.counter i.toNat + x.toNat)) ∧
        s.answersWith t v i.toNat who .done ∧ t.mem = s.mem ∧ ∀ j < 65536, j ≠ i.toNat → t.counter j = s.counter j := by
      intro op code hreach hop t ht
      obtain ⟨inbox, tmr, hkept, hanswer⟩ := State.atHome_performed hreach hop
        (fun s m => (s.counterAdd i.toNat x.toNat m who code, .done))
      rw [← ht, State.counterAdd_alone (s := s.tookIn inbox tmr) hunarmed halone] at hkept hanswer
      obtain ⟨hvalue, hovf, hother, hsync, hmem, -⟩ := (s.tookIn inbox tmr).raised_shown i.toNat x.toNat m who
      refine ⟨(hkept.counter hi).trans hvalue, (hkept.flag hi _).trans hovf, fun hown => ?_, hkept.mem.trans hmem,
        fun j hj hne => (hkept.counter hj).trans (hother j hne)⟩
      rw [hanswer hown, hsync]
      rfl
    simp only [List.mem_cons, List.not_mem_nil, or_false] at hq
    obtain rfl | rfl := hq
    · exact ⟨_, rfl, hadd _ 1 hreach (fun _ => rfl) _ rfl⟩
    · exact ⟨_, rfl, hadd _ 4 hreach (fun _ => rfl) _ rfl⟩
  case take =>
    obtain ⟨inbox, tmr, hkept, hanswer⟩ := State.atHome_performed hreach (fun _ => rfl)
      (fun s m => s.takeAt i.toNat x.toNat m who)
    rw [State.takeAt_unarmed (s := s.tookIn inbox tmr) hunarmed] at hkept hanswer
    obtain ⟨hvalue, hudf, hother, hsync⟩ := (s.tookIn inbox tmr).lowered_shown i.toNat x.toNat m who
    refine ⟨(hkept.counter hi).trans hvalue, fun hown => ?_, (hkept.flag hi _).trans hudf,
      fun j hj hne => (hkept.counter hj).trans (hother j hne)⟩
    have hanswers : ((s.tookIn inbox tmr).lowered i.toNat x.toNat m who).sync.answers = s.sync.answers := by
      rw [hsync]
      rfl
    exact (hanswer hown).trans (congrArg (· ++ _) hanswers)
  case satisfied =>
    obtain ⟨inbox, tmr, hkept, hanswer⟩ := State.atHome_performed hreach (fun _ => rfl)
      (fun s m => s.waitAt i.toNat x.toNat consume tmo.toNat m who)
    rw [State.waitAt_satisfied (s := s.tookIn inbox tmr) hunarmed hmet] at hkept hanswer
    obtain ⟨answers, hsync⟩ := hkept.sync
    have hvalue : (s.counter i.toNat - x.toNat) % 2 ^ 32 = s.counter i.toNat - x.toNat :=
      Nat.mod_eq_of_lt (by have := s.counter_lt i.toNat; omega)
    have hwaiters := congrArg Sync.waiters hsync
    cases consume with
    | true => exact ⟨hanswer, (hkept.counter hi).trans ((State.counter_setCounter_same ..).trans hvalue), hwaiters⟩
    | false => exact ⟨hanswer, hkept.counter hi, hwaiters⟩
  case held =>
    obtain ⟨inbox, tmr, hkept, hanswer⟩ := State.atHome_performed hreach (fun _ => rfl)
      (fun s m => s.waitAt i.toNat x.toNat consume tmo.toNat m who)
    rw [State.waitAt_held (s := s.tookIn inbox tmr) hunarmed hunmet hroom] at hkept hanswer
    obtain ⟨answers, hsync⟩ := hkept.sync
    exact ⟨hanswer, (hkept.counter hi).trans (State.counter_putWaiters _ _ hi), congrArg Sync.waiters hsync⟩
  case store =>
    have hvalue : x.toNat % 2 ^ 32 = x.toNat := Nat.mod_eq_of_lt x.isLt
    have hstore : s.storeAt i.toNat x.toNat s.modnum who = s.setCounter i.toNat x.toNat := by
      rw [State.storeAt, if_neg (by simp [hunarmed])]
      dsimp only
      split
      · exact State.examine_none (s := s.setCounter i.toNat x.toNat) halone
      · rfl
    rw [hstore]
    exact ⟨(State.counter_setCounter_same ..).trans hvalue, fun j _ hne => State.counter_setCounter_ne _ _ hne⟩
  case discard =>
    have hdiscard : ∀ (op : SyncOp) (perform : State → Nat → State × SyncAns), s.reaches v i.toNat who op m →
        (∀ u : State, u.syncHeld who op = false) →
        (∀ u : State, u.armed i.toNat = true → ∃ code, (perform u m).1 = u.discard i.toNat m who code) →
        ∀ j < 65536, (s.atHome v i.toNat who op perform).counter j = s.counter j := by
      intro op perform hreach hop hperform j hj
      obtain ⟨inbox, tmr, hkept, -⟩ := State.atHome_performed hreach hop perform
      obtain ⟨code, hcode⟩ := hperform (s.tookIn inbox tmr) harmed
      rw [hkept.counter hj, hcode, State.counter_discard]
      rfl
    have hadd : ∀ (code : Nat) (u : State), u.armed i.toNat = true →
        ∃ code', u.counterAdd i.toNat x.toNat m who code = u.discard i.toNat m who code' := fun code u hu =>
      ⟨code, by rw [State.counterAdd, if_pos hu]⟩
    simp only [List.mem_cons, List.not_mem_nil, or_false] at hq
    obtain rfl | rfl | rfl := hq
    · exact ⟨_, rfl, hdiscard _ _ hreach (fun _ => rfl) (hadd 1)⟩
    · exact ⟨_, rfl, hdiscard _ _ hreach (fun _ => rfl) (hadd 4)⟩
    · exact ⟨_, rfl, hdiscard _ _ hreach (fun _ => rfl) fun u hu => ⟨3, by rw [State.takeAt, if_pos hu]⟩⟩
  case cancel =>
    obtain ⟨r, hr, hindex, hwho, hhome⟩ := hrecord
    obtain ⟨inbox, tmr, hkept, hanswer⟩ := State.atHome_performed hreach (fun _ => rfl)
      (fun s m => ((s.cancelAt i.toNat m who).1, .cancel (s.cancelAt i.toNat m who).2))
    have hcancel : (s.tookIn inbox tmr).cancelAt i.toNat m who = ((s.tookIn inbox tmr).putWaiters
        (s.sync.waiters.filter (fun r => !(r.index == i.toNat && r.who == who && r.home == m))), .cancelled) := by
      refine if_pos (List.any_eq_true.2 ⟨r, hr, ?_⟩)
      simp [hindex, hwho, hhome]
    rw [hcancel] at hkept hanswer
    obtain ⟨answers, hsync⟩ := hkept.sync
    have hwaiters := congrArg Sync.waiters hsync
    refine ⟨fun r' hr' hsame => ?_, hanswer, fun j hj => (hkept.counter hj).trans (State.counter_putWaiters _ _ hj)⟩
    obtain ⟨hidx, hw, hh⟩ := hsame
    have hleft := (List.mem_filter.1 (hwaiters ▸ hr')).2
    simp [hidx, hw, hh] at hleft

/-- Settles O31. -/
theorem waitersAreServed : Obligations.WaitersAreServed := by
  unfold Obligations.WaitersAreServed
  intro v i home who x m r s hindex hhomeEq
  have hi : i.toNat < 65536 := i.isLt
  refine ⟨fun hw hhome => ⟨fun hunarmed hreach hfits hx hmet => ⟨_, rfl, ?signal⟩, fun d hd hdue hsum hres => ⟨_, rfl, ?deadline⟩⟩,
    fun t0 res hkept htime => ⟨_, rfl, ?expiry⟩⟩
  case signal =>
    obtain ⟨inbox, tmr, hkept, -⟩ := State.atHome_performed hreach (fun _ => rfl)
      (fun s m => (s.counterAdd i.toNat x.toNat m who 1, .done))
    set u := s.tookIn inbox tmr
    have hadd : u.counterAdd i.toNat x.toNat m who 1 = (u.raised i.toNat x.toNat m who).examine i.toNat := by
      rw [State.counterAdd_unarmed (s := u) hunarmed, if_neg]
      exact fun h => hx (BitVec.eq_of_toNat_eq h)
    obtain ⟨hvalue, -, -, hsync, -, -⟩ := u.raised_shown i.toNat x.toNat m who
    set y := u.raised i.toNat x.toNat m who
    have hsum : y.counter i.toNat = s.counter i.toNat + x.toNat := by
      have hcounter : u.counter i.toNat = s.counter i.toNat := rfl
      rw [hvalue, hcounter]
      omega
    have hmodnum : y.modnum = s.modnum := by
      have hne : A.tmrId ≠ A.syncCnt i.toNat := by simp only [A.tmrId, A.syncCnt]; omega
      refine State.fld_of_rd (s := s) ?_ _
      exact State.rd_raised_ne u i.toNat x.toNat m who hne
    rw [hadd, State.examine_single (s := y) (by rw [hsync]; exact hw) hindex (hsum ▸ hmet) (by rw [State.armed, hsync]; exact hunarmed)
      (hhome.trans hmodnum.symm), hsum] at hkept
    generalize hz : (if r.consume then y.setCounter i.toNat (s.counter i.toNat + x.toNat - r.threshold) else y) = z at hkept
    have hzsync : z.sync = y.sync := by
      rw [← hz]
      split <;> rfl
    have hzcounter : z.counter i.toNat = s.counter i.toNat + x.toNat - (if r.consume then r.threshold else 0) := by
      rw [← hz]
      split
      · rw [State.counter_setCounter_same, Nat.mod_eq_of_lt (by omega)]
      · rw [hsum, Nat.sub_zero]
    obtain ⟨hregs, hwaiters, hend⟩ := (z.putWaiters []).recordEnded_shown r (.satisfied (s.counter i.toNat + x.toNat))
    obtain ⟨answers, htsync⟩ := hkept.sync
    have hkeptList := congrArg Sync.kept htsync
    refine ⟨(congrArg Sync.waiters htsync).trans hwaiters, ?_, ?_⟩
    · refine (hkept.counter hi).trans ?_
      rw [State.counter, State.fld_of_rd (State.rd_of_regs hregs _), ← State.counter, State.counter_putWaiters _ _ hi, hzcounter]
    · have hzkept : (z.putWaiters []).sync.kept = s.sync.kept := by
        show z.sync.kept = _
        rw [hzsync, hsync]
        rfl
      rw [hzkept, ← hkept.sbd, ← hkeptList] at hend
      exact hend
  case deadline =>
    have hfind : s.sync.waiters.find? (fun x => x.index == i.toNat && x.home == home.toNat && x.who == r.who) = some r := by
      simp [hw, hindex, hhomeEq]
    have hrest : s.sync.waiters.filter (· != r) = [] := by simp [hw]
    have hmodnum : (s.putWaiters []).modnum = s.modnum := State.fld_of_rd (State.rd_setFld_ne _ _ _ (by decide)) _
    rw [hfind]
    dsimp only
    rw [hd]
    dsimp only
    rw [if_pos hdue, hrest, State.notify_here (hhome.trans hmodnum.symm)]
    obtain ⟨hregs, hwaiters, hend⟩ := (s.putWaiters []).recordEnded_shown r (.timeout (s.counter i.toNat))
    rw [if_neg hsum, if_neg hres] at hend
    refine ⟨hwaiters, ?_, hend⟩
    rw [State.counter, State.fld_of_rd (State.rd_of_regs hregs _), ← State.counter, State.counter_putWaiters _ _ hi]
  case expiry =>
    refine ⟨?_, rfl⟩
    refine List.filter_eq_nil_iff.2 fun k hk => ?_
    obtain rfl := List.mem_singleton.1 (hkept ▸ hk)
    simp [hindex, hhomeEq, htime]
end

section
/-!
SUPPORT. The pieces that accesses to memory, logs and the sync table leave alone (`State.Same`).
-/
namespace Sys2Proof.Machine

variable {msk : Nat} {was : State}

theorem State.takeLost_same (hfree : msk &&& 33554432 = 0) (s cls a) (hs : was.Same msk s) : was.Same msk (s.takeLost cls a).1 := by
  unfold State.takeLost
  with_reducible repeat' first
    | assumption | exact free_mono hfree rfl | apply State.putLost_same | refine fst_same ?_ (by assumption)
    | refine snd_same ?_ (by assumption) | split

theorem State.tbyEvent_same (hfree : msk &&& 1024 = 0) (s t ia kind layer pc cls) (hs : was.Same msk s) :
    was.Same msk (s.tbyEvent t ia kind layer pc cls) := by
  unfold State.tbyEvent
  with_reducible repeat' first | assumption | exact free_mono hfree rfl | apply State.raise_same

theorem State.tbyEventAt_same (hfree : msk &&& 1024 = 0) (s ia kind cls) (hs : was.Same msk s) :
    was.Same msk (s.tbyEventAt ia kind cls) := by
  unfold State.tbyEventAt
  with_reducible repeat' first | assumption | exact free_mono hfree rfl | apply State.tbyEvent_same

theorem State.ueFound_same (hfree : msk &&& 67109889 = 0) (s cw cls addressErr) (hs : was.Same msk s) :
    was.Same msk (s.ueFound cw cls addressErr) := by
  unfold State.ueFound
  conv => zeta
  with_reducible repeat' first
    | assumption | exact free_mono hfree rfl | apply State.incSat_same | apply State.setFld_same | apply State.hwSet_same
    | apply State.tbyEventAt_same | split

theorem State.reserveFor_same (hfree : msk &&& 1073741824 = 0) (s t layer) (hs : was.Same msk s) :
    was.Same msk (s.reserveFor t layer).1 := by
  unfold State.reserveFor
  conv => zeta
  with_reducible repeat' first
    | assumption | exact free_mono hfree rfl | apply State.draw_same | refine fst_same ?_ (by assumption)
    | refine snd_same ?_ (by assumption) | split

theorem State.reserveCheck_same (hfree : msk &&& 1152 = 0) (s t layer pc cls) (hs : was.Same msk s) :
    was.Same msk (s.reserveCheck t layer pc cls) := by
  unfold State.reserveCheck
  conv => zeta
  with_reducible repeat' first
    | assumption | exact free_mono hfree rfl | apply State.tbyEvent_same | apply State.modStack_same | split

theorem State.spareStart_same (hfree : msk &&& 1073742976 = 0) (s cw cls) (hs : was.Same msk s) :
    was.Same msk (s.spareStart cw cls) := by
  unfold State.spareStart
  conv => zeta
  with_reducible repeat' first
    | assumption | exact free_mono hfree rfl | apply State.reserveFor_same | apply State.reserveCheck_same | apply State.modStack_same
    | refine fst_same ?_ (by assumption) | refine snd_same ?_ (by assumption) | split

theorem State.ceFound_same (hfree : msk &&& 1073742977 = 0) (s cw cls) (hs : was.Same msk s) : was.Same msk (s.ceFound cw cls) := by
  unfold State.ceFound
  conv => zeta
  with_reducible repeat' first
    | assumption | exact free_mono hfree rfl | apply State.incSat_same | apply State.modStack_same | apply State.spareStart_same
    | split

theorem State.cwClean_same (hfree : msk &&& 128 = 0) (s cw) (hs : was.Same msk s) : was.Same msk (s.cwClean cw) := by
  unfold State.cwClean
  with_reducible repeat' first | assumption | exact free_mono hfree rfl | apply State.modStack_same

theorem State.cwRead_same (hfree : msk &&& 1140851845 = 0) (s cw cls) (hs : was.Same msk s) : was.Same msk (s.cwRead cw cls).1 := by
  unfold State.cwRead
  conv => zeta
  with_reducible repeat' first
    | assumption | exact free_mono hfree rfl | apply State.modStack_same | apply State.draw_same | apply State.ueFound_same
    | apply State.spareStart_same | apply State.ceFound_same | apply State.cwClean_same | apply State.memStore_same
    | apply State.memFilter_same | apply State.memClear_same | refine fst_same ?_ (by assumption) | refine snd_same ?_ (by assumption)
    | split

theorem State.writeDenied_same (hfree : msk &&& 67109889 = 0) (s cls ia) (hs : was.Same msk s) :
    was.Same msk (s.writeDenied cls ia) := by
  unfold State.writeDenied
  conv => zeta
  with_reducible repeat' first
    | assumption | exact free_mono hfree rfl | apply State.incSat_same | apply State.setFld_same | apply State.hwSet_same
    | apply State.tbyEventAt_same | split

theorem State.modUnit_same (hfree : msk &&& 16384 = 0) (s t) (f) (hs : was.Same msk s) : was.Same msk (s.modUnit t f) := by
  unfold State.modUnit
  conv => zeta
  with_reducible repeat' first | assumption | exact free_mono hfree rfl | apply State.putSbd_same

theorem State.trackHeader_same (hfree : msk &&& 16384 = 0) (s t off be) (hs : was.Same msk s) :
    was.Same msk (s.trackHeader t off be) := by
  unfold State.trackHeader
  conv => zeta
  with_reducible repeat' first
    | assumption | exact free_mono hfree rfl | apply State.modUnit_same | refine foldl_same _ _ _ (fun _ _ _ => ?_) ?_
    | refine foldlFst_same _ _ _ (fun _ _ _ => ?_) ?_ | refine foldlSnd_same _ _ _ (fun _ _ _ => ?_) ?_
    | refine fst_same ?_ (by assumption) | refine snd_same ?_ (by assumption) | split

theorem State.cwWrite_same (hfree : msk &&& 1140868229 = 0) (s cls cw off data) (hs : was.Same msk s) :
    was.Same msk (s.cwWrite cls cw off data).1 := by
  unfold State.cwWrite
  conv => zeta
  with_reducible repeat' first
    | assumption | exact free_mono hfree rfl | apply State.cwClean_same | apply State.cwRead_same | apply State.tbyEventAt_same
    | apply State.memStore_same | apply State.memFilter_same | apply State.memClear_same | apply State.trackHeader_same
    | refine fst_same ?_ (by assumption) | refine snd_same ?_ (by assumption) | split

theorem State.tbyWrite_same (hfree : msk &&& 1140868229 = 0) (s cls ia data) (hs : was.Same msk s) :
    was.Same msk (s.tbyWrite cls ia data).1 := by
  unfold State.tbyWrite
  conv => zeta
  with_reducible repeat' first
    | assumption | exact free_mono hfree rfl | apply State.writeDenied_same | apply State.cwWrite_same
    | refine foldl_same _ _ _ (fun _ _ _ => ?_) ?_ | refine foldlFst_same _ _ _ (fun _ _ _ => ?_) ?_
    | refine foldlSnd_same _ _ _ (fun _ _ _ => ?_) ?_ | refine fst_same ?_ (by assumption) | refine snd_same ?_ (by assumption) | split

theorem State.shelfWrite_same (hfree : msk &&& 12 = 0) (s b off data) (hs : was.Same msk s) :
    was.Same msk (s.shelfWrite b off data) := by
  unfold State.shelfWrite
  conv => zeta
  with_reducible repeat' first
    | assumption | exact free_mono hfree rfl | apply State.memStore_same | apply State.memFilter_same | apply State.memClear_same
    | apply State.modBench_same | split

theorem State.memWriteOk_same (hfree : msk &&& 1174422669 = 0) (s cls a data) (hs : was.Same msk s) :
    was.Same msk (s.memWriteOk cls a data).1 := by
  unfold State.memWriteOk
  conv => zeta
  with_reducible repeat' first
    | assumption | exact free_mono hfree rfl | apply State.takeLost_same | apply State.tbyWrite_same | apply State.shelfWrite_same
    | refine foldl_same _ _ _ (fun _ _ _ => ?_) ?_ | refine foldlFst_same _ _ _ (fun _ _ _ => ?_) ?_
    | refine foldlSnd_same _ _ _ (fun _ _ _ => ?_) ?_ | refine fst_same ?_ (by assumption) | refine snd_same ?_ (by assumption) | split

theorem State.setCounter_same (hfree : msk &&& 1 = 0) (s i v) (hs : was.Same msk s) : was.Same msk (s.setCounter i v) := by
  unfold State.setCounter
  with_reducible repeat' first | assumption | exact free_mono hfree rfl | apply State.setFld_same

theorem State.stick_same (hfree : msk &&& 67109889 = 0) (s i m w udf) (hs : was.Same msk s) : was.Same msk (s.stick i m w udf) := by
  unfold State.stick
  conv => zeta
  with_reducible repeat' first | assumption | exact free_mono hfree rfl | apply State.raise_same | apply State.hwSet_same | split

theorem State.putWaiters_same (hfree : msk &&& 513 = 0) (s l) (hs : was.Same msk s) : was.Same msk (s.putWaiters l) := by
  unfold State.putWaiters
  conv => zeta
  with_reducible repeat' first | assumption | exact free_mono hfree rfl | apply State.setFld_same | apply State.putSync_same

theorem State.syncEvent_same (hfree : msk &&& 1024 = 0) (s code pc counter w reason op) (hs : was.Same msk s) :
    was.Same msk (s.syncEvent code pc counter w reason op) := by
  unfold State.syncEvent
  conv => zeta
  with_reducible repeat' first | assumption | exact free_mono hfree rfl | apply State.raise_same

theorem State.notify_same (hfree : msk &&& 3288352521 = 0) (s r res) (hs : was.Same msk s) : was.Same msk (s.notify r res) := by
  unfold State.notify
  conv => zeta
  with_reducible repeat' first
    | assumption | exact free_mono hfree rfl | apply State.putSbd_same | apply State.putSync_same | apply State.submit_same
    | apply State.syncEvent_same | refine fst_same ?_ (by assumption) | refine snd_same ?_ (by assumption) | split

theorem State.examine_same (hfree : msk &&& 3288352521 = 0) (s i) (hs : was.Same msk s) : was.Same msk (s.examine i) := by
  unfold State.examine
  conv => zeta
  with_reducible repeat' first
    | assumption | exact free_mono hfree rfl | apply State.setCounter_same | apply State.putWaiters_same | apply State.notify_same
    | refine foldl_same _ _ _ (fun _ _ _ => ?_) ?_ | refine foldlFst_same _ _ _ (fun _ _ _ => ?_) ?_
    | refine foldlSnd_same _ _ _ (fun _ _ _ => ?_) ?_ | refine fst_same ?_ (by assumption) | refine snd_same ?_ (by assumption) | split

theorem State.putLogSeq_same (hfree : msk &&& 16777216 = 0) (s x) (hs : was.Same msk s) : was.Same msk (s.putLogSeq x) :=
  hs.but .logSeq hfree rfl (fun p hp h => by cases p <;> first | exact h | exact absurd rfl hp)

theorem State.memWriteBe_same (hfree : msk &&& 1174422669 = 0) (s cls a data) (hs : was.Same msk s) :
    was.Same msk (s.memWriteBe cls a data) := by
  unfold State.memWriteBe
  with_reducible repeat' first
    | assumption | exact free_mono hfree rfl | apply State.memWriteOk_same

theorem State.memWrite_same (hfree : msk &&& 1174422669 = 0) (s cls a data) (hs : was.Same msk s) :
    was.Same msk (s.memWrite cls a data) := by
  unfold State.memWrite
  with_reducible repeat' first | assumption | exact free_mono hfree rfl | apply State.memWriteBe_same

theorem State.logPut_same (hfree : msk &&& 1191199885 = 0) (s l size cls body code source) (hs : was.Same msk s) :
    was.Same msk (s.logPut l size cls body code source) := by
  unfold State.logPut
  conv => zeta
  with_reducible repeat' first
    | assumption | exact free_mono hfree rfl | apply State.putLogSeq_same | apply State.incSat_same | apply State.raise_same
    | apply State.memWrite_same | apply State.setFld_same | split

theorem State.logEntry_same (hfree : msk &&& 1191199885 = 0) (s l cls body code source) (hs : was.Same msk s) :
    was.Same msk (s.logEntry l cls body code source) := by
  unfold State.logEntry
  with_reducible repeat' first | assumption | exact free_mono hfree rfl | apply State.logPut_same

theorem State.lwExamine_same (hfree : msk &&& 3288352521 = 0) (s w) (hs : was.Same msk s) : was.Same msk (s.lwExamine w) := by
  unfold State.lwExamine
  with_reducible repeat' first
    | assumption | exact free_mono hfree rfl | apply State.examine_same | refine foldl_same _ _ _ (fun _ _ _ => ?_) ?_

theorem State.publish_same (hfree : msk &&& 67109889 = 0) (s w) (hs : was.Same msk s) : was.Same msk (s.publish w) := by
  unfold State.publish
  conv => zeta
  with_reducible repeat' first | assumption | exact free_mono hfree rfl | apply State.setCounter_same | apply State.stick_same | split

theorem State.setLw_same (hfree : msk &&& 1 = 0) (s w e f x) (hs : was.Same msk s) : was.Same msk (s.setLw w e f x) := by
  unfold State.setLw
  with_reducible repeat' first | assumption | exact free_mono hfree rfl | apply State.setCounter_same

theorem State.elogClose_same (hfree : msk &&& 1191199885 = 0) (s w out next descent) (hs : was.Same msk s) :
    was.Same msk (s.elogClose w out next descent) := by
  unfold State.elogClose
  conv => zeta
  with_reducible repeat' first | assumption | exact free_mono hfree rfl | apply State.raise_same | apply State.logEntry_same | split

theorem State.giveOutcome_same (hfree : msk &&& 3288336137 = 0) (s w o) (hs : was.Same msk s) : was.Same msk (s.giveOutcome w o) := by
  unfold State.giveOutcome
  conv => zeta
  with_reducible repeat' first
    | assumption | exact free_mono hfree rfl | apply State.putSync_same | apply State.submit_same | apply State.syncEvent_same
    | refine foldl_same _ _ _ (fun _ _ _ => ?_) ?_ | refine foldlFst_same _ _ _ (fun _ _ _ => ?_) ?_
    | refine foldlSnd_same _ _ _ (fun _ _ _ => ?_) ?_ | refine fst_same ?_ (by assumption) | refine snd_same ?_ (by assumption) | split

theorem State.closeWord_same (hfree : msk &&& 3338684301 = 0) (s w out) (hs : was.Same msk s) : was.Same msk (s.closeWord w out) := by
  unfold State.closeWord
  conv => zeta
  with_reducible repeat' first
    | assumption | exact free_mono hfree rfl | apply State.publish_same | apply State.setLw_same | apply State.elogClose_same
    | apply State.putSync_same | apply State.lwExamine_same | apply State.giveOutcome_same | split


end Sys2Proof.Machine
end

section
/-!
PROOF. LayersAtHome (06 R187 to R192).
-/
namespace Sys2Proof.Machine

/-! ### Layer flag words -/

theorem State.HomeKept.lw {o t : State} (h : o.HomeKept t) {w e : Nat} (hw : w + e < 65536) (f : Fld) : t.lw w e f = o.lw w e f := by
  rw [State.lw, h.counter hw, State.lw]

theorem State.HomeKept.lwGen {o t : State} (h : o.HomeKept t) {w : Nat} (hw : w + 3 < 65536) : t.lwGen w = o.lwGen w := h.counter hw

theorem State.HomeKept.armed {o t : State} (h : o.HomeKept t) (w : Nat) : t.armed w = o.armed w := by
  obtain ⟨answers, hsync⟩ := h.sync
  rw [State.armed, hsync, State.armed]

theorem wordOf_word {w : Nat} (hw : w % 4 = 0) : wordOf w = w := by
  rw [wordOf, hw, Nat.sub_zero]

/-- Where no waiter record is of a word's entries, none is examined (11 R326). -/
theorem State.lwExamine_none {s : State} {w : Nat} (hw : w % 4 = 0) (h : ∀ r ∈ s.sync.waiters, wordOf r.index ≠ w) :
    s.lwExamine w = s := by
  have hentry : ∀ e, e < 4 → s.examine (w + e) = s := fun e he => by
    refine State.examine_none fun r hr hidx => h r hr ?_
    rw [hidx, wordOf]
    omega
  unfold State.lwExamine
  rw [List.foldl_cons, hentry 0 (by decide), List.foldl_cons, hentry 1 (by decide), List.foldl_cons, hentry 2 (by decide), List.foldl_cons,
    hentry 3 (by decide), List.foldl_nil]

theorem State.lwGen_setLw (s : State) (w : Nat) {e : Nat} (f : Fld) (x : Nat) (h : e ≠ 3) : (s.setLw w e f x).lwGen w = s.lwGen w :=
  State.fld_of_rd (s.rd_gen_setLw w f x h) _

/-! ### The closing of an attempt (06 R190) -/

/-- The outcomes that a closing sends change the answers on their way, and take their participants from the list. -/
theorem State.giveOutcome_sync (s : State) (w : Nat) (o : Word) : ∃ answers,
    (s.giveOutcome w o).sync = { s.sync with lwait := s.sync.lwait.filter (fun x => x.word != w), answers := answers } := by
  unfold State.giveOutcome
  extract_lets l u
  refine List.foldlRecOn l _ (motive := fun t : State => ∃ answers,
    t.sync = { s.sync with lwait := s.sync.lwait.filter (fun x => x.word != w), answers := answers }) ⟨s.sync.answers, rfl⟩ ?_
  rintro t ⟨answers, ht⟩ x -
  split
  · exact ⟨answers ++ [(w, x.who, .outcome o)], by rw [State.putSync, ht]⟩
  · have hsent : (t.submit x.home 5 0 0 (.sync w x.who (.outcome o)) (.sync 0)).1.sync = t.sync :=
      (State.submit_same (msk := 2 ^ Part.sync.idx) rfl _ _ _ _ _ _ _ (.refl t)).same .sync rfl
    have hraised : ∀ u : State, ((u.syncEvent 0x51 0 (0x3FFF0000 + w) x.who 1 7)).sync = u.sync := fun u =>
      (State.syncEvent_same (msk := 2 ^ Part.sync.idx) rfl u _ _ _ _ _ _ (.refl u)).same .sync rfl
    refine ⟨answers, ?_⟩
    dsimp only
    split
    · rw [hraised, hsent, ht]
    · rw [hsent, ht]

/-- A publication counts in GEN and changes no other entry of its word. -/
theorem State.publish_shown (s : State) (w : Nat) : (s.publish w).lwGen w = (s.lwGen w + 1) % 2 ^ 32 ∧ (s.publish w).sync = s.sync := by
  unfold State.publish
  dsimp only
  have hgen : ((s.setCounter (w + 3) ((s.lwGen w + 1) % 2 ^ 32)).lwGen w) = (s.lwGen w + 1) % 2 ^ 32 :=
    (State.counter_setCounter_same ..).trans (Nat.mod_mod ..)
  split
  · obtain ⟨-, hcounter, hsync, -⟩ := (s.setCounter (w + 3) ((s.lwGen w + 1) % 2 ^ 32)).stick_shown (w + 3)
      (s.setCounter (w + 3) ((s.lwGen w + 1) % 2 ^ 32)).modnum ⟨0, 0, 0, 0⟩ false
    exact ⟨(hcounter _).trans hgen, hsync⟩
  · exact ⟨hgen, rfl⟩

/-- What the closing of an attempt with an outcome leaves at its word (06 R190, R192). -/
structure State.Closed (s t : State) (w out : Nat) : Prop where
  armed : t.armed w = false
  ctrl : t.lw w 0 lwArmed = 0
  last : t.lw w 2 lwLast = out % 8
  gen : t.lwGen w = if out = 0 then (s.lwGen w + 1) % 2 ^ 32 else s.lwGen w
  lwait : t.sync.lwait = s.sync.lwait.filter (fun x => x.word != w)

theorem State.closeWord_closed {s : State} {w : Nat} (hw : w + 3 < 65536) (hword : w % 4 = 0)
    (h : ∀ r ∈ s.sync.waiters, wordOf r.index ≠ w) (out : Nat) : s.Closed (s.closeWord w out) w out := by
  unfold State.closeWord
  extract_lets mode nl rung base clean descent next s1 s2 s3 s4 o s5 old s6
  have h1 : s1.sync = s.sync ∧ s1.lwGen w = if out = 0 then (s.lwGen w + 1) % 2 ^ 32 else s.lwGen w := by
    unfold s1
    split
    · exact ⟨(s.publish_shown w).2, (s.publish_shown w).1⟩
    · exact ⟨rfl, rfl⟩
  have hgen4 : s4.lwGen w = s1.lwGen w :=
    (State.lwGen_setLw _ _ _ _ (by decide)).trans ((State.lwGen_setLw _ _ _ _ (by decide)).trans (State.lwGen_setLw _ _ _ _ (by decide)))
  have hctrl4 : s4.lw w 0 lwArmed = 0 := (State.lw_setLw_same _ _ _ _ _ (by decide) (by decide)).trans (Nat.zero_mod _)
  have hlast4 : s4.lw w 2 lwLast = out % 8 :=
    (State.lw_setLw_entry _ _ _ _ _ (by decide)).trans (State.lw_setLw_same _ _ _ _ _ (by decide) (by decide))
  have hsync4 : s4.sync = s.sync := h1.1
  have hsync5 : s5.sync = s4.sync := (State.elogClose_same (msk := 2 ^ Part.sync.idx) rfl s4 w out next descent (.refl s4)).same .sync rfl
  have h6 : s4.TableKept s6 := ((TableKept.refl s4).elogClose ..).putSync rfl
  have h7 : s4.TableKept (s6.giveOutcome w o) := h6.giveOutcome ..
  obtain ⟨answers, hsync7⟩ := s6.giveOutcome_sync w o
  have hexamine : (s6.giveOutcome w o).lwExamine w = s6.giveOutcome w o := State.lwExamine_none hword (by
    rw [h7.waiters, hsync4]
    exact h)
  have hcounter : ∀ e, e < 4 → (s6.giveOutcome w o).counter (w + e) = s4.counter (w + e) := fun e he =>
    State.fld_of_rd (h7.rd _ (not_besideTable (by omega))) _
  rw [hexamine]
  refine ⟨?_, ?_, ?_, ?_, ?_⟩
  · rw [State.armed, hsync7, wordOf_word hword]
    show (s5.sync.armedWords.filter (fun x => x != w)).contains w = false
    simp
  · rw [State.lw, hcounter 0 (by decide)]
    exact hctrl4
  · rw [State.lw, hcounter 2 (by decide)]
    exact hlast4
  · rw [State.lwGen, hcounter 3 (by decide), ← h1.2]
    exact hgen4
  · rw [hsync7]
    show s5.sync.lwait.filter _ = _
    rw [hsync5, hsync4]

theorem State.Closed.homeKept {s t u : State} {w out : Nat} (h : s.Closed t w out) (hu : t.HomeKept u) (hw : w + 3 < 65536) :
    s.Closed u w out := by
  obtain ⟨answers, hsync⟩ := hu.sync
  exact ⟨(hu.armed w).trans h.armed, (hu.lw (by omega) _).trans h.ctrl, (hu.lw (by omega) _).trans h.last,
    (hu.lwGen hw).trans h.gen, (congrArg Sync.lwait hsync).trans h.lwait⟩

/-! ### The opening of a layer (06 R187) -/

/-- CTRL of a word that arms. -/
def ctrlOf (rung lad attempt : Nat) : Nat := setBits (setBits (setBits (setBits 0 31 31 1) 23 22 rung) 21 21 lad) 15 8 attempt

theorem ctrlOf_shown (rung : Fin 4) (lad : Fin 2) (attempt : Nat) : bits (ctrlOf rung lad attempt) 31 31 = 1 ∧
    bits (ctrlOf rung lad attempt) 23 22 = rung ∧ bits (ctrlOf rung lad attempt) 21 21 = lad ∧
    bits (ctrlOf rung lad attempt) 15 8 = attempt % 256 ∧ bits (ctrlOf rung lad attempt) 27 24 = 0 ∧
    bits (ctrlOf rung lad attempt) 29 29 = 0 := by
  unfold ctrlOf
  have hne : ∀ (v hi lo x hi' lo' : Nat), lo ≤ hi → lo' ≤ hi' → (hi' < lo ∨ hi < lo') → bits (setBits v hi lo x) hi' lo' = bits v hi' lo' :=
    fun v hi lo x hi' lo' => bits_setBits_ne v hi lo x hi' lo'
  refine ⟨?_, ?_, ?_, ?_, ?_, ?_⟩
  · iterate 3 rw [hne _ _ _ _ _ _ (by decide) (by decide) (by decide)]
    rw [bits_setBits_same _ _ _ _ (by decide)]
    rfl
  · iterate 2 rw [hne _ _ _ _ _ _ (by decide) (by decide) (by decide)]
    rw [bits_setBits_same _ _ _ _ (by decide)]
    exact Nat.mod_eq_of_lt rung.isLt
  · rw [hne _ _ _ _ _ _ (by decide) (by decide) (by decide), bits_setBits_same _ _ _ _ (by decide)]
    exact Nat.mod_eq_of_lt lad.isLt
  · rw [bits_setBits_same _ _ _ _ (by decide)]
    rfl
  · iterate 4 rw [hne _ _ _ _ _ _ (by decide) (by decide) (by decide)]
    decide
  · iterate 4 rw [hne _ _ _ _ _ _ (by decide) (by decide) (by decide)]
    decide

/-- TAG of a word that arms for another tag (06 R187). -/
def State.tagged (s : State) (w ltag rung : Nat) : State :=
  if s.lw w 2 lwLtag = ltag % 65536 then s
  else (((s.setLw w 2 lwLtag ltag).setLw w 2 lwBase rung).setLw w 2 lwClean 0).setLw w 2 lwLast 0

theorem State.tagged_shown (s : State) (w ltag rung : Nat) : (s.tagged w ltag rung).lw w 2 lwLtag = ltag % 65536 ∧
    (∀ e ≠ 2, (s.tagged w ltag rung).counter (w + e) = s.counter (w + e)) ∧ (s.tagged w ltag rung).sync = s.sync := by
  unfold State.tagged
  split
  next h => exact ⟨h, fun _ _ => rfl, rfl⟩
  next =>
    have hne : ∀ (t : State) (g : Fld) (x : Nat), g.lo ≤ g.hi → lwLtag.hi < g.lo → (t.setLw w 2 g x).lw w 2 lwLtag = t.lw w 2 lwLtag :=
      fun t g x hg hd => State.lw_setLw_field _ _ _ _ _ _ hg (by decide) (by decide) (.inl hd)
    refine ⟨?_, fun e he => ?_, rfl⟩
    · rw [hne _ _ _ (by decide) (by decide), hne _ _ _ (by decide) (by decide), hne _ _ _ (by decide) (by decide),
        State.lw_setLw_same _ _ _ _ _ (by decide) (by decide)]
      rfl
    · have hentry : w + e ≠ w + 2 := by omega
      unfold State.setLw
      iterate 4 rw [State.counter_setCounter_ne _ _ hentry]

/-- A word that arms, before its waiters are examined. -/
def State.armedWith (s : State) (w ltag rung lad : Nat) : State :=
  let u := ((s.setCounter w (ctrlOf rung lad ((s.lw w 0 lwAttempt + 1) % 256))).setCounter (w + 1) 0).tagged w ltag rung
  u.putSync { u.sync with abortAt := FMap.del u.sync.abortAt w, armedWords := w :: u.sync.armedWords }

theorem State.openAt_unarmed {s : State} {w : Nat} (h : s.armed w = false) (ltag rung lad : Nat) :
    s.openAt w ltag rung lad = ((s.armedWith w ltag rung lad).lwExamine w, (s.lw w 0 lwAttempt + 1) % 256) := by
  rw [State.openAt, if_pos (by simp [h])]
  rfl

theorem State.armedWith_shown (s : State) {w : Nat} (hword : w % 4 = 0) (ltag : BitVec 16) (rung : Fin 4) (lad : Fin 2) :
    let t := s.armedWith w ltag.toNat rung lad
    t.armed w = true ∧ t.lw w 0 lwArmed = 1 ∧ t.lw w 0 lwRung = rung ∧ t.lw w 0 lwLad = lad ∧
    t.lw w 0 lwAttempt = (s.lw w 0 lwAttempt + 1) % 256 ∧ t.lw w 0 lwFlags = 0 ∧ t.lw w 0 lwAbort = 0 ∧ t.counter (w + 1) = 0 ∧
    t.lw w 2 lwLtag = ltag.toNat ∧ t.lwGen w = s.lwGen w ∧ t.sync.waiters = s.sync.waiters ∧ t.sync.answers = s.sync.answers := by
  intro t
  set x := (s.setCounter w (ctrlOf rung lad ((s.lw w 0 lwAttempt + 1) % 256))).setCounter (w + 1) 0 with hx
  obtain ⟨hltag, hentry, hsync⟩ := x.tagged_shown w ltag.toNat rung
  have hctrl : t.counter (w + 0) = ctrlOf rung lad ((s.lw w 0 lwAttempt + 1) % 256) % 2 ^ 32 := by
    refine (hentry 0 (by decide)).trans ?_
    rw [hx, State.counter_setCounter_ne _ _ (by omega)]
    exact State.counter_setCounter_same ..
  have hfield : ∀ f : Fld, f.hi < 32 → t.lw w 0 f = bits (ctrlOf rung lad ((s.lw w 0 lwAttempt + 1) % 256)) f.hi f.lo := fun f hf => by
    rw [State.lw, hctrl, bits_mod_two_pow _ _ _ _ hf]
  obtain ⟨harmed, hrung, hlad, hattempt, hflags, habort⟩ := ctrlOf_shown rung lad ((s.lw w 0 lwAttempt + 1) % 256)
  refine ⟨?_, (hfield _ (by decide)).trans harmed, (hfield _ (by decide)).trans hrung, (hfield _ (by decide)).trans hlad,
    ((hfield _ (by decide)).trans hattempt).trans (Nat.mod_mod ..), (hfield _ (by decide)).trans hflags,
    (hfield _ (by decide)).trans habort, ?_, hltag.trans (Nat.mod_eq_of_lt ltag.isLt), ?_, ?_, ?_⟩
  · rw [State.armed, wordOf_word hword]
    show (w :: (x.tagged w ltag.toNat rung).sync.armedWords).contains w = true
    simp
  · exact (hentry 1 (by decide)).trans ((State.counter_setCounter_same ..).trans (Nat.zero_mod _))
  · refine (hentry 3 (by decide)).trans ?_
    rw [hx, State.counter_setCounter_ne _ _ (by omega), State.counter_setCounter_ne _ _ (by omega), State.lwGen]
  · show (x.tagged w ltag.toNat rung).sync.waiters = s.sync.waiters
    rw [hsync]
    rfl
  · show (x.tagged w ltag.toNat rung).sync.answers = s.sync.answers
    rw [hsync]
    rfl

/-! ### Abort arrivals (06 R189, R191) -/

/-- An abort arrival, counted and marked, before its attempt closes. -/
def State.abortCounted (s : State) (w flags : Nat) (trap : Bool) : State :=
  let u := ((s.setLw w 0 lwFlags (s.lw w 0 lwFlags ||| flags % 16)).setLw w 1 lwArrived
    ((s.setLw w 0 lwFlags (s.lw w 0 lwFlags ||| flags % 16)).lw w 1 lwArrived + 1)).setLw w 0 lwAbort 1
  let x := if trap then u.setLw w 0 lwTrap 1 else u
  if FMap.has x.sync.abortAt w then x else x.putSync { x.sync with abortAt := FMap.set x.sync.abortAt w x.pulse }

theorem State.abortAt_counted {s : State} {w attempt : Nat} (h : s.matches w attempt = true) (flags : Nat) (trap : Bool) :
    s.abortAt w flags attempt trap = (s.abortCounted w flags trap).closeIfFull w := by
  rw [State.abortAt, if_neg (by simp [h])]
  rfl

theorem FMap.has_set {α : Type} (m : FMap α) (k : Nat) (v : α) : FMap.has (FMap.set m k v) k = true := by
  rw [FMap.has, FMap.get?_set_same]
  rfl

theorem State.abortCounted_shown {s : State} {w : Nat} (harrived : s.lw w 1 lwArrived = 0) (flags : Nat) (trap : Bool) :
    let t := s.abortCounted w flags trap
    t.lw w 0 lwAbort = 1 ∧ t.lw w 1 lwArrived = 1 ∧ t.lw w 1 lwExpect = s.lw w 1 lwExpect ∧ t.armed w = s.armed w ∧
    FMap.has t.sync.abortAt w = true ∧ t.lwGen w = s.lwGen w ∧ t.sync.waiters = s.sync.waiters := by
  intro t
  set u := ((s.setLw w 0 lwFlags (s.lw w 0 lwFlags ||| flags % 16)).setLw w 1 lwArrived
    ((s.setLw w 0 lwFlags (s.lw w 0 lwFlags ||| flags % 16)).lw w 1 lwArrived + 1)).setLw w 0 lwAbort 1 with hu
  set x := if trap then u.setLw w 0 lwTrap 1 else u with hx
  have hregs : t.regs = x.regs := by
    show (if FMap.has x.sync.abortAt w then x else _).regs = _
    split <;> rfl
  have hsync : x.sync = s.sync := by
    rw [hx]
    split <;> rfl
  have hlw : ∀ e f, t.lw w e f = x.lw w e f := fun e f => by
    rw [State.lw, State.counter, State.fld_of_rd (State.rd_of_regs hregs _), ← State.counter, ← State.lw]
  have hxlw : ∀ f : Fld, f ≠ lwTrap → f.lo ≤ f.hi → f.hi < 32 → lwTrap.hi < f.lo ∨ f.hi < lwTrap.lo → x.lw w 0 f = u.lw w 0 f :=
    fun f _ hf hhi hd => by
      rw [hx]
      split
      · exact State.lw_setLw_field _ _ _ _ _ _ (by decide) hf hhi hd.symm
      · rfl
  have hxentry : ∀ e f, e ≠ 0 → x.lw w e f = u.lw w e f := fun e f he => by
    rw [hx]
    split
    · exact State.lw_setLw_entry _ _ _ _ _ he
    · rfl
  have hgen : x.lwGen w = s.lwGen w := by
    have hugen : u.lwGen w = s.lwGen w :=
      (State.lwGen_setLw _ _ _ _ (by decide)).trans ((State.lwGen_setLw _ _ _ _ (by decide)).trans (State.lwGen_setLw _ _ _ _ (by decide)))
    rw [hx]
    split
    · exact (State.lwGen_setLw _ _ _ _ (by decide)).trans hugen
    · exact hugen
  have hcount : ∀ f, (s.setLw w 0 lwFlags (s.lw w 0 lwFlags ||| flags % 16)).lw w 1 f = s.lw w 1 f := fun f =>
    State.lw_setLw_entry _ _ _ _ _ (by decide)
  refine ⟨?_, ?_, ?_, ?_, ?_, ?_, ?_⟩
  · rw [hlw, hxlw _ (by decide) (by decide) (by decide) (by decide)]
    exact State.lw_setLw_same _ _ _ _ _ (by decide) (by decide)
  · rw [hlw, hxentry _ _ (by decide), hu, State.lw_setLw_entry _ _ _ _ _ (by decide), State.lw_setLw_same _ _ _ _ _ (by decide) (by decide),
      hcount, harrived]
    rfl
  · rw [hlw, hxentry _ _ (by decide), hu, State.lw_setLw_entry _ _ _ _ _ (by decide),
      State.lw_setLw_field _ _ _ _ _ _ (by decide) (by decide) (by decide) (by decide), hcount]
  · have harmed : t.sync.armedWords = x.sync.armedWords := by
      show (if FMap.has x.sync.abortAt w then x else _).sync.armedWords = _
      split <;> rfl
    rw [State.armed, harmed, hsync, State.armed]
  · show FMap.has (if FMap.has x.sync.abortAt w then x else _).sync.abortAt w = true
    split
    next h => exact h
    next => exact FMap.has_set ..
  · rw [State.lwGen, State.counter, State.fld_of_rd (State.rd_of_regs hregs _)]
    exact hgen
  · have hwaiters : t.sync.waiters = x.sync.waiters := by
      show (if FMap.has x.sync.abortAt w then x else _).sync.waiters = _
      split <;> rfl
    rw [hwaiters, hsync]

end Sys2Proof.Machine

open Sys2Proof Sys2Proof.Machine

/-- Settles O34: the word arms, counts and closes at its home, and the answers leave the table alone. -/
theorem layersAtHome : Obligations.LayersAtHome := by
  unfold Obligations.LayersAtHome
  intro v i home who w m s hwEq halone
  have hword : w % 4 = 0 := by
    rw [hwEq, wordOf]
    omega
  have hw : w + 3 < 65536 := by
    have := i.isLt
    rw [hwEq, wordOf]
    omega
  subst hwEq
  set w := wordOf i.toNat with hwDef
  refine ⟨fun ltag rung lad hreach hunarmed => ⟨_, rfl, ?opens⟩,
    fun flags attempt tmo hreach hmatches hexpect harrived habort hdisagree hclean hclean' => ⟨_, rfl, ?publishes⟩,
    fun flags attempt trap hreach hmatches hexpect harrived => ⟨_, rfl, ?aborts⟩,
    fun t0 hsince harmed hexpect htime => ⟨_, rfl, ?abortTimeout⟩, fun x hlwait hxword hiw hxwho hxhome hdue => ⟨_, rfl, ?commitTimeout⟩⟩
  case opens =>
    obtain ⟨inbox, tmr, hkept, hanswer⟩ := State.atHome_performed hreach (fun _ => rfl)
      (fun s _ => ((s.openAt w ltag.toNat rung lad).1, .opened (s.openAt w ltag.toNat rung lad).2))
    obtain ⟨harmed, hctrl, hrung, hlad, hattempt, hflags, habort, hcount, hltag, hgen, hwaiters, hanswers⟩ :=
      (s.tookIn inbox tmr).armedWith_shown hword ltag rung lad
    have hexamine : ((s.tookIn inbox tmr).armedWith w ltag.toNat rung lad).lwExamine w =
        (s.tookIn inbox tmr).armedWith w ltag.toNat rung lad := State.lwExamine_none hword (by rw [hwaiters]; exact halone)
    rw [State.openAt_unarmed (s := s.tookIn inbox tmr) hunarmed, hexamine] at hkept hanswer
    refine ⟨(hkept.armed w).trans harmed, (hkept.lw (by omega) _).trans hctrl, (hkept.lw (by omega) _).trans hrung,
      (hkept.lw (by omega) _).trans hlad, (hkept.lw (by omega) _).trans hattempt, (hkept.lw (by omega) _).trans hflags,
      (hkept.lw (by omega) _).trans habort, (hkept.counter (by omega)).trans hcount, (hkept.lw (by omega) _).trans hltag,
      (hkept.lwGen hw).trans hgen, fun hown => (hanswer hown).trans (congrArg (· ++ _) hanswers)⟩
  case publishes =>
    obtain ⟨inbox, tmr, hkept, -⟩ := State.atHome_performed hreach (fun _ => rfl)
      (fun s m => s.arrivalAt w m who flags 1 attempt tmo)
    obtain ⟨x, hperform, hx⟩ := State.arrivalAt_counted (s := s.tookIn inbox tmr) (m := m) (who := who) (flags := flags) (tmo := tmo)
      hmatches (by decide : 1 < 65536) (.inl hexpect)
    have hroom : (s.tookIn inbox tmr).lw w 1 lwArrived + 1 < 65536 := by
      rw [show (s.tookIn inbox tmr).lw w 1 lwArrived = 0 from harrived]
      decide
    rw [hperform, hx.closes (by decide) hroom (by omega) habort hdisagree hclean hclean'] at hkept
    have hclosed := (State.closeWord_closed hw hword (by rw [hx.waiters]; exact halone) 0).homeKept hkept hw
    refine ⟨hclosed.armed, hclosed.ctrl, hclosed.gen.trans ?_, hclosed.last⟩
    rw [if_pos rfl, State.lwGen, State.counter, State.fld_of_rd hx.gen]
    rfl
  case aborts =>
    obtain ⟨inbox, tmr, hkept, -⟩ := State.atHome_performed hreach (fun _ => rfl)
      (fun s _ => (s.abortAt w flags attempt trap, .done))
    obtain ⟨habort, hcount, hknown, harmed, hsince, hgen, hwaiters⟩ :=
      (s.tookIn inbox tmr).abortCounted_shown harrived flags trap
    set y := (s.tookIn inbox tmr).abortCounted w flags trap
    have hunknown : (y.lw w 1 lwExpect != 0 && decide (y.lw w 1 lwArrived ≥ y.lw w 1 lwExpect)) = false := by
      rw [hknown, show (s.tookIn inbox tmr).lw w 1 lwExpect = 0 from hexpect]
      rfl
    have hopen : y.closeIfFull w = y := by
      rw [State.closeIfFull, if_neg (by rw [hunknown]; decide)]
      exact State.lwExamine_none hword (by rw [hwaiters]; exact halone)
    rw [State.abortAt_counted (s := s.tookIn inbox tmr) hmatches, hopen] at hkept
    obtain ⟨answers, hsync⟩ := hkept.sync
    have harmedWord : s.armed w = true := by
      simp only [State.matches, Bool.and_eq_true] at hmatches
      exact hmatches.1
    exact ⟨(hkept.lw (by omega) _).trans habort, (hkept.lw (by omega) _).trans hcount, (hkept.armed w).trans (harmed.trans harmedWord),
      (congrArg (fun z : Sync => FMap.has z.abortAt w) hsync).trans hsince, (hkept.lwGen hw).trans hgen⟩
  case abortTimeout =>
    have hgo : (s.armed w && decide (s.lw w 1 lwExpect = 0) && s.reached t0 s.syncDefault) = true := by simp [harmed, hexpect, htime]
    rw [← hwDef, hsince]
    dsimp only
    rw [if_pos hgo]
    have hclosed := State.closeWord_closed hw hword halone 3
    exact ⟨hclosed.armed, hclosed.ctrl, hclosed.last, hclosed.gen⟩
  case commitTimeout =>
    have hfind : s.sync.lwait.find? (fun y => y.word == i.toNat && y.home == home.toNat && y.who == who) = some x := by
      simp [hlwait, hxword, hxhome, hxwho]
    rw [hfind]
    dsimp only
    rw [if_pos hdue, hiw]
    have hclosed := State.closeWord_closed hw hword halone 5
    refine ⟨hclosed.armed, hclosed.ctrl, hclosed.last, hclosed.gen, hclosed.lwait.trans ?_⟩
    rw [hlwait]
    simp [hxword, hiw]
end

section
/-!
PROOF. Claims (18 R488 to R491; 09 R281).
-/
namespace Sys2Proof.Machine

/-! ### Bits ORed by hardware -/

theorem getFld_or (v w : Word) (f : Fld) : getFld (v ||| w) f = getFld v f ||| getFld w f := by
  refine Nat.eq_of_testBit_eq fun i => ?_
  rw [Nat.testBit_or, testBit_getFld, testBit_getFld, testBit_getFld, BitVec.getLsbD_or]
  cases decide (i < f.width) <;> simp

theorem getFld_zero (f : Fld) : getFld 0 f = 0 := by
  refine Nat.eq_of_testBit_eq fun i => ?_
  simp [testBit_getFld]

theorem State.rd_hwOr_same (s : State) (a : Nat) (f : Fld) (x : Nat) : (s.hwOr a f x).rd a = s.rd a ||| putFld 0 f x := s.rd_wr_same a _

theorem State.fld_hwOr_same (s : State) (a : Nat) {f : Fld} (hf : f.ok) (x : Nat) :
    (s.hwOr a f x).fld a f = s.fld a f ||| x % 2 ^ f.width := by
  rw [State.fld, State.rd_hwOr_same, getFld_or, getFld_putFld_same _ _ _ hf, State.fld]

theorem State.fld_hwOr_field (s : State) (a : Nat) {f g : Fld} (hf : f.ok) (hg : g.ok) (hd : g.hi < f.lo ∨ f.hi < g.lo) (x : Nat) :
    (s.hwOr a f x).fld a g = s.fld a g := by
  rw [State.fld, State.rd_hwOr_same, getFld_or, getFld_putFld_ne _ _ _ _ hf hg hd, getFld_zero, Nat.or_zero, State.fld]

/-! ### Refusals (18 R491) -/

theorem conflictFld_ok {res : Nat} : (conflictFld res).ok ∧ (conflictFld res).hi < 16 := by
  unfold conflictFld
  split <;> decide

/-- The register of a refusal, before its event. -/
def State.refusalNoted (s : State) (res clm : Nat) : State :=
  (((s.incSat A.conflict F.conflict.COUNT 1).setFld A.conflict F.conflict.LASTRES res).setFld A.conflict F.conflict.LASTCLM clm).hwOr
    A.conflict (conflictFld res) (2 ^ (clm - 1))

theorem State.refuse_eq (s : State) (res clm holder : Nat) : s.refuse res clm holder =
    if s.fldBit A.conflict (conflictFld res) (clm - 1) then s.refusalNoted res clm
    else (s.refusalNoted res clm).raise 0xB5 (evSource 0 0) [BitVec.ofNat 8 res, BitVec.ofNat 8 clm, BitVec.ofNat 8 holder] := rfl

theorem State.rd_refusalNoted_ne (s : State) (res clm : Nat) {a : Nat} (ha : a ≠ A.conflict) : (s.refusalNoted res clm).rd a = s.rd a :=
  (State.rd_hwOr_ne _ _ _ ha).trans ((State.rd_setFld_ne _ _ _ ha).trans ((State.rd_setFld_ne _ _ _ ha).trans (State.rd_setFld_ne _ _ _ ha)))

theorem State.rd_refuse (s : State) (res clm holder a : Nat) : (s.refuse res clm holder).rd a = (s.refusalNoted res clm).rd a := by
  rw [State.refuse_eq]
  split
  · rfl
  · exact State.rd_of_regs (State.raise_regs ..) _

theorem State.rd_refuse_ne (s : State) (res clm holder : Nat) {a : Nat} (ha : a ≠ A.conflict) :
    (s.refuse res clm holder).rd a = s.rd a := (s.rd_refuse ..).trans (s.rd_refusalNoted_ne _ _ ha)

/-- A refusal is counted, and shows its resource and its claimant. -/
theorem State.refusalNoted_shown (s : State) {res clm : Nat} (hres : res < 16) (hclm : clm < 16) :
    (s.refusalNoted res clm).fld A.conflict F.conflict.COUNT = min (s.fld A.conflict F.conflict.COUNT + 1) 0xFFFF ∧
    (s.refusalNoted res clm).fld A.conflict F.conflict.LASTRES = res ∧
    (s.refusalNoted res clm).fld A.conflict F.conflict.LASTCLM = clm := by
  obtain ⟨hok, hlow⟩ := conflictFld_ok (res := res)
  unfold State.refusalNoted
  refine ⟨?_, ?_, ?_⟩
  · rw [State.fld_hwOr_field _ _ hok (by decide) (.inr (by simp only [F.conflict.COUNT]; omega)),
      State.fld_setFld_field _ _ _ _ _ (by decide) (by decide) (by decide),
      State.fld_setFld_field _ _ _ _ _ (by decide) (by decide) (by decide), State.incSat, State.fld_setFld_same _ _ _ _ (by decide)]
    exact Nat.mod_eq_of_lt (Nat.lt_of_le_of_lt (Nat.min_le_right ..) (by decide))
  · rw [State.fld_hwOr_field _ _ hok (by decide) (.inr (by simp only [F.conflict.LASTRES]; omega)),
      State.fld_setFld_field _ _ _ _ _ (by decide) (by decide) (by decide), State.fld_setFld_same _ _ _ _ (by decide)]
    exact Nat.mod_eq_of_lt hres
  · rw [State.fld_hwOr_field _ _ hok (by decide) (.inr (by simp only [F.conflict.LASTCLM]; omega)),
      State.fld_setFld_same _ _ _ _ (by decide)]
    exact Nat.mod_eq_of_lt hclm

theorem State.refusalNoted_bit (s : State) {res clm : Nat} (hbit : clm - 1 < (conflictFld res).width) :
    (s.refusalNoted res clm).fldBit A.conflict (conflictFld res) (clm - 1) = true := by
  rw [State.refusalNoted, State.fldBit, State.fld_hwOr_same _ _ conflictFld_ok.1, Nat.testBit_or, Nat.testBit_mod_two_pow, decide_eq_true hbit, Bool.true_and,
    Nat.testBit_two_pow_self, Bool.or_true]

theorem State.refuse_last (s : State) {res clm : Nat} (holder : Nat) (hres : res < 16) (hclm : clm < 16) :
    (s.refuse res clm holder).fld A.conflict F.conflict.LASTRES = res ∧
    (s.refuse res clm holder).fld A.conflict F.conflict.LASTCLM = clm := by
  obtain ⟨-, hlastres, hlastclm⟩ := s.refusalNoted_shown hres hclm
  have hrd := s.rd_refuse res clm holder
  exact ⟨(State.fld_of_rd (hrd _) _).trans hlastres, (State.fld_of_rd (hrd _) _).trans hlastclm⟩

/-- A refused claim is counted, recorded and reported, and changes no other register (18 R491). -/
theorem State.refuse_refusedTo (s : State) {res clm : Nat} (holder : Nat) (hres : res < 16) (hclm : clm < 16)
    (hbit : clm - 1 < (conflictFld res).width) : s.refusedTo (s.refuse res clm holder) res clm holder := by
  obtain ⟨hcount, hlastres, hlastclm⟩ := s.refusalNoted_shown hres hclm
  have hrd := s.rd_refuse res clm holder
  refine ⟨(State.fld_of_rd (hrd _) _).trans hcount, (State.fld_of_rd (hrd _) _).trans hlastres,
    (State.fld_of_rd (hrd _) _).trans hlastclm, ?_, fun a ha => s.rd_refuse_ne res clm holder ha, fun hclear => ?_⟩
  · rw [State.fldBit, State.fld_of_rd (hrd _)]
    exact s.refusalNoted_bit hbit
  · rw [State.refuse_eq, hclear, if_neg Bool.false_ne_true]
    exact State.raises_of_raise (u := s.refusalNoted res clm) rfl List.prefix_rfl

/-! ### MARK_OUT (18 R488, R489) -/

/-- The registers and fields of the claimants' enables. -/
def markEnable (clm : Nat) : Nat × Fld :=
  match clm with
  | 1 => (A.gtPps, F.gtPps.OUTEN)
  | 2 => (A.clkMark, F.clkMark.CALEN)
  | _ => (A.clkMark, F.clkMark.DBGEN)

theorem State.setMarkEnable_eq (s : State) (clm : Nat) (en : Bool) :
    s.setMarkEnable clm en = s.setFld (markEnable clm).1 (markEnable clm).2 en.toNat := by
  rcases clm with _ | _ | _ | _ <;> rfl

theorem markEnable_apart (clm : Nat) : (markEnable clm).2.ok ∧ (markEnable clm).1 ≠ A.conflict ∧
    ((markEnable clm).1 = A.clkMark → (markEnable clm).2.hi < F.clkMark.HOLDER.lo) ∧ (markEnable clm).2.width = 1 := by
  unfold markEnable
  split <;> decide

/-- The enable of a claimant keeps its value where the holder changes. -/
theorem State.fld_markEnable_holder (s : State) (clm x : Nat) :
    (s.setFld A.clkMark F.clkMark.HOLDER x).fld (markEnable clm).1 (markEnable clm).2 = s.fld (markEnable clm).1 (markEnable clm).2 := by
  obtain ⟨hok, -, hbelow, -⟩ := markEnable_apart clm
  by_cases h : (markEnable clm).1 = A.clkMark
  · rw [h]
    exact State.fld_setFld_field _ _ _ _ _ (by decide) hok (.inl (hbelow h))
  · exact State.fld_setFld_ne _ _ _ _ h

theorem State.fld_markEnable_same (s : State) (clm : Nat) (en : Bool) :
    (s.setMarkEnable clm en).fld (markEnable clm).1 (markEnable clm).2 = en.toNat := by
  obtain ⟨hok, -, -, hwidth⟩ := markEnable_apart clm
  rw [State.setMarkEnable_eq, State.fld_setFld_same _ _ _ _ hok, hwidth]
  cases en <;> rfl

theorem State.driveMark_regs (s : State) (high : Bool) : (s.driveMark high).regs = s.regs := by
  unfold State.driveMark
  split <;> rfl

/-- MARK_OUT held by a claimant: the holder and its enable. -/
def State.markHeld (s : State) (clm : Nat) : State := (s.setMarkEnable clm true).setFld A.clkMark F.clkMark.HOLDER clm

theorem State.markHeld_shown (s : State) {clm : Nat} (hclm : clm < 4) : (s.markHeld clm).fld A.clkMark F.clkMark.HOLDER = clm ∧
    (s.markHeld clm).fld (markEnable clm).1 (markEnable clm).2 = 1 := by
  refine ⟨?_, ?_⟩
  · exact (State.fld_setFld_same _ _ _ _ (by decide)).trans (Nat.mod_eq_of_lt hclm)
  · exact (State.fld_markEnable_holder _ _ _).trans (State.fld_markEnable_same _ _ _)

/-- A claim of MARK_OUT where it is free, held by its claimant, or held by another (18 R488). -/
theorem State.markClaim_cases (s : State) {clm : Nat} (hlow : 0 < clm) (hclm : clm < 4) (h : Nat)
    (hh : h = s.fld A.clkMark F.clkMark.HOLDER) :
    (h = 0 → (s.markClaim clm true).fld A.clkMark F.clkMark.HOLDER = clm ∧
      (s.markClaim clm true).fld (markEnable clm).1 (markEnable clm).2 = 1 ∧ s.onlyIn [.regs, .cyc] (s.markClaim clm true)) ∧
    (h = clm → s.markClaim clm true = s ∧ (s.markClaim clm false).fld A.clkMark F.clkMark.HOLDER = 0 ∧
      (s.markClaim clm false).fld (markEnable clm).1 (markEnable clm).2 = 0 ∧ (s.markClaim clm false).clk.mark = false ∧
      (s.markClaim clm false).out = if s.clk.mark then s.out ++ [Msg.markOut false] else s.out) ∧
    (h ≠ 0 → h ≠ clm → s.markClaim clm false = s ∧
      (s.outranks 1 clm h = false → s.refusedTo (s.markClaim clm true) 1 clm h) ∧
      (s.outranks 1 clm h = true → (s.markClaim clm true).fld A.clkMark F.clkMark.HOLDER = clm ∧
        (s.markClaim clm true).fld (markEnable clm).1 (markEnable clm).2 = 1 ∧
        (s.markClaim clm true).fld A.conflict F.conflict.LASTRES = 1 ∧ (s.markClaim clm true).fld A.conflict F.conflict.LASTCLM = h)) := by
  have hmark : A.clkMark ≠ A.conflict := by decide
  have hhlt : h < 4 := hh ▸ getFld_lt ..
  obtain ⟨hok, hconf, hbelow, hwidth⟩ := markEnable_apart clm
  refine ⟨fun hfree => ?_, fun hown => ?_, fun hheld hother => ⟨?_, fun hrank => ?_, fun hrank => ?_⟩⟩
  · have hclaim : s.markClaim clm true = (s.markHeld clm).claimed 1 clm := by
      rw [State.markClaim, ← hh, if_pos rfl, if_pos hfree]
      rfl
    obtain ⟨hholder, henable⟩ := s.markHeld_shown hclm
    rw [hclaim]
    refine ⟨hholder, henable, State.Same.onlyIn ?_⟩
    rw [State.markHeld, State.setMarkEnable_eq]
    exact State.putCyc_same (by decide) _ _ (State.setFld_same (by decide) _ _ _ _ (State.setFld_same (by decide) _ _ _ _ (.refl s)))
  · have hclaim : s.markClaim clm true = s := by
      rw [State.markClaim, ← hh, if_pos rfl, if_neg (by omega), if_pos hown]
    have hfree : s.markClaim clm false = ((s.setMarkEnable clm false).setFld A.clkMark F.clkMark.HOLDER 0).driveMark false := by
      rw [State.markClaim, ← hh, if_neg Bool.false_ne_true, if_pos hown]
    have hrd := State.rd_of_regs (((s.setMarkEnable clm false).setFld A.clkMark F.clkMark.HOLDER 0).driveMark_regs false)
    rw [hfree]
    refine ⟨hclaim, ?_, ?_, ?_⟩
    · rw [State.fld_of_rd (hrd _), State.fld_setFld_same _ _ _ _ (by decide), Nat.zero_mod]
    · rw [State.fld_of_rd (hrd _), State.fld_markEnable_holder, State.fld_markEnable_same]
      rfl
    · rw [State.setMarkEnable_eq]
      set u := (s.setFld (markEnable clm).1 (markEnable clm).2 false.toNat).setFld A.clkMark F.clkMark.HOLDER 0
      have hclk : u.clk = s.clk := rfl
      have hout : u.out = s.out := rfl
      rw [State.driveMark, hclk]
      cases hm : s.clk.mark with
      | false => exact ⟨hm, hout⟩
      | true => exact ⟨rfl, rfl⟩
  · rw [State.markClaim, ← hh, if_neg Bool.false_ne_true, if_neg hother]
  · have hclaim : s.markClaim clm true = s.refuse 1 clm h := by
      rw [State.markClaim, ← hh, if_pos rfl, if_neg hheld, if_neg hother, hrank]
      rfl
    rw [hclaim]
    exact s.refuse_refusedTo h (by decide) (by omega) (by simp only [conflictFld, F.conflict.MARK, Fld.width]; omega)
  · have hclaim : s.markClaim clm true =
        ((((s.setMarkEnable h false).markHeld clm).driveMark false).claimed 1 clm).refuse 1 h clm := by
      rw [State.markClaim, ← hh, if_pos rfl, if_neg hheld, if_neg hother, hrank]
      rfl
    have hrefused := ((((s.setMarkEnable h false).markHeld clm).driveMark false).claimed 1 clm).refuse_refusedTo
      (res := 1) (clm := h) clm (by decide) (by omega) (by simp only [conflictFld, F.conflict.MARK, Fld.width]; omega)
    obtain ⟨-, hlastres, hlastclm, -, hother, -⟩ := hrefused
    obtain ⟨hholder, henable⟩ := (s.setMarkEnable h false).markHeld_shown hclm
    have hrd : ∀ a, a ≠ A.conflict → (((((s.setMarkEnable h false).markHeld clm).driveMark false).claimed 1 clm).refuse 1 h clm).rd a =
        ((s.setMarkEnable h false).markHeld clm).rd a := fun a ha =>
      (hother a ha).trans (State.rd_of_regs (((s.setMarkEnable h false).markHeld clm).driveMark_regs false) a)
    rw [hclaim]
    exact ⟨(State.fld_of_rd (hrd _ hmark) _).trans hholder, (State.fld_of_rd (hrd _ hconf) _).trans henable, hlastres, hlastclm⟩

/-! ### The staging region (09 R281) -/

theorem State.stageClaim_kept {s : State} {x : Nat} (hx : x = 1 ∨ x = 2) : s.stageClaim x =
    if s.fld A.tbyStage F.tbyStage.OWNER = 0 then (s.setFld A.tbyStage F.tbyStage.OWNER x).claimed 2 x
    else if s.fld A.tbyStage F.tbyStage.OWNER = x then s
    else if s.outranks 2 x (s.fld A.tbyStage F.tbyStage.OWNER) && !s.flag A.trsCtl F.trsCtl.EN then
      ((s.setFld A.tbyStage F.tbyStage.OWNER x).claimed 2 x).refuse 2 (s.fld A.tbyStage F.tbyStage.OWNER) x
    else s.refuse 2 x (s.fld A.tbyStage F.tbyStage.OWNER) := by
  obtain rfl | rfl := hx <;> rfl

end Sys2Proof.Machine

open Sys2Proof Sys2Proof.Machine

/-- Settles O39: a claim by the holder's place (free, its own, another's), and the sweep by whether its period has passed. -/
theorem claims : Obligations.Claims := by
  unfold Obligations.Claims
  intro s h o hh ho
  refine ⟨fun q hq => ?mark, fun x => ?stage, fun hfree hoff => ⟨_, rfl, ?sweepTake⟩, fun howner => ⟨_, rfl, ?sweepRefused⟩,
    fun howner => ⟨_, rfl, ?sweepFree⟩, fun howner => ?sweepOther, fun hnot => ?early, fun hon htime => ?due⟩
  case mark =>
    have hcases : ∀ (clm : Nat) (i : Bool → Instr), 0 < clm → clm < 4 → (∀ en, exec (i en) s = .next (s.markClaim clm en)) →
        (h = 0 → ∃ t, exec (i true) s = .next t ∧ t.fld A.clkMark F.clkMark.HOLDER = clm ∧
          t.fld (markEnable clm).1 (markEnable clm).2 = 1 ∧ s.onlyIn [.regs, .cyc] t) ∧
        (h = clm → exec (i true) s = .next s ∧ ∃ t, exec (i false) s = .next t ∧ t.fld A.clkMark F.clkMark.HOLDER = 0 ∧
          t.fld (markEnable clm).1 (markEnable clm).2 = 0 ∧ t.clk.mark = false ∧
          t.out = if s.clk.mark then s.out ++ [Msg.markOut false] else s.out) ∧
        (h ≠ 0 → h ≠ clm → exec (i false) s = .next s ∧
          (s.outranks 1 clm h = false → ∃ t, exec (i true) s = .next t ∧ s.refusedTo t 1 clm h) ∧
          (s.outranks 1 clm h = true → ∃ t, exec (i true) s = .next t ∧ t.fld A.clkMark F.clkMark.HOLDER = clm ∧
            t.fld (markEnable clm).1 (markEnable clm).2 = 1 ∧ t.fld A.conflict F.conflict.LASTRES = 1 ∧
            t.fld A.conflict F.conflict.LASTCLM = h)) := by
      intro clm i hlow hclm hexec
      obtain ⟨hfree, hown, hother⟩ := s.markClaim_cases hlow hclm h hh
      refine ⟨fun h0 => ⟨_, hexec true, hfree h0⟩, fun hc => ?_, fun h0 hc => ?_⟩
      · obtain ⟨hsame, hrest⟩ := hown hc
        exact ⟨(hexec true).trans (by rw [hsame]), _, hexec false, hrest⟩
      · obtain ⟨hsame, hlower, hhigher⟩ := hother h0 hc
        exact ⟨(hexec false).trans (by rw [hsame]), fun hr => ⟨_, hexec true, hlower hr⟩, fun hr => ⟨_, hexec true, hhigher hr⟩⟩
    simp only [List.mem_cons, List.not_mem_nil, or_false] at hq
    obtain rfl | rfl | rfl := hq
    · exact hcases 1 Instr.ppsOutClaim (by decide) (by decide) fun _ => rfl
    · exact hcases 2 Instr.calMarkClaim (by decide) (by decide) fun _ => rfl
    · exact hcases 3 Instr.dbgTriggerClaim (by decide) (by decide) fun _ => rfl
  case stage =>
    have hstage : A.tbyStage ≠ A.conflict := by decide
    have hbits : ∀ c, c < 3 → c - 1 < (conflictFld 2).width := fun c hc => by simp only [conflictFld, F.conflict.STAGE, Fld.width]; omega
    have howner : ∀ y, y < 4 → ∀ t : State, (t.setFld A.tbyStage F.tbyStage.OWNER y).fld A.tbyStage F.tbyStage.OWNER = y := fun y hy t =>
      (State.fld_setFld_same _ _ _ _ (by decide)).trans (Nat.mod_eq_of_lt hy)
    refine ⟨rfl, fun ho2 => ?_, fun ho1 => ⟨_, rfl, ?_, ?_⟩, fun hx => ⟨fun ho0 => ⟨_, rfl, ?_⟩, fun hox => ?_,
      fun ho0 hox => ⟨fun hlose => ⟨_, rfl, ?_⟩, fun hrank hoff => ⟨_, rfl, ?_⟩⟩⟩⟩
    · show Host.Outcome.next (if s.fld A.tbyStage F.tbyStage.OWNER = 1 then _ else s) = _
      rw [if_neg (by omega)]
    · show (if s.fld A.tbyStage F.tbyStage.OWNER = 1 then _ else s).fld A.tbyStage F.tbyStage.OWNER = 0
      rw [if_pos (by omega)]
      exact howner 0 (by decide) s
    · show (if s.fld A.tbyStage F.tbyStage.OWNER = 1 then _ else s).mem = s.mem
      rw [if_pos (by omega)]
      rfl
    · have hxv : x.val = 1 ∨ x.val = 2 := hx.imp (congrArg Fin.val) (congrArg Fin.val)
      rw [State.stageClaim_kept hxv, ← ho, if_pos ho0]
      exact ⟨howner x x.isLt s, rfl⟩
    · have hxv : x.val = 1 ∨ x.val = 2 := hx.imp (congrArg Fin.val) (congrArg Fin.val)
      show Host.Outcome.next (s.stageClaim x) = _
      rw [State.stageClaim_kept hxv, ← ho, if_neg (by omega), if_pos hox]
    · have hxv : x.val = 1 ∨ x.val = 2 := hx.imp (congrArg Fin.val) (congrArg Fin.val)
      have hlost : ¬ (s.outranks 2 x o && !s.flag A.trsCtl F.trsCtl.EN) = true := by
        obtain hr | he := hlose
        · simp [hr]
        · simp [he]
      rw [State.stageClaim_kept hxv, ← ho, if_neg ho0, if_neg hox, if_neg hlost]
      exact s.refuse_refusedTo o (by decide) (by omega) (hbits _ (by omega))
    · have hxv : x.val = 1 ∨ x.val = 2 := hx.imp (congrArg Fin.val) (congrArg Fin.val)
      have holt : o < 4 := ho ▸ getFld_lt ..
      rw [State.stageClaim_kept hxv, ← ho, if_neg ho0, if_neg hox, if_pos (by rw [hrank, hoff]; rfl)]
      have hlast := ((s.setFld A.tbyStage F.tbyStage.OWNER x).claimed 2 x).refuse_last (res := 2) (clm := o) x (by decide) (by omega)
      exact ⟨(State.fld_of_rd (State.rd_refuse_ne _ _ _ _ hstage) _).trans (howner x x.isLt s), hlast⟩
  case sweepTake =>
    rw [State.sweepClaim, if_pos rfl, State.alarmTake, if_pos hfree]
    dsimp only
    rw [if_pos (by rw [hoff]; rfl)]
    refine ⟨?_, ?_, rfl⟩
    · refine (State.fld_setFld_field _ _ _ _ _ (by decide) (by decide) (by decide)).trans ?_
      exact State.fld_setFld_same _ _ _ _ (by decide)
    · show (_ != 0) = true
      rw [bne_iff_ne]
      refine ne_of_eq_of_ne (State.fld_setFld_same _ _ _ _ (by decide)) (by decide)
  case sweepRefused =>
    have hlost : s.outranks 3 2 1 = false := by simp [State.outranks]
    have hrefuse : s.sweepClaim true = s.refuse 3 2 1 := by
      have htake : s.alarmTake 2 = (s.refuse 3 2 1, false) := by
        simp [State.alarmTake, howner, hlost]
      rw [State.sweepClaim, if_pos rfl, htake]
      rfl
    rw [hrefuse]
    exact s.refuse_refusedTo 1 (by decide) (by decide) (by decide)
  case sweepFree =>
    rw [State.sweepClaim, if_neg Bool.false_ne_true, if_pos howner, State.alarmFree, if_pos howner]
    refine ⟨?_, ?_⟩
    · rw [State.fld_setFld_field _ _ _ _ _ (by decide) (by decide) (by decide)]
      exact (State.fld_setFld_same _ _ _ _ (by decide)).trans (Nat.zero_mod _)
    · rw [State.flag, State.fld_setFld_same _ _ _ _ (by decide)]
      rfl
  case sweepOther =>
    show Host.Outcome.next (s.sweepClaim false) = _
    rw [State.sweepClaim, if_neg Bool.false_ne_true, if_neg howner]
  case early =>
    have hgo : (s.flag A.clkAlarm F.clkAlarm.SWEEP && s.reached s.clk.sweepAt (max 1 (s.fld A.clkAlarm F.clkAlarm.PERIOD) * 1000)) = false := by
      obtain hoff | htime := hnot
      · rw [hoff, Bool.false_and]
      · rw [htime, Bool.and_false]
    exact if_neg (by rw [hgo]; decide)
  case due =>
    have hgo : (s.flag A.clkAlarm F.clkAlarm.SWEEP && s.reached s.clk.sweepAt (max 1 (s.fld A.clkAlarm F.clkAlarm.PERIOD) * 1000)) = true := by
      rw [hon, htime]; rfl
    have hexec : exec .alarmSweep s = match s.longBlocked with
        | [] => Host.Outcome.next (s.putClk { s.clk with sweepAt := s.pulse })
        | p :: _ => Host.Outcome.next ((s.putClk { s.clk with sweepAt := s.pulse }).raise 0x54 (evSource 4 0)
            (leBytes 2 s.longBlocked.length ++ leBytes 2 (whoBits p.1 p.2))) := if_pos hgo
    rw [hexec]
    rcases hl : s.longBlocked with _ | ⟨p, l⟩
    · exact ⟨_, rfl, rfl, rfl, fun _ => rfl, fun p l h => absurd h (by simp)⟩
    · refine ⟨_, rfl, ?_, State.raise_regs .., fun h => absurd h (by simp), fun p' l' h => ?_⟩
      · exact congrArg Clk.sweepAt ((State.raise_same (msk := 2 ^ Part.clk.idx) rfl _ _ _ _ (.refl _)).same .clk rfl)
      · obtain ⟨rfl, rfl⟩ := List.cons.inj h
        exact State.raises_of_raise (u := s.putClk { s.clk with sweepAt := s.pulse }) rfl List.prefix_rfl
end

section
/-!
PROOF. StepTakesFront, EmptyQueueTicks, ResetCanonical and ResetValues: the step at the front of the queue, the period of the
arithmetic clock (04 R148, 14 R404), and the state after reset.
-/
namespace Sys2Proof.Machine

/-! ### Cycles that a throttled clock skips -/

/-- Only the bits of the pulse, of the last reset and of the skipped cycles. -/
def cycMask : Nat := 2 ^ Part.pulse.idx + 2 ^ Part.cycZero.idx + 2 ^ Part.skipped.idx

/-- The cycles skipped by a C-die whose clock is counted with the others of a list. -/
def State.skipDie (s : State) (c : Nat) : State :=
  if s.dieRuns c then s else s.putSkipped (FMap.set s.skipped c (FMap.getD s.skipped c 0 + 1))

theorem State.countSkipped_eq (s : State) : s.countSkipped = cdies.foldl State.skipDie s := rfl

theorem State.skipDie_dieRuns (s : State) (c k : Nat) : (s.skipDie c).dieRuns k = s.dieRuns k := by
  unfold State.skipDie
  split <;> rfl

theorem State.getD_skipDie (s : State) (c k : Nat) : FMap.getD (s.skipDie c).skipped k 0 =
    FMap.getD s.skipped k 0 + if k = c ∧ s.dieRuns c = false then 1 else 0 := by
  unfold State.skipDie
  by_cases hr : s.dieRuns c
  · rw [if_pos hr, if_neg (by simp [hr]), Nat.add_zero]
  · rw [if_neg hr]
    by_cases hk : k = c
    · rw [if_pos ⟨hk, Bool.eq_false_iff.2 hr⟩, hk]
      exact congrArg (Option.getD · 0) (FMap.get?_set_same ..)
    · rw [if_neg fun h => hk h.1, Nat.add_zero]
      exact congrArg (Option.getD · 0) (FMap.get?_set_ne _ _ hk)

theorem State.getD_skipDies (l : List Nat) (hl : l.Nodup) (s : State) (k : Nat) :
    FMap.getD (l.foldl State.skipDie s).skipped k 0 =
      FMap.getD s.skipped k 0 + if k ∈ l ∧ s.dieRuns k = false then 1 else 0 := by
  induction l generalizing s with
  | nil => simp
  | cons c l ih =>
    obtain ⟨hc, hl⟩ := List.nodup_cons.1 hl
    rw [List.foldl_cons, ih hl, State.getD_skipDie, State.skipDie_dieRuns]
    by_cases hk : k = c
    · subst hk
      simp [hc]
    · simp [hk]

theorem State.skipDies_kept (l : List Nat) (s : State) :
    (l.foldl State.skipDie s).pulse = s.pulse ∧ (l.foldl State.skipDie s).cycZero = s.cycZero := by
  induction l generalizing s with
  | nil => exact ⟨rfl, rfl⟩
  | cons c l ih =>
    obtain ⟨hpulse, hzero⟩ := ih (s.skipDie c)
    rw [List.foldl_cons, hpulse, hzero]
    unfold State.skipDie
    split <;> exact ⟨rfl, rfl⟩

/-! ### One period of the arithmetic clock -/

/-- What a period does after the cycles that a throttle removes are counted. -/
def State.afterSkipped (s : State) : State := s.gtAdvance.relockAll.markFall.countStalls.lendWatch.serveAll

theorem State.tick_off {s : State} (h : s.rst.on = false) : s.tick = s.putPulse (s.pulse + 1) :=
  if_pos (by rw [State.putPulse_rst, h]; decide)

theorem State.tick_on {s : State} (h : s.rst.on = true) :
    s.tick = (s.putPulse (s.pulse + 1)).runAgain.countSkipped.afterSkipped :=
  if_neg (by rw [State.putPulse_rst, h]; decide)

theorem State.afterSkipped_keeps {was : State} (s : State) (h : was.Keeps cycMask s) : was.Keeps cycMask s.afterSkipped := by
  have hgt := State.gtAdvance_keeps (by decide) s h
  have hlock := State.relockAll_keeps (by decide) _ hgt
  have hmark := State.markFall_keeps (by decide) _ hlock
  have hstall := State.countStalls_keeps (by decide) _ hmark
  have hlend := State.lendWatch_keeps (by decide) _ hstall
  exact State.serveAll_keeps (by decide) _ hlend

theorem State.runAgain_none {s : State} (h : s.cyc = SameCycle.none) : s.runAgain = s.putCyc SameCycle.none := by
  unfold State.runAgain
  rw [h]
  rfl

theorem State.benchCyc_tick {s : State} (hs : s.canonical) (hon : s.rst.on = true) (hcyc : s.cyc = SameCycle.none) (b : BenchNo) :
    s.tick.benchCyc b = s.pulse + 1 - s.cycZero -
      (FMap.getD s.skipped (b.val / 100) 0 + if (s.pulse + 1) % 64 < s.throttle (b.val / 100) then 0 else 1) := by
  set u := (s.putPulse (s.pulse + 1)).putCyc SameCycle.none
  have hagain : (s.putPulse (s.pulse + 1)).runAgain = u := State.runAgain_none (s := s.putPulse (s.pulse + 1)) hcyc
  have htick : s.tick = u.countSkipped.afterSkipped := by rw [State.tick_on hon, hagain]
  have hcounted : u.countSkipped.canonical := by
    have hkept := State.countSkipped_keeps (msk := 0) (was := u) (by decide) u (.start 0 hs)
    exact ⟨hkept.mem, hkept.regs⟩
  have hsame := (State.afterSkipped_keeps _ (.start cycMask hcounted)).same
  have hpulse : s.tick.pulse = u.countSkipped.pulse := htick ▸ hsame .pulse (by decide)
  have hzero : s.tick.cycZero = u.countSkipped.cycZero := htick ▸ hsame .cycZero (by decide)
  have hskipped : s.tick.skipped = u.countSkipped.skipped := htick ▸ hsame .skipped (by decide)
  obtain ⟨hpulse', hzero'⟩ := u.skipDies_kept cdies
  have hdie : b.val / 100 ∈ cdies := List.mem_range.2 (by omega)
  have hruns : u.dieRuns (b.val / 100) = decide ((s.pulse + 1) % 64 < s.throttle (b.val / 100)) := rfl
  rw [State.benchCyc, hpulse, hzero, hskipped, State.countSkipped_eq, hpulse', hzero', State.getD_skipDies _ (by decide), hruns]
  simp only [hdie, true_and, decide_eq_false_iff_not, ite_not]
  rfl

theorem State.pulse_tick {s : State} (hs : s.canonical) : s.tick.pulse = s.pulse + 1 := by
  cases hon : s.rst.on with
  | false => rw [State.tick_off hon]; rfl
  | true =>
    have hagain := State.runAgain_keeps (msk := 2 ^ Part.pulse.idx) (by decide) _
      (State.Keeps.start (s := s.putPulse (s.pulse + 1)) _ hs)
    have hcounted := State.countSkipped_keeps (by decide) _ hagain
    have hpulse : (s.putPulse (s.pulse + 1)).runAgain.countSkipped.pulse = s.pulse + 1 := hcounted.same .pulse (by decide)
    rw [State.tick_on hon]
    exact ((State.afterSkipped_keeps _ (.start cycMask ⟨hcounted.mem, hcounted.regs⟩)).same .pulse (by decide)).trans hpulse

/-! ### Reset values of the tables -/

/-- A register of a Bench holds its table's reset value, but for the identity at offset 0 (01 R19). -/
theorem regReset_bench (b : BenchNo) {o : Nat} (hlow : 0 < o) (hhigh : o < 0x10000) :
    regReset (benchBase b + o) = ((findReg benchRegs o).map fun d => BitVec.ofNat 64 d.reset).getD 0 := by
  have hb := b.isLt
  have hoff : (benchBase b + o - regBase) % 0x10000 = o := by
    unfold benchBase
    omega
  have hdesc : regDesc (benchBase b + o) = findReg benchRegs o := by
    rw [regDesc, if_neg (by unfold benchBase; omega), if_pos (by unfold benchBase; omega), hoff]
  have htc : ¬ (A.tmrTc 0 ≤ benchBase b + o ∧ benchBase b + o ≤ A.tmrTc 7) := by
    simp only [A.tmrTc, benchBase, regBase]
    omega
  rw [regReset, hdesc]
  rcases findReg benchRegs o with _ | d
  · rfl
  · dsimp only
    rw [if_neg (by rw [hoff]; omega), if_neg htc]
    rfl

theorem State.reset_rd_bench (b : BenchNo) {o : Nat} (hlow : 0 < o) (hhigh : o < 0x10000) :
    State.reset.rd (benchBase b + o) = ((findReg benchRegs o).map fun d => BitVec.ofNat 64 d.reset).getD 0 :=
  regReset_bench b hlow hhigh

theorem State.reset_fld_bench (b : BenchNo) {o : Nat} (hlow : 0 < o) (hhigh : o < 0x10000) (f : Fld) :
    State.reset.fld (benchBase b + o) f = getFld (((findReg benchRegs o).map fun d => BitVec.ofNat 64 d.reset).getD 0) f :=
  congrArg (getFld · f) (State.reset_rd_bench b hlow hhigh)

/-- A register of a Desk holds its table's reset value. -/
theorem State.reset_rd_desk (b : BenchNo) (d : Fin 4) {o : Nat} (hlow : 0 < o) (hhigh : o < 0x1000) :
    State.reset.rd (benchBase b + o + d * 0x80) =
      ((findReg benchRegs (o + d * 0x80)).map fun r => BitVec.ofNat 64 r.reset).getD 0 := by
  rw [Nat.add_assoc]
  exact State.reset_rd_bench b (by omega) (by omega)

end Sys2Proof.Machine

open Sys2Proof Sys2Proof.Machine

/-- Settles O1: the definition of a step, at a queue that is not empty. -/
theorem stepTakesFront : Obligations.StepTakesFront := by
  unfold Obligations.StepTakesFront
  intro c r s h
  rw [step, h]

/-- Settles O2: only the throttles' count touches the skipped cycles of a period, and nothing in it the last reset. -/
theorem emptyQueueTicks : Obligations.EmptyQueueTicks := by
  unfold Obligations.EmptyQueueTicks
  intro s hs hempty
  have hkept := State.tick_keeps (msk := 0) (was := s) (by decide) s (.start 0 hs)
  refine ⟨s.tick, by rw [step, hempty], State.pulse_tick hs, hkept.pending.trans hempty, fun hon hcyc b => State.benchCyc_tick hs hon hcyc b,
    State.tick_off⟩

/-- Settles O3: nothing is listed. -/
theorem resetCanonical : Obligations.ResetCanonical := by
  unfold Obligations.ResetCanonical
  refine ⟨⟨⟨.nil, by simp [State.reset]⟩, .nil⟩, rfl, fun b c => ?_, rfl⟩
  have hstat : ∀ o, 0 < o → o < 0x10000 → ∀ f : Fld, State.reset.flag (benchBase b + o) f =
      (getFld (((findReg benchRegs o).map fun d => BitVec.ofNat 64 d.reset).getD 0) f != 0) := fun o hl hh f =>
    congrArg (· != 0) (State.reset_fld_bench b hl hh f)
  cases c with
  | F => exact (hstat 0x10 (by decide) (by decide) _).trans (by decide)
  | B => exact (hstat 0x18 (by decide) (by decide) _).trans (by decide)
  | D => exact (hstat 0x68 (by decide) (by decide) _).trans (by decide)

/-- Settles O4: the tables' reset values, read once per Bench and Desk through their offsets. -/
theorem resetValues : Obligations.ResetValues := by
  unfold Obligations.ResetValues
  refine ⟨by decide, by decide, by decide, by decide, by decide, by decide, fun b => ?bench, fun b d => ?desk, by decide, by decide,
    by decide, by decide, by decide, by decide, by decide, by decide, by decide, by decide⟩
  case bench =>
    refine ⟨?_, ?_, ?_, ?_, ?_, ?_⟩
    · exact (State.reset_rd_bench b (o := 0x10) (by decide) (by decide)).trans (by decide)
    · exact (State.reset_rd_bench b (o := 0x18) (by decide) (by decide)).trans (by decide)
    · exact (State.reset_fld_bench b (o := 0x60) (by decide) (by decide) _).trans (by decide)
    · exact (State.reset_fld_bench b (o := 0x60) (by decide) (by decide) _).trans (by decide)
    · exact (State.reset_fld_bench b (o := 0x50) (by decide) (by decide) _).trans (by decide)
    · exact (State.reset_fld_bench b (o := 0x50) (by decide) (by decide) _).trans (by decide)
  case desk =>
    have hctl := State.reset_rd_desk b d (o := 0x838) (by decide) (by decide)
    refine ⟨?_, ?_, ?_⟩
    · exact (State.reset_rd_desk b d (o := 0x800) (by decide) (by decide)).trans (by clear hctl; revert d; decide)
    · exact (congrArg (getFld · F.deskCtl.RATE) hctl).trans (by clear hctl; revert d; decide)
    · exact (congrArg (getFld · F.deskCtl.RETRY) hctl).trans (by clear hctl; revert d; decide)
end

section
/-!
SUPPORT. Registers that a command keeps, with the events it adds, and what the ports of Timir leave alone (10 R292 to R294).
-/
namespace Sys2Proof.Machine

section
variable {msk : Nat} {was : State}

theorem State.health_same (hfree : msk &&& 9217 = 0) (s) (hs : was.Same msk s) : was.Same msk (s.health) := by
  unfold State.health
  conv => zeta
  with_reducible repeat' first
    | assumption | exact free_mono hfree rfl | apply State.countAvail_same | apply State.putFlt_same | apply State.setFld_same
    | apply State.raise_same | split

theorem State.sendWaiting_same (hfree : msk &&& 3221225729 = 0) (s) (hs : was.Same msk s) : was.Same msk (s.sendWaiting) := by
  unfold State.sendWaiting
  conv => zeta
  with_reducible repeat' first
    | assumption | exact free_mono hfree rfl | apply State.transmit_same | apply State.putTmr_same
    | refine foldl_same _ _ _ (fun _ _ _ => ?_) ?_ | refine foldlFst_same _ _ _ (fun _ _ _ => ?_) ?_
    | refine foldlSnd_same _ _ _ (fun _ _ _ => ?_) ?_ | refine fst_same ?_ (by assumption) | refine snd_same ?_ (by assumption) | split

theorem State.retrim_same (hfree : msk &&& 1073745921 = 0) (s) (hs : was.Same msk s) : was.Same msk (s.retrim) := by
  unfold State.retrim
  conv => zeta
  with_reducible repeat' first
    | assumption | exact free_mono hfree rfl | apply State.setFld_same | apply State.putClk_same | apply State.draw_same
    | refine fst_same ?_ (by assumption) | refine snd_same ?_ (by assumption) | split

theorem State.setPtp_same (hfree : msk &&& 2048 = 0) (s p x) (hs : was.Same msk s) : was.Same msk (s.setPtp p x) := by
  unfold State.setPtp
  conv => zeta
  with_reducible repeat' first | assumption | exact free_mono hfree rfl | apply State.putGt_same

theorem State.bmca_same (hfree : msk &&& 2049 = 0) (s) (hs : was.Same msk s) : was.Same msk (s.bmca) := by
  unfold State.bmca
  conv => zeta
  with_reducible repeat' first
    | assumption | exact free_mono hfree rfl | apply State.putGt_same | apply State.setFld_same | apply State.setPtp_same | split

theorem State.portEnter_same (hfree : msk &&& 3221241089 = 0) (s p new bad) (hs : was.Same msk s) :
    was.Same msk (s.portEnter p new bad) := by
  unfold State.portEnter
  conv => zeta
  with_reducible repeat' first
    | assumption | exact free_mono hfree rfl | apply State.setFld_same | apply State.putTmr_same | apply State.raise_same
    | apply State.sendWaiting_same | apply State.health_same | apply State.retrim_same | apply State.bmca_same | split

theorem State.portDown_same (hfree : msk &&& 3221241089 = 0) (s p) (hs : was.Same msk s) : was.Same msk (s.portDown p) := by
  unfold State.portDown
  conv => zeta
  with_reducible repeat' first | assumption | exact free_mono hfree rfl | apply State.setFld_same | apply State.portEnter_same

theorem State.portDisable_same (hfree : msk &&& 3221241089 = 0) (s p) (hs : was.Same msk s) : was.Same msk (s.portDisable p) := by
  unfold State.portDisable
  with_reducible repeat' first | assumption | exact free_mono hfree rfl | apply State.portDown_same | apply State.setFld_same

theorem State.trainStart_same (hfree : msk &&& 3221241089 = 0) (s p) (hs : was.Same msk s) : was.Same msk (s.trainStart p) := by
  unfold State.trainStart
  with_reducible repeat' first | assumption | exact free_mono hfree rfl | apply State.portEnter_same

theorem State.retrain_same (hfree : msk &&& 3221241089 = 0) (s p) (hs : was.Same msk s) : was.Same msk (s.retrain p) := by
  unfold State.retrain
  conv => zeta
  with_reducible repeat' first | assumption | exact free_mono hfree rfl | apply State.incSat_same | apply State.trainStart_same | split

theorem State.retrainAll_same (hfree : msk &&& 3221241089 = 0) (s p) (hs : was.Same msk s) : was.Same msk (s.retrainAll p) := by
  unfold State.retrainAll
  conv => zeta
  with_reducible repeat' first
    | assumption | exact free_mono hfree rfl | apply State.retrain_same | apply State.putTmr_same

end

/-! ### Kept registers and added events -/

/-- The registers of `P` read the same, and events are only added. -/
structure State.KeptAt (P : Nat → Prop) (s t : State) : Prop where
  rd : ∀ a, P a → t.rd a = s.rd a
  raised : s.evt.raised <+: t.evt.raised

section
variable {P : Nat → Prop} {s t u : State}

theorem State.KeptAt.refl (s : State) : s.KeptAt P s := ⟨fun _ _ => rfl, List.prefix_rfl⟩

theorem State.KeptAt.trans (h : s.KeptAt P t) (k : t.KeptAt P u) : s.KeptAt P u :=
  ⟨fun a ha => (k.rd a ha).trans (h.rd a ha), h.raised.trans k.raised⟩

theorem State.KeptAt.of_same (h : s.KeptAt P t) (hregs : u.regs = t.regs) (hevt : u.evt = t.evt) : s.KeptAt P u :=
  ⟨fun a ha => (State.rd_of_regs hregs a).trans (h.rd a ha), hevt ▸ h.raised⟩

theorem State.KeptAt.setFld {a : Nat} (ha : ¬ P a) (f : Fld) (x : Nat) (h : s.KeptAt P t) : s.KeptAt P (t.setFld a f x) :=
  ⟨fun b hb => (t.rd_setFld_ne f x fun e => ha (by rwa [← e])).trans (h.rd b hb), h.raised⟩

theorem State.KeptAt.incSat {a : Nat} (ha : ¬ P a) (f : Fld) (x : Nat) (h : s.KeptAt P t) : s.KeptAt P (t.incSat a f x) :=
  h.setFld ha ..

theorem State.KeptAt.incWrap {a : Nat} (ha : ¬ P a) (f : Fld) (x : Nat) (h : s.KeptAt P t) : s.KeptAt P (t.incWrap a f x) :=
  h.setFld ha ..

theorem State.KeptAt.hwSet {a : Nat} (ha : ¬ P a) (f : Fld) (h : s.KeptAt P t) : s.KeptAt P (t.hwSet a f) :=
  ⟨fun b hb => (t.rd_hwSet_ne f fun e => ha (by rwa [← e])).trans (h.rd b hb), h.raised⟩

theorem State.KeptAt.raise (code source : Nat) (pay : List Byte) (h : s.KeptAt P t) : s.KeptAt P (t.raise code source pay) :=
  ⟨fun b hb => (t.raise_rd ..).trans (h.rd b hb), h.raised.trans (t.raised_prefix_raise ..)⟩

theorem State.KeptAt.fld (h : s.KeptAt P t) {a : Nat} (ha : P a) (f : Fld) : t.fld a f = s.fld a f := State.fld_of_rd (h.rd a ha) f

theorem State.KeptAt.foldl {α : Type} {f : State → α → State} (hf : ∀ (s : State) x, s.KeptAt P (f s x)) (l : List α) (s : State) :
    s.KeptAt P (l.foldl f s) := by
  induction l generalizing s with
  | nil => exact .refl s
  | cons x l ih => exact (hf s x).trans (ih (f s x))

/-- An event raised on the way is among those raised at the end. -/
theorem State.KeptAt.raises (h : (t.raise code source pay).KeptAt P u) (hevt : t.evt = s.evt) : s.raises u code source pay :=
  State.raises_of_raise hevt h.raised

end

/-! ### Health, the trim and the best master -/

section
variable {P : Nat → Prop}

theorem State.countAvail_kept (s : State) (ht : ¬ P A.evtAvailT) (hu : ¬ P A.evtAvailU) : s.KeptAt P s.countAvail := by
  unfold State.countAvail
  extract_lets us flt s1 job s2
  have h1 : s.KeptAt P s1 := (State.KeptAt.refl s).of_same rfl rfl
  have h2 : s.KeptAt P s2 := h1.incWrap ht ..
  split
  · split
    · exact h2.incWrap hu ..
    · exact h2
  · exact h1

/-- The registers that the health and the availability are shown in (16 R459 to R461). -/
def healthRegs : List Nat := [A.evtAvailT, A.evtAvailU, A.evtHealth]

theorem State.health_kept (s : State) (hP : ∀ a ∈ healthRegs, ¬ P a) : s.KeptAt P s.health := by
  have havail := s.countAvail_kept (hP A.evtAvailT (by decide)) (hP A.evtAvailU (by decide))
  have hhealth := hP A.evtHealth (by decide)
  unfold State.health
  extract_lets s1 flt s2 old oldCap new cap s3 s4 s5
  have h2 : s.KeptAt P s2 := by
    unfold s2
    split
    · exact havail.of_same rfl rfl
    · exact havail
  have h4 : s.KeptAt P s4 := (h2.setFld hhealth ..).setFld hhealth ..
  have h5 : s.KeptAt P s5 := by
    unfold s5
    split
    · exact h4
    · exact h4.raise ..
  split
  · exact havail
  · split
    · exact h5
    · exact h5.raise ..

theorem State.retrim_kept (s : State) (hP : ¬ P A.clkTrim) : s.KeptAt P s.retrim := by
  unfold State.retrim
  generalize s.trimSource = e
  obtain ⟨src, port⟩ := e
  dsimp only
  split
  · exact .refl s
  · have h : s.KeptAt P (((s.setFld A.clkTrim F.clkTrim.SRC src).setFld A.clkTrim F.clkTrim.PORT port).setFld A.clkTrim
        F.clkTrim.SETTLED 0) := (((State.KeptAt.refl s).setFld hP ..).setFld hP ..).setFld hP ..
    split
    · exact h.of_same rfl rfl
    · exact State.KeptAt.setFld hP _ _ (h.of_same rfl rfl)

theorem State.bmca_kept (s : State) (hP : ¬ P A.gtStat) : s.KeptAt P s.bmca := by
  unfold State.bmca
  extract_lets new gt s1 s2
  have h1 : s.KeptAt P s1 := (State.KeptAt.refl s).of_same rfl rfl
  have h2 : s.KeptAt P s2 := h1.setFld hP ..
  split
  · exact .refl s
  · rcases new with _ | p
    · exact h2
    · exact h2.of_same rfl rfl

/-! ### A port that enters a state -/

/-- The registers in which the change of a port is shown beside the port's own. -/
def portChangeRegs : List Nat := [A.gtStat, A.clkTrim] ++ healthRegs

theorem State.choosePort_kept (s : State) (tc m : Nat) (not : Option Nat) (hP : ¬ P A.tmrStat) :
    s.KeptAt P (s.choosePort tc m not).1 := by
  unfold State.choosePort
  extract_lets pri a
  split
  · exact .refl s
  · rename_i ofClass counted _
    have hcounted : s.KeptAt P counted := by
      unfold counted
      split
      · exact (State.KeptAt.refl s).incSat hP ..
      · exact .refl s
    exact hcounted.of_same rfl rfl

theorem State.emit_kept (s : State) (p : Option Nat) (v : Via) (x : Fab) (hP : ∀ p, ¬ P (A.tmrPortCnt p)) :
    s.KeptAt P (s.emit p v x) := by
  unfold State.emit
  cases p with
  | none => exact (State.KeptAt.refl s).of_same rfl rfl
  | some p => exact ((State.KeptAt.refl s).incWrap (hP p) ..).of_same rfl rfl

theorem State.transmit_kept (s : State) (t : Txn) (hstat : ¬ P A.tmrStat) (hcnt : ∀ p, ¬ P (A.tmrPortCnt p)) :
    s.KeptAt P (s.transmit t) := by
  unfold State.transmit
  dsimp only
  split
  · exact (State.KeptAt.refl s).of_same rfl rfl
  · refine State.KeptAt.trans ?_ (State.emit_kept _ _ _ _ hcnt)
    exact (s.choosePort_kept t.tc t.dest none hstat).of_same rfl rfl

theorem State.sendWaiting_kept (s : State) (hstat : ¬ P A.tmrStat) (hcnt : ∀ p, ¬ P (A.tmrPortCnt p)) : s.KeptAt P s.sendWaiting := by
  refine State.KeptAt.foldl (fun u k => ?_) _ s
  cases FMap.get? u.tmr.outst k with
  | none => exact (State.KeptAt.refl u).of_same rfl rfl
  | some t => exact u.transmit_kept t hstat hcnt

end

/-- The port's registers as it enters a state, before the event and what follows it. -/
def State.portMoved (s : State) (p new bad : Nat) : State :=
  let a := A.tmrPortStat p
  let s := s.setFld a F.tmrPortStat.STATE new
  let s := s.setFld a F.tmrPortStat.LANEBAD bad
  s.putTmr { s.tmr with
    portAt := FMap.set s.tmr.portAt p s.pulse
    fails := FMap.set s.tmr.fails p 0
    narrow := s.tmr.narrowed p new }

/-- The event of a port's change (10 R294). -/
def State.portEvent (s : State) (p old new bad : Nat) : State :=
  s.raise 0x40 (evSource 3 p)
    ([BitVec.ofNat 8 p, BitVec.ofNat 8 old, BitVec.ofNat 8 new, BitVec.ofNat 8 bad] ++
      leBytes 2 (s.fld (A.tmrPortStat p) F.tmrPortStat.PEER) ++ [BitVec.ofNat 8 (s.fld (A.tmrPortStat p) F.tmrPortStat.PEERGW)])

theorem State.portEnter_stays {s : State} {p new bad : Nat} (h : s.fld (A.tmrPortStat p) F.tmrPortStat.STATE = new) :
    s.portEnter p new bad = s.portMoved p new bad := if_pos h

theorem State.portEnter_changes {s : State} {p new bad : Nat} (h : s.fld (A.tmrPortStat p) F.tmrPortStat.STATE ≠ new) :
    s.portEnter p new bad =
      (let u := (s.portMoved p new bad).portEvent p (s.fld (A.tmrPortStat p) F.tmrPortStat.STATE) new bad
       if new = 2 ∨ new = 3 then u.sendWaiting else u).bmca.retrim.health := if_neg h

/-- What follows a port's change keeps its registers: its status always, and its counters where it does not come up. -/
theorem State.portEnter_kept {P : Nat → Prop} {s : State} {p new bad : Nat}
    (h : s.fld (A.tmrPortStat p) F.tmrPortStat.STATE ≠ new) (hchange : ∀ a ∈ portChangeRegs, ¬ P a)
    (hup : new = 2 ∨ new = 3 → ¬ P A.tmrStat ∧ ∀ q, ¬ P (A.tmrPortCnt q)) :
    ((s.portMoved p new bad).portEvent p (s.fld (A.tmrPortStat p) F.tmrPortStat.STATE) new bad).KeptAt P (s.portEnter p new bad) := by
  rw [State.portEnter_changes h]
  set u := (s.portMoved p new bad).portEvent p (s.fld (A.tmrPortStat p) F.tmrPortStat.STATE) new bad
  have hsent : u.KeptAt P (if new = 2 ∨ new = 3 then u.sendWaiting else u) := by
    split
    · rename_i hn
      exact u.sendWaiting_kept (hup hn).1 (hup hn).2
    · exact .refl u
  exact ((hsent.trans (State.bmca_kept _ (hchange A.gtStat (by decide)))).trans
    (State.retrim_kept _ (hchange A.clkTrim (by decide)))).trans
    (State.health_kept _ fun a ha => hchange a (List.mem_append_right _ ha))

end Sys2Proof.Machine
end

section
/-!
PROOF. Ports (10 R292 to R294, R321): what a port shows as it enters a state, then each command by its condition.
-/
namespace Sys2Proof.Machine

theorem portChangeRegs_above : ∀ a ∈ portChangeRegs, 0x2050000000000 ≤ a := by decide

theorem tmrPortStat_ne (p : PortNo) : (∀ a ∈ portChangeRegs, A.tmrPortStat p ≠ a ∧ A.tmrPortCnt p ≠ a ∧ A.tmrPortCtl p ≠ a) ∧
    A.tmrPortStat p ≠ A.tmrStat ∧ (∀ q, A.tmrPortStat p ≠ A.tmrPortCnt q) ∧ ∀ q, A.tmrPortStat p ≠ A.tmrPortCtl q := by
  refine ⟨fun a ha => ?_, ?_, fun q => ?_, fun q => ?_⟩
  · have habove := portChangeRegs_above a ha
    simp only [A.tmrPortStat, A.tmrPortCnt, A.tmrPortCtl]
    omega
  all_goals
    simp only [A.tmrPortStat, A.tmrPortCnt, A.tmrPortCtl, A.tmrStat, ne_eq]
    omega

/-- The registers of a port: its status, its counters and its control. -/
def portShown (p : PortNo) (a : Nat) : Prop := a = A.tmrPortStat p ∨ a = A.tmrPortCnt p ∨ a = A.tmrPortCtl p

theorem portShown_change {p : PortNo} {a : Nat} (ha : a ∈ portChangeRegs) : ¬ portShown p a := by
  obtain ⟨hstat, hcnt, hctl⟩ := (tmrPortStat_ne p).1 _ ha
  rintro (rfl | rfl | rfl)
  · exact hstat rfl
  · exact hcnt rfl
  · exact hctl rfl

theorem State.portMoved_rd_ne (s : State) (p : PortNo) (new bad : Nat) {a : Nat} (h : a ≠ A.tmrPortStat p) :
    (s.portMoved p new bad).rd a = s.rd a := (State.rd_setFld_ne _ _ _ h).trans (State.rd_setFld_ne _ _ _ h)

theorem State.portMoved_shown (s : State) (p : PortNo) {new bad : Nat} (hnew : new < 8) (hbad : bad < 16) :
    (s.portMoved p new bad).fld (A.tmrPortStat p) F.tmrPortStat.STATE = new ∧
    (s.portMoved p new bad).fld (A.tmrPortStat p) F.tmrPortStat.LANEBAD = bad := by
  refine ⟨?_, ?_⟩
  · refine (State.fld_setFld_field _ _ _ _ _ (by decide) (by decide) (by decide)).trans ?_
    exact (State.fld_setFld_same _ _ _ _ (by decide)).trans (Nat.mod_eq_of_lt hnew)
  · exact (State.fld_setFld_same _ _ _ _ (by decide)).trans (Nat.mod_eq_of_lt hbad)

/-- The fields of the peer, apart from those of the state. -/
def peerFlds : List Fld := [F.tmrPortStat.PEERV, F.tmrPortStat.PEER, F.tmrPortStat.PEERGW]

theorem peerFlds_apart {f : Fld} (hf : f ∈ peerFlds) : f.ok ∧ (f.hi < F.tmrPortStat.LANEBAD.lo ∨ F.tmrPortStat.LANEBAD.hi < f.lo) ∧
    (f.hi < F.tmrPortStat.STATE.lo ∨ F.tmrPortStat.STATE.hi < f.lo) := by
  revert f
  decide

theorem State.portMoved_peer (s : State) (p : PortNo) (new bad : Nat) {f : Fld} (hf : f ∈ peerFlds) :
    (s.portMoved p new bad).fld (A.tmrPortStat p) f = s.fld (A.tmrPortStat p) f := by
  obtain ⟨hok, hlane, hstate⟩ := peerFlds_apart hf
  refine (State.fld_setFld_field _ _ _ _ _ (by decide) hok hlane).trans ?_
  exact State.fld_setFld_field _ _ _ _ _ (by decide) hok hstate

theorem State.portEnter_mem (s : State) (p new bad : Nat) : (s.portEnter p new bad).mem = s.mem :=
  (State.portEnter_same (msk := 2 ^ Part.mem.idx) rfl s p new bad (.refl s)).same .mem rfl

/-- What a port shows once it has entered a state, whether or not that is a change. -/
theorem State.portEnter_rd (s : State) (p : PortNo) (new bad : Nat) :
    (s.portEnter p new bad).rd (A.tmrPortStat p) = (s.portMoved p new bad).rd (A.tmrPortStat p) := by
  obtain ⟨hchange, hstat, hcnt, -⟩ := tmrPortStat_ne p
  by_cases h : s.fld (A.tmrPortStat p) F.tmrPortStat.STATE = new
  · rw [State.portEnter_stays h]
  · have hkept := State.portEnter_kept (P := (· = A.tmrPortStat p)) (bad := bad) h (fun a ha he => (hchange a ha).1 he.symm)
      fun _ => ⟨hstat.symm, fun q he => hcnt q he.symm⟩
    exact (hkept.rd _ rfl).trans (State.raise_rd ..)

theorem State.portEnter_shown (s : State) (p : PortNo) {new bad : Nat} (hnew : new < 8) (hbad : bad < 16) :
    (s.portEnter p new bad).fld (A.tmrPortStat p) F.tmrPortStat.STATE = new ∧
    (s.portEnter p new bad).fld (A.tmrPortStat p) F.tmrPortStat.LANEBAD = bad ∧
    ∀ f ∈ peerFlds, (s.portEnter p new bad).fld (A.tmrPortStat p) f = s.fld (A.tmrPortStat p) f := by
  have hrd := s.portEnter_rd p new bad
  obtain ⟨hstate, hlane⟩ := s.portMoved_shown p hnew hbad
  exact ⟨(State.fld_of_rd hrd _).trans hstate, (State.fld_of_rd hrd _).trans hlane,
    fun f hf => (State.fld_of_rd hrd _).trans (s.portMoved_peer p new bad hf)⟩

/-- The event of a change of a port's state (10 R294). -/
theorem State.portEnter_raises {s : State} {p : PortNo} {new bad : Nat} (h : s.fld (A.tmrPortStat p) F.tmrPortStat.STATE ≠ new) :
    s.raises (s.portEnter p new bad) 0x40 (evSource 3 p)
      ([BitVec.ofNat 8 p, BitVec.ofNat 8 (s.fld (A.tmrPortStat p) F.tmrPortStat.STATE), BitVec.ofNat 8 new, BitVec.ofNat 8 bad] ++
        leBytes 2 (s.fld (A.tmrPortStat p) F.tmrPortStat.PEER) ++ [BitVec.ofNat 8 (s.fld (A.tmrPortStat p) F.tmrPortStat.PEERGW)]) := by
  have hkept := State.portEnter_kept (P := fun _ => False) (bad := bad) h (fun _ _ => id) fun _ => ⟨id, fun _ => id⟩
  have hpeer := s.portMoved_peer p new bad (f := F.tmrPortStat.PEER) (by decide)
  have hgate := s.portMoved_peer p new bad (f := F.tmrPortStat.PEERGW) (by decide)
  rw [State.portEvent, hpeer, hgate] at hkept
  exact hkept.raises rfl

/-- Where a port does not come up its counters and its control stay. -/
theorem State.portEnter_counters {s : State} {p : PortNo} {new a : Nat} (bad : Nat) (h : ¬ (new = 2 ∨ new = 3))
    (ha : a = A.tmrPortCnt p ∨ a = A.tmrPortCtl p) : (s.portEnter p new bad).rd a = s.rd a := by
  obtain ⟨-, -, hcnt, hctl⟩ := tmrPortStat_ne p
  have hmoved : (s.portMoved p new bad).rd a = s.rd a := by
    refine s.portMoved_rd_ne p new bad ?_
    obtain rfl | rfl := ha
    · exact (hcnt p).symm
    · exact (hctl p).symm
  by_cases hs : s.fld (A.tmrPortStat p) F.tmrPortStat.STATE = new
  · rw [State.portEnter_stays hs, hmoved]
  · have hkept := State.portEnter_kept (P := portShown p) (bad := bad) hs (fun a ha => portShown_change ha) fun hn => absurd hn h
    exact (hkept.rd _ (.inr ha)).trans ((State.raise_rd ..).trans hmoved)

theorem State.trainStart_tmr {s : State} {p : PortNo} (h : s.fld (A.tmrPortStat p) F.tmrPortStat.STATE ≠ 1) :
    (s.trainStart p).tmr.narrow = s.tmr.narrow := by
  have hchanged := State.portEnter_changes (bad := s.laneBad p) h
  rw [if_neg (by decide)] at hchanged
  rw [State.trainStart, hchanged]
  set u := (s.portMoved p 1 (s.laneBad p)).portEvent p (s.fld (A.tmrPortStat p) F.tmrPortStat.STATE) 1 (s.laneBad p)
  have hhealth := (State.health_same (msk := 2 ^ Part.tmr.idx) rfl u.bmca.retrim
    (State.retrim_same rfl _ (State.bmca_same rfl _ (.refl u)))).same .tmr rfl
  have hmoved : u.tmr = (s.portMoved p 1 (s.laneBad p)).tmr :=
    (State.raise_same (msk := 2 ^ Part.tmr.idx) rfl _ _ _ _ (.refl _)).same .tmr rfl
  rw [hhealth, hmoved]
  rfl

theorem State.laneBad_lt (s : State) (p : Nat) : s.laneBad p < 16 := getFld_lt ..

theorem State.trainStart_shown (s : State) (p : PortNo) :
    (s.trainStart p).fld (A.tmrPortStat p) F.tmrPortStat.STATE = 1 ∧ (s.trainStart p).mem = s.mem :=
  ⟨(s.portEnter_shown p (by decide) (s.laneBad_lt p)).1, s.portEnter_mem ..⟩

/-! ### Retraining (10 R292, R294, R321) -/

/-- A port that leaves an up state counts its retrain. -/
def State.retrainCounted (s : State) (p : Nat) : State :=
  if s.portUp p then s.incSat (A.tmrPortCnt p) F.tmrPortCnt.RETRAINS 1 else s

theorem State.retrain_performed {s : State} {p : PortNo} (hen : s.flag (A.tmrPortCtl p) F.tmrPortCtl.EN = true)
    (hst : s.fld (A.tmrPortStat p) F.tmrPortStat.STATE ≠ 1) : s.retrain p = (s.retrainCounted p).trainStart p :=
  if_neg (by rw [hen]; simpa using hst)

theorem State.retrain_idle {s : State} {p : PortNo}
    (h : s.flag (A.tmrPortCtl p) F.tmrPortCtl.EN = false ∨ s.fld (A.tmrPortStat p) F.tmrPortStat.STATE = 1) : s.retrain p = s :=
  if_pos (by obtain h | h := h <;> simp [h])

theorem State.retrainCounted_rd (s : State) (p : PortNo) {a : Nat} (ha : a ≠ A.tmrPortCnt p) : (s.retrainCounted p).rd a = s.rd a := by
  unfold State.retrainCounted
  split
  · exact State.rd_setFld_ne _ _ _ ha
  · rfl

theorem State.retrainCounted_count (s : State) (p : PortNo) : (s.retrainCounted p).fld (A.tmrPortCnt p) F.tmrPortCnt.RETRAINS =
    if s.portUp p then min (s.fld (A.tmrPortCnt p) F.tmrPortCnt.RETRAINS + 1) 0xFFFF
    else s.fld (A.tmrPortCnt p) F.tmrPortCnt.RETRAINS := by
  unfold State.retrainCounted
  split
  · exact (State.fld_setFld_same _ _ _ _ (by decide)).trans (Nat.mod_eq_of_lt (Nat.lt_of_le_of_lt (Nat.min_le_right ..) (by decide)))
  · rfl

theorem State.retrainCounted_kept (s : State) (p : PortNo) : (s.retrainCounted p).mem = s.mem ∧ (s.retrainCounted p).tmr = s.tmr ∧
    (s.retrainCounted p).fld (A.tmrPortCnt p) F.tmrPortCnt.REPLAY = s.fld (A.tmrPortCnt p) F.tmrPortCnt.REPLAY := by
  unfold State.retrainCounted
  split
  · exact ⟨rfl, rfl, State.fld_setFld_field _ _ _ _ _ (by decide) (by decide) (by decide)⟩
  · exact ⟨rfl, rfl, rfl⟩

/-- What a retrain that takes place leaves. -/
theorem State.retrain_shown {s : State} {p : PortNo} (hen : s.flag (A.tmrPortCtl p) F.tmrPortCtl.EN = true)
    (hst : s.fld (A.tmrPortStat p) F.tmrPortStat.STATE ≠ 1) :
    (s.retrain p).fld (A.tmrPortStat p) F.tmrPortStat.STATE = 1 ∧ (s.retrain p).mem = s.mem ∧
    (s.retrain p).tmr.narrow = s.tmr.narrow ∧ (s.retrain p).rd (A.tmrPortCnt p) = (s.retrainCounted p).rd (A.tmrPortCnt p) := by
  obtain ⟨hmem, htmr, -⟩ := s.retrainCounted_kept p
  have hst' : (s.retrainCounted p).fld (A.tmrPortStat p) F.tmrPortStat.STATE ≠ 1 := by
    rwa [State.fld_of_rd (s.retrainCounted_rd p ((tmrPortStat_ne p).2.2.1 p))]
  obtain ⟨hstate, hkept⟩ := (s.retrainCounted p).trainStart_shown p
  rw [State.retrain_performed hen hst]
  exact ⟨hstate, hkept.trans hmem, (State.trainStart_tmr hst').trans (congrArg Tmr.narrow htmr), State.portEnter_counters _ (by decide) (.inl rfl)⟩

/-! ### The peer -/

/-- The port's peer as a training identifies it. -/
def State.peerNoted (s : State) (p : Nat) (peer : Option (BitVec 14 × Bool)) : State :=
  match peer with
  | some (m, gw) =>
    ((s.setFld (A.tmrPortStat p) F.tmrPortStat.PEERV 1).setFld (A.tmrPortStat p) F.tmrPortStat.PEER m.toNat).setFld
      (A.tmrPortStat p) F.tmrPortStat.PEERGW gw.toNat
  | none => s.setFld (A.tmrPortStat p) F.tmrPortStat.PEERV 0

theorem State.peerNoted_keeps (s : State) (p : PortNo) (peer : Option (BitVec 14 × Bool)) {f : Fld} (hf : f.ok)
    (hv : f.hi < F.tmrPortStat.PEERV.lo ∨ F.tmrPortStat.PEERV.hi < f.lo)
    (hpeer : f.hi < F.tmrPortStat.PEER.lo ∨ F.tmrPortStat.PEER.hi < f.lo)
    (hg : f.hi < F.tmrPortStat.PEERGW.lo ∨ F.tmrPortStat.PEERGW.hi < f.lo) :
    (s.peerNoted p peer).fld (A.tmrPortStat p) f = s.fld (A.tmrPortStat p) f := by
  rcases peer with _ | ⟨m, gw⟩
  · exact State.fld_setFld_field _ _ _ _ _ (by decide) hf hv
  · exact (State.fld_setFld_field _ _ _ _ _ (by decide) hf hg).trans
      ((State.fld_setFld_field _ _ _ _ _ (by decide) hf hpeer).trans (State.fld_setFld_field _ _ _ _ _ (by decide) hf hv))

theorem State.peerNoted_shown (s : State) (p : PortNo) (peer : Option (BitVec 14 × Bool)) :
    (s.peerNoted p peer).flag (A.tmrPortStat p) F.tmrPortStat.PEERV = peer.isSome ∧
    ∀ m g, peer = some (m, g) → (s.peerNoted p peer).fld (A.tmrPortStat p) F.tmrPortStat.PEER = m.toNat ∧
      (s.peerNoted p peer).flag (A.tmrPortStat p) F.tmrPortStat.PEERGW = g := by
  rcases peer with _ | ⟨m, gw⟩
  · refine ⟨?_, fun m g h => by cases h⟩
    rw [State.flag, State.peerNoted, State.fld_setFld_same _ _ _ _ (by decide)]
    rfl
  · refine ⟨?_, fun m' g h => ?_⟩
    · rw [State.flag, State.peerNoted, State.fld_setFld_field _ _ _ _ _ (by decide) (by decide) (by decide),
        State.fld_setFld_field _ _ _ _ _ (by decide) (by decide) (by decide), State.fld_setFld_same _ _ _ _ (by decide)]
      rfl
    · obtain ⟨rfl, rfl⟩ := Prod.mk.inj (Option.some.inj h)
      refine ⟨?_, ?_⟩
      · rw [State.peerNoted, State.fld_setFld_field _ _ _ _ _ (by decide) (by decide) (by decide),
          State.fld_setFld_same _ _ _ _ (by decide)]
        exact Nat.mod_eq_of_lt m.isLt
      · rw [State.flag, State.peerNoted, State.fld_setFld_same _ _ _ _ (by decide)]
        cases gw <;> rfl

/-- The state and the bad lanes that a training ends with, by its good lanes (10 R294). -/
def trainedTo (s : State) (p : Nat) (good : BitVec 4) : Nat × Nat :=
  let k := countTrue (fun i => good.toNat.testBit i) (List.range 4)
  if k = 4 then (if s.tmr.narrow.contains p then (3, s.laneBad p) else (2, 0)) else if k = 3 then (3, 15 - good.toNat) else (0, 0)

theorem trainedTo_bound (s : State) (p : Nat) (good : BitVec 4) : (trainedTo s p good).1 < 8 ∧ (trainedTo s p good).2 < 16 ∧
    (trainedTo s p good).1 ≠ 1 := by
  have hlane := s.laneBad_lt p
  unfold trainedTo
  extract_lets k
  split
  · split
    · exact ⟨Nat.lt_of_sub_eq_succ rfl, hlane, Nat.succ_succ_ne_one 1⟩
    · decide
  · split
    · exact ⟨Nat.lt_of_sub_eq_succ rfl, Nat.lt_of_le_of_lt (Nat.sub_le ..) (by decide), Nat.succ_succ_ne_one 1⟩
    · decide

theorem execPortTrainComplete_trained {s : State} {p : PortNo} (good : BitVec 4) (peer : Option (BitVec 14 × Bool))
    (h : s.fld (A.tmrPortStat p) F.tmrPortStat.STATE = 1) : exec (.portTrainComplete p good peer) s =
      .next ((s.peerNoted p peer).portEnter p (trainedTo s p good).1 (trainedTo s p good).2) := by
  have hlane : (s.peerNoted p peer).laneBad p = s.laneBad p :=
    s.peerNoted_keeps p peer (by decide) (by decide) (by decide) (by decide)
  have htmr : (s.peerNoted p peer).tmr = s.tmr := by rcases peer with _ | ⟨m, gw⟩ <;> rfl
  have hexec : exec (.portTrainComplete p good peer) s = .next
      (if countTrue (fun i => good.toNat.testBit i) (List.range 4) = 4 then
        (if (s.peerNoted p peer).tmr.narrow.contains p.val then (s.peerNoted p peer).portEnter p 3 ((s.peerNoted p peer).laneBad p)
          else (s.peerNoted p peer).portEnter p 2 0)
      else if countTrue (fun i => good.toNat.testBit i) (List.range 4) = 3 then (s.peerNoted p peer).portEnter p 3 (15 - good.toNat)
      else (s.peerNoted p peer).portEnter p 0 0) := congrArg _ (if_neg (by rw [h]; decide))
  rw [hexec, hlane, htmr]
  unfold trainedTo
  extract_lets k
  congr 1
  by_cases h4 : k = 4
  · rw [if_pos h4, if_pos h4]
    split <;> rfl
  · rw [if_neg h4, if_neg h4]
    split <;> rfl

/-! ### Flits that failed (10 R292) -/

/-- The replay of a failed flit, counted at its port. -/
def State.flitFailed (s : State) (p : PortNo) (n : BitVec 16) : State :=
  let s := s.incSat (A.tmrPortCnt p) F.tmrPortCnt.REPLAY n.toNat
  let s := s.incWrap (A.tmrPortCnt p) F.tmrPortCnt.FLITS n.toNat
  s.putTmr { s.tmr with fails := FMap.set s.tmr.fails p (FMap.getD s.tmr.fails p 0 + 1) }

theorem State.flitFailed_rd (s : State) (p : PortNo) (n : BitVec 16) {a : Nat} (ha : a ≠ A.tmrPortCnt p) :
    (s.flitFailed p n).rd a = s.rd a := (State.rd_setFld_ne _ _ _ ha).trans (State.rd_setFld_ne _ _ _ ha)

theorem State.flitFailed_replay (s : State) (p : PortNo) (n : BitVec 16) :
    (s.flitFailed p n).fld (A.tmrPortCnt p) F.tmrPortCnt.REPLAY =
      min (s.fld (A.tmrPortCnt p) F.tmrPortCnt.REPLAY + n.toNat) 0xFFFF := by
  refine (State.fld_setFld_field _ _ _ _ _ (by decide) (by decide) (by decide)).trans ?_
  refine (State.fld_setFld_same _ _ _ _ (by decide)).trans (Nat.mod_eq_of_lt ?_)
  exact Nat.lt_of_le_of_lt (Nat.min_le_right ..) (by decide)

theorem State.flitFailed_fails (s : State) (p : PortNo) (n : BitVec 16) :
    FMap.getD (s.flitFailed p n).tmr.fails p 0 = FMap.getD s.tmr.fails p 0 + 1 :=
  congrArg (Option.getD · 0) (FMap.get?_set_same ..)

/-- A failed flit of a port that is up is replayed, and retrains the port after `LRETRY` + 1 in succession. -/
theorem execFlitReceive_failed {s : State} {p : PortNo} (n : BitVec 16) (hup : s.portUp p = true) :
    exec (.flitReceive p true false n) s = .next
      (if FMap.getD s.tmr.fails p 0 + 1 > max 1 (s.fld (A.tmrPortCtl p) F.tmrPortCtl.LRETRY) then (s.flitFailed p n).retrain p
       else s.flitFailed p n) := by
  have hctl : (s.flitFailed p n).fld (A.tmrPortCtl p) F.tmrPortCtl.LRETRY = s.fld (A.tmrPortCtl p) F.tmrPortCtl.LRETRY :=
    State.fld_of_rd (s.flitFailed_rd p n (by simp only [A.tmrPortCtl, A.tmrPortCnt]; omega)) _
  rw [← hctl]
  exact congrArg _ ((if_neg (by rw [hup]; decide)).trans (if_neg Bool.false_ne_true))

end Sys2Proof.Machine

open Sys2Proof Sys2Proof.Machine

/-- Settles O40: each command by its condition, with what a port shows once it has entered a state. -/
theorem ports : Obligations.Ports := by
  unfold Obligations.Ports
  rintro p good peer n ph s a k st f rfl hk rfl rfl
  have hcnt : A.tmrPortStat p ≠ A.tmrPortCnt p := (tmrPortStat_ne p).2.2.1 p
  refine ⟨fun hst => ⟨_, execPortTrainComplete_trained good peer hst, ?trained⟩, fun hst => ?untrained, fun hst hen ht => ⟨_, rfl, ?retry⟩,
    fun h => ?early, fun hen hst => ⟨_, rfl, ?retrain⟩, fun h => ⟨_, rfl, ?noRetrain⟩, ⟨_, rfl, ?disable⟩, fun hst => ?downed,
    fun hst => ⟨_, rfl, ?lost⟩, fun mine ok h => ?quiet, fun h => ?unmarked, fun hup => ⟨⟨_, rfl, ?good⟩, fun hf => ⟨_, execFlitReceive_failed n hup, ?replay⟩,
    fun hf => ⟨_, execFlitReceive_failed n hup, ?again⟩, ⟨_, rfl, ?mark⟩⟩⟩
  case trained =>
    obtain ⟨hnew, hbad, hchange⟩ := trainedTo_bound s p good
    obtain ⟨hpeerv, hpeer⟩ := s.peerNoted_shown p peer
    obtain ⟨hstate, hlane, hflds⟩ := (s.peerNoted p peer).portEnter_shown p hnew hbad
    have hold : (s.peerNoted p peer).fld (A.tmrPortStat p) F.tmrPortStat.STATE = 1 :=
      (s.peerNoted_keeps p peer (by decide) (by decide) (by decide) (by decide)).trans hst
    have hraises := State.portEnter_raises (bad := (trainedTo s p good).2) (fun he => hchange (he.symm.trans hold))
    have hevt : (s.peerNoted p peer).evt = s.evt := by rcases peer with _ | ⟨m, gw⟩ <;> rfl
    have hmem : (s.peerNoted p peer).mem = s.mem := by rcases peer with _ | ⟨m, gw⟩ <;> rfl
    refine ⟨hstate.trans ?_, hlane.trans ?_, ?_, fun m g h => ⟨(hflds _ (by decide)).trans (hpeer m g h).1, ?_⟩, ?_,
      (State.portEnter_mem ..).trans hmem⟩
    · rw [hk]
      unfold trainedTo
      extract_lets
      split_ifs <;> rfl
    · rw [hk]
      unfold trainedTo
      extract_lets
      split_ifs <;> rfl
    · exact (congrArg (· != 0) (hflds F.tmrPortStat.PEERV (by decide))).trans hpeerv
    · exact (congrArg (· != 0) (hflds F.tmrPortStat.PEERGW (by decide))).trans (hpeer m g h).2
    · rw [hstate, hlane, hflds F.tmrPortStat.PEER (by decide), hflds F.tmrPortStat.PEERGW (by decide)]
      rw [hold] at hraises
      unfold State.raises at hraises ⊢
      rwa [hevt] at hraises
  case untrained => exact congrArg _ (if_pos (by simpa using hst))
  case retry =>
    rw [if_pos (by rw [hst, hen, ht]; rfl)]
    exact s.trainStart_shown p
  case early =>
    refine congrArg _ (if_neg ?_)
    obtain h | h | h := h <;> simp [h]
  case retrain =>
    set u := s.putTmr { s.tmr with narrow := s.tmr.narrow.filter (· != p.val) }
    obtain ⟨hstate, hmem, hnarrow, hcount⟩ := State.retrain_shown (s := u) (p := p) hen hst
    refine ⟨hstate, hmem, ?_, (State.fld_of_rd hcount _).trans (u.retrainCounted_count p)⟩
    show (u.retrain p).tmr.narrow.contains p.val = false
    rw [hnarrow]
    simp [u]
  case noRetrain =>
    set u := s.putTmr { s.tmr with narrow := s.tmr.narrow.filter (· != p.val) }
    have hidle : s.retrainAll p = u := State.retrain_idle (s := u) h
    rw [hidle]
    exact State.Same.onlyIn (State.putTmr_same (by decide) _ _ (.refl s))
  case disable =>
    set u := (s.setFld (A.tmrPortCtl p) F.tmrPortCtl.EN 0).setFld (A.tmrPortStat p) F.tmrPortStat.PEERV 0
    obtain ⟨hstate, hlane, hflds⟩ := u.portEnter_shown p (new := 0) (bad := 0) (by decide) (by decide)
    refine ⟨?_, hstate, hlane, ?_, u.portEnter_mem ..⟩
    · have hctl := State.portEnter_counters (s := u) (p := p) (new := 0) 0 (by decide) (.inr rfl)
      have hen : u.fld (A.tmrPortCtl p) F.tmrPortCtl.EN = 0 :=
        (State.fld_setFld_ne _ _ _ _ ((tmrPortStat_ne p).2.2.2 p).symm).trans (State.fld_setFld_same _ _ _ _ (by decide))
      exact bne_eq_false_iff_eq.2 ((State.fld_of_rd hctl _).trans hen)
    · exact bne_eq_false_iff_eq.2 ((hflds _ (by decide)).trans (State.fld_setFld_same _ _ _ _ (by decide)))
  case downed => exact congrArg _ (if_pos (by rw [hst]; rfl))
  case lost =>
    rw [if_neg (by simpa using hst)]
    set u := s.setFld (A.tmrPortStat p) F.tmrPortStat.PEERV 0
    have hkept : ∀ f : Fld, f.ok → f.hi < F.tmrPortStat.PEERV.lo ∨ F.tmrPortStat.PEERV.hi < f.lo →
        u.fld (A.tmrPortStat p) f = s.fld (A.tmrPortStat p) f := fun f hf hd => State.fld_setFld_field _ _ _ _ _ (by decide) hf hd
    have hold := hkept F.tmrPortStat.STATE (by decide) (by decide)
    have hraises := State.portEnter_raises (s := u) (p := p) (new := 0) (bad := 0) (by rwa [hold])
    rw [hold, hkept F.tmrPortStat.PEER (by decide) (by decide), hkept F.tmrPortStat.PEERGW (by decide) (by decide)] at hraises
    exact ⟨(u.portEnter_shown p (by decide) (by decide)).1, u.portEnter_mem .., hraises⟩
  case quiet => exact congrArg _ (if_pos (by obtain h | h := h <;> simp [h]))
  case unmarked => exact congrArg _ (if_neg (by simp [h]))
  case good =>
    rw [if_neg (by rw [hup]; decide), if_pos rfl]
    exact ⟨congrArg (Option.getD · 0) (FMap.get?_set_same ..), State.Same.onlyIn (State.putTmr_same (by decide) _ _ (.refl s))⟩
  case replay =>
    rw [if_neg (Nat.not_lt.2 hf)]
    exact ⟨s.flitFailed_fails p n, s.flitFailed_rd p n hcnt, s.flitFailed_replay p n⟩
  case again =>
    rw [if_pos hf]
    set u := s.flitFailed p n
    have hstat := State.fld_of_rd (s.flitFailed_rd p n hcnt) F.tmrPortStat.STATE
    have hen : u.flag (A.tmrPortCtl p) F.tmrPortCtl.EN = s.flag (A.tmrPortCtl p) F.tmrPortCtl.EN :=
      congrArg (· != 0) (State.fld_of_rd (s.flitFailed_rd p n (by simp only [A.tmrPortCtl, A.tmrPortCnt]; omega)) _)
    have hnot : s.fld (A.tmrPortStat p) F.tmrPortStat.STATE ≠ 1 := fun h1 => by simp [State.portUp, h1] at hup
    rw [← s.flitFailed_replay p n]
    cases h : s.flag (A.tmrPortCtl p) F.tmrPortCtl.EN with
    | true =>
      obtain ⟨hstate, -, -, hcount⟩ := State.retrain_shown (s := u) (p := p) (hen.trans h) (hstat ▸ hnot)
      exact ⟨hstate, (State.fld_of_rd hcount _).trans (u.retrainCounted_kept p).2.2⟩
    | false =>
      rw [State.retrain_idle (.inl (hen.trans h))]
      exact ⟨hstat, rfl⟩
  case mark =>
    rw [if_pos hup]
    exact ⟨FMap.get?_set_same .., State.Same.onlyIn (State.putTmr_same (by decide) _ _ (.refl s))⟩
end

section
/-!
PROOF. TimeServo (14 R402, R413 to R417): what the registers of global time show, what a measurement keeps, and each command by
its condition.
-/
namespace Sys2Proof.Machine

section
variable {msk : Nat} {was : State}

theorem State.showTime_same (hfree : msk &&& 1 = 0) (s) (hs : was.Same msk s) : was.Same msk (s.showTime) := by
  unfold State.showTime
  conv => zeta
  with_reducible repeat' first | assumption | exact free_mono hfree rfl | apply State.setFld_same

theorem State.gtStep_same (hfree : msk &&& 2048 = 0) (s now) (hs : was.Same msk s) : was.Same msk (s.gtStep now) := by
  unfold State.gtStep
  conv => zeta
  with_reducible repeat' first | assumption | exact free_mono hfree rfl | apply State.putGt_same

theorem State.gtShow_same (hfree : msk &&& 1025 = 0) (s st) (hs : was.Same msk s) : was.Same msk (s.gtShow st) := by
  unfold State.gtShow
  conv => zeta
  with_reducible repeat' first
    | assumption | exact free_mono hfree rfl | apply State.setFld_same | apply State.showTime_same | apply State.raise_same | split

theorem State.confirmStep_same (hfree : msk &&& 1140853761 = 0) (s x) (hs : was.Same msk s) : was.Same msk (s.confirmStep x) := by
  unfold State.confirmStep
  conv => zeta
  with_reducible repeat' first
    | assumption | exact free_mono hfree rfl | apply State.draw_same | apply State.putGt_same | apply State.hwSet_same
    | apply State.raise_same

theorem State.candidate_same (hfree : msk &&& 1140853761 = 0) (s x) (hs : was.Same msk s) : was.Same msk (s.candidate x) := by
  unfold State.candidate
  conv => zeta
  with_reducible repeat' first | assumption | exact free_mono hfree rfl | apply State.confirmStep_same | apply State.putGt_same | split

theorem State.servoUse_same (hfree : msk &&& 1073743872 = 0) (s x) (hs : was.Same msk s) : was.Same msk (s.servoUse x) := by
  unfold State.servoUse
  conv => zeta
  with_reducible repeat' first | assumption | exact free_mono hfree rfl | apply State.draw_same | apply State.putGt_same

theorem State.measure_same (hfree : msk &&& 1140853761 = 0) (s m) (hs : was.Same msk s) : was.Same msk (s.measure m) := by
  unfold State.measure
  conv => zeta
  with_reducible repeat' first
    | assumption | exact free_mono hfree rfl | apply State.putGt_same | apply State.gtShow_same | apply State.gtStep_same
    | apply State.candidate_same | apply State.servoUse_same | split

end

/-! ### What `GT_STAT` shows (14 R415) -/

/-- `GT_STAT` once it shows the servo in a state. -/
theorem State.gtShow_stat (s : State) {st : Nat} (hst : st < 8) :
    (s.gtShow st).fld A.gtStat F.gtStat.STATE = st ∧ (s.gtShow st).flag A.gtStat F.gtStat.VALID = s.gtOk st ∧
    (s.gtShow st).flag A.gtStat F.gtStat.SLEWING = !decide (s.gt.corr = 0) := by
  unfold State.gtShow
  extract_lets old ov u v off s1 s2 s3 s4 s5 s6
  have h3 : ∀ f : Fld, f.ok → f.hi < F.gtStat.EVER.lo ∨ F.gtStat.EVER.hi < f.lo → s3.fld A.gtStat f = s2.fld A.gtStat f := by
    intro f hf hd
    unfold s3
    split
    · exact State.fld_setFld_field _ _ _ _ _ (by decide) hf hd
    · rfl
  have hgt : s4.gt = s.gt := by
    have h3gt : s3.gt = s.gt := by
      unfold s3
      split <;> rfl
    exact h3gt
  have h6 : s6.rd A.gtStat = s5.rd A.gtStat := by
    simp only [s6, State.showTime]
    rw [State.rd_setFld_ne _ _ _ (by decide), State.rd_setFld_ne _ _ _ (by decide), State.rd_setFld_ne _ _ _ (by decide)]
  have hstate : s6.fld A.gtStat F.gtStat.STATE = st := by
    rw [State.fld_of_rd h6, State.fld_setFld_field _ _ _ _ _ (by decide) (by decide) (by decide),
      State.fld_setFld_field _ _ _ _ _ (by decide) (by decide) (by decide), h3 _ (by decide) (by decide),
      State.fld_setFld_field _ _ _ _ _ (by decide) (by decide) (by decide), State.fld_setFld_same _ _ _ _ (by decide)]
    exact Nat.mod_eq_of_lt hst
  have hvalid : s6.flag A.gtStat F.gtStat.VALID = v := by
    rw [State.flag, State.fld_of_rd h6, State.fld_setFld_field _ _ _ _ _ (by decide) (by decide) (by decide),
      State.fld_setFld_field _ _ _ _ _ (by decide) (by decide) (by decide), h3 _ (by decide) (by decide),
      State.fld_setFld_same _ _ _ _ (by decide)]
    cases v <;> rfl
  have hslew : s6.flag A.gtStat F.gtStat.SLEWING = !decide (s.gt.corr = 0) := by
    rw [State.flag, State.fld_of_rd h6, State.fld_setFld_same _ _ _ _ (by decide), hgt]
    by_cases hc : s.gt.corr = 0
    · rw [if_pos hc, decide_eq_true hc]; rfl
    · rw [if_neg hc, decide_eq_false hc]; rfl
  split
  · exact ⟨hstate, hvalid, hslew⟩
  · simp only [State.fld, State.flag, State.raise_rd]
    exact ⟨hstate, hvalid, hslew⟩

/-- A change of state or of validity is reported (14 R415, R419). -/
theorem State.gtShow_raises (s : State) {st : Nat}
    (h : s.fld A.gtStat F.gtStat.STATE ≠ st ∨ s.flag A.gtStat F.gtStat.VALID ≠ s.gtOk st) :
    s.raises (s.gtShow st) 0x72 (evSource 6 0)
      ([BitVec.ofNat 8 (s.fld A.gtStat F.gtStat.STATE), BitVec.ofNat 8 st, if s.gtOk st then 1 else 0] ++ leBytes 5 0 ++
        leBytes 4 s.gtUnc) := by
  unfold State.gtShow
  extract_lets old ov u v off s1 s2 s3 s4 s5 s6
  have hevt : s6.evt = s.evt := by
    have h3 : s3.evt = s.evt := by
      unfold s3
      split <;> rfl
    exact h3
  rw [if_neg]
  · exact State.raises_of_raise hevt List.prefix_rfl
  · obtain h | h := h
    · simp [old, h]
    · simp [ov, v, h]

theorem State.gtShow_gt (s : State) (st : Nat) : (s.gtShow st).gt = s.gt := (s.gtShow_shown st).gt

/-! ### A measurement (14 R415, R416) -/

/-- What a measurement keeps: the edge of PPS, the ports of PTP, and every register but those that the servo shows; it is heard. -/
structure State.Measured (s t : State) : Prop where
  heardAt : t.gt.heardAt = s.gt.heardAt
  ppsAt : t.gt.ppsAt = s.gt.ppsAt
  ports : t.gt.ports = s.gt.ports
  pulse : t.pulse = s.pulse
  rd : ∀ a, a ∉ gtShownRegs → t.rd a = s.rd a

theorem State.Measured.trans {s t u : State} (h : s.Measured t) (k : t.Measured u) : s.Measured u where
  heardAt := k.heardAt.trans h.heardAt
  ppsAt := k.ppsAt.trans h.ppsAt
  ports := k.ports.trans h.ports
  pulse := k.pulse.trans h.pulse
  rd a ha := (k.rd a ha).trans (h.rd a ha)

theorem State.gtShow_measured (s : State) (st : Nat) : s.Measured (s.gtShow st) where
  heardAt := congrArg Gt.heardAt (s.gtShow_gt st)
  ppsAt := congrArg Gt.ppsAt (s.gtShow_gt st)
  ports := congrArg Gt.ports (s.gtShow_gt st)
  pulse := (s.gtShow_shown st).pulse
  rd := (s.gtShow_shown st).rd

theorem State.servoUse_measured (s : State) (x : Int) : s.Measured (s.servoUse x) := ⟨rfl, rfl, rfl, rfl, fun _ _ => rfl⟩

theorem State.confirmStep_measured (s : State) (x : Int) : s.Measured (s.confirmStep x) := by
  unfold State.confirmStep
  extract_lets step
  split
  rename_i less u hdraw
  have hu : u = (s.draw (s.gt.inc * s.slewPpm / 1000000 - 1)).2 := by rw [hdraw]
  have hraise := fun (v : State) => v.raise_gt 0x73 (evSource 6 0) (leBytes 8 (toBits 64 step))
  refine ⟨(congrArg Gt.heardAt (hraise _)).trans ?_, (congrArg Gt.ppsAt (hraise _)).trans ?_, (congrArg Gt.ports (hraise _)).trans ?_, (State.raise_pulse ..).trans ?_,
    fun a ha => (State.raise_rd ..).trans ((State.rd_hwSet_ne _ _ ?_).trans ?_)⟩
  · rw [hu]; rfl
  · rw [hu]; rfl
  · rw [hu]; rfl
  · rw [hu]; rfl
  · exact fun he => ha (he ▸ List.mem_cons_self)
  · rw [hu]; rfl

theorem State.candidate_measured (s : State) (x : Int) : s.Measured (s.candidate x) := by
  unfold State.candidate
  extract_lets th l
  split
  · exact s.confirmStep_measured x
  · exact ⟨rfl, rfl, rfl, rfl, fun _ _ => rfl⟩

/-- A measurement is heard at its instant. -/
def State.heard (s : State) : State :=
  s.putGt { s.gt with heardAt := some s.pulse, good := if s.fld A.gtStat F.gtStat.STATE = 1 then s.gt.good else 0 }

theorem State.measure_measured (s : State) (m : Int) : s.heard.Measured (s.measure m) := by
  unfold State.measure
  extract_lets st0 st u u' ever
  split
  · refine State.Measured.trans (t := s.heard.gtStep _) ⟨rfl, rfl, rfl, rfl, fun _ _ => rfl⟩ (State.gtShow_measured _ _)
  · split
    · exact (State.candidate_measured s.heard _).trans (State.gtShow_measured _ _)
    · exact (State.servoUse_measured s.heard _).trans (State.gtShow_measured _ _)

/-! ### An edge of PPS_IN (14 R402, R413) -/

/-- The pin's edge, seen. -/
def State.ppsSeen (s : State) : State := ((s.putGt { s.gt with ppsAt := some s.pulse }).setFld A.gtPps F.gtPps.SEEN 1).retrim

theorem State.retrim_gt (s : State) : s.retrim.gt = s.gt := (State.retrim_same (msk := 2 ^ Part.gt.idx) rfl s (.refl s)).same .gt rfl

theorem State.retrim_pulse (s : State) : s.retrim.pulse = s.pulse :=
  (State.retrim_same (msk := 2 ^ Part.pulse.idx) rfl s (.refl s)).same .pulse rfl

theorem State.retrim_mem (s : State) : s.retrim.mem = s.mem := (State.retrim_same (msk := 2 ^ Part.mem.idx) rfl s (.refl s)).same .mem rfl

theorem State.retrim_rd (s : State) {a : Nat} (ha : a ≠ A.clkTrim) : s.retrim.rd a = s.rd a :=
  (s.retrim_kept (P := (· = a)) ha.symm).rd a rfl

theorem State.ppsSeen_gt (s : State) : s.ppsSeen.gt = { s.gt with ppsAt := some s.pulse } := State.retrim_gt _

theorem State.ppsSeen_pulse (s : State) : s.ppsSeen.pulse = s.pulse := State.retrim_pulse _

theorem State.ppsSeen_shown (s : State) : s.ppsSeen.flag A.gtPps F.gtPps.SEEN = true ∧
    s.ppsSeen.fld A.gtCfg F.gtCfg.SRC = s.fld A.gtCfg F.gtCfg.SRC := by
  refine ⟨?_, ?_⟩
  · rw [State.flag, State.ppsSeen, State.fld_of_rd (State.retrim_rd _ (by decide)), State.fld_setFld_same _ _ _ _ (by decide)]
    rfl
  · refine State.fld_of_rd ((State.retrim_rd _ (by decide)).trans ?_) _
    exact State.rd_setFld_ne _ _ _ (by decide)

/-- An edge measures the offset while the phase comes from PPS_IN, and otherwise is only seen. -/
theorem execPpsInEdge_cases (s : State) :
    (s.fld A.gtCfg F.gtCfg.SRC = 1 ∨ s.fld A.gtCfg F.gtCfg.SRC = 2 → ∃ m, exec .ppsInEdge s = .next (s.ppsSeen.measure m)) ∧
    (s.fld A.gtCfg F.gtCfg.SRC = 0 ∨ s.fld A.gtCfg F.gtCfg.SRC = 3 → exec .ppsInEdge s = .next s.ppsSeen) := by
  have hsrc := s.ppsSeen_shown.2
  refine ⟨fun h => ?_, fun h => ?_⟩
  · have hon : (decide (s.ppsSeen.fld A.gtCfg F.gtCfg.SRC = 1) || decide (s.ppsSeen.fld A.gtCfg F.gtCfg.SRC = 2)) = true := by
      rw [hsrc]; obtain h | h := h <;> simp [h]
    show ∃ m, execPpsInEdge s = _
    unfold execPpsInEdge
    extract_lets gt u0 u src
    rw [if_pos (c := (decide (src = 1) || decide (src = 2)) = true) hon]
    split <;> exact ⟨_, rfl⟩
  · have hoff : ¬ (decide (s.ppsSeen.fld A.gtCfg F.gtCfg.SRC = 1) || decide (s.ppsSeen.fld A.gtCfg F.gtCfg.SRC = 2)) = true := by
      rw [hsrc]; obtain h | h := h <;> simp [h]
    exact congrArg _ (if_neg hoff)

/-! ### The timeout of a measurement (14 R415) -/

/-- How long a measurement lasts (14 R415). -/
def State.heardLimit (s : State) : Nat := if s.fld A.gtCfg F.gtCfg.SRC = 0 then 4 * s.syncInterval else 2000000 * usPulses

/-- Global time as it returns to UNSET: nothing measured. -/
def State.unmeasured (s : State) : State := s.putGt { s.gt with measAt := none, good := 0, cand := [] }

theorem execGtMeasurementTimeout_early {s : State} {t0 : Nat} (h : s.gt.heardAt = some t0) (ht : s.pulse < t0 + s.heardLimit) :
    exec .gtMeasurementTimeout s = .next s := by
  show execGtMeasurementTimeout s = _
  unfold execGtMeasurementTimeout
  simp only [h]
  refine congrArg _ (if_pos ?_)
  rw [Bool.not_eq_true']
  exact decide_eq_false (Nat.not_le.2 ht)

theorem execGtMeasurementTimeout_late {s : State} (h : ∀ t0, s.gt.heardAt = some t0 → t0 + s.heardLimit ≤ s.pulse) :
    exec .gtMeasurementTimeout s = .next
      (if s.fld A.gtStat F.gtStat.STATE = 1 then (if s.flag A.gtStat F.gtStat.EVER then s.gtShow 3 else s.unmeasured.gtShow 0)
       else if s.fld A.gtStat F.gtStat.STATE = 2 then s.gtShow 3 else s) := by
  show execGtMeasurementTimeout s = _
  unfold execGtMeasurementTimeout
  extract_lets src limit late gt
  have hlate : late = true := by
    unfold late
    rcases hh : s.gt.heardAt with _ | t0
    · rfl
    · exact decide_eq_true (h t0 hh)
  rw [hlate]
  refine congrArg _ ((if_neg (by decide)).trans ?_)
  split
  · rename_i hst
    rw [if_pos hst]
    rfl
  · rename_i hst
    rw [if_neg (by omega), if_pos hst]
  · rename_i h1 h2
    rw [if_neg h1, if_neg h2]

/-! ### MARK_OUT (14 R414) -/

/-- Driving MARK_OUT high reports it where it was low. -/
theorem State.driveMark_high (s : State) : (s.driveMark true).clk.mark = true ∧ (s.driveMark true).clk.markUntil = s.clk.markUntil ∧
    (s.driveMark true).out = if s.clk.mark then s.out else s.out ++ [Msg.markOut true] := by
  unfold State.driveMark
  cases hm : s.clk.mark with
  | true => exact ⟨hm, rfl, rfl⟩
  | false => exact ⟨rfl, rfl, rfl⟩

end Sys2Proof.Machine

open Sys2Proof Sys2Proof.Machine

/-- Settles O46: every timer by whether it is due, with what a measurement keeps and what `GT_STAT` shows. -/
theorem timeServo : Obligations.TimeServo := by
  unfold Obligations.TimeServo
  rintro s st src limit rfl rfl rfl
  refine ⟨?edge, fun h => ?unseen, fun t0 hpps hseen => ⟨fun ht => ⟨_, rfl, ?expired⟩, fun ht => ?fresh⟩, fun t0 hheard ht => ?recent,
    fun h1 h2 => ?other, fun hlate => ⟨fun hst => ⟨_, execGtMeasurementTimeout_late hlate, ?holdover⟩,
      fun hst hever => ⟨_, execGtMeasurementTimeout_late hlate, ?unset⟩⟩, fun h => ?unspent,
    fun hcorr hslew => ⟨_, rfl, ?spent⟩, fun h => ?same, fun h => ⟨_, rfl, ?limit⟩, ?pulse⟩
  case edge =>
    obtain ⟨hon, hoff⟩ := execPpsInEdge_cases s
    obtain ⟨hseen, hsrc⟩ := s.ppsSeen_shown
    have hmem : s.ppsSeen.mem = s.mem := State.retrim_mem _
    have hlt : s.fld A.gtCfg F.gtCfg.SRC < 4 := getFld_lt ..
    by_cases hs : s.fld A.gtCfg F.gtCfg.SRC = 1 ∨ s.fld A.gtCfg F.gtCfg.SRC = 2
    · obtain ⟨m, hexec⟩ := hon hs
      have hkept := s.ppsSeen.measure_measured m
      refine ⟨_, hexec, (congrArg (· != 0) (State.fld_of_rd (hkept.rd _ (by decide)) _)).trans hseen, ?_, ?_, fun _ => ?_,
        fun h => by omega⟩
      · exact hkept.ppsAt.trans (congrArg Gt.ppsAt s.ppsSeen_gt)
      · exact ((State.measure_same (msk := 2 ^ Part.mem.idx) rfl s.ppsSeen m (.refl _)).same .mem rfl).trans hmem
      · exact hkept.heardAt.trans (congrArg some s.ppsSeen_pulse)
    · refine ⟨_, hoff (by omega), hseen, congrArg Gt.ppsAt s.ppsSeen_gt, hmem, fun h => absurd h hs, fun _ => ?_⟩
      rw [s.ppsSeen_gt]
      exact ⟨rfl, rfl⟩
  case unseen =>
    show execPpsSeenExpiry s = _
    unfold execPpsSeenExpiry
    rcases hpps : s.gt.ppsAt with _ | t0
    · rfl
    · obtain h | h := h
      · rw [h] at hpps; cases hpps
      · exact congrArg _ (if_neg (by simp [h]))
  case expired =>
    simp only [hpps]
    rw [if_pos (by rw [hseen, ht]; rfl)]
    refine ⟨?_, State.retrim_gt _⟩
    rw [State.flag, State.fld_of_rd (State.retrim_rd _ (by decide)), State.fld_setFld_same _ _ _ _ (by decide)]
    rfl
  case fresh =>
    show execPpsSeenExpiry s = _
    unfold execPpsSeenExpiry
    simp only [hpps]
    exact congrArg _ (if_neg (by simp [ht]))
  case recent => exact execGtMeasurementTimeout_early hheard ht
  case other =>
    by_cases hlate : ∀ t0, s.gt.heardAt = some t0 → t0 + s.heardLimit ≤ s.pulse
    · rw [execGtMeasurementTimeout_late hlate, if_neg h1, if_neg h2]
    · simp only [not_forall, Nat.not_le] at hlate
      obtain ⟨t0, hheard, ht⟩ := hlate
      exact execGtMeasurementTimeout_early hheard ht
  case holdover =>
    have hshow : (if s.fld A.gtStat F.gtStat.STATE = 1 then
        (if s.flag A.gtStat F.gtStat.EVER then s.gtShow 3 else s.unmeasured.gtShow 0)
        else if s.fld A.gtStat F.gtStat.STATE = 2 then s.gtShow 3 else s) = s.gtShow 3 := by
      obtain h2 | ⟨h1, hever⟩ := hst
      · rw [if_neg (by omega), if_pos h2]
      · rw [if_pos h1, if_pos hever]
    rw [hshow]
    exact ⟨(s.gtShow_stat (by decide)).1, s.gtShow_gt 3⟩
  case unset =>
    rw [if_pos hst, if_neg (by rw [hever]; decide)]
    obtain ⟨hstate, hvalid, -⟩ := s.unmeasured.gtShow_stat (st := 0) (by decide)
    refine ⟨hstate, (s.unmeasured.gtShow_shown 0).unc, hvalid.trans ?_, (congrArg Gt.now (s.unmeasured.gtShow_gt 0)).trans rfl⟩
    simp [State.gtOk]
  case unspent => exact congrArg _ (if_neg (by obtain h | h := h <;> simp [h]))
  case spent =>
    rw [if_pos (by rw [hslew, decide_eq_true hcorr]; rfl)]
    set u := s.putGt { s.gt with slew := 0 }
    have hgt : u.gtJudge.gt = u.gt := u.gtShow_gt _
    obtain ⟨hstate, -, hslewing⟩ := u.gtShow_stat (st := u.fld A.gtStat F.gtStat.STATE) (getFld_lt ..)
    refine ⟨hslewing.trans ?_, (congrArg Gt.slew hgt).trans rfl, (congrArg Gt.now hgt).trans rfl, hstate⟩
    rw [decide_eq_true (show u.gt.corr = 0 from hcorr)]
    rfl
  case same => exact congrArg _ (if_neg (by simp [h]))
  case limit =>
    rw [if_pos (by simpa using h)]
    obtain ⟨hstate, hvalid, -⟩ := s.gtShow_stat (st := s.fld A.gtStat F.gtStat.STATE) (getFld_lt ..)
    exact ⟨hvalid, hstate, s.gtShow_gt _, s.gtShow_raises (.inr h)⟩
  case pulse =>
    rintro last near sec hlast hnear rfl
    have hwhen : s.instantAt 79 + 2 * 2 ^ 40 = last := hlast.symm
    have hwide : 2 * (2 * 2 ^ 40) + (s.instantAt 79 - s.instant) = near := by
      rw [hnear]
      rfl
    have hexec : exec .markOutPulse s = .next (if s.fld A.clkMark F.clkMark.HOLDER == 1 &&
          s.clk.markSec != some (last / gtSecond % 2 ^ 48) && decide (last % gtSecond ≤ near) then
        (s.putClk { s.clk with markSec := some (last / gtSecond % 2 ^ 48), markUntil := s.pulse + msPulses }).driveMark true
      else s) := by
      rw [← hwhen, ← hwide]
      rfl
    refine ⟨fun h => hexec.trans (congrArg _ (if_neg ?_)), fun hholder hsec hin => ⟨_, hexec, ?_⟩⟩
    · obtain h | h | h := h
      · simp [h]
      · simp [h]
      · simp [Nat.not_le.2 h]
    · rw [if_pos (by rw [hholder, bne_iff_ne.2 hsec, decide_eq_true hin]; rfl)]
      obtain ⟨hmark, huntil, hout⟩ := State.driveMark_high
        (s.putClk { s.clk with markSec := some (last / gtSecond % 2 ^ 48), markUntil := s.pulse + msPulses })
      exact ⟨hmark, huntil, State.driveMark_regs .., hout⟩
end

section
/-!
PROOF. Clocks (14 R400 to R407, R410): the PLLs of a crystal, the trim and its source, a change of frequency, and an overrun.
-/
namespace Sys2Proof.Machine

section
variable {msk : Nat} {was : State}

theorem State.freqWrite_same (hfree : msk &&& 4097 = 0) (s v) (hs : was.Same msk s) : was.Same msk (s.freqWrite v) := by
  unfold State.freqWrite
  conv => zeta
  with_reducible repeat' first
    | assumption | exact free_mono hfree rfl | apply State.putClk_same | apply State.setFld_same | apply State.setBit_same | split

theorem State.relock_same (hfree : msk &&& 1073745921 = 0) (s n) (hs : was.Same msk s) : was.Same msk (s.relock n) := by
  unfold State.relock
  conv => zeta
  with_reducible repeat' first
    | assumption | exact free_mono hfree rfl | apply State.draw_same | apply State.putClk_same | apply State.setBit_same

end

/-! ### Bits of a field -/

theorem State.fldBit_setBit (s : State) (a : Nat) {f : Fld} (hf : f.ok) (i : Nat) (x : Bool) {k : Nat} (hk : k < f.width) :
    (s.setBit a f i x).fldBit a f k = if k = i then x else s.fldBit a f k := State.testBit_setBit s a hf i x hk

theorem State.fldBit_setFld_field (s : State) (a : Nat) {f g : Fld} (hf : f.ok) (hg : g.ok) (hd : g.hi < f.lo ∨ f.hi < g.lo)
    (x k : Nat) : (s.setFld a f x).fldBit a g k = s.fldBit a g k :=
  congrArg (Nat.testBit · k) (State.fld_setFld_field s a _ _ x hf hg hd)

theorem State.fldBit_of_rd {s t : State} {a : Nat} (h : t.rd a = s.rd a) (f : Fld) (k : Nat) : t.fldBit a f k = s.fldBit a f k :=
  congrArg (Nat.testBit · k) (State.fld_of_rd h f)

/-! ### PLLs that lose lock (14 R400) -/

theorem State.relock_shown (s : State) (n : Nat) : s.relock n = ((s.draw (100 * usPulses)).2.setBit A.clkStat F.clkStat.LOCK n false).putClk
    { (s.draw (100 * usPulses)).2.clk with
      relockAt := FMap.set s.clk.relockAt n (s.pulse + (s.draw (100 * usPulses)).1) } := rfl

theorem State.relock_rd_ne (s : State) (n : Nat) {a : Nat} (ha : a ≠ A.clkStat) : (s.relock n).rd a = s.rd a :=
  State.rd_setFld_ne _ _ _ ha

theorem State.relock_fld (s : State) (n : Nat) {f : Fld} (hf : f.ok) (hd : f.hi < F.clkStat.LOCK.lo ∨ F.clkStat.LOCK.hi < f.lo) :
    (s.relock n).fld A.clkStat f = s.fld A.clkStat f := State.fld_setFld_field _ _ _ _ _ (by decide) hf hd

theorem State.relock_lock (s : State) (n : Nat) {k : Nat} (hk : k < 6) :
    (s.relock n).fldBit A.clkStat F.clkStat.LOCK k = if k = n then false else s.fldBit A.clkStat F.clkStat.LOCK k :=
  State.fldBit_setBit _ _ (by decide) _ _ hk

/-- PLLs that lose lock one after the other. -/
def State.relocked (s : State) (l : List Nat) : State := l.foldl (fun s n => s.relock n) s

theorem State.relocked_kept (l : List Nat) (s : State) : (∀ a, a ≠ A.clkStat → (s.relocked l).rd a = s.rd a) ∧
    (∀ f : Fld, f.ok → f.hi < F.clkStat.LOCK.lo ∨ F.clkStat.LOCK.hi < f.lo →
      (s.relocked l).fld A.clkStat f = s.fld A.clkStat f) ∧ (s.relocked l).mem = s.mem ∧ (s.relocked l).evt = s.evt := by
  induction l generalizing s with
  | nil => exact ⟨fun _ _ => rfl, fun _ _ _ => rfl, rfl, rfl⟩
  | cons n l ih =>
    obtain ⟨hrd, hfld, hmem, hevt⟩ := ih (s.relock n)
    exact ⟨fun a ha => (hrd a ha).trans (s.relock_rd_ne n ha), fun f hf hd => (hfld f hf hd).trans (s.relock_fld n hf hd), hmem, hevt⟩

theorem State.relocked_lock (l : List Nat) (s : State) {k : Nat} (hk : k < 6) :
    (s.relocked l).fldBit A.clkStat F.clkStat.LOCK k = if k ∈ l then false else s.fldBit A.clkStat F.clkStat.LOCK k := by
  induction l generalizing s with
  | nil => rfl
  | cons n l ih =>
    refine (ih (s.relock n)).trans ?_
    rw [s.relock_lock n hk]
    by_cases hl : k ∈ l
    · rw [if_pos hl, if_pos (List.mem_cons_of_mem _ hl)]
    · rw [if_neg hl]
      by_cases hn : k = n
      · rw [if_pos hn, if_pos (hn ▸ List.mem_cons_self)]
      · rw [if_neg hn, if_neg (by simp [hn, hl])]

theorem pllsOf_lt (xb : Bool) : ∀ n ∈ pllsOf xb, n < 6 := by cases xb <;> decide

/-! ### The source of the trim (14 R402) -/

theorem State.retrim_src (s : State) : s.retrim.fld A.clkTrim F.clkTrim.SRC = s.trimSource.1 % 8 := by
  unfold State.retrim
  generalize s.trimSource = e
  obtain ⟨src, port⟩ := e
  dsimp only
  have hsrc : (((s.setFld A.clkTrim F.clkTrim.SRC src).setFld A.clkTrim F.clkTrim.PORT port).setFld A.clkTrim F.clkTrim.SETTLED 0).fld
      A.clkTrim F.clkTrim.SRC = src % 8 :=
    (State.fld_setFld_field _ _ _ _ _ (by decide) (by decide) (by decide)).trans
      ((State.fld_setFld_field _ _ _ _ _ (by decide) (by decide) (by decide)).trans (State.fld_setFld_same _ _ _ _ (by decide)))
  split
  · rename_i h
    rw [← h.1]
    exact (Nat.mod_eq_of_lt (getFld_lt ..)).symm
  · split
    · exact hsrc
    · exact (State.fld_setFld_field _ _ _ _ _ (by decide) (by decide) (by decide)).trans hsrc

/-- Without XA the trim follows the Marks of a port that is up, else PPS_IN where it is seen. -/
theorem State.trimSource_lost {s : State} (h : s.flag A.clkStat F.clkStat.XA_FAIL = true) : s.trimSource.1 =
    if (List.range 36).any s.portUp then 2 else if s.flag A.gtPps F.gtPps.SEEN then 3 else 0 := by
  unfold State.trimSource firstNat
  rw [h, if_neg (by decide)]
  rcases hfind : (List.range 36).find? s.portUp with _ | p
  · have hnone : (List.range 36).any s.portUp = false := by simpa using hfind
    rw [hnone]
    dsimp only
    split <;> rfl
  · have hany : (List.range 36).any s.portUp = true := by
      rw [List.any_eq_true]
      exact ⟨p, List.mem_of_find?_eq_some hfind, List.find?_some hfind⟩
    rw [hany]
    rfl

/-- A port is up as its status says. -/
theorem State.portUp_of_rd {s t : State} {p : Nat} (h : t.rd (A.tmrPortStat p) = s.rd (A.tmrPortStat p)) : t.portUp p = s.portUp p := by
  simp only [State.portUp, State.fld_of_rd h]

/-! ### A change of frequency (14 R405) -/

/-- The setting of MEM as it is taken: a 3 is ignored (14 R405). -/
def State.memTaken (s : State) (v : Word) : Nat :=
  if getFld v F.clkFreq.MEM = 3 then s.fld A.clkFreq F.clkFreq.MEM else getFld v F.clkFreq.MEM

theorem fabTaken_lt (f : Nat) : fabTaken f < 2048 := by
  unfold fabTaken
  omega

theorem State.memTaken_lt (s : State) (v : Word) : s.memTaken v < 4 := by
  unfold State.memTaken
  split <;> exact getFld_lt ..

theorem State.freqWrite_waits {s : State} (v : Word) (h : s.flag A.clkStat F.clkStat.FCHG = true) :
    s.freqWrite v = s.putClk { s.clk with freqNext := s.clk.freqNext ++ [v] } := if_pos h

theorem State.freqWrite_kept {s : State} {v : Word} (h : s.flag A.clkStat F.clkStat.FCHG = false)
    (hfab : s.fld A.clkFreq F.clkFreq.FAB = fabTaken (getFld v F.clkFreq.FAB)) (hmem : s.fld A.clkFreq F.clkFreq.MEM = s.memTaken v) :
    s.freqWrite v = s := (if_neg (by rw [h]; decide)).trans (if_pos ⟨hfab, hmem⟩)

/-- A lock bit as it is where its domain changes. -/
def State.lockIf (s : State) (d : Bool) (n : Nat) (x : Bool) : State := if d then s.setBit A.clkStat F.clkStat.LOCK n x else s

theorem State.lockIf_kept (s : State) (d : Bool) (n : Nat) (x : Bool) : (∀ a, a ≠ A.clkStat → (s.lockIf d n x).rd a = s.rd a) ∧
    (s.lockIf d n x).clk = s.clk ∧ (s.lockIf d n x).tmr = s.tmr := by
  unfold State.lockIf
  split
  · exact ⟨fun a ha => State.rd_setFld_ne _ _ _ ha, rfl, rfl⟩
  · exact ⟨fun _ _ => rfl, rfl, rfl⟩

theorem State.lockIf_lock (s : State) (d : Bool) (n : Nat) (x : Bool) {k : Nat} (hk : k < 6) :
    (s.lockIf d n x).fldBit A.clkStat F.clkStat.LOCK k =
      if d = true ∧ k = n then x else s.fldBit A.clkStat F.clkStat.LOCK k := by
  unfold State.lockIf
  cases d with
  | true =>
    rw [if_pos rfl, State.fldBit_setBit _ _ (by decide) _ _ hk]
    simp
  | false =>
    rw [if_neg Bool.false_ne_true, if_neg (by simp)]

theorem State.lockIf_fchg (s : State) (d : Bool) (n : Nat) (x : Bool) :
    (s.lockIf d n x).fld A.clkStat F.clkStat.FCHG = s.fld A.clkStat F.clkStat.FCHG := by
  unfold State.lockIf
  split
  · exact State.fld_setFld_field _ _ _ _ _ (by decide) (by decide) (by decide)
  · rfl

/-- The setting that a write takes, with its change under way. -/
def State.freqTaken (s : State) (v : Word) : State :=
  let u := (s.setFld A.clkFreq F.clkFreq.FAB (fabTaken (getFld v F.clkFreq.FAB))).setFld A.clkFreq F.clkFreq.MEM (s.memTaken v)
  u.putClk { u.clk with
    chg := (s.fld A.clkFreq F.clkFreq.FAB != fabTaken (getFld v F.clkFreq.FAB)).toNat +
      2 * (s.fld A.clkFreq F.clkFreq.MEM != s.memTaken v).toNat }

theorem State.freqWrite_starts {s : State} {v : Word} (h : s.flag A.clkStat F.clkStat.FCHG = false)
    (hnew : ¬ (s.fld A.clkFreq F.clkFreq.FAB = fabTaken (getFld v F.clkFreq.FAB) ∧ s.fld A.clkFreq F.clkFreq.MEM = s.memTaken v)) :
    s.freqWrite v = (((s.freqTaken v).lockIf (s.fld A.clkFreq F.clkFreq.FAB != fabTaken (getFld v F.clkFreq.FAB)) 1 false).lockIf
      (s.fld A.clkFreq F.clkFreq.MEM != s.memTaken v) 2 false).setFld A.clkStat F.clkStat.FCHG 1 :=
  (if_neg (by rw [h]; decide)).trans (if_neg hnew)

theorem State.freqTaken_shown (s : State) (v : Word) :
    (s.freqTaken v).fld A.clkFreq F.clkFreq.FAB = fabTaken (getFld v F.clkFreq.FAB) ∧
    (s.freqTaken v).fld A.clkFreq F.clkFreq.MEM = s.memTaken v := by
  refine ⟨?_, ?_⟩
  · refine (State.fld_setFld_field _ _ _ _ _ (by decide) (by decide) (by decide)).trans ?_
    exact (State.fld_setFld_same _ _ _ _ (by decide)).trans (Nat.mod_eq_of_lt (fabTaken_lt _))
  · exact (State.fld_setFld_same _ _ _ _ (by decide)).trans (Nat.mod_eq_of_lt (s.memTaken_lt v))

/-- What `CLK_FREQ` and `CLK_STAT` show after a write while no change is under way. -/
theorem State.freqWrite_shown {s : State} (v : Word) (h : s.flag A.clkStat F.clkStat.FCHG = false) :
    (s.freqWrite v).fld A.clkFreq F.clkFreq.FAB = fabTaken (getFld v F.clkFreq.FAB) ∧
    (s.freqWrite v).fld A.clkFreq F.clkFreq.MEM = s.memTaken v ∧ (s.freqWrite v).clk.freqNext = s.clk.freqNext := by
  by_cases hnew : s.fld A.clkFreq F.clkFreq.FAB = fabTaken (getFld v F.clkFreq.FAB) ∧ s.fld A.clkFreq F.clkFreq.MEM = s.memTaken v
  · rw [State.freqWrite_kept h hnew.1 hnew.2]
    exact ⟨hnew.1, hnew.2, rfl⟩
  · obtain ⟨hfab, hmem⟩ := s.freqTaken_shown v
    rw [State.freqWrite_starts h hnew]
    set d1 := s.fld A.clkFreq F.clkFreq.FAB != fabTaken (getFld v F.clkFreq.FAB)
    set d2 := s.fld A.clkFreq F.clkFreq.MEM != s.memTaken v
    obtain ⟨hrd1, hclk1, -⟩ := (s.freqTaken v).lockIf_kept d1 1 false
    obtain ⟨hrd2, hclk2, -⟩ := ((s.freqTaken v).lockIf d1 1 false).lockIf_kept d2 2 false
    have hrd : ((((s.freqTaken v).lockIf d1 1 false).lockIf d2 2 false).setFld A.clkStat F.clkStat.FCHG 1).rd A.clkFreq =
        (s.freqTaken v).rd A.clkFreq :=
      (State.rd_setFld_ne _ _ _ (by decide)).trans ((hrd2 _ (by decide)).trans (hrd1 _ (by decide)))
    exact ⟨(State.fld_of_rd hrd _).trans hfab, (State.fld_of_rd hrd _).trans hmem,
      (congrArg Clk.freqNext (hclk2.trans hclk1)).trans rfl⟩

/-- Where a domain changes its PLL loses lock, and the change is under way. -/
theorem State.freqWrite_changes {s : State} {v : Word} (h : s.flag A.clkStat F.clkStat.FCHG = false)
    (hnew : s.fld A.clkFreq F.clkFreq.FAB ≠ fabTaken (getFld v F.clkFreq.FAB) ∨ s.fld A.clkFreq F.clkFreq.MEM ≠ s.memTaken v) :
    (s.freqWrite v).flag A.clkStat F.clkStat.FCHG = true ∧
    (s.fld A.clkFreq F.clkFreq.FAB ≠ fabTaken (getFld v F.clkFreq.FAB) → (s.freqWrite v).fldBit A.clkStat F.clkStat.LOCK 1 = false) ∧
    (s.fld A.clkFreq F.clkFreq.MEM ≠ s.memTaken v → (s.freqWrite v).fldBit A.clkStat F.clkStat.LOCK 2 = false) := by
  rw [State.freqWrite_starts h (by tauto)]
  refine ⟨?_, fun hfab => ?_, fun hmem => ?_⟩
  · rw [State.flag, State.fld_setFld_same _ _ _ _ (by decide)]
    rfl
  · rw [State.fldBit_setFld_field _ _ (by decide) (by decide) (by decide), State.lockIf_lock _ _ _ _ (by decide),
      if_neg (by simp), State.lockIf_lock _ _ _ _ (by decide), bne_iff_ne.2 hfab]
    simp
  · rw [State.fldBit_setFld_field _ _ (by decide) (by decide) (by decide), State.lockIf_lock _ _ _ _ (by decide), bne_iff_ne.2 hmem]
    simp

/-! ### The end of a change (14 R405) -/

/-- The end of a change: its PLLs have relocked. -/
def State.freqEnded (s : State) : State :=
  let u := ((s.setFld A.clkStat F.clkStat.FCHG 0).lockIf (s.clk.chg.testBit 0) 1 true).lockIf (s.clk.chg.testBit 1) 2 true
  u.putClk { s.clk with chg := 0, freqNext := [] }

theorem State.release_idle {s : State} (h : s.tmr.waitq = []) : s.release = s.putTmr { s.tmr with waitq := [] } := by
  unfold State.release
  rw [h]
  rfl

theorem State.serveHeld_idle {s : State} (h : s.tmr.held = []) : s.serveHeld = s := if_pos (by rw [h]; rfl)

/-- With nothing held and nothing waiting the end of a change applies the writes that waited. -/
theorem execFreqChangeComplete_idle {s : State} (h : s.flag A.clkStat F.clkStat.FCHG = true) (hheld : s.tmr.held = [])
    (hwait : s.tmr.waitq = []) : exec .freqChangeComplete s = .next
      (s.clk.freqNext.foldl State.freqWrite (s.freqEnded.putTmr { s.tmr with waitq := [] })) := by
  show execFreqChangeComplete s = _
  unfold execFreqChangeComplete
  extract_lets u0 u1 u2 l clk u3
  have h1 : u1 = u0.lockIf (s.clk.chg.testBit 0) 1 true := rfl
  obtain ⟨-, hclk1, htmr1⟩ := u0.lockIf_kept (s.clk.chg.testBit 0) 1 true
  have h2 : u2 = u1.lockIf (s.clk.chg.testBit 1) 2 true := by
    have hchg : u1.clk = s.clk := hclk1
    unfold u2
    rw [hchg]
    rfl
  obtain ⟨-, hclk2, htmr2⟩ := u1.lockIf_kept (s.clk.chg.testBit 1) 2 true
  have hclk : u2.clk = s.clk := by rw [h2, hclk2, h1, hclk1]; rfl
  have htmr : u2.tmr = s.tmr := by rw [h2, htmr2, h1, htmr1]; rfl
  have hend : u2.putClk { s.clk with chg := 0, freqNext := [] } = s.freqEnded := by rw [h2, h1]; rfl
  have hu3 : u3 = s.freqEnded.putTmr { s.tmr with waitq := [] } := by
    have hput : u2.putClk { clk with chg := 0, freqNext := [] } = s.freqEnded := by rw [← hend]; unfold clk; rw [hclk]
    have hended : s.freqEnded.tmr = s.tmr := by rw [← hend]; exact htmr
    unfold u3
    rw [hput, State.release_idle (hended ▸ hwait), State.serveHeld_idle (hended ▸ hheld), hended]
  have hl : l = s.clk.freqNext := congrArg Clk.freqNext hclk
  rw [h, if_neg (by decide), hl, hu3]

theorem State.freqEnded_shown (s : State) : s.freqEnded.flag A.clkStat F.clkStat.FCHG = false ∧
    s.freqEnded.rd A.clkFreq = s.rd A.clkFreq ∧
    (s.clk.chg.testBit 0 = true → s.freqEnded.fldBit A.clkStat F.clkStat.LOCK 1 = true) ∧
    (s.clk.chg.testBit 1 = true → s.freqEnded.fldBit A.clkStat F.clkStat.LOCK 2 = true) := by
  set u := s.setFld A.clkStat F.clkStat.FCHG 0
  set v := u.lockIf (s.clk.chg.testBit 0) 1 true
  have hlock : ∀ k, k < 6 → s.freqEnded.fldBit A.clkStat F.clkStat.LOCK k =
      if s.clk.chg.testBit 1 = true ∧ k = 2 then true else v.fldBit A.clkStat F.clkStat.LOCK k := fun k hk => v.lockIf_lock _ _ _ hk
  refine ⟨?_, ?_, fun h => ?_, fun h => ?_⟩
  · refine bne_eq_false_iff_eq.2 ((v.lockIf_fchg _ _ _).trans ((u.lockIf_fchg _ _ _).trans ?_))
    exact State.fld_setFld_same _ _ _ _ (by decide)
  · refine ((v.lockIf_kept _ _ _).1 _ (by decide)).trans (((u.lockIf_kept _ _ _).1 _ (by decide)).trans ?_)
    exact State.rd_setFld_ne _ _ _ (by decide)
  · rw [hlock 1 (by decide), if_neg (by simp)]
    exact (u.lockIf_lock _ _ _ (by decide)).trans (if_pos ⟨h, rfl⟩)
  · rw [hlock 2 (by decide), if_pos ⟨h, rfl⟩]

/-! ### An overrun (14 R407) -/

/-- The victims of an overrun that this module can name: none, a load of a context, an access of its own. -/
theorem State.overrun_kept {s : State} {b : BenchNo} {c : Ctx} {rd : Fin 32} {w : Victim}
    (hw : w = .other ∨ (w = .load b c rd ∧ (s.nearLoad b c rd).isSome) ∨ ∃ q a, w = .access q a) :
    (s.overrun w).regs = s.regs ∧ (s.overrun w).mem = s.mem ∧ (s.overrun w).evt.accepting = s.evt.accepting ∧
    s.evt.raised <+: (s.overrun w).evt.raised ∧
    (w = .load b c rd → s.scalarIs (s.overrun w) b c rd 0) ∧ (∀ q a, w = .access q a → (s.overrun w).lost = s.lost ++ [(q.val, a)]) := by
  obtain rfl | ⟨rfl, hload⟩ | ⟨q, a, rfl⟩ := hw
  · refine ⟨rfl, rfl, rfl, List.prefix_rfl, ?_, ?_⟩ <;> nofun
  · obtain ⟨l, hl⟩ := Option.isSome_iff_exists.1 hload
    have hover : s.overrun (.load b c rd) =
        ((s.loadGone b c l).setS b c rd 0).accessFailed b c l.addr .ue (s.tcFor c.idx s.modnum) := by
      simp only [State.overrun, hl]
    have hset : s.Same (2 ^ Part.regs.idx + 2 ^ Part.mem.idx + 2 ^ Part.evt.idx) ((s.loadGone b c l).setS b c rd 0) :=
      State.setS_same (by decide) _ _ _ _ _ (State.modCtx_same (by decide) s b c _ (.refl s))
    have hevt : ((s.loadGone b c l).setS b c rd 0).evt = s.evt := hset.same .evt (by decide)
    rw [hover, State.accessFailed]
    refine ⟨(State.raise_regs ..).trans (hset.same .regs (by decide)), (State.raise_mem ..).trans (hset.same .mem (by decide)), ?_, ?_,
      fun _ r => ?_, nofun⟩
    · rw [← hevt]
      unfold State.raise
      split <;> rfl
    · rw [← hevt]
      exact State.raised_prefix_raise ..
    · have hctx : ∀ pay, (((s.loadGone b c l).setS b c rd 0).raise 0x41 (evSource 3 0x3F) pay).s b c r =
          ((s.loadGone b c l).setS b c rd 0).s b c r := fun pay => by
        rw [State.s, State.ctx_of_benches (State.raise_benches ..), ← State.s]
      rw [hctx, State.s_setS]
      have hgone : (s.loadGone b c l).s b c r = s.s b c r := by
        rw [State.s, State.loadGone, State.ctx_modCtx_same]
        rfl
      rw [hgone]
  · refine ⟨rfl, rfl, rfl, List.prefix_rfl, nofun, fun q' a' h => ?_⟩
    obtain ⟨rfl, rfl⟩ := Victim.access.inj h
    rfl

/-- An event raised later is raised since an earlier state with the same arbiter. -/
theorem State.raises_of_later {s u t : State} {code source : Nat} {pay : List Byte} (hacc : u.evt.accepting = s.evt.accepting)
    (hraised : s.evt.raised <+: u.evt.raised) (h : u.raises t code source pay) : s.raises t code source pay := by
  intro hs
  have hle : s.evt.raised.length ≤ u.evt.raised.length := hraised.length_le
  exact (List.drop_sublist_drop_left t.evt.raised hle).subset (h (hacc.trans hs))

/-- An overrun's displaced access, its count and its event. -/
theorem execCrossingOverrun_bad {s : State} {second : Bool} (cd : Fin 8) (w : Victim) (h : s.ratioBad (if second then 2 else 1) = true) :
    exec (.crossingOverrun second cd w) s = .next
      ((((s.overrun w).incSat A.clkXovr F.clkXovr.COUNT 1).setFld A.clkXovr F.clkXovr.LAST (if second then 2 else 1)).raise 0x70
        (evSource 6 0) [BitVec.ofNat 8 (if second then 2 else 1), BitVec.ofNat 8 cd]) :=
  congrArg _ (if_neg (by rw [h]; decide))

/-! ### A crystal that fails (14 R400) -/

/-- The first failure of a crystal: its mark, the trim's new source, its PLLs. -/
def State.crystalLost (s : State) (xb : Bool) (f : Fld) : State := ((s.setFld A.clkStat f 1).retrim).relocked (pllsOf xb)

theorem execCrystalFailure_first {s : State} {xb : Bool} {f : Fld} (hf : f = if xb then F.clkStat.XB_FAIL else F.clkStat.XA_FAIL)
    (h : s.flag A.clkStat f = false) : exec (.crystalFailure xb) s = .next
      ((s.crystalLost xb f).raise 0x71 (evSource 6 0)
        [if xb then 2 else 1, BitVec.ofNat 8 ((s.crystalLost xb f).fld A.clkTrim F.clkTrim.SRC)]).health := by
  subst hf
  exact congrArg _ (if_neg (by rw [h]; decide))

theorem State.anyPortUp_congr {s t : State} (h : ∀ p < 36, t.rd (A.tmrPortStat p) = s.rd (A.tmrPortStat p)) :
    (List.range 36).any t.portUp = (List.range 36).any s.portUp := by
  rw [Bool.eq_iff_iff, List.any_eq_true, List.any_eq_true]
  refine exists_congr fun p => and_congr_right fun hp => ?_
  rw [State.portUp_of_rd (h p (List.mem_range.1 hp))]

/-- With XA gone the trim follows the first source left (14 R402). -/
theorem State.crystalLost_src (s : State) : (s.crystalLost false F.clkStat.XA_FAIL).fld A.clkTrim F.clkTrim.SRC =
    if (List.range 36).any s.portUp then 2 else if s.flag A.gtPps F.gtPps.SEEN then 3 else 0 := by
  set u := s.setFld A.clkStat F.clkStat.XA_FAIL 1
  have hlost : u.flag A.clkStat F.clkStat.XA_FAIL = true := by
    rw [State.flag, State.fld_setFld_same _ _ _ _ (by decide)]
    rfl
  have hany : (List.range 36).any u.portUp = (List.range 36).any s.portUp :=
    State.anyPortUp_congr fun p hp => State.rd_setFld_ne _ _ _ (by simp only [A.tmrPortStat, A.clkStat]; omega)
  have hseen : u.flag A.gtPps F.gtPps.SEEN = s.flag A.gtPps F.gtPps.SEEN :=
    congrArg (· != 0) (State.fld_setFld_ne _ _ _ _ (by decide))
  have hkept : (s.crystalLost false F.clkStat.XA_FAIL).rd A.clkTrim = u.retrim.rd A.clkTrim :=
    (State.relocked_kept _ _).1 _ (by decide)
  rw [State.fld_of_rd hkept, State.retrim_src, State.trimSource_lost hlost, hany, hseen]
  split_ifs <;> rfl

/-! ### The trim's error (14 R402) -/

theorem sext_toBits16 {v : Int} (hlow : -100 ≤ v) (hhigh : v ≤ 100) : sext 16 (toBits 16 v) = v := by
  unfold sext toBits
  extract_lets m
  have hm : (m : Int) = v % 65536 := by
    simp only [m]
    omega
  split_ifs with h <;> omega

end Sys2Proof.Machine

open Sys2Proof Sys2Proof.Machine

/-- Settles O43: each command of the clocks by its condition. -/
theorem clocks : Obligations.Clocks := by
  unfold Obligations.Clocks
  rintro xb second v cd b c rd who s f fab mem x hf rfl rfl rfl
  refine ⟨fun h => ?failed, fun h => ⟨_, execCrystalFailure_first hf h, ?fails⟩, fun h => ?settled, fun hsrc hset => ⟨_, rfl, ?settles⟩,
    fun h => ⟨fun hfab hmem => ?kept, fun hnew => ⟨_, rfl, ?starts⟩, ?noChange⟩,
    fun h => ⟨⟨_, rfl, ?waits⟩, fun hheld hwait => ⟨fun hnext => ⟨_, execFreqChangeComplete_idle h hheld hwait, ?completes⟩,
      fun hnext => ⟨_, execFreqChangeComplete_idle h hheld hwait, ?applies⟩⟩⟩,
    fun h w => ?within, fun h w hw => ⟨_, execCrossingOverrun_bad cd w h, ?overrun⟩, ⟨_, rfl, ?latch⟩⟩
  case failed => exact congrArg _ (if_pos (hf ▸ h))
  case fails =>
    have hok : f.ok ∧ f.width = 1 ∧ (f.hi < F.clkStat.LOCK.lo ∨ F.clkStat.LOCK.hi < f.lo) := by
      rw [hf]
      cases xb <;> decide
    obtain ⟨hfok, hfwidth, hfapart⟩ := hok
    obtain ⟨-, hfld, hmem, hevt⟩ := State.relocked_kept (pllsOf xb) (s.setFld A.clkStat f 1).retrim
    set w := s.crystalLost xb f
    have hmark : w.fld A.clkStat f = (s.setFld A.clkStat f 1).retrim.fld A.clkStat f := hfld f hfok hfapart
    have hwmem : w.mem = (s.setFld A.clkStat f 1).retrim.mem := hmem
    set pay := [if xb then (2 : Byte) else 1, BitVec.ofNat 8 (w.fld A.clkTrim F.clkTrim.SRC)]
    have hhealth := (w.raise 0x71 (evSource 6 0) pay).health_kept (P := (· ∉ healthRegs)) fun a ha hn => hn ha
    have hend : ∀ a, a ∉ healthRegs → (w.raise 0x71 (evSource 6 0) pay).health.rd a = w.rd a := fun a ha =>
      (hhealth.rd a ha).trans (State.raise_rd ..)
    have hstat := hend A.clkStat (by decide)
    have hsrc : (w.raise 0x71 (evSource 6 0) pay).health.fld A.clkTrim F.clkTrim.SRC = w.fld A.clkTrim F.clkTrim.SRC :=
      State.fld_of_rd (hend _ (by decide)) _
    refine ⟨?_, ?_, fun n hn => ?_, fun hxb => ?_, ?_⟩
    · rw [State.flag, State.fld_of_rd hstat, hmark, State.fld_of_rd (State.retrim_rd _ (by decide)),
        State.fld_setFld_same _ _ _ _ hfok, hfwidth]
      rfl
    · rw [(State.health_same (msk := 2 ^ Part.mem.idx) rfl _ (.refl _)).same .mem rfl, State.raise_mem, hwmem, State.retrim_mem]
      rfl
    · rw [State.fldBit_of_rd hstat]
      exact (State.relocked_lock _ _ (pllsOf_lt xb n hn)).trans (if_pos hn)
    · subst hxb hf
      exact hsrc.trans s.crystalLost_src
    · rw [hsrc]
      exact hhealth.raises (hevt.trans ((State.retrim_same (msk := 2 ^ Part.evt.idx) rfl _ (.refl _)).same .evt rfl))
  case settled => exact congrArg _ (if_pos (by obtain h | h := h <;> simp [h]))
  case settles =>
    rw [if_neg (by simp [hsrc, hset])]
    obtain ⟨e, u, hdraw, he, hu⟩ : ∃ e u, s.draw 200 = (e, u) ∧ e ≤ 200 ∧ u.rd A.clkTrim = s.rd A.clkTrim :=
      ⟨_, _, rfl, Nat.lt_succ_iff.1 (Nat.mod_lt _ (by decide)), rfl⟩
    rw [hdraw]
    dsimp only
    have herr : ((u.setFld A.clkTrim F.clkTrim.ERR (toBits 16 ((e : Int) - 100))).setFld A.clkTrim F.clkTrim.SETTLED 1).fld
        A.clkTrim F.clkTrim.ERR = toBits 16 ((e : Int) - 100) := by
      rw [State.fld_setFld_field _ _ _ _ _ (by decide) (by decide) (by decide), State.fld_setFld_same _ _ _ _ (by decide)]
      refine Nat.mod_eq_of_lt ?_
      unfold toBits
      simp only [F.clkTrim.ERR, Fld.width]
      omega
    rw [herr, sext_toBits16 (by omega) (by omega)]
    refine ⟨?_, by omega, by omega, ?_⟩
    · rw [State.flag, State.fld_setFld_same _ _ _ _ (by decide)]
      rfl
    · rw [State.fld_setFld_field _ _ _ _ _ (by decide) (by decide) (by decide),
        State.fld_setFld_field _ _ _ _ _ (by decide) (by decide) (by decide), State.fld_of_rd hu]
  case kept => exact congrArg _ (State.freqWrite_kept h hfab hmem)
  case starts =>
    obtain ⟨hfab, hmem, -⟩ := State.freqWrite_shown v h
    obtain ⟨hfchg, hlock1, hlock2⟩ := State.freqWrite_changes h hnew
    exact ⟨hfab, hmem, hfchg, hlock1, hlock2, State.Same.onlyIn (State.freqWrite_same (by decide) _ _ (.refl s))⟩
  case noChange => exact congrArg _ (if_pos (by rw [h]; rfl))
  case waits =>
    rw [State.freqWrite_waits v h]
    exact ⟨rfl, State.Same.onlyIn (State.putClk_same (by decide) _ _ (.refl s))⟩
  case completes =>
    rw [hnext]
    obtain ⟨hfchg, hfreq, hlock1, hlock2⟩ := s.freqEnded_shown
    exact ⟨hfchg, hfreq, rfl, hlock1, hlock2⟩
  case applies =>
    rw [hnext]
    obtain ⟨hfchg, hfreq, -⟩ := s.freqEnded_shown
    set u := s.freqEnded.putTmr { s.tmr with waitq := [] }
    obtain ⟨hfab, hmem, hkept⟩ := State.freqWrite_shown (s := u) v hfchg
    refine ⟨hkept, hfab, hmem.trans ?_⟩
    rw [State.memTaken, State.fld_of_rd (t := u) (s := s) hfreq]
  case within => exact congrArg _ (if_pos (by rw [h]; rfl))
  case overrun =>
    obtain ⟨hregs, hmem, hacc, hraised, hload, haccess⟩ := State.overrun_kept hw
    set x := if second then 2 else 1
    have hx : x < 4 := by
      unfold x
      split <;> decide
    set u := ((s.overrun w).incSat A.clkXovr F.clkXovr.COUNT 1).setFld A.clkXovr F.clkXovr.LAST x
    set pay := [BitVec.ofNat 8 x, BitVec.ofNat 8 cd]
    have hsame := State.raise_same (msk := 2 ^ Part.lost.idx) (by decide) u 0x70 (evSource 6 0) pay (.refl u)
    refine ⟨?_, (State.raise_mem ..).trans hmem, ?_, fun hl r => ?_, fun q a hq => (hsame.same .lost (by decide)).trans (haccess q a hq),
      State.raises_of_later hacc hraised (State.raises_of_raise (u := u) rfl List.prefix_rfl)⟩
    · rw [State.fld_of_rd (State.raise_rd ..), State.fld_setFld_same _ _ _ _ (by decide)]
      exact Nat.mod_eq_of_lt hx
    · rw [State.fld_of_rd (State.raise_rd ..), State.fld_setFld_field _ _ _ _ _ (by decide) (by decide) (by decide),
        State.incSat, State.fld_setFld_same _ _ _ _ (by decide), State.fld_of_rd (State.rd_of_regs hregs _)]
      exact Nat.mod_eq_of_lt (Nat.lt_of_le_of_lt (Nat.min_le_right ..) (by decide))
    · rw [← hload hl r, State.s, State.ctx_of_benches (State.raise_benches ..)]
      rfl
  case latch =>
    refine ⟨?_, State.Same.onlyIn (State.putGt_same (by decide) _ _ (.refl s))⟩
    set u := (s.regRead64 who A.gtNowLo).1
    have hvisible : u.slotHidden A.gtNowHi = false := by
      simp [State.slotHidden, slotBase, A.gtNowHi]
    have hread : u.regRead64 who A.gtNowHi = (u, BitVec.ofNat 64 (FMap.getD u.gt.latch who 0)) :=
      (if_neg (by decide)).trans ((if_neg (by rw [hvisible]; decide)).trans (if_pos rfl))
    rw [hread]
    exact congrArg (fun o : Option Nat => BitVec.ofNat 64 (o.getD 0)) (FMap.get?_set_same ..)
end

section
/-!
PROOF. TimeMessages (14 R411 to R413, R416): the best master decided afresh, the exchange of a slave port, and the timers.
-/
namespace Sys2Proof.Machine

/-! ### PTP ports -/

theorem State.ptp_setPtp (s : State) (p : Nat) (x : PtpPort) : (s.setPtp p x).ptp p = x :=
  congrArg (Option.getD · _) (FMap.get?_set_same ..)

theorem State.ptpSend_out (s : State) (p seq : Nat) (b : PtpBody) : (s.ptpSend p seq b).out =
    s.out ++ [Msg.ptp p ⟨s.fld A.gtPtp F.gtPtp.DOMAIN, ⟨s.ptpId, p + 1⟩, seq, b⟩] := rfl

theorem State.setPtp_onlyGt (s : State) (p : Nat) (x : PtpPort) : s.onlyIn [.gt] (s.setPtp p x) :=
  State.Same.onlyIn (State.setPtp_same (by decide) _ _ _ (.refl s))

theorem State.ptpSend_onlyOut (s : State) (p seq : Nat) (b : PtpBody) : s.onlyIn [.out] (s.ptpSend p seq b) :=
  State.Same.onlyIn (State.send_same (by decide) _ _ (.refl s))

/-! ### The best master decided afresh (14 R411) -/

theorem State.ptpOn_congr {s t : State} (h : ∀ a, a ≠ A.gtStat → t.rd a = s.rd a) (p : Nat) : t.ptpOn p = s.ptpOn p := by
  have hport : A.tmrPortStat p ≠ A.gtStat := by
    simp only [A.tmrPortStat, A.gtStat]
    omega
  simp only [State.ptpOn, State.flag, State.fld_of_rd (h A.gtPtp (by decide)), State.portUp_of_rd (h _ hport)]

/-- The slave port depends on the masters heard and on the registers other than `GT_STAT`. -/
theorem State.slavePort_congr {s t : State} (hmasters : t.gt.masters = s.gt.masters) (h : ∀ a, a ≠ A.gtStat → t.rd a = s.rd a) :
    t.slavePort = s.slavePort := by
  have hon : t.ptpOn = s.ptpOn := funext fun p => State.ptpOn_congr h p
  have hid : t.ptpId = s.ptpId := State.fld_of_rd (h A.gtPtpId (by decide)) _
  have hgm : t.ownGm = s.ownGm := by
    simp only [State.ownGm, hid, State.fld_of_rd (h A.gtPtp (by decide))]
  have hbest : t.bestMaster = s.bestMaster := by
    simp only [State.bestMaster, hmasters, hon]
  have hself : t.selfMaster = s.selfMaster := by
    simp only [State.selfMaster, hgm, hid]
  rw [State.slavePort, hbest, hgm, hself, State.slavePort]

/-- Once the best master is decided the slave port is the one it gives; masters and time stay. -/
theorem State.bmca_decided (s : State) : s.bmca.gt.masters = s.gt.masters ∧ s.bmca.gt.now = s.gt.now ∧
    s.bmca.gt.slave = s.bmca.slavePort := by
  have hrd : ∀ a, a ≠ A.gtStat → s.bmca.rd a = s.rd a := (s.bmca_kept (P := (· ≠ A.gtStat)) fun h => h rfl).rd
  suffices h : s.bmca.gt.masters = s.gt.masters ∧ s.bmca.gt.now = s.gt.now ∧ s.bmca.gt.slave = s.slavePort by
    obtain ⟨hmasters, hnow, hslave⟩ := h
    exact ⟨hmasters, hnow, hslave.trans (State.slavePort_congr hmasters hrd).symm⟩
  unfold State.bmca
  extract_lets new gt s1 s2
  split
  · rename_i hnew
    exact ⟨rfl, rfl, hnew.symm⟩
  · have h2 : s2.gt.masters = s.gt.masters ∧ s2.gt.now = s.gt.now ∧ s2.gt.slave = s.slavePort := ⟨rfl, rfl, rfl⟩
    clear_value s2
    cases new <;> exact h2

theorem FMap.get?_del_same {α : Type} (m : FMap α) (k : Nat) : FMap.get? (FMap.del m k) k = none := by
  induction m with
  | nil => rfl
  | cons p m ih =>
    unfold FMap.del
    rw [List.filter_cons]
    split
    · rename_i hp
      have hk : k ≠ p.1 := fun h => by simp [h] at hp
      exact (if_neg hk).trans ih
    · exact ih

/-! ### Messages from the master (14 R411) -/

theorem State.takes_of_parent {s : State} {p : Nat} {m : PtpMsg} (h : s.fromParent p m = true) : s.ptpTakes p m = true := by
  unfold State.fromParent at h
  simp only [Bool.and_eq_true] at h
  exact h.1.1

theorem State.notParent {s : State} {p : Nat} {m : PtpMsg} (h : s.ptpTakes p m = false) : s.fromParent p m = false := by
  rw [State.fromParent, h, Bool.false_and, Bool.false_and]

theorem State.notMaster {s : State} {p : Nat} (h : s.ptpOn p = false) : s.ptpMaster p = false := by
  rw [State.ptpMaster, h, Bool.false_and, Bool.false_and]

/-- A first measurement beyond the step threshold steps global time (14 R416). -/
theorem State.measure_steps {s : State} {off : Int} (hever : s.flag A.gtStat F.gtStat.EVER = false) (hoff : s.stepTh < off.natAbs) :
    (s.measure off).gt.now = ((s.gt.now : Int) - off * 2 ^ 24).toNat ∧ (s.measure off).gt.corr = 0 := by
  have hstep : ∃ st, s.measure off = (s.heard.gtStep ((s.heard.gt.now : Int) - off * 2 ^ 24).toNat).gtShow st :=
    ⟨_, if_pos (by
      have hever' : s.heard.flag A.gtStat F.gtStat.EVER = false := hever
      have hth : s.heard.stepTh < off.natAbs := hoff
      show (!s.heard.flag A.gtStat F.gtStat.EVER && decide ((off.natAbs : Int) > s.heard.stepTh)) = true
      rw [hever', decide_eq_true hth]
      rfl)⟩
  obtain ⟨st, hst⟩ := hstep
  rw [hst, State.gtShow_gt]
  exact ⟨rfl, rfl⟩

/-! ### The commands by their messages -/

section
variable {s : State} {p : PortNo} {m : PtpMsg}

theorem execAnnounce_taken {gm : Gm} {n : Nat} (hbody : m.body = .announce gm n) (htake : s.ptpTakes p m = true)
    (hown : m.sender.clock ≠ s.ptpId) (hn : n < 255)
    (hmaster : FMap.get? s.gt.masters p = none ∨ (FMap.get? s.gt.masters p).map (·.sender) = some m.sender) :
    exec (.announce p m) s = .next
      (s.putGt { s.gt with masters := FMap.set s.gt.masters p ⟨gm, n, m.sender, s.pulse⟩ }).bmca := by
  show execAnnounce p m s = _
  unfold execAnnounce
  have hgo : ¬ (!s.ptpTakes p m || m.sender.clock == s.ptpId || decide (n ≥ 255)) = true := by
    simp [htake, hown, hn]
  simp only [hbody]
  refine congrArg _ ((if_neg hgo).trans (congrArg State.bmca (if_pos ?_)))
  rcases hold : FMap.get? s.gt.masters p with _ | old
  · rfl
  · rw [hold] at hmaster
    obtain h | h := hmaster
    · cases h
    · have hsender : old.sender = m.sender := Option.some.inj h
      simp [hsender]

theorem execSync_parent (ph : Fin 80) {two : Bool} {o : Nat} {k : Int} (hbody : m.body = .sync two o k) (h : s.fromParent p m = true) :
    exec (.sync ⟨p, ph⟩ m) s = .next (s.setPtp p { s.ptp p with
      t2 := some (m.seq, s.rxStamp p ph - k), t1 := if two then none else some ((o : Int) * 65536) }) := by
  show execSync ⟨p, ph⟩ m s = _
  unfold execSync
  simp only [hbody]
  exact congrArg _ (if_neg (by rw [h]; decide))

theorem execFollowUp_parent {o : Nat} {k : Int} {r : Int} (hbody : m.body = .followUp o k) (h : s.fromParent p m = true)
    (ht2 : (s.ptp p).t2 = some (m.seq, r)) :
    exec (.followUp p m) s = .next (s.setPtp p { s.ptp p with t1 := some ((o : Int) * 65536 + k) }) := by
  show execFollowUp p m s = _
  unfold execFollowUp
  simp only [hbody]
  exact congrArg _ (if_pos (by rw [h, ht2]; simp))

theorem execDelayReq_taken (ph : Fin 80) {k : Int} (hbody : m.body = .delayReq k) (htake : s.ptpTakes p m = true) :
    exec (.delayReq ⟨p, ph⟩ m) s = .next (if s.ptpMaster p then
      s.ptpSend p m.seq (.delayResp (s.rxStamp p ph / 65536).toNat (k - s.rxStamp p ph % 65536) m.sender) else s) := by
  show execDelayReq ⟨p, ph⟩ m s = _
  unfold execDelayReq
  simp only [hbody, htake, Bool.true_and]

/-- What a completed exchange does with the offset it measures, by the source of the phase (14 R413). -/
def State.offsetMeasured (s : State) (off : Int) : State :=
  if s.fld A.gtCfg F.gtCfg.SRC = 0 then s.measure off
  else if s.fld A.gtCfg F.gtCfg.SRC = 1 then s.putGt { s.gt with ptpOff := some off } else s

theorem execDelayResp_parent {o n : Nat} {k t1 t2 t3 : Int} (hbody : m.body = .delayResp o k ⟨s.ptpId, p + 1⟩)
    (h : s.fromParent p m = true) (h1 : (s.ptp p).t1 = some t1) (h2 : (s.ptp p).t2 = some (n, t2))
    (h3 : (s.ptp p).t3 = some (m.seq, t3)) : exec (.delayResp p m) s = .next
      ((s.setPtp p { s.ptp p with t3 := none }).offsetMeasured (((t2 - t1) - ((o : Int) * 65536 - k - t3)) / 2)) := by
  show execDelayResp p m s = _
  unfold execDelayResp
  simp only [hbody, h1, h2, h3]
  refine congrArg _ ((if_neg (by rw [h]; simp)).trans ?_)
  unfold State.offsetMeasured
  split
  · rename_i hsrc
    rw [if_pos hsrc]
  · rename_i hsrc
    rw [if_neg (by omega), if_pos hsrc]
  · rename_i h0 h1
    rw [if_neg h0, if_neg h1]

theorem execSignaling_taken {tlv : Bytes} (hbody : m.body = .signaling tlv) (htake : s.ptpTakes p m = true) :
    exec (.signaling p m) s = .next (s.setPtp p { s.ptp p with l1 := tlv }) := by
  show execSignaling p m s = _
  unfold execSignaling
  simp only [hbody]
  exact congrArg _ (if_pos htake)

theorem execAnnounceReceiptTimeout_heard {g : Master} (hg : FMap.get? s.gt.masters p = some g) :
    exec (.announceReceiptTimeout p) s = .next
      (if s.ptpOn p && decide (s.pulse < g.heardAt + 3 * s.annInterval) then s
       else (s.putGt { s.gt with masters := FMap.del s.gt.masters p }).bmca) := by
  show execAnnounceReceiptTimeout p s = _
  unfold execAnnounceReceiptTimeout
  simp only [hg]

/-! A timer that is due (14 R411). -/

theorem execPtpMessageTimer_announce {ph : Fin 80} (hm : s.ptpMaster p = true) (ht : (s.ptp p).annAt + s.annInterval ≤ s.pulse) :
    exec (.ptpMessageTimer ⟨p, ph⟩ 0) s = .next ((s.setPtp p { s.ptp p with
      annAt := s.pulse, annSeq := ((s.ptp p).annSeq + 1) % 65536 }).ptpSend p (s.ptp p).annSeq
        (.announce s.announced.1 s.announced.2)) :=
  congrArg _ (if_pos (by rw [hm, decide_eq_true ht]; rfl))

theorem execPtpMessageTimer_sync {ph : Fin 80} (hm : s.ptpMaster p = true) (ht : (s.ptp p).syncAt + s.syncInterval ≤ s.pulse) :
    exec (.ptpMessageTimer ⟨p, ph⟩ 1) s = .next (((s.setPtp p { s.ptp p with
      syncAt := s.pulse, syncSeq := ((s.ptp p).syncSeq + 1) % 65536 }).ptpSend p (s.ptp p).syncSeq (.sync true 0 0)).ptpSend p
        (s.ptp p).syncSeq (.followUp (s.txStamp p ph / 65536).toNat (s.txStamp p ph % 65536))) :=
  congrArg _ (if_pos (by rw [hm, decide_eq_true ht]; rfl))

theorem execPtpMessageTimer_dreq {ph : Fin 80} (hon : s.ptpOn p = true) (hslave : s.gt.slave = some p.val)
    (ht : (s.ptp p).dreqAt + s.dreqInterval ≤ s.pulse) :
    exec (.ptpMessageTimer ⟨p, ph⟩ 2) s = .next ((s.setPtp p { s.ptp p with
      dreqAt := s.pulse, dreqSeq := ((s.ptp p).dreqSeq + 1) % 65536,
      t3 := some ((s.ptp p).dreqSeq, s.txStamp p ph) }).ptpSend p (s.ptp p).dreqSeq (.delayReq 0)) :=
  congrArg _ (if_pos (by rw [hon, hslave, decide_eq_true ht]; simp))

theorem execPtpMessageTimer_l1 {ph : Fin 80} (hon : s.ptpOn p = true) :
    exec (.ptpMessageTimer ⟨p, ph⟩ 3) s = .next (s.ptpSend p 0 (.signaling (Config.l1Sync p))) :=
  congrArg _ (if_pos hon)

end

end Sys2Proof.Machine

open Sys2Proof Sys2Proof.Machine

/-- Settles O45: each message by whether it is taken and from whom, each timer by whether it is due. -/
theorem timeMessages : Obligations.TimeMessages := by
  unfold Obligations.TimeMessages
  rintro p ph m s x rfl
  refine ⟨fun h c hc => ?untaken, fun gm n hbody htake hown hsteps hmaster =>
      ⟨_, execAnnounce_taken hbody htake hown hsteps hmaster, ?announced⟩,
    fun h => ⟨fun two o k hbody => ⟨_, execSync_parent ph hbody h, State.ptp_setPtp .., State.setPtp_onlyGt ..⟩,
      fun o k r hbody ht2 => ⟨_, execFollowUp_parent hbody h ht2, State.ptp_setPtp .., State.setPtp_onlyGt ..⟩,
      fun o k n t1 t2 t3 hbody h1 h2 h3 off hoff => ⟨_, execDelayResp_parent hbody h h1 h2 h3, ?measured⟩⟩,
    fun htake => ⟨fun k r hbody hr => ⟨fun hm => ⟨_, execDelayReq_taken ph hbody htake, ?answer⟩, fun hm => ?slave⟩,
      fun tlv hbody => ⟨_, execSignaling_taken hbody htake, State.ptp_setPtp .., State.setPtp_onlyGt ..⟩⟩,
    ?timers, fun h => ?unheard, fun g hg => ⟨fun hon ht => ?heard, fun h => ⟨_, execAnnounceReceiptTimeout_heard hg, ?forgotten⟩⟩⟩
  case untaken =>
    have hparent := State.notParent h
    simp only [List.mem_cons, List.not_mem_nil, or_false] at hc
    obtain rfl | rfl | rfl | rfl | rfl | rfl := hc
    · show execAnnounce p m s = _
      unfold execAnnounce
      cases m.body <;> simp [h]
    · show execSync ⟨p, ph⟩ m s = _
      unfold execSync
      cases m.body <;> simp [hparent]
    · show execFollowUp p m s = _
      unfold execFollowUp
      cases m.body <;> simp [hparent]
    · show execDelayReq ⟨p, ph⟩ m s = _
      unfold execDelayReq
      cases m.body <;> simp [h]
    · show execDelayResp p m s = _
      unfold execDelayResp
      cases m.body with
      | delayResp r k q =>
        dsimp only
        split
        · exact congrArg _ (if_pos (by simp [hparent]))
        · rfl
      | _ => rfl
    · show execSignaling p m s = _
      unfold execSignaling
      cases m.body <;> simp [h]
  case announced =>
    obtain ⟨hmasters, hnow, hslave⟩ := State.bmca_decided
      (s.putGt { s.gt with masters := FMap.set s.gt.masters p ⟨gm, n, m.sender, s.pulse⟩ })
    refine ⟨?_, hslave, hnow.trans rfl⟩
    rw [hmasters]
    exact FMap.get?_set_same ..
  case measured =>
    subst hoff
    set off := ((t2 - t1) - ((o : Int) * 65536 - k - t3)) / 2
    set u := s.setPtp p { s.ptp p with t3 := none }
    have ht3 : ∀ t : State, t.gt.ports = u.gt.ports → (t.ptp p).t3 = none := fun t h => by
      rw [State.ptp, h, ← State.ptp, State.ptp_setPtp]
    have hsrc : u.fld A.gtCfg F.gtCfg.SRC = s.fld A.gtCfg F.gtCfg.SRC := rfl
    unfold State.offsetMeasured
    rw [hsrc]
    by_cases h0 : s.fld A.gtCfg F.gtCfg.SRC = 0
    · rw [if_pos h0]
      have hkept := u.measure_measured off
      refine ⟨ht3 _ hkept.ports, fun _ => ⟨hkept.heardAt.trans rfl, fun hever hth => ?_⟩, fun h1 => by omega⟩
      exact State.measure_steps (s := u) hever hth
    · rw [if_neg h0]
      by_cases h1 : s.fld A.gtCfg F.gtCfg.SRC = 1
      · rw [if_pos h1]
        exact ⟨ht3 _ rfl, fun h => absurd h h0, fun _ => ⟨rfl, rfl⟩⟩
      · rw [if_neg h1]
        exact ⟨ht3 _ rfl, fun h => absurd h h0, fun h => absurd h h1⟩
  case answer =>
    rw [if_pos hm, hr]
    exact ⟨State.ptpSend_onlyOut .., rfl⟩
  case slave => rw [execDelayReq_taken ph hbody htake, if_neg (by rw [hm]; decide)]
  case timers =>
    rintro me r rfl rfl
    refine ⟨fun hm ht => ?announce, fun hm ht => ?sync, fun hon hslave ht => ?dreq, fun hon => ?l1,
      fun hoff k => ?off, fun ht => ?annEarly, fun ht => ?syncEarly, fun ht => ?dreqEarly⟩
    case announce =>
      have hsent := execPtpMessageTimer_announce (ph := ph) hm ht
      exact ⟨_, hsent, rfl, State.ptp_setPtp ..⟩
    case sync =>
      refine ⟨_, execPtpMessageTimer_sync (ph := ph) hm ht, ?_⟩
      rw [State.ptpSend_out, State.ptpSend_out, List.append_assoc]
      rfl
    case dreq => exact ⟨_, execPtpMessageTimer_dreq (ph := ph) hon hslave ht, rfl, congrArg PtpPort.t3 (State.ptp_setPtp ..)⟩
    case l1 => exact ⟨_, execPtpMessageTimer_l1 (ph := ph) hon, State.ptpSend_onlyOut .., rfl⟩
    case off =>
      have hnot := State.notMaster hoff
      match k with
      | 0 => exact congrArg _ (if_neg (by simp [hnot]))
      | 1 => exact congrArg _ (if_neg (by simp [hnot]))
      | 2 => exact congrArg _ (if_neg (by simp [hoff]))
      | 3 => exact congrArg _ (if_neg (by simp [hoff]))
    case annEarly => exact congrArg _ (if_neg (by simp [ht]))
    case syncEarly => exact congrArg _ (if_neg (by simp [ht]))
    case dreqEarly => exact congrArg _ (if_neg (by simp [ht]))
  case unheard =>
    show execAnnounceReceiptTimeout p s = _
    unfold execAnnounceReceiptTimeout
    simp only [h]
  case heard => rw [execAnnounceReceiptTimeout_heard hg, if_pos (by rw [hon, decide_eq_true ht]; rfl)]
  case forgotten =>
    rw [if_neg (by obtain h | h := h <;> simp [h])]
    obtain ⟨hmasters, -, hslave⟩ := State.bmca_decided (s.putGt { s.gt with masters := FMap.del s.gt.masters p })
    refine ⟨?_, hslave⟩
    rw [hmasters]
    exact FMap.get?_del_same ..
end

section
/-!
PROOF. TallboyUpkeep (09 R267, R274 to R278, R284, R286): what reads of codewords leave of the stacks, and each command of a
stack.
-/
namespace Sys2Proof.Machine

section
variable {msk : Nat} {was : State}

theorem State.showSpared_same (hfree : msk &&& 1 = 0) (s t) (hs : was.Same msk s) : was.Same msk (s.showSpared t) := by
  unfold State.showSpared
  conv => zeta
  with_reducible repeat' first | assumption | exact free_mono hfree rfl | apply State.setFld_same

theorem State.remapCheck_same (hfree : msk &&& 1153 = 0) (s t cw layer pc) (hs : was.Same msk s) :
    was.Same msk (s.remapCheck t cw layer pc) := by
  unfold State.remapCheck
  conv => zeta
  with_reducible repeat' first
    | assumption | exact free_mono hfree rfl | apply State.setFld_same | apply State.modStack_same | apply State.reserveCheck_same
    | apply State.tbyEvent_same | split

theorem State.copyReads_same (hfree : msk &&& 1140851845 = 0) (s t cw) (at') (hs : was.Same msk s) :
    was.Same msk (s.copyReads t cw at') := by
  unfold State.copyReads
  conv => zeta
  with_reducible repeat' first
    | assumption | exact free_mono hfree rfl | apply State.cwRead_same | refine foldl_same _ _ _ (fun _ _ _ => ?_) ?_

end

/-! ### Stacks -/

theorem State.stack_modStack_same (s : State) (t : Nat) (f : Tby → Tby) : (s.modStack t f).stack t = f (s.stack t) :=
  congrArg (Option.getD · _) (FMap.get?_set_same ..)

theorem State.stack_modStack_ne (s : State) {t j : Nat} (f : Tby → Tby) (h : j ≠ t) : (s.modStack t f).stack j = s.stack j :=
  congrArg (Option.getD · _) (FMap.get?_set_ne _ _ h)

theorem State.stack_modStack (s : State) (t : Nat) (f : Tby → Tby) (j : Nat) :
    (s.modStack t f).stack j = if j = t then f (s.stack t) else s.stack j := by
  by_cases h : j = t
  · rw [if_pos h, h, State.stack_modStack_same]
  · rw [if_neg h, State.stack_modStack_ne _ _ h]

theorem State.stack_of_tby {s t : State} (h : t.tby = s.tby) (j : Nat) : t.stack j = s.stack j :=
  congrArg (fun m => (FMap.get? m j).getD _) h

theorem State.raise_tby (s : State) (code source : Nat) (pay : List Byte) : (s.raise code source pay).tby = s.tby :=
  (State.raise_same (msk := 2 ^ Part.tby.idx) rfl s code source pay (.refl s)).same .tby rfl

theorem State.raise_accepting (s : State) (code source : Nat) (pay : List Byte) :
    (s.raise code source pay).evt.accepting = s.evt.accepting := by
  unfold State.raise
  split <;> rfl

/-- What a part `g` of every stack is, and the events raised, from one state to a later one. -/
structure State.StackKept {α : Type} (g : Nat → Tby → α) (s t : State) : Prop where
  part : ∀ j, g j (t.stack j) = g j (s.stack j)
  accepting : t.evt.accepting = s.evt.accepting
  raised : s.evt.raised <+: t.evt.raised

section
variable {α : Type} {g : Nat → Tby → α} {s t u : State}

theorem State.StackKept.refl (s : State) : s.StackKept g s := ⟨fun _ => rfl, rfl, List.prefix_rfl⟩

theorem State.StackKept.trans (h : s.StackKept g t) (k : t.StackKept g u) : s.StackKept g u :=
  ⟨fun j => (k.part j).trans (h.part j), k.accepting.trans h.accepting, h.raised.trans k.raised⟩

theorem State.StackKept.of_same (h : s.StackKept g t) (htby : u.tby = t.tby) (hevt : u.evt = t.evt) : s.StackKept g u :=
  ⟨fun j => (congrArg (g j) (State.stack_of_tby htby j)).trans (h.part j), hevt ▸ h.accepting, hevt ▸ h.raised⟩

theorem State.StackKept.raise (h : s.StackKept g t) (code source : Nat) (pay : List Byte) :
    s.StackKept g (t.raise code source pay) :=
  ⟨fun j => (congrArg (g j) (State.stack_of_tby (t.raise_tby ..) j)).trans (h.part j), (t.raise_accepting ..).trans h.accepting,
    h.raised.trans (t.raised_prefix_raise ..)⟩

theorem State.StackKept.modStack (h : s.StackKept g t) {k : Nat} {f : Tby → Tby} (hf : g k (f (t.stack k)) = g k (t.stack k)) :
    s.StackKept g (t.modStack k f) := by
  refine ⟨fun j => ?_, h.accepting, h.raised⟩
  by_cases hj : j = k
  · rw [hj, State.stack_modStack_same, hf, h.part]
  · rw [State.stack_modStack_ne _ _ hj, h.part]

end

/-! ### What reads of codewords leave of the stacks -/

section
variable {α : Type} {g : Nat → Tby → α}

theorem State.ueFound_kept (s : State) (cw cls : Nat) (ae : Bool) : s.StackKept g (s.ueFound cw cls ae) := by
  unfold State.ueFound
  extract_lets k s1 s2 kind a1 a2 a3 a4 a5 s3
  have h2 : s2.tby = s.tby ∧ s2.evt = s.evt := by
    unfold s2
    split <;> exact ⟨rfl, rfl⟩
  have h3 : s3.tby = s.tby ∧ s3.evt = s.evt := by
    unfold s3
    split
    · exact h2
    · exact h2
  exact ((State.StackKept.refl s).of_same h3.1 h3.2).raise ..

theorem State.reserveCheck_kept (s : State) (t layer pc cls : Nat)
    (hreserve : ∀ x b, g t { x with noReserve := b } = g t x) : s.StackKept g (s.reserveCheck t layer pc cls) := by
  unfold State.reserveCheck
  extract_lets x
  split
  · exact .refl s
  · exact ((State.StackKept.refl s).modStack (hreserve _ _)).raise ..

theorem State.reserveFor_kept (s : State) (t layer : Nat) : (s.reserveFor t layer).1.tby = s.tby ∧ (s.reserveFor t layer).1.evt = s.evt := by
  unfold State.reserveFor
  extract_lets x num
  split
  · exact ⟨rfl, rfl⟩
  · split <;> exact ⟨rfl, rfl⟩

/-- Whether a row of a stack is being copied. -/
def State.copies (s : State) (t : Nat) (p : Nat × Nat) : Bool := (s.stack t).copying.any (fun y => y.2.layer == p.1 && y.2.row == p.2)

/-- A row that is being copied is not copied again; another changes only what its stack copies and reserves. -/
theorem State.spareStart_kept (s : State) (cw cls : Nat) (hreserve : ∀ t x b, g t { x with noReserve := b } = g t x)
    (hcopy : s.copies (stackOf cw) (s.placeOf cw) = true ∨ ∀ x l, g (stackOf cw) { x with copying := l } = g (stackOf cw) x) :
    s.StackKept g (s.spareStart cw cls) := by
  unfold State.spareStart
  extract_lets t
  unfold State.copies at hcopy
  generalize s.placeOf cw = p at hcopy ⊢
  obtain ⟨l, r⟩ := p
  dsimp only at hcopy ⊢
  split
  · exact .refl s
  · rename_i hnot
    have hcopy' := hcopy.resolve_left hnot
    obtain ⟨htby, hevt⟩ := s.reserveFor_kept t l
    generalize s.reserveFor t l = q at htby hevt ⊢
    obtain ⟨u, new⟩ := q
    have hu : s.StackKept g u := (State.StackKept.refl s).of_same htby hevt
    rcases new with _ | ⟨nl, nr⟩
    · exact hu
    · exact (hu.modStack (hcopy' _ _)).trans (State.reserveCheck_kept _ _ _ _ _ (hreserve _))

/-- Where a stack's place of a codeword is as before, and a row that was being copied still is. -/
theorem State.StackKept.place {s u : State} (h : s.StackKept (fun _ x => x.spared) u) (cw : Nat) : u.placeOf cw = s.placeOf cw := by
  have hspared := h.part (stackOf cw)
  exact congrArg (fun l => List.foldl (fun p r => r.moves p) (basePlace cw) l) hspared

end

/-- The part of the stacks that a copy of a row of stack `k` needs: the records of every stack, and what `k` copies. -/
def copyPart (k j : Nat) (x : Tby) : List SpareRec × List (Nat × SpareRec) := (x.spared, if j = k then x.copying else [])

theorem State.StackKept.spared {k : Nat} {s u : State} (h : s.StackKept (copyPart k) u) : s.StackKept (fun _ x => x.spared) u :=
  ⟨fun j => congrArg Prod.fst (h.part j), h.accepting, h.raised⟩

theorem State.StackKept.copying {k : Nat} {s u : State} (h : s.StackKept (copyPart k) u) : (u.stack k).copying = (s.stack k).copying := by
  have hk := congrArg Prod.snd (h.part k)
  simpa only [copyPart, if_pos] using hk

theorem copyPart_noReserve (k t : Nat) (x : Tby) (b : Bool) : copyPart k t { x with noReserve := b } = copyPart k t x := rfl

/-- A codeword whose row stack `k` is already copying, where it is one of `k`. -/
def State.copiedIn (s : State) (k cw : Nat) : Prop := stackOf cw = k → s.copies k (s.placeOf cw) = true

theorem State.copiedIn.kept {s u : State} {k cw : Nat} (h : s.copiedIn k cw) (hu : s.StackKept (copyPart k) u) : u.copiedIn k cw := by
  intro hk
  have hcopies := h hk
  rwa [State.copies, hu.copying, hu.spared.place, ← State.copies]

theorem State.spareStart_copyPart (s : State) (k cw cls : Nat) (h : s.copiedIn k cw) : s.StackKept (copyPart k) (s.spareStart cw cls) := by
  refine s.spareStart_kept cw cls (fun t x b => copyPart_noReserve k t x b) ?_
  by_cases hk : stackOf cw = k
  · exact .inl (hk ▸ h hk)
  · refine .inr fun x l => ?_
    simp only [copyPart, if_neg hk]

theorem State.ceFound_copyPart (s : State) (k cw cls : Nat) (h : s.copiedIn k cw) : s.StackKept (copyPart k) (s.ceFound cw cls) := by
  unfold State.ceFound
  extract_lets t s1 x s2 n
  have h2 : s.StackKept (copyPart k) s2 := by
    have h1 : s.StackKept (copyPart k) s1 := (State.StackKept.refl s).of_same rfl rfl
    unfold s2
    split
    · exact h1
    · exact h1.modStack rfl
  split
  · exact h2.trans (s2.spareStart_copyPart k cw cls (h.kept h2))
  · exact h2

/-- The read of a codeword keeps the records of sparing, and what stack `k` copies where it copies the codeword's row. -/
theorem State.cwRead_copyPart (s : State) (k cw cls : Nat) (h : s.copiedIn k cw) : s.StackKept (copyPart k) (s.cwRead cw cls).1 := by
  have hspare : ∀ u : State, s.StackKept (copyPart k) u → s.StackKept (copyPart k) (u.spareStart cw cls) := fun u hu =>
    hu.trans (u.spareStart_copyPart k cw cls (h.kept hu))
  have hue : ∀ (u : State) ae, s.StackKept (copyPart k) u → s.StackKept (copyPart k) (u.ueFound cw cls ae) := fun u ae hu =>
    hu.trans (u.ueFound_kept cw cls ae)
  have hmod : ∀ (u : State) (f : Tby → Tby), (∀ x, (f x).spared = x.spared ∧ (f x).copying = x.copying) →
      s.StackKept (copyPart k) u → s.StackKept (copyPart k) (u.modStack (stackOf cw) f) := fun u f hf hu =>
    hu.modStack (by simp only [copyPart, (hf _).1, (hf _).2])
  unfold State.cwRead
  extract_lets t x s1
  have h1 : s.StackKept (copyPart k) s1 := by
    unfold s1
    split
    · exact hmod _ _ (fun _ => ⟨rfl, rfl⟩) (.refl s)
    · exact .refl s
  have hdraw : ∀ q : Nat × State, q = (if x.injCe then s1.draw (36 * 65535 - 1) else (0, s1)) → s.StackKept (copyPart k) q.2 := by
    rintro q rfl
    split
    · exact h1.of_same rfl rfl
    · exact h1
  generalize (if x.injCe then s1.draw (36 * 65535 - 1) else (0, s1)) = q at hdraw ⊢
  obtain ⟨n, u⟩ := q
  have hu : s.StackKept (copyPart k) u := hdraw _ rfl
  have hput : ∀ m, s.StackKept (copyPart k) ((u.putMem m).cwClean cw) := fun m =>
    hmod (u.putMem m) _ (fun _ => ⟨rfl, rfl⟩) (hu.of_same rfl rfl)
  have hce : ∀ m, s.StackKept (copyPart k) (((u.putMem m).cwClean cw).ceFound cw cls) := fun m =>
    (hput m).trans (State.ceFound_copyPart _ k cw cls (h.kept (hput m)))
  have hlast : ∀ (b : Bool) m, s.StackKept (copyPart k) (if b then u else (u.putMem m).cwClean cw) := fun b m => by
    cases b
    · exact hput m
    · exact hu
  dsimp only
  split
  · exact hue _ _ hu
  · split
    · exact hspare _ (hue _ _ (hmod _ _ (fun _ => ⟨rfl, rfl⟩) hu))
    · refine hspare _ (hue _ _ ?_)
      split
      · exact hmod _ _ (fun _ => ⟨rfl, rfl⟩) hu
      · exact hu
    · split
      · exact hspare _ (hue _ _ hu)
      · split
        · exact hce _
        · exact hlast _ _

/-- The codewords that a copy reads (09 R275, R276). -/
def State.copyList (s : State) (t cw : Nat) (at' : Nat × Nat → Bool) : List Nat :=
  (cw :: ((s.stack t).upsets.map (·.1) ++ (s.stack t).ue)).eraseDups.filter (fun cw => at' (s.placeOf cw))

theorem State.copyReads_eq (s : State) (t cw : Nat) (at' : Nat × Nat → Bool) :
    s.copyReads t cw at' = (s.copyList t cw at').foldl (fun s cw => (s.cwRead cw 6).1) s := rfl

theorem State.cwReads_copyPart (k : Nat) (l : List Nat) (s : State) (h : ∀ cw ∈ l, s.copiedIn k cw) :
    s.StackKept (copyPart k) (l.foldl (fun s cw => (s.cwRead cw 6).1) s) := by
  induction l generalizing s with
  | nil => exact .refl s
  | cons cw l ih =>
    have hread := s.cwRead_copyPart k cw 6 (h cw List.mem_cons_self)
    exact hread.trans (ih _ fun x hx => (h x (List.mem_cons_of_mem _ hx)).kept hread)

/-! ### Reads where nothing is upset -/

/-- No codeword of any stack holds an error, and none is to be injected. -/
def State.unharmed (s : State) : Prop := ∀ j, (s.stack j).upsets = [] ∧ (s.stack j).injCe = false

/-- The errors of the stacks and their injections of corrected ones. -/
def upsetPart (_ : Nat) (x : Tby) : FMap (List (Nat × Nat)) × Bool := (x.upsets, x.injCe)

theorem State.unharmed.kept {s u : State} (h : s.unharmed) (hu : s.StackKept upsetPart u) : u.unharmed := by
  intro j
  have hpart := hu.part j
  obtain ⟨hups, hinj⟩ := h j
  exact ⟨(congrArg Prod.fst hpart).trans hups, (congrArg Prod.snd hpart).trans hinj⟩

/-- The read of a codeword without an error, where no corrected one is to be injected (09 R271, R286). -/
theorem State.cwRead_clean {s : State} {cw : Nat} (hups : s.upsets cw = []) (hinj : (s.stack (stackOf cw)).injCe = false) (cls : Nat) :
    s.cwRead cw cls = if (s.stack (stackOf cw)).injUe then
      ((s.modStack (stackOf cw) (fun x => { x with injUe := false, injCe := false })).ueFound cw cls false, false)
    else if (s.stack (stackOf cw)).ue.contains cw then ((s.ueFound cw cls false).spareStart cw cls, false) else (s, true) := by
  have hgood : rsDecode [] = .good := by decide
  cases hue : (s.stack (stackOf cw)).injUe with
  | true => simp [State.cwRead, hinj, hue]
  | false => simp [State.cwRead, hinj, hue, hups, hgood]

/-- Where nothing is upset the read of a codeword writes nothing back. -/
theorem State.cwRead_unharmed {s : State} (h : s.unharmed) (cw cls : Nat) :
    (s.cwRead cw cls).1.mem = s.mem ∧ (s.cwRead cw cls).1.unharmed := by
  obtain ⟨hups, hinj⟩ := h (stackOf cw)
  have hnone : s.upsets cw = [] := by rw [State.upsets, hups]; rfl
  have hue : ∀ u : State, u.mem = s.mem → u.unharmed → (u.ueFound cw cls false).mem = s.mem ∧ (u.ueFound cw cls false).unharmed :=
    fun u hm hu => ⟨((State.ueFound_same (msk := 2 ^ Part.mem.idx) rfl u cw cls false (.refl u)).same .mem rfl).trans hm,
      hu.kept (u.ueFound_kept cw cls false)⟩
  rw [State.cwRead_clean hnone hinj]
  split
  · exact hue _ rfl (h.kept ((State.StackKept.refl s).modStack (congrArg (Prod.mk _) hinj.symm)))
  · split
    · obtain ⟨hmem, hquiet⟩ := hue s rfl h
      exact ⟨((State.spareStart_same (msk := 2 ^ Part.mem.idx) rfl _ cw cls (.refl _)).same .mem rfl).trans hmem,
        hquiet.kept (State.spareStart_kept _ cw cls (fun _ _ _ => rfl) (.inr fun _ _ => rfl))⟩
    · exact ⟨rfl, h⟩

theorem State.cwReads_unharmed (l : List Nat) (s : State) (h : s.unharmed) :
    (l.foldl (fun s cw => (s.cwRead cw 6).1) s).mem = s.mem := by
  induction l generalizing s with
  | nil => rfl
  | cons cw l ih =>
    obtain ⟨hmem, hquiet⟩ := State.cwRead_unharmed h cw 6
    exact (ih _ hquiet).trans hmem

/-! ### Codewords by their index (09 R268, R274) -/

theorem cwsOf_aligned {ia : Nat} (h : ia % 64 = 0) : cwsOf ia 64 = [ia] := by
  have hlines : (ia + 64 - 1) / 64 + 1 - ia / 64 = 1 := by omega
  have hrange : List.range 1 = [0] := rfl
  have hback : ia / 64 * 64 = ia := by omega
  rw [cwsOf, linesOf, if_neg (by decide), hlines, hrange]
  simp [hback]

theorem viewOf_aligned (t i : Nat) : viewOf t (i * 64) % 64 = 0 := by
  rw [viewOf, Nat.shiftLeft_eq]
  omega

theorem State.cwRead_ofSound {s : State} {t i : Nat} (h : s.soundAt (viewOf t (i * 64)) 64) (cls : Nat) :
    s.cwRead (viewOf t (i * 64)) cls = (s, true) := by
  obtain ⟨hups, hue, hinjUe, hinjCe⟩ := h _ (by rw [cwsOf_aligned (viewOf_aligned t i)]; exact List.mem_cons_self)
  exact State.cwRead_sound hups hue hinjUe hinjCe cls

/-! ### Initialisation (09 R267) -/

theorem Memory.byte_filter (m : Memory) (p : Nat → Bool) (x : Nat) :
    Memory.byte (m.filter fun c => p c.1) x = if p x then m.byte x else 0 := by
  induction m with
  | nil =>
    split <;> rfl
  | cons c m ih =>
    rw [List.filter_cons]
    by_cases hp : p c.1 = true
    · rw [if_pos hp]
      unfold Memory.byte
      by_cases hx : x = c.1
      · rw [if_pos hx, if_pos hx, hx, if_pos hp]
      · rw [if_neg hx, if_neg hx, ih]
    · rw [if_neg hp, ih]
      by_cases hx : x = c.1
      · rw [hx, if_neg hp, if_neg hp]
      · conv_rhs => rw [Memory.byte, if_neg hx]

/-! ### What a stack shows of its records (09 R275, R276, R286) -/

theorem State.showSpared_rows (s : State) (t : Nat) : (s.showSpared t).fld (A.tbyStat t) F.tbyStat.ROWS =
    min (2 ^ 32 - 1) (countTrue (fun r => !r.remap) (s.stack t).spared) := by
  unfold State.showSpared
  extract_lets x s1
  rw [State.fld_setFld_field _ _ _ _ _ (by decide) (by decide) (by decide), State.fld_setFld_same _ _ _ _ (by decide)]
  exact Nat.mod_eq_of_lt (Nat.lt_of_le_of_lt (Nat.min_le_left ..) (by decide))

theorem State.showSpared_remap (s : State) (t : Nat) : (s.showSpared t).fld (A.tbyStat t) F.tbyStat.REMAP =
    s.fld (A.tbyStat t) F.tbyStat.REMAP :=
  (State.fld_setFld_field _ _ _ _ _ (by decide) (by decide) (by decide)).trans
    (State.fld_setFld_field _ _ _ _ _ (by decide) (by decide) (by decide))

theorem State.showSpared_kept {α : Type} {g : Nat → Tby → α} (s : State) (t : Nat) : s.StackKept g (s.showSpared t) :=
  (State.StackKept.refl s).of_same rfl rfl

theorem State.reserveCheck_regs (s : State) (t layer pc cls : Nat) : (s.reserveCheck t layer pc cls).regs = s.regs :=
  (State.reserveCheck_same (msk := 2 ^ Part.regs.idx) rfl s t layer pc cls (.refl s)).same .regs rfl

/-- The check for a remap writes neither the number of spared rows nor the records. -/
theorem State.remapCheck_kept (s : State) (k t cw layer pc : Nat) : s.StackKept (copyPart k) (s.remapCheck t cw layer pc) ∧
    (s.remapCheck t cw layer pc).fld (A.tbyStat t) F.tbyStat.ROWS = s.fld (A.tbyStat t) F.tbyStat.ROWS := by
  unfold State.remapCheck
  extract_lets x n s1 s2 s3
  split
  · exact ⟨.refl s, rfl⟩
  · split
    · have h3 : s.StackKept (copyPart k) s3 := ((State.StackKept.refl s).of_same (u := s2) rfl rfl).modStack rfl
      refine ⟨(h3.raise ..).trans (State.reserveCheck_kept _ _ _ _ _ fun _ _ => rfl), ?_⟩
      rw [State.fld_of_rd (State.rd_of_regs (State.reserveCheck_regs ..) _), State.tbyEvent, State.fld_of_rd (State.raise_rd ..)]
      exact (State.fld_setFld_field _ _ _ _ _ (by decide) (by decide) (by decide)).trans
        (State.fld_setFld_field _ _ _ _ _ (by decide) (by decide) (by decide))
    · split
      · exact ⟨.refl s, rfl⟩
      · refine ⟨((State.StackKept.refl s).modStack rfl).raise .., ?_⟩
        rw [State.tbyEvent, State.fld_of_rd (State.raise_rd ..)]
        rfl

theorem State.health_stack (s : State) (j : Nat) : s.health.stack j = s.stack j :=
  State.stack_of_tby ((State.health_same (msk := 2 ^ Part.tby.idx) rfl s (.refl s)).same .tby rfl) j

theorem State.health_raised (s : State) : s.evt.raised <+: s.health.evt.raised :=
  (s.health_kept (P := fun _ => False) fun _ _ => id).raised

theorem State.health_rd (s : State) {a : Nat} (ha : a ∉ healthRegs) : s.health.rd a = s.rd a :=
  (s.health_kept (P := (· ∉ healthRegs)) fun _ hb hn => hn hb).rd a ha

theorem tbyStat_notHealth (k : Stack) : A.tbyStat k ∉ healthRegs := by
  simp only [healthRegs, List.mem_cons, List.not_mem_nil, or_false, A.tbyStat, A.evtAvailT, A.evtAvailU, A.evtHealth]
  omega

/-! ### A finished row copy (09 R275) -/

/-- The codewords of a finished copy are read. -/
def State.rowRead (s : State) (k cw : Nat) (r : SpareRec) : State := s.copyReads k cw (fun p => p == (r.layer, r.row))

/-- A finished copy's event and its record. -/
def State.rowSpared (s : State) (k cw : Nat) (r : SpareRec) : State :=
  let u := (s.rowRead k cw r).tbyEvent k cw 7 r.layer (r.row % 32) 6
  u.modStack k (fun x => { x with
    copying := x.copying.erase (cw, r)
    ceCw := x.ceCw.filter (fun c => u.placeOf c != (r.layer, r.row))
    spared := x.spared ++ [r] })

theorem execTbyRowSpareComplete_copied {s : State} {k : Stack} {cw : Nat} {r : SpareRec} {rest : List (Nat × SpareRec)}
    (h : (s.stack k).copying = (cw, r) :: rest) : exec (.tbyRowSpareComplete k) s =
      .next ((((s.rowSpared k cw r).showSpared k).remapCheck k cw r.layer (r.row % 32)).health) := by
  show execTbyRowSpareComplete k s = _
  unfold execTbyRowSpareComplete
  simp only [h]
  rfl

theorem State.rowRead_kept {s : State} {k cw : Nat} {r : SpareRec} (h : (cw, r) ∈ (s.stack k).copying) :
    s.StackKept (copyPart k) (s.rowRead k cw r) := by
  refine State.cwReads_copyPart k _ s fun x hx hk => ?_
  have hplace : s.placeOf x = (r.layer, r.row) := by simpa using (List.mem_filter.1 hx).2
  rw [hplace, State.copies, List.any_eq_true]
  exact ⟨(cw, r), h, by simp⟩

theorem State.rowSpared_shown {s : State} {k cw : Nat} {r : SpareRec} {rest : List (Nat × SpareRec)}
    (h : (s.stack k).copying = (cw, r) :: rest) : ((s.rowSpared k cw r).stack k).copying = rest ∧
    ((s.rowSpared k cw r).stack k).spared = (s.stack k).spared ++ [r] := by
  have hkept := State.rowRead_kept (s := s) (k := k) (cw := cw) (r := r) (h ▸ List.mem_cons_self)
  have hevent : ((s.rowRead k cw r).tbyEvent k cw 7 r.layer (r.row % 32) 6).stack k = (s.rowRead k cw r).stack k :=
    State.stack_of_tby (State.raise_tby ..) k
  unfold State.rowSpared
  extract_lets u
  rw [State.stack_modStack_same, hevent]
  refine ⟨?_, ?_⟩
  · show ((s.rowRead k cw r).stack k).copying.erase (cw, r) = rest
    rw [hkept.copying, h, List.erase_cons_head]
  · exact congrArg (· ++ [r]) (hkept.spared.part k)

/-! ### A finished remap (09 R276) -/

/-- A finished remap's record. -/
def State.layerRemapped (s : State) (k cw layer : Nat) : State :=
  ((s.copyReads k cw (fun p => p.1 == layer)).setFld (A.tbyStat k) F.tbyStat.REMAP 2).modStack k
    (fun x => { x with remapBy := none, spared := x.spared ++ [⟨layer, 0, true, 0, 0⟩] })

theorem execTbyRemapComplete_copied {s : State} {k : Stack} {layer cw pc : Nat} (h : (s.stack k).remapBy = some (layer, cw, pc)) :
    exec (.tbyRemapComplete k) s = .next
      (((((s.layerRemapped k cw layer).showSpared k).tbyEvent k cw 9 layer pc 6).reserveCheck k layer pc 6).health) := by
  show execTbyRemapComplete k s = _
  unfold execTbyRemapComplete
  simp only [h]
  rfl

/-! ### Initialisation and patrol scrub (09 R267, R274) -/

/-- A stack that its initialisation has zeroed. -/
def Tby.zeroed (now : Nat) (x : Tby) : Tby := { x with ue := [], upsets := [], scrubAt := now }

/-- A stack whose pass of scrub reads has ended. -/
def Tby.passEnded (x : Tby) : Tby := { x with scrub := 0, ceCw := [] }

/-- The state in which a stack is initialised. -/
def State.stackZeroed (s : State) (k : Nat) : State :=
  ((s.putMem (s.mem.filter (fun c => decide (viewSize ≤ c.1) || stackOf c.1 != k))).modStack k (Tby.zeroed s.scrubNow)).setFld (A.tbyStat k) F.tbyStat.INIT 1

theorem execTbyInitComplete_first {s : State} {k : Stack} (h : s.flag (A.tbyStat k) F.tbyStat.INIT = false) (hheld : s.tmr.held = []) :
    exec (.tbyInitComplete k) s = .next (s.stackZeroed k) :=
  congrArg _ ((if_neg (by rw [h]; decide)).trans (State.serveHeld_idle (s := s.stackZeroed k) hheld))

/-- A scrub read's time is noted. -/
def State.scrubNoted (s : State) (k : Nat) : State :=
  s.modStack k (fun x => { x with
    scrubAt := if s.scrubNow < (s.stack k).scrubAt + s.scrubStep k + s.scrubStep k then (s.stack k).scrubAt + s.scrubStep k
      else s.scrubNow })

theorem execTbyScrubRead_sound {s : State} {k : Stack} (hen : s.flag (A.tbyScrub k) F.tbyScrub.EN = true)
    (hready : s.tbyReady k = true) (hdue : (s.stack k).scrubAt + s.scrubStep k ≤ s.scrubNow)
    (hsound : s.soundAt (viewOf k ((s.stack k).scrub * 64)) 64) : exec (.tbyScrubRead k []) s = .next
      (if (s.stack k).scrub + 1 < stackCodewords then
        (s.scrubNoted k).modStack k (fun x => { x with scrub := (s.stack k).scrub + 1 })
       else ((s.scrubNoted k).modStack k Tby.passEnded).incWrap (A.tbyScrub k) F.tbyScrub.PASSES 1) := by
  show execTbyScrubRead k [] s = _
  unfold execTbyScrubRead
  extract_lets u due i
  have hu : u = s := rfl
  have hgo : ¬ (!u.flag (A.tbyScrub k) F.tbyScrub.EN || !u.tbyReady k || decide (u.scrubNow < due)) = true := by
    have hlate : decide (u.scrubNow < due) = false := decide_eq_false (Nat.not_lt.2 hdue)
    rw [hlate, hu, hen, hready]
    decide
  have hread : u.cwRead (viewOf k (i * 64)) 6 = (s, true) := State.cwRead_ofSound hsound 6
  rw [if_neg hgo, hread]
  rfl

end Sys2Proof.Machine

open Sys2Proof Sys2Proof.Machine

/-- Settles O38: each command of a stack by its condition, with what the reads of a copy leave of the stacks. -/
theorem tallboyUpkeep : Obligations.TallboyUpkeep := by
  unfold Obligations.TallboyUpkeep
  intro k v s
  have hregs : ∀ (a : Nat) (w : Word), s.regIs (s.wr a w) a w ∧ s.onlyIn [.regs] (s.wr a w) := fun a w =>
    ⟨fun x => by
      by_cases hx : x = a
      · rw [if_pos hx, hx, State.rd_wr_same]
      · rw [if_neg hx, State.rd_wr_ne _ _ hx], State.Same.onlyIn (State.wr_same (by decide) _ _ _ (.refl s))⟩
  have hstack : ∀ f : Tby → Tby, (∀ j, (s.modStack k f).stack j = if j = k.val then f (s.stack k) else s.stack j) ∧
      s.onlyIn [.tby] (s.modStack k f) := fun f =>
    ⟨fun j => s.stack_modStack k f j, State.Same.onlyIn (State.modStack_same (by decide) _ _ _ (.refl s))⟩
  refine ⟨fun h => ?_, fun h hheld => ⟨_, execTbyInitComplete_first h hheld, ?init⟩, fun h => ?scrubIdle, fun hen hready hdue hsound =>
      ⟨_, execTbyScrubRead_sound hen hready hdue hsound, ?scrub⟩, fun h => ?noRow,
    fun cw r rest h => ⟨_, execTbyRowSpareComplete_copied h, ?row⟩, fun h => ?noRemap,
    fun layer cw pc h => ⟨_, execTbyRemapComplete_copied h, ?remap⟩, ⟨_, rfl, hregs _ _⟩, ⟨_, rfl, hstack _⟩, ⟨_, rfl, hstack _⟩,
    ⟨_, rfl, hregs _ _⟩⟩
  · exact congrArg _ (if_pos h)
  case init =>
    have hzeroed : (s.stackZeroed k).stack k = Tby.zeroed s.scrubNow (s.stack k) :=
      State.stack_modStack_same (s.putMem _) k (Tby.zeroed s.scrubNow)
    refine ⟨?_, by rw [hzeroed]; rfl, by rw [hzeroed]; rfl, fun x => ?_⟩
    · rw [State.flag, State.stackZeroed, State.fld_setFld_same _ _ _ _ (by decide)]
      rfl
    · refine (Memory.byte_filter s.mem (fun a => decide (viewSize ≤ a) || stackOf a != k.val) x).trans ?_
      by_cases hx : x < viewSize ∧ stackOf x = k.val
      · rw [if_pos hx, if_neg (by simp [hx.1, hx.2])]
      · rw [if_neg hx, if_pos]
        rw [Bool.or_eq_true, decide_eq_true_eq, bne_iff_ne]
        by_cases hlow : x < viewSize
        · exact .inr fun he => hx ⟨hlow, he⟩
        · exact .inl (Nat.le_of_not_lt hlow)
  case scrubIdle => exact congrArg _ (if_pos (by obtain h | h | h := h <;> simp [State.strike, h]))
  case scrub =>
    refine ⟨?_, fun hmore => ?_, fun hlast => ?_⟩
    · split <;> rfl
    · rw [if_pos hmore, State.stack_modStack_same]
      exact ⟨rfl, rfl⟩
    · rw [if_neg (by omega)]
      set u := (s.scrubNoted k).modStack k Tby.passEnded
      have hstack : (u.incWrap (A.tbyScrub k) F.tbyScrub.PASSES 1).stack k =
          Tby.passEnded ((s.scrubNoted k).stack k) := State.stack_modStack_same (s.scrubNoted k) k Tby.passEnded
      rw [hstack]
      exact ⟨rfl, rfl, State.fld_setFld_same u _ _ _ (by decide)⟩
  case noRow =>
    show execTbyRowSpareComplete k s = _
    unfold execTbyRowSpareComplete
    simp only [h]
  case row =>
    obtain ⟨hcopying, hspared⟩ := State.rowSpared_shown h
    have hshow : (s.rowSpared k cw r).StackKept (copyPart k) ((s.rowSpared k cw r).showSpared k) := State.showSpared_kept ..
    obtain ⟨hremap, hrows⟩ := ((s.rowSpared k cw r).showSpared k).remapCheck_kept k k cw r.layer (r.row % 32)
    have hkept := hshow.trans hremap
    set u := ((s.rowSpared k cw r).showSpared k).remapCheck k cw r.layer (r.row % 32)
    have hspared' : (u.health.stack k).spared = (s.stack k).spared ++ [r] := by
      rw [State.health_stack]
      exact (hkept.spared.part k).trans hspared
    refine ⟨?_, hspared', ?_, fun hquiet => ?_, ?_⟩
    · rw [State.health_stack, hkept.copying, hcopying]
    · rw [hspared', State.fld_of_rd (State.health_rd _ (tbyStat_notHealth k)), hrows, State.showSpared_rows, hspared]
    · have hread : (s.rowRead k cw r).mem = s.mem := State.cwReads_unharmed _ s hquiet
      have hspare : (s.rowSpared k cw r).mem = (s.rowRead k cw r).mem := State.raise_mem ..
      exact ((State.health_same (msk := 2 ^ Part.mem.idx) rfl u
        (State.remapCheck_same rfl _ _ _ _ _ (State.showSpared_same rfl _ _ (.refl _)))).same .mem rfl).trans (hspare.trans hread)
    · have hread := State.rowRead_kept (s := s) (k := k) (cw := cw) (r := r) (h ▸ List.mem_cons_self)
      refine State.raises_of_later hread.accepting hread.raised ?_
      exact State.raises_of_raise (u := s.rowRead k cw r) rfl (hkept.raised.trans u.health_raised)
  case noRemap =>
    show execTbyRemapComplete k s = _
    unfold execTbyRemapComplete
    simp only [h]
  case remap =>
    have hreads : s.StackKept (copyPart 16) (s.copyReads k cw (fun p => p.1 == layer)) :=
      State.cwReads_copyPart 16 _ s fun x hx hk => by
        have hlt : stackOf x < 16 := Nat.mod_lt _ (by decide)
        omega
    set u := s.layerRemapped k cw layer
    have hmod : u.stack k = { (s.copyReads k cw (fun p => p.1 == layer)).stack k with
        remapBy := none, spared := ((s.copyReads k cw (fun p => p.1 == layer)).stack k).spared ++ [⟨layer, 0, true, 0, 0⟩] } :=
      State.stack_modStack_same ..
    have hevent : ((u.showSpared k).tbyEvent k cw 9 layer pc 6).stack k = u.stack k :=
      State.stack_of_tby ((State.raise_tby ..).trans rfl) k
    have hcheck : ∀ v : State, v.StackKept (fun _ x => (x.remapBy, x.spared)) (v.reserveCheck k layer pc 6) := fun v =>
      v.reserveCheck_kept _ _ _ _ fun _ _ => rfl
    set v := (u.showSpared k).tbyEvent k cw 9 layer pc 6
    have hpart : ((v.reserveCheck k layer pc 6).health.stack k).remapBy = none ∧
        ((v.reserveCheck k layer pc 6).health.stack k).spared = (s.stack k).spared ++ [⟨layer, 0, true, 0, 0⟩] := by
      have hk := (hcheck v).part k
      rw [State.health_stack]
      refine ⟨(congrArg Prod.fst hk).trans ?_, (congrArg Prod.snd hk).trans ?_⟩
      · rw [hevent, hmod]
      · rw [hevent, hmod]
        exact congrArg (· ++ [_]) (hreads.spared.part k)
    refine ⟨?_, hpart.1, hpart.2, ?_⟩
    · rw [State.fld_of_rd (State.health_rd _ (tbyStat_notHealth k)), State.fld_of_rd (State.rd_of_regs (State.reserveCheck_regs ..) _),
        State.fld_of_rd (t := v) (s := u.showSpared k) (State.raise_rd ..), State.showSpared_remap]
      exact State.fld_setFld_same _ _ _ _ (by decide)
    · refine State.raises_of_later hreads.accepting hreads.raised ?_
      exact State.raises_of_raise (u := u.showSpared k) rfl ((hcheck v).raised.trans (State.health_raised _))
end

section
/-!
PROOF. RegisterAccess (00 R6 to R11, 01 R23): the registers without an action of their own, block by block (10 R289), their reads
and their writes.
-/
namespace Sys2Proof.Machine

/-! ### The blocks' registers without an action (10 R289) -/

/-- The offsets of a Bench block whose write does more than its access codes say. -/
def benchActions : List Nat := [0x10, 0x18, 0x20, 0x28, 0x60, 0x440, 0x460, 0x480, 0xa60]

theorem State.benchWrite_plain (s : State) (b : Nat) {o : Nat} (w : RegWr) (h : o ∉ benchActions)
    (hdesk : ¬ (0x800 ≤ o ∧ o < 0xa00 ∧ (o % 0x80 = 0 ∨ o % 0x80 = 0x38))) : s.benchWrite b o w = s.store (benchBase b + o) w 0 := by
  simp only [benchActions, List.mem_cons, List.not_mem_nil, or_false, not_or] at h
  obtain ⟨h10, h18, h20, h28, h60, h440, h460, h480, ha60⟩ := h
  rw [State.benchWrite, if_neg h10, if_neg h18, if_neg h20, if_neg h28, if_neg h60, if_neg (by omega), if_neg ha60,
    if_neg (by omega), if_neg (by omega)]

/-- The offsets of a Tallboy's and a Sideboard's block whose write does more than its access codes say. -/
def stackActions : List Nat := [0x38, 0x180, 0x188, 0x800028, 0x800060, 0x800068, 0x800048, 0x800050]

theorem State.stackWrite_plain (s : State) (t : Nat) {o : Nat} (w : RegWr) (h : o ∉ stackActions) :
    s.stackWrite t o w = s.store (A.tbyStat t + o) w 0 := by
  simp only [stackActions, List.mem_cons, List.not_mem_nil, or_false, not_or] at h
  obtain ⟨h38, h180, h188, h28, h60, h68, h48, h50⟩ := h
  rw [State.stackWrite, if_neg h38, if_neg fun e => h180 e.1, if_neg fun e => h188 e.1, if_neg h28, if_neg h60, if_neg h68,
    if_neg fun e => h48 e.1, if_neg fun e => h50 e.1]

/-- A register whose write is that of its access codes alone. -/
def storesPlainly (a : Nat) : Prop := ∀ (who : Who) (w : RegWr) (s : State), s.regApply who a w = s.store a w 0

theorem bench_storesPlainly (b : BenchNo) {o : Nat} (ho : o < 0x10000) (h : o ∉ benchActions)
    (hdesk : ¬ (0x800 ≤ o ∧ o < 0xa00 ∧ (o % 0x80 = 0 ∨ o % 0x80 = 0x38))) : storesPlainly (benchBase b + o) := by
  intro who w s
  have hlow : benchBase b + o < regBase + 800 * 0x10000 := by
    unfold benchBase
    omega
  have hb : (benchBase b + o - regBase) / 0x10000 = b := by
    unfold benchBase
    omega
  have hoff : (benchBase b + o - regBase) % 0x10000 = o := by
    unfold benchBase
    omega
  rw [State.regApply, if_pos hlow, hb, hoff, State.benchWrite_plain _ _ _ h hdesk]

theorem stack_storesPlainly (k : Stack) {o : Nat} (ho : o < 0x1000000) (h : o ∉ stackActions) : storesPlainly (A.tbyStat k + o) := by
  intro who w s
  have hpast : ¬ A.tbyStat k + o < regBase + 800 * 0x10000 := by
    simp only [A.tbyStat, regBase]
    omega
  have hlow : A.tbyStat k + o < A.tmrId := by
    simp only [A.tbyStat, A.tmrId]
    omega
  have ht : (A.tbyStat k + o - A.tbyStat 0) / 0x1000000 = k := by
    simp only [A.tbyStat]
    omega
  have hoff : (A.tbyStat k + o - A.tbyStat 0) % 0x1000000 = o := by
    simp only [A.tbyStat]
    omega
  rw [State.regApply, if_neg hpast, if_pos hlow, ht, hoff]
  exact State.stackWrite_plain _ _ _ h

theorem fabric_storesPlainly {a : Nat} (hlow : A.tmrId < a)
    (h : a < A.tmrId + 0x100 ∨ A.tmrId + 0x140 ≤ a ∧ a < A.tmrId + 0x1000) : storesPlainly a := by
  intro who w s
  have hid : A.tmrId = 0x2020000000000 := rfl
  rw [State.regApply, if_neg (by simp only [regBase]; omega), if_neg (by omega), if_pos (by simp only [A.syncCnt]; omega), State.fabricWrite]
  dsimp only
  rw [if_neg (by omega), if_neg (by omega), if_neg (by omega), if_neg (by omega)]

theorem sync_storesPlainly {a : Nat} (hlow : A.syncCnt 0 + 0x80000 ≤ a) (hhigh : a < A.trsCtl) : storesPlainly a := by
  intro who w s
  have hcnt : A.syncCnt 0 = 0x2028000000000 := rfl
  rw [State.regApply, if_neg (by simp only [regBase]; omega), if_neg (by simp only [A.tmrId]; omega), if_neg (by omega), if_pos hhigh,
    State.syncWrite]
  exact if_neg (by omega)

theorem trestle_storesPlainly {a : Nat} (hlow : A.trsCtl < a) (hhigh : a < A.trsCtl + 0x2000) (hlock : trsLocked a = false)
    (hbase : a ≠ A.trsAlogBase) (hctl : a ≠ A.trsAlogCtl) : storesPlainly a := by
  intro who w s
  have htrs : A.trsCtl = 0x2030000000000 := rfl
  rw [State.regApply, if_neg (by simp only [regBase]; omega), if_neg (by simp only [A.tmrId]; omega),
    if_neg (by simp only [A.syncCnt]; omega), if_neg (by omega), if_pos (by omega), State.trsWrite]
  rw [if_neg (by omega), if_neg (by rw [hlock, Bool.and_false]; decide), if_neg hbase, if_neg hctl, if_neg (by omega)]

theorem hutch_storesPlainly {a : Nat} (hlow : 0x2040000000000 ≤ a) (hhigh : a < slotBase)
    (h : a ∉ [A.mbxSubmit, A.mbxAck, A.numElogBase, A.numElogCtl]) : storesPlainly a := by
  intro who w s
  simp only [List.mem_cons, List.not_mem_nil, or_false, not_or] at h
  obtain ⟨hsubmit, hack, hbase, hctl⟩ := h
  have hslot : slotBase = 0x2040000010000 := rfl
  rw [State.regApply, if_neg (by simp only [regBase]; omega), if_neg (by simp only [A.tmrId]; omega),
    if_neg (by simp only [A.syncCnt]; omega), if_neg (by simp only [A.trsCtl]; omega), if_neg (by omega),
    if_pos (by simp only [A.clkStat]; omega), State.hutchWrite, if_neg (by omega), if_neg hsubmit, if_neg hack, if_neg hbase, if_neg hctl]

theorem clock_storesPlainly {a : Nat} (hlow : A.clkStat ≤ a) (hhigh : a < A.secStat)
    (h : a ∉ [A.clkFreq, A.gtSetn, A.gtCfg, A.gtUnc, A.gtPtp, A.gtPps, A.rstBoot, A.pwrCap, A.clkMark, A.clkAlarm]) :
    storesPlainly a := by
  intro who w s
  simp only [List.mem_cons, List.not_mem_nil, or_false, not_or] at h
  obtain ⟨hfreq, hsetn, hcfg, hunc, hptp, hpps, hboot, hcap, hmark, halarm⟩ := h
  rw [s.regApply_clockBlock who w hlow hhigh, State.clockWrite, if_neg hfreq, if_neg hsetn, if_neg (by tauto), if_neg hptp, if_neg hpps,
    if_neg hboot, if_neg hcap, if_neg hmark, if_neg halarm]

theorem arbiter_storesPlainly {a : Nat} (hlow : A.evtRingBase < a) (hctl : a ≠ A.evtRingCtl) : storesPlainly a := by
  intro who w s
  have hbase : A.evtRingBase = 0x2070000000000 := rfl
  have hne : (a == A.evtRingCtl) = false := beq_eq_false_iff_ne.2 hctl
  rw [State.regApply, if_neg (by simp only [regBase]; omega), if_neg (by simp only [A.tmrId]; omega),
    if_neg (by simp only [A.syncCnt]; omega), if_neg (by simp only [A.trsCtl]; omega), if_neg (by omega),
    if_neg (by simp only [A.clkStat]; omega), if_neg (by simp only [A.secStat]; omega), if_neg (by omega), State.arbiterWrite]
  rw [if_neg (by omega), hne, Bool.and_false, State.storeUnless, if_neg Bool.false_ne_true]

/-! ### Registers that read as they are stored -/

/-- The registers with a live view of their own outside the Benches (00 R6; 14 R410; 16 R461). -/
def liveViews : List Nat := [A.gtNowLo, A.gtNowHi, A.gtUnc, A.evtAvailT, A.evtAvailU]

/-- What a table gives a register that a read shows as it is stored: no write-only field, and no bit of two access codes. -/
def RegDesc.open (r : RegDesc) : Bool := r.wo == 0 && r.rw &&& r.w1c == 0

/-- A register that reads as it is stored and whose write is that of its access codes alone. -/
structure plainReg (a : Nat) (r : RegDesc) : Prop where
  desc : regDesc a = some r
  opened : r.open = true
  region : regBase ≤ a
  aligned : a % 8 = 0
  stored : a ∉ liveViews ∧ ¬ (a < regBase + 800 * 0x10000 ∧ (a - regBase) % 0x10000 = 0x70)
  slots : ¬ (slotBase ≤ a ∧ a < slotBase + 0x4000)
  mirror : ¬ (mirrorBase ≤ a ∧ a < mirrorBase + 0x2000)
  stores : storesPlainly a

/-- What is decided of a register's address outside the Benches. -/
def modulePlain (a : Nat) : Bool :=
  (regDesc a).any RegDesc.open && decide (regBase + 800 * 0x10000 ≤ a) && decide (a % 8 = 0) && !liveViews.contains a &&
    !(decide (slotBase ≤ a) && decide (a < slotBase + 0x4000)) && !(decide (mirrorBase ≤ a) && decide (a < mirrorBase + 0x2000))

theorem plainReg_of_module {a : Nat} (h : modulePlain a = true) (hstores : storesPlainly a) : ∃ r, plainReg a r := by
  simp only [modulePlain, Bool.and_eq_true, decide_eq_true_eq, Bool.not_eq_true', Bool.and_eq_false_iff, decide_eq_false_iff_not] at h
  obtain ⟨⟨⟨⟨⟨hdesc, hpast⟩, h8⟩, hlive⟩, hslots⟩, hmirror⟩ := h
  obtain ⟨r, hr, hopen⟩ := (Option.any_eq_true _ _).1 hdesc
  exact ⟨r, hr, hopen, Nat.le_trans (Nat.le_add_right ..) hpast, h8, ⟨by simpa using hlive, fun e => Nat.not_lt.2 hpast e.1⟩, by tauto,
    by tauto, hstores⟩

theorem regDesc_bench (b : BenchNo) {o : Nat} (ho : o < 0x10000) : regDesc (benchBase b + o) = findReg benchRegs o := by
  have hoff : (benchBase b + o - regBase) % 0x10000 = o := by
    unfold benchBase
    omega
  rw [regDesc, if_neg (by unfold benchBase; omega), if_pos (by unfold benchBase; omega), hoff]

/-- What is decided of a register's offset in a Bench block. -/
def benchPlain (o : Nat) : Bool :=
  (findReg benchRegs o).any RegDesc.open && decide (o < 0x10000) && decide (o % 8 = 0) && !benchActions.contains o && decide (o ≠ 0x70) &&
    !(decide (0x800 ≤ o) && decide (o < 0xa00) && (decide (o % 0x80 = 0) || decide (o % 0x80 = 0x38)))

theorem plainReg_of_bench (b : BenchNo) {o : Nat} (h : benchPlain o = true) : ∃ r, plainReg (benchBase b + o) r := by
  simp only [benchPlain, Bool.and_eq_true, decide_eq_true_eq, Bool.not_eq_true', Bool.and_eq_false_iff, Bool.or_eq_false_iff,
    decide_eq_false_iff_not] at h
  obtain ⟨⟨⟨⟨⟨hdesc, hlow⟩, h8⟩, hact⟩, h70⟩, hdesk⟩ := h
  obtain ⟨r, hr, hopen⟩ := (Option.any_eq_true _ _).1 hdesc
  have hb := b.isLt
  have hbase : benchBase b + o = regBase + b * 0x10000 + o := rfl
  have hreg : regBase = 0x2000000000000 := rfl
  have hlives : ∀ x ∈ liveViews, 0x2050000000000 ≤ x := by decide
  have hslot : slotBase = 0x2040000010000 := rfl
  have hmirror : mirrorBase = 0x2070000010000 := rfl
  exact ⟨r, (regDesc_bench b hlow).trans hr, hopen, by omega, by omega, ⟨fun hm => by have := hlives _ hm; omega, by omega⟩, by omega,
    by omega, bench_storesPlainly b hlow (by simpa using hact) (by omega)⟩

/-- The plain registers of a Desk, a stack, a region and a table by their offsets. -/
theorem deskRegs_plain : ∀ d : DeskNo, ∀ o ∈ [0x808, 0x830, 0x840], benchPlain (o + d.val * 0x80) = true := by decide

theorem stackRegs_plain : ∀ k : Stack, ∀ o ∈ [0x10, 0x20, 0x28, 0x800000, 0x800010, 0x8000a8], modulePlain (A.tbyStat k + o) = true := by
  decide

theorem regionRegs_plain : ∀ i : Fin 8, modulePlain (A.tbyRgn i) = true ∧ modulePlain (A.tmrTcsel i) = true ∧ modulePlain (A.pwrDom i) = true := by
  decide

theorem plainReg_desk (b : BenchNo) (d : DeskNo) {o : Nat} (ho : o ∈ [0x808, 0x830, 0x840]) : ∃ r, plainReg (benchBase b + o + d * 0x80) r := by
  rw [Nat.add_assoc]
  exact plainReg_of_bench b (deskRegs_plain d o ho)

theorem plainReg_stack (k : Stack) {o : Nat} (ho : o ∈ [0x10, 0x20, 0x28, 0x800000, 0x800010, 0x8000a8]) :
    ∃ r, plainReg (0x2010000000000 + o + k * 0x1000000) r := by
  have hbase : 0x2010000000000 + o + k.val * 0x1000000 = A.tbyStat k + o := by
    simp only [A.tbyStat]
    omega
  have hact : o < 0x1000000 ∧ o ∉ stackActions := by
    clear hbase
    revert o
    decide
  rw [hbase]
  exact plainReg_of_module (stackRegs_plain k o ho) (stack_storesPlainly k hact.1 hact.2)

theorem plainReg_region (i : Fin 8) : ∃ r, plainReg (A.tbyRgn i) r := by
  have hstores : storesPlainly (A.tbyStat (0 : Stack) + (0x100 + i * 0x8)) := by
    refine stack_storesPlainly 0 (by omega) ?_
    simp only [stackActions, List.mem_cons, List.not_mem_nil, or_false]
    omega
  have hbase : A.tbyStat (0 : Stack) + (0x100 + i.val * 0x8) = A.tbyRgn i := by
    simp only [A.tbyStat, A.tbyRgn, Fin.val_zero]
    omega
  exact plainReg_of_module (regionRegs_plain i).1 (hbase ▸ hstores)

theorem plainRegs_plain (b : BenchNo) (d : DeskNo) (k : Stack) (i : Fin 8) : ∀ a ∈ plainRegs b d k i, ∃ r, plainReg a r := by
  have hbench : ∀ o, benchPlain o = true → ∃ r, plainReg (benchBase b + o) r := fun o ho => plainReg_of_bench b ho
  have hfirst : ∀ o, o < 0x1000000 → o ∉ stackActions → modulePlain (A.tbyStat (0 : Stack) + o) = true →
      ∃ r, plainReg (A.tbyStat (0 : Stack) + o) r := fun o hlow hact hplain =>
    plainReg_of_module hplain (stack_storesPlainly 0 hlow hact)
  have hhutch : ∀ a, modulePlain a = true → 0x2040000000000 ≤ a → a < slotBase →
      a ∉ [A.mbxSubmit, A.mbxAck, A.numElogBase, A.numElogCtl] → ∃ r, plainReg a r := fun a hplain hlow hhigh hact =>
    plainReg_of_module hplain (hutch_storesPlainly hlow hhigh hact)
  have hclock : ∀ a, modulePlain a = true → A.clkStat ≤ a → a < A.secStat →
      a ∉ [A.clkFreq, A.gtSetn, A.gtCfg, A.gtUnc, A.gtPtp, A.gtPps, A.rstBoot, A.pwrCap, A.clkMark, A.clkAlarm] →
      ∃ r, plainReg a r := fun a hplain hlow hhigh hact => plainReg_of_module hplain (clock_storesPlainly hlow hhigh hact)
  have htrestle : ∀ a, modulePlain a = true → A.trsCtl < a → a < A.trsCtl + 0x2000 → trsLocked a = false → a ≠ A.trsAlogBase →
      a ≠ A.trsAlogCtl → ∃ r, plainReg a r := fun a hplain hlow hhigh hlock hbase hctl =>
    plainReg_of_module hplain (trestle_storesPlainly hlow hhigh hlock hbase hctl)
  have hdom : A.clkStat ≤ A.pwrDom i ∧ A.pwrDom i < A.secStat ∧
      A.pwrDom i ∉ [A.clkFreq, A.gtSetn, A.gtCfg, A.gtUnc, A.gtPtp, A.gtPps, A.rstBoot, A.pwrCap, A.clkMark, A.clkAlarm] := by
    clear hbench hfirst hhutch hclock htrestle
    revert i
    decide
  obtain ⟨hdomLow, hdomHigh, hdomAct⟩ := hdom
  simp only [plainRegs, List.forall_mem_cons, List.not_mem_nil, false_imp_iff, implies_true, and_true]
  exact ⟨hbench 0x400 (by decide), hbench 0x408 (by decide), hbench 0x410 (by decide), hbench 0x418 (by decide), hbench 0x50 (by decide),
    plainReg_desk b d (o := 0x808) (by decide), plainReg_desk b d (o := 0x830) (by decide), plainReg_desk b d (o := 0x840) (by decide),
    hbench 0xa08 (by decide), hbench 0xa50 (by decide),
    plainReg_stack k (o := 0x10) (by decide), plainReg_stack k (o := 0x20) (by decide), plainReg_stack k (o := 0x28) (by decide),
    plainReg_region i, hfirst 0x140 (by decide) (by decide) (by decide),
    plainReg_stack k (o := 0x800000) (by decide), plainReg_stack k (o := 0x800010) (by decide),
    hfirst 0x800030 (by decide) (by decide) (by decide), plainReg_stack k (o := 0x8000a8) (by decide),
    plainReg_of_module (by decide) (fabric_storesPlainly (by decide) (by decide)),
    plainReg_of_module (by decide) (fabric_storesPlainly (by decide) (by decide)),
    plainReg_of_module (regionRegs_plain i).2.1 (fabric_storesPlainly (by simp only [A.tmrId, A.tmrTcsel]; omega)
      (by simp only [A.tmrId, A.tmrTcsel]; omega)),
    plainReg_of_module (by decide) (sync_storesPlainly (by decide) (by decide)),
    plainReg_of_module (by decide) (sync_storesPlainly (by decide) (by decide)),
    htrestle _ (by decide) (by decide) (by decide) (by decide) (by decide) (by decide),
    htrestle _ (by decide) (by decide) (by decide) (by decide) (by decide) (by decide),
    htrestle _ (by decide) (by decide) (by decide) (by decide) (by decide) (by decide),
    hhutch _ (by decide) (by decide) (by decide) (by decide), hhutch _ (by decide) (by decide) (by decide) (by decide),
    hhutch _ (by decide) (by decide) (by decide) (by decide), hhutch _ (by decide) (by decide) (by decide) (by decide),
    hhutch _ (by decide) (by decide) (by decide) (by decide), hhutch _ (by decide) (by decide) (by decide) (by decide),
    hclock _ (by decide) (by decide) (by decide) (by decide), hclock _ (by decide) (by decide) (by decide) (by decide),
    hclock _ (by decide) (by decide) (by decide) (by decide), hclock _ (by decide) (by decide) (by decide) (by decide),
    hclock _ (regionRegs_plain i).2.2 hdomLow hdomHigh hdomAct, hclock _ (by decide) (by decide) (by decide) (by decide),
    plainReg_of_module (by decide) (arbiter_storesPlainly (by decide) (by decide)),
    plainReg_of_module (by decide) (arbiter_storesPlainly (by decide) (by decide))⟩

/-! ### Reads (00 R9 to R11) -/

section
variable {a : Nat} {r : RegDesc} (h : plainReg a r)
include h

theorem plainReg.regWord (s : State) : s.regWord a = s.rd a := by
  obtain ⟨hlive, h70⟩ := h.stored
  have hwo : r.wo = 0 := by
    have hopen := h.opened
    simp only [RegDesc.open, Bool.and_eq_true, beq_iff_eq] at hopen
    exact hopen.1
  simp only [liveViews, List.mem_cons, List.not_mem_nil, or_false, not_or] at hlive
  obtain ⟨hlo, -, hunc, -, -⟩ := hlive
  rw [State.regWord, if_neg h.slots, if_neg h.mirror]
  simp only [h.desc]
  rw [if_neg hlo, if_neg hunc, if_neg h70, hwo]
  exact BitVec.and_allOnes

theorem plainReg.regRead64 (s : State) (q : Nat) : s.regRead64 q a = (s, s.rd a) := by
  have hlive := h.stored.1
  simp only [liveViews, List.mem_cons, List.not_mem_nil, or_false, not_or] at hlive
  obtain ⟨hlo, hhi, -, ht, hu⟩ := hlive
  have hshown : s.slotHidden a = false := by
    have hslots := h.slots
    rw [State.slotHidden]
    by_cases hs : slotBase ≤ a
    · rw [decide_eq_false fun hl => hslots ⟨hs, hl⟩, Bool.and_false, Bool.false_and, Bool.false_and]
    · rw [decide_eq_false hs, Bool.false_and, Bool.false_and, Bool.false_and]
  rw [State.regRead64, if_neg hlo, hshown, if_neg Bool.false_ne_true, if_neg hhi, if_neg (by tauto), h.regWord]

theorem plainReg.regRead (s : State) (q : Nat) : s.regRead q a 8 = (s, leBytes 8 (s.rd a).toNat) ∧
    s.regRead q a 4 = (s, leBytes 4 (s.rd a).toNat) ∧ s.regRead q (a + 4) 4 = (s, leBytes 4 ((s.rd a).toNat / 2 ^ 32)) := by
  have h8 := h.aligned
  refine ⟨?_, ?_, ?_⟩
  · rw [State.regRead, if_pos ⟨rfl, h8⟩, h.regRead64]
  · have hword : a - a % 8 = a := by omega
    rw [State.regRead, if_neg (by omega), if_pos ⟨rfl, by omega⟩, hword, h.regRead64]
    simp only [h8, if_true]
  · have hword : a + 4 - (a + 4) % 8 = a := by omega
    have hhigh : (a + 4) % 8 ≠ 0 := by omega
    rw [State.regRead, if_neg (by omega), if_pos ⟨rfl, by omega⟩, hword, h.regRead64]
    simp only [hhigh, if_false]

end

/-! ### Writes (00 R6, R7) -/

theorem State.store_rd_ne (s : State) {a x : Nat} (w : RegWr) (keep : Word) (hx : x ≠ a) : (s.store a w keep).rd x = s.rd x := by
  unfold State.store
  split
  · rfl
  · exact State.rd_wr_ne _ _ hx

theorem State.store_onlyRegs (s : State) (a : Nat) (w : RegWr) (keep : Word) : s.onlyIn [.regs] (s.store a w keep) := by
  unfold State.store
  split
  · exact State.Same.onlyIn (.refl s)
  · exact State.Same.onlyIn (State.wr_same (by decide) _ _ _ (.refl s))

/-- A bit of a register after a write (00 R6, R7). -/
theorem plainReg.store_bit {a : Nat} {r : RegDesc} (h : plainReg a r) (s : State) (w : RegWr) {j : Nat} (hj : j < 64) :
    ((s.store a w 0).rd a).getLsbD j =
      if w.m.getLsbD j = false then (s.rd a).getLsbD j
      else if r.rw.testBit j then w.v.getLsbD j
      else if r.w1c.testBit j && w.v.getLsbD j then (s.rd a).getLsbD j && (FMap.getD s.cyc.set a 0).getLsbD j
      else (s.rd a).getLsbD j := by
  have hapart : (r.rw.testBit j && r.w1c.testBit j) = false := by
    have hopen := h.opened
    simp only [RegDesc.open, Bool.and_eq_true, beq_iff_eq] at hopen
    rw [← Nat.testBit_and, hopen.2, Nat.zero_testBit]
  simp only [State.store, h.desc, State.rd_wr_same]
  generalize FMap.getD s.cyc.set a 0 = hwSets
  have hkeep : (0 : Word).getLsbD j = false := BitVec.getLsbD_zero
  simp only [BitVec.getLsbD_and, BitVec.getLsbD_or, BitVec.getLsbD_not, BitVec.getLsbD_ofNat, hj, decide_true, Bool.true_and, hkeep,
    Bool.not_false, Bool.and_true]
  revert hapart
  generalize r.rw.testBit j = rw
  generalize r.w1c.testBit j = w1c
  generalize w.m.getLsbD j = m
  generalize w.v.getLsbD j = v
  generalize (s.rd a).getLsbD j = x
  generalize hwSets.getLsbD j = hw
  revert rw w1c m v x hw
  decide

/-- An aligned 64-bit write reaches a plain register whole (00 R10). -/
theorem plainReg.regWrOf_whole {a : Nat} {r : RegDesc} (h : plainReg a r) (v : Word) :
    regWrOf a 8 v.toNat = some (a, ⟨v, BitVec.allOnes 64⟩) := by
  have h8 := h.aligned
  have hword : a - a % 8 = a := by omega
  have hsome : (regDesc a).isNone = false := by rw [h.desc]; rfl
  rw [regWrOf, hword, hsome, Bool.false_and, if_neg Bool.false_ne_true, if_pos ⟨rfl, h8⟩, BitVec.ofNat_toNat, BitVec.setWidth_eq]

/-- The half of a register that a 32-bit write covers. -/
def halfWr (v : Word) (h : Nat) : RegWr :=
  ⟨BitVec.ofNat 64 (v.toNat % 2 ^ 32) <<< (4 * h * 8), BitVec.ofNat 64 (2 ^ 32 - 1) <<< (4 * h * 8)⟩

theorem plainReg.regWrOf_half {a : Nat} {r : RegDesc} (h : plainReg a r) (v : Word) {k : Nat} (hk : k < 2) :
    regWrOf (a + 4 * k) 4 v.toNat = some (a, halfWr v k) := by
  have h8 := h.aligned
  have hrest : (a + 4 * k) % 8 = 4 * k := by omega
  have hword : a + 4 * k - (a + 4 * k) % 8 = a := by omega
  have hsome : (regDesc a).isNone = false := by rw [h.desc]; rfl
  rw [regWrOf, hword, hsome, Bool.false_and, if_neg Bool.false_ne_true, if_neg (by omega), if_pos ⟨rfl, by omega⟩, hrest]
  rfl

theorem halfWr_bits (v : Word) {k j : Nat} (hj : j < 64) : (halfWr v k).m.getLsbD j = decide (j / 32 = k) ∧
    (j / 32 = k → (halfWr v k).v.getLsbD j = v.getLsbD (j % 32)) := by
  refine ⟨?_, fun hjk => ?_⟩
  · rw [halfWr, BitVec.getLsbD_shiftLeft, BitVec.getLsbD_ofNat, Nat.testBit_two_pow_sub_one]
    by_cases hjk : j / 32 = k
    · rw [decide_eq_true hjk, decide_eq_true hj, decide_eq_false (by omega), decide_eq_true (by omega), decide_eq_true (by omega)]
      rfl
    · rw [decide_eq_false hjk, Bool.and_eq_false_iff, Bool.and_eq_false_iff, Bool.and_eq_false_iff]
      by_cases hlow : j < 4 * k * 8
      · exact .inl (.inr (by rw [decide_eq_true hlow]; rfl))
      · exact .inr (.inr (decide_eq_false (by omega)))
  · have hsub : j - 4 * k * 8 = j % 32 := by omega
    rw [halfWr, BitVec.getLsbD_shiftLeft, BitVec.getLsbD_ofNat, hsub, Nat.testBit_mod_two_pow, decide_eq_true hj,
      decide_eq_false (by omega), decide_eq_true (by omega), decide_eq_true (by omega)]
    rfl

/-- An address of the control-register region names a register (10 R288, R289). -/
theorem locOf_reg {a : Nat} (ha : regBase ≤ a) : locOf a = .reg a := by
  have hreg : regBase = 0x2000000000000 := rfl
  rw [locOf, if_neg (by simp only [viewSize]; omega), if_neg (by omega), if_neg (by omega), if_pos ha]

/-- A register that accepts a 64-bit write accepts one of either half. -/
theorem plainReg.memReady_half {a : Nat} {r : RegDesc} (h : plainReg a r) {s : State} (hready : s.memReady a 8 = true) {k : Nat}
    (hk : k < 2) : s.memReady (a + 4 * k) 4 = true := by
  have h8 := h.aligned
  have hregion := h.region
  have hreg : regBase = 0x2000000000000 := rfl
  have hbench : (a + 4 * k - regBase) / 0x10000 = (a - regBase) / 0x10000 := by omega
  have hpast : (regBase + 800 * 0x10000 ≤ a + 4 * k) = (regBase + 800 * 0x10000 ≤ a) := propext (by omega)
  rw [State.memReady, State.memReadyFor, pieces_one (by decide) (by omega)] at hready ⊢
  simp only [List.all_cons, List.all_nil, Bool.and_true, locOf_reg hregion, locOf_reg (Nat.le_add_right_of_le hregion), hbench,
    ge_iff_le, hpast] at hready ⊢
  exact hready

/-- A write of a plain register, by what of it is covered. -/
theorem plainReg.exec_write {a x n : Nat} {r : RegDesc} (h : plainReg a r) {s : State} (who : Who) {v : Word} {w : RegWr}
    (hon : s.rst.on = true) (hready : s.memReady x n = true) (hwr : regWrOf x n v.toNat = some (a, w)) :
    exec (.registerWrite who x n v) s = .next (s.store a w 0) := by
  show execRegisterWrite who x n v s = _
  rw [execRegisterWrite, if_pos hready, State.regWrite, hon, if_neg (by decide)]
  simp only [hwr]
  rw [h.stores]

/-! ### Accesses that reach no register (00 R10, R11) -/

theorem regWrOf_none {a n v : Nat} (h : (n ≠ 8 ∧ n ≠ 4) ∨ a % n ≠ 0 ∨
    (regDesc (a - a % 8) = none ∧ (a < slotBase ∨ slotBase + 0x4000 ≤ a))) : regWrOf a n v = none := by
  rw [regWrOf]
  by_cases hnone : ((regDesc (a - a % 8)).isNone && !(decide (slotBase ≤ a) && decide (a < slotBase + 0x4000))) = true
  · rw [if_pos hnone]
  · rw [if_neg hnone]
    have hform : (n ≠ 8 ∧ n ≠ 4) ∨ a % n ≠ 0 := by
      obtain h | h | ⟨hdesc, hslot⟩ := h
      · exact .inl h
      · exact .inr h
      · refine absurd ?_ hnone
        simpa [hdesc] using hslot
    have h8 : ¬ (n = 8 ∧ a % 8 = 0) := by
      rintro ⟨rfl, h0⟩
      omega
    have h4 : ¬ (n = 4 ∧ a % 4 = 0) := by
      rintro ⟨rfl, h0⟩
      omega
    rw [if_neg h8, if_neg h4]

theorem slots_aligned {a : Nat} (h : a < slotBase ∨ slotBase + 0x4000 ≤ a) : ¬ (slotBase ≤ a - a % 8 ∧ a - a % 8 < slotBase + 0x4000) := by
  have hslot : slotBase = 0x2040000010000 := rfl
  omega

theorem mirror_aligned {a : Nat} (h : a < mirrorBase ∨ mirrorBase + 0x2000 ≤ a) :
    ¬ (mirrorBase ≤ a - a % 8 ∧ a - a % 8 < mirrorBase + 0x2000) := by
  have hmirror : mirrorBase = 0x2070000010000 := rfl
  omega

/-- A word without a register reads as zero (00 R11). -/
theorem State.regRead64_none (s : State) (q : Nat) {a : Nat} (hdesc : regDesc a = none) (hslot : ¬ (slotBase ≤ a ∧ a < slotBase + 0x4000))
    (hmirror : ¬ (mirrorBase ≤ a ∧ a < mirrorBase + 0x2000)) : s.regRead64 q a = (s, 0) := by
  have hsome : ∀ x, (regDesc x).isSome = true → a ≠ x := by
    rintro x hx rfl
    rw [hdesc] at hx
    cases hx
  have hshown : s.slotHidden a = false := by
    rw [State.slotHidden]
    have houtside : (decide (slotBase ≤ a) && decide (a < slotBase + 0x4000)) = false := by simpa using hslot
    rw [houtside, Bool.false_and, Bool.false_and]
  have hword : s.regWord a = 0 := by
    rw [State.regWord, if_neg hslot, if_neg hmirror]
    simp only [hdesc]
  rw [State.regRead64, if_neg (hsome _ (by decide)), hshown, if_neg Bool.false_ne_true, if_neg (hsome _ (by decide)),
    if_neg (by rintro (h | h) <;> exact hsome _ (by decide) h), hword]

theorem State.regRead_zero (s : State) (q : Nat) {a n : Nat} (h : (n ≠ 8 ∧ n ≠ 4) ∨ a % n ≠ 0 ∨
    (regDesc (a - a % 8) = none ∧ (a < slotBase ∨ slotBase + 0x4000 ≤ a) ∧ (a < mirrorBase ∨ mirrorBase + 0x2000 ≤ a))) :
    s.regRead q a n = (s, leBytes n 0) := by
  have hread : (n = 8 ∧ a % 8 = 0) ∨ (n = 4 ∧ a % 4 = 0) → s.regRead64 q (a - a % 8) = (s, 0) := by
    intro hn
    obtain h | h | ⟨hdesc, hslot, hmirror⟩ := h
    · omega
    · obtain ⟨rfl, h0⟩ | ⟨rfl, h0⟩ := hn <;> omega
    · exact s.regRead64_none q hdesc (slots_aligned hslot) (mirror_aligned hmirror)
  rw [State.regRead]
  by_cases h8 : n = 8 ∧ a % 8 = 0
  · have hword : a - a % 8 = a := by omega
    have hzero := hread (.inl h8)
    rw [hword] at hzero
    rw [if_pos h8, hzero, h8.1]
    rfl
  · rw [if_neg h8]
    by_cases h4 : n = 4 ∧ a % 4 = 0
    · rw [if_pos h4, hread (.inr h4), h4.1]
      simp
    · rw [if_neg h4]

end Sys2Proof.Machine

open Sys2Proof Sys2Proof.Machine

/-- Settles O36: what a write reaches and what a read returns, and of the plain registers each bit by its access code. -/
theorem registerAccess : Obligations.RegisterAccess := by
  unfold Obligations.RegisterAccess
  intro who q b d k i v s
  refine ⟨fun a n h => ⟨_, rfl, ?held⟩, fun a n hready h => ?dropped, fun a n h => ?zero, fun a ha => ?plain⟩
  case held =>
    rw [if_neg (by rw [h]; decide)]
    exact ⟨State.Same.onlyIn (State.putTmr_same (by decide) _ _ (.refl s)), rfl⟩
  case dropped =>
    refine congrArg _ ((if_pos hready).trans ?_)
    unfold State.regWrite
    obtain hoff | hnot := h
    · rw [hoff]
      rfl
    · rw [regWrOf_none hnot]
      split <;> rfl
  case zero => exact State.regRead_zero s q h
  case plain =>
    obtain ⟨r, h⟩ := plainRegs_plain b d k i a ha
    obtain ⟨h8, h4, hhigh⟩ := h.regRead s q
    refine ⟨r, h.desc, h8, h4, hhigh, fun hon hready => ⟨⟨_, h.exec_write who hon hready (h.regWrOf_whole v), State.store_onlyRegs ..,
      fun x hx => State.store_rd_ne _ _ _ hx, fun j hj => ?_⟩, fun k hk => ⟨_, h.exec_write who hon (h.memReady_half hready hk)
      (h.regWrOf_half v hk), State.store_onlyRegs .., fun x hx => State.store_rd_ne _ _ _ hx, fun j hj => ?_⟩⟩⟩
    · rw [h.store_bit s _ hj, if_neg (by rw [BitVec.getLsbD_allOnes, decide_eq_true hj]; decide)]
    · obtain ⟨hm, hv⟩ := halfWr_bits (k := k) v hj
      rw [h.store_bit s _ hj, hm]
      by_cases hjk : j / 32 = k
      · rw [decide_eq_true hjk, if_neg (by decide), hv hjk, if_neg (not_not.2 hjk)]
      · rw [decide_eq_false hjk, if_pos rfl, if_pos hjk]
end

section
/-!
PROOF. DeskInstructions (04 R117, R126 to R130): an operation joins the queues of its mask, and DESK.L and its grant lease the
Desks.
-/
namespace Sys2Proof.Machine

/-! ### Joining queues (04 R126) -/

/-- An operation that stands last in the queue of each listed Desk. -/
def State.enqueued (s : State) (b : Nat) (e : DeskEnt) (ds : List Nat) : State :=
  ds.foldl (fun s d => s.modDesk b d (fun x => { x with queue := x.queue ++ [e] })) s

theorem State.enqueued_same (s : State) (b : Nat) (e : DeskEnt) (ds : List Nat) :
    (s.enqueued b e ds).regs = s.regs ∧ (s.enqueued b e ds).benches = s.benches ∧ (s.enqueued b e ds).mem = s.mem := by
  induction ds generalizing s with
  | nil => exact ⟨rfl, rfl, rfl⟩
  | cons d ds ih => exact ih (s.modDesk b d _)

theorem State.enqueued_queue (s : State) (b : Nat) (e : DeskEnt) {ds : List Nat} (hds : ∀ d ∈ ds, d < 4) (hnodup : ds.Nodup)
    {k : Nat} (hk : k < 4) :
    ((s.enqueued b e ds).desk b k).queue = if k ∈ ds then (s.desk b k).queue ++ [e] else (s.desk b k).queue := by
  induction ds generalizing s with
  | nil => rw [if_neg List.not_mem_nil]; rfl
  | cons d ds ih =>
    obtain ⟨hd, hnodup⟩ := List.nodup_cons.mp hnodup
    have hrest := ih (s.modDesk b d (fun x => { x with queue := x.queue ++ [e] })) (fun x hx => hds x (List.mem_cons_of_mem _ hx))
      hnodup
    refine hrest.trans ?_
    by_cases hkd : k = d
    · subst hkd
      rw [if_neg hd, if_pos List.mem_cons_self, State.desk_modDesk_same]
    · rw [State.desk_modDesk_ne _ _ (fun h => hkd (Prod.mk.inj h).2) (hds d List.mem_cons_self) hk]
      simp only [List.mem_cons, hkd, false_or]

theorem maskDesks_nodup (m : Nat) : (maskDesks m).Nodup := List.nodup_range.filter _

/-- A context goes on after an operation of it has joined queues: it keeps its registers, and no lending goes on. -/
theorem State.sameRun_lendEnd (s : State) {b : Nat} (hb : b < 800) (c : Ctx) : s.sameRun (s.lendEnd b) b c := by
  obtain ⟨-, hpcLent, -⟩ := threadRegs_apart hb (c := c)
  refine ⟨?_, State.pc_congr (s.rd_lendEnd_ne hpcLent) (by rw [State.ctx_lendEnd]),
    (State.lendEnd_same (msk := 2 ^ Part.mem.idx) rfl s b (.refl s)).same .mem rfl⟩
  rw [State.filesKept, State.ctx_lendEnd]

theorem State.desk_congr {s t : State} (h : t.desks = s.desks) (b d : Nat) : t.desk b d = s.desk b d := by rw [State.desk, h, State.desk]

/-- A Desk instruction that issues, finds no fault and no queue to wait for joins the queues of its mask. -/
theorem State.deskIssue_joins {s : State} {b : Nat} (hb : b < 800) {c : Ctx} {mask r : Nat} {op : DeskOp} {check : Tile → Option Nat}
    (h : s.issues b c { tregs := [r] } = true) (hlegal : check (tileOf (s.t b c r).toNat) = none)
    (hfree : ∀ k < 4, mask.testBit k = true → s.mayUse b c k = true ∧ s.mustWait b c k = false) :
    (s.deskIssue b c mask r 0 op check).pc b c = s.nextPc b c ∧ s.scalarIs (s.deskIssue b c mask r 0 op check) b c 0 0 ∧
      s.sameFiles (s.deskIssue b c mask r 0 op check) b c ∧ (s.deskIssue b c mask r 0 op check).mem = s.mem ∧
      ∀ k < 4, ((s.deskIssue b c mask r 0 op check).desk b k).queue = if mask.testBit k = true
        then (s.desk b k).queue ++ [⟨op, c, s.pc b c, (s.t b c r).toNat, s.layerGen b c, s.stepOf b c, s.seed⟩]
        else (s.desk b k).queue := by
  have hmay : (maskDesks mask).all (s.mayUse b c) = true :=
    List.all_eq_true.mpr fun k hk => (hfree k (mem_maskDesks.mp hk).1 (mem_maskDesks.mp hk).2).1
  have hwait : (maskDesks mask).any (s.mustWait b c) = false :=
    List.any_eq_false.mpr fun k hk => by rw [(hfree k (mem_maskDesks.mp hk).1 (mem_maskDesks.mp hk).2).2]; exact Bool.false_ne_true
  obtain ⟨e, he⟩ : ∃ e : DeskEnt, e = ⟨op, c, s.pc b c, (s.t b c r).toNat, s.layerGen b c, s.stepOf b c, s.seed⟩ := ⟨_, rfl⟩
  have hresult : s.deskIssue b c mask r 0 op check = ((s.enqueued b e (maskDesks mask)).lendEnd b).done b c := by
    have hgo : ∀ k, s.issue b c { tregs := [r], rsv := 0 } k = k s := State.issue_of_issues h
    rw [State.deskIssue, hgo]
    simp only [hlegal, hmay, hwait, Bool.not_true, Bool.false_eq_true, if_false]
    rw [he]
    rfl
  obtain ⟨hregs, hbenches, hmem⟩ := s.enqueued_same b e (maskDesks mask)
  have hrun : s.sameRun ((s.enqueued b e (maskDesks mask)).lendEnd b) b c :=
    (State.sameRun.of_regs (State.rd_of_regs hregs _) hbenches hmem).trans (State.sameRun_lendEnd _ hb c)
  obtain ⟨hpc, hfiles, hmemory⟩ := hrun.done
  rw [hresult]
  refine ⟨hpc, hfiles.scalars, hfiles.files, hmemory, fun k hk => ?_⟩
  have hdesks : (((s.enqueued b e (maskDesks mask)).lendEnd b).done b c).desks = (s.enqueued b e (maskDesks mask)).desks :=
    (State.done_same (msk := 2 ^ Part.desks.idx) rfl _ b c (State.lendEnd_same rfl _ b (.refl _))).same .desks rfl
  rw [State.desk_congr hdesks, s.enqueued_queue b e (fun d hd => (mem_maskDesks.mp hd).1) (maskDesks_nodup mask) hk, he]
  simp only [mem_maskDesks, hk, true_and]

/-! ### What is legal at issue (04 R127 to R129) -/

theorem storableCause_legal {t : Tile} {rest : Option Nat} (hfmt : (Fmt.ofElem t.fmt).isSome = true) (husable : t.usable = true)
    (hrest : rest = none) : storableCause t rest = none := by
  rw [storableCause, if_neg (by rw [Option.isNone_iff_eq_none]; exact Option.isSome_iff_ne_none.mp hfmt), husable, hrest]
  rfl

theorem rawCause_legal {t : Tile} {n : Nat} (husable : t.usable = true) (hfmt : t.fmt = 4 ∨ t.fmt = 9 ∨ t.fmt = 10) (hcols : t.cols = 96)
    (hn : n ≤ t.rows) : rawCause n t = none := by
  have hcode : (Fmt.ofCode t.fmt).isNone = false := by obtain h | h | h := hfmt <;> rw [h] <;> rfl
  rw [rawCause, hcode, husable]
  have hshape : (t.fmt = 4 ∨ t.fmt = 9 ∨ t.fmt = 10) ∧ t.cols = 96 ∧ n ≤ t.rows := ⟨hfmt, hcols, hn⟩
  exact if_pos hshape

/-! ### Leases (04 R117, R130) -/

theorem State.wanted_empty {s : State} {b : Nat} {c : Ctx} {mask : Nat} : (s.wanted b c mask).isEmpty = true ↔
    ∀ k < 4, mask.testBit k = true → s.code2 (A.benchLease b) F.benchLease.HOLD k = c.code := by
  rw [List.isEmpty_iff, State.wanted, List.filter_eq_nil_iff]
  simp only [mem_maskDesks, bne_iff_ne, ne_eq, not_not, and_imp]

/-- A request of a thread while the other one waits for no Desk goes to the arbiter. -/
theorem execDeskL_waits {s : State} {b : BenchNo} {c : Ctx} {mask : Fin 16} (h : s.issues b c { dwl := false } = true)
    (hwanted : ¬ (s.wanted b c mask).isEmpty = true) (hother : s.leaseWait b (otherThr c).ctx = none) :
    exec (.deskL b c mask 0) s = .next (s.doneBlock b c (.lease mask s.pulse)) := by
  have hgo : ∀ k, s.issue b c { dwl := false, rsv := (0 : BitVec 52).toNat } k = k s := State.issue_of_issues h
  show execDeskL b c mask 0 s = _
  rw [execDeskL, hgo]
  simp only [hother, if_neg hwanted, Bool.not_false, if_true]

theorem execDeskL_holds {s : State} {b : BenchNo} {c : Ctx} {mask : Fin 16} (h : s.issues b c { dwl := false } = true)
    (hwanted : (s.wanted b c mask).isEmpty = true) : exec (.deskL b c mask 0) s = .next (s.done b c) := by
  have hgo : ∀ k, s.issue b c { dwl := false, rsv := (0 : BitVec 52).toNat } k = k s := State.issue_of_issues h
  show execDeskL b c mask 0 s = _
  rw [execDeskL, hgo]
  simp only [if_pos hwanted]

/-- The one request that waits is granted when it can be. -/
theorem State.arbitrate_single {s : State} {b : Nat} {c : Ctx} {mask : Nat} (hc : c ≠ .D) (hwait : s.leaseWait b c = some mask)
    (hother : s.leaseWait b (otherThr c).ctx = none) (hgrant : s.grantable b c mask = true) : s.arbitrate b = s.grant b c mask := by
  have hsome : (some mask).filter (s.grantable b c) = some mask := Option.filter_some_pos hgrant
  cases c with
  | D => exact absurd rfl hc
  | F =>
    rw [State.arbitrate, hwait, hsome, show s.leaseWait b .B = none from hother]
    rfl
  | B =>
    rw [State.arbitrate, hwait, hsome, show s.leaseWait b .F = none from hother]
    rfl

/-- The Desks that a thread receives, before it goes on. -/
def State.leased (s : State) (b : Nat) (c : Ctx) (ds : List Nat) : State := s.setCodesWhere (A.benchLease b) F.benchLease.HOLD c.code (fun _ => true) ds

theorem State.grant_eq (s : State) (b : Nat) (c : Ctx) (mask : Nat) : s.grant b c mask = (s.leased b c (maskDesks mask)).wake b c := by
  rw [State.grant, State.leased, State.setCodesWhere]
  simp only [if_true]

theorem State.grant_shown (s : State) {b : Nat} (hb : b < 800) (c : Ctx) (mask : Nat) : (s.grant b c mask).runsAgain b c ∧
    (s.grant b c mask).mem = s.mem ∧ ∀ k < 4, (s.grant b c mask).code2 (A.benchLease b) F.benchLease.HOLD k =
      if mask.testBit k = true then c.code else s.code2 (A.benchLease b) F.benchLease.HOLD k := by
  obtain ⟨-, -, -, -, -, -, -, hlsThr, hlsLent⟩ := threadRegs_apart hb (c := c)
  rw [State.grant_eq]
  refine ⟨State.wake_runsAgain _ hb c, (State.wake_mem ..).trans
    ((State.setCodesWhere_same (msk := 2 ^ Part.mem.idx) rfl s _ _ _ _ _).same .mem rfl), fun k hk => ?_⟩
  have hkept : ((s.leased b c (maskDesks mask)).wake b c).code2 (A.benchLease b) F.benchLease.HOLD k =
      (s.leased b c (maskDesks mask)).code2 (A.benchLease b) F.benchLease.HOLD k :=
    congrArg (bits · _ _) (State.fld_of_rd (State.rd_wake_ne _ hlsThr hlsLent) _)
  rw [hkept, State.leased, State.code2_setCodesWhere _ _ (by decide) (by cases c <;> decide) _ _
    (by simp [F.benchLease.HOLD, Fld.width]; omega)]
  simp only [mem_maskDesks, hk, true_and, and_true]

end Sys2Proof.Machine
open Sys2Proof Sys2Proof.Machine

/-- Settles O20: each instruction joins the queues of its mask once its checks pass, DESK.L asks only where a Desk is not held,
and the arbiter grants the one request that waits. -/
theorem deskInstructions : Obligations.DeskInstructions := by
  unfold Obligations.DeskInstructions
  intro b c d mask set sl j n kp td s tl htl
  have hb : b.val < 800 := b.isLt
  subst htl
  refine ⟨fun h q hq hlegal hfree => ?queued, fun h => ⟨fun hheld => ?held, fun ⟨k, hk, hmask, hnot⟩ hother => ?waits⟩,
    fun hc hwait hother hgrant => ?granted⟩
  case queued =>
    simp only [List.mem_cons, List.not_mem_nil, or_false] at hq
    obtain rfl | rfl | rfl | rfl | rfl | rfl := hq
    · obtain ⟨hfmt, husable, hrows, hcols⟩ := of_decide_eq_true hlegal
      exact ⟨_, rfl, State.deskIssue_joins hb h (storableCause_legal hfmt husable (if_pos ⟨hrows, hcols⟩)) hfree⟩
    · obtain ⟨hmask, hfmt, husable, hrows, hcols⟩ := of_decide_eq_true hlegal
      exact ⟨_, rfl, State.deskIssue_joins hb h
        ((if_neg hmask).trans (storableCause_legal hfmt husable (if_pos ⟨hrows, hcols⟩))) hfree⟩
    · obtain ⟨hfmt, husable, hepi, hcols, hrows⟩ := of_decide_eq_true hlegal
      exact ⟨_, rfl, State.deskIssue_joins hb h (storableCause_legal hfmt husable
        ((if_neg (by rw [hepi]; decide)).trans (if_pos ⟨hcols, hrows⟩))) hfree⟩
    · obtain ⟨husable, hfmt, hcols, hrows⟩ := of_decide_eq_true hlegal
      exact ⟨_, rfl, State.deskIssue_joins hb h (rawCause_legal husable hfmt hcols hrows) hfree⟩
    · obtain ⟨husable, hfmt, hcols, hrows⟩ := of_decide_eq_true hlegal
      exact ⟨_, rfl, State.deskIssue_joins hb h (rawCause_legal husable hfmt hcols hrows) hfree⟩
    · exact ⟨_, rfl, State.deskIssue_joins hb h rfl hfree⟩
  case held => exact ⟨_, execDeskL_holds h (State.wanted_empty.mpr hheld), s.wentOn_done b c⟩
  case waits =>
    have hwanted : ¬ (s.wanted b c mask).isEmpty = true := fun hnone => hnot (State.wanted_empty.mp hnone k hk hmask)
    exact ⟨_, execDeskL_waits h hwanted hother, (State.sameRun.refl s b c).doneBlock hb _⟩
  case granted =>
    obtain ⟨⟨hblk, hstate⟩, hmem, hcodes⟩ := s.grant_shown hb c mask
    refine ⟨_, rfl, ?_⟩
    rw [State.arbitrate_single hc hwait hother hgrant]
    exact ⟨hblk, hstate hc, hmem, hcodes⟩

end

section
/-!
PROOF. DeskLoadsAndPasses (02 R55 to R57; 03 R64 to R76, R86 to R92): loads, the start of passes, the commit of a row, and rows
that fail their checks.
-/
namespace Sys2Proof.Machine

section
variable {msk : Nat} {was : State}

theorem State.trapRecord_same (hfree : msk &&& 67108865 = 0) (s b c ev pc opc) (hs : was.Same msk s) :
    was.Same msk (s.trapRecord b c ev pc opc) := by
  unfold State.trapRecord
  conv => zeta
  with_reducible repeat' first
    | assumption | exact free_mono hfree rfl | apply State.setFld_same | apply State.hwSet_same

theorem State.syncSend_same (hfree : msk &&& 3288335113 = 0) (s counter w op pc) (hs : was.Same msk s) :
    was.Same msk (s.syncSend counter w op pc).1 := by
  unfold State.syncSend
  conv => zeta
  with_reducible repeat' first
    | assumption | exact free_mono hfree rfl | apply State.putSync_same | apply State.submit_same | refine fst_same ?_ (by assumption)
    | refine snd_same ?_ (by assumption) | split

theorem State.stop_same (hfree : msk &&& 3288344345 = 0) (s b c cause faddr) (hs : was.Same msk s) :
    was.Same msk (s.stop b c cause faddr) := by
  unfold State.stop
  conv => zeta
  with_reducible repeat' first
    | assumption | exact free_mono hfree rfl | apply State.dropQueued_same | apply State.modCtx_same | apply State.syncSend_same
    | apply State.stopNow_same | apply State.syncEvent_same | apply State.putTmr_same | refine fst_same ?_ (by assumption)
    | refine snd_same ?_ (by assumption) | split

theorem State.trapStop_same (hfree : msk &&& 3288344345 = 0) (s b c ev pc opc) (hs : was.Same msk s) :
    was.Same msk (s.trapStop b c ev pc opc) := by
  unfold State.trapStop
  conv => zeta
  with_reducible repeat' first
    | assumption | exact free_mono hfree rfl | apply State.hwSet_same | apply State.trapRecord_same | apply State.putCyc_same
    | apply State.stop_same | apply State.raise_same | split

theorem State.trap_same (hfree : msk &&& 3288344345 = 0) (s b c sup evs pc opc) (hs : was.Same msk s) :
    was.Same msk (s.trap b c sup evs pc opc).1 := by
  unfold State.trap
  conv => zeta
  with_reducible repeat' first
    | assumption | exact free_mono hfree rfl | apply State.incSat_same | apply State.trapStop_same | apply State.trapRecord_same
    | apply State.putEvt_same | apply State.putCyc_same | refine fst_same ?_ (by assumption) | refine snd_same ?_ (by assumption)
    | split

theorem State.showSpares_same (hfree : msk &&& 1 = 0) (s c) (hs : was.Same msk s) : was.Same msk (s.showSpares c) := by
  unfold State.showSpares
  conv => zeta
  with_reducible repeat' first | assumption | exact free_mono hfree rfl | apply State.setFld_same

theorem State.deskFault_same (hfree : msk &&& 9241 = 0) (s b d set) (hs : was.Same msk s) : was.Same msk (s.deskFault b d set) := by
  unfold State.deskFault
  conv => zeta
  with_reducible repeat' first
    | assumption | exact free_mono hfree rfl | apply State.setFld_same | apply State.setBit_same | apply State.raise_same
    | apply State.modBench_same | apply State.modDesk_same | apply State.health_same | apply State.showSpares_same
    | refine foldl_same _ _ _ (fun _ _ _ => ?_) ?_ | refine foldlFst_same _ _ _ (fun _ _ _ => ?_) ?_
    | refine foldlSnd_same _ _ _ (fun _ _ _ => ?_) ?_ | refine fst_same ?_ (by assumption) | refine snd_same ?_ (by assumption) | split

theorem State.loadDone_same (hfree : msk &&& 3288344345 = 0) (s b d) (hs : was.Same msk s) : was.Same msk (s.loadDone b d) := by
  unfold State.loadDone
  conv => zeta
  with_reducible repeat' first
    | assumption | exact free_mono hfree rfl | apply State.trap_same | apply State.raiseFlags_same | apply State.modDesk_same
    | apply State.setFld_same | apply State.rest_same | apply State.setBit_same | refine fst_same ?_ (by assumption)
    | refine snd_same ?_ (by assumption) | split

theorem State.drawerWrite_same (hfree : msk &&& 16 = 0) (s b d set row v) (hs : was.Same msk s) :
    was.Same msk (s.drawerWrite b d set row v) := by
  unfold State.drawerWrite
  conv => zeta
  with_reducible repeat' first | assumption | exact free_mono hfree rfl | apply State.modDesk_same

theorem State.replay_same (hfree : msk &&& 67108865 = 0) (s b d set parity residue) (hs : was.Same msk s) :
    was.Same msk (s.replay b d set parity residue) := by
  unfold State.replay
  conv => zeta
  with_reducible repeat' first
    | assumption | exact free_mono hfree rfl | apply State.incSat_same | apply State.hwSet_same | apply State.setFld_same | split

theorem State.checkRow_same (hfree : msk &&& 67108881 = 0) (s b d set) (hs : was.Same msk s) : was.Same msk (s.checkRow b d set) := by
  unfold State.checkRow
  conv => zeta
  with_reducible repeat' first | assumption | exact free_mono hfree rfl | apply State.modDesk_same | apply State.replay_same | split

theorem State.drawerRead_same (hfree : msk &&& 67109905 = 0) (s b d set row u) (hs : was.Same msk s) :
    was.Same msk (s.drawerRead b d set row u) := by
  unfold State.drawerRead
  conv => zeta
  with_reducible repeat' first
    | assumption | exact free_mono hfree rfl | apply State.modDesk_same | apply State.setFld_same | apply State.incSat_same
    | apply State.hwSet_same | apply State.setBit_same | apply State.raise_same | split

theorem State.showBusy_same (hfree : msk &&& 9 = 0) (s b d) (hs : was.Same msk s) : was.Same msk (s.showBusy b d) := by
  unfold State.showBusy
  conv => zeta
  with_reducible repeat' first | assumption | exact free_mono hfree rfl | apply State.setFld_same | apply State.rest_same

theorem State.commitOn_same (hfree : msk &&& 3288344345 = 0) (s b d p u sup) (hs : was.Same msk s) :
    was.Same msk (s.commitOn b d p u sup) := by
  unfold State.commitOn
  conv => zeta
  with_reducible repeat' first
    | assumption | exact free_mono hfree rfl | apply State.checkRow_same | apply State.drawerRead_same | apply State.trap_same
    | apply State.raiseFlags_same | apply State.drawerWrite_same | apply State.incWrap_same | apply State.modDesk_same
    | apply State.showBusy_same | refine fst_same ?_ (by assumption) | refine snd_same ?_ (by assumption) | split

theorem State.setCode2_same (hfree : msk &&& 1 = 0) (s a f i x) (hs : was.Same msk s) : was.Same msk (s.setCode2 a f i x) := by
  unfold State.setCode2
  with_reducible repeat' first | assumption | exact free_mono hfree rfl | apply State.setFld_same

theorem State.openSet_same (hfree : msk &&& 17 = 0) (s b d set c) (hs : was.Same msk s) : was.Same msk (s.openSet b d set c) := by
  unfold State.openSet
  conv => zeta
  with_reducible repeat' first
    | assumption | exact free_mono hfree rfl | apply State.setBit_same | apply State.setCode2_same | apply State.modDesk_same | split

theorem State.winRoll_same (hfree : msk &&& 16 = 0) (s b d) (hs : was.Same msk s) : was.Same msk (s.winRoll b d) := by
  unfold State.winRoll
  conv => zeta
  with_reducible repeat' first | assumption | exact free_mono hfree rfl | apply State.modDesk_same | split

theorem State.attemptFail_same (hfree : msk &&& 67118105 = 0) (s b d set parity pass row) (hs : was.Same msk s) :
    was.Same msk (s.attemptFail b d set parity pass row).1 := by
  unfold State.attemptFail
  conv => zeta
  with_reducible repeat' first
    | assumption | exact free_mono hfree rfl | apply State.replay_same | apply State.winRoll_same | apply State.modDesk_same
    | apply State.deskFault_same | refine fst_same ?_ (by assumption) | refine snd_same ?_ (by assumption) | split

theorem State.popEnt_same (hfree : msk &&& 16 = 0) (s b ds e) (hs : was.Same msk s) : was.Same msk (s.popEnt b ds e) := by
  unfold State.popEnt
  with_reducible repeat' first
    | assumption | exact free_mono hfree rfl | apply State.modDesk_same | refine foldl_same _ _ _ (fun _ _ _ => ?_) ?_
    | refine foldlFst_same _ _ _ (fun _ _ _ => ?_) ?_ | refine foldlSnd_same _ _ _ (fun _ _ _ => ?_) ?_
    | refine fst_same ?_ (by assumption) | refine snd_same ?_ (by assumption) | split

theorem State.headFault_same (hfree : msk &&& 3288344345 = 0) (s b ds e cause) (hs : was.Same msk s) :
    was.Same msk (s.headFault b ds e cause) := by
  unfold State.headFault
  with_reducible repeat' first
    | assumption | exact free_mono hfree rfl | apply State.rest_same | apply State.stop_same | apply State.popEnt_same

theorem State.loadStart_same (hfree : msk &&& 3288344345 = 0) (s b d) (hs : was.Same msk s) : was.Same msk (s.loadStart b d) := by
  unfold State.loadStart
  conv => zeta
  with_reducible repeat' first
    | assumption | exact free_mono hfree rfl | apply State.headFault_same | apply State.popEnt_same | apply State.modDesk_same
    | apply State.setFld_same | apply State.setCode2_same | split

theorem State.passStart_same (hfree : msk &&& 3288344345 = 0) (s b d) (hs : was.Same msk s) : was.Same msk (s.passStart b d) := by
  unfold State.passStart
  conv => zeta
  with_reducible repeat' first
    | assumption | exact free_mono hfree rfl | apply State.headFault_same | apply State.popEnt_same | apply State.openSet_same
    | apply State.setFld_same | apply State.modDesk_same | refine foldl_same _ _ _ (fun _ _ _ => ?_) ?_
    | refine foldlFst_same _ _ _ (fun _ _ _ => ?_) ?_ | refine foldlSnd_same _ _ _ (fun _ _ _ => ?_) ?_
    | refine fst_same ?_ (by assumption) | refine snd_same ?_ (by assumption) | split

theorem State.rowCommit_same (hfree : msk &&& 3288344345 = 0) (s b d us) (hs : was.Same msk s) : was.Same msk (s.rowCommit b d us) := by
  unfold State.rowCommit
  conv => zeta
  with_reducible repeat' first
    | assumption | exact free_mono hfree rfl | apply State.commitOn_same | refine foldl_same _ _ _ (fun _ _ _ => ?_) ?_
    | refine foldlFst_same _ _ _ (fun _ _ _ => ?_) ?_ | refine foldlSnd_same _ _ _ (fun _ _ _ => ?_) ?_
    | refine fst_same ?_ (by assumption) | refine snd_same ?_ (by assumption) | split

theorem State.bufferRows_same (hfree : msk &&& 16 = 0) (s b d p) (hs : was.Same msk s) : was.Same msk (s.bufferRows b d p) := by
  unfold State.bufferRows
  conv => zeta
  with_reducible repeat' first
    | assumption | exact free_mono hfree rfl | apply State.modDesk_same | refine foldl_same _ _ _ (fun _ _ _ => ?_) ?_
    | refine foldlFst_same _ _ _ (fun _ _ _ => ?_) ?_ | refine foldlSnd_same _ _ _ (fun _ _ _ => ?_) ?_
    | refine fst_same ?_ (by assumption) | refine snd_same ?_ (by assumption) | split

theorem State.checkFail_same (hfree : msk &&& 67118105 = 0) (s b d parity drain) (hs : was.Same msk s) :
    was.Same msk (s.checkFail b d parity drain) := by
  unfold State.checkFail
  conv => zeta
  with_reducible repeat' first
    | assumption | exact free_mono hfree rfl | apply State.bufferRows_same | apply State.attemptFail_same
    | refine fst_same ?_ (by assumption) | refine snd_same ?_ (by assumption) | split

end

/-! ### Entries at the head of a queue (04 R126) -/

/-- An entry leaves the one queue in which it stands first. -/
theorem State.popEnt_single {s : State} {b d : Nat} {e : DeskEnt} (h : (s.desk b d).queue.head? = some e) :
    s.popEnt b [d] e = s.modDesk b d (fun x => { x with queue := x.queue.tail }) := by
  rw [State.popEnt, List.foldl_cons, List.foldl_nil, if_pos (by rw [h]; exact beq_self_eq_true _)]

theorem FMap.set_set {α : Type} (m : FMap α) (k : Nat) (x y : α) : FMap.set (FMap.set m k x) k y = FMap.set m k y := by
  induction m with
  | nil => simp [FMap.set]
  | cons p m ih =>
    rcases Nat.lt_trichotomy k p.1 with h | h | h
    · simp [FMap.set, h]
    · simp [FMap.set, h]
    · have hlt : ¬ k < p.1 := by omega
      have hne : k ≠ p.1 := by omega
      simp [FMap.set, hlt, hne, ih]

theorem State.modDesk_modDesk (s : State) (b d : Nat) (f g : Desk → Desk) :
    (s.modDesk b d f).modDesk b d g = s.modDesk b d (fun x => g (f x)) := by
  rw [State.modDesk, State.desk_modDesk_same, State.modDesk, State.modDesk]
  show s.putDesks (FMap.set (FMap.set s.desks _ _) _ _) = s.putDesks (FMap.set s.desks _ _)
  rw [FMap.set_set]

theorem deskStat_ne_deskOwn (b d : Nat) : A.deskOwn b d ≠ A.deskStat b d := by
  simp only [A.deskOwn, A.deskStat]
  omega

/-! ### Loads (03 R72 to R74, R97) -/

/-- The load under way of a slot: the block that the slot held is gone, and both where they are one. -/
def Desk.loading (x : Desk) (sl : Nat) (e : DeskEnt) (wide : Bool) : Desk :=
  { x with
    queue := x.queue.tail
    load := some (sl, e)
    slots := if wide || x.wide then [] else FMap.del x.slots sl
    wide := wide }

theorem Desk.slotFmt_loading (x : Desk) (sl : Nat) (e : DeskEnt) (wide : Bool) :
    (x.loading sl e wide).slotFmt sl = some (tileOf e.desc).fmt := by
  have hempty : FMap.get? (x.loading sl e wide).slots sl = none := by
    show FMap.get? (if wide || x.wide then [] else FMap.del x.slots sl) sl = none
    split
    · rfl
    · exact FMap.get?_del_same ..
  have hload : (x.loading sl e wide).load = some (sl, e) := rfl
  rw [Desk.slotFmt, hempty, hload]
  exact if_pos (beq_self_eq_true _)

/-- The status of the slots of a Desk, and their owners, while one loads. -/
def State.slotsLoading (s : State) (b d sl : Nat) (valid : Nat) (code : Nat) (wide : Bool) : State :=
  let u := ((s.setFld (A.deskStat b d) F.deskStat.SLOT_VALID valid).setFld (A.deskStat b d) F.deskStat.SLOT_LOADING
    (if wide then 3 else 2 ^ sl)).setCode2 (A.deskOwn b d) F.deskOwn.SLOT sl code
  if wide then u.setCode2 (A.deskOwn b d) F.deskOwn.SLOT 1 code else u

theorem State.slotsLoading_shown (s : State) (b d : Nat) {sl valid code : Nat} (hsl : sl < 2) (hvalid : valid.testBit sl = false)
    (hcode : code < 4) {wide : Bool} (hwide : wide = true → sl = 0) :
    (s.slotsLoading b d sl valid code wide).desk b d = s.desk b d ∧
    (s.slotsLoading b d sl valid code wide).slotOwner b d sl = code ∧
    (s.slotsLoading b d sl valid code wide).fld (A.deskStat b d) F.deskStat.SLOT_LOADING = (if wide then 3 else 2 ^ sl) ∧
    (s.slotsLoading b d sl valid code wide).fldBit (A.deskStat b d) F.deskStat.SLOT_VALID sl = false := by
  have hne := deskStat_ne_deskOwn b d
  have hwidth : 2 * sl + 1 < F.deskOwn.SLOT.width := by simp only [F.deskOwn.SLOT, Fld.width]; omega
  obtain ⟨u, hu⟩ : ∃ u, u = (s.setFld (A.deskStat b d) F.deskStat.SLOT_VALID valid).setFld (A.deskStat b d) F.deskStat.SLOT_LOADING
    (if wide then 3 else 2 ^ sl) := ⟨_, rfl⟩
  have hloading : u.fld (A.deskStat b d) F.deskStat.SLOT_LOADING = (if wide then 3 else 2 ^ sl) := by
    rw [hu, State.fld_setFld_same _ _ _ _ (by decide)]
    refine Nat.mod_eq_of_lt ?_
    show (if wide = true then 3 else 2 ^ sl) < 4
    have : sl = 0 ∨ sl = 1 := by omega
    cases wide <;> obtain rfl | rfl := this <;> decide
  have hgone : u.fldBit (A.deskStat b d) F.deskStat.SLOT_VALID sl = false := by
    rw [hu, State.fldBit_setFld_field _ _ (by decide) (by decide) (by decide), State.fldBit, State.fld_setFld_same _ _ _ _ (by decide),
      Nat.testBit_mod_two_pow, hvalid, Bool.and_false]
  have howner : ∀ v : State, (v.setCode2 (A.deskOwn b d) F.deskOwn.SLOT sl code).slotOwner b d sl = code := fun v => by
    rw [State.slotOwner, State.code2_setCode2 _ _ _ (by decide) _ _ _ hwidth, if_pos rfl, Nat.mod_eq_of_lt hcode]
  have hshown : s.slotsLoading b d sl valid code wide = if wide then (u.setCode2 (A.deskOwn b d) F.deskOwn.SLOT sl code).setCode2
      (A.deskOwn b d) F.deskOwn.SLOT 1 code else u.setCode2 (A.deskOwn b d) F.deskOwn.SLOT sl code := by rw [hu]; rfl
  have hdesk : u.desk b d = s.desk b d := by rw [hu]; rfl
  rw [hshown]
  cases wide with
  | false =>
    exact ⟨hdesk, howner u, (State.fld_of_rd (State.rd_setCode2_ne _ _ _ _ hne.symm) _).trans hloading,
      (State.fldBit_of_rd (State.rd_setCode2_ne _ _ _ _ hne.symm) _ _).trans hgone⟩
  | true =>
    refine ⟨hdesk, ?_, (State.fld_of_rd ((State.rd_setCode2_ne _ _ _ _ hne.symm).trans (State.rd_setCode2_ne _ _ _ _ hne.symm)) _).trans
      hloading, (State.fldBit_of_rd ((State.rd_setCode2_ne _ _ _ _ hne.symm).trans (State.rd_setCode2_ne _ _ _ _ hne.symm)) _ _).trans
      hgone⟩
    have hother : sl ≠ 1 := by rw [hwide rfl]; decide
    refine Eq.trans ?_ (howner u)
    rw [State.slotOwner, if_pos rfl, State.code2_setCode2 _ _ _ (by decide) _ _ _ hwidth, if_neg hother, State.slotOwner]

/-- A load that nothing holds back starts. -/
theorem State.loadStart_begins {s : State} {b d : Nat} {e : DeskEnt} {sl : Nat} (hop : e.op = .load sl) (hhead : s.atHead b d e)
    (hwide : (tileOf e.desc).fmt = 4 → sl = 0) (hidle : (s.desk b d).load = none) (hfree : (s.desk b d).slotBusy sl = false)
    (hfree1 : (s.desk b d).slotBusy 1 = false) : s.loadStart b d =
      (s.modDesk b d (fun x => x.loading sl e ((tileOf e.desc).fmt == 4))).slotsLoading b d sl
        (if (tileOf e.desc).fmt == 4 || (s.desk b d).wide then 0
          else setBits (s.fld (A.deskStat b d) F.deskStat.SLOT_VALID) sl sl 0) e.ctx.code ((tileOf e.desc).fmt == 4) := by
  obtain ⟨hfirst, hworks⟩ := hhead
  have hlegal : ((tileOf e.desc).fmt == 4 && sl == 1) = false := by
    by_cases h : (tileOf e.desc).fmt = 4
    · rw [hwide h, Bool.and_eq_false_iff]; exact .inr rfl
    · rw [beq_eq_false_iff_ne.mpr h, Bool.false_and]
  obtain ⟨rest, hq⟩ := List.head?_eq_some_iff.mp hfirst
  rw [State.loadStart]
  simp only [hq, hop, hworks, hlegal, hidle, hfree, hfree1, Bool.not_true, Bool.false_eq_true, if_false, Option.isSome_none,
    Bool.or_self, Bool.and_false, State.popEnt_single hfirst, State.modDesk_modDesk]
  rfl

/-! ### The end of a load (03 R72) -/

theorem FMap.get?_map_mk {α : Type} (g : Nat → α) {l : List Nat} {k : Nat} (hk : k ∈ l) :
    FMap.get? (l.map (fun i => (i, g i))) k = some (g k) := by
  induction l with
  | nil => exact absurd hk List.not_mem_nil
  | cons i l ih =>
    rw [List.map_cons, FMap.get?]
    by_cases hki : k = i
    · rw [if_pos hki, hki]
    · rw [if_neg hki]
      exact ih ((List.mem_cons.mp hk).resolve_left hki)

/-- The rows of a tile in a Shelf. -/
def State.tileRows (s : State) (b : Nat) (t : Tile) : FMap (List Nat) := (List.range t.rows).map (fun k => (k, s.tileRow b t k t.cols))

theorem State.tileRows_elem (s : State) (b : Nat) (t : Tile) {r k : Nat} (hr : r < t.rows) (hk : k < t.cols) :
    Slot.elem ⟨t.fmt, s.tileRows b t⟩ r k = s.shelfNum b (t.elem r k) t.width := by
  rw [Slot.elem, FMap.getD, State.tileRows, FMap.get?_map_mk _ (List.mem_range.mpr hr), Option.getD_some, State.tileRow,
    List.getD_eq_getElem _ _ (by rw [List.length_map, List.length_range]; exact hk), List.getElem_map, List.getElem_range]

/-- A block that stands in its slot, which is valid. -/
def State.loadFilled (s : State) (b d sl : Nat) (y : Slot) : State :=
  (((s.modDesk b d (fun x => { x with load := none, slots := FMap.set x.slots sl y })).setFld (A.deskStat b d)
    F.deskStat.SLOT_LOADING 0).setBit (A.deskStat b d) F.deskStat.SLOT_VALID sl true).rest b

/-- A load completes when the Desk works and no line of its tile is pending, whatever a poisoned line of it does first. -/
theorem State.loadDone_fills {s : State} {b d sl : Nat} {e : DeskEnt} (hload : (s.desk b d).load = some (sl, e))
    (hworks : s.deskWorks b d = true) (hpend : s.tilePending b (tileOf e.desc) (tileOf e.desc).rows (tileOf e.desc).cols = false) :
    ∃ u : State, s.loadDone b d = u.loadFilled b d sl ⟨(tileOf e.desc).fmt, s.tileRows b (tileOf e.desc)⟩ := by
  rw [State.loadDone]
  simp only [hload, hworks, hpend, Bool.not_true, Bool.or_self, Bool.false_eq_true, if_false]
  exact ⟨_, rfl⟩

theorem State.loadFilled_shown (s : State) (b d : Nat) {sl : Nat} (hsl : sl < 2) (y : Slot) :
    ((s.loadFilled b d sl y).desk b d).load = none ∧ FMap.get? ((s.loadFilled b d sl y).desk b d).slots sl = some y ∧
    (s.loadFilled b d sl y).fldBit (A.deskStat b d) F.deskStat.SLOT_VALID sl = true ∧
    (s.loadFilled b d sl y).fld (A.deskStat b d) F.deskStat.SLOT_LOADING = 0 := by
  have hdesk : (s.loadFilled b d sl y).desk b d = { s.desk b d with load := none, slots := FMap.set (s.desk b d).slots sl y } :=
    s.desk_modDesk_same b d (fun x => { x with load := none, slots := FMap.set x.slots sl y })
  refine ⟨by rw [hdesk], by rw [hdesk]; exact FMap.get?_set_same .., ?_, ?_⟩
  · refine Eq.trans (b := ((s.modDesk b d _).setFld _ _ _).setBit _ _ _ _ |>.fldBit _ _ sl) rfl ?_
    rw [State.fldBit_setBit _ _ (by decide) _ _ (show sl < F.deskStat.SLOT_VALID.width from hsl), if_pos rfl]
  · refine Eq.trans (b := ((s.modDesk b d _).setFld _ _ _).setBit _ _ _ _ |>.fld _ _) rfl ?_
    exact (State.fld_setFld_field _ _ _ _ _ (by decide) (by decide) (by decide)).trans
      (State.fld_setFld_same _ _ _ _ (by decide))

/-! ### The start of passes (03 R76, R86) -/

theorem State.popEnt_regs (s : State) (b : Nat) (ds : List Nat) (e : DeskEnt) : (s.popEnt b ds e).regs = s.regs :=
  (State.popEnt_same (msk := 2 ^ Part.regs.idx) rfl s b ds e (.refl s)).same .regs rfl

/-- An entry leaves every queue in which it stands first. -/
theorem State.popEnt_desk {s : State} {b : Nat} {e : DeskEnt} {ds : List Nat} (hds : ∀ q ∈ ds, q < 4) (hnodup : ds.Nodup)
    (hhead : ∀ q ∈ ds, (s.desk b q).queue.head? = some e) {q : Nat} (hq : q < 4) :
    (s.popEnt b ds e).desk b q = if q ∈ ds then { s.desk b q with queue := (s.desk b q).queue.tail } else s.desk b q := by
  induction ds generalizing s with
  | nil => rw [if_neg List.not_mem_nil]; rfl
  | cons x ds ih =>
    obtain ⟨hx, hnodup⟩ := List.nodup_cons.mp hnodup
    have hpop : s.popEnt b (x :: ds) e = (s.modDesk b x (fun y => { y with queue := y.queue.tail })).popEnt b ds e := by
      rw [← State.popEnt_single (hhead x List.mem_cons_self)]
      rfl
    have hother : ∀ p < 4, p ≠ x → (s.modDesk b x (fun y => { y with queue := y.queue.tail })).desk b p = s.desk b p := fun p hp hpx =>
      State.desk_modDesk_ne _ _ (fun h => hpx (Prod.mk.inj h).2) (hds x List.mem_cons_self) hp
    have hmem : ∀ p ∈ ds, p ∈ x :: ds := fun p hp => List.mem_cons_of_mem _ hp
    rw [hpop, ih (fun p hp => hds p (hmem p hp)) hnodup fun p hp => by
      rw [hother p (hds p (hmem p hp)) (fun h => hx (h ▸ hp))]; exact hhead p (hmem p hp)]
    by_cases hqx : q = x
    · subst hqx
      rw [if_neg hx, if_pos List.mem_cons_self, State.desk_modDesk_same]
    · rw [hother q hq hqx]
      simp only [List.mem_cons, hqx, false_or]

/-- A Desk's record, its status and its owners are the same. -/
structure State.DeskSame (s t : State) (b q : Nat) : Prop where
  desk : t.desk b q = s.desk b q
  stat : t.rd (A.deskStat b q) = s.rd (A.deskStat b q)
  own : t.rd (A.deskOwn b q) = s.rd (A.deskOwn b q)

/-- A pass has begun on a Desk, its set opened for the context where it was FREE (03 R76). -/
structure State.PassBegun (s t : State) (b q : Nat) (e : DeskEnt) (set : Nat) : Prop where
  passes : (t.desk b q).passes = (s.desk b q).passes ++ [⟨e, 0⟩]
  queue : (t.desk b q).queue = (s.desk b q).queue
  used : t.setUsed b q set = true
  busy : t.fld (A.deskStat b q) F.deskStat.PASS_BUSY = 1
  owner : s.setUsed b q set = false → t.setOwner b q set = e.ctx.code

theorem State.DeskSame.begun {s t u : State} {b q set : Nat} {e : DeskEnt} (h : s.DeskSame t b q) (k : t.PassBegun u b q e set) :
    s.PassBegun u b q e set :=
  ⟨by rw [k.passes, h.desk], by rw [k.queue, h.desk], k.used, k.busy,
    fun hfree => k.owner (by rw [State.setUsed, State.fldBit_of_rd h.stat]; exact hfree)⟩

theorem State.PassBegun.same {s t u : State} {b q set : Nat} {e : DeskEnt} (h : s.PassBegun t b q e set) (k : t.DeskSame u b q) :
    s.PassBegun u b q e set :=
  ⟨by rw [k.desk, h.passes], by rw [k.desk, h.queue], (State.fldBit_of_rd k.stat _ _).trans h.used, (State.fld_of_rd k.stat _).trans h.busy,
    fun hfree => (congrArg (bits · _ _) (State.fld_of_rd k.own _)).trans (h.owner hfree)⟩

theorem State.rd_modDesk (s : State) (b d : Nat) (f : Desk → Desk) (a : Nat) : (s.modDesk b d f).rd a = s.rd a := rfl

theorem State.desk_setFld (s : State) (a : Nat) (f : Fld) (x b d : Nat) : (s.setFld a f x).desk b d = s.desk b d := rfl

theorem State.setUsed_of_rd {s t : State} {b d : Nat} (h : t.rd (A.deskStat b d) = s.rd (A.deskStat b d)) (set : Nat) :
    t.setUsed b d set = s.setUsed b d set := State.fldBit_of_rd h _ _

theorem State.setOwner_of_rd {s t : State} {b d : Nat} (h : t.rd (A.deskOwn b d) = s.rd (A.deskOwn b d)) (set : Nat) :
    t.setOwner b d set = s.setOwner b d set := congrArg (bits · _ _) (State.fld_of_rd h _)

/-- The start of a pass on one Desk. -/
def State.passOpen (s : State) (b : Nat) (e : DeskEnt) (set q : Nat) : State :=
  ((s.openSet b q set e.ctx).modDesk b q (fun x => { x with passes := x.passes ++ [⟨e, 0⟩] })).setFld (A.deskStat b q)
    F.deskStat.PASS_BUSY 1

theorem State.openSet_used {s : State} {b d set : Nat} {c : Ctx} (h : s.setUsed b d set = true) : s.openSet b d set c = s := if_pos h

/-- The registers of a FREE set that takes an owner, with the modes that it keeps. -/
def State.setTaken (s : State) (b d set code chunk : Nat) (repro : Bool) : State :=
  (((s.setBit (A.deskStat b d) F.deskStat.SET_OPEN set true).setCode2 (A.deskOwn b d) F.deskOwn.SET set code).setCode2
    (A.deskLatch b d) F.deskLatch.CHUNK set chunk).setBit (A.deskLatch b d) F.deskLatch.REPRO set repro

theorem deskSetRegs_apart (b d : Nat) : A.deskStat b d ≠ A.deskOwn b d ∧ A.deskStat b d ≠ A.deskLatch b d ∧
    A.deskOwn b d ≠ A.deskLatch b d := by
  simp only [A.deskStat, A.deskOwn, A.deskLatch]
  omega

theorem State.openSet_free {s : State} {b d set : Nat} {c : Ctx} (h : s.setUsed b d set = false) :
    ∃ chunk repro, s.openSet b d set c = (s.setTaken b d set c.code chunk repro).modDesk b d
      (fun x => { x with tot := x.tot.filter (fun p => p.1 / 256 != set) }) :=
  ⟨_, _, if_neg (by rw [h]; exact Bool.false_ne_true)⟩

theorem State.setTaken_rd_ne (s : State) {b d set code chunk : Nat} {repro : Bool} {a : Nat} (hs : a ≠ A.deskStat b d)
    (ho : a ≠ A.deskOwn b d) (hl : a ≠ A.deskLatch b d) : (s.setTaken b d set code chunk repro).rd a = s.rd a :=
  (State.rd_setBit_ne _ _ _ _ hl).trans ((State.rd_setCode2_ne _ _ _ _ hl).trans ((State.rd_setCode2_ne _ _ _ _ ho).trans
    (State.rd_setBit_ne _ _ _ _ hs)))

theorem State.setTaken_shown (s : State) (b d : Nat) {set code : Nat} (hset : set < 16) (hcode : code < 4) (chunk : Nat) (repro : Bool) :
    (s.setTaken b d set code chunk repro).setUsed b d set = true ∧ (s.setTaken b d set code chunk repro).setOwner b d set = code := by
  obtain ⟨hso, hsl, hol⟩ := deskSetRegs_apart b d
  have hkept : ∀ (v : State) {a : Nat}, a ≠ A.deskLatch b d → ((v.setCode2 (A.deskLatch b d) F.deskLatch.CHUNK set chunk).setBit
      (A.deskLatch b d) F.deskLatch.REPRO set repro).rd a = v.rd a := fun v a ha =>
    (State.rd_setBit_ne _ _ _ _ ha).trans (State.rd_setCode2_ne _ _ _ _ ha)
  constructor
  · rw [State.setUsed, State.setTaken, State.fldBit_of_rd ((hkept _ hsl).trans (State.rd_setCode2_ne _ _ _ _ hso)),
      State.fldBit_setBit _ _ (by decide) _ _ (show set < F.deskStat.SET_OPEN.width from hset), if_pos rfl]
  · refine Eq.trans (congrArg (bits · _ _) (State.fld_of_rd (hkept _ hol) _)) ?_
    refine (State.code2_setCode2 _ _ _ (by decide) _ _ _ (by simp only [F.deskOwn.SET, Fld.width]; omega)).trans ?_
    rw [if_pos rfl, Nat.mod_eq_of_lt hcode]

theorem ctxCode_lt (c : Ctx) : c.code < 4 := by cases c <;> decide

theorem State.passOpen_begun (s : State) (b q : Nat) {set : Nat} (hset : set < 16) (e : DeskEnt) :
    s.PassBegun (s.passOpen b e set q) b q e set := by
  obtain ⟨hso, -⟩ := deskSetRegs_apart b q
  obtain ⟨u, hu⟩ : ∃ u, u = s.openSet b q set e.ctx := ⟨_, rfl⟩
  have hopen : (u.desk b q).passes = (s.desk b q).passes ∧ (u.desk b q).queue = (s.desk b q).queue ∧ u.setUsed b q set = true ∧
      (s.setUsed b q set = false → u.setOwner b q set = e.ctx.code) := by
    cases hused : s.setUsed b q set with
    | true =>
      rw [hu, State.openSet_used hused]
      exact ⟨rfl, rfl, hused, fun h => absurd h.symm Bool.false_ne_true⟩
    | false =>
      obtain ⟨chunk, repro, hfree⟩ := State.openSet_free (c := e.ctx) hused
      obtain ⟨hshown, howner⟩ := s.setTaken_shown b q hset (ctxCode_lt e.ctx) chunk repro
      rw [hu, hfree, State.desk_modDesk_same]
      exact ⟨rfl, rfl, (State.setUsed_of_rd (State.rd_modDesk ..) set).trans hshown,
        fun _ => (State.setOwner_of_rd (State.rd_modDesk ..) set).trans howner⟩
  obtain ⟨hpasses, hqueue, hused, howner⟩ := hopen
  have hdesk : (s.passOpen b e set q).desk b q = { u.desk b q with passes := (u.desk b q).passes ++ [⟨e, 0⟩] } := by
    rw [hu, State.passOpen, State.desk_setFld, State.desk_modDesk_same]
  refine ⟨by rw [hdesk, hpasses], by rw [hdesk, hqueue], ?_, State.fld_setFld_same _ _ _ _ (by decide), fun hfree => ?_⟩
  · rw [State.setUsed, State.passOpen, State.fldBit_setFld_field _ _ (by decide) (by decide) (by decide), ← hu,
      State.fldBit_of_rd (State.rd_modDesk ..)]
    exact hused
  · rw [State.passOpen, State.setOwner_of_rd (State.rd_setFld_ne _ _ _ hso.symm), ← hu, State.setOwner_of_rd (State.rd_modDesk ..)]
    exact howner hfree

theorem State.passOpen_other (s : State) {b x q set : Nat} (hx : x < 4) (hq : q < 4) (hne : q ≠ x) (e : DeskEnt) :
    s.DeskSame (s.passOpen b e set x) b q := by
  have hdesk : ∀ (v : State) f, (v.modDesk b x f).desk b q = v.desk b q := fun v f =>
    State.desk_modDesk_ne _ _ (fun h => hne (Prod.mk.inj h).2) hx hq
  have hregs : ∀ a, a ≠ A.deskStat b x → a ≠ A.deskOwn b x → a ≠ A.deskLatch b x → (s.passOpen b e set x).rd a = s.rd a := by
    intro a hs ho hl
    rw [State.passOpen, State.rd_setFld_ne _ _ _ hs, State.rd_modDesk]
    cases hused : s.setUsed b x set with
    | true => rw [State.openSet_used hused]
    | false =>
      obtain ⟨chunk, repro, hfree⟩ := State.openSet_free (c := e.ctx) hused
      rw [hfree, State.rd_modDesk]
      exact s.setTaken_rd_ne hs ho hl
  refine ⟨?_, hregs _ ?_ ?_ ?_, hregs _ ?_ ?_ ?_⟩
  · rw [State.passOpen, State.desk_setFld, hdesk]
    cases hused : s.setUsed b x set with
    | true => rw [State.openSet_used hused]
    | false =>
      obtain ⟨chunk, repro, hfree⟩ := State.openSet_free (c := e.ctx) hused
      rw [hfree, hdesk]
      rfl
  all_goals simp only [A.deskStat, A.deskOwn, A.deskLatch]; omega

theorem State.passesOpen_begun (s : State) (b : Nat) {set : Nat} (hset : set < 16) (e : DeskEnt) {ds : List Nat}
    (hds : ∀ q ∈ ds, q < 4) (hnodup : ds.Nodup) {q : Nat} (hq : q ∈ ds) :
    s.PassBegun (ds.foldl (fun s x => s.passOpen b e set x) s) b q e set := by
  have hrest : ∀ (l : List Nat) (u : State), (∀ x ∈ l, x < 4) → q ∉ l → q < 4 →
      u.DeskSame (l.foldl (fun s x => s.passOpen b e set x) u) b q := by
    intro l
    induction l with
    | nil => exact fun u _ _ _ => ⟨rfl, rfl, rfl⟩
    | cons x l ih =>
      intro u hl hnot hq
      have hfirst := u.passOpen_other (b := b) (set := set) (hl x List.mem_cons_self) hq (fun h => hnot (h ▸ List.mem_cons_self)) e
      have hlater := ih (u.passOpen b e set x) (fun y hy => hl y (List.mem_cons_of_mem _ hy)) (fun h => hnot (List.mem_cons_of_mem _ h)) hq
      exact ⟨hlater.desk.trans hfirst.desk, hlater.stat.trans hfirst.stat, hlater.own.trans hfirst.own⟩
  induction ds generalizing s with
  | nil => exact absurd hq List.not_mem_nil
  | cons x ds ih =>
    obtain ⟨hx, hnodup⟩ := List.nodup_cons.mp hnodup
    have hrange : ∀ y ∈ ds, y < 4 := fun y hy => hds y (List.mem_cons_of_mem _ hy)
    rw [List.foldl_cons]
    by_cases hqx : q = x
    · subst hqx
      exact (s.passOpen_begun b q hset e).same (hrest ds _ hrange hx (hds q List.mem_cons_self))
    · have hmem : q ∈ ds := (List.mem_cons.mp hq).resolve_left hqx
      exact (s.passOpen_other (hds x List.mem_cons_self) (hrange q hmem) hqx e).begun (ih _ hrange hnodup hmem)

/-- A legal pass that stands first on every Desk of its mask, each of which rests, starts on all of them. -/
theorem State.passStart_opens {s : State} {b d m sl set j n kp : Nat} {e : DeskEnt} (hop : e.op = .pass m sl set j n kp) (hd : d < 4)
    (hmask : m.testBit d = true) (hready : ∀ q < 4, m.testBit q = true → s.atHead b q e ∧ s.passCause b q e sl set j n = none ∧
      (s.desk b q).load = none ∧ (s.desk b q).draining = [] ∧ (s.desk b q).passes = []) :
    s.passStart b d = (maskDesks m).foldl (fun s q => s.passOpen b e set q) (s.popEnt b (maskDesks m) e) := by
  have hall : ∀ q ∈ maskDesks m, s.atHead b q e ∧ s.passCause b q e sl set j n = none ∧ (s.desk b q).load = none ∧
      (s.desk b q).draining = [] ∧ (s.desk b q).passes = [] := fun q hq => hready q (mem_maskDesks.mp hq).1 (mem_maskDesks.mp hq).2
  obtain ⟨rest, hq⟩ := List.head?_eq_some_iff.mp (hready d hd hmask).1.1
  have hfirst : (maskDesks m).all (fun q => (s.desk b q).queue.head? == some e && s.deskWorks b q) = true :=
    List.all_eq_true.mpr fun q hq => by
      obtain ⟨⟨hhead, hworks⟩, -⟩ := hall q hq
      rw [hhead, hworks, beq_self_eq_true]
      rfl
  have hlegal : (maskDesks m).findSome? (fun q => s.passCause b q e sl set j n) = none :=
    List.findSome?_eq_none_iff.mpr fun q hq => (hall q hq).2.1
  rw [State.passStart]
  simp only [hq, hop, hfirst, hlegal, Bool.not_true, Bool.false_eq_true, if_false]
  refine if_neg ?_
  rw [Bool.not_eq_true, List.any_eq_false]
  intro q hq
  obtain ⟨-, -, hload, hdraining, hpasses⟩ := hall q hq
  rw [hload, State.setDraining, hdraining, Desk.uncommitted, hpasses]
  exact Bool.false_ne_true

/-! ### What a commit keeps on its way (03 R66, R67, R88 to R91; 06 R178 to R182) -/

/-- What the commit of a row reads of a Desk's record: its passes, totals, blocks and buffered rows. -/
def Desk.rowPart (x : Desk) : List PassSt × FMap (List Nat) × FMap Slot × FMap (List Nat × Option Nat) := (x.passes, x.tot, x.slots, x.buf)

/-- A register, and what the commit of a row reads of a Desk, are the same. -/
structure State.RowKept (b d a : Nat) (s t : State) : Prop where
  rd : t.rd a = s.rd a
  row : (t.desk b d).rowPart = (s.desk b d).rowPart

section
variable {b d a : Nat} {s t u : State}

theorem State.RowKept.refl (s : State) : State.RowKept b d a s s := ⟨rfl, rfl⟩

theorem State.RowKept.trans (h : State.RowKept b d a s t) (k : State.RowKept b d a t u) : State.RowKept b d a s u :=
  ⟨k.rd.trans h.rd, k.row.trans h.row⟩

theorem State.RowKept.of_desks (hrd : t.rd a = s.rd a) (hdesks : t.desks = s.desks) : State.RowKept b d a s t :=
  ⟨hrd, by rw [State.desk_congr hdesks]⟩

theorem State.RowKept.setFld (h : State.RowKept b d a s t) {r : Nat} (f : Fld) (x : Nat) (hr : a ≠ r) :
    State.RowKept b d a s (t.setFld r f x) := h.trans (.of_desks (t.rd_setFld_ne _ _ hr) rfl)

theorem State.RowKept.putCyc (h : State.RowKept b d a s t) (x : SameCycle) : State.RowKept b d a s (t.putCyc x) := ⟨h.rd, h.row⟩

theorem State.RowKept.putTmr (h : State.RowKept b d a s t) (x : Tmr) : State.RowKept b d a s (t.putTmr x) := ⟨h.rd, h.row⟩

theorem State.RowKept.putEvt (h : State.RowKept b d a s t) (x : Evt) : State.RowKept b d a s (t.putEvt x) := ⟨h.rd, h.row⟩

theorem State.RowKept.modCtx (h : State.RowKept b d a s t) (b' : Nat) (c : Ctx) (f : CtxSt → CtxSt) :
    State.RowKept b d a s (t.modCtx b' c f) := ⟨h.rd, h.row⟩

theorem State.RowKept.hwSet (h : State.RowKept b d a s t) {r : Nat} (f : Fld) (hr : a ≠ r) : State.RowKept b d a s (t.hwSet r f) :=
  h.trans (.of_desks (t.rd_hwSet_ne _ hr) rfl)

theorem State.RowKept.raise (h : State.RowKept b d a s t) (code source : Nat) (pay : List Byte) :
    State.RowKept b d a s (t.raise code source pay) :=
  h.trans (.of_desks (State.rd_of_regs (t.raise_regs ..) _)
    ((State.raise_same (msk := 2 ^ Part.desks.idx) rfl t code source pay (.refl t)).same .desks rfl))

/-- Only what a commit does not read may change in the Desk's own record. -/
theorem State.RowKept.modDesk (h : State.RowKept b d a s t) (b' : Nat) {d' : Nat} (hd : d < 4) (hd' : d' < 4) (f : Desk → Desk)
    (hf : ∀ x, (f x).rowPart = x.rowPart) : State.RowKept b d a s (t.modDesk b' d' f) := by
  refine h.trans ⟨rfl, ?_⟩
  by_cases hne : (b, d) = (b', d')
  · obtain ⟨rfl, rfl⟩ := Prod.mk.inj hne
    rw [State.desk_modDesk_same, hf]
  · rw [State.desk_modDesk_ne _ _ hne hd' hd]

theorem State.replay_kept (s : State) (b d set : Nat) (parity residue : Bool) {a : Nat} (hras : a ≠ A.deskRas b d) :
    State.RowKept b d a s (s.replay b d set parity residue) := by
  have hcounted : State.RowKept b d a s (s.incSat (A.deskRas b d) F.deskRas.REPLAYS 1) := (State.RowKept.refl s).setFld _ _ hras
  unfold State.replay
  refine State.RowKept.setFld ?_ _ _ hras
  split
  · refine State.RowKept.hwSet ?_ _ hras
    split
    · exact hcounted.hwSet _ hras
    · exact hcounted
  · split
    · exact hcounted.hwSet _ hras
    · exact hcounted

theorem State.checkRow_kept (s : State) (b : Nat) {d : Nat} (hd : d < 4) (set : Nat) {a : Nat} (hras : a ≠ A.deskRas b d) :
    State.RowKept b d a s (s.checkRow b d set) := by
  unfold State.checkRow
  dsimp only
  split
  · exact (s.replay_kept b d set _ _ hras).modDesk _ hd hd _ (fun _ => rfl)
  · exact .refl s

theorem State.drawerRead_kept (s : State) (b : Nat) {d : Nat} (hd : d < 4) (set row : Nat) (up : Upset) {a : Nat}
    (hras : a ≠ A.deskRas b d) (hstat : a ≠ A.deskStat b d) : State.RowKept b d a s (s.drawerRead b d set row up) := by
  unfold State.drawerRead
  extract_lets r bad cleaned n counted ue shown poisoned
  have hcleaned : State.RowKept b d a s cleaned := by
    show State.RowKept b d a s (if bad = true then _ else _)
    split
    · exact (State.RowKept.refl s).modDesk _ hd hd _ (fun _ => rfl)
    · exact .refl s
  have hcounted : State.RowKept b d a s counted := by
    show State.RowKept b d a s (if n = 0 then _ else _)
    split
    · exact hcleaned
    · exact State.RowKept.setFld (State.RowKept.setFld hcleaned _ _ hras) _ _ hras
  split
  · exact State.RowKept.raise (State.RowKept.setFld (State.RowKept.setFld (hcounted.hwSet _ hras) _ _ hras) _ _ hstat) _ _ _
  · exact hcounted

theorem State.dropQueued_kept (s : State) (b : Nat) (c : Ctx) (b' d : Nat) (hd : d < 4) (a : Nat) :
    State.RowKept b' d a s (s.dropQueued b c) := by
  have hfold : ∀ l : List Nat, (∀ q ∈ l, q < 4) → ∀ t, State.RowKept b' d a s t → State.RowKept b' d a s (l.foldl (fun s d =>
      if (s.desk b d).queue.any (fun e => e.ctx == c) then
        s.modDesk b d (fun x => { x with queue := x.queue.filter (fun e => e.ctx != c) })
      else s) t) := by
    intro l
    induction l with
    | nil => exact fun _ t h => h
    | cons q l ih =>
      intro hl t h
      refine ih (fun x hx => hl x (List.mem_cons_of_mem _ hx)) _ ?_
      dsimp only
      split
      · exact h.modDesk b hd (hl q List.mem_cons_self) _ (fun _ => rfl)
      · exact h
  exact hfold _ (fun q hq => List.mem_range.mp hq) s (.refl s)

end

/-- The count of rows of a Desk is no register that a trap, a stop or a flag writes. -/
theorem deskRows_apart {b d : Nat} (hb : b < 800) (hd : d < 4) (c : Ctx) (unit : Nat) : A.deskRows b d ∉ stopRegs b c ∧
    A.deskRows b d < A.tmrId ∧ A.deskRows b d ≠ A.numTrapStat b c.idx ∧ A.deskRows b d ≠ A.numTrapAddr b c.idx ∧
    A.deskRows b d ≠ A.numTrapPos b c.idx ∧ A.deskRows b d ≠ A.numTrapIdx b c.idx ∧ A.deskRows b d ≠ A.numLayer b c.idx ∧
    A.deskRows b d ≠ flagReg b unit ∧ A.deskRows b d ≠ A.deskRas b d ∧ A.deskRows b d ≠ A.deskStat b d := by
  have hidx : c.idx < 3 := by cases c <;> decide
  have hunit : A.deskRows b d ≠ flagReg b unit := by
    unfold flagReg
    split <;> simp only [A.deskRows, A.numDflag, A.numVflag] <;> omega
  refine ⟨?_, ?_, ?_, ?_, ?_, ?_, ?_, hunit, ?_, ?_⟩ <;>
    simp only [stopRegs, jobRegs, List.mem_cons, List.mem_append, List.not_mem_nil, or_false, A.benchThr, A.benchDwlStat, A.benchFaddr,
      A.numLayer, benchBase, regBase, A.mbxStat, A.evtAvailT, A.evtAvailU, A.deskRows, A.tmrId, A.numTrapStat, A.numTrapAddr,
      A.numTrapPos, A.numTrapIdx, A.deskRas, A.deskStat] <;> omega

theorem State.syncEvent_rowKept (s : State) (b d : Nat) (code pc counter : Nat) (w : Who) (reason op : Nat) :
    State.RowKept b d (A.deskRows b d) s (s.syncEvent code pc counter w reason op) :=
  .of_desks (State.rd_of_regs ((State.syncEvent_same (msk := 2 ^ Part.regs.idx) rfl s code pc counter w reason op (.refl s)).same .regs rfl) _)
    ((State.syncEvent_same (msk := 2 ^ Part.desks.idx) rfl s code pc counter w reason op (.refl s)).same .desks rfl)

section
variable {b d : Nat} (hb : b < 800) (hd : d < 4)
include hb hd

/-- Entries of its queues are all that a stop takes from a Desk (04 R105). -/
theorem State.stopNow_rowKept (s : State) (c : Ctx) (cause : Nat) (faddr : Option Nat) :
    State.RowKept b d (A.deskRows b d) s (s.stopNow b c cause faddr) := by
  obtain ⟨hstop, -⟩ := deskRows_apart hb hd c 0
  have hcleared : State.RowKept b d (A.deskRows b d) s (s.stopCleared b c) :=
    ((State.RowKept.refl s).modCtx b c _).trans (State.dropQueued_kept _ b c b d hd _)
  refine ⟨(s.stopNow_stopped hb c cause faddr).regs _ hstop, ?_⟩
  obtain ⟨arrived, rested, hnow⟩ := s.stopNow_eq b c cause faddr
  rw [hnow, State.desk_congr ((State.stopFollowed_same (msk := 2 ^ Part.desks.idx) rfl _ _ _ _ _ _).same .desks rfl),
    State.desk_congr ((State.stopReported_same (msk := 2 ^ Part.desks.idx) rfl _ _ _ _ _).same .desks rfl), State.stopRecorded,
    State.desk_congr ((State.stopMarked_same (msk := 2 ^ Part.desks.idx) rfl _ _ _ _).same .desks rfl),
    State.desk_congr ((State.stopAddressed_same (msk := 2 ^ Part.desks.idx) rfl _ _ _ _ _).same .desks rfl)]
  exact hcleared.row

theorem State.syncSend_rowKept (s : State) (counter : Nat) (w : Who) (op : SyncOp) (pc : Nat) :
    State.RowKept b d (A.deskRows b d) s (s.syncSend counter w op pc).1 := by
  obtain ⟨-, hlow, -⟩ := deskRows_apart hb hd .F 0
  refine .of_desks ?_ ((State.syncSend_same (msk := 2 ^ Part.desks.idx) rfl s counter w op pc (.refl s)).same .desks rfl)
  unfold State.syncSend
  dsimp only
  split
  · rfl
  · exact State.submit_below _ _ _ _ _ _ _ _ hlow

theorem State.stop_rowKept (s : State) (c : Ctx) (cause : Nat) (faddr : Option Nat) :
    State.RowKept b d (A.deskRows b d) s (s.stop b c cause faddr) := by
  have hdefer : ∀ (t : State) f, State.RowKept b d (A.deskRows b d) s t →
      State.RowKept b d (A.deskRows b d) s ((t.modCtx b c f).dropQueued b c) := fun t f h =>
    (h.modCtx b c f).trans (State.dropQueued_kept _ b c b d hd _)
  have hnow : ∀ t : State, State.RowKept b d (A.deskRows b d) s t → State.RowKept b d (A.deskRows b d) s (t.stopNow b c cause faddr) :=
    fun t h => h.trans (t.stopNow_rowKept hb hd c cause faddr)
  unfold State.stop
  extract_lets x defer
  split
  · exact .refl s
  · split
    next w _ =>
      split
      · have hsent := s.syncSend_rowKept hb hd w.counter (s.whoOf b c) .cancel (s.pc b c - 8)
        generalize s.syncSend w.counter (s.whoOf b c) .cancel (s.pc b c - 8) = p at hsent ⊢
        obtain ⟨u, failed⟩ := p
        dsimp only
        split
        · exact hnow _ (hsent.trans (State.syncEvent_rowKept _ b d _ _ _ _ _ _))
        · exact hdefer _ _ (hsent.modCtx _ _ _)
      · exact hdefer s _ (.refl s)
      · exact .refl s
      · exact hdefer s _ (.refl s)
      · exact hnow _ ((State.RowKept.refl s).putTmr _)
      · exact hnow s (.refl s)
    · exact hdefer s _ (.refl s)
    · exact hdefer s _ (.refl s)
    · exact hnow s (.refl s)

theorem State.trapRecord_rowKept (s : State) (c : Ctx) (ev : TrapEv) (pc opc : Nat) :
    State.RowKept b d (A.deskRows b d) s (s.trapRecord b c ev pc opc) := by
  obtain ⟨-, -, hstat, haddr, hpos, hidx, -⟩ := deskRows_apart hb hd c 0
  exact (((((((((((State.RowKept.refl s).setFld _ _ hstat).setFld _ _ hstat).setFld _ _ hstat).setFld _ _ hstat).setFld _ _ hstat).hwSet
    _ hstat).setFld _ _ haddr).setFld _ _ hpos).setFld _ _ hpos).setFld _ _ hpos).setFld _ _ hidx

theorem State.trapStop_rowKept (s : State) (c : Ctx) (ev : TrapEv) (pc opc : Nat) :
    State.RowKept b d (A.deskRows b d) s (s.trapStop b c ev pc opc) := by
  obtain ⟨-, -, hstat, -⟩ := deskRows_apart hb hd c 0
  unfold State.trapStop
  extract_lets r e recorded cyc shown
  have hshown : State.RowKept b d (A.deskRows b d) s shown := by
    unfold shown
    split
    · exact (State.RowKept.refl s).hwSet _ hstat
    · exact (s.trapRecord_rowKept hb hd c ev pc opc).putCyc _
  exact (hshown.raise _ _ _).trans (State.stop_rowKept hb hd _ c _ _)

theorem State.trap_rowKept (s : State) (c : Ctx) (sup : Bool) (evs : List TrapEv) (pc opc : Nat) :
    State.RowKept b d (A.deskRows b d) s (s.trap b c sup evs pc opc).1 := by
  obtain ⟨-, -, hstat, -⟩ := deskRows_apart hb hd c 0
  unfold State.trap
  split
  · exact .refl s
  next ev _ =>
    split
    · exact (State.RowKept.refl s).setFld _ _ hstat
    · split
      · exact s.trapStop_rowKept hb hd c ev pc opc
      · split
        · exact .refl s
        · split
          · exact ((s.trapRecord_rowKept hb hd c ev pc opc).putEvt _).putCyc _
          · exact .refl s

theorem State.raiseFlags_rowKept (s : State) (c : Ctx) (unit : Nat) (fl : Flags) (lgen : Nat) :
    State.RowKept b d (A.deskRows b d) s (s.raiseFlags b c unit fl lgen) := by
  obtain ⟨-, -, -, -, -, -, hlayer, hflag, -⟩ := deskRows_apart hb hd c unit
  have hset : State.RowKept b d (A.deskRows b d) s (s.hwOr (flagReg b unit) ⟨3, 0⟩ fl.bits) := .of_desks (State.rd_hwOr_ne _ _ _ hflag) rfl
  unfold State.raiseFlags
  split
  · exact .refl s
  · dsimp only
    split
    · exact hset.setFld _ _ hlayer
    · exact hset

end

/-! ### The commit of a row (02 R55 to R57; 03 R66, R67, R86) -/

/-- The totals of a row of a Desk after a row of A has been multiplied by the block of a slot. -/
def State.rowTotals (s : State) (b d sl set row : Nat) (t : Tile) (as : List Nat) (kp : Nat) : List LaneRes :=
  (List.range 96).map (fun col => deskColumn (s.deskFmt b d) t.format
    ((Fmt.ofCode ((FMap.get? (s.desk b d).slots sl).getD ⟨0, []⟩).fmt).getD .gf8a) (s.chunkLen b d set)
    ((FMap.get? (s.desk b d).tot (rowKey set row)).map (fun l => l.getD col 0)) as
    (((FMap.get? (s.desk b d).slots sl).getD ⟨0, []⟩).column col kp))

/-- The totals depend on the Desk's configuration, the modes of its sets, its totals and its blocks. -/
theorem State.rowTotals_congr {s t : State} {b d : Nat} (hcfg : State.RowKept b d (A.deskCfg b d) s t)
    (hlatch : State.RowKept b d (A.deskLatch b d) s t) (sl set row : Nat) (tl : Tile) (as : List Nat) (kp : Nat) :
    t.rowTotals b d sl set row tl as kp = s.rowTotals b d sl set row tl as kp := by
  have htot : (t.desk b d).tot = (s.desk b d).tot := congrArg (·.2.1) hcfg.row
  have hslots : (t.desk b d).slots = (s.desk b d).slots := congrArg (·.2.2.1) hcfg.row
  have hfmt : t.deskFmt b d = s.deskFmt b d := congrArg drawerFmt (State.fld_of_rd hcfg.rd _)
  have hlen : t.chunkLen b d set = s.chunkLen b d set := by
    rw [State.chunkLen, State.fldBit_of_rd hlatch.rd, State.code2, State.fld_of_rd hlatch.rd]
    rfl
  rw [State.rowTotals, htot, hslots, hfmt, hlen]
  rfl

/-- A row's totals are written, and the pass goes on to its next row or is done. -/
def State.rowDone (u : State) (b d : Nat) (p : PassSt) (set row n : Nat) (vals : List Nat) : State :=
  let v := ((u.drawerWrite b d set row vals).incWrap (A.deskRows b d) F.deskRows.ROWS 1).modDesk b d (fun x => { x with
    tries := 0
    buf := FMap.del x.buf p.next
    passes := if p.next + 1 = n then x.passes.tail else
      match x.passes with
      | q :: r => { q with next := q.next + 1 } :: r
      | [] => [] })
  if p.next + 1 = n then v.showBusy b d else v

theorem State.showBusy_desk (s : State) (b d : Nat) : (s.showBusy b d).desk b d = s.desk b d :=
  State.desk_congr ((State.showBusy_same (msk := 2 ^ Part.desks.idx) rfl s b d (.refl s)).same .desks rfl) b d

theorem State.showBusy_rd_ne (s : State) (b d : Nat) {a : Nat} (h : a ≠ A.deskStat b d) : (s.showBusy b d).rd a = s.rd a := by
  refine Eq.trans (b := ((s.setFld (A.deskStat b d) F.deskStat.PASS_BUSY _).setFld (A.deskStat b d) F.deskStat.DRAIN_BUSY _).rd a) rfl ?_
  rw [State.rd_setFld_ne _ _ _ h, State.rd_setFld_ne _ _ _ h]

theorem State.rowDone_shown {u : State} {b d i set row n : Nat} {e : DeskEnt} {rest : List PassSt} {vals : List Nat}
    (hpasses : (u.desk b d).passes = ⟨e, i⟩ :: rest) :
    (u.rowDone b d ⟨e, i⟩ set row n vals).fld (A.deskRows b d) F.deskRows.ROWS =
      (u.fld (A.deskRows b d) F.deskRows.ROWS + 1) % 2 ^ F.deskRows.ROWS.width ∧
    ((u.rowDone b d ⟨e, i⟩ set row n vals).desk b d).passes = (if i + 1 = n then rest else ⟨e, i + 1⟩ :: rest) ∧
    ((u.rowDone b d ⟨e, i⟩ set row n vals).desk b d).tot = FMap.set (u.desk b d).tot (rowKey set row) vals := by
  obtain ⟨f, hf⟩ : ∃ f : Desk → Desk, f = fun x => { x with
    tries := 0
    buf := FMap.del x.buf i
    passes := if i + 1 = n then x.passes.tail else
      match x.passes with
      | q :: r => { q with next := q.next + 1 } :: r
      | [] => [] } := ⟨_, rfl⟩
  obtain ⟨w, hw⟩ : ∃ w, w = (u.drawerWrite b d set row vals).incWrap (A.deskRows b d) F.deskRows.ROWS 1 := ⟨_, rfl⟩
  have hwritten : w.desk b d = { u.desk b d with
      tot := FMap.set (u.desk b d).tot (rowKey set row) vals
      badRows := if (u.desk b d).inj.ce then rowKey set row :: (u.desk b d).badRows else (u.desk b d).badRows
      inj := { (u.desk b d).inj with ce := false } } := by
    rw [hw, State.incWrap, State.desk_setFld, State.drawerWrite, State.desk_modDesk_same]
  have hrows : w.fld (A.deskRows b d) F.deskRows.ROWS = (u.fld (A.deskRows b d) F.deskRows.ROWS + 1) % 2 ^ F.deskRows.ROWS.width := by
    rw [hw, State.incWrap, State.fld_setFld_same _ _ _ _ (by decide)]
    rfl
  have hdone : u.rowDone b d ⟨e, i⟩ set row n vals = if i + 1 = n then (w.modDesk b d f).showBusy b d else w.modDesk b d f := by
    rw [hf, hw]
    rfl
  have hne : A.deskRows b d ≠ A.deskStat b d := by simp only [A.deskRows, A.deskStat]; omega
  have hdesk : (u.rowDone b d ⟨e, i⟩ set row n vals).desk b d = f (w.desk b d) := by
    rw [hdone]
    split
    · rw [State.showBusy_desk, State.desk_modDesk_same]
    · rw [State.desk_modDesk_same]
  refine ⟨?_, ?_, ?_⟩
  · rw [← hrows, hdone]
    split
    · exact State.fld_of_rd ((State.showBusy_rd_ne _ _ _ hne).trans (State.rd_modDesk ..)) _
    · exact State.fld_of_rd (State.rd_modDesk ..) _
  · rw [hdesk, hf, hwritten]
    simp only [hpasses, List.tail_cons]
  · rw [hdesk, hf, hwritten]

/-- The commit of a row on one Desk: what comes before leaves what it reads, and then the totals are written. -/
theorem State.commitOn_done {s : State} {b d m sl set j n kp i : Nat} (hb : b < 800) (hd : d < 4) {e : DeskEnt}
    (hop : e.op = .pass m sl set j n kp) (hbuf : FMap.get? (s.desk b d).buf i = none) (up : Upset) (sup : Bool) :
    ∃ u, State.RowKept b d (A.deskRows b d) s u ∧ s.commitOn b d ⟨e, i⟩ up sup = u.rowDone b d ⟨e, i⟩ set (j + i) n
      ((s.rowTotals b d sl set (j + i) (tileOf e.desc) (s.tileRow b (tileOf e.desc) i kp) kp).map (·.bits)) := by
  obtain ⟨v, hv⟩ : ∃ v, v = (s.checkRow b d set).drawerRead b d set (j + i) up := ⟨_, rfl⟩
  have hchecked : ∀ {a}, a ≠ A.deskRas b d → State.RowKept b d a s (s.checkRow b d set) := fun h => s.checkRow_kept b hd set h
  have hread : ∀ {a}, a ≠ A.deskRas b d → a ≠ A.deskStat b d → State.RowKept b d a s v := fun hr hs =>
    hv ▸ (hchecked hr).trans (State.drawerRead_kept _ b hd set _ up hr hs)
  have hbuffered : FMap.get? ((s.checkRow b d set).desk b d).buf i = none := by
    have hrow := (hchecked (a := A.deskRows b d) (by simp only [A.deskRows, A.deskRas]; omega)).row
    rw [show ((s.checkRow b d set).desk b d).buf = (s.desk b d).buf from congrArg (·.2.2.2) hrow, hbuf]
  have hmem : (s.checkRow b d set).mem = s.mem := (State.checkRow_same (msk := 2 ^ Part.mem.idx) rfl s b d set (.refl s)).same .mem rfl
  have hrow : (s.checkRow b d set).passRow b d (tileOf e.desc) i kp =
      (s.tileRow b (tileOf e.desc) i kp, (s.checkRow b d set).rowPoison b (tileOf e.desc) i kp) := by
    rw [State.passRow, hbuffered]
    refine Prod.ext (List.map_congr_left fun col _ => ?_) rfl
    rw [State.shelfNum, State.shelfRead, hmem, State.shelfNum, State.shelfRead]
  have htotals := State.rowTotals_congr (s := s) (t := v)
    (hread (by simp only [A.deskCfg, A.deskRas]; omega) (by simp only [A.deskCfg, A.deskStat]; omega))
    (hread (by simp only [A.deskLatch, A.deskRas]; omega) (by simp only [A.deskLatch, A.deskStat]; omega)) sl set (j + i) (tileOf e.desc)
    (s.tileRow b (tileOf e.desc) i kp) kp
  obtain ⟨-, -, -, -, -, -, -, -, hras, hstat⟩ := deskRows_apart hb hd e.ctx d
  rw [← htotals]
  have hdone : ∃ evs fl, s.commitOn b d ⟨e, i⟩ up sup = ((v.trap b e.ctx sup evs e.pc 0x81).1.raiseFlags b e.ctx d fl e.lgen).rowDone b d
      ⟨e, i⟩ set (j + i) n ((v.rowTotals b d sl set (j + i) (tileOf e.desc) (s.tileRow b (tileOf e.desc) i kp) kp).map (·.bits)) := by
    rw [State.commitOn]
    simp only [hop, hrow, ← hv]
    exact ⟨_, _, rfl⟩
  obtain ⟨evs, fl, hdone⟩ := hdone
  exact ⟨_, ((hread hras hstat).trans (v.trap_rowKept hb hd e.ctx sup evs e.pc 0x81)).trans
    (State.raiseFlags_rowKept hb hd _ e.ctx d fl e.lgen), hdone⟩

/-- A row of a pass on one Desk commits when the Desk works and the row can be read. -/
theorem State.rowCommit_single {s : State} {b : Nat} {d : DeskNo} {sl set j n kp i : Nat} {e : DeskEnt} {rest : List PassSt}
    (hop : e.op = .pass (2 ^ d.val) sl set j n kp) (hpasses : (s.desk b d).passes = ⟨e, i⟩ :: rest) (hworks : s.deskWorks b d = true)
    (hpend : s.pendingAt b ((tileOf e.desc).elem i 0) (kp * (tileOf e.desc).width) = false) (us : List (Nat × Upset)) :
    s.rowCommit b d us = s.commitOn b d ⟨e, i⟩ (upsetOf us d) (s.suppressed b e.ctx) := by
  have hmask : ∀ q : DeskNo, maskDesks (2 ^ q.val) = [q.val] := by decide
  have hdesks : e.desks d = [d.val] := by rw [DeskEnt.desks, hop]; exact hmask d
  rw [State.rowCommit]
  simp only [hpasses, hop, hdesks, hworks, hpend, List.all_cons, List.all_nil, List.head?_cons, beq_self_eq_true, Bool.and_self,
    Bool.not_true, Bool.false_eq_true, if_false, Bool.and_false, List.foldl_cons, List.foldl_nil]

/-! ### Rows that fail their checks (03 R90 to R92) -/

theorem State.replay_shown (s : State) (b d set : Nat) (parity : Bool) :
    (s.replay b d set parity (!parity)).fld (A.deskRas b d) F.deskRas.REPLAYS =
      min (s.fld (A.deskRas b d) F.deskRas.REPLAYS + 1) (2 ^ F.deskRas.REPLAYS.width - 1) ∧
    (s.replay b d set parity (!parity)).fld (A.deskRas b d) F.deskRas.LAST_SET = set % 2 ^ F.deskRas.LAST_SET.width ∧
    (s.replay b d set parity (!parity)).fld (A.deskRas b d) (if parity then F.deskRas.PARITY else F.deskRas.RESIDUE) = 1 := by
  have hcount : ∀ v : State, (v.incSat (A.deskRas b d) F.deskRas.REPLAYS 1).fld (A.deskRas b d) F.deskRas.REPLAYS =
      min (v.fld (A.deskRas b d) F.deskRas.REPLAYS + 1) (2 ^ F.deskRas.REPLAYS.width - 1) := fun v => by
    rw [State.incSat, State.fld_setFld_same _ _ _ _ (by decide), satAdd]
    refine Nat.mod_eq_of_lt (Nat.lt_of_le_of_lt (Nat.min_le_right _ _) (by decide))
  unfold State.replay
  cases parity with
  | true =>
    refine ⟨?_, State.fld_setFld_same _ _ _ _ (by decide), ?_⟩
    · refine (State.fld_setFld_field _ _ _ _ _ (by decide) (by decide) (by decide)).trans ?_
      exact (State.fld_hwSet_apart _ _ (by decide) (by decide) (by decide)).trans (hcount s)
    · refine (State.fld_setFld_field _ _ _ _ _ (by decide) (by decide) (by decide)).trans ?_
      exact State.fld_hwSet_bit _ _ (by decide) (by decide)
  | false =>
    refine ⟨?_, State.fld_setFld_same _ _ _ _ (by decide), ?_⟩
    · refine (State.fld_setFld_field _ _ _ _ _ (by decide) (by decide) (by decide)).trans ?_
      exact (State.fld_hwSet_apart _ _ (by decide) (by decide) (by decide)).trans (hcount s)
    · refine (State.fld_setFld_field _ _ _ _ _ (by decide) (by decide) (by decide)).trans ?_
      exact State.fld_hwSet_bit _ _ (by decide) (by decide)

/-- A failed attempt that is counted in the Desk's record: of the pass row in hand, or of a row of the drain path. -/
def Desk.attempted (x : Desk) (pass : Bool) (row : Nat) : Desk :=
  { (if pass then { x with tries := x.tries + 1 }
    else { x with dtries := if x.dtries.1 = row then (row, x.dtries.2 + 1) else (row, 1) }) with
    winReplays := x.winReplays + 1 }

/-- The present window of a Desk has begun. -/
def State.windowed (s : State) (b : Nat) (x : Desk) : Desk :=
  if x.winStart = s.benchCyc b / 800000 * 800000 then x
  else { x with winReplays := 0, winStart := s.benchCyc b / 800000 * 800000 }

theorem State.winRoll_desk (s : State) (b d : Nat) : (s.winRoll b d).desk b d = s.windowed b (s.desk b d) := by
  rw [State.winRoll, State.windowed]
  split
  · rfl
  · rw [State.desk_modDesk_same]

/-- An attempt below the limits is replayed. -/
theorem State.attemptFail_replays {s : State} {b d set : Nat} {parity pass : Bool} {row : Nat}
    (htries : (if pass then (s.desk b d).tries else if (s.desk b d).dtries.1 = row then (s.desk b d).dtries.2 else 0) + 1 ≤
      max 1 (s.fld (A.deskCtl b d) F.deskCtl.RETRY)) (hrate : s.fld (A.deskCtl b d) F.deskCtl.RATE = 0) :
    (s.attemptFail b d set parity pass row).1.desk b d = (s.windowed b (s.desk b d)).attempted pass row ∧
    s.replayedOnce (s.attemptFail b d set parity pass row).1 b d set parity := by
  obtain ⟨v, hv⟩ : ∃ v, v = (s.winRoll b d).replay b d set parity (!parity) := ⟨_, rfl⟩
  have hvdesk : v.desk b d = s.windowed b (s.desk b d) := by
    rw [hv, State.desk_congr ((State.replay_same (msk := 2 ^ Part.desks.idx) rfl _ b d set parity _ (.refl _)).same .desks rfl),
      State.winRoll_desk]
  have hrd : ∀ a, (s.winRoll b d).rd a = s.rd a := fun a =>
    State.rd_of_regs ((State.winRoll_same (msk := 2 ^ Part.regs.idx) rfl s b d (.refl s)).same .regs rfl) a
  have hctl : (v.modDesk b d (fun x => x.attempted pass row)).rd (A.deskCtl b d) = s.rd (A.deskCtl b d) := by
    rw [State.rd_modDesk, hv]
    exact ((s.winRoll b d).replay_kept b d set parity _ (by simp only [A.deskCtl, A.deskRas]; omega)).rd.trans (hrd _)
  have hdesk : (v.modDesk b d (fun x => x.attempted pass row)).desk b d = (s.windowed b (s.desk b d)).attempted pass row := by
    rw [State.desk_modDesk_same, hvdesk]
  have hwindow : (s.windowed b (s.desk b d)).tries = (s.desk b d).tries ∧ (s.windowed b (s.desk b d)).dtries = (s.desk b d).dtries ∧
      (s.windowed b (s.desk b d)).tot = (s.desk b d).tot := by
    unfold State.windowed
    split <;> exact ⟨rfl, rfl, rfl⟩
  obtain ⟨hwtries, hwdtries, hwtot⟩ := hwindow
  have hfew : ¬ ((if pass = true then ((s.windowed b (s.desk b d)).attempted pass row).tries
      else ((s.windowed b (s.desk b d)).attempted pass row).dtries.2) ≥ max 1 (s.fld (A.deskCtl b d) F.deskCtl.RETRY) + 1) := by
    cases pass with
    | true =>
      have hcount : ((s.windowed b (s.desk b d)).attempted true row).tries = (s.desk b d).tries + 1 := congrArg (· + 1) hwtries
      rw [if_pos rfl, hcount]
      rw [if_pos rfl] at htries
      omega
    | false =>
      have hcount : ((s.windowed b (s.desk b d)).attempted false row).dtries.2 =
          (if (s.desk b d).dtries.1 = row then (s.desk b d).dtries.2 else 0) + 1 := by
        show (if (s.windowed b (s.desk b d)).dtries.1 = row then (row, (s.windowed b (s.desk b d)).dtries.2 + 1) else (row, 1)).2 = _
        rw [hwdtries]
        split <;> rfl
      rw [if_neg Bool.false_ne_true, hcount]
      rw [if_neg Bool.false_ne_true] at htries
      omega
  have hresult : s.attemptFail b d set parity pass row = (v.modDesk b d (fun x => x.attempted pass row), false) := by
    rw [State.attemptFail]
    simp only [← hv]
    refine if_neg ?_
    show ¬ ((decide ((if pass = true then ((v.modDesk b d (fun x => x.attempted pass row)).desk b d).tries
      else ((v.modDesk b d (fun x => x.attempted pass row)).desk b d).dtries.2) ≥
        max 1 ((v.modDesk b d (fun x => x.attempted pass row)).fld (A.deskCtl b d) F.deskCtl.RETRY) + 1) ||
      ((v.modDesk b d (fun x => x.attempted pass row)).fld (A.deskCtl b d) F.deskCtl.RATE != 0 && _)) = true)
    rw [hdesk, State.fld_of_rd hctl, State.fld_of_rd hctl, hrate, decide_eq_false hfew]
    exact Bool.false_ne_true
  obtain ⟨hcount, hset, hkind⟩ := (s.winRoll b d).replay_shown b d set parity
  have hbenches : v.benches = s.benches := by
    rw [hv, (State.replay_same (msk := 2 ^ Part.benches.idx) rfl _ b d set parity _ (.refl _)).same .benches rfl]
    exact (State.winRoll_same (msk := 2 ^ Part.benches.idx) rfl s b d (.refl s)).same .benches rfl
  have hmem : v.mem = s.mem := by
    rw [hv, (State.replay_same (msk := 2 ^ Part.mem.idx) rfl _ b d set parity _ (.refl _)).same .mem rfl]
    exact (State.winRoll_same (msk := 2 ^ Part.mem.idx) rfl s b d (.refl s)).same .mem rfl
  have hfld : ∀ f, (v.modDesk b d (fun x => x.attempted pass row)).fld (A.deskRas b d) f = v.fld (A.deskRas b d) f := fun f => rfl
  have htot : ((s.windowed b (s.desk b d)).attempted pass row).tot = (s.windowed b (s.desk b d)).tot := by cases pass <;> rfl
  rw [hresult]
  refine ⟨hdesk, ?_, ?_, ?_, ?_, hbenches, hmem⟩
  · rw [hfld, hv, hcount, State.fld_of_rd (hrd _)]
  · rw [hfld, hv, hset]
  · rw [hfld, hv, hkind]
  · rw [hdesk, htot, hwtot]

/-- A row that has not been committed and can be read is in the replay buffer once a row has failed. -/
theorem State.bufferRows_holds {s : State} {b d m sl set j n kp i : Nat} {e : DeskEnt} (hop : e.op = .pass m sl set j n kp) (hi : i < n)
    (hpend : s.pendingAt b ((tileOf e.desc).elem i 0) (kp * (tileOf e.desc).width) = false) :
    ∃ m, s.bufferRows b d ⟨e, i⟩ = s.modDesk b d (fun x => { x with buf := m }) ∧ FMap.has m i = true := by
  have hkeeps : ∀ (g : Nat → List Nat × Option Nat) (l : List Nat) (m : FMap (List Nat × Option Nat)), FMap.has m i = true →
      FMap.has (l.foldl (fun m k => if FMap.has m k then m else FMap.set m k (g k)) m) i = true := by
    intro g l
    induction l with
    | nil => exact fun m h => h
    | cons k l ih =>
      intro m h
      refine ih _ ?_
      dsimp only
      split
      · exact h
      next hk =>
        have hne : i ≠ k := fun hik => hk (hik ▸ h)
        rw [FMap.has, FMap.get?_set_ne _ _ hne]
        exact h
  have hsome : ∃ k, min (inFlight (s.slowPass b e d)) (n - i) = k + 1 := by
    have hflight : 0 < inFlight (s.slowPass b e d) := by unfold inFlight; split <;> decide
    exact ⟨min (inFlight (s.slowPass b e d)) (n - i) - 1, by omega⟩
  obtain ⟨k, hk⟩ := hsome
  refine ⟨((((List.range (min (inFlight (s.slowPass b e d)) (n - i))).map (· + i)).takeWhile (fun q => FMap.has (s.desk b d).buf q ||
    !s.pendingAt b ((tileOf e.desc).elem q 0) (kp * (tileOf e.desc).width))).foldl (fun m q =>
      if FMap.has m q then m else FMap.set m q (s.passRow b d (tileOf e.desc) q kp)) (s.desk b d).buf), ?_, ?_⟩
  · rw [State.bufferRows]
    simp only [hop]
    rfl
  · rw [hk, List.range_succ_eq_map, List.map_cons, Nat.zero_add, List.takeWhile_cons, hpend, Bool.not_false, Bool.or_true, if_pos rfl,
      List.foldl_cons]
    refine hkeeps _ _ _ ?_
    split
    next h => exact h
    · exact FMap.has_set ..

theorem Desk.attempted_passes (x : Desk) (pass : Bool) (row : Nat) : (x.attempted pass row).passes = x.passes ∧
    (x.attempted pass row).drains = x.drains := by
  cases pass <;> exact ⟨rfl, rfl⟩

theorem State.windowed_kept (s : State) (b : Nat) (x : Desk) : (s.windowed b x).passes = x.passes ∧ (s.windowed b x).drains = x.drains ∧
    (s.windowed b x).tries = x.tries := by
  unfold State.windowed
  split <;> exact ⟨rfl, rfl, rfl⟩

/-- The row of a pass in hand fails its check where it has been read. -/
theorem State.checkFail_pass {s : State} {b d m sl set j n kp i : Nat} {e : DeskEnt} {rest : List PassSt} (parity : Bool)
    (hop : e.op = .pass m sl set j n kp) (hpasses : (s.desk b d).passes = ⟨e, i⟩ :: rest) (hi : i < n)
    (hpend : s.pendingAt b ((tileOf e.desc).elem i 0) (kp * (tileOf e.desc).width) = false) (hworks : s.deskWorks b d = true) :
    ∃ m, s.checkFail b d parity none = ((s.modDesk b d (fun x => { x with buf := m })).attemptFail b d set parity true 0).1 := by
  obtain ⟨m, hbuf, hhas⟩ := State.bufferRows_holds (d := d) hop hi hpend
  refine ⟨m, ?_⟩
  rw [State.checkFail]
  simp only [hworks, hpasses, hop, hbuf, State.desk_modDesk_same, hhas, Bool.not_true, Bool.false_eq_true, if_false, if_true]

theorem State.checkFail_drain {s : State} {b d set j n i : Nat} {raw : Bool} {e : DeskEnt} {rest : List DeskEnt} (parity : Bool)
    (hop : e.op = .drain raw set j n) (hdrains : (s.desk b d).drains = e :: rest) (hi : i < n) (hnext : (s.desk b d).dtries.1 ≤ i)
    (hworks : s.deskWorks b d = true) : s.checkFail b d parity (some i) = (s.attemptFail b d set parity false i).1 := by
  rw [State.checkFail]
  simp only [hworks, hdrains, hop, Bool.not_true, Bool.false_eq_true, if_false]
  exact if_pos ⟨hi, hnext⟩

end Sys2Proof.Machine
open Sys2Proof Sys2Proof.Machine

/-- Settles O21: loads, passes, a row's commit and a row's failed check, each as what its command makes of the Desk's record and
registers. -/
theorem deskLoadsAndPasses : Obligations.DeskLoadsAndPasses := by
  unfold Obligations.DeskLoadsAndPasses
  intro b d s e tl htl
  have hb : b.val < 800 := b.isLt
  have hd : d.val < 4 := d.isLt
  subst htl
  refine ⟨fun sl hsl hop hhead hwide hidle hfree hfree1 => ⟨_, rfl, ?loadStart⟩, fun sl hsl hload hworks hpend => ?loadDone,
    fun m sl set j n kp hop hmask hset hready => ⟨_, rfl, ?passStart⟩,
    fun sl set j n kp i rest hop hpasses hi hworks hpend hbuf us => ⟨_, rfl, ?rowCommit⟩,
    fun parity m sl set j n kp i rest hop hpasses hi hpend hworks htries hrate => ?passFail,
    fun parity raw set j n i rest hop hdrains hi hnext hworks htries hrate => ?drainFail⟩
  case loadStart =>
    have hmem := (State.loadStart_same (msk := 2 ^ Part.mem.idx) rfl s b d (.refl s)).same .mem rfl
    have hvalid : (if (tileOf e.desc).fmt == 4 || (s.desk b d).wide then 0
        else setBits (s.fld (A.deskStat b d) F.deskStat.SLOT_VALID) sl sl 0).testBit sl = false := by
      split
      · exact Nat.zero_testBit sl
      · rw [testBit_setBits _ _ _ _ _ (Nat.le_refl sl), if_pos ⟨Nat.le_refl sl, Nat.le_refl sl⟩, Nat.zero_testBit]
    rw [State.loadStart_begins hop hhead hwide hidle hfree hfree1] at hmem ⊢
    obtain ⟨hdesk, howner, hloading, hgone⟩ := State.slotsLoading_shown (s.modDesk b d (fun x => x.loading sl e ((tileOf e.desc).fmt == 4)))
      b d hsl hvalid (ctxCode_lt e.ctx) (wide := (tileOf e.desc).fmt == 4) (fun h => hwide (beq_iff_eq.mp h))
    rw [State.desk_modDesk_same] at hdesk
    refine ⟨by rw [hdesk]; rfl, by rw [hdesk]; rfl, by rw [hdesk]; exact Desk.slotFmt_loading .., howner, ?_, hgone, hmem⟩
    rw [hloading]
    simp only [beq_iff_eq]
  case loadDone =>
    have hmem := (State.loadDone_same (msk := 2 ^ Part.mem.idx) rfl s b d (.refl s)).same .mem rfl
    obtain ⟨u, hu⟩ := State.loadDone_fills hload hworks hpend
    obtain ⟨hnone, hslot, hvalid, hloading⟩ := u.loadFilled_shown b d hsl ⟨(tileOf e.desc).fmt, s.tileRows b (tileOf e.desc)⟩
    refine ⟨_, ⟨(tileOf e.desc).fmt, s.tileRows b (tileOf e.desc)⟩, rfl, ?_⟩
    rw [hu] at hmem ⊢
    exact ⟨hnone, hslot, rfl, fun r hr k hk => s.tileRows_elem b (tileOf e.desc) hr hk, hvalid, hloading, hmem⟩
  case passStart =>
    refine ⟨(State.passStart_same (msk := 2 ^ Part.mem.idx) rfl s b d (.refl s)).same .mem rfl, fun q hq hmq => ?_⟩
    have hds : ∀ x ∈ maskDesks m, x < 4 := fun x hx => (mem_maskDesks.mp hx).1
    have hqm : q ∈ maskDesks m := mem_maskDesks.mpr ⟨hq, hmq⟩
    have hpop := State.popEnt_desk (s := s) (b := b) (e := e) hds (maskDesks_nodup m)
      (fun x hx => (hready x (mem_maskDesks.mp hx).1 (mem_maskDesks.mp hx).2).1.1) hq
    rw [if_pos hqm] at hpop
    have hbegun := (s.popEnt b (maskDesks m) e).passesOpen_begun b hset e hds (maskDesks_nodup m) hqm
    have hrd : ∀ a, (s.popEnt b (maskDesks m) e).rd a = s.rd a := fun a => State.rd_of_regs (s.popEnt_regs b _ e) a
    rw [State.passStart_opens hop hd hmask hready]
    refine ⟨?_, by rw [hbegun.queue, hpop], hbegun.used, hbegun.busy, fun hfree => hbegun.owner ?_⟩
    · rw [hbegun.passes, hpop, (hready q hq hmq).2.2.2.2]
      rfl
    · rw [State.setUsed_of_rd (hrd _)]
      exact hfree
  case rowCommit =>
    have hmem := (State.rowCommit_same (msk := 2 ^ Part.mem.idx) rfl s b d us (.refl s)).same .mem rfl
    obtain ⟨u, hkept, hu⟩ := State.commitOn_done hb hd hop hbuf (upsetOf us d) (s.suppressed b e.ctx)
    have hupasses : (u.desk b d).passes = ⟨e, i⟩ :: rest := (congrArg (·.1) hkept.row).trans hpasses
    have hutot : (u.desk b d).tot = (s.desk b d).tot := congrArg (·.2.1) hkept.row
    obtain ⟨hrows, hnext, htot⟩ := State.rowDone_shown (n := n) (set := set) (row := j + i) (vals :=
      (s.rowTotals b d sl set (j + i) (tileOf e.desc) (s.tileRow b (tileOf e.desc) i kp) kp).map (·.bits)) hupasses
    rw [State.rowCommit_single hop hpasses hworks hpend, hu] at hmem ⊢
    refine ⟨hmem, hrows.trans (by rw [State.fld_of_rd hkept.rd]), hnext, fun k hk => ?_, ?_⟩
    · rw [htot, FMap.get?_set_ne _ _ hk, hutot]
    · rw [htot, FMap.get?_set_same, State.rowTotals, List.map_map]
      rfl
  case passFail =>
    obtain ⟨m', hm⟩ := State.checkFail_pass parity hop hpasses hi hpend hworks
    obtain ⟨hdesk, honce⟩ := State.attemptFail_replays (s := s.modDesk b d (fun x => { x with buf := m' })) (b := b) (d := d) (set := set)
      (parity := parity) (pass := true) (row := 0) (by rw [if_pos rfl, State.desk_modDesk_same]; exact htries) hrate
    rw [State.desk_modDesk_same] at hdesk
    obtain ⟨hwp, -, hwt⟩ := (s.modDesk b d (fun x => { x with buf := m' })).windowed_kept b { s.desk b d with buf := m' }
    refine ⟨_, congrArg Host.Outcome.next hm, ?_, ?_, ?_⟩
    · rw [hdesk, (Desk.attempted_passes ..).1, hwp]
    · rw [hdesk]
      exact congrArg (· + 1) hwt
    · obtain ⟨hcount, hset, hkind, htot, hbenches, hmem⟩ := honce
      rw [State.desk_modDesk_same] at htot
      exact ⟨hcount, hset, hkind, htot, hbenches, hmem⟩
  case drainFail =>
    obtain ⟨hdesk, honce⟩ := State.attemptFail_replays (s := s) (b := b) (d := d) (set := set) (parity := parity) (pass := false)
      (row := i.val) (by rw [if_neg Bool.false_ne_true]; exact htries) hrate
    obtain ⟨-, hwd, -⟩ := s.windowed_kept b (s.desk b d)
    exact ⟨_, congrArg Host.Outcome.next (State.checkFail_drain parity hop hdrains hi hnext hworks), by rw [hdesk, (Desk.attempted_passes ..).2, hwd], honce⟩

end

section
/-!
SUPPORT. Vector registers as lanes (04 R110), the flags of the vector unit (02 R37), and the end of a vector instruction whose
context traps no NaN (06 R178 to R180).
-/
namespace Sys2Proof.Machine

/-! ### Lanes (04 R110) -/

theorem ofLanes_lt (w : Nat) (l : List Nat) : ofLanes w l < 2 ^ (w * l.length) := by
  induction l with
  | nil => exact Nat.two_pow_pos _
  | cons x l ih =>
    rw [ofLanes, List.length_cons, Nat.mul_add_one, Nat.add_comm (w * _), Nat.pow_add]
    have hx : x % 2 ^ w < 2 ^ w := Nat.mod_lt _ (Nat.two_pow_pos w)
    calc x % 2 ^ w + 2 ^ w * ofLanes w l < 2 ^ w + 2 ^ w * ofLanes w l := Nat.add_lt_add_right hx _
      _ = 2 ^ w * (ofLanes w l + 1) := by rw [Nat.mul_add_one, Nat.add_comm]
      _ ≤ 2 ^ w * 2 ^ (w * l.length) := Nat.mul_le_mul_left _ ih

theorem lane_ofLanes (w : Nat) (l : List Nat) {i : Nat} (hi : i < l.length) : lane (ofLanes w l) w i = l[i] % 2 ^ w := by
  induction l generalizing i with
  | nil => exact absurd hi (Nat.not_lt_zero i)
  | cons x l ih =>
    have hx : x % 2 ^ w < 2 ^ w := Nat.mod_lt _ (Nat.two_pow_pos w)
    cases i with
    | zero => rw [lane, ofLanes, Nat.mul_zero, Nat.shiftRight_zero, Nat.add_mul_mod_self_left, Nat.mod_mod, List.getElem_cons_zero]
    | succ i =>
      have hshift : (x % 2 ^ w + 2 ^ w * ofLanes w l) >>> (w * (i + 1)) = ofLanes w l >>> (w * i) := by
        rw [Nat.mul_add_one, Nat.add_comm (w * i), Nat.shiftRight_add, Nat.shiftRight_eq_div_pow _ w,
          Nat.add_mul_div_left _ _ (Nat.two_pow_pos w), Nat.div_eq_of_lt hx, Nat.zero_add]
      rw [lane, ofLanes, hshift, List.getElem_cons_succ]
      exact ih (Nat.lt_of_succ_lt_succ hi)

/-- A lane of a register that is made of lanes. -/
theorem lane_ofVector {w n size : Nat} (g : Nat → Nat) (hn : n * w ≤ size) {i : Nat} (hi : i < n) :
    lane (BitVec.ofNat size (ofLanes w ((List.range n).map g))).toNat w i = g i % 2 ^ w := by
  have hlen : ((List.range n).map g).length = n := by rw [List.length_map, List.length_range]
  have hlt : ofLanes w ((List.range n).map g) < 2 ^ size :=
    Nat.lt_of_lt_of_le (ofLanes_lt w _) (Nat.pow_le_pow_right Nat.two_pos (by rw [hlen, Nat.mul_comm]; exact hn))
  rw [BitVec.toNat_ofNat, Nat.mod_eq_of_lt hlt, lane_ofLanes w _ (by rw [hlen]; exact hi), List.getElem_map, List.getElem_range]

theorem laneCount_mul_le (f : Fmt) : laneCount f * f.width ≤ 4096 := Nat.div_mul_le_self ..

theorem lane_mod (v w i : Nat) : lane v w i % 2 ^ w = lane v w i := Nat.mod_mod ..

theorem testBit_lane (v w i k : Nat) : (lane v w i).testBit k = (decide (k < w) && v.testBit (w * i + k)) := by
  rw [lane, Nat.testBit_mod_two_pow, Nat.testBit_shiftRight]

/-- A bit of lanes of one bit. -/
theorem testBit_ofLanes_one (n : Nat) (g : Nat → Bool) {i : Nat} (hi : i < n) :
    (ofLanes 1 ((List.range n).map (fun k => (g k).toNat))).testBit i = g i := by
  have hlen : ((List.range n).map (fun k => (g k).toNat)).length = n := by rw [List.length_map, List.length_range]
  have hlane := lane_ofLanes 1 ((List.range n).map (fun k => (g k).toNat)) (i := i) (by rw [hlen]; exact hi)
  have hbit := testBit_lane (ofLanes 1 ((List.range n).map (fun k => (g k).toNat))) 1 i 0
  rw [hlane, List.getElem_map, List.getElem_range, decide_eq_true (by decide), Bool.true_and, Nat.one_mul, Nat.add_zero] at hbit
  rw [← hbit]
  cases g i <;> rfl

/-! ### Flags (02 R37) -/

theorem Flags.testBit_bits (f : Flags) {k : Nat} (hk : k < 4) : f.bits.testBit k = (k = 0 && f.i || k = 1 && f.x || k = 2 && f.u || k = 3 && f.o) := by
  obtain ⟨o, u, x, i⟩ := f
  have : k = 0 ∨ k = 1 ∨ k = 2 ∨ k = 3 := by omega
  obtain rfl | rfl | rfl | rfl := this <;> revert o u x i <;> decide

theorem Flags.testBit_or (f g : Flags) {k : Nat} (hk : k < 4) : (f.or g).bits.testBit k = (f.bits.testBit k || g.bits.testBit k) := by
  rw [Flags.testBit_bits _ hk, Flags.testBit_bits _ hk, Flags.testBit_bits _ hk, Flags.or]
  have : k = 0 ∨ k = 1 ∨ k = 2 ∨ k = 3 := by omega
  obtain rfl | rfl | rfl | rfl := this <;> simp

theorem Flags.bits_lt (f : Flags) : f.bits < 16 := by
  obtain ⟨o, u, x, i⟩ := f
  revert o u x i
  decide

theorem Flags.testBit_none (k : Nat) : Flags.none.bits.testBit k = false := Nat.zero_testBit k

/-- The flags of lanes are those of some lane. -/
theorem testBit_orFlags (l : List LaneRes) {k : Nat} (hk : k < 4) : (orFlags l).bits.testBit k = l.any (fun r => r.fl.bits.testBit k) := by
  have hfold : ∀ (l : List LaneRes) (f : Flags), (l.foldl (fun f r => f.or r.fl) f).bits.testBit k =
      (f.bits.testBit k || l.any (fun r => r.fl.bits.testBit k)) := by
    intro l
    induction l with
    | nil => exact fun f => (Bool.or_false _).symm
    | cons r l ih => exact fun f => by rw [List.foldl_cons, ih, Flags.testBit_or _ _ hk, List.any_cons, Bool.or_assoc]
  rw [orFlags, hfold, Flags.testBit_none, Bool.false_or]

/-! ### The end of a vector instruction -/

theorem vectorRegs_apart {b : Nat} (_ : b < 800) {c : Ctx} : A.numVflag b ≠ A.benchPc b c.idx ∧ A.numVflag b ≠ A.benchThr b c.idx ∧
    A.numVflag b ≠ A.syncLent (b / 64) ∧ A.numVflag b ≠ A.numLayer b c.idx ∧
    (∀ a ∈ [A.numTrapStat b c.idx, A.numTrapAddr b c.idx, A.numTrapPos b c.idx, A.numTrapIdx b c.idx],
      a ≠ A.numVflag b ∧ a ≠ A.benchPc b c.idx) ∧
    A.numVflag b ≠ A.benchPc b c.idx ∧ A.numLayer b c.idx ≠ A.benchPc b c.idx ∧ A.numCtl b ≠ A.benchPc b c.idx ∧
    A.numCtl b ≠ A.benchThr b c.idx ∧ A.numCtl b ≠ A.syncLent (b / 64) := by
  have hidx : c.idx < 3 := by cases c <;> decide
  simp only [List.mem_cons, List.not_mem_nil, or_false, forall_eq_or_imp, forall_eq, A.numVflag, A.benchPc, A.benchThr, A.syncLent,
    A.numLayer, A.numTrapStat, A.numTrapAddr, A.numTrapPos, A.numTrapIdx, A.numCtl, benchBase, regBase]
  omega

/-- A context's registers, its PC, memory and the flags of the vector unit are the same. -/
structure State.QuietRun (s t : State) (b : Nat) (c : Ctx) : Prop where
  run : s.sameRun t b c
  flags : t.rd (A.numVflag b) = s.rd (A.numVflag b)

section
variable {b : Nat} {c : Ctx} {s t u : State}

theorem State.QuietRun.refl (s : State) (b : Nat) (c : Ctx) : s.QuietRun s b c := ⟨.refl s b c, rfl⟩

theorem State.QuietRun.trans (h : s.QuietRun t b c) (k : t.QuietRun u b c) : s.QuietRun u b c :=
  ⟨h.run.trans k.run, k.flags.trans h.flags⟩

theorem State.QuietRun.setFld (h : s.QuietRun t b c) {a : Nat} (f : Fld) (x : Nat) (hflag : a ≠ A.numVflag b)
    (hpc : a ≠ A.benchPc b c.idx) : s.QuietRun (t.setFld a f x) b c :=
  h.trans ⟨.of_regs (t.rd_setFld_ne _ _ hpc.symm) rfl rfl, t.rd_setFld_ne _ _ hflag.symm⟩

theorem State.QuietRun.hwSet (h : s.QuietRun t b c) {a : Nat} (f : Fld) (hflag : a ≠ A.numVflag b)
    (hpc : a ≠ A.benchPc b c.idx) : s.QuietRun (t.hwSet a f) b c :=
  h.trans ⟨.of_regs (t.rd_hwSet_ne _ hpc.symm) rfl rfl, t.rd_hwSet_ne _ hflag.symm⟩

theorem State.QuietRun.putEvt (h : s.QuietRun t b c) (x : Evt) : s.QuietRun (t.putEvt x) b c := ⟨⟨h.run.files, h.run.pc, h.run.mem⟩, h.flags⟩

theorem State.QuietRun.putCyc (h : s.QuietRun t b c) (x : SameCycle) : s.QuietRun (t.putCyc x) b c :=
  ⟨⟨h.run.files, h.run.pc, h.run.mem⟩, h.flags⟩

/-- A trap event of a context that does not trap is recorded, and stops nothing (06 R178). -/
theorem State.trap_quiet (hb : b < 800) (h : s.untrapped b c) (sup : Bool) (evs : List TrapEv) (pc opc : Nat) :
    s.QuietRun (s.trap b c sup evs pc opc).1 b c ∧ (s.trap b c sup evs pc opc).2 = false := by
  obtain ⟨-, -, -, -, hregs, -⟩ := vectorRegs_apart hb (c := c)
  simp only [List.mem_cons, List.not_mem_nil, or_false, forall_eq_or_imp, forall_eq] at hregs
  obtain ⟨⟨hsf, hsp⟩, ⟨haf, hap⟩, ⟨hpf, hpp⟩, hif, hip⟩ := hregs
  have hrecord : ∀ ev, s.QuietRun (s.trapRecord b c ev pc opc) b c := fun ev =>
    (((((((((((State.QuietRun.refl s b c).setFld _ _ hsf hsp).setFld _ _ hsf hsp).setFld _ _ hsf hsp).setFld _ _ hsf hsp).setFld _ _ hsf
      hsp).hwSet _ hsf hsp).setFld _ _ haf hap).setFld _ _ hpf hpp).setFld _ _ hpf hpp).setFld _ _ hpf hpp).setFld _ _ hif hip
  unfold State.trap
  split
  · exact ⟨.refl s b c, rfl⟩
  next ev _ =>
    split
    · exact ⟨(State.QuietRun.refl s b c).setFld _ _ hsf hsp, rfl⟩
    · rw [show s.fldBit (A.numCtl b) F.numCtl.TRAP c.idx = false from h]
      simp only [Bool.false_and, Bool.false_eq_true, if_false]
      split
      · exact ⟨.refl s b c, rfl⟩
      · split
        · exact ⟨((hrecord ev).putEvt _).putCyc _, rfl⟩
        · exact ⟨.refl s b c, rfl⟩

theorem State.untrapped_of_rd (h : s.untrapped b c) (hrd : t.rd (A.numCtl b) = s.rd (A.numCtl b)) : t.untrapped b c :=
  (State.fldBit_of_rd hrd _ _).trans h

/-- Flags of the vector unit are set beside those that it holds (02 R37). -/
theorem State.raiseFlags_vector (hb : b < 800) (s : State) (c : Ctx) (fl : Flags) (lgen : Nat) : s.sameRun (s.raiseFlags b c 4 fl lgen) b c ∧
    ∀ k < 4, ((s.raiseFlags b c 4 fl lgen).rd (A.numVflag b)).getLsbD k = ((s.rd (A.numVflag b)).getLsbD k || fl.bits.testBit k) := by
  obtain ⟨-, -, -, hlayer, -, hpc, hlayerPc, -⟩ := vectorRegs_apart hb (c := c)
  have hbit : ∀ (v : Word), ∀ k < 4, (getFld v ⟨3, 0⟩).testBit k = v.getLsbD k := fun v k hk => by
    rw [testBit_getFld, decide_eq_true (show k < Fld.width ⟨3, 0⟩ from hk), Bool.true_and, Nat.zero_add]
  have hset : ∀ k < 4, ((s.hwOr (A.numVflag b) ⟨3, 0⟩ fl.bits).rd (A.numVflag b)).getLsbD k =
      ((s.rd (A.numVflag b)).getLsbD k || fl.bits.testBit k) := fun k hk => by
    rw [← hbit _ k hk]
    refine (congrArg (Nat.testBit · k) (s.fld_hwOr_same (A.numVflag b) (f := ⟨3, 0⟩) (by decide) fl.bits)).trans ?_
    rw [Nat.testBit_or, Nat.mod_eq_of_lt (show fl.bits < 2 ^ Fld.width ⟨3, 0⟩ from fl.bits_lt)]
    exact congrArg (· || fl.bits.testBit k) (hbit _ k hk)
  have hrun : s.sameRun (s.hwOr (A.numVflag b) ⟨3, 0⟩ fl.bits) b c := .of_regs (State.rd_hwOr_ne _ _ _ hpc.symm) rfl rfl
  unfold State.raiseFlags
  split
  next h0 => exact ⟨.refl s b c, fun k _ => by rw [h0, Nat.zero_testBit, Bool.or_false]⟩
  · have hreg : flagReg b 4 = A.numVflag b := rfl
    rw [hreg]
    dsimp only
    split
    · exact ⟨hrun.trans (.of_regs (State.rd_orFld_ne _ _ _ hlayerPc.symm) rfl rfl),
        fun k hk => by rw [State.rd_orFld_ne _ _ _ hlayer]; exact hset k hk⟩
    · exact ⟨hrun, hset⟩

end

/-- What a vector instruction writes at its end: the files of its context, whatever else has been recorded before. -/
structure State.WritesFiles (s : State) (b : Nat) (c : Ctx) (write : State → State)
    (files : FMap Word × FMap VWord × FMap TWord × FMap TWord) : Prop where
  files : ∀ u, s.filesKept u b c → ((write u).ctx b c).files = files
  pc : ∀ u, ((write u).ctx b c).pc = (u.ctx b c).pc
  regs : ∀ u, (write u).regs = u.regs
  mem : ∀ u, (write u).mem = u.mem

theorem State.writesFiles_setV (s : State) (b : Nat) (c : Ctx) (r : Nat) (v : VWord) : s.WritesFiles b c (fun u => u.setV b c r v)
    ((s.ctx b c).s, FMap.set (s.ctx b c).v r v, (s.ctx b c).t, (s.ctx b c).p) := by
  refine ⟨fun u hu => ?_, fun u => ?_, fun _ => rfl, fun _ => rfl⟩
  · obtain ⟨hs, hv, ht, hp⟩ : (u.ctx b c).s = (s.ctx b c).s ∧ (u.ctx b c).v = (s.ctx b c).v ∧ (u.ctx b c).t = (s.ctx b c).t ∧
        (u.ctx b c).p = (s.ctx b c).p := ⟨congrArg (·.1) hu, congrArg (·.2.1) hu, congrArg (·.2.2.1) hu, congrArg (·.2.2.2) hu⟩
    rw [State.setV, State.ctx_modCtx_same, CtxSt.files, hs, hv, ht, hp]
  · rw [State.setV, State.ctx_modCtx_same]

/-- A vector instruction has written its context's files, and goes on at the next word, with flags of the vector unit. -/
structure State.VecDone (s t : State) (b : Nat) (c : Ctx) (files : FMap Word × FMap VWord × FMap TWord × FMap TWord) (fl : Flags) : Prop where
  files : (t.ctx b c).files = files
  pc : t.pc b c = s.nextPc b c
  mem : t.mem = s.mem
  flags : ∀ k < 4, (t.rd (A.numVflag b)).getLsbD k = ((s.rd (A.numVflag b)).getLsbD k || fl.bits.testBit k)

section
variable {b : Nat} {c : Ctx} {s : State} {write : State → State} {files : FMap Word × FMap VWord × FMap TWord × FMap TWord}

theorem State.done_vflag (hb : b < 800) (s : State) (c : Ctx) : (s.done b c).rd (A.numVflag b) = s.rd (A.numVflag b) := by
  obtain ⟨hpc, hthr, hlent, -⟩ := vectorRegs_apart hb (c := c)
  exact s.rd_done_ne hpc hthr hlent

/-- An instruction that writes its files and goes on. -/
theorem State.vecDone_write (hb : b < 800) (hw : s.WritesFiles b c write files) : s.VecDone ((write s).done b c) b c files .none := by
  refine ⟨Eq.trans (State.filesKept_done (write s) b c) (hw.files s (.refl s b c)), ?_, (State.done_mem ..).trans (hw.mem s), fun k _ => ?_⟩
  · rw [State.pc_done, State.nextPc, State.pc_congr (State.rd_of_regs (hw.regs s) _) (hw.pc s), State.nextPc]
  · rw [State.done_vflag hb, State.rd_of_regs (hw.regs s), Flags.testBit_none, Bool.or_false]

/-- The end of a vector instruction of a context that does not trap. -/
theorem State.vecEnd_done (hb : b < 800) (h : s.untrapped b c) (hw : s.WritesFiles b c write files) (fl : Flags) (evs : List TrapEv)
    (opc : Nat) (precise : Bool) : s.VecDone (s.vecEnd b c fl evs opc precise write) b c files fl := by
  obtain ⟨-, -, -, -, -, -, -, hctlPc, hctlThr, hctlLent⟩ := vectorRegs_apart hb (c := c)
  cases precise with
  | true =>
    obtain ⟨hquiet, hgoes⟩ := State.trap_quiet hb h (s.suppressed b c) evs (s.pc b c) opc
    obtain ⟨u, hu⟩ : ∃ u, u = (s.trap b c (s.suppressed b c) evs (s.pc b c) opc).1 := ⟨_, rfl⟩
    have hend : s.vecEnd b c fl evs opc true write = ((write u).raiseFlags b c 4 fl (s.layerGen b c)).done b c := by
      rw [hu, State.vecEnd, if_pos rfl]
      simp only [hgoes, Bool.false_eq_true, if_false]
    rw [← hu] at hquiet
    obtain ⟨hrun, hflags⟩ := State.raiseFlags_vector hb (write u) c fl (s.layerGen b c)
    rw [hend]
    refine ⟨Eq.trans (State.filesKept_done _ b c) (Eq.trans hrun.files (hw.files u hquiet.run.files)), ?_,
      (State.done_mem ..).trans (hrun.mem.trans ((hw.mem u).trans hquiet.run.mem)), fun k hk => ?_⟩
    · rw [State.pc_done, State.nextPc, hrun.pc, State.pc_congr (State.rd_of_regs (hw.regs u) _) (hw.pc u), hquiet.run.pc, State.nextPc]
    · rw [State.done_vflag hb, hflags k hk, State.rd_of_regs (hw.regs u), hquiet.flags]
  | false =>
    have hdone := State.vecDone_write hb hw
    have hun : ((write s).done b c).untrapped b c := State.untrapped_of_rd h
      (((write s).rd_done_ne hctlPc hctlThr hctlLent).trans (State.rd_of_regs (hw.regs s) _))
    obtain ⟨hquiet, -⟩ := State.trap_quiet hb hun (s.suppressed b c) evs (s.pc b c) opc
    obtain ⟨hrun, hflags⟩ := State.raiseFlags_vector hb (((write s).done b c).trap b c (s.suppressed b c) evs (s.pc b c) opc).1 c fl
      (s.layerGen b c)
    have hend : s.vecEnd b c fl evs opc false write = (((write s).done b c).trap b c (s.suppressed b c) evs (s.pc b c) opc).1.raiseFlags
        b c 4 fl (s.layerGen b c) := rfl
    rw [hend]
    refine ⟨Eq.trans hrun.files (Eq.trans hquiet.run.files hdone.files), hrun.pc.trans (hquiet.run.pc.trans hdone.pc),
      hrun.mem.trans (hquiet.run.mem.trans hdone.mem), fun k hk => ?_⟩
    rw [hflags k hk, hquiet.flags, State.done_vflag hb, State.rd_of_regs (hw.regs s)]

/-- Files in which only vector registers have been written. -/
theorem State.VecDone.vectors {t : State} {r : Nat} {v : VWord} {fl : Flags}
    (h : s.VecDone t b c ((s.ctx b c).s, FMap.set (s.ctx b c).v r v, (s.ctx b c).t, (s.ctx b c).p) fl) : t.v b c r = v ∧
    (∀ x, x ≠ r → t.v b c x = s.v b c x) ∧ s.scalarIs t b c 0 0 ∧ (∀ x, t.t b c x = s.t b c x) ∧ ∀ x, t.p b c x = s.p b c x := by
  have hs : (t.ctx b c).s = (s.ctx b c).s := congrArg (·.1) h.files
  have hv : (t.ctx b c).v = FMap.set (s.ctx b c).v r v := congrArg (·.2.1) h.files
  have ht : (t.ctx b c).t = (s.ctx b c).t := congrArg (·.2.2.1) h.files
  have hp : (t.ctx b c).p = (s.ctx b c).p := congrArg (·.2.2.2) h.files
  refine ⟨?_, fun x hx => ?_, fun x => ?_, fun x => by rw [State.t, ht, State.t], fun x => by rw [State.p, hp, State.p]⟩
  · rw [State.v, hv, FMap.getD, FMap.get?_set_same, Option.getD_some]
  · rw [State.v, hv, FMap.getD, FMap.get?_set_ne _ _ hx, State.v, FMap.getD]
  · rw [if_neg (by omega), State.s, hs, State.s]

/-- A vector register written lane by lane, with the flags of its selected lanes. -/
theorem State.VecDone.tookLanes {t : State} {f : Fmt} {vd p : Nat} {fl : Flags} {r : Nat → Nat × Flags} {g : Nat → Nat}
    (h : s.VecDone t b c ((s.ctx b c).s, FMap.set (s.ctx b c).v vd (ofVlanes f ((List.range (laneCount f)).map g)), (s.ctx b c).t,
      (s.ctx b c).p) fl)
    (hg : ∀ i < laneCount f, g i % 2 ^ f.width = if (s.p b c p).getLsbD i then (r i).1 % 2 ^ f.width else lane (s.v b c vd).toNat f.width i)
    (hfl : ∀ k < 4, fl.bits.testBit k = (List.range (laneCount f)).any (fun i => (s.p b c p).getLsbD i && (r i).2.bits.testBit k)) :
    s.tookLanes t b c f vd p r := by
  obtain ⟨hvd, hv, hs, ht, hp⟩ := h.vectors
  refine ⟨fun i hi => ?_, hv, hs, ht, hp, h.pc, h.mem, fun k hk => by rw [h.flags k hk, hfl k hk]⟩
  rw [hvd, ← hg i hi]
  exact lane_ofVector g (laneCount_mul_le f) hi

end

end Sys2Proof.Machine
end

section
/-!
PROOF. VectorArithmetic and VectorMoves (02 R38 to R48, R60; 04 R110, R140): each lane of a vector instruction.
-/
namespace Sys2Proof.Machine

/-- The results of a lane-wise instruction. -/
def State.laneResults (s : State) (b : Nat) (c : Ctx) (vd p n w : Nat) (r : Nat → LaneRes) : List LaneRes :=
  (List.range n).map (fun i => guardLane (s.p b c p).toNat i (lane (s.v b c vd).toNat w i) (r i))

theorem guardLane_bits (s : State) (b : Nat) (c : Ctx) (vd p w i : Nat) (r : LaneRes) :
    (guardLane (s.p b c p).toNat i (lane (s.v b c vd).toNat w i) r).bits % 2 ^ w =
      if (s.p b c p).getLsbD i then r.bits % 2 ^ w else lane (s.v b c vd).toNat w i := by
  rw [guardLane]
  show (if (s.p b c p).getLsbD i = true then r else (⟨lane (s.v b c vd).toNat w i, .none, none⟩ : LaneRes)).bits % 2 ^ w = _
  split
  · rfl
  · exact lane_mod ..

/-- The flags of a lane-wise instruction are those of its selected lanes. -/
theorem State.laneResults_flags (s : State) (b : Nat) (c : Ctx) (vd p n w : Nat) (r : Nat → LaneRes) {k : Nat} (hk : k < 4) :
    (orFlags (s.laneResults b c vd p n w r)).bits.testBit k =
      (List.range n).any (fun i => (s.p b c p).getLsbD i && (r i).fl.bits.testBit k) := by
  rw [testBit_orFlags _ hk, State.laneResults, List.any_map]
  refine congrArg _ (funext fun i => ?_)
  show (if (s.p b c p).getLsbD i = true then r i else (⟨lane (s.v b c vd).toNat w i, .none, none⟩ : LaneRes)).fl.bits.testBit k = _
  split
  next hp => rw [hp, Bool.true_and]
  next hp => rw [Bool.eq_false_of_not_eq_true hp, Bool.false_and]; exact Flags.testBit_none k

section
variable {b : Nat} {c : Ctx} {s : State} {vd va vb vc p fmt opc : Nat} {f : Fmt}

/-- A lane-wise instruction takes the result of each selected lane. -/
theorem State.vecLanes_tookLanes (hb : b < 800) (hissues : s.issues b c (vecForm []) = true) (hfmt : vecFmt fmt = some f)
    (h : s.untrapped b c) (precise : Bool) (op : Fmt → Nat → Nat → Nat → LaneRes) (r : Nat → Nat × Flags)
    (hr : ∀ i, r i = ((op f (lane (s.v b c va).toNat f.width i) (lane (s.v b c vb).toNat f.width i)
        (lane (s.v b c vc).toNat f.width i)).bits,
      (op f (lane (s.v b c va).toNat f.width i) (lane (s.v b c vb).toNat f.width i) (lane (s.v b c vc).toNat f.width i)).fl)) :
    s.tookLanes (s.vecLanes b c vd va vb vc p fmt opc precise op) b c f vd p r := by
  obtain ⟨g, hg⟩ : ∃ g : Nat → LaneRes, g = fun i => op f (lane (s.v b c va).toNat f.width i) (lane (s.v b c vb).toNat f.width i)
    (lane (s.v b c vc).toNat f.width i) := ⟨_, rfl⟩
  obtain ⟨res, hres⟩ : ∃ res, res = s.laneResults b c vd p (laneCount f) f.width g := ⟨_, rfl⟩
  have hend : s.vecLanes b c vd va vb vc p fmt opc precise op = s.vecEnd b c (orFlags res) (laneEvs 4 0 0 (fun _ => none) res) opc precise
      (fun u => u.setV b c vd (ofVlanes f (res.map (·.bits)))) := by
    rw [State.vecLanes, State.issue_of_issues hissues]
    simp only [hfmt, hres, hg]
    rfl
  have hbits : res.map (·.bits) = (List.range (laneCount f)).map (fun i =>
      (guardLane (s.p b c p).toNat i (lane (s.v b c vd).toNat f.width i) (g i)).bits) := by
    rw [hres, State.laneResults, List.map_map]
    rfl
  have hdone := State.vecEnd_done hb h (s.writesFiles_setV b c vd (ofVlanes f (res.map (·.bits)))) (orFlags res)
    (laneEvs 4 0 0 (fun _ => none) res) opc precise
  rw [← hend, hbits] at hdone
  refine hdone.tookLanes (fun i _ => ?_) fun k hk => ?_
  · rw [guardLane_bits, hr i, hg]
  · rw [hres, s.laneResults_flags b c vd p _ _ g hk]
    refine congrArg _ (funext fun i => ?_)
    rw [hr i, hg]

end

end Sys2Proof.Machine
open Sys2Proof Sys2Proof.Machine

/-- Settles O15: every lane-wise instruction is `State.vecLanes` of its operation on one lane. -/
theorem vectorArithmetic : Obligations.VectorArithmetic := by
  unfold Obligations.VectorArithmetic
  intro b c vd va vb vc p fmt fn s f hissues hfmt huntrapped x y z hx hy hz
  subst hx hy hz
  have hb : b.val < 800 := b.isLt
  refine ⟨fun q hq => ?arith, fun q hq => ?trans⟩
  case arith =>
    simp only [List.mem_cons, List.not_mem_nil, or_false] at hq
    obtain rfl | rfl | rfl | rfl | rfl | rfl | rfl | rfl := hq <;>
      exact ⟨_, rfl, State.vecLanes_tookLanes hb hissues hfmt huntrapped _ _ _ fun _ => rfl⟩
  case trans =>
    simp only [List.mem_cons, List.not_mem_nil, or_false] at hq
    obtain rfl | rfl | rfl | rfl | rfl | rfl | rfl | rfl | rfl | rfl := hq <;>
      exact ⟨_, rfl, State.vecLanes_tookLanes hb hissues hfmt huntrapped _ _ _ fun _ => rfl⟩

end

section
/-!
PROOF. VectorMoves (02 R40, R44, R60; 04 R110, R140): predicates, the tree sum of VRED, and the other moves of a vector register.
-/
namespace Sys2Proof.Machine

/-! ### Predicates (02 R40) -/

/-- The predicates of a context after a write of one: predicate 0 is constant (04 R110). -/
def CtxSt.predicates (x : CtxSt) (r : Nat) (v : TWord) : FMap TWord := if r = 0 then x.p else FMap.set x.p r v

theorem State.writesFiles_setP (s : State) (b : Nat) (c : Ctx) (r : Nat) (v : TWord) : s.WritesFiles b c (fun u => u.setP b c r v)
    ((s.ctx b c).s, (s.ctx b c).v, (s.ctx b c).t, (s.ctx b c).predicates r v) := by
  have hset : ∀ u : State, u.setP b c r v = if r = 0 then u else u.modCtx b c (fun x => { x with p := FMap.set x.p r v }) := fun _ => rfl
  refine ⟨fun u hu => ?_, fun u => ?_, fun u => ?_, fun u => ?_⟩
  · obtain ⟨hs, hv, ht, hp⟩ : (u.ctx b c).s = (s.ctx b c).s ∧ (u.ctx b c).v = (s.ctx b c).v ∧ (u.ctx b c).t = (s.ctx b c).t ∧
        (u.ctx b c).p = (s.ctx b c).p := ⟨congrArg (·.1) hu, congrArg (·.2.1) hu, congrArg (·.2.2.1) hu, congrArg (·.2.2.2) hu⟩
    rw [hset, CtxSt.predicates]
    split
    · exact hu
    · rw [State.ctx_modCtx_same, CtxSt.files, hs, hv, ht, hp]
  all_goals
    rw [hset]
    split
  · rfl
  · rw [State.ctx_modCtx_same]
  all_goals rfl

/-- Files in which only a predicate has been written. -/
theorem State.VecDone.predicate {s t : State} {b : Nat} {c : Ctx} {r : Nat} {v : TWord} {fl : Flags}
    (h : s.VecDone t b c ((s.ctx b c).s, (s.ctx b c).v, (s.ctx b c).t, (s.ctx b c).predicates r v) fl) :
    (r ≠ 0 → t.p b c r = v) ∧ (∀ x, x ≠ r → t.p b c x = s.p b c x) ∧ s.scalarIs t b c 0 0 ∧ ∀ x, t.v b c x = s.v b c x := by
  have hs : (t.ctx b c).s = (s.ctx b c).s := congrArg (·.1) h.files
  have hv : (t.ctx b c).v = (s.ctx b c).v := congrArg (·.2.1) h.files
  have hp : (t.ctx b c).p = (s.ctx b c).predicates r v := congrArg (·.2.2.2) h.files
  refine ⟨fun hr => ?_, fun x hx => ?_, fun x => ?_, fun x => by rw [State.v, hv, State.v]⟩
  · rw [State.p, if_neg hr, hp, CtxSt.predicates, if_neg hr, FMap.getD, FMap.get?_set_same, Option.getD_some]
  · rw [State.p, State.p, hp, CtxSt.predicates]
    split
    · rfl
    · split
      · rfl
      · rw [FMap.getD, FMap.get?_set_ne _ _ hx, FMap.getD]
  · rw [if_neg (by omega), State.s, hs, State.s]

/-- The lower bits of a predicate take one bit a lane, the others are kept. -/
theorem testBit_lowBits (old n : Nat) (g : Nat → Bool) (i : Nat) :
    ((old >>> n) <<< n + ofLanes 1 ((List.range n).map (fun k => (g k).toNat))).testBit i = if i < n then g i else old.testBit i := by
  have hlt : ofLanes 1 ((List.range n).map (fun k => (g k).toNat)) < 2 ^ n := by
    have := ofLanes_lt 1 ((List.range n).map (fun k => (g k).toNat))
    rwa [Nat.one_mul, List.length_map, List.length_range] at this
  rw [Nat.shiftLeft_eq, Nat.mul_comm, Nat.testBit_two_pow_mul_add _ hlt]
  split
  next hi => exact testBit_ofLanes_one n g hi
  next hi => rw [Nat.testBit_shiftRight, Nat.add_sub_of_le (Nat.le_of_not_lt hi)]

/-! ### The tree sum (02 R56, R60) -/

theorem treeRound_length {α : Type} (op : α → α → α) (l : List α) : (treeRound op l).length = (l.length + 1) / 2 := by
  induction l using treeRound.induct with
  | case1 a b r ih => rw [treeRound, List.length_cons, ih, List.length_cons, List.length_cons]; omega
  | case2 l h =>
    have hshort : l.length < 2 := by
      match l, h with
      | [], _ => exact Nat.zero_lt_two
      | [a], _ => exact Nat.one_lt_two
      | a :: b :: r, h => exact absurd rfl (h a b r)
    rw [treeRound]
    · omega
    · exact h

theorem treeRound_map {α β : Type} {op : α → α → α} {op' : β → β → β} {h : α → β} (hop : ∀ a b, h (op a b) = op' (h a) (h b)) (l : List α) :
    (treeRound op l).map h = treeRound op' (l.map h) := by
  induction l using treeRound.induct with
  | case1 a b r ih => rw [treeRound, List.map_cons, ih, hop, List.map_cons, List.map_cons, treeRound]
  | case2 l hl =>
    match l, hl with
    | [], _ => rfl
    | [a], _ => rfl
    | a :: b :: r, hl => exact absurd rfl (hl a b r)

/-- Another representation of its elements gives the same tree sum. -/
theorem treeSum_map {α β : Type} {op : α → α → α} {op' : β → β → β} {h : α → β} (hop : ∀ a b, h (op a b) = op' (h a) (h b)) (n : Nat)
    (l : List α) : (treeSum op n l).map h = treeSum op' n (l.map h) := by
  induction n generalizing l with
  | zero => rfl
  | succ n ih =>
    match l with
    | [] => rfl
    | [a] => rfl
    | a :: b :: r =>
      show (treeSum op n (treeRound op (a :: b :: r))).map h = treeSum op' n (treeRound op' ((a :: b :: r).map h))
      rw [ih, treeRound_map hop]

/-- Rounds beyond those that a list needs change nothing. -/
theorem treeSum_rounds {α : Type} (op : α → α → α) {n m : Nat} {l : List α} (hn : l.length ≤ 2 ^ n) (hm : l.length ≤ 2 ^ m) :
    treeSum op n l = treeSum op m l := by
  induction n generalizing m l with
  | zero =>
    have hone : l.length ≤ 1 := hn
    match l, hone with
    | [], _ => cases m <;> rfl
    | [a], _ => cases m <;> rfl
  | succ n ih =>
    match l with
    | [] => cases m <;> rfl
    | [a] => cases m <;> rfl
    | a :: b :: r =>
      cases m with
      | zero => exact absurd hm (by simp)
      | succ m =>
        refine ih ?_ ?_ <;> rw [treeRound_length]
        · have := Nat.pow_succ (n := 2) (m := n); omega
        · have := Nat.pow_succ (n := 2) (m := m); omega

/-- The value of VRED's sum is the tree sum of the values of its lanes. -/
theorem redSum_val (f : Fmt) (l : List RedSum) (hlen : l.length ≤ 512) :
    ((treeSum (redAdd f) 9 l).headD ⟨0, .none, 0, []⟩).val = (f.tree (l.map (fun r => (r.val, r.fl)))).1 := by
  have hmap := treeSum_map (h := fun r : RedSum => (r.val, r.fl)) (op := redAdd f)
    (op' := fun a b => ((f.narrow ((f.decode a.1).add (f.decode b.1))).1, (a.2.or b.2).or (f.narrow ((f.decode a.1).add (f.decode b.1))).2))
    (fun _ _ => rfl) 9 l
  have hrounds := treeSum_rounds (fun a b : Nat × Flags => ((f.narrow ((f.decode a.1).add (f.decode b.1))).1,
    (a.2.or b.2).or (f.narrow ((f.decode a.1).add (f.decode b.1))).2)) (n := 9) (m := 32) (l := l.map (fun r : RedSum => (r.val, r.fl)))
    (by rw [List.length_map]; exact hlen) (by rw [List.length_map]; exact Nat.le_trans hlen (by decide))
  rw [Fmt.tree]
  refine Eq.trans ?_ (congrArg (fun q => (match q with | a :: _ => a | [] => ((0 : Nat), Flags.none)).1) (hmap.trans hrounds))
  cases treeSum (redAdd f) 9 l <;> rfl

/-- A register whose first lane alone has been replaced. -/
theorem lane_setBits {w size : Nat} (hw : 0 < w) (d : BitVec size) (v : Nat) {i : Nat} (hi : w * i + w ≤ size) :
    lane (BitVec.ofNat size (setBits d.toNat (w - 1) 0 v)).toNat w i = if i = 0 then v % 2 ^ w else lane d.toNat w i := by
  refine Nat.eq_of_testBit_eq fun k => ?_
  rw [testBit_lane]
  by_cases hk : k < w
  · rw [decide_eq_true hk, Bool.true_and, BitVec.toNat_ofNat, Nat.testBit_mod_two_pow, decide_eq_true (by omega), Bool.true_and,
      testBit_setBits _ _ _ _ _ (Nat.zero_le _)]
    split
    next hlow =>
      have hzero : i = 0 := by
        by_contra hne
        have : w * 1 ≤ w * i := Nat.mul_le_mul_left w (by omega)
        omega
      rw [if_pos hzero, hzero, Nat.mul_zero, Nat.zero_add, Nat.sub_zero, Nat.testBit_mod_two_pow, decide_eq_true hk, Bool.true_and]
    next hhigh =>
      have hne : i ≠ 0 := fun h => hhigh (by rw [h, Nat.mul_zero]; omega)
      rw [if_neg hne, testBit_lane, decide_eq_true hk, Bool.true_and]
  · rw [decide_eq_false hk, Bool.false_and]
    split
    · rw [Nat.testBit_mod_two_pow, decide_eq_false hk, Bool.false_and]
    · rw [testBit_lane, decide_eq_false hk, Bool.false_and]

theorem vecFmt_width {fmt : Nat} {f : Fmt} (h : vecFmt fmt = some f) : (f.width = 16 ∨ f.width = 32) ∧ laneCount f ≤ 512 := by
  unfold vecFmt at h
  split at h
  · cases h; decide
  · cases h; decide
  · cases h; decide
  · exact absurd h (by simp)

section
variable {b : BenchNo} {c : Ctx} {s : State} {f : Fmt} {vd va vb vc : Fin 32} {p : Fin 8} {fmt : Fin 16} {fn : BitVec 29}

/-- VCMP compares lane by lane into its predicate. -/
theorem execVcmp_done (hissues : s.issues b c (vecForm []) = true) (hfmt : vecFmt fmt = some f) (h : s.untrapped b c) {cond : Nat}
    (hcond : fn.toNat % 8 = cond) (hlegal : cond ≤ 5) (g : Nat → Bool)
    (hg : ∀ i, (cmpLane cond f (lane (s.v b c va).toNat f.width i) (lane (s.v b c vb).toNat f.width i)).1 = g i) :
    ∃ t fl, exec (.vcmp b c vd va vb vc p fmt fn) s = .next t ∧ s.VecDone t b c ((s.ctx b c).s, (s.ctx b c).v, (s.ctx b c).t,
      (s.ctx b c).predicates p (BitVec.ofNat 256 (((s.p b c p).toNat >>> laneCount f) <<< laneCount f +
        ofLanes 1 ((List.range (laneCount f)).map (fun i => (g i).toNat))))) fl := by
  have hcode : bits fn.toNat 2 0 = cond := hcond
  have hnot : ¬ cond > 5 := by omega
  obtain ⟨res, hres⟩ : ∃ res, res = (List.range (laneCount f)).map (fun i =>
    cmpLane cond f (lane (s.v b c va).toNat f.width i) (lane (s.v b c vb).toNat f.width i)) := ⟨_, rfl⟩
  have hbits : res.map (fun r => r.1.toNat) = (List.range (laneCount f)).map (fun i => (g i).toNat) := by
    rw [hres, List.map_map]
    exact List.map_congr_left fun i _ => congrArg Bool.toNat (hg i)
  have hend : exec (.vcmp b c vd va vb vc p fmt fn) s = .next (s.vecEnd b c
      (orFlags (res.map (fun r => (⟨0, r.2.1, r.2.2⟩ : LaneRes)))) (laneEvs 4 0 0 (fun _ => none)
        (res.map (fun r => (⟨0, r.2.1, r.2.2⟩ : LaneRes)))) 0x48 true (fun u => u.setP b c p (BitVec.ofNat 256
          (((s.p b c p).toNat >>> laneCount f) <<< laneCount f + ofLanes 1 ((List.range (laneCount f)).map (fun i => (g i).toNat)))))) := by
    show execVcmp b c vd va vb vc p fmt fn s = _
    rw [execVcmp, State.issue_of_issues hissues]
    simp only [hfmt, hcode, if_neg hnot, ← hres, hbits]
    rfl
  exact ⟨_, _, hend, State.vecEnd_done b.isLt h (s.writesFiles_setP b c p _) _ _ _ true⟩

/-- VSEL takes lanes of VA or of VB. -/
theorem execVsel_done (hissues : s.issues b c (vecForm []) = true) (hfmt : vecFmt fmt = some f) (hvc : vc.val < 8) :
    ∃ t, exec (.vsel b c vd va vb vc p fmt fn) s = .next t ∧ s.tookLanes t b c f vd p (fun i =>
      (lane (s.v b c (if (s.p b c vc).getLsbD i then va else vb)).toNat f.width i, .none)) := by
  have hnot : ¬ vc.val > 7 := by omega
  have hend : exec (.vsel b c vd va vb vc p fmt fn) s = .next ((s.setV b c vd (ofVlanes f ((List.range (laneCount f)).map (fun i =>
      if (s.p b c p).getLsbD i then (if (s.p b c vc).getLsbD i then lane (s.v b c va).toNat f.width i
        else lane (s.v b c vb).toNat f.width i) else lane (s.v b c vd).toNat f.width i)))).done b c) := by
    show execVsel b c vd va vb vc p fmt fn s = _
    rw [execVsel, State.issue_of_issues hissues]
    simp only [hfmt, if_neg hnot]
    rfl
  refine ⟨_, hend, (State.vecDone_write b.isLt (s.writesFiles_setV b c vd _)).tookLanes (fun i _ => ?_) fun k _ => ?_⟩
  · split
    · rw [lane_mod]
      split <;> rw [lane_mod]
    · rw [lane_mod]
  · simp only [Flags.testBit_none, Bool.and_false]
    exact (List.any_eq_false.mpr fun _ _ => Bool.false_ne_true).symm

/-- VBCAST takes the low bits of a scalar register in every selected lane. -/
theorem execVbcast_done (hissues : s.issues b c (vecForm [va]) = true) (hfmt : vecFmt fmt = some f) :
    ∃ t, exec (.vbcast b c vd va vb vc p fmt fn) s = .next t ∧ s.tookLanes t b c f vd p (fun _ => ((s.s b c va).toNat, .none)) := by
  have hend : exec (.vbcast b c vd va vb vc p fmt fn) s = .next ((s.setV b c vd (ofVlanes f ((List.range (laneCount f)).map (fun i =>
      if (s.p b c p).getLsbD i then (s.s b c va).toNat % 2 ^ f.width else lane (s.v b c vd).toNat f.width i)))).done b c) := by
    show execVbcast b c vd va vb vc p fmt fn s = _
    rw [execVbcast, State.issue_of_issues hissues]
    simp only [hfmt]
    rfl
  refine ⟨_, hend, (State.vecDone_write b.isLt (s.writesFiles_setV b c vd _)).tookLanes (fun i _ => ?_) fun k _ => ?_⟩
  · split
    · exact Nat.mod_mod ..
    · rw [lane_mod]
  · simp only [Flags.testBit_none, Bool.and_false]
    exact (List.any_eq_false.mpr fun _ _ => Bool.false_ne_true).symm

/-- The lanes that VRED sums, an unselected one as zero. -/
def State.redLanes (s : State) (b : Nat) (c : Ctx) (f : Fmt) (va p : Nat) : List RedSum :=
  (List.range (laneCount f)).map (fun i => ⟨if (s.p b c p).getLsbD i then lane (s.v b c va).toNat f.width i else 0, .none, i, []⟩)

/-- VRED puts its sum in lane 0. -/
theorem execVred_done (hissues : s.issues b c (vecForm []) = true) (hfmt : vecFmt fmt = some f) (h : s.untrapped b c) :
    ∃ t fl, exec (.vred b c vd va vb vc p fmt fn) s = .next t ∧ s.VecDone t b c ((s.ctx b c).s, FMap.set (s.ctx b c).v vd
      (BitVec.ofNat 4096 (setBits (s.v b c vd).toNat (f.width - 1) 0
        ((treeSum (redAdd f) 9 (s.redLanes b c f va p)).headD ⟨0, .none, 0, []⟩).val)), (s.ctx b c).t, (s.ctx b c).p) fl := by
  obtain ⟨sum, hsum⟩ : ∃ sum, sum = (treeSum (redAdd f) 9 (s.redLanes b c f va p)).headD ⟨0, .none, 0, []⟩ := ⟨_, rfl⟩
  have hend : exec (.vred b c vd va vb vc p fmt fn) s = .next (s.vecEnd b c sum.fl (sum.evs.map (fun q => ⟨q.2, 4, 0, q.1, 0, none⟩)) 0x4A
      true (fun u => u.setV b c vd (BitVec.ofNat 4096 (setBits (s.v b c vd).toNat (f.width - 1) 0 sum.val)))) := by
    show execVred b c vd va vb vc p fmt fn s = _
    rw [execVred, State.issue_of_issues hissues, hsum]
    simp only [hfmt]
    rfl
  rw [← hsum]
  exact ⟨_, _, hend, State.vecEnd_done b.isLt h (s.writesFiles_setV b c vd _) _ _ _ true⟩

/-- The lanes of VRED's destination. -/
theorem State.redLanes_sum (hfmt : vecFmt fmt = some f) {i : Nat} (hi : i < laneCount f) :
    lane (BitVec.ofNat 4096 (setBits (s.v b c vd).toNat (f.width - 1) 0
      ((treeSum (redAdd f) 9 (s.redLanes b c f va p)).headD ⟨0, .none, 0, []⟩).val)).toNat f.width i =
    if i = 0 then (f.tree ((List.range (laneCount f)).map (fun k =>
      (if (s.p b c p).getLsbD k then lane (s.v b c va).toNat f.width k else 0, Flags.none)))).1 % 2 ^ f.width
    else lane (s.v b c vd).toNat f.width i := by
  obtain ⟨hwidth, hcount⟩ := vecFmt_width hfmt
  have hfits : f.width * i + f.width ≤ 4096 := by
    have := laneCount_mul_le f
    have hmul : f.width * (i + 1) ≤ f.width * laneCount f := Nat.mul_le_mul_left _ hi
    rw [Nat.mul_comm (laneCount f)] at this
    rw [Nat.mul_add_one] at hmul
    omega
  rw [lane_setBits (by omega) _ _ hfits, redSum_val f _ (by rw [State.redLanes, List.length_map, List.length_range]; exact hcount),
    State.redLanes, List.map_map]
  rfl

/-- VCVT converts lane by lane. -/
theorem execVcvt_done (h : s.untrapped b c) {src dst : Fmt} {rs : Nat} {tl : Tile} (hrs : rs = fn.toNat / 256 % 32)
    (hissues : s.issues b c (vecForm [rs]) = true) (hsrc : Fmt.ofElem fmt = some src) (hdst : Fmt.ofElem (fn.toNat % 16) = some dst)
    (htl : tl = tileOf (s.t b c (fn.toNat / 16 % 16)).toNat) (hfmt : (Fmt.ofElem tl.fmt).isSome = true) (husable : tl.usable = true) :
    ∃ t fl, exec (.vcvt b c vd va vb vc p fmt fn) s = .next t ∧ s.VecDone t b c ((s.ctx b c).s, FMap.set (s.ctx b c).v vd
      (BitVec.ofNat 4096 (ofLanes dst.width ((List.range (min 256 (4096 / max src.width dst.width))).map (fun i =>
        (guardLane (s.p b c p).toNat i (lane (s.v b c vd).toNat dst.width i) (cvtLane src dst (tl.rnd s.seed (s.stepOf b c)
          (((s.s b c rs).toNat + i) / tl.cols) (((s.s b c rs).toNat + i) % tl.cols)) (lane (s.v b c va).toNat src.width i))).bits)))),
      (s.ctx b c).t, (s.ctx b c).p) fl := by
  have hrsBits : bits fn.toNat 12 8 = rs := by rw [hrs, bits, Nat.shiftRight_eq_div_pow]; rfl
  have hdstBits : bits fn.toNat 3 0 = fn.toNat % 16 := rfl
  have htlBits : bits fn.toNat 7 4 = fn.toNat / 16 % 16 := by rw [bits, Nat.shiftRight_eq_div_pow]; rfl
  have hknown : (Fmt.ofElem tl.fmt).isNone = false := by rw [Option.isNone_eq_false_iff]; exact hfmt
  obtain ⟨g, hg⟩ : ∃ g : Nat → LaneRes, g = fun i => cvtLane src dst (tl.rnd s.seed (s.stepOf b c) (((s.s b c rs).toNat + i) / tl.cols)
    (((s.s b c rs).toNat + i) % tl.cols)) (lane (s.v b c va).toNat src.width i) := ⟨_, rfl⟩
  obtain ⟨res, hres⟩ : ∃ res, res = s.laneResults b c vd p (min 256 (4096 / max src.width dst.width)) dst.width g := ⟨_, rfl⟩
  have hbits : res.map (·.bits) = (List.range (min 256 (4096 / max src.width dst.width))).map (fun i =>
      (guardLane (s.p b c p).toNat i (lane (s.v b c vd).toNat dst.width i) (g i)).bits) := by
    rw [hres, State.laneResults, List.map_map]
    rfl
  have hend : ∃ evs, exec (.vcvt b c vd va vb vc p fmt fn) s = .next (s.vecEnd b c (orFlags res) evs 0x4C true
      (fun u => u.setV b c vd (BitVec.ofNat 4096 (ofLanes dst.width (res.map (·.bits)))))) := by
    have hgo : ∀ k, s.issue b c (vecForm [rs]) k = k s := State.issue_of_issues hissues
    refine Exists.imp (fun _ hev => (show execVcvt b c vd va vb vc p fmt fn s = _ from hev)) ?_
    rw [execVcvt]
    simp only [hrsBits, hgo, hsrc, hdstBits, hdst, htlBits, ← htl, hknown, husable, Bool.not_true, Bool.false_eq_true, if_false, hres, hg]
    exact ⟨_, rfl⟩
  obtain ⟨evs, hend⟩ := hend
  rw [hbits] at hend
  subst hg
  exact ⟨_, _, hend, State.vecEnd_done b.isLt h (s.writesFiles_setV b c vd _) _ _ _ true⟩

end

end Sys2Proof.Machine
open Sys2Proof Sys2Proof.Machine

/-- Settles O16: each move is what it writes of the context's files, lane by lane; VRED's sum is the tree sum of its lanes. -/
theorem vectorMoves : Obligations.VectorMoves := by
  unfold Obligations.VectorMoves
  intro b c vd va vb vc p fmt fn s huntrapped
  refine ⟨fun f x y hfmt hissues hx hy => ⟨fun q hq hcond => ?cmp, fun hvc => execVsel_done hissues hfmt hvc, ?red⟩,
    fun f hfmt hissues => execVbcast_done hissues hfmt, fun src dst rs tl hrs hissues hsrc hdst htl hknown husable => ?cvt⟩
  case cmp =>
    subst hx hy
    have hdone : ∃ t fl, exec (.vcmp b c vd va vb vc p fmt fn) s = .next t ∧ s.VecDone t b c ((s.ctx b c).s, (s.ctx b c).v,
        (s.ctx b c).t, (s.ctx b c).predicates p (BitVec.ofNat 256 (((s.p b c p).toNat >>> laneCount f) <<< laneCount f +
          ofLanes 1 ((List.range (laneCount f)).map (fun i => (q.2 i).toNat))))) fl := by
      simp only [List.mem_cons, List.not_mem_nil, or_false] at hq
      obtain rfl | rfl | rfl | rfl | rfl | rfl := hq <;>
        exact execVcmp_done hissues hfmt huntrapped hcond (Nat.le_of_ble_eq_true rfl) _ fun _ => rfl
    obtain ⟨t, fl, ht, hdone⟩ := hdone
    obtain ⟨hp, hother, hs, hv⟩ := hdone.predicate
    refine ⟨t, ht, fun hne i hi => ?_, hother, hs, hv, hdone.pc, hdone.mem⟩
    rw [hp hne, BitVec.getLsbD_ofNat, decide_eq_true hi, Bool.true_and, testBit_lowBits]
    rfl
  case red =>
    obtain ⟨t, fl, ht, hdone⟩ := execVred_done (vd := vd) (va := va) (vb := vb) (vc := vc) (p := p) (fn := fn) hissues hfmt huntrapped
    obtain ⟨hvd, hother, hs, -⟩ := hdone.vectors
    exact ⟨t, ht, hdone.pc, hdone.mem, fun i hi => by rw [hvd]; exact State.redLanes_sum hfmt hi, hother, hs⟩
  case cvt =>
    obtain ⟨t, fl, ht, hdone⟩ := execVcvt_done (vd := vd) (va := va) (vb := vb) (vc := vc) (p := p) huntrapped hrs hissues hsrc hdst htl
      hknown husable
    obtain ⟨hvd, hother, hs, -⟩ := hdone.vectors
    refine ⟨t, ht, hdone.pc, hdone.mem, fun i hi => ?_, hother, hs⟩
    have hfits : min 256 (4096 / max src.width dst.width) * dst.width ≤ 4096 :=
      calc min 256 (4096 / max src.width dst.width) * dst.width
          ≤ 4096 / max src.width dst.width * max src.width dst.width := Nat.mul_le_mul (Nat.min_le_right _ _) (Nat.le_max_right _ _)
        _ ≤ 4096 := Nat.div_mul_le_self _ _
    rw [hvd, lane_ofVector _ hfits hi, guardLane_bits]

end

section
/-!
PROOF. FabricCompletions (10 R297 to R305, R312, R316; 18 R495): how a transaction of this module's requesters ends, what is sent
again, and the writes of routes and quotas.
-/
namespace Sys2Proof.Machine

/-! ### A transaction leaves its flow (10 R297, R312, R319) -/

/-- A transaction has left its flow: nothing of it is unanswered, and no context, no event and no byte has changed. -/
structure State.TxnLeft (s u : State) (key : Nat) : Prop where
  below : s.belowKept u
  id : u.rd A.tmrId = s.rd A.tmrId
  benches : u.benches = s.benches
  evt : u.evt = s.evt
  mem : u.mem = s.mem
  gone : FMap.get? u.tmr.outst key = none

theorem tmrTc_apart {c : Nat} (hc : c < 8) : A.tmrTc c ≠ A.tmrId ∧ A.tmrTc c ≠ A.tmrErr := by
  simp only [A.tmrTc, A.tmrId, A.tmrErr]
  omega

theorem State.retire_left {s : State} {x : Txn} (hwait : s.tmr.waitq = []) (htc : x.tc < 8) :
    s.TxnLeft (s.retire x) (txnKey x.dest x.tc x.seq) ∧ (s.retire x).rd A.tmrErr = s.rd A.tmrErr := by
  obtain ⟨hid, herr⟩ := tmrTc_apart htc
  obtain ⟨u, hu⟩ : ∃ u, u = (s.putTmr { s.tmr with outst := FMap.del s.tmr.outst (txnKey x.dest x.tc x.seq) }).setFld (A.tmrTc x.tc)
    F.tmrTc.USE (s.fld (A.tmrTc x.tc) F.tmrTc.USE - 1) := ⟨_, rfl⟩
  have hgone : FMap.get? u.tmr.outst (txnKey x.dest x.tc x.seq) = none := by
    rw [hu]
    exact FMap.get?_del_same ..
  have hrelease : s.retire x = u.putTmr { u.tmr with waitq := [] } := by
    have huwait : u.tmr.waitq = [] := by rw [hu]; exact hwait
    rw [← State.release_idle huwait, hu]
    rfl
  have hrd : ∀ a, a ≠ A.tmrTc x.tc → (s.retire x).rd a = s.rd a := fun a ha => by
    rw [hrelease, hu]
    exact State.rd_setFld_ne _ _ _ ha
  refine ⟨⟨fun a ha => hrd a fun h => ?_, hrd _ hid.symm, ?_, ?_, ?_, ?_⟩, hrd _ herr.symm⟩
  · have := tmrTc_above x.tc
    omega
  · rw [hrelease, hu]; rfl
  · rw [hrelease, hu]; rfl
  · rw [hrelease, hu]; rfl
  · rw [hrelease]; exact hgone

/-- The record of a failure leaves all but its own registers (10 R319). -/
theorem State.recordFail_rd_ne (s : State) (x : Txn) (st : Status) {a : Nat} (herr : a ≠ A.tmrErr) (haddr : a ≠ A.tmrErrAddr) :
    (s.recordFail x st).rd a = s.rd a := by
  have hcount : (s.incSat A.tmrErr F.tmrErr.COUNT 1).rd a = s.rd a := State.rd_incSat_ne _ _ _ herr
  unfold State.recordFail
  dsimp only
  split
  · exact hcount
  · rw [State.rd_setFld_ne _ _ _ haddr, State.rd_hwSet_ne _ _ herr, State.rd_setFld_ne _ _ _ herr, State.rd_setFld_ne _ _ _ herr,
      State.rd_setFld_ne _ _ _ herr, State.rd_setFld_ne _ _ _ herr, hcount]

/-- A failure is counted. -/
theorem State.recordFail_count (s : State) (x : Txn) (st : Status) : (s.recordFail x st).fld A.tmrErr F.tmrErr.COUNT =
    min (s.fld A.tmrErr F.tmrErr.COUNT + 1) 0xFFFF := by
  have haddr : A.tmrErr ≠ A.tmrErrAddr := by decide
  have hcount : (s.incSat A.tmrErr F.tmrErr.COUNT 1).fld A.tmrErr F.tmrErr.COUNT = min (s.fld A.tmrErr F.tmrErr.COUNT + 1) 0xFFFF := by
    rw [State.incSat, State.fld_setFld_same _ _ _ _ (by decide), satAdd]
    exact Nat.mod_eq_of_lt (Nat.lt_of_le_of_lt (Nat.min_le_right _ _) (by decide))
  unfold State.recordFail
  dsimp only
  split
  · exact hcount
  · rw [State.fld_of_rd (State.rd_setFld_ne _ _ _ haddr), State.fld_hwSet_apart _ _ (by decide) (by decide) (by decide),
      State.fld_setFld_field _ _ _ _ _ (by decide) (by decide) (by decide),
      State.fld_setFld_field _ _ _ _ _ (by decide) (by decide) (by decide),
      State.fld_setFld_field _ _ _ _ _ (by decide) (by decide) (by decide),
      State.fld_setFld_field _ _ _ _ _ (by decide) (by decide) (by decide), hcount]

/-- An ended transaction: it has left its flow, and a failure is recorded. -/
def State.txnSettled (s : State) (x : Txn) (st : Status) : State := if st = .ok then s.retire x else (s.retire x).recordFail x st

theorem State.txnSettled_left {s : State} {x : Txn} (hwait : s.tmr.waitq = []) (htc : x.tc < 8) (st : Status) :
    s.TxnLeft (s.txnSettled x st) (txnKey x.dest x.tc x.seq) ∧ (st ≠ .ok → (s.txnSettled x st).fld A.tmrErr F.tmrErr.COUNT =
      min (s.fld A.tmrErr F.tmrErr.COUNT + 1) 0xFFFF) := by
  obtain ⟨hleft, herr⟩ := State.retire_left hwait htc
  unfold State.txnSettled
  split
  next hok => exact ⟨hleft, fun h => absurd hok h⟩
  · have hsame := State.recordFail_same (msk := 2 ^ Part.mem.idx + 2 ^ Part.benches.idx + 2 ^ Part.evt.idx + 2 ^ Part.tmr.idx) rfl
      (s.retire x) x st (.refl _)
    refine ⟨⟨hleft.below.trans (State.recordFail_below _ _ _),
      (State.recordFail_rd_ne _ _ _ (by decide) (by decide)).trans hleft.id, (hsame.same .benches rfl).trans hleft.benches,
      (hsame.same .evt rfl).trans hleft.evt, (hsame.same .mem rfl).trans hleft.mem, ?_⟩, fun _ => ?_⟩
    · rw [show ((s.retire x).recordFail x st).tmr = (s.retire x).tmr from hsame.same .tmr rfl]
      exact hleft.gone
    · rw [State.recordFail_count, State.fld_of_rd herr]

/-! ### Loads and stores of another module (10 R297, R316) -/

/-- A trap event of a context that does not trap changes only registers, the events and the same-cycle record. -/
theorem State.trap_quiet_same {msk : Nat} (hfree : msk &&& 67109889 = 0) {s : State} {b : Nat} {c : Ctx} (h : s.untrapped b c) (sup : Bool)
    (evs : List TrapEv) (pc opc : Nat) : s.Same msk (s.trap b c sup evs pc opc).1 := by
  have hrecord : ∀ ev, s.Same msk (s.trapRecord b c ev pc opc) := fun ev => State.trapRecord_same (free_mono hfree rfl) s b c ev pc opc (.refl s)
  unfold State.trap
  split
  · exact .refl s
  next ev _ =>
    split
    · exact State.incSat_same (free_mono hfree rfl) _ _ _ _ (.refl s)
    · rw [show s.fldBit (A.numCtl b) F.numCtl.TRAP c.idx = false from h]
      simp only [Bool.false_and, Bool.false_eq_true, if_false]
      split
      · exact .refl s
      · split
        · exact State.putCyc_same (free_mono hfree rfl) _ _ (State.putEvt_same (free_mono hfree rfl) _ _ (hrecord ev))
        · exact .refl s

/-- A load of a poisoned line by a context that does not trap goes on (06 R180). -/
theorem State.loadPoison_quiet {s : State} {b : Nat} (hb : b < 800) {c : Ctx} (h : s.untrapped b c) (pc n lgen : Nat) :
    (s.loadPoison b c pc n lgen).2 = false ∧
    s.Same (2 ^ Part.mem.idx + 2 ^ Part.benches.idx + 2 ^ Part.tmr.idx) (s.loadPoison b c pc n lgen).1 := by
  obtain ⟨-, hgoes⟩ := State.trap_quiet hb h (s.suppressed b c) [loadTrap] pc (0x38 + Nat.log2 n)
  have hsame := State.trap_quiet_same (msk := 2 ^ Part.mem.idx + 2 ^ Part.benches.idx + 2 ^ Part.tmr.idx) rfl h (s.suppressed b c)
    [loadTrap] pc (0x38 + Nat.log2 n)
  have hresult : s.loadPoison b c pc n lgen =
      ((s.trap b c (s.suppressed b c) [loadTrap] pc (0x38 + Nat.log2 n)).1.raiseFlags b c 4 .invalid lgen, false) := by
    rw [State.loadPoison]
    simp only [hgoes, Bool.not_false, if_true]
  rw [hresult]
  exact ⟨rfl, State.raiseFlags_same rfl _ b c 4 .invalid lgen hsame⟩

section
variable {s : State} {x : Txn} {b : BenchNo} {c : Ctx} {l : Load}

theorem State.scalarIs_of_benches {u t : State} {b : Nat} {c : Ctx} {rd : Nat} {v : Word} (hbenches : u.benches = s.benches)
    (h : u.scalarIs t b c rd v) : s.scalarIs t b c rd v := by
  intro r
  rw [h r, State.s, State.ctx_of_benches hbenches, State.s]

/-- The context of a load that is answered has its data in the register. -/
theorem State.loadFar_answered (hreq : x.req = .rd (localOf l.addr) l.size) (hloads : (s.ctx b c).loads = [l])
    (hmod : modOf l.addr = x.dest) (st : Status) (data : List Byte) (psn : Bool) (hpsn : psn = false ∨ s.untrapped b c) :
    ((s.loadFar b c x st data psn).ctx b c).loads = [] ∧ (s.loadFar b c x st data psn).mem = s.mem ∧
    (s.loadFar b c x st data psn).tmr = s.tmr ∧
    s.scalarIs (s.loadFar b c x st data psn) b c l.rd (if st = .ok then BitVec.ofNat 64 (ofLe (data.take l.size)) else 0) ∧
    (st ≠ .ok → (s.loadFar b c x st data psn).regs = s.regs ∧
      s.raises (s.loadFar b c x st data psn) 0x41 (evSource 3 0x3F) (leBytes 8 l.addr ++
        leBytes 2 (if s.isHere x.dest then s.modnum else x.dest) ++ [BitVec.ofNat 8 st.code, BitVec.ofNat 8 c.idx, BitVec.ofNat 8 x.tc] ++
        leBytes 2 b ++ [BitVec.ofNat 8 c.code])) := by
  have hfind : (s.ctx b c).loads.find? (fun q => localOf q.addr == localOf l.addr && modOf q.addr == x.dest && q.size == l.size) =
      some l := by
    rw [hloads, List.find?_cons, hmod]
    simp only [beq_self_eq_true, Bool.and_self]
  obtain ⟨u, hu⟩ : ∃ u, u = s.loadGone b c l := ⟨_, rfl⟩
  have hgone : (u.ctx b c).loads = [] := by
    rw [hu, State.loadGone, State.ctx_modCtx_same, hloads]
    simp only [List.erase_cons_head]
  have hfiles : s.filesKept u b c := by
    rw [hu, State.loadGone]
    exact (State.filesKept.refl s b c).modCtx _ fun _ => rfl
  have humem : u.mem = s.mem ∧ u.tmr = s.tmr ∧ u.regs = s.regs ∧ u.evt = s.evt := by rw [hu]; exact ⟨rfl, rfl, rfl, rfl⟩
  obtain ⟨humem, hutmr, huregs, huevt⟩ := humem
  have hset : ∀ (w : State) (v : Word), w.benches = u.benches → w.mem = u.mem → w.tmr = u.tmr →
      ((w.setS b c l.rd v).ctx b c).loads = [] ∧ (w.setS b c l.rd v).mem = s.mem ∧ (w.setS b c l.rd v).tmr = s.tmr ∧
      s.scalarIs (w.setS b c l.rd v) b c l.rd v := by
    intro w v hwb hwm hwt
    have hsame := State.setS_same (msk := 2 ^ Part.mem.idx + 2 ^ Part.tmr.idx) rfl w b c l.rd v (.refl w)
    have hscalar : w.scalarIs (w.setS b c l.rd v) b c l.rd v := State.scalarIs_setS (.refl _ b c)
    have hwfiles := hfiles.of_benches hwb
    refine ⟨?_, (hsame.same .mem rfl).trans (hwm.trans humem), (hsame.same .tmr rfl).trans (hwt.trans hutmr), fun r => ?_⟩
    · rw [State.ctx_setS CtxSt.loads (fun _ _ => rfl), State.ctx_of_benches hwb, hgone]
    · have hkept := hwfiles.scalars r
      rw [if_neg (by omega)] at hkept
      rw [hscalar r, hkept]
  rw [State.loadFar]
  simp only [hreq, hfind, ← hu]
  by_cases hok : st = .ok
  · simp only [ne_eq, hok, not_true_eq_false, false_implies, and_true]
    cases psn with
    | false => exact hset u _ rfl rfl rfl
    | true =>
      have hun : u.untrapped b c := State.untrapped_of_rd (hpsn.resolve_left (by decide)) (State.rd_of_regs huregs _)
      obtain ⟨hgoes, hquiet⟩ := State.loadPoison_quiet b.isLt hun l.pc l.size l.lgen
      generalize u.loadPoison b c l.pc l.size l.lgen = q at hgoes hquiet ⊢
      obtain ⟨w, stopped⟩ := q
      simp only at hgoes hquiet
      subst hgoes
      exact hset w _ (hquiet.same .benches rfl) (hquiet.same .mem rfl) (hquiet.same .tmr rfl)
  · simp only [if_neg hok]
    obtain ⟨hloadsT, hmemT, htmrT, hscalarT⟩ := hset u 0 rfl rfl rfl
    have hsame := State.setS_same (msk := 2 ^ Part.regs.idx + 2 ^ Part.evt.idx) rfl u b c l.rd 0 (.refl u)
    have hregs : (u.setS b c l.rd 0).regs = s.regs := (hsame.same .regs rfl).trans huregs
    have hevt : (u.setS b c l.rd 0).evt = s.evt := (hsame.same .evt rfl).trans huevt
    have hnum : (u.setS b c l.rd 0).modnum = s.modnum := State.fld_of_rd (State.rd_of_regs hregs _) _
    have hfailed : (u.setS b c l.rd 0).accessFailed b c l.addr st x.tc = (u.setS b c l.rd 0).raise 0x41 (evSource 3 0x3F) (leBytes 8 l.addr ++
        leBytes 2 (if s.isHere x.dest then s.modnum else x.dest) ++ [BitVec.ofNat 8 st.code, BitVec.ofNat 8 c.idx, BitVec.ofNat 8 x.tc] ++
        leBytes 2 b ++ [BitVec.ofNat 8 c.code]) := by
      rw [State.accessFailed, State.isHere, hnum, hmod]
      rfl
    rw [hfailed]
    refine ⟨by rw [State.ctx_of_benches (State.raise_benches ..)]; exact hloadsT, (State.raise_mem ..).trans hmemT,
      ((State.raise_same (msk := 2 ^ Part.tmr.idx) rfl _ _ _ _ (.refl _)).same .tmr rfl).trans htmrT, fun r => ?_,
      fun _ => ⟨(State.raise_regs ..).trans hregs, State.raises_of_raise hevt List.prefix_rfl⟩⟩
    rw [State.s, State.ctx_of_benches (State.raise_benches ..)]
    exact hscalarT r

/-- A load's transaction ends (10 R297, R316, R319). -/
theorem State.txnEnd_load (hwait : s.tmr.waitq = []) (htc : x.tc < 8) (howner : x.owner = .load b c)
    (hreq : x.req = .rd (localOf l.addr) l.size) (hloads : (s.ctx b c).loads = [l]) (hmod : modOf l.addr = x.dest) (st : Status)
    (data : List Byte) (psn : Bool) (hpsn : psn = false ∨ s.untrapped b c) :
    ((s.txnEnd x st data psn).ctx b c).loads = [] ∧ FMap.get? (s.txnEnd x st data psn).tmr.outst (txnKey x.dest x.tc x.seq) = none ∧
    (s.txnEnd x st data psn).mem = s.mem ∧
    s.scalarIs (s.txnEnd x st data psn) b c l.rd (if st = .ok then BitVec.ofNat 64 (ofLe (data.take l.size)) else 0) ∧
    (st ≠ .ok → (s.txnEnd x st data psn).fld A.tmrErr F.tmrErr.COUNT = min (s.fld A.tmrErr F.tmrErr.COUNT + 1) 0xFFFF ∧
      s.raises (s.txnEnd x st data psn) 0x41 (evSource 3 0x3F) (leBytes 8 l.addr ++
        leBytes 2 (if s.isHere x.dest then s.modnum else x.dest) ++ [BitVec.ofNat 8 st.code, BitVec.ofNat 8 c.idx, BitVec.ofNat 8 x.tc] ++
        leBytes 2 b ++ [BitVec.ofNat 8 c.code])) := by
  obtain ⟨hleft, hcount⟩ := State.txnSettled_left hwait htc st
  have hend : s.txnEnd x st data psn = (s.txnSettled x st).loadFar b c x st data psn := by
    rw [State.txnEnd]
    simp only [howner]
    rfl
  have hnum : (s.txnSettled x st).modnum = s.modnum := State.fld_of_rd hleft.id _
  have hctl : (s.txnSettled x st).rd (A.numCtl b) = s.rd (A.numCtl b) := hleft.below _ (by
    have := b.isLt
    simp only [A.numCtl, A.tmrId, benchBase, regBase]
    omega)
  obtain ⟨hgone, hmem, htmr, hscalar, hfail⟩ := State.loadFar_answered (s := s.txnSettled x st) (b := b) (c := c) hreq
    (by rw [State.ctx_of_benches hleft.benches]; exact hloads) hmod st data psn
    (hpsn.imp_right fun h => State.untrapped_of_rd h hctl)
  rw [hend]
  refine ⟨hgone, by rw [htmr]; exact hleft.gone, hmem.trans hleft.mem, State.scalarIs_of_benches hleft.benches hscalar, fun hne => ?_⟩
  obtain ⟨hregs, hraises⟩ := hfail hne
  rw [State.isHere, hnum] at hraises
  refine ⟨(State.fld_of_rd (State.rd_of_regs hregs _) _).trans (hcount hne), ?_⟩
  exact State.raises_of_later (by rw [hleft.evt]) (by rw [hleft.evt]) hraises

/-- A store's transaction ends. -/
theorem State.txnEnd_store {line a : Nat} {d : Bytes} {be : List Bool} (hwait : s.tmr.waitq = []) (htc : x.tc < 8)
    (howner : x.owner = .store b c line) (hreq : x.req = .wr a d be) (st : Status) (data : List Byte) (psn : Bool) :
    FMap.get? (s.txnEnd x st data psn).tmr.outst (txnKey x.dest x.tc x.seq) = none ∧ (s.txnEnd x st data psn).mem = s.mem ∧
    ((s.txnEnd x st data psn).ctx b c).stores = (s.ctx b c).stores.erase ⟨line, true⟩ ∧ s.scalarIs (s.txnEnd x st data psn) b c 0 0 := by
  obtain ⟨hleft, -⟩ := State.txnSettled_left hwait htc st
  obtain ⟨u, hu⟩ : ∃ u, u = (s.txnSettled x st).modCtx b c (fun y => { y with stores := y.stores.erase ⟨line, true⟩ }) := ⟨_, rfl⟩
  have hend : s.txnEnd x st data psn = if st = .ok then u else u.accessFailed b c (x.dest * 2 ^ 50 + a) st x.tc := by
    rw [State.txnEnd]
    simp only [howner, hu]
    rw [State.storeFar]
    simp only [hreq]
    rfl
  have hkept : FMap.get? u.tmr.outst (txnKey x.dest x.tc x.seq) = none ∧ u.mem = s.mem ∧
      (u.ctx b c).stores = (s.ctx b c).stores.erase ⟨line, true⟩ ∧ s.scalarIs u b c 0 0 := by
    rw [hu]
    refine ⟨hleft.gone, hleft.mem, ?_, ?_⟩
    · rw [State.ctx_modCtx_same, State.ctx_of_benches hleft.benches]
    · exact (((State.filesKept.refl s b c).of_benches hleft.benches).modCtx (fun y => { y with stores := y.stores.erase ⟨line, true⟩ })
        fun _ => rfl).scalars
  rw [hend]
  split
  · exact hkept
  · obtain ⟨hgone, hmem, hstores, hscalar⟩ := hkept
    have hraise : ∃ code source pay, u.accessFailed b c (x.dest * 2 ^ 50 + a) st x.tc = u.raise code source pay := ⟨_, _, _, rfl⟩
    obtain ⟨code, source, pay, hraise⟩ := hraise
    have hbenches := u.raise_benches code source pay
    rw [hraise]
    refine ⟨?_, (u.raise_mem ..).trans hmem, by rw [State.ctx_of_benches hbenches, hstores], fun r => ?_⟩
    · rw [show (u.raise code source pay).tmr = u.tmr from (State.raise_same (msk := 2 ^ Part.tmr.idx) rfl u _ _ _ (.refl u)).same .tmr rfl]
      exact hgone
    · rw [State.s, State.ctx_of_benches hbenches]
      exact hscalar r

end

/-! ### Resends (10 R300, R305) -/

/-- A resend: the transaction is counted as sent once more, now (10 R300). -/
def Txn.again (x : Txn) (s : State) : Txn := { x with tries := x.tries + 1, sentAt := s.pulse }

/-- A transaction that is unanswered once more. -/
def State.waitsAgain (s : State) (x : Txn) : State :=
  s.putTmr { s.tmr with outst := FMap.set s.tmr.outst (txnKey x.dest x.tc x.seq) x }

theorem State.choosePort_tmr (s : State) (tc m : Nat) (not : Option Nat) : (s.choosePort tc m not).1.tmr = s.tmr ∧
    (s.choosePort tc m not).1.out = s.out ∧ (s.choosePort tc m not).1.mem = s.mem ∧ (s.choosePort tc m not).1.rd A.tmrId = s.rd A.tmrId := by
  have hsame := State.choosePort_same (msk := 2 ^ Part.tmr.idx + 2 ^ Part.out.idx + 2 ^ Part.mem.idx) rfl s tc m not (.refl s)
  exact ⟨hsame.same .tmr rfl, hsame.same .out rfl, hsame.same .mem rfl,
    (State.choosePort_kept (P := fun a => a = A.tmrId) s tc m not (by decide)).rd _ rfl⟩

theorem State.emit_out (s : State) (p : Option Nat) (v : Via) (x : Fab) : (s.emit p v x).out = s.out ++ [Msg.fabric p v x] ∧
    (s.emit p v x).tmr = s.tmr := by
  have hsame := State.emit_same (msk := 2 ^ Part.tmr.idx) rfl s p v x (.refl s)
  refine ⟨?_, hsame.same .tmr rfl⟩
  cases p <;> rfl

/-- A request with a route goes out as it stands. -/
theorem State.transmit_sends {s : State} {x : Txn} (hroute : s.hasRoute x.dest = true) : ∃ p,
    (s.transmit x).out = s.out ++ [Msg.fabric p ⟨s.modnum, x.dest, x.tc, s.fld A.tmrId F.tmrId.EPOCH, x.seq, 0, 0⟩ (.req x.req)] ∧
    (s.transmit x).tmr.outst = s.tmr.outst ∧ (s.transmit x).tmr.dead = s.tmr.dead := by
  obtain ⟨htmr, hout, -, hid⟩ := s.choosePort_tmr x.tc x.dest none
  rw [State.transmit]
  simp only [hroute, Bool.not_true, Bool.false_eq_true, if_false]
  generalize s.choosePort x.tc x.dest none = q at htmr hout hid ⊢
  obtain ⟨u, p⟩ := q
  refine ⟨p, ?_, ?_, ?_⟩
  · rw [(State.emit_out ..).1]
    show u.out ++ [Msg.fabric p ⟨u.modnum, x.dest, x.tc, u.fld A.tmrId F.tmrId.EPOCH, x.seq, 0, 0⟩ (.req x.req)] = _
    rw [State.modnum, State.fld_of_rd hid, State.fld_of_rd hid, hout]
    rfl
  · rw [(State.emit_out ..).2]
    exact congrArg (·.outst) htmr
  · rw [(State.emit_out ..).2]
    exact congrArg (·.dead) htmr

theorem State.failDead_none {s : State} (h : s.tmr.dead = []) : s.failDead = s := if_pos (by rw [h]; rfl)

/-- A transaction without a route fails where it was to be sent (10 R305). -/
theorem State.transmit_fails {s : State} {x : Txn} (hroute : s.hasRoute x.dest = false) (hdead : s.tmr.dead = []) :
    ∃ noPort, (s.waitsAgain x |>.transmit x).failDead = ((s.waitsAgain x).putTmr { (s.waitsAgain x).tmr with
      noPort := noPort, dead := [] }).txnEnd x .noroute [] false := by
  have hnone : (s.waitsAgain x).hasRoute x.dest = false := hroute
  have hsent : (s.waitsAgain x).transmit x = (s.waitsAgain x).putTmr { (s.waitsAgain x).tmr with
      noPort := (s.waitsAgain x).tmr.noPort.filter (· != txnKey x.dest x.tc x.seq), dead := [txnKey x.dest x.tc x.seq] } := by
    rw [State.transmit]
    simp only [hnone, Bool.not_false, if_true]
    rw [show (s.waitsAgain x).tmr.dead = [] from hdead]
    rfl
  refine ⟨(s.waitsAgain x).tmr.noPort.filter (· != txnKey x.dest x.tc x.seq), ?_⟩
  have hfound : FMap.get? (s.waitsAgain x).tmr.outst (txnKey x.dest x.tc x.seq) = some x := FMap.get?_set_same ..
  rw [hsent, State.failDead]
  simp only [State.putTmr, List.isEmpty_cons, Bool.false_eq_true, if_false, List.foldl_cons, List.foldl_nil]
  rw [hfound]

section
variable {dest : BitVec 14} {tc : Fin 8} {seq : BitVec 24} {s : State} {x : Txn}

theorem execTmrRtoExpiry_idle (h : FMap.get? s.tmr.outst (txnKey dest.toNat tc seq.toNat) = none) :
    exec (.tmrRtoExpiry dest tc seq) s = .next s := by
  show execTmrRtoExpiry dest tc seq s = _
  rw [execTmrRtoExpiry, h]

theorem execTmrRtoExpiry_early (h : FMap.get? s.tmr.outst (txnKey dest.toNat tc seq.toNat) = some x)
    (hearly : s.reached x.sentAt (max 1 (s.fld A.tmrCtl F.tmrCtl.RTO)) = false) : exec (.tmrRtoExpiry dest tc seq) s = .next s := by
  show execTmrRtoExpiry dest tc seq s = _
  rw [execTmrRtoExpiry]
  simp only [h, hearly, Bool.not_false, if_true]

theorem execTmrRtoExpiry_resend (h : FMap.get? s.tmr.outst (txnKey dest.toNat tc seq.toNat) = some x)
    (hdue : s.reached x.sentAt (max 1 (s.fld A.tmrCtl F.tmrCtl.RTO)) = true) (htries : x.tries < s.fld A.tmrCtl F.tmrCtl.RETRY) :
    exec (.tmrRtoExpiry dest tc seq) s = .next (((s.waitsAgain (x.again s)).transmit (x.again s)).failDead) := by
  show execTmrRtoExpiry dest tc seq s = _
  rw [execTmrRtoExpiry]
  simp only [h, hdue, Bool.not_true, Bool.false_eq_true, if_false, if_pos htries]
  rfl

theorem execTmrRtoExpiry_fails (h : FMap.get? s.tmr.outst (txnKey dest.toNat tc seq.toNat) = some x)
    (hdue : s.reached x.sentAt (max 1 (s.fld A.tmrCtl F.tmrCtl.RTO)) = true) (htries : s.fld A.tmrCtl F.tmrCtl.RETRY ≤ x.tries) :
    exec (.tmrRtoExpiry dest tc seq) s = .next ((s.putTmr { s.tmr with
      noPort := s.tmr.noPort.filter (· != txnKey x.dest x.tc x.seq) }).txnEnd x .timeout [] false) := by
  show execTmrRtoExpiry dest tc seq s = _
  rw [execTmrRtoExpiry]
  simp only [h, hdue, Bool.not_true, Bool.false_eq_true, if_false, if_neg (Nat.not_lt.mpr htries)]

/-- A completion that answers a transaction of this module's requesters ends it (10 R297). -/
theorem State.completionIn_ends {v : Via} (hport : s.portUp v.port = true) (hme : s.forMe v = true) (hanswers : s.answered v = some x)
    (body : Fab) (write : Bool) (hkind : (∃ a n, x.req = .rd a n ∧ write = false) ∨ ∃ a d be, x.req = .wr a d be ∧ write = true)
    (st : Status) (data : List Byte) (psn : Bool) : s.completionIn v body write st data psn = s.txnEnd x st data psn := by
  rw [State.completionIn]
  obtain ⟨a, n, hreq, rfl⟩ | ⟨a, d, be, hreq, rfl⟩ := hkind
  · simp only [hport, hme, hanswers, hreq, Bool.not_true, Bool.false_eq_true, if_false]
  · simp only [hport, hme, hanswers, hreq, Bool.not_true, Bool.false_eq_true, if_false, if_true]

theorem State.completionIn_unasked {v : Via} (hport : s.portUp v.port = true) (hme : s.forMe v = true) (hanswers : s.answered v = none)
    (body : Fab) (write : Bool) (st : Status) (data : List Byte) (psn : Bool) : s.completionIn v body write st data psn = s := by
  rw [State.completionIn]
  simp only [hport, hme, hanswers, Bool.not_true, Bool.false_eq_true, if_false]

/-- The second word of a route takes effect with the first that is held (10 R304). -/
theorem State.rtWrite1_shown (s : State) (m : Nat) (w : Word) : s.onlyIn [.regs, .tmr] (s.rtWrite1 m w) ∧
    (s.rtWrite1 m w).rd (A.tmrRt1 m) = w &&& (F.tmrRt1.VALID.mask ||| F.tmrRt1.ALT.mask) ∧
    (s.rtWrite1 m w).rd (A.tmrRt0 m) = (FMap.get? s.tmr.rtHold m).getD (s.rd (A.tmrRt0 m)) ∧
    FMap.get? (s.rtWrite1 m w).tmr.rtHold m = none := by
  have hne : A.tmrRt0 m ≠ A.tmrRt1 m := by simp only [A.tmrRt0, A.tmrRt1]; omega
  have honly : ∀ u : State, s.onlyIn [.regs, .tmr] u → ∀ v, s.onlyIn [.regs, .tmr] (u.wr (A.tmrRt1 m) v) := by
    intro u hu v
    refine ⟨hu.1, fun p hp => ?_⟩
    have hkept := hu.2 p hp
    cases p <;> first | exact hkept | exact absurd (by decide) hp
  unfold State.rtWrite1
  cases hheld : FMap.get? s.tmr.rtHold m with
  | none =>
    refine ⟨honly s ⟨rfl, fun p _ => by cases p <;> rfl⟩ _, State.rd_wr_same .., State.rd_wr_ne _ _ hne, hheld⟩
  | some held =>
    refine ⟨honly ((s.wr (A.tmrRt0 m) held).putTmr { s.tmr with rtHold := FMap.del s.tmr.rtHold m }) ⟨rfl, fun p hp => ?_⟩ _,
      State.rd_wr_same .., ?_, FMap.get?_del_same ..⟩
    · cases p <;> first | rfl | exact absurd (by decide) hp
    · exact (State.rd_wr_ne _ _ hne).trans (State.rd_wr_same ..)

end

end Sys2Proof.Machine
open Sys2Proof Sys2Proof.Machine

/-- Settles O42: a completion or a timeout ends its transaction by `State.txnEnd`; resends, idle flows, routes and quotas are read
off their commands. -/
theorem fabricCompletions : Obligations.FabricCompletions := by
  unfold Obligations.FabricCompletions
  intro v b c dest tc seq s x key hwait hkey hdest htc hseq
  have htc8 : x.tc < 8 := by rw [htc]; exact tc.isLt
  have hxkey : txnKey x.dest x.tc x.seq = key := by rw [hkey, hdest, htc, hseq]
  refine ⟨fun st data psn hport hme hnone => ⟨?unaskedRead, ?unaskedWrite⟩, fun l howner hreq hloads hmod => ⟨?answered, ?timeout⟩,
    fun line a d be st howner hreq hport hme hanswers => ?stored, fun hnone => execTmrRtoExpiry_idle (hkey ▸ hnone),
    fun hsome => ⟨fun hearly => execTmrRtoExpiry_early (hkey ▸ hsome) hearly, fun hdue htries hroute hdead => ?resent⟩,
    fun hnone => ?flowUnknown, fun r hr => ⟨fun hidle => ?flowIdle, fun hlive => ?flowLive⟩, fun w => ⟨_, rfl, s.rtWrite1_shown _ w⟩,
    fun q => ⟨_, rfl, ?quota⟩⟩
  case unaskedRead => exact congrArg Host.Outcome.next (State.completionIn_unasked hport hme hnone _ _ _ _ _)
  case unaskedWrite => exact congrArg Host.Outcome.next (State.completionIn_unasked hport hme hnone _ _ _ _ _)
  case answered =>
    intro st data psn hport hme hanswers hpsn
    obtain ⟨hgone, hleft, hmem, hscalar, hfail⟩ := State.txnEnd_load hwait htc8 howner hreq hloads hmod st data psn hpsn
    rw [hxkey] at hleft
    refine ⟨_, congrArg Host.Outcome.next (State.completionIn_ends hport hme hanswers _ _ (.inl ⟨_, _, hreq, rfl⟩) _ _ _), hgone, hleft,
      hmem, hscalar, fun hne => (hfail hne).2⟩
  case timeout =>
    intro hsome hdue hcases
    by_cases htries : s.fld A.tmrCtl F.tmrCtl.RETRY ≤ x.tries
    · obtain ⟨hgone, hleft, hmem, hscalar, hfail⟩ := State.txnEnd_load (s := s.putTmr { s.tmr with
        noPort := s.tmr.noPort.filter (· != txnKey x.dest x.tc x.seq) }) hwait htc8 howner hreq hloads hmod .timeout [] false (.inl rfl)
      rw [hxkey] at hleft
      exact ⟨_, execTmrRtoExpiry_fails (hkey ▸ hsome) hdue htries, hgone, by rw [← hxkey] at hleft ⊢; exact hleft, hscalar, hmem,
        (hfail (by decide)).1⟩
    · obtain ⟨hroute, hdead⟩ := hcases.resolve_left htries
      obtain ⟨noPort, hresult⟩ := State.transmit_fails (x := x.again s) hroute hdead
      obtain ⟨hgone, hleft, hmem, hscalar, hfail⟩ := State.txnEnd_load (x := x.again s) (s := (s.waitsAgain (x.again s)).putTmr
        { (s.waitsAgain (x.again s)).tmr with noPort := noPort, dead := [] }) hwait htc8 howner hreq hloads hmod .noroute [] false (.inl rfl)
      rw [← hresult] at hgone hleft hmem hscalar hfail
      have hsame : txnKey (x.again s).dest (x.again s).tc (x.again s).seq = key := hxkey
      rw [hsame] at hleft
      exact ⟨_, execTmrRtoExpiry_resend (hkey ▸ hsome) hdue (Nat.lt_of_not_le htries), hgone, hleft, hscalar, hmem, (hfail (by decide)).1⟩
  case stored =>
    obtain ⟨hleft, hmem, hstores, hscalar⟩ := State.txnEnd_store (b := b) (c := c) hwait htc8 howner hreq st [] false
    rw [hxkey] at hleft
    exact ⟨_, congrArg Host.Outcome.next (State.completionIn_ends hport hme hanswers _ _ (.inr ⟨_, _, _, hreq, rfl⟩) _ _ _), hleft, hmem,
      hstores, hscalar⟩
  case resent =>
    obtain ⟨p, hout, houtst, hstill⟩ := State.transmit_sends (s := s.waitsAgain (x.again s)) (x := x.again s) hroute
    have hmem : ((s.waitsAgain (x.again s)).transmit (x.again s)).mem = s.mem :=
      (State.transmit_same (msk := 2 ^ Part.mem.idx) rfl _ _ (.refl _)).same .mem rfl
    have hsame : txnKey (x.again s).dest (x.again s).tc (x.again s).seq = key := hxkey
    refine ⟨(s.waitsAgain (x.again s)).transmit (x.again s), p, ?_, hmem, ?_, hout⟩
    · rw [execTmrRtoExpiry_resend (hkey ▸ hsome) hdue htries, State.failDead_none (hstill.trans hdead)]
    · rw [houtst, ← hsame]
      exact FMap.get?_set_same ..
  case flowUnknown =>
    show execFlowIdleExpiry dest tc s = _
    rw [execFlowIdleExpiry, hnone]
  case flowIdle =>
    refine ⟨s.putTmr { s.tmr with recv := FMap.del s.tmr.recv (flowNo dest.toNat tc) }, ?_, FMap.get?_del_same .., ?_⟩
    · show execFlowIdleExpiry dest tc s = _
      rw [execFlowIdleExpiry]
      simp only [hr, hidle, if_true]
    · exact State.Same.onlyIn (State.putTmr_same (by decide) _ _ (.refl s))
  case flowLive =>
    show execFlowIdleExpiry dest tc s = _
    rw [execFlowIdleExpiry]
    simp only [hr, hlive, Bool.false_eq_true, if_false]
  case quota =>
    have hidle : (s.setFld (A.tmrTc tc) F.tmrTc.QUOTA q.toNat).release = (s.setFld (A.tmrTc tc) F.tmrTc.QUOTA q.toNat).putTmr
      { (s.setFld (A.tmrTc tc) F.tmrTc.QUOTA q.toNat).tmr with waitq := [] } := State.release_idle hwait
    rw [State.quotaWrite, hidle]
    refine ⟨?_, fun y hy => State.rd_setFld_ne s _ _ hy⟩
    refine (State.fld_setFld_same s _ _ _ (by decide)).trans (Nat.mod_eq_of_lt q.isLt)

end

section
/-!
PROOF. Takeover (01 R22, R24; 16 R449 to R452, R458, R461): the start and the end of a takeover, the pairs of the Hutch, and the
saving of the availability counters.
-/
namespace Sys2Proof.Machine

section
variable {msk : Nat} {was : State}

theorem State.takeEvent_same (hfree : msk &&& 1024 = 0) (s code b old new forced) (hs : was.Same msk s) :
    was.Same msk (s.takeEvent code b old new forced) := by
  unfold State.takeEvent
  with_reducible repeat' first | assumption | exact free_mono hfree rfl | apply State.raise_same

theorem State.spareless_same (hfree : msk &&& 1032 = 0) (s b) (hs : was.Same msk s) : was.Same msk (s.spareless b) := by
  unfold State.spareless
  conv => zeta
  with_reducible repeat' first | assumption | exact free_mono hfree rfl | apply State.raise_same | apply State.modBench_same | split

theorem State.saveAvail_same (hfree : msk &&& 532481 = 0) (s) (hs : was.Same msk s) : was.Same msk (s.saveAvail) := by
  unfold State.saveAvail
  conv => zeta
  with_reducible repeat' first
    | assumption | exact free_mono hfree rfl | apply State.countAvail_same | apply State.putFlt_same | apply State.putFlash_same

theorem State.takeStart_same (hfree : msk &&& 9225 = 0) (s b spare forced) (hs : was.Same msk s) :
    was.Same msk (s.takeStart b spare forced) := by
  unfold State.takeStart
  conv => zeta
  with_reducible repeat' first
    | assumption | exact free_mono hfree rfl | apply State.takeEvent_same | apply State.lendEnd_same | apply State.modBench_same
    | apply State.health_same

end

/-! ### The start (16 R450, R451) -/

/-- The health that the firmware keeps is no record of the pairs of the Hutch. -/
theorem State.countAvail_pairs (s : State) : s.countAvail.flt.pairAt = s.flt.pairAt ∧ s.countAvail.flt.pairsDead = s.flt.pairsDead := by
  unfold State.countAvail
  dsimp only
  split
  · split <;> exact ⟨rfl, rfl⟩
  · exact ⟨rfl, rfl⟩

theorem State.raise_flt (s : State) (code source : Nat) (pay : List Byte) : (s.raise code source pay).flt = s.flt :=
  (State.raise_same (msk := 2 ^ Part.flt.idx) rfl s code source pay (.refl s)).same .flt rfl

theorem State.health_pairs (s : State) : s.health.flt.pairAt = s.flt.pairAt ∧ s.health.flt.pairsDead = s.flt.pairsDead := by
  obtain ⟨hat, hdead⟩ := s.countAvail_pairs
  unfold State.health
  extract_lets s1 flt s2 old oldCap new cap s3 s4 s5
  have h2 : s2.flt.pairAt = s.flt.pairAt ∧ s2.flt.pairsDead = s.flt.pairsDead := by
    unfold s2
    split <;> exact ⟨hat, hdead⟩
  have h5 : s5.flt = s2.flt := by
    unfold s5
    split
    · rfl
    · exact State.raise_flt _ _ _ _
  split
  · exact ⟨hat, hdead⟩
  · split
    · rw [h5]; exact h2
    · rw [State.raise_flt, h5]; exact h2

/-- A takeover that begins copies to its spare, with its event. -/
theorem State.takeStart_shown (s : State) (b spare : Nat) (forced : Bool) :
    ((s.takeStart b spare forced).bench b).takeover = some ⟨s.pulse, forced, some spare⟩ ∧ (s.takeStart b spare forced).mem = s.mem ∧
    s.raises (s.takeStart b spare forced) 0xA1 (evSource 1 b) (leBytes 2 (s.phys b) ++ leBytes 2 spare ++ leBytes 4 0 ++ leBytes 2 b ++
      [if forced then 2 else 1]) := by
  obtain ⟨u, hu⟩ : ∃ u, u = (s.takeEvent 0xA1 b (s.phys b) spare forced).lendEnd b := ⟨_, rfl⟩
  have hsame : s.Same (2 ^ Part.pulse.idx) u :=
    hu ▸ State.lendEnd_same rfl _ _ (State.takeEvent_same rfl s _ _ _ _ _ (.refl s))
  have hresult : s.takeStart b spare forced =
      (u.modBench b (fun x => { x with takeover := some ⟨u.pulse, forced, some spare⟩ })).health := by rw [hu]; rfl
  have hbench : ∀ v : State, v.health.bench b = v.bench b := fun v => by
    rw [State.bench, (State.health_same (msk := 2 ^ Part.benches.idx) rfl v (.refl v)).same .benches rfl, ← State.bench]
  refine ⟨?_, (State.takeStart_same (msk := 2 ^ Part.mem.idx) rfl s b spare forced (.refl s)).same .mem rfl, ?_⟩
  · rw [hresult, hbench, State.modBench, State.bench_setBench_same, show u.pulse = s.pulse from hsame.same .pulse rfl]
  · have hlend : (s.takeEvent 0xA1 b (s.phys b) spare forced).evt = u.evt := by
      rw [hu]
      exact ((State.lendEnd_same (msk := 2 ^ Part.evt.idx) rfl _ b (.refl _)).same .evt rfl).symm
    refine State.raises_of_raise (u := s) rfl ?_
    show (s.takeEvent 0xA1 b (s.phys b) spare forced).evt.raised <+: _
    rw [hlend, hresult]
    exact State.health_raised (u.modBench b (fun x => { x with takeover := some ⟨u.pulse, forced, some spare⟩ }))

/-- Whether a Bench that a takeover has been forced on waits for its Desks only (16 R450). -/
def Bench.forced (x : Bench) : Bool :=
  match x.takeover with
  | some t => t.forced
  | none => false

section
variable {b : BenchNo} {s : State}

theorem execTakeoverStart_begins {sp : Nat} {l : List Nat} (hopen : s.openSpares (b.val / 100) = sp :: l)
    (h : (s.rst.level = 0 && s.hosted b && !(s.bench b).copying &&
      (if (s.bench b).forced then s.desksStill b else s.layerBoundary b)) = true) :
    exec (.takeoverStart b) s = .next (s.takeStart b sp (s.bench b).forced) := by
  show execTakeoverStart b s = _
  rw [execTakeoverStart, hopen]
  exact congrArg Host.Outcome.next (if_pos h)

theorem execTakeoverStart_idle (h : s.openSpares (b.val / 100) = [] ∨ (s.rst.level = 0 && s.hosted b && !(s.bench b).copying &&
      (if (s.bench b).forced then s.desksStill b else s.layerBoundary b)) = false) :
    exec (.takeoverStart b) s = .next s := by
  show execTakeoverStart b s = _
  rw [execTakeoverStart]
  obtain h | h := h
  · rw [h]
  · cases s.openSpares (b.val / 100) with
    | nil => rfl
    | cons sp l => exact congrArg Host.Outcome.next (if_neg fun hready => Bool.false_ne_true (h.symm.trans hready))

end

/-! ### The end (16 R451, R452; 01 R22, R24) -/

/-- The map names the spare, and `BENCH_ID` shows it with its Desks. -/
def State.spareMapped (s : State) (b spare : Nat) : State :=
  (((((s.putMap (FMap.set s.map b spare)).putSpares (FMap.set s.spares (b / 100) ((s.spareList (b / 100)).filter (· != spare)))).setFld
    (A.benchId b) F.benchId.PHYS spare).setFld (A.benchId b) F.benchId.ON_SPARE 1).incSat (A.benchId b) F.benchId.TAKEOVERS 1).setFld
    (A.benchId b) F.benchId.DESK_LIVE 15

/-- The Desk of a Bench that has been taken over is sound. -/
def State.deskRenewed (s : State) (b d : Nat) : State :=
  ((s.setFld (A.deskStat b d) F.deskStat.FAULT 0).wr (A.deskRas b d) (regReset (A.deskRas b d))).modDesk b d
    (fun x => { x with host := none, tries := 0, dtries := (0, 0), winReplays := 0 })

/-- What the end of a takeover does before its event. -/
def State.benchRenewed (s : State) (b : Nat) : State :=
  let u := (List.range 4).foldl (fun s d => s.deskRenewed b d) s
  u.modBench b (fun x => { x with
    takeover := none, faultAt := none, icache := [], ifail := [], lend := { x.lend with since := u.pulse } })

/-- The Benches of a C-die whose last spare is gone stay hosted, or fail. -/
def State.sparesGone (s : State) (c : Nat) : State :=
  if (s.spareList c).isEmpty then s.benches.foldl (fun s p => if p.1 / 100 == c && s.hosted p.1 then s.spareless p.1 else s) s else s

theorem State.takeEnd_eq (s : State) (b spare : Nat) (forced : Bool) : s.takeEnd b spare forced =
    ((((((((s.spareMapped b spare).benchRenewed b).takeEvent 0xA2 b (s.phys b) spare forced).putFlash
      { (((s.spareMapped b spare).benchRenewed b).takeEvent 0xA2 b (s.phys b) spare forced).flash with
        retired := (((s.spareMapped b spare).benchRenewed b).takeEvent 0xA2 b (s.phys b) spare forced).flash.retired ++ [s.phys b] }).incSat
      (A.evtSpare (b / 100)) F.evtSpare.RETIRED 1).sparesGone (b / 100)).showSpares (b / 100)).health).serveHeld := rfl

theorem State.spareMapped_shown (s : State) (b spare : Nat) :
    (s.spareMapped b spare).fld (A.benchId b) F.benchId.PHYS = spare % 2 ^ F.benchId.PHYS.width ∧
    (s.spareMapped b spare).flag (A.benchId b) F.benchId.ON_SPARE = true ∧ (s.spareMapped b spare).fld (A.benchId b) F.benchId.DESK_LIVE = 15 := by
  refine ⟨?_, ?_, State.fld_setFld_same _ _ _ _ (by decide)⟩
  · exact (State.fld_setFld_field _ _ _ _ _ (by decide) (by decide) (by decide)).trans ((State.fld_setFld_field _ _ _ _ _ (by decide)
      (by decide) (by decide)).trans ((State.fld_setFld_field _ _ _ _ _ (by decide) (by decide) (by decide)).trans
        (State.fld_setFld_same _ _ _ _ (by decide))))
  · refine congrArg (· != 0) (Eq.trans (b := 1) ?_ rfl)
    exact (State.fld_setFld_field _ _ _ _ _ (by decide) (by decide) (by decide)).trans ((State.fld_setFld_field _ _ _ _ _ (by decide)
      (by decide) (by decide)).trans (State.fld_setFld_same _ _ _ _ (by decide)))

theorem State.deskRenewed_kept (s : State) (b d : Nat) : s.KeptAt (· = A.benchId b) (s.deskRenewed b d) := by
  have hstat : ¬ A.deskStat b d = A.benchId b := by simp only [A.deskStat, A.benchId]; omega
  have hras : ¬ A.deskRas b d = A.benchId b := by simp only [A.deskRas, A.benchId]; omega
  refine ⟨fun a ha => ?_, List.prefix_rfl⟩
  subst ha
  exact (State.rd_wr_ne _ _ (Ne.symm hras)).trans (State.rd_setFld_ne _ _ _ (Ne.symm hstat))

theorem State.benchRenewed_kept (s : State) (b : Nat) : s.KeptAt (· = A.benchId b) (s.benchRenewed b) :=
  (State.KeptAt.foldl (fun s d => s.deskRenewed_kept b d) (List.range 4) s).of_same rfl rfl

/-- A part that the renewal of a Bench does not write. -/
theorem State.benchRenewed_same {msk : Nat} (hfree : msk &&& 25 = 0) (s : State) (b : Nat) : s.Same msk (s.benchRenewed b) := by
  have hfold : ∀ (l : List Nat) (u : State), s.Same msk u → s.Same msk (l.foldl (fun s d => s.deskRenewed b d) u) := by
    intro l
    induction l with
    | nil => exact fun u h => h
    | cons d l ih =>
      exact fun u h => ih _ (State.modDesk_same (free_mono hfree rfl) _ _ _ _ (State.wr_same (free_mono hfree rfl) _ _ _
        (State.setFld_same (free_mono hfree rfl) _ _ _ _ h)))
  unfold State.benchRenewed
  exact State.modBench_same (free_mono hfree rfl) _ _ _ (hfold (List.range 4) s (.refl s))

theorem State.benchRenewed_takeover (s : State) (b : Nat) : ((s.benchRenewed b).bench b).takeover = none := by
  rw [State.benchRenewed, State.modBench, State.bench_setBench_same]

/-- No Desk of a renewed Bench is hosted. -/
theorem State.benchRenewed_host (s : State) (b : Nat) {d : Nat} (hd : d < 4) : ((s.benchRenewed b).desk b d).host = none := by
  have hstep : ∀ (u : State) (q : Nat), q < 4 → ((u.deskRenewed b q).desk b d).host = if q = d then none else (u.desk b d).host := by
    intro u q hq
    by_cases hqd : q = d
    · subst hqd
      rw [if_pos rfl, State.deskRenewed, State.desk_modDesk_same]
    · rw [if_neg hqd, State.deskRenewed, State.desk_modDesk_ne _ _ (fun h => hqd (Prod.mk.inj h).2.symm) hq hd]
      rfl
  have hfold : ∀ (l : List Nat) (u : State), (∀ q ∈ l, q < 4) → (d ∈ l ∨ (u.desk b d).host = none) →
      ((l.foldl (fun s d => s.deskRenewed b d) u).desk b d).host = none := by
    intro l
    induction l with
    | nil => exact fun u _ h => h.resolve_left List.not_mem_nil
    | cons q l ih =>
      intro u hl h
      refine ih _ (fun x hx => hl x (List.mem_cons_of_mem _ hx)) ?_
      rw [hstep u q (hl q List.mem_cons_self)]
      by_cases hqd : q = d
      · exact .inr (if_pos hqd)
      · rw [if_neg hqd]
        exact h.imp_left fun hmem => (List.mem_cons.mp hmem).resolve_left (Ne.symm hqd)
  exact hfold (List.range 4) s (fun q hq => List.mem_range.mp hq) (.inl (List.mem_range.mpr hd))

/-- Benches without a spare can fail; their takeovers stay as they are. -/
theorem State.sparesGone_kept (s : State) (c b : Nat) : ((s.sparesGone c).bench b).takeover = (s.bench b).takeover ∧
    s.KeptAt (fun _ => True) (s.sparesGone c) := by
  have hraise : ∀ (u : State) code source pay, (u.raise code source pay).bench b = u.bench b := fun u code source pay => by
    rw [State.bench, State.raise_benches, ← State.bench]
  have hstep : ∀ (u : State) (q : Nat), ((u.spareless q).bench b).takeover = (u.bench b).takeover ∧
      u.KeptAt (fun _ => True) (u.spareless q) := by
    intro u q
    unfold State.spareless
    dsimp only
    split
    · refine ⟨?_, ((State.KeptAt.refl u).of_same (u := u.modBench q _) rfl rfl).raise _ _ _⟩
      rw [hraise, State.modBench]
      by_cases hbq : b = q
      · subst hbq
        rw [State.bench_setBench_same]
      · rw [State.bench_setBench_ne _ _ hbq]
    · exact ⟨by rw [hraise], (State.KeptAt.refl u).raise _ _ _⟩
  have hfold : ∀ (l : FMap Bench) (u : State), ((l.foldl (fun s p => if p.1 / 100 == c && s.hosted p.1 then s.spareless p.1 else s) u).bench
      b).takeover = (u.bench b).takeover ∧
      u.KeptAt (fun _ => True) (l.foldl (fun s p => if p.1 / 100 == c && s.hosted p.1 then s.spareless p.1 else s) u) := by
    intro l
    induction l with
    | nil => exact fun u => ⟨rfl, .refl u⟩
    | cons p l ih =>
      intro u
      obtain ⟨htake, hkept⟩ := ih (if p.1 / 100 == c && u.hosted p.1 then u.spareless p.1 else u)
      have hfirst : ((if p.1 / 100 == c && u.hosted p.1 then u.spareless p.1 else u).bench b).takeover = (u.bench b).takeover ∧
          u.KeptAt (fun _ => True) (if p.1 / 100 == c && u.hosted p.1 then u.spareless p.1 else u) := by
        split
        · exact hstep u p.1
        · exact ⟨rfl, .refl u⟩
      exact ⟨htake.trans hfirst.1, hfirst.2.trans hkept⟩
  unfold State.sparesGone
  split
  · exact hfold s.benches s
  · exact ⟨rfl, .refl s⟩

theorem State.sparesGone_same {msk : Nat} (hfree : msk &&& 1032 = 0) (s : State) (c : Nat) : s.Same msk (s.sparesGone c) := by
  have hfold : ∀ (l : FMap Bench) (u : State), s.Same msk u →
      s.Same msk (l.foldl (fun s p => if p.1 / 100 == c && s.hosted p.1 then s.spareless p.1 else s) u) := by
    intro l
    induction l with
    | nil => exact fun u h => h
    | cons p l ih =>
      intro u h
      refine ih _ ?_
      dsimp only
      split
      · exact State.spareless_same hfree _ _ h
      · exact h
  unfold State.sparesGone
  split
  · exact hfold _ s (.refl s)
  · exact .refl s

theorem State.showSpares_kept {P : Nat → Prop} (s : State) {c : Nat} (h : ¬ P (A.evtSpare c)) : s.KeptAt P (s.showSpares c) :=
  (((State.KeptAt.refl s).setFld h _ _).setFld h _ _).setFld h _ _

/-- What the end of a takeover leaves. -/
structure State.TakenOver (s t : State) (b spare : Nat) (forced : Bool) : Prop where
  phys : t.phys b = spare
  shown : t.fld (A.benchId b) F.benchId.PHYS = spare % 2 ^ F.benchId.PHYS.width
  onSpare : t.flag (A.benchId b) F.benchId.ON_SPARE = true
  live : t.fld (A.benchId b) F.benchId.DESK_LIVE = 15
  spares : t.spareList (b / 100) = (s.spareList (b / 100)).filter (· != spare)
  retired : t.flash.retired = s.flash.retired ++ [s.phys b]
  host : ∀ d < 4, (t.desk b d).host = none
  takeover : (t.bench b).takeover = none
  raises : s.raises t 0xA2 (evSource 1 b) (leBytes 2 (s.phys b) ++ leBytes 2 spare ++ leBytes 4 0 ++ leBytes 2 b ++ [if forced then 2 else 1])

theorem benchId_apart {b : Nat} (_ : b < 800) : ¬ A.evtSpare (b / 100) = A.benchId b ∧ A.benchId b ∉ healthRegs := by
  simp only [healthRegs, List.mem_cons, List.not_mem_nil, or_false, A.evtSpare, A.benchId, A.evtAvailT, A.evtAvailU, A.evtHealth, benchBase,
    regBase]
  omega

theorem State.takeEnd_takenOver {s : State} {b : Nat} (hb : b < 800) (hheld : s.tmr.held = []) (spare : Nat) (forced : Bool) :
    s.TakenOver (s.takeEnd b spare forced) b spare forced := by
  obtain ⟨hspareReg, hhealthReg⟩ := benchId_apart hb
  obtain ⟨u, hu⟩ : ∃ u, u = (s.spareMapped b spare).benchRenewed b := ⟨_, rfl⟩
  obtain ⟨v, hv⟩ : ∃ v, v = u.takeEvent 0xA2 b (s.phys b) spare forced := ⟨_, rfl⟩
  obtain ⟨w, hw⟩ : ∃ w, w = (v.putFlash { v.flash with retired := v.flash.retired ++ [s.phys b] }).incSat (A.evtSpare (b / 100))
    F.evtSpare.RETIRED 1 := ⟨_, rfl⟩
  obtain ⟨t, ht⟩ : ∃ t, t = ((w.sparesGone (b / 100)).showSpares (b / 100)).health := ⟨_, rfl⟩
  have hmapped : u.Same (2 ^ Part.map.idx + 2 ^ Part.spares.idx + 2 ^ Part.tmr.idx + 2 ^ Part.desks.idx) w := by
    rw [hw, hv]
    exact State.incSat_same rfl _ _ _ _ (State.putFlash_same rfl _ _ (State.takeEvent_same rfl _ _ _ _ _ _ (.refl u)))
  have hlater : w.Same (2 ^ Part.map.idx + 2 ^ Part.spares.idx + 2 ^ Part.tmr.idx + 2 ^ Part.desks.idx + 2 ^ Part.flash.idx) t :=
    ht ▸ (State.sparesGone_same rfl w _).trans (State.health_same rfl _ (State.showSpares_same rfl _ _ (.refl _)))
  have hpart : (s.spareMapped b spare).Same (2 ^ Part.map.idx + 2 ^ Part.spares.idx + 2 ^ Part.tmr.idx + 2 ^ Part.flash.idx +
      2 ^ Part.evt.idx) u := hu ▸ State.benchRenewed_same rfl _ b
  obtain ⟨hgone, hkeptGone⟩ := w.sparesGone_kept (b / 100) b
  have hkept : v.KeptAt (· = A.benchId b) t := by
    have hvw : v.KeptAt (· = A.benchId b) w := by
      rw [hw]
      exact State.KeptAt.incSat (P := (· = A.benchId b)) hspareReg _ _ ⟨fun _ _ => rfl, List.prefix_rfl⟩
    have hgone' : w.KeptAt (· = A.benchId b) (w.sparesGone (b / 100)) := ⟨fun a _ => hkeptGone.rd a trivial, hkeptGone.raised⟩
    rw [ht]
    exact ((hvw.trans hgone').trans (State.showSpares_kept _ hspareReg)).trans
      (State.health_kept _ fun a ha h => hhealthReg (h ▸ ha))
  have hend : s.takeEnd b spare forced = t := by
    rw [State.takeEnd_eq, ← hu, ← hv, ← hw, ← ht]
    refine State.serveHeld_idle ?_
    rw [show t.tmr = w.tmr from hlater.same .tmr rfl, show w.tmr = u.tmr from hmapped.same .tmr rfl,
      show u.tmr = (s.spareMapped b spare).tmr from hpart.same .tmr rfl]
    exact hheld
  have hrd : t.rd (A.benchId b) = (s.spareMapped b spare).rd (A.benchId b) := by
    rw [hkept.rd _ rfl, hv]
    refine Eq.trans (State.raise_rd ..) ?_
    rw [hu]
    exact (State.benchRenewed_kept _ b).rd _ rfl
  obtain ⟨hphys, hon, hlive⟩ := s.spareMapped_shown b spare
  rw [hend]
  refine ⟨?_, by rw [State.fld_of_rd hrd, hphys], by rw [State.flag, State.fld_of_rd hrd]; exact hon, by rw [State.fld_of_rd hrd, hlive], ?_, ?_,
    fun d hd => ?_, ?_, ?_⟩
  · rw [State.phys, show t.map = w.map from hlater.same .map rfl, show w.map = u.map from hmapped.same .map rfl,
      show u.map = (s.spareMapped b spare).map from hpart.same .map rfl]
    show (FMap.get? (FMap.set s.map b spare) b).getD _ = spare
    rw [FMap.get?_set_same, Option.getD_some]
  · rw [State.spareList, show t.spares = w.spares from hlater.same .spares rfl, show w.spares = u.spares from hmapped.same .spares rfl,
      show u.spares = (s.spareMapped b spare).spares from hpart.same .spares rfl]
    show (FMap.get? (FMap.set s.spares (b / 100) _) (b / 100)).getD _ = _
    rw [FMap.get?_set_same, Option.getD_some]
  · have hflash : v.flash = s.flash := by
      rw [hv, (State.takeEvent_same (msk := 2 ^ Part.flash.idx) rfl u _ _ _ _ _ (.refl u)).same .flash rfl]
      exact hpart.same .flash rfl
    rw [show t.flash = w.flash from hlater.same .flash rfl, hw]
    show v.flash.retired ++ [s.phys b] = _
    rw [hflash]
  · rw [State.desk_congr (hlater.same .desks rfl), State.desk_congr (hmapped.same .desks rfl), hu]
    exact State.benchRenewed_host _ b hd
  · have hbenches : ∀ x : State, x.benches = u.benches → x.bench b = u.bench b := fun x hx => by rw [State.bench, hx, ← State.bench]
    have hwb : w.benches = u.benches := by
      rw [hw, hv]
      exact (State.takeEvent_same (msk := 2 ^ Part.benches.idx) rfl u _ _ _ _ _ (.refl u)).same .benches rfl
    have htb : t.benches = (w.sparesGone (b / 100)).benches := by
      rw [ht]
      exact (State.health_same (msk := 2 ^ Part.benches.idx) rfl _ (State.showSpares_same rfl _ _ (.refl _))).same .benches rfl
    rw [State.bench, htb, ← State.bench, hgone, hbenches w hwb, hu]
    exact State.benchRenewed_takeover _ b
  · refine State.raises_of_raise (u := u) (hpart.same .evt rfl) ?_
    have : (u.raise 0xA2 (evSource 1 b) (leBytes 2 (s.phys b) ++ leBytes 2 spare ++ leBytes 4 0 ++ leBytes 2 b ++
      [if forced then 2 else 1])) = v := hv.symm
    rw [this]
    exact hkept.raised

/-! ### The pairs of the Hutch (16 R458) -/

/-- A pair's mismatch is recorded: it restarts, or is retired where it has mismatched within a second. -/
def State.pairFailed (s : State) (p : Nat) (again : Bool) : State :=
  s.putFlt { s.flt with
    pairAt := FMap.set s.flt.pairAt p s.pulse
    pairsDead := if again then p :: s.flt.pairsDead else s.flt.pairsDead }

/-- Without a pair the firmware has FAILED. -/
def State.pairsLeft (s : State) : State := if 4 - s.flt.pairsDead.length = 0 then s.setFld A.mbxStat F.mbxStat.FWSTATE 3 else s

theorem State.pairsLeft_shown (s : State) : s.pairsLeft.flt = s.flt ∧ s.pairsLeft.evt = s.evt ∧
    s.pairsLeft.fld A.mbxStat F.mbxStat.FWSTATE = if 4 ≤ s.flt.pairsDead.length then 3 else s.fld A.mbxStat F.mbxStat.FWSTATE := by
  unfold State.pairsLeft
  split
  next h => exact ⟨rfl, rfl, by rw [if_pos (by omega), State.fld_setFld_same _ _ _ _ (by decide)]; rfl⟩
  next h => exact ⟨rfl, rfl, by rw [if_neg (by omega)]⟩

/-- The report of a pair's mismatch, with the number of pairs that are left. -/
def State.hutchReport (s : State) (p : Nat) (again : Bool) : State :=
  let left := 4 - s.flt.pairsDead.length
  let s := if left = 0 then s.setFld A.mbxStat F.mbxStat.FWSTATE 3 else s
  (s.raise 0xA5 (evSource 0 0) [BitVec.ofNat 8 p, if again then 2 else 1, BitVec.ofNat 8 left]).health

theorem State.hutchReport_eq (s : State) (p : Nat) (again : Bool) : s.hutchReport p again =
    (s.pairsLeft.raise 0xA5 (evSource 0 0) [BitVec.ofNat 8 p, if again then 2 else 1, BitVec.ofNat 8 (4 - s.flt.pairsDead.length)]).health :=
  rfl

section
variable {p : Fin 4} {s : State}

theorem execHutchLockstepMismatch_idle (h : s.flt.pairsDead.contains p.val = true ∨ s.rst.on = false) :
    exec (.hutchLockstepMismatch p) s = .next s := by
  refine congrArg Host.Outcome.next (if_pos ?_)
  obtain h | h := h
  · rw [h, Bool.true_or]
  · rw [h, Bool.not_false, Bool.or_true]

theorem execHutchLockstepMismatch_restarts (hlive : s.flt.pairsDead.contains p.val = false) (hon : s.rst.on = true) (again : Bool)
    (hagain : again = (FMap.get? s.flt.pairAt p).any (fun t0 => !s.reached t0 1000000)) :
    exec (.hutchLockstepMismatch p) s = .next ((s.pairFailed p again).hutchReport p again) := by
  have hgo : ¬ (s.flt.pairsDead.contains p.val || !s.rst.on) = true := by rw [hlive, hon]; decide
  show execHutchLockstepMismatch p s = _
  rw [execHutchLockstepMismatch, if_neg hgo]
  split
  next t0 hlast =>
    rw [hlast, Option.any_some] at hagain
    subst hagain
    rfl
  next hlast =>
    rw [hlast] at hagain
    subst hagain
    rfl

theorem State.saveAvail_shown (s : State) : s.saveAvail.flash.availT = s.saveAvail.rd A.evtAvailT ∧
    s.saveAvail.flash.availU = s.saveAvail.rd A.evtAvailU ∧ s.saveAvail.flt.savedAt = s.pulse ∧ s.saveAvail.mem = s.mem :=
  ⟨rfl, rfl, (State.countAvail_same (msk := 2 ^ Part.pulse.idx) rfl s (.refl s)).same .pulse rfl,
    (State.saveAvail_same (msk := 2 ^ Part.mem.idx) rfl s (.refl s)).same .mem rfl⟩

end

end Sys2Proof.Machine
open Sys2Proof Sys2Proof.Machine

/-- Settles O54: the start and the end of a takeover, the mismatches of the Hutch and the saving of the counters, each read off its
command. -/
theorem takeover : Obligations.Takeover := by
  unfold Obligations.Takeover
  intro b p s x c hx hc
  subst hx hc
  have hb : b.val < 800 := b.isLt
  refine ⟨fun sp l hopen hlevel hhosted hcopying hcases => ?starts, fun h => execTakeoverStart_idle ?noStart, fun h => ?noForce,
    fun t0 hfault hhosted htake hopen => ⟨fun hdue => ?forced, fun hearly => ?waits⟩, fun t0 f sp htake hmoves hheld => ?ends,
    fun h => ?noEnd, execHutchLockstepMismatch_idle, fun hlive hon again hagain => ?mismatch, fun hdue => ?saved, fun hearly => ?unsaved⟩
  case starts =>
    have hforced : (s.bench b).forced = (s.bench b).takeover.isSome ∧
        (if (s.bench b).forced then s.desksStill b else s.layerBoundary b) = true := by
      obtain ⟨hnone, hbound⟩ | ⟨hsome, hstill⟩ := hcases
      · have hf : (s.bench b).forced = false := by rw [Bench.forced, hnone]
        rw [hf, hnone, hbound]
        exact ⟨rfl, rfl⟩
      · obtain ⟨t, ht, htf⟩ := Option.map_eq_some_iff.mp hsome
        have hf : (s.bench b).forced = true := by rw [Bench.forced, ht]; exact htf
        rw [hf, ht, hstill]
        exact ⟨rfl, rfl⟩
    obtain ⟨hsome, hready⟩ := hforced
    have hbegins := execTakeoverStart_begins hopen (by rw [hready, hhosted, hcopying, hlevel]; rfl)
    rw [hsome] at hbegins
    exact ⟨_, hbegins, s.takeStart_shown b sp _⟩
  case noStart =>
    refine h.imp_right fun h => ?_
    obtain h | h | h | h := h
    · rw [decide_eq_false h]
      rfl
    · rw [h, Bool.and_false]
      rfl
    · rw [h, Bool.not_true, Bool.and_false]
      rfl
    · have hbound : s.layerBoundary b = false := by rw [State.layerBoundary, h, Bool.and_false]
      rw [h, hbound, ite_self, Bool.and_false]
  case noForce =>
    show execTakeoverWaitExpiry b s = _
    rw [execTakeoverWaitExpiry]
    refine congrArg Host.Outcome.next ?_
    cases hfault : (s.bench b).faultAt with
    | none => rfl
    | some t0 =>
      refine if_neg ?_
      obtain h | h | h | h := h
      · exact absurd (hfault.symm.trans h) (by simp)
      · rw [h]
        exact Bool.false_ne_true
      · rw [show (s.bench b).takeover.isNone = false by rw [Option.isNone_eq_false_iff]; exact h, Bool.and_false]
        exact Bool.false_ne_true
      · rw [h, List.isEmpty_nil, Bool.not_true, Bool.and_false]
        exact Bool.false_ne_true
  case forced =>
    have hnot : (s.openSpares (b.val / 100)).isEmpty = false := by rw [List.isEmpty_eq_false_iff]; exact hopen
    refine ⟨s.modBench b (fun x => { x with takeover := some ⟨s.pulse, true, none⟩ }), ?_, ?_,
      State.Same.onlyIn (State.modBench_same (by decide) _ _ _ (.refl s))⟩
    · show execTakeoverWaitExpiry b s = _
      rw [execTakeoverWaitExpiry]
      simp only [hfault, hhosted, htake, hnot, hdue, Option.isNone_none, Bool.not_false, Bool.and_self, if_true]
    · rw [State.modBench, State.bench_setBench_same]
  case waits =>
    show execTakeoverWaitExpiry b s = _
    rw [execTakeoverWaitExpiry]
    simp only [hfault, hearly, Bool.and_false, Bool.false_eq_true, if_false]
  case ends =>
    have h := State.takeEnd_takenOver hb hheld sp f
    refine ⟨s.takeEnd b sp f, ?_, h.phys, h.shown, h.onSpare, h.live, h.spares, h.retired, h.host, h.takeover, h.raises⟩
    show execTakeoverComplete b s = _
    rw [execTakeoverComplete, htake]
    simp only [hmoves, List.isEmpty_nil, if_true]
  case noEnd =>
    show execTakeoverComplete b s = _
    rw [execTakeoverComplete]
    refine congrArg Host.Outcome.next ?_
    split
    next htake =>
      refine if_neg fun hempty => ?_
      obtain h | h := h
      · exact h (List.isEmpty_iff.mp hempty)
      · rw [Bench.copying, htake] at h
        exact Bool.false_ne_true h.symm
    · rfl
  case mismatch =>
    obtain ⟨hflt, hevt, hstate⟩ := (s.pairFailed p again).pairsLeft_shown
    obtain ⟨u, hu⟩ : ∃ u, u = (s.pairFailed p again).pairsLeft.raise 0xA5 (evSource 0 0) [BitVec.ofNat 8 p, if again then 2 else 1,
      BitVec.ofNat 8 (4 - (s.pairFailed p again).flt.pairsDead.length)] := ⟨_, rfl⟩
    have huflt : u.flt = (s.pairFailed p again).flt := by rw [hu, State.raise_flt, hflt]
    have hdead : u.health.flt.pairsDead = (s.pairFailed p again).flt.pairsDead := by rw [u.health_pairs.2, huflt]
    refine ⟨u.health, by rw [execHutchLockstepMismatch_restarts hlive hon again hagain, State.hutchReport_eq, hu], ?_, hdead, ?_, ?_⟩
    · rw [u.health_pairs.1, huflt]
      exact FMap.get?_set_same ..
    · rw [hdead, State.fld_of_rd (u.health_rd (by decide)), hu, State.fld_of_rd (State.raise_rd ..), hstate]
      rfl
    · rw [hdead]
      refine State.raises_of_raise (u := (s.pairFailed p again).pairsLeft) hevt ?_
      rw [← hu]
      exact u.health_raised
  case saved => exact ⟨_, congrArg Host.Outcome.next (if_pos hdue), s.saveAvail_shown⟩
  case unsaved => exact congrArg Host.Outcome.next (if_neg (by rw [hearly]; exact Bool.false_ne_true))

end

section
/-!
PROOF. ResetsAndPower fails: its states may list an armed word that no module has. `SYNC_CNT` of that word would be `RST_CAUSE`,
and a core reset, which disarms every listed word, clears a bit there that the statement says it keeps.
-/
namespace Sys2Proof.Machine

section
variable {msk : Nat} {was : State}

theorem State.tbyRead_same (hfree : msk &&& 1140851845 = 0) (s cls ia n) (hs : was.Same msk s) :
    was.Same msk (s.tbyRead cls ia n).1 := by
  unfold State.tbyRead
  conv => zeta
  with_reducible repeat' first
    | assumption | exact free_mono hfree rfl | apply State.cwRead_same | refine foldl_same _ _ _ (fun _ _ _ => ?_) ?_
    | refine foldlFst_same _ _ _ (fun _ _ _ => ?_) ?_

theorem State.memRead_same (hfree : msk &&& 1174406277 = 0) (s cls a n) (hs : was.Same msk s) : was.Same msk (s.memRead cls a n).1 := by
  unfold State.memRead
  conv => zeta
  with_reducible repeat' first
    | assumption | exact free_mono hfree rfl | apply State.takeLost_same | apply State.tbyRead_same
    | refine foldl_same _ _ _ (fun _ _ _ => ?_) ?_ | refine foldlFst_same _ _ _ (fun _ _ _ => ?_) ?_
    | refine foldlSnd_same _ _ _ (fun _ _ _ => ?_) ?_ | refine fst_same ?_ (by assumption) | refine snd_same ?_ (by assumption) | split

theorem State.writePos_same (hfree : msk &&& 1174422669 = 0) (s d t k p l) (hs : was.Same msk s) :
    was.Same msk (s.writePos d t k p l) := by
  unfold State.writePos
  with_reducible repeat' first | assumption | exact free_mono hfree rfl | apply State.memWrite_same

theorem State.touch_same (hfree : msk &&& 1174422669 = 0) (s d t p on) (hs : was.Same msk s) : was.Same msk (s.touch d t p on) := by
  unfold State.touch
  with_reducible repeat' first
    | assumption | split | exact free_mono hfree rfl | apply State.memRead_same | apply State.memWrite_same
    | refine fst_same ?_ (by assumption)

theorem State.rollBack_same (hfree : msk &&& 1174422669 = 0) (s r) (hs : was.Same msk s) : was.Same msk (s.rollBack r) := by
  unfold State.rollBack
  conv => zeta
  with_reducible repeat' first
    | assumption | exact free_mono hfree rfl | apply State.draw_same | apply State.memWrite_same | apply State.writePos_same
    | apply State.touch_same | refine foldl_same _ _ _ (fun _ _ _ => ?_) ?_ | refine foldlFst_same _ _ _ (fun _ _ _ => ?_) ?_
    | refine foldlSnd_same _ _ _ (fun _ _ _ => ?_) ?_ | refine fst_same ?_ (by assumption) | refine snd_same ?_ (by assumption) | split

theorem State.driveReset_same (hfree : msk &&& 2149580800 = 0) (s low) (hs : was.Same msk s) : was.Same msk (s.driveReset low) := by
  unfold State.driveReset
  conv => zeta
  with_reducible repeat' first | assumption | exact free_mono hfree rfl | apply State.send_same | apply State.putRst_same | split

theorem State.driveFor_same (hfree : msk &&& 3223322624 = 0) (s ticks) (hs : was.Same msk s) : was.Same msk (s.driveFor ticks) := by
  unfold State.driveFor
  conv => zeta
  with_reducible repeat' first
    | assumption | exact free_mono hfree rfl | apply State.draw_same | apply State.driveReset_same | apply State.putRst_same

theorem State.idAfter_same (hfree : msk &&& 1 = 0) (s b old) (hs : was.Same msk s) : was.Same msk (s.idAfter b old) := by
  unfold State.idAfter
  with_reducible repeat' first | assumption | exact free_mono hfree rfl | apply State.wr_same

end

/-! ### A core reset disarms every listed word (06 R192) -/

/-- Disarming a word leaves a value of 31 bits. -/
theorem State.fld_disarm_lt (s : State) (w : Nat) :
    (s.setBit (A.syncCnt w) F.syncCnt.VALUE 31 false).fld (A.syncCnt w) F.syncCnt.VALUE < 2 ^ 31 := by
  have hval : s.fld (A.syncCnt w) F.syncCnt.VALUE < 2 ^ 32 := by
    unfold State.fld getFld bits
    exact Nat.mod_lt _ (by decide)
  rw [State.setBit, State.fld_setFld_same _ _ _ _ (by decide)]
  generalize s.fld (A.syncCnt w) F.syncCnt.VALUE = v at hval
  show setBits v 31 31 0 % 2 ^ 32 < 2 ^ 31
  simp only [setBits]
  omega

/-- Changing the state of the job changes no register but those of the mailbox and the availability counters. -/
theorem State.setJob_kept {P : Nat → Prop} (s : State) (j : Nat) (hmbx : ¬ P A.mbxStat) (ht : ¬ P A.evtAvailT) (hu : ¬ P A.evtAvailU) :
    s.KeptAt P (s.setJob j) := by
  have hset : s.KeptAt P (s.countAvail.setFld A.mbxStat F.mbxStat.JOB j) := (s.countAvail_kept ht hu).setFld hmbx ..
  unfold State.setJob
  extract_lets counted old shown
  split
  · exact hset.of_same rfl rfl
  split
  · exact hset.of_same rfl rfl
  · exact hset

/-- What a core reset does once the words are disarmed. -/
def State.afterDisarm (s : State) (runs : List SbdRun) : State :=
  let s := s.putSync { s.sync with
    waiters := [], kept := [], inbox := [], answers := [], abortAt := [], armedWords := [], lwait := [] }
  let s := s.setFld A.syncStat F.syncStat.WAITERS 0
  let s := (s.putSbd Sbd.reset).interrupted runs
  let s := if s.fld A.mbxStat F.mbxStat.JOB = 2 then s.setJob 3 else s
  let s := s.putFlash { s.flash with staged := if s.hut.ops.any (fun o => o.code == 0x0B00) then none else s.flash.staged }
  let s := (s.putCycZero s.pulse).putSkipped []
  let s := s.setFld A.rstCause F.rstCause.LEVEL 1
  ((List.range 8).foldl State.showSpares s).health

theorem State.putRegs_same {msk : Nat} {was : State} (hfree : msk &&& 1 = 0) (s x) (hs : was.Same msk s) : was.Same msk (s.putRegs x) :=
  hs.but .regs hfree rfl (fun p hp h => by cases p <;> first | exact h | exact absurd rfl hp)

theorem State.coreClear_disarms (s : State) : ∃ u : State, u.sync = s.sync ∧
    s.coreClear = (u.sync.armedWords.foldl (fun s w => s.setBit (A.syncCnt w) F.syncCnt.VALUE 31 false) u).afterDisarm s.sbd.runs := by
  unfold State.coreClear
  extract_lets runs ids rolled regsKept lend renewed noCycle noDesks shown cleared tmr dropped disarmed
  have hrolled : s.Same (2 ^ Part.sync.idx) rolled := foldl_same _ _ _ (fun u r h => State.rollBack_same rfl u r h) (.refl s)
  have hnoDesks : s.Same (2 ^ Part.sync.idx) noDesks := State.putDesks_same rfl _ _ (State.putLost_same rfl _ _
    (State.putCyc_same rfl _ _ (State.putBenches_same rfl _ _ (State.putRegs_same rfl _ _ hrolled))))
  have hshown : s.Same (2 ^ Part.sync.idx) shown :=
    foldl_same _ _ _ (fun u (p : Nat × Word) h => State.idAfter_same rfl u p.1 p.2 h) hnoDesks
  have hdropped : s.Same (2 ^ Part.sync.idx) dropped := State.putTmr_same rfl _ _ (State.memClear_same rfl _ _ _ hshown)
  exact ⟨dropped, hdropped.same .sync rfl, rfl⟩

/-- A core reset shows its level in `RST_CAUSE`, and nothing else there. -/
theorem State.fld_levelShown (s : State) {f : Fld} (hf : f.ok) (hfield : f.hi < F.rstCause.LEVEL.lo) :
    ((List.range 8).foldl State.showSpares (s.setFld A.rstCause F.rstCause.LEVEL 1)).health.fld A.rstCause f = s.fld A.rstCause f := by
  have hspare : ∀ c, ¬ A.evtSpare c = A.rstCause := fun c => by unfold A.evtSpare A.rstCause; omega
  have hshown (u : State) : u.KeptAt (· = A.rstCause) ((List.range 8).foldl State.showSpares u).health :=
    (State.KeptAt.foldl (fun v c => v.showSpares_kept (hspare c)) _ u).trans (State.health_kept _ (by decide))
  exact ((hshown _).fld rfl f).trans (State.fld_setFld_field _ _ _ _ _ (by decide) hf (.inl hfield))

/-- Telling the running job of a reset leaves `RST_CAUSE`. -/
theorem State.jobTold_kept (s : State) :
    s.KeptAt (· = A.rstCause) (if s.fld A.mbxStat F.mbxStat.JOB = 2 then s.setJob 3 else s) := by
  split
  · exact s.setJob_kept _ (by decide) (by decide) (by decide)
  · exact .refl s

/-- The later part of a core reset leaves what `RST_CAUSE` says besides its level. -/
theorem State.afterDisarm_cause (s : State) {f : Fld} (hf : f.ok) (hfield : f.hi < F.rstCause.LEVEL.lo) :
    (s.afterDisarm []).fld A.rstCause f = s.fld A.rstCause f := by
  unfold State.afterDisarm
  extract_lets sync cleared counted quiet job flash staged zeroed levelled
  have hquiet : quiet.fld A.rstCause f = s.fld A.rstCause f := State.fld_setFld_ne _ _ _ _ (by decide)
  have hjob : job.fld A.rstCause f = quiet.fld A.rstCause f := quiet.jobTold_kept.fld rfl f
  clear_value job
  have hzeroed : zeroed.fld A.rstCause f = job.fld A.rstCause f := State.fld_of_rd (State.rd_of_regs rfl _) f
  exact (State.fld_levelShown zeroed hf hfield).trans (hzeroed.trans (hjob.trans hquiet))

/-! ### The counterexample -/

/-- Adding no cause leaves `RST_CAUSE`. -/
theorem State.addCause_none (s : State) : (s.addCause 0).rd A.rstCause = s.rd A.rstCause := by
  have hnone : s.rd A.rstCause ||| putFld 0 ⟨63, 0⟩ 0 = s.rd A.rstCause := by
    rw [show putFld 0 ⟨63, 0⟩ 0 = 0#64 by decide, BitVec.or_zero]
  show ((s.wr A.rstCause (s.rd A.rstCause ||| putFld 0 ⟨63, 0⟩ 0)).rd A.rstCause) = _
  rw [hnone, State.rd_wr_same]

/-- A core reset that is due, was not requested by the host and has no further cause leaves `RST_CAUSE` as clearing leaves it. -/
theorem execCoreReset_cause {s u : State} {at_ : Nat} (hon : s.rst.on = true) (hlevel : s.rst.level = 0)
    (hdue : s.rst.due = some (1, at_, 0)) (hat : at_ ≤ s.pulse) (hu : u = (s.putRst { s.rst with due := none }).driveFor 22000) :
    ∃ t, exec .coreReset s = .next t ∧ t.rd A.rstCause = u.coreClear.rd A.rstCause := by
  have hgo : ¬ (!s.rst.on || s.rst.level != 0 || decide (at_ > s.pulse)) = true := by
    rw [hon, hlevel, decide_eq_false (by omega)]
    decide
  obtain ⟨v, hv⟩ : ∃ v, v = u.coreClear.addCause 0 := ⟨_, rfl⟩
  refine ⟨(v.putRst { v.rst with taken := max 1 v.rst.taken }).ready0 1, ?_, (State.raise_rd ..).trans (hv ▸ u.coreClear.addCause_none)⟩
  rw [hv, hu]
  show execCoreReset s = _
  rw [execCoreReset, hdue]
  exact congrArg Host.Outcome.next (if_neg hgo)

/-- The number whose `SYNC_CNT` would be `RST_CAUSE`. -/
def strayWord : Nat := 0x5000000080

theorem syncCnt_strayWord : A.syncCnt strayWord = A.rstCause := rfl

/-- A module that is on, with a core reset due, bit 31 of `RST_CAUSE` set, and the stray word listed as armed. -/
def strayArmed : State :=
  ((State.reset.putRst { Rst.reset with on := true, due := some (1, 0, 0) }).putRegs [(A.rstCause, 0x80000000)]).putSync
    { State.reset.sync with armedWords := [strayWord] }

theorem State.coreClear_strayWord {s : State} (hwords : s.sync.armedWords = [strayWord]) (hruns : s.sbd.runs = []) :
    s.coreClear.fld A.rstCause F.syncCnt.VALUE < 2 ^ 31 := by
  obtain ⟨u, hu, hclear⟩ := s.coreClear_disarms
  rw [hclear, hu, hwords, hruns, State.afterDisarm_cause _ (by decide) (by decide)]
  exact u.fld_disarm_lt strayWord

end Sys2Proof.Machine

open Sys2Proof Sys2Proof.Machine

/-- Refutes O56: in the state `strayArmed`, which lists an armed word that no module has, `CORE_RESET` disarms that word, so bit 31
of `RST_CAUSE` is not kept. The statement has no premise that keeps the armed words below the number of entries. -/
theorem not_resetsAndPower : ¬ Obligations.ResetsAndPower := by
  unfold Obligations.ResetsAndPower
  intro h
  obtain ⟨-, -, hcore, -⟩ := h 0 false strayArmed 0 0 0
  obtain ⟨t, ht, -, -, -, -, hcause, -⟩ := hcore rfl rfl rfl (by decide)
  obtain ⟨w, hw, hcleared⟩ := execCoreReset_cause (s := strayArmed) rfl rfl rfl (by decide) rfl
  cases ht.symm.trans hw
  have hlt : t.fld A.rstCause F.syncCnt.VALUE < 2 ^ 31 := by
    rw [State.fld_of_rd hcleared]
    exact State.coreClear_strayWord rfl rfl
  have hkept : t.fld A.rstCause F.syncCnt.VALUE = 2 ^ 31 := by
    rw [State.fld, hcause]
    decide
  omega
end

section
/-!
SUPPORT. What the Trestle's operations leave alone (12, 13): the pieces of the state that each may touch.
-/
namespace Sys2Proof.Machine

section
variable {msk : Nat} {was : State}

theorem State.driveMark_same (hfree : msk &&& 2147487744 = 0) (s high) (hs : was.Same msk s) : was.Same msk (s.driveMark high) := by
  unfold State.driveMark
  conv => zeta
  with_reducible repeat' first | assumption | exact free_mono hfree rfl | apply State.send_same | apply State.putClk_same | split

theorem State.logEntry64_same (hfree : msk &&& 1191199885 = 0) (s body) (hs : was.Same msk s) : was.Same msk (s.logEntry64 body) := by
  unfold State.logEntry64
  with_reducible repeat' first | assumption | exact free_mono hfree rfl | apply State.logPut_same

theorem State.claimed_same (hfree : msk &&& 67108864 = 0) (s res clm) (hs : was.Same msk s) : was.Same msk (s.claimed res clm) := by
  unfold State.claimed
  conv => zeta
  with_reducible repeat' first | assumption | exact free_mono hfree rfl | apply State.putCyc_same

theorem State.refuse_same (hfree : msk &&& 67109889 = 0) (s res clm holder) (hs : was.Same msk s) :
    was.Same msk (s.refuse res clm holder) := by
  unfold State.refuse
  conv => zeta
  with_reducible repeat' first
    | assumption | exact free_mono hfree rfl | apply State.incSat_same | apply State.setFld_same | apply State.hwOr_same
    | apply State.raise_same | split

theorem State.stageClaim_same (hfree : msk &&& 67109889 = 0) (s x) (hs : was.Same msk s) : was.Same msk (s.stageClaim x) := by
  unfold State.stageClaim
  conv => zeta
  with_reducible repeat' first
    | assumption | exact free_mono hfree rfl | apply State.setFld_same | apply State.claimed_same | apply State.refuse_same | split

theorem State.alarmFree_same (hfree : msk &&& 1 = 0) (s clm) (hs : was.Same msk s) : was.Same msk (s.alarmFree clm) := by
  unfold State.alarmFree
  with_reducible repeat' first | assumption | exact free_mono hfree rfl | apply State.setFld_same | split

theorem State.alarmTake_same (hfree : msk &&& 67109889 = 0) (s clm) (hs : was.Same msk s) : was.Same msk (s.alarmTake clm).1 := by
  unfold State.alarmTake
  conv => zeta
  with_reducible repeat' first
    | assumption | exact free_mono hfree rfl | apply State.claimed_same | apply State.setFld_same | apply State.refuse_same
    | refine fst_same ?_ (by assumption) | refine snd_same ?_ (by assumption) | split

theorem State.trsEvent_same (hfree : msk &&& 1024 = 0) (s code pay) (hs : was.Same msk s) : was.Same msk (s.trsEvent code pay) := by
  unfold State.trsEvent
  with_reducible repeat' first | assumption | exact free_mono hfree rfl | apply State.raise_same

theorem State.modPart_same (hfree : msk &&& 32768 = 0) (s i) (f) (hs : was.Same msk s) : was.Same msk (s.modPart i f) := by
  unfold State.modPart
  conv => zeta
  with_reducible repeat' first | assumption | exact free_mono hfree rfl | apply State.putTrs_same

theorem State.abandon_same (hfree : msk &&& 33793 = 0) (s i) (hs : was.Same msk s) : was.Same msk (s.abandon i) := by
  unfold State.abandon
  conv => zeta
  with_reducible repeat' first
    | assumption | exact free_mono hfree rfl | apply State.setFld_same | apply State.trsEvent_same | apply State.modPart_same
    | apply State.putTrs_same

theorem State.freeContrib_same (hfree : msk &&& 32768 = 0) (s c) (hs : was.Same msk s) : was.Same msk (s.freeContrib c) := by
  unfold State.freeContrib
  conv => zeta
  with_reducible repeat' first | assumption | exact free_mono hfree rfl | apply State.putTrs_same

theorem State.applyLog_same (hfree : msk &&& 1191199885 = 0) (s g kind m r count nf parts) (hs : was.Same msk s) :
    was.Same msk (s.applyLog g kind m r count nf parts) := by
  unfold State.applyLog
  conv => zeta
  with_reducible repeat' first | assumption | exact free_mono hfree rfl | apply State.logEntry64_same

theorem State.dropContrib_same (hfree : msk &&& 1191232653 = 0) (s c m reason) (hs : was.Same msk s) :
    was.Same msk (s.dropContrib c m reason) := by
  unfold State.dropContrib
  conv => zeta
  with_reducible repeat' first
    | assumption | exact free_mono hfree rfl | apply State.freeContrib_same | apply State.trsEvent_same | apply State.applyLog_same

theorem State.reunions_same (hfree : msk &&& 1191232653 = 0) (s g m) (hs : was.Same msk s) : was.Same msk (s.reunions g m).1 := by
  unfold State.reunions
  conv => zeta
  with_reducible repeat' first
    | assumption | exact free_mono hfree rfl | apply State.abandon_same | apply State.dropContrib_same
    | refine foldl_same _ _ _ (fun _ _ _ => ?_) ?_ | refine foldlFst_same _ _ _ (fun _ _ _ => ?_) ?_
    | refine foldlSnd_same _ _ _ (fun _ _ _ => ?_) ?_ | refine fst_same ?_ (by assumption) | refine snd_same ?_ (by assumption) | split

theorem State.storePrint_same (hfree : msk &&& 1174422669 = 0) (s slot d j) (hs : was.Same msk s) :
    was.Same msk (s.storePrint slot d j) := by
  unfold State.storePrint
  with_reducible repeat' first | assumption | exact free_mono hfree rfl | apply State.memWrite_same

theorem State.nonFinite_same (hfree : msk &&& 67109889 = 0) (s src tid idx) (hs : was.Same msk s) :
    was.Same msk (s.nonFinite src tid idx) := by
  unfold State.nonFinite
  conv => zeta
  with_reducible repeat' first
    | assumption | exact free_mono hfree rfl | apply State.incSat_same | apply State.hwSet_same | apply State.setFld_same
    | apply State.raise_same | split

theorem State.checkCal_same (hfree : msk &&& 67108865 = 0) (s) (hs : was.Same msk s) : was.Same msk (s.checkCal) := by
  unfold State.checkCal
  conv => zeta
  with_reducible repeat' first | assumption | exact free_mono hfree rfl | apply State.hwSet_same | split

theorem State.modGrp_same (hfree : msk &&& 32768 = 0) (s g) (f) (hs : was.Same msk s) : was.Same msk (s.modGrp g f) := by
  unfold State.modGrp
  conv => zeta
  with_reducible repeat' first | assumption | exact free_mono hfree rfl | apply State.putTrs_same

theorem State.putLin_same (hfree : msk &&& 1174422669 = 0) (s g j r) (hs : was.Same msk s) : was.Same msk (s.putLin g j r) := by
  unfold State.putLin
  with_reducible repeat' first | assumption | exact free_mono hfree rfl | apply State.memWrite_same

theorem State.showGate_same (hfree : msk &&& 1025 = 0) (s) (hs : was.Same msk s) : was.Same msk (s.showGate) := by
  unfold State.showGate
  conv => zeta
  with_reducible repeat' first | assumption | exact free_mono hfree rfl | apply State.setFld_same | apply State.trsEvent_same | split

theorem State.showDelay_same (hfree : msk &&& 1 = 0) (s) (hs : was.Same msk s) : was.Same msk (s.showDelay) := by
  unfold State.showDelay
  with_reducible repeat' first | assumption | exact free_mono hfree rfl | apply State.setFld_same

theorem State.forgetPart_same (hfree : msk &&& 32768 = 0) (s i) (hs : was.Same msk s) : was.Same msk (s.forgetPart i) := by
  unfold State.forgetPart
  conv => zeta
  with_reducible repeat' first | assumption | exact free_mono hfree rfl | apply State.modPart_same

theorem State.partEnter_same (hfree : msk &&& 1025 = 0) (s i new cause) (hs : was.Same msk s) :
    was.Same msk (s.partEnter i new cause) := by
  unfold State.partEnter
  conv => zeta
  with_reducible repeat' first | assumption | exact free_mono hfree rfl | apply State.trsEvent_same | apply State.setFld_same | split

theorem State.sendBytes_same (hfree : msk &&& 3221225473 = 0) (s p l) (hs : was.Same msk s) : was.Same msk (s.sendBytes p l) := by
  unfold State.sendBytes
  conv => zeta
  with_reducible repeat' first
    | assumption | exact free_mono hfree rfl | apply State.incWrap_same | apply State.send_same | apply State.draw_same

theorem State.sendAgain_same (hfree : msk &&& 3221258241 = 0) (s) (hs : was.Same msk s) : was.Same msk (s.sendAgain) := by
  unfold State.sendAgain
  conv => zeta
  with_reducible repeat' first
    | assumption | exact free_mono hfree rfl | apply State.sendBytes_same | apply State.nextFresh_same | apply State.putTrs_same
    | refine foldl_same _ _ _ (fun _ _ _ => ?_) ?_ | refine foldlFst_same _ _ _ (fun _ _ _ => ?_) ?_
    | refine foldlSnd_same _ _ _ (fun _ _ _ => ?_) ?_ | refine fst_same ?_ (by assumption) | refine snd_same ?_ (by assumption) | split

theorem State.noteSent_same (hfree : msk &&& 32768 = 0) (s f bytes) (hs : was.Same msk s) : was.Same msk (s.noteSent f bytes) := by
  unfold State.noteSent
  conv => zeta
  with_reducible repeat' first
    | assumption | exact free_mono hfree rfl | apply State.putTrs_same | apply State.modPart_same | split

theorem State.trySend_same (hfree : msk &&& 3221258241 = 0) (s f) (hs : was.Same msk s) : was.Same msk (s.trySend f).1 := by
  unfold State.trySend
  conv => zeta
  with_reducible repeat' first
    | assumption | exact free_mono hfree rfl | apply State.putTrs_same | apply State.noteSent_same | apply State.sendBytes_same
    | apply State.nextFresh_same | refine fst_same ?_ (by assumption) | refine snd_same ?_ (by assumption) | split

theorem State.flushFar_same (hfree : msk &&& 3221259265 = 0) (s) (hs : was.Same msk s) : was.Same msk (s.flushFar) := by
  unfold State.flushFar
  conv => zeta
  with_reducible repeat' first
    | assumption | exact free_mono hfree rfl | apply State.sendAgain_same | apply State.showGate_same | apply State.putTrs_same
    | apply State.trySend_same | refine foldl_same _ _ _ (fun _ _ _ => ?_) ?_ | refine foldlFst_same _ _ _ (fun _ _ _ => ?_) ?_
    | refine foldlSnd_same _ _ _ (fun _ _ _ => ?_) ?_ | refine fst_same ?_ (by assumption) | refine snd_same ?_ (by assumption) | split

theorem State.dropFrame_same (hfree : msk &&& 33793 = 0) (s reason port h) (hs : was.Same msk s) :
    was.Same msk (s.dropFrame reason port h) := by
  unfold State.dropFrame
  conv => zeta
  with_reducible repeat' first
    | assumption | exact free_mono hfree rfl | apply State.incSat_same | apply State.trsEvent_same | apply State.putTrs_same | split

theorem State.sendFrames_same (hfree : msk &&& 3221259265 = 0) (s l) (hs : was.Same msk s) : was.Same msk (s.sendFrames l) := by
  unfold State.sendFrames
  conv => zeta
  with_reducible repeat' first | assumption | exact free_mono hfree rfl | apply State.flushFar_same | apply State.putTrs_same

theorem State.control_same (hfree : msk &&& 3221259265 = 0) (s i kind g body) (hs : was.Same msk s) :
    was.Same msk (s.control i kind g body) := by
  unfold State.control
  with_reducible repeat' first | assumption | exact free_mono hfree rfl | apply State.sendFrames_same

theorem State.sendLineage_same (hfree : msk &&& 3221259265 = 0) (s i) (hs : was.Same msk s) : was.Same msk (s.sendLineage i) := by
  unfold State.sendLineage
  conv => zeta
  with_reducible repeat' first
    | assumption | exact free_mono hfree rfl | apply State.control_same | refine foldl_same _ _ _ (fun _ _ _ => ?_) ?_

theorem State.startReunion_same (hfree : msk &&& 3221259265 = 0) (s i) (hs : was.Same msk s) : was.Same msk (s.startReunion i) := by
  unfold State.startReunion
  conv => zeta
  with_reducible repeat' first
    | assumption | exact free_mono hfree rfl | apply State.incSat_same | apply State.setFld_same | apply State.modPart_same
    | apply State.sendLineage_same | split

theorem State.recvFrame_same (hfree : msk &&& 3221259265 = 0) (s port l) (hs : was.Same msk s) :
    was.Same msk (s.recvFrame port l).1 := by
  unfold State.recvFrame
  conv => zeta
  with_reducible repeat' first
    | assumption | exact free_mono hfree rfl | apply State.incSat_same | apply State.dropFrame_same | apply State.startReunion_same
    | apply State.modPart_same | apply State.incWrap_same | refine fst_same ?_ (by assumption) | refine snd_same ?_ (by assumption)
    | split

theorem State.putContrib_same (hfree : msk &&& 32768 = 0) (s c) (hs : was.Same msk s) : was.Same msk (s.putContrib c) := by
  unfold State.putContrib
  conv => zeta
  with_reducible repeat' first | assumption | exact free_mono hfree rfl | apply State.putTrs_same

theorem State.answerContrib_same (hfree : msk &&& 3221259265 = 0) (s i c kind body) (hs : was.Same msk s) :
    was.Same msk (s.answerContrib i c kind body) := by
  unfold State.answerContrib
  conv => zeta
  with_reducible repeat' first
    | assumption | exact free_mono hfree rfl | apply State.putTrs_same | apply State.putContrib_same | apply State.sendFrames_same
    | split

theorem State.ack_same (hfree : msk &&& 3221259265 = 0) (s i c) (hs : was.Same msk s) : was.Same msk (s.ack i c) := by
  unfold State.ack
  with_reducible repeat' first | assumption | exact free_mono hfree rfl | apply State.answerContrib_same

theorem State.nack_same (hfree : msk &&& 3221259265 = 0) (s i c) (hs : was.Same msk s) : was.Same msk (s.nack i c) := by
  unfold State.nack
  conv => zeta
  with_reducible repeat' first | assumption | exact free_mono hfree rfl | apply State.answerContrib_same

theorem State.repeatData_same (hfree : msk &&& 3221259265 = 0) (s i h) (hs : was.Same msk s) : was.Same msk (s.repeatData i h) := by
  unfold State.repeatData
  with_reducible repeat' first
    | assumption | exact free_mono hfree rfl | apply State.ack_same | apply State.nack_same | split

theorem State.dropDelays_same (hfree : msk &&& 32769 = 0) (s i) (hs : was.Same msk s) : was.Same msk (s.dropDelays i) := by
  unfold State.dropDelays
  conv => zeta
  with_reducible repeat' first | assumption | exact free_mono hfree rfl | apply State.modPart_same | apply State.setFld_same

theorem State.sample_same (hfree : msk &&& 33793 = 0) (s i round d) (hs : was.Same msk s) : was.Same msk (s.sample i round d) := by
  unfold State.sample
  conv => zeta
  with_reducible repeat' first
    | assumption | exact free_mono hfree rfl | apply State.modPart_same | apply State.setFld_same | apply State.dropDelays_same
    | apply State.trsEvent_same | apply State.showDelay_same | split

theorem State.takeData_same (hfree : msk &&& 3221259265 = 0) (s i h body) (hs : was.Same msk s) :
    was.Same msk (s.takeData i h body) := by
  unfold State.takeData
  conv => zeta
  with_reducible repeat' first
    | assumption | exact free_mono hfree rfl | apply State.sample_same | apply State.ack_same | apply State.setFld_same
    | apply State.putContrib_same | split

theorem State.putXfer_same (hfree : msk &&& 32768 = 0) (s x) (hs : was.Same msk s) : was.Same msk (s.putXfer x) := by
  unfold State.putXfer
  conv => zeta
  with_reducible repeat' first | assumption | exact free_mono hfree rfl | apply State.putTrs_same

theorem State.askBlocks_same (hfree : msk &&& 3221259265 = 0) (s x) (hs : was.Same msk s) : was.Same msk (s.askBlocks x) := by
  unfold State.askBlocks
  conv => zeta
  with_reducible repeat' first
    | assumption | exact free_mono hfree rfl | apply State.control_same | refine foldl_same _ _ _ (fun _ _ _ => ?_) ?_

theorem State.listBlocks_same (hfree : msk &&& 3221259265 = 0) (s x) (hs : was.Same msk s) : was.Same msk (s.listBlocks x) := by
  unfold State.listBlocks
  conv => zeta
  with_reducible repeat' first
    | assumption | exact free_mono hfree rfl | apply State.putXfer_same | apply State.askBlocks_same | split

theorem State.sendHello_same (hfree : msk &&& 3221259265 = 0) (s i) (hs : was.Same msk s) : was.Same msk (s.sendHello i) := by
  unfold State.sendHello
  with_reducible repeat' first | assumption | exact free_mono hfree rfl | apply State.control_same

theorem State.askJoin_same (hfree : msk &&& 3221259265 = 0) (s i) (hs : was.Same msk s) : was.Same msk (s.askJoin i) := by
  unfold State.askJoin
  with_reducible repeat' first | assumption | exact free_mono hfree rfl | apply State.control_same

theorem State.joinAgain_same (hfree : msk &&& 3221259265 = 0) (s i g) (hs : was.Same msk s) : was.Same msk (s.joinAgain i g) := by
  unfold State.joinAgain
  conv => zeta
  with_reducible repeat' first
    | assumption | exact free_mono hfree rfl | apply State.putTrs_same | apply State.askJoin_same | apply State.modPart_same

theorem State.joinLate_same (hfree : msk &&& 3221259265 = 0) (s g off) (hs : was.Same msk s) : was.Same msk (s.joinLate g off) := by
  unfold State.joinLate
  with_reducible repeat' first | assumption | exact free_mono hfree rfl | apply State.joinAgain_same | split

theorem State.skipRound_same (hfree : msk &&& 1191199885 = 0) (s g n due) (hs : was.Same msk s) :
    was.Same msk (s.skipRound g n due) := by
  unfold State.skipRound
  conv => zeta
  with_reducible repeat' first
    | assumption | exact free_mono hfree rfl | apply State.trsEvent_same | apply State.incSat_same | apply State.applyLog_same

theorem State.snapPartners_same (hfree : msk &&& 33793 = 0) (s n) (hs : was.Same msk s) : was.Same msk (s.snapPartners n) := by
  unfold State.snapPartners
  conv => zeta
  with_reducible repeat' first
    | assumption | exact free_mono hfree rfl | apply State.showDelay_same | apply State.partEnter_same | apply State.modPart_same
    | apply State.abandon_same | refine foldl_same _ _ _ (fun _ _ _ => ?_) ?_ | refine foldlFst_same _ _ _ (fun _ _ _ => ?_) ?_
    | refine foldlSnd_same _ _ _ (fun _ _ _ => ?_) ?_ | refine fst_same ?_ (by assumption) | refine snd_same ?_ (by assumption) | split

theorem State.beginSnap_same (hfree : msk &&& 33793 = 0) (s g n) (hs : was.Same msk s) : was.Same msk (s.beginSnap g n) := by
  unfold State.beginSnap
  conv => zeta
  with_reducible repeat' first
    | assumption | exact free_mono hfree rfl | apply State.snapPartners_same | apply State.modGrp_same | apply State.putTrs_same

theorem State.calMark_same (hfree : msk &&& 2147487744 = 0) (s g) (hs : was.Same msk s) : was.Same msk (s.calMark g) := by
  unfold State.calMark
  conv => zeta
  with_reducible repeat' first | assumption | exact free_mono hfree rfl | apply State.driveMark_same | apply State.putClk_same | split

theorem State.lateStart_same (hfree : msk &&& 2147488769 = 0) (s g action due) (hs : was.Same msk s) :
    was.Same msk (s.lateStart g action due) := by
  unfold State.lateStart
  conv => zeta
  with_reducible repeat' first
    | assumption | exact free_mono hfree rfl | apply State.calMark_same | apply State.trsEvent_same | apply State.incSat_same | split

theorem readDiffElem_same (hfree : msk &&& 1174422669 = 0) (d b c a q x) (hq : was.Same msk q.1) :
    was.Same msk (readDiffElem d b c a q x).1 := by
  unfold readDiffElem
  conv => zeta
  with_reducible repeat' first
    | assumption | exact free_mono hfree rfl | apply State.nonFinite_same | apply State.memWrite_same
    | refine fst_same ?_ (by assumption) | refine snd_same ?_ (by assumption) | split

theorem readDiffWord_same (hfree : msk &&& 1174422669 = 0) (d b base q c) (hq : was.Same msk q.1) :
    was.Same msk (readDiffWord d b base q c).1 := by
  unfold readDiffWord
  extract_lets a
  split
  next s' l ok psn he =>
  have h' := fst_same (State.memRead_same (free_mono hfree rfl) _ _ _ _ hq) he
  split
  · exact State.raise_same (free_mono hfree rfl) _ _ _ _ (State.memWrite_same (free_mono hfree rfl) _ _ _ _ h')
  · exact foldlFst_same _ _ _ (fun q x hq => readDiffElem_same (free_mono hfree rfl) _ _ _ _ _ _ hq) h'

theorem State.readDiff_same (hfree : msk &&& 1174422669 = 0) (s d b) (hs : was.Same msk s) : was.Same msk (s.readDiff d b).1 := by
  unfold State.readDiff
  extract_lets j
  split
  split
  · exact hs
  · exact thirds_same (foldlFst_same _ _ _ (fun p c hp => readDiffWord_same (free_mono hfree rfl) _ _ _ _ _ hp) hs)

theorem State.askXfer_same (hfree : msk &&& 3221259265 = 0) (s x) (hs : was.Same msk s) : was.Same msk (s.askXfer x) := by
  unfold State.askXfer
  conv => zeta
  with_reducible repeat' first | assumption | exact free_mono hfree rfl | apply State.control_same

theorem State.startXfer_same (hfree : msk &&& 3221259265 = 0) (s kind g slot part fp voters) (hs : was.Same msk s) :
    was.Same msk (s.startXfer kind g slot part fp voters) := by
  unfold State.startXfer
  conv => zeta
  with_reducible repeat' first | assumption | exact free_mono hfree rfl | apply State.askXfer_same | apply State.putTrs_same | split

theorem State.decideVotes_same (hfree : msk &&& 3221259265 = 0) (s g m) (hs : was.Same msk s) : was.Same msk (s.decideVotes g m) := by
  unfold State.decideVotes
  conv => zeta
  with_reducible repeat' first
    | assumption | exact free_mono hfree rfl | apply State.trsEvent_same | apply State.startXfer_same
    | refine foldl_same _ _ _ (fun _ _ _ => ?_) ?_ | refine foldlFst_same _ _ _ (fun _ _ _ => ?_) ?_
    | refine foldlSnd_same _ _ _ (fun _ _ _ => ?_) ?_ | refine fst_same ?_ (by assumption) | refine snd_same ?_ (by assumption) | split

theorem State.sendEnd_same (hfree : msk &&& 3221259265 = 0) (s i g kind slot code sent) (hs : was.Same msk s) :
    was.Same msk (s.sendEnd i g kind slot code sent) := by
  unfold State.sendEnd
  with_reducible repeat' first | assumption | exact free_mono hfree rfl | apply State.control_same

theorem State.diffBlock_same (hfree : msk &&& 1174422669 = 0) (s slot cls tau step d pair) (hs : was.Same msk s) :
    was.Same msk (s.diffBlock slot cls tau step d pair).1 := by
  unfold State.diffBlock
  conv => zeta
  with_reducible repeat' first
    | assumption | exact free_mono hfree rfl | apply State.readDiff_same | apply State.memWrite_same
    | refine fst_same ?_ (by assumption) | refine snd_same ?_ (by assumption) | split

theorem ownFrame_same (hfree : msk &&& 1174455437 = 0) (tau n slot g d a p) (ha : was.Same msk a.1) :
    was.Same msk (ownFrame tau n slot g d a p).1 := by
  unfold ownFrame
  split
  next he =>
  have h := fst_same (State.diffBlock_same (free_mono hfree rfl) _ _ _ _ _ _ _ ha) he
  dsimp only
  split
  · exact State.modGrp_same (free_mono hfree rfl) _ _ _ h
  · exact h

theorem State.ownFrames_same (hfree : msk &&& 1174455437 = 0) (s g tau n) (hs : was.Same msk s) :
    was.Same msk (s.ownFrames g tau n).1 := by
  unfold State.ownFrames
  exact foldlFst_same _ _ _ (fun a q ha => foldlFst_same _ _ _ (fun b k hb => ownFrame_same (free_mono hfree rfl) _ _ _ _ _ _ _ hb) ha) hs

theorem State.sendDeltas_same (hfree : msk &&& 3321922693 = 0) (s i g arr round q base blocks) (hs : was.Same msk s) :
    was.Same msk (s.sendDeltas i g arr round q base blocks) := by
  unfold State.sendDeltas
  conv => zeta
  with_reducible repeat' first
    | assumption | exact free_mono hfree rfl | apply State.memRead_same | apply State.control_same
    | refine foldl_same _ _ _ (fun _ _ _ => ?_) ?_

theorem State.sendReunion_same (hfree : msk &&& 3321922693 = 0) (s i g) (hs : was.Same msk s) : was.Same msk (s.sendReunion i g) := by
  unfold State.sendReunion
  conv => zeta
  with_reducible repeat' first
    | assumption | exact free_mono hfree rfl | apply State.sendDeltas_same | apply State.sendEnd_same
    | refine foldl_same _ _ _ (fun _ _ _ => ?_) ?_ | refine foldlFst_same _ _ _ (fun _ _ _ => ?_) ?_
    | refine foldlSnd_same _ _ _ (fun _ _ _ => ?_) ?_ | refine fst_same ?_ (by assumption) | refine snd_same ?_ (by assumption) | split

theorem State.decideReunion_same (hfree : msk &&& 3321922693 = 0) (s i re) (hs : was.Same msk s) :
    was.Same msk (s.decideReunion i re) := by
  unfold State.decideReunion
  conv => zeta
  with_reducible repeat' first
    | assumption | exact free_mono hfree rfl | apply State.setFld_same | apply State.modPart_same | apply State.trsEvent_same
    | apply State.showDelay_same | apply State.partEnter_same | apply State.sendReunion_same
    | refine foldl_same _ _ _ (fun _ _ _ => ?_) ?_ | refine foldlFst_same _ _ _ (fun _ _ _ => ?_) ?_
    | refine foldlSnd_same _ _ _ (fun _ _ _ => ?_) ?_ | refine fst_same ?_ (by assumption) | refine snd_same ?_ (by assumption) | split

theorem State.reconcile_same (hfree : msk &&& 3221259265 = 0) (s g m) (hs : was.Same msk s) : was.Same msk (s.reconcile g m) := by
  unfold State.reconcile
  conv => zeta
  with_reducible repeat' first
    | assumption | exact free_mono hfree rfl | apply State.startXfer_same | refine foldl_same _ _ _ (fun _ _ _ => ?_) ?_
    | refine foldlFst_same _ _ _ (fun _ _ _ => ?_) ?_ | refine foldlSnd_same _ _ _ (fun _ _ _ => ?_) ?_
    | refine fst_same ?_ (by assumption) | refine snd_same ?_ (by assumption) | split

theorem State.lineageCome_same (hfree : msk &&& 3321922693 = 0) (s i) (hs : was.Same msk s) : was.Same msk (s.lineageCome i) := by
  unfold State.lineageCome
  conv => zeta
  with_reducible repeat' first
    | assumption | exact free_mono hfree rfl | apply State.setFld_same | apply State.abandon_same | apply State.decideReunion_same
    | split

theorem State.reunited_same (hfree : msk &&& 33793 = 0) (s g m) (hs : was.Same msk s) : was.Same msk (s.reunited g m) := by
  unfold State.reunited
  conv => zeta
  with_reducible repeat' first
    | assumption | exact free_mono hfree rfl | apply State.modPart_same | apply State.setFld_same | apply State.trsEvent_same
    | apply State.showDelay_same | apply State.partEnter_same | apply State.putTrs_same | refine foldl_same _ _ _ (fun _ _ _ => ?_) ?_
    | refine foldlFst_same _ _ _ (fun _ _ _ => ?_) ?_ | refine foldlSnd_same _ _ _ (fun _ _ _ => ?_) ?_
    | refine fst_same ?_ (by assumption) | refine snd_same ?_ (by assumption) | split

theorem State.sendJoin_same (hfree : msk &&& 3321922693 = 0) (s i g) (hs : was.Same msk s) : was.Same msk (s.sendJoin i g) := by
  unfold State.sendJoin
  conv => zeta
  with_reducible repeat' first
    | assumption | exact free_mono hfree rfl | apply State.modPart_same | apply State.sendDeltas_same | apply State.sendEnd_same
    | refine foldl_same _ _ _ (fun _ _ _ => ?_) ?_ | refine foldlFst_same _ _ _ (fun _ _ _ => ?_) ?_
    | refine foldlSnd_same _ _ _ (fun _ _ _ => ?_) ?_ | refine fst_same ?_ (by assumption) | refine snd_same ?_ (by assumption) | split

theorem State.sendPrints_same (hfree : msk &&& 3221259265 = 0) (s g round) (hs : was.Same msk s) :
    was.Same msk (s.sendPrints g round) := by
  unfold State.sendPrints
  conv => zeta
  with_reducible repeat' first
    | assumption | exact free_mono hfree rfl | apply State.control_same | refine foldl_same _ _ _ (fun _ _ _ => ?_) ?_
    | refine foldlFst_same _ _ _ (fun _ _ _ => ?_) ?_ | refine foldlSnd_same _ _ _ (fun _ _ _ => ?_) ?_
    | refine fst_same ?_ (by assumption) | refine snd_same ?_ (by assumption) | split

end

end Sys2Proof.Machine
end

section
/-!
SUPPORT. Sending far frames (12 R345, R361; 13 R385): what handing frames over changes, and what it leaves alone.
-/
namespace Sys2Proof.Machine

/-! ### Partner and group records -/

theorem State.part_modPart_same (s : State) (i : Nat) (f : Partner → Partner) : (s.modPart i f).part i = f (s.part i) := by
  show FMap.getD (FMap.set s.trs.parts i (f (s.part i))) i Partner.reset = _
  rw [FMap.getD, FMap.get?_set_same, Option.getD_some]

theorem State.part_modPart_ne (s : State) {i j : Nat} (h : j ≠ i) (f : Partner → Partner) : (s.modPart i f).part j = s.part j := by
  show FMap.getD (FMap.set s.trs.parts i (f (s.part i))) j Partner.reset = _
  rw [FMap.getD, FMap.get?_set_ne _ _ h]
  rfl

theorem State.part_of_parts {s t : State} (h : t.trs.parts = s.trs.parts) (k : Nat) : t.part k = s.part k := by
  rw [State.part, h, ← State.part]

theorem State.grp_modGrp_same (s : State) (g : Nat) (f : Grp → Grp) : (s.modGrp g f).grp g = f (s.grp g) := by
  show FMap.getD (FMap.set s.trs.groups g (f (s.grp g))) g Grp.reset = _
  rw [FMap.getD, FMap.get?_set_same, Option.getD_some]

theorem State.grp_of_groups {s t : State} (h : t.trs.groups = s.trs.groups) (g : Nat) : t.grp g = s.grp g := by
  rw [State.grp, h, ← State.grp]

theorem State.raise_trs (s : State) (code source : Nat) (pay : List Byte) : (s.raise code source pay).trs = s.trs := by
  unfold State.raise
  split <;> rfl

/-! ### What sending keeps -/

/-- The registers that sending a far frame leaves alone. -/
def farReg (a : Nat) : Prop := a ≠ A.trsCnt ∧ a ≠ A.trsStat ∧ ∀ p < 36, a ≠ A.tmrPortCnt p

/-- Frames were handed over: the counters of frames and `NOGW` may have changed, with what waits, what is buffered, and how many frames
a partner was sent. -/
structure State.FarKept (s t : State) : Prop where
  rd : ∀ a, farReg a → t.rd a = s.rd a
  stat : ∀ f : Fld, f.ok → f.hi < F.trsStat.NOGW.lo ∨ F.trsStat.NOGW.hi < f.lo → t.fld A.trsStat f = s.fld A.trsStat f
  raised : s.evt.raised <+: t.evt.raised
  accepting : t.evt.accepting = s.evt.accepting
  trs : t.trs = { s.trs with
    tx := t.trs.tx, wait := t.trs.wait, parts := t.trs.parts, fullAt := t.trs.fullAt, fullSaid := t.trs.fullSaid }
  part : ∀ k, t.part k = { s.part k with ctlRound := (t.part k).ctlRound, ctlSent := (t.part k).ctlSent }

section
variable {s t u : State}

theorem State.FarKept.refl (s : State) : s.FarKept s := ⟨fun _ _ => rfl, fun _ _ _ => rfl, List.prefix_rfl, rfl, rfl, fun _ => rfl⟩

theorem State.FarKept.trans (h : s.FarKept t) (k : t.FarKept u) : s.FarKept u where
  rd a ha := (k.rd a ha).trans (h.rd a ha)
  stat f hf hd := (k.stat f hf hd).trans (h.stat f hf hd)
  raised := h.raised.trans k.raised
  accepting := k.accepting.trans h.accepting
  trs := by rw [k.trs, h.trs]
  part j := by rw [k.part j, h.part j]

/-- Nothing but what waits, what is buffered and the marks of a full buffer changed. -/
theorem State.FarKept.of_queues (hregs : t.regs = s.regs) (hevt : t.evt = s.evt)
    (htrs : t.trs = { s.trs with tx := t.trs.tx, wait := t.trs.wait, fullAt := t.trs.fullAt, fullSaid := t.trs.fullSaid }) : s.FarKept t where
  rd a _ := State.rd_of_regs hregs a
  stat f _ _ := State.fld_of_rd (State.rd_of_regs hregs _) f
  raised := by rw [hevt]
  accepting := by rw [hevt]
  trs := by rw [htrs]
  part k := by rw [State.part_of_parts (s := s) (by rw [htrs])]

theorem State.FarKept.foldl {α : Type} {f : State → α → State} (l : List α) (hf : ∀ x ∈ l, ∀ s : State, s.FarKept (f s x)) (s : State) :
    s.FarKept (l.foldl f s) := by
  induction l generalizing s with
  | nil => exact .refl s
  | cons x l ih => exact (hf x List.mem_cons_self s).trans (ih (fun y hy => hf y (List.mem_cons_of_mem _ hy)) _)

theorem State.FarKept.foldlFst {α β : Type} {f : State × β → α → State × β} (hf : ∀ (a : State × β) x, a.1.FarKept (f a x).1) (l : List α)
    (a : State × β) : a.1.FarKept (l.foldl f a).1 := by
  induction l generalizing a with
  | nil => exact .refl a.1
  | cons x l ih => exact (hf a x).trans (ih _)

theorem State.FarKept.raise (s : State) (code source : Nat) (pay : List Byte) : s.FarKept (s.raise code source pay) where
  rd _ _ := State.raise_rd ..
  stat _ _ _ := State.fld_of_rd (State.raise_rd ..) _
  raised := State.raised_prefix_raise ..
  accepting := State.raise_accepting ..
  trs := by rw [State.raise_trs]
  part k := by rw [State.part_of_parts (congrArg Trs.parts (State.raise_trs ..)) k]

theorem State.FarKept.fld (h : s.FarKept t) {a : Nat} (ha : farReg a) (f : Fld) : t.fld a f = s.fld a f := State.fld_of_rd (h.rd a ha) f

theorem State.FarKept.flag (h : s.FarKept t) {a : Nat} (ha : farReg a) (f : Fld) : t.flag a f = s.flag a f := by
  rw [State.flag, State.flag, h.fld ha]

theorem State.FarKept.grp (h : s.FarKept t) (g : Nat) : t.grp g = s.grp g := State.grp_of_groups (by rw [h.trs]) g

theorem State.FarKept.contribs (h : s.FarKept t) : t.trs.contribs = s.trs.contribs := by rw [h.trs]

theorem State.FarKept.xfers (h : s.FarKept t) : t.trs.xfers = s.trs.xfers := by rw [h.trs]

end

/-- A port in use is one of a gateway, and numbered below 36. -/
theorem State.gatePorts_lt {s : State} {p : Nat} (h : p ∈ s.gatePorts) : p < 36 := List.mem_range.mp (List.mem_filter.mp h).1

theorem bestCredit_mem {fresh p : Nat} {l : List Nat} (h : bestCredit fresh l = some p) : p ∈ l := by
  induction l generalizing p with
  | nil => cases h
  | cons q l ih =>
    rw [bestCredit] at h
    split at h
    next => cases h; exact List.mem_cons_self
    next r hr =>
      split at h
      · cases h; exact List.mem_cons_of_mem _ (ih hr)
      · cases h; exact List.mem_cons_self

theorem State.sendBytes_far (s : State) {p : Nat} (hp : p < 36) (l : List Byte) : s.FarKept (s.sendBytes p l) where
  rd a ha := by
    obtain ⟨hcnt, -, hport⟩ := ha
    unfold State.sendBytes
    exact (State.rd_setFld_ne _ _ _ (hport p hp)).trans (State.rd_setFld_ne _ _ _ hcnt)
  stat f _ _ := by
    have hport : A.trsStat ≠ A.tmrPortCnt p := by unfold A.trsStat A.tmrPortCnt; omega
    unfold State.sendBytes
    exact (State.fld_setFld_ne _ _ _ _ hport).trans (State.fld_setFld_ne _ _ _ _ (by decide))
  raised := List.prefix_rfl
  accepting := rfl
  trs := rfl
  part _ := rfl

theorem State.noteSent_far (s : State) (f : OutFrame) (bytes : List Byte) : s.FarKept (s.noteSent f bytes) := by
  unfold State.noteSent
  split
  · exact .of_queues rfl rfl rfl
  split
  · refine ⟨fun _ _ => rfl, fun _ _ _ => rfl, List.prefix_rfl, rfl, rfl, fun k => ?_⟩
    by_cases hk : k = f.part
    · subst hk
      rw [State.part_modPart_same]
    · rw [State.part_modPart_ne _ hk]
  · exact .refl s

theorem State.trySend_far (s : State) (f : OutFrame) : s.FarKept (s.trySend f).1 := by
  unfold State.trySend
  extract_lets k ep
  split
  next p key f hport _ _ =>
    extract_lets bytes
    split
    · exact .of_queues rfl rfl rfl
    · have hfresh : s.FarKept (s.putFresh (s.fresh + 1)) := .of_queues rfl rfl rfl
      exact (hfresh.trans (State.sendBytes_far _ (State.gatePorts_lt (bestCredit_mem hport)) _)).trans (State.noteSent_far ..)
  next => exact .refl s

theorem State.sendAgain_far (s : State) : s.FarKept s.sendAgain := by
  refine .foldl _ (fun f _ u => ?_) s
  split
  · exact .refl u
  split
  next => exact .refl u
  next p hport =>
    extract_lets v
    have hv : u.FarKept v := by
      show u.FarKept (if _ then _ else _)
      split
      · have hfresh : u.FarKept (u.putFresh (u.fresh + 1)) := .of_queues rfl rfl rfl
        exact hfresh.trans (State.sendBytes_far _ (State.gatePorts_lt (bestCredit_mem hport)) _)
      · exact .refl u
    exact hv.trans (.of_queues rfl rfl rfl)

theorem State.showGate_far (s : State) : s.FarKept s.showGate := by
  have hshown : ∀ x, s.FarKept (s.setFld A.trsStat F.trsStat.NOGW x) := fun x =>
    ⟨fun a ha => State.rd_setFld_ne _ _ _ ha.2.1, fun f hf hd => State.fld_setFld_field _ _ _ _ _ (by decide) hf hd, List.prefix_rfl, rfl,
      rfl, fun _ => rfl⟩
  unfold State.showGate
  extract_lets no shown
  split
  · exact .refl s
  split
  · exact (hshown _).trans (.raise ..)
  · exact hshown _

/-! ### The frames that wait, in order -/

/-- A frame that waits is sent, unless one of its partner and kind stays before it. -/
def flushStep (a : State × List OutFrame) (f : OutFrame) : State × List OutFrame :=
  if a.2.any (fun g => g.part == f.part && g.control == f.control) then (a.1, a.2 ++ [f])
  else ((a.1.trySend f).1, if (a.1.trySend f).2 then a.2 else a.2 ++ [f])

/-- The state in which the frames that wait are tried, none of them waiting. -/
def State.flushStart (s : State) : State :=
  s.showGate.sendAgain.putTrs { s.showGate.sendAgain.trs with wait := [], fullAt := none }

/-- What was not sent waits, and a full buffer that stays full keeps its time. -/
def State.flushEnd (s : State) (kept : List OutFrame) (full : Option Nat) : State :=
  let s := s.putTrs { s.trs with wait := kept }
  if full.isSome && s.trs.fullAt.isSome then s.putTrs { s.trs with fullAt := full }
  else if s.trs.fullAt.isSome then s else s.putTrs { s.trs with fullSaid := false }

/-- The frames that wait, tried in order. -/
def State.flushed (s : State) : State × List OutFrame := s.showGate.sendAgain.trs.wait.foldl flushStep (s.flushStart, [])

theorem State.flushFar_eq (s : State) : s.flushFar = s.flushed.1.flushEnd s.flushed.2 s.showGate.sendAgain.trs.fullAt := by
  have hstep : (fun (a : State × List OutFrame) f =>
      let (s, ok) := if a.2.any (fun g => g.part == f.part && g.control == f.control) then (a.1, false) else a.1.trySend f
      (s, if ok then a.2 else a.2 ++ [f])) = flushStep := by
    funext a f
    unfold flushStep
    cases a.2.any (fun g => g.part == f.part && g.control == f.control) with
    | true => rfl
    | false => rfl
  unfold State.flushFar
  rw [State.flushed, ← hstep]
  rfl

theorem flushStep_far (a : State × List OutFrame) (f : OutFrame) : a.1.FarKept (flushStep a f).1 := by
  unfold flushStep
  split
  · exact .refl a.1
  · exact State.trySend_far ..

theorem State.flushEnd_far (s : State) (kept : List OutFrame) (full : Option Nat) : s.FarKept (s.flushEnd kept full) := by
  unfold State.flushEnd
  extract_lets u
  split
  · exact .of_queues rfl rfl rfl
  split
  · exact .of_queues rfl rfl rfl
  · exact .of_queues rfl rfl rfl

theorem State.flushStart_far (s : State) : s.FarKept s.flushStart :=
  (s.showGate_far.trans (State.sendAgain_far _)).trans (.of_queues rfl rfl rfl)

theorem State.flushFar_far (s : State) : s.FarKept s.flushFar := by
  rw [State.flushFar_eq]
  exact (s.flushStart_far.trans (State.FarKept.foldlFst flushStep_far _ (s.flushStart, []))).trans (State.flushEnd_far ..)

theorem State.sendFrames_far (s : State) (l : List OutFrame) : s.FarKept (s.sendFrames l) := by
  have hwait : s.FarKept (s.putTrs { s.trs with wait := s.trs.wait ++ l }) := .of_queues rfl rfl rfl
  exact hwait.trans (State.flushFar_far _)

theorem State.control_far (s : State) (i kind g : Nat) (body : List Byte) : s.FarKept (s.control i kind g body) := State.sendFrames_far ..

/-! ### Frames of each kind -/

theorem State.sendLineage_far (s : State) (i : Nat) : s.FarKept (s.sendLineage i) :=
  .foldl _ (fun _ _ u => u.control_far ..) s

theorem State.sendHello_far (s : State) (i : Nat) : s.FarKept (s.sendHello i) := State.control_far ..

theorem State.askJoin_far (s : State) (i : Nat) : s.FarKept (s.askJoin i) := State.control_far ..

theorem State.sendEnd_far (s : State) (i g kind slot code sent : Nat) : s.FarKept (s.sendEnd i g kind slot code sent) := State.control_far ..

theorem State.askXfer_far (s : State) (x : Xfer) : s.FarKept (s.askXfer x) := State.control_far ..

theorem State.askBlocks_far (s : State) (x : Xfer) : s.FarKept (s.askBlocks x) := .foldl _ (fun _ _ u => u.control_far ..) s

theorem State.sendPrints_far (s : State) (g round : Nat) : s.FarKept (s.sendPrints g round) := by
  unfold State.sendPrints
  split
  · exact .refl s
  · exact .foldl _ (fun _ _ u => .foldl _ (fun _ _ v => v.control_far ..) u) s

theorem State.sendDeltas_far (s : State) (i g arr round : Nat) (q : Nat × UDesc) (base : Option (Nat × List Byte)) (blocks : List Nat) :
    s.FarKept (s.sendDeltas i g arr round q base blocks) :=
  .foldl _ (fun _ _ u => .foldl _ (fun _ _ v => v.control_far ..) u) s

theorem State.sendReunion_far (s : State) (i g : Nat) : s.FarKept (s.sendReunion i g) := by
  unfold State.sendReunion
  extract_lets dec re last base sent
  split
  · exact .refl s
  · exact (State.FarKept.foldl _ (fun _ _ u => u.sendDeltas_far ..) s).trans (State.sendEnd_far ..)

end Sys2Proof.Machine
end

section
/-!
SUPPORT. Accesses to memory leave alone the staging region's owner and every register above the Tallboys' (09 R269 to R281).
-/
namespace Sys2Proof.Machine

/-- A register that no access to memory writes. -/
def offTallboys (a : Nat) : Prop := 0x2020000000000 ≤ a ∨ a = A.tbyStage

section
variable {P : Nat → Prop}

theorem State.KeptAt.foldlFst {α β : Type} {f : State × β → α → State × β} (hf : ∀ (a : State × β) x, a.1.KeptAt P (f a x).1) (l : List α)
    (a : State × β) : a.1.KeptAt P (l.foldl f a).1 := by
  induction l generalizing a with
  | nil => exact .refl a.1
  | cons x l ih => exact (hf a x).trans (ih _)

variable (hP : ∀ a, P a → offTallboys a)
include hP

theorem not_tallboyReg (t : Nat) : ¬ P (A.tbyEcc (t % 16)) ∧ ¬ P (A.tbyErr (t % 16)) ∧ ¬ P (A.tbyErrAddr (t % 16)) := by
  refine ⟨fun h => ?_, fun h => ?_, fun h => ?_⟩
  all_goals
    have := hP _ h
    simp only [offTallboys, A.tbyStage, A.tbyEcc, A.tbyErr, A.tbyErrAddr] at this
    omega

omit hP in
/-- An uncorrectable read writes three registers of its stack. -/
theorem State.ueFound_writes (s : State) (cw cls : Nat) (ae : Bool) (hecc : ¬ P (A.tbyEcc (stackOf cw)))
    (herr : ¬ P (A.tbyErr (stackOf cw))) (haddr : ¬ P (A.tbyErrAddr (stackOf cw))) : s.KeptAt P (s.ueFound cw cls ae) := by
  unfold State.ueFound
  extract_lets t counted located kind classed placed layered named valid recorded
  have hcounted : s.KeptAt P counted := (State.KeptAt.refl s).incSat hecc ..
  have hlocated : s.KeptAt P located := by
    refine hcounted.trans ?_
    show counted.KeptAt P (if _ then _ else _)
    split
    · exact (State.KeptAt.refl _).incSat hecc ..
    · exact .refl _
  have hrecorded : s.KeptAt P recorded := by
    refine hlocated.trans ?_
    show located.KeptAt P (if _ then _ else _)
    split
    · exact .refl _
    · exact ((((((State.KeptAt.refl _).setFld herr ..).setFld herr ..).setFld herr ..).setFld herr ..).hwSet herr _).setFld haddr ..
  exact hrecorded.raise ..

theorem State.ueFound_above (s : State) (cw cls : Nat) (ae : Bool) : s.KeptAt P (s.ueFound cw cls ae) :=
  have ⟨hecc, herr, haddr⟩ := not_tallboyReg hP (cw >>> 12)
  s.ueFound_writes cw cls ae hecc herr haddr

omit hP in
theorem State.reserveCheck_above (s : State) (t layer pc cls : Nat) : s.KeptAt P (s.reserveCheck t layer pc cls) := by
  unfold State.reserveCheck
  extract_lets x
  split
  · exact .refl s
  · exact ((State.KeptAt.refl s).of_same (u := s.modStack t _) rfl rfl).raise ..

omit hP in
theorem State.spareStart_above (s : State) (cw cls : Nat) : s.KeptAt P (s.spareStart cw cls) := by
  have hreserve : ∀ t l, (s.reserveFor t l).1.regs = s.regs ∧ (s.reserveFor t l).1.evt = s.evt := by
    intro t l
    unfold State.reserveFor
    extract_lets x num
    split
    · exact ⟨rfl, rfl⟩
    split
    · exact ⟨rfl, rfl⟩
    · exact ⟨rfl, rfl⟩
  unfold State.spareStart
  extract_lets t
  split
  next l r hplace =>
    split
    · exact .refl s
    obtain ⟨hregs, hevt⟩ := hreserve t l
    have hu : s.KeptAt P (s.reserveFor t l).1 := (State.KeptAt.refl s).of_same hregs hevt
    split
    next u new hnew =>
      rw [hnew] at hu
      split
      · exact hu
      · exact (hu.of_same (u := u.modStack t _) rfl rfl).trans (State.reserveCheck_above ..)

theorem State.ceFound_above (s : State) (cw cls : Nat) : s.KeptAt P (s.ceFound cw cls) := by
  obtain ⟨hecc, -⟩ := not_tallboyReg hP (cw >>> 12)
  unfold State.ceFound
  extract_lets t counted x noted n
  have hnoted : s.KeptAt P noted := by
    refine State.KeptAt.trans (t := counted) ((State.KeptAt.refl s).incSat hecc ..) ?_
    show counted.KeptAt P (if _ then _ else _)
    split
    · exact .refl _
    · exact (State.KeptAt.refl _).of_same rfl rfl
  split
  · exact hnoted.trans (State.spareStart_above ..)
  · exact hnoted

omit hP in
theorem State.cwClean_above (s : State) (m : Memory) (cw : Nat) : s.KeptAt P ((s.putMem m).cwClean cw) := (State.KeptAt.refl s).of_same rfl rfl

theorem State.cwRead_above (s : State) (cw cls : Nat) : s.KeptAt P (s.cwRead cw cls).1 := by
  have hue : ∀ (u : State) ae, s.KeptAt P u → s.KeptAt P (u.ueFound cw cls ae) := fun u ae hu => hu.trans (u.ueFound_above hP cw cls ae)
  have hspare : ∀ u : State, s.KeptAt P u → s.KeptAt P (u.spareStart cw cls) := fun u hu => hu.trans (u.spareStart_above cw cls)
  have hmod : ∀ (u : State) f, s.KeptAt P u → s.KeptAt P (u.modStack (stackOf cw) f) := fun u f hu => hu.of_same rfl rfl
  unfold State.cwRead
  extract_lets t x s1
  have h1 : s.KeptAt P s1 := by
    unfold s1
    split
    · exact hmod _ _ (.refl s)
    · exact .refl s
  have hdraw : ∀ q : Nat × State, q = (if x.injCe then s1.draw (36 * 65535 - 1) else (0, s1)) → s.KeptAt P q.2 := by
    rintro q rfl
    split
    · exact h1.of_same rfl rfl
    · exact h1
  generalize (if x.injCe then s1.draw (36 * 65535 - 1) else (0, s1)) = q at hdraw ⊢
  obtain ⟨n, u⟩ := q
  have hu : s.KeptAt P u := hdraw _ rfl
  have hput : ∀ m, s.KeptAt P ((u.putMem m).cwClean cw) := fun m => hu.trans (u.cwClean_above m cw)
  have hce : ∀ m, s.KeptAt P (((u.putMem m).cwClean cw).ceFound cw cls) := fun m => (hput m).trans (State.ceFound_above hP ..)
  have hlast : ∀ (b : Bool) m, s.KeptAt P (if b then u else (u.putMem m).cwClean cw) := fun b m => by
    cases b
    · exact hput m
    · exact hu
  dsimp only
  split
  · exact hue _ _ hu
  split
  · exact hspare _ (hue _ _ (hmod _ _ hu))
  · refine hspare _ (hue _ _ ?_)
    split
    · exact hmod _ _ hu
    · exact hu
  split
  · exact hspare _ (hue _ _ hu)
  split
  · exact hce _
  · exact hlast _ _

omit hP in
theorem State.trackHeader_above (s : State) (t off : Nat) (be : List Bool) : s.KeptAt P (s.trackHeader t off be) := by
  unfold State.trackHeader
  split
  next base c q _ =>
    refine State.KeptAt.foldl (fun u p => ?_) _ s
    dsimp only
    split
    · exact (State.KeptAt.refl u).of_same rfl rfl
    · exact .refl u

theorem State.cwWrite_above (s : State) (cls cw off : Nat) (data : List (Byte × Bool)) : s.KeptAt P (s.cwWrite cls cw off data).1 := by
  unfold State.cwWrite
  extract_lets t full
  have hread : ∀ q : State × Bool, q = (if full then (s.cwClean cw, true) else s.cwRead cw cls) → s.KeptAt P q.1 := by
    rintro q rfl
    split
    · exact (State.KeptAt.refl s).of_same rfl rfl
    · exact s.cwRead_above hP cw cls
  generalize (if full then (s.cwClean cw, true) else s.cwRead cw cls) = q at hread ⊢
  obtain ⟨u, ok⟩ := q
  have hu : s.KeptAt P u := hread _ rfl
  have hput : ∀ (m : Memory) k l, s.KeptAt P ((u.putMem m).trackHeader t k l) := fun m k l =>
    (hu.of_same (u := u.putMem m) rfl rfl).trans (State.trackHeader_above ..)
  dsimp only
  split
  · exact hu.raise ..
  · exact hput ..

theorem State.writeDenied_above (s : State) (cls ia : Nat) : s.KeptAt P (s.writeDenied cls ia) := by
  have hstat : ¬ P A.tbyRgnStat := fun h => absurd (hP _ h) (by unfold offTallboys; decide)
  have haddr : ¬ P A.tbyRgnAddr := fun h => absurd (hP _ h) (by unfold offTallboys; decide)
  have hcounted : s.KeptAt P (s.incSat A.tbyRgnStat F.tbyRgnStat.COUNT 1) := (State.KeptAt.refl s).incSat hstat ..
  unfold State.writeDenied
  extract_lets counted classed valid recorded
  split
  · exact hcounted
  · exact (((hcounted.setFld hstat ..).hwSet hstat _).setFld haddr ..).raise ..

theorem State.tbyRead_above (s : State) (cls ia n : Nat) : s.KeptAt P (s.tbyRead cls ia n).1 := by
  unfold State.tbyRead
  have hreads := State.KeptAt.foldlFst (f := fun (p : State × List Nat) cw => ((p.1.cwRead cw cls).1, if (p.1.cwRead cw cls).2 then p.2 else cw :: p.2))
    (fun a cw => a.1.cwRead_above hP cw cls) (cwsOf ia n) (s, [])
  exact hreads

theorem State.tbyWrite_above (s : State) (cls ia : Nat) (data : List (Byte × Bool)) : s.KeptAt P (s.tbyWrite cls ia data).1 := by
  unfold State.tbyWrite
  split
  · exact s.writeDenied_above hP cls ia
  · refine State.KeptAt.foldlFst (fun p cw => ?_) _ (s, true)
    exact p.1.cwWrite_above hP ..

omit hP in
theorem State.takeLost_above (s : State) (cls a : Nat) : s.KeptAt P (s.takeLost cls a).1 := by
  unfold State.takeLost
  split
  · exact (State.KeptAt.refl s).of_same rfl rfl
  · exact .refl s

omit hP in
theorem State.shelfWrite_above (s : State) (b off : Nat) (data : List Byte) : s.KeptAt P (s.shelfWrite b off data) := by
  unfold State.shelfWrite
  extract_lets u
  split
  · exact (State.KeptAt.refl s).of_same rfl rfl
  · exact (State.KeptAt.refl s).of_same rfl rfl

theorem State.memRead_above (s : State) (cls a n : Nat) : s.KeptAt P (s.memRead cls a n).1 := by
  unfold State.memRead
  refine State.KeptAt.foldlFst (fun p q => ?_) _ (s, [], true, false)
  obtain ⟨u, acc, ok, psn⟩ := p
  dsimp only
  have hlost := u.takeLost_above (P := P) cls q.1
  split
  · exact hlost
  split
  · exact hlost.trans (State.tbyRead_above hP ..)
  · exact hlost
  · exact hlost

theorem State.memWriteOk_above (s : State) (cls a : Nat) (data : List (Byte × Bool)) : s.KeptAt P (s.memWriteOk cls a data).1 := by
  unfold State.memWriteOk
  refine State.KeptAt.foldlFst (fun p q => ?_) _ (s, true)
  have hlost := p.1.takeLost_above (P := P) cls q.1
  dsimp only
  split
  · exact hlost
  split
  · exact hlost.trans (State.tbyWrite_above hP ..)
  · exact hlost.trans (State.shelfWrite_above ..)
  · exact hlost

theorem State.memWrite_above (s : State) (cls a : Nat) (data : List Byte) : s.KeptAt P (s.memWrite cls a data) :=
  State.memWriteOk_above hP ..

end

end Sys2Proof.Machine
end

section
/-!
SUPPORT. The Trestle's smaller operations: what they show and what they leave alone (12 R346, R364, R373, R374; 13 R376).
-/
namespace Sys2Proof.Machine

section
variable {P : Nat → Prop}

theorem State.KeptAt.flag {s t : State} (h : s.KeptAt P t) {a : Nat} (ha : P a) (f : Fld) : t.flag a f = s.flag a f := by
  rw [State.flag, State.flag, h.fld ha]

theorem State.KeptAt.foldlMem {α : Type} {f : State → α → State} (l : List α) (hf : ∀ x ∈ l, ∀ s : State, s.KeptAt P (f s x)) (s : State) :
    s.KeptAt P (l.foldl f s) := by
  induction l generalizing s with
  | nil => exact .refl s
  | cons x l ih => exact (hf x List.mem_cons_self s).trans (ih (fun y hy => hf y (List.mem_cons_of_mem _ hy)) _)

theorem State.KeptAt.hwOr {a : Nat} {s t : State} (ha : ¬ P a) (f : Fld) (x : Nat) (h : s.KeptAt P t) : s.KeptAt P (t.hwOr a f x) :=
  ⟨fun b hb => (t.rd_hwOr_ne f x fun e => ha (by rwa [← e])).trans (h.rd b hb), h.raised⟩

theorem State.dropDelays_kept (s : State) {i : Nat} (h : ¬ P (A.trsPart1 i)) : s.KeptAt P (s.dropDelays i) :=
  ((State.KeptAt.refl s).of_same (u := s.modPart i _) rfl rfl).setFld h ..

theorem State.showDelay_kept (s : State) (h : ¬ P A.trsDelay) : s.KeptAt P s.showDelay := (State.KeptAt.refl s).setFld h ..

theorem State.refuse_kept (s : State) (res clm holder : Nat) (h : ¬ P A.conflict) : s.KeptAt P (s.refuse res clm holder) := by
  unfold State.refuse
  extract_lets old counted res1 clm1 seen
  have hseen : s.KeptAt P seen := ((((State.KeptAt.refl s).incSat h ..).setFld h ..).setFld h ..).hwOr h ..
  split
  · exact hseen
  · exact hseen.raise ..

theorem State.alarmTake_kept (s : State) (clm : Nat) (halarm : ¬ P A.clkAlarm) (hconflict : ¬ P A.conflict) :
    s.KeptAt P (s.alarmTake clm).1 := by
  unfold State.alarmTake
  extract_lets owner swept
  split
  · exact ((State.KeptAt.refl s).setFld halarm ..).of_same rfl rfl
  split
  · exact .refl s
  split
  · have hswept : s.KeptAt P (swept.claimed 3 clm) := (((State.KeptAt.refl s).setFld halarm ..).setFld halarm ..).of_same rfl rfl
    exact hswept.trans (State.refuse_kept _ _ _ _ hconflict)
  · exact s.refuse_kept _ _ _ hconflict

theorem State.alarmFree_kept (s : State) (clm : Nat) (h : ¬ P A.clkAlarm) : s.KeptAt P (s.alarmFree clm) := by
  unfold State.alarmFree
  split
  · exact (State.KeptAt.refl s).setFld h ..
  · exact .refl s

theorem State.showTime_kept (s : State) (hstat : ¬ P A.trsStat) (hround : ¬ P A.trsRound) : s.KeptAt P s.showTime :=
  ((State.KeptAt.refl s).setFld hstat ..).setFld hround ..

theorem State.checkCal_kept (s : State) (h : ¬ P A.trsStat) : s.KeptAt P s.checkCal := by
  unfold State.checkCal
  extract_lets used key bad
  split
  · exact (State.KeptAt.refl s).hwSet h _
  · exact .refl s

theorem State.partEnter_kept (s : State) {i : Nat} (new cause : Nat) (h : ¬ P (A.trsPart2 i)) : s.KeptAt P (s.partEnter i new cause) := by
  unfold State.partEnter
  extract_lets old
  split
  · exact .refl s
  · exact ((State.KeptAt.refl s).setFld h ..).raise ..

theorem State.showGate_kept (s : State) (h : ¬ P A.trsStat) : s.KeptAt P s.showGate := by
  unfold State.showGate
  extract_lets no shown
  have hshown : s.KeptAt P shown := (State.KeptAt.refl s).setFld h ..
  split
  · exact .refl s
  split
  · exact hshown.raise ..
  · exact hshown

theorem State.putLin_kept (hP : ∀ a, P a → offTallboys a) (s : State) (g j : Nat) (r : LinRec) : s.KeptAt P (s.putLin g j r) :=
  State.memWrite_above hP ..

theorem State.storePrint_kept (hP : ∀ a, P a → offTallboys a) (s : State) (slot : Nat) (d : UDesc) (j : Nat) :
    s.KeptAt P (s.storePrint slot d j) := by
  unfold State.storePrint
  exact State.memWrite_above hP ..

end

/-- Sending frames leaves the Trestle's registers and those above alone, but for two. -/
theorem farReg_above {a : Nat} (ha : 0x2030000000000 ≤ a) (hcnt : a ≠ A.trsCnt) (hstat : a ≠ A.trsStat) : farReg a :=
  ⟨hcnt, hstat, fun p hp h => by
    simp only [A.tmrPortCnt] at h
    omega⟩

theorem offTallboys_above {a : Nat} (ha : 0x2030000000000 ≤ a) : offTallboys a := .inl (by omega)

/-! ### The fields of `TRS_STAT` -/

/-- Checking the calendar leaves the other fields of `TRS_STAT`. -/
theorem State.fld_stat_checkCal (s : State) {f : Fld} (hf : f.ok) (hd : f.hi < F.trsStat.CALBAD.lo ∨ F.trsStat.CALBAD.hi < f.lo) :
    s.checkCal.fld A.trsStat f = s.fld A.trsStat f := by
  unfold State.checkCal
  extract_lets used key bad
  split
  · exact s.fld_hwSet_apart _ (by decide) hf hd
  · rfl

/-- Showing the time leaves the other fields of `TRS_STAT`. -/
theorem State.fld_stat_showTime (s : State) {f : Fld} (hf : f.ok) (hd : f.hi < F.trsStat.TIMEINV.lo ∨ F.trsStat.TIMEINV.hi < f.lo) :
    s.showTime.fld A.trsStat f = s.fld A.trsStat f :=
  (State.fld_setFld_ne _ _ _ _ (by decide)).trans (State.fld_setFld_field _ _ _ _ _ (by decide) hf hd)

/-! ### Flags -/

theorem State.flag_of_fld {s t : State} {a : Nat} {f : Fld} (h : t.fld a f = s.fld a f) : t.flag a f = s.flag a f := by
  rw [State.flag, State.flag, h]

theorem State.flag_of_one {s : State} {a : Nat} {f : Fld} (h : s.fld a f = 1) : s.flag a f = true := by
  rw [State.flag, h]
  rfl

theorem State.flag_of_zero {s : State} {a : Nat} {f : Fld} (h : s.fld a f = 0) : s.flag a f = false := by
  rw [State.flag, h]
  rfl

end Sys2Proof.Machine
end

section
/-!
SUPPORT. The Trestle is enabled and disabled, rounds begin, partner entries are written, pipelines fail (12 R346, R360, R373, R374; 16
R456).
-/
namespace Sys2Proof.Machine

/-! ### Rounds begin (12 R346) -/

theorem round32_lt (n : Int) : round32 n < 2 ^ 32 := by
  show toBits 32 n < 2 ^ 32
  unfold toBits
  omega

section
variable {s : State}

theorem execTrsRoundBegin_begins {n : Nat} (hn : n = round32 (s.roundOf s.gtAbs)) (hne : n ≠ s.roundNow) :
    ∃ t, exec .trsRoundBegin s = .next t ∧ t.roundNow = n ∧ t.mem = s.mem := by
  have hlt : n < 2 ^ 32 := hn ▸ round32_lt _
  have hpart : ∀ i, ¬ A.trsPart1 i = A.trsRound := fun i => by unfold A.trsPart1 A.trsRound; omega
  obtain ⟨u, hu⟩ : ∃ u, u = s.setFld A.trsRound F.trsRound.ROUND n := ⟨_, rfl⟩
  obtain ⟨v, hv⟩ : ∃ v, v = ((List.range 256).filter (fun i => FMap.has u.trs.parts i)).foldl (fun s i => s.dropDelays i) u := ⟨_, rfl⟩
  have hkept : u.KeptAt (· = A.trsRound) v.showDelay := hv ▸
    (State.KeptAt.foldl (fun w i => w.dropDelays_kept (hpart i)) _ u).trans (State.showDelay_kept _ (by decide))
  have hsame : s.Same (2 ^ Part.mem.idx) v.showDelay := by
    refine State.showDelay_same rfl _ ?_
    rw [hv, hu]
    exact foldl_same _ _ _ (fun w i h => State.dropDelays_same rfl w i h) (State.setFld_same rfl _ _ _ _ (.refl s))
  refine ⟨v.showDelay, ?_, ?_, hsame.same .mem rfl⟩
  · show execTrsRoundBegin s = _
    unfold execTrsRoundBegin
    rw [← hn, hv, hu]
    exact if_neg hne
  · rw [State.roundNow, hkept.fld rfl, hu, State.fld_setFld_same _ _ _ _ (by decide)]
    exact Nat.mod_eq_of_lt hlt

/-! ### Enabling (12 R360, R373) -/

/-- The registers that claiming the staging region and the alarm timer may write. -/
def claimReg (a : Nat) : Prop := a = A.tbyStage ∨ a = A.clkAlarm ∨ a = A.conflict

/-- What the Trestle shows once it holds the staging region and the alarm timer. -/
def State.enabledRegs (s : State) : State :=
  let s := s.setFld A.trsCtl F.trsCtl.EN 1
  let s := (s.setFld A.trsStat F.trsStat.RUN 1).showTime
  let s := s.putTrs { s.trs with enGt := s.gtAbs, helloAt := s.pulse }
  let s := s.setFld A.trsRound F.trsRound.ROUND (round32 (s.roundOf s.gtAbs))
  s.checkCal

/-- The partners are taken as PRESENT, or as JOINING. -/
def State.enabledParts (s : State) (joining : Bool) : State :=
  s.partners.foldl (fun s i =>
    (s.setFld (A.trsPart2 i) F.trsPart2.STATE (if joining then 3 else 1)).modPart i (fun x => { x with heardAt := s.pulse })) s

/-- The groups start from their initial anchors, or wait to be installed. -/
def State.enabledGroups (s : State) (joining : Bool) : State :=
  s.groups.foldl (fun s g =>
    if joining then s.modGrp g (fun x => { x with install := true })
    else if bit (s.gcfgWord g 1) 32 then s
    else s.putLin g 0 ⟨(s.roundNow + 2 ^ 32 - 1) % 2 ^ 32, 0, true, List.replicate 16 0⟩) s

/-- The Trestle starts, holding the staging region and the alarm timer. -/
def State.enabled (s : State) : State :=
  let joining := s.flag A.trsDonor F.trsDonor.VALID
  ((s.enabledRegs.enabledParts joining).enabledGroups joining).showDelay.showGate

theorem State.trsEnable_eq (s : State) (hen : s.flag A.trsCtl F.trsCtl.EN = false) : s.trsEnable =
    if (s.stageClaim 2).fld A.tbyStage F.tbyStage.OWNER != 2 then ((s.stageClaim 2).hwSet A.trsStat F.trsStat.NOSTAGE, 1)
    else if !((s.stageClaim 2).alarmTake 1).2 then
      ((((s.stageClaim 2).alarmTake 1).1.setFld A.tbyStage F.tbyStage.OWNER (s.fld A.tbyStage F.tbyStage.OWNER)).hwSet A.trsStat
        F.trsStat.NOALARM, 2)
    else (((s.stageClaim 2).alarmTake 1).1.enabled, 0) := by
  unfold State.trsEnable
  rw [if_neg (by rw [hen]; exact Bool.false_ne_true)]
  rfl

/-- The registers that every later part of enabling leaves alone. -/
def enabledReg (a : Nat) : Prop := a = A.tbyStage ∨ a = A.clkAlarm ∨ a = A.trsCtl ∨ a = A.trsStat ∨ a = A.trsRound

theorem offTallboys_of_enabledReg {a : Nat} (h : enabledReg a) : offTallboys a := by
  obtain rfl | rfl | rfl | rfl | rfl := h
  · exact .inr rfl
  all_goals exact .inl (by decide)

theorem not_enabledReg_part2 (i : Nat) : ¬ enabledReg (A.trsPart2 i) := by
  simp only [enabledReg, A.trsPart2, A.tbyStage, A.clkAlarm, A.trsCtl, A.trsStat, A.trsRound]
  omega

theorem State.enabledParts_kept {P : Nat → Prop} (s : State) (joining : Bool) (hP : ∀ i, ¬ P (A.trsPart2 i)) :
    s.KeptAt P (s.enabledParts joining) := by
  refine .foldl (fun u i => ?_) _ s
  exact ((State.KeptAt.refl u).setFld (hP i) ..).of_same (t := u.setFld (A.trsPart2 i) _ _) rfl rfl

theorem State.enabledGroups_kept {P : Nat → Prop} (s : State) (joining : Bool) (hP : ∀ a, P a → offTallboys a) :
    s.KeptAt P (s.enabledGroups joining) := by
  refine .foldl (fun u g => ?_) _ s
  split
  · exact (State.KeptAt.refl u).of_same rfl rfl
  split
  · exact .refl u
  · exact State.putLin_kept hP ..

theorem State.enabledGroups_enGt (s : State) (joining : Bool) : (s.enabledGroups joining).trs.enGt = s.trs.enGt := by
  have hstep : ∀ (l : List Nat) (u : State), (l.foldl (fun s g =>
    if joining then s.modGrp g (fun x => { x with install := true })
    else if bit (s.gcfgWord g 1) 32 then s
    else s.putLin g 0 ⟨(s.roundNow + 2 ^ 32 - 1) % 2 ^ 32, 0, true, List.replicate 16 0⟩) u).trs.enGt = u.trs.enGt := by
    intro l
    induction l with
    | nil => exact fun _ => rfl
    | cons g l ih =>
      intro u
      rw [List.foldl_cons, ih]
      split
      · rfl
      split
      · rfl
      · rw [(State.putLin_same (msk := 2 ^ Part.trs.idx) rfl u _ _ _ (.refl u)).same .trs rfl]
  exact hstep _ s

theorem State.enabledParts_enGt (s : State) (joining : Bool) : (s.enabledParts joining).trs.enGt = s.trs.enGt := by
  unfold State.enabledParts
  generalize s.partners = l
  induction l generalizing s with
  | nil => rfl
  | cons i l ih => rw [List.foldl_cons, ih]; rfl

/-- Every partner entry in the list takes the state. -/
theorem State.enabledParts_partState (s : State) (joining : Bool) {k : Nat} (hk : k ∈ s.partners) :
    (s.enabledParts joining).partState k = if joining then 3 else 1 := by
  have hkept : ∀ i, i ≠ k → ¬ A.trsPart2 i = A.trsPart2 k := fun i hi h => hi (by unfold A.trsPart2 at h; omega)
  unfold State.enabledParts
  generalize s.partners = l at hk
  induction l generalizing s with
  | nil => cases hk
  | cons i l ih =>
    rw [List.foldl_cons]
    by_cases hl : k ∈ l
    · exact ih _ hl
    · have hik : k = i := by simpa [hl] using hk
      subst hik
      have hrest := State.KeptAt.foldlMem (P := (· = A.trsPart2 k)) (f := fun (s : State) i =>
        (s.setFld (A.trsPart2 i) F.trsPart2.STATE (if joining then 3 else 1)).modPart i (fun x => { x with heardAt := s.pulse })) l
        (fun j hj u => (State.KeptAt.setFld (P := (· = A.trsPart2 k)) (hkept j fun h => hl (h ▸ hj)) _ _ (.refl u)).of_same rfl rfl)
      rw [State.partState, (hrest _).fld rfl]
      refine (State.fld_setFld_same _ _ _ _ (by decide)).trans ?_
      cases joining
      · rfl
      · rfl

theorem State.enabledRegs_kept {P : Nat → Prop} (s : State) (hctl : ¬ P A.trsCtl) (hstat : ¬ P A.trsStat) (hround : ¬ P A.trsRound) :
    s.KeptAt P s.enabledRegs := by
  unfold State.enabledRegs
  extract_lets enabled shown trs timed begun
  have hshown : s.KeptAt P shown :=
    (((State.KeptAt.refl s).setFld hctl ..).setFld hstat ..).trans (State.showTime_kept _ hstat hround)
  have htimed : s.KeptAt P timed := hshown.of_same rfl rfl
  exact (htimed.setFld hround ..).trans (begun.checkCal_kept hstat)

/-- What the Trestle shows once it is enabled. -/
structure State.TrsEnabled (s t : State) : Prop where
  on : t.flag A.trsCtl F.trsCtl.EN = true
  run : t.flag A.trsStat F.trsStat.RUN = true
  round : t.roundNow = round32 (s.roundOf s.gtAbs)
  enGt : t.trs.enGt = s.gtAbs
  parts : ∀ k < 256, s.partOn k = true → t.partState k = if s.flag A.trsDonor F.trsDonor.VALID then 3 else 1
  stage : t.fld A.tbyStage F.tbyStage.OWNER = s.fld A.tbyStage F.tbyStage.OWNER
  alarm : t.fld A.clkAlarm F.clkAlarm.OWNER = s.fld A.clkAlarm F.clkAlarm.OWNER

theorem State.enabledRegs_shown (s : State) : s.enabledRegs.fld A.trsCtl F.trsCtl.EN = 1 ∧ s.enabledRegs.fld A.trsStat F.trsStat.RUN = 1 ∧
    s.enabledRegs.roundNow = round32 (s.roundOf s.gtAbs) ∧ s.enabledRegs.trs.enGt = s.gtAbs := by
  unfold State.enabledRegs
  extract_lets enabled shown trs timed begun
  have hclock : timed.roundOf timed.gtAbs = s.roundOf s.gtAbs := by
    have hrd : ∀ a, a ≠ A.trsCtl → a ≠ A.trsStat → a ≠ A.trsRound → timed.rd a = s.rd a := fun a hctl hstat hround =>
      (State.rd_setFld_ne _ _ _ hround).trans ((State.rd_setFld_ne _ _ _ hstat).trans ((State.rd_setFld_ne _ _ _ hstat).trans
        (State.rd_setFld_ne _ _ _ hctl)))
    have hepoch : timed.fld A.trsEpoch F.trsEpoch.SEC = s.fld A.trsEpoch F.trsEpoch.SEC :=
      State.fld_of_rd (hrd _ (by decide) (by decide) (by decide)) _
    have hperiod : timed.rd A.trsPeriod = s.rd A.trsPeriod := hrd _ (by decide) (by decide) (by decide)
    rw [show timed.gtAbs = s.gtAbs from rfl, State.roundOf, State.roundOf, State.epoch, State.epoch, State.period, State.period, hepoch,
      State.fld_of_rd hperiod, State.fld_of_rd hperiod]
  have hchecked {a : Nat} (ha : A.trsStat ≠ a) (f : Fld) : begun.checkCal.fld a f = begun.fld a f :=
    (begun.checkCal_kept (P := (· = a)) ha).fld rfl f
  refine ⟨?_, ?_, ?_, ?_⟩
  · rw [hchecked (by decide)]
    refine ((State.fld_setFld_ne _ _ _ _ (by decide)).trans ?_ : begun.fld A.trsCtl F.trsCtl.EN = 1)
    refine (((enabled.setFld A.trsStat F.trsStat.RUN 1).showTime_kept (P := (· = A.trsCtl)) (by decide) (by decide)).fld rfl _).trans ?_
    exact (State.fld_setFld_ne _ _ _ _ (by decide)).trans (State.fld_setFld_same _ _ _ _ (by decide))
  · rw [State.fld_stat_checkCal _ (by decide) (by decide)]
    refine ((State.fld_setFld_ne _ _ _ _ (by decide)).trans ?_ : begun.fld A.trsStat F.trsStat.RUN = 1)
    exact (State.fld_stat_showTime _ (by decide) (by decide)).trans (State.fld_setFld_same _ _ _ _ (by decide))
  · rw [State.roundNow, hchecked (by decide)]
    refine (State.fld_setFld_same _ _ _ _ (by decide)).trans ?_
    rw [hclock]
    exact Nat.mod_eq_of_lt (round32_lt _)
  · exact congrArg Trs.enGt ((State.checkCal_same (msk := 2 ^ Part.trs.idx) rfl begun (.refl begun)).same .trs rfl)

theorem State.enabledRegs_partners (s : State) : s.enabledRegs.partners = s.partners := by
  have hpart : ∀ i, A.trsCtl ≠ A.trsPart0 i ∧ A.trsStat ≠ A.trsPart0 i ∧ A.trsRound ≠ A.trsPart0 i := fun i => by
    simp only [A.trsCtl, A.trsStat, A.trsRound, A.trsPart0]
    omega
  refine List.filter_congr fun i _ => ?_
  obtain ⟨hctl, hstat, hround⟩ := hpart i
  exact (s.enabledRegs_kept (P := (· = A.trsPart0 i)) hctl hstat hround).flag rfl _

theorem State.enabled_shown (s : State) : s.TrsEnabled s.enabled := by
  obtain ⟨hon, hrun, hround, hgt⟩ := s.enabledRegs_shown
  unfold State.enabled
  extract_lets joining
  generalize hv : s.enabledRegs = v at hon hrun hround hgt ⊢
  have hvkept : ∀ a, a ≠ A.trsCtl → a ≠ A.trsStat → a ≠ A.trsRound → v.rd a = s.rd a := fun a hctl hstat hround =>
    hv ▸ (s.enabledRegs_kept (P := (· = a)) hctl.symm hstat.symm hround.symm).rd a rfl
  have hpartners : v.partners = s.partners := hv ▸ s.enabledRegs_partners
  generalize hw : v.enabledParts joining = w
  generalize hx : w.enabledGroups joining = x
  have hvx : v.KeptAt enabledReg x := hx ▸ hw ▸ (v.enabledParts_kept joining not_enabledReg_part2).trans
    (State.enabledGroups_kept _ joining fun _ => offTallboys_of_enabledReg)
  have hdelay : v.KeptAt enabledReg x.showDelay := hvx.trans (x.showDelay_kept (by unfold enabledReg; decide))
  have hfar := x.showDelay.showGate_far
  have hkept : ∀ a f, enabledReg a → farReg a → x.showDelay.showGate.fld a f = v.fld a f := fun a f ha hfa =>
    (hfar.fld hfa f).trans (hdelay.fld ha f)
  have hfarReg : ∀ a, a = A.tbyStage ∨ a = A.clkAlarm ∨ a = A.trsCtl ∨ a = A.trsRound → farReg a := by
    rintro a (rfl | rfl | rfl | rfl)
    · exact ⟨by decide, by decide, fun p _ h => by simp only [A.tbyStage, A.tmrPortCnt] at h; omega⟩
    all_goals exact farReg_above (by decide) (by decide) (by decide)
  refine ⟨?_, ?_, ?_, ?_, fun k hk hpart => ?_, ?_, ?_⟩
  · exact State.flag_of_one ((hkept _ _ (by simp [enabledReg]) (hfarReg _ (by simp))).trans hon)
  · exact State.flag_of_one ((hfar.stat _ (by decide) (by decide)).trans ((hdelay.fld (by simp [enabledReg]) _).trans hrun))
  · rw [State.roundNow, hkept _ _ (by simp [enabledReg]) (hfarReg _ (by simp)), ← State.roundNow, hround]
  · rw [hfar.trs]
    show x.trs.enGt = _
    rw [← hx, State.enabledGroups_enGt, ← hw, State.enabledParts_enGt, hgt]
  · have hbase : 0x2030000000000 ≤ A.trsPart2 k := by unfold A.trsPart2; omega
    have hmem : k ∈ v.partners := hpartners ▸ List.mem_filter.mpr ⟨List.mem_range.mpr hk, hpart⟩
    have hgroups := w.enabledGroups_kept (P := (· = A.trsPart2 k)) joining fun a ha => ha ▸ offTallboys_above hbase
    have hshown := x.showDelay_kept (P := (· = A.trsPart2 k)) (by unfold A.trsDelay A.trsPart2; omega)
    have hreg : farReg (A.trsPart2 k) :=
      farReg_above hbase (by unfold A.trsPart2 A.trsCnt; omega) (by unfold A.trsPart2 A.trsStat; omega)
    rw [State.partState, hfar.fld hreg, hshown.fld rfl, ← hx, hgroups.fld rfl, ← hw, ← State.partState, v.enabledParts_partState joining hmem]
  · rw [hkept _ _ (by simp [enabledReg]) (hfarReg _ (by simp)), State.fld_of_rd (hvkept _ (by decide) (by decide) (by decide))]
  · rw [hkept _ _ (by simp [enabledReg]) (hfarReg _ (by simp)), State.fld_of_rd (hvkept _ (by decide) (by decide) (by decide))]

/-! ### The claims of the Trestle -/

theorem State.stageClaim_kept' {P : Nat → Prop} (s : State) (hstage : ¬ P A.tbyStage) (hconflict : ¬ P A.conflict) :
    s.KeptAt P (s.stageClaim 2) := by
  have hset : s.KeptAt P ((s.setFld A.tbyStage F.tbyStage.OWNER 2).claimed 2 2) := ((State.KeptAt.refl s).setFld hstage ..).of_same rfl rfl
  rw [State.stageClaim_kept (.inr rfl)]
  split
  · exact hset
  split
  · exact .refl s
  split
  · exact hset.trans (State.refuse_kept _ _ _ _ hconflict)
  · exact s.refuse_kept _ _ _ hconflict

/-- The Trestle takes the staging region where it is free or already its own. -/
theorem State.stageClaim_taken {s : State} (h : s.fld A.tbyStage F.tbyStage.OWNER = 0 ∨ s.fld A.tbyStage F.tbyStage.OWNER = 2) :
    (s.stageClaim 2).fld A.tbyStage F.tbyStage.OWNER = 2 ∧ ∀ x, (s.stageClaim 2).outranks 3 1 x = s.outranks 3 1 x := by
  rw [State.stageClaim_kept (.inr rfl)]
  obtain h | h := h
  · rw [if_pos h]
    refine ⟨State.fld_setFld_same s _ _ _ (by decide), fun x => ?_⟩
    show (((2, 2) :: s.cyc.claims).contains (3, x) && decide (1 < x)) = _
    rw [State.outranks, List.contains_cons]
    rfl
  · rw [if_neg (by omega), if_pos h]
    exact ⟨h, fun _ => rfl⟩

theorem State.alarmTake_won {s : State} (h : s.fld A.clkAlarm F.clkAlarm.OWNER = 0 ∨ s.fld A.clkAlarm F.clkAlarm.OWNER = 1 ∨
    s.outranks 3 1 (s.fld A.clkAlarm F.clkAlarm.OWNER) = true) :
    (s.alarmTake 1).2 = true ∧ (s.alarmTake 1).1.fld A.clkAlarm F.clkAlarm.OWNER = 1 := by
  unfold State.alarmTake
  extract_lets owner swept
  split
  · exact ⟨rfl, State.fld_setFld_same s _ _ _ (by decide)⟩
  next hzero =>
    split
    next hone => exact ⟨rfl, hone⟩
    next hone =>
      rw [if_pos (h.resolve_left hzero |>.resolve_left hone)]
      exact ⟨rfl, ((State.refuse_kept (P := (· = A.clkAlarm)) _ _ _ _ (by decide)).fld rfl _).trans
        (State.fld_setFld_same (s.setFld _ _ _) _ _ _ (by decide))⟩

theorem State.alarmTake_lost {s : State} (h : s.fld A.clkAlarm F.clkAlarm.OWNER ∉ [0, 1])
    (hlost : s.outranks 3 1 (s.fld A.clkAlarm F.clkAlarm.OWNER) = false) :
    s.alarmTake 1 = (s.refuse 3 1 (s.fld A.clkAlarm F.clkAlarm.OWNER), false) := by
  simp only [List.mem_cons, List.not_mem_nil, or_false, not_or] at h
  unfold State.alarmTake
  extract_lets owner swept
  rw [if_neg h.1, if_neg h.2, if_neg (by rw [hlost]; exact Bool.false_ne_true)]

/-- What only the calendar's registers and global time say is not changed by a claim. -/
theorem State.roundOf_of_rd {s t : State} (hepoch : t.rd A.trsEpoch = s.rd A.trsEpoch) (hperiod : t.rd A.trsPeriod = s.rd A.trsPeriod) (x : Nat) :
    t.roundOf x = s.roundOf x := by
  rw [State.roundOf, State.roundOf, State.epoch, State.epoch, State.period, State.period, State.fld_of_rd hepoch, State.fld_of_rd hperiod,
    State.fld_of_rd hperiod]

variable (hen : s.flag A.trsCtl F.trsCtl.EN = false)
include hen

theorem execTrsEnable_granted (hstage : s.fld A.tbyStage F.tbyStage.OWNER = 0 ∨ s.fld A.tbyStage F.tbyStage.OWNER = 2)
    (halarm : s.fld A.clkAlarm F.clkAlarm.OWNER = 0 ∨ s.fld A.clkAlarm F.clkAlarm.OWNER = 1 ∨
      s.outranks 3 1 (s.fld A.clkAlarm F.clkAlarm.OWNER) = true) :
    ∃ t, exec .trsEnable s = .next t ∧ t.flag A.trsCtl F.trsCtl.EN = true ∧ t.flag A.trsStat F.trsStat.RUN = true ∧
      t.fld A.tbyStage F.tbyStage.OWNER = 2 ∧ t.fld A.clkAlarm F.clkAlarm.OWNER = 1 ∧
      t.roundNow = round32 (s.roundOf s.gtAbs) ∧ t.trs.enGt = s.gtAbs ∧
      ∀ k < 256, s.partOn k = true → t.partState k = if s.flag A.trsDonor F.trsDonor.VALID then 3 else 1 := by
  obtain ⟨howner, houtranks⟩ := State.stageClaim_taken hstage
  generalize hu : s.stageClaim 2 = u at howner houtranks
  have hclaim : ∀ {P : Nat → Prop}, ¬ P A.tbyStage → ¬ P A.conflict → s.KeptAt P u := fun h k => hu ▸ s.stageClaim_kept' h k
  have hualarm : u.fld A.clkAlarm F.clkAlarm.OWNER = s.fld A.clkAlarm F.clkAlarm.OWNER :=
    (hclaim (P := (· = A.clkAlarm)) (by decide) (by decide)).fld rfl _
  obtain ⟨hwon, htaken⟩ := State.alarmTake_won (s := u) (by rw [hualarm, houtranks]; exact halarm)
  have htake : ∀ {P : Nat → Prop}, ¬ P A.clkAlarm → ¬ P A.conflict → u.KeptAt P (u.alarmTake 1).1 := fun h k => u.alarmTake_kept 1 h k
  generalize hv : (u.alarmTake 1).1 = v at htaken htake
  have hkept : ∀ a, ¬ claimReg a → v.rd a = s.rd a := fun a ha => by
    simp only [claimReg, not_or] at ha
    obtain ⟨hs, ha, hc⟩ := ha
    exact ((htake (P := (· = a)) (Ne.symm ha) (Ne.symm hc)).rd a rfl).trans ((hclaim (P := (· = a)) (Ne.symm hs) (Ne.symm hc)).rd a rfl)
  have hgt : v.gtAbs = s.gtAbs := by
    have hgt : s.Same (2 ^ Part.gt.idx) v := hv ▸ State.alarmTake_same rfl _ _ (hu ▸ State.stageClaim_same rfl s 2 (.refl s))
    rw [State.gtAbs, hgt.same .gt rfl, ← State.gtAbs]
  have hround : v.roundOf v.gtAbs = s.roundOf s.gtAbs := by
    rw [hgt]
    exact State.roundOf_of_rd (hkept _ (by unfold claimReg; decide)) (hkept _ (by unfold claimReg; decide)) _
  have h := v.enabled_shown
  refine ⟨v.enabled, ?_, h.on, h.run, ?_, h.alarm.trans htaken, h.round.trans (by rw [hround]), h.enGt.trans hgt, fun k hk hpart => ?_⟩
  · show Host.Outcome.next s.trsEnable.1 = _
    rw [s.trsEnable_eq hen, hu, howner, hwon, hv]
    rfl
  · rw [h.stage, ← hv, (u.alarmTake_kept (P := (· = A.tbyStage)) 1 (by decide) (by decide)).fld rfl, howner]
  · rw [h.parts k hk, State.flag_of_fld (State.fld_of_rd (hkept _ (by unfold claimReg; decide)) _)]
    refine (State.flag_of_fld (State.fld_of_rd (hkept _ ?_) _)).trans hpart
    simp only [claimReg, A.trsPart0, A.tbyStage, A.clkAlarm, A.conflict]
    omega

theorem execTrsEnable_noStage (hstage : s.fld A.tbyStage F.tbyStage.OWNER = 1) : ∃ t, exec .trsEnable s = .next t ∧
    t.flag A.trsCtl F.trsCtl.EN = false ∧ t.flag A.trsStat F.trsStat.NOSTAGE = true ∧ t.mem = s.mem ∧ t.trs = s.trs := by
  have hlost : s.outranks 2 2 1 = false := by rw [State.outranks, decide_eq_false (by omega), Bool.and_false]
  have hclaim : s.stageClaim 2 = s.refuse 2 2 1 := by
    rw [State.stageClaim_kept (.inr rfl), hstage, if_neg (by omega), if_neg (by omega), hlost]
    rfl
  have howner : (s.stageClaim 2).fld A.tbyStage F.tbyStage.OWNER = 1 := by
    rw [hclaim, (s.refuse_kept (P := (· = A.tbyStage)) 2 2 1 (by decide)).fld rfl, hstage]
  have hsame : s.Same (2 ^ Part.mem.idx + 2 ^ Part.trs.idx) ((s.stageClaim 2).hwSet A.trsStat F.trsStat.NOSTAGE) :=
    State.hwSet_same rfl _ _ _ (State.stageClaim_same rfl s 2 (.refl s))
  refine ⟨(s.stageClaim 2).hwSet A.trsStat F.trsStat.NOSTAGE, ?_, ?_, State.flag_hwSet_same _ _ (by decide), hsame.same .mem rfl,
    hsame.same .trs rfl⟩
  · show Host.Outcome.next s.trsEnable.1 = _
    rw [s.trsEnable_eq hen, howner]
    rfl
  · exact ((((s.stageClaim_kept' (P := (· = A.trsCtl)) (by decide) (by decide))).hwSet (by decide) _).flag rfl _).trans hen

theorem execTrsEnable_noAlarm (hstage : s.fld A.tbyStage F.tbyStage.OWNER = 0 ∨ s.fld A.tbyStage F.tbyStage.OWNER = 2)
    (hother : s.fld A.clkAlarm F.clkAlarm.OWNER ∉ [0, 1]) (hlost : s.outranks 3 1 (s.fld A.clkAlarm F.clkAlarm.OWNER) = false) :
    ∃ t, exec .trsEnable s = .next t ∧ t.flag A.trsCtl F.trsCtl.EN = false ∧ t.flag A.trsStat F.trsStat.NOALARM = true ∧
      t.fld A.tbyStage F.tbyStage.OWNER = s.fld A.tbyStage F.tbyStage.OWNER ∧ t.mem = s.mem ∧ t.trs = s.trs := by
  obtain ⟨howner, houtranks⟩ := State.stageClaim_taken hstage
  have hualarm : (s.stageClaim 2).fld A.clkAlarm F.clkAlarm.OWNER = s.fld A.clkAlarm F.clkAlarm.OWNER :=
    (s.stageClaim_kept' (P := (· = A.clkAlarm)) (by decide) (by decide)).fld rfl _
  have hrefused := State.alarmTake_lost (s := s.stageClaim 2) (by rw [hualarm]; exact hother) (by rw [hualarm, houtranks]; exact hlost)
  rw [hualarm] at hrefused
  generalize hv : (s.stageClaim 2).refuse 3 1 (s.fld A.clkAlarm F.clkAlarm.OWNER) = v at hrefused
  obtain ⟨t, ht⟩ : ∃ t, t = (v.setFld A.tbyStage F.tbyStage.OWNER (s.fld A.tbyStage F.tbyStage.OWNER)).hwSet A.trsStat F.trsStat.NOALARM :=
    ⟨_, rfl⟩
  have hsame : s.Same (2 ^ Part.mem.idx + 2 ^ Part.trs.idx) t := ht ▸ State.hwSet_same rfl _ _ _ (State.setFld_same rfl _ _ _ _
    (hv ▸ State.refuse_same rfl _ _ _ _ (State.stageClaim_same rfl s 2 (.refl s))))
  refine ⟨t, ?_, ?_, ht ▸ State.flag_hwSet_same _ _ (by decide), ?_, hsame.same .mem rfl, hsame.same .trs rfl⟩
  · show Host.Outcome.next s.trsEnable.1 = _
    rw [s.trsEnable_eq hen, howner, hrefused, ht]
    rfl
  · have hkept : s.KeptAt (· = A.trsCtl) v := hv ▸ (s.stageClaim_kept' (P := (· = A.trsCtl)) (by decide) (by decide)).trans
      (State.refuse_kept _ _ _ _ (by decide))
    exact ht ▸ (((hkept.setFld (by decide) ..).hwSet (by decide) _).flag rfl _).trans hen
  · rw [ht]
    refine (State.fld_of_rd (State.rd_hwSet_ne _ _ (by decide)) _).trans ((State.fld_setFld_same _ _ _ _ (by decide)).trans ?_)
    refine Nat.mod_eq_of_lt ?_
    obtain h | h := hstage <;> rw [h] <;> decide

end

end Sys2Proof.Machine
end

section
/-!
SUPPORT. The Trestle is disabled, a SEND ends, partner entries are written, pipelines fail (12 R360, R365, R373, R374; 16 R456).
-/
namespace Sys2Proof.Machine

section
variable {s : State}

/-! ### Disabling (12 R373) -/

/-- What is kept of a partner by a site that stops: how many numbered frames it was sent (13 R385). -/
def Partner.stopped (x : Partner) : Partner := { Partner.reset with ctlRound := x.ctlRound, ctlSent := x.ctlSent }

theorem FMap.get?_mapVal {α β : Type} (f : α → β) (m : FMap α) (k : Nat) :
    FMap.get? (m.map (fun p => (p.1, f p.2))) k = (FMap.get? m k).map f := by
  induction m with
  | nil => rfl
  | cons p m ih =>
    rw [List.map_cons, FMap.get?, FMap.get?, ih]
    split
    · rfl
    · rfl

theorem execTrsDisable_stops (hen : s.flag A.trsCtl F.trsCtl.EN = true) : ∃ t, exec .trsDisable s = .next t ∧
    t.flag A.trsCtl F.trsCtl.EN = false ∧ t.flag A.trsStat F.trsStat.RUN = false ∧ t.fld A.tbyStage F.tbyStage.OWNER = 0 ∧
    t.fld A.clkAlarm F.clkAlarm.OWNER ≠ 1 ∧
    t.trs = { Trs.reset with tries := s.trs.tries, repeats := s.trs.repeats, parts := t.trs.parts } ∧ t.mem = s.mem ∧
    ∀ k, (t.part k).theirs = none ∧ (t.part k).delays = [] ∧ (t.part k).ctlRound = (s.part k).ctlRound ∧
      (t.part k).ctlSent = (s.part k).ctlSent := by
  obtain ⟨u, hu⟩ : ∃ u, u = (((s.setFld A.trsCtl F.trsCtl.EN 0).putTrs { Trs.reset with
    tries := s.trs.tries, repeats := s.trs.repeats, parts := s.trs.parts.map (fun p => (p.1, p.2.stopped)) }).setFld A.tbyStage
      F.tbyStage.OWNER 0) := ⟨_, rfl⟩
  obtain ⟨t, ht⟩ : ∃ t, t = [F.trsStat.RUN, F.trsStat.SENDING, F.trsStat.APPLYING, F.trsStat.NOGW, F.trsStat.TIMEINV].foldl
    (fun s f => s.setFld A.trsStat f 0) (u.alarmFree 1) := ⟨_, rfl⟩
  have hcleared {P : Nat → Prop} (hP : ¬ P A.trsStat) : (u.alarmFree 1).KeptAt P t := ht ▸
    State.KeptAt.foldl (fun v f => (State.KeptAt.refl v).setFld hP ..) _ _
  have hsame : s.Same (2 ^ Part.mem.idx) t := by
    rw [ht, hu]
    exact foldl_same _ _ _ (fun v f h => State.setFld_same rfl v _ f 0 h) (State.alarmFree_same rfl _ 1 (State.setFld_same rfl _ _ _ _
      (State.putTrs_same rfl _ _ (State.setFld_same rfl s _ _ _ (.refl s)))))
  have htrs : t.trs = u.trs := by
    have h : u.Same (2 ^ Part.trs.idx) t := ht ▸ foldl_same _ _ _ (fun v f h => State.setFld_same rfl v _ f 0 h)
      (State.alarmFree_same rfl u 1 (.refl u))
    exact h.same .trs rfl
  have hpart : ∀ k, t.part k = (s.part k).stopped := fun k => by
    rw [State.part, htrs, hu]
    show FMap.getD (s.trs.parts.map (fun p => (p.1, p.2.stopped))) k Partner.reset = _
    rw [FMap.getD, FMap.get?_mapVal, State.part, FMap.getD]
    cases FMap.get? s.trs.parts k with
    | none => rfl
    | some x => rfl
  refine ⟨t, ?_, ?_, ?_, ?_, ?_, ?_, hsame.same .mem rfl, fun k => ?_⟩
  · show Host.Outcome.next s.trsDisable = _
    rw [State.trsDisable, if_neg (by rw [hen]; decide), ht, hu]
    rfl
  · refine State.flag_of_zero ?_
    rw [(hcleared (P := (· = A.trsCtl)) (by decide)).fld rfl, (u.alarmFree_kept (P := (· = A.trsCtl)) 1 (by decide)).fld rfl, hu]
    exact (State.fld_setFld_ne _ _ _ _ (by decide)).trans (State.fld_setFld_same s _ _ _ (by decide))
  · have hother (v : State) {f : Fld} (hf : f.ok) (hlo : F.trsStat.RUN.hi < f.lo) :
        (v.setFld A.trsStat f 0).fld A.trsStat F.trsStat.RUN = v.fld A.trsStat F.trsStat.RUN :=
      State.fld_setFld_field _ _ _ _ _ hf (by decide) (.inl hlo)
    refine State.flag_of_zero ?_
    rw [ht]
    simp only [List.foldl_cons, List.foldl_nil]
    rw [hother _ (by decide) (by decide), hother _ (by decide) (by decide), hother _ (by decide) (by decide),
      hother _ (by decide) (by decide)]
    exact State.fld_setFld_same _ _ _ _ (by decide)
  · rw [(hcleared (P := (· = A.tbyStage)) (by decide)).fld rfl, (u.alarmFree_kept (P := (· = A.tbyStage)) 1 (by decide)).fld rfl, hu]
    exact State.fld_setFld_same _ _ _ _ (by decide)
  · rw [(hcleared (P := (· = A.clkAlarm)) (by decide)).fld rfl, State.alarmFree]
    split
    · rw [State.fld_setFld_same _ _ _ _ (by decide)]
      decide
    next h => exact h
  · rw [htrs, hu]
    rfl
  · rw [hpart k]
    exact ⟨rfl, rfl, rfl, rfl⟩

/-! ### A SEND ends (12 R365) -/

theorem execTrsSendComplete_sent {g : Fin 256} (hsending : (s.grp g).phase = .sending)
    (hwait : ∀ f ∈ s.trs.wait, ¬ (f.kind = 0 ∧ f.group = g ∧ some f.round = (s.grp g).round)) :
    ∃ t, exec (.trsSendComplete g) s = .next t ∧ t.grp g = { s.grp g with phase := .sent, ts := s.gtAbs, doneAt := s.gtAbs } ∧
      t.flag A.trsStat F.trsStat.SENDING = false ∧ t.mem = s.mem := by
  refine ⟨(s.modGrp g (fun x => { x with phase := .sent, ts := s.gtAbs, doneAt := s.gtAbs })).setFld A.trsStat F.trsStat.SENDING 0, ?_,
    s.grp_modGrp_same g (fun x => { x with phase := .sent, ts := s.gtAbs, doneAt := s.gtAbs }), State.flag_of_zero (State.fld_setFld_same _ _ _ _ (by decide)), rfl⟩
  have hnone : s.trs.wait.any (fun f => f.kind == 0 && f.group == g.val && some f.round == (s.grp g.val).round) = false := by
    refine List.any_eq_false.mpr fun f hf h => hwait f hf ?_
    simpa [and_assoc] using h
  refine if_neg ?_
  rw [hsending, hnone]
  decide

theorem execTrsSendComplete_idle {g : Fin 256} (h : (s.grp g).phase ≠ .sending) : exec (.trsSendComplete g) s = .next s := by
  refine if_pos ?_
  rw [bne_iff_ne.mpr h, Bool.true_or]

/-! ### Partner entries (12 R374) -/

/-- The fields of a partner's entry that a write sets. -/
def partWord (v : Word) : Word := v &&& (F.trsPart0.WEIGHT.mask ||| F.trsPart0.KEYSLOT.mask ||| F.trsPart0.VALID.mask ||| F.trsPart0.SITE.mask)

theorem getFld_partWord (v : Word) {f : Fld} (hf : f = F.trsPart0.VALID ∨ f = F.trsPart0.SITE) : getFld (partWord v) f = getFld v f := by
  have hwhole : ∀ (f : Fld), bits (F.trsPart0.WEIGHT.mask ||| F.trsPart0.KEYSLOT.mask ||| F.trsPart0.VALID.mask ||| F.trsPart0.SITE.mask).toNat
      f.hi f.lo = 2 ^ (f.hi + 1 - f.lo) - 1 → getFld (partWord v) f = getFld v f := by
    intro f hmask
    unfold bits at hmask
    unfold getFld bits partWord
    rw [BitVec.toNat_and, Nat.shiftRight_and_distrib, Nat.and_mod_two_pow, hmask, Nat.and_two_pow_sub_one_eq_mod, Nat.mod_mod]
  obtain rfl | rfl := hf
  · exact hwhole _ (by decide)
  · exact hwhole _ (by decide)

section
variable {i : Fin 256} {v : Word}

/-- What a write of a partner's entry shows, before the greatest delay is. -/
def State.partWritten (s : State) (i : Nat) (v : Word) : State :=
  let u := if s.partOn i && getFld v F.trsPart0.VALID == 0 then s.partEnter i 0 0 else s
  let u := u.wr (A.trsPart0 i) v
  if s.flag A.trsCtl F.trsCtl.EN && getFld v F.trsPart0.VALID != 0 then (u.setFld (A.trsPart2 i) F.trsPart2.STATE 3).forgetPart i
  else if s.partOn i && getFld v F.trsPart0.VALID == 0 then u.forgetPart i else u

theorem State.partWrite_eq (h : s.flag A.trsCtl F.trsCtl.EN = false ∨ s.partOn i = false) :
    exec (.trsPartWrite i v) s = .next (s.partWritten i (partWord v)).showDelay := by
  have hgo : ¬ (s.flag A.trsCtl F.trsCtl.EN && s.partOn i) = true := by
    obtain h | h := h <;> simp [h]
  show Host.Outcome.next (s.partWrite i v) = _
  rw [State.partWrite]
  refine congrArg Host.Outcome.next ((if_neg hgo).trans ?_)
  rw [State.partWritten, ← partWord]
  simp only [bne, Bool.not_not]

theorem State.fld_showDelay {a : Nat} (h : a ≠ A.trsDelay) (f : Fld) (u : State) : u.showDelay.fld a f = u.fld a f :=
  (u.showDelay_kept (P := (· = a)) h.symm).fld rfl f

theorem State.part_showDelay (u : State) (k : Nat) : u.showDelay.part k = u.part k := rfl

theorem State.part_forgetPart (u : State) (k : Nat) : (u.forgetPart k).part k =
    { Partner.reset with heardAt := u.pulse, ctlRound := (u.part k).ctlRound, ctlSent := (u.part k).ctlSent } :=
  u.part_modPart_same k _

theorem part0_ne (i : Nat) : A.trsPart0 i ≠ A.trsDelay ∧ A.trsPart0 i ≠ A.trsPart2 i := by
  simp only [A.trsPart0, A.trsDelay, A.trsPart2]
  omega

theorem part2_ne (i : Nat) : A.trsPart2 i ≠ A.trsDelay ∧ A.trsPart2 i ≠ A.trsPart0 i := by
  simp only [A.trsPart0, A.trsDelay, A.trsPart2]
  omega

/-- The entry holds what was written. -/
theorem State.partWritten_fld (s : State) (i : Nat) (v : Word) (f : Fld) :
    (s.partWritten i v).showDelay.fld (A.trsPart0 i) f = getFld v f := by
  obtain ⟨hdelay, hpart2⟩ := part0_ne i
  have hwritten : ∀ u : State, (u.wr (A.trsPart0 i) v).fld (A.trsPart0 i) f = getFld v f := fun u => by rw [State.fld, State.rd_wr_same]
  rw [State.fld_showDelay hdelay, State.partWritten]
  split
  · exact (State.fld_setFld_ne _ _ _ _ hpart2).trans (hwritten _)
  split
  · exact hwritten _
  · exact hwritten _

theorem State.partOn_partWritten (s : State) (i : Nat) (v : Word) :
    (s.partWritten i (partWord v)).showDelay.partOn i = decide (getFld v F.trsPart0.VALID = 1) := by
  have hbit : getFld v F.trsPart0.VALID < 2 := Nat.mod_lt _ (by decide)
  rw [State.partOn, State.flag, State.partWritten_fld, getFld_partWord v (.inl rfl)]
  interval_cases getFld v F.trsPart0.VALID
  · rfl
  · rfl

theorem State.partSite_partWritten (s : State) (i : Nat) (v : Word) :
    (s.partWritten i (partWord v)).showDelay.partSite i = getFld v F.trsPart0.SITE := by
  rw [State.partSite, State.partWritten_fld, getFld_partWord v (.inr rfl)]

theorem execTrsPartWrite_joins (hen : s.flag A.trsCtl F.trsCtl.EN = true) (hpart : s.partOn i = false)
    (hvalid : getFld v F.trsPart0.VALID = 1) : ∃ t, exec (.trsPartWrite i v) s = .next t ∧ t.partOn i = true ∧ t.partState i = 3 ∧
      t.partSite i = getFld v F.trsPart0.SITE ∧ (t.part i).heardAt = s.pulse := by
  obtain ⟨hdelay, -⟩ := part2_ne i
  have hjoined : s.partWritten i (partWord v) =
      ((s.wr (A.trsPart0 i) (partWord v)).setFld (A.trsPart2 i) F.trsPart2.STATE 3).forgetPart i := by
    rw [State.partWritten, getFld_partWord v (.inl rfl), hpart, hen, hvalid]
    rfl
  refine ⟨_, State.partWrite_eq (.inr hpart), ?_, ?_, s.partSite_partWritten i v, ?_⟩
  · rw [State.partOn_partWritten, hvalid]
    rfl
  · rw [State.partState, State.fld_showDelay hdelay, hjoined]
    exact State.fld_setFld_same _ _ _ _ (by decide)
  · rw [hjoined, State.part_showDelay, State.part_forgetPart]
    rfl

theorem execTrsPartWrite_off (hen : s.flag A.trsCtl F.trsCtl.EN = false) : ∃ t, exec (.trsPartWrite i v) s = .next t ∧
    t.partSite i = getFld v F.trsPart0.SITE ∧ t.partOn i = decide (getFld v F.trsPart0.VALID = 1) ∧ t.mem = s.mem := by
  refine ⟨_, State.partWrite_eq (.inl hen), s.partSite_partWritten i v, s.partOn_partWritten i v, ?_⟩
  have hmem : ∀ u : State, (u.partEnter i 0 0).mem = u.mem := fun u => (State.partEnter_same (msk := 2 ^ Part.mem.idx) rfl u _ _ _ (.refl u)).same .mem rfl
  show (s.partWritten i (partWord v)).mem = s.mem
  rw [State.partWritten]
  have hu : ∀ c : Bool, (if c then s.partEnter i 0 0 else s).mem = s.mem := fun c => by
    cases c
    · rfl
    · exact hmem s
  split
  · exact hu _
  split
  · exact hmem s
  · rfl

theorem execTrsPartWrite_leaves (hen : s.flag A.trsCtl F.trsCtl.EN = false) (hpart : s.partOn i = true)
    (hvalid : getFld v F.trsPart0.VALID = 0) (hstate : s.partState i ≠ 0) : ∃ t, exec (.trsPartWrite i v) s = .next t ∧
      t.partOn i = false ∧ t.partState i = 0 ∧
      t.part i = { Partner.reset with heardAt := s.pulse, ctlRound := (s.part i).ctlRound, ctlSent := (s.part i).ctlSent } ∧
      s.raises t 0x67 (evSource 5 0) (leBytes 2 (s.partSite i) ++ [BitVec.ofNat 8 (s.partState i), 0] ++ leBytes 4 s.roundNow ++ [0]) := by
  obtain ⟨hdelay, hpart0⟩ := part2_ne i
  obtain ⟨u, hu⟩ : ∃ u, u = s.setFld (A.trsPart2 i) F.trsPart2.STATE 0 := ⟨_, rfl⟩
  obtain ⟨w, hw⟩ : ∃ w, w = u.raise 0x67 (evSource 5 0)
    (leBytes 2 (s.partSite i) ++ [BitVec.ofNat 8 (s.partState i), BitVec.ofNat 8 0] ++ leBytes 4 s.roundNow ++ [BitVec.ofNat 8 0]) := ⟨_, rfl⟩
  have hleft : s.partWritten i (partWord v) = (w.wr (A.trsPart0 i) (partWord v)).forgetPart i := by
    rw [State.partWritten, getFld_partWord v (.inl rfl), hpart, hen, hvalid, State.partEnter, if_neg hstate, hw, hu]
    rfl
  have hparts : (w.wr (A.trsPart0 i) (partWord v)).part i = s.part i :=
    (State.part_of_parts (s := u) (by rw [hw]; exact congrArg Trs.parts (State.raise_trs ..)) _).trans (by rw [hu]; rfl)
  have hpulse : w.pulse = s.pulse := by rw [hw, State.raise_pulse, hu]; rfl
  refine ⟨_, State.partWrite_eq (.inl hen), ?_, ?_, ?_, ?_⟩
  · rw [State.partOn_partWritten, hvalid]
    rfl
  · rw [State.partState, State.fld_showDelay hdelay, hleft]
    refine (State.fld_of_rd (State.rd_wr_ne w (partWord v) hpart0) _).trans ?_
    rw [hw, State.fld_of_rd (State.raise_rd ..), hu]
    exact State.fld_setFld_same _ _ _ _ (by decide)
  · rw [hleft, State.part_showDelay, State.part_forgetPart, hparts, show (w.wr (A.trsPart0 i) (partWord v)).pulse = s.pulse from hpulse]
  · rw [hleft]
    exact State.raises_of_raise (u := u) (by rw [hu]; rfl) (hw ▸ List.prefix_rfl)

end

/-! ### The pipelines (16 R456) -/

/-- Showing the health leaves the pipelines alone. -/
theorem State.health_pipes (u : State) : u.health.flt.pipesDead = u.flt.pipesDead := by
  have hcount : u.countAvail.flt.pipesDead = u.flt.pipesDead := by
    unfold State.countAvail
    dsimp only
    split
    · split
      · rfl
      · rfl
    · rfl
  unfold State.health
  extract_lets s1 flt s2 old oldCap new cap s3 s4 s5
  have h2 : s2.flt.pipesDead = u.flt.pipesDead := by
    unfold s2
    split
    · exact hcount
    · exact hcount
  have h5 : s5.flt = s2.flt := by
    unfold s5
    split
    · rfl
    · exact State.raise_flt ..
  split
  · exact hcount
  split
  · rw [h5, h2]
  · rw [State.raise_flt, h5, h2]

section
variable {p : Fin 2} {again : Bool}

theorem execTrsPipelineCheckFail_idle (h : s.flt.pipesDead.contains p.val = true ∨ s.flag A.trsCtl F.trsCtl.EN = false) :
    exec (.trsPipelineCheckFail p again) s = .next s := by
  refine if_pos ?_
  obtain h | h := h
  · rw [h, Bool.true_or]
  · rw [h, Bool.not_false, Bool.or_true]

/-- A pipeline's failed check is counted, with the times of its repeats. -/
def State.pipeFailed (s : State) (p k : Nat) : State :=
  s.putTrs { s.trs with
    tries := FMap.set s.trs.tries p k
    repeats := FMap.set s.trs.repeats p ((s.pulse :: FMap.getD s.trs.repeats p []).filter (fun x => !s.reached x 1000000)) }

/-- A pipeline is retired. -/
def State.pipeRetired (s : State) (p : Nat) : State :=
  let s := s.putFlt { s.flt with pipesDead := p :: s.flt.pipesDead }
  (s.raise 0xA8 (evSource 5 0) [BitVec.ofNat 8 p, BitVec.ofNat 8 (2 - s.flt.pipesDead.length)]).health

theorem State.pipeRetired_shown (s : State) (p : Nat) : (s.pipeRetired p).flt.pipesDead = p :: s.flt.pipesDead ∧
    s.raises (s.pipeRetired p) 0xA8 (evSource 5 0) [BitVec.ofNat 8 p, BitVec.ofNat 8 (1 - s.flt.pipesDead.length)] ∧
    (s.pipeRetired p).trs = s.trs ∧ (s.pipeRetired p).mem = s.mem := by
  obtain ⟨u, hu⟩ : ∃ u, u = s.putFlt { s.flt with pipesDead := p :: s.flt.pipesDead } := ⟨_, rfl⟩
  obtain ⟨v, hv⟩ : ∃ v, v = u.raise 0xA8 (evSource 5 0) [BitVec.ofNat 8 p, BitVec.ofNat 8 (1 - s.flt.pipesDead.length)] := ⟨_, rfl⟩
  have hretired : s.pipeRetired p = v.health := by
    rw [hv, hu, show 1 - s.flt.pipesDead.length = 2 - (p :: s.flt.pipesDead).length by rw [List.length_cons]; omega]
    rfl
  have hsame : s.Same (2 ^ Part.trs.idx + 2 ^ Part.mem.idx) v.health :=
    State.health_same rfl _ (hv ▸ State.raise_same rfl _ _ _ _ (hu ▸ State.putFlt_same rfl s _ (.refl s)))
  rw [hretired]
  refine ⟨?_, State.raises_of_raise (u := u) (by rw [hu]; rfl) (hv ▸ v.health_raised), hsame.same .trs rfl, hsame.same .mem rfl⟩
  rw [v.health_pipes, hv, State.raise_flt, hu]
  rfl

theorem execTrsPipelineCheckFail_counts (hlive : s.flt.pipesDead.contains p.val = false) (hen : s.flag A.trsCtl F.trsCtl.EN = true) {k : Nat}
    (hk : k = (if again then FMap.getD s.trs.tries p 0 + 1 else 1)) : ∃ t, exec (.trsPipelineCheckFail p again) s = .next t ∧
      FMap.get? t.trs.tries p = some k ∧ t.mem = s.mem ∧
      (4 ≤ k → t.flt.pipesDead = p.val :: s.flt.pipesDead ∧
        s.raises t 0xA8 (evSource 5 0) [BitVec.ofNat 8 p, BitVec.ofNat 8 (1 - s.flt.pipesDead.length)]) ∧
      (k < 4 → (FMap.getD s.trs.repeats p []).length < 64 → t.flt.pipesDead = s.flt.pipesDead) := by
  have hgo : ¬ (s.flt.pipesDead.contains p.val || !s.flag A.trsCtl F.trsCtl.EN) = true := by rw [hlive, hen]; decide
  obtain ⟨u, hu⟩ : ∃ u, u = s.pipeFailed p k := ⟨_, rfl⟩
  have hnext : exec (.trsPipelineCheckFail p again) s =
      if k ≥ 4 || ((s.pulse :: FMap.getD s.trs.repeats p []).filter (fun x => !s.reached x 1000000)).length > 64 then
        .next (u.pipeRetired p) else .next u := by
    rw [hu, hk]
    exact if_neg hgo
  have htries : FMap.get? u.trs.tries p = some k := hu ▸ FMap.get?_set_same ..
  have hflt : u.flt = s.flt := by rw [hu]; rfl
  have hmem : u.mem = s.mem := by rw [hu]; rfl
  obtain ⟨hdead, hraises, htrs, hkept⟩ := u.pipeRetired_shown p
  rw [hflt] at hdead hraises
  rw [hnext]
  split
  next hmany =>
    refine ⟨_, rfl, by rw [htrs, htries], hkept.trans hmem, fun _ => ⟨hdead, ?_⟩, fun hfew hshort => ?_⟩
    · rw [hu] at hraises ⊢
      exact hraises
    · have hle := List.length_filter_le (fun x => !s.reached x 1000000) (s.pulse :: FMap.getD s.trs.repeats p [])
      rw [List.length_cons] at hle
      simp only [Bool.or_eq_true, decide_eq_true_eq] at hmany
      omega
  next hfew =>
    refine ⟨_, rfl, htries, hmem, fun hmany => absurd ?_ hfew, fun _ _ => by rw [hflt]⟩
    rw [decide_eq_true hmany, Bool.true_or]

end

end

end Sys2Proof.Machine
end

section
/-!
SUPPORT. What a read of memory returns depends on few pieces of the state (09 R271): states that agree in them read the same bytes.
-/
namespace Sys2Proof.Machine

/-- Two states hold the same bytes, Tallboys, free values and lost accesses, and spare rows at the same thresholds. -/
structure State.ReadsAs (s t : State) : Prop where
  mem : t.mem = s.mem
  tby : t.tby = s.tby
  fresh : t.fresh = s.fresh
  lost : t.lost = s.lost
  benches : t.benches = s.benches
  spare : ∀ k, t.rd (A.tbySpare k) = s.rd (A.tbySpare k)

section
variable {s t u s' t' : State}

theorem State.ReadsAs.refl (s : State) : s.ReadsAs s := ⟨rfl, rfl, rfl, rfl, rfl, fun _ => rfl⟩

theorem State.ReadsAs.symm (h : s.ReadsAs t) : t.ReadsAs s := ⟨h.mem.symm, h.tby.symm, h.fresh.symm, h.lost.symm, h.benches.symm, fun k => (h.spare k).symm⟩

theorem State.ReadsAs.trans (h : s.ReadsAs t) (k : t.ReadsAs u) : s.ReadsAs u :=
  ⟨k.mem.trans h.mem, k.tby.trans h.tby, k.fresh.trans h.fresh, k.lost.trans h.lost, k.benches.trans h.benches, fun i => (k.spare i).trans (h.spare i)⟩

/-- What each of two states does by itself, leaving alone what reads depend on, keeps them alike. -/
theorem State.ReadsAs.steps (h : s.ReadsAs t) (hs : s.ReadsAs s') (ht : t.ReadsAs t') : s'.ReadsAs t' := hs.symm.trans (h.trans ht)

theorem State.ReadsAs.stack (h : s.ReadsAs t) (k : Nat) : t.stack k = s.stack k := by rw [State.stack, h.tby, ← State.stack]

theorem State.ReadsAs.upsets (h : s.ReadsAs t) (cw : Nat) : t.upsets cw = s.upsets cw := by rw [State.upsets, h.stack, ← State.upsets]

theorem State.ReadsAs.placeOf (h : s.ReadsAs t) (cw : Nat) : t.placeOf cw = s.placeOf cw := by rw [State.placeOf, h.stack, ← State.placeOf]

theorem State.ReadsAs.modStack (h : s.ReadsAs t) (k : Nat) (f : Tby → Tby) : (s.modStack k f).ReadsAs (t.modStack k f) := by
  refine ⟨h.mem, ?_, h.fresh, h.lost, h.benches, h.spare⟩
  show FMap.set t.tby k (f (t.stack k)) = FMap.set s.tby k (f (s.stack k))
  rw [h.stack, h.tby]

theorem State.ReadsAs.putMem (h : s.ReadsAs t) (m : Memory) : (s.putMem m).ReadsAs (t.putMem m) := ⟨rfl, h.tby, h.fresh, h.lost, h.benches, h.spare⟩

/-- Registers other than the thresholds, and events, are not read. -/
theorem State.KeptAt.readsAs (h : s.KeptAt (fun a => ∃ k, a = A.tbySpare k) t) (hmem : t.mem = s.mem) (htby : t.tby = s.tby)
    (hfresh : t.fresh = s.fresh) (hlost : t.lost = s.lost) (hbenches : t.benches = s.benches) : s.ReadsAs t :=
  ⟨hmem, htby, hfresh, hlost, hbenches, fun k => h.rd _ ⟨k, rfl⟩⟩

theorem State.raise_readsAs (s : State) (code source : Nat) (pay : List Byte) : s.ReadsAs (s.raise code source pay) := by
  have hsame : s.Same (2 ^ Part.mem.idx + 2 ^ Part.tby.idx + 2 ^ Part.fresh.idx + 2 ^ Part.lost.idx + 2 ^ Part.benches.idx) (s.raise code source pay) :=
    State.raise_same rfl _ _ _ _ (.refl s)
  exact ((State.KeptAt.refl s).raise ..).readsAs (hsame.same .mem rfl) (hsame.same .tby rfl) (hsame.same .fresh rfl) (hsame.same .lost rfl)
    (hsame.same .benches rfl)

theorem State.ueFound_readsAs (s : State) (cw cls : Nat) (ae : Bool) : s.ReadsAs (s.ueFound cw cls ae) := by
  have hsame : s.Same (2 ^ Part.mem.idx + 2 ^ Part.tby.idx + 2 ^ Part.fresh.idx + 2 ^ Part.lost.idx + 2 ^ Part.benches.idx) (s.ueFound cw cls ae) :=
    State.ueFound_same rfl _ _ _ _ (.refl s)
  refine State.KeptAt.readsAs ?_ (hsame.same .mem rfl) (hsame.same .tby rfl) (hsame.same .fresh rfl) (hsame.same .lost rfl)
    (hsame.same .benches rfl)
  have hecc : ¬ ∃ k, A.tbyEcc (stackOf cw) = A.tbySpare k := by
    rintro ⟨k, h⟩
    simp only [A.tbyEcc, A.tbySpare] at h
    omega
  have herr : ¬ ∃ k, A.tbyErr (stackOf cw) = A.tbySpare k := by
    rintro ⟨k, h⟩
    simp only [A.tbyErr, A.tbySpare] at h
    omega
  have haddr : ¬ ∃ k, A.tbyErrAddr (stackOf cw) = A.tbySpare k := by
    rintro ⟨k, h⟩
    simp only [A.tbyErrAddr, A.tbySpare] at h
    omega
  exact s.ueFound_writes cw cls ae hecc herr haddr

theorem State.ReadsAs.ueFound (h : s.ReadsAs t) (cw cls : Nat) (ae : Bool) : (s.ueFound cw cls ae).ReadsAs (t.ueFound cw cls ae) :=
  h.steps (s.ueFound_readsAs ..) (t.ueFound_readsAs ..)

theorem State.ReadsAs.reserveCheck (h : s.ReadsAs t) (k layer pc cls : Nat) :
    (s.reserveCheck k layer pc cls).ReadsAs (t.reserveCheck k layer pc cls) := by
  unfold State.reserveCheck
  rw [h.stack]
  extract_lets x
  split
  · exact h
  · exact (h.modStack k _).steps (State.raise_readsAs ..) (State.raise_readsAs ..)

theorem State.ReadsAs.reserveFor (h : s.ReadsAs t) (k layer : Nat) :
    (s.reserveFor k layer).1.ReadsAs (t.reserveFor k layer).1 ∧ (t.reserveFor k layer).2 = (s.reserveFor k layer).2 := by
  unfold State.reserveFor
  rw [h.stack]
  extract_lets x num
  split
  · exact ⟨h, rfl⟩
  split
  · exact ⟨h, rfl⟩
  next l r _ =>
    refine ⟨⟨h.mem, h.tby, congrArg (· + 1) h.fresh, h.lost, h.benches, h.spare⟩, ?_⟩
    simp only [State.draw, h.fresh]

theorem State.ReadsAs.spareStart (h : s.ReadsAs t) (cw cls : Nat) : (s.spareStart cw cls).ReadsAs (t.spareStart cw cls) := by
  unfold State.spareStart
  generalize stackOf cw = k
  dsimp only
  rw [h.stack, h.placeOf]
  generalize s.placeOf cw = place
  obtain ⟨l, r⟩ := place
  dsimp only
  split
  · exact h
  obtain ⟨hfor, hnew⟩ := h.reserveFor k l
  generalize s.reserveFor k l = p at hfor hnew ⊢
  generalize t.reserveFor k l = q at hfor hnew ⊢
  obtain ⟨s1, new⟩ := p
  obtain ⟨t1, new'⟩ := q
  dsimp only at hfor hnew ⊢
  subst hnew
  split
  · exact hfor
  · exact (hfor.modStack k _).reserveCheck ..

/-- A corrected error is counted, and its codeword noted. -/
def State.ceNoted (s : State) (cw : Nat) : State :=
  let s := s.incSat (A.tbyEcc (stackOf cw)) F.tbyEcc.CE 1
  if (s.stack (stackOf cw)).ceCw.contains cw then s else s.modStack (stackOf cw) (fun x => { x with ceCw := cw :: x.ceCw })

theorem State.ceFound_eq (s : State) (cw cls : Nat) : s.ceFound cw cls =
    if countTrue (fun c => (s.ceNoted cw).placeOf c == (s.ceNoted cw).placeOf cw) ((s.ceNoted cw).stack (stackOf cw)).ceCw >
      (s.ceNoted cw).fld (A.tbySpare (stackOf cw)) F.tbySpare.ROWTH then (s.ceNoted cw).spareStart cw cls else s.ceNoted cw := rfl

theorem State.ReadsAs.ceNoted (h : s.ReadsAs t) (cw : Nat) : (s.ceNoted cw).ReadsAs (t.ceNoted cw) := by
  have hcounted : ∀ v : State, v.ReadsAs (v.incSat (A.tbyEcc (stackOf cw)) F.tbyEcc.CE 1) := fun v => by
    refine State.KeptAt.readsAs (State.KeptAt.incSat ?_ _ _ (.refl v)) rfl rfl rfl rfl rfl
    rintro ⟨k, h⟩
    simp only [A.tbyEcc, A.tbySpare] at h
    omega
  have h1 := h.steps (hcounted s) (hcounted t)
  unfold State.ceNoted
  dsimp only
  rw [h1.stack]
  split
  · exact h1
  · exact h1.modStack ..

theorem State.ReadsAs.ceFound (h : s.ReadsAs t) (cw cls : Nat) : (s.ceFound cw cls).ReadsAs (t.ceFound cw cls) := by
  have h2 := h.ceNoted cw
  rw [State.ceFound_eq, State.ceFound_eq]
  generalize s.ceNoted cw = s2 at h2
  generalize t.ceNoted cw = t2 at h2
  have hplace : (fun c => t2.placeOf c == t2.placeOf cw) = fun c => s2.placeOf c == s2.placeOf cw := by
    funext c
    rw [h2.placeOf, h2.placeOf]
  rw [hplace, h2.stack, State.fld_of_rd (h2.spare _)]
  split
  · exact h2.spareStart cw cls
  · exact h2

/-- How a codeword read goes on once both injections are used up: `x` is the stack before, `k` the free value of `INJ_CE`. -/
def State.cwDecode (s : State) (x : Tby) (k cw cls : Nat) : State × Bool :=
  let sym := if k % 36 < 32 then k % 36 else k % 36 + 2
  let flips := s.upsets cw ++ (if x.injCe then [(sym, k / 36 % 65535 + 1)] else [])
  if x.injUe then (s.ueFound cw cls false, false)
  else
    let stays := rsDecode (s.upsets cw)
    match rsDecode flips with
    | .addressError => (((s.modStack (stackOf cw) (fun x => { x with ue := if x.ue.contains cw then x.ue else cw :: x.ue })).ueFound cw cls
        true).spareStart cw cls, false)
    | .uncorrectable =>
      let s := if stays = .uncorrectable ∧ !x.ue.contains cw then s.modStack (stackOf cw) (fun x => { x with ue := cw :: x.ue }) else s
      ((s.ueFound cw cls false).spareStart cw cls, false)
    | r =>
      if x.ue.contains cw then ((s.ueFound cw cls false).spareStart cw cls, false)
      else match r with
        | .corrected fix =>
          let data := applyErrors (applyErrors (s.mem.read cw 64) flips) fix
          (((s.putMem (s.mem.write cw data)).cwClean cw).ceFound cw cls, true)
        | _ =>
          (if flips.isEmpty then s else (s.putMem (s.mem.write cw (applyErrors (s.mem.read cw 64) flips))).cwClean cw, true)

/-- The injections are used up by a read. -/
def State.injUsed (s : State) (k : Nat) : State :=
  if (s.stack k).injUe || (s.stack k).injCe then s.modStack k (fun x => { x with injUe := false, injCe := false }) else s

/-- The free value that `INJ_CE` takes. -/
def State.injDrawn (s : State) (x : Tby) : Nat × State := if x.injCe then s.draw (36 * 65535 - 1) else (0, s)

theorem State.cwRead_eq (s : State) (cw cls : Nat) : s.cwRead cw cls =
    ((s.injUsed (stackOf cw)).injDrawn (s.stack (stackOf cw))).2.cwDecode (s.stack (stackOf cw))
      ((s.injUsed (stackOf cw)).injDrawn (s.stack (stackOf cw))).1 cw cls := rfl

theorem State.ReadsAs.cwDecode (h : s.ReadsAs t) (x : Tby) (k cw cls : Nat) :
    (s.cwDecode x k cw cls).1.ReadsAs (t.cwDecode x k cw cls).1 ∧ (t.cwDecode x k cw cls).2 = (s.cwDecode x k cw cls).2 := by
  have hclean : ∀ m, ((s.putMem m).cwClean cw).ReadsAs ((t.putMem m).cwClean cw) := fun m => (h.putMem m).modStack ..
  unfold State.cwDecode
  rw [h.upsets, h.mem]
  extract_lets sym flips stays s1 t1
  have h1 : s1.ReadsAs t1 := by
    unfold s1 t1
    split
    · exact h.modStack ..
    · exact h
  split
  · exact ⟨h.ueFound .., rfl⟩
  split
  · exact ⟨((h.modStack ..).ueFound ..).spareStart .., rfl⟩
  · exact ⟨(h1.ueFound ..).spareStart .., rfl⟩
  split
  · exact ⟨(h.ueFound ..).spareStart .., rfl⟩
  split
  · exact ⟨(hclean _).ceFound .., rfl⟩
  · refine ⟨?_, rfl⟩
    dsimp only
    split
    · exact h
    · exact hclean _

theorem State.ReadsAs.cwRead (h : s.ReadsAs t) (cw cls : Nat) :
    (s.cwRead cw cls).1.ReadsAs (t.cwRead cw cls).1 ∧ (t.cwRead cw cls).2 = (s.cwRead cw cls).2 := by
  have hused : (s.injUsed (stackOf cw)).ReadsAs (t.injUsed (stackOf cw)) := by
    unfold State.injUsed
    rw [h.stack]
    split
    · exact h.modStack ..
    · exact h
  have hdrawn : ((s.injUsed (stackOf cw)).injDrawn (s.stack (stackOf cw))).2.ReadsAs
      ((t.injUsed (stackOf cw)).injDrawn (s.stack (stackOf cw))).2 ∧
      ((t.injUsed (stackOf cw)).injDrawn (s.stack (stackOf cw))).1 = ((s.injUsed (stackOf cw)).injDrawn (s.stack (stackOf cw))).1 := by
    unfold State.injDrawn
    split
    · exact ⟨⟨hused.mem, hused.tby, congrArg (· + 1) hused.fresh, hused.lost, hused.benches, hused.spare⟩, by rw [State.draw, State.draw, hused.fresh]⟩
    · exact ⟨hused, rfl⟩
  rw [State.cwRead_eq, State.cwRead_eq, h.stack, hdrawn.2]
  exact hdrawn.1.cwDecode ..

/-- Two states and what was gathered from each stay alike over a list. -/
theorem State.ReadsAs.foldl {α β : Type} {f : State × β → α → State × β}
    (hf : ∀ (s t : State) x b, s.ReadsAs t → (f (s, b) x).1.ReadsAs (f (t, b) x).1 ∧ (f (t, b) x).2 = (f (s, b) x).2) (l : List α) (b : β)
    (h : s.ReadsAs t) : (l.foldl f (s, b)).1.ReadsAs (l.foldl f (t, b)).1 ∧ (l.foldl f (t, b)).2 = (l.foldl f (s, b)).2 := by
  induction l generalizing s t b with
  | nil => exact ⟨h, rfl⟩
  | cons x l ih =>
    obtain ⟨hx, heq⟩ := hf s t x b h
    rw [List.foldl_cons, List.foldl_cons, ← Prod.mk.eta (p := f (t, b) x), ← Prod.mk.eta (p := f (s, b) x), heq]
    exact ih _ hx

/-- A codeword is read, and noted where it is bad. -/
def cwReadStep (cls : Nat) (p : State × List Nat) (cw : Nat) : State × List Nat :=
  let (s', ok) := p.1.cwRead cw cls
  (s', if ok then p.2 else cw :: p.2)

theorem State.tbyRead_eq (s : State) (cls ia n : Nat) : s.tbyRead cls ia n =
    (((cwsOf ia n).foldl (cwReadStep cls) (s, [])).1, (List.range n).map (fun i =>
      if ((cwsOf ia n).foldl (cwReadStep cls) (s, [])).2.contains (cwOf (ia + i)) then 0
      else ((cwsOf ia n).foldl (cwReadStep cls) (s, [])).1.mem.byte (ia + i)), ((cwsOf ia n).foldl (cwReadStep cls) (s, [])).2.isEmpty) := rfl

theorem State.ReadsAs.tbyRead (h : s.ReadsAs t) (cls ia n : Nat) :
    (s.tbyRead cls ia n).1.ReadsAs (t.tbyRead cls ia n).1 ∧ (t.tbyRead cls ia n).2 = (s.tbyRead cls ia n).2 := by
  obtain ⟨hread, hbad⟩ := h.foldl (f := cwReadStep cls) (fun s t cw b h => by
    obtain ⟨hr, hok⟩ := h.cwRead cw cls
    exact ⟨hr, by simp only [cwReadStep, hok]⟩) (cwsOf ia n) []
  rw [State.tbyRead_eq, State.tbyRead_eq, hbad, hread.mem]
  exact ⟨hread, rfl⟩

theorem State.ReadsAs.takeLost (h : s.ReadsAs t) (cls a : Nat) :
    (s.takeLost cls a).1.ReadsAs (t.takeLost cls a).1 ∧ (t.takeLost cls a).2 = (s.takeLost cls a).2 := by
  unfold State.takeLost
  rw [h.lost]
  split
  · exact ⟨⟨h.mem, h.tby, h.fresh, rfl, h.benches, h.spare⟩, rfl⟩
  · exact ⟨h, rfl⟩

/-- A piece of a read of memory. -/
def pieceRead (cls : Nat) (p : State × List Byte × Bool × Bool) (q : Nat × Nat) : State × List Byte × Bool × Bool :=
  let (s, acc, ok, psn) := p
  let (s, gone) := s.takeLost cls q.1
  if gone then (s, acc ++ leBytes q.2 0, false, psn)
  else match locOf q.1 with
    | .tby ia =>
      let (s', d, ok') := s.tbyRead cls ia q.2
      (s', acc ++ d, ok && ok', psn)
    | .shelf b off => (s, acc ++ s.shelfRead b off q.2, ok, psn || (s.poisoned b off q.2).isSome)
    | _ => (s, acc ++ leBytes q.2 0, ok, psn)

theorem State.memRead_eq (s : State) (cls a n : Nat) : s.memRead cls a n = (pieces a n).foldl (pieceRead cls) (s, [], true, false) := rfl

theorem State.ReadsAs.poisoned (h : s.ReadsAs t) (b off n : Nat) : t.poisoned b off n = s.poisoned b off n := by
  rw [State.poisoned, State.bench, h.benches, ← State.bench, ← State.poisoned]

theorem State.ReadsAs.pieceRead (h : s.ReadsAs t) (cls : Nat) (q : Nat × Nat) (b : List Byte × Bool × Bool) :
    (pieceRead cls (s, b) q).1.ReadsAs (pieceRead cls (t, b) q).1 ∧ (pieceRead cls (t, b) q).2 = (pieceRead cls (s, b) q).2 := by
  obtain ⟨acc, ok, psn⟩ := b
  obtain ⟨htake, hgone⟩ := h.takeLost cls q.1
  unfold Sys2Proof.Machine.pieceRead
  dsimp only
  rw [hgone]
  split
  · exact ⟨htake, rfl⟩
  split
  next ia _ =>
    obtain ⟨hread, hdata⟩ := htake.tbyRead cls ia q.2
    exact ⟨hread, by simp only [hdata]⟩
  · exact ⟨htake, by simp only [State.shelfRead, htake.mem, htake.poisoned]⟩
  · exact ⟨htake, rfl⟩

theorem State.ReadsAs.memRead (h : s.ReadsAs t) (cls a n : Nat) : (t.memRead cls a n).2 = (s.memRead cls a n).2 := by
  rw [State.memRead_eq, State.memRead_eq]
  exact (h.foldl (fun _ _ q b h => h.pieceRead cls q b) (pieces a n) ([], true, false)).2

/-- The slots of a group are those that the same bytes and the same tables name. -/
theorem State.ReadsAs.groupSlots (h : s.ReadsAs t) (hltab : t.rd (A.sbdLtab 0) = s.rd (A.sbdLtab 0)) (hgtab : t.rd A.trsGtab = s.rd A.trsGtab)
    (g : Nat) : t.groupSlots g = s.groupSlots g := by
  have hdesc : ∀ l, (t.readDesc l).2 = (s.readDesc l).2 := fun l => by
    show (t.memRead 3 _ 128).2.1 = (s.memRead 3 _ 128).2.1
    rw [h.memRead, State.fld_of_rd hltab]
  have hslot : ∀ l, t.slotGroup l = s.slotGroup l := fun l => by
    unfold State.slotGroup
    rw [h.memRead, State.fld_of_rd hgtab]
  have hcount : t.sbdCount = s.sbdCount := by rw [State.sbdCount, State.fld_of_rd hltab, ← State.sbdCount]
  unfold State.groupSlots
  rw [hcount]
  refine List.filterMap_congr fun l _ => ?_
  show (if (t.slotGroup l).1 = g ∧ g ≠ 0xFF ∧ udescOk (t.readDesc l).2 = true ∧ (udesc (t.readDesc l).2).outer = true then
    some (l, udesc (t.readDesc l).2) else none) = _
  rw [hslot, hdesc]

end

end Sys2Proof.Machine
end

section
/-!
SUPPORT. SNAPSHOT (12 R348, R349; 16 R456): what is skipped, and what begins.
-/
namespace Sys2Proof.Machine

section
variable {P : Nat → Prop}

theorem State.logPut_kept (hP : ∀ a, P a → offTallboys a) (s : State) (l : LogRegs) (size cls : Nat) (body : List Byte) (code : Option Nat)
    (source : Nat) (hctl : ¬ P l.ctl) (hstat : ¬ P l.stat) : s.KeptAt P (s.logPut l size cls body code source) := by
  unfold State.logPut
  extract_lets n head used seq s1 lost a s2
  have h1 : s.KeptAt P s1 := (State.KeptAt.refl s).of_same rfl rfl
  split
  · exact .refl s
  split
  · have hlost : s.KeptAt P lost := h1.incSat hstat ..
    split
    · exact hlost.raise ..
    · exact hlost
  · exact (h1.trans (State.memWrite_above hP ..)).setFld hctl ..

theorem State.applyLog_kept (hP : ∀ a, P a → offTallboys a) (s : State) (g kind m r count : Nat) (nf : Bool) (parts : List Nat)
    (hctl : ¬ P A.trsAlogCtl) (hstat : ¬ P A.trsAlogStat) : s.KeptAt P (s.applyLog g kind m r count nf parts) := by
  unfold State.applyLog State.logEntry64
  exact State.logPut_kept hP _ _ _ _ _ _ _ hctl hstat

theorem State.calMark_kept (s : State) (g : Nat) : s.KeptAt P (s.calMark g) := by
  have hsame : s.Same (2 ^ Part.regs.idx + 2 ^ Part.evt.idx) (s.calMark g) := State.calMark_same rfl _ _ (.refl s)
  exact (State.KeptAt.refl s).of_same (hsame.same .regs rfl) (hsame.same .evt rfl)

theorem State.lateStart_kept (s : State) (g action : Nat) (due : Int) (h : ¬ P A.trsStat) : s.KeptAt P (s.lateStart g action due) := by
  unfold State.lateStart
  extract_lets marked late
  have hmarked : s.KeptAt P marked := s.calMark_kept g
  split
  · exact (hmarked.incSat h ..).raise ..
  · exact hmarked

end

/-- A late start leaves alone what a read of memory depends on. -/
theorem State.lateStart_readsAs (s : State) (g action : Nat) (due : Int) : s.ReadsAs (s.lateStart g action due) := by
  have hsame : s.Same (2 ^ Part.mem.idx + 2 ^ Part.tby.idx + 2 ^ Part.fresh.idx + 2 ^ Part.lost.idx + 2 ^ Part.benches.idx)
      (s.lateStart g action due) := State.lateStart_same rfl _ _ _ _ (.refl s)
  refine (s.lateStart_kept g action due ?_).readsAs (hsame.same .mem rfl) (hsame.same .tby rfl) (hsame.same .fresh rfl)
    (hsame.same .lost rfl) (hsame.same .benches rfl)
  rintro ⟨k, h⟩
  simp only [A.trsStat, A.tbySpare] at h
  omega

theorem State.groupSlots_lateStart (s : State) (g action : Nat) (due : Int) (k : Nat) :
    (s.lateStart g action due).groupSlots k = s.groupSlots k :=
  (s.lateStart_readsAs g action due).groupSlots ((s.lateStart_kept (P := (· = A.sbdLtab 0)) g action due (by decide)).rd _ rfl)
    ((s.lateStart_kept (P := (· = A.trsGtab)) g action due (by decide)).rd _ rfl) k

/-! ### SNAPSHOT -/

section
variable {g : Fin 256} {s : State}

theorem State.turn_of_idle (s : State) (g action : Nat) (h : s.mayAct = false) : s.turn g action = true := by
  have hnone : s.actionDue g action = none := by
    rw [State.actionDue, h]
    rfl
  unfold State.turn
  rw [hnone]
  split
  next hsome => cases hsome
  next => rfl

/-- A skipped round is counted. -/
theorem State.skipRound_shown (s : State) (g n : Nat) (due : Int) : (s.skipRound g n due).trs = s.trs ∧
    (s.skipRound g n due).fld A.trsStat F.trsStat.OVERRUN = min (s.fld A.trsStat F.trsStat.OVERRUN + 1) 0xFFFF := by
  refine ⟨(State.skipRound_same (msk := 2 ^ Part.trs.idx) rfl s g n due (.refl s)).same .trs rfl, ?_⟩
  unfold State.skipRound
  extract_lets counted
  have hcounted : counted.fld A.trsStat F.trsStat.OVERRUN = min (s.fld A.trsStat F.trsStat.OVERRUN + 1) 0xFFFF := by
    refine (State.fld_of_rd (State.raise_rd ..) _).trans ?_
    rw [State.incSat, State.fld_setFld_same _ _ _ _ (by decide), satAdd]
    exact Nat.mod_eq_of_lt (Nat.lt_of_le_of_lt (Nat.min_le_right ..) (by decide))
  rw [(State.applyLog_kept (P := (· = A.trsStat)) (fun a ha => ha ▸ offTallboys_above (by decide)) _ _ _ _ _ _ _ _ (by decide)
    (by decide)).fld rfl, hcounted]

theorem execTrsSnapshot_apart (h : s.takesPart g = false) : exec (.trsSnapshot g) s = .next s := by
  refine if_pos ?_
  rw [h]
  rfl

theorem execTrsSnapshot_skips (htakes : s.takesPart g = true) (hinstall : (s.grp g).install = false) (hen : s.flag A.trsCtl F.trsCtl.EN = true)
    (hvalid : s.flag A.gtStat F.gtStat.VALID = true) (hdead : 2 ≤ s.flt.pipesDead.length) {r : Int}
    (hdue : s.dueRounds g ((s.calEntry g 1).getD 0) = some (r, 0)) (hphase : (s.grp g).phase ≠ .snapping) :
    ∃ t, exec (.trsSnapshot g) s = .next t ∧ (t.grp g).seen = some (round32 r) ∧ (t.grp g).round = (s.grp g).round ∧
      t.fld A.trsStat F.trsStat.OVERRUN = min (s.fld A.trsStat F.trsStat.OVERRUN + 1) 0xFFFF := by
  have hidle : s.mayAct = false := by
    rw [State.mayAct, decide_eq_false (by omega), Bool.and_false]
  have hturn : s.turn g 1 = true := s.turn_of_idle g 1 hidle
  obtain ⟨due, hdueAt⟩ : ∃ due, due = s.roundStart r + (s.calEntry g 1).getD 0 := ⟨_, rfl⟩
  obtain ⟨htrs, hoverrun⟩ := s.skipRound_shown g (round32 r) due
  refine ⟨(s.skipRound g (round32 r) due).modGrp g (fun x => { x with seen := some (round32 r) }), ?_, ?_, ?_, hoverrun⟩
  · show execTrsSnapshot g s = _
    have hall : (decide (s.flt.pipesDead.length ≥ 2) && s.flag A.trsCtl F.trsCtl.EN && s.flag A.gtStat F.gtStat.VALID) = true := by
      rw [decide_eq_true hdead, hen, hvalid]
      rfl
    unfold execTrsSnapshot
    simp only [htakes, hidle, hall, hturn, hinstall, hdue, Bool.not_true, Bool.or_true, Bool.or_false, Bool.false_eq_true, if_false,
      if_neg hphase, List.range_zero, List.foldl_nil, if_true, hdueAt]
  · rw [State.grp_modGrp_same]
  · rw [State.grp_modGrp_same, State.grp_of_groups (congrArg Trs.groups htrs)]

theorem execTrsSnapshot_waits (htakes : s.takesPart g = true) (hinstall : (s.grp g).install = false) (hact : s.mayAct = true)
    (hturn : s.turn g 1 = true) (hdue : s.dueRounds g ((s.calEntry g 1).getD 0) = none) : exec (.trsSnapshot g) s = .next s := by
  show execTrsSnapshot g s = _
  unfold execTrsSnapshot
  simp only [htakes, hact, hturn, hinstall, hdue, Bool.not_true, Bool.true_or, Bool.or_false, Bool.false_eq_true, if_false]

/-- A group whose snapshot of a round begins. -/
def Grp.begun (x : Grp) (slots : List Nat) (n now : Nat) : Grp :=
  { x with
    phase := if slots.isEmpty then .snapped else .snapping
    round := some n
    seen := some n
    todo := slots
    nf := false
    doneAt := now }

theorem State.beginSnap_shown (s : State) (g n : Nat) : ((s.beginSnap g n).grp g).round = some n ∧ ((s.beginSnap g n).grp g).seen = some n ∧
    ((s.beginSnap g n).grp g).todo = (s.groupSlots g).map (·.1) ∧
    ((s.beginSnap g n).grp g).phase = (if (s.groupSlots g).isEmpty then .snapped else .snapping) ∧ (s.beginSnap g n).mem = s.mem := by
  obtain ⟨u, hu⟩ : ∃ u, u = s.snapPartners n := ⟨_, rfl⟩
  have hgroups : (s.beginSnap g n).trs.groups = (u.modGrp g (fun x => x.begun ((s.groupSlots g).map (·.1)) n u.gtAbs)).trs.groups := by
    rw [hu]
    rfl
  rw [State.grp_of_groups hgroups, State.grp_modGrp_same]
  refine ⟨rfl, rfl, rfl, ?_, (State.beginSnap_same (msk := 2 ^ Part.mem.idx) rfl s g n (.refl s)).same .mem rfl⟩
  rw [Grp.begun, List.isEmpty_map]

theorem execTrsSnapshot_begins (htakes : s.takesPart g = true) (hinstall : (s.grp g).install = false) (hact : s.mayAct = true)
    (hturn : s.turn g 1 = true) {r : Int} (hdue : s.dueRounds g ((s.calEntry g 1).getD 0) = some (r, 0)) (hphase : (s.grp g).phase = .idle) :
    ∃ t, exec (.trsSnapshot g) s = .next t ∧
        (t.grp g).round = some (round32 r) ∧ (t.grp g).seen = some (round32 r) ∧ (t.grp g).todo = (s.groupSlots g).map (·.1) ∧
        (t.grp g).phase = (if (s.groupSlots g).isEmpty then .snapped else .snapping) ∧ t.mem = s.mem := by
  have hlive : (decide (s.flt.pipesDead.length ≥ 2) && s.flag A.trsCtl F.trsCtl.EN && s.flag A.gtStat F.gtStat.VALID) = false := by
    rw [State.mayAct, Bool.and_eq_true, decide_eq_true_eq] at hact
    rw [decide_eq_false (by omega), Bool.false_and, Bool.false_and]
  obtain ⟨due, hdueAt⟩ : ∃ due, due = s.roundStart r + (s.calEntry g 1).getD 0 := ⟨_, rfl⟩
  obtain ⟨hround, hseen, htodo, hphase', hmem⟩ := (s.lateStart g 1 due).beginSnap_shown g (round32 r)
  rw [s.groupSlots_lateStart] at htodo hphase'
  refine ⟨(s.lateStart g 1 due).beginSnap g (round32 r), ?_, hround, hseen, htodo, hphase', hmem.trans ?_⟩
  · show execTrsSnapshot g s = _
    unfold execTrsSnapshot
    simp only [htakes, hact, hlive, hturn, hinstall, hdue, Bool.not_true, Bool.or_false, Bool.false_eq_true, if_false,
      List.range_zero, List.foldl_nil, hphase, bne_self_eq_false, hdueAt, reduceCtorEq]
  · exact (State.lateStart_same (msk := 2 ^ Part.mem.idx) rfl s g 1 due (.refl s)).same .mem rfl

end

end Sys2Proof.Machine
end

section
/-!
SUPPORT. SEND (12 R349, R353 to R359, R365): what it does not touch, and what it starts.
-/
namespace Sys2Proof.Machine

section
variable {P : Nat → Prop}

theorem thirds_fst {α β γ : Type} (p : α × β × γ) : (thirds p).1 = p.1 := rfl

theorem State.nonFinite_kept (s : State) (tid idx : Nat) (hstat : ¬ P A.trsNfStat) (htid : ¬ P A.trsNfTid) (hidx : ¬ P A.trsNfIdx) :
    s.KeptAt P (s.nonFinite 0x80 tid idx) := by
  have hcounted : s.KeptAt P (s.incSat A.trsNfStat F.sbdNfStat.COUNT 1) := (State.KeptAt.refl s).incSat hstat ..
  unfold State.nonFinite
  simp only [if_true]
  split
  · exact hcounted
  · exact (((hcounted.hwSet hstat ..).setFld htid ..).setFld hidx ..).raise ..

section
variable (hP : ∀ a, P a → offTallboys a) (hstat : ¬ P A.trsNfStat) (htid : ¬ P A.trsNfTid) (hidx : ¬ P A.trsNfIdx)
include hP hstat htid hidx

theorem readDiffElem_kept (d : UDesc) (b c a : Nat) (q : State × List Nat × Bool) (x : Nat × Nat) :
    q.1.KeptAt P (readDiffElem d b c a q x).1 := by
  unfold readDiffElem
  split
  · exact (State.nonFinite_kept _ _ _ hstat htid hidx).trans (State.memWrite_above hP ..)
  · exact .refl _

theorem readDiffWord_kept (d : UDesc) (b base : Nat) (q : State × List Nat × Bool) (c : Nat) :
    q.1.KeptAt P (readDiffWord d b base q c).1 := by
  have hread : q.1.KeptAt P (q.1.memRead 4 (base + 64 * c) 64).1 := q.1.memRead_above hP ..
  unfold readDiffWord
  extract_lets a
  generalize q.1.memRead 4 a 64 = r at hread ⊢
  obtain ⟨u, l, ok, p⟩ := r
  dsimp only
  split
  · exact (hread.trans (State.memWrite_above hP ..)).raise ..
  · exact hread.trans (State.KeptAt.foldlFst (readDiffElem_kept hP hstat htid hidx d b c a) _ (u, q.2.1, q.2.2))

theorem State.readDiff_kept (s : State) (d : UDesc) (b : Nat) : s.KeptAt P (s.readDiff d b).1 := by
  unfold State.readDiff
  dsimp only
  split
  · exact .refl s
  · rw [thirds_fst]
    exact State.KeptAt.foldlFst (readDiffWord_kept (P := P) hP hstat htid hidx d b _) _ (s, [], false)

theorem State.diffBlock_kept (s : State) (slot cls tau step : Nat) (d : UDesc) (pair : Nat) :
    s.KeptAt P (s.diffBlock slot cls tau step d pair).1 := by
  have hfirst := State.readDiff_kept hP hstat htid hidx s d (d.first + 2 * pair)
  unfold State.diffBlock
  extract_lets b put
  generalize s.readDiff d (d.first + 2 * pair) = r at hfirst ⊢
  obtain ⟨u, x0, n0⟩ := r
  have hsecond := hfirst.trans (State.readDiff_kept hP hstat htid hidx u d (b + 1))
  dsimp only
  generalize u.readDiff d (b + 1) = r at hsecond ⊢
  obtain ⟨w, x1, n1⟩ := r
  dsimp only
  have hput : ∀ (v : State) k l, v.KeptAt P (put v k l) := by
    intro v k l
    show State.KeptAt P v (ite _ _ _)
    split
    · exact State.memWrite_above hP ..
    · exact .refl v
  split
  · exact hsecond
  · exact hsecond.trans ((hput ..).trans (hput ..))

theorem ownFrame_kept (tau n slot g : Nat) (d : UDesc) (a : State × List (List Byte × Bool)) (p : Nat) :
    a.1.KeptAt P (ownFrame tau n slot g d a p).1 := by
  have hblock := State.diffBlock_kept hP hstat htid hidx a.1 slot (a.1.slotGroup slot).2 tau (0x800000000000 + n) d p
  unfold ownFrame
  generalize a.1.diffBlock slot (a.1.slotGroup slot).2 tau (0x800000000000 + n) d p = r at hblock ⊢
  obtain ⟨u, r, nf⟩ := r
  dsimp only
  split
  · exact hblock.of_same rfl rfl
  · exact hblock

theorem State.ownFrames_kept (s : State) (g tau n : Nat) : s.KeptAt P (s.ownFrames g tau n).1 := by
  have hslot : ∀ (a : State × List (List Byte × Bool)) (q : Nat × UDesc),
      a.1.KeptAt P ((List.range ((q.2.nblk + 1) / 2)).foldl (ownFrame tau n q.1 g q.2) a).1 := fun a q =>
    State.KeptAt.foldlFst (ownFrame_kept hP hstat htid hidx tau n q.1 g q.2) _ a
  have hall := State.KeptAt.foldlFst hslot (s.groupSlots g) (s, [])
  rwa [State.ownFrames]

end

end

/-! ### SEND -/

/-- The site's own contribution to a round, made of its frames. -/
def ownContrib (site n g now : Nat) (frames : List (List Byte × Bool)) : Contrib :=
  ⟨site, n, g, ((List.range frames.length).zip frames).map (fun p => (p.1, p.2.1)), some (frames.length - 1), frames.any (·.2), some now,
    true, [], none, 0⟩

/-- The group's own contribution joins the others, and the group sends. -/
def State.sending (s : State) (g : Nat) (own : Contrib) : State :=
  (s.putTrs { s.trs with contribs := s.trs.contribs ++ [own] }).modGrp g (fun y => { y with phase := .sending })

section
variable {g : Fin 256} {s : State}

theorem execTrsSend_idle (h : s.calEntry g 2 = none ∨ s.mayAct = false ∨ (s.grp g).phase ≠ .snapped) :
    exec (.trsSend g) s = .next s := by
  show execTrsSend g s = _
  unfold execTrsSend
  extract_lets i x
  split
  · rfl
  next off hcal =>
    refine if_pos ?_
    obtain h | h | h := h
    · exact absurd (h.symm.trans hcal) nofun
    · simp [h]
    · have hne : (x.phase != .snapped) = true := bne_iff_ne.mpr h
      simp [hne]

/-- No group is in a phase. -/
theorem State.anyPhase_eq_false {p : GrpPhase} (h : ∀ y ∈ s.trs.groups, y.2.phase ≠ p) : s.anyPhase p = false :=
  List.any_eq_false.mpr fun y hy => by simpa using h y hy

/-- The group sends its own frames to its partners, their contribution kept. -/
def sendOwn (q : State × List (List Byte × Bool)) (g n : Nat) : State :=
  let frames := if q.2.isEmpty then [([], false)] else q.2
  let u := q.1.sending g (ownContrib q.1.site n g q.1.pulse frames)
  u.sendFrames (((List.range frames.length).zip frames).flatMap (fun p => (u.partners.filter (fun i => u.trades i g n)).map (fun i =>
    (⟨i, 0, p.1 + 1 == frames.length, p.2.2, n, g, p.1, p.1, p.2.1⟩ : OutFrame))))

/-- What a SEND starts from: the start noted, the group's fingerprints of the round before sent. -/
def State.sendStart (s : State) (g n : Nat) (due : Int) : State :=
  ((s.lateStart g 2 due).setFld A.trsStat F.trsStat.SENDING 1).sendPrints g ((n + 2 ^ 32 - 1) % 2 ^ 32)

theorem execTrsSend_eq {off : Nat} (hcal : s.calEntry g 2 = some off) (hgo : ¬ (!s.mayAct || (s.grp g).phase != .snapped ||
      decide ((s.gtAbs : Int) < s.nextInstant (s.grp g).doneAt off) || s.anyPhase .sending || !s.turn g 2) = true)
    {u : State} (hu : u = s.sendStart g ((s.grp g).round.getD 0) (s.nextInstant (s.grp g).doneAt off)) :
    exec (.trsSend g) s =
      .next (sendOwn (u.ownFrames g (u.gcfgWord g 0 % 2 ^ 32) ((s.grp g).round.getD 0)) g ((s.grp g).round.getD 0)) := by
  show execTrsSend g s = _
  unfold execTrsSend
  extract_lets i x
  split
  next hnone => exact absurd (hnone.symm.trans hcal) nofun
  next off' hcal' =>
    obtain rfl : off' = off := Option.some.inj (hcal'.symm.trans hcal)
    refine (if_neg hgo).trans ?_
    extract_lets late u' tau
    obtain rfl : u = u' := hu
    generalize u'.ownFrames i tau _ = q
    rfl

theorem State.sendStart_shown (s : State) (g n : Nat) (due : Int) : (s.sendStart g n due).site = s.site ∧
    (s.sendStart g n due).fld A.trsStat F.trsStat.SENDING = 1 := by
  have hfar := ((s.lateStart g 2 due).setFld A.trsStat F.trsStat.SENDING 1).sendPrints_far g ((n + 2 ^ 32 - 1) % 2 ^ 32)
  have hlate : s.KeptAt (· = A.trsSite) ((s.lateStart g 2 due).setFld A.trsStat F.trsStat.SENDING 1) :=
    (s.lateStart_kept g 2 due (by decide)).setFld (by decide) ..
  refine ⟨?_, (hfar.stat _ (by decide) (by decide)).trans (State.fld_setFld_same _ _ _ _ (by decide))⟩
  rw [State.site, State.sendStart, hfar.fld (farReg_above (by decide) (by decide) (by decide)), hlate.fld rfl, State.site]

/-- What is sent leaves the register of the site and SENDING alone, and the contribution stays. -/
theorem sendOwn_shown (q : State × List (List Byte × Bool)) (g n : Nat) : ((sendOwn q g n).grp g).phase = .sending ∧
    (sendOwn q g n).fld A.trsStat F.trsStat.SENDING = q.1.fld A.trsStat F.trsStat.SENDING ∧
    ∃ frames, ownContrib q.1.site n g q.1.pulse frames ∈ (sendOwn q g n).trs.contribs := by
  unfold sendOwn
  extract_lets frames u
  have hfar := fun l => u.sendFrames_far l
  refine ⟨?_, (hfar _).stat _ (by decide) (by decide), frames, ?_⟩
  · rw [(hfar _).grp]
    exact congrArg Grp.phase (State.grp_modGrp_same ..)
  · rw [(hfar _).contribs]
    exact List.mem_append_right _ List.mem_cons_self

theorem execTrsSend_sends {off : Nat} (hcal : s.calEntry g 2 = some off) (hact : s.mayAct = true) (hturn : s.turn g 2 = true)
    (hphase : (s.grp g).phase = .snapped) (hdue : s.nextInstant (s.grp g).doneAt off ≤ s.gtAbs)
    (hnone : ∀ y ∈ s.trs.groups, y.2.phase ≠ .sending) : ∃ t, exec (.trsSend g) s = .next t ∧ (t.grp g).phase = .sending ∧
      t.flag A.trsStat F.trsStat.SENDING = true ∧
      ∃ c ∈ t.trs.contribs, c.site = s.site ∧ c.group = g ∧ c.round = (s.grp g).round.getD 0 ∧ c.doneAt.isSome = true ∧ c.onTime = true := by
  have hgo : ¬ (!s.mayAct || (s.grp g).phase != .snapped || decide ((s.gtAbs : Int) < s.nextInstant (s.grp g).doneAt off) ||
      s.anyPhase .sending || !s.turn g 2) = true := by
    rw [hact, hphase, decide_eq_false (by omega), State.anyPhase_eq_false hnone, hturn]
    decide
  have heq := execTrsSend_eq hcal hgo rfl
  obtain ⟨hsite, hsending⟩ := s.sendStart_shown g ((s.grp g).round.getD 0) (s.nextInstant (s.grp g).doneAt off)
  generalize s.sendStart g _ _ = u at heq hsite hsending
  have hkept : u.KeptAt (fun a => a = A.trsSite ∨ a = A.trsStat) (u.ownFrames g (u.gcfgWord g 0 % 2 ^ 32) ((s.grp g).round.getD 0)).1 :=
    State.ownFrames_kept (fun a ha => by obtain rfl | rfl := ha <;> exact offTallboys_above (by decide)) (by decide) (by decide) (by decide) ..
  obtain ⟨hsent, hstat, frames, hmem⟩ :=
    sendOwn_shown (u.ownFrames g (u.gcfgWord g 0 % 2 ^ 32) ((s.grp g).round.getD 0)) g ((s.grp g).round.getD 0)
  refine ⟨_, heq, hsent, State.flag_of_one ?_, _, hmem, ?_, rfl, rfl, rfl, rfl⟩
  · rw [hstat, hkept.fld (.inr rfl), hsending]
  · rw [ownContrib, State.site, hkept.fld (.inl rfl), ← State.site, hsite]

end

end Sys2Proof.Machine
end

section
/-!
SUPPORT. CLOSE (12 R349, R366; 13 R383, R384): the contributions on time are named, votes decided, blocks reconciled.
-/
namespace Sys2Proof.Machine

section
variable {g : Fin 256} {s : State}

theorem State.foldl_contribs {α : Type} {f : State → α → State} (hf : ∀ s x, (f s x).trs.contribs = s.trs.contribs) (l : List α) (s : State) :
    (l.foldl f s).trs.contribs = s.trs.contribs := by
  induction l generalizing s with
  | nil => rfl
  | cons x l ih => exact (ih _).trans (hf s x)

theorem State.startXfer_contribs (s : State) (kind g slot part : Nat) (fp : Option (Nat × Nat)) (voters : Nat) :
    (s.startXfer kind g slot part fp voters).trs.contribs = s.trs.contribs := by
  unfold State.startXfer
  split
  · rfl
  · exact (State.askXfer_far ..).contribs

theorem State.decideVotes_contribs (s : State) (g m : Nat) : (s.decideVotes g m).trs.contribs = s.trs.contribs := by
  have hevent : ∀ (u : State) code pay, (u.trsEvent code pay).trs.contribs = u.trs.contribs := fun u code pay =>
    congrArg Trs.contribs (u.raise_trs ..)
  unfold State.decideVotes
  split
  · rfl
  · refine State.foldl_contribs (fun u q => ?_) _ s
    extract_lets own votes voters score low best v
    have hnoted : v.trs.contribs = u.trs.contribs := hevent ..
    split
    · rfl
    split
    · rfl
    split
    · split
      · exact (State.startXfer_contribs ..).trans hnoted
      · exact hnoted
    · exact hnoted

theorem State.reconcile_contribs (s : State) (g m : Nat) : (s.reconcile g m).trs.contribs = s.trs.contribs := by
  unfold State.reconcile
  extract_lets k
  split
  · rfl
  · refine State.foldl_contribs (fun u q => ?_) _ s
    split
    · rfl
    split
    · exact State.startXfer_contribs ..
    · rfl

theorem execTrsClose_idle (h : s.mayAct = false ∨ (s.grp g).phase ≠ .sent) : exec (.trsClose g) s = .next s := by
  refine if_pos ?_
  obtain h | h := h
  · simp [h]
  · have hne : ((s.grp g).phase != .sent) = true := bne_iff_ne.mpr h
    simp [hne]

/-- A contribution that closes with its round is on time. -/
def Contrib.timed (c : Contrib) (g n : Nat) : Contrib :=
  if c.group == g && c.round == n && c.doneAt.isSome then { c with onTime := true } else c

/-- The contributions of a group's round are named on time, and its votes decided. -/
def State.closeVotes (s : State) (g n : Nat) : State :=
  let s := s.putTrs { s.trs with contribs := s.trs.contribs.map (·.timed g n) }
  let m := (n + 2 ^ 32 - 1) % 2 ^ 32
  let s := (s.decideVotes g m).reconcile g m
  s.putTrs { s.trs with votes := s.trs.votes.filter (fun v => !(v.group == g && (v.round == m || serialGt 32 m v.round))) }

theorem State.closeVotes_contribs (s : State) (g n : Nat) : (s.closeVotes g n).trs.contribs = s.trs.contribs.map (·.timed g n) := by
  unfold State.closeVotes
  extract_lets src marked m settled src'
  have hsettled : settled.trs.contribs = marked.trs.contribs := (State.reconcile_contribs ..).trans (State.decideVotes_contribs ..)
  clear_value settled
  exact hsettled

theorem State.closeVotes_same {msk : Nat} {was : State} (hfree : msk &&& 3221259265 = 0) (s : State) (g n : Nat) (hs : was.Same msk s) :
    was.Same msk (s.closeVotes g n) := by
  unfold State.closeVotes
  conv => zeta
  with_reducible repeat' first
    | assumption | exact free_mono hfree rfl | apply State.putTrs_same | apply State.decideVotes_same | apply State.reconcile_same

/-- The instant at which a group closes. -/
def State.closeAt (s : State) (g : Nat) : Int :=
  if s.flag A.trsCtl F.trsCtl.GAUTO then ((s.grp g).ts + s.fld A.trsDelay F.trsDelay.DMAX * 1500 + 2000000 : Nat)
  else s.nextInstant (s.grp g).ts ((s.calEntry g 3).getD 0)

theorem execTrsClose_eq (hgo : ¬ (!s.mayAct || (s.grp g).phase != .sent || decide ((s.gtAbs : Int) < s.closeAt g) || !s.turn g 3) = true)
    {u : State} (hu : u = if s.flag A.trsCtl F.trsCtl.GAUTO then s.calMark g else s.lateStart g 3 (s.closeAt g)) :
    exec (.trsClose g) s = .next ((u.closeVotes g ((s.grp g).round.getD 0)).modGrp g
      (fun x => { x with phase := .closed, doneAt := (u.closeVotes g ((s.grp g).round.getD 0)).gtAbs })) := by
  show execTrsClose g s = _
  unfold execTrsClose
  extract_lets i x auto due n started src marked m voted src' last
  obtain rfl : u = started := hu
  have hlast : last = started.closeVotes i n := rfl
  clear_value last
  rw [hlast]
  exact if_neg hgo

/-- A group set by itself takes its turn whatever the calendar says. -/
theorem State.turn_of_gauto (s : State) (g : Nat) (h : s.flag A.trsCtl F.trsCtl.GAUTO = true) : s.turn g 3 = true := by
  have hnone : s.actionDue g 3 = none := by
    rw [State.actionDue]
    split
    · rfl
    · cases s.calEntry g 3 with
      | none => rfl
      | some off => exact if_pos (by rw [h, Bool.or_true])
  unfold State.turn
  rw [hnone]
  split
  next hsome => cases hsome
  next => rfl

theorem execTrsClose_closes (hact : s.mayAct = true) (hphase : (s.grp g).phase = .sent)
    (hdue : (s.flag A.trsCtl F.trsCtl.GAUTO = true ∧ (s.grp g).ts + s.fld A.trsDelay F.trsDelay.DMAX * 1500 + 2000000 ≤ s.gtAbs) ∨
      (s.flag A.trsCtl F.trsCtl.GAUTO = false ∧ s.turn g 3 = true ∧
        s.nextInstant (s.grp g).ts ((s.calEntry g 3).getD 0) ≤ s.gtAbs)) :
    ∃ t, exec (.trsClose g) s = .next t ∧ (t.grp g).phase = .closed ∧ (t.grp g).doneAt = s.gtAbs ∧ t.mem = s.mem ∧
      ∀ c ∈ s.trs.contribs, c.group = g → c.round = (s.grp g).round.getD 0 → c.doneAt.isSome = true →
        { c with onTime := true } ∈ t.trs.contribs := by
  obtain ⟨hturn, hat⟩ : s.turn g 3 = true ∧ s.closeAt g ≤ s.gtAbs := by
    obtain ⟨hauto, hdue⟩ | ⟨hauto, hturn, hdue⟩ := hdue
    · rw [State.closeAt, if_pos hauto]
      exact ⟨s.turn_of_gauto g hauto, Int.ofNat_le.mpr hdue⟩
    · rw [State.closeAt, if_neg (by rw [hauto]; decide)]
      exact ⟨hturn, hdue⟩
  have hgo : ¬ (!s.mayAct || (s.grp g).phase != .sent || decide ((s.gtAbs : Int) < s.closeAt g) || !s.turn g 3) = true := by
    rw [hact, hphase, decide_eq_false (by omega), hturn]
    decide
  obtain ⟨u, hu⟩ : ∃ u, u = if s.flag A.trsCtl F.trsCtl.GAUTO then s.calMark g else s.lateStart g 3 (s.closeAt g) := ⟨_, rfl⟩
  have heq := execTrsClose_eq hgo hu
  have hsame : s.Same (2 ^ Part.mem.idx + 2 ^ Part.gt.idx) (u.closeVotes g ((s.grp g).round.getD 0)) := by
    refine State.closeVotes_same rfl u _ _ ?_
    rw [hu]
    split
    · exact State.calMark_same rfl s g (.refl s)
    · exact State.lateStart_same rfl s g 3 _ (.refl s)
  have hcontribs : u.trs.contribs = s.trs.contribs := by
    have h : s.Same (2 ^ Part.trs.idx) u := by
      rw [hu]
      split
      · exact State.calMark_same rfl s g (.refl s)
      · exact State.lateStart_same rfl s g 3 _ (.refl s)
    rw [h.same .trs rfl]
  have htimed := (u.closeVotes_contribs g ((s.grp g).round.getD 0)).trans (congrArg _ hcontribs)
  generalize u.closeVotes g ((s.grp g).round.getD 0) = w at heq hsame htimed
  have hgt : w.gtAbs = s.gtAbs := by rw [State.gtAbs, hsame.same .gt rfl, State.gtAbs]
  have hgrp := w.grp_modGrp_same g (fun x => { x with phase := .closed, doneAt := w.gtAbs })
  refine ⟨_, heq, congrArg Grp.phase hgrp, (congrArg Grp.doneAt hgrp).trans hgt, hsame.same .mem rfl, fun c hc hgroup hround hdone => ?_⟩
  show _ ∈ w.trs.contribs
  rw [htimed]
  refine List.mem_map.mpr ⟨c, hc, ?_⟩
  rw [Contrib.timed, hgroup, hround, hdone, beq_self_eq_true, beq_self_eq_true]
  rfl

end

end Sys2Proof.Machine
end

section
/-!
SUPPORT. What ends a partner's reunion, a contribution or a frame to send leaves of the groups (12 R367 to R370; 13 R387, R391).
-/
namespace Sys2Proof.Machine

/-- Contributions were dropped, reunions ended or frames sent: the groups, the transfers and whether a group applies are as before. -/
structure State.Trims (s t : State) : Prop where
  applying : t.fld A.trsStat F.trsStat.APPLYING = s.fld A.trsStat F.trsStat.APPLYING
  groups : t.trs.groups = s.trs.groups
  xfers : t.trs.xfers = s.trs.xfers
  contribs : ∀ c ∈ t.trs.contribs, c ∈ s.trs.contribs

section
variable {s t u : State}

theorem State.Trims.refl (s : State) : s.Trims s := ⟨rfl, rfl, rfl, fun _ h => h⟩

theorem State.Trims.trans (h : s.Trims t) (k : t.Trims u) : s.Trims u :=
  ⟨k.applying.trans h.applying, k.groups.trans h.groups, k.xfers.trans h.xfers, fun c hc => h.contribs c (k.contribs c hc)⟩

theorem State.Trims.of_far (h : s.FarKept t) : s.Trims t :=
  ⟨h.stat _ (by decide) (by decide), by rw [h.trs], h.xfers, fun c hc => h.contribs ▸ hc⟩

theorem State.Trims.of_kept (hkept : s.KeptAt (· = A.trsStat) t) (htrs : t.trs = s.trs) : s.Trims t :=
  ⟨hkept.fld rfl _, congrArg _ htrs, congrArg _ htrs, fun _ hc => htrs ▸ hc⟩

/-- What the Trestle holds changes elsewhere. -/
theorem State.Trims.putTrs (h : s.Trims t) (x : Trs) (hgroups : x.groups = t.trs.groups) (hxfers : x.xfers = t.trs.xfers)
    (hcontribs : ∀ c ∈ x.contribs, c ∈ t.trs.contribs) : s.Trims (t.putTrs x) :=
  h.trans ⟨rfl, hgroups, hxfers, hcontribs⟩

theorem State.Trims.modPart (h : s.Trims t) (i : Nat) (f : Partner → Partner) : s.Trims (t.modPart i f) :=
  h.putTrs _ rfl rfl (fun _ h => h)

theorem State.Trims.setFld (h : s.Trims t) {a : Nat} (ha : a ≠ A.trsStat) (f : Fld) (x : Nat) : s.Trims (t.setFld a f x) :=
  h.trans ⟨State.fld_setFld_ne _ _ _ _ ha.symm, rfl, rfl, fun _ hc => hc⟩

theorem State.Trims.trsEvent (h : s.Trims t) (code : Nat) (pay : List Byte) : s.Trims (t.trsEvent code pay) :=
  h.trans (.of_kept ((State.KeptAt.refl t).raise ..) (State.raise_trs ..))

theorem State.Trims.foldl {α : Type} {f : State → α → State} (hf : ∀ (s : State) x, s.Trims (f s x)) (l : List α) (s : State) :
    s.Trims (l.foldl f s) := by
  induction l generalizing s with
  | nil => exact .refl s
  | cons x l ih => exact (hf s x).trans (ih _)

theorem rstat_ne (i : Nat) : A.trsRstat i ≠ A.trsStat := by
  simp only [A.trsRstat, A.trsStat]
  omega

theorem State.abandon_trims (s : State) (i : Nat) : s.Trims (s.abandon i) :=
  ((((State.Trims.refl s).setFld (rstat_ne i) ..).trsEvent ..).modPart ..).putTrs _ rfl rfl (fun _ h => h)

theorem State.freeContrib_trims (s : State) (c : Contrib) : s.Trims (s.freeContrib c) :=
  (State.Trims.refl s).putTrs _ rfl rfl (fun _ h => (List.mem_filter.mp h).1)

theorem State.applyLog_trims (s : State) (g kind m r count : Nat) (nf : Bool) (parts : List Nat) :
    s.Trims (s.applyLog g kind m r count nf parts) :=
  .of_kept (State.applyLog_kept (P := (· = A.trsStat)) (fun a ha => ha ▸ offTallboys_above (by decide)) _ _ _ _ _ _ _ _ (by decide) (by decide))
    ((State.applyLog_same (msk := 2 ^ Part.trs.idx) rfl s g kind m r count nf parts (.refl s)).same .trs rfl)

theorem State.dropContrib_trims (s : State) (c : Contrib) (m reason : Nat) : s.Trims (s.dropContrib c m reason) :=
  ((s.freeContrib_trims c).trsEvent ..).trans (State.applyLog_trims ..)

/-- The partners whose reunion is abandoned at an APPLY, what they sent of the round dropped. -/
def State.reunionsLost (s : State) (g m : Nat) (lost : List Nat) : State :=
  lost.foldl (fun s i =>
    (s.trs.contribs.filter (fun c => c.group == g && c.round == m && c.site == s.partSite i)).foldl (fun s c => s.dropContrib c m 1) s)
    (lost.foldl (fun s i => s.abandon i) s)

theorem State.reunionsLost_trims (s : State) (g m : Nat) (lost : List Nat) : s.Trims (s.reunionsLost g m lost) :=
  (State.Trims.foldl (fun u i => u.abandon_trims i) lost s).trans
    (State.Trims.foldl (fun _ _ => State.Trims.foldl (fun v c => v.dropContrib_trims c m 1) _ _) lost _)

theorem State.reunions_trims (s : State) (g m : Nat) : s.Trims (s.reunions g m).1 := by
  have hlost := s.reunionsLost_trims g m
  unfold State.reunions
  extract_lets mine dec lost abandoned dropped rest
  have hdropped : s.Trims dropped := hlost lost
  clear_value dropped
  split
  · exact hdropped
  split
  · exact hdropped
  split
  · split
    · exact hdropped
    · exact hdropped
  · exact hdropped

theorem part2_ne_stat (i : Nat) : A.trsPart2 i ≠ A.trsStat := by
  simp only [A.trsPart2, A.trsStat]
  omega

theorem State.partEnter_trims (s : State) (i new cause : Nat) : s.Trims (s.partEnter i new cause) := by
  refine .of_kept (s.partEnter_kept new cause (part2_ne_stat i)) ?_
  exact (State.partEnter_same (msk := 2 ^ Part.trs.idx) rfl s i new cause (.refl s)).same .trs rfl

theorem State.reunited_trims (s : State) (g m : Nat) : s.Trims (s.reunited g m) := by
  unfold State.reunited
  refine State.Trims.foldl (fun u i => ?_) _ s
  extract_lets applied a phased told ended
  have happlied : u.Trims applied := (State.Trims.refl u).modPart ..
  split
  · have hended : u.Trims ended := ((happlied.setFld (rstat_ne i) ..).trsEvent ..).modPart ..
    have hput : u.Trims (ended.putTrs { ended.trs with deltas := ended.trs.deltas.filter (fun d => d.part != i) }) :=
      hended.putTrs _ rfl rfl (fun _ h => h)
    exact (hput.trans (State.partEnter_trims ..)).setFld (by decide) ..
  · exact happlied

theorem State.sendJoin_trims (s : State) (i g : Nat) : s.Trims (s.sendJoin i g) := by
  unfold State.sendJoin
  split
  · exact .refl s
  · extract_lets asked last
    refine ((State.Trims.refl s).modPart ..).trans (State.Trims.foldl (fun u q => ?_) _ _)
    exact ((State.Trims.of_far (u.sendDeltas_far ..)).trans (.of_far (State.sendDeltas_far ..))).trans (.of_far (State.sendEnd_far ..))

end

end Sys2Proof.Machine
end

section
/-!
SUPPORT. APPLY (12 R349, R367 to R370; 13 R391): what an APPLY takes, and what its end leaves.
-/
namespace Sys2Proof.Machine

section
variable {g : Fin 256} {s : State}

/-! ### An APPLY begins -/

theorem execTrsApply_idle (l : List (Nat × Nat)) (h : s.calEntry g 4 = none ∨ s.mayAct = false ∨ (s.grp g).phase ≠ .closed) :
    exec (.trsApply g l) s = .next s := by
  show execTrsApply g l s = _
  unfold execTrsApply
  extract_lets i x
  split
  · rfl
  next off hcal =>
    refine if_pos ?_
    obtain h | h | h := h
    · exact absurd (h.symm.trans hcal) nofun
    · simp [h]
    · have hne : (x.phase != .closed) = true := bne_iff_ne.mpr h
      simp [hne]

/-- The APPLY of a group is under way, the transfers of the group dropped (13 R387). -/
def State.applyStart (s : State) (g : Nat) (due : Int) : State :=
  let s := (s.lateStart g 4 due).setFld A.trsStat F.trsStat.APPLYING 1
  (s.trs.xfers.filter (fun y => y.group == g)).foldl (fun s y => s.dropXfer y) s

/-- A contribution is fit to be used in an APPLY (12 R367). -/
def fitFor (law : OuterLaw) (g m : Nat) (re : Option Reunite) (s : State) (c : Contrib) : Bool :=
  c.group == g && c.doneAt.isSome &&
    ((c.round == m && c.onTime) ||
      (decide (1 ≤ age m c.round) && decide (age m c.round ≤ law.bound) && re.isNone && c.site != s.site && !c.onTime))

/-- The contributions that cannot be read are dropped (12 R368). -/
def State.dropUnread (s : State) (fit : State → Contrib → Bool) (unread : List (Nat × Nat)) (m : Nat) : State :=
  (s.trs.contribs.filter (fit s)).foldl (fun s c =>
    if c.site != s.site && (unread.contains (c.site, c.round) || !s.decodes c) then s.dropContrib c m 2 else s) s

/-- The contributions that an APPLY uses, with their weights, in the order of sites and rounds. -/
def State.usesOf (s : State) (fit : State → Contrib → Bool) (m : Nat) : List TrsUse :=
  ((s.trs.contribs.filter (fit s)).map (fun c => (⟨c.site, c.round, f32mul (s.weightOf c.site)
    (lamPow (s.fld A.trsLate F.trsLate.LAMBDA) (age m c.round))⟩ : TrsUse))).mergeSort
      (fun a b => decide (a.site < b.site) || (a.site == b.site && !serialGt 32 a.round b.round))

/-- The group applies, by the law given and with the contributions of the state. -/
def State.applies (s : State) (fit : State → Contrib → Bool) (g m : Nat) (re : Option Reunite) (law : OuterLaw) : State :=
  s.modGrp g (fun y => { y with
    phase := .applying
    todo := (s.groupSlots g).map (·.1)
    appRound := m
    uses := s.usesOf fit m
    reunite := re
    law := some law
    nf := y.nf || (s.trs.contribs.filter (fit s)).any (·.nf) })

theorem execTrsApply_eq {off : Nat} {l : List (Nat × Nat)} (hcal : s.calEntry g 4 = some off) (hgo : ¬ (!s.mayAct || (s.grp g).phase != .closed ||
      decide ((s.gtAbs : Int) < s.nextInstant (s.grp g).doneAt off) || s.anyPhase .applying || !s.turn g 4) = true)
    {u : State} (hu : u = s.applyStart g (s.nextInstant (s.grp g).doneAt off)) {m : Nat} (hm : m = (s.grp g).round.getD 0)
    {q : State × Option Reunite} (hq : q = u.reunions g m) :
    exec (.trsApply g l) s = .next ((q.1.dropUnread (fitFor s.outerLaw g m q.2) l m).applies (fitFor s.outerLaw g m q.2) g m q.2 s.outerLaw) := by
  show execTrsApply g l s = _
  unfold execTrsApply
  extract_lets i x m' law
  split
  next hnone => exact absurd (hnone.symm.trans hcal) nofun
  next off' hcal' =>
    obtain rfl : off' = off := Option.some.inj (hcal'.symm.trans hcal)
    refine (if_neg hgo).trans ?_
    extract_lets started trimmed
    obtain rfl : m = m' := hm
    obtain rfl : u = trimmed := hu
    clear_value trimmed
    rw [← hq]
    clear hq
    rfl

theorem foldl_dropXfer (l : List Xfer) (v : State) : (l.foldl (fun s y => s.dropXfer y) v).regs = v.regs ∧
    (l.foldl (fun s y => s.dropXfer y) v).trs.contribs = v.trs.contribs ∧
    ∀ y ∈ (l.foldl (fun s y => s.dropXfer y) v).trs.xfers, y ∈ v.trs.xfers ∧ y ∉ l := by
  induction l generalizing v with
  | nil => exact ⟨rfl, rfl, fun y hy => ⟨hy, List.not_mem_nil⟩⟩
  | cons x l ih =>
    obtain ⟨hregs, hcontribs, hxfers⟩ := ih (v.dropXfer x)
    refine ⟨hregs, hcontribs, fun y hy => ?_⟩
    obtain ⟨hleft, hl⟩ := hxfers y hy
    obtain ⟨hv, hx⟩ := List.mem_filter.mp hleft
    refine ⟨hv, fun h => ?_⟩
    obtain rfl | h := List.mem_cons.mp h
    · simp at hx
    · exact hl h

/-- No transfer of the group is left at its APPLY; the rest of the Trestle is as before. -/
theorem State.applyStart_shown (s : State) (g : Nat) (due : Int) : (s.applyStart g due).fld A.trsStat F.trsStat.APPLYING = 1 ∧
    (s.applyStart g due).trs.contribs = s.trs.contribs ∧ ∀ y ∈ (s.applyStart g due).trs.xfers, y.group ≠ g := by
  obtain ⟨u, hu⟩ : ∃ u, u = (s.lateStart g 4 due).setFld A.trsStat F.trsStat.APPLYING 1 := ⟨_, rfl⟩
  have happlying : u.fld A.trsStat F.trsStat.APPLYING = 1 := hu ▸ State.fld_setFld_same _ _ _ _ (by decide)
  have htrs : u.trs = s.trs := hu ▸ (State.lateStart_same (msk := 2 ^ Part.trs.idx) rfl s g 4 due (.refl s)).same .trs rfl
  rw [State.applyStart, ← hu]
  obtain ⟨hregs, hcontribs, hxfers⟩ := foldl_dropXfer (u.trs.xfers.filter (fun y => y.group == g)) u
  refine ⟨(State.fld_of_rd (State.rd_of_regs hregs _) _).trans happlying, hcontribs.trans (congrArg _ htrs), fun y hy hgroup => ?_⟩
  obtain ⟨hy, hl⟩ := hxfers y hy
  exact hl (List.mem_filter.mpr ⟨hy, by rw [hgroup, beq_self_eq_true]⟩)

theorem State.dropUnread_trims (s : State) (fit : State → Contrib → Bool) (unread : List (Nat × Nat)) (m : Nat) :
    s.Trims (s.dropUnread fit unread m) := by
  refine State.Trims.foldl (fun u c => ?_) _ s
  split
  · exact u.dropContrib_trims ..
  · exact .refl u

/-- Each use is of a contribution that is there and fit. -/
theorem State.usesOf_mem {s : State} {fit : State → Contrib → Bool} {m : Nat} {y : TrsUse} (h : y ∈ s.usesOf fit m) :
    ∃ c ∈ s.trs.contribs, c.site = y.site ∧ c.round = y.round ∧ fit s c = true := by
  obtain ⟨c, hc, rfl⟩ := List.mem_map.mp (List.mem_mergeSort.mp h)
  obtain ⟨hc, hfit⟩ := List.mem_filter.mp hc
  exact ⟨c, hc, rfl, rfl, hfit⟩

theorem execTrsApply_applies {off : Nat} {l : List (Nat × Nat)} (hcal : s.calEntry g 4 = some off) (hact : s.mayAct = true)
    (hturn : s.turn g 4 = true) (hphase : (s.grp g).phase = .closed) (hdue : s.nextInstant (s.grp g).doneAt off ≤ s.gtAbs)
    (hnone : ∀ y ∈ s.trs.groups, y.2.phase ≠ .applying) : ∃ t, exec (.trsApply g l) s = .next t ∧ (t.grp g).phase = .applying ∧
      t.flag A.trsStat F.trsStat.APPLYING = true ∧ (t.grp g).appRound = (s.grp g).round.getD 0 ∧
      (∀ y ∈ t.trs.xfers, y.group ≠ g) ∧ (t.grp g).law = some s.outerLaw ∧
      ∀ u ∈ (t.grp g).uses, ∃ c ∈ s.trs.contribs, c.site = u.site ∧ c.round = u.round ∧ c.group = g ∧ c.doneAt.isSome = true := by
  have hgo : ¬ (!s.mayAct || (s.grp g).phase != .closed || decide ((s.gtAbs : Int) < s.nextInstant (s.grp g).doneAt off) ||
      s.anyPhase .applying || !s.turn g 4) = true := by
    rw [hact, hphase, decide_eq_false (by omega), State.anyPhase_eq_false hnone, hturn]
    decide
  obtain ⟨m, hm⟩ : ∃ m, m = (s.grp g).round.getD 0 := ⟨_, rfl⟩
  obtain ⟨happlying, hcontribs, hxfers⟩ := s.applyStart_shown g (s.nextInstant (s.grp g).doneAt off)
  obtain ⟨u, hu⟩ : ∃ u, u = s.applyStart g (s.nextInstant (s.grp g).doneAt off) := ⟨_, rfl⟩
  rw [← hu] at happlying hcontribs hxfers
  have htrims := u.reunions_trims g m
  obtain ⟨q, hq⟩ : ∃ q, q = u.reunions g m := ⟨_, rfl⟩
  rw [← hq] at htrims
  have heq := execTrsApply_eq (l := l) hcal hgo hu hm hq
  replace htrims := htrims.trans (q.1.dropUnread_trims (fitFor s.outerLaw g m q.2) l m)
  generalize q.1.dropUnread (fitFor s.outerLaw g m q.2) l m = v at heq htrims
  obtain ⟨happ, -, hx, hc⟩ := htrims
  have hgrp : (v.applies (fitFor s.outerLaw g m q.2) g m q.2 s.outerLaw).grp g = _ := State.grp_modGrp_same ..
  refine ⟨_, heq, ?_, State.flag_of_one (happ.trans happlying), ?_, fun y hy => hxfers y (hx ▸ hy), ?_, fun y hy => ?_⟩
  · rw [hgrp]
  · rw [hgrp, hm]
  · rw [hgrp]
  · rw [hgrp] at hy
    obtain ⟨c, hmem, hsite, hround, hfit⟩ := State.usesOf_mem hy
    rw [fitFor, Bool.and_eq_true, Bool.and_eq_true] at hfit
    obtain ⟨⟨hgroup, hdone⟩, -⟩ := hfit
    exact ⟨c, hcontribs ▸ hc c hmem, hsite, hround, beq_iff_eq.mp hgroup, hdone⟩

end

end Sys2Proof.Machine
end

section
/-!
SUPPORT. An APPLY ends (12 R369, R370; 13 R391): what it used is gone, the site's own contribution too.
-/
namespace Sys2Proof.Machine

section
variable {g : Fin 256} {s : State}

theorem execTrsApplyComplete_idle (h : (s.grp g).phase ≠ .applying ∨ (s.grp g).todo ≠ []) : exec (.trsApplyComplete g) s = .next s := by
  refine if_pos ?_
  obtain h | h := h
  · rw [bne_iff_ne.mpr h, Bool.true_or]
  · rw [Bool.or_eq_true]
    refine .inr ?_
    simpa using h

/-- A group whose APPLY has ended. -/
def Grp.rested (x : Grp) (now : Nat) : Grp := { x with phase := .idle, uses := [], reunite := none, nf := false, doneAt := now }

theorem execTrsApplyComplete_ends (hphase : (s.grp g).phase = .applying) (htodo : (s.grp g).todo = []) :
    ∃ t, exec (.trsApplyComplete g) s = .next t ∧ (t.grp g).phase = .idle ∧ (t.grp g).uses = [] ∧
      t.flag A.trsStat F.trsStat.APPLYING = false ∧ ∀ c ∈ t.trs.contribs, c.group = g → c.site ≠ s.site := by
  have hgo : ¬ ((s.grp g).phase != .applying || !(s.grp g).todo.isEmpty) = true := by
    rw [hphase, htodo]
    decide
  show ∃ t, execTrsApplyComplete g s = .next t ∧ _
  unfold execTrsApplyComplete
  extract_lets i x m bound next digest adopted named lined printed onTime logged noted used freed own ownLeft stale dropped sent idle applied reunited told
  refine ⟨told.flushFar, if_neg hgo, ?_⟩
  have hoff : ∀ a, a = A.trsSite → offTallboys a := fun a ha => ha ▸ offTallboys_above (by decide)
  have hlog (v : State) (kind r count : Nat) (nf : Bool) (l : List Nat) : v.KeptAt (· = A.trsSite) (v.applyLog i kind m r count nf l) :=
    v.applyLog_kept hoff _ _ _ _ _ _ _ (by decide) (by decide)
  have hadopted : s.KeptAt (· = A.trsSite) adopted := by
    show s.KeptAt _ (match x.reunite with | some (.adopt _) => _ | _ => s)
    split
    · exact State.KeptAt.foldl (fun v j => v.putLin_kept hoff ..) _ s
    · exact .refl s
  have hnamed : adopted.KeptAt (· = A.trsSite) named := State.memWrite_above hoff ..
  have hlined : named.KeptAt (· = A.trsSite) lined := State.putLin_kept hoff ..
  have hprinted : lined.KeptAt (· = A.trsSite) printed := State.KeptAt.foldl (fun v q => v.storePrint_kept hoff ..) _ lined
  have hlogged : printed.KeptAt (· = A.trsSite) logged := hlog ..
  have hnoted : logged.KeptAt (· = A.trsSite) noted :=
    State.KeptAt.foldl (fun v u => ((State.KeptAt.refl v).raise ..).trans (hlog ..)) _ logged
  have hfreed : noted.KeptAt (· = A.trsSite) freed :=
    State.KeptAt.foldl (fun v c => (State.KeptAt.refl v).of_same (u := v.freeContrib c) rfl rfl) _ noted
  clear_value freed noted logged printed lined named adopted
  have hsite : freed.site = s.site :=
    (((((hadopted.trans hnamed).trans hlined).trans hprinted).trans hlogged).trans (hnoted.trans hfreed)).fld rfl _
  have hidle : ownLeft.Trims idle := (State.Trims.foldl (fun v c => v.dropContrib_trims c m 1) _ ownLeft).putTrs _ rfl rfl fun _ h => h
  have htold : applied.Trims told.flushFar := ((applied.reunited_trims i m).trans (State.Trims.foldl (fun v j =>
    (State.Trims.of_far (v.sendReunion_far j i)).trans (State.sendJoin_trims ..)) _ reunited)).trans (.of_far told.flushFar_far)
  have hgrp : told.flushFar.grp g = applied.grp g := State.grp_of_groups htold.groups g
  clear_value told reunited idle
  have happlied : applied.grp g = (idle.grp g).rested idle.gtAbs := idle.grp_modGrp_same g (·.rested idle.gtAbs)
  rw [hgrp, happlied]
  refine ⟨rfl, rfl, State.flag_of_zero (htold.applying.trans (State.fld_setFld_same _ _ _ _ (by decide))), fun c hc hgroup => ?_⟩
  · have hleft := (List.mem_filter.mp (hidle.contribs c (htold.contribs c hc))).2
    rw [hgroup, beq_self_eq_true, Bool.true_and, hsite] at hleft
    simpa using hleft

end

end Sys2Proof.Machine
end

section
/-!
PROOF. Rounds begin, and their actions start and end when the calendar and what comes before allow (12 R346 to R374; 16 R456).
-/
namespace Sys2Proof.Machine

section
variable {s : State}

theorem execTrsRoundBegin_idle (h : round32 (s.roundOf s.gtAbs) = s.roundNow) : exec .trsRoundBegin s = .next s := if_pos h

theorem execTrsEnable_enabled (hen : s.flag A.trsCtl F.trsCtl.EN = true) : exec .trsEnable s = .next s := by
  show Host.Outcome.next s.trsEnable.1 = _
  rw [State.trsEnable, if_pos hen]

theorem execTrsDisable_disabled (hen : s.flag A.trsCtl F.trsCtl.EN = false) : exec .trsDisable s = .next s := by
  show Host.Outcome.next s.trsDisable = _
  rw [State.trsDisable, hen]
  rfl

theorem execTrsPartWrite_kept {i : Fin 256} {v : Word} (hen : s.flag A.trsCtl F.trsCtl.EN = true) (hpart : s.partOn i = true) :
    exec (.trsPartWrite i v) s = .next s := by
  show Host.Outcome.next (s.partWrite i v) = _
  rw [State.partWrite]
  refine congrArg Host.Outcome.next (if_pos ?_)
  rw [hen, hpart]
  rfl

end

end Sys2Proof.Machine
open Sys2Proof Sys2Proof.Machine

/-- Settles O59: the calendar's rounds, enabling, the five actions of a round, the partners and the pipelines, each read off its command. -/
theorem trestleRounds : Obligations.TrestleRounds := by
  unfold Obligations.TrestleRounds
  intro g i v p s x n hx
  subst hx
  refine ⟨fun hn => ⟨fun h => execTrsRoundBegin_idle (hn ▸ h), execTrsRoundBegin_begins hn⟩, execTrsEnable_enabled,
    fun hen => ⟨execTrsEnable_granted hen, execTrsEnable_noStage hen, execTrsEnable_noAlarm hen, execTrsDisable_disabled hen⟩,
    execTrsDisable_stops, execTrsSnapshot_apart, ?skips, ?snapshot, execTrsSend_idle, ?send, execTrsSendComplete_sent,
    execTrsSendComplete_idle, execTrsClose_idle, execTrsClose_closes, execTrsApply_idle, ?apply, execTrsApplyComplete_ends,
    execTrsApplyComplete_idle, execTrsPartWrite_joins, execTrsPartWrite_off, execTrsPartWrite_leaves, execTrsPartWrite_kept,
    fun h again => execTrsPipelineCheckFail_idle h, fun hlive hen again k hk => execTrsPipelineCheckFail_counts hlive hen hk⟩
  case skips =>
    intro htakes hinstall hen hvalid hdead r hdue hphase
    exact execTrsSnapshot_skips htakes hinstall hen hvalid hdead hdue hphase
  case snapshot =>
    intro htakes hinstall hact hturn
    exact ⟨execTrsSnapshot_waits htakes hinstall hact hturn, fun r hdue hphase =>
      execTrsSnapshot_begins htakes hinstall hact hturn hdue hphase⟩
  case send =>
    intro off hcal hact hturn hphase hdue hnone
    exact execTrsSend_sends hcal hact hturn hphase hdue hnone
  case apply =>
    intro off l hcal hact hturn hphase hdue hnone
    exact execTrsApply_applies hcal hact hturn hphase hdue hnone
end

section
/-!
SUPPORT. Frames from partners: what reception discards, and which command takes a frame (12 R360; 13 R385).
-/
namespace Sys2Proof.Machine

section
variable {p : PortNo} {frame : Bytes} {s s1 : State} {i : Nat} {h : FarHdr} {body : List Byte}

/-- A frame that is taken is known by the header it carries. -/
theorem State.recvFrame_known (s : State) (port : Nat) (l : List Byte) : ∀ x ∈ (s.recvFrame port l).2, x.2.1 = farHdrOf l := by
  unfold State.recvFrame
  extract_lets hdr
  split
  · exact nofun
  split
  · exact nofun
  split
  · exact nofun
  split
  · exact nofun
  split
  · exact nofun
  extract_lets heard absent counted
  split
  · exact nofun
  split
  · exact nofun
  split
  · exact fun x hx => Option.some.inj hx ▸ rfl
  split
  · exact nofun
  · exact fun x hx => Option.some.inj hx ▸ rfl

theorem State.recvFrame_hdr {port : Nat} {l : List Byte} (hrecv : s.recvFrame port l = (s1, some (i, h, body))) : h = farHdrOf l :=
  s.recvFrame_known port l (i, h, body) (by rw [hrecv]; rfl)

/-! ### Control frames -/

theorem State.recvControl_discarded {port sub : Nat} {l : List Byte} {more : List Byte → Bool} (hrecv : s.recvFrame port l = (s1, none)) :
    s.recvControl port sub l more = (if (farHdrOf l).kind = 4 then s1 else s, none) := by
  unfold State.recvControl
  by_cases hk : (farHdrOf l).kind = 4
  · rw [if_neg (by simp [hk]), hrecv, if_pos hk]
  · rw [if_pos (by simpa using hk), if_neg hk]

theorem State.recvControl_taken {port sub : Nat} {l : List Byte} {more : List Byte → Bool} (hk : (farHdrOf l).kind = 4)
    (hrecv : s.recvFrame port l = (s1, some (i, h, body))) :
    s.recvControl port sub l more =
      if (body.headD 0).toNat = sub ∧ more body then (s1, some (i, h, body)) else (s, none) := by
  unfold State.recvControl
  rw [if_neg (by simp [hk]), hrecv]

theorem State.recvControl_own {port sub : Nat} {l : List Byte} {more : List Byte → Bool} (hk : (farHdrOf l).kind = 4)
    (hrecv : s.recvFrame port l = (s1, some (i, h, body))) (hsub : sub = (body.headD 0).toNat) (hmore : more body = true) :
    s.recvControl port sub l more = (s1, some (i, h, body)) := by
  rw [State.recvControl_taken hk hrecv, if_pos ⟨hsub.symm, hmore⟩]

/-- A frame that reception discards ends there, whichever command takes frames of its kind. -/
theorem execFrame_discarded (hrecv : s.recvFrame p frame = (s1, none)) :
    ∀ c d, (c, d) ∈ [(Instr.trsDataReceive p frame, 0), (.trsNackReceive p frame, 1), (.trsAckReceive p frame, 2),
        (.trsFprintReceive p frame, 3), (.hello p frame, 4), (.lineage p frame, 4), (.requestJoin p frame, 4), (.requestRepair p frame, 4),
        (.requestRecon p frame, 4), (.requestBlist p frame, 4), (.bfp p frame, 4), (.adelta p frame, 4), (.endXfer p frame, 4),
        (.ready p frame, 4)] → exec c s = .next (if (farHdrOf frame).kind = d then s1 else s) := by
  have hbase (kind : Nat) (out : Out) (hout : (farHdrOf frame).kind = kind → out = .next s1) :
      (if ((farHdrOf frame).kind != kind) = true then Host.Outcome.next s else out) = .next (if (farHdrOf frame).kind = kind then s1 else s) := by
    by_cases hk : (farHdrOf frame).kind = kind
    · rw [if_pos hk, if_neg (by simp [hk]), hout hk]
    · rw [if_neg hk, if_pos (by simpa using hk)]
  intro c d hmem
  simp only [List.mem_cons, Prod.mk.injEq, List.not_mem_nil, or_false] at hmem
  obtain ⟨rfl, rfl⟩ | ⟨rfl, rfl⟩ | ⟨rfl, rfl⟩ | ⟨rfl, rfl⟩ | ⟨rfl, rfl⟩ | ⟨rfl, rfl⟩ | ⟨rfl, rfl⟩ | ⟨rfl, rfl⟩ | ⟨rfl, rfl⟩ | ⟨rfl, rfl⟩ |
    ⟨rfl, rfl⟩ | ⟨rfl, rfl⟩ | ⟨rfl, rfl⟩ | ⟨rfl, rfl⟩ := hmem
  · show execTrsDataReceive p frame s = _
    rw [execTrsDataReceive, hrecv]
    exact hbase 0 _ fun _ => rfl
  · show execTrsNackReceive p frame s = _
    rw [execTrsNackReceive, hrecv]
    exact hbase 1 _ fun _ => rfl
  · show execTrsAckReceive p frame s = _
    rw [execTrsAckReceive, hrecv]
    exact hbase 2 _ fun _ => rfl
  · show execTrsFprintReceive p frame s = _
    rw [execTrsFprintReceive, hrecv]
    exact hbase 3 _ fun _ => rfl
  · show execHello p frame s = _
    rw [execHello, State.recvControl_discarded hrecv]
  · show execLineage p frame s = _
    rw [execLineage, State.recvControl_discarded hrecv]
  · show execRequestJoin p frame s = _
    rw [execRequestJoin, State.recvControl_discarded hrecv]
  · show execRequestRepair p frame s = _
    rw [execRequestRepair, State.recvControl_discarded hrecv]
  · show execRequestRecon p frame s = _
    rw [execRequestRecon, State.recvControl_discarded hrecv]
  · show execRequestBlist p frame s = _
    rw [execRequestBlist, State.recvControl_discarded hrecv]
  · show execBfp p frame s = _
    rw [execBfp, State.recvControl_discarded hrecv]
  · show execAdelta p frame s = _
    rw [execAdelta, State.recvControl_discarded hrecv]
  · show execEnd p frame s = _
    rw [execEnd, State.recvControl_discarded hrecv]
  · show execReady p frame s = _
    rw [execReady, State.recvControl_discarded hrecv]

/-- A control frame of another subtype changes nothing. -/
theorem execControl_other (hk : (farHdrOf frame).kind = 4) (hrecv : s.recvFrame p frame = (s1, some (i, h, body))) {sub kind : Nat}
    (hsub : sub = (body.headD 0).toNat) (hkind : kind = (body.getD 1 0).toNat) :
    ∀ c d e, (c, d, e) ∈ [(Instr.hello p frame, 1, kind), (.lineage p frame, 2, kind), (.requestJoin p frame, 3, 1),
        (.requestRepair p frame, 3, 2), (.requestRecon p frame, 3, 3), (.requestBlist p frame, 3, 4), (.bfp p frame, 4, kind),
        (.adelta p frame, 5, kind), (.endXfer p frame, 6, kind), (.ready p frame, 7, kind)] → d ≠ sub ∨ e ≠ kind → exec c s = .next s := by
  have hother (d e : Nat) (more : List Byte → Bool) (hmore : more body = true → e = kind) (h : d ≠ sub ∨ e ≠ kind) :
      s.recvControl p d frame more = (s, none) := by
    rw [State.recvControl_taken hk hrecv]
    refine if_neg fun hgo => ?_
    obtain ⟨hd, he⟩ := hgo
    exact h.elim (fun h => h (hd.symm.trans hsub.symm)) (fun h => h (hmore he))
  have hany (d : Nat) : d ≠ sub ∨ kind ≠ kind → s.recvControl p d frame (fun _ => true) = (s, none) := hother d kind _ fun _ => rfl
  have hreq (n : Byte) : (3 : Nat) ≠ sub ∨ n.toNat ≠ kind → s.recvControl p 3 frame (fun b => b.getD 1 0 == n) = (s, none) :=
    hother 3 n.toNat _ fun hb => by rw [hkind, beq_iff_eq.mp hb]
  intro c d e hmem hne
  simp only [List.mem_cons, Prod.mk.injEq, List.not_mem_nil, or_false] at hmem
  obtain ⟨rfl, rfl, rfl⟩ | ⟨rfl, rfl, rfl⟩ | ⟨rfl, rfl, rfl⟩ | ⟨rfl, rfl, rfl⟩ | ⟨rfl, rfl, rfl⟩ | ⟨rfl, rfl, rfl⟩ | ⟨rfl, rfl, rfl⟩ |
    ⟨rfl, rfl, rfl⟩ | ⟨rfl, rfl, rfl⟩ | ⟨rfl, rfl, rfl⟩ := hmem
  · show execHello p frame s = _
    rw [execHello, hany 1 hne]
  · show execLineage p frame s = _
    rw [execLineage, hany 2 hne]
  · show execRequestJoin p frame s = _
    rw [execRequestJoin, hreq 1 hne]
  · show execRequestRepair p frame s = _
    rw [execRequestRepair, hreq 2 hne]
  · show execRequestRecon p frame s = _
    rw [execRequestRecon, hreq 3 hne]
  · show execRequestBlist p frame s = _
    rw [execRequestBlist, hreq 4 hne]
  · show execBfp p frame s = _
    rw [execBfp, hany 4 hne]
  · show execAdelta p frame s = _
    rw [execAdelta, hany 5 hne]
  · show execEnd p frame s = _
    rw [execEnd, hany 6 hne]
  · show execReady p frame s = _
    rw [execReady, hany 7 hne]

end

end Sys2Proof.Machine
end

section
/-!
SUPPORT. DATA, ACK and NACK (12 R360 to R363), and fingerprints (13 R382).
-/
namespace Sys2Proof.Machine

/-! ### Contributions -/

section
variable {s : State} {c : Contrib}

theorem State.contrib_putContrib (s : State) (c : Contrib) : (s.putContrib c).contrib c.site c.round c.group = some c := by
  unfold State.contrib State.putContrib
  refine (List.find?_append ..).trans ?_
  rw [List.find?_eq_none.mpr fun x hx => ?_]
  · simp
  · simpa [or_iff_not_imp_left] using (List.mem_filter.mp hx).2

theorem State.contrib_of_contribs {t : State} (h : t.trs.contribs = s.trs.contribs) (site round g : Nat) :
    t.contrib site round g = s.contrib site round g := by
  rw [State.contrib, h, ← State.contrib]

/-- The contribution that `contrib` names has the site, round and group asked for. -/
theorem State.contrib_key {site round g : Nat} (h : s.contrib site round g = some c) : c.site = site ∧ c.round = round ∧ c.group = g := by
  simpa [and_assoc] using List.find?_some h

/-- An answer is counted in the contribution it answers. -/
theorem State.contrib_answerContrib (hpast : s.trs.past.contains c = false) (i kind : Nat) (body : List Byte) :
    (s.answerContrib i c kind body).contrib c.site c.round c.group =
      some { c with replies := c.replies + 1, nackAt := if kind = 1 then some s.pulse else c.nackAt } := by
  unfold State.answerContrib
  extract_lets c' src u
  have hu : u = s.putContrib c' := by
    show ite _ _ _ = _
    rw [if_neg (by rw [hpast]; decide)]
  rw [State.contrib_of_contribs (State.sendFrames_far ..).contribs, hu]
  exact s.contrib_putContrib c'

theorem State.sample_contribs (s : State) (i round d : Nat) : (s.sample i round d).trs.contribs = s.trs.contribs ∧
    (s.sample i round d).trs.past = s.trs.past := by
  unfold State.sample
  extract_lets x us old d16 mean u v w new told
  have htold : told.trs = w.trs := by
    show (ite _ _ _ : State).trs = _
    split
    · exact State.raise_trs ..
    · rfl
  have hshown : told.showDelay.trs = w.trs := htold
  rw [hshown]
  exact ⟨rfl, rfl⟩

end

/-! ### DATA -/

section
variable {p : PortNo} {frame : Bytes} {s s1 : State} {i : Nat} {h : FarHdr} {body : List Byte}

theorem execTrsDataReceive_taken (hk : (farHdrOf frame).kind = 0) (hrecv : s.recvFrame p frame = (s1, some (i, h, body))) :
    exec (.trsDataReceive p frame) s = .next (if s1.repeated h then s1.repeatData i h else s1.takeData i h body) := by
  show execTrsDataReceive p frame s = _
  rw [execTrsDataReceive, if_neg (by simp [hk]), hrecv]

theorem State.repeatData_open {c : Contrib} (hpast : s.pastContrib h.src h.round h.group = some c) (hopen : c.doneAt = none) :
    s.repeatData i h = s := by
  rw [State.repeatData, hpast]
  exact if_neg (by rw [hopen]; decide)

/-- The contribution that a DATA frame belongs to, as held before it. -/
def State.heldFor (s : State) (h : FarHdr) : Contrib :=
  (s.contrib h.src h.round h.group).getD ⟨h.src, h.round, h.group, [], none, false, none, false, [], none, 0⟩

/-- A contribution with the body of a DATA frame. -/
def Contrib.holding (c : Contrib) (h : FarHdr) (body : List Byte) (now : Nat) : Contrib :=
  { c with
    bodies := FMap.set c.bodies h.fidx body
    last := if h.last then some h.fidx else c.last
    nf := c.nf || h.nf }.watchGaps now

theorem State.takeData_eq (s : State) (i : Nat) (h : FarHdr) (body : List Byte) {u : State} (hu : u = s.sample i h.round (s.gtAbs - h.gts))
    {c : Contrib} (hc : c = (u.heldFor h).holding h body u.pulse) : s.takeData i h body =
      if c.last.any (fun l => c.bodies.length == l + 1) then
        (u.setFld (A.trsPart3 i) F.trsPart3.LASTRX h.round).ack i { c with doneAt := some u.pulse }
      else u.putContrib c := by
  rw [hc, hu]
  rfl

theorem State.heldFor_key (s : State) (h : FarHdr) :
    (s.heldFor h).site = h.src ∧ (s.heldFor h).round = h.round ∧ (s.heldFor h).group = h.group := by
  rw [State.heldFor]
  cases hc : s.contrib h.src h.round h.group with
  | none => exact ⟨rfl, rfl, rfl⟩
  | some c => exact State.contrib_key hc

/-- What is not among the contributions gone by site, round and group is none of them. -/
theorem State.past_contains {c : Contrib} (h : s.pastContrib c.site c.round c.group = none) : s.trs.past.contains c = false := by
  rw [List.contains_eq_mem, decide_eq_false_iff_not]
  intro hc
  exact List.find?_eq_none.mp h c hc (by simp)

/-- A new frame's body is kept in its contribution. -/
theorem State.takeData_holds (hk : h.kind = 0) (hnew : s.repeated h = false) : ∃ c,
    (s.takeData i h body).contrib h.src h.round h.group = some c ∧ FMap.get? c.bodies h.fidx = some body := by
  have hpast : s.pastContrib h.src h.round h.group = none := by
    rw [State.repeated, hk, beq_self_eq_true, Bool.true_and, Bool.or_eq_false_iff] at hnew
    simpa using hnew.1
  obtain ⟨u, hu⟩ : ∃ u, u = s.sample i h.round (s.gtAbs - h.gts) := ⟨_, rfl⟩
  obtain ⟨c, hc⟩ : ∃ c, c = (u.heldFor h).holding h body u.pulse := ⟨_, rfl⟩
  rw [s.takeData_eq i h body hu hc]
  have hkey : c.site = h.src ∧ c.round = h.round ∧ c.group = h.group := hc ▸ u.heldFor_key h
  have hbody : FMap.get? c.bodies h.fidx = some body := hc ▸ FMap.get?_set_same ..
  obtain ⟨hsite, hround, hgroup⟩ := hkey
  rw [← hsite, ← hround, ← hgroup] at hpast ⊢
  split
  · have hnone : (u.setFld (A.trsPart3 i) F.trsPart3.LASTRX c.round).trs.past.contains { c with doneAt := some u.pulse } = false := by
      show u.trs.past.contains { c with doneAt := some u.pulse } = false
      rw [hu, (s.sample_contribs ..).2]
      exact State.past_contains (c := { c with doneAt := some _ }) hpast
    exact ⟨_, State.contrib_answerContrib hnone i 2 _, hbody⟩
  · exact ⟨c, u.contrib_putContrib c, hbody⟩

/-! ### ACK and NACK -/

theorem execTrsAckReceive_taken (hk : (farHdrOf frame).kind = 2) (hrecv : s.recvFrame p frame = (s1, some (i, h, body))) :
    exec (.trsAckReceive p frame) s =
      .next (s1.putTrs { s1.trs with tx := s1.trs.tx.filter (fun f => !(f.part == i && f.group == h.group && f.round == h.round)) }).flushFar := by
  show execTrsAckReceive p frame s = _
  rw [execTrsAckReceive, if_neg (by simp [hk]), hrecv]

theorem State.showGate_trs (s : State) : s.showGate.trs = s.trs := by
  unfold State.showGate
  extract_lets no shown
  split
  · rfl
  split
  · exact State.raise_trs ..
  · rfl

/-- A frame marked for it is sent again, where a gateway port is free. -/
def againStep (s : State) (f : TxFrame) : State :=
  if !f.again then s
  else match bestCredit s.fresh s.gatePorts with
    | none => s
    | some p =>
      let s := if s.trades f.part f.group f.round then (s.putFresh (s.fresh + 1)).sendBytes p f.bytes else s
      s.putTrs { s.trs with tx := s.trs.tx.map (fun x => if x == f then { x with again := false } else x) }

theorem State.sendAgain_eq (s : State) : s.sendAgain = s.trs.tx.foldl againStep s := rfl

/-- With nothing to repeat, nothing is. -/
theorem State.sendAgain_idle (hidle : ∀ f ∈ s.trs.tx, f.again = false) : s.sendAgain = s := by
  have hall (l : List TxFrame) (hl : ∀ f ∈ l, f.again = false) (u : State) : l.foldl againStep u = u := by
    induction l with
    | nil => rfl
    | cons f l ih =>
      rw [List.foldl_cons, againStep, hl f List.mem_cons_self]
      exact ih fun g hg => hl g (List.mem_cons_of_mem _ hg)
  rw [State.sendAgain_eq, hall _ hidle]

/-- A buffered frame, whether or not it is to be sent again. -/
def TxFrame.plain (f : TxFrame) : TxFrame := { f with again := false }

theorem State.sendBytes_trs (s : State) (p : Nat) (l : List Byte) : (s.sendBytes p l).trs = s.trs := rfl

theorem againStep_plain (s : State) (f : TxFrame) : (againStep s f).trs.tx.map TxFrame.plain = s.trs.tx.map TxFrame.plain ∧
    (againStep s f).pulse = s.pulse := by
  unfold againStep
  split
  · exact ⟨rfl, rfl⟩
  split
  · exact ⟨rfl, rfl⟩
  next p _ =>
    extract_lets u
    have hu : u.trs = s.trs ∧ u.pulse = s.pulse := by
      show (ite _ _ _ : State).trs = _ ∧ (ite _ _ _ : State).pulse = _
      split
      · exact ⟨rfl, rfl⟩
      · exact ⟨rfl, rfl⟩
    refine ⟨?_, hu.2⟩
    show (u.trs.tx.map _).map _ = _
    rw [hu.1, List.map_map]
    refine List.map_congr_left fun x _ => ?_
    show TxFrame.plain (ite _ _ _) = _
    split
    · rfl
    · rfl

/-- What is sent again stays buffered. -/
theorem State.sendAgain_plain (s : State) : s.sendAgain.trs.tx.map TxFrame.plain = s.trs.tx.map TxFrame.plain ∧ s.sendAgain.pulse = s.pulse := by
  have hall (l : List TxFrame) (u : State) : (l.foldl againStep u).trs.tx.map TxFrame.plain = u.trs.tx.map TxFrame.plain ∧
      (l.foldl againStep u).pulse = u.pulse := by
    induction l generalizing u with
    | nil => exact ⟨rfl, rfl⟩
    | cons f l ih =>
      obtain ⟨htx, hpulse⟩ := againStep_plain u f
      obtain ⟨htx', hpulse'⟩ := ih (againStep u f)
      exact ⟨htx'.trans htx, hpulse'.trans hpulse⟩
  exact hall _ s

/-- Frames that are marked and sent again stay buffered. -/
theorem State.resend_plain (s : State) (pick : TxFrame → Bool) : (s.resend pick).trs.tx.map TxFrame.plain = s.trs.tx.map TxFrame.plain ∧
    (s.resend pick).pulse = s.pulse := by
  obtain ⟨u, hu⟩ : ∃ u, u = s.putTrs { s.trs with tx := s.trs.tx.map (fun f => if pick f then { f with again := true } else f) } := ⟨_, rfl⟩
  obtain ⟨htx, hpulse⟩ := u.sendAgain_plain
  rw [State.resend, ← hu]
  refine ⟨htx.trans ?_, hpulse.trans (by rw [hu]; rfl)⟩
  rw [hu]
  show (s.trs.tx.map _).map _ = _
  rw [List.map_map]
  refine List.map_congr_left fun x _ => ?_
  show TxFrame.plain (ite _ _ _) = _
  split
  · rfl
  · rfl

theorem State.resend_far (s : State) (pick : TxFrame → Bool) : s.FarKept (s.resend pick) := by
  have hmarked : s.FarKept (s.putTrs { s.trs with tx := s.trs.tx.map (fun f => if pick f then { f with again := true } else f) }) :=
    .of_queues rfl rfl rfl
  exact hmarked.trans (State.sendAgain_far _)

theorem execTrsNackReceive_taken (hk : (farHdrOf frame).kind = 1) (hrecv : s.recvFrame p frame = (s1, some (i, h, body))) :
    ∃ t, exec (.trsNackReceive p frame) s = .next t ∧ t.trs.tx.map (·.bytes) = s1.trs.tx.map (·.bytes) ∧
      t.fld (A.trsPart2 i) F.trsPart2.NACKS = min (s1.fld (A.trsPart2 i) F.trsPart2.NACKS + 1) 0xFFFF := by
  obtain ⟨u, hu⟩ : ∃ u, u = s1.incSat (A.trsPart2 i) F.trsPart2.NACKS 1 := ⟨_, rfl⟩
  obtain ⟨pick, hpick⟩ : ∃ pick, exec (.trsNackReceive p frame) s = .next (u.resend pick) := by
    show ∃ _, execTrsNackReceive p frame s = _
    rw [execTrsNackReceive, if_neg (by simp [hk]), hrecv, hu]
    exact ⟨_, rfl⟩
  refine ⟨_, hpick, ?_, ?_⟩
  · have h := congrArg (List.map TxFrame.bytes) (u.resend_plain pick).1
    rw [List.map_map, List.map_map] at h
    rw [hu] at h ⊢
    exact h
  · have hfar : farReg (A.trsPart2 i) := by
      refine farReg_above ?_ ?_ ?_
      all_goals
        simp only [A.trsPart2, A.trsCnt, A.trsStat]
        omega
    rw [(u.resend_far pick).fld hfar, hu, State.incSat, State.fld_setFld_same _ _ _ _ (by decide), satAdd]
    exact Nat.mod_eq_of_lt (Nat.lt_of_le_of_lt (Nat.min_le_right ..) (by decide))

theorem State.flushEnd_shown (s : State) (kept : List OutFrame) (full : Option Nat) : (s.flushEnd kept full).trs.tx = s.trs.tx ∧
    (s.flushEnd kept full).trs.wait = kept ∧ (s.flushEnd kept full).trs.parts = s.trs.parts ∧ (s.flushEnd kept full).regs = s.regs := by
  unfold State.flushEnd
  extract_lets u
  split
  · exact ⟨rfl, rfl, rfl, rfl⟩
  split
  · exact ⟨rfl, rfl, rfl, rfl⟩
  · exact ⟨rfl, rfl, rfl, rfl⟩

/-- Nothing waits and nothing is repeated: the buffered frames stay. -/
theorem State.flushFar_tx (hwait : s.trs.wait = []) (hidle : ∀ f ∈ s.trs.tx, f.again = false) : s.flushFar.trs.tx = s.trs.tx := by
  have hagain : s.showGate.sendAgain = s.showGate := State.sendAgain_idle (by rwa [s.showGate_trs])
  have hflushed : s.flushed = (s.flushStart, []) := by
    rw [State.flushed, hagain, s.showGate_trs, hwait]
    rfl
  rw [State.flushFar_eq, hflushed, (State.flushEnd_shown ..).1, State.flushStart, hagain]
  show s.showGate.trs.tx = s.trs.tx
  rw [s.showGate_trs]

theorem execTrsAckReceive_frees (hk : (farHdrOf frame).kind = 2) (hrecv : s.recvFrame p frame = (s1, some (i, h, body)))
    (hwait : s1.trs.wait = []) (hidle : ∀ f ∈ s1.trs.tx, f.again = false) : ∃ t, exec (.trsAckReceive p frame) s = .next t ∧
      t.trs.tx = s1.trs.tx.filter (fun f => !(f.part == i && f.group == h.group && f.round == h.round)) :=
  ⟨_, execTrsAckReceive_taken hk hrecv, State.flushFar_tx hwait fun f hf => hidle f (List.mem_filter.mp hf).1⟩

end

end Sys2Proof.Machine
end

section
/-!
SUPPORT. Fingerprints (13 R382) and the Trestle's timers (12 R362, R363, R372; 13 R376).
-/
namespace Sys2Proof.Machine

section
variable {p : PortNo} {frame : Bytes} {s s1 : State} {i : Nat} {h : FarHdr} {body : List Byte}

/-! ### Fingerprints -/

/-- The votes that an FPRINT frame brings. -/
def fprintVotes (i g : Nat) (body : List Byte) (same : Bool) : List Voted :=
  (List.range (min 175 (numAt body 4 2))).map (fun k =>
    (⟨i, g, numAt body 0 4, numAt body (24 + 24 * k) 2, (numAt body (32 + 24 * k) 8, numAt body (40 + 24 * k) 8), (body.drop 8).take 16,
      same⟩ : Voted))

/-- A partner's votes take the place of those it gave before. -/
def State.withVotes (s : State) (recs : List Voted) : State :=
  s.putTrs { s.trs with
    votes := s.trs.votes.filter (fun v => !recs.any (fun r =>
      r.part == v.part && r.group == v.group && r.round == v.round && r.slot == v.slot)) ++ recs }

/-- A divergence is recorded and reported. -/
def State.diverges (s : State) (i g m ref : Nat) : State :=
  (s.putTrs { s.trs with diverged := s.trs.diverged ++ [(i, g, m)] }).trsEvent 0x69
    (leBytes 2 (s.partSite i) ++ [BitVec.ofNat 8 g, 1] ++ leBytes 4 m ++ leBytes 2 ref)

/-- Whether the anchor of the frame's round is the partner's too. -/
def State.sameAnchor (s : State) (g : Nat) (body : List Byte) : Bool :=
  match s.anchorOf g (numAt body 0 4) with
  | some j => (s.lin g j).digest == (body.drop 8).take 16
  | none => false

theorem execTrsFprintReceive_taken (hk : (farHdrOf frame).kind = 3) (hrecv : s.recvFrame p frame = (s1, some (i, h, body))) {u : State}
    (hu : u = s1.withVotes (fprintVotes i h.group body (s1.sameAnchor h.group body))) : exec (.trsFprintReceive p frame) s =
      .next (if s1.sameAnchor h.group body || (s1.anchorOf h.group (numAt body 0 4)).isNone || s1.trs.diverged.contains (i, h.group, numAt body 0 4) then u
        else u.diverges i h.group (numAt body 0 4) (s1.namedSite body)) := by
  show execTrsFprintReceive p frame s = _
  rw [execTrsFprintReceive, if_neg (by simp [hk]), hrecv, hu]
  rfl

theorem State.sameAnchor_of_anchor {g : Nat} {j : Nat} (hj : s.anchorOf g (numAt body 0 4) = some j) :
    s.sameAnchor g body = ((s.lin g j).digest == (body.drop 8).take 16) := by
  rw [State.sameAnchor, hj]

theorem execTrsFprintReceive_diverges (hk : (farHdrOf frame).kind = 3) (hrecv : s.recvFrame p frame = (s1, some (i, h, body)))
    (hnew : s1.trs.diverged.contains (i, h.group, numAt body 0 4) = false) {j : Nat} (hj : s1.anchorOf h.group (numAt body 0 4) = some j)
    (hne : (s1.lin h.group j).digest ≠ (body.drop 8).take 16) : ∃ t, exec (.trsFprintReceive p frame) s = .next t ∧
      t.trs.diverged = s1.trs.diverged ++ [(i, h.group, numAt body 0 4)] ∧
      s1.raises t 0x69 (evSource 5 0) (leBytes 2 (s1.partSite i) ++ [BitVec.ofNat 8 h.group, 1] ++ leBytes 4 (numAt body 0 4) ++
        leBytes 2 (s1.namedSite body)) := by
  have hgo : ¬ (s1.sameAnchor h.group body || (s1.anchorOf h.group (numAt body 0 4)).isNone ||
      s1.trs.diverged.contains (i, h.group, numAt body 0 4)) = true := by
    rw [State.sameAnchor_of_anchor hj, beq_eq_false_iff_ne.mpr hne, hj, hnew, Option.isNone_some]
    decide
  obtain ⟨u, hu⟩ : ∃ u, u = s1.withVotes (fprintVotes i h.group body (s1.sameAnchor h.group body)) := ⟨_, rfl⟩
  have hevt : u.evt = s1.evt := hu ▸ rfl
  have hpart : u.partSite i = s1.partSite i := hu ▸ rfl
  have hdiverged : u.trs.diverged = s1.trs.diverged := hu ▸ rfl
  refine ⟨_, (execTrsFprintReceive_taken hk hrecv hu).trans (congrArg _ (if_neg hgo)), ?_, ?_⟩
  · rw [State.diverges, State.trsEvent, State.raise_trs, ← hdiverged]
    rfl
  · rw [State.diverges, State.trsEvent, ← hpart]
    exact State.raises_of_raise (u := u.putTrs { u.trs with diverged := u.trs.diverged ++ [(i, h.group, numAt body 0 4)] }) hevt
      List.prefix_rfl

/-- A fingerprint of the same lineage, or of a round without an anchor, is kept and no more. -/
theorem execTrsFprintReceive_agrees (hk : (farHdrOf frame).kind = 3) (hrecv : s.recvFrame p frame = (s1, some (i, h, body)))
    (hsame : s1.sameAnchor h.group body = true ∨ s1.anchorOf h.group (numAt body 0 4) = none) :
    ∃ t, exec (.trsFprintReceive p frame) s = .next t ∧ t.trs.diverged = s1.trs.diverged ∧ t.evt = s1.evt := by
  refine ⟨_, (execTrsFprintReceive_taken hk hrecv rfl).trans (congrArg _ (if_pos ?_)), rfl, rfl⟩
  obtain h | h := hsame
  · rw [h, Bool.true_or, Bool.true_or]
  · rw [h, Option.isNone_none, Bool.or_true, Bool.true_or]

/-! ### Timers -/

/-- A gap that has lasted is answered by a NACK. -/
theorem execTrsNackTimer_nacks {j g : Fin 256} {r : BitVec 32} {c : Contrib} {q : Nat × Nat} (hc : s.contrib (s.partSite j) r.toNat g = some c)
    (hq : q ∈ c.gaps) (hon : s.partOn j = true) (hen : s.flag A.trsCtl F.trsCtl.EN = true) (hfresh : c.nackAt = none → s.reached q.2 1000 = true)
    (hpast : s.trs.past.contains c = false)
    (hagain : ∀ m, c.nackAt = some m → s.reached m (2 * s.fld (A.trsPart1 j) F.trsPart1.DEWMA + 2000) = true) :
    ∃ t, exec (.trsNackTimer j g r) s = .next t ∧
      t.contrib (s.partSite j) r.toNat g = some { c with replies := c.replies + 1, nackAt := some s.pulse } := by
  have hdue : (c.gaps.any (fun q => s.reached q.2 1000 && c.nackAt.all (fun n => decide (q.2 + 1000 * usPulses > n))) ||
      !c.gaps.isEmpty && c.nackAt.any (fun n => s.reached n (2 * s.fld (A.trsPart1 j) F.trsPart1.DEWMA + 2000))) = true := by
    rw [Bool.or_eq_true]
    cases hn : c.nackAt with
    | none => exact .inl (List.any_eq_true.mpr ⟨q, hq, by rw [hfresh hn]; rfl⟩)
    | some m =>
      have hsome : c.gaps.isEmpty = false := List.isEmpty_eq_false_iff.mpr (List.ne_nil_of_mem hq)
      refine .inr ?_
      rw [hsome, Option.any_some, hagain m hn]
      rfl
  refine ⟨s.nack j c, ?_, ?_⟩
  · show execTrsNackTimer j g r s = _
    rw [execTrsNackTimer, hc]
    refine congrArg _ (if_pos ?_)
    rw [hon, hdue, hen]
    rfl
  · obtain ⟨hsite, hround, hgroup⟩ := State.contrib_key hc
    rw [← hsite, ← hround, ← hgroup]
    exact State.contrib_answerContrib hpast j 1 _

theorem execTrsNackTimer_idle {j g : Fin 256} {r : BitVec 32} (hnone : s.contrib (s.partSite j) r.toNat g = none) :
    exec (.trsNackTimer j g r) s = .next s := by
  show execTrsNackTimer j g r s = _
  rw [execTrsNackTimer, hnone]

theorem execTrsLastResendTimer_idle {j g : Fin 256} {r : BitVec 32}
    (hnone : s.trs.tx.find? (fun f : TxFrame => f.part == j.val && f.group == g.val && f.round == r.toNat && f.last) = none) :
    exec (.trsLastResendTimer j g r) s = .next s := by
  show execTrsLastResendTimer j g r s = _
  rw [execTrsLastResendTimer, hnone]

/-- A frame that was sent again waits twice as long. -/
def TxFrame.later (mine : TxFrame → Bool) (now : Nat) (y : TxFrame) : TxFrame :=
  if mine y then { y with sentAt := now, wait := 2 * y.wait, again := false } else { y with again := false }

theorem execTrsLastResendTimer_repeats {j g : Fin 256} {r : BitVec 32} {f : TxFrame} {mine : TxFrame → Bool}
    (hmine : mine = (fun f : TxFrame => f.part == j.val && f.group == g.val && f.round == r.toNat && f.last)) (hf : s.trs.tx.find? mine = some f)
    (hdue : s.reached f.sentAt f.wait = true) : ∃ t, exec (.trsLastResendTimer j g r) s = .next t ∧
      t.trs.tx.map (fun y => { y with again := false }) =
        s.trs.tx.map (fun y => if mine y then { y with sentAt := s.pulse, wait := 2 * y.wait, again := false } else { y with again := false }) := by
  obtain ⟨u, hu⟩ : ∃ u, u = s.resend mine := ⟨_, rfl⟩
  refine ⟨u.putTrs { u.trs with tx := u.trs.tx.map (fun x => if mine x then { x with sentAt := u.pulse, wait := 2 * x.wait } else x) }, ?_, ?_⟩
  · show execTrsLastResendTimer j g r s = _
    rw [execTrsLastResendTimer, ← hmine, hf, hu]
    exact congrArg _ (if_pos hdue)
  · obtain ⟨htx, hpulse⟩ := s.resend_plain mine
    rw [← hu] at htx hpulse
    have hplain : ∀ y : TxFrame, mine y.plain = mine y := fun y => by rw [hmine]; rfl
    have hmap := congrArg (List.map (TxFrame.later mine s.pulse)) htx
    rw [List.map_map, List.map_map] at hmap
    refine (List.map_map.trans (Eq.trans ?_ hmap)).trans ?_
    · refine List.map_congr_left fun y _ => ?_
      rw [Function.comp_apply, Function.comp_apply, TxFrame.later, hplain, hpulse]
      split
      · rfl
      · rfl
    · refine List.map_congr_left fun y _ => ?_
      rw [Function.comp_apply, TxFrame.later, hplain]
      rfl

theorem execTrsTxbufFullTimer_idle (h : s.trs.fullAt = none) : exec .trsTxbufFullTimer s = .next s := by
  show execTrsTxbufFullTimer s = _
  rw [execTrsTxbufFullTimer, h]

theorem execTrsTxbufFullTimer_reports {t0 : Nat} (hfull : s.trs.fullAt = some t0) (hsaid : s.trs.fullSaid = false)
    (hdue : s.reached t0 1000000 = true) : ∃ t, exec .trsTxbufFullTimer s = .next t ∧
      t.trs = { s.trs with fullSaid := true } ∧ t.regs = s.regs ∧ s.raises t 0x65 (evSource 5 0) [2] := by
  refine ⟨(s.putTrs { s.trs with fullSaid := true }).trsEvent 0x65 [2], ?_, State.raise_trs .., State.raise_regs ..,
    State.raises_of_raise (u := s.putTrs { s.trs with fullSaid := true }) rfl List.prefix_rfl⟩
  show execTrsTxbufFullTimer s = _
  rw [execTrsTxbufFullTimer, hfull]
  refine congrArg _ (if_pos ?_)
  rw [hdue, hsaid]
  rfl

/-! ### A partner's silence (13 R376) -/

theorem execTrsPartnerSilence_off {j : Fin 256} (h : s.partOn j = false) : exec (.trsPartnerSilence j) s = .next s := by
  refine if_neg ?_
  rw [h, Bool.and_false, Bool.false_and, Bool.false_and]
  decide

theorem execTrsPartnerSilence_absent {j : Fin 256} (hen : s.flag A.trsCtl F.trsCtl.EN = true) (hon : s.partOn j = true)
    (hstate : s.partState j = 1 ∨ s.partState j = 3)
    (hsilent : s.reached (s.part j).heardAt (s.fld A.trsAbsent F.trsAbsent.MS * 1000) = true) : ∃ t, exec (.trsPartnerSilence j) s = .next t ∧
      t.partState j = 2 ∧ s.raises t 0x67 (evSource 5 0)
        (leBytes 2 (s.partSite j) ++ [BitVec.ofNat 8 (s.partState j), 2] ++ leBytes 4 s.roundNow ++ [1]) := by
  obtain ⟨entered, hentered⟩ : ∃ u, u = s.partEnter j 2 1 := ⟨_, rfl⟩
  obtain ⟨u, hu⟩ : ∃ u, u = entered.showDelay.putTrs { entered.showDelay.trs with
    wait := entered.showDelay.trs.wait.filter (fun f => !(f.part == j.val && (f.kind == 0 || f.kind == 3))) } := ⟨_, rfl⟩
  have hne : s.partState j ≠ 2 := by omega
  have hnoted : entered = (s.setFld (A.trsPart2 j) F.trsPart2.STATE 2).raise 0x67 (evSource 5 0)
      (leBytes 2 (s.partSite j) ++ [BitVec.ofNat 8 (s.partState j), 2] ++ leBytes 4 s.roundNow ++ [1]) :=
    hentered.trans (if_neg hne)
  have hfar : farReg (A.trsPart2 j) := by
    refine farReg_above ?_ ?_ ?_
    all_goals
      simp only [A.trsPart2, A.trsCnt, A.trsStat]
      omega
  refine ⟨u.flushFar, ?_, ?_, ?_⟩
  · rw [hu, hentered]
    refine if_pos ?_
    rw [hen, hon, hsilent]
    obtain h | h := hstate
    · rw [h]; rfl
    · rw [h]; rfl
  · have hdelay : A.trsPart2 j ≠ A.trsDelay := by
      simp only [A.trsPart2, A.trsDelay]
      omega
    rw [State.partState, u.flushFar_far.fld hfar, hu]
    show entered.showDelay.fld _ _ = 2
    rw [State.fld_showDelay hdelay, hnoted, State.fld_of_rd (State.raise_rd ..), State.fld_setFld_same _ _ _ _ (by decide)]
    rfl
  · refine State.raises_of_raise (u := s.setFld (A.trsPart2 j) F.trsPart2.STATE 2) rfl ?_
    rw [← hnoted]
    have hshown : u.evt = entered.evt := hu ▸ rfl
    rw [← hshown]
    exact u.flushFar_far.raised

end

end Sys2Proof.Machine
end

section
/-!
SUPPORT. Whom a control frame reaches (12 R345, R361; 13 R385): a partner that can be told is told, and one without a key waits.
-/
namespace Sys2Proof.Machine

theorem bestCredit_exists (fresh : Nat) {l : List Nat} (h : l ≠ []) : ∃ p, bestCredit fresh l = some p := by
  cases l with
  | nil => exact absurd rfl h
  | cons q l =>
    rw [bestCredit]
    split
    · exact ⟨q, rfl⟩
    split
    · exact ⟨_, rfl⟩
    · exact ⟨_, rfl⟩

/-- The key by which frames to a partner are sealed. -/
def State.txKey (s : State) (i : Nat) : Option (List Byte) := s.keyOf (s.partKey i) (s.fld (A.secKey (s.partKey i)) F.secKey.TXEP)

section
variable {s t u : State} {i : Nat}

/-! ### What sending needs -/

theorem State.FarKept.gatePorts (h : s.FarKept t) : t.gatePorts = s.gatePorts := by
  have hfar : ∀ p < 36, farReg (A.tmrPortStat p) := fun p hp => by
    refine ⟨?_, ?_, fun q hq => ?_⟩
    · unfold A.tmrPortStat A.trsCnt
      omega
    · unfold A.tmrPortStat A.trsStat
      omega
    · unfold A.tmrPortStat A.tmrPortCnt
      omega
  refine List.filter_congr fun p hp => ?_
  have hp36 := hfar p (List.mem_range.mp hp)
  rw [State.portUp, State.portUp, h.fld hp36, h.flag hp36]

theorem State.FarKept.roundNow (h : s.FarKept t) : t.roundNow = s.roundNow :=
  h.fld (farReg_above (by decide) (by decide) (by decide)) _

theorem State.FarKept.partKey (h : s.FarKept t) (i : Nat) : t.partKey i = s.partKey i := by
  refine h.fld (farReg_above ?_ ?_ ?_) _
  all_goals
    simp only [A.trsPart0, A.trsCnt, A.trsStat]
    omega

theorem State.FarKept.txKey (h : s.FarKept t) (hsec : t.sec = s.sec) (i : Nat) : t.txKey i = s.txKey i := by
  have hfar : ∀ k, farReg (A.secKey k) := fun k => by
    refine farReg_above ?_ ?_ ?_
    all_goals
      simp only [A.secKey, A.trsCnt, A.trsStat]
      omega
  rw [State.txKey, State.txKey, h.partKey, h.fld (hfar _), State.keyOf, State.keyOf]
  simp only [h.flag (hfar _), h.fld (hfar _), hsec]

/-- What telling a partner depends on is as before, but for what it was told. -/
structure State.TellKept (i : Nat) (s t : State) : Prop where
  gates : t.gatePorts = s.gatePorts
  key : t.txKey i = s.txKey i
  round : t.roundNow = s.roundNow

theorem State.TellKept.refl (i : Nat) (s : State) : State.TellKept i s s := ⟨rfl, rfl, rfl⟩

theorem State.TellKept.trans (h : State.TellKept i s t) (k : State.TellKept i t u) : State.TellKept i s u :=
  ⟨k.gates.trans h.gates, k.key.trans h.key, k.round.trans h.round⟩

theorem State.FarKept.tell (h : s.FarKept t) (hsec : t.sec = s.sec) : State.TellKept i s t := ⟨h.gatePorts, h.txKey hsec i, h.roundNow⟩

theorem State.trySend_tell (s : State) (f : OutFrame) : State.TellKept i s (s.trySend f).1 :=
  (s.trySend_far f).tell ((State.trySend_same (msk := 2 ^ Part.sec.idx) rfl s f (.refl s)).same .sec rfl)

theorem flushStep_tell (a : State × List OutFrame) (f : OutFrame) : State.TellKept i a.1 (flushStep a f).1 := by
  unfold flushStep
  split
  · exact .refl i a.1
  · exact State.trySend_tell ..

/-! ### One frame is tried -/

theorem State.numbered_part {f g : OutFrame} (h : s.numbered f = some g) : g.part = f.part ∧ g.control = f.control := by
  unfold State.numbered at h
  split at h
  · cases h; exact ⟨rfl, rfl⟩
  split at h
  · cases h
  · cases h; exact ⟨rfl, rfl⟩

theorem State.noteSent_part_ne (s : State) {f : OutFrame} (hne : i ≠ f.part) (bytes : List Byte) : (s.noteSent f bytes).part i = s.part i := by
  unfold State.noteSent
  split
  · rfl
  split
  · exact s.part_modPart_ne hne _
  · rfl

theorem State.trySend_part_ne (s : State) {f : OutFrame} (hne : i ≠ f.part) : (s.trySend f).1.part i = s.part i := by
  unfold State.trySend
  extract_lets k ep
  split
  next p key g _ _ hg =>
    extract_lets bytes
    split
    · rfl
    · exact State.noteSent_part_ne _ (by rwa [(State.numbered_part hg).1]) _
  · rfl

/-- A numbered frame to a partner counts among those it was told. -/
theorem State.noteSent_told (s : State) {f : OutFrame} (hpart : f.part = i) (hcontrol : f.control = true) (bytes : List Byte) :
    s.toldOnce (s.noteSent f bytes) i := by
  have hkind : f.kind ≠ 0 := fun h => by
    rw [OutFrame.control, h] at hcontrol
    exact absurd hcontrol (by decide)
  unfold State.noteSent
  rw [if_neg hkind, if_pos hcontrol, hpart, State.toldOnce, State.part_modPart_same]
  exact ⟨rfl, rfl⟩

/-- A frame that is tried leaves a partner as it was told, or tells it once more. -/
theorem State.noteSent_told_or (s : State) (f : OutFrame) (bytes : List Byte) :
    s.toldOnce (s.noteSent f bytes) i ∨ (s.noteSent f bytes).part i = s.part i := by
  by_cases hne : i = f.part
  · by_cases hcontrol : f.control = true
    · exact .inl (s.noteSent_told hne.symm hcontrol bytes)
    · refine .inr ?_
      unfold State.noteSent
      split
      · rfl
      · rfl
  · exact .inr (s.noteSent_part_ne hne bytes)

/-- What a frame is sent from: a free value taken, and the bytes away. -/
theorem State.sendBytes_shown (s : State) {p : Nat} (hp : p < 36) (n : Nat) (l : List Byte) :
    ((s.putFresh n).sendBytes p l).roundNow = s.roundNow ∧ ((s.putFresh n).sendBytes p l).part i = s.part i :=
  have hfar := (s.putFresh n).sendBytes_far hp l
  ⟨hfar.roundNow, rfl⟩

theorem State.toldOnce_of {v : State} (hround : u.roundNow = s.roundNow) (hpart : u.part i = s.part i) (h : u.toldOnce v i) : s.toldOnce v i := by
  rw [State.toldOnce, hround, hpart] at h
  exact h

theorem State.trySend_told_or (s : State) (f : OutFrame) : s.toldOnce (s.trySend f).1 i ∨ (s.trySend f).1.part i = s.part i := by
  unfold State.trySend
  extract_lets k ep
  split
  next p key g hport _ _ =>
    have hp : p < 36 := State.gatePorts_lt (bestCredit_mem hport)
    extract_lets bytes
    split
    · exact .inr rfl
    · obtain ⟨hround, hpart⟩ := s.sendBytes_shown (i := i) hp (s.fresh + 1) bytes
      generalize (s.putFresh (s.fresh + 1)).sendBytes p bytes = u at hround hpart
      obtain h | h := u.noteSent_told_or (i := i) g bytes
      · exact .inl (State.toldOnce_of hround hpart h)
      · exact .inr (h.trans hpart)
  · exact .inr rfl

/-- A control frame to a partner that can be told is sent. -/
theorem State.trySend_tells (s : State) {f : OutFrame} (hpart : f.part = i) (hcontrol : f.control = true) (hgates : s.gatePorts ≠ [])
    (hcount : s.ctlCount i < 2 ^ 30) (hkey : (s.txKey i).isSome = true) : s.toldOnce (s.trySend f).1 i ∧ (s.trySend f).2 = true := by
  obtain ⟨p, hp⟩ := bestCredit_exists s.fresh hgates
  obtain ⟨key, hkey⟩ := Option.isSome_iff_exists.mp hkey
  obtain ⟨g, hg, hgpart, hgcontrol⟩ : ∃ g, s.numbered f = some g ∧ g.part = i ∧ g.control = true := by
    refine ⟨{ f with round := s.roundNow, fnum := 2 ^ 30 + s.ctlCount f.part }, ?_, hpart, hcontrol⟩
    unfold State.numbered
    rw [hcontrol, hpart, if_neg (by decide), if_neg (by omega)]
  have hkind : ¬ (g.kind = 0) := fun h => by
    rw [OutFrame.control, h] at hgcontrol
    exact absurd hgcontrol (by decide)
  rw [State.txKey, ← hpart] at hkey
  unfold State.trySend
  simp only [hp, hkey, hg, hkind, false_and, if_false]
  obtain ⟨hround, hkept⟩ := s.sendBytes_shown (i := i) (State.gatePorts_lt (bestCredit_mem hp)) (s.fresh + 1)
    (s.sealFrame g (s.fld (A.secKey (s.partKey f.part)) F.secKey.TXEP) key)
  exact ⟨State.toldOnce_of hround hkept (State.noteSent_told _ hgpart hgcontrol _), trivial⟩

/-- A frame whose partner has no key is not sent. -/
theorem State.trySend_keyless (s : State) {f : OutFrame} (h : s.txKey f.part = none) : s.trySend f = (s, false) := by
  rw [State.txKey] at h
  unfold State.trySend
  extract_lets k ep
  split
  next p key g _ hkey _ => exact absurd (h.symm.trans hkey) nofun
  · rfl

end

end Sys2Proof.Machine
end

section
/-!
SUPPORT. Handing frames over (12 R345; 13 R385): what the frames that wait, tried in turn, do for one partner.
-/
namespace Sys2Proof.Machine

section
variable {s t u : State} {i : Nat}

/-- A partner was told in the round of `s`. -/
def State.Told (s t : State) (i : Nat) : Prop := (t.part i).ctlRound = s.roundNow ∧ 1 ≤ (t.part i).ctlSent

theorem State.toldOnce.told (h : s.toldOnce t i) : State.Told s t i := by
  obtain ⟨hround, hsent⟩ := h
  exact ⟨hround, by omega⟩

/-- No frame to a partner waits. -/
def noneFor (i : Nat) (l : List OutFrame) : Prop := ∀ f ∈ l, f.part ≠ i

theorem noneFor_append {l m : List OutFrame} : noneFor i (l ++ m) ↔ noneFor i l ∧ noneFor i m := List.forall_mem_append

theorem noneFor_single {f : OutFrame} : noneFor i [f] ↔ f.part ≠ i := List.forall_mem_singleton

/-! ### Frames in turn -/

theorem flushStep_other {a : State × List OutFrame} {f : OutFrame} (hne : f.part ≠ i) : (flushStep a f).1.part i = a.1.part i ∧
    (noneFor i a.2 → noneFor i (flushStep a f).2) := by
  have happend : noneFor i a.2 → noneFor i (a.2 ++ [f]) := fun h => noneFor_append.mpr ⟨h, noneFor_single.mpr hne⟩
  unfold flushStep
  split
  · exact ⟨rfl, happend⟩
  · refine ⟨State.trySend_part_ne _ hne.symm, fun h => ?_⟩
    show noneFor i (ite _ _ _)
    split
    · exact h
    · exact happend h

theorem flushStep_told_or (a : State × List OutFrame) (f : OutFrame) :
    a.1.toldOnce (flushStep a f).1 i ∨ (flushStep a f).1.part i = a.1.part i := by
  unfold flushStep
  split
  · exact .inr rfl
  · exact a.1.trySend_told_or f

theorem foldl_flushStep_tell (l : List OutFrame) (a : State × List OutFrame) : State.TellKept i a.1 (l.foldl flushStep a).1 := by
  induction l generalizing a with
  | nil => exact .refl i a.1
  | cons f l ih => exact (flushStep_tell a f).trans (ih _)

theorem foldl_flushStep_other {l : List OutFrame} (hl : noneFor i l) (a : State × List OutFrame) :
    (l.foldl flushStep a).1.part i = a.1.part i ∧ (noneFor i a.2 → noneFor i (l.foldl flushStep a).2) := by
  induction l generalizing a with
  | nil => exact ⟨rfl, id⟩
  | cons f l ih =>
    obtain ⟨hpart, hkept⟩ := flushStep_other (a := a) (hl f List.mem_cons_self)
    obtain ⟨hpart', hkept'⟩ := ih (fun g hg => hl g (List.mem_cons_of_mem _ hg)) (flushStep a f)
    exact ⟨hpart'.trans hpart, fun h => hkept' (hkept h)⟩

/-- A partner that was told stays so, whatever is sent after. -/
theorem foldl_flushStep_told (l : List OutFrame) (a : State × List OutFrame) (hround : a.1.roundNow = s.roundNow) (h : State.Told s a.1 i) :
    State.Told s (l.foldl flushStep a).1 i := by
  induction l generalizing a with
  | nil => exact h
  | cons f l ih =>
    refine ih (flushStep a f) ((flushStep_tell (i := i) a f).round.trans hround) ?_
    obtain hnew | hkept := flushStep_told_or (i := i) a f
    · exact (State.toldOnce.told hnew).imp (fun h => h.trans hround) id
    · rwa [State.Told, hkept]

/-! ### The start of a flush -/

theorem againStep_trs (s : State) (f : TxFrame) : (againStep s f).trs.parts = s.trs.parts ∧ (againStep s f).trs.wait = s.trs.wait := by
  unfold againStep
  split
  · exact ⟨rfl, rfl⟩
  split
  · exact ⟨rfl, rfl⟩
  · extract_lets u
    have hu : u.trs = s.trs := by
      show (ite _ _ _ : State).trs = _
      split
      · rfl
      · rfl
    show u.trs.parts = _ ∧ u.trs.wait = _
    rw [hu]
    exact ⟨rfl, rfl⟩

theorem State.sendAgain_trs (s : State) : s.sendAgain.trs.parts = s.trs.parts ∧ s.sendAgain.trs.wait = s.trs.wait := by
  have hall (l : List TxFrame) (u : State) : (l.foldl againStep u).trs.parts = u.trs.parts ∧ (l.foldl againStep u).trs.wait = u.trs.wait := by
    induction l generalizing u with
    | nil => exact ⟨rfl, rfl⟩
    | cons f l ih =>
      obtain ⟨hparts, hwait⟩ := againStep_trs u f
      obtain ⟨hparts', hwait'⟩ := ih (againStep u f)
      exact ⟨hparts'.trans hparts, hwait'.trans hwait⟩
  exact hall _ s

theorem State.flushStart_shown (s : State) : s.flushStart.part i = s.part i ∧ State.TellKept i s s.flushStart := by
  have hsec : s.flushStart.sec = s.sec := by
    have h : s.Same (2 ^ Part.sec.idx) s.showGate.sendAgain := State.sendAgain_same rfl _ (State.showGate_same rfl s (.refl s))
    exact h.same .sec rfl
  refine ⟨State.part_of_parts ?_ i, s.flushStart_far.tell hsec⟩
  exact (State.sendAgain_trs s.showGate).1.trans (congrArg Trs.parts s.showGate_trs)

/-- The frames that wait are tried in turn, from the start of the flush. -/
theorem State.flushed_eq (s : State) : s.flushed = s.trs.wait.foldl flushStep (s.flushStart, []) := by
  rw [State.flushed, (State.sendAgain_trs s.showGate).2, s.showGate_trs]

theorem State.flushFar_shown (s : State) : s.flushFar.trs.wait = s.flushed.2 ∧ s.flushFar.part i = s.flushed.1.part i ∧
    State.TellKept i s s.flushFar := by
  obtain ⟨-, hwait, hparts, hregs⟩ := State.flushEnd_shown s.flushed.1 s.flushed.2 s.showGate.sendAgain.trs.fullAt
  have hsec : s.flushFar.sec = s.sec := (State.flushFar_same (msk := 2 ^ Part.sec.idx) rfl s (.refl s)).same .sec rfl
  refine ⟨?_, ?_, s.flushFar_far.tell hsec⟩
  · rw [State.flushFar_eq, hwait]
  · rw [State.flushFar_eq, State.part_of_parts hparts]

/-! ### Frames handed over -/

/-- The frames to a partner that can be told, none: it and what it can be told stay. -/
theorem State.sendFrames_other {l : List OutFrame} (hwait : noneFor i s.trs.wait) (hl : noneFor i l) :
    (s.sendFrames l).part i = s.part i ∧ noneFor i (s.sendFrames l).trs.wait ∧ State.TellKept i s (s.sendFrames l) := by
  obtain ⟨v, hv⟩ : ∃ v, v = s.putTrs { s.trs with wait := s.trs.wait ++ l } := ⟨_, rfl⟩
  have hall : noneFor i v.trs.wait := hv ▸ noneFor_append.mpr ⟨hwait, hl⟩
  obtain ⟨hleft, hpart, htell⟩ := v.flushFar_shown (i := i)
  obtain ⟨hpart', hkept⟩ := foldl_flushStep_other hall (v.flushStart, [])
  rw [← v.flushed_eq] at hpart' hkept
  rw [State.sendFrames, ← hv]
  refine ⟨?_, hleft ▸ hkept (fun _ h => nomatch h), ?_⟩
  · rw [hpart, hpart', v.flushStart_shown.1, hv]
    rfl
  · exact State.TellKept.trans (t := v) (hv ▸ ⟨rfl, rfl, rfl⟩) htell

/-- A control frame to a partner that can be told reaches it. -/
theorem State.sendFrames_tells (hcan : s.canTell i) {f : OutFrame} (hpart : f.part = i) (hcontrol : f.control = true) :
    s.toldOnce (s.sendFrames [f]) i ∧ noneFor i (s.sendFrames [f]).trs.wait := by
  obtain ⟨hgates, hwait, hcount, hkey⟩ := hcan
  obtain ⟨v, hv⟩ : ∃ v, v = s.putTrs { s.trs with wait := s.trs.wait ++ [f] } := ⟨_, rfl⟩
  obtain ⟨hleft, hflushed, -⟩ := v.flushFar_shown (i := i)
  obtain ⟨q, hq⟩ : ∃ q, q = s.trs.wait.foldl flushStep (v.flushStart, []) := ⟨_, rfl⟩
  have hstep : v.flushed = flushStep q f := by
    rw [v.flushed_eq, hq, hv]
    exact List.foldl_append ..
  obtain ⟨hstart, htell⟩ := v.flushStart_shown (i := i)
  obtain ⟨hqpart, hqnone⟩ := foldl_flushStep_other hwait (v.flushStart, [])
  have hqtell := foldl_flushStep_tell (i := i) s.trs.wait (v.flushStart, [])
  rw [← hq] at hqpart hqnone hqtell
  have hnone : noneFor i q.2 := hqnone (fun _ h => nomatch h)
  have hsv : State.TellKept i s v := hv ▸ ⟨rfl, rfl, rfl⟩
  have hall : State.TellKept i s q.1 := (hsv.trans htell).trans hqtell
  have hkept : q.1.part i = s.part i := by
    rw [hqpart, hstart, hv]
    rfl
  have hcount' : q.1.ctlCount i < 2 ^ 30 := by rwa [State.ctlCount, hkept, hall.round]
  have hfree : q.2.any (fun g => g.part == f.part && g.control == f.control) = false := by
    refine List.any_eq_false.mpr fun g hg h => hnone g hg ?_
    rw [Bool.and_eq_true, beq_iff_eq] at h
    exact h.1.trans hpart
  obtain ⟨htold, hsent⟩ := q.1.trySend_tells hpart hcontrol (by rwa [hall.gates]) hcount' (by rwa [hall.key])
  have hflush : flushStep q f = ((q.1.trySend f).1, q.2) := by
    rw [flushStep, hfree, hsent]
    rfl
  rw [State.sendFrames, ← hv]
  refine ⟨?_, by rwa [hleft, hstep, hflush]⟩
  rw [State.toldOnce, hflushed, hstep, hflush]
  exact State.toldOnce_of hall.round hkept htold

/-- A partner that was told stays so, whatever is handed over after. -/
theorem State.sendFrames_told (h : State.Told s u i) (hround : u.roundNow = s.roundNow) (l : List OutFrame) :
    State.Told s (u.sendFrames l) i ∧ (u.sendFrames l).roundNow = s.roundNow := by
  obtain ⟨v, hv⟩ : ∃ v, v = u.putTrs { u.trs with wait := u.trs.wait ++ l } := ⟨_, rfl⟩
  obtain ⟨-, hflushed, htell⟩ := v.flushFar_shown (i := i)
  obtain ⟨hstart, hstell⟩ := v.flushStart_shown (i := i)
  have hvround : v.roundNow = s.roundNow := hv ▸ hround
  have hvpart : v.part i = u.part i := hv ▸ rfl
  rw [State.sendFrames, ← hv]
  refine ⟨?_, htell.round.trans hvround⟩
  rw [State.Told, hflushed, v.flushed_eq]
  refine foldl_flushStep_told _ (v.flushStart, []) (hstell.round.trans hvround) ?_
  rwa [State.Told, hstart, hvpart]

/-- With no key for its partner and nothing else to send, a frame waits. -/
theorem State.sendFrames_waits (hwait : s.trs.wait = []) {f : OutFrame} (hkey : s.txKey f.part = none) : (s.sendFrames [f]).trs.wait = [f] := by
  obtain ⟨v, hv⟩ : ∃ v, v = s.putTrs { s.trs with wait := s.trs.wait ++ [f] } := ⟨_, rfl⟩
  have hvwait : v.trs.wait = [f] := by
    rw [hv]
    show s.trs.wait ++ [f] = [f]
    rw [hwait, List.nil_append]
  obtain ⟨-, htell⟩ := v.flushStart_shown (i := f.part)
  have hvkey : v.flushStart.txKey f.part = none := htell.key.trans (hv ▸ hkey)
  rw [State.sendFrames, ← hv, (v.flushFar_shown (i := f.part)).1, v.flushed_eq, hvwait, List.foldl_cons, List.foldl_nil, flushStep]
  dsimp only
  rw [v.flushStart.trySend_keyless hvkey]
  rfl

end

end Sys2Proof.Machine
end

section
/-!
SUPPORT. HELLO at its interval (13 R375, R389), REQUESTs served (13 R387) and repeated.
-/
namespace Sys2Proof.Machine

section
variable {s u : State} {i : Nat}

/-! ### Control frames, one after the other -/

theorem State.canTell_of {t : State} (htell : State.TellKept i s t) (hpart : t.part i = s.part i) (hwait : noneFor i t.trs.wait)
    (h : s.canTell i) : t.canTell i := by
  obtain ⟨hgates, -, hcount, hkey⟩ := h
  refine ⟨by rwa [htell.gates], hwait, by rwa [State.ctlCount, hpart, htell.round], ?_⟩
  have hkept := htell.key
  rw [State.txKey, State.txKey] at hkept
  rwa [hkept]

/-- A partner can be told, or was already. -/
def State.Reachable (s u : State) (i : Nat) : Prop := (u.canTell i ∧ u.roundNow = s.roundNow) ∨ (State.Told s u i ∧ u.roundNow = s.roundNow)

theorem State.control_told (h : State.Told s u i ∧ u.roundNow = s.roundNow) (k kind g : Nat) (body : List Byte) :
    State.Told s (u.control k kind g body) i ∧ (u.control k kind g body).roundNow = s.roundNow :=
  State.sendFrames_told h.1 h.2 _

/-- A control frame tells its partner. -/
theorem State.control_tells (h : State.Reachable s u i) {kind : Nat} (hkind : 3 ≤ kind) (g : Nat) (body : List Byte) :
    State.Told s (u.control i kind g body) i ∧ (u.control i kind g body).roundNow = s.roundNow := by
  obtain ⟨hcan, hround⟩ | htold := h
  · have hfar := u.control_far i kind g body
    obtain ⟨htold, -⟩ := State.sendFrames_tells hcan (f := ⟨i, kind, false, false, u.roundNow, g, 0, 0, body⟩) rfl (decide_eq_true hkind)
    obtain ⟨hr, hsent⟩ := htold.told
    exact ⟨⟨hr.trans hround, hsent⟩, hfar.roundNow.trans hround⟩
  · exact State.control_told htold ..

/-- A control frame to another partner takes none from what can be told. -/
theorem State.control_reachable (h : State.Reachable s u i) {k kind : Nat} (hkind : 3 ≤ kind) (g : Nat) (body : List Byte) :
    State.Reachable s (u.control k kind g body) i := by
  by_cases hk : k = i
  · exact .inr (hk ▸ State.control_tells (hk ▸ h) hkind g body)
  obtain ⟨hcan, hround⟩ | htold := h
  · obtain ⟨hpart, hwait, htell⟩ := u.sendFrames_other hcan.2.1 (l := [⟨k, kind, false, false, u.roundNow, g, 0, 0, body⟩])
      (noneFor_single.mpr hk)
    exact .inl ⟨State.canTell_of htell hpart hwait hcan, htell.round.trans hround⟩
  · exact .inr (State.control_told htold ..)

theorem State.foldl_reachable {α : Type} {f : State → α → State} (hf : ∀ u x, State.Reachable s u i → State.Reachable s (f u x) i) (l : List α)
    (h : State.Reachable s u i) : State.Reachable s (l.foldl f u) i := by
  induction l generalizing u with
  | nil => exact h
  | cons x l ih => exact ih (hf u x h)

theorem State.foldl_told {α : Type} {f : State → α → State}
    (hf : ∀ u x, State.Told s u i ∧ u.roundNow = s.roundNow → State.Told s (f u x) i ∧ (f u x).roundNow = s.roundNow) (l : List α)
    (h : State.Told s u i ∧ u.roundNow = s.roundNow) : State.Told s (l.foldl f u) i ∧ (l.foldl f u).roundNow = s.roundNow := by
  induction l generalizing u with
  | nil => exact h
  | cons x l ih => exact ih (hf u x h)

theorem State.sendLineage_reachable (h : State.Reachable s u i) (k : Nat) : State.Reachable s (u.sendLineage k) i :=
  State.foldl_reachable (fun _ _ hv => State.control_reachable hv (by decide) _ _) _ h

theorem State.sendLineage_told (h : State.Told s u i ∧ u.roundNow = s.roundNow) (k : Nat) :
    State.Told s (u.sendLineage k) i ∧ (u.sendLineage k).roundNow = s.roundNow :=
  State.foldl_told (fun _ _ hv => State.control_told hv ..) _ h

/-! ### HELLO -/

/-- A partner's turn of `TRS_HELLO_TIMER`. -/
def helloStep (s : State) (k : Nat) : State :=
  let s := s.sendHello k
  if s.fld (A.trsRstat k) F.trsRstat.PHASE = 1 then s.sendLineage k else s

theorem helloStep_far (u : State) (k : Nat) : u.FarKept (helloStep u k) := by
  unfold helloStep
  extract_lets v
  have hv : u.FarKept v := u.sendHello_far k
  split
  · exact hv.trans (v.sendLineage_far k)
  · exact hv

theorem helloStep_told (k : Nat) (h : State.Told s u i ∧ u.roundNow = s.roundNow) :
    State.Told s (helloStep u k) i ∧ (helloStep u k).roundNow = s.roundNow := by
  unfold helloStep
  extract_lets v
  have hv : State.Told s v i ∧ v.roundNow = s.roundNow := State.control_told h ..
  split
  · exact State.sendLineage_told hv k
  · exact hv

theorem helloStep_reachable (k : Nat) (h : State.Reachable s u i) : State.Reachable s (helloStep u k) i := by
  unfold helloStep
  extract_lets v
  have hv : State.Reachable s v i := State.control_reachable h (by decide) ..
  split
  · exact State.sendLineage_reachable hv k
  · exact hv

theorem helloStep_tells (h : State.Reachable s u i) : State.Told s (helloStep u i) i ∧ (helloStep u i).roundNow = s.roundNow := by
  unfold helloStep
  extract_lets v
  have hv : State.Told s v i ∧ v.roundNow = s.roundNow := State.control_tells h (by decide) ..
  split
  · exact State.sendLineage_told hv i
  · exact hv

/-- Each partner in the list that can be told is told. -/
theorem foldl_helloStep_tells {l : List Nat} (hi : i ∈ l) (h : State.Reachable s u i) :
    State.Told s (l.foldl helloStep u) i ∧ (l.foldl helloStep u).roundNow = s.roundNow := by
  induction l generalizing u with
  | nil => cases hi
  | cons k l ih =>
    rw [List.foldl_cons]
    obtain rfl | hi := List.mem_cons.mp hi
    · exact State.foldl_told (fun _ k hv => helloStep_told k hv) l (helloStep_tells h)
    · exact ih hi (helloStep_reachable k h)

theorem execTrsHelloTimer_off (h : s.flag A.trsCtl F.trsCtl.EN = false) : exec .trsHelloTimer s = .next s := by
  refine if_pos ?_
  rw [h]
  rfl

theorem execTrsHelloTimer_tells (hen : s.flag A.trsCtl F.trsCtl.EN = true)
    (hdue : s.reached s.trs.helloAt (s.fld A.trsAbsent F.trsAbsent.MS * 250) = true) : ∃ t, exec .trsHelloTimer s = .next t ∧
      t.trs.helloAt = s.pulse ∧
      ∀ j < 256, s.partOn j = true → s.canTell j → (t.part j).ctlRound = s.roundNow ∧ 1 ≤ (t.part j).ctlSent := by
  obtain ⟨u, hu⟩ : ∃ u, u = s.putTrs { s.trs with helloAt := s.pulse } := ⟨_, rfl⟩
  obtain ⟨v, hv⟩ : ∃ v, v = u.partners.foldl helloStep u := ⟨_, rfl⟩
  have hgo : ¬ (!s.flag A.trsCtl F.trsCtl.EN || !s.reached s.trs.helloAt (s.fld A.trsAbsent F.trsAbsent.MS * 250)) = true := by
    rw [hen, hdue]
    decide
  have hfar : u.FarKept v := hv ▸ State.FarKept.foldl _ (fun k _ w => helloStep_far w k) u
  have htold : ∀ j < 256, s.partOn j = true → s.canTell j → State.Told s v j ∧ v.roundNow = s.roundNow := fun j hj hon hcan => by
    have hmem : j ∈ u.partners := List.mem_filter.mpr ⟨List.mem_range.mpr hj, hu ▸ hon⟩
    exact hv ▸ foldl_helloStep_tells hmem (.inl ⟨hu ▸ hcan, hu ▸ rfl⟩)
  have hat : v.trs.helloAt = s.pulse := by
    rw [hfar.trs, hu]
    rfl
  have heq : exec .trsHelloTimer s = .next (match v.donor with
      | some i => if v.toInstall = v.groups ∧ !v.trs.deltas.any (fun d => d.part == i) then v.askJoin i else v
      | none => v) := by
    rw [hv, hu]
    exact if_neg hgo
  obtain ⟨t, ht, hlast⟩ : ∃ t, exec .trsHelloTimer s = .next t ∧ (t = v ∨ ∃ k, t = v.askJoin k) := by
    refine ⟨_, heq, ?_⟩
    split
    · split
      · exact .inr ⟨_, rfl⟩
      · exact .inl rfl
    · exact .inl rfl
  refine ⟨t, ht, ?_⟩
  obtain rfl | ⟨k, rfl⟩ := hlast
  · exact ⟨hat, fun j hj hon hcan => (htold j hj hon hcan).1⟩
  · refine ⟨?_, fun j hj hon hcan => (State.control_told (htold j hj hon hcan) ..).1⟩
    rw [(v.askJoin_far k).trs]
    exact hat

end

end Sys2Proof.Machine
end

section
/-!
SUPPORT. LINEAGE and JOIN (13 R389, R390, R395), and REQUESTs served (13 R387).
-/
namespace Sys2Proof.Machine

section
variable {p : PortNo} {frame : Bytes} {s s1 t u : State} {i : Nat} {h : FarHdr} {body : List Byte}

/-! ### The groups that take part -/

/-- Which groups take part is read from the registers below those of the partners. -/
theorem State.groups_of_rd (h : ∀ a < 0x2030000002000, t.rd a = s.rd a) : t.groups = s.groups := by
  have hctl : t.rd A.trsCtl = s.rd A.trsCtl := h _ (by decide)
  have hperiod : t.rd A.trsPeriod = s.rd A.trsPeriod := h _ (by decide)
  have hcal : ∀ i < 256, t.rd (A.trsCal i) = s.rd (A.trsCal i) := fun i hi => h _ (by unfold A.trsCal; omega)
  have hindex : ∀ g action, t.calIndex g action = s.calIndex g action := fun g action => by
    unfold State.calIndex firstNat
    refine List.find?_congr fun i hi => ?_
    have hi := hcal i (List.mem_range.mp hi)
    have hp : t.period = s.period := by rw [State.period, State.fld_of_rd hperiod, ← State.period]
    dsimp only
    rw [State.flag_of_fld (State.fld_of_rd hi _), State.fld_of_rd hi, State.fld_of_rd hi, State.fld_of_rd hi, hp]
  have hentry : ∀ g action, (t.calEntry g action).isSome = (s.calEntry g action).isSome := fun g action => by
    rw [State.calEntry, State.calEntry, hindex, Option.isSome_map, Option.isSome_map]
  refine List.filter_congr fun g _ => ?_
  simp only [State.takesPart, hentry, State.flag, State.fld_of_rd hctl]

theorem State.groups_setRstat (s : State) (i : Nat) (f : Fld) (x : Nat) : (s.setFld (A.trsRstat i) f x).groups = s.groups :=
  State.groups_of_rd fun a ha => State.rd_setFld_ne _ _ _ fun e => by
    rw [e, A.trsRstat] at ha
    omega

/-! ### LINEAGE -/

theorem execLineage_idle (hk : (farHdrOf frame).kind = 4) (hrecv : s.recvFrame p frame = (s1, some (i, h, body)))
    (hsub : 2 = (body.headD 0).toNat) (hphase : s1.fld (A.trsRstat i) F.trsRstat.PHASE ≠ 1) : exec (.lineage p frame) s = .next s1 := by
  show execLineage p frame s = _
  rw [execLineage, State.recvControl_own hk hrecv hsub rfl]
  exact congrArg _ (if_pos (bne_iff_ne.mpr hphase))

/-- A LINEAGE frame without a record gives the partner's r_h. -/
theorem execLineage_empty (hk : (farHdrOf frame).kind = 4) (hrecv : s.recvFrame p frame = (s1, some (i, h, body)))
    (hsub : 2 = (body.headD 0).toNat) (hphase : s1.fld (A.trsRstat i) F.trsRstat.PHASE = 1) (hcount : numAt body 8 2 = 0) :
    exec (.lineage p frame) s = .next ((s1.modPart i (fun x => { x with theirs := some (numAt body 4 4) })).lineageCome i) := by
  show execLineage p frame s = _
  rw [execLineage, State.recvControl_own hk hrecv hsub rfl]
  refine congrArg _ ((if_neg (by rw [hphase]; decide)).trans ?_)
  rw [hcount]
  rfl

theorem reunionRound_lt (a b : Nat) : reunionRound a b < 2 ^ 32 := Nat.mod_lt _ (by decide)

/-- An abandoned reunion shows phase 4, its round kept. -/
theorem State.abandon_shown (s : State) (i : Nat) : (s.abandon i).fld (A.trsRstat i) F.trsRstat.PHASE = 4 ∧
    (s.abandon i).fld (A.trsRstat i) F.trsRstat.RE = s.fld (A.trsRstat i) F.trsRstat.RE ∧ ((s.abandon i).part i).theirs = none := by
  unfold State.abandon
  extract_lets a u v w
  have hv : ∀ f, v.fld a f = u.fld a f := fun f => State.fld_of_rd (State.raise_rd ..) f
  have hw : ∀ f, w.fld a f = v.fld a f := fun _ => rfl
  have hpart : (w.part i).theirs = none := by rw [State.part_modPart_same]
  refine ⟨(hw _).trans ((hv _).trans (State.fld_setFld_same _ _ _ _ (by decide))), (hw _).trans ((hv _).trans ?_), hpart⟩
  exact State.fld_setFld_field _ _ _ _ _ (by decide) (by decide) (.inr (by decide))

theorem rstat_far (i : Nat) : farReg (A.trsRstat i) := by
  refine farReg_above ?_ ?_ ?_
  all_goals
    simp only [A.trsRstat, A.trsCnt, A.trsStat]
    omega

/-- The round of a reunion stays while it is decided. -/
theorem State.decideReunion_round (s : State) (i re : Nat) :
    (s.decideReunion i re).fld (A.trsRstat i) F.trsRstat.RE = s.fld (A.trsRstat i) F.trsRstat.RE := by
  have hother : ∀ (u : State) f x, f.ok → f.hi < F.trsRstat.RE.lo → (u.setFld (A.trsRstat i) f x).fld (A.trsRstat i) F.trsRstat.RE =
      u.fld (A.trsRstat i) F.trsRstat.RE := fun u f x hf hlo => State.fld_setFld_field _ _ _ _ _ hf (by decide) (.inr hlo)
  unfold State.decideReunion
  extract_lets x dec a decided ph phased rc noted told
  have htold : told.fld a F.trsRstat.RE = s.fld a F.trsRstat.RE :=
    (State.fld_of_rd (State.raise_rd ..) _).trans ((hother _ _ _ (by decide) (by decide)).trans (hother _ _ _ (by decide) (by decide)))
  split
  · have hpart : A.trsPart2 i ≠ a := by
      simp only [a, A.trsPart2, A.trsRstat]
      omega
    have hdelay : a ≠ A.trsDelay := by
      simp only [a, A.trsDelay, A.trsRstat]
      omega
    rw [State.fld_showDelay hdelay, (State.partEnter_kept (P := (· = a)) _ 1 2 hpart).fld rfl]
    exact htold
  · have hfar : told.FarKept _ := State.FarKept.foldl told.groups (fun g _ v => v.sendReunion_far i g) told
    rw [hfar.fld (rstat_far i)]
    exact htold

/-- A LINEAGE frame without a record: the round of the reunion is known, and what comes of it. -/
theorem execLineage_round (hk : (farHdrOf frame).kind = 4) (hrecv : s.recvFrame p frame = (s1, some (i, h, body)))
    (hsub : 2 = (body.headD 0).toNat) (hphase : s1.fld (A.trsRstat i) F.trsRstat.PHASE = 1) (hcount : numAt body 8 2 = 0) {re : Nat}
    (hre : re = reunionRound (s1.part i).rh (numAt body 4 4)) : ∃ t, exec (.lineage p frame) s = .next t ∧
      t.fld (A.trsRstat i) F.trsRstat.RE = re ∧
      ((∃ g ∈ s1.groups, (s1.grp g).seen.any (fun n => n == re || serialGt 32 n re) = true) →
        t.fld (A.trsRstat i) F.trsRstat.PHASE = 4 ∧ (t.part i).theirs = none) ∧
      ((∀ g ∈ s1.groups, (s1.grp g).seen.any (fun n => n == re || serialGt 32 n re) = false) →
        (∃ g ∈ s1.groups, FMap.has (s1.part i).lineage g = false) → t.fld (A.trsRstat i) F.trsRstat.PHASE = 1 ∧
          t.part i = { s1.part i with theirs := some (numAt body 4 4) }) := by
  obtain ⟨u, hu⟩ : ∃ u, u = s1.modPart i (fun x => { x with theirs := some (numAt body 4 4) }) := ⟨_, rfl⟩
  obtain ⟨v, hv⟩ : ∃ v, v = u.setFld (A.trsRstat i) F.trsRstat.RE re := ⟨_, rfl⟩
  have hpart : u.part i = { s1.part i with theirs := some (numAt body 4 4) } := hu ▸ s1.part_modPart_same i _
  have hvpart : v.part i = u.part i := hv ▸ rfl
  have hvround : v.fld (A.trsRstat i) F.trsRstat.RE = re := by
    rw [hv, State.fld_setFld_same _ _ _ _ (by decide)]
    exact Nat.mod_eq_of_lt (hre ▸ reunionRound_lt _ _)
  have hvphase : v.fld (A.trsRstat i) F.trsRstat.PHASE = 1 := by
    rw [hv, State.fld_setFld_field _ _ _ _ _ (by decide) (by decide) (.inl (by decide)), hu]
    exact hphase
  have hvgroups : v.groups = s1.groups := by
    rw [hv, State.groups_setRstat, hu]
    rfl
  have hvgrp : ∀ g, v.grp g = s1.grp g := fun g => by
    rw [hv, hu]
    rfl
  have hcome : u.lineageCome i = if v.groups.any (fun g => (v.grp g).seen.any (fun n => n == re || serialGt 32 n re)) then v.abandon i
      else if v.groups.any (fun g => !FMap.has (v.part i).lineage g) then v else v.decideReunion i re := by
    have hth : (u.part i).theirs = some (numAt body 4 4) := by rw [hpart]
    have hrh : reunionRound (u.part i).rh (numAt body 4 4) = re := by rw [hpart, hre]
    rw [State.lineageCome, hth]
    dsimp only
    rw [hrh, ← hv]
  refine ⟨_, (execLineage_empty hk hrecv hsub hphase hcount).trans (congrArg _ (hu ▸ hcome)), ?_⟩
  rw [hvgroups]
  split
  next hseen =>
    simp only [hvgrp] at hseen
    obtain ⟨hfour, hround, htheirs⟩ := v.abandon_shown i
    refine ⟨hround.trans hvround, fun _ => ⟨hfour, htheirs⟩, fun hnone _ => ?_⟩
    obtain ⟨g, hg, hgseen⟩ := List.any_eq_true.mp hseen
    exact absurd (hgseen.symm.trans (hnone g hg)) (by decide)
  next hunseen =>
    simp only [hvgrp] at hunseen
    have hnone : ¬ ∃ g ∈ s1.groups, (s1.grp g).seen.any (fun n => n == re || serialGt 32 n re) = true :=
      fun ⟨g, hg, hgseen⟩ => hunseen (List.any_eq_true.mpr ⟨g, hg, hgseen⟩)
    split
    · exact ⟨hvround, fun h => absurd h hnone, fun _ _ => ⟨hvphase, hvpart.trans hpart⟩⟩
    next hall =>
      refine ⟨(v.decideReunion_round i re).trans hvround, fun h => absurd h hnone, fun _ hmissing => absurd ?_ hall⟩
      obtain ⟨g, hg, hgmissing⟩ := hmissing
      refine List.any_eq_true.mpr ⟨g, hg, ?_⟩
      rw [hvpart, hpart, hgmissing]
      rfl

end

end Sys2Proof.Machine
end

section
/-!
SUPPORT. JOIN and READY (13 R395, R396), and REQUESTs served (13 R387).
-/
namespace Sys2Proof.Machine

section
variable {p : PortNo} {frame : Bytes} {s s1 t u : State} {i : Nat} {h : FarHdr} {body : List Byte}

/-! ### END frames sent -/

/-- The body of an END frame. -/
def State.endBody (s : State) (g kind slot code sent : Nat) : List Byte :=
  [6, BitVec.ofNat 8 kind] ++ leBytes 2 slot ++ leBytes 4 (s.gcfgWord g 1) ++ [BitVec.ofNat 8 code] ++ leBytes 3 0 ++ leBytes 4 sent ++
    (s.lin g (s.cur g)).digest

theorem State.endBody_code (s : State) (g kind slot sent : Nat) : numAt (s.endBody g kind slot 1 sent) 8 1 = 1 := by
  have hsplit : s.endBody g kind slot 1 sent = ([6, BitVec.ofNat 8 kind] ++ leBytes 2 slot ++ leBytes 4 (s.gcfgWord g 1)) ++
      (1 :: (leBytes 3 0 ++ leBytes 4 sent ++ (s.lin g (s.cur g)).digest)) := by
    simp [State.endBody]
  rw [numAt, hsplit, List.drop_left' (by simp)]
  rfl

/-- An END of a REQUEST that cannot be served reaches its partner, or waits for a key. -/
theorem State.sendEnd_reaches (s : State) (i g kind slot : Nat) : (s.canTell i → s.toldOnce (s.sendEnd i g kind slot 1 0) i) ∧
    (s.trs.wait = [] → s.keyOf (s.partKey i) (s.fld (A.secKey (s.partKey i)) F.secKey.TXEP) = none →
      ∃ b, b.headD 0 = 6 ∧ numAt b 8 1 = 1 ∧ (s.sendEnd i g kind slot 1 0).trs.wait = [⟨i, 4, false, false, s.roundNow, g, 0, 0, b⟩]) := by
  refine ⟨fun hcan => (State.sendFrames_tells hcan rfl rfl).1, fun hwait hkey => ?_⟩
  refine ⟨s.endBody g kind slot 1 0, rfl, s.endBody_code .., ?_⟩
  exact State.sendFrames_waits hwait (f := ⟨i, 4, false, false, s.roundNow, g, 0, 0, s.endBody g kind slot 1 0⟩) hkey

/-! ### REQUESTs -/

theorem State.serveXfer_unknown (s : State) (i g kind : Nat) (hslot : (s.groupSlots g).find? (fun q => q.1 == numAt body 2 2) = none) :
    s.serveXfer i g kind body = s := by
  rw [State.serveXfer]
  dsimp only
  rw [hslot]

theorem State.serveXfer_differs (s : State) (i g kind : Nat) {q : Nat × UDesc}
    (hslot : (s.groupSlots g).find? (fun q => q.1 == numAt body 2 2) = some q) (hne : numAt body 4 4 ≠ s.gcfgWord g 1 % 2 ^ 32) :
    s.serveXfer i g kind body = s.sendEnd i g kind (numAt body 2 2) 1 0 := by
  rw [State.serveXfer]
  dsimp only
  rw [hslot]
  exact if_pos (bne_iff_ne.mpr hne)

/-- A request is served from the slot it names; where the rounds differ it is answered by END with code 1. -/
theorem execRequest_served (hk : (farHdrOf frame).kind = 4) (hrecv : s.recvFrame p frame = (s1, some (i, h, body)))
    (hsub : 3 = (body.headD 0).toNat) : ∀ c e, (c, e) ∈ [(Instr.requestRepair p frame, 2), (.requestRecon p frame, 3), (.requestBlist p frame, 4)] →
      (body.getD 1 0).toNat = e →
        ((s1.groupSlots h.group).find? (fun q => q.1 == numAt body 2 2) = none → exec c s = .next s1) ∧
        (∀ q, (s1.groupSlots h.group).find? (fun q => q.1 == numAt body 2 2) = some q → ∃ t, exec c s = .next t ∧
          (numAt body 4 4 ≠ s1.gcfgWord h.group 1 % 2 ^ 32 → t = s1.sendEnd i h.group e (numAt body 2 2) 1 0)) := by
  have hown (n : Byte) (hn : (body.getD 1 0).toNat = n.toNat) :
      s.recvControl p 3 frame (fun b => b.getD 1 0 == n) = (s1, some (i, h, body)) :=
    State.recvControl_own hk hrecv hsub (beq_iff_eq.mpr (BitVec.eq_of_toNat_eq hn))
  intro c e hmem hkind
  simp only [List.mem_cons, Prod.mk.injEq, List.not_mem_nil, or_false] at hmem
  obtain ⟨rfl, rfl⟩ | ⟨rfl, rfl⟩ | ⟨rfl, rfl⟩ := hmem
  · have heq : exec (.requestRepair p frame) s = .next (s1.serveXfer i h.group 2 body) := by
      show execRequestRepair p frame s = _
      rw [execRequestRepair, hown 2 hkind]
    exact ⟨fun hslot => heq.trans (congrArg _ (s1.serveXfer_unknown i h.group 2 hslot)),
      fun q hslot => ⟨_, heq, s1.serveXfer_differs i h.group 2 hslot⟩⟩
  · have heq : exec (.requestRecon p frame) s = .next (s1.serveXfer i h.group 3 body) := by
      show execRequestRecon p frame s = _
      rw [execRequestRecon, hown 3 hkind]
    exact ⟨fun hslot => heq.trans (congrArg _ (s1.serveXfer_unknown i h.group 3 hslot)),
      fun q hslot => ⟨_, heq, s1.serveXfer_differs i h.group 3 hslot⟩⟩
  · refine ⟨fun hslot => ?_, fun q hslot => ?_⟩
    · show execRequestBlist p frame s = _
      rw [execRequestBlist, hown 4 hkind]
      dsimp only
      rw [hslot]
    · show ∃ t, execRequestBlist p frame s = .next t ∧ _
      rw [execRequestBlist, hown 4 hkind]
      dsimp only
      rw [hslot]
      exact ⟨_, rfl, fun hne => if_pos (bne_iff_ne.mpr hne)⟩

/-! ### HELLO, JOIN and READY -/

theorem execHello_taken (hk : (farHdrOf frame).kind = 4) (hrecv : s.recvFrame p frame = (s1, some (i, h, body)))
    (hsub : 1 = (body.headD 0).toNat) : exec (.hello p frame) s = .next s1 := by
  show execHello p frame s = _
  rw [execHello, State.recvControl_own hk hrecv hsub rfl]

theorem execRequestJoin_noted (hk : (farHdrOf frame).kind = 4) (hrecv : s.recvFrame p frame = (s1, some (i, h, body)))
    (hsub : 3 = (body.headD 0).toNat) (hkind : (body.getD 1 0).toNat = 1) : ∃ t, exec (.requestJoin p frame) s = .next t ∧
      t.part i = { s1.part i with joinDue := s1.groups } ∧ t.regs = s1.regs := by
  have hmore : (body.getD 1 0 == 1) = true := beq_iff_eq.mpr (BitVec.eq_of_toNat_eq hkind)
  refine ⟨s1.modPart i (fun x => { x with joinDue := s1.groups }), ?_, s1.part_modPart_same i _, rfl⟩
  show execRequestJoin p frame s = _
  rw [execRequestJoin, State.recvControl_own hk hrecv hsub hmore]

theorem execReady_taken (hk : (farHdrOf frame).kind = 4) (hrecv : s.recvFrame p frame = (s1, some (i, h, body)))
    (hsub : 7 = (body.headD 0).toNat) : exec (.ready p frame) s = .next (if s1.partState i = 3 then
      s1.modPart i (fun x => { x with joinAt := some (numAt body 4 4) }) else s1) := by
  show execReady p frame s = _
  rw [execReady, State.recvControl_own hk hrecv hsub rfl]

theorem execReady_joins (hk : (farHdrOf frame).kind = 4) (hrecv : s.recvFrame p frame = (s1, some (i, h, body)))
    (hsub : 7 = (body.headD 0).toNat) (hjoining : s1.partState i = 3) : ∃ t, exec (.ready p frame) s = .next t ∧ t.regs = s1.regs ∧
      t.part i = { s1.part i with joinAt := some (numAt body 4 4) } :=
  ⟨_, (execReady_taken hk hrecv hsub).trans (congrArg _ (if_pos hjoining)), rfl, s1.part_modPart_same i _⟩

end

end Sys2Proof.Machine
end

section
/-!
SUPPORT. Transfers of blocks (13 R386 to R388): BFP, ADELTA and END as they come, and REQUESTs repeated.
-/
namespace Sys2Proof.Machine

section
variable {p : PortNo} {frame : Bytes} {s s1 t u : State} {i : Nat} {h : FarHdr} {body : List Byte}

/-- A number of one byte is that byte. -/
theorem numAt_one (l : List Byte) (n : Nat) : numAt l n 1 = (l.getD n 0).toNat := by
  rw [numAt, List.getD_eq_getElem?_getD, ← List.head?_drop]
  cases l.drop n with
  | nil => rfl
  | cons b r => simp [ofLe]

/-! ### Transfers -/

theorem State.putXfer_slot {x y : Xfer} (hy : y ∈ (s.putXfer x).trs.xfers) (hslot : y.slot = x.slot) : y = x := by
  obtain ⟨z, -, rfl⟩ := List.mem_map.mp hy
  split at hslot
  next hz => rw [if_pos hz]
  next hz => exact absurd (beq_iff_eq.mpr hslot) hz

/-- A transfer whose END has not come is kept as it is. -/
theorem State.listBlocks_early {x : Xfer} (hsent : x.sent = none) : s.listBlocks x = s.putXfer x := by
  rw [State.listBlocks]
  refine if_pos ?_
  rw [hsent]
  exact Bool.or_true _

/-- A transfer whose frames have all come and whose blocks agree is ready. -/
theorem State.listBlocks_ready {x : Xfer} (hlisted : x.listed = false) (hneed : x.need = []) (hsent : x.sent = some x.got.length) :
    ∃ y, s.listBlocks x = s.putXfer y ∧ y.slot = x.slot ∧ y.listed = true ∧ y.ready = true ∧ y.digest = x.digest := by
  refine ⟨{ x with listed := true, askedAt := s.pulse, wait := 2 * s.fld (A.trsPart1 x.part) F.trsPart1.DEWMA + 2000, ready := x.need.isEmpty },
    ?_, rfl, rfl, by rw [hneed]; rfl, rfl⟩
  rw [State.listBlocks]
  refine (if_neg ?_).trans (if_pos ?_)
  · rw [hlisted, hsent, bne_self_eq_false]
    decide
  · rw [hneed]
    rfl

/-! ### BFP -/

theorem execBfp_unasked (hk : (farHdrOf frame).kind = 4) (hrecv : s.recvFrame p frame = (s1, some (i, h, body)))
    (hsub : 4 = (body.headD 0).toNat)
    (hnone : s1.trs.xfers.find? (fun x => x.part == i && x.slot == numAt body 2 2 && x.lastApp == numAt body 4 4 && !x.listed) = none) :
    exec (.bfp p frame) s = .next s1 := by
  show execBfp p frame s = _
  rw [execBfp, State.recvControl_own hk hrecv hsub rfl]
  dsimp only
  rw [hnone]

/-- Blocks whose fingerprints differ are to be fetched. -/
theorem execBfp_lists (hk : (farHdrOf frame).kind = 4) (hrecv : s.recvFrame p frame = (s1, some (i, h, body)))
    (hsub : 4 = (body.headD 0).toNat) {x : Xfer}
    (hx : s1.trs.xfers.find? (fun x => x.part == i && x.slot == numAt body 2 2 && x.lastApp == numAt body 4 4 && !x.listed) = some x)
    (hsent : x.sent = none) {q : Nat × UDesc} (hq : (s1.groupSlots h.group).find? (fun q => q.1 == x.slot) = some q) :
    ∃ t, exec (.bfp p frame) s = .next t ∧ t.regs = s1.regs ∧ ∀ y ∈ t.trs.xfers, y.slot = x.slot →
      ∀ j < min 527 (numAt body 12 2), q.2.blocks.contains (numAt body 8 4 + j) = true →
        s1.blockPrint q.2 (s1.cur h.group) (numAt body 8 4 + j) ≠ numAt body (16 + 8 * j) 8 → numAt body 8 4 + j ∈ y.need := by
  obtain ⟨bad, hbad⟩ : ∃ l, l = (List.range (min 527 (numAt body 12 2))).filter (fun k =>
      q.2.blocks.contains (numAt body 8 4 + k) && s1.blockPrint q.2 (s1.cur h.group) (numAt body 8 4 + k) != numAt body (16 + 8 * k) 8) := ⟨_, rfl⟩
  obtain ⟨x', hx'⟩ : ∃ y, y = { x with need := (x.need ++ bad.map (· + numAt body 8 4)).eraseDups, got := (x.got ++ [numAt body 8 4]).eraseDups } :=
    ⟨_, rfl⟩
  have hslot : x'.slot = x.slot := hx' ▸ rfl
  have hneed : x'.need = (x.need ++ bad.map (· + numAt body 8 4)).eraseDups := hx' ▸ rfl
  have hkept : s1.listBlocks x' = s1.putXfer x' := State.listBlocks_early (hx' ▸ hsent)
  refine ⟨s1.putXfer x', ?_, rfl, fun y hy hys j hj hheld hdiff => ?_⟩
  · show execBfp p frame s = _
    rw [execBfp, State.recvControl_own hk hrecv hsub rfl]
    dsimp only
    rw [hx]
    dsimp only
    rw [hq, ← hkept, hx', hbad]
  · rw [State.putXfer_slot hy (hys.trans hslot.symm), hneed, List.mem_eraseDups, hbad]
    refine List.mem_append_right _ (List.mem_map.mpr ⟨j, List.mem_filter.mpr ⟨List.mem_range.mpr hj, ?_⟩, Nat.add_comm ..⟩)
    rw [hheld, bne_iff_ne.mpr hdiff]
    rfl

/-! ### ADELTA -/

theorem execAdelta_held (hk : (farHdrOf frame).kind = 4) (hrecv : s.recvFrame p frame = (s1, some (i, h, body)))
    (hsub : 5 = (body.headD 0).toNat) {kind : Nat} (hkind : kind = (body.getD 1 0).toNat) (hdonor : s1.donor ≠ some i) :
    ∃ t, exec (.adelta p frame) s = .next t ∧ t.regs = s1.regs ∧ t.mem = s1.mem ∧
      (t = s1 ∨ ∃ d ∈ t.trs.deltas, d.part = i ∧ d.arr = kind ∧ d.slot = numAt body 2 2 ∧ d.block = numAt body 8 4 ∧
        d.half = numAt body 12 1) := by
  show ∃ t, execAdelta p frame s = .next t ∧ _
  rw [execAdelta, State.recvControl_own hk hrecv hsub rfl]
  refine ⟨_, rfl, ?_⟩
  dsimp only
  split
  · exact ⟨rfl, rfl, .inl rfl⟩
  split
  · exact ⟨rfl, rfl, .inl rfl⟩
  split
  next hd => exact absurd hd hdonor
  · refine ⟨rfl, rfl, .inr ⟨_, List.mem_append_right _ List.mem_cons_self, rfl, ?_, rfl, rfl, rfl⟩⟩
    rw [hkind]
    exact numAt_one ..

/-! ### END -/

/-- The END of a transfer that this site asked for. -/
def State.endTransfer (s : State) (body : List Byte) (kind : Nat) (asked : Option Xfer) : State :=
  match asked with
  | none => s
  | some x =>
    if numAt body 8 1 != 0 then s.dropXfer x
    else if kind = 4 then s
    else if x.listed then s
    else s.listBlocks { x with sent := some (numAt body 12 4), digest := (body.drop 16).take 16 }

theorem execEnd_taken (hk : (farHdrOf frame).kind = 4) (hrecv : s.recvFrame p frame = (s1, some (i, h, body)))
    (hsub : 6 = (body.headD 0).toNat) {kind : Nat} (hkind : kind = (body.getD 1 0).toNat) : exec (.endXfer p frame) s = .next (
      if kind = 0 then
        if s1.fld (A.trsRstat i) F.trsRstat.PHASE = 2 then
          s1.modPart i (fun x => { x with ended := FMap.set x.ended h.group ((body.drop 16).take 16) }) else s1
      else if kind = 1 then
        if s1.donor = some i then s1.joinEnd i h.group (numAt body 2 2) (numAt body 4 4) ((body.drop 16).take 16) else s1
      else s1.endTransfer body kind (s1.trs.xfers.find? (fun x => x.part == i && x.slot == numAt body 2 2))) := by
  show execEnd p frame s = _
  rw [execEnd, State.recvControl_own hk hrecv hsub rfl, hkind, ← numAt_one]
  rfl

section
variable (hk : (farHdrOf frame).kind = 4) (hrecv : s.recvFrame p frame = (s1, some (i, h, body))) (hsub : 6 = (body.headD 0).toNat) {kind : Nat}
  (hkind : kind = (body.getD 1 0).toNat)
include hk hrecv hsub hkind

theorem execEnd_reunion (hzero : kind = 0) (hphase : s1.fld (A.trsRstat i) F.trsRstat.PHASE = 2) : ∃ t, exec (.endXfer p frame) s = .next t ∧
    FMap.get? (t.part i).ended h.group = some ((body.drop 16).take 16) ∧ t.regs = s1.regs := by
  refine ⟨_, (execEnd_taken hk hrecv hsub hkind).trans (congrArg _ ((if_pos hzero).trans (if_pos hphase))), ?_, rfl⟩
  rw [State.part_modPart_same, FMap.get?_set_same]

theorem execEnd_stranger (hone : kind = 1) (hdonor : s1.donor ≠ some i) : exec (.endXfer p frame) s = .next s1 := by
  rw [execEnd_taken hk hrecv hsub hkind, if_neg (by omega), if_pos hone, if_neg hdonor]

theorem execEnd_unasked (htwo : 2 ≤ kind) (hnone : s1.trs.xfers.find? (fun x => x.part == i && x.slot == numAt body 2 2) = none) :
    exec (.endXfer p frame) s = .next s1 := by
  rw [execEnd_taken hk hrecv hsub hkind, if_neg (by omega), if_neg (by omega), hnone, State.endTransfer]

/-- A transfer that its source cannot serve is dropped. -/
theorem execEnd_drops (htwo : 2 ≤ kind) {x : Xfer} (hx : s1.trs.xfers.find? (fun x => x.part == i && x.slot == numAt body 2 2) = some x)
    (hcode : numAt body 8 1 ≠ 0) : ∃ t, exec (.endXfer p frame) s = .next t ∧ x ∉ t.trs.xfers ∧ t.regs = s1.regs := by
  refine ⟨s1.dropXfer x, ?_, fun hmem => ?_, rfl⟩
  · rw [execEnd_taken hk hrecv hsub hkind, if_neg (by omega), if_neg (by omega), hx]
    exact congrArg _ (if_pos (bne_iff_ne.mpr hcode))
  · have hne := (List.mem_filter.mp hmem).2
    simp at hne

/-- With all its frames here and no block that differs, a transfer is ready. -/
theorem execEnd_ready (htwo : 2 ≤ kind) (hfour : kind ≠ 4) {x : Xfer}
    (hx : s1.trs.xfers.find? (fun x => x.part == i && x.slot == numAt body 2 2) = some x) (hcode : numAt body 8 1 = 0) (hlisted : x.listed = false)
    (hneed : x.need = []) (hcount : numAt body 12 4 = x.got.length) : ∃ t, exec (.endXfer p frame) s = .next t ∧ t.regs = s1.regs ∧
      ∀ y ∈ t.trs.xfers, y.slot = x.slot → y.listed = true ∧ y.ready = true ∧ y.digest = (body.drop 16).take 16 := by
  obtain ⟨y, hlist, hslot, hylisted, hyready, hydigest⟩ := State.listBlocks_ready (s := s1)
    (x := { x with sent := some (numAt body 12 4), digest := (body.drop 16).take 16 }) hlisted hneed (congrArg some hcount)
  refine ⟨s1.putXfer y, ?_, rfl, fun z hz hzs => ?_⟩
  · rw [execEnd_taken hk hrecv hsub hkind, if_neg (by omega), if_neg (by omega), hx, State.endTransfer, hcode,
      if_neg (by decide), if_neg hfour, if_neg (by rw [hlisted]; decide), hlist]
  · rw [State.putXfer_slot hz (hzs.trans hslot.symm)]
    exact ⟨hylisted, hyready, hydigest⟩

end

/-! ### REQUESTs repeated -/

theorem execTrsRequestRetry_idle {sl : Fin 4096} (hnone : s.trs.xfers.find? (fun x => x.slot == sl.val) = none) :
    exec (.trsRequestRetry sl) s = .next s := by
  show execTrsRequestRetry sl s = _
  rw [execTrsRequestRetry, hnone]

theorem execTrsRequestRetry_asks {sl : Fin 4096} {x : Xfer} (hx : s.trs.xfers.find? (fun x => x.slot == sl.val) = some x)
    (hready : x.ready = false) (hdue : s.reached x.askedAt x.wait = true) : ∃ t, exec (.trsRequestRetry sl) s = .next t ∧
      ∀ y ∈ t.trs.xfers, y.slot = sl.val → y.askedAt = s.pulse ∧ y.wait = 2 * x.wait ∧ y.need = x.need := by
  obtain ⟨x', hx'⟩ : ∃ y, y = { x with askedAt := s.pulse, wait := 2 * x.wait } := ⟨_, rfl⟩
  obtain ⟨t, ht⟩ : ∃ t, t = if x.listed then (s.putXfer x').askBlocks x' else (s.putXfer x').askXfer x' := ⟨_, rfl⟩
  have hfar : (s.putXfer x').FarKept t := by
    rw [ht]
    split
    · exact State.askBlocks_far ..
    · exact State.askXfer_far ..
  have hsl : x.slot = sl.val := by simpa using List.find?_some hx
  have hslot : x'.slot = sl.val := hx' ▸ hsl
  refine ⟨t, ?_, fun y hy hys => ?_⟩
  · show execTrsRequestRetry sl s = _
    rw [execTrsRequestRetry, hx, ht, hx']
    refine congrArg _ (if_neg ?_)
    rw [hready, hdue]
    decide
  · rw [State.putXfer_slot (hfar.xfers ▸ hy) (hys.trans hslot.symm), hx']
    exact ⟨rfl, rfl, rfl⟩

end

end Sys2Proof.Machine
end

section
/-!
PROOF. Frames from partners are taken, answered and timed as stated (12 R360 to R363, R372; 13 R375 to R396).
-/
open Sys2Proof Sys2Proof.Machine

/-- Settles O60: what reception discards, the frames of each kind, the control frames of each subtype, and the timers, each read off its
command. -/
theorem trestleFrames : Obligations.TrestleFrames := by
  unfold Obligations.TrestleFrames
  intro p frame s s1 i h body k hk
  refine ⟨fun hrecv c d hmem => hk ▸ execFrame_discarded hrecv c d hmem, fun hrecv => ⟨?repeated, ?data, ?ack, ?nack, ?fprint, ?unknown,
    ?control⟩, fun j g r => ⟨execTrsNackTimer_idle, ?nackTimer, ?lastTimer, execTrsLastResendTimer_idle, execTrsPartnerSilence_off,
      execTrsPartnerSilence_absent⟩, execTrsTxbufFullTimer_idle, execTrsHelloTimer_off, fun t0 => execTrsTxbufFullTimer_reports,
    execTrsHelloTimer_tells, fun sl => execTrsRequestRetry_idle, fun sl x => execTrsRequestRetry_asks⟩
  case repeated =>
    intro hzero hrep
    refine ⟨_, execTrsDataReceive_taken (hk ▸ hzero) hrecv, fun c hpast hopen => ?_⟩
    rw [if_pos hrep, State.repeatData_open hpast hopen]
  case data =>
    intro hzero hnew
    have hkind : h.kind = 0 := (State.recvFrame_hdr hrecv) ▸ hk ▸ hzero
    obtain ⟨c, hc, hbody⟩ := State.takeData_holds (s := s1) (i := i) (body := body) hkind hnew
    refine ⟨_, c, (execTrsDataReceive_taken (hk ▸ hzero) hrecv).trans (congrArg _ (if_neg ?_)), hc, hbody⟩
    rw [hnew]
    decide
  case ack => exact fun htwo hwait hidle => execTrsAckReceive_frees (hk ▸ htwo) hrecv hwait hidle
  case nack => exact fun hone => execTrsNackReceive_taken (hk ▸ hone) hrecv
  case fprint =>
    intro hthree hnew j hj
    refine ⟨execTrsFprintReceive_diverges (hk ▸ hthree) hrecv hnew hj, fun heq => ?_⟩
    refine execTrsFprintReceive_agrees (hk ▸ hthree) hrecv (.inl ?_)
    rw [State.sameAnchor_of_anchor hj, heq, beq_self_eq_true]
  case unknown => exact fun hthree hnone => execTrsFprintReceive_agrees (hk ▸ hthree) hrecv (.inr hnone)
  case control =>
    intro hfour sub kind hsub hkind
    have hctl : (farHdrOf frame).kind = 4 := hk ▸ hfour
    refine ⟨execControl_other hctl hrecv hsub hkind, fun h => execHello_taken hctl hrecv (h ▸ hsub),
      fun h => execLineage_idle hctl hrecv (h ▸ hsub), fun h hphase hcount re => execLineage_round hctl hrecv (h ▸ hsub) hphase hcount,
      fun h hone => execRequestJoin_noted hctl hrecv (h ▸ hsub) (hkind.symm.trans hone), ?requests,
      fun x q h hx hsent hq => execBfp_lists hctl hrecv (h ▸ hsub) hx hsent hq, fun h => execBfp_unasked hctl hrecv (h ▸ hsub),
      fun h => execAdelta_held hctl hrecv (h ▸ hsub) hkind, fun h => execEnd_reunion hctl hrecv (h ▸ hsub) hkind,
      fun h => execEnd_stranger hctl hrecv (h ▸ hsub) hkind, fun h => execEnd_unasked hctl hrecv (h ▸ hsub) hkind,
      fun x h htwo hx => execEnd_drops hctl hrecv (h ▸ hsub) hkind htwo hx,
      fun x h htwo hne hx hcode hlisted hneed => execEnd_ready hctl hrecv (h ▸ hsub) hkind htwo hne hx hcode hlisted hneed,
      fun h => execReady_joins hctl hrecv (h ▸ hsub), fun h hstate => ?ready⟩
    case requests =>
      intro c e hmem h he
      obtain ⟨hnone, hserved⟩ := execRequest_served hctl hrecv (h ▸ hsub) c e hmem (hkind.symm.trans he)
      refine ⟨hnone, fun q hq => ?_⟩
      obtain ⟨t, ht, hdiffers⟩ := hserved q hq
      exact ⟨t, ht, fun hne => hdiffers hne ▸ s1.sendEnd_reaches ..⟩
    case ready => exact (execReady_taken hctl hrecv (h ▸ hsub)).trans (congrArg _ (if_neg hstate))
  case nackTimer => exact fun c q hc hq hon hen hfresh hpast hagain => execTrsNackTimer_nacks hc hq hon hen hfresh hpast hagain
  case lastTimer => exact fun f mine hmine hf hdue => execTrsLastResendTimer_repeats hmine hf hdue
end
